-- ==== Sys2Proof/Word.lean ====
section
/-!
DEFINITION. Word.lean: the machine's word types and the sparse table that every array of the state is.
-/
namespace Sys2Proof

/-- A byte of memory. -/
abbrev Byte := BitVec 8

/-- A register or a memory word: 32 bits, bit 0 the least significant (R4). -/
abbrev Word := BitVec 32

/-- A table from numbers to values of `α`: a list of the entries that differ from the table's default,
with rising keys (the operations are in Machine/Tab.lean). -/
abbrev Tab (α : Type) := List (Nat × α)

end Sys2Proof
end

