-- ==== Sys2Proof/Operand.lean ====
section
/-!
DEFINITION. Operand.lean: the operand types of the commands: identities of blocks, records and contexts, and the
messages that commands carry.
-/
namespace Sys2Proof

/-- The blocks of R11, in the order of their identifiers. -/
inductive BlockId where
  | loom | twill | sensing | saltern | grid
  | ethernet | time | t1s | plc | can | session | zwidy
  | metrology | tariff | eventStore | keyStore | tamperWatch
  | selvedge | thermal | loadSwitch | brine
  | weft | sram | flash | fabric | power | selfTest | ladder | debug
deriving DecidableEq, Repr

/-- One error record (R34): of the chip, of region `r` or of a block. -/
inductive RecordId where
  | chip
  | region (r : Fin 4)
  | block (b : BlockId)
deriving DecidableEq, Repr

/-- A Weft context: engines 0 to 7 are WS[0..7], 8 is the metrology sequencer, 9 is the Selvedge pair;
each holds the contexts C0 to C3 (R36, R62, R63). -/
structure CtxId where
  eng : Fin 10
  ctx : Fin 4
deriving DecidableEq, Repr

/-- A PTP message on a port (R239 to R242): `kind` is the messageType of IEEE 1588 (0 Sync, 2 Pdelay_Req,
3 Pdelay_Resp, 8 Follow_Up, 10 Pdelay_Resp_Follow_Up), `corr` the correctionField in 2^-16 ns, and `sec`, `ns` the
time stamp the message carries. -/
structure PtpMsg where
  kind : Fin 16
  domain : Byte
  seq : BitVec 16
  twoStep : Bool
  corr : Int
  sec : Nat
  ns : Nat
deriving DecidableEq, Repr

/-- A CM_MNBC_SOUND frame as a Green PHY channel measures it (R281): its RUN_ID, how far its largest sample lies above the
noise floor in dB, and the attenuation of the 58 groups in dB, 8 bits each. -/
structure Sound where
  run : BitVec 64
  peak : Byte
  att : BitVec 464
deriving DecidableEq, Repr

/-- A received symbol of a PLC frame (R285, R286): how far its largest sample lies above the noise floor in dB, and the
channel estimate taken from it. -/
structure Symbol where
  peak : Byte
  est : BitVec 32
deriving DecidableEq, Repr

/-- What a link knows of a received frame beside its bytes (R277 to R287). A T1S port: the FCS is good. A PLC channel: a
physical block of the frame was re-sent, the frame came encrypted with the NMK, its symbols, the checks of its physical
blocks in order (true passes), the sender's identifier, and the sound it is. -/
structure RxInfo where
  fcsOk : Bool
  repaired : Bool
  sealed : Bool
  symbols : List Symbol
  pbs : List Bool
  tei : Byte
  sound : Option Sound
deriving DecidableEq, Repr

/-- What a link knows of a frame it sent (R276, R286). A T1S port: it was sent rather than dropped at the retry limit, its
collisions, and whether the PHY detected jabber. A PLC channel: for each physical block how often the receiver's SACK
listed it. -/
structure TxInfo where
  sent : Bool
  coll : BitVec 4
  jabber : Bool
  fails : List Byte
deriving DecidableEq, Repr

/-- What phase p of Brine senses in its switching period (R463): ns since its slot, the inductor current in 10 mA, signed, and
whether BR_SW[p] lies above mid-supply. -/
structure BrSense where
  p : Fin 4
  t : BitVec 16
  i : BitVec 16
  sw : Bool
deriving DecidableEq, Repr

/-- What a client offers in its hello (R302): the versions, and the code points of its suites, groups and signature
schemes. -/
structure TlsOffer where
  tls13 : Bool
  tls12 : Bool
  suites : List (BitVec 16)
  groups : List (BitVec 16)
  schemes : List (BitVec 16)
deriving DecidableEq, Repr

/-- A certificate of a client's chain, the client's first (R303): its public key, its issuer's, which may be on P-384, the
digest that is signed and its signature, and the UTC seconds between which it is valid. -/
structure TlsCert where
  pub : List Byte
  issuer : List Byte
  p384 : Bool
  digest : List Byte
  sig : List Byte
  notBefore : Nat
  notAfter : Nat
deriving DecidableEq, Repr

/-- What the TLS engine makes of a job (R296, R302): STATUS and DETAIL, the bytes for OUT and TX, the input consumed, whether
the session stays open and whether its handshake has become complete; the hello and the client's chain that its input
brought, if any. -/
structure TlsOut where
  status : Byte
  detail : Byte
  out : List Byte
  tx : List Byte
  consumed : BitVec 16
  stays : Bool
  complete : Bool
  offer : Option TlsOffer
  chain : List TlsCert
deriving DecidableEq, Repr

/-- What the start-up tests 10 and 11 found at fault (R519): Ethernet and T1S ports, the memories of the PLC modem, load-switch
channels, and the thermal reference. -/
structure TestCells where
  eth : BitVec 2
  t1s : BitVec 8
  plc : Bool
  hs : BitVec 16
  ref : Bool
deriving DecidableEq, Repr

/-- A CAN frame (R485): an 11-bit identifier stands in bits [28:18]. -/
structure CanFrame where
  id : BitVec 29
  xtd : Bool
  rtr : Bool
  fdf : Bool
  brs : Bool
  esi : Bool
  dlc : BitVec 4
  data : List Byte
deriving DecidableEq, Repr

/-- What an error in a frame does to the counters of a controller (R482, as ISO 11898-1 gives): a receiver's error, one after
which it first saw a dominant bit, a transmitter's error, or one that the standard exempts. -/
inductive CanErr where
  | rx | rxDominant | tx | exempt
deriving DecidableEq, Repr

end Sys2Proof
end

