-- ==== Sys2Proof/Config.lean ====
section
/-!
DEFINITION. Config.lean: the values that the spec leaves open, as constants without a body: nothing in Lean can evaluate
them, so what is proved holds whatever they are.
Each is named in a row of notes/assumptions.
-/
namespace Sys2Proof.Config

/-- The n-th free value of a run: State.free counts them. -/
opaque freeNat : Nat → Nat

/-- The first-order low-pass of AIN_SP (R133): TAU, the filtered code, the new code; the spec gives the time constant and
no arithmetic. -/
opaque lowPass : Nat → Nat → Nat → Nat

/-- Byte i of a frame as a PLC channel puts it on the line, encrypted with AES-128 (R280, R283): the NMK, the frame. -/
opaque plcByte : List Byte → List Byte → Nat → Byte
/-- The tone map that a channel estimation gives (R285): the carriers masked, the estimates of its symbols; and its PHY rate
in Mbit/s. -/
opaque toneMap : Nat → List (BitVec 32) → Nat
opaque toneRate : Nat → Nat

/-- T_LATCH of HS[n], which R460 bounds from 160 °C to 190 °C: taken modulo that span, in 0.1 °C (R450). -/
opaque tLatch : Nat → Nat

/-- The decimated bitstream of channel GCH[n] of grid measurement at an instant of the chip in ns (R252). -/
opaque gridWave : Nat → Int → Int
/-- A phasor of two single-precision numbers, from the rectangular to the polar form (R257). -/
opaque toPolar : BitVec 64 → BitVec 64

/-! The cryptographic algorithms that the spec names and whose arithmetic it leaves to their standards (R203, R353, R403,
R406): each constant is one byte of a result, `i` its place. -/

/-- Byte i of the AES encryption of a block: key, block. -/
opaque aesByte : List Byte → List Byte → Nat → Byte
/-- Byte i of the AES-CTR key stream: key, initial counter block. -/
opaque streamByte : List Byte → List Byte → Nat → Byte
/-- Byte i of an AES-GCM tag: key, IV, associated data, ciphertext. -/
opaque tagByte : List Byte → List Byte → List Byte → List Byte → Nat → Byte
/-- Byte i of a digest: SHA-384 or SHA-256, the data. -/
opaque shaByte : Bool → List Byte → Nat → Byte
/-- Byte i of an uncompressed public key: P-384 or P-256, the private key. -/
opaque publicByte : Bool → List Byte → Nat → Byte
/-- Byte i of an ECDSA signature: P-384 or P-256, the private key, the digest, the random number drawn. -/
opaque signByte : Bool → List Byte → List Byte → Nat → Nat → Byte
/-- An ECDSA signature verifies: P-384 or P-256, the public key, the digest, the signature. -/
opaque verifies : Bool → List Byte → List Byte → List Byte → Bool
/-- Byte i of an ECDH shared secret: P-384 or P-256, the private key, the peer's public key. -/
opaque sharedByte : Bool → List Byte → List Byte → Nat → Byte
/-- Byte i of HKDF-SHA-256 with empty salt: the secret, the info string. -/
opaque hkdfByte : List Byte → List Byte → Nat → Byte

/-- Byte i of the device serial number, from fuses (R353, R526). -/
opaque serialByte : Nat → Byte

/-- Byte i of the uncompressed public key of root slot n, and the policy recorded with its fuse digest (R399). -/
opaque rootByte : Nat → Nat → Byte
opaque rootUse : Nat → Nat
opaque rootUsers : Nat → Nat
/-- Byte i of the boot ROM (R77). -/
opaque romByte : Nat → Byte
/-- The level of the ball PAIR_SEL (R222). -/
opaque pairSel : Bool

/-! Sensor curve (R314): the IEC 60751 platinum curve is no part of the spec. -/

/-- The temperature of a PT1000 in 0.1 °C: the sample ratio in units of 2^-20. -/
opaque ptTemp : Nat → Int

/-! The EXI codec: the grammars of the schemas of R298 are no part of the spec. -/

/-- What a DECODE finds: 0 well formed, 1 malformed, 2 too deep, 3 a value too long: schema, stream. -/
opaque exiFinds : Nat → List Byte → Nat
/-- The message image of a stream: schema, stream. -/
opaque exiImage : Nat → List Byte → List Byte
/-- What an ENCODE or a DIGEST finds: 0 fits the grammar, 1 does not, 2 too deep, 3 a value too long: schema, image. -/
opaque imageFinds : Nat → List Byte → Nat
/-- The clamp elements of an image (R306): value and exponent of each, in document order: schema, image. -/
opaque clampItems : Nat → List Byte → List (Int × Int)
/-- The stream of an image with its clamp elements replaced: schema, image, the elements. -/
opaque exiStream : Nat → List Byte → List (Int × Int) → List Byte
/-- The EXI fragment of an image (R301): schema, image. -/
opaque exiFragment : Nat → List Byte → List Byte
/-- The input bytes that a codec job consumes: operation, schema, input. -/
opaque exiUsed : Nat → Nat → List Byte → Nat

end Sys2Proof.Config
end

