-- ==== Sys2Proof/Machine/Reg.lean ====
section
/-!
DEFINITION. Machine/Reg.lean: the address of every register of the chip (namespace Reg) and the bit
range of every field (namespace F), from the register tables of the chapters of spec/.
A register of an array takes its index or indices as arguments.
A field of register X is F.X_FIELD.
-/
namespace Sys2Proof.Machine

/-- A field of a 32-bit register: bits [hi:lo]. -/
structure Fld where
  hi : Nat
  lo : Nat
deriving DecidableEq, Repr

namespace Reg

/-- 01_architecture.md R34. -/
def ERR_CHIP_STATUS : Nat := 0x50200000
/-- 01_architecture.md R34. -/
def ERR_CHIP_CAUSE : Nat := 0x50200004
/-- 01_architecture.md R30, R34. -/
def ERR_CHIP_TIME_S : Nat := 0x50200008
/-- 01_architecture.md R30, R34. -/
def ERR_CHIP_TIME_NS : Nat := 0x5020000C
/-- 01_architecture.md R34. -/
def ERR_CHIP_TMO : Nat := 0x50200010
/-- 01_architecture.md R34, R35. -/
def ERR_LOCK : Nat := 0x50200014
/-- 01_architecture.md R34. -/
def ERR_REG_STATUS (i : Nat) : Nat := 0x50200100 + 0x20 * i
/-- 01_architecture.md R34. -/
def ERR_REG_CAUSE (i : Nat) : Nat := 0x50200104 + 0x20 * i
/-- 01_architecture.md R30, R34. -/
def ERR_REG_TIME_S (i : Nat) : Nat := 0x50200108 + 0x20 * i
/-- 01_architecture.md R30, R34. -/
def ERR_REG_TIME_NS (i : Nat) : Nat := 0x5020010C + 0x20 * i
/-- 01_architecture.md R34. -/
def ERR_REG_CFG (i : Nat) : Nat := 0x50200110 + 0x20 * i
/-- 01_architecture.md R34. -/
def ERR_REG_CTRL (i : Nat) : Nat := 0x50200114 + 0x20 * i
/-- 01_architecture.md R34. -/
def FAB_PRIO0 : Nat := 0x50200800
/-- 01_architecture.md R34. -/
def FAB_PRIO1 : Nat := 0x50200804
/-- 01_architecture.md R21, R34. -/
def FAB_TMO : Nat := 0x50200808
/-- 01_architecture.md R18, R34. -/
def FAB_OUTSTANDING : Nat := 0x5020080C
/-- 01_architecture.md R21, R34. -/
def FAB_ERR_ADDR : Nat := 0x50200810
/-- 01_architecture.md R21, R34. -/
def FAB_ERR_INFO : Nat := 0x50200814
/-- 01_architecture.md R34. -/
def ERR_BLK_STATUS (i : Nat) : Nat := 0x50201000 + 0x20 * i
/-- 01_architecture.md R34. -/
def ERR_BLK_CAUSE (i : Nat) : Nat := 0x50201004 + 0x20 * i
/-- 01_architecture.md R30, R34. -/
def ERR_BLK_TIME_S (i : Nat) : Nat := 0x50201008 + 0x20 * i
/-- 01_architecture.md R30, R34. -/
def ERR_BLK_TIME_NS (i : Nat) : Nat := 0x5020100C + 0x20 * i
/-- 01_architecture.md R34. -/
def ERR_BLK_CELLS_LO (i : Nat) : Nat := 0x50201010 + 0x20 * i
/-- 01_architecture.md R34. -/
def ERR_BLK_CELLS_HI (i : Nat) : Nat := 0x50201014 + 0x20 * i
/-- 01_architecture.md R23, R34. -/
def ERR_BLK_CFG (i : Nat) : Nat := 0x50201018 + 0x20 * i
/-- 01_architecture.md R24, R34. -/
def ERR_BLK_CTRL (i : Nat) : Nat := 0x5020101C + 0x20 * i
/-- 03_weft_system.md R73, R74. -/
def MBX_CFG (i : Nat) : Nat := 0x50400000 + 0x4 * i
/-- 03_weft_system.md R67, R82. -/
def WSC_CTX_CTRL (i : Nat) : Nat := 0x50500000 + 0x40 * i
/-- 03_weft_system.md R67, R68, R82. -/
def WSC_CTX_STATE (i : Nat) : Nat := 0x50500004 + 0x40 * i
/-- 03_weft_system.md R67, R82. -/
def WSC_ENTRY (i j : Nat) : Nat := 0x50500010 + 0x40 * i + 0x4 * j
/-- 04_loom.md R110. -/
def LOOM_CH_CTRL (i : Nat) : Nat := 0x10000000 + 0x100 * i
/-- 04_loom.md R110. -/
def LOOM_CH_PERIOD (i : Nat) : Nat := 0x10000004 + 0x100 * i
/-- 04_loom.md R110. -/
def LOOM_CH_DUTY (i : Nat) : Nat := 0x10000008 + 0x100 * i
/-- 04_loom.md R110. -/
def LOOM_CH_PHASE (i : Nat) : Nat := 0x1000000C + 0x100 * i
/-- 04_loom.md R110. -/
def LOOM_CH_DEAD (i : Nat) : Nat := 0x10000010 + 0x100 * i
/-- 04_loom.md R110. -/
def LOOM_CH_MINPW (i : Nat) : Nat := 0x10000014 + 0x100 * i
/-- 04_loom.md R110. -/
def LOOM_CH_TRIG (i j : Nat) : Nat := 0x10000018 + 0x100 * i + 0x4 * j
/-- 04_loom.md R110. -/
def LOOM_CH_TRIP_PIN (i : Nat) : Nat := 0x10000028 + 0x100 * i
/-- 04_loom.md R110. -/
def LOOM_CH_TRIP_CMP_LO (i : Nat) : Nat := 0x1000002C + 0x100 * i
/-- 04_loom.md R110. -/
def LOOM_CH_TRIP_CMP_HI (i : Nat) : Nat := 0x10000030 + 0x100 * i
/-- 04_loom.md R104, R110. -/
def LOOM_CH_OUTCFG (i : Nat) : Nat := 0x10000034 + 0x100 * i
/-- 04_loom.md R110. -/
def LOOM_CH_BLANK (i : Nat) : Nat := 0x10000038 + 0x100 * i
/-- 04_loom.md R110. -/
def LOOM_CH_STATUS (i : Nat) : Nat := 0x1000003C + 0x100 * i
/-- 04_loom.md R110. -/
def LOOM_CH_CMD (i : Nat) : Nat := 0x10000040 + 0x100 * i
/-- 04_loom.md R110. -/
def LOOM_CH_DROP_CNT (i : Nat) : Nat := 0x10000044 + 0x100 * i
/-- 04_loom.md R110. -/
def LOOM_CH_CNT (i : Nat) : Nat := 0x10000048 + 0x100 * i
/-- 04_loom.md R110. -/
def LOOM_RUN : Nat := 0x10002000
/-- 04_loom.md R110. -/
def LOOM_GUPD : Nat := 0x10002004
/-- 04_loom.md R110. -/
def LOOM_LOCK : Nat := 0x10002008
/-- 04_loom.md R110. -/
def LOOM_RATE_WIN : Nat := 0x1000200C
/-- 04_loom.md R110. -/
def LOOM_PIN_STAT : Nat := 0x10002010
/-- 04_loom.md R110. -/
def LOOM_CMP_STAT_LO : Nat := 0x10002014
/-- 04_loom.md R110. -/
def LOOM_CMP_STAT_HI : Nat := 0x10002018
/-- 04_loom.md R104, R110. -/
def LOOM_TSRC (i : Nat) : Nat := 0x10003000 + 0x4 * i
/-- 05_twill.md R148. -/
def TW_CTRL (i : Nat) : Nat := 0x10100000 + 0x10000 * i
/-- 05_twill.md R148. -/
def TW_STATUS (i : Nat) : Nat := 0x10100004 + 0x10000 * i
/-- 05_twill.md R148. -/
def TW_OWN (i : Nat) : Nat := 0x10100008 + 0x10000 * i
/-- 05_twill.md R148. -/
def TW_CCOMMIT (i : Nat) : Nat := 0x1010000C + 0x10000 * i
/-- 05_twill.md R148. -/
def TW_FF_CTRL (i : Nat) : Nat := 0x10100010 + 0x10000 * i
/-- 05_twill.md R148. -/
def TW_SLOT_CFG (i j : Nat) : Nat := 0x10100100 + 0x10000 * i + 0x8 * j
/-- 05_twill.md R148. -/
def TW_SLOT_BUDGET (i j : Nat) : Nat := 0x10100104 + 0x10000 * i + 0x8 * j
/-- 05_twill.md R148. -/
def TW_SLOT_STAT (i j : Nat) : Nat := 0x10100140 + 0x10000 * i + 0x4 * j
/-- 05_twill.md R148. -/
def TW_RMP_CFG (i j : Nat) : Nat := 0x10100200 + 0x10000 * i + 0x10 * j
/-- 05_twill.md R148. -/
def TW_RMP_RATE_UP (i j : Nat) : Nat := 0x10100204 + 0x10000 * i + 0x10 * j
/-- 05_twill.md R148. -/
def TW_RMP_RATE_DN (i j : Nat) : Nat := 0x10100208 + 0x10000 * i + 0x10 * j
/-- 05_twill.md R148. -/
def TW_RMP_PRESET (i j : Nat) : Nat := 0x1010020C + 0x10000 * i + 0x10 * j
/-- 05_twill.md R148. -/
def TW_SP (i j : Nat) : Nat := 0x10100300 + 0x10000 * i + 0x4 * j
/-- 05_twill.md R148. -/
def TW_ACC_LO (i j : Nat) : Nat := 0x10100400 + 0x10000 * i + 0x8 * j
/-- 05_twill.md R148. -/
def TW_ACC_HI (i j : Nat) : Nat := 0x10100404 + 0x10000 * i + 0x8 * j
/-- 05_twill.md R148. -/
def TW_COEF_VAL (i j : Nat) : Nat := 0x10100800 + 0x10000 * i + 0x8 * j
/-- 05_twill.md R148. -/
def TW_COEF_SHIFT (i j : Nat) : Nat := 0x10100804 + 0x10000 * i + 0x8 * j
/-- 05_twill.md R148. -/
def TW_M (i j : Nat) : Nat := 0x10101000 + 0x10000 * i + 0x4 * j
/-- 05_twill.md R148. -/
def TW_PROG_LO (i j : Nat) : Nat := 0x10102000 + 0x10000 * i + 0x8 * j
/-- 05_twill.md R148. -/
def TW_PROG_HI (i j : Nat) : Nat := 0x10102004 + 0x10000 * i + 0x8 * j
/-- 05_twill.md R148. -/
def TW_FF (i j : Nat) : Nat := 0x10104000 + 0x10000 * i + 0x4 * j
/-- 05_twill.md R148. -/
def AINSP_CFG (i : Nat) : Nat := 0x10140000 + 0x4 * i
/-- 05_twill.md R148. -/
def AINSP_STAT : Nat := 0x10140010
/-- 05_twill.md R148. -/
def PINSP_CFG (i : Nat) : Nat := 0x10140020 + 0x4 * i
/-- 05_twill.md R148. -/
def PINSP_TMO (i : Nat) : Nat := 0x10140030 + 0x4 * i
/-- 05_twill.md R148. -/
def PINSP_STAT : Nat := 0x10140040
/-- 06_power_stage.md R169. -/
def SNS_CTRL : Nat := 0x10200000
/-- 06_power_stage.md R169. -/
def SNS_MX : Nat := 0x10200004
/-- 06_power_stage.md R169. -/
def SNS_MXV : Nat := 0x10200008
/-- 06_power_stage.md R169. -/
def SNS_WCHK : Nat := 0x1020000C
/-- 06_power_stage.md R169. -/
def SNS_DCL : Nat := 0x10200010
/-- 06_power_stage.md R169. -/
def ADC_STAT (i : Nat) : Nat := 0x10200040 + 0x4 * i
/-- 06_power_stage.md R169. -/
def SG_CFG (i : Nat) : Nat := 0x10200100 + 0x8 * i
/-- 06_power_stage.md R169. -/
def SG_SEL (i : Nat) : Nat := 0x10200104 + 0x8 * i
/-- 06_power_stage.md R169. -/
def AIN_CAL_OFS (i : Nat) : Nat := 0x10200200 + 0x8 * i
/-- 06_power_stage.md R169. -/
def AIN_CAL_GAIN (i : Nat) : Nat := 0x10200204 + 0x8 * i
/-- 06_power_stage.md R169. -/
def AIN_RES (i : Nat) : Nat := 0x10200400 + 0x4 * i
/-- 06_power_stage.md R169. -/
def AIN_RAW (i : Nat) : Nat := 0x10200500 + 0x4 * i
/-- 06_power_stage.md R169. -/
def CMP_THR (i : Nat) : Nat := 0x10200600 + 0x8 * i
/-- 06_power_stage.md R169. -/
def CMP_CFG (i : Nat) : Nat := 0x10200604 + 0x8 * i
/-- 06_power_stage.md R169. -/
def MOD_CFG (i : Nat) : Nat := 0x10200900 + 0x8 * i
/-- 06_power_stage.md R169. -/
def MOD_SNS (i : Nat) : Nat := 0x10200904 + 0x8 * i
/-- 06_power_stage.md R169. -/
def OUTL_CFG (i : Nat) : Nat := 0x10200A00 + 0x8 * i
/-- 06_power_stage.md R169. -/
def OUTL_CHK (i : Nat) : Nat := 0x10200A04 + 0x8 * i
/-- 06_power_stage.md R169. -/
def XP (i : Nat) : Nat := 0x10200B00 + 0x4 * i
/-- 07_saltern.md R196. -/
def SAL_CTRL : Nat := 0x10300000
/-- 07_saltern.md R196. -/
def SAL_PERIOD : Nat := 0x10300004
/-- 07_saltern.md R196. -/
def SAL_LEAD : Nat := 0x10300008
/-- 07_saltern.md R196. -/
def SAL_CMT : Nat := 0x1030000C
/-- 07_saltern.md R196. -/
def SAL_STATUS : Nat := 0x10300010
/-- 07_saltern.md R196. -/
def SAL_PNUM : Nat := 0x10300014
/-- 07_saltern.md R196. -/
def SAL_TOTAL : Nat := 0x10300018
/-- 07_saltern.md R196. -/
def SAL_ROT : Nat := 0x1030001C
/-- 07_saltern.md R196. -/
def SAL_LAST_B_S : Nat := 0x10300038
/-- 07_saltern.md R196. -/
def SAL_LAST_B_NS : Nat := 0x1030003C
/-- 07_saltern.md R196. -/
def SAL_EMRG_CTRL : Nat := 0x10300020
/-- 07_saltern.md R196. -/
def SAL_EMRG_DEM : Nat := 0x10300024
/-- 07_saltern.md R196. -/
def SAL_EMRG_CMD : Nat := 0x10300028
/-- 07_saltern.md R196. -/
def SAL_EMRG_STAT : Nat := 0x1030002C
/-- 07_saltern.md R196. -/
def SAL_EMRG_BASE : Nat := 0x10300030
/-- 07_saltern.md R196. -/
def SAL_APPLY_STAT : Nat := 0x10300034
/-- 07_saltern.md R196. -/
def SAL_EMRG_GE : Nat := 0x10300040
/-- 07_saltern.md R196. -/
def SAL_EMRG_REL : Nat := 0x10300044
/-- 07_saltern.md R196. -/
def SAL_PAN (i : Nat) : Nat := 0x10300100 + 0x4 * i
/-- 07_saltern.md R196. -/
def SAL_PAN_RES (i : Nat) : Nat := 0x10300200 + 0x4 * i
/-- 07_saltern.md R196. -/
def SAL_OUT_CFG (i : Nat) : Nat := 0x10300400 + 0x10 * i
/-- 07_saltern.md R196. -/
def SAL_OUT_FLOOR (i : Nat) : Nat := 0x10300404 + 0x10 * i
/-- 07_saltern.md R196. -/
def SAL_OUT_CAP (i : Nat) : Nat := 0x10300408 + 0x10 * i
/-- 07_saltern.md R196. -/
def SAL_OUT_RAMP (i : Nat) : Nat := 0x1030040C + 0x10 * i
/-- 07_saltern.md R196. -/
def SAL_DEM (i : Nat) : Nat := 0x10300C00 + 0x4 * i
/-- 07_saltern.md R196. -/
def SAL_GRANT (i : Nat) : Nat := 0x10300E00 + 0x4 * i
/-- 07_saltern.md R196. -/
def SAL_APPLIED (i : Nat) : Nat := 0x10301000 + 0x4 * i
/-- 08_zwidy_redundancy.md R228. -/
def ZW_CTRL : Nat := 0x20600000
/-- 08_zwidy_redundancy.md R228. -/
def ZW_NET : Nat := 0x20600004
/-- 08_zwidy_redundancy.md R228. -/
def ZW_TIME : Nat := 0x20600008
/-- 08_zwidy_redundancy.md R228. -/
def ZW_HOLD : Nat := 0x2060000C
/-- 08_zwidy_redundancy.md R228. -/
def ZW_DSTEP : Nat := 0x20600010
/-- 08_zwidy_redundancy.md R228. -/
def ZW_ROLE : Nat := 0x20600014
/-- 08_zwidy_redundancy.md R228. -/
def ZW_EPOCH : Nat := 0x20600018
/-- 08_zwidy_redundancy.md R228. -/
def ZW_STATUS : Nat := 0x2060001C
/-- 08_zwidy_redundancy.md R228. -/
def ZW_SWAP : Nat := 0x20600020
/-- 08_zwidy_redundancy.md R228. -/
def ZW_PAIR : Nat := 0x20600024
/-- 08_zwidy_redundancy.md R228. -/
def ZW_CFG_CRC : Nat := 0x20600028
/-- 08_zwidy_redundancy.md R228. -/
def ZW_CNT : Nat := 0x2060002C
/-- 08_zwidy_redundancy.md R228. -/
def ZW_DEM (i : Nat) : Nat := 0x20600040 + 0x4 * i
/-- 08_zwidy_redundancy.md R228. -/
def ZW_PEER (i : Nat) : Nat := 0x20600100 + 0x4 * i
/-- 09_time.md R250. -/
def TB_CFG (i : Nat) : Nat := 0x20100000 + 0x40 * i
/-- 09_time.md R250. -/
def TB_STATE (i : Nat) : Nat := 0x20100004 + 0x40 * i
/-- 09_time.md R250. -/
def TB_RATE (i : Nat) : Nat := 0x20100008 + 0x40 * i
/-- 09_time.md R250. -/
def TB_STEP_S (i : Nat) : Nat := 0x2010000C + 0x40 * i
/-- 09_time.md R250. -/
def TB_STEP_NS (i : Nat) : Nat := 0x20100010 + 0x40 * i
/-- 09_time.md R250. -/
def TB_STEP_SH (i : Nat) : Nat := 0x20100014 + 0x40 * i
/-- 09_time.md R250. -/
def TB_STEP_CMD (i : Nat) : Nat := 0x20100018 + 0x40 * i
/-- 09_time.md R250. -/
def TB_TIME_NS (i : Nat) : Nat := 0x20100020 + 0x40 * i
/-- 09_time.md R250. -/
def TB_TIME_S (i : Nat) : Nat := 0x20100024 + 0x40 * i
/-- 09_time.md R250. -/
def TB_TIME_X (i : Nat) : Nat := 0x20100028 + 0x40 * i
/-- 09_time.md R250. -/
def TB_LOCK (i : Nat) : Nat := 0x2010002C + 0x40 * i
/-- 09_time.md R250. -/
def TB_HOLD (i : Nat) : Nat := 0x20100030 + 0x40 * i
/-- 09_time.md R250. -/
def TB_OFFSET (i : Nat) : Nat := 0x20100034 + 0x40 * i
/-- 09_time.md R250. -/
def TOUT_CFG (i : Nat) : Nat := 0x20100200 + 0x20 * i
/-- 09_time.md R250. -/
def TOUT_START_S (i : Nat) : Nat := 0x20100204 + 0x20 * i
/-- 09_time.md R250. -/
def TOUT_START_NS (i : Nat) : Nat := 0x20100208 + 0x20 * i
/-- 09_time.md R250. -/
def TOUT_PERIOD (i : Nat) : Nat := 0x2010020C + 0x20 * i
/-- 09_time.md R250. -/
def TOUT_WIDTH (i : Nat) : Nat := 0x20100210 + 0x20 * i
/-- 09_time.md R250. -/
def TOUT_STAT (i : Nat) : Nat := 0x20100214 + 0x20 * i
/-- 09_time.md R250. -/
def TCAP_CFG (i : Nat) : Nat := 0x20100400 + 0x20 * i
/-- 09_time.md R250. -/
def TCAP_NS (i : Nat) : Nat := 0x20100404 + 0x20 * i
/-- 09_time.md R250. -/
def TCAP_S (i : Nat) : Nat := 0x20100408 + 0x20 * i
/-- 09_time.md R250. -/
def TCAP_X (i : Nat) : Nat := 0x2010040C + 0x20 * i
/-- 09_time.md R250. -/
def TCAP_F (i : Nat) : Nat := 0x20100410 + 0x20 * i
/-- 09_time.md R250. -/
def TCAP_STAT (i : Nat) : Nat := 0x20100414 + 0x20 * i
/-- 09_time.md R250. -/
def PTP_TXTS_NS : Nat := 0x20004040
/-- 09_time.md R250. -/
def PTP_TXTS_S : Nat := 0x20004044
/-- 09_time.md R250. -/
def PTP_TXTS_X : Nat := 0x20004048
/-- 09_time.md R250. -/
def PTP_CTRL : Nat := 0x20004000
/-- 09_time.md R250. -/
def PTP_TC : Nat := 0x20004004
/-- 09_time.md R250. -/
def PTP_PORT (i : Nat) : Nat := 0x20004010 + 0x10 * i
/-- 09_time.md R250. -/
def PTP_PDELAY (i : Nat) : Nat := 0x20004014 + 0x10 * i
/-- 09_time.md R250. -/
def PTP_ASYM (i : Nat) : Nat := 0x20004018 + 0x10 * i
/-- 09_time.md R250. -/
def PTP_TXTS (i : Nat) : Nat := 0x2000401C + 0x10 * i
/-- 10_grid.md R265. -/
def GRD_CTRL : Nat := 0x10500000
/-- 10_grid.md R265. -/
def GRD_STATUS : Nat := 0x10500004
/-- 10_grid.md R265. -/
def GRD_ID : Nat := 0x10500008
/-- 10_grid.md R265. -/
def GRD_UF : Nat := 0x10500010
/-- 10_grid.md R265. -/
def GRD_ROC : Nat := 0x10500014
/-- 10_grid.md R265. -/
def GRD_UV : Nat := 0x10500018
/-- 10_grid.md R265. -/
def GRD_QUAL : Nat := 0x1050001C
/-- 10_grid.md R265. -/
def GRD_NOMV : Nat := 0x10500020
/-- 10_grid.md R265. -/
def GCH_CFG (i : Nat) : Nat := 0x10500040 + 0x10 * i
/-- 10_grid.md R265. -/
def GCH_CAL (i : Nat) : Nat := 0x10500044 + 0x10 * i
/-- 10_grid.md R265. -/
def GCH_LVL (i : Nat) : Nat := 0x10500048 + 0x10 * i
/-- 10_grid.md R265. -/
def GRD_RING_BASE : Nat := 0x10500100
/-- 10_grid.md R265. -/
def GRD_RING : Nat := 0x10500104
/-- 10_grid.md R265. -/
def GRD_REC_CTRL : Nat := 0x10500200
/-- 10_grid.md R265. -/
def GRD_REC_BASE : Nat := 0x10500204
/-- 10_grid.md R265. -/
def GRD_REC_TS : Nat := 0x10500208
/-- 10_grid.md R265. -/
def GRD_REC_TNS : Nat := 0x1050020C
/-- 10_grid.md R265. -/
def GRD_REC_INFO : Nat := 0x10500210
/-- 10_grid.md R265. -/
def GRD_FREQ : Nat := 0x10500300
/-- 10_grid.md R265. -/
def GRD_ROCOF : Nat := 0x10500304
/-- 10_grid.md R265. -/
def GRD_V1 : Nat := 0x10500308
/-- 11_outlet_links.md R293. -/
def T1S_CTRL (i : Nat) : Nat := 0x20200000 + 0x100 * i
/-- 11_outlet_links.md R293. -/
def T1S_PLCA (i : Nat) : Nat := 0x20200004 + 0x100 * i
/-- 11_outlet_links.md R293. -/
def T1S_BURST (i : Nat) : Nat := 0x20200008 + 0x100 * i
/-- 11_outlet_links.md R293. -/
def T1S_MAC_LO (i : Nat) : Nat := 0x2020000C + 0x100 * i
/-- 11_outlet_links.md R293. -/
def T1S_MAC_HI (i : Nat) : Nat := 0x20200010 + 0x100 * i
/-- 11_outlet_links.md R293. -/
def T1S_STAT (i : Nat) : Nat := 0x20200014 + 0x100 * i
/-- 11_outlet_links.md R293. -/
def T1S_CNT (i : Nat) : Nat := 0x20200018 + 0x100 * i
/-- 11_outlet_links.md R293. -/
def T1S_RX_BASE (i : Nat) : Nat := 0x20200060 + 0x100 * i
/-- 11_outlet_links.md R293. -/
def T1S_RX_CFG (i : Nat) : Nat := 0x20200064 + 0x100 * i
/-- 11_outlet_links.md R293. -/
def T1S_TX_BASE (i : Nat) : Nat := 0x20200068 + 0x100 * i
/-- 11_outlet_links.md R293. -/
def T1S_TX_CFG (i : Nat) : Nat := 0x2020006C + 0x100 * i
/-- 11_outlet_links.md R293. -/
def OLK_CFG (i : Nat) : Nat := 0x20300000 + 0x20 * i
/-- 11_outlet_links.md R293. -/
def OLK_DRV (i : Nat) : Nat := 0x20300004 + 0x20 * i
/-- 11_outlet_links.md R293. -/
def OLK_STAT (i : Nat) : Nat := 0x20300008 + 0x20 * i
/-- 11_outlet_links.md R293. -/
def OLK_LVL (i : Nat) : Nat := 0x2030000C + 0x20 * i
/-- 11_outlet_links.md R293. -/
def OLK_ID_LVL (i : Nat) : Nat := 0x20300010 + 0x20 * i
/-- 11_outlet_links.md R293. -/
def OLK_CAL (i : Nat) : Nat := 0x20300014 + 0x20 * i
/-- 11_outlet_links.md R293. -/
def OLK_TIME : Nat := 0x20300100
/-- 11_outlet_links.md R293. -/
def CPW (i : Nat) : Nat := 0x20300140 + 0x4 * i
/-- 11_outlet_links.md R293. -/
def CEW (i : Nat) : Nat := 0x20300160 + 0x4 * i
/-- 11_outlet_links.md R293. -/
def IDW (i : Nat) : Nat := 0x20300180 + 0x4 * i
/-- 11_outlet_links.md R293. -/
def GP_CTRL (i : Nat) : Nat := 0x20301000 + 0x100 * i
/-- 11_outlet_links.md R293. -/
def GP_STAT (i : Nat) : Nat := 0x20301004 + 0x100 * i
/-- 11_outlet_links.md R293. -/
def GP_MAC_LO (i : Nat) : Nat := 0x20301008 + 0x100 * i
/-- 11_outlet_links.md R293. -/
def GP_MAC_HI (i : Nat) : Nat := 0x2030100C + 0x100 * i
/-- 11_outlet_links.md R293. -/
def GP_ATT_CTRL (i : Nat) : Nat := 0x20301010 + 0x100 * i
/-- 11_outlet_links.md R293. -/
def GP_ATT_STAT (i : Nat) : Nat := 0x20301014 + 0x100 * i
/-- 11_outlet_links.md R293. -/
def GP_ATT_RUNID_LO (i : Nat) : Nat := 0x20301018 + 0x100 * i
/-- 11_outlet_links.md R293. -/
def GP_ATT_RUNID_HI (i : Nat) : Nat := 0x2030101C + 0x100 * i
/-- 11_outlet_links.md R293. -/
def GP_ATT (i j : Nat) : Nat := 0x20301020 + 0x100 * i + 0x4 * j
/-- 11_outlet_links.md R293. -/
def GP_RX_BASE (i : Nat) : Nat := 0x20301060 + 0x100 * i
/-- 11_outlet_links.md R293. -/
def GP_RX_CFG (i : Nat) : Nat := 0x20301064 + 0x100 * i
/-- 11_outlet_links.md R293. -/
def GP_TX_BASE (i : Nat) : Nat := 0x20301068 + 0x100 * i
/-- 11_outlet_links.md R293. -/
def GP_TX_CFG (i : Nat) : Nat := 0x2030106C + 0x100 * i
/-- 11_outlet_links.md R293. -/
def GP_CNT (i : Nat) : Nat := 0x20301070 + 0x100 * i
/-- 11_outlet_links.md R293. -/
def BB_CTRL : Nat := 0x20302000
/-- 11_outlet_links.md R293. -/
def BB_TM : Nat := 0x20302004
/-- 11_outlet_links.md R293. -/
def BB_IMP : Nat := 0x20302008
/-- 11_outlet_links.md R293. -/
def BB_STAT : Nat := 0x2030200C
/-- 11_outlet_links.md R293. -/
def BB_MAC_LO : Nat := 0x20302010
/-- 11_outlet_links.md R293. -/
def BB_MAC_HI : Nat := 0x20302014
/-- 11_outlet_links.md R293. -/
def BB_RX_BASE : Nat := 0x20302060
/-- 11_outlet_links.md R293. -/
def BB_RX_CFG : Nat := 0x20302064
/-- 11_outlet_links.md R293. -/
def BB_TX_BASE : Nat := 0x20302068
/-- 11_outlet_links.md R293. -/
def BB_TX_CFG : Nat := 0x2030206C
/-- 11_outlet_links.md R293. -/
def BB_CNT : Nat := 0x20302070
/-- 11_outlet_links.md R293. -/
def BB_TMASK (i : Nat) : Nat := 0x20302100 + 0x4 * i
/-- 11_outlet_links.md R293. -/
def BB_NBR_MAC_LO (i : Nat) : Nat := 0x20302400 + 0x20 * i
/-- 11_outlet_links.md R293. -/
def BB_NBR_ID (i : Nat) : Nat := 0x20302404 + 0x20 * i
/-- 11_outlet_links.md R293. -/
def BB_NBR_RATE (i : Nat) : Nat := 0x20302408 + 0x20 * i
/-- 11_outlet_links.md R293. -/
def BB_NBR_PBER (i : Nat) : Nat := 0x2030240C + 0x20 * i
/-- 11_outlet_links.md R293. -/
def BB_NBR_IMP_CNT (i : Nat) : Nat := 0x20302410 + 0x20 * i
/-- 11_outlet_links.md R293. -/
def BB_NBR_RENEG (i : Nat) : Nat := 0x20302414 + 0x20 * i
/-- 11_outlet_links.md R293. -/
def BB_NBR_AGE (i : Nat) : Nat := 0x20302418 + 0x20 * i
/-- 12_session.md R313. -/
def SES_CTRL : Nat := 0x20500000
/-- 12_session.md R313. -/
def SES_INFO : Nat := 0x20500004
/-- 12_session.md R313. -/
def SES_TLS_CFG : Nat := 0x20500008
/-- 12_session.md R313. -/
def SES_CH_CTRL (i : Nat) : Nat := 0x20500100 + 0x40 * i
/-- 12_session.md R313. -/
def SES_STAT (i : Nat) : Nat := 0x20500104 + 0x40 * i
/-- 12_session.md R313. -/
def SES_THR (i : Nat) : Nat := 0x20500108 + 0x40 * i
/-- 12_session.md R313. -/
def SES_JOB_BASE (i : Nat) : Nat := 0x2050010C + 0x40 * i
/-- 12_session.md R313. -/
def SES_JOB_CFG (i : Nat) : Nat := 0x20500110 + 0x40 * i
/-- 12_session.md R313. -/
def SES_TMR (i : Nat) : Nat := 0x20500114 + 0x40 * i
/-- 12_session.md R313. -/
def SES_TLS (i : Nat) : Nat := 0x20500118 + 0x40 * i
/-- 12_session.md R313. -/
def SES_ROOTS (i : Nat) : Nat := 0x2050011C + 0x40 * i
/-- 12_session.md R313. -/
def SES_CERT_BASE (i : Nat) : Nat := 0x20500120 + 0x40 * i
/-- 12_session.md R313. -/
def SES_CERT_LEN (i : Nat) : Nat := 0x20500124 + 0x40 * i
/-- 13_thermal.md R338. -/
def TS_CFG (i : Nat) : Nat := 0x40100000 + 0x10 * i
/-- 13_thermal.md R338. -/
def TS_LIM (i : Nat) : Nat := 0x40100004 + 0x10 * i
/-- 13_thermal.md R338. -/
def TS_LIM2 (i : Nat) : Nat := 0x40100008 + 0x10 * i
/-- 13_thermal.md R338. -/
def TS_NBR (i : Nat) : Nat := 0x4010000C + 0x10 * i
/-- 13_thermal.md R338. -/
def TS_VAL (i : Nat) : Nat := 0x40100400 + 0x4 * i
/-- 13_thermal.md R338. -/
def TJ_VAL (i : Nat) : Nat := 0x40100600 + 0x4 * i
/-- 13_thermal.md R338. -/
def TH_CTRL : Nat := 0x40100700
/-- 13_thermal.md R338. -/
def TH_STEP : Nat := 0x40100704
/-- 13_thermal.md R338. -/
def TH_STAT : Nat := 0x40100708
/-- 13_thermal.md R338. -/
def TH_TJ : Nat := 0x4010070C
/-- 13_thermal.md R338. -/
def CBL_CFG (i : Nat) : Nat := 0x40100800 + 0x40 * i
/-- 13_thermal.md R338. -/
def CBL_RATED (i : Nat) : Nat := 0x40100804 + 0x40 * i
/-- 13_thermal.md R338. -/
def CBL_R20 (i : Nat) : Nat := 0x40100808 + 0x40 * i
/-- 13_thermal.md R338. -/
def CBL_RTH (i : Nat) : Nat := 0x4010080C + 0x40 * i
/-- 13_thermal.md R338. -/
def CBL_CTH (i : Nat) : Nat := 0x40100810 + 0x40 * i
/-- 13_thermal.md R338. -/
def CBL_MLIM (i : Nat) : Nat := 0x40100814 + 0x40 * i
/-- 13_thermal.md R338. -/
def CBL_MLIM2 (i : Nat) : Nat := 0x40100818 + 0x40 * i
/-- 13_thermal.md R338. -/
def CBL_STATE (i : Nat) : Nat := 0x4010081C + 0x40 * i
/-- 13_thermal.md R338. -/
def CBL_LIMIT (i : Nat) : Nat := 0x40100820 + 0x40 * i
/-- 13_thermal.md R338. -/
def CBL_CAUSE (i : Nat) : Nat := 0x40100824 + 0x40 * i
/-- 13_thermal.md R338. -/
def CBL_CMD (i : Nat) : Nat := 0x40100828 + 0x40 * i
/-- 13_thermal.md R338. -/
def FAN_CFG (i : Nat) : Nat := 0x40100C00 + 0x20 * i
/-- 13_thermal.md R338. -/
def FAN_DUTY (i : Nat) : Nat := 0x40100C04 + 0x20 * i
/-- 13_thermal.md R338. -/
def FAN_CURVE (i : Nat) : Nat := 0x40100C08 + 0x20 * i
/-- 13_thermal.md R338. -/
def FAN_DLIM (i : Nat) : Nat := 0x40100C0C + 0x20 * i
/-- 13_thermal.md R338. -/
def FAN_TACH (i : Nat) : Nat := 0x40100C10 + 0x20 * i
/-- 13_thermal.md R338. -/
def FAN_TACH2 (i : Nat) : Nat := 0x40100C14 + 0x20 * i
/-- 13_thermal.md R338. -/
def FAN_STAT (i : Nat) : Nat := 0x40100C18 + 0x20 * i
/-- 13_thermal.md R338. -/
def FAN_OUTM (i : Nat) : Nat := 0x40100C1C + 0x20 * i
/-- 14_metrology.md R369. -/
def MET_STATUS : Nat := 0x30000000
/-- 14_metrology.md R369. -/
def MET_CHECK : Nat := 0x30000004
/-- 14_metrology.md R369. -/
def MET_PCRC : Nat := 0x30000008
/-- 14_metrology.md R369. -/
def MET_SERIAL_LO : Nat := 0x3000000C
/-- 14_metrology.md R369. -/
def MET_SERIAL_HI : Nat := 0x30000010
/-- 14_metrology.md R369. -/
def MET_LOG : Nat := 0x30000014
/-- 14_metrology.md R369. -/
def MET_O_IMP_LO (i : Nat) : Nat := 0x30000100 + 0x40 * i
/-- 14_metrology.md R369. -/
def MET_O_IMP_HI (i : Nat) : Nat := 0x30000104 + 0x40 * i
/-- 14_metrology.md R369. -/
def MET_O_EXP_LO (i : Nat) : Nat := 0x30000108 + 0x40 * i
/-- 14_metrology.md R369. -/
def MET_O_EXP_HI (i : Nat) : Nat := 0x3000010C + 0x40 * i
/-- 14_metrology.md R369. -/
def MET_O_U (i : Nat) : Nat := 0x30000110 + 0x40 * i
/-- 14_metrology.md R369. -/
def MET_O_I (i : Nat) : Nat := 0x30000114 + 0x40 * i
/-- 14_metrology.md R369. -/
def MET_O_P (i : Nat) : Nat := 0x30000118 + 0x40 * i
/-- 14_metrology.md R369. -/
def MET_O_FLAGS (i : Nat) : Nat := 0x3000011C + 0x40 * i
/-- 14_metrology.md R369. -/
def MET_O_OWED (i : Nat) : Nat := 0x30000120 + 0x40 * i
/-- 14_metrology.md R369. -/
def EVS_REQ : Nat := 0x30200000
/-- 14_metrology.md R369. -/
def EVS_REQ_STAT : Nat := 0x30200004
/-- 14_metrology.md R369. -/
def EVS_ADDR : Nat := 0x30200008
/-- 14_metrology.md R369. -/
def EVS_RSEQ : Nat := 0x3020000C
/-- 14_metrology.md R369. -/
def EVS_SESS (i : Nat) : Nat := 0x30200010 + 0x4 * i
/-- 14_metrology.md R369. -/
def EVS_RD_SEL : Nat := 0x30200020
/-- 14_metrology.md R369. -/
def EVS_GEN : Nat := 0x30200024
/-- 14_metrology.md R369. -/
def EVS_RD_WIN (i : Nat) : Nat := 0x30200100 + 0x4 * i
/-- 15_tariffs.md R395. -/
def TAR_CTRL : Nat := 0x30100000
/-- 15_tariffs.md R395. -/
def TAR_STATUS : Nat := 0x30100004
/-- 15_tariffs.md R395. -/
def TAR_CAL_ADDR : Nat := 0x30100008
/-- 15_tariffs.md R395. -/
def TAR_CMD : Nat := 0x3010000C
/-- 15_tariffs.md R395. -/
def TAR_ACT_CRC : Nat := 0x30100010
/-- 15_tariffs.md R395. -/
def TAR_PAS_CRC : Nat := 0x30100014
/-- 15_tariffs.md R395. -/
def TAR_PAS_ACT : Nat := 0x30100018
/-- 15_tariffs.md R395. -/
def TAR_ADJ_S : Nat := 0x30100020
/-- 15_tariffs.md R395. -/
def TAR_ADJ_NS : Nat := 0x30100024
/-- 15_tariffs.md R395. -/
def TAR_ADJ_SH : Nat := 0x30100028
/-- 15_tariffs.md R395. -/
def TAR_ADJ : Nat := 0x3010002C
/-- 15_tariffs.md R395. -/
def TAR_UTC : Nat := 0x30100030
/-- 15_tariffs.md R395. -/
def TAR_BSEQ : Nat := 0x30100034
/-- 15_tariffs.md R395. -/
def TAR_DSEQ : Nat := 0x30100038
/-- 15_tariffs.md R395. -/
def TAR_MONO_S : Nat := 0x3010003C
/-- 15_tariffs.md R395. -/
def TAR_MONO_MS : Nat := 0x30100040
/-- 15_tariffs.md R395. -/
def TAR_E_IMP_LO (i j : Nat) : Nat := 0x30100100 + 0x80 * i + 0x10 * j
/-- 15_tariffs.md R395. -/
def TAR_E_IMP_HI (i j : Nat) : Nat := 0x30100104 + 0x80 * i + 0x10 * j
/-- 15_tariffs.md R395. -/
def TAR_E_EXP_LO (i j : Nat) : Nat := 0x30100108 + 0x80 * i + 0x10 * j
/-- 15_tariffs.md R395. -/
def TAR_E_EXP_HI (i j : Nat) : Nat := 0x3010010C + 0x80 * i + 0x10 * j
/-- 15_tariffs.md R395. -/
def TAR_DEM_E_INT (i : Nat) : Nat := 0x30100500 + 0x10 * i
/-- 15_tariffs.md R395. -/
def TAR_DEM_MD (i : Nat) : Nat := 0x30100504 + 0x10 * i
/-- 15_tariffs.md R395. -/
def TAR_DEM_MD_S (i : Nat) : Nat := 0x30100508 + 0x10 * i
/-- 15_tariffs.md R395. -/
def TAR_DEM_LAST (i : Nat) : Nat := 0x3010050C + 0x10 * i
/-- 15_tariffs.md R395. -/
def TAR_ACC_CMD : Nat := 0x30100600
/-- 15_tariffs.md R395. -/
def TAR_ACC_AMT_LO : Nat := 0x30100604
/-- 15_tariffs.md R395. -/
def TAR_ACC_AMT_HI : Nat := 0x30100608
/-- 15_tariffs.md R395. -/
def TAR_ACC_TXID : Nat := 0x3010060C
/-- 15_tariffs.md R395. -/
def TAR_BIND (i : Nat) : Nat := 0x30100620 + 0x4 * i
/-- 15_tariffs.md R395. -/
def TAR_ACC_BAL_LO (i : Nat) : Nat := 0x30100800 + 0x20 * i
/-- 15_tariffs.md R395. -/
def TAR_ACC_BAL_HI (i : Nat) : Nat := 0x30100804 + 0x20 * i
/-- 15_tariffs.md R395. -/
def TAR_ACC_EC_LIM (i : Nat) : Nat := 0x30100808 + 0x20 * i
/-- 15_tariffs.md R395. -/
def TAR_ACC_LOW_THR (i : Nat) : Nat := 0x3010080C + 0x20 * i
/-- 15_tariffs.md R395. -/
def TAR_ACC_STATE (i : Nat) : Nat := 0x30100810 + 0x20 * i
/-- 16_keys.md R414. -/
def KS_CTRL : Nat := 0x30300000
/-- 16_keys.md R414. -/
def KS_ADMIN : Nat := 0x30300004
/-- 16_keys.md R414. -/
def KS_STATUS : Nat := 0x30300008
/-- 16_keys.md R414. -/
def KS_ZSTAT : Nat := 0x3030000C
/-- 16_keys.md R414. -/
def KS_ZTIME : Nat := 0x30300010
/-- 16_keys.md R414. -/
def KS_SLOT_INFO (i : Nat) : Nat := 0x30300100 + 0x10 * i
/-- 16_keys.md R414. -/
def KS_SLOT_POL (i : Nat) : Nat := 0x30300104 + 0x10 * i
/-- 16_keys.md R414. -/
def KS_SLOT_KEYID (i : Nat) : Nat := 0x30300108 + 0x10 * i
/-- 16_keys.md R414. -/
def KS_SLOT_TWIN_KEYID (i : Nat) : Nat := 0x3030010C + 0x10 * i
/-- 17_safety.md R444. -/
def SFS_STATUS : Nat := 0x40000000
/-- 17_safety.md R444. -/
def SFS_CHK : Nat := 0x40000004
/-- 17_safety.md R444. -/
def SFS_PROG : Nat := 0x40000008
/-- 17_safety.md R444. -/
def SFS_CONF_CHK : Nat := 0x4000000C
/-- 17_safety.md R444. -/
def SFS_CONF_PROG : Nat := 0x40000010
/-- 17_safety.md R444. -/
def SFS_CYC : Nat := 0x40000014
/-- 17_safety.md R444. -/
def SFS_IN : Nat := 0x40000020
/-- 17_safety.md R444. -/
def SFS_IN2 : Nat := 0x40000024
/-- 17_safety.md R444. -/
def SFS_RAW : Nat := 0x40000028
/-- 17_safety.md R444. -/
def SFS_OUT_EN : Nat := 0x40000040
/-- 17_safety.md R444. -/
def SFS_OUT_CMT : Nat := 0x40000044
/-- 17_safety.md R444. -/
def SFS_OUT : Nat := 0x40000048
/-- 17_safety.md R444. -/
def SFS_OUT_FLT : Nat := 0x4000004C
/-- 17_safety.md R444. -/
def SFS_PERMIT : Nat := 0x40000050
/-- 17_safety.md R444. -/
def SFS_BRAKE : Nat := 0x40000054
/-- 17_safety.md R444. -/
def SFS_MSG : Nat := 0x40000058
/-- 18_load_switches.md R461. -/
def HS_CTRL : Nat := 0x40200000
/-- 18_load_switches.md R461. -/
def HS_ON : Nat := 0x40200004
/-- 18_load_switches.md R461. -/
def HS_ON_SET : Nat := 0x40200008
/-- 18_load_switches.md R461. -/
def HS_ON_CLR : Nat := 0x4020000C
/-- 18_load_switches.md R461. -/
def LH_PIN : Nat := 0x40200010
/-- 18_load_switches.md R461. -/
def LH_CFG : Nat := 0x40200014
/-- 18_load_switches.md R461. -/
def HS_CFG (i : Nat) : Nat := 0x40200100 + 0x10 * i
/-- 18_load_switches.md R461. -/
def HS_STAT (i : Nat) : Nat := 0x40200104 + 0x10 * i
/-- 18_load_switches.md R461. -/
def HS_MEAS (i : Nat) : Nat := 0x40200108 + 0x10 * i
/-- 18_load_switches.md R461. -/
def HS_FUSE (i : Nat) : Nat := 0x4020010C + 0x10 * i
/-- 19_brine.md R481. -/
def BR_CTRL : Nat := 0x40300000
/-- 19_brine.md R481. -/
def BR_FSW : Nat := 0x40300004
/-- 19_brine.md R481. -/
def BR_VSET : Nat := 0x40300008
/-- 19_brine.md R481. -/
def BR_LOOP : Nat := 0x4030000C
/-- 19_brine.md R481. -/
def BR_CUR : Nat := 0x40300010
/-- 19_brine.md R481. -/
def BR_TRK : Nat := 0x40300014
/-- 19_brine.md R481. -/
def BR_SHED : Nat := 0x40300018
/-- 19_brine.md R481. -/
def BR_PROT : Nat := 0x4030001C
/-- 19_brine.md R481. -/
def BR_STATUS : Nat := 0x40300020
/-- 19_brine.md R481. -/
def BR_VOUT : Nat := 0x40300024
/-- 19_brine.md R481. -/
def BR_PH (i : Nat) : Nat := 0x40300040 + 0x4 * i
/-- 20_can.md R499. -/
def CAN_CTRL (i : Nat) : Nat := 0x20400000 + 0x200 * i
/-- 20_can.md R499. -/
def CAN_NBT (i : Nat) : Nat := 0x20400004 + 0x200 * i
/-- 20_can.md R499. -/
def CAN_DBT (i : Nat) : Nat := 0x20400008 + 0x200 * i
/-- 20_can.md R499. -/
def CAN_TDC (i : Nat) : Nat := 0x2040000C + 0x200 * i
/-- 20_can.md R499. -/
def CAN_RAM_BASE (i : Nat) : Nat := 0x20400010 + 0x200 * i
/-- 20_can.md R499. -/
def CAN_STAT (i : Nat) : Nat := 0x20400014 + 0x200 * i
/-- 20_can.md R499. -/
def CAN_ECR (i : Nat) : Nat := 0x20400018 + 0x200 * i
/-- 20_can.md R499. -/
def CAN_ROBUST (i : Nat) : Nat := 0x2040001C + 0x200 * i
/-- 20_can.md R499. -/
def CAN_FLT_CFG (i : Nat) : Nat := 0x20400020 + 0x200 * i
/-- 20_can.md R499. -/
def CAN_TXREQ (i : Nat) : Nat := 0x20400024 + 0x200 * i
/-- 20_can.md R499. -/
def CAN_TXCAN (i : Nat) : Nat := 0x20400028 + 0x200 * i
/-- 20_can.md R499. -/
def CAN_TXSTAT (i : Nat) : Nat := 0x2040002C + 0x200 * i
/-- 20_can.md R499. -/
def CAN_RXF (i j : Nat) : Nat := 0x20400030 + 0x200 * i + 0x4 * j
/-- 20_can.md R499. -/
def CAN_REF_CFG (i : Nat) : Nat := 0x20400040 + 0x200 * i
/-- 20_can.md R499. -/
def CAN_REF_TIME (i : Nat) : Nat := 0x20400044 + 0x200 * i
/-- 20_can.md R499. -/
def CAN_REF_STAT (i : Nat) : Nat := 0x20400048 + 0x200 * i
/-- 20_can.md R499. -/
def CAN_FLT_ID (i j : Nat) : Nat := 0x20400080 + 0x200 * i + 0x8 * j
/-- 20_can.md R499. -/
def CAN_FLT_MASK (i j : Nat) : Nat := 0x20400084 + 0x200 * i + 0x8 * j
/-- 20_can.md R499. -/
def CAN_GLB : Nat := 0x20400800
/-- 21_supply_clocks.md R517. -/
def PWR_CTRL : Nat := 0x50000000
/-- 21_supply_clocks.md R517. -/
def PWR_STATUS : Nat := 0x50000004
/-- 21_supply_clocks.md R517. -/
def SUP_VIN : Nat := 0x50000008
/-- 21_supply_clocks.md R517. -/
def SUP_VBAT : Nat := 0x5000000C
/-- 21_supply_clocks.md R517. -/
def CLK_STATUS : Nat := 0x50000010
/-- 21_supply_clocks.md R517. -/
def RST_CMD : Nat := 0x50000020
/-- 21_supply_clocks.md R517. -/
def RST_CAUSE : Nat := 0x50000024
/-- 21_supply_clocks.md R517. -/
def RST_LAST : Nat := 0x50000028
/-- 21_supply_clocks.md R517. -/
def RST_TIME : Nat := 0x5000002C
/-- 21_supply_clocks.md R517. -/
def RST_COUNT : Nat := 0x50000030
/-- 22_startup.md R531. -/
def ST_STATUS : Nat := 0x50100000
/-- 22_startup.md R531. -/
def ST_RESULT : Nat := 0x50100004
/-- 22_startup.md R531. -/
def ST_TIME : Nat := 0x50100008
/-- 22_startup.md R531. -/
def ST_SEQ_A : Nat := 0x50100010
/-- 22_startup.md R531. -/
def ST_SEQ_B : Nat := 0x50100014
/-- 22_startup.md R531. -/
def ST_REJ : Nat := 0x50100018
/-- 22_startup.md R531. -/
def ST_TRY : Nat := 0x50100020
/-- 22_startup.md R531. -/
def ST_RB : Nat := 0x50100024
/-- 22_startup.md R531. -/
def ST_MGMT : Nat := 0x50100028

end Reg

namespace F

def ERR_CHIP_STATUS_COUNT : Fld := ⟨31, 24⟩
def ERR_CHIP_STATUS_LATE : Fld := ⟨4, 4⟩
def ERR_CHIP_STATUS_OPEN : Fld := ⟨3, 3⟩
def ERR_CHIP_STATUS_GRADE : Fld := ⟨2, 0⟩
def ERR_CHIP_CAUSE_BLOCK : Fld := ⟨31, 24⟩
def ERR_CHIP_CAUSE_CELL : Fld := ⟨23, 16⟩
def ERR_CHIP_CAUSE_CODE : Fld := ⟨15, 8⟩
def ERR_CHIP_CAUSE_GRADE : Fld := ⟨2, 0⟩
def ERR_CHIP_TIME_S_VAL : Fld := ⟨31, 0⟩
def ERR_CHIP_TIME_NS_VAL : Fld := ⟨31, 0⟩
def ERR_CHIP_TMO_LIMIT : Fld := ⟨9, 0⟩
def ERR_LOCK_LOCK : Fld := ⟨0, 0⟩
def ERR_REG_STATUS_COUNT : Fld := ⟨31, 24⟩
def ERR_REG_STATUS_LATE : Fld := ⟨4, 4⟩
def ERR_REG_STATUS_OPEN : Fld := ⟨3, 3⟩
def ERR_REG_STATUS_GRADE : Fld := ⟨2, 0⟩
def ERR_REG_CAUSE_BLOCK : Fld := ⟨31, 24⟩
def ERR_REG_CAUSE_CELL : Fld := ⟨23, 16⟩
def ERR_REG_CAUSE_CODE : Fld := ⟨15, 8⟩
def ERR_REG_CAUSE_GRADE : Fld := ⟨2, 0⟩
def ERR_REG_TIME_S_VAL : Fld := ⟨31, 0⟩
def ERR_REG_TIME_NS_VAL : Fld := ⟨31, 0⟩
def ERR_REG_CFG_REG_WIN : Fld := ⟨31, 24⟩
def ERR_REG_CFG_REG_TMO : Fld := ⟨15, 0⟩
def ERR_REG_CTRL_UP : Fld := ⟨0, 0⟩
def FAB_PRIO0_VAL : Fld := ⟨31, 0⟩
def FAB_PRIO1_VAL : Fld := ⟨5, 0⟩
def FAB_TMO_LIMIT : Fld := ⟨15, 0⟩
def FAB_OUTSTANDING_COUNT : Fld := ⟨7, 0⟩
def FAB_ERR_ADDR_VAL : Fld := ⟨31, 0⟩
def FAB_ERR_INFO_SLOT : Fld := ⟨4, 0⟩
def FAB_ERR_INFO_KIND : Fld := ⟨9, 8⟩
def FAB_ERR_INFO_WRITE : Fld := ⟨10, 10⟩
def ERR_BLK_STATUS_COUNT : Fld := ⟨31, 24⟩
def ERR_BLK_STATUS_LATE : Fld := ⟨4, 4⟩
def ERR_BLK_STATUS_OPEN : Fld := ⟨3, 3⟩
def ERR_BLK_STATUS_GRADE : Fld := ⟨2, 0⟩
def ERR_BLK_CAUSE_BLOCK : Fld := ⟨31, 24⟩
def ERR_BLK_CAUSE_CELL : Fld := ⟨23, 16⟩
def ERR_BLK_CAUSE_CODE : Fld := ⟨15, 8⟩
def ERR_BLK_CAUSE_GRADE : Fld := ⟨2, 0⟩
def ERR_BLK_TIME_S_VAL : Fld := ⟨31, 0⟩
def ERR_BLK_TIME_NS_VAL : Fld := ⟨31, 0⟩
def ERR_BLK_CELLS_LO_PEND : Fld := ⟨31, 0⟩
def ERR_BLK_CELLS_HI_PEND : Fld := ⟨31, 0⟩
def ERR_BLK_CFG_AUTO_CLR : Fld := ⟨24, 24⟩
def ERR_BLK_CFG_NOTE_LIMIT : Fld := ⟨23, 16⟩
def ERR_BLK_CFG_BLK_TMO : Fld := ⟨15, 0⟩
def ERR_BLK_CTRL_RECOVERED : Fld := ⟨8, 8⟩
def ERR_BLK_CTRL_ACK : Fld := ⟨0, 0⟩
def MBX_CFG_EN : Fld := ⟨31, 31⟩
def MBX_CFG_COUNT : Fld := ⟨11, 8⟩
def MBX_CFG_FULL_SEEN : Fld := ⟨7, 7⟩
def MBX_CFG_SEQ : Fld := ⟨4, 2⟩
def MBX_CFG_CTX : Fld := ⟨1, 0⟩
def WSC_CTX_CTRL_HALT : Fld := ⟨11, 8⟩
def WSC_CTX_CTRL_RESTART : Fld := ⟨7, 4⟩
def WSC_CTX_CTRL_START : Fld := ⟨3, 0⟩
def WSC_CTX_STATE_WDOG : Fld := ⟨11, 8⟩
def WSC_CTX_STATE_STATE : Fld := ⟨7, 0⟩
def WSC_ENTRY_ADDR : Fld := ⟨31, 0⟩
def LOOM_CH_CTRL_SYNC_EN : Fld := ⟨31, 31⟩
def LOOM_CH_CTRL_SYNC_SRC : Fld := ⟨28, 24⟩
def LOOM_CH_CTRL_STALE_LIM : Fld := ⟨23, 16⟩
def LOOM_CH_CTRL_UPD_GLOBAL : Fld := ⟨11, 11⟩
def LOOM_CH_CTRL_UPD_MODE : Fld := ⟨9, 8⟩
def LOOM_CH_CTRL_ALIGN : Fld := ⟨0, 0⟩
def LOOM_CH_PERIOD_PERIOD_NS : Fld := ⟨23, 4⟩
def LOOM_CH_PERIOD_PERIOD_FRAC : Fld := ⟨3, 0⟩
def LOOM_CH_DUTY_VAL : Fld := ⟨23, 0⟩
def LOOM_CH_PHASE_VAL : Fld := ⟨23, 0⟩
def LOOM_CH_DEAD_DEAD_FALL : Fld := ⟨27, 16⟩
def LOOM_CH_DEAD_DEAD_RISE : Fld := ⟨11, 0⟩
def LOOM_CH_MINPW_MIN_PULSE : Fld := ⟨11, 0⟩
def LOOM_CH_TRIG_TRIG_EN : Fld := ⟨31, 31⟩
def LOOM_CH_TRIG_PRESC : Fld := ⟨27, 24⟩
def LOOM_CH_TRIG_POS : Fld := ⟨23, 0⟩
def LOOM_CH_TRIP_PIN_PIN_MASK : Fld := ⟨15, 0⟩
def LOOM_CH_TRIP_CMP_LO_CMP_MASK_LO : Fld := ⟨31, 0⟩
def LOOM_CH_TRIP_CMP_HI_CMP_MASK_HI : Fld := ⟨15, 0⟩
def LOOM_CH_OUTCFG_OFF_L : Fld := ⟨5, 4⟩
def LOOM_CH_OUTCFG_OFF_H : Fld := ⟨3, 2⟩
def LOOM_CH_OUTCFG_POL_L : Fld := ⟨1, 1⟩
def LOOM_CH_OUTCFG_POL_H : Fld := ⟨0, 0⟩
def LOOM_CH_BLANK_BLANK_NS : Fld := ⟨9, 0⟩
def LOOM_CH_STATUS_FIRST_SRC : Fld := ⟨23, 16⟩
def LOOM_CH_STATUS_CTRL_IGN : Fld := ⟨9, 9⟩
def LOOM_CH_STATUS_SYNC_ERR : Fld := ⟨8, 8⟩
def LOOM_CH_STATUS_CLAMP : Fld := ⟨7, 7⟩
def LOOM_CH_STATUS_PERSIST : Fld := ⟨6, 6⟩
def LOOM_CH_STATUS_CLEAR_REFUSED : Fld := ⟨5, 5⟩
def LOOM_CH_STATUS_HIZ_TRIP : Fld := ⟨4, 4⟩
def LOOM_CH_STATUS_LATCH_TRIP : Fld := ⟨3, 3⟩
def LOOM_CH_STATUS_CYC_TRIP : Fld := ⟨2, 2⟩
def LOOM_CH_STATUS_RUN : Fld := ⟨0, 0⟩
def LOOM_CH_CMD_CLR_DROP : Fld := ⟨1, 1⟩
def LOOM_CH_CMD_CLR_TRIP : Fld := ⟨0, 0⟩
def LOOM_CH_DROP_CNT_DROP_L : Fld := ⟨31, 16⟩
def LOOM_CH_DROP_CNT_DROP_H : Fld := ⟨15, 0⟩
def LOOM_CH_CNT_COUNT : Fld := ⟨23, 0⟩
def LOOM_RUN_VAL : Fld := ⟨23, 0⟩
def LOOM_GUPD_ARM : Fld := ⟨23, 0⟩
def LOOM_LOCK_LOCK : Fld := ⟨0, 0⟩
def LOOM_RATE_WIN_WIN : Fld := ⟨15, 0⟩
def LOOM_PIN_STAT_VAL : Fld := ⟨15, 0⟩
def LOOM_CMP_STAT_LO_VAL : Fld := ⟨31, 0⟩
def LOOM_CMP_STAT_HI_VAL : Fld := ⟨15, 0⟩
def LOOM_TSRC_EN : Fld := ⟨31, 31⟩
def LOOM_TSRC_CLASS : Fld := ⟨25, 24⟩
def LOOM_TSRC_BLANK_EN : Fld := ⟨21, 21⟩
def LOOM_TSRC_POL : Fld := ⟨20, 20⟩
def LOOM_TSRC_REFUSED : Fld := ⟨17, 17⟩
def LOOM_TSRC_STUCK : Fld := ⟨16, 16⟩
def LOOM_TSRC_STUCK_T : Fld := ⟨15, 8⟩
def LOOM_TSRC_RATE_LIM : Fld := ⟨7, 0⟩
def TW_CTRL_RUN : Fld := ⟨31, 31⟩
def TW_CTRL_OVR_LIM : Fld := ⟨23, 16⟩
def TW_STATUS_DZ : Fld := ⟨17, 17⟩
def TW_STATUS_Q : Fld := ⟨16, 16⟩
def TW_STATUS_OWN_CONFLICT : Fld := ⟨15, 15⟩
def TW_STATUS_OWN_ERR : Fld := ⟨14, 14⟩
def TW_STATUS_ILL : Fld := ⟨13, 13⟩
def TW_STATUS_ABORT : Fld := ⟨12, 12⟩
def TW_STATUS_PEND : Fld := ⟨11, 4⟩
def TW_STATUS_BUSY : Fld := ⟨3, 3⟩
def TW_STATUS_CUR_SLOT : Fld := ⟨2, 0⟩
def TW_OWN_CH : Fld := ⟨23, 0⟩
def TW_CCOMMIT_GO : Fld := ⟨0, 0⟩
def TW_FF_CTRL_ACTIVE : Fld := ⟨8, 8⟩
def TW_FF_CTRL_WRAP : Fld := ⟨7, 4⟩
def TW_FF_CTRL_BANK : Fld := ⟨0, 0⟩
def TW_SLOT_CFG_EN : Fld := ⟨31, 31⟩
def TW_SLOT_CFG_CLR : Fld := ⟨30, 30⟩
def TW_SLOT_CFG_OVR_CNT : Fld := ⟨29, 23⟩
def TW_SLOT_CFG_TRIG : Fld := ⟨22, 16⟩
def TW_SLOT_CFG_ENTRY : Fld := ⟨8, 0⟩
def TW_SLOT_BUDGET_CYC : Fld := ⟨15, 0⟩
def TW_SLOT_STAT_MAX_CYC : Fld := ⟨31, 16⟩
def TW_SLOT_STAT_LAST_CYC : Fld := ⟨15, 0⟩
def TW_RMP_CFG_EN : Fld := ⟨31, 31⟩
def TW_RMP_CFG_IDX : Fld := ⟨19, 16⟩
def TW_RMP_CFG_SRC : Fld := ⟨10, 8⟩
def TW_RMP_RATE_UP_STEP : Fld := ⟨30, 0⟩
def TW_RMP_RATE_DN_STEP : Fld := ⟨30, 0⟩
def TW_RMP_PRESET_VALUE : Fld := ⟨31, 0⟩
def TW_SP_VAL : Fld := ⟨31, 0⟩
def TW_ACC_LO_VAL : Fld := ⟨31, 0⟩
def TW_ACC_HI_VAL : Fld := ⟨31, 0⟩
def TW_COEF_VAL_VAL : Fld := ⟨31, 0⟩
def TW_COEF_SHIFT_VAL : Fld := ⟨4, 0⟩
def TW_M_VAL : Fld := ⟨31, 0⟩
def TW_PROG_LO_VAL : Fld := ⟨31, 0⟩
def TW_PROG_HI_VAL : Fld := ⟨31, 0⟩
def TW_FF_VAL : Fld := ⟨31, 0⟩
def AINSP_CFG_EN : Fld := ⟨31, 31⟩
def AINSP_CFG_TAU : Fld := ⟨30, 28⟩
def AINSP_CFG_HI : Fld := ⟨23, 12⟩
def AINSP_CFG_LO : Fld := ⟨11, 0⟩
def AINSP_STAT_RANGE : Fld := ⟨3, 0⟩
def PINSP_CFG_EN : Fld := ⟨31, 31⟩
def PINSP_CFG_MODE : Fld := ⟨30, 30⟩
def PINSP_CFG_FILT : Fld := ⟨23, 16⟩
def PINSP_CFG_FMAX : Fld := ⟨15, 0⟩
def PINSP_TMO_TMO : Fld := ⟨23, 0⟩
def PINSP_STAT_LOST : Fld := ⟨7, 4⟩
def PINSP_STAT_OVER : Fld := ⟨3, 0⟩
def SNS_CTRL_CLR_CNT : Fld := ⟨16, 16⟩
def SNS_CTRL_CHK_EN : Fld := ⟨8, 8⟩
def SNS_CTRL_ADC_EN : Fld := ⟨7, 0⟩
def SNS_MX_XP_HOLD : Fld := ⟨31, 24⟩
def SNS_MX_CHK_HOLD : Fld := ⟨23, 16⟩
def SNS_MX_I_ZERO : Fld := ⟨15, 0⟩
def SNS_MXV_MATCH_DV : Fld := ⟨31, 16⟩
def SNS_MXV_WELD_DV : Fld := ⟨15, 0⟩
def SNS_WCHK_START : Fld := ⟨31, 31⟩
def SNS_WCHK_TGT_KIND : Fld := ⟨30, 30⟩
def SNS_WCHK_TGT : Fld := ⟨27, 24⟩
def SNS_WCHK_WIN : Fld := ⟨23, 16⟩
def SNS_WCHK_RESULT : Fld := ⟨2, 0⟩
def SNS_DCL_EN : Fld := ⟨31, 31⟩
def SNS_DCL_PRE_PCT : Fld := ⟨30, 24⟩
def SNS_DCL_SRC_AIN : Fld := ⟨21, 16⟩
def SNS_DCL_DC_AIN : Fld := ⟨13, 8⟩
def SNS_DCL_PRE_OK : Fld := ⟨0, 0⟩
def ADC_STAT_DROP : Fld := ⟨31, 16⟩
def ADC_STAT_DEFER : Fld := ⟨15, 0⟩
def SG_CFG_EN : Fld := ⟨31, 31⟩
def SG_CFG_TRIG : Fld := ⟨22, 16⟩
def SG_SEL_POS : Fld := ⟨31, 0⟩
def AIN_CAL_OFS_OFS : Fld := ⟨15, 0⟩
def AIN_CAL_GAIN_GAIN : Fld := ⟨23, 0⟩
def AIN_RES_VAL : Fld := ⟨31, 0⟩
def AIN_RAW_SAT : Fld := ⟨31, 31⟩
def AIN_RAW_GROUP : Fld := ⟨19, 16⟩
def AIN_RAW_CODE : Fld := ⟨13, 0⟩
def CMP_THR_HI : Fld := ⟨25, 16⟩
def CMP_THR_LO : Fld := ⟨9, 0⟩
def CMP_CFG_DACERR : Fld := ⟨8, 8⟩
def CMP_CFG_ACT : Fld := ⟨7, 7⟩
def CMP_CFG_HYST : Fld := ⟨5, 4⟩
def CMP_CFG_MODE : Fld := ⟨1, 0⟩
def MOD_CFG_EN : Fld := ⟨31, 31⟩
def MOD_CFG_KIND : Fld := ⟨29, 28⟩
def MOD_CFG_NCH : Fld := ⟨26, 24⟩
def MOD_CFG_CH : Fld := ⟨20, 16⟩
def MOD_SNS_I_AIN : Fld := ⟨13, 8⟩
def MOD_SNS_V_AIN : Fld := ⟨5, 0⟩
def OUTL_CFG_EN : Fld := ⟨31, 31⟩
def OUTL_CFG_VV_AIN : Fld := ⟨29, 24⟩
def OUTL_CFG_VB_AIN : Fld := ⟨21, 16⟩
def OUTL_CFG_I_AIN : Fld := ⟨13, 8⟩
def OUTL_CHK_ISUM_TOL : Fld := ⟨31, 16⟩
def OUTL_CHK_STALE : Fld := ⟨3, 3⟩
def OUTL_CHK_MISMATCH : Fld := ⟨2, 2⟩
def OUTL_CHK_MATCH : Fld := ⟨1, 1⟩
def XP_EN : Fld := ⟨31, 31⟩
def XP_MOD : Fld := ⟨26, 24⟩
def XP_OUT : Fld := ⟨18, 16⟩
def XP_HS : Fld := ⟨11, 8⟩
def XP_REFUSED : Fld := ⟨5, 5⟩
def XP_PEND : Fld := ⟨4, 4⟩
def XP_STATE : Fld := ⟨0, 0⟩
def SAL_CTRL_DEM_TMO : Fld := ⟨23, 16⟩
def SAL_CTRL_CAB : Fld := ⟨11, 8⟩
def SAL_CTRL_CMT_MODE : Fld := ⟨4, 4⟩
def SAL_CTRL_MODE : Fld := ⟨1, 0⟩
def SAL_PERIOD_PERIOD_US : Fld := ⟨16, 0⟩
def SAL_LEAD_LEAD_US : Fld := ⟨18, 0⟩
def SAL_CMT_GO : Fld := ⟨0, 0⟩
def SAL_STATUS_LAST_DUR : Fld := ⟨31, 16⟩
def SAL_STATUS_STATE_IGN : Fld := ⟨10, 10⟩
def SAL_STATUS_ABORT : Fld := ⟨9, 9⟩
def SAL_STATUS_CFG_ERR : Fld := ⟨8, 8⟩
def SAL_STATUS_BUSY : Fld := ⟨0, 0⟩
def SAL_PNUM_PNUM : Fld := ⟨31, 0⟩
def SAL_TOTAL_TOTAL : Fld := ⟨23, 0⟩
def SAL_ROT_ROT : Fld := ⟨6, 0⟩
def SAL_LAST_B_S_SEC : Fld := ⟨31, 0⟩
def SAL_LAST_B_NS_NSEC : Fld := ⟨31, 0⟩
def SAL_EMRG_CTRL_LINE_EN : Fld := ⟨31, 31⟩
def SAL_EMRG_CTRL_AUTO_REL : Fld := ⟨30, 30⟩
def SAL_EMRG_CTRL_REL_HOLD : Fld := ⟨23, 16⟩
def SAL_EMRG_CTRL_KEEP : Fld := ⟨10, 0⟩
def SAL_EMRG_DEM_DEM : Fld := ⟨23, 0⟩
def SAL_EMRG_CMD_REQ : Fld := ⟨1, 1⟩
def SAL_EMRG_CMD_CLR : Fld := ⟨0, 0⟩
def SAL_EMRG_STAT_ACT : Fld := ⟨31, 31⟩
def SAL_EMRG_STAT_PEND : Fld := ⟨30, 30⟩
def SAL_EMRG_STAT_CLR_REFUSED : Fld := ⟨29, 29⟩
def SAL_EMRG_STAT_E : Fld := ⟨23, 0⟩
def SAL_EMRG_BASE_BASE : Fld := ⟨23, 0⟩
def SAL_APPLY_STAT_FULL : Fld := ⟨16, 16⟩
def SAL_APPLY_STAT_LATE : Fld := ⟨15, 8⟩
def SAL_APPLY_STAT_DEPTH : Fld := ⟨2, 0⟩
def SAL_EMRG_GE_GE : Fld := ⟨23, 0⟩
def SAL_EMRG_REL_REL_CNT : Fld := ⟨7, 0⟩
def SAL_PAN_EN : Fld := ⟨31, 31⟩
def SAL_PAN_PARENT : Fld := ⟨29, 24⟩
def SAL_PAN_LIMIT : Fld := ⟨23, 0⟩
def SAL_PAN_RES_INVALID : Fld := ⟨31, 31⟩
def SAL_PAN_RES_DEPTH : Fld := ⟨26, 24⟩
def SAL_PAN_RES_RES : Fld := ⟨23, 0⟩
def SAL_OUT_CFG_EN : Fld := ⟨31, 31⟩
def SAL_OUT_CFG_CLASS : Fld := ⟨30, 28⟩
def SAL_OUT_CFG_PAN : Fld := ⟨21, 16⟩
def SAL_OUT_FLOOR_FLOOR : Fld := ⟨23, 0⟩
def SAL_OUT_CAP_CAP : Fld := ⟨23, 0⟩
def SAL_OUT_RAMP_RU : Fld := ⟨31, 16⟩
def SAL_OUT_RAMP_RD : Fld := ⟨15, 0⟩
def SAL_DEM_STALE : Fld := ⟨31, 31⟩
def SAL_DEM_DEM : Fld := ⟨23, 0⟩
def SAL_GRANT_W : Fld := ⟨27, 24⟩
def SAL_GRANT_GRANT : Fld := ⟨23, 0⟩
def SAL_APPLIED_PNUM_LO : Fld := ⟨31, 24⟩
def SAL_APPLIED_GRANT : Fld := ⟨23, 0⟩
def ZW_CTRL_EN : Fld := ⟨31, 31⟩
def ZW_CTRL_LEAD_CAP : Fld := ⟨30, 30⟩
def ZW_CTRL_AUTH : Fld := ⟨29, 29⟩
def ZW_CTRL_PAIR_EN : Fld := ⟨28, 28⟩
def ZW_CTRL_PRIO : Fld := ⟨27, 24⟩
def ZW_CTRL_SITE_NM1 : Fld := ⟨19, 16⟩
def ZW_CTRL_KEY_SLOT : Fld := ⟨12, 8⟩
def ZW_CTRL_PORTS : Fld := ⟨1, 0⟩
def ZW_NET_ETYPE : Fld := ⟨31, 16⟩
def ZW_NET_PCP : Fld := ⟨15, 13⟩
def ZW_NET_VID : Fld := ⟨11, 0⟩
def ZW_TIME_MISS_LIM : Fld := ⟨31, 28⟩
def ZW_TIME_TAKE_MS : Fld := ⟨23, 16⟩
def ZW_TIME_DEM_LEAD_US : Fld := ⟨15, 0⟩
def ZW_HOLD_LISTEN_MS : Fld := ⟨31, 16⟩
def ZW_HOLD_HOLD_MS : Fld := ⟨15, 0⟩
def ZW_DSTEP_DSTEP : Fld := ⟨23, 0⟩
def ZW_ROLE_STBY_CAB : Fld := ⟨31, 24⟩
def ZW_ROLE_LEADER_CAB : Fld := ⟨23, 20⟩
def ZW_ROLE_READY : Fld := ⟨18, 18⟩
def ZW_ROLE_DECAY : Fld := ⟨17, 17⟩
def ZW_ROLE_HOLD : Fld := ⟨16, 16⟩
def ZW_ROLE_ROLE : Fld := ⟨2, 0⟩
def ZW_EPOCH_EPOCH : Fld := ⟨31, 0⟩
def ZW_STATUS_KEY_STALE : Fld := ⟨8, 8⟩
def ZW_STATUS_SWAP_FAIL : Fld := ⟨7, 7⟩
def ZW_STATUS_SWAP_OK : Fld := ⟨6, 6⟩
def ZW_STATUS_TAKEOVER : Fld := ⟨5, 5⟩
def ZW_STATUS_STEPDOWN : Fld := ⟨4, 4⟩
def ZW_STATUS_CFG_MISMATCH : Fld := ⟨3, 3⟩
def ZW_STATUS_CONFLICT : Fld := ⟨2, 2⟩
def ZW_STATUS_LATE_DEM : Fld := ⟨1, 1⟩
def ZW_STATUS_DISCARD : Fld := ⟨0, 0⟩
def ZW_SWAP_GO : Fld := ⟨31, 31⟩
def ZW_SWAP_CLR_EXCL : Fld := ⟨30, 30⟩
def ZW_SWAP_DELAY : Fld := ⟨23, 16⟩
def ZW_SWAP_EXCL : Fld := ⟨15, 0⟩
def ZW_PAIR_POS : Fld := ⟨31, 31⟩
def ZW_PAIR_CLAIM : Fld := ⟨30, 30⟩
def ZW_PAIR_OWNED : Fld := ⟨29, 29⟩
def ZW_PAIR_PARTNER : Fld := ⟨28, 28⟩
def ZW_PAIR_CONFLICT : Fld := ⟨27, 27⟩
def ZW_PAIR_STUCK : Fld := ⟨26, 26⟩
def ZW_PAIR_RATE_LIM : Fld := ⟨15, 8⟩
def ZW_PAIR_FILT_US : Fld := ⟨7, 0⟩
def ZW_CFG_CRC_CRC : Fld := ⟨31, 0⟩
def ZW_CNT_DISCARD : Fld := ⟨31, 16⟩
def ZW_CNT_LATE_DEM : Fld := ⟨15, 0⟩
def ZW_DEM_V : Fld := ⟨31, 31⟩
def ZW_DEM_DEM : Fld := ⟨23, 0⟩
def ZW_PEER_SEEN : Fld := ⟨31, 31⟩
def ZW_PEER_READY : Fld := ⟨30, 30⟩
def ZW_PEER_LEAD_CAP : Fld := ⟨29, 29⟩
def ZW_PEER_PRIO : Fld := ⟨27, 24⟩
def ZW_PEER_ROLE : Fld := ⟨18, 16⟩
def ZW_PEER_AGE : Fld := ⟨7, 0⟩
def TB_CFG_STEP_US : Fld := ⟨31, 16⟩
def TB_CFG_HOLD_TMO : Fld := ⟨11, 8⟩
def TB_CFG_SERVO_EN : Fld := ⟨7, 7⟩
def TB_CFG_FOLLOW : Fld := ⟨5, 4⟩
def TB_CFG_SRC : Fld := ⟨2, 0⟩
def TB_STATE_HOLD_AGE : Fld := ⟨31, 16⟩
def TB_STATE_SRC_ERR : Fld := ⟨11, 11⟩
def TB_STATE_RATE_CLAMP : Fld := ⟨10, 10⟩
def TB_STATE_LEGAL_IGN : Fld := ⟨9, 9⟩
def TB_STATE_STEPPED : Fld := ⟨8, 8⟩
def TB_STATE_ST : Fld := ⟨2, 0⟩
def TB_RATE_VAL : Fld := ⟨31, 0⟩
def TB_STEP_S_VAL : Fld := ⟨31, 0⟩
def TB_STEP_NS_VAL : Fld := ⟨29, 0⟩
def TB_STEP_SH_VAL : Fld := ⟨15, 0⟩
def TB_STEP_CMD_GO : Fld := ⟨0, 0⟩
def TB_STEP_CMD_ABS : Fld := ⟨1, 1⟩
def TB_TIME_NS_VAL : Fld := ⟨31, 0⟩
def TB_TIME_S_VAL : Fld := ⟨31, 0⟩
def TB_TIME_X_VAL : Fld := ⟨31, 0⟩
def TB_LOCK_LOCK_NS : Fld := ⟨31, 16⟩
def TB_LOCK_LOCK_N : Fld := ⟨7, 0⟩
def TB_HOLD_HOLD_S : Fld := ⟨15, 0⟩
def TB_OFFSET_VAL : Fld := ⟨31, 0⟩
def TOUT_CFG_EN : Fld := ⟨31, 31⟩
def TOUT_CFG_PER : Fld := ⟨30, 30⟩
def TOUT_CFG_POL : Fld := ⟨29, 29⟩
def TOUT_CFG_TB : Fld := ⟨25, 24⟩
def TOUT_START_S_VAL : Fld := ⟨31, 0⟩
def TOUT_START_NS_VAL : Fld := ⟨31, 0⟩
def TOUT_PERIOD_VAL : Fld := ⟨31, 0⟩
def TOUT_WIDTH_VAL : Fld := ⟨31, 0⟩
def TOUT_STAT_MISS : Fld := ⟨31, 16⟩
def TOUT_STAT_CFG_IGN : Fld := ⟨2, 2⟩
def TOUT_STAT_CLAMP : Fld := ⟨1, 1⟩
def TOUT_STAT_LATE : Fld := ⟨0, 0⟩
def TCAP_CFG_EN : Fld := ⟨31, 31⟩
def TCAP_CFG_TB : Fld := ⟨25, 24⟩
def TCAP_CFG_EDGE : Fld := ⟨17, 16⟩
def TCAP_CFG_RATE_LIM : Fld := ⟨15, 8⟩
def TCAP_CFG_FILT : Fld := ⟨7, 0⟩
def TCAP_NS_VAL : Fld := ⟨31, 0⟩
def TCAP_S_VAL : Fld := ⟨31, 0⟩
def TCAP_X_VAL : Fld := ⟨31, 0⟩
def TCAP_F_EDGE_R : Fld := ⟨1, 1⟩
def TCAP_F_STEPPED : Fld := ⟨0, 0⟩
def TCAP_STAT_DEPTH : Fld := ⟨18, 16⟩
def TCAP_STAT_STUCK : Fld := ⟨1, 1⟩
def TCAP_STAT_OVF : Fld := ⟨0, 0⟩
def PTP_TXTS_NS_VAL : Fld := ⟨31, 0⟩
def PTP_TXTS_S_VAL : Fld := ⟨31, 0⟩
def PTP_TXTS_X_VAL : Fld := ⟨31, 0⟩
def PTP_CTRL_TC_EN : Fld := ⟨31, 31⟩
def PTP_CTRL_ONE_STEP : Fld := ⟨30, 30⟩
def PTP_CTRL_E2E : Fld := ⟨29, 29⟩
def PTP_CTRL_DOMAIN : Fld := ⟨23, 16⟩
def PTP_CTRL_LOG_PD : Fld := ⟨11, 8⟩
def PTP_CTRL_LOG_SYNC : Fld := ⟨3, 0⟩
def PTP_TC_TC_LOST : Fld := ⟨15, 0⟩
def PTP_PORT_STATE : Fld := ⟨1, 0⟩
def PTP_PDELAY_PDELAY : Fld := ⟨31, 0⟩
def PTP_ASYM_ASYM : Fld := ⟨31, 0⟩
def PTP_TXTS_TXTS : Fld := ⟨31, 0⟩
def GRD_CTRL_EN : Fld := ⟨31, 31⟩
def GRD_CTRL_NOM : Fld := ⟨30, 30⟩
def GRD_CTRL_CLASS : Fld := ⟨29, 29⟩
def GRD_CTRL_FORCE : Fld := ⟨28, 28⟩
def GRD_CTRL_RATE : Fld := ⟨23, 16⟩
def GRD_CTRL_CH_EN : Fld := ⟨7, 0⟩
def GRD_STATUS_INV : Fld := ⟨31, 24⟩
def GRD_STATUS_COND : Fld := ⟨18, 16⟩
def GRD_STATUS_DEGRADED : Fld := ⟨3, 3⟩
def GRD_STATUS_RING_OVF : Fld := ⟨2, 2⟩
def GRD_STATUS_CFG_ERR : Fld := ⟨1, 1⟩
def GRD_STATUS_LINE : Fld := ⟨0, 0⟩
def GRD_ID_FMT : Fld := ⟨16, 16⟩
def GRD_ID_IDCODE : Fld := ⟨15, 0⟩
def GRD_UF_EN : Fld := ⟨31, 31⟩
def GRD_UF_UF_HYST : Fld := ⟨30, 24⟩
def GRD_UF_UF_MHZ : Fld := ⟨19, 0⟩
def GRD_ROC_EN : Fld := ⟨31, 31⟩
def GRD_ROC_ROC_MS : Fld := ⟨23, 16⟩
def GRD_ROC_ROC_THR : Fld := ⟨15, 0⟩
def GRD_UV_EN : Fld := ⟨31, 31⟩
def GRD_UV_UV_PM : Fld := ⟨9, 0⟩
def GRD_QUAL_REL_MS : Fld := ⟨31, 8⟩
def GRD_QUAL_QUAL_MS : Fld := ⟨7, 0⟩
def GRD_NOMV_VAL : Fld := ⟨31, 0⟩
def GCH_CFG_KIND : Fld := ⟨31, 30⟩
def GCH_CFG_PH : Fld := ⟨29, 28⟩
def GCH_CFG_FS : Fld := ⟨19, 0⟩
def GCH_CAL_GAIN_PPM : Fld := ⟨31, 16⟩
def GCH_CAL_DLY_NS : Fld := ⟨15, 0⟩
def GCH_LVL_HI : Fld := ⟨31, 16⟩
def GCH_LVL_LO : Fld := ⟨15, 0⟩
def GRD_RING_BASE_BASE : Fld := ⟨31, 0⟩
def GRD_RING_LEN : Fld := ⟨31, 24⟩
def GRD_RING_WR : Fld := ⟨23, 16⟩
def GRD_RING_RD : Fld := ⟨15, 8⟩
def GRD_REC_CTRL_ARM : Fld := ⟨31, 31⟩
def GRD_REC_CTRL_TRIG : Fld := ⟨30, 30⟩
def GRD_REC_CTRL_SRC : Fld := ⟨18, 16⟩
def GRD_REC_CTRL_LOST : Fld := ⟨15, 8⟩
def GRD_REC_CTRL_STATE : Fld := ⟨1, 0⟩
def GRD_REC_BASE_VAL : Fld := ⟨31, 0⟩
def GRD_REC_TS_VAL : Fld := ⟨31, 0⟩
def GRD_REC_TNS_VAL : Fld := ⟨31, 0⟩
def GRD_REC_INFO_CAUSE : Fld := ⟨31, 24⟩
def GRD_REC_INFO_EXTRA : Fld := ⟨23, 16⟩
def GRD_REC_INFO_PRE_VALID : Fld := ⟨15, 0⟩
def GRD_FREQ_VAL : Fld := ⟨31, 0⟩
def GRD_ROCOF_VAL : Fld := ⟨31, 0⟩
def GRD_V1_VAL : Fld := ⟨31, 0⟩
def T1S_CTRL_EN : Fld := ⟨31, 31⟩
def T1S_CTRL_PLCA_EN : Fld := ⟨30, 30⟩
def T1S_CTRL_MC_ALL : Fld := ⟨29, 29⟩
def T1S_CTRL_PROMISC : Fld := ⟨28, 28⟩
def T1S_PLCA_BURST_CNT : Fld := ⟨31, 24⟩
def T1S_PLCA_TO_TMR : Fld := ⟨23, 16⟩
def T1S_PLCA_NODE_CNT : Fld := ⟨15, 8⟩
def T1S_PLCA_NODE_ID : Fld := ⟨7, 0⟩
def T1S_BURST_BURST_TMR : Fld := ⟨7, 0⟩
def T1S_MAC_LO_VAL : Fld := ⟨31, 0⟩
def T1S_MAC_HI_VAL : Fld := ⟨15, 0⟩
def T1S_STAT_DUP_COORD : Fld := ⟨2, 2⟩
def T1S_STAT_JABBER : Fld := ⟨1, 1⟩
def T1S_STAT_PLCA_ST : Fld := ⟨0, 0⟩
def T1S_CNT_RX_DROP : Fld := ⟨31, 16⟩
def T1S_CNT_TX_COLL : Fld := ⟨15, 0⟩
def T1S_RX_BASE_BASE : Fld := ⟨31, 4⟩
def T1S_RX_CFG_LEN : Fld := ⟨31, 24⟩
def T1S_RX_CFG_HEAD : Fld := ⟨23, 16⟩
def T1S_RX_CFG_TAIL : Fld := ⟨15, 8⟩
def T1S_RX_CFG_EN : Fld := ⟨0, 0⟩
def T1S_TX_BASE_BASE : Fld := ⟨31, 4⟩
def T1S_TX_CFG_LEN : Fld := ⟨31, 24⟩
def T1S_TX_CFG_HEAD : Fld := ⟨23, 16⟩
def T1S_TX_CFG_TAIL : Fld := ⟨15, 8⟩
def T1S_TX_CFG_EN : Fld := ⟨0, 0⟩
def OLK_CFG_CHG_LIM : Fld := ⟨23, 16⟩
def OLK_CFG_QUAL : Fld := ⟨11, 8⟩
def OLK_CFG_RST_LVL : Fld := ⟨4, 4⟩
def OLK_CFG_KIND : Fld := ⟨1, 0⟩
def OLK_DRV_DUTY : Fld := ⟨25, 16⟩
def OLK_DRV_MODE : Fld := ⟨1, 0⟩
def OLK_STAT_CONV_ERR : Fld := ⟨19, 19⟩
def OLK_STAT_MODE_ERR : Fld := ⟨18, 18⟩
def OLK_STAT_DIODE_ERR : Fld := ⟨17, 17⟩
def OLK_STAT_UNSTABLE : Fld := ⟨16, 16⟩
def OLK_STAT_ID_ST : Fld := ⟨11, 8⟩
def OLK_STAT_ST : Fld := ⟨3, 0⟩
def OLK_LVL_HI_MV : Fld := ⟨31, 16⟩
def OLK_LVL_LO_MV : Fld := ⟨15, 0⟩
def OLK_ID_LVL_MV : Fld := ⟨15, 0⟩
def OLK_CAL_OFS : Fld := ⟨31, 16⟩
def OLK_CAL_GAIN : Fld := ⟨15, 0⟩
def OLK_TIME_HI_DLY : Fld := ⟨23, 16⟩
def OLK_TIME_CP_FREQ : Fld := ⟨15, 0⟩
def CPW_HI : Fld := ⟨31, 16⟩
def CPW_LO : Fld := ⟨15, 0⟩
def CEW_HI : Fld := ⟨31, 16⟩
def CEW_LO : Fld := ⟨15, 0⟩
def IDW_HI : Fld := ⟨31, 16⟩
def IDW_LO : Fld := ⟨15, 0⟩
def GP_CTRL_EN : Fld := ⟨31, 31⟩
def GP_CTRL_CCO : Fld := ⟨30, 29⟩
def GP_CTRL_NMK_SLOT : Fld := ⟨12, 8⟩
def GP_CTRL_PSD : Fld := ⟨7, 0⟩
def GP_STAT_PEERS : Fld := ⟨19, 16⟩
def GP_STAT_TEI : Fld := ⟨15, 8⟩
def GP_STAT_CCO_ACT : Fld := ⟨1, 1⟩
def GP_STAT_AVLN : Fld := ⟨0, 0⟩
def GP_MAC_LO_VAL : Fld := ⟨31, 0⟩
def GP_MAC_HI_VAL : Fld := ⟨15, 0⟩
def GP_ATT_CTRL_START : Fld := ⟨31, 31⟩
def GP_ATT_CTRL_ATT_TMO : Fld := ⟨23, 8⟩
def GP_ATT_CTRL_NUM : Fld := ⟨7, 0⟩
def GP_ATT_STAT_DONE : Fld := ⟨31, 31⟩
def GP_ATT_STAT_IMP_EXCL : Fld := ⟨15, 8⟩
def GP_ATT_STAT_CNT : Fld := ⟨7, 0⟩
def GP_ATT_RUNID_LO_VAL : Fld := ⟨31, 0⟩
def GP_ATT_RUNID_HI_VAL : Fld := ⟨31, 0⟩
def GP_ATT_ATT : Fld := ⟨31, 0⟩
def GP_RX_BASE_BASE : Fld := ⟨31, 4⟩
def GP_RX_CFG_LEN : Fld := ⟨31, 24⟩
def GP_RX_CFG_HEAD : Fld := ⟨23, 16⟩
def GP_RX_CFG_TAIL : Fld := ⟨15, 8⟩
def GP_RX_CFG_EN : Fld := ⟨0, 0⟩
def GP_TX_BASE_BASE : Fld := ⟨31, 4⟩
def GP_TX_CFG_LEN : Fld := ⟨31, 24⟩
def GP_TX_CFG_HEAD : Fld := ⟨23, 16⟩
def GP_TX_CFG_TAIL : Fld := ⟨15, 8⟩
def GP_TX_CFG_EN : Fld := ⟨0, 0⟩
def GP_CNT_RX_DROP : Fld := ⟨31, 16⟩
def GP_CNT_TX_DROP : Fld := ⟨15, 0⟩
def BB_CTRL_EN : Fld := ⟨31, 31⟩
def BB_CTRL_PH : Fld := ⟨26, 24⟩
def BB_CTRL_CCO : Fld := ⟨23, 22⟩
def BB_CTRL_NMK_SLOT : Fld := ⟨20, 16⟩
def BB_CTRL_PSD : Fld := ⟨7, 0⟩
def BB_TM_RETRY_LIM : Fld := ⟨27, 24⟩
def BB_TM_PBER_THR : Fld := ⟨17, 8⟩
def BB_TM_REFRESH_S : Fld := ⟨7, 0⟩
def BB_IMP_IMP_THR : Fld := ⟨7, 0⟩
def BB_STAT_NBR : Fld := ⟨21, 16⟩
def BB_STAT_FULL : Fld := ⟨8, 8⟩
def BB_STAT_CCO_ACT : Fld := ⟨1, 1⟩
def BB_STAT_AVLN : Fld := ⟨0, 0⟩
def BB_MAC_LO_VAL : Fld := ⟨31, 0⟩
def BB_MAC_HI_VAL : Fld := ⟨15, 0⟩
def BB_RX_BASE_BASE : Fld := ⟨31, 4⟩
def BB_RX_CFG_LEN : Fld := ⟨31, 24⟩
def BB_RX_CFG_HEAD : Fld := ⟨23, 16⟩
def BB_RX_CFG_TAIL : Fld := ⟨15, 8⟩
def BB_RX_CFG_EN : Fld := ⟨0, 0⟩
def BB_TX_BASE_BASE : Fld := ⟨31, 4⟩
def BB_TX_CFG_LEN : Fld := ⟨31, 24⟩
def BB_TX_CFG_HEAD : Fld := ⟨23, 16⟩
def BB_TX_CFG_TAIL : Fld := ⟨15, 8⟩
def BB_TX_CFG_EN : Fld := ⟨0, 0⟩
def BB_CNT_RX_DROP : Fld := ⟨31, 16⟩
def BB_CNT_TX_DROP : Fld := ⟨15, 0⟩
def BB_TMASK_VAL : Fld := ⟨31, 0⟩
def BB_NBR_MAC_LO_VAL : Fld := ⟨31, 0⟩
def BB_NBR_ID_VALID : Fld := ⟨31, 31⟩
def BB_NBR_ID_TEI : Fld := ⟨23, 16⟩
def BB_NBR_ID_MAC_HI : Fld := ⟨15, 0⟩
def BB_NBR_RATE_RATE : Fld := ⟨15, 0⟩
def BB_NBR_PBER_HIGH_CNT : Fld := ⟨17, 16⟩
def BB_NBR_PBER_PBER : Fld := ⟨9, 0⟩
def BB_NBR_IMP_CNT_IMP_CNT : Fld := ⟨31, 0⟩
def BB_NBR_RENEG_RENEG : Fld := ⟨15, 0⟩
def BB_NBR_AGE_AGE : Fld := ⟨15, 0⟩
def SES_CTRL_RUN : Fld := ⟨31, 31⟩
def SES_INFO_SCHEMAS : Fld := ⟨15, 8⟩
def SES_INFO_TABLE_VER : Fld := ⟨7, 0⟩
def SES_TLS_CFG_UTC_OFS : Fld := ⟨15, 0⟩
def SES_CH_CTRL_EN : Fld := ⟨31, 31⟩
def SES_CH_CTRL_PROTO : Fld := ⟨1, 0⟩
def SES_STAT_TOLD : Fld := ⟨8, 8⟩
def SES_STAT_TLS_OPEN : Fld := ⟨4, 4⟩
def SES_STAT_RING_STOP : Fld := ⟨3, 3⟩
def SES_STAT_TMR_RUN : Fld := ⟨2, 2⟩
def SES_STAT_TLS_VER : Fld := ⟨1, 0⟩
def SES_THR_DA : Fld := ⟨15, 0⟩
def SES_JOB_BASE_BASE : Fld := ⟨31, 5⟩
def SES_JOB_CFG_LEN : Fld := ⟨31, 24⟩
def SES_JOB_CFG_HEAD : Fld := ⟨23, 16⟩
def SES_JOB_CFG_TAIL : Fld := ⟨15, 8⟩
def SES_JOB_CFG_EN : Fld := ⟨0, 0⟩
def SES_TMR_MS : Fld := ⟨23, 0⟩
def SES_TLS_CLIENT_AUTH : Fld := ⟨31, 31⟩
def SES_TLS_KEY_SLOT : Fld := ⟨4, 0⟩
def SES_ROOTS_VAL : Fld := ⟨31, 0⟩
def SES_CERT_BASE_VAL : Fld := ⟨31, 0⟩
def SES_CERT_LEN_VAL : Fld := ⟨12, 0⟩
def TS_CFG_EN : Fld := ⟨31, 31⟩
def TS_CFG_CLASS : Fld := ⟨30, 30⟩
def TS_CFG_TYPE : Fld := ⟨29, 28⟩
def TS_CFG_OUTM : Fld := ⟨23, 16⟩
def TS_CFG_BETA : Fld := ⟨15, 0⟩
def TS_LIM_SHUT : Fld := ⟨31, 16⟩
def TS_LIM_THR : Fld := ⟨15, 0⟩
def TS_LIM2_WARN : Fld := ⟨31, 16⟩
def TS_LIM2_HYST : Fld := ⟨15, 8⟩
def TS_LIM2_TOL : Fld := ⟨7, 0⟩
def TS_NBR_NCNT : Fld := ⟨26, 24⟩
def TS_NBR_NBR : Fld := ⟨23, 0⟩
def TS_VAL_BROKEN : Fld := ⟨31, 31⟩
def TS_VAL_SUBST : Fld := ⟨30, 30⟩
def TS_VAL_DISAGREE : Fld := ⟨29, 29⟩
def TS_VAL_WARN : Fld := ⟨28, 28⟩
def TS_VAL_THROT : Fld := ⟨27, 27⟩
def TS_VAL_SHUTB : Fld := ⟨26, 26⟩
def TS_VAL_T : Fld := ⟨15, 0⟩
def TJ_VAL_VAL : Fld := ⟨15, 0⟩
def TH_CTRL_EN : Fld := ⟨31, 31⟩
def TH_CTRL_HOLD_S : Fld := ⟨23, 16⟩
def TH_CTRL_GRACE : Fld := ⟨13, 0⟩
def TH_STEP_QSTEP : Fld := ⟨31, 16⟩
def TH_STEP_RISE : Fld := ⟨15, 0⟩
def TH_STAT_QUEUE_OVF : Fld := ⟨9, 9⟩
def TH_STAT_REF_ERR : Fld := ⟨8, 8⟩
def TH_STAT_QDEPTH : Fld := ⟨3, 0⟩
def TH_TJ_TJ_WARN : Fld := ⟨15, 0⟩
def CBL_CFG_EN : Fld := ⟨31, 31⟩
def CBL_CFG_COOL_TS : Fld := ⟨29, 24⟩
def CBL_CFG_INIT_K : Fld := ⟨23, 16⟩
def CBL_CFG_ISCALE : Fld := ⟨15, 0⟩
def CBL_RATED_NOFLOW : Fld := ⟨31, 16⟩
def CBL_RATED_RATED : Fld := ⟨15, 0⟩
def CBL_R20_R20 : Fld := ⟨23, 0⟩
def CBL_RTH_RTH : Fld := ⟨23, 0⟩
def CBL_CTH_CTH : Fld := ⟨31, 16⟩
def CBL_CTH_ALPHA : Fld := ⟨15, 0⟩
def CBL_MLIM_MSHUT : Fld := ⟨31, 16⟩
def CBL_MLIM_MTHR : Fld := ⟨15, 0⟩
def CBL_MLIM2_MWARN : Fld := ⟨31, 16⟩
def CBL_MLIM2_MHYST : Fld := ⟨15, 0⟩
def CBL_STATE_SHUT : Fld := ⟨31, 31⟩
def CBL_STATE_READY : Fld := ⟨30, 30⟩
def CBL_STATE_THROT : Fld := ⟨29, 29⟩
def CBL_STATE_WARN : Fld := ⟨28, 28⟩
def CBL_STATE_STALE : Fld := ⟨27, 27⟩
def CBL_STATE_HARD : Fld := ⟨26, 26⟩
def CBL_STATE_ACK_REFUSED : Fld := ⟨25, 25⟩
def CBL_STATE_MT : Fld := ⟨15, 0⟩
def CBL_LIMIT_ENF : Fld := ⟨31, 16⟩
def CBL_LIMIT_DA : Fld := ⟨15, 0⟩
def CBL_CAUSE_BIND : Fld := ⟨18, 16⟩
def CBL_CAUSE_SCAUSE : Fld := ⟨10, 8⟩
def CBL_CAUSE_NOSENS : Fld := ⟨6, 6⟩
def CBL_CAUSE_SENSOR : Fld := ⟨5, 0⟩
def CBL_CMD_ACK : Fld := ⟨0, 0⟩
def FAN_CFG_EN : Fld := ⟨31, 31⟩
def FAN_CFG_MODE : Fld := ⟨30, 30⟩
def FAN_CFG_SRC : Fld := ⟨29, 24⟩
def FAN_CFG_FREQ : Fld := ⟨15, 0⟩
def FAN_DUTY_FAIL : Fld := ⟨25, 16⟩
def FAN_DUTY_DUTY : Fld := ⟨9, 0⟩
def FAN_CURVE_T_HI : Fld := ⟨31, 16⟩
def FAN_CURVE_T_LO : Fld := ⟨15, 0⟩
def FAN_DLIM_DMAX : Fld := ⟨25, 16⟩
def FAN_DLIM_DMIN : Fld := ⟨9, 0⟩
def FAN_TACH_PPR : Fld := ⟨31, 28⟩
def FAN_TACH_FILT : Fld := ⟨23, 16⟩
def FAN_TACH_STALL_MS : Fld := ⟨15, 0⟩
def FAN_TACH2_FMAX : Fld := ⟨31, 16⟩
def FAN_TACH2_SPD_MIN : Fld := ⟨15, 0⟩
def FAN_STAT_STUCK : Fld := ⟨17, 17⟩
def FAN_STAT_STALL : Fld := ⟨16, 16⟩
def FAN_STAT_RPM : Fld := ⟨15, 0⟩
def FAN_OUTM_OUTM : Fld := ⟨7, 0⟩
def MET_STATUS_STOP : Fld := ⟨31, 31⟩
def MET_STATUS_UPD : Fld := ⟨30, 30⟩
def MET_STATUS_LOG_FULL : Fld := ⟨29, 29⟩
def MET_STATUS_LOG_NEAR : Fld := ⟨28, 28⟩
def MET_STATUS_AON_LOST : Fld := ⟨27, 27⟩
def MET_STATUS_TAMPER_SEEN : Fld := ⟨26, 26⟩
def MET_CHECK_VAL : Fld := ⟨31, 0⟩
def MET_PCRC_VAL : Fld := ⟨31, 0⟩
def MET_SERIAL_LO_VAL : Fld := ⟨31, 0⟩
def MET_SERIAL_HI_VAL : Fld := ⟨31, 0⟩
def MET_LOG_MISSED : Fld := ⟨31, 16⟩
def MET_LOG_ENTRIES : Fld := ⟨13, 0⟩
def MET_O_IMP_LO_VAL : Fld := ⟨31, 0⟩
def MET_O_IMP_HI_VAL : Fld := ⟨31, 0⟩
def MET_O_EXP_LO_VAL : Fld := ⟨31, 0⟩
def MET_O_EXP_HI_VAL : Fld := ⟨31, 0⟩
def MET_O_U_VAL : Fld := ⟨31, 0⟩
def MET_O_I_VAL : Fld := ⟨31, 0⟩
def MET_O_P_VAL : Fld := ⟨31, 0⟩
def MET_O_FLAGS_INVALID : Fld := ⟨3, 3⟩
def MET_O_FLAGS_OVR : Fld := ⟨2, 2⟩
def MET_O_FLAGS_NOLOAD : Fld := ⟨1, 1⟩
def MET_O_FLAGS_EN : Fld := ⟨0, 0⟩
def MET_O_OWED_OWED : Fld := ⟨15, 0⟩
def EVS_REQ_GO : Fld := ⟨31, 31⟩
def EVS_REQ_OP : Fld := ⟨26, 24⟩
def EVS_REQ_OUTLET : Fld := ⟨18, 16⟩
def EVS_REQ_STAT_BUSY : Fld := ⟨31, 31⟩
def EVS_REQ_STAT_RESULT : Fld := ⟨26, 24⟩
def EVS_ADDR_VAL : Fld := ⟨31, 0⟩
def EVS_RSEQ_VAL : Fld := ⟨31, 0⟩
def EVS_SESS_VAL : Fld := ⟨31, 0⟩
def EVS_RD_SEL_AREA : Fld := ⟨31, 30⟩
def EVS_RD_SEL_IDX : Fld := ⟨14, 0⟩
def EVS_GEN_WRAP : Fld := ⟨31, 31⟩
def EVS_GEN_NEXT : Fld := ⟨14, 0⟩
def EVS_RD_WIN_VAL : Fld := ⟨31, 0⟩
def TAR_CTRL_EN : Fld := ⟨31, 31⟩
def TAR_CTRL_AUTO_SYNC : Fld := ⟨30, 30⟩
def TAR_STATUS_SYNC_BIG : Fld := ⟨12, 12⟩
def TAR_STATUS_TB3_UNSET : Fld := ⟨11, 11⟩
def TAR_STATUS_CAL_PEND : Fld := ⟨10, 10⟩
def TAR_STATUS_DST : Fld := ⟨9, 9⟩
def TAR_STATUS_FRIENDLY : Fld := ⟨8, 8⟩
def TAR_STATUS_SEASON : Fld := ⟨5, 4⟩
def TAR_STATUS_RATE : Fld := ⟨2, 0⟩
def TAR_CAL_ADDR_VAL : Fld := ⟨31, 0⟩
def TAR_CMD_LOAD : Fld := ⟨31, 31⟩
def TAR_CMD_CLOSE : Fld := ⟨30, 30⟩
def TAR_CMD_RESULT : Fld := ⟨2, 0⟩
def TAR_ACT_CRC_VAL : Fld := ⟨31, 0⟩
def TAR_PAS_CRC_VAL : Fld := ⟨31, 0⟩
def TAR_PAS_ACT_VAL : Fld := ⟨31, 0⟩
def TAR_ADJ_S_VAL : Fld := ⟨31, 0⟩
def TAR_ADJ_NS_VAL : Fld := ⟨31, 0⟩
def TAR_ADJ_SH_VAL : Fld := ⟨15, 0⟩
def TAR_ADJ_GO : Fld := ⟨31, 31⟩
def TAR_ADJ_ABS : Fld := ⟨30, 30⟩
def TAR_ADJ_BUSY : Fld := ⟨29, 29⟩
def TAR_ADJ_RESULT : Fld := ⟨26, 24⟩
def TAR_ADJ_SILENT_MS : Fld := ⟨13, 0⟩
def TAR_UTC_VAL : Fld := ⟨15, 0⟩
def TAR_BSEQ_VAL : Fld := ⟨31, 0⟩
def TAR_DSEQ_VAL : Fld := ⟨31, 0⟩
def TAR_MONO_S_VAL : Fld := ⟨31, 0⟩
def TAR_MONO_MS_VAL : Fld := ⟨31, 0⟩
def TAR_E_IMP_LO_VAL : Fld := ⟨31, 0⟩
def TAR_E_IMP_HI_VAL : Fld := ⟨31, 0⟩
def TAR_E_EXP_LO_VAL : Fld := ⟨31, 0⟩
def TAR_E_EXP_HI_VAL : Fld := ⟨31, 0⟩
def TAR_DEM_E_INT_VAL : Fld := ⟨31, 0⟩
def TAR_DEM_MD_VAL : Fld := ⟨31, 0⟩
def TAR_DEM_MD_S_VAL : Fld := ⟨31, 0⟩
def TAR_DEM_LAST_VAL : Fld := ⟨31, 0⟩
def TAR_ACC_CMD_GO : Fld := ⟨31, 31⟩
def TAR_ACC_CMD_BUSY : Fld := ⟨30, 30⟩
def TAR_ACC_CMD_OP : Fld := ⟨26, 24⟩
def TAR_ACC_CMD_RESULT : Fld := ⟨18, 16⟩
def TAR_ACC_CMD_EC_EN : Fld := ⟨8, 8⟩
def TAR_ACC_CMD_ACC : Fld := ⟨7, 0⟩
def TAR_ACC_AMT_LO_VAL : Fld := ⟨31, 0⟩
def TAR_ACC_AMT_HI_VAL : Fld := ⟨31, 0⟩
def TAR_ACC_TXID_VAL : Fld := ⟨31, 0⟩
def TAR_BIND_VALID : Fld := ⟨31, 31⟩
def TAR_BIND_ACC : Fld := ⟨7, 0⟩
def TAR_ACC_BAL_LO_VAL : Fld := ⟨31, 0⟩
def TAR_ACC_BAL_HI_VAL : Fld := ⟨31, 0⟩
def TAR_ACC_EC_LIM_VAL : Fld := ⟨31, 0⟩
def TAR_ACC_LOW_THR_VAL : Fld := ⟨31, 0⟩
def TAR_ACC_STATE_EC_EN : Fld := ⟨8, 8⟩
def TAR_ACC_STATE_STATE : Fld := ⟨2, 0⟩
def KS_CTRL_LOCK : Fld := ⟨31, 31⟩
def KS_CTRL_TSRC_EN : Fld := ⟨12, 8⟩
def KS_CTRL_REMASK : Fld := ⟨6, 0⟩
def KS_ADMIN_LOCK : Fld := ⟨31, 31⟩
def KS_ADMIN_MASK : Fld := ⟨7, 0⟩
def KS_STATUS_ZEROISED : Fld := ⟨2, 2⟩
def KS_STATUS_DRBG_OK : Fld := ⟨1, 1⟩
def KS_STATUS_ROOT : Fld := ⟨0, 0⟩
def KS_ZSTAT_COUNT : Fld := ⟨15, 8⟩
def KS_ZSTAT_CAUSE : Fld := ⟨3, 0⟩
def KS_ZTIME_VAL : Fld := ⟨31, 0⟩
def KS_SLOT_INFO_TWIN : Fld := ⟨29, 28⟩
def KS_SLOT_INFO_TIMED : Fld := ⟨24, 24⟩
def KS_SLOT_INFO_TWIN_ALG : Fld := ⟨23, 16⟩
def KS_SLOT_INFO_LOADED : Fld := ⟨8, 8⟩
def KS_SLOT_INFO_ALG : Fld := ⟨7, 0⟩
def KS_SLOT_POL_USERS : Fld := ⟨28, 16⟩
def KS_SLOT_POL_USE : Fld := ⟨8, 0⟩
def KS_SLOT_KEYID_VAL : Fld := ⟨31, 0⟩
def KS_SLOT_TWIN_KEYID_VAL : Fld := ⟨31, 0⟩
def SFS_STATUS_FCODE : Fld := ⟨31, 24⟩
def SFS_STATUS_RST_NOTE : Fld := ⟨17, 17⟩
def SFS_STATUS_OWNED : Fld := ⟨16, 16⟩
def SFS_STATUS_STATE : Fld := ⟨2, 0⟩
def SFS_CHK_VAL : Fld := ⟨31, 0⟩
def SFS_PROG_VAL : Fld := ⟨31, 0⟩
def SFS_CONF_CHK_VAL : Fld := ⟨31, 0⟩
def SFS_CONF_PROG_VAL : Fld := ⟨31, 0⟩
def SFS_CYC_VAL : Fld := ⟨31, 0⟩
def SFS_IN_DISC : Fld := ⟨31, 16⟩
def SFS_IN_OK : Fld := ⟨15, 0⟩
def SFS_IN2_RATE : Fld := ⟨31, 16⟩
def SFS_IN2_STUCK : Fld := ⟨15, 0⟩
def SFS_RAW_LVL_B : Fld := ⟨31, 16⟩
def SFS_RAW_LVL_A : Fld := ⟨15, 0⟩
def SFS_OUT_EN_SAFE_EN : Fld := ⟨9, 0⟩
def SFS_OUT_CMT_COMMIT : Fld := ⟨0, 0⟩
def SFS_OUT_PERMIT : Fld := ⟨25, 16⟩
def SFS_OUT_ENERG : Fld := ⟨9, 0⟩
def SFS_OUT_FLT_SOFT : Fld := ⟨25, 16⟩
def SFS_OUT_FLT_FAULT : Fld := ⟨9, 0⟩
def SFS_PERMIT_SEQ_ERR : Fld := ⟨31, 24⟩
def SFS_PERMIT_LAPSES : Fld := ⟨23, 16⟩
def SFS_PERMIT_SEQ : Fld := ⟨13, 8⟩
def SFS_PERMIT_REMAIN : Fld := ⟨7, 0⟩
def SFS_BRAKE_BT_DUE : Fld := ⟨31, 31⟩
def SFS_BRAKE_BT_FAIL : Fld := ⟨30, 30⟩
def SFS_BRAKE_BT_RUN : Fld := ⟨29, 29⟩
def SFS_BRAKE_BT_AGE : Fld := ⟨23, 0⟩
def SFS_MSG_REFUSED : Fld := ⟨31, 24⟩
def SFS_MSG_CONF_RES : Fld := ⟨18, 16⟩
def SFS_MSG_ACK_RES : Fld := ⟨10, 8⟩
def HS_CTRL_KLS_EN : Fld := ⟨31, 31⟩
def HS_CTRL_LOCK : Fld := ⟨30, 30⟩
def HS_CTRL_ISEL_SRC : Fld := ⟨29, 29⟩
def HS_CTRL_LH_SEEN : Fld := ⟨8, 8⟩
def HS_CTRL_ISEL_CH : Fld := ⟨3, 0⟩
def HS_ON_VAL : Fld := ⟨15, 0⟩
def HS_ON_SET_VAL : Fld := ⟨15, 0⟩
def HS_ON_CLR_VAL : Fld := ⟨15, 0⟩
def LH_PIN_LH_EN : Fld := ⟨31, 31⟩
def LH_PIN_STUCK : Fld := ⟨21, 16⟩
def LH_PIN_LH_IN : Fld := ⟨5, 0⟩
def LH_CFG_FILT : Fld := ⟨15, 8⟩
def LH_CFG_RATE_LIM : Fld := ⟨7, 0⟩
def HS_CFG_SRC : Fld := ⟨31, 31⟩
def HS_CFG_PIN : Fld := ⟨26, 24⟩
def HS_CFG_LH_MAP : Fld := ⟨22, 20⟩
def HS_CFG_FUSE : Fld := ⟨18, 16⟩
def HS_CFG_RETRY_N : Fld := ⟨15, 12⟩
def HS_CFG_INRUSH : Fld := ⟨11, 8⟩
def HS_CFG_RETRY_MS : Fld := ⟨7, 0⟩
def HS_STAT_RCNT : Fld := ⟨31, 28⟩
def HS_STAT_STATE : Fld := ⟨26, 24⟩
def HS_STAT_THERM : Fld := ⟨8, 8⟩
def HS_STAT_OPEN : Fld := ⟨7, 7⟩
def HS_STAT_OC_SEEN : Fld := ⟨6, 6⟩
def HS_STAT_CFG_ERR : Fld := ⟨5, 5⟩
def HS_STAT_MISMATCH : Fld := ⟨4, 4⟩
def HS_STAT_INRUSH_ACT : Fld := ⟨3, 3⟩
def HS_STAT_REFUSED : Fld := ⟨2, 2⟩
def HS_MEAS_TEMP : Fld := ⟨31, 16⟩
def HS_MEAS_I_MA : Fld := ⟨15, 0⟩
def HS_FUSE_LEVEL : Fld := ⟨7, 0⟩
def BR_CTRL_EN : Fld := ⟨31, 31⟩
def BR_CTRL_PH_EN : Fld := ⟨19, 16⟩
def BR_CTRL_TRK_MODE : Fld := ⟨13, 12⟩
def BR_CTRL_SHED_EN : Fld := ⟨10, 10⟩
def BR_CTRL_BRK_EN : Fld := ⟨9, 9⟩
def BR_CTRL_SINK : Fld := ⟨8, 8⟩
def BR_FSW_FSW_KHZ : Fld := ⟨9, 0⟩
def BR_VSET_SLEW : Fld := ⟨31, 16⟩
def BR_VSET_VSET_MV : Fld := ⟨14, 0⟩
def BR_LOOP_KP : Fld := ⟨31, 16⟩
def BR_LOOP_KI : Fld := ⟨15, 0⟩
def BR_CUR_SLOPE : Fld := ⟨31, 16⟩
def BR_CUR_ILIM : Fld := ⟨15, 8⟩
def BR_CUR_FOLD_MIN : Fld := ⟨7, 0⟩
def BR_TRK_RS : Fld := ⟨27, 16⟩
def BR_TRK_TRK_FS : Fld := ⟨11, 0⟩
def BR_SHED_MIN_PH : Fld := ⟨31, 30⟩
def BR_SHED_SHED_MS : Fld := ⟨23, 16⟩
def BR_SHED_SHED_HI : Fld := ⟨15, 8⟩
def BR_SHED_SHED_LO : Fld := ⟨7, 0⟩
def BR_PROT_STEP_MV : Fld := ⟨31, 24⟩
def BR_PROT_BRK_MV : Fld := ⟨23, 16⟩
def BR_PROT_UV_MS : Fld := ⟨15, 12⟩
def BR_PROT_PG_PCT : Fld := ⟨11, 8⟩
def BR_PROT_UV_PCT : Fld := ⟨7, 4⟩
def BR_PROT_OV_PCT : Fld := ⟨3, 0⟩
def BR_STATUS_ACTIVE : Fld := ⟨19, 16⟩
def BR_STATUS_CFG_ERR : Fld := ⟨8, 8⟩
def BR_STATUS_OV_LATCH : Fld := ⟨7, 7⟩
def BR_STATUS_UV_LATCH : Fld := ⟨6, 6⟩
def BR_STATUS_BRAKING : Fld := ⟨5, 5⟩
def BR_STATUS_SLEWING : Fld := ⟨4, 4⟩
def BR_STATUS_PG : Fld := ⟨3, 3⟩
def BR_VOUT_REF : Fld := ⟨31, 16⟩
def BR_VOUT_VOUT : Fld := ⟨15, 0⟩
def BR_PH_AT_LIM : Fld := ⟨24, 24⟩
def BR_PH_TRIM : Fld := ⟨23, 16⟩
def BR_PH_I_MA : Fld := ⟨15, 0⟩
def CAN_CTRL_EN : Fld := ⟨31, 31⟩
def CAN_CTRL_MODE : Fld := ⟨30, 29⟩
def CAN_CTRL_FD_EN : Fld := ⟨28, 28⟩
def CAN_CTRL_BRS_EN : Fld := ⟨27, 27⟩
def CAN_CTRL_AUTO_REC : Fld := ⟨26, 26⟩
def CAN_CTRL_TX_ORD : Fld := ⟨24, 24⟩
def CAN_CTRL_DAR : Fld := ⟨23, 23⟩
def CAN_CTRL_TDC_EN : Fld := ⟨22, 22⟩
def CAN_NBT_NSJW : Fld := ⟨31, 25⟩
def CAN_NBT_NBRP : Fld := ⟨24, 16⟩
def CAN_NBT_NTSEG1 : Fld := ⟨15, 8⟩
def CAN_NBT_NTSEG2 : Fld := ⟨6, 0⟩
def CAN_DBT_DSJW : Fld := ⟨27, 24⟩
def CAN_DBT_DBRP : Fld := ⟨20, 16⟩
def CAN_DBT_DTSEG1 : Fld := ⟨12, 8⟩
def CAN_DBT_DTSEG2 : Fld := ⟨3, 0⟩
def CAN_TDC_TDCO : Fld := ⟨6, 0⟩
def CAN_RAM_BASE_BASE : Fld := ⟨31, 8⟩
def CAN_STAT_CFG_IGN : Fld := ⟨12, 12⟩
def CAN_STAT_LEC : Fld := ⟨10, 8⟩
def CAN_STAT_BUS_OFF : Fld := ⟨7, 7⟩
def CAN_STAT_ERR_PASS : Fld := ⟨6, 6⟩
def CAN_STAT_ERR_WARN : Fld := ⟨5, 5⟩
def CAN_STAT_STUCK : Fld := ⟨4, 4⟩
def CAN_STAT_ACT : Fld := ⟨1, 0⟩
def CAN_ECR_RP : Fld := ⟨15, 15⟩
def CAN_ECR_REC : Fld := ⟨14, 8⟩
def CAN_ECR_TEC : Fld := ⟨7, 0⟩
def CAN_ROBUST_RATE_LIM : Fld := ⟨27, 16⟩
def CAN_ROBUST_FILT : Fld := ⟨11, 8⟩
def CAN_ROBUST_DOM_LIM : Fld := ⟨7, 0⟩
def CAN_FLT_CFG_ACC_NM : Fld := ⟨1, 0⟩
def CAN_TXREQ_REQ : Fld := ⟨2, 0⟩
def CAN_TXCAN_CAN : Fld := ⟨2, 0⟩
def CAN_TXSTAT_FAIL : Fld := ⟨18, 16⟩
def CAN_TXSTAT_DONE : Fld := ⟨10, 8⟩
def CAN_TXSTAT_PEND : Fld := ⟨2, 0⟩
def CAN_RXF_LOST : Fld := ⟨31, 24⟩
def CAN_RXF_FILL : Fld := ⟨20, 16⟩
def CAN_RXF_PUT : Fld := ⟨11, 8⟩
def CAN_RXF_GET : Fld := ⟨3, 0⟩
def CAN_REF_CFG_ROLE : Fld := ⟨31, 30⟩
def CAN_REF_CFG_XTD : Fld := ⟨29, 29⟩
def CAN_REF_CFG_REF_ID : Fld := ⟨28, 0⟩
def CAN_REF_TIME_DELAY_NS : Fld := ⟨31, 16⟩
def CAN_REF_TIME_PERIOD_MS : Fld := ⟨15, 0⟩
def CAN_REF_STAT_MISSED : Fld := ⟨15, 8⟩
def CAN_REF_STAT_SEQ : Fld := ⟨7, 0⟩
def CAN_FLT_ID_EN : Fld := ⟨31, 31⟩
def CAN_FLT_ID_FIFO : Fld := ⟨30, 30⟩
def CAN_FLT_ID_XTD : Fld := ⟨29, 29⟩
def CAN_FLT_ID_ID : Fld := ⟨28, 0⟩
def CAN_FLT_MASK_MASK : Fld := ⟨28, 0⟩
def CAN_GLB_TSYNC_CH : Fld := ⟨1, 0⟩
def PWR_CTRL_REFUSED : Fld := ⟨8, 8⟩
def PWR_CTRL_DOM_EN : Fld := ⟨3, 0⟩
def PWR_STATUS_UP : Fld := ⟨10, 0⟩
def SUP_VIN_MV : Fld := ⟨16, 0⟩
def SUP_VBAT_VBAT_LOW : Fld := ⟨16, 16⟩
def SUP_VBAT_MV : Fld := ⟨11, 0⟩
def CLK_STATUS_BKOSC : Fld := ⟨18, 18⟩
def CLK_STATUS_RTC_LOST : Fld := ⟨17, 17⟩
def CLK_STATUS_REF_LOST : Fld := ⟨16, 16⟩
def CLK_STATUS_FAULT : Fld := ⟨11, 0⟩
def RST_CMD_KEY : Fld := ⟨31, 16⟩
def RST_CMD_HUB : Fld := ⟨4, 4⟩
def RST_CMD_REG : Fld := ⟨3, 0⟩
def RST_CAUSE_CAUSE : Fld := ⟨11, 0⟩
def RST_LAST_CODE : Fld := ⟨3, 0⟩
def RST_TIME_VAL : Fld := ⟨31, 0⟩
def RST_COUNT_VAL : Fld := ⟨15, 0⟩
def ST_STATUS_BANK_B : Fld := ⟨23, 22⟩
def ST_STATUS_BANK_A : Fld := ⟨21, 20⟩
def ST_STATUS_ACTIVE : Fld := ⟨16, 16⟩
def ST_STATUS_STS_CAUSE : Fld := ⟨15, 8⟩
def ST_STATUS_PHASE : Fld := ⟨2, 0⟩
def ST_RESULT_FAIL : Fld := ⟨11, 0⟩
def ST_TIME_VAL : Fld := ⟨15, 0⟩
def ST_SEQ_A_VAL : Fld := ⟨31, 0⟩
def ST_SEQ_B_VAL : Fld := ⟨31, 0⟩
def ST_REJ_IDX_B : Fld := ⟨31, 24⟩
def ST_REJ_WHY_B : Fld := ⟨23, 16⟩
def ST_REJ_IDX_A : Fld := ⟨15, 8⟩
def ST_REJ_WHY_A : Fld := ⟨7, 0⟩
def ST_TRY_EN : Fld := ⟨31, 31⟩
def ST_TRY_BANK : Fld := ⟨0, 0⟩
def ST_RB_RAISE : Fld := ⟨31, 31⟩
def ST_RB_COUNT : Fld := ⟨6, 0⟩
def ST_MGMT_AUTH_FAIL : Fld := ⟨15, 8⟩
def ST_MGMT_AUTH : Fld := ⟨0, 0⟩

end F

end Sys2Proof.Machine
end

