-- ==== Sys2Proof/Machine/Bits.lean ====
section
/-!
DEFINITION. Machine/Bits.lean: bit fields, sign extension and byte order, and the small arithmetic the chapters share.
-/
namespace Sys2Proof.Machine

/-- The value of a field of a word. -/
def Fld.get (f : Fld) (v : Word) : Nat := v.toNat / 2 ^ f.lo % 2 ^ (f.hi + 1 - f.lo)

/-- The word with the field set to `x` (modulo the field's width). -/
def Fld.put (f : Fld) (v : Word) (x : Nat) : Word :=
  BitVec.ofNat 32 (v.toNat - f.get v * 2 ^ f.lo + x % 2 ^ (f.hi + 1 - f.lo) * 2 ^ f.lo)

/-- Bit `i` of a number. -/
def bitOf (n i : Nat) : Bool := n / 2 ^ i % 2 = 1

/-- The number with bit `i` set or cleared. -/
def withBit (n i : Nat) (b : Bool) : Nat :=
  if bitOf n i then (if b then n else n - 2 ^ i) else (if b then n + 2 ^ i else n)

/-- A truth value as one bit. -/
def bit01 (b : Bool) : Nat := if b then 1 else 0

/-- A `w`-bit number read as two's complement. -/
def signed (w n : Nat) : Int := if n % 2 ^ w < 2 ^ (w - 1) then (n % 2 ^ w : Nat) else (n % 2 ^ w : Nat) - (2 ^ w : Nat)

/-- An integer as a `w`-bit two's complement number. -/
def unsigned (w : Nat) (z : Int) : Nat := (z % (2 ^ w : Nat)).toNat

/-- `x` clamped to [lo, hi]. -/
def clampInt (lo hi x : Int) : Int := if x < lo then lo else if hi < x then hi else x

/-- `x` clamped to [lo, hi]. -/
def clampNat (lo hi x : Nat) : Nat := if x < lo then lo else if hi < x then hi else x

/-- The sum, saturating at `top`. -/
def satAdd (top a b : Nat) : Nat := if top < a + b then top else a + b

/-- Division rounded toward zero (R3's notation table). -/
def divZero (a b : Int) : Int := Int.tdiv a b

/-- `x` divided by 2^s, rounded to nearest, ties away from zero. -/
def roundAway (x : Int) (s : Nat) : Int :=
  if s = 0 then x
  else if 0 ≤ x then (x + (2 ^ (s - 1) : Nat)) / (2 ^ s : Nat)
  else -((-x + (2 ^ (s - 1) : Nat)) / (2 ^ s : Nat))

/-- 0 acts as `d`. -/
def orDefault (x d : Nat) : Nat := if x = 0 then d else x

/-- The little-endian number of a list of bytes. -/
def leNat : List Byte → Nat
  | [] => 0
  | b :: t => b.toNat + 256 * leNat t

/-- The number as `n` little-endian bytes. -/
def leBytes : Nat → Nat → List Byte
  | 0, _ => []
  | n + 1, x => BitVec.ofNat 8 x :: leBytes n (x / 256)

/-- The big-endian number of a list of bytes. -/
def beNat (l : List Byte) : Nat := leNat l.reverse

/-- The number as `n` big-endian bytes. -/
def beBytes (n x : Nat) : List Byte := (leBytes n x).reverse

end Sys2Proof.Machine
end

