-- ==== Sys2Proof/Machine/Tab.lean ====
section
/-!
DEFINITION. Machine/Tab.lean: reading and writing the sparse tables of the state.
A table has a default `d`; a key that the list does not name reads as `d key`, and writing that value removes the entry.
-/
namespace Sys2Proof.Machine

/-- The value at key `k`. -/
def Tab.get {α : Type} (d : Nat → α) : Tab α → Nat → α
  | [], k => d k
  | (j, v) :: t, k => if k = j then v else Tab.get d t k

/-- The list with the entry `(k, v)`, in the order of the keys. -/
def Tab.put {α : Type} : Tab α → Nat → α → Tab α
  | [], k, v => [(k, v)]
  | (j, w) :: t, k, v =>
    if k < j then (k, v) :: (j, w) :: t
    else if k = j then (k, v) :: t
    else (j, w) :: Tab.put t k v

/-- The list without an entry at key `k`. -/
def Tab.drop {α : Type} : Tab α → Nat → Tab α
  | [], _ => []
  | (j, w) :: t, k => if k = j then Tab.drop t k else (j, w) :: Tab.drop t k

/-- The table with `v` at key `k`, in canonical form. -/
def Tab.set {α : Type} [DecidableEq α] (d : Nat → α) (t : Tab α) (k : Nat) (v : α) : Tab α :=
  if v = d k then Tab.drop t k else Tab.put t k v

/-- The table with the entries whose key satisfies `p` at their default. -/
def Tab.clear {α : Type} (p : Nat → Bool) (t : Tab α) : Tab α := t.filter (fun e => !p e.1)

/-- The canonical form: rising keys and no entry equal to its default. -/
abbrev Tab.wf {α : Type} (d : Nat → α) (t : Tab α) : Prop :=
  t.Pairwise (fun x y => x.1 < y.1) ∧ ∀ e ∈ t, e.2 ≠ d e.1

end Sys2Proof.Machine
end

