-- ==== Sys2Proof/Machine/Mem.lean ====
section
/-!
DEFINITION. Machine/Mem.lean: the byte-addressed memories and the chip address map (R77).
A memory cell's key is the chip address; the memories that no fabric address reaches have keys above 2^32.
-/
namespace Sys2Proof.Machine

/-- Key of byte 0 of the metrology sequencer's instruction and data memory (R62), and of the Selvedge pair's (R418):
these have no window on the fabric. -/
def metroItcm : Nat := 0x1_6000_0000
def metroDtcm : Nat := 0x1_6010_0000
def pairItcm : Nat := 0x2_6000_0000
def pairDtcm : Nat := 0x2_6010_0000
/-- Key of byte 0 of the 4 MiB MRAM of the event store (R11), which the fabric reaches by EVS_RD_WIN only. -/
def mramBase : Nat := 0x3_0000_0000

def sramBase : Nat := 0x01000000
def sramSize : Nat := 0x00800000
def flashBase (bank : Nat) : Nat := 0x08000000 + 0x02000000 * bank
def flashSize : Nat := 0x02000000
/-- The windows of the TCMs of WS[n] (R77). -/
def tcmWindow (n : Nat) : Nat := 0x51000000 + 0x20000 * n

/-- What a byte that the memory does not list reads as: erased flash 0xFF, every other memory 0 (R553). -/
def memReset (a : Nat) : Byte := if flashBase 0 ≤ a ∧ a < flashBase 2 then 0xFF else 0

/-- The canonical form of a memory: rising keys and no byte that an unlisted key reads as. -/
abbrev Memory.wf (m : Tab Byte) : Prop := Tab.wf memReset m

/-- The `n` bytes from key `a` on. -/
def memBytes (m : Tab Byte) (a : Nat) : Nat → List Byte
  | 0 => []
  | n + 1 => Tab.get memReset m a :: memBytes m (a + 1) n

/-- The memory with the bytes of `l` from key `a` on. -/
def memPut (m : Tab Byte) (a : Nat) : List Byte → Tab Byte
  | [] => m
  | b :: t => memPut (Tab.set memReset m a b) (a + 1) t

/-- In shared SRAM. -/
def inSram (a : Nat) : Bool := sramBase ≤ a && a < sramBase + sramSize
/-- In flash bank A or B. -/
def inFlash (a : Nat) : Bool := flashBase 0 ≤ a && a < flashBase 2
/-- The flash bank of an address. -/
def flashBank (a : Nat) : Nat := (a - flashBase 0) / flashSize
/-- In the TCM windows, and there in an existing TCM: 64 KiB of instruction and 32 KiB of data memory (R77). -/
def inTcm (a : Nat) : Bool :=
  tcmWindow 0 ≤ a && a < tcmWindow 8 && ((a - tcmWindow 0) % 0x20000 < 0x18000)
/-- The sequencer whose TCM a window address reaches, and whether it is the instruction TCM. -/
def tcmOwner (a : Nat) : Nat := (a - tcmWindow 0) / 0x20000
def tcmIsInstr (a : Nat) : Bool := (a - tcmWindow 0) % 0x20000 < 0x10000
/-- The SRAM bank of an address: bits [22:19] (R75). -/
def sramBank (a : Nat) : Nat := a / 0x80000 % 16

end Sys2Proof.Machine
end

