-- ==== Sys2Proof/Machine/RegRow.lean ====
section
/-!
DEFINITION. Machine/RegRow.lean: the form of a row of the register map (Machine/RegMap.lean).
-/
namespace Sys2Proof.Machine

/-- The access codes of R5. -/
inductive Access where
  | rw | ro | w1c | w1s | wo | rws | clr
deriving DecidableEq, Repr

/-- A field of a register: bits [hi:lo] and its access code. -/
structure FieldRow where
  hi : Nat
  lo : Nat
  acc : Access
deriving DecidableEq, Repr

/-- What makes a register read-only for a while, by the rule named. -/
inductive Lock where
  /-- Always open to writes. -/
  | none
  /-- ERR_LOCK.LOCK (R34). -/
  | errLock
  /-- LOOM_LOCK (R104). -/
  | loomLock
  /-- Writable while the engine's TW_CTRL.RUN is 0 (R148). -/
  | twRun
  /-- Read-only from the fabric: a write is refused (R340). -/
  | view
  /-- KS_CTRL.LOCK (R414). -/
  | ksLock
  /-- KS_ADMIN.LOCK (R401). -/
  | ksAdmin
  /-- HS_CTRL.LOCK, but for the fields R456 leaves open in HS_CTRL itself. -/
  | hsCtrl
  /-- HS_CTRL.LOCK (R456). -/
  | hsLock
deriving DecidableEq, Repr

/-- One register, or one array of `n1` × `n2` registers with strides `s1` and `s2`. -/
structure RegRow where
  first : Nat
  n1 : Nat
  s1 : Nat
  n2 : Nat
  s2 : Nat
  block : Nat
  lock : Lock
  reset : Nat
  fields : List FieldRow
deriving DecidableEq, Repr

end Sys2Proof.Machine
end

