-- ==== Sys2Proof/Machine/RegMap.lean ====
section
/-!
DEFINITION. Machine/RegMap.lean: the register map of the chip, one row per register of the tables
of spec/ (an array of registers is one row): first address, counts and strides, the owning block's
identifier (R11), the lock that makes it read-only, its reset word and its fields with their access codes (R5).
-/
namespace Sys2Proof.Machine

/-- Registers of the window at 0x10000000. -/
def regs100 : List RegRow :=
  [ ⟨0x10000000, 24, 0x100, 1, 0x4, 0x00, .none, 0x00000100, [⟨31, 31, .rw⟩, ⟨28, 24, .rw⟩, ⟨23, 16, .rw⟩, ⟨11, 11, .rw⟩, ⟨9, 8, .rw⟩, ⟨0, 0, .rw⟩]⟩  -- LOOM_CH_CTRL
  , ⟨0x10000004, 24, 0x100, 1, 0x4, 0x00, .none, 0x00000640, [⟨23, 4, .rws⟩, ⟨3, 0, .rws⟩]⟩  -- LOOM_CH_PERIOD
  , ⟨0x10000008, 24, 0x100, 1, 0x4, 0x00, .none, 0x00000000, [⟨23, 0, .rws⟩]⟩  -- LOOM_CH_DUTY
  , ⟨0x1000000C, 24, 0x100, 1, 0x4, 0x00, .none, 0x00000000, [⟨23, 0, .rws⟩]⟩  -- LOOM_CH_PHASE
  , ⟨0x10000010, 24, 0x100, 1, 0x4, 0x00, .none, 0x00000000, [⟨27, 16, .rws⟩, ⟨11, 0, .rws⟩]⟩  -- LOOM_CH_DEAD
  , ⟨0x10000014, 24, 0x100, 1, 0x4, 0x00, .none, 0x00000000, [⟨11, 0, .rws⟩]⟩  -- LOOM_CH_MINPW
  , ⟨0x10000018, 24, 0x100, 4, 0x4, 0x00, .none, 0x00000000, [⟨31, 31, .rws⟩, ⟨27, 24, .rws⟩, ⟨23, 0, .rws⟩]⟩  -- LOOM_CH_TRIG
  , ⟨0x10000028, 24, 0x100, 1, 0x4, 0x00, .none, 0x00000000, [⟨15, 0, .rw⟩]⟩  -- LOOM_CH_TRIP_PIN
  , ⟨0x1000002C, 24, 0x100, 1, 0x4, 0x00, .none, 0x00000000, [⟨31, 0, .rw⟩]⟩  -- LOOM_CH_TRIP_CMP_LO
  , ⟨0x10000030, 24, 0x100, 1, 0x4, 0x00, .none, 0x00000000, [⟨15, 0, .rw⟩]⟩  -- LOOM_CH_TRIP_CMP_HI
  , ⟨0x10000034, 24, 0x100, 1, 0x4, 0x00, .loomLock, 0x0000003C, [⟨5, 4, .rw⟩, ⟨3, 2, .rw⟩, ⟨1, 1, .rw⟩, ⟨0, 0, .rw⟩]⟩  -- LOOM_CH_OUTCFG
  , ⟨0x10000038, 24, 0x100, 1, 0x4, 0x00, .none, 0x00000000, [⟨9, 0, .rw⟩]⟩  -- LOOM_CH_BLANK
  , ⟨0x1000003C, 24, 0x100, 1, 0x4, 0x00, .none, 0x00FF0000, [⟨23, 16, .ro⟩, ⟨9, 9, .w1c⟩, ⟨8, 8, .ro⟩, ⟨7, 7, .w1c⟩, ⟨6, 6, .w1c⟩, ⟨5, 5, .w1c⟩, ⟨4, 4, .ro⟩, ⟨3, 3, .ro⟩, ⟨2, 2, .ro⟩, ⟨0, 0, .ro⟩]⟩  -- LOOM_CH_STATUS
  , ⟨0x10000040, 24, 0x100, 1, 0x4, 0x00, .none, 0x00000000, [⟨1, 1, .wo⟩, ⟨0, 0, .wo⟩]⟩  -- LOOM_CH_CMD
  , ⟨0x10000044, 24, 0x100, 1, 0x4, 0x00, .none, 0x00000000, [⟨31, 16, .ro⟩, ⟨15, 0, .ro⟩]⟩  -- LOOM_CH_DROP_CNT
  , ⟨0x10000048, 24, 0x100, 1, 0x4, 0x00, .none, 0x00000000, [⟨23, 0, .ro⟩]⟩  -- LOOM_CH_CNT
  , ⟨0x10002000, 1, 0x4, 1, 0x4, 0x00, .none, 0x00000000, [⟨23, 0, .rw⟩]⟩  -- LOOM_RUN
  , ⟨0x10002004, 1, 0x4, 1, 0x4, 0x00, .none, 0x00000000, [⟨23, 0, .w1s⟩]⟩  -- LOOM_GUPD
  , ⟨0x10002008, 1, 0x4, 1, 0x4, 0x00, .none, 0x00000000, [⟨0, 0, .w1s⟩]⟩  -- LOOM_LOCK
  , ⟨0x1000200C, 1, 0x4, 1, 0x4, 0x00, .none, 0x000003E8, [⟨15, 0, .rw⟩]⟩  -- LOOM_RATE_WIN
  , ⟨0x10002010, 1, 0x4, 1, 0x4, 0x00, .none, 0x00000000, [⟨15, 0, .ro⟩]⟩  -- LOOM_PIN_STAT
  , ⟨0x10002014, 1, 0x4, 1, 0x4, 0x00, .none, 0x00000000, [⟨31, 0, .ro⟩]⟩  -- LOOM_CMP_STAT_LO
  , ⟨0x10002018, 1, 0x4, 1, 0x4, 0x00, .none, 0x00000000, [⟨15, 0, .ro⟩]⟩  -- LOOM_CMP_STAT_HI
  , ⟨0x10003000, 64, 0x4, 1, 0x4, 0x00, .loomLock, 0x01000000, [⟨31, 31, .rw⟩, ⟨25, 24, .rw⟩, ⟨21, 21, .rw⟩, ⟨20, 20, .rw⟩, ⟨17, 17, .w1c⟩, ⟨16, 16, .w1c⟩, ⟨15, 8, .rw⟩, ⟨7, 0, .rw⟩]⟩  -- LOOM_TSRC
  ]

/-- Registers of the window at 0x10100000. -/
def regs101_0 : List RegRow :=
  [ ⟨0x10100000, 4, 0x10000, 1, 0x4, 0x01, .none, 0x00040000, [⟨31, 31, .rw⟩, ⟨23, 16, .rw⟩]⟩  -- TW_CTRL
  , ⟨0x10100004, 4, 0x10000, 1, 0x4, 0x01, .none, 0x00000000, [⟨17, 17, .w1c⟩, ⟨16, 16, .w1c⟩, ⟨15, 15, .w1c⟩, ⟨14, 14, .w1c⟩, ⟨13, 13, .w1c⟩, ⟨12, 12, .w1c⟩, ⟨11, 4, .ro⟩, ⟨3, 3, .ro⟩, ⟨2, 0, .ro⟩]⟩  -- TW_STATUS
  , ⟨0x10100008, 4, 0x10000, 1, 0x4, 0x01, .none, 0x00000000, [⟨23, 0, .rw⟩]⟩  -- TW_OWN
  , ⟨0x1010000C, 4, 0x10000, 1, 0x4, 0x01, .none, 0x00000000, [⟨0, 0, .w1s⟩]⟩  -- TW_CCOMMIT
  , ⟨0x10100010, 4, 0x10000, 1, 0x4, 0x01, .none, 0x00000000, [⟨8, 8, .ro⟩, ⟨7, 4, .rw⟩, ⟨0, 0, .rws⟩]⟩  -- TW_FF_CTRL
  , ⟨0x10100100, 4, 0x10000, 8, 0x8, 0x01, .none, 0x00000000, [⟨31, 31, .rw⟩, ⟨30, 30, .wo⟩, ⟨29, 23, .ro⟩, ⟨22, 16, .rw⟩, ⟨8, 0, .rw⟩]⟩  -- TW_SLOT_CFG
  , ⟨0x10100104, 4, 0x10000, 8, 0x8, 0x01, .none, 0x000007D0, [⟨15, 0, .rw⟩]⟩  -- TW_SLOT_BUDGET
  , ⟨0x10100140, 4, 0x10000, 8, 0x4, 0x01, .none, 0x00000000, [⟨31, 16, .ro⟩, ⟨15, 0, .ro⟩]⟩  -- TW_SLOT_STAT
  , ⟨0x10100200, 4, 0x10000, 8, 0x10, 0x01, .none, 0x00000000, [⟨31, 31, .rw⟩, ⟨19, 16, .rw⟩, ⟨10, 8, .rw⟩]⟩  -- TW_RMP_CFG
  , ⟨0x10100204, 4, 0x10000, 8, 0x10, 0x01, .none, 0x00000000, [⟨30, 0, .rw⟩]⟩  -- TW_RMP_RATE_UP
  , ⟨0x10100208, 4, 0x10000, 8, 0x10, 0x01, .none, 0x00000000, [⟨30, 0, .rw⟩]⟩  -- TW_RMP_RATE_DN
  , ⟨0x1010020C, 4, 0x10000, 8, 0x10, 0x01, .none, 0x00000000, [⟨31, 0, .wo⟩]⟩  -- TW_RMP_PRESET
  , ⟨0x10100300, 4, 0x10000, 16, 0x4, 0x01, .none, 0x00000000, [⟨31, 0, .rws⟩]⟩  -- TW_SP
  , ⟨0x10100400, 4, 0x10000, 16, 0x8, 0x01, .none, 0x00000000, [⟨31, 0, .ro⟩]⟩  -- TW_ACC_LO
  , ⟨0x10100404, 4, 0x10000, 16, 0x8, 0x01, .none, 0x00000000, [⟨31, 0, .ro⟩]⟩  -- TW_ACC_HI
  , ⟨0x10100800, 4, 0x10000, 256, 0x8, 0x01, .none, 0x00000000, [⟨31, 0, .rws⟩]⟩  -- TW_COEF_VAL
  , ⟨0x10100804, 4, 0x10000, 256, 0x8, 0x01, .none, 0x00000000, [⟨4, 0, .rws⟩]⟩  -- TW_COEF_SHIFT
  , ⟨0x10101000, 4, 0x10000, 512, 0x4, 0x01, .none, 0x00000000, [⟨31, 0, .rw⟩]⟩  -- TW_M
  , ⟨0x10102000, 4, 0x10000, 512, 0x8, 0x01, .twRun, 0x00000000, [⟨31, 0, .rw⟩]⟩  -- TW_PROG_LO
  , ⟨0x10102004, 4, 0x10000, 512, 0x8, 0x01, .twRun, 0x00000000, [⟨31, 0, .rw⟩]⟩  -- TW_PROG_HI
  , ⟨0x10104000, 4, 0x10000, 8192, 0x4, 0x01, .none, 0x00000000, [⟨31, 0, .rw⟩]⟩  -- TW_FF
  , ⟨0x10140000, 4, 0x4, 1, 0x4, 0x01, .none, 0x00FFF000, [⟨31, 31, .rw⟩, ⟨30, 28, .rw⟩, ⟨23, 12, .rw⟩, ⟨11, 0, .rw⟩]⟩  -- AINSP_CFG
  , ⟨0x10140010, 1, 0x4, 1, 0x4, 0x01, .none, 0x00000000, [⟨3, 0, .w1c⟩]⟩  -- AINSP_STAT
  , ⟨0x10140020, 4, 0x4, 1, 0x4, 0x01, .none, 0x00000064, [⟨31, 31, .rw⟩, ⟨30, 30, .rw⟩, ⟨23, 16, .rw⟩, ⟨15, 0, .rw⟩]⟩  -- PINSP_CFG
  , ⟨0x10140030, 4, 0x4, 1, 0x4, 0x01, .none, 0x000F4240, [⟨23, 0, .rw⟩]⟩  -- PINSP_TMO
  ]

/-- Registers of the window at 0x10100000. -/
def regs101_1 : List RegRow :=
  [ ⟨0x10140040, 1, 0x4, 1, 0x4, 0x01, .none, 0x00000000, [⟨7, 4, .ro⟩, ⟨3, 0, .w1c⟩]⟩  -- PINSP_STAT
  ]

/-- Registers of the window at 0x10100000. -/
def regs101 : List RegRow :=
  regs101_0 ++ regs101_1

/-- Registers of the window at 0x10200000. -/
def regs102 : List RegRow :=
  [ ⟨0x10200000, 1, 0x4, 1, 0x4, 0x02, .none, 0x00000000, [⟨16, 16, .wo⟩, ⟨8, 8, .rw⟩, ⟨7, 0, .rw⟩]⟩  -- SNS_CTRL
  , ⟨0x10200004, 1, 0x4, 1, 0x4, 0x02, .none, 0x05320000, [⟨31, 24, .rw⟩, ⟨23, 16, .rw⟩, ⟨15, 0, .rw⟩]⟩  -- SNS_MX
  , ⟨0x10200008, 1, 0x4, 1, 0x4, 0x02, .none, 0x00000000, [⟨31, 16, .rw⟩, ⟨15, 0, .rw⟩]⟩  -- SNS_MXV
  , ⟨0x1020000C, 1, 0x4, 1, 0x4, 0x02, .none, 0x000A0000, [⟨31, 31, .wo⟩, ⟨30, 30, .rw⟩, ⟨27, 24, .rw⟩, ⟨23, 16, .rw⟩, ⟨2, 0, .ro⟩]⟩  -- SNS_WCHK
  , ⟨0x10200010, 1, 0x4, 1, 0x4, 0x02, .none, 0x5F000000, [⟨31, 31, .rw⟩, ⟨30, 24, .rw⟩, ⟨21, 16, .rw⟩, ⟨13, 8, .rw⟩, ⟨0, 0, .ro⟩]⟩  -- SNS_DCL
  , ⟨0x10200040, 8, 0x4, 1, 0x4, 0x02, .none, 0x00000000, [⟨31, 16, .ro⟩, ⟨15, 0, .ro⟩]⟩  -- ADC_STAT
  , ⟨0x10200100, 16, 0x8, 1, 0x4, 0x02, .none, 0x00000000, [⟨31, 31, .rw⟩, ⟨22, 16, .rw⟩]⟩  -- SG_CFG
  , ⟨0x10200104, 16, 0x8, 1, 0x4, 0x02, .none, 0xFFFFFFFF, [⟨31, 0, .rw⟩]⟩  -- SG_SEL
  , ⟨0x10200200, 48, 0x8, 1, 0x4, 0x02, .none, 0x00000000, [⟨15, 0, .rw⟩]⟩  -- AIN_CAL_OFS
  , ⟨0x10200204, 48, 0x8, 1, 0x4, 0x02, .none, 0x00100000, [⟨23, 0, .rw⟩]⟩  -- AIN_CAL_GAIN
  , ⟨0x10200400, 48, 0x4, 1, 0x4, 0x02, .none, 0x00000000, [⟨31, 0, .ro⟩]⟩  -- AIN_RES
  , ⟨0x10200500, 48, 0x4, 1, 0x4, 0x02, .none, 0x00000000, [⟨31, 31, .ro⟩, ⟨19, 16, .ro⟩, ⟨13, 0, .ro⟩]⟩  -- AIN_RAW
  , ⟨0x10200600, 48, 0x8, 1, 0x4, 0x02, .none, 0x03FF0000, [⟨25, 16, .rw⟩, ⟨9, 0, .rw⟩]⟩  -- CMP_THR
  , ⟨0x10200604, 48, 0x8, 1, 0x4, 0x02, .none, 0x00000000, [⟨8, 8, .ro⟩, ⟨7, 7, .ro⟩, ⟨5, 4, .rw⟩, ⟨1, 0, .rw⟩]⟩  -- CMP_CFG
  , ⟨0x10200900, 8, 0x8, 1, 0x4, 0x02, .none, 0x00000000, [⟨31, 31, .rw⟩, ⟨29, 28, .rw⟩, ⟨26, 24, .rw⟩, ⟨20, 16, .rw⟩]⟩  -- MOD_CFG
  , ⟨0x10200904, 8, 0x8, 1, 0x4, 0x02, .none, 0x00000000, [⟨13, 8, .rw⟩, ⟨5, 0, .rw⟩]⟩  -- MOD_SNS
  , ⟨0x10200A00, 8, 0x8, 1, 0x4, 0x02, .none, 0x00000000, [⟨31, 31, .rw⟩, ⟨29, 24, .rw⟩, ⟨21, 16, .rw⟩, ⟨13, 8, .rw⟩]⟩  -- OUTL_CFG
  , ⟨0x10200A04, 8, 0x8, 1, 0x4, 0x02, .none, 0x00000000, [⟨31, 16, .rw⟩, ⟨3, 3, .w1c⟩, ⟨2, 2, .w1c⟩, ⟨1, 1, .ro⟩]⟩  -- OUTL_CHK
  , ⟨0x10200B00, 16, 0x4, 1, 0x4, 0x02, .none, 0x00000000, [⟨31, 31, .rw⟩, ⟨26, 24, .rw⟩, ⟨18, 16, .rw⟩, ⟨11, 8, .rw⟩, ⟨5, 5, .w1c⟩, ⟨4, 4, .ro⟩, ⟨0, 0, .ro⟩]⟩  -- XP
  ]

/-- Registers of the window at 0x10300000. -/
def regs103_0 : List RegRow :=
  [ ⟨0x10300000, 1, 0x4, 1, 0x4, 0x03, .none, 0x00030000, [⟨23, 16, .rw⟩, ⟨11, 8, .rw⟩, ⟨4, 4, .rw⟩, ⟨1, 0, .rw⟩]⟩  -- SAL_CTRL
  , ⟨0x10300004, 1, 0x4, 1, 0x4, 0x03, .none, 0x000003E8, [⟨16, 0, .rws⟩]⟩  -- SAL_PERIOD
  , ⟨0x10300008, 1, 0x4, 1, 0x4, 0x03, .none, 0x000000C8, [⟨18, 0, .rws⟩]⟩  -- SAL_LEAD
  , ⟨0x1030000C, 1, 0x4, 1, 0x4, 0x03, .none, 0x00000000, [⟨0, 0, .w1s⟩]⟩  -- SAL_CMT
  , ⟨0x10300010, 1, 0x4, 1, 0x4, 0x03, .none, 0x00000000, [⟨31, 16, .ro⟩, ⟨10, 10, .w1c⟩, ⟨9, 9, .w1c⟩, ⟨8, 8, .w1c⟩, ⟨0, 0, .ro⟩]⟩  -- SAL_STATUS
  , ⟨0x10300014, 1, 0x4, 1, 0x4, 0x03, .none, 0x00000000, [⟨31, 0, .rw⟩]⟩  -- SAL_PNUM
  , ⟨0x10300018, 1, 0x4, 1, 0x4, 0x03, .none, 0x00000000, [⟨23, 0, .ro⟩]⟩  -- SAL_TOTAL
  , ⟨0x1030001C, 1, 0x4, 1, 0x4, 0x03, .none, 0x00000000, [⟨6, 0, .rw⟩]⟩  -- SAL_ROT
  , ⟨0x10300038, 1, 0x4, 1, 0x4, 0x03, .none, 0x00000000, [⟨31, 0, .rw⟩]⟩  -- SAL_LAST_B_S
  , ⟨0x1030003C, 1, 0x4, 1, 0x4, 0x03, .none, 0x00000000, [⟨31, 0, .rw⟩]⟩  -- SAL_LAST_B_NS
  , ⟨0x10300020, 1, 0x4, 1, 0x4, 0x03, .none, 0x00640400, [⟨31, 31, .rw⟩, ⟨30, 30, .rw⟩, ⟨23, 16, .rw⟩, ⟨10, 0, .rw⟩]⟩  -- SAL_EMRG_CTRL
  , ⟨0x10300024, 1, 0x4, 1, 0x4, 0x03, .none, 0x00000000, [⟨23, 0, .rw⟩]⟩  -- SAL_EMRG_DEM
  , ⟨0x10300028, 1, 0x4, 1, 0x4, 0x03, .none, 0x00000000, [⟨1, 1, .wo⟩, ⟨0, 0, .wo⟩]⟩  -- SAL_EMRG_CMD
  , ⟨0x1030002C, 1, 0x4, 1, 0x4, 0x03, .none, 0x00000000, [⟨31, 31, .rw⟩, ⟨30, 30, .rw⟩, ⟨29, 29, .w1c⟩, ⟨23, 0, .rw⟩]⟩  -- SAL_EMRG_STAT
  , ⟨0x10300030, 1, 0x4, 1, 0x4, 0x03, .none, 0x00000000, [⟨23, 0, .rw⟩]⟩  -- SAL_EMRG_BASE
  , ⟨0x10300034, 1, 0x4, 1, 0x4, 0x03, .none, 0x00000000, [⟨16, 16, .w1c⟩, ⟨15, 8, .ro⟩, ⟨2, 0, .ro⟩]⟩  -- SAL_APPLY_STAT
  , ⟨0x10300040, 1, 0x4, 1, 0x4, 0x03, .none, 0x00000000, [⟨23, 0, .ro⟩]⟩  -- SAL_EMRG_GE
  , ⟨0x10300044, 1, 0x4, 1, 0x4, 0x03, .none, 0x00000000, [⟨7, 0, .rw⟩]⟩  -- SAL_EMRG_REL
  , ⟨0x10300100, 64, 0x4, 1, 0x4, 0x03, .none, 0x00000000, [⟨31, 31, .rws⟩, ⟨29, 24, .rws⟩, ⟨23, 0, .rws⟩]⟩  -- SAL_PAN
  , ⟨0x10300200, 64, 0x4, 1, 0x4, 0x03, .none, 0x00000000, [⟨31, 31, .ro⟩, ⟨26, 24, .ro⟩, ⟨23, 0, .ro⟩]⟩  -- SAL_PAN_RES
  , ⟨0x10300400, 128, 0x10, 1, 0x4, 0x03, .none, 0x00000000, [⟨31, 31, .rws⟩, ⟨30, 28, .rws⟩, ⟨21, 16, .rws⟩]⟩  -- SAL_OUT_CFG
  , ⟨0x10300404, 128, 0x10, 1, 0x4, 0x03, .none, 0x00000000, [⟨23, 0, .rws⟩]⟩  -- SAL_OUT_FLOOR
  , ⟨0x10300408, 128, 0x10, 1, 0x4, 0x03, .none, 0x00FFFFFF, [⟨23, 0, .rws⟩]⟩  -- SAL_OUT_CAP
  , ⟨0x1030040C, 128, 0x10, 1, 0x4, 0x03, .none, 0x00000000, [⟨31, 16, .rws⟩, ⟨15, 0, .rws⟩]⟩  -- SAL_OUT_RAMP
  , ⟨0x10300C00, 128, 0x4, 1, 0x4, 0x03, .none, 0x00000000, [⟨31, 31, .ro⟩, ⟨23, 0, .rws⟩]⟩  -- SAL_DEM
  ]

/-- Registers of the window at 0x10300000. -/
def regs103_1 : List RegRow :=
  [ ⟨0x10300E00, 128, 0x4, 1, 0x4, 0x03, .none, 0x00000000, [⟨27, 24, .rw⟩, ⟨23, 0, .rw⟩]⟩  -- SAL_GRANT
  , ⟨0x10301000, 8, 0x4, 1, 0x4, 0x03, .none, 0x00000000, [⟨31, 24, .ro⟩, ⟨23, 0, .ro⟩]⟩  -- SAL_APPLIED
  ]

/-- Registers of the window at 0x10300000. -/
def regs103 : List RegRow :=
  regs103_0 ++ regs103_1

/-- Registers of the window at 0x10500000. -/
def regs105 : List RegRow :=
  [ ⟨0x10500000, 1, 0x4, 1, 0x4, 0x04, .none, 0x000A0000, [⟨31, 31, .rw⟩, ⟨30, 30, .rw⟩, ⟨29, 29, .rw⟩, ⟨28, 28, .rw⟩, ⟨23, 16, .rw⟩, ⟨7, 0, .rw⟩]⟩  -- GRD_CTRL
  , ⟨0x10500004, 1, 0x4, 1, 0x4, 0x04, .none, 0x00000000, [⟨31, 24, .ro⟩, ⟨18, 16, .ro⟩, ⟨3, 3, .ro⟩, ⟨2, 2, .w1c⟩, ⟨1, 1, .w1c⟩, ⟨0, 0, .ro⟩]⟩  -- GRD_STATUS
  , ⟨0x10500008, 1, 0x4, 1, 0x4, 0x04, .none, 0x00000001, [⟨16, 16, .rw⟩, ⟨15, 0, .rw⟩]⟩  -- GRD_ID
  , ⟨0x10500010, 1, 0x4, 1, 0x4, 0x04, .none, 0x1400C288, [⟨31, 31, .rw⟩, ⟨30, 24, .rw⟩, ⟨19, 0, .rw⟩]⟩  -- GRD_UF
  , ⟨0x10500014, 1, 0x4, 1, 0x4, 0x04, .none, 0x006403E8, [⟨31, 31, .rw⟩, ⟨23, 16, .rw⟩, ⟨15, 0, .rw⟩]⟩  -- GRD_ROC
  , ⟨0x10500018, 1, 0x4, 1, 0x4, 0x04, .none, 0x00000320, [⟨31, 31, .rw⟩, ⟨9, 0, .rw⟩]⟩  -- GRD_UV
  , ⟨0x1050001C, 1, 0x4, 1, 0x4, 0x04, .none, 0x0003E803, [⟨31, 8, .rw⟩, ⟨7, 0, .rw⟩]⟩  -- GRD_QUAL
  , ⟨0x10500020, 1, 0x4, 1, 0x4, 0x04, .none, 0x00000000, [⟨31, 0, .rw⟩]⟩  -- GRD_NOMV
  , ⟨0x10500040, 8, 0x10, 1, 0x4, 0x04, .none, 0x00000000, [⟨31, 30, .rw⟩, ⟨29, 28, .rw⟩, ⟨19, 0, .rw⟩]⟩  -- GCH_CFG
  , ⟨0x10500044, 8, 0x10, 1, 0x4, 0x04, .none, 0x00000000, [⟨31, 16, .rw⟩, ⟨15, 0, .rw⟩]⟩  -- GCH_CAL
  , ⟨0x10500048, 8, 0x10, 1, 0x4, 0x04, .none, 0x00000000, [⟨31, 16, .rw⟩, ⟨15, 0, .rw⟩]⟩  -- GCH_LVL
  , ⟨0x10500100, 1, 0x4, 1, 0x4, 0x04, .none, 0x00000000, [⟨31, 0, .rw⟩]⟩  -- GRD_RING_BASE
  , ⟨0x10500104, 1, 0x4, 1, 0x4, 0x04, .none, 0x40000000, [⟨31, 24, .rw⟩, ⟨23, 16, .ro⟩, ⟨15, 8, .rw⟩]⟩  -- GRD_RING
  , ⟨0x10500200, 1, 0x4, 1, 0x4, 0x04, .none, 0x00000000, [⟨31, 31, .wo⟩, ⟨30, 30, .wo⟩, ⟨18, 16, .rw⟩, ⟨15, 8, .ro⟩, ⟨1, 0, .ro⟩]⟩  -- GRD_REC_CTRL
  , ⟨0x10500204, 1, 0x4, 1, 0x4, 0x04, .none, 0x00000000, [⟨31, 0, .rw⟩]⟩  -- GRD_REC_BASE
  , ⟨0x10500208, 1, 0x4, 1, 0x4, 0x04, .none, 0x00000000, [⟨31, 0, .ro⟩]⟩  -- GRD_REC_TS
  , ⟨0x1050020C, 1, 0x4, 1, 0x4, 0x04, .none, 0x00000000, [⟨31, 0, .ro⟩]⟩  -- GRD_REC_TNS
  , ⟨0x10500210, 1, 0x4, 1, 0x4, 0x04, .none, 0x00000000, [⟨31, 24, .ro⟩, ⟨23, 16, .ro⟩, ⟨15, 0, .ro⟩]⟩  -- GRD_REC_INFO
  , ⟨0x10500300, 1, 0x4, 1, 0x4, 0x04, .none, 0x00000000, [⟨31, 0, .ro⟩]⟩  -- GRD_FREQ
  , ⟨0x10500304, 1, 0x4, 1, 0x4, 0x04, .none, 0x00000000, [⟨31, 0, .ro⟩]⟩  -- GRD_ROCOF
  , ⟨0x10500308, 1, 0x4, 1, 0x4, 0x04, .none, 0x00000000, [⟨31, 0, .ro⟩]⟩  -- GRD_V1
  ]

/-- Registers of the window at 0x20000000. -/
def regs200 : List RegRow :=
  [ ⟨0x20004040, 1, 0x4, 1, 0x4, 0x08, .none, 0x00000000, [⟨31, 0, .ro⟩]⟩  -- PTP_TXTS_NS
  , ⟨0x20004044, 1, 0x4, 1, 0x4, 0x08, .none, 0x00000000, [⟨31, 0, .ro⟩]⟩  -- PTP_TXTS_S
  , ⟨0x20004048, 1, 0x4, 1, 0x4, 0x08, .none, 0x00000000, [⟨31, 0, .ro⟩]⟩  -- PTP_TXTS_X
  , ⟨0x20004000, 1, 0x4, 1, 0x4, 0x08, .none, 0x00000000, [⟨31, 31, .rw⟩, ⟨30, 30, .rw⟩, ⟨29, 29, .rw⟩, ⟨23, 16, .rw⟩, ⟨11, 8, .rw⟩, ⟨3, 0, .rw⟩]⟩  -- PTP_CTRL
  , ⟨0x20004004, 1, 0x4, 1, 0x4, 0x08, .none, 0x00000000, [⟨15, 0, .ro⟩]⟩  -- PTP_TC
  , ⟨0x20004010, 2, 0x10, 1, 0x4, 0x08, .none, 0x00000000, [⟨1, 0, .rw⟩]⟩  -- PTP_PORT
  , ⟨0x20004014, 2, 0x10, 1, 0x4, 0x08, .none, 0x00000000, [⟨31, 0, .ro⟩]⟩  -- PTP_PDELAY
  , ⟨0x20004018, 2, 0x10, 1, 0x4, 0x08, .none, 0x00000000, [⟨31, 0, .rw⟩]⟩  -- PTP_ASYM
  , ⟨0x2000401C, 2, 0x10, 1, 0x4, 0x08, .none, 0x00000000, [⟨31, 0, .ro⟩]⟩  -- PTP_TXTS
  ]

/-- Registers of the window at 0x20100000. -/
def regs201_0 : List RegRow :=
  [ ⟨0x20100000, 1, 0x40, 1, 0x4, 0x09, .none, 0x00010381, [⟨31, 16, .rw⟩, ⟨11, 8, .rw⟩, ⟨7, 7, .rw⟩, ⟨5, 4, .rw⟩, ⟨2, 0, .rw⟩]⟩  -- TB_CFG
  , ⟨0x20100040, 1, 0x40, 1, 0x4, 0x09, .none, 0x00010382, [⟨31, 16, .rw⟩, ⟨11, 8, .rw⟩, ⟨7, 7, .rw⟩, ⟨5, 4, .rw⟩, ⟨2, 0, .rw⟩]⟩  -- TB_CFG
  , ⟨0x20100080, 1, 0x40, 1, 0x4, 0x09, .none, 0x00010380, [⟨31, 16, .rw⟩, ⟨11, 8, .rw⟩, ⟨7, 7, .rw⟩, ⟨5, 4, .rw⟩, ⟨2, 0, .rw⟩]⟩  -- TB_CFG
  , ⟨0x201000C0, 1, 0x40, 1, 0x4, 0x09, .none, 0x00010380, [⟨31, 16, .rw⟩, ⟨11, 8, .rw⟩, ⟨7, 7, .rw⟩, ⟨5, 4, .rw⟩, ⟨2, 0, .rw⟩]⟩  -- TB_CFG
  , ⟨0x20100004, 4, 0x40, 1, 0x4, 0x09, .none, 0x00000000, [⟨31, 16, .ro⟩, ⟨11, 11, .w1c⟩, ⟨10, 10, .w1c⟩, ⟨9, 9, .w1c⟩, ⟨8, 8, .w1c⟩, ⟨2, 0, .ro⟩]⟩  -- TB_STATE
  , ⟨0x20100008, 4, 0x40, 1, 0x4, 0x09, .none, 0x00000000, [⟨31, 0, .rw⟩]⟩  -- TB_RATE
  , ⟨0x2010000C, 4, 0x40, 1, 0x4, 0x09, .none, 0x00000000, [⟨31, 0, .rw⟩]⟩  -- TB_STEP_S
  , ⟨0x20100010, 4, 0x40, 1, 0x4, 0x09, .none, 0x00000000, [⟨29, 0, .rw⟩]⟩  -- TB_STEP_NS
  , ⟨0x20100014, 4, 0x40, 1, 0x4, 0x09, .none, 0x00000000, [⟨15, 0, .rw⟩]⟩  -- TB_STEP_SH
  , ⟨0x20100018, 4, 0x40, 1, 0x4, 0x09, .none, 0x00000000, [⟨0, 0, .wo⟩, ⟨1, 1, .rw⟩]⟩  -- TB_STEP_CMD
  , ⟨0x20100020, 4, 0x40, 1, 0x4, 0x09, .none, 0x00000000, [⟨31, 0, .ro⟩]⟩  -- TB_TIME_NS
  , ⟨0x20100024, 4, 0x40, 1, 0x4, 0x09, .none, 0x00000000, [⟨31, 0, .ro⟩]⟩  -- TB_TIME_S
  , ⟨0x20100028, 4, 0x40, 1, 0x4, 0x09, .none, 0x00000000, [⟨31, 0, .ro⟩]⟩  -- TB_TIME_X
  , ⟨0x2010002C, 4, 0x40, 1, 0x4, 0x09, .none, 0x00640008, [⟨31, 16, .rw⟩, ⟨7, 0, .rw⟩]⟩  -- TB_LOCK
  , ⟨0x20100030, 4, 0x40, 1, 0x4, 0x09, .none, 0x00000014, [⟨15, 0, .rw⟩]⟩  -- TB_HOLD
  , ⟨0x20100034, 4, 0x40, 1, 0x4, 0x09, .none, 0x00000000, [⟨31, 0, .ro⟩]⟩  -- TB_OFFSET
  , ⟨0x20100200, 8, 0x20, 1, 0x4, 0x09, .none, 0x00000000, [⟨31, 31, .rw⟩, ⟨30, 30, .rw⟩, ⟨29, 29, .rw⟩, ⟨25, 24, .rw⟩]⟩  -- TOUT_CFG
  , ⟨0x20100204, 8, 0x20, 1, 0x4, 0x09, .none, 0x00000000, [⟨31, 0, .rw⟩]⟩  -- TOUT_START_S
  , ⟨0x20100208, 8, 0x20, 1, 0x4, 0x09, .none, 0x00000000, [⟨31, 0, .rw⟩]⟩  -- TOUT_START_NS
  , ⟨0x2010020C, 8, 0x20, 1, 0x4, 0x09, .none, 0x00000000, [⟨31, 0, .rw⟩]⟩  -- TOUT_PERIOD
  , ⟨0x20100210, 8, 0x20, 1, 0x4, 0x09, .none, 0x00000000, [⟨31, 0, .rw⟩]⟩  -- TOUT_WIDTH
  , ⟨0x20100214, 8, 0x20, 1, 0x4, 0x09, .none, 0x00000000, [⟨31, 16, .ro⟩, ⟨2, 2, .w1c⟩, ⟨1, 1, .w1c⟩, ⟨0, 0, .w1c⟩]⟩  -- TOUT_STAT
  , ⟨0x20100400, 8, 0x20, 1, 0x4, 0x09, .none, 0x00011001, [⟨31, 31, .rw⟩, ⟨25, 24, .rw⟩, ⟨17, 16, .rw⟩, ⟨15, 8, .rw⟩, ⟨7, 0, .rw⟩]⟩  -- TCAP_CFG
  , ⟨0x20100404, 8, 0x20, 1, 0x4, 0x09, .none, 0x00000000, [⟨31, 0, .ro⟩]⟩  -- TCAP_NS
  , ⟨0x20100408, 8, 0x20, 1, 0x4, 0x09, .none, 0x00000000, [⟨31, 0, .ro⟩]⟩  -- TCAP_S
  ]

/-- Registers of the window at 0x20100000. -/
def regs201_1 : List RegRow :=
  [ ⟨0x2010040C, 8, 0x20, 1, 0x4, 0x09, .none, 0x00000000, [⟨31, 0, .ro⟩]⟩  -- TCAP_X
  , ⟨0x20100410, 8, 0x20, 1, 0x4, 0x09, .none, 0x00000000, [⟨1, 1, .ro⟩, ⟨0, 0, .ro⟩]⟩  -- TCAP_F
  , ⟨0x20100414, 8, 0x20, 1, 0x4, 0x09, .none, 0x00000000, [⟨18, 16, .ro⟩, ⟨1, 1, .w1c⟩, ⟨0, 0, .w1c⟩]⟩  -- TCAP_STAT
  ]

/-- Registers of the window at 0x20100000. -/
def regs201 : List RegRow :=
  regs201_0 ++ regs201_1

/-- Registers of the window at 0x20200000. -/
def regs202 : List RegRow :=
  [ ⟨0x20200000, 8, 0x100, 1, 0x4, 0x0A, .none, 0x20000000, [⟨31, 31, .rw⟩, ⟨30, 30, .rw⟩, ⟨29, 29, .rw⟩, ⟨28, 28, .rw⟩]⟩  -- T1S_CTRL
  , ⟨0x20200004, 8, 0x100, 1, 0x4, 0x0A, .none, 0x002008FF, [⟨31, 24, .rw⟩, ⟨23, 16, .rw⟩, ⟨15, 8, .rw⟩, ⟨7, 0, .rw⟩]⟩  -- T1S_PLCA
  , ⟨0x20200008, 8, 0x100, 1, 0x4, 0x0A, .none, 0x00000080, [⟨7, 0, .rw⟩]⟩  -- T1S_BURST
  , ⟨0x2020000C, 8, 0x100, 1, 0x4, 0x0A, .none, 0x00000000, [⟨31, 0, .rw⟩]⟩  -- T1S_MAC_LO
  , ⟨0x20200010, 8, 0x100, 1, 0x4, 0x0A, .none, 0x00000000, [⟨15, 0, .rw⟩]⟩  -- T1S_MAC_HI
  , ⟨0x20200014, 8, 0x100, 1, 0x4, 0x0A, .none, 0x00000000, [⟨2, 2, .w1c⟩, ⟨1, 1, .w1c⟩, ⟨0, 0, .ro⟩]⟩  -- T1S_STAT
  , ⟨0x20200018, 8, 0x100, 1, 0x4, 0x0A, .none, 0x00000000, [⟨31, 16, .ro⟩, ⟨15, 0, .ro⟩]⟩  -- T1S_CNT
  , ⟨0x20200060, 8, 0x100, 1, 0x4, 0x0A, .none, 0x00000000, [⟨31, 4, .rw⟩]⟩  -- T1S_RX_BASE
  , ⟨0x20200064, 8, 0x100, 1, 0x4, 0x0A, .none, 0x10000000, [⟨31, 24, .rw⟩, ⟨23, 16, .ro⟩, ⟨15, 8, .rw⟩, ⟨0, 0, .rw⟩]⟩  -- T1S_RX_CFG
  , ⟨0x20200068, 8, 0x100, 1, 0x4, 0x0A, .none, 0x00000000, [⟨31, 4, .rw⟩]⟩  -- T1S_TX_BASE
  , ⟨0x2020006C, 8, 0x100, 1, 0x4, 0x0A, .none, 0x10000000, [⟨31, 24, .rw⟩, ⟨23, 16, .rw⟩, ⟨15, 8, .ro⟩, ⟨0, 0, .rw⟩]⟩  -- T1S_TX_CFG
  ]

/-- Registers of the window at 0x20300000. -/
def regs203_0 : List RegRow :=
  [ ⟨0x20300000, 8, 0x20, 1, 0x4, 0x0B, .none, 0x00140300, [⟨23, 16, .rw⟩, ⟨11, 8, .rw⟩, ⟨4, 4, .rw⟩, ⟨1, 0, .rw⟩]⟩  -- OLK_CFG
  , ⟨0x20300004, 8, 0x20, 1, 0x4, 0x0B, .none, 0x00000000, [⟨25, 16, .rw⟩, ⟨1, 0, .rw⟩]⟩  -- OLK_DRV
  , ⟨0x20300008, 8, 0x20, 1, 0x4, 0x0B, .none, 0x00000F0F, [⟨19, 19, .ro⟩, ⟨18, 18, .w1c⟩, ⟨17, 17, .w1c⟩, ⟨16, 16, .w1c⟩, ⟨11, 8, .ro⟩, ⟨3, 0, .ro⟩]⟩  -- OLK_STAT
  , ⟨0x2030000C, 8, 0x20, 1, 0x4, 0x0B, .none, 0x00000000, [⟨31, 16, .ro⟩, ⟨15, 0, .ro⟩]⟩  -- OLK_LVL
  , ⟨0x20300010, 8, 0x20, 1, 0x4, 0x0B, .none, 0x00000000, [⟨15, 0, .ro⟩]⟩  -- OLK_ID_LVL
  , ⟨0x20300014, 8, 0x20, 1, 0x4, 0x0B, .none, 0x00008000, [⟨31, 16, .rw⟩, ⟨15, 0, .rw⟩]⟩  -- OLK_CAL
  , ⟨0x20300100, 1, 0x4, 1, 0x4, 0x0B, .none, 0x001403E8, [⟨23, 16, .rw⟩, ⟨15, 0, .rw⟩]⟩  -- OLK_TIME
  , ⟨0x20300140, 1, 0x4, 1, 0x4, 0x0B, .none, 0x32C82AF8, [⟨31, 16, .rw⟩, ⟨15, 0, .rw⟩]⟩  -- CPW
  , ⟨0x20300144, 1, 0x4, 1, 0x4, 0x0B, .none, 0x27101F40, [⟨31, 16, .rw⟩, ⟨15, 0, .rw⟩]⟩  -- CPW
  , ⟨0x20300148, 1, 0x4, 1, 0x4, 0x0B, .none, 0x1B581388, [⟨31, 16, .rw⟩, ⟨15, 0, .rw⟩]⟩  -- CPW
  , ⟨0x2030014C, 1, 0x4, 1, 0x4, 0x0B, .none, 0x0FA007D0, [⟨31, 16, .rw⟩, ⟨15, 0, .rw⟩]⟩  -- CPW
  , ⟨0x20300150, 1, 0x4, 1, 0x4, 0x0B, .none, 0x03E8FC18, [⟨31, 16, .rw⟩, ⟨15, 0, .rw⟩]⟩  -- CPW
  , ⟨0x20300154, 1, 0x4, 1, 0x4, 0x0B, .none, 0xD508CD38, [⟨31, 16, .rw⟩, ⟨15, 0, .rw⟩]⟩  -- CPW
  , ⟨0x20300160, 6, 0x4, 1, 0x4, 0x0B, .none, 0x00000000, [⟨31, 16, .rw⟩, ⟨15, 0, .rw⟩]⟩  -- CEW
  , ⟨0x20300180, 6, 0x4, 1, 0x4, 0x0B, .none, 0x00000000, [⟨31, 16, .rw⟩, ⟨15, 0, .rw⟩]⟩  -- IDW
  , ⟨0x20301000, 8, 0x100, 1, 0x4, 0x0B, .none, 0x2000001E, [⟨31, 31, .rw⟩, ⟨30, 29, .rw⟩, ⟨12, 8, .rw⟩, ⟨7, 0, .rw⟩]⟩  -- GP_CTRL
  , ⟨0x20301004, 8, 0x100, 1, 0x4, 0x0B, .none, 0x00000000, [⟨19, 16, .ro⟩, ⟨15, 8, .ro⟩, ⟨1, 1, .ro⟩, ⟨0, 0, .ro⟩]⟩  -- GP_STAT
  , ⟨0x20301008, 8, 0x100, 1, 0x4, 0x0B, .none, 0x00000000, [⟨31, 0, .rw⟩]⟩  -- GP_MAC_LO
  , ⟨0x2030100C, 8, 0x100, 1, 0x4, 0x0B, .none, 0x00000000, [⟨15, 0, .rw⟩]⟩  -- GP_MAC_HI
  , ⟨0x20301010, 8, 0x100, 1, 0x4, 0x0B, .none, 0x0002580A, [⟨31, 31, .wo⟩, ⟨23, 8, .rw⟩, ⟨7, 0, .rw⟩]⟩  -- GP_ATT_CTRL
  , ⟨0x20301014, 8, 0x100, 1, 0x4, 0x0B, .none, 0x00000000, [⟨31, 31, .ro⟩, ⟨15, 8, .ro⟩, ⟨7, 0, .ro⟩]⟩  -- GP_ATT_STAT
  , ⟨0x20301018, 8, 0x100, 1, 0x4, 0x0B, .none, 0x00000000, [⟨31, 0, .rw⟩]⟩  -- GP_ATT_RUNID_LO
  , ⟨0x2030101C, 8, 0x100, 1, 0x4, 0x0B, .none, 0x00000000, [⟨31, 0, .rw⟩]⟩  -- GP_ATT_RUNID_HI
  , ⟨0x20301020, 8, 0x100, 15, 0x4, 0x0B, .none, 0x00000000, [⟨31, 0, .ro⟩]⟩  -- GP_ATT
  , ⟨0x20301060, 8, 0x100, 1, 0x4, 0x0B, .none, 0x00000000, [⟨31, 4, .rw⟩]⟩  -- GP_RX_BASE
  ]

/-- Registers of the window at 0x20300000. -/
def regs203_1 : List RegRow :=
  [ ⟨0x20301064, 8, 0x100, 1, 0x4, 0x0B, .none, 0x10000000, [⟨31, 24, .rw⟩, ⟨23, 16, .ro⟩, ⟨15, 8, .rw⟩, ⟨0, 0, .rw⟩]⟩  -- GP_RX_CFG
  , ⟨0x20301068, 8, 0x100, 1, 0x4, 0x0B, .none, 0x00000000, [⟨31, 4, .rw⟩]⟩  -- GP_TX_BASE
  , ⟨0x2030106C, 8, 0x100, 1, 0x4, 0x0B, .none, 0x10000000, [⟨31, 24, .rw⟩, ⟨23, 16, .rw⟩, ⟨15, 8, .ro⟩, ⟨0, 0, .rw⟩]⟩  -- GP_TX_CFG
  , ⟨0x20301070, 8, 0x100, 1, 0x4, 0x0B, .none, 0x00000000, [⟨31, 16, .ro⟩, ⟨15, 0, .ro⟩]⟩  -- GP_CNT
  , ⟨0x20302000, 1, 0x4, 1, 0x4, 0x0B, .none, 0x00000050, [⟨31, 31, .rw⟩, ⟨26, 24, .rw⟩, ⟨23, 22, .rw⟩, ⟨20, 16, .rw⟩, ⟨7, 0, .rw⟩]⟩  -- BB_CTRL
  , ⟨0x20302004, 1, 0x4, 1, 0x4, 0x0B, .none, 0x0700321E, [⟨27, 24, .rw⟩, ⟨17, 8, .rw⟩, ⟨7, 0, .rw⟩]⟩  -- BB_TM
  , ⟨0x20302008, 1, 0x4, 1, 0x4, 0x0B, .none, 0x00000014, [⟨7, 0, .rw⟩]⟩  -- BB_IMP
  , ⟨0x2030200C, 1, 0x4, 1, 0x4, 0x0B, .none, 0x00000000, [⟨21, 16, .ro⟩, ⟨8, 8, .w1c⟩, ⟨1, 1, .ro⟩, ⟨0, 0, .ro⟩]⟩  -- BB_STAT
  , ⟨0x20302010, 1, 0x4, 1, 0x4, 0x0B, .none, 0x00000000, [⟨31, 0, .rw⟩]⟩  -- BB_MAC_LO
  , ⟨0x20302014, 1, 0x4, 1, 0x4, 0x0B, .none, 0x00000000, [⟨15, 0, .rw⟩]⟩  -- BB_MAC_HI
  , ⟨0x20302060, 1, 0x4, 1, 0x4, 0x0B, .none, 0x00000000, [⟨31, 4, .rw⟩]⟩  -- BB_RX_BASE
  , ⟨0x20302064, 1, 0x4, 1, 0x4, 0x0B, .none, 0x10000000, [⟨31, 24, .rw⟩, ⟨23, 16, .ro⟩, ⟨15, 8, .rw⟩, ⟨0, 0, .rw⟩]⟩  -- BB_RX_CFG
  , ⟨0x20302068, 1, 0x4, 1, 0x4, 0x0B, .none, 0x00000000, [⟨31, 4, .rw⟩]⟩  -- BB_TX_BASE
  , ⟨0x2030206C, 1, 0x4, 1, 0x4, 0x0B, .none, 0x10000000, [⟨31, 24, .rw⟩, ⟨23, 16, .rw⟩, ⟨15, 8, .ro⟩, ⟨0, 0, .rw⟩]⟩  -- BB_TX_CFG
  , ⟨0x20302070, 1, 0x4, 1, 0x4, 0x0B, .none, 0x00000000, [⟨31, 16, .ro⟩, ⟨15, 0, .ro⟩]⟩  -- BB_CNT
  , ⟨0x20302100, 29, 0x4, 1, 0x4, 0x0B, .none, 0x00000000, [⟨31, 0, .rw⟩]⟩  -- BB_TMASK
  , ⟨0x20302400, 32, 0x20, 1, 0x4, 0x0B, .none, 0x00000000, [⟨31, 0, .ro⟩]⟩  -- BB_NBR_MAC_LO
  , ⟨0x20302404, 32, 0x20, 1, 0x4, 0x0B, .none, 0x00000000, [⟨31, 31, .ro⟩, ⟨23, 16, .ro⟩, ⟨15, 0, .ro⟩]⟩  -- BB_NBR_ID
  , ⟨0x20302408, 32, 0x20, 1, 0x4, 0x0B, .none, 0x00000000, [⟨15, 0, .ro⟩]⟩  -- BB_NBR_RATE
  , ⟨0x2030240C, 32, 0x20, 1, 0x4, 0x0B, .none, 0x00000000, [⟨17, 16, .ro⟩, ⟨9, 0, .ro⟩]⟩  -- BB_NBR_PBER
  , ⟨0x20302410, 32, 0x20, 1, 0x4, 0x0B, .none, 0x00000000, [⟨31, 0, .ro⟩]⟩  -- BB_NBR_IMP_CNT
  , ⟨0x20302414, 32, 0x20, 1, 0x4, 0x0B, .none, 0x00000000, [⟨15, 0, .ro⟩]⟩  -- BB_NBR_RENEG
  , ⟨0x20302418, 32, 0x20, 1, 0x4, 0x0B, .none, 0x00000000, [⟨15, 0, .ro⟩]⟩  -- BB_NBR_AGE
  ]

/-- Registers of the window at 0x20300000. -/
def regs203 : List RegRow :=
  regs203_0 ++ regs203_1

/-- Registers of the window at 0x20400000. -/
def regs204 : List RegRow :=
  [ ⟨0x20400000, 4, 0x200, 1, 0x4, 0x0C, .none, 0x04000000, [⟨31, 31, .rw⟩, ⟨30, 29, .rw⟩, ⟨28, 28, .rw⟩, ⟨27, 27, .rw⟩, ⟨26, 26, .rw⟩, ⟨24, 24, .rw⟩, ⟨23, 23, .rw⟩, ⟨22, 22, .rw⟩]⟩  -- CAN_CTRL
  , ⟨0x20400004, 4, 0x200, 1, 0x4, 0x0C, .none, 0x3E007E1F, [⟨31, 25, .rw⟩, ⟨24, 16, .rw⟩, ⟨15, 8, .rw⟩, ⟨6, 0, .rw⟩]⟩  -- CAN_NBT
  , ⟨0x20400008, 4, 0x200, 1, 0x4, 0x0C, .none, 0x07001E07, [⟨27, 24, .rw⟩, ⟨20, 16, .rw⟩, ⟨12, 8, .rw⟩, ⟨3, 0, .rw⟩]⟩  -- CAN_DBT
  , ⟨0x2040000C, 4, 0x200, 1, 0x4, 0x0C, .none, 0x00000000, [⟨6, 0, .rw⟩]⟩  -- CAN_TDC
  , ⟨0x20400010, 4, 0x200, 1, 0x4, 0x0C, .none, 0x00000000, [⟨31, 8, .rw⟩]⟩  -- CAN_RAM_BASE
  , ⟨0x20400014, 4, 0x200, 1, 0x4, 0x0C, .none, 0x00000000, [⟨12, 12, .w1c⟩, ⟨10, 8, .ro⟩, ⟨7, 7, .ro⟩, ⟨6, 6, .ro⟩, ⟨5, 5, .ro⟩, ⟨4, 4, .w1c⟩, ⟨1, 0, .ro⟩]⟩  -- CAN_STAT
  , ⟨0x20400018, 4, 0x200, 1, 0x4, 0x0C, .none, 0x00000000, [⟨15, 15, .ro⟩, ⟨14, 8, .ro⟩, ⟨7, 0, .ro⟩]⟩  -- CAN_ECR
  , ⟨0x2040001C, 4, 0x200, 1, 0x4, 0x0C, .none, 0x04000108, [⟨27, 16, .rw⟩, ⟨11, 8, .rw⟩, ⟨7, 0, .rw⟩]⟩  -- CAN_ROBUST
  , ⟨0x20400020, 4, 0x200, 1, 0x4, 0x0C, .none, 0x00000000, [⟨1, 0, .rw⟩]⟩  -- CAN_FLT_CFG
  , ⟨0x20400024, 4, 0x200, 1, 0x4, 0x0C, .none, 0x00000000, [⟨2, 0, .w1s⟩]⟩  -- CAN_TXREQ
  , ⟨0x20400028, 4, 0x200, 1, 0x4, 0x0C, .none, 0x00000000, [⟨2, 0, .w1s⟩]⟩  -- CAN_TXCAN
  , ⟨0x2040002C, 4, 0x200, 1, 0x4, 0x0C, .none, 0x00000000, [⟨18, 16, .w1c⟩, ⟨10, 8, .w1c⟩, ⟨2, 0, .ro⟩]⟩  -- CAN_TXSTAT
  , ⟨0x20400030, 4, 0x200, 2, 0x4, 0x0C, .none, 0x00000000, [⟨31, 24, .ro⟩, ⟨20, 16, .ro⟩, ⟨11, 8, .ro⟩, ⟨3, 0, .rw⟩]⟩  -- CAN_RXF
  , ⟨0x20400040, 4, 0x200, 1, 0x4, 0x0C, .none, 0x00000000, [⟨31, 30, .rw⟩, ⟨29, 29, .rw⟩, ⟨28, 0, .rw⟩]⟩  -- CAN_REF_CFG
  , ⟨0x20400044, 4, 0x200, 1, 0x4, 0x0C, .none, 0x00000064, [⟨31, 16, .rw⟩, ⟨15, 0, .rw⟩]⟩  -- CAN_REF_TIME
  , ⟨0x20400048, 4, 0x200, 1, 0x4, 0x0C, .none, 0x00000000, [⟨15, 8, .ro⟩, ⟨7, 0, .ro⟩]⟩  -- CAN_REF_STAT
  , ⟨0x20400080, 4, 0x200, 32, 0x8, 0x0C, .none, 0x00000000, [⟨31, 31, .rw⟩, ⟨30, 30, .rw⟩, ⟨29, 29, .rw⟩, ⟨28, 0, .rw⟩]⟩  -- CAN_FLT_ID
  , ⟨0x20400084, 4, 0x200, 32, 0x8, 0x0C, .none, 0x1FFFFFFF, [⟨28, 0, .rw⟩]⟩  -- CAN_FLT_MASK
  , ⟨0x20400800, 1, 0x4, 1, 0x4, 0x0C, .none, 0x00000000, [⟨1, 0, .rw⟩]⟩  -- CAN_GLB
  ]

/-- Registers of the window at 0x20500000. -/
def regs205 : List RegRow :=
  [ ⟨0x20500000, 1, 0x4, 1, 0x4, 0x0D, .none, 0x00000000, [⟨31, 31, .rw⟩]⟩  -- SES_CTRL
  , ⟨0x20500004, 1, 0x4, 1, 0x4, 0x0D, .none, 0x00003E01, [⟨15, 8, .ro⟩, ⟨7, 0, .ro⟩]⟩  -- SES_INFO
  , ⟨0x20500008, 1, 0x4, 1, 0x4, 0x0D, .none, 0x00000025, [⟨15, 0, .rw⟩]⟩  -- SES_TLS_CFG
  , ⟨0x20500100, 8, 0x40, 1, 0x4, 0x0D, .none, 0x00000000, [⟨31, 31, .rw⟩, ⟨1, 0, .rw⟩]⟩  -- SES_CH_CTRL
  , ⟨0x20500104, 8, 0x40, 1, 0x4, 0x0D, .none, 0x00000000, [⟨8, 8, .ro⟩, ⟨4, 4, .ro⟩, ⟨3, 3, .ro⟩, ⟨2, 2, .ro⟩, ⟨1, 0, .ro⟩]⟩  -- SES_STAT
  , ⟨0x20500108, 8, 0x40, 1, 0x4, 0x0D, .none, 0x0000FFFF, [⟨15, 0, .ro⟩]⟩  -- SES_THR
  , ⟨0x2050010C, 8, 0x40, 1, 0x4, 0x0D, .none, 0x00000000, [⟨31, 5, .rw⟩]⟩  -- SES_JOB_BASE
  , ⟨0x20500110, 8, 0x40, 1, 0x4, 0x0D, .none, 0x10000000, [⟨31, 24, .rw⟩, ⟨23, 16, .rw⟩, ⟨15, 8, .ro⟩, ⟨0, 0, .rw⟩]⟩  -- SES_JOB_CFG
  , ⟨0x20500114, 8, 0x40, 1, 0x4, 0x0D, .none, 0x00000000, [⟨23, 0, .rw⟩]⟩  -- SES_TMR
  , ⟨0x20500118, 8, 0x40, 1, 0x4, 0x0D, .none, 0x00000000, [⟨31, 31, .rw⟩, ⟨4, 0, .rw⟩]⟩  -- SES_TLS
  , ⟨0x2050011C, 8, 0x40, 1, 0x4, 0x0D, .none, 0x00000000, [⟨31, 0, .rw⟩]⟩  -- SES_ROOTS
  , ⟨0x20500120, 8, 0x40, 1, 0x4, 0x0D, .none, 0x00000000, [⟨31, 0, .rw⟩]⟩  -- SES_CERT_BASE
  , ⟨0x20500124, 8, 0x40, 1, 0x4, 0x0D, .none, 0x00000000, [⟨12, 0, .rw⟩]⟩  -- SES_CERT_LEN
  ]

/-- Registers of the window at 0x20600000. -/
def regs206 : List RegRow :=
  [ ⟨0x20600000, 1, 0x4, 1, 0x4, 0x0E, .none, 0x00000000, [⟨31, 31, .rw⟩, ⟨30, 30, .rw⟩, ⟨29, 29, .rw⟩, ⟨28, 28, .rw⟩, ⟨27, 24, .rw⟩, ⟨19, 16, .rw⟩, ⟨12, 8, .rw⟩, ⟨1, 0, .rw⟩]⟩  -- ZW_CTRL
  , ⟨0x20600004, 1, 0x4, 1, 0x4, 0x0E, .none, 0x88B5C000, [⟨31, 16, .rw⟩, ⟨15, 13, .rw⟩, ⟨11, 0, .rw⟩]⟩  -- ZW_NET
  , ⟨0x20600008, 1, 0x4, 1, 0x4, 0x0E, .none, 0x303200FA, [⟨31, 28, .rw⟩, ⟨23, 16, .rw⟩, ⟨15, 0, .rw⟩]⟩  -- ZW_TIME
  , ⟨0x2060000C, 1, 0x4, 1, 0x4, 0x0E, .none, 0x01F400FA, [⟨31, 16, .rw⟩, ⟨15, 0, .rw⟩]⟩  -- ZW_HOLD
  , ⟨0x20600010, 1, 0x4, 1, 0x4, 0x0E, .none, 0x000003E8, [⟨23, 0, .rw⟩]⟩  -- ZW_DSTEP
  , ⟨0x20600014, 1, 0x4, 1, 0x4, 0x0E, .none, 0xFF000000, [⟨31, 24, .ro⟩, ⟨23, 20, .ro⟩, ⟨18, 18, .ro⟩, ⟨17, 17, .ro⟩, ⟨16, 16, .ro⟩, ⟨2, 0, .ro⟩]⟩  -- ZW_ROLE
  , ⟨0x20600018, 1, 0x4, 1, 0x4, 0x0E, .none, 0x00000000, [⟨31, 0, .ro⟩]⟩  -- ZW_EPOCH
  , ⟨0x2060001C, 1, 0x4, 1, 0x4, 0x0E, .none, 0x00000000, [⟨8, 8, .ro⟩, ⟨7, 7, .w1c⟩, ⟨6, 6, .w1c⟩, ⟨5, 5, .w1c⟩, ⟨4, 4, .w1c⟩, ⟨3, 3, .w1c⟩, ⟨2, 2, .w1c⟩, ⟨1, 1, .w1c⟩, ⟨0, 0, .w1c⟩]⟩  -- ZW_STATUS
  , ⟨0x20600020, 1, 0x4, 1, 0x4, 0x0E, .none, 0x00100000, [⟨31, 31, .w1s⟩, ⟨30, 30, .wo⟩, ⟨23, 16, .rw⟩, ⟨15, 0, .ro⟩]⟩  -- ZW_SWAP
  , ⟨0x20600024, 1, 0x4, 1, 0x4, 0x0E, .none, 0x00000A0A, [⟨31, 31, .ro⟩, ⟨30, 30, .rw⟩, ⟨29, 29, .ro⟩, ⟨28, 28, .ro⟩, ⟨27, 27, .w1c⟩, ⟨26, 26, .w1c⟩, ⟨15, 8, .rw⟩, ⟨7, 0, .rw⟩]⟩  -- ZW_PAIR
  , ⟨0x20600028, 1, 0x4, 1, 0x4, 0x0E, .none, 0x00000000, [⟨31, 0, .ro⟩]⟩  -- ZW_CFG_CRC
  , ⟨0x2060002C, 1, 0x4, 1, 0x4, 0x0E, .none, 0x00000000, [⟨31, 16, .ro⟩, ⟨15, 0, .ro⟩]⟩  -- ZW_CNT
  , ⟨0x20600040, 8, 0x4, 1, 0x4, 0x0E, .none, 0x00000000, [⟨31, 31, .rw⟩, ⟨23, 0, .rw⟩]⟩  -- ZW_DEM
  , ⟨0x20600100, 16, 0x4, 1, 0x4, 0x0E, .none, 0x000000FF, [⟨31, 31, .ro⟩, ⟨30, 30, .ro⟩, ⟨29, 29, .ro⟩, ⟨27, 24, .ro⟩, ⟨18, 16, .ro⟩, ⟨7, 0, .ro⟩]⟩  -- ZW_PEER
  ]

/-- Registers of the window at 0x30000000. -/
def regs300 : List RegRow :=
  [ ⟨0x30000000, 1, 0x4, 1, 0x4, 0x10, .view, 0x00000000, [⟨31, 31, .ro⟩, ⟨30, 30, .ro⟩, ⟨29, 29, .ro⟩, ⟨28, 28, .ro⟩, ⟨27, 27, .ro⟩, ⟨26, 26, .ro⟩]⟩  -- MET_STATUS
  , ⟨0x30000004, 1, 0x4, 1, 0x4, 0x10, .view, 0x00000000, [⟨31, 0, .ro⟩]⟩  -- MET_CHECK
  , ⟨0x30000008, 1, 0x4, 1, 0x4, 0x10, .view, 0x00000000, [⟨31, 0, .ro⟩]⟩  -- MET_PCRC
  , ⟨0x3000000C, 1, 0x4, 1, 0x4, 0x10, .view, 0x00000000, [⟨31, 0, .ro⟩]⟩  -- MET_SERIAL_LO
  , ⟨0x30000010, 1, 0x4, 1, 0x4, 0x10, .view, 0x00000000, [⟨31, 0, .ro⟩]⟩  -- MET_SERIAL_HI
  , ⟨0x30000014, 1, 0x4, 1, 0x4, 0x10, .view, 0x00000000, [⟨31, 16, .ro⟩, ⟨13, 0, .ro⟩]⟩  -- MET_LOG
  , ⟨0x30000100, 8, 0x40, 1, 0x4, 0x10, .view, 0x00000000, [⟨31, 0, .ro⟩]⟩  -- MET_O_IMP_LO
  , ⟨0x30000104, 8, 0x40, 1, 0x4, 0x10, .view, 0x00000000, [⟨31, 0, .ro⟩]⟩  -- MET_O_IMP_HI
  , ⟨0x30000108, 8, 0x40, 1, 0x4, 0x10, .view, 0x00000000, [⟨31, 0, .ro⟩]⟩  -- MET_O_EXP_LO
  , ⟨0x3000010C, 8, 0x40, 1, 0x4, 0x10, .view, 0x00000000, [⟨31, 0, .ro⟩]⟩  -- MET_O_EXP_HI
  , ⟨0x30000110, 8, 0x40, 1, 0x4, 0x10, .view, 0x00000000, [⟨31, 0, .ro⟩]⟩  -- MET_O_U
  , ⟨0x30000114, 8, 0x40, 1, 0x4, 0x10, .view, 0x00000000, [⟨31, 0, .ro⟩]⟩  -- MET_O_I
  , ⟨0x30000118, 8, 0x40, 1, 0x4, 0x10, .view, 0x00000000, [⟨31, 0, .ro⟩]⟩  -- MET_O_P
  , ⟨0x3000011C, 8, 0x40, 1, 0x4, 0x10, .view, 0x00000000, [⟨3, 3, .ro⟩, ⟨2, 2, .ro⟩, ⟨1, 1, .ro⟩, ⟨0, 0, .ro⟩]⟩  -- MET_O_FLAGS
  , ⟨0x30000120, 8, 0x40, 1, 0x4, 0x10, .view, 0x00000000, [⟨15, 0, .ro⟩]⟩  -- MET_O_OWED
  ]

/-- Registers of the window at 0x30100000. -/
def regs301_0 : List RegRow :=
  [ ⟨0x30100000, 1, 0x4, 1, 0x4, 0x11, .none, 0x00000000, [⟨31, 31, .rw⟩, ⟨30, 30, .rw⟩]⟩  -- TAR_CTRL
  , ⟨0x30100004, 1, 0x4, 1, 0x4, 0x11, .none, 0x00000000, [⟨12, 12, .w1c⟩, ⟨11, 11, .ro⟩, ⟨10, 10, .ro⟩, ⟨9, 9, .ro⟩, ⟨8, 8, .ro⟩, ⟨5, 4, .ro⟩, ⟨2, 0, .ro⟩]⟩  -- TAR_STATUS
  , ⟨0x30100008, 1, 0x4, 1, 0x4, 0x11, .none, 0x00000000, [⟨31, 0, .rw⟩]⟩  -- TAR_CAL_ADDR
  , ⟨0x3010000C, 1, 0x4, 1, 0x4, 0x11, .none, 0x00000000, [⟨31, 31, .wo⟩, ⟨30, 30, .wo⟩, ⟨2, 0, .ro⟩]⟩  -- TAR_CMD
  , ⟨0x30100010, 1, 0x4, 1, 0x4, 0x11, .none, 0x00000000, [⟨31, 0, .ro⟩]⟩  -- TAR_ACT_CRC
  , ⟨0x30100014, 1, 0x4, 1, 0x4, 0x11, .none, 0x00000000, [⟨31, 0, .ro⟩]⟩  -- TAR_PAS_CRC
  , ⟨0x30100018, 1, 0x4, 1, 0x4, 0x11, .none, 0x00000000, [⟨31, 0, .ro⟩]⟩  -- TAR_PAS_ACT
  , ⟨0x30100020, 1, 0x4, 1, 0x4, 0x11, .none, 0x00000000, [⟨31, 0, .rw⟩]⟩  -- TAR_ADJ_S
  , ⟨0x30100024, 1, 0x4, 1, 0x4, 0x11, .none, 0x00000000, [⟨31, 0, .rw⟩]⟩  -- TAR_ADJ_NS
  , ⟨0x30100028, 1, 0x4, 1, 0x4, 0x11, .none, 0x00000000, [⟨15, 0, .rw⟩]⟩  -- TAR_ADJ_SH
  , ⟨0x3010002C, 1, 0x4, 1, 0x4, 0x11, .none, 0x00000000, [⟨31, 31, .wo⟩, ⟨30, 30, .rw⟩, ⟨29, 29, .ro⟩, ⟨26, 24, .ro⟩, ⟨13, 0, .ro⟩]⟩  -- TAR_ADJ
  , ⟨0x30100030, 1, 0x4, 1, 0x4, 0x11, .none, 0x00000025, [⟨15, 0, .rw⟩]⟩  -- TAR_UTC
  , ⟨0x30100034, 1, 0x4, 1, 0x4, 0x11, .none, 0x00000000, [⟨31, 0, .ro⟩]⟩  -- TAR_BSEQ
  , ⟨0x30100038, 1, 0x4, 1, 0x4, 0x11, .none, 0x00000000, [⟨31, 0, .ro⟩]⟩  -- TAR_DSEQ
  , ⟨0x3010003C, 1, 0x4, 1, 0x4, 0x11, .none, 0x00000000, [⟨31, 0, .ro⟩]⟩  -- TAR_MONO_S
  , ⟨0x30100040, 1, 0x4, 1, 0x4, 0x11, .none, 0x00000000, [⟨31, 0, .ro⟩]⟩  -- TAR_MONO_MS
  , ⟨0x30100100, 8, 0x80, 8, 0x10, 0x11, .none, 0x00000000, [⟨31, 0, .ro⟩]⟩  -- TAR_E_IMP_LO
  , ⟨0x30100104, 8, 0x80, 8, 0x10, 0x11, .none, 0x00000000, [⟨31, 0, .ro⟩]⟩  -- TAR_E_IMP_HI
  , ⟨0x30100108, 8, 0x80, 8, 0x10, 0x11, .none, 0x00000000, [⟨31, 0, .ro⟩]⟩  -- TAR_E_EXP_LO
  , ⟨0x3010010C, 8, 0x80, 8, 0x10, 0x11, .none, 0x00000000, [⟨31, 0, .ro⟩]⟩  -- TAR_E_EXP_HI
  , ⟨0x30100500, 9, 0x10, 1, 0x4, 0x11, .none, 0x00000000, [⟨31, 0, .ro⟩]⟩  -- TAR_DEM_E_INT
  , ⟨0x30100504, 9, 0x10, 1, 0x4, 0x11, .none, 0x00000000, [⟨31, 0, .ro⟩]⟩  -- TAR_DEM_MD
  , ⟨0x30100508, 9, 0x10, 1, 0x4, 0x11, .none, 0x00000000, [⟨31, 0, .ro⟩]⟩  -- TAR_DEM_MD_S
  , ⟨0x3010050C, 9, 0x10, 1, 0x4, 0x11, .none, 0x00000000, [⟨31, 0, .ro⟩]⟩  -- TAR_DEM_LAST
  , ⟨0x30100600, 1, 0x4, 1, 0x4, 0x11, .none, 0x00000000, [⟨31, 31, .wo⟩, ⟨30, 30, .ro⟩, ⟨26, 24, .rw⟩, ⟨18, 16, .ro⟩, ⟨8, 8, .rw⟩, ⟨7, 0, .rw⟩]⟩  -- TAR_ACC_CMD
  ]

/-- Registers of the window at 0x30100000. -/
def regs301_1 : List RegRow :=
  [ ⟨0x30100604, 1, 0x4, 1, 0x4, 0x11, .none, 0x00000000, [⟨31, 0, .rw⟩]⟩  -- TAR_ACC_AMT_LO
  , ⟨0x30100608, 1, 0x4, 1, 0x4, 0x11, .none, 0x00000000, [⟨31, 0, .rw⟩]⟩  -- TAR_ACC_AMT_HI
  , ⟨0x3010060C, 1, 0x4, 1, 0x4, 0x11, .none, 0x00000000, [⟨31, 0, .rw⟩]⟩  -- TAR_ACC_TXID
  , ⟨0x30100620, 8, 0x4, 1, 0x4, 0x11, .none, 0x00000000, [⟨31, 31, .rw⟩, ⟨7, 0, .rw⟩]⟩  -- TAR_BIND
  , ⟨0x30100800, 256, 0x20, 1, 0x4, 0x11, .none, 0x00000000, [⟨31, 0, .ro⟩]⟩  -- TAR_ACC_BAL_LO
  , ⟨0x30100804, 256, 0x20, 1, 0x4, 0x11, .none, 0x00000000, [⟨31, 0, .ro⟩]⟩  -- TAR_ACC_BAL_HI
  , ⟨0x30100808, 256, 0x20, 1, 0x4, 0x11, .none, 0x00000000, [⟨31, 0, .ro⟩]⟩  -- TAR_ACC_EC_LIM
  , ⟨0x3010080C, 256, 0x20, 1, 0x4, 0x11, .none, 0x00000000, [⟨31, 0, .ro⟩]⟩  -- TAR_ACC_LOW_THR
  , ⟨0x30100810, 256, 0x20, 1, 0x4, 0x11, .none, 0x00000003, [⟨8, 8, .ro⟩, ⟨2, 0, .ro⟩]⟩  -- TAR_ACC_STATE
  ]

/-- Registers of the window at 0x30100000. -/
def regs301 : List RegRow :=
  regs301_0 ++ regs301_1

/-- Registers of the window at 0x30200000. -/
def regs302 : List RegRow :=
  [ ⟨0x30200000, 1, 0x4, 1, 0x4, 0x12, .none, 0x00000000, [⟨31, 31, .wo⟩, ⟨26, 24, .wo⟩, ⟨18, 16, .wo⟩]⟩  -- EVS_REQ
  , ⟨0x30200004, 1, 0x4, 1, 0x4, 0x12, .none, 0x00000000, [⟨31, 31, .ro⟩, ⟨26, 24, .ro⟩]⟩  -- EVS_REQ_STAT
  , ⟨0x30200008, 1, 0x4, 1, 0x4, 0x12, .none, 0x00000000, [⟨31, 0, .rw⟩]⟩  -- EVS_ADDR
  , ⟨0x3020000C, 1, 0x4, 1, 0x4, 0x12, .none, 0x00000000, [⟨31, 0, .ro⟩]⟩  -- EVS_RSEQ
  , ⟨0x30200010, 4, 0x4, 1, 0x4, 0x12, .none, 0x00000000, [⟨31, 0, .rw⟩]⟩  -- EVS_SESS
  , ⟨0x30200020, 1, 0x4, 1, 0x4, 0x12, .none, 0x00000000, [⟨31, 30, .rw⟩, ⟨14, 0, .rw⟩]⟩  -- EVS_RD_SEL
  , ⟨0x30200024, 1, 0x4, 1, 0x4, 0x12, .none, 0x00000000, [⟨31, 31, .ro⟩, ⟨14, 0, .ro⟩]⟩  -- EVS_GEN
  , ⟨0x30200100, 64, 0x4, 1, 0x4, 0x12, .none, 0x00000000, [⟨31, 0, .ro⟩]⟩  -- EVS_RD_WIN
  ]

/-- Registers of the window at 0x30300000. -/
def regs303 : List RegRow :=
  [ ⟨0x30300000, 1, 0x4, 1, 0x4, 0x13, .ksLock, 0x00001F0A, [⟨31, 31, .w1s⟩, ⟨12, 8, .rw⟩, ⟨6, 0, .rw⟩]⟩  -- KS_CTRL
  , ⟨0x30300004, 1, 0x4, 1, 0x4, 0x13, .ksAdmin, 0x000000FF, [⟨31, 31, .w1s⟩, ⟨7, 0, .rw⟩]⟩  -- KS_ADMIN
  , ⟨0x30300008, 1, 0x4, 1, 0x4, 0x13, .none, 0x00000000, [⟨2, 2, .w1c⟩, ⟨1, 1, .ro⟩, ⟨0, 0, .ro⟩]⟩  -- KS_STATUS
  , ⟨0x3030000C, 1, 0x4, 1, 0x4, 0x13, .none, 0x00000000, [⟨15, 8, .ro⟩, ⟨3, 0, .ro⟩]⟩  -- KS_ZSTAT
  , ⟨0x30300010, 1, 0x4, 1, 0x4, 0x13, .none, 0x00000000, [⟨31, 0, .ro⟩]⟩  -- KS_ZTIME
  , ⟨0x30300100, 32, 0x10, 1, 0x4, 0x13, .none, 0x00000000, [⟨29, 28, .ro⟩, ⟨24, 24, .ro⟩, ⟨23, 16, .ro⟩, ⟨8, 8, .ro⟩, ⟨7, 0, .ro⟩]⟩  -- KS_SLOT_INFO
  , ⟨0x30300104, 32, 0x10, 1, 0x4, 0x13, .none, 0x00000000, [⟨28, 16, .ro⟩, ⟨8, 0, .ro⟩]⟩  -- KS_SLOT_POL
  , ⟨0x30300108, 32, 0x10, 1, 0x4, 0x13, .none, 0x00000000, [⟨31, 0, .ro⟩]⟩  -- KS_SLOT_KEYID
  , ⟨0x3030010C, 32, 0x10, 1, 0x4, 0x13, .none, 0x00000000, [⟨31, 0, .ro⟩]⟩  -- KS_SLOT_TWIN_KEYID
  ]

/-- Registers of the window at 0x40000000. -/
def regs400 : List RegRow :=
  [ ⟨0x40000000, 1, 0x4, 1, 0x4, 0x18, .view, 0x00000000, [⟨31, 24, .ro⟩, ⟨17, 17, .ro⟩, ⟨16, 16, .ro⟩, ⟨2, 0, .ro⟩]⟩  -- SFS_STATUS
  , ⟨0x40000004, 1, 0x4, 1, 0x4, 0x18, .view, 0x00000000, [⟨31, 0, .ro⟩]⟩  -- SFS_CHK
  , ⟨0x40000008, 1, 0x4, 1, 0x4, 0x18, .view, 0x00000000, [⟨31, 0, .ro⟩]⟩  -- SFS_PROG
  , ⟨0x4000000C, 1, 0x4, 1, 0x4, 0x18, .view, 0x00000000, [⟨31, 0, .ro⟩]⟩  -- SFS_CONF_CHK
  , ⟨0x40000010, 1, 0x4, 1, 0x4, 0x18, .view, 0x00000000, [⟨31, 0, .ro⟩]⟩  -- SFS_CONF_PROG
  , ⟨0x40000014, 1, 0x4, 1, 0x4, 0x18, .view, 0x00000000, [⟨31, 0, .ro⟩]⟩  -- SFS_CYC
  , ⟨0x40000020, 1, 0x4, 1, 0x4, 0x18, .view, 0x00000000, [⟨31, 16, .ro⟩, ⟨15, 0, .ro⟩]⟩  -- SFS_IN
  , ⟨0x40000024, 1, 0x4, 1, 0x4, 0x18, .view, 0x00000000, [⟨31, 16, .ro⟩, ⟨15, 0, .ro⟩]⟩  -- SFS_IN2
  , ⟨0x40000028, 1, 0x4, 1, 0x4, 0x18, .view, 0x00000000, [⟨31, 16, .ro⟩, ⟨15, 0, .ro⟩]⟩  -- SFS_RAW
  , ⟨0x40000040, 1, 0x4, 1, 0x4, 0x18, .view, 0x00000000, [⟨9, 0, .rws⟩]⟩  -- SFS_OUT_EN
  , ⟨0x40000044, 1, 0x4, 1, 0x4, 0x18, .view, 0x00000000, [⟨0, 0, .wo⟩]⟩  -- SFS_OUT_CMT
  , ⟨0x40000048, 1, 0x4, 1, 0x4, 0x18, .view, 0x00000000, [⟨25, 16, .ro⟩, ⟨9, 0, .ro⟩]⟩  -- SFS_OUT
  , ⟨0x4000004C, 1, 0x4, 1, 0x4, 0x18, .view, 0x00000000, [⟨25, 16, .ro⟩, ⟨9, 0, .ro⟩]⟩  -- SFS_OUT_FLT
  , ⟨0x40000050, 1, 0x4, 1, 0x4, 0x18, .view, 0x00000000, [⟨31, 24, .ro⟩, ⟨23, 16, .ro⟩, ⟨13, 8, .ro⟩, ⟨7, 0, .ro⟩]⟩  -- SFS_PERMIT
  , ⟨0x40000054, 1, 0x4, 1, 0x4, 0x18, .view, 0x80000000, [⟨31, 31, .ro⟩, ⟨30, 30, .ro⟩, ⟨29, 29, .ro⟩, ⟨23, 0, .ro⟩]⟩  -- SFS_BRAKE
  , ⟨0x40000058, 1, 0x4, 1, 0x4, 0x18, .view, 0x00000000, [⟨31, 24, .ro⟩, ⟨18, 16, .ro⟩, ⟨10, 8, .ro⟩]⟩  -- SFS_MSG
  ]

/-- Registers of the window at 0x40100000. -/
def regs401_0 : List RegRow :=
  [ ⟨0x40100000, 64, 0x10, 1, 0x4, 0x19, .none, 0x00000F6E, [⟨31, 31, .rw⟩, ⟨30, 30, .rw⟩, ⟨29, 28, .rw⟩, ⟨23, 16, .rw⟩, ⟨15, 0, .rw⟩]⟩  -- TS_CFG
  , ⟨0x40100004, 64, 0x10, 1, 0x4, 0x19, .none, 0x03E80384, [⟨31, 16, .rw⟩, ⟨15, 0, .rw⟩]⟩  -- TS_LIM
  , ⟨0x40100008, 64, 0x10, 1, 0x4, 0x19, .none, 0x0320141E, [⟨31, 16, .rw⟩, ⟨15, 8, .rw⟩, ⟨7, 0, .rw⟩]⟩  -- TS_LIM2
  , ⟨0x4010000C, 64, 0x10, 1, 0x4, 0x19, .none, 0x00000000, [⟨26, 24, .rw⟩, ⟨23, 0, .rw⟩]⟩  -- TS_NBR
  , ⟨0x40100400, 64, 0x4, 1, 0x4, 0x19, .none, 0x00000000, [⟨31, 31, .ro⟩, ⟨30, 30, .ro⟩, ⟨29, 29, .ro⟩, ⟨28, 28, .ro⟩, ⟨27, 27, .ro⟩, ⟨26, 26, .ro⟩, ⟨15, 0, .ro⟩]⟩  -- TS_VAL
  , ⟨0x40100600, 8, 0x4, 1, 0x4, 0x19, .none, 0x00000000, [⟨15, 0, .ro⟩]⟩  -- TJ_VAL
  , ⟨0x40100700, 1, 0x4, 1, 0x4, 0x19, .none, 0x003C07D0, [⟨31, 31, .rw⟩, ⟨23, 16, .rw⟩, ⟨13, 0, .rw⟩]⟩  -- TH_CTRL
  , ⟨0x40100704, 1, 0x4, 1, 0x4, 0x19, .none, 0x00640064, [⟨31, 16, .rw⟩, ⟨15, 0, .rw⟩]⟩  -- TH_STEP
  , ⟨0x40100708, 1, 0x4, 1, 0x4, 0x19, .none, 0x00000000, [⟨9, 9, .w1c⟩, ⟨8, 8, .ro⟩, ⟨3, 0, .ro⟩]⟩  -- TH_STAT
  , ⟨0x4010070C, 1, 0x4, 1, 0x4, 0x19, .none, 0x0000047E, [⟨15, 0, .rw⟩]⟩  -- TH_TJ
  , ⟨0x40100800, 8, 0x40, 1, 0x4, 0x19, .none, 0x00C81000, [⟨31, 31, .rw⟩, ⟨29, 24, .rw⟩, ⟨23, 16, .rw⟩, ⟨15, 0, .rw⟩]⟩  -- CBL_CFG
  , ⟨0x40100804, 8, 0x40, 1, 0x4, 0x19, .none, 0x00007530, [⟨31, 16, .rw⟩, ⟨15, 0, .rw⟩]⟩  -- CBL_RATED
  , ⟨0x40100808, 8, 0x40, 1, 0x4, 0x19, .none, 0x000186A0, [⟨23, 0, .rw⟩]⟩  -- CBL_R20
  , ⟨0x4010080C, 8, 0x40, 1, 0x4, 0x19, .none, 0x00007530, [⟨23, 0, .rw⟩]⟩  -- CBL_RTH
  , ⟨0x40100810, 8, 0x40, 1, 0x4, 0x19, .none, 0x04B00F5A, [⟨31, 16, .rw⟩, ⟨15, 0, .rw⟩]⟩  -- CBL_CTH
  , ⟨0x40100814, 8, 0x40, 1, 0x4, 0x19, .none, 0x032002BC, [⟨31, 16, .rw⟩, ⟨15, 0, .rw⟩]⟩  -- CBL_MLIM
  , ⟨0x40100818, 8, 0x40, 1, 0x4, 0x19, .none, 0x028A0014, [⟨31, 16, .rw⟩, ⟨15, 0, .rw⟩]⟩  -- CBL_MLIM2
  , ⟨0x4010081C, 8, 0x40, 1, 0x4, 0x19, .none, 0x00000000, [⟨31, 31, .ro⟩, ⟨30, 30, .ro⟩, ⟨29, 29, .ro⟩, ⟨28, 28, .ro⟩, ⟨27, 27, .ro⟩, ⟨26, 26, .ro⟩, ⟨25, 25, .w1c⟩, ⟨15, 0, .ro⟩]⟩  -- CBL_STATE
  , ⟨0x40100820, 8, 0x40, 1, 0x4, 0x19, .none, 0xFFFFFFFF, [⟨31, 16, .ro⟩, ⟨15, 0, .ro⟩]⟩  -- CBL_LIMIT
  , ⟨0x40100824, 8, 0x40, 1, 0x4, 0x19, .none, 0x00000000, [⟨18, 16, .ro⟩, ⟨10, 8, .ro⟩, ⟨6, 6, .ro⟩, ⟨5, 0, .ro⟩]⟩  -- CBL_CAUSE
  , ⟨0x40100828, 8, 0x40, 1, 0x4, 0x19, .none, 0x00000000, [⟨0, 0, .wo⟩]⟩  -- CBL_CMD
  , ⟨0x40100C00, 4, 0x20, 1, 0x4, 0x19, .none, 0x000061A8, [⟨31, 31, .rw⟩, ⟨30, 30, .rw⟩, ⟨29, 24, .rw⟩, ⟨15, 0, .rw⟩]⟩  -- FAN_CFG
  , ⟨0x40100C04, 4, 0x20, 1, 0x4, 0x19, .none, 0x03E80000, [⟨25, 16, .rw⟩, ⟨9, 0, .rw⟩]⟩  -- FAN_DUTY
  , ⟨0x40100C08, 4, 0x20, 1, 0x4, 0x19, .none, 0x02580190, [⟨31, 16, .rw⟩, ⟨15, 0, .rw⟩]⟩  -- FAN_CURVE
  , ⟨0x40100C0C, 4, 0x20, 1, 0x4, 0x19, .none, 0x03E8012C, [⟨25, 16, .rw⟩, ⟨9, 0, .rw⟩]⟩  -- FAN_DLIM
  ]

/-- Registers of the window at 0x40100000. -/
def regs401_1 : List RegRow :=
  [ ⟨0x40100C10, 4, 0x20, 1, 0x4, 0x19, .none, 0x200A03E8, [⟨31, 28, .rw⟩, ⟨23, 16, .rw⟩, ⟨15, 0, .rw⟩]⟩  -- FAN_TACH
  , ⟨0x40100C14, 4, 0x20, 1, 0x4, 0x19, .none, 0x138801F4, [⟨31, 16, .rw⟩, ⟨15, 0, .rw⟩]⟩  -- FAN_TACH2
  , ⟨0x40100C18, 4, 0x20, 1, 0x4, 0x19, .none, 0x00000000, [⟨17, 17, .w1c⟩, ⟨16, 16, .ro⟩, ⟨15, 0, .ro⟩]⟩  -- FAN_STAT
  , ⟨0x40100C1C, 4, 0x20, 1, 0x4, 0x19, .none, 0x00000000, [⟨7, 0, .rw⟩]⟩  -- FAN_OUTM
  ]

/-- Registers of the window at 0x40100000. -/
def regs401 : List RegRow :=
  regs401_0 ++ regs401_1

/-- Registers of the window at 0x40200000. -/
def regs402 : List RegRow :=
  [ ⟨0x40200000, 1, 0x4, 1, 0x4, 0x1A, .hsCtrl, 0x00000000, [⟨31, 31, .rw⟩, ⟨30, 30, .w1s⟩, ⟨29, 29, .rw⟩, ⟨8, 8, .w1c⟩, ⟨3, 0, .rw⟩]⟩  -- HS_CTRL
  , ⟨0x40200004, 1, 0x4, 1, 0x4, 0x1A, .none, 0x00000000, [⟨15, 0, .rw⟩]⟩  -- HS_ON
  , ⟨0x40200008, 1, 0x4, 1, 0x4, 0x1A, .none, 0x00000000, [⟨15, 0, .w1s⟩]⟩  -- HS_ON_SET
  , ⟨0x4020000C, 1, 0x4, 1, 0x4, 0x1A, .none, 0x00000000, [⟨15, 0, .w1c⟩]⟩  -- HS_ON_CLR
  , ⟨0x40200010, 1, 0x4, 1, 0x4, 0x1A, .none, 0x00000000, [⟨31, 31, .ro⟩, ⟨21, 16, .w1c⟩, ⟨5, 0, .ro⟩]⟩  -- LH_PIN
  , ⟨0x40200014, 1, 0x4, 1, 0x4, 0x1A, .hsLock, 0x00000A80, [⟨15, 8, .rw⟩, ⟨7, 0, .rw⟩]⟩  -- LH_CFG
  , ⟨0x40200100, 16, 0x10, 1, 0x4, 0x1A, .hsLock, 0x0070340A, [⟨31, 31, .rw⟩, ⟨26, 24, .rw⟩, ⟨22, 20, .rw⟩, ⟨18, 16, .rw⟩, ⟨15, 12, .rw⟩, ⟨11, 8, .rw⟩, ⟨7, 0, .rw⟩]⟩  -- HS_CFG
  , ⟨0x40200104, 16, 0x10, 1, 0x4, 0x1A, .none, 0x00000000, [⟨31, 28, .ro⟩, ⟨26, 24, .ro⟩, ⟨8, 8, .ro⟩, ⟨7, 7, .w1c⟩, ⟨6, 6, .w1c⟩, ⟨5, 5, .w1c⟩, ⟨4, 4, .ro⟩, ⟨3, 3, .ro⟩, ⟨2, 2, .w1c⟩]⟩  -- HS_STAT
  , ⟨0x40200108, 16, 0x10, 1, 0x4, 0x1A, .none, 0x00000000, [⟨31, 16, .ro⟩, ⟨15, 0, .ro⟩]⟩  -- HS_MEAS
  , ⟨0x4020010C, 16, 0x10, 1, 0x4, 0x1A, .none, 0x00000000, [⟨7, 0, .ro⟩]⟩  -- HS_FUSE
  ]

/-- Registers of the window at 0x40300000. -/
def regs403 : List RegRow :=
  [ ⟨0x40300000, 1, 0x4, 1, 0x4, 0x1B, .none, 0x000F0200, [⟨31, 31, .rw⟩, ⟨19, 16, .rw⟩, ⟨13, 12, .rw⟩, ⟨10, 10, .rw⟩, ⟨9, 9, .rw⟩, ⟨8, 8, .rw⟩]⟩  -- BR_CTRL
  , ⟨0x40300004, 1, 0x4, 1, 0x4, 0x1B, .none, 0x00000190, [⟨9, 0, .rw⟩]⟩  -- BR_FSW
  , ⟨0x40300008, 1, 0x4, 1, 0x4, 0x1B, .none, 0x0BB85DC0, [⟨31, 16, .rw⟩, ⟨14, 0, .rw⟩]⟩  -- BR_VSET
  , ⟨0x4030000C, 1, 0x4, 1, 0x4, 0x1B, .none, 0x04000100, [⟨31, 16, .rw⟩, ⟨15, 0, .rw⟩]⟩  -- BR_LOOP
  , ⟨0x40300010, 1, 0x4, 1, 0x4, 0x1B, .none, 0x0BB8781E, [⟨31, 16, .rw⟩, ⟨15, 8, .rw⟩, ⟨7, 0, .rw⟩]⟩  -- BR_CUR
  , ⟨0x40300014, 1, 0x4, 1, 0x4, 0x1B, .none, 0x00C805DC, [⟨27, 16, .rw⟩, ⟨11, 0, .rw⟩]⟩  -- BR_TRK
  , ⟨0x40300018, 1, 0x4, 1, 0x4, 0x1B, .none, 0x000A300C, [⟨31, 30, .rw⟩, ⟨23, 16, .rw⟩, ⟨15, 8, .rw⟩, ⟨7, 0, .rw⟩]⟩  -- BR_SHED
  , ⟨0x4030001C, 1, 0x4, 1, 0x4, 0x1B, .none, 0x1E325521, [⟨31, 24, .rw⟩, ⟨23, 16, .rw⟩, ⟨15, 12, .rw⟩, ⟨11, 8, .rw⟩, ⟨7, 4, .rw⟩, ⟨3, 0, .rw⟩]⟩  -- BR_PROT
  , ⟨0x40300020, 1, 0x4, 1, 0x4, 0x1B, .none, 0x00000000, [⟨19, 16, .ro⟩, ⟨8, 8, .w1c⟩, ⟨7, 7, .ro⟩, ⟨6, 6, .ro⟩, ⟨5, 5, .ro⟩, ⟨4, 4, .ro⟩, ⟨3, 3, .ro⟩]⟩  -- BR_STATUS
  , ⟨0x40300024, 1, 0x4, 1, 0x4, 0x1B, .none, 0x00000000, [⟨31, 16, .ro⟩, ⟨15, 0, .ro⟩]⟩  -- BR_VOUT
  , ⟨0x40300040, 4, 0x4, 1, 0x4, 0x1B, .none, 0x00000000, [⟨24, 24, .w1c⟩, ⟨23, 16, .ro⟩, ⟨15, 0, .ro⟩]⟩  -- BR_PH
  ]

/-- Registers of the window at 0x50000000. -/
def regs500 : List RegRow :=
  [ ⟨0x50000000, 1, 0x4, 1, 0x4, 0x24, .none, 0x0000000F, [⟨8, 8, .w1c⟩, ⟨3, 0, .rw⟩]⟩  -- PWR_CTRL
  , ⟨0x50000004, 1, 0x4, 1, 0x4, 0x24, .none, 0x000007FF, [⟨10, 0, .ro⟩]⟩  -- PWR_STATUS
  , ⟨0x50000008, 1, 0x4, 1, 0x4, 0x24, .none, 0x00000000, [⟨16, 0, .ro⟩]⟩  -- SUP_VIN
  , ⟨0x5000000C, 1, 0x4, 1, 0x4, 0x24, .none, 0x00000000, [⟨16, 16, .ro⟩, ⟨11, 0, .ro⟩]⟩  -- SUP_VBAT
  , ⟨0x50000010, 1, 0x4, 1, 0x4, 0x24, .none, 0x00000000, [⟨18, 18, .ro⟩, ⟨17, 17, .w1c⟩, ⟨16, 16, .ro⟩, ⟨11, 0, .ro⟩]⟩  -- CLK_STATUS
  , ⟨0x50000020, 1, 0x4, 1, 0x4, 0x24, .none, 0x00000000, [⟨31, 16, .wo⟩, ⟨4, 4, .wo⟩, ⟨3, 0, .wo⟩]⟩  -- RST_CMD
  , ⟨0x50000024, 1, 0x4, 1, 0x4, 0x24, .none, 0x00000001, [⟨11, 0, .w1c⟩]⟩  -- RST_CAUSE
  , ⟨0x50000028, 1, 0x4, 1, 0x4, 0x24, .none, 0x00000000, [⟨3, 0, .ro⟩]⟩  -- RST_LAST
  , ⟨0x5000002C, 1, 0x4, 1, 0x4, 0x24, .none, 0x00000000, [⟨31, 0, .ro⟩]⟩  -- RST_TIME
  , ⟨0x50000030, 1, 0x4, 1, 0x4, 0x24, .none, 0x00000000, [⟨15, 0, .ro⟩]⟩  -- RST_COUNT
  ]

/-- Registers of the window at 0x50100000. -/
def regs501 : List RegRow :=
  [ ⟨0x50100000, 1, 0x4, 1, 0x4, 0x25, .none, 0x00000000, [⟨23, 22, .ro⟩, ⟨21, 20, .ro⟩, ⟨16, 16, .ro⟩, ⟨15, 8, .ro⟩, ⟨2, 0, .ro⟩]⟩  -- ST_STATUS
  , ⟨0x50100004, 1, 0x4, 1, 0x4, 0x25, .none, 0x00000000, [⟨11, 0, .ro⟩]⟩  -- ST_RESULT
  , ⟨0x50100008, 1, 0x4, 1, 0x4, 0x25, .none, 0x00000000, [⟨15, 0, .ro⟩]⟩  -- ST_TIME
  , ⟨0x50100010, 1, 0x4, 1, 0x4, 0x25, .none, 0x00000000, [⟨31, 0, .ro⟩]⟩  -- ST_SEQ_A
  , ⟨0x50100014, 1, 0x4, 1, 0x4, 0x25, .none, 0x00000000, [⟨31, 0, .ro⟩]⟩  -- ST_SEQ_B
  , ⟨0x50100018, 1, 0x4, 1, 0x4, 0x25, .none, 0x00000000, [⟨31, 24, .ro⟩, ⟨23, 16, .ro⟩, ⟨15, 8, .ro⟩, ⟨7, 0, .ro⟩]⟩  -- ST_REJ
  , ⟨0x50100020, 1, 0x4, 1, 0x4, 0x25, .none, 0x00000000, [⟨31, 31, .rw⟩, ⟨0, 0, .rw⟩]⟩  -- ST_TRY
  , ⟨0x50100024, 1, 0x4, 1, 0x4, 0x25, .none, 0x00000000, [⟨31, 31, .wo⟩, ⟨6, 0, .ro⟩]⟩  -- ST_RB
  , ⟨0x50100028, 1, 0x4, 1, 0x4, 0x25, .none, 0x00000000, [⟨15, 8, .ro⟩, ⟨0, 0, .ro⟩]⟩  -- ST_MGMT
  ]

/-- Registers of the window at 0x50200000. -/
def regs502_0 : List RegRow :=
  [ ⟨0x50200000, 1, 0x4, 1, 0x4, 0x26, .none, 0x00000000, [⟨31, 24, .ro⟩, ⟨4, 4, .w1c⟩, ⟨3, 3, .ro⟩, ⟨2, 0, .clr⟩]⟩  -- ERR_CHIP_STATUS
  , ⟨0x50200004, 1, 0x4, 1, 0x4, 0x26, .none, 0x00000000, [⟨31, 24, .ro⟩, ⟨23, 16, .ro⟩, ⟨15, 8, .ro⟩, ⟨2, 0, .ro⟩]⟩  -- ERR_CHIP_CAUSE
  , ⟨0x50200008, 1, 0x4, 1, 0x4, 0x26, .none, 0x00000000, [⟨31, 0, .ro⟩]⟩  -- ERR_CHIP_TIME_S
  , ⟨0x5020000C, 1, 0x4, 1, 0x4, 0x26, .none, 0x00000000, [⟨31, 0, .ro⟩]⟩  -- ERR_CHIP_TIME_NS
  , ⟨0x50200010, 1, 0x4, 1, 0x4, 0x26, .errLock, 0x00000064, [⟨9, 0, .rw⟩]⟩  -- ERR_CHIP_TMO
  , ⟨0x50200014, 1, 0x4, 1, 0x4, 0x26, .none, 0x00000000, [⟨0, 0, .w1s⟩]⟩  -- ERR_LOCK
  , ⟨0x50200100, 4, 0x20, 1, 0x4, 0x26, .none, 0x00000000, [⟨31, 24, .ro⟩, ⟨4, 4, .w1c⟩, ⟨3, 3, .ro⟩, ⟨2, 0, .clr⟩]⟩  -- ERR_REG_STATUS
  , ⟨0x50200104, 4, 0x20, 1, 0x4, 0x26, .none, 0x00000000, [⟨31, 24, .ro⟩, ⟨23, 16, .ro⟩, ⟨15, 8, .ro⟩, ⟨2, 0, .ro⟩]⟩  -- ERR_REG_CAUSE
  , ⟨0x50200108, 4, 0x20, 1, 0x4, 0x26, .none, 0x00000000, [⟨31, 0, .ro⟩]⟩  -- ERR_REG_TIME_S
  , ⟨0x5020010C, 4, 0x20, 1, 0x4, 0x26, .none, 0x00000000, [⟨31, 0, .ro⟩]⟩  -- ERR_REG_TIME_NS
  , ⟨0x50200110, 4, 0x20, 1, 0x4, 0x26, .errLock, 0x640001F4, [⟨31, 24, .rw⟩, ⟨15, 0, .rw⟩]⟩  -- ERR_REG_CFG
  , ⟨0x50200114, 4, 0x20, 1, 0x4, 0x26, .none, 0x00000000, [⟨0, 0, .wo⟩]⟩  -- ERR_REG_CTRL
  , ⟨0x50200800, 1, 0x4, 1, 0x4, 0x23, .none, 0x00000000, [⟨31, 0, .rw⟩]⟩  -- FAB_PRIO0
  , ⟨0x50200804, 1, 0x4, 1, 0x4, 0x23, .none, 0x0000000C, [⟨5, 0, .rw⟩]⟩  -- FAB_PRIO1
  , ⟨0x50200808, 1, 0x4, 1, 0x4, 0x23, .none, 0x000003E8, [⟨15, 0, .rw⟩]⟩  -- FAB_TMO
  , ⟨0x5020080C, 1, 0x4, 1, 0x4, 0x23, .none, 0x00000000, [⟨7, 0, .ro⟩]⟩  -- FAB_OUTSTANDING
  , ⟨0x50200810, 1, 0x4, 1, 0x4, 0x23, .none, 0x00000000, [⟨31, 0, .ro⟩]⟩  -- FAB_ERR_ADDR
  , ⟨0x50200814, 1, 0x4, 1, 0x4, 0x23, .none, 0x00000000, [⟨4, 0, .ro⟩, ⟨9, 8, .ro⟩, ⟨10, 10, .ro⟩]⟩  -- FAB_ERR_INFO
  , ⟨0x50201000, 5, 0x20, 1, 0x4, 0x26, .none, 0x00000000, [⟨31, 24, .ro⟩, ⟨4, 4, .w1c⟩, ⟨3, 3, .ro⟩, ⟨2, 0, .clr⟩]⟩  -- ERR_BLK_STATUS
  , ⟨0x50201100, 7, 0x20, 1, 0x4, 0x26, .none, 0x00000000, [⟨31, 24, .ro⟩, ⟨4, 4, .w1c⟩, ⟨3, 3, .ro⟩, ⟨2, 0, .clr⟩]⟩  -- ERR_BLK_STATUS
  , ⟨0x50201200, 5, 0x20, 1, 0x4, 0x26, .none, 0x00000000, [⟨31, 24, .ro⟩, ⟨4, 4, .w1c⟩, ⟨3, 3, .ro⟩, ⟨2, 0, .clr⟩]⟩  -- ERR_BLK_STATUS
  , ⟨0x50201300, 4, 0x20, 1, 0x4, 0x26, .none, 0x00000000, [⟨31, 24, .ro⟩, ⟨4, 4, .w1c⟩, ⟨3, 3, .ro⟩, ⟨2, 0, .clr⟩]⟩  -- ERR_BLK_STATUS
  , ⟨0x50201400, 8, 0x20, 1, 0x4, 0x26, .none, 0x00000000, [⟨31, 24, .ro⟩, ⟨4, 4, .w1c⟩, ⟨3, 3, .ro⟩, ⟨2, 0, .clr⟩]⟩  -- ERR_BLK_STATUS
  , ⟨0x50201004, 5, 0x20, 1, 0x4, 0x26, .none, 0x00000000, [⟨31, 24, .ro⟩, ⟨23, 16, .ro⟩, ⟨15, 8, .ro⟩, ⟨2, 0, .ro⟩]⟩  -- ERR_BLK_CAUSE
  , ⟨0x50201104, 7, 0x20, 1, 0x4, 0x26, .none, 0x00000000, [⟨31, 24, .ro⟩, ⟨23, 16, .ro⟩, ⟨15, 8, .ro⟩, ⟨2, 0, .ro⟩]⟩  -- ERR_BLK_CAUSE
  ]

/-- Registers of the window at 0x50200000. -/
def regs502_1 : List RegRow :=
  [ ⟨0x50201204, 5, 0x20, 1, 0x4, 0x26, .none, 0x00000000, [⟨31, 24, .ro⟩, ⟨23, 16, .ro⟩, ⟨15, 8, .ro⟩, ⟨2, 0, .ro⟩]⟩  -- ERR_BLK_CAUSE
  , ⟨0x50201304, 4, 0x20, 1, 0x4, 0x26, .none, 0x00000000, [⟨31, 24, .ro⟩, ⟨23, 16, .ro⟩, ⟨15, 8, .ro⟩, ⟨2, 0, .ro⟩]⟩  -- ERR_BLK_CAUSE
  , ⟨0x50201404, 8, 0x20, 1, 0x4, 0x26, .none, 0x00000000, [⟨31, 24, .ro⟩, ⟨23, 16, .ro⟩, ⟨15, 8, .ro⟩, ⟨2, 0, .ro⟩]⟩  -- ERR_BLK_CAUSE
  , ⟨0x50201008, 5, 0x20, 1, 0x4, 0x26, .none, 0x00000000, [⟨31, 0, .ro⟩]⟩  -- ERR_BLK_TIME_S
  , ⟨0x50201108, 7, 0x20, 1, 0x4, 0x26, .none, 0x00000000, [⟨31, 0, .ro⟩]⟩  -- ERR_BLK_TIME_S
  , ⟨0x50201208, 5, 0x20, 1, 0x4, 0x26, .none, 0x00000000, [⟨31, 0, .ro⟩]⟩  -- ERR_BLK_TIME_S
  , ⟨0x50201308, 4, 0x20, 1, 0x4, 0x26, .none, 0x00000000, [⟨31, 0, .ro⟩]⟩  -- ERR_BLK_TIME_S
  , ⟨0x50201408, 8, 0x20, 1, 0x4, 0x26, .none, 0x00000000, [⟨31, 0, .ro⟩]⟩  -- ERR_BLK_TIME_S
  , ⟨0x5020100C, 5, 0x20, 1, 0x4, 0x26, .none, 0x00000000, [⟨31, 0, .ro⟩]⟩  -- ERR_BLK_TIME_NS
  , ⟨0x5020110C, 7, 0x20, 1, 0x4, 0x26, .none, 0x00000000, [⟨31, 0, .ro⟩]⟩  -- ERR_BLK_TIME_NS
  , ⟨0x5020120C, 5, 0x20, 1, 0x4, 0x26, .none, 0x00000000, [⟨31, 0, .ro⟩]⟩  -- ERR_BLK_TIME_NS
  , ⟨0x5020130C, 4, 0x20, 1, 0x4, 0x26, .none, 0x00000000, [⟨31, 0, .ro⟩]⟩  -- ERR_BLK_TIME_NS
  , ⟨0x5020140C, 8, 0x20, 1, 0x4, 0x26, .none, 0x00000000, [⟨31, 0, .ro⟩]⟩  -- ERR_BLK_TIME_NS
  , ⟨0x50201010, 5, 0x20, 1, 0x4, 0x26, .none, 0x00000000, [⟨31, 0, .w1c⟩]⟩  -- ERR_BLK_CELLS_LO
  , ⟨0x50201110, 7, 0x20, 1, 0x4, 0x26, .none, 0x00000000, [⟨31, 0, .w1c⟩]⟩  -- ERR_BLK_CELLS_LO
  , ⟨0x50201210, 5, 0x20, 1, 0x4, 0x26, .none, 0x00000000, [⟨31, 0, .w1c⟩]⟩  -- ERR_BLK_CELLS_LO
  , ⟨0x50201310, 4, 0x20, 1, 0x4, 0x26, .none, 0x00000000, [⟨31, 0, .w1c⟩]⟩  -- ERR_BLK_CELLS_LO
  , ⟨0x50201410, 8, 0x20, 1, 0x4, 0x26, .none, 0x00000000, [⟨31, 0, .w1c⟩]⟩  -- ERR_BLK_CELLS_LO
  , ⟨0x50201014, 5, 0x20, 1, 0x4, 0x26, .none, 0x00000000, [⟨31, 0, .w1c⟩]⟩  -- ERR_BLK_CELLS_HI
  , ⟨0x50201114, 7, 0x20, 1, 0x4, 0x26, .none, 0x00000000, [⟨31, 0, .w1c⟩]⟩  -- ERR_BLK_CELLS_HI
  , ⟨0x50201214, 5, 0x20, 1, 0x4, 0x26, .none, 0x00000000, [⟨31, 0, .w1c⟩]⟩  -- ERR_BLK_CELLS_HI
  , ⟨0x50201314, 4, 0x20, 1, 0x4, 0x26, .none, 0x00000000, [⟨31, 0, .w1c⟩]⟩  -- ERR_BLK_CELLS_HI
  , ⟨0x50201414, 8, 0x20, 1, 0x4, 0x26, .none, 0x00000000, [⟨31, 0, .w1c⟩]⟩  -- ERR_BLK_CELLS_HI
  , ⟨0x50201018, 5, 0x20, 1, 0x4, 0x26, .errLock, 0x00100064, [⟨24, 24, .rw⟩, ⟨23, 16, .rw⟩, ⟨15, 0, .rw⟩]⟩  -- ERR_BLK_CFG
  , ⟨0x50201118, 7, 0x20, 1, 0x4, 0x26, .errLock, 0x00100064, [⟨24, 24, .rw⟩, ⟨23, 16, .rw⟩, ⟨15, 0, .rw⟩]⟩  -- ERR_BLK_CFG
  ]

/-- Registers of the window at 0x50200000. -/
def regs502_2 : List RegRow :=
  [ ⟨0x50201218, 5, 0x20, 1, 0x4, 0x26, .errLock, 0x00100064, [⟨24, 24, .rw⟩, ⟨23, 16, .rw⟩, ⟨15, 0, .rw⟩]⟩  -- ERR_BLK_CFG
  , ⟨0x50201318, 4, 0x20, 1, 0x4, 0x26, .errLock, 0x00100064, [⟨24, 24, .rw⟩, ⟨23, 16, .rw⟩, ⟨15, 0, .rw⟩]⟩  -- ERR_BLK_CFG
  , ⟨0x50201418, 8, 0x20, 1, 0x4, 0x26, .errLock, 0x00100064, [⟨24, 24, .rw⟩, ⟨23, 16, .rw⟩, ⟨15, 0, .rw⟩]⟩  -- ERR_BLK_CFG
  , ⟨0x5020101C, 5, 0x20, 1, 0x4, 0x26, .none, 0x00000000, [⟨8, 8, .ro⟩, ⟨0, 0, .wo⟩]⟩  -- ERR_BLK_CTRL
  , ⟨0x5020111C, 7, 0x20, 1, 0x4, 0x26, .none, 0x00000000, [⟨8, 8, .ro⟩, ⟨0, 0, .wo⟩]⟩  -- ERR_BLK_CTRL
  , ⟨0x5020121C, 5, 0x20, 1, 0x4, 0x26, .none, 0x00000000, [⟨8, 8, .ro⟩, ⟨0, 0, .wo⟩]⟩  -- ERR_BLK_CTRL
  , ⟨0x5020131C, 4, 0x20, 1, 0x4, 0x26, .none, 0x00000000, [⟨8, 8, .ro⟩, ⟨0, 0, .wo⟩]⟩  -- ERR_BLK_CTRL
  , ⟨0x5020141C, 8, 0x20, 1, 0x4, 0x26, .none, 0x00000000, [⟨8, 8, .ro⟩, ⟨0, 0, .wo⟩]⟩  -- ERR_BLK_CTRL
  ]

/-- Registers of the window at 0x50200000. -/
def regs502 : List RegRow :=
  regs502_0 ++ regs502_1 ++ regs502_2

/-- Registers of the window at 0x50400000. -/
def regs504 : List RegRow :=
  [ ⟨0x50400000, 64, 0x4, 1, 0x4, 0x20, .none, 0x00000000, [⟨31, 31, .rw⟩, ⟨11, 8, .ro⟩, ⟨7, 7, .w1c⟩, ⟨4, 2, .rw⟩, ⟨1, 0, .rw⟩]⟩  -- MBX_CFG
  ]

/-- Registers of the window at 0x50500000. -/
def regs505 : List RegRow :=
  [ ⟨0x50500000, 8, 0x40, 1, 0x4, 0x20, .none, 0x00000000, [⟨11, 8, .rw⟩, ⟨7, 4, .wo⟩, ⟨3, 0, .wo⟩]⟩  -- WSC_CTX_CTRL
  , ⟨0x50500004, 8, 0x40, 1, 0x4, 0x20, .none, 0x00000000, [⟨11, 8, .w1c⟩, ⟨7, 0, .ro⟩]⟩  -- WSC_CTX_STATE
  , ⟨0x50500010, 8, 0x40, 4, 0x4, 0x20, .none, 0x60000000, [⟨31, 0, .rw⟩]⟩  -- WSC_ENTRY
  ]

/-- The registers of the 1 MiB window that holds address `a`: R77's map gives every block's window its own. -/
def regWindow (a : Nat) : List RegRow :=
  match a / 0x100000 with
  | 0x100 => regs100
  | 0x101 => regs101
  | 0x102 => regs102
  | 0x103 => regs103
  | 0x105 => regs105
  | 0x200 => regs200
  | 0x201 => regs201
  | 0x202 => regs202
  | 0x203 => regs203
  | 0x204 => regs204
  | 0x205 => regs205
  | 0x206 => regs206
  | 0x300 => regs300
  | 0x301 => regs301
  | 0x302 => regs302
  | 0x303 => regs303
  | 0x400 => regs400
  | 0x401 => regs401
  | 0x402 => regs402
  | 0x403 => regs403
  | 0x500 => regs500
  | 0x501 => regs501
  | 0x502 => regs502
  | 0x504 => regs504
  | 0x505 => regs505
  | _ => []

end Sys2Proof.Machine
end

