-- ==== Sys2Proof/Machine/RegFile.lean ====
section
/-!
DEFINITION. Machine/RegFile.lean: finding a register by its address, and what it reads as after reset.
-/
namespace Sys2Proof.Machine

/-- The row holds a register at address `a`. -/
def RegRow.covers (r : RegRow) (a : Nat) : Bool :=
  r.first ≤ a && (a - r.first) / r.s1 < r.n1 &&
    (a - r.first) % r.s1 % r.s2 = 0 && (a - r.first) % r.s1 / r.s2 < r.n2

/-- The register at address `a`. -/
def regRow (a : Nat) : Option RegRow := (regWindow a).find? (fun r => r.covers a)

/-- The Reset word of the register at address `a`; 0 where none lies. -/
def regReset (a : Nat) : Word :=
  match regRow a with
  | some r => BitVec.ofNat 32 r.reset
  | none => 0

/-- What a register holds after a write of `data` where it held `old`, by its access codes (R5): a WO field keeps nothing, and
CLR fields are left to their owner. -/
def RegRow.written (r : RegRow) (old data : Word) : Word :=
  r.fields.foldl
    (fun w f =>
      let g : Fld := ⟨f.hi, f.lo⟩
      match f.acc with
      | .rw => g.put w (g.get data)
      | .rws => g.put w (g.get data)
      | .w1c => w &&& ~~~(g.put 0 (g.get data))
      | .w1s => w ||| g.put 0 (g.get data)
      | .ro => w
      | .wo => w
      | .clr => w) old

/-- The block that owns the register at address `a` (R11). -/
def regBlock (a : Nat) : Option Nat := (regRow a).map (·.block)

end Sys2Proof.Machine
end

