-- ==== Sys2Proof/Machine/TypesBrine.lean ====
section
/-!
DEFINITION. Machine/TypesBrine.lean: the state of Brine beside its registers (R462 to R476).
-/
namespace Sys2Proof.Machine

/-- The gates of a phase (R463, R466, R468, R471): high and low side on; the high side is still due in this period, the low
side is done in it; ns since the slot of the last sense, and of the last turn-off. -/
structure BrGate where
  high : Bool
  low : Bool
  due : Bool
  done : Bool
  seen : Nat
  off : Int
deriving DecidableEq, Repr

def BrGate.reset : BrGate := ⟨false, false, false, true, 0, 0⟩

structure Brine where
  /-- RREF in 10^-9 mV. -/
  rref : Nat
  /-- REF in mV. -/
  ref : Nat
  /-- integ and ipk in 1/65,536,000 A, so that the loop of R463 is exact; the limit reached in the last period. -/
  integ : Int
  ipk : Int
  limited : Bool
  /-- REF has not yet exceeded VOUT since EN rose: each low-side gate turns off at zero current (R468). -/
  diode : Bool
  /-- A phase that fades out, and one that fades in, with the periods left (R473). -/
  fade : Option (Nat × Nat)
  grow : Option (Nat × Nat)
  /-- Instants from which the current has been low, VOUT under and over its thresholds. -/
  lowAt : Option Nat
  uvAt : Option Nat
  ovAt : Option Nat
  /-- Shedding is held off until this instant (R474). -/
  holdTo : Nat
  /-- Periods since the last trim update, and updates in a row that a phase has held its limit (R465). -/
  periods : Nat
  atLim : Tab Nat
  /-- Phases stopped by a switch fault, and the instants at which they were enabled again (R479). -/
  stopped : Nat
  runAt : Tab (Option Nat)
  gate : Tab BrGate
deriving DecidableEq, Repr

def Brine.reset : Brine := ⟨0, 0, 0, 0, false, false, none, none, none, none, none, 0, 0, [], 0, [], []⟩

end Sys2Proof.Machine
end

