-- ==== Sys2Proof/Machine/TypesCan.lean ====
section
/-!
DEFINITION. Machine/TypesCan.lean: the state of the CAN controllers beside their registers (R483 to R494).
-/
namespace Sys2Proof.Machine

/-- What a controller sends: transmit buffer 0 to 2, or 3 the reference message; and the frame as it was offered. -/
structure CanSend where
  buf : Nat
  frame : CanFrame
deriving DecidableEq, Repr

structure CanCtl where
  joined : Bool
  /-- When EN rose, or bus-off was entered (R483, R490). -/
  since : Nat
  sending : Option CanSend
  tec : Nat
  recCnt : Nat
  /-- Stopped by a bus error on the message RAM; enabled again and waiting for a frame to pass (R496). -/
  failed : Bool
  rearmed : Bool
  /-- A reference message is queued; its instant, a multiple of the period, with the steps of TB[2] made by then. -/
  refPend : Bool
  refAt : Option (Nat × Nat)
  /-- The stamp of the previous reference message sent, in ns of TB[2], with the steps made by then. -/
  refSent : Option (Nat × Nat)
  /-- The last reference message accepted: its sequence number and local stamp. -/
  refGot : Option (Nat × Int)
  /-- The last writes of TXREQ and TXCAN: their instants, the buffers newly queued and the buffers named (R488). -/
  reqAt : Option Nat
  reqBits : BitVec 3
  canAt : Option Nat
  canBits : BitVec 3
deriving DecidableEq, Repr

def CanCtl.reset : CanCtl := ⟨false, 0, none, 0, 0, false, false, false, none, none, none, none, 0, none, 0⟩

structure Can where
  ctl : Tab CanCtl
deriving DecidableEq, Repr

def Can.reset : Can := ⟨[]⟩

end Sys2Proof.Machine
end

