-- ==== Sys2Proof/Machine/TypesHub.lean ====
section
/-!
DEFINITION. Machine/TypesHub.lean: the state of the hub beside its registers: the error ladder, the fabric, the Weft
contexts, the mailboxes, the supplies and clocks, and start-up.
-/
namespace Sys2Proof.Machine

/-- What a block's error record holds beside its registers (R23, R26, R27, R549). -/
structure BlkRec where
  /-- Instant at which the block timer was started, while it runs. -/
  timer : Option Nat
  /-- Code and cell of the CONTAIN that opened the record. -/
  code : Nat
  cell : Nat
  /-- Instants of the NOTEs of the rolling 1 s window, newest first. -/
  notes : List Nat
  /-- Cell of the last NOTE. -/
  noteCell : Nat
  /-- CK_SYS cycle of FIRST (R26). -/
  firstCyc : Option Nat
  /-- 0xF0 has been raised for the present excess of NOTEs. -/
  noteOver : Bool
  /-- CK_SYS cycle in which the timer expired last (R28). -/
  spent : Option Nat
deriving DecidableEq, Repr

def BlkRec.reset : BlkRec := ⟨none, 0, 0, [], 0, none, false, none⟩

/-- What a region's error record holds beside its registers (R23, R24, R27). -/
structure RegRec where
  /-- Instant at which the region timer was started, while it runs. -/
  timer : Option Nat
  /-- Instant of the REGION that ordered the last region reset: the window starts there. -/
  ordered : Option Nat
  /-- The region's reset is in progress. -/
  inReset : Bool
  /-- The reset in progress was commanded by RST_CMD (R512). -/
  commanded : Bool
  /-- CK_SYS cycle of FIRST (R26), and the one in which the timer expired last (R28). -/
  firstCyc : Option Nat
  spent : Option Nat
deriving DecidableEq, Repr

def RegRec.reset : RegRec := ⟨none, none, false, false, none, none⟩

/-- The error ladder (block 0x26). -/
structure Ladder where
  blk : Tab BlkRec
  reg : Tab RegRec
  /-- Instant at which the chip timer was started, in the chip safe state (R33). -/
  chipTimer : Option Nat
  /-- CK_SYS cycle of FIRST of the chip's record (R26). -/
  chipCyc : Option Nat
deriving DecidableEq, Repr

def Ladder.reset : Ladder := ⟨[], [], none, none⟩

/-- What a fabric transaction of a Weft context asks for (R42, R46). -/
inductive XKind where
  | load (d size : Nat) (sext : Bool)
  | store (size : Nat) (data : Word)
  | aadd (d : Nat) (b : Word)
  | acas (d : Nat) (cmp new : Word)
deriving DecidableEq, Repr

/-- A fabric transaction (R18 to R21): outstanding, or waiting for its grant. -/
structure Xact where
  slot : Nat
  ctx : Nat
  addr : Word
  kind : XKind
  /-- Instant at which it was issued, or began to wait. -/
  since : Nat
  /-- It has waited 1,024 CK_SYS cycles and counts as class 3 (R20). -/
  promoted : Bool
  /-- A posted store that met a bus error, whose error response is on its way (R58). -/
  failed : Bool
deriving DecidableEq, Repr

/-- The fabric (R12 to R21, R33). -/
structure Fabric where
  /-- Outstanding transactions, oldest first. -/
  out : List Xact
  /-- Terminated transactions whose response is still owed (R549). -/
  owed : List Xact
  /-- Requests that found no credit or reached a limit (R13), oldest first. -/
  waiting : List Xact
  /-- The fabric accepts no new transactions (R33). -/
  closed : Bool
  /-- CK_SYS cycle in which a target port last became free, by target (R19). -/
  portFree : Tab Nat
deriving DecidableEq, Repr

def Fabric.reset : Fabric := ⟨[], [], [], false, []⟩

/-- STOPPED, RUNNING or HALTED (R67). -/
inductive RunState where
  | stopped | running | halted
deriving DecidableEq, Repr

/-- A WAIT in progress (R51). -/
structure WaitState where
  mask : Word
  dest : Nat
  /-- Instant at which the cycle limit expires; none never times out. -/
  due : Option Nat
deriving DecidableEq, Repr

/-- Why a context is stalled (R64, R65). -/
inductive Stall where
  | none | fabric | bar
  | scall (d : Nat)
deriving DecidableEq, Repr

/-- An armed timer compare (R52): base `tb`, and the instant in its own unit: nanoseconds of the base, or
cycles of the sequencer for tb = 4. -/
structure TimerCmp where
  tb : Nat
  at_ : Nat
deriving DecidableEq, Repr

/-- A Weft context (R36, R37, R54, R67 to R70). -/
structure Context where
  w : Tab Word
  pc : Word
  acc : BitVec 64
  status : Word
  tvec : Word
  epc : Word
  tcause : Word
  tval : Word
  tscratch : Word
  cmp : Option TimerCmp
  /-- Parts 1 to 3 latched by the last read of part 0 of base tb, at key 4 · tb + part (R53). -/
  latch : Tab Word
  evtPend : Word
  evtOvf : Word
  /-- Events that met their own pending bit: event, cycle of the engine, and the EVT_OVF bit before. A WAIT that consumes the
  event in that cycle leaves it pending (R70). -/
  evtMeet : List (Nat × Nat × Bool)
  wdt : Word
  /-- Instant at which the watchdog expires, while it runs (R68). -/
  wdtDue : Option Nat
  /-- Ticks the watchdog had left when it was frozen. -/
  wdtLeft : Option Nat
  evtSel : Tab Word
  run : RunState
  /-- Halted by a double trap (R59): only a restart ends it. -/
  dead : Bool
  wait : Option WaitState
  stall : Stall
  /-- A restart ordered while a fabric access is outstanding (R67). -/
  restarting : Bool
  /-- Address of the store whose bus error waits in BUSPEND (R56, R58). -/
  busAddr : Word
deriving DecidableEq, Repr

def Context.reset : Context :=
  { w := [], pc := 0, acc := 0, status := 0, tvec := 0x60000000, epc := 0, tcause := 0, tval := 0, tscratch := 0,
    cmp := none, latch := [], evtPend := 0, evtOvf := 0, evtMeet := [], wdt := 0, wdtDue := none, wdtLeft := none, evtSel := [],
    run := .stopped, dead := false, wait := none, stall := .none, restarting := false, busAddr := 0 }

/-- Check bits of a memory word that do not match its data (R551). -/
inductive Damage where
  | none | single | double
deriving DecidableEq, Repr

/-- A word on its way to a mailbox (R73): its sender, the register that took the sender's answer, and the CK_SYS cycle in
which it was sent. -/
structure Sent where
  mbx : Nat
  word : Word
  sender : Nat
  dest : Nat
  cyc : Nat
deriving DecidableEq, Repr

/-- The Weft sequencers, the events on their way to them, and the mailboxes. -/
structure Weft where
  /-- Contexts, at key 4 · engine + context. -/
  ctx : Tab Context
  /-- Instant at which an engine's cycle counter was 0. -/
  cyc0 : Tab Nat
  /-- Sequencers claimed by the debugger (R81). -/
  claim : Tab Bool
  /-- Event copies on their way: context key and event number (R16, R70). -/
  flying : List (Nat × Nat)
  /-- Words held by mailbox m, oldest first (R72). -/
  mbx : Tab (List Word)
  /-- Words sent and not yet readable, oldest first (R73). -/
  mbxFly : List Sent
  /-- ENTRY of the contexts of the metrology sequencer and the pair, by context key (R79). -/
  entry : Tab Word
deriving DecidableEq, Repr

def Weft.reset : Weft := ⟨[], [], [], [], [], [], []⟩

/-- The check bits of the memories with ECC (R551), by word address. -/
structure Ecc where
  damage : Tab Damage
  /-- Corrected words waiting for their write-back. -/
  back : List Nat
  /-- Words with an open uncorrectable error. -/
  lost : List Nat
  /-- Words of `lost` that a full 32-bit write has rewritten and that have not yet been read back (R61). -/
  rewritten : List Nat
  /-- The word of the TCM of WS[n] whose failure opened the CONTAIN of code 0x03 (R61). -/
  opened : Tab Nat
  /-- The start-up test of shared SRAM, or of the TCMs, has failed: the contents are undefined (R553) but for the words of
  `known`, which have been written or read since. -/
  sramUndef : Bool
  tcmUndef : Bool
  known : List Nat
deriving DecidableEq, Repr

def Ecc.reset : Ecc := ⟨[], [], [], [], [], false, false, []⟩

/-- Supplies, clocks and resets (R500 to R514). -/
structure Power where
  /-- VIN is above V_STOP: PD_AON runs from VIN. -/
  vin : Bool
  /-- Instant from which VIN has been above V_ON without a break. -/
  vinOnAt : Option Nat
  /-- The supply reset is asserted (R505). -/
  supplyReset : Bool
  /-- RESET_N is low and qualified (R511). -/
  pinLow : Bool
  /-- The hub is held in reset. -/
  hubReset : Bool
  /-- The chip safe state is in force (R33). -/
  chipSafe : Bool
  /-- Reset sources that have asserted since the reset that is in force began, or since the raise of CHIP (R513). -/
  coincide : List Nat
  /-- Instant from which REFCLK has been absent. -/
  refLostAt : Option Nat
  /-- REFCLK is present at the PLLs. -/
  refclk : Bool
  /-- The always-on counter (R233, R509): its value in ticks at instant `aonAt`, and whether it counts. -/
  aonVal : Nat
  aonAt : Nat
  aonRun : Bool
  /-- CK_RTC is missing. -/
  rtcMissing : Bool
deriving DecidableEq, Repr

def Power.reset : Power :=
  { vin := true, vinOnAt := some 0, supplyReset := false, pinLow := false, hubReset := false, chipSafe := false,
    coincide := [], refLostAt := none, refclk := true, aonVal := 0, aonAt := 0, aonRun := true, rtcMissing := false }

/-- Start-up and the management port (R518 to R531). -/
structure Startup where
  /-- Instant of VIN valid. -/
  validAt : Option Nat
  /-- The first bank has been tried, and which one it was (0 bank A, 1 bank B). -/
  tried : List Nat
  /-- The bank whose images run, and the lowest ROLLBACK among them. -/
  bank : Option Nat
  lowRollback : Nat
  /-- The nonce of the last STATUS reply that no AUTH has used (R527). -/
  nonce : Option (List Byte)
  /-- Instant at which write access ends (R527). -/
  authUntil : Option Nat
  /-- Contexts that an image starts at application start, as context keys (R67, R523). -/
  toStart : List Nat
  /-- Start-up is not over: the reset notification and the reset behaviour of the load switches stay in force until the
  application starts (R523). -/
  booting : Bool
deriving DecidableEq, Repr

def Startup.reset : Startup := ⟨none, [], none, 0, none, none, [], true⟩

end Sys2Proof.Machine
end

