-- ==== Sys2Proof/Machine/TypesKeys.lean ====
section
/-!
DEFINITION. Machine/TypesKeys.lean: the state of the key store beside its registers (R396 to R412).
-/
namespace Sys2Proof.Machine

/-- A key with its policy (R396, R400): the key is the XOR of its two shares (R397). -/
structure KeyRec where
  alg : Nat
  use : Nat
  users : Nat
  shareA : List Byte
  shareB : List Byte
deriving DecidableEq, Repr

/-- A staging twin (R396): its key, and whether CHECK has passed. -/
structure Twin where
  key : KeyRec
  checked : Bool
deriving DecidableEq, Repr

/-- A secure call that waits for service (R405): the context, its function, the address of its argument block, and the
instant from which it waits. -/
structure KeyReq where
  ctx : Nat
  f : Nat
  block : Word
  since : Nat
deriving DecidableEq, Repr

structure KeyStore where
  slot : Tab (Option KeyRec)
  twin : Tab (Option Twin)
  /-- KROOT, in PD_AON (R398). -/
  root : Option KeyRec
  /-- TB[0] time in nanoseconds of a pending timed commit, by slot (R408). -/
  timed : Tab (Option Nat)
  reqs : List KeyReq
  /-- Instant of the last re-mask (R397), and of the last reseed attempt (R411). -/
  maskAt : Nat
  seedAt : Nat
deriving DecidableEq, Repr

def KeyStore.reset : KeyStore := ⟨[], [], none, [], [], 0, 0⟩

end Sys2Proof.Machine
end

