-- ==== Sys2Proof/Machine/TypesLedger.lean ====
section
/-!
DEFINITION. Machine/TypesLedger.lean: the state of metrology, the tariff unit, the event store and the tamper-current watch
beside their registers (R339 to R393).
-/
namespace Sys2Proof.Machine

/-- What the meter of an outlet holds (R346 to R350). -/
structure Meter where
  imp : Nat
  exp : Nat
  resImp : Nat
  resExp : Nat
  /-- Pulses owed, and the part of the next one: mWh × PCONST below 1,000,000. -/
  owed : Nat
  frac : Nat
  /-- Instant at which the last pulse began. -/
  pulseAt : Option Nat
  /-- Channels of the outlet that show no transition: bit 0 voltage, bit 1 current; the last that stopped; and the instant
  from which both have been valid. -/
  bad : Nat
  lastBad : Nat
  validAt : Option Nat
  /-- The running block holds a sample of an invalid channel. -/
  tainted : Bool
  /-- INVALID, and a loss of supply, since the last reading. -/
  invSeen : Bool
  lostSeen : Bool
deriving DecidableEq, Repr

def Meter.reset : Meter := ⟨0, 0, 0, 0, 0, 0, none, 0, 0, none, false, false, false⟩

/-- What a reading holds of its instant (R353). -/
structure ReadSnap where
  status : Nat
  imp : Nat
  exp : Nat
  sec : Nat
  ns : Nat
  lseq : Nat
  rate : Nat
deriving DecidableEq, Repr

/-- A reading request (R352): kind 1 start, 2 stop, 3 on request. -/
structure Reading where
  kind : Nat
  outlet : Nat
  session : List Byte
  /-- CK_LEDGER cycle of its arrival (R353). -/
  cyc : Nat
  snap : Option ReadSnap
deriving DecidableEq, Repr

/-- An open demand interval (R378, R381): TB[3] seconds and TAR_MONO ms at its opening, the TB[3] second of its boundary,
and its flags; import by channel, 8 the sum, in mWh. -/
structure Interval where
  startS : Nat
  openMs : Nat
  ends : Nat
  adj : Bool
  incomplete : Bool
  e : Tab Nat
deriving DecidableEq, Repr

/-- The maximum demand of a channel (R379). -/
structure MaxDemand where
  d : Nat
  rate : Nat
  sec : Nat
deriving DecidableEq, Repr

def MaxDemand.reset : MaxDemand := ⟨0, 0, 0⟩

/-- A prepaid account (R388 to R390). -/
structure Account where
  bal : Int
  res : Nat
  ecEn : Bool
  ecLim : Nat
  lowThr : Nat
  state : Nat
  /-- The last 16 TXIDs, newest first. -/
  txids : List Nat
deriving DecidableEq, Repr

def Account.reset : Account := ⟨0, 0, false, 0, 0, 3, []⟩

/-- The tariff unit (R370 to R391). Instants are nanoseconds of TB[3]. -/
structure Tariff where
  act : Option (List Byte)
  pas : Option (List Byte)
  /-- The instant of the activation. -/
  pasAt : Nat
  /-- The unit has been enabled. -/
  used : Bool
  /-- Energy by rate, at key 8 · o + r. -/
  imp : Tab Nat
  exp : Tab Nat
  rate : Nat
  friendly : Bool
  /-- The running demand interval; the last consumed boundary, TB[3] seconds; demand of the last interval by channel. -/
  open_ : Option Interval
  lastD : Nat
  last : Tab Nat
  md : Tab MaxDemand
  lastB : Nat
  /-- TAR_CMD.CLOSE waits for the next sample. -/
  close : Bool
  /-- Silent adjustments: TAR_MONO in ms, and magnitude in ns. -/
  silent : List (Nat × Nat)
  acc : Tab Account
  /-- The binding in force of O[o] (R388). -/
  bind : Tab Word
  tseq : Nat
  dseq : Nat
  bseq : Nat
  /-- TAR_MONO in ticks at instant `monoAt`; it stands while PD_LEDGER has no supply. -/
  mono : Nat
  monoAt : Nat
  /-- The last whole hour of TAR_MONO that automatic sync has looked at. -/
  hour : Nat
deriving DecidableEq, Repr

def Tariff.reset : Tariff :=
  { act := none, pas := none, pasAt := 0, used := false, imp := [], exp := [], rate := 0, friendly := false, open_ := none,
    lastD := 0, last := [], md := [], lastB := 0, close := false, silent := [], acc := [], bind := [], tseq := 0, dseq := 0,
    bseq := 0, mono := 0, monoAt := 0, hour := 0 }

/-- A copy of the energy state with the tariff state of the same sequence number (R358, R386). -/
structure Saved where
  seq : Nat
  meter : Tab Meter
  rseq : Nat
  req : Option Reading
  tariff : Tariff
deriving DecidableEq, Repr

structure Ledger where
  meter : Tab Meter
  /-- The parameter block in force, and one that waits for the next block end (R351). -/
  par : List Byte
  next : Option (List Byte)
  /-- Metering runs. -/
  running : Bool
  /-- The digest of the loaded instruction part and its length; a metrology image is loaded (R343). -/
  image : Bool
  codeLen : Nat
  digest : List Byte
  /-- Instants of the last CHK line, the last energy lines and the last check of the instruction memory. -/
  chkAt : Nat
  txAt : Nat
  imageAt : Nat
  req : Option Reading
  /-- The number of the next reading. -/
  rseq : Nat
  /-- Logbook entries written, and entries of the general log. -/
  entries : Nat
  gen : Nat
  /-- Copies A and B of the state, and the sequence number of the next. -/
  copyA : Option Saved
  copyB : Option Saved
  seq : Nat
  /-- Words of the MRAM with an uncorrectable error (R366). -/
  bad : List Nat
  /-- The instant at which a region reset began, whose entry 0x06 is still to be written (R361). -/
  resetAt : Option Nat
  /-- The Ledger has had no supply and not yet restored its state; seconds of the always-on counter at the loss; and whether
  a loss was logged (R359, R360). -/
  down : Bool
  cutS : Option Nat
  /-- The always-on domain has lost VBAT since the last restore (R363). -/
  aonLost : Bool
  /-- TB[3] has not been set since AON_LOST (R363, R385); a restore has found a valid state (R362). -/
  unset : Bool
  stateOk : Bool
  tariff : Tariff
  /-- The tamper-current watch: outlets seen, how often, and the always-on counter at the first and the last time (R364). -/
  tcwMask : Nat
  tcwCount : Nat
  tcwFirst : Nat
  tcwLast : Nat
deriving DecidableEq, Repr

def Ledger.reset : Ledger :=
  { meter := [], par := [], next := none, running := false, image := false, codeLen := 0, digest := [], chkAt := 0,
    txAt := 0, imageAt := 0, req := none, rseq := 0, entries := 0, gen := 0, copyA := none, copyB := none, seq := 0,
    bad := [], resetAt := none, down := true, cutS := none, aonLost := false, unset := false, stateOk := false, tariff := Tariff.reset, tcwMask := 0,
    tcwCount := 0, tcwFirst := 0, tcwLast := 0 }

end Sys2Proof.Machine
end

