-- ==== Sys2Proof/Machine/TypesLinks.lean ====
section
/-!
DEFINITION. Machine/TypesLinks.lean: the state of the outlet links beside their registers (R266 to R291).
-/
namespace Sys2Proof.Machine

/-- A line in qualification (R272): the reported state, the state measured last, and in how many periods in a row. -/
structure LineQual where
  rep : Nat
  cand : Nat
  count : Nat
deriving DecidableEq, Repr

def LineQual.reset : LineQual := ⟨0xF, 0xF, 0⟩

/-- The level sensing and drive of an outlet (R269 to R275). -/
structure Pilot where
  cp : LineQual
  id : LineQual
  /-- Instants of the reported changes of the last second, newest first. -/
  changes : List Nat
  /-- Periods in a row with a bad low level, and periods for which the diode check is suspended. -/
  diode : Nat
  hold : Nat
  /-- MODE and DUTY in effect. -/
  mode : Nat
  duty : Nat
  /-- Instant of the first passing reference conversion after a failure. -/
  passAt : Option Nat
deriving DecidableEq, Repr

def Pilot.reset : Pilot := ⟨LineQual.reset, LineQual.reset, [], 0, 0, 0, 0, none⟩

/-- A SLAC measurement in progress (R281): its deadline and the sums of the 58 groups. -/
structure Slac where
  due : Nat
  sums : List Nat
deriving DecidableEq, Repr

/-- A backbone neighbour (R285, R287): physical blocks of the present period and how many failed, the last refresh, the last
change of its tone map, a channel estimation in progress, the estimates of the period's symbols without a blanked sample in
order, and the tone map, none in ROBO mode. -/
structure Nbr where
  pbs : Nat
  failed : Nat
  refreshAt : Nat
  changedAt : Nat
  est : Bool
  ests : List (BitVec 32)
  map : Option Nat
deriving DecidableEq, Repr

def Nbr.reset : Nbr := ⟨0, 0, 0, 0, false, [], none⟩

/-- Rings stopped by a bus error (R279). -/
structure RingStop where
  stopped : Bool
  /-- A ring's EN has been written 0 since. -/
  off : Bool
  /-- EN is back at 1 and no frame has passed yet. -/
  wait : Bool
deriving DecidableEq, Repr

def RingStop.reset : RingStop := ⟨false, false, false⟩

structure Links where
  pilot : Tab Pilot
  slac : Tab (Option Slac)
  nbr : Tab Nbr
  ring : Tab RingStop
  /-- T1S ports that a failed self-check has stopped from sending (R290). -/
  phyFail : List Nat
deriving DecidableEq, Repr

def Links.reset : Links := ⟨[], [], [], [], []⟩

end Sys2Proof.Machine
end

