-- ==== Sys2Proof/Machine/TypesLoom.lean ====
section
/-!
DEFINITION. Machine/TypesLoom.lean: the state of Loom beside its registers (R83 to R108).
-/
namespace Sys2Proof.Machine

/-- A write to a shadow register: when, which, the word it replaced (R93), and whether a Twill OUT made it (R139). -/
structure ShadowWrite where
  at_ : Nat
  addr : Nat
  old : Word
  out : Bool
deriving DecidableEq, Repr

/-- One Loom channel (R84 to R103). Its committed values stand in State.live. -/
structure Channel where
  run : Bool
  /-- Start of the present period, and the period in effect; for a synchronised channel they are its source's. -/
  t0 : Nat
  per : Nat
  /-- The phase in effect (R89). -/
  phase : Nat
  /-- Periods completed since the start (R96). -/
  count : Nat
  /-- The midpoint of this period has passed. -/
  mid : Bool
  /-- Triggers that fired in this period; triggers that a phase jump passed, which fire in the CK_PWM cycle of the jump and
  not again in its period (R96). -/
  fired : List Nat
  jumped : List Nat
  jumpCyc : Nat
  ref : Bool
  /-- The outputs are active. -/
  outH : Bool
  outL : Bool
  /-- A dead time in progress: its end, and whether PWM_H turns on then (R86). -/
  dead : Option (Nat × Bool)
  /-- Dead times that a REF edge has overtaken: their pulses have no width (R87). -/
  missed : List (Nat × Bool)
  /-- The channel has run since the last reset: COUNT then shows what the spec does not state while it stands still. -/
  ran : Bool
  /-- Boundaries since the last commit that took a write; the stale trip has been made (R95). -/
  stale : Nat
  staleDone : Bool
  /-- Writes to shadow registers within the last 4 ns, oldest first, and whether an older one waits for a commit. -/
  recent : List ShadowWrite
  fresh : Bool
  /-- Instant at which ARM[n] was set (R94). -/
  armAt : Nat
  /-- An accepted CLR_TRIP waits for the boundary (R101). -/
  clear : Bool
  /-- End of the blanking window (R98). -/
  blank : Option Nat
  /-- Registers still to be written before code 0x02 recovers (R108). -/
  todo : List Nat
deriving DecidableEq, Repr

def Channel.reset : Channel :=
  { run := false, t0 := 0, per := 1600, phase := 0, count := 0, mid := false, fired := [], jumped := [], jumpCyc := 0, ref := false,
    outH := false, outL := false, dead := none, missed := [], ran := false, stale := 0, staleDone := false, recent := [], fresh := false, armAt := 0,
    clear := false, blank := none, todo := [] }

/-- A trip source: since when it has been active, and the instants of its assertions, newest first (R102). -/
structure TripSource where
  since : Option Nat
  times : List Nat
deriving DecidableEq, Repr

def TripSource.reset : TripSource := ⟨none, []⟩

structure Loom where
  ch : Tab Channel
  src : Tab TripSource
  /-- Qualified levels of TRIP[0..15]; a ball that nothing drives reads high (R98). -/
  pins : Nat
deriving DecidableEq, Repr

def Loom.reset : Loom := ⟨[], [], 0xFFFF⟩

/-- Loom after a reset of its registers: every channel stopped, but the registers that an open code 0x02 still asks to be
written stay asked for (R108), and the pins are what they are. -/
def Loom.restarted (l : Loom) : Loom :=
  { ch := (l.ch.filter (fun e => e.2.todo ≠ [])).map (fun e => (e.1, { Channel.reset with todo := e.2.todo })),
    src := [], pins := l.pins }

end Sys2Proof.Machine
end

