-- ==== Sys2Proof/Machine/TypesOut.lean ====
section
/-!
DEFINITION. Machine/TypesOut.lean: what leaves the chip. State keeps the messages in the order they leave, so that a
statement can say what was sent.
-/
namespace Sys2Proof.Machine

/-- How a PLC channel sends (R284, R285, R293): the phases it couples to, the carriers it leaves out, the PSD above
−90 dBm/Hz in 0.5 dB, the tone map (none: ROBO), and whether the frame is encrypted. -/
structure PlcTx where
  phases : Nat
  unused : Nat
  psd : Nat
  map : Option Nat
  sealed : Bool
deriving DecidableEq, Repr

/-- A message that left the chip. -/
inductive OutMsg where
  /-- A PTP message on port `port` (R240 to R242). -/
  | ptp (port : Nat) (m : PtpMsg)
  /-- A reply of the management port (R526): CMD + 0x80, SEQ, STATUS and payload. -/
  | mgmt (cmd seq status : Nat) (payload : List Byte)
  /-- A Zwidy frame on the ports of the mask (R197, R198): EtherType, priority, VLAN ID, demand or grant group, payload. -/
  | zwidy (ports etype pcp vid : Nat) (grant : Bool) (payload : List Byte)
  /-- An Ethernet-class frame on a T1S port (R278). -/
  | link (l : Nat) (frame : List Byte)
  /-- A frame on a PLC channel, 8 to 15 Green PHY, 16 the backbone (R278, R280, R283 to R285): how it is sent, and its bytes
  on the line. -/
  | plc (l : Nat) (how : PlcTx) (body : List Byte)
  /-- Re-sent physical blocks of the last frame of a PLC channel, by their index (R286). -/
  | pbs (l : Nat) (how : PlcTx) (which : List Nat)
  /-- A SACK: the physical blocks of a received frame whose check failed (R286). -/
  | sack (l : Nat) (which : List Nat)
  /-- A frame on CAN_TX[n] (R487), its nominal and its data bit time in cycles of CK_FIELD (R483). -/
  | can (n : Nat) (f : CanFrame) (bit data : Nat)
  /-- A line of LEGAL_TX, CR LF with it (R344). -/
  | legal (line : List Byte)
deriving DecidableEq, Repr

end Sys2Proof.Machine
end

