-- ==== Sys2Proof/Machine/TypesSafety.lean ====
section
/-!
DEFINITION. Machine/TypesSafety.lean: the state of Selvedge beside its registers (R415 to R444).
-/
namespace Sys2Proof.Machine

/-- A safe input pair (R426 to R430): its filtered levels stand in SFS_RAW. -/
structure SafePair where
  disc : Bool
  stuck : Bool
  /-- STUCK was set by RATE_LIM. -/
  rate : Bool
  /-- The pair has been OK without a break since. -/
  okSince : Option Nat
  /-- The two channels have disagreed without a break since. -/
  disSince : Option Nat
deriving DecidableEq, Repr

def SafePair.reset : SafePair := ⟨false, false, false, none, none⟩

/-- A safe output (R431 to R434): ENERG, SOFT and FAULT stand in its registers. -/
structure SafeOut where
  /-- The soft opening began. -/
  softAt : Option Nat
  /-- The next off-pulse of channel A and of channel B. -/
  nextA : Option Nat
  nextB : Option Nat
  /-- The off-pulse in progress: channel B, and its start. -/
  pulse : Option (Bool × Nat)
deriving DecidableEq, Repr

def SafeOut.reset : SafeOut := ⟨none, none, none, none⟩

/-- The raw current codes of an outlet (R433): the last four, newest first, the instant of the last, and whether none
has arrived for 1 ms. -/
structure RawCurrent where
  codes : List Int
  last : Option Nat
  gap : Bool
deriving DecidableEq, Repr

def RawCurrent.reset : RawCurrent := ⟨[], none, false⟩

structure Selvedge where
  /-- Inbound words of the safety mailbox that have been sent and not yet handled, oldest first (R435). -/
  inbox : List Word
  /-- USER words held for the pair's program (R421, R435). -/
  user : List Word
  /-- Outbound words, oldest first. -/
  outbox : List Word
  pairs : Tab SafePair
  outs : Tab SafeOut
  current : Tab RawCurrent
  /-- The present permit ends; none while there is none (R436). -/
  permitDue : Option Nat
  /-- The next safety cycle starts; none until a program runs (R420). -/
  cycleAt : Option Nat
  /-- A cycle has started, so that a commit is due before the next. -/
  cycleOpen : Bool
  /-- SFS_OUT_EN, and then SFS_OUT_CMT, has been written in this cycle. -/
  enSeen : Bool
  committed : Bool
  /-- STATE becomes RUN at the next cycle start (R425). -/
  toRun : Bool
  /-- The next recomputation of the CRC (R423). -/
  crcAt : Option Nat
  /-- The last 1 ms window of CK_SAFE lay outside its range (R416). -/
  badCount : Bool
  /-- The test window ends; the test in it has failed (R437). -/
  brakeEnd : Option Nat
  brakeFailed : Bool
  /-- BT_AGE counts from here (R438). -/
  ageAt : Nat
  /-- Words of a CONFIRM message taken, its check value, and when the next word is late (R425). -/
  confSeen : Nat
  confWord : Word
  confDue : Option Nat
  /-- CONF_CHK and CONF_PROG in their non-volatile cells (R424). -/
  nvChk : Word
  nvProg : Word
deriving DecidableEq, Repr

def Selvedge.reset : Selvedge :=
  { inbox := [], user := [], outbox := [], pairs := [], outs := [], current := [], permitDue := none, cycleAt := none,
    cycleOpen := false, enSeen := false, committed := false, toRun := false, crcAt := none, badCount := false,
    brakeEnd := none, brakeFailed := false, ageAt := 0, confSeen := 0, confWord := 0, confDue := none, nvChk := 0,
    nvProg := 0 }

end Sys2Proof.Machine
end

