-- ==== Sys2Proof/Machine/TypesSense.lean ====
section
/-!
DEFINITION. Machine/TypesSense.lean: the state of converter sensing beside its registers (R149 to R164).
-/
namespace Sys2Proof.Machine

/-- A sample in conversion, or a request that waits (R152): sample group and multiplexer position, the sample instant, the
instant of the request, and the firing of the group that it belongs to. -/
structure Sample where
  grp : Nat
  pos : Nat
  at_ : Nat
  asked : Nat
  shot : Nat
deriving DecidableEq, Repr

/-- One ADC (R150 to R154). -/
structure Adc where
  /-- Instant of the last sample. -/
  last : Option Nat
  /-- Samples whose codes are not complete, oldest first. -/
  busy : List Sample
  waiting : Option Sample
  /-- Stopped by VCHK; re-enabled and waiting for a good VCHK (R154). -/
  stopped : Bool
  recover : Bool
deriving DecidableEq, Repr

def Adc.reset : Adc := ⟨none, [], none, false, false⟩

/-- One input: when its result was last written, and the sample instant of that result. -/
structure Ain where
  wrote : Option Nat
  sampled : Nat
deriving DecidableEq, Repr

def Ain.reset : Ain := ⟨none, 0⟩

/-- The current-sum check of an outlet (R162). -/
structure SumCheck where
  /-- The check is suspended until. -/
  hold : Option Nat
  bad : Nat
  good : Nat
  /-- The mismatch has been noted, until three good evaluations follow. -/
  noted : Bool
  /-- Instant of the last evaluation. -/
  last : Option Nat
deriving DecidableEq, Repr

def SumCheck.reset : SumCheck := ⟨none, 0, 0, false, none⟩

/-- A weld check in progress (R163): its target, its end, the least and the greatest |ΔV| so far, and whether it is an
ERROR. -/
structure WeldCheck where
  outlet : Bool
  tgt : Nat
  due : Nat
  lo : Option Nat
  hi : Nat
  err : Bool
deriving DecidableEq, Repr

/-- A held coil command (R160): the state asked for, and XP_HOLD's end. -/
structure HeldCoil where
  close : Bool
  due : Nat
deriving DecidableEq, Repr

structure Sense where
  adc : Tab Adc
  ain : Tab Ain
  /-- Conversions that are not readable yet, by firing, and the number of firings. -/
  left : Tab Nat
  shots : Nat
  /-- Held coil commands by crosspoint. -/
  held : Tab (Option HeldCoil)
  sum : Tab SumCheck
  weld : Option WeldCheck
  /-- The voltage in µV at the input of CMP[k] as last reported (R155). -/
  level : Tab (Option Nat)
deriving DecidableEq, Repr

def Sense.reset : Sense := ⟨[], [], [], 0, [], [], none, []⟩

/-- Converter sensing after a reset: the voltages at its inputs are what they are. -/
def Sense.restarted (x : Sense) : Sense := { Sense.reset with level := x.level }

end Sys2Proof.Machine
end

