-- ==== Sys2Proof/Machine/TypesSession.lean ====
section
/-!
DEFINITION. Machine/TypesSession.lean: the state of the charging session engine beside its registers (R294 to R313).
-/
namespace Sys2Proof.Machine

structure Session where
  /-- The channel that the codec and the TLS engine served last (R296). -/
  lastCodec : Nat
  lastTls : Nat
  /-- Ring places of a channel completed ahead of TAIL (R296). -/
  ahead : Tab (List Nat)
  /-- Expiry of the channel timer (R305). -/
  due : Tab (Option Nat)
  /-- Channels whose EN has been written 0 since their ring stopped, and those that wait for a job to complete (R311). -/
  off : List Nat
  wait : List Nat
deriving DecidableEq, Repr

def Session.reset : Session := ⟨7, 7, [], [], [], []⟩

end Sys2Proof.Machine
end

