-- ==== Sys2Proof/Machine/TypesSite.lean ====
section
/-!
DEFINITION. Machine/TypesSite.lean: the state of the Saltern, of the Zwidy engine and of grid measurement beside their
registers (R170 to R265).
-/
namespace Sys2Proof.Machine

/-- The local part of a grant set: its period number, its apply time in nanoseconds of TB[0], and the eight grants.
`decay` marks a set that the hold of R217 formed. -/
structure GrantSet where
  pnum : Nat
  apply_ : Nat
  grants : List Nat
  decay : Bool
deriving DecidableEq, Repr

/-- A write that may have missed the next boundary's deadline (R177): its instant, and the word it replaced. -/
structure LateWrite where
  at_ : Nat
  addr : Nat
  old : Word
deriving DecidableEq, Repr

/-- A solve in progress (R176): its boundary, its start, and the part of its snapshot that may change meanwhile. -/
structure Solve where
  bound : Nat
  started : Nat
  act : Bool
  edem : Nat
  stale : List Nat
deriving DecidableEq, Repr

structure Saltern where
  /-- MODE in force (R170). -/
  mode : Nat
  /-- The last boundary met, in nanoseconds of TB[0]. -/
  bound : Option Nat
  solve : Option Solve
  /-- Writes that may have missed the deadline of a boundary, oldest first. -/
  late : List LateWrite
  /-- Demands written since the previous solve start, by outlet: the instant of the first write. -/
  fresh : Tab (Option Nat)
  /-- Consecutive solves without a fresh demand, by outlet. -/
  idle : Tab Nat
  /-- Instants of the GO and of the CLRs that no solve start has taken. -/
  goAt : Option Nat
  clrs : List Nat
  /-- Raises that no solve start has taken: instant, e, and SAL_EMRG_STAT before. -/
  raises : List (Nat × Nat × Word)
  /-- Apply time of the set published last, since MODE 0b10 took effect. -/
  lastApply : Option Nat
  /-- Pending sets of the apply unit, in the order of R188. -/
  sets : List GrantSet
  /-- Sets handed to the apply unit and not yet taken, oldest first. -/
  hand : List GrantSet
  /-- Period number of the set applied last, and the instant of its apply time. -/
  applied : Nat
  appliedAt : Option Nat
  /-- Level of the grid line as the Saltern last saw it. -/
  line : Bool
  /-- Table words with an uncorrectable error that nothing has rewritten. -/
  bad : List Nat
deriving DecidableEq, Repr

def Saltern.reset : Saltern :=
  { mode := 0, bound := none, solve := none, late := [], fresh := [], idle := [], goAt := none, clrs := [],
    raises := [], lastApply := none, sets := [], hand := [], applied := 0, appliedAt := none, line := false, bad := [] }

/-- A swap countdown on the old leader (R219, R220): SWAP_IN of the next frame, and once the frame with 1 is sent, the
handover boundary, the standby it is handed to and the epoch of that frame. -/
structure SwapOut where
  left : Nat
  bh : Option Nat
  cab : Nat
  epoch : Nat
deriving DecidableEq, Repr

/-- The set accepted last (R213): its sender and the epoch of its frame, its LAST_B, and the set. -/
structure ZwLast where
  cab : Nat
  epoch : Nat
  lastB : Nat
  set : GrantSet
deriving DecidableEq, Repr

structure Zwidy where
  /-- The last boundary met, in nanoseconds of TB[0]; the boundary of the last demand frame sent. -/
  bound : Option Nat
  sampled : Option Nat
  /-- Writes to ZW_DEM of the last 1 µs, oldest first (R204). -/
  late : List LateWrite
  /-- Instant and CFG_CRC of the last accepted demand frame, and the target boundaries of all that were accepted, by
  cabinet (R197, R208, R210). -/
  heard : Tab (Option Nat)
  crc : Tab Nat
  targets : Tab (List Nat)
  /-- Apply time of the last accepted grant frame, by sender. -/
  apply_ : Tab (Option Nat)
  /-- A leader frame has been accepted since the last boundary; consecutive boundaries without one. -/
  got : Bool
  miss : Nat
  /-- The last grant frame that reached the engine was accepted (R210). -/
  tookLast : Bool
  /-- Start of the LISTEN_MS window; end of the claim wait; end of the takeover timer. -/
  listenAt : Option Nat
  claimAt : Option Nat
  takeAt : Option Nat
  /-- Instant of the last accepted grant frame. -/
  grantAt : Option Nat
  /-- Instant of a write of ZW_CTRL that took the quorum away (R211). -/
  noQuorum : Option Nat
  /-- LEADER from the next boundary (R209, R219, R220), and the first boundary at which MODE 0b10 may take effect. -/
  claim : Bool
  leadFrom : Nat
  last : Option ZwLast
  /-- CFG_CRC of the leader's last grant frame (R210). -/
  leaderCrc : Option Nat
  /-- Sets that wait for their handover (R205), oldest first. -/
  wait : List GrantSet
  /-- The cabinet whose grant frames alone are accepted, and the epoch of its frame, from the next boundary and now (R213). -/
  winner : Option (Nat × Nat)
  only : Option (Nat × Nat)
  swap : Option SwapOut
  /-- Grants of the last decay set (R217). -/
  decay : List Nat
  /-- A frame buffer failed and no frame has passed since (R226). -/
  lost : Bool
  /-- The partner's line was last qualified high; both claims count as asserted (R223). -/
  partner : Bool
  both : Bool
deriving DecidableEq, Repr

def Zwidy.reset : Zwidy :=
  { bound := none, sampled := none, late := [], heard := [], crc := [], targets := [], apply_ := [], got := false, miss := 0, tookLast := false,
    listenAt := none, claimAt := none, takeAt := none, grantAt := none, noQuorum := none, claim := false, leadFrom := 0,
    last := none, leaderCrc := none,
    wait := [], winner := none, only := none, swap := none, decay := [], lost := false, partner := false, both := false }

/-- Updates in a row at which a response condition was met and released (R258). -/
structure GridCond where
  met : Nat
  rel : Nat
deriving DecidableEq, Repr

def GridCond.reset : GridCond := ⟨0, 0⟩

/-- The last output sample of a channel (R252, R253, R261): its 24-bit value and its flags. -/
structure GridSample where
  value : Int
  inv : Bool
  step : Bool
  high : Bool
deriving DecidableEq, Repr

def GridSample.reset : GridSample := ⟨0, false, false, false⟩

structure Grid where
  cond : Tab GridCond
  /-- The reason of the last line rise (R257). -/
  reason : Nat
  /-- The instant from which an invalid channel's bitstream has been valid again, by channel. -/
  validAt : Tab (Option Nat)
  /-- The last sample of each channel (R252). -/
  sample : Tab GridSample
  /-- The place of the recorder's next instant in its circular buffer, the instants recorded before a trigger, and those of
  the post-trigger part; when that part ends (R261, R262). -/
  recPos : Nat
  preN : Nat
  postN : Nat
  heldAt : Option Nat
  /-- The time tag of the last data frame, in nanoseconds of TB[0] (R256). -/
  tag : Option Nat
  /-- Estimated frequencies of the last updates in mHz, newest first (R258). -/
  freqs : List Nat
  /-- Reporting and recording have stopped on a bus error (R263); EN has been written 0 since. -/
  stopped : Bool
  cycled : Bool
  /-- The millisecond of TB[0] of the last update. -/
  ms : Option Nat
  /-- Channels whose RMS was outside LVL at the last update, as a mask. -/
  outside : Nat
deriving DecidableEq, Repr

def Grid.reset : Grid := ⟨[], 0, [], [], 0, 0, 0, none, none, [], false, false, none, 0⟩

end Sys2Proof.Machine
end

