-- ==== Sys2Proof/Machine/TypesSwitch.lean ====
section
/-!
DEFINITION. Machine/TypesSwitch.lean: the state of the load switches beside their registers (R445 to R457, R533).
-/
namespace Sys2Proof.Machine

/-- A high-side channel: STATE, RCNT and its flags stand in HS[n].STAT. -/
structure LoadSwitch where
  /-- The channel's drive (R445), and since when it has had its value. -/
  drive : Bool
  driveAt : Nat
  /-- The drive kept after a reset until firmware writes (R455). -/
  hold : Option Bool
  /-- R224 held the channel off when its drive was last judged. -/
  barred : Bool
  /-- The level driven when the reset asserted (R454). -/
  keep : Bool
  /-- End of the retry wait, or the ticks of it that are left while the thermal latch holds (R445, R450). -/
  retryAt : Option Nat
  retryLeft : Option Nat
  /-- End of the inrush window (R447). -/
  inrushEnd : Nat
  /-- The output has been on without a break or a trip since (R446). -/
  onAt : Option Nat
  /-- The thermal latch set while the channel was in current limit (R450). -/
  thermTrip : Bool
  /-- When the last overcurrent trip was counted, and when the last retry turned the channel on (R445, R457). -/
  tripAt : Option Nat
  retried : Option Nat
  /-- The fuse integrator at instant `fuseAt`, in mA² × 100 µs (R449). -/
  fuse : Nat
  fuseAt : Nat
deriving DecidableEq, Repr

def LoadSwitch.reset : LoadSwitch :=
  { drive := false, driveAt := 0, hold := none, barred := false, keep := false, retryAt := none, retryLeft := none, inrushEnd := 0,
    onAt := none, thermTrip := false, tripAt := none, retried := none, fuse := 0, fuseAt := 0 }

structure Switches where
  hs : Tab LoadSwitch
  /-- The reset behaviour of R454 is in force. -/
  behave : Bool
  /-- Qualified levels of LH_IN[0..5]. -/
  level : Nat
  /-- Instants of the level changes of LH_IN[k] within the last second, newest first. -/
  edges : Tab (List Nat)
  /-- When LH_IN[k] became stuck, while it is. -/
  stuckAt : Tab (Option Nat)
  /-- IS_SEL[0..3], qualified (R452). -/
  isSel : Nat
  /-- VIN exceeds V_OVP (R533). -/
  overV : Bool
deriving DecidableEq, Repr

def Switches.reset : Switches := ⟨[], true, 0, [], [], 0, false⟩

end Sys2Proof.Machine
end

