-- ==== Sys2Proof/Machine/TypesThermal.lean ====
section
/-!
DEFINITION. Machine/TypesThermal.lean: the state of the thermal unit beside its registers (R314 to R338).
-/
namespace Sys2Proof.Machine

/-- An input TS[n] (R315 to R318): its last valid reading in 0.1 °C, if any, and conversions in a row that were broken, valid
after a break, disagreeing, and agreeing. -/
structure Sensor where
  reading : Option Int
  bad : Nat
  good : Nat
  far : Nat
  near : Nat
deriving DecidableEq, Repr

def Sensor.reset : Sensor := ⟨none, 0, 0, 0, 0⟩

/-- An outlet's cable (R321 to R328): MT in 10^-9 °C, whether the model is in its throttle band, the values DA has held with
the instant up to which it held each, newest first, the start of the hold, whether a reset has kept MT since EN last rose, and
the readings of the running interval: the sum of i × i in 2^-62 / 100 A², and how many. -/
structure Cable where
  mt : Int
  throt : Bool
  hist : List (Nat × Nat)
  holdAt : Option Nat
  kept : Bool
  sum : Nat
  seen : Nat
deriving DecidableEq, Repr

def Cable.reset : Cable := ⟨0, false, [], none, false, 0, 0⟩

/-- A fan or pump channel (R330, R331): its last edge, the instant from which its speed has been low with the duty at DMIN or
more, the instant from which it has been high enough, and the duty held through a reset. -/
structure Fan where
  edge : Option Nat
  lowAt : Option Nat
  okAt : Option Nat
  held : Option Nat
deriving DecidableEq, Repr

def Fan.reset : Fan := ⟨none, none, none, none⟩

structure Thermal where
  sensor : Tab Sensor
  cable : Tab Cable
  fan : Tab Fan
  /-- Records that wait for the event store, oldest first (R327). -/
  queue : List (List Byte)
  /-- The instant from which the reference check has passed again (R335). -/
  passAt : Option Nat
  /-- The instant from which every TJ has been below TJ_WARN (R332). -/
  coolAt : Option Nat
deriving DecidableEq, Repr

def Thermal.reset : Thermal := ⟨[], [], [], [], none, none⟩

end Sys2Proof.Machine
end

