-- ==== Sys2Proof/Machine/TypesTime.lean ====
section
/-!
DEFINITION. Machine/TypesTime.lean: the state of the time unit and of the PTP block beside their registers (R229 to R250).
-/
namespace Sys2Proof.Machine

/-- The discipline a base has in effect (R231). -/
inductive TbSrc where
  | soft | ptp | can
  | follow (n : Nat)
deriving DecidableEq, Repr

/-- A scheduled step (R235): absolute or relative, in nanoseconds, and the latest instant at which it applies. -/
structure TbStep where
  abs : Bool
  ns : Int
  due : Nat
deriving DecidableEq, Repr

/-- A time base (R230, R236, R237). `val` is its value at CK_NET cycle `cyc`, in units of 10^-12 of 2^-16 ns:
the internal accumulator loses nothing. -/
structure TimeBase where
  cyc : Nat
  val : Nat
  rate : Int
  src : TbSrc
  step : Option TbStep
  /-- Offsets handed over by the slave port or the CAN controller and not yet taken, oldest first. -/
  theta : List Int
  integ : Int
  rate0 : Int
  /-- Rates at the last 16 offsets, newest first. -/
  rates : List Int
  lockCnt : Nat
  /-- Instant of the last offset. -/
  lastOff : Nat
  /-- Instant at which HOLDOVER was entered. -/
  holdAt : Option Nat
  /-- Steps that the base has made (R493), the CK_NET cycle of the last one (R246), and by how much it moved the base, in
  2^-16 ns modulo its span (R486). -/
  steps : Nat
  stepCyc : Option Nat
  stepBy : Nat
deriving DecidableEq, Repr

def TimeBase.reset : TimeBase := ⟨0, 0, 0, .soft, none, [], 0, 0, [], 0, 0, none, 0, none, 0⟩

/-- A timed output (R244, R245). Instants are nanoseconds of its base. -/
structure Tout where
  active : Bool
  /-- START, with the seconds [47:32] taken at arming. -/
  start : Nat
  /-- The next instant at which the output goes active. -/
  next : Option Nat
  /-- The instant at which the pulse in progress ends. -/
  off : Option Nat
  /-- The one-shot has fired. -/
  fired : Bool
  /-- PERIOD and WIDTH in force since arming. -/
  period : Nat
  width : Nat
deriving DecidableEq, Repr

def Tout.reset : Tout := ⟨false, 0, none, none, false, 0, 0⟩

/-- A captured stamp (R246): its time in 2^-16 ns, and the CK_NET cycle in which its qualification ended. -/
structure Stamp where
  time : Nat
  rising : Bool
  stepped : Bool
  cyc : Nat
deriving DecidableEq, Repr

/-- An edge in qualification (R246). -/
structure EdgeWait where
  rising : Bool
  since : Nat
  stepped : Bool
deriving DecidableEq, Repr

/-- A capture input (R246). -/
structure Tcap where
  edge : Option EdgeWait
  fifo : List Stamp
  /-- Instants of the qualified edges of the last 1 ms, newest first. -/
  edges : List Nat
  /-- The qualified level of the input. -/
  level : Bool
deriving DecidableEq, Repr

def Tcap.reset : Tcap := ⟨none, [], [], false⟩

/-- An entry of a transmit time-stamp FIFO (R241). -/
structure TxStamp where
  seq : Nat
  kind : Nat
  sec : Nat
  ns : Nat
  frac : Nat
deriving DecidableEq, Repr

/-- A Sync or Pdelay exchange a port remembers: its sequenceId, the stamp taken here and the correction, in 2^-16 ns. -/
structure PtpSeen where
  seq : Nat
  stamp : Int
  corr : Int
deriving DecidableEq, Repr

/-- A PTP port (R240, R241). -/
structure PtpPort where
  fifo : List TxStamp
  /-- The Sync a two-step slave waits for the Follow_Up of. -/
  sync : Option PtpSeen
  /-- The Pdelay_Req or Delay_Req sent and not yet answered: its egress stamp. -/
  req : Option PtpSeen
  /-- The Pdelay_Resp received in two-step mode: ingress stamp, and the turnaround start it carries. -/
  resp : Option PtpSeen
  seq : Nat
  /-- The self-check failed: the port sends no PTP event message (R247). -/
  failed : Bool
  /-- Instants of the last Sync and of the last request that the port sent. -/
  syncAt : Option Nat
  pdAt : Option Nat
  /-- Ingress stamp of the last Sync less its origin and corrections: what Delay request-response adds to (R239). -/
  path : Option Int
deriving DecidableEq, Repr

def PtpPort.reset : PtpPort := ⟨[], none, none, none, 0, false, none, none, none⟩

/-- A Sync the transparent clock forwarded in two-step mode and whose Follow_Up it still has to correct (R242). -/
structure TcSync where
  port : Nat
  seq : Nat
  add : Int
  at_ : Nat
deriving DecidableEq, Repr

structure Time where
  tb : Tab TimeBase
  tout : Tab Tout
  tcap : Tab Tcap
  port : Tab PtpPort
  tc : List TcSync
deriving DecidableEq, Repr

/-- The bases by number at power-on: TB[0] from PTP, TB[1] follows TB[0], the others SOFT (R229). -/
def TimeBase.initial (n : Nat) : TimeBase :=
  { TimeBase.reset with src := if n = 0 then .ptp else if n = 1 then .follow 0 else .soft }

def Time.reset : Time := ⟨[], [], [], [], []⟩

end Sys2Proof.Machine
end

