-- ==== Sys2Proof/Machine/TypesTwill.lean ====
section
/-!
DEFINITION. Machine/TypesTwill.lean: the state of Twill beside its registers (R111 to R146).
-/
namespace Sys2Proof.Machine

/-- A slot run in progress (R119 to R124): its slot, the instant of the trigger that started it, the cycles it has taken,
and the port that WAITIN waits for with the instant from which it waits. -/
structure SlotRun where
  slot : Nat
  trig : Nat
  cyc : Nat
  wait : Option (Nat × Nat)
deriving DecidableEq, Repr

/-- One engine (R111). -/
structure Engine where
  pc : Nat
  acc : Tab (BitVec 64)
  run : Option SlotRun
  /-- Trigger instants of pending slots, and overruns in consecutive trigger periods, by slot. -/
  trigAt : Tab Nat
  ovr : Tab Nat
  /-- The ports 0x230 to 0x268 as sampled at the start of the run (R113). -/
  port : Tab Word
  rref : Tab Word
  /-- PRESET values that wait for the next slot start (R136). -/
  preset : Tab (Option Word)
  selIdx : Nat
  /-- Coefficient registers written since the last GO; the closed sets that wait for a slot start (R140). -/
  coefNew : List Nat
  coefSet : List (Nat × Word)
  /-- The word of M that the last STA wrote, and the instant (R148). -/
  sta : Option (Nat × Nat)
  /-- The slot whose run opened the record with code 0x03, and the slot of code 0x05 (R145). -/
  abortSlot : Nat
  limitSlot : Nat
  /-- The memory word whose uncorrectable error opened the record, until it is rewritten (R145 code 0x06). -/
  badWord : Option Nat
deriving DecidableEq, Repr

def Engine.reset : Engine :=
  { pc := 0, acc := [], run := none, trigAt := [], ovr := [], port := [], rref := [], preset := [], selIdx := 0,
    coefNew := [], coefSet := [], sta := none, abortSlot := 0, limitSlot := 0, badWord := none }

/-- A pulse set-point input (R134): its last qualified edge, the start of its timeout, the number of its qualified edges,
and the frequency that the port reads. -/
structure PulseIn where
  last : Option Nat
  since : Nat
  count : Word
  freq : Word
deriving DecidableEq, Repr

def PulseIn.reset : PulseIn := ⟨none, 0, 0, 0⟩

structure Twill where
  eng : Tab Engine
  /-- What AIN_SP[j] reads: the filtered code in units of 2^-19 of a code (R133). -/
  ain : Tab Nat
  pin : Tab PulseIn
  /-- TLIM[o] as the thermal unit last wrote it (R132). -/
  tlim : Tab Word
deriving DecidableEq, Repr

def Twill.reset : Twill := ⟨[], [], [], []⟩

/-- What an engine keeps of an open CONTAIN through a reset: what its recovery waits for (R30, R145). -/
def Engine.restarted (x : Engine) : Engine :=
  { Engine.reset with abortSlot := x.abortSlot, limitSlot := x.limitSlot, badWord := x.badWord }

/-- Twill after a reset of its registers (R141); TLIM is what the thermal unit last wrote (R132). DESIGN CHOICE: coefficients
written and not yet taken by a slot start are in no set any more, whether or not GO had closed theirs (log entry 143). -/
def Twill.restarted (t : Twill) : Twill :=
  { Twill.reset with
    eng := (t.eng.map (fun e => (e.1, e.2.restarted))).filter (fun e => e.2 ≠ Engine.reset), tlim := t.tlim }

end Sys2Proof.Machine
end

