-- ==== Sys2Proof/Syntax.lean ====
section
/-!
DEFINITION. Syntax.lean: the commands of the GC-9600, one constructor per row of spec/opcode_table.json.
-/
namespace Sys2Proof

/-- A command: an operation or an event of the chip, with what comes with it from outside. -/
inductive Instr where
  /-- REGISTER_WRITE (R5): A fabric write to a register that has no row of its own acts according to its access code. -/
  | registerWrite (slot : Fin 19) (addr data : Word) (size : Fin 3)
  /-- TRANSACTION_TIMEOUT (R21): A transaction that is not complete at FAB_TMO.LIMIT is terminated with a bus error, and CONTAIN 0xF2 is raised in the target. -/
  | transactionTimeout (k : Fin 128)
  /-- ARBITRATION_PROMOTION (R20): A request that has waited 1,024 CK_SYS cycles is treated as class 3 until it is granted. -/
  | arbitrationPromotion (k : Nat)
  /-- NOTE_LIMIT_EXCEEDED (R23): More than NOTE_LIMIT NOTEs from one block within 1 s raises CONTAIN 0xF0. -/
  | noteLimitExceeded (blk : BlockId)
  /-- BLOCK_TIMER_EXPIRY (R23): An uncleared CONTAIN outlasts BLK_TMO and escalates to REGION, or to CHIP for a hub block. -/
  | blockTimerExpiry (blk : BlockId)
  /-- REGION_RESET_COMPLETE (R24): The reset of a region completes, so the region can be confirmed up. -/
  | regionResetComplete (r : Fin 4)
  /-- REGION_TIMER_EXPIRY (R23): A region that is not up within REG_TMO escalates to CHIP. -/
  | regionTimerExpiry (r : Fin 4)
  /-- CHIP_TIMER_EXPIRY (R33): ERR_CHIP_TMO.LIMIT expires in the chip safe state, and a hub reset follows. -/
  | chipTimerExpiry
  /-- BRIDGE_HANDSHAKE_STALL (R25): A bridge handshake stalled for more than 10 µs raises REGION 0xF3 in the region beyond it. -/
  | bridgeHandshakeStall (r : Fin 4)
  /-- LADDER_COPY_FAULT (R25): A fault in a copy of the error ladder, or in a fabric-root bridge handshake, raises CHIP directly. -/
  | ladderCopyFault (bridge : Bool) (n : Fin 4)
  /-- ERR_ACK (R24): Writing ERR_BLK.CTRL.ACK clears an open CONTAIN once RECOVERED is 1. -/
  | errAck (blk : BlockId)
  /-- REGION_UP (R24): Writing ERR_REG.CTRL.UP confirms a region up once its reset has completed, and stops the region timer. -/
  | regionUp (r : Fin 4)
  /-- ERR_RECORD_CLEAR (R34): Writing 0b111 to GRADE clears a record whose OPEN is 0. -/
  | errRecordClear (rec : RecordId)
  /-- ERR_LOCK (R35): Writing ERR_LOCK.LOCK makes the timer configuration read-only until the next hub reset. -/
  | errLock
  /-- ADD (R42): Weft wrapping addition. -/
  | add (c : CtxId) (d a b : Fin 32)
  /-- SUB (R42): Weft wrapping subtraction. -/
  | sub (c : CtxId) (d a b : Fin 32)
  /-- AND (R42): Weft bitwise AND. -/
  | and (c : CtxId) (d a b : Fin 32)
  /-- OR (R42): Weft bitwise OR. -/
  | or (c : CtxId) (d a b : Fin 32)
  /-- XOR (R42): Weft bitwise XOR. -/
  | xor (c : CtxId) (d a b : Fin 32)
  /-- SLL (R42): Weft shift left by a register amount. -/
  | sll (c : CtxId) (d a b : Fin 32)
  /-- SRL (R42): Weft logical shift right by a register amount. -/
  | srl (c : CtxId) (d a b : Fin 32)
  /-- SRA (R42): Weft arithmetic shift right by a register amount. -/
  | sra (c : CtxId) (d a b : Fin 32)
  /-- SLLI (R42): Weft shift left by the constant k. -/
  | slli (c : CtxId) (d a k : Fin 32)
  /-- SRLI (R42): Weft logical shift right by the constant k. -/
  | srli (c : CtxId) (d a k : Fin 32)
  /-- SRAI (R42): Weft arithmetic shift right by the constant k. -/
  | srai (c : CtxId) (d a k : Fin 32)
  /-- SLT (R42): Weft signed set-if-less-than. -/
  | slt (c : CtxId) (d a b : Fin 32)
  /-- SLTU (R42): Weft unsigned set-if-less-than. -/
  | sltu (c : CtxId) (d a b : Fin 32)
  /-- MIN (R42): Weft signed minimum. -/
  | min (c : CtxId) (d a b : Fin 32)
  /-- MAX (R42): Weft signed maximum. -/
  | max (c : CtxId) (d a b : Fin 32)
  /-- DIV (R42): Weft signed division; division by zero sets DZ and overflow sets Q. -/
  | div (c : CtxId) (d a b : Fin 32)
  /-- DIVU (R42): Weft unsigned division; division by zero sets DZ. -/
  | divu (c : CtxId) (d a b : Fin 32)
  /-- ADDI (R42): Weft addition of a sign-extended immediate. -/
  | addi (c : CtxId) (d a : Fin 32) (imm : BitVec 16)
  /-- ANDI (R42): Weft AND with a zero-extended immediate. -/
  | andi (c : CtxId) (d a : Fin 32) (imm : BitVec 16)
  /-- ORI (R42): Weft OR with a zero-extended immediate. -/
  | ori (c : CtxId) (d a : Fin 32) (imm : BitVec 16)
  /-- XORI (R42): Weft XOR with a zero-extended immediate. -/
  | xori (c : CtxId) (d a : Fin 32) (imm : BitVec 16)
  /-- SLTI (R42): Weft signed compare with an immediate. -/
  | slti (c : CtxId) (d a : Fin 32) (imm : BitVec 16)
  /-- LHI (R42): Weft load of a high immediate. -/
  | lhi (c : CtxId) (d : Fin 32) (imm : BitVec 16)
  /-- LW (R42): Weft word load, stalling off the TCMs. -/
  | lw (c : CtxId) (d a : Fin 32) (imm : BitVec 16)
  /-- LH (R42): Weft sign-extended halfword load. -/
  | lh (c : CtxId) (d a : Fin 32) (imm : BitVec 16)
  /-- LHU (R42): Weft zero-extended halfword load. -/
  | lhu (c : CtxId) (d a : Fin 32) (imm : BitVec 16)
  /-- LB (R42): Weft sign-extended byte load. -/
  | lb (c : CtxId) (d a : Fin 32) (imm : BitVec 16)
  /-- LBU (R42): Weft zero-extended byte load. -/
  | lbu (c : CtxId) (d a : Fin 32) (imm : BitVec 16)
  /-- SW (R42): Weft word store, posted off the TCMs. -/
  | sw (c : CtxId) (d a : Fin 32) (imm : BitVec 16)
  /-- SH (R42): Weft halfword store. -/
  | sh (c : CtxId) (d a : Fin 32) (imm : BitVec 16)
  /-- SB (R42): Weft byte store. -/
  | sb (c : CtxId) (d a : Fin 32) (imm : BitVec 16)
  /-- BEQ (R42): Weft branch if equal. -/
  | beq (c : CtxId) (a b : Fin 32) (off : BitVec 16)
  /-- BNE (R42): Weft branch if not equal. -/
  | bne (c : CtxId) (a b : Fin 32) (off : BitVec 16)
  /-- BLT (R42): Weft branch if signed less than. -/
  | blt (c : CtxId) (a b : Fin 32) (off : BitVec 16)
  /-- BGE (R42): Weft branch if signed greater or equal. -/
  | bge (c : CtxId) (a b : Fin 32) (off : BitVec 16)
  /-- BLTU (R42): Weft branch if unsigned less than. -/
  | bltu (c : CtxId) (a b : Fin 32) (off : BitVec 16)
  /-- BGEU (R42): Weft branch if unsigned greater or equal. -/
  | bgeu (c : CtxId) (a b : Fin 32) (off : BitVec 16)
  /-- J (R42): Weft relative jump. -/
  | j (c : CtxId) (off : BitVec 16)
  /-- JAL (R42): Weft relative jump with link. -/
  | jal (c : CtxId) (d : Fin 32) (off : BitVec 16)
  /-- JALR (R42): Weft register jump with link; the link is written before the target is fetched. -/
  | jalr (c : CtxId) (d a : Fin 32) (imm : BitVec 16)
  /-- BFX (R42): Weft signed bit-field extract. -/
  | bfx (c : CtxId) (d a p n : Fin 32)
  /-- BFXU (R42): Weft unsigned bit-field extract. -/
  | bfxu (c : CtxId) (d a p n : Fin 32)
  /-- BFI (R42): Weft bit-field insert. -/
  | bfi (c : CtxId) (d a p n : Fin 32)
  /-- BFC (R42): Weft bit-field clear. -/
  | bfc (c : CtxId) (d a p n : Fin 32)
  /-- CLZ (R42): Weft count of leading zeros. -/
  | clz (c : CtxId) (d a : Fin 32)
  /-- CTZ (R42): Weft count of trailing zeros. -/
  | ctz (c : CtxId) (d a : Fin 32)
  /-- POPC (R42): Weft population count. -/
  | popc (c : CtxId) (d a : Fin 32)
  /-- REV (R42): Weft byte reversal. -/
  | rev (c : CtxId) (d a : Fin 32)
  /-- ADDS (R42): Weft saturating addition. -/
  | adds (c : CtxId) (d a b : Fin 32)
  /-- SUBS (R42): Weft saturating subtraction. -/
  | subs (c : CtxId) (d a b : Fin 32)
  /-- ADDUS (R42): Weft unsigned saturating addition. -/
  | addus (c : CtxId) (d a b : Fin 32)
  /-- NEGS (R42): Weft saturating negation. -/
  | negs (c : CtxId) (d a : Fin 32)
  /-- ABSS (R42): Weft saturating absolute value. -/
  | abss (c : CtxId) (d a : Fin 32)
  /-- SATS (R42): Weft signed clamp to 2^k. -/
  | sats (c : CtxId) (d a k : Fin 32)
  /-- SATU (R42): Weft unsigned clamp to 2^(k+1) − 1. -/
  | satu (c : CtxId) (d a k : Fin 32)
  /-- SHLS (R42): Weft saturating shift left. -/
  | shls (c : CtxId) (d a b : Fin 32)
  /-- MUL (R42): Weft low word of the product. -/
  | mul (c : CtxId) (d a b : Fin 32)
  /-- MULH (R42): Weft high word of the product. -/
  | mulh (c : CtxId) (d a b : Fin 32)
  /-- FMUL (R49): Weft scaled, saturated fixed-point product. -/
  | fmul (c : CtxId) (d a b sh : Fin 32) (rn : Bool)
  /-- MAC (R49): Weft multiply-accumulate into ACC. -/
  | mac (c : CtxId) (a b sh : Fin 32) (rn : Bool)
  /-- MSU (R49): Weft multiply-subtract from ACC. -/
  | msu (c : CtxId) (a b sh : Fin 32) (rn : Bool)
  /-- MACZ (R49): Weft ACC set to a scaled product. -/
  | macz (c : CtxId) (a b sh : Fin 32) (rn : Bool)
  /-- RDACC (R49): Weft scaled, saturated read of ACC. -/
  | rdacc (c : CtxId) (d sh : Fin 32) (rn : Bool)
  /-- MTACC (R42): Weft ACC loaded from two registers. -/
  | mtacc (c : CtxId) (a b : Fin 32)
  /-- MFACCH (R42): Weft read of the high word of ACC. -/
  | mfacch (c : CtxId) (d : Fin 32)
  /-- MFACCL (R42): Weft read of the low word of ACC. -/
  | mfaccl (c : CtxId) (d : Fin 32)
  /-- WAIT (R51): A Weft context waits for a masked event or for a number of cycles. -/
  | wait (c : CtxId) (d a b : Fin 32)
  /-- WAIT_TIMEOUT (R51): The WAIT cycle limit expires, and 0xFFFF_FFFF is written. -/
  | waitTimeout (c : CtxId)
  /-- TCMP (R52): Arms or disarms the context's timer compare. -/
  | tcmp (c : CtxId) (dis : Bool) (tb : Fin 8) (a b : Fin 32)
  /-- TIMER_COMPARE_MATCH (R52): The time base reaches the armed time, and TIMER becomes pending. -/
  | timerCompareMatch (c : CtxId)
  /-- TRD (R53): Reads one part of a time base; part 0 latches the other parts. -/
  | trd (c : CtxId) (d : Fin 32) (tb : Fin 8) (part : Fin 4)
  /-- MSEND (R42): Sends a word to a mailbox, or reports it full. -/
  | msend (c : CtxId) (d a : Fin 32) (mb : Fin 256)
  /-- MRECV (R42): Receives a word from an owned mailbox. -/
  | mrecv (c : CtxId) (d e : Fin 32) (mb : Fin 256)
  /-- AADD (R47): Atomic add on shared SRAM. -/
  | aadd (c : CtxId) (d a b : Fin 32)
  /-- ACAS (R47): Atomic compare-and-swap on shared SRAM. -/
  | acas (c : CtxId) (d a b : Fin 32)
  /-- CSRR (R54): Reads a control register. -/
  | csrr (c : CtxId) (d : Fin 32) (n : BitVec 12)
  /-- CSRW (R54): Swaps a control register; SIGNAL and WDT_KICK act on the write. -/
  | csrw (c : CtxId) (d a : Fin 32) (n : BitVec 12)
  /-- CSRS (R54): Sets bits of a control register. -/
  | csrs (c : CtxId) (d a : Fin 32) (n : BitVec 12)
  /-- CSRC (R54): Clears bits of a control register. -/
  | csrc (c : CtxId) (d a : Fin 32) (n : BitVec 12)
  /-- SCALL (R43): The SCALL instruction checks its argument block and either traps, returns BAD_FUNC for an unlisted f, or hands the block to the key store. -/
  | scall (c : CtxId) (d a : Fin 32) (f : BitVec 12)
  /-- ILLEGAL_INSTRUCTION (R41): A Weft context issues a word with an unlisted opcode or func, a non-zero reserved or unused field, or a reserved mb or tb, and traps with cause ILLEGAL. -/
  | illegalInstruction (c : CtxId) (w : Word)
  /-- BAR (R44): Waits until every fabric transaction of the context has completed. -/
  | bar (c : CtxId)
  /-- TRAP (R42): Software trap with cause TRAP. -/
  | trap (c : CtxId) (imm : BitVec 16)
  /-- BRK (R81): Enters debug halt on a claimed sequencer, otherwise traps. -/
  | brk (c : CtxId)
  /-- ERET (R42): Returns from a trap to EPC and clears IN_TRAP. -/
  | eret (c : CtxId)
  /-- FABRIC_RESPONSE (R46): Data or completion of a load, atomic or transaction reaches a stalled context, which becomes ready again. -/
  | fabricResponse (k : Fin 128)
  /-- BUS_STORE_ERROR (R58): The error response of a posted store arrives; BUSPEND is set, and the imprecise trap is taken at the next boundary. -/
  | busStoreError (k : Fin 128)
  /-- CTX_START (R67): WSC.CTX_CTRL.START starts a STOPPED context at its ENTRY. -/
  | ctxStart (ws : Fin 8) (k : Fin 4)
  /-- CTX_RESTART (R67): WSC.CTX_CTRL.RESTART clears the context's state and starts it at ENTRY from any state. -/
  | ctxRestart (ws : Fin 8) (k : Fin 4)
  /-- CTX_WATCHDOG_EXPIRY (R68): A context watchdog expires; the context restarts and NOTE 0x04 is raised. -/
  | ctxWatchdogExpiry (c : CtxId)
  /-- CTX_HALT (R81): Writing HALT on a claimed sequencer stops the context after its outstanding work. -/
  | ctxHalt (ws : Fin 8) (k : Fin 4)
  /-- CTX_RESUME (R81): Writing HALT := 0 resumes a halted context. -/
  | ctxResume (ws : Fin 8) (k : Fin 4)
  /-- DEBUG_CLAIM (R81): The debugger claims a sequencer through the debug port. -/
  | debugClaim (ws : Fin 8)
  /-- DEBUG_RELEASE (R81): The debugger releases its claim, and halted contexts resume. -/
  | debugRelease (ws : Fin 8)
  /-- EVENT_PENDING (R70): A routed source event reaches a context and sets its pending bit, or EVT_OVF if it is already pending. -/
  | eventPending (c : CtxId) (n : Fin 32)
  /-- MAILBOX_DELIVERY (R73): A sent word becomes readable at the owner, and MAIL becomes pending. -/
  | mailboxDelivery (m : Fin 64)
  /-- MAILBOX_CONFIG (R74): Writing MBX_CFG with EN = 1, or a new owner, empties the FIFO. -/
  | mailboxConfig (m : Fin 64) (data : Word)
  /-- ECC_WRITEBACK (R551): A corrected SRAM or TCM word is written back when the bank is free. -/
  | eccWriteback (addr : Word)
  /-- TCM_WINDOW_ACCESS (R77): An outside access reaches a WS TCM through its window. -/
  | tcmWindowAccess (slot : Fin 19) (addr data : Word) (write : Bool) (size : Fin 3)
  /-- LOOM_RUN (R90): Writing LOOM_RUN starts or stops channels together. -/
  | loomRun (data : BitVec 24)
  /-- LOOM_BOUNDARY (R84): A channel counter returns to 0; the commit, CYCLE release and the stale count act. -/
  | loomBoundary (n : Fin 24)
  /-- LOOM_MIDPOINT (R91): A channel counter reaches PERIOD ÷ 2, a commit event in UPD_MODE 0b10 and 0b11. -/
  | loomMidpoint (n : Fin 24)
  /-- LOOM_REF_EDGE (R86): REF changes level, turning one output off at once and starting the other's dead time. -/
  | loomRefEdge (n : Fin 24)
  /-- LOOM_DEAD_TIME_END (R87): A dead time ends, and the output turns on or its pulse is dropped. -/
  | loomDeadTimeEnd (n : Fin 24)
  /-- LOOM_TRIGGER (R96): A trigger compare fires at POS. -/
  | loomTrigger (n : Fin 24) (k : Fin 4)
  /-- LOOM_TRIP_SOURCE (R99): A recognised trip source trips every running channel that masks it. -/
  | loomTripSource (k : Fin 64) (level : Bool)
  /-- LOOM_BLANK_END (R98): A blanking window ends, and a comparator crossing inside it now acts. -/
  | loomBlankEnd (n : Fin 24)
  /-- LOOM_CLR_TRIP (R101): CMD.CLR_TRIP requests release of LATCH and HIZ trips. -/
  | loomClrTrip (n : Fin 24)
  /-- LOOM_CLR_DROP (R110): CMD.CLR_DROP clears the dropped-pulse counters. -/
  | loomClrDrop (n : Fin 24)
  /-- LOOM_SOURCE_STUCK (R102): A source outlasts STUCK_T or exceeds RATE_LIM and is judged stuck. -/
  | loomSourceStuck (k : Fin 64)
  /-- LOOM_STUCK_CLEAR (R102): Writing 1 to STUCK clears it, or is refused while the source is active. -/
  | loomStuckClear (k : Fin 64)
  /-- LOOM_STALE_TRIP (R95): The boundary count reaches STALE_LIM, and the channel trips LATCH with source 64. -/
  | loomStaleTrip (n : Fin 24)
  /-- LOOM_GUPD_ARM (R94): Writing LOOM_GUPD.ARM arms the global strobe for the channels. -/
  | loomGupdArm (mask : BitVec 24)
  /-- LOOM_LOCK (R104): Writing LOOM_LOCK makes OUTCFG and the trip-source configuration read-only. -/
  | loomLock
  /-- LOOM_CLOCK_LOSS (R107): A loss of CK_PWM turns every output off and raises REGION 0x05. -/
  | loomClockLoss
  /-- LOOM_READBACK_FAULT (R108): An output read-back mismatch lasting over 20 ns stops the channel. -/
  | loomReadbackFault (n : Fin 24)
  /-- LOOM_CONFIG_ECC (R108): A configuration ECC error is corrected, or is uncorrectable and stops the channel. -/
  | loomConfigEcc (n : Fin 24) (double : Bool)
  /-- LOOM_RECALIBRATE (R108): The interpolator recalibrates after drift. -/
  | loomRecalibrate
  /-- TW_OVERRUN_LIMIT (R122): OVR_LIM consecutive overruns clear the slot's EN. -/
  | twOverrunLimit (e : Fin 4) (sl : Fin 8)
  /-- TW_SLOT_START (R121): An idle engine starts its lowest pending slot; sampled ports, coefficients, bank and presets take effect. -/
  | twSlotStart (e : Fin 4)
  /-- NOP (R118): Twill no operation. -/
  | twNop (e : Fin 4) (w : BitVec 64)
  /-- END (R118): Ends the slot run. -/
  | twEnd (e : Fin 4)
  /-- LDA (R118): Loads a data word into an accumulator. -/
  | lda (e : Fin 4) (d : Fin 16) (x : BitVec 12)
  /-- STA (R118): Stores a saturated accumulator to M. -/
  | sta (e : Fin 4) (x : BitVec 12) (sa : Fin 16)
  /-- MULC (R114): Scaled product of data and a coefficient. -/
  | mulc (e : Fin 4) (d : Fin 16) (x : BitVec 12) (k : BitVec 8)
  /-- MACC (R114): Adds a scaled data product. -/
  | macc (e : Fin 4) (d : Fin 16) (x : BitVec 12) (k : BitVec 8)
  /-- MSUC (R114): Subtracts a scaled data product. -/
  | msuc (e : Fin 4) (d : Fin 16) (x : BitVec 12) (k : BitVec 8)
  /-- MULA (R114): Scaled product of an accumulator and a coefficient. -/
  | mula (e : Fin 4) (d sa : Fin 16) (k : BitVec 8)
  /-- MACA (R114): Adds a scaled accumulator product. -/
  | maca (e : Fin 4) (d sa : Fin 16) (k : BitVec 8)
  /-- MSUA (R114): Subtracts a scaled accumulator product. -/
  | msua (e : Fin 4) (d sa : Fin 16) (k : BitVec 8)
  /-- ADDA (R118): Adds two accumulators. -/
  | adda (e : Fin 4) (d sa ta : Fin 16)
  /-- SUBA (R118): Subtracts two accumulators. -/
  | suba (e : Fin 4) (d sa ta : Fin 16)
  /-- MOVA (R118): Copies an accumulator. -/
  | mova (e : Fin 4) (d sa : Fin 16)
  /-- NEGA (R118): Negates an accumulator. -/
  | nega (e : Fin 4) (d sa : Fin 16)
  /-- ABSA (R118): Absolute value of an accumulator. -/
  | absa (e : Fin 4) (d sa : Fin 16)
  /-- MINA (R118): Lesser of two accumulators. -/
  | mina (e : Fin 4) (d sa ta : Fin 16)
  /-- MAXA (R118): Greater of two accumulators. -/
  | maxa (e : Fin 4) (d sa ta : Fin 16)
  /-- CLMP (R118): Clamps an accumulator between two others. -/
  | clmp (e : Fin 4) (d sa ta : Fin 16)
  /-- SHA (R118): Arithmetic shift of an accumulator. -/
  | sha (e : Fin 4) (d sa : Fin 16) (k : BitVec 8)
  /-- DIVA (R118): Fixed-point division of an accumulator by data. -/
  | diva (e : Fin 4) (d sa : Fin 16) (x : BitVec 12)
  /-- MINSEL (R127): Lowest-wins selection with back-calculation of the tracked losers. -/
  | minsel (e : Fin 4) (d b : Fin 16) (n : Fin 8) (tm : BitVec 6) (x : BitVec 12) (k : BitVec 8)
  /-- FFL (R128): Loads an interpolated feed-forward table value. -/
  | ffl (e : Fin 4) (d : Fin 16) (x : BitVec 12) (k : BitVec 8)
  /-- FFA (R128): Adds an interpolated feed-forward table value. -/
  | ffa (e : Fin 4) (d : Fin 16) (x : BitVec 12) (k : BitVec 8)
  /-- RAMP (R135): Advances a ramp toward its target and loads RREF. -/
  | ramp (e : Fin 4) (d : Fin 16) (k : BitVec 8)
  /-- OUT (R137): Writes a clamped accumulator to a Loom shadow register of an owned channel. -/
  | twOut (e : Fin 4) (sa : Fin 16) (ch : Fin 32) (sel : Fin 4)
  /-- ARM (R138): Arms LOOM_GUPD.ARM for owned channels. -/
  | twArm (e : Fin 4) (mask : BitVec 24)
  /-- EVT (R118): Raises a Twill event line. -/
  | evt (e : Fin 4) (mask : BitVec 24)
  /-- BR (R118): Conditional branch on accumulators. -/
  | br (e : Fin 4) (cond : Fin 8) (sa ta : Fin 16) (tgt : Fin 512)
  /-- WAITIN (R119): Stalls until an ADC port is fresh for the run. -/
  | waitin (e : Fin 4) (x : BitVec 12)
  /-- TW_BUDGET_EXPIRY (R124): A run reaches BUDGET without END and is ended with ABORT and CONTAIN 0x03. -/
  | twBudgetExpiry (e : Fin 4)
  /-- TW_RUN (R126): Writing TW_CTRL.RUN starts an engine idle or stops it at the next boundary. -/
  | twRun (e : Fin 4) (run : Bool)
  /-- TW_COEF_COMMIT (R140): TW_CCOMMIT.GO closes a coefficient set for the next slot start. -/
  | twCoefCommit (e : Fin 4)
  /-- TW_RAMP_PRESET (R136): Writing PRESET sets RREF at the next slot start. -/
  | twRampPreset (e : Fin 4) (r : Fin 8) (value : Word)
  /-- TW_OWN_WRITE (R138): A TW_OWN write takes channels, refusing those owned by another engine. -/
  | twOwnWrite (e : Fin 4) (data : BitVec 24)
  /-- TW_SLOT_CLEAR (R148): CFG.CLR clears OVR_CNT and MAX_CYC. -/
  | twSlotClear (e : Fin 4) (sl : Fin 8)
  /-- TW_MEMORY_ECC (R145): A Twill memory error is corrected, or is uncorrectable and stops the engine. -/
  | twMemoryEcc (e : Fin 4) (addr : Word) (double : Bool)
  /-- AIN_SP_SAMPLE (R133): An analogue set-point conversion is range-checked and filtered. -/
  | ainSpSample (j : Fin 4) (code : BitVec 12)
  /-- PIN_SP_EDGE (R134): A qualified edge on a pulse set-point input updates the frequency or count. -/
  | pinSpEdge (j : Fin 4)
  /-- PIN_SP_TIMEOUT (R134): No qualified edge within TMO sets LOST. -/
  | pinSpTimeout (j : Fin 4)
  /-- ADC_DEFERRED_SAMPLE (R152): A waiting request samples once the ADC accepts it. -/
  | adcDeferredSample (a : Fin 8)
  /-- ADC_CONVERSION_COMPLETE (R153): A conversion writes its code and result word, with the VCHK check. -/
  | adcConversionComplete (a : Fin 8) (code : BitVec 14)
  /-- ADC_ENABLE (R154): Writing ADC_EN enables or disables ADCs and re-enables a stopped one. -/
  | adcEnable (data : BitVec 8)
  /-- ADC_CLEAR_COUNTS (R169): SNS_CTRL.CLR_CNT clears every ADC_STAT count. -/
  | adcClearCounts
  /-- COMPARATOR_ACTIVE (R155): A window comparator becomes active, which is a Loom trip source. -/
  | comparatorActive (k : Fin 48) (uv : BitVec 22)
  /-- COMPARATOR_INACTIVE (R155): A window comparator returns past its threshold by the hysteresis. -/
  | comparatorInactive (k : Fin 48) (uv : BitVec 22)
  /-- CMP_THRESHOLD_WRITE (R156): A threshold write moves the DAC without a glitch. -/
  | cmpThresholdWrite (k : Fin 48) (data : Word) (ok : Bool)
  /-- CMP_DAC_MISMATCH (R156): A read-back mismatch beyond the settling time forces the comparator active. -/
  | cmpDacMismatch (k : Fin 48)
  /-- AIN_STALE (R159): An input not written for 100 µs becomes stale. -/
  | ainStale (n : Fin 48)
  /-- XP_CHANGE_ALLOWED (R160): The interlock allows a held coil change, which takes effect. -/
  | xpChangeAllowed (x : Fin 16)
  /-- XP_HOLD_EXPIRY (R160): A held command is still not allowed at XP_HOLD and is discarded. -/
  | xpHoldExpiry (x : Fin 16)
  /-- ISUM_CHECK (R162): The 10 µs current-sum evaluation of an outlet. -/
  | isumCheck (o : Fin 8)
  /-- ISUM_HOLD_END (R162): CHK_HOLD ends, and the current-sum check resumes. -/
  | isumHoldEnd (o : Fin 8)
  /-- WELD_CHECK_START (R163): SNS_WCHK.START begins a weld check, or reports ERROR at once. -/
  | weldCheckStart (outlet : Bool) (tgt : Fin 16) (win : BitVec 8)
  /-- WELD_CHECK_END (R163): The weld window ends and RESULT is set. -/
  | weldCheckEnd
  /-- SAL_MODE_WRITE (R170): A SAL_CTRL.MODE change takes effect at the next boundary. -/
  | salModeWrite (data : BitVec 2)
  /-- SALTERN_BOUNDARY (R176): At a period boundary the snapshot is taken, registers commit and a solve starts. -/
  | salternBoundary
  /-- SOLVE_COMPLETE (R182): The solve completes and publishes its grant set and state. -/
  | solveComplete
  /-- SALTERN_TABLE_ECC (R193): A table error is corrected, or is uncorrectable and aborts the solve. -/
  | salternTableEcc (off : BitVec 12) (double : Bool)
  /-- SAL_DEM_WRITE (R174): A demand write makes the demand fresh and clears STALE. -/
  | salDemWrite (i : Fin 128) (data : Word)
  /-- DEMAND_STALE (R174): A demand not fresh for DEM_TMO solves becomes stale. -/
  | demandStale (i : Fin 128)
  /-- SAL_COMMIT_GO (R176): SAL_CMT.GO arms a commit at the next solve start. -/
  | salCommitGo
  /-- EMRG_LINE_RAISE (R183): The grid line rises and latches an emergency demand from BASE and KEEP. -/
  | emrgLineRaise
  /-- EMRG_REQ (R183): A firmware raise latches SAL_EMRG_DEM. -/
  | emrgReq
  /-- EMRG_CLR (R185): A firmware release request, refused while the line is high or PEND is 1. -/
  | emrgClr
  /-- SAL_STATE_WRITE (R191): A write to the solver state, ignored while MODE 0b10 is in force. -/
  | salStateWrite (off : BitVec 12) (data : Word)
  /-- GRANT_SET_HANDOVER (R189): A grant set reaches the apply unit and is queued, applied late, or discarded when the queue is full. -/
  | grantSetHandover
  /-- GRANT_APPLY (R188): At the apply time all eight GRANT ports are written. -/
  | grantApply
  /-- DEMAND_SAMPLE (R204): At b − DEM_LEAD_US the local demands are sampled and a demand frame is sent. -/
  | demandSample
  /-- DEMAND_FRAME (R204): A received demand frame is accepted and written into SAL_DEM, or discarded. -/
  | demandFrame (port : Fin 2) (etype : BitVec 16) (payload : List Byte)
  /-- GRANT_FRAME (R205): A received grant frame is accepted, forwarded, saved by the standby and merged on conflict. -/
  | grantFrame (port : Fin 2) (etype : BitVec 16) (payload : List Byte)
  /-- ZW_ENABLE (R209): A rise of EN enters LISTEN. -/
  | zwEnable (data : Word)
  /-- LISTEN_TIMEOUT (R209): LISTEN_MS passes without a grant frame, starting the claim wait if allowed. -/
  | listenTimeout
  /-- CLAIM_WAIT_EXPIRY (R209): The priority wait ends and the cabinet claims leadership with a new epoch. -/
  | claimWaitExpiry
  /-- FOLLOWER_TIMEOUT (R209): A follower without a grant frame for LISTEN_MS enters LISTEN. -/
  | followerTimeout
  /-- ZW_BOUNDARY (R215): At a boundary the engine counts standby misses, forms decay sets and makes swap handovers. -/
  | zwBoundary
  /-- TAKEOVER (R215): The TAKE_MS timer expires, and the standby becomes leader with a new epoch. -/
  | takeover
  /-- STEP_DOWN (R211): A leader without quorum for MISS_LIM periods plus TAKE_MS enters LISTEN. -/
  | stepDown
  /-- HOLD_EXPIRY (R217): HOLD_MS passes without a set, and decay begins. -/
  | holdExpiry
  /-- ZW_SWAP_GO (R219): ZW_SWAP.GO starts a role-swap countdown. -/
  | zwSwapGo (data : Word)
  /-- ZW_CLR_EXCL (R220): ZW_SWAP.CLR_EXCL empties EXCL. -/
  | zwClrExcl
  /-- ZW_CLAIM (R223): Writing ZW_PAIR.CLAIM drives this device's ownership line. -/
  | zwClaim (b : Bool)
  /-- PARTNER_LINE_QUALIFIED (R223): The partner line holds a level for FILT_US and counts as asserted or released, changing OWNED. -/
  | partnerLineQualified (high : Bool) (us : Nat)
  /-- PARTNER_LINE_STUCK (R223): More than RATE_LIM edges in 1 s set STUCK. -/
  | partnerLineStuck (edges : Nat)
  /-- ZW_PAIR_STUCK_CLEAR (R223): Writing 1 to STUCK clears it. -/
  | zwPairStuckClear
  /-- ZW_BUFFER_ECC (R226): A frame-buffer error is corrected, or is uncorrectable and drops the frame. -/
  | zwBufferEcc (grant : Bool) (double : Bool)
  /-- TB_STEP_GO (R235): Writing GO schedules a relative or absolute step of a time base. -/
  | tbStepGo (n : Fin 4) (slot : Fin 19) (abs : Bool)
  /-- TB_STEP_APPLY (R235): The scheduled step applies in every regional copy in one cycle. -/
  | tbStepApply (n : Fin 4)
  /-- TB_RATE_WRITE (R234): A RATE write trims a time base from the next cycle. -/
  | tbRateWrite (n : Fin 4) (slot : Fin 19) (data : Word)
  /-- TB_SRC_WRITE (R231): A SRC write chooses the discipline, or sets SRC_ERR. -/
  | tbSrcWrite (n : Fin 4) (slot : Fin 19) (data : Word)
  /-- TB_OFFSET (R236): An offset from the slave port updates STATE and the servo. -/
  | tbOffset (n : Fin 4)
  /-- TB_HOLDOVER (R237): HOLD_TMO × T passes without an offset, and HOLDOVER is entered. -/
  | tbHoldover (n : Fin 4)
  /-- TB_HOLD_EXPIRED (R237): HOLD_S in HOLDOVER passes, and HOLD_EXP is entered. -/
  | tbHoldExpired (n : Fin 4)
  /-- TB_TIME_READ (R250): Reading TIME_NS latches TIME_S and TIME_X. -/
  | tbTimeRead (n : Fin 4)
  /-- TOUT_ARM (R244): Writing EN = 1 arms a timed output. -/
  | toutArm (k : Fin 8) (data : Word)
  /-- TOUT_DISARM (R244): Writing EN = 0 drives the output inactive. -/
  | toutDisarm (k : Fin 8) (data : Word)
  /-- TOUT_ACTIVE (R245): The compare instant is reached or passed, and the output goes active. -/
  | toutActive (k : Fin 8)
  /-- TOUT_INACTIVE (R244): WIDTH elapses, and the output goes inactive. -/
  | toutInactive (k : Fin 8)
  /-- TCAP_EDGE (R246): An input edge begins qualification. -/
  | tcapEdge (k : Fin 8) (rising : Bool)
  /-- TCAP_STAMP (R246): Qualification ends; the stamp enters the FIFO, or overflows or counts toward STUCK. -/
  | tcapStamp (k : Fin 8)
  /-- TCAP_READ (R246): Reading CAP_NS pops the oldest stamp and latches its other parts. -/
  | tcapRead (k : Fin 8)
  /-- PTP_EVENT_RX (R240): A PTP event message is time-stamped, answered, forwarded or used for an offset. -/
  | ptpEventRx (p : Fin 2) (m : PtpMsg)
  /-- PTP_SYNC_SEND (R240): A master port sends Sync at its interval. -/
  | ptpSyncSend (p : Fin 2)
  /-- TC_FOLLOWUP_TIMEOUT (R242): A Follow_Up not seen within 100 ms is forwarded uncorrected and counted. -/
  | tcFollowupTimeout
  /-- PTP_TXTS_READ (R250): Reading TXTS pops a transmit time-stamp entry. -/
  | ptpTxtsRead (p : Fin 2)
  /-- PTP_PORT_STATE (R240): Firmware writes a port's PTP state, which the hardware acts on. -/
  | ptpPortState (p : Fin 2) (st : BitVec 2)
  /-- PTP_SELFCHECK_FAIL (R247): The time-stamp unit fails its self-check and the port stops sending PTP event messages. -/
  | ptpSelfcheckFail (p : Fin 2)
  /-- GRID_CHANNEL_LOST (R254): A grid bitstream without transitions for 128 cycles makes the channel invalid. -/
  | gridChannelLost (n : Fin 8)
  /-- PMU_FRAME_WRITE (R256): A synchrophasor data frame is written to the frame ring. -/
  | pmuFrameWrite (sec : Word) (k : BitVec 7) (phasors : List (BitVec 64)) (freq : Word) (dfreq : Word)
  /-- GRID_RESPONSE_UPDATE (R258): The 1 ms estimator update qualifies or clears conditions and moves the grid line. -/
  | gridResponseUpdate (freq : BitVec 20) (each : BitVec 160) (volt : Word) (valid : BitVec 8) (rms : BitVec 128)
  /-- GRID_REC_ARM (R262): Writing ARM empties and re-arms the recorder. -/
  | gridRecArm
  /-- GRID_REC_TRIG (R262): A firmware trigger of the recorder. -/
  | gridRecTrig
  /-- GRID_REC_COMPLETE (R262): The post-trigger 2 s ends and the recorder enters HELD. -/
  | gridRecComplete
  /-- PILOT_MEASUREMENT (R270): A measurement period ends and the pilot, CE and ID states are qualified. -/
  | pilotMeasurement (o : Fin 8) (hi : BitVec 96) (lo : BitVec 96) (id : BitVec 96)
  /-- PILOT_DRIVE_WRITE (R269): A DRV write sets the mode and duty, or is refused for MCS PWM. -/
  | pilotDriveWrite (o : Fin 8) (data : Word)
  /-- PILOT_UNSTABLE_CLEAR (R272): Writing 1 to UNSTABLE clears it, or is refused. -/
  | pilotUnstableClear (o : Fin 8)
  /-- SENSE_REFERENCE_CHECK (R274): The 10 ms reference conversion of a sense converter. -/
  | senseReferenceCheck (o : Fin 8) (code : BitVec 12)
  /-- LINK_FRAME_RX (R279): A frame received on a T1S port, a Green PHY channel or the backbone is written to its receive ring. -/
  | linkFrameRx (l : Fin 17) (frame : List Byte) (info : RxInfo)
  /-- RING_TX_HEAD_WRITE (R278): Firmware advances a transmit HEAD, queuing frames. -/
  | ringTxHeadWrite (l : Fin 17) (head : Byte)
  /-- LINK_FRAME_TX_DONE (R279): A frame is sent or dropped and its descriptor is written back. -/
  | linkFrameTxDone (l : Fin 17) (info : TxInfo)
  /-- RING_ENABLE (R293): Writing a ring EN of 1 sets HEAD and TAIL to 0. -/
  | ringEnable (l : Fin 17) (tx : Bool) (en : Bool)
  /-- ATT_START (R281): ATT_CTRL.START arms the SLAC attenuation measurement. -/
  | attStart (n : Fin 8) (data : Word)
  /-- ATT_DONE (R281): The measurement ends at NUM sounds or ATT_TMO. -/
  | attDone (n : Fin 8)
  /-- TONE_MAP_REFRESH (R285): A neighbour's tone map is recomputed, or renegotiation starts. -/
  | toneMapRefresh (k : Fin 32)
  /-- RENEG_COMPLETE (R287): Channel estimation builds a new tone map after renegotiation. -/
  | renegComplete (k : Fin 32)
  /-- BB_PH_WRITE (R284): A change of PH takes effect between frames and restarts channel estimation. -/
  | bbPhWrite (ph : BitVec 3)
  /-- T1S_PHY_SELFCHECK_FAIL (R290): A T1S PHY self-check fails and the port stops sending. -/
  | t1sPhySelfcheckFail (n : Fin 8)
  /-- DECODE (R299): EXI stream to message image, with an optional V2GTP check. -/
  | decode
  /-- ENCODE (R306): Message image to EXI stream, clamping the current limit. -/
  | encode
  /-- DIGEST (R301): EXI fragment encoding and its digest. -/
  | digest
  /-- TLS_ACCEPT (R302): Opens a server TLS session. -/
  | tlsAccept (res : TlsOut)
  /-- TLS_IN (R302): Processes received TLS bytes. -/
  | tlsIn (res : TlsOut)
  /-- TLS_OUT (R302): Protects plaintext into records. -/
  | tlsOut (res : TlsOut)
  /-- TLS_CLOSE (R302): Sends close_notify and ends the session. -/
  | tlsClose (res : TlsOut)
  /-- SES_CHANNEL_DISABLE (R297): EN := 0 stops taking jobs and discards the TLS session. -/
  | sesChannelDisable (c : Fin 8)
  /-- SES_TIMER_ARM (R305): A write to SES.TMR arms or disarms the channel timer. -/
  | sesTimerArm (c : Fin 8) (ms : BitVec 24)
  /-- SES_TIMER_EXPIRY (R305): The channel timer expires. -/
  | sesTimerExpiry (c : Fin 8)
  /-- SES_ENGINE_FAULT (R311): A codec or TLS memory fault aborts jobs and restarts the cell. -/
  | sesEngineFault (tls : Bool) (double : Bool)
  /-- TS_CONVERSION (R314): A 10 ms sensor conversion updates the broken, substitution, disagreement and band states. -/
  | tsConversion (n : Fin 64) (r : BitVec 20)
  /-- CABLE_MODEL_UPDATE (R322): The 10 ms update of the cable model temperature. -/
  | cableModelUpdate (o : Fin 8)
  /-- DA_RECOMPUTE (R324): The 100 ms DA computation, written to THR. -/
  | daRecompute (o : Fin 8)
  /-- ENF_UPDATE (R325): The 1 ms ENF update that sets TLIM. -/
  | enfUpdate (o : Fin 8)
  /-- THERMAL_RECORD (R327): A shutdown record is handed to the event store, queued or discarded. -/
  | thermalRecord
  /-- SHUTDOWN_HOLD_COMPLETE (R328): The exit conditions hold for HOLD_S, and READY is set. -/
  | shutdownHoldComplete (o : Fin 8)
  /-- CBL_ACK (R328): CBL.CMD.ACK leaves a shutdown, or is refused. -/
  | cblAck (o : Fin 8)
  /-- CBL_ENABLE (R322): A rise of CBL.CFG.EN initialises MT. -/
  | cblEnable (o : Fin 8) (data : Word)
  /-- TACH_EDGE (R331): A qualified tach edge updates the speed or the stuck detection. -/
  | tachEdge (k : Fin 4)
  /-- TACH_TIMEOUT (R331): No tach edge for 1 s gives a speed of 0. -/
  | tachTimeout (k : Fin 4)
  /-- FAN_STALL (R331): A low speed for STALL_MS sets STALL. -/
  | fanStall (k : Fin 4)
  /-- TJ_CONVERSION (R332): An on-die sensor conversion checks TJ_WARN and 130 °C. -/
  | tjConversion (j : Fin 8) (t : BitVec 16)
  /-- THERMAL_REFERENCE_CHECK (R335): The 100 ms reference check of the thermal unit. -/
  | thermalReferenceCheck (ratio : BitVec 20)
  /-- METER_BLOCK_END (R348): A metering block ends; energy, residues, tariffs, accounts and the state copy are updated. -/
  | meterBlockEnd (samples : List (List (BitVec 24)))
  /-- METER_CHANNEL_INVALID (R347): A metering bitstream without transitions makes the outlet INVALID. -/
  | meterChannelInvalid (k : Fin 16) (toggling : Bool)
  /-- LEGAL_UPD_CHANGE (R341): LEGAL_UPD changes its qualified state and a logbook entry is written. -/
  | legalUpdChange (high : Bool)
  /-- LEGAL_TX_CHECK (R344): The 10 s CHK line is sent. -/
  | legalTxCheck
  /-- LEGAL_TX_ENERGY (R344): The 1 s energy lines are sent. -/
  | legalTxEnergy
  /-- MPULSE_PULSE (R350): An owed metrology pulse is emitted. -/
  | mpulsePulse (o : Fin 8)
  /-- METER_IMAGE_RECHECK (R343): The 24 h digest check of the instruction memory. -/
  | meterImageRecheck
  /-- PARAMETER_LOAD (R351): A parameter block load under LEGAL_UPD. -/
  | parameterLoad
  /-- READING_START (R352): A start reading request. -/
  | readingStart (o : Fin 8)
  /-- READING_STOP (R352): A stop reading request. -/
  | readingStop (o : Fin 8)
  /-- READING_ON_REQUEST (R352): An on-request reading. -/
  | readingOnRequest (o : Fin 8)
  /-- READING_RECORD_COMPLETE (R353): The signed reading record is complete. -/
  | readingRecordComplete
  /-- LEDGER_RESTORE (R360): On restore the Ledger loads the energy and tariff state and writes the outage entries. -/
  | ledgerRestore (badA badB : Bool)
  /-- TCW_SAMPLE (R364): The tamper-current watch samples a shunt during an outage. -/
  | tcwSample (o : Fin 8) (uv : BitVec 24)
  /-- EVS_MRAM_ECC (R366): An MRAM error is corrected, or the word is marked bad. -/
  | evsMramEcc (addr : BitVec 22) (double : Bool)
  /-- TARIFF_INSTANT (R376): A tariff instant ends the blocks and closes intervals, billing, activation and the rate switch. -/
  | tariffInstant (samples : List (List (BitVec 24)))
  /-- CALENDAR_LOAD (R374): TAR_CMD.LOAD reads a calendar image into the passive calendar. -/
  | calendarLoad
  /-- BILLING_CLOSE (R380): TAR_CMD.CLOSE creates a billing boundary at the next sample. -/
  | billingClose
  /-- LEGAL_CLOCK_ADJUST (R381): A TAR_ADJ request is silent, logged or refused, and TB[3] is stepped. -/
  | legalClockAdjust (abs : Bool)
  /-- AUTO_SYNC (R384): The hourly comparison of TB[3] with TB[0]. -/
  | autoSync
  /-- TOPUP (R390): An account top-up request. -/
  | topup (acc : Byte)
  /-- DEBIT (R390): An account debit request. -/
  | debit (acc : Byte)
  /-- CONFIG (R390): An account CONFIG request. -/
  | config (acc : Byte) (ecEn : Bool)
  /-- TAR_MEMORY_ECC (R393): A calendar or account-table error is corrected, or reloaded from the event store. -/
  | tarMemoryEcc (cell : Fin 3) (double : Bool)
  /-- PUBKEY (R406): Returns the public key of an EC slot. -/
  | pubkey (c : CtxId)
  /-- SIGN (R406): ECDSA signature of a digest. -/
  | sign (c : CtxId)
  /-- VERIFY (R406): ECDSA verification. -/
  | verify (c : CtxId)
  /-- ECDH_DERIVE (R406): Derives an AES key into a twin and returns its blob. -/
  | ecdhDerive (c : CtxId)
  /-- GCM_ENC (R406): AES-GCM encryption. -/
  | gcmEnc (c : CtxId)
  /-- GCM_DEC (R406): AES-GCM decryption; OUT is zeroed on AUTH. -/
  | gcmDec (c : CtxId)
  /-- CTR (R406): AES-CTR keystream XOR. -/
  | ctr (c : CtxId)
  /-- HASH (R406): SHA-256 or SHA-384 digest. -/
  | hash (c : CtxId)
  /-- RANDOM (R406): Random bytes from the DRBG. -/
  | random (c : CtxId)
  /-- GENERATE (R406): Creates a key in a twin and returns its blob. -/
  | generate (c : CtxId)
  /-- LOAD_BLOB (R404): Unwraps a blob into a twin or, with DIRECT, into an empty slot. -/
  | loadBlob (c : CtxId)
  /-- LOAD_PUB (R406): Loads a public key into a twin. -/
  | loadPub (c : CtxId)
  /-- CHECK (R407): Checks a staged twin and marks it CHECKED. -/
  | check (c : CtxId)
  /-- COMMIT (R408): Commits a checked twin at once or at a timed instant. -/
  | commit (c : CtxId)
  /-- KS_TIMED_COMMIT (R408): A pending timed commit takes effect at its time. -/
  | ksTimedCommit (n : Fin 32)
  /-- DISCARD (R406): Empties a twin. -/
  | discard (c : CtxId)
  /-- ERASE (R406): Empties a slot. -/
  | erase (c : CtxId)
  /-- KEY_OUT (R406): Returns an EXPOSE AES-128 key. -/
  | keyOut (c : CtxId)
  /-- ROOT_GEN (R398): Creates KROOT when it is absent. -/
  | rootGen (c : CtxId)
  /-- ZEROISE (R410): Zeroisation requested by firmware. -/
  | zeroise (c : CtxId)
  /-- TAMPER_EVENT (R409): TAMPER_N low, or a vault supply, clock, temperature or KROOT fault, starts zeroisation. -/
  | tamperEvent (src : Fin 5)
  /-- KS_REMASK (R397): The periodic re-mask of the key shares. -/
  | ksRemask
  /-- KS_ENTROPY_FAIL (R411): The entropy health test fails and random-bit services stop. -/
  | ksEntropyFail
  /-- KS_RESEED (R411): The 100 ms reseed retry. -/
  | ksReseed (pass : Bool)
  /-- KS_ADMIN_LOCK (R401): Writing KS_ADMIN.LOCK fixes MASK. -/
  | ksAdminLock (data : Word)
  /-- KS_CTRL_LOCK (R414): Writing KS_CTRL.LOCK fixes TSRC_EN and REMASK. -/
  | ksCtrlLock (data : Word)
  /-- SAFETY_CYCLE_START (R420): A safety cycle starts; inputs are latched and a missed commit is a pair fault. -/
  | safetyCycleStart
  /-- SAFETY_COMMIT (R420): SFS_OUT_CMT commits SAFE_EN. -/
  | safetyCommit
  /-- LOCKSTEP_MISMATCH (R415): The two cores disagree. -/
  | lockstepMismatch
  /-- SAFE_CLOCK_CHECK (R416): The 1 ms CK_SAFE count, REFCLK gap or supply window check. -/
  | safeClockCheck (count gap supply : Nat)
  /-- SAFETY_CONFIG_RECHECK (R423): The 10 s CRC recheck of the configuration. -/
  | safetyConfigRecheck
  /-- SAFE_INPUT_ACCEPT (R426): A filtered level change of a safe input is accepted; OK or DEMAND and the reset button follow. -/
  | safeInputAccept (n : Fin 16) (chB level : Bool) (us : Nat) (off : BitVec 10)
  /-- SAFE_INPUT_DISCREPANCY (R428): The channels disagree for DISC ms. -/
  | safeInputDiscrepancy (n : Fin 16)
  /-- SAFE_INPUT_STUCK (R429): The PLAUS time or the rate limit sets STUCK. -/
  | safeInputStuck (n : Fin 16) (changes : Nat) (off : BitVec 10)
  /-- PERMIT (R436): A permit word renews or replaces the permit, or is a sequence error. -/
  | permit
  /-- PERMIT_LAPSE (R436): PERMIT_MS ends without renewal, and a soft opening begins. -/
  | permitLapse
  /-- ACK (R430): An application acknowledge of pairs and outputs. -/
  | ack (off : BitVec 10)
  /-- BRAKE_TEST (R437): A brake test request. -/
  | brakeTest
  /-- BRAKE_TEST_END (R437): The BT_MS window ends and the test passes. -/
  | brakeTestEnd
  /-- BRAKE_TEST_DUE (R438): BT_AGE reaches BT_INT and BT_DUE is set. -/
  | brakeTestDue
  /-- CONFIRM (R425): The commissioning confirmation message. -/
  | confirm
  /-- CONFIRM_TIMEOUT (R425): A confirmation word does not follow within 1 ms. -/
  | confirmTimeout
  /-- USER (R435): A USER word reaches the pair's program. -/
  | user
  /-- SAFE_CURRENT_CODE (R433): A raw current code reaches Selvedge and may end a soft opening. -/
  | safeCurrentCode (o : Fin 8) (code : BitVec 24)
  /-- SAFE_CURRENT_GAP (R433): No code for 1 ms, so the current is not low. -/
  | safeCurrentGap (o : Fin 8)
  /-- SOFT_OPEN_TIMEOUT (R432): 20 ms after a soft opening the output turns off. -/
  | softOpenTimeout (m : Fin 10)
  /-- OFF_PULSE_START (R434): A safe output channel begins its off-pulse. -/
  | offPulseStart (m : Fin 10) (chB : Bool)
  /-- OFF_PULSE_END (R434): The off-pulse ends after its read-back. -/
  | offPulseEnd (m : Fin 10) (readsOn : Bool)
  /-- SOUT_READBACK_FAULT (R434): A read-back mismatch sets FAULT. -/
  | soutReadbackFault (m : Fin 10) (readsOn : Bool) (us : Nat)
  /-- HS_ON_WRITE (R445): Writing HS_ON sets the drives and clears LATCHED or FUSED. -/
  | hsOnWrite (data : BitVec 16)
  /-- HS_ON_SET (R445): HS_ON_SET sets ON bits. -/
  | hsOnSet (mask : BitVec 16)
  /-- HS_ON_CLR (R446): HS_ON_CLR clears ON bits. -/
  | hsOnClr (mask : BitVec 16)
  /-- HS_OVERCURRENT_TRIP (R448): Current limit lasting past 50 µs, or at the end of inrush, trips the channel. -/
  | hsOvercurrentTrip (n : Fin 16) (us : Nat)
  /-- HS_RETRY (R445): RETRY_MS elapses and the channel turns on again. -/
  | hsRetry (n : Fin 16)
  /-- HS_FUSE_TRIP (R449): The fuse integrator reaches I2T. -/
  | hsFuseTrip (n : Fin 16) (ma temp : BitVec 16)
  /-- HS_THERMAL_LATCH (R450): The switch reaches T_LATCH. -/
  | hsThermalLatch (n : Fin 16) (temp : BitVec 16) (limit : Bool)
  /-- HS_THERMAL_RELEASE (R450): The thermal latch releases and the channel resumes. -/
  | hsThermalRelease (n : Fin 16) (temp : BitVec 16)
  /-- HS_RCNT_RESET (R446): 1 s ON without a trip resets RCNT. -/
  | hsRcntReset (n : Fin 16)
  /-- HS_OPEN_LOAD (R451): Current below 20 mA for 10 ms sets OPEN. -/
  | hsOpenLoad (n : Fin 16) (ma : BitVec 16) (us : Nat)
  /-- HS_MISMATCH (R451): An output that stays on when driven off raises CONTAIN 0x09. -/
  | hsMismatch (n : Fin 16)
  /-- HS_MISMATCH_CLEAR (R451): 1 s off clears MISMATCH. -/
  | hsMismatchClear (n : Fin 16)
  /-- LH_IN_EDGE (R453): A limp-home input changes its qualified level, or becomes stuck. -/
  | lhInEdge (k : Fin 6) (level : Bool) (us : Nat)
  /-- LH_EN_CHANGE (R454): The qualified LH_EN level changes the reset behaviour. -/
  | lhEnChange (level : Bool) (us : Nat)
  /-- HS_LOCK (R456): Writing HS_CTRL.LOCK fixes the configuration. -/
  | hsLock
  /-- IS_SEL_CHANGE (R452): A new sense selection settles on IS. -/
  | isSelChange (sel : Fin 16) (ns : Nat)
  /-- VIN_OVERVOLTAGE (R533): VIN above V_OVP turns every HS off. -/
  | vinOvervoltage
  /-- VIN_OVERVOLTAGE_END (R533): VIN below V_OVP − 3 V returns the channels. -/
  | vinOvervoltageEnd
  /-- BRINE_ENABLE (R468): A BR_CTRL.EN rise starts the soft start, and a fall turns all gates off. -/
  | brineEnable (data : Word)
  /-- BRINE_PERIOD (R463): A switching period updates the reference, current commands, braking and load-step detection. -/
  | brinePeriod (vout : BitVec 16) (trk : BitVec 12) (i : BitVec 64) (sense : List BrSense)
  /-- BRINE_VSET_WRITE (R469): A new VSET replaces the ramp target. -/
  | brineVsetWrite (data : Word)
  /-- BRINE_TRIM_UPDATE (R465): The 32-period current-balance trim update. -/
  | brineTrimUpdate
  /-- BRINE_UV_LATCH (R467): VOUT below the UV threshold for UV_MS latches off. -/
  | brineUvLatch
  /-- BRINE_OV_LATCH (R467): VOUT above the OV threshold for 20 µs latches off. -/
  | brineOvLatch
  /-- BRINE_PHASE_SHED (R473): Low current for SHED_MS sheds a phase. -/
  | brinePhaseShed
  /-- BRINE_SW_FAULT (R479): A switch node that does not follow its gates stops the phase. -/
  | brineSwFault (p : Fin 4)
  /-- CAN_ENABLE (R483): Writing CTRL.EN enables or stops a controller. -/
  | canEnable (n : Fin 4) (data : Word)
  /-- CAN_BUS_JOIN (R483): 11 recessive bits let the controller join the bus. -/
  | canBusJoin (n : Fin 4)
  /-- CAN_FRAME_RX (R485): A valid frame is filtered into a FIFO, or is a reference message. -/
  | canFrameRx (n : Fin 4) (f : CanFrame) (ago : BitVec 32)
  /-- CAN_FIFO_RELEASE (R485): A GET write releases FIFO elements. -/
  | canFifoRelease (n : Fin 4) (f : Fin 2) (get : BitVec 4)
  /-- CAN_TXREQ (R487): TXREQ queues transmit buffers. -/
  | canTxreq (n : Fin 4) (req : BitVec 3)
  /-- CAN_TXCAN (R488): TXCAN cancels buffers not yet started. -/
  | canTxcan (n : Fin 4) (can : BitVec 3)
  /-- CAN_TX_COMPLETE (R487): A transmission succeeds or fails. -/
  | canTxComplete (n : Fin 4) (ok : Bool) (ago : BitVec 32)
  /-- CAN_BUS_OFF (R490): The controller enters bus-off. -/
  | canBusOff (n : Fin 4)
  /-- CAN_BUS_OFF_RECOVERY (R490): 128 recessive sequences recover from bus-off. -/
  | canBusOffRecovery (n : Fin 4)
  /-- CAN_RX_STUCK (R491): The RX line is judged stuck. -/
  | canRxStuck (n : Fin 4) (edges : Bool) (count : Nat)
  /-- CAN_STUCK_CLEAR (R491): Writing 1 to STUCK clears it, or is refused. -/
  | canStuckClear (n : Fin 4) (holds : Bool)
  /-- CAN_REF_INSTANT (R493): A master queues a reference message. -/
  | canRefInstant (n : Fin 4)
  /-- VIN_POWER_FAIL (R505): A qualified fall through V_PF asserts the supply reset and starts the Ledger hold-up. -/
  | vinPowerFail (samples : List (List (BitVec 24)))
  /-- VIN_STOP (R505): VIN reaches V_STOP and every domain except PD_AON loses power. -/
  | vinStop
  /-- VIN_ON (R511): VIN rises through V_ON. -/
  | vinOn
  /-- VIN_VALID (R518): VIN stays above V_ON for 10 ms, and start-up begins. -/
  | vinValid
  /-- POR_AON (R501): Power-on of PD_AON after VIN and VBAT were both absent. -/
  | porAon
  /-- PWR_CTRL_WRITE (R503): PWR_CTRL powers switchable domains off or on, or refuses. -/
  | pwrCtrlWrite (data : Word)
  /-- DOMAIN_SUPPLY_FAULT (R504): A domain supply out of limits for 10 µs. -/
  | domainSupplyFault (dom : Fin 11)
  /-- CLOCK_FAULT (R509): A clock off by more than 2 %, or a missing edge. -/
  | clockFault (row : Fin 12)
  /-- REFCLK_LOST (R510): REFCLK absent for 1 µs; the PLLs switch to BKOSC. -/
  | refclkLost
  /-- REFCLK_RETURN (R510): REFCLK returns and the PLLs relock. -/
  | refclkReturn
  /-- RTC_CHECK (R509): The 1 s check of CK_RTC against REFCLK. -/
  | rtcCheck (missing : Bool)
  /-- RESET_PIN (R511): RESET_N low for 1 µs gives a hub reset. -/
  | resetPin
  /-- RESET_PIN_RELEASE (R511): RESET_N high for 1 ms ends the reset. -/
  | resetPinRelease
  /-- RST_CMD_HUB (R512): RST_CMD.HUB with the key commands a hub reset. -/
  | rstCmdHub (key : BitVec 16)
  /-- RST_CMD_REGION (R512): RST_CMD.REG with the key commands a region reset. -/
  | rstCmdRegion (key : BitVec 16) (regs : BitVec 4)
  /-- DEBUG_RESET (R511): A debug port reset request. -/
  | debugReset
  /-- VBAT_LOW (R515): VBAT below 2.5 V sets VBAT_LOW. -/
  | vbatLow (mv : BitVec 12)
  /-- SELF_TEST_COMPLETE (R519): The hub and region self-tests complete. -/
  | selfTestComplete (fail : BitVec 12) (cells : TestCells)
  /-- BANK_LOAD (R521): A bank is verified and its images are loaded, or it is rejected. -/
  | bankLoad (second : Bool)
  /-- APPLICATION_START (R523): Contexts start and the reset notification ends. -/
  | applicationStart
  /-- ST_RB_RAISE (R522): ST_RB.RAISE raises the anti-rollback count. -/
  | stRbRaise
  /-- MGMT_STATUS (R526): Management STATUS command. -/
  | mgmtStatus (seq : Byte)
  /-- MGMT_READ_LOG (R526): Management READ_LOG command. -/
  | mgmtReadLog (seq area : Byte) (idx : BitVec 16)
  /-- MGMT_AUTH (R527): Management AUTH command. -/
  | mgmtAuth (seq slot : Byte) (sig : List Byte)
  /-- MGMT_AUTH_EXPIRY (R527): 60 s without an authorised command ends write access. -/
  | mgmtAuthExpiry
  /-- MGMT_ERASE (R526): Management ERASE of a bank. -/
  | mgmtErase (seq bank : Byte)
  /-- MGMT_PROGRAM (R526): Management PROGRAM of flash. -/
  | mgmtProgram (seq bank : Byte) (off : Word) (bytes : List Byte)
  /-- MGMT_RESTART (R526): Management RESTART, a hub reset. -/
  | mgmtRestart (seq : Byte)
  /-- NOTE_WINDOW_RECOVERED (R549): NOTEs age out of the rolling 1 s window until it holds NOTE_LIMIT or fewer, which sets RECOVERED for CONTAIN 0xF0 and, with AUTO_CLR, clears it and stops the block timer. -/
  | noteWindowRecovered (blk : BlockId)
  /-- PTP_PDELAY_REQ_SEND (R240): The hardware of each port sends Pdelay_Req at the LOG_PD interval to measure the peer delay. -/
  | ptpPdelayReqSend (p : Fin 2)
  /-- PTP_FOLLOW_UP_RX (R242): A received Follow_Up is matched to its Sync, corrected and forwarded by the transparent clock, and in two-step mode completes the slave offset. -/
  | ptpFollowUpRx (p : Fin 2) (m : PtpMsg)
  /-- CAN_BUS_ERROR (R490): An error detected in a frame on the bus raises or lowers TEC and REC, sends an error flag and may enter error-passive or bus-off. -/
  | canBusError (n : Fin 4) (lec : BitVec 3) (err : CanErr)
  /-- PLCA_BEACON_RX (R277): A PLCA beacon appears or disappears on a T1S port, changing PLCA status and, for a coordinator seeing a beacon it did not send, setting DUP_COORD. -/
  | plcaBeaconRx (n : Fin 8) (seen : Bool) (alien : Bool)
  /-- VBAT_LOW_CLEAR (R515): VBAT has read 2,550 mV or more for 1 s without a break, and VBAT_LOW clears. -/
  | vbatLowClear (mv : BitVec 12) (ms : Nat)
  /-- LH_IN_UNSTUCK (R453): The second ending after a stuck LH_IN holds no more than RATE_LIM × 16 changes, and the input reads its level again. -/
  | lhInUnstuck (k : Fin 6)
deriving DecidableEq, Repr

end Sys2Proof
end

