-- ==== Sys2Proof/Machine/State.lean ====
section
/-!
DEFINITION. Machine/State.lean: the state of the chip, why a step can stop, and the state after reset.
-/
namespace Sys2Proof.Machine

/-- The whole chip. -/
structure State where
  /-- Time since power-on in ticks of 62.5 ps, the chip's finest step (R84): 20 ticks are a CK_SYS cycle. -/
  now : Nat
  /-- Commands waiting, the next first. -/
  pending : List Instr
  /-- Every register of the fabric's map, by address: the value a read returns. -/
  regs : Tab Word
  /-- The committed value of every RWS register (R5), by address. -/
  live : Tab Word
  /-- Every memory, by chip address (Machine/Mem.lean). -/
  mem : List Host.Cell
  ecc : Ecc
  ladder : Ladder
  fabric : Fabric
  weft : Weft
  power : Power
  startup : Startup
  time : Time
  selv : Selvedge
  loom : Loom
  twill : Twill
  sense : Sense
  hs : Switches
  sal : Saltern
  zw : Zwidy
  grid : Grid
  ks : KeyStore
  links : Links
  ses : Session
  thermal : Thermal
  ledger : Ledger
  brine : Brine
  can : Can
  /-- Messages that left the chip, the first first. -/
  out : List OutMsg
  /-- How many free values the machine has taken: no value of the spec. -/
  free : Nat
deriving DecidableEq, Repr

/-- Why a step stops. Whatever the chip can meet has an effect: R5, R21, R117 and the owning chapters give one to every
failure. -/
inductive Fault where
  /-- A command that cannot be (WellFormed.lean): an instruction's word brought as an illegal one, or a copy of the error
  ladder beyond the two that exist.  Raised by NOP, ILLEGAL_INSTRUCTION and LADDER_COPY_FAULT.  Safe: the chip never meets
  such a command, and the machine stops. -/
  | illFormed
deriving DecidableEq, Repr

/-- Why a command has no meaning. -/
inductive Refusal where
  /-- The command has no meaning yet.  Safe: the machine stops. -/
  | notModelled (mnemonic : String)
deriving DecidableEq, Repr

/-- The chip at the power-on of PD_AON, with every domain powered (R511) and no command waiting: every register holds
its Reset value and every memory its contents after the start-up tests (R553). -/
def State.reset : State :=
  { now := 0, pending := [], regs := [], live := [], mem := [], ecc := Ecc.reset, ladder := Ladder.reset,
    fabric := Fabric.reset, weft := Weft.reset, power := Power.reset, startup := Startup.reset, time := Time.reset, selv := Selvedge.reset, loom := Loom.reset, twill := Twill.reset, sense := Sense.reset, hs := Switches.reset,
    sal := Saltern.reset,
    zw := Zwidy.reset,
    grid := Grid.reset,
    ks := KeyStore.reset,
    links := Links.reset,
    ses := Session.reset,
    thermal := Thermal.reset,
    ledger := Ledger.reset,
    brine := Brine.reset,
    can := Can.reset,
    out := [], free := 0 }

end Sys2Proof.Machine
end

