-- ==== Sys2Proof/Machine/Set.lean ====
section
/-!
DEFINITION. Machine/Set.lean: one update per field of the state.
-/
namespace Sys2Proof.Machine

def State.setNow (s : State) (v : Nat) : State := { s with now := v }
def State.setPending (s : State) (v : List Instr) : State := { s with pending := v }
def State.setRegs (s : State) (v : Tab Word) : State := { s with regs := v }
def State.setLive (s : State) (v : Tab Word) : State := { s with live := v }
def State.setMem (s : State) (v : List Host.Cell) : State := { s with mem := v }
def State.setEcc (s : State) (v : Ecc) : State := { s with ecc := v }
def State.setLadder (s : State) (v : Ladder) : State := { s with ladder := v }
def State.setFabric (s : State) (v : Fabric) : State := { s with fabric := v }
def State.setWeft (s : State) (v : Weft) : State := { s with weft := v }
def State.setPower (s : State) (v : Power) : State := { s with power := v }
def State.setStartup (s : State) (v : Startup) : State := { s with startup := v }
def State.setTime (s : State) (v : Time) : State := { s with time := v }
def State.setSelv (s : State) (v : Selvedge) : State := { s with selv := v }
def State.setLoom (s : State) (v : Loom) : State := { s with loom := v }
def State.setTwill (s : State) (v : Twill) : State := { s with twill := v }
def State.setSense (s : State) (v : Sense) : State := { s with sense := v }
def State.setHs (s : State) (v : Switches) : State := { s with hs := v }
def State.setSal (s : State) (v : Saltern) : State := { s with sal := v }
def State.setZw (s : State) (v : Zwidy) : State := { s with zw := v }
def State.setGrid (s : State) (v : Grid) : State := { s with grid := v }
def State.setKs (s : State) (v : KeyStore) : State := { s with ks := v }
def State.setLinks (s : State) (v : Links) : State := { s with links := v }
def State.setSes (s : State) (v : Session) : State := { s with ses := v }
def State.setThermal (s : State) (v : Thermal) : State := { s with thermal := v }
def State.setLedger (s : State) (v : Ledger) : State := { s with ledger := v }
def State.setBrine (s : State) (v : Brine) : State := { s with brine := v }
def State.setCan (s : State) (v : Can) : State := { s with can := v }
def State.setOut (s : State) (v : List OutMsg) : State := { s with out := v }
def State.setFree (s : State) (v : Nat) : State := { s with free := v }

end Sys2Proof.Machine
end

