-- ==== Sys2Proof/Machine/Ops.lean ====
section
/-!
DEFINITION. Machine/Ops.lean: the operations the chapters share: registers, memory, time, blocks and domains,
free values, messages.
-/
namespace Sys2Proof.Machine

/-! Registers -/

/-- The word of the register at `a`. -/
def State.rd (s : State) (a : Nat) : Word := Tab.get regReset s.regs a

/-- The state with `v` in the register at `a`: the hardware's own write, past every access code. -/
def State.wr (s : State) (a : Nat) (v : Word) : State := s.setRegs (Tab.set regReset s.regs a v)

/-- The committed word of the RWS register at `a` (R5). -/
def State.lv (s : State) (a : Nat) : Word := Tab.get regReset s.live a

/-- The state with `v` committed in the RWS register at `a`. -/
def State.wrLive (s : State) (a : Nat) (v : Word) : State := s.setLive (Tab.set regReset s.live a v)

/-- The commit of the register at `a`: the value last written takes effect (R5). -/
def State.commit (s : State) (a : Nat) : State := s.wrLive a (s.rd a)

/-- The state after a write of `data` to the register at `a`, by its access codes alone (R5). -/
def State.wrAccess (s : State) (a : Nat) (data : Word) : State :=
  match regRow a with
  | some r => s.wr a (r.written (s.rd a) data)
  | none => s

/-- A field of the register at `a`. -/
def State.fld (s : State) (a : Nat) (f : Fld) : Nat := f.get (s.rd a)

/-- A field of the committed word at `a`. -/
def State.lfld (s : State) (a : Nat) (f : Fld) : Nat := f.get (s.lv a)

/-- A one-bit field of the register at `a`. -/
def State.flag (s : State) (a : Nat) (f : Fld) : Bool := s.fld a f ≠ 0

/-- The state with the field `f` of the register at `a` set to `x`. -/
def State.setFld (s : State) (a : Nat) (f : Fld) (x : Nat) : State := s.wr a (f.put (s.rd a) x)

/-- The state with the one-bit field `f` of the register at `a` set to `b`. -/
def State.setFlag (s : State) (a : Nat) (f : Fld) (b : Bool) : State := s.setFld a f (bit01 b)

/-- The state with bit `i` of the field `f` of the register at `a` set to `b`. -/
def State.setBit (s : State) (a : Nat) (f : Fld) (i : Nat) (b : Bool) : State := s.setFld a f (withBit (s.fld a f) i b)

/-- The counter field `f` of the register at `a` raised by `n`, saturating. -/
def State.bump (s : State) (a : Nat) (f : Fld) (n : Nat := 1) : State :=
  s.setFld a f (satAdd (2 ^ (f.hi + 1 - f.lo) - 1) (s.fld a f) n)

/-- The state with `x` modulo 2^32 in the register at `a`. -/
def State.wrNat (s : State) (a x : Nat) : State := s.wr a (BitVec.ofNat 32 x)

/-! Memory, little-endian -/

/-- The `n` bytes at `a`. -/
def State.bytes (s : State) (a n : Nat) : List Byte := memBytes s.mem a n

/-- The number in the `n` bytes at `a`. -/
def State.num (s : State) (a n : Nat) : Nat := leNat (s.bytes a n)

/-- The state with the bytes `l` at `a`. -/
def State.putBytes (s : State) (a : Nat) (l : List Byte) : State := s.setMem (memPut s.mem a l)

/-- The state with the number `x` in the `n` bytes at `a`. -/
def State.putNum (s : State) (a n x : Nat) : State := s.putBytes a (leBytes n x)

/-- `n` bytes from `a` lie inside shared SRAM. -/
def sramRange (a n : Nat) : Bool := inSram a && a + n ≤ sramBase + sramSize

/-! Time -/

def ticksPerNs : Nat := 16
def ticksPerUs : Nat := 16000
def ticksPerMs : Nat := 16000000
def ticksPerS : Nat := 16000000000
/-- One CK_SYS cycle: 1.25 ns (R508). -/
def ticksSys : Nat := 20
/-- One CK_PWM cycle: 1 ns (R84). -/
def ticksPwm : Nat := 16
/-- One CK_NET cycle: 8 ns (R508). -/
def ticksNet : Nat := 128

/-- The deadline has been reached. -/
def State.reached (s : State) : Option Nat → Bool
  | some d => d ≤ s.now
  | none => false

/-- 2^-16 ns in units of the accumulator of a base. -/
def tbUnit : Nat := 1000000000000
/-- One second in 2^-16 ns. -/
def tbSecond : Nat := 65536000000000
/-- Seconds wrap modulo 2^48 (R230). -/
def tbModulus : Nat := 2 ^ 48 * tbSecond * tbUnit

/-- The value of a base at instant `now`, in units of 10^-12 of 2^-16 ns: each CK_NET cycle adds
8 ns × (1 + RATE × 10^-12) (R230). -/
def TimeBase.value (b : TimeBase) (now : Nat) : Nat :=
  (b.val + (now / ticksNet - b.cyc) * (524288 * (1000000000000 + b.rate).toNat)) % tbModulus

/-- The value that the base had at an earlier instant `at_`, in units of 10^-12 of 2^-16 ns, at its present rate; a step made since
does not move it (R486). -/
def TimeBase.past (b : TimeBase) (now at_ : Nat) : Nat :=
  let back : Int := (now / ticksNet - at_ / ticksNet : Nat) * (524288 * (1000000000000 + b.rate))
  let by_ : Int := if b.stepCyc.any (fun c => at_ / ticksNet < c) then b.stepBy * tbUnit else 0
  ((b.value now - back - by_) % tbModulus).toNat

/-- TB[n]. -/
def State.tb (s : State) (n : Nat) : TimeBase := Tab.get TimeBase.initial s.time.tb n

def State.setTb (s : State) (n : Nat) (b : TimeBase) : State :=
  s.setTime { s.time with tb := Tab.set TimeBase.initial s.time.tb n b }

/-- The present value of TB[n] in 2^-16 ns. -/
def State.tbVal (s : State) (n : Nat) : Nat := (s.tb n).value s.now / tbUnit

/-- The present value of TB[n] in whole nanoseconds. -/
def State.tbNs (s : State) (n : Nat) : Nat := s.tbVal n / 65536

/-- The seconds of TB[n], and the nanoseconds and fraction of the second. -/
def State.tbSec (s : State) (n : Nat) : Nat := s.tbVal n / tbSecond
def State.tbSubNs (s : State) (n : Nat) : Nat := s.tbVal n % tbSecond / 65536
def State.tbFrac (s : State) (n : Nat) : Nat := s.tbVal n % 65536

/-- HOLD_AGE of TB[n] (R237, R250): the seconds in HOLDOVER or HOLD_EXP, saturating. -/
def State.holdAge (s : State) (n : Nat) : Nat :=
  match (s.tb n).holdAt with
  | some t => min 0xFFFF ((s.now - t) / ticksPerS)
  | none => 0

/-- The base with the value `v` (2^-16 ns) and the rate `r` from the present CK_NET cycle on; the accumulator below the
fraction goes on (R230). -/
def TimeBase.rebase (b : TimeBase) (now v : Nat) (r : Int) : TimeBase :=
  { b with cyc := now / ticksNet, val := (v * tbUnit + b.value now % tbUnit) % tbModulus, rate := r }

/-- The base with the rate `r` from the present CK_NET cycle on, no fraction lost. -/
def TimeBase.withRate (b : TimeBase) (now : Nat) (r : Int) : TimeBase :=
  { b with cyc := now / ticksNet, val := b.value now, rate := r }

/-! Blocks, regions and domains (R11, R502) -/

/-- The identifier of a block (R11). -/
def blkNum : BlockId → Nat
  | .loom => 0x00 | .twill => 0x01 | .sensing => 0x02 | .saltern => 0x03 | .grid => 0x04
  | .ethernet => 0x08 | .time => 0x09 | .t1s => 0x0A | .plc => 0x0B | .can => 0x0C | .session => 0x0D | .zwidy => 0x0E
  | .metrology => 0x10 | .tariff => 0x11 | .eventStore => 0x12 | .keyStore => 0x13 | .tamperWatch => 0x14
  | .selvedge => 0x18 | .thermal => 0x19 | .loadSwitch => 0x1A | .brine => 0x1B
  | .weft => 0x20 | .sram => 0x21 | .flash => 0x22 | .fabric => 0x23 | .power => 0x24 | .selfTest => 0x25
  | .ladder => 0x26 | .debug => 0x27

/-- The identifiers that R11 lists. -/
def listedBlocks : List Nat :=
  [0x00, 0x01, 0x02, 0x03, 0x04, 0x08, 0x09, 0x0A, 0x0B, 0x0C, 0x0D, 0x0E, 0x10, 0x11, 0x12, 0x13, 0x14,
   0x18, 0x19, 0x1A, 0x1B, 0x20, 0x21, 0x22, 0x23, 0x24, 0x25, 0x26, 0x27]

/-- The region of a block, none for the hub (R11). -/
def regionOf (blk : Nat) : Option Nat := if blk < 0x20 then some (blk / 8) else none

/-- The index of the power domain of a block (R11, R502). -/
def domainOf (blk : Nat) : Nat :=
  if blk = 0x00 then 9 else if blk = 0x01 ∨ blk = 0x03 then 8 else if blk = 0x02 ∨ blk = 0x04 then 6
  else if blk = 0x0B then 10 else if blk < 0x10 then 7 else if blk = 0x13 then 3 else if blk = 0x14 then 0
  else if blk < 0x18 then 4 else if blk = 0x18 then 1 else if blk = 0x19 then 6 else if blk < 0x20 then 5 else 2

/-- The domain of index `d` is powered. -/
def State.domUp (s : State) (d : Nat) : Bool := bitOf (s.fld Reg.PWR_STATUS F.PWR_STATUS_UP) d

/-- A block that the reset of its region holds (R31): Selvedge, Brine, the key store and the tamper-current watch are
never reset by the error ladder. -/
def neverReset (blk : Nat) : Bool := blk = 0x18 || blk = 0x1B || blk = 0x13 || blk = 0x14

/-- The record of region `r`. -/
def State.regRec (s : State) (r : Nat) : RegRec := Tab.get (fun _ => RegRec.reset) s.ladder.reg r

def State.setRegRec (s : State) (r : Nat) (v : RegRec) : State :=
  s.setLadder { s.ladder with reg := Tab.set (fun _ => RegRec.reset) s.ladder.reg r v }

/-- The record of block `blk`. -/
def State.blkRec (s : State) (blk : Nat) : BlkRec := Tab.get (fun _ => BlkRec.reset) s.ladder.blk blk

def State.setBlkRec (s : State) (blk : Nat) (v : BlkRec) : State :=
  s.setLadder { s.ladder with blk := Tab.set (fun _ => BlkRec.reset) s.ladder.blk blk v }

/-- The region's reset is in progress (R24), or the hub is held in reset, which resets the Power, Link and Guard
regions too (R31). -/
def State.regionHeld (s : State) (r : Nat) : Bool := (s.regRec r).inReset || (s.power.hubReset && r ≠ 2)

/-! The always-on counter (R233, R509) -/

/-- What the counter was loaded with, in ticks, and when: at the last change of TB[3] seconds since the base's value or rate
was set, or what is recorded from before. -/
def State.aonLoad (s : State) : Nat × Nat :=
  let b := s.tb 3
  let sec := s.tbSec 3
  let target := sec * tbSecond * tbUnit
  let inc := 524288 * (1000000000000 + b.rate).toNat
  if b.val / tbUnit / tbSecond = sec then (s.power.aonVal, s.power.aonAt)
  else (sec * ticksPerS, (b.cyc + (target - b.val + inc - 1) / inc) * ticksNet)

/-- The always-on counter in ticks (R233): while PD_NET is powered it is reloaded at each change of TB[3] seconds. -/
def State.aonTicks (s : State) : Nat :=
  let l := if s.domUp 7 then s.aonLoad else (s.power.aonVal, s.power.aonAt)
  l.1 + (if s.power.aonRun then s.now - l.2 else 0)

/-- TB[n] is set to `b`: the always-on counter keeps its count, and takes the seconds of TB[3] where they change. -/
def State.setBase (s : State) (n : Nat) (b : TimeBase) : State :=
  if n ≠ 3 then s.setTb n b
  else
    let t := s.setTb n b
    let ticks := if t.tbSec 3 = s.tbSec 3 then s.aonTicks else t.tbNs 3 * ticksPerNs
    t.setPower { s.power with aonVal := ticks, aonAt := s.now }

/-- CK_FIELD in ticks (R483, R508). -/
def fieldCycle : Nat := 200
/-- An instant lies in this cycle of CK_FIELD. -/
def State.thisCycle (s : State) (t : Option Nat) : Bool := t.any (fun t => t / fieldCycle = s.now / fieldCycle)

/-- The block is powered and out of reset: only then does it act. -/
def State.up (s : State) (blk : Nat) : Bool :=
  s.domUp (domainOf blk) &&
    (neverReset blk ||
      (match regionOf blk with
       | some r => !s.regionHeld r
       | none => !s.power.hubReset))

/-- What a block does where it is up; nothing where it is unpowered or held in reset. -/
def State.onBlk (s : State) (b : BlockId) (f : State → State) : State := if s.up (blkNum b) then f s else s

/-- OWNED (R223): without a redundant pair the device is in charge; else it claims and the partner's line counts as
released. -/
def State.owned (s : State) : Bool :=
  !s.flag Reg.ZW_CTRL F.ZW_CTRL_PAIR_EN ||
    (s.flag Reg.ZW_PAIR F.ZW_PAIR_CLAIM && !s.flag Reg.ZW_PAIR F.ZW_PAIR_PARTNER)

/-- The level of this device's own ownership line (R222): high while CLAIM is 1, low in a hub reset and in the chip safe
state; a device without power or in a reset of its engine drives nothing high. -/
def State.ownLevel (s : State) : Bool :=
  s.flag Reg.ZW_PAIR F.ZW_PAIR_CLAIM && s.up 0x0E && !s.power.hubReset && !s.power.chipSafe

/-- The levels that the device drives on OWN_A and OWN_B: position A drives the first, B the second (R222). -/
def State.ownLines (s : State) : Option Bool × Option Bool :=
  if Config.pairSel then (none, some s.ownLevel) else (some s.ownLevel, none)

/-! Free values and messages -/

/-- The next free value. -/
def State.freeNat (s : State) : Nat := Config.freeNat s.free

/-- The state in which that free value has been taken. -/
def State.took (s : State) : State := s.setFree (s.free + 1)

/-- n free values are taken. -/
def State.drew (s : State) (n : Nat) : State := s.setFree (s.free + n)

/-- The message has left the chip. -/
def State.emit (s : State) (m : OutMsg) : State := s.setOut (s.out ++ [m])

/-! Weft contexts and event lines -/

/-- The key of a context: 4 · engine + context. -/
def CtxKey (eng ctx : Nat) : Nat := 4 * eng + ctx
def ctxKey (c : CtxId) : Nat := CtxKey c.eng.val c.ctx.val

/-- The context of key `k`. -/
def State.ctx (s : State) (k : Nat) : Context := Tab.get (fun _ => Context.reset) s.weft.ctx k

def State.setCtx (s : State) (k : Nat) (x : Context) : State :=
  s.setWeft { s.weft with ctx := Tab.set (fun _ => Context.reset) s.weft.ctx k x }

/-- Whether the EVT_SEL word routes line `line` of block `blk` (R70). -/
def selects (sel : Word) (blk line : Nat) : Bool :=
  sel.toNat / 2 ^ 31 = 1 && sel.toNat / 256 % 256 = blk && sel.toNat % 256 = line

/-- The event lines that the blocks' owning chapters define. -/
def lineExists (blk line : Nat) : Bool :=
  if blk = 0x00 then line ≤ 0x90
  else if blk = 0x01 then line ≤ 0x63
  else if blk = 0x02 then line ≤ 0x31 || (0x40 ≤ line && line ≤ 0x6F)
  else if blk = 0x03 ∨ blk = 0x11 then line ≤ 5 || (8 ≤ line && line ≤ 0xF)
  else if blk = 0x04 then line ≤ 5
  else if blk = 0x09 ∨ blk = 0x0A then line ≤ 0x17
  else if blk = 0x0B then line ≤ 0x32
  else if blk = 0x0C then line ≤ 0x13
  else if blk = 0x0D then line ≤ 0x27
  else if blk = 0x0E then line ≤ 8
  else if blk = 0x10 then line ≤ 0x10
  else if blk = 0x12 then line ≤ 2
  else if blk = 0x13 ∨ blk = 0x24 then line ≤ 3
  else if blk = 0x18 then line ≤ 3 || (0x10 ≤ line && line ≤ 0x17)
  else if blk = 0x19 then line ≤ 0x1E
  else if blk = 0x1A then line ≤ 0x20
  else if blk = 0x1B then line ≤ 4
  else false

/-- The sources an engine accepts (R71): a WS every listed line, but of Selvedge those that leave it; the metrology
sequencer those of 0x10, 0x11, 0x12 and 0x14 and lines 0x03 and 0x07 of the time unit; the pair its own four (R421). -/
def lineDefined (eng blk line : Nat) : Bool :=
  lineExists blk line &&
    (if eng < 8 then blk ≠ 0x18 || 0x10 ≤ line
     else if eng = 8 then
       [0x10, 0x11, 0x12, 0x14].contains blk || (blk = 0x09 && (line = 3 || line = 7))
     else blk = 0x18 && line ≤ 3)

/-- The copies of an event line's event: one for each event number of each context that selects the line (R70). -/
def lineCopies (t : Tab Context) (blk line : Nat) : List (Nat × Nat) :=
  t.flatMap (fun e =>
    if lineDefined (e.1 / 4) blk line then
      e.2.evtSel.filterMap (fun q => if selects q.2 blk line then some (e.1, q.1) else none)
    else [])

/-- Line `line` of block `blk` fires: its copies are on their way (R16, R70). -/
def State.line (s : State) (blk line : Nat) : State :=
  s.setWeft { s.weft with flying := s.weft.flying ++ lineCopies s.weft.ctx blk line }

/-- CK_SYS, CK_LEDGER or CK_SAFE: one cycle of the engine's clock (R42, R62, R63). -/
def engTicks (eng : Nat) : Nat := if eng < 8 then ticksSys else if eng = 8 then 320 else 160

end Sys2Proof.Machine
end

