-- ==== Sys2Proof/Machine/SenseBase.lean ====
section
/-!
DEFINITION. Machine/SenseBase.lean: the inputs, modules, outlets and crosspoints of converter sensing, and the matrix
interlock (R153, R157 to R161).
-/
namespace Sys2Proof.Machine

def State.adc (s : State) (a : Nat) : Adc := Tab.get (fun _ => Adc.reset) s.sense.adc a
def State.setAdc (s : State) (a : Nat) (v : Adc) : State :=
  s.setSense { s.sense with adc := Tab.set (fun _ => Adc.reset) s.sense.adc a v }
def State.ain (s : State) (n : Nat) : Ain := Tab.get (fun _ => Ain.reset) s.sense.ain n
def State.setAin (s : State) (n : Nat) (v : Ain) : State :=
  s.setSense { s.sense with ain := Tab.set (fun _ => Ain.reset) s.sense.ain n v }
def State.sumCheck (s : State) (o : Nat) : SumCheck := Tab.get (fun _ => SumCheck.reset) s.sense.sum o
def State.setSumCheck (s : State) (o : Nat) (v : SumCheck) : State :=
  s.setSense { s.sense with sum := Tab.set (fun _ => SumCheck.reset) s.sense.sum o v }
def State.heldCoil (s : State) (x : Nat) : Option HeldCoil := Tab.get (fun _ => none) s.sense.held x
def State.setHeldCoil (s : State) (x : Nat) (v : Option HeldCoil) : State :=
  (s.setSense { s.sense with held := Tab.set (fun _ => none) s.sense.held x v }).setFlag (Reg.XP x) F.XP_PEND v.isSome

/-- The input has not been written for 100 µs (R159). -/
def State.stale (s : State) (n : Nat) : Bool :=
  47 < n || (match (s.ain n).wrote with | some t => t + 100 * ticksPerUs ≤ s.now | none => true)

/-- ADC[a] is enabled. -/
def State.adcEn (s : State) (a : Nat) : Bool := bitOf (s.fld Reg.SNS_CTRL F.SNS_CTRL_ADC_EN) a

/-- The position that group g selects for ADC a (R151). -/
def State.selOf (s : State) (g a : Nat) : Nat := (s.rd (Reg.SG_SEL g)).toNat / 16 ^ a % 16

/-- No SEL field of the group is 7 to 0xE (R151). -/
def State.groupValid (s : State) (g : Nat) : Bool :=
  (List.range 8).all (fun a => s.selOf g a < 7 || s.selOf g a = 15)

/-- A group that trigger t fires selects ADC a: the ADC is bound to the trigger (R119, R151). -/
def State.adcBound (s : State) (t a : Nat) : Bool :=
  (List.range 16).any (fun g =>
    s.flag (Reg.SG_CFG g) F.SG_CFG_EN && s.fld (Reg.SG_CFG g) F.SG_CFG_TRIG = t && s.groupValid g && s.selOf g a < 7)

/-- The result word of an input as a signed number. -/
def State.ainRes (s : State) (n : Nat) : Int := (s.rd (Reg.AIN_RES n)).toInt

/-- The fields of module m name channels to 23 and inputs to 47 (R157). DESIGN CHOICE: CH is named where NCH is 0 too (log
entry 147). -/
def State.modValid (s : State) (m : Nat) : Bool :=
  s.fld (Reg.MOD_CFG m) F.MOD_CFG_CH ≤ 23 && s.fld (Reg.MOD_CFG m) F.MOD_CFG_CH + s.fld (Reg.MOD_CFG m) F.MOD_CFG_NCH ≤ 24 &&
    s.fld (Reg.MOD_SNS m) F.MOD_SNS_I_AIN ≤ 47 && s.fld (Reg.MOD_SNS m) F.MOD_SNS_V_AIN ≤ 47
def State.modOn (s : State) (m : Nat) : Bool := s.flag (Reg.MOD_CFG m) F.MOD_CFG_EN && s.modValid m

/-- Outlet o is enabled, and its fields name inputs to 47. -/
def State.outlValid (s : State) (o : Nat) : Bool :=
  s.fld (Reg.OUTL_CFG o) F.OUTL_CFG_VV_AIN ≤ 47 && s.fld (Reg.OUTL_CFG o) F.OUTL_CFG_VB_AIN ≤ 47 &&
    s.fld (Reg.OUTL_CFG o) F.OUTL_CFG_I_AIN ≤ 47
def State.outlOn (s : State) (o : Nat) : Bool := s.flag (Reg.OUTL_CFG o) F.OUTL_CFG_EN && s.outlValid o

/-- I_M, V_M of a module and V_B, V_V, I_O of an outlet, as input numbers. -/
def State.inIM (s : State) (m : Nat) : Nat := s.fld (Reg.MOD_SNS m) F.MOD_SNS_I_AIN
def State.inVM (s : State) (m : Nat) : Nat := s.fld (Reg.MOD_SNS m) F.MOD_SNS_V_AIN
def State.inVB (s : State) (o : Nat) : Nat := s.fld (Reg.OUTL_CFG o) F.OUTL_CFG_VB_AIN
def State.inVV (s : State) (o : Nat) : Nat := s.fld (Reg.OUTL_CFG o) F.OUTL_CFG_VV_AIN
def State.inIO (s : State) (o : Nat) : Nat := s.fld (Reg.OUTL_CFG o) F.OUTL_CFG_I_AIN

def State.xpEn (s : State) (x : Nat) : Bool := s.flag (Reg.XP x) F.XP_EN
def State.xpMod (s : State) (x : Nat) : Nat := s.fld (Reg.XP x) F.XP_MOD
def State.xpOut (s : State) (x : Nat) : Nat := s.fld (Reg.XP x) F.XP_OUT
def State.xpHs (s : State) (x : Nat) : Nat := s.fld (Reg.XP x) F.XP_HS
/-- The coil is commanded on. -/
def State.xpOn (s : State) (x : Nat) : Bool := s.flag (Reg.XP x) F.XP_STATE

/-- A lower enabled crosspoint names the same channel or the same module and outlet: x acts as disabled (R158). -/
def State.xpClash (s : State) (x : Nat) : Bool :=
  (List.range x).any (fun y => s.xpEn y &&
    (s.xpHs y = s.xpHs x || (s.xpMod y = s.xpMod x && s.xpOut y = s.xpOut x)))
def State.xpActs (s : State) (x : Nat) : Bool := s.xpEn x && !s.xpClash x

/-- |a − b| below the voltage match threshold (R159, R169). -/
def State.matched (s : State) (a b : Nat) : Bool :=
  !s.stale a && !s.stale b &&
    (s.ainRes a - s.ainRes b).natAbs < s.fld Reg.SNS_MXV F.SNS_MXV_MATCH_DV * 65536

/-- The matrix interlock allows the change (R159). -/
def State.xpAllowed (s : State) (x : Nat) (close : Bool) : Bool :=
  let m := s.xpMod x
  s.modOn m && s.outlOn (s.xpOut x) && !s.stale (s.inIM m) &&
    (s.ainRes (s.inIM m)).natAbs < s.fld Reg.SNS_MX F.SNS_MX_I_ZERO * 65536 &&
    (!close ||
      (s.matched (s.inVM m) (s.inVB (s.xpOut x)) &&
        (List.range 16).all (fun y => y = x || !(s.xpActs y && s.xpMod y = m && s.xpOn y))))

/-- The current-sum check of outlet o is suspended for CHK_HOLD (R162). DESIGN CHOICE: the counts of consecutive evaluations
start again after it, and an evaluation that is skipped leaves them (log entry 148). -/
def State.holdCheck (s : State) (o : Nat) : State :=
  s.setSumCheck o { s.sumCheck o with
    hold := some (s.now + s.fld Reg.SNS_MX F.SNS_MX_CHK_HOLD * ticksPerMs), bad := 0, good := 0 }

/-- The target of a weld check in progress is commanded closed: the check is an ERROR (R163). -/
def State.weldSpoil (s : State) (outlet : Bool) (t : Nat) : State :=
  match s.sense.weld with
  | some w => if w.outlet = outlet ∧ w.tgt = t then s.setSense { s.sense with weld := some { w with err := true } } else s
  | none => s

/-- The coil command of crosspoint x takes effect, or a reset or the loss of OWNED moves its coil (R161, R224). -/
def State.xpSet (s : State) (x : Nat) (close : Bool) : State :=
  let s := ((s.setFlag (Reg.XP x) F.XP_STATE close).setHeldCoil x none).holdCheck (s.xpOut x)
  if close then s.weldSpoil false x else s

/-- A command to change the coil of x (R159, R160): taken where the interlock allows it, else held; it replaces a held
one. -/
def State.xpCommand (s : State) (x : Nat) (close : Bool) : State :=
  if s.xpOn x = close then s.setHeldCoil x none
  else if s.xpAllowed x close then s.xpSet x close
  else s.setHeldCoil x (some
    { close := close, due := s.now + orDefault (s.fld Reg.SNS_MX F.SNS_MX_XP_HOLD) 1 * ticksPerMs })

/-- The crosspoint whose coil channel h drives. -/
def State.coilOf (s : State) (h : Nat) : Option Nat :=
  if s.up 0x02 then (List.range 16).find? (fun x => s.xpActs x && s.xpHs x = h) else none

/-- R224: while OWNED is 0, the channels that enabled crosspoints name are held off. -/
def State.coilHeldOff (s : State) (h : Nat) : Bool :=
  !s.owned && (List.range 16).any (fun x => s.xpEn x && s.xpHs x = h)

end Sys2Proof.Machine
end

