-- ==== Sys2Proof/Machine/SwitchBase.lean ====
section
/-!
DEFINITION. Machine/SwitchBase.lean: the drives and states of the load switches, and their behaviour in a reset
(R445 to R449, R453 to R455, R533).
-/
namespace Sys2Proof.Machine

def State.sw (s : State) (n : Nat) : LoadSwitch := Tab.get (fun _ => LoadSwitch.reset) s.hs.hs n
def State.setSw (s : State) (n : Nat) (v : LoadSwitch) : State :=
  s.setHs { s.hs with hs := Tab.set (fun _ => LoadSwitch.reset) s.hs.hs n v }

/-- STATE and RCNT of HS[n].STAT. -/
def State.hsState (s : State) (n : Nat) : Nat := s.fld (Reg.HS_STAT n) F.HS_STAT_STATE
def State.rcnt (s : State) (n : Nat) : Nat := s.fld (Reg.HS_STAT n) F.HS_STAT_RCNT
def State.therm (s : State) (n : Nat) : Bool := s.flag (Reg.HS_STAT n) F.HS_STAT_THERM
def State.setRcnt (s : State) (n v : Nat) : State := s.setFld (Reg.HS_STAT n) F.HS_STAT_RCNT v
def hsOff : Nat := 0
def hsOn : Nat := 1
def hsRetry : Nat := 2
def hsLatched : Nat := 3
def hsFused : Nat := 4

/-- The output of channel n is on. -/
def State.hsDriving (s : State) (n : Nat) : Bool := s.hsState n = hsOn && !s.therm n && !s.hs.overV

/-- INOM in mA and I2T in A²s of the channel's fuse curve (R449). -/
def fuseCurve : Nat → Nat × Nat
  | 1 => (2000, 40) | 2 => (2500, 60) | 3 => (2500, 100) | 4 => (2500, 160) | _ => (1500, 20)
def State.fuseOf (s : State) (n : Nat) : Nat × Nat := fuseCurve (s.fld (Reg.HS_CFG n) F.HS_CFG_FUSE)

/-- I2T in units of the integrator. -/
def fuseLimit (i2t : Nat) : Nat := i2t * 10000000000

/-- The integrator now (R449): each 100 µs since the last change of the current adds i² − INOM², never below 0. -/
def State.fuseNow (s : State) (n : Nat) : Nat :=
  let x := s.sw n
  let k : Nat := (s.now - x.fuseAt) / (100 * ticksPerUs)
  let i := s.fld (Reg.HS_MEAS n) F.HS_MEAS_I_MA
  let nom := (s.fuseOf n).1
  ((x.fuse : Int) + k * ((i * i : Nat) - (nom * nom : Nat) : Int)).toNat

/-- FUSE.LEVEL (R461): f × 100 ÷ I2T, saturating at 100. -/
def State.fuseLevel (s : State) (n : Nat) : Nat := min 100 (s.fuseNow n * 100 / fuseLimit (s.fuseOf n).2)

/-- The measured current of channel n is `ma` from now on: the integrator is brought up to now first. -/
def State.current (s : State) (n ma : Nat) : State :=
  let x := s.sw n
  let k := (s.now - x.fuseAt) / (100 * ticksPerUs)
  let s := s.setSw n { x with fuse := s.fuseNow n, fuseAt := x.fuseAt + k * (100 * ticksPerUs) }
  s.setFld (Reg.HS_MEAS n) F.HS_MEAS_I_MA ma

/-- LH_IN[k] as the channels read it: 6 and 7, and a stuck input, read inactive (R453, R461). -/
def State.lhIn (s : State) (k : Nat) : Bool :=
  k < 6 && bitOf s.hs.level k && (Tab.get (fun _ => none) s.hs.stuckAt k).isNone

def State.onBit (s : State) (n : Nat) : Bool := bitOf (s.fld Reg.HS_ON F.HS_ON_VAL) n

/-- What ON, SRC and the pin ask of channel n (R445). -/
def State.wanted (s : State) (n : Nat) : Bool :=
  s.onBit n && (!s.flag (Reg.HS_CFG n) F.HS_CFG_SRC || s.lhIn (s.fld (Reg.HS_CFG n) F.HS_CFG_PIN))

/-- The reset behaviour of channel n (R454). -/
def State.behaviour (s : State) (n : Nat) : Bool :=
  if s.flag Reg.LH_PIN F.LH_PIN_LH_EN then
    let m := s.fld (Reg.HS_CFG n) F.HS_CFG_LH_MAP
    m = 6 || s.lhIn m
  else s.flag Reg.HS_CTRL F.HS_CTRL_KLS_EN && (s.sw n).keep

/-- The drive of channel n (R445, R159, R224, R454, R455). -/
def State.driveOf (s : State) (n : Nat) : Bool :=
  if s.hs.behave then s.behaviour n
  else
    match (s.sw n).hold with
    | some b => b
    | none =>
      if s.coilHeldOff n then false
      else
        match s.coilOf n with
        | some x => s.xpOn x
        | none => s.wanted n

/-- A turn-on: a new inrush window opens, and the second of R446 starts (R447). -/
def State.hsTurnOn (s : State) (n : Nat) : State :=
  let x := s.sw n
  (s.setFld (Reg.HS_STAT n) F.HS_STAT_STATE hsOn).setSw n
    { x with inrushEnd := s.now + orDefault (s.fld (Reg.HS_CFG n) F.HS_CFG_INRUSH) 1 * (5 * ticksPerMs),
             onAt := some s.now, retryAt := none, retryLeft := none }

/-- The channel enters a state in which its output is off. -/
def State.hsGoes (s : State) (n st : Nat) : State :=
  let s := (s.current n 0).setFld (Reg.HS_STAT n) F.HS_STAT_STATE st
  s.setSw n { s.sw n with onAt := none, retryAt := none, retryLeft := none }

/-- The crosspoint whose coil channel n drives follows what acts on the channel past the interlock: a reset, the drive kept
after it, or R224 (R161); once R224 ends, a coil that ON asks for is a command again (R159). -/
def State.coilFollows (s : State) (n : Nat) : State :=
  let bar := s.coilHeldOff n
  let freed := (s.sw n).barred && !bar
  let s := if (s.sw n).barred = bar then s else s.setSw n { s.sw n with barred := bar }
  match s.coilOf n with
  | some x =>
    if s.hs.behave || (s.sw n).hold.isSome || bar then
      (if s.xpOn x = s.driveOf n then s else s.xpSet x (s.driveOf n))
    else if freed && s.wanted n && !s.xpOn x then s.xpCommand x true
    else s
  | none => s

/-- Channel n follows its drive (R445): a drive of 0 at the instant of a retry still ends the wait, with RCNT := 0. -/
def State.hsRefresh (s : State) (n : Nat) : State :=
  let s := s.coilFollows n
  let d := s.domUp 5 && s.driveOf n
  let x := s.sw n
  let s := if d = x.drive then s else s.setSw n { x with drive := d, driveAt := s.now }
  if d then
    if !x.drive && s.hsState n = hsOff && !s.hs.overV then s.hsTurnOn n else s
  else if s.hsState n = hsOn then
    (if s.thisCycle x.retried then (s.hsGoes n hsOff).setRcnt n 0 else s.hsGoes n hsOff)
  else if s.hsState n = hsRetry then (s.hsGoes n hsOff).setRcnt n 0
  else s

def State.hsRefreshAll (s : State) : State := (List.range 16).foldl (fun s n => s.hsRefresh n) s

/-- The wanted drive of channel n may have changed from `was`: a coil of the matrix takes it as a command (R160); any
other channel follows it. -/
def State.hsCommand (s : State) (n : Nat) (was : Bool) : State :=
  let s := match s.coilOf n with
    | some x => if s.wanted n = was then s else s.xpCommand x (s.wanted n)
    | none => s
  s.hsRefresh n

/-- Registers of the block that a reset keeps (R454). -/
def keepSwitch (a : Nat) : Bool :=
  (Reg.HS_CFG 0 ≤ a && a ≤ Reg.HS_FUSE 15) || a = Reg.LH_CFG || a = Reg.LH_PIN || a = Reg.HS_CTRL

/-- The reset behaviour of R454 begins or ends with the resets that reach the load switches and the chip safe state, and
lasts until the application starts (R523). At its end each ON bit takes the drive of its channel, which then holds until firmware writes (R455). -/
def State.switchesSync (s : State) : State :=
  let b := s.power.hubReset || (s.regRec 3).inReset || s.power.chipSafe || s.power.supplyReset || s.startup.booting
  if b = s.hs.behave then s.hsRefreshAll
  else if b then
    let s := (List.range 16).foldl (fun s n => s.setSw n { s.sw n with keep := (s.sw n).drive, hold := none }) s
    (s.setHs { s.hs with behave := true }).hsRefreshAll
  else
    let s := (List.range 16).foldl (fun s n =>
      (s.setBit Reg.HS_ON F.HS_ON_VAL n (s.sw n).drive).setSw n { s.sw n with hold := some (s.sw n).drive }) s
    let s := (s.setHs { s.hs with behave := false }).setFlag Reg.HS_CTRL F.HS_CTRL_LH_SEEN true
    (s.line 0x1A 0x20).hsRefreshAll

/-- The reset of the block's registers (R454): what is not kept takes its Reset value. -/
def resetSwitches (s : State) : State :=
  let s := s.wr Reg.HS_ON (regReset Reg.HS_ON)
  let s := (s.setFld Reg.HS_CTRL F.HS_CTRL_ISEL_SRC 0).setFld Reg.HS_CTRL F.HS_CTRL_ISEL_CH 0
  (s.setFld Reg.HS_CTRL F.HS_CTRL_LH_SEEN 0).setFld Reg.LH_PIN F.LH_PIN_STUCK 0

end Sys2Proof.Machine
end

