-- ==== Sys2Proof/Machine/SafetyOut.lean ====
section
/-!
DEFINITION. Machine/SafetyOut.lean: the safety configuration, the safe inputs and the safe outputs of Selvedge
(R422, R427, R431 to R434, R438).
-/
namespace Sys2Proof.Machine

/-- The `n` bytes of the safety configuration at offset `off`, as a number (R422). -/
def State.scfg (s : State) (off n : Nat) : Nat := s.num (pairDtcm + off) n

/-- Fields of the configuration of pair n and of SOUT[m]. -/
def State.pairMode (s : State) (n : Nat) : Nat := s.scfg (0x10 + 8 * n) 1
def State.outEn (s : State) (m : Nat) : Bool := s.scfg (0x90 + 16 * m) 1 = 1
def State.outCh (s : State) (m : Nat) : Nat := s.scfg (0x90 + 16 * m + 1) 1

/-- STATE of SFS_STATUS. -/
def State.sfsState (s : State) : Nat := s.fld Reg.SFS_STATUS F.SFS_STATUS_STATE
def sfsRun : Nat := 1
def sfsFault : Nat := 4

def State.safePair (s : State) (n : Nat) : SafePair := Tab.get (fun _ => SafePair.reset) s.selv.pairs n
def State.setSafePair (s : State) (n : Nat) (v : SafePair) : State :=
  s.setSelv { s.selv with pairs := Tab.set (fun _ => SafePair.reset) s.selv.pairs n v }
def State.safeOut (s : State) (m : Nat) : SafeOut := Tab.get (fun _ => SafeOut.reset) s.selv.outs m
def State.setSafeOut (s : State) (m : Nat) (v : SafeOut) : State :=
  s.setSelv { s.selv with outs := Tab.set (fun _ => SafeOut.reset) s.selv.outs m v }
def State.rawCurrent (s : State) (o : Nat) : RawCurrent := Tab.get (fun _ => RawCurrent.reset) s.selv.current o

def State.setRawCurrent (s : State) (o : Nat) (v : RawCurrent) : State :=
  s.setSelv { s.selv with current := Tab.set (fun _ => RawCurrent.reset) s.selv.current o v }

/-- The filtered level of channel A or B shows its OK level (R427). -/
def State.chanOk (s : State) (n : Nat) (b : Bool) : Bool :=
  if b then bitOf (s.fld Reg.SFS_RAW F.SFS_RAW_LVL_B) n = (s.pairMode n = 1)
  else bitOf (s.fld Reg.SFS_RAW F.SFS_RAW_LVL_A) n

/-- The pair is OK; else it is in DEMAND (R427). -/
def State.pairOk (s : State) (n : Nat) : Bool :=
  let p := s.safePair n
  (s.pairMode n = 1 || s.pairMode n = 2) && s.chanOk n false && s.chanOk n true && !p.disc && !p.stuck

def State.energ (s : State) (m : Nat) : Bool := bitOf (s.fld Reg.SFS_OUT F.SFS_OUT_ENERG) m
def State.outFault (s : State) (m : Nat) : Bool := bitOf (s.fld Reg.SFS_OUT_FLT F.SFS_OUT_FLT_FAULT) m
def State.outSoft (s : State) (m : Nat) : Bool := bitOf (s.fld Reg.SFS_OUT_FLT F.SFS_OUT_FLT_SOFT) m

/-- The present permit asks for output m (R436). -/
def State.permits (s : State) (m : Nat) : Bool :=
  s.selv.permitDue.isSome && bitOf (s.fld Reg.SFS_OUT F.SFS_OUT_PERMIT) m

/-- The brake conditions forbid that SOUT[9] is energised (R437, R438). -/
def State.brakeBlocks (s : State) : Bool :=
  s.flag Reg.SFS_BRAKE F.SFS_BRAKE_BT_FAIL || s.flag Reg.SFS_BRAKE F.SFS_BRAKE_BT_RUN ||
    (s.flag Reg.SFS_BRAKE F.SFS_BRAKE_BT_DUE && s.scfg 0x130 4 ≠ 0 && !s.energ 9)

/-- The consent of the application and the surroundings of output m: what ends it opens softly (R431, R432). -/
def State.softHolds (s : State) (m : Nat) : Bool :=
  s.permits m && s.owned && !s.flag Reg.SFS_STATUS F.SFS_STATUS_RST_NOTE

/-- The conditions of output m whose end opens it hard (R431, R432). -/
def State.hardHolds (s : State) (m : Nat) : Bool :=
  s.domUp 1 && s.sfsState = sfsRun && s.outEn m && bitOf (s.lfld Reg.SFS_OUT_EN F.SFS_OUT_EN_SAFE_EN) m && !s.outFault m &&
    (m ≠ 9 || (!s.brakeBlocks && s.softHolds m))

/-- The current of output m is low: four codes in a row below the threshold, the last of them less than 1 ms old (R433). -/
def State.currentLow (s : State) (m : Nat) : Bool :=
  let c := s.rawCurrent (s.outCh m)
  s.outCh m = 0xFF ||
    (!c.gap && c.last.any (fun t => s.now < t + ticksPerMs) && 4 ≤ c.codes.length &&
      c.codes.all (fun x => (x - signed 32 (s.scfg (0x94 + 16 * m) 4)).natAbs < s.scfg (0x98 + 16 * m) 4))

/-- Output m changed: line 0x02 to the pair and line 0x10 to the WS contexts (R442), and the current-sum check of its
outlet is suspended (R162). -/
def State.outChanged (s : State) (m : Nat) : State :=
  let s := (s.line 0x18 0x02).line 0x18 0x10
  if m < 8 then s.holdCheck m else s

/-- Both channels of output m turn off. -/
def State.outOff (s : State) (m : Nat) : State :=
  if s.energ m then
    (((s.setBit Reg.SFS_OUT F.SFS_OUT_ENERG m false).setBit Reg.SFS_OUT_FLT F.SFS_OUT_FLT_SOFT m false).setSafeOut m
      SafeOut.reset).outChanged m
  else s

/-- Both channels of output m turn on; the first off-pulse of channel A falls OP_INT later, that of channel B half an
interval after it (R434). -/
def State.outOn (s : State) (m : Nat) : State :=
  let op := s.scfg 8 2 * ticksPerMs
  (((s.setBit Reg.SFS_OUT F.SFS_OUT_ENERG m true).setSafeOut m
    { SafeOut.reset with nextA := some (s.now + op), nextB := some (s.now + op + op / 2) }).outChanged m).weldSpoil true m

/-- Output m follows its conditions (R431, R432): hard causes turn it off, soft causes begin a soft opening, which ends
at once where the current is low; an output that is off turns on when every condition holds. -/
def State.refreshOut (s : State) (m : Nat) : State :=
  if s.energ m then
    if !s.hardHolds m then s.outOff m
    else if s.outSoft m then (if s.currentLow m then s.outOff m else s)
    else if s.softHolds m then s
    else if s.currentLow m then s.outOff m
    else (s.setBit Reg.SFS_OUT_FLT F.SFS_OUT_FLT_SOFT m true).setSafeOut m { s.safeOut m with softAt := some s.now }
  else if s.hardHolds m && s.softHolds m then s.outOn m
  else s

/-- Every output follows its conditions. -/
def State.refreshOuts (s : State) : State := (List.range 10).foldl (fun s m => s.refreshOut m) s

/-- The reset notification follows the hub's and the Power region's resets, the chip safe state and start-up (R32, R33,
R523). -/
def State.notifySelvedge (s : State) : State :=
  if s.domUp 1 then
    (s.setFlag Reg.SFS_STATUS F.SFS_STATUS_RST_NOTE
      (s.power.hubReset || (s.regRec 0).inReset || s.power.chipSafe || s.startup.booting)).refreshOuts
  else s

/-- OWNED may have changed (R223, R224): the safe outputs and the load switches follow it; the Loom outputs read it. -/
def State.ownedMoved (s : State) : State := s.refreshOuts.hsRefreshAll

end Sys2Proof.Machine
end

