-- ==== Sys2Proof/Machine/LoomBase.lean ====
section
/-!
DEFINITION. Machine/LoomBase.lean: the counters, reference levels, outputs and trips of the Loom channels (R84 to R103),
and the reset of the block (R105).
-/
namespace Sys2Proof.Machine

def State.ch (s : State) (n : Nat) : Channel := Tab.get (fun _ => Channel.reset) s.loom.ch n
def State.setCh (s : State) (n : Nat) (v : Channel) : State :=
  s.setLoom { s.loom with ch := Tab.set (fun _ => Channel.reset) s.loom.ch n v }
def State.src (s : State) (k : Nat) : TripSource := Tab.get (fun _ => TripSource.reset) s.loom.src k
def State.setSrc (s : State) (k : Nat) (v : TripSource) : State :=
  s.setLoom { s.loom with src := Tab.set (fun _ => TripSource.reset) s.loom.src k v }

/-- Every channel. -/
def State.eachCh (s : State) (f : State → Nat → State) : State := (List.range 24).foldl f s

def State.chFlag (s : State) (n : Nat) (f : Fld) : Bool := s.flag (Reg.LOOM_CH_STATUS n) f
def State.setChFlag (s : State) (n : Nat) (f : Fld) (b : Bool) : State := s.setFlag (Reg.LOOM_CH_STATUS n) f b

/-! Counters and reference levels (R84, R85, R88) -/

/-- The source of a synchronised channel. -/
def State.chSync (s : State) (n : Nat) : Option Nat :=
  if s.flag (Reg.LOOM_CH_CTRL n) F.LOOM_CH_CTRL_SYNC_EN then some (s.fld (Reg.LOOM_CH_CTRL n) F.LOOM_CH_CTRL_SYNC_SRC)
  else none

/-- The source is valid: it exists and is not synchronised itself (R88). -/
def State.syncValid (s : State) (k : Nat) : Bool := k < 24 && (s.chSync k).isNone

/-- The channel whose period and boundaries channel n has. -/
def State.chBase (s : State) (n : Nat) : Nat := (s.chSync n).getD n

/-- The period in effect on channel n, in ticks. -/
def State.chPer (s : State) (n : Nat) : Nat := max 1 (s.ch (s.chBase n)).per

/-- CNT of channel n (R84, R88). -/
def State.cnt (s : State) (n : Nat) : Nat :=
  let p := s.chPer n
  let c := (s.now - (s.ch (s.chBase n)).t0) % p
  match s.chSync n with
  | some _ => (c + p - (s.ch n).phase % p) % p
  | none => c

def State.duty (s : State) (n : Nat) : Nat := (s.lv (Reg.LOOM_CH_DUTY n)).toNat % 2 ^ 24

/-- REF at count `c`, for a period of `p` ticks and a duty of `d` (R85). -/
def refLevel (centre : Bool) (p d c : Nat) : Bool :=
  if d = 0 then false else if p ≤ d then true
  else if centre then (p - d) / 2 ≤ c && c < p - (p - d) / 2
  else c < d

/-- Ticks from count `c` to the next edge of REF; none where REF has no edge (R85, R87). -/
def refEdge (centre : Bool) (p d c : Nat) : Option Nat :=
  if d = 0 ∨ p ≤ d then none
  else if centre then
    let a := (p - d) / 2
    some (if c < a then a - c else if c < p - a then p - a - c else p - c + a)
  else some (if c < d then d - c else p - c)

def State.chCentre (s : State) (n : Nat) : Bool := s.flag (Reg.LOOM_CH_CTRL n) F.LOOM_CH_CTRL_ALIGN
def State.refNow (s : State) (n : Nat) : Bool := refLevel (s.chCentre n) (s.chPer n) (s.duty n) (s.cnt n)
def State.nextEdge (s : State) (n : Nat) : Option Nat := refEdge (s.chCentre n) (s.chPer n) (s.duty n) (s.cnt n)

/-! Outputs (R86, R99) -/

/-- A trip holds the channel. -/
def State.tripped (s : State) (n : Nat) : Bool :=
  s.chFlag n F.LOOM_CH_STATUS_CYC_TRIP || s.chFlag n F.LOOM_CH_STATUS_LATCH_TRIP || s.chFlag n F.LOOM_CH_STATUS_HIZ_TRIP

/-- What a pin drives. -/
inductive PinLevel where
  | low | high | hiZ
deriving DecidableEq, Repr

/-- The off state of OUTCFG: inactive, low, high or high-impedance (R105, R110). -/
def offLevel (off : Nat) (pol : Bool) : PinLevel :=
  if off = 0 then (if pol then .high else .low) else if off = 1 then .low else if off = 2 then .high else .hiZ

/-- The level of PWM_H[n] (`high`) or PWM_L[n] (R86, R99, R106, R224, R33). -/
def State.pwm (s : State) (n : Nat) (high : Bool) : PinLevel :=
  let cfg := Reg.LOOM_CH_OUTCFG n
  let pol := s.flag cfg (if high then F.LOOM_CH_OUTCFG_POL_H else F.LOOM_CH_OUTCFG_POL_L)
  let off := s.fld cfg (if high then F.LOOM_CH_OUTCFG_OFF_H else F.LOOM_CH_OUTCFG_OFF_L)
  let x := s.ch n
  if !s.domUp 9 || s.chFlag n F.LOOM_CH_STATUS_HIZ_TRIP || !s.owned then .hiZ
  else if !x.run || s.tripped n || s.power.chipSafe || !s.up 0x00 then offLevel off pol
  else if (if high then x.outH else x.outL) = pol then .low else .high

/-- An edge of an output opens the blanking window (R98). -/
def Channel.blanked (x : Channel) (now ns : Nat) : Channel :=
  { x with blank := if ns = 0 then x.blank else some (now + ns * ticksPerNs) }

def State.blankNs (s : State) (n : Nat) : Nat := s.fld (Reg.LOOM_CH_BLANK n) F.LOOM_CH_BLANK_BLANK_NS

/-- Both outputs of channel n off, no dead time in progress and no turn-on due (R103). -/
def State.chOff (s : State) (n : Nat) : State :=
  let x := s.ch n
  let y := { x with outH := false, outL := false, dead := none, missed := [] }
  s.setCh n (if x.outH || x.outL then y.blanked s.now (s.blankNs n) else y)

/-- REF takes its level: one output goes off at once, the dead time of the other starts (R86). A dead time that has not
ended by then belongs to a pulse of no width (R87). A channel that a trip holds keeps its outputs off. DESIGN CHOICE: a dead
time in progress keeps the end it had when it began, whatever DEAD commits meanwhile (log entry 136). -/
def State.refTo (s : State) (n : Nat) (r : Bool) : State :=
  let x := { s.ch n with ref := r }
  if !x.run || s.tripped n then s.setCh n x
  else
    let dead := if r then F.LOOM_CH_DEAD_DEAD_RISE.get (s.lv (Reg.LOOM_CH_DEAD n))
      else F.LOOM_CH_DEAD_DEAD_FALL.get (s.lv (Reg.LOOM_CH_DEAD n))
    let y := { x with outH := r && x.outH, outL := !r && x.outL, dead := some (s.now + dead, r),
                      missed := x.missed ++ x.dead.toList }
    s.setCh n (if x.outH || x.outL then y.blanked s.now (s.blankNs n) else y)

/-- REF follows the counter. -/
def State.refSync (s : State) (n : Nat) : State :=
  if (s.ch n).run && s.refNow n ≠ (s.ch n).ref then s.refTo n (s.refNow n) else s

/-- The outputs start, or resume after a release, as REF gives (R86, R99). -/
def State.resume (s : State) (n : Nat) : State := s.refTo n (s.refNow n)

/-! Running (R88, R90) -/

/-- Channel n stops: its outputs go to their off state. An accepted CLR_TRIP goes on waiting for the next boundary (R101). -/
def State.chStop (s : State) (n : Nat) : State :=
  let s := s.chOff n
  (s.setCh n { s.ch n with run := false, fired := [], jumped := [], mid := false }).setChFlag n
    F.LOOM_CH_STATUS_RUN false

/-- Channel n stops and with it each channel that is synchronised to it (R90). -/
def State.chStopAll (s : State) (n : Nat) : State :=
  (s.chStop n).eachCh (fun s m => if s.chSync m = some n ∧ (s.ch m).run then s.chStop m else s)

/-- Loom stops channel n for a fault: RUN[n] is cleared (R90, R108). -/
def State.chFault (s : State) (n : Nat) : State := (s.chStopAll n).setBit Reg.LOOM_RUN F.LOOM_RUN_VAL n false

/-! Trips (R98 to R103) -/

/-- Source k is enabled and active. -/
def State.srcActive (s : State) (k : Nat) : Bool :=
  s.flag (Reg.LOOM_TSRC k) F.LOOM_TSRC_EN &&
    (if k < 16 then bitOf (s.fld Reg.LOOM_PIN_STAT F.LOOM_PIN_STAT_VAL) k
     else s.flag (Reg.CMP_CFG (k - 16)) F.CMP_CFG_ACT)

/-- Channel n masks source k. -/
def State.masks (s : State) (n k : Nat) : Bool :=
  if k < 16 then bitOf (s.fld (Reg.LOOM_CH_TRIP_PIN n) F.LOOM_CH_TRIP_PIN_PIN_MASK) k
  else if k < 48 then bitOf (s.fld (Reg.LOOM_CH_TRIP_CMP_LO n) F.LOOM_CH_TRIP_CMP_LO_CMP_MASK_LO) (k - 16)
  else bitOf (s.fld (Reg.LOOM_CH_TRIP_CMP_HI n) F.LOOM_CH_TRIP_CMP_HI_CMP_MASK_HI) (k - 48)

/-- The blanking window of channel n hides comparator source k (R98). DESIGN CHOICE: an edge of channel n hides the source
from channel n alone, not from the other channels that mask it (log entry 137). -/
def State.blanks (s : State) (n k : Nat) : Bool :=
  16 ≤ k && s.flag (Reg.LOOM_TSRC k) F.LOOM_TSRC_BLANK_EN &&
    (match (s.ch n).blank with | some t => s.now < t | none => false)

/-- The trip bit of a class: CYCLE acts as LATCH while its source is STUCK; 0b11 acts as HIZ (R99, R102). -/
def State.tripBit (s : State) (k : Nat) : Fld :=
  let c := s.fld (Reg.LOOM_TSRC k) F.LOOM_TSRC_CLASS
  if 64 ≤ k then F.LOOM_CH_STATUS_LATCH_TRIP
  else if c = 0 then
    (if s.flag (Reg.LOOM_TSRC k) F.LOOM_TSRC_STUCK then F.LOOM_CH_STATUS_LATCH_TRIP else F.LOOM_CH_STATUS_CYC_TRIP)
  else if c = 1 then F.LOOM_CH_STATUS_LATCH_TRIP else F.LOOM_CH_STATUS_HIZ_TRIP

/-- Source k trips channel n (R99, R101, R103): its outputs go off, a turn-on that is due is suppressed; FIRST_SRC takes
the first source, or the one that asserts against a clear that waits. -/
def State.trip (s : State) (n k : Nat) : State :=
  if !(s.ch n).run then s
  else
    let f := s.tripBit k
    let held := s.tripped n
    let again := (s.ch n).clear && f ≠ F.LOOM_CH_STATUS_CYC_TRIP
    let first := s.fld (Reg.LOOM_CH_STATUS n) F.LOOM_CH_STATUS_FIRST_SRC
    let s := (s.setChFlag n f true).chOff n
    let s := if again then s.setCh n { s.ch n with clear := false } else s
    let s := if first = 0xFF ∨ again then s.setFld (Reg.LOOM_CH_STATUS n) F.LOOM_CH_STATUS_FIRST_SRC k else s
    if held then s else s.line 0x00 (0x60 + n)

/-- Every active source that channel n masks, and that no blanking window hides, trips it. -/
def State.tripsOf (s : State) (n : Nat) : State :=
  (List.range 64).foldl (fun s k => if s.masks n k && s.srcActive k && !s.blanks n k then s.trip n k else s) s

/-- Source k, active, trips every running channel that masks it (R99). -/
def State.tripAll (s : State) (k : Nat) : State :=
  if s.srcActive k then s.eachCh (fun s n => if s.masks n k && !s.blanks n k then s.trip n k else s) else s

/-- The level of source k has changed: its times of R102 follow, and where it is active it trips. -/
def State.srcMoved (s : State) (k : Nat) (was : Bool) : State :=
  let now := s.srcActive k
  let x := s.src k
  let s := if now && !was then s.setSrc k { since := some s.now, times := s.now :: x.times }
    else if !now && was then s.setSrc k { x with since := none } else s
  s.tripAll k

/-- LOOM_PIN_STAT follows the qualified pins and POL. -/
def State.showPins (s : State) : State :=
  (List.range 16).foldl (fun s j =>
    s.setBit Reg.LOOM_PIN_STAT F.LOOM_PIN_STAT_VAL j
      (bitOf s.loom.pins j = s.flag (Reg.LOOM_TSRC j) F.LOOM_TSRC_POL)) s

/-! Commits (R91 to R94) -/

/-- The shadow registers of channel n. -/
def shadowRegs (n : Nat) : List Nat :=
  [Reg.LOOM_CH_PERIOD n, Reg.LOOM_CH_DUTY n, Reg.LOOM_CH_PHASE n, Reg.LOOM_CH_DEAD n, Reg.LOOM_CH_MINPW n,
   Reg.LOOM_CH_TRIG n 0, Reg.LOOM_CH_TRIG n 1, Reg.LOOM_CH_TRIG n 2, Reg.LOOM_CH_TRIG n 3]

/-- 4 ns before a commit event (R93). -/
def commitLead : Nat := 64

/-- A write of `v` to a shadow register of channel n, by a Twill OUT where `out` says so. -/
def State.shadowWrite (s : State) (n a : Nat) (v : Word) (out : Bool) : State :=
  let x := s.ch n
  let old := x.recent.filter (fun w => s.now < w.at_ + commitLead)
  (s.setCh n { x with recent := old ++ [⟨s.now, a, s.rd a, out⟩], fresh := x.fresh || old.length < x.recent.length }).wr a v

/-- An OUT has reached shadow register `a` of channel n in the present CK_PWM cycle: what it wrote is kept (R139). -/
def State.outKept (s : State) (n a : Nat) : Bool :=
  (s.ch n).recent.any (fun w => w.out && w.addr = a && w.at_ / ticksPwm = s.now / ticksPwm)

/-- The value of shadow register `a` that takes part in a commit at instant `t`: writes of the last 4 ns do not (R93). -/
def Channel.shadowAt (x : Channel) (t a : Nat) (cur : Word) : Word :=
  match x.recent.find? (fun w => w.addr = a && t < w.at_ + commitLead) with
  | some w => w.old
  | none => cur

/-- The commit of channel n at instant `t` (R91, R92, R95, R84): every shadow value, as one set; the phase is reduced modulo
the source's period in effect (R88). The period and the phase take effect at the next boundary. -/
def State.chCommit (s : State) (n t : Nat) : State :=
  let x := s.ch n
  let took := x.fresh || x.recent.any (fun w => w.at_ + commitLead ≤ t)
  let s := (shadowRegs n).foldl (fun s a => s.wrLive a (x.shadowAt t a (s.rd a))) s
  let p : Nat := (s.lv (Reg.LOOM_CH_PERIOD n)).toNat % 2 ^ 24
  let s := if p < 1600 then (s.wrLive (Reg.LOOM_CH_PERIOD n) 1600).setChFlag n F.LOOM_CH_STATUS_CLAMP true else s
  let s := if (s.chSync n).isSome then
      s.wrLive (Reg.LOOM_CH_PHASE n) (BitVec.ofNat 32 ((s.lv (Reg.LOOM_CH_PHASE n)).toNat % 2 ^ 24 % s.chPer n))
    else s
  let s := s.setCh n { s.ch n with
    recent := x.recent.filter (fun w => t < w.at_ + commitLead), fresh := false,
    stale := if took then 0 else x.stale, staleDone := if took then false else x.staleDone }
  let arm := s.fld Reg.LOOM_GUPD F.LOOM_GUPD_ARM
  if bitOf arm n ∧ x.armAt + commitLead ≤ t then
    let s := s.setBit Reg.LOOM_GUPD F.LOOM_GUPD_ARM n false
    if s.fld Reg.LOOM_GUPD F.LOOM_GUPD_ARM = 0 then s.line 0x00 0x90 else s
  else s

/-- Channel n commits at a commit event at `t`: UPD_MODE has the event, and where UPD_GLOBAL is 1 the strobe was armed in
time (R91, R94). -/
def State.commits (s : State) (n t modeBit : Nat) : Bool :=
  bitOf (s.fld (Reg.LOOM_CH_CTRL n) F.LOOM_CH_CTRL_UPD_MODE) modeBit &&
    (!s.flag (Reg.LOOM_CH_CTRL n) F.LOOM_CH_CTRL_UPD_GLOBAL ||
      (bitOf (s.fld Reg.LOOM_GUPD F.LOOM_GUPD_ARM) n && (s.ch n).armAt + commitLead ≤ t))

/-- A phase in effect changes the count from `c0` to `c1`: triggers that a jump forward passes fire at the jump (R96). -/
def State.phaseJump (s : State) (n c0 c1 : Nat) : State :=
  let x := s.ch n
  let passed := [0, 1, 2, 3].filter (fun k =>
    let pos := F.LOOM_CH_TRIG_POS.get (s.lv (Reg.LOOM_CH_TRIG n k))
    c0 < c1 && c0 < pos && pos < c1 && !x.fired.contains k)
  s.setCh n { x with jumped := passed, jumpCyc := s.now / ticksPwm }

/-- The committed phase takes effect (R88, R89). -/
def State.phaseTo (s : State) (n : Nat) : State :=
  let c0 := s.cnt n
  let s := s.setCh n { s.ch n with phase := (s.lv (Reg.LOOM_CH_PHASE n)).toNat % 2 ^ 24 }
  s.phaseJump n c0 (s.cnt n)

/-! The reset of the block (R105) -/

/-- Registers of Loom that the Power region reset and the hub reset keep. -/
def keepLoom (a : Nat) : Bool :=
  a = Reg.LOOM_LOCK || isOf Reg.LOOM_CH_OUTCFG 24 a || isOf Reg.LOOM_TSRC 64 a
where isOf (f : Nat → Nat) (n a : Nat) : Bool := (List.range n).any (fun i => f i = a)

/-- What follows the reset of the registers: channels stopped, STUCK and REFUSED cleared, the checks of R102 afresh. -/
def resetLoom (s : State) : State :=
  let s := s.setLoom s.loom.restarted
  let s := (List.range 64).foldl (fun s k =>
    (s.setFlag (Reg.LOOM_TSRC k) F.LOOM_TSRC_STUCK false).setFlag (Reg.LOOM_TSRC k) F.LOOM_TSRC_REFUSED false) s
  s

/-- LOOM_CMP_STAT_LO and HI follow the comparators; one that sensing no longer holds active has no time of R102. -/
def State.showCmps (s : State) : State :=
  (List.range 48).foldl (fun s k =>
    let b := s.flag (Reg.CMP_CFG k) F.CMP_CFG_ACT
    let s := if k < 32 then s.setBit Reg.LOOM_CMP_STAT_LO F.LOOM_CMP_STAT_LO_VAL k b
      else s.setBit Reg.LOOM_CMP_STAT_HI F.LOOM_CMP_STAT_HI_VAL (k - 32) b
    if s.srcActive (16 + k) then s else s.setSrc (16 + k) { s.src (16 + k) with since := none }) s

/-- The reset of Loom ends: it shows the levels of its sources, and for one that is active STUCK_T counts from here (R98,
R102). -/
def State.loomReleased (s : State) : State :=
  let s := s.showPins.showCmps
  (List.range 64).foldl (fun s k => if s.srcActive k then s.setSrc k { since := some s.now, times := [] } else s) s

end Sys2Proof.Machine
end

