-- ==== Sys2Proof/Machine/TwillBase.lean ====
section
/-!
DEFINITION. Machine/TwillBase.lean: the engines, data space and set-point inputs of Twill, and the reset of the block
(R111 to R114, R128, R131 to R136, R141).
-/
namespace Sys2Proof.Machine

def State.te (s : State) (e : Nat) : Engine := Tab.get (fun _ => Engine.reset) s.twill.eng e
def State.setTe (s : State) (e : Nat) (v : Engine) : State :=
  s.setTwill { s.twill with eng := Tab.set (fun _ => Engine.reset) s.twill.eng e v }

def Engine.a (x : Engine) (i : Nat) : Int := (Tab.get (fun _ => (0 : BitVec 64)) x.acc i).toInt
def Engine.setA (x : Engine) (i : Nat) (v : BitVec 64) : Engine := { x with acc := Tab.set (fun _ => 0) x.acc i v }

/-- RREF[r]. -/
def Engine.ramp (x : Engine) (r : Nat) : Word := Tab.get (fun _ => 0) x.rref r
def Engine.setRamp (x : Engine) (r : Nat) (v : Word) : Engine := { x with rref := Tab.set (fun _ => 0) x.rref r v }

/-- TLIM[o] outside enforcement (R132). -/
def tlimOpen : Word := 0x7FFFFFFF
def State.tlim (s : State) (o : Nat) : Word := Tab.get (fun _ => tlimOpen) s.twill.tlim o
def State.setTlim (s : State) (o : Nat) (v : Word) : State :=
  s.setTwill { s.twill with tlim := Tab.set (fun _ => tlimOpen) s.twill.tlim o v }

def State.pulse (s : State) (j : Nat) : PulseIn := Tab.get (fun _ => PulseIn.reset) s.twill.pin j
def State.setPulse (s : State) (j : Nat) (v : PulseIn) : State :=
  s.setTwill { s.twill with pin := Tab.set (fun _ => PulseIn.reset) s.twill.pin j v }

/-- The port x of the data space as it stands now, for engine e (R112). -/
def State.livePort (s : State) (e x : Nat) : Word :=
  if x < 0x234 then BitVec.ofNat 32 (Tab.get (fun _ => 0) s.twill.ain (x - 0x230))
  else if x < 0x238 then
    if s.flag (Reg.PINSP_CFG (x - 0x234)) F.PINSP_CFG_MODE then (s.pulse (x - 0x234)).count else (s.pulse (x - 0x234)).freq
  else if x < 0x240 then BitVec.ofNat 32 (s.fld (Reg.SAL_APPLIED (x - 0x238)) F.SAL_APPLIED_GRANT * 128)
  else if x < 0x248 then s.tlim (x - 0x240)
  else if 0x250 ≤ x ∧ x < 0x260 then s.lv (Reg.TW_SP e (x - 0x250))
  else if 0x260 ≤ x ∧ x < 0x268 then (s.te e).ramp (x - 0x260)
  else BitVec.ofNat 32 (s.te e).selIdx

/-- The addresses of the sampled ports. -/
def portList : List Nat := ((List.range 0x39).map (· + 0x230)).filter (fun x => x < 0x248 || 0x250 ≤ x)

/-- x is in the data space (R112). -/
def inDataSpace (x : Nat) : Bool := x < 0x248 || (0x250 ≤ x && x ≤ 0x268)

/-- D[x] (R112, R113): M and the ADC ports are live, the other ports are the sample of the run. -/
def State.data (s : State) (e x : Nat) : Int :=
  (if x < 0x200 then s.rd (Reg.TW_M e x)
   else if x < 0x230 then s.rd (Reg.AIN_RES (x - 0x200))
   else Tab.get (fun _ => 0) (s.te e).port x).toInt

/-- p(v, k) of R114, from the committed coefficients. -/
def State.prod (s : State) (e : Nat) (v : Int) (k : Nat) : Int :=
  let cv := (s.lv (Reg.TW_COEF_VAL e k)).toInt
  let sh := signed 5 ((s.lv (Reg.TW_COEF_SHIFT e k)).toNat % 32)
  divZero (v * cv * (2 ^ (sh + 16).toNat : Nat)) (2 ^ 47 : Nat)

/-- ff(t, v) of R128, from the bank in use. -/
def State.ff (s : State) (e t : Nat) (v : Word) : Int :=
  let entry := fun (i : Nat) =>
    (s.rd (Reg.TW_FF e (s.fld (Reg.TW_FF_CTRL e) F.TW_FF_CTRL_ACTIVE * 4096 + t * 1024 + i))).toInt
  let i : Nat := v.toNat / 2 ^ 22
  let f : Nat := v.toNat % 2 ^ 22
  if i = 1023 ∧ !bitOf (s.fld (Reg.TW_FF_CTRL e) F.TW_FF_CTRL_WRAP) t then entry 1023
  else entry i + divZero ((entry ((i + 1) % 1024) - entry i) * (f : Int)) (2 ^ 22 : Nat)

def State.twFlag (s : State) (e : Nat) (f : Fld) : State := s.setFlag (Reg.TW_STATUS e) f true
def State.twRuns (s : State) (e : Nat) : Bool := s.flag (Reg.TW_CTRL e) F.TW_CTRL_RUN
def State.budget (s : State) (e sl : Nat) : Nat := max 4 (s.fld (Reg.TW_SLOT_BUDGET e sl) F.TW_SLOT_BUDGET_CYC)

/-- The run in progress ends: the accumulators are shown, BUSY clears (R148). -/
def State.twEnds (s : State) (e : Nat) : State :=
  let x := s.te e
  let s := (List.range 16).foldl (fun s k =>
    (s.wrNat (Reg.TW_ACC_LO e k) (Tab.get (fun _ => (0 : BitVec 64)) x.acc k).toNat).wrNat (Reg.TW_ACC_HI e k)
      ((Tab.get (fun _ => (0 : BitVec 64)) x.acc k).toNat / 2 ^ 32)) s
  (s.setFlag (Reg.TW_STATUS e) F.TW_STATUS_BUSY false).setTe e { x with run := none }

/-- A run of `cyc` cycles is recorded for its slot. -/
def State.runLength (s : State) (e sl cyc : Nat) : State :=
  let c := min 0xFFFF cyc
  let r := Reg.TW_SLOT_STAT e sl
  (s.setFld r F.TW_SLOT_STAT_LAST_CYC c).setFld r F.TW_SLOT_STAT_MAX_CYC (max c (s.fld r F.TW_SLOT_STAT_MAX_CYC))

/-- The cycles that a run has taken by now, the stall of its WAITIN among them (R123). -/
def State.runCycles (s : State) (r : SlotRun) : Nat :=
  r.cyc + (match r.wait with | some (_, t) => (s.now - t) / ticksPerNs | none => 0)

/-- The engine stops: its run ends without an END event and its pending slots clear (R126). -/
def State.twStop (s : State) (e : Nat) : State :=
  let s := match (s.te e).run with
    | some r => (s.runLength e r.slot (s.runCycles r)).twEnds e
    | none => s
  (s.setFld (Reg.TW_STATUS e) F.TW_STATUS_PEND 0).setFlag (Reg.TW_CTRL e) F.TW_CTRL_RUN false

/-- Registers of Twill that a reset keeps (R141): the program store, the coefficients, the state memory and the tables. -/
def keepTwill (a : Nat) : Bool :=
  0x10100000 ≤ a && a < 0x10140000 && 0x800 ≤ a % 0x10000

/-- What follows the reset of Twill's registers (R111, R141): the accumulators read 0, nothing is pending. -/
def resetTwill (s : State) : State := s.setTwill s.twill.restarted

end Sys2Proof.Machine
end

