-- ==== Sys2Proof/Machine/Reset.lean ====
section
/-!
DEFINITION. Machine/Reset.lean: what a reset and a power-on do to each block (R31, R32, R511 and the owning chapters).
-/
namespace Sys2Proof.Machine

/-- The registers of the blocks at their Reset values, but for those that `keep` names. -/
def State.resetRegs (s : State) (blks : List Nat) (keep : Nat → Bool) : State :=
  let hit := fun a => (match regBlock a with | some b => blks.contains b | none => false) && !keep a
  (s.setRegs (Tab.clear hit s.regs)).setLive (Tab.clear hit s.live)

/-- The initiators with slots `l` are reset: their requests that wait are gone, and the response to what they have outstanding
reaches no context (R31, R37). -/
def State.orphan (s : State) (l : List Nat) : State :=
  s.setFabric { s.fabric with
    waiting := s.fabric.waiting.filter (fun x => !l.contains x.slot)
    out := (s.fabric.out.filter (fun x => !(l.contains x.slot && x.failed))).map
      (fun x => if l.contains x.slot then { x with ctx := 64 + x.slot } else x) }

/-- Nothing is kept: a power-on (R511). -/
def keepNone : Nat → Bool := fun _ => false

/-- `a` is the register of one of the `n` instances of an array. -/
def isOf (f : Nat → Nat) (n a : Nat) : Bool := (List.range n).any (fun i => f i = a)

/-- Registers of the time unit that R238 keeps. -/
def keepTime (a : Nat) : Bool :=
  isOf Reg.TB_CFG 4 a || isOf Reg.TB_RATE 4 a || isOf Reg.TB_LOCK 4 a || isOf Reg.TB_HOLD 4 a || isOf Reg.TB_STATE 4 a

/-- TB[n] of codes LOCKING or LOCKED enters HOLDOVER (R237, R238, R510). -/
def State.tbToHoldover (s : State) (n : Nat) : State :=
  let st := s.fld (Reg.TB_STATE n) F.TB_STATE_ST
  if st = 1 ∨ st = 2 then
    (((s.setFld (Reg.TB_STATE n) F.TB_STATE_ST 3).setFld (Reg.TB_STATE n) F.TB_STATE_HOLD_AGE 0).setTb n
      { s.tb n with holdAt := some s.now, lockCnt := 0 }).line 0x09 n
  else s

/-- The flags of a TB STATE register at their Reset values; its state and age stay (R238). -/
def State.tbFlagsReset (s : State) (n : Nat) : State :=
  ((((s.setFld (Reg.TB_STATE n) F.TB_STATE_SRC_ERR 0).setFld (Reg.TB_STATE n) F.TB_STATE_RATE_CLAMP 0).setFld
    (Reg.TB_STATE n) F.TB_STATE_LEGAL_IGN 0).setFld (Reg.TB_STATE n) F.TB_STATE_STEPPED 0)

/-- The time unit and the PTP block in a Link region or hub reset (R31, R238). -/
def resetTime (s : State) : State :=
  let s := (s.resetRegs [0x08, 0x09] keepTime).setTime { s.time with tout := [], tcap := [], port := [], tc := [] }
  [0, 1, 2, 3].foldl (fun s n => (s.tbFlagsReset n).tbToHoldover n) s

/-- Registers of PD_AON in the hub's windows, and the record of the chip (R30, R513, R531). -/
def keepAon (a : Nat) : Bool :=
  (Reg.ERR_CHIP_STATUS ≤ a && a ≤ Reg.ERR_CHIP_TIME_NS) || (Reg.RST_CAUSE ≤ a && a ≤ Reg.RST_COUNT) || a = Reg.ST_TRY

/-- Registers of the hub that show what a reset does not change: supplies, clocks and the anti-rollback fuses. -/
def keepHub (a : Nat) : Bool :=
  keepAon a || a = Reg.PWR_STATUS || a = Reg.SUP_VIN || a = Reg.SUP_VBAT || a = Reg.CLK_STATUS || a = Reg.ST_RB

/-- The WS sequencers and mailboxes after a sequencer reset (R37, R67): every context STOPPED, no debug claim. -/
def resetWeft (s : State) : State :=
  s.setWeft { s.weft with
    ctx := Tab.clear (fun k => k < 32) s.weft.ctx
    cyc0 := [0, 1, 2, 3, 4, 5, 6, 7].foldl (fun t n => Tab.set (fun _ => 0) t n s.now) s.weft.cyc0
    claim := [], flying := s.weft.flying.filter (fun e => 32 ≤ e.1), mbx := [], mbxFly := [] }

/-- The blocks of the hub in a hub reset (R31). The memories keep their bytes (R553 rewrites them at start-up); a region reset
of the Ledger in progress ends with the hub reset (R514); KS_ADMIN.LOCK ends (R401). What the Ledger has outstanding stays so: its
contexts run on, and the timeout of R21 ends it. -/
def resetHubBlocks (s : State) : State :=
  let s := resetWeft (s.resetRegs [0x20, 0x21, 0x22, 0x23, 0x24, 0x25, 0x26, 0x27] keepHub)
  let led := { Ladder.reset with reg := Tab.clear (fun r => r ≠ 2) s.ladder.reg,
                                 chipTimer := if s.power.chipSafe then s.ladder.chipTimer else none }
  let ledger := fun (x : Xact) => decide (x.slot = 8) && decide (x.ctx < 64)
  let s := ((s.setLadder led).setFabric { Fabric.reset with
    closed := s.power.chipSafe, out := s.fabric.out.filter ledger, waiting := s.fabric.waiting.filter ledger }).setStartup
      Startup.reset
  let s := s.setFld Reg.CLK_STATUS F.CLK_STATUS_FAULT 0
  let s := s.wr Reg.KS_ADMIN (regReset Reg.KS_ADMIN)
  s.setKs { s.ks with reqs := s.ks.reqs.filter (fun r => 32 ≤ r.ctx) }

/-- ROLE of the Zwidy engine, and the codes of R207. -/
def State.role (s : State) : Nat := s.fld Reg.ZW_ROLE F.ZW_ROLE_ROLE
def roleOff : Nat := 0
def roleListen : Nat := 1
def roleFollower : Nat := 2
def roleStandby : Nat := 3
def roleLeader : Nat := 4

/-- SAL_CTRL.MODE of a role (R207). -/
def modeOf (r : Nat) : Nat := if r = roleOff then 0 else if r = roleLeader then 2 else 1

/-- The engine writes SAL_CTRL.MODE (R207). -/
def State.salMode (s : State) (m : Nat) : State := s.onBlk .saltern (fun s => s.setFld Reg.SAL_CTRL F.SAL_CTRL_MODE m)

/-- The Saltern is back from a reset or a loss of power: the MODE that the role of the engine gives it holds again (R207); an
engine in role Off leaves MODE alone. -/
def State.modeFollows (s : State) : State :=
  if s.role = roleOff then s
  else s.salMode (if s.zw.claim then 2
    else match s.zw.swap with
      | some w => if w.bh.isSome then 1 else modeOf s.role
      | none => modeOf s.role)

/-- The Zwidy engine is reset or loses its power: its role is Off, and MODE follows (R207). -/
def State.zwReset (s : State) : State :=
  let s := if s.role = roleOff then s else s.salMode 0
  s.setZw Zwidy.reset

/-- The blocks of the Power region are reset (R31, R105, R161). -/
def resetPowerRegion (s : State) : State :=
  let s := s.resetRegs [0x00, 0x01, 0x02, 0x03, 0x04] (fun a => keepLoom a || keepTwill a)
  ((((resetTwill (resetLoom s)).setSense s.sense.restarted).setSal Saltern.reset).setGrid Grid.reset).orphan [9, 16]

/-- RST_LVL of the outlets is kept (R275). -/
def keepRstLvl (old s : State) : State :=
  (List.range 8).foldl (fun s o =>
    s.setFlag (Reg.OLK_CFG o) F.OLK_CFG_RST_LVL (old.flag (Reg.OLK_CFG o) F.OLK_CFG_RST_LVL)) s

/-- The blocks of the Link region are reset (R31). -/
def resetLinkRegion (s : State) : State :=
  let r := keepRstLvl s ((resetTime s.zwReset).resetRegs [0x0A, 0x0B, 0x0C, 0x0D, 0x0E] keepNone)
  (((r.setLinks Links.reset).setSes Session.reset).setCan Can.reset).orphan [10, 11, 12, 13, 14, 15]

/-- The blocks of the Ledger region are reset (R31, R361): the measurements, the tariff state and the event store stay, a
reading in progress ends with RESULT 7, and the sequencer's contexts are STOPPED. -/
def resetLedgerRegion (s : State) : State :=
  let r := s.resetRegs [0x11, 0x12] keepNone
  let r := if s.ledger.req.isSome then r.setFld Reg.EVS_REQ_STAT F.EVS_REQ_STAT_RESULT 7 else r
  let r := r.setLedger { s.ledger with req := none, resetAt := some (s.ledger.resetAt.getD s.now) }
  r.setWeft { r.weft with ctx := Tab.clear (fun k => 32 ≤ k && k < 36) r.weft.ctx,
                          cyc0 := Tab.set (fun _ => 0) r.weft.cyc0 8 s.now,
                          flying := r.weft.flying.filter (fun e => !(decide (32 ≤ e.1) && decide (e.1 < 36))) }
    |>.orphan [8]

/-- Registers of the thermal unit that a Guard region or hub reset keeps (R333). -/
def keepThermal (a : Nat) : Bool :=
  isOf Reg.CBL_STATE 8 a || isOf Reg.CBL_LIMIT 8 a || isOf Reg.CBL_CAUSE 8 a

/-- The thermal unit in a Guard region or hub reset (R333): MT, SHUT, HARD, DA, ENF and the DA history stay, and every enabled
fan runs at FAIL until the region is up. -/
def resetThermal (s : State) : State :=
  let cable := (List.range 8).foldl (fun t o =>
    Tab.set (fun _ => Cable.reset) t o
      { Tab.get (fun _ => Cable.reset) s.thermal.cable o with holdAt := none, kept := true }) s.thermal.cable
  let fan := (List.range 4).foldl (fun t k =>
    if s.flag (Reg.FAN_CFG k) F.FAN_CFG_EN then
      Tab.set (fun _ => Fan.reset) t k { Fan.reset with held := some (s.fld (Reg.FAN_DUTY k) F.FAN_DUTY_FAIL) }
    else t) ([] : Tab Fan)
  (s.resetRegs [0x19] keepThermal).setThermal { Thermal.reset with cable := cable, fan := fan }

/-- The Guard region is up: the fans follow their channels again (R333). -/
def State.fansUp (s : State) : State :=
  s.setThermal { s.thermal with fan := (List.range 4).foldl (fun t k =>
    Tab.set (fun _ => Fan.reset) t k { Tab.get (fun _ => Fan.reset) t k with held := none }) s.thermal.fan }

/-- The blocks of the Guard region are reset, but for Selvedge and Brine (R31, R333, R454). -/
def resetGuardRegion (s : State) : State := resetThermal (resetSwitches s)

/-- What the surroundings of the resets follow: the reset notification to Selvedge (R32) and the load switches (R454). -/
def State.resetsMoved (s : State) : State := s.switchesSync.notifySelvedge

/-- A reset of region `r` begins (R31): the blocks of the region are reset and held until the reset completes (R24). -/
def orderRegionReset (r : Nat) (commanded : Bool) (s : State) : State :=
  let s := (s.setRegRec r { s.regRec r with inReset := true, commanded := commanded }).setBit
    Reg.RST_CAUSE F.RST_CAUSE_CAUSE (8 + r) true
  let s := if r = 0 then resetPowerRegion s else if r = 1 then resetLinkRegion s
    else if r = 2 then resetLedgerRegion s else resetGuardRegion s
  s.resetsMoved

/-- The chip safe state begins (R33): the Loom outputs go off (State.pwm), the notification reaches Selvedge, the fabric
accepts no new transactions, and the load switches take their reset behaviour. -/
def chipSafeState (s : State) : State :=
  let s := (s.setPower { s.power with chipSafe := true, coincide := 4 :: s.power.coincide }).setBit
    Reg.RST_CAUSE F.RST_CAUSE_CAUSE 4 true
  (s.setFabric { s.fabric with closed := true }).resetsMoved

end Sys2Proof.Machine
end

