-- ==== Sys2Proof/Machine/Faults.lean ====
section
/-!
DEFINITION. Machine/Faults.lean: the error ladder: recording a fault, the four grades and what each sets in motion
(R22 to R33, R549, R550).
-/
namespace Sys2Proof.Machine

def gradeNote : Nat := 1
def gradeContain : Nat := 2
def gradeRegion : Nat := 3
def gradeChip : Nat := 4

/-- Whether a fault becomes FIRST of the record at `base` (R26): the record is clear, its grade is higher, or it meets
FIRST in the same CK_SYS cycle, with the same grade and block, from a lower cell. -/
def State.becomesFirst (s : State) (base blk cell grade : Nat) (firstCyc : Option Nat) : Bool :=
  let g := s.fld (base + 4) F.ERR_CHIP_CAUSE_GRADE
  g < grade || (firstCyc = some (s.now / ticksSys) && grade = g &&
    blk = s.fld (base + 4) F.ERR_CHIP_CAUSE_BLOCK && cell < s.fld (base + 4) F.ERR_CHIP_CAUSE_CELL)

/-- CAUSE of a fault (R34). -/
def causeWord (blk cell code grade : Nat) : Nat := blk * 2 ^ 24 + cell % 256 * 2 ^ 16 + code % 256 * 2 ^ 8 + grade

/-- A fault in the record whose STATUS lies at `base` (R26, R30, R34): COUNT and GRADE, and where it becomes FIRST
also CAUSE and the time on TB[0]. -/
def State.recordFault (s : State) (base blk cell code grade : Nat) (first : Bool) : State :=
  let s := s.bump base F.ERR_CHIP_STATUS_COUNT
  let s := s.setFld base F.ERR_CHIP_STATUS_GRADE (max (s.fld base F.ERR_CHIP_STATUS_GRADE) grade)
  if first then
    ((s.wrNat (base + 4) (causeWord blk cell code grade)).wrNat (base + 8) (s.tbSec 0)).wrNat (base + 12) (s.tbSubNs 0)
  else s

/-- The fault in ERR_BLK[blk]. -/
def State.recordBlk (s : State) (blk cell code grade : Nat) : State :=
  let base := Reg.ERR_BLK_STATUS blk
  let first := s.becomesFirst base blk cell grade (s.blkRec blk).firstCyc
  let s := s.recordFault base blk cell code grade first
  if first then s.setBlkRec blk { s.blkRec blk with firstCyc := some (s.now / ticksSys) } else s

/-- An open fault marked in CELLS_LO or CELLS_HI (R34). -/
def State.markCell (s : State) (blk cell : Nat) : State :=
  if cell < 32 then s.setBit (Reg.ERR_BLK_CELLS_LO blk) F.ERR_BLK_CELLS_LO_PEND cell true
  else if cell < 64 then s.setBit (Reg.ERR_BLK_CELLS_HI blk) F.ERR_BLK_CELLS_HI_PEND (cell - 32) true
  else s

/-- NOTEs of the rolling 1 s window (R23). -/
def State.recentNotes (s : State) (blk : Nat) : List Nat := (s.blkRec blk).notes.filter (fun t => s.now < t + ticksPerS)

/-- A NOTE (R22): the record logs it and it enters the rolling window. It starts no timer (R27). -/
def State.note (s : State) (blk cell code : Nat) : State :=
  let s := s.recordBlk blk cell code gradeNote
  s.setBlkRec blk { s.blkRec blk with notes := s.now :: s.recentNotes blk, noteCell := cell }

/-- An open CONTAIN is cleared (R24): the record closes and its timer stops. -/
def State.closeBlk (s : State) (blk : Nat) : State :=
  ((s.setFlag (Reg.ERR_BLK_STATUS blk) F.ERR_BLK_STATUS_OPEN false).setFlag
    (Reg.ERR_BLK_CTRL blk) F.ERR_BLK_CTRL_RECOVERED false).setBlkRec blk { s.blkRec blk with timer := none }

/-- The block has finished its own recovery: RECOVERED, and with AUTO_CLR the CONTAIN is cleared (R24, R34). -/
def State.recoveredBlk (s : State) (blk : Nat) : State :=
  if s.flag (Reg.ERR_BLK_STATUS blk) F.ERR_BLK_STATUS_OPEN then
    let s := s.setFlag (Reg.ERR_BLK_CTRL blk) F.ERR_BLK_CTRL_RECOVERED true
    if s.flag (Reg.ERR_BLK_CFG blk) F.ERR_BLK_CFG_AUTO_CLR then s.closeBlk blk else s
  else s

/-- Recovery of the fault of code `code`: it counts for the CONTAIN that opened the record. -/
def State.recovers (s : State) (blk code : Nat) : State :=
  if (s.blkRec blk).code = code then s.recoveredBlk blk else s

/-- Recovery of the fault of code `code` in cell `cell`. -/
def State.recoversCell (s : State) (blk code cell : Nat) : State :=
  if (s.blkRec blk).cell = cell then s.recovers blk code else s

/-- A CONTAIN (R22, R27): recorded; the first opens the record and starts the block timer. `done` says that the
block's own recovery is part of the same step. -/
def State.contain (s : State) (blk cell code : Nat) (done : Bool := false) : State :=
  let s := (s.recordBlk blk cell code gradeContain).markCell blk cell
  if s.flag (Reg.ERR_BLK_STATUS blk) F.ERR_BLK_STATUS_OPEN then s
  else
    let s := (s.setFlag (Reg.ERR_BLK_STATUS blk) F.ERR_BLK_STATUS_OPEN true).setFlag
      (Reg.ERR_BLK_CTRL blk) F.ERR_BLK_CTRL_RECOVERED false
    let s := s.setBlkRec blk { s.blkRec blk with timer := some s.now, code := code, cell := cell }
    if done then s.recoveredBlk blk else s

/-- When the block timer that runs expires (R23): BLK_TMO in 10 µs units, 0 acts as 1. -/
def State.blkDue (s : State) (blk : Nat) : Option Nat :=
  (s.blkRec blk).timer.map
    (fun t => t + orDefault (s.fld (Reg.ERR_BLK_CFG blk) F.ERR_BLK_CFG_BLK_TMO) 1 * (10 * ticksPerUs))

/-- When the region timer that runs expires: REG_TMO in 100 µs units, values below 10 act as 10. -/
def State.regDue (s : State) (r : Nat) : Option Nat :=
  (s.regRec r).timer.map (fun t => t + max 10 (s.fld (Reg.ERR_REG_CFG r) F.ERR_REG_CFG_REG_TMO) * (100 * ticksPerUs))

/-- A REGION now falls within the repeat window of the one that ordered the last reset (R23, R27). -/
def State.inWindow (s : State) (r : Nat) : Bool :=
  match (s.regRec r).ordered with
  | some t => s.now < t + orDefault (s.fld (Reg.ERR_REG_CFG r) F.ERR_REG_CFG_REG_WIN) 1 * (10 * ticksPerMs)
  | none => false

/-- When the chip timer expires (R33): LIMIT in ms, from 10 to 1,000. -/
def State.chipDue (s : State) : Option Nat :=
  s.ladder.chipTimer.map
    (fun t => t + clampNat 10 1000 (s.fld Reg.ERR_CHIP_TMO F.ERR_CHIP_TMO_LIMIT) * ticksPerMs)

/-- A CHIP (R22, R26, R29, R33): ERR_CHIP records it; the first begins the chip safe state and starts the chip timer. -/
def State.chipFault (s : State) (blk cell code : Nat) : State :=
  let base := Reg.ERR_CHIP_STATUS
  let first := s.becomesFirst base blk cell gradeChip s.ladder.chipCyc
  let s := s.recordFault base blk cell code gradeChip first
  let s := if first then s.setLadder { s.ladder with chipCyc := some (s.now / ticksSys) } else s
  if s.power.chipSafe then s
  else
    let s := s.setFlag base F.ERR_CHIP_STATUS_OPEN true
    let s := s.setLadder { s.ladder with chipTimer := some s.now }
    chipSafeState s

/-- A CHIP raised by block `blk`: its own record takes it too. -/
def State.chip (s : State) (blk cell code : Nat) : State :=
  ((s.recordBlk blk cell code gradeChip).markCell blk cell).chipFault blk cell code

/-- A REGION in region `r` (R22, R23, R27, R29): ERR_REG[r] records it. Within the repeat window it raises CHIP; where
the record is open it only updates it; else it orders the region reset, and the timer and the window start. -/
def State.regionFault (s : State) (r blk cell code : Nat) : State :=
  let base := Reg.ERR_REG_STATUS r
  let first := s.becomesFirst base blk cell gradeRegion (s.regRec r).firstCyc
  let s := s.recordFault base blk cell code gradeRegion first
  let s := if first then s.setRegRec r { s.regRec r with firstCyc := some (s.now / ticksSys) } else s
  if s.power.chipSafe then s
  else if s.inWindow r then s.chipFault blk cell code
  else if s.flag base F.ERR_REG_STATUS_OPEN then s
  else
    let s := s.setFlag base F.ERR_REG_STATUS_OPEN true
    let s := s.setRegRec r { s.regRec r with timer := some s.now, ordered := some s.now }
    orderRegionReset r false s

/-- A REGION raised by block `blk` of a region, in its own region; or by a hub block in the regions `rs` (R550). -/
def State.region (s : State) (blk cell code : Nat) (rs : List Nat := []) : State :=
  let s := (s.recordBlk blk cell code gradeRegion).markCell blk cell
  match regionOf blk with
  | some r => s.regionFault r blk cell code
  | none => rs.foldl (fun s r => s.regionFault r blk cell code) s

/-- A pair fault (R417): every output de-energised, both cores halted, STATE FAULT and FCODE, and CHIP from block 0x18.
The first cause stays in FCODE: the fault is cleared only at power-on of PD_SAFE. -/
def State.pairFault (s : State) (code : Nat) : State :=
  let s := if s.sfsState = sfsFault then s
    else (s.setFld Reg.SFS_STATUS F.SFS_STATUS_STATE sfsFault).setFld Reg.SFS_STATUS F.SFS_STATUS_FCODE code
  let s := (s.setSelv { s.selv with cycleAt := none, crcAt := none }).refreshOuts
  let s := [36, 37, 38, 39].foldl
    (fun s k => s.setCtx k { s.ctx k with run := .halted, dead := true, wait := none, stall := .none }) s
  s.chip 0x18 0 code

/-- A bus error on an access (R21): FAB_ERR_ADDR and FAB_ERR_INFO capture it; kind 0b01 refused, 0b10 timeout. -/
def State.captureBusError (s : State) (slot addr : Nat) (kind : Nat) (write : Bool) : State :=
  (s.wrNat Reg.FAB_ERR_ADDR addr).wrNat Reg.FAB_ERR_INFO (slot + kind * 256 + bit01 write * 1024)

/-- An access refused under R4 or R78 (R21, R549): NOTE 0xF1 in the fabric root's record, with the initiator slot. -/
def State.refuseAccess (s : State) (slot addr : Nat) (write : Bool) : State :=
  (s.captureBusError slot addr 1 write).note 0x23 slot 0xF1

end Sys2Proof.Machine
end

