-- ==== Sys2Proof/Machine/LoomOps.lean ====
section
/-!
DEFINITION. Machine/LoomOps.lean: the operations of Loom that commands share: starting channels, boundaries, arming,
clearing (R88 to R104).
-/
namespace Sys2Proof.Machine

/-- Channel n starts with CNT at 0, or with its source's count, at the start `t0` of a period (R88, R90): the stale count
and the period count restart, and a source that is already active trips it at once (R99). -/
def State.chStart (s : State) (n t0 : Nat) : State :=
  let per := (s.lv (Reg.LOOM_CH_PERIOD n)).toNat % 2 ^ 24
  let x := s.ch n
  let s := s.setCh n { x with run := true, ran := true, t0 := t0, per := per, count := 0, mid := false, fired := [], jumped := [],
                              stale := 0, staleDone := false, outH := false, outL := false, dead := none,
                              missed := [] }
  let s := s.setCh n { s.ch n with phase := (s.lv (Reg.LOOM_CH_PHASE n)).toNat % 2 ^ 24 }
  let s := (s.setChFlag n F.LOOM_CH_STATUS_RUN true).setChFlag n F.LOOM_CH_STATUS_SYNC_ERR false
  (s.resume n).tripsOf n

def State.runBit (s : State) (n : Nat) : Bool := bitOf (s.fld Reg.LOOM_RUN F.LOOM_RUN_VAL) n

/-- SYNC_ERR of each channel follows the synchronisation of its source (R88). DESIGN CHOICE: it reads 1 from the write of CTRL
that makes the source invalid, whether or not RUN[n] is 1 yet (log entry 138). -/
def State.syncErrs (s : State) : State :=
  s.eachCh (fun s n => s.setChFlag n F.LOOM_CH_STATUS_SYNC_ERR
    (match s.chSync n with | some m => !s.syncValid m | none => false))

/-- The channels synchronised to m whose RUN bits are 1 start with it. -/
def State.startFollowers (s : State) (m t0 : Nat) : State :=
  s.eachCh (fun s n => if s.chSync n = some m ∧ s.runBit n ∧ !(s.ch n).run ∧ s.syncValid m then s.chStart n t0 else s)

/-- RUN[n] is written 1 on a channel that does not run: an independent channel starts, with its followers; a follower
waits for its source, and one without a valid source does not start (R88, R90). -/
def State.chLaunch (s : State) (n : Nat) : State :=
  if (s.ch n).run then s
  else
    match s.chSync n with
    | none => s.chStart n s.now
    | some m => if s.syncValid m then s else s.setChFlag n F.LOOM_CH_STATUS_SYNC_ERR true

/-- LOOM_RUN is written (R90). Every channel started by one write starts in the same cycle. -/
def State.loomRunWrite (s : State) (data : Nat) : State :=
  let old := s.fld Reg.LOOM_RUN F.LOOM_RUN_VAL
  let s := s.setFld Reg.LOOM_RUN F.LOOM_RUN_VAL data
  let s := s.eachCh (fun s n => if bitOf data n then s else if bitOf old n then s.chStopAll n else s)
  let idle := (List.range 24).filter (fun n => !(s.ch n).run)
  let s := s.eachCh (fun s n => if bitOf data n then s.chLaunch n else s)
  idle.foldl (fun s n => if (s.ch n).run ∧ (s.chSync n).isNone then s.startFollowers n s.now else s) s

/-- What channel n does at its boundary at instant `t`, which is its source's (R92, R95, R99 to R103): the commit, the
period and phase in effect, the stale count; then the releases; then the outputs. -/
def State.chBoundary (s : State) (n t : Nat) : State :=
  let s := s.setCh n { s.ch n with stale := (s.ch n).stale + 1 }
  let s := if s.commits n t 0 then s.chCommit n t else s
  let x := s.ch n
  let s := s.setCh n { x with t0 := t, per := (s.lv (Reg.LOOM_CH_PERIOD n)).toNat % 2 ^ 24, count := x.count + 1,
                              mid := false, fired := [], jumped := [] }
  let s := if (s.chSync n).isSome then s.phaseTo n else s
  let held := s.tripped n
  let cyc := (List.range 64).any (fun k => s.masks n k && s.srcActive k && s.tripBit k = F.LOOM_CH_STATUS_CYC_TRIP)
  let s := if s.chFlag n F.LOOM_CH_STATUS_CYC_TRIP then
      (if cyc then s.setChFlag n F.LOOM_CH_STATUS_PERSIST true else s.setChFlag n F.LOOM_CH_STATUS_CYC_TRIP false)
    else s
  let s := if (s.ch n).clear then
      ((s.setChFlag n F.LOOM_CH_STATUS_LATCH_TRIP false).setChFlag n F.LOOM_CH_STATUS_HIZ_TRIP false).setCh n
        { s.ch n with clear := false }
    else s
  let s := if held && !s.tripped n then s.resume n else s.refSync n
  s.recoversCell 0x00 0x03 n

/-- A channel that is not synchronised reaches its boundary at `t`, and with it its followers (R84, R88, R90). -/
def State.loomBoundary (s : State) (n t : Nat) : State :=
  let s := s.chBoundary n t
  let s := s.eachCh (fun s m => if s.chSync m = some n ∧ (s.ch m).run then s.chBoundary m t else s)
  s.startFollowers n t

/-- The midpoint commit of channel n (R91, R92). -/
def State.chMidpoint (s : State) (n t : Nat) : State :=
  if s.commits n t 1 then (s.chCommit n t).refSync n else s

/-- The pulse of an output of channel n is dropped and counted (R87, R97). -/
def State.dropPulse (s : State) (n : Nat) (high : Bool) : State :=
  (s.bump (Reg.LOOM_CH_DROP_CNT n)
    (if high then F.LOOM_CH_DROP_CNT_DROP_H else F.LOOM_CH_DROP_CNT_DROP_L)).line 0x00 (0x78 + n)

/-- CMD.CLR_TRIP (R101). DESIGN CHOICE: a comparator that is active inside a blanking window is active here and in the release
test of a CYCLE trip (log entry 139). -/
def State.clrTrip (s : State) (n : Nat) : State :=
  if (List.range 64).any (fun k => s.masks n k && (s.srcActive k || s.flag (Reg.LOOM_TSRC k) F.LOOM_TSRC_STUCK)) then
    s.setChFlag n F.LOOM_CH_STATUS_CLEAR_REFUSED true
  else
    let s := s.setFld (Reg.LOOM_CH_STATUS n) F.LOOM_CH_STATUS_FIRST_SRC 0xFF
    s.setCh n { s.ch n with clear := s.chFlag n F.LOOM_CH_STATUS_LATCH_TRIP || s.chFlag n F.LOOM_CH_STATUS_HIZ_TRIP }

/-- LOOM_GUPD.ARM is written 1 for the channels of `mask` (R94). -/
def State.gupdArm (s : State) (mask : Nat) : State :=
  s.eachCh (fun s n => if bitOf mask n then
    (if bitOf (s.fld Reg.LOOM_GUPD F.LOOM_GUPD_ARM) n then s
     else (s.setBit Reg.LOOM_GUPD F.LOOM_GUPD_ARM n true).setCh n { s.ch n with armAt := s.now })
    else s)

/-- A write of 1 to STUCK of source k (R102). -/
def State.stuckClear (s : State) (k : Nat) : State :=
  if s.srcActive k then s.setFlag (Reg.LOOM_TSRC k) F.LOOM_TSRC_REFUSED true
  else s.setFlag (Reg.LOOM_TSRC k) F.LOOM_TSRC_STUCK false

/-- The registers of channel n that code 0x02 asks to be written (R108). -/
def channelRegs (n : Nat) : List Nat :=
  shadowRegs n ++ [Reg.LOOM_CH_CTRL n, Reg.LOOM_CH_TRIP_PIN n, Reg.LOOM_CH_TRIP_CMP_LO n, Reg.LOOM_CH_TRIP_CMP_HI n,
    Reg.LOOM_CH_OUTCFG n, Reg.LOOM_CH_BLANK n]

/-- A register of channel n has been written: the last one outstanding recovers code 0x02 (R108). -/
def State.chWritten (s : State) (n a : Nat) : State :=
  let x := s.ch n
  if x.todo.contains a then
    let s := s.setCh n { x with todo := x.todo.filter (· ≠ a) }
    if (s.ch n).todo.isEmpty then s.recoversCell 0x00 0x02 n else s
  else s

end Sys2Proof.Machine
end

