-- ==== Sys2Proof/Machine/TwillOps.lean ====
section
/-!
DEFINITION. Machine/TwillOps.lean: issue, illegal instructions, slots and triggers of the Twill engines, and the writes
that reach them (R115 to R145).
-/
namespace Sys2Proof.Machine

/-- An illegal instruction at issue (R117, R145): the run ends, RUN := 0, ILL, CONTAIN code 0x02, line 0x60 + e. -/
def State.twIllegal (s : State) (e : Nat) : State :=
  (((s.twStop e).twFlag e F.TW_STATUS_ILL).contain 0x01 e 0x02).line 0x01 (0x60 + e)

/-- Engine e issues: it runs, a slot run is in progress that does not wait and has budget left (R118, R123, R124). -/
def State.twIssues (s : State) (e : Nat) : Bool :=
  s.up 0x01 && s.twRuns e &&
    (match (s.te e).run with
     | some r => r.wait.isNone && r.cyc < s.budget e r.slot
     | none => false)

/-- The next instruction, `cyc` cycles later. -/
def Engine.next (x : Engine) (cyc : Nat) : Engine :=
  { x with pc := x.pc + 1, run := x.run.map (fun r => { r with cyc := r.cyc + cyc }) }

/-- An instruction of engine e: legal as `ok` says and inside the program store, it has the effect `f` and takes `cyc`
cycles. -/
def twill (e : Fin 4) (ok : Bool) (cyc : Nat) (s : State) (f : State → State) : State :=
  if s.twIssues e.val then
    if ok && (s.te e.val).pc < 512 then
      let s := s.setTe e.val ((s.te e.val).next cyc)
      f s
    else s.twIllegal e.val
  else s

/-- a[d] := sat64(v); a clamp sets Q (R115). -/
def State.twPut (s : State) (e d : Nat) (v : Int) : State :=
  let c := clampInt (-9223372036854775808) 9223372036854775807 v
  let s := s.setTe e ((s.te e).setA d (BitVec.ofInt 64 c))
  if c = v then s else s.twFlag e F.TW_STATUS_Q

def sat32 (v : Int) : Int := clampInt (-2147483648) 2147483647 v

/-- Q is set where sat32(v) clamps. -/
def State.twSat (s : State) (e : Nat) (v : Int) : State := if sat32 v = v then s else s.twFlag e F.TW_STATUS_Q

/-- An instruction that writes an accumulator with a value of the state. -/
def twAcc (e : Fin 4) (d : Fin 16) (ok : Bool) (cyc : Nat) (s : State) (v : State → Int) : State :=
  twill e ok cyc s (fun s => s.twPut e.val d.val (v s))

/-- Loom's trigger t calls the slots bound to it (R120, R122): an enabled slot becomes pending; one that is pending or
running is an overrun, with NOTE code 0x04. -/
def State.slotTrigger (s : State) (e sl : Nat) : State :=
  let x := s.te e
  let pend := s.fld (Reg.TW_STATUS e) F.TW_STATUS_PEND
  let busy := match x.run with | some r => r.slot = sl | none => false
  if bitOf pend sl || busy then
    let s := (s.bump (Reg.TW_SLOT_CFG e sl) F.TW_SLOT_CFG_OVR_CNT).setTe e
      { x with ovr := Tab.set (fun _ => 0) x.ovr sl (Tab.get (fun _ => 0) x.ovr sl + 1) }
    (s.line 0x01 (0x20 + 8 * e + sl)).note 0x01 e 0x04
  else
    (s.setBit (Reg.TW_STATUS e) F.TW_STATUS_PEND sl true).setTe e
      { x with trigAt := Tab.set (fun _ => 0) x.trigAt sl s.now, ovr := Tab.set (fun _ => 0) x.ovr sl 0 }

/-- The slots that are bound to trigger t on engines that run. -/
def State.slotTriggers (s : State) (t : Nat) : State :=
  (List.range 4).foldl (fun s e => (List.range 8).foldl (fun s sl =>
    if s.up 0x01 && s.twRuns e && s.flag (Reg.TW_SLOT_CFG e sl) F.TW_SLOT_CFG_EN &&
        s.fld (Reg.TW_SLOT_CFG e sl) F.TW_SLOT_CFG_TRIG = t then s.slotTrigger e sl
    else s) s) s

/-- The port of input n is fresh for the run r of engine e (R119): its ADC is bound to the trigger that started the run, and
it holds a result sampled at or after it. -/
def State.ainFresh (s : State) (e n : Nat) (r : SlotRun) : Bool :=
  s.adcBound (s.fld (Reg.TW_SLOT_CFG e r.slot) F.TW_SLOT_CFG_TRIG) (n % 8) && (s.ain n).wrote.isSome &&
    r.trig ≤ (s.ain n).sampled

/-- A result of input n is readable: engines that wait for it go on in the cycle after (R118, R119). -/
def State.ainReadable (s : State) (n : Nat) : State :=
  (List.range 4).foldl (fun s e =>
    let x := s.te e
    match x.run with
    | some r =>
      match r.wait with
      | some (p, t) =>
        if p = n ∧ s.ainFresh e n r then
          s.setTe e { x with run := some { r with wait := none, cyc := r.cyc + (s.now - t + 15) / ticksPerNs } }
        else s
      | none => s
    | none => s) s

/-- TW_CTRL.RUN is written (R126): 1 starts the engine idle, which recovers code 0x02, and code 0x06 once the memory has
been rewritten (R145). -/
def State.twRunWrite (s : State) (e : Nat) (run : Bool) : State :=
  if run then
    if s.twRuns e then s
    else
      let s := s.setFlag (Reg.TW_CTRL e) F.TW_CTRL_RUN true
      let s := s.recoversCell 0x01 0x02 e
      if (s.te e).badWord.isNone then s.recoversCell 0x01 0x06 e else s
  else s.twStop e

/-- The record of Twill is not open: the CONTAIN that comes now opens it. -/
def State.twOpens (s : State) : Bool := !s.flag (Reg.ERR_BLK_STATUS 0x01) F.ERR_BLK_STATUS_OPEN

/-- An STA has written the word of M at `a` in the present cycle: it is kept (R148). -/
def State.staKept (s : State) (e a : Nat) : Bool :=
  match (s.te e).sta with | some (b, t) => a = b && t / ticksPerNs = s.now / ticksPerNs | none => false

/-- A word of Twill's memories is written: it is no longer the failing one (R145). -/
def State.twRewritten (s : State) (e a : Nat) : State :=
  let x := s.te e
  if x.badWord = some a then s.setTe e { x with badWord := none } else s

/-- A coefficient register is written: it belongs to the next set (R140). -/
def State.coefWrite (s : State) (e a : Nat) (v : Word) : State :=
  let x := s.te e
  ((s.wr a v).setTe e { x with coefNew := a :: x.coefNew.filter (· ≠ a) }).twRewritten e a

/-- TW_CCOMMIT.GO is written 1 (R140): the coefficients written since the last GO form a set. -/
def State.coefCommit (s : State) (e : Nat) : State :=
  let x := s.te e
  let new := x.coefNew.map (fun a => (a, s.rd a))
  (s.setFlag (Reg.TW_CCOMMIT e) F.TW_CCOMMIT_GO true).setTe e
    { x with coefNew := [], coefSet := x.coefSet.filter (fun p => !x.coefNew.contains p.1) ++ new }

/-- TW_OWN is written (R138): a bit that another engine holds stays clear and sets OWN_CONFLICT. -/
def State.ownWrite (s : State) (e data : Nat) : State :=
  let other := (List.range 24).filter (fun n =>
    (List.range 4).any (fun f => f ≠ e && bitOf (s.fld (Reg.TW_OWN f) F.TW_OWN_CH) n))
  let got := other.foldl (fun d n => withBit d n false) data
  let s := s.setFld (Reg.TW_OWN e) F.TW_OWN_CH got
  if got = data then s else s.twFlag e F.TW_STATUS_OWN_CONFLICT

/-- One sample of a first-order low-pass of time constant 2^TAU samples, from `y` toward `x` (R133). The spec gives no
arithmetic: the step is a free value between those of the two Euler forms, |x − y| ÷ (2^TAU + 1) and |x − y| ÷ 2^TAU, which
enclose the exact one. -/
def lowPassStep (tau y x : Nat) : Nat :=
  let far := if y ≤ x then x - y else y - x
  let step := clampNat (far / (2 ^ tau + 1)) ((far + 2 ^ tau - 1) / 2 ^ tau) (Config.lowPass tau y x)
  if y ≤ x then y + step else y - step

/-- CFG.CLR of a slot (R148). -/
def State.slotClear (s : State) (e sl : Nat) : State :=
  (s.setFld (Reg.TW_SLOT_CFG e sl) F.TW_SLOT_CFG_OVR_CNT 0).setFld (Reg.TW_SLOT_STAT e sl) F.TW_SLOT_STAT_MAX_CYC 0

end Sys2Proof.Machine
end

