-- ==== Sys2Proof/Machine/TwillWord.lean ====
section
/-!
DEFINITION. Machine/TwillWord.lean: which 64-bit words are Twill instructions (R112, R116 to R118, R127).
-/
namespace Sys2Proof.Machine

/-- Bits [hi:lo] of a Twill word. -/
def tbits (w : BitVec 64) (hi lo : Nat) : Nat := w.toNat / 2 ^ lo % 2 ^ (hi + 1 - lo)

/-- Which fields of format A an instruction uses: d, s, x, and the last value that k may have; an accumulator t stands in
k up to 15. A field that it does not use is 0. -/
structure UseA where
  d : Bool
  s : Bool
  x : Bool
  k : Nat

/-- The instructions of format A, and the address they accept. -/
def useA (op : Nat) : Option UseA :=
  if op = 0x00 ∨ op = 0x01 then some ⟨false, false, false, 0⟩
  else if op = 0x02 then some ⟨true, false, true, 0⟩
  else if op = 0x03 then some ⟨false, true, true, 0⟩
  else if 0x04 ≤ op ∧ op ≤ 0x06 then some ⟨true, false, true, 255⟩
  else if 0x07 ≤ op ∧ op ≤ 0x09 then some ⟨true, true, false, 255⟩
  else if op = 0x0A ∨ op = 0x0B ∨ (0x0F ≤ op ∧ op ≤ 0x11) then some ⟨true, true, false, 15⟩
  else if 0x0C ≤ op ∧ op ≤ 0x0E then some ⟨true, true, false, 0⟩
  else if op = 0x12 then some ⟨true, true, false, 255⟩
  else if op = 0x13 then some ⟨true, true, true, 0⟩
  else if op = 0x1C ∨ op = 0x1D then some ⟨true, false, true, 3⟩
  else if op = 0x20 then some ⟨true, false, false, 7⟩
  else if op = 0x2C then some ⟨false, false, true, 0⟩
  else none

/-- The address of an instruction of format A: STA names M, WAITIN an ADC port, the others any of the data space. -/
def addrLegal (op x : Nat) : Bool :=
  if op = 0x03 then x < 0x200 else if op = 0x2C then 0x200 ≤ x && x < 0x230 else inDataSpace x

/-- A word of format A. -/
def legalA (w : BitVec 64) (op : Nat) : Bool :=
  match useA op with
  | some u =>
    tbits w 29 0 = 0 && (u.d || tbits w 57 54 = 0) && (u.s || tbits w 53 50 = 0) &&
      (if u.x then addrLegal op (tbits w 49 38) else tbits w 49 38 = 0) && tbits w 37 30 ≤ u.k &&
      (op ≠ 0x12 || tbits w 37 30 < 32 || 224 ≤ tbits w 37 30)
  | none => false

/-- MINSEL (R127). -/
def minselLegal (b n tm x k : Nat) : Bool :=
  1 ≤ n && n ≤ 6 && tm < 2 ^ n && b + n ≤ 16 && x + n ≤ 0x200 && k + n ≤ 256

/-- The fields that the condition of a BR does not use are 0, and the condition is listed (R118). -/
def brLegal (cond sa ta : Nat) : Bool :=
  if cond = 0 then sa = 0 && ta = 0 else if cond = 5 ∨ cond = 6 then ta = 0 else cond ≠ 7

/-- The word is an instruction of Twill (R117): OUT, ARM and EVT share format O. -/
def twLegal (w : BitVec 64) : Bool :=
  let op := tbits w 63 58
  if op = 0x18 then
    tbits w 20 0 = 0 && minselLegal (tbits w 53 50) (tbits w 49 47) (tbits w 46 41) (tbits w 40 29) (tbits w 28 21)
  else if op = 0x24 then tbits w 57 54 = 0 && tbits w 42 0 = 0 && tbits w 49 45 < 24
  else if op = 0x25 then tbits w 57 24 = 0
  else if op = 0x26 then tbits w 57 3 = 0
  else if op = 0x28 then
    tbits w 57 54 = 0 && tbits w 42 9 = 0 && brLegal (tbits w 45 43) (tbits w 53 50) (tbits w 49 46)
  else legalA w op

end Sys2Proof.Machine
end

