-- ==== Sys2Proof/Machine/FabricBase.lean ====
section
/-!
DEFINITION. Machine/FabricBase.lean: the room that credits and limits leave on the fabric, and the bus errors of the engines
that move data over it by themselves (R13, R18, R21, R33).
-/
namespace Sys2Proof.Machine

/-- The outstanding limit of a slot (R18). -/
def slotLimit (slot : Nat) : Nat :=
  if slot < 8 then 8 else if slot = 8 then 4 else if slot < 14 then 8 else if slot < 16 then 4
  else if slot = 16 then 8 else 2

/-- The region of a slot's initiator, none for the hub. -/
def slotRegion (slot : Nat) : Option Nat :=
  if slot = 8 then some 2 else if slot = 9 ∨ slot = 16 then some 0
  else if 10 ≤ slot ∧ slot ≤ 15 then some 1 else none

/-- The region an address lies in, none for the hub: the fabric windows of the address map (R77). -/
def addrRegion (a : Nat) : Option Nat :=
  if 0x10000000 ≤ a ∧ a < 0x20000000 then some 0
  else if 0x20000000 ≤ a ∧ a < 0x30000000 then some 1
  else if 0x30000000 ≤ a ∧ a < 0x40000000 then some 2
  else if 0x40000000 ≤ a ∧ a < 0x50000000 then some 3
  else none

/-- Credits in use on the bridge of region `r`: inward, or outward (R13). -/
def State.creditsIn (s : State) (r : Nat) : Nat :=
  s.fabric.out.countP (fun x => addrRegion x.addr.toNat = some r && slotRegion x.slot ≠ some r)
def State.creditsOut (s : State) (r : Nat) : Nat :=
  s.fabric.out.countP (fun x => slotRegion x.slot = some r && addrRegion x.addr.toNat ≠ some r)

/-- A request can issue: the fabric accepts transactions (R33), and the chip's and the initiator's limits and the bridges it
crosses leave room (R13, R18). -/
def State.canIssue (s : State) (x : Xact) : Bool :=
  !s.fabric.closed && s.fabric.out.length < 128 && s.fabric.out.countP (fun y => y.slot = x.slot) < slotLimit x.slot &&
  (match addrRegion x.addr.toNat with
   | some r => slotRegion x.slot = some r || s.creditsIn r < 16
   | none => true) &&
  (match slotRegion x.slot with
   | some r => addrRegion x.addr.toNat = some r || s.creditsOut r < 16
   | none => true)

/-- A write request of an initiator that is no Weft context. -/
def outsideXact (now slot : Nat) (addr data : Word) (size : Nat) : Xact :=
  { slot := slot, ctx := 64 + slot, addr := addr, kind := .store size data, since := now, promoted := false, failed := false }

/-- The engine in `slot` can make a transfer with shared SRAM: the fabric is open, and credits and limits leave room (R13, R18,
R33). Without room it stalls, which is no error. -/
def State.dmaRoom (s : State) (slot : Nat) : Bool := s.canIssue (outsideXact s.now slot (BitVec.ofNat 32 sramBase) 0 4)

/-- The first address of `n` from `a` on that lies outside shared SRAM. -/
def firstOutside (a : Nat) : Nat := if inSram a then sramBase + sramSize else a

/-- A transfer of the engine in `slot` that does not lie in shared SRAM is refused (R21, R78). -/
def State.dmaRefused (s : State) (slot a : Nat) (write : Bool) : State := s.refuseAccess slot (firstOutside a) write

end Sys2Proof.Machine
end

