-- ==== Sys2Proof/Machine/EccOps.lean ====
section
/-!
DEFINITION. Machine/EccOps.lean: reading and writing the memories that carry check bits (R75, R551, R552, R61, R441).
Addresses here are memory keys; a word's damage is kept at the key of its first byte.
-/
namespace Sys2Proof.Machine

/-- The memory a key lies in, for the fault it raises: shared SRAM, the TCM of WS[n], of the metrology sequencer, of the
Selvedge pair, or a memory without check bits. -/
inductive Bank where
  | sram (bank : Nat)
  | tcm (ws : Nat)
  | metro | pair | plain
deriving DecidableEq, Repr

def bankOf (a : Nat) : Bank :=
  if inSram a then .sram (sramBank a)
  else if inTcm a then .tcm (tcmOwner a)
  else if metroItcm ≤ a ∧ a < metroDtcm + 0x8000 then .metro
  else if pairItcm ≤ a ∧ a < pairDtcm + 0x4000 then .pair
  else .plain

/-- The key of the word that holds key `a`. -/
def wordOf (a : Nat) : Nat := a / 4 * 4

def State.damage (s : State) (a : Nat) : Damage := Tab.get (fun _ => Damage.none) s.ecc.damage (wordOf a)

/-- The fault of a corrected error (R61 code 0x02, R552 code 0x01, R366 code 0x01, R441 code 0x01). -/
def State.eccNote (s : State) (a : Nat) : State :=
  match bankOf a with
  | .sram b => s.note 0x21 b 0x01
  | .tcm n => s.note 0x20 n 0x02
  | .metro => s.note 0x10 0 0x01
  | .pair => s.note 0x18 0 0x01
  | .plain => s

/-- The word's contents are undefined: its start-up test has failed, and nothing has written or read it since (R553). -/
def State.unknown (s : State) (a : Nat) : Bool :=
  ((s.ecc.sramUndef && inSram a) || (s.ecc.tcmUndef && inTcm a)) && !s.ecc.known.contains (wordOf a)

/-- The word is no longer undefined. -/
def State.nowKnown (s : State) (a : Nat) : State :=
  if s.unknown a then s.setEcc { s.ecc with known := wordOf a :: s.ecc.known } else s

/-- An undefined word takes its contents as it is first met: a free value, and check bits that match it or not (R553). -/
def State.settleWord (s : State) (a : Nat) : State :=
  if s.unknown a then
    let v := s.freeNat % 2 ^ 32
    let n := s.took.freeNat % 3
    let d : Damage := if n = 0 then .none else if n = 1 then .single else .double
    let s := s.took.took.nowKnown a
    (s.setEcc { s.ecc with damage := Tab.set (fun _ => Damage.none) s.ecc.damage (wordOf a) d }).putNum (wordOf a) 4 v
  else s

/-- The fault of an uncorrectable error (R61 code 0x03, R552 code 0x02, R441 code 0x14). The spec gives the metrology
sequencer's memories no code of their own: there only the trap tells. -/
def State.eccLost (s : State) (a : Nat) : State :=
  let s := s.setEcc { s.ecc with lost := wordOf a :: s.ecc.lost.filter (· ≠ wordOf a),
                                 rewritten := s.ecc.rewritten.filter (· ≠ wordOf a) }
  match bankOf a with
  | .sram b => s.contain 0x21 b 0x02
  | .tcm n =>
    let s := if s.flag (Reg.ERR_BLK_STATUS 0x20) F.ERR_BLK_STATUS_OPEN then s
      else s.setEcc { s.ecc with opened := Tab.set (fun _ => 0) s.ecc.opened n (wordOf a) }
    s.contain 0x20 n 0x03
  | .pair => s.pairFault 0x14
  | _ => s

/-- The word is read without error after its rewriting: the read-back that recovers code 0x03, where that word opened the
record (R61, R67, R77). -/
def State.eccReadBack (s : State) (a : Nat) : State :=
  if s.ecc.rewritten.contains (wordOf a) then
    let s := s.setEcc { s.ecc with rewritten := s.ecc.rewritten.filter (· ≠ wordOf a),
                                   lost := s.ecc.lost.filter (· ≠ wordOf a) }
    match bankOf a with
    | .tcm n => if Tab.get (fun _ => 0) s.ecc.opened n = wordOf a then s.recoversCell 0x20 0x03 n else s
    | _ => s
  else s

/-- A read meets the check of its word (R551): whether data is returned, and what the check leaves. -/
def State.checkRead (s : State) (a : Nat) : Bool × State :=
  let s := s.settleWord a
  match s.damage a with
  | .none => (true, s.eccReadBack a)
  | .single =>
    if s.ecc.back.contains (wordOf a) then (true, s)
    else (true, (s.setEcc { s.ecc with back := wordOf a :: s.ecc.back }).eccNote a)
  | .double => (false, s.eccLost a)

/-- The check bits of the word are valid again. -/
def State.mendWord (s : State) (a : Nat) : State :=
  s.setEcc { s.ecc with damage := Tab.set (fun _ => Damage.none) s.ecc.damage (wordOf a) .none,
                        back := s.ecc.back.filter (· ≠ wordOf a) }

/-- A full 32-bit write rewrites the word (R551): in shared SRAM the last open word of the bank recovers code 0x02
(R75, R552); in a TCM it awaits its read-back (R61). -/
def State.rewriteWord (s : State) (a : Nat) : State :=
  let s := (s.mendWord a).nowKnown a
  if s.ecc.lost.contains (wordOf a) then
    match bankOf a with
    | .sram b =>
      let s := s.setEcc { s.ecc with lost := s.ecc.lost.filter (· ≠ wordOf a) }
      if s.ecc.lost.any (fun w => bankOf w = .sram b) then s else s.recoversCell 0x21 0x02 b
    | .tcm _ => s.setEcc { s.ecc with rewritten := wordOf a :: s.ecc.rewritten.filter (· ≠ wordOf a) }
    | _ => s.setEcc { s.ecc with lost := s.ecc.lost.filter (· ≠ wordOf a) }
  else s

/-- A write of the low `size` bytes of `v` at key `a` (R551): whether it is made, and the state after it. A halfword or byte
write that corrects a single-bit error reads the word first, and that read raises the NOTE as any read does: R61 lists
fetch, load and window read only, so for a write this is the model's choice (log entry 133). -/
def State.checkWrite (s : State) (a size : Nat) (v : Nat) : Bool × State :=
  if size = 4 then (true, (s.rewriteWord a).putNum a 4 v)
  else
    let s := s.settleWord a
    match s.damage a with
    | .none => (true, s.putNum a size v)
    | .single => (true, ((s.mendWord a).putNum a size v).eccNote a)
    | .double => (false, s.eccLost a)

/-- The undefined words among the `n` bytes from `a` on take their contents (R553). -/
def State.settleRange (s : State) (a n : Nat) : State :=
  if s.ecc.sramUndef || s.ecc.tcmUndef then
    (List.range ((n + 6) / 4)).foldl (fun s i => if wordOf a + 4 * i < a + n then s.settleWord (a + 4 * i) else s) s
  else s

/-- The damaged words among the `n` bytes from `a` on, and of those the first that cannot be corrected. -/
def State.damagedIn (s : State) (a n : Nat) : List Nat :=
  (s.ecc.damage.filter (fun e => wordOf a ≤ e.1 && e.1 < a + n)).map (·.1)

/-- The engine in `slot` reads the `n` bytes at `a` in shared SRAM: whether they lie there and every word passes its check
(R551), and what the checks leave; a failure is a bus error that FAB_ERR_ADDR and FAB_ERR_INFO capture (R21). -/
def State.readBlock (s : State) (slot a n : Nat) : Bool × State :=
  if sramRange a n then
    let s := s.settleRange a n
    (s.damagedIn a n).foldl (fun r w =>
      let c := r.2.checkRead w
      (c.1 && r.1, if c.1 then c.2 else c.2.captureBusError slot w 0 false)) (true, s)
  else (false, s.dmaRefused slot a false)

/-- The bytes `l`, whole words, are written at key `a` (R551): every word with new check bits. -/
def State.writeBlock (s : State) (a : Nat) (l : List Byte) : State :=
  let s := s.settleRange a l.length
  ((s.damagedIn a l.length).foldl (fun s w => s.rewriteWord w) s).putBytes a l

/-- A write of `n` bytes from `a` on covers the whole word at `w`. -/
def covers (a n w : Nat) : Bool := a ≤ w && w + 4 ≤ a + n

/-- A damaged word at `w` meets a write of `n` bytes from `a` on that is made (R551): rewritten, or corrected with NOTE. -/
def State.meetWrite (s : State) (a n w : Nat) : State :=
  if covers a n w then s.rewriteWord w
  else if s.damage w = .single then (s.mendWord w).eccNote w
  else s

/-- The engine in `slot` writes the bytes `l` at `a`: whether they lie in shared SRAM and no partial write meets an
uncorrectable word (R551), and the state after; a failed write writes nothing and is a bus error (R21). -/
def State.writeRange (s : State) (slot a : Nat) (l : List Byte) : Bool × State :=
  if l = [] then (true, s)
  else if sramRange a l.length then
    let s := s.settleRange a l.length
    let d := s.damagedIn a l.length
    match d.find? (fun w => !covers a l.length w && s.damage w = .double) with
    | some w => (false, (s.eccLost w).captureBusError slot w 0 true)
    | none => (true, (d.foldl (fun s w => s.meetWrite a l.length w) s).putBytes a l)
  else (false, s.dmaRefused slot a true)

/-- Several writes in turn, none after one that fails: whether all were made. -/
def State.writeRanges (s : State) (slot : Nat) (l : List (Nat × List Byte)) : Bool × State :=
  l.foldl (fun r x => if r.1 then r.2.writeRange slot x.1 x.2 else r) (true, s)

/-- The engine in `slot` reads `n` bytes at `a`, none where `n` is 0. -/
def State.readRange (s : State) (slot a n : Nat) : Bool × State := if n = 0 then (true, s) else s.readBlock slot a n

end Sys2Proof.Machine
end

