-- ==== Sys2Proof/Machine/Operands.lean ====
section
/-!
DEFINITION. Machine/Operands.lean: the operand forms of the Weft instructions (R37, R40, R42) and the words of the
forms that trap.
-/
namespace Sys2Proof.Machine

/-- w[i]: w0 reads 0 (R37). -/
def Context.reg (x : Context) (i : Nat) : Word := if i = 0 then 0 else Tab.get (fun _ => 0) x.w i

/-- w[d] := v: a write to w0 is discarded (R37). -/
def Context.put (x : Context) (d : Nat) (v : Word) : Context :=
  if d = 0 then x else { x with w := Tab.set (fun _ => 0) x.w d v }

/-- The next instruction. -/
def Context.advance (x : Context) : Context := { x with pc := x.pc + 4 }

/-- sext(imm) and zext(imm). -/
def sextImm (imm : BitVec 16) : Word := imm.signExtend 32
def zextImm (imm : BitVec 16) : Word := imm.zeroExtend 32

/-- ea: w[a] + sext(imm), modulo 2^32. -/
def Context.ea (x : Context) (a : Nat) (imm : BitVec 16) : Word := x.reg a + sextImm imm

/-- PC + 4 × sext(off): offsets count from the branch itself, in words. -/
def Context.target (x : Context) (off : BitVec 16) : Word := x.pc + sextImm off * 4

/-- ACC as a signed number. -/
def Context.accInt (x : Context) : Int := x.acc.toInt

/-- P: the exact signed product w[a] × w[b]. -/
def Context.product (x : Context) (a b : Nat) : Int := (x.reg a).toInt * (x.reg b).toInt

/-- The word of a format-R instruction (R40). -/
def wordR (op func k b d a : Nat) : Word :=
  BitVec.ofNat 32 (op * 2 ^ 26 + func * 2 ^ 20 + k * 2 ^ 15 + b * 2 ^ 10 + d * 2 ^ 5 + a)

/-- The word of a format-I instruction (R40). -/
def wordI (op imm d a : Nat) : Word := BitVec.ofNat 32 (op * 2 ^ 26 + imm * 2 ^ 10 + d * 2 ^ 5 + a)

end Sys2Proof.Machine
end

