-- ==== Sys2Proof/Machine/Flags.lean ====
section
/-!
DEFINITION. Machine/Flags.lean: the sticky bits Q and DZ of a Weft context and the saturations that set Q (R39, R49, R50).
-/
namespace Sys2Proof.Machine

/-- STATUS.Q := 1. -/
def Context.setQ (x : Context) : Context := { x with status := x.status ||| 1 }
/-- STATUS.DZ := 1. -/
def Context.setDz (x : Context) : Context := { x with status := x.status ||| 2 }
/-- STATUS.IN_TRAP, BUSPEND and BUSLOST. -/
def Context.inTrap (x : Context) : Bool := x.status.getLsbD 8
def Context.busPend (x : Context) : Bool := x.status.getLsbD 14

/-- w[d] := v as a word, with Q set where `v` lies outside [lo, hi] and is clamped. -/
def Context.putClamped (x : Context) (d : Nat) (lo hi v : Int) : Context :=
  let x := x.put d (BitVec.ofInt 32 (clampInt lo hi v))
  if v < lo ∨ hi < v then x.setQ else x

/-- w[d] := sat32(v). -/
def Context.putSat32 (x : Context) (d : Nat) (v : Int) : Context := x.putClamped d (-2147483648) 2147483647 v

/-- ACC := sat64(v). -/
def Context.accSat64 (x : Context) (v : Int) : Context :=
  let x' := { x with acc := BitVec.ofInt 64 (clampInt (-9223372036854775808) 9223372036854775807 v) }
  if v < -9223372036854775808 ∨ 9223372036854775807 < v then x'.setQ else x'

/-- scale(v, s): shr0 when RN = 0, rnd when RN = 1 (R42, R49). -/
def scale (rn : Bool) (v : Int) (s : Nat) : Int := if rn then roundAway v s else divZero v (2 ^ s : Nat)

end Sys2Proof.Machine
end

