-- ==== Sys2Proof/Machine/WeftOps.lean ====
section
/-!
DEFINITION. Machine/WeftOps.lean: what the Weft instructions and the events of a context share: issue and fetch, traps
(taking one and the double trap), waiting, events, restart and the watchdog, fabric requests.
-/
namespace Sys2Proof.Machine

/-- The engine of a context key. -/
def engOf (k : Nat) : Nat := k / 4

/-- The block of an engine. -/
def engBlock (e : Nat) : Nat := if e < 8 then 0x20 else if e = 8 then 0x10 else 0x18

/-- Bytes of an engine's instruction and data memory, and the keys of their first bytes (R38, R62, R77, R418). -/
def itcmSize (e : Nat) : Nat := if e < 8 then 0x10000 else if e = 8 then 0x18000 else 0x8000
def dtcmSize (e : Nat) : Nat := if e < 8 then 0x8000 else if e = 8 then 0x8000 else 0x4000
def itcmKey (e : Nat) : Nat := if e < 8 then tcmWindow e else if e = 8 then metroItcm else pairItcm
def dtcmKey (e : Nat) : Nat := if e < 8 then tcmWindow e + 0x10000 else if e = 8 then metroDtcm else pairDtcm

/-- An address of the engine's instruction memory (R38). -/
def inItcm (e a : Nat) : Bool := 0x60000000 ≤ a && a < 0x60000000 + itcmSize e
/-- An address of the engine's data memory. -/
def inDtcm (e a : Nat) : Bool := 0x60100000 ≤ a && a < 0x60100000 + dtcmSize e

/-- The fabric slot of an engine (R18); the pair has none (R418). -/
def engSlot (e : Nat) : Nat := e

/-! Taking a trap (R56 to R60) -/

/-- A double trap halts the context; it raises CONTAIN 0x01 in ERR_BLK[0x20] with the sequencer as cell (R59, R61), and
on the pair it is a pair fault of code 0x14 (R63, R441). -/
def State.doubleTrap (s : State) (k code : Nat) : State :=
  let x := s.ctx k
  let s := s.setCtx k
    { x with tcause := BitVec.ofNat 32 (x.tcause.toNat / 256 % 2 ^ 22 * 256 + bit01 (x.tcause.getLsbD 31) * 2 ^ 31 +
                2 ^ 30 + code),
             run := .halted, dead := true, wait := none, stall := .none,
             wdtLeft := x.wdtDue.map (· - s.now), wdtDue := none }
  if engOf k = 9 then s.pairFault 0x14 else s.contain 0x20 (engOf k) 0x01

/-- take_trap(code, value, resume, imprecise) of R59. -/
def State.takeTrap (s : State) (k code : Nat) (value resume : Word) (imprecise : Bool) : State :=
  let x := s.ctx k
  if imprecise && x.inTrap then
    if x.busPend then s.setCtx k { x with status := x.status ||| 0x8000 }
    else s.setCtx k { x with status := x.status ||| 0x4000, busAddr := value }
  else if x.inTrap || !inItcm (engOf k) x.tvec.toNat then s.doubleTrap k code
  else
    s.setCtx k
      { x with epc := resume, tval := value, tcause := BitVec.ofNat 32 (code + bit01 imprecise * 2 ^ 31),
               status := (x.status ||| 0x100) &&& ~~~(0x4000 : Word), pc := x.tvec, wait := none, stall := .none }

def causeIllegal : Nat := 0x01
def causeFetch : Nat := 0x02
def causeMisalign : Nat := 0x03
def causeAccess : Nat := 0x04
def causeBusLoad : Nat := 0x05
def causeBusStore : Nat := 0x06
def causeEcc : Nat := 0x07
def causeTrap : Nat := 0x08
def causeBrk : Nat := 0x09

/-- A trap of the faulting instruction itself: EPC is that instruction (R56, R57). -/
def State.trapHere (s : State) (k code : Nat) (value : Word) : State := s.takeTrap k code value (s.ctx k).pc false

/-- An instruction boundary of the context, a WAIT and a BAR among them: an imprecise bus error that waits is taken first
(R58, R60). -/
def State.boundary (s : State) (k : Nat) : State :=
  let x := s.ctx k
  if x.busPend && !x.inTrap && x.run = .running && (x.stall = .none || x.stall = .bar) then
    s.takeTrap k causeBusStore x.busAddr x.pc true
  else s

/-! Issue (R64, R65) and fetch (R38, R56, R551) -/

/-- The context may issue: RUNNING, not in WAIT and not stalled (R64). -/
def Context.ready (x : Context) : Bool := x.run = .running && x.wait.isNone && x.stall = .none

/-- HALT is requested for the context and effective (R81): the sequencer is claimed. -/
def State.haltAsked (s : State) (k : Nat) : Bool :=
  k < 32 && Tab.get (fun _ => false) s.weft.claim (engOf k) &&
    bitOf (s.fld (Reg.WSC_CTX_CTRL (engOf k)) F.WSC_CTX_CTRL_HALT) (k % 4)

/-- The context of key k is ready (R64); one that is to halt completes what it has issued and issues no more (R81). -/
def State.ready (s : State) (k : Nat) : Bool := (s.ctx k).ready && !s.haltAsked k

/-- The context is the lowest-numbered ready context of an engine that is out of reset: it issues (R64). -/
def State.issues (s : State) (k : Nat) : Bool :=
  s.up (engBlock (engOf k)) && s.ready k && (List.range (k % 4)).all (fun i => !s.ready (4 * engOf k + i))

/-- The ECC trap of a fetch or an access of the owning sequencer (R56, R551); on the pair the error was a pair fault. -/
def State.eccTrap (s : State) (k : Nat) (value : Word) : State :=
  if engOf k = 9 then s else s.trapHere k causeEcc value

/-- The instruction at PC is fetched: a PC that is misaligned or outside the instruction memory traps FETCH, a word that
cannot be corrected traps ECC (R56, R551). -/
def State.fetches (s : State) (k : Nat) : Bool × State :=
  let pc := (s.ctx k).pc
  if pc.toNat % 4 ≠ 0 ∨ !inItcm (engOf k) pc.toNat then (false, s.trapHere k causeFetch pc)
  else
    let r := s.checkRead (itcmKey (engOf k) + (pc.toNat - 0x60000000))
    if r.1 then r else (false, r.2.eccTrap k pc)

/-- An instruction of context `c`: issued and fetched, it has the effect `f`. -/
def weft (c : CtxId) (s : State) (f : Nat → State → State) : State :=
  if s.issues (ctxKey c) then
    let r := s.fetches (ctxKey c)
    if r.1 then f (ctxKey c) r.2 else r.2
  else s

/-- An instruction that acts on its own context only and goes on at the next instruction. -/
def weftCtx (c : CtxId) (s : State) (f : Context → Context) : State :=
  weft c s (fun k s => s.setCtx k (f (s.ctx k)).advance)

/-! Watchdog and run state (R67, R68, R81) -/

/-- Ticks of the watchdog: LIMIT in units of 1,024 cycles, 0 acts as 1 (R70). -/
def Context.wdtTicks (x : Context) (e : Nat) : Nat := orDefault (x.wdt.toNat % 2 ^ 24) 1 * 1024 * engTicks e

/-- The watchdog reloads. -/
def State.wdtKick (s : State) (k : Nat) : State :=
  let x := s.ctx k
  if x.wdt.getLsbD 31 then s.setCtx k { x with wdtDue := some (s.now + x.wdtTicks (engOf k)), wdtLeft := none }
  else s.setCtx k { x with wdtDue := none, wdtLeft := none }

/-- The context's watchdog is frozen, or runs on (R68). -/
def Context.freeze (x : Context) (now : Nat) : Context :=
  { x with wdtLeft := (x.wdtDue.map (· - now)).or x.wdtLeft, wdtDue := none }
def Context.thaw (x : Context) (now : Nat) : Context :=
  { x with wdtDue := (x.wdtLeft.map (· + now)).or x.wdtDue, wdtLeft := none }

/-- The ENTRY address of a context: WSC[n].ENTRY[k], or the one its image gave the metrology sequencer or the pair. -/
def State.entryOf (s : State) (k : Nat) : Word :=
  if k < 32 then s.rd (Reg.WSC_ENTRY (k / 4) (k % 4)) else Tab.get (fun _ => 0x60000000) s.weft.entry k

/-- The context runs from its ENTRY. -/
def State.startCtx (s : State) (k : Nat) : State :=
  s.setCtx k (({ s.ctx k with pc := s.entryOf k, run := .running, dead := false, wait := none, stall := .none } :
    Context).thaw s.now)

/-- RESTART (R67, R53): the cleared state, and the context runs from ENTRY; a restart recovers the double trap. That the
watchdog reloads at a restart is the model's choice (log entry 134): R68 names writes to WDT_KICK alone. -/
def State.restartCtx (s : State) (k : Nat) : State :=
  let x := s.ctx k
  let s := s.setCtx k { x with w := [], acc := 0, status := 0, evtPend := 0, evtMeet := [], cmp := none, latch := [],
                               restarting := false }
  let s := (s.startCtx k).wdtKick k
  s.recoversCell 0x20 0x01 (engOf k)

/-- The context has a fabric access outstanding or waiting, an error response on its way among them. -/
def State.hasAccess (s : State) (k : Nat) : Bool :=
  s.fabric.out.any (fun x => x.ctx = k) || s.fabric.waiting.any (fun x => x.ctx = k)

/-- A halt that is asked takes effect once the issued instruction and the outstanding accesses are complete (R81). -/
def State.haltIfDone (s : State) (k : Nat) : State :=
  let x := s.ctx k
  if s.haltAsked k && x.run = .running && !s.hasAccess k && x.stall = .none then
    s.setCtx k (({ x with run := .halted } : Context).freeze s.now)
  else s

/-! Mailboxes and events (R69 to R74) -/

/-- The words held by mailbox m. -/
def State.mbox (s : State) (m : Nat) : List Word := Tab.get (fun _ => []) s.weft.mbx m

def State.setMbox (s : State) (m : Nat) (l : List Word) : State :=
  (s.setWeft { s.weft with mbx := Tab.set (fun _ => []) s.weft.mbx m l }).setFld
    (Reg.MBX_CFG m) F.MBX_CFG_COUNT l.length

/-- The key of the context that owns mailbox m (R72, R73). -/
def State.mboxOwner (s : State) (m : Nat) : Nat :=
  4 * s.fld (Reg.MBX_CFG m) F.MBX_CFG_SEQ + s.fld (Reg.MBX_CFG m) F.MBX_CFG_CTX

/-- The contexts that send to and receive from the safety mailbox: APP_OWN and OUT_OWN of the safety configuration,
sequencer [6:4] and context [1:0] (R422, R435). -/
def State.appOwn (s : State) : Nat :=
  let b := (Tab.get memReset s.mem (pairDtcm + 6)).toNat
  b / 16 % 8 * 4 + b % 4
def State.outOwn (s : State) : Nat :=
  let b := (Tab.get memReset s.mem (pairDtcm + 7)).toNat
  b / 16 % 8 * 4 + b % 4

/-- MAIL is level-sensitive: some mailbox that the context owns holds a word (R69, R70); on the pair, the inbound FIFO
holds a USER word (R421). -/
def State.mail (s : State) (k : Nat) : Bool :=
  if k < 32 then
    (List.range 64).any (fun m => s.mboxOwner m = k && !(s.mbox m).isEmpty) ||
      (s.outOwn = k && !s.selv.outbox.isEmpty)
  else if 36 ≤ k then !s.selv.user.isEmpty
  else false

/-- EVT_PEND as read: MAIL by its level. -/
def State.evtPending (s : State) (k : Nat) : Nat := withBit (s.ctx k).evtPend.toNat 1 (s.mail k)

/-- The cycle counter of an engine (R52, R53). -/
def State.cycles (s : State) (e : Nat) : Nat :=
  (s.now - Tab.get (fun _ => 0) s.weft.cyc0 e) / engTicks e

/-- The lowest bit set in both masks. -/
def lowestIn (pend mask : Nat) : Option Nat := (List.range 32).find? (fun n => bitOf pend n && bitOf mask n)

/-- The WAIT of the context ends with event n: it is consumed and its number is written (R51); where the event has occurred
again in the same cycle of the engine, it stays pending, and that occurrence is not lost (R70). -/
def State.endWait (s : State) (k d n : Nat) : State :=
  let x := s.ctx k
  let x := match x.evtMeet.find? (fun e => e.1 = n && e.2.1 = s.cycles (engOf k)) with
    | some e => { x with evtOvf := BitVec.ofNat 32 (withBit x.evtOvf.toNat n e.2.2),
                         evtMeet := x.evtMeet.filter (fun y => y.1 ≠ n) }
    | none => { x with evtPend := BitVec.ofNat 32 (withBit x.evtPend.toNat n false) }
  s.setCtx k (({ x with wait := none } : Context).put d (BitVec.ofNat 32 n)).advance

/-- A running context in WAIT that has a masked event pending wakes (R51). -/
def State.wake (s : State) (k : Nat) : State :=
  let x := s.ctx k
  match x.wait with
  | some ws =>
    if x.run = .running then
      match lowestIn (s.evtPending k) ws.mask.toNat with
      | some n => s.endWait k ws.dest n
      | none => s
    else s
  | none => s

/-- Event n occurs in the context (R70): pending, or lost in EVT_OVF where it already is. -/
def State.occurs (s : State) (k n : Nat) : State :=
  let x := s.ctx k
  if bitOf x.evtPend.toNat n then
    let c := s.cycles (engOf k)
    let old := x.evtMeet.filter (fun e => e.2.1 = c)
    let met := if old.any (fun e => e.1 = n) then old else (n, c, bitOf x.evtOvf.toNat n) :: old
    s.setCtx k { x with evtOvf := BitVec.ofNat 32 (withBit x.evtOvf.toNat n true), evtMeet := met }
  else (s.setCtx k { x with evtPend := BitVec.ofNat 32 (withBit x.evtPend.toNat n true) }).wake k

/-! Fabric requests of a context (R13, R18 to R20) -/

/-- The priority class of a request: FAB_PRIO of its slot, or 3 once promoted (R19, R20). -/
def State.xactClass (s : State) (x : Xact) : Nat :=
  if x.promoted then 3
  else if x.slot < 16 then (s.rd Reg.FAB_PRIO0).toNat / 4 ^ x.slot % 4
  else (s.rd Reg.FAB_PRIO1).toNat / 4 ^ (x.slot - 16) % 4

/-- `x` is granted before `y`: the higher class, then the longer wait in
CK_SYS cycles, then the lower slot (R19). -/
def State.beats (s : State) (x y : Xact) : Bool :=
  s.xactClass y < s.xactClass x ||
    (s.xactClass x = s.xactClass y && (x.since / ticksSys < y.since / ticksSys ||
      (x.since / ticksSys = y.since / ticksSys && x.slot < y.slot)))

/-- The request that is granted next, if any can issue. -/
def State.pick (s : State) : Option Xact :=
  (s.fabric.waiting.filter (fun x => s.canIssue x)).foldl
    (fun b x => match b with | some y => if s.beats x y then some x else b | none => some x) none

/-- A fabric access of the context is over, and the context goes on as `x`; one that was told to restart meanwhile restarts
(R46, R67). -/
def State.accessDone (s : State) (k : Nat) (x : Context) : State :=
  let s := s.setCtx k { x with stall := .none }
  ((if x.restarting then s.restartCtx k else s).boundary k).haltIfDone k

/-- A granted store is posted: its context goes on (R46). -/
def State.posted (s : State) (x : Xact) : State :=
  match x.kind with
  | .store _ _ => if x.ctx < 40 then s.accessDone x.ctx (s.ctx x.ctx).advance else s
  | _ => s

/-- One grant (R19). -/
def State.grantOne (s : State) : State :=
  match s.pick with
  | some x =>
    (s.setFabric { s.fabric with out := s.fabric.out ++ [{ x with since := s.now }],
                                 waiting := s.fabric.waiting.erase x }).posted x
  | none => s

/-- Grants as far as credits and limits allow. -/
def State.grants (s : State) : State :=
  (List.range s.fabric.waiting.length).foldl (fun s _ => s.grantOne) s

/-- A fabric access of context k: it issues, or waits for a credit, which is no error (R13). A load or an atomic stalls
the context until its response; a store that issues is posted (R46). -/
def State.access (s : State) (k : Nat) (addr : Word) (kind : XKind) : State :=
  let x : Xact := { slot := engSlot (engOf k), ctx := k, addr := addr, kind := kind, since := s.now,
                    promoted := false, failed := false }
  let s := s.setCtx k { s.ctx k with stall := .fabric }
  if s.canIssue x then (s.setFabric { s.fabric with out := s.fabric.out ++ [x] }).posted x
  else s.setFabric { s.fabric with waiting := s.fabric.waiting ++ [x] }

end Sys2Proof.Machine
end

