-- ==== Sys2Proof/Machine/WeftWord.lean ====
section
/-!
DEFINITION. Machine/WeftWord.lean: which Weft words trap with cause ILLEGAL whatever the state: an unlisted opcode or func, a
field that is not 0 where it must be, a reserved mb or tb (R40 to R43, R52), and the forms Weft-S excludes (R63).
-/
namespace Sys2Proof.Machine

/-- Bits [hi:lo] of a word. -/
def wbits (w : Word) (hi lo : Nat) : Nat := w.toNat / 2 ^ lo % 2 ^ (hi + 1 - lo)

/-- A mailbox number that an engine may name (R43, R63). -/
def mbLegal (e mb : Nat) : Bool := mb = 0x80 || (mb < 0x40 && e ≠ 9)

/-- A time base that an engine may name (R52, R53, R63). -/
def tbLegal (e tb : Nat) : Bool := tb = 4 || (tb < 4 && e ≠ 9)

/-- A word of format R. -/
def legalR (op func k b : Nat) : Bool :=
  if op = 0x04 then
    if 0x08 ≤ func ∧ func ≤ 0x0A then b = 0 else func ≤ 0x10 && k = 0
  else if func = 0x05 ∨ func = 0x06 then b = 0
  else if func = 0x03 ∨ func = 0x04 then b = 0 && k = 0
  else func ≤ 0x07 && k = 0

/-- A word of format M. -/
def legalM (func rn s b d a : Nat) : Bool :=
  if func ≤ 1 then s = 0 && rn = 0
  else if func = 2 then true
  else if func ≤ 5 then d = 0
  else if func = 6 then a = 0 && b = 0
  else if func = 7 then d = 0 && s = 0 && rn = 0
  else func ≤ 9 && a = 0 && b = 0 && s = 0 && rn = 0

/-- A word of format F. -/
def legalF (func n p : Nat) : Bool := if func ≤ 3 then n + p ≤ 31 else func ≤ 7 && n = 0 && p = 0

/-- TCMP: func [2:0] tb, func [5] DIS, func [4:3] and d and k 0 (R42, R52). -/
def legalTcmp (e func k b d a : Nat) : Bool :=
  d = 0 && k = 0 && func / 8 % 4 = 0 &&
    (if func / 32 = 1 then a = 0 && b = 0 && func % 8 = 0 else tbLegal e (func % 8))

/-- The word is an instruction of engine e: a word that is none traps with cause ILLEGAL (R41). -/
def legalWord (e : Nat) (w : Word) : Bool :=
  let op := wbits w 31 26
  let func := wbits w 25 20
  let k := wbits w 19 15
  let b := wbits w 14 10
  let d := wbits w 9 5
  let a := wbits w 4 0
  let imm := wbits w 25 10
  if op = 0x04 ∨ op = 0x05 then legalR op func k b
  else if op = 0x06 then legalM (wbits w 25 21) (wbits w 20 20) k b d a
  else if op = 0x07 then legalF func k b
  else if 0x10 ≤ op ∧ op ≤ 0x14 then true
  else if op = 0x15 then a = 0
  else if 0x18 ≤ op ∧ op ≤ 0x25 then true
  else if op = 0x26 then d = 0 && a = 0
  else if op = 0x27 then a = 0
  else if op = 0x28 then true
  else if op = 0x2C then func = 0 && k = 0
  else if op = 0x2D then legalTcmp e func k b d a
  else if op = 0x2E then a = 0 && b = 0 && k = 0 && func / 8 % 2 = 0 && tbLegal e (func % 8)
  else if op = 0x30 ∨ op = 0x31 then mbLegal e imm
  else if op = 0x32 ∨ op = 0x33 then func = 0 && k = 0 && e ≠ 9
  else if op = 0x34 then imm < 0x4000 && (imm / 0x1000 ≠ 0 || a = 0)
  else if op = 0x35 then imm < 0x1000 && e ≠ 9
  else if op = 0x38 ∨ op = 0x3B then imm = 0 && d = 0 && a = 0
  else if op = 0x39 then d = 0 && a = 0
  else if op = 0x3A then imm = 0 && d = 0 && a = 0 && e ≠ 9
  else false

end Sys2Proof.Machine
end

