-- ==== Sys2Proof/Decode.lean ====
section
/-!
DEFINITION. Decode.lean: the command that a word spells by the bits of the operation table, which gives its rows none; and the
Weft and Twill words by the formats of the spec (R40 to R42, R116 to R118): the command that a fetched word is, and the word of
a command.
-/
namespace Sys2Proof
open Machine

/-- The table of operations gives none of its rows any bits: no word spells a command. -/
def decodeTableWord (_nbits _w : Nat) : Option Instr := none

/-! Weft (R40 to R43) -/

/-- A field of five bits, and an immediate. -/
def field5 (w : Word) (lo : Nat) : Fin 32 := Fin.ofNat 32 (w.toNat / 2 ^ lo)
def immOf (w : Word) : BitVec 16 := BitVec.ofNat 16 (w.toNat / 2 ^ 10)

/-- Opcode 0x04: arithmetic and logic. -/
def decodeAlu (c : CtxId) (func : Nat) (d a b k : Fin 32) : Option Instr :=
  match func with
  | 0x0 => some (.add c d a b)
  | 0x1 => some (.sub c d a b)
  | 0x2 => some (.and c d a b)
  | 0x3 => some (.or c d a b)
  | 0x4 => some (.xor c d a b)
  | 0x5 => some (.sll c d a b)
  | 0x6 => some (.srl c d a b)
  | 0x7 => some (.sra c d a b)
  | 0x8 => some (.slli c d a k)
  | 0x9 => some (.srli c d a k)
  | 0xa => some (.srai c d a k)
  | 0xb => some (.slt c d a b)
  | 0xc => some (.sltu c d a b)
  | 0xd => some (.min c d a b)
  | 0xe => some (.max c d a b)
  | 0xf => some (.div c d a b)
  | 0x10 => some (.divu c d a b)
  | _ => none

/-- Opcode 0x05: saturating. -/
def decodeSat (c : CtxId) (func : Nat) (d a b k : Fin 32) : Option Instr :=
  match func with
  | 0 => some (.adds c d a b)
  | 1 => some (.subs c d a b)
  | 2 => some (.addus c d a b)
  | 3 => some (.negs c d a)
  | 4 => some (.abss c d a)
  | 5 => some (.sats c d a k)
  | 6 => some (.satu c d a k)
  | 7 => some (.shls c d a b)
  | _ => none

/-- Opcode 0x06: multiply and accumulate. -/
def decodeMul (c : CtxId) (func : Nat) (rn : Bool) (d a b sh : Fin 32) : Option Instr :=
  match func with
  | 0 => some (.mul c d a b)
  | 1 => some (.mulh c d a b)
  | 2 => some (.fmul c d a b sh rn)
  | 3 => some (.mac c a b sh rn)
  | 4 => some (.msu c a b sh rn)
  | 5 => some (.macz c a b sh rn)
  | 6 => some (.rdacc c d sh rn)
  | 7 => some (.mtacc c a b)
  | 8 => some (.mfacch c d)
  | 9 => some (.mfaccl c d)
  | _ => none

/-- Opcode 0x07: bit fields. -/
def decodeField (c : CtxId) (func : Nat) (d a p n : Fin 32) : Option Instr :=
  match func with
  | 0 => some (.bfx c d a p n)
  | 1 => some (.bfxu c d a p n)
  | 2 => some (.bfi c d a p n)
  | 3 => some (.bfc c d a p n)
  | 4 => some (.clz c d a)
  | 5 => some (.ctz c d a)
  | 6 => some (.popc c d a)
  | 7 => some (.rev c d a)
  | _ => none

/-- Opcode 0x34: the CSRs. -/
def decodeCsr (c : CtxId) (kind : Nat) (d a : Fin 32) (n : BitVec 12) : Option Instr :=
  match kind with
  | 0 => some (.csrr c d n)
  | 1 => some (.csrw c d a n)
  | 2 => some (.csrs c d a n)
  | 3 => some (.csrc c d a n)
  | _ => none

/-- The fields of a Weft word, by its opcode. -/
def weftFields (c : CtxId) (w : Word) : Option Instr :=
  let d := field5 w 5
  let a := field5 w 0
  let b := field5 w 10
  let k := field5 w 15
  let func := wbits w 25 20
  let imm := immOf w
  match wbits w 31 26 with
  | 0x04 => decodeAlu c func d a b k
  | 0x05 => decodeSat c func d a b k
  | 0x06 => decodeMul c (func / 2) (func % 2 = 1) d a b k
  | 0x07 => decodeField c func d a b k
  | 0x10 => some (.addi c d a imm)
  | 0x11 => some (.andi c d a imm)
  | 0x12 => some (.ori c d a imm)
  | 0x13 => some (.xori c d a imm)
  | 0x14 => some (.slti c d a imm)
  | 0x15 => some (.lhi c d imm)
  | 0x18 => some (.lw c d a imm)
  | 0x19 => some (.lh c d a imm)
  | 0x1a => some (.lhu c d a imm)
  | 0x1b => some (.lb c d a imm)
  | 0x1c => some (.lbu c d a imm)
  | 0x1d => some (.sw c d a imm)
  | 0x1e => some (.sh c d a imm)
  | 0x1f => some (.sb c d a imm)
  | 0x20 => some (.beq c a d imm)
  | 0x21 => some (.bne c a d imm)
  | 0x22 => some (.blt c a d imm)
  | 0x23 => some (.bge c a d imm)
  | 0x24 => some (.bltu c a d imm)
  | 0x25 => some (.bgeu c a d imm)
  | 0x26 => some (.j c imm)
  | 0x27 => some (.jal c d imm)
  | 0x28 => some (.jalr c d a imm)
  | 0x2C => some (.wait c d a b)
  | 0x2D => some (.tcmp c (func / 32 = 1) (Fin.ofNat 8 func) a b)
  | 0x2E => some (.trd c d (Fin.ofNat 8 func) (Fin.ofNat 4 (func / 16)))
  | 0x30 => some (.msend c d a (Fin.ofNat 256 imm.toNat))
  | 0x31 => some (.mrecv c d a (Fin.ofNat 256 imm.toNat))
  | 0x32 => some (.aadd c d a b)
  | 0x33 => some (.acas c d a b)
  | 0x34 => decodeCsr c (imm.toNat / 4096) d a (BitVec.ofNat 12 imm.toNat)
  | 0x35 => some (.scall c d a (BitVec.ofNat 12 imm.toNat))
  | 0x38 => some (.bar c)
  | 0x39 => some (.trap c imm)
  | 0x3A => some (.brk c)
  | 0x3B => some (.eret c)
  | _ => none

/-- The command that the word `w`, fetched by context c, is: its instruction, or the trap of a word that is none (R41). -/
def decodeWeft (c : CtxId) (w : Word) : Instr :=
  if legalWord c.eng.val w then (weftFields c w).getD (.illegalInstruction c w) else .illegalInstruction c w

/-- The word of a Weft instruction, and the context that the command names (R40, R42). -/
def weftWord (i : Instr) : Option (CtxId × Word) :=
  match i with
  | .add c d a b => some (c, wordR 0x04 0x0 0 b.val d.val a.val)
  | .sub c d a b => some (c, wordR 0x04 0x1 0 b.val d.val a.val)
  | .and c d a b => some (c, wordR 0x04 0x2 0 b.val d.val a.val)
  | .or c d a b => some (c, wordR 0x04 0x3 0 b.val d.val a.val)
  | .xor c d a b => some (c, wordR 0x04 0x4 0 b.val d.val a.val)
  | .sll c d a b => some (c, wordR 0x04 0x5 0 b.val d.val a.val)
  | .srl c d a b => some (c, wordR 0x04 0x6 0 b.val d.val a.val)
  | .sra c d a b => some (c, wordR 0x04 0x7 0 b.val d.val a.val)
  | .slli c d a k => some (c, wordR 0x04 0x8 k.val 0 d.val a.val)
  | .srli c d a k => some (c, wordR 0x04 0x9 k.val 0 d.val a.val)
  | .srai c d a k => some (c, wordR 0x04 0xa k.val 0 d.val a.val)
  | .slt c d a b => some (c, wordR 0x04 0xb 0 b.val d.val a.val)
  | .sltu c d a b => some (c, wordR 0x04 0xc 0 b.val d.val a.val)
  | .min c d a b => some (c, wordR 0x04 0xd 0 b.val d.val a.val)
  | .max c d a b => some (c, wordR 0x04 0xe 0 b.val d.val a.val)
  | .div c d a b => some (c, wordR 0x04 0xf 0 b.val d.val a.val)
  | .divu c d a b => some (c, wordR 0x04 0x10 0 b.val d.val a.val)
  | .adds c d a b => some (c, wordR 0x05 0x0 0 b.val d.val a.val)
  | .subs c d a b => some (c, wordR 0x05 0x1 0 b.val d.val a.val)
  | .addus c d a b => some (c, wordR 0x05 0x2 0 b.val d.val a.val)
  | .negs c d a => some (c, wordR 0x05 0x3 0 0 d.val a.val)
  | .abss c d a => some (c, wordR 0x05 0x4 0 0 d.val a.val)
  | .sats c d a k => some (c, wordR 0x05 0x5 k.val 0 d.val a.val)
  | .satu c d a k => some (c, wordR 0x05 0x6 k.val 0 d.val a.val)
  | .shls c d a b => some (c, wordR 0x05 0x7 0 b.val d.val a.val)
  | .mul c d a b => some (c, wordR 0x06 0 0 b.val d.val a.val)
  | .mulh c d a b => some (c, wordR 0x06 2 0 b.val d.val a.val)
  | .fmul c d a b sh rn => some (c, wordR 0x06 (2 * 2 + bit01 rn) sh.val b.val d.val a.val)
  | .mac c a b sh rn => some (c, wordR 0x06 (3 * 2 + bit01 rn) sh.val b.val 0 a.val)
  | .msu c a b sh rn => some (c, wordR 0x06 (4 * 2 + bit01 rn) sh.val b.val 0 a.val)
  | .macz c a b sh rn => some (c, wordR 0x06 (5 * 2 + bit01 rn) sh.val b.val 0 a.val)
  | .rdacc c d sh rn => some (c, wordR 0x06 (6 * 2 + bit01 rn) sh.val 0 d.val 0)
  | .mtacc c a b => some (c, wordR 0x06 14 0 b.val 0 a.val)
  | .mfacch c d => some (c, wordR 0x06 16 0 0 d.val 0)
  | .mfaccl c d => some (c, wordR 0x06 18 0 0 d.val 0)
  | .bfx c d a p n => some (c, wordR 0x07 0x0 n.val p.val d.val a.val)
  | .bfxu c d a p n => some (c, wordR 0x07 0x1 n.val p.val d.val a.val)
  | .bfi c d a p n => some (c, wordR 0x07 0x2 n.val p.val d.val a.val)
  | .bfc c d a p n => some (c, wordR 0x07 0x3 n.val p.val d.val a.val)
  | .clz c d a => some (c, wordR 0x07 0x4 0 0 d.val a.val)
  | .ctz c d a => some (c, wordR 0x07 0x5 0 0 d.val a.val)
  | .popc c d a => some (c, wordR 0x07 0x6 0 0 d.val a.val)
  | .rev c d a => some (c, wordR 0x07 0x7 0 0 d.val a.val)
  | .addi c d a imm => some (c, wordI 0x10 imm.toNat d.val a.val)
  | .andi c d a imm => some (c, wordI 0x11 imm.toNat d.val a.val)
  | .ori c d a imm => some (c, wordI 0x12 imm.toNat d.val a.val)
  | .xori c d a imm => some (c, wordI 0x13 imm.toNat d.val a.val)
  | .slti c d a imm => some (c, wordI 0x14 imm.toNat d.val a.val)
  | .lhi c d imm => some (c, wordI 0x15 imm.toNat d.val 0)
  | .lw c d a imm => some (c, wordI 0x18 imm.toNat d.val a.val)
  | .lh c d a imm => some (c, wordI 0x19 imm.toNat d.val a.val)
  | .lhu c d a imm => some (c, wordI 0x1a imm.toNat d.val a.val)
  | .lb c d a imm => some (c, wordI 0x1b imm.toNat d.val a.val)
  | .lbu c d a imm => some (c, wordI 0x1c imm.toNat d.val a.val)
  | .sw c d a imm => some (c, wordI 0x1d imm.toNat d.val a.val)
  | .sh c d a imm => some (c, wordI 0x1e imm.toNat d.val a.val)
  | .sb c d a imm => some (c, wordI 0x1f imm.toNat d.val a.val)
  | .beq c a b off => some (c, wordI 0x20 off.toNat b.val a.val)
  | .bne c a b off => some (c, wordI 0x21 off.toNat b.val a.val)
  | .blt c a b off => some (c, wordI 0x22 off.toNat b.val a.val)
  | .bge c a b off => some (c, wordI 0x23 off.toNat b.val a.val)
  | .bltu c a b off => some (c, wordI 0x24 off.toNat b.val a.val)
  | .bgeu c a b off => some (c, wordI 0x25 off.toNat b.val a.val)
  | .j c off => some (c, wordI 0x26 off.toNat 0 0)
  | .jal c d off => some (c, wordI 0x27 off.toNat d.val 0)
  | .jalr c d a imm => some (c, wordI 0x28 imm.toNat d.val a.val)
  | .wait c d a b => some (c, wordR 0x2C 0 0 b.val d.val a.val)
  | .tcmp c dis tb a b => some (c, wordR 0x2D (bit01 dis * 32 + tb.val) 0 b.val 0 a.val)
  | .trd c d tb part => some (c, wordR 0x2E (part.val * 16 + tb.val) 0 0 d.val 0)
  | .msend c d a mb => some (c, wordI 0x30 mb.val d.val a.val)
  | .mrecv c d e mb => some (c, wordI 0x31 mb.val d.val e.val)
  | .aadd c d a b => some (c, wordR 0x32 0 0 b.val d.val a.val)
  | .acas c d a b => some (c, wordR 0x33 0 0 b.val d.val a.val)
  | .csrr c d n => some (c, wordI 0x34 n.toNat d.val 0)
  | .csrw c d a n => some (c, wordI 0x34 (0x1000 + n.toNat) d.val a.val)
  | .csrs c d a n => some (c, wordI 0x34 (0x2000 + n.toNat) d.val a.val)
  | .csrc c d a n => some (c, wordI 0x34 (0x3000 + n.toNat) d.val a.val)
  | .scall c d a f => some (c, wordI 0x35 f.toNat d.val a.val)
  | .bar c => some (c, wordI 0x38 0 0 0)
  | .trap c imm => some (c, wordI 0x39 imm.toNat 0 0)
  | .brk c => some (c, wordI 0x3A 0 0 0)
  | .eret c => some (c, wordI 0x3B 0 0 0)
  | _ => none

/-! Twill (R116 to R118) -/

/-- The words of the formats of R116. -/
def wordA (op d s x k : Nat) : BitVec 64 := BitVec.ofNat 64 (op * 2 ^ 58 + d * 2 ^ 54 + s * 2 ^ 50 + x * 2 ^ 38 + k * 2 ^ 30)
def wordS (d b n tm x k : Nat) : BitVec 64 :=
  BitVec.ofNat 64 (0x18 * 2 ^ 58 + d * 2 ^ 54 + b * 2 ^ 50 + n * 2 ^ 47 + tm * 2 ^ 41 + x * 2 ^ 29 + k * 2 ^ 21)
def wordO (op s ch sel mask : Nat) : BitVec 64 :=
  BitVec.ofNat 64 (op * 2 ^ 58 + s * 2 ^ 50 + ch * 2 ^ 45 + sel * 2 ^ 43 + mask)
def wordJ (s t cond tgt : Nat) : BitVec 64 :=
  BitVec.ofNat 64 (0x28 * 2 ^ 58 + s * 2 ^ 50 + t * 2 ^ 46 + cond * 2 ^ 43 + tgt)

/-- A field of four bits. -/
def field4 (w : BitVec 64) (lo : Nat) : Fin 16 := Fin.ofNat 16 (w.toNat / 2 ^ lo)

/-- An instruction of format A. -/
def twillFormatA (e : Fin 4) (op : Nat) (d sa : Fin 16) (x : BitVec 12) (k : BitVec 8) (ta : Fin 16) : Option Instr :=
  match op with
  | 0x00 => some (.twNop e 0)
  | 0x01 => some (.twEnd e)
  | 0x02 => some (.lda e d x)
  | 0x03 => some (.sta e x sa)
  | 0x04 => some (.mulc e d x k)
  | 0x05 => some (.macc e d x k)
  | 0x06 => some (.msuc e d x k)
  | 0x07 => some (.mula e d sa k)
  | 0x08 => some (.maca e d sa k)
  | 0x09 => some (.msua e d sa k)
  | 0x0A => some (.adda e d sa ta)
  | 0x0B => some (.suba e d sa ta)
  | 0x0C => some (.mova e d sa)
  | 0x0D => some (.nega e d sa)
  | 0x0E => some (.absa e d sa)
  | 0x0F => some (.mina e d sa ta)
  | 0x10 => some (.maxa e d sa ta)
  | 0x11 => some (.clmp e d sa ta)
  | 0x12 => some (.sha e d sa k)
  | 0x13 => some (.diva e d sa x)
  | 0x1C => some (.ffl e d x k)
  | 0x1D => some (.ffa e d x k)
  | 0x20 => some (.ramp e d k)
  | 0x2C => some (.waitin e x)
  | _ => none

/-- The fields of a Twill word, by its opcode. -/
def twillFields (e : Fin 4) (w : BitVec 64) : Option Instr :=
  let n := w.toNat
  match tbits w 63 58 with
  | 0x18 => some (.minsel e (field4 w 54) (field4 w 50) (Fin.ofNat 8 (n / 2 ^ 47)) (BitVec.ofNat 6 (n / 2 ^ 41))
      (BitVec.ofNat 12 (n / 2 ^ 29)) (BitVec.ofNat 8 (n / 2 ^ 21)))
  | 0x24 => some (.twOut e (field4 w 50) (Fin.ofNat 32 (n / 2 ^ 45)) (Fin.ofNat 4 (n / 2 ^ 43)))
  | 0x25 => some (.twArm e (BitVec.ofNat 24 n))
  | 0x26 => some (.evt e (BitVec.ofNat 24 n))
  | 0x28 => some (.br e (Fin.ofNat 8 (n / 2 ^ 43)) (field4 w 50) (field4 w 46) (Fin.ofNat 512 n))
  | op => twillFormatA e op (field4 w 54) (field4 w 50) (BitVec.ofNat 12 (n / 2 ^ 38)) (BitVec.ofNat 8 (n / 2 ^ 30))
      (field4 w 30)

/-- The command that the word `w`, issued by engine e, is: its instruction, or the command that carries an illegal word
(R117). -/
def decodeTwill (e : Fin 4) (w : BitVec 64) : Instr :=
  if twLegal w then (twillFields e w).getD (.twNop e w) else .twNop e w

/-- The word of a Twill instruction, and the engine that the command names (R116, R118). -/
def twillWord (i : Instr) : Option (Fin 4 × BitVec 64) :=
  match i with
  | .twNop e w => some (e, w)
  | .twEnd e => some (e, wordA 0x01 0 0 0 0)
  | .lda e d x => some (e, wordA 0x02 d.val 0 x.toNat 0)
  | .sta e x sa => some (e, wordA 0x03 0 sa.val x.toNat 0)
  | .mulc e d x k => some (e, wordA 0x4 d.val 0 x.toNat k.toNat)
  | .macc e d x k => some (e, wordA 0x5 d.val 0 x.toNat k.toNat)
  | .msuc e d x k => some (e, wordA 0x6 d.val 0 x.toNat k.toNat)
  | .mula e d sa k => some (e, wordA 0x7 d.val sa.val 0 k.toNat)
  | .maca e d sa k => some (e, wordA 0x8 d.val sa.val 0 k.toNat)
  | .msua e d sa k => some (e, wordA 0x9 d.val sa.val 0 k.toNat)
  | .adda e d sa ta => some (e, wordA 0xa d.val sa.val 0 ta.val)
  | .suba e d sa ta => some (e, wordA 0xb d.val sa.val 0 ta.val)
  | .mina e d sa ta => some (e, wordA 0xf d.val sa.val 0 ta.val)
  | .maxa e d sa ta => some (e, wordA 0x10 d.val sa.val 0 ta.val)
  | .clmp e d sa ta => some (e, wordA 0x11 d.val sa.val 0 ta.val)
  | .mova e d sa => some (e, wordA 0xc d.val sa.val 0 0)
  | .nega e d sa => some (e, wordA 0xd d.val sa.val 0 0)
  | .absa e d sa => some (e, wordA 0xe d.val sa.val 0 0)
  | .sha e d sa k => some (e, wordA 0x12 d.val sa.val 0 k.toNat)
  | .diva e d sa x => some (e, wordA 0x13 d.val sa.val x.toNat 0)
  | .minsel e d b n tm x k => some (e, wordS d.val b.val n.val tm.toNat x.toNat k.toNat)
  | .ffl e d x k => some (e, wordA 0x1C d.val 0 x.toNat k.toNat)
  | .ffa e d x k => some (e, wordA 0x1D d.val 0 x.toNat k.toNat)
  | .ramp e d k => some (e, wordA 0x20 d.val 0 0 k.toNat)
  | .twOut e sa ch sel => some (e, wordO 0x24 sa.val ch.val sel.val 0)
  | .twArm e mask => some (e, wordO 0x25 0 0 0 mask.toNat)
  | .evt e mask => some (e, wordO 0x26 0 0 0 mask.toNat)
  | .br e cond sa ta tgt => some (e, wordJ sa.val ta.val cond.val tgt.val)
  | .waitin e x => some (e, wordA 0x2C 0 0 x.toNat 0)
  | _ => none

end Sys2Proof
end

