-- ==== Sys2Proof/Machine/BrineOps.lean ====
section
/-!
DEFINITION. Machine/BrineOps.lean: the reference, the voltage loop, the phases and the latches of Brine (R462 to R475).
What happens inside one switching period follows what its phases sense: `brSense` drives their gates.
-/
namespace Sys2Proof.Machine

def State.brOn (s : State) : Bool := s.flag Reg.BR_CTRL F.BR_CTRL_EN
def State.brFlag (s : State) (f : Fld) : Bool := s.flag Reg.BR_STATUS f
def State.brLatched (s : State) : Bool := s.brFlag F.BR_STATUS_UV_LATCH || s.brFlag F.BR_STATUS_OV_LATCH
def State.brActive (s : State) : Nat := s.fld Reg.BR_STATUS F.BR_STATUS_ACTIVE
/-- The active phases in index order, and their number (R464). -/
def State.brPhases (s : State) : List Nat := (List.range 4).filter (fun p => bitOf s.brActive p)
/-- The phases that PH_EN enables and that no switch fault stopped. -/
def State.brEnabled (s : State) : Nat :=
  (List.range 4).foldl (fun m p =>
    if bitOf (s.fld Reg.BR_CTRL F.BR_CTRL_PH_EN) p && !bitOf s.brine.stopped p then m + 2 ^ p else m) 0

/-- A change of the set of active phases raises line 4 (R480). -/
def State.brSetActive (s : State) (m : Nat) : State :=
  if s.brActive = m then s else (s.setFld Reg.BR_STATUS F.BR_STATUS_ACTIVE m).line 0x1B 0x04

/-- FSW in kHz, VSET in mV and SLEW in mV/ms as they act (R481). -/
def State.brFsw (s : State) : Nat := clampNat 100 600 (s.fld Reg.BR_FSW F.BR_FSW_FSW_KHZ)
def State.brVset (s : State) : Nat := clampNat 5000 28000 (s.fld Reg.BR_VSET F.BR_VSET_VSET_MV)
def State.brSlew (s : State) : Nat := orDefault (s.fld Reg.BR_VSET F.BR_VSET_SLEW) 1
def State.brVout (s : State) : Nat := s.fld Reg.BR_VOUT F.BR_VOUT_VOUT
def State.brMode (s : State) : Nat := s.fld Reg.BR_CTRL F.BR_CTRL_TRK_MODE

/-- Start of phase p within the period, in 10^-3 of it: k × period ÷ n_act for the k-th active phase (R464). -/
def State.brSlot (s : State) (p : Nat) : Option Nat :=
  (s.brPhases.findIdx? (· = p)).map (fun k => k * 1000 / s.brPhases.length)

/-- PG follows SLEWING and VOUT (R481): its edges raise lines 0 and 1. -/
def State.brPgSync (s : State) : State :=
  let v := s.brVset
  let pg := s.brOn && !s.brLatched && !s.brFlag F.BR_STATUS_SLEWING &&
    ((s.brVout : Int) - v).natAbs * 100 ≤ s.fld Reg.BR_PROT F.BR_PROT_PG_PCT * v
  let was := s.brFlag F.BR_STATUS_PG
  let s := s.setFlag Reg.BR_STATUS F.BR_STATUS_PG pg
  if pg = was then s else s.line 0x1B (if pg then 0x00 else 0x01)

/-- Every gate turns off (R467, R475). -/
def State.brGatesOff (s : State) : State :=
  let s := (s.setFlag Reg.BR_STATUS F.BR_STATUS_BRAKING false).brSetActive 0
  (s.setBrine { s.brine with ipk := 0, fade := none, grow := none, lowAt := none, uvAt := none, ovAt := none }).brPgSync

/-- SHED_HI is too low for a phase count at which a shed can occur (R473). -/
def State.brShedBad (s : State) : Bool :=
  let m := s.fld Reg.BR_SHED F.BR_SHED_MIN_PH
  s.flag Reg.BR_CTRL F.BR_CTRL_SHED_EN &&
    s.fld Reg.BR_SHED F.BR_SHED_SHED_HI * (m + 1) ≤ s.fld Reg.BR_SHED F.BR_SHED_SHED_LO * (m + 2)

/-- CFG_ERR for a tracking mode that acts as none, and for shedding thresholds that chatter (R470, R473). -/
def State.brCfgCheck (s : State) : State :=
  if s.brMode = 3 ∨ s.brShedBad then s.setFlag Reg.BR_STATUS F.BR_STATUS_CFG_ERR true else s

/-- PH_EN moves under way (R464, R481): a phase whose bit is clear no longer switches, one whose bit rose is active. -/
def State.brPhaseEnable (s : State) (was : Nat) : State :=
  if s.brLatched then s
  else
    let en := s.brEnabled
    let m := (List.range 4).foldl (fun m p =>
      if bitOf en p && (bitOf s.brActive p || !bitOf was p) then m + 2 ^ p else m) 0
    let keep := fun (x : Option (Nat × Nat)) => x.filter (fun e => bitOf en e.1)
    (s.setBrine { s.brine with fade := keep s.brine.fade, grow := keep s.brine.grow }).brSetActive m

/-- A write of BR_CTRL (R467, R468, R475, R479): EN rises and the ramp starts at the measured VOUT, the latches clear; EN
falls and every gate turns off; a stopped phase whose PH_EN bit rises runs again. -/
def State.brCtrlWrite (s : State) (v : Word) : State :=
  let was := s.brOn
  let ph := s.fld Reg.BR_CTRL F.BR_CTRL_PH_EN
  let s := s.wr Reg.BR_CTRL v
  let back := (List.range 4).filter (fun p =>
    bitOf s.brine.stopped p && !bitOf ph p && bitOf (s.fld Reg.BR_CTRL F.BR_CTRL_PH_EN) p)
  let s := back.foldl (fun (s : State) p =>
    s.setBrine { s.brine with stopped := withBit s.brine.stopped p false,
                              runAt := Tab.set (fun _ => none) s.brine.runAt p (some s.now) }) s
  let s := s.brCfgCheck
  if s.brOn ∧ !was then
    let s := (s.setFlag Reg.BR_STATUS F.BR_STATUS_UV_LATCH false).setFlag Reg.BR_STATUS F.BR_STATUS_OV_LATCH false
    let s := s.setBrine { s.brine with rref := s.brVout * 1000000000, ref := s.brVout, integ := 0, ipk := 0,
                                       limited := false, diode := true, periods := 0, holdTo := 0 }
    (s.setFlag Reg.BR_STATUS F.BR_STATUS_SLEWING (s.brVout ≠ s.brVset)).brSetActive s.brEnabled
  else if was ∧ !s.brOn then
    let s := (s.setBrine { s.brine with rref := 0, ref := 0 }).setFlag Reg.BR_STATUS F.BR_STATUS_SLEWING false
    (s.setFld Reg.BR_VOUT F.BR_VOUT_REF 0).brGatesOff
  else if s.brOn then s.brPhaseEnable ph
  else s

/-- RREF after one period (R468): SLEW × period toward VSET, never past it. -/
def State.brRamp (s : State) : Nat :=
  let step := s.brSlew * 1000000000 / s.brFsw
  let goal := s.brVset * 1000000000
  let r := s.brine.rref
  if r < goal then min goal (r + step) else max goal (r - step)

/-- REF in mV (R470): RREF, or the lower of RREF and what TRK (in mV) asks for. -/
def State.brRef (s : State) (trk : Nat) : Nat :=
  let r := s.brine.rref / 1000000000
  let fs := orDefault (s.fld Reg.BR_TRK F.BR_TRK_TRK_FS) 1
  if s.brMode = 1 then min r (16 * trk)
  else if s.brMode = 2 then min r (s.brVset * trk / fs)
  else r

/-- The per-phase limit in 0.25 A (R466). -/
def State.brLim (s : State) : Nat :=
  let ilim := s.fld Reg.BR_CUR F.BR_CUR_ILIM
  let fold := min 100 (s.fld Reg.BR_CUR F.BR_CUR_FOLD_MIN)
  let ref := s.brine.ref
  if ref < 2500 then ilim * fold / 100 else ilim * max fold (min 100 (100 * s.brVout / ref)) / 100

/-- The voltage loop of a period (R463). -/
def State.brLoop (s : State) : State :=
  let b := s.brine
  let e : Int := (b.ref : Int) - s.brVout
  let frozen := s.brFlag F.BR_STATUS_BRAKING || b.limited
  let integ := if frozen then b.integ else b.integ + s.fld Reg.BR_LOOP F.BR_LOOP_KI * e
  let lim : Int := s.brLim * 16384000
  let want := s.fld Reg.BR_LOOP F.BR_LOOP_KP * 256 * e + integ
  s.setBrine { b with integ := integ, ipk := clampInt 0 lim want, limited := lim ≤ want }

/-! Gates (R463, R466, R468, R471, R472) -/

def State.brGate (s : State) (p : Nat) : BrGate := Tab.get (fun _ => BrGate.reset) s.brine.gate p
def State.setBrGate (s : State) (p : Nat) (g : BrGate) : State :=
  s.setBrine { s.brine with gate := Tab.set (fun _ => BrGate.reset) s.brine.gate p g }

/-- Phase p switches: Brine is on, nothing latched or braking, and the phase is active. -/
def State.brSwitches (s : State) (p : Nat) : Bool :=
  s.domUp 5 && s.brOn && !s.brLatched && !s.brFlag F.BR_STATUS_BRAKING && bitOf s.brActive p

/-- The levels of BR_HG[p] and BR_LG[p] (R463, R472, R476). -/
def State.brDrive (s : State) (p : Nat) : Bool × Bool :=
  if s.brSwitches p then ((s.brGate p).high, (s.brGate p).low) else (false, false)

/-- The peak-current command of phase p in 1/65,536,000 A: a phase that fades follows its share of ipk (R463, R473). -/
def State.brIpk (s : State) (p : Nat) : Int :=
  match s.brine.fade, s.brine.grow with
  | some (q, n), g => if q = p then s.brine.ipk * n / 16
      else if g.map (·.1) = some p then s.brine.ipk * (16 - (g.map (·.2)).getD 0) / 16 else s.brine.ipk
  | none, some (q, n) => if q = p then s.brine.ipk * (16 - n) / 16 else s.brine.ipk
  | none, none => s.brine.ipk

/-- The sensed current of phase p reaches ipk × (1000 + TRIM) ÷ 1000 less the slope ramp (R463). -/
def State.brReached (s : State) (p t : Nat) (i : Int) : Bool :=
  s.brIpk p * (1000 + signed 8 (s.fld (Reg.BR_PH p) F.BR_PH_TRIM)) ≤
    i * 655360000 + (s.fld Reg.BR_CUR F.BR_CUR_SLOPE * t * 65536 : Nat)

/-- The sense voltage exceeds ±100 mV (R466): i in 10 mA, RS in 10 µΩ. -/
def State.brSenseOver (s : State) (i : Int) : Bool :=
  1000000 < i.natAbs * orDefault (s.fld Reg.BR_TRK F.BR_TRK_RS) 1

/-- The low-side gate turns off (R468, R471): at zero current with SINK = 0 or before REF first exceeds VOUT, else at
−lim ÷ 4. -/
def State.brLowEnds (s : State) (i : Int) : Bool :=
  if s.brine.diode || !s.flag Reg.BR_CTRL F.BR_CTRL_SINK then i ≤ 0 else i * 100 ≤ -(s.brLim * 625 : Nat)

/-- What a phase senses drives its gates (R463, R466, R468, R471): the high side from the slot until the current reaches its
command, at least 60 ns and at most 90 % of the period; then the low side, once BR_SW has fallen below mid-supply and 10 ns
are over; a sense voltage above ±100 mV turns both off for the rest of the period. -/
def State.brSense (s : State) (x : BrSense) : State :=
  let p := x.p.val
  let t := x.t.toNat
  let i := signed 16 x.i.toNat
  let g := s.brGate p
  let fresh := decide (t < g.seen) || t = 0
  let g := if fresh then { g with due := true, done := false, low := false,
                                  off := if g.low then (t : Int) else g.off - (1000000 / s.brFsw : Nat) } else g
  let g := { g with seen := t }
  if !s.brSwitches p then s.setBrGate p { g with high := false, low := false, due := false, done := true }
  else if s.brSenseOver i then s.setBrGate p { g with high := false, low := false, due := false, done := true, off := t }
  else if g.high then
    if (60 ≤ t && s.brReached p t i) || 900000 ≤ t * s.brFsw then
      s.setBrGate p { g with high := false, due := false, off := t }
    else s.setBrGate p g
  else if g.due then
    if g.off + 10 ≤ t then s.setBrGate p { g with high := true } else s.setBrGate p g
  else if g.done then s.setBrGate p g
  else if s.brLowEnds i then s.setBrGate p { g with low := false, done := true, off := t }
  else if g.low then s.setBrGate p g
  else s.setBrGate p { g with low := !x.sw && decide (g.off + 10 ≤ t) }

/-- Mean currents in 10 mA: the sum over the active phases. -/
def State.brSum (s : State) : Int :=
  (s.brPhases.map (fun p => signed 16 (s.fld (Reg.BR_PH p) F.BR_PH_I_MA))).foldl (· + ·) 0

/-- The fades of a period (R473). -/
def State.brFades (s : State) : State :=
  let s : State := match s.brine.fade with
    | some (p, n) =>
      if n ≤ 1 then (s.setBrine { s.brine with fade := none }).brSetActive (withBit s.brActive p false)
      else s.setBrine { s.brine with fade := some (p, n - 1) }
    | none => s
  match s.brine.grow with
  | some (p, n) => s.setBrine { s.brine with grow := if n ≤ 1 then none else some (p, n - 1) }
  | none => s

/-- Shedding and restoring in a period (R473): the time from which the current has been low, and the lowest shed phase back
where the mean exceeds SHED_HI. -/
def State.brShedSync (s : State) : State :=
  let n : Int := s.brPhases.length
  let low := decide (s.brSum < s.fld Reg.BR_SHED F.BR_SHED_SHED_LO * 25 * n)
  let s := s.setBrine { s.brine with lowAt := if low then some (s.brine.lowAt.getD s.now) else none }
  let shed := (List.range 4).find? (fun p => bitOf s.brEnabled p && !bitOf s.brActive p)
  match shed with
  | some p =>
    if s.brSum > s.fld Reg.BR_SHED F.BR_SHED_SHED_HI * 25 * n ∧ s.brine.grow.isNone ∧ s.brine.fade.isNone ∧
        !s.brFlag F.BR_STATUS_BRAKING then
      (s.setBrine { s.brine with grow := some (p, 16) }).brSetActive (withBit s.brActive p true)
    else s
  | none => s

/-- A load step (R474): the shed is aborted, every enabled phase returns, and shedding is held off. -/
def State.brStep (s : State) : State :=
  let hold := orDefault (s.fld Reg.BR_SHED F.BR_SHED_SHED_MS) 1 * ticksPerMs
  ((s.setBrine { s.brine with fade := none, grow := none, lowAt := none, holdTo := s.now + hold }).brSetActive
    s.brEnabled).line 0x1B 0x03

/-- Thresholds of R467 in units of 10^-2 mV. -/
def State.brUnder (s : State) : Bool :=
  2500 ≤ s.brine.ref && s.brVout * 100 < s.brine.ref * (100 - 10 * s.fld Reg.BR_PROT F.BR_PROT_UV_PCT)
def State.brOver (s : State) : Bool :=
  s.brine.ref * (100 + 10 * s.fld Reg.BR_PROT F.BR_PROT_OV_PCT) < s.brVout * 100

/-- Phases that have run 1 s since they were enabled again recover code 0x06 (R479). -/
def State.brRuns (s : State) : State :=
  (List.range 4).foldl (fun s p =>
    match Tab.get (fun _ => none) s.brine.runAt p with
    | some t =>
      if t + ticksPerS ≤ s.now then
        (s.setBrine { s.brine with runAt := Tab.set (fun _ => none) s.brine.runAt p none }).recoversCell 0x1B 0x06 (p + 1)
      else s
    | none => s) s

end Sys2Proof.Machine
end

