-- ==== Sys2Proof/Machine/BrineCommands.lean ====
section
/-!
DEFINITION. Machine/BrineCommands.lean: the commands of Brine (R463 to R479).
-/
namespace Sys2Proof.Machine

/-- The bits that BR_CTRL holds (R481). -/
def brCtrlMask : Word := 0x800F3700

/-- BRINE_ENABLE: BR_CTRL is written (R468, R475). -/
def execBrineEnable (data : Word) (s : State) : Host.Outcome State Fault Refusal :=
  .next (s.onBlk .brine (fun s => s.brCtrlWrite (data &&& brCtrlMask)))

/-- BRINE_PERIOD: a switching period with VOUT in mV, TRK in mV, the mean currents of the phases in 10 mA, 16 bits each, and
what the phases sense in it, in order (R463 to R474). -/
def execBrinePeriod (vout : BitVec 16) (trk : BitVec 12) (i : BitVec 64) (sense : List BrSense) (s : State) :
    Host.Outcome State Fault Refusal :=
  .next (s.onBlk .brine (fun s =>
    let s := s.setFld Reg.BR_VOUT F.BR_VOUT_VOUT vout.toNat
    let s := (List.range 4).foldl (fun s p =>
      s.setFld (Reg.BR_PH p) F.BR_PH_I_MA (if bitOf s.brActive p then i.toNat / 2 ^ (16 * p) % 2 ^ 16 else 0)) s
    if !s.brOn then s
    else
      let s := s.setBrine { s.brine with rref := s.brRamp }
      let ref := s.brRef trk.toNat
      let s := s.setBrine { s.brine with ref := ref, diode := s.brine.diode && ref ≤ s.brVout,
                                         periods := s.brine.periods + 1 }
      let s := (s.setFld Reg.BR_VOUT F.BR_VOUT_REF ref).setFlag Reg.BR_STATUS F.BR_STATUS_SLEWING
        (s.brine.rref ≠ s.brVset * 1000000000)
      let s := s.brPgSync
      if s.brLatched then s
      else
        let brk := s.fld Reg.BR_PROT F.BR_PROT_BRK_MV * 10
        let braking := if s.brFlag F.BR_STATUS_BRAKING then !(decide (s.brVout * 2 < ref * 2 + brk))
          else s.flag Reg.BR_CTRL F.BR_CTRL_BRK_EN && decide (ref + brk < s.brVout)
        let s := s.setFlag Reg.BR_STATUS F.BR_STATUS_BRAKING braking
        let s := s.setBrine { s.brine with uvAt := if s.brUnder then some (s.brine.uvAt.getD s.now) else none,
                                           ovAt := if s.brOver then some (s.brine.ovAt.getD s.now) else none }
        let s := s.brLoop
        let s := if s.brVout + s.fld Reg.BR_PROT F.BR_PROT_STEP_MV * 10 < ref then s.brStep else s.brFades.brShedSync
        (sense.foldl State.brSense s).brRuns))

/-- BRINE_VSET_WRITE: BR_VSET is written; its target and slew act from the next period (R469). -/
def execBrineVsetWrite (data : Word) (s : State) : Host.Outcome State Fault Refusal :=
  .next (s.onBlk .brine (fun s => s.wr Reg.BR_VSET (data &&& 0xFFFF7FFF)))

/-- The trim of one phase against the mean of the active phases (R465). -/
def State.brTrim (s : State) (n : Nat) (sum : Int) (p : Nat) : State :=
  let i := signed 16 (s.fld (Reg.BR_PH p) F.BR_PH_I_MA)
  let t := signed 8 (s.fld (Reg.BR_PH p) F.BR_PH_TRIM)
  let t' := clampInt (-100) 100 (if i * n < sum then t + 1 else if sum < i * n then t - 1 else t)
  let c := if t' = 100 ∨ t' = -100 then Tab.get (fun _ => 0) s.brine.atLim p + 1 else 0
  let s := (s.setFld (Reg.BR_PH p) F.BR_PH_TRIM (unsigned 8 t')).setBrine
    { s.brine with atLim := Tab.set (fun _ => 0) s.brine.atLim p (min 1025 c) }
  if c = 1024 then (s.setFlag (Reg.BR_PH p) F.BR_PH_AT_LIM true).note 0x1B (p + 1) 0x04 else s

/-- BRINE_TRIM_UPDATE: the update after 32 periods (R465). -/
def execBrineTrimUpdate (s : State) : Host.Outcome State Fault Refusal :=
  .next (s.onBlk .brine (fun s =>
    if s.brOn ∧ 32 ≤ s.brine.periods then
      let n := s.brPhases.length
      let sum := s.brSum
      s.brPhases.foldl (fun s p => s.brTrim n sum p) (s.setBrine { s.brine with periods := 0 })
    else s))

/-- A latch of R467 sets: every gate off, its NOTE and line 2. -/
def State.brLatch (s : State) (f : Fld) (code : Nat) : State :=
  (((s.setFlag Reg.BR_STATUS f true).brGatesOff).note 0x1B 0 code).line 0x1B 0x02

/-- BRINE_UV_LATCH: VOUT has been below its threshold for UV_MS ms (R467). -/
def execBrineUvLatch (s : State) : Host.Outcome State Fault Refusal :=
  .next (s.onBlk .brine (fun s =>
    match s.brine.uvAt with
    | some t =>
      let ms := orDefault (s.fld Reg.BR_PROT F.BR_PROT_UV_MS) 1
      if s.brOn ∧ !s.brLatched ∧ t + ms * ticksPerMs ≤ s.now then s.brLatch F.BR_STATUS_UV_LATCH 0x03 else s
    | none => s))

/-- BRINE_OV_LATCH: VOUT has been above its threshold for 20 µs (R467). -/
def execBrineOvLatch (s : State) : Host.Outcome State Fault Refusal :=
  .next (s.onBlk .brine (fun s =>
    match s.brine.ovAt with
    | some t =>
      if s.brOn ∧ !s.brLatched ∧ t + 20 * ticksPerUs ≤ s.now then s.brLatch F.BR_STATUS_OV_LATCH 0x05 else s
    | none => s))

/-- BRINE_PHASE_SHED: the mean current has stayed below SHED_LO for SHED_MS ms: the highest-numbered active phase begins to
fade (R473). -/
def execBrinePhaseShed (s : State) : Host.Outcome State Fault Refusal :=
  .next (s.onBlk .brine (fun s =>
    match s.brine.lowAt, s.brPhases.getLast? with
    | some t, some p =>
      let ms := orDefault (s.fld Reg.BR_SHED F.BR_SHED_SHED_MS) 1
      if s.brOn ∧ s.flag Reg.BR_CTRL F.BR_CTRL_SHED_EN ∧ t + ms * ticksPerMs ≤ s.now ∧ s.brine.holdTo ≤ s.now ∧
          s.fld Reg.BR_SHED F.BR_SHED_MIN_PH + 1 < s.brPhases.length ∧ s.brine.fade.isNone ∧ s.brine.grow.isNone then
        s.setBrine { s.brine with fade := some (p, 16), lowAt := none }
      else s
    | _, _ => s))

/-- BRINE_SW_FAULT: BR_SW[p] did not follow its gates: phase p stops, the others continue (R479). -/
def execBrineSwFault (p : Fin 4) (s : State) : Host.Outcome State Fault Refusal :=
  .next (s.onBlk .brine (fun s =>
    if bitOf s.brActive p.val then
      let b := s.brine
      let s := s.setBrine { b with stopped := withBit b.stopped p.val true,
                                   runAt := Tab.set (fun _ => none) b.runAt p.val none,
                                   fade := if b.fade.map (·.1) = some p.val then none else b.fade,
                                   grow := if b.grow.map (·.1) = some p.val then none else b.grow }
      (s.brSetActive (withBit s.brActive p.val false)).contain 0x1B (p.val + 1) 0x06
    else s))

end Sys2Proof.Machine
end

