-- ==== Sys2Proof/Machine/Crypto.lean ====
section
/-!
DEFINITION. Machine/Crypto.lean: the results of the cryptographic algorithms as lists of bytes.
-/
namespace Sys2Proof.Machine

def xorBytes (a b : List Byte) : List Byte := List.zipWith (· ^^^ ·) a b

/-- One 16-byte AES block. -/
def aes (key block : List Byte) : List Byte := (List.range 16).map (Config.aesByte key block)

/-- AES-CTR of `text` from the initial counter block `ctr`. -/
def aesCtr (key ctr text : List Byte) : List Byte :=
  xorBytes text ((List.range text.length).map (Config.streamByte key ctr))

/-- The initial counter block of GCM for a 12-byte IV: its text starts at counter 2. -/
def gcmCtr (iv : List Byte) : List Byte := iv ++ [0, 0, 0, 2]

def gcmText (key iv text : List Byte) : List Byte := aesCtr key (gcmCtr iv) text

/-- The 16-byte tag over associated data and ciphertext. -/
def gcmTag (key iv aad ct : List Byte) : List Byte := (List.range 16).map (Config.tagByte key iv aad ct)

def sha256 (l : List Byte) : List Byte := (List.range 32).map (Config.shaByte false l)
def sha384 (l : List Byte) : List Byte := (List.range 48).map (Config.shaByte true l)

/-- The length of a coordinate of the curve. -/
def ecLen (p384 : Bool) : Nat := if p384 then 48 else 32

/-- An uncompressed public key: 0x04, X, Y. -/
def ecPublic (p384 : Bool) (priv : List Byte) : List Byte :=
  4 :: (List.range (2 * ecLen p384)).map (Config.publicByte p384 priv)

/-- r then s, big-endian. -/
def ecSign (p384 : Bool) (priv digest : List Byte) (k : Nat) : List Byte :=
  (List.range (2 * ecLen p384)).map (Config.signByte p384 priv digest k)

def ecShared (p384 : Bool) (priv pub : List Byte) : List Byte :=
  (List.range (ecLen p384)).map (Config.sharedByte p384 priv pub)

def hkdf (secret info : List Byte) (n : Nat) : List Byte := (List.range n).map (Config.hkdfByte secret info)

end Sys2Proof.Machine
end

