-- ==== Sys2Proof/Machine/KeyBase.lean ====
section
/-!
DEFINITION. Machine/KeyBase.lean: slots, twins, keys and policies of the key store (R396 to R403).
-/
namespace Sys2Proof.Machine

/-- USE bits (R400). -/
def useEnc : Nat := 0
def useDec : Nat := 1
def useSign : Nat := 2
def useVerify : Nat := 3
def useEcdh : Nat := 4
def useUnwrap : Nat := 5
def useExpose : Nat := 8

/-- USERS bits beyond WS[0..7] (R400). -/
def userMetro : Nat := 8
def userSession : Nat := 9
def userZwidy : Nat := 10
def userPlc : Nat := 11
def userLoader : Nat := 12

/-- The key itself (R397). -/
def KeyRec.key (k : KeyRec) : List Byte := xorBytes k.shareA k.shareB

def algAes (a : Nat) : Bool := a = 0x01 || a = 0x02
def algPriv (a : Nat) : Bool := a = 0x11 || a = 0x12
def algPub (a : Nat) : Bool := a = 0x21 || a = 0x22
def algEc (a : Nat) : Bool := algPriv a || algPub a
/-- P-384 rather than P-256. -/
def alg384 (a : Nat) : Bool := a = 0x12 || a = 0x22
/-- Bytes of an AES or private key. -/
def algLen (a : Nat) : Nat := if a = 0x01 then 16 else if a = 0x12 then 48 else 32

/-- The public key of an EC key (R400). -/
def KeyRec.pub (k : KeyRec) : List Byte := if algPriv k.alg then ecPublic (alg384 k.alg) k.key else k.key

/-- KEYID (R403), as the little-endian number of its four bytes. -/
def KeyRec.keyId (k : KeyRec) : Nat :=
  if algEc k.alg then leNat ((sha256 k.pub).take 4) else leNat ((aes k.key (List.replicate 16 0)).take 4)

def State.slot (s : State) (n : Nat) : Option KeyRec := Tab.get (fun _ => none) s.ks.slot n
def State.twin (s : State) (n : Nat) : Option Twin := Tab.get (fun _ => none) s.ks.twin n
def State.timedAt (s : State) (n : Nat) : Option Nat := Tab.get (fun _ => none) s.ks.timed n

/-- INFO, POL, KEYID and TWIN_KEYID of slot n follow what it holds (R414). -/
def State.showSlot (s : State) (n : Nat) : State :=
  let (alg, pol, id) := match s.slot n with
    | some k => (2 ^ 8 + k.alg % 256, k.users % 2 ^ 13 * 2 ^ 16 + k.use % 2 ^ 9, k.keyId)
    | none => (0, 0, 0)
  let (tw, tid) := match s.twin n with
    | some t => ((if t.checked then 2 else 1) * 2 ^ 28 + t.key.alg % 256 * 2 ^ 16, t.key.keyId)
    | none => (0, 0)
  let timed := bit01 (s.timedAt n).isSome * 2 ^ 24
  ((((s.wrNat (Reg.KS_SLOT_INFO n) (alg + tw + timed)).wrNat (Reg.KS_SLOT_POL n) pol).wrNat
    (Reg.KS_SLOT_KEYID n) id).wrNat (Reg.KS_SLOT_TWIN_KEYID n) tid)

def State.setSlot (s : State) (n : Nat) (k : Option KeyRec) : State :=
  (s.setKs { s.ks with slot := Tab.set (fun _ => none) s.ks.slot n k }).showSlot n
def State.setTwin (s : State) (n : Nat) (t : Option Twin) : State :=
  (s.setKs { s.ks with twin := Tab.set (fun _ => none) s.ks.twin n t }).showSlot n
def State.setTimed (s : State) (n : Nat) (t : Option Nat) : State :=
  (s.setKs { s.ks with timed := Tab.set (fun _ => none) s.ks.timed n t }).showSlot n

/-- The key of slot n, where the slot is LOADED and its policy lets `user` use it for `use` with an algorithm that `ok`
accepts (R400). -/
def State.usable (s : State) (n use user : Nat) (ok : Nat → Bool) : Option KeyRec :=
  match s.slot n with
  | some k => if s.domUp 3 && ok k.alg && bitOf k.use use && bitOf k.users user then some k else none
  | none => none

/-- `n` random bytes. -/
def State.randomBytes (s : State) (n : Nat) : List Byte :=
  (List.range n).map (fun i => BitVec.ofNat 8 (Config.freeNat (s.free + i)))

/-- A key held as two shares, with the mask `m` (R397). -/
def maskedKey (alg use users : Nat) (key m : List Byte) : KeyRec := ⟨alg, use, users, xorBytes key m, m⟩

/-- Slot n takes a key: a new Zwidy key ends KEY_STALE (R203). -/
def State.loadSlot (s : State) (n : Nat) (k : KeyRec) : State :=
  let s := s.setSlot n (some k)
  if n = s.fld Reg.ZW_CTRL F.ZW_CTRL_KEY_SLOT then s.setFlag Reg.ZW_STATUS F.ZW_STATUS_KEY_STALE false else s

/-- The commit of twin n (R408): the twin's key and policy become the slot's, and the twin is EMPTY. -/
def State.commitTwin (s : State) (n : Nat) : State :=
  match s.twin n with
  | some t => (((s.loadSlot n t.key).setTwin n none).setTimed n none).line 0x13 0x01
  | none => s.setTimed n none

end Sys2Proof.Machine
end

