-- ==== Sys2Proof/Machine/SafetyOps.lean ====
section
/-!
DEFINITION. Machine/SafetyOps.lean: the operations of Selvedge that commands share: the safety mailbox, commits,
acknowledges, the pair's inputs (R415 to R444).
-/
namespace Sys2Proof.Machine

/-! The check value (R422, R423) -/

/-- One bit of CRC-32 of IEEE 802.3, least significant bit first. -/
def crcBit (c : Nat) : Nat := if c % 2 = 1 then (c / 2) ^^^ 0xEDB88320 else c / 2
def crcBits : Nat → Nat → Nat
  | 0, c => c
  | n + 1, c => crcBits n (crcBit c)
/-- The register after the bytes of a list; the match has its value evaluated byte by byte. -/
def crcUpdate : List Byte → Nat → Nat
  | [], c => c
  | b :: t, c =>
    match crcBits 8 (c ^^^ b.toNat) with
    | 0 => crcUpdate t 0
    | n + 1 => crcUpdate t (n + 1)
def crc32 (l : List Byte) : Word := ~~~(BitVec.ofNat 32 (crcUpdate l 0xFFFFFFFF))

/-- A pair index that is named: in range, with a MODE other than 0. -/
def State.pairNamed (s : State) (n : Nat) : Bool := n < 16 && s.pairMode n ≠ 0

def inRange (lo hi x : Nat) : Bool := lo ≤ x && x ≤ hi

/-- The fields of pair n are valid; a pair of MODE 0 is not used. -/
def State.pairCfgOk (s : State) (n : Nat) : Bool :=
  let b := 0x10 + 8 * n
  s.pairMode n ≤ 2 && s.scfg (b + 7) 1 = 0 &&
    (s.pairMode n = 0 || (inRange 1 8 (s.scfg (b + 1) 1) && inRange 10 1000 (s.scfg (b + 2) 2)))

/-- The fields of SOUT[m] are valid; an output of EN 0 is not used. -/
def State.outCfgOk (s : State) (m : Nat) : Bool :=
  let b := 0x90 + 16 * m
  s.scfg b 1 ≤ 1 && s.scfg (b + 2) 2 = 0 && s.scfg (b + 12) 4 = 0 &&
    (s.scfg b 1 = 0 || ((s.outCh m ≤ 7 || s.outCh m = 0xFF) && inRange 1 (2 ^ 23 - 1) (s.scfg (b + 8) 4)))

/-- APP_OWN or OUT_OWN: sequencer [6:4], context [1:0]. -/
def ownerOk (b : Nat) : Bool := b < 128 && b % 16 < 4

/-- The safety configuration is valid (R422). -/
def State.safetyCfgOk (s : State) : Bool :=
  s.scfg 0 4 = 1 && inRange 1 7 (s.scfg 4 1) && inRange 2 10 (s.scfg 5 1) && ownerOk (s.scfg 6 1) && ownerOk (s.scfg 7 1) &&
  inRange 100 10000 (s.scfg 8 2) && inRange 100 400 (s.scfg 0xA 2) &&
  (s.scfg 0xC 1 = 0xFF || s.pairNamed (s.scfg 0xC 1)) && s.pairNamed (s.scfg 0xD 1) &&
  (s.scfg 0xE 1 = 0xFF || s.pairNamed (s.scfg 0xE 1)) && s.scfg 0xF 1 ≤ 1 &&
  (List.range 16).all (fun n => s.pairCfgOk n) && (List.range 10).all (fun m => s.outCfgOk m) &&
  (s.scfg 0x130 4 = 0 || s.scfg 0xE 1 ≠ 0xFF) && inRange 100 5000 (s.scfg 0x134 2) && s.scfg 0x136 198 = 0 &&
  crc32 (s.bytes pairDtcm 0x1FC) = BitVec.ofNat 32 (s.scfg 0x1FC 4)

/-! Cycles and commits (R420, R424) -/

/-- T_CYC in ticks. -/
def State.cycleTicks (s : State) : Nat := s.scfg 4 1 * (500 * ticksPerUs)

/-- A program with its configuration starts (R419, R423, R424): the check value, the program identity, and the state;
`prog` is the identity. -/
def State.safetyLoaded (s : State) (prog : Word) : State :=
  if s.sfsState = sfsFault then s
  else
    let s := s.wr Reg.SFS_PROG prog
    if s.safetyCfgOk then
      let chk := BitVec.ofNat 32 (s.scfg 0x1FC 4)
      let run := s.selv.nvChk = chk && s.selv.nvProg = prog
      let s := ((s.wr Reg.SFS_CHK chk).wr Reg.SFS_CONF_CHK s.selv.nvChk).wr Reg.SFS_CONF_PROG s.selv.nvProg
      let s := s.setFld Reg.SFS_STATUS F.SFS_STATUS_STATE (if run then sfsRun else 2)
      s.setSelv { s.selv with cycleAt := some s.now, cycleOpen := false, crcAt := some (s.now + 10 * ticksPerS) }
    else s.setFld Reg.SFS_STATUS F.SFS_STATUS_STATE 3

/-- SFS_OUT_EN is written by the pair (R420). -/
def State.safetyEnWrite (s : State) (v : Word) : State :=
  (s.setFld Reg.SFS_OUT_EN F.SFS_OUT_EN_SAFE_EN (F.SFS_OUT_EN_SAFE_EN.get v)).setSelv { s.selv with enSeen := true }

/-- SFS_OUT_CMT: SAFE_EN commits (R420). -/
def State.safetyCommit (s : State) : State :=
  let s := (s.commit Reg.SFS_OUT_EN).setSelv { s.selv with committed := s.selv.committed || s.selv.enSeen }
  s.refreshOuts

/-! The safety mailbox (R435) -/

/-- The configuration names owners: one is loaded and valid. -/
def State.hasOwners (s : State) : Bool := s.sfsState ≠ 0 && s.sfsState ≠ 3

/-- TYPE of an inbound word. -/
def wordType (w : Word) : Nat := w.toNat / 2 ^ 28

/-- The word is a listed message (R435). -/
def listedWord (w : Word) : Bool :=
  wordType w = 1 || wordType w = 2 || wordType w = 8 ||
    ((wordType w = 3 || wordType w = 4) && w.toNat % 2 ^ 28 = 0)

/-- How many raw words a CONFIRM still takes after the words of `l`, where `n` are due before them. -/
def rawDue : Nat → List Word → Nat
  | n, [] => n
  | n + 1, _ :: t => rawDue n t
  | 0, w :: t => rawDue (if wordType w = 4 then 2 else 0) t

/-- Raw words that the CONFIRM in progress still takes. -/
def State.confLeft (s : State) : Nat := if s.selv.confSeen = 0 then 0 else 3 - s.selv.confSeen

/-- A refused message: REFUSED and NOTE code 0x06. -/
def State.refuseWord (s : State) : State := (s.bump Reg.SFS_MSG F.SFS_MSG_REFUSED).note 0x18 0 0x06

/-- MSEND 0x80 by context k outside the pair: whether it is full. -/
def State.safetySend (s : State) (k : Nat) (w : Word) : Bool × State :=
  if !s.hasOwners || k ≠ s.appOwn then (true, s.refuseWord)
  else if 8 ≤ s.selv.inbox.length + s.selv.user.length then (true, s)
  else if rawDue s.confLeft s.selv.inbox = 0 ∧ !listedWord w then (true, s.refuseWord)
  else (false, s.setSelv { s.selv with inbox := s.selv.inbox ++ [w] })

/-- MSEND 0x80 by the pair: whether it is full; the owner's MAIL becomes pending. -/
def State.pairSend (s : State) (w : Word) : Bool × State :=
  if 8 ≤ s.selv.outbox.length then (true, s)
  else
    let s := s.setSelv { s.selv with outbox := s.selv.outbox ++ [w] }
    (false, s.wake s.outOwn)

/-- MRECV 0x80 by context k. -/
def State.safetyRecv (s : State) (k : Nat) : Option Word × State :=
  if 36 ≤ k then
    match s.selv.user with
    | w :: t => (some w, s.setSelv { s.selv with user := t })
    | [] => (none, s)
  else if !s.hasOwners || k ≠ s.outOwn then (none, s.refuseWord)
  else
    match s.selv.outbox with
    | w :: t => (some w, s.setSelv { s.selv with outbox := t })
    | [] => (none, s)

/-- The oldest inbound word is handled by `f` where `p` accepts it; a word left over from a CONFIRM that timed out, whose
TYPE is not listed, is discarded first (R425, R435). -/
def State.handleWord (s : State) (p : Word → Bool) (f : Word → State → State) : State :=
  match s.selv.inbox with
  | w :: t =>
    if p w then f w (s.setSelv { s.selv with inbox := t })
    else if s.selv.confSeen = 0 && !listedWord w then (s.setSelv { s.selv with inbox := t }).refuseWord
    else s
  | [] => s

/-! Inputs and acknowledges (R427 to R430) -/

/-- What pair n offers changes as `f` says: the event lines, and the start of the time it has been OK. -/
def State.pairStep (s : State) (n : Nat) (f : State → State) : State :=
  let s' := f s
  let p := s'.safePair n
  let was := s.pairOk n
  let is := s'.pairOk n
  let s' := s'.setSafePair n
    { p with okSince := if is then (if was then p.okSince else some s.now) else none,
             disSince := if s'.chanOk n false ≠ s'.chanOk n true
                         then (if p.disSince.isSome then p.disSince else some s.now) else none }
  let s' := if was ≠ is ∨ (s.safePair n).disc ≠ p.disc ∨ (s.safePair n).stuck ≠ p.stuck then s'.line 0x18 0x01 else s'
  let s' := if was ∧ !is then s'.line 0x18 0x12 else s'
  if was ∧ !is ∧ s'.flag Reg.SFS_BRAKE F.SFS_BRAKE_BT_RUN ∧ s'.scfg 0xE 1 = n ∧ !s'.selv.brakeFailed then
    ((s'.setFlag Reg.SFS_BRAKE F.SFS_BRAKE_BT_FAIL true).setSelv { s'.selv with brakeFailed := true }).note 0x18 0x29 0x07
  else s'

/-- An acknowledge of the pairs and outputs in the masks (R430); `off` are the outputs that have read back both channels
off for the last 100 ms. -/
def State.acknowledge (s : State) (outs pairs off : Nat) : State :=
  let s := (List.range 16).foldl (fun s n =>
    if bitOf pairs n && (s.safePair n).stuck && !s.chanOk n false && !s.chanOk n true then
      s.pairStep n (fun s => s.setSafePair n { s.safePair n with stuck := false, rate := false })
    else s) s
  let s := (List.range 10).foldl (fun s m =>
    if bitOf outs m && s.outFault m && bitOf off m then s.setBit Reg.SFS_OUT_FLT F.SFS_OUT_FLT_FAULT m false else s) s
  let kept := (List.range 16).any (fun n => bitOf pairs n && (s.safePair n).stuck) ||
    (List.range 10).any (fun m => bitOf outs m && s.outFault m)
  ((s.setFld Reg.SFS_MSG F.SFS_MSG_ACK_RES (if kept then 2 else 1)).line 0x18 0x17).refreshOuts

/-- FAULT[m] (R434): both channels off, NOTE code 0x04 and line 0x14. -/
def State.readbackFault (s : State) (m : Nat) : State :=
  ((((s.setBit Reg.SFS_OUT_FLT F.SFS_OUT_FLT_FAULT m true).outOff m).note 0x18 (0x20 + m) 0x04).line 0x18 0x14)

/-- CK_SAFE in ticks (R415). -/
def safeCycle : Nat := 160

/-- The cycle of CK_SAFE in which the permit expires is over: a PERMIT that arrives in it renews the permit (R440). -/
def State.permitOver (s : State) : Bool := s.selv.permitDue.any (fun d => d / safeCycle < s.now / safeCycle)

/-- The CONFIRM in progress ends incomplete: a word did not follow within 1 ms (R425). -/
def State.confTimeout (s : State) : State :=
  let s := s.setSelv { s.selv with confSeen := 0, confWord := 0, confDue := none }
  (s.setFld Reg.SFS_MSG F.SFS_MSG_CONF_RES 5).line 0x18 0x16

/-- The next word of the CONFIRM in progress came too late (R425). -/
def State.confLate (s : State) : Bool := s.selv.confDue.any (fun d => d < s.now)

/-- The reset button was OK since `held` and is in DEMAND again: after 0.1 s to 5 s it acknowledges every pair and output
(R430); `off` are the outputs that have read back both channels off for the last 100 ms. -/
def State.resetButton (s : State) (n : Nat) (held : Option Nat) (off : BitVec 10) : State :=
  match held with
  | some t =>
    if !s.pairOk n ∧ s.scfg 0xC 1 = n ∧ s.hasOwners ∧ t + 100 * ticksPerMs ≤ s.now ∧ s.now ≤ t + 5 * ticksPerS
    then s.acknowledge 0x3FF 0xFFFF off.toNat
    else s
  | none => s

/-- Age of the last passed brake test in s (R437, R438). -/
def State.brakeAge (s : State) : Nat := min 0xFFFFFF ((s.now - s.selv.ageAt) / ticksPerS)

/-! What the registers of Selvedge show -/

/-- The word of the register at `a` with the field `f` showing `x`. -/
def State.show (s : State) (a : Nat) (f : Fld) (x : Nat) : Word := f.put (s.rd a) x

/-- The time left until a deadline in units of `u` ticks, saturating at `top`. -/
def State.left (s : State) (due : Option Nat) (u top : Nat) : Nat :=
  match due with
  | some d => min top ((d - s.now) / u)
  | none => 0

def State.readSafety (s : State) (a : Nat) : Word :=
  if a = Reg.SFS_STATUS then s.show a F.SFS_STATUS_OWNED (bit01 s.owned)
  else if a = Reg.SFS_PERMIT then s.show a F.SFS_PERMIT_REMAIN (s.left s.selv.permitDue (100 * ticksPerUs) 255)
  else if a = Reg.SFS_BRAKE then
    s.show a F.SFS_BRAKE_BT_AGE (min (2 ^ 24 - 1) ((s.now - s.selv.ageAt) / ticksPerS))
  else s.rd a

end Sys2Proof.Machine
end

