-- ==== Sys2Proof/Machine/SalternSolve.lean ====
section
/-!
DEFINITION. Machine/SalternSolve.lean: the solve of R180 over numbers: filling a class, and the whole period.
-/
namespace Sys2Proof.Machine

/-- The depth of pan j (R172), none where it is invalid, following parents at most `n` − 1 times: `en` and `par` are the
pans' EN and PARENT. -/
def panDepth (en : Nat → Bool) (par : Nat → Nat) : Nat → Nat → Option Nat
  | 0, _ => none
  | n + 1, j => if en j then (if j = 0 then some 0 else (panDepth en par n (par j)).map (· + 1)) else none

/-- The path of pan j (R172): j, its parent and so on to pan 0. -/
def panPath (par : Nat → Nat) : Nat → Nat → List Nat
  | 0, _ => []
  | n + 1, j => if j = 0 then [0] else j :: panPath par n (par j)

/-- The grants so far and what is left of each pan. -/
structure Fill where
  g : List Nat
  res : List Nat
deriving DecidableEq, Repr

/-- What fill reads of the outlets: the path of an outlet, its wait credit, and the rotation pointer. -/
structure FillIn where
  path : List (List Nat)
  w : List Nat
  rot : Nat
deriving DecidableEq, Repr

def Fill.grant (f : Fill) (i : Nat) : Nat := f.g.getD i 0
def Fill.left (f : Fill) (j : Nat) : Nat := f.res.getD j 0
def FillIn.pathOf (x : FillIn) (i : Nat) : List Nat := x.path.getD i []

/-- give(i, n). -/
def Fill.give (f : Fill) (x : FillIn) (i n : Nat) : Fill :=
  { g := f.g.set i (f.grant i + n), res := (x.pathOf i).foldl (fun r j => r.set j (r.getD j 0 - n)) f.res }

/-- Outlet i can still rise toward `want`. -/
def Fill.rises (f : Fill) (x : FillIn) (want : List Nat) (i : Nat) : Bool :=
  f.grant i < want.getD i 0 && (x.pathOf i).all (fun j => 0 < f.left j)

/-- s of fill: the equal rise of the active outlets, limited by their wants and by the pans. -/
def Fill.rise (f : Fill) (x : FillIn) (want act : List Nat) : Nat :=
  let s := act.foldl (fun m i => min m (want.getD i 0 - f.grant i)) (2 ^ 24)
  (List.range 64).foldl (fun m j =>
    let n := (act.filter (fun i => (x.pathOf i).contains j)).length
    if 0 < n then min m (f.left j / n) else m) s

/-- The list with i inserted before the first entry of a higher key. -/
def insertKey (key : Nat → Nat) (i : Nat) : List Nat → List Nat
  | [] => [i]
  | h :: t => if key i ≤ key h then i :: h :: t else h :: insertKey key i t

/-- The active outlets by wait credit descending, then by (i − rot) mod 128 ascending. -/
def FillIn.order (x : FillIn) (act : List Nat) : List Nat :=
  act.foldr (insertKey (fun i => (15 - x.w.getD i 0) * 128 + (i + 128 - x.rot) % 128)) []

/-- One round of fill over the active outlets. -/
def Fill.round (f : Fill) (x : FillIn) (want act : List Nat) : Fill :=
  let s := f.rise x want act
  if 0 < s then act.foldl (fun f i => f.give x i s) f
  else (x.order act).foldl (fun f i => if f.rises x want i then f.give x i 1 else f) f

/-- fill(set, want): `n` bounds the rounds; 1,024 are more than 128 outlets under 64 pans need. -/
def Fill.fill (x : FillIn) (set want : List Nat) : Nat → Fill → Fill
  | 0, f => f
  | n + 1, f =>
    let act := set.filter (f.rises x want)
    if act.isEmpty then f else Fill.fill x set want n (f.round x want act)

/-- The inputs of a solve (R173, R180), outlet by outlet, beside those of fill. -/
structure SolveIn where
  fillIn : FillIn
  en : List Bool
  cls : List Nat
  t : List Nat
  q : List Nat
  res : List Nat
  edem : Nat
deriving DecidableEq, Repr

/-- The results of a solve. -/
structure SolveOut where
  g : List Nat
  w : List Nat
  rot : Nat
  res : List Nat
  ge : Nat
  total : Nat
deriving DecidableEq, Repr

/-- The enabled outlets of class c. -/
def SolveIn.members (x : SolveIn) (c : Nat) : List Nat :=
  (List.range 128).filter (fun i => x.en.getD i false && x.cls.getD i 0 = c)

/-- The classes from 7 down to 0 are filled to `want`. -/
def SolveIn.serve (x : SolveIn) (want : List Nat) (f : Fill) : Fill :=
  [7, 6, 5, 4, 3, 2, 1, 0].foldl (fun f c => Fill.fill x.fillIn (x.members c) want 1024 f) f

/-- The solve (R180): `edem` is 0 while no emergency is active. -/
def SolveIn.solve (x : SolveIn) : SolveOut :=
  let r0 := x.res.getD 0 0
  let ge := min x.edem r0
  let f : Fill := { g := List.replicate 128 0, res := x.res.set 0 (r0 - ge) }
  let f := x.serve x.t (x.serve x.q f)
  { g := f.g,
    w := (List.range 128).map (fun i =>
      if x.en.getD i false && f.grant i < x.t.getD i 0 then min 15 (x.fillIn.w.getD i 0 + 1) else 0),
    rot := (x.fillIn.rot + 1) % 128, res := f.res, ge := ge, total := f.g.foldl (· + ·) 0 }

end Sys2Proof.Machine
end

