-- ==== Sys2Proof/Machine/SalternOps.lean ====
section
/-!
DEFINITION. Machine/SalternOps.lean: boundaries, commits, the emergency requester, the inputs of a solve and the apply unit
of the Saltern (R170 to R192).
-/
namespace Sys2Proof.Machine

/-- PERIOD_US and LEAD_US in force, in nanoseconds (R175, R196). -/
def periodNs (w : Word) : Nat := clampNat 100 100000 (F.SAL_PERIOD_PERIOD_US.get w) * 1000
def leadNs (w : Word) : Nat := max 100 (F.SAL_LEAD_LEAD_US.get w) * 1000
def State.salPeriod (s : State) : Nat := periodNs (s.lv Reg.SAL_PERIOD)
def State.salLead (s : State) : Nat := leadNs (s.lv Reg.SAL_LEAD)

/-- The boundary met now (R175, R176): a multiple of the period on TB[0], at most 20 ns ago. -/
def State.boundaryNow (s : State) : Option Nat :=
  let r := s.tbNs 0 % s.salPeriod
  if r ≤ 20 then some (s.tbNs 0 - r) else none

/-- The instant of boundary b, which TB[0] passed `tbNs 0 - b` nanoseconds ago. -/
def State.boundaryInstant (s : State) (b : Nat) : Nat := s.now - 16 * (s.tbNs 0 - b)

/-- What reached the Saltern at `t` takes part in the snapshot of a boundary at instant `cut`: 100 ns before it or
earlier (R177). -/
def inTime (cut t : Nat) : Bool := t + 1600 ≤ cut

def State.cab (s : State) : Nat := s.fld Reg.SAL_CTRL F.SAL_CTRL_CAB

/-! Writes and the 100 ns deadline (R177) -/

/-- A write of a Saltern register: the word it replaces counts for a boundary of the next 100 ns (it is kept as long as a
solve of that boundary may still start, R195), and a table word with an
uncorrectable error has been rewritten (R193). -/
def State.salPut (s : State) (a : Nat) (v : Word) : State :=
  let x := s.sal
  let late := x.late.filter (fun w => s.now < w.at_ + 2000) ++ [⟨s.now, a, s.rd a⟩]
  (s.setSal { x with late := late, bad := x.bad.filter (· ≠ a) }).wr a v

/-- The word of the register at `a` that the snapshot of a boundary at `cut` takes. -/
def State.salAt (s : State) (cut a : Nat) : Word :=
  match s.sal.late.find? (fun w => w.addr = a && !inTime cut w.at_) with
  | some w => w.old
  | none => s.rd a

/-- The registers that commit together (R176): SAL_DEM[i] is not among them. -/
def salRws : List Nat :=
  [Reg.SAL_PERIOD, Reg.SAL_LEAD] ++ (List.range 64).map Reg.SAL_PAN ++
    (List.range 128).flatMap (fun i => [Reg.SAL_OUT_CFG i, Reg.SAL_OUT_FLOOR i, Reg.SAL_OUT_CAP i, Reg.SAL_OUT_RAMP i])

/-- EN and PARENT of the pans, from the words of `w`. -/
def panEn (w : Nat → Word) (j : Nat) : Bool := F.SAL_PAN_EN.get (w (Reg.SAL_PAN j)) ≠ 0
def panParent (w : Nat → Word) (j : Nat) : Nat := F.SAL_PAN_PARENT.get (w (Reg.SAL_PAN j))
def depthOf (w : Nat → Word) (j : Nat) : Option Nat := panDepth (panEn w) (panParent w) 5 j

/-- The words of `w` may be committed (R178). -/
def salCfgOk (w : Nat → Word) : Bool :=
  (depthOf w 0).isSome &&
    (List.range 128).all (fun i =>
      let c := w (Reg.SAL_OUT_CFG i)
      F.SAL_OUT_CFG_EN.get c = 0 || (depthOf w (F.SAL_OUT_CFG_PAN.get c)).isSome) &&
    leadNs (w Reg.SAL_LEAD) < 4 * periodNs (w Reg.SAL_PERIOD)

/-- INVALID and DEPTH of every pan in the committed set (R172). -/
def State.showPans (s : State) : State :=
  (List.range 64).foldl (fun s j =>
    let d := depthOf s.lv j
    (s.setFlag (Reg.SAL_PAN_RES j) F.SAL_PAN_RES_INVALID d.isNone).setFld (Reg.SAL_PAN_RES j) F.SAL_PAN_RES_DEPTH (d.getD 0)) s

/-- ZW_CFG_CRC (R201) over the committed words in address order. -/
def State.showCfgCrc (s : State) : State :=
  let words := [Reg.SAL_PERIOD, Reg.SAL_LEAD].map s.lv ++ [s.rd Reg.SAL_EMRG_CTRL] ++ (salRws.drop 2).map s.lv
  s.onBlk .zwidy (fun s => s.wr Reg.ZW_CFG_CRC (crc32 (words.flatMap (fun w => leBytes 4 w.toNat))))

/-- The commit at a boundary (R176, R178): SAL_DEM always, the other registers where CMT_MODE or a GO allows it. They are
committed as one set, or rejected as one set. At a solve start (`solves`) every set is judged; where no solve starts, one
that differs from the committed set: DESIGN CHOICE, for the spec states no commit there (log entry 88). -/
def State.salCommit (s : State) (cut : Nat) (solves : Bool) : State :=
  let dem := ((List.range 128).map Reg.SAL_DEM).filter (fun a => s.salAt cut a ≠ s.lv a)
  let s := dem.foldl (fun s a => s.wrLive a (s.salAt cut a)) s
  let go : Bool := match s.sal.goAt with | some t => inTime cut t | none => false
  if go || s.fld Reg.SAL_CTRL F.SAL_CTRL_CMT_MODE = 0 then
    let s := if go then (s.setSal { s.sal with goAt := none }).setFlag Reg.SAL_CMT F.SAL_CMT_GO false else s
    let new := salRws.filter (fun a => s.salAt cut a ≠ s.lv a)
    if new.isEmpty && !solves then s
    else if salCfgOk (s.salAt cut) then ((new.foldl (fun s a => s.wrLive a (s.salAt cut a)) s).showPans).showCfgCrc
    else ((s.setFlag Reg.SAL_STATUS F.SAL_STATUS_CFG_ERR true).note 0x03 0 0x04).line 0x03 0x02
  else s

/-! The emergency requester (R183 to R185) -/

/-- A raise that asks for e (R183): it is latched, and the greater demand stays. -/
def State.salRaise (s : State) (e : Nat) : State :=
  let st := s.rd Reg.SAL_EMRG_STAT
  let s := s.setSal { s.sal with raises := s.sal.raises ++ [(s.now, e, st)] }
  let s := s.setFld Reg.SAL_EMRG_STAT F.SAL_EMRG_STAT_E (max e (F.SAL_EMRG_STAT_E.get st))
  (s.setFlag Reg.SAL_EMRG_STAT F.SAL_EMRG_STAT_PEND true).line 0x03 0x03

/-- The grid line as the Saltern reads it. -/
def State.gridLine (s : State) : Bool := s.flag Reg.GRD_STATUS F.GRD_STATUS_LINE

/-- The emergency at a solve start (R184, R185, R192): the line is sampled, a latch that met the deadline is taken, else a
release that is due is made. The answer is the demand that the solve works with. -/
def State.salEmergency (s : State) (cut : Nat) : State × Nat :=
  let late := s.sal.raises.filter (fun r => !inTime cut r.1)
  let taken := match late with | r :: _ => r.2.2 | [] => s.rd Reg.SAL_EMRG_STAT
  let act := s.flag Reg.SAL_EMRG_STAT F.SAL_EMRG_STAT_ACT
  let cnt := if act then (if s.gridLine then 0 else satAdd 255 (s.fld Reg.SAL_EMRG_REL F.SAL_EMRG_REL_REL_CNT) 1) else 0
  let auto := act && s.flag Reg.SAL_EMRG_CTRL F.SAL_EMRG_CTRL_AUTO_REL &&
    orDefault (s.fld Reg.SAL_EMRG_CTRL F.SAL_EMRG_CTRL_REL_HOLD) 1 ≤ cnt
  let clr := s.sal.clrs.any (inTime cut)
  let s := s.setSal { s.sal with raises := late, clrs := s.sal.clrs.filter (fun t => !inTime cut t) }
  if F.SAL_EMRG_STAT_PEND.get taken ≠ 0 then
    let s := (s.setFlag Reg.SAL_EMRG_STAT F.SAL_EMRG_STAT_ACT true).setFlag
      Reg.SAL_EMRG_STAT F.SAL_EMRG_STAT_PEND (!late.isEmpty)
    let s := if clr then s.setFlag Reg.SAL_EMRG_STAT F.SAL_EMRG_STAT_CLR_REFUSED true else s
    ((s.setFld Reg.SAL_EMRG_REL F.SAL_EMRG_REL_REL_CNT (if auto then 0 else cnt)).line 0x03 0x04,
      F.SAL_EMRG_STAT_E.get taken)
  else if act && (auto || clr) then
    let e := late.foldl (fun m r => max m r.2.1) 0
    let s := (s.setFlag Reg.SAL_EMRG_STAT F.SAL_EMRG_STAT_ACT false).setFld Reg.SAL_EMRG_STAT F.SAL_EMRG_STAT_E e
    (((s.wr Reg.SAL_EMRG_REL 0).wr Reg.SAL_EMRG_GE 0).line 0x03 0x05, 0)
  else (s.setFld Reg.SAL_EMRG_REL F.SAL_EMRG_REL_REL_CNT cnt, if act then F.SAL_EMRG_STAT_E.get taken else 0)

/-! Demands (R174) -/

def State.outletOn (s : State) (i : Nat) : Bool := s.lfld (Reg.SAL_OUT_CFG i) F.SAL_OUT_CFG_EN ≠ 0
def State.idleOf (s : State) (i : Nat) : Nat := Tab.get (fun _ => 0) s.sal.idle i

/-- The demand of outlet i has not been fresh for DEM_TMO consecutive solves. -/
def State.demandOld (s : State) (i : Nat) : Bool :=
  let tmo := s.fld Reg.SAL_CTRL F.SAL_CTRL_DEM_TMO
  tmo ≠ 0 && tmo ≤ s.idleOf i

/-- Outlet i's demand has been written since the previous solve start. -/
def State.demandFresh (s : State) (i : Nat) : Bool := (Tab.get (fun _ => none) s.sal.fresh i).isSome

/-- A write of SAL_DEM[i]: the demand is fresh, and STALE reads 0. -/
def State.salDemWrite (s : State) (i data : Nat) : State :=
  let s := s.salPut (Reg.SAL_DEM i) (BitVec.ofNat 32 (data % 2 ^ 24))
  let x := s.sal
  let first := match Tab.get (fun _ => none) x.fresh i with | some t => some t | none => some s.now
  s.setSal { x with fresh := Tab.set (fun _ => none) x.fresh i first }

/-- The demands at a solve start: a fresh one restarts its count, any other counts one more. -/
def State.salFreshness (s : State) (cut : Nat) : State :=
  (List.range 128).foldl (fun s i =>
    let x := s.sal
    let hit := match Tab.get (fun _ => none) x.fresh i with | some t => inTime cut t | none => false
    let next := (x.late.find? (fun w => w.addr = Reg.SAL_DEM i && !inTime cut w.at_)).map (·.at_)
    let n := if hit then 0 else min 256 (s.idleOf i + 1)
    s.setSal { x with fresh := if hit then Tab.set (fun _ => none) x.fresh i next else x.fresh,
                      idle := Tab.set (fun _ => 0) x.idle i n }) s

/-! The solve (R180, R182) -/

/-- The inputs of the solve `v` (R173, R180). -/
def State.solveIn (s : State) (v : Solve) : SolveIn :=
  let all := List.range 128
  let gprev := all.map (fun i => s.fld (Reg.SAL_GRANT i) F.SAL_GRANT_GRANT)
  let t := all.map (fun i =>
    if s.outletOn i then
      let d := min (s.lfld (Reg.SAL_DEM i) F.SAL_DEM_DEM) (s.lfld (Reg.SAL_OUT_CAP i) F.SAL_OUT_CAP_CAP)
      let d := if v.stale.contains i then min d (gprev.getD i 0) else d
      let ru := s.lfld (Reg.SAL_OUT_RAMP i) F.SAL_OUT_RAMP_RU
      if ru = 0 then d else min d (gprev.getD i 0 + ru)
    else 0)
  let q := all.map (fun i =>
    if s.outletOn i then
      let rd := s.lfld (Reg.SAL_OUT_RAMP i) F.SAL_OUT_RAMP_RD
      let lo := if rd ≠ 0 ∧ !v.act ∧ rd < gprev.getD i 0 then gprev.getD i 0 - rd else 0
      min (t.getD i 0) (max (s.lfld (Reg.SAL_OUT_FLOOR i) F.SAL_OUT_FLOOR_FLOOR) lo)
    else 0)
  { fillIn :=
      { path := all.map (fun i => panPath (panParent s.lv) 5 (s.lfld (Reg.SAL_OUT_CFG i) F.SAL_OUT_CFG_PAN)),
        w := all.map (fun i => s.fld (Reg.SAL_GRANT i) F.SAL_GRANT_W), rot := s.fld Reg.SAL_ROT F.SAL_ROT_ROT },
    en := all.map s.outletOn, cls := all.map (fun i => s.lfld (Reg.SAL_OUT_CFG i) F.SAL_OUT_CFG_CLASS), t := t, q := q,
    res := (List.range 64).map (fun j =>
      if (depthOf s.lv j).isSome then s.lfld (Reg.SAL_PAN j) F.SAL_PAN_LIMIT else 0),
    edem := if v.act then v.edem else 0 }

/-- The results in the registers of the solver (R182). -/
def State.salResults (s : State) (v : Solve) (r : SolveOut) : State :=
  let s := (List.range 128).foldl (fun s i =>
    s.wrNat (Reg.SAL_GRANT i) (r.w.getD i 0 * 2 ^ 24 + r.g.getD i 0)) s
  let s := (List.range 64).foldl (fun s j => s.setFld (Reg.SAL_PAN_RES j) F.SAL_PAN_RES_RES (r.res.getD j 0)) s
  let s := ((s.wrNat Reg.SAL_ROT r.rot).wrNat Reg.SAL_TOTAL r.total).wrNat Reg.SAL_EMRG_GE r.ge
  ((s.wrNat Reg.SAL_LAST_B_S (v.bound / 1000000000)).wrNat Reg.SAL_LAST_B_NS (v.bound % 1000000000)).wrNat
    Reg.SAL_PNUM ((s.rd Reg.SAL_PNUM).toNat + 1)

/-- A solve is aborted (R182, R192). -/
def State.salAbort (s : State) : State :=
  if s.sal.solve.isSome then
    (((s.setSal { s.sal with solve := none }).setFlag Reg.SAL_STATUS F.SAL_STATUS_BUSY false).setFlag
      Reg.SAL_STATUS F.SAL_STATUS_ABORT true).line 0x03 0x01
  else s

/-- The cell of a table word (R170): the pan table is cell 2, the outlet and demand table cell 1. -/
def salCell (a : Nat) : Nat := if a < Reg.SAL_OUT_CFG 0 then 2 else 1

/-- The last solved boundary in nanoseconds, its seconds completed from those of `b` (R179). -/
def State.lastSolved (s : State) (b : Nat) : Nat :=
  (b / 1000000000 / 2 ^ 32 * 2 ^ 32 + (s.rd Reg.SAL_LAST_B_S).toNat) * 1000000000 + (s.rd Reg.SAL_LAST_B_NS).toNat

/-- Boundary b has been solved, or its solve runs: it is skipped (R179), and it disturbs no solve. -/
def State.boundaryDone (s : State) (b : Nat) : Bool :=
  b ≤ s.lastSolved b || (match s.sal.solve with | some v => decide (b ≤ v.bound) | none => false)

/-! Solver state (R191) -/

/-- SAL_CMT.GO: it reads 1 until the solve start that takes it (R176). -/
def State.salGo (s : State) : State :=
  let t := match s.sal.goAt with | some t => some t | none => some s.now
  (s.setSal { s.sal with goAt := t }).setFlag Reg.SAL_CMT F.SAL_CMT_GO true

/-- SAL_EMRG_CMD.CLR: a release request; refused while the grid line is high with LINE_EN, or while PEND is 1 (R185). -/
def State.salClear (s : State) : State :=
  if (s.gridLine && s.flag Reg.SAL_EMRG_CTRL F.SAL_EMRG_CTRL_LINE_EN) ||
      s.flag Reg.SAL_EMRG_STAT F.SAL_EMRG_STAT_PEND then
    s.setFlag Reg.SAL_EMRG_STAT F.SAL_EMRG_STAT_CLR_REFUSED true
  else s.setSal { s.sal with clrs := s.sal.clrs ++ [s.now] }

/-- The registers of the solver's state, and which of their bits a write reaches. -/
def stateMask (a : Nat) : Nat :=
  if a = Reg.SAL_PNUM ∨ a = Reg.SAL_LAST_B_S ∨ a = Reg.SAL_LAST_B_NS then 0xFFFFFFFF
  else if a = Reg.SAL_ROT then 0x7F else if a = Reg.SAL_EMRG_STAT then 0xC0FFFFFF
  else if a = Reg.SAL_EMRG_BASE then 0xFFFFFF else if a = Reg.SAL_EMRG_REL then 0xFF
  else if Reg.SAL_GRANT 0 ≤ a ∧ a ≤ Reg.SAL_GRANT 127 ∧ a % 4 = 0 then 0x0FFFFFFF else 0

/-- A write of a state register: ignored with STATE_IGN while MODE 0b10 is in force (R191). -/
def State.salStateWrite (s : State) (a : Nat) (data : Word) : State :=
  let m := BitVec.ofNat 32 (stateMask a)
  let s := if a = Reg.SAL_EMRG_STAT ∧ bitOf data.toNat 29 then
    s.setFlag Reg.SAL_EMRG_STAT F.SAL_EMRG_STAT_CLR_REFUSED false else s
  if m = 0 then s
  else if s.sal.mode = 2 then s.setFlag Reg.SAL_STATUS F.SAL_STATUS_STATE_IGN true
  else
    let s := s.wr a (s.rd a &&& ~~~m ||| data &&& m)
    let s := s.setSal { s.sal with bad := s.sal.bad.filter (· ≠ a) }
    if a = Reg.SAL_EMRG_STAT then
      let s := s.setSal { s.sal with raises := [] }
      if s.flag Reg.SAL_EMRG_STAT F.SAL_EMRG_STAT_ACT then s
      else (s.wr Reg.SAL_EMRG_GE 0).wr Reg.SAL_EMRG_REL 0
    else if a = Reg.SAL_EMRG_REL ∧ !s.flag Reg.SAL_EMRG_STAT F.SAL_EMRG_STAT_ACT then s.wr Reg.SAL_EMRG_REL 0
    else s

/-! The apply unit (R187 to R189) -/

/-- Period number `a` comes before `b`, modulo 2^32. -/
def pnumBefore (a b : Nat) : Bool := a ≠ b && (b + 2 ^ 32 - a) % 2 ^ 32 < 2 ^ 31

/-- The pending sets with `x`, ordered by period number; a decay set goes last. -/
def queueSet (x : GrantSet) : List GrantSet → List GrantSet
  | [] => [x]
  | h :: t => if !x.decay && pnumBefore x.pnum h.pnum then x :: h :: t else h :: queueSet x t

/-- DEPTH follows the pending sets. -/
def State.setSets (s : State) (l : List GrantSet) : State :=
  (s.setSal { s.sal with sets := l }).setFld Reg.SAL_APPLY_STAT F.SAL_APPLY_STAT_DEPTH l.length

/-- The set takes effect (R188): the eight ports change together, line 0x08 + o for each grant that changed. -/
def State.applySet (s : State) (x : GrantSet) : State :=
  let s := (List.range 8).foldl (fun s o =>
    let g := x.grants.getD o 0
    let was := s.fld (Reg.SAL_APPLIED o) F.SAL_APPLIED_GRANT
    let s := s.wrNat (Reg.SAL_APPLIED o) (x.pnum % 256 * 2 ^ 24 + g % 2 ^ 24)
    if was = g % 2 ^ 24 then s else s.line 0x03 (0x08 + o)) s
  s.setSal { s.sal with applied := x.pnum, appliedAt := some (s.now - 16 * (s.tbNs 0 - x.apply_)) }

/-- A set reaches the apply unit (R170, R189). -/
def State.takeSet (s : State) (x : GrantSet) : State :=
  if s.sal.mode = 0 then s
  else if x.apply_ < s.tbNs 0 then ((s.bump Reg.SAL_APPLY_STAT F.SAL_APPLY_STAT_LATE).note 0x03 0 0x05).applySet x
  else if 4 ≤ s.sal.sets.length then (s.setFlag Reg.SAL_APPLY_STAT F.SAL_APPLY_STAT_FULL true).note 0x03 0 0x07
  else s.setSets (queueSet x s.sal.sets)

end Sys2Proof.Machine
end

