-- ==== Sys2Proof/Machine/ZwidyOps.lean ====
section
/-!
DEFINITION. Machine/ZwidyOps.lean: frames, roles, quorum, the standby, swaps and ownership of the Zwidy engine
(R197 to R226).
-/
namespace Sys2Proof.Machine

/-- The number in the `n` little-endian bytes of a payload at `off`. -/
def fieldOf (p : List Byte) (off n : Nat) : Nat := leNat ((p.drop off).take n)

def State.zwCtrl (s : State) (f : Fld) : Nat := s.fld Reg.ZW_CTRL f
def State.zwAuth (s : State) : Bool := s.flag Reg.ZW_CTRL F.ZW_CTRL_AUTH
def State.epoch (s : State) : Nat := (s.rd Reg.ZW_EPOCH).toNat
def State.zwFlag (s : State) (f : Fld) : State := s.setFlag Reg.ZW_STATUS f true
def State.missLim (s : State) : Nat := orDefault (s.fld Reg.ZW_TIME F.ZW_TIME_MISS_LIM) 1
def State.takeMs (s : State) : Nat := s.fld Reg.ZW_TIME F.ZW_TIME_TAKE_MS * ticksPerMs
def State.listenMs (s : State) : Nat := s.fld Reg.ZW_HOLD F.ZW_HOLD_LISTEN_MS * ticksPerMs

/-- MISS_LIM periods in ticks. -/
def State.missTicks (s : State) : Nat := s.missLim * s.salPeriod * ticksPerNs

/-- The instant of TB[0] that frames give as seconds [31:0] and nanoseconds. -/
def State.frameNs (s : State) (sec ns : Nat) : Nat := (s.tbSec 0 / 2 ^ 32 * 2 ^ 32 + sec) * 1000000000 + ns

/-! Quorum (R208) -/

/-- A demand frame of cabinet c has been accepted within the last MISS_LIM periods. -/
def State.heard (s : State) (c : Nat) : Bool :=
  match Tab.get (fun _ => none) s.zw.heard c with
  | some t => s.now ≤ t + s.missTicks
  | none => false

def State.quorum (s : State) : Bool :=
  let n := s.zwCtrl F.ZW_CTRL_SITE_NM1 + 1
  n / 2 + 1 ≤ 1 + ((List.range 16).filter (fun c => c ≠ s.cab && s.heard c)).length

/-- The instant at which the leader last heard quorum, where it does not now (R208, R211): the last MISS_LIM periods after
the oldest of the latest demand frames that made the quorum, or the write of ZW_CTRL that raised it. -/
def State.quorumEnd (s : State) : Nat :=
  let need := (s.zwCtrl F.ZW_CTRL_SITE_NM1 + 1) / 2
  let ts := (List.range 16).filterMap (fun c => if c = s.cab then none else Tab.get (fun _ => none) s.zw.heard c)
  let kth := (ts.filter (fun t => need ≤ (ts.filter (fun u => t ≤ u)).length)).foldl max 0
  max (kth + s.missTicks) (s.zw.noQuorum.getD 0)

/-! Roles (R207, R209) -/

/-- The engine takes role r: SAL_CTRL.MODE matches it, line 0x02 where it changed. -/
def State.setRole (s : State) (r : Nat) : State :=
  let was := s.role
  let s := (s.setFld Reg.ZW_ROLE F.ZW_ROLE_ROLE r).salMode (modeOf r)
  if was = r then s else s.line 0x0E 0x02

/-- The swap in progress ends: GO reads 0. -/
def State.endSwap (s : State) : State :=
  (s.setZw { s.zw with swap := none }).setFlag Reg.ZW_SWAP F.ZW_SWAP_GO false

/-- The engine enters LISTEN for LISTEN_MS. -/
def State.enterListen (s : State) : State :=
  let s := s.setZw { s.zw with listenAt := some s.now, claimAt := none, takeAt := none, claim := false, noQuorum := none }
  s.endSwap.setRole roleListen

/-- Role Off (R207, R224). -/
def State.enterOff (s : State) : State :=
  let s := s.setZw { s.zw with listenAt := none, claimAt := none, takeAt := none, claim := false, noQuorum := none,
                                wait := [], got := false, miss := 0 }
  ((s.endSwap.setFlag Reg.ZW_ROLE F.ZW_ROLE_DECAY false).setFlag Reg.ZW_ROLE F.ZW_ROLE_HOLD false).setRole roleOff

/-- The engine becomes FOLLOWER or STANDBY of the frame's leader. -/
def State.followAs (s : State) (r : Nat) : State :=
  let s := s.setZw { s.zw with listenAt := none, claimAt := none, takeAt := none, claim := false, noQuorum := none }
  s.setRole r

/-- ZW_EPOCH + 1. -/
def State.nextEpoch (s : State) : State := s.wrNat Reg.ZW_EPOCH (s.epoch + 1)

/-- The first boundary after the present time. -/
def State.nextBoundary (s : State) : Nat := (s.tbNs 0 / s.salPeriod + 1) * s.salPeriod

/-- The engine leads from the next boundary (R209, R219, R220): the Saltern's MODE is set for it now, and takes effect no
earlier. -/
def State.claimNext (s : State) : State :=
  (s.nextEpoch.setZw { s.zw with claim := true, claimAt := none, listenAt := none, leadFrom := s.nextBoundary }).salMode 2

/-- The engine is LEADER (R207): it follows nobody, and it neither holds nor decays grants (R217). -/
def State.becomeLeader (s : State) : State :=
  let s := s.setZw { s.zw with claim := false, noQuorum := none, takeAt := none, decay := [] }
  let s := (s.setFlag Reg.ZW_ROLE F.ZW_ROLE_DECAY false).setFlag Reg.ZW_ROLE F.ZW_ROLE_HOLD false
  (s.setRole roleLeader).setFld Reg.ZW_ROLE F.ZW_ROLE_LEADER_CAB s.cab

/-- The takeover timer starts at MISS_LIM misses while the STANDBY hears quorum (R215). -/
def State.zwTakeTimer (s : State) : State :=
  if s.role = roleStandby ∧ s.quorum ∧ s.missLim ≤ s.zw.miss ∧ s.zw.takeAt.isNone ∧ !s.zw.claim then
    (s.setZw { s.zw with takeAt := some (s.now + s.takeMs) }).line 0x0E 0x04
  else s
/-! Frames (R197 to R203) -/

/-- The IV of a frame (R203). -/
def frameIv (p : List Byte) : List Byte := p.take 2 ++ (p.drop 0x0C).take 8 ++ [0, 0]

/-- The key of the frames: the AES-256 key in KEY_SLOT (R203, R400). -/
def State.zwKey (s : State) : Option (List Byte) :=
  (s.usable (s.zwCtrl F.ZW_CTRL_KEY_SLOT) useEnc userZwidy (fun a => a = 0x02)).map (·.key)

/-- A frame leaves on every port of PORTS (R197, R198); with AUTH it carries its TAG, and it is not sent while KEY_STALE is
1 or the key is absent (R203, R410). -/
def State.zwSend (s : State) (grant : Bool) (p : List Byte) : State :=
  let net := Reg.ZW_NET
  let go := fun q => s.emit (.zwidy (s.zwCtrl F.ZW_CTRL_PORTS) (s.fld net F.ZW_NET_ETYPE) (s.fld net F.ZW_NET_PCP)
    (s.fld net F.ZW_NET_VID) grant q)
  if s.zwCtrl F.ZW_CTRL_PORTS = 0 then s
  else if s.zwAuth then
    if s.flag Reg.ZW_STATUS F.ZW_STATUS_KEY_STALE then s
    else match s.zwKey with
      | some k => go (p ++ gcmTag k (frameIv p) p [])
      | none => s
  else go p

/-- A frame received on a port goes on out of the other port of a chain, unless it is back at its sender (R197). -/
def State.zwForward (s : State) (port etype : Nat) (grant : Bool) (p : List Byte) : State :=
  if s.zwCtrl F.ZW_CTRL_PORTS = 3 ∧ fieldOf p 1 1 ≠ s.cab then
    s.emit (.zwidy (2 - port) etype (s.fld Reg.ZW_NET F.ZW_NET_PCP) (s.fld Reg.ZW_NET F.ZW_NET_VID) grant p)
  else s

/-- The TAG of a payload of `n` bytes before it verifies, where AUTH is 1 (R202). -/
def State.tagOk (s : State) (p : List Byte) (n : Nat) : Bool :=
  !s.zwAuth || (match s.zwKey with
    | some k => p.drop n = gcmTag k (frameIv p) (p.take n) []
    | none => false)

/-- The form that R202 asks of every frame: EtherType, KIND, length, TAG, and a cabinet number of R199. -/
def State.frameOk (s : State) (etype kind n : Nat) (p : List Byte) : Bool :=
  etype = s.fld Reg.ZW_NET F.ZW_NET_ETYPE && fieldOf p 0 1 = kind && p.length = n + (if s.zwAuth then 16 else 0) &&
    fieldOf p 1 1 < 16 && s.tagOk p n

/-- The epoch of a frame is not below ZW_EPOCH (R202). -/
def State.epochOk (s : State) (p : List Byte) : Bool := s.epoch ≤ fieldOf p 4 4

/-- The reserved bits of a demand frame and of a grant frame are 0 (R199, R200). -/
def demandReserved (p : List Byte) : Bool :=
  fieldOf p 3 1 < 32 && fieldOf p 2 1 < 8 && fieldOf p 0x15 3 = 0 &&
    (List.range 8).all (fun o => fieldOf p (0x1C + 4 * o) 4 % 2 ^ 31 < 2 ^ 24)
def grantReserved (p : List Byte) : Bool :=
  fieldOf p 3 1 < 8 && fieldOf p 0x1F 1 = 0 && (List.range 128).all (fun i => fieldOf p (0x2C + 4 * i) 4 < 2 ^ 28)

/-- A frame is discarded (R202): counted, NOTE code 0x02. -/
def State.zwDiscard (s : State) (cell : Nat) : State :=
  ((s.bump Reg.ZW_CNT F.ZW_CNT_DISCARD).zwFlag F.ZW_STATUS_DISCARD).note 0x0E cell 0x02

/-- A frame has passed: the framers' error is over (R226). -/
def State.zwPassed (s : State) : State :=
  if s.zw.lost then (s.setZw { s.zw with lost := false }).recovers 0x0E 0x09 else s

/-- ZW_EPOCH holds the highest epoch of any frame accepted or sent (R212). -/
def State.sawEpoch (s : State) (e : Nat) : State := s.wrNat Reg.ZW_EPOCH (max s.epoch e)

/-! Demand frames (R199, R204) -/

/-- ZW_DEM[o] as it was 1 µs ago (R204). -/
def State.demandWord (s : State) (o : Nat) : Word :=
  match s.zw.late.find? (fun w => w.addr = Reg.ZW_DEM o && s.now < w.at_ + 16000) with
  | some w => w.old
  | none => s.rd (Reg.ZW_DEM o)

/-- A write of ZW_DEM[o]. -/
def State.zwDemWrite (s : State) (o : Nat) (v : Word) : State :=
  let a := Reg.ZW_DEM o
  (s.setZw { s.zw with late := s.zw.late.filter (fun w => s.now < w.at_ + 16000) ++ [⟨s.now, a, s.rd a⟩] }).wr a v

/-- The demands of cabinet c go to SAL_DEM in the roles LEADER and STANDBY; those that miss the deadline of R177 for their
boundary count as late. -/
def State.zwDemands (s : State) (c target : Nat) (dem : List Nat) : State :=
  if s.role = roleLeader ∨ s.role = roleStandby then
    let s := s.onBlk .saltern (fun s => (List.range 8).foldl (fun s o =>
      let w := dem.getD o 0
      s.salDemWrite (8 * c + o) (if bitOf w 31 then w % 2 ^ 24 else 0)) s)
    if target < s.tbNs 0 + 100 then
      ((s.bump Reg.ZW_CNT F.ZW_CNT_LATE_DEM).zwFlag F.ZW_STATUS_LATE_DEM).note 0x0E 0 0x03
    else s
  else s

/-- READY of this cabinet (R210): it may lead, its configuration is the leader's, and it accepted the last grant frame
that reached it. -/
def State.zwReady (s : State) : Bool :=
  s.flag Reg.ZW_CTRL F.ZW_CTRL_LEAD_CAP &&
    (s.role = roleLeader || (s.zw.leaderCrc = some (s.rd Reg.ZW_CFG_CRC).toNat && s.zw.tookLast))

/-- The payload of a demand frame for boundary b (R199). -/
def State.demandPayload (s : State) (b : Nat) (dem : List Nat) : List Byte :=
  let f := bit01 (s.flag Reg.ZW_ROLE F.ZW_ROLE_READY) + 2 * bit01 (s.flag Reg.ZW_ROLE F.ZW_ROLE_HOLD) +
    4 * bit01 (s.flag Reg.ZW_ROLE F.ZW_ROLE_DECAY) + 8 * bit01 (s.flag Reg.ZW_STATUS F.ZW_STATUS_CONFLICT) +
    16 * s.zwCtrl F.ZW_CTRL_LEAD_CAP
  leBytes 1 1 ++ leBytes 1 s.cab ++ leBytes 1 s.role ++ leBytes 1 f ++ leBytes 4 s.epoch ++ leBytes 4 s.sal.applied ++
    leBytes 4 (b / 1000000000) ++ leBytes 4 (b % 1000000000) ++ leBytes 1 (s.zwCtrl F.ZW_CTRL_PRIO) ++ leBytes 3 0 ++
    leBytes 4 (s.rd Reg.ZW_CFG_CRC).toNat ++ dem.flatMap (leBytes 4)

/-! Grant frames (R200, R205, R210, R219) -/

/-- Cabinet c may be named standby (R210, R220). -/
def State.canStandby (s : State) (c : Nat) : Bool :=
  c ≠ s.cab && s.flag (Reg.ZW_PEER c) F.ZW_PEER_SEEN && s.flag (Reg.ZW_PEER c) F.ZW_PEER_READY &&
    s.flag (Reg.ZW_PEER c) F.ZW_PEER_LEAD_CAP && s.heard c &&
    Tab.get (fun _ => 0) s.zw.crc c = (s.rd Reg.ZW_CFG_CRC).toNat && !bitOf (s.fld Reg.ZW_SWAP F.ZW_SWAP_EXCL) c

/-- The standby that the next grant frame names (R210). -/
def State.chooseStandby (s : State) : Nat :=
  let old := s.fld Reg.ZW_ROLE F.ZW_ROLE_STBY_CAB
  if old < 16 ∧ s.canStandby old then old
  else
    let prio := fun c => s.fld (Reg.ZW_PEER c) F.ZW_PEER_PRIO
    match ((List.range 16).filter s.canStandby).foldl (fun (best : Option Nat) c =>
        match best with
        | some b => if prio b < prio c then some c else some b
        | none => some c) none with
    | some c => c
    | none => 0xFF

/-- The payload of a grant frame (R200). -/
def State.grantPayload (s : State) (stby swapIn apply_ : Nat) : List Byte :=
  let st := s.rd Reg.SAL_EMRG_STAT
  let f := F.SAL_EMRG_STAT_ACT.get st + 2 * F.SAL_EMRG_STAT_PEND.get st + (if swapIn = 0 then 0 else 4)
  leBytes 1 2 ++ leBytes 1 s.cab ++ leBytes 1 stby ++ leBytes 1 f ++ leBytes 4 s.epoch ++
    leBytes 4 (s.rd Reg.SAL_PNUM).toNat ++ leBytes 4 (apply_ / 1000000000) ++ leBytes 4 (apply_ % 1000000000) ++
    leBytes 4 (s.rd Reg.SAL_LAST_B_S).toNat ++ leBytes 4 (s.rd Reg.SAL_LAST_B_NS).toNat ++
    leBytes 1 (s.rd Reg.SAL_ROT).toNat ++ leBytes 1 swapIn ++ leBytes 1 (s.rd Reg.SAL_EMRG_REL).toNat ++ leBytes 1 0 ++
    leBytes 4 (F.SAL_EMRG_STAT_E.get st) ++ leBytes 4 (s.rd Reg.SAL_EMRG_BASE).toNat ++
    leBytes 4 (s.rd Reg.ZW_CFG_CRC).toNat ++
    (List.range 128).flatMap (fun i => leBytes 4 (s.rd (Reg.SAL_GRANT i)).toNat)

/-- The leader sends the set that a solve of boundary b has published (R205), counting a swap down (R219): with the frame of
SWAP_IN = 1 the Saltern's MODE becomes 0b01 at the handover boundary. -/
def State.zwPublish (s : State) (b apply_ : Nat) : State :=
  s.onBlk .zwidy (fun s =>
    if s.role = roleLeader then
      let stby := s.chooseStandby
      let s := s.setFld Reg.ZW_ROLE F.ZW_ROLE_STBY_CAB stby
      let s := s.setFld Reg.ZW_ROLE F.ZW_ROLE_LEADER_CAB s.cab
      match s.zw.swap with
      | some w =>
        if w.bh.isSome then s
        else
          let s := s.zwSend true (s.grantPayload stby w.left apply_)
          if w.left = 1 then
            (s.setZw { s.zw with swap := some { left := 0, bh := some (b + s.salPeriod), cab := stby, epoch := s.epoch } }).salMode 1
          else s.setZw { s.zw with swap := some { w with left := w.left - 1 } }
      | none => s.zwSend true (s.grantPayload stby 0 apply_)
    else s)

/-- The STANDBY saves the state of a grant frame (R214). -/
def State.zwSave (s : State) (p : List Byte) : State :=
  s.onBlk .saltern (fun s =>
    let w := fun s a off n => State.salStateWrite s a (BitVec.ofNat 32 (fieldOf p off n))
    let s := (List.range 128).foldl (fun s i => w s (Reg.SAL_GRANT i) (0x2C + 4 * i) 4) s
    let s := w (w (w (w s Reg.SAL_ROT 0x1C 1) Reg.SAL_PNUM 8 4) Reg.SAL_LAST_B_S 0x14 4) Reg.SAL_LAST_B_NS 0x18 4
    let f := fieldOf p 3 1
    let st := f % 2 * 2 ^ 31 + f / 2 % 2 * 2 ^ 30 + fieldOf p 0x20 4 % 2 ^ 24
    let s := s.salStateWrite Reg.SAL_EMRG_STAT (BitVec.ofNat 32 st)
    w (w s Reg.SAL_EMRG_BASE 0x24 4) Reg.SAL_EMRG_REL 0x1E 1)

/-- The set of this cabinet in a grant frame. -/
def State.frameSet (s : State) (p : List Byte) : GrantSet :=
  { pnum := fieldOf p 8 4, apply_ := s.frameNs (fieldOf p 0x0C 4) (fieldOf p 0x10 4),
    grants := (List.range 8).map (fun o => fieldOf p (0x2C + 4 * (8 * s.cab + o)) 4 % 2 ^ 24), decay := false }

/-- The set of a grant frame is taken (R205, R213): alone it waits for its handover; a second one of the same LAST_B merges
with the first, whose merged set replaces it, or is handed over late and so applies at once where the first has been handed
over. The winner of R212 is judged by the epochs of the two frames. -/
def State.zwTakeSet (s : State) (c e lastB : Nat) (x : GrantSet) : State :=
  let plain := fun (s : State) =>
    s.setZw { s.zw with wait := s.zw.wait ++ [x], last := some { cab := c, epoch := e, lastB := lastB, set := x } }
  match s.zw.last with
  | some l =>
    if l.cab ≠ c ∧ l.lastB = lastB then
      let (pn, s) := if l.set.pnum = x.pnum then (x.pnum, s) else (s.freeNat % 2 ^ 32, s.took)
      let m : GrantSet := { pnum := pn, apply_ := min l.set.apply_ x.apply_,
                            grants := List.zipWith min l.set.grants x.grants, decay := false }
      let win := if l.epoch < e then (c, e) else if e < l.epoch then (l.cab, l.epoch) else (min c l.cab, e)
      let s := if s.zw.wait.contains l.set then
          s.setZw { s.zw with wait := s.zw.wait.map (fun y => if y = l.set then m else y) }
        else
          let s := s.setSets (s.sal.sets.filter (· ≠ l.set))
          s.setZw { s.zw with wait := { m with apply_ := min m.apply_ (s.tbNs 0 - 1) } :: s.zw.wait }
      let s := s.setZw { s.zw with winner := some win, last := some { cab := win.1, epoch := win.2, lastB := lastB, set := m } }
      ((s.zwFlag F.ZW_STATUS_CONFLICT).note 0x0E 1 0x04).line 0x0E 0x03
    else plain s
  | none => plain s

/-! Ownership (R223, R224) -/

/-- OWNED was `was` before a change of the claims: line 0x08, the outputs and the role follow; two claims conflict. -/
def State.ownership (s : State) (was : Bool) : State :=
  let both := s.flag Reg.ZW_CTRL F.ZW_CTRL_PAIR_EN && s.flag Reg.ZW_PAIR F.ZW_PAIR_CLAIM &&
    s.flag Reg.ZW_PAIR F.ZW_PAIR_PARTNER
  let fresh := both && !s.zw.both
  let s := s.setZw { s.zw with both := both }
  let s := if fresh then
      (s.setFlag Reg.ZW_PAIR F.ZW_PAIR_CONFLICT true).note 0x0E 0 0x08
    else s
  if s.owned = was then s
  else
    let s := (s.line 0x0E 0x08).ownedMoved
    if s.owned then (if s.flag Reg.ZW_CTRL F.ZW_CTRL_EN then s.enterListen else s) else s.enterOff

/-- ZW_CTRL is written: a rise of EN enters LISTEN in a device that owns, a fall ends the role (R207, R209). -/
def State.zwCtrlWrite (s : State) (data : Word) : State :=
  let en := s.flag Reg.ZW_CTRL F.ZW_CTRL_EN
  let was := s.owned
  let heard := s.quorum
  let s := (s.wr Reg.ZW_CTRL (data &&& 0xFF0F1F03)).ownership was
  let s := if heard && !s.quorum then s.setZw { s.zw with noQuorum := some s.now } else s
  let now := s.flag Reg.ZW_CTRL F.ZW_CTRL_EN
  if now ∧ !en then
    let s := (List.range 16).foldl (fun s c => s.wr (Reg.ZW_PEER c) (regReset (Reg.ZW_PEER c))) s
    let s := s.setZw { s.zw with heard := [], crc := [], targets := [], apply_ := [], tookLast := false, last := none, only := none, winner := none,
                                  grantAt := none, got := false, miss := 0, leaderCrc := none }
    if s.owned then s.enterListen else s.enterOff
  else if en ∧ !now then s.enterOff
  else s

/-- TB[0] is stepped back: with AUTH no frame is sent until the key is replaced (R203). The key is stale whatever AUTH is at
the step, for AUTH may have been 1 before and may be 1 again. -/
def State.zwTimeBack (s : State) : State := s.zwFlag F.ZW_STATUS_KEY_STALE

/-- A set is accepted at the boundary at which a decay set was formed: the decay set is not formed (R225). -/
def State.dropDecay (s : State) : State :=
  match s.boundaryNow with
  | some b =>
    let keep := fun (x : GrantSet) => !(x.decay && x.apply_ = b + s.salLead)
    let s := s.setSal { s.sal with hand := s.sal.hand.filter keep }
    if s.sal.sets.all keep then s else s.setSets (s.sal.sets.filter keep)
  | none => s

end Sys2Proof.Machine
end

