-- ==== Sys2Proof/Machine/TimeOps.lean ====
section
/-!
DEFINITION. Machine/TimeOps.lean: rates, sources and steps of the time bases, the timed outputs and the captures
(R229 to R246).
-/
namespace Sys2Proof.Machine

def State.tout (s : State) (k : Nat) : Tout := Tab.get (fun _ => Tout.reset) s.time.tout k
def State.setTout (s : State) (k : Nat) (x : Tout) : State :=
  s.setTime { s.time with tout := Tab.set (fun _ => Tout.reset) s.time.tout k x }
def State.tcap (s : State) (k : Nat) : Tcap := Tab.get (fun _ => Tcap.reset) s.time.tcap k
def State.setTcap (s : State) (k : Nat) (x : Tcap) : State :=
  s.setTime { s.time with tcap := Tab.set (fun _ => Tcap.reset) s.time.tcap k x }

/-! States and rates (R234, R236) -/

def tbFree : Nat := 0
def tbLocking : Nat := 1
def tbLocked : Nat := 2
def tbHoldover : Nat := 3
def tbHoldExp : Nat := 4

def State.tbState (s : State) (n : Nat) : Nat := s.fld (Reg.TB_STATE n) F.TB_STATE_ST

/-- A change of STATE raises line n (R248). -/
def State.setTbState (s : State) (n st : Nat) : State :=
  if s.tbState n = st then s else (s.setFld (Reg.TB_STATE n) F.TB_STATE_ST st).line 0x09 n

/-- Base n runs at rate `r`, and with it every base that follows it. -/
def State.tbRun (s : State) (n : Nat) (r : Int) : State :=
  [0, 1, 2, 3].foldl (fun s m =>
    if m = n ∨ (s.tb m).src = .follow n then s.setBase m ((s.tb m).withRate s.now r) else s) s

/-- The limit of RATE: ±1,000 ppm (R234). -/
def rateMax : Int := 1000000000

/-- A new RATE word of base n: beyond the limit it acts as the limit and sets RATE_CLAMP; a base that follows another runs
at the other's rate (R231, R234). -/
def State.tbRateWrite (s : State) (n : Nat) (v : Word) : State :=
  let s := s.wr (Reg.TB_RATE n) v
  let r := v.toInt
  let s := if r < -rateMax ∨ rateMax < r then s.setFlag (Reg.TB_STATE n) F.TB_STATE_RATE_CLAMP true else s
  match (s.tb n).src with
  | .follow _ => s
  | _ => s.tbRun n (clampInt (-rateMax) rateMax r)

/-- RATE set by the servo. -/
def State.tbServoRate (s : State) (n : Nat) (r : Int) : State := s.tbRateWrite n (BitVec.ofInt 32 r)

/-! Sources (R231) -/

/-- A base whose CFG says FOLLOW: it follows, or acts as SOFT at its last rate and sets SRC_ERR. -/
def State.tbFollow (s : State) (n : Nat) : State :=
  let f := s.fld (Reg.TB_CFG n) F.TB_CFG_FOLLOW
  let b := s.tb n
  if f = n ∨ s.fld (Reg.TB_CFG f) F.TB_CFG_SRC = 2 then
    (s.setTb n { b with src := .soft }).setFlag (Reg.TB_STATE n) F.TB_STATE_SRC_ERR true
  else if b.src = .follow f then s
  else s.setBase n { b.withRate s.now (s.tb f).rate with src := .follow f }

/-- Every base that says FOLLOW looks again at what it names. -/
def State.tbFollowers (s : State) : State :=
  [0, 1, 2, 3].foldl (fun s m => if s.fld (Reg.TB_CFG m) F.TB_CFG_SRC = 2 then s.tbFollow m else s) s

/-- A write of CFG of base n: the source takes effect; a new SRC makes the base FREE. -/
def State.tbCfgWrite (s : State) (n : Nat) (v : Word) : State :=
  let old := s.fld (Reg.TB_CFG n) F.TB_CFG_SRC
  let s := s.wr (Reg.TB_CFG n) v
  let src := s.fld (Reg.TB_CFG n) F.TB_CFG_SRC
  let b := s.tb n
  let taken := [0, 1, 2, 3].any (fun m => decide (m ≠ n) && decide ((s.tb m).src = .ptp))
  let err := fun (s : State) =>
    (s.setTb n { b with src := .soft }).setFlag (Reg.TB_STATE n) F.TB_STATE_SRC_ERR true
  let s := if src = 0 then s.setTb n { b with src := .soft }
    else if src = 1 then (if taken then err s else s.setTb n { b with src := .ptp })
    else if src = 2 then s
    else if src = 3 then s.setTb n { b with src := .can }
    else err s
  let s := s.tbFollowers
  if src = old then s
  else (s.setTbState n tbFree).setTb n { s.tb n with integ := 0, theta := [], rates := [], lockCnt := 0, holdAt := none }

/-! Timed outputs (R244, R245) -/

def State.toutTb (s : State) (k : Nat) : Nat := s.fld (Reg.TOUT_CFG k) F.TOUT_CFG_TB
def State.toutArmed (s : State) (k : Nat) : Bool := s.flag (Reg.TOUT_CFG k) F.TOUT_CFG_EN
def State.toutPer (s : State) (k : Nat) : Bool := s.flag (Reg.TOUT_CFG k) F.TOUT_CFG_PER

/-- The output goes active for the instant `at_` of its base (R248). -/
def State.toutRise (s : State) (k at_ : Nat) : State :=
  let x := s.tout k
  (s.setTout k { x with active := true, off := some (at_ + x.width), fired := true,
                        next := if s.toutPer k then some (at_ + x.period) else none }).line 0x09 (8 + k)

/-- The pulse that is due at the present time of the base: instants already passed are skipped, or a one-shot goes active at
once and is LATE (R245). `first` is the instant that was next. -/
def State.toutPlan (s : State) (k : Nat) : State :=
  let x := s.tout k
  let v := s.tbNs (s.toutTb k)
  if s.toutPer k then
    let j := if v ≤ x.start then 0 else (v - x.start + x.period - 1) / x.period
    let inst := x.start + j * x.period
    let skipped := match x.next with
      | some t => if t < inst then (inst - t) / x.period else 0
      | none => 0
    (s.setTout k { x with next := some inst }).bump (Reg.TOUT_STAT k) F.TOUT_STAT_MISS skipped
  else if x.fired then s
  else if x.start < v then (s.setFlag (Reg.TOUT_STAT k) F.TOUT_STAT_LATE true).toutRise k v
  else s.setTout k { x with next := some x.start }

/-- Arming: seconds [47:32] of START come from the base; a WIDTH of PERIOD or more acts as PERIOD − 8 ns (R244). A PERIOD
below the 100 ns of R249 acts as a free value. -/
def State.toutArm (s : State) (k : Nat) : State :=
  let sec := s.tbSec (s.toutTb k)
  let start := (sec / 2 ^ 32 * 2 ^ 32 + (s.rd (Reg.TOUT_START_S k)).toNat) * 1000000000 +
    (s.rd (Reg.TOUT_START_NS k)).toNat
  let p0 := (s.rd (Reg.TOUT_PERIOD k)).toNat
  let w0 := (s.rd (Reg.TOUT_WIDTH k)).toNat
  let per := s.toutPer k
  let low := per && p0 < 100
  let p := if low then 1 + s.freeNat else p0
  let clamp := per && p ≤ w0
  let w := if clamp then p - 8 else w0
  let s := if low then s.took else s
  let s := if clamp then s.setFlag (Reg.TOUT_STAT k) F.TOUT_STAT_CLAMP true else s
  (s.setTout k { s.tout k with start := start, period := p, width := w, fired := false,
                               next := if per then some start else none }).toutPlan k

/-- Disarming drives the output inactive and cuts its pulse (R244). -/
def State.toutStop (s : State) (k : Nat) : State :=
  s.setTout k { s.tout k with active := false, next := none, off := none }

/-- The level of pin TOUT[k] (R31, R244, R250): POL says which level is active; low while the Link region is not up. -/
def State.toutLevel (s : State) (k : Nat) : Bool :=
  s.up 0x09 && !s.flag (Reg.ERR_REG_STATUS 1) F.ERR_REG_STATUS_OPEN &&
    ((s.tout k).active != s.flag (Reg.TOUT_CFG k) F.TOUT_CFG_POL)

/-- A write of TOUT[k].CFG. -/
def State.toutCfgWrite (s : State) (k : Nat) (v : Word) : State :=
  let s := s.wr (Reg.TOUT_CFG k) v
  if s.toutArmed k then s.toutArm k else s.toutStop k

/-! Steps (R235) -/

/-- TB[0] is stepped: a boundary or a time tag that it meets from now on is met anew (R179, R256). -/
def State.boundariesAgain (s : State) : State :=
  ((s.setSal { s.sal with bound := none }).setZw { s.zw with bound := none, sampled := none, leadFrom := 0 }).setGrid
    { s.grid with tag := none, ms := none }

/-- The instants of a base, in 2^-16 ns: what values wrap at. -/
def tbSpan : Nat := 2 ^ 48 * tbSecond

/-- A capture on a base that steps by `by_` (R246): the edge in qualification is marked, and a stamp whose qualification ended
in this CK_NET cycle carries the stepped time. -/
def Tcap.stepBy (x : Tcap) (cyc by_ : Nat) : Tcap :=
  { x with edge := x.edge.map (fun e => { e with stepped := true }),
           fifo := x.fifo.map (fun t =>
             if t.cyc = cyc then { t with time := (t.time + by_) % tbSpan, stepped := true } else t) }

/-- The value of base n moves by `by_` (2^-16 ns, modulo its span): what a step does to the outputs and captures on the base,
to the boundaries and to the key of Zwidy (R179, R203, R245, R246). -/
def State.tbMove (s : State) (n by_ : Nat) : State :=
  let b := s.tb n
  let v := (s.tbVal n + by_) % tbSpan
  let back := v < s.tbVal n
  let cyc := s.now / ticksNet
  let s := s.setBase n { b.rebase s.now v b.rate with steps := b.steps + 1, stepCyc := some cyc, stepBy := by_ }
  let s := (List.range 8).foldl (fun s k => if s.toutArmed k ∧ s.toutTb k = n then s.toutPlan k else s) s
  let s := (List.range 8).foldl (fun s k =>
    if s.fld (Reg.TCAP_CFG k) F.TCAP_CFG_TB = n then s.setTcap k ((s.tcap k).stepBy cyc by_) else s) s
  if n = 0 then (let s := s.boundariesAgain; if back then s.zwTimeBack else s) else s

/-- Base n takes the value `v` in units of 2^-16 ns, as at a step: STEPPED and its event (R235). A base that follows it moves
with it, for its offset changes only by steps of its own (R231). -/
def State.tbJump (s : State) (n v : Nat) : State :=
  let by_ := (v % tbSpan + tbSpan - s.tbVal n) % tbSpan
  let s := (s.setTb n { s.tb n with step := none }).tbMove n by_
  let s := (s.setFlag (Reg.TB_STATE n) F.TB_STATE_STEPPED true).line 0x09 (4 + n)
  [0, 1, 2, 3].foldl (fun s m => if m ≠ n ∧ (s.tb m).src = .follow n then s.tbMove m by_ else s) s

/-- The value that a step gives a base: an absolute step has fraction 0, a relative one moves the base (R235). -/
def State.tbStepped (s : State) (n : Nat) (abs : Bool) (ns : Int) : Nat :=
  if abs then ns.toNat * 65536 % (2 ^ 48 * tbSecond)
  else ((s.tbVal n + ns * 65536) % (2 ^ 48 * tbSecond : Nat)).toNat

/-- The scheduled step applies. -/
def State.tbApply (s : State) (n : Nat) : State :=
  match (s.tb n).step with
  | some p => s.tbJump n (s.tbStepped n p.abs p.ns)
  | none => s

/-- GO: the step is scheduled; nanoseconds of 10^9 or more make it ignored (R235). -/
def State.tbGo (s : State) (n : Nat) (abs : Bool) : State :=
  let ns := s.fld (Reg.TB_STEP_NS n) F.TB_STEP_NS_VAL
  let sec := s.rd (Reg.TB_STEP_S n)
  if 1000000000 ≤ ns then s.setFlag (Reg.TB_STATE n) F.TB_STATE_SRC_ERR true
  else
    let t : Int := if abs then (s.fld (Reg.TB_STEP_SH n) F.TB_STEP_SH_VAL * 2 ^ 32 + sec.toNat) * 1000000000 + ns
      else sec.toInt * 1000000000 + ns
    (s.setTb n { s.tb n with step := some ⟨abs, t, s.now + 200 * ticksPerNs⟩ }).recoversCell 0x09 0x02 n

/-- The initiator may write the registers of base n that change time (R232): else LEGAL_IGN. -/
def State.tbMay (s : State) (n slot : Nat) (f : State → State) : State :=
  if n = 3 ∧ slot ≠ 8 then s.setFlag (Reg.TB_STATE n) F.TB_STATE_LEGAL_IGN true else f s

/-- T, the expected offset interval of base n, in ticks (R236): 2^LOG_SYNC s for PTP, PERIOD_MS of the disciplining CAN
controller, from 1 to 10,000 (R499), for CAN. -/
def State.tbInterval (s : State) (n : Nat) : Nat :=
  if (s.tb n).src = .can then
    min 10000 (orDefault (s.fld (Reg.CAN_REF_TIME (s.fld Reg.CAN_GLB F.CAN_GLB_TSYNC_CH)) F.CAN_REF_TIME_PERIOD_MS) 1) *
      ticksPerMs
  else
    let l := s.fld Reg.PTP_CTRL F.PTP_CTRL_LOG_SYNC
    if l < 8 then ticksPerS * 2 ^ l else ticksPerS / 2 ^ (16 - l)

end Sys2Proof.Machine
end

