-- ==== Sys2Proof/Machine/CanOps.lean ====
section
/-!
DEFINITION. Machine/CanOps.lean: frames and elements, error states, sending and receiving of the CAN controllers
(R483 to R496). The error counters follow ISO 11898-1, which R482 names.
-/
namespace Sys2Proof.Machine

def State.canCtl (s : State) (n : Nat) : CanCtl := Tab.get (fun _ => CanCtl.reset) s.can.ctl n
def State.setCanCtl (s : State) (n : Nat) (x : CanCtl) : State :=
  s.setCan { s.can with ctl := Tab.set (fun _ => CanCtl.reset) s.can.ctl n x }

def State.canOn (s : State) (n : Nat) : Bool := s.flag (Reg.CAN_CTRL n) F.CAN_CTRL_EN && !(s.canCtl n).failed
def State.canStat (s : State) (n : Nat) (f : Fld) : Bool := s.flag (Reg.CAN_STAT n) f
/-- 0 normal, 1 listen-only, 2 loopback; 3 acts as listen-only. -/
def State.canMode (s : State) (n : Nat) : Nat :=
  let m := s.fld (Reg.CAN_CTRL n) F.CAN_CTRL_MODE
  if m = 3 then 1 else m
/-- 1 master, 2 slave; 3 acts as off. -/
def State.canRole (s : State) (n : Nat) : Nat :=
  let r := s.fld (Reg.CAN_REF_CFG n) F.CAN_REF_CFG_ROLE
  if r = 3 then 0 else r
def State.canPend (s : State) (n : Nat) : Nat := s.fld (Reg.CAN_TXSTAT n) F.CAN_TXSTAT_PEND

/-- Pending buffers, which TXREQ shows too. -/
def State.setCanPend (s : State) (n m : Nat) : State :=
  (s.setFld (Reg.CAN_TXSTAT n) F.CAN_TXSTAT_PEND m).setFld (Reg.CAN_TXREQ n) F.CAN_TXREQ_REQ m

/-- ACT: joining, idle or sending (R499); what a controller receives is told by its commands. -/
def State.canAct (s : State) (n : Nat) : State :=
  let x := s.canCtl n
  s.setFld (Reg.CAN_STAT n) F.CAN_STAT_ACT (if !x.joined then 0 else if x.sending.isSome then 3 else 1)

/-! Elements (R485) -/

/-- Data bytes of a DLC. -/
def canLen (fdf : Bool) (dlc : Nat) : Nat :=
  if dlc ≤ 8 then dlc else if !fdf then 8 else [12, 16, 20, 24, 32, 48, 64].getD (dlc - 9) 64

def elemWord0 (f : CanFrame) : Nat :=
  bit01 f.esi * 2 ^ 31 + bit01 f.xtd * 2 ^ 30 + bit01 (f.rtr && !f.fdf) * 2 ^ 29 + f.id.toNat
def elemWord1 (f : CanFrame) (low : Nat) : Nat := low + bit01 f.fdf * 32 + bit01 f.brs * 16 + f.dlc.toNat

/-- The 80 bytes of an element: `low` holds NM and the filter, `ns` the stamp on TB[2]. -/
def elemBytes (f : CanFrame) (low ns : Nat) : List Byte :=
  let d := if f.rtr ∧ !f.fdf then [] else f.data.take (canLen f.fdf f.dlc.toNat)
  let l := leBytes 4 (elemWord0 f) ++ leBytes 4 (elemWord1 f low) ++ leBytes 4 (ns % 1000000000) ++
    leBytes 4 (ns / 1000000000) ++ d
  (l ++ List.replicate (80 - l.length) 0).take 80

/-- The frame of an element. -/
def elemFrame (l : List Byte) : CanFrame :=
  let w0 := leNat (l.take 4)
  let w1 := leNat ((l.drop 4).take 4)
  let fdf := bitOf w1 5
  ⟨BitVec.ofNat 29 w0, bitOf w0 30, bitOf w0 29, fdf, bitOf w1 4, bitOf w0 31, BitVec.ofNat 4 w1,
   (l.drop 16).take (canLen fdf (w1 % 16))⟩

def State.canBase (s : State) (n : Nat) : Nat := s.fld (Reg.CAN_RAM_BASE n) F.CAN_RAM_BASE_BASE * 256
def State.canRx (s : State) (n f e : Nat) : Nat := s.canBase n + 0x500 * f + 80 * e
def State.canTx (s : State) (n b : Nat) : Nat := s.canBase n + 0xA00 + 80 * b

/-- TB[2] in ns as it stood `ago` ns before now (R486). -/
def State.canStamp (s : State) (ago : Nat) : Nat :=
  ((s.tb 2).past s.now (s.now - ago * ticksPerNs)) / tbUnit / 65536

/-- The nominal and the data bit time in cycles of CK_FIELD (R483). -/
def State.canBit (s : State) (n : Nat) : Nat :=
  let r := Reg.CAN_NBT n
  (s.fld r F.CAN_NBT_NBRP + 1) * (3 + s.fld r F.CAN_NBT_NTSEG1 + s.fld r F.CAN_NBT_NTSEG2)
def State.canDataBit (s : State) (n : Nat) : Nat :=
  let r := Reg.CAN_DBT n
  (s.fld r F.CAN_DBT_DBRP + 1) * (3 + s.fld r F.CAN_DBT_DTSEG1 + s.fld r F.CAN_DBT_DTSEG2)

/-- `k` nominal bit times have passed since EN rose or bus-off was entered. -/
def State.canBits (s : State) (n k : Nat) : Bool :=
  (s.canCtl n).since + k * (s.canBit n * fieldCycle) ≤ s.now

/-- The frame in progress is given up: its buffer stays pending, a reference message queued (R487, R495). -/
def State.canDrop (s : State) (n : Nat) : State :=
  let x := s.canCtl n
  s.setCanCtl n { x with sending := none, refPend := x.refPend || x.sending.any (fun y => y.buf = 3) }

/-! Error states (R490) -/

/-- ECR and the flags of STAT follow the counters: entering error-passive raises NOTE code 0x02, a change line 0x0C + n. -/
def State.canErrSync (s : State) (n : Nat) : State :=
  let x := s.canCtl n
  let was := s.canStat n F.CAN_STAT_ERR_PASS
  let warn := s.canStat n F.CAN_STAT_ERR_WARN
  let pass := decide (128 ≤ x.tec) || decide (128 ≤ x.recCnt)
  let w := decide (96 ≤ x.tec) || decide (96 ≤ x.recCnt)
  let e := Reg.CAN_ECR n
  let s := ((s.setFld e F.CAN_ECR_TEC (min 255 x.tec)).setFld e F.CAN_ECR_REC (min 127 x.recCnt)).setFlag e F.CAN_ECR_RP
    (128 ≤ x.recCnt)
  let s := (s.setFlag (Reg.CAN_STAT n) F.CAN_STAT_ERR_PASS pass).setFlag (Reg.CAN_STAT n) F.CAN_STAT_ERR_WARN w
  let s := if pass ∧ !was then s.note 0x0C n 0x02 else s
  if pass ≠ was ∨ w ≠ warn then s.line 0x0C (0x0C + n) else s

/-- Bus-off (R490): sending stops, NOTE code 0x03. -/
def State.canBusOff (s : State) (n : Nat) : State :=
  if s.canStat n F.CAN_STAT_BUS_OFF then s
  else
    let s := s.canDrop n
    let s := s.setCanCtl n { s.canCtl n with joined := false, since := s.now }
    (((s.setFlag (Reg.CAN_STAT n) F.CAN_STAT_BUS_OFF true).note 0x0C n 0x03).line 0x0C (0x0C + n)).canAct n

/-- A bus error on the message RAM (R496): the controller stops, as with EN = 0. -/
def State.canRamError (s : State) (n : Nat) : State :=
  let s := s.canDrop n
  ((s.setCanCtl n { s.canCtl n with failed := true, rearmed := false, joined := false }).canAct n).contain 0x0C n 0x06

/-- A frame has passed: a controller enabled again after a bus error recovers (R496). -/
def State.canPassed (s : State) (n : Nat) : State :=
  if (s.canCtl n).rearmed then
    (s.setCanCtl n { s.canCtl n with rearmed := false }).recoversCell 0x0C 0x06 n
  else s

/-! Sending (R487, R489, R491, R493) -/

/-- The arbitration order of two frames under ISO 11898-1: the lower number wins. -/
def arbKey (f : CanFrame) : Nat :=
  let base := f.id.toNat / 2 ^ 18
  if f.xtd then base * 2 ^ 21 + 3 * 2 ^ 19 + f.id.toNat % 2 ^ 18 * 2 + bit01 (f.rtr && !f.fdf)
  else base * 2 ^ 21 + bit01 (f.rtr && !f.fdf) * 2 ^ 20

/-- CAN FD frames are allowed (R499). -/
def State.canFd (s : State) (n : Nat) : Bool := s.flag (Reg.CAN_CTRL n) F.CAN_CTRL_FD_EN

/-- A frame as the controller sends it (R482, R485, R499): bit-rate switching only where BRS_EN allows it, ESI also while
error-passive, no data in a remote frame. -/
def State.canShape (s : State) (n : Nat) (f : CanFrame) : CanFrame :=
  let rtr := f.rtr && !f.fdf
  { f with rtr := rtr, brs := f.fdf && f.brs && s.flag (Reg.CAN_CTRL n) F.CAN_CTRL_BRS_EN,
           esi := f.fdf && (f.esi || s.canStat n F.CAN_STAT_ERR_PASS), data := if rtr then [] else f.data }

/-- The frame of transmit buffer b, as it stands. -/
def State.canFrame (s : State) (n b : Nat) : CanFrame := elemFrame (s.bytes (s.canTx n b) 80)

/-- The pending buffer offered first; an FD frame waits while FD_EN is 0. -/
def State.canChoice (s : State) (n : Nat) : Option Nat :=
  let l := (List.range 3).filter (fun b => bitOf (s.canPend n) b && (s.canFd n || !(s.canFrame n b).fdf))
  if s.flag (Reg.CAN_CTRL n) F.CAN_CTRL_TX_ORD then l.head?
  else l.foldl (fun best b => match best with
    | some c =>
      let k := fun x => arbKey (s.canFrame n x)
      if k b < k c then some b else best
    | none => some b) none

/-- The reference message of a master (R492, R493): `prev` is the stamp of the one before, valid without a step since. -/
def State.refFrame (s : State) (n : Nat) : CanFrame :=
  let cfg := Reg.CAN_REF_CFG n
  let seq := (s.fld (Reg.CAN_REF_STAT n) F.CAN_REF_STAT_SEQ + 1) % 256
  let ok := match (s.canCtl n).refSent with | some (_, k) => decide (k = (s.tb 2).steps) | none => false
  let t := match (s.canCtl n).refSent with | some (t, _) => t | none => 0
  let d := leBytes 1 seq ++ leBytes 1 (bit01 ok) ++ leBytes 6 (t / 1000000000) ++ leBytes 4 (t % 1000000000)
  ⟨BitVec.ofNat 29 (s.fld cfg F.CAN_REF_CFG_REF_ID), s.flag cfg F.CAN_REF_CFG_XTD, false, true, false, false, 9, d⟩

/-- An idle controller that may send offers its next frame, read now (R487, R488). -/
def State.canOffer (s : State) (n : Nat) : State :=
  let x := s.canCtl n
  if !s.canOn n || !x.joined || !s.dmaRoom 15 || x.sending.isSome || s.canMode n = 1 || s.canStat n F.CAN_STAT_STUCK ||
      s.canStat n F.CAN_STAT_BUS_OFF then s
  else if x.refPend && s.canFd n then
    (s.setCanCtl n { x with sending := some ⟨3, s.canShape n (s.refFrame n)⟩, refPend := false }).canAct n
  else
    match s.canChoice n with
    | some b =>
      let r := s.readBlock 15 (s.canTx n b) 80
      let s := r.2
      if r.1 then
        (s.setCanCtl n { s.canCtl n with sending := some ⟨b, s.canShape n (s.canFrame n b)⟩ }).canAct n
      else s.canRamError n
    | none => s

/-- A buffer has ended (R487, R488): no longer pending, DONE or FAIL, line 0x08 + n. -/
def State.canEnded (s : State) (n b : Nat) (done : Bool) : State :=
  let s := s.setCanPend n (withBit (s.canPend n) b false)
  let f := if done then F.CAN_TXSTAT_DONE else F.CAN_TXSTAT_FAIL
  (s.setBit (Reg.CAN_TXSTAT n) f b true).line 0x0C (8 + n)

/-! Receiving (R484, R485, R494) -/

/-- The bits of an identifier that a format has. -/
def idMask (xtd : Bool) : Nat := if xtd then 2 ^ 29 - 1 else 2 ^ 29 - 2 ^ 18

/-- Filter k matches the frame. -/
def State.filterHit (s : State) (n k : Nat) (f : CanFrame) : Bool :=
  let a := Reg.CAN_FLT_ID n k
  let m := BitVec.ofNat 29 (s.fld (Reg.CAN_FLT_MASK n k) F.CAN_FLT_MASK_MASK) &&& BitVec.ofNat 29 (idMask f.xtd)
  s.flag a F.CAN_FLT_ID_EN && s.flag a F.CAN_FLT_ID_XTD = f.xtd &&
    (f.id ^^^ BitVec.ofNat 29 (s.fld a F.CAN_FLT_ID_ID)) &&& m = 0

/-- The FIFO that takes the frame, and the NM and filter bits of its element. -/
def State.canRoute (s : State) (n : Nat) (f : CanFrame) : Option (Nat × Nat) :=
  match (List.range 32).find? (fun k => s.filterHit n k f) with
  | some k => some (s.fld (Reg.CAN_FLT_ID n k) F.CAN_FLT_ID_FIFO, k * 2 ^ 8)
  | none =>
    let a := s.fld (Reg.CAN_FLT_CFG n) F.CAN_FLT_CFG_ACC_NM
    if a = 1 then some (0, 2 ^ 13) else if a = 2 then some (1, 2 ^ 13) else none

/-- The frame enters FIFO f, or is discarded where it holds 16 elements (R485). -/
def State.canStore (s : State) (n f low ns : Nat) (x : CanFrame) : State :=
  let r := Reg.CAN_RXF n f
  if 16 ≤ s.fld r F.CAN_RXF_FILL then (s.bump r F.CAN_RXF_LOST).note 0x0C n 0x04
  else
    let a := s.canRx n f (s.fld r F.CAN_RXF_PUT)
    if sramRange a 80 then
      let s := s.writeBlock a (elemBytes x low ns)
      let s := s.setFld r F.CAN_RXF_PUT ((s.fld r F.CAN_RXF_PUT + 1) % 16)
      (s.setFld r F.CAN_RXF_FILL (s.fld r F.CAN_RXF_FILL + 1)).line 0x0C (4 * f + n)
    else (s.dmaRefused 15 a true).canRamError n

/-- The frame is a reference message for this slave (R492, R494). -/
def State.isRef (s : State) (n : Nat) (f : CanFrame) : Bool :=
  let c := Reg.CAN_REF_CFG n
  s.canRole n = 2 && f.fdf && f.dlc = 9 && f.xtd = s.flag c F.CAN_REF_CFG_XTD &&
    (f.id ^^^ BitVec.ofNat 29 (s.fld c F.CAN_REF_CFG_REF_ID)) &&& BitVec.ofNat 29 (idMask f.xtd) = 0

/-- A slave accepts a reference message (R494): its offset goes to TB[2]. -/
def State.refAccept (s : State) (n ns : Nat) (f : CanFrame) : State :=
  let x := s.canCtl n
  let seq := leNat (f.data.take 1)
  let valid := bitOf (leNat ((f.data.drop 1).take 1)) 0
  let master := leNat ((f.data.drop 2).take 6) * 1000000000 + leNat ((f.data.drop 8).take 4)
  let s : State := match x.refGot with
    | some (k, local_) =>
      if seq = (k + 1) % 256 then
        let θ := local_ - master - s.fld (Reg.CAN_REF_TIME n) F.CAN_REF_TIME_DELAY_NS
        if valid ∧ (s.tb 2).src = .can ∧ s.fld Reg.CAN_GLB F.CAN_GLB_TSYNC_CH = n then
          s.setTb 2 { s.tb 2 with theta := (s.tb 2).theta ++ [θ] }
        else s
      else s.bump (Reg.CAN_REF_STAT n) F.CAN_REF_STAT_MISSED
    | none => s
  let s := s.setCanCtl n { s.canCtl n with refGot := some (seq, ns) }
  (s.setFld (Reg.CAN_REF_STAT n) F.CAN_REF_STAT_SEQ seq).line 0x0C (0x10 + n)

/-- A valid frame, stamped `ns` on TB[2] (R484, R485, R494). -/
def State.canReceive (s : State) (n ns : Nat) (f : CanFrame) : State :=
  let s := s.canPassed n
  if s.isRef n f then s.refAccept n ns f
  else
    match s.canRoute n f with
    | some (k, low) => s.canStore n k low ns f
    | none => s

/-- PERIOD_MS as it acts, in ns (R499). -/
def State.refPeriod (s : State) (n : Nat) : Nat :=
  min 10000 (orDefault (s.fld (Reg.CAN_REF_TIME n) F.CAN_REF_TIME_PERIOD_MS) 1) * 1000000

/-- A write of CTRL (R483, R490, R495, R496): EN falls and the controller stops, what it sends is aborted and stays pending;
EN rises and it joins the bus anew. Entering listen-only mode, it stops sending (R489). -/
def State.canCtrlWrite (s : State) (n : Nat) (v : Word) : State :=
  let was := s.flag (Reg.CAN_CTRL n) F.CAN_CTRL_EN
  let s := s.wr (Reg.CAN_CTRL n) v
  let now := s.flag (Reg.CAN_CTRL n) F.CAN_CTRL_EN
  let x := s.canCtl n
  if was ∧ !now then
    let s := s.canDrop n
    (s.setCanCtl n { s.canCtl n with joined := false }).canAct n
  else if now ∧ !was then
    let s := s.setCanCtl n { x with joined := false, since := s.now, sending := none, tec := 0, recCnt := 0, failed := false,
                                    rearmed := x.failed, refGot := none }
    ((s.setFlag (Reg.CAN_STAT n) F.CAN_STAT_BUS_OFF false).canErrSync n).canAct n
  else if s.canMode n = 1 then (s.canDrop n).canAct n
  else s.canOffer n

end Sys2Proof.Machine
end

