-- ==== Sys2Proof/Machine/CanCommands.lean ====
section
/-!
DEFINITION. Machine/CanCommands.lean: the commands of the CAN controllers (R483 to R494).
-/
namespace Sys2Proof.Machine

/-- The bits that CAN CTRL holds (R499). -/
def canCtrlMask : Word := 0xFDC00000

/-- CAN_ENABLE: CTRL of CAN[n] is written (R483). -/
def execCanEnable (n : Fin 4) (data : Word) (s : State) : Host.Outcome State Fault Refusal :=
  .next (s.onBlk .can (fun s => s.canCtrlWrite n.val (data &&& canCtrlMask)))

/-- CAN_BUS_JOIN: 11 consecutive recessive bits after EN rose (R483). -/
def execCanBusJoin (n : Fin 4) (s : State) : Host.Outcome State Fault Refusal :=
  .next (s.onBlk .can (fun s =>
    let n := n.val
    if s.canOn n ∧ !(s.canCtl n).joined ∧ !s.canStat n F.CAN_STAT_BUS_OFF ∧ s.canBits n 11 then
      ((s.setCanCtl n { s.canCtl n with joined := true }).canAct n).canOffer n
    else s))

/-- CAN_FRAME_RX: a frame of another node becomes valid; the sample point of its start of frame lay `ago` ns before now
(R484 to R486, R494). REC falls as ISO 11898-1 gives: from 128 or more to a value between 119 and 127 that the standard
leaves open. -/
def execCanFrameRx (n : Fin 4) (f : CanFrame) (ago : BitVec 32) (s : State) : Host.Outcome State Fault Refusal :=
  .next (s.onBlk .can (fun s =>
    let n := n.val
    let x := s.canCtl n
    if !s.canOn n || !x.joined || !s.dmaRoom 15 || s.canMode n = 2 || s.canStat n F.CAN_STAT_BUS_OFF ||
        (f.fdf && !s.canFd n) then s
    else
      let rec' := if 127 < x.recCnt then 119 + s.freeNat % 9 else x.recCnt - 1
      let s := if s.canMode n = 0 then ((s.setCanCtl n { x with recCnt := rec' }).took).canErrSync n else s
      s.canReceive n (s.canStamp ago.toNat) f))

/-- GET of FIFO f is written forward (R485). -/
def State.canRelease (s : State) (n f get : Nat) : State :=
  let r := Reg.CAN_RXF n f
  let freed := (get + 16 - s.fld r F.CAN_RXF_GET) % 16
  (s.setFld r F.CAN_RXF_FILL (s.fld r F.CAN_RXF_FILL - freed)).setFld r F.CAN_RXF_GET get

/-- CAN_FIFO_RELEASE: GET of FIFO f is written forward (R485). -/
def execCanFifoRelease (n : Fin 4) (f : Fin 2) (get : BitVec 4) (s : State) : Host.Outcome State Fault Refusal :=
  .next (s.onBlk .can (fun s => s.canRelease n.val f.val get.toNat))

/-- The bits written 1 queue their buffers (R487), those not that TXCAN names in the same cycle (R488). -/
def State.canRequest (s : State) (n : Nat) (req : BitVec 3) : State :=
  let x := s.canCtl n
  let pend := BitVec.ofNat 3 (s.canPend n)
  let new := req &&& ~~~pend &&& ~~~(if s.thisCycle x.canAt then x.canBits else 0)
  let s := s.setCanCtl n { x with reqAt := some s.now, reqBits := (if s.thisCycle x.reqAt then x.reqBits else 0) ||| new }
  (s.setCanPend n (pend ||| new).toNat).canOffer n

/-- CAN_TXREQ: the bits written 1 queue their buffers (R487). -/
def execCanTxreq (n : Fin 4) (req : BitVec 3) (s : State) : Host.Outcome State Fault Refusal :=
  .next (s.onBlk .can (fun s => s.canRequest n.val req))

/-- The bits written 1 remove the buffers that have not started transmission; a buffer that TXREQ names in the same cycle is
not queued (R488). -/
def State.canCancel (s : State) (n : Nat) (can : BitVec 3) : State :=
  let x := s.canCtl n
  let fresh := if s.thisCycle x.reqAt then x.reqBits else 0
  let s := s.setCanCtl n { x with canAt := some s.now, canBits := (if s.thisCycle x.canAt then x.canBits else 0) ||| can }
  ([0, 1, 2].foldl (fun s b =>
    let sends := (s.canCtl n).sending.map (·.buf) = some b
    if !bitOf can.toNat b || !bitOf (s.canPend n) b then s
    else if fresh.getLsbD b then
      let s := if sends then (s.canDrop n).canAct n else s
      s.setCanPend n (withBit (s.canPend n) b false)
    else if sends then s
    else s.canEnded n b false) s).canOffer n

/-- CAN_TXCAN: the bits written 1 remove the buffers that have not started transmission (R488). -/
def execCanTxcan (n : Fin 4) (can : BitVec 3) (s : State) : Host.Outcome State Fault Refusal :=
  .next (s.onBlk .can (fun s => s.canCancel n.val can))

/-- What the success of a transmission leaves (R486, R487, R493): the stamp of its start of frame, DONE or the sequence
number of the reference message, a lower TEC, and in loopback the reception of the frame. -/
def State.canSent (s : State) (n ago : Nat) (x : CanSend) : State :=
  let ns := s.canStamp ago
  let c := s.canCtl n
  let s := s.setCanCtl n { c with sending := none, tec := if s.canMode n = 0 then c.tec - 1 else c.tec }
  let s := (s.canErrSync n).canPassed n
  let s := if s.canMode n = 0 then
      s.emit (.can n x.frame (s.canBit n) (if x.frame.brs then s.canDataBit n else s.canBit n)) else s
  let s := if x.buf = 3 then
      let seq := leNat (x.frame.data.take 1)
      let s := s.setCanCtl n { s.canCtl n with refSent := some (ns, (s.tb 2).steps) }
      (s.setFld (Reg.CAN_REF_STAT n) F.CAN_REF_STAT_SEQ seq).line 0x0C (0x10 + n)
    else if sramRange (s.canTx n x.buf) 80 then
      (s.writeBlock (s.canTx n x.buf + 8) (leBytes 4 (ns % 1000000000) ++ leBytes 4 (ns / 1000000000))).canEnded n x.buf true
    else (s.dmaRefused 15 (s.canTx n x.buf + 8) true).canRamError n
  if s.canMode n = 2 then s.canReceive n ns x.frame else s

/-- CAN_TX_COMPLETE: the transmission in progress succeeds, or loses arbitration or meets an error: then it is retried, or
with DAR it ends with FAIL (R487). -/
def execCanTxComplete (n : Fin 4) (ok : Bool) (ago : BitVec 32) (s : State) : Host.Outcome State Fault Refusal :=
  .next (s.onBlk .can (fun s =>
    let n := n.val
    if !s.dmaRoom 15 then s
    else
    match (s.canCtl n).sending with
    | some x =>
      let s := if ok then s.canSent n ago.toNat x
        else
          if s.flag (Reg.CAN_CTRL n) F.CAN_CTRL_DAR then
            let s := s.setCanCtl n { s.canCtl n with sending := none }
            (if x.buf = 3 then s else s.canEnded n x.buf false)
          else s.canDrop n
      (s.canAct n).canOffer n
    | none => s))

/-- CAN_BUS_OFF: the controller enters bus-off (R490). -/
def execCanBusOff (n : Fin 4) (s : State) : Host.Outcome State Fault Refusal :=
  .next (s.onBlk .can (fun s => if s.canOn n.val then s.canBusOff n.val else s))

/-- CAN_BUS_OFF_RECOVERY: 128 occurrences of 11 recessive bits with AUTO_REC = 1 (R490). -/
def execCanBusOffRecovery (n : Fin 4) (s : State) : Host.Outcome State Fault Refusal :=
  .next (s.onBlk .can (fun s =>
    let n := n.val
    if s.canOn n ∧ s.canStat n F.CAN_STAT_BUS_OFF ∧ s.flag (Reg.CAN_CTRL n) F.CAN_CTRL_AUTO_REC ∧ s.canBits n (128 * 11) then
      let s := s.setCanCtl n { s.canCtl n with tec := 0, recCnt := 0, joined := true }
      let s := ((s.setFlag (Reg.CAN_STAT n) F.CAN_STAT_BUS_OFF false).line 0x0C (0x0C + n)).canErrSync n
      (s.canAct n).canOffer n
    else s))

/-- What makes CAN_RX[n] stuck is more than this (R491): edges within 100 µs, or CK_FIELD cycles dominant. -/
def State.canLimit (s : State) (n : Nat) (edges : Bool) : Nat :=
  if edges then s.fld (Reg.CAN_ROBUST n) F.CAN_ROBUST_RATE_LIM
  else s.fld (Reg.CAN_ROBUST n) F.CAN_ROBUST_DOM_LIM * 16 * s.canBit n

/-- CAN_RX_STUCK: CAN_RX[n] has shown `count` edges within 100 µs, or has been dominant for `count` CK_FIELD cycles: more than
RATE_LIM, or than DOM_LIM × 16 nominal bit times (R491). A limit of 0 disables its check. -/
def execCanRxStuck (n : Fin 4) (edges : Bool) (count : Nat) (s : State) : Host.Outcome State Fault Refusal :=
  .next (s.onBlk .can (fun s =>
    let n := n.val
    let lim := s.canLimit n edges
    if s.canOn n ∧ lim ≠ 0 ∧ lim < count ∧ !s.canStat n F.CAN_STAT_STUCK then
      let s := s.canDrop n
      ((s.setFlag (Reg.CAN_STAT n) F.CAN_STAT_STUCK true).note 0x0C n 0x05).canAct n
    else s))

/-- 1 is written to STUCK; refused while the condition still holds (R491). -/
def State.canUnstick (s : State) (n : Nat) (holds : Bool) : State :=
  if holds then s else (s.setFlag (Reg.CAN_STAT n) F.CAN_STAT_STUCK false).canOffer n

/-- CAN_STUCK_CLEAR: 1 is written to STUCK; refused while the condition still holds (R491). -/
def execCanStuckClear (n : Fin 4) (holds : Bool) (s : State) : Host.Outcome State Fault Refusal :=
  .next (s.onBlk .can (fun s => s.canUnstick n.val holds))

/-- CAN_REF_INSTANT: TB[2] reaches a whole multiple of PERIOD_MS: a master queues a reference message in place of one still
pending (R493). -/
def execCanRefInstant (n : Fin 4) (s : State) : Host.Outcome State Fault Refusal :=
  .next (s.onBlk .can (fun s =>
    let n := n.val
    let p := s.refPeriod n
    let t := s.tbNs 2
    let at_ := (t / p, (s.tb 2).steps)
    if s.canRole n = 1 ∧ s.canOn n ∧ t % p ≤ 20 ∧ (s.canCtl n).refAt ≠ some at_ then
      (s.setCanCtl n { s.canCtl n with refPend := true, refAt := some at_ }).canOffer n
    else s))

/-- CAN_BUS_ERROR: an error in a frame moves TEC or REC by the rules of ISO 11898-1 and may make the controller error-passive
or bus-off; listen-only mode leaves the counters (R482, R489, R490). -/
def execCanBusError (n : Fin 4) (lec : BitVec 3) (err : CanErr) (s : State) : Host.Outcome State Fault Refusal :=
  .next (s.onBlk .can (fun s =>
    let n := n.val
    if !s.canOn n ∨ s.canStat n F.CAN_STAT_BUS_OFF then s
    else
      let s := s.setFld (Reg.CAN_STAT n) F.CAN_STAT_LEC lec.toNat
      if s.canMode n = 1 then s
      else
        let x := s.canCtl n
        let y : CanCtl := match err with
          | .rx => { x with recCnt := min 255 (x.recCnt + 1) }
          | .rxDominant => { x with recCnt := min 255 (x.recCnt + 8) }
          | .tx => { x with tec := x.tec + 8 }
          | .exempt => x
        let s := (s.setCanCtl n y).canErrSync n
        if 256 ≤ y.tec then s.canBusOff n else s))

end Sys2Proof.Machine
end

