-- ==== Sys2Proof/Machine/LoadSwitches.lean ====
section
/-!
DEFINITION. Machine/LoadSwitches.lean: the commands of the load switches (R445 to R459, R533).
-/
namespace Sys2Proof.Machine

/-- ON[n] is written `b` (R445, R446): 0 returns a LATCHED channel to OFF, and a FUSED one only at a LEVEL of 20 % or less. -/
def State.onWrite (s : State) (n : Nat) (b : Bool) : State :=
  let was := (s.sw n).hold.getD (s.wanted n)
  let s := (s.setBit Reg.HS_ON F.HS_ON_VAL n b).setSw n { s.sw n with hold := none }
  let s := if b then s
    else if s.hsState n = hsLatched then (s.hsGoes n hsOff).setRcnt n 0
    else if s.hsState n = hsFused then
      if s.fuseLevel n ≤ 20 then (s.hsGoes n hsOff).setRcnt n 0
      else s.setFlag (Reg.HS_STAT n) F.HS_STAT_REFUSED true
    else s
  let s := s.hsCommand n was
  if !b && s.therm n && s.hsState n = hsOff then (s.setRcnt n 0).setSw n { s.sw n with thermTrip := false } else s

/-- The ON bits of `mask` are written with those of `data`. -/
def State.onWrites (s : State) (mask data : Nat) : State :=
  (List.range 16).foldl (fun s n => if bitOf mask n then s.onWrite n (bitOf data n) else s) s

/-- The overcurrent trip is counted (R448). -/
def State.hsTrip (s : State) (n : Nat) : State :=
  let s := (s.setFlag (Reg.HS_STAT n) F.HS_STAT_OC_SEEN true).note 0x1A n 0x02
  let s := (s.line 0x1A n).setSw n { s.sw n with tripAt := some s.now }
  let c := s.rcnt n
  if s.fld (Reg.HS_CFG n) F.HS_CFG_RETRY_N ≤ c then
    ((s.hsGoes n hsLatched).note 0x1A n 0x03).line 0x1A (0x10 + n)
  else
    let s := (s.hsGoes n hsRetry).setRcnt n (c + 1)
    let s := s.setSw n { s.sw n with
      retryAt := some (s.now + orDefault (s.fld (Reg.HS_CFG n) F.HS_CFG_RETRY_MS) 1 * (10 * ticksPerMs)) }
    s.hsRefresh n

/-- A trip counted in this cycle of CK_FIELD gives way to a thermal latch or a fuse trip (R457): the channel is ON with the RCNT
it had. -/
def State.hsUntrip (s : State) (n : Nat) : State :=
  if s.thisCycle (s.sw n).tripAt ∧ (s.hsState n = hsRetry ∨ s.hsState n = hsLatched) then
    let s := if s.hsState n = hsRetry then s.setRcnt n (s.rcnt n - 1) else s
    (s.setFld (Reg.HS_STAT n) F.HS_STAT_STATE hsOn).setSw n { s.sw n with tripAt := none, retryAt := none }
  else s

/-- T_LATCH of a channel in 0.1 °C, within the limits of R460. -/
def tLatch (n : Nat) : Int := (1600 + Config.tLatch n % 301 : Nat)

/-- HS_ON_WRITE: every ON bit is written (R445, R446). -/
def execHsOnWrite (data : BitVec 16) (s : State) : Host.Outcome State Fault Refusal :=
  .next (s.onBlk .loadSwitch (fun s => s.onWrites 0xFFFF data.toNat))

/-- HS_ON_SET: the bits written 1 set their ON bits (R461). -/
def execHsOnSet (mask : BitVec 16) (s : State) : Host.Outcome State Fault Refusal :=
  .next (s.onBlk .loadSwitch (fun s => s.onWrites mask.toNat 0xFFFF))

/-- HS_ON_CLR: the bits written 1 clear their ON bits (R446, R461). -/
def execHsOnClr (mask : BitVec 16) (s : State) : Host.Outcome State Fault Refusal :=
  .next (s.onBlk .loadSwitch (fun s => s.onWrites mask.toNat 0))

/-- HS_OVERCURRENT_TRIP: the channel has been in current limit for `us` µs; 50 µs outside the inrush window trip it, and so does
the end of a window that finds it in current limit (R447, R448). The thermal latch wins (R450). -/
def execHsOvercurrentTrip (n : Fin 16) (us : Nat) (s : State) : Host.Outcome State Fault Refusal :=
  let e := (s.sw n.val).inrushEnd
  .next (if s.domUp 5 ∧ s.hsDriving n.val ∧ e ≤ s.now ∧ (50 ≤ us ∨ s.now < e + us * ticksPerUs) then s.hsTrip n.val else s)

/-- HS_RETRY: RETRY_MS has elapsed with the drive at 1 (R445). -/
def execHsRetry (n : Fin 16) (s : State) : Host.Outcome State Fault Refusal :=
  .next (if s.domUp 5 ∧ s.hsState n.val = hsRetry ∧ s.reached (s.sw n.val).retryAt ∧ !s.hs.overV ∧ (s.sw n.val).drive
    then (s.setSw n.val { s.sw n.val with retried := some s.now }).hsTurnOn n.val else s)

/-- HS_FUSE_TRIP: the current since the last measurement is `ma`, and the switch temperature `temp` (R452); the integrator takes
the current, and at I2T the channel turns off, FUSED, with NOTE code 0x04 (R449, R457, R459). -/
def execHsFuseTrip (n : Fin 16) (ma temp : BitVec 16) (s : State) : Host.Outcome State Fault Refusal :=
  .next (if s.domUp 5 then
      let s := (s.setFld (Reg.HS_MEAS n.val) F.HS_MEAS_I_MA ma.toNat).current n.val ma.toNat
      let s := s.setFld (Reg.HS_MEAS n.val) F.HS_MEAS_TEMP temp.toNat
      if fuseLimit (s.fuseOf n.val).2 ≤ (s.sw n.val).fuse ∧ s.hsState n.val ≠ hsFused then
        let s := s.hsUntrip n.val
        ((s.hsGoes n.val hsFused).note 0x1A n.val 0x04).line 0x1A n.val |>.line 0x1A (0x10 + n.val)
      else s
    else s)

/-- HS_THERMAL_LATCH: the switch reaches T_LATCH: off, THERM, NOTE code 0x05; the retry wait freezes (R450). `limit` says that
the channel was in current limit; so it was where an overcurrent trip meets the latch (R457). -/
def execHsThermalLatch (n : Fin 16) (temp : BitVec 16) (limit : Bool) (s : State) : Host.Outcome State Fault Refusal :=
  .next (if s.domUp 5 ∧ !s.therm n.val ∧ tLatch n.val ≤ temp.toInt then
      let limit := limit || s.thisCycle (s.sw n.val).tripAt
      let s := (s.hsUntrip n.val).current n.val 0
      let s := s.setFld (Reg.HS_MEAS n.val) F.HS_MEAS_TEMP temp.toNat
      let x := s.sw n.val
      let s := s.setSw n.val
        { x with onAt := none, thermTrip := limit && s.hsDriving n.val,
                 retryLeft := x.retryAt.map (· - s.now), retryAt := none }
      ((s.setFlag (Reg.HS_STAT n.val) F.HS_STAT_THERM true).note 0x1A n.val 0x05).line 0x1A n.val
    else s)

/-- HS_THERMAL_RELEASE: 25 K below T_LATCH the channel counts the trip that the latch pre-empted, or resumes (R450). -/
def execHsThermalRelease (n : Fin 16) (temp : BitVec 16) (s : State) : Host.Outcome State Fault Refusal :=
  .next (if s.domUp 5 ∧ s.therm n.val ∧ temp.toInt ≤ tLatch n.val - 250 then
      let s := s.setFld (Reg.HS_MEAS n.val) F.HS_MEAS_TEMP temp.toNat
      let s := s.setFlag (Reg.HS_STAT n.val) F.HS_STAT_THERM false
      let x := s.sw n.val
      let s := s.setSw n.val { x with thermTrip := false, retryAt := x.retryLeft.map (· + s.now), retryLeft := none }
      if s.hsState n.val = hsOn then (if x.thermTrip then s.hsTrip n.val else s.hsTurnOn n.val) else s
    else s)

/-- HS_RCNT_RESET: 1 s on without a break and without a trip (R446). -/
def execHsRcntReset (n : Fin 16) (s : State) : Host.Outcome State Fault Refusal :=
  .next (if s.domUp 5 ∧ s.hsDriving n.val ∧ s.reached ((s.sw n.val).onAt.map (· + ticksPerS)) then s.setRcnt n.val 0 else s)

/-- HS_OPEN_LOAD: ON with a current of `ma`, which has lain below 20 mA for `us` µs, 10 ms or more: OPEN and NOTE code 0x06
(R451). -/
def execHsOpenLoad (n : Fin 16) (ma : BitVec 16) (us : Nat) (s : State) : Host.Outcome State Fault Refusal :=
  .next (if s.domUp 5 ∧ s.hsDriving n.val ∧ ma.toNat < 20 ∧ 10000 ≤ us ∧ s.reached ((s.sw n.val).onAt.map (· + 10 * ticksPerMs)) then
      ((s.current n.val ma.toNat).setFlag (Reg.HS_STAT n.val) F.HS_STAT_OPEN true).note 0x1A n.val 0x06
    else s)

/-- Channel n is on while its drive is 0: MISMATCH and CONTAIN code 0x09 (R451, R458). -/
def State.hsMismatched (s : State) (n : Nat) : State :=
  (s.setFlag (Reg.HS_STAT n) F.HS_STAT_MISMATCH true).contain 0x1A n 0x09

/-- HS_MISMATCH: the drive is 0 and the output has stayed above VIN − 5 V for 1 ms: CONTAIN code 0x09 (R451). -/
def execHsMismatch (n : Fin 16) (s : State) : Host.Outcome State Fault Refusal :=
  .next (if s.domUp 5 ∧ !(s.sw n.val).drive ∧ (s.sw n.val).driveAt + ticksPerMs ≤ s.now ∧
      !s.flag (Reg.HS_STAT n.val) F.HS_STAT_MISMATCH then s.hsMismatched n.val
    else s)

/-- HS_MISMATCH_CLEAR: the output has read off for 1 s without a break while the drive is 0: MISMATCH clears and the
block has recovered (R451, R458). -/
def execHsMismatchClear (n : Fin 16) (s : State) : Host.Outcome State Fault Refusal :=
  .next (if s.domUp 5 ∧ !(s.sw n.val).drive ∧ (s.sw n.val).driveAt + ticksPerS ≤ s.now ∧
      s.flag (Reg.HS_STAT n.val) F.HS_STAT_MISMATCH then
      (s.setFlag (Reg.HS_STAT n.val) F.HS_STAT_MISMATCH false).recoversCell 0x1A 0x09 n.val
    else s)

/-- The level changes of LH_IN[k] within the second just ended. -/
def State.lhEdges (s : State) (k : Nat) : List Nat :=
  (Tab.get (fun _ => []) s.hs.edges k).filter (fun t => s.now < t + ticksPerS)

/-- The most level changes LH_IN may make in a second; none where RATE_LIM is 0. -/
def State.lhLimit (s : State) : Option Nat :=
  let r := s.fld Reg.LH_CFG F.LH_CFG_RATE_LIM
  if r = 0 then none else some (r * 16)

/-- The pins' wanted drives of all channels, before a change. -/
def State.wants (s : State) : List Bool := (List.range 16).map (fun n => s.wanted n)

/-- A pin changed: each channel follows, its coil command taken where one is due. -/
def State.pinsMoved (s : State) (was : List Bool) : State :=
  (List.range 16).foldl (fun s n => s.hsCommand n (was.getD n false)) s

/-- The level of LH_IN[k] as LH_PIN shows it. -/
def State.showPin (s : State) (k : Nat) : State := s.setBit Reg.LH_PIN F.LH_PIN_LH_IN k (s.lhIn k)

/-- FILT in µs as it acts (R453, R461). -/
def State.lhFilter (s : State) : Nat := orDefault (s.fld Reg.LH_CFG F.LH_CFG_FILT) 1

/-- LH_IN_EDGE: LH_IN[k] has shown `level` for `us` µs, and a pulse shorter than FILT is ignored; more than RATE_LIM × 16 changes within 1 s make the
input stuck, with NOTE code 0x07 (R453). -/
def execLhInEdge (k : Fin 6) (level : Bool) (us : Nat) (s : State) : Host.Outcome State Fault Refusal :=
  .next (if s.domUp 5 ∧ s.lhFilter ≤ us ∧ bitOf s.hs.level k.val ≠ level then
      let was := s.wants
      let edges := s.now :: s.lhEdges k.val
      let s := s.setHs { s.hs with level := withBit s.hs.level k.val level,
                                   edges := Tab.set (fun _ => []) s.hs.edges k.val edges }
      let many : Bool := match s.lhLimit with | some m => m < edges.length | none => false
      let s := if many && (Tab.get (fun _ => none) s.hs.stuckAt k.val).isNone then
          let s := s.setHs { s.hs with stuckAt := Tab.set (fun _ => none) s.hs.stuckAt k.val (some s.now) }
          (s.setBit Reg.LH_PIN F.LH_PIN_STUCK k.val true).note 0x1A 0 0x07
        else s
      (s.showPin k.val).pinsMoved was
    else s)

/-- LH_IN_UNSTUCK: the second just ended lies after the input became stuck and holds few enough changes (R453). -/
def execLhInUnstuck (k : Fin 6) (s : State) : Host.Outcome State Fault Refusal :=
  .next (if s.domUp 5 then
      match Tab.get (fun _ => none) s.hs.stuckAt k.val with
      | some t =>
        let few : Bool := match s.lhLimit with | some m => (s.lhEdges k.val).length ≤ m | none => true
        if t + ticksPerS < s.now ∧ few then
          let was := s.wants
          let s := s.setHs { s.hs with stuckAt := Tab.set (fun _ => none) s.hs.stuckAt k.val none }
          (s.showPin k.val).pinsMoved was
        else s
      | none => s
    else s)

/-- LH_EN_CHANGE: LH_EN has shown `level` for `us` µs, and 1 ms qualifies it; a reset behaviour in force follows it (R454). -/
def execLhEnChange (level : Bool) (us : Nat) (s : State) : Host.Outcome State Fault Refusal :=
  .next (if s.domUp 5 ∧ 1000 ≤ us then (s.setFlag Reg.LH_PIN F.LH_PIN_LH_EN level).hsRefreshAll else s)

/-- HS_LOCK: HS[n].CFG, LH_CFG and KLS_EN are read-only until PD_SW is next powered on (R456). -/
def execHsLock (s : State) : Host.Outcome State Fault Refusal :=
  .next (s.onBlk .loadSwitch (fun s => s.setFlag Reg.HS_CTRL F.HS_CTRL_LOCK true))

/-- IS_SEL_CHANGE: the IS_SEL balls have shown a selection for `ns` ns; pulses shorter than 1 µs are ignored (R452). -/
def execIsSelChange (sel : Fin 16) (ns : Nat) (s : State) : Host.Outcome State Fault Refusal :=
  .next (if s.domUp 5 ∧ 1000 ≤ ns then s.setHs { s.hs with isSel := sel.val } else s)

/-- The channel whose current the IS ball sources (R452). -/
def State.isChannel (s : State) : Nat :=
  if s.flag Reg.HS_CTRL F.HS_CTRL_ISEL_SRC then s.fld Reg.HS_CTRL F.HS_CTRL_ISEL_CH else s.hs.isSel

/-- The IS ball sources I_IS_FLT, not the load current: its channel is LATCHED or FUSED, or its THERM is 1 (R452). -/
def State.isFaultCurrent (s : State) : Bool :=
  s.hsState s.isChannel = hsLatched || s.hsState s.isChannel = hsFused || s.therm s.isChannel

/-- VIN_OVERVOLTAGE: while VIN exceeds V_OVP every channel is off; RCNT does not change (R533). -/
def execVinOvervoltage (s : State) : Host.Outcome State Fault Refusal :=
  .next (if s.domUp 5 ∧ !s.hs.overV then
      let s := s.setHs { s.hs with overV := true }
      (List.range 16).foldl (fun s n => if s.hsState n = hsOn then s.hsGoes n hsOff else s) s
    else s)

/-- VIN_OVERVOLTAGE_END: VIN has fallen below V_OVP − 3 V; each channel returns to the state its drive gives (R533). -/
def execVinOvervoltageEnd (s : State) : Host.Outcome State Fault Refusal :=
  .next (if s.domUp 5 ∧ s.hs.overV then
      let s := s.setHs { s.hs with overV := false }
      (List.range 16).foldl (fun s n => if s.hsState n = hsOff ∧ (s.sw n).drive then s.hsTurnOn n else s) s
    else s)

end Sys2Proof.Machine
end

