-- ==== Sys2Proof/Machine/GridOps.lean ====
section
/-!
DEFINITION. Machine/GridOps.lean: channels, response conditions, data frames and the recorder of grid measurement
(R252 to R263).
-/
namespace Sys2Proof.Machine

def State.grdOn (s : State) : Bool := s.flag Reg.GRD_CTRL F.GRD_CTRL_EN
def State.chKind (s : State) (n : Nat) : Nat := s.fld (Reg.GCH_CFG n) F.GCH_CFG_KIND
def State.chPhase (s : State) (n : Nat) : Nat := s.fld (Reg.GCH_CFG n) F.GCH_CFG_PH

/-- Channel n is enabled and measures a voltage or a current; and its bitstream is valid (R254). -/
def State.chUsed (s : State) (n : Nat) : Bool :=
  bitOf (s.fld Reg.GRD_CTRL F.GRD_CTRL_CH_EN) n && (s.chKind n = 1 || s.chKind n = 2)
def State.chValid (s : State) (n : Nat) : Bool := s.chUsed n && !bitOf (s.fld Reg.GRD_STATUS F.GRD_STATUS_INV) n

/-- A set of kind `kind` with valid channels of the phases A, B and C (R254). -/
def State.hasSet (s : State) (kind : Nat) : Bool :=
  [0, 1, 2].all (fun ph => (List.range 8).any (fun n => s.chValid n && s.chKind n = kind && s.chPhase n = ph))

/-- DEGRADED reads 1 while no voltage channel is valid (R254). -/
def State.gridDegraded (s : State) : State :=
  s.setFlag Reg.GRD_STATUS F.GRD_STATUS_DEGRADED (!(List.range 8).any (fun n => s.chValid n && s.chKind n = 1))

/-- Where the frequency comes from (R254): none the positive sequence, while GCH[0..2] are valid voltage channels, else the
lowest-numbered valid voltage channel. -/
def State.freqSource (s : State) : Option (Option Nat) :=
  let volts := (List.range 8).filter (fun n => s.chValid n && s.chKind n = 1)
  if [0, 1, 2].all (fun n => volts.contains n) then some none else volts.head?.map some

/-! Recorder (R261, R262) -/

def State.recState (s : State) : Nat := s.fld Reg.GRD_REC_CTRL F.GRD_REC_CTRL_STATE
def recArmed : Nat := 1
def recPost : Nat := 2
def recHeld : Nat := 3
def State.setRec (s : State) (x : Nat) : State := s.setFld Reg.GRD_REC_CTRL F.GRD_REC_CTRL_STATE x

/-- A bus error on a frame or recorder write (R263): reporting and recording stop. -/
def State.gridBusError (s : State) (cell : Nat) : State :=
  ((s.setGrid { s.grid with stopped := true, cycled := false, heldAt := none }).setRec 0).contain
    0x04 cell 0x04

/-- ARM: the recorder's buffer is empty, and it records again from GRD_REC_BASE on (R261, R262). -/
def State.recArm (s : State) : State :=
  if s.grid.stopped then s
  else (s.setRec recArmed).setGrid { s.grid with recPos := 0, preN := 0, postN := 0, heldAt := none }

/-! Samples (R252, R253, R261) -/

/-- The 62.5 µs between the output samples, in 2^-16 ns of TB[0]. -/
def samplePeriod : Nat := 62500 * 65536

/-- A whole multiple of 62.5 µs on TB[0] falls in the CK_NET cycle that has just begun (R253). -/
def State.sampleDue (s : State) : Bool :=
  let b := s.tb 0
  let v := b.value s.now / tbUnit
  let w := b.value (s.now - ticksNet) / tbUnit
  s.up 0x04 && s.grdOn && decide (s.now % ticksNet = 0) && decide (b.cyc < s.now / ticksNet) &&
    decide (v / samplePeriod ≠ w / samplePeriod)

/-- TB[0] has stepped within the last 10 ms, in which the resampler realigns (R253). -/
def State.realigns (s : State) : Bool :=
  match (s.tb 0).stepCyc with | some c => decide (s.now < c * ticksNet + 10 * ticksPerMs) | none => false

/-- The sample of channel n now (R252 to R254, R261): the input as it was DLY_NS of external delay ago reaches the chip now,
so that removing the delay takes the bitstream DLY_NS later; GAIN_PPM corrects it, and a value beyond 24 bits is limited and
marked overrange. A channel that is not enabled has no sample: a free value. -/
def State.sampleOf (s : State) (n : Nat) : GridSample :=
  let cal := s.rd (Reg.GCH_CAL n)
  let raw := Config.gridWave n (s.now / ticksPerNs + signed 16 (F.GCH_CAL_DLY_NS.get cal))
  let v := raw + divZero (raw * signed 16 (F.GCH_CAL_GAIN_PPM.get cal)) 1000000
  if bitOf (s.fld Reg.GRD_STATUS F.GRD_STATUS_INV) n then ⟨0, true, s.realigns, false⟩
  else if bitOf (s.fld Reg.GRD_CTRL F.GRD_CTRL_CH_EN) n then
    ⟨clampInt (-8388608) 8388607 v, false, s.realigns, v < -8388608 || 8388607 < v⟩
  else ⟨signed 24 (Config.freeNat (s.free + n)), false, s.realigns, false⟩

/-- The word of a sample in the recorder's buffer (R261). -/
def GridSample.word (x : GridSample) : Nat :=
  unsigned 24 x.value * 256 + bit01 x.inv * 4 + bit01 x.step * 2 + bit01 x.high

/-- The recorder takes the eight samples of an instant (R261, R262): into the circular buffer of 32,000 instants while ARMED,
behind it in the post-trigger part. -/
def State.recSample (s : State) : State :=
  let x := s.grid
  let l := (List.range 8).flatMap (fun n => leBytes 4 (Tab.get (fun _ => GridSample.reset) x.sample n).word)
  let base := (s.rd Reg.GRD_REC_BASE).toNat
  let put := fun (at_ : Nat) (y : Grid) =>
    let w := s.writeRange 16 (base + 32 * at_) l
    if w.1 then w.2.setGrid y else w.2.gridBusError 8
  if s.recState = recArmed then
    put x.recPos { x with recPos := (x.recPos + 1) % 32000, preN := min 32000 (x.preN + 1) }
  else if s.recState = recPost ∧ x.postN < 32000 then put (32000 + x.postN) { x with postN := x.postN + 1 }
  else s

/-- An output sample of every channel (R252, R253). -/
def State.gridSamples (s : State) : State :=
  let l := (List.range 8).map (fun n => (n, s.sampleOf n))
  let t := l.foldl (fun t x => Tab.set (fun _ => GridSample.reset) t x.1 x.2) s.grid.sample
  ((s.setGrid { s.grid with sample := t }).drew 8).recSample

/-! Triggers (R262) -/

/-- A trigger of cause `c` from source bit `src` (R262). -/
def State.recTrigger (s : State) (src c : Nat) : State :=
  if !bitOf (s.fld Reg.GRD_REC_CTRL F.GRD_REC_CTRL_SRC) src then s
  else if s.recState = recArmed then
    let s := (s.wrNat Reg.GRD_REC_TS (s.tbSec 0)).wrNat Reg.GRD_REC_TNS (s.tbSubNs 0)
    let s := s.wrNat Reg.GRD_REC_INFO (c * 2 ^ 24 + s.grid.preN)
    ((s.setRec recPost).setGrid { s.grid with heldAt := some (s.now + 2 * ticksPerS) }).line 0x04 0x03
  else if s.recState = recPost then s.bump Reg.GRD_REC_INFO F.GRD_REC_INFO_EXTRA
  else if s.recState = recHeld then (s.bump Reg.GRD_REC_CTRL F.GRD_REC_CTRL_LOST).note 0x04 8 0x05
  else s

/-! Grid line (R257, R258) -/

/-- The enabled qualified conditions. -/
def State.condOn (s : State) (k : Nat) : Bool :=
  bitOf (s.fld Reg.GRD_STATUS F.GRD_STATUS_COND) k &&
    (if k = 0 then s.flag Reg.GRD_UF F.GRD_UF_EN else if k = 1 then s.flag Reg.GRD_ROC F.GRD_ROC_EN
     else s.flag Reg.GRD_UV F.GRD_UV_EN)

/-- The grid line follows the conditions and FORCE: a rise latches its reason and triggers the recorder. -/
def State.gridLineSync (s : State) : State :=
  let want := s.condOn 0 || s.condOn 1 || s.condOn 2 || s.flag Reg.GRD_CTRL F.GRD_CTRL_FORCE
  let s := if want then s else s.setSal { s.sal with line := false }
  if want = s.gridLine then s
  else
    let s := s.setFlag Reg.GRD_STATUS F.GRD_STATUS_LINE want
    if want then
      let r := if s.condOn 0 then 4 else if s.condOn 1 then 5 else if s.condOn 2 then 1 else 0
      ((s.setGrid { s.grid with reason := r }).line 0x04 0x01).recTrigger 0 0x00
    else s.line 0x04 0x02

/-- One update of condition k (R258): `met` and `rel` count in a row, and qualify or clear it. -/
def State.condUpdate (s : State) (k : Nat) (met rel : Bool) : State :=
  let c := Tab.get (fun _ => GridCond.reset) s.grid.cond k
  let q := bitOf (s.fld Reg.GRD_STATUS F.GRD_STATUS_COND) k
  let m := if met && !rel then c.met + 1 else 0
  let r := if rel && !met then c.rel + 1 else 0
  let up := orDefault (s.fld Reg.GRD_QUAL F.GRD_QUAL_QUAL_MS) 1
  let down := orDefault (s.fld Reg.GRD_QUAL F.GRD_QUAL_REL_MS) 1
  let q' := if q then !(down ≤ r) else up ≤ m
  let s := s.setGrid { s.grid with cond := Tab.set (fun _ => GridCond.reset) s.grid.cond k ⟨min m up, min r down⟩ }
  s.setBit Reg.GRD_STATUS F.GRD_STATUS_COND k q'

/-- GRD_CTRL is written (R258, R263). -/
def State.grdCtrlWrite (s : State) (data : Word) : State :=
  let on := s.grdOn
  let s := s.wr Reg.GRD_CTRL (data &&& 0xF0FF00FF)
  let s := if s.grid.stopped ∧ !s.grdOn then s.setGrid { s.grid with cycled := true } else s
  let s := if s.grid.stopped ∧ s.grid.cycled ∧ s.grdOn ∧ !on then s.setGrid { s.grid with stopped := false } else s
  s.gridLineSync

/-! Data frames (R255 to R257) -/

/-- Rates that NOM supports (R255). -/
def State.rateOk (s : State) : Bool :=
  let r := s.fld Reg.GRD_CTRL F.GRD_CTRL_RATE
  if s.flag Reg.GRD_CTRL F.GRD_CTRL_NOM then [10, 12, 15, 20, 30, 60, 120].contains r else [10, 25, 50, 100].contains r

def ccittStep : Nat → BitVec 16 → BitVec 16
  | 0, c => c
  | n + 1, c => ccittStep n (if c.getLsbD 15 then (c <<< 1) ^^^ 0x1021 else c <<< 1)

/-- CRC-CCITT over bytes (R257). -/
def crcCcitt : List Byte → BitVec 16 → BitVec 16
  | [], c => c
  | b :: t, c => crcCcitt t (ccittStep 8 (c ^^^ ((b.zeroExtend 16) <<< 8)))

/-- The STAT word (R257); `tq` stands for a time quality that the spec does not state. -/
def State.pmuStat (s : State) (absent : Bool) (tq : Nat) : Nat :=
  let st := s.fld (Reg.TB_STATE 0) F.TB_STATE_ST
  let age := s.holdAge 0
  let q := if st = 2 then 0 else if st = 3 ∧ age ≤ 60 then 2 else tq % 8
  let u := if st = 2 then 0 else if age < 10 then 0 else if age < 100 then 1 else if age < 1000 then 2 else 3
  bit01 absent * 2 ^ 14 + bit01 (st = 0 || st = 4) * 2 ^ 13 + bit01 s.gridLine * 2 ^ 11 + q * 2 ^ 6 + u * 2 ^ 4 +
    s.grid.reason

/-- The present phasors (R257): eight channels, then the voltage and the current positive sequence. -/
def State.present (s : State) (i : Nat) : Bool :=
  if i < 8 then s.chValid i else if i = 8 then s.hasSet 1 else s.hasSet 2

/-- The instant that the time tag `sec` + k ÷ fs names, in nanoseconds of TB[0] (R256). -/
def State.tagNs (s : State) (sec k fs : Nat) : Nat := s.frameNs sec 0 + k * 1000000000 / fs

/-- The latency of a data frame after its time tag, in ns (R256). -/
def State.frameLatency (s : State) (fs : Nat) : Nat :=
  if s.flag Reg.GRD_CTRL F.GRD_CTRL_CLASS then 4000000000 / fs
  else if s.flag Reg.GRD_CTRL F.GRD_CTRL_NOM then 10000000 else 12000000

/-- A frame of the tag may be written now (R256): its tag has been reached and its latency has not passed, and it comes after
the last one. -/
def State.tagOk256 (s : State) (sec k fs : Nat) : Bool :=
  let t := s.tagNs sec k fs
  t ≤ s.tbNs 0 && s.tbNs 0 ≤ t + s.frameLatency fs && (match s.grid.tag with | some u => decide (u < t) | none => true)

/-- The data frame of 108 bytes (R257): the phasors, given in rectangular form, take the form that FMT selects; `free` gives the
time quality byte of FRACSEC. -/
def State.pmuFrame (s : State) (sec frac : Nat) (ph : List (BitVec 64)) (freq dfreq : Word) (tq free : Nat) : List Byte :=
  let form := fun w => if s.flag Reg.GRD_ID F.GRD_ID_FMT then w else Config.toPolar w
  let absent := (List.range 10).any (fun i => !s.present i)
  let body := (List.range 10).flatMap (fun i => beBytes 8 (if s.present i then (form (ph.getD i 0)).toNat else 0))
  let dig := s.fld Reg.GRD_STATUS F.GRD_STATUS_COND + s.recState * 16
  let p := beBytes 2 0xAA01 ++ beBytes 2 108 ++ beBytes 2 (s.fld Reg.GRD_ID F.GRD_ID_IDCODE) ++ beBytes 4 sec ++
    beBytes 1 free ++ beBytes 3 frac ++ beBytes 2 (s.pmuStat absent tq) ++ body ++ beBytes 4 freq.toNat ++
    beBytes 4 dfreq.toNat ++ beBytes 2 dig
  p ++ beBytes 2 (crcCcitt p 0xFFFF).toNat

end Sys2Proof.Machine
end

