-- ==== Sys2Proof/Machine/LinkOps.lean ====
section
/-!
DEFINITION. Machine/LinkOps.lean: pilot sensing, frame rings and the backbone of the outlet links (R266 to R291).
-/
namespace Sys2Proof.Machine

/-! Pilot (R268 to R275) -/

def State.pilot (s : State) (o : Nat) : Pilot := Tab.get (fun _ => Pilot.reset) s.links.pilot o
def State.setPilot (s : State) (o : Nat) (x : Pilot) : State :=
  s.setLinks { s.links with pilot := Tab.set (fun _ => Pilot.reset) s.links.pilot o x }

def State.olkKind (s : State) (o : Nat) : Nat := s.fld (Reg.OLK_CFG o) F.OLK_CFG_KIND
def kindCcs : Nat := 1
def kindMcs : Nat := 2

/-- The line level of a code in mV (R268). -/
def State.lineMv (s : State) (o code : Nat) : Int :=
  divZero ((divZero (code * 30000) 4096 - 15000) * s.fld (Reg.OLK_CAL o) F.OLK_CAL_GAIN) 32768 +
    signed 16 (s.fld (Reg.OLK_CAL o) F.OLK_CAL_OFS)

/-- The mean level of eight 12-bit codes (R270). -/
def State.meanMv (s : State) (o : Nat) (codes : BitVec 96) : Int :=
  divZero ((List.range 8).foldl (fun t i => t + s.lineMv o (codes.toNat / 2 ^ (12 * i) % 4096)) 0) 8

/-- A window word contains a level (R271). -/
def inWin (w : Word) (mv : Int) : Bool :=
  let hi := signed 16 (F.CPW_HI.get w)
  let lo := signed 16 (F.CPW_LO.get w)
  lo < hi && lo ≤ mv && mv ≤ hi

/-- The state of a level: the first window that contains it, else INVALID (R271). -/
def stateOf (win : Nat → Word) (mv : Int) : Nat := ((List.range 6).find? (fun i => inWin (win i) mv)).getD 0xF

/-- One more measured state of a line (R272). -/
def LineQual.next (q : LineQual) (st need : Nat) : LineQual :=
  let n := if st = q.cand then min need (q.count + 1) else 1
  { rep := if need ≤ n then st else q.rep, cand := st, count := n }

/-- Reported changes of the last second. -/
def State.recentChanges (s : State) (o : Nat) : List Nat := (s.pilot o).changes.filter (fun t => s.now < t + ticksPerS)

/-- CHG_LIM is exceeded within the running second (R272). -/
def State.tooMany (s : State) (o : Nat) : Bool :=
  let lim := s.fld (Reg.OLK_CFG o) F.OLK_CFG_CHG_LIM
  lim ≠ 0 && lim < (s.recentChanges o).length

/-- ST and ID_ST show the reported states, or INVALID while UNSTABLE or CONV_ERR; a change raises its line. -/
def State.showPilot (s : State) (o : Nat) : State :=
  let r := Reg.OLK_STAT o
  let bad := s.flag r F.OLK_STAT_UNSTABLE || s.flag r F.OLK_STAT_CONV_ERR
  let st := if bad then 0xF else (s.pilot o).cp.rep
  let id := if bad then 0xF else (s.pilot o).id.rep
  let c := s.fld r F.OLK_STAT_ST ≠ st
  let d := s.fld r F.OLK_STAT_ID_ST ≠ id
  let s := (s.setFld r F.OLK_STAT_ST st).setFld r F.OLK_STAT_ID_ST id
  let s := if c then s.line 0x0B o else s
  if d then s.line 0x0B (0x08 + o) else s

/-- CP_FREQ (R293). -/
def State.cpFreq (s : State) : Nat := clampNat 500 2000 (s.fld Reg.OLK_TIME F.OLK_TIME_CP_FREQ)

/-- The level of CP_DRV[o] (R269, R275): none high-impedance, else the duty in 0.1 %. -/
def State.cpDrive (s : State) (o : Nat) : Option Nat :=
  if !s.domUp 10 then none
  else if s.regionHeld 1 then some (if s.flag (Reg.OLK_CFG o) F.OLK_CFG_RST_LVL then 0 else 1000)
  else
    let p := s.pilot o
    some (if p.mode = 0 then 1000 else if p.mode = 1 then p.duty else 0)

/-! Rings (R278, R279) -/

/-- The register base of a link: 0 to 7 T1S, 8 to 15 Green PHY, 16 the backbone. -/
def linkBase (l : Nat) : Nat :=
  if l < 8 then Reg.T1S_CTRL l else if l < 16 then Reg.GP_CTRL (l - 8) else Reg.BB_CTRL
def linkBlk (l : Nat) : Nat := if l < 8 then 0x0A else 0x0B
def linkCell (l : Nat) : Nat := if l < 8 then l else l - 8
def rxBase (l : Nat) : Nat := linkBase l + 0x60
def rxCfg (l : Nat) : Nat := linkBase l + 0x64
def txBase (l : Nat) : Nat := linkBase l + 0x68
def txCfg (l : Nat) : Nat := linkBase l + 0x6C
def linkCnt (l : Nat) : Nat := if l < 8 then Reg.T1S_CNT l else linkBase l + 0x70
/-- Event lines of a frame received and of a descriptor written back (R291). -/
def rxLine (l : Nat) : Nat := if l < 8 then l else if l < 16 then 0x10 + l else 0x30
def txLine (l : Nat) : Nat := if l < 8 then 0x08 + l else if l < 16 then 0x18 + l else 0x31

def ringLen (w : Word) : Nat := max 2 (F.T1S_RX_CFG_LEN.get w)
def ringHead (w : Word) : Nat := F.T1S_RX_CFG_HEAD.get w
def ringTail (w : Word) : Nat := F.T1S_RX_CFG_TAIL.get w
def ringEn (w : Word) : Bool := F.T1S_RX_CFG_EN.get w ≠ 0

def State.ringStop (s : State) (l : Nat) : RingStop := Tab.get (fun _ => RingStop.reset) s.links.ring l
def State.setRingStop (s : State) (l : Nat) (x : RingStop) : State :=
  s.setLinks { s.links with ring := Tab.set (fun _ => RingStop.reset) s.links.ring l x }

/-- The fabric slot of the DMA of link l (R18): the T1S ports', or the PLC modem's. -/
def linkSlot (l : Nat) : Nat := if l < 8 then 14 else 13

/-- The link runs (R266, R293). -/
def State.linkRuns (s : State) (l : Nat) : Bool :=
  s.up (linkBlk l) && bitOf (s.rd (linkBase l)).toNat 31 && (l < 8 || l = 16 || s.olkKind (l - 8) = kindCcs)

/-- The link runs and its rings are not stopped (R279). -/
def State.linkOn (s : State) (l : Nat) : Bool := s.linkRuns l && !(s.ringStop l).stopped

/-- A bus error on a ring or buffer (R279): the link stops both rings. -/
def State.ringError (s : State) (l : Nat) : State :=
  (s.setRingStop l ⟨true, false, false⟩).contain (linkBlk l) (linkCell l) (if l < 8 then 0x04 else 0x06)

/-- A frame has passed on the link (R279). -/
def State.ringPassed (s : State) (l : Nat) : State :=
  if (s.ringStop l).wait then
    (s.setRingStop l RingStop.reset).recoversCell (linkBlk l) (if l < 8 then 0x04 else 0x06) (linkCell l)
  else s

/-- EN of a ring is written (R279, R293): 1 sets HEAD and TAIL to 0. -/
def State.ringEnable (s : State) (l : Nat) (tx en : Bool) : State :=
  let a := if tx then txCfg l else rxCfg l
  let s := s.setFlag a F.T1S_RX_CFG_EN en
  let s := if en then (s.setFld a F.T1S_RX_CFG_HEAD 0).setFld a F.T1S_RX_CFG_TAIL 0 else s
  let x := s.ringStop l
  if x.stopped then (if en then (if x.off then s.setRingStop l ⟨false, false, true⟩ else s)
    else s.setRingStop l { x with off := true })
  else s

/-- The time of the end of a frame in words 2 and 3 of a descriptor. -/
def State.stampBytes (s : State) : List Byte := leBytes 4 (s.tbSubNs 0) ++ leBytes 4 (s.tbSec 0)

/-- The frame enters the receive ring of link l (R278, R279); `rep` is status bit 0. -/
def State.ringReceive (s : State) (l : Nat) (f : List Byte) (rep : Bool) : State :=
  let c := s.rd (rxCfg l)
  let len := ringLen c
  let next := (ringHead c + 1) % len
  if !ringEn c then s
  else if next = ringTail c then
    (s.bump (linkCnt l) F.T1S_CNT_RX_DROP).note (linkBlk l) (linkCell l) (if l < 8 then 0x03 else 0x05)
  else
    let d := (s.rd (rxBase l)).toNat + 16 * ringHead c
    let r := s.readBlock (linkSlot l) d 16
    let s := r.2
    let buf := s.num d 4
    if r.1 && sramRange buf 1536 && buf % 4 = 0 && f.length ≤ 1536 then
      let x := s.writeRanges (linkSlot l) [(buf, f), (d + 4, leBytes 4 (f.length + bit01 rep * 2 ^ 16) ++ s.stampBytes)]
      if x.1 then
        let s := x.2.setFld (rxCfg l) F.T1S_RX_CFG_HEAD next
        (s.ringPassed l).line (linkBlk l) (rxLine l)
      else x.2.ringError l
    else if r.1 then (s.dmaRefused (linkSlot l) buf true).ringError l
    else s.ringError l

/-- Port n of T1S takes a frame by its destination address (R277). -/
def State.t1sTakes (s : State) (n : Nat) (f : List Byte) : Bool :=
  let dst := f.take 6
  let own := leBytes 4 (s.rd (Reg.T1S_MAC_LO n)).toNat ++ leBytes 2 (s.rd (Reg.T1S_MAC_HI n)).toNat
  s.flag (Reg.T1S_CTRL n) F.T1S_CTRL_PROMISC || dst = own || dst = List.replicate 6 0xFF ||
    (s.flag (Reg.T1S_CTRL n) F.T1S_CTRL_MC_ALL && (f.headD 0).toNat % 2 = 1)

/-! PLC channels (R280, R283 to R286) -/

/-- The NMK of PLC channel l, where its slot holds an AES-128 key with the USE bit `use` and the PLC modem among its USERS
(R280, R283, R400). -/
def State.nmk (s : State) (l use : Nat) : Option (List Byte) :=
  let n := if l < 16 then s.fld (Reg.GP_CTRL (l - 8)) F.GP_CTRL_NMK_SLOT else s.fld Reg.BB_CTRL F.BB_CTRL_NMK_SLOT
  (s.usable n use userPlc (fun a => a = 0x01)).map (·.key)

/-- A sample that exceeds the noise floor by `peak` dB is blanked (R286). -/
def State.blankedAt (s : State) (peak : Byte) : Bool := s.fld Reg.BB_IMP F.BB_IMP_IMP_THR < peak.toNat

/-- The indices of the entries of a list that are true. -/
def indicesOf (l : List Bool) : List Nat := (List.range l.length).filter (fun i => l.getD i false)

/-- A management message of the channel itself, such as those of SLAC: EtherType 0x88E1. -/
def plcClear (f : List Byte) : Bool := (f.drop 12).take 2 = [0x88, 0xE1]

/-- The carriers that BB_TMASK masks (R284), as a number whose bit n stands for carrier n. -/
def State.tmask (s : State) : Nat :=
  (List.range 29).foldl (fun t w => t + (s.rd (Reg.BB_TMASK w)).toNat * 2 ^ (32 * w)) 0 % 2 ^ 917

/-- BB_PH[p] drives its coupler (R284). -/
def State.bbCoupler (s : State) (p : Nat) : Bool := s.up 0x0B && bitOf (s.fld Reg.BB_CTRL F.BB_CTRL_PH) p

/-! SLAC (R281) -/

def State.slac (s : State) (n : Nat) : Option Slac := Tab.get (fun _ => none) s.links.slac n
def State.setSlac (s : State) (n : Nat) (x : Option Slac) : State :=
  s.setLinks { s.links with slac := Tab.set (fun _ => none) s.links.slac n x }
def State.attNum (s : State) (n : Nat) : Nat := orDefault (s.fld (Reg.GP_ATT_CTRL n) F.GP_ATT_CTRL_NUM) 1

/-- A sound on channel n, while its measurement runs. -/
def State.takeSound (s : State) (n : Nat) (x : Sound) : State :=
  match s.slac n with
  | some m =>
    let run := (s.rd (Reg.GP_ATT_RUNID_LO n)).toNat + (s.rd (Reg.GP_ATT_RUNID_HI n)).toNat * 2 ^ 32
    if x.run.toNat ≠ run ∨ s.attNum n ≤ s.fld (Reg.GP_ATT_STAT n) F.GP_ATT_STAT_CNT ∨ m.due ≤ s.now then s
    else if s.blankedAt x.peak then s.bump (Reg.GP_ATT_STAT n) F.GP_ATT_STAT_IMP_EXCL
    else
      let v := (List.range 58).map (fun g => x.att.toNat / 2 ^ (8 * g) % 256)
      (s.bump (Reg.GP_ATT_STAT n) F.GP_ATT_STAT_CNT).setSlac n (some { m with sums := List.zipWith (· + ·) m.sums v })
  | none => s

/-! Backbone (R284 to R288) -/

def State.nbr (s : State) (k : Nat) : Nbr := Tab.get (fun _ => Nbr.reset) s.links.nbr k
def State.setNbr (s : State) (k : Nat) (x : Nbr) : State :=
  s.setLinks { s.links with nbr := Tab.set (fun _ => Nbr.reset) s.links.nbr k x }
def State.nbrOn (s : State) (k : Nat) : Bool := s.flag (Reg.BB_NBR_ID k) F.BB_NBR_ID_VALID

/-- The tone map of neighbour k is discarded, and channel estimation with it begins (R284, R287). -/
def State.estimate (s : State) (k : Nat) : State :=
  (s.setFld (Reg.BB_NBR_RATE k) F.BB_NBR_RATE_RATE 0).setNbr k
    { s.nbr k with est := true, changedAt := s.now, ests := [], map := none }

/-- The estimates of neighbour k make its tone map (R285, R287); the estimates of the next period begin. -/
def State.remap (s : State) (k : Nat) : State :=
  let b := s.nbr k
  let m := Config.toneMap s.tmask b.ests
  let b := { b with est := false, ests := [], map := some m, changedAt := if b.map = some m then b.changedAt else s.now }
  (s.setNbr k b).setFld (Reg.BB_NBR_RATE k) F.BB_NBR_RATE_RATE (Config.toneRate m)

/-- Neighbour k has the MAC address of these six bytes. -/
def State.nbrIs (s : State) (mac : List Byte) (k : Nat) : Bool :=
  s.nbrOn k && (s.rd (Reg.BB_NBR_MAC_LO k)).toNat = leNat (mac.take 4) &&
    s.fld (Reg.BB_NBR_ID k) F.BB_NBR_ID_MAC_HI = leNat ((mac.drop 4).take 2)

/-- How PLC channel l sends a frame (R284, R285, R293): the tone map is its receiver's, none while estimation runs, and on
Green PHY none ever (R280). -/
def State.plcTx (s : State) (l : Nat) (f : List Byte) : PlcTx :=
  let psd := fun a => min 80 ((s.rd a).toNat % 256)
  if l = 16 then
    { phases := s.fld Reg.BB_CTRL F.BB_CTRL_PH, unused := s.tmask, psd := psd Reg.BB_CTRL,
      map := ((List.range 32).find? (s.nbrIs (f.take 6))).bind (fun k => (s.nbr k).map), sealed := !plcClear f }
  else { phases := 0, unused := 0, psd := psd (linkBase l), map := none, sealed := !plcClear f }

/-- RETRY_LIM (R286, R293). -/
def State.retryLim (s : State) : Nat := orDefault (s.fld Reg.BB_TM F.BB_TM_RETRY_LIM) 1

/-- PLC channel l puts a frame on the line (R280, R286): the frame, then round by round the physical blocks that the SACK of
the round before listed, each at most RETRY_LIM times. -/
def State.plcSend (s : State) (l : Nat) (f : List Byte) (key : List Byte) (fails : List Byte) : State :=
  let how := s.plcTx l f
  let body := if how.sealed then (List.range f.length).map (Config.plcByte key f) else f
  (List.range s.retryLim).foldl (fun s r =>
    let again := indicesOf (fails.map (fun n => r < n.toNat))
    if again = [] then s else s.emit (.pbs l how again)) (s.emit (.plc l how body))

/-- A frame of a station on the backbone (R285 to R287): a station that is not in the table joins it where there is room. -/
def State.nbrFrame (s : State) (f : List Byte) (x : RxInfo) : State :=
  let lo := leNat ((f.drop 6).take 4)
  let hi := leNat ((f.drop 10).take 2)
  let (s, k) : State × Option Nat := match (List.range 32).find? (s.nbrIs ((f.drop 6).take 6)) with
    | some k => (s, some k)
    | none => match (List.range 32).find? (fun k => !s.nbrOn k) with
      | some k =>
        let s := (s.wrNat (Reg.BB_NBR_MAC_LO k) lo).wrNat (Reg.BB_NBR_ID k) (2 ^ 31 + x.tei.toNat * 2 ^ 16 + hi)
        let s := s.setNbr k { Nbr.reset with refreshAt := s.now, changedAt := s.now }
        (s.bump Reg.BB_STAT F.BB_STAT_NBR, some k)
      | none => ((s.setFlag Reg.BB_STAT F.BB_STAT_FULL true).note 0x0B 8 0x09, none)
  match k with
  | some k =>
    let b := s.nbr k
    let kept := x.symbols.filter (fun y => !s.blankedAt y.peak)
    let s := s.setNbr k { b with
      pbs := b.pbs + x.pbs.length, failed := b.failed + x.pbs.count false, ests := b.ests ++ kept.map (·.est) }
    if kept.length ≠ x.symbols.length then s.bump (Reg.BB_NBR_IMP_CNT k) F.BB_NBR_IMP_CNT_IMP_CNT else s
  | none => s

/-- T1S_CTRL is written (R290): EN written 0 then 1 lets a port send again whose self-check had failed. -/
def State.t1sCtrlWrite (s : State) (n : Nat) (data : Word) : State :=
  let was := s.flag (Reg.T1S_CTRL n) F.T1S_CTRL_EN
  let s := s.wr (Reg.T1S_CTRL n) (data &&& 0xF0000000)
  if !was ∧ s.flag (Reg.T1S_CTRL n) F.T1S_CTRL_EN ∧ s.links.phyFail.contains n then
    (s.setLinks { s.links with phyFail := s.links.phyFail.filter (· ≠ n) }).recoversCell 0x0A 0x02 n
  else s

/-- BB_CTRL.PH changes (R284, R288): channel estimation restarts with every neighbour. -/
def State.bbPhase (s : State) (ph : Nat) : State :=
  if s.fld Reg.BB_CTRL F.BB_CTRL_PH = ph then s
  else
    let s := s.setFld Reg.BB_CTRL F.BB_CTRL_PH ph
    (List.range 32).foldl (fun s k => if s.nbrOn k then s.estimate k else s) s

/-- The self-check of the PHY of T1S[n] fails (R290): the port stops sending, CONTAIN code 0x02. -/
def State.t1sFails (s : State) (n : Nat) : State :=
  (s.setLinks { s.links with phyFail := n :: s.links.phyFail.filter (· ≠ n) }).contain 0x0A n 0x02

end Sys2Proof.Machine
end

