-- ==== Sys2Proof/Machine/SessionOps.lean ====
section
/-!
DEFINITION. Machine/SessionOps.lean: the job rings, the codec and the TLS engine of the session engine (R295 to R311).
-/
namespace Sys2Proof.Machine

def State.sesOn (s : State) (c : Nat) : Bool :=
  s.flag Reg.SES_CTRL F.SES_CTRL_RUN && s.flag (Reg.SES_CH_CTRL c) F.SES_CH_CTRL_EN &&
    s.flag (Reg.SES_JOB_CFG c) F.SES_JOB_CFG_EN && !s.flag (Reg.SES_STAT c) F.SES_STAT_RING_STOP

def State.tlsOpen (s : State) (c : Nat) : Bool := s.flag (Reg.SES_STAT c) F.SES_STAT_TLS_OPEN

/-- Word i of the descriptor at place k of channel c (R295). -/
def State.jobAddr (s : State) (c k : Nat) : Nat := (s.rd (Reg.SES_JOB_BASE c)).toNat + 32 * k
def State.jobWord (s : State) (c k i : Nat) : Nat := s.num (s.jobAddr c k + 4 * i) 4
def State.jobOp (s : State) (c k : Nat) : Nat := s.jobWord c k 0 % 256
def State.jobSchema (s : State) (c k : Nat) : Nat := s.jobWord c k 0 / 256 % 16
def State.jobBit (s : State) (c k i : Nat) : Bool := bitOf (s.jobWord c k 0) i

/-- The operations of the TLS engine; the others are the codec's (R295). -/
def tlsOp (op : Nat) : Bool := 0x10 ≤ op && op ≤ 0x13
def codecOp (op : Nat) : Bool := 1 ≤ op && op ≤ 3

def State.jobLen (s : State) (c : Nat) : Nat := max 2 (s.fld (Reg.SES_JOB_CFG c) F.SES_JOB_CFG_LEN)

/-- The places of channel c from TAIL up to HEAD that are not complete. -/
def State.jobPlaces (s : State) (c : Nat) : List Nat :=
  let len := s.jobLen c
  let head := s.fld (Reg.SES_JOB_CFG c) F.SES_JOB_CFG_HEAD
  let tail := s.fld (Reg.SES_JOB_CFG c) F.SES_JOB_CFG_TAIL
  ((List.range ((head + len - tail) % len)).map (fun i => (tail + i) % len)).filter
    (fun k => !(Tab.get (fun _ => []) s.ses.ahead c).contains k)

/-- The oldest job of channel c for a cell. -/
def State.jobOf (s : State) (c : Nat) (tls : Bool) : Option Nat :=
  if s.sesOn c then
    (s.jobPlaces c).find? (fun k => if tls then tlsOp (s.jobOp c k) else codecOp (s.jobOp c k))
  else none

/-- The job a cell takes next: channels in rotation from the one after the last served (R296). -/
def State.nextJob (s : State) (tls : Bool) : Option (Nat × Nat) :=
  let last := if tls then s.ses.lastTls else s.ses.lastCodec
  ((List.range 8).map (fun i => (last + 1 + i) % 8)).findSome? (fun c => (s.jobOf c tls).map (fun k => (c, k)))

/-- TAIL passes every complete descriptor. -/
def advanceTail (len : Nat) : Nat → Nat → List Nat → Nat × List Nat
  | 0, t, l => (t, l)
  | n + 1, t, l => if l.contains t then advanceTail len n ((t + 1) % len) (l.filter (· ≠ t)) else (t, l)

/-- What a job answers. -/
structure JobOut where
  status : Nat
  detail : Nat
  out : List Byte
  tx : List Byte
  consumed : Nat
  ptype : Nat
deriving DecidableEq, Repr

/-- A buffer lies in shared SRAM and is aligned to 4 bytes (R295). -/
def bufOk (a n : Nat) : Bool := n = 0 || (sramRange a n && a % 4 = 0)

/-- A bus error of channel c (R311): its ring stops. -/
def State.sesBusError (s : State) (c : Nat) (tls : Bool) : State :=
  (s.setFlag (Reg.SES_STAT c) F.SES_STAT_RING_STOP true).contain 0x0D (bit01 tls) 0x04

/-- What the completion of job k writes (R295, R296): the buffers, then words 2, 4, 6 and 7, then DONE. -/
def State.jobWrites (s : State) (c k : Nat) (r : JobOut) : List (Nat × List Byte) :=
  let a := s.jobAddr c k
  [(s.jobWord c k 3, r.out), (s.jobWord c k 5, r.tx), (a + 10, leBytes 2 r.ptype), (a + 18, leBytes 2 r.out.length),
   (a + 26, leBytes 2 r.tx.length), (a + 28, leBytes 4 (r.status + r.detail * 2 ^ 8 + r.consumed * 2 ^ 16)),
   (a, leBytes 4 (withBit (s.jobWord c k 0) 31 true))]

/-- Job k of channel c is complete: its descriptor is written, TAIL passes it, and the job-complete line fires. A job
complete after a stopped ring recovers code 0x04 (R296, R311). -/
def State.jobDone (s : State) (c k : Nat) (r : JobOut) : State :=
  let tls := tlsOp (s.jobOp c k)
  let x := s.writeRanges 11 (s.jobWrites c k r)
  if x.1 then
    let s := x.2
    let done := k :: Tab.get (fun _ => []) s.ses.ahead c
    let (t, l) := advanceTail (s.jobLen c) (s.jobLen c) (s.fld (Reg.SES_JOB_CFG c) F.SES_JOB_CFG_TAIL) done
    let s := s.setSes { s.ses with ahead := Tab.set (fun _ => []) s.ses.ahead c l }
    let s := (s.setFld (Reg.SES_JOB_CFG c) F.SES_JOB_CFG_TAIL t).line 0x0D c
    if s.ses.wait.contains c then (s.setSes { s.ses with wait := s.ses.wait.filter (· ≠ c) }).recovers 0x0D 0x04 else s
  else x.2.sesBusError c tls

/-- The session of channel c has ended. -/
def State.tlsEnd (s : State) (c : Nat) : State :=
  (s.setFlag (Reg.SES_STAT c) F.SES_STAT_TLS_OPEN false).setFld (Reg.SES_STAT c) F.SES_STAT_TLS_VER 0

/-- A job of operation `op` on its cell: the cell takes the next job, whose buffers must be good (R296, R311); `f` answers it
for the channel and the place. -/
def State.runJob (s : State) (op : Nat) (f : Nat → Nat → State → State) : State :=
  s.onBlk .session (fun s =>
    let tls := tlsOp op
    if !s.dmaRoom 11 then s
    else
    match s.nextJob tls with
    | some (c, k) =>
      let r := s.readBlock 11 (s.jobAddr c k) 32
      if !r.1 then r.2.sesBusError c tls
      else if s.jobOp c k ≠ op then s
      else
        let s := r.2
        let s := s.setSes (if tls then { s.ses with lastTls := c } else { s.ses with lastCodec := c })
        let q := s.readRange 11 (s.jobWord c k 1) (s.jobWord c k 2 % 2 ^ 16)
        let s := q.2
        let outOk := bufOk (s.jobWord c k 3) (s.jobWord c k 4 % 2 ^ 16)
        if q.1 && bufOk (s.jobWord c k 1) (s.jobWord c k 2 % 2 ^ 16) && outOk &&
            (op = 0x12 || !tls || bufOk (s.jobWord c k 5) (s.jobWord c k 6 % 2 ^ 16)) then f c k s
        else
          let s := if !q.1 then s else if !bufOk (s.jobWord c k 1) (s.jobWord c k 2 % 2 ^ 16) then
              s.dmaRefused 11 (s.jobWord c k 1) false
            else s.dmaRefused 11 (if outOk then s.jobWord c k 5 else s.jobWord c k 3) true
          (s.jobDone c k { status := 0x30, detail := 0, out := [], tx := [], consumed := 0, ptype := s.jobWord c k 2 / 2 ^ 16 }).sesBusError c tls
    | none => s)

/-- The schema may be used (R295, R298). -/
def schemaOk (proto schema : Nat) : Bool :=
  schema = 1 || (proto = 1 && schema = 2) || (proto = 2 && schema = 3) || (proto = 3 && (schema = 4 || schema = 5))

/-- The current v × 10^m A exceeds `da` ÷ 10 A (R306), exactly. -/
def exceeds (v m : Int) (da : Nat) : Bool :=
  if 0 ≤ m then (da : Int) < v * (10 ^ m.toNat : Nat) * 10 else (da : Int) * (10 ^ (-m).toNat : Nat) < v * 10

/-- A clamp element after the clamp (R306). -/
def clampItem (da : Nat) (x : Int × Int) : Int × Int :=
  if exceeds x.1 x.2 da then (if 32767 < da then ((da / 10 : Nat), 0) else ((da : Nat), -1)) else x

/-- The V2GTP header (R300): version, inverse version, payload type and payload length. -/
def v2gtp (ptype n : Nat) : List Byte := [0x01, 0xFE] ++ beBytes 2 ptype ++ beBytes 4 n

/-- An answer with a status and no output. -/
def JobOut.fail (status detail consumed ptype : Nat) : JobOut := ⟨status, detail, [], [], consumed, ptype⟩

/-- Limits and status of R303: too deep, a string too long. -/
def foundStatus (bad : Nat) (x : Nat) : Nat × Nat := if x = 1 then (bad, 0) else if x = 2 then (0x12, 1) else (0x12, 2)

/-- The job's input bytes, its PTYPE, and the limit of channel c. -/
def State.jobIn (s : State) (c k : Nat) : List Byte := s.bytes (s.jobWord c k 1) (s.jobWord c k 2 % 2 ^ 16)
def State.jobPtype (s : State) (c k : Nat) : Nat := s.jobWord c k 2 / 2 ^ 16
def State.jobCap (s : State) (c k : Nat) : Nat := s.jobWord c k 4 % 2 ^ 16
def State.proto (s : State) (c : Nat) : Nat := s.fld (Reg.SES_CH_CTRL c) F.SES_CH_CTRL_PROTO
def State.thrDa (s : State) (c : Nat) : Nat := s.fld (Reg.SES_THR c) F.SES_THR_DA

/-- DECODE (R299, R300). -/
def State.decodeJob (s : State) (c k : Nat) : JobOut :=
  let sch := s.jobSchema c k
  let inp := s.jobIn c k
  let pt := s.jobPtype c k
  let used := min inp.length (Config.exiUsed 1 sch inp)
  let v2 := s.jobBit c k 12
  let body := if v2 then inp.drop 8 else inp
  let pt' := if v2 then beNat ((inp.drop 2).take 2) else pt
  if !schemaOk (s.proto c) sch then .fail 0x15 0 used pt
  else if 8192 < inp.length then .fail 0x12 3 used pt
  else if v2 ∧ (inp.take 2 ≠ [0x01, 0xFE] ∨ inp.length < 8 ∨ beNat ((inp.drop 4).take 4) ≠ inp.length - 8) then
    .fail 0x14 0 used pt
  else
    let x := Config.exiFinds sch body % 4
    if x ≠ 0 then .fail (foundStatus 0x10 x).1 (foundStatus 0x10 x).2 used pt'
    else
      let img := Config.exiImage sch body
      if 16384 < img.length then .fail 0x12 3 used pt'
      else if s.jobCap c k < img.length then .fail 0x13 0 used pt'
      else ⟨0x00, 0, img, [], used, pt'⟩

/-- What the value of a node must be (R299, R303): 0 passes, 1 does not, 3 a value too long; an ELEM is judged by its nodes. -/
def nodeValue (kind : Nat) (v : List Byte) : Nat :=
  if kind = 2 ∨ kind = 3 then (if v.length = 8 then 0 else 1)
  else if kind = 4 then (if v.length = 1 ∧ leNat v ≤ 1 then 0 else 1)
  else if kind = 5 then (if v.length = 4 then 0 else 1)
  else if kind = 6 ∨ kind = 7 then (if 4096 < v.length then 3 else 0)
  else if kind = 8 then (if v.length = 0 then 0 else 1)
  else if kind = 1 then 0
  else 1

/-- The nodes of an image at a depth (R299, R303): 0 well formed, 1 not, 2 deeper than 24 levels, 3 a value above 4,096 bytes.
`n` bounds the nodes. -/
def imageNodes : Nat → Nat → List Byte → Nat
  | 0, _, b => if b = [] then 0 else 1
  | n + 1, depth, b =>
    let size := leNat ((b.drop 4).take 4)
    let kind := leNat ((b.drop 3).take 1) % 128
    let v := (b.drop 8).take size
    let inner := if kind = 1 then imageNodes n (depth + 1) v else nodeValue kind v
    if b = [] then 0
    else if 24 < depth then 2
    else if b.length < 8 + size then 1
    else if inner ≠ 0 then inner
    else imageNodes n depth (b.drop (8 + (size + 3) / 4 * 4))

/-- What ENCODE and DIGEST ask of their image (R299, R303): none where it passes. -/
def State.imageCheck (s : State) (c k op : Nat) : Option JobOut :=
  let sch := s.jobSchema c k
  let img := s.jobIn c k
  let pt := s.jobPtype c k
  let used := min img.length (Config.exiUsed op sch img)
  let nodes := imageNodes img.length 1 img
  let x := if nodes ≠ 0 then nodes else Config.imageFinds sch img % 4
  if !schemaOk (s.proto c) sch then some (.fail 0x15 0 used pt)
  else if 16384 < img.length then some (.fail 0x12 3 used pt)
  else if x ≠ 0 then some (.fail (foundStatus 0x11 x).1 (foundStatus 0x11 x).2 used pt)
  else none

/-- The clamp elements of job k after the clamp, and whether it changed one (R306). -/
def State.clamped (s : State) (c k : Nat) : List (Int × Int) × Bool :=
  let items := Config.clampItems (s.jobSchema c k) (s.jobIn c k)
  if s.jobBit c k 13 then (items.map (clampItem (s.thrDa c)), items.any (fun x => exceeds x.1 x.2 (s.thrDa c)))
  else (items, false)

/-- ENCODE (R299, R300, R306). -/
def State.encodeJob (s : State) (c k : Nat) : JobOut :=
  match s.imageCheck c k 2 with
  | some r => r
  | none =>
    let sch := s.jobSchema c k
    let img := s.jobIn c k
    let pt := s.jobPtype c k
    let used := min img.length (Config.exiUsed 2 sch img)
    let (items, changed) := s.clamped c k
    let body := Config.exiStream sch img items
    let out := if s.jobBit c k 12 then v2gtp pt body.length ++ body else body
    if s.jobCap c k < out.length then .fail 0x13 0 used pt else ⟨0x00, bit01 changed, out, [], used, pt⟩

/-- DIGEST (R301). -/
def State.digestJob (s : State) (c k : Nat) : JobOut :=
  match s.imageCheck c k 3 with
  | some r => r
  | none =>
    let sch := s.jobSchema c k
    let img := s.jobIn c k
    let pt := s.jobPtype c k
    let used := min img.length (Config.exiUsed 3 sch img)
    let frag := Config.exiFragment sch img
    let d := if s.jobWord c k 0 / 2 ^ 14 % 4 = 1 then sha384 frag else sha256 frag
    if s.jobCap c k < d.length then .fail 0x13 0 used pt else ⟨0x00, 0, d, [], used, pt⟩

/-! TLS (R302, R303): suites, groups and schemes by the code points of their RFCs. -/

/-- The version that a hello leads to with a server key of algorithm `alg` (R302): 2 TLS 1.3, 1 TLS 1.2, 0 none. -/
def tlsPick (alg : Nat) (o : TlsOffer) : Nat :=
  let has := fun (l : List (BitVec 16)) (ok : List (BitVec 16)) => ok.any l.contains
  if o.tls13 ∧ has o.suites [0x1301, 0x1302] ∧ has o.groups [0x0017, 0x0018] ∧
      has o.schemes [if alg384 alg then 0x0503 else 0x0403] then 2
  else if o.tls12 ∧ !alg384 alg ∧ has o.suites [0xC023, 0xC025, 0xC02B] ∧ has o.groups [0x0017] ∧ has o.schemes [0x0403] then 1
  else 0

/-- The server key of channel c (R303). -/
def State.tlsKey (s : State) (c : Nat) : Option KeyRec :=
  s.usable (s.fld (Reg.SES_TLS c) F.SES_TLS_KEY_SLOT) useSign userSession algPriv

/-- The public keys of the trust anchors of channel c (R303). -/
def State.tlsAnchors (s : State) (c : Nat) : List (List Byte) :=
  ((List.range 32).filter (bitOf (s.fld (Reg.SES_ROOTS c) F.SES_ROOTS_VAL))).filterMap
    (fun n => (s.usable n useVerify userSession algPub).map (·.pub))

/-- The issuer of each certificate of a chain is the key of the next, of the last a trust anchor. -/
def tlsPath (anchors : List (List Byte)) : List TlsCert → Bool
  | [] => true
  | [x] => anchors.contains x.issuer
  | x :: y :: l => x.issuer = y.pub && tlsPath anchors (y :: l)

/-- Why a client's chain is rejected (R297, R303): DETAIL 1 path, 2 signature, 3 validity, 4 depth. -/
def State.tlsChainBad (s : State) (c : Nat) (l : List TlsCert) : Option Nat :=
  let utc := s.tbSec 0 - s.fld Reg.SES_TLS_CFG F.SES_TLS_CFG_UTC_OFS
  if 4 < l.length then some 4
  else if !tlsPath (s.tlsAnchors c) l then some 1
  else if !l.all (fun x => Config.verifies x.p384 x.issuer x.digest x.sig) then some 2
  else if !l.all (fun x => x.notBefore ≤ utc ∧ utc ≤ x.notAfter) then some 3
  else none

/-- The version of channel c's session once the input of a job is taken. -/
def State.tlsVersion (s : State) (c : Nat) (r : TlsOut) : Nat :=
  match r.offer, s.tlsKey c with
  | some o, some k => tlsPick k.alg o
  | _, _ => s.fld (Reg.SES_STAT c) F.SES_STAT_TLS_VER

/-- The status and detail with which a handshake fails (R297, R302, R303): none where it goes on. A hello without a supported
parameter has the alert handshake_failure; without a server key the alert is not stated. -/
def State.tlsRefusal (s : State) (c : Nat) (r : TlsOut) : Option (Nat × Nat) :=
  let chain := if s.flag (Reg.SES_TLS c) F.SES_TLS_CLIENT_AUTH ∧ s.tlsVersion c r = 2 ∧ r.chain ≠ [] then
    (s.tlsChainBad c r.chain).map (fun d => (0x22, d)) else none
  match r.offer with
  | some o => match s.tlsKey c with
    | some k => if tlsPick k.alg o = 0 then some (0x21, 40) else chain
    | none => some (0x21, s.freeNat % 256)
  | none => chain

/-- A handshake of channel c has failed: the alert goes to TX and the session ends. -/
def State.tlsFail (s : State) (c k : Nat) (why : Nat × Nat) (r : TlsOut) : State :=
  let was := s.tlsOpen c
  let tx := if r.tx.length ≤ s.jobWord c k 6 % 2 ^ 16 then r.tx else []
  let s := ((s.drew 1).jobDone c k ⟨why.1, why.2, [], tx, r.consumed.toNat, s.jobPtype c k⟩).tlsEnd c
  if was then s.line 0x0D (0x18 + c) else s

/-- A TLS job (R302, R303): without a session, but for TLS_ACCEPT, status 0x23; a handshake that fails ends it; else the
engine's result `r`, where its output fits. -/
def State.tlsJob (s : State) (op : Nat) (r : TlsOut) : State :=
  s.runJob op (fun c k s =>
    let pt := s.jobPtype c k
    let was := s.tlsOpen c
    if op ≠ 0x10 ∧ !was then s.jobDone c k (.fail 0x23 0 0 pt)
    else
      let cert := min 4096 (s.fld (Reg.SES_CERT_LEN c) F.SES_CERT_LEN_VAL)
      let q := if op = 0x10 then s.readRange 11 (s.rd (Reg.SES_CERT_BASE c)).toNat cert else (true, s)
      let s := q.2
      if !q.1 then (s.jobDone c k (.fail 0x30 0 0 pt)).sesBusError c true
      else if op = 0x10 ∧ !bufOk (s.rd (Reg.SES_CERT_BASE c)).toNat cert then
        ((s.dmaRefused 11 (s.rd (Reg.SES_CERT_BASE c)).toNat false).jobDone c k (.fail 0x30 0 0 pt)).sesBusError c true
      else
        match s.tlsRefusal c r with
        | some why => s.tlsFail c k why r
        | none =>
        let ver := s.tlsVersion c r
        let fits := r.out.length ≤ s.jobCap c k && r.tx.length ≤ s.jobWord c k 6 % 2 ^ 16
        let tx := if op = 0x12 then [] else r.tx
        let s := if fits then s.jobDone c k ⟨r.status.toNat, r.detail.toNat, r.out, tx, r.consumed.toNat, pt⟩
          else s.jobDone c k (.fail 0x13 0 0 pt)
        let open_ := fits && r.stays && op ≠ 0x13 || !fits && was
        let s := if open_ then
            (s.setFlag (Reg.SES_STAT c) F.SES_STAT_TLS_OPEN true).setFld (Reg.SES_STAT c) F.SES_STAT_TLS_VER
              (if fits then ver else s.fld (Reg.SES_STAT c) F.SES_STAT_TLS_VER)
          else s.tlsEnd c
        let s := if fits ∧ r.complete ∧ open_ then s.line 0x0D (0x10 + c) else s
        if was ∧ !open_ then s.line 0x0D (0x18 + c) else s)

/-- THR of channel c as the thermal unit writes it (R306, R307). -/
def State.setThr (s : State) (c da : Nat) : State :=
  s.onBlk .session (fun s =>
    if s.thrDa c = da % 2 ^ 16 then s
    else ((s.setFld (Reg.SES_THR c) F.SES_THR_DA da).setFlag (Reg.SES_STAT c) F.SES_STAT_TOLD false).line 0x0D (0x08 + c))

/-- SES[c].CTRL is written (R297, R311). -/
def State.sesCtrlWrite (s : State) (c : Nat) (data : Word) : State :=
  let s := s.wr (Reg.SES_CH_CTRL c) (data &&& 0x80000003)
  let stop := s.flag (Reg.SES_STAT c) F.SES_STAT_RING_STOP
  if s.flag (Reg.SES_CH_CTRL c) F.SES_CH_CTRL_EN then
    if stop ∧ s.ses.off.contains c then
      (s.setFlag (Reg.SES_STAT c) F.SES_STAT_RING_STOP false).setSes
        { s.ses with off := s.ses.off.filter (· ≠ c), wait := c :: s.ses.wait.filter (· ≠ c) }
    else s
  else
    let s := s.tlsEnd c
    if stop then s.setSes { s.ses with off := c :: s.ses.off.filter (· ≠ c) } else s

/-- JOB_CFG is written (R313): EN going to 1 sets HEAD and TAIL to 0. -/
def State.jobCfgWrite (s : State) (c : Nat) (data : Word) : State :=
  let r := Reg.SES_JOB_CFG c
  let was := s.flag r F.SES_JOB_CFG_EN
  let s := s.wrAccess r data
  if s.flag r F.SES_JOB_CFG_EN ∧ !was then
    ((s.setFld r F.SES_JOB_CFG_HEAD 0).setFld r F.SES_JOB_CFG_TAIL 0).setSes
      { s.ses with ahead := Tab.set (fun _ => []) s.ses.ahead c [] }
  else s

end Sys2Proof.Machine
end

