-- ==== Sys2Proof/Machine/ThermalOps.lean ====
section
/-!
DEFINITION. Machine/ThermalOps.lean: inputs, candidates, the cable model, limits, shutdowns and fans of the thermal unit
(R314 to R335).
-/
namespace Sys2Proof.Machine

def State.sensor (s : State) (n : Nat) : Sensor := Tab.get (fun _ => Sensor.reset) s.thermal.sensor n
def State.setSensor (s : State) (n : Nat) (x : Sensor) : State :=
  s.setThermal { s.thermal with sensor := Tab.set (fun _ => Sensor.reset) s.thermal.sensor n x }
def State.cable (s : State) (o : Nat) : Cable := Tab.get (fun _ => Cable.reset) s.thermal.cable o
def State.setCable (s : State) (o : Nat) (x : Cable) : State :=
  s.setThermal { s.thermal with cable := Tab.set (fun _ => Cable.reset) s.thermal.cable o x }
def State.fan (s : State) (k : Nat) : Fan := Tab.get (fun _ => Fan.reset) s.thermal.fan k
def State.setFan (s : State) (k : Nat) (x : Fan) : State :=
  s.setThermal { s.thermal with fan := Tab.set (fun _ => Fan.reset) s.thermal.fan k x }

def State.thOn (s : State) : Bool := s.flag Reg.TH_CTRL F.TH_CTRL_EN

/-! Inputs (R314 to R320) -/

def State.tsType (s : State) (n : Nat) : Nat := s.fld (Reg.TS_CFG n) F.TS_CFG_TYPE
def State.tsOn (s : State) (n : Nat) : Bool := s.flag (Reg.TS_CFG n) F.TS_CFG_EN && s.tsType n ≤ 1
def State.tsLoop (s : State) (n : Nat) : Bool := s.flag (Reg.TS_CFG n) F.TS_CFG_CLASS
def State.tsFlag (s : State) (n : Nat) (f : Fld) : Bool := s.flag (Reg.TS_VAL n) f
/-- The used value in 0.1 °C. -/
def State.tsUsed (s : State) (n : Nat) : Int := signed 16 (s.fld (Reg.TS_VAL n) F.TS_VAL_T)
def State.tsThr (s : State) (n : Nat) : Int := signed 16 (s.fld (Reg.TS_LIM n) F.TS_LIM_THR)
def State.tsShut (s : State) (n : Nat) : Int := signed 16 (s.fld (Reg.TS_LIM n) F.TS_LIM_SHUT)
def State.tsWarn (s : State) (n : Nat) : Int := signed 16 (s.fld (Reg.TS_LIM2 n) F.TS_LIM2_WARN)
def State.tsHyst (s : State) (n : Nat) : Int := s.fld (Reg.TS_LIM2 n) F.TS_LIM2_HYST
def State.tsTol (s : State) (n : Nat) : Int := s.fld (Reg.TS_LIM2 n) F.TS_LIM2_TOL
/-- The input concerns outlet o. -/
def State.concerns (s : State) (n o : Nat) : Bool := s.tsOn n && bitOf (s.fld (Reg.TS_CFG n) F.TS_CFG_OUTM) o
/-- The input has a used value: it is enabled, and valid or replaced. -/
def State.tsUsable (s : State) (n : Nat) : Bool :=
  s.tsOn n && (s.tsFlag n F.TS_VAL_SUBST || (!s.tsFlag n F.TS_VAL_BROKEN && (s.sensor n).reading.isSome))

/-- The readings of the neighbours that qualify (R317): valid, unsubstituted, not the input itself. -/
def State.neighbours (s : State) (n : Nat) : List Int :=
  let w := s.fld (Reg.TS_NBR n) F.TS_NBR_NBR
  let cnt := min 4 (s.fld (Reg.TS_NBR n) F.TS_NBR_NCNT)
  (List.range cnt).filterMap (fun i =>
    let m := w / 2 ^ (6 * i) % 64
    if m ≠ n ∧ s.tsOn m ∧ !s.tsFlag m F.TS_VAL_BROKEN ∧ !s.tsFlag m F.TS_VAL_SUBST then (s.sensor m).reading else none)

def insertInt (x : Int) : List Int → List Int
  | [] => [x]
  | h :: t => if x ≤ h then x :: h :: t else h :: insertInt x t

/-- The median; for an even count the higher of the two middle values (R317). -/
def median (l : List Int) : Int := (l.foldr insertInt []).getD (l.length / 2) 0

/-- The values differ by no more than `tol`. -/
def within (tol : Int) (l : List Int) : Bool := l.all (fun x => l.all (fun y => x - y ≤ tol))

/-- 2 × artanh (a ÷ b) in units of 2^-160, for a below b ÷ 3: the sum of 2 (a ÷ b)^(2k+1) ÷ (2k + 1), `n` terms from the
term `p` on. -/
def artanh2 (a b : Nat) : Nat → Nat → Nat → Nat
  | 0, _, _ => 0
  | n + 1, k, p => 2 * p / (2 * k + 1) + artanh2 a b n (k + 1) (p * a * a / (b * b))

/-- ln (a ÷ b) in units of 2^-160: a ÷ b is m × 2^e with m from 1 to below 2, and ln m is 2 artanh ((m − 1) ÷ (m + 1)). -/
def lnFix (a b : Nat) : Int :=
  let e : Int := (Nat.log2 (a * 2 ^ 64 / b) : Int) - 64
  let x := a * 2 ^ (-e).toNat
  let y := b * 2 ^ e.toNat
  let f := fun (p q : Nat) => (artanh2 p q 52 0 (2 ^ 160 * p / q) : Int)
  e * f 1 3 + f (x - y) (x + y)

/-- The temperature of an NTC in 0.1 °C, toward zero (R314): BETA in K, the sample ratio in 2^-20. -/
def ntcTemp (beta r : Nat) : Int :=
  let d := 20 * (beta : Int) * 2 ^ 160 + 5963 * lnFix r (2 ^ 20 - r)
  if d ≤ 0 then 10 ^ 6 else divZero (2 * 59630 * beta * 2 ^ 160 - 5463 * d) (2 * d)

/-- The conversion of a sample ratio (in 2^-20): none where it is broken (R314, R315). -/
def State.convert (s : State) (n r : Nat) : Option Int :=
  let beta := s.fld (Reg.TS_CFG n) F.TS_CFG_BETA
  let t := if s.tsType n = 0 then Config.ptTemp r else ntcTemp beta r
  if r * 50 < 2 ^ 20 ∨ 49 * 2 ^ 20 < r * 50 ∨ t < -550 ∨ 2500 < t ∨ (s.tsType n = 1 ∧ beta = 0) then none else some t

/-! Candidates and limits (R320, R323, R324) -/

def State.cblOn (s : State) (o : Nat) : Bool := s.flag (Reg.CBL_CFG o) F.CBL_CFG_EN
def State.cblFlag (s : State) (o : Nat) (f : Fld) : Bool := s.flag (Reg.CBL_STATE o) f
def State.cblDa (s : State) (o : Nat) : Nat := s.fld (Reg.CBL_LIMIT o) F.CBL_LIMIT_DA
def State.cblEnf (s : State) (o : Nat) : Nat := s.fld (Reg.CBL_LIMIT o) F.CBL_LIMIT_ENF
def State.rated (s : State) (o : Nat) : Nat := s.fld (Reg.CBL_RATED o) F.CBL_RATED_RATED
def State.mThr (s : State) (o : Nat) : Int := signed 16 (s.fld (Reg.CBL_MLIM o) F.CBL_MLIM_MTHR)
def State.mShut (s : State) (o : Nat) : Int := signed 16 (s.fld (Reg.CBL_MLIM o) F.CBL_MLIM_MSHUT)
def State.mWarn (s : State) (o : Nat) : Int := signed 16 (s.fld (Reg.CBL_MLIM2 o) F.CBL_MLIM2_MWARN)
def State.mHyst (s : State) (o : Nat) : Int := s.fld (Reg.CBL_MLIM2 o) F.CBL_MLIM2_MHYST
/-- MT in 0.1 °C, toward zero. -/
def State.mtTenths (s : State) (o : Nat) : Int := divZero (s.cable o).mt 100000000
def State.coolTs (s : State) (o : Nat) : Nat := s.fld (Reg.CBL_CFG o) F.CBL_CFG_COOL_TS

/-- The candidate of input n for outlet o (R320). Where SHUT is not above THR no span is left: 0. -/
def State.inputCand (s : State) (n o : Nat) : Nat :=
  let span := s.tsShut n - s.tsThr n
  if span ≤ 0 then 0
  else (clampInt 0 (s.rated o) (divZero ((s.rated o : Int) * (s.tsShut n - s.tsUsed n)) span)).toNat

/-- The greatest r below 2^n with r × r ≤ x. -/
def isqrt (x : Nat) : Nat → Nat → Nat
  | 0, r => r
  | n + 1, r => if (r + 2 ^ n) * (r + 2 ^ n) ≤ x then isqrt x n (r + 2 ^ n) else isqrt x n r

/-- The candidate of the model of outlet o (R323); `free` stands for the value where the quotient is not defined. -/
def State.modelCand (s : State) (o free : Nat) : Nat :=
  let dt := s.mThr o - s.tsUsed (s.coolTs o)
  if dt ≤ 0 then 0
  else
    let al : Int := s.fld (Reg.CBL_CTH o) F.CBL_CTH_ALPHA
    let den := (s.fld (Reg.CBL_RTH o) F.CBL_RTH_RTH : Int) * s.fld (Reg.CBL_R20 o) F.CBL_R20_R20 *
      (10000000 + al * (s.mThr o - 200))
    let x := if den ≤ 0 then free % 2 ^ 16 else isqrt (dt * 100000000000000000000000 / den).toNat 24 0
    min (s.rated o) x

/-- The channel counts as stalled (R331). -/
def State.fanStalled (s : State) (k : Nat) : Bool :=
  s.flag (Reg.FAN_CFG k) F.FAN_CFG_EN &&
    (s.flag (Reg.FAN_STAT k) F.FAN_STAT_STALL || s.flag (Reg.FAN_STAT k) F.FAN_STAT_STUCK)

/-- The active candidates of outlet o: kind (1 model, 2 input, 3 stall), sensor, value. -/
def State.candidates (s : State) (o free : Nat) : List (Nat × Nat × Nat) :=
  (if (s.cable o).throt then [(1, 0, s.modelCand o free)] else []) ++
  ((List.range 64).filter (fun n => s.concerns n o && s.tsUsable n && s.tsFlag n F.TS_VAL_THROT)).map
    (fun n => (2, n, s.inputCand n o)) ++
  (if (List.range 4).any (fun k => s.fanStalled k && bitOf (s.fld (Reg.FAN_OUTM k) F.FAN_OUTM_OUTM) o) then
    [(3, 0, s.fld (Reg.CBL_RATED o) F.CBL_RATED_NOFLOW)] else [])

/-- The lowest candidate, the first among equals. -/
def lowest : List (Nat × Nat × Nat) → Option (Nat × Nat × Nat)
  | [] => none
  | h :: t => match lowest t with
    | some x => if x.2.2 < h.2.2 then some x else some h
    | none => some h

/-- TLIM of an enforced value (R325). -/
def tlimOf (enf : Nat) : Word :=
  BitVec.ofNat 32 (if enf = 0xFFFF then 0x7FFFFFFF else min 0x7FFFFFFF (enf * 2 ^ 31 / 40960))

/-- ENF := e, and TLIM[o] follows. -/
def State.setEnf (s : State) (o e : Nat) : State :=
  (s.setFld (Reg.CBL_LIMIT o) F.CBL_LIMIT_ENF e).onBlk .twill (fun s => s.setTlim o (tlimOf e))

/-- DA changes (R324): the past value enters the history of R325, THR follows, line o; an increase is enforced at once
(R325). -/
def State.setDa (s : State) (o da : Nat) : State :=
  let was := s.cblDa o
  if was = da then s
  else
    let x := s.cable o
    let s := s.setCable o { x with hist := (s.now, was) :: x.hist.filter (fun h => s.now < h.1 + 10001 * ticksPerMs) }
    let s := ((s.setFld (Reg.CBL_LIMIT o) F.CBL_LIMIT_DA da).setThr o da).line 0x19 o
    if s.cblEnf o < da then s.setEnf o da else s

/-- The greatest DA held during the last GRACE ms (R325). -/
def State.enforced (s : State) (o : Nat) : Nat :=
  let g := clampNat 500 10000 (s.fld Reg.TH_CTRL F.TH_CTRL_GRACE) * ticksPerMs
  (((s.cable o).hist.filter (fun h => s.now < h.1 + g)).map (·.2)).foldl max (s.cblDa o)

/-! The cable model's readings (R321) -/

/-- The word of OUTL[o].I_AIN in the interval of outlet o (R321): a stale one counts as RATED while Selvedge reports SOUT[o]
closed, else as 0, and sets STALE. -/
def State.cableSample (s : State) (o : Nat) : State :=
  let ain := s.fld (Reg.OUTL_CFG o) F.OUTL_CFG_I_AIN
  let x := s.cable o
  let sc := s.fld (Reg.CBL_CFG o) F.CBL_CFG_ISCALE
  let rat := if s.energ o then s.rated o else 0
  let sq := if s.stale ain then rat * rat * 2 ^ 62 else 100 * (sc * (s.ainRes ain).natAbs) ^ 2
  (s.setFlag (Reg.CBL_STATE o) F.CBL_STATE_STALE (s.stale ain)).setCable o { x with sum := x.sum + sq, seen := x.seen + 1 }

/-- The enabled unit reads the words of the outlets it tracks. -/
def State.cableSamples (s : State) : State :=
  if s.up 0x19 && s.thOn then (List.range 8).foldl (fun s o => if s.cblOn o then s.cableSample o else s) s else s

/-! Shutdowns (R326 to R329) -/

/-- A thermal record (R327). -/
def State.thermalRec (s : State) (kind o cause sensor : Nat) (t : Int) (da : Nat) : List Byte :=
  leBytes 1 kind ++ leBytes 1 o ++ leBytes 1 cause ++ leBytes 1 sensor ++ leBytes 2 (unsigned 16 t) ++
    leBytes 2 (unsigned 16 (s.mtTenths o)) ++ leBytes 2 da ++ leBytes 2 0 ++ leBytes 4 (s.tbSubNs 0) ++
    leBytes 4 (s.tbSec 0) ++ leBytes 4 (s.tbSec 3) ++ leBytes 8 0

/-- A record waits for the event store; the ninth is discarded, NOTE code 0x0A (R327). -/
def State.queueRecord (s : State) (o : Nat) (r : List Byte) : State :=
  if s.thermal.queue.length < 8 then
    (s.setThermal { s.thermal with queue := s.thermal.queue ++ [r] }).setFld Reg.TH_STAT F.TH_STAT_QDEPTH (s.thermal.queue.length + 1)
  else (s.setFlag Reg.TH_STAT F.TH_STAT_QUEUE_OVF true).note 0x19 (0x60 + o) 0x0A

/-- DA := 0 and ENF := 0 at once, and HARD (R326). -/
def State.hardShut (s : State) (o : Nat) : State :=
  let s := (s.setDa o 0).setFlag (Reg.CBL_STATE o) F.CBL_STATE_HARD true
  (s.setCable o { s.cable o with hist := [] }).setEnf o 0

/-- A cause of a shutdown of outlet o (R326, R329): a tracked outlet that is not shut down enters it; a hard cause makes a soft
one hard. -/
def State.shutdown (s : State) (o : Nat) (hard : Bool) (cause sensor : Nat) (t : Int) : State :=
  if !s.cblOn o then s
  else if s.cblFlag o F.CBL_STATE_SHUT then
    if hard ∧ !s.cblFlag o F.CBL_STATE_HARD then s.hardShut o else s
  else
    let r := s.thermalRec 0x31 o cause sensor t (s.cblDa o)
    let s := (s.setFlag (Reg.CBL_STATE o) F.CBL_STATE_SHUT true).setFlag (Reg.CBL_STATE o) F.CBL_STATE_READY false
    let s := s.setCable o { s.cable o with holdAt := none }
    let s := s.setFld (Reg.CBL_CAUSE o) F.CBL_CAUSE_SCAUSE cause
    let s := s.setFlag (Reg.CBL_CAUSE o) F.CBL_CAUSE_NOSENS (sensor = 0xFF)
    let s := s.setFld (Reg.CBL_CAUSE o) F.CBL_CAUSE_SENSOR (if sensor = 0xFF then 0 else sensor)
    let s := s.setDa o 0
    let s := if hard then s.hardShut o else s
    ((s.queueRecord o r).note 0x19 (0x60 + o) 0x05).line 0x19 (0x08 + o)

/-- What R328 asks of an outlet before it may leave a shutdown. -/
def State.holdOk (s : State) (o : Nat) : Bool :=
  (List.range 64).all (fun n => !s.concerns n o || (s.tsUsable n && s.tsUsed n < s.tsThr n - s.tsHyst n)) &&
    s.mtTenths o < s.mThr o - s.mHyst o && !s.flag Reg.TH_STAT F.TH_STAT_REF_ERR

/-- The hold of outlet o starts, goes on or ends (R328, R329). -/
def State.holdSync (s : State) (o : Nat) : State :=
  if s.cblFlag o F.CBL_STATE_SHUT then
    let x := s.cable o
    s.setCable o { x with holdAt := if s.holdOk o then some (x.holdAt.getD s.now) else none }
  else s

def State.holdSyncAll (s : State) : State := (List.range 8).foldl (fun s o => s.holdSync o) s

/-- The bands of an input follow its used value (R319): entering WARN raises line 0x18; a value at or above SHUT shuts the
outlets concerned down hard. -/
def State.bandSync (s : State) (n : Nat) : State :=
  let t := s.tsUsed n
  let band := fun (was : Bool) (lim : Int) => if was then !(decide (t < lim - s.tsHyst n)) else decide (lim ≤ t)
  let warned := s.tsFlag n F.TS_VAL_WARN
  let w := band warned (s.tsWarn n)
  let s := (s.setFlag (Reg.TS_VAL n) F.TS_VAL_WARN w).setFlag (Reg.TS_VAL n) F.TS_VAL_THROT
    (band (s.tsFlag n F.TS_VAL_THROT) (s.tsThr n))
  let hot : Bool := s.tsShut n ≤ t
  let s := s.setFlag (Reg.TS_VAL n) F.TS_VAL_SHUTB hot
  let s := if w ∧ !warned then s.line 0x19 0x18 else s
  if hot then (List.range 8).foldl (fun s o => if s.concerns n o then s.shutdown o true 0 n t else s) s else s

/-! Fans (R330, R331) -/

/-- The duty of FAN_PWM[k] in 0.1 % (R330, R333, R335). -/
def State.fanDuty (s : State) (k : Nat) : Nat :=
  let f := s.fan k
  let fail := s.fld (Reg.FAN_DUTY k) F.FAN_DUTY_FAIL
  let dmin := s.fld (Reg.FAN_DLIM k) F.FAN_DLIM_DMIN
  let dmax := s.fld (Reg.FAN_DLIM k) F.FAN_DLIM_DMAX
  if f.held.isSome then f.held.getD 0
  else if s.regionHeld 3 then 0
  else if !s.flag (Reg.FAN_CFG k) F.FAN_CFG_EN then 0
  else if s.flag Reg.TH_STAT F.TH_STAT_REF_ERR then fail
  else
    let src := s.fld (Reg.FAN_CFG k) F.FAN_CFG_SRC
    let curve := s.flag (Reg.FAN_CFG k) F.FAN_CFG_MODE
    if curve ∧ s.tsFlag src F.TS_VAL_BROKEN ∧ !s.tsFlag src F.TS_VAL_SUBST then fail
    else
      let t := s.tsUsed src
      let lo := signed 16 (s.fld (Reg.FAN_CURVE k) F.FAN_CURVE_T_LO)
      let hi := signed 16 (s.fld (Reg.FAN_CURVE k) F.FAN_CURVE_T_HI)
      let d := if !curve then min 1000 (s.fld (Reg.FAN_DUTY k) F.FAN_DUTY_DUTY)
        else if t ≤ lo then dmin
        else if hi ≤ t then dmax
        else (dmin + divZero (((dmax : Int) - dmin) * (t - lo)) (hi - lo)).toNat
      let loaded := (List.range 8).any (fun o => bitOf (s.fld (Reg.FAN_OUTM k) F.FAN_OUTM_OUTM) o &&
        (s.cblFlag o F.CBL_STATE_THROT || s.cblFlag o F.CBL_STATE_SHUT))
      if loaded then max d dmax else d

/-- The frequency of FAN_PWM[k] in Hz, and its level: high for the first part of each period (R330). -/
def State.fanHz (s : State) (k : Nat) : Nat := clampNat 100 50000 (s.fld (Reg.FAN_CFG k) F.FAN_CFG_FREQ)
def State.fanPwm (s : State) (k : Nat) : Bool :=
  s.domUp 6 && s.now * s.fanHz k * 1000 / ticksPerS % 1000 < s.fanDuty k

/-- The stall timers of channel k follow its speed and duty (R331). -/
def State.fanSync (s : State) (k : Nat) : State :=
  let f := s.fan k
  let low := s.fld (Reg.FAN_STAT k) F.FAN_STAT_RPM < s.fld (Reg.FAN_TACH2 k) F.FAN_TACH2_SPD_MIN
  let run := s.flag (Reg.FAN_CFG k) F.FAN_CFG_EN && s.fld (Reg.FAN_DLIM k) F.FAN_DLIM_DMIN ≤ s.fanDuty k
  s.setFan k { f with lowAt := if low ∧ run then some (f.lowAt.getD s.now) else none,
                      okAt := if low then none else some (f.okAt.getD s.now) }

def State.fanSyncAll (s : State) : State := (List.range 4).foldl (fun s k => s.fanSync k) s

/-! Resets (R333) -/

/-- After a region reset the unit rewrites TLIM and THR (R309, R333). -/
def State.thermalRestore (s : State) : State :=
  if s.up 0x19 then (List.range 8).foldl (fun s o => (s.setThr o (s.cblDa o)).setEnf o (s.cblEnf o)) s else s

/-! CBL[o].CFG (R322, R324) -/

/-- CBL[o].CFG is written: a rise of EN sets MT to tcool + INIT_K, but for the first rise after a reset that kept MT; an
outlet that is not tracked has DA = 0xFFFF. -/
def State.cblCfgWrite (s : State) (o : Nat) (data : Word) : State :=
  let was := s.cblOn o
  let s := s.wr (Reg.CBL_CFG o) (data &&& 0xBFFFFFFF)
  if s.cblOn o ∧ !was then
    let x := s.cable o
    if x.kept then s.setCable o { x with kept := false }
    else
      let mt := (s.tsUsed (s.coolTs o) + s.fld (Reg.CBL_CFG o) F.CBL_CFG_INIT_K) * 100000000
      let s := s.setCable o { x with mt := mt, throt := false, sum := 0, seen := 0 }
      s.setFld (Reg.CBL_STATE o) F.CBL_STATE_MT (unsigned 16 (s.mtTenths o))
  else if was ∧ !s.cblOn o then s.setDa o 0xFFFF
  else s

/-- TS[n].CFG is written: a TYPE that does not exist leaves the input disabled, NOTE code 0x0B (R314). -/
def State.tsCfgWrite (s : State) (n : Nat) (data : Word) : State :=
  let s := s.wr (Reg.TS_CFG n) (data &&& 0xF0FFFFFF)
  if s.flag (Reg.TS_CFG n) F.TS_CFG_EN ∧ 2 ≤ s.tsType n then s.note 0x19 n 0x0B else s

/-- The reference check fails (R335): a soft shutdown of every outlet, every FAN at FAIL, CONTAIN code 0x04. -/
def State.refFails (s : State) : State :=
  let s := (s.setThermal { s.thermal with passAt := none }).setFlag Reg.TH_STAT F.TH_STAT_REF_ERR true
  let s := (List.range 8).foldl (fun s o => s.shutdown o false 4 0xFF (s.mtTenths o)) s
  (s.holdSyncAll.fanSyncAll).contain 0x19 0 0x04

end Sys2Proof.Machine
end

