-- ==== Sys2Proof/Machine/ThermalCommands.lean ====
section
/-!
DEFINITION. Machine/ThermalCommands.lean: the commands of the thermal unit but THERMAL_RECORD, which stands with the event
store (R314 to R335).
-/
namespace Sys2Proof.Machine

/-- What the enabled unit does. -/
def State.thUnit (s : State) (f : State → State) : State := s.onBlk .thermal (fun s => if s.thOn then f s else s)

/-- A broken or valid input after a conversion (R315): its counts, BROKEN with NOTE code 0x02 and line 0x19. -/
def State.sensorConv (s : State) (n r : Nat) : State :=
  let x := s.sensor n
  match s.convert n r with
  | none =>
    let s := s.setSensor n { x with bad := min 2 (x.bad + 1), good := 0 }
    if 2 ≤ x.bad + 1 ∧ !s.tsFlag n F.TS_VAL_BROKEN then
      ((s.setFlag (Reg.TS_VAL n) F.TS_VAL_BROKEN true).note 0x19 n 0x02).line 0x19 0x19
    else s
  | some t =>
    let g := if s.tsFlag n F.TS_VAL_BROKEN then x.good + 1 else 0
    let s := s.setSensor n { x with reading := some t, bad := 0, good := if 100 ≤ g then 0 else g }
    if 100 ≤ g then s.setFlag (Reg.TS_VAL n) F.TS_VAL_BROKEN false else s

/-- The cross-check of a valid LOOP input against the median of its neighbours (R318). -/
def State.crossCheck (s : State) (n : Nat) (med : Int) : State :=
  let x := s.sensor n
  let far := s.tsTol n < (x.reading.getD 0 - med).natAbs
  let y : Sensor := { x with far := if far then min 100 (x.far + 1) else 0, near := if far then 0 else min 100 (x.near + 1) }
  let s := s.setSensor n y
  if 100 ≤ y.far ∧ !s.tsFlag n F.TS_VAL_DISAGREE then
    ((s.setFlag (Reg.TS_VAL n) F.TS_VAL_DISAGREE true).note 0x19 n 0x03).line 0x19 0x19
  else if 100 ≤ y.near then s.setFlag (Reg.TS_VAL n) F.TS_VAL_DISAGREE false
  else s

/-- TS_CONVERSION: the 10 ms conversion of TS[n], `r` its mean sample ratio in units of 2^-20 (R314 to R320, R326). -/
def execTsConversion (n : Fin 64) (r : BitVec 20) (s : State) : Host.Outcome State Fault Refusal :=
  .next (s.thUnit (fun s =>
    let n := n.val
    if !s.tsOn n then s
    else
      let s := s.sensorConv n r.toNat
      let nb := s.neighbours n
      let med := median nb
      let broken := s.tsFlag n F.TS_VAL_BROKEN
      let subst := broken && s.tsLoop n && 2 ≤ nb.length && within (s.tsTol n) nb
      let s := if subst ∧ !s.tsFlag n F.TS_VAL_SUBST then s.line 0x19 0x19 else s
      let s := s.setFlag (Reg.TS_VAL n) F.TS_VAL_SUBST subst
      let cross := !broken && s.tsLoop n && 2 ≤ nb.length
      let s := if cross then s.crossCheck n med else s
      if broken ∧ !subst then
        ((List.range 8).foldl (fun s o => if s.concerns n o then s.shutdown o false 2 n (s.tsUsed n) else s) s).holdSyncAll
      else
        let own := (s.sensor n).reading.getD 0
        let used := if subst then med
          else if cross && s.tsFlag n F.TS_VAL_DISAGREE then max own med else own
        let s := s.setFld (Reg.TS_VAL n) F.TS_VAL_T (unsigned 16 used)
        (s.bandSync n).holdSyncAll.fanSyncAll))

/-- MT after 10 ms (R322), in 10^-9 °C, from the 1,000 readings of the interval. Where RTH or CTH is 0 the spec gives no value:
`free`. -/
def State.modelStep (s : State) (o : Nat) (free : Int) : Int :=
  let mt := (s.cable o).mt
  let n : Int := (s.cable o).sum
  let r20 : Int := s.fld (Reg.CBL_R20 o) F.CBL_R20_R20
  let al : Int := s.fld (Reg.CBL_CTH o) F.CBL_CTH_ALPHA
  let rth : Int := s.fld (Reg.CBL_RTH o) F.CBL_RTH_RTH
  let cth : Int := s.fld (Reg.CBL_CTH o) F.CBL_CTH_CTH
  if rth = 0 ∨ cth = 0 then free
  else
    let heat := divZero (n * r20 * (10 ^ 15 + al * (mt - 20 * 10 ^ 9))) (10 ^ 22 * 2 ^ 62 * cth)
    let cool := divZero ((mt - s.tsUsed (s.coolTs o) * 10 ^ 8) * 10 ^ 4) (rth * cth)
    mt + heat - cool

/-- CABLE_MODEL_UPDATE: the 10 ms update of the model of O[o], once the 1,000 readings of its interval are there (R319, R321,
R322, R326). Without tcool the model holds MT. -/
def execCableModelUpdate (o : Fin 8) (s : State) : Host.Outcome State Fault Refusal :=
  .next (s.thUnit (fun s =>
    let o := o.val
    let c := s.coolTs o
    if !s.cblOn o ∨ (s.cable o).seen < 1000 then s
    else
      let mt := s.modelStep o (signed 32 s.freeNat * 10 ^ 6)
      let s := s.setCable o { s.cable o with sum := 0, seen := 0 }
      if !s.tsUsable c then
        if s.tsOn c ∧ s.tsFlag c F.TS_VAL_BROKEN then (s.shutdown o false 3 c (s.tsUsed c)).holdSync o else s
      else
        let x := s.cable o
        let s := s.took
        let s := s.setCable o { x with mt := mt }
        let t := s.mtTenths o
        let s := s.setFld (Reg.CBL_STATE o) F.CBL_STATE_MT (unsigned 16 t)
        let warned := s.cblFlag o F.CBL_STATE_WARN
        let w := if warned then !(decide (t < s.mWarn o - s.mHyst o)) else decide (s.mWarn o ≤ t)
        let th := if x.throt then !(decide (t < s.mThr o - s.mHyst o)) else decide (s.mThr o ≤ t)
        let s := s.setFlag (Reg.CBL_STATE o) F.CBL_STATE_WARN w
        let s := if w ∧ !warned then s.line 0x19 0x18 else s
        let s := s.setCable o { s.cable o with throt := th }
        let s := if s.mShut o ≤ t then s.shutdown o true 1 0xFF t else s
        s.holdSync o))

/-- DA_RECOMPUTE: the 100 ms computation of DA (R324), with the lowest candidate in CAUSE. -/
def execDaRecompute (o : Fin 8) (s : State) : Host.Outcome State Fault Refusal :=
  .next (s.thUnit (fun s =>
    let o := o.val
    if !s.cblOn o then s.setDa o 0xFFFF
    else
      let l := s.candidates o s.freeNat
      let s := s.took
      let low := lowest l
      let shut := s.cblFlag o F.CBL_STATE_SHUT
      let s := s.setFlag (Reg.CBL_STATE o) F.CBL_STATE_THROT low.isSome
      let bind := match low with | some x => x.1 | none => 0
      let s := s.setFld (Reg.CBL_CAUSE o) F.CBL_CAUSE_BIND bind
      let s := if shut then s
        else
          let s := s.setFlag (Reg.CBL_CAUSE o) F.CBL_CAUSE_NOSENS (bind = 1 || bind = 3)
          s.setFld (Reg.CBL_CAUSE o) F.CBL_CAUSE_SENSOR (match low with | some x => x.2.1 | none => 0)
      let rat := s.rated o
      let q := orDefault (s.fld Reg.TH_STEP F.TH_STEP_QSTEP) 1
      let c := match low with | some x => min rat (x.2.2 / q * q) | none => rat
      let da := s.cblDa o
      let prev := if da = 0xFFFF then rat else da
      let rise := orDefault (s.fld Reg.TH_STEP F.TH_STEP_RISE) 1
      let c := if prev < c then min c (prev + rise) else c
      let s := s.setDa o (if shut then 0 else if low.isNone ∧ rat ≤ c then 0xFFFF else c)
      s.fanSyncAll))

/-- ENF_UPDATE: the 1 ms update of the enforced value and of TLIM[o] (R325). -/
def execEnfUpdate (o : Fin 8) (s : State) : Host.Outcome State Fault Refusal :=
  .next (s.thUnit (fun s => s.setEnf o.val (s.enforced o.val)))

/-- SHUTDOWN_HOLD_COMPLETE: the hold of R328 has lasted HOLD_S: READY. -/
def execShutdownHoldComplete (o : Fin 8) (s : State) : Host.Outcome State Fault Refusal :=
  .next (s.thUnit (fun s =>
    let o := o.val
    match (s.cable o).holdAt with
    | some t =>
      let hold := orDefault (s.fld Reg.TH_CTRL F.TH_CTRL_HOLD_S) 1 * ticksPerS
      if s.cblFlag o F.CBL_STATE_SHUT ∧ !s.cblFlag o F.CBL_STATE_READY ∧ t + hold ≤ s.now then
        (s.setFlag (Reg.CBL_STATE o) F.CBL_STATE_READY true).line 0x19 (0x10 + o)
      else s
    | none => s))

/-- With READY the outlet leaves its shutdown, and DA rises from 0; else the ACK is refused (R328). -/
def State.cblAck (s : State) (o : Nat) : State :=
  if s.cblFlag o F.CBL_STATE_READY then
    let cause := s.fld (Reg.CBL_CAUSE o) F.CBL_CAUSE_SCAUSE
    let ns := s.flag (Reg.CBL_CAUSE o) F.CBL_CAUSE_NOSENS
    let sensor := if ns then 0xFF else s.fld (Reg.CBL_CAUSE o) F.CBL_CAUSE_SENSOR
    let t := if ns then s.mtTenths o else s.tsUsed sensor
    let r := s.thermalRec 0x32 o cause sensor t 0
    let st := Reg.CBL_STATE o
    let s := ((s.setFlag st F.CBL_STATE_SHUT false).setFlag st F.CBL_STATE_HARD false).setFlag st F.CBL_STATE_READY false
    (s.setCable o { s.cable o with hist := [], holdAt := none }).queueRecord o r
  else s.setFlag (Reg.CBL_STATE o) F.CBL_STATE_ACK_REFUSED true

/-- CBL_ACK: with READY the outlet leaves its shutdown, and DA rises from 0; else the ACK is refused (R328). -/
def execCblAck (o : Fin 8) (s : State) : Host.Outcome State Fault Refusal :=
  .next (s.onBlk .thermal (fun s => s.cblAck o.val))

/-- CBL_ENABLE: CBL[o].CFG is written (R322). -/
def execCblEnable (o : Fin 8) (data : Word) (s : State) : Host.Outcome State Fault Refusal :=
  .next (s.onBlk .thermal (fun s => s.cblCfgWrite o.val data))

/-- TACH_EDGE: a rising edge (R331), unless it lies within FILT µs of the last qualified one, and so belongs to a pulse that
FILT ignores: the speed from the period to the edge before it, and STUCK above FMAX. -/
def execTachEdge (k : Fin 4) (s : State) : Host.Outcome State Fault Refusal :=
  .next (s.onBlk .thermal (fun s =>
    let k := k.val
    let f := s.fan k
    let filt := s.fld (Reg.FAN_TACH k) F.FAN_TACH_FILT * ticksPerUs
    match f.edge with
    | some t =>
      let dt := s.now - t
      if dt < filt then s
      else
        let s := s.setFan k { f with edge := some s.now }
        let fast := s.fld (Reg.FAN_TACH2 k) F.FAN_TACH2_FMAX * dt < ticksPerS
        let s := if fast ∧ !s.flag (Reg.FAN_STAT k) F.FAN_STAT_STUCK then
            (s.setFlag (Reg.FAN_STAT k) F.FAN_STAT_STUCK true).note 0x19 (0x50 + k) 0x07
          else s
        let ppr := orDefault (s.fld (Reg.FAN_TACH k) F.FAN_TACH_PPR) 1
        let rpm := if dt = 0 then 0xFFFF else min 0xFFFF (60 * ticksPerS / (ppr * dt))
        let s := (s.setFld (Reg.FAN_STAT k) F.FAN_STAT_RPM rpm).fanSync k
        match (s.fan k).okAt with
        | some u => if u + ticksPerS ≤ s.now then s.setFlag (Reg.FAN_STAT k) F.FAN_STAT_STALL false else s
        | none => s
    | none => s.setFan k { f with edge := some s.now }))

/-- TACH_TIMEOUT: no edge for 1 s: the speed reads 0 (R331). -/
def execTachTimeout (k : Fin 4) (s : State) : Host.Outcome State Fault Refusal :=
  .next (s.onBlk .thermal (fun s =>
    match (s.fan k.val).edge with
    | some t =>
      if t + ticksPerS ≤ s.now then
        ((s.setFan k.val { s.fan k.val with edge := none }).setFld (Reg.FAN_STAT k.val) F.FAN_STAT_RPM 0).fanSync k.val
      else s
    | none => s.fanSync k.val))

/-- FAN_STALL: a speed below SPD_MIN for STALL_MS with the duty at DMIN or more (R331). -/
def execFanStall (k : Fin 4) (s : State) : Host.Outcome State Fault Refusal :=
  .next (s.onBlk .thermal (fun s =>
    let k := k.val
    let s := s.fanSync k
    let ms := s.fld (Reg.FAN_TACH k) F.FAN_TACH_STALL_MS
    match (s.fan k).lowAt with
    | some t =>
      if ms ≠ 0 ∧ t + ms * ticksPerMs ≤ s.now ∧ !s.flag (Reg.FAN_STAT k) F.FAN_STAT_STALL then
        ((s.setFlag (Reg.FAN_STAT k) F.FAN_STAT_STALL true).note 0x19 (0x50 + k) 0x06).line 0x19 (0x1A + k)
      else s
    | none => s))

/-- TJ_CONVERSION: an on-die sensor reads `t` (0.1 °C) (R332). -/
def execTjConversion (j : Fin 8) (t : BitVec 16) (s : State) : Host.Outcome State Fault Refusal :=
  .next (s.thUnit (fun s =>
    let warn := signed 16 (s.rd Reg.TH_TJ).toNat
    let s := s.wrNat (Reg.TJ_VAL j.val) t.toNat
    let v := signed 16 t.toNat
    let s := if warn ≤ v then (s.note 0x19 (0x40 + j.val) 0x08).line 0x19 0x1E else s
    let s := if 1300 ≤ v then s.contain 0x19 (0x40 + j.val) 0x09 else s
    let cool := (List.range 8).all (fun i => signed 16 (s.rd (Reg.TJ_VAL i)).toNat < warn)
    let s := s.setThermal { s.thermal with coolAt := if cool then some (s.thermal.coolAt.getD s.now) else none }
    match s.thermal.coolAt with
    | some u => if u + 10 * ticksPerS ≤ s.now then s.recovers 0x19 0x09 else s
    | none => s))

/-- THERMAL_REFERENCE_CHECK: the 100 ms reference ratio in units of 2^-20 (R335). -/
def execThermalReferenceCheck (ratio : BitVec 20) (s : State) : Host.Outcome State Fault Refusal :=
  .next (s.thUnit (fun s =>
    let r := ratio.toNat * 1000
    if 495 * 2 ^ 20 ≤ r ∧ r ≤ 505 * 2 ^ 20 then
      let t := s.thermal.passAt.getD s.now
      let s := (s.setThermal { s.thermal with passAt := some t }).setFlag Reg.TH_STAT F.TH_STAT_REF_ERR false
      let s := s.holdSyncAll.fanSyncAll
      if t + ticksPerS ≤ s.now then s.recovers 0x19 0x04 else s
    else s.refFails))

end Sys2Proof.Machine
end

