-- ==== Sys2Proof/Machine/WriteGuard.lean ====
section
/-!
DEFINITION. Machine/WriteGuard.lean: fabric writes of the registers of the thermal unit, the load switches and Brine
(R339, R461, R480). Each function takes the address of a register that exists and the word written.
-/
namespace Sys2Proof.Machine

/-- A register of the thermal unit. -/
def State.thermalWrite (s : State) (a : Nat) (v : Word) : State :=
  let o := a - 0x40100000
  if o < 0x400 ∧ o % 16 = 0 then s.tsCfgWrite (o / 16) v
  else if a = Reg.TH_CTRL then (s.wrAccess a v).fanSyncAll
  else if 0x800 ≤ o ∧ o < 0xA00 ∧ o % 0x40 = 0 then s.cblCfgWrite ((o - 0x800) / 0x40) v
  else if 0x800 ≤ o ∧ o < 0xA00 ∧ o % 0x40 = 0x28 then (if v.getLsbD 0 then s.cblAck ((o - 0x800) / 0x40) else s)
  else if 0xC00 ≤ o then (s.wrAccess a v).fanSync ((o - 0xC00) / 0x20)
  else s.wrAccess a v

/-- HS_CTRL: KLS_EN while LOCK is 0, LOCK, and the selection of the IS ball (R452, R454, R456). -/
def State.hsCtrlWrite (s : State) (v : Word) : State :=
  let v := if s.flag Reg.HS_CTRL F.HS_CTRL_LOCK then F.HS_CTRL_KLS_EN.put v (s.fld Reg.HS_CTRL F.HS_CTRL_KLS_EN) else v
  s.wrAccess Reg.HS_CTRL v

/-- HS[n].CFG: a FUSE or PIN that does not exist sets CFG_ERR (R449, R461); the fuse goes on from where it stands, and the
channel follows what it is now asked for. -/
def State.hsCfgWrite (s : State) (n : Nat) (v : Word) : State :=
  let was := s.wants
  let s := (s.current n (s.fld (Reg.HS_MEAS n) F.HS_MEAS_I_MA)).wrAccess (Reg.HS_CFG n) v
  let s := if 5 ≤ s.fld (Reg.HS_CFG n) F.HS_CFG_FUSE ∨ 6 ≤ s.fld (Reg.HS_CFG n) F.HS_CFG_PIN then
      s.setFlag (Reg.HS_STAT n) F.HS_STAT_CFG_ERR true else s
  s.pinsMoved was

/-- A register of the load switches. -/
def State.switchWrite (s : State) (a : Nat) (v : Word) : State :=
  if a = Reg.HS_CTRL then s.hsCtrlWrite v
  else if a = Reg.HS_ON then s.onWrites 0xFFFF (v.toNat % 2 ^ 16)
  else if a = Reg.HS_ON_SET then s.onWrites (v.toNat % 2 ^ 16) 0xFFFF
  else if a = Reg.HS_ON_CLR then s.onWrites (v.toNat % 2 ^ 16) 0
  else if Reg.HS_CFG 0 ≤ a ∧ a % 16 = 0 then s.hsCfgWrite ((a - Reg.HS_CFG 0) / 16) v
  else s.wrAccess a v

/-- A register of Brine. -/
def State.brineWrite (s : State) (a : Nat) (v : Word) : State :=
  if a = Reg.BR_CTRL then s.brCtrlWrite (v &&& brCtrlMask)
  else if a = Reg.BR_SHED then (s.wrAccess a v).brCfgCheck
  else s.wrAccess a v

/-- A write in the windows of the Guard region. -/
def State.guardWrite (s : State) (a : Nat) (v : Word) : State :=
  if a < 0x40200000 then s.thermalWrite a v
  else if a < 0x40300000 then s.switchWrite a v
  else s.brineWrite a v

end Sys2Proof.Machine
end

