-- ==== Sys2Proof/Machine/CalendarOps.lean ====
section
/-!
DEFINITION. Machine/CalendarOps.lean: the calendar image and what follows from it for a second of TB[3] (R371 to R373, R378,
R380).
-/
namespace Sys2Proof.Machine

/-- The number in the `n` bytes at offset `off` of a list of bytes, and the same read as signed. -/
def numAt (l : List Byte) (off n : Nat) : Nat := leNat ((l.drop off).take n)
def intAt (l : List Byte) (off n : Nat) : Int := signed (8 * n) (numAt l off n)

/-! Dates of the Gregorian calendar -/

/-- A date: year, month 1 to 12, day. -/
structure Date where
  y : Nat
  m : Nat
  d : Nat
deriving DecidableEq, Repr

/-- The date of the day number counted from 1970-01-01. -/
def dateOf (days : Nat) : Date :=
  let z := days + 719468
  let era := z / 146097
  let doe := z % 146097
  let yoe := (doe - doe / 1460 + doe / 36524 - doe / 146096) / 365
  let doy := doe - (365 * yoe + yoe / 4 - yoe / 100)
  let mp := (5 * doy + 2) / 153
  let m := if mp < 10 then mp + 3 else mp - 9
  ⟨yoe + era * 400 + bit01 (decide (m ≤ 2)), m, doy - (153 * mp + 2) / 5 + 1⟩

/-- The day number of a date. -/
def dayOf (x : Date) : Nat :=
  let y := x.y - bit01 (decide (x.m ≤ 2))
  let yoe := y % 400
  let mp := if 2 < x.m then x.m - 3 else x.m + 9
  let doy := (153 * mp + 2) / 5 + x.d - 1
  y / 400 * 146097 + (yoe * 365 + yoe / 4 - yoe / 100 + doy) - 719468

/-- The day exists in a leap year (R372). -/
def dayExists (m d : Nat) : Bool :=
  1 ≤ m && m ≤ 12 && 1 ≤ d && d ≤ (if m = 2 then 29 else if m = 4 ∨ m = 6 ∨ m = 9 ∨ m = 11 then 30 else 31)

/-! Fields of the image (R371) -/

def calAct (c : List Byte) : Nat := numAt c 0x004 6
def calStd (c : List Byte) : Int := intAt c 0x00C 4
def calDi (c : List Byte) : Nat := numAt c 0x010 1
def calBillDay (c : List Byte) : Nat := numAt c 0x011 1
def calBillMin (c : List Byte) : Nat := numAt c 0x012 2
def calFlags (c : List Byte) : Nat := numAt c 0x014 1
def calDef (c : List Byte) : Nat := numAt c 0x015 1
def calPrice (c : List Byte) (r : Nat) : Nat := numAt c (0x3E8 + 4 * r) 4
def calCrc (c : List Byte) : Nat := numAt c 0x40C 4

def seasonAt (c : List Byte) (i j : Nat) : Nat := numAt c (0x018 + 4 * i + j) 1
def weekAt (c : List Byte) (w d : Nat) : Nat := numAt c (0x028 + 8 * w + d) 1
def pointAt (c : List Byte) (d i : Nat) : Nat := numAt c (0x068 + 24 * d + 2 * i) 2
def specialAt (c : List Byte) (i : Nat) : Nat := numAt c (0x1E8 + 4 * i) 4
def dstStart (c : List Byte) (i : Nat) : Nat := numAt c (0x2E8 + 16 * i) 6
def dstEnd (c : List Byte) (i : Nat) : Nat := numAt c (0x2E8 + 16 * i + 6) 6
def dstOfs (c : List Byte) (i : Nat) : Int := intAt c (0x2E8 + 16 * i + 12) 4
def dstUsed (c : List Byte) (i : Nat) : Bool := dstStart c i ≠ dstEnd c i

def pointValid (p : Nat) : Bool := bitOf p 15
def pointMin (p : Nat) : Nat := p % 2048
def spValid (x : Nat) : Bool := bitOf x 15
def spMonth (x : Nat) : Nat := x / 2 ^ 21 % 16
def spDay (x : Nat) : Nat := x / 2 ^ 16 % 32
def spYear (x : Nat) : Nat := x / 2 ^ 25

/-! Validity (R372) -/

/-- FORMAT and CRC match. -/
def calFormed (c : List Byte) : Bool := numAt c 0 4 = 1 && crc32 (c.take 0x40C) = BitVec.ofNat 32 (calCrc c)

/-- The DST intervals i and j, both used, do not overlap. -/
def dstApart (c : List Byte) (i j : Nat) : Bool :=
  !dstUsed c i || !dstUsed c j || i = j || dstEnd c i ≤ dstStart c j || dstEnd c j ≤ dstStart c i

/-- The content of a formed image is valid. -/
def calValid (c : List Byte) : Bool :=
  let r := fun n => List.range n
  numAt c 0x00A 2 = 0 && numAt c 0x408 4 = 0 && (r 8).all (fun w => weekAt c w 7 = 0) &&
  calStd c % 60 = 0 && (r 16).all (fun i => !dstUsed c i || dstOfs c i % 60 = 0) &&
  [5, 10, 15, 30, 60].contains (calDi c) && calBillDay c ≤ 28 &&
  (r 4).any (fun i => seasonAt c i 3 = 1) &&
  (r 4).all (fun i => seasonAt c i 3 ≤ 1 && seasonAt c i 2 ≤ 7 &&
    (seasonAt c i 3 = 0 || dayExists (seasonAt c i 0) (seasonAt c i 1))) &&
  (r 64).all (fun i => !spValid (specialAt c i) || dayExists (spMonth (specialAt c i)) (spDay (specialAt c i))) &&
  (r 8).all (fun w => (r 7).all (fun d => weekAt c w d ≤ 15)) && calDef c ≤ 7 &&
  (r 16).all (fun i => (r 16).all (fun j => dstApart c i j))

/-! The rate in force (R373) -/

/-- The DST interval that applies at second t. -/
def dstAt (c : List Byte) (t : Nat) : Option Nat := (List.range 16).find? (fun i => dstStart c i ≤ t && t < dstEnd c i)

/-- The local time of second t. -/
def localTime (c : List Byte) (t : Nat) : Nat :=
  (t + calStd c + (match dstAt c t with | some i => dstOfs c i | none => 0)).toNat

/-- The index of a list with the greatest key, the first among equals. -/
def bestOf (key : Nat → Nat) : List Nat → Option Nat
  | [] => none
  | i :: t => match bestOf key t with
    | some j => if key i < key j then some j else some i
    | none => some i

/-- The season of a date. -/
def seasonOf (c : List Byte) (x : Date) : Nat :=
  let ok := (List.range 4).filter (fun i => seasonAt c i 3 = 1)
  let key := fun i => seasonAt c i 0 * 32 + seasonAt c i 1
  match bestOf key (ok.filter (fun i => key i ≤ x.m * 32 + x.d)) with
  | some i => i
  | none => (bestOf key ok).getD 0

/-- The special day of a date. -/
def specialOf (c : List Byte) (x : Date) : Option Nat :=
  (List.range 64).find? (fun i =>
    let w := specialAt c i
    spValid w && spMonth w = x.m && spDay w = x.d && (spYear w = 127 || spYear w + 2000 = x.y))

/-- What R373 finds for a second of TB[3]: the rate, the friendly flag, the season, and whether a DST interval applies. -/
structure InForce where
  rate : Nat
  friendly : Bool
  season : Nat
  dst : Bool
deriving DecidableEq, Repr

def evaluate (c : List Byte) (t : Nat) : InForce :=
  let loc := localTime c t
  let days := loc / 86400
  let minute := loc % 86400 / 60
  let date := dateOf days
  let weekday := (days + 3) % 7
  let season := seasonOf c date
  let sp := specialOf c date
  let prof := match sp with
    | some i => specialAt c i % 16
    | none => weekAt c (seasonAt c season 2) weekday
  let ok := (List.range 12).filter (fun i => pointValid (pointAt c prof i))
  let key := fun i => pointMin (pointAt c prof i)
  let p := match bestOf key (ok.filter (fun i => key i ≤ minute)) with
    | some i => some i
    | none => bestOf key ok
  let allDay := match sp with | some i => bitOf (specialAt c i) 14 | none => false
  let dst := (dstAt c t).isSome
  match p with
  | some i => ⟨pointAt c prof i / 2 ^ 11 % 8, bitOf (pointAt c prof i) 14 || allDay, season, dst⟩
  | none => ⟨calDef c, allDay, season, dst⟩

/-! Demand and billing boundaries (R378, R380) -/

/-- The first demand boundary later than second t. -/
def demandAfter (c : List Byte) (t : Nat) : Nat :=
  let p : Int := calDi c * 60
  let std := calStd c
  if p = 0 then t + 1 else (((t + std) / p + 1) * p - std).toNat

/-- The first second from `u` on at which no DST interval applies: `n` intervals may follow one another. -/
def pastDst (c : List Byte) : Nat → Nat → Nat
  | 0, u => u
  | n + 1, u => match dstAt c u with
    | some i => pastDst c n (dstEnd c i)
    | none => u

/-- The first second of TB[3] at which local time reaches `l`. -/
def firstReach (c : List Byte) (l : Nat) : Nat :=
  let at_ := fun (ofs : Int) => (l - calStd c - ofs : Int).toNat
  let plain := pastDst c 16 (at_ 0)
  (List.range 16).foldl (fun best i =>
    let u := max (dstStart c i) (at_ (dstOfs c i))
    if dstUsed c i && u < dstEnd c i && u < best then u else best) plain

/-- The scheduled billing boundaries in (lo, hi], in time order: one for each month. -/
def billBoundaries (c : List Byte) (lo hi : Nat) : List Nat :=
  if calBillDay c = 0 ∨ hi ≤ lo then []
  else
    let month := fun t => let x := dateOf (localTime c t / 86400); x.y * 12 + (x.m - 1)
    let first := month lo - 1
    let l := (List.range (month hi + 2 - first)).map (fun i =>
      let k := first + i
      firstReach c (dayOf ⟨k / 12, k % 12 + 1, calBillDay c⟩ * 86400 + calBillMin c * 60))
    l.filter (fun b => lo < b && b ≤ hi)

end Sys2Proof.Machine
end

