-- ==== Sys2Proof/Machine/LedgerBase.lean ====
section
/-!
DEFINITION. Machine/LedgerBase.lean: the parts of the Ledger that metrology and tariffs share: the MRAM, the logbook, the
parameters, TAR_MONO, the always-on counter and the signature of records (R351 to R357, R378).
-/
namespace Sys2Proof.Machine

/-! State -/

def State.meter (s : State) (o : Nat) : Meter := Tab.get (fun _ => Meter.reset) s.ledger.meter o
def State.setMeter (s : State) (o : Nat) (x : Meter) : State :=
  s.setLedger { s.ledger with meter := Tab.set (fun _ => Meter.reset) s.ledger.meter o x }
def State.tar (s : State) : Tariff := s.ledger.tariff
def State.setTar (s : State) (x : Tariff) : State := s.setLedger { s.ledger with tariff := x }
def State.account (s : State) (a : Nat) : Account := Tab.get (fun _ => Account.reset) s.tar.acc a

/-- Whole seconds of the always-on counter (R233). -/
def State.aonSec (s : State) : Nat := s.aonTicks / ticksPerS

/-- TAR_MONO in ms (R378): it counts while PD_LEDGER is powered. -/
def State.monoMs (s : State) : Nat :=
  (s.tar.mono + (if s.ledger.down then 0 else s.now - s.tar.monoAt)) / ticksPerMs

/-! Parameters (R351) -/

def State.par (s : State) (off n : Nat) : Nat := numAt s.ledger.par off n
def State.parInt (s : State) (off : Nat) : Int := intAt s.ledger.par off 4
def State.metOn (s : State) (o : Nat) : Bool := s.par (0x20 + 32 * o) 1 = 1
def State.metPw (s : State) : Nat := s.par 0x06 1

/-- FORMAT and CRC of a parameter block match. -/
def parFormed (l : List Byte) : Bool := numAt l 0 4 = 1 && crc32 (l.take 0x120) = BitVec.ofNat 32 (numAt l 0x120 4)

/-! The MRAM (R357, R366) -/

def mramLog : Nat := 0x000000
/-- The two copies of the parameter block: the spec gives the area, not the place in it. -/
def mramPar (copy : Nat) : Nat := 0x080000 + 0x400 * copy
def mramReadings : Nat := 0x100000
def mramTariff : Nat := 0x200000
def mramDemand : Nat := 0x280000
/-- The two copies of the active and of the passive calendar: the spec gives the area, not the place in it. -/
def mramCal (passive copy : Nat) : Nat := 0x2F0000 + 0x1000 * passive + 0x800 * copy
def mramGeneral : Nat := 0x300000

/-- The bytes `l` at MRAM offset `off`: a bad word that is rewritten is good again. -/
def State.mramPut (s : State) (off : Nat) (l : List Byte) : State :=
  let s := s.putBytes (mramBase + off) l
  let left := s.ledger.bad.filter (fun w => !(decide (off / 4 * 4 ≤ w) && decide (w < off + l.length)))
  let hit := s.ledger.bad ≠ left
  let s := s.setLedger { s.ledger with bad := left }
  if hit ∧ left = [] then s.recovers 0x12 0x02 else s

def State.mramBytes (s : State) (off n : Nat) : List Byte := s.bytes (mramBase + off) n

/-- No word of the `n` bytes at MRAM offset `off` is bad. -/
def State.mramGood (s : State) (off n : Nat) : Bool :=
  s.ledger.bad.all (fun w => !(decide (off / 4 * 4 ≤ w) && decide (w < off + n)))

/-- The list filled with zero bytes up to length `n`. -/
def padTo (n : Nat) (l : List Byte) : List Byte := l ++ List.replicate (n - l.length) 0

/-! The legal logbook (R355, R356) -/

/-- LOG_NEAR and LOG_FULL follow the number of entries. -/
def logNear : Nat := 7782
def logFull : Nat := 8192
def State.logHas (s : State) (n : Nat) : Bool := s.ledger.entries + n ≤ logFull

/-- The bytes of a logbook entry. -/
def State.logBytes (s : State) (kind outlet : Nat) (data : List Byte) : List Byte :=
  let l := leBytes 1 kind ++ leBytes 1 outlet ++ leBytes 2 0 ++ leBytes 4 s.ledger.entries ++ leBytes 8 (s.tbSec 3) ++
    leBytes 4 (s.tbSubNs 3) ++ leBytes 4 (s.tbSec 0) ++ leBytes 4 (s.tbSubNs 0) ++ (padTo 32 data).take 32
  l ++ leBytes 4 (crc32 l).toNat

/-- An entry is appended, or counted in MISSED where the logbook is full. -/
def State.logEntry (s : State) (kind outlet : Nat) (data : List Byte) : State :=
  if s.logHas 1 then
    let n := s.ledger.entries
    let s := s.mramPut (mramLog + 64 * n) (s.logBytes kind outlet data)
    let s := (s.setLedger { s.ledger with entries := n + 1 }).line 0x12 0x01
    let s := if n + 1 = logNear then
        ((s.setFlag Reg.MET_STATUS F.MET_STATUS_LOG_NEAR true).note 0x12 0 0x03).line 0x12 0x02
      else s
    if n + 1 = logFull then (s.setFlag Reg.MET_STATUS F.MET_STATUS_LOG_FULL true).note 0x12 0 0x04 else s
  else s.bump Reg.MET_LOG F.MET_LOG_MISSED

/-! Signatures (R354) -/

/-- The key of the metrology sequencer: the first P-256 private key that only it may use to sign. -/
def State.metKey (s : State) : Option KeyRec :=
  ((List.range 32).filterMap (fun n => s.usable n useSign userMetro (fun a => a = 0x11))).find?
    (fun k => k.users = 2 ^ userMetro)

/-- KEYID of that key; without one a free value. -/
def State.metKeyId (s : State) : List Byte :=
  match s.metKey with
  | some k => leBytes 4 k.keyId
  | none => s.randomBytes 4

/-- SIG_R and SIG_S over the bytes; without a key a free value. -/
def State.metSign (s : State) (l : List Byte) : List Byte :=
  match s.metKey with
  | some k => ecSign false k.key (sha256 l) s.freeNat
  | none => s.randomBytes 64

/-- The state after a signature and its KEYID. -/
def State.afterSign (s : State) : State := s.drew 64

/-- TB[3] is FREE or HOLD_EXP, or has not been set (R353, R363, R391). -/
def State.legalOpen (s : State) : Bool := s.tbState 3 = tbFree || s.tbState 3 = tbHoldExp || s.ledger.unset

/-- The seconds of TB[3] as 8 bytes, and its nanoseconds as 4. -/
def timeBytes (ns : Nat) : List Byte := leBytes 8 (ns / 1000000000) ++ leBytes 4 (ns % 1000000000)

def serial : List Byte := (List.range 8).map Config.serialByte

end Sys2Proof.Machine
end

