-- ==== Sys2Proof/Machine/KeyOps.lean ====
section
/-!
DEFINITION. Machine/KeyOps.lean: the service of secure calls: the argument block, the order of service, blobs, twins and
zeroisation (R396 to R411).
-/
namespace Sys2Proof.Machine

/-! Status codes (R406) -/

def ksOk : Nat := 0x00
def ksBadFunc : Nat := 0x01
def ksEmpty : Nat := 0x02
def ksPolicy : Nat := 0x03
def ksBadArg : Nat := 0x04
def ksCap : Nat := 0x05
def ksAuth : Nat := 0x06
def ksBus : Nat := 0x07
def ksNoRandom : Nat := 0x08
def ksZeroised : Nat := 0x0A
def ksNoRoot : Nat := 0x0B

/-- The functions that R406 lists, and the engine that serves each: the AES lanes, the ECC and hash engine, the core. -/
inductive KsEngine where
  | aes | ecc | core
deriving DecidableEq, Repr

def ksEngine (f : Nat) : Option KsEngine :=
  if [0x20, 0x21, 0x22, 0x41].contains f then some .aes
  else if [0x02, 0x10, 0x11, 0x12, 0x30, 0x40, 0x42, 0x43].contains f then some .ecc
  else if [0x31, 0x44, 0x45, 0x46, 0x50, 0x60, 0xFF].contains f then some .core
  else none

/-! The argument block (R405) -/

def State.scArg (s : State) (r : KeyReq) (w : Nat) : Nat := s.num (r.block.toNat + 4 * w) 4
def State.scSlot (s : State) (r : KeyReq) : Nat := s.scArg r 0 % 32
def State.scSlot2 (s : State) (r : KeyReq) : Nat := s.scArg r 0 / 2 ^ 8 % 32
def State.scOpt (s : State) (r : KeyReq) : Nat := s.scArg r 0 / 2 ^ 16 % 256
def State.scInLen (s : State) (r : KeyReq) : Nat := s.scArg r 2
def State.scCap (s : State) (r : KeyReq) : Nat := s.scArg r 4
def State.scAux (s : State) (r : KeyReq) : Nat := s.scArg r 6
def State.scIn (s : State) (r : KeyReq) : List Byte := s.bytes (s.scArg r 1) (s.scInLen r)
/-- `n` bytes at AUX_ADDR, from `off` on. -/
def State.scAuxBytes (s : State) (r : KeyReq) (off n : Nat) : List Byte := s.bytes (s.scArg r 5 + off) n

/-- The other bits of word 0 are 0. -/
def State.scFormed (s : State) (r : KeyReq) : Bool :=
  let w := s.scArg r 0
  s.scSlot r + s.scSlot2 r * 2 ^ 8 + s.scOpt r * 2 ^ 16 = w

/-- A buffer lies in shared SRAM and is aligned. -/
def bufIn (a n : Nat) : Bool := n = 0 || (a % 4 = 0 && sramRange a n)

/-! Users (R400, R401) -/

/-- The USERS bit of a context. -/
def userOf (k : Nat) : Nat := if engOf k < 8 then engOf k else userMetro

/-- The context may call the Admin functions. -/
def State.isAdmin (s : State) (k : Nat) : Bool := engOf k < 8 && bitOf (s.fld Reg.KS_ADMIN F.KS_ADMIN_MASK) (engOf k)

/-- Slots 0 to 3 (R399). -/
def isRoot (n : Nat) : Bool := n < 4

/-! Order of service (R406) -/

/-- The CK_VAULT cycle of an instant (R413). -/
def vaultCycle (t : Nat) : Nat := t / (5 * ticksPerNs)

/-- `x` is served before `y`: the metrology sequencer before the WS contexts, then the longer wait in CK_VAULT cycles, then the
lower slot. -/
def reqBefore (x y : KeyReq) : Bool :=
  let cls := fun (r : KeyReq) => if engOf r.ctx = 8 then 0 else 1
  cls x < cls y || (cls x = cls y && (vaultCycle x.since < vaultCycle y.since || (vaultCycle x.since = vaultCycle y.since && engOf x.ctx < engOf y.ctx)))

/-- The request of context k for function f, where it is the next on its engine. -/
def State.ksNext (s : State) (k f : Nat) : Option KeyReq :=
  match s.ks.reqs.find? (fun r => r.ctx = k && r.f = f) with
  | some r =>
    if s.ks.reqs.all (fun y => ksEngine y.f ≠ ksEngine f || y.ctx = k || !reqBefore y r) then some r else none
  | none => none

/-- What a function answers: its status, the bytes for OUT, and the state it leaves. -/
structure KsAnswer where
  status : Nat
  out : List Byte
  s : State

/-- A secure call ends: its status reaches w[d], and the context goes on. -/
def State.scReturn (s : State) (k status : Nat) : State :=
  let s := s.setKs { s.ks with reqs := s.ks.reqs.filter (fun y => y.ctx ≠ k) }
  let x := s.ctx k
  match x.stall with
  | .scall d => ((s.setCtx k ({ x with stall := .none }.put d (BitVec.ofNat 32 status)).advance).boundary k).haltIfDone k
  | _ => s

/-- OUT and OUT_LEN of an answer, and whether the write ends without a bus error (R405, R551); after a zeroisation nothing
more is written (R410). -/
def State.scWrite (s : State) (r : KeyReq) (a : KsAnswer) : Bool × State :=
  if a.status = ksZeroised then (true, s) else
  let x := s.writeRange (engSlot (engOf r.ctx)) (s.scArg r 3) (if a.status = ksOk then a.out else [])
  let n := if a.status = ksOk ∧ x.1 then a.out.length else 0
  (x.1, x.2.writeBlock (r.block.toNat + 28) (leBytes 4 n))

/-- The answer is given: a refusal by policy also raises NOTE code 0x06 (R400, R411). -/
def State.scFinish (r : KeyReq) (a : KsAnswer) : State :=
  let x := a.s.scWrite r a
  let s := if a.status = ksPolicy then x.2.note 0x13 0 0x06 else x.2
  s.scReturn r.ctx (if x.1 then a.status else ksBus)

/-- The core serves the request of context `c` for function `f`. -/
def State.serve (s : State) (f : Nat) (c : CtxId) (body : State → KeyReq → KsAnswer) : State :=
  if !s.domUp 3 then s
  else
    match s.ksNext (ctxKey c) f with
    | some r => State.scFinish r (if s.scFormed r then body s r else ⟨ksBadArg, [], s⟩)
    | none => s

/-- The output fits OUT_CAP, or the call answers CAP. -/
def State.scFits (s : State) (r : KeyReq) (n : Nat) (f : State → KsAnswer) : KsAnswer :=
  if !bufIn (s.scArg r 3) (s.scCap r) then ⟨ksBadArg, [], s⟩
  else if s.scCap r < n then ⟨ksCap, [], s⟩
  else f s

/-- IN and `aux` bytes at AUX_ADDR lie in shared SRAM and are readable; else BAD_ARG or BUS. -/
def State.scReads (s : State) (r : KeyReq) (aux : Nat) (f : State → KsAnswer) : KsAnswer :=
  if !bufIn (s.scArg r 1) (s.scInLen r) ∨ !bufIn (s.scArg r 5) aux then ⟨ksBadArg, [], s⟩
  else
    let x := if s.scInLen r = 0 then (true, s) else s.readBlock (engSlot (engOf r.ctx)) (s.scArg r 1) (s.scInLen r)
    let y := if aux = 0 then (true, x.2) else x.2.readBlock (engSlot (engOf r.ctx)) (s.scArg r 5) aux
    if x.1 && y.1 then f y.2 else ⟨ksBus, [], y.2⟩

/-- Only an admin sequencer goes on (R401). -/
def State.scAdmin (s : State) (r : KeyReq) (f : State → KsAnswer) : KsAnswer :=
  if s.isAdmin r.ctx then f s else ⟨ksPolicy, [], s⟩

/-- Only a slot that is no root slot goes on (R399). -/
def State.scNotRoot (s : State) (n : Nat) (f : State → KsAnswer) : KsAnswer :=
  if isRoot n then ⟨ksPolicy, [], s⟩ else f s

/-- The key of slot n for the USE bit, where R400 lets the requester use it. -/
def State.scKey (s : State) (r : KeyReq) (n use : Nat) (ok : Nat → Bool) (f : State → KeyRec → KsAnswer) : KsAnswer :=
  match s.usable n use (userOf r.ctx) ok with
  | some k => f s k
  | none => ⟨ksPolicy, [], s⟩

/-- Random bits are available (R406, R411). -/
def State.scRandom (s : State) (f : State → KsAnswer) : KsAnswer :=
  if s.flag Reg.KS_STATUS F.KS_STATUS_DRBG_OK then f s else ⟨ksNoRandom, [], s⟩

/-- KROOT is present (R398). -/
def State.scRoot (s : State) (f : State → KeyRec → KsAnswer) : KsAnswer :=
  match s.ks.root with
  | some k => f s k
  | none => ⟨ksNoRoot, [], s⟩

/-! Blobs (R402 to R404) -/

/-- The blob of a key under the wrapping key, with the IV (R402). -/
def blobOf (wrap : KeyRec) (alg use users : Nat) (key iv : List Byte) (id : Nat) : List Byte :=
  let head := leBytes 4 0x31425A4B ++ leBytes 1 alg ++ leBytes 1 1 ++ leBytes 2 key.length ++ leBytes 4 use ++
    leBytes 4 users ++ leBytes 4 id ++ leBytes 4 wrap.keyId ++ iv ++ leBytes 12 0
  let ct := gcmText wrap.key iv key
  head ++ ct ++ gcmTag wrap.key iv head ct

/-- A policy that words 8 and 9 may give a key of algorithm `alg`: EXPOSE is for AES-128 only (R400). -/
def policyOk (alg use users : Nat) : Bool := use < 2 ^ 9 && users < 2 ^ 13 && (!bitOf use useExpose || alg = 0x01)

/-- A new key reaches the twin of slot n as STAGED, its shares masked with fresh random bits (R397). -/
def State.stage (s : State) (n alg use users : Nat) (key : List Byte) : State :=
  let k := maskedKey alg use users key (s.randomBytes key.length)
  (s.setTwin n (some ⟨k, false⟩)).drew key.length

/-- A created key: its random IV, its blob under KROOT, and the state with the key staged. -/
def State.newKey (s : State) (n alg use users : Nat) (key : List Byte) (root : KeyRec) (tail : List Byte) : KsAnswer :=
  let iv := s.randomBytes 12
  let s := (s.drew 12).stage n alg use users key
  let id := match s.twin n with | some t => t.key.keyId | none => 0
  ⟨ksOk, blobOf root alg use users key iv id ++ tail, s⟩

/-- Bytes of the blob of a key of `n` bytes. -/
def blobLen (n : Nat) : Nat := 0x30 + n + 16

/-- What LOAD_BLOB finds in a blob (R402, R404). -/
def openBlob (wrap : KeyRec) (b : List Byte) (m : List Byte) : Nat × Option KeyRec :=
  let alg := numAt b 4 1
  let kl := numAt b 6 2
  let use := numAt b 8 4
  let users := numAt b 12 4
  let iv := (b.drop 0x18).take 12
  let ct := (b.drop 0x30).take kl
  let tag := (b.drop (0x30 + kl)).take 16
  if numAt b 0 4 ≠ 0x31425A4B ∨ !(algAes alg || algPriv alg) ∨ numAt b 5 1 ≠ 1 ∨ kl ≠ algLen alg ∨ numAt b 0x24 12 ≠ 0 ∨
      b.length ≠ blobLen kl ∨ !policyOk alg use users then (ksBadArg, none)
  else
    let key := gcmText wrap.key iv ct
    let k := maskedKey alg use users key (m.take kl)
    if gcmTag wrap.key iv (b.take 0x30) ct ≠ tag ∨ numAt b 0x14 4 ≠ wrap.keyId ∨ numAt b 0x10 4 ≠ k.keyId then
      (ksAuth, none)
    else (ksOk, some k)

/-! Zeroisation (R409, R410) -/

/-- Zeroisation of cause `c`: running calls end with ZEROISED, KROOT, slots and twins, the random-bit generator and the TLS
keys are cleared; without supply of PD_VAULT only KROOT is left to clear. -/
def State.zeroise (s : State) (c : Nat) : State :=
  let calls := if s.domUp 3 then s.ks.reqs.map (·.ctx) else []
  let s := calls.foldl (fun s k => s.scReturn k ksZeroised) s
  let s := s.setKs { s.ks with root := none, slot := [], twin := [], timed := [] }
  let s := (List.range 32).foldl (fun s n => s.showSlot n) s
  let s := (List.range 8).foldl State.tlsEnd s
  let st := Reg.KS_STATUS
  let ran := s.flag st F.KS_STATUS_DRBG_OK
  let s := ((s.setFlag st F.KS_STATUS_ROOT false).setFlag st F.KS_STATUS_DRBG_OK false).setFlag st F.KS_STATUS_ZEROISED true
  let s := (s.setFld Reg.KS_ZSTAT F.KS_ZSTAT_CAUSE c).bump Reg.KS_ZSTAT F.KS_ZSTAT_COUNT
  let s := s.wrNat Reg.KS_ZTIME s.aonSec
  if s.domUp 3 then
    let s := (s.note 0x13 0 0x05).line 0x13 0x00
    if ran then s.line 0x13 0x02 else s
  else s

/-- The source of cause `c` is enabled: TAMPER_N always (R409). -/
def State.zeroSource (s : State) (c : Nat) : Bool :=
  c = 1 || bitOf (s.fld Reg.KS_CTRL F.KS_CTRL_TSRC_EN) (c - 2)

end Sys2Proof.Machine
end

