-- ==== Sys2Proof/Machine/TariffOps.lean ====
section
/-!
DEFINITION. Machine/TariffOps.lean: instants, demand intervals, billing periods, the calendar, accounts and records of the
tariff unit (R374 to R392).
-/
namespace Sys2Proof.Machine

def State.tarOn (s : State) : Bool := s.flag Reg.TAR_CTRL F.TAR_CTRL_EN

/-! Records (R391, R392) -/

/-- A tariff record of 256 bytes, the next in its ring. -/
def State.tariffRecord (s : State) (l : List Byte) : State :=
  let n := s.tar.tseq
  (s.mramPut (mramTariff + 256 * (n % 2048)) l).setTar { s.tar with tseq := n + 1 }

/-- Energy by rate of a channel, 8 the cabinet. -/
def energyOf (t : Tab Nat) (ch r : Nat) : Nat :=
  if ch < 8 then Tab.get (fun _ => 0) t (8 * ch + r)
  else ((List.range 8).map (fun o => Tab.get (fun _ => 0) t (8 * o + r))).foldl (· + ·) 0

/-- The billing record of channel `ch` for boundary `b` (ns of TB[3]), without KEYID and signature. -/
def State.billingBytes (s : State) (ch flags b : Nat) : List Byte :=
  let t := s.tar
  let md := Tab.get (fun _ => MaxDemand.reset) t.md ch
  let crc := match t.act with | some c => calCrc c | none => 0
  let e := fun (x : Tab Nat) => (List.range 8).flatMap (fun r => leBytes 8 (energyOf x ch r))
  leBytes 1 0x41 ++ leBytes 1 ch ++ leBytes 1 flags ++ leBytes 1 0 ++ leBytes 4 t.bseq ++ leBytes 4 t.tseq ++
    leBytes 4 (s.rd Reg.MET_CHECK).toNat ++ leBytes 8 (b / 1000000000) ++ leBytes 4 crc ++ leBytes 4 0 ++
    leBytes 8 (s.monoMs / 1000) ++ e t.imp ++ e t.exp ++ leBytes 4 md.d ++ leBytes 1 md.rate ++ leBytes 3 0 ++
    leBytes 8 md.sec ++ s.metKeyId ++ leBytes 4 0

/-- The signed billing record of a channel enters the ring. -/
def State.billingRecord (s : State) (ch flags b : Nat) : State :=
  let l := s.billingBytes ch flags b
  (s.tariffRecord (l ++ s.metSign l)).afterSign

/-- An account record of KIND 0x42 or 0x43 (R391). -/
def State.accountRecord (s : State) (kind a txid op amt : Nat) : State :=
  let x := s.account a
  let l := leBytes 1 kind ++ leBytes 1 a ++ leBytes 2 0 ++ leBytes 4 txid ++ leBytes 4 op ++ leBytes 4 x.state ++
    leBytes 8 (s.tbSec 3) ++ leBytes 8 0 ++ leBytes 8 (s.monoMs / 1000) ++ leBytes 8 amt ++
    leBytes 8 (unsigned 64 x.bal)
  let l := padTo 252 l
  s.tariffRecord (l ++ leBytes 4 (crc32 l).toNat)

/-! Prepaid accounts (R388, R389) -/

/-- The state that R389 gives an account. -/
def accountState (x : Account) (friendly : Bool) : Nat :=
  if x.bal > x.lowThr * 1000 then 0
  else if x.bal > 0 then 1
  else if x.ecEn ∧ x.bal > -(x.ecLim * 1000 : Int) then 2
  else if friendly then 4
  else 3

/-- O[o] is bound to account `a`. -/
def State.boundTo (s : State) (o a : Nat) : Bool :=
  let w := Tab.get (fun _ => 0) s.tar.bind o
  F.TAR_BIND_VALID.get w = 1 && F.TAR_BIND_ACC.get w = a

def State.setAccount (s : State) (a : Nat) (x : Account) : State :=
  s.setTar { s.tar with acc := Tab.set (fun _ => Account.reset) s.tar.acc a x }

/-- The account takes its state: a change raises the events of its outlets and writes a record, and EXHAUSTED a NOTE. -/
def State.accountSync (s : State) (a : Nat) : State :=
  let x := s.account a
  let st := accountState x s.tar.friendly
  if st = x.state then s
  else
    let s := s.setAccount a { x with state := st }
    let s := (List.range 8).foldl (fun s o => if s.boundTo o a then s.line 0x11 (8 + o) else s) s
    let s := s.accountRecord 0x43 a 0 0 0
    if st = 3 then s.note 0x11 2 0x05 else s

/-- Every account takes its state. -/
def State.accountsSync (s : State) : State := (List.range 256).foldl State.accountSync s

/-- The debit of one block of O[o] (R388). -/
def State.debitBlock (s : State) (o delta : Nat) : State :=
  let w := Tab.get (fun _ => 0) s.tar.bind o
  let price := match s.tar.act with | some c => calPrice c s.tar.rate | none => 0
  if F.TAR_BIND_VALID.get w = 1 then
    let a := F.TAR_BIND_ACC.get w
    let x := s.account a
    let r := x.res + delta * price
    if r / 1000000 = 0 then s.setAccount a { x with res := r }
    else (s.setAccount a { x with res := r % 1000000,
                                  bal := signed 64 (unsigned 64 (x.bal - (r / 1000000 : Nat))) }).accountSync a
  else s

/-- A change of TAR_BIND[o] takes effect at the block end (R388). -/
def State.bindBlock (s : State) (o : Nat) : State :=
  s.setTar { s.tar with bind := Tab.set (fun _ => 0) s.tar.bind o (s.rd (Reg.TAR_BIND o)) }

/-- The increments of a block of O[o] (R377, R378, R388): energy by rate, the open interval, the account. -/
def State.tariffBlock (s : State) (o di de : Nat) : State :=
  let t := s.tar
  if t.used then
    let k := 8 * o + t.rate
    let addE := fun (m : Tab Nat) (x : Nat) =>
      Tab.set (fun _ => 0) m k ((Tab.get (fun _ => 0) m k + x) % 2 ^ 64)
    let addI := fun (m : Tab Nat) (c : Nat) => Tab.set (fun _ => 0) m c (Tab.get (fun _ => 0) m c + di)
    let open_ := t.open_.map (fun v => { v with e := addI (addI v.e o) 8 })
    let s := s.setTar { t with imp := addE t.imp di, exp := addE t.exp de, open_ := open_ }
    (s.debitBlock o di).bindBlock o
  else s.bindBlock o

/-! Demand intervals (R378, R379) -/

/-- The demand of a channel over a duration in ms; over no duration a free value. -/
def demandOf (e dur free : Nat) : Nat := if dur = 0 then free % 2 ^ 32 else e * 3600 / dur % 2 ^ 32

/-- The open interval closes: its demands, maximum demand where it carries none of SHORT, LONG and INCOMPLETE, its record
and its event. `short` forces SHORT (R375), `adj` sets ADJ (R381). -/
def State.closeInterval (s : State) (short adj : Bool) : State :=
  match s.tar.open_ with
  | none => s
  | some v =>
    let dur := s.monoMs - v.openMs
    let di := match s.tar.act with | some c => calDi c | none => 0
    let sh := short || dur < di * 60000
    let long := !short && di * 60000 < dur
    let d := fun c => demandOf (Tab.get (fun _ => 0) v.e c) dur (Config.freeNat (s.free + c))
    let t := s.tar
    let keep := sh || long || v.incomplete
    let md := if keep then t.md
      else (List.range 9).foldl (fun m c =>
        if (Tab.get (fun _ => MaxDemand.reset) m c).d < d c then
          Tab.set (fun _ => MaxDemand.reset) m c ⟨d c, t.rate, s.tbSec 3⟩ else m) t.md
    let last := (List.range 9).foldl (fun m c => Tab.set (fun _ => 0) m c (d c)) t.last
    let flags := bit01 sh + bit01 long * 2 + bit01 (v.adj || adj) * 4 + bit01 v.incomplete * 8
    let l := leBytes 1 0x51 ++ leBytes 1 flags ++ leBytes 1 t.rate ++ leBytes 1 di ++ leBytes 4 t.dseq ++
      leBytes 8 v.startS ++ leBytes 4 dur ++ (List.range 9).flatMap (fun c => leBytes 4 (d c)) ++ leBytes 4 0
    let s := s.mramPut (mramDemand + 64 * (t.dseq % 7168)) (l ++ leBytes 4 (crc32 l).toNat)
    ((s.setTar { t with open_ := none, md := md, last := last, dseq := t.dseq + 1 }).drew 9).line 0x11 0x01

/-- A new interval opens: it ends at the first demand boundary later than the present time and the last consumed boundary
(R381). Without a calendar, or while TB[3] is unset, none runs. -/
def State.openInterval (s : State) (adj : Bool) : State :=
  match s.tar.act with
  | some c =>
    if s.ledger.unset then s
    else
      let now := s.tbSec 3
      s.setTar { s.tar with open_ := some ⟨now, s.monoMs, demandAfter c (max now s.tar.lastD), adj, false, []⟩ }
  | none => s

/-- The demand boundary of the open interval has been reached. -/
def State.demandDue (s : State) : Bool :=
  match s.tar.open_ with | some v => v.ends ≤ s.tbSec 3 | none => false

/-- The demand boundary is consumed: the interval closes and the next one opens. -/
def State.demandBoundary (s : State) : State :=
  match s.tar.open_ with
  | some v =>
    let s := s.closeInterval false false
    (s.setTar { s.tar with lastD := v.ends }).openInterval false
  | none => s

/-! Billing periods (R380) -/

def billOutage : Nat := 1
def billAdj : Nat := 2
def billCommand : Nat := 4
def billActivation : Nat := 8

/-- Boundary `b` (ns of TB[3]) is consumed where it is later than LAST_B: nine records, a logbook entry, a new period. -/
def State.consumeBoundary (s : State) (b flags : Nat) : State :=
  if b ≤ s.tar.lastB then s
  else
    let s := s.setTar { s.tar with lastB := b, bseq := s.tar.bseq + 1 }
    let flags := flags + bit01 s.legalOpen * 16
    let s := (List.range 9).foldl (fun s ch => s.billingRecord ch flags b) s
    let s := s.logEntry 0x0C 0xFF (leBytes 1 2 ++ leBytes 3 0 ++ leBytes 4 s.tar.bseq ++ leBytes 8 (s.monoMs / 1000))
    (s.setTar { s.tar with md := [] }).line 0x11 0x02

/-- The scheduled boundaries later than LAST_B that TB[3] has reached, in ns and in time order. -/
def State.billDue (s : State) : List Nat :=
  match s.tar.act with
  | some c => (billBoundaries c (s.tar.lastB / 1000000000) (s.tbSec 3)).map (· * 1000000000)
  | none => []

/-- The scheduled boundaries are consumed with the flags. -/
def State.billAll (s : State) (flags : Nat) : State := s.billDue.foldl (fun s b => s.consumeBoundary b flags) s

/-- Billing at a sample: the scheduled boundaries, then the commanded one, which lies at the sample. -/
def State.billSample (s : State) : State :=
  let s := s.billAll 0
  if s.tar.close then (s.setTar { s.tar with close := false }).consumeBoundary (s.tbNs 3) billCommand else s

/-! Calendars (R374, R375) -/

/-- The two copies of a calendar in the event store. -/
def State.storeCal (s : State) (passive : Nat) (c : List Byte) : State :=
  (s.mramPut (mramCal passive 0) c).mramPut (mramCal passive 1) c

/-- TB[3] has reached the activation of the passive calendar. -/
def State.activationDue (s : State) : Bool := s.tar.pas.isSome && s.tar.pasAt ≤ s.tbNs 3

/-- The passive calendar becomes active (R375): its entry, its event, the interval where DI_LEN changes, and the billing
boundary that FLAGS bit 0 asks for. -/
def State.activate (s : State) : State :=
  match s.tar.pas with
  | none => s
  | some c =>
    let t := s.tar
    let old := match t.act with | some x => calCrc x | none => 0
    let oldDi := t.act.map calDi
    let changed := oldDi.isSome && oldDi ≠ some (calDi c)
    let b := if t.pasAt = 0 then s.tbNs 3 else t.pasAt
    let s := if changed then s.closeInterval true false else s
    let s := (s.setTar { s.tar with act := some c, pas := none }).storeCal 0 c
    let s := s.logEntry 0x0C 0xFF (leBytes 1 1 ++ leBytes 3 0 ++ leBytes 4 old ++ leBytes 4 (calCrc c))
    let s := s.line 0x11 0x03
    let s := if s.tar.open_.isNone then s.openInterval false else s
    if bitOf (calFlags c) 0 then s.consumeBoundary b billActivation else s

/-! The rate (R373, R376, R385) -/

/-- What R373 gives now: DEF_RATE while TB[3] is unset, and 0 without a calendar. -/
def State.inForce (s : State) : InForce :=
  match s.tar.act with
  | some c => if s.ledger.unset then ⟨calDef c, false, 0, false⟩ else evaluate c (s.tbSec 3)
  | none => ⟨0, false, 0, false⟩

/-- The rate and the friendly flag follow the calendar: a new rate raises its event, and a new friendly flag moves the
accounts. -/
def State.rateSync (s : State) : State :=
  let f := s.inForce
  let s := if f.rate = s.tar.rate then s else (s.setTar { s.tar with rate := f.rate }).line 0x11 0x00
  if f.friendly = s.tar.friendly then s else (s.setTar { s.tar with friendly := f.friendly }).accountsSync

/-- An instant of R376 has been reached. -/
def State.instantDue (s : State) : Bool :=
  s.tarOn && ((!s.ledger.unset && (s.demandDue || !s.billDue.isEmpty || s.tar.close || s.activationDue)) ||
    s.inForce.rate ≠ s.tar.rate)

/-- The instants reached at one sample, in the order of R376. -/
def State.tarInstants (s : State) : State :=
  if !s.tarOn then s
  else if s.ledger.unset then s.rateSync
  else
    let s := if s.demandDue then s.demandBoundary else s
    let s := s.billSample
    let s := if s.activationDue then s.activate else s
    s.rateSync

/-- A write of TAR_CTRL: the first rise of EN starts the registers of R377 and the first billing period. -/
def State.tarCtrlWrite (s : State) (v : Word) : State :=
  let was := s.tarOn
  let s := s.wr Reg.TAR_CTRL v
  if s.tarOn ∧ !was then
    let s := if s.tar.used then s else s.setTar { s.tar with used := true, lastB := s.tbNs 3 }
    if s.tar.open_.isNone then s.openInterval false else s
  else s

/-! The legal clock (R381 to R385) -/

/-- Magnitudes in ns of the silent adjustments of the last 86,400 s of TAR_MONO. -/
def State.silentNs (s : State) : Nat :=
  ((s.tar.silent.filter (fun e => s.monoMs < e.1 + 86400000)).map (·.2)).foldl (· + ·) 0

/-- An adjustment of magnitude `m` ns would be silent. -/
def State.wouldBeSilent (s : State) (m : Nat) : Bool := s.silentNs + m ≤ 9000000000

def State.adjResult (s : State) (r : Nat) : State := s.setFld Reg.TAR_ADJ F.TAR_ADJ_RESULT r

/-- A silent adjustment: TB[3] steps to `v` (2^-16 ns) and its magnitude is counted. -/
def State.adjSilent (s : State) (v m : Nat) : State :=
  let l := (s.monoMs, m) :: s.tar.silent.filter (fun e => s.monoMs < e.1 + 86400000)
  (((s.setTar { s.tar with silent := l }).tbJump 3 v).adjResult 1).line 0x11 0x04

/-- A logged adjustment in the order of R381, with what R382 and R383 add; while TB[3] is unset it is a forward one and sets
it (R385). -/
def State.adjLogged (s : State) (v : Nat) : State :=
  let old := s.tbNs 3
  let new := v / 65536
  let first := s.ledger.unset
  let s := s.closeInterval false true
  let s := s.tbJump 3 v
  let s := s.setLedger { s.ledger with unset := false }
  let s := s.logEntry 0x0B 0xFF (timeBytes old ++ timeBytes new)
  let s := if new < old ∧ !first then
      s.logEntry 0x0C 0xFF (leBytes 1 3 ++ leBytes 3 0 ++ timeBytes old ++ timeBytes new ++ leBytes 4 (s.monoMs / 1000))
    else s
  let s := if s.tarOn then s.openInterval true else s
  let s := if s.tarOn ∧ (old < new ∨ first) then s.billAll billAdj else s
  (s.adjResult 2).line 0x11 0x04

/-- An adjustment of TB[3] to `v` (R381): silent, logged, or refused where the logbook cannot take two entries. While TB[3]
is unset an absolute one is logged (R385). -/
def State.adjust (s : State) (abs : Bool) (v : Nat) (m : Nat) : State :=
  if s.wouldBeSilent m ∧ !(s.ledger.unset && abs) then s.adjSilent v m
  else if s.logHas 2 then s.adjLogged v
  else (s.adjResult 3).note 0x11 0 0x04

end Sys2Proof.Machine
end

