-- ==== Sys2Proof/Machine/MeterOps.lean ====
section
/-!
DEFINITION. Machine/MeterOps.lean: measurement, accumulation, the state copies, readings, the LEGAL_TX lines, and the loss
and return of supply of the metrology partition (R344 to R363).
-/
namespace Sys2Proof.Machine

/-! Measurement (R346) -/

/-- A sample of outlet o: u in mV and i in mA. -/
def State.metU (s : State) (o : Nat) (code : Int) : Int :=
  let b := 0x20 + 32 * o
  divZero ((code - s.parInt (b + 24)) * s.par (b + 8) 4 * 100 * (1000000 + s.parInt (b + 16))) (2 ^ 23 * 1000000)
def State.metI (s : State) (o : Nat) (code : Int) : Int :=
  let b := 0x20 + 32 * o
  let i := divZero ((code - s.parInt (b + 28)) * s.par (b + 12) 4 * 100 * (1000000 + s.parInt (b + 20))) (2 ^ 23 * 1000000)
  if s.par (b + 1) 1 = 1 then -i else i

/-- Channel k of a sample: the codes of SDI_O[0..15]. -/
def chan (x : List (BitVec 24)) (k : Nat) : BitVec 24 := x.getD k 0

/-- The sum of p in µW, and of i in mA, over the samples. -/
def State.sumP (s : State) (o : Nat) (l : List (List (BitVec 24))) : Int :=
  l.foldl (fun e x => e + s.metU o (chan x (2 * o)).toInt * s.metI o (chan x (2 * o + 1)).toInt) 0
def State.sumI (s : State) (o : Nat) (l : List (List (BitVec 24))) : Int :=
  l.foldl (fun e x => e + s.metI o (chan x (2 * o + 1)).toInt) 0

/-- A code at either end of the 24-bit range (R347). -/
def overrange (c : BitVec 24) : Bool := c = 0x7FFFFF || c = 0x800000

/-! Accumulation (R348, R350) -/

/-- One mWh of residue. -/
def residueUnit : Nat := 28800000000

/-- |mean of i| below irated × noload ÷ 100 (R348). -/
def State.noLoad (s : State) (o n : Nat) (si : Int) : Bool :=
  si.natAbs * 100 < s.par (0x20 + 32 * o + 4) 4 * s.par (0x20 + 32 * o + 2) 2 * n

/-- Pulses for `delta` mWh (R350): an overflow of OWED loses them and raises NOTE code 0x06. -/
def State.owePulses (s : State) (o delta : Nat) : State :=
  let x := s.meter o
  let f := x.frac + delta * s.par (8 + 2 * o) 2
  let owed := x.owed + f / 1000000
  let s := s.setMeter o { x with frac := f % 1000000, owed := min 65535 owed }
  if 65535 < owed then s.note 0x10 0 0x06 else s

/-- The level of MPULSE[o] (R350, R361): active for PW ms from the instant at which a pulse began, never in a region reset. -/
def State.mpulse (s : State) (o : Nat) : Bool :=
  s.domUp 4 && !s.regionHeld 2 && (match (s.meter o).pulseAt with
    | some t => s.now < t + s.metPw * ticksPerMs
    | none => false)

/-- Overrange in the samples: OVR, and NOTE code 0x03 for each channel concerned (R347). -/
def State.checkRange (s : State) (o : Nat) (l : List (List (BitVec 24))) : State :=
  [2 * o, 2 * o + 1].foldl (fun s k =>
    if l.any (fun x => overrange (chan x k)) then
      (s.setFlag (Reg.MET_O_FLAGS o) F.MET_O_FLAGS_OVR true).note 0x10 (0x10 + k) 0x03
    else s) s

/-- The end of a block of outlet o over the samples (R348, R365): energy, flags, pulses, tariffs and accounts. U, I and P show
values whose arithmetic no rule gives (R349). -/
def State.blockOutlet (s : State) (o : Nat) (l : List (List (BitVec 24))) : State :=
  if !s.metOn o then s.bindBlock o
  else
    let s := s.checkRange o l
    let x := s.meter o
    let nl := !x.tainted && s.noLoad o l.length (s.sumI o l)
    let e : Int := if x.tainted ∨ nl then 0 else s.sumP o l
    let ri := x.resImp + e.toNat
    let re := x.resExp + (-e).toNat
    let di := ri / residueUnit
    let de := re / residueUnit
    let s := s.setMeter o { x with imp := (x.imp + di) % 2 ^ 64, resImp := ri % residueUnit,
                                   exp := (x.exp + de) % 2 ^ 64, resExp := re % residueUnit, tainted := x.bad ≠ 0 }
    let s := s.setFlag (Reg.MET_O_FLAGS o) F.MET_O_FLAGS_NOLOAD nl
    let f := s.randomBytes 12
    let s := ((s.wrNat (Reg.MET_O_U o) (numAt f 0 4)).wrNat (Reg.MET_O_I o) (numAt f 4 4)).wrNat (Reg.MET_O_P o) (numAt f 8 4)
    let s := s.drew 12
    let s := s.owePulses o (if bitOf (s.par 0x07 1) o then de else di)
    (s.tariffBlock o di de).line 0x10 o

/-- A channel of an outlet counts as invalid: INVALID, an entry, CONTAIN code 0x02 (R347). -/
def State.metInvalid (s : State) (k : Nat) : State :=
  let o := k / 2
  let s := s.setMeter o { s.meter o with tainted := true, invSeen := true, lastBad := k }
  let was := s.flag (Reg.MET_O_FLAGS o) F.MET_O_FLAGS_INVALID
  let s := s.setFlag (Reg.MET_O_FLAGS o) F.MET_O_FLAGS_INVALID true
  let s := if was then s else s.line 0x10 (8 + o)
  (s.logEntry 0x07 o (leBytes 1 k ++ leBytes 1 1)).contain 0x10 (0x10 + k) 0x02

/-- An outlet whose channels have both been valid for 1 s leaves INVALID (R347). -/
def State.metRevalid (s : State) (o : Nat) : State :=
  match (s.meter o).validAt with
  | some t =>
    if s.flag (Reg.MET_O_FLAGS o) F.MET_O_FLAGS_INVALID ∧ t + ticksPerS ≤ s.now then
      let k := (s.meter o).lastBad
      let s := (s.setMeter o { s.meter o with validAt := none }).setFlag (Reg.MET_O_FLAGS o) F.MET_O_FLAGS_INVALID false
      let s := (s.logEntry 0x07 o (leBytes 1 k ++ leBytes 1 0)).line 0x10 (8 + o)
      (s.recoversCell 0x10 0x02 (0x10 + 2 * o)).recoversCell 0x10 0x02 (0x10 + 2 * o + 1)
    else s
  | none => s

/-! Parameters (R351) -/

/-- The parameters take effect: PCRC, the EN flags, and outlets newly metered whose bitstream is invalid. -/
def State.parApply (s : State) (l : List Byte) : State :=
  let old := s
  let s := (s.setLedger { s.ledger with par := l, next := none }).wrNat Reg.MET_PCRC (numAt l 0x120 4)
  (List.range 8).foldl (fun s o =>
    let s := s.setFlag (Reg.MET_O_FLAGS o) F.MET_O_FLAGS_EN (s.metOn o)
    if s.metOn o ∧ !old.metOn o then
      [2 * o, 2 * o + 1].foldl (fun s k => if bitOf (s.meter o).bad (k % 2) then s.metInvalid k else s) s
    else s) s

/-! The state copies (R358, R386) -/

/-- The energy state is written to the next copy, with the tariff state and a frozen request. -/
def State.saveCopy (s : State) : State :=
  let g := s.ledger
  let t := { g.tariff with mono := g.tariff.mono + (if g.down then 0 else s.now - g.tariff.monoAt), monoAt := s.now }
  let req := match g.req with | some r => if r.snap.isSome then some r else none | none => none
  let x : Saved := ⟨g.seq, g.meter, g.rseq, req, t⟩
  if g.seq % 2 = 0 then s.setLedger { g with copyA := some x, seq := g.seq + 1 }
  else s.setLedger { g with copyB := some x, seq := g.seq + 1 }

/-! Readings (R352, R353) -/

/-- The reading of its instant; the marks since the last reading begin anew. `lost` says that supply was lost. -/
def State.readSnap (s : State) (r : Reading) (lost : Bool) : State :=
  let o := r.outlet
  let x := s.meter o
  let fl := fun f => s.flag (Reg.MET_O_FLAGS o) f
  let st := bit01 s.legalOpen + bit01 (fl F.MET_O_FLAGS_NOLOAD) * 2 +
    bit01 (x.invSeen || fl F.MET_O_FLAGS_INVALID) * 4 + bit01 (lost || x.lostSeen) * 8 + bit01 (!s.logHas 1) * 16 +
    bit01 (s.flag Reg.MET_STATUS F.MET_STATUS_UPD) * 32 + bit01 (fl F.MET_O_FLAGS_OVR) * 64
  let y : ReadSnap := ⟨st, x.imp, x.exp, s.tbSec 3, s.tbSubNs 3, s.ledger.entries - 1, s.tar.rate⟩
  let s := s.setLedger { s.ledger with req := some { r with snap := some y } }
  (s.setMeter o { s.meter o with invSeen := false, lostSeen := false }).setFlag (Reg.MET_O_FLAGS o) F.MET_O_FLAGS_OVR false

/-- The request in progress takes the block end as its instant, unless it came in this very CK_LEDGER cycle (R353); a power
cut freezes it in any case (R359). -/
def State.readInstant (s : State) (cut : Bool) : State :=
  match s.ledger.req with
  | some r => if r.snap.isNone ∧ (cut ∨ r.cyc < s.now / engTicks 8) then s.readSnap r cut else s
  | none => s

/-- Readings end with the result (R352, R361). -/
def State.readEnd (s : State) (result : Nat) : State :=
  if s.ledger.req.isSome then
    ((s.setLedger { s.ledger with req := none }).setFlag Reg.EVS_REQ_STAT F.EVS_REQ_STAT_BUSY false).setFld
      Reg.EVS_REQ_STAT F.EVS_REQ_STAT_RESULT result
  else s

/-! Blocks (R348, R358) -/

/-- The running block of every outlet ends over its samples, 800 at most; `cut` at a power cut (R359). -/
def State.blockEnd (s : State) (l : List (List (BitVec 24))) (cut : Bool) : State :=
  if !s.ledger.running ∨ l.isEmpty ∨ 800 < l.length then s
  else
    let s := (List.range 8).foldl (fun s o => s.blockOutlet o l) s
    let s := (List.range 8).foldl (fun s o => s.metRevalid o) s
    let s := s.readInstant cut
    match s.ledger.next with
    | some p => s.parApply p
    | none => s

/-! LEGAL_TX (R344) -/

/-- The character of a decimal or an upper-case hexadecimal digit. -/
def hexChar (d : Nat) : Byte := BitVec.ofNat 8 (if d < 10 then 48 + d else 55 + d)
/-- `n` digits of `x` to the base `b`, the highest first. -/
def digits (b : Nat) : Nat → Nat → List Byte
  | 0, _ => []
  | n + 1, x => digits b n (x / b) ++ [hexChar (x % b)]
def crLf : List Byte := [13, 10]
/-- An energy in kWh with three decimals, truncated. -/
def kwhText (mwh : Nat) : List Byte := digits 10 9 (mwh / 1000000) ++ [46] ++ digits 10 3 (mwh / 1000)

/-- CHK hhhhhhhh PCRC hhhhhhhh -/
def State.checkLine (s : State) : List Byte :=
  [67, 72, 75, 32] ++ digits 16 8 (s.rd Reg.MET_CHECK).toNat ++ [32, 80, 67, 82, 67, 32] ++
    digits 16 8 (s.rd Reg.MET_PCRC).toNat ++ crLf
/-- On IMP nnnnnnnnn.nnn EXP nnnnnnnnn.nnn kWh S ff -/
def State.energyLine (s : State) (o : Nat) : List Byte :=
  [79] ++ digits 10 1 o ++ [32, 73, 77, 80, 32] ++ kwhText (s.meter o).imp ++ [32, 69, 88, 80, 32] ++
    kwhText (s.meter o).exp ++ [32, 107, 87, 104, 32, 83, 32] ++ digits 16 2 (s.rd (Reg.MET_O_FLAGS o)).toNat ++ crLf
/-- STOP cc -/
def stopLine (code : Nat) : List Byte := [83, 84, 79, 80, 32] ++ digits 16 2 code ++ crLf

/-! Start and stop (R343, R355, R362) -/

/-- Metering starts: its entry and the CHK line. -/
def State.metStart (s : State) : State :=
  if s.ledger.running ∨ !s.ledger.image then s
  else
    let s := s.setLedger { s.ledger with running := true, chkAt := s.now, txAt := s.now }
    let s := s.setFlag Reg.MET_STATUS F.MET_STATUS_STOP false
    let s := s.logEntry 0x01 0xFF (leBytes 4 (s.rd Reg.MET_CHECK).toNat ++ leBytes 4 (s.rd Reg.MET_PCRC).toNat)
    s.emit (.legal s.checkLine)

/-- Metering stops with a fault code: STOP, its entry, the STOP line, its event and its CONTAIN, which recovers once the entry
is written; a request in progress ends. -/
def State.metStop (s : State) (code : Nat) : State :=
  let s := (s.setLedger { s.ledger with running := false }).setFlag Reg.MET_STATUS F.MET_STATUS_STOP true
  let s := s.readEnd 5
  let room := s.logHas 1
  let s := ((s.logEntry 0x08 0xFF (leBytes 1 code)).emit (.legal (stopLine code))).line 0x10 0x10
  s.contain 0x10 0 code room

/-! Loss and return of supply (R359, R360, R364, R386, R387) -/

/-- A qualified fall of VIN (R359, R386): the blocks end early, the request is frozen, the instants reached are processed,
the state is written, entry 0x04 follows, and the watch starts. -/
def State.ledgerCut (s : State) (l : List (List (BitVec 24))) : State :=
  if !s.domUp 4 ∨ s.ledger.down then s
  else
    let s := s.blockEnd l true
    let s := s.readInstant true
    let s := s.tarInstants
    let s := s.saveCopy
    let s := s.logEntry 0x04 0xFF (leBytes 1 1)
    let g := s.ledger
    let t := { g.tariff with mono := g.tariff.mono + (s.now - g.tariff.monoAt), monoAt := s.now }
    s.setLedger { g with tariff := t, down := true, cutS := some s.aonSec, tcwMask := 0, tcwCount := 0 }

/-- The copy with the higher sequence number. -/
def newer (a b : Option Saved) : Option Saved :=
  match a, b with
  | some x, some y => if x.seq < y.seq then some y else some x
  | some x, none => some x
  | none, y => y

/-- The parameter block that the restore finds: a copy without a bad word whose FORMAT and CRC match. -/
def State.parFound (s : State) : List Byte :=
  let copies := [0, 1].filterMap (fun c =>
    if s.mramGood (mramPar c) 0x124 ∧ parFormed (s.mramBytes (mramPar c) 0x124) then some (s.mramBytes (mramPar c) 0x124)
    else none)
  copies.headD []

/-- The tariff unit after the restore (R387): the interval open at the cut is INCOMPLETE and closes at once where its boundary
has passed, the billing boundaries passed are consumed, and the rate is evaluated. While TB[3] is unset no interval runs
(R385): it closes at once. -/
def State.tariffRestore (s : State) : State :=
  if !s.tar.used then s.rateSync
  else if s.ledger.unset then
    ((s.setTar { s.tar with open_ := s.tar.open_.map (fun v => { v with incomplete := true }) }).closeInterval false
      false).rateSync
  else
    let s := s.setTar { s.tar with open_ := s.tar.open_.map (fun v => { v with incomplete := true }) }
    let s := if s.demandDue then s.demandBoundary else s
    (s.billAll billOutage).rateSync

/-- The watch after the restore (R364). -/
def State.tcwRestore (s : State) : State :=
  let g := s.ledger
  if g.tcwCount = 0 then s
  else
    let s := s.logEntry 0x09 0xFF (leBytes 1 g.tcwMask ++ leBytes 3 0 ++ leBytes 4 g.tcwCount ++ leBytes 8 g.tcwFirst ++
      leBytes 8 g.tcwLast)
    let s := (s.note 0x14 0 0x01).setFlag Reg.MET_STATUS F.MET_STATUS_TAMPER_SEEN true
    s.setLedger { s.ledger with tcwMask := 0, tcwCount := 0 }

/-- What the registers of the Ledger show after its supply has returned. -/
def State.ledgerShow (s : State) : State :=
  let s := s.setFlag Reg.MET_STATUS F.MET_STATUS_LOG_NEAR (logNear ≤ s.ledger.entries)
  let s := s.setFlag Reg.MET_STATUS F.MET_STATUS_LOG_FULL (logFull ≤ s.ledger.entries)
  s.setFlag Reg.EVS_REQ_STAT F.EVS_REQ_STAT_BUSY s.ledger.req.isSome

/-- The restore of the Ledger (R360, R363): `badA` and `badB` say which copies fail their CRC-32. No RSEQ and no TSEQ is used
twice, whichever copy is taken (R353, R391). -/
def State.ledgerRestore (s : State) (badA badB : Bool) : State :=
  let g := s.ledger
  let lost := g.aonLost
  let out := if lost then s.freeNat % 2 ^ 32 else match g.cutS with | some t => s.aonSec - t | none => 0
  let s := if lost then s.took else s
  let best := newer (if badA then none else g.copyA) (if badB then none else g.copyB)
  let short := best ≠ newer g.copyA g.copyB
  let s := s.setLedger { s.ledger with down := false, cutS := none, aonLost := false, unset := g.unset || lost,
                                       stateOk := best.isSome }
  let s : State := match best with
    | some x =>
      let tar := { x.tariff with mono := x.tariff.mono + out * ticksPerS, monoAt := s.now,
                                 tseq := max x.tariff.tseq g.tariff.tseq }
      let s := s.setLedger { s.ledger with meter := x.meter, rseq := max x.rseq g.rseq, req := x.req, tariff := tar }
      if g.cutS.isSome then
        (List.range 8).foldl (fun (s : State) o => s.setMeter o { s.meter o with lostSeen := true }) s
      else s
    | none => s.setLedger { s.ledger with meter := [], req := none, tariff := { Tariff.reset with monoAt := s.now, tseq := g.tariff.tseq } }
  let s := s.ledgerShow
  let s := s.parApply s.parFound
  let s := if g.cutS.isSome then s.logEntry 0x05 0xFF (leBytes 4 out ++ leBytes 1 (bit01 short)) else s
  let s := if lost then (s.logEntry 0x0A 0xFF []).setFlag Reg.MET_STATUS F.MET_STATUS_AON_LOST true else s
  let s := s.tcwRestore
  let s := s.tariffRestore
  if best.isNone then s.metStop 0x05 else s

/-- Entry 0x06 once the Ledger region is up again (R361). -/
def State.ledgerUp (s : State) : State :=
  match s.ledger.resetAt with
  | some t =>
    let s := s.setLedger { s.ledger with resetAt := none }
    if s.ledger.down then s
    else s.logEntry 0x06 0xFF (leBytes 4 ((s.now - t) / ticksPerUs) ++
      (List.range 8).flatMap (fun o => leBytes 2 (s.meter o).owed))
  | none => s

end Sys2Proof.Machine
end

