-- ==== Sys2Proof/Machine/WeftMem.lean ====
section
/-!
DEFINITION. Machine/WeftMem.lean: the Weft loads, stores and atomics (R42, R46 to R48, R77, R418).
-/
namespace Sys2Proof.Machine

/-- Where a load or store of an engine goes. -/
inductive Place where
  | instr (key : Nat) | data (key : Nat) | fabric | pairReg (a : Nat) | none
deriving DecidableEq, Repr

/-- The memory an engine sees at an address (R38, R62, R77, R418): the pair sees nothing but its own memories and registers. -/
def placeOf (e a : Nat) : Place :=
  if inItcm e a then .instr (itcmKey e + (a - 0x60000000))
  else if inDtcm e a then .data (dtcmKey e + (a - 0x60100000))
  else if e ≠ 9 then .fabric
  else if 0x60200000 ≤ a ∧ a < 0x60200100 ∧ (regRow (0x40000000 + (a - 0x60200000) / 4 * 4)).isSome
  then .pairReg (0x40000000 + (a - 0x60200000))
  else .none

/-- The value of `size` loaded bytes, sign-extended where `sx`. -/
def extend (size : Nat) (sx : Bool) (n : Nat) : Word :=
  if sx then BitVec.ofInt 32 (signed (8 * size) n) else BitVec.ofNat 32 n

/-- A load of `size` bytes into w[d]. -/
def load (c : CtxId) (size : Nat) (sx : Bool) (d a : Fin 32) (imm : BitVec 16) (s : State) : State :=
  weft c s (fun k s =>
    let ea := (s.ctx k).ea a.val imm
    let got := fun (s : State) (n : Nat) => s.setCtx k ((s.ctx k).put d.val (extend size sx n)).advance
    let tcm := fun (key : Nat) =>
      let r := s.checkRead key
      if r.1 then got r.2 (r.2.num key size) else r.2.eccTrap k ea
    if ea.toNat % size ≠ 0 then s.trapHere k causeMisalign ea
    else
      match placeOf (engOf k) ea.toNat with
      | .instr key => tcm key
      | .data key => tcm key
      | .fabric => s.access k ea (.load d.val size sx)
      | .pairReg r => if size = 4 then got s (s.readSafety r).toNat else s.trapHere k causeAccess ea
      | .none => s.trapHere k causeAccess ea)

/-- A word the pair writes to a Selvedge register: only RWS and WO fields take it (R418, R444). -/
def State.pairWrite (s : State) (r : Nat) (v : Word) : State :=
  if r = Reg.SFS_OUT_EN then s.safetyEnWrite v
  else if r = Reg.SFS_OUT_CMT ∧ v.getLsbD 0 then s.safetyCommit
  else s

/-- A store of the low `size` bytes of w[d]. A halfword or byte store to a word of the own data memory that cannot be corrected
ends in a bus error, which is imprecise (R551, R58); on the pair that error is a pair fault. -/
def store (c : CtxId) (size : Nat) (d a : Fin 32) (imm : BitVec 16) (s : State) : State :=
  weft c s (fun k s =>
    let ea := (s.ctx k).ea a.val imm
    let v := (s.ctx k).reg d.val
    if ea.toNat % size ≠ 0 then s.trapHere k causeMisalign ea
    else
      match placeOf (engOf k) ea.toNat with
      | .instr _ => s.trapHere k causeAccess ea
      | .data key =>
        if engOf k = 9 ∧ key < pairDtcm + 0x200 then s.trapHere k causeAccess ea
        else
          let r := s.checkWrite key size (v.toNat % 2 ^ (8 * size))
          let s := r.2.setCtx k (r.2.ctx k).advance
          if r.1 || engOf k = 9 then s
          else (s.captureBusError (engSlot (engOf k)) ea.toNat 0 true).takeTrap k causeBusStore ea (s.ctx k).pc true
      | .fabric => s.access k ea (.store size v)
      | .pairReg r =>
        if size = 4 then
          let s := s.pairWrite r v
          s.setCtx k (s.ctx k).advance
        else s.trapHere k causeAccess ea
      | .none => s.trapHere k causeAccess ea)

/-- An atomic on shared SRAM: alignment is tested first, then the address (R47); Weft-S has none (R63). -/
def atomic (c : CtxId) (op : Nat) (d a b : Fin 32) (kind : Context → XKind) (s : State) : State :=
  weft c s (fun k s =>
    let x := s.ctx k
    let ea := x.reg a.val
    if engOf k = 9 then s.trapHere k causeIllegal (wordR op 0 0 b.val d.val a.val)
    else if ea.toNat % 4 ≠ 0 then s.trapHere k causeMisalign ea
    else if !inSram ea.toNat then s.trapHere k causeAccess ea
    else s.access k ea (kind x))

/-- LW: w[d] := mem32[ea] (R42, R46, R48). -/
def execLw (c : CtxId) (d a : Fin 32) (imm : BitVec 16) (s : State) : Host.Outcome State Fault Refusal :=
  .next (load c 4 false d a imm s)

/-- LH: sext(mem16[ea]) (R42, R46, R48). -/
def execLh (c : CtxId) (d a : Fin 32) (imm : BitVec 16) (s : State) : Host.Outcome State Fault Refusal :=
  .next (load c 2 true d a imm s)

/-- LHU: zext(mem16[ea]) (R42, R46, R48). -/
def execLhu (c : CtxId) (d a : Fin 32) (imm : BitVec 16) (s : State) : Host.Outcome State Fault Refusal :=
  .next (load c 2 false d a imm s)

/-- LB: sext(mem8[ea]) (R42, R46, R48). -/
def execLb (c : CtxId) (d a : Fin 32) (imm : BitVec 16) (s : State) : Host.Outcome State Fault Refusal :=
  .next (load c 1 true d a imm s)

/-- LBU: zext(mem8[ea]) (R42, R46, R48). -/
def execLbu (c : CtxId) (d a : Fin 32) (imm : BitVec 16) (s : State) : Host.Outcome State Fault Refusal :=
  .next (load c 1 false d a imm s)

/-- SW: mem32[ea] := w[d] (R42, R46, R48). -/
def execSw (c : CtxId) (d a : Fin 32) (imm : BitVec 16) (s : State) : Host.Outcome State Fault Refusal :=
  .next (store c 4 d a imm s)

/-- SH: mem16[ea] := w[d][15:0] (R42, R46, R48). -/
def execSh (c : CtxId) (d a : Fin 32) (imm : BitVec 16) (s : State) : Host.Outcome State Fault Refusal :=
  .next (store c 2 d a imm s)

/-- SB: mem8[ea] := w[d][7:0] (R42, R46, R48). -/
def execSb (c : CtxId) (d a : Fin 32) (imm : BitVec 16) (s : State) : Host.Outcome State Fault Refusal :=
  .next (store c 1 d a imm s)

/-- AADD: t := mem32[w[a]]; mem32[w[a]] := t + w[b]; w[d] := t, at the response (R42, R46, R47). -/
def execAadd (c : CtxId) (d a b : Fin 32) (s : State) : Host.Outcome State Fault Refusal :=
  .next (atomic c 0x32 d a b (fun x => .aadd d.val (x.reg b.val)) s)

/-- ACAS: t := mem32[w[a]]; if t = w[d] then mem32[w[a]] := w[b]; w[d] := t, at the response (R42, R46, R47). -/
def execAcas (c : CtxId) (d a b : Fin 32) (s : State) : Host.Outcome State Fault Refusal :=
  .next (atomic c 0x33 d a b (fun x => .acas d.val (x.reg d.val) (x.reg b.val)) s)

end Sys2Proof.Machine
end

