-- ==== Sys2Proof/Machine/WeftSys.lean ====
section
/-!
DEFINITION. Machine/WeftSys.lean: what the system instructions and the context events of Weft share: time, mailboxes, control
registers, debug halt (R51 to R60, R67 to R74, R81).
-/
namespace Sys2Proof.Machine

/-- The trap of an instruction that its engine does not have, or whose word is no instruction (R41, R56). -/
def State.illegal (s : State) (k : Nat) (w : Word) : State := s.trapHere k causeIllegal w

/-- The context goes on at the next instruction, where a waiting bus error or a halt takes it (R58, R81). -/
def State.goOn (s : State) (k : Nat) (x : Context) : State := ((s.setCtx k x.advance).boundary k).haltIfDone k

/-! Time (R51 to R53) -/

/-- The present value of a time base as the timer compare sees it: seconds × 2^32 + nanoseconds of TB[0..3], or the
engine's cycle counter. -/
def State.cmpNow (s : State) (e tb : Nat) : Nat :=
  if tb = 4 then s.cycles e else s.tbSec tb * 2 ^ 32 + s.tbSubNs tb

/-- The instant that TCMP arms: of TB[0..3], bits [47:32] of the seconds come from the base at the instant of arming. -/
def State.cmpArm (s : State) (tb : Nat) (a b : Word) : Nat :=
  if tb = 4 then a.toNat * 2 ^ 32 + b.toNat
  else (s.tbSec tb / 2 ^ 32 * 2 ^ 32 + a.toNat) * 2 ^ 32 + b.toNat

/-- The four parts of a time base (R53). -/
def State.timePart (s : State) (e tb part : Nat) : Nat :=
  if tb = 4 then
    (if part = 0 then s.cycles e % 2 ^ 32 else if part = 1 then s.cycles e / 2 ^ 32 % 2 ^ 32 else 0)
  else if part = 0 then s.tbSubNs tb
  else if part = 1 then s.tbSec tb % 2 ^ 32
  else if part = 2 then s.tbSec tb / 2 ^ 32 % 2 ^ 16
  else s.tbFrac tb

/-- TRD of part 0: the other parts of the base are latched (R53). -/
def State.latchTime (s : State) (k tb : Nat) : State :=
  [1, 2, 3].foldl (fun s p =>
    s.setCtx k { s.ctx k with
      latch := Tab.set (fun _ => 0) (s.ctx k).latch (4 * tb + p) (BitVec.ofNat 32 (s.timePart (engOf k) tb p)) }) s

/-- The instant at which a WAIT of `n` cycles expires: 0 polls for 2 cycles, 0xFFFF_FFFF never expires (R51). -/
def State.waitDue (s : State) (e : Nat) (n : Word) : Option Nat :=
  if n = 0xFFFFFFFF then none else some (s.now + (if n = 0 then 2 else n.toNat) * engTicks e)

/-- The cycle of engine e in which a limit set for `due` expires is over: an event that becomes pending in that cycle comes
first (R51). -/
def State.limitOver (s : State) (e : Nat) (due : Option Nat) : Bool :=
  match due with
  | some t => (t - Tab.get (fun _ => 0) s.weft.cyc0 e) / engTicks e < s.cycles e
  | none => false

/-! Mailboxes (R43, R72 to R74) -/

/-- A general mailbox holds eight words, those on their way among them. -/
def State.mboxCount (s : State) (m : Nat) : Nat := (s.mbox m).length + (s.weft.mbxFly.filter (fun e => e.mbx = m)).length

/-- A send or receive by a context that is not allowed: NOTE code 0x06 (R72). -/
def State.mboxRefuse (s : State) (k : Nat) : State := s.note 0x20 (engOf k) 0x06

/-- The word that a sender of a lower slot displaces from a full mailbox: of those sent in this CK_SYS cycle by higher slots the
one with the highest (R73). -/
def State.displaced (s : State) (k m : Nat) : Option Sent :=
  (s.weft.mbxFly.filter (fun e => e.mbx = m && e.cyc = s.now / ticksSys && engOf k < engOf e.sender)).foldl
    (fun b e => match b with | some y => if engOf y.sender < engOf e.sender then some e else b | none => some e) none

/-- MSEND to general mailbox m, its answer for w[d]: whether it is full, and the state after it. Of senders that compete for the
last free word in one CK_SYS cycle the lower slot wins: one of a higher slot that came first loses its word and receives
"full" (R73). -/
def State.mboxSend (s : State) (k m d : Nat) (w : Word) : Bool × State :=
  let me : Sent := ⟨m, w, k, d, s.now / ticksSys⟩
  if 32 ≤ k then (true, s.mboxRefuse k)
  else if !s.flag (Reg.MBX_CFG m) F.MBX_CFG_EN then (true, s)
  else if 8 ≤ s.mboxCount m then
    let s := s.setFlag (Reg.MBX_CFG m) F.MBX_CFG_FULL_SEEN true
    match s.displaced k m with
    | some e =>
      (false, (s.setWeft { s.weft with mbxFly := s.weft.mbxFly.erase e ++ [me] }).setCtx e.sender
        ((s.ctx e.sender).put e.dest 1))
    | none => (true, s)
  else (false, s.setWeft { s.weft with mbxFly := s.weft.mbxFly ++ [me] })

/-- MRECV from general mailbox m: the word, if it holds one. -/
def State.mboxRecv (s : State) (k m : Nat) : Option Word × State :=
  if s.mboxOwner m ≠ k then (none, s.mboxRefuse k)
  else
    match s.mbox m with
    | w :: t => (some w, s.setMbox m t)
    | [] => (none, s)

/-- MSEND to any mailbox; 0x80 is the safety mailbox (R435). -/
def State.send (s : State) (k mb d : Nat) (w : Word) : Bool × State :=
  if mb ≠ 0x80 then s.mboxSend k mb d w else if 36 ≤ k then s.pairSend w else s.safetySend k w

/-- MRECV from any mailbox. -/
def State.receive (s : State) (k mb : Nat) : Option Word × State :=
  if mb ≠ 0x80 then s.mboxRecv k mb else s.safetyRecv k

/-- MBX_CFG[m] is written (R74). -/
def State.mboxWrite (s : State) (m : Nat) (data : Word) : State :=
  let was := s.mboxOwner m
  let s := s.wrAccess (Reg.MBX_CFG m) data
  if s.flag (Reg.MBX_CFG m) F.MBX_CFG_EN ∨ s.mboxOwner m ≠ was then
    (s.setWeft { s.weft with mbxFly := s.weft.mbxFly.filter (fun e => e.mbx ≠ m) }).setMbox m []
  else s

/-! Control registers (R54, R70) -/

/-- ID (R54). -/
def idWord (k : Nat) : Word :=
  BitVec.ofNat 32 (0x01000000 + bit01 (engOf k = 9) * 2 ^ 9 + bit01 (engOf k = 8) * 2 ^ 8 + k % 4 * 16 +
    (if engOf k < 8 then engOf k else 0))

/-- The number n of an EVT_SEL register, 4 to 31 (R70). -/
def evtSelOf (c : Nat) : Option Nat := if 0x114 ≤ c ∧ c ≤ 0x12F then some (c - 0x110) else none

/-- CSR c as read; none where the context has no such CSR. A write-only CSR reads 0 (R5). -/
def State.csr (s : State) (k c : Nat) : Option Word :=
  let x := s.ctx k
  if c = 0x000 then some x.status
  else if c = 0x001 then some x.tvec
  else if c = 0x002 then some x.epc
  else if c = 0x003 then some x.tcause
  else if c = 0x004 then some x.tval
  else if c = 0x005 then some x.tscratch
  else if c = 0x006 then some (idWord k)
  else if c = 0x100 then some (BitVec.ofNat 32 (s.evtPending k))
  else if c = 0x101 then some x.evtOvf
  else if c = 0x102 then some 0
  else if (c = 0x103 ∨ c = 0x104) ∧ engOf k = 9 then none
  else if c = 0x103 then some x.wdt
  else if c = 0x104 then some 0
  else (evtSelOf c).map (fun n => Tab.get (fun _ => 0) x.evtSel n)

/-- A CSR that only reads (R54, R70). -/
def csrReadOnly (c : Nat) : Bool := c = 0x006 || c = 0x100

/-- WDT is written (R68, R70): a rise of EN starts the watchdog, EN 0 stops it. -/
def State.wdtWrite (s : State) (k : Nat) (v : Word) : State :=
  let was := (s.ctx k).wdt.getLsbD 31
  let s := s.setCtx k { s.ctx k with wdt := v &&& 0x80FFFFFF }
  if was && v.getLsbD 31 then s else s.wdtKick k

/-- EVT_SEL[n] is written (R70, R71): a source that the engine does not accept leaves the event idle and raises a NOTE, on
the pair code 0x08 of block 0x18 (R421). That a word with EN = 0 raises none is the model's choice (log entry 135): R61 and
R71 name no EN. -/
def State.evtSelWrite (s : State) (k n : Nat) (v : Word) : State :=
  let v := v &&& 0x8000FFFF
  let s := s.setCtx k { s.ctx k with evtSel := Tab.set (fun _ => 0) (s.ctx k).evtSel n v }
  if v.getLsbD 31 && !lineDefined (engOf k) (v.toNat / 256 % 256) (v.toNat % 256) then
    (if engOf k = 9 then s.note 0x18 0 0x08 else s.note 0x20 (engOf k) 0x05)
  else s

/-- CSR c of context k is written; reserved and read-only bits keep their value. -/
def State.csrPut (s : State) (k c : Nat) (v : Word) : State :=
  let x := s.ctx k
  if c = 0x000 then s.setCtx k { x with status := (x.status &&& 0x4000) ||| (v &&& 0x8103) }
  else if c = 0x001 then s.setCtx k { x with tvec := v &&& 0xFFFFFFFC }
  else if c = 0x002 then s.setCtx k { x with epc := v }
  else if c = 0x003 then s.setCtx k { x with tcause := v &&& 0xC00000FF }
  else if c = 0x004 then s.setCtx k { x with tval := v }
  else if c = 0x005 then s.setCtx k { x with tscratch := v }
  else if c = 0x101 then s.setCtx k { x with evtOvf := v }
  else if c = 0x102 then
    [0, 1, 2, 3].foldl (fun s j => if v.getLsbD j then s.occurs (4 * engOf k + j) 2 else s) s
  else if c = 0x103 then s.wdtWrite k v
  else if c = 0x104 then s.wdtKick k
  else
    match evtSelOf c with
    | some n => s.evtSelWrite k n v
    | none => s

/-- An access to CSR n of mode 0 to 3 (CSRR, CSRW, CSRS, CSRC): w[d] takes the CSR's value, and all but CSRR write
`f` of it and w[a]. An unlisted CSR and a write to a read-only one trap with cause ILLEGAL (R42, R54). -/
def csrOp (c : CtxId) (mode : Nat) (d a : Fin 32) (n : BitVec 12) (f : Word → Word → Word) (s : State) : State :=
  weft c s (fun k s =>
    let w := wordI 0x34 (mode * 2 ^ 12 + n.toNat) d.val a.val
    match s.csr k n.toNat with
    | none => s.illegal k w
    | some t =>
      if mode ≠ 0 ∧ csrReadOnly n.toNat then s.illegal k w
      else
        let v := f t ((s.ctx k).reg a.val)
        let s := if mode = 0 then s else s.csrPut k n.toNat v
        s.goOn k ((s.ctx k).put d.val t))

/-! Start, restart, debug halt (R67, R68, R81) -/

/-- RESTART of context k from any state (R67): a context stalled on a fabric access restarts after the access. -/
def State.restart (s : State) (k : Nat) : State :=
  if (s.ctx k).stall = .fabric && s.hasAccess k then s.setCtx k { s.ctx k with restarting := true }
  else
    ((s.setKs { s.ks with reqs := s.ks.reqs.filter (fun r => r.ctx ≠ k) }).restartCtx k).haltIfDone k

/-- A context in debug halt runs on where it stopped (R81): a masked event that became pending ends its WAIT. -/
def State.unhalt (s : State) (k : Nat) : State :=
  let x := s.ctx k
  if x.run = .halted && !x.dead then
    ((s.setCtx k (({ x with run := .running } : Context).thaw s.now)).wake k).boundary k
  else s

/-- HALT[k] of a context as CTX_CTRL holds it (R82). -/
def State.setHalt (s : State) (k : Nat) (b : Bool) : State :=
  s.setBit (Reg.WSC_CTX_CTRL (engOf k)) F.WSC_CTX_CTRL_HALT (k % 4) b

/-- What CTX_CTRL or a claim asks of the contexts of WS[n] takes effect. -/
def State.haltsSync (s : State) (n : Nat) : State :=
  [0, 1, 2, 3].foldl (fun s j =>
    if s.haltAsked (4 * n + j) then s.haltIfDone (4 * n + j) else s.unhalt (4 * n + j)) s

end Sys2Proof.Machine
end

