-- ==== Sys2Proof/Machine/PowerOps.lean ====
section
/-!
DEFINITION. Machine/PowerOps.lean: power domains, the hub reset and what ends a reset (R500 to R514).
-/
namespace Sys2Proof.Machine

/-! Power domains (R502, R503, R511) -/

/-- Domain d is powered, or not. -/
def State.setDom (s : State) (d : Nat) (b : Bool) : State := s.setBit Reg.PWR_STATUS F.PWR_STATUS_UP d b

/-- The always-on counter goes on from its present value; it counts while CK_RTC is there or VIN feeds REFCLK (R509). -/
def State.aonSync (s : State) : State :=
  s.setPower { s.power with aonVal := s.aonTicks, aonAt := s.now, aonRun := s.power.vin || !s.power.rtcMissing }

/-- The bases at a power-on of PD_NET (R233): TB[3] from the always-on counter, the others at 0 s; or standing while the
domain has no power. -/
def State.basesAt (s : State) (aon : Nat) (powered : Bool) : State :=
  [0, 1, 2, 3].foldl (fun s n =>
    s.setTb n { TimeBase.initial n with
      cyc := s.now / ticksNet, val := if n = 3 ∧ powered then aon / ticksPerNs * 65536 * tbUnit % tbModulus else 0,
      rate := if powered then 0 else -1000000000000 }) s

/-- The contexts with keys in [lo, hi) are STOPPED with nothing held, their event copies dropped. -/
def State.dropContexts (s : State) (lo hi : Nat) : State :=
  let hit := fun (k : Nat) => decide (lo ≤ k) && decide (k < hi)
  s.setWeft { s.weft with ctx := Tab.clear hit s.weft.ctx, flying := s.weft.flying.filter (fun e => !hit e.1),
                          cyc0 := Tab.set (fun _ => 0) s.weft.cyc0 (engOf lo) s.now }

/-- The memory bytes with keys in [lo, hi) as an unlisted byte reads, their check bits valid. -/
def State.wipe (s : State) (lo hi : Nat) : State :=
  let hit := fun (a : Nat) => decide (lo ≤ a) && decide (a < hi)
  (s.setMem (Tab.clear hit s.mem)).setEcc
    { s.ecc with
      damage := Tab.clear hit s.ecc.damage, back := s.ecc.back.filter (fun a => !hit a),
      lost := s.ecc.lost.filter (fun a => !hit a), rewritten := s.ecc.rewritten.filter (fun a => !hit a),
      known := s.ecc.known.filter (fun a => !hit a) }

/-- Registers of the key store in PD_AON (R502). -/
def keepVault (a : Nat) : Bool := a = Reg.KS_ZSTAT || a = Reg.KS_ZTIME

/-- The parts of the links state that belong to the T1S ports, or to the modem: a pilot, a SLAC run and a neighbour are the
modem's, rings 0 to 7 the ports'. -/
def State.linksLose (s : State) (plc : Bool) : State :=
  if plc then
    s.setLinks { s.links with pilot := [], slac := [], nbr := [], ring := Tab.clear (fun l => 8 ≤ l) s.links.ring }
  else s.setLinks { s.links with ring := Tab.clear (fun l => l < 8) s.links.ring, phyFail := [] }

/-- Every register and memory of domain d takes its power-on value (R503, R511); what the owning chapter holds in
non-volatile cells or in PD_AON stays. -/
def State.domReset (s : State) (d : Nat) : State :=
  if d = 1 then
    let r := (s.resetRegs [0x18] keepNone).dropContexts 36 40
    (r.setSelv { Selvedge.reset with nvChk := s.selv.nvChk, nvProg := s.selv.nvProg, ageAt := s.now }).wipe pairItcm mramBase
  else if d = 2 then
    let r := ((resetHubBlocks s).wr Reg.SUP_VBAT 0).wr Reg.CLK_STATUS 0
    if s.power.refclk then r
    else (r.setFld Reg.CLK_STATUS F.CLK_STATUS_REF_LOST (s.fld Reg.CLK_STATUS F.CLK_STATUS_REF_LOST)).setFld Reg.CLK_STATUS
      F.CLK_STATUS_BKOSC (s.fld Reg.CLK_STATUS F.CLK_STATUS_BKOSC)
  else if d = 3 then
    let r := s.resetRegs [0x13] keepVault
    let r := r.setKs { KeyStore.reset with root := s.ks.root, maskAt := s.now, seedAt := s.now }
    r.setFlag Reg.KS_STATUS F.KS_STATUS_ROOT s.ks.root.isSome
  else if d = 4 then
    let r := (((s.resetRegs [0x10, 0x11, 0x12] keepNone).dropContexts 32 36).wipe metroItcm pairItcm).orphan [8]
    r.setLedger { s.ledger with running := false, image := false, down := true, req := none, resetAt := none }
  else if d = 5 then
    ((s.resetRegs [0x1A, 0x1B] keepNone).setHs { Switches.reset with level := s.hs.level, overV := s.hs.overV }).setBrine
      Brine.reset
  else if d = 6 then
    let r := (((s.resetRegs [0x02, 0x04, 0x19] keepNone).setSense s.sense.restarted).setGrid Grid.reset).setThermal Thermal.reset
    if s.up 0x00 then r.showCmps else r
  else if d = 7 then
    let r := s.zwReset.resetRegs [0x08, 0x09, 0x0A, 0x0C, 0x0D, 0x0E] keepNone
    let r := (((r.setTime Time.reset).setSes Session.reset).setCan Can.reset).linksLose false
    r.basesAt 0 false
  else if d = 8 then ((s.resetRegs [0x01, 0x03] keepNone).setTwill s.twill.restarted).setSal Saltern.reset
  else if d = 9 then (s.resetRegs [0x00] keepNone).setLoom s.loom.restarted
  else if d = 10 then (s.resetRegs [0x0B] keepNone).linksLose true
  else s

/-- What follows domain d out of a reset or at power-on: pins and signals between the blocks. -/
def State.pinsMove (s : State) : State := (s.resetsMoved).ownedMoved

/-- Domain d loses power (R503): its blocks lose what they hold, and line 0x00 tells. -/
def State.powerOff (s : State) (d : Nat) : State :=
  if !s.domUp d then s
  else
    let s := if d = 7 then s.aonSync else s
    (((s.domReset d).setDom d false).pinsMove).line 0x24 0x00

/-- Domain d is powered on (R503, R511); the time bases start as R233 gives. -/
def State.powerOn (s : State) (d : Nat) : State :=
  let aon := s.aonTicks
  let s := (s.domReset d).setDom d true
  let s := if d = 7 then (s.setPower { s.power with aonVal := aon, aonAt := s.now }).basesAt aon true else if d = 9 ∧ s.up 0x00 then s.loomReleased
    else if d = 8 then s.modeFollows else s
  (s.pinsMove).line 0x24 0x00

/-- A write of PWR_CTRL may take the power of domain d (R503). -/
def State.offRefused (s : State) (d : Nat) : Bool :=
  (if d = 9 then s.fld Reg.LOOM_RUN F.LOOM_RUN_VAL ≠ 0
   else if d = 8 then
     (List.range 4).any (fun e => s.flag (Reg.TW_CTRL e) F.TW_CTRL_RUN) || s.fld Reg.SAL_CTRL F.SAL_CTRL_MODE ≠ 0
   else if d = 7 then s.flag Reg.ZW_CTRL F.ZW_CTRL_EN
   else (List.range 8).any (fun n => s.flag (Reg.GP_CTRL n) F.GP_CTRL_EN) || s.flag Reg.BB_CTRL F.BB_CTRL_EN) ||
  s.regionHeld (if d = 7 ∨ d = 10 then 1 else 0)

/-- Bit i of DOM_EN is written `b`: domain 7 + i (R503). -/
def State.domWrite (s : State) (i : Nat) (b : Bool) : State :=
  let d := 7 + i
  if b then
    let s := s.setBit Reg.PWR_CTRL F.PWR_CTRL_DOM_EN i true
    if s.domUp d then s else s.powerOn d
  else if !s.domUp d then s
  else if s.offRefused d then s.setFlag Reg.PWR_CTRL F.PWR_CTRL_REFUSED true
  else (s.setBit Reg.PWR_CTRL F.PWR_CTRL_DOM_EN i false).powerOff d

/-! Hub reset (R31, R511, R513, R514) -/

/-- The code that RST_LAST takes where the sources `l` coincide (R513). -/
def lastSource (l : List Nat) : Nat :=
  if l.contains 4 && !l.contains 0 then 4 else l.foldl min 15

/-- Source b asserts: its bit in RST_CAUSE, and it coincides with those in force. -/
def State.sourceAsserts (s : State) (b : Nat) : State :=
  (s.setBit Reg.RST_CAUSE F.RST_CAUSE_CAUSE b true).setPower { s.power with coincide := b :: s.power.coincide }

/-- The reset record takes a power-on or hub reset; one that is already in force is the same reset (R513). -/
def State.recordReset (s : State) (fresh : Bool) : State :=
  let s := s.setFld Reg.RST_LAST F.RST_LAST_CODE (lastSource s.power.coincide)
  if fresh then
    (s.wrNat Reg.RST_TIME (s.aonTicks / ticksPerS)).wrNat Reg.RST_COUNT (satAdd 65535 (s.rd Reg.RST_COUNT).toNat 1)
  else s

/-- A hub reset is asserted by source b (R31, R511): the hub and the Power, Link and Guard regions but for Selvedge and
Brine. It holds until each of its sources has released. -/
def State.assertHub (s : State) (b : Nat) : State :=
  let s := s.sourceAsserts b
  if s.power.hubReset then s.recordReset false
  else
    let s := s.recordReset true
    let s := resetGuardRegion (resetLinkRegion (resetPowerRegion (resetHubBlocks s)))
    (s.setPower { s.power with hubReset := true }).pinsMove

/-- Start-up begins from the top (R518, R529). -/
def State.startUp (s : State) : State :=
  let s := (s.setFld Reg.ST_STATUS F.ST_STATUS_PHASE 1).setStartup { Startup.reset with validAt := some s.now }
  s.pinsMove

/-- The ports of region r report idle once its reset is over: what they owed is void, and code 0xF2 recovers (R549). -/
def State.portsIdle (s : State) (r : Nat) : State :=
  let mine := fun (x : Xact) => regBlock x.addr.toNat |>.any (fun b => regionOf b = some r && !neverReset b)
  let blks := (s.fabric.owed.filter mine).map (fun x => (regBlock x.addr.toNat).getD 0)
  let s := s.setFabric { s.fabric with owed := s.fabric.owed.filter (fun x => !mine x) }
  blks.foldl (fun s b => s.recoversCell b 0xF2 0xFF) s

/-- The region of index r is out of reset: what its blocks and those beside it do then (R102, R309, R549). -/
def State.regionReleased (s : State) (r : Nat) : State :=
  let s := if r = 0 then s.loomReleased.modeFollows else s
  let s := if r ≤ 1 then s.thermalRestore else s
  (s.portsIdle r).pinsMove

/-- The region of index r is up (R24): the fans of the Guard region follow their channels again, and the Ledger logs its
reset (R333, R361). -/
def State.regionIsUp (s : State) (r : Nat) : State :=
  if r = 2 then s.ledgerUp else if r = 3 then s.fansUp else s

/-- The hub reset ends once no source holds it (R514): domains that firmware had switched off are powered again, a region reset
of the Ledger ends, and start-up follows. -/
def State.releaseHub (s : State) : State :=
  if !s.power.hubReset || s.power.supplyReset || s.power.pinLow || s.power.chipSafe then s
  else
    let held := (s.regRec 2).inReset
    let s := (s.setPower { s.power with hubReset := false, coincide := [] }).setLadder { s.ladder with reg := [] }
    let s := [7, 8, 9, 10].foldl (fun s d => if s.domUp d then s else s.powerOn d) s
    let s := (s.regionReleased 0).regionReleased 1
    let s := if held then s.regionReleased 2 else s
    ((s.regionIsUp 2).regionIsUp 3).startUp

/-- A hub reset that nothing holds: asserted by source b and over. -/
def State.hubResetBy (s : State) (b : Nat) : State := (s.assertHub b).releaseHub

/-- A power-on of every domain but PD_AON (R501, R502, R511), by source b: the supply reset holds until VIN is valid. -/
def State.powerOnAll (s : State) (b : Nat) : State :=
  let s := s.sourceAsserts b
  let s := s.recordReset true
  let s := s.setPower { s.power with vin := true, vinOnAt := some s.now, supplyReset := true, pinLow := s.power.pinLow,
                                     hubReset := true, chipSafe := false }
  let s := s.aonSync
  [1, 2, 3, 4, 5, 6, 7, 8, 9, 10].foldl (fun s d => s.powerOn d) s

/-- What PD_AON loses when VIN and VBAT have both been absent (R501, R502, R363, R398): the record of the chip, the reset
record, the always-on counter, KROOT and the watch. -/
def State.aonReset (s : State) : State :=
  let hit := fun (a : Nat) => keepAon a || keepVault a
  let s := (s.setRegs (Tab.clear hit s.regs)).setKs { s.ks with root := none }
  let s := s.setPower { Power.reset with pinLow := s.power.pinLow, refclk := s.power.refclk, aonVal := 0, aonAt := s.now }
  s.setLedger { s.ledger with aonLost := true, cutS := none, tcwMask := 0, tcwCount := 0, tcwFirst := 0, tcwLast := 0 }

/-! Supply and clock faults (R504, R508) -/

/-- The regions that hold a block of domain d (R11, R504). -/
def domRegions (d : Nat) : List Nat :=
  if d = 0 ∨ d = 4 then [2] else if d = 5 then [3] else if d = 6 then [0, 3] else if d = 7 ∨ d = 10 then [1] else [0]

/-- The regions that a fault of the clock in row c of R508 resets, and the domain whose loss of power leaves that clock
unsupervised (R514). -/
def clockRegions (c : Nat) : List Nat :=
  if c = 1 then [1, 3] else if c = 2 then [2] else if c = 4 ∨ c = 5 then [1] else [0]
def clockDomain (c : Nat) : Nat :=
  if c = 2 then 4 else if c = 3 then 8 else if c = 4 then 7 else if c = 5 then 10 else if c = 6 ∨ c = 7 then 6
  else if c = 8 then 9 else 2

end Sys2Proof.Machine
end

