-- ==== Sys2Proof/Machine/LadderCommands.lean ====
section
/-!
DEFINITION. Machine/LadderCommands.lean: the events of the error ladder and the writes of its registers (R22 to R34, R549, R550).
-/
namespace Sys2Proof.Machine

/-- The ladder acts while the hub is powered and out of reset. -/
def State.onLadder (s : State) (f : State → State) : State := s.onBlk .ladder f

/-- Cell and code of FIRST of the record at `base` (R34). -/
def State.firstCell (s : State) (base : Nat) : Nat := s.fld (base + 4) F.ERR_CHIP_CAUSE_CELL
def State.firstCode (s : State) (base : Nat) : Nat := s.fld (base + 4) F.ERR_CHIP_CAUSE_CODE
def State.firstBlock (s : State) (base : Nat) : Nat := s.fld (base + 4) F.ERR_CHIP_CAUSE_BLOCK

/-- NOTE_LIMIT of a block; 0 disables (R23). -/
def State.noteLimit (s : State) (blk : Nat) : Nat := s.fld (Reg.ERR_BLK_CFG blk) F.ERR_BLK_CFG_NOTE_LIMIT

/-- NOTE_LIMIT_EXCEEDED: more than NOTE_LIMIT NOTEs within 1 s raise CONTAIN 0xF0 (R23, R549). -/
def execNoteLimitExceeded (blk : BlockId) (s : State) : Host.Outcome State Fault Refusal :=
  .next (s.onLadder (fun s =>
    let b := blkNum blk
    if s.noteLimit b ≠ 0 ∧ s.noteLimit b < (s.recentNotes b).length ∧ !(s.blkRec b).noteOver then
      let s := s.setBlkRec b { s.blkRec b with noteOver := true }
      s.contain b (s.blkRec b).noteCell 0xF0
    else s))

/-- NOTE_WINDOW_RECOVERED: the window holds NOTE_LIMIT NOTEs or fewer, and 0xF0 recovers (R549). -/
def execNoteWindowRecovered (blk : BlockId) (s : State) : Host.Outcome State Fault Refusal :=
  .next (s.onLadder (fun s =>
    let b := blkNum blk
    if (s.blkRec b).noteOver ∧ (s.noteLimit b = 0 ∨ (s.recentNotes b).length ≤ s.noteLimit b) then
      (s.setBlkRec b { s.blkRec b with noteOver := false }).recovers b 0xF0
    else s))

/-- BLOCK_TIMER_EXPIRY: a CONTAIN that is not cleared escalates to REGION, in a hub block to CHIP (R23). -/
def execBlockTimerExpiry (blk : BlockId) (s : State) : Host.Outcome State Fault Refusal :=
  .next (s.onLadder (fun s =>
    let b := blkNum blk
    if s.reached (s.blkDue b) then
      let s := s.setBlkRec b { s.blkRec b with timer := none, spent := some (s.now / ticksSys) }
      let base := Reg.ERR_BLK_STATUS b
      match regionOf b with
      | some r => s.regionFault r b (s.firstCell base) (s.firstCode base)
      | none => s.chipFault b (s.firstCell base) (s.firstCode base)
    else s))

/-- REGION_RESET_COMPLETE: the blocks of the region are out of reset; after a commanded reset no UP is due (R24, R512). -/
def execRegionResetComplete (r : Fin 4) (s : State) : Host.Outcome State Fault Refusal :=
  .next (s.onLadder (fun s =>
    let x := s.regRec r.val
    if x.inReset then
      let s := (s.setRegRec r.val { x with inReset := false, commanded := false }).regionReleased r.val
      if x.commanded then s.regionIsUp r.val else s
    else s))

/-- REGION_TIMER_EXPIRY: the region is not up in time, which escalates to CHIP (R23). -/
def execRegionTimerExpiry (r : Fin 4) (s : State) : Host.Outcome State Fault Refusal :=
  .next (s.onLadder (fun s =>
    if s.reached (s.regDue r.val) then
      let s := s.setRegRec r.val { s.regRec r.val with timer := none, spent := some (s.now / ticksSys) }
      let base := Reg.ERR_REG_STATUS r.val
      s.chipFault (s.firstBlock base) (s.firstCell base) (s.firstCode base)
    else s))

/-- CHIP_TIMER_EXPIRY: the chip safe state has been held for ERR_CHIP_TMO.LIMIT; the hub reset follows (R33, R511). -/
def execChipTimerExpiry (s : State) : Host.Outcome State Fault Refusal :=
  .next (
    if s.domUp 2 && s.power.chipSafe && s.reached s.chipDue then
      let s := (s.setFlag Reg.ERR_CHIP_STATUS F.ERR_CHIP_STATUS_OPEN false).setLadder { s.ladder with chipTimer := none }
      let s := (s.setPower { s.power with chipSafe := false }).setFabric { s.fabric with closed := false }
      s.hubResetBy 4
    else s)

/-- BRIDGE_HANDSHAKE_STALL: a handshake stalls for more than 10 µs: REGION 0xF3 in the region beyond the bridge (R25, R549). -/
def execBridgeHandshakeStall (r : Fin 4) (s : State) : Host.Outcome State Fault Refusal :=
  .next (s.onLadder (fun s => s.region 0x23 (1 + r.val) 0xF3 [r.val]))

/-- LADDER_COPY_FAULT: a fault in copy n of the ladder, 0xF4, or in the bridge handshake to region n, 0xF5: CHIP (R25, R549). -/
def execLadderCopyFault (bridge : Bool) (n : Fin 4) (s : State) : Host.Outcome State Fault Refusal :=
  if !bridge && 2 ≤ n.val then .fault .illFormed
  else .next (s.onLadder (fun s => if bridge then s.chip 0x23 (1 + n.val) 0xF5 else s.chip 0x26 n.val 0xF4))

/-- The write that would stop a timer comes in the CK_SYS cycle in which the timer expires (R28). -/
def State.lateFor (s : State) (due spent : Option Nat) : Bool :=
  (match due with | some d => d / ticksSys ≤ s.now / ticksSys | none => false) || spent = some (s.now / ticksSys)

/-- ERR_BLK[id].CTRL.ACK clears an open CONTAIN that has recovered (R24); in the cycle of the expiry the write is
discarded and LATE is set (R28). -/
def State.errAck (s : State) (b : Nat) : State :=
  if s.flag (Reg.ERR_BLK_STATUS b) F.ERR_BLK_STATUS_OPEN && s.flag (Reg.ERR_BLK_CTRL b) F.ERR_BLK_CTRL_RECOVERED then
    if s.lateFor (s.blkDue b) (s.blkRec b).spent then s.setFlag (Reg.ERR_BLK_STATUS b) F.ERR_BLK_STATUS_LATE true
    else s.closeBlk b
  else s

/-- ERR_ACK: ERR_BLK[id].CTRL.ACK clears an open CONTAIN that has recovered (R24); in the cycle of the expiry the write is
discarded and LATE is set (R28). -/
def execErrAck (blk : BlockId) (s : State) : Host.Outcome State Fault Refusal :=
  .next (s.onLadder (fun s => s.errAck (blkNum blk)))

/-- ERR_REG[r].CTRL.UP confirms a region whose reset has completed (R24); in the cycle of the expiry the write is
discarded and LATE is set (R28). -/
def State.regionUp (s : State) (r : Nat) : State :=
  let x := s.regRec r
  let st := Reg.ERR_REG_STATUS r
  if s.flag st F.ERR_REG_STATUS_OPEN && !x.inReset then
    if s.lateFor (s.regDue r) x.spent then s.setFlag st F.ERR_REG_STATUS_LATE true
    else
      let s := (s.setFlag st F.ERR_REG_STATUS_OPEN false).setRegRec r { x with timer := none }
      s.regionIsUp r
  else s

/-- REGION_UP: ERR_REG[r].CTRL.UP confirms a region whose reset has completed (R24); in the cycle of the expiry the write is
discarded and LATE is set (R28). -/
def execRegionUp (r : Fin 4) (s : State) : Host.Outcome State Fault Refusal :=
  .next (s.onLadder (fun s => s.regionUp r.val))

/-- A record whose STATUS lies at `base` takes its Reset values, LATE apart, where nothing is open (R34). -/
def State.clearRecord (s : State) (base : Nat) (cells : Bool) : State :=
  if s.flag base F.ERR_CHIP_STATUS_OPEN then s
  else
    let s := (s.setFld base F.ERR_CHIP_STATUS_COUNT 0).setFld base F.ERR_CHIP_STATUS_GRADE 0
    let s := ((s.wr (base + 4) 0).wr (base + 8) 0).wr (base + 12) 0
    if cells then (s.wr (base + 16) 0).wr (base + 20) 0 else s

/-- GRADE of ERR_REG[r].STATUS is written 0b111. -/
def State.clearRegRec (s : State) (r : Nat) : State :=
  let s := s.clearRecord (Reg.ERR_REG_STATUS r) false
  if s.flag (Reg.ERR_REG_STATUS r) F.ERR_REG_STATUS_OPEN then s
  else s.setRegRec r { s.regRec r with firstCyc := none }

/-- GRADE of ERR_BLK[b].STATUS is written 0b111. -/
def State.clearBlkRec (s : State) (b : Nat) : State :=
  let s := s.clearRecord (Reg.ERR_BLK_STATUS b) true
  if s.flag (Reg.ERR_BLK_STATUS b) F.ERR_BLK_STATUS_OPEN then s
  else s.setBlkRec b { s.blkRec b with firstCyc := none }

/-- GRADE of ERR_CHIP_STATUS is written 0b111. -/
def State.clearChipRec (s : State) : State :=
  let s := s.clearRecord Reg.ERR_CHIP_STATUS false
  if s.flag Reg.ERR_CHIP_STATUS F.ERR_CHIP_STATUS_OPEN then s else s.setLadder { s.ladder with chipCyc := none }

/-- ERR_BLK[b].CFG is written: AUTO_CLR clears a CONTAIN that has recovered (R24); in the cycle of the expiry that write is
discarded and LATE is set (R28). -/
def State.blkCfgWrite (s : State) (b : Nat) (v : Word) : State :=
  let w := s.wrAccess (Reg.ERR_BLK_CFG b) v
  if w.flag (Reg.ERR_BLK_CFG b) F.ERR_BLK_CFG_AUTO_CLR && s.flag (Reg.ERR_BLK_STATUS b) F.ERR_BLK_STATUS_OPEN &&
      s.flag (Reg.ERR_BLK_CTRL b) F.ERR_BLK_CTRL_RECOVERED then
    if s.lateFor (s.blkDue b) (s.blkRec b).spent then s.setFlag (Reg.ERR_BLK_STATUS b) F.ERR_BLK_STATUS_LATE true
    else w.closeBlk b
  else w

/-- ERR_RECORD_CLEAR: 0b111 is written to GRADE of a record (R34). -/
def execErrRecordClear (rec : RecordId) (s : State) : Host.Outcome State Fault Refusal :=
  .next (s.onLadder (fun s =>
    match rec with
    | .chip => s.clearChipRec
    | .region r => s.clearRegRec r.val
    | .block b => s.clearBlkRec (blkNum b)))

/-- ERR_LOCK: the CFG registers and ERR_CHIP_TMO are read-only until the next hub reset (R34). -/
def execErrLock (s : State) : Host.Outcome State Fault Refusal :=
  .next (s.onLadder (fun s => s.setFlag Reg.ERR_LOCK F.ERR_LOCK_LOCK true))

end Sys2Proof.Machine
end

