-- ==== Sys2Proof/Machine/PowerCommands.lean ====
section
/-!
DEFINITION. Machine/PowerCommands.lean: supplies, clocks and resets as commands (R500 to R516).
-/
namespace Sys2Proof.Machine

/-- VIN_POWER_FAIL: a qualified fall through V_PF: the Ledger begins its hold-up with the samples of its running blocks, and
the supply reset asserts (R359, R505). -/
def execVinPowerFail (samples : List (List (BitVec 24))) (s : State) : Host.Outcome State Fault Refusal :=
  .next (
    if s.power.vin then
      let s := s.ledgerCut samples
      let s := s.setPower { s.power with supplyReset := true, vinOnAt := none }
      s.assertHub 2
    else s)

/-- VIN_STOP: at V_STOP every domain except PD_AON loses power (R505). -/
def execVinStop (s : State) : Host.Outcome State Fault Refusal :=
  .next (
    if s.power.vin then
      let s := s.setFlag Reg.ERR_CHIP_STATUS F.ERR_CHIP_STATUS_OPEN false
      let s := s.setPower { s.power with chipSafe := false, hubReset := true, supplyReset := true, vinOnAt := none }
      let s := [10, 9, 8, 7, 6, 5, 4, 3, 2, 1].foldl (fun s d => s.powerOff d) s
      let s := s.aonSync
      (s.setPower { s.power with vin := false }).aonSync
    else s)

/-- VIN_ON: VIN rises through V_ON: after V_STOP the power-on of every domain but PD_AON (R511), before it the return that
R507 waits for. -/
def execVinOn (s : State) : Host.Outcome State Fault Refusal :=
  .next (if s.power.vin then s.setPower { s.power with vinOnAt := some s.now } else s.powerOnAll 1)

/-- VIN_VALID: VIN has stayed above V_ON for 10 ms: the supply reset ends and start-up begins (R507, R518). -/
def execVinValid (s : State) : Host.Outcome State Fault Refusal :=
  .next (
    if s.power.vin && s.reached (s.power.vinOnAt.map (· + 10 * ticksPerMs)) then
      let s := s.setPower { s.power with supplyReset := false, vinOnAt := none }
      if s.power.hubReset then s.releaseHub
      else if s.fld Reg.ST_STATUS F.ST_STATUS_PHASE = 0 then s.startUp
      else s
    else s)

/-- POR_AON: VIN and VBAT were both absent: power-on of every domain (R501, R511). -/
def execPorAon (s : State) : Host.Outcome State Fault Refusal := .next (s.aonReset.powerOnAll 0)

/-- PWR_CTRL is written: each bit of DOM_EN is decided on its own (R503). -/
def State.pwrCtrlWrite (s : State) (data : Word) : State :=
  let s := if data.getLsbD 8 then s.setFlag Reg.PWR_CTRL F.PWR_CTRL_REFUSED false else s
  [0, 1, 2, 3].foldl (fun s i => s.domWrite i (data.getLsbD i)) s

/-- PWR_CTRL_WRITE: each bit of DOM_EN is decided on its own (R503). -/
def execPwrCtrlWrite (data : Word) (s : State) : Host.Outcome State Fault Refusal :=
  .next (s.onBlk .power (fun s => s.pwrCtrlWrite data))

/-- DOMAIN_SUPPLY_FAULT: a domain's supply outside its limits (R504): PD_SAFE and PD_VAULT as R416 and R409 give, PD_HUB CHIP,
any other REGION in each region that holds one of its blocks. -/
def execDomainSupplyFault (dom : Fin 11) (s : State) : Host.Outcome State Fault Refusal :=
  .next (
    if !s.domUp dom.val then s
    else if dom.val = 1 then s.onBlk .selvedge (fun s => s.pairFault 0x12)
    else if dom.val = 3 then (if s.zeroSource 2 then s.zeroise 2 else s)
    else s.onBlk .power (fun s =>
      if dom.val = 2 then s.chip 0x24 0 0x07 else s.region 0x24 0 0x06 (domRegions dom.val)))

/-- The check of CK_RTC (R509): while it is missing RTC_LOST is set and the always-on counter counts from REFCLK. -/
def State.rtcChecked (s : State) (missing : Bool) : State :=
  if missing then
    let s := (s.setFlag Reg.CLK_STATUS F.CLK_STATUS_RTC_LOST true).note 0x24 0 0x05
    (s.setPower { s.power with rtcMissing := true }).aonSync
  else (s.setPower { s.power with rtcMissing := false }).aonSync

/-- FAULT shows that the clock in row c of R508 is in fault (R517). -/
def State.clockFlag (s : State) (c : Nat) : State :=
  s.onBlk .power (fun s => s.setBit Reg.CLK_STATUS F.CLK_STATUS_FAULT c true)

/-- CLOCK_FAULT: the clock in row c of R508 is in fault, and the response of that row follows (R509, R515). -/
def execClockFault (row : Fin 12) (s : State) : Host.Outcome State Fault Refusal :=
  .next (
    if row.val = 9 then (s.clockFlag 9).onBlk .selvedge (fun s => s.pairFault 0x11)
    else if row.val = 10 then
      let s := s.clockFlag 10
      if s.zeroSource 3 ∧ s.domUp 3 then s.zeroise 3 else s
    else s.onBlk .power (fun s =>
      if row.val = 11 then (s.setBit Reg.CLK_STATUS F.CLK_STATUS_FAULT 11 true).rtcChecked true
      else if !s.domUp (clockDomain row.val) then s
      else
        let s := (s.setBit Reg.CLK_STATUS F.CLK_STATUS_FAULT row.val true).line 0x24 0x02
        if row.val = 0 then s.chip 0x24 0 0x03
        else
          let s := if row.val = 8 ∧ s.up 0x00 then s.eachCh (fun s n => s.chFault n) else s
          s.region 0x24 0 0x02 (clockRegions row.val)))

/-- REFCLK_LOST: the PLLs run from BKOSC, LOCKED and LOCKING bases enter HOLDOVER, and CONTAIN code 0x04 is raised (R510, R515). -/
def execRefclkLost (s : State) : Host.Outcome State Fault Refusal :=
  .next (
    if !s.power.refclk || !s.power.vin then s
    else
      let s := s.setPower { s.power with refclk := false, refLostAt := some s.now }
      let s := if s.up 0x09 then [0, 1, 2, 3].foldl (fun s n => s.tbToHoldover n) s else s
      s.onBlk .power (fun s =>
        ((s.setFlag Reg.CLK_STATUS F.CLK_STATUS_REF_LOST true).setFlag Reg.CLK_STATUS F.CLK_STATUS_BKOSC true).contain
          0x24 0 0x04))

/-- REFCLK_RETURN: REFCLK is back and the PLLs have relocked: code 0x04 recovers, line 0x03 fires (R510, R515, R516). -/
def execRefclkReturn (s : State) : Host.Outcome State Fault Refusal :=
  .next (
    if s.power.refclk then s
    else
      let s := s.setPower { s.power with refclk := true, refLostAt := none }
      let s := (s.setFlag Reg.CLK_STATUS F.CLK_STATUS_REF_LOST false).setFlag Reg.CLK_STATUS F.CLK_STATUS_BKOSC false
      s.onBlk .power (fun s => (s.recovers 0x24 0x04).line 0x24 0x03))

/-- RTC_CHECK: the check of CK_RTC once per second (R509). -/
def execRtcCheck (missing : Bool) (s : State) : Host.Outcome State Fault Refusal :=
  .next (s.onBlk .power (fun s =>
    let s := s.setBit Reg.CLK_STATUS F.CLK_STATUS_FAULT 11 missing
    if missing ∧ s.power.rtcMissing then s else s.rtcChecked missing))

/-- RESET_PIN: RESET_N has been low for 1 µs: a hub reset that holds while the pin is low (R511). -/
def execResetPin (s : State) : Host.Outcome State Fault Refusal :=
  .next (
    if s.power.pinLow then s
    else
      let s := s.setPower { s.power with pinLow := true }
      if s.domUp 2 then s.assertHub 3 else s)

/-- RESET_PIN_RELEASE: RESET_N has been high for 1 ms (R511, R514). -/
def execResetPinRelease (s : State) : Host.Outcome State Fault Refusal :=
  .next (if s.power.pinLow then (s.setPower { s.power with pinLow := false }).releaseHub else s)

/-- The key of RST_CMD (R512). -/
def resetKey : BitVec 16 := 0xA55A

/-- RST_CMD_HUB: a hub reset, with the key only (R511, R512). -/
def execRstCmdHub (key : BitVec 16) (s : State) : Host.Outcome State Fault Refusal :=
  .next (s.onBlk .power (fun s => if key = resetKey then s.hubResetBy 5 else s))

/-- The commanded resets of the regions named: they need no UP and count for no window (R512). -/
def State.resetRegions (s : State) (regs : Nat) : State :=
  [0, 1, 2, 3].foldl (fun s r => if bitOf regs r && !(s.regRec r).inReset then orderRegionReset r true s else s) s

/-- RST_CMD_REGION: the resets of the regions named, with the key only (R512). -/
def execRstCmdRegion (key : BitVec 16) (regs : BitVec 4) (s : State) : Host.Outcome State Fault Refusal :=
  .next (s.onBlk .power (fun s => if key = resetKey then s.resetRegions regs.toNat else s))

/-- DEBUG_RESET: the debug port asks for a hub reset (R511). -/
def execDebugReset (s : State) : Host.Outcome State Fault Refusal :=
  .next (s.onBlk .debug (fun s => s.hubResetBy 6))

/-- VBAT_LOW: VBAT reads `mv` while VIN is present; below 2,500 mV sets VBAT_LOW, with NOTE code 0x08 (R515, R517). -/
def execVbatLow (mv : BitVec 12) (s : State) : Host.Outcome State Fault Refusal :=
  .next (s.onBlk .power (fun s =>
    if !s.power.vin then s
    else
      let s := s.setFld Reg.SUP_VBAT F.SUP_VBAT_MV mv.toNat
      if mv.toNat < 2500 ∧ !s.flag Reg.SUP_VBAT F.SUP_VBAT_VBAT_LOW then
        ((s.setFlag Reg.SUP_VBAT F.SUP_VBAT_VBAT_LOW true).note 0x24 0 0x08).line 0x24 0x01
      else s))

/-- VBAT_LOW_CLEAR: VBAT reads `mv`, and has read 2,550 mV or more for `ms` ms without a break: after 1 s VBAT_LOW clears
(R515, R517). -/
def execVbatLowClear (mv : BitVec 12) (ms : Nat) (s : State) : Host.Outcome State Fault Refusal :=
  .next (s.onBlk .power (fun s =>
    if s.power.vin ∧ 2550 ≤ mv.toNat ∧ 1000 ≤ ms then
      (s.setFld Reg.SUP_VBAT F.SUP_VBAT_MV mv.toNat).setFlag Reg.SUP_VBAT F.SUP_VBAT_VBAT_LOW false
    else s))

end Sys2Proof.Machine
end

