-- ==== Sys2Proof/Machine/StartOps.lean ====
section
/-!
DEFINITION. Machine/StartOps.lean: program images, banks, the safe talkative state and the management port (R79, R80, R144, R342,
R343, R419, R518 to R528).
-/
namespace Sys2Proof.Machine

/-! Phases (R531) -/

def phTest : Nat := 1
def phLoad : Nat := 2
def phApp : Nat := 3
def phSts : Nat := 4
def State.phase (s : State) : Nat := s.fld Reg.ST_STATUS F.ST_STATUS_PHASE
def State.setPhase (s : State) (p : Nat) : State := s.setFld Reg.ST_STATUS F.ST_STATUS_PHASE p

/-- The safe talkative state is entered for `cause`: STS_CAUSE keeps the lowest (R524). -/
def State.enterSts (s : State) (cause : Nat) : State :=
  let c := s.fld Reg.ST_STATUS F.ST_STATUS_STS_CAUSE
  (s.setFld Reg.ST_STATUS F.ST_STATUS_STS_CAUSE (if c = 0 then cause else min c cause)).setPhase phSts

/-- The field of a bank in ST_STATUS, and the fields of its rejection (R531). -/
def bankFld (b : Nat) : Fld := if b = 0 then F.ST_STATUS_BANK_A else F.ST_STATUS_BANK_B
def rejWhy (b : Nat) : Fld := if b = 0 then F.ST_REJ_WHY_A else F.ST_REJ_WHY_B
def rejIdx (b : Nat) : Fld := if b = 0 then F.ST_REJ_IDX_A else F.ST_REJ_IDX_B

/-! The image header at key `a` (R79) -/

def State.imgMagic (s : State) (a : Nat) : Bool := s.num a 4 = 0x315A4C4B
def State.imgFormat (s : State) (a : Nat) : Bool := s.num (a + 4) 2 = 1
def State.imgKind (s : State) (a : Nat) : Nat := s.num (a + 6) 1
def State.imgTarget (s : State) (a : Nat) : Nat := s.num (a + 7) 1
def State.imgItcm (s : State) (a : Nat) : Nat := s.num (a + 8) 4
def State.imgDtcm (s : State) (a : Nat) : Nat := s.num (a + 0xC) 4
def State.imgEntry (s : State) (a k : Nat) : Nat := s.num (a + 0x10 + 4 * k) 4
def State.imgRollback (s : State) (a : Nat) : Nat := s.num (a + 0x20) 4
def State.imgSeq (s : State) (a : Nat) : Nat := s.num (a + 0x24) 4
def State.imgSlot (s : State) (a : Nat) : Nat := s.num (a + 0x28) 1
def State.imgDigest (s : State) (a : Nat) : List Byte := s.bytes (a + 0x40) 48
def State.imgCode (s : State) (a : Nat) : List Byte := s.bytes (a + 0xD0) (s.imgItcm a)
def State.imgData (s : State) (a : Nat) : List Byte := s.bytes (a + 0xD0 + s.imgItcm a) (s.imgDtcm a)
/-- Bytes 0x00 to 0x3F and the payload. -/
def State.imgSigned (s : State) (a : Nat) : List Byte := s.bytes a 0x40 ++ s.imgCode a ++ s.imgData a

/-- ENTRY[k] starts its context. -/
def entryDefined (e : Nat) : Bool := e ≠ 0xFFFFFFFF

/-- The offsets of the images of bank b: packed from its start, each aligned to 4 KiB (R79). -/
def State.imagesFrom (s : State) (b : Nat) : Nat → Nat → List Nat
  | 0, _ => []
  | n + 1, off =>
    let a := flashBase b + off
    if off + 0xD0 ≤ flashSize ∧ s.imgMagic a then
      a :: s.imagesFrom b n ((off + 0xD0 + s.imgItcm a + s.imgDtcm a + 0xFFF) / 0x1000 * 0x1000)
    else []

def State.images (s : State) (b : Nat) : List Nat := s.imagesFrom b (flashSize / 0x1000) 0

/-- A bank whose first header has a matching MAGIC and FORMAT (R520). -/
def State.candidate (s : State) (b : Nat) : Bool := s.imgMagic (flashBase b) && s.imgFormat (flashBase b)

/-- SEQUENCE of a bank, 0 for one that is no candidate (R531). -/
def State.bankSeq (s : State) (b : Nat) : Nat := if s.candidate b then s.imgSeq (flashBase b) else 0

/-- The banks in the order in which they are tried (R520). -/
def State.bankOrder (s : State) : List Nat :=
  let l := if s.flag Reg.ST_TRY F.ST_TRY_EN then
      (if s.flag Reg.ST_TRY F.ST_TRY_BANK then [1, 0] else [0, 1])
    else if s.bankSeq 0 < s.bankSeq 1 then [1, 0] else [0, 1]
  l.filter (fun b => s.candidate b)

/-! Verification (R80, R144, R342, R419, R521) -/

/-- The lengths fit the target. -/
def State.imgFits (s : State) (b a : Nat) : Bool :=
  let i := s.imgItcm a
  let d := s.imgDtcm a
  let k := s.imgKind a
  i % 4 = 0 && d % 4 = 0 && a - flashBase b + 0xD0 + i + d ≤ flashSize &&
    (if k = 1 then i ≤ 65536 && d ≤ 32768
     else if k = 2 then i % 8 = 0 && i ≤ 4096 && (d = 0 || d = 2048 || d = 4096) &&
       [0, 1, 2, 3].all (fun e => !entryDefined (s.imgEntry a e))
     else if k = 3 then i ≤ 98304 && d ≤ 32768
     else i ≤ 32768 && 512 ≤ d && d ≤ 16384)

/-- TARGET is one that the kind has (R79). -/
def State.imgTargetOk (s : State) (a : Nat) : Bool :=
  let t := s.imgTarget a
  if s.imgKind a = 1 then true else if s.imgKind a = 2 then t < 16 else t = 1

/-- The signature verifies with the key of KEY_SLOT, whose policy covers the kind and the image loader (R80, R342, R400). -/
def State.imgVerifies (s : State) (a : Nat) : Bool :=
  match s.usable (s.imgSlot a) (if s.imgKind a = 3 then 7 else 6) userLoader (fun g => g = 0x22) with
  | some k => Config.verifies true k.pub (s.imgDigest a) (s.bytes (a + 0x70) 96)
  | none => false

/-- The check value of a metrology image (R343): bytes 0 to 3 of a SHA-256, byte 0 most significant. -/
def State.imgCheck (s : State) (a : Nat) : Nat := beNat ((sha256 (s.imgSigned a)).take 4)

/-- The new value in the last software-change entry of the logbook (R342, R355). -/
def State.lastCheck (s : State) : Option Nat :=
  match (List.range s.ledger.entries).reverse.find? (fun n => s.num (mramBase + mramLog + 64 * n) 1 = 0x02) with
  | some n => some (s.num (mramBase + mramLog + 64 * n + 32) 4)
  | none => none

/-- A software change is accepted: LEGAL_UPD counts as high and the logbook has room (R342, R356). -/
def State.changeAllowed (s : State) (a : Nat) : Bool :=
  s.lastCheck = some (s.imgCheck a) || (s.flag Reg.MET_STATUS F.MET_STATUS_UPD && s.logHas 1)

/-- Why an image is rejected, 0 where it is not (R80, R531): the first reason that holds. -/
def State.imgWhy (s : State) (b a : Nat) : Nat :=
  if !s.imgFormat a || s.imgKind a = 0 || 4 < s.imgKind a then 1
  else if s.num (a + 0x29) 23 ≠ 0 then 2
  else if !s.imgFits b a then 3
  else if (List.range 48).map (Config.shaByte true (s.imgSigned a)) ≠ s.imgDigest a then 4
  else if 4 ≤ s.imgSlot a then 7
  else if !s.imgVerifies a then 5
  else if s.imgRollback a < s.fld Reg.ST_RB F.ST_RB_COUNT then 6
  else if s.imgKind a = 3 && !s.changeAllowed a then 8
  else if !s.imgTargetOk a then 9
  else if s.imgSeq a ≠ s.imgSeq (flashBase b) then 10
  else 0

/-- An image sets a TARGET bit that an earlier image of its kind has set (R521). -/
def State.imgClash (s : State) (earlier : List Nat) (a : Nat) : Bool :=
  earlier.any (fun e => s.imgKind e = s.imgKind a && s.imgTarget e &&& s.imgTarget a ≠ 0)

/-- The index and the reason of the first image that is rejected. -/
def State.firstReject (s : State) (b : Nat) : List Nat → List Nat → Option (Nat × Nat)
  | _, [] => none
  | seen, a :: t =>
    let why := if s.imgWhy b a ≠ 0 then s.imgWhy b a else if s.imgClash seen a then 9 else 0
    if why ≠ 0 then some (seen.length, why) else s.firstReject b (seen ++ [a]) t

/-- What rejects bank b (R521), if anything does: an image, or the lack of a Weft-S image or of one for WS[0]. -/
def State.bankReject (s : State) (b : Nat) : Option (Nat × Nat) :=
  let l := s.images b
  match s.firstReject b [] l with
  | some r => some r
  | none =>
    if l.any (fun a => s.imgKind a = 4) && l.any (fun a => s.imgKind a = 1 && bitOf (s.imgTarget a) 0) then none
    else some (l.length, 11)

/-! Loading (R144, R343, R419, R423, R522) -/

/-- ENTRY[k] of a context outside WS[0..7]; those defined run (R67). -/
def State.startImage (s : State) (first a : Nat) : State :=
  [0, 1, 2, 3].foldl (fun s k =>
    let e := s.imgEntry a k
    if entryDefined e then
      let t := Tab.set (fun _ => 0x60000000) s.weft.entry (first + k) (BitVec.ofNat 32 (0x60000000 + e))
      (s.setWeft { s.weft with entry := t }).startCtx (first + k)
    else s) s

/-- A Weft-S image loads while none has been loaded since the power-on of PD_SAFE (R419, R423). -/
def State.loadPair (s : State) (a : Nat) : State :=
  if s.sfsState ≠ 0 || !s.domUp 1 then s
  else
    let s := (s.writeBlock pairItcm (s.imgCode a)).writeBlock pairDtcm (s.imgData a)
    (s.safetyLoaded (BitVec.ofNat 32 (beNat ((s.imgDigest a).take 4)))).startImage 36 a

/-- A metrology image loads while none has been loaded since the power-on of PD_LEDGER (R343); a new check value is a software
change (R355). -/
def State.loadMetro (s : State) (a : Nat) : State :=
  if s.ledger.image || !s.domUp 4 then s
  else
    let chk := s.imgCheck a
    let old := s.lastCheck
    let s := (s.writeBlock metroItcm (s.imgCode a)).writeBlock metroDtcm (s.imgData a)
    let s := s.wrNat Reg.MET_CHECK chk
    let s := s.setLedger { s.ledger with image := true, codeLen := s.imgItcm a, digest := sha256 (s.imgCode a),
                                         imageAt := s.now }
    let s := if old = some chk then s else s.logEntry 0x02 0xFF (leBytes 4 (old.getD 0) ++ leBytes 4 chk)
    s.startImage 32 a

/-- Engine e takes a Twill image (R144). -/
def State.loadEngine (s : State) (a e : Nat) : State :=
  let word := fun (off : Nat) => s.num (a + 0xD0 + off) 4
  let i := s.imgItcm a
  let d := s.imgDtcm a
  let s := (List.range (i / 8)).foldl (fun s k =>
    (s.wrNat (Reg.TW_PROG_LO e k) (word (8 * k))).wrNat (Reg.TW_PROG_HI e k) (word (8 * k + 4))) s
  let s := (List.range (min d 2048 / 8)).foldl (fun s k =>
    let s := s.wrNat (Reg.TW_COEF_VAL e k) (word (i + 8 * k))
    let s := s.wrNat (Reg.TW_COEF_SHIFT e k) (word (i + 8 * k + 4) % 32)
    (s.commit (Reg.TW_COEF_VAL e k)).commit (Reg.TW_COEF_SHIFT e k)) s
  (List.range ((d - 2048) / 4)).foldl (fun s k => s.wrNat (Reg.TW_M e k) (word (i + 2048 + 4 * k))) s

def State.loadTwill (s : State) (a : Nat) : State :=
  if !s.up 0x01 then s
  else [0, 1, 2, 3].foldl (fun s e => if bitOf (s.imgTarget a) e then s.loadEngine a e else s) s

/-- WS[n] takes an image; its contexts with an ENTRY start with the application (R67, R523). -/
def State.loadSeq (s : State) (a n : Nat) : State :=
  let s := (s.writeBlock (tcmWindow n) (s.imgCode a)).writeBlock (tcmWindow n + 0x10000) (s.imgData a)
  [0, 1, 2, 3].foldl (fun s k =>
    let e := s.imgEntry a k
    if entryDefined e then
      (s.wrNat (Reg.WSC_ENTRY n k) (0x60000000 + e)).setStartup
        { s.startup with toStart := s.startup.toStart ++ [CtxKey n k] }
    else s) s

def State.loadWs (s : State) (a : Nat) : State :=
  (List.range 8).foldl (fun s n => if bitOf (s.imgTarget a) n then s.loadSeq a n else s) s

/-- The images of bank b load in the order Weft-S, metrology, Twill, WS (R522); the bank is the active bank. -/
def State.loadBank (s : State) (b : Nat) : State :=
  let l := s.images b
  let of := fun (k : Nat) => l.filter (fun a => s.imgKind a = k)
  let low := (l.map (fun a => s.imgRollback a)).foldl min (2 ^ 32)
  let s := (of 4).foldl (fun s a => s.loadPair a) s
  let s := (of 3).foldl (fun s a => s.loadMetro a) s
  let s := (of 2).foldl (fun s a => s.loadTwill a) s
  let s := (of 1).foldl (fun s a => s.loadWs a) s
  (s.setFlag Reg.ST_STATUS F.ST_STATUS_ACTIVE (b = 1)).setStartup
    { s.startup with bank := some b, lowRollback := low }

/-- Bank b is verified (R521): its result, and where it is rejected the reason, the image and NOTE code 0x04 (R530). In the
safe talkative state nothing of it is loaded (R525). -/
def State.tryBank (s : State) (b : Nat) : State :=
  let s := s.setStartup { s.startup with tried := s.startup.tried ++ [b] }
  match s.bankReject b with
  | none =>
    let s := s.setFld Reg.ST_STATUS (bankFld b) 1
    if s.phase = phLoad then s.loadBank b else s
  | some (idx, why) =>
    let s := s.setFld Reg.ST_STATUS (bankFld b) 2
    let s := ((s.setFld Reg.ST_REJ (rejIdx b) idx).setFld Reg.ST_REJ (rejWhy b) why).note 0x25 0 0x04
    if s.phase = phLoad && (s.bankOrder.filter (fun x => !s.startup.tried.contains x)).isEmpty then s.enterSts 3 else s

/-! The channels that a start-up test finds at fault (R519) -/

/-- The channels of an Ethernet port or of the modem's memories raise CONTAIN; the spec gives no code. -/
def State.testContain (s : State) (blk cell : Nat) : State := (s.took).contain blk cell (s.freeNat % 256)

/-- Each port, channel or unit that test 10 or 11 names raises CONTAIN in its block, and start-up continues (R519): a PHY, a
load switch that is on and the thermal reference as their own checks do. -/
def State.testCells (s : State) (link guard : Bool) (c : TestCells) : State :=
  let s := if link && s.up 0x08 then
      [0, 1].foldl (fun (s : State) p => if c.eth.getLsbD p then s.testContain 0x08 p else s) s else s
  let s := if link && s.up 0x0A then
      (List.range 8).foldl (fun (s : State) n => if c.t1s.getLsbD n then s.t1sFails n else s) s else s
  let s := if link && c.plc && s.up 0x0B then s.testContain 0x0B 0 else s
  let s := if guard && s.up 0x1A then
      (List.range 16).foldl (fun (s : State) n => if c.hs.getLsbD n then s.hsMismatched n else s) s else s
  if guard && c.ref && s.up 0x19 then s.refFails else s

/-! Root slots (R399) -/

/-- The root slots receive the keys that match the fuses, with the policies recorded there. -/
def State.loadRoots (s : State) : State :=
  if !s.domUp 3 then s
  else
    [0, 1, 2, 3].foldl (fun s n =>
      (s.drew 97).setSlot n (some (maskedKey 0x22 (Config.rootUse n) (Config.rootUsers n)
        ((List.range 97).map (Config.rootByte n)) (s.randomBytes 97)))) s

/-! The event-store window (R357, R391) -/

/-- Where the entry `idx` of `area` lies in the MRAM, and its length; none where the area has no such entry. -/
def evsEntry (area idx : Nat) : Option (Nat × Nat) :=
  if area = 0 then (if idx < 8192 then some (mramLog + 64 * idx, 64) else none)
  else if area = 1 then (if idx < 4096 then some (mramReadings + 256 * idx, 256) else none)
  else if area = 2 then (if idx < 32768 then some (mramGeneral + 32 * idx, 32) else none)
  else if idx < 0x800 then some (mramTariff + 256 * idx, 256)
  else if 0x1000 ≤ idx ∧ idx < 0x2C00 then some (mramDemand + 64 * (idx - 0x1000), 64)
  else none

/-- The first `n` bytes of the window for an entry: what lies beyond it reads 0. -/
def State.evsBytes (s : State) (area idx n : Nat) : List Byte :=
  match evsEntry area idx with
  | some (off, len) => padTo n (s.mramBytes off (min n len))
  | none => List.replicate n 0

/-! The management port (R526, R527) -/

/-- A reply: CMD + 0x80, the SEQ of the request, STATUS and the payload. -/
def State.reply (s : State) (cmd seq status : Nat) (payload : List Byte) : State :=
  s.emit (.mgmt (cmd + 0x80) seq status payload)

def mgDone : Nat := 0
def mgDenied : Nat := 2
def mgBadArg : Nat := 3

/-- The port answers in the safe talkative state, where the PHYs have supply. -/
def State.onMgmt (s : State) (f : State → State) : State :=
  if s.up 0x25 && s.up 0x08 && s.phase = phSts then f s else s

/-- The four bytes of a register. -/
def State.regBytes (s : State) (a : Nat) : List Byte := leBytes 4 (s.rd a).toNat

/-- Write access is granted, for 60 s from the last authorised command (R527). -/
def State.grantWrite (s : State) : State :=
  (s.setFlag Reg.ST_MGMT F.ST_MGMT_AUTH true).setStartup { s.startup with authUntil := some (s.now + 60 * ticksPerS) }

/-- A command that needs AUTH: refused without it; with it the 60 s start again. -/
def State.authorised (s : State) (cmd seq : Nat) (f : State → State) : State :=
  s.onMgmt (fun s =>
    if s.flag Reg.ST_MGMT F.ST_MGMT_AUTH && !s.reached s.startup.authUntil then f s.grantWrite
    else s.reply cmd seq mgDenied [])

end Sys2Proof.Machine
end

