-- ==== Sys2Proof/Machine/StartCommands.lean ====
section
/-!
DEFINITION. Machine/StartCommands.lean: start-up and the management port as commands (R519 to R528).
-/
namespace Sys2Proof.Machine

/-- SELF_TEST_COMPLETE: `fail` is the set of failed tests of R519, `cells` what the tests 10 and 11 name. The memories whose test has passed hold 0, and the
contents of the others are undefined (R553); the root slots are loaded; a failure has the response of the table; the causes 0x01 and 0x02 enter the safe talkative state (R524). -/
def execSelfTestComplete (fail : BitVec 12) (cells : TestCells) (s : State) : Host.Outcome State Fault Refusal :=
  .next (s.onBlk .selfTest (fun s =>
    if s.phase ≠ phTest then s
    else
      let s := (s.wipe sramBase (sramBase + sramSize)).wipe (tcmWindow 0) (tcmWindow 8)
      let s := s.setEcc { s.ecc with sramUndef := fail.getLsbD 1, tcmUndef := fail.getLsbD 2 }
      let s := s.setFld Reg.ST_RESULT F.ST_RESULT_FAIL fail.toNat
      let s := (List.range 12).foldl (fun (s : State) i => if fail.getLsbD i then s.note 0x25 0 0x02 else s) s
      let s := if fail.getLsbD 4 || !s.domUp 3 then s
        else (s.setFlag Reg.KS_STATUS F.KS_STATUS_DRBG_OK true).line 0x13 0x03
      let s := s.loadRoots
      let s := (s.wrNat Reg.ST_SEQ_A (s.bankSeq 0)).wrNat Reg.ST_SEQ_B (s.bankSeq 1)
      let s := [0, 1].foldl (fun (s : State) b =>
        if s.candidate b then s else s.setFld Reg.ST_STATUS (bankFld b) 3) s
      let s := if fail.getLsbD 9 && s.domUp 4 then s.metStop 0x05 else s
      let s := s.testCells (fail.getLsbD 10) (fail.getLsbD 11) cells
      let s := if s.fld Reg.RST_LAST F.RST_LAST_CODE = 4 then s.enterSts 1
        else if fail.toNat % 256 ≠ 0 then s.enterSts 2
        else s.setPhase phLoad
      if fail.getLsbD 8 && s.domUp 1 then s.pairFault 0x16 else s))

/-- BANK_LOAD: the first bank in the order of R520 is verified, or after its rejection the second; ST_TRY.EN clears as it is
read. Without a candidate no bank is accepted (R524). -/
def execBankLoad (second : Bool) (s : State) : Host.Outcome State Fault Refusal :=
  .next (s.onBlk .selfTest (fun s =>
    if (s.phase ≠ phLoad ∧ s.phase ≠ phSts) ∨ s.startup.bank.isSome then s
    else if !second ∧ s.startup.tried = [] then
      let order := s.bankOrder
      let s := s.setFlag Reg.ST_TRY F.ST_TRY_EN false
      match order with
      | b :: _ => s.tryBank b
      | [] => if s.phase = phLoad then s.enterSts 3 else s
    else if second ∧ s.startup.tried.length = 1 then
      match s.bankOrder.filter (fun b => !s.startup.tried.contains b) with
      | b :: _ =>
        if s.startup.tried.all (fun t => s.fld Reg.ST_STATUS (bankFld t) = 2) then s.tryBank b else s
      | [] => s
    else s))

/-- APPLICATION_START: the contexts with an ENTRY start together, metering starts, and the reset notification and the reset
behaviour of the load switches end (R362, R523). -/
def execApplicationStart (s : State) : Host.Outcome State Fault Refusal :=
  .next (s.onBlk .selfTest (fun s =>
    if s.phase = phLoad ∧ s.startup.bank.isSome then
      let l := s.startup.toStart
      let ms := match s.startup.validAt with | some t => (s.now - t) / ticksPerMs | none => 0
      let s := (s.setPhase phApp).setFld Reg.ST_TIME F.ST_TIME_VAL ms
      let s := s.setStartup { s.startup with toStart := [], booting := false }
      let s := l.foldl (fun (s : State) k => if (s.ctx k).run = .stopped then s.startCtx k else s) s
      let s := if s.ledger.image && s.ledger.stateOk && !s.ledger.down && s.fld Reg.ST_RESULT F.ST_RESULT_FAIL / 512 % 2 = 0
        then s.metStart else s
      s.pinsMove
    else s))

/-- The anti-rollback count rises to the lowest ROLLBACK of the active bank, up to 127 (R522). -/
def State.rollbackRaise (s : State) : State :=
  if s.startup.bank.isSome then
    s.setFld Reg.ST_RB F.ST_RB_COUNT (max (s.fld Reg.ST_RB F.ST_RB_COUNT) (min 127 s.startup.lowRollback))
  else s

/-- ST_RB_RAISE: the anti-rollback count rises to the lowest ROLLBACK of the active bank, up to 127 (R522). -/
def execStRbRaise (s : State) : Host.Outcome State Fault Refusal :=
  .next (s.onBlk .selfTest (fun s => s.rollbackRaise))

/-- MGMT_STATUS: the reply carries the state of start-up, the records and a new nonce (R526). -/
def execMgmtStatus (seq : Byte) (s : State) : Host.Outcome State Fault Refusal :=
  .next (s.onMgmt (fun s =>
    let nonce := s.randomBytes 16
    let s := (s.drew 16).setStartup { s.startup with nonce := some nonce }
    s.reply 0x01 seq.toNat mgDone
      (serial ++ leBytes 1 (s.fld Reg.ST_STATUS F.ST_STATUS_STS_CAUSE) ++
        [Reg.ST_RESULT, Reg.ST_REJ, Reg.ST_SEQ_A, Reg.ST_SEQ_B, Reg.ERR_CHIP_STATUS, Reg.ERR_CHIP_CAUSE, Reg.ERR_CHIP_TIME_S,
          Reg.ERR_CHIP_TIME_NS, Reg.RST_CAUSE, Reg.RST_LAST, Reg.MET_CHECK, Reg.SFS_CHK, Reg.SFS_CONF_CHK].flatMap
          (fun a => s.regBytes a) ++ nonce)))

/-- MGMT_READ_LOG: the 64 bytes of an entry of the event store (R526). -/
def execMgmtReadLog (seq area : Byte) (idx : BitVec 16) (s : State) : Host.Outcome State Fault Refusal :=
  .next (s.onMgmt (fun s =>
    if 3 < area.toNat || (evsEntry area.toNat idx.toNat).isNone || !s.up 0x12 then s.reply 0x02 seq.toNat mgBadArg []
    else s.reply 0x02 seq.toNat mgDone (s.evsBytes area.toNat idx.toNat 64)))

/-- MGMT_AUTH: a signature of the nonce of the last STATUS reply and the serial, by a root slot with USE IMAGE, grants write
access, and the nonce is accepted once; a refusal counts and raises NOTE code 0x03 (R527, R530). -/
def execMgmtAuth (seq slot : Byte) (sig : List Byte) (s : State) : Host.Outcome State Fault Refusal :=
  .next (s.onMgmt (fun s =>
    let ok := match s.startup.nonce, s.slot slot.toNat with
      | some n, some k =>
        isRoot slot.toNat && s.domUp 3 && k.alg = 0x22 && bitOf k.use 6 &&
          Config.verifies true k.pub ((List.range 48).map (Config.shaByte true (n ++ serial))) sig
      | _, _ => false
    if ok then (s.setStartup { s.startup with nonce := none }).grantWrite.reply 0x03 seq.toNat mgDone []
    else ((s.bump Reg.ST_MGMT F.ST_MGMT_AUTH_FAIL).note 0x25 0 0x03).reply 0x03 seq.toNat mgDenied []))

/-- MGMT_AUTH_EXPIRY: 60 s without an authorised command end write access (R527). -/
def execMgmtAuthExpiry (s : State) : Host.Outcome State Fault Refusal :=
  .next (
    if s.reached s.startup.authUntil then
      (s.setFlag Reg.ST_MGMT F.ST_MGMT_AUTH false).setStartup { s.startup with authUntil := none }
    else s)

/-- MGMT_ERASE: every byte of the bank reads 0xFF (R526); the active bank is refused (R80, R529). -/
def execMgmtErase (seq bank : Byte) (s : State) : Host.Outcome State Fault Refusal :=
  .next (s.authorised 0x10 seq.toNat (fun s =>
    if 1 < bank.toNat ∨ s.startup.bank = some bank.toNat then s.reply 0x10 seq.toNat mgBadArg []
    else
      (s.wipe (flashBase bank.toNat) (flashBase bank.toNat + flashSize)).reply 0x10 seq.toNat mgDone []))

/-- MGMT_PROGRAM: up to 1,024 bytes at an offset aligned to 4 bytes (R526). -/
def execMgmtProgram (seq bank : Byte) (off : Word) (bytes : List Byte) (s : State) : Host.Outcome State Fault Refusal :=
  .next (s.authorised 0x11 seq.toNat (fun s =>
    if 1 < bank.toNat ∨ s.startup.bank = some bank.toNat ∨ off.toNat % 4 ≠ 0 ∨ 1024 < bytes.length ∨
        flashSize < off.toNat + bytes.length then s.reply 0x11 seq.toNat mgBadArg []
    else (s.putBytes (flashBase bank.toNat + off.toNat) bytes).reply 0x11 seq.toNat mgDone []))

/-- MGMT_RESTART: the reply, then a hub reset with cause SOFT_HUB (R526, R528). -/
def execMgmtRestart (seq : Byte) (s : State) : Host.Outcome State Fault Refusal :=
  .next (s.authorised 0x12 seq.toNat (fun s => (s.reply 0x12 seq.toNat mgDone []).hubResetBy 5))

end Sys2Proof.Machine
end

