-- ==== Sys2Proof/Machine/WeftSystem.lean ====
section
/-!
DEFINITION. Machine/WeftSystem.lean: the Weft instructions for events, time, mailboxes, control and system, and the events of
the contexts (R42, R51 to R60, R67 to R74, R81, R551).
-/
namespace Sys2Proof.Machine

/-- WAIT: an event of the mask that is pending is consumed at once; else the context waits (R51). -/
def execWait (c : CtxId) (d a b : Fin 32) (s : State) : Host.Outcome State Fault Refusal :=
  .next (weft c s (fun k s =>
    let x := s.ctx k
    match lowestIn (s.evtPending k) (x.reg a.val).toNat with
    | some n => (s.endWait k d.val n).haltIfDone k
    | none =>
      s.setCtx k { x with wait := some ⟨x.reg a.val, d.val, s.waitDue (engOf k) (x.reg b.val)⟩ }))

/-- The cycle limit of a WAIT expires: an event of the mask that is pending is returned, else 0xFFFF_FFFF (R51). It is
taken as the cycle of the expiry ends, so that an event of the mask in that cycle is returned. -/
def execWaitTimeout (c : CtxId) (s : State) : Host.Outcome State Fault Refusal :=
  .next (
    let k := ctxKey c
    let x := s.ctx k
    match x.wait with
    | some ws =>
      if x.run = .running && s.limitOver (engOf k) ws.due && s.up (engBlock (engOf k)) then
        match lowestIn (s.evtPending k) ws.mask.toNat with
        | some n => s.endWait k ws.dest n
        | none => s.goOn k ({ x with wait := none }.put ws.dest 0xFFFFFFFF)
      else s
    | none => s)

/-- TCMP arms the timer compare on a base, or disarms it; the forms of R41, R52 and R63 trap. -/
def execTcmp (c : CtxId) (dis : Bool) (tb : Fin 8) (a b : Fin 32) (s : State) : Host.Outcome State Fault Refusal :=
  .next (weft c s (fun k s =>
    let x := s.ctx k
    let w := wordR 0x2D (bit01 dis * 32 + tb.val) 0 b.val 0 a.val
    if !legalWord (engOf k) w then s.illegal k w
    else if dis then s.setCtx k { x with cmp := none }.advance
    else s.setCtx k { x with cmp := some ⟨tb.val, s.cmpArm tb.val (x.reg a.val) (x.reg b.val)⟩ }.advance))

/-- The base reaches or passes the armed time: TIMER occurs and the compare is spent (R52, R69). -/
def execTimerCompareMatch (c : CtxId) (s : State) : Host.Outcome State Fault Refusal :=
  .next (
    let k := ctxKey c
    match (s.ctx k).cmp with
    | some t =>
      if s.up (engBlock (engOf k)) && t.at_ ≤ s.cmpNow (engOf k) t.tb then
        (s.setCtx k { s.ctx k with cmp := none }).occurs k 0
      else s
    | none => s)

/-- TRD: one part of a time base; part 0 latches the others (R53). -/
def execTrd (c : CtxId) (d : Fin 32) (tb : Fin 8) (part : Fin 4) (s : State) : Host.Outcome State Fault Refusal :=
  .next (weft c s (fun k s =>
    let w := wordR 0x2E (part.val * 16 + tb.val) 0 0 d.val 0
    if !legalWord (engOf k) w then s.illegal k w
    else if part.val = 0 then
      let v := s.timePart (engOf k) tb.val 0
      let s := s.latchTime k tb.val
      s.setCtx k ((s.ctx k).put d.val (BitVec.ofNat 32 v)).advance
    else
      s.setCtx k ((s.ctx k).put d.val (Tab.get (fun _ => 0) (s.ctx k).latch (4 * tb.val + part.val))).advance))

/-- MSEND: w[d] is 0 where the word was sent, 1 where the mailbox is full (R42, R43, R72). -/
def execMsend (c : CtxId) (d a : Fin 32) (mb : Fin 256) (s : State) : Host.Outcome State Fault Refusal :=
  .next (weft c s (fun k s =>
    let w := wordI 0x30 mb.val d.val a.val
    if !legalWord (engOf k) w then s.illegal k w
    else
      let r := s.send k mb.val d.val ((s.ctx k).reg a.val)
      r.2.setCtx k ((r.2.ctx k).put d.val (BitVec.ofNat 32 (bit01 r.1))).advance))

/-- MRECV: the word and 1, or 0 where the mailbox holds none (R42, R43, R72). -/
def execMrecv (c : CtxId) (d e : Fin 32) (mb : Fin 256) (s : State) : Host.Outcome State Fault Refusal :=
  .next (weft c s (fun k s =>
    let w := wordI 0x31 mb.val d.val e.val
    if !legalWord (engOf k) w then s.illegal k w
    else
      let r := s.receive k mb.val
      let x := r.2.ctx k
      r.2.setCtx k
        (match r.1 with
         | some v => ((x.put d.val v).put e.val 1).advance
         | none => (x.put e.val 0).advance)))

/-- CSRR: w[d] := CSR n (R42, R54, R70). -/
def execCsrr (c : CtxId) (d : Fin 32) (n : BitVec 12) (s : State) : Host.Outcome State Fault Refusal :=
  .next (csrOp c 0 d 0 n (fun t _ => t) s)

/-- CSRW: CSR n := w[a]; w[d] := its old value (R42, R54, R70). -/
def execCsrw (c : CtxId) (d a : Fin 32) (n : BitVec 12) (s : State) : Host.Outcome State Fault Refusal :=
  .next (csrOp c 1 d a n (fun _ v => v) s)

/-- CSRS: CSR n := its value OR w[a] (R42, R54, R70). -/
def execCsrs (c : CtxId) (d a : Fin 32) (n : BitVec 12) (s : State) : Host.Outcome State Fault Refusal :=
  .next (csrOp c 2 d a n (fun t v => t ||| v) s)

/-- CSRC: CSR n := its value AND NOT w[a] (R42, R54, R70). -/
def execCsrc (c : CtxId) (d a : Fin 32) (n : BitVec 12) (s : State) : Host.Outcome State Fault Refusal :=
  .next (csrOp c 3 d a n (fun t v => t &&& ~~~v) s)

/-- BAR: the context goes on once every fabric transaction of its own has completed (R42, R44). -/
def execBar (c : CtxId) (s : State) : Host.Outcome State Fault Refusal :=
  .next (weft c s (fun k s =>
    if s.hasAccess k then s.setCtx k { s.ctx k with stall := .bar } else s.goOn k (s.ctx k)))

/-- TRAP: a trap with cause TRAP; EPC is the next instruction (R42, R56). -/
def execTrap (c : CtxId) (imm : BitVec 16) (s : State) : Host.Outcome State Fault Refusal :=
  .next (weft c s (fun k s => s.takeTrap k causeTrap (zextImm imm) ((s.ctx k).pc + 4) false))

/-- BRK: debug halt on a claimed sequencer, with PC at the next instruction; else a trap with cause BRK (R60, R81). Weft-S
has none (R63). -/
def execBrk (c : CtxId) (s : State) : Host.Outcome State Fault Refusal :=
  .next (weft c s (fun k s =>
    if engOf k = 9 then s.illegal k (wordI 0x3A 0 0 0)
    else if k < 32 && Tab.get (fun _ => false) s.weft.claim (engOf k) then
      (s.setHalt k true).goOn k (s.ctx k)
    else s.takeTrap k causeBrk 0 ((s.ctx k).pc + 4) false))

/-- ERET: PC := EPC; STATUS.IN_TRAP := 0; a bus error that waits is taken there (R42, R58). -/
def execEret (c : CtxId) (s : State) : Host.Outcome State Fault Refusal :=
  .next (weft c s (fun k s =>
    let x := s.ctx k
    ((s.setCtx k { x with pc := x.epc, status := x.status &&& ~~~(0x100 : Word) }).boundary k).haltIfDone k))

/-- A word that is no instruction of the engine: trap ILLEGAL (R41, R56). -/
def execIllegalInstruction (c : CtxId) (w : Word) (s : State) : Host.Outcome State Fault Refusal :=
  if legalWord c.eng.val w then .fault .illFormed else .next (weft c s (fun k s => s.illegal k w))

/-- SCALL: the argument block of ten words is checked, then an unlisted function answers BAD_FUNC, and a listed one waits for the key
store (R43, R405, R406). -/
def execScall (c : CtxId) (d a : Fin 32) (f : BitVec 12) (s : State) : Host.Outcome State Fault Refusal :=
  .next (weft c s (fun k s =>
    let x := s.ctx k
    let blk := x.reg a.val
    if engOf k = 9 then s.illegal k (wordI 0x35 f.toNat d.val a.val)
    else if blk.toNat % 4 ≠ 0 then s.trapHere k causeMisalign blk
    else if !inSram blk.toNat then s.trapHere k causeAccess blk
    else
      let r := s.readBlock (engSlot (engOf k)) blk.toNat 40
      if !r.1 then r.2.trapHere k causeBusLoad blk
      else if (ksEngine f.toNat).isNone then
        r.2.goOn k ((r.2.ctx k).put d.val (BitVec.ofNat 32 ksBadFunc))
      else
        (r.2.setKs { r.2.ks with reqs := r.2.ks.reqs ++ [⟨k, f.toNat, blk, s.now⟩] }).setCtx k
          { r.2.ctx k with stall := .scall d.val }))

/-- CTX_CTRL.START[k]: a STOPPED context runs from its ENTRY (R67). -/
def execCtxStart (ws : Fin 8) (k : Fin 4) (s : State) : Host.Outcome State Fault Refusal :=
  .next (
    let key := CtxKey ws.val k.val
    if s.up 0x20 && (s.ctx key).run = .stopped then (s.startCtx key).haltIfDone key else s)

/-- CTX_CTRL.RESTART[k]: from any state (R67). -/
def execCtxRestart (ws : Fin 8) (k : Fin 4) (s : State) : Host.Outcome State Fault Refusal :=
  .next (if s.up 0x20 then s.restart (CtxKey ws.val k.val) else s)

/-- A watchdog expires: the context restarts, WDOG[k] is set and NOTE code 0x04 is raised (R68). -/
def execCtxWatchdogExpiry (c : CtxId) (s : State) : Host.Outcome State Fault Refusal :=
  .next (
    let k := ctxKey c
    if s.up (engBlock (engOf k)) && s.reached (s.ctx k).wdtDue then
      let s := (s.setCtx k { s.ctx k with wdtDue := none }).restart k
      let s := if k < 32 then s.setBit (Reg.WSC_CTX_STATE (engOf k)) F.WSC_CTX_STATE_WDOG (k % 4) true else s
      s.note 0x20 (engOf k) 0x04
    else s)

/-- CTX_CTRL.HALT[k] := 1: effective while the sequencer is claimed (R81, R82). -/
def execCtxHalt (ws : Fin 8) (k : Fin 4) (s : State) : Host.Outcome State Fault Refusal :=
  .next (
    let key := CtxKey ws.val k.val
    if s.up 0x20 then (s.setHalt key true).haltIfDone key else s)

/-- CTX_CTRL.HALT[k] := 0: the context in debug halt resumes (R81). -/
def execCtxResume (ws : Fin 8) (k : Fin 4) (s : State) : Host.Outcome State Fault Refusal :=
  .next (
    let key := CtxKey ws.val k.val
    if s.up 0x20 then (s.setHalt key false).unhalt key else s)

/-- The debugger claims WS[n]: HALT bits that are set take effect (R81). -/
def execDebugClaim (ws : Fin 8) (s : State) : Host.Outcome State Fault Refusal :=
  .next (
    if s.up 0x27 then
      (s.setWeft { s.weft with claim := Tab.set (fun _ => false) s.weft.claim ws.val true }).haltsSync ws.val
    else s)

/-- The debugger releases WS[n]: its contexts in debug halt resume (R81). -/
def execDebugRelease (ws : Fin 8) (s : State) : Host.Outcome State Fault Refusal :=
  .next (
    if s.up 0x27 then
      (s.setWeft { s.weft with claim := Tab.set (fun _ => false) s.weft.claim ws.val false }).haltsSync ws.val
    else s)

/-- A copy of a routed event reaches its context (R70). -/
def execEventPending (c : CtxId) (n : Fin 32) (s : State) : Host.Outcome State Fault Refusal :=
  .next (
    let e := (ctxKey c, n.val)
    if s.weft.flying.contains e then
      let s := s.setWeft { s.weft with flying := s.weft.flying.erase e }
      if s.up (engBlock (engOf e.1)) then s.occurs e.1 e.2 else s
    else s)

/-- The oldest word on its way to mailbox m becomes readable, and MAIL is pending at its owner (R73). -/
def execMailboxDelivery (m : Fin 64) (s : State) : Host.Outcome State Fault Refusal :=
  .next (
    match s.weft.mbxFly.find? (fun e => e.mbx = m.val) with
    | some e =>
      let s := (s.setWeft { s.weft with mbxFly := s.weft.mbxFly.erase e }).setMbox m.val (s.mbox m.val ++ [e.word])
      s.wake (s.mboxOwner m.val)
    | none => s)

/-- A write of MBX_CFG[m] (R74). -/
def execMailboxConfig (m : Fin 64) (data : Word) (s : State) : Host.Outcome State Fault Refusal :=
  .next (if s.up 0x20 then s.mboxWrite m.val data else s)

/-- A corrected word is written back when its memory is free (R551). -/
def execEccWriteback (addr : Word) (s : State) : Host.Outcome State Fault Refusal :=
  .next (if s.ecc.back.contains (wordOf addr.toNat) then s.mendWord addr.toNat else s)

end Sys2Proof.Machine
end

