-- ==== Sys2Proof/Machine/WriteHub.lean ====
section
/-!
DEFINITION. Machine/WriteHub.lean: fabric writes of the registers of the hub: supplies, clocks and resets, start-up, the error
ladder, the fabric root, mailboxes and contexts (R34, R67, R74, R82, R516, R530). Each function takes the address of a
register that exists, that no lock closes, and the word written.
-/
namespace Sys2Proof.Machine

/-- A register of the power unit. -/
def State.powerWrite (s : State) (a : Nat) (v : Word) : State :=
  if a = Reg.PWR_CTRL then s.pwrCtrlWrite v
  else if a = Reg.RST_CMD then
    if BitVec.ofNat 16 (F.RST_CMD_KEY.get v) = resetKey then
      let s := s.resetRegions (F.RST_CMD_REG.get v)
      if F.RST_CMD_HUB.get v = 1 then s.hubResetBy 5 else s
    else s
  else s.wrAccess a v

/-- A register of start-up. -/
def State.startWrite (s : State) (a : Nat) (v : Word) : State :=
  if a = Reg.ST_RB then (if F.ST_RB_RAISE.get v = 1 then s.rollbackRaise else s) else s.wrAccess a v

/-- A register of the ladder's records: 0b111 in GRADE clears a record, ACK a CONTAIN, UP a region (R24, R34). -/
def State.ladderWrite (s : State) (a : Nat) (v : Word) : State :=
  let o := a % 0x20
  if 0x50201000 ≤ a ∧ o = 0x18 then s.blkCfgWrite ((a - 0x50201000) / 0x20) v
  else
  let s := s.wrAccess a v
  if a = Reg.ERR_CHIP_STATUS then (if v.toNat % 8 = 7 then s.clearChipRec else s)
  else if 0x50200100 ≤ a ∧ a < 0x50200180 then
    let r := (a - 0x50200100) / 0x20
    if o = 0 ∧ v.toNat % 8 = 7 then s.clearRegRec r
    else if o = 0x14 ∧ v.getLsbD 0 then s.regionUp r
    else s
  else if 0x50201000 ≤ a then
    let b := (a - 0x50201000) / 0x20
    if o = 0 ∧ v.toNat % 8 = 7 then s.clearBlkRec b
    else if o = 0x1C ∧ v.getLsbD 0 then s.errAck b
    else s
  else s

/-- CTX_CTRL of WS[n]: HALT, then START and RESTART of each context (R67, R81, R82). -/
def State.ctxCtrlWrite (s : State) (n : Nat) (v : Word) : State :=
  [0, 1, 2, 3].foldl (fun s j =>
    let k := CtxKey n j
    let was := bitOf (s.fld (Reg.WSC_CTX_CTRL n) F.WSC_CTX_CTRL_HALT) j
    let want := bitOf (F.WSC_CTX_CTRL_HALT.get v) j
    let s := if want ∧ !was then (s.setHalt k true).haltIfDone k
      else if was ∧ !want then (s.setHalt k false).unhalt k else s
    let s := if bitOf (F.WSC_CTX_CTRL_START.get v) j ∧ (s.ctx k).run = .stopped then (s.startCtx k).haltIfDone k else s
    if bitOf (F.WSC_CTX_CTRL_RESTART.get v) j then s.restart k else s) s

/-- A write in the windows of the hub. -/
def State.hubWrite (s : State) (a : Nat) (v : Word) : State :=
  match a / 0x100000 with
  | 0x500 => s.powerWrite a v
  | 0x501 => s.startWrite a v
  | 0x502 => s.ladderWrite a v
  | 0x504 => s.mboxWrite ((a - Reg.MBX_CFG 0) / 4) v
  | _ => if a % 0x40 = 0 then s.ctxCtrlWrite ((a - 0x50500000) / 0x40) v else s.wrAccess a v

end Sys2Proof.Machine
end

