-- ==== Sys2Proof/Machine/KeyCommands.lean ====
section
/-!
DEFINITION. Machine/KeyCommands.lean: the commands of the key store (R396 to R414). Each function of R406 serves the call that
context `c` has waiting for it.
-/
namespace Sys2Proof.Machine

/-- PUBKEY: the uncompressed public key of an EC slot. -/
def execPubkey (c : CtxId) (s : State) : Host.Outcome State Fault Refusal :=
  .next (s.serve 0x02 c (fun s r =>
    match s.slot (s.scSlot r) with
    | some k =>
      if algEc k.alg then s.scFits r k.pub.length (fun s => ⟨ksOk, k.pub, s⟩) else ⟨ksPolicy, [], s⟩
    | none => ⟨ksPolicy, [], s⟩))

/-- SIGN: r then s over the digest at IN. -/
def execSign (c : CtxId) (s : State) : Host.Outcome State Fault Refusal :=
  .next (s.serve 0x10 c (fun s r => s.scKey r (s.scSlot r) useSign algPriv (fun s k =>
    if s.scInLen r ≠ 32 ∧ s.scInLen r ≠ 48 then ⟨ksBadArg, [], s⟩
    else s.scReads r 0 (fun s => s.scRandom (fun s => s.scFits r (2 * ecLen (alg384 k.alg)) (fun s =>
      ⟨ksOk, ecSign (alg384 k.alg) k.key (s.scIn r) s.freeNat, s.took⟩))))))

/-- VERIFY: OK or AUTH for r then s at AUX_ADDR. -/
def execVerify (c : CtxId) (s : State) : Host.Outcome State Fault Refusal :=
  .next (s.serve 0x11 c (fun s r => s.scKey r (s.scSlot r) useVerify algEc (fun s k =>
    let n := 2 * ecLen (alg384 k.alg)
    if s.scInLen r ≠ 32 ∧ s.scInLen r ≠ 48 then ⟨ksBadArg, [], s⟩
    else s.scReads r n (fun s =>
      ⟨if Config.verifies (alg384 k.alg) k.pub (s.scIn r) (s.scAuxBytes r 0 n) then ksOk else ksAuth, [], s⟩))))

/-- ECDH_DERIVE: an AES key from the shared secret reaches the twin of SLOT2; OUT is its blob. -/
def execEcdhDerive (c : CtxId) (s : State) : Host.Outcome State Fault Refusal :=
  .next (s.serve 0x12 c (fun s r => s.scAdmin r (fun s => s.scNotRoot (s.scSlot2 r) (fun s =>
    s.scKey r (s.scSlot r) useEcdh algPriv (fun s k =>
      let alg := s.scOpt r
      let p := alg384 k.alg
      if !algAes alg ∨ s.scInLen r ≠ 1 + 2 * ecLen p ∨ 64 < s.scAux r ∨ !policyOk alg (s.scArg r 8) (s.scArg r 9) then
        ⟨ksBadArg, [], s⟩
      else s.scReads r (s.scAux r) (fun s => s.scRoot (fun s root => s.scRandom (fun s =>
        if (s.timedAt (s.scSlot2 r)).isSome then ⟨ksEmpty, [], s⟩
        else s.scFits r (blobLen (algLen alg)) (fun s =>
          let key := hkdf (ecShared p k.key (s.scIn r)) (s.scAuxBytes r 0 (s.scAux r)) (algLen alg)
          s.newKey (s.scSlot2 r) alg (s.scArg r 8) (s.scArg r 9) key root [])))))))))

/-- GCM_ENC: ciphertext, then the tag. -/
def execGcmEnc (c : CtxId) (s : State) : Host.Outcome State Fault Refusal :=
  .next (s.serve 0x20 c (fun s r => s.scKey r (s.scSlot r) useEnc algAes (fun s k =>
    s.scReads r (12 + s.scAux r) (fun s => s.scFits r (s.scInLen r + 16) (fun s =>
      let iv := s.scAuxBytes r 0 12
      let ct := gcmText k.key iv (s.scIn r)
      ⟨ksOk, ct ++ gcmTag k.key iv (s.scAuxBytes r 12 (s.scAux r)) ct, s⟩)))))

/-- GCM_DEC: the text, or AUTH with OUT overwritten with zeros. -/
def execGcmDec (c : CtxId) (s : State) : Host.Outcome State Fault Refusal :=
  .next (s.serve 0x21 c (fun s r => s.scKey r (s.scSlot r) useDec algAes (fun s k =>
    if s.scInLen r < 16 then ⟨ksBadArg, [], s⟩
    else s.scReads r (12 + s.scAux r) (fun s => s.scFits r (s.scInLen r - 16) (fun s =>
      let n := s.scInLen r - 16
      let iv := s.scAuxBytes r 0 12
      let ct := (s.scIn r).take n
      if gcmTag k.key iv (s.scAuxBytes r 12 (s.scAux r)) ct = (s.scIn r).drop n then ⟨ksOk, gcmText k.key iv ct, s⟩
      else ⟨ksAuth, [], s.writeBlock (s.scArg r 3) (List.replicate n 0)⟩)))))

/-- CTR: IN XOR the key stream. -/
def execCtr (c : CtxId) (s : State) : Host.Outcome State Fault Refusal :=
  .next (s.serve 0x22 c (fun s r => s.scKey r (s.scSlot r) useEnc algAes (fun s k =>
    s.scReads r 16 (fun s => s.scFits r (s.scInLen r) (fun s =>
      ⟨ksOk, aesCtr k.key (s.scAuxBytes r 0 16) (s.scIn r), s⟩)))))

/-- HASH: SHA-256 or SHA-384 of IN. -/
def execHash (c : CtxId) (s : State) : Host.Outcome State Fault Refusal :=
  .next (s.serve 0x30 c (fun s r =>
    if 1 < s.scOpt r then ⟨ksBadArg, [], s⟩
    else s.scReads r 0 (fun s =>
      let d := if s.scOpt r = 0 then sha256 (s.scIn r) else sha384 (s.scIn r)
      s.scFits r d.length (fun s => ⟨ksOk, d, s⟩))))

/-- RANDOM: OUT_CAP random bytes, at most 4,096. -/
def execRandom (c : CtxId) (s : State) : Host.Outcome State Fault Refusal :=
  .next (s.serve 0x31 c (fun s r =>
    let n := s.scCap r
    if 4096 < n ∨ !bufIn (s.scArg r 3) n then ⟨ksBadArg, [], s⟩
    else s.scRandom (fun s => ⟨ksOk, s.randomBytes n, s.drew n⟩)))

/-- GENERATE: a new key reaches the twin of SLOT; OUT is its blob, then the public key for EC. -/
def execGenerate (c : CtxId) (s : State) : Host.Outcome State Fault Refusal :=
  .next (s.serve 0x40 c (fun s r => s.scAdmin r (fun s => s.scNotRoot (s.scSlot r) (fun s =>
    let alg := s.scOpt r
    let n := algLen alg
    if !(algAes alg || algPriv alg) ∨ !policyOk alg (s.scArg r 8) (s.scArg r 9) then ⟨ksBadArg, [], s⟩
    else s.scRoot (fun s root => s.scRandom (fun s =>
      if (s.timedAt (s.scSlot r)).isSome then ⟨ksEmpty, [], s⟩
      else
        let pubLen := if algPriv alg then 1 + 2 * ecLen (alg384 alg) else 0
        s.scFits r (blobLen n + pubLen) (fun s =>
          let key := s.randomBytes n
          let pub := if algPriv alg then ecPublic (alg384 alg) key else []
          (s.drew n).newKey (s.scSlot r) alg (s.scArg r 8) (s.scArg r 9) key root pub)))))))

/-- LOAD_BLOB: the blob at IN reaches the twin of SLOT, or with DIRECT the EMPTY slot (R404). -/
def execLoadBlob (c : CtxId) (s : State) : Host.Outcome State Fault Refusal :=
  .next (s.serve 0x41 c (fun s r => s.scAdmin r (fun s => s.scNotRoot (s.scSlot r) (fun s =>
    let n := s.scSlot r
    let direct := bitOf (s.scOpt r) 1
    let go := fun (s : State) (wrap : KeyRec) => s.scReads r 0 (fun s =>
      if (if direct then (s.slot n).isSome else (s.timedAt n).isSome) then ⟨ksEmpty, [], s⟩
      else
        match openBlob wrap (s.scIn r) (s.randomBytes 48) with
        | (st, some k) =>
          let s := s.drew 48
          ⟨st, [], if direct then s.loadSlot n k else s.setTwin n (some ⟨k, false⟩)⟩
        | (st, none) => ⟨st, [], s⟩)
    if 3 < s.scOpt r then ⟨ksBadArg, [], s⟩
    else if bitOf (s.scOpt r) 0 then s.scKey r (s.scSlot2 r) useUnwrap (fun a => a = 0x02) go
    else s.scRoot go))))

/-- LOAD_PUB: the public key at IN reaches the twin of SLOT. -/
def execLoadPub (c : CtxId) (s : State) : Host.Outcome State Fault Refusal :=
  .next (s.serve 0x42 c (fun s r => s.scAdmin r (fun s => s.scNotRoot (s.scSlot r) (fun s =>
    let alg := s.scOpt r
    if !algPub alg ∨ s.scInLen r ≠ 1 + 2 * ecLen (alg384 alg) ∨ !policyOk alg (s.scArg r 8) (s.scArg r 9) then
      ⟨ksBadArg, [], s⟩
    else s.scReads r 0 (fun s =>
      if (s.timedAt (s.scSlot r)).isSome then ⟨ksEmpty, [], s⟩
      else if (s.scIn r).headD 0 ≠ 4 then ⟨ksBadArg, [], s⟩
      else ⟨ksOk, [], s.stage (s.scSlot r) alg (s.scArg r 8) (s.scArg r 9) (s.scIn r)⟩)))))

/-- CHECK: the twin's KEYID against AUX, and for a private key a signature of a random digest that verifies (R407). -/
def execCheck (c : CtxId) (s : State) : Host.Outcome State Fault Refusal :=
  .next (s.serve 0x43 c (fun s r => s.scAdmin r (fun s =>
    match s.twin (s.scSlot r) with
    | none => ⟨ksEmpty, [], s⟩
    | some t =>
      let id := decide (t.key.keyId = s.scAux r)
      let mark := fun (s : State) (ok : Bool) =>
        if ok then (⟨ksOk, [], s.setTwin (s.scSlot r) (some { t with checked := true })⟩ : KsAnswer)
        else ⟨ksAuth, [], s⟩
      if algPriv t.key.alg then s.scRandom (fun s =>
        let d := s.randomBytes 32
        let p := alg384 t.key.alg
        let sig := ecSign p t.key.key d (Config.freeNat (s.free + 32))
        mark (s.drew 33) (id && Config.verifies p t.key.pub d sig))
      else mark s id)))

/-- COMMIT: a CHECKED twin becomes the slot's key at once, or at the TB[0] time at AUX_ADDR (R408). -/
def execCommit (c : CtxId) (s : State) : Host.Outcome State Fault Refusal :=
  .next (s.serve 0x44 c (fun s r => s.scAdmin r (fun s => s.scNotRoot (s.scSlot r) (fun s =>
    let n := s.scSlot r
    let ready := match s.twin n with | some t => t.checked && (s.timedAt n).isNone | none => false
    if !ready then ⟨ksEmpty, [], s⟩
    else if s.scArg r 5 = 0 then ⟨ksOk, [], s.commitTwin n⟩
    else
      if !bufIn (s.scArg r 5) 12 then ⟨ksBadArg, [], s⟩
      else
        let x := s.readBlock (engSlot (engOf r.ctx)) (s.scArg r 5) 12
        let s := x.2
        let t := numAt (s.scAuxBytes r 0 12) 0 6 * 1000000000 + numAt (s.scAuxBytes r 0 12) 8 4
        if x.1 then ⟨ksOk, [], s.setTimed n (some t)⟩ else ⟨ksBus, [], s⟩))))

/-- KS_TIMED_COMMIT: TB[0] has reached the time of the pending commit of slot n (R408). -/
def execKsTimedCommit (n : Fin 32) (s : State) : Host.Outcome State Fault Refusal :=
  .next (s.onBlk .keyStore (fun s =>
    match s.timedAt n.val with
    | some t => if t ≤ s.tbNs 0 then s.commitTwin n.val else s
    | none => s))

/-- DISCARD: the twin is emptied. -/
def execDiscard (c : CtxId) (s : State) : Host.Outcome State Fault Refusal :=
  .next (s.serve 0x45 c (fun s r => s.scAdmin r (fun s =>
    if (s.timedAt (s.scSlot r)).isSome then ⟨ksEmpty, [], s⟩ else ⟨ksOk, [], s.setTwin (s.scSlot r) none⟩)))

/-- ERASE: the slot is emptied, and a pending commit is cancelled (R408). -/
def execErase (c : CtxId) (s : State) : Host.Outcome State Fault Refusal :=
  .next (s.serve 0x46 c (fun s r => s.scAdmin r (fun s => s.scNotRoot (s.scSlot r) (fun s =>
    ⟨ksOk, [], (s.setSlot (s.scSlot r) none).setTimed (s.scSlot r) none⟩))))

/-- KEY_OUT: the bytes of an EXPOSE AES-128 key. -/
def execKeyOut (c : CtxId) (s : State) : Host.Outcome State Fault Refusal :=
  .next (s.serve 0x50 c (fun s r => s.scKey r (s.scSlot r) useExpose (fun a => a = 0x01) (fun s k =>
    s.scFits r 16 (fun s => ⟨ksOk, k.key, s⟩))))

/-- ROOT_GEN: KROOT is created where it is absent (R398). -/
def execRootGen (c : CtxId) (s : State) : Host.Outcome State Fault Refusal :=
  .next (s.serve 0x60 c (fun s r => s.scAdmin r (fun s =>
    if s.ks.root.isSome then ⟨ksEmpty, [], s⟩
    else s.scRandom (fun s =>
      let k := maskedKey 0x02 0 0 (s.randomBytes 32) (((s.drew 32).randomBytes 32))
      ⟨ksOk, [], ((s.setKs { s.ks with root := some k }).drew 64).setFlag Reg.KS_STATUS F.KS_STATUS_ROOT true⟩))))

/-- ZEROISE: zeroisation with cause firmware, where that source is enabled (R409): the call itself ends with ZEROISED. -/
def execZeroise (c : CtxId) (s : State) : Host.Outcome State Fault Refusal :=
  .next (s.serve 0xFF c (fun s r => s.scAdmin r (fun s =>
    if s.zeroSource 6 then ⟨ksZeroised, [], s.zeroise 6⟩ else ⟨ksPolicy, [], s⟩)))

/-- TAMPER_EVENT: the source of cause `src` + 1 asserts (R409). Beside TAMPER_N the sources watch PD_VAULT while it is
powered. -/
def execTamperEvent (src : Fin 5) (s : State) : Host.Outcome State Fault Refusal :=
  .next (
    let c := src.val + 1
    if s.zeroSource c ∧ (c = 1 ∨ s.domUp 3) then s.zeroise c else s)

/-- A key with fresh random bits XORed into both of its shares. -/
def KeyRec.remask (k : KeyRec) (m : List Byte) : KeyRec :=
  { k with shareA := xorBytes k.shareA m, shareB := xorBytes k.shareB m }

/-- KS_REMASK: REMASK × 0.1 s after the last, every held key is re-masked (R397). -/
def execKsRemask (s : State) : Host.Outcome State Fault Refusal :=
  .next (s.onBlk .keyStore (fun s =>
    let p := min 100 (orDefault (s.fld Reg.KS_CTRL F.KS_CTRL_REMASK) 1)
    if s.ks.maskAt + p * (100 * ticksPerMs) ≤ s.now then
      let m := fun i => (List.range 97).map (fun j => BitVec.ofNat 8 (Config.freeNat (s.free + 97 * i + j)))
      let x := s.ks
      let slot := x.slot.map (fun e => (e.1, e.2.map (fun k => k.remask (m e.1))))
      let twin := x.twin.map (fun e => (e.1, e.2.map (fun t => { t with key := t.key.remask (m (32 + e.1)) })))
      (s.setKs { x with slot := slot, twin := twin, root := x.root.map (fun k => k.remask (m 64)), maskAt := s.now }).drew
        (97 * 65)
    else s))

/-- KS_ENTROPY_FAIL: the health test of the entropy source fails (R411). -/
def execKsEntropyFail (s : State) : Host.Outcome State Fault Refusal :=
  .next (s.onBlk .keyStore (fun s =>
    let was := s.flag Reg.KS_STATUS F.KS_STATUS_DRBG_OK
    let s := (s.setKs { s.ks with seedAt := s.now }).setFlag Reg.KS_STATUS F.KS_STATUS_DRBG_OK false
    let s := if was then s.line 0x13 0x02 else s
    s.contain 0x13 0 0x03))

/-- KS_RESEED: the reseed that is tried every 100 ms while random bits are unavailable (R411). -/
def execKsReseed (pass : Bool) (s : State) : Host.Outcome State Fault Refusal :=
  .next (s.onBlk .keyStore (fun s =>
    if s.flag Reg.KS_STATUS F.KS_STATUS_DRBG_OK ∨ s.now < s.ks.seedAt + 100 * ticksPerMs then s
    else
      let s := s.setKs { s.ks with seedAt := s.now }
      if pass then
        ((s.setFlag Reg.KS_STATUS F.KS_STATUS_DRBG_OK true).line 0x13 0x03).recovers 0x13 0x03
      else s))

/-- KS_ADMIN is written: MASK while LOCK is clear, and LOCK (R401). -/
def State.ksAdminWrite (s : State) (data : Word) : State :=
  let locked := s.flag Reg.KS_ADMIN F.KS_ADMIN_LOCK
  let s := if locked then s else s.setFld Reg.KS_ADMIN F.KS_ADMIN_MASK (F.KS_ADMIN_MASK.get data)
  if F.KS_ADMIN_LOCK.get data = 1 then s.setFlag Reg.KS_ADMIN F.KS_ADMIN_LOCK true else s

/-- KS_ADMIN_LOCK: KS_ADMIN is written: MASK while LOCK is clear, and LOCK (R401). -/
def execKsAdminLock (data : Word) (s : State) : Host.Outcome State Fault Refusal :=
  .next (s.onBlk .keyStore (fun s => s.ksAdminWrite data))

/-- KS_CTRL is written: TSRC_EN and REMASK while LOCK is clear, and LOCK (R414). -/
def State.ksCtrlWrite (s : State) (data : Word) : State :=
  let locked := s.flag Reg.KS_CTRL F.KS_CTRL_LOCK
  let s := if locked then s
    else (s.setFld Reg.KS_CTRL F.KS_CTRL_TSRC_EN (F.KS_CTRL_TSRC_EN.get data)).setFld Reg.KS_CTRL F.KS_CTRL_REMASK
      (F.KS_CTRL_REMASK.get data)
  if F.KS_CTRL_LOCK.get data = 1 then s.setFlag Reg.KS_CTRL F.KS_CTRL_LOCK true else s

/-- KS_CTRL_LOCK: KS_CTRL is written: TSRC_EN and REMASK while LOCK is clear, and LOCK (R414). -/
def execKsCtrlLock (data : Word) (s : State) : Host.Outcome State Fault Refusal :=
  .next (s.onBlk .keyStore (fun s => s.ksCtrlWrite data))

end Sys2Proof.Machine
end

