-- ==== Sys2Proof/Machine/LedgerCommands.lean ====
section
/-!
DEFINITION. Machine/LedgerCommands.lean: the commands of the metrology partition, the event store and the tamper-current
watch (R341 to R366).
-/
namespace Sys2Proof.Machine

/-- What the Ledger does while it has its supply and its state: a region reset stops neither the filter channels nor the
accumulation (R361). -/
def State.onLedger (s : State) (f : State → State) : State := if s.domUp 4 ∧ !s.ledger.down then f s else s

/-- METER_BLOCK_END: a block ends over its 800 samples, each the codes of SDI_O[0..15] (R348, R349, R358). -/
def execMeterBlockEnd (samples : List (List (BitVec 24))) (s : State) : Host.Outcome State Fault Refusal :=
  .next (s.onLedger (fun s =>
    if !s.ledger.running ∨ samples.length ≠ 800 then s else (s.blockEnd samples false).saveCopy))

/-- METER_CHANNEL_INVALID: SDI_O[k] has shown no transition for 128 cycles, or shows them again (R347). -/
def execMeterChannelInvalid (k : Fin 16) (toggling : Bool) (s : State) : Host.Outcome State Fault Refusal :=
  .next (s.onLedger (fun s =>
    let o := k.val / 2
    let x := s.meter o
    let bad := withBit x.bad (k.val % 2) (!toggling)
    let s := s.setMeter o { x with bad := bad, validAt := if bad = 0 ∧ x.bad ≠ 0 then some s.now else
                                                            if bad = 0 then x.validAt else none }
    if !toggling ∧ !bitOf x.bad (k.val % 2) ∧ s.metOn o then s.metInvalid k.val else s))

/-- LEGAL_UPD_CHANGE: the input has held its new level for 10 ms (R341). -/
def execLegalUpdChange (high : Bool) (s : State) : Host.Outcome State Fault Refusal :=
  .next (s.onLedger (fun s =>
    if s.flag Reg.MET_STATUS F.MET_STATUS_UPD = high then s
    else (s.setFlag Reg.MET_STATUS F.MET_STATUS_UPD high).logEntry 0x0D 0xFF (leBytes 1 (bit01 high))))

/-- LEGAL_TX_CHECK: the CHK line, 10 s after the last (R344). -/
def execLegalTxCheck (s : State) : Host.Outcome State Fault Refusal :=
  .next (s.onLedger (fun s =>
    if s.ledger.running ∧ s.ledger.chkAt + 10 * ticksPerS ≤ s.now then
      (s.setLedger { s.ledger with chkAt := s.now }).emit (.legal s.checkLine)
    else s))

/-- LEGAL_TX_ENERGY: the energy line of each metered outlet, 1 s after the last (R344). -/
def execLegalTxEnergy (s : State) : Host.Outcome State Fault Refusal :=
  .next (s.onLedger (fun s =>
    if s.ledger.running ∧ s.ledger.txAt + ticksPerS ≤ s.now then
      (List.range 8).foldl (fun s o => if s.metOn o then s.emit (.legal (s.energyLine o)) else s)
        (s.setLedger { s.ledger with txAt := s.now })
    else s))

/-- MPULSE_PULSE: an owed pulse of MPULSE[o] begins, PW ms or more after the end of the one before; none begins in a region
reset or while metering is stopped (R350, R361, R362). -/
def execMpulsePulse (o : Fin 8) (s : State) : Host.Outcome State Fault Refusal :=
  .next (s.onLedger (fun s =>
    let x := s.meter o.val
    let free := match x.pulseAt with
      | some t => t + 2 * s.metPw * ticksPerMs ≤ s.now
      | none => true
    if s.ledger.running && !s.regionHeld 2 && 0 < x.owed && free then
      s.setMeter o.val { x with owed := x.owed - 1, pulseAt := some s.now }
    else s))

/-- METER_IMAGE_RECHECK: the 24 h check of the instruction memory against the digest of the loaded part (R343). -/
def execMeterImageRecheck (s : State) : Host.Outcome State Fault Refusal :=
  .next (s.onLedger (fun s =>
    let g := s.ledger
    if g.image ∧ g.running ∧ g.imageAt + 86400 * ticksPerS ≤ s.now then
      let s := s.setLedger { g with imageAt := s.now }
      if sha256 (s.bytes metroItcm g.codeLen) = g.digest then s else s.metStop 0x04
    else s))

/-- The event store takes requests: the Ledger is powered and out of reset. -/
def State.onStore (s : State) (f : State → State) : State := s.onLedger (fun s => s.onBlk .eventStore f)

def State.evsResult (s : State) (r : Nat) : State := s.setFld Reg.EVS_REQ_STAT F.EVS_REQ_STAT_RESULT r

/-- EVS_REQ with OP 0b100 (R351, R365): the block at EVS_ADDR takes effect at the next block end, and at once
where metering is stopped, which restarts it (R362). A block that cannot be read counts as malformed. -/
def State.parLoad (s : State) : State :=
  let a := (s.rd Reg.EVS_ADDR).toNat
  if s.flag Reg.EVS_REQ_STAT F.EVS_REQ_STAT_BUSY then s.evsResult 2
  else if !s.flag Reg.MET_STATUS F.MET_STATUS_UPD then s.evsResult 3
  else
    let r := s.readBlock 8 a 0x124
    let l := r.2.bytes a 0x124
    let s := r.2
    if !r.1 ∨ a % 4 ≠ 0 ∨ !parFormed l then s.evsResult 4
    else if !s.logHas 1 then s.evsResult 6
    else
      let old := s.rd Reg.MET_PCRC
      let s := (s.mramPut (mramPar 0) l).mramPut (mramPar 1) l
      let s := s.logEntry 0x03 0xFF (leBytes 4 old.toNat ++ leBytes 4 (numAt l 0x120 4))
      let s := (s.evsResult 1).line 0x12 0x00
      if s.ledger.running then s.setLedger { s.ledger with next := some l }
      else (s.parApply l).metStart

/-- PARAMETER_LOAD: EVS_REQ with OP 0b100 (R351, R365): the block at EVS_ADDR takes effect at the next block end, and at once
where metering is stopped, which restarts it (R362). A block that cannot be read counts as malformed. -/
def execParameterLoad (s : State) : Host.Outcome State Fault Refusal :=
  .next (s.onStore (fun s => s.parLoad))

/-- A reading request of kind `kind` (R352). -/
def State.requestReading (s : State) (kind o : Nat) : State :=
  s.onStore (fun s =>
    if s.flag Reg.EVS_REQ_STAT F.EVS_REQ_STAT_BUSY then s.evsResult 2
    else if !s.ledger.running then s.evsResult 5
    else
      let sess := [0, 1, 2, 3].flatMap (fun k => leBytes 4 (s.rd (Reg.EVS_SESS k)).toNat)
      (s.setLedger { s.ledger with req := some ⟨kind, o, sess, s.now / engTicks 8, none⟩ }).setFlag
        Reg.EVS_REQ_STAT F.EVS_REQ_STAT_BUSY true)

/-- READING_START: EVS_REQ with OP 0b001 for O[o]. -/
def execReadingStart (o : Fin 8) (s : State) : Host.Outcome State Fault Refusal := .next (s.requestReading 1 o.val)

/-- READING_STOP: EVS_REQ with OP 0b010 for O[o]. -/
def execReadingStop (o : Fin 8) (s : State) : Host.Outcome State Fault Refusal := .next (s.requestReading 2 o.val)

/-- READING_ON_REQUEST: EVS_REQ with OP 0b011 for O[o]. -/
def execReadingOnRequest (o : Fin 8) (s : State) : Host.Outcome State Fault Refusal := .next (s.requestReading 3 o.val)

/-- Bytes 0x00 to 0x4F of a reading record (R353). -/
def State.readingBytes (s : State) (r : Reading) (y : ReadSnap) : List Byte :=
  leBytes 1 r.kind ++ leBytes 1 r.outlet ++ leBytes 1 1 ++ leBytes 1 y.status ++ leBytes 4 s.ledger.rseq ++ serial ++
    leBytes 4 (s.rd Reg.MET_CHECK).toNat ++ leBytes 4 (s.rd Reg.MET_PCRC).toNat ++ leBytes 8 y.imp ++ leBytes 8 y.exp ++
    leBytes 8 y.sec ++ leBytes 4 y.ns ++ leBytes 4 y.lseq ++ r.session ++ leBytes 1 y.rate ++ leBytes 3 0 ++ s.metKeyId

/-- READING_RECORD_COMPLETE: the record of the instant taken is signed and stored (R353, R354). -/
def execReadingRecordComplete (s : State) : Host.Outcome State Fault Refusal :=
  .next (s.onStore (fun s =>
    match s.ledger.req with
    | some r =>
      match r.snap with
      | some y =>
        let n := s.ledger.rseq
        let l := s.readingBytes r y
        let s := (s.mramPut (mramReadings + 256 * (n % 4096)) (l ++ s.metSign l)).afterSign
        let s := s.setLedger { s.ledger with rseq := n + 1 }
        ((s.readEnd 1).wrNat Reg.EVS_RSEQ n).line 0x12 0x00
      | none => s
    | none => s))

/-- LEDGER_RESTORE: the supply of the Ledger has returned; `badA` and `badB` say which copies fail their CRC-32 (R360). -/
def execLedgerRestore (badA badB : Bool) (s : State) : Host.Outcome State Fault Refusal :=
  .next (if s.domUp 4 ∧ s.ledger.down then s.ledgerRestore badA badB else s)

/-- TCW_SAMPLE: while PD_LEDGER is unpowered the watch samples TCW_P[o] − TCW_N[o], `uv` in µV (R364). -/
def execTcwSample (o : Fin 8) (uv : BitVec 24) (s : State) : Host.Outcome State Fault Refusal :=
  .next (
    let g := s.ledger
    if !s.domUp 4 ∧ bitOf (s.par 0x04 1) o.val ∧ s.par 0x05 1 * 500 < uv.toInt.natAbs then
      s.setLedger { g with tcwMask := withBit g.tcwMask o.val true, tcwCount := g.tcwCount + 1,
                           tcwFirst := if g.tcwCount = 0 then s.aonSec else g.tcwFirst, tcwLast := s.aonSec }
    else s)

/-- EVS_MRAM_ECC: an MRAM read is corrected, or the word is marked bad (R366). -/
def execEvsMramEcc (addr : BitVec 22) (double : Bool) (s : State) : Host.Outcome State Fault Refusal :=
  .next (s.onStore (fun s =>
    if double then
      let w := addr.toNat / 4 * 4
      (s.setLedger { s.ledger with bad := w :: s.ledger.bad.filter (· ≠ w) }).contain 0x12 0 0x02
    else s.note 0x12 0 0x01))

/-- THERMAL_RECORD: the oldest waiting record of the thermal unit enters the general event log (R327, R357). -/
def execThermalRecord (s : State) : Host.Outcome State Fault Refusal :=
  .next (s.onStore (fun s =>
    match s.thermal.queue with
    | r :: rest =>
      let n := s.ledger.gen
      let s := s.mramPut (mramGeneral + 32 * (n % 32768)) r
      let s := s.setLedger { s.ledger with gen := n + 1 }
      (s.setThermal { s.thermal with queue := rest }).setFld Reg.TH_STAT F.TH_STAT_QDEPTH rest.length
    | [] => s))

end Sys2Proof.Machine
end

