-- ==== Sys2Proof/Machine/TariffCommands.lean ====
section
/-!
DEFINITION. Machine/TariffCommands.lean: the commands of the tariff unit (R370 to R393).
-/
namespace Sys2Proof.Machine

/-- The tariff unit takes requests: the Ledger is powered and out of reset. -/
def State.onTariff (s : State) (f : State → State) : State := s.onLedger (fun s => s.onBlk .tariff f)

/-- TARIFF_INSTANT: a sample at which an instant has been reached (R376): the blocks end over their samples, and the instants
are processed in their order; else only the friendly flag follows the calendar. -/
def execTariffInstant (samples : List (List (BitVec 24))) (s : State) : Host.Outcome State Fault Refusal :=
  .next (s.onTariff (fun s =>
    if !s.tarOn then s
    else if s.instantDue then
      let s := s.blockEnd samples false
      s.tarInstants.saveCopy
    else s.rateSync))

/-- TAR_CMD.LOAD reads the image at TAR_CAL_ADDR into the passive calendar (R374). -/
def State.calLoad (s : State) : State :=
  let a := (s.rd Reg.TAR_CAL_ADDR).toNat
  let r := s.readBlock 8 a 1040
  let c := r.2.bytes a 1040
  let s := r.2
  let res := fun (s : State) n => s.setFld Reg.TAR_CMD F.TAR_CMD_RESULT n
  if !r.1 ∨ a % 4 ≠ 0 then res s 4
  else if !calFormed c then res s 2
  else if !calValid c then res s 3
  else
    let t := calAct c * 1000000000
    let s := s.setTar { s.tar with pas := some c, pasAt := if t ≤ s.tbNs 3 then 0 else t }
    res (s.storeCal 1 c) 1

/-- CALENDAR_LOAD: TAR_CMD.LOAD reads the image at TAR_CAL_ADDR into the passive calendar (R374). -/
def execCalendarLoad (s : State) : Host.Outcome State Fault Refusal :=
  .next (s.onTariff (fun s => s.calLoad))

/-- TAR_CMD.CLOSE creates a billing boundary at the next sample (R380). -/
def State.billClose (s : State) : State :=
  s.setTar { s.tar with close := true }

/-- BILLING_CLOSE: TAR_CMD.CLOSE creates a billing boundary at the next sample (R380). -/
def execBillingClose (s : State) : Host.Outcome State Fault Refusal :=
  .next (s.onTariff (fun s => s.billClose))

/-- TAR_ADJ is written with GO, and ABS as given (R381 to R385). -/
def State.clockAdjust (s : State) (abs : Bool) : State :=
  let s := s.setFlag Reg.TAR_ADJ F.TAR_ADJ_ABS abs
  let ns := (s.rd Reg.TAR_ADJ_NS).toNat
  let sec := s.rd Reg.TAR_ADJ_S
  if 1000000000 ≤ ns then s.adjResult 5
  else
    let t : Int := if abs then (s.fld Reg.TAR_ADJ_SH F.TAR_ADJ_SH_VAL * 2 ^ 32 + sec.toNat) * 1000000000 + ns
      else sec.toInt * 1000000000 + ns
    let v := s.tbStepped 3 abs t
    let m := if abs then (t - s.tbNs 3).natAbs else t.natAbs
    s.adjust abs v m

/-- LEGAL_CLOCK_ADJUST: TAR_ADJ is written with GO, and ABS as given (R381 to R385). -/
def execLegalClockAdjust (abs : Bool) (s : State) : Host.Outcome State Fault Refusal :=
  .next (s.onTariff (fun s => s.clockAdjust abs))

/-- AUTO_SYNC: the comparison of TB[3] with TB[0] less TAR_UTC at a whole hour of TAR_MONO (R384). -/
def execAutoSync (s : State) : Host.Outcome State Fault Refusal :=
  .next (s.onTariff (fun s =>
    let h := s.monoMs / 3600000
    if h ≤ s.tar.hour then s
    else
      let s := s.setTar { s.tar with hour := h }
      if s.flag Reg.TAR_CTRL F.TAR_CTRL_AUTO_SYNC ∧ s.tbState 0 = tbLocked then
        let d : Int := s.tbNs 0 - s.fld Reg.TAR_UTC F.TAR_UTC_VAL * 1000000000 - s.tbNs 3
        if s.wouldBeSilent d.natAbs then s.adjSilent (s.tbStepped 3 false d) d.natAbs
        else (s.setFlag Reg.TAR_STATUS F.TAR_STATUS_SYNC_BIG true).note 0x11 0 0x03
      else s))

def State.accResult (s : State) (r : Nat) : State :=
  (s.setFld Reg.TAR_ACC_CMD F.TAR_ACC_CMD_RESULT r).line 0x11 0x05

/-- The operands that an account request writes into TAR_ACC_CMD (R395). -/
def State.accFields (s : State) (op acc : Nat) : State :=
  (s.setFld Reg.TAR_ACC_CMD F.TAR_ACC_CMD_OP op).setFld Reg.TAR_ACC_CMD F.TAR_ACC_CMD_ACC acc

/-- A change of balance by AMT (R390): refused for a repeated TXID and for an amount of 0 or above 2^48. -/
def State.moveBalance (s : State) (op a : Nat) (sign : Int) : State :=
  let s := s.accFields op a
  let amt : Nat := (s.rd Reg.TAR_ACC_AMT_HI).toNat * 2 ^ 32 + (s.rd Reg.TAR_ACC_AMT_LO).toNat
  let tx := (s.rd Reg.TAR_ACC_TXID).toNat
  let x := s.account a
  if x.txids.contains tx then s.accResult 3
  else if amt = 0 ∨ 2 ^ 48 < amt then s.accResult 4
  else
    let s := s.setAccount a { x with bal := Machine.signed 64 (unsigned 64 (x.bal + sign * (amt : Int))),
                                     txids := (tx :: x.txids).take 16 }
    let s := s.accountSync a
    (s.accountRecord 0x42 a tx op amt).accResult 1

/-- TOPUP: AMT is added to the balance of account `acc` (R390). -/
def execTopup (acc : Byte) (s : State) : Host.Outcome State Fault Refusal :=
  .next (s.onTariff (fun s => s.moveBalance 1 acc.toNat 1))

/-- DEBIT: AMT is subtracted from the balance of account `acc` (R390). -/
def execDebit (acc : Byte) (s : State) : Host.Outcome State Fault Refusal :=
  .next (s.onTariff (fun s => s.moveBalance 2 acc.toNat (-1)))

/-- EC_EN, and from AMT EC_LIM and LOW_THR of account `acc` (R390, R395). The account takes the state of R389 at its next
change of balance or of the friendly flag. -/
def State.accConfig (s : State) (a : Nat) (ecEn : Bool) : State :=
  let s := (s.accFields 3 a).setFlag Reg.TAR_ACC_CMD F.TAR_ACC_CMD_EC_EN ecEn
  let s := s.setAccount a { s.account a with ecEn := ecEn, ecLim := (s.rd Reg.TAR_ACC_AMT_LO).toNat,
                                             lowThr := (s.rd Reg.TAR_ACC_AMT_HI).toNat }
  s.accResult 1

/-- CONFIG: EC_EN, and from AMT EC_LIM and LOW_THR of account `acc` (R390, R395). -/
def execConfig (acc : Byte) (ecEn : Bool) (s : State) : Host.Outcome State Fault Refusal :=
  .next (s.onTariff (fun s => s.accConfig acc.toNat ecEn))

/-- TAR_MEMORY_ECC: an error in a calendar (cell 0), the demand unit or the account table is corrected, or the table is
reloaded from the event store (R393). -/
def execTarMemoryEcc (cell : Fin 3) (double : Bool) (s : State) : Host.Outcome State Fault Refusal :=
  .next (s.onTariff (fun s =>
    if double then s.contain 0x11 cell.val 0x02 true else s.note 0x11 cell.val 0x01))

end Sys2Proof.Machine
end

