-- ==== Sys2Proof/Machine/WriteLedger.lean ====
section
/-!
DEFINITION. Machine/WriteLedger.lean: fabric writes of the registers of the tariff unit, the event store and the key
store (R365, R395, R414). Each function takes the address of a register that exists and the word written.
-/
namespace Sys2Proof.Machine

/-- EVS_REQ with GO (R351, R352). The spec gives an OP beyond 0b100, or 0b000, no effect. -/
def State.evsReqWrite (s : State) (v : Word) : State :=
  let op := F.EVS_REQ_OP.get v
  if F.EVS_REQ_GO.get v = 0 then s
  else if op = 4 then s.onStore (fun s => s.parLoad)
  else if 1 ≤ op ∧ op ≤ 3 then s.requestReading op (F.EVS_REQ_OUTLET.get v)
  else s

/-- TAR_CMD: LOAD and CLOSE (R374, R380). -/
def State.tarCmdWrite (s : State) (v : Word) : State :=
  let s := if F.TAR_CMD_LOAD.get v = 1 then s.calLoad else s
  if F.TAR_CMD_CLOSE.get v = 1 then s.billClose else s

/-- TAR_ADJ: ABS, and with GO the adjustment (R381 to R385). -/
def State.tarAdjWrite (s : State) (v : Word) : State :=
  if F.TAR_ADJ_GO.get v = 1 then s.clockAdjust (F.TAR_ADJ_ABS.get v = 1) else s.wrAccess Reg.TAR_ADJ v

/-- TAR_ACC_CMD: the operands, and with GO the request; an OP that is no request has RESULT 5 (R390, R395). -/
def State.accCmdWrite (s : State) (v : Word) : State :=
  let s := s.wrAccess Reg.TAR_ACC_CMD v
  let op := F.TAR_ACC_CMD_OP.get v
  let acc := F.TAR_ACC_CMD_ACC.get v
  if F.TAR_ACC_CMD_GO.get v = 0 then s
  else if op = 1 then s.moveBalance 1 acc 1
  else if op = 2 then s.moveBalance 2 acc (-1)
  else if op = 3 then s.accConfig acc (F.TAR_ACC_CMD_EC_EN.get v = 1)
  else s.accResult 5

/-- A write in the windows of the Ledger region. -/
def State.ledgerWrite (s : State) (a : Nat) (v : Word) : State :=
  if a = Reg.EVS_REQ then s.evsReqWrite v
  else if a = Reg.TAR_CTRL then s.onTariff (fun s => s.tarCtrlWrite (v &&& 0xC0000000))
  else if a = Reg.TAR_CMD then s.onTariff (fun s => s.tarCmdWrite v)
  else if a = Reg.TAR_ADJ then s.onTariff (fun s => s.tarAdjWrite v)
  else if a = Reg.TAR_ACC_CMD then s.onTariff (fun s => s.accCmdWrite v)
  else if a = Reg.KS_CTRL then s.ksCtrlWrite v
  else if a = Reg.KS_ADMIN then s.ksAdminWrite v
  else s.wrAccess a v

end Sys2Proof.Machine
end

