-- ==== Sys2Proof/Machine/LinkCommands.lean ====
section
/-!
DEFINITION. Machine/LinkCommands.lean: the commands of the outlet links (R266 to R291).
-/
namespace Sys2Proof.Machine

/-- The high level of one period (R270): none where the high phase is too short for its samples. -/
def State.highLevel (s : State) (o : Nat) (hi : BitVec 96) : Option Int :=
  let p := s.pilot o
  let phase := p.duty * 1000 / s.cpFreq
  if p.mode = 1 ∧ phase < s.fld Reg.OLK_TIME F.OLK_TIME_HI_DLY + 16 then none else some (s.meanMv o hi)

/-- The diode check of one period (R273). -/
def State.diodeCheck (s : State) (o need : Nat) (lowMv : Int) : State :=
  let p := s.pilot o
  if 0 < p.hold then s.setPilot o { p with hold := p.hold - 1, diode := 0 }
  else if s.olkKind o = kindCcs ∧ p.mode = 1 ∧ 1 ≤ p.cp.rep ∧ p.cp.rep ≤ 3 ∧ !inWin (s.rd (Reg.CPW 5)) lowMv then
    let s := s.setPilot o { p with diode := min need (p.diode + 1) }
    if need ≤ p.diode + 1 ∧ !s.flag (Reg.OLK_STAT o) F.OLK_STAT_DIODE_ERR then
      ((s.setFlag (Reg.OLK_STAT o) F.OLK_STAT_DIODE_ERR true).note 0x0B o 0x04).line 0x0B (0x10 + o)
    else s
  else s.setPilot o { p with diode := 0 }

/-- PILOT_MEASUREMENT: a measurement period of outlet o ends (R269 to R273), with eight 12-bit codes of the high level, of the
low level (equal to the high ones for a constant drive) and of ID_SNS; then MODE and DUTY as written take effect. -/
def execPilotMeasurement (o : Fin 8) (hi : BitVec 96) (lo : BitVec 96) (id : BitVec 96) (s : State) :
    Host.Outcome State Fault Refusal :=
  .next (s.onBlk .plc (fun s =>
    let o := o.val
    let p := s.pilot o
    let need := orDefault (s.fld (Reg.OLK_CFG o) F.OLK_CFG_QUAL) 1
    let const : Bool := p.mode ≠ 1
    let high := s.highLevel o hi
    let lowMv := if const then s.meanMv o hi else s.meanMv o lo
    let idMv := s.meanMv o id
    let s : State := match high with
      | some h => s.setFld (Reg.OLK_LVL o) F.OLK_LVL_HI_MV (unsigned 16 h)
      | none => s
    let s := s.setFld (Reg.OLK_LVL o) F.OLK_LVL_LO_MV (unsigned 16 lowMv)
    let s := s.setFld (Reg.OLK_ID_LVL o) F.OLK_ID_LVL_MV (unsigned 16 idMv)
    let hv := signed 16 (s.fld (Reg.OLK_LVL o) F.OLK_LVL_HI_MV)
    let k := s.olkKind o
    let st : Nat := if k = kindCcs then stateOf (fun i => s.rd (Reg.CPW i)) hv
      else if k = kindMcs then stateOf (fun i => s.rd (Reg.CEW i)) hv else 0xF
    let cp := p.cp.next st need
    let idq := p.id.next (stateOf (fun i => s.rd (Reg.IDW i)) idMv) need
    let n : Nat := bit01 (cp.rep ≠ p.cp.rep) + bit01 (idq.rep ≠ p.id.rep)
    let s := s.setPilot o { p with cp := cp, id := idq, changes := List.replicate n s.now ++ s.recentChanges o }
    let s := if s.tooMany o ∧ !s.flag (Reg.OLK_STAT o) F.OLK_STAT_UNSTABLE then
        ((s.setFlag (Reg.OLK_STAT o) F.OLK_STAT_UNSTABLE true).note 0x0B o 0x03).line 0x0B (0x10 + o)
      else s
    let s := (s.diodeCheck o need lowMv).showPilot o
    let p : Pilot := s.pilot o
    let m : Nat := s.fld (Reg.OLK_DRV o) F.OLK_DRV_MODE
    let d : Nat := min 1000 (s.fld (Reg.OLK_DRV o) F.OLK_DRV_DUTY)
    if m = p.mode ∧ d = p.duty then s else s.setPilot o { p with mode := m, duty := d, hold := 2 }))

/-- DRV is written; PWM on an MCS outlet is refused with MODE_ERR (R269). -/
def State.pilotDrive (s : State) (o : Nat) (data : Word) : State :=
  if s.olkKind o = kindMcs ∧ F.OLK_DRV_MODE.get data = 1 then
    s.setFlag (Reg.OLK_STAT o) F.OLK_STAT_MODE_ERR true
  else s.wr (Reg.OLK_DRV o) (data &&& 0x03FF0003)

/-- PILOT_DRIVE_WRITE: DRV is written; PWM on an MCS outlet is refused with MODE_ERR (R269). -/
def execPilotDriveWrite (o : Fin 8) (data : Word) (s : State) : Host.Outcome State Fault Refusal :=
  .next (s.onBlk .plc (fun s => s.pilotDrive o.val data))

/-- Refused while the limit is still exceeded (R272). -/
def State.pilotStable (s : State) (o : Nat) : State :=
  if s.tooMany o then s else (s.setFlag (Reg.OLK_STAT o) F.OLK_STAT_UNSTABLE false).showPilot o

/-- PILOT_UNSTABLE_CLEAR: refused while the limit is still exceeded (R272). -/
def execPilotUnstableClear (o : Fin 8) (s : State) : Host.Outcome State Fault Refusal :=
  .next (s.onBlk .plc (fun s => s.pilotStable o.val))

/-- SENSE_REFERENCE_CHECK: the 10 ms reference conversion (R274). -/
def execSenseReferenceCheck (o : Fin 8) (code : BitVec 12) (s : State) : Host.Outcome State Fault Refusal :=
  .next (s.onBlk .plc (fun s =>
    let o := o.val
    let p := s.pilot o
    let r := Reg.OLK_STAT o
    if 2008 ≤ code.toNat ∧ code.toNat ≤ 2088 then
      if s.flag r F.OLK_STAT_CONV_ERR then
        let t := p.passAt.getD s.now
        let s := s.setPilot o { p with passAt := some t }
        if t + ticksPerS ≤ s.now then
          ((s.setFlag r F.OLK_STAT_CONV_ERR false).showPilot o).recoversCell 0x0B 0x02 o
        else s
      else s
    else
      (((s.setPilot o { p with passAt := none }).setFlag r F.OLK_STAT_CONV_ERR true).showPilot o).contain 0x0B o 0x02))

/-- A frame on PLC channel l (R281, R285, R286): sounds and channel estimates are taken whether or not the rings are
stopped, the SACK lists the physical blocks whose check failed, and a whole frame that the NMK opens enters the ring. -/
def State.plcReceive (s : State) (l : Nat) (frame : List Byte) (info : RxInfo) : State :=
  let s := if l = 16 then s.nbrFrame frame info
    else match info.sound with
      | some x => s.takeSound (l - 8) x
      | none => s
  let bad := indicesOf (info.pbs.map (!·))
  if bad ≠ [] then s.emit (.sack l bad)
  else if info.sealed && (s.nmk l useDec).isNone then s
  else if (s.ringStop l).stopped then s
  else s.ringReceive l frame info.repaired

/-- A frame at T1S port l (R277). -/
def State.t1sReceive (s : State) (l : Nat) (frame : List Byte) (info : RxInfo) : State :=
  if (s.ringStop l).stopped then s
  else if !info.fcsOk ∨ 1518 < frame.length then s.bump (linkCnt l) F.T1S_CNT_RX_DROP
  else if s.t1sTakes l frame then s.ringReceive l frame false
  else s

/-- LINK_FRAME_RX: a frame reaches a link (R277 to R279, R281, R285 to R287); while its DMA finds no credit it is still on
its way (R13). -/
def execLinkFrameRx (l : Fin 17) (frame : List Byte) (info : RxInfo) (s : State) : Host.Outcome State Fault Refusal :=
  .next (
    let l := l.val
    if !s.linkRuns l || !s.dmaRoom (linkSlot l) then s
    else if l < 8 then s.t1sReceive l frame info
    else s.plcReceive l frame info)

/-- RING_TX_HEAD_WRITE: firmware queues frames up to HEAD (R278). -/
def execRingTxHeadWrite (l : Fin 17) (head : Byte) (s : State) : Host.Outcome State Fault Refusal :=
  .next (if s.up (linkBlk l.val) then s.setFld (txCfg l.val) F.T1S_TX_CFG_HEAD head.toNat else s)

/-- A frame leaves link l (R276, R280, R286): on a T1S port with its collisions and what the PHY saw, on a PLC channel with
its re-sent physical blocks; a frame dropped at the retry limit is counted there. -/
def State.linkSend (s : State) (l : Nat) (f key : List Byte) (info : TxInfo) (sent : Bool) : State :=
  if l < 8 then
    let s := if sent then s.emit (.link l f) else s
    let s := if info.jabber then s.setFlag (Reg.T1S_STAT l) F.T1S_STAT_JABBER true else s
    s.bump (linkCnt l) F.T1S_CNT_TX_COLL info.coll.toNat
  else
    let s := s.plcSend l f key info.fails
    if sent then s else (s.bump (linkCnt l) F.GP_CNT_TX_DROP).note 0x0B (linkCell l) 0x07

/-- The frame of link l has been sent: on a PLC channel no physical block failed more often than RETRY_LIM lets it be re-sent
(R286). -/
def State.linkSent (s : State) (l : Nat) (info : TxInfo) : Bool :=
  if l < 8 then info.sent else info.fails.all (fun n => n.toNat ≤ s.retryLim)

/-- LINK_FRAME_TX_DONE: the frame at TAIL has been sent, or dropped at the retry limit; its descriptor is written back (R278,
R279, R286). A frame that must be encrypted waits while the NMK's slot gives no key (log 168). -/
def execLinkFrameTxDone (l : Fin 17) (info : TxInfo) (s : State) : Host.Outcome State Fault Refusal :=
  .next (
    let l := l.val
    let c := s.rd (txCfg l)
    if !s.linkOn l ∨ !s.dmaRoom (linkSlot l) ∨ !ringEn c ∨ ringHead c = ringTail c ∨ s.links.phyFail.contains l then s
    else
      let d := (s.rd (txBase l)).toNat + 16 * ringTail c
      let r := s.readBlock (linkSlot l) d 16
      let s := r.2
      let buf := s.num d 4
      let n := s.num (d + 4) 2
      let q := if r.1 then s.readRange (linkSlot l) buf n else (false, s)
      let s := q.2
      let sent := s.linkSent l info
      let st : Nat := if sent then 1 else 2
      let key := s.nmk l useEnc
      if q.1 && 8 ≤ l && !plcClear (s.bytes buf n) && key.isNone then s else
      let x := if q.1 && buf % 4 = 0 then s.writeRanges (linkSlot l) [(d + 6, leBytes 1 st), (d + 8, s.stampBytes)] else (false, s)
      if x.1 then
        let s := x.2.linkSend l (x.2.bytes buf n) (key.getD []) info sent
        let s := s.setFld (txCfg l) F.T1S_TX_CFG_TAIL ((ringTail c + 1) % ringLen c)
        (s.ringPassed l).line (linkBlk l) (txLine l)
      else x.2.ringError l)

/-- RING_ENABLE: EN of a ring is written (R279, R293). -/
def execRingEnable (l : Fin 17) (tx : Bool) (en : Bool) (s : State) : Host.Outcome State Fault Refusal :=
  .next (if s.up (linkBlk l.val) then s.ringEnable l.val tx en else s)

/-- ATT_CTRL is written with START: the measurement is armed anew (R281), on a channel that runs (R266). -/
def State.attStart (s : State) (n : Nat) (data : Word) : State :=
  let s := s.wr (Reg.GP_ATT_CTRL n) (data &&& 0x00FFFFFF)
  if !s.linkRuns (8 + n) then s else
  let s := (List.range 15).foldl (fun s g => s.wr (Reg.GP_ATT n g) 0) (s.wr (Reg.GP_ATT_STAT n) 0)
  let t := orDefault (s.fld (Reg.GP_ATT_CTRL n) F.GP_ATT_CTRL_ATT_TMO) 1
  s.setSlac n (some { due := s.now + t * ticksPerMs, sums := List.replicate 58 0 })

/-- ATT_START: ATT_CTRL is written with START: the measurement is armed anew (R281). -/
def execAttStart (n : Fin 8) (data : Word) (s : State) : Host.Outcome State Fault Refusal :=
  .next (s.onBlk .plc (fun s => s.attStart n.val data))

/-- ATT_DONE: CNT has reached NUM or ATT_TMO is over: the means over the sounds used (R281). With no sound used the spec gives
no mean: it is a free value. -/
def execAttDone (n : Fin 8) (s : State) : Host.Outcome State Fault Refusal :=
  .next (s.onBlk .plc (fun s =>
    let n := n.val
    match s.slac n with
    | some m =>
      let cnt := s.fld (Reg.GP_ATT_STAT n) F.GP_ATT_STAT_CNT
      if s.linkRuns (8 + n) ∧ (s.attNum n ≤ cnt ∨ m.due ≤ s.now) then
        let free := fun g => if cnt = 0 then Config.freeNat (s.free + g) % 256 else m.sums.getD g 0 / cnt
        let at_ := fun g => if g < 58 then free g else 0
        let s := (List.range 15).foldl (fun s w => s.wrNat (Reg.GP_ATT n w)
          (at_ (4 * w) + at_ (4 * w + 1) * 2 ^ 8 + at_ (4 * w + 2) * 2 ^ 16 + at_ (4 * w + 3) * 2 ^ 24)) s
        let s := if cnt = 0 then s.drew 58 else s
        ((s.setSlac n none).setFlag (Reg.GP_ATT_STAT n) F.GP_ATT_STAT_DONE true).line 0x0B (0x28 + n)
      else s
    | none => s))

/-- TONE_MAP_REFRESH: REFRESH_S after the last one, PBER of the period is evaluated; at the third period in a row above
PBER_THR renegotiation starts, else the tone map is recomputed from the estimates of the period (R285, R287, R288). -/
def execToneMapRefresh (k : Fin 32) (s : State) : Host.Outcome State Fault Refusal :=
  .next (s.onBlk .plc (fun s =>
    let k := k.val
    let b := s.nbr k
    let every := max 5 (s.fld Reg.BB_TM F.BB_TM_REFRESH_S) * ticksPerS
    if !s.nbrOn k ∨ b.est ∨ s.now < b.refreshAt + every then s
    else
      let pber := if b.pbs = 0 then 0 else b.failed * 1000 / b.pbs
      let r := Reg.BB_NBR_PBER k
      let high := if s.fld Reg.BB_TM F.BB_TM_PBER_THR < pber then min 3 (s.fld r F.BB_NBR_PBER_HIGH_CNT + 1) else 0
      let s := (s.setFld r F.BB_NBR_PBER_PBER pber).setFld r F.BB_NBR_PBER_HIGH_CNT high
      let s := s.setNbr k { b with pbs := 0, failed := 0, refreshAt := s.now }
      if high = 3 then
        (((s.estimate k).bump (Reg.BB_NBR_RENEG k) F.BB_NBR_RENEG_RENEG).note 0x0B 8 0x08).line 0x0B 0x32
      else s.remap k))

/-- RENEG_COMPLETE: channel estimation has built a new tone map from the sounding frames (R284, R287). -/
def execRenegComplete (k : Fin 32) (s : State) : Host.Outcome State Fault Refusal :=
  .next (s.onBlk .plc (fun s =>
    let k := k.val
    if s.nbrOn k ∧ (s.nbr k).est then
      (s.remap k).setFld (Reg.BB_NBR_PBER k) F.BB_NBR_PBER_HIGH_CNT 0
    else s))

/-- BB_PH_WRITE: the coupling changes (R284, R288). -/
def execBbPhWrite (ph : BitVec 3) (s : State) : Host.Outcome State Fault Refusal :=
  .next (s.onBlk .plc (fun s => s.bbPhase ph.toNat))

/-- T1S_PHY_SELFCHECK_FAIL: the port stops sending, CONTAIN code 0x02 (R290). -/
def execT1sPhySelfcheckFail (n : Fin 8) (s : State) : Host.Outcome State Fault Refusal :=
  .next (s.onBlk .t1s (fun s => s.t1sFails n.val))

/-- PLCA_BEACON_RX: beacons appear or disappear; a coordinator that sees one it did not send sets DUP_COORD (R277). -/
def execPlcaBeaconRx (n : Fin 8) (seen : Bool) (alien : Bool) (s : State) : Host.Outcome State Fault Refusal :=
  .next (s.onBlk .t1s (fun s =>
    let n := n.val
    if !s.flag (Reg.T1S_CTRL n) F.T1S_CTRL_EN ∨ !s.flag (Reg.T1S_CTRL n) F.T1S_CTRL_PLCA_EN then s
    else
      let was := s.flag (Reg.T1S_STAT n) F.T1S_STAT_PLCA_ST
      let s := s.setFlag (Reg.T1S_STAT n) F.T1S_STAT_PLCA_ST seen
      let s := if was = seen then s else s.line 0x0A (0x10 + n)
      if seen ∧ alien ∧ s.fld (Reg.T1S_PLCA n) F.T1S_PLCA_NODE_ID = 0 then
        (s.setFlag (Reg.T1S_STAT n) F.T1S_STAT_DUP_COORD true).note 0x0A n 0x05
      else s))

end Sys2Proof.Machine
end

