-- ==== Sys2Proof/Machine/PtpCommands.lean ====
section
/-!
DEFINITION. Machine/PtpCommands.lean: the PTP ports and the transparent clock (R239 to R242).
Times are in 2^-16 ns.
-/
namespace Sys2Proof.Machine

def State.ptpPort (s : State) (p : Nat) : PtpPort := Tab.get (fun _ => PtpPort.reset) s.time.port p
def State.setPtpPort (s : State) (p : Nat) (x : PtpPort) : State :=
  s.setTime { s.time with port := Tab.set (fun _ => PtpPort.reset) s.time.port p x }

def State.portState (s : State) (p : Nat) : Nat := s.fld (Reg.PTP_PORT p) F.PTP_PORT_STATE
def portSlave : Nat := 2
def portMaster : Nat := 3
def State.oneStep (s : State) : Bool := s.flag Reg.PTP_CTRL F.PTP_CTRL_ONE_STEP
/-- The message is of the domain of this clock. -/
def State.ptpMine (s : State) (m : PtpMsg) : Bool := m.domain.toNat = s.fld Reg.PTP_CTRL F.PTP_CTRL_DOMAIN
/-- 2^l seconds of a signed 4-bit logarithm, in ticks. -/
def logTicks (l : Nat) : Nat := if l < 8 then ticksPerS * 2 ^ l else ticksPerS / 2 ^ (16 - l)

/-- The time that a message carries. -/
def msgTime (m : PtpMsg) : Int := ((m.sec * 1000000000 + m.ns : Nat) : Int) * 65536
/-- PDELAY of a port, and PDELAY with ASYM. -/
def State.pdelay (s : State) (p : Nat) : Int := (s.rd (Reg.PTP_PDELAY p)).toNat
def State.ingressDelay (s : State) (p : Nat) : Int := s.pdelay p + (s.rd (Reg.PTP_ASYM p)).toInt

/-- TXTS shows the oldest entry of the transmit FIFO; an empty FIFO reads 0. -/
def State.showTxts (s : State) (p : Nat) : State :=
  match (s.ptpPort p).fifo with
  | t :: rest => s.wrNat (Reg.PTP_TXTS p) (t.seq % 2 ^ 16 * 2 ^ 16 + t.kind % 16 * 2 ^ 8 + (rest.length + 1))
  | [] => s.wr (Reg.PTP_TXTS p) 0

/-- Delay request-response (R239): only without the transparent clock. -/
def State.e2e (s : State) : Bool := s.flag Reg.PTP_CTRL F.PTP_CTRL_E2E && !s.flag Reg.PTP_CTRL F.PTP_CTRL_TC_EN

/-- The base that PTP disciplines: the slave port stamps on it (R236); TB[0] where there is none. -/
def State.ptpBase (s : State) : Nat := ([0, 1, 2, 3].find? (fun n => decide ((s.tb n).src = .ptp))).getD 0

/-- The egress stamp `at_` (TB[0], 2^-16 ns) of an event message enters the transmit FIFO in two-step mode (R241). -/
def State.txStamp (s : State) (p kind seq at_ : Nat) : State :=
  if s.oneStep then s
  else
    let x := s.ptpPort p
    if 16 ≤ x.fifo.length then s.note 0x08 p 0x02
    else
      let t : TxStamp := ⟨seq, kind, at_ / tbSecond, at_ % tbSecond / 65536, at_ % 65536⟩
      (s.setPtpPort p { x with fifo := x.fifo ++ [t] }).showTxts p

/-- The message of this clock with the time `t`. -/
def State.ptpMsg (s : State) (kind : Fin 16) (seq : Nat) (two : Bool) (corr t : Int) : PtpMsg :=
  ⟨kind, BitVec.ofNat 8 (s.fld Reg.PTP_CTRL F.PTP_CTRL_DOMAIN), BitVec.ofNat 16 seq, two, corr,
   t.toNat / tbSecond, t.toNat % tbSecond / 65536⟩

/-- The slave port hands an offset to the base that PTP disciplines (R236, R240). -/
def State.ptpOffset (s : State) (θ : Int) : State :=
  [0, 1, 2, 3].foldl (fun s n =>
    if (s.tb n).src = .ptp then s.setTb n { s.tb n with theta := (s.tb n).theta ++ [θ] } else s) s

/-- The offset of a Sync: ingress stamp less origin, corrections and path, in ns toward zero. -/
def State.syncOffset (s : State) (p : Nat) (stamp origin corr : Int) : State :=
  (s.setPtpPort p { s.ptpPort p with path := some (stamp - origin - corr) }).ptpOffset (divZero (stamp - origin - corr - s.ingressDelay p) 65536)

/-- A residence time: a free value, for no rule gives how long a frame stays (R242). -/
def State.residence (s : State) : Int := s.freeNat

/-- A Sync in the transparent clock (R242): corrected itself in one-step mode, else its Follow_Up will be. -/
def State.tcSync (s : State) (p : Nat) (m : PtpMsg) : State :=
  if !s.flag Reg.PTP_CTRL F.PTP_CTRL_TC_EN ∨ (s.ptpPort (1 - p)).failed then s
  else
    let add := s.residence + s.ingressDelay p
    let s := s.took
    if s.oneStep then s.emit (.ptp (1 - p) { m with corr := m.corr + add })
    else
      (s.setTime { s.time with tc := s.time.tc ++ [⟨p, m.seq.toNat, add, s.now⟩] }).emit (.ptp (1 - p) m)

/-- A Delay_Req in the transparent clock (R242): its correctionField takes the residence time and the ingress delay. -/
def State.tcForward (s : State) (p : Nat) (m : PtpMsg) : State :=
  if !s.flag Reg.PTP_CTRL F.PTP_CTRL_TC_EN ∨ (s.ptpPort (1 - p)).failed then s
  else s.took.emit (.ptp (1 - p) { m with corr := m.corr + s.residence + s.ingressDelay p })

/-- The answer to a Pdelay_Req (R240, R241): the turnaround is a free value. -/
def State.pdelayAnswer (s : State) (p : Nat) (m : PtpMsg) (t2 : Int) : State :=
  if (s.ptpPort p).failed then s
  else
    let turn : Int := s.residence
    let s := s.took
    if s.oneStep then s.emit (.ptp p (s.ptpMsg 3 m.seq.toNat false (m.corr + turn) 0))
    else
      let s := (s.emit (.ptp p (s.ptpMsg 3 m.seq.toNat true m.corr t2))).txStamp p 3 m.seq.toNat (t2 + turn).toNat
      s.emit (.ptp p (s.ptpMsg 10 m.seq.toNat true 0 (t2 + turn)))

/-- A master answers a Delay_Req with the time at which it came (R239). -/
def State.delayAnswer (s : State) (p : Nat) (m : PtpMsg) : State :=
  if (s.ptpPort p).failed then s else s.emit (.ptp p (s.ptpMsg 9 m.seq.toNat false m.corr (s.tbVal 0)))

/-- PDELAY of a port is measured (R240). -/
def State.setPdelay (s : State) (p : Nat) (d : Int) : State := s.wr (Reg.PTP_PDELAY p) (BitVec.ofInt 32 (divZero d 2))

/-- A Pdelay_Resp that answers the request sent (R240). -/
def State.pdelayResp (s : State) (p : Nat) (m : PtpMsg) (t4 : Int) : State :=
  let x := s.ptpPort p
  match x.req with
  | some r =>
    if r.seq ≠ m.seq.toNat then s
    else if m.twoStep then s.setPtpPort p { x with resp := some ⟨r.seq, t4 - r.stamp, m.corr - msgTime m⟩, req := none }
    else (s.setPtpPort p { x with req := none }).setPdelay p (t4 - r.stamp - m.corr)
  | none => s

/-- A Delay_Resp that answers the Delay_Req sent (R239): half of the two ways is the delay of the path. -/
def State.delayResp (s : State) (p : Nat) (m : PtpMsg) : State :=
  let x := s.ptpPort p
  match x.req, x.path with
  | some r, some d =>
    if r.seq ≠ m.seq.toNat then s
    else (s.setPtpPort p { x with req := none }).setPdelay p (d + (msgTime m - r.stamp - m.corr))
  | _, _ => s

/-- PTP_EVENT_RX: a PTP event message is stamped at port p: on TB[0], by a slave on the base that it disciplines (R236, R239,
R240, R242). -/
def execPtpEventRx (p : Fin 2) (m : PtpMsg) (s : State) : Host.Outcome State Fault Refusal :=
  .next (s.onBlk .ethernet (fun s =>
    let p := p.val
    let t : Int := s.tbVal 0
    let mine := s.ptpMine m
    let on := mine && decide (s.portState p ≠ 0)
    if m.kind = 0 then
      let s := s.tcSync p m
      if mine ∧ s.portState p = portSlave then
        let t : Int := s.tbVal s.ptpBase
        if m.twoStep then s.setPtpPort p { s.ptpPort p with sync := some ⟨m.seq.toNat, t, m.corr⟩ }
        else s.syncOffset p t (msgTime m) m.corr
      else s
    else if m.kind = 1 then
      let s := s.tcForward p m
      if mine ∧ s.e2e ∧ s.portState p = portMaster then s.delayAnswer p m else s
    else if m.kind = 2 then (if on then s.pdelayAnswer p m t else s)
    else if m.kind = 3 then (if on then s.pdelayResp p m t else s)
    else s))

/-- PTP_SYNC_SEND: a master port sends Sync at the programmed interval (R240, R241). -/
def execPtpSyncSend (p : Fin 2) (s : State) : Host.Outcome State Fault Refusal :=
  .next (s.onBlk .ethernet (fun s =>
    let p := p.val
    let x := s.ptpPort p
    let due := match x.syncAt with
      | some t => t + logTicks (s.fld Reg.PTP_CTRL F.PTP_CTRL_LOG_SYNC)
      | none => 0
    if s.portState p = portMaster ∧ !x.failed ∧ due ≤ s.now then
      let s := s.setPtpPort p { x with seq := (x.seq + 1) % 2 ^ 16, syncAt := some s.now }
      let origin : Int := if s.oneStep then s.tbVal 0 else 0
      (s.emit (.ptp p (s.ptpMsg 0 x.seq (!s.oneStep) 0 origin))).txStamp p 0 x.seq (s.tbVal 0)
    else s))

/-- TC_FOLLOWUP_TIMEOUT: a Sync 100 ms old has had no Follow_Up: counted in TC_LOST (R242). -/
def execTcFollowupTimeout (s : State) : Host.Outcome State Fault Refusal :=
  .next (s.onBlk .ethernet (fun s =>
    let old := s.time.tc.filter (fun e => e.at_ + 100 * ticksPerMs < s.now)
    let s := s.setTime { s.time with tc := s.time.tc.filter (fun e => !(decide (e.at_ + 100 * ticksPerMs < s.now))) }
    s.bump Reg.PTP_TC F.PTP_TC_TC_LOST old.length))

/-- Reading TXTS takes one entry and latches its stamp (R250). -/
def State.txtsTake (s : State) (p : Nat) : State :=
  let x := s.ptpPort p
  match x.fifo with
  | t :: rest =>
    let s := (s.wrNat Reg.PTP_TXTS_NS t.ns).wrNat Reg.PTP_TXTS_S t.sec
    let s := s.wrNat Reg.PTP_TXTS_X (t.frac * 2 ^ 16 + t.sec / 2 ^ 32)
    (s.setPtpPort p { x with fifo := rest }).showTxts p
  | [] => s

/-- PTP_TXTS_READ: reading TXTS takes one entry and latches its stamp (R250). -/
def execPtpTxtsRead (p : Fin 2) (s : State) : Host.Outcome State Fault Refusal :=
  .next (s.onBlk .ethernet (fun s => s.txtsTake p.val))

/-- Firmware writes the state of a port; enabling it again ends a failed self-check (R240, R247). -/
def State.ptpPortWrite (s : State) (p st : Nat) : State :=
  let off := s.portState p = 0
  let s := s.setFld (Reg.PTP_PORT p) F.PTP_PORT_STATE st
  if off ∧ st ≠ 0 ∧ (s.ptpPort p).failed then
    (s.setPtpPort p { s.ptpPort p with failed := false }).recoversCell 0x08 0x03 p
  else s

/-- PTP_PORT_STATE: firmware writes the state of a port; enabling it again ends a failed self-check (R240, R247). -/
def execPtpPortState (p : Fin 2) (st : BitVec 2) (s : State) : Host.Outcome State Fault Refusal :=
  .next (s.onBlk .ethernet (fun s => s.ptpPortWrite p.val st.toNat))

/-- PTP_SELFCHECK_FAIL: the time-stamp unit of a port fails its self-check (R247). -/
def execPtpSelfcheckFail (p : Fin 2) (s : State) : Host.Outcome State Fault Refusal :=
  .next (s.onBlk .ethernet (fun s => (s.setPtpPort p.val { s.ptpPort p.val with failed := true }).contain 0x08 p.val 0x03))

/-- PTP_PDELAY_REQ_SEND: an enabled port sends Pdelay_Req at the programmed interval; with Delay request-response a slave
port sends Delay_Req in its place (R239, R240). -/
def execPtpPdelayReqSend (p : Fin 2) (s : State) : Host.Outcome State Fault Refusal :=
  .next (s.onBlk .ethernet (fun s =>
    let p := p.val
    let x := s.ptpPort p
    let due := match x.pdAt with
      | some t => t + logTicks (s.fld Reg.PTP_CTRL F.PTP_CTRL_LOG_PD)
      | none => 0
    let kind : Fin 16 := if s.e2e then 1 else 2
    if (if s.e2e then s.portState p = portSlave else s.portState p ≠ 0) ∧ !x.failed ∧ due ≤ s.now then
      let r : PtpSeen := ⟨x.seq, s.tbVal (if s.e2e then s.ptpBase else 0), 0⟩
      let s := s.setPtpPort p { x with seq := (x.seq + 1) % 2 ^ 16, pdAt := some s.now, req := some r, resp := none }
      (s.emit (.ptp p (s.ptpMsg kind x.seq false 0 0))).txStamp p kind.val x.seq (s.tbVal 0)
    else s))

/-- A Follow_Up in the transparent clock (R242): corrected with the Sync it matches, unless that is over 100 ms old. -/
def State.tcFollow (s : State) (p : Nat) (m : PtpMsg) : State :=
  if !s.flag Reg.PTP_CTRL F.PTP_CTRL_TC_EN then s
  else
    let hit := fun (e : TcSync) => e.port = p && e.seq = m.seq.toNat
    match s.time.tc.find? hit with
    | some e =>
      let s := s.setTime { s.time with tc := s.time.tc.filter (fun e => !hit e) }
      if e.at_ + 100 * ticksPerMs < s.now then (s.bump Reg.PTP_TC F.PTP_TC_TC_LOST).emit (.ptp (1 - p) m)
      else s.emit (.ptp (1 - p) { m with corr := m.corr + e.add })
    | none => s.emit (.ptp (1 - p) m)

/-- PTP_FOLLOW_UP_RX: a Follow_Up, a Pdelay_Resp_Follow_Up or a Delay_Resp arrives (R239 to R242). -/
def execPtpFollowUpRx (p : Fin 2) (m : PtpMsg) (s : State) : Host.Outcome State Fault Refusal :=
  .next (s.onBlk .ethernet (fun s =>
    let p := p.val
    let x := s.ptpPort p
    let mine := s.ptpMine m
    if m.kind = 8 then
      let s := s.tcFollow p m
      match x.sync with
      | some y =>
        if mine ∧ s.portState p = portSlave ∧ y.seq = m.seq.toNat then
          (s.setPtpPort p { x with sync := none }).syncOffset p y.stamp (msgTime m) (y.corr + m.corr)
        else s
      | none => s
    else if m.kind = 10 then
      match x.resp with
      | some y =>
        if mine ∧ s.portState p ≠ 0 ∧ y.seq = m.seq.toNat then
          (s.setPtpPort p { x with resp := none }).setPdelay p (y.stamp - y.corr - msgTime m - m.corr)
        else s
      | none => s
    else if m.kind = 9 ∧ mine ∧ s.e2e ∧ s.portState p = portSlave then s.delayResp p m
    else s))

end Sys2Proof.Machine
end

