-- ==== Sys2Proof/Machine/SessionCommands.lean ====
section
/-!
DEFINITION. Machine/SessionCommands.lean: the commands of the charging session engine (R296 to R311).
-/
namespace Sys2Proof.Machine

/-- DECODE: the codec's next job, where it is a DECODE (R296, R299, R300). -/
def execDecode (s : State) : Host.Outcome State Fault Refusal :=
  .next (s.runJob 0x01 (fun c k s => s.jobDone c k (s.decodeJob c k)))

/-- ENCODE: the codec's next job, where it is an ENCODE (R299, R306). TOLD is set where a clamping job completes whose clamp
elements are all within THR (R307). -/
def execEncode (s : State) : Host.Outcome State Fault Refusal :=
  .next (s.runJob 0x02 (fun c k s =>
    let r := s.encodeJob c k
    let told := r.status = 0 && s.jobBit c k 13 && (s.clamped c k).1.all (fun x => !exceeds x.1 x.2 (s.thrDa c))
    let s := s.jobDone c k r
    if told then s.setFlag (Reg.SES_STAT c) F.SES_STAT_TOLD true else s))

/-- DIGEST: the codec's next job, where it is a DIGEST (R301). -/
def execDigest (s : State) : Host.Outcome State Fault Refusal :=
  .next (s.runJob 0x03 (fun c k s => s.jobDone c k (s.digestJob c k)))

/-- TLS_ACCEPT: opens a server session (R302, R303). -/
def execTlsAccept (res : TlsOut) (s : State) : Host.Outcome State Fault Refusal := .next (s.tlsJob 0x10 res)

/-- TLS_IN: received bytes (R302). -/
def execTlsIn (res : TlsOut) (s : State) : Host.Outcome State Fault Refusal := .next (s.tlsJob 0x11 res)

/-- TLS_OUT: plaintext into records (R302). -/
def execTlsOut (res : TlsOut) (s : State) : Host.Outcome State Fault Refusal := .next (s.tlsJob 0x12 res)

/-- TLS_CLOSE: close_notify, and the session ends (R302). -/
def execTlsClose (res : TlsOut) (s : State) : Host.Outcome State Fault Refusal := .next (s.tlsJob 0x13 res)

/-- SES_CHANNEL_DISABLE: EN := 0 (R297): no further job is taken, and the TLS session is discarded. -/
def execSesChannelDisable (c : Fin 8) (s : State) : Host.Outcome State Fault Refusal :=
  .next (s.onBlk .session (fun s => s.sesCtrlWrite c.val (s.rd (Reg.SES_CH_CTRL c.val) &&& 0x7FFFFFFF)))

/-- TMR is written (R305): 0 disarms. -/
def State.sesTimer (s : State) (c ms : Nat) : State :=
  let due := if ms = 0 then none else some (s.now + ms * ticksPerMs)
  let s := s.setSes { s.ses with due := Tab.set (fun _ => none) s.ses.due c due }
  (s.wrNat (Reg.SES_TMR c) ms).setFlag (Reg.SES_STAT c) F.SES_STAT_TMR_RUN (ms ≠ 0)

/-- SES_TIMER_ARM: TMR is written (R305): 0 disarms. -/
def execSesTimerArm (c : Fin 8) (ms : BitVec 24) (s : State) : Host.Outcome State Fault Refusal :=
  .next (s.onBlk .session (fun s => s.sesTimer c.val ms.toNat))

/-- SES_TIMER_EXPIRY: the armed timer has run for MS (R305). -/
def execSesTimerExpiry (c : Fin 8) (s : State) : Host.Outcome State Fault Refusal :=
  .next (s.onBlk .session (fun s =>
    if s.reached (Tab.get (fun _ => none) s.ses.due c.val) then
      ((s.setSes { s.ses with due := Tab.set (fun _ => none) s.ses.due c.val none }).setFlag
        (Reg.SES_STAT c.val) F.SES_STAT_TMR_RUN false).line 0x0D (0x20 + c.val)
    else s))

/-- SES_ENGINE_FAULT: a memory error of a cell (R311): corrected, NOTE code 0x01; else the job of the cell ends with status
0x31, CONTAIN code 0x02 or 0x03, a TLS error ends every session, and the cell restarts. -/
def execSesEngineFault (tls : Bool) (double : Bool) (s : State) : Host.Outcome State Fault Refusal :=
  .next (s.onBlk .session (fun s =>
    if !double then s.note 0x0D (bit01 tls) 0x01
    else
      let s := match s.nextJob tls with
        | some (c, k) =>
          if sramRange (s.jobAddr c k) 32 then s.jobDone c k (.fail 0x31 0 0 (s.jobPtype c k)) else s
        | none => s
      let s := if tls then (List.range 8).foldl (fun s c => s.tlsEnd c) s else s
      s.contain 0x0D (bit01 tls) (if tls then 0x03 else 0x02) true))

end Sys2Proof.Machine
end

