-- ==== Sys2Proof/Machine/TimeCommands.lean ====
section
/-!
DEFINITION. Machine/TimeCommands.lean: the commands of the time unit (R230 to R246).
-/
namespace Sys2Proof.Machine

/-- TB_STEP_GO: STEP_CMD is written with GO = 1 by the initiator in `slot` (R232, R235). -/
def execTbStepGo (n : Fin 4) (slot : Fin 19) (abs : Bool) (s : State) : Host.Outcome State Fault Refusal :=
  .next (s.onBlk .time (fun s => s.tbMay n.val slot.val (fun s =>
    (s.setFlag (Reg.TB_STEP_CMD n.val) F.TB_STEP_CMD_ABS abs).tbGo n.val abs)))

/-- TB_STEP_APPLY: the scheduled step of TB[n] applies (R235). -/
def execTbStepApply (n : Fin 4) (s : State) : Host.Outcome State Fault Refusal :=
  .next (s.onBlk .time (fun s => s.tbApply n.val))

/-- TB_RATE_WRITE: RATE of TB[n] is written (R232, R234). -/
def execTbRateWrite (n : Fin 4) (slot : Fin 19) (data : Word) (s : State) : Host.Outcome State Fault Refusal :=
  .next (s.onBlk .time (fun s => s.tbMay n.val slot.val (fun s => s.tbRateWrite n.val data)))

/-- The bits of TB[n].CFG that a register holds: bits [15:12], [6] and [3] are reserved (R250). -/
def tbCfgMask : Word := 0xFFFF0FB7

/-- TB_SRC_WRITE: CFG of TB[n] is written (R231, R232). -/
def execTbSrcWrite (n : Fin 4) (slot : Fin 19) (data : Word) (s : State) : Host.Outcome State Fault Refusal :=
  .next (s.onBlk .time (fun s => s.tbMay n.val slot.val (fun s => s.tbCfgWrite n.val (data &&& tbCfgMask))))

/-- STATE after an offset of magnitude `m` (R236): the first offset of an unlocked base sets LOCKING, LOCK_N in a row below
LOCK_NS lock it, and one of LOCK_NS or more unlocks it. -/
def State.tbFollow236 (s : State) (n m : Nat) : State :=
  let lim := s.fld (Reg.TB_LOCK n) F.TB_LOCK_LOCK_NS
  let st := s.tbState n
  let off := st = tbFree || st = tbHoldover || st = tbHoldExp
  let b := s.tb n
  let rate0 := if st = tbFree then b.rate else b.rate0
  let integ := if st = tbFree then 0 else b.integ
  let cnt := if m < lim then (if off then 0 else b.lockCnt) + 1 else 0
  let s := s.setTb n { b with rate0 := rate0, integ := integ, lockCnt := cnt, holdAt := if off then none else b.holdAt }
  let st := if off then tbLocking else if st = tbLocked ∧ lim ≤ m then tbLocking else st
  let s := s.setTbState n st
  if st = tbLocking ∧ s.fld (Reg.TB_LOCK n) F.TB_LOCK_LOCK_N ≤ cnt then s.setTbState n tbLocked else s

/-- The servo on an offset of θ ns (R236): a step, or the proportional-integral change of RATE. -/
def State.tbServo (s : State) (n : Nat) (θ : Int) : State :=
  let us := s.fld (Reg.TB_CFG n) F.TB_CFG_STEP_US
  if us ≠ 0 ∧ us * 1000 ≤ θ.natAbs then s.setTb n { s.tb n with step := some ⟨false, -θ, s.now + 200 * ticksPerNs⟩ }
  else
    let b := s.tb n
    let t := s.tbInterval n / ticksPerUs
    let g := divZero (θ * 1000000000) t
    let integ := b.integ + divZero g 8
    let rate := clampInt (b.rate0 - 100000000) (b.rate0 + 100000000) (b.rate0 - (divZero g 2 + integ))
    (s.setTb n { b with integ := integ }).tbServoRate n rate

/-- TB_OFFSET: the oldest offset that the slave port or the CAN controller has handed over is taken (R236). -/
def execTbOffset (n : Fin 4) (s : State) : Host.Outcome State Fault Refusal :=
  .next (s.onBlk .time (fun s =>
    let n := n.val
    let b := s.tb n
    match b.theta with
    | θ :: rest =>
      let s := s.setTb n { b with theta := rest, lastOff := s.now }
      if b.src = .ptp ∨ b.src = .can then
        let s := s.wr (Reg.TB_OFFSET n) (BitVec.ofInt 32 θ)
        let s := s.tbFollow236 n θ.natAbs
        let s := if s.flag (Reg.TB_CFG n) F.TB_CFG_SERVO_EN then s.tbServo n θ else s
        s.setTb n { s.tb n with rates := ((s.tb n).rate :: (s.tb n).rates).take 16 }
      else s
    | [] => s))

/-- TB_HOLDOVER: HOLD_TMO × T has passed without an offset (R237). -/
def execTbHoldover (n : Fin 4) (s : State) : Host.Outcome State Fault Refusal :=
  .next (s.onBlk .time (fun s =>
    let n := n.val
    let b := s.tb n
    let st := s.tbState n
    let due := b.lastOff + orDefault (s.fld (Reg.TB_CFG n) F.TB_CFG_HOLD_TMO) 1 * s.tbInterval n
    if (b.src = .ptp ∨ b.src = .can) ∧ (st = tbLocking ∨ st = tbLocked) ∧ due ≤ s.now then
      let s := s.setTb n { b with holdAt := some s.now, lockCnt := 0 }
      let s := if s.flag (Reg.TB_CFG n) F.TB_CFG_SERVO_EN ∧ b.rates ≠ [] then
          s.tbServoRate n (divZero (b.rates.foldl (· + ·) 0) b.rates.length)
        else s
      s.setTbState n tbHoldover
    else s))

/-- TB_HOLD_EXPIRED: HOLD_S in HOLDOVER has passed: NOTE code 0x03 (R237, R247). -/
def execTbHoldExpired (n : Fin 4) (s : State) : Host.Outcome State Fault Refusal :=
  .next (s.onBlk .time (fun s =>
    let n := n.val
    let hold := s.fld (Reg.TB_HOLD n) F.TB_HOLD_HOLD_S
    match (s.tb n).holdAt with
    | some t =>
      if s.tbState n = tbHoldover ∧ hold ≠ 0 ∧ t + hold * ticksPerS ≤ s.now then
        (s.setTbState n tbHoldExp).note 0x09 n 0x03
      else s
    | none => s))

/-- Reading TIME_NS latches TIME_S and TIME_X of the same instant (R250). -/
def State.tbTake (s : State) (n : Nat) : State :=
  let sec := s.tbSec n
  ((s.wrNat (Reg.TB_TIME_NS n) (s.tbSubNs n)).wrNat (Reg.TB_TIME_S n) sec).wrNat (Reg.TB_TIME_X n)
    (s.tbFrac n * 2 ^ 16 + sec / 2 ^ 32)

/-- TB_TIME_READ: reading TIME_NS latches TIME_S and TIME_X of the same instant (R250). -/
def execTbTimeRead (n : Fin 4) (s : State) : Host.Outcome State Fault Refusal :=
  .next (s.onBlk .time (fun s => s.tbTake n.val))

/-- The bits of TOUT[k].CFG that a register holds (R250). -/
def toutCfgMask : Word := 0xE3000000

/-- TOUT_ARM: TOUT[k].CFG is written with EN = 1 (R244, R245). -/
def execToutArm (k : Fin 8) (data : Word) (s : State) : Host.Outcome State Fault Refusal :=
  .next (s.onBlk .time (fun s => s.toutCfgWrite k.val ((data &&& toutCfgMask) ||| 0x80000000)))

/-- TOUT_DISARM: TOUT[k].CFG is written with EN = 0 (R244). -/
def execToutDisarm (k : Fin 8) (data : Word) (s : State) : Host.Outcome State Fault Refusal :=
  .next (s.onBlk .time (fun s => s.toutCfgWrite k.val (data &&& toutCfgMask &&& 0x7FFFFFFF)))

/-- TOUT_ACTIVE: the base reaches the instant at which TOUT[k] goes active (R244). -/
def execToutActive (k : Fin 8) (s : State) : Host.Outcome State Fault Refusal :=
  .next (s.onBlk .time (fun s =>
    match (s.tout k.val).next with
    | some t => if s.toutArmed k.val ∧ t ≤ s.tbNs (s.toutTb k.val) then s.toutRise k.val t else s
    | none => s))

/-- TOUT_INACTIVE: WIDTH ns after its instant TOUT[k] goes inactive (R244). -/
def execToutInactive (k : Fin 8) (s : State) : Host.Outcome State Fault Refusal :=
  .next (s.onBlk .time (fun s =>
    match (s.tout k.val).off with
    | some t =>
      if t ≤ s.tbNs (s.toutTb k.val) then s.setTout k.val { s.tout k.val with active := false, off := none } else s
    | none => s))

/-- The capture runs: EN is 1, and STUCK has not stopped it (R246). -/
def State.tcapRuns (s : State) (k : Nat) : Bool :=
  s.flag (Reg.TCAP_CFG k) F.TCAP_CFG_EN && !s.flag (Reg.TCAP_STAT k) F.TCAP_STAT_STUCK

/-- TCAP_EDGE: an edge at the input of TCAP[k] begins its qualification, or ends that of the opposite edge (R246). -/
def execTcapEdge (k : Fin 8) (rising : Bool) (s : State) : Host.Outcome State Fault Refusal :=
  .next (s.onBlk .time (fun s =>
    let k := k.val
    let x := s.tcap k
    let stepped := (s.tb (s.fld (Reg.TCAP_CFG k) F.TCAP_CFG_TB)).stepCyc = some (s.now / ticksNet)
    if s.tcapRuns k then
      s.setTcap k { x with edge := if rising = x.level then none else some ⟨rising, s.now, stepped⟩ }
    else s.setTcap k { x with edge := none, level := rising }))

/-- The selected edges (R246). -/
def State.tcapSelects (s : State) (k : Nat) (rising : Bool) : Bool :=
  bitOf (s.fld (Reg.TCAP_CFG k) F.TCAP_CFG_EDGE) (if rising then 0 else 1)

/-- A stamp enters the FIFO of TCAP[k], or is discarded where it is full (R246). -/
def State.tcapPush (s : State) (k : Nat) (t : Stamp) : State :=
  let x := s.tcap k
  if 4 ≤ x.fifo.length then (s.setFlag (Reg.TCAP_STAT k) F.TCAP_STAT_OVF true).note 0x09 (0x20 + k) 0x04
  else
    let s := s.setTcap k { x with fifo := x.fifo ++ [t] }
    (s.setFld (Reg.TCAP_STAT k) F.TCAP_STAT_DEPTH (x.fifo.length + 1)).line 0x09 (0x10 + k)

/-- TCAP_STAMP: the level after an edge has lasted FILT × 8 ns: the edge is qualified and stamped (R246). Where the capture no
longer runs, only the level is taken. -/
def execTcapStamp (k : Fin 8) (s : State) : Host.Outcome State Fault Refusal :=
  .next (s.onBlk .time (fun s =>
    let k := k.val
    let x := s.tcap k
    let filt := orDefault (s.fld (Reg.TCAP_CFG k) F.TCAP_CFG_FILT) 1
    match x.edge with
    | some e =>
      if !s.tcapRuns k then s.setTcap k { x with edge := none, level := e.rising }
      else if e.since + filt * 8 * ticksPerNs ≤ s.now then
        let recent := s.now :: x.edges.filter (fun t => s.now < t + ticksPerMs)
        let s := s.setTcap k { x with edge := none, level := e.rising, edges := recent }
        let lim := s.fld (Reg.TCAP_CFG k) F.TCAP_CFG_RATE_LIM
        let n := s.fld (Reg.TCAP_CFG k) F.TCAP_CFG_TB
        let v := (s.tbVal n + tbSpan - filt * 8 * 65536) % tbSpan
        let cyc := s.now / ticksNet
        let stamp : Stamp := ⟨v, e.rising, e.stepped || decide ((s.tb n).stepCyc = some cyc), cyc⟩
        let s := if s.tcapSelects k e.rising then s.tcapPush k stamp else s
        if lim ≠ 0 ∧ lim < recent.length then
          (s.setFlag (Reg.TCAP_STAT k) F.TCAP_STAT_STUCK true).note 0x09 (0x20 + k) 0x04
        else s
      else s
    | none => s))

/-- Reading CAP_NS takes the oldest stamp and latches its parts (R246). -/
def State.tcapTake (s : State) (k : Nat) : State :=
  match (s.tcap k).fifo with
  | t :: rest =>
    let s := (s.setTcap k { s.tcap k with fifo := rest }).setFld (Reg.TCAP_STAT k) F.TCAP_STAT_DEPTH rest.length
    let sec := t.time / tbSecond
    let s := (s.wrNat (Reg.TCAP_NS k) (t.time % tbSecond / 65536)).wrNat (Reg.TCAP_S k) sec
    (s.wrNat (Reg.TCAP_X k) (t.time % 65536 * 2 ^ 16 + sec / 2 ^ 32)).wrNat (Reg.TCAP_F k)
      (bit01 t.rising * 2 + bit01 t.stepped)
  | [] => s

/-- TCAP_READ: reading CAP_NS takes the oldest stamp and latches its parts (R246). -/
def execTcapRead (k : Fin 8) (s : State) : Host.Outcome State Fault Refusal :=
  .next (s.onBlk .time (fun s => s.tcapTake k.val))

end Sys2Proof.Machine
end

