-- ==== Sys2Proof/Machine/ZwidyCommands.lean ====
section
/-!
DEFINITION. Machine/ZwidyCommands.lean: the commands of the Zwidy engine (R197 to R226).
-/
namespace Sys2Proof.Machine

/-- A frame reaches the engine: it goes on along a chain in every role (R197); a role other than Off takes it. -/
def State.zwReceive (s : State) (fwd f : State → State) : State :=
  s.onBlk .zwidy (fun s => let s := fwd s; if s.role = roleOff then s else f s)

/-- What a role other than Off does. -/
def State.zwActive (s : State) (f : State → State) : State :=
  s.onBlk .zwidy (fun s => if s.role = roleOff then s else f s)

/-- DEMAND_SAMPLE: DEM_LEAD_US before a boundary the demands are sampled, the demand frame goes out, and LEADER and STANDBY
take the sample themselves (R204). -/
def execDemandSample (s : State) : Host.Outcome State Fault Refusal :=
  .next (s.zwActive (fun s =>
    let p := s.salPeriod
    let b := (s.tbNs 0 / p + 1) * p
    if s.tbNs 0 + s.fld Reg.ZW_TIME F.ZW_TIME_DEM_LEAD_US * 1000 < b ∨ s.zw.sampled = some b then s
    else
      let s := s.setZw { s.zw with sampled := some b }
      let s := s.setFlag Reg.ZW_ROLE F.ZW_ROLE_READY s.zwReady
      let dem := (List.range 8).map (fun o => (s.demandWord o).toNat)
      let s := (s.line 0x0E 0x01).zwSend false (s.demandPayload b dem)
      s.zwDemands s.cab b dem))

/-- DEMAND_FRAME: it is accepted, or discarded and counted; one of good form that comes back to its sender, or whose target
has been accepted before, is dropped (R197, R202, R204). The quorum may end and begin again at it: the takeover timer follows
(R215). -/
def execDemandFrame (port : Fin 2) (etype : BitVec 16) (payload : List Byte) (s : State) :
    Host.Outcome State Fault Refusal :=
  .next (s.zwReceive (fun s => s.zwForward port.val etype.toNat false payload) (fun s =>
    let p := payload
    let c := fieldOf p 1 1
    let target := s.frameNs (fieldOf p 0x0C 4) (fieldOf p 0x10 4)
    let seen := Tab.get (fun _ => []) s.zw.targets c
    if s.frameOk etype.toNat 1 0x3C p && demandReserved p then
      if c = s.cab || seen.contains target then s
      else if s.epochOk p then
        let s := (s.sawEpoch (fieldOf p 4 4)).zwPassed
        let s := if s.quorum then s else s.setZw { s.zw with takeAt := none }
        let s := s.setZw { s.zw with heard := Tab.set (fun _ => none) s.zw.heard c (some s.now),
                                      crc := Tab.set (fun _ => 0) s.zw.crc c (fieldOf p 0x18 4),
                                      targets := Tab.set (fun _ => []) s.zw.targets c (target :: seen) }
        let f := fieldOf p 3 1
        let peer := 2 ^ 31 + f % 2 * 2 ^ 30 + f / 16 % 2 * 2 ^ 29 + fieldOf p 0x14 1 % 16 * 2 ^ 24 + fieldOf p 2 1 * 2 ^ 16
        let s := (s.wrNat (Reg.ZW_PEER c) peer).zwTakeTimer
        s.zwDemands c target ((List.range 8).map (fun o => fieldOf p (0x1C + 4 * o) 4))
      else s.zwDiscard 0
    else s.zwDiscard 0))

/-- The role after a grant frame of cabinet c and epoch e is accepted (R209, R212, R219): `higher` says that e is above ours. A
leader that has handed over judges by the epoch it handed over with, which the standby's demand frames may have raised. -/
def State.grantRole (s : State) (c e stby : Nat) (higher : Bool) : State :=
  let follow := if stby = s.cab then roleStandby else roleFollower
  match s.zw.swap with
  | some w =>
    if w.bh.isSome ∧ w.epoch < e then
      ((s.endSwap.zwFlag F.ZW_STATUS_SWAP_OK).line 0x0E 0x06).followAs follow
    else if higher ∨ c < s.cab then s.endSwap.followAs follow
    else s
  | none =>
    if s.role = roleLeader ∨ s.zw.claim then (if higher ∨ c < s.cab then s.followAs follow else s)
    else s.followAs follow

/-- GRANT_FRAME (R197, R202, R205, R212 to R214, R218, R219, R225): it is accepted, or discarded and counted; one of good form
that comes back to its sender is dropped. An accepted frame settles the role; a cabinet that is not LEADER takes its set, and
the STANDBY saves the state and, after the frame with SWAP_IN = 1, leads from the handover boundary. -/
def execGrantFrame (port : Fin 2) (etype : BitVec 16) (payload : List Byte) (s : State) :
    Host.Outcome State Fault Refusal :=
  .next (s.zwReceive (fun s => s.zwForward port.val etype.toNat true payload) (fun s =>
    let p := payload
    let c := fieldOf p 1 1
    let good := s.frameOk etype.toNat 2 0x22C p && grantReserved p
    if good && c = s.cab then s
    else
      let x := s.frameSet p
      let last := Tab.get (fun _ => none) s.zw.apply_ c
      let e := fieldOf p 4 4
      let higher := s.epoch < e
      let barred := match s.zw.only with | some w => w.1 ≠ c && decide (e ≤ w.2) | none => false
      let later := match last with | some a => decide (a < x.apply_) | none => true
      if good && s.epochOk p && later && !barred then
        let s := ((s.sawEpoch e).zwPassed).line 0x0E 0x00
        let crc := fieldOf p 0x28 4
        let s := s.setZw { s.zw with apply_ := Tab.set (fun _ => none) s.zw.apply_ c (some x.apply_), got := true, tookLast := true,
                                      miss := 0, takeAt := none, grantAt := some s.now, leaderCrc := some crc,
                                      only := s.zw.only.filter (fun w => decide (e ≤ w.2)) }
        let s := if crc = (s.rd Reg.ZW_CFG_CRC).toNat then s else s.zwFlag F.ZW_STATUS_CFG_MISMATCH
        let stby := fieldOf p 2 1
        let s := s.grantRole c e stby higher
        if s.role = roleLeader then s
        else
          let s := s.setFld Reg.ZW_ROLE F.ZW_ROLE_STBY_CAB stby
          let s := if s.zw.claim then s else s.setFld Reg.ZW_ROLE F.ZW_ROLE_LEADER_CAB c
          let s := (s.setFlag Reg.ZW_ROLE F.ZW_ROLE_DECAY false).setFlag Reg.ZW_ROLE F.ZW_ROLE_HOLD false
          let s := s.setFlag Reg.ZW_ROLE F.ZW_ROLE_READY s.zwReady
          let s := (s.dropDecay).zwTakeSet c e (s.frameNs (fieldOf p 0x14 4) (fieldOf p 0x18 4)) x
          if s.role = roleStandby ∧ !s.zw.claim then
            let s := s.zwSave p
            if fieldOf p 3 1 / 4 % 2 = 1 ∧ fieldOf p 0x1D 1 = 1 then s.claimNext else s
          else s
      else
        let copy := good && last = some x.apply_
        (if copy || barred then s else s.setZw { s.zw with tookLast := false }).zwDiscard 1))

/-- ZW_ENABLE: ZW_CTRL is written (R207, R209). -/
def execZwEnable (data : Word) (s : State) : Host.Outcome State Fault Refusal :=
  .next (s.onBlk .zwidy (fun s => s.zwCtrlWrite data))

/-- LISTEN_TIMEOUT: LISTEN_MS without a grant frame: a cabinet that may lead and hears quorum waits on; else it stays in
LISTEN (R209). -/
def execListenTimeout (s : State) : Host.Outcome State Fault Refusal :=
  .next (s.zwActive (fun s =>
    match s.zw.listenAt with
    | some t =>
      if s.role = roleListen ∧ t + s.listenMs ≤ s.now then
        if s.flag Reg.ZW_CTRL F.ZW_CTRL_LEAD_CAP ∧ s.quorum then
          let w := (15 - s.zwCtrl F.ZW_CTRL_PRIO) * 20 + s.cab
          s.setZw { s.zw with listenAt := none, claimAt := some (s.now + w * ticksPerMs) }
        else s.setZw { s.zw with listenAt := some s.now }
      else s
    | none => s))

/-- CLAIM_WAIT_EXPIRY: with quorum still heard the cabinet claims leadership (R209). -/
def execClaimWaitExpiry (s : State) : Host.Outcome State Fault Refusal :=
  .next (s.zwActive (fun s =>
    if s.role = roleListen ∧ s.reached s.zw.claimAt then
      if s.quorum then s.claimNext else s.setZw { s.zw with claimAt := none, listenAt := some s.now }
    else s))

/-- FOLLOWER_TIMEOUT: a FOLLOWER without a grant frame for LISTEN_MS enters LISTEN (R209). -/
def execFollowerTimeout (s : State) : Host.Outcome State Fault Refusal :=
  .next (s.zwActive (fun s =>
    match s.zw.grantAt with
    | some t => if s.role = roleFollower ∧ t + s.listenMs ≤ s.now ∧ s.zw.swap.isNone then s.enterListen else s
    | none => s))

/-- A swap at boundary b (R219, R220): at b(h) the old leader does not lead; from b(h + 1) without a frame of the new epoch the
swap has failed, and it claims again. -/
def State.swapBoundary (s : State) (b : Nat) : State :=
  match s.zw.swap with
  | some w =>
    match w.bh with
    | some h =>
      if h + s.salPeriod ≤ b then
        let s := (s.endSwap.zwFlag F.ZW_STATUS_SWAP_FAIL).setBit Reg.ZW_SWAP F.ZW_SWAP_EXCL w.cab true
        ((s.note 0x0E 1 0x07).line 0x0E 0x07).claimNext
      else if h ≤ b then s.setRole roleFollower
      else s
    | none => s
  | none => s

/-- A decay set for boundary b (R217). -/
def State.decayBoundary (s : State) (b : Nat) : State :=
  if s.flag Reg.ZW_ROLE F.ZW_ROLE_DECAY ∧ s.role ≠ roleLeader then
    let g := (List.range 8).map (fun o =>
      let i := 8 * s.cab + o
      let rd := if s.outletOn i then s.lfld (Reg.SAL_OUT_RAMP i) F.SAL_OUT_RAMP_RD else 0
      let fl := if s.outletOn i then s.lfld (Reg.SAL_OUT_FLOOR i) F.SAL_OUT_FLOOR_FLOOR else 0
      let step := if rd ≠ 0 then rd else s.fld Reg.ZW_DSTEP F.ZW_DSTEP_DSTEP
      let was := s.zw.decay.getD o 0
      max (min was fl) (was - step))
    let x : GrantSet := { pnum := s.freeNat % 2 ^ 32, apply_ := b + s.salLead, grants := g, decay := true }
    let s := s.took
    s.setSal { s.sal with hand := s.sal.hand ++ [x] } |>.setZw { s.zw with decay := g }
  else s

/-- ZW_BOUNDARY (R211, R213, R215, R217, R219, R220). -/
def execZwBoundary (s : State) : Host.Outcome State Fault Refusal :=
  .next (s.zwActive (fun s =>
    match s.boundaryNow with
    | some b =>
      if s.zw.bound = some b then s
      else
        let s := s.setZw { s.zw with bound := some b }
        let s := (List.range 16).foldl (fun s c => s.bump (Reg.ZW_PEER c) F.ZW_PEER_AGE) s
        let s := if s.zw.winner.isSome then s.setZw { s.zw with only := s.zw.winner, winner := none } else s
        let got := s.zw.got
        let s := s.setZw { s.zw with got := false, miss := if got then 0 else s.zw.miss + 1 }
        let s := if s.quorum then s.zwTakeTimer else s.setZw { s.zw with takeAt := none }
        let s := if s.role = roleLeader then s
          else
            let hold := !got && s.sal.appliedAt.isSome && !s.flag Reg.ZW_ROLE F.ZW_ROLE_DECAY
            s.setFlag Reg.ZW_ROLE F.ZW_ROLE_HOLD hold
        let s := if s.zw.claim ∧ s.zw.leadFrom ≤ b then s.becomeLeader else s
        (s.swapBoundary b).decayBoundary b
    | none => s))

/-- The takeover timer has expired in an earlier CK_NET cycle. -/
def State.takeoverDue (s : State) : Bool :=
  match s.zw.takeAt with | some t => decide (t / ticksNet < s.now / ticksNet) | none => false

/-- TAKEOVER: the takeover timer expires while the STANDBY hears quorum (R215). It acts from the CK_NET cycle after the expiry
on: a leader frame accepted in the cycle of the expiry wins whichever command comes first (R225). -/
def execTakeover (s : State) : Host.Outcome State Fault Refusal :=
  .next (s.zwActive (fun s =>
    if s.role = roleStandby ∧ s.takeoverDue then
      let s := s.setZw { s.zw with takeAt := none, leadFrom := s.nextBoundary }
      if s.quorum then (s.nextEpoch.becomeLeader.zwFlag F.ZW_STATUS_TAKEOVER).note 0x0E 1 0x05
      else s
    else s))

/-- STEP_DOWN: a leader without quorum for MISS_LIM periods plus TAKE_MS (R211). -/
def execStepDown (s : State) : Host.Outcome State Fault Refusal :=
  .next (s.zwActive (fun s =>
    if s.role = roleLeader ∧ !s.quorum ∧ s.quorumEnd + s.missTicks + s.takeMs ≤ s.now then
      (s.enterListen.zwFlag F.ZW_STATUS_STEPDOWN).note 0x0E 1 0x05
    else s))

/-- HOLD_EXPIRY: HOLD_MS after the apply time of the last set applied and no set has arrived: DECAY, NOTE code 0x06 (R217). -/
def execHoldExpiry (s : State) : Host.Outcome State Fault Refusal :=
  .next (s.zwActive (fun s =>
    match s.sal.appliedAt with
    | some t =>
      let quiet := s.zw.wait.isEmpty && s.sal.sets.isEmpty && s.sal.hand.isEmpty
      if s.role ≠ roleLeader ∧ quiet ∧ !s.flag Reg.ZW_ROLE F.ZW_ROLE_DECAY ∧
          t + s.fld Reg.ZW_HOLD F.ZW_HOLD_HOLD_MS * ticksPerMs ≤ s.now then
        let g := (List.range 8).map (fun o => s.fld (Reg.SAL_APPLIED o) F.SAL_APPLIED_GRANT)
        let s := s.setZw { s.zw with decay := g }
        let s := (s.setFlag Reg.ZW_ROLE F.ZW_ROLE_DECAY true).setFlag Reg.ZW_ROLE F.ZW_ROLE_HOLD false
        (s.note 0x0E 1 0x06).line 0x0E 0x05
      else s
    | none => s))

/-- ZW_SWAP is written with GO (R219): on the LEADER with a named standby the countdown starts. -/
def State.zwSwapGo (s : State) (data : Word) : State :=
  let s := s.setFld Reg.ZW_SWAP F.ZW_SWAP_DELAY (F.ZW_SWAP_DELAY.get data)
  if s.role = roleLeader ∧ s.fld Reg.ZW_ROLE F.ZW_ROLE_STBY_CAB ≠ 0xFF ∧ s.zw.swap.isNone then
    (s.setZw { s.zw with swap := some { left := max 2 (F.ZW_SWAP_DELAY.get data), bh := none, cab := 0, epoch := 0 } }).setFlag
      Reg.ZW_SWAP F.ZW_SWAP_GO true
  else s

/-- ZW_SWAP_GO: ZW_SWAP is written with GO (R219): on the LEADER with a named standby the countdown starts. -/
def execZwSwapGo (data : Word) (s : State) : Host.Outcome State Fault Refusal :=
  .next (s.onBlk .zwidy (fun s => s.zwSwapGo data))

/-- ZW_CLR_EXCL: EXCL is empty (R220). -/
def execZwClrExcl (s : State) : Host.Outcome State Fault Refusal :=
  .next (s.onBlk .zwidy (fun s => s.setFld Reg.ZW_SWAP F.ZW_SWAP_EXCL 0))

/-- CLAIM drives this device's ownership line (R222, R223). -/
def State.zwClaim (s : State) (b : Bool) : State :=
  (s.setFlag Reg.ZW_PAIR F.ZW_PAIR_CLAIM b).ownership s.owned

/-- ZW_CLAIM: CLAIM drives this device's ownership line (R222, R223). -/
def execZwClaim (b : Bool) (s : State) : Host.Outcome State Fault Refusal :=
  .next (s.onBlk .zwidy (fun s => s.zwClaim b))

/-- PARTNER_LINE_QUALIFIED: the partner's line has held its level for `us` µs, FILT_US or more (R223): it counts as asserted, or
as released unless STUCK is still set. -/
def execPartnerLineQualified (high : Bool) (us : Nat) (s : State) : Host.Outcome State Fault Refusal :=
  .next (s.onBlk .zwidy (fun s =>
    if us < orDefault (s.fld Reg.ZW_PAIR F.ZW_PAIR_FILT_US) 1 then s
    else
    let was := s.owned
    let s := s.setZw { s.zw with partner := high }
    (s.setFlag Reg.ZW_PAIR F.ZW_PAIR_PARTNER (high || s.flag Reg.ZW_PAIR F.ZW_PAIR_STUCK)).ownership was))

/-- PARTNER_LINE_STUCK: the partner's line has shown `edges` rising edges within 1 s, more than RATE_LIM (R223). -/
def execPartnerLineStuck (edges : Nat) (s : State) : Host.Outcome State Fault Refusal :=
  .next (s.onBlk .zwidy (fun s =>
    if s.fld Reg.ZW_PAIR F.ZW_PAIR_RATE_LIM = 0 ∨ edges ≤ s.fld Reg.ZW_PAIR F.ZW_PAIR_RATE_LIM then s
    else
      let was := s.owned
      let s := (s.setFlag Reg.ZW_PAIR F.ZW_PAIR_STUCK true).setZw { s.zw with partner := true }
      ((s.setFlag Reg.ZW_PAIR F.ZW_PAIR_PARTNER true).note 0x0E 0 0x08).ownership was))

/-- 1 is written to STUCK (R223). -/
def State.zwUnstick (s : State) : State :=
  let was := s.owned
  let s := s.setFlag Reg.ZW_PAIR F.ZW_PAIR_STUCK false
  (s.setFlag Reg.ZW_PAIR F.ZW_PAIR_PARTNER s.zw.partner).ownership was

/-- ZW_PAIR_STUCK_CLEAR: 1 is written to STUCK (R223). -/
def execZwPairStuckClear (s : State) : Host.Outcome State Fault Refusal :=
  .next (s.onBlk .zwidy (fun s => s.zwUnstick))

/-- ZW_BUFFER_ECC: an error in a frame buffer (R226): corrected, NOTE code 0x01; or the frame is dropped, CONTAIN code
0x09. -/
def execZwBufferEcc (grant : Bool) (double : Bool) (s : State) : Host.Outcome State Fault Refusal :=
  .next (s.onBlk .zwidy (fun s =>
    let cell := bit01 grant
    if double then (s.setZw { s.zw with lost := true, tookLast := s.zw.tookLast && !grant }).contain 0x0E cell 0x09 else s.note 0x0E cell 0x01))

end Sys2Proof.Machine
end

