-- ==== Sys2Proof/Machine/WriteLink.lean ====
section
/-!
DEFINITION. Machine/WriteLink.lean: fabric writes of the registers of the Link region: Ethernet and PTP, the time unit,
T1S, PLC and pilot sensing, CAN, the session engine and Zwidy. Each function takes the address of a register that
exists and the word written; `slot` is the initiator's fabric slot (R18).
-/
namespace Sys2Proof.Machine

/-! Time unit (R229 to R250) -/

/-- A register of TB[n], `o` its offset. CFG, RATE and the step registers of TB[3] take writes of slot 8 only (R232). -/
def State.tbWrite (s : State) (n o slot a : Nat) (v : Word) : State :=
  if o = 0x00 then s.tbMay n slot (fun s => s.tbCfgWrite n (v &&& tbCfgMask))
  else if o = 0x08 then s.tbMay n slot (fun s => s.tbRateWrite n v)
  else if 0x0C ≤ o ∧ o ≤ 0x14 then s.tbMay n slot (fun s => s.wrAccess a v)
  else if o = 0x18 then s.tbMay n slot (fun s =>
    let s := s.wrAccess a v
    if F.TB_STEP_CMD_GO.get v = 1 then s.tbGo n (F.TB_STEP_CMD_ABS.get v = 1) else s)
  else s.wrAccess a v

/-- A register of TOUT[k]: START, PERIOD and WIDTH of an armed output stay, CFG_IGN (R244). -/
def State.toutWrite (s : State) (k o a : Nat) (v : Word) : State :=
  if o = 0 then s.toutCfgWrite k (v &&& toutCfgMask)
  else if o < 0x14 ∧ s.toutArmed k then s.setFlag (Reg.TOUT_STAT k) F.TOUT_STAT_CFG_IGN true
  else s.wrAccess a v

def State.timeWrite (s : State) (slot a : Nat) (v : Word) : State :=
  let o := a - 0x20100000
  if o < 0x100 then s.tbWrite (o / 0x40) (o % 0x40) slot a v
  else if 0x200 ≤ o ∧ o < 0x300 then s.toutWrite ((o - 0x200) / 0x20) (o % 0x20) a v
  else s.wrAccess a v

/-- Ethernet and PTP. -/
def State.ethWrite (s : State) (a : Nat) (v : Word) : State :=
  if a = Reg.PTP_PORT 0 then s.ptpPortWrite 0 (v.toNat % 4)
  else if a = Reg.PTP_PORT 1 then s.ptpPortWrite 1 (v.toNat % 4)
  else s.wrAccess a v

/-! T1S and PLC (R266 to R293) -/

/-- RX_CFG or TX_CFG of link l: EN going to 1 sets HEAD and TAIL to 0 (R293). -/
def State.ringCfgWrite (s : State) (l : Nat) (tx : Bool) (v : Word) : State :=
  let a := if tx then txCfg l else rxCfg l
  let was := s.flag a F.T1S_RX_CFG_EN
  let s := s.wrAccess a v
  let en := s.flag a F.T1S_RX_CFG_EN
  if en ∧ was then s else s.ringEnable l tx en

/-- A register that every link has at offset `o` of its registers. -/
def State.linkRegWrite (s : State) (l o a : Nat) (v : Word) : State :=
  if o = 0x64 then s.ringCfgWrite l false v
  else if o = 0x6C then s.ringCfgWrite l true v
  else s.wrAccess a v

def State.t1sWrite (s : State) (a : Nat) (v : Word) : State :=
  let n := (a - 0x20200000) / 0x100
  if a % 0x100 = 0 then s.t1sCtrlWrite n v else s.linkRegWrite n (a % 0x100) a v

/-- OLK[o].STAT: UNSTABLE stays while the limit is still exceeded (R272). -/
def State.olkStatWrite (s : State) (o : Nat) (v : Word) : State :=
  let s := s.wrAccess (Reg.OLK_STAT o) (F.OLK_STAT_UNSTABLE.put v 0)
  if F.OLK_STAT_UNSTABLE.get v = 1 then s.pilotStable o else s

def State.pilotWrite (s : State) (a : Nat) (v : Word) : State :=
  let o := (a - 0x20300000) / 0x20
  if a % 0x20 = 0x04 then s.pilotDrive o v
  else if a % 0x20 = 0x08 then s.olkStatWrite o v
  else s.wrAccess a v

def State.gpWrite (s : State) (a : Nat) (v : Word) : State :=
  let n := (a - 0x20301000) / 0x100
  if a = Reg.GP_ATT_CTRL n then
    (if F.GP_ATT_CTRL_START.get v = 1 then s.attStart n v else s.wrAccess a v)
  else s.linkRegWrite (8 + n) (a % 0x100) a v

def State.bbWrite (s : State) (a : Nat) (v : Word) : State :=
  if a = Reg.BB_CTRL then
    let ph := F.BB_CTRL_PH.get v
    (s.wrAccess a (F.BB_CTRL_PH.put v (s.fld a F.BB_CTRL_PH))).bbPhase ph
  else s.linkRegWrite 16 (a - 0x20302000) a v

def State.plcWrite (s : State) (a : Nat) (v : Word) : State :=
  if a < 0x20300100 then s.pilotWrite a v
  else if a < 0x20301000 then s.wrAccess a v
  else if a < 0x20302000 then s.gpWrite a v
  else s.bbWrite a v

/-! CAN (R481 to R500) -/

/-- Registers that only a controller with EN = 0 takes (R483): timing, filters, time messages. -/
def canFixed (o : Nat) : Bool :=
  (0x04 ≤ o && o ≤ 0x0C) || o = 0x20 || o = 0x40 || o = 0x44 || 0x80 ≤ o

/-- A register of CAN[n], `o` its offset. -/
def State.canRegWrite (s : State) (n o a : Nat) (v : Word) : State :=
  if o = 0 then s.canCtrlWrite n (v &&& canCtrlMask)
  else if canFixed o ∧ s.flag (Reg.CAN_CTRL n) F.CAN_CTRL_EN then s.setFlag (Reg.CAN_STAT n) F.CAN_STAT_CFG_IGN true
  else if o = 0x14 then
    let s := s.wrAccess a (F.CAN_STAT_STUCK.put v 0)
    if F.CAN_STAT_STUCK.get v = 1 then s.canUnstick n false else s
  else if o = 0x24 then s.canRequest n (BitVec.ofNat 3 v.toNat)
  else if o = 0x28 then s.canCancel n (BitVec.ofNat 3 v.toNat)
  else if o = 0x30 ∨ o = 0x34 then s.canRelease n ((o - 0x30) / 4) (v.toNat % 16)
  else s.wrAccess a v

def State.canWrite (s : State) (a : Nat) (v : Word) : State :=
  let o := a - 0x20400000
  if o < 0x800 then s.canRegWrite (o / 0x200) (o % 0x200) a v else s.wrAccess a v

/-! Session engine (R294 to R313) -/

def State.sessionWrite (s : State) (a : Nat) (v : Word) : State :=
  if a < 0x20500100 then s.wrAccess a v
  else
    let c := (a - 0x20500100) / 0x40
    let o := a % 0x40
    if o = 0 then s.sesCtrlWrite c v
    else if o = 0x10 then s.jobCfgWrite c v
    else if o = 0x14 then s.sesTimer c (v.toNat % 2 ^ 24)
    else s.wrAccess a v

/-! Zwidy (R195 to R228) -/

/-- ZW_SWAP: GO, CLR_EXCL and DELAY (R219, R220). -/
def State.zwSwapWrite (s : State) (v : Word) : State :=
  let s := if F.ZW_SWAP_CLR_EXCL.get v = 1 then s.setFld Reg.ZW_SWAP F.ZW_SWAP_EXCL 0 else s
  if F.ZW_SWAP_GO.get v = 1 then s.zwSwapGo v
  else s.setFld Reg.ZW_SWAP F.ZW_SWAP_DELAY (F.ZW_SWAP_DELAY.get v)

/-- ZW_PAIR: the filter, the flags, and CLAIM (R222, R223). -/
def State.zwPairWrite (s : State) (v : Word) : State :=
  let claim := s.fld Reg.ZW_PAIR F.ZW_PAIR_CLAIM
  let s := s.wrAccess Reg.ZW_PAIR (F.ZW_PAIR_CLAIM.put (F.ZW_PAIR_STUCK.put v 0) claim)
  let s := if F.ZW_PAIR_STUCK.get v = 1 then s.zwUnstick else s
  s.zwClaim (F.ZW_PAIR_CLAIM.get v = 1)

def State.zwidyWrite (s : State) (a : Nat) (v : Word) : State :=
  if a = Reg.ZW_CTRL then s.zwCtrlWrite v
  else if a = Reg.ZW_SWAP then s.zwSwapWrite v
  else if a = Reg.ZW_PAIR then s.zwPairWrite v
  else if Reg.ZW_DEM 0 ≤ a ∧ a ≤ Reg.ZW_DEM 7 then s.zwDemWrite ((a - Reg.ZW_DEM 0) / 4) (v &&& 0x80FFFFFF)
  else s.wrAccess a v

/-- A write in the windows of the Link region. -/
def State.linkWrite (s : State) (slot a : Nat) (v : Word) : State :=
  match a / 0x100000 with
  | 0x200 => s.ethWrite a v
  | 0x201 => s.timeWrite slot a v
  | 0x202 => s.t1sWrite a v
  | 0x203 => s.plcWrite a v
  | 0x204 => s.canWrite a v
  | 0x205 => s.sessionWrite a v
  | _ => s.zwidyWrite a v

end Sys2Proof.Machine
end

