-- ==== Sys2Proof/Machine/LoomCommands.lean ====
section
/-!
DEFINITION. Machine/LoomCommands.lean: the commands of Loom, but for LOOM_TRIGGER (R84 to R108).
-/
namespace Sys2Proof.Machine

/-- LOOM_RUN: starts and stops channels together (R90). -/
def execLoomRun (data : BitVec 24) (s : State) : Host.Outcome State Fault Refusal :=
  .next (s.onBlk .loom (fun s => s.loomRunWrite data.toNat))

/-- LOOM_BOUNDARY: the counter of a channel that has its own returns to 0 (R84, R88). -/
def execLoomBoundary (n : Fin 24) (s : State) : Host.Outcome State Fault Refusal :=
  .next (s.onBlk .loom (fun s =>
    let x := s.ch n.val
    if x.run ∧ (s.chSync n.val).isNone ∧ x.t0 + s.chPer n.val ≤ s.now then s.loomBoundary n.val (x.t0 + s.chPer n.val)
    else s))

/-- LOOM_MIDPOINT: CNT reaches PERIOD ÷ 2, a commit event of the channel and of its followers (R84, R91). -/
def execLoomMidpoint (n : Fin 24) (s : State) : Host.Outcome State Fault Refusal :=
  .next (s.onBlk .loom (fun s =>
    let x := s.ch n.val
    let t := x.t0 + s.chPer n.val / 2
    if x.run ∧ (s.chSync n.val).isNone ∧ !x.mid ∧ t ≤ s.now then
      let s := (s.setCh n.val { x with mid := true }).chMidpoint n.val t
      s.eachCh (fun s m => if s.chSync m = some n.val ∧ (s.ch m).run then s.chMidpoint m t else s)
    else s))

/-- LOOM_REF_EDGE: REF changes level (R86). -/
def execLoomRefEdge (n : Fin 24) (s : State) : Host.Outcome State Fault Refusal :=
  .next (s.onBlk .loom (fun s => s.refSync n.val))

/-- LOOM_DEAD_TIME_END: the output turns on, or its pulse, shorter than MIN_PULSE, is dropped and counted; one whose REF edge
came before its dead time ended has no width and is dropped too (R87). -/
def execLoomDeadTimeEnd (n : Fin 24) (s : State) : Host.Outcome State Fault Refusal :=
  .next (s.onBlk .loom (fun s =>
    let gone := (s.ch n.val).missed.filter (fun d => d.1 ≤ s.now)
    let s := s.setCh n.val { s.ch n.val with missed := (s.ch n.val).missed.filter (fun d => s.now < d.1) }
    let s := gone.foldl (fun s d => s.dropPulse n.val d.2) s
    let x := s.ch n.val
    match x.dead with
    | some (t, high) =>
      if t ≤ s.now then
        let s := s.setCh n.val { x with dead := none }
        if !x.run || s.tripped n.val then s
        else
          let min := F.LOOM_CH_MINPW_MIN_PULSE.get (s.lv (Reg.LOOM_CH_MINPW n.val))
          let drop := match s.nextEdge n.val with
            | some w => w = 0 || w < min || s.refNow n.val ≠ high
            | none => false
          if drop then s.dropPulse n.val high
          else
            let y := if high then { s.ch n.val with outH := true } else { s.ch n.val with outL := true }
            s.setCh n.val (y.blanked s.now (s.blankNs n.val))
      else s
    | none => s))

/-- LOOM_TRIP_SOURCE: the level of a pin, qualified, or of a comparator; a source that is active trips every running
channel that masks it (R98, R99). The level of a pin is what it is while Loom is held in reset too: it counts once the reset
ends (R102). -/
def execLoomTripSource (k : Fin 64) (level : Bool) (s : State) : Host.Outcome State Fault Refusal :=
  .next (
    let was := s.srcActive k.val
    let s := if k.val < 16 then s.setLoom { s.loom with pins := withBit s.loom.pins k.val level } else s
    s.onBlk .loom (fun s => (if k.val < 16 then s.showPins else s).srcMoved k.val was))

/-- LOOM_BLANK_END: the blanking window of the channel ends; a crossing inside it now acts (R98). -/
def execLoomBlankEnd (n : Fin 24) (s : State) : Host.Outcome State Fault Refusal :=
  .next (s.onBlk .loom (fun s =>
    if s.reached (s.ch n.val).blank then (s.setCh n.val { s.ch n.val with blank := none }).tripsOf n.val else s))

/-- LOOM_CLR_TRIP: requests the release of LATCH and HIZ trips (R101). -/
def execLoomClrTrip (n : Fin 24) (s : State) : Host.Outcome State Fault Refusal :=
  .next (s.onBlk .loom (fun s => s.clrTrip n.val))

/-- LOOM_CLR_DROP: the dropped-pulse counters clear (R110). -/
def execLoomClrDrop (n : Fin 24) (s : State) : Host.Outcome State Fault Refusal :=
  .next (s.onBlk .loom (fun s => s.wr (Reg.LOOM_CH_DROP_CNT n.val) 0))

/-- LOOM_SOURCE_STUCK: the source has been active for longer than STUCK_T, or has asserted more than RATE_LIM times
within the window (R102). -/
def execLoomSourceStuck (k : Fin 64) (s : State) : Host.Outcome State Fault Refusal :=
  .next (s.onBlk .loom (fun s =>
    let x := s.src k.val
    let st := s.fld (Reg.LOOM_TSRC k.val) F.LOOM_TSRC_STUCK_T
    let lim := s.fld (Reg.LOOM_TSRC k.val) F.LOOM_TSRC_RATE_LIM
    let win := orDefault (s.fld Reg.LOOM_RATE_WIN F.LOOM_RATE_WIN_WIN) 1 * ticksPerUs
    let long := st ≠ 0 && (match x.since with | some t => t + st * (10 * ticksPerUs) < s.now | none => false)
    let often := lim ≠ 0 && lim < (x.times.filter (fun t => s.now < t + win)).length
    if long || often then (s.setFlag (Reg.LOOM_TSRC k.val) F.LOOM_TSRC_STUCK true).tripAll k.val else s))

/-- LOOM_STUCK_CLEAR: STUCK is written 1 (R102). -/
def execLoomStuckClear (k : Fin 64) (s : State) : Host.Outcome State Fault Refusal :=
  .next (s.onBlk .loom (fun s => s.stuckClear k.val))

/-- LOOM_STALE_TRIP: the count of boundaries without a written commit has reached STALE_LIM: LATCH, source 64 (R95). DESIGN
CHOICE: a stale trip that is cleared with no new write does not come again before a commit that takes one (log entry 140). -/
def execLoomStaleTrip (n : Fin 24) (s : State) : Host.Outcome State Fault Refusal :=
  .next (s.onBlk .loom (fun s =>
    let x := s.ch n.val
    let lim := s.fld (Reg.LOOM_CH_CTRL n.val) F.LOOM_CH_CTRL_STALE_LIM
    if x.run ∧ lim ≠ 0 ∧ lim ≤ x.stale ∧ !x.staleDone then (s.setCh n.val { x with staleDone := true }).trip n.val 64
    else s))

/-- LOOM_GUPD_ARM: the strobe is armed for the channels (R94). -/
def execLoomGupdArm (mask : BitVec 24) (s : State) : Host.Outcome State Fault Refusal :=
  .next (s.onBlk .loom (fun s => s.gupdArm mask.toNat))

/-- LOOM_LOCK: OUTCFG and the trip-source configuration are read-only until PD_LOOM is next powered on (R104). -/
def execLoomLock (s : State) : Host.Outcome State Fault Refusal :=
  .next (s.onBlk .loom (fun s => s.setFlag Reg.LOOM_LOCK F.LOOM_LOCK_LOCK true))

/-- LOOM_CLOCK_LOSS: every output goes to its off state, and REGION code 0x05 is raised (R107, R108). -/
def execLoomClockLoss (s : State) : Host.Outcome State Fault Refusal :=
  .next (s.onBlk .loom (fun s => (s.eachCh (fun s n => s.chFault n)).region 0x00 0xFF 0x05))

/-- LOOM_READBACK_FAULT: the channel stops, with CONTAIN code 0x03 (R108). -/
def execLoomReadbackFault (n : Fin 24) (s : State) : Host.Outcome State Fault Refusal :=
  .next (s.onBlk .loom (fun s => (s.chFault n.val).contain 0x00 n.val 0x03))

/-- LOOM_CONFIG_ECC: a single-bit error is corrected, NOTE code 0x01; an uncorrectable one stops the channel, CONTAIN code
0x02, until every register of the channel has been written (R108). -/
def execLoomConfigEcc (n : Fin 24) (double : Bool) (s : State) : Host.Outcome State Fault Refusal :=
  .next (s.onBlk .loom (fun s =>
    if double then
      let s := s.chFault n.val
      (s.setCh n.val { s.ch n.val with todo := channelRegs n.val }).contain 0x00 n.val 0x02
    else s.note 0x00 n.val 0x01))

/-- LOOM_RECALIBRATE: the interpolator is recalibrated after drift, NOTE code 0x04 (R108). -/
def execLoomRecalibrate (s : State) : Host.Outcome State Fault Refusal :=
  .next (s.onBlk .loom (fun s => s.note 0x00 0xFF 0x04))

end Sys2Proof.Machine
end

