-- ==== Sys2Proof/Machine/TwillCommands.lean ====
section
/-!
DEFINITION. Machine/TwillCommands.lean: the Twill instructions and the events of its engines and set-point inputs
(R111 to R148).
-/
namespace Sys2Proof.Machine

/-- TW_OVERRUN_LIMIT: OVR_LIM overruns of the slot in consecutive trigger periods clear its EN, CONTAIN code 0x05 (R122). -/
def execTwOverrunLimit (e : Fin 4) (sl : Fin 8) (s : State) : Host.Outcome State Fault Refusal :=
  .next (s.onBlk .twill (fun s =>
    let lim := s.fld (Reg.TW_CTRL e.val) F.TW_CTRL_OVR_LIM
    let x := s.te e.val
    if lim ≠ 0 ∧ lim ≤ Tab.get (fun _ => 0) x.ovr sl.val then
      ((s.setTe e.val { x with ovr := Tab.set (fun _ => 0) x.ovr sl.val 0,
                               limitSlot := if s.twOpens then sl.val else x.limitSlot }).setFlag
        (Reg.TW_SLOT_CFG e.val sl.val) F.TW_SLOT_CFG_EN false).contain 0x01 e.val 0x05
    else s))

/-- TW_SLOT_START: an idle engine starts its lowest pending slot (R113, R121, R129, R130, R136, R140): the closed
coefficient sets, the bank, the SP registers and the presets take effect, and the ports are sampled. -/
def execTwSlotStart (e : Fin 4) (s : State) : Host.Outcome State Fault Refusal :=
  .next (s.onBlk .twill (fun s =>
    let e := e.val
    let pend := s.fld (Reg.TW_STATUS e) F.TW_STATUS_PEND
    match (List.range 8).find? (fun i => bitOf pend i) with
    | some sl =>
      if s.twRuns e ∧ (s.te e).run.isNone then
        let x := s.te e
        let s := if s.flag (Reg.TW_CCOMMIT e) F.TW_CCOMMIT_GO then
            (x.coefSet.foldl (fun s p => s.wrLive p.1 p.2) s).setFlag (Reg.TW_CCOMMIT e) F.TW_CCOMMIT_GO false
          else s
        let s := (List.range 16).foldl (fun s k => s.commit (Reg.TW_SP e k)) s
        let s := s.commit (Reg.TW_FF_CTRL e)
        let s := s.setFld (Reg.TW_FF_CTRL e) F.TW_FF_CTRL_ACTIVE (s.lfld (Reg.TW_FF_CTRL e) F.TW_FF_CTRL_BANK)
        let x := (List.range 8).foldl (fun x r =>
          match Tab.get (fun _ => none) x.preset r with | some v => x.setRamp r v | none => x) x
        let s := s.setTe e { x with preset := [], coefSet := [] }
        let ports := portList.foldl (fun t p => Tab.set (fun _ => 0) t p (s.livePort e p)) []
        let s := s.setTe e
          { s.te e with port := ports, pc := s.fld (Reg.TW_SLOT_CFG e sl) F.TW_SLOT_CFG_ENTRY,
                        run := some { slot := sl, trig := Tab.get (fun _ => 0) x.trigAt sl, cyc := 0, wait := none } }
        ((s.setBit (Reg.TW_STATUS e) F.TW_STATUS_PEND sl false).setFlag (Reg.TW_STATUS e) F.TW_STATUS_BUSY true).setFld
          (Reg.TW_STATUS e) F.TW_STATUS_CUR_SLOT sl
      else s
    | none => s))

/-- NOP (R118). The command carries the word at issue: 0 is NOP, and every other word that it can carry is illegal (R117): an
instruction has a command of its own. -/
def execTwNop (e : Fin 4) (w : BitVec 64) (s : State) : Host.Outcome State Fault Refusal :=
  if w ≠ 0 && twLegal w then .fault .illFormed else .next (twill e (w = 0) 1 s id)

/-- END: the run ends, line 8e + s; its length is recorded; a run within its budget recovers code 0x03 (R118, R121,
R122, R145). -/
def execTwEnd (e : Fin 4) (s : State) : Host.Outcome State Fault Refusal :=
  .next (twill e true 1 s (fun s =>
    match (s.te e.val).run with
    | some r =>
      let x := s.te e.val
      let s := s.setTe e.val { x with ovr := Tab.set (fun _ => 0) x.ovr r.slot 0 }
      let s := ((s.runLength e.val r.slot r.cyc).twEnds e.val).line 0x01 (8 * e.val + r.slot)
      if x.abortSlot = r.slot then s.recoversCell 0x01 0x03 e.val else s
    | none => s))

/-- LDA: a[d] := sext(D[x]) (R118). -/
def execLda (e : Fin 4) (d : Fin 16) (x : BitVec 12) (s : State) : Host.Outcome State Fault Refusal :=
  .next (twAcc e d (inDataSpace x.toNat) 1 s (fun s => s.data e.val x.toNat))

/-- STA: M[x] := sat32(a[s]); an address outside M is illegal (R115, R117, R118). -/
def execSta (e : Fin 4) (x : BitVec 12) (sa : Fin 16) (s : State) : Host.Outcome State Fault Refusal :=
  .next (twill e (x.toNat < 0x200) 1 s (fun s =>
    let v := (s.te e.val).a sa.val
    let s := s.setTe e.val { s.te e.val with sta := some (Reg.TW_M e.val x.toNat, s.now) }
    (s.wr (Reg.TW_M e.val x.toNat) (BitVec.ofInt 32 (sat32 v))).twSat e.val v))

/-- MULC: a[d] := p(D[x], k) (R114, R118). -/
def execMulc (e : Fin 4) (d : Fin 16) (x : BitVec 12) (k : BitVec 8) (s : State) : Host.Outcome State Fault Refusal :=
  .next (twAcc e d (inDataSpace x.toNat) 1 s (fun s => s.prod e.val (s.data e.val x.toNat) k.toNat))

/-- MACC: a[d] := a[d] + p(D[x], k) (R114, R118). -/
def execMacc (e : Fin 4) (d : Fin 16) (x : BitVec 12) (k : BitVec 8) (s : State) : Host.Outcome State Fault Refusal :=
  .next (twAcc e d (inDataSpace x.toNat) 1 s (fun s =>
    (s.te e.val).a d.val + s.prod e.val (s.data e.val x.toNat) k.toNat))

/-- MSUC: a[d] := a[d] − p(D[x], k) (R114, R118). -/
def execMsuc (e : Fin 4) (d : Fin 16) (x : BitVec 12) (k : BitVec 8) (s : State) : Host.Outcome State Fault Refusal :=
  .next (twAcc e d (inDataSpace x.toNat) 1 s (fun s =>
    (s.te e.val).a d.val - s.prod e.val (s.data e.val x.toNat) k.toNat))

/-- An accumulator product: p(sat32(a[s]), k), a clamp of which sets Q. -/
def twAccProd (e : Fin 4) (d sa : Fin 16) (k : BitVec 8) (s : State) (f : Int → Int → Int) : State :=
  twill e true 1 s (fun s =>
    let v := (s.te e.val).a sa.val
    (s.twSat e.val v).twPut e.val d.val (f ((s.te e.val).a d.val) (s.prod e.val (sat32 v) k.toNat)))

/-- MULA: a[d] := p(sat32(a[s]), k) (R114, R118). -/
def execMula (e : Fin 4) (d sa : Fin 16) (k : BitVec 8) (s : State) : Host.Outcome State Fault Refusal :=
  .next (twAccProd e d sa k s (fun _ p => p))

/-- MACA: a[d] := a[d] + p(sat32(a[s]), k) (R114, R118). -/
def execMaca (e : Fin 4) (d sa : Fin 16) (k : BitVec 8) (s : State) : Host.Outcome State Fault Refusal :=
  .next (twAccProd e d sa k s (fun a p => a + p))

/-- MSUA: a[d] := a[d] − p(sat32(a[s]), k) (R114, R118). -/
def execMsua (e : Fin 4) (d sa : Fin 16) (k : BitVec 8) (s : State) : Host.Outcome State Fault Refusal :=
  .next (twAccProd e d sa k s (fun a p => a - p))

/-- ADDA: a[d] := a[s] + a[t] (R118). -/
def execAdda (e : Fin 4) (d sa ta : Fin 16) (s : State) : Host.Outcome State Fault Refusal :=
  .next (twAcc e d true 1 s (fun s => (s.te e.val).a sa.val + (s.te e.val).a ta.val))

/-- SUBA: a[d] := a[s] − a[t] (R118). -/
def execSuba (e : Fin 4) (d sa ta : Fin 16) (s : State) : Host.Outcome State Fault Refusal :=
  .next (twAcc e d true 1 s (fun s => (s.te e.val).a sa.val - (s.te e.val).a ta.val))

/-- MOVA: a[d] := a[s] (R118). -/
def execMova (e : Fin 4) (d sa : Fin 16) (s : State) : Host.Outcome State Fault Refusal :=
  .next (twAcc e d true 1 s (fun s => (s.te e.val).a sa.val))

/-- NEGA: a[d] := −a[s] (R115, R118). -/
def execNega (e : Fin 4) (d sa : Fin 16) (s : State) : Host.Outcome State Fault Refusal :=
  .next (twAcc e d true 1 s (fun s => -(s.te e.val).a sa.val))

/-- ABSA: a[d] := |a[s]| (R115, R118). -/
def execAbsa (e : Fin 4) (d sa : Fin 16) (s : State) : Host.Outcome State Fault Refusal :=
  .next (twAcc e d true 1 s (fun s => ((s.te e.val).a sa.val).natAbs))

/-- MINA: a[d] := the lesser of a[s] and a[t] (R118). -/
def execMina (e : Fin 4) (d sa ta : Fin 16) (s : State) : Host.Outcome State Fault Refusal :=
  .next (twAcc e d true 1 s (fun s => min ((s.te e.val).a sa.val) ((s.te e.val).a ta.val)))

/-- MAXA: a[d] := the greater of a[s] and a[t] (R118). -/
def execMaxa (e : Fin 4) (d sa ta : Fin 16) (s : State) : Host.Outcome State Fault Refusal :=
  .next (twAcc e d true 1 s (fun s => max ((s.te e.val).a sa.val) ((s.te e.val).a ta.val)))

/-- CLMP: a[d] := min(max(a[d], a[s]), a[t]); a[t] wins (R118). -/
def execClmp (e : Fin 4) (d sa ta : Fin 16) (s : State) : Host.Outcome State Fault Refusal :=
  .next (twAcc e d true 1 s (fun s =>
    min (max ((s.te e.val).a d.val) ((s.te e.val).a sa.val)) ((s.te e.val).a ta.val)))

/-- SHA: a[s] × 2^k, or a[s] ÷ 2^−k toward zero; k from −32 to 31 (R117, R118). -/
def execSha (e : Fin 4) (d sa : Fin 16) (k : BitVec 8) (s : State) : Host.Outcome State Fault Refusal :=
  .next (twAcc e d (-32 ≤ k.toInt ∧ k.toInt ≤ 31) 1 s (fun s =>
    let v := (s.te e.val).a sa.val
    if 0 ≤ k.toInt then v * (2 ^ k.toInt.toNat : Nat) else divZero v (2 ^ (-k.toInt).toNat : Nat)))

/-- DIVA: (a[s] × 2^31) ÷ sext(D[x]), toward zero; by zero the limit on the side of a[s], and DZ (R118). -/
def execDiva (e : Fin 4) (d sa : Fin 16) (x : BitVec 12) (s : State) : Host.Outcome State Fault Refusal :=
  .next (twill e (inDataSpace x.toNat) 24 s (fun s =>
    let v := (s.te e.val).a sa.val
    let y := s.data e.val x.toNat
    if y = 0 then
      (s.setTe e.val ((s.te e.val).setA d.val (if v < 0 then 0x8000000000000000 else 0x7FFFFFFFFFFFFFFF))).twFlag e.val
        F.TW_STATUS_DZ
    else s.twPut e.val d.val (divZero (v * 2147483648) y)))

/-- The least of the candidates from index j on: value and index; equal values keep the lower index (R127). -/
def leastOf : List Int → Nat → Int × Nat → Int × Nat
  | [], _, best => best
  | v :: t, j, best => leastOf t (j + 1) (if v < best.1 then (v, j) else best)

/-- MINSEL: the least candidate goes forward, each tracked loser's integrator is pulled back (R127). -/
def execMinsel (e : Fin 4) (d b : Fin 16) (n : Fin 8) (tm : BitVec 6) (x : BitVec 12) (k : BitVec 8) (s : State) :
    Host.Outcome State Fault Refusal :=
  .next (twill e (minselLegal b.val n.val tm.toNat x.toNat k.toNat) (n.val + 1) s (fun s =>
    let cand := (List.range n.val).map (fun j => (s.te e.val).a (b.val + j))
    let best := leastOf (cand.drop 1) 1 (cand.headD 0, 0)
    let s := (List.range n.val).foldl (fun s j =>
      if j ≠ best.2 ∧ tm.getLsbD j then
        let diff := cand.getD j 0 - best.1
        let m := (s.rd (Reg.TW_M e.val (x.toNat + j))).toInt - s.prod e.val (sat32 diff) (k.toNat + j)
        ((s.wr (Reg.TW_M e.val (x.toNat + j)) (BitVec.ofInt 32 (sat32 m))).twSat e.val diff).twSat e.val m
      else s) s
    let y := (s.te e.val).setA d.val (BitVec.ofInt 64 best.1)
    s.setTe e.val { y with selIdx := best.2 }))

/-- FFL: a[d] := sext(ff(k, D[x])) (R118, R128). -/
def execFfl (e : Fin 4) (d : Fin 16) (x : BitVec 12) (k : BitVec 8) (s : State) : Host.Outcome State Fault Refusal :=
  .next (twAcc e d (inDataSpace x.toNat && k.toNat < 4) 2 s (fun s =>
    s.ff e.val k.toNat (BitVec.ofInt 32 (s.data e.val x.toNat))))

/-- FFA: a[d] := a[d] + sext(ff(k, D[x])) (R118, R128). -/
def execFfa (e : Fin 4) (d : Fin 16) (x : BitVec 12) (k : BitVec 8) (s : State) : Host.Outcome State Fault Refusal :=
  .next (twAcc e d (inDataSpace x.toNat && k.toNat < 4) 2 s (fun s =>
    (s.te e.val).a d.val + s.ff e.val k.toNat (BitVec.ofInt 32 (s.data e.val x.toNat))))

/-- The port that a ramp's SRC and IDX select (R135). -/
def rampSource (src idx : Nat) : Option Nat :=
  if src = 0 then some (0x250 + idx)
  else if src = 1 ∧ idx < 8 then some (0x238 + idx)
  else if src = 2 ∧ idx < 4 then some (0x230 + idx)
  else if src = 3 ∧ idx < 4 then some (0x234 + idx)
  else if src = 4 ∧ idx < 8 then some (0x240 + idx)
  else none

/-- One step from `r` toward `t`, at most `up` or `dn`; a rate of 0 reaches it (R135). -/
def rampStep (r t : Int) (up dn : Nat) : Int :=
  if r < t then (if up = 0 then t else min t (r + up)) else (if dn = 0 then t else max t (r - dn))

/-- RAMP: ramp k moves toward its source's sampled value, then a[d] := sext(RREF[k]) (R118, R135, R136). -/
def execRamp (e : Fin 4) (d : Fin 16) (k : BitVec 8) (s : State) : Host.Outcome State Fault Refusal :=
  .next (twill e (k.toNat < 8) 1 s (fun s =>
    let r := k.toNat
    let cfg := Reg.TW_RMP_CFG e.val r
    let s := match rampSource (s.fld cfg F.TW_RMP_CFG_SRC) (s.fld cfg F.TW_RMP_CFG_IDX) with
      | some p =>
        if s.flag cfg F.TW_RMP_CFG_EN then
          let v := rampStep ((s.te e.val).ramp r).toInt (s.data e.val p)
            (s.fld (Reg.TW_RMP_RATE_UP e.val r) F.TW_RMP_RATE_UP_STEP)
            (s.fld (Reg.TW_RMP_RATE_DN e.val r) F.TW_RMP_RATE_DN_STEP)
          s.setTe e.val ((s.te e.val).setRamp r (BitVec.ofInt 32 v))
        else s
      | none => s
    s.twPut e.val d.val ((s.te e.val).ramp r).toInt))

/-- The engine owns the channel (R138). -/
def State.owns (s : State) (e ch : Nat) : Bool := bitOf (s.fld (Reg.TW_OWN e) F.TW_OWN_CH) ch

/-- OUT: the clamped accumulator goes to a shadow register of an owned channel; to any other it is discarded and sets
OWN_ERR (R137, R138). -/
def execTwOut (e : Fin 4) (sa : Fin 16) (ch : Fin 32) (sel : Fin 4) (s : State) : Host.Outcome State Fault Refusal :=
  .next (twill e (ch.val < 24) 1 s (fun s =>
    let v := (clampInt 0 0xFFFFFF (divZero ((s.te e.val).a sa.val) 2147483648)).toNat
    if !s.owns e.val ch.val then s.twFlag e.val F.TW_STATUS_OWN_ERR
    else if !s.up 0x00 then s
    else
      let a := if sel.val = 0 then Reg.LOOM_CH_DUTY ch.val else if sel.val = 1 then Reg.LOOM_CH_PHASE ch.val
        else if sel.val = 2 then Reg.LOOM_CH_PERIOD ch.val else Reg.LOOM_CH_TRIG ch.val 0
      let w := if sel.val = 3 then F.LOOM_CH_TRIG_POS.put (s.rd a) v else BitVec.ofNat 32 v
      (s.shadowWrite ch.val a w true).chWritten ch.val a))

/-- ARM: arms the strobe for the owned channels of the mask; others set OWN_ERR (R118, R138). -/
def execTwArm (e : Fin 4) (mask : BitVec 24) (s : State) : Host.Outcome State Fault Refusal :=
  .next (twill e true 1 s (fun s =>
    let own := (List.range 24).filter (fun n => bitOf mask.toNat n && s.owns e.val n)
    let bad := (List.range 24).any (fun n => bitOf mask.toNat n && !s.owns e.val n)
    let s := if s.up 0x00 then s.gupdArm (own.foldl (fun m n => withBit m n true) 0) else s
    if bad then s.twFlag e.val F.TW_STATUS_OWN_ERR else s))

/-- EVT: raises line 0x40 + 8e + n; the bits of mask above n are unused, hence 0 (R117, R118). -/
def execEvt (e : Fin 4) (mask : BitVec 24) (s : State) : Host.Outcome State Fault Refusal :=
  .next (twill e (mask.toNat < 8) 1 s (fun s => s.line 0x01 (0x40 + 8 * e.val + mask.toNat)))

/-- BR: to tgt where the condition holds, 2 cycles, else on, 1 cycle (R118). -/
def execBr (e : Fin 4) (cond : Fin 8) (sa ta : Fin 16) (tgt : Fin 512) (s : State) : Host.Outcome State Fault Refusal :=
  let a := (s.te e.val).a sa.val
  let b := (s.te e.val).a ta.val
  let taken : Bool := match cond.val with
    | 0 => true | 1 => a = b | 2 => a ≠ b | 3 => a < b | 4 => b ≤ a | 5 => a < 0 | _ => 0 ≤ a
  .next (twill e (brLegal cond.val sa.val ta.val) (if taken then 2 else 1) s (fun s =>
    if taken then s.setTe e.val { s.te e.val with pc := tgt.val } else s))

/-- WAITIN: waits until the port is fresh for the run (R118, R119). -/
def execWaitin (e : Fin 4) (x : BitVec 12) (s : State) : Host.Outcome State Fault Refusal :=
  .next (twill e (0x200 ≤ x.toNat && x.toNat < 0x230) 1 s (fun s =>
    let y := s.te e.val
    let n := x.toNat - 0x200
    s.setTe e.val { y with run := y.run.map (fun r =>
      if s.ainFresh e.val n r then r else { r with wait := some (n, s.now) }) }))

/-- TW_BUDGET_EXPIRY: a run that reaches BUDGET cycles without END is ended: ABORT, CONTAIN code 0x03 (R124, R145). -/
def execTwBudgetExpiry (e : Fin 4) (s : State) : Host.Outcome State Fault Refusal :=
  .next (s.onBlk .twill (fun s =>
    match (s.te e.val).run with
    | some r =>
      if s.budget e.val r.slot ≤ s.runCycles r then
        let s := if s.twOpens then s.setTe e.val { s.te e.val with abortSlot := r.slot } else s
        let s := ((s.runLength e.val r.slot (s.budget e.val r.slot)).twEnds e.val).twFlag e.val F.TW_STATUS_ABORT
        s.contain 0x01 e.val 0x03
      else s
    | none => s))

/-- TW_RUN: RUN is written (R126). -/
def execTwRun (e : Fin 4) (run : Bool) (s : State) : Host.Outcome State Fault Refusal :=
  .next (s.onBlk .twill (fun s => s.twRunWrite e.val run))

/-- TW_COEF_COMMIT: GO is written 1 (R140). -/
def execTwCoefCommit (e : Fin 4) (s : State) : Host.Outcome State Fault Refusal :=
  .next (s.onBlk .twill (fun s => s.coefCommit e.val))

/-- PRESET of ramp r is written (R136). -/
def State.presetWrite (s : State) (e r : Nat) (v : Word) : State :=
  s.setTe e { s.te e with preset := Tab.set (fun _ => none) (s.te e).preset r (some v) }

/-- TW_RAMP_PRESET: RREF takes the value at the next slot start (R136). -/
def execTwRampPreset (e : Fin 4) (r : Fin 8) (value : Word) (s : State) : Host.Outcome State Fault Refusal :=
  .next (s.onBlk .twill (fun s => s.presetWrite e.val r.val value))

/-- TW_OWN_WRITE: takes channels, but those of another engine (R138). -/
def execTwOwnWrite (e : Fin 4) (data : BitVec 24) (s : State) : Host.Outcome State Fault Refusal :=
  .next (s.onBlk .twill (fun s => s.ownWrite e.val data.toNat))

/-- TW_SLOT_CLEAR: OVR_CNT and MAX_CYC clear (R148). -/
def execTwSlotClear (e : Fin 4) (sl : Fin 8) (s : State) : Host.Outcome State Fault Refusal :=
  .next (s.onBlk .twill (fun s => s.slotClear e.val sl.val))

/-- TW_MEMORY_ECC: a single-bit error is corrected, NOTE code 0x01; an uncorrectable one stops the engine, CONTAIN code
0x06, line 0x60 + e (R145, R146). `addr` is the register address of the word. -/
def execTwMemoryEcc (e : Fin 4) (addr : Word) (double : Bool) (s : State) : Host.Outcome State Fault Refusal :=
  .next (s.onBlk .twill (fun s =>
    if double then
      let s := s.twStop e.val
      let s := if s.twOpens then s.setTe e.val { s.te e.val with badWord := some addr.toNat } else s
      (s.contain 0x01 e.val 0x06).line 0x01 (0x60 + e.val)
    else s.note 0x01 e.val 0x01))

/-- AIN_SP_SAMPLE: an analogue set-point conversion (R133): out of range the port holds, RANGE and NOTE code 0x07; in range
it passes the filter. -/
def execAinSpSample (j : Fin 4) (code : BitVec 12) (s : State) : Host.Outcome State Fault Refusal :=
  .next (s.onBlk .twill (fun s =>
    let cfg := Reg.AINSP_CFG j.val
    if !s.flag cfg F.AINSP_CFG_EN then s
    else if code.toNat < s.fld cfg F.AINSP_CFG_LO ∨ s.fld cfg F.AINSP_CFG_HI < code.toNat then
      (s.setBit Reg.AINSP_STAT F.AINSP_STAT_RANGE j.val true).note 0x01 (0x10 + j.val) 0x07
    else
      let tau := s.fld cfg F.AINSP_CFG_TAU
      let v := if tau = 0 then code.toNat * 2 ^ 19
        else lowPassStep tau (Tab.get (fun _ => 0) s.twill.ain j.val) (code.toNat * 2 ^ 19)
      s.setTwill { s.twill with ain := Tab.set (fun _ => 0) s.twill.ain j.val v }))

/-- The highest valid frequency of PIN_SP[j] in Hz (R148). -/
def State.fmax (s : State) (j : Nat) : Nat := clampNat 1 10000 (s.fld (Reg.PINSP_CFG j) F.PINSP_CFG_FMAX) * 100

/-- PIN_SP_EDGE: a rising edge (R134). One that comes within FILT × 10 ns of the last belongs to a pulse that is too short, and
is ignored. Edges closer than 1 ÷ FMAX set OVER, NOTE code 0x08, and the port holds; else the count and the frequency f ÷ FMAX
in Q1.31 are updated, of which MODE shows one. -/
def execPinSpEdge (j : Fin 4) (s : State) : Host.Outcome State Fault Refusal :=
  .next (s.onBlk .twill (fun s =>
    let cfg := Reg.PINSP_CFG j.val
    let x := s.pulse j.val
    let short : Bool := match x.last with
      | some t => s.now < t + s.fld cfg F.PINSP_CFG_FILT * (10 * ticksPerNs)
      | none => false
    if !s.flag cfg F.PINSP_CFG_EN || short then s
    else
      let ns := match x.last with | some t => some ((s.now - t) / ticksPerNs) | none => none
      let s := (s.setPulse j.val { x with last := some s.now, since := s.now }).setBit Reg.PINSP_STAT F.PINSP_STAT_LOST
        j.val false
      let fast : Bool := match ns with | some n => n * s.fmax j.val < 1000000000 | none => false
      if fast then (s.setBit Reg.PINSP_STAT F.PINSP_STAT_OVER j.val true).note 0x01 (0x10 + j.val) 0x08
      else
        let s := s.setPulse j.val { s.pulse j.val with count := x.count + 1 }
        match ns with
        | some n =>
          let v := min 0x7FFFFFFF (2147483648 * 1000000000 / (n * s.fmax j.val))
          s.setPulse j.val { s.pulse j.val with freq := BitVec.ofNat 32 v }
        | none => s))

/-- PIN_SP_TIMEOUT: no qualified edge within TMO µs sets LOST, and in frequency mode the port reads 0 (R134). -/
def execPinSpTimeout (j : Fin 4) (s : State) : Host.Outcome State Fault Refusal :=
  .next (s.onBlk .twill (fun s =>
    let cfg := Reg.PINSP_CFG j.val
    let tmo := s.fld (Reg.PINSP_TMO j.val) F.PINSP_TMO_TMO
    let x := s.pulse j.val
    if s.flag cfg F.PINSP_CFG_EN ∧ tmo ≠ 0 ∧ x.since + tmo * ticksPerUs ≤ s.now then
      let s := s.setBit Reg.PINSP_STAT F.PINSP_STAT_LOST j.val true
      s.setPulse j.val { x with freq := 0 }
    else s))

end Sys2Proof.Machine
end

