-- ==== Sys2Proof/Machine/WriteLoom.lean ====
section
/-!
DEFINITION. Machine/WriteLoom.lean: fabric writes of the registers of Loom and Twill (R110, R148).
Each function takes the address of a register that exists, that no lock closes, and the word written.
-/
namespace Sys2Proof.Machine

/-- A write of LOOM_CH[n].CTRL: ignored while RUN[n] is 1, CTRL_IGN (R91, R110). -/
def State.chCtrlWrite (s : State) (n : Nat) (v : Word) : State :=
  if s.runBit n then s.setChFlag n F.LOOM_CH_STATUS_CTRL_IGN true
  else ((s.wrAccess (Reg.LOOM_CH_CTRL n) v).syncErrs).chWritten n (Reg.LOOM_CH_CTRL n)

/-- A fabric write of a shadow register of channel n. One that meets an OUT to it in the same cycle leaves the value of the
OUT, which in TRIG[0] is POS (R137, R139). -/
def State.chShadowWrite (s : State) (n a : Nat) (v : Word) : State :=
  if s.outKept n a then
    (if a = Reg.LOOM_CH_TRIG n 0 then s.shadowWrite n a (F.LOOM_CH_TRIG_POS.put v (F.LOOM_CH_TRIG_POS.get (s.rd a))) false
     else s).chWritten n a
  else (s.shadowWrite n a v false).chWritten n a

/-- A register of Loom channel n at `a`. -/
def State.loomChWrite (s : State) (n a : Nat) (v : Word) : State :=
  if a = Reg.LOOM_CH_CTRL n then s.chCtrlWrite n v
  else if (shadowRegs n).contains a then
    match regRow a with
    | some r => s.chShadowWrite n a (r.written (s.rd a) v)
    | none => s
  else if a = Reg.LOOM_CH_CMD n then
    let s := if v.getLsbD 1 then s.wr (Reg.LOOM_CH_DROP_CNT n) 0 else s
    if v.getLsbD 0 then s.clrTrip n else s
  else if a = Reg.LOOM_CH_STATUS n then s.wrAccess a v
  else
    let s := (s.wrAccess a v).chWritten n a
    if a = Reg.LOOM_CH_OUTCFG n ∨ a = Reg.LOOM_CH_BLANK n then s else s.tripsOf n

/-- LOOM_TSRC[k]: LOOM_LOCK closes its configuration but not the clear of its flags (R102, R104). -/
def State.tsrcWrite (s : State) (k : Nat) (v : Word) : State :=
  let a := Reg.LOOM_TSRC k
  let was := s.srcActive k
  let s := if F.LOOM_TSRC_REFUSED.get v = 1 then s.setFlag a F.LOOM_TSRC_REFUSED false else s
  let s := if F.LOOM_TSRC_STUCK.get v = 1 then s.stuckClear k else s
  if s.flag Reg.LOOM_LOCK F.LOOM_LOCK_LOCK then s
  else
    let flags := (0 : Word)
    ((s.wrAccess a (F.LOOM_TSRC_REFUSED.put (F.LOOM_TSRC_STUCK.put v flags.toNat) flags.toNat)).showPins).srcMoved k was

/-- A write in the window of Loom. -/
def State.loomWrite (s : State) (a : Nat) (v : Word) : State :=
  if a < 0x10002000 then s.loomChWrite ((a - 0x10000000) / 0x100) a v
  else if a = Reg.LOOM_RUN then s.loomRunWrite (v.toNat % 2 ^ 24)
  else if a = Reg.LOOM_GUPD then s.gupdArm (v.toNat % 2 ^ 24)
  else if 0x10003000 ≤ a ∧ a < 0x10003100 then s.tsrcWrite ((a - 0x10003000) / 4) v
  else s.wrAccess a v

/-- TW_CTRL of engine e (R126, R148). -/
def State.twCtrlWrite (s : State) (e : Nat) (v : Word) : State :=
  (s.setFld (Reg.TW_CTRL e) F.TW_CTRL_OVR_LIM (F.TW_CTRL_OVR_LIM.get v)).twRunWrite e (v.getLsbD 31)

/-- TW_SLOT[s].CFG: CLR clears the slot's records; a slot enabled again recovers code 0x05 (R145, R148). -/
def State.slotCfgWrite (s : State) (e sl : Nat) (v : Word) : State :=
  let a := Reg.TW_SLOT_CFG e sl
  let was := s.flag a F.TW_SLOT_CFG_EN
  let s := s.wrAccess a v
  let s := if F.TW_SLOT_CFG_CLR.get v = 1 then s.slotClear e sl else s
  if !was ∧ s.flag a F.TW_SLOT_CFG_EN ∧ (s.te e).limitSlot = sl then s.recoversCell 0x01 0x05 e else s

/-- PINSP_CFG[j]: an input that is enabled begins its timeout. -/
def State.pinspWrite (s : State) (j : Nat) (v : Word) : State :=
  let was := s.flag (Reg.PINSP_CFG j) F.PINSP_CFG_EN
  let s := s.wrAccess (Reg.PINSP_CFG j) v
  if !was ∧ s.flag (Reg.PINSP_CFG j) F.PINSP_CFG_EN then
    s.setPulse j { s.pulse j with last := none, since := s.now }
  else s

/-- A register of Twill engine e, `o` its offset in the engine's window. -/
def State.engineWrite (s : State) (e o a : Nat) (v : Word) : State :=
  if o = 0 then s.twCtrlWrite e v
  else if o = 8 then s.ownWrite e (v.toNat % 2 ^ 24)
  else if o = 0xC then (if v.getLsbD 0 then s.coefCommit e else s)
  else if 0x100 ≤ o ∧ o < 0x140 ∧ o % 8 = 0 then s.slotCfgWrite e ((o - 0x100) / 8) v
  else if 0x200 ≤ o ∧ o < 0x280 ∧ o % 16 = 0xC then s.presetWrite e ((o - 0x200) / 16) v
  else if 0x800 ≤ o ∧ o < 0x1000 then s.coefWrite e a (if o % 8 = 4 then BitVec.ofNat 32 (v.toNat % 32) else v)
  else if 0x1000 ≤ o then (if s.staKept e a then s else s.wrAccess a v).twRewritten e a
  else s.wrAccess a v

/-- A write in the window of Twill. -/
def State.twillWrite (s : State) (a : Nat) (v : Word) : State :=
  if a < 0x10140000 then s.engineWrite ((a - 0x10100000) / 0x10000) ((a - 0x10100000) % 0x10000) a v
  else if 0x10140020 ≤ a ∧ a < 0x10140030 then s.pinspWrite ((a - 0x10140020) / 4) v
  else s.wrAccess a v

end Sys2Proof.Machine
end

