-- ==== Sys2Proof/Machine/SenseOps.lean ====
section
/-!
DEFINITION. Machine/SenseOps.lean: the operations of converter sensing that commands share: sampling, results, precharge
and weld tracking (R150 to R164).
-/
namespace Sys2Proof.Machine

/-- One conversion of the firing that `r` belongs to less is outstanding; the last raises its group's event (R151, R167). -/
def State.groupDone (s : State) (r : Sample) : State :=
  let n := Tab.get (fun _ => 0) s.sense.left r.shot
  let s := s.setSense { s.sense with left := Tab.set (fun _ => 0) s.sense.left r.shot (n - 1) }
  if n = 1 then s.line 0x02 r.grp else s

/-- ADC a samples now (R150, R152). -/
def State.sampleNow (s : State) (a : Nat) (r : Sample) : State :=
  let x := s.adc a
  s.setAdc a { x with last := some s.now, busy := x.busy ++ [{ r with at_ := s.now }] }

/-- The ADC accepts a sample: 100 ns have passed since its last (R150). -/
def State.adcFree (s : State) (a : Nat) : Bool :=
  match (s.adc a).last with | some t => t + 100 * ticksPerNs ≤ s.now | none => true

/-- A request to ADC a is dropped, with NOTE code 0x03 (R152). -/
def State.adcDrop (s : State) (a : Nat) (r : Sample) : State :=
  (((s.bump (Reg.ADC_STAT a) F.ADC_STAT_DROP).line 0x02 (0x10 + a)).note 0x02 a 0x03).groupDone r

/-- A request that ADC a cannot sample now waits, or is dropped where one waits already; of two of the same instant the lower
group waits (R152). -/
def State.adcWaits (s : State) (a : Nat) (r : Sample) : State :=
  match (s.adc a).waiting with
  | none => (s.bump (Reg.ADC_STAT a) F.ADC_STAT_DEFER).setAdc a { s.adc a with waiting := some r }
  | some w =>
    if w.asked = r.asked ∧ r.grp < w.grp then (s.setAdc a { s.adc a with waiting := some r }).adcDrop a w
    else s.adcDrop a r

/-- A group's request to ADC a (R152): it samples, takes the sample of a higher group that called in the same instant, waits, or
is dropped. -/
def State.adcRequest (s : State) (a : Nat) (r : Sample) : State :=
  let x := s.adc a
  match x.busy.getLast? with
  | some b =>
    if x.last = some s.now ∧ b.asked = s.now ∧ r.grp < b.grp then
      (s.setAdc a { x with busy := x.busy.dropLast ++ [{ r with at_ := s.now }] }).adcWaits a b
    else if s.adcFree a ∧ x.waiting.isNone then s.sampleNow a r
    else s.adcWaits a r
  | none => if s.adcFree a ∧ x.waiting.isNone then s.sampleNow a r else s.adcWaits a r

/-- Group g fires (R151): each enabled ADC that it selects takes its request. -/
def State.groupFire (s : State) (g : Nat) : State :=
  let adcs := (List.range 8).filter (fun a => s.selOf g a < 7 && s.adcEn a)
  let n := s.sense.shots
  let s := s.setSense { s.sense with shots := n + 1, left := Tab.set (fun _ => 0) s.sense.left n adcs.length }
  adcs.foldl (fun s a => s.adcRequest a { grp := g, pos := s.selOf g a, at_ := 0, asked := s.now, shot := n }) s

/-- Loom's trigger t fires the groups bound to it, the lower group first (R151, R152). -/
def State.groupTriggers (s : State) (t : Nat) : State :=
  if s.up 0x02 then
    (List.range 16).foldl (fun s g =>
      if s.flag (Reg.SG_CFG g) F.SG_CFG_EN && s.fld (Reg.SG_CFG g) F.SG_CFG_TRIG = t && s.groupValid g then s.groupFire g
      else s) s
  else s

/-- PRE_OK (R164): V_DC at PRE_PCT % of V_SRC or more, both inputs present and fresh; its rise is line 0x31. -/
def State.preOk (s : State) : Bool :=
  let r := Reg.SNS_DCL
  let src := s.fld r F.SNS_DCL_SRC_AIN
  let dc := s.fld r F.SNS_DCL_DC_AIN
  s.flag r F.SNS_DCL_EN && !s.stale src && !s.stale dc &&
    (clampNat 50 100 (s.fld r F.SNS_DCL_PRE_PCT) : Int) * s.ainRes src ≤ 100 * s.ainRes dc
def State.preSync (s : State) : State :=
  let was := s.flag Reg.SNS_DCL F.SNS_DCL_PRE_OK
  let is := s.preOk
  let s := s.setFlag Reg.SNS_DCL F.SNS_DCL_PRE_OK is
  if is && !was then s.line 0x02 0x31 else s

/-- The inputs that a weld check compares, where its target can be checked (R163). -/
def State.weldInputs (s : State) (outlet : Bool) (t : Nat) : Option (Nat × Nat) :=
  if outlet then
    if t < 8 && s.outlOn t then some (s.inVB t, s.inVV t) else none
  else if s.xpActs t && s.modOn (s.xpMod t) && s.outlOn (s.xpOut t) then some (s.inVM (s.xpMod t), s.inVB (s.xpOut t))
  else none

/-- The target is commanded closed. -/
def State.weldClosed (s : State) (outlet : Bool) (t : Nat) : Bool := if outlet then s.energ t else s.xpOn t

/-- A weld check in progress looks at its target: commanded closed, no longer checkable or stale makes it an ERROR; a new
result of one of its inputs moves the least and the greatest |ΔV| (R163). -/
def State.weldTrack (s : State) (n : Option Nat) : State :=
  match s.sense.weld with
  | some w =>
    match s.weldInputs w.outlet w.tgt with
    | some (a, b) =>
      let err := w.err || s.weldClosed w.outlet w.tgt || s.stale a || s.stale b
      let w := { w with err := err }
      let w := if n = some a ∨ n = some b then
          let d := (s.ainRes a - s.ainRes b).natAbs
          { w with lo := some (match w.lo with | some l => min l d | none => d), hi := max w.hi d }
        else w
      s.setSense { s.sense with weld := some w }
    | none => s.setSense { s.sense with weld := some { w with err := true } }
  | none => s

/-- The result word of a code (R153). -/
def ainWord (code ofs gain : Nat) : Int := divZero (((code : Int) - signed 16 ofs) * gain) 8

/-- Input n has a result (R153): code, word, SAT and group are written, and whatever waits for it sees it. -/
def State.ainWrite (s : State) (n : Nat) (r : Sample) (code : Nat) : State :=
  let w := ainWord code (s.fld (Reg.AIN_CAL_OFS n) F.AIN_CAL_OFS_OFS) (s.fld (Reg.AIN_CAL_GAIN n) F.AIN_CAL_GAIN_GAIN)
  let s := (s.wr (Reg.AIN_RES n) (BitVec.ofInt 32 (sat32 w))).wrNat (Reg.AIN_RAW n)
    (bit01 (sat32 w ≠ w) * 2 ^ 31 + r.grp * 2 ^ 16 + code)
  let s := s.setAin n { wrote := some s.now, sampled := r.at_ }
  ((s.ainReadable n).preSync).weldTrack (some n)

/-- Comparator k is active or not: its register, Loom's status bit, and its trip source (R155). -/
def State.cmpSet (s : State) (k : Nat) (b : Bool) : State :=
  let was := s.srcActive (16 + k)
  let s := s.setFlag (Reg.CMP_CFG k) F.CMP_CFG_ACT b
  if s.up 0x00 then
    let s := if k < 32 then s.setBit Reg.LOOM_CMP_STAT_LO F.LOOM_CMP_STAT_LO_VAL k b
      else s.setBit Reg.LOOM_CMP_STAT_HI F.LOOM_CMP_STAT_HI_VAL (k - 32) b
    s.srcMoved (16 + k) was
  else s

/-- The hysteresis in µV that HYST selects (R169). -/
def hystUv (h : Nat) : Nat := if h = 0 then 0 else if h = 1 then 5000 else if h = 2 then 10000 else 20000

/-- CMP[k] is active with `uv` µV at its input: threshold code t stands for t × 2.5 V ÷ 1,024, and an active comparator stays so
until the input has returned past the threshold by the hysteresis (R155). -/
def State.cmpWants (s : State) (k uv : Nat) : Bool :=
  let cfg := Reg.CMP_CFG k
  let hyst := if s.flag cfg F.CMP_CFG_ACT then hystUv (s.fld cfg F.CMP_CFG_HYST) else 0
  let hi : Bool := s.fld (Reg.CMP_THR k) F.CMP_THR_HI * 2500000 < (uv + hyst) * 1024
  let lo : Bool := uv * 1024 < s.fld (Reg.CMP_THR k) F.CMP_THR_LO * 2500000 + hyst * 1024
  let mode := s.fld cfg F.CMP_CFG_MODE
  (bitOf mode 0 && hi) || (bitOf mode 1 && lo)

/-- CMP[k] follows its input, its thresholds and its mode; a mismatch of its DAC forces it active (R155, R156, R167). -/
def State.cmpJudge (s : State) (k : Nat) : State :=
  let want := s.flag (Reg.CMP_CFG k) F.CMP_CFG_DACERR ||
    (match Tab.get (fun _ => none) s.sense.level k with | some uv => s.cmpWants k uv | none => false)
  if want = s.flag (Reg.CMP_CFG k) F.CMP_CFG_ACT then s
  else if want then (s.cmpSet k true).line 0x02 (0x40 + k)
  else s.cmpSet k false

/-- The input of CMP[k] has `uv` µV; the comparator follows it where the block acts. -/
def State.cmpSees (s : State) (k uv : Nat) : State :=
  (s.setSense { s.sense with level := Tab.set (fun _ => none) s.sense.level k (some uv) }).onBlk .sensing (fun s => s.cmpJudge k)

/-- ADC_EN is written (R151, R154): an ADC that VCHK stopped, written 0 and then 1, converts again; the request that waits at
an ADC that is disabled is none of its group's any more. -/
def State.adcEnWrite (s : State) (data : Nat) : State :=
  (List.range 8).foldl (fun s a =>
    let x := s.adc a
    let s := if bitOf data a && !s.adcEn a && x.stopped then s.setAdc a { x with stopped := false, recover := true }
      else if !bitOf data a then
        let s := s.setAdc a { x with waiting := none }
        match x.waiting with | some r => s.groupDone r | none => s
      else s
    s.setBit Reg.SNS_CTRL F.SNS_CTRL_ADC_EN a (bitOf data a)) s

def State.adcClear (s : State) : State := (List.range 8).foldl (fun s a => s.wr (Reg.ADC_STAT a) 0) s

/-- A threshold is written (R156): one that reads back correctly ends a mismatch. -/
def State.cmpThreshold (s : State) (k : Nat) (v : Word) (ok : Bool) : State :=
  let s := s.wr (Reg.CMP_THR k) v
  let s := if s.flag (Reg.CMP_CFG k) F.CMP_CFG_DACERR && ok then
      (s.setFlag (Reg.CMP_CFG k) F.CMP_CFG_DACERR false).recoversCell 0x02 0x07 (0x10 + k)
    else s
  s.cmpJudge k

/-- A fabric write of a threshold: while a mismatch stands, whether the DAC now reads back correctly is a free value (R156). -/
def State.thresholdWrite (s : State) (k : Nat) (v : Word) : State :=
  if s.flag (Reg.CMP_CFG k) F.CMP_CFG_DACERR then s.took.cmpThreshold k v (s.freeNat % 2 = 1) else s.cmpThreshold k v true

/-- SNS_WCHK.START (R163). -/
def State.weldStart (s : State) (outlet : Bool) (tgt win : Nat) : State :=
  let s := ((s.setFlag Reg.SNS_WCHK F.SNS_WCHK_TGT_KIND outlet).setFld Reg.SNS_WCHK F.SNS_WCHK_TGT tgt).setFld Reg.SNS_WCHK
    F.SNS_WCHK_WIN win
  if s.sense.weld.isSome then s
  else if (s.weldInputs outlet tgt).isNone then (s.setFld Reg.SNS_WCHK F.SNS_WCHK_RESULT 5).line 0x02 0x30
  else
    let w : WeldCheck := { outlet := outlet, tgt := tgt, due := s.now + orDefault win 1 * ticksPerMs, lo := none, hi := 0,
                           err := false }
    ((s.setFld Reg.SNS_WCHK F.SNS_WCHK_RESULT 1).setSense { s.sense with weld := some w }).weldTrack none

/-- The interlock passes for the held command of x, and no lower held close of the same module passes with it (R160). -/
def State.xpPasses (s : State) (x : Nat) : Bool :=
  match s.heldCoil x with
  | some h =>
    s.xpAllowed x h.close &&
      (!h.close || (List.range x).all (fun y =>
        match s.heldCoil y with
        | some g => !(g.close && s.xpActs y && s.xpMod y = s.xpMod x && s.xpAllowed y true)
        | none => true))
  | none => false

end Sys2Proof.Machine
end

