-- ==== Sys2Proof/Machine/SenseCommands.lean ====
section
/-!
DEFINITION. Machine/SenseCommands.lean: the commands of converter sensing, and LOOM_TRIGGER, which starts slots and sample
groups (R96, R120, R149 to R167).
-/
namespace Sys2Proof.Machine

/-- CNT of channel n reaches `pos` in the present CK_PWM cycle (R96). -/
def State.reachesNow (s : State) (n pos : Nat) : Bool :=
  let far := ticksPwm * s.chPer n
  (s.now + far + pos - s.cnt n) / ticksPwm = (s.now + far) / ticksPwm

/-- Trigger k of channel n may fire: it is enabled, in the channel's prescaled periods, has not fired in this period, and
its position is in the present CK_PWM cycle; or a phase jump in this cycle has passed it (R96). -/
def State.trigFires (s : State) (n k : Nat) : Bool :=
  let x := s.ch n
  let r := s.lv (Reg.LOOM_CH_TRIG n k)
  let pos := F.LOOM_CH_TRIG_POS.get r
  x.run && F.LOOM_CH_TRIG_TRIG_EN.get r = 1 && pos < s.chPer n && x.count % (F.LOOM_CH_TRIG_PRESC.get r + 1) = 0 &&
    !x.fired.contains k && (if x.jumped.contains k then x.jumpCyc = s.now / ticksPwm else s.reachesNow n pos)

/-- LOOM_TRIGGER: trigger 4n + k fires: its event line, the Twill slots and the sample groups bound to it (R96, R97, R120,
R151). -/
def execLoomTrigger (n : Fin 24) (k : Fin 4) (s : State) : Host.Outcome State Fault Refusal :=
  .next (s.onBlk .loom (fun s =>
    if s.trigFires n.val k.val then
      let x := s.ch n.val
      let t := 4 * n.val + k.val
      let s := s.setCh n.val { x with fired := k.val :: x.fired, jumped := x.jumped.filter (· ≠ k.val) }
      ((s.line 0x00 t).slotTriggers t).groupTriggers t
    else s))

/-- ADC_DEFERRED_SAMPLE: the request that waits samples once the ADC accepts it (R152). -/
def execAdcDeferredSample (a : Fin 8) (s : State) : Host.Outcome State Fault Refusal :=
  .next (s.onBlk .sensing (fun s =>
    match (s.adc a.val).waiting with
    | some r =>
      if s.adcFree a.val then (s.setAdc a.val { s.adc a.val with waiting := none }).sampleNow a.val r else s
    | none => s))

/-- ADC_CONVERSION_COMPLETE: the oldest conversion of the ADC is complete (R153): its code and word are written. A VCHK code
outside 8,144 to 8,240 stops the ADC, CONTAIN code 0x02; one within it after a re-enable recovers (R154). -/
def execAdcConversionComplete (a : Fin 8) (code : BitVec 14) (s : State) : Host.Outcome State Fault Refusal :=
  .next (s.onBlk .sensing (fun s =>
    let x := s.adc a.val
    match x.busy with
    | r :: rest =>
      let s := s.setAdc a.val { x with busy := rest }
      if r.pos = 6 then
        let good := 8144 ≤ code.toNat && code.toNat ≤ 8240
        if good then
          if x.stopped then s
          else
          let s := if x.recover then
              (s.setAdc a.val { s.adc a.val with recover := false }).recoversCell 0x02 0x02 a.val
            else s
          s.groupDone r
        else (s.setAdc a.val { s.adc a.val with stopped := true }).contain 0x02 a.val 0x02
      else if x.stopped || 5 < r.pos then s
      else (s.ainWrite (a.val + 8 * r.pos) r code.toNat).groupDone r
    | [] => s))

/-- ADC_ENABLE: ADC_EN is written (R151, R154). -/
def execAdcEnable (data : BitVec 8) (s : State) : Host.Outcome State Fault Refusal :=
  .next (s.onBlk .sensing (fun s => s.adcEnWrite data.toNat))

/-- ADC_CLEAR_COUNTS: every ADC_STAT count clears (R169). -/
def execAdcClearCounts (s : State) : Host.Outcome State Fault Refusal :=
  .next (s.onBlk .sensing (fun s => s.adcClear))

/-- COMPARATOR_ACTIVE: the input has moved to `uv` µV, and a comparator whose window it leaves becomes active: trip source
16 + k, line 0x40 + k (R155). -/
def execComparatorActive (k : Fin 48) (uv : BitVec 22) (s : State) : Host.Outcome State Fault Refusal :=
  .next (s.cmpSees k.val uv.toNat)

/-- COMPARATOR_INACTIVE: the input has moved to `uv` µV, and a comparator whose threshold it has returned past by the hysteresis
becomes inactive; a forced one stays active (R155, R156). -/
def execComparatorInactive (k : Fin 48) (uv : BitVec 22) (s : State) : Host.Outcome State Fault Refusal :=
  .next (s.cmpSees k.val uv.toNat)

/-- CMP_THRESHOLD_WRITE: the threshold moves; `ok` says that the DAC reads back correctly (R156). -/
def execCmpThresholdWrite (k : Fin 48) (data : Word) (ok : Bool) (s : State) : Host.Outcome State Fault Refusal :=
  .next (s.onBlk .sensing (fun s => s.cmpThreshold k.val (data &&& 0x03FF03FF) ok))

/-- CMP_DAC_MISMATCH: CONTAIN code 0x07, and the comparator is forced active (R156). -/
def execCmpDacMismatch (k : Fin 48) (s : State) : Host.Outcome State Fault Refusal :=
  .next (s.onBlk .sensing (fun s =>
    let s := (s.setFlag (Reg.CMP_CFG k.val) F.CMP_CFG_DACERR true).cmpJudge k.val
    s.contain 0x02 (0x10 + k.val) 0x07))

/-- AIN_STALE: the input has not been written for 100 µs; what needs it sees that (R159, R163, R164). -/
def execAinStale (n : Fin 48) (s : State) : Host.Outcome State Fault Refusal :=
  .next (s.onBlk .sensing (fun s => if s.stale n.val then (s.preSync).weldTrack none else s))

/-- XP_CHANGE_ALLOWED: a held command that the interlock now allows takes effect (R160). -/
def execXpChangeAllowed (x : Fin 16) (s : State) : Host.Outcome State Fault Refusal :=
  .next (s.onBlk .sensing (fun s =>
    match s.heldCoil x.val with
    | some h => if s.xpPasses x.val then (s.xpSet x.val h.close).hsRefresh (s.xpHs x.val) else s
    | none => s))

/-- XP_HOLD_EXPIRY: a command still held at XP_HOLD is discarded: REFUSED, line 0x20 + x, NOTE code 0x06 (R160). -/
def execXpHoldExpiry (x : Fin 16) (s : State) : Host.Outcome State Fault Refusal :=
  .next (s.onBlk .sensing (fun s =>
    match s.heldCoil x.val with
    | some h =>
      if h.due ≤ s.now ∧ !s.xpPasses x.val then
        (((s.setHeldCoil x.val none).setFlag (Reg.XP x.val) F.XP_REFUSED true).line 0x02 (0x20 + x.val)).note 0x02 0xFF 0x06
      else s
    | none => s))

/-- The modules of every crosspoint to outlet o that is commanded closed (R162). DESIGN CHOICE: a module that is not enabled
adds no current (log entry 149). -/
def State.closedModules (s : State) (o : Nat) : List Nat :=
  ((List.range 16).filter (fun x => s.xpActs x && s.xpOut x = o && s.xpOn x && s.modOn (s.xpMod x))).map s.xpMod

/-- ISUM_CHECK: the 10 µs current-sum evaluation of an outlet (R162). -/
def execIsumCheck (o : Fin 8) (s : State) : Host.Outcome State Fault Refusal :=
  .next (s.onBlk .sensing (fun s =>
    let o := o.val
    let c := s.sumCheck o
    let early : Bool := match c.last with | some t => s.now < t + 10 * ticksPerUs | none => false
    if !s.flag Reg.SNS_CTRL F.SNS_CTRL_CHK_EN ∨ !s.outlOn o ∨ !s.energ o ∨ c.hold.isSome ∨ early then s
    else
      let c := { c with last := some s.now }
      let s := s.setSumCheck o c
      let mods := s.closedModules o
      if s.stale (s.inIO o) || mods.any (fun m => s.stale (s.inIM m)) then
        s.setFlag (Reg.OUTL_CHK o) F.OUTL_CHK_STALE true
      else
        let sum := mods.foldl (fun t m => t + s.ainRes (s.inIM m)) (0 : Int)
        if s.fld (Reg.OUTL_CHK o) F.OUTL_CHK_ISUM_TOL * 65536 ≤ (sum - s.ainRes (s.inIO o)).natAbs then
          let s := s.setSumCheck o { c with bad := min 3 (c.bad + 1), good := 0 }
          if 3 ≤ c.bad + 1 then
            let s := s.setFlag (Reg.OUTL_CHK o) F.OUTL_CHK_MISMATCH true
            let s := if c.bad = 2 then s.line 0x02 (0x18 + o) else s
            if c.noted then s else (s.setSumCheck o { s.sumCheck o with noted := true }).note 0x02 0xFF 0x04
          else s
        else s.setSumCheck o { c with bad := 0, good := min 3 (c.good + 1), noted := c.noted && c.good + 1 < 3 }))

/-- ISUM_HOLD_END: CHK_HOLD ends (R162). -/
def execIsumHoldEnd (o : Fin 8) (s : State) : Host.Outcome State Fault Refusal :=
  .next (s.onBlk .sensing (fun s =>
    if s.reached (s.sumCheck o.val).hold then s.setSumCheck o.val { s.sumCheck o.val with hold := none } else s))

/-- WELD_CHECK_START (R163). -/
def execWeldCheckStart (outlet : Bool) (tgt : Fin 16) (win : BitVec 8) (s : State) : Host.Outcome State Fault Refusal :=
  .next (s.onBlk .sensing (fun s => s.weldStart outlet tgt.val win.toNat))

/-- WELD_CHECK_END: the window ends and RESULT is set; WELDED raises NOTE code 0x05 (R163). -/
def execWeldCheckEnd (s : State) : Host.Outcome State Fault Refusal :=
  .next (s.onBlk .sensing (fun s =>
    let s := s.weldTrack none
    match s.sense.weld with
    | some w =>
      if w.due ≤ s.now then
        let dv := s.fld Reg.SNS_MXV F.SNS_MXV_WELD_DV * 65536
        let res := match w.lo with
          | some l => if w.err then 5 else if dv ≤ l then 2 else if w.hi < dv then 3 else 4
          | none => 5
        let s := ((s.setSense { s.sense with weld := none }).setFld Reg.SNS_WCHK F.SNS_WCHK_RESULT res).line 0x02 0x30
        if res = 3 then s.note 0x02 0xFF 0x05 else s
      else s
    | none => s))

end Sys2Proof.Machine
end

