-- ==== Sys2Proof/Machine/WriteSense.lean ====
section
/-!
DEFINITION. Machine/WriteSense.lean: fabric writes of the registers of converter sensing (R149 to R169).
Each function takes the address of a register that exists and the word written.
-/
namespace Sys2Proof.Machine

/-- NOTE code 0x08 where the configuration just written is invalid (R151, R157, R158, R164). -/
def State.noteInvalid (s : State) (bad : Bool) : State := if bad then s.note 0x02 0xFF 0x08 else s

/-- Crosspoint x is enabled and another enabled one names its channel, or its module and outlet (R158). -/
def State.xpInvalid (s : State) (x : Nat) : Bool :=
  s.xpEn x && (List.range 16).any (fun y => y ≠ x && s.xpEn y &&
    (s.xpHs y = s.xpHs x || (s.xpMod y = s.xpMod x && s.xpOut y = s.xpOut x)))

/-- The channel whose coil crosspoint x drives (R157, R158). -/
def State.drivesCoil (s : State) (x : Nat) : Option Nat :=
  if s.coilOf (s.xpHs x) = some x then some (s.xpHs x) else none

/-- XP[x]: a crosspoint that begins to drive a coil takes over the drive that its channel has. -/
def State.xpWrite (s : State) (x : Nat) (v : Word) : State :=
  let old := s
  let s := s.wrAccess (Reg.XP x) v
  let s := if s.rd (Reg.XP x) = old.rd (Reg.XP x) then s else (s.holdCheck (old.xpOut x)).holdCheck (s.xpOut x)
  let s := (List.range 16).foldl (fun (s : State) y =>
    match s.drivesCoil y with
    | some h => if old.drivesCoil y = some h ∨ s.xpOn y = (s.sw h).drive then s else s.xpSet y (s.sw h).drive
    | none => s) s
  (s.noteInvalid (s.xpInvalid x)).hsRefreshAll

/-- CMP[k].CFG: the comparator follows its new mode (R155). -/
def State.cmpCfgWrite (s : State) (k : Nat) (v : Word) : State := (s.wrAccess (Reg.CMP_CFG k) v).cmpJudge k

/-- SNS_CTRL (R154, R162, R169). -/
def State.snsCtrlWrite (s : State) (v : Word) : State :=
  let s := (s.adcEnWrite (F.SNS_CTRL_ADC_EN.get v)).setFld Reg.SNS_CTRL F.SNS_CTRL_CHK_EN (F.SNS_CTRL_CHK_EN.get v)
  if F.SNS_CTRL_CLR_CNT.get v = 1 then s.adcClear else s

/-- SNS_WCHK: the fields, and with START a check (R163). -/
def State.wchkWrite (s : State) (v : Word) : State :=
  let s := s.wrAccess Reg.SNS_WCHK v
  if F.SNS_WCHK_START.get v = 1 then
    s.weldStart (F.SNS_WCHK_TGT_KIND.get v = 1) (F.SNS_WCHK_TGT.get v) (F.SNS_WCHK_WIN.get v)
  else s

/-- SNS_DCL (R164). -/
def State.dclWrite (s : State) (v : Word) : State :=
  let s := s.wrAccess Reg.SNS_DCL v
  (s.noteInvalid (s.flag Reg.SNS_DCL F.SNS_DCL_EN &&
    (47 < s.fld Reg.SNS_DCL F.SNS_DCL_SRC_AIN || 47 < s.fld Reg.SNS_DCL F.SNS_DCL_DC_AIN))).preSync

/-- A write in the window of converter sensing. -/
def State.senseWrite (s : State) (a : Nat) (v : Word) : State :=
  let o := a - 0x10200000
  if a = Reg.SNS_CTRL then s.snsCtrlWrite v
  else if a = Reg.SNS_WCHK then s.wchkWrite v
  else if a = Reg.SNS_DCL then s.dclWrite v
  else if 0x100 ≤ o ∧ o < 0x180 then
    let g := (o - 0x100) / 8
    let s := s.wrAccess a v
    s.noteInvalid (s.flag (Reg.SG_CFG g) F.SG_CFG_EN && !s.groupValid g)
  else if 0x600 ≤ o ∧ o < 0x780 then
    let k := (o - 0x600) / 8
    if o % 8 = 0 then s.thresholdWrite k (v &&& 0x03FF03FF) else s.cmpCfgWrite k v
  else if 0x900 ≤ o ∧ o < 0x940 then
    let m := (o - 0x900) / 8
    let s := s.wrAccess a v
    s.noteInvalid (s.flag (Reg.MOD_CFG m) F.MOD_CFG_EN && !s.modValid m)
  else if 0xA00 ≤ o ∧ o < 0xA40 ∧ o % 8 = 0 then
    let m := (o - 0xA00) / 8
    let s := s.wrAccess a v
    s.noteInvalid (s.flag a F.OUTL_CFG_EN && !s.outlValid m)
  else if 0xB00 ≤ o ∧ o < 0xB40 then s.xpWrite ((o - 0xB00) / 4) v
  else s.wrAccess a v

end Sys2Proof.Machine
end

