-- ==== Sys2Proof/Machine/GridCommands.lean ====
section
/-!
DEFINITION. Machine/GridCommands.lean: the commands of grid measurement (R254 to R263).
-/
namespace Sys2Proof.Machine

/-- GRID_CHANNEL_LOST: a used channel without transitions is invalid, CONTAIN code 0x02 (R254). -/
def execGridChannelLost (n : Fin 8) (s : State) : Host.Outcome State Fault Refusal :=
  .next (s.onBlk .grid (fun s =>
    if s.grdOn ∧ s.chValid n.val then
      let s := s.setGrid { s.grid with validAt := Tab.set (fun _ => none) s.grid.validAt n.val none }
      (((s.setBit Reg.GRD_STATUS F.GRD_STATUS_INV n.val true).gridDegraded).contain 0x04 n.val 0x02).line 0x04 0x05
    else s))

/-- PMU_FRAME_WRITE: a data frame with the time tag `sec` + k ÷ Fs enters the ring, once its tag has come and before its
latency has passed (R255 to R257); the phasors (rectangular), frequency and ROCOF words are the estimator's results. -/
def execPmuFrameWrite (sec : Word) (k : BitVec 7) (phasors : List (BitVec 64)) (freq : Word) (dfreq : Word) (s : State) :
    Host.Outcome State Fault Refusal :=
  .next (s.onBlk .grid (fun s =>
    let fs := s.fld Reg.GRD_CTRL F.GRD_CTRL_RATE
    if !s.grdOn ∨ s.grid.stopped ∨ !s.dmaRoom 16 then s
    else if !s.rateOk then s.setFlag Reg.GRD_STATUS F.GRD_STATUS_CFG_ERR true
    else if fs ≤ k.toNat ∨ !s.tagOk256 sec.toNat k.toNat fs then s
    else
      let f := s.pmuFrame sec.toNat (k.toNat * 1000000 / fs) phasors freq dfreq s.freeNat s.took.freeNat
      let s := s.took.took
      let len := orDefault (s.fld Reg.GRD_RING F.GRD_RING_LEN) 1
      let wr := s.fld Reg.GRD_RING F.GRD_RING_WR
      let a := (s.rd Reg.GRD_RING_BASE).toNat / 128 * 128 + 128 * wr
      let x := s.writeRange 16 a f
      let s := x.2
      if x.1 then
        let next := (wr + 1) % len
        let full := next = s.fld Reg.GRD_RING F.GRD_RING_RD
        let s := (s.setFld Reg.GRD_RING F.GRD_RING_WR next).setGrid
          { s.grid with tag := some (s.tagNs sec.toNat k.toNat fs) }
        let s := if full then
            ((s.setFld Reg.GRD_RING F.GRD_RING_RD ((next + 1) % len)).setFlag
              Reg.GRD_STATUS F.GRD_STATUS_RING_OVF true).note 0x04 0 0x03
          else s
        let s := if s.grid.cycled then
            (s.setGrid { s.grid with cycled := false }).recovers 0x04 0x04
          else s
        s.line 0x04 0x00
      else s.gridBusError 0))

/-- GRID_RESPONSE_UPDATE: the 1 ms update (R258): `freq` the positive-sequence frequency and `each` that of every channel, 20
bits each, in mHz, `volt` the positive-sequence magnitude in V × 2^8, `valid` the channels whose bitstreams have transitions,
`rms` their half-cycle RMS in ‰ of FS, 16 bits each (R262). The frequency comes from the source of R254, and is a free value
where there is none. -/
def execGridResponseUpdate (freq : BitVec 20) (each : BitVec 160) (volt : Word) (valid : BitVec 8) (rms : BitVec 128)
    (s : State) : Host.Outcome State Fault Refusal :=
  .next (s.onBlk .grid (fun s =>
    let ms := s.tbNs 0 / 1000000
    if !s.grdOn ∨ s.grid.ms = some ms then s
    else
      let s := s.setGrid { s.grid with ms := some ms }
      let s := (List.range 8).foldl (fun s n =>
        let inv := bitOf (s.fld Reg.GRD_STATUS F.GRD_STATUS_INV) n
        let at_ := fun t => Tab.set (fun _ => none) s.grid.validAt n t
        if !bitOf valid.toNat n then s.setGrid { s.grid with validAt := at_ none }
        else if inv then
          (s.setBit Reg.GRD_STATUS F.GRD_STATUS_INV n false).setGrid { s.grid with validAt := at_ (some s.now) }
        else match Tab.get (fun _ => none) s.grid.validAt n with
          | some t =>
            if t + ticksPerS ≤ s.now then (s.setGrid { s.grid with validAt := at_ none }).recoversCell 0x04 0x02 n else s
          | none => s) s
      let (f, s) : Nat × State := match s.freqSource with
        | some none => (freq.toNat, s)
        | some (some n) => (each.toNat / 2 ^ (20 * n) % 2 ^ 20, s)
        | none => (s.freeNat % 2 ^ 20, s.took)
      let w := orDefault (s.fld Reg.GRD_ROC F.GRD_ROC_ROC_MS) 1
      let (roc, s) : Int × State := match s.grid.freqs[w - 1]? with
        | some g => (divZero ((f - g : Int) * 1000) w, s)
        | none => (signed 32 s.freeNat, s.took)
      let s := s.setGrid { s.grid with freqs := (f :: s.grid.freqs).take 255 }
      let s := ((s.wrNat Reg.GRD_FREQ f).wrNat Reg.GRD_ROCOF (unsigned 32 roc)).wr Reg.GRD_V1 volt
      let anyV := (List.range 8).any (fun n => s.chValid n && s.chKind n = 1)
      let s := s.gridDegraded
      let s := if anyV then
          let lim := s.fld Reg.GRD_UF F.GRD_UF_UF_MHZ
          let thr : Int := s.fld Reg.GRD_ROC F.GRD_ROC_ROC_THR
          let nom := (s.rd Reg.GRD_NOMV).toNat
          let pm := s.fld Reg.GRD_UV F.GRD_UV_UV_PM
          let s := s.condUpdate 0 (f < lim) (lim + s.fld Reg.GRD_UF F.GRD_UF_UF_HYST ≤ f)
          let s := s.condUpdate 1 (roc < -thr) (-thr + thr / 4 < roc)
          s.condUpdate 2 (volt.toNat * 1000 < pm * nom) ((pm + 20) * nom ≤ volt.toNat * 1000)
        else s
      let s := s.gridLineSync
      let out := (List.range 8).filter (fun n =>
        let r := rms.toNat / 2 ^ (16 * n) % 2 ^ 16
        let hi := s.fld (Reg.GCH_LVL n) F.GCH_LVL_HI
        let lo := s.fld (Reg.GCH_LVL n) F.GCH_LVL_LO
        s.chValid n && ((hi ≠ 0 && hi < r) || (lo ≠ 0 && r < lo)))
      let was := s.grid.outside
      let s := s.setGrid { s.grid with outside := out.foldl (fun m n => m + 2 ^ n) 0 }
      (out.filter (fun n => !bitOf was n)).foldl (fun s n => s.recTrigger 1 (0x10 + n)) s))

/-- GRID_REC_ARM: the recorder's buffer is empty, and it records again (R261, R262). -/
def execGridRecArm (s : State) : Host.Outcome State Fault Refusal := .next (s.onBlk .grid (fun s => s.recArm))

/-- GRID_REC_TRIG: a firmware trigger, cause 0x01 (R262). -/
def execGridRecTrig (s : State) : Host.Outcome State Fault Refusal :=
  .next (s.onBlk .grid (fun s => s.recTrigger 2 0x01))

/-- GRID_REC_COMPLETE: 2 s after the trigger the recorder is HELD (R262). -/
def execGridRecComplete (s : State) : Host.Outcome State Fault Refusal :=
  .next (s.onBlk .grid (fun s =>
    if s.recState = recPost ∧ s.reached s.grid.heldAt then
      ((s.setRec recHeld).setGrid { s.grid with heldAt := none }).line 0x04 0x04
    else s))

end Sys2Proof.Machine
end

