-- ==== Sys2Proof/Machine/SalternCommands.lean ====
section
/-!
DEFINITION. Machine/SalternCommands.lean: the commands of the Saltern (R170 to R194).
-/
namespace Sys2Proof.Machine

/-- SAL_MODE_WRITE: SAL_CTRL.MODE is written; it takes effect at the next boundary (R170). -/
def execSalModeWrite (data : BitVec 2) (s : State) : Host.Outcome State Fault Refusal :=
  .next (s.salMode data.toNat)

/-- A solve start at boundary b (R176, R184, R185): commit, emergency, demands, and the snapshot. R177's deadline counts from
the boundary, not from the start of the solve up to 20 ns later. -/
def State.solveStart (s : State) (b : Nat) : State :=
  let cut := s.boundaryInstant b
  let s := s.salCommit cut true
  let (s, e) := s.salEmergency cut
  let s := s.salFreshness cut
  let old := (List.range 128).filter (fun i => s.flag (Reg.SAL_DEM i) F.SAL_DEM_STALE || s.demandOld i)
  let v : Solve := { bound := b, started := s.now, act := s.flag Reg.SAL_EMRG_STAT F.SAL_EMRG_STAT_ACT, edem := e,
                     stale := old }
  (s.setSal { s.sal with solve := some v }).setFlag Reg.SAL_STATUS F.SAL_STATUS_BUSY true

/-- SALTERN_BOUNDARY (R170, R175, R176, R179, R192): a solve still running is aborted, CONTAIN code 0x03; MODE takes effect;
in MODE 0b10 (which the Zwidy engine may give from a later boundary on) a solve starts at a boundary later than the last solved one. A boundary that is not (after TB[0] stepped back)
is skipped and aborts nothing. Without a solve the registers commit at the
boundary too: DEDUCED from R201 and R217, which use the committed words of cabinets that do not solve. -/
def execSalternBoundary (s : State) : Host.Outcome State Fault Refusal :=
  .next (s.onBlk .saltern (fun s =>
    match s.boundaryNow with
    | some b =>
      if s.sal.bound = some b then s
      else
        let s := s.setSal { s.sal with bound := some b }
        let skip := s.boundaryDone b
        let s := if s.sal.solve.isSome && !skip then (s.salAbort).contain 0x03 0 0x03 else s
        let m := s.fld Reg.SAL_CTRL F.SAL_CTRL_MODE
        let m := if m = 3 ∨ (m = 2 ∧ b < s.zw.leadFrom) then 1 else m
        let s := if m = 2 ∧ s.sal.mode ≠ 2 then s.setSal { s.sal with lastApply := none } else s
        let s := if m = 0 then s.setSets [] else s
        let s := s.setSal { s.sal with mode := m }
        if m = 2 then (if skip then s else s.solveStart b) else s.salCommit (s.boundaryInstant b) false
    | none => s))

/-- SOLVE_COMPLETE (R182, R187): the results replace the solver's state, and the set is published with its apply time: to the
site and to this cabinet's apply unit. A table word with an uncorrectable error aborts the solve instead (R192). -/
def execSolveComplete (s : State) : Host.Outcome State Fault Refusal :=
  .next (s.onBlk .saltern (fun s =>
    match s.sal.solve with
    | some v =>
      match s.sal.bad with
      | a :: _ => s.salAbort.contain 0x03 (salCell a) 0x02
      | [] =>
        let r := (s.solveIn v).solve
        let s := s.salResults v r
        let s := ((s.setSal { s.sal with solve := none }).setFlag Reg.SAL_STATUS F.SAL_STATUS_BUSY false).setFld
          Reg.SAL_STATUS F.SAL_STATUS_LAST_DUR (min 0xFFFF ((s.now - v.started) / 160))
        let a := v.bound + s.salLead
        let a := match s.sal.lastApply with | some p => max a (p + 1000) | none => a
        let local8 := (List.range 8).map (fun o => r.g.getD (8 * s.cab + o) 0)
        let x : GrantSet := { pnum := (s.rd Reg.SAL_PNUM).toNat, apply_ := a, grants := local8, decay := false }
        let s := s.setSal { s.sal with lastApply := some a, hand := s.sal.hand ++ [x] }
        let s := (s.line 0x03 0x00).recovers 0x03 0x02
        let s := if s.now ≤ v.started + 80 * ticksPerUs then s.recovers 0x03 0x03 else s
        s.zwPublish v.bound a
    | none => s))

/-- SALTERN_TABLE_ECC: a word of the pan, outlet, demand or grant table (R192, R193): corrected, NOTE code 0x01; or
uncorrectable, and a solve in progress is aborted, CONTAIN code 0x02. -/
def execSalternTableEcc (off : BitVec 12) (double : Bool) (s : State) : Host.Outcome State Fault Refusal :=
  .next (s.onBlk .saltern (fun s =>
    let o := off.toNat
    let a := Reg.SAL_CTRL + o
    if o % 4 ≠ 0 ∨ !((0x100 ≤ o && o < 0x200) || 0x400 ≤ o) then s
    else if double then
      (s.setSal { s.sal with bad := a :: s.sal.bad.filter (· ≠ a) }).salAbort.contain 0x03 (salCell a) 0x02
    else s.note 0x03 (salCell a) 0x01))

/-- SAL_DEM_WRITE: the demand is fresh, STALE reads 0 (R174, R177). -/
def execSalDemWrite (i : Fin 128) (data : Word) (s : State) : Host.Outcome State Fault Refusal :=
  .next (s.onBlk .saltern (fun s => s.salDemWrite i.val data.toNat))

/-- DEMAND_STALE: a demand that has not been fresh for DEM_TMO solves is stale, NOTE code 0x06 (R174). -/
def execDemandStale (i : Fin 128) (s : State) : Host.Outcome State Fault Refusal :=
  .next (s.onBlk .saltern (fun s =>
    if s.demandOld i.val ∧ !s.demandFresh i.val ∧ !s.flag (Reg.SAL_DEM i.val) F.SAL_DEM_STALE then
      (s.setFlag (Reg.SAL_DEM i.val) F.SAL_DEM_STALE true).note 0x03 1 0x06
    else s))

/-- SAL_COMMIT_GO: GO reads 1 until the solve start that takes it (R176). -/
def execSalCommitGo (s : State) : Host.Outcome State Fault Refusal := .next (s.onBlk .saltern (fun s => s.salGo))

/-- The grid-line raise runs: not in a cabinet that another one leads (R221). -/
def State.lineRaises (s : State) : Bool :=
  s.flag Reg.SAL_EMRG_CTRL F.SAL_EMRG_CTRL_LINE_EN && (s.role = roleOff || s.role = roleLeader)

/-- EMRG_LINE_RAISE: on a rising edge of the grid line with LINE_EN, BASE := SAL_TOTAL, and the demand is what keeping
KEEP ÷ 1,024 of it leaves of the root limit (R183). -/
def execEmrgLineRaise (s : State) : Host.Outcome State Fault Refusal :=
  .next (s.onBlk .saltern (fun s =>
    if s.gridLine ∧ !s.sal.line then
      let s := s.setSal { s.sal with line := true }
      if s.lineRaises then
        let base := s.fld Reg.SAL_TOTAL F.SAL_TOTAL_TOTAL
        let keep := min 1024 (s.fld Reg.SAL_EMRG_CTRL F.SAL_EMRG_CTRL_KEEP)
        let s := s.wrNat Reg.SAL_EMRG_BASE base
        s.salRaise (s.lfld (Reg.SAL_PAN 0) F.SAL_PAN_LIMIT - base * keep / 1024)
      else s
    else s))

/-- EMRG_REQ: a firmware raise latches SAL_EMRG_DEM.DEM (R183). -/
def execEmrgReq (s : State) : Host.Outcome State Fault Refusal :=
  .next (s.onBlk .saltern (fun s => s.salRaise (s.fld Reg.SAL_EMRG_DEM F.SAL_EMRG_DEM_DEM)))

/-- EMRG_CLR: a release request; refused while the grid line is high with LINE_EN, or while PEND is 1 (R185). -/
def execEmrgClr (s : State) : Host.Outcome State Fault Refusal := .next (s.onBlk .saltern (fun s => s.salClear))

/-- SAL_STATE_WRITE: a write of the solver's state (R191). -/
def execSalStateWrite (off : BitVec 12) (data : Word) (s : State) : Host.Outcome State Fault Refusal :=
  .next (s.onBlk .saltern (fun s => s.salStateWrite (Reg.SAL_CTRL + off.toNat) data))

/-- GRANT_SET_HANDOVER: the oldest set handed over reaches the apply unit: the solver's own, or one of the Zwidy engine that
is due (R187, R189, R205). -/
def execGrantSetHandover (s : State) : Host.Outcome State Fault Refusal :=
  .next (s.onBlk .saltern (fun s =>
    match s.sal.hand with
    | x :: t => (s.setSal { s.sal with hand := t }).takeSet x
    | [] =>
      match s.zw.wait.find? (fun x => x.apply_ ≤ s.tbNs 0 + 5000) with
      | some x => (s.setZw { s.zw with wait := s.zw.wait.filter (· ≠ x) }).takeSet x
      | none => s))

/-- GRANT_APPLY: the first pending set whose apply time has come takes effect (R188). -/
def execGrantApply (s : State) : Host.Outcome State Fault Refusal :=
  .next (s.onBlk .saltern (fun s =>
    match s.sal.sets.find? (fun x => x.apply_ ≤ s.tbNs 0) with
    | some x => if s.sal.mode = 0 then s else (s.setSets (s.sal.sets.erase x)).applySet x
    | none => s))

end Sys2Proof.Machine
end

