-- ==== Sys2Proof/Machine/WriteSite.lean ====
section
/-!
DEFINITION. Machine/WriteSite.lean: fabric writes of the registers of the Saltern and of grid measurement (R170 to
R193, R252 to R263). Each function takes the address of a register that exists and the word written.
-/
namespace Sys2Proof.Machine

/-- A write in the window of the Saltern. -/
def State.salternWrite (s : State) (a : Nat) (v : Word) : State :=
  if Reg.SAL_DEM 0 ≤ a ∧ a ≤ Reg.SAL_DEM 127 then s.salDemWrite ((a - Reg.SAL_DEM 0) / 4) v.toNat
  else if a = Reg.SAL_CMT then (if v.getLsbD 0 then s.salGo else s)
  else if a = Reg.SAL_EMRG_CMD then
    let s := if F.SAL_EMRG_CMD_REQ.get v = 1 then s.salRaise (s.fld Reg.SAL_EMRG_DEM F.SAL_EMRG_DEM_DEM) else s
    if F.SAL_EMRG_CMD_CLR.get v = 1 then s.salClear else s
  else if stateMask a ≠ 0 then s.salStateWrite a v
  else if salRws.contains a then
    match regRow a with
    | some r => s.salPut a (r.written (s.rd a) v)
    | none => s
  else s.wrAccess a v

/-- GRD_REC_CTRL: SRC, then ARM and TRIG (R262). -/
def State.recCtrlWrite (s : State) (v : Word) : State :=
  let s := s.wrAccess Reg.GRD_REC_CTRL v
  let s := if F.GRD_REC_CTRL_ARM.get v = 1 then s.recArm else s
  if F.GRD_REC_CTRL_TRIG.get v = 1 then s.recTrigger 2 0x01 else s

/-- A write in the window of grid measurement: a KIND of 0b11 sets CFG_ERR (R253); a condition's enable moves the grid
line (R258). -/
def State.gridWrite (s : State) (a : Nat) (v : Word) : State :=
  if a = Reg.GRD_CTRL then
    let s := (s.grdCtrlWrite v).gridDegraded
    if s.grdOn ∧ !s.rateOk then s.setFlag Reg.GRD_STATUS F.GRD_STATUS_CFG_ERR true else s
  else if a = Reg.GRD_REC_CTRL then s.recCtrlWrite v
  else
    let s := s.wrAccess a v
    let s := if 0x10500040 ≤ a ∧ a < 0x105000C0 ∧ a % 16 = 0 then s.gridDegraded else s
    if 0x10500040 ≤ a ∧ a < 0x105000C0 ∧ a % 16 = 0 ∧ F.GCH_CFG_KIND.get v = 3 then
      s.setFlag Reg.GRD_STATUS F.GRD_STATUS_CFG_ERR true
    else if a = Reg.GRD_UF ∨ a = Reg.GRD_ROC ∨ a = Reg.GRD_UV then s.gridLineSync
    else s

end Sys2Proof.Machine
end

