-- ==== Sys2Proof/Machine/ReadOps.lean ====
section
/-!
DEFINITION. Machine/ReadOps.lean: what a read of a register returns, and what it changes. Most registers return the word they
hold; those whose fields show something that changes by itself, or that the chip holds elsewhere, are computed here.
-/
namespace Sys2Proof.Machine

/-- Bits [63:32] of a number. -/
def high32 (x : Nat) : Nat := x / 2 ^ 32 % 2 ^ 32

/-! Power region -/

/-- OUTL[o].CHK: MATCH (R161); an invalid outlet reads 0 there (R157). -/
def State.readOutlChk (s : State) (o : Nat) : Word :=
  s.show (Reg.OUTL_CHK o) F.OUTL_CHK_MATCH (bit01 (s.outlValid o && s.matched (s.inVB o) (s.inVV o)))

/-- CNT.COUNT: the counter of a running channel; the Reset value on one that has not run since the reset. What it shows on a
channel that has stopped the spec does not state: a free value (R84, R110). -/
def State.countShown (s : State) (n : Nat) : Nat :=
  if (s.ch n).run then s.cnt n else if (s.ch n).ran then s.freeNat % 2 ^ 24 else 0

/-- The register shows a free value for now. -/
def State.showsFree (s : State) (a : Nat) : Bool :=
  let n := (a - 0x10000000) / 0x100
  0x10000000 ≤ a && a < 0x10002000 && a = Reg.LOOM_CH_CNT n && !(s.ch n).run && (s.ch n).ran

def State.readPower (s : State) (a : Nat) : Word :=
  if a < 0x10002000 ∧ a = Reg.LOOM_CH_CNT ((a - 0x10000000) / 0x100) then
    BitVec.ofNat 32 (s.countShown ((a - 0x10000000) / 0x100))
  else if Reg.OUTL_CHK 0 ≤ a ∧ a ≤ Reg.OUTL_CHK 7 ∧ a % 8 = 4 then s.readOutlChk ((a - Reg.OUTL_CHK 0) / 8)
  else s.rd a

/-! Link region -/

/-- Acting as CCo (R280, R283): always, never, or, where CCO leaves it to the channel, the free value `x`. -/
def ccoActs (cco x : Nat) : Nat := if cco = 0 then x else if cco = 1 then 1 else 0

/-- Fields whose values come from outside the chip and that no command carries: a free value. The STAT registers of the
Green PHY channels and of the backbone while they run (R293). -/
def State.readNetwork (s : State) (a : Nat) : Word :=
  let x := s.freeNat
  if a = Reg.BB_STAT then
    if s.linkRuns 16 then
      F.BB_STAT_CCO_ACT.put (F.BB_STAT_AVLN.put (s.rd a) x).toNat (ccoActs (s.fld Reg.BB_CTRL F.BB_CTRL_CCO) (x / 2))
    else s.rd a
  else
    let n := (a - Reg.GP_STAT 0) / 0x100
    if s.linkRuns (8 + n) then
      F.GP_STAT_PEERS.put (F.GP_STAT_TEI.put (F.GP_STAT_CCO_ACT.put (F.GP_STAT_AVLN.put (s.rd a) x).toNat
        (ccoActs (s.fld (Reg.GP_CTRL n) F.GP_CTRL_CCO) (x / 2))).toNat (x / 4)).toNat (x / 1024)
    else s.rd a

def isNetwork (a : Nat) : Bool :=
  a = Reg.BB_STAT || (List.range 8).any (fun n => a = Reg.GP_STAT n)

/-- ZW_PAIR: POS and OWNED (R222, R223). -/
def State.readPair (s : State) : Word :=
  F.ZW_PAIR_POS.put (s.show Reg.ZW_PAIR F.ZW_PAIR_OWNED (bit01 s.owned)).toNat (bit01 Config.pairSel)

def State.readLink (s : State) (a : Nat) : Word :=
  if Reg.TB_STATE 0 ≤ a ∧ a ≤ Reg.TB_STATE 3 ∧ a = Reg.TB_STATE ((a - 0x20100000) / 0x40) then
    s.show a F.TB_STATE_HOLD_AGE (s.holdAge ((a - 0x20100000) / 0x40))
  else if Reg.BB_NBR_AGE 0 ≤ a ∧ a % 0x20 = 0x18 ∧ a < 0x20303000 then
    BitVec.ofNat 32 (min 0xFFFF ((s.now - (s.nbr ((a - Reg.BB_NBR_AGE 0) / 0x20)).changedAt) / ticksPerS))
  else if a = Reg.ZW_PAIR then s.readPair
  else if isNetwork a then s.readNetwork a
  else s.rd a

/-! Ledger region -/

/-- MET_O[o] at offset `f` of its registers: IMP and EXP are read at their low word, which latches the high one (R349). -/
def State.readMeter (s : State) (o f a : Nat) : Word :=
  if f = 0x00 then BitVec.ofNat 32 (s.meter o).imp
  else if f = 0x08 then BitVec.ofNat 32 (s.meter o).exp
  else if f = 0x20 then BitVec.ofNat 32 (s.meter o).owed
  else s.rd a

def State.readMetrology (s : State) (a : Nat) : Word :=
  if a = Reg.MET_SERIAL_LO then BitVec.ofNat 32 (numAt serial 0 4)
  else if a = Reg.MET_SERIAL_HI then BitVec.ofNat 32 (numAt serial 4 4)
  else if a = Reg.MET_LOG then s.show a F.MET_LOG_ENTRIES s.ledger.entries
  else if 0x30000100 ≤ a then s.readMeter ((a - 0x30000100) / 0x40) (a % 0x40) a
  else s.rd a

/-- TAR_STATUS (R395). -/
def State.readTarStatus (s : State) : Word :=
  let f := s.inForce
  BitVec.ofNat 32 (s.tar.rate % 8 + f.season % 4 * 16 + bit01 s.tar.friendly * 2 ^ 8 + bit01 f.dst * 2 ^ 9 +
    bit01 s.tar.pas.isSome * 2 ^ 10 + bit01 s.ledger.unset * 2 ^ 11 +
    s.fld Reg.TAR_STATUS F.TAR_STATUS_SYNC_BIG * 2 ^ 12)

/-- A word of TAR_DEM[c] (R379, R395). -/
def State.readDemand (s : State) (c f : Nat) : Nat :=
  let md := Tab.get (fun _ => MaxDemand.reset) s.tar.md c
  if f = 0 then (match s.tar.open_ with | some v => Tab.get (fun _ => 0) v.e c | none => 0)
  else if f = 4 then md.d
  else if f = 8 then md.sec
  else Tab.get (fun _ => 0) s.tar.last c

/-- A word of TAR_ACC[k] (R388, R395); the high word of the balance is latched by the read of the low one. -/
def State.readAccount (s : State) (k f a : Nat) : Word :=
  let x := s.account k
  if f = 0x00 then BitVec.ofInt 32 x.bal
  else if f = 0x08 then BitVec.ofNat 32 x.ecLim
  else if f = 0x0C then BitVec.ofNat 32 x.lowThr
  else if f = 0x10 then BitVec.ofNat 32 (bit01 x.ecEn * 2 ^ 8 + x.state % 8)
  else s.rd a

def optCrc : Option (List Byte) → Nat
  | some c => calCrc c
  | none => 0

def State.readTariff (s : State) (a : Nat) : Word :=
  let o := a - 0x30100000
  if a = Reg.TAR_STATUS then s.readTarStatus
  else if a = Reg.TAR_ACT_CRC then BitVec.ofNat 32 (optCrc s.tar.act)
  else if a = Reg.TAR_PAS_CRC then BitVec.ofNat 32 (optCrc s.tar.pas)
  else if a = Reg.TAR_PAS_ACT then
    BitVec.ofNat 32 (match s.tar.pas with | some c => calAct c | none => 0)
  else if a = Reg.TAR_ADJ then s.show a F.TAR_ADJ_SILENT_MS (min 0x3FFF (s.silentNs / 1000000))
  else if a = Reg.TAR_BSEQ then BitVec.ofNat 32 s.tar.bseq
  else if a = Reg.TAR_DSEQ then BitVec.ofNat 32 s.tar.dseq
  else if a = Reg.TAR_MONO_S then BitVec.ofNat 32 (s.monoMs / 1000)
  else if a = Reg.TAR_MONO_MS then BitVec.ofNat 32 (s.monoMs % 1000)
  else if 0x100 ≤ o ∧ o < 0x500 then
    let k := (o - 0x100) / 0x10
    if o % 0x10 = 0 then BitVec.ofNat 32 (Tab.get (fun _ => 0) s.tar.imp k)
    else if o % 0x10 = 8 then BitVec.ofNat 32 (Tab.get (fun _ => 0) s.tar.exp k)
    else s.rd a
  else if 0x500 ≤ o ∧ o < 0x600 then BitVec.ofNat 32 (s.readDemand ((o - 0x500) / 0x10) (o % 0x10))
  else if 0x800 ≤ o then s.readAccount ((o - 0x800) / 0x20) (o % 0x20) a
  else s.rd a

/-- The event store: the general log's position, and the selected entry (R357, R369). -/
def State.readStore (s : State) (a : Nat) : Word :=
  if a = Reg.EVS_GEN then BitVec.ofNat 32 (s.ledger.gen % 32768 + bit01 (32768 ≤ s.ledger.gen) * 2 ^ 31)
  else if Reg.EVS_RD_WIN 0 ≤ a then
    BitVec.ofNat 32 (numAt (s.evsBytes (s.fld Reg.EVS_RD_SEL F.EVS_RD_SEL_AREA) (s.fld Reg.EVS_RD_SEL F.EVS_RD_SEL_IDX) 256)
      (a - Reg.EVS_RD_WIN 0) 4)
  else s.rd a

def State.readLedger (s : State) (a : Nat) : Word :=
  match a / 0x100000 with
  | 0x300 => s.readMetrology a
  | 0x301 => s.readTariff a
  | 0x302 => s.readStore a
  | _ => s.rd a

/-! Guard region -/

/-- The load switches: SET and CLR of ON read as ON (R461). -/
def State.readSwitch (s : State) (a : Nat) : Word :=
  let n := (a - Reg.HS_CFG 0) / 16
  if a = Reg.HS_ON_SET ∨ a = Reg.HS_ON_CLR then s.rd Reg.HS_ON
  else if a < Reg.HS_CFG 0 then s.rd a
  else if a = Reg.HS_STAT n then
    s.show a F.HS_STAT_INRUSH_ACT (bit01 (s.hsState n = hsOn && decide (s.now < (s.sw n).inrushEnd)))
  else if a = Reg.HS_FUSE n then BitVec.ofNat 32 (s.fuseLevel n)
  else s.rd a

def State.readGuard (s : State) (a : Nat) : Word :=
  if a < 0x40100000 then s.readSafety a
  else if 0x40200000 ≤ a ∧ a < 0x40300000 then s.readSwitch a
  else s.rd a

/-! Hub -/

def runCode : RunState → Nat
  | .stopped => 0 | .running => 1 | .halted => 2

/-- CTX_STATE of WS[n]: two bits for each context (R82). -/
def State.readCtxState (s : State) (n a : Nat) : Word :=
  s.show a F.WSC_CTX_STATE_STATE
    (((List.range 4).map (fun j => runCode (s.ctx (CtxKey n j)).run * 4 ^ j)).foldl (· + ·) 0)

/-- SUP_VIN shows the measured voltage, which no command carries: a free value. -/
def State.readHub (s : State) (a : Nat) : Word :=
  if a = Reg.SUP_VIN then BitVec.ofNat 32 (s.freeNat % 2 ^ 17)
  else if a = Reg.FAB_OUTSTANDING then BitVec.ofNat 32 s.fabric.out.length
  else if Reg.WSC_CTX_STATE 0 ≤ a ∧ a < 0x50500200 ∧ a % 0x40 = 4 then s.readCtxState ((a - 0x50500000) / 0x40) a
  else s.rd a

/-- What a read of the register at `a` returns. -/
def State.readWord (s : State) (a : Nat) : Word :=
  match a / 0x10000000 with
  | 1 => s.readPower a
  | 2 => s.readLink a
  | 3 => s.readLedger a
  | 4 => s.readGuard a
  | 5 => s.readHub a
  | _ => s.rd a

/-! What a read changes -/

/-- Reading a low word latches the high one at the next address (R349, R395). -/
def State.latchHigh (s : State) (a x : Nat) : State := s.wrNat (a + 4) (high32 x)

/-- Reads of the Ledger that latch. -/
def State.latchLedger (s : State) (a : Nat) : State :=
  let o := a - 0x30100000
  if 0x30000100 ≤ a ∧ a < 0x30000300 then
    let m := s.meter ((a - 0x30000100) / 0x40)
    if a % 0x40 = 0 then s.latchHigh a m.imp else if a % 0x40 = 8 then s.latchHigh a m.exp else s
  else if 0x30100100 ≤ a ∧ a < 0x30100500 then
    let k := (o - 0x100) / 0x10
    if o % 0x10 = 0 then s.latchHigh a (Tab.get (fun _ => 0) s.tar.imp k)
    else if o % 0x10 = 8 then s.latchHigh a (Tab.get (fun _ => 0) s.tar.exp k)
    else s
  else if 0x30100800 ≤ a ∧ a < 0x30102800 ∧ o % 0x20 = 0 then
    s.latchHigh a (unsigned 64 (s.account ((o - 0x800) / 0x20)).bal)
  else s

/-- A read of the register at `a`: the word, and the state after it. -/
def State.regRead (s : State) (a : Nat) : Word × State :=
  let v := s.readWord a
  if a / 0x1000000 = 0x30 then (v, s.latchLedger a)
  else if a = Reg.SUP_VIN ∨ isNetwork a ∨ s.showsFree a then (v, s.took)
  else if a = Reg.PTP_TXTS 0 then (v, s.txtsTake 0)
  else if a = Reg.PTP_TXTS 1 then (v, s.txtsTake 1)
  else if 0x20100000 ≤ a ∧ a < 0x20100100 ∧ a % 0x40 = 0x20 then
    let s := s.tbTake ((a - 0x20100000) / 0x40)
    (s.rd a, s)
  else if Reg.TCAP_NS 0 ≤ a ∧ a ≤ Reg.TCAP_NS 7 ∧ a = Reg.TCAP_NS ((a - Reg.TCAP_CFG 0) / 0x20) then
    let s := s.tcapTake ((a - Reg.TCAP_CFG 0) / 0x20)
    (s.rd a, s)
  else (v, s)

end Sys2Proof.Machine
end

