-- ==== Sys2Proof/Machine/FabricOps.lean ====
section
/-!
DEFINITION. Machine/FabricOps.lean: what an access does at its target, and how its outcome reaches the initiator (R4, R5, R13 to
R21, R46, R47, R58, R75 to R78, R340, R370, R551).
-/
namespace Sys2Proof.Machine

/-! Targets -/

/-- The boot ROM of the address map (R77): the spec gives its base and no size. -/
def inRom (a : Nat) : Bool := a < 0x01000000

/-- The target port of an address: a bank of shared SRAM, a flash bank, a sequencer's TCM, or the window of a block. -/
def targetOf (a : Nat) : Nat :=
  if inSram a then 0x100 + sramBank a
  else if inFlash a then 0x200 + flashBank a
  else if tcmWindow 0 ≤ a ∧ a < tcmWindow 8 then 0x300 + tcmOwner a
  else if inRom a then 0x400
  else 0x1000 + a / 0x100000

/-- The block of an address: it answers the access, and its record takes a transaction that is terminated (R21, R549). -/
def blockAt (a : Nat) : Nat :=
  if inSram a then 0x21
  else if inFlash a then 0x22
  else if inTcm a then 0x20
  else (regBlock a).getD 0x23

/-- The access is refused at once under R4 or R78: no aligned word of a register, an address that the map does not list, or a
block without supply. -/
def State.refused (s : State) (a size : Nat) : Bool :=
  a % size ≠ 0 ||
    !(inRom a || inSram a || inFlash a || inTcm a ||
      (size = 4 && (match regRow a with | some r => s.domUp (domainOf r.block) | none => false)))

/-- The target of the access answers: it is out of reset, or the access is refused at once. -/
def State.answers (s : State) (a size : Nat) : Bool := s.refused a size || s.up (blockAt a)

/-- An access that ends in a bus error for a reason of its target: FAB_ERR_ADDR and FAB_ERR_INFO capture it (R21, R58). -/
def State.busError (s : State) (slot a : Nat) (write : Bool) : State := s.captureBusError slot a 0 write

/-! Register writes (R5) -/

/-- Some field of the register takes a write. -/
def RegRow.writable (r : RegRow) : Bool := r.fields.any (fun f => f.acc ≠ .ro)

/-- A write of the register to which the Ledger and Selvedge answer with a bus error: their views, and what only the Ledger
writes (R340, R370, R444). -/
def writeRefused (r : RegRow) (slot : Nat) : Bool :=
  (r.lock = .view && (r.block = 0x18 || slot ≠ 8)) ||
    ((r.block = 0x11 || r.block = 0x12) && slot ≠ 8 && !r.writable)

/-- The register's lock makes it read-only for now: the write is ignored (R5, R34, R104, R456). The locks that close only a
part of a register are left to its owner, as is LOOM_TSRC, whose STUCK and REFUSED stay open. DESIGN CHOICE: a write of OUTCFG
that LOOM_LOCK closes counts for nothing, nor as the write that code 0x02 asks for (R108, log entry 141). -/
def State.writeIgnored (s : State) (r : RegRow) : Bool :=
  match r.lock with
  | .errLock => s.flag Reg.ERR_LOCK F.ERR_LOCK_LOCK
  | .loomLock => s.flag Reg.LOOM_LOCK F.LOOM_LOCK_LOCK && r.first ≠ Reg.LOOM_TSRC 0
  | .hsLock => s.flag Reg.HS_CTRL F.HS_CTRL_LOCK
  | .view => true
  | _ => false

/-- The write by the owner of the window. -/
def State.ownerWrite (s : State) (slot a : Nat) (v : Word) : State :=
  match a / 0x100000 with
  | 0x100 => s.loomWrite a v
  | 0x101 => s.twillWrite a v
  | 0x102 => s.senseWrite a v
  | 0x103 => s.salternWrite a v
  | 0x105 => s.gridWrite a v
  | w =>
    if w < 0x300 then s.linkWrite slot a v
    else if w < 0x400 then s.ledgerWrite a v
    else if w < 0x500 then s.guardWrite a v
    else s.hubWrite a v

/-- A write of a register that exists and whose block answers: whether it succeeds, and the state after it. -/
def State.regWrite (s : State) (slot a : Nat) (r : RegRow) (v : Word) : Bool × State :=
  if writeRefused r slot then (false, s.refuseAccess slot a true)
  else if r.lock = .twRun && s.flag (Reg.TW_CTRL ((a - 0x10100000) / 0x10000)) F.TW_CTRL_RUN then
    (false, s.busError slot a true)
  else if s.writeIgnored r then (true, s)
  else (true, s.ownerWrite slot a v)

/-! Accesses at their target -/

/-- A write to a TCM through its window (R77): the instruction memory takes it only while the sequencer's contexts are all
STOPPED. -/
def State.tcmWrite (s : State) (slot a size : Nat) (v : Nat) : Bool × State :=
  if tcmIsInstr a && (List.range 4).any (fun j => (s.ctx (CtxKey (tcmOwner a) j)).run ≠ .stopped) then
    (false, s.busError slot a true)
  else
    let r := s.checkWrite a size v
    if r.1 then r else (false, r.2.busError slot a true)

/-- A write of the low `size` bytes of `v` at `a`: whether it succeeds, and the state after it. -/
def State.fabWrite (s : State) (slot a size : Nat) (v : Word) : Bool × State :=
  let low := v.toNat % 2 ^ (8 * size)
  if s.refused a size then (false, s.refuseAccess slot a true)
  else if inSram a then
    let r := s.checkWrite a size low
    if r.1 then r else (false, r.2.busError slot a true)
  else if inTcm a then s.tcmWrite slot a size low
  else
    match regRow a with
    | some r => s.regWrite slot a r v
    | none => (false, s.busError slot a true)

/-- A read of `size` bytes at `a`: the number read, unless it ends in a bus error, and the state after it. -/
def State.fabRead (s : State) (slot a size : Nat) : Option Nat × State :=
  if s.refused a size then (none, s.refuseAccess slot a false)
  else if inSram a || inTcm a then
    let r := s.checkRead a
    if r.1 then (some (r.2.num a size), r.2) else (none, r.2.busError slot a false)
  else if inFlash a then (some (s.num a size), s)
  else if inRom a then (some (leNat ((List.range size).map (fun i => Config.romByte (a + i)))), s)
  else
    let r := s.regRead a
    (some r.1.toNat, r.2)

/-- An atomic at `a` (R47): the old word, and the new one that `f` gives is written in the same step. -/
def State.fabAtomic (s : State) (slot a : Nat) (f : Word → Word) : Option Nat × State :=
  let r := s.fabRead slot a 4
  match r.1 with
  | some t => (some t, (r.2.fabWrite slot a 4 (f (BitVec.ofNat 32 t))).2)
  | none => r

/-! The outcome at the initiator -/

/-- A context whose BAR has waited for the last of its transactions goes on (R44, R58). -/
def State.barDone (s : State) (k : Nat) : State :=
  let x := s.ctx k
  if x.stall = .bar && !s.hasAccess k then
    let s := s.boundary k
    if (s.ctx k).stall = .bar then s.goOn k { s.ctx k with stall := .none } else s
  else s

/-- A transaction of context k is over: its BAR, its halt, and the requests that find the room it leaves (R13, R19, R81). -/
def State.settle (s : State) (k : Nat) : State :=
  let s := s.grants
  if k < 40 then (s.barDone k).haltIfDone k else s

/-- A load or an atomic returns `n`: w[d] takes it and the context goes on (R46). -/
def State.loaded (s : State) (k d : Nat) (v : Word) : State := s.accessDone k ((s.ctx k).put d v).advance

/-- A load or an atomic ends in a bus error: trap BUS_LOAD, unless a bus error of a store waits, which is taken first
(R56, R60); a context that was told to restart restarts (R67). -/
def State.loadFailed (s : State) (k : Nat) (addr : Word) : State :=
  let x := s.ctx k
  if x.restarting || (x.busPend && !x.inTrap) then s.accessDone k x
  else ((s.setCtx k { x with stall := .none }).trapHere k causeBusLoad addr).haltIfDone k

/-- The error response of a store reaches context k: BUSPEND, and the imprecise trap at the next boundary; in WAIT and in BAR
it is taken at once (R58, R59). -/
def State.storeFailed (s : State) (k : Nat) (addr : Word) : State :=
  let x := s.ctx k
  let s := if x.busPend then s.setCtx k { x with status := x.status ||| 0x8000 }
    else s.setCtx k { x with status := x.status ||| 0x4000, busAddr := addr }
  s.boundary k

/-- The transaction ends in a bus error at its initiator; one that no context issued ends there. -/
def State.failed (s : State) (x : Xact) : State :=
  if x.ctx < 40 then
    match x.kind with
    | .store _ _ => s.storeFailed x.ctx x.addr
    | _ => s.loadFailed x.ctx x.addr
  else s

/-- The transactions without that at place `k`. -/
def State.dropOut (s : State) (k : Nat) : State := s.setFabric { s.fabric with out := s.fabric.out.eraseIdx k }

/-- The target port of `x` has served it and is free from this CK_SYS cycle on (R19). -/
def State.served (s : State) (x : Xact) : State :=
  s.setFabric { s.fabric with
    portFree := Tab.set (fun _ => 0) s.fabric.portFree (targetOf x.addr.toNat) (s.now / ticksSys) }

/-- A read that has succeeded or not at its target reaches its context; that of an initiator that a reset has stopped since
is discarded (R31). -/
def State.readBack (x : Xact) (d : Nat) (f : Nat → Word) (r : Option Nat × State) : State :=
  if 40 ≤ x.ctx then r.2
  else
    match r.1 with
    | some n => r.2.loaded x.ctx d (f n)
    | none => r.2.loadFailed x.ctx x.addr

/-- Transaction `x`, at place `k`, meets its target: a store takes effect there, a bus error of it is then on its way
(R46, R58); a load or an atomic reaches its context. -/
def State.complete (s : State) (k : Nat) (x : Xact) : State :=
  let a := x.addr.toNat
  match x.kind with
  | .store size v =>
    let r := s.fabWrite x.slot a size v
    if r.1 || 40 ≤ x.ctx then ((r.2.dropOut k).served x).settle x.ctx
    else (r.2.setFabric { r.2.fabric with out := r.2.fabric.out.set k { x with failed := true } }).served x
  | .load d size sx =>
    (State.readBack x d (extend size sx) (((s.dropOut k).served x).fabRead x.slot a size)).settle x.ctx
  | .aadd d b =>
    (State.readBack x d (BitVec.ofNat 32) (((s.dropOut k).served x).fabAtomic x.slot a (fun t => t + b))).settle x.ctx
  | .acas d cmp new =>
    (State.readBack x d (BitVec.ofNat 32)
      (((s.dropOut k).served x).fabAtomic x.slot a (fun t => if t = cmp then new else t))).settle x.ctx

/-- No older transaction of the same slot and target is outstanding (R15). -/
def State.oldest (s : State) (k : Nat) (x : Xact) : Bool :=
  (s.fabric.out.take k).all (fun y => y.slot ≠ x.slot || targetOf y.addr.toNat ≠ targetOf x.addr.toNat)

/-- The outstanding transactions that stand at target port `p` with nothing of their own slot before them, with their places:
those that compete there (R15, R19). A posted store whose error response is on its way has been served. -/
def State.atPort (s : State) (p : Nat) : List (Nat × Xact) :=
  (s.fabric.out.zipIdx.map (fun e => (e.2, e.1))).filter
    (fun e => !e.2.failed && targetOf e.2.addr.toNat = p && s.oldest e.1 e.2)

/-- The CK_SYS cycle in which port `p` grants next: that in which it became free, or that of the first request there. -/
def State.grantCycle (s : State) (p : Nat) : Nat :=
  max (Tab.get (fun _ => 0) s.fabric.portFree p)
    ((s.atPort p).foldl (fun c e => min c (e.2.since / ticksSys)) (s.now / ticksSys))

/-- Transaction `x`, at place `k`, holds the grant of its target port: it is the oldest of its slot there (R15), and of the
requests that competed in the cycle of the grant none comes before it (R19). -/
def State.granted (s : State) (k : Nat) (x : Xact) : Bool :=
  let p := targetOf x.addr.toNat
  let c := s.grantCycle p
  s.oldest k x && x.since / ticksSys ≤ c &&
    (s.atPort p).all (fun e => e.1 = k || c < e.2.since / ticksSys ||
      (!s.beats e.2 x && (s.beats x e.2 || k < e.1)))

/-- A write by initiator `slot` of `size` bytes at `a` goes to its target at once: the fabric refuses it, or the target answers,
credits and limits leave room (R13, R18), and no request waits for or stands at its target port (R15, R19). -/
def State.goesAtOnce (s : State) (slot : Nat) (addr : Word) (size : Nat) : Bool :=
  s.refused addr.toNat size ||
    (s.up (blockAt addr.toNat) && s.canIssue (outsideXact s.now slot addr 0 size) &&
      (s.fabric.out ++ s.fabric.waiting).all (fun y => y.failed || targetOf y.addr.toNat ≠ targetOf addr.toNat))

/-- Bytes of a transaction. -/
def Xact.bytes (x : Xact) : Nat :=
  match x.kind with
  | .load _ size _ => size
  | .store size _ => size
  | _ => 4

/-- The response that a terminated transaction, at place `k` of those, still owed arrives and is discarded: the oldest of
its target recovers code 0xF2 (R549). -/
def State.discard (s : State) (k : Nat) (x : Xact) : State :=
  let b := blockAt x.addr.toNat
  if s.up b then
    let first := (s.fabric.owed.take k).all (fun y => blockAt y.addr.toNat ≠ b)
    let s := s.setFabric { s.fabric with owed := s.fabric.owed.eraseIdx k }
    if first then s.recoversCell b 0xF2 0xFF else s
  else s

/-- The deadline of a transaction: FAB_TMO.LIMIT in 10 ns units, values below 100 act as 100 (R21, R34). -/
def State.xactDue (s : State) (x : Xact) : Nat :=
  x.since + max 100 (s.fld Reg.FAB_TMO F.FAB_TMO_LIMIT) * (10 * ticksPerNs)

/-- A write by an initiator that is no Weft context, where its target does not answer or serves others first, or no credit is
left: it is outstanding, or waits (R13, R15, R18, R19). -/
def State.hang (s : State) (slot : Nat) (addr data : Word) (size : Nat) : State :=
  let x := outsideXact s.now slot addr data size
  if s.canIssue x then s.setFabric { s.fabric with out := s.fabric.out ++ [x] }
  else s.setFabric { s.fabric with waiting := s.fabric.waiting ++ [x] }

/-- The sizes of an access: 1, 2 and 4 bytes. -/
def sizeOf3 (n : Fin 3) : Nat := 2 ^ n.val

end Sys2Proof.Machine
end

