-- ==== Sys2Proof/Machine/FabricCommands.lean ====
section
/-!
DEFINITION. Machine/FabricCommands.lean: the commands of the fabric: writes, window accesses, responses, error responses,
timeouts and promotions (R5, R15, R20, R21, R46, R58, R77).
-/
namespace Sys2Proof.Machine

/-- The fabric's own commands act while the hub is powered and out of reset. -/
def State.onFabric (s : State) (f : State → State) : State := s.onBlk .fabric f

/-- A write by an initiator outside Weft: it acts at its target at once where nothing makes it wait (R4, R5, R13, R15, R19,
R33). -/
def State.outsideWrite (s : State) (slot : Nat) (addr data : Word) (size : Nat) : State :=
  if s.fabric.closed then s
  else if s.goesAtOnce slot addr size then (s.fabWrite slot addr.toNat size data).2
  else s.hang slot addr data size

/-- REGISTER_WRITE: a register acts according to its access codes; an access refused under R4 or R78 raises NOTE 0xF1 (R5,
R21). -/
def execRegisterWrite (slot : Fin 19) (addr data : Word) (size : Fin 3) (s : State) : Host.Outcome State Fault Refusal :=
  .next (s.onFabric (fun s => s.outsideWrite slot.val addr data (sizeOf3 size)))

/-- TCM_WINDOW_ACCESS: an access by another initiator through the windows of the TCMs (R77). -/
def execTcmWindowAccess (slot : Fin 19) (addr data : Word) (write : Bool) (size : Fin 3) (s : State) :
    Host.Outcome State Fault Refusal :=
  .next (s.onFabric (fun s =>
    if s.fabric.closed || addr.toNat < tcmWindow 0 || tcmWindow 8 ≤ addr.toNat then s
    else if write then s.outsideWrite slot.val addr data (sizeOf3 size)
    else (s.fabRead slot.val addr.toNat (sizeOf3 size)).2))

/-- FABRIC_RESPONSE: transaction k of the outstanding ones completes at its target and at its initiator, in issue order for
one initiator and target, and where several compete for a target port in the order of R19; a number beyond them is a terminated one, whose response is discarded (R15, R46, R549). -/
def execFabricResponse (k : Fin 128) (s : State) : Host.Outcome State Fault Refusal :=
  .next (s.onFabric (fun s =>
    match s.fabric.out[k.val]? with
    | some x =>
      if !x.failed && s.granted k.val x && s.answers x.addr.toNat x.bytes then s.complete k.val x else s
    | none =>
      let i := k.val - s.fabric.out.length
      match s.fabric.owed[i]? with
      | some x => s.discard i x
      | none => s))

/-- BUS_STORE_ERROR: the error response of posted store k reaches its context (R58). -/
def execBusStoreError (k : Fin 128) (s : State) : Host.Outcome State Fault Refusal :=
  .next (s.onFabric (fun s =>
    match s.fabric.out[k.val]? with
    | some x => if x.failed then ((s.dropOut k.val).failed x).settle x.ctx else s
    | none => s))

/-- TRANSACTION_TIMEOUT: transaction k is not complete within FAB_TMO.LIMIT: it is terminated with a bus error, captured, and
its target raises CONTAIN 0xF2 (R21, R549). -/
def execTransactionTimeout (k : Fin 128) (s : State) : Host.Outcome State Fault Refusal :=
  .next (s.onFabric (fun s =>
    match s.fabric.out[k.val]? with
    | some x =>
      if !x.failed && s.xactDue x ≤ s.now then
        let write := match x.kind with | .store _ _ => true | _ => false
        let s := ((s.dropOut k.val).served x).captureBusError x.slot x.addr.toNat 2 write
        let s := s.setFabric { s.fabric with owed := s.fabric.owed ++ [x] }
        ((s.contain (blockAt x.addr.toNat) 0xFF 0xF2).failed x).settle x.ctx
      else s
    | none => s))

/-- ARBITRATION_PROMOTION: request k has waited 1,024 CK_SYS cycles and counts as class 3 (R20): of those that wait for a
credit, and then of those that stand at their target port. -/
def execArbitrationPromotion (k : Nat) (s : State) : Host.Outcome State Fault Refusal :=
  .next (s.onFabric (fun s =>
    let old := fun (x : Xact) => decide (x.since + 1024 * ticksSys ≤ s.now)
    match s.fabric.waiting[k]? with
    | some x =>
      if old x then s.setFabric { s.fabric with waiting := s.fabric.waiting.set k { x with promoted := true } } else s
    | none =>
      let i := k - s.fabric.waiting.length
      match s.fabric.out[i]? with
      | some x => if old x then s.setFabric { s.fabric with out := s.fabric.out.set i { x with promoted := true } } else s
      | none => s))

end Sys2Proof.Machine
end

