-- ==== Sys2Proof/Machine/Selvedge.lean ====
section
/-!
DEFINITION. Machine/Selvedge.lean: the commands of Selvedge (R415 to R444).
-/
namespace Sys2Proof.Machine

/-- SAFETY_CYCLE_START: a cycle without a commit is a pair fault of code 0x13; else the input states are latched and line
0x00 tells the pair (R420). A confirmation takes effect here (R425). -/
def execSafetyCycleStart (s : State) : Host.Outcome State Fault Refusal :=
  .next (s.onBlk .selvedge (fun s =>
    if s.reached s.selv.cycleAt then
      if s.selv.cycleOpen && !s.selv.committed then s.pairFault 0x13
      else
        let all := fun (f : Nat → Bool) => (List.range 16).foldl (fun a n => a + bit01 (f n) * 2 ^ n) 0
        let s := (s.setFld Reg.SFS_IN F.SFS_IN_OK (all s.pairOk)).setFld Reg.SFS_IN F.SFS_IN_DISC
          (all (fun n => (s.safePair n).disc))
        let s := (s.setFld Reg.SFS_IN2 F.SFS_IN2_STUCK (all (fun n => (s.safePair n).stuck))).setFld Reg.SFS_IN2
          F.SFS_IN2_RATE (all (fun n => (s.safePair n).rate))
        let s := if s.selv.toRun then s.setFld Reg.SFS_STATUS F.SFS_STATUS_STATE sfsRun
          else if s.sfsState = sfsRun ∧ s.selv.cycleOpen then s.wr Reg.SFS_CYC (s.rd Reg.SFS_CYC + 1) else s
        let s := s.setSelv { s.selv with cycleAt := s.selv.cycleAt.map (· + s.cycleTicks), cycleOpen := true,
                                         enSeen := false, committed := false, toRun := false }
        (s.line 0x18 0x00).refreshOuts
    else s))

/-- SAFETY_COMMIT: SFS_OUT_CMT commits SAFE_EN (R420). -/
def execSafetyCommit (s : State) : Host.Outcome State Fault Refusal :=
  .next (s.onBlk .selvedge (fun s => s.safetyCommit))

/-- LOCKSTEP_MISMATCH: a pair fault of code 0x10 (R415, R417). -/
def execLockstepMismatch (s : State) : Host.Outcome State Fault Refusal :=
  .next (s.onBlk .selvedge (fun s => s.pairFault 0x10))

/-- SAFE_CLOCK_CHECK: the CK_SAFE count of a 1 ms window, the CK_SAFE cycles since the last edge of REFCLK, and for how many µs
the supply has lain outside its limits (R416): two windows outside 98,000 to 102,000 in a row, a gap of 100,000 cycles, and a
supply outside for longer than 10 µs are pair faults. -/
def execSafeClockCheck (count gap supply : Nat) (s : State) : Host.Outcome State Fault Refusal :=
  .next (s.onBlk .selvedge (fun s =>
    let bad := count < 98000 || 102000 < count
    if 10 < supply then s.pairFault 0x12
    else if 100000 ≤ gap || (bad && s.selv.badCount) then s.pairFault 0x11
    else s.setSelv { s.selv with badCount := bad }))

/-- SAFETY_CONFIG_RECHECK: every 10 s the CRC is computed anew; a mismatch is a pair fault of code 0x15 (R423). -/
def execSafetyConfigRecheck (s : State) : Host.Outcome State Fault Refusal :=
  .next (s.onBlk .selvedge (fun s =>
    if s.reached s.selv.crcAt then
      if crc32 (s.bytes pairDtcm 0x1FC) ≠ s.rd Reg.SFS_CHK then s.pairFault 0x15
      else s.setSelv { s.selv with crcAt := s.selv.crcAt.map (· + 10 * ticksPerS) }
    else s))

/-- FILT of pair n in µs (R422, R426). -/
def State.safeFilter (s : State) (n : Nat) : Nat := s.scfg (0x11 + 8 * n) 1 * 500

/-- SAFE_INPUT_ACCEPT: at a sample, a level that has been present for `us` µs is accepted where that is FILT × 0.5 ms or more
(R426): OK or DEMAND follows (R427), DISC clears once both channels show demand (R428), and the reset button may acknowledge
(R430). -/
def execSafeInputAccept (n : Fin 16) (chB level : Bool) (us : Nat) (off : BitVec 10) (s : State) :
    Host.Outcome State Fault Refusal :=
  .next (s.onBlk .selvedge (fun s =>
    if us < s.safeFilter n.val then s
    else
      (s.pairStep n.val (fun s =>
        let s := s.setBit Reg.SFS_RAW (if chB then F.SFS_RAW_LVL_B else F.SFS_RAW_LVL_A) n.val level
        if !s.chanOk n.val false && !s.chanOk n.val true then s.setSafePair n.val { s.safePair n.val with disc := false }
        else s)).resetButton n.val (s.safePair n.val).okSince off))

/-- SAFE_INPUT_DISCREPANCY: the channels have disagreed for DISC ms (R428). -/
def execSafeInputDiscrepancy (n : Fin 16) (s : State) : Host.Outcome State Fault Refusal :=
  .next (s.onBlk .selvedge (fun s =>
    let p := s.safePair n.val
    if s.pairNamed n.val && !p.disc && s.reached (p.disSince.map (· + s.scfg (0x12 + 8 * n.val) 2 * ticksPerMs)) then
      ((s.pairStep n.val (fun s => s.setSafePair n.val { s.safePair n.val with disc := true })).note 0x18 (0x10 + n.val) 0x02).line
        0x18 0x13
    else s))

/-- SAFE_INPUT_STUCK: the pair has been OK for PLAUS s, or a raw channel has made `changes` level changes within 1 s,
more than RATE_LIM (R429). A reset button that goes to DEMAND by it may acknowledge (R430). -/
def execSafeInputStuck (n : Fin 16) (changes : Nat) (off : BitVec 10) (s : State) : Host.Outcome State Fault Refusal :=
  .next (s.onBlk .selvedge (fun s =>
    let p := s.safePair n.val
    let plaus := s.scfg (0x14 + 8 * n.val) 2
    let lim := s.scfg (0x16 + 8 * n.val) 1
    let rate := lim ≠ 0 && lim < changes
    if s.pairNamed n.val && !p.stuck && (rate || (plaus ≠ 0 && s.reached (p.okSince.map (· + plaus * ticksPerS)))) then
      (((s.pairStep n.val (fun s => s.setSafePair n.val { s.safePair n.val with stuck := true, rate := rate })).note 0x18
        (0x10 + n.val) 0x03).line 0x18 0x13).resetButton n.val p.okSince off
    else s))

/-- PERMIT: a permit whose SEQ follows the last, or the first after a lapse, replaces the present one and lives PERMIT_MS;
any other is a sequence error, NOTE code 0x05 (R436). -/
def execPermit (s : State) : Host.Outcome State Fault Refusal :=
  .next (s.onBlk .selvedge (fun s => s.handleWord (fun w => s.selv.confSeen = 0 && wordType w = 1) (fun w s =>
    let seq := w.toNat % 64
    if s.selv.permitDue.isNone ∨ seq = (s.fld Reg.SFS_PERMIT F.SFS_PERMIT_SEQ + 1) % 64 then
      let s := (s.setFld Reg.SFS_PERMIT F.SFS_PERMIT_SEQ seq).setFld Reg.SFS_OUT F.SFS_OUT_PERMIT (w.toNat / 2 ^ 16 % 1024)
      (s.setSelv { s.selv with permitDue := some (s.now + s.scfg 5 1 * ticksPerMs) }).refreshOuts
    else (s.bump Reg.SFS_PERMIT F.SFS_PERMIT_SEQ_ERR).note 0x18 0 0x05)))

/-- PERMIT_LAPSE: the permit ends without renewal, the cycle of its expiry included; soft openings begin, lines 0x03 and 0x11
(R432, R436, R440, R442). -/
def execPermitLapse (s : State) : Host.Outcome State Fault Refusal :=
  .next (s.onBlk .selvedge (fun s =>
    if s.permitOver then
      let s := (s.setFld Reg.SFS_OUT F.SFS_OUT_PERMIT 0).setSelv { s.selv with permitDue := none }
      (((s.bump Reg.SFS_PERMIT F.SFS_PERMIT_LAPSES).line 0x18 0x03).line 0x18 0x11).refreshOuts
    else s))

/-- ACK: an application acknowledge, where ACK_APP allows it (R430). -/
def execAck (off : BitVec 10) (s : State) : Host.Outcome State Fault Refusal :=
  .next (s.onBlk .selvedge (fun s => s.handleWord (fun w => s.selv.confSeen = 0 && wordType w = 2) (fun w s =>
    if s.scfg 0xF 1 = 1 then s.acknowledge (w.toNat / 2 ^ 16 % 1024) (w.toNat % 65536) off.toNat else s)))

/-- BRAKE_TEST: accepted while SOUT[9] is de-energised, MOTION_PAIR is named and no test runs (R437, R440); a MOTION_PAIR
already in demand fails it. -/
def execBrakeTest (s : State) : Host.Outcome State Fault Refusal :=
  .next (s.onBlk .selvedge (fun s => s.handleWord (fun w => s.selv.confSeen = 0 && wordType w = 3) (fun _ s =>
    if s.energ 9 ∨ s.scfg 0xE 1 = 0xFF ∨ s.flag Reg.SFS_BRAKE F.SFS_BRAKE_BT_RUN then s.refuseWord
    else
      let s := (s.setFlag Reg.SFS_BRAKE F.SFS_BRAKE_BT_RUN true).setSelv
        { s.selv with brakeEnd := some (s.now + s.scfg 0x134 2 * ticksPerMs), brakeFailed := false }
      if s.pairOk (s.scfg 0xE 1) then s
      else ((s.setFlag Reg.SFS_BRAKE F.SFS_BRAKE_BT_FAIL true).setSelv { s.selv with brakeFailed := true }).note 0x18 0x29
        0x07)))

/-- BRAKE_TEST_END: the BT_MS window ends; a test that has not failed passes: BT_FAIL and BT_DUE clear and BT_AGE
restarts (R437, R438). Line 0x15 reports either outcome. -/
def execBrakeTestEnd (s : State) : Host.Outcome State Fault Refusal :=
  .next (s.onBlk .selvedge (fun s =>
    if s.reached s.selv.brakeEnd then
      let s := (s.setFlag Reg.SFS_BRAKE F.SFS_BRAKE_BT_RUN false).setSelv { s.selv with brakeEnd := none }
      let s := if s.selv.brakeFailed then s
        else ((s.setFlag Reg.SFS_BRAKE F.SFS_BRAKE_BT_FAIL false).setFlag Reg.SFS_BRAKE F.SFS_BRAKE_BT_DUE false).setSelv
          { s.selv with ageAt := s.now }
      (s.line 0x18 0x15).refreshOuts
    else s))

/-- BRAKE_TEST_DUE: BT_AGE has reached BT_INT (R438); a release in force is kept until the next de-energise. -/
def execBrakeTestDue (s : State) : Host.Outcome State Fault Refusal :=
  .next (s.onBlk .selvedge (fun s =>
    if s.hasOwners && s.scfg 0x130 4 ≠ 0 && s.scfg 0x130 4 ≤ s.brakeAge then
      s.setFlag Reg.SFS_BRAKE F.SFS_BRAKE_BT_DUE true
    else s))

/-- CONFIRM: the next word of a CONFIRM message arrives (R425). The third decides: with the key OK, every output
de-energised and both values equal, the confirmation is stored; CONF_RES and line 0x16 report it. A word that came too late
ends the message instead. -/
def execConfirm (s : State) : Host.Outcome State Fault Refusal :=
  .next (s.onBlk .selvedge (fun s =>
    if s.confLate then s.confTimeout
    else s.handleWord (fun w => s.selv.confSeen ≠ 0 || wordType w = 4) (fun w s =>
      let due := some (s.now + ticksPerMs)
      if s.selv.confSeen = 0 then s.setSelv { s.selv with confSeen := 1, confDue := due }
      else if s.selv.confSeen = 1 then s.setSelv { s.selv with confSeen := 2, confWord := w, confDue := due }
      else
        let res := if !s.pairOk (s.scfg 0xD 1) then 2
          else if s.fld Reg.SFS_OUT F.SFS_OUT_ENERG ≠ 0 then 3
          else if s.selv.confWord ≠ s.rd Reg.SFS_CHK ∨ w ≠ s.rd Reg.SFS_PROG then 4 else 1
        let s := if res = 1 then
            let s := (s.wr Reg.SFS_CONF_CHK s.selv.confWord).wr Reg.SFS_CONF_PROG w
            s.setSelv { s.selv with nvChk := s.selv.confWord, nvProg := w,
                                    toRun := s.selv.toRun || s.sfsState = 2 }
          else s
        let s := s.setSelv { s.selv with confSeen := 0, confWord := 0, confDue := none }
        (s.setFld Reg.SFS_MSG F.SFS_MSG_CONF_RES res).line 0x18 0x16)))

/-- CONFIRM_TIMEOUT: a confirmation word did not follow within 1 ms: CONF_RES incomplete (R425). -/
def execConfirmTimeout (s : State) : Host.Outcome State Fault Refusal :=
  .next (s.onBlk .selvedge (fun s =>
    if s.reached s.selv.confDue then s.confTimeout else s))

/-- USER: a USER word reaches the pair's program, and MAIL is pending there (R421, R435). -/
def execUser (s : State) : Host.Outcome State Fault Refusal :=
  .next (s.onBlk .selvedge (fun s => s.handleWord (fun w => s.selv.confSeen = 0 && wordType w = 8) (fun w s =>
    let s := s.setSelv { s.selv with user := s.selv.user ++ [w] }
    [36, 37, 38, 39].foldl (fun s k => s.wake k) s)))

/-- SAFE_CURRENT_CODE: a raw current code of outlet o (R433); a soft opening whose current is now low ends. -/
def execSafeCurrentCode (o : Fin 8) (code : BitVec 24) (s : State) : Host.Outcome State Fault Refusal :=
  .next (s.onBlk .selvedge (fun s =>
    let c := s.rawCurrent o.val
    (s.setRawCurrent o.val { codes := (code.toInt :: c.codes).take 4, last := some s.now, gap := false }).refreshOuts))

/-- SAFE_CURRENT_GAP: no code of outlet o for 1 ms, so its current is not low (R433). -/
def execSafeCurrentGap (o : Fin 8) (s : State) : Host.Outcome State Fault Refusal :=
  .next (s.onBlk .selvedge (fun s =>
    let c := s.rawCurrent o.val
    if s.reached (c.last.map (· + ticksPerMs)) then
      s.setRawCurrent o.val { c with gap := true }
    else s))

/-- SOFT_OPEN_TIMEOUT: 20 ms after a soft opening began the output turns off (R432). -/
def execSoftOpenTimeout (m : Fin 10) (s : State) : Host.Outcome State Fault Refusal :=
  .next (s.onBlk .selvedge (fun s =>
    if s.outSoft m.val && s.reached ((s.safeOut m.val).softAt.map (· + 20 * ticksPerMs)) then
      (s.outOff m.val).refreshOut m.val
    else s))

/-- OFF_PULSE_START: channel A or B of an energised output begins its off-pulse; never both, and none on an output that
is turning off (R434, R440). -/
def execOffPulseStart (m : Fin 10) (chB : Bool) (s : State) : Host.Outcome State Fault Refusal :=
  .next (s.onBlk .selvedge (fun s =>
    let x := s.safeOut m.val
    if s.energ m.val && !s.outSoft m.val && x.pulse.isNone && s.reached (if chB then x.nextB else x.nextA) then
      s.setSafeOut m.val { x with pulse := some (chB, s.now) }
    else s))

/-- OFF_PULSE_END: OP_US later the channel turns on again; a channel that read back on 20 µs before is a read-back
fault (R434). -/
def execOffPulseEnd (m : Fin 10) (readsOn : Bool) (s : State) : Host.Outcome State Fault Refusal :=
  .next (s.onBlk .selvedge (fun s =>
    let x := s.safeOut m.val
    let op := s.scfg 8 2 * ticksPerMs
    match x.pulse with
    | some (chB, t) =>
      if t + s.scfg 0xA 2 * ticksPerUs ≤ s.now then
        if readsOn then s.readbackFault m.val
        else s.setSafeOut m.val
          { x with pulse := none, nextA := if chB then x.nextA else x.nextA.map (· + op),
                   nextB := if chB then x.nextB.map (· + op) else x.nextB }
      else s
    | none => s))

/-- SOUT_READBACK_FAULT: a channel has read off outside a pulse while commanded on, or on while the output is de-energised,
for `us` µs, more than 100 (R434). -/
def execSoutReadbackFault (m : Fin 10) (readsOn : Bool) (us : Nat) (s : State) : Host.Outcome State Fault Refusal :=
  .next (s.onBlk .selvedge (fun s =>
    let x := s.safeOut m.val
    if 100 < us && !s.outFault m.val && (if readsOn then !s.energ m.val else s.energ m.val && x.pulse.isNone) then
      s.readbackFault m.val
    else s))

end Sys2Proof.Machine
end

