-- ==== Sys2Proof/Machine/WeftAlu.lean ====
section
/-!
DEFINITION. Machine/WeftAlu.lean: the Weft arithmetic, logic, immediate and bit-field instructions (R42).
-/
namespace Sys2Proof.Machine

/-- w[d] := f of the context; the next instruction follows. -/
def weftAlu (c : CtxId) (d : Fin 32) (f : Context → Word) (s : State) : State :=
  weftCtx c s (fun x => x.put d.val (f x))

/-- A comparison as 1 or 0. -/
def boolWord (b : Bool) : Word := if b then 1 else 0

/-- DIV: the quotient rounded toward zero, its corners, and the bits it sets (R42). -/
def divS (x : Context) (d : Nat) (a b : Word) : Context :=
  if b = 0 then (x.put d (if a.toInt < 0 then 0x80000000 else 0x7FFFFFFF)).setDz
  else x.putSat32 d (divZero a.toInt b.toInt)

/-- DIVU. -/
def divU (x : Context) (d : Nat) (a b : Word) : Context :=
  if b = 0 then (x.put d 0xFFFFFFFF).setDz else x.put d (a / b)

/-- The `n` low bits set. -/
def lowMask (n : Nat) : Word := BitVec.ofNat 32 (2 ^ n - 1)

/-- Leading zeros, trailing zeros and set bits of a word. -/
def clzWord (v : Word) : Nat := ((List.range 32).find? (fun i => v.getLsbD (31 - i))).getD 32
def ctzWord (v : Word) : Nat := ((List.range 32).find? (fun i => v.getLsbD i)).getD 32
def popWord (v : Word) : Nat := (List.range 32).countP (fun i => v.getLsbD i)

/-- The four bytes in reverse order. -/
def revWord (v : Word) : Word := BitVec.ofNat 32 (beNat (leBytes 4 v.toNat))

/-- The word of a bit-field instruction, opcode 0x07 (format F). -/
def wordF (func n p d a : Nat) : Word := wordR 0x07 func n p d a

/-- A bit-field instruction: p + n above 31 traps ILLEGAL (R42). -/
def weftField (c : CtxId) (func : Nat) (d a p n : Fin 32) (f : Context → Word) (s : State) : State :=
  weft c s (fun k s =>
    if 31 < p.val + n.val then s.trapHere k causeIllegal (wordF func n.val p.val d.val a.val)
    else s.setCtx k ((s.ctx k).put d.val (f (s.ctx k))).advance)

/-- ADD: modulo 2^32 (R42). -/
def execAdd (c : CtxId) (d a b : Fin 32) (s : State) : Host.Outcome State Fault Refusal :=
  .next (weftAlu c d (fun x => x.reg a.val + x.reg b.val) s)

/-- SUB: modulo 2^32 (R42). -/
def execSub (c : CtxId) (d a b : Fin 32) (s : State) : Host.Outcome State Fault Refusal :=
  .next (weftAlu c d (fun x => x.reg a.val - x.reg b.val) s)

/-- AND (R42). -/
def execAnd (c : CtxId) (d a b : Fin 32) (s : State) : Host.Outcome State Fault Refusal :=
  .next (weftAlu c d (fun x => x.reg a.val &&& x.reg b.val) s)

/-- OR (R42). -/
def execOr (c : CtxId) (d a b : Fin 32) (s : State) : Host.Outcome State Fault Refusal :=
  .next (weftAlu c d (fun x => x.reg a.val ||| x.reg b.val) s)

/-- XOR (R42). -/
def execXor (c : CtxId) (d a b : Fin 32) (s : State) : Host.Outcome State Fault Refusal :=
  .next (weftAlu c d (fun x => x.reg a.val ^^^ x.reg b.val) s)

/-- SLL: by w[b][4:0] (R42). -/
def execSll (c : CtxId) (d a b : Fin 32) (s : State) : Host.Outcome State Fault Refusal :=
  .next (weftAlu c d (fun x => x.reg a.val <<< ((x.reg b.val).toNat % 32)) s)

/-- SRL: zeros in (R42). -/
def execSrl (c : CtxId) (d a b : Fin 32) (s : State) : Host.Outcome State Fault Refusal :=
  .next (weftAlu c d (fun x => x.reg a.val >>> ((x.reg b.val).toNat % 32)) s)

/-- SRA: sign in (R42). -/
def execSra (c : CtxId) (d a b : Fin 32) (s : State) : Host.Outcome State Fault Refusal :=
  .next (weftAlu c d (fun x => (x.reg a.val).sshiftRight ((x.reg b.val).toNat % 32)) s)

/-- SLT: signed (R42). -/
def execSlt (c : CtxId) (d a b : Fin 32) (s : State) : Host.Outcome State Fault Refusal :=
  .next (weftAlu c d (fun x => boolWord ((x.reg a.val).slt (x.reg b.val))) s)

/-- SLTU: unsigned (R42). -/
def execSltu (c : CtxId) (d a b : Fin 32) (s : State) : Host.Outcome State Fault Refusal :=
  .next (weftAlu c d (fun x => boolWord ((x.reg a.val).ult (x.reg b.val))) s)

/-- MIN: the signed lesser (R42). -/
def execMin (c : CtxId) (d a b : Fin 32) (s : State) : Host.Outcome State Fault Refusal :=
  .next (weftAlu c d (fun x => if (x.reg a.val).slt (x.reg b.val) then x.reg a.val else x.reg b.val) s)

/-- MAX: the signed greater (R42). -/
def execMax (c : CtxId) (d a b : Fin 32) (s : State) : Host.Outcome State Fault Refusal :=
  .next (weftAlu c d (fun x => if (x.reg a.val).slt (x.reg b.val) then x.reg b.val else x.reg a.val) s)

/-- SLLI: as SLL, by the constant k (R42). -/
def execSlli (c : CtxId) (d a k : Fin 32) (s : State) : Host.Outcome State Fault Refusal :=
  .next (weftAlu c d (fun x => x.reg a.val <<< k.val) s)

/-- SRLI: as SRL, by the constant k (R42). -/
def execSrli (c : CtxId) (d a k : Fin 32) (s : State) : Host.Outcome State Fault Refusal :=
  .next (weftAlu c d (fun x => x.reg a.val >>> k.val) s)

/-- SRAI: as SRA, by the constant k (R42). -/
def execSrai (c : CtxId) (d a k : Fin 32) (s : State) : Host.Outcome State Fault Refusal :=
  .next (weftAlu c d (fun x => (x.reg a.val).sshiftRight k.val) s)

/-- DIV: signed, toward zero; by zero sets DZ, overflow sets Q (R42, R50). -/
def execDiv (c : CtxId) (d a b : Fin 32) (s : State) : Host.Outcome State Fault Refusal :=
  .next (weftCtx c s (fun x => divS x d.val (x.reg a.val) (x.reg b.val)))

/-- DIVU: unsigned; by zero sets DZ (R42). -/
def execDivu (c : CtxId) (d a b : Fin 32) (s : State) : Host.Outcome State Fault Refusal :=
  .next (weftCtx c s (fun x => divU x d.val (x.reg a.val) (x.reg b.val)))

/-- ADDI (R42). -/
def execAddi (c : CtxId) (d a : Fin 32) (imm : BitVec 16) (s : State) : Host.Outcome State Fault Refusal :=
  .next (weftAlu c d (fun x => x.reg a.val + sextImm imm) s)

/-- ANDI (R42). -/
def execAndi (c : CtxId) (d a : Fin 32) (imm : BitVec 16) (s : State) : Host.Outcome State Fault Refusal :=
  .next (weftAlu c d (fun x => x.reg a.val &&& zextImm imm) s)

/-- ORI (R42). -/
def execOri (c : CtxId) (d a : Fin 32) (imm : BitVec 16) (s : State) : Host.Outcome State Fault Refusal :=
  .next (weftAlu c d (fun x => x.reg a.val ||| zextImm imm) s)

/-- XORI (R42). -/
def execXori (c : CtxId) (d a : Fin 32) (imm : BitVec 16) (s : State) : Host.Outcome State Fault Refusal :=
  .next (weftAlu c d (fun x => x.reg a.val ^^^ zextImm imm) s)

/-- SLTI: signed (R42). -/
def execSlti (c : CtxId) (d a : Fin 32) (imm : BitVec 16) (s : State) : Host.Outcome State Fault Refusal :=
  .next (weftAlu c d (fun x => boolWord ((x.reg a.val).slt (sextImm imm))) s)

/-- LHI: imm × 2^16 (R42). -/
def execLhi (c : CtxId) (d : Fin 32) (imm : BitVec 16) (s : State) : Host.Outcome State Fault Refusal :=
  .next (weftAlu c d (fun _ => zextImm imm <<< 16) s)

/-- BFX: sext(w[a][p+n:p]) (R42). -/
def execBfx (c : CtxId) (d a p n : Fin 32) (s : State) : Host.Outcome State Fault Refusal :=
  .next (weftField c 0 d a p n (fun x => ((x.reg a.val) <<< (31 - p.val - n.val)).sshiftRight (31 - n.val)) s)

/-- BFXU: zext(w[a][p+n:p]) (R42). -/
def execBfxu (c : CtxId) (d a p n : Fin 32) (s : State) : Host.Outcome State Fault Refusal :=
  .next (weftField c 1 d a p n (fun x => ((x.reg a.val) >>> p.val) &&& lowMask (n.val + 1)) s)

/-- BFI: w[d][p+n:p] := w[a][n:0] (R42). -/
def execBfi (c : CtxId) (d a p n : Fin 32) (s : State) : Host.Outcome State Fault Refusal :=
  .next (weftField c 2 d a p n (fun x => (x.reg d.val &&& ~~~(lowMask (n.val + 1) <<< p.val)) ||| ((x.reg a.val &&& lowMask (n.val + 1)) <<< p.val)) s)

/-- BFC: w[a] with bits [p+n:p] cleared (R42). -/
def execBfc (c : CtxId) (d a p n : Fin 32) (s : State) : Host.Outcome State Fault Refusal :=
  .next (weftField c 3 d a p n (fun x => x.reg a.val &&& ~~~(lowMask (n.val + 1) <<< p.val)) s)

/-- CLZ: 32 when w[a] = 0 (R42). -/
def execClz (c : CtxId) (d a : Fin 32) (s : State) : Host.Outcome State Fault Refusal :=
  .next (weftAlu c d (fun x => BitVec.ofNat 32 (clzWord (x.reg a.val))) s)

/-- CTZ: 32 when w[a] = 0 (R42). -/
def execCtz (c : CtxId) (d a : Fin 32) (s : State) : Host.Outcome State Fault Refusal :=
  .next (weftAlu c d (fun x => BitVec.ofNat 32 (ctzWord (x.reg a.val))) s)

/-- POPC (R42). -/
def execPopc (c : CtxId) (d a : Fin 32) (s : State) : Host.Outcome State Fault Refusal :=
  .next (weftAlu c d (fun x => BitVec.ofNat 32 (popWord (x.reg a.val))) s)

/-- REV: bytes in reverse order (R42). -/
def execRev (c : CtxId) (d a : Fin 32) (s : State) : Host.Outcome State Fault Refusal :=
  .next (weftAlu c d (fun x => revWord (x.reg a.val)) s)

end Sys2Proof.Machine
end

