-- ==== Sys2Proof/Machine/WeftBranch.lean ====
section
/-!
DEFINITION. Machine/WeftBranch.lean: the Weft branches and jumps (R42, R38, R57).
-/
namespace Sys2Proof.Machine

/-- A conditional branch: PC + 4 × sext(off) where `p` holds, else the next instruction. -/
def branch (c : CtxId) (off : BitVec 16) (p : Context → Bool) (s : State) : State :=
  weft c s (fun k s =>
    let x := s.ctx k
    s.setCtx k (if p x then { x with pc := x.target off } else x.advance))

/-- BEQ: equal (R42). -/
def execBeq (c : CtxId) (a b : Fin 32) (off : BitVec 16) (s : State) : Host.Outcome State Fault Refusal :=
  .next (branch c off (fun x => x.reg a.val = x.reg b.val) s)

/-- BNE: not equal (R42). -/
def execBne (c : CtxId) (a b : Fin 32) (off : BitVec 16) (s : State) : Host.Outcome State Fault Refusal :=
  .next (branch c off (fun x => x.reg a.val ≠ x.reg b.val) s)

/-- BLT: signed less (R42). -/
def execBlt (c : CtxId) (a b : Fin 32) (off : BitVec 16) (s : State) : Host.Outcome State Fault Refusal :=
  .next (branch c off (fun x => (x.reg a.val).slt (x.reg b.val)) s)

/-- BGE: signed greater or equal (R42). -/
def execBge (c : CtxId) (a b : Fin 32) (off : BitVec 16) (s : State) : Host.Outcome State Fault Refusal :=
  .next (branch c off (fun x => !(x.reg a.val).slt (x.reg b.val)) s)

/-- BLTU: unsigned less (R42). -/
def execBltu (c : CtxId) (a b : Fin 32) (off : BitVec 16) (s : State) : Host.Outcome State Fault Refusal :=
  .next (branch c off (fun x => (x.reg a.val).ult (x.reg b.val)) s)

/-- BGEU: unsigned greater or equal (R42). -/
def execBgeu (c : CtxId) (a b : Fin 32) (off : BitVec 16) (s : State) : Host.Outcome State Fault Refusal :=
  .next (branch c off (fun x => !(x.reg a.val).ult (x.reg b.val)) s)

/-- J: PC := PC + 4 × sext(off) (R42). -/
def execJ (c : CtxId) (off : BitVec 16) (s : State) : Host.Outcome State Fault Refusal :=
  .next (weft c s (fun k s => s.setCtx k { s.ctx k with pc := (s.ctx k).target off }))

/-- JAL: w[d] := PC + 4; PC := PC + 4 × sext(off) (R42, R37). -/
def execJal (c : CtxId) (d : Fin 32) (off : BitVec 16) (s : State) : Host.Outcome State Fault Refusal :=
  .next (weft c s (fun k s =>
    s.setCtx k { (s.ctx k).put d.val ((s.ctx k).pc + 4) with pc := (s.ctx k).target off }))

/-- JALR: t := w[a] + sext(imm); w[d] := PC + 4; PC := t. The link is written before the target is fetched (R42, R57). -/
def execJalr (c : CtxId) (d a : Fin 32) (imm : BitVec 16) (s : State) : Host.Outcome State Fault Refusal :=
  .next (weft c s (fun k s =>
    s.setCtx k { (s.ctx k).put d.val ((s.ctx k).pc + 4) with pc := (s.ctx k).ea a.val imm }))

end Sys2Proof.Machine
end

