-- ==== Sys2Proof/Machine/WeftSat.lean ====
section
/-!
DEFINITION. Machine/WeftSat.lean: the saturating instructions and multiply and accumulate (R42, R49, R50).
-/
namespace Sys2Proof.Machine

/-- The signed value of w[i]. -/
def Context.int (x : Context) (i : Nat) : Int := (x.reg i).toInt

/-- ADDS: sat32 of the sum. (R42, R49, R50) -/
def execAdds (c : CtxId) (d a b : Fin 32) (s : State) : Host.Outcome State Fault Refusal :=
  .next (weftCtx c s (fun x => x.putSat32 d.val (x.int a.val + x.int b.val)))

/-- SUBS: sat32 of the difference. (R42, R49, R50) -/
def execSubs (c : CtxId) (d a b : Fin 32) (s : State) : Host.Outcome State Fault Refusal :=
  .next (weftCtx c s (fun x => x.putSat32 d.val (x.int a.val - x.int b.val)))

/-- ADDUS: unsigned, clamped to 0xFFFF_FFFF. (R42, R49, R50) -/
def execAddus (c : CtxId) (d a b : Fin 32) (s : State) : Host.Outcome State Fault Refusal :=
  .next (weftCtx c s (fun x => x.putClamped d.val 0 4294967295 ((x.reg a.val).toNat + (x.reg b.val).toNat : Nat)))

/-- NEGS: sat32(−w[a]). (R42, R49, R50) -/
def execNegs (c : CtxId) (d a : Fin 32) (s : State) : Host.Outcome State Fault Refusal :=
  .next (weftCtx c s (fun x => x.putSat32 d.val (-x.int a.val)))

/-- ABSS: sat32(|w[a]|). (R42, R49, R50) -/
def execAbss (c : CtxId) (d a : Fin 32) (s : State) : Host.Outcome State Fault Refusal :=
  .next (weftCtx c s (fun x => x.putSat32 d.val ((x.int a.val).natAbs : Nat)))

/-- SATS: clamped to −2^k to 2^k − 1. (R42, R49, R50) -/
def execSats (c : CtxId) (d a k : Fin 32) (s : State) : Host.Outcome State Fault Refusal :=
  .next (weftCtx c s (fun x => x.putClamped d.val (-(2 ^ k.val : Nat)) ((2 ^ k.val : Nat) - 1) (x.int a.val)))

/-- SATU: read as signed, clamped to 0 to 2^(k+1) − 1. (R42, R49, R50) -/
def execSatu (c : CtxId) (d a k : Fin 32) (s : State) : Host.Outcome State Fault Refusal :=
  .next (weftCtx c s (fun x => x.putClamped d.val 0 ((2 ^ (k.val + 1) : Nat) - 1) (x.int a.val)))

/-- SHLS: sat32(w[a] × 2^(w[b][4:0])). (R42, R49, R50) -/
def execShls (c : CtxId) (d a b : Fin 32) (s : State) : Host.Outcome State Fault Refusal :=
  .next (weftCtx c s (fun x => x.putSat32 d.val (x.int a.val * (2 ^ ((x.reg b.val).toNat % 32) : Nat))))

/-- MUL: P[31:0]. (R42, R49, R50) -/
def execMul (c : CtxId) (d a b : Fin 32) (s : State) : Host.Outcome State Fault Refusal :=
  .next (weftCtx c s (fun x => x.put d.val (BitVec.ofInt 32 (x.product a.val b.val))))

/-- MULH: P[63:32]. (R42, R49, R50) -/
def execMulh (c : CtxId) (d a b : Fin 32) (s : State) : Host.Outcome State Fault Refusal :=
  .next (weftCtx c s (fun x => x.put d.val (BitVec.ofInt 32 (x.product a.val b.val / 4294967296))))

/-- FMUL: sat32(scale(P, s)). (R42, R49, R50) -/
def execFmul (c : CtxId) (d a b sh : Fin 32) (rn : Bool) (s : State) : Host.Outcome State Fault Refusal :=
  .next (weftCtx c s (fun x => x.putSat32 d.val (scale rn (x.product a.val b.val) sh.val)))

/-- MAC: sat64(ACC + scale(P, s)). (R42, R49, R50) -/
def execMac (c : CtxId) (a b sh : Fin 32) (rn : Bool) (s : State) : Host.Outcome State Fault Refusal :=
  .next (weftCtx c s (fun x => x.accSat64 (x.accInt + scale rn (x.product a.val b.val) sh.val)))

/-- MSU: sat64(ACC − scale(P, s)). (R42, R49, R50) -/
def execMsu (c : CtxId) (a b sh : Fin 32) (rn : Bool) (s : State) : Host.Outcome State Fault Refusal :=
  .next (weftCtx c s (fun x => x.accSat64 (x.accInt - scale rn (x.product a.val b.val) sh.val)))

/-- MACZ: ACC := scale(P, s). (R42, R49, R50) -/
def execMacz (c : CtxId) (a b sh : Fin 32) (rn : Bool) (s : State) : Host.Outcome State Fault Refusal :=
  .next (weftCtx c s (fun x => { x with acc := BitVec.ofInt 64 (scale rn (x.product a.val b.val) sh.val) }))

/-- RDACC: sat32(scale(ACC, s)). (R42, R49, R50) -/
def execRdacc (c : CtxId) (d sh : Fin 32) (rn : Bool) (s : State) : Host.Outcome State Fault Refusal :=
  .next (weftCtx c s (fun x => x.putSat32 d.val (scale rn x.accInt sh.val)))

/-- MTACC: ACC := w[a] × 2^32 + zext(w[b]). (R42, R49, R50) -/
def execMtacc (c : CtxId) (a b : Fin 32) (s : State) : Host.Outcome State Fault Refusal :=
  .next (weftCtx c s (fun x => { x with acc := x.reg a.val ++ x.reg b.val }))

/-- MFACCH: ACC[63:32]. (R42, R49, R50) -/
def execMfacch (c : CtxId) (d : Fin 32) (s : State) : Host.Outcome State Fault Refusal :=
  .next (weftCtx c s (fun x => x.put d.val (x.acc.extractLsb' 32 32)))

/-- MFACCL: ACC[31:0]. (R42, R49, R50) -/
def execMfaccl (c : CtxId) (d : Fin 32) (s : State) : Host.Outcome State Fault Refusal :=
  .next (weftCtx c s (fun x => x.put d.val (x.acc.extractLsb' 0 32)))

end Sys2Proof.Machine
end

