-- ==== Sys2Proof/Machine/Dispatch.lean ====
section
/-!
DEFINITION. Machine/Dispatch.lean: which meaning each command has.
-/
namespace Sys2Proof.Machine

/-- The effect of a command on everything but the queue. -/
def exec (i : Instr) (s : State) : Host.Outcome State Fault Refusal :=
  match i with
  | .registerWrite slot addr data size => Sys2Proof.Machine.execRegisterWrite slot addr data size s
  | .transactionTimeout k => Sys2Proof.Machine.execTransactionTimeout k s
  | .arbitrationPromotion k => Sys2Proof.Machine.execArbitrationPromotion k s
  | .noteLimitExceeded blk => Sys2Proof.Machine.execNoteLimitExceeded blk s
  | .blockTimerExpiry blk => Sys2Proof.Machine.execBlockTimerExpiry blk s
  | .regionResetComplete r => Sys2Proof.Machine.execRegionResetComplete r s
  | .regionTimerExpiry r => Sys2Proof.Machine.execRegionTimerExpiry r s
  | .chipTimerExpiry => Sys2Proof.Machine.execChipTimerExpiry s
  | .bridgeHandshakeStall r => Sys2Proof.Machine.execBridgeHandshakeStall r s
  | .ladderCopyFault bridge n => Sys2Proof.Machine.execLadderCopyFault bridge n s
  | .errAck blk => Sys2Proof.Machine.execErrAck blk s
  | .regionUp r => Sys2Proof.Machine.execRegionUp r s
  | .errRecordClear rec => Sys2Proof.Machine.execErrRecordClear rec s
  | .errLock => Sys2Proof.Machine.execErrLock s
  | .add c d a b => Sys2Proof.Machine.execAdd c d a b s
  | .sub c d a b => Sys2Proof.Machine.execSub c d a b s
  | .and c d a b => Sys2Proof.Machine.execAnd c d a b s
  | .or c d a b => Sys2Proof.Machine.execOr c d a b s
  | .xor c d a b => Sys2Proof.Machine.execXor c d a b s
  | .sll c d a b => Sys2Proof.Machine.execSll c d a b s
  | .srl c d a b => Sys2Proof.Machine.execSrl c d a b s
  | .sra c d a b => Sys2Proof.Machine.execSra c d a b s
  | .slli c d a k => Sys2Proof.Machine.execSlli c d a k s
  | .srli c d a k => Sys2Proof.Machine.execSrli c d a k s
  | .srai c d a k => Sys2Proof.Machine.execSrai c d a k s
  | .slt c d a b => Sys2Proof.Machine.execSlt c d a b s
  | .sltu c d a b => Sys2Proof.Machine.execSltu c d a b s
  | .min c d a b => Sys2Proof.Machine.execMin c d a b s
  | .max c d a b => Sys2Proof.Machine.execMax c d a b s
  | .div c d a b => Sys2Proof.Machine.execDiv c d a b s
  | .divu c d a b => Sys2Proof.Machine.execDivu c d a b s
  | .addi c d a imm => Sys2Proof.Machine.execAddi c d a imm s
  | .andi c d a imm => Sys2Proof.Machine.execAndi c d a imm s
  | .ori c d a imm => Sys2Proof.Machine.execOri c d a imm s
  | .xori c d a imm => Sys2Proof.Machine.execXori c d a imm s
  | .slti c d a imm => Sys2Proof.Machine.execSlti c d a imm s
  | .lhi c d imm => Sys2Proof.Machine.execLhi c d imm s
  | .lw c d a imm => Sys2Proof.Machine.execLw c d a imm s
  | .lh c d a imm => Sys2Proof.Machine.execLh c d a imm s
  | .lhu c d a imm => Sys2Proof.Machine.execLhu c d a imm s
  | .lb c d a imm => Sys2Proof.Machine.execLb c d a imm s
  | .lbu c d a imm => Sys2Proof.Machine.execLbu c d a imm s
  | .sw c d a imm => Sys2Proof.Machine.execSw c d a imm s
  | .sh c d a imm => Sys2Proof.Machine.execSh c d a imm s
  | .sb c d a imm => Sys2Proof.Machine.execSb c d a imm s
  | .beq c a b off => Sys2Proof.Machine.execBeq c a b off s
  | .bne c a b off => Sys2Proof.Machine.execBne c a b off s
  | .blt c a b off => Sys2Proof.Machine.execBlt c a b off s
  | .bge c a b off => Sys2Proof.Machine.execBge c a b off s
  | .bltu c a b off => Sys2Proof.Machine.execBltu c a b off s
  | .bgeu c a b off => Sys2Proof.Machine.execBgeu c a b off s
  | .j c off => Sys2Proof.Machine.execJ c off s
  | .jal c d off => Sys2Proof.Machine.execJal c d off s
  | .jalr c d a imm => Sys2Proof.Machine.execJalr c d a imm s
  | .bfx c d a p n => Sys2Proof.Machine.execBfx c d a p n s
  | .bfxu c d a p n => Sys2Proof.Machine.execBfxu c d a p n s
  | .bfi c d a p n => Sys2Proof.Machine.execBfi c d a p n s
  | .bfc c d a p n => Sys2Proof.Machine.execBfc c d a p n s
  | .clz c d a => Sys2Proof.Machine.execClz c d a s
  | .ctz c d a => Sys2Proof.Machine.execCtz c d a s
  | .popc c d a => Sys2Proof.Machine.execPopc c d a s
  | .rev c d a => Sys2Proof.Machine.execRev c d a s
  | .adds c d a b => Sys2Proof.Machine.execAdds c d a b s
  | .subs c d a b => Sys2Proof.Machine.execSubs c d a b s
  | .addus c d a b => Sys2Proof.Machine.execAddus c d a b s
  | .negs c d a => Sys2Proof.Machine.execNegs c d a s
  | .abss c d a => Sys2Proof.Machine.execAbss c d a s
  | .sats c d a k => Sys2Proof.Machine.execSats c d a k s
  | .satu c d a k => Sys2Proof.Machine.execSatu c d a k s
  | .shls c d a b => Sys2Proof.Machine.execShls c d a b s
  | .mul c d a b => Sys2Proof.Machine.execMul c d a b s
  | .mulh c d a b => Sys2Proof.Machine.execMulh c d a b s
  | .fmul c d a b sh rn => Sys2Proof.Machine.execFmul c d a b sh rn s
  | .mac c a b sh rn => Sys2Proof.Machine.execMac c a b sh rn s
  | .msu c a b sh rn => Sys2Proof.Machine.execMsu c a b sh rn s
  | .macz c a b sh rn => Sys2Proof.Machine.execMacz c a b sh rn s
  | .rdacc c d sh rn => Sys2Proof.Machine.execRdacc c d sh rn s
  | .mtacc c a b => Sys2Proof.Machine.execMtacc c a b s
  | .mfacch c d => Sys2Proof.Machine.execMfacch c d s
  | .mfaccl c d => Sys2Proof.Machine.execMfaccl c d s
  | .wait c d a b => Sys2Proof.Machine.execWait c d a b s
  | .waitTimeout c => Sys2Proof.Machine.execWaitTimeout c s
  | .tcmp c dis tb a b => Sys2Proof.Machine.execTcmp c dis tb a b s
  | .timerCompareMatch c => Sys2Proof.Machine.execTimerCompareMatch c s
  | .trd c d tb part => Sys2Proof.Machine.execTrd c d tb part s
  | .msend c d a mb => Sys2Proof.Machine.execMsend c d a mb s
  | .mrecv c d e mb => Sys2Proof.Machine.execMrecv c d e mb s
  | .aadd c d a b => Sys2Proof.Machine.execAadd c d a b s
  | .acas c d a b => Sys2Proof.Machine.execAcas c d a b s
  | .csrr c d n => Sys2Proof.Machine.execCsrr c d n s
  | .csrw c d a n => Sys2Proof.Machine.execCsrw c d a n s
  | .csrs c d a n => Sys2Proof.Machine.execCsrs c d a n s
  | .csrc c d a n => Sys2Proof.Machine.execCsrc c d a n s
  | .scall c d a f => Sys2Proof.Machine.execScall c d a f s
  | .illegalInstruction c w => Sys2Proof.Machine.execIllegalInstruction c w s
  | .bar c => Sys2Proof.Machine.execBar c s
  | .trap c imm => Sys2Proof.Machine.execTrap c imm s
  | .brk c => Sys2Proof.Machine.execBrk c s
  | .eret c => Sys2Proof.Machine.execEret c s
  | .fabricResponse k => Sys2Proof.Machine.execFabricResponse k s
  | .busStoreError k => Sys2Proof.Machine.execBusStoreError k s
  | .ctxStart ws k => Sys2Proof.Machine.execCtxStart ws k s
  | .ctxRestart ws k => Sys2Proof.Machine.execCtxRestart ws k s
  | .ctxWatchdogExpiry c => Sys2Proof.Machine.execCtxWatchdogExpiry c s
  | .ctxHalt ws k => Sys2Proof.Machine.execCtxHalt ws k s
  | .ctxResume ws k => Sys2Proof.Machine.execCtxResume ws k s
  | .debugClaim ws => Sys2Proof.Machine.execDebugClaim ws s
  | .debugRelease ws => Sys2Proof.Machine.execDebugRelease ws s
  | .eventPending c n => Sys2Proof.Machine.execEventPending c n s
  | .mailboxDelivery m => Sys2Proof.Machine.execMailboxDelivery m s
  | .mailboxConfig m data => Sys2Proof.Machine.execMailboxConfig m data s
  | .eccWriteback addr => Sys2Proof.Machine.execEccWriteback addr s
  | .tcmWindowAccess slot addr data write size => Sys2Proof.Machine.execTcmWindowAccess slot addr data write size s
  | .loomRun data => Sys2Proof.Machine.execLoomRun data s
  | .loomBoundary n => Sys2Proof.Machine.execLoomBoundary n s
  | .loomMidpoint n => Sys2Proof.Machine.execLoomMidpoint n s
  | .loomRefEdge n => Sys2Proof.Machine.execLoomRefEdge n s
  | .loomDeadTimeEnd n => Sys2Proof.Machine.execLoomDeadTimeEnd n s
  | .loomTrigger n k => Sys2Proof.Machine.execLoomTrigger n k s
  | .loomTripSource k level => Sys2Proof.Machine.execLoomTripSource k level s
  | .loomBlankEnd n => Sys2Proof.Machine.execLoomBlankEnd n s
  | .loomClrTrip n => Sys2Proof.Machine.execLoomClrTrip n s
  | .loomClrDrop n => Sys2Proof.Machine.execLoomClrDrop n s
  | .loomSourceStuck k => Sys2Proof.Machine.execLoomSourceStuck k s
  | .loomStuckClear k => Sys2Proof.Machine.execLoomStuckClear k s
  | .loomStaleTrip n => Sys2Proof.Machine.execLoomStaleTrip n s
  | .loomGupdArm mask => Sys2Proof.Machine.execLoomGupdArm mask s
  | .loomLock => Sys2Proof.Machine.execLoomLock s
  | .loomClockLoss => Sys2Proof.Machine.execLoomClockLoss s
  | .loomReadbackFault n => Sys2Proof.Machine.execLoomReadbackFault n s
  | .loomConfigEcc n double => Sys2Proof.Machine.execLoomConfigEcc n double s
  | .loomRecalibrate => Sys2Proof.Machine.execLoomRecalibrate s
  | .twOverrunLimit e sl => Sys2Proof.Machine.execTwOverrunLimit e sl s
  | .twSlotStart e => Sys2Proof.Machine.execTwSlotStart e s
  | .twNop e w => Sys2Proof.Machine.execTwNop e w s
  | .twEnd e => Sys2Proof.Machine.execTwEnd e s
  | .lda e d x => Sys2Proof.Machine.execLda e d x s
  | .sta e x sa => Sys2Proof.Machine.execSta e x sa s
  | .mulc e d x k => Sys2Proof.Machine.execMulc e d x k s
  | .macc e d x k => Sys2Proof.Machine.execMacc e d x k s
  | .msuc e d x k => Sys2Proof.Machine.execMsuc e d x k s
  | .mula e d sa k => Sys2Proof.Machine.execMula e d sa k s
  | .maca e d sa k => Sys2Proof.Machine.execMaca e d sa k s
  | .msua e d sa k => Sys2Proof.Machine.execMsua e d sa k s
  | .adda e d sa ta => Sys2Proof.Machine.execAdda e d sa ta s
  | .suba e d sa ta => Sys2Proof.Machine.execSuba e d sa ta s
  | .mova e d sa => Sys2Proof.Machine.execMova e d sa s
  | .nega e d sa => Sys2Proof.Machine.execNega e d sa s
  | .absa e d sa => Sys2Proof.Machine.execAbsa e d sa s
  | .mina e d sa ta => Sys2Proof.Machine.execMina e d sa ta s
  | .maxa e d sa ta => Sys2Proof.Machine.execMaxa e d sa ta s
  | .clmp e d sa ta => Sys2Proof.Machine.execClmp e d sa ta s
  | .sha e d sa k => Sys2Proof.Machine.execSha e d sa k s
  | .diva e d sa x => Sys2Proof.Machine.execDiva e d sa x s
  | .minsel e d b n tm x k => Sys2Proof.Machine.execMinsel e d b n tm x k s
  | .ffl e d x k => Sys2Proof.Machine.execFfl e d x k s
  | .ffa e d x k => Sys2Proof.Machine.execFfa e d x k s
  | .ramp e d k => Sys2Proof.Machine.execRamp e d k s
  | .twOut e sa ch sel => Sys2Proof.Machine.execTwOut e sa ch sel s
  | .twArm e mask => Sys2Proof.Machine.execTwArm e mask s
  | .evt e mask => Sys2Proof.Machine.execEvt e mask s
  | .br e cond sa ta tgt => Sys2Proof.Machine.execBr e cond sa ta tgt s
  | .waitin e x => Sys2Proof.Machine.execWaitin e x s
  | .twBudgetExpiry e => Sys2Proof.Machine.execTwBudgetExpiry e s
  | .twRun e run => Sys2Proof.Machine.execTwRun e run s
  | .twCoefCommit e => Sys2Proof.Machine.execTwCoefCommit e s
  | .twRampPreset e r value => Sys2Proof.Machine.execTwRampPreset e r value s
  | .twOwnWrite e data => Sys2Proof.Machine.execTwOwnWrite e data s
  | .twSlotClear e sl => Sys2Proof.Machine.execTwSlotClear e sl s
  | .twMemoryEcc e addr double => Sys2Proof.Machine.execTwMemoryEcc e addr double s
  | .ainSpSample j code => Sys2Proof.Machine.execAinSpSample j code s
  | .pinSpEdge j => Sys2Proof.Machine.execPinSpEdge j s
  | .pinSpTimeout j => Sys2Proof.Machine.execPinSpTimeout j s
  | .adcDeferredSample a => Sys2Proof.Machine.execAdcDeferredSample a s
  | .adcConversionComplete a code => Sys2Proof.Machine.execAdcConversionComplete a code s
  | .adcEnable data => Sys2Proof.Machine.execAdcEnable data s
  | .adcClearCounts => Sys2Proof.Machine.execAdcClearCounts s
  | .comparatorActive k uv => Sys2Proof.Machine.execComparatorActive k uv s
  | .comparatorInactive k uv => Sys2Proof.Machine.execComparatorInactive k uv s
  | .cmpThresholdWrite k data ok => Sys2Proof.Machine.execCmpThresholdWrite k data ok s
  | .cmpDacMismatch k => Sys2Proof.Machine.execCmpDacMismatch k s
  | .ainStale n => Sys2Proof.Machine.execAinStale n s
  | .xpChangeAllowed x => Sys2Proof.Machine.execXpChangeAllowed x s
  | .xpHoldExpiry x => Sys2Proof.Machine.execXpHoldExpiry x s
  | .isumCheck o => Sys2Proof.Machine.execIsumCheck o s
  | .isumHoldEnd o => Sys2Proof.Machine.execIsumHoldEnd o s
  | .weldCheckStart outlet tgt win => Sys2Proof.Machine.execWeldCheckStart outlet tgt win s
  | .weldCheckEnd => Sys2Proof.Machine.execWeldCheckEnd s
  | .salModeWrite data => Sys2Proof.Machine.execSalModeWrite data s
  | .salternBoundary => Sys2Proof.Machine.execSalternBoundary s
  | .solveComplete => Sys2Proof.Machine.execSolveComplete s
  | .salternTableEcc off double => Sys2Proof.Machine.execSalternTableEcc off double s
  | .salDemWrite j data => Sys2Proof.Machine.execSalDemWrite j data s
  | .demandStale j => Sys2Proof.Machine.execDemandStale j s
  | .salCommitGo => Sys2Proof.Machine.execSalCommitGo s
  | .emrgLineRaise => Sys2Proof.Machine.execEmrgLineRaise s
  | .emrgReq => Sys2Proof.Machine.execEmrgReq s
  | .emrgClr => Sys2Proof.Machine.execEmrgClr s
  | .salStateWrite off data => Sys2Proof.Machine.execSalStateWrite off data s
  | .grantSetHandover => Sys2Proof.Machine.execGrantSetHandover s
  | .grantApply => Sys2Proof.Machine.execGrantApply s
  | .demandSample => Sys2Proof.Machine.execDemandSample s
  | .demandFrame port etype payload => Sys2Proof.Machine.execDemandFrame port etype payload s
  | .grantFrame port etype payload => Sys2Proof.Machine.execGrantFrame port etype payload s
  | .zwEnable data => Sys2Proof.Machine.execZwEnable data s
  | .listenTimeout => Sys2Proof.Machine.execListenTimeout s
  | .claimWaitExpiry => Sys2Proof.Machine.execClaimWaitExpiry s
  | .followerTimeout => Sys2Proof.Machine.execFollowerTimeout s
  | .zwBoundary => Sys2Proof.Machine.execZwBoundary s
  | .takeover => Sys2Proof.Machine.execTakeover s
  | .stepDown => Sys2Proof.Machine.execStepDown s
  | .holdExpiry => Sys2Proof.Machine.execHoldExpiry s
  | .zwSwapGo data => Sys2Proof.Machine.execZwSwapGo data s
  | .zwClrExcl => Sys2Proof.Machine.execZwClrExcl s
  | .zwClaim b => Sys2Proof.Machine.execZwClaim b s
  | .partnerLineQualified high us => Sys2Proof.Machine.execPartnerLineQualified high us s
  | .partnerLineStuck edges => Sys2Proof.Machine.execPartnerLineStuck edges s
  | .zwPairStuckClear => Sys2Proof.Machine.execZwPairStuckClear s
  | .zwBufferEcc grant double => Sys2Proof.Machine.execZwBufferEcc grant double s
  | .tbStepGo n slot abs => Sys2Proof.Machine.execTbStepGo n slot abs s
  | .tbStepApply n => Sys2Proof.Machine.execTbStepApply n s
  | .tbRateWrite n slot data => Sys2Proof.Machine.execTbRateWrite n slot data s
  | .tbSrcWrite n slot data => Sys2Proof.Machine.execTbSrcWrite n slot data s
  | .tbOffset n => Sys2Proof.Machine.execTbOffset n s
  | .tbHoldover n => Sys2Proof.Machine.execTbHoldover n s
  | .tbHoldExpired n => Sys2Proof.Machine.execTbHoldExpired n s
  | .tbTimeRead n => Sys2Proof.Machine.execTbTimeRead n s
  | .toutArm k data => Sys2Proof.Machine.execToutArm k data s
  | .toutDisarm k data => Sys2Proof.Machine.execToutDisarm k data s
  | .toutActive k => Sys2Proof.Machine.execToutActive k s
  | .toutInactive k => Sys2Proof.Machine.execToutInactive k s
  | .tcapEdge k rising => Sys2Proof.Machine.execTcapEdge k rising s
  | .tcapStamp k => Sys2Proof.Machine.execTcapStamp k s
  | .tcapRead k => Sys2Proof.Machine.execTcapRead k s
  | .ptpEventRx p m => Sys2Proof.Machine.execPtpEventRx p m s
  | .ptpSyncSend p => Sys2Proof.Machine.execPtpSyncSend p s
  | .tcFollowupTimeout => Sys2Proof.Machine.execTcFollowupTimeout s
  | .ptpTxtsRead p => Sys2Proof.Machine.execPtpTxtsRead p s
  | .ptpPortState p st => Sys2Proof.Machine.execPtpPortState p st s
  | .ptpSelfcheckFail p => Sys2Proof.Machine.execPtpSelfcheckFail p s
  | .gridChannelLost n => Sys2Proof.Machine.execGridChannelLost n s
  | .pmuFrameWrite sec k phasors freq dfreq => Sys2Proof.Machine.execPmuFrameWrite sec k phasors freq dfreq s
  | .gridResponseUpdate freq each volt valid rms => Sys2Proof.Machine.execGridResponseUpdate freq each volt valid rms s
  | .gridRecArm => Sys2Proof.Machine.execGridRecArm s
  | .gridRecTrig => Sys2Proof.Machine.execGridRecTrig s
  | .gridRecComplete => Sys2Proof.Machine.execGridRecComplete s
  | .pilotMeasurement o hi lo id => Sys2Proof.Machine.execPilotMeasurement o hi lo id s
  | .pilotDriveWrite o data => Sys2Proof.Machine.execPilotDriveWrite o data s
  | .pilotUnstableClear o => Sys2Proof.Machine.execPilotUnstableClear o s
  | .senseReferenceCheck o code => Sys2Proof.Machine.execSenseReferenceCheck o code s
  | .linkFrameRx l frame info => Sys2Proof.Machine.execLinkFrameRx l frame info s
  | .ringTxHeadWrite l head => Sys2Proof.Machine.execRingTxHeadWrite l head s
  | .linkFrameTxDone l info => Sys2Proof.Machine.execLinkFrameTxDone l info s
  | .ringEnable l tx en => Sys2Proof.Machine.execRingEnable l tx en s
  | .attStart n data => Sys2Proof.Machine.execAttStart n data s
  | .attDone n => Sys2Proof.Machine.execAttDone n s
  | .toneMapRefresh k => Sys2Proof.Machine.execToneMapRefresh k s
  | .renegComplete k => Sys2Proof.Machine.execRenegComplete k s
  | .bbPhWrite ph => Sys2Proof.Machine.execBbPhWrite ph s
  | .t1sPhySelfcheckFail n => Sys2Proof.Machine.execT1sPhySelfcheckFail n s
  | .decode => Sys2Proof.Machine.execDecode s
  | .encode => Sys2Proof.Machine.execEncode s
  | .digest => Sys2Proof.Machine.execDigest s
  | .tlsAccept res => Sys2Proof.Machine.execTlsAccept res s
  | .tlsIn res => Sys2Proof.Machine.execTlsIn res s
  | .tlsOut res => Sys2Proof.Machine.execTlsOut res s
  | .tlsClose res => Sys2Proof.Machine.execTlsClose res s
  | .sesChannelDisable c => Sys2Proof.Machine.execSesChannelDisable c s
  | .sesTimerArm c ms => Sys2Proof.Machine.execSesTimerArm c ms s
  | .sesTimerExpiry c => Sys2Proof.Machine.execSesTimerExpiry c s
  | .sesEngineFault tls double => Sys2Proof.Machine.execSesEngineFault tls double s
  | .tsConversion n r => Sys2Proof.Machine.execTsConversion n r s
  | .cableModelUpdate o => Sys2Proof.Machine.execCableModelUpdate o s
  | .daRecompute o => Sys2Proof.Machine.execDaRecompute o s
  | .enfUpdate o => Sys2Proof.Machine.execEnfUpdate o s
  | .thermalRecord => Sys2Proof.Machine.execThermalRecord s
  | .shutdownHoldComplete o => Sys2Proof.Machine.execShutdownHoldComplete o s
  | .cblAck o => Sys2Proof.Machine.execCblAck o s
  | .cblEnable o data => Sys2Proof.Machine.execCblEnable o data s
  | .tachEdge k => Sys2Proof.Machine.execTachEdge k s
  | .tachTimeout k => Sys2Proof.Machine.execTachTimeout k s
  | .fanStall k => Sys2Proof.Machine.execFanStall k s
  | .tjConversion j t => Sys2Proof.Machine.execTjConversion j t s
  | .thermalReferenceCheck ratio => Sys2Proof.Machine.execThermalReferenceCheck ratio s
  | .meterBlockEnd samples => Sys2Proof.Machine.execMeterBlockEnd samples s
  | .meterChannelInvalid k toggling => Sys2Proof.Machine.execMeterChannelInvalid k toggling s
  | .legalUpdChange high => Sys2Proof.Machine.execLegalUpdChange high s
  | .legalTxCheck => Sys2Proof.Machine.execLegalTxCheck s
  | .legalTxEnergy => Sys2Proof.Machine.execLegalTxEnergy s
  | .mpulsePulse o => Sys2Proof.Machine.execMpulsePulse o s
  | .meterImageRecheck => Sys2Proof.Machine.execMeterImageRecheck s
  | .parameterLoad => Sys2Proof.Machine.execParameterLoad s
  | .readingStart o => Sys2Proof.Machine.execReadingStart o s
  | .readingStop o => Sys2Proof.Machine.execReadingStop o s
  | .readingOnRequest o => Sys2Proof.Machine.execReadingOnRequest o s
  | .readingRecordComplete => Sys2Proof.Machine.execReadingRecordComplete s
  | .ledgerRestore badA badB => Sys2Proof.Machine.execLedgerRestore badA badB s
  | .tcwSample o uv => Sys2Proof.Machine.execTcwSample o uv s
  | .evsMramEcc addr double => Sys2Proof.Machine.execEvsMramEcc addr double s
  | .tariffInstant samples => Sys2Proof.Machine.execTariffInstant samples s
  | .calendarLoad => Sys2Proof.Machine.execCalendarLoad s
  | .billingClose => Sys2Proof.Machine.execBillingClose s
  | .legalClockAdjust abs => Sys2Proof.Machine.execLegalClockAdjust abs s
  | .autoSync => Sys2Proof.Machine.execAutoSync s
  | .topup acc => Sys2Proof.Machine.execTopup acc s
  | .debit acc => Sys2Proof.Machine.execDebit acc s
  | .config acc ecEn => Sys2Proof.Machine.execConfig acc ecEn s
  | .tarMemoryEcc cell double => Sys2Proof.Machine.execTarMemoryEcc cell double s
  | .pubkey c => Sys2Proof.Machine.execPubkey c s
  | .sign c => Sys2Proof.Machine.execSign c s
  | .verify c => Sys2Proof.Machine.execVerify c s
  | .ecdhDerive c => Sys2Proof.Machine.execEcdhDerive c s
  | .gcmEnc c => Sys2Proof.Machine.execGcmEnc c s
  | .gcmDec c => Sys2Proof.Machine.execGcmDec c s
  | .ctr c => Sys2Proof.Machine.execCtr c s
  | .hash c => Sys2Proof.Machine.execHash c s
  | .random c => Sys2Proof.Machine.execRandom c s
  | .generate c => Sys2Proof.Machine.execGenerate c s
  | .loadBlob c => Sys2Proof.Machine.execLoadBlob c s
  | .loadPub c => Sys2Proof.Machine.execLoadPub c s
  | .check c => Sys2Proof.Machine.execCheck c s
  | .commit c => Sys2Proof.Machine.execCommit c s
  | .ksTimedCommit n => Sys2Proof.Machine.execKsTimedCommit n s
  | .discard c => Sys2Proof.Machine.execDiscard c s
  | .erase c => Sys2Proof.Machine.execErase c s
  | .keyOut c => Sys2Proof.Machine.execKeyOut c s
  | .rootGen c => Sys2Proof.Machine.execRootGen c s
  | .zeroise c => Sys2Proof.Machine.execZeroise c s
  | .tamperEvent src => Sys2Proof.Machine.execTamperEvent src s
  | .ksRemask => Sys2Proof.Machine.execKsRemask s
  | .ksEntropyFail => Sys2Proof.Machine.execKsEntropyFail s
  | .ksReseed pass => Sys2Proof.Machine.execKsReseed pass s
  | .ksAdminLock data => Sys2Proof.Machine.execKsAdminLock data s
  | .ksCtrlLock data => Sys2Proof.Machine.execKsCtrlLock data s
  | .safetyCycleStart => Sys2Proof.Machine.execSafetyCycleStart s
  | .safetyCommit => Sys2Proof.Machine.execSafetyCommit s
  | .lockstepMismatch => Sys2Proof.Machine.execLockstepMismatch s
  | .safeClockCheck count gap supply => Sys2Proof.Machine.execSafeClockCheck count gap supply s
  | .safetyConfigRecheck => Sys2Proof.Machine.execSafetyConfigRecheck s
  | .safeInputAccept n chB level us off => Sys2Proof.Machine.execSafeInputAccept n chB level us off s
  | .safeInputDiscrepancy n => Sys2Proof.Machine.execSafeInputDiscrepancy n s
  | .safeInputStuck n changes off => Sys2Proof.Machine.execSafeInputStuck n changes off s
  | .permit => Sys2Proof.Machine.execPermit s
  | .permitLapse => Sys2Proof.Machine.execPermitLapse s
  | .ack off => Sys2Proof.Machine.execAck off s
  | .brakeTest => Sys2Proof.Machine.execBrakeTest s
  | .brakeTestEnd => Sys2Proof.Machine.execBrakeTestEnd s
  | .brakeTestDue => Sys2Proof.Machine.execBrakeTestDue s
  | .confirm => Sys2Proof.Machine.execConfirm s
  | .confirmTimeout => Sys2Proof.Machine.execConfirmTimeout s
  | .user => Sys2Proof.Machine.execUser s
  | .safeCurrentCode o code => Sys2Proof.Machine.execSafeCurrentCode o code s
  | .safeCurrentGap o => Sys2Proof.Machine.execSafeCurrentGap o s
  | .softOpenTimeout m => Sys2Proof.Machine.execSoftOpenTimeout m s
  | .offPulseStart m chB => Sys2Proof.Machine.execOffPulseStart m chB s
  | .offPulseEnd m readsOn => Sys2Proof.Machine.execOffPulseEnd m readsOn s
  | .soutReadbackFault m readsOn us => Sys2Proof.Machine.execSoutReadbackFault m readsOn us s
  | .hsOnWrite data => Sys2Proof.Machine.execHsOnWrite data s
  | .hsOnSet mask => Sys2Proof.Machine.execHsOnSet mask s
  | .hsOnClr mask => Sys2Proof.Machine.execHsOnClr mask s
  | .hsOvercurrentTrip n us => Sys2Proof.Machine.execHsOvercurrentTrip n us s
  | .hsRetry n => Sys2Proof.Machine.execHsRetry n s
  | .hsFuseTrip n ma temp => Sys2Proof.Machine.execHsFuseTrip n ma temp s
  | .hsThermalLatch n temp limit => Sys2Proof.Machine.execHsThermalLatch n temp limit s
  | .hsThermalRelease n temp => Sys2Proof.Machine.execHsThermalRelease n temp s
  | .hsRcntReset n => Sys2Proof.Machine.execHsRcntReset n s
  | .hsOpenLoad n ma us => Sys2Proof.Machine.execHsOpenLoad n ma us s
  | .hsMismatch n => Sys2Proof.Machine.execHsMismatch n s
  | .hsMismatchClear n => Sys2Proof.Machine.execHsMismatchClear n s
  | .lhInEdge k level us => Sys2Proof.Machine.execLhInEdge k level us s
  | .lhEnChange level us => Sys2Proof.Machine.execLhEnChange level us s
  | .hsLock => Sys2Proof.Machine.execHsLock s
  | .isSelChange sel ns => Sys2Proof.Machine.execIsSelChange sel ns s
  | .vinOvervoltage => Sys2Proof.Machine.execVinOvervoltage s
  | .vinOvervoltageEnd => Sys2Proof.Machine.execVinOvervoltageEnd s
  | .brineEnable data => Sys2Proof.Machine.execBrineEnable data s
  | .brinePeriod vout trk j sense => Sys2Proof.Machine.execBrinePeriod vout trk j sense s
  | .brineVsetWrite data => Sys2Proof.Machine.execBrineVsetWrite data s
  | .brineTrimUpdate => Sys2Proof.Machine.execBrineTrimUpdate s
  | .brineUvLatch => Sys2Proof.Machine.execBrineUvLatch s
  | .brineOvLatch => Sys2Proof.Machine.execBrineOvLatch s
  | .brinePhaseShed => Sys2Proof.Machine.execBrinePhaseShed s
  | .brineSwFault p => Sys2Proof.Machine.execBrineSwFault p s
  | .canEnable n data => Sys2Proof.Machine.execCanEnable n data s
  | .canBusJoin n => Sys2Proof.Machine.execCanBusJoin n s
  | .canFrameRx n f ago => Sys2Proof.Machine.execCanFrameRx n f ago s
  | .canFifoRelease n f get => Sys2Proof.Machine.execCanFifoRelease n f get s
  | .canTxreq n req => Sys2Proof.Machine.execCanTxreq n req s
  | .canTxcan n can => Sys2Proof.Machine.execCanTxcan n can s
  | .canTxComplete n ok ago => Sys2Proof.Machine.execCanTxComplete n ok ago s
  | .canBusOff n => Sys2Proof.Machine.execCanBusOff n s
  | .canBusOffRecovery n => Sys2Proof.Machine.execCanBusOffRecovery n s
  | .canRxStuck n edges count => Sys2Proof.Machine.execCanRxStuck n edges count s
  | .canStuckClear n holds => Sys2Proof.Machine.execCanStuckClear n holds s
  | .canRefInstant n => Sys2Proof.Machine.execCanRefInstant n s
  | .vinPowerFail samples => Sys2Proof.Machine.execVinPowerFail samples s
  | .vinStop => Sys2Proof.Machine.execVinStop s
  | .vinOn => Sys2Proof.Machine.execVinOn s
  | .vinValid => Sys2Proof.Machine.execVinValid s
  | .porAon => Sys2Proof.Machine.execPorAon s
  | .pwrCtrlWrite data => Sys2Proof.Machine.execPwrCtrlWrite data s
  | .domainSupplyFault dom => Sys2Proof.Machine.execDomainSupplyFault dom s
  | .clockFault row => Sys2Proof.Machine.execClockFault row s
  | .refclkLost => Sys2Proof.Machine.execRefclkLost s
  | .refclkReturn => Sys2Proof.Machine.execRefclkReturn s
  | .rtcCheck missing => Sys2Proof.Machine.execRtcCheck missing s
  | .resetPin => Sys2Proof.Machine.execResetPin s
  | .resetPinRelease => Sys2Proof.Machine.execResetPinRelease s
  | .rstCmdHub key => Sys2Proof.Machine.execRstCmdHub key s
  | .rstCmdRegion key regs => Sys2Proof.Machine.execRstCmdRegion key regs s
  | .debugReset => Sys2Proof.Machine.execDebugReset s
  | .vbatLow mv => Sys2Proof.Machine.execVbatLow mv s
  | .selfTestComplete fail cells => Sys2Proof.Machine.execSelfTestComplete fail cells s
  | .bankLoad second => Sys2Proof.Machine.execBankLoad second s
  | .applicationStart => Sys2Proof.Machine.execApplicationStart s
  | .stRbRaise => Sys2Proof.Machine.execStRbRaise s
  | .mgmtStatus seq => Sys2Proof.Machine.execMgmtStatus seq s
  | .mgmtReadLog seq area idx => Sys2Proof.Machine.execMgmtReadLog seq area idx s
  | .mgmtAuth seq slot sig => Sys2Proof.Machine.execMgmtAuth seq slot sig s
  | .mgmtAuthExpiry => Sys2Proof.Machine.execMgmtAuthExpiry s
  | .mgmtErase seq bank => Sys2Proof.Machine.execMgmtErase seq bank s
  | .mgmtProgram seq bank off bytes => Sys2Proof.Machine.execMgmtProgram seq bank off bytes s
  | .mgmtRestart seq => Sys2Proof.Machine.execMgmtRestart seq s
  | .noteWindowRecovered blk => Sys2Proof.Machine.execNoteWindowRecovered blk s
  | .ptpPdelayReqSend p => Sys2Proof.Machine.execPtpPdelayReqSend p s
  | .ptpFollowUpRx p m => Sys2Proof.Machine.execPtpFollowUpRx p m s
  | .canBusError n lec err => Sys2Proof.Machine.execCanBusError n lec err s
  | .plcaBeaconRx n seen alien => Sys2Proof.Machine.execPlcaBeaconRx n seen alien s
  | .vbatLowClear mv ms => Sys2Proof.Machine.execVbatLowClear mv ms s
  | .lhInUnstuck k => Sys2Proof.Machine.execLhInUnstuck k s

end Sys2Proof.Machine
end

