-- ==== Sys2Proof/Machine/TickOps.lean ====
section
/-!
DEFINITION. Machine/TickOps.lean: what a tick of the chip's time brings (R253, R321).
-/
namespace Sys2Proof.Machine

/-- One tick of 62.5 ps passes. All that changes by itself is computed from the time, but for the samples of grid measurement,
which an instant of R253 brings, and the readings of the cable models, one every 10 µs (R321). -/
def State.tick (s : State) : State :=
  let s := s.setNow (s.now + 1)
  let s := if s.sampleDue then s.gridSamples else s
  if s.now % (10 * ticksPerUs) = 0 then s.cableSamples else s

end Sys2Proof.Machine
end

