-- ==== Sys2Proof/Machine/Step.lean ====
section
/-!
DEFINITION. Machine/Step.lean: one step: the command at the front of the queue, or the passing of time.
-/
namespace Sys2Proof.Machine

/-- The front command takes effect on the state with the rest of the queue; on an empty queue time passes. -/
def step (s : State) : Host.Outcome State Fault Refusal :=
  match s.pending with
  | c :: rest => exec c (s.setPending rest)
  | [] => .next s.tick

/-- The state with the command that a word spells put at the front of the queue; no word spells one. -/
def State.withFetchWord (s : State) (nbits w : Nat) : State :=
  match decodeTableWord nbits w with
  | some c => s.setPending (c :: s.pending)
  | none => s

end Sys2Proof.Machine
end

