-- ==== Sys2Proof/Safety.lean ====
section
/-!
DEFINITION. Safety.lean: the canonical form of a state, the parts of a state, and what an operation may do to them.
-/
set_option Elab.async false
namespace Sys2Proof.Machine

/-- The tables that hold the registers, their committed values and the memories are in canonical form, so that equal
contents are equal data. -/
def State.canonical (s : State) : Prop :=
  Tab.wf regReset s.regs ∧ Tab.wf regReset s.live ∧ Memory.wf s.mem

/-- The parts of the state, one for each field. -/
inductive Part where
  | now | pending | regs | live | mem | ecc | ladder | fabric | weft | power
  | startup | time | selv | loom | twill | sense | hs | sal | zw | grid
  | ks | links | ses | thermal | ledger | brine | can | out | free
deriving DecidableEq, Repr

/-- The part is the same in both states. -/
def Part.same : Part → State → State → Prop
  | .now, s, t => t.now = s.now
  | .pending, s, t => t.pending = s.pending
  | .regs, s, t => t.regs = s.regs
  | .live, s, t => t.live = s.live
  | .mem, s, t => t.mem = s.mem
  | .ecc, s, t => t.ecc = s.ecc
  | .ladder, s, t => t.ladder = s.ladder
  | .fabric, s, t => t.fabric = s.fabric
  | .weft, s, t => t.weft = s.weft
  | .power, s, t => t.power = s.power
  | .startup, s, t => t.startup = s.startup
  | .time, s, t => t.time = s.time
  | .selv, s, t => t.selv = s.selv
  | .loom, s, t => t.loom = s.loom
  | .twill, s, t => t.twill = s.twill
  | .sense, s, t => t.sense = s.sense
  | .hs, s, t => t.hs = s.hs
  | .sal, s, t => t.sal = s.sal
  | .zw, s, t => t.zw = s.zw
  | .grid, s, t => t.grid = s.grid
  | .ks, s, t => t.ks = s.ks
  | .links, s, t => t.links = s.links
  | .ses, s, t => t.ses = s.ses
  | .thermal, s, t => t.thermal = s.thermal
  | .ledger, s, t => t.ledger = s.ledger
  | .brine, s, t => t.brine = s.brine
  | .can, s, t => t.can = s.can
  | .out, s, t => t.out = s.out
  | .free, s, t => t.free = s.free

/-- From `s` to `t` only the parts of `fs` change, no message is taken back, no free value is taken twice, and the
canonical form is kept. -/
structure Moves (fs : List Part) (s t : State) : Prop where
  rest : ∀ p, fs.contains p = false → p.same s t
  out : s.out <+: t.out
  free : s.free ≤ t.free
  canonical : s.canonical → t.canonical

end Sys2Proof.Machine
end

