-- ==== Sys2Proof/Frames.lean ====
section
/-!
DEFINITION. Frames.lean: which parts of the state each command may change.
-/
set_option Elab.async false
namespace Sys2Proof.Machine

/-- The parts of the state on which a command may act. -/
def partsOf : Instr → List Part
  | .registerWrite _ _ _ _ =>
      [.regs, .live, .mem, .ecc, .ladder, .fabric, .weft, .power, .startup, .time, .selv, .loom, .twill, .sense, .hs,
       .sal, .zw, .grid, .ks, .links, .ses, .thermal, .ledger, .brine, .can, .out, .free]
  | .transactionTimeout _ => [.regs, .ladder, .fabric, .weft, .power, .selv, .sense, .hs]
  | .arbitrationPromotion _ => [.fabric]
  | .noteLimitExceeded _ => [.regs, .ladder]
  | .blockTimerExpiry _ =>
      [.regs, .live, .ladder, .fabric, .weft, .power, .time, .selv, .loom, .twill, .sense, .hs, .sal, .zw, .grid,
       .links, .ses, .thermal, .ledger, .can]
  | .regionResetComplete _ => [.regs, .mem, .ladder, .fabric, .weft, .selv, .loom, .twill, .sense, .hs, .thermal, .ledger]
  | .regionTimerExpiry _ => [.regs, .ladder, .fabric, .weft, .power, .selv, .sense, .hs]
  | .chipTimerExpiry =>
      [.regs, .live, .mem, .ecc, .ladder, .fabric, .weft, .power, .startup, .time, .selv, .loom, .twill, .sense, .hs,
       .sal, .zw, .grid, .ks, .links, .ses, .thermal, .ledger, .brine, .can]
  | .bridgeHandshakeStall _ =>
      [.regs, .live, .ladder, .fabric, .weft, .power, .time, .selv, .loom, .twill, .sense, .hs, .sal, .zw, .grid,
       .links, .ses, .thermal, .ledger, .can]
  | .ladderCopyFault _ _ => [.regs, .ladder, .fabric, .weft, .power, .selv, .sense, .hs]
  | .errAck _ => [.regs, .ladder]
  | .regionUp _ => [.regs, .mem, .ladder, .weft, .thermal, .ledger]
  | .errRecordClear _ => [.regs, .ladder]
  | .errLock => [.regs]
  | .add _ _ _ _ => [.regs, .mem, .ecc, .ladder, .fabric, .weft, .power, .selv, .sense, .hs, .free]
  | .sub _ _ _ _ => [.regs, .mem, .ecc, .ladder, .fabric, .weft, .power, .selv, .sense, .hs, .free]
  | .and _ _ _ _ => [.regs, .mem, .ecc, .ladder, .fabric, .weft, .power, .selv, .sense, .hs, .free]
  | .or _ _ _ _ => [.regs, .mem, .ecc, .ladder, .fabric, .weft, .power, .selv, .sense, .hs, .free]
  | .xor _ _ _ _ => [.regs, .mem, .ecc, .ladder, .fabric, .weft, .power, .selv, .sense, .hs, .free]
  | .sll _ _ _ _ => [.regs, .mem, .ecc, .ladder, .fabric, .weft, .power, .selv, .sense, .hs, .free]
  | .srl _ _ _ _ => [.regs, .mem, .ecc, .ladder, .fabric, .weft, .power, .selv, .sense, .hs, .free]
  | .sra _ _ _ _ => [.regs, .mem, .ecc, .ladder, .fabric, .weft, .power, .selv, .sense, .hs, .free]
  | .slli _ _ _ _ => [.regs, .mem, .ecc, .ladder, .fabric, .weft, .power, .selv, .sense, .hs, .free]
  | .srli _ _ _ _ => [.regs, .mem, .ecc, .ladder, .fabric, .weft, .power, .selv, .sense, .hs, .free]
  | .srai _ _ _ _ => [.regs, .mem, .ecc, .ladder, .fabric, .weft, .power, .selv, .sense, .hs, .free]
  | .slt _ _ _ _ => [.regs, .mem, .ecc, .ladder, .fabric, .weft, .power, .selv, .sense, .hs, .free]
  | .sltu _ _ _ _ => [.regs, .mem, .ecc, .ladder, .fabric, .weft, .power, .selv, .sense, .hs, .free]
  | .min _ _ _ _ => [.regs, .mem, .ecc, .ladder, .fabric, .weft, .power, .selv, .sense, .hs, .free]
  | .max _ _ _ _ => [.regs, .mem, .ecc, .ladder, .fabric, .weft, .power, .selv, .sense, .hs, .free]
  | .div _ _ _ _ => [.regs, .mem, .ecc, .ladder, .fabric, .weft, .power, .selv, .sense, .hs, .free]
  | .divu _ _ _ _ => [.regs, .mem, .ecc, .ladder, .fabric, .weft, .power, .selv, .sense, .hs, .free]
  | .addi _ _ _ _ => [.regs, .mem, .ecc, .ladder, .fabric, .weft, .power, .selv, .sense, .hs, .free]
  | .andi _ _ _ _ => [.regs, .mem, .ecc, .ladder, .fabric, .weft, .power, .selv, .sense, .hs, .free]
  | .ori _ _ _ _ => [.regs, .mem, .ecc, .ladder, .fabric, .weft, .power, .selv, .sense, .hs, .free]
  | .xori _ _ _ _ => [.regs, .mem, .ecc, .ladder, .fabric, .weft, .power, .selv, .sense, .hs, .free]
  | .slti _ _ _ _ => [.regs, .mem, .ecc, .ladder, .fabric, .weft, .power, .selv, .sense, .hs, .free]
  | .lhi _ _ _ => [.regs, .mem, .ecc, .ladder, .fabric, .weft, .power, .selv, .sense, .hs, .free]
  | .lw _ _ _ _ => [.regs, .mem, .ecc, .ladder, .fabric, .weft, .power, .selv, .sense, .hs, .free]
  | .lh _ _ _ _ => [.regs, .mem, .ecc, .ladder, .fabric, .weft, .power, .selv, .sense, .hs, .free]
  | .lhu _ _ _ _ => [.regs, .mem, .ecc, .ladder, .fabric, .weft, .power, .selv, .sense, .hs, .free]
  | .lb _ _ _ _ => [.regs, .mem, .ecc, .ladder, .fabric, .weft, .power, .selv, .sense, .hs, .free]
  | .lbu _ _ _ _ => [.regs, .mem, .ecc, .ladder, .fabric, .weft, .power, .selv, .sense, .hs, .free]
  | .sw _ _ _ _ => [.regs, .live, .mem, .ecc, .ladder, .fabric, .weft, .power, .selv, .sense, .hs, .free]
  | .sh _ _ _ _ => [.regs, .live, .mem, .ecc, .ladder, .fabric, .weft, .power, .selv, .sense, .hs, .free]
  | .sb _ _ _ _ => [.regs, .live, .mem, .ecc, .ladder, .fabric, .weft, .power, .selv, .sense, .hs, .free]
  | .beq _ _ _ _ => [.regs, .mem, .ecc, .ladder, .fabric, .weft, .power, .selv, .sense, .hs, .free]
  | .bne _ _ _ _ => [.regs, .mem, .ecc, .ladder, .fabric, .weft, .power, .selv, .sense, .hs, .free]
  | .blt _ _ _ _ => [.regs, .mem, .ecc, .ladder, .fabric, .weft, .power, .selv, .sense, .hs, .free]
  | .bge _ _ _ _ => [.regs, .mem, .ecc, .ladder, .fabric, .weft, .power, .selv, .sense, .hs, .free]
  | .bltu _ _ _ _ => [.regs, .mem, .ecc, .ladder, .fabric, .weft, .power, .selv, .sense, .hs, .free]
  | .bgeu _ _ _ _ => [.regs, .mem, .ecc, .ladder, .fabric, .weft, .power, .selv, .sense, .hs, .free]
  | .j _ _ => [.regs, .mem, .ecc, .ladder, .fabric, .weft, .power, .selv, .sense, .hs, .free]
  | .jal _ _ _ => [.regs, .mem, .ecc, .ladder, .fabric, .weft, .power, .selv, .sense, .hs, .free]
  | .jalr _ _ _ _ => [.regs, .mem, .ecc, .ladder, .fabric, .weft, .power, .selv, .sense, .hs, .free]
  | .bfx _ _ _ _ _ => [.regs, .mem, .ecc, .ladder, .fabric, .weft, .power, .selv, .sense, .hs, .free]
  | .bfxu _ _ _ _ _ => [.regs, .mem, .ecc, .ladder, .fabric, .weft, .power, .selv, .sense, .hs, .free]
  | .bfi _ _ _ _ _ => [.regs, .mem, .ecc, .ladder, .fabric, .weft, .power, .selv, .sense, .hs, .free]
  | .bfc _ _ _ _ _ => [.regs, .mem, .ecc, .ladder, .fabric, .weft, .power, .selv, .sense, .hs, .free]
  | .clz _ _ _ => [.regs, .mem, .ecc, .ladder, .fabric, .weft, .power, .selv, .sense, .hs, .free]
  | .ctz _ _ _ => [.regs, .mem, .ecc, .ladder, .fabric, .weft, .power, .selv, .sense, .hs, .free]
  | .popc _ _ _ => [.regs, .mem, .ecc, .ladder, .fabric, .weft, .power, .selv, .sense, .hs, .free]
  | .rev _ _ _ => [.regs, .mem, .ecc, .ladder, .fabric, .weft, .power, .selv, .sense, .hs, .free]
  | .adds _ _ _ _ => [.regs, .mem, .ecc, .ladder, .fabric, .weft, .power, .selv, .sense, .hs, .free]
  | .subs _ _ _ _ => [.regs, .mem, .ecc, .ladder, .fabric, .weft, .power, .selv, .sense, .hs, .free]
  | .addus _ _ _ _ => [.regs, .mem, .ecc, .ladder, .fabric, .weft, .power, .selv, .sense, .hs, .free]
  | .negs _ _ _ => [.regs, .mem, .ecc, .ladder, .fabric, .weft, .power, .selv, .sense, .hs, .free]
  | .abss _ _ _ => [.regs, .mem, .ecc, .ladder, .fabric, .weft, .power, .selv, .sense, .hs, .free]
  | .sats _ _ _ _ => [.regs, .mem, .ecc, .ladder, .fabric, .weft, .power, .selv, .sense, .hs, .free]
  | .satu _ _ _ _ => [.regs, .mem, .ecc, .ladder, .fabric, .weft, .power, .selv, .sense, .hs, .free]
  | .shls _ _ _ _ => [.regs, .mem, .ecc, .ladder, .fabric, .weft, .power, .selv, .sense, .hs, .free]
  | .mul _ _ _ _ => [.regs, .mem, .ecc, .ladder, .fabric, .weft, .power, .selv, .sense, .hs, .free]
  | .mulh _ _ _ _ => [.regs, .mem, .ecc, .ladder, .fabric, .weft, .power, .selv, .sense, .hs, .free]
  | .fmul _ _ _ _ _ _ => [.regs, .mem, .ecc, .ladder, .fabric, .weft, .power, .selv, .sense, .hs, .free]
  | .mac _ _ _ _ _ => [.regs, .mem, .ecc, .ladder, .fabric, .weft, .power, .selv, .sense, .hs, .free]
  | .msu _ _ _ _ _ => [.regs, .mem, .ecc, .ladder, .fabric, .weft, .power, .selv, .sense, .hs, .free]
  | .macz _ _ _ _ _ => [.regs, .mem, .ecc, .ladder, .fabric, .weft, .power, .selv, .sense, .hs, .free]
  | .rdacc _ _ _ _ => [.regs, .mem, .ecc, .ladder, .fabric, .weft, .power, .selv, .sense, .hs, .free]
  | .mtacc _ _ _ => [.regs, .mem, .ecc, .ladder, .fabric, .weft, .power, .selv, .sense, .hs, .free]
  | .mfacch _ _ => [.regs, .mem, .ecc, .ladder, .fabric, .weft, .power, .selv, .sense, .hs, .free]
  | .mfaccl _ _ => [.regs, .mem, .ecc, .ladder, .fabric, .weft, .power, .selv, .sense, .hs, .free]
  | .wait _ _ _ _ => [.regs, .mem, .ecc, .ladder, .fabric, .weft, .power, .selv, .sense, .hs, .free]
  | .waitTimeout _ => [.regs, .ladder, .fabric, .weft, .power, .selv, .sense, .hs]
  | .tcmp _ _ _ _ _ => [.regs, .mem, .ecc, .ladder, .fabric, .weft, .power, .selv, .sense, .hs, .free]
  | .timerCompareMatch _ => [.weft]
  | .trd _ _ _ _ => [.regs, .mem, .ecc, .ladder, .fabric, .weft, .power, .selv, .sense, .hs, .free]
  | .msend _ _ _ _ => [.regs, .mem, .ecc, .ladder, .fabric, .weft, .power, .selv, .sense, .hs, .free]
  | .mrecv _ _ _ _ => [.regs, .mem, .ecc, .ladder, .fabric, .weft, .power, .selv, .sense, .hs, .free]
  | .aadd _ _ _ _ => [.regs, .mem, .ecc, .ladder, .fabric, .weft, .power, .selv, .sense, .hs, .free]
  | .acas _ _ _ _ => [.regs, .mem, .ecc, .ladder, .fabric, .weft, .power, .selv, .sense, .hs, .free]
  | .csrr _ _ _ => [.regs, .mem, .ecc, .ladder, .fabric, .weft, .power, .selv, .sense, .hs, .free]
  | .csrw _ _ _ _ => [.regs, .mem, .ecc, .ladder, .fabric, .weft, .power, .selv, .sense, .hs, .free]
  | .csrs _ _ _ _ => [.regs, .mem, .ecc, .ladder, .fabric, .weft, .power, .selv, .sense, .hs, .free]
  | .csrc _ _ _ _ => [.regs, .mem, .ecc, .ladder, .fabric, .weft, .power, .selv, .sense, .hs, .free]
  | .scall _ _ _ _ => [.regs, .mem, .ecc, .ladder, .fabric, .weft, .power, .selv, .sense, .hs, .ks, .free]
  | .illegalInstruction _ _ => [.regs, .mem, .ecc, .ladder, .fabric, .weft, .power, .selv, .sense, .hs, .free]
  | .bar _ => [.regs, .mem, .ecc, .ladder, .fabric, .weft, .power, .selv, .sense, .hs, .free]
  | .trap _ _ => [.regs, .mem, .ecc, .ladder, .fabric, .weft, .power, .selv, .sense, .hs, .free]
  | .brk _ => [.regs, .mem, .ecc, .ladder, .fabric, .weft, .power, .selv, .sense, .hs, .free]
  | .eret _ => [.regs, .mem, .ecc, .ladder, .fabric, .weft, .power, .selv, .sense, .hs, .free]
  | .fabricResponse _ =>
      [.regs, .live, .mem, .ecc, .ladder, .fabric, .weft, .power, .startup, .time, .selv, .loom, .twill, .sense, .hs,
       .sal, .zw, .grid, .ks, .links, .ses, .thermal, .ledger, .brine, .can, .out, .free]
  | .busStoreError _ => [.regs, .ladder, .fabric, .weft, .power, .selv, .sense, .hs]
  | .ctxStart _ _ => [.weft]
  | .ctxRestart _ _ => [.regs, .ladder, .weft, .ks]
  | .ctxWatchdogExpiry _ => [.regs, .ladder, .weft, .ks]
  | .ctxHalt _ _ => [.regs, .weft]
  | .ctxResume _ _ => [.regs, .ladder, .fabric, .weft, .power, .selv, .sense, .hs]
  | .debugClaim _ => [.regs, .ladder, .fabric, .weft, .power, .selv, .sense, .hs]
  | .debugRelease _ => [.regs, .ladder, .fabric, .weft, .power, .selv, .sense, .hs]
  | .eventPending _ _ => [.weft]
  | .mailboxDelivery _ => [.regs, .weft]
  | .mailboxConfig _ _ => [.regs, .weft]
  | .eccWriteback _ => [.ecc]
  | .tcmWindowAccess _ _ _ _ _ =>
      [.regs, .live, .mem, .ecc, .ladder, .fabric, .weft, .power, .startup, .time, .selv, .loom, .twill, .sense, .hs,
       .sal, .zw, .grid, .ks, .links, .ses, .thermal, .ledger, .brine, .can, .out, .free]
  | .loomRun _ => [.regs, .weft, .loom]
  | .loomBoundary _ => [.regs, .live, .ladder, .weft, .loom]
  | .loomMidpoint _ => [.regs, .live, .weft, .loom]
  | .loomRefEdge _ => [.loom]
  | .loomDeadTimeEnd _ => [.regs, .weft, .loom]
  | .loomTrigger _ _ => [.regs, .ladder, .weft, .loom, .twill, .sense]
  | .loomTripSource _ _ => [.regs, .weft, .loom]
  | .loomBlankEnd _ => [.regs, .weft, .loom]
  | .loomClrTrip _ => [.regs, .loom]
  | .loomClrDrop _ => [.regs]
  | .loomSourceStuck _ => [.regs, .weft, .loom]
  | .loomStuckClear _ => [.regs]
  | .loomStaleTrip _ => [.regs, .weft, .loom]
  | .loomGupdArm _ => [.regs, .loom]
  | .loomLock => [.regs]
  | .loomClockLoss =>
      [.regs, .live, .ladder, .fabric, .weft, .power, .time, .selv, .loom, .twill, .sense, .hs, .sal, .zw, .grid,
       .links, .ses, .thermal, .ledger, .can]
  | .loomReadbackFault _ => [.regs, .ladder, .loom]
  | .loomConfigEcc _ _ => [.regs, .ladder, .loom]
  | .loomRecalibrate => [.regs, .ladder]
  | .twOverrunLimit _ _ => [.regs, .ladder, .twill]
  | .twSlotStart _ => [.regs, .live, .twill]
  | .twNop _ _ => [.regs, .ladder, .weft, .twill]
  | .twEnd _ => [.regs, .ladder, .weft, .twill]
  | .lda _ _ _ => [.regs, .ladder, .weft, .twill]
  | .sta _ _ _ => [.regs, .ladder, .weft, .twill]
  | .mulc _ _ _ _ => [.regs, .ladder, .weft, .twill]
  | .macc _ _ _ _ => [.regs, .ladder, .weft, .twill]
  | .msuc _ _ _ _ => [.regs, .ladder, .weft, .twill]
  | .mula _ _ _ _ => [.regs, .ladder, .weft, .twill]
  | .maca _ _ _ _ => [.regs, .ladder, .weft, .twill]
  | .msua _ _ _ _ => [.regs, .ladder, .weft, .twill]
  | .adda _ _ _ _ => [.regs, .ladder, .weft, .twill]
  | .suba _ _ _ _ => [.regs, .ladder, .weft, .twill]
  | .mova _ _ _ => [.regs, .ladder, .weft, .twill]
  | .nega _ _ _ => [.regs, .ladder, .weft, .twill]
  | .absa _ _ _ => [.regs, .ladder, .weft, .twill]
  | .mina _ _ _ _ => [.regs, .ladder, .weft, .twill]
  | .maxa _ _ _ _ => [.regs, .ladder, .weft, .twill]
  | .clmp _ _ _ _ => [.regs, .ladder, .weft, .twill]
  | .sha _ _ _ _ => [.regs, .ladder, .weft, .twill]
  | .diva _ _ _ _ => [.regs, .ladder, .weft, .twill]
  | .minsel _ _ _ _ _ _ _ => [.regs, .ladder, .weft, .twill]
  | .ffl _ _ _ _ => [.regs, .ladder, .weft, .twill]
  | .ffa _ _ _ _ => [.regs, .ladder, .weft, .twill]
  | .ramp _ _ _ => [.regs, .ladder, .weft, .twill]
  | .twOut _ _ _ _ => [.regs, .ladder, .weft, .loom, .twill]
  | .twArm _ _ => [.regs, .ladder, .weft, .loom, .twill]
  | .evt _ _ => [.regs, .ladder, .weft, .twill]
  | .br _ _ _ _ _ => [.regs, .ladder, .weft, .twill]
  | .waitin _ _ => [.regs, .ladder, .weft, .twill]
  | .twBudgetExpiry _ => [.regs, .ladder, .twill]
  | .twRun _ _ => [.regs, .ladder, .twill]
  | .twCoefCommit _ => [.regs, .twill]
  | .twRampPreset _ _ _ => [.twill]
  | .twOwnWrite _ _ => [.regs]
  | .twSlotClear _ _ => [.regs]
  | .twMemoryEcc _ _ _ => [.regs, .ladder, .weft, .twill]
  | .ainSpSample _ _ => [.regs, .ladder, .twill]
  | .pinSpEdge _ => [.regs, .ladder, .twill]
  | .pinSpTimeout _ => [.regs, .twill]
  | .adcDeferredSample _ => [.sense]
  | .adcConversionComplete _ _ => [.regs, .ladder, .weft, .twill, .sense]
  | .adcEnable _ => [.regs, .weft, .sense]
  | .adcClearCounts => [.regs]
  | .comparatorActive _ _ => [.regs, .weft, .loom, .sense]
  | .comparatorInactive _ _ => [.regs, .weft, .loom, .sense]
  | .cmpThresholdWrite _ _ _ => [.regs, .ladder, .weft, .loom]
  | .cmpDacMismatch _ => [.regs, .ladder, .weft, .loom]
  | .ainStale _ => [.regs, .weft, .sense]
  | .xpChangeAllowed _ => [.regs, .sense, .hs]
  | .xpHoldExpiry _ => [.regs, .ladder, .weft, .sense]
  | .isumCheck _ => [.regs, .ladder, .weft, .sense]
  | .isumHoldEnd _ => [.sense]
  | .weldCheckStart _ _ _ => [.regs, .weft, .sense]
  | .weldCheckEnd => [.regs, .ladder, .weft, .sense]
  | .salModeWrite _ => [.regs]
  | .salternBoundary => [.regs, .live, .ladder, .weft, .sal]
  | .solveComplete => [.regs, .ladder, .weft, .sal, .zw, .out]
  | .salternTableEcc _ _ => [.regs, .ladder, .weft, .sal]
  | .salDemWrite _ _ => [.regs, .sal]
  | .demandStale _ => [.regs, .ladder]
  | .salCommitGo => [.regs, .sal]
  | .emrgLineRaise => [.regs, .weft, .sal]
  | .emrgReq => [.regs, .weft, .sal]
  | .emrgClr => [.regs, .sal]
  | .salStateWrite _ _ => [.regs, .sal]
  | .grantSetHandover => [.regs, .ladder, .weft, .sal, .zw]
  | .grantApply => [.regs, .weft, .sal]
  | .demandSample => [.regs, .ladder, .weft, .sal, .zw, .out]
  | .demandFrame _ _ _ => [.regs, .ladder, .weft, .sal, .zw, .out]
  | .grantFrame _ _ _ => [.regs, .ladder, .weft, .sal, .zw, .out, .free]
  | .zwEnable _ => [.regs, .ladder, .weft, .selv, .sense, .hs, .zw]
  | .listenTimeout => [.zw]
  | .claimWaitExpiry => [.regs, .zw]
  | .followerTimeout => [.regs, .weft, .zw]
  | .zwBoundary => [.regs, .ladder, .weft, .sal, .zw, .free]
  | .takeover => [.regs, .ladder, .weft, .zw]
  | .stepDown => [.regs, .ladder, .weft, .zw]
  | .holdExpiry => [.regs, .ladder, .weft, .zw]
  | .zwSwapGo _ => [.regs, .zw]
  | .zwClrExcl => [.regs]
  | .zwClaim _ => [.regs, .ladder, .weft, .selv, .sense, .hs, .zw]
  | .partnerLineQualified _ _ => [.regs, .ladder, .weft, .selv, .sense, .hs, .zw]
  | .partnerLineStuck _ => [.regs, .ladder, .weft, .selv, .sense, .hs, .zw]
  | .zwPairStuckClear => [.regs, .ladder, .weft, .selv, .sense, .hs, .zw]
  | .zwBufferEcc _ _ => [.regs, .ladder, .zw]
  | .tbStepGo _ _ _ => [.regs, .ladder, .time]
  | .tbStepApply _ => [.regs, .weft, .power, .time, .sal, .zw, .grid]
  | .tbRateWrite _ _ _ => [.regs, .power, .time]
  | .tbSrcWrite _ _ _ => [.regs, .weft, .power, .time]
  | .tbOffset _ => [.regs, .weft, .power, .time]
  | .tbHoldover _ => [.regs, .weft, .power, .time]
  | .tbHoldExpired _ => [.regs, .ladder, .weft]
  | .tbTimeRead _ => [.regs]
  | .toutArm _ _ => [.regs, .weft, .time, .free]
  | .toutDisarm _ _ => [.regs, .weft, .time, .free]
  | .toutActive _ => [.weft, .time]
  | .toutInactive _ => [.time]
  | .tcapEdge _ _ => [.time]
  | .tcapStamp _ => [.regs, .ladder, .weft, .time]
  | .tcapRead _ => [.regs, .time]
  | .ptpEventRx _ _ => [.regs, .ladder, .time, .out, .free]
  | .ptpSyncSend _ => [.regs, .ladder, .time, .out]
  | .tcFollowupTimeout => [.regs, .time]
  | .ptpTxtsRead _ => [.regs, .time]
  | .ptpPortState _ _ => [.regs, .ladder, .time]
  | .ptpSelfcheckFail _ => [.regs, .ladder, .time]
  | .gridChannelLost _ => [.regs, .ladder, .weft, .grid]
  | .pmuFrameWrite _ _ _ _ _ => [.regs, .mem, .ecc, .ladder, .fabric, .weft, .power, .selv, .sense, .hs, .grid, .free]
  | .gridResponseUpdate _ _ _ _ _ => [.regs, .ladder, .weft, .sal, .grid, .free]
  | .gridRecArm => [.regs, .grid]
  | .gridRecTrig => [.regs, .ladder, .weft, .grid]
  | .gridRecComplete => [.regs, .weft, .grid]
  | .pilotMeasurement _ _ _ _ => [.regs, .ladder, .weft, .links]
  | .pilotDriveWrite _ _ => [.regs]
  | .pilotUnstableClear _ => [.regs, .weft]
  | .senseReferenceCheck _ _ => [.regs, .ladder, .weft, .links]
  | .linkFrameRx _ _ _ => [.regs, .mem, .ecc, .ladder, .fabric, .weft, .power, .selv, .sense, .hs, .links, .out, .free]
  | .ringTxHeadWrite _ _ => [.regs]
  | .linkFrameTxDone _ _ => [.regs, .mem, .ecc, .ladder, .fabric, .weft, .power, .selv, .sense, .hs, .links, .out, .free]
  | .ringEnable _ _ _ => [.regs, .links]
  | .attStart _ _ => [.regs, .links]
  | .attDone _ => [.regs, .weft, .links, .free]
  | .toneMapRefresh _ => [.regs, .ladder, .weft, .links]
  | .renegComplete _ => [.regs, .links]
  | .bbPhWrite _ => [.regs, .links]
  | .t1sPhySelfcheckFail _ => [.regs, .ladder, .links]
  | .decode => [.regs, .mem, .ecc, .ladder, .fabric, .weft, .power, .selv, .sense, .hs, .ses, .free]
  | .encode => [.regs, .mem, .ecc, .ladder, .fabric, .weft, .power, .selv, .sense, .hs, .ses, .free]
  | .digest => [.regs, .mem, .ecc, .ladder, .fabric, .weft, .power, .selv, .sense, .hs, .ses, .free]
  | .tlsAccept _ => [.regs, .mem, .ecc, .ladder, .fabric, .weft, .power, .selv, .sense, .hs, .ses, .free]
  | .tlsIn _ => [.regs, .mem, .ecc, .ladder, .fabric, .weft, .power, .selv, .sense, .hs, .ses, .free]
  | .tlsOut _ => [.regs, .mem, .ecc, .ladder, .fabric, .weft, .power, .selv, .sense, .hs, .ses, .free]
  | .tlsClose _ => [.regs, .mem, .ecc, .ladder, .fabric, .weft, .power, .selv, .sense, .hs, .ses, .free]
  | .sesChannelDisable _ => [.regs, .ses]
  | .sesTimerArm _ _ => [.regs, .ses]
  | .sesTimerExpiry _ => [.regs, .weft, .ses]
  | .sesEngineFault _ _ => [.regs, .mem, .ecc, .ladder, .fabric, .weft, .power, .selv, .sense, .hs, .ses, .free]
  | .tsConversion _ _ => [.regs, .ladder, .weft, .twill, .thermal]
  | .cableModelUpdate _ => [.regs, .ladder, .weft, .twill, .thermal, .free]
  | .daRecompute _ => [.regs, .weft, .twill, .thermal, .free]
  | .enfUpdate _ => [.regs, .twill]
  | .thermalRecord => [.regs, .mem, .ladder, .thermal, .ledger]
  | .shutdownHoldComplete _ => [.regs, .weft]
  | .cblAck _ => [.regs, .ladder, .thermal]
  | .cblEnable _ _ => [.regs, .weft, .twill, .thermal]
  | .tachEdge _ => [.regs, .ladder, .thermal]
  | .tachTimeout _ => [.regs, .thermal]
  | .fanStall _ => [.regs, .ladder, .weft, .thermal]
  | .tjConversion _ _ => [.regs, .ladder, .weft, .thermal]
  | .thermalReferenceCheck _ => [.regs, .ladder, .weft, .twill, .thermal]
  | .meterBlockEnd _ => [.regs, .mem, .ladder, .weft, .ledger, .free]
  | .meterChannelInvalid _ _ => [.regs, .mem, .ladder, .weft, .ledger]
  | .legalUpdChange _ => [.regs, .mem, .ladder, .weft, .ledger]
  | .legalTxCheck => [.ledger, .out]
  | .legalTxEnergy => [.ledger, .out]
  | .mpulsePulse _ => [.ledger]
  | .meterImageRecheck => [.regs, .mem, .ladder, .weft, .ledger, .out]
  | .parameterLoad => [.regs, .mem, .ecc, .ladder, .fabric, .weft, .power, .selv, .sense, .hs, .ledger, .out, .free]
  | .readingStart _ => [.regs, .ledger]
  | .readingStop _ => [.regs, .ledger]
  | .readingOnRequest _ => [.regs, .ledger]
  | .readingRecordComplete => [.regs, .mem, .ladder, .weft, .ledger, .free]
  | .ledgerRestore _ _ => [.regs, .mem, .ladder, .weft, .ledger, .out, .free]
  | .tcwSample _ _ => [.ledger]
  | .evsMramEcc _ _ => [.regs, .ladder, .ledger]
  | .tariffInstant _ => [.regs, .mem, .ladder, .weft, .ledger, .free]
  | .calendarLoad => [.regs, .mem, .ecc, .ladder, .fabric, .weft, .power, .selv, .sense, .hs, .ledger, .free]
  | .billingClose => [.ledger]
  | .legalClockAdjust _ => [.regs, .mem, .ladder, .weft, .power, .time, .sal, .zw, .grid, .ledger, .free]
  | .autoSync => [.regs, .ladder, .weft, .power, .time, .sal, .zw, .grid, .ledger]
  | .topup _ => [.regs, .mem, .ladder, .weft, .ledger]
  | .debit _ => [.regs, .mem, .ladder, .weft, .ledger]
  | .config _ _ => [.regs, .weft, .ledger]
  | .tarMemoryEcc _ _ => [.regs, .ladder]
  | .pubkey _ => [.regs, .mem, .ecc, .ladder, .fabric, .weft, .power, .selv, .sense, .hs, .ks, .free]
  | .sign _ => [.regs, .mem, .ecc, .ladder, .fabric, .weft, .power, .selv, .sense, .hs, .ks, .free]
  | .verify _ => [.regs, .mem, .ecc, .ladder, .fabric, .weft, .power, .selv, .sense, .hs, .ks, .free]
  | .ecdhDerive _ => [.regs, .mem, .ecc, .ladder, .fabric, .weft, .power, .selv, .sense, .hs, .ks, .free]
  | .gcmEnc _ => [.regs, .mem, .ecc, .ladder, .fabric, .weft, .power, .selv, .sense, .hs, .ks, .free]
  | .gcmDec _ => [.regs, .mem, .ecc, .ladder, .fabric, .weft, .power, .selv, .sense, .hs, .ks, .free]
  | .ctr _ => [.regs, .mem, .ecc, .ladder, .fabric, .weft, .power, .selv, .sense, .hs, .ks, .free]
  | .hash _ => [.regs, .mem, .ecc, .ladder, .fabric, .weft, .power, .selv, .sense, .hs, .ks, .free]
  | .random _ => [.regs, .mem, .ecc, .ladder, .fabric, .weft, .power, .selv, .sense, .hs, .ks, .free]
  | .generate _ => [.regs, .mem, .ecc, .ladder, .fabric, .weft, .power, .selv, .sense, .hs, .ks, .free]
  | .loadBlob _ => [.regs, .mem, .ecc, .ladder, .fabric, .weft, .power, .selv, .sense, .hs, .ks, .free]
  | .loadPub _ => [.regs, .mem, .ecc, .ladder, .fabric, .weft, .power, .selv, .sense, .hs, .ks, .free]
  | .check _ => [.regs, .mem, .ecc, .ladder, .fabric, .weft, .power, .selv, .sense, .hs, .ks, .free]
  | .commit _ => [.regs, .mem, .ecc, .ladder, .fabric, .weft, .power, .selv, .sense, .hs, .ks, .free]
  | .ksTimedCommit _ => [.regs, .weft, .ks]
  | .discard _ => [.regs, .mem, .ecc, .ladder, .fabric, .weft, .power, .selv, .sense, .hs, .ks, .free]
  | .erase _ => [.regs, .mem, .ecc, .ladder, .fabric, .weft, .power, .selv, .sense, .hs, .ks, .free]
  | .keyOut _ => [.regs, .mem, .ecc, .ladder, .fabric, .weft, .power, .selv, .sense, .hs, .ks, .free]
  | .rootGen _ => [.regs, .mem, .ecc, .ladder, .fabric, .weft, .power, .selv, .sense, .hs, .ks, .free]
  | .zeroise _ => [.regs, .mem, .ecc, .ladder, .fabric, .weft, .power, .selv, .sense, .hs, .ks, .free]
  | .tamperEvent _ => [.regs, .ladder, .fabric, .weft, .power, .selv, .sense, .hs, .ks]
  | .ksRemask => [.ks, .free]
  | .ksEntropyFail => [.regs, .ladder, .weft, .ks]
  | .ksReseed _ => [.regs, .ladder, .weft, .ks]
  | .ksAdminLock _ => [.regs]
  | .ksCtrlLock _ => [.regs]
  | .safetyCycleStart => [.regs, .ladder, .fabric, .weft, .power, .selv, .sense, .hs]
  | .safetyCommit => [.regs, .live, .weft, .selv, .sense]
  | .lockstepMismatch => [.regs, .ladder, .fabric, .weft, .power, .selv, .sense, .hs]
  | .safeClockCheck _ _ _ => [.regs, .ladder, .fabric, .weft, .power, .selv, .sense, .hs]
  | .safetyConfigRecheck => [.regs, .ladder, .fabric, .weft, .power, .selv, .sense, .hs]
  | .safeInputAccept _ _ _ _ _ => [.regs, .ladder, .weft, .selv, .sense]
  | .safeInputDiscrepancy _ => [.regs, .ladder, .weft, .selv]
  | .safeInputStuck _ _ _ => [.regs, .ladder, .weft, .selv, .sense]
  | .permit => [.regs, .ladder, .weft, .selv, .sense]
  | .permitLapse => [.regs, .weft, .selv, .sense]
  | .ack _ => [.regs, .ladder, .weft, .selv, .sense]
  | .brakeTest => [.regs, .ladder, .selv]
  | .brakeTestEnd => [.regs, .weft, .selv, .sense]
  | .brakeTestDue => [.regs]
  | .confirm => [.regs, .ladder, .weft, .selv]
  | .confirmTimeout => [.regs, .weft, .selv]
  | .user => [.regs, .ladder, .weft, .selv]
  | .safeCurrentCode _ _ => [.regs, .weft, .selv, .sense]
  | .safeCurrentGap _ => [.selv]
  | .softOpenTimeout _ => [.regs, .weft, .selv, .sense]
  | .offPulseStart _ _ => [.selv]
  | .offPulseEnd _ _ => [.regs, .ladder, .weft, .selv, .sense]
  | .soutReadbackFault _ _ _ => [.regs, .ladder, .weft, .selv, .sense]
  | .hsOnWrite _ => [.regs, .sense, .hs]
  | .hsOnSet _ => [.regs, .sense, .hs]
  | .hsOnClr _ => [.regs, .sense, .hs]
  | .hsOvercurrentTrip _ _ => [.regs, .ladder, .weft, .sense, .hs]
  | .hsRetry _ => [.regs, .hs]
  | .hsFuseTrip _ _ _ => [.regs, .ladder, .weft, .hs]
  | .hsThermalLatch _ _ _ => [.regs, .ladder, .weft, .hs]
  | .hsThermalRelease _ _ => [.regs, .ladder, .weft, .sense, .hs]
  | .hsRcntReset _ => [.regs]
  | .hsOpenLoad _ _ _ => [.regs, .ladder, .hs]
  | .hsMismatch _ => [.regs, .ladder]
  | .hsMismatchClear _ => [.regs, .ladder]
  | .lhInEdge _ _ _ => [.regs, .ladder, .sense, .hs]
  | .lhEnChange _ _ => [.regs, .sense, .hs]
  | .hsLock => [.regs]
  | .isSelChange _ _ => [.hs]
  | .vinOvervoltage => [.regs, .hs]
  | .vinOvervoltageEnd => [.regs, .hs]
  | .brineEnable _ => [.regs, .weft, .brine]
  | .brinePeriod _ _ _ _ => [.regs, .ladder, .weft, .brine]
  | .brineVsetWrite _ => [.regs]
  | .brineTrimUpdate => [.regs, .ladder, .brine]
  | .brineUvLatch => [.regs, .ladder, .weft, .brine]
  | .brineOvLatch => [.regs, .ladder, .weft, .brine]
  | .brinePhaseShed => [.brine]
  | .brineSwFault _ => [.regs, .ladder, .weft, .brine]
  | .canEnable _ _ => [.regs, .mem, .ecc, .ladder, .fabric, .weft, .power, .selv, .sense, .hs, .can, .free]
  | .canBusJoin _ => [.regs, .mem, .ecc, .ladder, .fabric, .weft, .power, .selv, .sense, .hs, .can, .free]
  | .canFrameRx _ _ _ => [.regs, .mem, .ecc, .ladder, .weft, .time, .can, .free]
  | .canFifoRelease _ _ _ => [.regs]
  | .canTxreq _ _ => [.regs, .mem, .ecc, .ladder, .fabric, .weft, .power, .selv, .sense, .hs, .can, .free]
  | .canTxcan _ _ => [.regs, .mem, .ecc, .ladder, .fabric, .weft, .power, .selv, .sense, .hs, .can, .free]
  | .canTxComplete _ _ _ =>
      [.regs, .mem, .ecc, .ladder, .fabric, .weft, .power, .time, .selv, .sense, .hs, .can, .out, .free]
  | .canBusOff _ => [.regs, .ladder, .weft, .can]
  | .canBusOffRecovery _ => [.regs, .mem, .ecc, .ladder, .fabric, .weft, .power, .selv, .sense, .hs, .can, .free]
  | .canRxStuck _ _ _ => [.regs, .ladder, .can]
  | .canStuckClear _ _ => [.regs, .mem, .ecc, .ladder, .fabric, .weft, .power, .selv, .sense, .hs, .can, .free]
  | .canRefInstant _ => [.regs, .mem, .ecc, .ladder, .fabric, .weft, .power, .selv, .sense, .hs, .can, .free]
  | .vinPowerFail _ =>
      [.regs, .live, .mem, .ladder, .fabric, .weft, .power, .startup, .time, .selv, .loom, .twill, .sense, .hs, .sal,
       .zw, .grid, .ks, .links, .ses, .thermal, .ledger, .can, .free]
  | .vinStop =>
      [.regs, .live, .mem, .ecc, .ladder, .fabric, .weft, .power, .startup, .time, .selv, .loom, .twill, .sense, .hs,
       .sal, .zw, .grid, .ks, .links, .ses, .thermal, .ledger, .brine, .can]
  | .vinOn =>
      [.regs, .live, .mem, .ecc, .ladder, .fabric, .weft, .power, .startup, .time, .selv, .loom, .twill, .sense, .hs,
       .sal, .zw, .grid, .ks, .links, .ses, .thermal, .ledger, .brine, .can]
  | .vinValid =>
      [.regs, .live, .mem, .ecc, .ladder, .fabric, .weft, .power, .startup, .time, .selv, .loom, .twill, .sense, .hs,
       .sal, .zw, .grid, .ks, .links, .ses, .thermal, .ledger, .brine, .can]
  | .porAon =>
      [.regs, .live, .mem, .ecc, .ladder, .fabric, .weft, .power, .startup, .time, .selv, .loom, .twill, .sense, .hs,
       .sal, .zw, .grid, .ks, .links, .ses, .thermal, .ledger, .brine, .can]
  | .pwrCtrlWrite _ =>
      [.regs, .live, .mem, .ecc, .ladder, .fabric, .weft, .power, .startup, .time, .selv, .loom, .twill, .sense, .hs,
       .sal, .zw, .grid, .ks, .links, .ses, .thermal, .ledger, .brine, .can]
  | .domainSupplyFault _ =>
      [.regs, .live, .ladder, .fabric, .weft, .power, .time, .selv, .loom, .twill, .sense, .hs, .sal, .zw, .grid, .ks,
       .links, .ses, .thermal, .ledger, .can]
  | .clockFault _ =>
      [.regs, .live, .ladder, .fabric, .weft, .power, .time, .selv, .loom, .twill, .sense, .hs, .sal, .zw, .grid, .ks,
       .links, .ses, .thermal, .ledger, .can]
  | .refclkLost => [.regs, .ladder, .weft, .power, .time]
  | .refclkReturn => [.regs, .ladder, .weft, .power]
  | .rtcCheck _ => [.regs, .ladder, .power]
  | .resetPin =>
      [.regs, .live, .ladder, .fabric, .weft, .power, .startup, .time, .selv, .loom, .twill, .sense, .hs, .sal, .zw,
       .grid, .ks, .links, .ses, .thermal, .can]
  | .resetPinRelease =>
      [.regs, .live, .mem, .ecc, .ladder, .fabric, .weft, .power, .startup, .time, .selv, .loom, .twill, .sense, .hs,
       .sal, .zw, .grid, .ks, .links, .ses, .thermal, .ledger, .brine, .can]
  | .rstCmdHub _ =>
      [.regs, .live, .mem, .ecc, .ladder, .fabric, .weft, .power, .startup, .time, .selv, .loom, .twill, .sense, .hs,
       .sal, .zw, .grid, .ks, .links, .ses, .thermal, .ledger, .brine, .can]
  | .rstCmdRegion _ _ =>
      [.regs, .live, .ladder, .fabric, .weft, .time, .selv, .loom, .twill, .sense, .hs, .sal, .zw, .grid, .links, .ses,
       .thermal, .ledger, .can]
  | .debugReset =>
      [.regs, .live, .mem, .ecc, .ladder, .fabric, .weft, .power, .startup, .time, .selv, .loom, .twill, .sense, .hs,
       .sal, .zw, .grid, .ks, .links, .ses, .thermal, .ledger, .brine, .can]
  | .vbatLow _ => [.regs, .ladder, .weft]
  | .selfTestComplete _ _ =>
      [.regs, .mem, .ecc, .ladder, .fabric, .weft, .power, .selv, .twill, .sense, .hs, .ks, .links, .thermal, .ledger,
       .out, .free]
  | .bankLoad _ => [.regs, .live, .mem, .ecc, .ladder, .weft, .startup, .selv, .ledger, .free]
  | .applicationStart => [.regs, .mem, .ladder, .weft, .startup, .selv, .sense, .hs, .ledger, .out]
  | .stRbRaise => [.regs]
  | .mgmtStatus _ => [.startup, .out, .free]
  | .mgmtReadLog _ _ _ => [.out]
  | .mgmtAuth _ _ _ => [.regs, .ladder, .startup, .out]
  | .mgmtAuthExpiry => [.regs, .startup]
  | .mgmtErase _ _ => [.regs, .mem, .ecc, .startup, .out]
  | .mgmtProgram _ _ _ _ => [.regs, .mem, .startup, .out]
  | .mgmtRestart _ =>
      [.regs, .live, .mem, .ecc, .ladder, .fabric, .weft, .power, .startup, .time, .selv, .loom, .twill, .sense, .hs,
       .sal, .zw, .grid, .ks, .links, .ses, .thermal, .ledger, .brine, .can, .out]
  | .noteWindowRecovered _ => [.regs, .ladder]
  | .ptpPdelayReqSend _ => [.regs, .ladder, .time, .out]
  | .ptpFollowUpRx _ _ => [.regs, .time, .out]
  | .canBusError _ _ _ => [.regs, .ladder, .weft, .can]
  | .plcaBeaconRx _ _ _ => [.regs, .ladder, .weft]
  | .vbatLowClear _ _ => [.regs]
  | .lhInUnstuck _ => [.regs, .sense, .hs]

end Sys2Proof.Machine
end

