-- ==== Sys2Proof/Terms.lean ====
section
/-!
DEFINITION. Terms.lean: the words in which the statements speak of a command and its next state.
-/
set_option Elab.async false
namespace Sys2Proof.Machine

/-- The command answers a next state, of which `P` holds. -/
def Answers (i : Instr) (s : State) (P : State → Prop) : Prop := ∃ t, exec i s = .next t ∧ P t

/-- The block is powered and out of reset: it acts. -/
abbrev State.acts (s : State) (b : BlockId) : Prop := s.up (blkNum b) = true

/-- No register but those of `l` changes, nor any committed value but those of `l`. -/
def RegsOnly (l : List Nat) (s t : State) : Prop := ∀ a, a ∉ l → t.rd a = s.rd a ∧ t.lv a = s.lv a

/-- Only the bytes at the addresses that `f` holds of can have changed. -/
def BytesOnly (f : Nat → Bool) (s t : State) : Prop := ∀ a, f a = false → t.bytes a 1 = s.bytes a 1

/-- Only the contexts of `l` can have changed. -/
def CtxsOnly (l : List Nat) (s t : State) : Prop := ∀ k, k ∉ l → t.ctx k = s.ctx k

/-- The command answers a next state of which `P` holds, and of the registers only those of `l` can have changed. -/
def Writes (i : Instr) (s : State) (l : List Nat) (P : State → Prop) : Prop :=
  Answers i s (fun t => P t ∧ RegsOnly l s t)

/-- Context `c` issues the instruction at its PC (R64): the PC is an aligned address of the instruction memory (R38), and the
word there passes its check (R551) and is not one that a failed start-up test left undefined (R553). -/
abbrev Runs (s : State) (c : CtxId) : Prop :=
  let pc := (s.ctx (ctxKey c)).pc.toNat
  s.issues (ctxKey c) = true ∧ pc % 4 = 0 ∧ inItcm c.eng.val pc = true ∧
    s.damage (itcmKey c.eng.val + (pc - 0x60000000)) = .none ∧ s.unknown (itcmKey c.eng.val + (pc - 0x60000000)) = false

/-- `Runs`, and the word at the PC awaits no read-back (R61): the fetch changes nothing. -/
abbrev RunsPlain (s : State) (c : CtxId) : Prop :=
  Runs s c ∧ s.ecc.rewritten.contains (wordOf (itcmKey c.eng.val + ((s.ctx (ctxKey c)).pc.toNat - 0x60000000))) = false

/-- From `x` to `y` a trap is taken (R59): its cause, its value, and the address to return to. -/
def Traps (x y : Context) (code : Nat) (value back : Word) : Prop :=
  y = { x with epc := back, tval := value, tcause := BitVec.ofNat 32 code,
               status := (x.status ||| 0x100) &&& ~~~(0x4000 : Word), pc := x.tvec, wait := none, stall := .none }

/-- From `x` to `y`, w[d] takes `v`, but for w0, which stays 0; the PC goes to the next instruction, and nothing else of the
context changes. -/
def Puts (x y : Context) (d : Nat) (v : Word) : Prop :=
  (∀ i, y.reg i = if i = d ∧ d ≠ 0 then v else x.reg i) ∧ y = { x with w := y.w, pc := x.pc + 4 }

/-- The instruction of context `c` answers a next state in which `P` holds of the context before and after, every other
context is as before, and only the contexts, and what the check of the fetched word leaves, can have changed. -/
def Turns (i : Instr) (s : State) (c : CtxId) (P : Context → Context → Prop) : Prop :=
  Answers i s (fun t => P (s.ctx (ctxKey c)) (t.ctx (ctxKey c)) ∧ (∀ k, k ≠ ctxKey c → t.ctx k = s.ctx k) ∧
    Moves [.weft, .ecc, .ladder, .regs] s t)

/-- Every word of shared SRAM passes its check, and none is undefined (R551, R553). -/
abbrev State.sramSound (s : State) : Prop := s.ecc.damage = [] ∧ s.ecc.sramUndef = false

/-- From `s` to `t` block `b` has noted a fault (R22, R23, R26): it enters the window of NOTEs, and where nothing stood in the
record it is its cause. -/
def Noted (s t : State) (b cell code : Nat) : Prop :=
  (t.blkRec b).notes = s.now :: s.recentNotes b ∧ (t.blkRec b).noteCell = cell ∧
    (s.fld (Reg.ERR_BLK_STATUS b + 4) F.ERR_CHIP_CAUSE_GRADE = 0 →
      t.rd (Reg.ERR_BLK_STATUS b + 4) = BitVec.ofNat 32 (causeWord b cell code 1))

/-- From `s` to `t` block `b` has raised CONTAIN (R22, R27): its record is open, and where it was not its timer runs from now and
its fault is this one. -/
def Contained (s t : State) (b cell code : Nat) : Prop :=
  t.flag (Reg.ERR_BLK_STATUS b) F.ERR_BLK_STATUS_OPEN = true ∧
    (s.flag (Reg.ERR_BLK_STATUS b) F.ERR_BLK_STATUS_OPEN = false →
      (t.blkRec b).code = code ∧ (t.blkRec b).cell = cell ∧ (t.blkRec b).timer = some s.now)

/-- The registers of the record of block `b` that a fault writes (R34). -/
def recordRegs (b : Nat) : List Nat :=
  [Reg.ERR_BLK_STATUS b, Reg.ERR_BLK_STATUS b + 4, Reg.ERR_BLK_STATUS b + 8, Reg.ERR_BLK_STATUS b + 12]

/-- From `s` to `t` line `l` of block `b` has fired once (R70): its copies are on their way behind those before. -/
def Fires (s t : State) (b l : Nat) : Prop := t.weft.flying = s.weft.flying ++ lineCopies s.weft.ctx b l

/-- An instruction of engine `e` issues inside the program store (R117, R118). -/
abbrev Issues (s : State) (e : Nat) : Prop := s.twIssues e = true ∧ (s.te e).pc < 512

/-- From `s` to `t` engine `e` has gone on to the next instruction in `cyc` cycles, with `f` done to it, and no other engine
has changed. -/
def GoesOn (s t : State) (e cyc : Nat) (f : Engine → Engine) : Prop :=
  t.te e = f ((s.te e).next cyc) ∧ ∀ g, g ≠ e → t.te g = s.te g

/-- From `s` to `t` a[d] of engine `e` has taken sat64(v) (R115); Q is set where that clamps, or where `q`. -/
def Accum (s t : State) (e d cyc : Nat) (v : Int) (q : Bool) : Prop :=
  GoesOn s t e cyc (fun x => x.setA d (BitVec.ofInt 64 (max (-2 ^ 63) (min (2 ^ 63 - 1) v)))) ∧
    t.rd (Reg.TW_STATUS e) =
      (if q = true ∨ v < -2 ^ 63 ∨ 2 ^ 63 - 1 < v then F.TW_STATUS_Q.put (s.rd (Reg.TW_STATUS e)) 1 else s.rd (Reg.TW_STATUS e))

end Sys2Proof.Machine
end

