-- ==== Sys2Proof/WellFormed.lean ====
section
/-!
DEFINITION. WellFormed.lean: the commands that can be: every operand's range is its type, but for three rows whose operands
hang together.
-/
namespace Sys2Proof

/-- The command can be: NOP brings the all-zero word or one that is no instruction (R117), ILLEGAL_INSTRUCTION a word that is
no instruction of its engine (R41), and the error ladder has two copies (R25). -/
def Instr.wellFormed : Instr → Bool
  | .twNop _ w => !(w ≠ 0 && Machine.twLegal w)
  | .illegalInstruction c w => !Machine.legalWord c.eng.val w
  | .ladderCopyFault bridge n => bridge || n.val < 2
  | _ => true

end Sys2Proof
end

