-- ==== Sys2Proof/Certificates/Slice0/Obligations.lean ====
section
/-!
DEFINITION. Certificates/Slice0/Obligations.lean: the statements for the provers, in the words of Terms.lean.
-/
open Sys2Proof Sys2Proof.Machine

/-- For every state whose queue holds c at the front: step answers what exec of c answers on the state with the rest of the
queue. The queue is the model's own form of what reaches the block (log entry 1). (95_what_each_step_holds.md, 00_scope.md)
-/
def Obligations.StepRunsFrontCommand : Prop :=
  ∀ (s : State) (c : Instr) (rest : List Instr), s.pending = c :: rest → step s = exec c (s.setPending rest)

/-- For every state with an empty queue: step answers a state with now one higher and the queue empty; where no sample of
grid measurement is due then (R253), and the instant is no whole multiple of the 10 µs of a cable reading (R321), every
other field is as before; the committed values, the messages sent and the state of Loom, Twill, the Saltern, Zwidy, the
Ledger and the key store are so in any case. That the idle step is a tick of 62.5 ps is the model's choice (log entry 1).
(09_time.md R230, 10_grid.md R253, 13_thermal.md R321) -/
def Obligations.EmptyQueueLetsTimePass : Prop :=
  ∀ s : State, s.pending = [] → ∃ t, step s = .next t ∧ t.now = s.now + 1 ∧ t.pending = [] ∧ t.live = s.live ∧ t.loom = s.loom ∧
    t.twill = s.twill ∧ t.sal = s.sal ∧ t.zw = s.zw ∧ t.ledger = s.ledger ∧ t.ks = s.ks ∧ s.out <+: t.out ∧
    ((s.setNow (s.now + 1)).sampleDue = false → (s.now + 1) % (10 * ticksPerUs) ≠ 0 → t = { s with now := t.now })

/-- State.reset has an empty queue, no message sent, no outstanding access, every context STOPPED with TVEC at the start of
the instruction memory, every register at the Reset value of its row, its committed value the same, and in the registers
named the Reset numbers of their tables. (01_architecture.md R34, 02_weft_isa.md R54, 03_weft_system.md R67, 09_time.md
R250, 21_supply_clocks.md R517) -/
def Obligations.ResetHoldsTheResetValues : Prop :=
  State.reset.pending = [] ∧ State.reset.out = [] ∧ State.reset.fabric = ⟨[], [], [], false, []⟩ ∧
    (∀ k, (State.reset.ctx k).run = .stopped ∧ (State.reset.ctx k).tvec = 0x60000000) ∧
    (∀ a, State.reset.rd a = regReset a ∧ State.reset.lv a = regReset a) ∧
    State.reset.fld Reg.FAB_TMO F.FAB_TMO_LIMIT = 1000 ∧
    State.reset.fld (Reg.ERR_BLK_CFG 0x23) F.ERR_BLK_CFG_BLK_TMO = 100 ∧
    State.reset.fld (Reg.ERR_REG_CFG 1) F.ERR_REG_CFG_REG_TMO = 500 ∧
    State.reset.fld Reg.ERR_CHIP_TMO F.ERR_CHIP_TMO_LIMIT = 100 ∧
    State.reset.flag Reg.ERR_LOCK F.ERR_LOCK_LOCK = false

/-- The tables of registers and committed values and the memory of State.reset are in canonical form: keys rising, no entry
equal to what an absent one reads as. (00_scope.md, 01_architecture.md R5) -/
def Obligations.ResetIsCanonical : Prop :=
  State.reset.canonical

/-- For every state in canonical form and every command in front of it: where step answers a next state, that state is in
canonical form, so that equal contents of registers and memory are equal data. (00_scope.md, 01_architecture.md R5) -/
def Obligations.StepKeepsCanonicalForm : Prop :=
  ∀ s t : State, s.canonical → step s = .next t → t.canonical

/-- For every state and every command: exec answers a next state exactly for the well-formed commands, and the fault
illFormed for the others: NOP with a word that is another instruction, ILLEGAL_INSTRUCTION with a word that is one, and a
fault in copy 2 or 3 of an error ladder that has two. No command is refused. (00_scope.md, 01_architecture.md R25,
02_weft_isa.md R41, 05_twill.md R117) -/
def Obligations.WellFormedCommandsAnswer : Prop :=
  ∀ (i : Instr) (s : State), (i.wellFormed = true → ∃ t, exec i s = .next t) ∧
    (i.wellFormed = false → exec i s = .fault .illFormed)

/-- For every command and state: where exec answers a next state, its queue and its instant are those before, the messages
sent before are still there in their order, and the counter of free values has not gone back. The queue, the clock and the
counter are the model's own (log entries 1 and 11). (00_scope.md, 95_what_each_step_holds.md) -/
def Obligations.CommandsLeaveQueueAndClock : Prop :=
  ∀ (i : Instr) (s t : State), exec i s = .next t →
    t.pending = s.pending ∧ t.now = s.now ∧ s.out <+: t.out ∧ s.free ≤ t.free

/-- For every command and state: where exec answers a next state, every part of the state that partsOf does not name for the
command (registers, committed values, memory, check bits, error ladder, fabric, contexts, supplies, start-up, each block's
own state, messages, free values) is as before. So a command of one chapter leaves the memory and the state of every block
it does not name: no Weft arithmetic touches memory, no CAN command touches the key store. (95_what_each_step_holds.md,
01_architecture.md R11) -/
def Obligations.CommandsKeepToTheirParts : Prop :=
  ∀ (i : Instr) (s t : State), exec i s = .next t → ∀ p : Part, p ∉ partsOf i → p.same s t

/-- While the fabric runs and accepts transactions: REGISTER_WRITE writes a read/write field (of ERR_CHIP_TMO, and not while
ERR_LOCK makes it read-only), writes 1, 2 or 4 aligned bytes of shared SRAM and no other byte, and a refused access is
captured with its slot in FAB_ERR_ADDR and FAB_ERR_INFO and writes no memory. Where its target serves others or does not
answer, or no credit is left, the write is outstanding, or waits, and nothing is written yet. TCM_WINDOW_ACCESS writes a
data memory through its window, reads without changing a byte, and a write to the instruction memory of a sequencer with a
context that is not STOPPED is captured and writes nothing. In the chip safe state nothing is written. Commands that
complete here (exec answers a next state with their own effect, under conditions on the state and the operands alone):
registerWrite, tcmWindowAccess. (01_architecture.md R4, 01_architecture.md R5, 01_architecture.md R21, 01_architecture.md
R33, 03_weft_system.md R77, 03_weft_system.md R75) -/
def Obligations.FabricWritesTakeEffect : Prop :=
  ∀ (s : State) (slot : Fin 19) (addr data : Word) (size : Fin 3), s.acts .fabric →
    let a := addr.toNat
    let n := sizeOf3 size
    (s.fabric.closed = false ∧ s.goesAtOnce slot.val (BitVec.ofNat 32 Reg.ERR_CHIP_TMO) 4 = true ∧ s.flag Reg.ERR_LOCK F.ERR_LOCK_LOCK = false → Writes (.registerWrite slot (BitVec.ofNat 32 Reg.ERR_CHIP_TMO) data 2) s [Reg.ERR_CHIP_TMO] (fun t => t.fld Reg.ERR_CHIP_TMO F.ERR_CHIP_TMO_LIMIT = F.ERR_CHIP_TMO_LIMIT.get data)) ∧
    (s.fabric.closed = false ∧ s.goesAtOnce slot.val (BitVec.ofNat 32 Reg.ERR_CHIP_TMO) 4 = true ∧ s.flag Reg.ERR_LOCK F.ERR_LOCK_LOCK = true → Writes (.registerWrite slot (BitVec.ofNat 32 Reg.ERR_CHIP_TMO) data 2) s [] (fun t => t = s)) ∧
    (s.fabric.closed = false ∧ s.goesAtOnce slot.val addr n = true ∧ inSram a = true ∧ a % n = 0 ∧ s.damage a = .none ∧ s.ecc.lost = [] ∧ (n < 4 → s.unknown a = false) → Writes (.registerWrite slot addr data size) s [] (fun t => t.num a n = data.toNat % 2 ^ (8 * n) ∧ BytesOnly (fun x => decide (a ≤ x ∧ x < a + n)) s t)) ∧
    (s.fabric.closed = false ∧ s.refused a n = true → Writes (.registerWrite slot addr data size) s [Reg.FAB_ERR_ADDR, Reg.FAB_ERR_INFO, Reg.ERR_BLK_STATUS 0x23, Reg.ERR_BLK_STATUS 0x23 + 4, Reg.ERR_BLK_STATUS 0x23 + 8, Reg.ERR_BLK_STATUS 0x23 + 12] (fun t => t.rd Reg.FAB_ERR_ADDR = addr ∧ (t.rd Reg.FAB_ERR_INFO).toNat = slot.val + 256 + 1024 ∧ t.mem = s.mem ∧ (t.blkRec 0x23).noteCell = slot.val)) ∧
    (s.fabric.closed = false ∧ tcmWindow 0 ≤ a ∧ a < tcmWindow 8 ∧ inTcm a = true ∧ tcmIsInstr a = false ∧ a % n = 0 ∧ s.damage a = .none ∧ s.ecc.lost = [] ∧ (n < 4 → s.unknown a = false) ∧ s.goesAtOnce slot.val addr n = true → Writes (.tcmWindowAccess slot addr data true size) s [] (fun t => t.num a n = data.toNat % 2 ^ (8 * n) ∧ BytesOnly (fun x => decide (a ≤ x ∧ x < a + n)) s t)) ∧
    (s.fabric.closed = false ∧ tcmWindow 0 ≤ a ∧ a < tcmWindow 8 ∧ inTcm a = true ∧ tcmIsInstr a = true ∧ a % n = 0 ∧ s.goesAtOnce slot.val addr n = true ∧ (∃ j : Fin 4, (s.ctx (CtxKey (tcmOwner a) j.val)).run ≠ .stopped) → Writes (.tcmWindowAccess slot addr data true size) s [Reg.FAB_ERR_ADDR, Reg.FAB_ERR_INFO] (fun t => t.rd Reg.FAB_ERR_ADDR = addr ∧ t.mem = s.mem)) ∧
    (s.unknown a = false → Answers (.tcmWindowAccess slot addr data false size) s (fun t => t.mem = s.mem ∧ CtxsOnly [] s t)) ∧
    (s.fabric.closed = false ∧ s.goesAtOnce slot.val addr n = false ∧ s.canIssue (outsideXact s.now slot.val addr data n) = true → Writes (.registerWrite slot addr data size) s [] (fun t => t = s.setFabric { s.fabric with out := s.fabric.out ++ [outsideXact s.now slot.val addr data n] })) ∧
    (s.fabric.closed = false ∧ s.goesAtOnce slot.val addr n = false ∧ s.canIssue (outsideXact s.now slot.val addr data n) = false → Writes (.registerWrite slot addr data size) s [] (fun t => t = s.setFabric { s.fabric with waiting := s.fabric.waiting ++ [outsideXact s.now slot.val addr data n] })) ∧
    (s.fabric.closed = true → Writes (.registerWrite slot addr data size) s [] (fun t => t = s) ∧ Writes (.tcmWindowAccess slot addr data true size) s [] (fun t => t = s))

/-- While the fabric runs: FABRIC_RESPONSE of a posted store to shared SRAM that holds the grant of its bank writes its word
there and no other byte; of a load it gives the word to w[d] of its context, which goes on. A response with an older one of
its slot and target before it, or without the grant, changes nothing; that of a transaction already terminated is discarded.
BUS_STORE_ERROR sets BUSPEND and the failed address of a context in a trap. TRANSACTION_TIMEOUT of a transaction past
FAB_TMO.LIMIT captures it, owes its response and opens the record of its target with CONTAIN 0xF2; before the limit it
changes nothing. ARBITRATION_PROMOTION raises a request that has waited 1,024 CK_SYS cycles to class 3, and no earlier one.
Commands that complete here (exec answers a next state with their own effect, under conditions on the state and the operands
alone): fabricResponse, busStoreError, transactionTimeout, arbitrationPromotion. (01_architecture.md R15, 01_architecture.md
R20, 01_architecture.md R21, 01_architecture.md R549, 02_weft_isa.md R46, 02_weft_isa.md R58) -/
def Obligations.FabricTransactionsEnd : Prop :=
  ∀ (s : State) (k : Fin 128) (x : Xact) (v : Word) (d size j : Nat) (sx : Bool), s.acts .fabric →
    let a := x.addr.toNat
    let g := s.fabric.out[k.val]? = some x
    (g ∧ x.kind = .store 4 v ∧ x.failed = false ∧ s.granted k.val x = true ∧ inSram a = true ∧ a % 4 = 0 ∧ s.acts .sram → Answers (.fabricResponse k) s (fun t => t.num a 4 = v.toNat ∧ BytesOnly (fun b => decide (a ≤ b ∧ b < a + 4)) s t)) ∧
    (g ∧ x.kind = .load d size sx ∧ x.failed = false ∧ s.granted k.val x = true ∧ s.unknown a = false ∧ inSram a = true ∧ (size = 1 ∨ size = 2 ∨ size = 4) ∧ a % size = 0 ∧ s.acts .sram ∧ x.ctx < 40 ∧ s.damage a = .none ∧ (s.ctx x.ctx).restarting = false ∧ (s.ctx x.ctx).busPend = false ∧ s.fabric.waiting = [] → Answers (.fabricResponse k) s (fun t => (∀ i, (t.ctx x.ctx).reg i = if i = d ∧ d ≠ 0 then extend size sx (s.num a size) else (s.ctx x.ctx).reg i) ∧ (t.ctx x.ctx).pc = (s.ctx x.ctx).pc + 4 ∧ t.mem = s.mem)) ∧
    (g ∧ (s.oldest k.val x = false ∨ s.granted k.val x = false) → Answers (.fabricResponse k) s (fun t => t = s)) ∧
    (s.fabric.out.length ≤ k.val ∧ s.fabric.owed[k.val - s.fabric.out.length]? = some x ∧ s.up (blockAt a) = true → Answers (.fabricResponse k) s (fun t => t.fabric.owed = s.fabric.owed.eraseIdx (k.val - s.fabric.out.length) ∧ t.fabric.out = s.fabric.out ∧ t.mem = s.mem)) ∧
    (g ∧ x.failed = true ∧ x.kind = .store size v ∧ x.ctx < 40 ∧ (s.ctx x.ctx).busPend = false ∧ (s.ctx x.ctx).inTrap = true ∧ s.fabric.waiting = [] → Answers (.busStoreError k) s (fun t => (t.ctx x.ctx).busPend = true ∧ (t.ctx x.ctx).busAddr = x.addr ∧ t.fabric.out = s.fabric.out.eraseIdx k.val)) ∧
    (g ∧ x.failed = false ∧ s.xactDue x ≤ s.now ∧ 40 ≤ x.ctx ∧ x.slot < 19 ∧ s.fabric.waiting = [] → Answers (.transactionTimeout k) s (fun t => t.fabric.owed = s.fabric.owed ++ [x] ∧ t.rd Reg.FAB_ERR_ADDR = x.addr ∧ F.FAB_ERR_INFO_KIND.get (t.rd Reg.FAB_ERR_INFO) = 2 ∧ t.flag (Reg.ERR_BLK_STATUS (blockAt a)) F.ERR_BLK_STATUS_OPEN = true)) ∧
    (g ∧ x.failed = false ∧ s.xactDue x ≤ s.now → Answers (.transactionTimeout k) s (fun t => t.fabric.owed = s.fabric.owed ++ [x])) ∧
    (g ∧ s.now < s.xactDue x → Answers (.transactionTimeout k) s (fun t => t = s)) ∧
    (s.fabric.waiting[j]? = some x ∧ x.since + 1024 * ticksSys ≤ s.now → Answers (.arbitrationPromotion j) s (fun t => t.fabric.waiting = s.fabric.waiting.set j { x with promoted := true } ∧ t = s.setFabric { s.fabric with waiting := t.fabric.waiting })) ∧
    (s.fabric.waiting.length ≤ j ∧ s.fabric.out[j - s.fabric.waiting.length]? = some x ∧ x.since + 1024 * ticksSys ≤ s.now → Answers (.arbitrationPromotion j) s (fun t => t = s.setFabric { s.fabric with out := s.fabric.out.set (j - s.fabric.waiting.length) { x with promoted := true } })) ∧
    (s.fabric.waiting[j]? = some x ∧ s.now < x.since + 1024 * ticksSys → Answers (.arbitrationPromotion j) s (fun t => t = s))

/-- While the ladder runs: NOTE_LIMIT_EXCEEDED opens the record of a block with more NOTEs in its window than its limit;
BLOCK_TIMER_EXPIRY resets the region of the block, and for a hub block begins the chip safe state; REGION_TIMER_EXPIRY
begins it; CHIP_TIMER_EXPIRY ends it in a hub reset; BRIDGE_HANDSHAKE_STALL resets the region beyond the bridge, unless the
chip safe state is in force or the region's window makes it CHIP; LADDER_COPY_FAULT begins the chip safe state. A fault in a
region starts its timer and its window. Commands that complete here (exec answers a next state with their own effect, under
conditions on the state and the operands alone): noteLimitExceeded, blockTimerExpiry, regionTimerExpiry, chipTimerExpiry,
bridgeHandshakeStall, ladderCopyFault. (01_architecture.md R22, 01_architecture.md R23, 01_architecture.md R25,
01_architecture.md R29, 01_architecture.md R33, 01_architecture.md R549) -/
def Obligations.FaultsEscalateThroughTheLadder : Prop :=
  ∀ (s : State) (b : BlockId) (r n : Fin 4) (bridge : Bool), s.acts .ladder →
    let k := blkNum b
    (s.noteLimit k ≠ 0 ∧ s.noteLimit k < (s.recentNotes k).length ∧ (s.blkRec k).noteOver = false → Answers (.noteLimitExceeded b) s (fun t => t.flag (Reg.ERR_BLK_STATUS k) F.ERR_BLK_STATUS_OPEN = true ∧ (t.blkRec k).noteOver = true)) ∧
    (s.reached (s.blkDue k) = true ∧ regionOf k = some r.val ∧ s.power.chipSafe = false ∧ s.inWindow r.val = false ∧ s.flag (Reg.ERR_REG_STATUS r.val) F.ERR_REG_STATUS_OPEN = false → Answers (.blockTimerExpiry b) s (fun t => (t.regRec r.val).inReset = true ∧ (t.regRec r.val).timer = some s.now ∧ (t.regRec r.val).ordered = some s.now ∧ (t.blkRec k).timer = none)) ∧
    (s.reached (s.blkDue k) = true ∧ regionOf k = none ∧ s.power.chipSafe = false → Answers (.blockTimerExpiry b) s (fun t => t.power.chipSafe = true ∧ t.fabric.closed = true ∧ t.ladder.chipTimer = some s.now)) ∧
    (s.reached (s.blkDue k) = true → Answers (.blockTimerExpiry b) s (fun t => (t.blkRec k).timer = none ∧ (t.blkRec k).spent = some (s.now / ticksSys))) ∧
    (s.reached (s.regDue r.val) = true → Answers (.regionTimerExpiry r) s (fun t => t.power.chipSafe = true ∧ (t.regRec r.val).timer = none ∧ (t.regRec r.val).spent = some (s.now / ticksSys))) ∧
    (s.reached (s.regDue r.val) = true ∧ s.power.chipSafe = false → Answers (.regionTimerExpiry r) s (fun t => t.power.chipSafe = true ∧ t.fabric.closed = true ∧ t.ladder.chipTimer = some s.now ∧ (t.regRec r.val).timer = none)) ∧
    (s.power.chipSafe = true ∧ s.reached s.chipDue = true ∧ s.power.supplyReset = false ∧ s.power.pinLow = false → Answers .chipTimerExpiry s (fun t => t.power.chipSafe = false ∧ t.power.hubReset = false)) ∧
    (s.power.chipSafe = false ∧ s.inWindow r.val = false ∧ s.flag (Reg.ERR_REG_STATUS r.val) F.ERR_REG_STATUS_OPEN = false → Answers (.bridgeHandshakeStall r) s (fun t => (t.regRec r.val).inReset = true ∧ (t.regRec r.val).timer = some s.now)) ∧
    (s.power.chipSafe = false ∧ s.inWindow r.val = true → Answers (.bridgeHandshakeStall r) s (fun t => t.power.chipSafe = true)) ∧
    (s.power.chipSafe = false ∧ (bridge = true ∨ n.val < 2) → Answers (.ladderCopyFault bridge n) s (fun t => t.power.chipSafe = true ∧ t.fabric.closed = true ∧ t.ladder.chipTimer = some s.now))

/-- While the ladder runs: ERR_ACK closes an open CONTAIN that has recovered and stops its timer; REGION_RESET_COMPLETE ends
the reset of the region; REGION_UP confirms a region out of reset and stops its timer; ERR_RECORD_CLEAR clears COUNT, GRADE,
CAUSE, TIME and CELLS of a record that is not open, and leaves an open one; NOTE_WINDOW_RECOVERED ends the excess of NOTEs;
ERR_LOCK sets LOCK and writes no other register. Commands that complete here (exec answers a next state with their own
effect, under conditions on the state and the operands alone): errAck, regionResetComplete, regionUp, errRecordClear,
noteWindowRecovered, errLock. (01_architecture.md R24, 01_architecture.md R28, 01_architecture.md R34, 01_architecture.md
R549, 01_architecture.md R23) -/
def Obligations.LadderRecordsAreCleared : Prop :=
  ∀ (s : State) (b : BlockId) (r : Fin 4), s.acts .ladder →
    let k := blkNum b
    let st := Reg.ERR_BLK_STATUS k
    (s.flag st F.ERR_BLK_STATUS_OPEN = true ∧ s.flag (Reg.ERR_BLK_CTRL k) F.ERR_BLK_CTRL_RECOVERED = true ∧ s.lateFor (s.blkDue k) (s.blkRec k).spent = false → Writes (.errAck b) s [Reg.ERR_BLK_STATUS k, Reg.ERR_BLK_CTRL k] (fun t => t.flag st F.ERR_BLK_STATUS_OPEN = false ∧ t.flag (Reg.ERR_BLK_CTRL k) F.ERR_BLK_CTRL_RECOVERED = false ∧ (t.blkRec k).timer = none)) ∧
    (s.flag st F.ERR_BLK_STATUS_OPEN = false ∨ s.flag (Reg.ERR_BLK_CTRL k) F.ERR_BLK_CTRL_RECOVERED = false → Writes (.errAck b) s [] (fun t => t = s)) ∧
    ((s.regRec r.val).inReset = true → Answers (.regionResetComplete r) s (fun t => (t.regRec r.val).inReset = false ∧ (t.regRec r.val).commanded = false ∧ (t.regRec r.val).timer = (s.regRec r.val).timer ∧ t.flag (Reg.ERR_REG_STATUS r.val) F.ERR_REG_STATUS_OPEN = s.flag (Reg.ERR_REG_STATUS r.val) F.ERR_REG_STATUS_OPEN)) ∧
    (s.flag (Reg.ERR_REG_STATUS r.val) F.ERR_REG_STATUS_OPEN = true ∧ (s.regRec r.val).inReset = false ∧ s.lateFor (s.regDue r.val) (s.regRec r.val).spent = false → Writes (.regionUp r) s [Reg.ERR_REG_STATUS r.val] (fun t => t.flag (Reg.ERR_REG_STATUS r.val) F.ERR_REG_STATUS_OPEN = false ∧ (t.regRec r.val).timer = none)) ∧
    (s.flag (Reg.ERR_REG_STATUS r.val) F.ERR_REG_STATUS_OPEN = false ∨ (s.regRec r.val).inReset = true → Writes (.regionUp r) s [] (fun t => t = s)) ∧
    (s.flag st F.ERR_BLK_STATUS_OPEN = false → Writes (.errRecordClear (.block b)) s [st, st + 4, st + 8, st + 12, st + 16, st + 20] (fun t => t.fld st F.ERR_BLK_STATUS_COUNT = 0 ∧ t.fld st F.ERR_BLK_STATUS_GRADE = 0 ∧ t.rd (st + 4) = 0 ∧ t.rd (st + 8) = 0 ∧ t.rd (st + 12) = 0 ∧ t.rd (st + 16) = 0 ∧ t.rd (st + 20) = 0)) ∧
    (s.flag (Reg.ERR_REG_STATUS r.val) F.ERR_REG_STATUS_OPEN = false → Answers (.errRecordClear (.region r)) s (fun t => t.fld (Reg.ERR_REG_STATUS r.val) F.ERR_REG_STATUS_COUNT = 0 ∧ t.rd (Reg.ERR_REG_STATUS r.val + 4) = 0)) ∧
    (s.flag Reg.ERR_CHIP_STATUS F.ERR_CHIP_STATUS_OPEN = true → Writes (.errRecordClear .chip) s [] (fun t => t = s)) ∧
    ((s.blkRec k).noteOver = true ∧ (s.noteLimit k = 0 ∨ (s.recentNotes k).length ≤ s.noteLimit k) → Answers (.noteWindowRecovered b) s (fun t => (t.blkRec k).noteOver = false)) ∧
    (Writes .errLock s [Reg.ERR_LOCK] (fun t => t.flag Reg.ERR_LOCK F.ERR_LOCK_LOCK = true))

/-- For every block and region while the ladder runs: with the block timer, or the region timer, expired in the CK_SYS cycle
of the write that would clear it, ERR_ACK, or REGION_UP, sets LATE of the record and changes nothing else, the record
staying open; and the expiry after it still takes effect: BLOCK_TIMER_EXPIRY stops the timer and raises the next grade, in
the region of the block or, for a hub block, the chip safe state, REGION_TIMER_EXPIRY the chip safe state.
(01_architecture.md R28) -/
def Obligations.LateClearIsDiscarded : Prop :=
  ∀ (s : State) (b : BlockId) (r : Fin 4), s.acts .ladder →
    let k := blkNum b
    let st := Reg.ERR_BLK_STATUS k
    let rt := Reg.ERR_REG_STATUS r.val
    (s.flag st F.ERR_BLK_STATUS_OPEN = true → s.flag (Reg.ERR_BLK_CTRL k) F.ERR_BLK_CTRL_RECOVERED = true →
      (s.reached (s.blkDue k) = true ∨ (s.blkRec k).spent = some (s.now / ticksSys)) →
      Writes (.errAck b) s [st] (fun t => t = s.setFlag st F.ERR_BLK_STATUS_LATE true ∧
        t.flag st F.ERR_BLK_STATUS_LATE = true ∧ t.flag st F.ERR_BLK_STATUS_OPEN = true ∧
        (s.reached (s.blkDue k) = true → s.power.chipSafe = false →
          (∀ q, regionOf k = some q → s.inWindow q = false → s.flag (Reg.ERR_REG_STATUS q) F.ERR_REG_STATUS_OPEN = false →
            Answers (.blockTimerExpiry b) t (fun u => (u.regRec q).inReset = true ∧ (u.blkRec k).timer = none)) ∧
          (regionOf k = none → Answers (.blockTimerExpiry b) t (fun u => u.power.chipSafe = true))))) ∧
    (s.flag rt F.ERR_REG_STATUS_OPEN = true → (s.regRec r.val).inReset = false →
      (s.reached (s.regDue r.val) = true ∨ (s.regRec r.val).spent = some (s.now / ticksSys)) →
      Writes (.regionUp r) s [rt] (fun t => t = s.setFlag rt F.ERR_REG_STATUS_LATE true ∧
        t.flag rt F.ERR_REG_STATUS_LATE = true ∧ t.flag rt F.ERR_REG_STATUS_OPEN = true ∧
        (s.reached (s.regDue r.val) = true → s.power.chipSafe = false →
          Answers (.regionTimerExpiry r) t (fun u => u.power.chipSafe = true))))

/-- For every state, context that issues and operands: ADD, SUB, AND, OR, XOR, SLL, SRL, SRA, SLT, SLTU, MIN, MAX, SLLI,
SRLI, SRAI, ADDI, ANDI, ORI, XORI, SLTI, LHI, CLZ, CTZ, POPC and REV answer a next state in which w[d] holds the result of
the instruction table, w0 stays 0, the PC is 4 higher, and nothing else of any context changes. CLZ and CTZ of 0 are 32, and
of another word the count that leaves a set bit. Commands that complete here (exec answers a next state with their own
effect, under conditions on the state and the operands alone): add, sub, and, or, xor, sll, srl, sra, slt, sltu, min, max,
slli, srli, srai, addi, andi, ori, xori, slti, lhi, clz, ctz, popc, rev. (02_weft_isa.md R42, 02_weft_isa.md R37) -/
def Obligations.WeftAluAndImmediatesWriteResult : Prop :=
  ∀ (s : State) (c : CtxId) (d a b : Fin 32) (imm : BitVec 16), Runs s c →
    let x := s.ctx (ctxKey c)
    let u := x.reg a.val
    let v := x.reg b.val
    let n := v.toNat % 32
    let sx : Word := BitVec.ofInt 32 imm.toInt
    let zx : Word := BitVec.ofNat 32 imm.toNat
    let puts := fun (i : Instr) (r : Word) => Turns i s c (fun x y => Puts x y d.val r)
    puts (.add c d a b) (u + v) ∧ puts (.sub c d a b) (u - v) ∧ puts (.and c d a b) (u &&& v) ∧
    puts (.or c d a b) (u ||| v) ∧ puts (.xor c d a b) (u ^^^ v) ∧
    puts (.sll c d a b) (BitVec.ofNat 32 (u.toNat * 2 ^ n)) ∧ puts (.srl c d a b) (BitVec.ofNat 32 (u.toNat / 2 ^ n)) ∧
    puts (.sra c d a b) (BitVec.ofInt 32 (u.toInt / 2 ^ n)) ∧
    puts (.slt c d a b) (if u.toInt < v.toInt then 1 else 0) ∧ puts (.sltu c d a b) (if u.toNat < v.toNat then 1 else 0) ∧
    puts (.min c d a b) (if u.toInt < v.toInt then u else v) ∧ puts (.max c d a b) (if u.toInt < v.toInt then v else u) ∧
    puts (.slli c d a b) (BitVec.ofNat 32 (u.toNat * 2 ^ b.val)) ∧
    puts (.srli c d a b) (BitVec.ofNat 32 (u.toNat / 2 ^ b.val)) ∧
    puts (.srai c d a b) (BitVec.ofInt 32 (u.toInt / 2 ^ b.val)) ∧
    puts (.addi c d a imm) (u + sx) ∧ puts (.andi c d a imm) (u &&& zx) ∧ puts (.ori c d a imm) (u ||| zx) ∧
    puts (.xori c d a imm) (u ^^^ zx) ∧ puts (.slti c d a imm) (if u.toInt < imm.toInt then 1 else 0) ∧
    puts (.lhi c d imm) (BitVec.ofNat 32 (imm.toNat * 2 ^ 16)) ∧
    (u = 0 → puts (.clz c d a) 32 ∧ puts (.ctz c d a) 32) ∧
    (∀ n, n < 32 → u.toNat / 2 ^ (31 - n) = 1 → puts (.clz c d a) (BitVec.ofNat 32 n)) ∧
    (∀ n, n < 32 → u.toNat % 2 ^ (n + 1) = 2 ^ n → puts (.ctz c d a) (BitVec.ofNat 32 n)) ∧
    puts (.popc c d a) (BitVec.ofNat 32 ((List.range 32).filter (fun i => u.toNat / 2 ^ i % 2 = 1)).length) ∧
    puts (.rev c d a) (u.extractLsb' 0 8 ++ u.extractLsb' 8 8 ++ u.extractLsb' 16 8 ++ u.extractLsb' 24 8)

/-- For every state, context that issues and operands with p + n at most 31: bit i of the result of BFX is bit p + i of w[a]
for i up to n and bit p + n above; of BFXU 0 above; BFI puts bits [n:0] of w[a] at bits [p+n:p] of w[d]; BFC clears those
bits of w[a]. With p + n above 31, outside a trap and with TVEC in the instruction memory, each takes the trap ILLEGAL: PC
is TVEC, EPC the instruction, TCAUSE 0x01. Commands that complete here (exec answers a next state with their own effect,
under conditions on the state and the operands alone): bfx, bfxu, bfi, bfc. (02_weft_isa.md R42, 02_weft_isa.md R37,
02_weft_isa.md R56) -/
def Obligations.WeftBitFieldsWriteResult : Prop :=
  ∀ (s : State) (c : CtxId) (d a p n : Fin 32), Runs s c →
    let x := s.ctx (ctxKey c)
    let u := x.reg a.val
    let w := x.reg d.val
    let field := fun (f : Nat → Bool) (i : Instr) => Turns i s c (fun x y =>
      ∃ r : Word, Puts x y d.val r ∧ ∀ i, i < 32 → r.getLsbD i = f i)
    let traps := fun (i : Instr) => Turns i s c (fun x y =>
      y.pc = x.tvec ∧ y.epc = x.pc ∧ y.tcause = 1 ∧ y.status.getLsbD 8 = true ∧ y.w = x.w ∧ y.acc = x.acc)
    (p.val + n.val ≤ 31 →
      field (fun i => if i ≤ n.val then u.getLsbD (p.val + i) else u.getLsbD (p.val + n.val)) (.bfx c d a p n) ∧
      field (fun i => decide (i ≤ n.val) && u.getLsbD (p.val + i)) (.bfxu c d a p n) ∧
      field (fun i => if p.val ≤ i ∧ i ≤ p.val + n.val then u.getLsbD (i - p.val) else w.getLsbD i) (.bfi c d a p n) ∧
      field (fun i => if p.val ≤ i ∧ i ≤ p.val + n.val then false else u.getLsbD i) (.bfc c d a p n)) ∧
    (31 < p.val + n.val → x.inTrap = false → inItcm c.eng.val x.tvec.toNat = true →
      traps (.bfx c d a p n) ∧ traps (.bfxu c d a p n) ∧ traps (.bfi c d a p n) ∧ traps (.bfc c d a p n))

/-- For every state, context that issues and operands: ADDS, SUBS, ADDUS, NEGS, ABSS, SATS, SATU and SHLS write the exact
result clamped to their range and set Q where it was clamped, and only then; DIV rounds toward zero, clamps, and by 0 gives
the greatest or least word and sets DZ; DIVU by 0 gives 0xFFFF_FFFF and sets DZ. w0 stays 0, the PC is 4 higher, and nothing
else of any context changes. Commands that complete here (exec answers a next state with their own effect, under conditions
on the state and the operands alone): adds, subs, addus, negs, abss, sats, satu, shls, div, divu. (02_weft_isa.md R42,
02_weft_isa.md R49, 02_weft_isa.md R50) -/
def Obligations.WeftSaturationsClampAndSetQ : Prop :=
  ∀ (s : State) (c : CtxId) (d a b : Fin 32), Runs s c →
    let x := s.ctx (ctxKey c)
    let u := (x.reg a.val).toInt
    let v := (x.reg b.val).toInt
    let un := (x.reg a.val).toNat
    let vn := (x.reg b.val).toNat
    let lands := fun (i : Instr) (r : Word) (st : Word) => Turns i s c (fun x y =>
      (∀ i, y.reg i = if i = d.val ∧ d.val ≠ 0 then r else x.reg i) ∧ y.status = x.status ||| st ∧
        y = { x with w := y.w, pc := x.pc + 4, status := y.status })
    let clamps := fun (i : Instr) (lo hi z : Int) =>
      lands i (BitVec.ofInt 32 (max lo (min hi z))) (if z < lo ∨ hi < z then 1 else 0)
    clamps (.adds c d a b) (-2 ^ 31) (2 ^ 31 - 1) (u + v) ∧ clamps (.subs c d a b) (-2 ^ 31) (2 ^ 31 - 1) (u - v) ∧
    clamps (.addus c d a b) 0 (2 ^ 32 - 1) (un + vn) ∧ clamps (.negs c d a) (-2 ^ 31) (2 ^ 31 - 1) (-u) ∧
    clamps (.abss c d a) (-2 ^ 31) (2 ^ 31 - 1) (if u < 0 then -u else u) ∧
    clamps (.sats c d a b) (-2 ^ b.val) (2 ^ b.val - 1) u ∧ clamps (.satu c d a b) 0 (2 ^ (b.val + 1) - 1) u ∧
    clamps (.shls c d a b) (-2 ^ 31) (2 ^ 31 - 1) (u * 2 ^ (vn % 32)) ∧
    (v ≠ 0 → clamps (.div c d a b) (-2 ^ 31) (2 ^ 31 - 1) (Int.tdiv u v)) ∧
    (v = 0 → lands (.div c d a b) (if u < 0 then 0x80000000 else 0x7FFFFFFF) 2) ∧
    (vn ≠ 0 → lands (.divu c d a b) (BitVec.ofNat 32 (un / vn)) 0) ∧
    (vn = 0 → lands (.divu c d a b) 0xFFFFFFFF 2)

/-- For every state, context that issues and operands: MUL and MULH write the low and the high word of the exact signed
product; FMUL and RDACC write the scaled product and the scaled accumulator clamped to 32 bits and set Q where clamped; MAC
and MSU add and subtract the scaled product to ACC clamped to 64 bits and set Q where clamped; MACZ loads ACC; MTACC, MFACCH
and MFACCL move ACC. The scaling divides by 2^s, toward zero with RN = 0, to nearest with ties away from zero with RN = 1.
Nothing else of any context changes but the PC, 4 higher. Commands that complete here (exec answers a next state with their
own effect, under conditions on the state and the operands alone): mul, mulh, fmul, rdacc, mac, msu, macz, mtacc, mfacch,
mfaccl. (02_weft_isa.md R42, 02_weft_isa.md R49, 02_weft_isa.md R50) -/
def Obligations.WeftMultipliesAndAccumulates : Prop :=
  ∀ (s : State) (c : CtxId) (d a b sh : Fin 32) (rn : Bool), Runs s c →
    let x := s.ctx (ctxKey c)
    let p := (x.reg a.val).toInt * (x.reg b.val).toInt
    let sc := fun (z : Int) =>
      if rn then (if sh.val = 0 then z else if 0 ≤ z then (z + 2 ^ (sh.val - 1)) / 2 ^ sh.val else -((-z + 2 ^ (sh.val - 1)) / 2 ^ sh.val))
      else Int.tdiv z (2 ^ sh.val)
    let lands := fun (i : Instr) (r : Word) (st : Word) => Turns i s c (fun x y =>
      (∀ i, y.reg i = if i = d.val ∧ d.val ≠ 0 then r else x.reg i) ∧ y.status = x.status ||| st ∧
        y = { x with w := y.w, pc := x.pc + 4, status := y.status })
    let clamps := fun (i : Instr) (z : Int) =>
      lands i (BitVec.ofInt 32 (max (-2 ^ 31) (min (2 ^ 31 - 1) z))) (if z < -2 ^ 31 ∨ 2 ^ 31 - 1 < z then 1 else 0)
    let acc := fun (i : Instr) (z : BitVec 64) (st : Word) => Turns i s c (fun x y =>
      y = { x with acc := z, status := x.status ||| st, pc := x.pc + 4 })
    let sums := fun (i : Instr) (z : Int) =>
      acc i (BitVec.ofInt 64 (max (-2 ^ 63) (min (2 ^ 63 - 1) z))) (if z < -2 ^ 63 ∨ 2 ^ 63 - 1 < z then 1 else 0)
    lands (.mul c d a b) (BitVec.ofInt 32 p) 0 ∧ lands (.mulh c d a b) (BitVec.ofInt 32 (p / 2 ^ 32)) 0 ∧
    clamps (.fmul c d a b sh rn) (sc p) ∧ clamps (.rdacc c d sh rn) (sc x.acc.toInt) ∧
    sums (.mac c a b sh rn) (x.acc.toInt + sc p) ∧ sums (.msu c a b sh rn) (x.acc.toInt - sc p) ∧
    acc (.macz c a b sh rn) (BitVec.ofInt 64 (sc p)) 0 ∧ acc (.mtacc c a b) (x.reg a.val ++ x.reg b.val) 0 ∧
    lands (.mfacch c d) (BitVec.ofNat 32 (x.acc.toNat / 2 ^ 32)) 0 ∧ lands (.mfaccl c d) (BitVec.ofNat 32 x.acc.toNat) 0

/-- For every state, context that issues and operands: BEQ, BNE, BLT, BGE, BLTU and BGEU set the PC to PC + 4 × sext(off)
where their condition holds, else to PC + 4, and change nothing else; J sets it likewise; JAL and JALR also write the
address of the next instruction to w[d], but for w0, and JALR goes to w[a] + sext(imm), w[a] read before the link is
written. Commands that complete here (exec answers a next state with their own effect, under conditions on the state and the
operands alone): beq, bne, blt, bge, bltu, bgeu, j, jal, jalr. (02_weft_isa.md R42, 02_weft_isa.md R38, 02_weft_isa.md R37)
-/
def Obligations.WeftBranchesAndJumpsSetPc : Prop :=
  ∀ (s : State) (c : CtxId) (d a b : Fin 32) (off : BitVec 16), Runs s c →
    let x := s.ctx (ctxKey c)
    let u := x.reg a.val
    let v := x.reg b.val
    let tgt := BitVec.ofInt 32 (x.pc.toNat + 4 * off.toInt)
    let goes := fun (i : Instr) (p : Prop) => Turns i s c (fun x y =>
      (p → y = { x with pc := tgt }) ∧ (¬ p → y = { x with pc := x.pc + 4 }))
    let links := fun (i : Instr) (r : Word) => Turns i s c (fun x y =>
      (∀ i, y.reg i = if i = d.val ∧ d.val ≠ 0 then x.pc + 4 else x.reg i) ∧ y = { x with w := y.w, pc := r })
    goes (.beq c a b off) (u = v) ∧ goes (.bne c a b off) (u ≠ v) ∧ goes (.blt c a b off) (u.toInt < v.toInt) ∧
    goes (.bge c a b off) (v.toInt ≤ u.toInt) ∧ goes (.bltu c a b off) (u.toNat < v.toNat) ∧
    goes (.bgeu c a b off) (v.toNat ≤ u.toNat) ∧ goes (.j c off) True ∧ links (.jal c d off) tgt ∧
    links (.jalr c d a off) (BitVec.ofInt 32 (u.toNat + off.toInt))

/-- For a context that issues, at ea = w[a] + sext(imm) in the data memory of its engine, aligned, the word undamaged: LW,
LH, LHU, LB and LBU write the bytes there, little-endian, sign- or zero-extended, to w[d]; SW, SH and SB write the low bytes
of w[d] there, change no other byte of any memory and no other context, and the PC goes on (the pair not in its first 0x200
bytes). A misaligned address traps MISALIGN and a store to the instruction memory traps ACCESS, with TVAL the address and
EPC the instruction; a trap writes no memory. Commands that complete here (exec answers a next state with their own effect,
under conditions on the state and the operands alone): lw, lh, lhu, lb, lbu, sw, sh, sb. (02_weft_isa.md R42, 02_weft_isa.md
R46, 02_weft_isa.md R48, 02_weft_isa.md R38, 02_weft_isa.md R56, 02_weft_isa.md R37, 03_weft_system.md R77) -/
def Obligations.WeftLoadsAndStoresItsOwnMemory : Prop :=
  ∀ (s : State) (c : CtxId) (d a : Fin 32) (imm : BitVec 16), Runs s c →
    let k := ctxKey c
    let x := s.ctx k
    let ea := x.reg a.val + imm.signExtend 32
    let off := ea.toNat - 0x60100000
    let key := dtcmKey c.eng.val + off
    let sees := inDtcm c.eng.val ea.toNat
    (sees = true ∧ ea.toNat % 4 = 0 ∧ s.damage key = .none ∧ s.unknown key = false → Turns (.lw c d a imm) s c (fun x y => Puts x y d.val (BitVec.ofNat 32 (s.num key 4)))) ∧
    (sees = true ∧ ea.toNat % 2 = 0 ∧ s.damage key = .none ∧ s.unknown key = false → Turns (.lh c d a imm) s c (fun x y => Puts x y d.val ((BitVec.ofNat 16 (s.num key 2)).signExtend 32))) ∧
    (sees = true ∧ ea.toNat % 2 = 0 ∧ s.damage key = .none ∧ s.unknown key = false → Turns (.lhu c d a imm) s c (fun x y => Puts x y d.val (BitVec.ofNat 32 (s.num key 2)))) ∧
    (sees = true ∧ ea.toNat % 1 = 0 ∧ s.damage key = .none ∧ s.unknown key = false → Turns (.lb c d a imm) s c (fun x y => Puts x y d.val ((BitVec.ofNat 8 (s.num key 1)).signExtend 32))) ∧
    (sees = true ∧ ea.toNat % 1 = 0 ∧ s.damage key = .none ∧ s.unknown key = false → Turns (.lbu c d a imm) s c (fun x y => Puts x y d.val (BitVec.ofNat 32 (s.num key 1)))) ∧
    (sees = true ∧ ea.toNat % 4 = 0 ∧ s.damage key = .none ∧ s.ecc.lost = [] ∧ (c.eng.val = 9 → 0x200 ≤ off) → Answers (.sw c d a imm) s (fun t => t.num key 4 = (x.reg d.val).toNat % 2 ^ 32 ∧ BytesOnly (fun b => decide (key ≤ b ∧ b < key + 4)) s t ∧ t.ctx k = { x with pc := x.pc + 4 } ∧ CtxsOnly [k] s t)) ∧
    (sees = true ∧ ea.toNat % 2 = 0 ∧ s.damage key = .none ∧ s.unknown key = false ∧ s.ecc.lost = [] ∧ (c.eng.val = 9 → 0x200 ≤ off) → Answers (.sh c d a imm) s (fun t => t.num key 2 = (x.reg d.val).toNat % 2 ^ 16 ∧ BytesOnly (fun b => decide (key ≤ b ∧ b < key + 2)) s t ∧ t.ctx k = { x with pc := x.pc + 4 } ∧ CtxsOnly [k] s t)) ∧
    (sees = true ∧ ea.toNat % 1 = 0 ∧ s.damage key = .none ∧ s.unknown key = false ∧ s.ecc.lost = [] ∧ (c.eng.val = 9 → 0x200 ≤ off) → Answers (.sb c d a imm) s (fun t => t.num key 1 = (x.reg d.val).toNat % 2 ^ 8 ∧ BytesOnly (fun b => decide (key ≤ b ∧ b < key + 1)) s t ∧ t.ctx k = { x with pc := x.pc + 4 } ∧ CtxsOnly [k] s t)) ∧
    (ea.toNat % 4 ≠ 0 ∧ x.inTrap = false ∧ inItcm c.eng.val x.tvec.toNat = true → Turns (.lw c d a imm) s c (fun x y => Traps x y 3 ea x.pc) ∧ Turns (.sw c d a imm) s c (fun x y => Traps x y 3 ea x.pc)) ∧
    (ea.toNat % 2 ≠ 0 ∧ x.inTrap = false ∧ inItcm c.eng.val x.tvec.toNat = true → Turns (.lh c d a imm) s c (fun x y => Traps x y 3 ea x.pc) ∧ Turns (.lhu c d a imm) s c (fun x y => Traps x y 3 ea x.pc) ∧ Turns (.sh c d a imm) s c (fun x y => Traps x y 3 ea x.pc)) ∧
    (ea.toNat % 4 = 0 ∧ inItcm c.eng.val ea.toNat = true ∧ x.inTrap = false ∧ inItcm c.eng.val x.tvec.toNat = true → Turns (.sw c d a imm) s c (fun x y => Traps x y 4 ea x.pc) ∧ Turns (.sh c d a imm) s c (fun x y => Traps x y 4 ea x.pc) ∧ Turns (.sb c d a imm) s c (fun x y => Traps x y 4 ea x.pc))

/-- For a context that issues, at an aligned address that its engine reaches over the fabric, credits and limits leaving
room: LW, LH, LHU, LB, LBU, AADD and ACAS put one transaction with their operands at the end of the outstanding ones and
stall the context until the response; SW, SH and SB post one and go on. Nothing is written yet, and no other context
changes. Without room a store waits, which is no error. An atomic that is misaligned traps MISALIGN, one outside shared SRAM
ACCESS, one of Weft-S ILLEGAL. Commands that complete here (exec answers a next state with their own effect, under
conditions on the state and the operands alone): lw, lh, lhu, lb, lbu, sw, sh, sb, aadd, acas. (02_weft_isa.md R42,
02_weft_isa.md R46, 02_weft_isa.md R47, 01_architecture.md R13, 01_architecture.md R18, 02_weft_isa.md R56) -/
def Obligations.WeftAccessesTheFabric : Prop :=
  ∀ (s : State) (c : CtxId) (d a b : Fin 32) (imm : BitVec 16), Runs s c →
    let k := ctxKey c
    let x := s.ctx k
    let ea := x.reg a.val + imm.signExtend 32
    let far := placeOf c.eng.val ea.toNat = .fabric
    let req := fun (a : Word) (q : XKind) => ({ slot := c.eng.val, ctx := k, addr := a, kind := q, since := s.now, promoted := false, failed := false } : Xact)
    (far ∧ ea.toNat % 4 = 0 ∧ s.canIssue (req ea (.load d.val 4 false)) = true → Answers (.lw c d a imm) s (fun t => t.fabric.out = s.fabric.out ++ [req ea (.load d.val 4 false)] ∧ t.ctx k = { x with stall := .fabric } ∧ CtxsOnly [k] s t ∧ t.mem = s.mem)) ∧
    (far ∧ ea.toNat % 2 = 0 ∧ s.canIssue (req ea (.load d.val 2 true)) = true → Answers (.lh c d a imm) s (fun t => t.fabric.out = s.fabric.out ++ [req ea (.load d.val 2 true)] ∧ t.ctx k = { x with stall := .fabric } ∧ CtxsOnly [k] s t ∧ t.mem = s.mem)) ∧
    (far ∧ ea.toNat % 2 = 0 ∧ s.canIssue (req ea (.load d.val 2 false)) = true → Answers (.lhu c d a imm) s (fun t => t.fabric.out = s.fabric.out ++ [req ea (.load d.val 2 false)] ∧ t.ctx k = { x with stall := .fabric } ∧ CtxsOnly [k] s t ∧ t.mem = s.mem)) ∧
    (far ∧ ea.toNat % 1 = 0 ∧ s.canIssue (req ea (.load d.val 1 true)) = true → Answers (.lb c d a imm) s (fun t => t.fabric.out = s.fabric.out ++ [req ea (.load d.val 1 true)] ∧ t.ctx k = { x with stall := .fabric } ∧ CtxsOnly [k] s t ∧ t.mem = s.mem)) ∧
    (far ∧ ea.toNat % 1 = 0 ∧ s.canIssue (req ea (.load d.val 1 false)) = true → Answers (.lbu c d a imm) s (fun t => t.fabric.out = s.fabric.out ++ [req ea (.load d.val 1 false)] ∧ t.ctx k = { x with stall := .fabric } ∧ CtxsOnly [k] s t ∧ t.mem = s.mem)) ∧
    (far ∧ ea.toNat % 4 = 0 ∧ s.canIssue (req ea (.store 4 (x.reg d.val))) = true ∧ x.restarting = false ∧ x.busPend = false → Answers (.sw c d a imm) s (fun t => t.fabric.out = s.fabric.out ++ [req ea (.store 4 (x.reg d.val))] ∧ t.ctx k = { x with pc := x.pc + 4 } ∧ CtxsOnly [k] s t ∧ t.mem = s.mem)) ∧
    (far ∧ ea.toNat % 2 = 0 ∧ s.canIssue (req ea (.store 2 (x.reg d.val))) = true ∧ x.restarting = false ∧ x.busPend = false → Answers (.sh c d a imm) s (fun t => t.fabric.out = s.fabric.out ++ [req ea (.store 2 (x.reg d.val))] ∧ t.ctx k = { x with pc := x.pc + 4 } ∧ CtxsOnly [k] s t ∧ t.mem = s.mem)) ∧
    (far ∧ ea.toNat % 1 = 0 ∧ s.canIssue (req ea (.store 1 (x.reg d.val))) = true ∧ x.restarting = false ∧ x.busPend = false → Answers (.sb c d a imm) s (fun t => t.fabric.out = s.fabric.out ++ [req ea (.store 1 (x.reg d.val))] ∧ t.ctx k = { x with pc := x.pc + 4 } ∧ CtxsOnly [k] s t ∧ t.mem = s.mem)) ∧
    (c.eng.val ≠ 9 ∧ (x.reg a.val).toNat % 4 = 0 ∧ inSram (x.reg a.val).toNat = true ∧ s.canIssue (req (x.reg a.val) (.aadd d.val (x.reg b.val))) = true → Answers (.aadd c d a b) s (fun t => t.fabric.out = s.fabric.out ++ [req (x.reg a.val) (.aadd d.val (x.reg b.val))] ∧ t.ctx k = { x with stall := .fabric } ∧ CtxsOnly [k] s t ∧ t.mem = s.mem)) ∧
    (c.eng.val ≠ 9 ∧ (x.reg a.val).toNat % 4 = 0 ∧ inSram (x.reg a.val).toNat = true ∧ s.canIssue (req (x.reg a.val) (.acas d.val (x.reg d.val) (x.reg b.val))) = true → Answers (.acas c d a b) s (fun t => t.fabric.out = s.fabric.out ++ [req (x.reg a.val) (.acas d.val (x.reg d.val) (x.reg b.val))] ∧ t.ctx k = { x with stall := .fabric } ∧ CtxsOnly [k] s t ∧ t.mem = s.mem)) ∧
    (far ∧ ea.toNat % 4 = 0 ∧ s.canIssue (req ea (.store 4 (x.reg d.val))) = false → Answers (.sw c d a imm) s (fun t => t.fabric.waiting = s.fabric.waiting ++ [req ea (.store 4 (x.reg d.val))] ∧ t.fabric.out = s.fabric.out ∧ (t.ctx k).stall = .fabric ∧ (t.ctx k).pc = x.pc ∧ t.mem = s.mem)) ∧
    (c.eng.val ≠ 9 ∧ (x.reg a.val).toNat % 4 ≠ 0 ∧ x.inTrap = false ∧ inItcm c.eng.val x.tvec.toNat = true → Turns (.aadd c d a b) s c (fun x y => Traps x y 3 (x.reg a.val) x.pc) ∧ Turns (.acas c d a b) s c (fun x y => Traps x y 3 (x.reg a.val) x.pc)) ∧
    (c.eng.val ≠ 9 ∧ (x.reg a.val).toNat % 4 = 0 ∧ inSram (x.reg a.val).toNat = false ∧ x.inTrap = false ∧ inItcm c.eng.val x.tvec.toNat = true → Turns (.aadd c d a b) s c (fun x y => Traps x y 4 (x.reg a.val) x.pc) ∧ Turns (.acas c d a b) s c (fun x y => Traps x y 4 (x.reg a.val) x.pc)) ∧
    (c.eng.val = 9 ∧ x.inTrap = false ∧ inItcm c.eng.val x.tvec.toNat = true → Turns (.aadd c d a b) s c (fun x y => y.tcause = 1 ∧ y.epc = x.pc ∧ y.pc = x.tvec) ∧ Turns (.acas c d a b) s c (fun x y => y.tcause = 1 ∧ y.epc = x.pc ∧ y.pc = x.tvec))

/-- For a context: WAIT with an event of the mask pending writes the lowest such number to w[d], takes the event from
EVT_PEND and goes on; one that has come again in the same cycle stays pending and that occurrence is not lost; else the
context waits, for w[b] cycles, 2 where w[b] is 0, for ever where it is 0xFFFF_FFFF. At the limit WAIT_TIMEOUT writes
0xFFFF_FFFF to w[d] and goes on. TCMP arms the compare at {w[a], w[b]} of the cycle counter, or of a base with the upper
seconds of the base, or disarms it. TIMER_COMPARE_MATCH spends a compare whose time is reached and makes TIMER pending, or
lost in EVT_OVF. TRD of part 0 gives the nanoseconds and latches the other parts, which TRD of those parts gives.
EVENT_PENDING makes the copy on its way pending, or lost where it already is. Commands that complete here (exec answers a
next state with their own effect, under conditions on the state and the operands alone): wait, waitTimeout, tcmp,
timerCompareMatch, trd, eventPending. (02_weft_isa.md R42, 02_weft_isa.md R51, 02_weft_isa.md R52, 02_weft_isa.md R53,
03_weft_system.md R69, 03_weft_system.md R70) -/
def Obligations.WeftWaitsForEventsAndTime : Prop :=
  ∀ (s : State) (c : CtxId) (d a b : Fin 32) (n : Fin 32) (tb : Fin 8) (part : Fin 4) (ws : WaitState) (again : Bool), 
    let k := ctxKey c
    let x := s.ctx k
    (RunsPlain s c ∧ lowestIn (s.evtPending k) (x.reg a.val).toNat = some n.val ∧ (∀ e ∈ x.evtMeet, e.2.1 ≠ s.cycles c.eng.val) → Turns (.wait c d a b) s c (fun x y => (∀ i, y.reg i = if i = d.val ∧ d.val ≠ 0 then BitVec.ofNat 32 n.val else x.reg i) ∧ y.pc = x.pc + 4 ∧ y.wait = none ∧ y.evtPend.getLsbD n.val = false ∧ (∀ j : Fin 32, j ≠ n → y.evtPend.getLsbD j.val = x.evtPend.getLsbD j.val))) ∧
    (RunsPlain s c ∧ lowestIn (s.evtPending k) (x.reg a.val).toNat = some n.val ∧ x.evtMeet.find? (fun e => decide (e.1 = n.val) && decide (e.2.1 = s.cycles c.eng.val)) = some (n.val, s.cycles c.eng.val, again) → Turns (.wait c d a b) s c (fun x y => (∀ i, y.reg i = if i = d.val ∧ d.val ≠ 0 then BitVec.ofNat 32 n.val else x.reg i) ∧ y.pc = x.pc + 4 ∧ y.evtPend = x.evtPend ∧ y.evtOvf.getLsbD n.val = again)) ∧
    (RunsPlain s c ∧ lowestIn (s.evtPending k) (x.reg a.val).toNat = none → Turns (.wait c d a b) s c (fun x y => y = { x with wait := some ⟨x.reg a.val, d.val, if x.reg b.val = 0xFFFFFFFF then none else some (s.now + (if x.reg b.val = 0 then 2 else (x.reg b.val).toNat) * engTicks c.eng.val)⟩ })) ∧
    (x.wait = some ws ∧ x.run = .running ∧ s.limitOver c.eng.val ws.due = true ∧ s.up (engBlock c.eng.val) = true ∧ lowestIn (s.evtPending k) ws.mask.toNat = none ∧ x.busPend = false → Answers (.waitTimeout c) s (fun t => (∀ i, (t.ctx k).reg i = if i = ws.dest ∧ ws.dest ≠ 0 then 0xFFFFFFFF else x.reg i) ∧ (t.ctx k).pc = x.pc + 4 ∧ (t.ctx k).wait = none ∧ CtxsOnly [k] s t ∧ t.mem = s.mem)) ∧
    (RunsPlain s c ∧ tb.val = 4 → Turns (.tcmp c false tb a b) s c (fun x y => y = { x with cmp := some ⟨4, (x.reg a.val).toNat * 2 ^ 32 + (x.reg b.val).toNat⟩, pc := x.pc + 4 })) ∧
    (RunsPlain s c ∧ tb.val < 4 ∧ c.eng.val ≠ 9 → Turns (.tcmp c false tb a b) s c (fun x y => y = { x with cmp := some ⟨tb.val, s.tbSec tb.val / 2 ^ 32 * 2 ^ 64 + (x.reg a.val).toNat * 2 ^ 32 + (x.reg b.val).toNat⟩, pc := x.pc + 4 })) ∧
    (RunsPlain s c → Turns (.tcmp c true 0 0 0) s c (fun x y => y = { x with cmp := none, pc := x.pc + 4 })) ∧
    (x.cmp.isSome = true ∧ (∀ q, x.cmp = some q → q.at_ ≤ s.cmpNow c.eng.val q.tb) ∧ s.up (engBlock c.eng.val) = true ∧ x.wait = none → Answers (.timerCompareMatch c) s (fun t => (t.ctx k).cmp = none ∧ (t.ctx k).w = x.w ∧ (t.ctx k).pc = x.pc ∧ (if x.evtPend.getLsbD 0 then (t.ctx k).evtOvf = x.evtOvf ||| 1 ∧ (t.ctx k).evtPend = x.evtPend else (t.ctx k).evtPend = x.evtPend ||| 1 ∧ (t.ctx k).evtOvf = x.evtOvf))) ∧
    (RunsPlain s c ∧ (tb.val = 4 ∨ tb.val < 4 ∧ c.eng.val ≠ 9) → Turns (.trd c d tb 0) s c (fun x y => (∀ i, y.reg i = if i = d.val ∧ d.val ≠ 0 then BitVec.ofNat 32 (s.timePart c.eng.val tb.val 0) else x.reg i) ∧ y.pc = x.pc + 4 ∧ (∀ p : Fin 4, p ≠ 0 → Tab.get (fun _ => 0) y.latch (4 * tb.val + p.val) = BitVec.ofNat 32 (s.timePart c.eng.val tb.val p.val)))) ∧
    (RunsPlain s c ∧ part.val ≠ 0 ∧ (tb.val = 4 ∨ tb.val < 4 ∧ c.eng.val ≠ 9) → Turns (.trd c d tb part) s c (fun x y => Puts x y d.val (Tab.get (fun _ => 0) x.latch (4 * tb.val + part.val)))) ∧
    (s.weft.flying.contains (k, n.val) = true ∧ s.up (engBlock c.eng.val) = true ∧ x.wait = none → Answers (.eventPending c n) s (fun t => t.weft.flying = s.weft.flying.erase (k, n.val) ∧ (if x.evtPend.getLsbD n.val then (t.ctx k).evtOvf.getLsbD n.val = true ∧ (t.ctx k).evtPend = x.evtPend else (t.ctx k).evtPend.getLsbD n.val = true ∧ (t.ctx k).evtOvf = x.evtOvf)))

/-- For a general mailbox and a context of WS[0..7] that issues: MSEND to an enabled mailbox with fewer than eight words
puts w[a] last on its way and gives 0; to a full one it sets FULL_SEEN and gives 1, but that a word which a sender of a
higher slot has sent in the same CK_SYS cycle makes way for it, and that sender receives 1. MRECV by the owner takes the
oldest word to w[d] and gives 1, and 0 from an empty one. MAILBOX_DELIVERY puts the oldest word on its way behind those in
the mailbox. MAILBOX_CONFIG with EN empties the mailbox, its words on their way among them. Commands that complete here
(exec answers a next state with their own effect, under conditions on the state and the operands alone): msend, mrecv,
mailboxDelivery, mailboxConfig. (02_weft_isa.md R42, 02_weft_isa.md R43, 03_weft_system.md R72, 03_weft_system.md R73,
03_weft_system.md R74) -/
def Obligations.WeftMailboxesHoldWordsInOrder : Prop :=
  ∀ (s : State) (c : CtxId) (d a e : Fin 32) (mb : Fin 256) (m : Fin 64) (data w : Word) (rest : List Word) (q : Sent), 
    let k := ctxKey c
    let x := s.ctx k
    (RunsPlain s c ∧ c.eng.val < 8 ∧ mb.val < 64 ∧ s.flag (Reg.MBX_CFG mb.val) F.MBX_CFG_EN = true ∧ s.mboxCount mb.val < 8 → Answers (.msend c d a mb) s (fun t => t.weft.mbxFly = s.weft.mbxFly ++ [⟨mb.val, x.reg a.val, k, d.val, s.now / ticksSys⟩] ∧ Puts x (t.ctx k) d.val 0 ∧ CtxsOnly [k] s t ∧ t.mem = s.mem)) ∧
    (RunsPlain s c ∧ c.eng.val < 8 ∧ mb.val < 64 ∧ s.flag (Reg.MBX_CFG mb.val) F.MBX_CFG_EN = true ∧ 8 ≤ s.mboxCount mb.val ∧ s.displaced k mb.val = none → Writes (.msend c d a mb) s [Reg.MBX_CFG mb.val] (fun t => t.flag (Reg.MBX_CFG mb.val) F.MBX_CFG_FULL_SEEN = true ∧ t.weft.mbxFly = s.weft.mbxFly ∧ Puts x (t.ctx k) d.val 1)) ∧
    (RunsPlain s c ∧ c.eng.val < 8 ∧ mb.val < 64 ∧ s.flag (Reg.MBX_CFG mb.val) F.MBX_CFG_EN = true ∧ 8 ≤ s.mboxCount mb.val ∧ s.displaced k mb.val = some q ∧ q.sender ≠ k → Answers (.msend c d a mb) s (fun t => t.weft.mbxFly = s.weft.mbxFly.erase q ++ [⟨mb.val, x.reg a.val, k, d.val, s.now / ticksSys⟩] ∧ Puts x (t.ctx k) d.val 0 ∧ t.ctx q.sender = (s.ctx q.sender).put q.dest 1 ∧ CtxsOnly [k, q.sender] s t)) ∧
    (RunsPlain s c ∧ c.eng.val < 8 ∧ mb.val < 64 ∧ s.mboxOwner mb.val = k ∧ s.mbox mb.val = w :: rest ∧ d ≠ e → Answers (.mrecv c d e mb) s (fun t => t.mbox mb.val = rest ∧ (∀ i : Fin 32, (t.ctx k).reg i.val = if i = 0 then 0 else if i = e then 1 else if i = d then w else x.reg i.val) ∧ (t.ctx k).pc = x.pc + 4 ∧ CtxsOnly [k] s t)) ∧
    (RunsPlain s c ∧ c.eng.val < 8 ∧ mb.val < 64 ∧ s.mboxOwner mb.val = k ∧ s.mbox mb.val = [] → Turns (.mrecv c d e mb) s c (fun x y => Puts x y e.val 0)) ∧
    (s.weft.mbxFly.find? (fun e => decide (e.mbx = m.val)) = some q → Answers (.mailboxDelivery m) s (fun t => t.mbox m.val = s.mbox m.val ++ [q.word] ∧ t.weft.mbxFly = s.weft.mbxFly.erase q ∧ t.mem = s.mem)) ∧
    (s.acts .weft ∧ data.getLsbD 31 = true → Writes (.mailboxConfig m data) s [Reg.MBX_CFG m.val] (fun t => t.mbox m.val = [] ∧ t.weft.mbxFly = s.weft.mbxFly.filter (fun q => decide (q.mbx ≠ m.val))))

/-- For a context that issues: CSRR writes a listed CSR to w[d]; CSRW, CSRS and CSRC also write, set and clear TSCRATCH, by
w[a]; an unlisted CSR and a write to ID or EVT_PEND trap ILLEGAL. BAR goes on where no access of the context is outstanding
and stalls it otherwise. TRAP and BRK trap with causes 0x08 and 0x09 and return to the next instruction; a TRAP in a trap is
a double trap, which halts the context. BRK on a claimed sequencer halts the context at the next instruction. ERET returns
to EPC and clears IN_TRAP. An illegal word traps with cause 0x01 and the word in TVAL. SCALL with a misaligned block traps
MISALIGN, outside shared SRAM ACCESS, a listed function waits for the key store, and another gives BAD_FUNC at once.
Commands that complete here (exec answers a next state with their own effect, under conditions on the state and the operands
alone): csrr, csrw, csrs, csrc, bar, trap, brk, eret, illegalInstruction, scall. (02_weft_isa.md R42, 02_weft_isa.md R54,
02_weft_isa.md R56, 02_weft_isa.md R58, 02_weft_isa.md R59, 02_weft_isa.md R60, 03_weft_system.md R70, 03_weft_system.md
R81) -/
def Obligations.WeftControlAndTraps : Prop :=
  ∀ (s : State) (c : CtxId) (d a : Fin 32) (n : BitVec 12) (imm : BitVec 16) (w v : Word) (f : BitVec 12), RunsPlain s c →
    let k := ctxKey c
    let x := s.ctx k
    (s.csr k n.toNat = some v ∧ x.busPend = false → Turns (.csrr c d n) s c (fun x y => Puts x y d.val v)) ∧
    (x.busPend = false → Turns (.csrw c d a 5) s c (fun x y => (∀ i, y.reg i = if i = d.val ∧ d.val ≠ 0 then x.tscratch else x.reg i) ∧ y = { x with w := y.w, pc := x.pc + 4, tscratch := x.reg a.val }) ∧ Turns (.csrs c d a 5) s c (fun x y => (∀ i, y.reg i = if i = d.val ∧ d.val ≠ 0 then x.tscratch else x.reg i) ∧ y = { x with w := y.w, pc := x.pc + 4, tscratch := x.tscratch ||| x.reg a.val }) ∧ Turns (.csrc c d a 5) s c (fun x y => (∀ i, y.reg i = if i = d.val ∧ d.val ≠ 0 then x.tscratch else x.reg i) ∧ y = { x with w := y.w, pc := x.pc + 4, tscratch := x.tscratch &&& ~~~(x.reg a.val) })) ∧
    (s.csr k n.toNat = none ∧ x.inTrap = false ∧ inItcm c.eng.val x.tvec.toNat = true → Turns (.csrr c d n) s c (fun x y => y.tcause = 1 ∧ y.epc = x.pc ∧ y.pc = x.tvec ∧ y.w = x.w) ∧ Turns (.csrw c d a n) s c (fun x y => y.tcause = 1 ∧ y.epc = x.pc ∧ y.pc = x.tvec ∧ y.w = x.w)) ∧
    ((n = 0x006 ∨ n = 0x100) ∧ x.inTrap = false ∧ inItcm c.eng.val x.tvec.toNat = true → Turns (.csrw c d a n) s c (fun x y => y.tcause = 1 ∧ y.epc = x.pc ∧ y.pc = x.tvec ∧ y.w = x.w) ∧ Turns (.csrs c d a n) s c (fun x y => y.tcause = 1 ∧ y.epc = x.pc ∧ y.w = x.w) ∧ Turns (.csrc c d a n) s c (fun x y => y.tcause = 1 ∧ y.epc = x.pc ∧ y.w = x.w)) ∧
    (s.hasAccess k = false ∧ x.busPend = false → Turns (.bar c) s c (fun x y => y = { x with pc := x.pc + 4 })) ∧
    (s.hasAccess k = true → Turns (.bar c) s c (fun x y => y = { x with stall := .bar })) ∧
    (x.inTrap = false ∧ inItcm c.eng.val x.tvec.toNat = true → Turns (.trap c imm) s c (fun x y => Traps x y 8 (BitVec.ofNat 32 imm.toNat) (x.pc + 4))) ∧
    (x.inTrap = true ∧ c.eng.val < 8 → Answers (.trap c imm) s (fun t => (t.ctx k).run = .halted ∧ (t.ctx k).dead = true ∧ (t.ctx k).pc = x.pc ∧ (t.ctx k).tcause.getLsbD 30 = true ∧ (t.ctx k).w = x.w)) ∧
    (c.eng.val ≠ 9 ∧ (c.eng.val < 8 → Tab.get (fun _ => false) s.weft.claim c.eng.val = false) ∧ x.inTrap = false ∧ inItcm c.eng.val x.tvec.toNat = true → Turns (.brk c) s c (fun x y => Traps x y 9 0 (x.pc + 4))) ∧
    (c.eng.val < 8 ∧ Tab.get (fun _ => false) s.weft.claim c.eng.val = true ∧ x.busPend = false ∧ s.hasAccess k = false → Answers (.brk c) s (fun t => (t.ctx k).run = .halted ∧ (t.ctx k).pc = x.pc + 4 ∧ (t.ctx k).dead = x.dead ∧ (t.ctx k).w = x.w ∧ CtxsOnly [k] s t)) ∧
    (x.busPend = false → Turns (.eret c) s c (fun x y => y = { x with pc := x.epc, status := x.status &&& ~~~(0x100 : Word) })) ∧
    (legalWord c.eng.val w = false ∧ x.inTrap = false ∧ inItcm c.eng.val x.tvec.toNat = true → Turns (.illegalInstruction c w) s c (fun x y => Traps x y 1 w x.pc)) ∧
    (c.eng.val ≠ 9 ∧ (x.reg a.val).toNat % 4 ≠ 0 ∧ x.inTrap = false ∧ inItcm c.eng.val x.tvec.toNat = true → Turns (.scall c d a f) s c (fun x y => Traps x y 3 (x.reg a.val) x.pc)) ∧
    (c.eng.val ≠ 9 ∧ (x.reg a.val).toNat % 4 = 0 ∧ inSram (x.reg a.val).toNat = false ∧ x.inTrap = false ∧ inItcm c.eng.val x.tvec.toNat = true → Turns (.scall c d a f) s c (fun x y => Traps x y 4 (x.reg a.val) x.pc)) ∧
    (c.eng.val ≠ 9 ∧ (x.reg a.val).toNat % 4 = 0 ∧ sramRange (x.reg a.val).toNat 40 = true ∧ s.sramSound ∧ (ksEngine f.toNat).isSome = true → Answers (.scall c d a f) s (fun t => t.ks.reqs = s.ks.reqs ++ [⟨k, f.toNat, x.reg a.val, s.now⟩] ∧ t.ctx k = { x with stall := .scall d.val } ∧ CtxsOnly [k] s t ∧ t.mem = s.mem)) ∧
    (c.eng.val ≠ 9 ∧ (x.reg a.val).toNat % 4 = 0 ∧ sramRange (x.reg a.val).toNat 40 = true ∧ s.sramSound ∧ ksEngine f.toNat = none ∧ x.busPend = false → Turns (.scall c d a f) s c (fun x y => Puts x y d.val (BitVec.ofNat 32 ksBadFunc)))

/-- For a context of WS[n]: CTX_START of a STOPPED context runs it from its ENTRY; CTX_RESTART, and the expiry of its
watchdog, which sets WDOG, clears its registers, ACC, STATUS, EVT_PEND and compare and runs it from ENTRY; CTX_HALT on a
claimed sequencer halts a running context that waits for nothing, CTX_RESUME runs one in debug halt; DEBUG_CLAIM and
DEBUG_RELEASE set and clear the claim, and the release lets a context in debug halt run. ECC_WRITEBACK makes the check bits
of a corrected word valid and changes no byte. TVEC keeps its value in a restart. Commands that complete here (exec answers
a next state with their own effect, under conditions on the state and the operands alone): ctxStart, ctxRestart,
ctxWatchdogExpiry, ctxHalt, ctxResume, debugClaim, debugRelease, eccWriteback. (03_weft_system.md R67, 03_weft_system.md
R68, 03_weft_system.md R81, 03_weft_system.md R82, 03_weft_system.md R551) -/
def Obligations.ContextsStartRestartAndHalt : Prop :=
  ∀ (s : State) (ws : Fin 8) (j : Fin 4) (c : CtxId) (addr : Word), 
    let k := CtxKey ws.val j.val
    let x := s.ctx k
    (s.acts .weft ∧ x.run = .stopped ∧ s.haltAsked k = false → Answers (.ctxStart ws j) s (fun t => (t.ctx k).run = .running ∧ (t.ctx k).pc = s.rd (Reg.WSC_ENTRY ws.val j.val) ∧ (t.ctx k).w = x.w ∧ CtxsOnly [k] s t ∧ t.regs = s.regs)) ∧
    (s.acts .weft ∧ x.stall ≠ .fabric ∧ s.haltAsked k = false → Answers (.ctxRestart ws j) s (fun t => (t.ctx k).run = .running ∧ (t.ctx k).pc = s.rd (Reg.WSC_ENTRY ws.val j.val) ∧ (∀ i : Fin 32, (t.ctx k).reg i.val = 0) ∧ (t.ctx k).acc = 0 ∧ (t.ctx k).status = 0 ∧ (t.ctx k).evtPend = 0 ∧ (t.ctx k).cmp = none ∧ (t.ctx k).tvec = x.tvec ∧ CtxsOnly [k] s t)) ∧
    (c.eng.val < 8 ∧ s.acts .weft ∧ s.reached (s.ctx (ctxKey c)).wdtDue = true ∧ (s.ctx (ctxKey c)).stall ≠ .fabric → Answers (.ctxWatchdogExpiry c) s (fun t => (t.ctx (ctxKey c)).pc = s.rd (Reg.WSC_ENTRY c.eng.val c.ctx.val) ∧ (∀ i : Fin 32, (t.ctx (ctxKey c)).reg i.val = 0) ∧ bitOf (t.fld (Reg.WSC_CTX_STATE c.eng.val) F.WSC_CTX_STATE_WDOG) c.ctx.val = true ∧ CtxsOnly [ctxKey c] s t)) ∧
    (s.acts .weft ∧ Tab.get (fun _ => false) s.weft.claim ws.val = true ∧ x.run = .running ∧ x.stall = .none ∧ s.hasAccess k = false → Writes (.ctxHalt ws j) s [Reg.WSC_CTX_CTRL ws.val] (fun t => (t.ctx k).run = .halted ∧ (t.ctx k).pc = x.pc ∧ (t.ctx k).w = x.w ∧ CtxsOnly [k] s t)) ∧
    (s.acts .weft ∧ x.run = .halted ∧ x.dead = false ∧ x.wait = none ∧ x.busPend = false → Writes (.ctxResume ws j) s [Reg.WSC_CTX_CTRL ws.val] (fun t => (t.ctx k).run = .running ∧ (t.ctx k).pc = x.pc ∧ (t.ctx k).w = x.w ∧ CtxsOnly [k] s t)) ∧
    (s.acts .debug → Answers (.debugClaim ws) s (fun t => Tab.get (fun _ => false) t.weft.claim ws.val = true ∧ t.mem = s.mem)) ∧
    (s.acts .debug ∧ x.run = .halted ∧ x.dead = false ∧ x.wait = none ∧ x.busPend = false → Answers (.debugRelease ws) s (fun t => Tab.get (fun _ => false) t.weft.claim ws.val = false ∧ (t.ctx k).run = .running ∧ (t.ctx k).pc = x.pc ∧ (t.ctx k).w = x.w)) ∧
    (s.ecc.back.contains (wordOf addr.toNat) = true → Answers (.eccWriteback addr) s (fun t => t.damage addr.toNat = .none ∧ t.ecc.back.contains (wordOf addr.toNat) = false ∧ t.mem = s.mem ∧ t.regs = s.regs))

/-- While Loom acts: LOOM_RUN starts the stopped independent channels of its mask in one instant and stops those it clears,
outputs off. LOOM_BOUNDARY begins the next period of an independent channel whose period is over and commits its shadow
registers where the mode commits there; LOOM_MIDPOINT likewise. LOOM_REF_EDGE turns one output off at once and starts the
dead time of the other. LOOM_DEAD_TIME_END turns the output on, or drops and counts a pulse shorter than MIN_PULSE.
LOOM_TRIGGER fires its line once a period. LOOM_GUPD_ARM arms the strobe of exactly the channels of its mask. Commands that
complete here (exec answers a next state with their own effect, under conditions on the state and the operands alone):
loomRun, loomBoundary, loomMidpoint, loomRefEdge, loomDeadTimeEnd, loomTrigger, loomGupdArm. (04_loom.md R84, 04_loom.md
R86, 04_loom.md R87, 04_loom.md R90, 04_loom.md R91, 04_loom.md R92, 04_loom.md R93, 04_loom.md R94, 04_loom.md R96,
04_loom.md R97) -/
def Obligations.LoomChannelsRunAndCommit : Prop :=
  ∀ (s : State) (n : Fin 24) (data mask : BitVec 24) (k : Fin 4) (high : Bool) (u w : Nat), s.acts .loom →
    let x := s.ch n.val
    (data.getLsbD n.val = true ∧ s.chSync n.val = none ∧ x.run = false → Answers (.loomRun data) s (fun t => t.fld Reg.LOOM_RUN F.LOOM_RUN_VAL = data.toNat ∧ (t.ch n.val).run = true ∧ (t.ch n.val).t0 = s.now ∧ (t.ch n.val).count = 0 ∧ t.mem = s.mem)) ∧
    (data.getLsbD n.val = false ∧ s.runBit n.val = true ∧ s.chSync n.val = none → Answers (.loomRun data) s (fun t => (t.ch n.val).run = false ∧ (t.ch n.val).outH = false ∧ (t.ch n.val).outL = false ∧ t.chFlag n.val F.LOOM_CH_STATUS_RUN = false)) ∧
    (x.run = true ∧ s.chSync n.val = none ∧ x.t0 + s.chPer n.val ≤ s.now → Answers (.loomBoundary n) s (fun t => (t.ch n.val).t0 = x.t0 + s.chPer n.val ∧ (t.ch n.val).count = x.count + 1 ∧ (t.ch n.val).mid = false ∧ (t.ch n.val).fired = [])) ∧
    (x.run = true ∧ s.chSync n.val = none ∧ x.t0 + s.chPer n.val ≤ s.now ∧ x.recent = [] ∧ s.commits n.val (x.t0 + s.chPer n.val) 0 = true → Answers (.loomBoundary n) s (fun t => t.lv (Reg.LOOM_CH_DUTY n.val) = s.rd (Reg.LOOM_CH_DUTY n.val) ∧ t.lv (Reg.LOOM_CH_PHASE n.val) = s.rd (Reg.LOOM_CH_PHASE n.val) ∧ t.lv (Reg.LOOM_CH_DEAD n.val) = s.rd (Reg.LOOM_CH_DEAD n.val))) ∧
    (x.run = true ∧ s.now < x.t0 + s.chPer n.val → Writes (.loomBoundary n) s [] (fun t => t = s)) ∧
    (x.run = true ∧ s.chSync n.val = none ∧ x.mid = false ∧ x.t0 + s.chPer n.val / 2 ≤ s.now ∧ x.recent = [] ∧ s.commits n.val (x.t0 + s.chPer n.val / 2) 1 = true → Answers (.loomMidpoint n) s (fun t => (t.ch n.val).mid = true ∧ t.lv (Reg.LOOM_CH_DUTY n.val) = s.rd (Reg.LOOM_CH_DUTY n.val))) ∧
    (x.run = true ∧ s.tripped n.val = false ∧ s.refNow n.val ≠ x.ref → Writes (.loomRefEdge n) s [] (fun t => (t.ch n.val).ref = s.refNow n.val ∧ (t.ch n.val).outH = (s.refNow n.val && x.outH) ∧ (t.ch n.val).outL = (!s.refNow n.val && x.outL) ∧ (t.ch n.val).dead = some (s.now + (if s.refNow n.val then F.LOOM_CH_DEAD_DEAD_RISE.get (s.lv (Reg.LOOM_CH_DEAD n.val)) else F.LOOM_CH_DEAD_DEAD_FALL.get (s.lv (Reg.LOOM_CH_DEAD n.val))), s.refNow n.val))) ∧
    (x.dead = some (u, high) ∧ u ≤ s.now ∧ x.run = true ∧ s.tripped n.val = false ∧ s.nextEdge n.val = some w ∧ w ≠ 0 ∧ F.LOOM_CH_MINPW_MIN_PULSE.get (s.lv (Reg.LOOM_CH_MINPW n.val)) ≤ w ∧ s.refNow n.val = high → Writes (.loomDeadTimeEnd n) s [] (fun t => (t.ch n.val).dead = none ∧ (t.ch n.val).outH = (x.outH || high) ∧ (t.ch n.val).outL = (x.outL || !high))) ∧
    (x.dead = some (u, true) ∧ u ≤ s.now ∧ x.run = true ∧ s.tripped n.val = false ∧ s.nextEdge n.val = some w ∧ w < F.LOOM_CH_MINPW_MIN_PULSE.get (s.lv (Reg.LOOM_CH_MINPW n.val)) → Writes (.loomDeadTimeEnd n) s [Reg.LOOM_CH_DROP_CNT n.val] (fun t => (t.ch n.val).dead = none ∧ (t.ch n.val).outH = x.outH ∧ t.fld (Reg.LOOM_CH_DROP_CNT n.val) F.LOOM_CH_DROP_CNT_DROP_H = min 0xFFFF (s.fld (Reg.LOOM_CH_DROP_CNT n.val) F.LOOM_CH_DROP_CNT_DROP_H + 1) ∧ Fires s t 0x00 (0x78 + n.val))) ∧
    (s.trigFires n.val k.val = true → Answers (.loomTrigger n k) s (fun t => k.val ∈ (t.ch n.val).fired ∧ k.val ∉ (t.ch n.val).jumped ∧ t.lv (Reg.LOOM_CH_DUTY n.val) = s.lv (Reg.LOOM_CH_DUTY n.val))) ∧
    (Writes (.loomGupdArm mask) s [Reg.LOOM_GUPD] (fun t => (∀ m : Fin 24, bitOf (t.fld Reg.LOOM_GUPD F.LOOM_GUPD_ARM) m.val = (mask.getLsbD m.val || bitOf (s.fld Reg.LOOM_GUPD F.LOOM_GUPD_ARM) m.val)) ∧ (mask.getLsbD n.val = true → bitOf (s.fld Reg.LOOM_GUPD F.LOOM_GUPD_ARM) n.val = false → (t.ch n.val).armAt = s.now)))

/-- While Loom acts: LOOM_TRIP_SOURCE of a pin that becomes active trips a running channel that masks it as LATCH, outputs
off; LOOM_BLANK_END lets a crossing act; LOOM_STALE_TRIP trips with source 64; LOOM_SOURCE_STUCK sets STUCK of a source
active beyond STUCK_T. LOOM_CLR_TRIP is refused while a masked source is active or stuck, else a release waits for the
boundary. LOOM_STUCK_CLEAR is refused while the source is active. LOOM_CLR_DROP and LOOM_LOCK act on their register alone.
LOOM_CLOCK_LOSS, LOOM_READBACK_FAULT and LOOM_CONFIG_ECC stop their channels with their fault codes; LOOM_RECALIBRATE notes.
Commands that complete here (exec answers a next state with their own effect, under conditions on the state and the operands
alone): loomTripSource, loomBlankEnd, loomStaleTrip, loomSourceStuck, loomClrTrip, loomStuckClear, loomClrDrop, loomLock,
loomClockLoss, loomReadbackFault, loomConfigEcc, loomRecalibrate. (04_loom.md R95, 04_loom.md R98, 04_loom.md R99,
04_loom.md R101, 04_loom.md R102, 04_loom.md R104, 04_loom.md R108, 04_loom.md R110) -/
def Obligations.LoomTripsHoldTheirChannels : Prop :=
  ∀ (s : State) (n : Fin 24) (k : Fin 64) (level : Bool) (u : Nat), s.acts .loom →
    let x := s.ch n.val
    let st := Reg.LOOM_CH_STATUS n.val
    (k.val < 16 ∧ s.flag (Reg.LOOM_TSRC k.val) F.LOOM_TSRC_EN = true ∧ level = s.flag (Reg.LOOM_TSRC k.val) F.LOOM_TSRC_POL ∧ s.masks n.val k.val = true ∧ x.run = true ∧ s.tripBit k.val = F.LOOM_CH_STATUS_LATCH_TRIP → Answers (.loomTripSource k level) s (fun t => t.chFlag n.val F.LOOM_CH_STATUS_LATCH_TRIP = true ∧ (t.ch n.val).outH = false ∧ (t.ch n.val).outL = false ∧ bitOf (t.fld Reg.LOOM_PIN_STAT F.LOOM_PIN_STAT_VAL) k.val = true)) ∧
    (s.reached x.blank = true ∧ s.srcActive k.val = true ∧ (∀ q : Fin 64, q.val < k.val → s.masks n.val q.val = false) ∧ s.masks n.val k.val = true ∧ x.run = true ∧ s.tripBit k.val = F.LOOM_CH_STATUS_LATCH_TRIP → Answers (.loomBlankEnd n) s (fun t => t.chFlag n.val F.LOOM_CH_STATUS_LATCH_TRIP = true ∧ (t.ch n.val).outH = false ∧ (t.ch n.val).outL = false)) ∧
    (x.run = true ∧ s.fld (Reg.LOOM_CH_CTRL n.val) F.LOOM_CH_CTRL_STALE_LIM ≠ 0 ∧ s.fld (Reg.LOOM_CH_CTRL n.val) F.LOOM_CH_CTRL_STALE_LIM ≤ x.stale ∧ x.staleDone = false ∧ s.fld st F.LOOM_CH_STATUS_FIRST_SRC = 0xFF → Writes (.loomStaleTrip n) s [st] (fun t => t.chFlag n.val F.LOOM_CH_STATUS_LATCH_TRIP = true ∧ t.fld st F.LOOM_CH_STATUS_FIRST_SRC = 64 ∧ (t.ch n.val).outH = false ∧ (t.ch n.val).outL = false ∧ (t.ch n.val).staleDone = true)) ∧
    (s.fld (Reg.LOOM_TSRC k.val) F.LOOM_TSRC_STUCK_T ≠ 0 ∧ (s.src k.val).since = some u ∧ u + s.fld (Reg.LOOM_TSRC k.val) F.LOOM_TSRC_STUCK_T * 160000 < s.now → Answers (.loomSourceStuck k) s (fun t => t.flag (Reg.LOOM_TSRC k.val) F.LOOM_TSRC_STUCK = true)) ∧
    ((∃ q : Fin 64, s.masks n.val q.val = true ∧ (s.srcActive q.val = true ∨ s.flag (Reg.LOOM_TSRC q.val) F.LOOM_TSRC_STUCK = true)) → Writes (.loomClrTrip n) s [st] (fun t => t.chFlag n.val F.LOOM_CH_STATUS_CLEAR_REFUSED = true ∧ t.ch n.val = x)) ∧
    ((∀ q : Fin 64, s.masks n.val q.val = true → s.srcActive q.val = false ∧ s.flag (Reg.LOOM_TSRC q.val) F.LOOM_TSRC_STUCK = false) → Writes (.loomClrTrip n) s [st] (fun t => t.fld st F.LOOM_CH_STATUS_FIRST_SRC = 0xFF ∧ t.ch n.val = { x with clear := s.chFlag n.val F.LOOM_CH_STATUS_LATCH_TRIP || s.chFlag n.val F.LOOM_CH_STATUS_HIZ_TRIP } ∧ t.chFlag n.val F.LOOM_CH_STATUS_LATCH_TRIP = s.chFlag n.val F.LOOM_CH_STATUS_LATCH_TRIP)) ∧
    (Writes (.loomStuckClear k) s [Reg.LOOM_TSRC k.val] (fun t => (if s.srcActive k.val then t.flag (Reg.LOOM_TSRC k.val) F.LOOM_TSRC_REFUSED = true ∧ t.flag (Reg.LOOM_TSRC k.val) F.LOOM_TSRC_STUCK = s.flag (Reg.LOOM_TSRC k.val) F.LOOM_TSRC_STUCK else t.flag (Reg.LOOM_TSRC k.val) F.LOOM_TSRC_STUCK = false) ∧ t.loom = s.loom)) ∧
    (Writes (.loomClrDrop n) s [Reg.LOOM_CH_DROP_CNT n.val] (fun t => t.rd (Reg.LOOM_CH_DROP_CNT n.val) = 0) ∧ Writes .loomLock s [Reg.LOOM_LOCK] (fun t => t.flag Reg.LOOM_LOCK F.LOOM_LOCK_LOCK = true)) ∧
    (Answers .loomClockLoss s (fun t => ∀ m : Fin 24, (t.ch m.val).run = false ∧ (t.ch m.val).outH = false ∧ (t.ch m.val).outL = false)) ∧
    (s.power.chipSafe = false ∧ s.inWindow 0 = false ∧ s.flag (Reg.ERR_REG_STATUS 0) F.ERR_REG_STATUS_OPEN = false → Answers .loomClockLoss s (fun t => (t.regRec 0).inReset = true ∧ (t.regRec 0).timer = some s.now)) ∧
    (Answers (.loomReadbackFault n) s (fun t => (t.ch n.val).run = false ∧ (t.ch n.val).outH = false ∧ (t.ch n.val).outL = false ∧ bitOf (t.fld Reg.LOOM_RUN F.LOOM_RUN_VAL) n.val = false ∧ Contained s t 0x00 n.val 0x03)) ∧
    (Answers (.loomConfigEcc n true) s (fun t => (t.ch n.val).run = false ∧ (t.ch n.val).todo = channelRegs n.val ∧ Contained s t 0x00 n.val 0x02) ∧ Writes (.loomConfigEcc n false) s [Reg.ERR_BLK_STATUS 0, Reg.ERR_BLK_STATUS 0 + 4, Reg.ERR_BLK_STATUS 0 + 8, Reg.ERR_BLK_STATUS 0 + 12] (fun t => Noted s t 0x00 n.val 0x01 ∧ t.loom = s.loom)) ∧
    (Writes .loomRecalibrate s [Reg.ERR_BLK_STATUS 0, Reg.ERR_BLK_STATUS 0 + 4, Reg.ERR_BLK_STATUS 0 + 8, Reg.ERR_BLK_STATUS 0 + 12] (fun t => Noted s t 0x00 0xFF 0x04))

/-- For an engine that issues: LDA, MULC, MACC, MSUC, MULA, MACA, MSUA, ADDA, SUBA, MOVA, NEGA, ABSA, MINA, MAXA, CLMP, SHA,
DIVA, FFL and FFA put sat64 of the value of their table row in a[d], set Q where it clamps, or where the accumulator product
clamps a[s] to 32 bits, advance the PC by one and the run by their cycles, and change nothing else of any engine and no
other register. p(v, k) = (v × coefficient × 2^(shift + 16)) ÷ 2^47 toward zero. DIVA by 0 gives the limit on the side of
a[s] and sets DZ. NOP only goes on. STA writes sat32(a[s]) to M[x]. Commands that complete here (exec answers a next state
with their own effect, under conditions on the state and the operands alone): lda, mulc, macc, msuc, mula, maca, msua, adda,
suba, mova, nega, absa, mina, maxa, clmp, sha, diva, ffl, ffa, twNop, sta. (05_twill.md R112, 05_twill.md R114, 05_twill.md
R115, 05_twill.md R117, 05_twill.md R118, 05_twill.md R128) -/
def Obligations.TwillArithmeticFillsAccumulators : Prop :=
  ∀ (s : State) (e : Fin 4) (d sa ta : Fin 16) (x : BitVec 12) (k : BitVec 8), Issues s e.val →
    let y := s.te e.val
    let st := Reg.TW_STATUS e.val
    let dx := s.data e.val x.toNat
    let ok := inDataSpace x.toNat = true
    let p := fun (v : Int) (k : Nat) => Int.tdiv (v * (s.lv (Reg.TW_COEF_VAL e.val k)).toInt * 2 ^ (((s.lv (Reg.TW_COEF_SHIFT e.val k)).extractLsb' 0 5).toInt + 16).toNat) (2 ^ 47)
    let A := y.a sa.val
    let B := y.a ta.val
    let G := y.a d.val
    let c32 := max (-2 ^ 31) (min (2 ^ 31 - 1) A)
    let q32 := decide (A < -2 ^ 31 ∨ 2 ^ 31 - 1 < A)
    (ok → Writes (.lda e d x) s [st] (fun t => Accum s t e.val d.val 1 (dx) false)) ∧
    (ok → Writes (.mulc e d x k) s [st] (fun t => Accum s t e.val d.val 1 (p dx k.toNat) false)) ∧
    (ok → Writes (.macc e d x k) s [st] (fun t => Accum s t e.val d.val 1 (G + p dx k.toNat) false)) ∧
    (ok → Writes (.msuc e d x k) s [st] (fun t => Accum s t e.val d.val 1 (G - p dx k.toNat) false)) ∧
    (Writes (.mula e d sa k) s [st] (fun t => Accum s t e.val d.val 1 (p c32 k.toNat) q32)) ∧
    (Writes (.maca e d sa k) s [st] (fun t => Accum s t e.val d.val 1 (G + p c32 k.toNat) q32)) ∧
    (Writes (.msua e d sa k) s [st] (fun t => Accum s t e.val d.val 1 (G - p c32 k.toNat) q32)) ∧
    (Writes (.adda e d sa ta) s [st] (fun t => Accum s t e.val d.val 1 (A + B) false)) ∧
    (Writes (.suba e d sa ta) s [st] (fun t => Accum s t e.val d.val 1 (A - B) false)) ∧
    (Writes (.mova e d sa) s [st] (fun t => Accum s t e.val d.val 1 (A) false)) ∧
    (Writes (.nega e d sa) s [st] (fun t => Accum s t e.val d.val 1 (-A) false)) ∧
    (Writes (.absa e d sa) s [st] (fun t => Accum s t e.val d.val 1 (if A < 0 then -A else A) false)) ∧
    (Writes (.mina e d sa ta) s [st] (fun t => Accum s t e.val d.val 1 (min A B) false)) ∧
    (Writes (.maxa e d sa ta) s [st] (fun t => Accum s t e.val d.val 1 (max A B) false)) ∧
    (Writes (.clmp e d sa ta) s [st] (fun t => Accum s t e.val d.val 1 (min (max G A) B) false)) ∧
    (0 ≤ k.toInt ∧ k.toInt ≤ 31 → Writes (.sha e d sa k) s [st] (fun t => Accum s t e.val d.val 1 (A * 2 ^ k.toInt.toNat) false)) ∧
    (-32 ≤ k.toInt ∧ k.toInt < 0 → Writes (.sha e d sa k) s [st] (fun t => Accum s t e.val d.val 1 (Int.tdiv A (2 ^ (-k.toInt).toNat)) false)) ∧
    (ok ∧ dx ≠ 0 → Writes (.diva e d sa x) s [st] (fun t => Accum s t e.val d.val 24 (Int.tdiv (A * 2 ^ 31) dx) false)) ∧
    (ok ∧ dx = 0 → Writes (.diva e d sa x) s [st] (fun t => GoesOn s t e.val 24 (fun z => z.setA d.val (if A < 0 then 0x8000000000000000 else 0x7FFFFFFFFFFFFFFF)) ∧ t.rd st = F.TW_STATUS_DZ.put (s.rd st) 1)) ∧
    (ok ∧ k.toNat < 4 → Writes (.ffl e d x k) s [st] (fun t => Accum s t e.val d.val 2 (s.ff e.val k.toNat (BitVec.ofInt 32 dx)) false)) ∧
    (ok ∧ k.toNat < 4 → Writes (.ffa e d x k) s [st] (fun t => Accum s t e.val d.val 2 (G + s.ff e.val k.toNat (BitVec.ofInt 32 dx)) false)) ∧
    (Writes (.twNop e 0) s [] (fun t => GoesOn s t e.val 1 id)) ∧
    (x.toNat < 0x200 → Writes (.sta e x sa) s [Reg.TW_M e.val x.toNat, st] (fun t => GoesOn s t e.val 1 (fun z => { z with sta := some (Reg.TW_M e.val x.toNat, s.now) }) ∧ t.rd (Reg.TW_M e.val x.toNat) = BitVec.ofInt 32 c32 ∧ t.rd st = (if q32 then F.TW_STATUS_Q.put (s.rd st) 1 else s.rd st)))

/-- For an engine that issues: MINSEL puts the least candidate, the lowest of equal ones, in a[d] and its index in SEL and
pulls back the integrators of the tracked losers only; RAMP moves its enabled ramp from RREF toward the sampled set-point by
at most its rate and puts RREF in a[d]; OUT writes the clamped a[s] ÷ 2^31 to the duty, phase or period register, or the
trigger 0 position, of a channel it owns, and to any other only sets OWN_ERR; ARM arms the owned channels; EVT fires its
line; BR goes to its target where the condition holds; WAITIN goes on where the ADC is bound to the trigger of the run and
has sampled since, and else waits; END ends the run, records its cycles and fires the slot line; an illegal word ends the
run, clears RUN, sets ILL and raises CONTAIN 0x02. TW_SLOT_START of an idle engine starts its lowest pending slot at its
ENTRY and commits the set-point registers. TW_BUDGET_EXPIRY ends a run at its budget with ABORT and CONTAIN 0x03. Commands
that complete here (exec answers a next state with their own effect, under conditions on the state and the operands alone):
minsel, ramp, twOut, twArm, evt, br, waitin, twEnd, twNop, twSlotStart, twBudgetExpiry. (05_twill.md R113, 05_twill.md R117,
05_twill.md R118, 05_twill.md R119, 05_twill.md R121, 05_twill.md R124, 05_twill.md R127, 05_twill.md R135, 05_twill.md
R137, 05_twill.md R138, 05_twill.md R145) -/
def Obligations.TwillControlAndSlots : Prop :=
  ∀ (s : State) (e : Fin 4) (d b sa ta : Fin 16) (n : Fin 8) (tm : BitVec 6) (x : BitVec 12) (k : BitVec 8) (ch : Fin 32) (mask : BitVec 24) (cond : Fin 8) (tgt : Fin 512) (sl : Fin 8) (r : SlotRun) (w : BitVec 64), 
    let y := s.te e.val
    let st := Reg.TW_STATUS e.val
    let A := y.a sa.val
    let B := y.a ta.val
    let m := fun (j : Nat) => Reg.TW_M e.val (x.toNat + j)
    let cand := fun (j : Nat) => y.a (b.val + j)
    let out := BitVec.ofInt 32 (max 0 (min 0xFFFFFF (Int.tdiv A (2 ^ 31))))
    (Issues s e.val ∧ minselLegal b.val n.val tm.toNat x.toNat k.toNat = true → Answers (.minsel e d b n tm x k) s (fun t => ∃ i : Fin 8, i < n ∧ (∀ j : Fin 8, j < n → cand i.val ≤ cand j.val ∧ (j < i → cand i.val < cand j.val)) ∧ t.te e.val = { (y.next (n.val + 1)).setA d.val (BitVec.ofInt 64 (cand i.val)) with selIdx := i.val } ∧ (∀ j : Fin 8, j < n → t.rd (m j.val) = if j ≠ i ∧ tm.getLsbD j.val = true then BitVec.ofInt 32 (sat32 ((s.rd (m j.val)).toInt - s.prod e.val (sat32 (cand j.val - cand i.val)) (k.toNat + j.val))) else s.rd (m j.val)))) ∧
    (Issues s e.val ∧ k.toNat < 8 ∧ s.fld (Reg.TW_RMP_CFG e.val k.toNat) F.TW_RMP_CFG_SRC = 0 ∧ s.flag (Reg.TW_RMP_CFG e.val k.toNat) F.TW_RMP_CFG_EN = true → Answers (.ramp e d k) s (fun t => let g := s.data e.val (0x250 + s.fld (Reg.TW_RMP_CFG e.val k.toNat) F.TW_RMP_CFG_IDX); let r := (y.ramp k.toNat).toInt; let up := s.fld (Reg.TW_RMP_RATE_UP e.val k.toNat) F.TW_RMP_RATE_UP_STEP; let dn := s.fld (Reg.TW_RMP_RATE_DN e.val k.toNat) F.TW_RMP_RATE_DN_STEP; ((t.te e.val).ramp k.toNat).toInt = (if r < g then (if up = 0 then g else min g (r + up)) else (if dn = 0 then g else max g (r - dn))) ∧ (t.te e.val).a d.val = ((t.te e.val).ramp k.toNat).toInt ∧ (t.te e.val).pc = y.pc + 1)) ∧
    (Issues s e.val ∧ k.toNat < 8 ∧ s.flag (Reg.TW_RMP_CFG e.val k.toNat) F.TW_RMP_CFG_EN = false → Writes (.ramp e d k) s [st] (fun t => Accum s t e.val d.val 1 ((y.ramp k.toNat).toInt) false)) ∧
    (Issues s e.val ∧ ch.val < 24 ∧ s.owns e.val ch.val = true ∧ s.acts .loom → Answers (.twOut e sa ch 0) s (fun t => GoesOn s t e.val 1 id ∧ t.rd (Reg.LOOM_CH_DUTY ch.val) = out ∧ t.lv (Reg.LOOM_CH_DUTY ch.val) = s.lv (Reg.LOOM_CH_DUTY ch.val))) ∧
    (Issues s e.val ∧ ch.val < 24 ∧ s.owns e.val ch.val = true ∧ s.acts .loom → Answers (.twOut e sa ch 1) s (fun t => GoesOn s t e.val 1 id ∧ t.rd (Reg.LOOM_CH_PHASE ch.val) = out) ∧ Answers (.twOut e sa ch 2) s (fun t => GoesOn s t e.val 1 id ∧ t.rd (Reg.LOOM_CH_PERIOD ch.val) = out) ∧ Answers (.twOut e sa ch 3) s (fun t => GoesOn s t e.val 1 id ∧ t.rd (Reg.LOOM_CH_TRIG ch.val 0) = F.LOOM_CH_TRIG_POS.put (s.rd (Reg.LOOM_CH_TRIG ch.val 0)) out.toNat)) ∧
    (Issues s e.val ∧ ch.val < 24 ∧ s.owns e.val ch.val = false → Writes (.twOut e sa ch 0) s [st] (fun t => GoesOn s t e.val 1 id ∧ t.rd st = F.TW_STATUS_OWN_ERR.put (s.rd st) 1)) ∧
    (Issues s e.val ∧ s.acts .loom → Writes (.twArm e mask) s [Reg.LOOM_GUPD, st] (fun t => GoesOn s t e.val 1 id ∧ (∀ c : Fin 24, bitOf (t.fld Reg.LOOM_GUPD F.LOOM_GUPD_ARM) c.val = ((mask.getLsbD c.val && s.owns e.val c.val) || bitOf (s.fld Reg.LOOM_GUPD F.LOOM_GUPD_ARM) c.val)) ∧ ((∃ c : Fin 24, mask.getLsbD c.val = true ∧ s.owns e.val c.val = false) → t.flag st F.TW_STATUS_OWN_ERR = true))) ∧
    (Issues s e.val ∧ mask.toNat < 8 → Writes (.evt e mask) s [] (fun t => GoesOn s t e.val 1 id ∧ Fires s t 0x01 (0x40 + 8 * e.val + mask.toNat))) ∧
    (Issues s e.val ∧ brLegal cond.val sa.val ta.val = true → Writes (.br e cond sa ta tgt) s [] (fun t => let taken := (cond.val = 0 ∨ cond.val = 1 ∧ A = B ∨ cond.val = 2 ∧ A ≠ B ∨ cond.val = 3 ∧ A < B ∨ cond.val = 4 ∧ B ≤ A ∨ cond.val = 5 ∧ A < 0 ∨ cond.val = 6 ∧ 0 ≤ A); (taken → GoesOn s t e.val 2 (fun z => { z with pc := tgt.val })) ∧ (¬ taken → GoesOn s t e.val 1 id))) ∧
    (Issues s e.val ∧ 0x200 ≤ x.toNat ∧ x.toNat < 0x230 ∧ y.run = some r → Writes (.waitin e x) s [] (fun t => let ready := s.adcBound (s.fld (Reg.TW_SLOT_CFG e.val r.slot) F.TW_SLOT_CFG_TRIG) ((x.toNat - 0x200) % 8) = true ∧ (s.ain (x.toNat - 0x200)).wrote.isSome = true ∧ r.trig ≤ (s.ain (x.toNat - 0x200)).sampled; (t.te e.val).pc = y.pc + 1 ∧ (ready → (t.te e.val).run = some { r with cyc := r.cyc + 1 }) ∧ (¬ ready → (t.te e.val).run = some { r with cyc := r.cyc + 1, wait := some (x.toNat - 0x200, s.now) }))) ∧
    (Issues s e.val ∧ y.run = some r ∧ r.slot < 8 → Answers (.twEnd e) s (fun t => (t.te e.val).run = none ∧ t.flag st F.TW_STATUS_BUSY = false ∧ t.fld (Reg.TW_SLOT_STAT e.val r.slot) F.TW_SLOT_STAT_LAST_CYC = min 0xFFFF (r.cyc + 1) ∧ Fires s t 0x01 (8 * e.val + r.slot))) ∧
    (Issues s e.val ∧ w ≠ 0 ∧ twLegal w = false → Answers (.twNop e w) s (fun t => (t.te e.val).run = none ∧ t.flag (Reg.TW_CTRL e.val) F.TW_CTRL_RUN = false ∧ t.flag st F.TW_STATUS_ILL = true ∧ Contained s t 0x01 e.val 0x02 ∧ Fires s t 0x01 (0x60 + e.val))) ∧
    (s.acts .twill ∧ s.twRuns e.val = true ∧ y.run = none ∧ bitOf (s.fld st F.TW_STATUS_PEND) sl.val = true ∧ (∀ j : Fin 8, j < sl → bitOf (s.fld st F.TW_STATUS_PEND) j.val = false) → Answers (.twSlotStart e) s (fun t => (t.te e.val).run = some ⟨sl.val, Tab.get (fun _ => 0) y.trigAt sl.val, 0, none⟩ ∧ (t.te e.val).pc = s.fld (Reg.TW_SLOT_CFG e.val sl.val) F.TW_SLOT_CFG_ENTRY ∧ t.fld st F.TW_STATUS_CUR_SLOT = sl.val ∧ bitOf (t.fld st F.TW_STATUS_PEND) sl.val = false ∧ t.flag st F.TW_STATUS_BUSY = true ∧ (∀ j : Fin 16, t.lv (Reg.TW_SP e.val j.val) = s.rd (Reg.TW_SP e.val j.val)))) ∧
    (s.acts .twill ∧ y.run = some r ∧ s.budget e.val r.slot ≤ r.cyc + (match r.wait with | some (_, w0) => (s.now - w0) / 16 | none => 0) → Answers (.twBudgetExpiry e) s (fun t => (t.te e.val).run = none ∧ (s.flag (Reg.ERR_BLK_STATUS 1) F.ERR_BLK_STATUS_OPEN = false → (t.te e.val).abortSlot = r.slot) ∧ t.flag st F.TW_STATUS_ABORT = true ∧ t.flag st F.TW_STATUS_BUSY = false ∧ Contained s t 0x01 e.val 0x03))

/-- While Twill acts: TW_RUN starts an engine idle or stops it with its run and its pending slots; TW_COEF_COMMIT closes the
written coefficients into a set; TW_RAMP_PRESET waits for the next slot start; TW_OWN_WRITE takes exactly the channels that
no other engine holds and reports a conflict; TW_SLOT_CLEAR clears OVR_CNT and MAX_CYC; TW_OVERRUN_LIMIT disables its slot
with CONTAIN 0x05; TW_MEMORY_ECC notes a corrected error and stops the engine on an uncorrectable one. AIN_SP_SAMPLE takes
an unfiltered code in range, moves a filtered one by a step between those of the two Euler forms and holds the port on one
out of range; PIN_SP_EDGE counts and takes the frequency as a share of FMAX, holds on edges closer than 1 ÷ FMAX and ignores
one within FILT of the last; PIN_SP_TIMEOUT sets LOST and lets the frequency read 0. Commands that complete here (exec
answers a next state with their own effect, under conditions on the state and the operands alone): twRun, twCoefCommit,
twRampPreset, twOwnWrite, twSlotClear, twOverrunLimit, twMemoryEcc, ainSpSample, pinSpEdge, pinSpTimeout. (05_twill.md R122,
05_twill.md R126, 05_twill.md R133, 05_twill.md R134, 05_twill.md R136, 05_twill.md R138, 05_twill.md R140, 05_twill.md
R145, 05_twill.md R148) -/
def Obligations.TwillRegistersAndSetPoints : Prop :=
  ∀ (s : State) (e j : Fin 4) (sl r : Fin 8) (value addr : Word) (data : BitVec 24) (code : BitVec 12) (u : Nat), s.acts .twill →
    let y := s.te e.val
    let st := Reg.TW_STATUS e.val
    let cfg := Reg.PINSP_CFG j.val
    let q := s.pulse j.val
    let held := Tab.get (fun _ => 0) s.twill.ain j.val
    let tau := s.fld (Reg.AINSP_CFG j.val) F.AINSP_CFG_TAU
    let fmax := max 1 (min 10000 (s.fld cfg F.PINSP_CFG_FMAX)) * 100
    let ns := fun (u : Nat) => (s.now - u) / 16
    let short := fun (u : Nat) => s.now < u + s.fld cfg F.PINSP_CFG_FILT * 160
    (s.twRuns e.val = false → Answers (.twRun e true) s (fun t => t.flag (Reg.TW_CTRL e.val) F.TW_CTRL_RUN = true ∧ t.te e.val = y)) ∧
    (Answers (.twRun e false) s (fun t => t.flag (Reg.TW_CTRL e.val) F.TW_CTRL_RUN = false ∧ (t.te e.val).run = none ∧ t.fld st F.TW_STATUS_PEND = 0 ∧ (t.te e.val).pc = y.pc ∧ t.weft = s.weft)) ∧
    (Writes (.twCoefCommit e) s [Reg.TW_CCOMMIT e.val] (fun t => t.flag (Reg.TW_CCOMMIT e.val) F.TW_CCOMMIT_GO = true ∧ (t.te e.val).coefNew = [] ∧ (t.te e.val).coefSet = y.coefSet.filter (fun p => !y.coefNew.contains p.1) ++ y.coefNew.map (fun a => (a, s.rd a)))) ∧
    (Writes (.twRampPreset e r value) s [] (fun t => Tab.get (fun _ => none) (t.te e.val).preset r.val = some value ∧ (t.te e.val).rref = y.rref)) ∧
    (Writes (.twOwnWrite e data) s [Reg.TW_OWN e.val, st] (fun t => let held := fun (c : Nat) => (List.range 4).any (fun g => decide (g ≠ e.val) && bitOf (s.fld (Reg.TW_OWN g) F.TW_OWN_CH) c); (∀ c : Fin 24, bitOf (t.fld (Reg.TW_OWN e.val) F.TW_OWN_CH) c.val = (data.getLsbD c.val && !held c.val)) ∧ t.rd st = (if (List.range 24).any (fun c => data.getLsbD c && held c) then F.TW_STATUS_OWN_CONFLICT.put (s.rd st) 1 else s.rd st))) ∧
    (Writes (.twSlotClear e sl) s [Reg.TW_SLOT_CFG e.val sl.val, Reg.TW_SLOT_STAT e.val sl.val] (fun t => t.fld (Reg.TW_SLOT_CFG e.val sl.val) F.TW_SLOT_CFG_OVR_CNT = 0 ∧ t.fld (Reg.TW_SLOT_STAT e.val sl.val) F.TW_SLOT_STAT_MAX_CYC = 0 ∧ t.fld (Reg.TW_SLOT_CFG e.val sl.val) F.TW_SLOT_CFG_ENTRY = s.fld (Reg.TW_SLOT_CFG e.val sl.val) F.TW_SLOT_CFG_ENTRY)) ∧
    (s.fld (Reg.TW_CTRL e.val) F.TW_CTRL_OVR_LIM ≠ 0 ∧ s.fld (Reg.TW_CTRL e.val) F.TW_CTRL_OVR_LIM ≤ Tab.get (fun _ => 0) y.ovr sl.val → Answers (.twOverrunLimit e sl) s (fun t => t.flag (Reg.TW_SLOT_CFG e.val sl.val) F.TW_SLOT_CFG_EN = false ∧ (s.flag (Reg.ERR_BLK_STATUS 1) F.ERR_BLK_STATUS_OPEN = false → (t.te e.val).limitSlot = sl.val) ∧ Contained s t 0x01 e.val 0x05)) ∧
    (Writes (.twMemoryEcc e addr false) s [Reg.ERR_BLK_STATUS 1, Reg.ERR_BLK_STATUS 1 + 4, Reg.ERR_BLK_STATUS 1 + 8, Reg.ERR_BLK_STATUS 1 + 12] (fun t => Noted s t 0x01 e.val 0x01 ∧ t.twill = s.twill) ∧ Answers (.twMemoryEcc e addr true) s (fun t => t.flag (Reg.TW_CTRL e.val) F.TW_CTRL_RUN = false ∧ (t.te e.val).run = none ∧ (s.flag (Reg.ERR_BLK_STATUS 1) F.ERR_BLK_STATUS_OPEN = false → (t.te e.val).badWord = some addr.toNat) ∧ Contained s t 0x01 e.val 0x06)) ∧
    (s.flag (Reg.AINSP_CFG j.val) F.AINSP_CFG_EN = true ∧ s.fld (Reg.AINSP_CFG j.val) F.AINSP_CFG_TAU = 0 ∧ s.fld (Reg.AINSP_CFG j.val) F.AINSP_CFG_LO ≤ code.toNat ∧ code.toNat ≤ s.fld (Reg.AINSP_CFG j.val) F.AINSP_CFG_HI → Writes (.ainSpSample j code) s [] (fun t => Tab.get (fun _ => 0) t.twill.ain j.val = code.toNat * 2 ^ 19 ∧ t.twill.eng = s.twill.eng)) ∧
    (s.flag (Reg.AINSP_CFG j.val) F.AINSP_CFG_EN = true ∧ s.fld (Reg.AINSP_CFG j.val) F.AINSP_CFG_TAU ≠ 0 ∧ s.fld (Reg.AINSP_CFG j.val) F.AINSP_CFG_LO ≤ code.toNat ∧ code.toNat ≤ s.fld (Reg.AINSP_CFG j.val) F.AINSP_CFG_HI ∧ held ≤ code.toNat * 2 ^ 19 → Writes (.ainSpSample j code) s [] (fun t => let far := code.toNat * 2 ^ 19 - held; held + far / (2 ^ tau + 1) ≤ Tab.get (fun _ => 0) t.twill.ain j.val ∧ Tab.get (fun _ => 0) t.twill.ain j.val ≤ held + (far + 2 ^ tau - 1) / 2 ^ tau)) ∧
    (s.flag (Reg.AINSP_CFG j.val) F.AINSP_CFG_EN = true ∧ (code.toNat < s.fld (Reg.AINSP_CFG j.val) F.AINSP_CFG_LO ∨ s.fld (Reg.AINSP_CFG j.val) F.AINSP_CFG_HI < code.toNat) → Answers (.ainSpSample j code) s (fun t => t.twill = s.twill ∧ bitOf (t.fld Reg.AINSP_STAT F.AINSP_STAT_RANGE) j.val = true ∧ Noted s t 0x01 (0x10 + j.val) 0x07)) ∧
    (s.flag cfg F.PINSP_CFG_EN = true ∧ q.last = none → Writes (.pinSpEdge j) s [Reg.PINSP_STAT] (fun t => t.pulse j.val = { q with count := q.count + 1, last := some s.now, since := s.now } ∧ bitOf (t.fld Reg.PINSP_STAT F.PINSP_STAT_LOST) j.val = false)) ∧
    (s.flag cfg F.PINSP_CFG_EN = true ∧ q.last = some u ∧ ¬ short u ∧ 1000000000 ≤ ns u * fmax → Writes (.pinSpEdge j) s [Reg.PINSP_STAT] (fun t => t.pulse j.val = { q with count := q.count + 1, freq := BitVec.ofNat 32 (min 0x7FFFFFFF (2 ^ 31 * 1000000000 / (ns u * fmax))), last := some s.now, since := s.now } ∧ bitOf (t.fld Reg.PINSP_STAT F.PINSP_STAT_LOST) j.val = false)) ∧
    (s.flag cfg F.PINSP_CFG_EN = true ∧ q.last = some u ∧ short u → Writes (.pinSpEdge j) s [] (fun t => t = s)) ∧
    (s.flag cfg F.PINSP_CFG_EN = true ∧ q.last = some u ∧ ¬ short u ∧ ns u * fmax < 1000000000 → Answers (.pinSpEdge j) s (fun t => t.pulse j.val = { q with last := some s.now, since := s.now } ∧ bitOf (t.fld Reg.PINSP_STAT F.PINSP_STAT_OVER) j.val = true ∧ Noted s t 0x01 (0x10 + j.val) 0x08)) ∧
    (s.flag cfg F.PINSP_CFG_EN = true ∧ s.fld (Reg.PINSP_TMO j.val) F.PINSP_TMO_TMO ≠ 0 ∧ (s.pulse j.val).since + s.fld (Reg.PINSP_TMO j.val) F.PINSP_TMO_TMO * 16000 ≤ s.now → Writes (.pinSpTimeout j) s [Reg.PINSP_STAT] (fun t => bitOf (t.fld Reg.PINSP_STAT F.PINSP_STAT_LOST) j.val = true ∧ t.pulse j.val = { q with freq := 0 }))

/-- While sensing acts: ADC_DEFERRED_SAMPLE lets a waiting request sample once the ADC accepts it, and not before.
ADC_CONVERSION_COMPLETE takes the oldest sample: its word, (code − offset) × gain ÷ 8 toward zero and saturated, goes to
AIN_RES with the sample's instant; a check code out of 8,144 to 8,240 stops the ADC with CONTAIN 0x02. ADC_ENABLE writes
ADC_EN, drops the waiting request of a disabled ADC and lets a stopped one recover; ADC_CLEAR_COUNTS clears every count. a
comparator becomes active as the voltage at its input leaves its window of code × 2.5 V ÷ 1,024, and inactive as it returns
past the threshold by the hysteresis, unless it is forced; a DAC mismatch forces it active with CONTAIN 0x07; a threshold
write takes effect and, read back correctly, ends the mismatch. AIN_STALE of a precharge input ends PRE_OK. Commands that
complete here (exec answers a next state with their own effect, under conditions on the state and the operands alone):
adcDeferredSample, adcConversionComplete, adcEnable, adcClearCounts, comparatorActive, comparatorInactive,
cmpThresholdWrite, cmpDacMismatch, ainStale. (06_power_stage.md R150, 06_power_stage.md R151, 06_power_stage.md R152,
06_power_stage.md R153, 06_power_stage.md R154, 06_power_stage.md R155, 06_power_stage.md R156, 06_power_stage.md R164,
06_power_stage.md R169) -/
def Obligations.ConvertersSampleAndCompare : Prop :=
  ∀ (s : State) (a : Fin 8) (code : BitVec 14) (data : BitVec 8) (k n : Fin 48) (v : Word) (uv : BitVec 22) (r : Sample) (rest : List Sample), s.acts .sensing →
    let q := s.adc a.val
    let i := a.val + 8 * r.pos
    let cfg := Reg.CMP_CFG k.val
    let act := s.flag cfg F.CMP_CFG_ACT
    let forced := s.flag cfg F.CMP_CFG_DACERR
    let hyst := (fun (h : Nat) => if h = 0 then 0 else if h = 1 then 5000 else if h = 2 then 10000 else 20000) (s.fld cfg F.CMP_CFG_HYST)
    let out := fun (h : Nat) => bitOf (s.fld cfg F.CMP_CFG_MODE) 0 = true ∧ s.fld (Reg.CMP_THR k.val) F.CMP_THR_HI * 2500000 < (uv.toNat + h) * 1024 ∨ bitOf (s.fld cfg F.CMP_CFG_MODE) 1 = true ∧ uv.toNat * 1024 < s.fld (Reg.CMP_THR k.val) F.CMP_THR_LO * 2500000 + h * 1024
    (q.waiting = some r ∧ s.adcFree a.val = true → Writes (.adcDeferredSample a) s [] (fun t => t.adc a.val = { q with waiting := none, last := some s.now, busy := q.busy ++ [{ r with at_ := s.now }] })) ∧
    (s.adcFree a.val = false → Writes (.adcDeferredSample a) s [] (fun t => t = s)) ∧
    (q.busy = r :: rest ∧ r.pos ≤ 5 ∧ q.stopped = false → Answers (.adcConversionComplete a code) s (fun t => (t.rd (Reg.AIN_RES i)).toInt = max (-2 ^ 31) (min (2 ^ 31 - 1) (Int.tdiv (((code.toNat : Int) - (BitVec.ofNat 16 (s.fld (Reg.AIN_CAL_OFS i) F.AIN_CAL_OFS_OFS)).toInt) * (s.fld (Reg.AIN_CAL_GAIN i) F.AIN_CAL_GAIN_GAIN : Int)) 8)) ∧ t.ain i = ⟨some s.now, r.at_⟩ ∧ (t.adc a.val).busy = rest)) ∧
    (q.busy = r :: rest ∧ r.pos = 6 ∧ q.stopped = false ∧ (code.toNat < 8144 ∨ 8240 < code.toNat) → Answers (.adcConversionComplete a code) s (fun t => t.adc a.val = { q with busy := rest, stopped := true } ∧ Contained s t 0x02 a.val 0x02)) ∧
    (q.busy = r :: rest ∧ r.pos = 6 ∧ q.stopped = false ∧ 8144 ≤ code.toNat ∧ code.toNat ≤ 8240 → Answers (.adcConversionComplete a code) s (fun t => t.adc a.val = { q with busy := rest, recover := false } ∧ (Tab.get (fun _ => 0) s.sense.left r.shot = 1 → Fires s t 0x02 r.grp))) ∧
    (Writes (.adcEnable data) s [Reg.SNS_CTRL] (fun t => t.fld Reg.SNS_CTRL F.SNS_CTRL_ADC_EN = data.toNat ∧ (data.getLsbD a.val = false → (t.adc a.val).waiting = none) ∧ (data.getLsbD a.val = true → s.adcEn a.val = false → q.stopped = true → (t.adc a.val).stopped = false ∧ (t.adc a.val).recover = true))) ∧
    (Writes .adcClearCounts s ((List.range 8).map Reg.ADC_STAT) (fun t => ∀ j : Fin 8, t.rd (Reg.ADC_STAT j.val) = 0)) ∧
    (forced = false ∧ act = false ∧ out 0 → Answers (.comparatorActive k uv) s (fun t => t.flag (Reg.CMP_CFG k.val) F.CMP_CFG_ACT = true ∧ Tab.get (fun _ => none) t.sense.level k.val = some uv.toNat ∧ (s.acts .loom → k.val < 32 → bitOf (t.fld Reg.LOOM_CMP_STAT_LO F.LOOM_CMP_STAT_LO_VAL) k.val = true))) ∧
    (forced = false ∧ act = false ∧ ¬ out 0 → Writes (.comparatorActive k uv) s [] (fun t => t.flag (Reg.CMP_CFG k.val) F.CMP_CFG_ACT = false ∧ Tab.get (fun _ => none) t.sense.level k.val = some uv.toNat)) ∧
    (forced = false ∧ act = true ∧ ¬ out hyst → Answers (.comparatorInactive k uv) s (fun t => t.flag (Reg.CMP_CFG k.val) F.CMP_CFG_ACT = false)) ∧
    (act = true ∧ (forced = true ∨ out hyst) → Writes (.comparatorInactive k uv) s [] (fun t => t.flag (Reg.CMP_CFG k.val) F.CMP_CFG_ACT = true)) ∧
    (Answers (.cmpThresholdWrite k v false) s (fun t => t.rd (Reg.CMP_THR k.val) = v &&& 0x03FF03FF ∧ t.flag (Reg.CMP_CFG k.val) F.CMP_CFG_DACERR = forced)) ∧
    (s.flag (Reg.CMP_CFG k.val) F.CMP_CFG_DACERR = true → Answers (.cmpThresholdWrite k v true) s (fun t => t.rd (Reg.CMP_THR k.val) = v &&& 0x03FF03FF ∧ t.flag (Reg.CMP_CFG k.val) F.CMP_CFG_DACERR = false)) ∧
    (Answers (.cmpDacMismatch k) s (fun t => t.flag (Reg.CMP_CFG k.val) F.CMP_CFG_DACERR = true ∧ t.flag (Reg.CMP_CFG k.val) F.CMP_CFG_ACT = true ∧ Contained s t 0x02 (0x10 + k.val) 0x07)) ∧
    (s.stale n.val = true ∧ s.fld Reg.SNS_DCL F.SNS_DCL_SRC_AIN = n.val → Writes (.ainStale n) s [Reg.SNS_DCL] (fun t => t.flag Reg.SNS_DCL F.SNS_DCL_PRE_OK = false))

/-- While sensing acts: XP_CHANGE_ALLOWED lets a held coil command that the interlock passes take effect; XP_HOLD_EXPIRY
discards one that it does not pass at its end, with REFUSED and NOTE 0x06, the coil as before. ISUM_CHECK of an energised
outlet with fresh inputs counts a difference of ISUM_TOL or more, the third in a row sets MISMATCH with NOTE 0x04, a match
ends the row, a stale input leaves it and sets STALE, and one within 10 µs of the last or while suspended does nothing.
ISUM_HOLD_END ends a suspension. WELD_CHECK_START of a target that cannot be checked gives ERROR at once, else the check
runs; at its end RESULT is CLEAR, WELDED with NOTE 0x05, UNSURE or ERROR by the least and the greatest difference seen,
ERROR where the target was closed or could not be checked. Commands that complete here (exec answers a next state with their
own effect, under conditions on the state and the operands alone): xpChangeAllowed, xpHoldExpiry, isumCheck, isumHoldEnd,
weldCheckStart, weldCheckEnd. (06_power_stage.md R158, 06_power_stage.md R159, 06_power_stage.md R160, 06_power_stage.md
R162, 06_power_stage.md R163, 06_power_stage.md R166) -/
def Obligations.MatrixAndChecksAct : Prop :=
  ∀ (s : State) (x : Fin 16) (o : Fin 8) (outlet : Bool) (tgt : Fin 16) (win : BitVec 8) (hc : HeldCoil) (w : WeldCheck) (l : Nat), s.acts .sensing →
    let xp := Reg.XP x.val
    let c := s.sumCheck o.val
    let gap := (((s.closedModules o.val).foldl (fun z m => z + s.ainRes (s.inIM m)) 0) - s.ainRes (s.inIO o.val)).natAbs
    let rested := match c.last with | some u => decide (u + 160000 ≤ s.now) | none => true
    let runs := s.flag Reg.SNS_CTRL F.SNS_CTRL_CHK_EN = true ∧ s.outlOn o.val = true ∧ s.energ o.val = true ∧ c.hold = none ∧ rested = true ∧ s.stale (s.inIO o.val) = false ∧ (∀ m ∈ s.closedModules o.val, s.stale (s.inIM m) = false)
    let tol := s.fld (Reg.OUTL_CHK o.val) F.OUTL_CHK_ISUM_TOL * 65536
    let dv := s.fld Reg.SNS_MXV F.SNS_MXV_WELD_DV * 65536
    let ends := fun (w : WeldCheck) => s.sense.weld = some w ∧ w.due ≤ s.now ∧ w.err = false ∧ s.weldClosed w.outlet w.tgt = false ∧ (∃ g : Fin 48, ∃ h : Fin 48, s.weldInputs w.outlet w.tgt = some (g.val, h.val) ∧ s.stale g.val = false ∧ s.stale h.val = false)
    let result := fun (t : State) => t.fld Reg.SNS_WCHK F.SNS_WCHK_RESULT
    (s.heldCoil x.val = some hc ∧ s.xpPasses x.val = true ∧ s.hs.behave = false ∧ s.owned = true ∧ (s.sw (s.xpHs x.val)).hold = none ∧ (s.sw (s.xpHs x.val)).barred = false → Answers (.xpChangeAllowed x) s (fun t => t.flag xp F.XP_STATE = hc.close ∧ t.heldCoil x.val = none ∧ t.flag xp F.XP_PEND = false ∧ (t.sumCheck (s.xpOut x.val)).hold = some (s.now + s.fld Reg.SNS_MX F.SNS_MX_CHK_HOLD * 16000000))) ∧
    (s.heldCoil x.val = some hc ∧ s.xpPasses x.val = false ∧ hc.due ≤ s.now → Answers (.xpHoldExpiry x) s (fun t => t.heldCoil x.val = none ∧ t.flag xp F.XP_REFUSED = true ∧ t.flag xp F.XP_STATE = s.flag xp F.XP_STATE ∧ Fires s t 0x02 (0x20 + x.val) ∧ Noted s t 0x02 0xFF 0x06)) ∧
    (runs ∧ tol ≤ gap ∧ 2 ≤ c.bad ∧ c.noted = false → Answers (.isumCheck o) s (fun t => t.flag (Reg.OUTL_CHK o.val) F.OUTL_CHK_MISMATCH = true ∧ (t.sumCheck o.val).noted = true ∧ (c.bad = 2 → Fires s t 0x02 (0x18 + o.val)) ∧ Noted s t 0x02 0xFF 0x04)) ∧
    (runs ∧ tol ≤ gap ∧ c.bad < 2 → Writes (.isumCheck o) s [] (fun t => t.sumCheck o.val = { c with bad := c.bad + 1, good := 0, last := some s.now })) ∧
    (s.flag Reg.SNS_CTRL F.SNS_CTRL_CHK_EN = true ∧ s.outlOn o.val = true ∧ s.energ o.val = true ∧ c.hold = none ∧ rested = true ∧ s.stale (s.inIO o.val) = true → Writes (.isumCheck o) s [Reg.OUTL_CHK o.val] (fun t => t.flag (Reg.OUTL_CHK o.val) F.OUTL_CHK_STALE = true ∧ t.sumCheck o.val = { c with last := some s.now })) ∧
    (c.hold ≠ none ∨ rested = false → Writes (.isumCheck o) s [] (fun t => t = s)) ∧
    (runs ∧ gap < tol → Writes (.isumCheck o) s [] (fun t => (t.sumCheck o.val).bad = 0 ∧ (t.sumCheck o.val).good = min 3 (c.good + 1) ∧ (t.sumCheck o.val).noted = (c.noted && decide (c.good + 1 < 3)))) ∧
    (s.reached c.hold = true → Writes (.isumHoldEnd o) s [] (fun t => t.sumCheck o.val = { c with hold := none })) ∧
    (s.sense.weld = none ∧ s.weldInputs outlet tgt.val = none → Writes (.weldCheckStart outlet tgt win) s [Reg.SNS_WCHK] (fun t => result t = 5 ∧ Fires s t 0x02 0x30 ∧ t.sense = s.sense)) ∧
    (s.sense.weld = none ∧ (s.weldInputs outlet tgt.val).isSome = true → Writes (.weldCheckStart outlet tgt win) s [Reg.SNS_WCHK] (fun t => result t = 1 ∧ t.sense.weld.map (fun w => (w.outlet, w.tgt, w.due)) = some (outlet, tgt.val, s.now + (if win = 0 then 1 else win.toNat) * 16000000))) ∧
    (ends w ∧ w.lo = some l ∧ dv ≤ l → Writes .weldCheckEnd s [Reg.SNS_WCHK] (fun t => result t = 2 ∧ t.sense.weld = none ∧ Fires s t 0x02 0x30)) ∧
    (ends w ∧ w.lo = some l ∧ l < dv ∧ w.hi < dv → Answers .weldCheckEnd s (fun t => result t = 3 ∧ t.sense.weld = none ∧ Noted s t 0x02 0xFF 0x05)) ∧
    (ends w ∧ w.lo = some l ∧ l < dv ∧ dv ≤ w.hi → Writes .weldCheckEnd s [Reg.SNS_WCHK] (fun t => result t = 4 ∧ t.sense.weld = none)) ∧
    (s.sense.weld = some w ∧ w.due ≤ s.now ∧ (w.err = true ∨ s.weldInputs w.outlet w.tgt = none ∨ s.weldClosed w.outlet w.tgt = true) → Writes .weldCheckEnd s [Reg.SNS_WCHK] (fun t => result t = 5 ∧ t.sense.weld = none)) ∧
    (ends w ∧ w.lo = none → Writes .weldCheckEnd s [Reg.SNS_WCHK] (fun t => result t = 5 ∧ t.sense.weld = none))

/-- While the Saltern acts: SAL_MODE_WRITE writes MODE and leaves the mode in force. SAL_DEM_WRITE writes the demand, clears
STALE and commits nothing. DEMAND_STALE of a demand that is due, and not fresh, sets STALE with NOTE 0x06. SAL_COMMIT_GO
sets GO. EMRG_LINE_RAISE at a rising edge with LINE_EN, in a cabinet that no other one leads, latches BASE and the greater
demand, EMRG_REQ the greater of E and SAL_EMRG_DEM; both set PEND and fire line 0x03. EMRG_CLR is refused while the line is
high with LINE_EN or while PEND is 1. SAL_STATE_WRITE is ignored with STATE_IGN in MODE 0b10, else it writes the state.
SALTERN_TABLE_ECC notes 0x01 or contains 0x02 in the table's cell. Commands that complete here (exec answers a next state
with their own effect, under conditions on the state and the operands alone): salModeWrite, salDemWrite, demandStale,
salCommitGo, emrgLineRaise, emrgReq, emrgClr, salStateWrite, salternTableEcc. (07_saltern.md R170, 07_saltern.md R174,
07_saltern.md R176, 07_saltern.md R177, 07_saltern.md R183, 07_saltern.md R185, 07_saltern.md R191, 07_saltern.md R193) -/
def Obligations.SalternTakesWritesAndRaises : Prop :=
  ∀ (s : State) (data : BitVec 2) (v : Word) (i : Fin 128) (off : BitVec 12) (double : Bool), s.acts .saltern →
    let stat := Reg.SAL_EMRG_STAT
    let old := s.fld stat F.SAL_EMRG_STAT_E
    let m := stateMask (Reg.SAL_CTRL + off.toNat)
    let leads := s.role = roleOff ∨ s.role = roleLeader
    let act := s.flag stat F.SAL_EMRG_STAT_ACT
    let pend := s.flag stat F.SAL_EMRG_STAT_PEND
    let k := Reg.SAL_CTRL + off.toNat
    let table := off.toNat % 4 = 0 ∧ (0x100 ≤ off.toNat ∧ off.toNat < 0x200 ∨ 0x400 ≤ off.toNat)
    let base := s.fld Reg.SAL_TOTAL F.SAL_TOTAL_TOTAL
    let keep := min 1024 (s.fld Reg.SAL_EMRG_CTRL F.SAL_EMRG_CTRL_KEEP)
    let e := s.lfld (Reg.SAL_PAN 0) F.SAL_PAN_LIMIT - base * keep / 1024
    (Writes (.salModeWrite data) s [Reg.SAL_CTRL] (fun t => t.fld Reg.SAL_CTRL F.SAL_CTRL_MODE = data.toNat ∧ t.sal = s.sal)) ∧
    (Writes (.salDemWrite i v) s [Reg.SAL_DEM i.val] (fun t => t.rd (Reg.SAL_DEM i.val) = v &&& 0xFFFFFF ∧ t.live = s.live)) ∧
    (s.demandOld i.val = true ∧ s.demandFresh i.val = false ∧ s.flag (Reg.SAL_DEM i.val) F.SAL_DEM_STALE = false → Writes (.demandStale i) s [Reg.SAL_DEM i.val, Reg.ERR_BLK_STATUS 3, Reg.ERR_BLK_STATUS 3 + 4, Reg.ERR_BLK_STATUS 3 + 8, Reg.ERR_BLK_STATUS 3 + 12] (fun t => t.flag (Reg.SAL_DEM i.val) F.SAL_DEM_STALE = true ∧ t.fld (Reg.SAL_DEM i.val) F.SAL_DEM_DEM = s.fld (Reg.SAL_DEM i.val) F.SAL_DEM_DEM ∧ Noted s t 0x03 1 0x06)) ∧
    (Writes .salCommitGo s [Reg.SAL_CMT] (fun t => t.flag Reg.SAL_CMT F.SAL_CMT_GO = true ∧ (s.sal.goAt = none → t.sal.goAt = some s.now) ∧ t.live = s.live)) ∧
    (s.gridLine = true ∧ s.sal.line = false ∧ s.flag Reg.SAL_EMRG_CTRL F.SAL_EMRG_CTRL_LINE_EN = true ∧ leads → Writes .emrgLineRaise s [Reg.SAL_EMRG_BASE, stat] (fun t => t.rd Reg.SAL_EMRG_BASE = BitVec.ofNat 32 base ∧ t.fld stat F.SAL_EMRG_STAT_E = max e old ∧ t.flag stat F.SAL_EMRG_STAT_PEND = true ∧ t.flag stat F.SAL_EMRG_STAT_ACT = act ∧ Fires s t 0x03 0x03)) ∧
    (s.gridLine = true ∧ s.sal.line = false ∧ (s.flag Reg.SAL_EMRG_CTRL F.SAL_EMRG_CTRL_LINE_EN = false ∨ ¬ leads) → Writes .emrgLineRaise s [] (fun t => t.sal = { s.sal with line := true } ∧ t.weft = s.weft)) ∧
    (Writes .emrgReq s [stat] (fun t => t.fld stat F.SAL_EMRG_STAT_E = max (s.fld Reg.SAL_EMRG_DEM F.SAL_EMRG_DEM_DEM) old ∧ t.flag stat F.SAL_EMRG_STAT_PEND = true ∧ t.flag stat F.SAL_EMRG_STAT_ACT = act ∧ Fires s t 0x03 0x03)) ∧
    (s.gridLine = true ∧ s.flag Reg.SAL_EMRG_CTRL F.SAL_EMRG_CTRL_LINE_EN = true ∨ pend = true → Writes .emrgClr s [stat] (fun t => t.flag stat F.SAL_EMRG_STAT_CLR_REFUSED = true ∧ t.fld stat F.SAL_EMRG_STAT_E = old ∧ t.sal = s.sal)) ∧
    ((s.gridLine = false ∨ s.flag Reg.SAL_EMRG_CTRL F.SAL_EMRG_CTRL_LINE_EN = false) ∧ pend = false → Writes .emrgClr s [] (fun t => t.sal = { s.sal with clrs := s.sal.clrs ++ [s.now] })) ∧
    (m ≠ 0 ∧ s.sal.mode = 2 ∧ k ≠ stat → Writes (.salStateWrite off v) s [Reg.SAL_STATUS] (fun t => t.flag Reg.SAL_STATUS F.SAL_STATUS_STATE_IGN = true ∧ t.sal = s.sal)) ∧
    (m ≠ 0 ∧ s.sal.mode ≠ 2 ∧ k ≠ stat ∧ k ≠ Reg.SAL_EMRG_REL → Writes (.salStateWrite off v) s [k] (fun t => t.rd k = s.rd k &&& ~~~(BitVec.ofNat 32 m) ||| v &&& BitVec.ofNat 32 m)) ∧
    (s.sal.mode ≠ 2 ∧ k = stat ∧ v.getLsbD 31 = true → Writes (.salStateWrite off v) s [k] (fun t => t.fld k F.SAL_EMRG_STAT_E = v.toNat % 2 ^ 24 ∧ t.flag k F.SAL_EMRG_STAT_ACT = true ∧ t.flag k F.SAL_EMRG_STAT_PEND = v.getLsbD 30)) ∧
    (table ∧ double = false → Writes (.salternTableEcc off double) s [Reg.ERR_BLK_STATUS 3, Reg.ERR_BLK_STATUS 3 + 4, Reg.ERR_BLK_STATUS 3 + 8, Reg.ERR_BLK_STATUS 3 + 12] (fun t => Noted s t 0x03 (salCell k) 0x01 ∧ t.sal = s.sal)) ∧
    (table ∧ double = true → Answers (.salternTableEcc off double) s (fun t => Contained s t 0x03 (salCell k) 0x02 ∧ t.sal.solve = none ∧ k ∈ t.sal.bad ∧ t.rd k = s.rd k))

/-- While the Saltern acts: at a new boundary later than the last solved one with MODE 0b10 a solve starts; a solve still
running is aborted with CONTAIN 0x03, but not by a boundary already solved; in the other modes none starts, MODE 0b00
emptying the queue. With CMT_MODE 0 and words that met the deadline the configuration commits whole, or is rejected whole
with CFG_ERR. A latch that is taken sets ACT; a clear that is taken ends the emergency. SOLVE_COMPLETE advances PNUM, ROT,
LAST_B and hands the set over with R187's apply time; with a bad table word it aborts instead. A set handed over is queued,
applied late, or discarded when four are pending; GRANT_APPLY applies a due set to all eight ports. Commands that complete
here (exec answers a next state with their own effect, under conditions on the state and the operands alone):
salternBoundary, solveComplete, grantSetHandover, grantApply. (07_saltern.md R170, 07_saltern.md R175, 07_saltern.md R176,
07_saltern.md R178, 07_saltern.md R179, 07_saltern.md R182, 07_saltern.md R184, 07_saltern.md R185, 07_saltern.md R187,
07_saltern.md R188, 07_saltern.md R189, 07_saltern.md R192) -/
def Obligations.SalternSolvesAndApplies : Prop :=
  ∀ (s : State) (b : Nat) (v : Solve) (x : GrantSet) (rest : List GrantSet) (a : Nat) (more : List Nat) (o : Fin 8), s.acts .saltern →
    let stat := Reg.SAL_EMRG_STAT
    let old := s.fld stat F.SAL_EMRG_STAT_E
    let cut := s.now - 16 * (s.tbNs 0 - b)
    let meets := s.boundaryNow = some b ∧ s.sal.bound ≠ some b
    let starts := meets ∧ s.sal.solve = none ∧ s.fld Reg.SAL_CTRL F.SAL_CTRL_MODE = 2 ∧ s.zw.leadFrom ≤ b ∧ s.lastSolved b < b ∧ s.sal.raises = []
    let act := s.flag stat F.SAL_EMRG_STAT_ACT
    let pend := s.flag stat F.SAL_EMRG_STAT_PEND
    let due := fun (u : GrantSet) => decide (u.apply_ ≤ s.tbNs 0)
    let same := ∀ a ∈ salRws, s.salAt cut a = s.rd a
    let from_ := fun (g : GrantSet) => s.now - 16 * (s.tbNs 0 - g.apply_)
    (starts ∧ s.fld Reg.SAL_CTRL F.SAL_CTRL_CMT_MODE = 0 ∧ same ∧ salCfgOk s.rd = false → Answers .salternBoundary s (fun t => t.flag Reg.SAL_STATUS F.SAL_STATUS_CFG_ERR = true ∧ (∀ z ∈ salRws, t.lv z = s.lv z ∧ t.rd z = s.rd z) ∧ t.sal.solve.isSome = true)) ∧
    (starts → Answers .salternBoundary s (fun t => t.sal.mode = 2 ∧ t.sal.solve.map (fun w => (w.bound, w.started)) = some (b, s.now) ∧ t.flag Reg.SAL_STATUS F.SAL_STATUS_BUSY = true ∧ t.rd Reg.SAL_PNUM = s.rd Reg.SAL_PNUM)) ∧
    (starts ∧ pend = true → Answers .salternBoundary s (fun t => t.flag stat F.SAL_EMRG_STAT_ACT = true ∧ t.flag stat F.SAL_EMRG_STAT_PEND = false ∧ t.sal.solve.map (fun w => (w.act, w.edem)) = some (true, old))) ∧
    (starts ∧ pend = false ∧ act = true ∧ s.sal.clrs.any (fun u => decide (u + 1600 ≤ cut)) = true → Answers .salternBoundary s (fun t => t.flag stat F.SAL_EMRG_STAT_ACT = false ∧ t.fld stat F.SAL_EMRG_STAT_E = 0 ∧ t.rd Reg.SAL_EMRG_REL = 0 ∧ t.rd Reg.SAL_EMRG_GE = 0 ∧ t.sal.solve.map (fun w => w.act) = some false)) ∧
    (starts ∧ pend = false ∧ act = true ∧ s.sal.clrs = [] ∧ s.gridLine = true → Answers .salternBoundary s (fun t => t.fld Reg.SAL_EMRG_REL F.SAL_EMRG_REL_REL_CNT = 0 ∧ t.flag stat F.SAL_EMRG_STAT_ACT = true)) ∧
    (meets ∧ s.sal.solve = some v ∧ s.lastSolved b < b ∧ v.bound < b → Answers .salternBoundary s (fun t => t.flag Reg.SAL_STATUS F.SAL_STATUS_ABORT = true ∧ Contained s t 0x03 0 0x03 ∧ t.rd Reg.SAL_PNUM = s.rd Reg.SAL_PNUM ∧ t.sal.hand = s.sal.hand)) ∧
    (meets ∧ s.sal.solve = some v ∧ s.fld Reg.SAL_CTRL F.SAL_CTRL_MODE = 2 ∧ s.zw.leadFrom ≤ b ∧ (b ≤ s.lastSolved b ∨ b ≤ v.bound) → Writes .salternBoundary s [] (fun t => t.sal = { s.sal with bound := some b, mode := 2, lastApply := if s.sal.mode = 2 then s.sal.lastApply else none })) ∧
    (meets ∧ s.sal.solve = none ∧ s.fld Reg.SAL_CTRL F.SAL_CTRL_MODE = 2 ∧ b < s.zw.leadFrom → Answers .salternBoundary s (fun t => t.sal.mode = 1 ∧ t.sal.solve = none ∧ t.rd stat = s.rd stat)) ∧
    (meets ∧ s.sal.solve = none ∧ s.fld Reg.SAL_CTRL F.SAL_CTRL_MODE ≠ 2 → Answers .salternBoundary s (fun t => t.sal.mode = (if s.fld Reg.SAL_CTRL F.SAL_CTRL_MODE = 0 then 0 else 1) ∧ t.sal.solve = none ∧ t.rd stat = s.rd stat ∧ (s.fld Reg.SAL_CTRL F.SAL_CTRL_MODE = 0 → t.sal.sets = []))) ∧
    (meets ∧ s.fld Reg.SAL_CTRL F.SAL_CTRL_MODE ≠ 2 ∧ s.fld Reg.SAL_CTRL F.SAL_CTRL_CMT_MODE = 0 ∧ same ∧ salCfgOk s.rd = true → Answers .salternBoundary s (fun t => (∀ a ∈ salRws, t.lv a = s.rd a ∧ t.rd a = s.rd a))) ∧
    (meets ∧ s.fld Reg.SAL_CTRL F.SAL_CTRL_MODE ≠ 2 ∧ s.fld Reg.SAL_CTRL F.SAL_CTRL_CMT_MODE = 0 ∧ same ∧ salCfgOk s.rd = false ∧ a ∈ salRws ∧ s.rd a ≠ s.lv a → Answers .salternBoundary s (fun t => t.flag Reg.SAL_STATUS F.SAL_STATUS_CFG_ERR = true ∧ (∀ z ∈ salRws, t.lv z = s.lv z ∧ t.rd z = s.rd z))) ∧
    (s.sal.solve = some v ∧ s.sal.bad = [] → Answers .solveComplete s (fun t => t.rd Reg.SAL_PNUM = s.rd Reg.SAL_PNUM + 1 ∧ t.rd Reg.SAL_ROT = BitVec.ofNat 32 ((s.fld Reg.SAL_ROT F.SAL_ROT_ROT + 1) % 128) ∧ t.rd Reg.SAL_LAST_B_S = BitVec.ofNat 32 (v.bound / 1000000000) ∧ t.rd Reg.SAL_LAST_B_NS = BitVec.ofNat 32 (v.bound % 1000000000) ∧ t.flag Reg.SAL_STATUS F.SAL_STATUS_BUSY = false ∧ t.sal.solve = none ∧ t.sal.hand.getLast?.map (fun x => (x.pnum, x.apply_)) = some ((s.rd Reg.SAL_PNUM + 1).toNat, match s.sal.lastApply with | some p => max (v.bound + s.salLead) (p + 1000) | none => v.bound + s.salLead) ∧ Fires s t 0x03 0x00)) ∧
    (s.sal.solve = some v ∧ s.sal.bad = a :: more → Answers .solveComplete s (fun t => t.flag Reg.SAL_STATUS F.SAL_STATUS_ABORT = true ∧ t.sal.solve = none ∧ t.sal.hand = s.sal.hand ∧ t.rd Reg.SAL_PNUM = s.rd Reg.SAL_PNUM ∧ t.rd Reg.SAL_ROT = s.rd Reg.SAL_ROT ∧ Contained s t 0x03 (salCell a) 0x02)) ∧
    (s.sal.hand = x :: rest ∧ s.sal.mode ≠ 0 ∧ s.tbNs 0 ≤ x.apply_ ∧ s.sal.sets.length < 4 → Writes .grantSetHandover s [Reg.SAL_APPLY_STAT] (fun t => t.sal = { s.sal with hand := rest, sets := queueSet x s.sal.sets } ∧ t.fld Reg.SAL_APPLY_STAT F.SAL_APPLY_STAT_DEPTH = s.sal.sets.length + 1)) ∧
    (s.sal.hand = x :: rest ∧ s.sal.mode ≠ 0 ∧ s.tbNs 0 ≤ x.apply_ ∧ 4 ≤ s.sal.sets.length → Writes .grantSetHandover s [Reg.SAL_APPLY_STAT, Reg.ERR_BLK_STATUS 3, Reg.ERR_BLK_STATUS 3 + 4, Reg.ERR_BLK_STATUS 3 + 8, Reg.ERR_BLK_STATUS 3 + 12] (fun t => t.sal = { s.sal with hand := rest } ∧ t.flag Reg.SAL_APPLY_STAT F.SAL_APPLY_STAT_FULL = true ∧ Noted s t 0x03 0 0x07)) ∧
    (s.sal.hand = x :: rest ∧ s.sal.mode ≠ 0 ∧ x.apply_ < s.tbNs 0 → Answers .grantSetHandover s (fun t => t.sal = { s.sal with hand := rest, applied := x.pnum, appliedAt := some (from_ x) } ∧ t.fld (Reg.SAL_APPLIED o.val) F.SAL_APPLIED_GRANT = x.grants.getD o.val 0 % 2 ^ 24 ∧ t.fld Reg.SAL_APPLY_STAT F.SAL_APPLY_STAT_LATE = min 255 (s.fld Reg.SAL_APPLY_STAT F.SAL_APPLY_STAT_LATE + 1) ∧ Noted s t 0x03 0 0x05)) ∧
    (s.sal.hand = [] ∧ s.zw.wait.find? (fun g => decide (g.apply_ ≤ s.tbNs 0 + 5000)) = some x ∧ s.sal.mode ≠ 0 ∧ s.tbNs 0 ≤ x.apply_ ∧ s.sal.sets.length < 4 → Writes .grantSetHandover s [Reg.SAL_APPLY_STAT] (fun t => t.sal = { s.sal with sets := queueSet x s.sal.sets } ∧ t.zw.wait = s.zw.wait.filter (fun g => decide (g ≠ x)))) ∧
    (s.sal.mode ≠ 0 ∧ s.sal.sets.find? due = some x → Writes .grantApply s [Reg.SAL_APPLY_STAT, Reg.SAL_APPLIED 0, Reg.SAL_APPLIED 1, Reg.SAL_APPLIED 2, Reg.SAL_APPLIED 3, Reg.SAL_APPLIED 4, Reg.SAL_APPLIED 5, Reg.SAL_APPLIED 6, Reg.SAL_APPLIED 7] (fun t => t.fld (Reg.SAL_APPLIED o.val) F.SAL_APPLIED_GRANT = x.grants.getD o.val 0 % 2 ^ 24 ∧ t.fld (Reg.SAL_APPLIED o.val) F.SAL_APPLIED_PNUM_LO = x.pnum % 256 ∧ t.sal = { s.sal with sets := s.sal.sets.erase x, applied := x.pnum, appliedAt := some (from_ x) })) ∧
    (s.sal.sets.find? due = none → Writes .grantApply s [] (fun t => t = s))

/-- Of every solve that completes with the pans of its enabled outlets valid (R178 commits no other): a grant is at most the
demand and at most the cap of its outlet, and 0 for an outlet that is off; the sum of the grants under a pan is at most that
pan's LIMIT; at the root that sum plus what the emergency requester takes is at most the LIMIT of pan 0; and SAL_TOTAL is
the sum of the grants. The first three of the results R181 lists. (07_saltern.md R172, 07_saltern.md R180, 07_saltern.md
R181, 07_saltern.md R182) -/
def Obligations.SolveKeepsEveryLimit : Prop :=
  ∀ (s : State) (v : Solve), s.acts .saltern ∧ s.sal.solve = some v ∧ s.sal.bad = [] ∧ (∀ i : Fin 128, s.outletOn i.val = true → (depthOf s.lv (s.lfld (Reg.SAL_OUT_CFG i.val) F.SAL_OUT_CFG_PAN)).isSome = true) →
    let pan := fun (i : Nat) => s.lfld (Reg.SAL_OUT_CFG i) F.SAL_OUT_CFG_PAN
    let under := fun (j : Nat) => (List.range 128).filter (fun i => s.outletOn i && (panPath (panParent s.lv) 5 (pan i)).contains j)
    let g := fun (t : State) (i : Nat) => t.fld (Reg.SAL_GRANT i) F.SAL_GRANT_GRANT
    (Answers .solveComplete s (fun t => (∀ i : Fin 128, g t i.val ≤ min (s.lfld (Reg.SAL_DEM i.val) F.SAL_DEM_DEM) (s.lfld (Reg.SAL_OUT_CAP i.val) F.SAL_OUT_CAP_CAP) ∧ (s.outletOn i.val = false → g t i.val = 0)) ∧ (∀ j : Fin 64, ((under j.val).map (g t)).sum ≤ s.lfld (Reg.SAL_PAN j.val) F.SAL_PAN_LIMIT) ∧ ((List.range 128).map (g t)).sum + t.fld Reg.SAL_EMRG_GE F.SAL_EMRG_GE_GE ≤ s.lfld (Reg.SAL_PAN 0) F.SAL_PAN_LIMIT ∧ t.fld Reg.SAL_TOTAL F.SAL_TOTAL_TOTAL = ((List.range 128).map (g t)).sum))

/-- While the engine acts in a role other than Off: DEMAND_SAMPLE at DEM_LEAD_US sends one demand frame with the boundary
and the eight sampled demands. A frame of good form of this cabinet itself, and off a chain a copy of a demand frame,
changes nothing; on a chain a frame goes on out of the other port. DEMAND_FRAME that R202 accepts raises the epoch, shows
its sender in ZW_PEER, and on the LEADER writes its eight demands; any other is counted and discarded with NOTE 0x02.
GRANT_FRAME that is accepted settles the role, ends the decay and waits for its handover, and the STANDBY saves its state; a
LEADER follows a higher epoch, and the frame of the new epoch ends a swap with SWAP_OK; any other is discarded.
ZW_BUFFER_ECC notes 0x01 or contains 0x09. Commands that complete here (exec answers a next state with their own effect,
under conditions on the state and the operands alone): demandSample, demandFrame, grantFrame, zwBufferEcc.
(08_zwidy_redundancy.md R197, 08_zwidy_redundancy.md R199, 08_zwidy_redundancy.md R200, 08_zwidy_redundancy.md R202,
08_zwidy_redundancy.md R204, 08_zwidy_redundancy.md R205, 08_zwidy_redundancy.md R209, 08_zwidy_redundancy.md R212,
08_zwidy_redundancy.md R214, 08_zwidy_redundancy.md R226) -/
def Obligations.ZwidyFramesAreSentAndTaken : Prop :=
  ∀ (s : State) (port : Fin 2) (etype : BitVec 16) (p : List Byte) (o : Fin 8) (i : Fin 128) (grant : Bool) (sw : SwapOut), s.acts .zwidy ∧ s.role ≠ 0 →
    let c := fieldOf p 1 1
    let net := Reg.ZW_NET
    let msg := fun (ports et : Nat) (grant : Bool) (q : List Byte) => OutMsg.zwidy ports et (s.fld net F.ZW_NET_PCP) (s.fld net F.ZW_NET_VID) grant q
    let b := (s.tbNs 0 / s.salPeriod + 1) * s.salPeriod
    let dem := (List.range 8).map (fun o => (s.demandWord o).toNat)
    let pay := (s.setFlag Reg.ZW_ROLE F.ZW_ROLE_READY s.zwReady).demandPayload b dem
    let samples := b ≤ s.tbNs 0 + s.fld Reg.ZW_TIME F.ZW_TIME_DEM_LEAD_US * 1000 ∧ s.zw.sampled ≠ some b
    let instant := s.frameNs (fieldOf p 0x0C 4) (fieldOf p 0x10 4)
    let e := fieldOf p 4 4
    let demCopy := (Tab.get (fun _ => []) s.zw.targets c).contains instant = true
    let demForm := s.frameOk etype.toNat 1 0x3C p = true ∧ demandReserved p = true
    let demGood := demForm ∧ s.epoch ≤ e
    let was := Tab.get (fun _ => none) s.zw.apply_ c
    let later := match was with | some a => decide (a < instant) | none => true
    let barred := match s.zw.only with | some w => decide (w.1 ≠ c) && decide (e ≤ w.2) | none => false
    let grForm := s.frameOk etype.toNat 2 0x22C p = true ∧ grantReserved p = true
    let grGood := grForm ∧ s.epoch ≤ e ∧ later = true ∧ barred = false
    let stby := fieldOf p 2 1
    let calls := fieldOf p 3 1 / 4 % 2 = 1 ∧ fieldOf p 0x1D 1 = 1 ∧ stby = s.cab
    let raised := BitVec.ofNat 32 (max s.epoch e + if calls then 1 else 0)
    let dw := fun (o : Nat) => fieldOf p (0x1C + 4 * o) 4
    (samples ∧ s.zwCtrl F.ZW_CTRL_PORTS ≠ 0 ∧ s.zwAuth = false → Answers .demandSample s (fun t => t.out = s.out ++ [msg (s.zwCtrl F.ZW_CTRL_PORTS) (s.fld net F.ZW_NET_ETYPE) false pay] ∧ t.zw.sampled = some b ∧ pay.length = 0x3C ∧ fieldOf pay 0 1 = 1 ∧ fieldOf pay 1 1 = s.cab ∧ fieldOf pay 0x10 4 = b % 1000000000 ∧ fieldOf pay (0x1C + 4 * o.val) 4 = (s.demandWord o.val).toNat)) ∧
    (c = s.cab ∧ demForm → Writes (.demandFrame port etype p) s [] (fun t => t = s)) ∧
    (c = s.cab ∧ grForm → Writes (.grantFrame port etype p) s [] (fun t => t = s)) ∧
    (c ≠ s.cab ∧ s.zwCtrl F.ZW_CTRL_PORTS ≠ 3 ∧ demForm ∧ demCopy → Writes (.demandFrame port etype p) s [] (fun t => t = s)) ∧
    (c ≠ s.cab ∧ s.zwCtrl F.ZW_CTRL_PORTS = 3 → Answers (.demandFrame port etype p) s (fun t => t.out = s.out ++ [msg (2 - port.val) etype.toNat false p]) ∧ Answers (.grantFrame port etype p) s (fun t => t.out = s.out ++ [msg (2 - port.val) etype.toNat true p])) ∧
    (c ≠ s.cab ∧ ¬demCopy ∧ demGood → Answers (.demandFrame port etype p) s (fun t => (t.rd Reg.ZW_EPOCH).toNat = max s.epoch e ∧ t.heard c = true ∧ t.flag (Reg.ZW_PEER c) F.ZW_PEER_SEEN = true ∧ t.fld (Reg.ZW_PEER c) F.ZW_PEER_PRIO = fieldOf p 0x14 1 % 16 ∧ t.role = s.role)) ∧
    (c ≠ s.cab ∧ ¬demCopy ∧ demGood ∧ s.role = 4 ∧ s.acts .saltern → Answers (.demandFrame port etype p) s (fun t => t.fld (Reg.SAL_DEM (8 * c + o.val)) F.SAL_DEM_DEM = (if 2 ^ 31 ≤ dw o.val then dw o.val % 2 ^ 24 else 0) ∧ t.flag (Reg.SAL_DEM (8 * c + o.val)) F.SAL_DEM_STALE = false)) ∧
    (¬demForm ∨ c ≠ s.cab ∧ ¬demCopy ∧ e < s.epoch → Answers (.demandFrame port etype p) s (fun t => t.fld Reg.ZW_CNT F.ZW_CNT_DISCARD = min 65535 (s.fld Reg.ZW_CNT F.ZW_CNT_DISCARD + 1) ∧ Noted s t 0x0E 0 0x02 ∧ t.zw = s.zw ∧ t.rd Reg.ZW_EPOCH = s.rd Reg.ZW_EPOCH)) ∧
    (c ≠ s.cab ∧ was ≠ some instant ∧ grGood ∧ s.role = 2 ∧ s.zw.swap = none ∧ s.zw.claim = false ∧ s.zw.last = none → Answers (.grantFrame port etype p) s (fun t => t.rd Reg.ZW_EPOCH = raised ∧ (calls → t.zw.claim = true) ∧ t.role = (if stby = s.cab then 3 else 2) ∧ t.flag Reg.ZW_ROLE F.ZW_ROLE_DECAY = false ∧ t.zw.wait = s.zw.wait ++ [s.frameSet p] ∧ t.zw.takeAt = none ∧ t.fld Reg.ZW_ROLE F.ZW_ROLE_LEADER_CAB = c)) ∧
    (c ≠ s.cab ∧ was ≠ some instant ∧ grGood ∧ s.role = 2 ∧ s.zw.swap = none ∧ s.zw.claim = false ∧ s.zw.last = none ∧ stby = s.cab ∧ s.acts .saltern ∧ s.sal.mode ≠ 2 → Answers (.grantFrame port etype p) s (fun t => (t.rd (Reg.SAL_GRANT i.val)).toNat = fieldOf p (0x2C + 4 * i.val) 4 ∧ (t.rd Reg.SAL_PNUM).toNat = fieldOf p 8 4 ∧ t.fld Reg.SAL_ROT F.SAL_ROT_ROT = fieldOf p 0x1C 1 % 128 ∧ t.fld Reg.SAL_EMRG_STAT F.SAL_EMRG_STAT_E = fieldOf p 0x20 4 % 2 ^ 24)) ∧
    (c ≠ s.cab ∧ was ≠ some instant ∧ grGood ∧ s.role = 4 ∧ s.zw.swap = none ∧ s.epoch < e → Answers (.grantFrame port etype p) s (fun t => t.role = (if stby = s.cab then 3 else 2) ∧ t.rd Reg.ZW_EPOCH = raised)) ∧
    (c ≠ s.cab ∧ was ≠ some instant ∧ grGood ∧ s.zw.swap = some sw ∧ sw.bh.isSome = true ∧ sw.epoch < e → Answers (.grantFrame port etype p) s (fun t => t.role = (if stby = s.cab then 3 else 2) ∧ t.flag Reg.ZW_STATUS F.ZW_STATUS_SWAP_OK = true ∧ t.flag Reg.ZW_SWAP F.ZW_SWAP_GO = false ∧ t.zw.swap = none ∧ t.rd Reg.ZW_EPOCH = raised)) ∧
    (¬grForm ∨ c ≠ s.cab ∧ (s.epoch > e ∨ later = false ∨ barred = true) → Answers (.grantFrame port etype p) s (fun t => t.fld Reg.ZW_CNT F.ZW_CNT_DISCARD = min 65535 (s.fld Reg.ZW_CNT F.ZW_CNT_DISCARD + 1) ∧ Noted s t 0x0E 1 0x02 ∧ t.zw = { s.zw with tookLast := s.zw.tookLast && (decide (grForm ∧ was = some instant) || barred) } ∧ t.role = s.role)) ∧
    (Writes (.zwBufferEcc grant false) s [Reg.ERR_BLK_STATUS 0x0E, Reg.ERR_BLK_STATUS 0x0E + 4, Reg.ERR_BLK_STATUS 0x0E + 8, Reg.ERR_BLK_STATUS 0x0E + 12] (fun t => Noted s t 0x0E (if grant then 1 else 0) 0x01 ∧ t.zw = s.zw) ∧ Answers (.zwBufferEcc grant true) s (fun t => Contained s t 0x0E (if grant then 1 else 0) 0x09 ∧ t.role = s.role))

/-- While the engine acts: a rise of EN enters LISTEN, a fall role Off. After LISTEN_MS a capable cabinet with quorum waits
for its claim, any other listens on; the claim raises the epoch and leads from the next boundary, and without quorum none is
made. A FOLLOWER without frames listens. At MISS_LIM misses with quorum the STANDBY starts its timer, and TAKEOVER leads
with epoch + 1; without quorum it does not. STEP_DOWN ends a leader without quorum. HOLD_EXPIRY starts the decay, whose sets
follow R217. A swap starts only on a LEADER with a standby; at its handover boundary the old leader follows, and one period
later without the new epoch it has failed and claims again. A device that loses OWNED goes to role Off; two claims conflict
and neither owns; a stuck line counts as asserted until it is cleared. In role Off a frame only goes on along the chain.
Commands that complete here (exec answers a next state with their own effect, under conditions on the state and the operands
alone): zwEnable, listenTimeout, claimWaitExpiry, followerTimeout, zwBoundary, takeover, stepDown, holdExpiry, zwSwapGo,
zwClrExcl, zwClaim, partnerLineQualified, partnerLineStuck, zwPairStuckClear, demandFrame, grantFrame.
(08_zwidy_redundancy.md R207, 08_zwidy_redundancy.md R208, 08_zwidy_redundancy.md R209, 08_zwidy_redundancy.md R211,
08_zwidy_redundancy.md R215, 08_zwidy_redundancy.md R217, 08_zwidy_redundancy.md R219, 08_zwidy_redundancy.md R220,
08_zwidy_redundancy.md R222, 08_zwidy_redundancy.md R223, 08_zwidy_redundancy.md R224) -/
def Obligations.ZwidyRolesAndOwnershipMove : Prop :=
  ∀ (s : State) (data : Word) (b u : Nat) (high : Bool) (sw : SwapOut) (port : Fin 2) (etype : BitVec 16) (p : List Byte), s.acts .zwidy →
    let leads := s.role = 4
    let cap := s.flag Reg.ZW_CTRL F.ZW_CTRL_LEAD_CAP
    let en := F.ZW_CTRL_EN.get data
    let pairEn := F.ZW_CTRL_PAIR_EN.get data
    let fresh := s.boundaryNow = some b ∧ s.zw.bound ≠ some b
    let pair := Reg.ZW_PAIR
    let next := (s.tbNs 0 / s.salPeriod + 1) * s.salPeriod
    let msg := fun (grant : Bool) => OutMsg.zwidy (2 - port.val) etype.toNat (s.fld Reg.ZW_NET F.ZW_NET_PCP) (s.fld Reg.ZW_NET F.ZW_NET_VID) grant p
    let step := fun (o : Nat) => let i := 8 * s.cab + o; if s.outletOn i = true ∧ s.lfld (Reg.SAL_OUT_RAMP i) F.SAL_OUT_RAMP_RD ≠ 0 then s.lfld (Reg.SAL_OUT_RAMP i) F.SAL_OUT_RAMP_RD else s.fld Reg.ZW_DSTEP F.ZW_DSTEP_DSTEP
    let floor := fun (o : Nat) => let i := 8 * s.cab + o; if s.outletOn i = true then s.lfld (Reg.SAL_OUT_FLOOR i) F.SAL_OUT_FLOOR_FLOOR else 0
    let decayed := fun (o : Nat) => max (min (s.zw.decay.getD o 0) (floor o)) (s.zw.decay.getD o 0 - step o)
    let quiet := s.zw.wait = [] ∧ s.sal.sets = [] ∧ s.sal.hand = [] ∧ s.flag Reg.ZW_ROLE F.ZW_ROLE_DECAY = false
    (s.flag Reg.ZW_CTRL F.ZW_CTRL_EN = false ∧ en = 1 ∧ pairEn = 0 → Answers (.zwEnable data) s (fun t => t.rd Reg.ZW_CTRL = data &&& 0xFF0F1F03 ∧ t.role = 1 ∧ t.zw.listenAt = some s.now)) ∧
    (s.flag Reg.ZW_CTRL F.ZW_CTRL_EN = true ∧ en = 0 → Answers (.zwEnable data) s (fun t => t.role = 0 ∧ t.zw.wait = [])) ∧
    (s.role = 1 ∧ s.zw.listenAt = some u ∧ u + s.listenMs ≤ s.now ∧ cap = true ∧ s.quorum = true → Writes .listenTimeout s [] (fun t => t.zw = { s.zw with listenAt := none, claimAt := some (s.now + ((15 - s.zwCtrl F.ZW_CTRL_PRIO) * 20 + s.cab) * ticksPerMs) })) ∧
    (s.role = 1 ∧ s.zw.listenAt = some u ∧ u + s.listenMs ≤ s.now ∧ (cap = false ∨ s.quorum = false) → Writes .listenTimeout s [] (fun t => t.zw = { s.zw with listenAt := some s.now })) ∧
    (s.role = 1 ∧ s.reached s.zw.claimAt = true ∧ s.quorum = true → Answers .claimWaitExpiry s (fun t => t.rd Reg.ZW_EPOCH = s.rd Reg.ZW_EPOCH + 1 ∧ t.zw.claim = true ∧ t.zw.leadFrom = next ∧ t.role = 1)) ∧
    (s.role = 1 ∧ s.reached s.zw.claimAt = true ∧ s.quorum = false → Writes .claimWaitExpiry s [] (fun t => t.zw = { s.zw with claimAt := none, listenAt := some s.now })) ∧
    (s.role = 2 ∧ s.zw.grantAt = some u ∧ u + s.listenMs ≤ s.now ∧ s.zw.swap = none → Answers .followerTimeout s (fun t => t.role = 1 ∧ t.zw.listenAt = some s.now)) ∧
    (fresh ∧ s.role ≠ 0 ∧ s.zw.claim = true ∧ s.zw.leadFrom ≤ b ∧ s.zw.swap = none → Answers .zwBoundary s (fun t => t.role = 4 ∧ t.zw.claim = false ∧ t.fld Reg.ZW_ROLE F.ZW_ROLE_LEADER_CAB = s.cab ∧ t.zw.bound = some b)) ∧
    (fresh ∧ s.role = 3 ∧ s.zw.got = false ∧ s.missLim ≤ s.zw.miss + 1 ∧ s.quorum = true ∧ s.zw.takeAt = none ∧ s.zw.claim = false ∧ s.zw.swap = none → Answers .zwBoundary s (fun t => t.zw.takeAt = some (s.now + s.takeMs) ∧ t.role = 3 ∧ t.zw.miss = s.zw.miss + 1)) ∧
    (fresh ∧ s.role = 3 ∧ s.quorum = false ∧ s.zw.claim = false ∧ s.zw.swap = none → Answers .zwBoundary s (fun t => t.zw.takeAt = none ∧ t.role = 3)) ∧
    (fresh ∧ s.role ≠ 0 ∧ s.zw.claim = false ∧ s.zw.swap = some sw ∧ sw.bh = some u ∧ u + s.salPeriod ≤ b ∧ sw.cab < 16 → Answers .zwBoundary s (fun t => t.flag Reg.ZW_STATUS F.ZW_STATUS_SWAP_FAIL = true ∧ bitOf (t.fld Reg.ZW_SWAP F.ZW_SWAP_EXCL) sw.cab = true ∧ t.zw.swap = none ∧ t.zw.claim = true ∧ t.rd Reg.ZW_EPOCH = s.rd Reg.ZW_EPOCH + 1 ∧ Noted s t 0x0E 1 0x07)) ∧
    (fresh ∧ s.role ≠ 0 ∧ s.zw.claim = false ∧ s.zw.swap = some sw ∧ sw.bh = some u ∧ u ≤ b ∧ b < u + s.salPeriod → Answers .zwBoundary s (fun t => t.role = 2 ∧ t.zw.claim = false ∧ t.zw.swap = some sw)) ∧
    (fresh ∧ s.role = 2 ∧ s.zw.claim = false ∧ s.zw.swap = none ∧ s.flag Reg.ZW_ROLE F.ZW_ROLE_DECAY = true → Answers .zwBoundary s (fun t => t.sal.hand.getLast?.map (fun x => (x.apply_, x.grants)) = some (b + s.salLead, (List.range 8).map decayed) ∧ t.zw.decay = (List.range 8).map decayed)) ∧
    (s.role = 3 ∧ s.zw.takeAt = some u ∧ u / ticksNet < s.now / ticksNet ∧ s.quorum = true → Answers .takeover s (fun t => t.role = 4 ∧ t.rd Reg.ZW_EPOCH = s.rd Reg.ZW_EPOCH + 1 ∧ t.flag Reg.ZW_STATUS F.ZW_STATUS_TAKEOVER = true ∧ (s.acts .saltern → t.fld Reg.SAL_CTRL F.SAL_CTRL_MODE = 2) ∧ t.sal.mode = s.sal.mode ∧ t.zw.leadFrom = next ∧ Noted s t 0x0E 1 0x05)) ∧
    (s.role = 3 ∧ s.zw.takeAt = some u ∧ u / ticksNet < s.now / ticksNet ∧ s.quorum = false → Writes .takeover s [] (fun t => t.zw = { s.zw with takeAt := none, leadFrom := next })) ∧
    (leads ∧ s.quorum = false ∧ s.quorumEnd + s.missTicks + s.takeMs ≤ s.now → Answers .stepDown s (fun t => t.role = 1 ∧ t.flag Reg.ZW_STATUS F.ZW_STATUS_STEPDOWN = true ∧ Noted s t 0x0E 1 0x05)) ∧
    (s.role ≠ 0 ∧ s.role ≠ 4 ∧ quiet ∧ s.sal.appliedAt = some u ∧ u + s.fld Reg.ZW_HOLD F.ZW_HOLD_HOLD_MS * ticksPerMs ≤ s.now → Answers .holdExpiry s (fun t => t.flag Reg.ZW_ROLE F.ZW_ROLE_DECAY = true ∧ t.zw.decay = (List.range 8).map (fun o => s.fld (Reg.SAL_APPLIED o) F.SAL_APPLIED_GRANT) ∧ Fires s t 0x0E 0x05 ∧ Noted s t 0x0E 1 0x06)) ∧
    (leads ∧ s.fld Reg.ZW_ROLE F.ZW_ROLE_STBY_CAB ≠ 0xFF ∧ s.zw.swap = none → Writes (.zwSwapGo data) s [Reg.ZW_SWAP] (fun t => t.flag Reg.ZW_SWAP F.ZW_SWAP_GO = true ∧ t.zw.swap.map (fun w => (w.left, w.bh)) = some (max 2 (F.ZW_SWAP_DELAY.get data), none))) ∧
    (s.fld Reg.ZW_ROLE F.ZW_ROLE_STBY_CAB = 0xFF ∨ ¬ leads → Writes (.zwSwapGo data) s [Reg.ZW_SWAP] (fun t => t.zw = s.zw)) ∧
    (Writes .zwClrExcl s [Reg.ZW_SWAP] (fun t => t.fld Reg.ZW_SWAP F.ZW_SWAP_EXCL = 0 ∧ t.zw = s.zw)) ∧
    (s.flag Reg.ZW_CTRL F.ZW_CTRL_PAIR_EN = true ∧ s.owned = true → Answers (.zwClaim false) s (fun t => t.flag pair F.ZW_PAIR_CLAIM = false ∧ t.owned = false ∧ t.role = 0)) ∧
    (s.flag Reg.ZW_CTRL F.ZW_CTRL_PAIR_EN = true ∧ s.flag pair F.ZW_PAIR_CLAIM = false ∧ s.flag pair F.ZW_PAIR_PARTNER = false ∧ s.flag Reg.ZW_CTRL F.ZW_CTRL_EN = true → Answers (.zwClaim true) s (fun t => t.flag pair F.ZW_PAIR_CLAIM = true ∧ t.owned = true ∧ t.role = 1)) ∧
    (s.flag Reg.ZW_CTRL F.ZW_CTRL_PAIR_EN = true ∧ s.flag pair F.ZW_PAIR_PARTNER = true ∧ s.zw.both = false → Answers (.zwClaim true) s (fun t => t.flag pair F.ZW_PAIR_CLAIM = true ∧ t.owned = false ∧ t.flag pair F.ZW_PAIR_CONFLICT = true ∧ Noted s t 0x0E 0 0x08)) ∧
    ((if s.fld pair F.ZW_PAIR_FILT_US = 0 then 1 else s.fld pair F.ZW_PAIR_FILT_US) ≤ u → Answers (.partnerLineQualified high u) s (fun t => t.flag pair F.ZW_PAIR_PARTNER = (high || s.flag pair F.ZW_PAIR_STUCK) ∧ t.flag pair F.ZW_PAIR_CLAIM = s.flag pair F.ZW_PAIR_CLAIM)) ∧
    (u < s.fld pair F.ZW_PAIR_FILT_US → Writes (.partnerLineQualified high u) s [] (fun t => t = s)) ∧
    (s.fld pair F.ZW_PAIR_RATE_LIM = 0 ∨ u ≤ s.fld pair F.ZW_PAIR_RATE_LIM → Writes (.partnerLineStuck u) s [] (fun t => t = s)) ∧
    (s.fld pair F.ZW_PAIR_RATE_LIM ≠ 0 ∧ s.fld pair F.ZW_PAIR_RATE_LIM < u → Answers (.partnerLineStuck u) s (fun t => t.flag pair F.ZW_PAIR_STUCK = true ∧ t.flag pair F.ZW_PAIR_PARTNER = true)) ∧
    (Answers .zwPairStuckClear s (fun t => t.flag pair F.ZW_PAIR_STUCK = false ∧ t.flag pair F.ZW_PAIR_PARTNER = s.zw.partner)) ∧
    (s.role = 0 ∧ fieldOf p 1 1 ≠ s.cab ∧ s.zwCtrl F.ZW_CTRL_PORTS = 3 → Writes (.demandFrame port etype p) s [] (fun t => t = s.emit (msg false)) ∧ Writes (.grantFrame port etype p) s [] (fun t => t = s.emit (msg true)))

/-- While the time unit acts and the fabric takes writes: a write of CFG, RATE or a step register of TB[3] by a slot other
than 8, as a command of its own or as a register write that the fabric serves at once, changes nothing but LEGAL_IGN, which
it sets: no bus error and no other register. The same write by slot 8 is taken: the register holds what was written, and
LEGAL_IGN is as before. Commands that complete here (exec answers a next state with their own effect, under conditions on
the state and the operands alone): tbSrcWrite, tbRateWrite, tbStepGo, registerWrite. (09_time.md R232) -/
def Obligations.LegalClockTakesWritesOfSlotEightOnly : Prop :=
  ∀ (s : State) (slot : Fin 19) (abs : Bool) (v : Word), s.acts .time ∧ s.acts .fabric ∧ s.fabric.closed = false →
    let served := fun (k : Nat) => ∀ r ∈ [Reg.TB_CFG 3, Reg.TB_RATE 3, Reg.TB_STEP_S 3, Reg.TB_STEP_NS 3, Reg.TB_STEP_SH 3, Reg.TB_STEP_CMD 3], s.goesAtOnce k (BitVec.ofNat 32 r) 4 = true
    (slot.val ≠ 8 → Answers (.tbSrcWrite 3 slot v) s (fun t => t = s.setFlag (Reg.TB_STATE 3) F.TB_STATE_LEGAL_IGN true) ∧ Answers (.tbRateWrite 3 slot v) s (fun t => t = s.setFlag (Reg.TB_STATE 3) F.TB_STATE_LEGAL_IGN true) ∧ Answers (.tbStepGo 3 slot abs) s (fun t => t = s.setFlag (Reg.TB_STATE 3) F.TB_STATE_LEGAL_IGN true)) ∧
    (slot.val ≠ 8 ∧ served slot.val → Answers (.registerWrite slot (BitVec.ofNat 32 (Reg.TB_CFG 3)) v 2) s (fun t => t = s.setFlag (Reg.TB_STATE 3) F.TB_STATE_LEGAL_IGN true) ∧ Answers (.registerWrite slot (BitVec.ofNat 32 (Reg.TB_RATE 3)) v 2) s (fun t => t = s.setFlag (Reg.TB_STATE 3) F.TB_STATE_LEGAL_IGN true) ∧ Answers (.registerWrite slot (BitVec.ofNat 32 (Reg.TB_STEP_S 3)) v 2) s (fun t => t = s.setFlag (Reg.TB_STATE 3) F.TB_STATE_LEGAL_IGN true) ∧ Answers (.registerWrite slot (BitVec.ofNat 32 (Reg.TB_STEP_NS 3)) v 2) s (fun t => t = s.setFlag (Reg.TB_STATE 3) F.TB_STATE_LEGAL_IGN true) ∧ Answers (.registerWrite slot (BitVec.ofNat 32 (Reg.TB_STEP_SH 3)) v 2) s (fun t => t = s.setFlag (Reg.TB_STATE 3) F.TB_STATE_LEGAL_IGN true) ∧ Answers (.registerWrite slot (BitVec.ofNat 32 (Reg.TB_STEP_CMD 3)) v 2) s (fun t => t = s.setFlag (Reg.TB_STATE 3) F.TB_STATE_LEGAL_IGN true)) ∧
    (Answers (.tbSrcWrite 3 8 v) s (fun t => t.rd (Reg.TB_CFG 3) = v &&& 0xFFFF0FB7) ∧ Writes (.tbRateWrite 3 8 v) s [Reg.TB_RATE 3, Reg.TB_STATE 3] (fun t => t.rd (Reg.TB_RATE 3) = v ∧ t.flag (Reg.TB_STATE 3) F.TB_STATE_LEGAL_IGN = s.flag (Reg.TB_STATE 3) F.TB_STATE_LEGAL_IGN) ∧ Answers (.tbStepGo 3 8 abs) s (fun t => t.flag (Reg.TB_STEP_CMD 3) F.TB_STEP_CMD_ABS = abs ∧ (s.fld (Reg.TB_STEP_NS 3) F.TB_STEP_NS_VAL < 1000000000 → (t.tb 3).step.isSome = true))) ∧
    (served 8 → Answers (.registerWrite 8 (BitVec.ofNat 32 (Reg.TB_CFG 3)) v 2) s (fun t => t.rd (Reg.TB_CFG 3) = v &&& 0xFFFF0FB7) ∧ Answers (.registerWrite 8 (BitVec.ofNat 32 (Reg.TB_RATE 3)) v 2) s (fun t => t.rd (Reg.TB_RATE 3) = v) ∧ Answers (.registerWrite 8 (BitVec.ofNat 32 (Reg.TB_STEP_S 3)) v 2) s (fun t => t.rd (Reg.TB_STEP_S 3) = v) ∧ Answers (.registerWrite 8 (BitVec.ofNat 32 (Reg.TB_STEP_NS 3)) v 2) s (fun t => t.fld (Reg.TB_STEP_NS 3) F.TB_STEP_NS_VAL = v.toNat % 2 ^ 30) ∧ Answers (.registerWrite 8 (BitVec.ofNat 32 (Reg.TB_STEP_SH 3)) v 2) s (fun t => t.fld (Reg.TB_STEP_SH 3) F.TB_STEP_SH_VAL = v.toNat % 2 ^ 16) ∧ Answers (.registerWrite 8 (BitVec.ofNat 32 (Reg.TB_STEP_CMD 3)) v 2) s (fun t => t.flag (Reg.TB_STEP_CMD 3) F.TB_STEP_CMD_ABS = v.getLsbD 1))

/-- While the time unit acts: TB_RATE_WRITE sets the rate of a base with a source of its own, clamped to ±1,000 ppm with
RATE_CLAMP, and of its followers, and moves no time. TB_STEP_GO schedules an absolute or relative step, or sets SRC_ERR
where STEP_NS is 10^9 or more; TB_STEP_APPLY makes it, and moves the followers of the base by as much. TB_SRC_WRITE gives
the base the source R231 gives, with SRC_ERR where that is refused. TB_OFFSET sets OFFSET, moves STATE by LOCK_N and
LOCK_NS, and with SERVO_EN steps or sets RATE by R236. TB_HOLDOVER and TB_HOLD_EXPIRED enter HOLDOVER and HOLD_EXP when due.
TB_TIME_READ latches the time. Commands that complete here (exec answers a next state with their own effect, under
conditions on the state and the operands alone): tbRateWrite, tbStepGo, tbStepApply, tbSrcWrite, tbOffset, tbHoldover,
tbHoldExpired, tbTimeRead. (09_time.md R230, 09_time.md R231, 09_time.md R234, 09_time.md R235, 09_time.md R236, 09_time.md
R237, 09_time.md R247, 09_time.md R250) -/
def Obligations.TimeBasesFollowTheirSources : Prop :=
  ∀ (s : State) (n m : Fin 4) (slot : Fin 19) (abs : Bool) (v : Word) (p : TbStep) (q : Int) (rest : List Int) (u : Nat), s.acts .time →
    let b := s.tb n.val
    let may := n.val ≠ 3 ∨ slot.val = 8
    let st := s.tbState n.val
    let own := b.src = .soft ∨ b.src = .ptp ∨ b.src = .can
    let fed := b.src = .ptp ∨ b.src = .can
    let ns := s.fld (Reg.TB_STEP_NS n.val) F.TB_STEP_NS_VAL
    let src := F.TB_CFG_SRC.get v
    let f := F.TB_CFG_FOLLOW.get v
    let lim := s.fld (Reg.TB_LOCK n.val) F.TB_LOCK_LOCK_NS
    let cnt := s.fld (Reg.TB_LOCK n.val) F.TB_LOCK_LOCK_N
    let us := s.fld (Reg.TB_CFG n.val) F.TB_CFG_STEP_US
    let servo := s.flag (Reg.TB_CFG n.val) F.TB_CFG_SERVO_EN
    let tus := s.tbInterval n.val / ticksPerUs
    let g := Int.tdiv (q * 1000000000) tus
    let integ := b.integ + Int.tdiv g 8
    let taken := (s.tb 0).src = .ptp ∧ n.val ≠ 0 ∨ (s.tb 1).src = .ptp ∧ n.val ≠ 1 ∨ (s.tb 2).src = .ptp ∧ n.val ≠ 2 ∨ (s.tb 3).src = .ptp ∧ n.val ≠ 3
    let stat := Reg.TB_STATE n.val
    (may ∧ own → Writes (.tbRateWrite n slot v) s [Reg.TB_RATE n.val, stat] (fun t => t.rd (Reg.TB_RATE n.val) = v ∧ (t.tb n.val).rate = max (-1000000000) (min 1000000000 v.toInt) ∧ t.tbVal n.val = s.tbVal n.val ∧ ((s.tb m.val).src = .follow n.val → (t.tb m.val).rate = (t.tb n.val).rate) ∧ t.flag stat F.TB_STATE_RATE_CLAMP = (s.flag stat F.TB_STATE_RATE_CLAMP || decide (v.toInt < -1000000000 ∨ 1000000000 < v.toInt)))) ∧
    (may ∧ ns < 1000000000 → Answers (.tbStepGo n slot abs) s (fun t => t.tb n.val = { b with step := some ⟨abs, (if abs then (((s.fld (Reg.TB_STEP_SH n.val) F.TB_STEP_SH_VAL * 2 ^ 32 + (s.rd (Reg.TB_STEP_S n.val)).toNat : Nat) : Int)) else (s.rd (Reg.TB_STEP_S n.val)).toInt) * 1000000000 + ns, s.now + 3200⟩ })) ∧
    (may ∧ 1000000000 ≤ ns → Writes (.tbStepGo n slot abs) s [stat, Reg.TB_STEP_CMD n.val] (fun t => t.flag stat F.TB_STATE_SRC_ERR = true ∧ t.time = s.time)) ∧
    (b.step = some p → Answers (.tbStepApply n) s (fun t => t.tbVal n.val = (if p.abs then (p.ns.toNat * 65536) % (2 ^ 48 * tbSecond) else (((s.tbVal n.val : Int) + p.ns * 65536) % ((2 ^ 48 * tbSecond : Nat) : Int)).toNat) ∧ (t.tb n.val).step = none ∧ t.flag stat F.TB_STATE_STEPPED = true ∧ (m ≠ n → (s.tb m.val).src ≠ .follow n.val → t.tb m.val = s.tb m.val) ∧ (m ≠ n → (s.tb m.val).src = .follow n.val → t.tbVal m.val = (s.tbVal m.val + (t.tbVal n.val + tbSpan - s.tbVal n.val)) % tbSpan))) ∧
    (may ∧ src = 0 → Answers (.tbSrcWrite n slot v) s (fun t => (t.tb n.val).src = .soft ∧ t.rd (Reg.TB_CFG n.val) = v &&& 0xFFFF0FB7)) ∧
    (may ∧ src = 1 ∧ ¬taken → Answers (.tbSrcWrite n slot v) s (fun t => (t.tb n.val).src = .ptp)) ∧
    (may ∧ src = 1 ∧ taken → Answers (.tbSrcWrite n slot v) s (fun t => (t.tb n.val).src = .soft ∧ t.flag stat F.TB_STATE_SRC_ERR = true)) ∧
    (may ∧ src = 2 ∧ f ≠ n.val ∧ s.fld (Reg.TB_CFG f) F.TB_CFG_SRC ≠ 2 ∧ b.src ≠ .follow f → Answers (.tbSrcWrite n slot v) s (fun t => (t.tb n.val).src = .follow f ∧ (t.tb n.val).rate = (s.tb f).rate)) ∧
    (may ∧ src = 2 ∧ (f = n.val ∨ s.fld (Reg.TB_CFG f) F.TB_CFG_SRC = 2) → Answers (.tbSrcWrite n slot v) s (fun t => (t.tb n.val).src = .soft ∧ t.flag stat F.TB_STATE_SRC_ERR = true)) ∧
    (may ∧ src = 3 → Answers (.tbSrcWrite n slot v) s (fun t => (t.tb n.val).src = .can)) ∧
    (may ∧ 3 < src → Answers (.tbSrcWrite n slot v) s (fun t => (t.tb n.val).src = .soft ∧ t.flag stat F.TB_STATE_SRC_ERR = true)) ∧
    (may ∧ src ≠ s.fld (Reg.TB_CFG n.val) F.TB_CFG_SRC → Answers (.tbSrcWrite n slot v) s (fun t => t.tbState n.val = 0)) ∧
    (b.theta = q :: rest ∧ fed → Answers (.tbOffset n) s (fun t => t.rd (Reg.TB_OFFSET n.val) = BitVec.ofInt 32 q ∧ (t.tb n.val).theta = rest ∧ (t.tb n.val).lastOff = s.now)) ∧
    (b.theta = q :: rest ∧ fed ∧ (st = 0 ∨ st = 3 ∨ st = 4) ∧ 2 ≤ cnt → Answers (.tbOffset n) s (fun t => t.tbState n.val = 1)) ∧
    (b.theta = q :: rest ∧ fed ∧ st = 2 ∧ lim ≤ q.natAbs ∧ 1 ≤ cnt → Answers (.tbOffset n) s (fun t => t.tbState n.val = 1)) ∧
    (b.theta = q :: rest ∧ fed ∧ st = 1 ∧ q.natAbs < lim ∧ cnt ≤ b.lockCnt + 1 → Answers (.tbOffset n) s (fun t => t.tbState n.val = 2)) ∧
    (b.theta = q :: rest ∧ fed ∧ servo = true ∧ us ≠ 0 ∧ us * 1000 ≤ q.natAbs → Answers (.tbOffset n) s (fun t => (t.tb n.val).step = some ⟨false, -q, s.now + 3200⟩ ∧ t.rd (Reg.TB_RATE n.val) = s.rd (Reg.TB_RATE n.val))) ∧
    (b.theta = q :: rest ∧ fed ∧ servo = true ∧ q.natAbs < us * 1000 ∧ tus ≠ 0 ∧ st ≠ 0 ∧ -1000000000 ≤ b.rate0 - 100000000 ∧ b.rate0 + 100000000 ≤ 1000000000 → Answers (.tbOffset n) s (fun t => (t.tb n.val).integ = integ ∧ (t.tb n.val).rate = max (b.rate0 - 100000000) (min (b.rate0 + 100000000) (b.rate0 - (Int.tdiv g 2 + integ))) ∧ t.rd (Reg.TB_RATE n.val) = BitVec.ofInt 32 (t.tb n.val).rate)) ∧
    (b.theta = q :: rest ∧ fed ∧ servo = false → Answers (.tbOffset n) s (fun t => t.rd (Reg.TB_RATE n.val) = s.rd (Reg.TB_RATE n.val) ∧ (t.tb n.val).rate = b.rate ∧ t.tbVal n.val = s.tbVal n.val)) ∧
    (fed ∧ (st = 1 ∨ st = 2) ∧ b.lastOff + (if s.fld (Reg.TB_CFG n.val) F.TB_CFG_HOLD_TMO = 0 then 1 else s.fld (Reg.TB_CFG n.val) F.TB_CFG_HOLD_TMO) * s.tbInterval n.val ≤ s.now → Answers (.tbHoldover n) s (fun t => t.tbState n.val = 3 ∧ (t.tb n.val).holdAt = some s.now ∧ t.tbVal n.val = s.tbVal n.val ∧ (servo = false → (t.tb n.val).rate = b.rate))) ∧
    (st = 3 ∧ b.holdAt = some u ∧ s.fld (Reg.TB_HOLD n.val) F.TB_HOLD_HOLD_S ≠ 0 ∧ u + s.fld (Reg.TB_HOLD n.val) F.TB_HOLD_HOLD_S * ticksPerS ≤ s.now → Writes (.tbHoldExpired n) s [stat, Reg.ERR_BLK_STATUS 9, Reg.ERR_BLK_STATUS 9 + 4, Reg.ERR_BLK_STATUS 9 + 8, Reg.ERR_BLK_STATUS 9 + 12] (fun t => t.tbState n.val = 4 ∧ t.time = s.time ∧ Noted s t 0x09 n.val 0x03)) ∧
    (Writes (.tbTimeRead n) s [Reg.TB_TIME_NS n.val, Reg.TB_TIME_S n.val, Reg.TB_TIME_X n.val] (fun t => t.rd (Reg.TB_TIME_NS n.val) = BitVec.ofNat 32 (s.tbVal n.val / 65536 % 1000000000) ∧ t.rd (Reg.TB_TIME_S n.val) = BitVec.ofNat 32 (s.tbVal n.val / 65536 / 1000000000) ∧ t.rd (Reg.TB_TIME_X n.val) = BitVec.ofNat 32 (s.tbVal n.val % 65536 * 65536 + s.tbVal n.val / 65536 / 1000000000 / 2 ^ 32)))

/-- While the time unit acts: TOUT_ARM of a one-shot plans START, or where START has passed makes the output active at once
with LATE; of a periodic output it plans the first instant of the sequence not before the present time, and a WIDTH of
PERIOD or more acts as PERIOD − 8 with CLAMP. TOUT_DISARM drives it inactive. TOUT_ACTIVE and TOUT_INACTIVE move it at its
instants and not before. TCAP_EDGE begins or ends a qualification; TCAP_STAMP after FILT × 8 ns stamps a selected edge less
the filter delay, or sets OVF where four stamps wait, and STUCK with NOTE 0x04 beyond RATE_LIM. A capture that does not run
(EN 0, or STUCK) stamps nothing. TCAP_READ takes the oldest stamp. Commands that complete here (exec answers a next state
with their own effect, under conditions on the state and the operands alone): toutArm, toutDisarm, toutActive, toutInactive,
tcapEdge, tcapStamp, tcapRead. (09_time.md R244, 09_time.md R245, 09_time.md R246, 09_time.md R247, 09_time.md R248) -/
def Obligations.TimedOutputsAndCapturesAct : Prop :=
  ∀ (s : State) (k : Fin 8) (data : Word) (rising : Bool) (e : EdgeWait) (z : Stamp) (rest : List Stamp) (u : Nat), s.acts .time →
    let x := s.tout k.val
    let y := s.tcap k.val
    let tbn := F.TOUT_CFG_TB.get data
    let now := s.tbNs tbn
    let sec := s.tbSec tbn / 2 ^ 32 * 2 ^ 32 + (s.rd (Reg.TOUT_START_S k.val)).toNat
    let start := sec * 1000000000 + (s.rd (Reg.TOUT_START_NS k.val)).toNat
    let per := (s.rd (Reg.TOUT_PERIOD k.val)).toNat
    let width := (s.rd (Reg.TOUT_WIDTH k.val)).toNat
    let on := s.flag (Reg.TCAP_CFG k.val) F.TCAP_CFG_EN = true ∧ s.flag (Reg.TCAP_STAT k.val) F.TCAP_STAT_STUCK = false
    let filt := if s.fld (Reg.TCAP_CFG k.val) F.TCAP_CFG_FILT = 0 then 1 else s.fld (Reg.TCAP_CFG k.val) F.TCAP_CFG_FILT
    let due := on ∧ y.edge = some e ∧ e.since + filt * 128 ≤ s.now
    let base := s.fld (Reg.TCAP_CFG k.val) F.TCAP_CFG_TB
    let jumped := decide ((s.tb base).stepCyc = some (s.now / ticksNet))
    let lim := s.fld (Reg.TCAP_CFG k.val) F.TCAP_CFG_RATE_LIM
    let many := (y.edges.filter (fun u => s.now < u + ticksPerMs)).length
    let sel := bitOf (s.fld (Reg.TCAP_CFG k.val) F.TCAP_CFG_EDGE) (if e.rising then 0 else 1)
    let val := (s.tbVal base + 2 ^ 48 * tbSecond - filt * 8 * 65536) % (2 ^ 48 * tbSecond)
    (F.TOUT_CFG_PER.get data = 0 ∧ now ≤ start → Writes (.toutArm k data) s [Reg.TOUT_CFG k.val] (fun t => t.rd (Reg.TOUT_CFG k.val) = data &&& 0xE3000000 ||| 0x80000000 ∧ (t.tout k.val).next = some start ∧ (t.tout k.val).active = x.active ∧ (t.tout k.val).width = width)) ∧
    (F.TOUT_CFG_PER.get data = 0 ∧ start < now → Writes (.toutArm k data) s [Reg.TOUT_CFG k.val, Reg.TOUT_STAT k.val] (fun t => (t.tout k.val).active = true ∧ (t.tout k.val).off = some (now + width) ∧ t.flag (Reg.TOUT_STAT k.val) F.TOUT_STAT_LATE = true ∧ Fires s t 0x09 (8 + k.val))) ∧
    (F.TOUT_CFG_PER.get data = 1 ∧ 100 ≤ per ∧ start < now → Writes (.toutArm k data) s [Reg.TOUT_CFG k.val, Reg.TOUT_STAT k.val] (fun t => (t.tout k.val).next = some (start + (now - start + per - 1) / per * per) ∧ (t.tout k.val).width = (if per ≤ width then per - 8 else width) ∧ t.flag (Reg.TOUT_STAT k.val) F.TOUT_STAT_CLAMP = (s.flag (Reg.TOUT_STAT k.val) F.TOUT_STAT_CLAMP || decide (per ≤ width)) ∧ t.fld (Reg.TOUT_STAT k.val) F.TOUT_STAT_MISS = min 65535 (s.fld (Reg.TOUT_STAT k.val) F.TOUT_STAT_MISS + (now - start + per - 1) / per))) ∧
    (F.TOUT_CFG_PER.get data = 1 ∧ 100 ≤ per ∧ now ≤ start → Writes (.toutArm k data) s [Reg.TOUT_CFG k.val, Reg.TOUT_STAT k.val] (fun t => (t.tout k.val).next = some start ∧ (t.tout k.val).period = per)) ∧
    (Writes (.toutDisarm k data) s [Reg.TOUT_CFG k.val] (fun t => t.flag (Reg.TOUT_CFG k.val) F.TOUT_CFG_EN = false ∧ t.tout k.val = { x with active := false, next := none, off := none })) ∧
    (s.toutArmed k.val = true ∧ x.next = some u ∧ u ≤ s.tbNs (s.toutTb k.val) → Writes (.toutActive k) s [] (fun t => (t.tout k.val).active = true ∧ (t.tout k.val).off = some (u + x.width) ∧ (t.tout k.val).next = (if s.toutPer k.val then some (u + x.period) else none) ∧ Fires s t 0x09 (8 + k.val))) ∧
    (x.next = some u ∧ s.tbNs (s.toutTb k.val) < u → Writes (.toutActive k) s [] (fun t => t = s)) ∧
    (x.off = some u ∧ u ≤ s.tbNs (s.toutTb k.val) → Writes (.toutInactive k) s [] (fun t => t.tout k.val = { x with active := false, off := none })) ∧
    (x.off = some u ∧ s.tbNs (s.toutTb k.val) < u → Writes (.toutInactive k) s [] (fun t => t = s)) ∧
    (on ∧ rising ≠ y.level → Writes (.tcapEdge k rising) s [] (fun t => t.tcap k.val = { y with edge := some ⟨rising, s.now, jumped⟩ })) ∧
    (on ∧ rising = y.level → Writes (.tcapEdge k rising) s [] (fun t => t.tcap k.val = { y with edge := none })) ∧
    (¬on → Writes (.tcapEdge k rising) s [] (fun t => t.tcap k.val = { y with edge := none, level := rising })) ∧
    (¬on ∧ y.edge = some e → Writes (.tcapStamp k) s [] (fun t => t.tcap k.val = { y with edge := none, level := e.rising })) ∧
    (due ∧ sel = true ∧ y.fifo.length < 4 ∧ (lim = 0 ∨ many < lim) → Writes (.tcapStamp k) s [Reg.TCAP_STAT k.val] (fun t => (t.tcap k.val).fifo = y.fifo ++ [⟨val, e.rising, e.stepped || jumped, s.now / ticksNet⟩] ∧ (t.tcap k.val).level = e.rising ∧ (t.tcap k.val).edge = none ∧ t.fld (Reg.TCAP_STAT k.val) F.TCAP_STAT_DEPTH = y.fifo.length + 1 ∧ Fires s t 0x09 (0x10 + k.val))) ∧
    (due ∧ sel = true ∧ 4 ≤ y.fifo.length ∧ (lim = 0 ∨ many < lim) → Writes (.tcapStamp k) s [Reg.TCAP_STAT k.val, Reg.ERR_BLK_STATUS 9, Reg.ERR_BLK_STATUS 9 + 4, Reg.ERR_BLK_STATUS 9 + 8, Reg.ERR_BLK_STATUS 9 + 12] (fun t => (t.tcap k.val).fifo = y.fifo ∧ t.flag (Reg.TCAP_STAT k.val) F.TCAP_STAT_OVF = true ∧ Noted s t 0x09 (0x20 + k.val) 0x04)) ∧
    (due ∧ sel = false ∧ lim ≠ 0 ∧ lim ≤ many → Writes (.tcapStamp k) s [Reg.TCAP_STAT k.val, Reg.ERR_BLK_STATUS 9, Reg.ERR_BLK_STATUS 9 + 4, Reg.ERR_BLK_STATUS 9 + 8, Reg.ERR_BLK_STATUS 9 + 12] (fun t => (t.tcap k.val).fifo = y.fifo ∧ t.flag (Reg.TCAP_STAT k.val) F.TCAP_STAT_STUCK = true ∧ Noted s t 0x09 (0x20 + k.val) 0x04)) ∧
    (on ∧ y.edge = some e ∧ s.now < e.since + filt * 128 → Writes (.tcapStamp k) s [] (fun t => t = s)) ∧
    (y.fifo = z :: rest → Writes (.tcapRead k) s [Reg.TCAP_STAT k.val, Reg.TCAP_NS k.val, Reg.TCAP_S k.val, Reg.TCAP_X k.val, Reg.TCAP_F k.val] (fun t => t.tcap k.val = { y with fifo := rest } ∧ t.rd (Reg.TCAP_NS k.val) = BitVec.ofNat 32 (z.time % tbSecond / 65536) ∧ t.rd (Reg.TCAP_S k.val) = BitVec.ofNat 32 (z.time / tbSecond) ∧ t.flag (Reg.TCAP_F k.val) F.TCAP_F_EDGE_R = z.rising ∧ t.flag (Reg.TCAP_F k.val) F.TCAP_F_STEPPED = z.stepped))

/-- While the block acts: a slave port turns a Sync, or the Follow_Up it matches, into an offset less the corrections and
the ingress delay. An enabled port answers Pdelay_Req once in one-step mode, twice in two-step mode, and takes PDELAY from
the answer to its own; with E2E and no transparent clock Delay_Req and Delay_Resp do so instead. A master port sends Sync at
its interval with the origin in one-step mode, else with a stamp in its FIFO, which holds sixteen: the next is discarded
with NOTE 0x02. The transparent clock sends a Sync or Delay_Req on out of the other port, the latter corrected, corrects the
Follow_Up that matches it, and counts in TC_LOST those over 100 ms. PTP_TXTS_READ takes one stamp; a port that fails its
self-check is contained and sends no event message until it is enabled again. Commands that complete here (exec answers a
next state with their own effect, under conditions on the state and the operands alone): ptpEventRx, ptpFollowUpRx,
ptpSyncSend, ptpPdelayReqSend, tcFollowupTimeout, ptpTxtsRead, ptpPortState, ptpSelfcheckFail. (09_time.md R236, 09_time.md
R239, 09_time.md R240, 09_time.md R241, 09_time.md R242, 09_time.md R247, 09_time.md R250) -/
def Obligations.PtpPortsMeasureAndCorrect : Prop :=
  ∀ (s : State) (p : Fin 2) (msg : PtpMsg) (y : PtpSeen) (z : TxStamp) (rest : List TxStamp) (e : TcSync) (st : BitVec 2) (n : Fin 4) (d : Int), s.acts .ethernet →
    let x := s.ptpPort p.val
    let port := s.portState p.val
    let one := s.oneStep
    let mine := s.ptpMine msg = true
    let now := ((s.tbVal 0 : Nat) : Int)
    let here := ((s.tbVal s.ptpBase : Nat) : Int)
    let delay := (((s.rd (Reg.PTP_PDELAY p.val)).toNat : Nat) : Int) + (s.rd (Reg.PTP_ASYM p.val)).toInt
    let org := msgTime msg
    let tc := s.flag Reg.PTP_CTRL F.PTP_CTRL_TC_EN
    let dom := BitVec.ofNat 8 (s.fld Reg.PTP_CTRL F.PTP_CTRL_DOMAIN)
    let old := fun (e : TcSync) => decide (e.at_ + 100 * ticksPerMs < s.now)
    (msg.kind = 0 ∧ mine ∧ port = 2 ∧ msg.twoStep = false ∧ tc = false ∧ (s.tb n.val).src = .ptp → Writes (.ptpEventRx p msg) s [] (fun t => (t.tb n.val).theta = (s.tb n.val).theta ++ [Int.tdiv (here - org - msg.corr - delay) 65536] ∧ t.ptpPort p.val = { x with path := some (here - org - msg.corr) })) ∧
    (msg.kind = 0 ∧ mine ∧ port = 2 ∧ msg.twoStep = true ∧ tc = false → Writes (.ptpEventRx p msg) s [] (fun t => t.ptpPort p.val = { x with sync := some ⟨msg.seq.toNat, here, msg.corr⟩ })) ∧
    (msg.kind = 8 ∧ mine ∧ port = 2 ∧ x.sync = some y ∧ y.seq = msg.seq.toNat ∧ tc = false ∧ (s.tb n.val).src = .ptp → Writes (.ptpFollowUpRx p msg) s [] (fun t => (t.tb n.val).theta = (s.tb n.val).theta ++ [Int.tdiv (y.stamp - org - (y.corr + msg.corr) - delay) 65536] ∧ (t.ptpPort p.val).sync = none)) ∧
    (msg.kind = 2 ∧ mine ∧ port ≠ 0 ∧ x.failed = false → Answers (.ptpEventRx p msg) s (fun t => t.out.length = s.out.length + (if one then 1 else 2) ∧ t.out[s.out.length]? = some (.ptp p.val ⟨3, dom, msg.seq, !one, (if one then msg.corr + (s.freeNat : Int) else msg.corr), (if one then 0 else s.tbVal 0 / tbSecond), (if one then 0 else s.tbVal 0 % tbSecond / 65536)⟩))) ∧
    (msg.kind = 3 ∧ mine ∧ port ≠ 0 ∧ x.req = some y ∧ y.seq = msg.seq.toNat ∧ msg.twoStep = false → Writes (.ptpEventRx p msg) s [Reg.PTP_PDELAY p.val] (fun t => t.rd (Reg.PTP_PDELAY p.val) = BitVec.ofInt 32 (Int.tdiv (now - y.stamp - msg.corr) 2) ∧ (t.ptpPort p.val).req = none)) ∧
    (msg.kind = 10 ∧ mine ∧ port ≠ 0 ∧ x.resp = some y ∧ y.seq = msg.seq.toNat → Writes (.ptpFollowUpRx p msg) s [Reg.PTP_PDELAY p.val] (fun t => t.rd (Reg.PTP_PDELAY p.val) = BitVec.ofInt 32 (Int.tdiv (y.stamp - y.corr - org - msg.corr) 2) ∧ (t.ptpPort p.val).resp = none)) ∧
    (port = 3 ∧ x.failed = false ∧ x.syncAt = none ∧ one = true → Writes (.ptpSyncSend p) s [] (fun t => t.out = s.out ++ [.ptp p.val ⟨0, dom, BitVec.ofNat 16 x.seq, false, 0, s.tbVal 0 / tbSecond, s.tbVal 0 % tbSecond / 65536⟩] ∧ t.ptpPort p.val = { x with seq := (x.seq + 1) % 2 ^ 16, syncAt := some s.now })) ∧
    (port = 3 ∧ x.failed = false ∧ x.syncAt = none ∧ one = false ∧ x.fifo.length < 16 → Writes (.ptpSyncSend p) s [Reg.PTP_TXTS p.val] (fun t => t.out = s.out ++ [.ptp p.val ⟨0, dom, BitVec.ofNat 16 x.seq, true, 0, 0, 0⟩] ∧ (t.ptpPort p.val).fifo = x.fifo ++ [⟨x.seq, 0, s.tbSec 0, s.tbSubNs 0, s.tbFrac 0⟩])) ∧
    (port = 3 ∧ x.failed = false ∧ x.syncAt = none ∧ one = false ∧ 16 ≤ x.fifo.length → Writes (.ptpSyncSend p) s [Reg.ERR_BLK_STATUS 8, Reg.ERR_BLK_STATUS 8 + 4, Reg.ERR_BLK_STATUS 8 + 8, Reg.ERR_BLK_STATUS 8 + 12] (fun t => (t.ptpPort p.val).fifo = x.fifo ∧ Noted s t 0x08 p.val 0x02)) ∧
    (port ≠ 3 ∨ x.failed = true → Writes (.ptpSyncSend p) s [] (fun t => t = s)) ∧
    (port ≠ 0 ∧ x.failed = false ∧ x.pdAt = none ∧ s.e2e = false ∧ one = true → Writes (.ptpPdelayReqSend p) s [] (fun t => t.out = s.out ++ [.ptp p.val ⟨2, dom, BitVec.ofNat 16 x.seq, false, 0, 0, 0⟩] ∧ t.ptpPort p.val = { x with seq := (x.seq + 1) % 2 ^ 16, pdAt := some s.now, req := some ⟨x.seq, now, 0⟩, resp := none })) ∧
    (port = 2 ∧ x.failed = false ∧ x.pdAt = none ∧ s.e2e = true ∧ one = true → Writes (.ptpPdelayReqSend p) s [] (fun t => t.out = s.out ++ [.ptp p.val ⟨1, dom, BitVec.ofNat 16 x.seq, false, 0, 0, 0⟩] ∧ t.ptpPort p.val = { x with seq := (x.seq + 1) % 2 ^ 16, pdAt := some s.now, req := some ⟨x.seq, here, 0⟩, resp := none })) ∧
    (msg.kind = 1 ∧ mine ∧ s.e2e = true ∧ port = 3 ∧ x.failed = false → Writes (.ptpEventRx p msg) s [] (fun t => t.out = s.out ++ [.ptp p.val ⟨9, dom, msg.seq, false, msg.corr, s.tbVal 0 / tbSecond, s.tbVal 0 % tbSecond / 65536⟩])) ∧
    (msg.kind = 9 ∧ mine ∧ s.e2e = true ∧ port = 2 ∧ x.req = some y ∧ y.seq = msg.seq.toNat ∧ x.path = some d → Writes (.ptpFollowUpRx p msg) s [Reg.PTP_PDELAY p.val] (fun t => t.rd (Reg.PTP_PDELAY p.val) = BitVec.ofInt 32 (Int.tdiv (d + (org - y.stamp - msg.corr)) 2) ∧ (t.ptpPort p.val).req = none)) ∧
    (msg.kind = 1 ∧ tc = true ∧ (s.ptpPort (1 - p.val)).failed = false → Writes (.ptpEventRx p msg) s [] (fun t => t.out = s.out ++ [.ptp (1 - p.val) { msg with corr := msg.corr + (s.freeNat : Int) + delay }])) ∧
    (msg.kind = 0 ∧ tc = true ∧ (s.ptpPort (1 - p.val)).failed = false ∧ ¬mine ∧ one = false → Writes (.ptpEventRx p msg) s [] (fun t => t.out = s.out ++ [.ptp (1 - p.val) msg] ∧ t.time.tc = s.time.tc ++ [⟨p.val, msg.seq.toNat, (s.freeNat : Int) + delay, s.now⟩])) ∧
    (msg.kind = 8 ∧ tc = true ∧ ¬mine ∧ s.time.tc = [e] ∧ e.port = p.val ∧ e.seq = msg.seq.toNat ∧ old e = false → Writes (.ptpFollowUpRx p msg) s [] (fun t => t.out = s.out ++ [.ptp (1 - p.val) { msg with corr := msg.corr + e.add }] ∧ t.time.tc = [])) ∧
    (msg.kind = 8 ∧ tc = true ∧ ¬mine ∧ s.time.tc = [e] ∧ e.port = p.val ∧ e.seq = msg.seq.toNat ∧ old e = true → Writes (.ptpFollowUpRx p msg) s [Reg.PTP_TC] (fun t => t.out = s.out ++ [.ptp (1 - p.val) msg] ∧ t.fld Reg.PTP_TC F.PTP_TC_TC_LOST = min 65535 (s.fld Reg.PTP_TC F.PTP_TC_TC_LOST + 1))) ∧
    (Writes .tcFollowupTimeout s [Reg.PTP_TC] (fun t => t.time.tc = s.time.tc.filter (fun e => !old e) ∧ t.fld Reg.PTP_TC F.PTP_TC_TC_LOST = min 65535 (s.fld Reg.PTP_TC F.PTP_TC_TC_LOST + (s.time.tc.filter old).length))) ∧
    (x.fifo = z :: rest → Writes (.ptpTxtsRead p) s [Reg.PTP_TXTS p.val, Reg.PTP_TXTS_NS, Reg.PTP_TXTS_S, Reg.PTP_TXTS_X] (fun t => (t.ptpPort p.val).fifo = rest ∧ t.rd Reg.PTP_TXTS_NS = BitVec.ofNat 32 z.ns ∧ t.rd Reg.PTP_TXTS_S = BitVec.ofNat 32 z.sec ∧ (rest = [] → t.rd (Reg.PTP_TXTS p.val) = 0))) ∧
    (Answers (.ptpPortState p st) s (fun t => t.portState p.val = st.toNat ∧ (port = 0 → st ≠ 0 → (t.ptpPort p.val).failed = false))) ∧
    (Answers (.ptpSelfcheckFail p) s (fun t => (t.ptpPort p.val).failed = true ∧ Contained s t 0x08 p.val 0x03))

/-- While grid measurement acts: GRID_CHANNEL_LOST of a used valid channel sets INV with CONTAIN 0x02. PMU_FRAME_WRITE, once
its tag has come, before its latency has passed and after the last tag, writes the frame of 108 bytes at the ring's WR and
no other byte, advances WR, and overwrites the oldest with RING_OVF and NOTE 0x03 where the ring is full; a rate that R255
does not list sets CFG_ERR and writes nothing. GRID_RESPONSE_UPDATE shows the frequency of the source that R254 gives, the
voltage and DEGRADED; UF qualifies at QUAL_MS updates met in a row and raises the line where it is enabled, is cleared at
REL_MS updates released, and holds its state while no voltage channel is valid. GRID_REC_ARM empties and arms the recorder;
each sample instant then writes a word for every channel at its place in the buffer and nowhere else, and stops with CONTAIN
0x04 where it cannot; a trigger latches its time and cause once, and is counted as EXTRA or LOST after. Commands that
complete here (exec answers a next state with their own effect, under conditions on the state and the operands alone):
gridChannelLost, pmuFrameWrite, gridResponseUpdate, gridRecArm, gridRecTrig, gridRecComplete. (10_grid.md R254, 10_grid.md
R255, 10_grid.md R256, 10_grid.md R257, 10_grid.md R258, 10_grid.md R261, 10_grid.md R262, 10_grid.md R263, 10_grid.md R264)
-/
def Obligations.GridMeasuresRespondsAndRecords : Prop :=
  ∀ (s : State) (n : Fin 8) (sec : Word) (k : BitVec 7) (phasors : List (BitVec 64)) (freq dfreq volt : Word) (f20 : BitVec 20) (valid : BitVec 8) (rms : BitVec 128) (each : BitVec 160), s.acts .grid →
    let on := s.grdOn = true
    let fs := s.fld Reg.GRD_CTRL F.GRD_CTRL_RATE
    let f := s.pmuFrame sec.toNat (k.toNat * 1000000 / fs) phasors freq dfreq s.freeNat s.took.freeNat
    let wr := s.fld Reg.GRD_RING F.GRD_RING_WR
    let rd := s.fld Reg.GRD_RING F.GRD_RING_RD
    let len := if s.fld Reg.GRD_RING F.GRD_RING_LEN = 0 then 1 else s.fld Reg.GRD_RING F.GRD_RING_LEN
    let a := (s.rd Reg.GRD_RING_BASE).toNat / 128 * 128 + 128 * wr
    let next := (wr + 1) % len
    let tagged := k.toNat < fs ∧ s.tagOk256 sec.toNat k.toNat fs = true
    let writes := on ∧ s.grid.stopped = false ∧ s.dmaRoom 16 = true ∧ s.rateOk = true ∧ tagged ∧ sramRange a 108 = true ∧ s.sramSound
    let upd := on ∧ s.grid.ms ≠ some (s.tbNs 0 / 1000000) ∧ valid = 0xFF ∧ s.fld Reg.GRD_STATUS F.GRD_STATUS_INV = 0 ∧ s.grid.validAt = []
    let volt1 := fun (m : Nat) => s.chUsed m && decide (s.chKind m = 1)
    let anyV := ∃ m : Fin 8, volt1 m.val = true
    let all3 := volt1 0 && volt1 1 && volt1 2
    let fq := if all3 then f20.toNat else match (List.range 8).find? volt1 with | some m => each.toNat / 2 ^ (20 * m) % 2 ^ 20 | none => s.freeNat % 2 ^ 20
    let uf := s.fld Reg.GRD_UF F.GRD_UF_UF_MHZ
    let hyst := s.fld Reg.GRD_UF F.GRD_UF_UF_HYST
    let c := Tab.get (fun _ => GridCond.reset) s.grid.cond 0
    let cond := fun (t : State) => bitOf (t.fld Reg.GRD_STATUS F.GRD_STATUS_COND) 0
    let up := if s.fld Reg.GRD_QUAL F.GRD_QUAL_QUAL_MS = 0 then 1 else s.fld Reg.GRD_QUAL F.GRD_QUAL_QUAL_MS
    let down := if s.fld Reg.GRD_QUAL F.GRD_QUAL_REL_MS = 0 then 1 else s.fld Reg.GRD_QUAL F.GRD_QUAL_REL_MS
    let base := (s.rd Reg.GRD_REC_BASE).toNat
    let at_ := base + 32 * s.grid.recPos
    let src := bitOf (s.fld Reg.GRD_REC_CTRL F.GRD_REC_CTRL_SRC) 2 = true
    let q := s.recState
    (on ∧ s.chValid n.val = true → Answers (.gridChannelLost n) s (fun t => t.chValid n.val = false ∧ bitOf (t.fld Reg.GRD_STATUS F.GRD_STATUS_INV) n.val = true ∧ t.flag Reg.GRD_STATUS F.GRD_STATUS_DEGRADED = decide (¬∃ m : Fin 8, t.chValid m.val = true ∧ t.chKind m.val = 1) ∧ Contained s t 0x04 n.val 0x02 ∧ Fires s t 0x04 0x05)) ∧
    (s.chValid n.val = false → Writes (.gridChannelLost n) s [] (fun t => t = s)) ∧
    (writes ∧ next ≠ rd → Answers (.pmuFrameWrite sec k phasors freq dfreq) s (fun t => t.bytes a 108 = f ∧ f.length = 108 ∧ BytesOnly (fun x => decide (a ≤ x ∧ x < a + 108)) s t ∧ t.fld Reg.GRD_RING F.GRD_RING_WR = next ∧ t.fld Reg.GRD_RING F.GRD_RING_RD = rd ∧ Fires s t 0x04 0x00)) ∧
    (writes ∧ next = rd → Answers (.pmuFrameWrite sec k phasors freq dfreq) s (fun t => t.bytes a 108 = f ∧ t.fld Reg.GRD_RING F.GRD_RING_WR = next ∧ t.fld Reg.GRD_RING F.GRD_RING_RD = (rd + 1) % len ∧ t.flag Reg.GRD_STATUS F.GRD_STATUS_RING_OVF = true ∧ (s.grid.cycled = false → Noted s t 0x04 0 0x03))) ∧
    (on ∧ s.grid.stopped = false ∧ s.dmaRoom 16 = true ∧ s.rateOk = false → Writes (.pmuFrameWrite sec k phasors freq dfreq) s [Reg.GRD_STATUS] (fun t => t.mem = s.mem ∧ t.flag Reg.GRD_STATUS F.GRD_STATUS_CFG_ERR = true)) ∧
    (on ∧ s.rateOk = true ∧ ¬tagged → Writes (.pmuFrameWrite sec k phasors freq dfreq) s [] (fun t => t = s)) ∧
    (upd → Answers (.gridResponseUpdate f20 each volt valid rms) s (fun t => t.rd Reg.GRD_FREQ = BitVec.ofNat 32 fq ∧ t.rd Reg.GRD_V1 = volt ∧ t.flag Reg.GRD_STATUS F.GRD_STATUS_DEGRADED = decide (¬anyV) ∧ (¬anyV → cond t = cond s))) ∧
    (upd ∧ anyV ∧ fq < uf ∧ cond s = false ∧ up ≤ c.met + 1 → Answers (.gridResponseUpdate f20 each volt valid rms) s (fun t => cond t = true ∧ (s.flag Reg.GRD_UF F.GRD_UF_EN = true → t.gridLine = true))) ∧
    (upd ∧ anyV ∧ fq < uf ∧ cond s = false ∧ c.met + 1 < up → Answers (.gridResponseUpdate f20 each volt valid rms) s (fun t => cond t = false ∧ (Tab.get (fun _ => GridCond.reset) t.grid.cond 0).met = c.met + 1)) ∧
    (upd ∧ anyV ∧ uf ≤ fq ∧ cond s = false → Answers (.gridResponseUpdate f20 each volt valid rms) s (fun t => cond t = false ∧ (Tab.get (fun _ => GridCond.reset) t.grid.cond 0).met = 0)) ∧
    (upd ∧ anyV ∧ uf ≤ fq ∧ uf + hyst ≤ fq ∧ cond s = true ∧ down ≤ c.rel + 1 → Answers (.gridResponseUpdate f20 each volt valid rms) s (fun t => cond t = false)) ∧
    (s.grid.stopped = false → Writes .gridRecArm s [Reg.GRD_REC_CTRL] (fun t => t.recState = 1 ∧ t.grid = { s.grid with recPos := 0, preN := 0, postN := 0, heldAt := none })) ∧
    (s.grid.stopped = true → Writes .gridRecArm s [] (fun t => t = s)) ∧
    (q = 1 ∧ sramRange at_ 32 = true ∧ s.sramSound → s.gridSamples.bytes (at_ + 4 * n.val) 4 = leBytes 4 (s.sampleOf n.val).word ∧ BytesOnly (fun x => decide (at_ ≤ x ∧ x < at_ + 32)) s s.gridSamples ∧ s.gridSamples.grid.recPos = (s.grid.recPos + 1) % 32000 ∧ s.gridSamples.grid.preN = min 32000 (s.grid.preN + 1)) ∧
    (bitOf (s.fld Reg.GRD_STATUS F.GRD_STATUS_INV) n.val = true → (s.sampleOf n.val).value = 0 ∧ (s.sampleOf n.val).inv = true) ∧
    (q = 1 ∧ inSram at_ = false → s.gridSamples.recState = 0 ∧ s.gridSamples.grid.stopped = true ∧ Contained s s.gridSamples 0x04 8 0x04) ∧
    (src ∧ q = 1 → Writes .gridRecTrig s [Reg.GRD_REC_CTRL, Reg.GRD_REC_INFO, Reg.GRD_REC_TS, Reg.GRD_REC_TNS] (fun t => t.recState = 2 ∧ t.rd Reg.GRD_REC_TS = BitVec.ofNat 32 (s.tbSec 0) ∧ t.rd Reg.GRD_REC_TNS = BitVec.ofNat 32 (s.tbSubNs 0) ∧ t.fld Reg.GRD_REC_INFO F.GRD_REC_INFO_CAUSE = 1 ∧ t.fld Reg.GRD_REC_INFO F.GRD_REC_INFO_PRE_VALID = s.grid.preN % 65536 ∧ t.grid.heldAt = some (s.now + 32000000000) ∧ Fires s t 0x04 0x03)) ∧
    (src ∧ q = 2 → Writes .gridRecTrig s [Reg.GRD_REC_INFO] (fun t => t.fld Reg.GRD_REC_INFO F.GRD_REC_INFO_EXTRA = min 255 (s.fld Reg.GRD_REC_INFO F.GRD_REC_INFO_EXTRA + 1) ∧ t.grid = s.grid)) ∧
    (src ∧ q = 3 → Writes .gridRecTrig s [Reg.GRD_REC_CTRL, Reg.ERR_BLK_STATUS 4, Reg.ERR_BLK_STATUS 4 + 4, Reg.ERR_BLK_STATUS 4 + 8, Reg.ERR_BLK_STATUS 4 + 12] (fun t => t.recState = 3 ∧ t.fld Reg.GRD_REC_CTRL F.GRD_REC_CTRL_LOST = min 255 (s.fld Reg.GRD_REC_CTRL F.GRD_REC_CTRL_LOST + 1) ∧ Noted s t 0x04 8 0x05)) ∧
    (¬src → Writes .gridRecTrig s [] (fun t => t = s)) ∧
    (q = 2 ∧ s.reached s.grid.heldAt = true → Writes .gridRecComplete s [Reg.GRD_REC_CTRL] (fun t => t.recState = 3 ∧ Fires s t 0x04 0x04)) ∧
    (q = 2 ∧ s.reached s.grid.heldAt = false → Writes .gridRecComplete s [] (fun t => t = s))

/-- While the modem acts: PILOT_MEASUREMENT shows the mean levels, a high phase too short for its samples keeping the old
one, and a state measured QUAL times in a row becomes the reported one, by the CPW windows on a CCS outlet and the CEW
windows on an MCS outlet, shown unless UNSTABLE or CONV_ERR makes it INVALID. More than CHG_LIM changes set UNSTABLE with
NOTE 0x03; QUAL bad low levels in PWM set DIODE_ERR with NOTE 0x04; MODE and DUTY then take effect. PWM on an MCS outlet is
refused with MODE_ERR. UNSTABLE is cleared only once the limit is no longer exceeded. A reference code outside 2,008 to
2,088 sets CONV_ERR with CONTAIN 0x02, and 1 s of passing ones ends it. Commands that complete here (exec answers a next
state with their own effect, under conditions on the state and the operands alone): pilotMeasurement, pilotDriveWrite,
pilotUnstableClear, senseReferenceCheck. (11_outlet_links.md R266, 11_outlet_links.md R268, 11_outlet_links.md R269,
11_outlet_links.md R270, 11_outlet_links.md R271, 11_outlet_links.md R272, 11_outlet_links.md R273, 11_outlet_links.md R274,
11_outlet_links.md R290) -/
def Obligations.PilotLevelsQualifyAndDrive : Prop :=
  ∀ (s : State) (o : Fin 8) (hi lo id : BitVec 96) (data : Word) (code : BitVec 12) (u : Nat), s.acts .plc →
    let p := s.pilot o.val
    let r := Reg.OLK_STAT o.val
    let need := if s.fld (Reg.OLK_CFG o.val) F.OLK_CFG_QUAL = 0 then 1 else s.fld (Reg.OLK_CFG o.val) F.OLK_CFG_QUAL
    let high := s.highLevel o.val hi
    let was := signed 16 (s.fld (Reg.OLK_LVL o.val) F.OLK_LVL_HI_MV)
    let hv := match high with | some y => signed 16 (unsigned 16 y) | none => was
    let low := if p.mode = 1 then s.meanMv o.val lo else s.meanMv o.val hi
    let cp := p.cp.next (stateOf (fun i => s.rd (Reg.CPW i)) hv) need
    let ce := p.cp.next (stateOf (fun i => s.rd (Reg.CEW i)) hv) need
    let idq := p.id.next (stateOf (fun i => s.rd (Reg.IDW i)) (s.meanMv o.val id)) need
    let kind := s.olkKind o.val
    let bad := s.flag r F.OLK_STAT_UNSTABLE = true ∨ s.flag r F.OLK_STAT_CONV_ERR = true
    let quiet := s.fld (Reg.OLK_CFG o.val) F.OLK_CFG_CHG_LIM = 0
    let mode := s.fld (Reg.OLK_DRV o.val) F.OLK_DRV_MODE
    let duty := min 1000 (s.fld (Reg.OLK_DRV o.val) F.OLK_DRV_DUTY)
    let good := 2008 ≤ code.toNat ∧ code.toNat ≤ 2088
    (kind = 1 ∧ quiet ∧ p.cp.rep ≤ 15 → Answers (.pilotMeasurement o hi lo id) s (fun t => (t.pilot o.val).cp = cp ∧ (t.pilot o.val).id = idq ∧ signed 16 (t.fld (Reg.OLK_LVL o.val) F.OLK_LVL_HI_MV) = hv ∧ t.fld (Reg.OLK_LVL o.val) F.OLK_LVL_LO_MV = unsigned 16 low ∧ (¬bad → t.fld r F.OLK_STAT_ST = cp.rep) ∧ (bad → t.fld r F.OLK_STAT_ST = 15))) ∧
    (kind = 2 ∧ quiet ∧ p.cp.rep ≤ 15 ∧ ¬bad → Answers (.pilotMeasurement o hi lo id) s (fun t => (t.pilot o.val).cp = ce ∧ t.fld r F.OLK_STAT_ST = ce.rep)) ∧
    (high = none → Answers (.pilotMeasurement o hi lo id) s (fun t => t.fld (Reg.OLK_LVL o.val) F.OLK_LVL_HI_MV = s.fld (Reg.OLK_LVL o.val) F.OLK_LVL_HI_MV)) ∧
    (s.tooMany o.val = true ∧ s.flag r F.OLK_STAT_UNSTABLE = false ∧ p.mode ≠ 1 → Answers (.pilotMeasurement o hi lo id) s (fun t => t.flag r F.OLK_STAT_UNSTABLE = true ∧ t.fld r F.OLK_STAT_ST = 15 ∧ t.fld r F.OLK_STAT_ID_ST = 15 ∧ Noted s t 0x0B o.val 0x03)) ∧
    (kind = 1 ∧ quiet ∧ p.mode = 1 ∧ p.hold = 0 ∧ 1 ≤ cp.rep ∧ cp.rep ≤ 3 ∧ inWin (s.rd (Reg.CPW 5)) low = false ∧ need ≤ p.diode + 1 ∧ s.flag r F.OLK_STAT_DIODE_ERR = false → Answers (.pilotMeasurement o hi lo id) s (fun t => t.flag r F.OLK_STAT_DIODE_ERR = true ∧ Noted s t 0x0B o.val 0x04)) ∧
    (mode ≠ p.mode ∨ duty ≠ p.duty → Answers (.pilotMeasurement o hi lo id) s (fun t => (t.pilot o.val).mode = mode ∧ (t.pilot o.val).duty = duty ∧ (t.pilot o.val).hold = 2)) ∧
    (kind = 2 ∧ F.OLK_DRV_MODE.get data = 1 → Writes (.pilotDriveWrite o data) s [r] (fun t => t.flag r F.OLK_STAT_MODE_ERR = true ∧ t.links = s.links)) ∧
    (kind ≠ 2 ∨ F.OLK_DRV_MODE.get data ≠ 1 → Writes (.pilotDriveWrite o data) s [Reg.OLK_DRV o.val] (fun t => t.rd (Reg.OLK_DRV o.val) = data &&& 0x03FF0003 ∧ t.links = s.links)) ∧
    (s.tooMany o.val = true → Writes (.pilotUnstableClear o) s [] (fun t => t = s)) ∧
    (s.tooMany o.val = false → Writes (.pilotUnstableClear o) s [r] (fun t => t.flag r F.OLK_STAT_UNSTABLE = false ∧ t.links = s.links)) ∧
    (¬good → Answers (.senseReferenceCheck o code) s (fun t => t.flag r F.OLK_STAT_CONV_ERR = true ∧ t.fld r F.OLK_STAT_ST = 15 ∧ t.fld r F.OLK_STAT_ID_ST = 15 ∧ Contained s t 0x0B o.val 0x02)) ∧
    (good ∧ s.flag r F.OLK_STAT_CONV_ERR = false → Writes (.senseReferenceCheck o code) s [] (fun t => t = s)) ∧
    (good ∧ s.flag r F.OLK_STAT_CONV_ERR = true ∧ p.passAt = some u ∧ u + 16000000000 ≤ s.now → Answers (.senseReferenceCheck o code) s (fun t => t.flag r F.OLK_STAT_CONV_ERR = false ∧ (s.flag r F.OLK_STAT_UNSTABLE = false → p.cp.rep ≤ 15 → t.fld r F.OLK_STAT_ST = p.cp.rep))) ∧
    (good ∧ s.flag r F.OLK_STAT_CONV_ERR = true ∧ p.passAt = none → Writes (.senseReferenceCheck o code) s [] (fun t => t.pilot o.val = { p with passAt := some s.now }))

/-- While the links act: LINK_FRAME_RX of a frame the link takes writes it to the buffer and its length to the descriptor at
HEAD, and no other byte; a full ring discards and counts it; descriptors outside shared SRAM stop both rings with a CONTAIN;
a T1S frame with a bad FCS or over 1,518 bytes is counted. LINK_FRAME_TX_DONE sends the frame at TAIL and advances TAIL.
RING_TX_HEAD_WRITE writes HEAD; RING_ENABLE empties the ring. ATT_START arms a measurement that counts its sounds and
ATT_DONE ends it. TONE_MAP_REFRESH evaluates PBER, and the third high period starts a renegotiation, which RENEG_COMPLETE
ends; a change of PH restarts estimation. A failed PHY check contains the port; a coordinator that sees an alien beacon sets
DUP_COORD. Commands that complete here (exec answers a next state with their own effect, under conditions on the state and
the operands alone): linkFrameRx, linkFrameTxDone, ringTxHeadWrite, ringEnable, attStart, attDone, toneMapRefresh,
renegComplete, bbPhWrite, t1sPhySelfcheckFail, plcaBeaconRx. (11_outlet_links.md R266, 11_outlet_links.md R277,
11_outlet_links.md R278, 11_outlet_links.md R279, 11_outlet_links.md R281, 11_outlet_links.md R284, 11_outlet_links.md R285,
11_outlet_links.md R286, 11_outlet_links.md R287, 11_outlet_links.md R290, 11_outlet_links.md R291, 11_outlet_links.md R293)
-/
def Obligations.LinksMoveFramesAndKeepToneMaps : Prop :=
  ∀ (s : State) (l : Fin 17) (frame : List Byte) (info : RxInfo) (head : Byte) (tx en seen alien : Bool) (xi : TxInfo) (n : Fin 8) (data : Word) (k : Fin 32) (ph : BitVec 3) (z : Sound) (y : Slac), 
    let rc := s.rd (rxCfg l.val)
    let tc := s.rd (txCfg l.val)
    let room1 := s.dmaRoom (linkSlot l.val) = true
    let on := s.linkOn l.val = true ∧ room1 ∧ s.sramSound
    let allPass := info.pbs.all id = true
    let opens := info.sealed = true → (s.nmk l.val useDec).isSome = true
    let plain := allPass ∧ opens ∧ ringEn rc = false
    let mac := (frame.drop 6).take 6
    let kept := info.symbols.filter (fun y => !s.blankedAt y.peak)
    let run := (s.rd (Reg.GP_ATT_RUNID_LO n.val)).toNat + (s.rd (Reg.GP_ATT_RUNID_HI n.val)).toNat * 2 ^ 32
    let sum := List.zipWith (· + ·) y.sums ((List.range 58).map (fun g => z.att.toNat / 2 ^ (8 * g) % 256))
    let next := (ringHead rc + 1) % ringLen rc
    let d := (s.rd (rxBase l.val)).toNat + 16 * ringHead rc
    let buf := s.num d 4
    let flen := frame.length
    let takes := on ∧ (l.val < 8 → info.fcsOk = true ∧ flen ≤ 1518 ∧ s.t1sTakes l.val frame = true) ∧ (8 ≤ l.val → info.sound = none ∧ allPass ∧ opens) ∧ l.val ≠ 16 ∧ ringEn rc = true
    let room := next ≠ ringTail rc
    let fits := sramRange d 16 = true ∧ sramRange buf 1536 = true ∧ buf % 4 = 0 ∧ flen ≤ 1536 ∧ (buf + flen ≤ d ∨ d + 16 ≤ buf)
    let td := (s.rd (txBase l.val)).toNat + 16 * ringTail tc
    let tbuf := s.num td 4
    let tlen := s.num (td + 4) 2
    let how := s.plcTx l.val (s.bytes tbuf tlen)
    let key := s.nmk l.val useEnc
    let apart := tbuf + tlen ≤ td ∨ td + 16 ≤ tbuf
    let sends := on ∧ ringEn tc = true ∧ ringHead tc ≠ ringTail tc ∧ s.links.phyFail.contains l.val = false ∧ sramRange td 16 = true ∧ tbuf % 4 = 0 ∧ (tlen = 0 ∨ sramRange tbuf tlen = true)
    let ring := if tx then txCfg l.val else rxCfg l.val
    let m := s.slac n.val
    let cnt := s.fld (Reg.GP_ATT_STAT n.val) F.GP_ATT_STAT_CNT
    let b := s.nbr k.val
    let map := Config.toneMap s.tmask b.ests
    let every := max 5 (s.fld Reg.BB_TM F.BB_TM_REFRESH_S) * 16000000000
    let due := s.nbrOn k.val = true ∧ b.est = false ∧ b.refreshAt + every ≤ s.now
    let pber := if b.pbs = 0 then 0 else b.failed * 1000 / b.pbs
    let thr := s.fld Reg.BB_TM F.BB_TM_PBER_THR
    let hc := s.fld (Reg.BB_NBR_PBER k.val) F.BB_NBR_PBER_HIGH_CNT
    let st := Reg.T1S_STAT n.val
    let plca := s.flag (Reg.T1S_CTRL n.val) F.T1S_CTRL_EN = true ∧ s.flag (Reg.T1S_CTRL n.val) F.T1S_CTRL_PLCA_EN = true
    (takes ∧ room ∧ fits → Answers (.linkFrameRx l frame info) s (fun t => t.bytes buf flen = frame ∧ t.num (d + 4) 2 = flen ∧ t.num (d + 8) 4 = s.tbSubNs 0 % 2 ^ 32 ∧ ringHead (t.rd (rxCfg l.val)) = next ∧ BytesOnly (fun x => decide (buf ≤ x ∧ x < buf + flen ∨ d + 4 ≤ x ∧ x < d + 16)) s t ∧ Fires s t (linkBlk l.val) (rxLine l.val))) ∧
    (takes ∧ ¬room → Answers (.linkFrameRx l frame info) s (fun t => t.mem = s.mem ∧ t.fld (linkCnt l.val) F.T1S_CNT_RX_DROP = min 65535 (s.fld (linkCnt l.val) F.T1S_CNT_RX_DROP + 1) ∧ Noted s t (linkBlk l.val) (linkCell l.val) (if l.val < 8 then 3 else 5))) ∧
    (takes ∧ room ∧ sramRange d 16 = false → Answers (.linkFrameRx l frame info) s (fun t => t.mem = s.mem ∧ (t.ringStop l.val).stopped = true ∧ t.linkOn l.val = false ∧ Contained s t (linkBlk l.val) (linkCell l.val) (if l.val < 8 then 4 else 6))) ∧
    (on ∧ l.val < 8 ∧ (info.fcsOk = false ∨ 1518 < flen) → Writes (.linkFrameRx l frame info) s [linkCnt l.val] (fun t => t.mem = s.mem ∧ t.fld (linkCnt l.val) F.T1S_CNT_RX_DROP = min 65535 (s.fld (linkCnt l.val) F.T1S_CNT_RX_DROP + 1))) ∧
    (on ∧ 8 ≤ l.val ∧ l.val < 16 ∧ info.sound = none ∧ ¬allPass → Writes (.linkFrameRx l frame info) s [] (fun t => t.mem = s.mem ∧ t.out = s.out ++ [.sack l.val (indicesOf (info.pbs.map (!·)))])) ∧
    (on ∧ 8 ≤ l.val ∧ l.val < 16 ∧ info.sound = none ∧ allPass ∧ ¬opens → Writes (.linkFrameRx l frame info) s [] (fun t => t = s)) ∧
    (on ∧ l.val = 16 ∧ plain ∧ (List.range 32).find? (s.nbrIs mac) = some k.val → Writes (.linkFrameRx l frame info) s [Reg.BB_NBR_IMP_CNT k.val] (fun t => t.nbr k.val = { b with pbs := b.pbs + info.pbs.length, ests := b.ests ++ kept.map (·.est) } ∧ t.fld (Reg.BB_NBR_IMP_CNT k.val) F.BB_NBR_IMP_CNT_IMP_CNT = min 65535 (s.fld (Reg.BB_NBR_IMP_CNT k.val) F.BB_NBR_IMP_CNT_IMP_CNT + (if kept = info.symbols then 0 else 1)))) ∧
    (on ∧ l.val = 16 ∧ plain ∧ (List.range 32).find? (s.nbrIs mac) = none ∧ (List.range 32).find? (fun k => !s.nbrOn k) = some k.val ∧ kept = info.symbols ∧ frame.length = 12 → Writes (.linkFrameRx l frame info) s [Reg.BB_NBR_MAC_LO k.val, Reg.BB_NBR_ID k.val, Reg.BB_STAT] (fun t => t.nbrIs mac k.val = true ∧ t.fld (Reg.BB_NBR_ID k.val) F.BB_NBR_ID_TEI = info.tei.toNat ∧ t.nbr k.val = { Nbr.reset with pbs := info.pbs.length, ests := kept.map (·.est), refreshAt := s.now, changedAt := s.now } ∧ t.fld Reg.BB_STAT F.BB_STAT_NBR = min 63 (s.fld Reg.BB_STAT F.BB_STAT_NBR + 1))) ∧
    (on ∧ l.val = 16 ∧ plain ∧ (List.range 32).find? (s.nbrIs mac) = none ∧ (∀ j : Fin 32, s.nbrOn j.val = true) → Answers (.linkFrameRx l frame info) s (fun t => t.flag Reg.BB_STAT F.BB_STAT_FULL = true ∧ t.links = s.links ∧ Noted s t 0x0B 8 0x09)) ∧
    (sends ∧ l.val < 8 ∧ xi.sent = true → Answers (.linkFrameTxDone l xi) s (fun t => (apart → t.out = s.out ++ [.link l.val (s.bytes tbuf tlen)]) ∧ t.fld (linkCnt l.val) F.T1S_CNT_TX_COLL = min 65535 (s.fld (linkCnt l.val) F.T1S_CNT_TX_COLL + xi.coll.toNat) ∧ (xi.jabber = true → t.flag (Reg.T1S_STAT l.val) F.T1S_STAT_JABBER = true) ∧ ringTail (t.rd (txCfg l.val)) = (ringTail tc + 1) % ringLen tc ∧ t.num (td + 6) 1 = 1 ∧ BytesOnly (fun x => decide (x = td + 6 ∨ td + 8 ≤ x ∧ x < td + 16)) s t ∧ Fires s t (linkBlk l.val) (txLine l.val))) ∧
    (sends ∧ l.val < 8 ∧ xi.sent = false → Answers (.linkFrameTxDone l xi) s (fun t => t.out = s.out ∧ ringTail (t.rd (txCfg l.val)) = (ringTail tc + 1) % ringLen tc ∧ t.num (td + 6) 1 = 2)) ∧
    (sends ∧ 8 ≤ l.val ∧ apart ∧ (how.sealed = true → key.isSome = true) → Answers (.linkFrameTxDone l xi) s (fun t => t.out[s.out.length]? = some (.plc l.val how (if how.sealed then (List.range tlen).map (Config.plcByte (key.getD []) (s.bytes tbuf tlen)) else s.bytes tbuf tlen)) ∧ ((∀ n ∈ xi.fails, n = 0) → t.out.length = s.out.length + 1) ∧ ringTail (t.rd (txCfg l.val)) = (ringTail tc + 1) % ringLen tc ∧ t.num (td + 6) 1 = (if xi.fails.all (fun n => decide (n.toNat ≤ s.retryLim)) then 1 else 2) ∧ (xi.fails.all (fun n => decide (n.toNat ≤ s.retryLim)) = false → t.fld (linkCnt l.val) F.GP_CNT_TX_DROP = min 65535 (s.fld (linkCnt l.val) F.GP_CNT_TX_DROP + 1) ∧ Noted s t (linkBlk l.val) (linkCell l.val) 0x07))) ∧
    (sends ∧ 8 ≤ l.val ∧ how.sealed = true ∧ key = none → Answers (.linkFrameTxDone l xi) s (fun t => t.out = s.out ∧ t.mem = s.mem ∧ ringTail (t.rd (txCfg l.val)) = ringTail tc)) ∧
    (s.acts (if l.val < 8 then .t1s else .plc) → Writes (.ringTxHeadWrite l head) s [txCfg l.val] (fun t => ringHead (t.rd (txCfg l.val)) = head.toNat ∧ ringTail (t.rd (txCfg l.val)) = ringTail tc ∧ t.mem = s.mem) ∧ Writes (.ringEnable l tx en) s [ring] (fun t => ringEn (t.rd ring) = en ∧ (en = true → ringHead (t.rd ring) = 0 ∧ ringTail (t.rd ring) = 0))) ∧
    (s.acts .plc ∧ s.linkRuns (8 + n.val) = true → Answers (.attStart n data) s (fun t => t.rd (Reg.GP_ATT_STAT n.val) = 0 ∧ t.rd (Reg.GP_ATT_CTRL n.val) = data &&& 0x00FFFFFF ∧ (t.slac n.val).isSome = true ∧ (∀ g : Fin 15, t.rd (Reg.GP_ATT n.val g.val) = 0))) ∧
    (s.acts .plc ∧ s.linkRuns (8 + n.val) = false → Writes (.attStart n data) s [Reg.GP_ATT_CTRL n.val] (fun t => t.links = s.links) ∧ Writes (.attDone n) s [] (fun t => t = s)) ∧
    (s.linkRuns (8 + n.val) = true ∧ s.dmaRoom 13 = true ∧ info.sound = some z ∧ allPass ∧ info.sealed = false ∧ ((s.ringStop (8 + n.val)).stopped = true ∨ ringEn (s.rd (rxCfg (8 + n.val))) = false) ∧ m = some y ∧ (z.run.toNat ≠ run ∨ s.attNum n.val ≤ cnt ∨ y.due ≤ s.now) → Writes (.linkFrameRx ⟨8 + n.val, by omega⟩ frame info) s [] (fun t => t = s)) ∧
    (s.linkRuns (8 + n.val) = true ∧ s.dmaRoom 13 = true ∧ info.sound = some z ∧ allPass ∧ info.sealed = false ∧ ((s.ringStop (8 + n.val)).stopped = true ∨ ringEn (s.rd (rxCfg (8 + n.val))) = false) ∧ m = some y ∧ z.run.toNat = run ∧ cnt < s.attNum n.val ∧ s.now < y.due → Writes (.linkFrameRx ⟨8 + n.val, by omega⟩ frame info) s [Reg.GP_ATT_STAT n.val] (fun t => (s.blankedAt z.peak = false → t.fld (Reg.GP_ATT_STAT n.val) F.GP_ATT_STAT_CNT = cnt + 1 ∧ t.slac n.val = some { y with sums := sum }) ∧ (s.blankedAt z.peak = true → t.slac n.val = m ∧ t.fld (Reg.GP_ATT_STAT n.val) F.GP_ATT_STAT_CNT = cnt ∧ t.fld (Reg.GP_ATT_STAT n.val) F.GP_ATT_STAT_IMP_EXCL = min 255 (s.fld (Reg.GP_ATT_STAT n.val) F.GP_ATT_STAT_IMP_EXCL + 1)))) ∧
    (s.acts .plc ∧ s.linkRuns (8 + n.val) = true ∧ m = some y ∧ (s.attNum n.val ≤ cnt ∨ y.due ≤ s.now) → Answers (.attDone n) s (fun t => t.slac n.val = none ∧ t.flag (Reg.GP_ATT_STAT n.val) F.GP_ATT_STAT_DONE = true ∧ Fires s t 0x0B (0x28 + n.val) ∧ (cnt ≠ 0 → t.rd (Reg.GP_ATT n.val 14) = BitVec.ofNat 32 (y.sums.getD 56 0 / cnt + y.sums.getD 57 0 / cnt * 2 ^ 8)))) ∧
    (s.acts .plc ∧ due ∧ (pber ≤ thr ∨ hc < 2) → Writes (.toneMapRefresh k) s [Reg.BB_NBR_PBER k.val, Reg.BB_NBR_RATE k.val] (fun t => t.fld (Reg.BB_NBR_PBER k.val) F.BB_NBR_PBER_HIGH_CNT = (if thr < pber then hc + 1 else 0) ∧ t.fld (Reg.BB_NBR_PBER k.val) F.BB_NBR_PBER_PBER = pber % 1024 ∧ t.fld (Reg.BB_NBR_RATE k.val) F.BB_NBR_RATE_RATE = Config.toneRate map % 65536 ∧ (t.nbr k.val).map = some map ∧ (t.nbr k.val).ests = [] ∧ (t.nbr k.val).refreshAt = s.now ∧ (t.nbr k.val).est = false)) ∧
    (s.acts .plc ∧ due ∧ thr < pber ∧ 2 ≤ hc → Answers (.toneMapRefresh k) s (fun t => (t.nbr k.val).est = true ∧ t.fld (Reg.BB_NBR_RATE k.val) F.BB_NBR_RATE_RATE = 0 ∧ Noted s t 0x0B 8 0x08 ∧ Fires s t 0x0B 0x32)) ∧
    (s.acts .plc ∧ s.nbrOn k.val = true ∧ b.est = true → Writes (.renegComplete k) s [Reg.BB_NBR_PBER k.val, Reg.BB_NBR_RATE k.val] (fun t => (t.nbr k.val).est = false ∧ (t.nbr k.val).map = some map ∧ t.fld (Reg.BB_NBR_RATE k.val) F.BB_NBR_RATE_RATE = Config.toneRate map % 65536 ∧ t.fld (Reg.BB_NBR_PBER k.val) F.BB_NBR_PBER_HIGH_CNT = 0)) ∧
    (s.acts .plc ∧ s.fld Reg.BB_CTRL F.BB_CTRL_PH ≠ ph.toNat → Answers (.bbPhWrite ph) s (fun t => t.fld Reg.BB_CTRL F.BB_CTRL_PH = ph.toNat ∧ (s.nbrOn k.val = true → (t.nbr k.val).est = true ∧ t.fld (Reg.BB_NBR_RATE k.val) F.BB_NBR_RATE_RATE = 0))) ∧
    (s.acts .t1s → Answers (.t1sPhySelfcheckFail n) s (fun t => n.val ∈ t.links.phyFail ∧ Contained s t 0x0A n.val 0x02)) ∧
    (s.acts .t1s ∧ plca → Answers (.plcaBeaconRx n seen alien) s (fun t => t.flag st F.T1S_STAT_PLCA_ST = seen ∧ (seen = true → alien = true → s.fld (Reg.T1S_PLCA n.val) F.T1S_PLCA_NODE_ID = 0 → t.flag st F.T1S_STAT_DUP_COORD = true ∧ Noted s t 0x0A n.val 0x05)))

/-- While the engine acts: DECODE, ENCODE and DIGEST run the next job of their cell: output in OUT, status in word 7, then
DONE, its channel served last; a schema that PROTO does not allow ends with 0x15, a wrong V2GTP header with 0x14. No element
leaves the clamp above DA ÷ 10 A, a smaller one is unchanged, and TOLD is set where all are within it. TLS_ACCEPT opens a
session; a handshake that R302 or R303 refuses ends with its status and the session; TLS_IN, TLS_OUT and TLS_CLOSE without
one end with 0x23; TLS_CLOSE ends it; results that do not fit end with 0x13. With no job for its cell a command changes
nothing. EN := 0 ends the session and moves no byte of the ring; the channel timer arms, disarms and expires; a fault of the
TLS engine ends every session. Commands that complete here (exec answers a next state with their own effect, under
conditions on the state and the operands alone): decode, encode, digest, tlsAccept, tlsIn, tlsOut, tlsClose,
sesChannelDisable, sesTimerArm, sesTimerExpiry, sesEngineFault. (12_session.md R295, 12_session.md R296, 12_session.md R297,
12_session.md R299, 12_session.md R300, 12_session.md R301, 12_session.md R303, 12_session.md R305, 12_session.md R306,
12_session.md R307, 12_session.md R311) -/
def Obligations.SessionJobsRunAndCompleteInOrder : Prop :=
  ∀ (s : State) (c : Fin 8) (k : Nat) (res : TlsOut) (ms : BitVec 24) (tls : Bool) (v e : Int) (da : Nat) (b : Fin 8) (why : Nat × Nat) (o : TlsOffer), s.acts .session →
    let a := s.jobAddr c.val k
    let inA := s.jobWord c.val k 1
    let inN := s.jobWord c.val k 2 % 2 ^ 16
    let outA := s.jobWord c.val k 3
    let cap := s.jobWord c.val k 4 % 2 ^ 16
    let txA := s.jobWord c.val k 5
    let txN := s.jobWord c.val k 6 % 2 ^ 16
    let ready := fun (op : Nat) => s.nextJob (tlsOp op) = some (c.val, k) ∧ s.dmaRoom 11 = true ∧ s.sramSound ∧ sramRange a 32 = true ∧ s.jobOp c.val k = op ∧ bufOk inA inN = true ∧ bufOk outA cap = true ∧ bufOk txA txN = true
    let status := fun (t : State) => t.num (a + 28) 1
    let done := fun (t : State) => bitOf (t.num a 4) 31 = true
    let apart := outA + cap ≤ a ∨ a + 32 ≤ outA
    let dec := s.decodeJob c.val k
    let enc := s.encodeJob c.val k
    let dig := s.digestJob c.val k
    let inp := s.bytes inA inN
    let stat := Reg.SES_STAT c.val
    let opened := s.tlsOpen c.val
    let goes := s.tlsRefusal c.val res = none
    let fits := res.out.length ≤ cap ∧ res.tx.length ≤ txN
    let cert := (s.rd (Reg.SES_CERT_BASE c.val)).toNat % 4 = 0 ∧ s.fld (Reg.SES_CERT_LEN c.val) F.SES_CERT_LEN_VAL = 0
    let tellsAll := (s.clamped c.val k).1.all (fun x => !exceeds x.1 x.2 (s.thrDa c.val))
    (ready 1 ∧ apart → Answers .decode s (fun t => t.bytes outA dec.out.length = dec.out ∧ status t = dec.status % 256 ∧ done t ∧ t.num (a + 18) 2 = dec.out.length ∧ BytesOnly (fun x => decide (outA ≤ x ∧ x < outA + cap ∨ a ≤ x ∧ x < a + 32)) s t ∧ t.ses.lastCodec = c.val ∧ Fires s t 0x0D c.val)) ∧
    (ready 1 ∧ schemaOk (s.proto c.val) (s.jobSchema c.val k) = false → Answers .decode s (fun t => status t = 0x15 ∧ done t ∧ BytesOnly (fun x => decide (a ≤ x ∧ x < a + 32)) s t)) ∧
    (ready 1 ∧ schemaOk (s.proto c.val) (s.jobSchema c.val k) = true ∧ s.jobBit c.val k 12 = true ∧ inN ≤ 8192 ∧ inp.take 2 ≠ [0x01, 0xFE] → Answers .decode s (fun t => status t = 0x14 ∧ done t)) ∧
    (ready 2 ∧ apart → Answers .encode s (fun t => t.bytes outA enc.out.length = enc.out ∧ status t = enc.status % 256 ∧ done t ∧ t.num (a + 29) 1 = enc.detail % 256 ∧ (enc.status = 0 → s.jobBit c.val k 13 = true → tellsAll = true → t.flag stat F.SES_STAT_TOLD = true))) ∧
    (exceeds (clampItem da (v, e)).1 (clampItem da (v, e)).2 da = false ∧ (exceeds v e da = false → clampItem da (v, e) = (v, e))) ∧
    (ready 3 ∧ apart → Answers .digest s (fun t => t.bytes outA dig.out.length = dig.out ∧ status t = dig.status % 256 ∧ done t ∧ (dig.status = 0 → dig.out.length = (if s.jobWord c.val k 0 / 2 ^ 14 % 4 = 1 then 48 else 32)))) ∧
    (ready 0x10 ∧ cert ∧ goes ∧ fits ∧ res.stays = true → Answers (.tlsAccept res) s (fun t => t.tlsOpen c.val = true ∧ t.fld stat F.SES_STAT_TLS_VER = s.tlsVersion c.val res % 4 ∧ status t = res.status.toNat ∧ done t ∧ t.ses.lastTls = c.val)) ∧
    (ready 0x11 ∧ opened = true ∧ goes ∧ fits → Answers (.tlsIn res) s (fun t => status t = res.status.toNat ∧ done t ∧ t.num (a + 30) 2 = res.consumed.toNat ∧ t.tlsOpen c.val = res.stays)) ∧
    (ready 0x11 ∧ opened = true ∧ goes ∧ ¬fits → Answers (.tlsIn res) s (fun t => status t = 0x13 ∧ done t ∧ t.tlsOpen c.val = true)) ∧
    (ready 0x12 ∧ opened = true ∧ goes ∧ fits ∧ apart → Answers (.tlsOut res) s (fun t => t.bytes outA res.out.length = res.out ∧ status t = res.status.toNat ∧ done t)) ∧
    (ready 0x13 ∧ opened = true ∧ goes ∧ fits → Answers (.tlsClose res) s (fun t => t.tlsOpen c.val = false ∧ t.fld stat F.SES_STAT_TLS_VER = 0 ∧ status t = res.status.toNat ∧ done t)) ∧
    (ready 0x10 ∧ cert ∧ s.tlsRefusal c.val res = some why → Answers (.tlsAccept res) s (fun t => status t = why.1 % 256 ∧ t.num (a + 29) 1 = why.2 % 256 ∧ done t ∧ t.tlsOpen c.val = false)) ∧
    (ready 0x11 ∧ opened = true ∧ s.tlsRefusal c.val res = some why → Answers (.tlsIn res) s (fun t => status t = why.1 % 256 ∧ done t ∧ t.tlsOpen c.val = false)) ∧
    (res.offer = some o ∧ (s.tlsKey c.val).map (fun y => tlsPick y.alg o) = some 0 → s.tlsRefusal c.val res = some (0x21, 40)) ∧
    (ready 0x11 ∧ opened = false → Answers (.tlsIn res) s (fun t => status t = 0x23 ∧ done t ∧ t.tlsOpen c.val = false)) ∧
    (ready 0x12 ∧ opened = false → Answers (.tlsOut res) s (fun t => status t = 0x23 ∧ done t)) ∧
    (ready 0x13 ∧ opened = false → Answers (.tlsClose res) s (fun t => status t = 0x23 ∧ done t)) ∧
    (s.nextJob false = none → Writes .decode s [] (fun t => t = s) ∧ Writes .encode s [] (fun t => t = s) ∧ Writes .digest s [] (fun t => t = s)) ∧
    (s.nextJob true = none → Writes (.tlsIn res) s [] (fun t => t = s) ∧ Writes (.tlsClose res) s [] (fun t => t = s)) ∧
    (Writes (.sesChannelDisable c) s [stat, Reg.SES_CH_CTRL c.val] (fun t => t.flag (Reg.SES_CH_CTRL c.val) F.SES_CH_CTRL_EN = false ∧ t.tlsOpen c.val = false ∧ t.mem = s.mem ∧ t.jobOf c.val true = none ∧ t.jobOf c.val false = none)) ∧
    (Writes (.sesTimerArm c ms) s [stat, Reg.SES_TMR c.val] (fun t => t.fld (Reg.SES_TMR c.val) F.SES_TMR_MS = ms.toNat ∧ t.flag stat F.SES_STAT_TMR_RUN = decide (ms ≠ 0) ∧ Tab.get (fun _ => none) t.ses.due c.val = (if ms = 0 then none else some (s.now + ms.toNat * 16000000)))) ∧
    (s.reached (Tab.get (fun _ => none) s.ses.due c.val) = true → Writes (.sesTimerExpiry c) s [stat] (fun t => t.flag stat F.SES_STAT_TMR_RUN = false ∧ Tab.get (fun _ => none) t.ses.due c.val = none ∧ Fires s t 0x0D (0x20 + c.val))) ∧
    (s.reached (Tab.get (fun _ => none) s.ses.due c.val) = false → Writes (.sesTimerExpiry c) s [] (fun t => t = s)) ∧
    (Writes (.sesEngineFault tls false) s [Reg.ERR_BLK_STATUS 0x0D, Reg.ERR_BLK_STATUS 0x0D + 4, Reg.ERR_BLK_STATUS 0x0D + 8, Reg.ERR_BLK_STATUS 0x0D + 12] (fun t => Noted s t 0x0D (if tls then 1 else 0) 0x01 ∧ t.ses = s.ses) ∧ Answers (.sesEngineFault true true) s (fun t => t.tlsOpen b.val = false ∧ (s.nextJob true = none → s.flag (Reg.ERR_BLK_STATUS 0x0D) F.ERR_BLK_STATUS_OPEN = false → (t.blkRec 0x0D).code = 0x03 ∧ (t.blkRec 0x0D).cell = 1)))

/-- While the enabled thermal unit acts: the second broken conversion in a row sets BROKEN, not the first; a broken PIN
input shuts the outlets it concerns down softly, a broken LOOP input with agreeing neighbours takes their median instead. A
valid input uses its reading, and at SHUT stops its outlets hard: DA and ENF 0. Each reading of the current of a tracked
outlet adds its square, a stale one RATED while the outlet is closed; with 1,000 of them the cable model takes its step, at
MSHUT stops its outlet hard, and without coolant temperature softly. A completed hold sets READY; ACK then leaves the
shutdown, and without READY is refused. A rise of CBL CFG.EN sets MT. A TJ at TJ_WARN notes 0x08, at 130 °C contains 0x09; a
failed reference check shuts every outlet down with CONTAIN 0x04. THERMAL_RECORD hands the oldest record to the event log.
Commands that complete here (exec answers a next state with their own effect, under conditions on the state and the operands
alone): tsConversion, cableModelUpdate, shutdownHoldComplete, cblAck, cblEnable, tjConversion, thermalReferenceCheck.
(13_thermal.md R314, 13_thermal.md R315, 13_thermal.md R316, 13_thermal.md R317, 13_thermal.md R319, 13_thermal.md R322,
13_thermal.md R326, 13_thermal.md R327, 13_thermal.md R328, 13_thermal.md R332, 13_thermal.md R335) -/
def Obligations.TemperaturesShutOutletsDown : Prop :=
  ∀ (s : State) (n : Fin 64) (o : Fin 8) (r : BitVec 20) (data : Word) (j : Fin 8) (v : BitVec 16) (u : Nat), s.acts .thermal ∧ s.thOn = true →
    let x := s.sensor n.val
    let on := s.tsOn n.val = true
    let brk := s.tsFlag n.val F.TS_VAL_BROKEN
    let low := r.toNat * 50 < 2 ^ 20 ∨ 49 * 2 ^ 20 < r.toNat * 50
    let loop := s.tsLoop n.val
    let nb := s.neighbours n.val
    let cares := s.concerns n.val o.val = true ∧ s.cblOn o.val = true
    let st := Reg.CBL_STATE o.val
    let shut := fun (t : State) => t.cblFlag o.val F.CBL_STATE_SHUT = true
    let hard := fun (t : State) => t.cblFlag o.val F.CBL_STATE_HARD = true
    let soft := fun (t : State) => shut t ∧ t.cblDa o.val = 0 ∧ t.cblEnf o.val = s.cblEnf o.val ∧ t.cblFlag o.val F.CBL_STATE_HARD = s.cblFlag o.val F.CBL_STATE_HARD
    let stops := fun (t : State) => shut t ∧ hard t ∧ t.cblDa o.val = 0 ∧ t.cblEnf o.val = 0
    let cool := s.coolTs o.val
    let mt := s.modelStep o.val 0
    let full := s.cblOn o.val = true ∧ 1000 ≤ (s.cable o.val).seen
    let ain := s.fld (Reg.OUTL_CFG o.val) F.OUTL_CFG_I_AIN
    let sum := (s.cable o.val).sum
    let rth := s.fld (Reg.CBL_RTH o.val) F.CBL_RTH_RTH
    let cth := s.fld (Reg.CBL_CTH o.val) F.CBL_CTH_CTH
    let hold := (if s.fld Reg.TH_CTRL F.TH_CTRL_HOLD_S = 0 then 1 else s.fld Reg.TH_CTRL F.TH_CTRL_HOLD_S) * ticksPerS
    let ready := s.cblFlag o.val F.CBL_STATE_READY
    let warn := signed 16 (s.rd Reg.TH_TJ).toNat
    let tj := signed 16 v.toNat
    let pass := 495 * 2 ^ 20 ≤ r.toNat * 1000 ∧ r.toNat * 1000 ≤ 505 * 2 ^ 20
    (on ∧ low ∧ 1 ≤ x.bad → Answers (.tsConversion n r) s (fun t => t.tsFlag n.val F.TS_VAL_BROKEN = true ∧ (t.sensor n.val).bad = 2)) ∧
    (on ∧ low ∧ x.bad = 0 ∧ brk = false → Answers (.tsConversion n r) s (fun t => t.tsFlag n.val F.TS_VAL_BROKEN = false ∧ (t.sensor n.val).bad = 1)) ∧
    (on ∧ low ∧ 1 ≤ x.bad ∧ loop = false ∧ cares ∧ ¬shut s → Answers (.tsConversion n r) s (fun t => soft t ∧ t.fld (Reg.CBL_CAUSE o.val) F.CBL_CAUSE_SCAUSE = 2 ∧ t.fld (Reg.CBL_CAUSE o.val) F.CBL_CAUSE_SENSOR = n.val)) ∧
    (on ∧ low ∧ 1 ≤ x.bad ∧ loop = true ∧ 2 ≤ nb.length ∧ within (s.tsTol n.val) nb = true ∧ -32768 ≤ median nb ∧ median nb < s.tsShut n.val → Answers (.tsConversion n r) s (fun t => t.tsFlag n.val F.TS_VAL_SUBST = true ∧ t.tsUsed n.val = median nb ∧ t.cblFlag o.val F.CBL_STATE_SHUT = s.cblFlag o.val F.CBL_STATE_SHUT)) ∧
    (on ∧ brk = false ∧ loop = false → Answers (.tsConversion n r) s (fun t => (s.convert n.val r.toNat).all (fun y => decide (t.tsUsed n.val = y ∧ (s.tsShut n.val ≤ y → cares → ¬(shut s ∧ hard s) → stops t) ∧ (y < s.tsShut n.val → (shut t ↔ shut s)))) = true)) ∧
    (s.cblOn o.val = true ∧ (s.cable o.val).seen < 1000 → Writes (.cableModelUpdate o) s [] (fun t => t = s)) ∧
    (s.stale ain = true → (s.cableSample o.val).cable o.val = { s.cable o.val with sum := sum + (if s.energ o.val then s.rated o.val ^ 2 * 2 ^ 62 else 0), seen := (s.cable o.val).seen + 1 } ∧ (s.cableSample o.val).cblFlag o.val F.CBL_STATE_STALE = true ∧ RegsOnly [st] s (s.cableSample o.val)) ∧
    (s.stale ain = false → ((s.cableSample o.val).cable o.val).sum = sum + 100 * (s.fld (Reg.CBL_CFG o.val) F.CBL_CFG_ISCALE * (s.ainRes ain).natAbs) ^ 2 ∧ (s.cableSample o.val).cblFlag o.val F.CBL_STATE_STALE = false) ∧
    (full ∧ s.tsUsable cool = true ∧ rth ≠ 0 ∧ cth ≠ 0 → Answers (.cableModelUpdate o) s (fun t => (t.cable o.val).mt = mt ∧ (t.cable o.val).seen = 0 ∧ (t.cable o.val).sum = 0 ∧ t.fld st F.CBL_STATE_MT = unsigned 16 (Int.tdiv mt 100000000) ∧ (s.mShut o.val ≤ Int.tdiv mt 100000000 → ¬(shut s ∧ hard s) → stops t))) ∧
    (full ∧ s.tsOn cool = true ∧ s.tsFlag cool F.TS_VAL_BROKEN = true ∧ s.tsFlag cool F.TS_VAL_SUBST = false ∧ ¬shut s → Answers (.cableModelUpdate o) s (fun t => soft t ∧ t.fld (Reg.CBL_CAUSE o.val) F.CBL_CAUSE_SCAUSE = 3 ∧ (t.cable o.val).mt = (s.cable o.val).mt)) ∧
    (shut s ∧ ready = false ∧ (s.cable o.val).holdAt = some u ∧ u + hold ≤ s.now → Writes (.shutdownHoldComplete o) s [st] (fun t => t.cblFlag o.val F.CBL_STATE_READY = true ∧ shut t ∧ Fires s t 0x19 (0x10 + o.val))) ∧
    ((s.cable o.val).holdAt = none → Writes (.shutdownHoldComplete o) s [] (fun t => t = s)) ∧
    (ready = true → Answers (.cblAck o) s (fun t => ¬shut t ∧ ¬hard t ∧ t.cblFlag o.val F.CBL_STATE_READY = false ∧ (t.cable o.val).hist = [] ∧ t.cblDa o.val = s.cblDa o.val ∧ (s.thermal.queue.length < 8 → t.thermal.queue.length = s.thermal.queue.length + 1))) ∧
    (ready = false → Writes (.cblAck o) s [st] (fun t => t.cblFlag o.val F.CBL_STATE_ACK_REFUSED = true ∧ (shut t ↔ shut s) ∧ t.thermal = s.thermal)) ∧
    (s.cblOn o.val = false ∧ F.CBL_CFG_EN.get data = 1 ∧ (s.cable o.val).kept = false → Writes (.cblEnable o data) s [Reg.CBL_CFG o.val, st] (fun t => t.rd (Reg.CBL_CFG o.val) = data &&& 0xBFFFFFFF ∧ (t.cable o.val).mt = (s.tsUsed (F.CBL_CFG_COOL_TS.get data) + F.CBL_CFG_INIT_K.get data) * 100000000)) ∧
    (s.cblOn o.val = true ∧ F.CBL_CFG_EN.get data = 0 → Answers (.cblEnable o data) s (fun t => t.cblOn o.val = false ∧ t.cblDa o.val = 0xFFFF)) ∧
    (warn ≤ tj ∧ tj < 1300 → Answers (.tjConversion j v) s (fun t => t.rd (Reg.TJ_VAL j.val) = BitVec.ofNat 32 v.toNat ∧ Noted s t 0x19 (0x40 + j.val) 0x08 ∧ Fires s t 0x19 0x1E ∧ t.thermal.coolAt = none)) ∧
    (1300 ≤ tj ∧ tj < warn ∧ s.thermal.coolAt = none → Answers (.tjConversion j v) s (fun t => Contained s t 0x19 (0x40 + j.val) 0x09)) ∧
    (1300 ≤ tj ∧ warn ≤ tj → Answers (.tjConversion j v) s (fun t => t.flag (Reg.ERR_BLK_STATUS 0x19) F.ERR_BLK_STATUS_OPEN = true)) ∧
    (¬pass → Answers (.thermalReferenceCheck r) s (fun t => t.flag Reg.TH_STAT F.TH_STAT_REF_ERR = true ∧ (s.cblOn o.val = true → ¬shut s → soft t) ∧ t.flag (Reg.ERR_BLK_STATUS 0x19) F.ERR_BLK_STATUS_OPEN = true)) ∧
    (pass ∧ s.thermal.passAt = none → Writes (.thermalReferenceCheck r) s [Reg.TH_STAT] (fun t => t.flag Reg.TH_STAT F.TH_STAT_REF_ERR = false ∧ t.thermal.passAt = some s.now))

/-- While the thermal unit acts, and for the limits is enabled: DA_RECOMPUTE gives an untracked outlet 0xFFFF, one in
shutdown 0, and any other the least active candidate in steps of QSTEP and at most RATED, rising by at most RISE, or 0xFFFF
where nothing limits it; THR of the session engine follows. ENF_UPDATE sets ENF to the greatest DA of the last GRACE ms, and
TLIM from it. TACH_EDGE within FILT of the last edge does nothing, else takes the speed from the last period, or sets STUCK
with NOTE 0x07 beyond FMAX; TACH_TIMEOUT reads 0 after 1 s. FAN_STALL of a low speed for STALL_MS sets STALL with NOTE 0x06.
THERMAL_RECORD hands the oldest record to the event log. Commands that complete here (exec answers a next state with their
own effect, under conditions on the state and the operands alone): daRecompute, enfUpdate, tachEdge, tachTimeout, fanStall,
thermalRecord. (13_thermal.md R320, 13_thermal.md R324, 13_thermal.md R325, 13_thermal.md R327, 13_thermal.md R330,
13_thermal.md R331, 13_thermal.md R336, 12_session.md R306) -/
def Obligations.ThermalLimitsThrottleAndFansAreWatched : Prop :=
  ∀ (s : State) (o : Fin 8) (k : Fin 4) (u : Nat) (z : List Byte) (rest : List (List Byte)), s.acts .thermal →
    let cands := s.candidates o.val s.freeNat
    let rat := s.rated o.val
    let q := if s.fld Reg.TH_STEP F.TH_STEP_QSTEP = 0 then 1 else s.fld Reg.TH_STEP F.TH_STEP_QSTEP
    let rise := if s.fld Reg.TH_STEP F.TH_STEP_RISE = 0 then 1 else s.fld Reg.TH_STEP F.TH_STEP_RISE
    let least := (cands.map (fun y => y.2.2)).foldl min 0xFFFF
    let c0 := if cands = [] then rat else min rat (least / q * q)
    let da := s.cblDa o.val
    let prev := if da = 0xFFFF then rat else da
    let c1 := if prev < c0 then min c0 (prev + rise) else c0
    let on := s.cblOn o.val = true
    let shut := s.cblFlag o.val F.CBL_STATE_SHUT
    let grace := max 500 (min 10000 (s.fld Reg.TH_CTRL F.TH_CTRL_GRACE)) * 16000000
    let held : List Nat := ((s.cable o.val).hist.filter (fun y => s.now < y.1 + grace)).map (fun y => y.2)
    let f := s.fan k.val
    let stat := Reg.FAN_STAT k.val
    let fmax := s.fld (Reg.FAN_TACH2 k.val) F.FAN_TACH2_FMAX
    let ppr := if s.fld (Reg.FAN_TACH k.val) F.FAN_TACH_PPR = 0 then 1 else s.fld (Reg.FAN_TACH k.val) F.FAN_TACH_PPR
    let filt := s.fld (Reg.FAN_TACH k.val) F.FAN_TACH_FILT * 16000
    let ms := s.fld (Reg.FAN_TACH k.val) F.FAN_TACH_STALL_MS
    (s.thOn = true ∧ on ∧ shut = false → Answers (.daRecompute o) s (fun t => t.cblDa o.val = (if cands = [] ∧ rat ≤ c1 then 0xFFFF else c1) ∧ t.cblFlag o.val F.CBL_STATE_THROT = decide (cands ≠ []) ∧ (t.cblDa o.val ≠ da → s.cblEnf o.val < t.cblDa o.val → t.cblEnf o.val = t.cblDa o.val))) ∧
    (s.thOn = true ∧ on ∧ shut = true → Answers (.daRecompute o) s (fun t => t.cblDa o.val = 0)) ∧
    (s.thOn = true ∧ ¬on → Answers (.daRecompute o) s (fun t => t.cblDa o.val = 0xFFFF ∧ t.cblEnf o.val = if da = 0xFFFF then s.cblEnf o.val else 0xFFFF)) ∧
    (s.thOn = true ∧ s.acts .session → Answers (.daRecompute o) s (fun t => t.cblDa o.val ≠ s.cblDa o.val → t.thrDa o.val = t.cblDa o.val ∧ t.flag (Reg.SES_STAT o.val) F.SES_STAT_TOLD = (if s.thrDa o.val = t.cblDa o.val then s.flag (Reg.SES_STAT o.val) F.SES_STAT_TOLD else false))) ∧
    (s.thOn = true ∧ s.acts .twill ∧ (∀ y ∈ held, y ≤ 0xFFFF) → Writes (.enfUpdate o) s [Reg.CBL_LIMIT o.val] (fun t => t.cblEnf o.val = held.foldl max da ∧ t.cblDa o.val = da ∧ t.tlim o.val = BitVec.ofNat 32 (if t.cblEnf o.val = 0xFFFF then 0x7FFFFFFF else min 0x7FFFFFFF (t.cblEnf o.val * 2 ^ 31 / 40960)))) ∧
    (f.edge = some u ∧ filt ≤ s.now - u ∧ fmax * (s.now - u) < ticksPerS ∧ s.flag stat F.FAN_STAT_STUCK = false → Writes (.tachEdge k) s [stat, Reg.ERR_BLK_STATUS 0x19, Reg.ERR_BLK_STATUS 0x19 + 4, Reg.ERR_BLK_STATUS 0x19 + 8, Reg.ERR_BLK_STATUS 0x19 + 12] (fun t => t.flag stat F.FAN_STAT_STUCK = true ∧ Noted s t 0x19 (0x50 + k.val) 0x07 ∧ (t.fan k.val).edge = some s.now)) ∧
    (f.edge = some u ∧ s.now - u < filt → Writes (.tachEdge k) s [] (fun t => t = s)) ∧
    (f.edge = some u ∧ filt ≤ s.now - u ∧ ticksPerS ≤ fmax * (s.now - u) → Writes (.tachEdge k) s [stat] (fun t => t.fld stat F.FAN_STAT_RPM = min 0xFFFF (60 * ticksPerS / (ppr * (s.now - u))) ∧ (t.fan k.val).edge = some s.now)) ∧
    (f.edge = none → Writes (.tachEdge k) s [] (fun t => (t.fan k.val).edge = some s.now)) ∧
    (f.edge = some u ∧ u + ticksPerS ≤ s.now → Writes (.tachTimeout k) s [stat] (fun t => t.fld stat F.FAN_STAT_RPM = 0 ∧ (t.fan k.val).edge = none)) ∧
    ((f.lowAt = some u) ∧ s.fld stat F.FAN_STAT_RPM < s.fld (Reg.FAN_TACH2 k.val) F.FAN_TACH2_SPD_MIN ∧ s.flag (Reg.FAN_CFG k.val) F.FAN_CFG_EN = true ∧ s.fld (Reg.FAN_DLIM k.val) F.FAN_DLIM_DMIN ≤ s.fanDuty k.val ∧ ms ≠ 0 ∧ u + ms * 16000000 ≤ s.now ∧ s.flag stat F.FAN_STAT_STALL = false → Writes (.fanStall k) s [stat, Reg.ERR_BLK_STATUS 0x19, Reg.ERR_BLK_STATUS 0x19 + 4, Reg.ERR_BLK_STATUS 0x19 + 8, Reg.ERR_BLK_STATUS 0x19 + 12] (fun t => t.flag stat F.FAN_STAT_STALL = true ∧ Noted s t 0x19 (0x50 + k.val) 0x06 ∧ Fires s t 0x19 (0x1A + k.val))) ∧
    (ms = 0 → Writes (.fanStall k) s [] (fun t => t.ladder = s.ladder)) ∧
    (s.domUp 4 = true ∧ s.ledger.down = false ∧ s.acts .eventStore ∧ z.length = 32 ∧ s.thermal.queue = z :: rest → Answers .thermalRecord s (fun t => t.thermal.queue = rest ∧ t.bytes (mramBase + mramGeneral + 32 * (s.ledger.gen % 32768)) 32 = z ∧ t.ledger.gen = s.ledger.gen + 1))

/-- While the Ledger has its supply: METER_BLOCK_END of 800 samples converts every sample of a metered outlet exactly, adds
its energy to the residues and registers, sets NOLOAD, owes pulses, and writes the state to the next copy; an outlet not
metered keeps its registers. An overrange sets OVR; an outlet valid for 1 s leaves INVALID. METER_CHANNEL_INVALID sets
INVALID with CONTAIN 0x02 and an entry. MPULSE_PULSE sends an owed pulse no sooner than 2 PW after the last began.
LEGAL_UPD_CHANGE is logged byte for byte, counted in MISSED where the logbook is full, and LOG_NEAR comes at 7,782 entries.
LEGAL_TX sends its lines at their times. The 24 h recheck stops metering on a mismatch. Commands that complete here (exec
answers a next state with their own effect, under conditions on the state and the operands alone): meterBlockEnd,
meterChannelInvalid, mpulsePulse, legalUpdChange, legalTxCheck, legalTxEnergy, meterImageRecheck. (14_metrology.md R341,
14_metrology.md R343, 14_metrology.md R344, 14_metrology.md R346, 14_metrology.md R347, 14_metrology.md R348,
14_metrology.md R350, 14_metrology.md R355, 14_metrology.md R356, 14_metrology.md R358, 14_metrology.md R362,
14_metrology.md R366) -/
def Obligations.MeteringAccumulatesEnergyAndPulses : Prop :=
  ∀ (s : State) (o : Fin 8) (k : Fin 16) (samples : List (List (BitVec 24))) (high : Bool) (v : Nat), s.domUp 4 = true ∧ s.ledger.down = false →
    let g := s.ledger
    let m := o.val
    let x := s.meter m
    let b := 0x20 + 32 * m
    let u := fun (c : BitVec 24) => Int.tdiv ((c.toInt - s.parInt (b + 24)) * s.par (b + 8) 4 * 100 * (1000000 + s.parInt (b + 16))) 8388608000000
    let amp := fun (c : BitVec 24) => Int.tdiv ((c.toInt - s.parInt (b + 28)) * s.par (b + 12) 4 * 100 * (1000000 + s.parInt (b + 20))) 8388608000000
    let cur := fun (c : BitVec 24) => if s.par (b + 1) 1 = 1 then -amp c else amp c
    let code := fun (y : List (BitVec 24)) (j : Nat) => y.getD (2 * m + j) 0
    let si := (samples.map (fun y => cur (code y 1))).sum
    let p := (samples.map (fun y => u (code y 0) * cur (code y 1))).sum
    let nl := x.tainted = false ∧ si.natAbs * 100 < s.par (b + 4) 4 * s.par (b + 2) 2 * samples.length
    let e := if x.tainted = true ∨ nl then 0 else p
    let ri := x.resImp + e.toNat
    let re := x.resExp + (-e).toNat
    let unit := 28800000000
    let pulses := x.frac + (if bitOf (s.par 7 1) m = true then re / unit else ri / unit) * s.par (8 + 2 * m) 2
    let blk := g.running = true ∧ samples.length = 800
    let fl := Reg.MET_O_FLAGS m
    let n := g.entries
    let at_ := mramBase + 64 * n
    let room := n + 1 ≤ 8192
    let entry := fun (kind outlet : Nat) (data : List Byte) => leBytes 1 kind ++ leBytes 1 outlet ++ [0, 0] ++ leBytes 4 n ++ leBytes 8 (s.tbSec 3) ++ leBytes 4 (s.tbSubNs 3) ++ leBytes 4 (s.tbSec 0) ++ leBytes 4 (s.tbSubNs 0) ++ data ++ List.replicate (32 - data.length) 0
    let logged := fun (t : State) (l : List Byte) => t.ledger.entries = n + 1 ∧ t.bytes at_ 64 = l ++ leBytes 4 (crc32 l).toNat
    let c := k.val
    let mk := c / 2
    let y := s.meter mk
    let fk := Reg.MET_O_FLAGS mk
    let bad := bitOf y.bad (c % 2)
    let upd := s.flag Reg.MET_STATUS F.MET_STATUS_UPD
    let pw := s.par 6 1
    let sec := 16000000000
    let same := sha256 (s.bytes metroItcm g.codeLen) = g.digest
    (blk ∧ s.metOn m = true → Answers (.meterBlockEnd samples) s (fun t => (t.meter m).imp = (x.imp + ri / unit) % 2 ^ 64 ∧ (t.meter m).resImp = ri % unit ∧ (t.meter m).exp = (x.exp + re / unit) % 2 ^ 64 ∧ (t.meter m).resExp = re % unit ∧ t.flag fl F.MET_O_FLAGS_NOLOAD = decide nl ∧ (t.meter m).owed = min 65535 (x.owed + pulses / 1000000) ∧ (t.meter m).frac = pulses % 1000000)) ∧
    (blk ∧ s.metOn m = false → Answers (.meterBlockEnd samples) s (fun t => (t.meter m).imp = x.imp ∧ (t.meter m).exp = x.exp ∧ (t.meter m).resImp = x.resImp ∧ (t.meter m).resExp = x.resExp ∧ (t.meter m).owed = x.owed)) ∧
    (blk → Answers (.meterBlockEnd samples) s (fun t => t.ledger.seq = g.seq + 1 ∧ (if g.seq % 2 = 0 then t.ledger.copyB = g.copyB ∧ t.ledger.copyA.map (fun z => (z.seq, z.meter)) = some (g.seq, t.ledger.meter) else t.ledger.copyA = g.copyA ∧ t.ledger.copyB.map (fun z => (z.seq, z.meter)) = some (g.seq, t.ledger.meter)))) ∧
    (blk ∧ s.metOn m = true ∧ g.req = none ∧ samples.any (fun z => decide (code z 0 = 0x7FFFFF)) = true → Answers (.meterBlockEnd samples) s (fun t => t.flag fl F.MET_O_FLAGS_OVR = true)) ∧
    (blk ∧ g.next = none ∧ s.flag fl F.MET_O_FLAGS_INVALID = true ∧ x.validAt = some v → Answers (.meterBlockEnd samples) s (fun t => t.flag fl F.MET_O_FLAGS_INVALID = decide (s.now < v + sec))) ∧
    (¬blk → Writes (.meterBlockEnd samples) s [] (fun t => t = s)) ∧
    (bad = false ∧ s.metOn mk = true → Answers (.meterChannelInvalid k false) s (fun t => t.flag fk F.MET_O_FLAGS_INVALID = true ∧ (t.meter mk).tainted = true ∧ (t.meter mk).imp = y.imp ∧ Contained s t 0x10 (0x10 + c) 0x02 ∧ (room → logged t (entry 7 mk (leBytes 1 c ++ [1]))))) ∧
    (y.bad = 2 ^ (c % 2) → Writes (.meterChannelInvalid k true) s [] (fun t => (t.meter mk).bad = 0 ∧ (t.meter mk).validAt = some s.now ∧ (t.meter mk).imp = y.imp)) ∧
    (g.running = true ∧ s.regionHeld 2 = false ∧ 0 < x.owed ∧ x.pulseAt.all (fun z => decide (z + 2 * pw * 16000000 ≤ s.now)) = true → Writes (.mpulsePulse o) s [] (fun t => t = s.setMeter m { x with owed := x.owed - 1, pulseAt := some s.now })) ∧
    (x.pulseAt = some v ∧ s.now < v + 2 * pw * 16000000 → Writes (.mpulsePulse o) s [] (fun t => t = s)) ∧
    (upd = !high ∧ room → Answers (.legalUpdChange high) s (fun t => t.flag Reg.MET_STATUS F.MET_STATUS_UPD = high ∧ logged t (entry 0x0D 0xFF (leBytes 1 (if high = true then 1 else 0))) ∧ BytesOnly (fun z => decide (at_ ≤ z ∧ z < at_ + 64)) s t ∧ (n + 1 = 7782 → t.flag Reg.MET_STATUS F.MET_STATUS_LOG_NEAR = true))) ∧
    (upd = !high ∧ ¬room → Writes (.legalUpdChange high) s [Reg.MET_STATUS, Reg.MET_LOG] (fun t => t.mem = s.mem ∧ t.ledger = g ∧ t.fld Reg.MET_LOG F.MET_LOG_MISSED = min 65535 (s.fld Reg.MET_LOG F.MET_LOG_MISSED + 1))) ∧
    (upd = high → Writes (.legalUpdChange high) s [] (fun t => t = s)) ∧
    (g.running = true ∧ g.chkAt + 10 * sec ≤ s.now → Writes .legalTxCheck s [] (fun t => t.out = s.out ++ [.legal ([67, 72, 75, 32] ++ digits 16 8 (s.rd Reg.MET_CHECK).toNat ++ [32, 80, 67, 82, 67, 32] ++ digits 16 8 (s.rd Reg.MET_PCRC).toNat ++ [13, 10])] ∧ t.ledger = { g with chkAt := s.now })) ∧
    (s.now < g.chkAt + 10 * sec → Writes .legalTxCheck s [] (fun t => t = s)) ∧
    (g.running = true ∧ g.txAt + sec ≤ s.now → Writes .legalTxEnergy s [] (fun t => t.out = s.out ++ ((List.range 8).filter s.metOn).map (fun z => .legal (s.energyLine z)) ∧ t.ledger = { g with txAt := s.now })) ∧
    (g.image = true ∧ g.running = true ∧ g.imageAt + 86400 * sec ≤ s.now → Answers .meterImageRecheck s (fun t => t.ledger.imageAt = s.now ∧ (same → t = s.setLedger { g with imageAt := s.now }) ∧ (¬same → t.ledger.running = false ∧ t.flag Reg.MET_STATUS F.MET_STATUS_STOP = true ∧ (room → logged t (entry 8 0xFF [4])) ∧ t.out = s.out ++ [.legal [83, 84, 79, 80, 32, 48, 52, 13, 10]]))) ∧
    (s.now < g.imageAt + 86400 * sec → Writes .meterImageRecheck s [] (fun t => t = s))

/-- PARAMETER_LOAD is refused busy (2), with LEGAL_UPD low (3), malformed (4) or with a full logbook (6); else the block is
stored twice, logged with entry 0x03, and takes effect at the next block end, or at once where metering is stopped, which
restarts it. A reading request is taken, or refused with RESULT 2 or 5; its instant is the first block end of a later cycle;
its record is written byte for byte with its signature behind it, and RSEQ counts. LEDGER_RESTORE takes the valid copy with
the higher sequence number; with none metering stops; a lost VBAT sets AON_LOST. TCW_SAMPLE counts a magnitude above the
threshold while PD_LEDGER is unpowered. EVS_MRAM_ECC notes a corrected word or marks a bad one. Commands that complete here
(exec answers a next state with their own effect, under conditions on the state and the operands alone): parameterLoad,
meterBlockEnd, readingStart, readingStop, readingOnRequest, readingRecordComplete, ledgerRestore, tcwSample, evsMramEcc.
(14_metrology.md R341, 14_metrology.md R351, 14_metrology.md R352, 14_metrology.md R353, 14_metrology.md R354,
14_metrology.md R355, 14_metrology.md R360, 14_metrology.md R362, 14_metrology.md R363, 14_metrology.md R364,
14_metrology.md R366) -/
def Obligations.ReadingsParametersAndTheRestore : Prop :=
  ∀ (s : State) (o : Fin 8) (samples : List (List (BitVec 24))) (r : Reading) (y : ReadSnap) (p : List Byte) (c d : Saved) (badB : Bool) (uv : BitVec 24) (addr : BitVec 22), 
    let g := s.ledger
    let on := s.domUp 4 = true ∧ g.down = false
    let st := on ∧ s.acts .eventStore
    let busy := s.flag Reg.EVS_REQ_STAT F.EVS_REQ_STAT_BUSY
    let result := fun (t : State) => t.fld Reg.EVS_REQ_STAT F.EVS_REQ_STAT_RESULT
    let upd := s.flag Reg.MET_STATUS F.MET_STATUS_UPD
    let a := (s.rd Reg.EVS_ADDR).toNat
    let l := s.bytes a 0x124
    let crc := leNat (l.drop 0x120)
    let good := a % 4 = 0 ∧ sramRange a 0x124 = true ∧ s.sramSound
    let formed := leNat (l.take 4) = 1 ∧ crc32 (l.take 0x120) = BitVec.ofNat 32 crc
    let n := g.entries
    let room := n + 1 ≤ 8192
    let at_ := mramBase + 64 * n
    let takes := busy = false ∧ upd = true ∧ good ∧ formed ∧ room
    let sess := [0, 1, 2, 3].flatMap (fun k => leBytes 4 (s.rd (Reg.EVS_SESS k)).toNat)
    let wants := fun (k : Nat) (t : State) => t.ledger = { g with req := some ⟨k, o.val, sess, s.now / 320, none⟩ } ∧ t.flag Reg.EVS_REQ_STAT F.EVS_REQ_STAT_BUSY = true
    let blk := g.running = true ∧ samples.length = 800
    let q := r.outlet
    let slot := mramBase + 0x100000 + 256 * (g.rseq % 4096)
    let rec0 := leBytes 1 r.kind ++ leBytes 1 q ++ [1] ++ leBytes 1 y.status ++ leBytes 4 g.rseq ++ (List.range 8).map Config.serialByte ++ leBytes 4 (s.rd Reg.MET_CHECK).toNat ++ leBytes 4 (s.rd Reg.MET_PCRC).toNat ++ leBytes 8 y.imp ++ leBytes 8 y.exp ++ leBytes 8 y.sec ++ leBytes 4 y.ns ++ leBytes 4 y.lseq ++ r.session ++ leBytes 1 y.rate ++ [0, 0, 0] ++ s.metKeyId
    let dead := s.domUp 4 = true ∧ g.down = true
    let w := addr.toNat / 4 * 4
    let watch := bitOf (s.par 4 1) o.val = true ∧ s.par 5 1 * 500 < uv.toInt.natAbs
    (st ∧ busy = true → Writes .parameterLoad s [Reg.EVS_REQ_STAT] (fun t => result t = 2 ∧ t.ledger = g)) ∧
    (st ∧ busy = false ∧ upd = false → Writes .parameterLoad s [Reg.EVS_REQ_STAT] (fun t => result t = 3 ∧ t.ledger = g ∧ t.mem = s.mem)) ∧
    (st ∧ busy = false ∧ upd = true ∧ s.sramSound ∧ sramRange a 0x124 = true ∧ (¬good ∨ ¬formed) → Writes .parameterLoad s [Reg.EVS_REQ_STAT] (fun t => result t = 4 ∧ t.ledger = g ∧ t.mem = s.mem)) ∧
    (st ∧ busy = false ∧ upd = true ∧ sramRange a 0x124 = false → Answers .parameterLoad s (fun t => result t = 4 ∧ t.ledger = g ∧ t.mem = s.mem ∧ Noted s t 0x23 8 0xF1)) ∧
    (st ∧ busy = false ∧ upd = true ∧ good ∧ formed ∧ ¬room → Writes .parameterLoad s [Reg.EVS_REQ_STAT] (fun t => result t = 6 ∧ t.ledger = g ∧ t.mem = s.mem)) ∧
    (st ∧ takes ∧ g.running = true → Answers .parameterLoad s (fun t => result t = 1 ∧ t.ledger.next = some l ∧ t.ledger.par = g.par ∧ t.ledger.meter = g.meter ∧ t.bytes (mramBase + mramPar 0) 0x124 = l ∧ t.bytes (mramBase + mramPar 1) 0x124 = l ∧ t.ledger.entries = n + 1 ∧ t.bytes at_ 1 = [3] ∧ t.bytes (at_ + 0x1C) 8 = leBytes 4 (s.rd Reg.MET_PCRC).toNat ++ leBytes 4 crc)) ∧
    (st ∧ takes ∧ g.running = false ∧ g.image = true → Answers .parameterLoad s (fun t => result t = 1 ∧ t.ledger.running = true ∧ t.ledger.par = l ∧ t.rd Reg.MET_PCRC = BitVec.ofNat 32 crc ∧ t.flag Reg.MET_STATUS F.MET_STATUS_STOP = false)) ∧
    (on ∧ blk ∧ g.next = some p → Answers (.meterBlockEnd samples) s (fun t => t.ledger.par = p ∧ t.ledger.next = none ∧ t.rd Reg.MET_PCRC = BitVec.ofNat 32 (numAt p 0x120 4))) ∧
    (st ∧ busy = false ∧ g.running = true → Writes (.readingStart o) s [Reg.EVS_REQ_STAT] (fun t => wants 1 t)) ∧
    (st ∧ busy = false ∧ g.running = true → Writes (.readingStop o) s [Reg.EVS_REQ_STAT] (fun t => wants 2 t)) ∧
    (st ∧ busy = false ∧ g.running = true → Writes (.readingOnRequest o) s [Reg.EVS_REQ_STAT] (fun t => wants 3 t)) ∧
    (st ∧ busy = true → Writes (.readingStop o) s [Reg.EVS_REQ_STAT] (fun t => result t = 2 ∧ t.ledger = g)) ∧
    (st ∧ busy = false ∧ g.running = false → Writes (.readingStart o) s [Reg.EVS_REQ_STAT] (fun t => result t = 5 ∧ t.ledger = g)) ∧
    (on ∧ blk ∧ q < 8 ∧ g.req = some r ∧ r.snap = none ∧ r.cyc < s.now / 320 → Answers (.meterBlockEnd samples) s (fun t => (t.ledger.req.bind (fun z => z.snap)).map (fun z => (z.imp, z.exp, z.sec, z.ns)) = some ((t.meter q).imp, (t.meter q).exp, s.tbSec 3, s.tbSubNs 3) ∧ t.ledger.req.map (fun z => { z with snap := none }) = some r ∧ (t.ledger.req.bind (fun z => z.snap)).all (fun z => bitOf z.status 5 == upd) = true)) ∧
    (on ∧ blk ∧ g.req = some r ∧ r.snap = none ∧ r.cyc = s.now / 320 → Answers (.meterBlockEnd samples) s (fun t => t.ledger.req = some r)) ∧
    (st ∧ g.req = some r ∧ r.snap = some y ∧ r.session.length = 16 → Answers .readingRecordComplete s (fun t => t.bytes slot 80 = rec0 ∧ t.bytes (slot + 80) 64 = s.metSign rec0 ∧ BytesOnly (fun z => decide (slot ≤ z ∧ z < slot + 144)) s t ∧ t.rd Reg.EVS_RSEQ = BitVec.ofNat 32 g.rseq ∧ t.ledger.rseq = g.rseq + 1 ∧ t.ledger.req = none ∧ result t = 1 ∧ t.flag Reg.EVS_REQ_STAT F.EVS_REQ_STAT_BUSY = false)) ∧
    (st ∧ g.req = none → Writes .readingRecordComplete s [] (fun t => t = s)) ∧
    (dead ∧ g.copyA = some c ∧ g.copyB = some d ∧ d.seq < c.seq → Answers (.ledgerRestore false badB) s (fun t => t.ledger.down = false ∧ (t.meter o.val).imp = (Tab.get (fun _ => Meter.reset) c.meter o.val).imp ∧ (t.meter o.val).resImp = (Tab.get (fun _ => Meter.reset) c.meter o.val).resImp ∧ t.ledger.rseq = max c.rseq g.rseq ∧ t.ledger.req = c.req ∧ t.ledger.stateOk = true ∧ (g.aonLost = true → t.flag Reg.MET_STATUS F.MET_STATUS_AON_LOST = true ∧ t.ledger.unset = true))) ∧
    (dead ∧ g.copyA = some c ∧ g.copyB = some d ∧ d.seq < c.seq → Answers (.ledgerRestore true false) s (fun t => t.ledger.down = false ∧ (t.meter o.val).imp = (Tab.get (fun _ => Meter.reset) d.meter o.val).imp ∧ t.ledger.rseq = max d.rseq g.rseq ∧ t.ledger.req = d.req)) ∧
    (dead → Answers (.ledgerRestore true true) s (fun t => t.ledger.down = false ∧ t.ledger.stateOk = false ∧ t.ledger.running = false ∧ t.flag Reg.MET_STATUS F.MET_STATUS_STOP = true)) ∧
    (g.down = false → Writes (.ledgerRestore false badB) s [] (fun t => t = s)) ∧
    (s.domUp 4 = false ∧ watch → Writes (.tcwSample o uv) s [] (fun t => t.ledger = { g with tcwMask := withBit g.tcwMask o.val true, tcwCount := g.tcwCount + 1, tcwFirst := if g.tcwCount = 0 then s.aonSec else g.tcwFirst, tcwLast := s.aonSec })) ∧
    (s.domUp 4 = true ∨ ¬watch → Writes (.tcwSample o uv) s [] (fun t => t = s)) ∧
    (st → Answers (.evsMramEcc addr true) s (fun t => t.ledger = { g with bad := w :: g.bad.filter (fun z => decide (z ≠ w)) } ∧ t.mem = s.mem ∧ Contained s t 0x12 0 0x02)) ∧
    (st → Writes (.evsMramEcc addr false) s [Reg.ERR_BLK_STATUS 0x12, Reg.ERR_BLK_STATUS 0x12 + 4, Reg.ERR_BLK_STATUS 0x12 + 8, Reg.ERR_BLK_STATUS 0x12 + 12] (fun t => t.ledger = g ∧ t.mem = s.mem ∧ Noted s t 0x12 0 0x01))

/-- While the tariff unit acts: a block end adds its import and export to the rate in force, the open interval and the
residue of the bound account, whose balance falls by the whole units at the price of that rate and whose state follows R389.
TARIFF_INSTANT processes a rate change, a demand boundary (demand of every channel, record, maximum demand only of an
unflagged interval, next interval on the grid), a billing boundary later than LAST_B (nine records, BSEQ) and an activation
(entry 0x0C); a boundary that is not later changes nothing. CALENDAR_LOAD answers 1 to 4. BILLING_CLOSE waits for the next
sample. An error of a memory is noted or contained. Commands that complete here (exec answers a next state with their own
effect, under conditions on the state and the operands alone): meterBlockEnd, tariffInstant, calendarLoad, billingClose,
tarMemoryEcc. (15_tariffs.md R374, 15_tariffs.md R375, 15_tariffs.md R376, 15_tariffs.md R377, 15_tariffs.md R378,
15_tariffs.md R379, 15_tariffs.md R380, 15_tariffs.md R381, 15_tariffs.md R388, 15_tariffs.md R389, 15_tariffs.md R391,
15_tariffs.md R393) -/
def Obligations.TariffsDivideEnergyAndInstantsAreConsumedOnce : Prop :=
  ∀ (s : State) (o : Fin 8) (samples : List (List (BitVec 24))) (c p : List Byte) (v : Interval) (b : Nat) (ch : Fin 9) (k : Fin 3), s.domUp 4 = true ∧ s.ledger.down = false ∧ s.acts .tariff →
    let g := s.ledger
    let q := g.tariff
    let m := o.val
    let x := s.meter m
    let blk := g.running = true ∧ samples.length = 800
    let fed := g.running = true ∧ samples ≠ [] ∧ samples.length ≤ 800
    let idle := g.running = false ∨ samples = []
    let run := s.tarOn = true
    let unit := 28800000000
    let nl := x.tainted || s.noLoad m samples.length (s.sumI m samples)
    let e := if nl = true then 0 else s.sumP m samples
    let di := (x.resImp + e.toNat) / unit
    let de := (x.resExp + (-e).toNat) / unit
    let got := fun (w : Tab Nat) (j : Nat) => Tab.get (fun _ => 0) w j
    let key := 8 * m + q.rate
    let w := Tab.get (fun _ => (0 : Word)) q.bind m
    let acc0 := F.TAR_BIND_ACC.get w
    let price := numAt c (0x3E8 + 4 * q.rate) 4
    let z := s.account acc0
    let debt := (z.res + di * price) / 1000000
    let rule := fun (b : Int) (y : Account) => if b > y.lowThr * 1000 then 0 else if b > 0 then 1 else if y.ecEn = true ∧ b > -(y.ecLim * 1000 : Int) then 2 else if q.friendly = true then 4 else 3
    let f := s.inForce
    let calm := f.friendly = q.friendly
    let now := s.tbSec 3
    let due := s.demandDue
    let plain := s.billDue = [] ∧ q.close = false ∧ s.activationDue = false
    let dur := s.monoMs - v.openMs
    let len := calDi c * 60
    let d := fun (j : Nat) => got v.e j * 3600 / dur % 2 ^ 32
    let short := dur < len * 1000
    let long := len * 1000 < dur
    let flags := bit01 (decide short) + 2 * bit01 (decide long) + 4 * bit01 v.adj + 8 * bit01 v.incomplete
    let md := fun (t : State) (j : Nat) => (Tab.get (fun _ => MaxDemand.reset) t.tar.md j).d
    let dslot := mramBase + 0x280000 + 64 * (q.dseq % 7168)
    let tslot := fun (j : Nat) => mramBase + 0x200000 + 256 * ((q.tseq + j) % 2048)
    let n := g.entries
    let at_ := mramBase + 64 * n
    let room := n + 1 ≤ 8192
    let a := (s.rd Reg.TAR_CAL_ADDR).toNat
    let l := s.bytes a 1040
    let good := a % 4 = 0 ∧ sramRange a 1040 = true ∧ s.sramSound
    let formed := leNat (l.take 4) = 1 ∧ crc32 (l.take 0x40C) = BitVec.ofNat 32 (leNat (l.drop 0x40C))
    let res := fun (t : State) => t.fld Reg.TAR_CMD F.TAR_CMD_RESULT
    let actS := leNat ((l.drop 4).take 6) * 1000000000
    (blk ∧ s.metOn m = true ∧ q.used = true → Answers (.meterBlockEnd samples) s (fun t => got t.tar.imp key = (got q.imp key + di) % 2 ^ 64 ∧ got t.tar.exp key = (got q.exp key + de) % 2 ^ 64 ∧ t.tar.rate = q.rate ∧ Tab.get (fun _ => (0 : Word)) t.tar.bind m = s.rd (Reg.TAR_BIND m))) ∧
    (blk ∧ s.metOn m = true ∧ q.used = true ∧ q.open_ = some v → Answers (.meterBlockEnd samples) s (fun t => t.tar.open_.map (fun y => (got y.e m, y.ends, y.openMs)) = some (got v.e m + di, v.ends, v.openMs))) ∧
    (blk ∧ s.metOn m = true ∧ (∀ j : Fin 8, j.val ≠ m → s.metOn j.val = false) ∧ q.used = true ∧ q.act = some c ∧ F.TAR_BIND_VALID.get w = 1 ∧ -2 ^ 63 ≤ z.bal - debt ∧ z.bal < 2 ^ 63 ∧ 0 < debt → Answers (.meterBlockEnd samples) s (fun t => t.account acc0 = { z with res := (z.res + di * price) % 1000000, bal := z.bal - debt, state := rule (z.bal - debt) z })) ∧
    (run ∧ due = false ∧ plain ∧ q.act = some c ∧ g.unset = false ∧ calm → Answers (.tariffInstant samples) s (fun t => t.tar.rate = (evaluate c now).rate ∧ t.tar.bseq = q.bseq ∧ t.tar.dseq = q.dseq ∧ (fed → s.metOn m = true → q.used = true → q.rate ≠ (evaluate c now).rate → got t.tar.imp key = (got q.imp key + di) % 2 ^ 64))) ∧
    (s.tarOn = false → Writes (.tariffInstant samples) s [] (fun t => t = s)) ∧
    (run ∧ idle ∧ g.unset = false ∧ q.act = some c ∧ due = true ∧ plain ∧ q.open_ = some v ∧ dur ≠ 0 → Answers (.tariffInstant samples) s (fun t => t.tar.dseq = q.dseq + 1 ∧ t.tar.lastD = v.ends ∧ got t.tar.last ch.val = d ch.val ∧ t.bytes dslot 4 = [0x51, BitVec.ofNat 8 flags, BitVec.ofNat 8 q.rate, BitVec.ofNat 8 (calDi c)] ∧ t.bytes (dslot + 0x10) 4 = leBytes 4 dur ∧ t.bytes (dslot + 0x14 + 4 * ch.val) 4 = leBytes 4 (d ch.val) ∧ md t ch.val = (if short ∨ long ∨ v.incomplete = true then md s ch.val else max (md s ch.val) (d ch.val)))) ∧
    (run ∧ idle ∧ g.unset = false ∧ q.act = some c ∧ due = true ∧ plain ∧ q.open_ = some v ∧ 0 < len ∧ 0 ≤ now + calStd c → Answers (.tariffInstant samples) s (fun t => t.tar.open_.all (fun y => decide (y.startS = now ∧ now < y.ends ∧ v.ends < y.ends ∧ ((y.ends : Int) + calStd c) % len = 0 ∧ y.ends ≤ max now v.ends + len ∧ y.adj = false ∧ y.incomplete = false)) = true ∧ t.tar.open_ ≠ none)) ∧
    (run ∧ idle ∧ g.unset = false ∧ due = false ∧ s.billDue = [] ∧ q.close = true ∧ s.activationDue = false ∧ q.lastB < s.tbNs 3 ∧ calm → Answers (.tariffInstant samples) s (fun t => t.tar.bseq = q.bseq + 1 ∧ t.tar.tseq = q.tseq + 9 ∧ t.tar.lastB = s.tbNs 3 ∧ t.tar.close = false ∧ t.tar.md = [] ∧ t.bytes (tslot ch.val) 4 = [0x41, BitVec.ofNat 8 ch.val, BitVec.ofNat 8 (4 + 16 * bit01 s.legalOpen), 0] ∧ t.bytes (tslot ch.val + 4) 8 = leBytes 4 (q.bseq + 1) ++ leBytes 4 (q.tseq + ch.val))) ∧
    (run ∧ idle ∧ g.unset = false ∧ due = false ∧ q.close = true ∧ s.billDue = [] ∧ s.activationDue = false ∧ s.tbNs 3 ≤ q.lastB ∧ calm → Answers (.tariffInstant samples) s (fun t => t.tar.bseq = q.bseq ∧ t.tar.tseq = q.tseq ∧ t.tar.lastB = q.lastB ∧ t.tar.md = q.md ∧ t.mem = s.mem)) ∧
    (run ∧ idle ∧ g.unset = false ∧ due = false ∧ s.billDue = [b] ∧ q.close = false ∧ s.activationDue = false ∧ calm → Answers (.tariffInstant samples) s (fun t => t.tar.bseq = q.bseq + 1 ∧ t.tar.tseq = q.tseq + 9 ∧ t.tar.lastB = b ∧ b ≤ s.tbNs 3 ∧ t.bytes (tslot ch.val + 2) 1 = [BitVec.ofNat 8 (16 * bit01 s.legalOpen)])) ∧
    (run ∧ idle ∧ g.unset = false ∧ due = false ∧ s.billDue = [] ∧ q.close = false ∧ s.activationDue = true ∧ q.pas = some p ∧ room → Answers (.tariffInstant samples) s (fun t => t.tar.act = some p ∧ t.tar.pas = none ∧ t.bytes at_ 2 = [0x0C, 0xFF] ∧ t.bytes (at_ + 0x1C) 12 = [1, 0, 0, 0] ++ leBytes 4 (optCrc q.act) ++ leBytes 4 (calCrc p) ∧ (bitOf (calFlags p) 0 = false → t.tar.bseq = q.bseq) ∧ (bitOf (calFlags p) 0 = true → q.pasAt = 0 → q.lastB < s.tbNs 3 → t.tar.bseq = q.bseq + 1))) ∧
    (good ∧ formed ∧ calValid l = true → Answers .calendarLoad s (fun t => res t = 1 ∧ t.tar = { q with pas := some l, pasAt := if actS ≤ s.tbNs 3 then 0 else actS } ∧ t.bytes (mramBase + mramCal 1 0) 1040 = l ∧ t.bytes (mramBase + mramCal 1 1) 1040 = l)) ∧
    (good ∧ formed ∧ calValid l = false → Writes .calendarLoad s [Reg.TAR_CMD] (fun t => res t = 3 ∧ t.ledger = g ∧ t.mem = s.mem)) ∧
    (good ∧ ¬formed → Writes .calendarLoad s [Reg.TAR_CMD] (fun t => res t = 2 ∧ t.ledger = g ∧ t.mem = s.mem)) ∧
    (sramRange a 1040 = false → Answers .calendarLoad s (fun t => res t = 4 ∧ t.ledger = g ∧ t.mem = s.mem ∧ Noted s t 0x23 8 0xF1)) ∧
    (s.sramSound ∧ sramRange a 1040 = true ∧ ¬good → Writes .calendarLoad s [Reg.TAR_CMD] (fun t => res t = 4 ∧ t.ledger = g ∧ t.mem = s.mem)) ∧
    (Writes .billingClose s [] (fun t => t.ledger = { g with tariff := { q with close := true } })) ∧
    (Writes (.tarMemoryEcc k false) s [Reg.ERR_BLK_STATUS 0x11, Reg.ERR_BLK_STATUS 0x11 + 4, Reg.ERR_BLK_STATUS 0x11 + 8, Reg.ERR_BLK_STATUS 0x11 + 12] (fun t => t.ledger = g ∧ Noted s t 0x11 k.val 0x01)) ∧
    (s.flag (Reg.ERR_BLK_STATUS 0x11) F.ERR_BLK_STATUS_OPEN = false ∧ s.flag (Reg.ERR_BLK_CFG 0x11) F.ERR_BLK_CFG_AUTO_CLR = false → Answers (.tarMemoryEcc k true) s (fun t => t.ledger = g ∧ Contained s t 0x11 k.val 0x02 ∧ t.flag (Reg.ERR_BLK_CTRL 0x11) F.ERR_BLK_CTRL_RECOVERED = true))

/-- While the tariff unit acts: an adjustment with TAR_ADJ_NS beyond its range has RESULT 5. One whose magnitude keeps the
silent sum within 9 s moves TB[3] with RESULT 1 and no entry, but an absolute one while TB[3] is unset is logged. A logged
one has RESULT 2, writes entry 0x0B with the old and the new time, and a backward one the time-repeated record as well,
consuming nothing; a forward one consumes a boundary that it jumps over; without room for two entries it is refused with
NOTE 0x04 and TB[3] stays. AUTO_SYNC adjusts at a whole hour of TAR_MONO where that is silent, else sets SYNC_BIG with NOTE
0x03. TOPUP and DEBIT move the balance, with RESULT 3 for a repeated TXID and 4 for an amount of 0 or above 2^48. CONFIG
sets the limits. Commands that complete here (exec answers a next state with their own effect, under conditions on the state
and the operands alone): legalClockAdjust, autoSync, topup, debit, config. (15_tariffs.md R381, 15_tariffs.md R382,
15_tariffs.md R383, 15_tariffs.md R384, 15_tariffs.md R385, 15_tariffs.md R389, 15_tariffs.md R390, 15_tariffs.md R391,
15_tariffs.md R393) -/
def Obligations.TheLegalClockAndAccountsMoveByRule : Prop :=
  ∀ (s : State) (acc : Byte) (ecEn abs : Bool) (c : List Byte) (b : Nat), s.domUp 4 = true ∧ s.ledger.down = false ∧ s.acts .tariff →
    let g := s.ledger
    let q := g.tariff
    let now := s.tbNs 3
    let ns := (s.rd Reg.TAR_ADJ_NS).toNat
    let sec := s.rd Reg.TAR_ADJ_S
    let hi := s.fld Reg.TAR_ADJ_SH F.TAR_ADJ_SH_VAL
    let wrap : Nat := 2 ^ 48 * tbSecond
    let rel : Int := sec.toInt * 1000000000 + ns
    let abs_ : Nat := (hi * 2 ^ 32 + sec.toNat) * 1000000000 + ns
    let vRel := (((s.tbVal 3 : Int) + rel * 65536) % (wrap : Int)).toNat
    let vAbs := abs_ * 65536 % wrap
    let mRel := rel.natAbs
    let mAbs := ((abs_ : Int) - now).natAbs
    let n := g.entries
    let at_ := mramBase + 64 * n
    let room := n + 2 ≤ 8192
    let res := fun (t : State) => t.fld Reg.TAR_ADJ F.TAR_ADJ_RESULT
    let ok := ns < 1000000000
    let silent := fun (m : Nat) => s.silentNs + m ≤ 9000000000
    let times := fun (old new : Nat) => leBytes 8 (old / 1000000000) ++ leBytes 4 (old % 1000000000) ++ leBytes 8 (new / 1000000000) ++ leBytes 4 (new % 1000000000)
    let jumped := billBoundaries c (q.lastB / 1000000000) (vAbs / tbSecond)
    let hour := s.monoMs / 3600000
    let diff : Int := (s.tbNs 0 : Int) - s.fld Reg.TAR_UTC F.TAR_UTC_VAL * 1000000000 - now
    let vSync := (((s.tbVal 3 : Int) + diff * 65536) % (wrap : Int)).toNat
    let auto := q.hour < hour ∧ s.flag Reg.TAR_CTRL F.TAR_CTRL_AUTO_SYNC = true ∧ s.tbState 0 = 2
    let k := acc.toNat
    let z := s.account k
    let amt : Nat := (s.rd Reg.TAR_ACC_AMT_HI).toNat * 2 ^ 32 + (s.rd Reg.TAR_ACC_AMT_LO).toNat
    let tx := (s.rd Reg.TAR_ACC_TXID).toNat
    let rule := fun (b : Int) (y : Account) => if b > y.lowThr * 1000 then 0 else if b > 0 then 1 else if y.ecEn = true ∧ b > -(y.ecLim * 1000 : Int) then 2 else if q.friendly = true then 4 else 3
    let fresh := z.txids.contains tx = false ∧ 0 < amt ∧ amt ≤ 2 ^ 48
    let ares := fun (t : State) => t.fld Reg.TAR_ACC_CMD F.TAR_ACC_CMD_RESULT
    let up : Int := z.bal + amt
    let down : Int := z.bal - amt
    let fits := fun (b : Int) => -2 ^ 63 ≤ b ∧ b < 2 ^ 63
    let moved := fun (t : State) (b : Int) => t.account k = { z with bal := b, state := rule b z, txids := (tx :: z.txids).take 16 } ∧ ares t = 1
    let slot := mramBase + 0x200000 + 256 * ((q.tseq + if rule up z = z.state then 0 else 1) % 2048)
    (¬ok → Answers (.legalClockAdjust abs) s (fun t => res t = 5 ∧ t.tbVal 3 = s.tbVal 3 ∧ t.ledger = g)) ∧
    (ok ∧ silent mRel → Answers (.legalClockAdjust false) s (fun t => res t = 1 ∧ t.tbVal 3 = vRel ∧ t.ledger.entries = n ∧ t.mem = s.mem ∧ t.silentNs = s.silentNs + mRel ∧ t.tar.open_ = q.open_ ∧ t.tar.bseq = q.bseq)) ∧
    (ok ∧ g.unset = false ∧ silent mAbs → Answers (.legalClockAdjust true) s (fun t => res t = 1 ∧ t.tbVal 3 = vAbs ∧ t.ledger.entries = n ∧ t.silentNs = s.silentNs + mAbs)) ∧
    (ok ∧ ¬silent mRel ∧ room ∧ vRel / 65536 < now ∧ g.unset = false → Answers (.legalClockAdjust false) s (fun t => res t = 2 ∧ t.tbVal 3 = vRel ∧ t.ledger.entries = n + 2 ∧ t.bytes at_ 2 = [0x0B, 0xFF] ∧ t.bytes (at_ + 0x1C) 24 = times now (vRel / 65536) ∧ t.bytes (at_ + 64) 2 = [0x0C, 0xFF] ∧ t.bytes (at_ + 0x5C) 28 = [3, 0, 0, 0] ++ times now (vRel / 65536) ∧ t.tar.bseq = q.bseq ∧ t.tar.lastB = q.lastB ∧ t.silentNs = s.silentNs)) ∧
    (ok ∧ ¬silent mRel ∧ room ∧ q.open_ ≠ none ∧ q.act ≠ none ∧ s.tarOn = true ∧ g.unset = false → Answers (.legalClockAdjust false) s (fun t => t.tar.dseq = q.dseq + 1 ∧ t.tar.lastD = q.lastD ∧ t.tar.open_.all (fun y => decide (y.adj = true ∧ y.startS = t.tbSec 3)) = true ∧ t.tar.open_ ≠ none ∧ bitOf (leNat (t.bytes (mramBase + 0x280000 + 64 * (q.dseq % 7168) + 1) 1)) 2 = true)) ∧
    (ok ∧ ¬silent mAbs ∧ room ∧ now < vAbs / 65536 ∧ s.tarOn = true ∧ q.act = some c ∧ g.unset = false ∧ jumped = [b] → Answers (.legalClockAdjust true) s (fun t => res t = 2 ∧ t.tbVal 3 = vAbs ∧ t.tar.bseq = q.bseq + 1 ∧ t.tar.lastB = b * 1000000000 ∧ t.bytes at_ 2 = [0x0B, 0xFF] ∧ t.bytes (mramBase + 0x200000 + 256 * (q.tseq % 2048) + 2) 1 = [BitVec.ofNat 8 (2 + 16 * bit01 t.legalOpen)])) ∧
    (ok ∧ g.unset = true ∧ room → Answers (.legalClockAdjust true) s (fun t => res t = 2 ∧ t.tbVal 3 = vAbs ∧ t.ledger.unset = false ∧ t.bytes at_ 2 = [0x0B, 0xFF])) ∧
    (ok ∧ ¬silent mRel ∧ ¬room → Writes (.legalClockAdjust false) s [Reg.TAR_ADJ, Reg.ERR_BLK_STATUS 0x11, Reg.ERR_BLK_STATUS 0x11 + 4, Reg.ERR_BLK_STATUS 0x11 + 8, Reg.ERR_BLK_STATUS 0x11 + 12] (fun t => res t = 3 ∧ t.tbVal 3 = s.tbVal 3 ∧ t.ledger = g ∧ t.mem = s.mem ∧ Noted s t 0x11 0 0x04)) ∧
    (auto ∧ silent diff.natAbs → Answers .autoSync s (fun t => t.tbVal 3 = vSync ∧ t.tar.hour = hour ∧ t.silentNs = s.silentNs + diff.natAbs ∧ t.ledger.entries = n)) ∧
    (auto ∧ ¬silent diff.natAbs → Writes .autoSync s [Reg.TAR_STATUS, Reg.ERR_BLK_STATUS 0x11, Reg.ERR_BLK_STATUS 0x11 + 4, Reg.ERR_BLK_STATUS 0x11 + 8, Reg.ERR_BLK_STATUS 0x11 + 12] (fun t => t.flag Reg.TAR_STATUS F.TAR_STATUS_SYNC_BIG = true ∧ t.tbVal 3 = s.tbVal 3 ∧ t.ledger = { g with tariff := { q with hour := hour } } ∧ Noted s t 0x11 0 0x03)) ∧
    (hour ≤ q.hour → Writes .autoSync s [] (fun t => t = s)) ∧
    (q.hour < hour ∧ (s.flag Reg.TAR_CTRL F.TAR_CTRL_AUTO_SYNC = false ∨ s.tbState 0 ≠ 2) → Writes .autoSync s [] (fun t => t.tbVal 3 = s.tbVal 3 ∧ t.ledger = { g with tariff := { q with hour := hour } })) ∧
    (fresh ∧ fits up → Answers (.topup acc) s (fun t => moved t up ∧ t.bytes slot 2 = [0x42, acc] ∧ t.bytes (slot + 4) 12 = leBytes 4 tx ++ leBytes 4 1 ++ leBytes 4 (rule up z) ∧ t.bytes (slot + 0x28) 16 = leBytes 8 amt ++ leBytes 8 (unsigned 64 up))) ∧
    (fresh ∧ fits down → Answers (.debit acc) s (fun t => moved t down ∧ (rule down z = 3 → z.state ≠ 3 → Noted s t 0x11 2 0x05))) ∧
    (z.txids.contains tx = true → Answers (.topup acc) s (fun t => ares t = 3 ∧ t.ledger = g ∧ t.mem = s.mem)) ∧
    (z.txids.contains tx = false ∧ (amt = 0 ∨ 2 ^ 48 < amt) → Answers (.debit acc) s (fun t => ares t = 4 ∧ t.ledger = g ∧ t.mem = s.mem)) ∧
    (Answers (.config acc ecEn) s (fun t => t.account k = { z with ecEn := ecEn, ecLim := (s.rd Reg.TAR_ACC_AMT_LO).toNat, lowThr := (s.rd Reg.TAR_ACC_AMT_HI).toNat } ∧ ares t = 1 ∧ t.mem = s.mem))

/-- While PD_VAULT is powered, for the call that is next on its engine, with a well-formed argument block, buffers in shared
SRAM and no damaged word: PUBKEY, SIGN, VERIFY, GCM_ENC, GCM_DEC, CTR, HASH, RANDOM and KEY_OUT write what R406 gives to OUT
and its length to OUT_LEN and return OK where the slot is LOADED, the algorithm suits and USE and USERS allow; a tag or
signature that fails returns AUTH. Without such a key they return POLICY with NOTE 0x06; with OUT_CAP too small CAP, with a
wrong length or a buffer elsewhere BAD_ARG, without random bits NO_RANDOM, writing nothing but OUT_LEN := 0. Commands that
complete here (exec answers a next state with their own effect, under conditions on the state and the operands alone):
pubkey, sign, verify, gcmEnc, gcmDec, ctr, hash, random, keyOut. (16_keys.md R396, 16_keys.md R400, 16_keys.md R403,
16_keys.md R405, 16_keys.md R406, 16_keys.md R411) -/
def Obligations.SecureCallsServeKeysByTheirPolicy : Prop :=
  ∀ (s : State) (c : CtxId) (r : KeyReq) (d : Nat) (key : KeyRec), s.domUp 3 = true ∧ s.sramSound ∧ (let w := s.num r.block.toNat 4; w / 32 % 8 = 0 ∧ w / 8192 % 8 = 0 ∧ w < 2 ^ 24) ∧ (s.ctx (ctxKey c)).stall = .scall d ∧ d ≠ 0 →
    let k := ctxKey c
    let call := fun (f : Nat) => s.ksNext k f = some r
    let arg := fun (w : Nat) => s.num (r.block.toNat + 4 * w) 4
    let slot := arg 0 % 32
    let opt := arg 0 / 65536
    let inp := s.bytes (arg 1) (arg 2)
    let out := arg 3
    let cap := arg 4
    let aux := fun (off n : Nat) => s.bytes (arg 5 + off) n
    let inOk := arg 2 = 0 ∨ (arg 1 % 4 = 0 ∧ sramRange (arg 1) (arg 2) = true)
    let auxOk := fun (n : Nat) => n = 0 ∨ (arg 5 % 4 = 0 ∧ sramRange (arg 5) n = true)
    let outOk := cap = 0 ∨ (out % 4 = 0 ∧ sramRange out cap = true)
    let fits := fun (n : Nat) => outOk ∧ n ≤ cap ∧ (r.block.toNat + 32 ≤ out ∨ out + n ≤ r.block.toNat + 28)
    let status := fun (t : State) (v : Nat) => (t.ctx k).reg d = BitVec.ofNat 32 v ∧ t.ks.reqs = s.ks.reqs.filter (fun y => y.ctx ≠ k)
    let gives := fun (t : State) (l : List Byte) => status t 0 ∧ t.bytes out l.length = l ∧ t.num (r.block.toNat + 28) 4 = l.length
    let silent := fun (t : State) => t.num (r.block.toNat + 28) 4 = 0 ∧ BytesOnly (fun a => decide (r.block.toNat + 28 ≤ a ∧ a < r.block.toNat + 32)) s t
    let fails := fun (t : State) (v : Nat) => status t v ∧ silent t ∧ t.ks.slot = s.ks.slot ∧ t.ks.twin = s.ks.twin
    let random := s.flag Reg.KS_STATUS F.KS_STATUS_DRBG_OK = true
    let may := fun (u : Nat) => s.slot slot = some key ∧ bitOf key.use u = true ∧ bitOf key.users (userOf k) = true
    let aes_ := key.alg = 0x01 ∨ key.alg = 0x02
    let priv := key.alg = 0x11 ∨ key.alg = 0x12
    let pubk := key.alg = 0x21 ∨ key.alg = 0x22
    let p384 : Bool := key.alg % 16 = 2
    let ec := if p384 = true then 96 else 64
    let digest := arg 2 = 32 ∨ arg 2 = 48
    let iv := aux 0 12
    let ad := aux 12 (arg 6)
    let secret := key.key
    (call 0x02 ∧ s.slot slot = some key ∧ (priv ∨ pubk) ∧ fits key.pub.length → Answers (.pubkey c) s (fun t => gives t key.pub)) ∧
    (call 0x02 ∧ (s.slot slot = none ∨ (s.slot slot = some key ∧ ¬(priv ∨ pubk))) → Answers (.pubkey c) s (fun t => fails t 3 ∧ Noted s t 0x13 0 0x06)) ∧
    (call 0x10 ∧ may 2 ∧ priv ∧ digest ∧ inOk ∧ random ∧ fits ec → Answers (.sign c) s (fun t => gives t (ecSign p384 secret inp s.freeNat))) ∧
    (call 0x10 ∧ ¬(∃ z ∈ s.slot slot, (z.alg = 0x11 ∨ z.alg = 0x12) ∧ bitOf z.use 2 = true ∧ bitOf z.users (userOf k) = true) → Answers (.sign c) s (fun t => fails t 3 ∧ Noted s t 0x13 0 0x06)) ∧
    (call 0x10 ∧ may 2 ∧ priv ∧ ¬digest → Answers (.sign c) s (fun t => fails t 4)) ∧
    (call 0x10 ∧ may 2 ∧ priv ∧ digest ∧ inOk ∧ ¬random → Answers (.sign c) s (fun t => fails t 8)) ∧
    (call 0x10 ∧ may 2 ∧ priv ∧ digest ∧ inOk ∧ random ∧ outOk ∧ cap < ec → Answers (.sign c) s (fun t => fails t 5)) ∧
    (call 0x11 ∧ may 3 ∧ (priv ∨ pubk) ∧ digest ∧ inOk ∧ auxOk ec → Answers (.verify c) s (fun t => status t (if Config.verifies p384 key.pub inp (aux 0 ec) = true then 0 else 6) ∧ silent t)) ∧
    (call 0x20 ∧ may 0 ∧ aes_ ∧ inOk ∧ auxOk (12 + arg 6) ∧ fits (arg 2 + 16) → Answers (.gcmEnc c) s (fun t => gives t (gcmText secret iv inp ++ gcmTag secret iv ad (gcmText secret iv inp)))) ∧
    (call 0x21 ∧ may 1 ∧ aes_ ∧ 16 ≤ arg 2 ∧ inOk ∧ auxOk (12 + arg 6) ∧ fits (arg 2 - 16) → Answers (.gcmDec c) s (fun t => if gcmTag secret iv ad (inp.take (arg 2 - 16)) = inp.drop (arg 2 - 16) then gives t (gcmText secret iv (inp.take (arg 2 - 16))) else status t 6 ∧ t.bytes out (arg 2 - 16) = List.replicate (arg 2 - 16) 0 ∧ t.num (r.block.toNat + 28) 4 = 0)) ∧
    (call 0x21 ∧ may 1 ∧ aes_ ∧ arg 2 < 16 → Answers (.gcmDec c) s (fun t => fails t 4)) ∧
    (call 0x22 ∧ may 0 ∧ aes_ ∧ inOk ∧ auxOk 16 ∧ fits (arg 2) → Answers (.ctr c) s (fun t => gives t (List.zipWith (fun x y => x ^^^ y) inp ((List.range (arg 2)).map (Config.streamByte secret (aux 0 16)))))) ∧
    (call 0x30 ∧ opt ≤ 1 ∧ inOk ∧ fits (if opt = 0 then 32 else 48) → Answers (.hash c) s (fun t => gives t (if opt = 0 then sha256 inp else sha384 inp))) ∧
    (call 0x30 ∧ 1 < opt → Answers (.hash c) s (fun t => fails t 4)) ∧
    (call 0x31 ∧ cap ≤ 4096 ∧ random ∧ fits cap → Answers (.random c) s (fun t => gives t ((List.range cap).map (fun i => BitVec.ofNat 8 (Config.freeNat (s.free + i)))) ∧ t.free = s.free + cap)) ∧
    (call 0x31 ∧ 4096 < cap → Answers (.random c) s (fun t => fails t 4)) ∧
    (call 0x31 ∧ cap ≤ 4096 ∧ outOk ∧ ¬random → Answers (.random c) s (fun t => fails t 8)) ∧
    (call 0x50 ∧ may 8 ∧ key.alg = 1 ∧ fits 16 ∧ secret.length = 16 → Answers (.keyOut c) s (fun t => gives t secret)) ∧
    (call 0x50 ∧ may 8 ∧ key.alg ≠ 1 → Answers (.keyOut c) s (fun t => fails t 3 ∧ Noted s t 0x13 0 0x06))

/-- While PD_VAULT is powered, for the call that is next on its engine, with a well-formed block and no damaged word: an
Admin function of another requester, or one that would load, commit to, stage or erase a root slot, returns POLICY with NOTE
0x06. GENERATE, ECDH_DERIVE and LOAD_PUB stage their key with the policy of words 8 and 9, and the first two write a blob of
R402. LOAD_BLOB stages the key, or with DIRECT loads an EMPTY slot, where TAG, WRAPID and KEYID match, else AUTH. CHECK
marks a twin that matches. COMMIT moves a CHECKED twin to the slot at once, or at its time; DISCARD and ERASE empty twin and
slot; ROOT_GEN creates KROOT where it is absent; ZEROISE wipes keys and returns ZEROISED. Commands that complete here (exec
answers a next state with their own effect, under conditions on the state and the operands alone): erase, generate,
loadBlob, commit, ecdhDerive, loadPub, check, discard, rootGen, zeroise. (16_keys.md R396, 16_keys.md R397, 16_keys.md R398,
16_keys.md R399, 16_keys.md R400, 16_keys.md R401, 16_keys.md R402, 16_keys.md R404, 16_keys.md R406, 16_keys.md R407,
16_keys.md R408, 16_keys.md R410) -/
def Obligations.KeysAreStagedCheckedAndCommitted : Prop :=
  ∀ (s : State) (c : CtxId) (r : KeyReq) (d : Nat) (key root : KeyRec) (y : Twin), s.domUp 3 = true ∧ s.sramSound ∧ (let w := s.num r.block.toNat 4; w / 32 % 8 = 0 ∧ w / 8192 % 8 = 0 ∧ w < 2 ^ 24) ∧ (s.ctx (ctxKey c)).stall = .scall d ∧ d ≠ 0 →
    let k := ctxKey c
    let call := fun (f : Nat) => s.ksNext k f = some r
    let arg := fun (w : Nat) => s.num (r.block.toNat + 4 * w) 4
    let slot := arg 0 % 32
    let slot2 := arg 0 / 256 % 32
    let opt := arg 0 / 65536
    let inp := s.bytes (arg 1) (arg 2)
    let out := arg 3
    let cap := arg 4
    let aux := fun (off n : Nat) => s.bytes (arg 5 + off) n
    let inOk := arg 2 = 0 ∨ (arg 1 % 4 = 0 ∧ sramRange (arg 1) (arg 2) = true)
    let auxOk := fun (n : Nat) => n = 0 ∨ (arg 5 % 4 = 0 ∧ sramRange (arg 5) n = true)
    let outOk := cap = 0 ∨ (out % 4 = 0 ∧ sramRange out cap = true)
    let fits := fun (n : Nat) => outOk ∧ n ≤ cap ∧ (r.block.toNat + 32 ≤ out ∨ out + n ≤ r.block.toNat + 28)
    let status := fun (t : State) (v : Nat) => (t.ctx k).reg d = BitVec.ofNat 32 v ∧ t.ks.reqs = s.ks.reqs.filter (fun y => y.ctx ≠ k)
    let silent := fun (t : State) => t.num (r.block.toNat + 28) 4 = 0 ∧ BytesOnly (fun a => decide (r.block.toNat + 28 ≤ a ∧ a < r.block.toNat + 32)) s t
    let fails := fun (t : State) (v : Nat) => status t v ∧ silent t ∧ t.ks.slot = s.ks.slot ∧ t.ks.twin = s.ks.twin
    let random := s.flag Reg.KS_STATUS F.KS_STATUS_DRBG_OK = true
    let may := fun (u : Nat) => s.slot slot = some key ∧ bitOf key.use u = true ∧ bitOf key.users (userOf k) = true
    let priv := key.alg = 0x11 ∨ key.alg = 0x12
    let p384 : Bool := key.alg % 16 = 2
    let ec := if p384 = true then 96 else 64
    let secret := key.key
    let adm := engOf k < 8 ∧ bitOf (s.fld Reg.KS_ADMIN F.KS_ADMIN_MASK) (engOf k) = true
    let use := arg 8
    let users := arg 9
    let polOk := fun (alg : Nat) => use < 512 ∧ users < 8192 ∧ (bitOf use 8 = false ∨ alg = 1)
    let len := fun (alg : Nat) => if alg = 0x01 then 16 else if alg = 0x12 then 48 else 32
    let pubLen := fun (alg : Nat) => if alg = 0x11 then 65 else if alg = 0x12 then 97 else 0
    let staged := fun (t : State) (n alg : Nat) (b : List Byte) => (t.twin n).map (fun y => y.key.key) = some b ∧ (t.twin n).map (fun y => (y.checked, [y.key.alg, y.key.use, y.key.users])) = some (false, [alg, use, users])
    let draws := fun (n : Nat) => (List.range n).map (fun i => BitVec.ofNat 8 (Config.freeNat (s.free + i)))
    let blobHead := fun (alg : Nat) => leBytes 4 0x31425A4B ++ leBytes 1 alg ++ [1] ++ leBytes 2 (len alg) ++ leBytes 4 use ++ leBytes 4 users
    let free_ := fun (n : Nat) => 4 ≤ n ∧ s.timedAt n = none
    let bAlg := numAt inp 4 1
    let bLen := numAt inp 6 2
    let bOk := numAt inp 0 4 = 0x31425A4B ∧ (bAlg = 1 ∨ bAlg = 2 ∨ bAlg = 0x11 ∨ bAlg = 0x12) ∧ numAt inp 5 1 = 1 ∧ bLen = len bAlg ∧ numAt inp 0x24 12 = 0 ∧ arg 2 = 0x30 + bLen + 16 ∧ numAt inp 8 4 < 512 ∧ numAt inp 12 4 < 8192 ∧ (bitOf (numAt inp 8 4) 8 = false ∨ bAlg = 1)
    let bIv := (inp.drop 0x18).take 12
    let bCt := (inp.drop 0x30).take bLen
    let bKey := maskedKey bAlg (numAt inp 8 4) (numAt inp 12 4) (gcmText root.key bIv bCt) ((draws 48).take bLen)
    let bGood := gcmTag root.key bIv (inp.take 0x30) bCt = inp.drop (0x30 + bLen) ∧ numAt inp 0x14 4 = root.keyId ∧ numAt inp 0x10 4 = bKey.keyId
    let tw := s.twin slot
    let sig := ecSign (alg384 y.key.alg) y.key.key (draws 32) (Config.freeNat (s.free + 32))
    let sound := y.key.keyId = arg 6 ∧ ((y.key.alg = 0x11 ∨ y.key.alg = 0x12) → Config.verifies (alg384 y.key.alg) y.key.pub (draws 32) sig = true)
    let ready := tw = some y ∧ y.checked = true ∧ s.timedAt slot = none
    let at_ := numAt (aux 0 12) 0 6 * 1000000000 + numAt (aux 0 12) 8 4
    let wiped := fun (t : State) (z : Nat) => t.ks.slot = [] ∧ t.ks.twin = [] ∧ t.ks.root = none ∧ t.ks.timed = [] ∧ t.flag Reg.KS_STATUS F.KS_STATUS_ROOT = false ∧ t.flag Reg.KS_STATUS F.KS_STATUS_DRBG_OK = false ∧ t.flag Reg.KS_STATUS F.KS_STATUS_ZEROISED = true ∧ t.fld Reg.KS_ZSTAT F.KS_ZSTAT_CAUSE = z ∧ t.fld Reg.KS_ZSTAT F.KS_ZSTAT_COUNT = min 255 (s.fld Reg.KS_ZSTAT F.KS_ZSTAT_COUNT + 1) ∧ t.rd Reg.KS_ZTIME = BitVec.ofNat 32 s.aonSec
    (call 0x46 ∧ ¬adm → Answers (.erase c) s (fun t => fails t 3 ∧ Noted s t 0x13 0 0x06)) ∧
    (call 0x40 ∧ ¬adm → Answers (.generate c) s (fun t => fails t 3 ∧ Noted s t 0x13 0 0x06)) ∧
    (call 0x46 ∧ adm ∧ slot < 4 → Answers (.erase c) s (fun t => fails t 3 ∧ Noted s t 0x13 0 0x06)) ∧
    (call 0x41 ∧ adm ∧ slot < 4 → Answers (.loadBlob c) s (fun t => fails t 3 ∧ Noted s t 0x13 0 0x06)) ∧
    (call 0x44 ∧ adm ∧ slot < 4 → Answers (.commit c) s (fun t => fails t 3 ∧ Noted s t 0x13 0 0x06)) ∧
    (call 0x40 ∧ adm ∧ free_ slot ∧ (opt = 1 ∨ opt = 2 ∨ opt = 0x11 ∨ opt = 0x12) ∧ polOk opt ∧ s.ks.root = some root ∧ random ∧ fits (64 + len opt + pubLen opt) → Answers (.generate c) s (fun t => status t 0 ∧ staged t slot opt (draws (len opt)) ∧ t.bytes out 16 = blobHead opt ∧ t.num (r.block.toNat + 28) 4 = 64 + len opt + pubLen opt ∧ t.ks.slot = s.ks.slot)) ∧
    (call 0x40 ∧ adm ∧ 4 ≤ slot ∧ (opt = 1 ∨ opt = 2 ∨ opt = 0x11 ∨ opt = 0x12) ∧ polOk opt ∧ s.ks.root = none → Answers (.generate c) s (fun t => fails t 0x0B)) ∧
    (call 0x12 ∧ adm ∧ free_ slot2 ∧ may 4 ∧ priv ∧ (opt = 1 ∨ opt = 2) ∧ arg 2 = 1 + ec ∧ arg 6 ≤ 64 ∧ polOk opt ∧ inOk ∧ auxOk (arg 6) ∧ s.ks.root = some root ∧ random ∧ fits (64 + len opt) → Answers (.ecdhDerive c) s (fun t => status t 0 ∧ staged t slot2 opt (hkdf (ecShared p384 secret inp) (aux 0 (arg 6)) (len opt)) ∧ t.bytes out 16 = blobHead opt)) ∧
    (call 0x42 ∧ adm ∧ free_ slot ∧ ((opt = 0x21 ∧ arg 2 = 65) ∨ (opt = 0x22 ∧ arg 2 = 97)) ∧ polOk opt ∧ inOk ∧ inp.head? = some 4 → Answers (.loadPub c) s (fun t => status t 0 ∧ staged t slot opt inp)) ∧
    (call 0x41 ∧ adm ∧ free_ slot ∧ opt = 0 ∧ s.ks.root = some root ∧ inOk ∧ bOk → Answers (.loadBlob c) s (fun t => if bGood then status t 0 ∧ t.twin slot = some ⟨bKey, false⟩ ∧ t.ks.slot = s.ks.slot else fails t 6)) ∧
    (call 0x41 ∧ adm ∧ free_ slot ∧ opt = 2 ∧ s.slot slot = none ∧ s.ks.root = some root ∧ inOk ∧ bOk → Answers (.loadBlob c) s (fun t => if bGood then status t 0 ∧ t.slot slot = some bKey ∧ t.ks.twin = s.ks.twin else fails t 6)) ∧
    (call 0x41 ∧ adm ∧ 4 ≤ slot ∧ opt = 2 ∧ s.slot slot ≠ none ∧ s.ks.root = some root ∧ inOk → Answers (.loadBlob c) s (fun t => fails t 2)) ∧
    (call 0x41 ∧ adm ∧ free_ slot ∧ opt = 0 ∧ s.ks.root = some root ∧ inOk ∧ ¬bOk → Answers (.loadBlob c) s (fun t => fails t 4)) ∧
    (call 0x43 ∧ adm ∧ tw = some y ∧ random → Answers (.check c) s (fun t => if sound then status t 0 ∧ t.twin slot = some { y with checked := true } else fails t 6)) ∧
    (call 0x43 ∧ adm ∧ tw = none → Answers (.check c) s (fun t => fails t 2)) ∧
    (call 0x44 ∧ adm ∧ 4 ≤ slot ∧ ready ∧ arg 5 = 0 → Answers (.commit c) s (fun t => status t 0 ∧ t.slot slot = some y.key ∧ t.twin slot = none ∧ t.timedAt slot = none ∧ Fires s t 0x13 0x01)) ∧
    (call 0x44 ∧ adm ∧ 4 ≤ slot ∧ ready ∧ arg 5 ≠ 0 ∧ auxOk 12 → Answers (.commit c) s (fun t => status t 0 ∧ t.timedAt slot = some at_ ∧ t.ks.slot = s.ks.slot ∧ t.ks.twin = s.ks.twin)) ∧
    (call 0x44 ∧ adm ∧ 4 ≤ slot ∧ (tw = none ∨ (tw = some y ∧ y.checked = false) ∨ s.timedAt slot ≠ none) → Answers (.commit c) s (fun t => fails t 2)) ∧
    (call 0x45 ∧ adm ∧ s.timedAt slot = none → Answers (.discard c) s (fun t => status t 0 ∧ t.twin slot = none ∧ t.ks.slot = s.ks.slot)) ∧
    (call 0x45 ∧ adm ∧ s.timedAt slot ≠ none → Answers (.discard c) s (fun t => fails t 2)) ∧
    (call 0x46 ∧ adm ∧ 4 ≤ slot → Answers (.erase c) s (fun t => status t 0 ∧ t.slot slot = none ∧ t.timedAt slot = none ∧ t.ks.twin = s.ks.twin)) ∧
    (call 0x60 ∧ adm ∧ s.ks.root = none ∧ random → Answers (.rootGen c) s (fun t => status t 0 ∧ t.ks.root.map (fun z => (z.alg, z.key)) = some (2, draws 32) ∧ t.flag Reg.KS_STATUS F.KS_STATUS_ROOT = true)) ∧
    (call 0x60 ∧ adm ∧ s.ks.root ≠ none → Answers (.rootGen c) s (fun t => fails t 2 ∧ t.ks.root = s.ks.root)) ∧
    (call 0xFF ∧ adm ∧ bitOf (s.fld Reg.KS_CTRL F.KS_CTRL_TSRC_EN) 4 = true → Answers (.zeroise c) s (fun t => (t.ctx k).reg d = 0x0A ∧ t.ks.reqs = [] ∧ wiped t 6 ∧ t.mem = s.mem)) ∧
    (call 0xFF ∧ adm ∧ bitOf (s.fld Reg.KS_CTRL F.KS_CTRL_TSRC_EN) 4 = false → Answers (.zeroise c) s (fun t => fails t 3 ∧ t.ks.root = s.ks.root))

/-- TAMPER_EVENT of TAMPER_N always, and of another enabled source while PD_VAULT is powered, clears KROOT, slots, twins and
pending commits, writes KS_ZSTAT and KS_ZTIME, sets ZEROISED and ends the running calls with ZEROISED; a disabled source
does nothing. That the root slots are cleared with the others is read from the paragraph after the table of R410 (log entry
47). While the key store acts: a timed commit takes effect once TB[0] has reached its time; KS_REMASK leaves every key as it
is; an entropy failure takes the random bits away with CONTAIN 0x03, and a reseed that passes 100 ms later or more brings
them back; MASK, TSRC_EN and REMASK are written only while their LOCK is clear, and LOCK stays. Commands that complete here
(exec answers a next state with their own effect, under conditions on the state and the operands alone): tamperEvent,
ksTimedCommit, ksRemask, ksEntropyFail, ksReseed, ksAdminLock, ksCtrlLock. (16_keys.md R397, 16_keys.md R401, 16_keys.md
R408, 16_keys.md R409, 16_keys.md R410, 16_keys.md R411, 16_keys.md R412, 16_keys.md R414) -/
def Obligations.ZeroisationAndKeyStoreHousekeeping : Prop :=
  ∀ (s : State) (src : Fin 5) (n : Fin 32) (x : CtxId) (d : Nat) (y : Twin) (u : Nat) (pass : Bool) (data : Word), 
    let z := src.val + 1
    let on := s.acts .keyStore
    let src_ := z = 1 ∨ (s.domUp 3 = true ∧ bitOf (s.fld Reg.KS_CTRL F.KS_CTRL_TSRC_EN) (z - 2) = true)
    let drbg := s.flag Reg.KS_STATUS F.KS_STATUS_DRBG_OK
    let open_ := s.flag (Reg.ERR_BLK_STATUS 0x13) F.ERR_BLK_STATUS_OPEN
    let period := min 100 (if s.fld Reg.KS_CTRL F.KS_CTRL_REMASK = 0 then 1 else s.fld Reg.KS_CTRL F.KS_CTRL_REMASK) * 1600000000
    let wiped := fun (t : State) (z : Nat) => t.ks.slot = [] ∧ t.ks.twin = [] ∧ t.ks.root = none ∧ t.ks.timed = [] ∧ t.flag Reg.KS_STATUS F.KS_STATUS_ROOT = false ∧ t.flag Reg.KS_STATUS F.KS_STATUS_DRBG_OK = false ∧ t.flag Reg.KS_STATUS F.KS_STATUS_ZEROISED = true ∧ t.fld Reg.KS_ZSTAT F.KS_ZSTAT_CAUSE = z ∧ t.fld Reg.KS_ZSTAT F.KS_ZSTAT_COUNT = min 255 (s.fld Reg.KS_ZSTAT F.KS_ZSTAT_COUNT + 1) ∧ t.rd Reg.KS_ZTIME = BitVec.ofNat 32 s.aonSec
    (src_ → Answers (.tamperEvent src) s (fun t => wiped t z)) ∧
    (src_ ∧ s.domUp 3 = true ∧ (s.ctx (ctxKey x)).stall = .scall d ∧ d ≠ 0 ∧ s.ks.reqs.any (fun w => decide (w.ctx = ctxKey x)) = true → Answers (.tamperEvent src) s (fun t => (t.ctx (ctxKey x)).reg d = 0x0A ∧ t.ks.reqs = [] ∧ t.mem = s.mem)) ∧
    (¬src_ → Writes (.tamperEvent src) s [] (fun t => t = s)) ∧
    (on ∧ s.timedAt n.val = some u ∧ u ≤ s.tbNs 0 ∧ s.twin n.val = some y → Answers (.ksTimedCommit n) s (fun t => t.slot n.val = some y.key ∧ t.twin n.val = none ∧ t.timedAt n.val = none ∧ Fires s t 0x13 0x01)) ∧
    (on ∧ s.timedAt n.val = some u ∧ s.tbNs 0 < u → Writes (.ksTimedCommit n) s [] (fun t => t = s)) ∧
    (on ∧ s.ks.maskAt + period ≤ s.now ∧ (s.slot n.val).all (fun w => decide (w.shareA.length = w.shareB.length ∧ w.shareA.length ≤ 97)) = true → Writes .ksRemask s [] (fun t => (t.slot n.val).map (fun w => (w.key, w.alg, w.use, w.users)) = (s.slot n.val).map (fun w => (w.key, w.alg, w.use, w.users)) ∧ t.ks.maskAt = s.now)) ∧
    (on ∧ s.now < s.ks.maskAt + period → Writes .ksRemask s [] (fun t => t = s)) ∧
    (on → Answers .ksEntropyFail s (fun t => t.flag Reg.KS_STATUS F.KS_STATUS_DRBG_OK = false ∧ Contained s t 0x13 0 0x03 ∧ (drbg = true → Fires s t 0x13 0x02))) ∧
    (on ∧ drbg = false ∧ s.ks.seedAt + 1600000000 ≤ s.now → Answers (.ksReseed pass) s (fun t => t.flag Reg.KS_STATUS F.KS_STATUS_DRBG_OK = pass ∧ t.ks.seedAt = s.now ∧ (pass = true → Fires s t 0x13 0x03) ∧ (pass = true → open_ = true → (s.blkRec 0x13).code = 3 → s.flag (Reg.ERR_BLK_CFG 0x13) F.ERR_BLK_CFG_AUTO_CLR = false → t.flag (Reg.ERR_BLK_CTRL 0x13) F.ERR_BLK_CTRL_RECOVERED = true))) ∧
    (on ∧ (drbg = true ∨ s.now < s.ks.seedAt + 1600000000) → Writes (.ksReseed pass) s [] (fun t => t = s)) ∧
    (on → Writes (.ksAdminLock data) s [Reg.KS_ADMIN] (fun t => t.fld Reg.KS_ADMIN F.KS_ADMIN_MASK = (if s.flag Reg.KS_ADMIN F.KS_ADMIN_LOCK = true then s.fld Reg.KS_ADMIN F.KS_ADMIN_MASK else data.toNat % 256) ∧ t.flag Reg.KS_ADMIN F.KS_ADMIN_LOCK = (s.flag Reg.KS_ADMIN F.KS_ADMIN_LOCK || data.msb))) ∧
    (on → Writes (.ksCtrlLock data) s [Reg.KS_CTRL] (fun t => t.fld Reg.KS_CTRL F.KS_CTRL_TSRC_EN = (if s.flag Reg.KS_CTRL F.KS_CTRL_LOCK = true then s.fld Reg.KS_CTRL F.KS_CTRL_TSRC_EN else data.toNat / 256 % 32) ∧ t.fld Reg.KS_CTRL F.KS_CTRL_REMASK = (if s.flag Reg.KS_CTRL F.KS_CTRL_LOCK = true then s.fld Reg.KS_CTRL F.KS_CTRL_REMASK else data.toNat % 128) ∧ t.flag Reg.KS_CTRL F.KS_CTRL_LOCK = (s.flag Reg.KS_CTRL F.KS_CTRL_LOCK || data.msb)))

/-- While Selvedge acts: a valid PERMIT lives PERMIT_MS and energises an output whose every other condition of R431 holds; a
withdrawn REQ bit or a lapse opens SOUT[0..8] softly, or at once where the current is low, and SOUT[9] at once; an invalid
one counts in SEQ_ERR with NOTE 0x05. Four low codes, or 20 ms, end a soft opening. Off-pulses start when due on one channel
only, end after OP_US, and a channel that reads wrong sets FAULT with NOTE 0x04 and turns the output off. SAFE_INPUT_ACCEPT
puts the pair in DEMAND from either channel at once and clears DISC when both show demand; DISC and STUCK put it there too,
with NOTE 0x02 and 0x03. ACK clears STUCK and FAULT where they may go. Commands that complete here (exec answers a next
state with their own effect, under conditions on the state and the operands alone): permit, permitLapse, safeCurrentCode,
safeCurrentGap, softOpenTimeout, offPulseStart, offPulseEnd, soutReadbackFault, safeInputAccept, safeInputDiscrepancy,
safeInputStuck, ack. (17_safety.md R426, 17_safety.md R427, 17_safety.md R428, 17_safety.md R429, 17_safety.md R430,
17_safety.md R431, 17_safety.md R432, 17_safety.md R433, 17_safety.md R434, 17_safety.md R435, 17_safety.md R436,
17_safety.md R441) -/
def Obligations.SafeInputsAndOutputsActByRule : Prop :=
  ∀ (s : State) (m : Fin 10) (n : Fin 16) (o : Fin 8) (w : Word) (rest : List Word) (code : BitVec 24) (chB level readsOn : Bool) (offs : BitVec 10) (changes us : Nat) (u : Nat), s.acts .selvedge →
    let x := s.selv
    let j := m.val
    let k := n.val
    let head := x.inbox = w :: rest ∧ x.confSeen = 0
    let type := w.toNat / 2 ^ 28
    let seq := w.toNat % 64
    let req := bitOf (w.toNat / 2 ^ 16 % 1024) j
    let valid := head ∧ type = 1 ∧ (x.permitDue = none ∨ seq = (s.fld Reg.SFS_PERMIT F.SFS_PERMIT_SEQ + 1) % 64)
    let bt := fun (f : Fld) => s.flag Reg.SFS_BRAKE f
    let brake := bt F.SFS_BRAKE_BT_FAIL = false ∧ bt F.SFS_BRAKE_BT_RUN = false ∧ (bt F.SFS_BRAKE_BT_DUE = true → s.scfg 0x130 4 ≠ 0 → s.energ 9 = true)
    let firm := s.sfsState = 1 ∧ s.scfg (0x90 + 16 * j) 1 = 1 ∧ bitOf (s.lfld Reg.SFS_OUT_EN F.SFS_OUT_EN_SAFE_EN) j = true ∧ s.outFault j = false ∧ (j = 9 → brake)
    let around := s.owned = true ∧ s.flag Reg.SFS_STATUS F.SFS_STATUS_RST_NOTE = false
    let low := s.currentLow j = true
    let on := fun (t : State) => t.energ j = true
    let soft := fun (t : State) => t.outSoft j = true
    let off := fun (t : State) => t.energ j = false ∧ t.outSoft j = false
    let ms := 16000000
    let ch := s.rawCurrent o.val
    let codes := (code.toInt :: ch.codes).take 4
    let quiet := codes.length = 4 ∧ codes.all (fun y => decide ((y - signed 32 (s.scfg (0x94 + 16 * j) 4)).natAbs < s.scfg (0x98 + 16 * j) 4)) = true
    let so := s.safeOut j
    let mode := s.scfg (0x10 + 8 * k) 1
    let p := s.safePair k
    let filt := s.scfg (0x11 + 8 * k) 1 * 500
    let okLevel := fun (b : Bool) => if b = true then decide (mode = 1) else true
    let fault := fun (t : State) => t.outFault j = true ∧ t.energ j = false ∧ Noted s t 0x18 (0x20 + j) 0x04
    let calm := bt F.SFS_BRAKE_BT_RUN = false
    (valid → Answers .permit s (fun t => t.selv.permitDue = some (s.now + s.scfg 5 1 * ms) ∧ t.fld Reg.SFS_PERMIT F.SFS_PERMIT_SEQ = seq ∧ t.fld Reg.SFS_OUT F.SFS_OUT_PERMIT = w.toNat / 2 ^ 16 % 1024 ∧ t.selv.inbox = rest)) ∧
    (valid ∧ req = true ∧ firm ∧ around ∧ s.energ j = false → Answers .permit s (fun t => on t)) ∧
    (valid ∧ s.energ j = false ∧ ¬(req = true ∧ firm ∧ around) → Answers .permit s (fun t => ¬on t)) ∧
    (valid ∧ req = false ∧ firm ∧ j ≠ 9 ∧ on s ∧ ¬soft s ∧ ¬low → Answers .permit s (fun t => on t ∧ soft t ∧ (t.safeOut j).softAt = some s.now)) ∧
    (valid ∧ req = false ∧ firm ∧ on s ∧ (j = 9 ∨ low) → Answers .permit s (fun t => off t)) ∧
    (head ∧ type = 1 ∧ ¬valid → Writes .permit s [Reg.SFS_PERMIT, Reg.ERR_BLK_STATUS 0x18, Reg.ERR_BLK_STATUS 0x18 + 4, Reg.ERR_BLK_STATUS 0x18 + 8, Reg.ERR_BLK_STATUS 0x18 + 12] (fun t => t.selv = { x with inbox := rest } ∧ Noted s t 0x18 0 0x05 ∧ t.fld Reg.SFS_PERMIT F.SFS_PERMIT_SEQ_ERR = min 255 (s.fld Reg.SFS_PERMIT F.SFS_PERMIT_SEQ_ERR + 1))) ∧
    (x.permitDue = some u ∧ u / 160 < s.now / 160 → Answers .permitLapse s (fun t => t.selv.permitDue = none ∧ t.fld Reg.SFS_OUT F.SFS_OUT_PERMIT = 0 ∧ t.fld Reg.SFS_PERMIT F.SFS_PERMIT_LAPSES = min 255 (s.fld Reg.SFS_PERMIT F.SFS_PERMIT_LAPSES + 1) ∧ (firm → j ≠ 9 → on s → ¬soft s → ¬low → on t ∧ soft t) ∧ (on s → (j = 9 ∨ low) → off t))) ∧
    (x.permitDue = some u ∧ s.now / 160 ≤ u / 160 → Writes .permitLapse s [] (fun t => t = s)) ∧
    (Answers (.safeCurrentCode o code) s (fun t => t.rawCurrent o.val = ⟨codes, some s.now, false⟩ ∧ (on s → soft s → s.outCh j = o.val → quiet → off t) ∧ (on s → firm → soft s → s.outCh j = o.val → ¬quiet → j ≠ 9 → on t ∧ soft t))) ∧
    (ch.last = some u ∧ u + ms ≤ s.now → Writes (.safeCurrentGap o) s [] (fun t => t.rawCurrent o.val = { ch with gap := true })) ∧
    (on s ∧ soft s ∧ so.softAt = some u ∧ u + 20 * ms ≤ s.now ∧ s.permits j = false → Answers (.softOpenTimeout m) s (fun t => off t)) ∧
    (so.softAt = some u ∧ s.now < u + 20 * ms → Writes (.softOpenTimeout m) s [] (fun t => t = s)) ∧
    (on s ∧ ¬soft s ∧ so.pulse = none ∧ (if chB = true then so.nextB else so.nextA) = some u ∧ u ≤ s.now → Writes (.offPulseStart m chB) s [] (fun t => t.safeOut j = { so with pulse := some (chB, s.now) } ∧ on t)) ∧
    (¬on s ∨ soft s ∨ so.pulse ≠ none → Writes (.offPulseStart m chB) s [] (fun t => t = s)) ∧
    (so.pulse = some (chB, u) ∧ u + s.scfg 0xA 2 * 16000 ≤ s.now → Answers (.offPulseEnd m false) s (fun t => (t.safeOut j).pulse = none ∧ (t.safeOut j).nextA = (if chB = true then so.nextA else so.nextA.map (fun y => y + s.scfg 8 2 * ms)) ∧ t.energ j = s.energ j)) ∧
    (so.pulse = some (chB, u) ∧ u + s.scfg 0xA 2 * 16000 ≤ s.now → Answers (.offPulseEnd m true) s (fun t => fault t)) ∧
    (100 < us ∧ s.outFault j = false ∧ (if readsOn = true then s.energ j = false else s.energ j = true ∧ so.pulse = none) → Answers (.soutReadbackFault m readsOn us) s (fun t => fault t)) ∧
    (us ≤ 100 → Writes (.soutReadbackFault m readsOn us) s [] (fun t => t = s)) ∧
    (us < filt → Writes (.safeInputAccept n chB level us offs) s [] (fun t => t = s)) ∧
    (level ≠ okLevel chB ∧ filt ≤ us ∧ (mode = 1 ∨ mode = 2) → Answers (.safeInputAccept n chB level us offs) s (fun t => t.pairOk k = false ∧ bitOf (t.fld Reg.SFS_RAW (if chB = true then F.SFS_RAW_LVL_B else F.SFS_RAW_LVL_A)) k = level)) ∧
    (level = okLevel chB ∧ filt ≤ us ∧ (mode = 1 ∨ mode = 2) ∧ s.chanOk k (!chB) = true ∧ p.disc = false ∧ p.stuck = false → Answers (.safeInputAccept n chB level us offs) s (fun t => t.pairOk k = true)) ∧
    (level ≠ okLevel chB ∧ filt ≤ us ∧ (mode = 1 ∨ mode = 2) ∧ s.chanOk k (!chB) = false → Answers (.safeInputAccept n chB level us offs) s (fun t => (t.safePair k).disc = false)) ∧
    (mode ≠ 0 ∧ calm ∧ p.disc = false ∧ p.disSince = some u ∧ u + s.scfg (0x12 + 8 * k) 2 * ms ≤ s.now → Answers (.safeInputDiscrepancy n) s (fun t => (t.safePair k).disc = true ∧ t.pairOk k = false ∧ Noted s t 0x18 (0x10 + k) 0x02)) ∧
    (mode ≠ 0 ∧ calm ∧ p.stuck = false ∧ (p.okSince ≠ none → s.pairOk k = true) ∧ ((s.scfg (0x16 + 8 * k) 1 ≠ 0 ∧ s.scfg (0x16 + 8 * k) 1 < changes) ∨ (s.scfg (0x14 + 8 * k) 2 ≠ 0 ∧ p.okSince = some u ∧ u + s.scfg (0x14 + 8 * k) 2 * 1000 * ms ≤ s.now)) → Answers (.safeInputStuck n changes offs) s (fun t => (t.safePair k).stuck = true ∧ t.pairOk k = false ∧ Noted s t 0x18 (0x10 + k) 0x03)) ∧
    (head ∧ type = 2 ∧ s.scfg 0xF 1 = 1 ∧ bitOf (w.toNat % 65536) k = true ∧ p.stuck = true → Answers (.ack offs) s (fun t => if s.chanOk k false = false ∧ s.chanOk k true = false then (t.safePair k).stuck = false else (t.safePair k).stuck = true ∧ t.fld Reg.SFS_MSG F.SFS_MSG_ACK_RES = 2)) ∧
    (head ∧ type = 2 ∧ s.scfg 0xF 1 = 1 ∧ w.toNat % 65536 = 0 ∧ w.toNat / 2 ^ 16 % 1024 = 2 ^ j ∧ s.outFault j = true → Answers (.ack offs) s (fun t => t.outFault j = !(bitOf offs.toNat j) ∧ t.fld Reg.SFS_MSG F.SFS_MSG_ACK_RES = (if bitOf offs.toNat j = true then 1 else 2)))

/-- While Selvedge acts: a cycle start without a commit, a lockstep mismatch, a second window outside 98,000 to 102,000, a
REFCLK gap, a supply fault and a CRC mismatch are pair faults: STATE is FAULT with the cause, every output is off, the pair
is halted and the chip safe state begins. Else a cycle start latches the inputs, and RUN begins after a confirmation.
SFS_OUT_CMT commits SAFE_EN, and an output whose consent it takes is off. A BRAKE_TEST is accepted or refused with NOTE
0x06; its end passes or fails it; BT_DUE comes with BT_AGE. The third word of a CONFIRM is stored with the key, every output
off and both values equal, else CONF_RES says why; a late word ends it with 5. USER reaches the pair. Commands that complete
here (exec answers a next state with their own effect, under conditions on the state and the operands alone):
safetyCycleStart, safetyCommit, lockstepMismatch, safeClockCheck, safetyConfigRecheck, brakeTest, brakeTestEnd,
brakeTestDue, confirm, confirmTimeout, user. (17_safety.md R416, 17_safety.md R417, 17_safety.md R420, 17_safety.md R421,
17_safety.md R423, 17_safety.md R424, 17_safety.md R425, 17_safety.md R432, 17_safety.md R435, 17_safety.md R437,
17_safety.md R438, 17_safety.md R440) -/
def Obligations.SelvedgeCyclesConfirmsAndStopsOnPairFaults : Prop :=
  ∀ (s : State) (m : Fin 10) (n : Fin 16) (q : Fin 4) (w : Word) (rest : List Word) (count gap supply : Nat) (u : Nat), s.acts .selvedge →
    let x := s.selv
    let j := m.val
    let k := n.val
    let head := x.inbox = w :: rest
    let type := w.toNat / 2 ^ 28
    let bare := w.toNat % 2 ^ 28 = 0
    let state := fun (t : State) => t.fld Reg.SFS_STATUS F.SFS_STATUS_STATE
    let stopped := fun (t : State) (code : Nat) => state t = 4 ∧ (state s ≠ 4 → t.fld Reg.SFS_STATUS F.SFS_STATUS_FCODE = code) ∧ t.energ j = false ∧ (t.ctx (36 + q.val)).run = .halted ∧ (t.ctx (36 + q.val)).dead = true ∧ t.power.chipSafe = true ∧ 4 ≤ t.fld (Reg.ERR_BLK_STATUS 0x18) F.ERR_BLK_STATUS_GRADE
    let cyc := x.cycleAt = some u ∧ u ≤ s.now
    let done := x.cycleOpen = false ∨ x.committed = true
    let low := count < 98000 ∨ 102000 < count
    let sum := crc32 (s.bytes pairDtcm 0x1FC) = s.rd Reg.SFS_CHK
    let crc := x.crcAt = some u ∧ u ≤ s.now
    let bt := fun (t : State) (f : Fld) => t.flag Reg.SFS_BRAKE f
    let motion := s.scfg 0xE 1
    let ms := 16000000
    let test := head ∧ x.confSeen = 0 ∧ type = 3
    let may := s.energ 9 = false ∧ motion ≠ 0xFF ∧ bt s F.SFS_BRAKE_BT_RUN = false
    let braked := x.brakeEnd = some u ∧ u ≤ s.now
    let res := fun (t : State) => t.fld Reg.SFS_MSG F.SFS_MSG_CONF_RES
    let key := s.pairOk (s.scfg 0xD 1) = true
    let idle := s.fld Reg.SFS_OUT F.SFS_OUT_ENERG = 0
    let same := x.confWord = s.rd Reg.SFS_CHK ∧ w = s.rd Reg.SFS_PROG
    let late := s.confLate
    let third := late = false ∧ head ∧ x.confSeen = 2
    let gone := fun (t : State) => t.selv.confSeen = 0 ∧ t.selv.inbox = rest ∧ Fires s t 0x18 0x16
    (cyc ∧ ¬done → Answers .safetyCycleStart s (fun t => stopped t 0x13)) ∧
    (cyc ∧ done → Answers .safetyCycleStart s (fun t => bitOf (t.fld Reg.SFS_IN F.SFS_IN_OK) k = s.pairOk k ∧ bitOf (t.fld Reg.SFS_IN F.SFS_IN_DISC) k = (s.safePair k).disc ∧ bitOf (t.fld Reg.SFS_IN2 F.SFS_IN2_STUCK) k = (s.safePair k).stuck ∧ t.selv.cycleAt = some (u + s.scfg 4 1 * 8000000) ∧ t.selv.cycleOpen = true ∧ t.selv.committed = false ∧ state t = (if x.toRun = true then 1 else state s))) ∧
    (x.cycleAt = some u ∧ s.now < u → Writes .safetyCycleStart s [] (fun t => t = s)) ∧
    (Answers .safetyCommit s (fun t => t.lfld Reg.SFS_OUT_EN F.SFS_OUT_EN_SAFE_EN = s.fld Reg.SFS_OUT_EN F.SFS_OUT_EN_SAFE_EN ∧ t.selv.committed = (x.committed || x.enSeen) ∧ (bitOf (s.fld Reg.SFS_OUT_EN F.SFS_OUT_EN_SAFE_EN) j = false → t.energ j = false))) ∧
    (Answers .lockstepMismatch s (fun t => stopped t 0x10)) ∧
    (10 < supply → Answers (.safeClockCheck count gap supply) s (fun t => stopped t 0x12)) ∧
    (supply ≤ 10 ∧ (100000 ≤ gap ∨ (low ∧ x.badCount = true)) → Answers (.safeClockCheck count gap supply) s (fun t => stopped t 0x11)) ∧
    (supply ≤ 10 ∧ gap < 100000 ∧ (¬low ∨ x.badCount = false) → Writes (.safeClockCheck count gap supply) s [] (fun t => t.selv = { x with badCount := decide low })) ∧
    (crc ∧ ¬sum → Answers .safetyConfigRecheck s (fun t => stopped t 0x15)) ∧
    (crc ∧ sum → Writes .safetyConfigRecheck s [] (fun t => t.selv = { x with crcAt := some (u + 160000000000) })) ∧
    (test ∧ may → Answers .brakeTest s (fun t => bt t F.SFS_BRAKE_BT_RUN = true ∧ t.selv.brakeEnd = some (s.now + s.scfg 0x134 2 * ms) ∧ t.selv.brakeFailed = !(s.pairOk motion) ∧ t.selv.inbox = rest ∧ (s.pairOk motion = false → bt t F.SFS_BRAKE_BT_FAIL = true ∧ Noted s t 0x18 0x29 0x07))) ∧
    (test ∧ bare ∧ ¬may → Writes .brakeTest s [Reg.SFS_MSG, Reg.ERR_BLK_STATUS 0x18, Reg.ERR_BLK_STATUS 0x18 + 4, Reg.ERR_BLK_STATUS 0x18 + 8, Reg.ERR_BLK_STATUS 0x18 + 12] (fun t => t.selv = { x with inbox := rest } ∧ t.fld Reg.SFS_MSG F.SFS_MSG_REFUSED = min 255 (s.fld Reg.SFS_MSG F.SFS_MSG_REFUSED + 1) ∧ Noted s t 0x18 0 0x06)) ∧
    (braked ∧ x.brakeFailed = false → Answers .brakeTestEnd s (fun t => bt t F.SFS_BRAKE_BT_RUN = false ∧ bt t F.SFS_BRAKE_BT_FAIL = false ∧ bt t F.SFS_BRAKE_BT_DUE = false ∧ t.selv.ageAt = s.now ∧ t.selv.brakeEnd = none)) ∧
    (braked ∧ x.brakeFailed = true → Answers .brakeTestEnd s (fun t => bt t F.SFS_BRAKE_BT_RUN = false ∧ bt t F.SFS_BRAKE_BT_FAIL = bt s F.SFS_BRAKE_BT_FAIL ∧ bt t F.SFS_BRAKE_BT_DUE = bt s F.SFS_BRAKE_BT_DUE ∧ t.selv.ageAt = x.ageAt)) ∧
    (state s ≠ 0 ∧ state s ≠ 3 ∧ s.scfg 0x130 4 ≠ 0 ∧ s.scfg 0x130 4 ≤ min 0xFFFFFF ((s.now - x.ageAt) / 16000000000) → Writes .brakeTestDue s [Reg.SFS_BRAKE] (fun t => bt t F.SFS_BRAKE_BT_DUE = true ∧ t.energ j = s.energ j)) ∧
    (late = false ∧ head ∧ x.confSeen = 0 ∧ type = 4 → Writes .confirm s [] (fun t => t.selv = { x with inbox := rest, confSeen := 1, confDue := some (s.now + ms) })) ∧
    (late = false ∧ head ∧ x.confSeen = 1 → Writes .confirm s [] (fun t => t.selv = { x with inbox := rest, confSeen := 2, confWord := w, confDue := some (s.now + ms) })) ∧
    (third ∧ key ∧ idle ∧ same → Answers .confirm s (fun t => res t = 1 ∧ t.rd Reg.SFS_CONF_CHK = x.confWord ∧ t.rd Reg.SFS_CONF_PROG = w ∧ t.selv.nvChk = x.confWord ∧ t.selv.nvProg = w ∧ (state s = 2 → t.selv.toRun = true) ∧ gone t)) ∧
    (third ∧ ¬(key ∧ idle ∧ same) → Writes .confirm s [Reg.SFS_MSG] (fun t => res t = (if ¬key then 2 else if ¬idle then 3 else 4) ∧ t.selv.nvChk = x.nvChk ∧ t.selv.nvProg = x.nvProg ∧ t.selv.toRun = x.toRun ∧ gone t)) ∧
    (x.confDue = some u ∧ u < s.now → Writes .confirm s [Reg.SFS_MSG] (fun t => res t = 5 ∧ t.selv = { x with confSeen := 0, confWord := 0, confDue := none } ∧ Fires s t 0x18 0x16)) ∧
    (x.confDue = some u ∧ u ≤ s.now → Writes .confirmTimeout s [Reg.SFS_MSG] (fun t => res t = 5 ∧ t.selv = { x with confSeen := 0, confWord := 0, confDue := none } ∧ Fires s t 0x18 0x16)) ∧
    (x.confDue = some u ∧ s.now < u → Writes .confirmTimeout s [] (fun t => t = s)) ∧
    (head ∧ x.confSeen = 0 ∧ type = 8 → Writes .user s [] (fun t => t.selv = { x with inbox := rest, user := x.user ++ [w] })) ∧
    (x.inbox = [] → Writes .user s [] (fun t => t = s))

/-- While PD_SW is powered, for a channel that is no coil: ON written 1, by HS_ON or HS_ON_SET, turns it on with a new
inrush window; written 0 it is OFF, from LATCHED too, and from FUSED at a LEVEL of 20 % or less, else REFUSED. 50 µs of
overcurrent outside the window, or one at its end, waits with RCNT counted and NOTE 0x02, or latches; the wait ends in a new
turn-on. The fuse integrator adds i² − INOM² for each 100 µs and at I2T the channel is FUSED with NOTE 0x04. The thermal
latch, at T_LATCH, freezes the wait and wins over a trip of the same cycle; its release counts the trip it pre-empted or
resumes. OPEN, MISMATCH and their end follow R451. LH_IN follows its level until it is stuck with NOTE 0x07. LH_EN decides
the reset behaviour. Above V_OVP every channel is off. Commands that complete here (exec answers a next state with their own
effect, under conditions on the state and the operands alone): hsOnWrite, hsOnSet, hsOnClr, hsOvercurrentTrip, hsRetry,
hsFuseTrip, hsThermalLatch, hsThermalRelease, hsRcntReset, hsOpenLoad, hsMismatch, hsMismatchClear, lhInEdge, lhInUnstuck,
lhEnChange, isSelChange, hsLock, vinOvervoltage, vinOvervoltageEnd. (18_load_switches.md R445, 18_load_switches.md R446,
18_load_switches.md R447, 18_load_switches.md R448, 18_load_switches.md R449, 18_load_switches.md R450, 18_load_switches.md
R451, 18_load_switches.md R452, 18_load_switches.md R453, 18_load_switches.md R454, 18_load_switches.md R456,
23_electrical_package.md R533) -/
def Obligations.LoadSwitchesProtectRetryAndFollowTheirDrive : Prop :=
  ∀ (s : State) (n : Fin 16) (p : Fin 6) (data : BitVec 16) (ma temp : BitVec 16) (lim high : Bool) (sel : Fin 16) (u us : Nat), s.domUp 5 = true →
    let j := n.val
    let x := s.sw j
    let st := Reg.HS_STAT j
    let cfg := fun (f : Fld) => s.fld (Reg.HS_CFG j) f
    let state := fun (t : State) => t.fld st F.HS_STAT_STATE
    let rcnt := fun (t : State) => t.fld st F.HS_STAT_RCNT
    let act := s.acts .loadSwitch
    let quiet := s.hs.behave = false ∧ (∀ i : Fin 16, s.coilOf i.val = none)
    let pin := cfg F.HS_CFG_SRC = 0 ∨ s.lhIn (cfg F.HS_CFG_PIN) = true
    let window := (if cfg F.HS_CFG_INRUSH = 0 then 1 else cfg F.HS_CFG_INRUSH) * 80000000
    let wait := (if cfg F.HS_CFG_RETRY_MS = 0 then 1 else cfg F.HS_CFG_RETRY_MS) * 160000000
    let starts := fun (t : State) => state t = 1 ∧ (t.sw j).inrushEnd = s.now + window ∧ (t.sw j).onAt = some s.now
    let mayOn := s.coilHeldOff j = false ∧ pin ∧ state s = 0 ∧ x.drive = false ∧ s.hs.overV = false
    let bit := bitOf data.toNat j
    let isOn := fun (t : State) => bitOf (t.fld Reg.HS_ON F.HS_ON_VAL) j
    let offed := fun (t : State) => state t = 0 ∧ isOn t = false
    let live := state s = 1 ∧ s.flag st F.HS_STAT_THERM = false ∧ s.hs.overV = false
    let sec := 16000000000
    let trips := x.inrushEnd ≤ s.now ∧ (50 ≤ us ∨ s.now < x.inrushEnd + us * 16000)
    let here := s.thisCycle x.tripAt
    let lf := if s.fld Reg.LH_CFG F.LH_CFG_FILT = 0 then 1 else s.fld Reg.LH_CFG F.LH_CFG_FILT
    let k := (s.now - x.fuseAt) / 1600000
    let inom := (fuseCurve (cfg F.HS_CFG_FUSE)).1
    let limit := (fuseCurve (cfg F.HS_CFG_FUSE)).2 * 10000000000
    let level := ((x.fuse : Int) + k * ((ma.toNat * ma.toNat : Nat) - (inom * inom : Nat) : Int)).toNat
    let therm := fun (t : State) => t.flag st F.HS_STAT_THERM
    let mis := fun (t : State) => t.flag st F.HS_STAT_MISMATCH
    let i := p.val
    let edges := (Tab.get (fun _ => []) s.hs.edges i).filter (fun y => decide (s.now < y + sec))
    let rate := s.fld Reg.LH_CFG F.LH_CFG_RATE_LIM
    let many := rate ≠ 0 ∧ rate * 16 < edges.length + 1
    let stuck := fun (t : State) => Tab.get (fun _ => none) t.hs.stuckAt i
    let moved := bitOf s.hs.level i ≠ high
    (act ∧ quiet ∧ mayOn ∧ bit = true → Answers (.hsOnWrite data) s (fun t => starts t ∧ isOn t = true)) ∧
    (act ∧ quiet ∧ mayOn ∧ bit = true → Answers (.hsOnSet data) s (fun t => starts t ∧ isOn t = true)) ∧
    (act ∧ quiet ∧ bit = false → Answers (.hsOnSet data) s (fun t => t.sw j = x ∧ t.rd st = s.rd st ∧ isOn t = isOn s)) ∧
    (act ∧ quiet ∧ bit = true ∧ (state s = 1 ∨ state s = 2 ∨ state s = 3 ∨ (state s = 4 ∧ s.fuseLevel j ≤ 20)) → Answers (.hsOnClr data) s (fun t => offed t ∧ (state s ≠ 1 → rcnt t = 0))) ∧
    (act ∧ quiet ∧ bit = false ∧ (state s = 1 ∨ state s = 2 ∨ state s = 3) → Answers (.hsOnWrite data) s (fun t => offed t ∧ (state s ≠ 1 → rcnt t = 0))) ∧
    (act ∧ quiet ∧ bit = true ∧ state s = 4 ∧ 20 < s.fuseLevel j → Answers (.hsOnClr data) s (fun t => state t = 4 ∧ t.flag st F.HS_STAT_REFUSED = true ∧ isOn t = false)) ∧
    (live ∧ trips ∧ rcnt s < cfg F.HS_CFG_RETRY_N ∧ s.driveOf j = true ∧ s.coilOf j = none → Answers (.hsOvercurrentTrip n us) s (fun t => state t = 2 ∧ rcnt t = rcnt s + 1 ∧ (t.sw j).retryAt = some (s.now + wait) ∧ t.flag st F.HS_STAT_OC_SEEN = true ∧ Noted s t 0x1A j 0x02 ∧ Fires s t 0x1A j)) ∧
    (live ∧ trips ∧ cfg F.HS_CFG_RETRY_N ≤ rcnt s → Answers (.hsOvercurrentTrip n us) s (fun t => state t = 3 ∧ rcnt t = rcnt s ∧ t.flag st F.HS_STAT_OC_SEEN = true ∧ (t.blkRec 0x1A).notes.take 2 = [s.now, s.now])) ∧
    (¬live ∨ s.now < x.inrushEnd ∨ (us < 50 ∧ x.inrushEnd + us * 16000 ≤ s.now) → Writes (.hsOvercurrentTrip n us) s [] (fun t => t = s)) ∧
    (state s = 2 ∧ x.retryAt = some u ∧ u ≤ s.now ∧ s.hs.overV = false ∧ x.drive = true → Writes (.hsRetry n) s [st] (fun t => starts t ∧ (t.sw j).retryAt = none ∧ (t.sw j).retried = some s.now ∧ rcnt t = rcnt s)) ∧
    (state s ≠ 2 ∨ (x.retryAt = some u ∧ s.now < u) → Writes (.hsRetry n) s [] (fun t => t = s)) ∧
    (level < limit → Writes (.hsFuseTrip n ma temp) s [Reg.HS_MEAS j] (fun t => (t.sw j).fuse = level ∧ t.fld (Reg.HS_MEAS j) F.HS_MEAS_I_MA = ma.toNat ∧ t.fld (Reg.HS_MEAS j) F.HS_MEAS_TEMP = temp.toNat)) ∧
    (limit ≤ level ∧ state s ≠ 4 → Answers (.hsFuseTrip n ma temp) s (fun t => state t = 4 ∧ rcnt t = (if here = true ∧ state s = 2 then rcnt s - 1 else rcnt s) ∧ Noted s t 0x1A j 0x04)) ∧
    (1600 ≤ tLatch j ∧ tLatch j ≤ 1900) ∧
    (therm s = true ∨ temp.toInt < tLatch j → Writes (.hsThermalLatch n temp lim) s [] (fun t => t = s)) ∧
    (therm s = false ∧ tLatch j ≤ temp.toInt ∧ here = true ∧ (state s = 2 ∨ state s = 3) ∧ s.hs.overV = false → Answers (.hsThermalLatch n temp lim) s (fun t => therm t = true ∧ state t = 1 ∧ rcnt t = (if state s = 2 then rcnt s - 1 else rcnt s) ∧ (t.sw j).thermTrip = true ∧ Noted s t 0x1A j 0x05)) ∧
    (therm s = false ∧ tLatch j ≤ temp.toInt ∧ here = false → Answers (.hsThermalLatch n temp lim) s (fun t => therm t = true ∧ t.hsDriving j = false ∧ state t = state s ∧ rcnt t = rcnt s ∧ (t.sw j).retryAt = none ∧ (t.sw j).retryLeft = x.retryAt.map (fun y => y - s.now) ∧ (t.sw j).thermTrip = (lim && decide (state s = 1 ∧ s.hs.overV = false)) ∧ Noted s t 0x1A j 0x05 ∧ Fires s t 0x1A j)) ∧
    (therm s = false ∨ tLatch j - 250 < temp.toInt → Writes (.hsThermalRelease n temp) s [] (fun t => t = s)) ∧
    (therm s = true ∧ temp.toInt ≤ tLatch j - 250 ∧ state s = 1 ∧ x.thermTrip = false → Answers (.hsThermalRelease n temp) s (fun t => therm t = false ∧ starts t)) ∧
    (therm s = true ∧ temp.toInt ≤ tLatch j - 250 ∧ state s = 1 ∧ x.thermTrip = true ∧ rcnt s < cfg F.HS_CFG_RETRY_N ∧ s.driveOf j = true → Answers (.hsThermalRelease n temp) s (fun t => therm t = false ∧ state t = 2 ∧ rcnt t = rcnt s + 1 ∧ Noted s t 0x1A j 0x02)) ∧
    (therm s = true ∧ temp.toInt ≤ tLatch j - 250 ∧ state s = 2 ∧ x.retryLeft = some u → Answers (.hsThermalRelease n temp) s (fun t => therm t = false ∧ state t = 2 ∧ (t.sw j).retryAt = some (u + s.now) ∧ rcnt t = rcnt s)) ∧
    (live ∧ x.onAt = some u ∧ u + sec ≤ s.now → Writes (.hsRcntReset n) s [st] (fun t => rcnt t = 0 ∧ state t = 1)) ∧
    (live ∧ ma.toNat < 20 ∧ 10000 ≤ us ∧ x.onAt = some u ∧ u + 160000000 ≤ s.now → Answers (.hsOpenLoad n ma us) s (fun t => t.flag st F.HS_STAT_OPEN = true ∧ state t = 1 ∧ Noted s t 0x1A j 0x06)) ∧
    (x.drive = false ∧ x.driveAt + 16000000 ≤ s.now ∧ mis s = false → Answers (.hsMismatch n) s (fun t => mis t = true ∧ Contained s t 0x1A j 0x09)) ∧
    (x.drive = true ∨ s.now < x.driveAt + 16000000 → Writes (.hsMismatch n) s [] (fun t => t = s)) ∧
    (x.drive = false ∧ x.driveAt + sec ≤ s.now ∧ mis s = true → Answers (.hsMismatchClear n) s (fun t => mis t = false)) ∧
    (quiet ∧ moved ∧ lf ≤ us ∧ high = true ∧ ¬many ∧ stuck s = none ∧ cfg F.HS_CFG_SRC = 1 ∧ cfg F.HS_CFG_PIN = i ∧ isOn s = true ∧ x.hold = none ∧ s.coilHeldOff j = false ∧ state s = 0 ∧ x.drive = false ∧ s.hs.overV = false → Answers (.lhInEdge p high us) s (fun t => t.lhIn i = true ∧ starts t)) ∧
    (quiet ∧ moved ∧ lf ≤ us ∧ high = false ∧ cfg F.HS_CFG_SRC = 1 ∧ cfg F.HS_CFG_PIN = i ∧ x.hold = none ∧ state s = 1 → Answers (.lhInEdge p high us) s (fun t => t.lhIn i = false ∧ state t = 0)) ∧
    (quiet ∧ moved ∧ lf ≤ us ∧ many ∧ stuck s = none → Answers (.lhInEdge p high us) s (fun t => stuck t = some s.now ∧ t.lhIn i = false ∧ bitOf (t.fld Reg.LH_PIN F.LH_PIN_STUCK) i = true ∧ Noted s t 0x1A 0 0x07)) ∧
    (stuck s = some u ∧ u + sec < s.now ∧ (rate = 0 ∨ edges.length ≤ rate * 16) → Answers (.lhInUnstuck p) s (fun t => stuck t = none ∧ t.lhIn i = bitOf s.hs.level i)) ∧
    (stuck s = some u ∧ s.now ≤ u + sec → Writes (.lhInUnstuck p) s [] (fun t => t = s)) ∧
    (1000 ≤ us ∧ s.hs.behave = true ∧ cfg F.HS_CFG_LH_MAP = 6 ∧ state s = 0 ∧ x.drive = false ∧ s.hs.overV = false → Answers (.lhEnChange true us) s (fun t => t.flag Reg.LH_PIN F.LH_PIN_LH_EN = true ∧ starts t)) ∧
    (1000 ≤ us ∧ s.hs.behave = true ∧ s.flag Reg.HS_CTRL F.HS_CTRL_KLS_EN = false ∧ state s = 1 → Answers (.lhEnChange false us) s (fun t => t.flag Reg.LH_PIN F.LH_PIN_LH_EN = false ∧ state t = 0)) ∧
    (us < lf → Writes (.lhInEdge p high us) s [] (fun t => t = s)) ∧
    (us < 1000 → Writes (.lhEnChange high us) s [] (fun t => t = s) ∧ Writes (.isSelChange sel us) s [] (fun t => t = s)) ∧
    (act → Writes .hsLock s [Reg.HS_CTRL] (fun t => t.flag Reg.HS_CTRL F.HS_CTRL_LOCK = true)) ∧
    (1000 ≤ us → Writes (.isSelChange sel us) s [] (fun t => t.isChannel = (if s.flag Reg.HS_CTRL F.HS_CTRL_ISEL_SRC = true then s.fld Reg.HS_CTRL F.HS_CTRL_ISEL_CH else sel.val))) ∧
    (s.hs.overV = false → Answers .vinOvervoltage s (fun t => t.hs.overV = true ∧ t.hsDriving j = false ∧ rcnt t = rcnt s ∧ state t = (if state s = 1 then 0 else state s))) ∧
    (s.hs.overV = true → Answers .vinOvervoltageEnd s (fun t => t.hs.overV = false ∧ rcnt t = rcnt s ∧ (if state s = 0 ∧ x.drive = true then starts t else state t = state s)))

/-- While Brine is powered: EN rising starts RREF at VOUT with the phases of PH_EN, EN falling turns every gate off and
forgets RREF, and a write of PH_EN under way enables or stops phases. In a period RREF moves toward VSET by SLEW, REF
follows TRK_MODE, BRAKING its two thresholds, the integrator and the command R463 with the limit of R466; a load step brings
every enabled phase back and holds shedding off; fades advance, and a phase is restored above SHED_HI. VSET is replaced with
RREF kept. The trim update moves TRIM toward equality within ±100 and sets AT_LIM after 1,024. The latches turn every gate
off with NOTE 0x03 or 0x05. Shedding fades the highest active phase. The low side stays on until the current reaches zero
with SINK = 0 or while the diode rule holds, else until minus a quarter of the limit (R468, R471). A switch fault stops its
phase with CONTAIN 0x06. That PH_EN acts at once is log entry 126; the units of the loop are entry 125. Commands that
complete here (exec answers a next state with their own effect, under conditions on the state and the operands alone):
brineEnable, brineVsetWrite, brinePeriod, brineTrimUpdate, brineUvLatch, brineOvLatch, brinePhaseShed, brineSwFault.
(19_brine.md R463, 19_brine.md R465, 19_brine.md R466, 19_brine.md R467, 19_brine.md R468, 19_brine.md R469, 19_brine.md
R470, 19_brine.md R471, 19_brine.md R473, 19_brine.md R474, 19_brine.md R479) -/
def Obligations.BrineRegulatesShedsAndLatchesByItsRules : Prop :=
  ∀ (s : State) (data : Word) (vout : BitVec 16) (trk : BitVec 12) (i : BitVec 64) (p : Fin 4) (u q : Nat) (sense : List BrSense) (x : BrSense), s.acts .brine →
    let b := s.brine
    let k := p.val
    let on := s.brOn = true
    let good := s.brLatched = false
    let cf := fun (r : Nat) (f : Fld) => s.fld r f
    let atLeast1 := fun (x : Nat) => if x = 0 then 1 else x
    let mode := cf Reg.BR_CTRL F.BR_CTRL_TRK_MODE
    let phEn := cf Reg.BR_CTRL F.BR_CTRL_PH_EN
    let new := data &&& 0x800F3700
    let up := data.getLsbD 31 = true
    let want := F.BR_CTRL_PH_EN.get data
    let vset : Nat := clampNat 5000 28000 (cf Reg.BR_VSET F.BR_VSET_VSET_MV)
    let fsw := clampNat 100 600 (cf Reg.BR_FSW F.BR_FSW_FSW_KHZ)
    let goal := vset * 1000000000
    let slew := atLeast1 (cf Reg.BR_VSET F.BR_VSET_SLEW) * 1000000000 / fsw
    let rref := if b.rref < goal then min goal (b.rref + slew) else max goal (b.rref - slew)
    let mv := rref / 1000000000
    let ref : Nat := if mode = 1 then min mv (16 * trk.toNat) else if mode = 2 then min mv (vset * trk.toNat / atLeast1 (cf Reg.BR_TRK F.BR_TRK_TRK_FS)) else mv
    let v : Nat := vout.toNat
    let prot := fun (f : Fld) => cf Reg.BR_PROT f
    let brk : Nat := prot F.BR_PROT_BRK_MV * 10
    let brakes := if s.brFlag F.BR_STATUS_BRAKING = true then ref * 2 + brk ≤ v * 2 else (s.flag Reg.BR_CTRL F.BR_CTRL_BRK_EN = true ∧ ref + brk < v)
    let err : Int := (ref : Int) - v
    let ki : Int := cf Reg.BR_LOOP F.BR_LOOP_KI
    let kp : Int := cf Reg.BR_LOOP F.BR_LOOP_KP
    let integ := if brakes ∨ b.limited = true then b.integ else b.integ + ki * err
    let ilim : Nat := cf Reg.BR_CUR F.BR_CUR_ILIM
    let fold := min 100 (cf Reg.BR_CUR F.BR_CUR_FOLD_MIN)
    let lim : Nat := if ref < 2500 then ilim * fold / 100 else ilim * max fold (min 100 (100 * v / ref)) / 100
    let under := 2500 ≤ ref ∧ v * 100 < ref * (100 - 10 * prot F.BR_PROT_UV_PCT)
    let stepped := v + prot F.BR_PROT_STEP_MV * 10 < ref
    let active := s.brActive
    let list := (List.range 4).filter (fun q => bitOf active q)
    let n : Nat := list.length
    let lane := fun (q : Nat) => signed 16 (i.toNat / 2 ^ (16 * q))
    let total : Int := (list.map lane).foldl (fun a c => a + c) (0 : Int)
    let shed := fun (f : Fld) => cf Reg.BR_SHED f
    let still := b.fade = none ∧ b.grow = none
    let shedMs := atLeast1 (shed F.BR_SHED_SHED_MS) * 16000000
    let ph := fun (t : State) (f : Fld) => t.fld (Reg.BR_PH k) f
    let mean := fun (t : State) (q : Nat) => signed 16 (t.fld (Reg.BR_PH q) F.BR_PH_I_MA)
    let all : Int := (list.map (mean s)).foldl (fun a c => a + c) (0 : Int)
    let trim := signed 8 (ph s F.BR_PH_TRIM)
    let trim2 := clampInt (-100) 100 (if mean s k * n < all then trim + 1 else if all < mean s k * n then trim - 1 else trim)
    let gone := fun (t : State) => t.brActive = 0 ∧ t.brFlag F.BR_STATUS_PG = false ∧ t.brFlag F.BR_STATUS_BRAKING = false ∧ t.brine.ipk = 0
    let uv := prot F.BR_PROT_UV_MS
    let g := s.brGate k
    let a := signed 16 x.i.toNat
    let runs := s.brSwitches k = true ∧ x.p = p ∧ x.t ≠ 0 ∧ g.seen ≤ x.t.toNat ∧ (a.natAbs : Nat) * atLeast1 (cf Reg.BR_TRK F.BR_TRK_RS) ≤ 1000000
    let limit : Int := s.brLim
    let ends := if b.diode = true ∨ s.flag Reg.BR_CTRL F.BR_CTRL_SINK = false then a ≤ 0 else a * 4 ≤ -(limit * 25)
    let sheds := s.flag Reg.BR_CTRL F.BR_CTRL_SHED_EN = true ∧ b.lowAt = some u ∧ u + shedMs ≤ s.now ∧ b.holdTo ≤ s.now ∧ still ∧ list.getLast? = some k
    (¬on ∧ up ∧ b.stopped = 0 → Writes (.brineEnable data) s [Reg.BR_CTRL, Reg.BR_STATUS] (fun t => t.rd Reg.BR_CTRL = new ∧ t.brine.rref = s.brVout * 1000000000 ∧ t.brine.ref = s.brVout ∧ t.brine.integ = 0 ∧ t.brine.diode = true ∧ t.brLatched = false ∧ t.brActive = want ∧ t.brFlag F.BR_STATUS_SLEWING = decide (s.brVout ≠ vset))) ∧
    (on ∧ ¬up → Writes (.brineEnable data) s [Reg.BR_CTRL, Reg.BR_STATUS, Reg.BR_VOUT] (fun t => gone t ∧ t.brine.rref = 0 ∧ t.brFlag F.BR_STATUS_SLEWING = false ∧ t.brLatched = s.brLatched)) ∧
    (on ∧ up ∧ good ∧ b.stopped = 0 → Answers (.brineEnable data) s (fun t => t.brine.rref = b.rref ∧ bitOf t.brActive k = (bitOf want k && (bitOf active k || !bitOf phEn k)))) ∧
    (F.BR_CTRL_TRK_MODE.get data = 3 → Answers (.brineEnable data) s (fun t => t.brFlag F.BR_STATUS_CFG_ERR = true)) ∧
    (Writes (.brineVsetWrite data) s [Reg.BR_VSET] (fun t => t.rd Reg.BR_VSET = data &&& 0xFFFF7FFF ∧ t.brine = b)) ∧
    (¬on → Answers (.brinePeriod vout trk i sense) s (fun t => t.brVout = v ∧ t.brine = b ∧ t.rd Reg.BR_STATUS = s.rd Reg.BR_STATUS)) ∧
    (on ∧ ref < 65536 → Answers (.brinePeriod vout trk i sense) s (fun t => t.brVout = v ∧ t.brine.rref = rref ∧ t.brine.ref = ref ∧ t.fld Reg.BR_VOUT F.BR_VOUT_REF = ref ∧ t.brFlag F.BR_STATUS_SLEWING = decide (rref ≠ goal) ∧ (bitOf active k = true → mean t k = lane k))) ∧
    (on ∧ good → Answers (.brinePeriod vout trk i sense) s (fun t => t.brFlag F.BR_STATUS_BRAKING = decide brakes ∧ t.brine.integ = integ ∧ t.brine.ipk = clampInt 0 ((lim : Int) * 16384000) (kp * 256 * err + integ) ∧ t.brine.uvAt = (if under then some (b.uvAt.getD s.now) else none) ∧ t.brine.periods = b.periods + 1)) ∧
    (on ∧ good ∧ stepped ∧ b.stopped = 0 → Answers (.brinePeriod vout trk i sense) s (fun t => t.brActive = phEn ∧ t.brine.fade = none ∧ t.brine.grow = none ∧ t.brine.holdTo = s.now + shedMs)) ∧
    (on ∧ good ∧ ¬stepped ∧ b.fade = some (k, u) ∧ i = 0 → Answers (.brinePeriod vout trk i sense) s (fun t => if u ≤ 1 then t.brine.fade = none ∧ t.brActive = withBit active k false else t.brine.fade = some (k, u - 1) ∧ t.brActive = active)) ∧
    (on ∧ good ∧ ¬stepped ∧ still ∧ ¬brakes ∧ b.stopped = 0 ∧ (shed F.BR_SHED_SHED_HI * 25 * n : Nat) < total ∧ (List.range 4).find? (fun y => bitOf phEn y && !bitOf active y) = some q → Answers (.brinePeriod vout trk i sense) s (fun t => t.brActive = withBit active q true ∧ t.brine.grow = some (q, 16))) ∧
    (on ∧ 32 ≤ b.periods ∧ bitOf active k = true → Answers .brineTrimUpdate s (fun t => signed 8 (ph t F.BR_PH_TRIM) = trim2 ∧ t.brine.periods = 0 ∧ ((trim2 = 100 ∨ trim2 = -100) → Tab.get (fun _ => 0) b.atLim k = 1023 → t.flag (Reg.BR_PH k) F.BR_PH_AT_LIM = true))) ∧
    (¬on ∨ b.periods < 32 → Writes .brineTrimUpdate s [] (fun t => t = s)) ∧
    (on ∧ good ∧ b.uvAt = some u ∧ u + atLeast1 uv * 16000000 ≤ s.now → Answers .brineUvLatch s (fun t => gone t ∧ t.brFlag F.BR_STATUS_UV_LATCH = true ∧ t.brOn = true ∧ Noted s t 0x1B 0 0x03)) ∧
    (b.uvAt = none ∨ (b.uvAt = some u ∧ s.now < u + atLeast1 uv * 16000000) → Writes .brineUvLatch s [] (fun t => t = s)) ∧
    (on ∧ good ∧ b.ovAt = some u ∧ u + 320000 ≤ s.now → Answers .brineOvLatch s (fun t => gone t ∧ t.brFlag F.BR_STATUS_OV_LATCH = true ∧ t.brOn = true ∧ Noted s t 0x1B 0 0x05)) ∧
    (b.ovAt = none ∨ (b.ovAt = some u ∧ s.now < u + 320000) → Writes .brineOvLatch s [] (fun t => t = s)) ∧
    (on ∧ sheds ∧ shed F.BR_SHED_MIN_PH + 1 < n → Writes .brinePhaseShed s [] (fun t => t.brine = { b with fade := some (k, 16), lowAt := none })) ∧
    (¬on ∨ n ≤ shed F.BR_SHED_MIN_PH + 1 ∨ (b.lowAt = some u ∧ s.now < u + shedMs) → Writes .brinePhaseShed s [] (fun t => t = s)) ∧
    (bitOf active k = true → Answers (.brineSwFault p) s (fun t => t.brActive = withBit active k false ∧ bitOf t.brine.stopped k = true ∧ Contained s t 0x1B (k + 1) 0x06)) ∧
    (bitOf active k = false → Writes (.brineSwFault p) s [] (fun t => t = s)) ∧
    (on ∧ up ∧ good ∧ bitOf b.stopped k = true ∧ bitOf phEn k = false ∧ bitOf want k = true → Answers (.brineEnable data) s (fun t => bitOf t.brActive k = true ∧ bitOf t.brine.stopped k = false ∧ Tab.get (fun _ => none) t.brine.runAt k = some s.now)) ∧
    (runs ∧ g.high = false ∧ g.due = false ∧ g.done = false ∧ g.low = true → s.brDrive k = (false, true) ∧ (s.brSense x).brDrive k = (false, decide ¬ends)) ∧
    (s.brSwitches k = false → s.brDrive k = (false, false))

/-- While PD_NET runs CAN: EN rising restarts a controller, EN falling stops it with its buffers pending, and it joins after
recessive bits. A frame goes by the first matching filter, or ACC_NM, into its FIFO with its stamp, or is counted in LOST
with NOTE 0x04; GET releases. TXREQ queues, unless TXCAN names the buffer in that cycle, TX_ORD or arbitration chooses the
buffer offered, TXCAN removes one not started, and an end sets DONE with its stamp or, with DAR, FAIL. Bus-off stops sending
with NOTE 0x03 until AUTO_REC or EN; errors move TEC and REC, which listen-only leaves. A line past RATE_LIM or DOM_LIM
waits with NOTE 0x05. A master queues reference messages at its instants, a slave hands its offset to TB[2]. The counters
follow ISO 11898-1 (log entry 127), and sending starts as soon as it may (entry 128). Commands that complete here (exec
answers a next state with their own effect, under conditions on the state and the operands alone): canEnable, canBusJoin,
canFrameRx, canFifoRelease, canTxreq, canTxcan, canTxComplete, canBusOff, canBusOffRecovery, canRxStuck, canStuckClear,
canRefInstant, canBusError. (20_can.md R483, 20_can.md R484, 20_can.md R485, 20_can.md R486, 20_can.md R487, 20_can.md R488,
20_can.md R489, 20_can.md R490, 20_can.md R491, 20_can.md R492, 20_can.md R493, 20_can.md R494) -/
def Obligations.CanControllersSendReceiveAndConfineErrors : Prop :=
  ∀ (s : State) (n : Fin 4) (data : Word) (f : CanFrame) (ago : BitVec 32) (c : Fin 32) (d : Fin 2) (low q0 : Nat) (loc : Int) (get : BitVec 4) (req can : BitVec 3) (b : Fin 3) (edges : Bool) (m : Nat) (lec : BitVec 3) (err : CanErr), s.acts .can →
    let k := n.val
    let x := s.canCtl k
    let ctl := fun (f : Fld) => s.flag (Reg.CAN_CTRL k) f
    let on := s.canOn k = true
    let st := Reg.CAN_STAT k
    let has := fun (t : State) (f : Fld) => t.flag st f
    let off := has s F.CAN_STAT_BUS_OFF = true
    let new := data &&& 0xFDC00000
    let up := data.getLsbD 31 = true
    let mode := s.fld (Reg.CAN_CTRL k) F.CAN_CTRL_MODE
    let normal := mode = 0
    let listens := mode = 1 ∨ mode = 3
    let pend := fun (t : State) => t.fld (Reg.CAN_TXSTAT k) F.CAN_TXSTAT_PEND
    let now := pend s
    let fld := fun (t : State) (f : Fld) => t.fld (Reg.CAN_TXSTAT k) f
    let act := fun (t : State) => t.fld st F.CAN_STAT_ACT
    let dma := s.dmaRoom 15 = true
    let bits := (s.fld (Reg.CAN_NBT k) F.CAN_NBT_NBRP + 1) * (3 + s.fld (Reg.CAN_NBT k) F.CAN_NBT_NTSEG1 + s.fld (Reg.CAN_NBT k) F.CAN_NBT_NTSEG2)
    let dbits := (s.fld (Reg.CAN_DBT k) F.CAN_DBT_DBRP + 1) * (3 + s.fld (Reg.CAN_DBT k) F.CAN_DBT_DTSEG1 + s.fld (Reg.CAN_DBT k) F.CAN_DBT_DTSEG2)
    let passed := fun (m : Nat) => x.since + m * bits * 200 ≤ s.now
    let drop : CanCtl := { x with joined := false, sending := none, refPend := x.refPend || x.sending.any (fun (y : CanSend) => y.buf = 3) }
    let may := on ∧ dma ∧ x.joined = true ∧ x.sending = none ∧ ¬listens ∧ has s F.CAN_STAT_STUCK = false ∧ ¬off
    let takes := on ∧ dma ∧ x.joined = true ∧ mode ≠ 2 ∧ ¬off ∧ (f.fdf = true → ctl F.CAN_CTRL_FD_EN = true)
    let role := s.fld (Reg.CAN_REF_CFG k) F.CAN_REF_CFG_ROLE
    let flt := fun (q : Nat) (g : Fld) => s.fld (Reg.CAN_FLT_ID k q) g
    let hit := fun (q : Nat) => s.flag (Reg.CAN_FLT_ID k q) F.CAN_FLT_ID_EN = true ∧ s.flag (Reg.CAN_FLT_ID k q) F.CAN_FLT_ID_XTD = f.xtd ∧ ((f.id ^^^ BitVec.ofNat 29 (flt q F.CAN_FLT_ID_ID)) &&& BitVec.ofNat 29 (s.fld (Reg.CAN_FLT_MASK k q) F.CAN_FLT_MASK_MASK)).toNat / (if f.xtd = true then 1 else 2 ^ 18) = 0
    let first := hit c.val ∧ (∀ y : Fin 32, y.val < c.val → ¬hit y.val)
    let none_ := ∀ y : Fin 32, ¬hit y.val
    let acc := s.fld (Reg.CAN_FLT_CFG k) F.CAN_FLT_CFG_ACC_NM
    let goes := takes ∧ role ≠ 2 ∧ ((first ∧ d.val = flt c.val F.CAN_FLT_ID_FIFO ∧ low = c.val * 2 ^ 8) ∨ (none_ ∧ acc = d.val + 1 ∧ low = 2 ^ 13))
    let rx := Reg.CAN_RXF k d.val
    let at_ := s.canBase k + 0x500 * d.val + 80 * s.fld rx F.CAN_RXF_PUT
    let fill := s.fld rx F.CAN_RXF_FILL
    let room := fill < 16 ∧ sramRange at_ 80 = true
    let full := f.data.length = canLen f.fdf f.dlc.toNat ∧ (f.rtr = true → f.fdf = true)
    let ns := s.canStamp ago.toNat
    let stamp := fun (t : State) (a : Nat) => t.num (a + 8) 4 = ns % 1000000000 ∧ t.num (a + 12) 4 = ns / 1000000000 % 2 ^ 32
    let ref := takes ∧ role = 2 ∧ f.fdf = true ∧ f.dlc = 9 ∧ f.xtd = s.flag (Reg.CAN_REF_CFG k) F.CAN_REF_CFG_XTD ∧ f.xtd = true ∧ f.id.toNat = s.fld (Reg.CAN_REF_CFG k) F.CAN_REF_CFG_REF_ID ∧ x.refGot = some (q0, loc)
    let seq := leNat (f.data.take 1)
    let valid := bitOf (leNat ((f.data.drop 1).take 1)) 0 = true
    let feeds := (s.tb 2).src = .can ∧ s.fld Reg.CAN_GLB F.CAN_GLB_TSYNC_CH = k
    let master := leNat ((f.data.drop 2).take 6) * 1000000000 + leNat ((f.data.drop 8).take 4)
    let theta : Int := loc - master - s.fld (Reg.CAN_REF_TIME k) F.CAN_REF_TIME_DELAY_NS
    let rs := Reg.CAN_REF_STAT k
    let want := (BitVec.ofNat 3 now ||| req).toNat
    let tx := fun (y : Nat) => s.canBase k + 0xA00 + 80 * y
    let key := fun (y : Nat) => arbKey (elemFrame (s.bytes (tx y) 80))
    let before := fun (y z : Nat) => if ctl F.CAN_CTRL_TX_ORD = true then y ≤ z else (key y < key z ∨ (key y = key z ∧ y ≤ z))
    let el := fun (y : Nat) => elemFrame (s.bytes (tx y) 80)
    let can1 := fun (z : Nat) => bitOf want z = true ∧ (ctl F.CAN_CTRL_FD_EN = true ∨ (el z).fdf = false)
    let chosen := can1 b.val ∧ (∀ z : Fin 3, can1 z.val → before b.val z.val)
    let shape := fun (y : CanFrame) => if y.fdf = true then { y with rtr := false, brs := y.brs && ctl F.CAN_CTRL_BRS_EN, esi := y.esi || has s F.CAN_STAT_ERR_PASS } else { y with brs := false, esi := false, data := if y.rtr = true then [] else y.data }
    let alone := s.thisCycle x.canAt = false ∧ s.thisCycle x.reqAt = false
    let open_ := s.sramSound ∧ sramRange (tx b.val) 80 = true
    let gone := fun (y : Nat) => bitOf can.toNat y = true ∧ bitOf now y = true ∧ x.sending.map (·.buf) ≠ some y
    let ends := x.sending = some ⟨b.val, f⟩
    let sent := fun (t : State) => (t.canCtl k).sending
    let pass := fun (t : State) => has t F.CAN_STAT_ERR_PASS
    let lim := s.fld (Reg.CAN_ROBUST k) (if edges = true then F.CAN_ROBUST_RATE_LIM else F.CAN_ROBUST_DOM_LIM)
    let per := clampNat 1 10000 (s.fld (Reg.CAN_REF_TIME k) F.CAN_REF_TIME_PERIOD_MS) * 1000000
    let tns := s.tbNs 2
    let inst := (tns / per, (s.tb 2).steps)
    let due := role = 1 ∧ on ∧ tns % per ≤ 20 ∧ x.refAt ≠ some inst
    let prev := match x.refSent with | some y => y.1 | none => 0
    let same := match x.refSent with | some y => decide (y.2 = (s.tb 2).steps) | none => false
    let tec := match err with | .tx => x.tec + 8 | _ => x.tec
    let rec_ := match err with | .rx => min 255 (x.recCnt + 1) | .rxDominant => min 255 (x.recCnt + 8) | _ => x.recCnt
    (ctl F.CAN_CTRL_EN = false ∧ up → Writes (.canEnable n data) s [Reg.CAN_CTRL k, st, Reg.CAN_ECR k] (fun t => t.rd (Reg.CAN_CTRL k) = new ∧ t.canCtl k = { x with joined := false, since := s.now, sending := none, tec := 0, recCnt := 0, failed := false, rearmed := x.failed, refGot := none } ∧ has t F.CAN_STAT_BUS_OFF = false ∧ pass t = false ∧ act t = 0)) ∧
    (ctl F.CAN_CTRL_EN = true ∧ ¬up → Writes (.canEnable n data) s [Reg.CAN_CTRL k, st] (fun t => t.rd (Reg.CAN_CTRL k) = new ∧ t.canCtl k = drop ∧ pend t = now ∧ act t = 0)) ∧
    (on ∧ x.joined = false ∧ ¬off ∧ passed 11 ∧ now = 0 ∧ x.refPend = false ∧ x.sending = none → Writes (.canBusJoin n) s [st] (fun t => t.canCtl k = { x with joined := true } ∧ act t = 1)) ∧
    (¬on ∨ off ∨ ¬passed 11 → Writes (.canBusJoin n) s [] (fun t => t = s)) ∧
    (goes ∧ x.rearmed = false ∧ room → Answers (.canFrameRx n f ago) s (fun t => t.fld rx F.CAN_RXF_FILL = fill + 1 ∧ t.fld rx F.CAN_RXF_PUT = (s.fld rx F.CAN_RXF_PUT + 1) % 16 ∧ t.num (at_ + 4) 4 = low + bit01 f.fdf * 32 + bit01 f.brs * 16 + f.dlc.toNat ∧ t.num at_ 4 % 2 ^ 29 = f.id.toNat ∧ stamp t at_ ∧ (full → t.bytes (at_ + 16) f.data.length = f.data) ∧ BytesOnly (fun y => decide (at_ ≤ y ∧ y < at_ + 80)) s t)) ∧
    (goes ∧ x.rearmed = false ∧ 16 ≤ fill ∧ (pass s = true ∨ (x.tec < 128 ∧ x.recCnt < 128)) → Answers (.canFrameRx n f ago) s (fun t => t.fld rx F.CAN_RXF_LOST = min 255 (s.fld rx F.CAN_RXF_LOST + 1) ∧ t.fld rx F.CAN_RXF_FILL = fill ∧ Noted s t 0x0C k 0x04 ∧ t.mem = s.mem)) ∧
    (takes ∧ role ≠ 2 ∧ none_ ∧ (acc = 0 ∨ acc = 3) → Answers (.canFrameRx n f ago) s (fun t => t.mem = s.mem ∧ t.rd (Reg.CAN_RXF k d.val) = s.rd (Reg.CAN_RXF k d.val) ∧ (normal → x.recCnt ≤ 127 → (t.canCtl k).recCnt = x.recCnt - 1) ∧ (listens → (t.canCtl k).recCnt = x.recCnt))) ∧
    (ref ∧ x.rearmed = false ∧ seq = (q0 + 1) % 256 → Answers (.canFrameRx n f ago) s (fun t => (t.tb 2).theta = (if valid ∧ feeds then (s.tb 2).theta ++ [theta] else (s.tb 2).theta) ∧ (t.canCtl k).refGot = some (seq, (ns : Int)) ∧ t.fld rs F.CAN_REF_STAT_SEQ = seq ∧ t.fld rs F.CAN_REF_STAT_MISSED = s.fld rs F.CAN_REF_STAT_MISSED ∧ t.mem = s.mem)) ∧
    (ref ∧ x.rearmed = false ∧ seq < 256 ∧ seq ≠ (q0 + 1) % 256 → Answers (.canFrameRx n f ago) s (fun t => (t.tb 2).theta = (s.tb 2).theta ∧ t.fld rs F.CAN_REF_STAT_MISSED = min 255 (s.fld rs F.CAN_REF_STAT_MISSED + 1) ∧ (t.canCtl k).refGot = some (seq, (ns : Int)))) ∧
    (¬takes → Writes (.canFrameRx n f ago) s [] (fun t => t = s)) ∧
    (Writes (.canFifoRelease n d get) s [rx] (fun t => t.fld rx F.CAN_RXF_GET = get.toNat ∧ t.fld rx F.CAN_RXF_FILL = fill - (get.toNat + 16 - s.fld rx F.CAN_RXF_GET) % 16 ∧ t.fld rx F.CAN_RXF_PUT = s.fld rx F.CAN_RXF_PUT)) ∧
    (alone → Answers (.canTxreq n req) s (fun t => pend t = want ∧ t.fld (Reg.CAN_TXREQ k) F.CAN_TXREQ_REQ = want ∧ (¬may → sent t = x.sending))) ∧
    (s.thisCycle x.canAt = true → Answers (.canTxreq n req) s (fun t => pend t = (BitVec.ofNat 3 now ||| (req &&& ~~~x.canBits)).toNat)) ∧
    (alone ∧ may ∧ x.refPend = false ∧ chosen ∧ open_ → Answers (.canTxreq n req) s (fun t => sent t = some ⟨b.val, shape (el b.val)⟩ ∧ act t = 3)) ∧
    (s.thisCycle x.reqAt = true ∧ x.reqBits.getLsbD b.val = true ∧ bitOf can.toNat b.val = true → Answers (.canTxcan n can) s (fun t => bitOf (pend t) b.val = false ∧ bitOf (fld t F.CAN_TXSTAT_FAIL) b.val = bitOf (fld s F.CAN_TXSTAT_FAIL) b.val)) ∧
    (alone → Answers (.canTxcan n can) s (fun t => if gone b.val then bitOf (pend t) b.val = false ∧ bitOf (fld t F.CAN_TXSTAT_FAIL) b.val = true else bitOf (pend t) b.val = bitOf now b.val ∧ bitOf (fld t F.CAN_TXSTAT_FAIL) b.val = bitOf (fld s F.CAN_TXSTAT_FAIL) b.val)) ∧
    (ends ∧ dma ∧ normal ∧ sramRange (tx b.val) 80 = true → Answers (.canTxComplete n true ago) s (fun t => bitOf (fld t F.CAN_TXSTAT_DONE) b.val = true ∧ pend t = withBit now b.val false ∧ stamp t (tx b.val) ∧ (t.canCtl k).tec = x.tec - 1 ∧ t.out = s.out ++ [.can k f bits (if f.brs = true then dbits else bits)] ∧ BytesOnly (fun y => decide (tx b.val + 8 ≤ y ∧ y < tx b.val + 16)) s t)) ∧
    (ends ∧ dma ∧ ctl F.CAN_CTRL_DAR = true → Answers (.canTxComplete n false ago) s (fun t => bitOf (fld t F.CAN_TXSTAT_FAIL) b.val = true ∧ pend t = withBit now b.val false ∧ t.out = s.out)) ∧
    (ends ∧ ctl F.CAN_CTRL_DAR = false → Answers (.canTxComplete n false ago) s (fun t => t.rd (Reg.CAN_TXSTAT k) = s.rd (Reg.CAN_TXSTAT k) ∧ t.out = s.out)) ∧
    (x.sending = some ⟨3, f⟩ ∧ dma ∧ normal ∧ ¬(ctl F.CAN_CTRL_FD_EN = true ∧ x.refPend = true) → Answers (.canTxComplete n true ago) s (fun t => (t.canCtl k).refSent = some (ns, (s.tb 2).steps) ∧ t.fld rs F.CAN_REF_STAT_SEQ = seq % 256 ∧ t.mem = s.mem)) ∧
    (x.sending = none → Writes (.canTxComplete n true ago) s [] (fun t => t = s)) ∧
    (on ∧ ¬off → Answers (.canBusOff n) s (fun t => has t F.CAN_STAT_BUS_OFF = true ∧ t.canCtl k = { drop with since := s.now } ∧ pend t = now ∧ Noted s t 0x0C k 0x03)) ∧
    (off → Writes (.canBusOff n) s [] (fun t => t = s)) ∧
    (on ∧ off ∧ passed 1408 ∧ ctl F.CAN_CTRL_AUTO_REC = true → Answers (.canBusOffRecovery n) s (fun t => has t F.CAN_STAT_BUS_OFF = false ∧ (t.canCtl k).tec = 0 ∧ (t.canCtl k).recCnt = 0 ∧ pass t = false)) ∧
    (ctl F.CAN_CTRL_AUTO_REC = false ∨ ¬passed 1408 → Writes (.canBusOffRecovery n) s [] (fun t => t = s)) ∧
    (on ∧ lim ≠ 0 ∧ (if edges = true then lim < m else lim * 16 * bits < m) ∧ has s F.CAN_STAT_STUCK = false → Answers (.canRxStuck n edges m) s (fun t => has t F.CAN_STAT_STUCK = true ∧ sent t = none ∧ pend t = now ∧ Noted s t 0x0C k 0x05)) ∧
    (lim = 0 ∨ m ≤ lim → Writes (.canRxStuck n edges m) s [] (fun t => t = s)) ∧
    (Writes (.canStuckClear n true) s [] (fun t => t = s) ∧ Answers (.canStuckClear n false) s (fun t => has t F.CAN_STAT_STUCK = false ∧ pend t = now)) ∧
    (due ∧ ¬(may ∧ ctl F.CAN_CTRL_FD_EN = true) → Answers (.canRefInstant n) s (fun t => (t.canCtl k).refPend = true ∧ (t.canCtl k).refAt = some inst ∧ pend t = now)) ∧
    (due ∧ may ∧ ctl F.CAN_CTRL_FD_EN = true → Answers (.canRefInstant n) s (fun t => (sent t).map (fun y => (y.buf, y.frame.fdf, y.frame.dlc, y.frame.id.toNat, y.frame.data)) = some (3, true, 9, s.fld (Reg.CAN_REF_CFG k) F.CAN_REF_CFG_REF_ID, leBytes 1 ((s.fld rs F.CAN_REF_STAT_SEQ + 1) % 256) ++ leBytes 1 (bit01 same) ++ leBytes 6 (prev / 1000000000) ++ leBytes 4 (prev % 1000000000)))) ∧
    (role ≠ 1 ∨ x.refAt = some inst → Writes (.canRefInstant n) s [] (fun t => t = s)) ∧
    (on ∧ ¬off ∧ ¬listens ∧ tec < 256 → Answers (.canBusError n lec err) s (fun t => t.canCtl k = { x with tec := tec, recCnt := rec_ } ∧ t.fld st F.CAN_STAT_LEC = lec.toNat ∧ t.fld (Reg.CAN_ECR k) F.CAN_ECR_TEC = min 255 tec ∧ pass t = decide (128 ≤ tec ∨ 128 ≤ rec_) ∧ (pass s = false → pass t = true → Noted s t 0x0C k 0x02))) ∧
    (on ∧ ¬off ∧ ¬listens ∧ 256 ≤ tec → Answers (.canBusError n lec err) s (fun t => has t F.CAN_STAT_BUS_OFF = true ∧ sent t = none ∧ (t.canCtl k).tec = tec)) ∧
    (on ∧ ¬off ∧ listens → Writes (.canBusError n lec err) s [st] (fun t => t.canCtl k = x ∧ t.fld st F.CAN_STAT_LEC = lec.toNat))

/-- A qualified loss of VIN, RESET_N, RST_CMD.HUB with its key and the debug port assert a hub reset: sequencers stopped,
registers at reset, Brine and KROOT kept, Selvedge notified, RST_CAUSE, RST_LAST (CHIP first), RST_TIME and RST_COUNT
written. It ends when every source has released, and start-up begins. V_STOP takes every domain but PD_AON; V_ON after it
powers them on with source 1, and a power-on of PD_AON with source 0, KROOT lost. A bit of PWR_CTRL powers its domain off or
on, or is REFUSED. A supply or clock fault resets the regions of R504 and R508, raises CHIP, halts the pair or zeroises.
Loss of REFCLK holds the locked bases over, sets REF_LOST and BKOSC and raises CONTAIN 0x04. A missing CK_RTC sets RTC_LOST
with NOTE 0x05, a low VBAT VBAT_LOW with NOTE 0x08. A commanded region reset starts no timer. Commands that complete here
(exec answers a next state with their own effect, under conditions on the state and the operands alone): vinPowerFail,
vinStop, vinOn, vinValid, porAon, pwrCtrlWrite, domainSupplyFault, clockFault, refclkLost, refclkReturn, rtcCheck, resetPin,
resetPinRelease, rstCmdHub, debugReset, rstCmdRegion, vbatLow, vbatLowClear. (21_supply_clocks.md R501, 21_supply_clocks.md
R502, 21_supply_clocks.md R503, 21_supply_clocks.md R504, 21_supply_clocks.md R505, 21_supply_clocks.md R507,
21_supply_clocks.md R508, 21_supply_clocks.md R510, 21_supply_clocks.md R511, 21_supply_clocks.md R512, 21_supply_clocks.md
R513, 21_supply_clocks.md R515) -/
def Obligations.SuppliesClocksAndResetsActByTheirSources : Prop :=
  ∀ (s : State) (samples : List (List (BitVec 24))) (data : Word) (i r : Fin 4) (d : Fin 11) (c : Fin 12) (key : BitVec 16) (regs : BitVec 4) (mv : BitVec 12) (u m : Nat) (q : Fin 4), 
    let pw := s.power
    let k := r.val
    let cause := fun (t : State) (c : Nat) => bitOf (t.fld Reg.RST_CAUSE F.RST_CAUSE_CAUSE) c = true
    let last := fun (t : State) => t.fld Reg.RST_LAST F.RST_LAST_CODE
    let count := fun (t : State) => (t.rd Reg.RST_COUNT).toNat
    let ranked := fun (t : State) (c : Nat) => cause t c ∧ (pw.coincide = [] → last t = c) ∧ (4 ∈ pw.coincide → 0 ∉ pw.coincide → last t = 4)
    let counts := fun (t : State) => count t = min 65535 (count s + 1) ∧ t.rd Reg.RST_TIME = BitVec.ofNat 32 (s.aonTicks / 16000000000)
    let keeps := fun (t : State) => t.brine = s.brine ∧ t.ks.root = s.ks.root ∧ (s.domUp 1 = true → t.flag Reg.SFS_STATUS F.SFS_STATUS_RST_NOTE = true)
    let cleared := fun (t : State) => (∀ y : Fin 32, t.ctx y.val = Context.reset) ∧ t.rd Reg.SAL_CTRL = regReset Reg.SAL_CTRL ∧ t.rd Reg.ERR_CHIP_STATUS = s.rd Reg.ERR_CHIP_STATUS
    let hub := fun (t : State) (c : Nat) => t.power.hubReset = true ∧ ranked t c ∧ counts t ∧ keeps t ∧ cleared t
    let over_ := fun (t : State) => t.power.hubReset = false ∧ t.power.coincide = [] ∧ t.fld Reg.ST_STATUS F.ST_STATUS_PHASE = 1 ∧ t.startup.validAt = some s.now ∧ t.startup.booting = true
    let whole := fun (t : State) (c : Nat) => over_ t ∧ ranked t c ∧ counts t ∧ cleared t ∧ t.brine = s.brine
    let all := fun (t : State) => ∀ y : Fin 10, t.domUp (y.val + 1) = true
    let free := pw.supplyReset = false ∧ pw.pinLow = false ∧ pw.chipSafe = false
    let dom := 7 + i.val
    let bit := data.getLsbD i.val
    let others := ∀ y : Fin 4, y ≠ i → data.getLsbD y.val = s.domUp (7 + y.val)
    let busy := if i.val = 0 then s.flag Reg.ZW_CTRL F.ZW_CTRL_EN = true else if i.val = 1 then ((∃ e : Fin 4, s.flag (Reg.TW_CTRL e.val) F.TW_CTRL_RUN = true) ∨ s.fld Reg.SAL_CTRL F.SAL_CTRL_MODE ≠ 0) else if i.val = 2 then s.fld Reg.LOOM_RUN F.LOOM_RUN_VAL ≠ 0 else ((∃ e : Fin 8, s.flag (Reg.GP_CTRL e.val) F.GP_CTRL_EN = true) ∨ s.flag Reg.BB_CTRL F.BB_CTRL_EN = true)
    let held := s.regionHeld (if i.val = 0 ∨ i.val = 3 then 1 else 0) = true
    let refused := fun (t : State) => t.flag Reg.PWR_CTRL F.PWR_CTRL_REFUSED
    let acts := s.acts .power
    let fresh := fun (q : Nat) => s.inWindow q = false ∧ s.flag (Reg.ERR_REG_STATUS q) F.ERR_REG_STATUS_OPEN = false
    let calm := pw.chipSafe = false ∧ (∀ q : Fin 4, fresh q.val)
    let resets := fun (t : State) (q : Nat) => (t.regRec q).inReset = true ∧ (t.regRec q).commanded = false ∧ (t.regRec q).timer = some s.now ∧ t.flag (Reg.ERR_REG_STATUS q) F.ERR_REG_STATUS_OPEN = true ∧ cause t (8 + q)
    let domRegs := fun (d : Nat) => if d = 0 ∨ d = 4 then [2] else if d = 5 then [3] else if d = 6 then [0, 3] else if d = 7 ∨ d = 10 then [1] else [0]
    let rowRegs := fun (c : Nat) => if c = 1 then [1, 3] else if c = 2 then [2] else if c = 4 ∨ c = 5 then [1] else [0]
    let rowDom := fun (c : Nat) => if c = 2 then 4 else if c = 3 then 8 else if c = 4 then 7 else if c = 5 then 10 else if c = 6 ∨ c = 7 then 6 else if c = 8 then 9 else 2
    let pll := c.val < 9 ∧ s.domUp (rowDom c.val) = true
    let faulty := fun (t : State) => bitOf (t.fld Reg.CLK_STATUS F.CLK_STATUS_FAULT) c.val = true
    let safe := fun (t : State) => t.power.chipSafe = true ∧ t.fabric.closed = true ∧ t.ladder.chipTimer = some s.now ∧ cause t 4
    let halts := fun (t : State) (f : Nat) => t.sfsState = sfsFault ∧ (s.sfsState ≠ sfsFault → t.fld Reg.SFS_STATUS F.SFS_STATUS_FCODE = f) ∧ (∀ y : Fin 4, (t.ctx (36 + y.val)).run = .halted)
    let wiped := fun (t : State) (f : Nat) => t.ks.root = none ∧ t.ks.slot = [] ∧ t.fld Reg.KS_ZSTAT F.KS_ZSTAT_CAUSE = f
    let src := fun (f : Nat) => bitOf (s.fld Reg.KS_CTRL F.KS_CTRL_TSRC_EN) (f - 2) = true ∧ s.domUp 3 = true
    let clk := fun (t : State) (f : Fld) => t.flag Reg.CLK_STATUS f
    let tbSt := fun (t : State) (q : Nat) => t.fld (Reg.TB_STATE q) F.TB_STATE_ST
    let vbat := fun (t : State) => t.flag Reg.SUP_VBAT F.SUP_VBAT_VBAT_LOW
    let valid := pw.vin = true ∧ pw.vinOnAt = some u ∧ u + 160000000 ≤ s.now
    (pw.vin = true ∧ pw.hubReset = false → Answers (.vinPowerFail samples) s (fun t => hub t 2 ∧ t.power.supplyReset = true ∧ t.power.vinOnAt = none ∧ (s.domUp 4 = true → t.ledger.down = true))) ∧
    (pw.vin = false → Writes (.vinPowerFail samples) s [] (fun t => t = s) ∧ Writes .vinStop s [] (fun t => t = s)) ∧
    (pw.vin = true → Answers .vinStop s (fun t => t.power.vin = false ∧ (∀ y : Fin 10, t.domUp (y.val + 1) = false) ∧ t.power.hubReset = true ∧ t.power.supplyReset = true ∧ t.rd Reg.RST_CAUSE = s.rd Reg.RST_CAUSE ∧ t.ks.root = s.ks.root ∧ t.power.aonRun = !pw.rtcMissing)) ∧
    (pw.vin = false → Answers .vinOn s (fun t => t.power.vin = true ∧ all t ∧ t.power.supplyReset = true ∧ t.power.hubReset = true ∧ t.power.vinOnAt = some s.now ∧ ranked t 1 ∧ counts t ∧ t.ks.root = s.ks.root ∧ t.rd Reg.SAL_CTRL = regReset Reg.SAL_CTRL)) ∧
    (pw.vin = true → Writes .vinOn s [] (fun t => t.power = { pw with vinOnAt := some s.now })) ∧
    (valid ∧ pw.hubReset = true ∧ pw.pinLow = false ∧ pw.chipSafe = false → Answers .vinValid s (fun t => over_ t ∧ t.power.supplyReset = false ∧ (∀ y : Fin 4, t.domUp (7 + y.val) = true))) ∧
    (valid ∧ pw.hubReset = true ∧ (pw.pinLow = true ∨ pw.chipSafe = true) → Writes .vinValid s [] (fun t => t.power = { pw with supplyReset := false, vinOnAt := none })) ∧
    (pw.vinOnAt = none ∨ (pw.vinOnAt = some u ∧ s.now < u + 160000000) → Writes .vinValid s [] (fun t => t = s)) ∧
    (Answers .porAon s (fun t => t.rd Reg.RST_CAUSE = 1 ∧ last t = 0 ∧ count t = 1 ∧ t.ks.root = none ∧ all t ∧ t.power.vin = true ∧ t.power.supplyReset = true ∧ t.power.hubReset = true ∧ t.ledger.aonLost = true)) ∧
    (acts ∧ others ∧ bit = false ∧ s.domUp dom = true ∧ ¬busy ∧ ¬held → Answers (.pwrCtrlWrite data) s (fun t => t.domUp dom = false ∧ bitOf (t.fld Reg.PWR_CTRL F.PWR_CTRL_DOM_EN) i.val = false ∧ refused t = (refused s && !data.getLsbD 8) ∧ (∀ y : Fin 4, y ≠ i → t.domUp (7 + y.val) = s.domUp (7 + y.val)))) ∧
    (acts ∧ others ∧ bit = false ∧ s.domUp dom = true ∧ (busy ∨ held) → Answers (.pwrCtrlWrite data) s (fun t => t.domUp dom = true ∧ refused t = true ∧ t.power = pw)) ∧
    (acts ∧ others ∧ bit = true ∧ s.domUp dom = false → Answers (.pwrCtrlWrite data) s (fun t => t.domUp dom = true ∧ bitOf (t.fld Reg.PWR_CTRL F.PWR_CTRL_DOM_EN) i.val = true ∧ (∀ y : Fin 4, y ≠ i → t.domUp (7 + y.val) = s.domUp (7 + y.val)))) ∧
    (s.domUp d.val = false → Writes (.domainSupplyFault d) s [] (fun t => t = s)) ∧
    (acts ∧ s.domUp d.val = true ∧ d.val ≠ 1 ∧ d.val ≠ 2 ∧ d.val ≠ 3 ∧ calm ∧ k ∈ domRegs d.val → Answers (.domainSupplyFault d) s (fun t => resets t k)) ∧
    (acts ∧ pw.chipSafe = false ∧ s.domUp 2 = true → Answers (.domainSupplyFault 2) s (fun t => safe t)) ∧
    (s.acts .selvedge → Answers (.domainSupplyFault 1) s (fun t => halts t 0x12) ∧ Answers (.clockFault 9) s (fun t => halts t 0x11)) ∧
    (src 2 → Answers (.domainSupplyFault 3) s (fun t => wiped t 2)) ∧
    (src 3 → Answers (.clockFault 10) s (fun t => wiped t 3)) ∧
    (acts ∧ pll ∧ c.val ≠ 0 ∧ calm ∧ k ∈ rowRegs c.val → Answers (.clockFault c) s (fun t => resets t k ∧ faulty t)) ∧
    (acts ∧ pw.chipSafe = false → Answers (.clockFault 0) s (fun t => safe t ∧ bitOf (t.fld Reg.CLK_STATUS F.CLK_STATUS_FAULT) 0 = true)) ∧
    (acts ∧ c.val < 9 ∧ s.domUp (rowDom c.val) = false → Writes (.clockFault c) s [] (fun t => t = s)) ∧
    (acts → Answers (.clockFault 11) s (fun t => clk t F.CLK_STATUS_RTC_LOST = true ∧ t.power.rtcMissing = true ∧ Noted s t 0x24 0 0x05)) ∧
    (pw.refclk = true ∧ pw.vin = true → Answers .refclkLost s (fun t => t.power = { pw with refclk := false, refLostAt := some s.now } ∧ (acts → clk t F.CLK_STATUS_REF_LOST = true ∧ clk t F.CLK_STATUS_BKOSC = true ∧ Contained s t 0x24 0 0x04) ∧ (s.up 0x09 = true → (tbSt s q.val = 1 ∨ tbSt s q.val = 2) → tbSt t q.val = 3))) ∧
    (pw.refclk = false → Answers .refclkReturn s (fun t => t.power = { pw with refclk := true, refLostAt := none } ∧ clk t F.CLK_STATUS_REF_LOST = false ∧ clk t F.CLK_STATUS_BKOSC = false ∧ tbSt t q.val = tbSt s q.val)) ∧
    (pw.refclk = true → Writes .refclkReturn s [] (fun t => t = s)) ∧
    (acts ∧ pw.rtcMissing = false → Answers (.rtcCheck true) s (fun t => clk t F.CLK_STATUS_RTC_LOST = true ∧ t.power.rtcMissing = true ∧ t.power.aonRun = pw.vin ∧ Noted s t 0x24 0 0x05) ∧ Writes (.rtcCheck false) s [Reg.CLK_STATUS] (fun t => clk t F.CLK_STATUS_RTC_LOST = clk s F.CLK_STATUS_RTC_LOST ∧ t.power.rtcMissing = false ∧ t.power.aonRun = true)) ∧
    (pw.pinLow = false ∧ pw.hubReset = false ∧ s.domUp 2 = true → Answers .resetPin s (fun t => hub t 3 ∧ t.power.pinLow = true)) ∧
    (pw.pinLow = true → Writes .resetPin s [] (fun t => t = s)) ∧
    (pw.pinLow = true ∧ pw.hubReset = true ∧ pw.supplyReset = false ∧ pw.chipSafe = false → Answers .resetPinRelease s (fun t => over_ t ∧ t.power.pinLow = false)) ∧
    (pw.pinLow = true ∧ pw.hubReset = true ∧ (pw.supplyReset = true ∨ pw.chipSafe = true) → Writes .resetPinRelease s [] (fun t => t.power = { pw with pinLow := false })) ∧
    (acts ∧ key = 0xA55A ∧ free → Answers (.rstCmdHub key) s (fun t => whole t 5)) ∧
    (s.acts .debug ∧ free ∧ pw.hubReset = false → Answers .debugReset s (fun t => whole t 6)) ∧
    (key ≠ 0xA55A → Writes (.rstCmdHub key) s [] (fun t => t = s) ∧ Writes (.rstCmdRegion key regs) s [] (fun t => t = s)) ∧
    (acts ∧ key = 0xA55A ∧ bitOf regs.toNat k = true ∧ (s.regRec k).inReset = false → Answers (.rstCmdRegion key regs) s (fun t => t.regRec k = { s.regRec k with inReset := true, commanded := true } ∧ cause t (8 + k) ∧ t.rd (Reg.ERR_REG_STATUS k) = s.rd (Reg.ERR_REG_STATUS k) ∧ t.brine = s.brine)) ∧
    (acts ∧ pw.vin = true ∧ mv.toNat < 2500 → Answers (.vbatLow mv) s (fun t => vbat t = true ∧ t.fld Reg.SUP_VBAT F.SUP_VBAT_MV = mv.toNat ∧ (vbat s = false → Noted s t 0x24 0 0x08))) ∧
    (acts ∧ pw.vin = true ∧ 2500 ≤ mv.toNat → Writes (.vbatLow mv) s [Reg.SUP_VBAT] (fun t => vbat t = vbat s ∧ t.fld Reg.SUP_VBAT F.SUP_VBAT_MV = mv.toNat)) ∧
    (acts ∧ pw.vin = true ∧ 2550 ≤ mv.toNat ∧ 1000 ≤ m → Writes (.vbatLowClear mv m) s [Reg.SUP_VBAT] (fun t => vbat t = false ∧ t.fld Reg.SUP_VBAT F.SUP_VBAT_MV = mv.toNat)) ∧
    (mv.toNat < 2550 ∨ m < 1000 → Writes (.vbatLowClear mv m) s [] (fun t => t = s))

/-- SELF_TEST_COMPLETE records the failed tests, rewrites the memory that passed (the rest is undefined), loads the root
slots and goes on to loading, or to the safe talkative state for a CHIP before (0x01) or a failed test (0x02); a failed test
of Selvedge is a pair fault. BANK_LOAD tries the bank of R520 and then the other candidate: it is accepted and active, or
rejected with its reason, image and NOTE 0x04, and without a bank left the cause is 0x03. APPLICATION_START starts the
contexts with an ENTRY and ends the reset notification. ST_RB_RAISE raises the count to the lowest ROLLBACK. In the safe
talkative state STATUS answers with a new nonce, READ_LOG with an entry, AUTH grants 60 s of write access, once for a nonce,
or counts and raises NOTE 0x03, and ERASE, PROGRAM and RESTART act only with it. What rejects a bank is the function
bankReject. Commands that complete here (exec answers a next state with their own effect, under conditions on the state and
the operands alone): selfTestComplete, bankLoad, applicationStart, stRbRaise, mgmtStatus, mgmtReadLog, mgmtAuth, mgmtErase,
mgmtProgram, mgmtRestart, mgmtAuthExpiry. (22_startup.md R519, 22_startup.md R520, 22_startup.md R521, 22_startup.md R522,
22_startup.md R523, 22_startup.md R524, 22_startup.md R526, 22_startup.md R527, 22_startup.md R529, 22_startup.md R530,
22_startup.md R531, 03_weft_system.md R553) -/
def Obligations.StartUpLoadsABankOrTalksOnThePort : Prop :=
  ∀ (s : State) (fail : BitVec 12) (cells : TestCells) (b : Fin 2) (a : Nat) (u : Nat) (c : Fin 32) (n : Fin 4) (seq area slot bank : Byte) (idx : BitVec 16) (sig bytes : List Byte) (off : Word), 
    let acts := s.acts .selfTest
    let st := fun (t : State) (f : Fld) => t.fld Reg.ST_STATUS f
    let phase := fun (t : State) => st t F.ST_STATUS_PHASE
    let cause := fun (t : State) => st t F.ST_STATUS_STS_CAUSE
    let cand := fun (y : Nat) => s.num (flashBase y) 4 = 0x315A4C4B ∧ s.num (flashBase y + 4) 2 = 1
    let seqOf := fun (y : Nat) => if cand y then s.num (flashBase y + 0x24) 4 else 0
    let bad := fail.toNat % 256 ≠ 0
    let chip := s.fld Reg.RST_LAST F.RST_LAST_CODE = 4
    let k := b.val
    let o := 1 - k
    let first := cand k ∧ (if s.flag Reg.ST_TRY F.ST_TRY_EN = true then (s.fld Reg.ST_TRY F.ST_TRY_BANK = k ∨ ¬cand o) else (¬cand o ∨ seqOf o < seqOf k ∨ (seqOf o = seqOf k ∧ k = 0)))
    let boot := s.startup
    let inStart := acts ∧ (phase s = 2 ∨ phase s = 4) ∧ boot.bank = none
    let result := fun (t : State) (y : Nat) => st t (if y = 0 then F.ST_STATUS_BANK_A else F.ST_STATUS_BANK_B)
    let why := fun (t : State) => t.fld Reg.ST_REJ (if k = 0 then F.ST_REJ_WHY_A else F.ST_REJ_WHY_B)
    let idx_ := fun (t : State) => t.fld Reg.ST_REJ (if k = 0 then F.ST_REJ_IDX_A else F.ST_REJ_IDX_B)
    let judged := fun (t : State) (more : Bool) => (s.bankReject k = none → result t k = 1 ∧ (t.startup.bank = if phase s = 2 then some k else none) ∧ phase t = phase s) ∧ (∀ w ∈ (s.bankReject k).toList, result t k = 2 ∧ why t = w.2 % 256 ∧ idx_ t = w.1 % 256 ∧ t.startup.bank = none ∧ (phase s = 2 → phase t = if more = true then 2 else 4) ∧ (phase s = 2 → more = false → cause s = 0 → cause t = 3) ∧ Noted s t 0x25 0 0x04)
    let ctxRun := fun (t : State) (y : Nat) => (t.ctx y).run = .running ∧ (t.ctx y).pc = s.entryOf y
    let port := s.up 0x25 = true ∧ s.up 0x08 = true ∧ phase s = 4
    let auth := port ∧ s.flag Reg.ST_MGMT F.ST_MGMT_AUTH = true ∧ s.reached boot.authUntil = false
    let locked := port ∧ s.flag Reg.ST_MGMT F.ST_MGMT_AUTH = false
    let tells := fun (t : State) (cmd status : Nat) (l : List Byte) => t.out = s.out ++ [.mgmt cmd seq.toNat status l]
    let renewed := fun (t : State) => t.startup.authUntil = some (s.now + 960000000000) ∧ t.flag Reg.ST_MGMT F.ST_MGMT_AUTH = true
    let word := fun (r : Nat) => leBytes 4 (s.rd r).toNat
    let i := idx.toNat
    let entry : Option (Nat × Nat) := if area.toNat = 0 ∧ i < 8192 then some (64 * i, 64) else if area.toNat = 1 ∧ i < 4096 then some (0x100000 + 256 * i, 64) else if area.toNat = 2 ∧ i < 32768 then some (0x300000 + 32 * i, 32) else if area.toNat = 3 ∧ i < 0x800 then some (0x200000 + 256 * i, 64) else if area.toNat = 3 ∧ 0x1000 ≤ i ∧ i < 0x2C00 then some (0x280000 + 64 * (i - 0x1000), 64) else none
    let verifies := match boot.nonce, s.slot slot.toNat with | some n, some g => decide (slot.toNat < 4) && s.domUp 3 && decide (g.alg = 0x22) && bitOf g.use 6 && Config.verifies true g.pub ((List.range 48).map (Config.shaByte true (n ++ (List.range 8).map Config.serialByte))) sig | _, _ => false
    let failures := fun (t : State) => t.fld Reg.ST_MGMT F.ST_MGMT_AUTH_FAIL
    let refused := fun (t : State) => failures t = min 255 (failures s + 1) ∧ Noted s t 0x25 0 0x03 ∧ t.flag Reg.ST_MGMT F.ST_MGMT_AUTH = s.flag Reg.ST_MGMT F.ST_MGMT_AUTH ∧ tells t 0x83 2 []
    let free := bank.toNat < 2 ∧ boot.bank ≠ some bank.toNat
    let lo := flashBase bank.toNat
    let fits := off.toNat % 4 = 0 ∧ bytes.length ≤ 1024 ∧ off.toNat + bytes.length ≤ flashSize
    let goes := s.power.hubReset = false ∧ s.power.supplyReset = false ∧ s.power.pinLow = false ∧ s.power.chipSafe = false
    (acts ∧ phase s = 1 → Answers (.selfTestComplete fail cells) s (fun t => t.fld Reg.ST_RESULT F.ST_RESULT_FAIL = fail.toNat ∧ t.rd Reg.ST_SEQ_A = BitVec.ofNat 32 (seqOf 0) ∧ t.rd Reg.ST_SEQ_B = BitVec.ofNat 32 (seqOf 1) ∧ t.ecc.sramUndef = fail.getLsbD 1 ∧ t.ecc.tcmUndef = fail.getLsbD 2 ∧ phase t = (if chip ∨ bad then 4 else 2) ∧ (cause s = 0 → cause t = if chip then 1 else if bad then 2 else 0) ∧ (¬cand k → result t k = 3) ∧ (s.domUp 3 = true → (t.slot n.val).isSome = true) ∧ (fail ≠ 0 → ((t.blkRec 0x25).notes.head? = some s.now)))) ∧
    (acts ∧ phase s = 1 ∧ ((fail.getLsbD 1 = false ∧ sramBase ≤ a ∧ a < sramBase + sramSize) ∨ (fail.getLsbD 2 = false ∧ tcmWindow 0 ≤ a ∧ a < tcmWindow 8)) → Answers (.selfTestComplete fail cells) s (fun t => t.bytes a 1 = [0])) ∧
    (acts ∧ phase s = 1 ∧ fail.getLsbD 8 = true ∧ s.domUp 1 = true → Answers (.selfTestComplete fail cells) s (fun t => t.sfsState = sfsFault ∧ t.power.chipSafe = true ∧ (s.sfsState ≠ sfsFault → t.fld Reg.SFS_STATUS F.SFS_STATUS_FCODE = 0x16))) ∧
    (acts ∧ phase s ≠ 1 → Writes (.selfTestComplete fail cells) s [] (fun t => t = s)) ∧
    (inStart ∧ boot.tried = [] ∧ first → Answers (.bankLoad false) s (fun t => t.flag Reg.ST_TRY F.ST_TRY_EN = false ∧ t.startup.tried = [k] ∧ judged t (decide (cand o)))) ∧
    (inStart ∧ phase s = 2 ∧ boot.tried = [] ∧ ¬cand 0 ∧ ¬cand 1 → Answers (.bankLoad false) s (fun t => phase t = 4 ∧ (cause s = 0 → cause t = 3) ∧ t.startup.bank = none ∧ t.flag Reg.ST_TRY F.ST_TRY_EN = false)) ∧
    (inStart ∧ boot.tried = [o] ∧ result s o = 2 ∧ cand k → Answers (.bankLoad true) s (fun t => t.startup.tried = [o, k] ∧ judged t false)) ∧
    ((phase s ≠ 2 ∧ phase s ≠ 4) ∨ boot.bank ≠ none → Writes (.bankLoad false) s [] (fun t => t = s) ∧ Writes (.bankLoad true) s [] (fun t => t = s)) ∧
    (acts ∧ phase s = 2 ∧ boot.bank ≠ none → Answers .applicationStart s (fun t => phase t = 3 ∧ t.startup = { boot with toStart := [], booting := false } ∧ (boot.validAt = some u → (s.now - u) / 16000000 < 65536 → t.fld Reg.ST_TIME F.ST_TIME_VAL = (s.now - u) / 16000000) ∧ (c.val ∈ boot.toStart → (s.ctx c.val).run = .stopped → ctxRun t c.val) ∧ (c.val ∉ boot.toStart → t.ctx c.val = s.ctx c.val) ∧ (s.domUp 1 = true → (s.regRec 0).inReset = false → s.power.chipSafe = false → t.flag Reg.SFS_STATUS F.SFS_STATUS_RST_NOTE = false))) ∧
    (phase s ≠ 2 ∨ boot.bank = none → Writes .applicationStart s [] (fun t => t = s)) ∧
    (acts ∧ boot.bank ≠ none → Writes .stRbRaise s [Reg.ST_RB] (fun t => t.fld Reg.ST_RB F.ST_RB_COUNT = max (s.fld Reg.ST_RB F.ST_RB_COUNT) (min 127 boot.lowRollback))) ∧
    (port → Writes (.mgmtStatus seq) s [] (fun t => t.startup = { boot with nonce := some (s.randomBytes 16) } ∧ tells t 0x81 0 ((List.range 8).map Config.serialByte ++ [BitVec.ofNat 8 (cause s)] ++ ([Reg.ST_RESULT, Reg.ST_REJ, Reg.ST_SEQ_A, Reg.ST_SEQ_B, Reg.ERR_CHIP_STATUS, Reg.ERR_CHIP_CAUSE, Reg.ERR_CHIP_TIME_S, Reg.ERR_CHIP_TIME_NS, Reg.RST_CAUSE, Reg.RST_LAST, Reg.MET_CHECK, Reg.SFS_CHK, Reg.SFS_CONF_CHK].map word).flatten ++ s.randomBytes 16))) ∧
    (¬port → Writes (.mgmtStatus seq) s [] (fun t => t = s) ∧ Writes (.mgmtReadLog seq area idx) s [] (fun t => t = s) ∧ Writes (.mgmtAuth seq slot sig) s [] (fun t => t = s) ∧ Writes (.mgmtErase seq bank) s [] (fun t => t = s) ∧ Writes (.mgmtProgram seq bank off bytes) s [] (fun t => t = s) ∧ Writes (.mgmtRestart seq) s [] (fun t => t = s)) ∧
    (port ∧ s.up 0x12 = true → Writes (.mgmtReadLog seq area idx) s [] (fun t => t.startup = boot ∧ (∀ e ∈ entry.toList, tells t 0x82 0 (s.bytes (mramBase + e.1) e.2 ++ List.replicate (64 - e.2) 0)) ∧ (entry = none → tells t 0x82 3 []))) ∧
    (port → Answers (.mgmtAuth seq slot sig) s (fun t => if verifies = true then t.startup.nonce = none ∧ renewed t ∧ failures t = failures s ∧ tells t 0x83 0 [] else refused t ∧ t.startup = boot)) ∧
    (port ∧ (boot.nonce = none ∨ 4 ≤ slot.toNat) → Answers (.mgmtAuth seq slot sig) s (fun t => refused t)) ∧
    (s.reached boot.authUntil = true → Writes .mgmtAuthExpiry s [Reg.ST_MGMT] (fun t => t.flag Reg.ST_MGMT F.ST_MGMT_AUTH = false ∧ failures t = failures s ∧ t.startup = { boot with authUntil := none })) ∧
    (s.reached boot.authUntil = false → Writes .mgmtAuthExpiry s [] (fun t => t = s)) ∧
    (auth ∧ free → Answers (.mgmtErase seq bank) s (fun t => tells t 0x90 0 [] ∧ renewed t ∧ (lo ≤ a → a < lo + flashSize → t.bytes a 1 = [0xFF]) ∧ BytesOnly (fun y => decide (lo ≤ y ∧ y < lo + flashSize)) s t)) ∧
    (auth ∧ ¬free → Answers (.mgmtErase seq bank) s (fun t => tells t 0x90 3 [] ∧ renewed t ∧ t.mem = s.mem)) ∧
    (auth ∧ free ∧ fits → Answers (.mgmtProgram seq bank off bytes) s (fun t => tells t 0x91 0 [] ∧ renewed t ∧ t.bytes (lo + off.toNat) bytes.length = bytes ∧ BytesOnly (fun y => decide (lo + off.toNat ≤ y ∧ y < lo + off.toNat + bytes.length)) s t)) ∧
    (auth ∧ ¬(free ∧ fits) → Answers (.mgmtProgram seq bank off bytes) s (fun t => tells t 0x91 3 [] ∧ renewed t ∧ t.mem = s.mem)) ∧
    (locked → Writes (.mgmtErase seq bank) s [] (fun t => tells t 0x90 2 [] ∧ t.startup = boot ∧ t.mem = s.mem) ∧ Writes (.mgmtProgram seq bank off bytes) s [] (fun t => tells t 0x91 2 [] ∧ t.startup = boot ∧ t.mem = s.mem) ∧ Writes (.mgmtRestart seq) s [] (fun t => tells t 0x92 2 [] ∧ t.startup = boot ∧ t.power = s.power)) ∧
    (auth ∧ goes → Answers (.mgmtRestart seq) s (fun t => tells t 0x92 0 [] ∧ t.power.hubReset = false ∧ bitOf (t.fld Reg.RST_CAUSE F.RST_CAUSE_CAUSE) 5 = true ∧ (s.power.coincide = [] → t.fld Reg.RST_LAST F.RST_LAST_CODE = 5) ∧ phase t = 1 ∧ t.flag Reg.ST_MGMT F.ST_MGMT_AUTH = false ∧ t.startup = { Startup.reset with validAt := some s.now } ∧ t.rd Reg.ERR_CHIP_STATUS = s.rd Reg.ERR_CHIP_STATUS))
end

