-- ==== Sys2Proof/Laws/Bits.lean ====
section
/-!
SUPPORT. Laws/Bits.lean: bit fields and byte orders.
-/
set_option Elab.async false
namespace Sys2Proof.Machine
set_option linter.all false

theorem Fld.get_lt (f : Fld) (v : Word) : f.get v < 2 ^ (f.hi + 1 - f.lo) := Nat.mod_lt _ (Nat.two_pow_pos _)

theorem leBytes_length (n x : Nat) : (leBytes n x).length = n := by
  induction n generalizing x with
  | zero => rfl
  | succ n ih => simp [leBytes, ih]

/-- The bytes of a number give its value modulo their width. -/
theorem leNat_leBytes (n x : Nat) : leNat (leBytes n x) = x % 256 ^ n := by
  induction n generalizing x with
  | zero => simp [leBytes, leNat, Nat.mod_one]
  | succ n ih =>
    rw [leBytes, leNat, ih, BitVec.toNat_ofNat, Nat.pow_succ (n := 256), Nat.mul_comm (256 ^ n), Nat.mod_mul]

theorem bit01_ne (b : Bool) : (decide (bit01 b ≠ 0)) = b := by cases b <;> rfl

/-- A word's number splits into what lies above, in and below a field. -/
theorem Fld.split (n lo w : Nat) :
    n = 2 ^ (lo + w) * (n / 2 ^ (lo + w)) + n / 2 ^ lo % 2 ^ w * 2 ^ lo + n % 2 ^ lo := by
  have h1 := Nat.div_add_mod n (2 ^ lo)
  have h2 := Nat.div_add_mod (n / 2 ^ lo) (2 ^ w)
  rw [Nat.div_div_eq_div_mul, ← Nat.pow_add] at h2
  generalize n / 2 ^ (lo + w) = q at *
  generalize n / 2 ^ lo % 2 ^ w = r at *
  rw [← h2, Nat.mul_add, ← Nat.mul_assoc, ← Nat.pow_add, Nat.mul_comm (2 ^ lo) r] at h1
  exact h1.symm

/-- A word with a field replaced: what lies above, the new field, what lies below. -/
theorem Fld.put_toNat (f : Fld) (v : Word) (x : Nat) (h : f.lo ≤ f.hi) (h32 : f.hi < 32) :
    (f.put v x).toNat =
      2 ^ (f.hi + 1) * (v.toNat / 2 ^ (f.hi + 1)) + (2 ^ f.lo * (x % 2 ^ (f.hi + 1 - f.lo)) + v.toNat % 2 ^ f.lo) ∧
    2 ^ f.lo * (x % 2 ^ (f.hi + 1 - f.lo)) + v.toNat % 2 ^ f.lo < 2 ^ (f.hi + 1) := by
  obtain ⟨hi, lo⟩ := f
  simp only at h h32
  have hw : lo + (hi + 1 - lo) = hi + 1 := by omega
  have hs := Fld.split v.toNat lo (hi + 1 - lo)
  rw [hw] at hs
  have hx : x % 2 ^ (hi + 1 - lo) < 2 ^ (hi + 1 - lo) := Nat.mod_lt _ (Nat.two_pow_pos _)
  have hl : v.toNat % 2 ^ lo < 2 ^ lo := Nat.mod_lt _ (Nat.two_pow_pos _)
  have hd : v.toNat / 2 ^ (hi + 1) < 2 ^ (31 - hi) := by
    rw [Nat.div_lt_iff_lt_mul (Nat.two_pow_pos _), ← Nat.pow_add]
    have : 31 - hi + (hi + 1) = 32 := by omega
    rw [this]; exact v.isLt
  have h1 : 2 ^ lo * (x % 2 ^ (hi + 1 - lo)) + v.toNat % 2 ^ lo < 2 ^ (hi + 1) := by
    have h2 : 2 ^ lo * (x % 2 ^ (hi + 1 - lo) + 1) ≤ 2 ^ lo * 2 ^ (hi + 1 - lo) := Nat.mul_le_mul_left _ hx
    rw [← Nat.pow_add, hw, Nat.mul_add] at h2
    omega
  refine ⟨?_, h1⟩
  have h2 : 2 ^ (hi + 1) * (v.toNat / 2 ^ (hi + 1) + 1) ≤ 2 ^ (hi + 1) * 2 ^ (31 - hi) := Nat.mul_le_mul_left _ hd
  have h3 : hi + 1 + (31 - hi) = 32 := by omega
  rw [← Nat.pow_add, h3, Nat.mul_add] at h2
  simp only [Fld.put, Fld.get, BitVec.toNat_ofNat]
  rw [Nat.mod_eq_of_lt]
  · rw [Nat.mul_comm (2 ^ lo) (x % _)]
    omega
  · rw [Nat.mul_comm (2 ^ lo) (x % _)] at h1
    omega

theorem Fld.get_testBit (f : Fld) (v : Word) (i : Nat) :
    (f.get v).testBit i = (decide (i < f.hi + 1 - f.lo) && v.toNat.testBit (f.lo + i)) := by
  simp [Fld.get, Nat.testBit_mod_two_pow, Nat.testBit_div_two_pow, Nat.add_comm]

/-- Each bit of a word with a field replaced. -/
theorem Fld.put_testBit (f : Fld) (v : Word) (x i : Nat) (h : f.lo ≤ f.hi) (h32 : f.hi < 32) :
    (f.put v x).toNat.testBit i = if f.lo ≤ i ∧ i ≤ f.hi then x.testBit (i - f.lo) else v.toNat.testBit i := by
  obtain ⟨hp, hlt⟩ := Fld.put_toNat f v x h h32
  have hl : v.toNat % 2 ^ f.lo < 2 ^ f.lo := Nat.mod_lt _ (Nat.two_pow_pos _)
  rw [hp, Nat.testBit_two_pow_mul_add _ hlt, Nat.testBit_two_pow_mul_add _ hl]
  simp only [Nat.testBit_mod_two_pow, Nat.testBit_div_two_pow]
  by_cases h1 : i < f.hi + 1
  · by_cases h2 : i < f.lo
    · simp [h1, h2, Nat.not_le.2 h2]
    · have h3 : i - f.lo < f.hi + 1 - f.lo := by omega
      simp [h1, h2, Nat.not_lt.1 h2, Nat.le_of_lt_succ h1, h3]
  · have h2 : ¬ i ≤ f.hi := by omega
    have h3 : i - (f.hi + 1) + (f.hi + 1) = i := by omega
    simp [h1, h2, h3]

/-- A field reads as put, modulo its width. -/
theorem Fld.get_put (f : Fld) (v : Word) (x : Nat) (h : f.lo ≤ f.hi) (h32 : f.hi < 32) :
    f.get (f.put v x) = x % 2 ^ (f.hi + 1 - f.lo) := by
  apply Nat.eq_of_testBit_eq
  intro i
  rw [Fld.get_testBit, Fld.put_testBit _ _ _ _ h h32, Nat.testBit_mod_two_pow]
  by_cases hi : i < f.hi + 1 - f.lo
  · have h2 : f.lo ≤ f.lo + i ∧ f.lo + i ≤ f.hi := by omega
    simp [hi, h2]
  · simp [hi]

/-- A field that shares no bit with the one put reads as before. -/
theorem Fld.get_put_off (f g : Fld) (v : Word) (x : Nat) (h : f.lo ≤ f.hi) (h32 : f.hi < 32)
    (hd : g.hi < f.lo ∨ f.hi < g.lo) : g.get (f.put v x) = g.get v := by
  apply Nat.eq_of_testBit_eq
  intro i
  rw [Fld.get_testBit, Fld.get_testBit, Fld.put_testBit _ _ _ _ h h32]
  by_cases hi : i < g.hi + 1 - g.lo
  · have h2 : ¬ (f.lo ≤ g.lo + i ∧ g.lo + i ≤ f.hi) := by omega
    simp [h2]
  · simp [hi]

/-- A word is its number. -/
theorem Fld.get_word (v : Word) : Fld.get ⟨31, 0⟩ v = v.toNat := by
  simp only [Fld.get, Nat.pow_zero, Nat.div_one]
  exact Nat.mod_eq_of_lt v.isLt

end Sys2Proof.Machine
end

