-- ==== Sys2Proof/Laws/Tab.lean ====
section
/-!
SUPPORT. Laws/Tab.lean: what reading a table gives after each operation on it, and that each keeps the canonical form.
-/
set_option Elab.async false
namespace Sys2Proof.Machine
set_option linter.all false

variable {α : Type} {d : Nat → α}

@[simp] theorem Tab.get_nil (k : Nat) : Tab.get d [] k = d k := rfl

theorem Tab.get_put_same (t : Tab α) (k : Nat) (v : α) : Tab.get d (Tab.put t k v) k = v := by
  induction t with
  | nil => simp [Tab.put, Tab.get]
  | cons e t ih =>
    obtain ⟨j, w⟩ := e
    simp only [Tab.put]
    split
    · simp [Tab.get]
    · split <;> simp [Tab.get, *]

theorem Tab.get_put_ne (t : Tab α) {k j : Nat} (v : α) (h : j ≠ k) :
    Tab.get d (Tab.put t k v) j = Tab.get d t j := by
  induction t with
  | nil => simp [Tab.put, Tab.get, h]
  | cons e t ih =>
    obtain ⟨i, w⟩ := e
    simp only [Tab.put]
    split
    · simp [Tab.get, h]
    · split
      · simp_all [Tab.get]
      · simp [Tab.get, ih]

theorem Tab.get_drop_same (t : Tab α) (k : Nat) : Tab.get d (Tab.drop t k) k = d k := by
  induction t with
  | nil => rfl
  | cons e t ih =>
    obtain ⟨i, w⟩ := e
    simp only [Tab.drop]
    split
    · exact ih
    · simp [Tab.get, *]

theorem Tab.get_drop_ne (t : Tab α) {k j : Nat} (h : j ≠ k) : Tab.get d (Tab.drop t k) j = Tab.get d t j := by
  induction t with
  | nil => rfl
  | cons e t ih =>
    obtain ⟨i, w⟩ := e
    simp only [Tab.drop]
    split
    · simp_all [Tab.get]
    · simp [Tab.get, ih]

theorem Tab.get_clear (p : Nat → Bool) (t : Tab α) (k : Nat) :
    Tab.get d (Tab.clear p t) k = if p k then d k else Tab.get d t k := by
  induction t with
  | nil => simp [Tab.clear]
  | cons e t ih =>
    obtain ⟨i, w⟩ := e
    simp only [Tab.clear] at ih ⊢
    by_cases hi : p i
    · by_cases hk : k = i
      · subst hk; simp_all
      · simp_all [Tab.get]
    · by_cases hk : k = i
      · subst hk; simp_all [Tab.get]
      · simp_all [Tab.get]

variable [DecidableEq α]

@[simp] theorem Tab.get_set_same (t : Tab α) (k : Nat) (v : α) : Tab.get d (Tab.set d t k v) k = v := by
  unfold Tab.set
  split
  · rw [Tab.get_drop_same, ← ‹v = d k›]
  · exact Tab.get_put_same t k v

theorem Tab.get_set_ne (t : Tab α) {k j : Nat} (v : α) (h : j ≠ k) : Tab.get d (Tab.set d t k v) j = Tab.get d t j := by
  unfold Tab.set
  split
  · exact Tab.get_drop_ne t h
  · exact Tab.get_put_ne t v h

theorem Tab.get_set (t : Tab α) (k j : Nat) (v : α) :
    Tab.get d (Tab.set d t k v) j = if j = k then v else Tab.get d t j := by
  split
  · simp [*]
  · exact Tab.get_set_ne t v ‹_›

/-! The canonical form -/

omit [DecidableEq α] in
theorem Tab.wf_nil : Tab.wf d [] := by simp [Tab.wf]

omit [DecidableEq α] in
theorem Tab.mem_put {t : Tab α} {k : Nat} {v : α} {e : Nat × α} (h : e ∈ Tab.put t k v) : e = (k, v) ∨ e ∈ t := by
  induction t with
  | nil => simpa [Tab.put] using h
  | cons x t ih =>
    obtain ⟨j, w⟩ := x
    simp only [Tab.put] at h
    split at h
    · simpa using h
    · split at h
      · rcases List.mem_cons.1 h with h | h
        · exact .inl h
        · exact .inr (List.mem_cons_of_mem _ h)
      · rcases List.mem_cons.1 h with h | h
        · exact .inr (h ▸ List.mem_cons_self)
        · exact (ih h).imp id (List.mem_cons_of_mem _)

omit [DecidableEq α] in
theorem Tab.mem_drop {t : Tab α} {k : Nat} {e : Nat × α} (h : e ∈ Tab.drop t k) : e ∈ t := by
  induction t with
  | nil => simp [Tab.drop] at h
  | cons x t ih =>
    obtain ⟨j, w⟩ := x
    simp only [Tab.drop] at h
    split at h
    · exact List.mem_cons_of_mem _ (ih h)
    · rcases List.mem_cons.1 h with h | h
      · exact h ▸ List.mem_cons_self
      · exact List.mem_cons_of_mem _ (ih h)

omit [DecidableEq α] in
theorem Tab.wf_put {t : Tab α} {k : Nat} {v : α} (h : Tab.wf d t) (hv : v ≠ d k) : Tab.wf d (Tab.put t k v) := by
  refine ⟨?_, fun e he => ?_⟩
  · have hs := h.1
    clear h
    induction t with
    | nil => simp [Tab.put]
    | cons x t ih =>
      obtain ⟨j, w⟩ := x
      rw [List.pairwise_cons] at hs
      simp only [Tab.put]
      split
      · rename_i hk
        refine List.pairwise_cons.2 ⟨fun y hy => ?_, List.pairwise_cons.2 hs⟩
        rcases List.mem_cons.1 hy with rfl | hy
        · exact hk
        · exact Nat.lt_trans hk (hs.1 y hy)
      · split
        · rename_i hk
          subst hk
          exact List.pairwise_cons.2 hs
        · refine List.pairwise_cons.2 ⟨fun y hy => ?_, ih hs.2⟩
          rcases Tab.mem_put hy with rfl | hy
          · show j < k
            omega
          · exact hs.1 y hy
  · rcases Tab.mem_put he with rfl | he
    · exact hv
    · exact h.2 e he

omit [DecidableEq α] in
theorem Tab.wf_drop {t : Tab α} {k : Nat} (h : Tab.wf d t) : Tab.wf d (Tab.drop t k) := by
  refine ⟨?_, fun e he => h.2 e (Tab.mem_drop he)⟩
  have hs := h.1
  clear h
  induction t with
  | nil => simp [Tab.drop]
  | cons x t ih =>
    obtain ⟨j, w⟩ := x
    rw [List.pairwise_cons] at hs
    simp only [Tab.drop]
    split
    · exact ih hs.2
    · exact List.pairwise_cons.2 ⟨fun y hy => hs.1 y (Tab.mem_drop hy), ih hs.2⟩

theorem Tab.wf_set {t : Tab α} {k : Nat} {v : α} (h : Tab.wf d t) : Tab.wf d (Tab.set d t k v) := by
  unfold Tab.set
  split
  · exact Tab.wf_drop h
  · exact Tab.wf_put h ‹_›

omit [DecidableEq α] in
theorem Tab.wf_clear {t : Tab α} {p : Nat → Bool} (h : Tab.wf d t) : Tab.wf d (Tab.clear p t) :=
  ⟨h.1.filter _, fun e he => h.2 e (List.mem_filter.1 he).1⟩

end Sys2Proof.Machine
end

