-- ==== Sys2Proof/Laws/Mem.lean ====
section
/-!
SUPPORT. Laws/Mem.lean: reading a memory after a write, and that a write keeps the canonical form.
-/
set_option Elab.async false
namespace Sys2Proof.Machine
set_option linter.all false

theorem memPut_wf {m : Tab Byte} (a : Nat) (l : List Byte) (h : Memory.wf m) : Memory.wf (memPut m a l) := by
  induction l generalizing m a with
  | nil => exact h
  | cons b t ih => exact ih _ (Tab.wf_set h)

/-- A byte below or above the bytes written reads as before. -/
theorem memPut_get_ne (m : Tab Byte) (a : Nat) (l : List Byte) (k : Nat) (h : k < a ∨ a + l.length ≤ k) :
    Tab.get memReset (memPut m a l) k = Tab.get memReset m k := by
  induction l generalizing m a with
  | nil => rfl
  | cons b t ih =>
    simp only [List.length_cons] at h
    rw [memPut, ih _ _ (by omega), Tab.get_set_ne _ _ (by omega)]

/-- A byte written reads as written. -/
theorem memPut_get_in (m : Tab Byte) (a : Nat) (l : List Byte) (i : Nat) (h : i < l.length) :
    Tab.get memReset (memPut m a l) (a + i) = l[i] := by
  induction l generalizing m a i with
  | nil => simp at h
  | cons b t ih =>
    cases i with
    | zero => rw [memPut, Nat.add_zero, memPut_get_ne _ _ _ _ (by omega)]; simp
    | succ i =>
      have := ih (Tab.set memReset m a b) (a + 1) i (by simpa using h)
      rw [memPut, List.getElem_cons_succ, ← this]
      congr 1
      omega

@[simp] theorem memBytes_length (m : Tab Byte) (a n : Nat) : (memBytes m a n).length = n := by
  induction n generalizing a with
  | zero => rfl
  | succ n ih => simp [memBytes, ih]

/-- Bytes that agree one by one are equal lists. -/
theorem memBytes_congr {m m' : Tab Byte} {a : Nat} {n : Nat}
    (h : ∀ k, a ≤ k → k < a + n → Tab.get memReset m' k = Tab.get memReset m k) : memBytes m' a n = memBytes m a n := by
  induction n generalizing a with
  | zero => rfl
  | succ n ih => simp only [memBytes]; rw [h a (by omega) (by omega), ih (fun k h1 h2 => h k (by omega) (by omega))]

/-- The bytes just written. -/
theorem memBytes_put_same (m : Tab Byte) (a : Nat) (l : List Byte) : memBytes (memPut m a l) a l.length = l := by
  induction l generalizing m a with
  | nil => rfl
  | cons b t ih =>
    rw [memPut, List.length_cons, memBytes, ih, memPut_get_ne _ _ _ _ (by omega)]
    simp

/-- Bytes that do not meet the bytes written. -/
theorem memBytes_put_off (m : Tab Byte) (a : Nat) (l : List Byte) (k n : Nat) (h : k + n ≤ a ∨ a + l.length ≤ k) :
    memBytes (memPut m a l) k n = memBytes m k n :=
  memBytes_congr (fun j h1 h2 => memPut_get_ne m a l j (by omega))

end Sys2Proof.Machine
end

