-- ==== Sys2Proof/Laws/Moves.lean ====
section
/-!
SUPPORT. Laws/Moves.lean: how `Moves` (Safety.lean) composes, and what the updates of one part move.
-/
set_option Elab.async false
namespace Sys2Proof.Machine

theorem Part.same_refl (p : Part) (s : State) : p.same s s := by cases p <;> rfl

theorem Part.same_trans {p : Part} {s t u : State} (h : p.same s t) (k : p.same t u) : p.same s u := by
  cases p <;> exact Eq.trans k h

theorem Moves.refl {fs : List Part} (s : State) : Moves fs s s :=
  ⟨fun p _ => p.same_refl s, List.prefix_refl _, Nat.le_refl _, id⟩

theorem Moves.trans {fs : List Part} {s t u : State} (h : Moves fs s t) (k : Moves fs t u) : Moves fs s u :=
  ⟨fun p hp => Part.same_trans (h.rest p hp) (k.rest p hp), h.out.trans k.out, Nat.le_trans h.free k.free,
    fun c => k.canonical (h.canonical c)⟩

/-- Every part of `fs` is one of `gs`. -/
structure Within (fs gs : List Part) : Prop where
  of ::
  all : fs.all gs.contains = true

theorem Moves.mono {fs gs : List Part} {s t : State} (hs : Within fs gs) (h : Moves fs s t) : Moves gs s t :=
  ⟨fun p hp => h.rest p (by
      by_cases hf : fs.contains p
      · obtain ⟨hs⟩ := hs
        exact absurd (List.all_eq_true.1 hs p (by simpa using hf)) (by simp_all)
      · simpa using hf), h.out, h.free, h.canonical⟩

/-- One more operation. -/
theorem Moves.step {fs gs : List Part} {s t u : State} (k : Moves fs t u) (hs : Within fs gs)
    (h : Moves gs s t) : Moves gs s u := h.trans (k.mono hs)

theorem Within.right (gs fs : List Part) : Within fs (gs ++ fs) := by
  constructor
  simp only [List.all_eq_true]
  intro p hp
  simp [hp]

theorem Within.append {fs gs hs : List Part} (h : Within fs hs) (k : Within gs hs) : Within (fs ++ gs) hs :=
  ⟨by rw [List.all_append, h.1, k.1]; rfl⟩

theorem Moves.ite {fs : List Part} {s a b : State} {c : Prop} [Decidable c] (h : Moves fs s a) (k : Moves fs s b) :
    Moves fs s (if c then a else b) := by split <;> assumption

theorem Moves.snd {α : Type} {fs : List Part} {s t : State} {r : α × State} {a : α} (h : r = (a, t))
    (k : Moves fs s r.2) : Moves fs s t := by subst h; exact k

theorem Moves.fst {α : Type} {fs : List Part} {s t : State} {r : State × α} {a : α} (h : r = (t, a))
    (k : Moves fs s r.1) : Moves fs s t := by subst h; exact k

theorem Moves.foldl {α : Type} {fs : List Part} {s i : State} {f : State → α → State} {l : List α}
    (h : ∀ t x, Moves fs t (f t x)) (k : Moves fs s i) : Moves fs s (l.foldl f i) := by
  induction l generalizing i with
  | nil => exact k
  | cons x l ih => exact ih (k.trans (h i x))

theorem Moves.foldr {α : Type} {fs : List Part} {s i : State} {f : α → State → State} {l : List α}
    (h : ∀ t x, Moves fs t (f x t)) (k : Moves fs s i) : Moves fs s (l.foldr f i) := by
  induction l with
  | nil => exact k
  | cons x l ih => exact ih.trans (h _ x)

theorem Moves.foldl_snd {α β : Type} {fs : List Part} {s : State} {i : β × State} {f : β × State → α → β × State}
    {l : List α} (h : ∀ t x, Moves fs t.2 (f t x).2) (k : Moves fs s i.2) : Moves fs s (l.foldl f i).2 := by
  induction l generalizing i with
  | nil => exact k
  | cons x l ih => exact ih (k.trans (h i x))

theorem Moves.foldl_fst {α β : Type} {fs : List Part} {s : State} {i : State × β} {f : State × β → α → State × β}
    {l : List α} (h : ∀ t x, Moves fs t.1 (f t x).1) (k : Moves fs s i.1) : Moves fs s (l.foldl f i).1 := by
  induction l generalizing i with
  | nil => exact k
  | cons x l ih => exact ih (k.trans (h i x))

/-- What an outcome can do: a next state moves only `fs`. -/
structure Goes (fs : List Part) (s : State) (o : Host.Outcome State Fault Refusal) : Prop where
  moves : ∀ t, o = .next t → Moves fs s t

theorem Goes.next {fs : List Part} {s t : State} (h : Moves fs s t) : Goes fs s (.next t) :=
  ⟨fun _ e => by cases e; exact h⟩

theorem Goes.fault {fs : List Part} {s : State} (r : Fault) : Goes fs s (.fault r) := ⟨fun _ e => by cases e⟩

theorem Goes.ite {fs : List Part} {s : State} {a b : Host.Outcome State Fault Refusal} {c : Prop} [Decidable c]
    (h : Goes fs s a) (k : Goes fs s b) : Goes fs s (if c then a else b) := by split <;> assumption

theorem Goes.mono {fs gs : List Part} {s : State} {o : Host.Outcome State Fault Refusal}
    (hs : Within fs gs) (h : Goes fs s o) : Goes gs s o := ⟨fun t e => (h.moves t e).mono hs⟩

/-! The updates of one part that no rule but its owner's holds -/

theorem State.setNow_moves (s : State) (v) : Moves [.now] s (s.setNow v) :=
  ⟨fun p hp => by cases p <;> first | rfl | simp at hp, List.prefix_refl _, Nat.le_refl _, id⟩

theorem State.setPending_moves (s : State) (v) : Moves [.pending] s (s.setPending v) :=
  ⟨fun p hp => by cases p <;> first | rfl | simp at hp, List.prefix_refl _, Nat.le_refl _, id⟩

theorem State.setEcc_moves (s : State) (v) : Moves [.ecc] s (s.setEcc v) :=
  ⟨fun p hp => by cases p <;> first | rfl | simp at hp, List.prefix_refl _, Nat.le_refl _, id⟩

theorem State.setLadder_moves (s : State) (v) : Moves [.ladder] s (s.setLadder v) :=
  ⟨fun p hp => by cases p <;> first | rfl | simp at hp, List.prefix_refl _, Nat.le_refl _, id⟩

theorem State.setFabric_moves (s : State) (v) : Moves [.fabric] s (s.setFabric v) :=
  ⟨fun p hp => by cases p <;> first | rfl | simp at hp, List.prefix_refl _, Nat.le_refl _, id⟩

theorem State.setWeft_moves (s : State) (v) : Moves [.weft] s (s.setWeft v) :=
  ⟨fun p hp => by cases p <;> first | rfl | simp at hp, List.prefix_refl _, Nat.le_refl _, id⟩

theorem State.setPower_moves (s : State) (v) : Moves [.power] s (s.setPower v) :=
  ⟨fun p hp => by cases p <;> first | rfl | simp at hp, List.prefix_refl _, Nat.le_refl _, id⟩

theorem State.setStartup_moves (s : State) (v) : Moves [.startup] s (s.setStartup v) :=
  ⟨fun p hp => by cases p <;> first | rfl | simp at hp, List.prefix_refl _, Nat.le_refl _, id⟩

theorem State.setTime_moves (s : State) (v) : Moves [.time] s (s.setTime v) :=
  ⟨fun p hp => by cases p <;> first | rfl | simp at hp, List.prefix_refl _, Nat.le_refl _, id⟩

theorem State.setSelv_moves (s : State) (v) : Moves [.selv] s (s.setSelv v) :=
  ⟨fun p hp => by cases p <;> first | rfl | simp at hp, List.prefix_refl _, Nat.le_refl _, id⟩

theorem State.setLoom_moves (s : State) (v) : Moves [.loom] s (s.setLoom v) :=
  ⟨fun p hp => by cases p <;> first | rfl | simp at hp, List.prefix_refl _, Nat.le_refl _, id⟩

theorem State.setTwill_moves (s : State) (v) : Moves [.twill] s (s.setTwill v) :=
  ⟨fun p hp => by cases p <;> first | rfl | simp at hp, List.prefix_refl _, Nat.le_refl _, id⟩

theorem State.setSense_moves (s : State) (v) : Moves [.sense] s (s.setSense v) :=
  ⟨fun p hp => by cases p <;> first | rfl | simp at hp, List.prefix_refl _, Nat.le_refl _, id⟩

theorem State.setHs_moves (s : State) (v) : Moves [.hs] s (s.setHs v) :=
  ⟨fun p hp => by cases p <;> first | rfl | simp at hp, List.prefix_refl _, Nat.le_refl _, id⟩

theorem State.setSal_moves (s : State) (v) : Moves [.sal] s (s.setSal v) :=
  ⟨fun p hp => by cases p <;> first | rfl | simp at hp, List.prefix_refl _, Nat.le_refl _, id⟩

theorem State.setZw_moves (s : State) (v) : Moves [.zw] s (s.setZw v) :=
  ⟨fun p hp => by cases p <;> first | rfl | simp at hp, List.prefix_refl _, Nat.le_refl _, id⟩

theorem State.setGrid_moves (s : State) (v) : Moves [.grid] s (s.setGrid v) :=
  ⟨fun p hp => by cases p <;> first | rfl | simp at hp, List.prefix_refl _, Nat.le_refl _, id⟩

theorem State.setKs_moves (s : State) (v) : Moves [.ks] s (s.setKs v) :=
  ⟨fun p hp => by cases p <;> first | rfl | simp at hp, List.prefix_refl _, Nat.le_refl _, id⟩

theorem State.setLinks_moves (s : State) (v) : Moves [.links] s (s.setLinks v) :=
  ⟨fun p hp => by cases p <;> first | rfl | simp at hp, List.prefix_refl _, Nat.le_refl _, id⟩

theorem State.setSes_moves (s : State) (v) : Moves [.ses] s (s.setSes v) :=
  ⟨fun p hp => by cases p <;> first | rfl | simp at hp, List.prefix_refl _, Nat.le_refl _, id⟩

theorem State.setThermal_moves (s : State) (v) : Moves [.thermal] s (s.setThermal v) :=
  ⟨fun p hp => by cases p <;> first | rfl | simp at hp, List.prefix_refl _, Nat.le_refl _, id⟩

theorem State.setLedger_moves (s : State) (v) : Moves [.ledger] s (s.setLedger v) :=
  ⟨fun p hp => by cases p <;> first | rfl | simp at hp, List.prefix_refl _, Nat.le_refl _, id⟩

theorem State.setBrine_moves (s : State) (v) : Moves [.brine] s (s.setBrine v) :=
  ⟨fun p hp => by cases p <;> first | rfl | simp at hp, List.prefix_refl _, Nat.le_refl _, id⟩

theorem State.setCan_moves (s : State) (v) : Moves [.can] s (s.setCan v) :=
  ⟨fun p hp => by cases p <;> first | rfl | simp at hp, List.prefix_refl _, Nat.le_refl _, id⟩

/-! Registers, memories, messages and free values -/

theorem State.setRegs_moves (s : State) {v : Tab Word} (h : Tab.wf regReset s.regs → Tab.wf regReset v) :
    Moves [.regs] s (s.setRegs v) :=
  ⟨fun p hp => by cases p <;> first | rfl | simp at hp, List.prefix_refl _, Nat.le_refl _, fun c => ⟨h c.1, c.2⟩⟩

theorem State.setLive_moves (s : State) {v : Tab Word} (h : Tab.wf regReset s.live → Tab.wf regReset v) :
    Moves [.live] s (s.setLive v) :=
  ⟨fun p hp => by cases p <;> first | rfl | simp at hp, List.prefix_refl _, Nat.le_refl _, fun c => ⟨c.1, h c.2.1, c.2.2⟩⟩

theorem State.setMem_moves (s : State) {v : List Host.Cell} (h : Memory.wf s.mem → Memory.wf v) :
    Moves [.mem] s (s.setMem v) :=
  ⟨fun p hp => by cases p <;> first | rfl | simp at hp, List.prefix_refl _, Nat.le_refl _, fun c => ⟨c.1, c.2.1, h c.2.2⟩⟩

theorem State.wr_moves (s : State) (a : Nat) (v : Word) : Moves [.regs] s (s.wr a v) := s.setRegs_moves Tab.wf_set

theorem State.wrLive_moves (s : State) (a : Nat) (v : Word) : Moves [.live] s (s.wrLive a v) := s.setLive_moves Tab.wf_set

theorem State.putBytes_moves (s : State) (a : Nat) (l : List Byte) : Moves [.mem] s (s.putBytes a l) :=
  s.setMem_moves (memPut_wf a l)

theorem State.emit_moves (s : State) (m : OutMsg) : Moves [.out] s (s.emit m) :=
  ⟨fun p hp => by cases p <;> first | rfl | simp at hp, List.prefix_append _ _, Nat.le_refl _, id⟩

theorem State.took_moves (s : State) : Moves [.free] s s.took :=
  ⟨fun p hp => by cases p <;> first | rfl | simp at hp, List.prefix_refl _, Nat.le_succ _, id⟩

end Sys2Proof.Machine
end

