-- ==== Sys2Proof/Laws/MovesOps.lean ====
section
/-!
SUPPORT. Laws/MovesOps.lean: which parts of the state each operation of Machine/Ops.lean moves.
-/
set_option Elab.async false
namespace Sys2Proof.Machine
set_option linter.all false

theorem State.commit_moves (s : State) (a : Nat) :
    Moves [.live] s (State.commit s a) := by
  unfold State.commit
  repeat' first
    | with_reducible apply Moves.refl | ((with_reducible apply Within.of); exact rfl) | intro _
    | with_reducible apply Moves.step (State.wrLive_moves ..) | with_reducible apply Moves.ite
    | with_reducible apply Moves.foldl | with_reducible apply Moves.foldl_snd | with_reducible apply Moves.foldl_fst
    | ((with_reducible apply Moves.snd); assumption) | ((with_reducible apply Moves.fst); assumption) | split | dsimp only

theorem State.wrAccess_moves (s : State) (a : Nat) (data : Word) :
    Moves [.regs] s (State.wrAccess s a data) := by
  unfold State.wrAccess
  repeat' first
    | with_reducible apply Moves.refl | ((with_reducible apply Within.of); exact rfl) | intro _
    | with_reducible apply Moves.step (State.wr_moves ..) | with_reducible apply Moves.ite
    | with_reducible apply Moves.foldl | with_reducible apply Moves.foldl_snd | with_reducible apply Moves.foldl_fst
    | ((with_reducible apply Moves.snd); assumption) | ((with_reducible apply Moves.fst); assumption) | split | dsimp only

theorem State.setFld_moves (s : State) (a : Nat) (f : Fld) (x : Nat) :
    Moves [.regs] s (State.setFld s a f x) := by
  unfold State.setFld
  repeat' first
    | with_reducible apply Moves.refl | ((with_reducible apply Within.of); exact rfl) | intro _
    | with_reducible apply Moves.step (State.wr_moves ..) | with_reducible apply Moves.ite
    | with_reducible apply Moves.foldl | with_reducible apply Moves.foldl_snd | with_reducible apply Moves.foldl_fst
    | ((with_reducible apply Moves.snd); assumption) | ((with_reducible apply Moves.fst); assumption) | split | dsimp only

theorem State.setFlag_moves (s : State) (a : Nat) (f : Fld) (b : Bool) :
    Moves [.regs] s (State.setFlag s a f b) := by
  unfold State.setFlag
  repeat' first
    | with_reducible apply Moves.refl | ((with_reducible apply Within.of); exact rfl) | intro _
    | with_reducible apply Moves.step (State.setFld_moves ..) | with_reducible apply Moves.ite
    | with_reducible apply Moves.foldl | with_reducible apply Moves.foldl_snd | with_reducible apply Moves.foldl_fst
    | ((with_reducible apply Moves.snd); assumption) | ((with_reducible apply Moves.fst); assumption) | split | dsimp only

theorem State.setBit_moves (s : State) (a : Nat) (f : Fld) (i : Nat) (b : Bool) :
    Moves [.regs] s (State.setBit s a f i b) := by
  unfold State.setBit
  repeat' first
    | with_reducible apply Moves.refl | ((with_reducible apply Within.of); exact rfl) | intro _
    | with_reducible apply Moves.step (State.setFld_moves ..) | with_reducible apply Moves.ite
    | with_reducible apply Moves.foldl | with_reducible apply Moves.foldl_snd | with_reducible apply Moves.foldl_fst
    | ((with_reducible apply Moves.snd); assumption) | ((with_reducible apply Moves.fst); assumption) | split | dsimp only

theorem State.bump_moves (s : State) (a : Nat) (f : Fld) (n : Nat) :
    Moves [.regs] s (State.bump s a f n) := by
  unfold State.bump
  repeat' first
    | with_reducible apply Moves.refl | ((with_reducible apply Within.of); exact rfl) | intro _
    | with_reducible apply Moves.step (State.setFld_moves ..) | with_reducible apply Moves.ite
    | with_reducible apply Moves.foldl | with_reducible apply Moves.foldl_snd | with_reducible apply Moves.foldl_fst
    | ((with_reducible apply Moves.snd); assumption) | ((with_reducible apply Moves.fst); assumption) | split | dsimp only

theorem State.wrNat_moves (s : State) (a x : Nat) :
    Moves [.regs] s (State.wrNat s a x) := by
  unfold State.wrNat
  repeat' first
    | with_reducible apply Moves.refl | ((with_reducible apply Within.of); exact rfl) | intro _
    | with_reducible apply Moves.step (State.wr_moves ..) | with_reducible apply Moves.ite
    | with_reducible apply Moves.foldl | with_reducible apply Moves.foldl_snd | with_reducible apply Moves.foldl_fst
    | ((with_reducible apply Moves.snd); assumption) | ((with_reducible apply Moves.fst); assumption) | split | dsimp only

theorem State.putNum_moves (s : State) (a n x : Nat) :
    Moves [.mem] s (State.putNum s a n x) := by
  unfold State.putNum
  repeat' first
    | with_reducible apply Moves.refl | ((with_reducible apply Within.of); exact rfl) | intro _
    | with_reducible apply Moves.step (State.putBytes_moves ..) | with_reducible apply Moves.ite
    | with_reducible apply Moves.foldl | with_reducible apply Moves.foldl_snd | with_reducible apply Moves.foldl_fst
    | ((with_reducible apply Moves.snd); assumption) | ((with_reducible apply Moves.fst); assumption) | split | dsimp only

theorem State.setTb_moves (s : State) (n : Nat) (b : TimeBase) :
    Moves [.time] s (State.setTb s n b) := by
  unfold State.setTb
  repeat' first
    | with_reducible apply Moves.refl | ((with_reducible apply Within.of); exact rfl) | intro _
    | with_reducible apply Moves.step (State.setTime_moves ..) | with_reducible apply Moves.ite
    | with_reducible apply Moves.foldl | with_reducible apply Moves.foldl_snd | with_reducible apply Moves.foldl_fst
    | ((with_reducible apply Moves.snd); assumption) | ((with_reducible apply Moves.fst); assumption) | split | dsimp only

theorem State.setRegRec_moves (s : State) (r : Nat) (v : RegRec) :
    Moves [.ladder] s (State.setRegRec s r v) := by
  unfold State.setRegRec
  repeat' first
    | with_reducible apply Moves.refl | ((with_reducible apply Within.of); exact rfl) | intro _
    | with_reducible apply Moves.step (State.setLadder_moves ..) | with_reducible apply Moves.ite
    | with_reducible apply Moves.foldl | with_reducible apply Moves.foldl_snd | with_reducible apply Moves.foldl_fst
    | ((with_reducible apply Moves.snd); assumption) | ((with_reducible apply Moves.fst); assumption) | split | dsimp only

theorem State.setBlkRec_moves (s : State) (blk : Nat) (v : BlkRec) :
    Moves [.ladder] s (State.setBlkRec s blk v) := by
  unfold State.setBlkRec
  repeat' first
    | with_reducible apply Moves.refl | ((with_reducible apply Within.of); exact rfl) | intro _
    | with_reducible apply Moves.step (State.setLadder_moves ..) | with_reducible apply Moves.ite
    | with_reducible apply Moves.foldl | with_reducible apply Moves.foldl_snd | with_reducible apply Moves.foldl_fst
    | ((with_reducible apply Moves.snd); assumption) | ((with_reducible apply Moves.fst); assumption) | split | dsimp only

theorem State.setBase_moves (s : State) (n : Nat) (b : TimeBase) :
    Moves [.power, .time] s (State.setBase s n b) := by
  unfold State.setBase
  repeat' first
    | with_reducible apply Moves.refl | ((with_reducible apply Within.of); exact rfl) | intro _
    | with_reducible apply Moves.step (State.setTb_moves ..) | with_reducible apply Moves.step (State.setPower_moves ..)
    | with_reducible apply Moves.ite | with_reducible apply Moves.foldl | with_reducible apply Moves.foldl_snd
    | with_reducible apply Moves.foldl_fst | ((with_reducible apply Moves.snd); assumption)
    | ((with_reducible apply Moves.fst); assumption) | split | dsimp only

theorem State.onBlk_moves (s : State) (b : BlockId) (f : State → State) {fs : List Part} (hf : ∀ (t : State), Moves fs t (f t)) :
    Moves ([] ++ fs) s (State.onBlk s b f) := by
  unfold State.onBlk
  repeat' first
    | with_reducible apply Moves.refl | ((with_reducible apply Within.of); exact rfl) | intro _
    | with_reducible apply Within.right | with_reducible apply Within.append
    | with_reducible apply Moves.step (hf ..) (Within.right _ _) | with_reducible apply Moves.ite
    | with_reducible apply Moves.foldl | with_reducible apply Moves.foldl_snd | with_reducible apply Moves.foldl_fst
    | ((with_reducible apply Moves.snd); assumption) | ((with_reducible apply Moves.fst); assumption) | split | dsimp only

theorem State.drew_moves (s : State) (n : Nat) :
    Moves [.free] s (State.drew s n) := by
  exact ⟨fun p hp => by cases p <;> first | rfl | simp at hp, List.prefix_refl _, Nat.le_add_right _ _, id⟩

theorem State.setCtx_moves (s : State) (k : Nat) (x : Context) :
    Moves [.weft] s (State.setCtx s k x) := by
  unfold State.setCtx
  repeat' first
    | with_reducible apply Moves.refl | ((with_reducible apply Within.of); exact rfl) | intro _
    | with_reducible apply Moves.step (State.setWeft_moves ..) | with_reducible apply Moves.ite
    | with_reducible apply Moves.foldl | with_reducible apply Moves.foldl_snd | with_reducible apply Moves.foldl_fst
    | ((with_reducible apply Moves.snd); assumption) | ((with_reducible apply Moves.fst); assumption) | split | dsimp only

theorem State.line_moves (s : State) (blk line : Nat) :
    Moves [.weft] s (State.line s blk line) := by
  unfold State.line
  repeat' first
    | with_reducible apply Moves.refl | ((with_reducible apply Within.of); exact rfl) | intro _
    | with_reducible apply Moves.step (State.setWeft_moves ..) | with_reducible apply Moves.ite
    | with_reducible apply Moves.foldl | with_reducible apply Moves.foldl_snd | with_reducible apply Moves.foldl_fst
    | ((with_reducible apply Moves.snd); assumption) | ((with_reducible apply Moves.fst); assumption) | split | dsimp only

end Sys2Proof.Machine
end

