-- ==== Sys2Proof/Laws/MovesSenseBase.lean ====
section
/-!
SUPPORT. Laws/MovesSenseBase.lean: which parts of the state each operation of Machine/SenseBase.lean moves.
-/
set_option Elab.async false
namespace Sys2Proof.Machine
set_option linter.all false

theorem State.setAdc_moves (s : State) (a : Nat) (v : Adc) :
    Moves [.sense] s (State.setAdc s a v) := by
  unfold State.setAdc
  repeat' first
    | with_reducible apply Moves.refl | ((with_reducible apply Within.of); exact rfl) | intro _
    | with_reducible apply Moves.step (State.setSense_moves ..) | with_reducible apply Moves.ite
    | with_reducible apply Moves.foldl | with_reducible apply Moves.foldl_snd | with_reducible apply Moves.foldl_fst
    | ((with_reducible apply Moves.snd); assumption) | ((with_reducible apply Moves.fst); assumption) | split | dsimp only

theorem State.setAin_moves (s : State) (n : Nat) (v : Ain) :
    Moves [.sense] s (State.setAin s n v) := by
  unfold State.setAin
  repeat' first
    | with_reducible apply Moves.refl | ((with_reducible apply Within.of); exact rfl) | intro _
    | with_reducible apply Moves.step (State.setSense_moves ..) | with_reducible apply Moves.ite
    | with_reducible apply Moves.foldl | with_reducible apply Moves.foldl_snd | with_reducible apply Moves.foldl_fst
    | ((with_reducible apply Moves.snd); assumption) | ((with_reducible apply Moves.fst); assumption) | split | dsimp only

theorem State.setSumCheck_moves (s : State) (o : Nat) (v : SumCheck) :
    Moves [.sense] s (State.setSumCheck s o v) := by
  unfold State.setSumCheck
  repeat' first
    | with_reducible apply Moves.refl | ((with_reducible apply Within.of); exact rfl) | intro _
    | with_reducible apply Moves.step (State.setSense_moves ..) | with_reducible apply Moves.ite
    | with_reducible apply Moves.foldl | with_reducible apply Moves.foldl_snd | with_reducible apply Moves.foldl_fst
    | ((with_reducible apply Moves.snd); assumption) | ((with_reducible apply Moves.fst); assumption) | split | dsimp only

theorem State.setHeldCoil_moves (s : State) (x : Nat) (v : Option HeldCoil) :
    Moves [.regs, .sense] s (State.setHeldCoil s x v) := by
  unfold State.setHeldCoil
  repeat' first
    | with_reducible apply Moves.refl | ((with_reducible apply Within.of); exact rfl) | intro _
    | with_reducible apply Moves.step (State.setFlag_moves ..) | with_reducible apply Moves.step (State.setSense_moves ..)
    | with_reducible apply Moves.ite | with_reducible apply Moves.foldl | with_reducible apply Moves.foldl_snd
    | with_reducible apply Moves.foldl_fst | ((with_reducible apply Moves.snd); assumption)
    | ((with_reducible apply Moves.fst); assumption) | split | dsimp only

theorem State.holdCheck_moves (s : State) (o : Nat) :
    Moves [.sense] s (State.holdCheck s o) := by
  unfold State.holdCheck
  repeat' first
    | with_reducible apply Moves.refl | ((with_reducible apply Within.of); exact rfl) | intro _
    | with_reducible apply Moves.step (State.setSumCheck_moves ..) | with_reducible apply Moves.ite
    | with_reducible apply Moves.foldl | with_reducible apply Moves.foldl_snd | with_reducible apply Moves.foldl_fst
    | ((with_reducible apply Moves.snd); assumption) | ((with_reducible apply Moves.fst); assumption) | split | dsimp only

theorem State.weldSpoil_moves (s : State) (outlet : Bool) (t : Nat) :
    Moves [.sense] s (State.weldSpoil s outlet t) := by
  unfold State.weldSpoil
  repeat' first
    | with_reducible apply Moves.refl | ((with_reducible apply Within.of); exact rfl) | intro _
    | with_reducible apply Moves.step (State.setSense_moves ..) | with_reducible apply Moves.ite
    | with_reducible apply Moves.foldl | with_reducible apply Moves.foldl_snd | with_reducible apply Moves.foldl_fst
    | ((with_reducible apply Moves.snd); assumption) | ((with_reducible apply Moves.fst); assumption) | split | dsimp only

theorem State.xpSet_moves (s : State) (x : Nat) (close : Bool) :
    Moves [.regs, .sense] s (State.xpSet s x close) := by
  unfold State.xpSet
  repeat' first
    | with_reducible apply Moves.refl | ((with_reducible apply Within.of); exact rfl) | intro _
    | with_reducible apply Moves.step (State.holdCheck_moves ..)
    | with_reducible apply Moves.step (State.setHeldCoil_moves ..)
    | with_reducible apply Moves.step (State.setFlag_moves ..)
    | with_reducible apply Moves.step (State.weldSpoil_moves ..) | with_reducible apply Moves.ite
    | with_reducible apply Moves.foldl | with_reducible apply Moves.foldl_snd | with_reducible apply Moves.foldl_fst
    | ((with_reducible apply Moves.snd); assumption) | ((with_reducible apply Moves.fst); assumption) | split | dsimp only

theorem State.xpCommand_moves (s : State) (x : Nat) (close : Bool) :
    Moves [.regs, .sense] s (State.xpCommand s x close) := by
  unfold State.xpCommand
  repeat' first
    | with_reducible apply Moves.refl | ((with_reducible apply Within.of); exact rfl) | intro _
    | with_reducible apply Moves.step (State.setHeldCoil_moves ..)
    | with_reducible apply Moves.step (State.xpSet_moves ..) | with_reducible apply Moves.ite
    | with_reducible apply Moves.foldl | with_reducible apply Moves.foldl_snd | with_reducible apply Moves.foldl_fst
    | ((with_reducible apply Moves.snd); assumption) | ((with_reducible apply Moves.fst); assumption) | split | dsimp only

end Sys2Proof.Machine
end

