-- ==== Sys2Proof/Laws/MovesSwitchBase.lean ====
section
/-!
SUPPORT. Laws/MovesSwitchBase.lean: which parts of the state each operation of Machine/SwitchBase.lean moves.
-/
set_option Elab.async false
namespace Sys2Proof.Machine
set_option linter.all false

theorem State.setSw_moves (s : State) (n : Nat) (v : LoadSwitch) :
    Moves [.hs] s (State.setSw s n v) := by
  unfold State.setSw
  repeat' first
    | with_reducible apply Moves.refl | ((with_reducible apply Within.of); exact rfl) | intro _
    | with_reducible apply Moves.step (State.setHs_moves ..) | with_reducible apply Moves.ite
    | with_reducible apply Moves.foldl | with_reducible apply Moves.foldl_snd | with_reducible apply Moves.foldl_fst
    | ((with_reducible apply Moves.snd); assumption) | ((with_reducible apply Moves.fst); assumption) | split | dsimp only

theorem State.setRcnt_moves (s : State) (n v : Nat) :
    Moves [.regs] s (State.setRcnt s n v) := by
  unfold State.setRcnt
  repeat' first
    | with_reducible apply Moves.refl | ((with_reducible apply Within.of); exact rfl) | intro _
    | with_reducible apply Moves.step (State.setFld_moves ..) | with_reducible apply Moves.ite
    | with_reducible apply Moves.foldl | with_reducible apply Moves.foldl_snd | with_reducible apply Moves.foldl_fst
    | ((with_reducible apply Moves.snd); assumption) | ((with_reducible apply Moves.fst); assumption) | split | dsimp only

theorem State.current_moves (s : State) (n ma : Nat) :
    Moves [.regs, .hs] s (State.current s n ma) := by
  unfold State.current
  repeat' first
    | with_reducible apply Moves.refl | ((with_reducible apply Within.of); exact rfl) | intro _
    | with_reducible apply Moves.step (State.setSw_moves ..) | with_reducible apply Moves.step (State.setFld_moves ..)
    | with_reducible apply Moves.ite | with_reducible apply Moves.foldl | with_reducible apply Moves.foldl_snd
    | with_reducible apply Moves.foldl_fst | ((with_reducible apply Moves.snd); assumption)
    | ((with_reducible apply Moves.fst); assumption) | split | dsimp only

theorem State.hsTurnOn_moves (s : State) (n : Nat) :
    Moves [.regs, .hs] s (State.hsTurnOn s n) := by
  unfold State.hsTurnOn
  repeat' first
    | with_reducible apply Moves.refl | ((with_reducible apply Within.of); exact rfl) | intro _
    | with_reducible apply Moves.step (State.setSw_moves ..) | with_reducible apply Moves.step (State.setFld_moves ..)
    | with_reducible apply Moves.ite | with_reducible apply Moves.foldl | with_reducible apply Moves.foldl_snd
    | with_reducible apply Moves.foldl_fst | ((with_reducible apply Moves.snd); assumption)
    | ((with_reducible apply Moves.fst); assumption) | split | dsimp only

theorem State.hsGoes_moves (s : State) (n st : Nat) :
    Moves [.regs, .hs] s (State.hsGoes s n st) := by
  unfold State.hsGoes
  repeat' first
    | with_reducible apply Moves.refl | ((with_reducible apply Within.of); exact rfl) | intro _
    | with_reducible apply Moves.step (State.setFld_moves ..) | with_reducible apply Moves.step (State.current_moves ..)
    | with_reducible apply Moves.step (State.setSw_moves ..) | with_reducible apply Moves.ite
    | with_reducible apply Moves.foldl | with_reducible apply Moves.foldl_snd | with_reducible apply Moves.foldl_fst
    | ((with_reducible apply Moves.snd); assumption) | ((with_reducible apply Moves.fst); assumption) | split | dsimp only

theorem State.coilFollows_moves (s : State) (n : Nat) :
    Moves [.regs, .sense, .hs] s (State.coilFollows s n) := by
  unfold State.coilFollows
  repeat' first
    | with_reducible apply Moves.refl | ((with_reducible apply Within.of); exact rfl) | intro _
    | with_reducible apply Moves.step (State.setSw_moves ..) | with_reducible apply Moves.step (State.xpSet_moves ..)
    | with_reducible apply Moves.step (State.xpCommand_moves ..) | with_reducible apply Moves.ite
    | with_reducible apply Moves.foldl | with_reducible apply Moves.foldl_snd | with_reducible apply Moves.foldl_fst
    | ((with_reducible apply Moves.snd); assumption) | ((with_reducible apply Moves.fst); assumption) | split | dsimp only

theorem State.hsRefresh_moves (s : State) (n : Nat) :
    Moves [.regs, .sense, .hs] s (State.hsRefresh s n) := by
  unfold State.hsRefresh
  repeat' first
    | with_reducible apply Moves.refl | ((with_reducible apply Within.of); exact rfl) | intro _
    | with_reducible apply Moves.step (State.coilFollows_moves ..)
    | with_reducible apply Moves.step (State.setSw_moves ..) | with_reducible apply Moves.step (State.hsTurnOn_moves ..)
    | with_reducible apply Moves.step (State.setRcnt_moves ..) | with_reducible apply Moves.step (State.hsGoes_moves ..)
    | with_reducible apply Moves.ite | with_reducible apply Moves.foldl | with_reducible apply Moves.foldl_snd
    | with_reducible apply Moves.foldl_fst | ((with_reducible apply Moves.snd); assumption)
    | ((with_reducible apply Moves.fst); assumption) | split | dsimp only

theorem State.hsRefreshAll_moves (s : State) :
    Moves [.regs, .sense, .hs] s (State.hsRefreshAll s) := by
  unfold State.hsRefreshAll
  repeat' first
    | with_reducible apply Moves.refl | ((with_reducible apply Within.of); exact rfl) | intro _
    | with_reducible apply Moves.step (State.hsRefresh_moves ..) | with_reducible apply Moves.ite
    | with_reducible apply Moves.foldl | with_reducible apply Moves.foldl_snd | with_reducible apply Moves.foldl_fst
    | ((with_reducible apply Moves.snd); assumption) | ((with_reducible apply Moves.fst); assumption) | split | dsimp only

theorem State.hsCommand_moves (s : State) (n : Nat) (was : Bool) :
    Moves [.regs, .sense, .hs] s (State.hsCommand s n was) := by
  unfold State.hsCommand
  repeat' first
    | with_reducible apply Moves.refl | ((with_reducible apply Within.of); exact rfl) | intro _
    | with_reducible apply Moves.step (State.xpCommand_moves ..)
    | with_reducible apply Moves.step (State.hsRefresh_moves ..) | with_reducible apply Moves.ite
    | with_reducible apply Moves.foldl | with_reducible apply Moves.foldl_snd | with_reducible apply Moves.foldl_fst
    | ((with_reducible apply Moves.snd); assumption) | ((with_reducible apply Moves.fst); assumption) | split | dsimp only

theorem State.switchesSync_moves (s : State) :
    Moves [.regs, .weft, .sense, .hs] s (State.switchesSync s) := by
  unfold State.switchesSync
  repeat' first
    | with_reducible apply Moves.refl | ((with_reducible apply Within.of); exact rfl) | intro _
    | with_reducible apply Moves.step (State.hsRefreshAll_moves ..)
    | with_reducible apply Moves.step (State.setSw_moves ..) | with_reducible apply Moves.step (State.setHs_moves ..)
    | with_reducible apply Moves.step (State.setBit_moves ..) | with_reducible apply Moves.step (State.setFlag_moves ..)
    | with_reducible apply Moves.step (State.line_moves ..) | with_reducible apply Moves.ite
    | with_reducible apply Moves.foldl | with_reducible apply Moves.foldl_snd | with_reducible apply Moves.foldl_fst
    | ((with_reducible apply Moves.snd); assumption) | ((with_reducible apply Moves.fst); assumption) | split | dsimp only

theorem resetSwitches_moves (s : State) :
    Moves [.regs] s (resetSwitches s) := by
  unfold resetSwitches
  repeat' first
    | with_reducible apply Moves.refl | ((with_reducible apply Within.of); exact rfl) | intro _
    | with_reducible apply Moves.step (State.wr_moves ..) | with_reducible apply Moves.step (State.setFld_moves ..)
    | with_reducible apply Moves.ite | with_reducible apply Moves.foldl | with_reducible apply Moves.foldl_snd
    | with_reducible apply Moves.foldl_fst | ((with_reducible apply Moves.snd); assumption)
    | ((with_reducible apply Moves.fst); assumption) | split | dsimp only

end Sys2Proof.Machine
end

