-- ==== Sys2Proof/Laws/MovesSafetyOut.lean ====
section
/-!
SUPPORT. Laws/MovesSafetyOut.lean: which parts of the state each operation of Machine/SafetyOut.lean moves.
-/
set_option Elab.async false
namespace Sys2Proof.Machine
set_option linter.all false

theorem State.setSafePair_moves (s : State) (n : Nat) (v : SafePair) :
    Moves [.selv] s (State.setSafePair s n v) := by
  unfold State.setSafePair
  repeat' first
    | with_reducible apply Moves.refl | ((with_reducible apply Within.of); exact rfl) | intro _
    | with_reducible apply Moves.step (State.setSelv_moves ..) | with_reducible apply Moves.ite
    | with_reducible apply Moves.foldl | with_reducible apply Moves.foldl_snd | with_reducible apply Moves.foldl_fst
    | ((with_reducible apply Moves.snd); assumption) | ((with_reducible apply Moves.fst); assumption) | split | dsimp only

theorem State.setSafeOut_moves (s : State) (m : Nat) (v : SafeOut) :
    Moves [.selv] s (State.setSafeOut s m v) := by
  unfold State.setSafeOut
  repeat' first
    | with_reducible apply Moves.refl | ((with_reducible apply Within.of); exact rfl) | intro _
    | with_reducible apply Moves.step (State.setSelv_moves ..) | with_reducible apply Moves.ite
    | with_reducible apply Moves.foldl | with_reducible apply Moves.foldl_snd | with_reducible apply Moves.foldl_fst
    | ((with_reducible apply Moves.snd); assumption) | ((with_reducible apply Moves.fst); assumption) | split | dsimp only

theorem State.setRawCurrent_moves (s : State) (o : Nat) (v : RawCurrent) :
    Moves [.selv] s (State.setRawCurrent s o v) := by
  unfold State.setRawCurrent
  repeat' first
    | with_reducible apply Moves.refl | ((with_reducible apply Within.of); exact rfl) | intro _
    | with_reducible apply Moves.step (State.setSelv_moves ..) | with_reducible apply Moves.ite
    | with_reducible apply Moves.foldl | with_reducible apply Moves.foldl_snd | with_reducible apply Moves.foldl_fst
    | ((with_reducible apply Moves.snd); assumption) | ((with_reducible apply Moves.fst); assumption) | split | dsimp only

theorem State.outChanged_moves (s : State) (m : Nat) :
    Moves [.weft, .sense] s (State.outChanged s m) := by
  unfold State.outChanged
  repeat' first
    | with_reducible apply Moves.refl | ((with_reducible apply Within.of); exact rfl) | intro _
    | with_reducible apply Moves.step (State.line_moves ..) | with_reducible apply Moves.step (State.holdCheck_moves ..)
    | with_reducible apply Moves.ite | with_reducible apply Moves.foldl | with_reducible apply Moves.foldl_snd
    | with_reducible apply Moves.foldl_fst | ((with_reducible apply Moves.snd); assumption)
    | ((with_reducible apply Moves.fst); assumption) | split | dsimp only

theorem State.outOff_moves (s : State) (m : Nat) :
    Moves [.regs, .weft, .selv, .sense] s (State.outOff s m) := by
  unfold State.outOff
  repeat' first
    | with_reducible apply Moves.refl | ((with_reducible apply Within.of); exact rfl) | intro _
    | with_reducible apply Moves.step (State.outChanged_moves ..)
    | with_reducible apply Moves.step (State.setSafeOut_moves ..)
    | with_reducible apply Moves.step (State.setBit_moves ..) | with_reducible apply Moves.ite
    | with_reducible apply Moves.foldl | with_reducible apply Moves.foldl_snd | with_reducible apply Moves.foldl_fst
    | ((with_reducible apply Moves.snd); assumption) | ((with_reducible apply Moves.fst); assumption) | split | dsimp only

theorem State.outOn_moves (s : State) (m : Nat) :
    Moves [.regs, .weft, .selv, .sense] s (State.outOn s m) := by
  unfold State.outOn
  repeat' first
    | with_reducible apply Moves.refl | ((with_reducible apply Within.of); exact rfl) | intro _
    | with_reducible apply Moves.step (State.weldSpoil_moves ..)
    | with_reducible apply Moves.step (State.outChanged_moves ..)
    | with_reducible apply Moves.step (State.setSafeOut_moves ..)
    | with_reducible apply Moves.step (State.setBit_moves ..) | with_reducible apply Moves.ite
    | with_reducible apply Moves.foldl | with_reducible apply Moves.foldl_snd | with_reducible apply Moves.foldl_fst
    | ((with_reducible apply Moves.snd); assumption) | ((with_reducible apply Moves.fst); assumption) | split | dsimp only

theorem State.refreshOut_moves (s : State) (m : Nat) :
    Moves [.regs, .weft, .selv, .sense] s (State.refreshOut s m) := by
  unfold State.refreshOut
  repeat' first
    | with_reducible apply Moves.refl | ((with_reducible apply Within.of); exact rfl) | intro _
    | with_reducible apply Moves.step (State.outOff_moves ..)
    | with_reducible apply Moves.step (State.setSafeOut_moves ..)
    | with_reducible apply Moves.step (State.setBit_moves ..) | with_reducible apply Moves.step (State.outOn_moves ..)
    | with_reducible apply Moves.ite | with_reducible apply Moves.foldl | with_reducible apply Moves.foldl_snd
    | with_reducible apply Moves.foldl_fst | ((with_reducible apply Moves.snd); assumption)
    | ((with_reducible apply Moves.fst); assumption) | split | dsimp only

theorem State.refreshOuts_moves (s : State) :
    Moves [.regs, .weft, .selv, .sense] s (State.refreshOuts s) := by
  unfold State.refreshOuts
  repeat' first
    | with_reducible apply Moves.refl | ((with_reducible apply Within.of); exact rfl) | intro _
    | with_reducible apply Moves.step (State.refreshOut_moves ..) | with_reducible apply Moves.ite
    | with_reducible apply Moves.foldl | with_reducible apply Moves.foldl_snd | with_reducible apply Moves.foldl_fst
    | ((with_reducible apply Moves.snd); assumption) | ((with_reducible apply Moves.fst); assumption) | split | dsimp only

theorem State.notifySelvedge_moves (s : State) :
    Moves [.regs, .weft, .selv, .sense] s (State.notifySelvedge s) := by
  unfold State.notifySelvedge
  repeat' first
    | with_reducible apply Moves.refl | ((with_reducible apply Within.of); exact rfl) | intro _
    | with_reducible apply Moves.step (State.refreshOuts_moves ..)
    | with_reducible apply Moves.step (State.setFlag_moves ..) | with_reducible apply Moves.ite
    | with_reducible apply Moves.foldl | with_reducible apply Moves.foldl_snd | with_reducible apply Moves.foldl_fst
    | ((with_reducible apply Moves.snd); assumption) | ((with_reducible apply Moves.fst); assumption) | split | dsimp only

theorem State.ownedMoved_moves (s : State) :
    Moves [.regs, .weft, .selv, .sense, .hs] s (State.ownedMoved s) := by
  unfold State.ownedMoved
  repeat' first
    | with_reducible apply Moves.refl | ((with_reducible apply Within.of); exact rfl) | intro _
    | with_reducible apply Moves.step (State.hsRefreshAll_moves ..)
    | with_reducible apply Moves.step (State.refreshOuts_moves ..) | with_reducible apply Moves.ite
    | with_reducible apply Moves.foldl | with_reducible apply Moves.foldl_snd | with_reducible apply Moves.foldl_fst
    | ((with_reducible apply Moves.snd); assumption) | ((with_reducible apply Moves.fst); assumption) | split | dsimp only

end Sys2Proof.Machine
end

