-- ==== Sys2Proof/Laws/MovesLoomBase.lean ====
section
/-!
SUPPORT. Laws/MovesLoomBase.lean: which parts of the state each operation of Machine/LoomBase.lean moves.
-/
set_option Elab.async false
namespace Sys2Proof.Machine
set_option linter.all false

theorem State.setCh_moves (s : State) (n : Nat) (v : Channel) :
    Moves [.loom] s (State.setCh s n v) := by
  unfold State.setCh
  repeat' first
    | with_reducible apply Moves.refl | ((with_reducible apply Within.of); exact rfl) | intro _
    | with_reducible apply Moves.step (State.setLoom_moves ..) | with_reducible apply Moves.ite
    | with_reducible apply Moves.foldl | with_reducible apply Moves.foldl_snd | with_reducible apply Moves.foldl_fst
    | ((with_reducible apply Moves.snd); assumption) | ((with_reducible apply Moves.fst); assumption) | split | dsimp only

theorem State.setSrc_moves (s : State) (k : Nat) (v : TripSource) :
    Moves [.loom] s (State.setSrc s k v) := by
  unfold State.setSrc
  repeat' first
    | with_reducible apply Moves.refl | ((with_reducible apply Within.of); exact rfl) | intro _
    | with_reducible apply Moves.step (State.setLoom_moves ..) | with_reducible apply Moves.ite
    | with_reducible apply Moves.foldl | with_reducible apply Moves.foldl_snd | with_reducible apply Moves.foldl_fst
    | ((with_reducible apply Moves.snd); assumption) | ((with_reducible apply Moves.fst); assumption) | split | dsimp only

theorem State.eachCh_moves (s : State) (f : State → Nat → State) {fs : List Part} (hf : ∀ (t : State) (x1 : Nat), Moves fs t (f t x1)) :
    Moves ([] ++ fs) s (State.eachCh s f) := by
  unfold State.eachCh
  repeat' first
    | with_reducible apply Moves.refl | ((with_reducible apply Within.of); exact rfl) | intro _
    | with_reducible apply Within.right | with_reducible apply Within.append
    | with_reducible apply Moves.step (hf ..) (Within.right _ _) | with_reducible apply Moves.ite
    | with_reducible apply Moves.foldl | with_reducible apply Moves.foldl_snd | with_reducible apply Moves.foldl_fst
    | ((with_reducible apply Moves.snd); assumption) | ((with_reducible apply Moves.fst); assumption) | split | dsimp only

theorem State.setChFlag_moves (s : State) (n : Nat) (f : Fld) (b : Bool) :
    Moves [.regs] s (State.setChFlag s n f b) := by
  unfold State.setChFlag
  repeat' first
    | with_reducible apply Moves.refl | ((with_reducible apply Within.of); exact rfl) | intro _
    | with_reducible apply Moves.step (State.setFlag_moves ..) | with_reducible apply Moves.ite
    | with_reducible apply Moves.foldl | with_reducible apply Moves.foldl_snd | with_reducible apply Moves.foldl_fst
    | ((with_reducible apply Moves.snd); assumption) | ((with_reducible apply Moves.fst); assumption) | split | dsimp only

theorem State.chOff_moves (s : State) (n : Nat) :
    Moves [.loom] s (State.chOff s n) := by
  unfold State.chOff
  repeat' first
    | with_reducible apply Moves.refl | ((with_reducible apply Within.of); exact rfl) | intro _
    | with_reducible apply Moves.step (State.setCh_moves ..) | with_reducible apply Moves.ite
    | with_reducible apply Moves.foldl | with_reducible apply Moves.foldl_snd | with_reducible apply Moves.foldl_fst
    | ((with_reducible apply Moves.snd); assumption) | ((with_reducible apply Moves.fst); assumption) | split | dsimp only

theorem State.refTo_moves (s : State) (n : Nat) (r : Bool) :
    Moves [.loom] s (State.refTo s n r) := by
  unfold State.refTo
  repeat' first
    | with_reducible apply Moves.refl | ((with_reducible apply Within.of); exact rfl) | intro _
    | with_reducible apply Moves.step (State.setCh_moves ..) | with_reducible apply Moves.ite
    | with_reducible apply Moves.foldl | with_reducible apply Moves.foldl_snd | with_reducible apply Moves.foldl_fst
    | ((with_reducible apply Moves.snd); assumption) | ((with_reducible apply Moves.fst); assumption) | split | dsimp only

theorem State.refSync_moves (s : State) (n : Nat) :
    Moves [.loom] s (State.refSync s n) := by
  unfold State.refSync
  repeat' first
    | with_reducible apply Moves.refl | ((with_reducible apply Within.of); exact rfl) | intro _
    | with_reducible apply Moves.step (State.refTo_moves ..) | with_reducible apply Moves.ite
    | with_reducible apply Moves.foldl | with_reducible apply Moves.foldl_snd | with_reducible apply Moves.foldl_fst
    | ((with_reducible apply Moves.snd); assumption) | ((with_reducible apply Moves.fst); assumption) | split | dsimp only

theorem State.resume_moves (s : State) (n : Nat) :
    Moves [.loom] s (State.resume s n) := by
  unfold State.resume
  repeat' first
    | with_reducible apply Moves.refl | ((with_reducible apply Within.of); exact rfl) | intro _
    | with_reducible apply Moves.step (State.refTo_moves ..) | with_reducible apply Moves.ite
    | with_reducible apply Moves.foldl | with_reducible apply Moves.foldl_snd | with_reducible apply Moves.foldl_fst
    | ((with_reducible apply Moves.snd); assumption) | ((with_reducible apply Moves.fst); assumption) | split | dsimp only

theorem State.chStop_moves (s : State) (n : Nat) :
    Moves [.regs, .loom] s (State.chStop s n) := by
  unfold State.chStop
  repeat' first
    | with_reducible apply Moves.refl | ((with_reducible apply Within.of); exact rfl) | intro _
    | with_reducible apply Moves.step (State.chOff_moves ..) | with_reducible apply Moves.step (State.setChFlag_moves ..)
    | with_reducible apply Moves.step (State.setCh_moves ..) | with_reducible apply Moves.ite
    | with_reducible apply Moves.foldl | with_reducible apply Moves.foldl_snd | with_reducible apply Moves.foldl_fst
    | ((with_reducible apply Moves.snd); assumption) | ((with_reducible apply Moves.fst); assumption) | split | dsimp only

theorem State.chStopAll_moves (s : State) (n : Nat) :
    Moves [.regs, .loom] s (State.chStopAll s n) := by
  unfold State.chStopAll
  repeat' first
    | with_reducible apply Moves.refl | ((with_reducible apply Within.of); exact rfl) | intro _
    | with_reducible apply Moves.step (State.eachCh_moves (fs := [.regs, .loom]) (hf := ?_) ..)
    | with_reducible apply Moves.step (State.chStop_moves ..) | with_reducible apply Moves.ite
    | with_reducible apply Moves.foldl | with_reducible apply Moves.foldl_snd | with_reducible apply Moves.foldl_fst
    | ((with_reducible apply Moves.snd); assumption) | ((with_reducible apply Moves.fst); assumption) | split | dsimp only

theorem State.chFault_moves (s : State) (n : Nat) :
    Moves [.regs, .loom] s (State.chFault s n) := by
  unfold State.chFault
  repeat' first
    | with_reducible apply Moves.refl | ((with_reducible apply Within.of); exact rfl) | intro _
    | with_reducible apply Moves.step (State.setBit_moves ..) | with_reducible apply Moves.step (State.chStopAll_moves ..)
    | with_reducible apply Moves.ite | with_reducible apply Moves.foldl | with_reducible apply Moves.foldl_snd
    | with_reducible apply Moves.foldl_fst | ((with_reducible apply Moves.snd); assumption)
    | ((with_reducible apply Moves.fst); assumption) | split | dsimp only

theorem State.trip_moves (s : State) (n k : Nat) :
    Moves [.regs, .weft, .loom] s (State.trip s n k) := by
  unfold State.trip
  repeat' first
    | with_reducible apply Moves.refl | ((with_reducible apply Within.of); exact rfl) | intro _
    | with_reducible apply Moves.step (State.chOff_moves ..) | with_reducible apply Moves.step (State.setChFlag_moves ..)
    | with_reducible apply Moves.step (State.setCh_moves ..) | with_reducible apply Moves.step (State.setFld_moves ..)
    | with_reducible apply Moves.step (State.line_moves ..) | with_reducible apply Moves.ite
    | with_reducible apply Moves.foldl | with_reducible apply Moves.foldl_snd | with_reducible apply Moves.foldl_fst
    | ((with_reducible apply Moves.snd); assumption) | ((with_reducible apply Moves.fst); assumption) | split | dsimp only

theorem State.tripsOf_moves (s : State) (n : Nat) :
    Moves [.regs, .weft, .loom] s (State.tripsOf s n) := by
  unfold State.tripsOf
  repeat' first
    | with_reducible apply Moves.refl | ((with_reducible apply Within.of); exact rfl) | intro _
    | with_reducible apply Moves.step (State.trip_moves ..) | with_reducible apply Moves.ite
    | with_reducible apply Moves.foldl | with_reducible apply Moves.foldl_snd | with_reducible apply Moves.foldl_fst
    | ((with_reducible apply Moves.snd); assumption) | ((with_reducible apply Moves.fst); assumption) | split | dsimp only

theorem State.tripAll_moves (s : State) (k : Nat) :
    Moves [.regs, .weft, .loom] s (State.tripAll s k) := by
  unfold State.tripAll
  repeat' first
    | with_reducible apply Moves.refl | ((with_reducible apply Within.of); exact rfl) | intro _
    | with_reducible apply Moves.step (State.eachCh_moves (fs := [.regs, .weft, .loom]) (hf := ?_) ..)
    | with_reducible apply Moves.step (State.trip_moves ..) | with_reducible apply Moves.ite
    | with_reducible apply Moves.foldl | with_reducible apply Moves.foldl_snd | with_reducible apply Moves.foldl_fst
    | ((with_reducible apply Moves.snd); assumption) | ((with_reducible apply Moves.fst); assumption) | split | dsimp only

theorem State.srcMoved_moves (s : State) (k : Nat) (was : Bool) :
    Moves [.regs, .weft, .loom] s (State.srcMoved s k was) := by
  unfold State.srcMoved
  repeat' first
    | with_reducible apply Moves.refl | ((with_reducible apply Within.of); exact rfl) | intro _
    | with_reducible apply Moves.step (State.setSrc_moves ..) | with_reducible apply Moves.step (State.tripAll_moves ..)
    | with_reducible apply Moves.ite | with_reducible apply Moves.foldl | with_reducible apply Moves.foldl_snd
    | with_reducible apply Moves.foldl_fst | ((with_reducible apply Moves.snd); assumption)
    | ((with_reducible apply Moves.fst); assumption) | split | dsimp only

theorem State.showPins_moves (s : State) :
    Moves [.regs] s (State.showPins s) := by
  unfold State.showPins
  repeat' first
    | with_reducible apply Moves.refl | ((with_reducible apply Within.of); exact rfl) | intro _
    | with_reducible apply Moves.step (State.setBit_moves ..) | with_reducible apply Moves.ite
    | with_reducible apply Moves.foldl | with_reducible apply Moves.foldl_snd | with_reducible apply Moves.foldl_fst
    | ((with_reducible apply Moves.snd); assumption) | ((with_reducible apply Moves.fst); assumption) | split | dsimp only

theorem State.shadowWrite_moves (s : State) (n a : Nat) (v : Word) (out : Bool) :
    Moves [.regs, .loom] s (State.shadowWrite s n a v out) := by
  unfold State.shadowWrite
  repeat' first
    | with_reducible apply Moves.refl | ((with_reducible apply Within.of); exact rfl) | intro _
    | with_reducible apply Moves.step (State.wr_moves ..) | with_reducible apply Moves.step (State.setCh_moves ..)
    | with_reducible apply Moves.ite | with_reducible apply Moves.foldl | with_reducible apply Moves.foldl_snd
    | with_reducible apply Moves.foldl_fst | ((with_reducible apply Moves.snd); assumption)
    | ((with_reducible apply Moves.fst); assumption) | split | dsimp only

theorem State.chCommit_moves (s : State) (n t : Nat) :
    Moves [.regs, .live, .weft, .loom] s (State.chCommit s n t) := by
  unfold State.chCommit
  repeat' first
    | with_reducible apply Moves.refl | ((with_reducible apply Within.of); exact rfl) | intro _
    | with_reducible apply Moves.step (State.wrLive_moves ..) | with_reducible apply Moves.step (State.setChFlag_moves ..)
    | with_reducible apply Moves.step (State.setCh_moves ..) | with_reducible apply Moves.step (State.setBit_moves ..)
    | with_reducible apply Moves.step (State.line_moves ..) | with_reducible apply Moves.ite
    | with_reducible apply Moves.foldl | with_reducible apply Moves.foldl_snd | with_reducible apply Moves.foldl_fst
    | ((with_reducible apply Moves.snd); assumption) | ((with_reducible apply Moves.fst); assumption) | split | dsimp only

theorem State.phaseJump_moves (s : State) (n c0 c1 : Nat) :
    Moves [.loom] s (State.phaseJump s n c0 c1) := by
  unfold State.phaseJump
  repeat' first
    | with_reducible apply Moves.refl | ((with_reducible apply Within.of); exact rfl) | intro _
    | with_reducible apply Moves.step (State.setCh_moves ..) | with_reducible apply Moves.ite
    | with_reducible apply Moves.foldl | with_reducible apply Moves.foldl_snd | with_reducible apply Moves.foldl_fst
    | ((with_reducible apply Moves.snd); assumption) | ((with_reducible apply Moves.fst); assumption) | split | dsimp only

theorem State.phaseTo_moves (s : State) (n : Nat) :
    Moves [.loom] s (State.phaseTo s n) := by
  unfold State.phaseTo
  repeat' first
    | with_reducible apply Moves.refl | ((with_reducible apply Within.of); exact rfl) | intro _
    | with_reducible apply Moves.step (State.setCh_moves ..) | with_reducible apply Moves.step (State.phaseJump_moves ..)
    | with_reducible apply Moves.ite | with_reducible apply Moves.foldl | with_reducible apply Moves.foldl_snd
    | with_reducible apply Moves.foldl_fst | ((with_reducible apply Moves.snd); assumption)
    | ((with_reducible apply Moves.fst); assumption) | split | dsimp only

theorem resetLoom_moves (s : State) :
    Moves [.regs, .loom] s (resetLoom s) := by
  unfold resetLoom
  repeat' first
    | with_reducible apply Moves.refl | ((with_reducible apply Within.of); exact rfl) | intro _
    | with_reducible apply Moves.step (State.setLoom_moves ..) | with_reducible apply Moves.step (State.setFlag_moves ..)
    | with_reducible apply Moves.ite | with_reducible apply Moves.foldl | with_reducible apply Moves.foldl_snd
    | with_reducible apply Moves.foldl_fst | ((with_reducible apply Moves.snd); assumption)
    | ((with_reducible apply Moves.fst); assumption) | split | dsimp only

theorem State.showCmps_moves (s : State) :
    Moves [.regs, .loom] s (State.showCmps s) := by
  unfold State.showCmps
  repeat' first
    | with_reducible apply Moves.refl | ((with_reducible apply Within.of); exact rfl) | intro _
    | with_reducible apply Moves.step (State.setBit_moves ..) | with_reducible apply Moves.step (State.setSrc_moves ..)
    | with_reducible apply Moves.ite | with_reducible apply Moves.foldl | with_reducible apply Moves.foldl_snd
    | with_reducible apply Moves.foldl_fst | ((with_reducible apply Moves.snd); assumption)
    | ((with_reducible apply Moves.fst); assumption) | split | dsimp only

theorem State.loomReleased_moves (s : State) :
    Moves [.regs, .loom] s (State.loomReleased s) := by
  unfold State.loomReleased
  repeat' first
    | with_reducible apply Moves.refl | ((with_reducible apply Within.of); exact rfl) | intro _
    | with_reducible apply Moves.step (State.showCmps_moves ..)
    | with_reducible apply Moves.step (State.showPins_moves ..) | with_reducible apply Moves.step (State.setSrc_moves ..)
    | with_reducible apply Moves.ite | with_reducible apply Moves.foldl | with_reducible apply Moves.foldl_snd
    | with_reducible apply Moves.foldl_fst | ((with_reducible apply Moves.snd); assumption)
    | ((with_reducible apply Moves.fst); assumption) | split | dsimp only

end Sys2Proof.Machine
end

