-- ==== Sys2Proof/Laws/MovesReset.lean ====
section
/-!
SUPPORT. Laws/MovesReset.lean: which parts of the state each operation of Machine/Reset.lean moves.
-/
set_option Elab.async false
namespace Sys2Proof.Machine
set_option linter.all false

theorem State.resetRegs_moves (s : State) (blks : List Nat) (keep : Nat → Bool) :
    Moves [.regs, .live] s (State.resetRegs s blks keep) := by
  exact ((s.setRegs_moves Tab.wf_clear).mono (.of rfl)).trans (((s.setRegs _).setLive_moves Tab.wf_clear).mono (.of rfl))

theorem State.orphan_moves (s : State) (l : List Nat) :
    Moves [.fabric] s (State.orphan s l) := by
  unfold State.orphan
  repeat' first
    | with_reducible apply Moves.refl | ((with_reducible apply Within.of); exact rfl) | intro _
    | with_reducible apply Moves.step (State.setFabric_moves ..) | with_reducible apply Moves.ite
    | with_reducible apply Moves.foldl | with_reducible apply Moves.foldl_snd | with_reducible apply Moves.foldl_fst
    | ((with_reducible apply Moves.snd); assumption) | ((with_reducible apply Moves.fst); assumption) | split | dsimp only

theorem State.tbToHoldover_moves (s : State) (n : Nat) :
    Moves [.regs, .weft, .time] s (State.tbToHoldover s n) := by
  unfold State.tbToHoldover
  repeat' first
    | with_reducible apply Moves.refl | ((with_reducible apply Within.of); exact rfl) | intro _
    | with_reducible apply Moves.step (State.line_moves ..) | with_reducible apply Moves.step (State.setTb_moves ..)
    | with_reducible apply Moves.step (State.setFld_moves ..) | with_reducible apply Moves.ite
    | with_reducible apply Moves.foldl | with_reducible apply Moves.foldl_snd | with_reducible apply Moves.foldl_fst
    | ((with_reducible apply Moves.snd); assumption) | ((with_reducible apply Moves.fst); assumption) | split | dsimp only

theorem State.tbFlagsReset_moves (s : State) (n : Nat) :
    Moves [.regs] s (State.tbFlagsReset s n) := by
  unfold State.tbFlagsReset
  repeat' first
    | with_reducible apply Moves.refl | ((with_reducible apply Within.of); exact rfl) | intro _
    | with_reducible apply Moves.step (State.setFld_moves ..) | with_reducible apply Moves.ite
    | with_reducible apply Moves.foldl | with_reducible apply Moves.foldl_snd | with_reducible apply Moves.foldl_fst
    | ((with_reducible apply Moves.snd); assumption) | ((with_reducible apply Moves.fst); assumption) | split | dsimp only

theorem resetTime_moves (s : State) :
    Moves [.regs, .live, .weft, .time] s (resetTime s) := by
  unfold resetTime
  repeat' first
    | with_reducible apply Moves.refl | ((with_reducible apply Within.of); exact rfl) | intro _
    | with_reducible apply Moves.step (State.setTime_moves ..)
    | with_reducible apply Moves.step (State.resetRegs_moves ..)
    | with_reducible apply Moves.step (State.tbToHoldover_moves ..)
    | with_reducible apply Moves.step (State.tbFlagsReset_moves ..) | with_reducible apply Moves.ite
    | with_reducible apply Moves.foldl | with_reducible apply Moves.foldl_snd | with_reducible apply Moves.foldl_fst
    | ((with_reducible apply Moves.snd); assumption) | ((with_reducible apply Moves.fst); assumption) | split | dsimp only

theorem resetWeft_moves (s : State) :
    Moves [.weft] s (resetWeft s) := by
  unfold resetWeft
  repeat' first
    | with_reducible apply Moves.refl | ((with_reducible apply Within.of); exact rfl) | intro _
    | with_reducible apply Moves.step (State.setWeft_moves ..) | with_reducible apply Moves.ite
    | with_reducible apply Moves.foldl | with_reducible apply Moves.foldl_snd | with_reducible apply Moves.foldl_fst
    | ((with_reducible apply Moves.snd); assumption) | ((with_reducible apply Moves.fst); assumption) | split | dsimp only

theorem resetHubBlocks_moves (s : State) :
    Moves [.regs, .live, .ladder, .fabric, .weft, .startup, .ks] s (resetHubBlocks s) := by
  unfold resetHubBlocks
  repeat' first
    | with_reducible apply Moves.refl | ((with_reducible apply Within.of); exact rfl) | intro _
    | with_reducible apply Moves.step (resetWeft_moves ..) | with_reducible apply Moves.step (State.resetRegs_moves ..)
    | with_reducible apply Moves.step (State.setStartup_moves ..)
    | with_reducible apply Moves.step (State.setFabric_moves ..)
    | with_reducible apply Moves.step (State.setLadder_moves ..) | with_reducible apply Moves.step (State.setFld_moves ..)
    | with_reducible apply Moves.step (State.wr_moves ..) | with_reducible apply Moves.step (State.setKs_moves ..)
    | with_reducible apply Moves.ite | with_reducible apply Moves.foldl | with_reducible apply Moves.foldl_snd
    | with_reducible apply Moves.foldl_fst | ((with_reducible apply Moves.snd); assumption)
    | ((with_reducible apply Moves.fst); assumption) | split | dsimp only

theorem State.salMode_moves (s : State) (m : Nat) :
    Moves [.regs] s (State.salMode s m) := by
  unfold State.salMode
  repeat' first
    | with_reducible apply Moves.refl | ((with_reducible apply Within.of); exact rfl) | intro _
    | with_reducible apply Moves.step (State.onBlk_moves (fs := [.regs]) (hf := ?_) ..)
    | with_reducible apply Moves.step (State.setFld_moves ..) | with_reducible apply Moves.ite
    | with_reducible apply Moves.foldl | with_reducible apply Moves.foldl_snd | with_reducible apply Moves.foldl_fst
    | ((with_reducible apply Moves.snd); assumption) | ((with_reducible apply Moves.fst); assumption) | split | dsimp only

theorem State.modeFollows_moves (s : State) :
    Moves [.regs] s (State.modeFollows s) := by
  unfold State.modeFollows
  repeat' first
    | with_reducible apply Moves.refl | ((with_reducible apply Within.of); exact rfl) | intro _
    | with_reducible apply Moves.step (State.salMode_moves ..) | with_reducible apply Moves.ite
    | with_reducible apply Moves.foldl | with_reducible apply Moves.foldl_snd | with_reducible apply Moves.foldl_fst
    | ((with_reducible apply Moves.snd); assumption) | ((with_reducible apply Moves.fst); assumption) | split | dsimp only

theorem State.zwReset_moves (s : State) :
    Moves [.regs, .zw] s (State.zwReset s) := by
  unfold State.zwReset
  repeat' first
    | with_reducible apply Moves.refl | ((with_reducible apply Within.of); exact rfl) | intro _
    | with_reducible apply Moves.step (State.salMode_moves ..) | with_reducible apply Moves.step (State.setZw_moves ..)
    | with_reducible apply Moves.ite | with_reducible apply Moves.foldl | with_reducible apply Moves.foldl_snd
    | with_reducible apply Moves.foldl_fst | ((with_reducible apply Moves.snd); assumption)
    | ((with_reducible apply Moves.fst); assumption) | split | dsimp only

theorem resetPowerRegion_moves (s : State) :
    Moves [.regs, .live, .fabric, .loom, .twill, .sense, .sal, .grid] s (resetPowerRegion s) := by
  unfold resetPowerRegion
  repeat' first
    | with_reducible apply Moves.refl | ((with_reducible apply Within.of); exact rfl) | intro _
    | with_reducible apply Moves.step (State.resetRegs_moves ..) | with_reducible apply Moves.step (State.orphan_moves ..)
    | with_reducible apply Moves.step (State.setGrid_moves ..) | with_reducible apply Moves.step (State.setSal_moves ..)
    | with_reducible apply Moves.step (State.setSense_moves ..) | with_reducible apply Moves.step (resetTwill_moves ..)
    | with_reducible apply Moves.step (resetLoom_moves ..) | with_reducible apply Moves.ite
    | with_reducible apply Moves.foldl | with_reducible apply Moves.foldl_snd | with_reducible apply Moves.foldl_fst
    | ((with_reducible apply Moves.snd); assumption) | ((with_reducible apply Moves.fst); assumption) | split | dsimp only

theorem keepRstLvl_moves (old s : State) :
    Moves [.regs] s (keepRstLvl old s) := by
  unfold keepRstLvl
  repeat' first
    | with_reducible apply Moves.refl | ((with_reducible apply Within.of); exact rfl) | intro _
    | with_reducible apply Moves.step (State.setFlag_moves ..) | with_reducible apply Moves.ite
    | with_reducible apply Moves.foldl | with_reducible apply Moves.foldl_snd | with_reducible apply Moves.foldl_fst
    | ((with_reducible apply Moves.snd); assumption) | ((with_reducible apply Moves.fst); assumption) | split | dsimp only

theorem resetLinkRegion_moves (s : State) :
    Moves [.regs, .live, .fabric, .weft, .time, .zw, .links, .ses, .can] s (resetLinkRegion s) := by
  unfold resetLinkRegion
  repeat' first
    | with_reducible apply Moves.refl | ((with_reducible apply Within.of); exact rfl) | intro _
    | with_reducible apply Moves.step (keepRstLvl_moves ..) | with_reducible apply Moves.step (State.resetRegs_moves ..)
    | with_reducible apply Moves.step (resetTime_moves ..) | with_reducible apply Moves.step (State.zwReset_moves ..)
    | with_reducible apply Moves.step (State.orphan_moves ..) | with_reducible apply Moves.step (State.setCan_moves ..)
    | with_reducible apply Moves.step (State.setSes_moves ..) | with_reducible apply Moves.step (State.setLinks_moves ..)
    | with_reducible apply Moves.ite | with_reducible apply Moves.foldl | with_reducible apply Moves.foldl_snd
    | with_reducible apply Moves.foldl_fst | ((with_reducible apply Moves.snd); assumption)
    | ((with_reducible apply Moves.fst); assumption) | split | dsimp only

theorem resetLedgerRegion_moves (s : State) :
    Moves [.regs, .live, .fabric, .weft, .ledger] s (resetLedgerRegion s) := by
  unfold resetLedgerRegion
  repeat' first
    | with_reducible apply Moves.refl | ((with_reducible apply Within.of); exact rfl) | intro _
    | with_reducible apply Moves.step (State.resetRegs_moves ..) | with_reducible apply Moves.step (State.setFld_moves ..)
    | with_reducible apply Moves.step (State.setLedger_moves ..) | with_reducible apply Moves.step (State.orphan_moves ..)
    | with_reducible apply Moves.step (State.setWeft_moves ..) | with_reducible apply Moves.ite
    | with_reducible apply Moves.foldl | with_reducible apply Moves.foldl_snd | with_reducible apply Moves.foldl_fst
    | ((with_reducible apply Moves.snd); assumption) | ((with_reducible apply Moves.fst); assumption) | split | dsimp only

theorem resetThermal_moves (s : State) :
    Moves [.regs, .live, .thermal] s (resetThermal s) := by
  unfold resetThermal
  repeat' first
    | with_reducible apply Moves.refl | ((with_reducible apply Within.of); exact rfl) | intro _
    | with_reducible apply Moves.step (State.setThermal_moves ..)
    | with_reducible apply Moves.step (State.resetRegs_moves ..) | with_reducible apply Moves.ite
    | with_reducible apply Moves.foldl | with_reducible apply Moves.foldl_snd | with_reducible apply Moves.foldl_fst
    | ((with_reducible apply Moves.snd); assumption) | ((with_reducible apply Moves.fst); assumption) | split | dsimp only

theorem State.fansUp_moves (s : State) :
    Moves [.thermal] s (State.fansUp s) := by
  unfold State.fansUp
  repeat' first
    | with_reducible apply Moves.refl | ((with_reducible apply Within.of); exact rfl) | intro _
    | with_reducible apply Moves.step (State.setThermal_moves ..) | with_reducible apply Moves.ite
    | with_reducible apply Moves.foldl | with_reducible apply Moves.foldl_snd | with_reducible apply Moves.foldl_fst
    | ((with_reducible apply Moves.snd); assumption) | ((with_reducible apply Moves.fst); assumption) | split | dsimp only

theorem resetGuardRegion_moves (s : State) :
    Moves [.regs, .live, .thermal] s (resetGuardRegion s) := by
  unfold resetGuardRegion
  repeat' first
    | with_reducible apply Moves.refl | ((with_reducible apply Within.of); exact rfl) | intro _
    | with_reducible apply Moves.step (resetThermal_moves ..) | with_reducible apply Moves.step (resetSwitches_moves ..)
    | with_reducible apply Moves.ite | with_reducible apply Moves.foldl | with_reducible apply Moves.foldl_snd
    | with_reducible apply Moves.foldl_fst | ((with_reducible apply Moves.snd); assumption)
    | ((with_reducible apply Moves.fst); assumption) | split | dsimp only

theorem State.resetsMoved_moves (s : State) :
    Moves [.regs, .weft, .selv, .sense, .hs] s (State.resetsMoved s) := by
  unfold State.resetsMoved
  repeat' first
    | with_reducible apply Moves.refl | ((with_reducible apply Within.of); exact rfl) | intro _
    | with_reducible apply Moves.step (State.notifySelvedge_moves ..)
    | with_reducible apply Moves.step (State.switchesSync_moves ..) | with_reducible apply Moves.ite
    | with_reducible apply Moves.foldl | with_reducible apply Moves.foldl_snd | with_reducible apply Moves.foldl_fst
    | ((with_reducible apply Moves.snd); assumption) | ((with_reducible apply Moves.fst); assumption) | split | dsimp only

theorem orderRegionReset_moves (r : Nat) (commanded : Bool) (s : State) :
    Moves [.regs, .live, .ladder, .fabric, .weft, .time, .selv, .loom, .twill, .sense, .hs, .sal, .zw, .grid, .links, .ses, .thermal, .ledger, .can] s (orderRegionReset r commanded s) := by
  unfold orderRegionReset
  repeat' first
    | with_reducible apply Moves.refl | ((with_reducible apply Within.of); exact rfl) | intro _
    | with_reducible apply Moves.step (State.setBit_moves ..) | with_reducible apply Moves.step (State.setRegRec_moves ..)
    | with_reducible apply Moves.step (resetPowerRegion_moves ..)
    | with_reducible apply Moves.step (resetLinkRegion_moves ..)
    | with_reducible apply Moves.step (resetLedgerRegion_moves ..)
    | with_reducible apply Moves.step (resetGuardRegion_moves ..)
    | with_reducible apply Moves.step (State.resetsMoved_moves ..) | with_reducible apply Moves.ite
    | with_reducible apply Moves.foldl | with_reducible apply Moves.foldl_snd | with_reducible apply Moves.foldl_fst
    | ((with_reducible apply Moves.snd); assumption) | ((with_reducible apply Moves.fst); assumption) | split | dsimp only

theorem chipSafeState_moves (s : State) :
    Moves [.regs, .fabric, .weft, .power, .selv, .sense, .hs] s (chipSafeState s) := by
  unfold chipSafeState
  repeat' first
    | with_reducible apply Moves.refl | ((with_reducible apply Within.of); exact rfl) | intro _
    | with_reducible apply Moves.step (State.setBit_moves ..) | with_reducible apply Moves.step (State.setPower_moves ..)
    | with_reducible apply Moves.step (State.resetsMoved_moves ..)
    | with_reducible apply Moves.step (State.setFabric_moves ..) | with_reducible apply Moves.ite
    | with_reducible apply Moves.foldl | with_reducible apply Moves.foldl_snd | with_reducible apply Moves.foldl_fst
    | ((with_reducible apply Moves.snd); assumption) | ((with_reducible apply Moves.fst); assumption) | split | dsimp only

end Sys2Proof.Machine
end

