-- ==== Sys2Proof/Laws/MovesFaults.lean ====
section
/-!
SUPPORT. Laws/MovesFaults.lean: which parts of the state each operation of Machine/Faults.lean moves.
-/
set_option Elab.async false
namespace Sys2Proof.Machine
set_option linter.all false

theorem State.recordFault_moves (s : State) (base blk cell code grade : Nat) (first : Bool) :
    Moves [.regs] s (State.recordFault s base blk cell code grade first) := by
  unfold State.recordFault
  repeat' first
    | with_reducible apply Moves.refl | ((with_reducible apply Within.of); exact rfl) | intro _
    | with_reducible apply Moves.step (State.bump_moves ..) | with_reducible apply Moves.step (State.setFld_moves ..)
    | with_reducible apply Moves.step (State.wrNat_moves ..) | with_reducible apply Moves.ite
    | with_reducible apply Moves.foldl | with_reducible apply Moves.foldl_snd | with_reducible apply Moves.foldl_fst
    | ((with_reducible apply Moves.snd); assumption) | ((with_reducible apply Moves.fst); assumption) | split | dsimp only

theorem State.recordBlk_moves (s : State) (blk cell code grade : Nat) :
    Moves [.regs, .ladder] s (State.recordBlk s blk cell code grade) := by
  unfold State.recordBlk
  repeat' first
    | with_reducible apply Moves.refl | ((with_reducible apply Within.of); exact rfl) | intro _
    | with_reducible apply Moves.step (State.recordFault_moves ..)
    | with_reducible apply Moves.step (State.setBlkRec_moves ..) | with_reducible apply Moves.ite
    | with_reducible apply Moves.foldl | with_reducible apply Moves.foldl_snd | with_reducible apply Moves.foldl_fst
    | ((with_reducible apply Moves.snd); assumption) | ((with_reducible apply Moves.fst); assumption) | split | dsimp only

theorem State.markCell_moves (s : State) (blk cell : Nat) :
    Moves [.regs] s (State.markCell s blk cell) := by
  unfold State.markCell
  repeat' first
    | with_reducible apply Moves.refl | ((with_reducible apply Within.of); exact rfl) | intro _
    | with_reducible apply Moves.step (State.setBit_moves ..) | with_reducible apply Moves.ite
    | with_reducible apply Moves.foldl | with_reducible apply Moves.foldl_snd | with_reducible apply Moves.foldl_fst
    | ((with_reducible apply Moves.snd); assumption) | ((with_reducible apply Moves.fst); assumption) | split | dsimp only

theorem State.note_moves (s : State) (blk cell code : Nat) :
    Moves [.regs, .ladder] s (State.note s blk cell code) := by
  unfold State.note
  repeat' first
    | with_reducible apply Moves.refl | ((with_reducible apply Within.of); exact rfl) | intro _
    | with_reducible apply Moves.step (State.recordBlk_moves ..)
    | with_reducible apply Moves.step (State.setBlkRec_moves ..) | with_reducible apply Moves.ite
    | with_reducible apply Moves.foldl | with_reducible apply Moves.foldl_snd | with_reducible apply Moves.foldl_fst
    | ((with_reducible apply Moves.snd); assumption) | ((with_reducible apply Moves.fst); assumption) | split | dsimp only

theorem State.closeBlk_moves (s : State) (blk : Nat) :
    Moves [.regs, .ladder] s (State.closeBlk s blk) := by
  unfold State.closeBlk
  repeat' first
    | with_reducible apply Moves.refl | ((with_reducible apply Within.of); exact rfl) | intro _
    | with_reducible apply Moves.step (State.setBlkRec_moves ..)
    | with_reducible apply Moves.step (State.setFlag_moves ..) | with_reducible apply Moves.ite
    | with_reducible apply Moves.foldl | with_reducible apply Moves.foldl_snd | with_reducible apply Moves.foldl_fst
    | ((with_reducible apply Moves.snd); assumption) | ((with_reducible apply Moves.fst); assumption) | split | dsimp only

theorem State.recoveredBlk_moves (s : State) (blk : Nat) :
    Moves [.regs, .ladder] s (State.recoveredBlk s blk) := by
  unfold State.recoveredBlk
  repeat' first
    | with_reducible apply Moves.refl | ((with_reducible apply Within.of); exact rfl) | intro _
    | with_reducible apply Moves.step (State.setFlag_moves ..) | with_reducible apply Moves.step (State.closeBlk_moves ..)
    | with_reducible apply Moves.ite | with_reducible apply Moves.foldl | with_reducible apply Moves.foldl_snd
    | with_reducible apply Moves.foldl_fst | ((with_reducible apply Moves.snd); assumption)
    | ((with_reducible apply Moves.fst); assumption) | split | dsimp only

theorem State.recovers_moves (s : State) (blk code : Nat) :
    Moves [.regs, .ladder] s (State.recovers s blk code) := by
  unfold State.recovers
  repeat' first
    | with_reducible apply Moves.refl | ((with_reducible apply Within.of); exact rfl) | intro _
    | with_reducible apply Moves.step (State.recoveredBlk_moves ..) | with_reducible apply Moves.ite
    | with_reducible apply Moves.foldl | with_reducible apply Moves.foldl_snd | with_reducible apply Moves.foldl_fst
    | ((with_reducible apply Moves.snd); assumption) | ((with_reducible apply Moves.fst); assumption) | split | dsimp only

theorem State.recoversCell_moves (s : State) (blk code cell : Nat) :
    Moves [.regs, .ladder] s (State.recoversCell s blk code cell) := by
  unfold State.recoversCell
  repeat' first
    | with_reducible apply Moves.refl | ((with_reducible apply Within.of); exact rfl) | intro _
    | with_reducible apply Moves.step (State.recovers_moves ..) | with_reducible apply Moves.ite
    | with_reducible apply Moves.foldl | with_reducible apply Moves.foldl_snd | with_reducible apply Moves.foldl_fst
    | ((with_reducible apply Moves.snd); assumption) | ((with_reducible apply Moves.fst); assumption) | split | dsimp only

theorem State.contain_moves (s : State) (blk cell code : Nat) (done : Bool) :
    Moves [.regs, .ladder] s (State.contain s blk cell code done) := by
  unfold State.contain
  repeat' first
    | with_reducible apply Moves.refl | ((with_reducible apply Within.of); exact rfl) | intro _
    | with_reducible apply Moves.step (State.markCell_moves ..)
    | with_reducible apply Moves.step (State.recordBlk_moves ..)
    | with_reducible apply Moves.step (State.setFlag_moves ..)
    | with_reducible apply Moves.step (State.setBlkRec_moves ..)
    | with_reducible apply Moves.step (State.recoveredBlk_moves ..) | with_reducible apply Moves.ite
    | with_reducible apply Moves.foldl | with_reducible apply Moves.foldl_snd | with_reducible apply Moves.foldl_fst
    | ((with_reducible apply Moves.snd); assumption) | ((with_reducible apply Moves.fst); assumption) | split | dsimp only

theorem State.chipFault_moves (s : State) (blk cell code : Nat) :
    Moves [.regs, .ladder, .fabric, .weft, .power, .selv, .sense, .hs] s (State.chipFault s blk cell code) := by
  unfold State.chipFault
  repeat' first
    | with_reducible apply Moves.refl | ((with_reducible apply Within.of); exact rfl) | intro _
    | with_reducible apply Moves.step (State.recordFault_moves ..)
    | with_reducible apply Moves.step (State.setLadder_moves ..)
    | with_reducible apply Moves.step (State.setFlag_moves ..) | with_reducible apply Moves.step (chipSafeState_moves ..)
    | with_reducible apply Moves.ite | with_reducible apply Moves.foldl | with_reducible apply Moves.foldl_snd
    | with_reducible apply Moves.foldl_fst | ((with_reducible apply Moves.snd); assumption)
    | ((with_reducible apply Moves.fst); assumption) | split | dsimp only

theorem State.chip_moves (s : State) (blk cell code : Nat) :
    Moves [.regs, .ladder, .fabric, .weft, .power, .selv, .sense, .hs] s (State.chip s blk cell code) := by
  unfold State.chip
  repeat' first
    | with_reducible apply Moves.refl | ((with_reducible apply Within.of); exact rfl) | intro _
    | with_reducible apply Moves.step (State.chipFault_moves ..)
    | with_reducible apply Moves.step (State.markCell_moves ..)
    | with_reducible apply Moves.step (State.recordBlk_moves ..) | with_reducible apply Moves.ite
    | with_reducible apply Moves.foldl | with_reducible apply Moves.foldl_snd | with_reducible apply Moves.foldl_fst
    | ((with_reducible apply Moves.snd); assumption) | ((with_reducible apply Moves.fst); assumption) | split | dsimp only

theorem State.regionFault_moves (s : State) (r blk cell code : Nat) :
    Moves [.regs, .live, .ladder, .fabric, .weft, .power, .time, .selv, .loom, .twill, .sense, .hs, .sal, .zw, .grid, .links, .ses, .thermal, .ledger, .can] s (State.regionFault s r blk cell code) := by
  unfold State.regionFault
  repeat' first
    | with_reducible apply Moves.refl | ((with_reducible apply Within.of); exact rfl) | intro _
    | with_reducible apply Moves.step (State.recordFault_moves ..)
    | with_reducible apply Moves.step (State.setRegRec_moves ..)
    | with_reducible apply Moves.step (State.chipFault_moves ..)
    | with_reducible apply Moves.step (State.setFlag_moves ..)
    | with_reducible apply Moves.step (orderRegionReset_moves ..) | with_reducible apply Moves.ite
    | with_reducible apply Moves.foldl | with_reducible apply Moves.foldl_snd | with_reducible apply Moves.foldl_fst
    | ((with_reducible apply Moves.snd); assumption) | ((with_reducible apply Moves.fst); assumption) | split | dsimp only

theorem State.region_moves (s : State) (blk cell code : Nat) (rs : List Nat) :
    Moves [.regs, .live, .ladder, .fabric, .weft, .power, .time, .selv, .loom, .twill, .sense, .hs, .sal, .zw, .grid, .links, .ses, .thermal, .ledger, .can] s (State.region s blk cell code rs) := by
  unfold State.region
  repeat' first
    | with_reducible apply Moves.refl | ((with_reducible apply Within.of); exact rfl) | intro _
    | with_reducible apply Moves.step (State.markCell_moves ..)
    | with_reducible apply Moves.step (State.recordBlk_moves ..)
    | with_reducible apply Moves.step (State.regionFault_moves ..) | with_reducible apply Moves.ite
    | with_reducible apply Moves.foldl | with_reducible apply Moves.foldl_snd | with_reducible apply Moves.foldl_fst
    | ((with_reducible apply Moves.snd); assumption) | ((with_reducible apply Moves.fst); assumption) | split | dsimp only

theorem State.pairFault_moves (s : State) (code : Nat) :
    Moves [.regs, .ladder, .fabric, .weft, .power, .selv, .sense, .hs] s (State.pairFault s code) := by
  unfold State.pairFault
  repeat' first
    | with_reducible apply Moves.refl | ((with_reducible apply Within.of); exact rfl) | intro _
    | with_reducible apply Moves.step (State.setFld_moves ..)
    | with_reducible apply Moves.step (State.refreshOuts_moves ..)
    | with_reducible apply Moves.step (State.setSelv_moves ..) | with_reducible apply Moves.step (State.setCtx_moves ..)
    | with_reducible apply Moves.step (State.chip_moves ..) | with_reducible apply Moves.ite
    | with_reducible apply Moves.foldl | with_reducible apply Moves.foldl_snd | with_reducible apply Moves.foldl_fst
    | ((with_reducible apply Moves.snd); assumption) | ((with_reducible apply Moves.fst); assumption) | split | dsimp only

theorem State.captureBusError_moves (s : State) (slot addr : Nat) (kind : Nat) (write : Bool) :
    Moves [.regs] s (State.captureBusError s slot addr kind write) := by
  unfold State.captureBusError
  repeat' first
    | with_reducible apply Moves.refl | ((with_reducible apply Within.of); exact rfl) | intro _
    | with_reducible apply Moves.step (State.wrNat_moves ..) | with_reducible apply Moves.ite
    | with_reducible apply Moves.foldl | with_reducible apply Moves.foldl_snd | with_reducible apply Moves.foldl_fst
    | ((with_reducible apply Moves.snd); assumption) | ((with_reducible apply Moves.fst); assumption) | split | dsimp only

theorem State.refuseAccess_moves (s : State) (slot addr : Nat) (write : Bool) :
    Moves [.regs, .ladder] s (State.refuseAccess s slot addr write) := by
  unfold State.refuseAccess
  repeat' first
    | with_reducible apply Moves.refl | ((with_reducible apply Within.of); exact rfl) | intro _
    | with_reducible apply Moves.step (State.note_moves ..)
    | with_reducible apply Moves.step (State.captureBusError_moves ..) | with_reducible apply Moves.ite
    | with_reducible apply Moves.foldl | with_reducible apply Moves.foldl_snd | with_reducible apply Moves.foldl_fst
    | ((with_reducible apply Moves.snd); assumption) | ((with_reducible apply Moves.fst); assumption) | split | dsimp only

end Sys2Proof.Machine
end

