-- ==== Sys2Proof/Laws/MovesBrineOps.lean ====
section
/-!
SUPPORT. Laws/MovesBrineOps.lean: which parts of the state each operation of Machine/BrineOps.lean moves.
-/
set_option Elab.async false
namespace Sys2Proof.Machine
set_option linter.all false

theorem State.brSetActive_moves (s : State) (m : Nat) :
    Moves [.regs, .weft] s (State.brSetActive s m) := by
  unfold State.brSetActive
  repeat' first
    | with_reducible apply Moves.refl | ((with_reducible apply Within.of); exact rfl) | intro _
    | with_reducible apply Moves.step (State.line_moves ..) | with_reducible apply Moves.step (State.setFld_moves ..)
    | with_reducible apply Moves.ite | with_reducible apply Moves.foldl | with_reducible apply Moves.foldl_snd
    | with_reducible apply Moves.foldl_fst | ((with_reducible apply Moves.snd); assumption)
    | ((with_reducible apply Moves.fst); assumption) | split | dsimp only

theorem State.brPgSync_moves (s : State) :
    Moves [.regs, .weft] s (State.brPgSync s) := by
  unfold State.brPgSync
  repeat' first
    | with_reducible apply Moves.refl | ((with_reducible apply Within.of); exact rfl) | intro _
    | with_reducible apply Moves.step (State.setFlag_moves ..) | with_reducible apply Moves.step (State.line_moves ..)
    | with_reducible apply Moves.ite | with_reducible apply Moves.foldl | with_reducible apply Moves.foldl_snd
    | with_reducible apply Moves.foldl_fst | ((with_reducible apply Moves.snd); assumption)
    | ((with_reducible apply Moves.fst); assumption) | split | dsimp only

theorem State.brGatesOff_moves (s : State) :
    Moves [.regs, .weft, .brine] s (State.brGatesOff s) := by
  unfold State.brGatesOff
  repeat' first
    | with_reducible apply Moves.refl | ((with_reducible apply Within.of); exact rfl) | intro _
    | with_reducible apply Moves.step (State.brSetActive_moves ..)
    | with_reducible apply Moves.step (State.setFlag_moves ..) | with_reducible apply Moves.step (State.brPgSync_moves ..)
    | with_reducible apply Moves.step (State.setBrine_moves ..) | with_reducible apply Moves.ite
    | with_reducible apply Moves.foldl | with_reducible apply Moves.foldl_snd | with_reducible apply Moves.foldl_fst
    | ((with_reducible apply Moves.snd); assumption) | ((with_reducible apply Moves.fst); assumption) | split | dsimp only

theorem State.brCfgCheck_moves (s : State) :
    Moves [.regs] s (State.brCfgCheck s) := by
  unfold State.brCfgCheck
  repeat' first
    | with_reducible apply Moves.refl | ((with_reducible apply Within.of); exact rfl) | intro _
    | with_reducible apply Moves.step (State.setFlag_moves ..) | with_reducible apply Moves.ite
    | with_reducible apply Moves.foldl | with_reducible apply Moves.foldl_snd | with_reducible apply Moves.foldl_fst
    | ((with_reducible apply Moves.snd); assumption) | ((with_reducible apply Moves.fst); assumption) | split | dsimp only

theorem State.brPhaseEnable_moves (s : State) (was : Nat) :
    Moves [.regs, .weft, .brine] s (State.brPhaseEnable s was) := by
  unfold State.brPhaseEnable
  repeat' first
    | with_reducible apply Moves.refl | ((with_reducible apply Within.of); exact rfl) | intro _
    | with_reducible apply Moves.step (State.brSetActive_moves ..)
    | with_reducible apply Moves.step (State.setBrine_moves ..) | with_reducible apply Moves.ite
    | with_reducible apply Moves.foldl | with_reducible apply Moves.foldl_snd | with_reducible apply Moves.foldl_fst
    | ((with_reducible apply Moves.snd); assumption) | ((with_reducible apply Moves.fst); assumption) | split | dsimp only

theorem State.brCtrlWrite_moves (s : State) (v : Word) :
    Moves [.regs, .weft, .brine] s (State.brCtrlWrite s v) := by
  unfold State.brCtrlWrite
  repeat' first
    | with_reducible apply Moves.refl | ((with_reducible apply Within.of); exact rfl) | intro _
    | with_reducible apply Moves.step (State.wr_moves ..) | with_reducible apply Moves.step (State.setBrine_moves ..)
    | with_reducible apply Moves.step (State.brCfgCheck_moves ..)
    | with_reducible apply Moves.step (State.setFlag_moves ..)
    | with_reducible apply Moves.step (State.brSetActive_moves ..)
    | with_reducible apply Moves.step (State.brGatesOff_moves ..)
    | with_reducible apply Moves.step (State.setFld_moves ..)
    | with_reducible apply Moves.step (State.brPhaseEnable_moves ..) | with_reducible apply Moves.ite
    | with_reducible apply Moves.foldl | with_reducible apply Moves.foldl_snd | with_reducible apply Moves.foldl_fst
    | ((with_reducible apply Moves.snd); assumption) | ((with_reducible apply Moves.fst); assumption) | split | dsimp only

theorem State.brLoop_moves (s : State) :
    Moves [.brine] s (State.brLoop s) := by
  unfold State.brLoop
  repeat' first
    | with_reducible apply Moves.refl | ((with_reducible apply Within.of); exact rfl) | intro _
    | with_reducible apply Moves.step (State.setBrine_moves ..) | with_reducible apply Moves.ite
    | with_reducible apply Moves.foldl | with_reducible apply Moves.foldl_snd | with_reducible apply Moves.foldl_fst
    | ((with_reducible apply Moves.snd); assumption) | ((with_reducible apply Moves.fst); assumption) | split | dsimp only

theorem State.setBrGate_moves (s : State) (p : Nat) (g : BrGate) :
    Moves [.brine] s (State.setBrGate s p g) := by
  unfold State.setBrGate
  repeat' first
    | with_reducible apply Moves.refl | ((with_reducible apply Within.of); exact rfl) | intro _
    | with_reducible apply Moves.step (State.setBrine_moves ..) | with_reducible apply Moves.ite
    | with_reducible apply Moves.foldl | with_reducible apply Moves.foldl_snd | with_reducible apply Moves.foldl_fst
    | ((with_reducible apply Moves.snd); assumption) | ((with_reducible apply Moves.fst); assumption) | split | dsimp only

theorem State.brSense_moves (s : State) (x : BrSense) :
    Moves [.brine] s (State.brSense s x) := by
  unfold State.brSense
  repeat' first
    | with_reducible apply Moves.refl | ((with_reducible apply Within.of); exact rfl) | intro _
    | with_reducible apply Moves.step (State.setBrGate_moves ..) | with_reducible apply Moves.ite
    | with_reducible apply Moves.foldl | with_reducible apply Moves.foldl_snd | with_reducible apply Moves.foldl_fst
    | ((with_reducible apply Moves.snd); assumption) | ((with_reducible apply Moves.fst); assumption) | split | dsimp only

theorem State.brFades_moves (s : State) :
    Moves [.regs, .weft, .brine] s (State.brFades s) := by
  unfold State.brFades
  repeat' first
    | with_reducible apply Moves.refl | ((with_reducible apply Within.of); exact rfl) | intro _
    | with_reducible apply Moves.step (State.brSetActive_moves ..)
    | with_reducible apply Moves.step (State.setBrine_moves ..) | with_reducible apply Moves.ite
    | with_reducible apply Moves.foldl | with_reducible apply Moves.foldl_snd | with_reducible apply Moves.foldl_fst
    | ((with_reducible apply Moves.snd); assumption) | ((with_reducible apply Moves.fst); assumption) | split | dsimp only

theorem State.brShedSync_moves (s : State) :
    Moves [.regs, .weft, .brine] s (State.brShedSync s) := by
  unfold State.brShedSync
  repeat' first
    | with_reducible apply Moves.refl | ((with_reducible apply Within.of); exact rfl) | intro _
    | with_reducible apply Moves.step (State.setBrine_moves ..)
    | with_reducible apply Moves.step (State.brSetActive_moves ..) | with_reducible apply Moves.ite
    | with_reducible apply Moves.foldl | with_reducible apply Moves.foldl_snd | with_reducible apply Moves.foldl_fst
    | ((with_reducible apply Moves.snd); assumption) | ((with_reducible apply Moves.fst); assumption) | split | dsimp only

theorem State.brStep_moves (s : State) :
    Moves [.regs, .weft, .brine] s (State.brStep s) := by
  unfold State.brStep
  repeat' first
    | with_reducible apply Moves.refl | ((with_reducible apply Within.of); exact rfl) | intro _
    | with_reducible apply Moves.step (State.line_moves ..) | with_reducible apply Moves.step (State.brSetActive_moves ..)
    | with_reducible apply Moves.step (State.setBrine_moves ..) | with_reducible apply Moves.ite
    | with_reducible apply Moves.foldl | with_reducible apply Moves.foldl_snd | with_reducible apply Moves.foldl_fst
    | ((with_reducible apply Moves.snd); assumption) | ((with_reducible apply Moves.fst); assumption) | split | dsimp only

theorem State.brRuns_moves (s : State) :
    Moves [.regs, .ladder, .brine] s (State.brRuns s) := by
  unfold State.brRuns
  repeat' first
    | with_reducible apply Moves.refl | ((with_reducible apply Within.of); exact rfl) | intro _
    | with_reducible apply Moves.step (State.recoversCell_moves ..)
    | with_reducible apply Moves.step (State.setBrine_moves ..) | with_reducible apply Moves.ite
    | with_reducible apply Moves.foldl | with_reducible apply Moves.foldl_snd | with_reducible apply Moves.foldl_fst
    | ((with_reducible apply Moves.snd); assumption) | ((with_reducible apply Moves.fst); assumption) | split | dsimp only

end Sys2Proof.Machine
end

