-- ==== Sys2Proof/Laws/MovesBrineCommands.lean ====
section
/-!
SUPPORT. Laws/MovesBrineCommands.lean: which parts of the state each operation of Machine/BrineCommands.lean moves.
-/
set_option Elab.async false
namespace Sys2Proof.Machine
set_option linter.all false

theorem execBrineEnable_moves (data : Word) (s : State) :
    Goes [.regs, .weft, .brine] s (execBrineEnable data s) := by
  unfold execBrineEnable
  repeat' first
    | with_reducible apply Moves.refl | ((with_reducible apply Within.of); exact rfl) | intro _
    | with_reducible apply Goes.next | with_reducible apply Goes.fault | with_reducible apply Goes.ite
    | with_reducible apply Moves.step (State.onBlk_moves (fs := [.regs, .weft, .brine]) (hf := ?_) ..)
    | with_reducible apply Moves.step (State.brCtrlWrite_moves ..) | with_reducible apply Moves.ite
    | with_reducible apply Moves.foldl | with_reducible apply Moves.foldl_snd | with_reducible apply Moves.foldl_fst
    | ((with_reducible apply Moves.snd); assumption) | ((with_reducible apply Moves.fst); assumption) | split | dsimp only

theorem execBrinePeriod_moves (vout : BitVec 16) (trk : BitVec 12) (i : BitVec 64) (sense : List BrSense) (s : State) :
    Goes [.regs, .ladder, .weft, .brine] s (execBrinePeriod vout trk i sense s) := by
  unfold execBrinePeriod
  repeat' first
    | with_reducible apply Moves.refl | ((with_reducible apply Within.of); exact rfl) | intro _
    | with_reducible apply Goes.next | with_reducible apply Goes.fault | with_reducible apply Goes.ite
    | with_reducible apply Moves.step (State.onBlk_moves (fs := [.regs, .ladder, .weft, .brine]) (hf := ?_) ..)
    | with_reducible apply Moves.step (State.setFld_moves ..) | with_reducible apply Moves.step (State.setBrine_moves ..)
    | with_reducible apply Moves.step (State.setFlag_moves ..) | with_reducible apply Moves.step (State.brPgSync_moves ..)
    | with_reducible apply Moves.step (State.brLoop_moves ..) | with_reducible apply Moves.step (State.brStep_moves ..)
    | with_reducible apply Moves.step (State.brShedSync_moves ..)
    | with_reducible apply Moves.step (State.brFades_moves ..) | with_reducible apply Moves.step (State.brRuns_moves ..)
    | with_reducible apply Moves.step (State.brSense_moves ..) | with_reducible apply Moves.ite
    | with_reducible apply Moves.foldl | with_reducible apply Moves.foldl_snd | with_reducible apply Moves.foldl_fst
    | ((with_reducible apply Moves.snd); assumption) | ((with_reducible apply Moves.fst); assumption) | split | dsimp only

theorem execBrineVsetWrite_moves (data : Word) (s : State) :
    Goes [.regs] s (execBrineVsetWrite data s) := by
  unfold execBrineVsetWrite
  repeat' first
    | with_reducible apply Moves.refl | ((with_reducible apply Within.of); exact rfl) | intro _
    | with_reducible apply Goes.next | with_reducible apply Goes.fault | with_reducible apply Goes.ite
    | with_reducible apply Moves.step (State.onBlk_moves (fs := [.regs]) (hf := ?_) ..)
    | with_reducible apply Moves.step (State.wr_moves ..) | with_reducible apply Moves.ite
    | with_reducible apply Moves.foldl | with_reducible apply Moves.foldl_snd | with_reducible apply Moves.foldl_fst
    | ((with_reducible apply Moves.snd); assumption) | ((with_reducible apply Moves.fst); assumption) | split | dsimp only

theorem State.brTrim_moves (s : State) (n : Nat) (sum : Int) (p : Nat) :
    Moves [.regs, .ladder, .brine] s (State.brTrim s n sum p) := by
  unfold State.brTrim
  repeat' first
    | with_reducible apply Moves.refl | ((with_reducible apply Within.of); exact rfl) | intro _
    | with_reducible apply Moves.step (State.setBrine_moves ..) | with_reducible apply Moves.step (State.setFld_moves ..)
    | with_reducible apply Moves.step (State.note_moves ..) | with_reducible apply Moves.step (State.setFlag_moves ..)
    | with_reducible apply Moves.ite | with_reducible apply Moves.foldl | with_reducible apply Moves.foldl_snd
    | with_reducible apply Moves.foldl_fst | ((with_reducible apply Moves.snd); assumption)
    | ((with_reducible apply Moves.fst); assumption) | split | dsimp only

theorem execBrineTrimUpdate_moves (s : State) :
    Goes [.regs, .ladder, .brine] s (execBrineTrimUpdate s) := by
  unfold execBrineTrimUpdate
  repeat' first
    | with_reducible apply Moves.refl | ((with_reducible apply Within.of); exact rfl) | intro _
    | with_reducible apply Goes.next | with_reducible apply Goes.fault | with_reducible apply Goes.ite
    | with_reducible apply Moves.step (State.onBlk_moves (fs := [.regs, .ladder, .brine]) (hf := ?_) ..)
    | with_reducible apply Moves.step (State.brTrim_moves ..) | with_reducible apply Moves.step (State.setBrine_moves ..)
    | with_reducible apply Moves.ite | with_reducible apply Moves.foldl | with_reducible apply Moves.foldl_snd
    | with_reducible apply Moves.foldl_fst | ((with_reducible apply Moves.snd); assumption)
    | ((with_reducible apply Moves.fst); assumption) | split | dsimp only

theorem State.brLatch_moves (s : State) (f : Fld) (code : Nat) :
    Moves [.regs, .ladder, .weft, .brine] s (State.brLatch s f code) := by
  unfold State.brLatch
  repeat' first
    | with_reducible apply Moves.refl | ((with_reducible apply Within.of); exact rfl) | intro _
    | with_reducible apply Moves.step (State.line_moves ..) | with_reducible apply Moves.step (State.note_moves ..)
    | with_reducible apply Moves.step (State.brGatesOff_moves ..)
    | with_reducible apply Moves.step (State.setFlag_moves ..) | with_reducible apply Moves.ite
    | with_reducible apply Moves.foldl | with_reducible apply Moves.foldl_snd | with_reducible apply Moves.foldl_fst
    | ((with_reducible apply Moves.snd); assumption) | ((with_reducible apply Moves.fst); assumption) | split | dsimp only

theorem execBrineUvLatch_moves (s : State) :
    Goes [.regs, .ladder, .weft, .brine] s (execBrineUvLatch s) := by
  unfold execBrineUvLatch
  repeat' first
    | with_reducible apply Moves.refl | ((with_reducible apply Within.of); exact rfl) | intro _
    | with_reducible apply Goes.next | with_reducible apply Goes.fault | with_reducible apply Goes.ite
    | with_reducible apply Moves.step (State.onBlk_moves (fs := [.regs, .ladder, .weft, .brine]) (hf := ?_) ..)
    | with_reducible apply Moves.step (State.brLatch_moves ..) | with_reducible apply Moves.ite
    | with_reducible apply Moves.foldl | with_reducible apply Moves.foldl_snd | with_reducible apply Moves.foldl_fst
    | ((with_reducible apply Moves.snd); assumption) | ((with_reducible apply Moves.fst); assumption) | split | dsimp only

theorem execBrineOvLatch_moves (s : State) :
    Goes [.regs, .ladder, .weft, .brine] s (execBrineOvLatch s) := by
  unfold execBrineOvLatch
  repeat' first
    | with_reducible apply Moves.refl | ((with_reducible apply Within.of); exact rfl) | intro _
    | with_reducible apply Goes.next | with_reducible apply Goes.fault | with_reducible apply Goes.ite
    | with_reducible apply Moves.step (State.onBlk_moves (fs := [.regs, .ladder, .weft, .brine]) (hf := ?_) ..)
    | with_reducible apply Moves.step (State.brLatch_moves ..) | with_reducible apply Moves.ite
    | with_reducible apply Moves.foldl | with_reducible apply Moves.foldl_snd | with_reducible apply Moves.foldl_fst
    | ((with_reducible apply Moves.snd); assumption) | ((with_reducible apply Moves.fst); assumption) | split | dsimp only

theorem execBrinePhaseShed_moves (s : State) :
    Goes [.brine] s (execBrinePhaseShed s) := by
  unfold execBrinePhaseShed
  repeat' first
    | with_reducible apply Moves.refl | ((with_reducible apply Within.of); exact rfl) | intro _
    | with_reducible apply Goes.next | with_reducible apply Goes.fault | with_reducible apply Goes.ite
    | with_reducible apply Moves.step (State.onBlk_moves (fs := [.brine]) (hf := ?_) ..)
    | with_reducible apply Moves.step (State.setBrine_moves ..) | with_reducible apply Moves.ite
    | with_reducible apply Moves.foldl | with_reducible apply Moves.foldl_snd | with_reducible apply Moves.foldl_fst
    | ((with_reducible apply Moves.snd); assumption) | ((with_reducible apply Moves.fst); assumption) | split | dsimp only

theorem execBrineSwFault_moves (p : Fin 4) (s : State) :
    Goes [.regs, .ladder, .weft, .brine] s (execBrineSwFault p s) := by
  unfold execBrineSwFault
  repeat' first
    | with_reducible apply Moves.refl | ((with_reducible apply Within.of); exact rfl) | intro _
    | with_reducible apply Goes.next | with_reducible apply Goes.fault | with_reducible apply Goes.ite
    | with_reducible apply Moves.step (State.onBlk_moves (fs := [.regs, .ladder, .weft, .brine]) (hf := ?_) ..)
    | with_reducible apply Moves.step (State.setBrine_moves ..) | with_reducible apply Moves.step (State.contain_moves ..)
    | with_reducible apply Moves.step (State.brSetActive_moves ..) | with_reducible apply Moves.ite
    | with_reducible apply Moves.foldl | with_reducible apply Moves.foldl_snd | with_reducible apply Moves.foldl_fst
    | ((with_reducible apply Moves.snd); assumption) | ((with_reducible apply Moves.fst); assumption) | split | dsimp only

end Sys2Proof.Machine
end

