-- ==== Sys2Proof/Laws/MovesFabricBase.lean ====
section
/-!
SUPPORT. Laws/MovesFabricBase.lean: which parts of the state each operation of Machine/FabricBase.lean moves.
-/
set_option Elab.async false
namespace Sys2Proof.Machine
set_option linter.all false

theorem State.dmaRefused_moves (s : State) (slot a : Nat) (write : Bool) :
    Moves [.regs, .ladder] s (State.dmaRefused s slot a write) := by
  unfold State.dmaRefused
  repeat' first
    | with_reducible apply Moves.refl | ((with_reducible apply Within.of); exact rfl) | intro _
    | with_reducible apply Moves.step (State.refuseAccess_moves ..) | with_reducible apply Moves.ite
    | with_reducible apply Moves.foldl | with_reducible apply Moves.foldl_snd | with_reducible apply Moves.foldl_fst
    | ((with_reducible apply Moves.snd); assumption) | ((with_reducible apply Moves.fst); assumption) | split | dsimp only

end Sys2Proof.Machine
end

