-- ==== Sys2Proof/Laws/MovesEccOps.lean ====
section
/-!
SUPPORT. Laws/MovesEccOps.lean: which parts of the state each operation of Machine/EccOps.lean moves.
-/
set_option Elab.async false
namespace Sys2Proof.Machine
set_option linter.all false

theorem State.eccNote_moves (s : State) (a : Nat) :
    Moves [.regs, .ladder] s (State.eccNote s a) := by
  unfold State.eccNote
  repeat' first
    | with_reducible apply Moves.refl | ((with_reducible apply Within.of); exact rfl) | intro _
    | with_reducible apply Moves.step (State.note_moves ..) | with_reducible apply Moves.ite
    | with_reducible apply Moves.foldl | with_reducible apply Moves.foldl_snd | with_reducible apply Moves.foldl_fst
    | ((with_reducible apply Moves.snd); assumption) | ((with_reducible apply Moves.fst); assumption) | split | dsimp only

theorem State.nowKnown_moves (s : State) (a : Nat) :
    Moves [.ecc] s (State.nowKnown s a) := by
  unfold State.nowKnown
  repeat' first
    | with_reducible apply Moves.refl | ((with_reducible apply Within.of); exact rfl) | intro _
    | with_reducible apply Moves.step (State.setEcc_moves ..) | with_reducible apply Moves.ite
    | with_reducible apply Moves.foldl | with_reducible apply Moves.foldl_snd | with_reducible apply Moves.foldl_fst
    | ((with_reducible apply Moves.snd); assumption) | ((with_reducible apply Moves.fst); assumption) | split | dsimp only

theorem State.settleWord_moves (s : State) (a : Nat) :
    Moves [.mem, .ecc, .free] s (State.settleWord s a) := by
  unfold State.settleWord
  repeat' first
    | with_reducible apply Moves.refl | ((with_reducible apply Within.of); exact rfl) | intro _
    | with_reducible apply Moves.step (State.took_moves ..) | with_reducible apply Moves.step (State.nowKnown_moves ..)
    | with_reducible apply Moves.step (State.putNum_moves ..) | with_reducible apply Moves.step (State.setEcc_moves ..)
    | with_reducible apply Moves.ite | with_reducible apply Moves.foldl | with_reducible apply Moves.foldl_snd
    | with_reducible apply Moves.foldl_fst | ((with_reducible apply Moves.snd); assumption)
    | ((with_reducible apply Moves.fst); assumption) | split | dsimp only

theorem State.eccLost_moves (s : State) (a : Nat) :
    Moves [.regs, .ecc, .ladder, .fabric, .weft, .power, .selv, .sense, .hs] s (State.eccLost s a) := by
  unfold State.eccLost
  repeat' first
    | with_reducible apply Moves.refl | ((with_reducible apply Within.of); exact rfl) | intro _
    | with_reducible apply Moves.step (State.setEcc_moves ..) | with_reducible apply Moves.step (State.contain_moves ..)
    | with_reducible apply Moves.step (State.pairFault_moves ..) | with_reducible apply Moves.ite
    | with_reducible apply Moves.foldl | with_reducible apply Moves.foldl_snd | with_reducible apply Moves.foldl_fst
    | ((with_reducible apply Moves.snd); assumption) | ((with_reducible apply Moves.fst); assumption) | split | dsimp only

theorem State.eccReadBack_moves (s : State) (a : Nat) :
    Moves [.regs, .ecc, .ladder] s (State.eccReadBack s a) := by
  unfold State.eccReadBack
  repeat' first
    | with_reducible apply Moves.refl | ((with_reducible apply Within.of); exact rfl) | intro _
    | with_reducible apply Moves.step (State.setEcc_moves ..)
    | with_reducible apply Moves.step (State.recoversCell_moves ..) | with_reducible apply Moves.ite
    | with_reducible apply Moves.foldl | with_reducible apply Moves.foldl_snd | with_reducible apply Moves.foldl_fst
    | ((with_reducible apply Moves.snd); assumption) | ((with_reducible apply Moves.fst); assumption) | split | dsimp only

theorem State.checkRead_moves (s : State) (a : Nat) :
    Moves [.regs, .mem, .ecc, .ladder, .fabric, .weft, .power, .selv, .sense, .hs, .free] s (State.checkRead s a).2 := by
  unfold State.checkRead
  repeat' first
    | with_reducible apply Moves.refl | ((with_reducible apply Within.of); exact rfl) | intro _
    | with_reducible apply Moves.step (State.settleWord_moves ..)
    | with_reducible apply Moves.step (State.eccReadBack_moves ..)
    | with_reducible apply Moves.step (State.eccNote_moves ..) | with_reducible apply Moves.step (State.setEcc_moves ..)
    | with_reducible apply Moves.step (State.eccLost_moves ..) | with_reducible apply Moves.ite
    | with_reducible apply Moves.foldl | with_reducible apply Moves.foldl_snd | with_reducible apply Moves.foldl_fst
    | ((with_reducible apply Moves.snd); assumption) | ((with_reducible apply Moves.fst); assumption) | split | dsimp only

theorem State.mendWord_moves (s : State) (a : Nat) :
    Moves [.ecc] s (State.mendWord s a) := by
  unfold State.mendWord
  repeat' first
    | with_reducible apply Moves.refl | ((with_reducible apply Within.of); exact rfl) | intro _
    | with_reducible apply Moves.step (State.setEcc_moves ..) | with_reducible apply Moves.ite
    | with_reducible apply Moves.foldl | with_reducible apply Moves.foldl_snd | with_reducible apply Moves.foldl_fst
    | ((with_reducible apply Moves.snd); assumption) | ((with_reducible apply Moves.fst); assumption) | split | dsimp only

theorem State.rewriteWord_moves (s : State) (a : Nat) :
    Moves [.regs, .ecc, .ladder] s (State.rewriteWord s a) := by
  unfold State.rewriteWord
  repeat' first
    | with_reducible apply Moves.refl | ((with_reducible apply Within.of); exact rfl) | intro _
    | with_reducible apply Moves.step (State.nowKnown_moves ..)
    | with_reducible apply Moves.step (State.mendWord_moves ..) | with_reducible apply Moves.step (State.setEcc_moves ..)
    | with_reducible apply Moves.step (State.recoversCell_moves ..) | with_reducible apply Moves.ite
    | with_reducible apply Moves.foldl | with_reducible apply Moves.foldl_snd | with_reducible apply Moves.foldl_fst
    | ((with_reducible apply Moves.snd); assumption) | ((with_reducible apply Moves.fst); assumption) | split | dsimp only

theorem State.checkWrite_moves (s : State) (a size : Nat) (v : Nat) :
    Moves [.regs, .mem, .ecc, .ladder, .fabric, .weft, .power, .selv, .sense, .hs, .free] s (State.checkWrite s a size v).2 := by
  unfold State.checkWrite
  repeat' first
    | with_reducible apply Moves.refl | ((with_reducible apply Within.of); exact rfl) | intro _
    | with_reducible apply Moves.step (State.putNum_moves ..)
    | with_reducible apply Moves.step (State.rewriteWord_moves ..)
    | with_reducible apply Moves.step (State.settleWord_moves ..)
    | with_reducible apply Moves.step (State.eccNote_moves ..) | with_reducible apply Moves.step (State.mendWord_moves ..)
    | with_reducible apply Moves.step (State.eccLost_moves ..) | with_reducible apply Moves.ite
    | with_reducible apply Moves.foldl | with_reducible apply Moves.foldl_snd | with_reducible apply Moves.foldl_fst
    | ((with_reducible apply Moves.snd); assumption) | ((with_reducible apply Moves.fst); assumption) | split | dsimp only

theorem State.settleRange_moves (s : State) (a n : Nat) :
    Moves [.mem, .ecc, .free] s (State.settleRange s a n) := by
  unfold State.settleRange
  repeat' first
    | with_reducible apply Moves.refl | ((with_reducible apply Within.of); exact rfl) | intro _
    | with_reducible apply Moves.step (State.settleWord_moves ..) | with_reducible apply Moves.ite
    | with_reducible apply Moves.foldl | with_reducible apply Moves.foldl_snd | with_reducible apply Moves.foldl_fst
    | ((with_reducible apply Moves.snd); assumption) | ((with_reducible apply Moves.fst); assumption) | split | dsimp only

theorem State.readBlock_moves (s : State) (slot a n : Nat) :
    Moves [.regs, .mem, .ecc, .ladder, .fabric, .weft, .power, .selv, .sense, .hs, .free] s (State.readBlock s slot a n).2 := by
  unfold State.readBlock
  repeat' first
    | with_reducible apply Moves.refl | ((with_reducible apply Within.of); exact rfl) | intro _
    | with_reducible apply Moves.step (State.settleRange_moves ..)
    | with_reducible apply Moves.step (State.checkRead_moves ..)
    | with_reducible apply Moves.step (State.captureBusError_moves ..)
    | with_reducible apply Moves.step (State.dmaRefused_moves ..) | with_reducible apply Moves.ite
    | with_reducible apply Moves.foldl | with_reducible apply Moves.foldl_snd | with_reducible apply Moves.foldl_fst
    | ((with_reducible apply Moves.snd); assumption) | ((with_reducible apply Moves.fst); assumption) | split | dsimp only

theorem State.writeBlock_moves (s : State) (a : Nat) (l : List Byte) :
    Moves [.regs, .mem, .ecc, .ladder, .free] s (State.writeBlock s a l) := by
  unfold State.writeBlock
  repeat' first
    | with_reducible apply Moves.refl | ((with_reducible apply Within.of); exact rfl) | intro _
    | with_reducible apply Moves.step (State.settleRange_moves ..)
    | with_reducible apply Moves.step (State.putBytes_moves ..)
    | with_reducible apply Moves.step (State.rewriteWord_moves ..) | with_reducible apply Moves.ite
    | with_reducible apply Moves.foldl | with_reducible apply Moves.foldl_snd | with_reducible apply Moves.foldl_fst
    | ((with_reducible apply Moves.snd); assumption) | ((with_reducible apply Moves.fst); assumption) | split | dsimp only

theorem State.meetWrite_moves (s : State) (a n w : Nat) :
    Moves [.regs, .ecc, .ladder] s (State.meetWrite s a n w) := by
  unfold State.meetWrite
  repeat' first
    | with_reducible apply Moves.refl | ((with_reducible apply Within.of); exact rfl) | intro _
    | with_reducible apply Moves.step (State.rewriteWord_moves ..)
    | with_reducible apply Moves.step (State.eccNote_moves ..) | with_reducible apply Moves.step (State.mendWord_moves ..)
    | with_reducible apply Moves.ite | with_reducible apply Moves.foldl | with_reducible apply Moves.foldl_snd
    | with_reducible apply Moves.foldl_fst | ((with_reducible apply Moves.snd); assumption)
    | ((with_reducible apply Moves.fst); assumption) | split | dsimp only

theorem State.writeRange_moves (s : State) (slot a : Nat) (l : List Byte) :
    Moves [.regs, .mem, .ecc, .ladder, .fabric, .weft, .power, .selv, .sense, .hs, .free] s (State.writeRange s slot a l).2 := by
  unfold State.writeRange
  repeat' first
    | with_reducible apply Moves.refl | ((with_reducible apply Within.of); exact rfl) | intro _
    | with_reducible apply Moves.step (State.settleRange_moves ..)
    | with_reducible apply Moves.step (State.captureBusError_moves ..)
    | with_reducible apply Moves.step (State.eccLost_moves ..) | with_reducible apply Moves.step (State.putBytes_moves ..)
    | with_reducible apply Moves.step (State.meetWrite_moves ..)
    | with_reducible apply Moves.step (State.dmaRefused_moves ..) | with_reducible apply Moves.ite
    | with_reducible apply Moves.foldl | with_reducible apply Moves.foldl_snd | with_reducible apply Moves.foldl_fst
    | ((with_reducible apply Moves.snd); assumption) | ((with_reducible apply Moves.fst); assumption) | split | dsimp only

theorem State.writeRanges_moves (s : State) (slot : Nat) (l : List (Nat × List Byte)) :
    Moves [.regs, .mem, .ecc, .ladder, .fabric, .weft, .power, .selv, .sense, .hs, .free] s (State.writeRanges s slot l).2 := by
  unfold State.writeRanges
  repeat' first
    | with_reducible apply Moves.refl | ((with_reducible apply Within.of); exact rfl) | intro _
    | with_reducible apply Moves.step (State.writeRange_moves ..) | with_reducible apply Moves.ite
    | with_reducible apply Moves.foldl | with_reducible apply Moves.foldl_snd | with_reducible apply Moves.foldl_fst
    | ((with_reducible apply Moves.snd); assumption) | ((with_reducible apply Moves.fst); assumption) | split | dsimp only

theorem State.readRange_moves (s : State) (slot a n : Nat) :
    Moves [.regs, .mem, .ecc, .ladder, .fabric, .weft, .power, .selv, .sense, .hs, .free] s (State.readRange s slot a n).2 := by
  unfold State.readRange
  repeat' first
    | with_reducible apply Moves.refl | ((with_reducible apply Within.of); exact rfl) | intro _
    | with_reducible apply Moves.step (State.readBlock_moves ..) | with_reducible apply Moves.ite
    | with_reducible apply Moves.foldl | with_reducible apply Moves.foldl_snd | with_reducible apply Moves.foldl_fst
    | ((with_reducible apply Moves.snd); assumption) | ((with_reducible apply Moves.fst); assumption) | split | dsimp only

end Sys2Proof.Machine
end

