-- ==== Sys2Proof/Laws/MovesKeyBase.lean ====
section
/-!
SUPPORT. Laws/MovesKeyBase.lean: which parts of the state each operation of Machine/KeyBase.lean moves.
-/
set_option Elab.async false
namespace Sys2Proof.Machine
set_option linter.all false

theorem State.showSlot_moves (s : State) (n : Nat) :
    Moves [.regs] s (State.showSlot s n) := by
  unfold State.showSlot
  repeat' first
    | with_reducible apply Moves.refl | ((with_reducible apply Within.of); exact rfl) | intro _
    | with_reducible apply Moves.step (State.wrNat_moves ..) | with_reducible apply Moves.ite
    | with_reducible apply Moves.foldl | with_reducible apply Moves.foldl_snd | with_reducible apply Moves.foldl_fst
    | ((with_reducible apply Moves.snd); assumption) | ((with_reducible apply Moves.fst); assumption) | split | dsimp only

theorem State.setSlot_moves (s : State) (n : Nat) (k : Option KeyRec) :
    Moves [.regs, .ks] s (State.setSlot s n k) := by
  unfold State.setSlot
  repeat' first
    | with_reducible apply Moves.refl | ((with_reducible apply Within.of); exact rfl) | intro _
    | with_reducible apply Moves.step (State.showSlot_moves ..) | with_reducible apply Moves.step (State.setKs_moves ..)
    | with_reducible apply Moves.ite | with_reducible apply Moves.foldl | with_reducible apply Moves.foldl_snd
    | with_reducible apply Moves.foldl_fst | ((with_reducible apply Moves.snd); assumption)
    | ((with_reducible apply Moves.fst); assumption) | split | dsimp only

theorem State.setTwin_moves (s : State) (n : Nat) (t : Option Twin) :
    Moves [.regs, .ks] s (State.setTwin s n t) := by
  unfold State.setTwin
  repeat' first
    | with_reducible apply Moves.refl | ((with_reducible apply Within.of); exact rfl) | intro _
    | with_reducible apply Moves.step (State.showSlot_moves ..) | with_reducible apply Moves.step (State.setKs_moves ..)
    | with_reducible apply Moves.ite | with_reducible apply Moves.foldl | with_reducible apply Moves.foldl_snd
    | with_reducible apply Moves.foldl_fst | ((with_reducible apply Moves.snd); assumption)
    | ((with_reducible apply Moves.fst); assumption) | split | dsimp only

theorem State.setTimed_moves (s : State) (n : Nat) (t : Option Nat) :
    Moves [.regs, .ks] s (State.setTimed s n t) := by
  unfold State.setTimed
  repeat' first
    | with_reducible apply Moves.refl | ((with_reducible apply Within.of); exact rfl) | intro _
    | with_reducible apply Moves.step (State.showSlot_moves ..) | with_reducible apply Moves.step (State.setKs_moves ..)
    | with_reducible apply Moves.ite | with_reducible apply Moves.foldl | with_reducible apply Moves.foldl_snd
    | with_reducible apply Moves.foldl_fst | ((with_reducible apply Moves.snd); assumption)
    | ((with_reducible apply Moves.fst); assumption) | split | dsimp only

theorem State.loadSlot_moves (s : State) (n : Nat) (k : KeyRec) :
    Moves [.regs, .ks] s (State.loadSlot s n k) := by
  unfold State.loadSlot
  repeat' first
    | with_reducible apply Moves.refl | ((with_reducible apply Within.of); exact rfl) | intro _
    | with_reducible apply Moves.step (State.setSlot_moves ..) | with_reducible apply Moves.step (State.setFlag_moves ..)
    | with_reducible apply Moves.ite | with_reducible apply Moves.foldl | with_reducible apply Moves.foldl_snd
    | with_reducible apply Moves.foldl_fst | ((with_reducible apply Moves.snd); assumption)
    | ((with_reducible apply Moves.fst); assumption) | split | dsimp only

theorem State.commitTwin_moves (s : State) (n : Nat) :
    Moves [.regs, .weft, .ks] s (State.commitTwin s n) := by
  unfold State.commitTwin
  repeat' first
    | with_reducible apply Moves.refl | ((with_reducible apply Within.of); exact rfl) | intro _
    | with_reducible apply Moves.step (State.line_moves ..) | with_reducible apply Moves.step (State.setTimed_moves ..)
    | with_reducible apply Moves.step (State.setTwin_moves ..) | with_reducible apply Moves.step (State.loadSlot_moves ..)
    | with_reducible apply Moves.ite | with_reducible apply Moves.foldl | with_reducible apply Moves.foldl_snd
    | with_reducible apply Moves.foldl_fst | ((with_reducible apply Moves.snd); assumption)
    | ((with_reducible apply Moves.fst); assumption) | split | dsimp only

end Sys2Proof.Machine
end

