-- ==== Sys2Proof/Laws/MovesWeftOps.lean ====
section
/-!
SUPPORT. Laws/MovesWeftOps.lean: which parts of the state each operation of Machine/WeftOps.lean moves.
-/
set_option Elab.async false
namespace Sys2Proof.Machine
set_option linter.all false

theorem State.doubleTrap_moves (s : State) (k code : Nat) :
    Moves [.regs, .ladder, .fabric, .weft, .power, .selv, .sense, .hs] s (State.doubleTrap s k code) := by
  unfold State.doubleTrap
  repeat' first
    | with_reducible apply Moves.refl | ((with_reducible apply Within.of); exact rfl) | intro _
    | with_reducible apply Moves.step (State.setCtx_moves ..) | with_reducible apply Moves.step (State.pairFault_moves ..)
    | with_reducible apply Moves.step (State.contain_moves ..) | with_reducible apply Moves.ite
    | with_reducible apply Moves.foldl | with_reducible apply Moves.foldl_snd | with_reducible apply Moves.foldl_fst
    | ((with_reducible apply Moves.snd); assumption) | ((with_reducible apply Moves.fst); assumption) | split | dsimp only

theorem State.takeTrap_moves (s : State) (k code : Nat) (value resume : Word) (imprecise : Bool) :
    Moves [.regs, .ladder, .fabric, .weft, .power, .selv, .sense, .hs] s (State.takeTrap s k code value resume imprecise) := by
  unfold State.takeTrap
  repeat' first
    | with_reducible apply Moves.refl | ((with_reducible apply Within.of); exact rfl) | intro _
    | with_reducible apply Moves.step (State.setCtx_moves ..)
    | with_reducible apply Moves.step (State.doubleTrap_moves ..) | with_reducible apply Moves.ite
    | with_reducible apply Moves.foldl | with_reducible apply Moves.foldl_snd | with_reducible apply Moves.foldl_fst
    | ((with_reducible apply Moves.snd); assumption) | ((with_reducible apply Moves.fst); assumption) | split | dsimp only

theorem State.trapHere_moves (s : State) (k code : Nat) (value : Word) :
    Moves [.regs, .ladder, .fabric, .weft, .power, .selv, .sense, .hs] s (State.trapHere s k code value) := by
  unfold State.trapHere
  repeat' first
    | with_reducible apply Moves.refl | ((with_reducible apply Within.of); exact rfl) | intro _
    | with_reducible apply Moves.step (State.takeTrap_moves ..) | with_reducible apply Moves.ite
    | with_reducible apply Moves.foldl | with_reducible apply Moves.foldl_snd | with_reducible apply Moves.foldl_fst
    | ((with_reducible apply Moves.snd); assumption) | ((with_reducible apply Moves.fst); assumption) | split | dsimp only

theorem State.boundary_moves (s : State) (k : Nat) :
    Moves [.regs, .ladder, .fabric, .weft, .power, .selv, .sense, .hs] s (State.boundary s k) := by
  unfold State.boundary
  repeat' first
    | with_reducible apply Moves.refl | ((with_reducible apply Within.of); exact rfl) | intro _
    | with_reducible apply Moves.step (State.takeTrap_moves ..) | with_reducible apply Moves.ite
    | with_reducible apply Moves.foldl | with_reducible apply Moves.foldl_snd | with_reducible apply Moves.foldl_fst
    | ((with_reducible apply Moves.snd); assumption) | ((with_reducible apply Moves.fst); assumption) | split | dsimp only

theorem State.eccTrap_moves (s : State) (k : Nat) (value : Word) :
    Moves [.regs, .ladder, .fabric, .weft, .power, .selv, .sense, .hs] s (State.eccTrap s k value) := by
  unfold State.eccTrap
  repeat' first
    | with_reducible apply Moves.refl | ((with_reducible apply Within.of); exact rfl) | intro _
    | with_reducible apply Moves.step (State.trapHere_moves ..) | with_reducible apply Moves.ite
    | with_reducible apply Moves.foldl | with_reducible apply Moves.foldl_snd | with_reducible apply Moves.foldl_fst
    | ((with_reducible apply Moves.snd); assumption) | ((with_reducible apply Moves.fst); assumption) | split | dsimp only

theorem State.fetches_moves (s : State) (k : Nat) :
    Moves [.regs, .mem, .ecc, .ladder, .fabric, .weft, .power, .selv, .sense, .hs, .free] s (State.fetches s k).2 := by
  unfold State.fetches
  repeat' first
    | with_reducible apply Moves.refl | ((with_reducible apply Within.of); exact rfl) | intro _
    | with_reducible apply Moves.step (State.trapHere_moves ..)
    | with_reducible apply Moves.step (State.checkRead_moves ..)
    | with_reducible apply Moves.step (State.eccTrap_moves ..) | with_reducible apply Moves.ite
    | with_reducible apply Moves.foldl | with_reducible apply Moves.foldl_snd | with_reducible apply Moves.foldl_fst
    | ((with_reducible apply Moves.snd); assumption) | ((with_reducible apply Moves.fst); assumption) | split | dsimp only

theorem weft_moves (c : CtxId) (s : State) (f : Nat → State → State) {fs : List Part} (hf : ∀ (x0 : Nat) (t : State), Moves fs t (f x0 t)) :
    Moves ([.regs, .mem, .ecc, .ladder, .fabric, .weft, .power, .selv, .sense, .hs, .free] ++ fs) s (weft c s f) := by
  unfold weft
  repeat' first
    | with_reducible apply Moves.refl | ((with_reducible apply Within.of); exact rfl) | intro _
    | with_reducible apply Within.right | with_reducible apply Within.append
    | with_reducible apply Moves.step (hf ..) (Within.right _ _)
    | with_reducible apply Moves.step (State.fetches_moves ..) | with_reducible apply Moves.ite
    | with_reducible apply Moves.foldl | with_reducible apply Moves.foldl_snd | with_reducible apply Moves.foldl_fst
    | ((with_reducible apply Moves.snd); assumption) | ((with_reducible apply Moves.fst); assumption) | split | dsimp only

theorem weftCtx_moves (c : CtxId) (s : State) (f : Context → Context) :
    Moves [.regs, .mem, .ecc, .ladder, .fabric, .weft, .power, .selv, .sense, .hs, .free] s (weftCtx c s f) := by
  unfold weftCtx
  repeat' first
    | with_reducible apply Moves.refl | ((with_reducible apply Within.of); exact rfl) | intro _
    | with_reducible apply Moves.step (weft_moves (fs := [.regs, .mem, .ecc, .ladder, .fabric, .weft, .power, .selv, .sense, .hs, .free]) (hf := ?_) ..)
    | with_reducible apply Moves.step (State.setCtx_moves ..) | with_reducible apply Moves.ite
    | with_reducible apply Moves.foldl | with_reducible apply Moves.foldl_snd | with_reducible apply Moves.foldl_fst
    | ((with_reducible apply Moves.snd); assumption) | ((with_reducible apply Moves.fst); assumption) | split | dsimp only

theorem State.wdtKick_moves (s : State) (k : Nat) :
    Moves [.weft] s (State.wdtKick s k) := by
  unfold State.wdtKick
  repeat' first
    | with_reducible apply Moves.refl | ((with_reducible apply Within.of); exact rfl) | intro _
    | with_reducible apply Moves.step (State.setCtx_moves ..) | with_reducible apply Moves.ite
    | with_reducible apply Moves.foldl | with_reducible apply Moves.foldl_snd | with_reducible apply Moves.foldl_fst
    | ((with_reducible apply Moves.snd); assumption) | ((with_reducible apply Moves.fst); assumption) | split | dsimp only

theorem State.startCtx_moves (s : State) (k : Nat) :
    Moves [.weft] s (State.startCtx s k) := by
  unfold State.startCtx
  repeat' first
    | with_reducible apply Moves.refl | ((with_reducible apply Within.of); exact rfl) | intro _
    | with_reducible apply Moves.step (State.setCtx_moves ..) | with_reducible apply Moves.ite
    | with_reducible apply Moves.foldl | with_reducible apply Moves.foldl_snd | with_reducible apply Moves.foldl_fst
    | ((with_reducible apply Moves.snd); assumption) | ((with_reducible apply Moves.fst); assumption) | split | dsimp only

theorem State.restartCtx_moves (s : State) (k : Nat) :
    Moves [.regs, .ladder, .weft] s (State.restartCtx s k) := by
  unfold State.restartCtx
  repeat' first
    | with_reducible apply Moves.refl | ((with_reducible apply Within.of); exact rfl) | intro _
    | with_reducible apply Moves.step (State.setCtx_moves ..) | with_reducible apply Moves.step (State.wdtKick_moves ..)
    | with_reducible apply Moves.step (State.startCtx_moves ..)
    | with_reducible apply Moves.step (State.recoversCell_moves ..) | with_reducible apply Moves.ite
    | with_reducible apply Moves.foldl | with_reducible apply Moves.foldl_snd | with_reducible apply Moves.foldl_fst
    | ((with_reducible apply Moves.snd); assumption) | ((with_reducible apply Moves.fst); assumption) | split | dsimp only

theorem State.haltIfDone_moves (s : State) (k : Nat) :
    Moves [.weft] s (State.haltIfDone s k) := by
  unfold State.haltIfDone
  repeat' first
    | with_reducible apply Moves.refl | ((with_reducible apply Within.of); exact rfl) | intro _
    | with_reducible apply Moves.step (State.setCtx_moves ..) | with_reducible apply Moves.ite
    | with_reducible apply Moves.foldl | with_reducible apply Moves.foldl_snd | with_reducible apply Moves.foldl_fst
    | ((with_reducible apply Moves.snd); assumption) | ((with_reducible apply Moves.fst); assumption) | split | dsimp only

theorem State.setMbox_moves (s : State) (m : Nat) (l : List Word) :
    Moves [.regs, .weft] s (State.setMbox s m l) := by
  unfold State.setMbox
  repeat' first
    | with_reducible apply Moves.refl | ((with_reducible apply Within.of); exact rfl) | intro _
    | with_reducible apply Moves.step (State.setFld_moves ..) | with_reducible apply Moves.step (State.setWeft_moves ..)
    | with_reducible apply Moves.ite | with_reducible apply Moves.foldl | with_reducible apply Moves.foldl_snd
    | with_reducible apply Moves.foldl_fst | ((with_reducible apply Moves.snd); assumption)
    | ((with_reducible apply Moves.fst); assumption) | split | dsimp only

theorem State.endWait_moves (s : State) (k d n : Nat) :
    Moves [.weft] s (State.endWait s k d n) := by
  unfold State.endWait
  repeat' first
    | with_reducible apply Moves.refl | ((with_reducible apply Within.of); exact rfl) | intro _
    | with_reducible apply Moves.step (State.setCtx_moves ..) | with_reducible apply Moves.ite
    | with_reducible apply Moves.foldl | with_reducible apply Moves.foldl_snd | with_reducible apply Moves.foldl_fst
    | ((with_reducible apply Moves.snd); assumption) | ((with_reducible apply Moves.fst); assumption) | split | dsimp only

theorem State.wake_moves (s : State) (k : Nat) :
    Moves [.weft] s (State.wake s k) := by
  unfold State.wake
  repeat' first
    | with_reducible apply Moves.refl | ((with_reducible apply Within.of); exact rfl) | intro _
    | with_reducible apply Moves.step (State.endWait_moves ..) | with_reducible apply Moves.ite
    | with_reducible apply Moves.foldl | with_reducible apply Moves.foldl_snd | with_reducible apply Moves.foldl_fst
    | ((with_reducible apply Moves.snd); assumption) | ((with_reducible apply Moves.fst); assumption) | split | dsimp only

theorem State.occurs_moves (s : State) (k n : Nat) :
    Moves [.weft] s (State.occurs s k n) := by
  unfold State.occurs
  repeat' first
    | with_reducible apply Moves.refl | ((with_reducible apply Within.of); exact rfl) | intro _
    | with_reducible apply Moves.step (State.setCtx_moves ..) | with_reducible apply Moves.step (State.wake_moves ..)
    | with_reducible apply Moves.ite | with_reducible apply Moves.foldl | with_reducible apply Moves.foldl_snd
    | with_reducible apply Moves.foldl_fst | ((with_reducible apply Moves.snd); assumption)
    | ((with_reducible apply Moves.fst); assumption) | split | dsimp only

theorem State.accessDone_moves (s : State) (k : Nat) (x : Context) :
    Moves [.regs, .ladder, .fabric, .weft, .power, .selv, .sense, .hs] s (State.accessDone s k x) := by
  unfold State.accessDone
  repeat' first
    | with_reducible apply Moves.refl | ((with_reducible apply Within.of); exact rfl) | intro _
    | with_reducible apply Moves.step (State.setCtx_moves ..)
    | with_reducible apply Moves.step (State.haltIfDone_moves ..)
    | with_reducible apply Moves.step (State.boundary_moves ..)
    | with_reducible apply Moves.step (State.restartCtx_moves ..) | with_reducible apply Moves.ite
    | with_reducible apply Moves.foldl | with_reducible apply Moves.foldl_snd | with_reducible apply Moves.foldl_fst
    | ((with_reducible apply Moves.snd); assumption) | ((with_reducible apply Moves.fst); assumption) | split | dsimp only

theorem State.posted_moves (s : State) (x : Xact) :
    Moves [.regs, .ladder, .fabric, .weft, .power, .selv, .sense, .hs] s (State.posted s x) := by
  unfold State.posted
  repeat' first
    | with_reducible apply Moves.refl | ((with_reducible apply Within.of); exact rfl) | intro _
    | with_reducible apply Moves.step (State.accessDone_moves ..) | with_reducible apply Moves.ite
    | with_reducible apply Moves.foldl | with_reducible apply Moves.foldl_snd | with_reducible apply Moves.foldl_fst
    | ((with_reducible apply Moves.snd); assumption) | ((with_reducible apply Moves.fst); assumption) | split | dsimp only

theorem State.grantOne_moves (s : State) :
    Moves [.regs, .ladder, .fabric, .weft, .power, .selv, .sense, .hs] s (State.grantOne s) := by
  unfold State.grantOne
  repeat' first
    | with_reducible apply Moves.refl | ((with_reducible apply Within.of); exact rfl) | intro _
    | with_reducible apply Moves.step (State.posted_moves ..) | with_reducible apply Moves.step (State.setFabric_moves ..)
    | with_reducible apply Moves.ite | with_reducible apply Moves.foldl | with_reducible apply Moves.foldl_snd
    | with_reducible apply Moves.foldl_fst | ((with_reducible apply Moves.snd); assumption)
    | ((with_reducible apply Moves.fst); assumption) | split | dsimp only

theorem State.grants_moves (s : State) :
    Moves [.regs, .ladder, .fabric, .weft, .power, .selv, .sense, .hs] s (State.grants s) := by
  unfold State.grants
  repeat' first
    | with_reducible apply Moves.refl | ((with_reducible apply Within.of); exact rfl) | intro _
    | with_reducible apply Moves.step (State.grantOne_moves ..) | with_reducible apply Moves.ite
    | with_reducible apply Moves.foldl | with_reducible apply Moves.foldl_snd | with_reducible apply Moves.foldl_fst
    | ((with_reducible apply Moves.snd); assumption) | ((with_reducible apply Moves.fst); assumption) | split | dsimp only

theorem State.access_moves (s : State) (k : Nat) (addr : Word) (kind : XKind) :
    Moves [.regs, .ladder, .fabric, .weft, .power, .selv, .sense, .hs] s (State.access s k addr kind) := by
  unfold State.access
  repeat' first
    | with_reducible apply Moves.refl | ((with_reducible apply Within.of); exact rfl) | intro _
    | with_reducible apply Moves.step (State.setCtx_moves ..) | with_reducible apply Moves.step (State.posted_moves ..)
    | with_reducible apply Moves.step (State.setFabric_moves ..) | with_reducible apply Moves.ite
    | with_reducible apply Moves.foldl | with_reducible apply Moves.foldl_snd | with_reducible apply Moves.foldl_fst
    | ((with_reducible apply Moves.snd); assumption) | ((with_reducible apply Moves.fst); assumption) | split | dsimp only

end Sys2Proof.Machine
end

