-- ==== Sys2Proof/Laws/MovesSafetyOps.lean ====
section
/-!
SUPPORT. Laws/MovesSafetyOps.lean: which parts of the state each operation of Machine/SafetyOps.lean moves.
-/
set_option Elab.async false
namespace Sys2Proof.Machine
set_option linter.all false

theorem State.safetyLoaded_moves (s : State) (prog : Word) :
    Moves [.regs, .selv] s (State.safetyLoaded s prog) := by
  unfold State.safetyLoaded
  repeat' first
    | with_reducible apply Moves.refl | ((with_reducible apply Within.of); exact rfl) | intro _
    | with_reducible apply Moves.step (State.wr_moves ..) | with_reducible apply Moves.step (State.setFld_moves ..)
    | with_reducible apply Moves.step (State.setSelv_moves ..) | with_reducible apply Moves.ite
    | with_reducible apply Moves.foldl | with_reducible apply Moves.foldl_snd | with_reducible apply Moves.foldl_fst
    | ((with_reducible apply Moves.snd); assumption) | ((with_reducible apply Moves.fst); assumption) | split | dsimp only

theorem State.safetyEnWrite_moves (s : State) (v : Word) :
    Moves [.regs, .selv] s (State.safetyEnWrite s v) := by
  unfold State.safetyEnWrite
  repeat' first
    | with_reducible apply Moves.refl | ((with_reducible apply Within.of); exact rfl) | intro _
    | with_reducible apply Moves.step (State.setSelv_moves ..) | with_reducible apply Moves.step (State.setFld_moves ..)
    | with_reducible apply Moves.ite | with_reducible apply Moves.foldl | with_reducible apply Moves.foldl_snd
    | with_reducible apply Moves.foldl_fst | ((with_reducible apply Moves.snd); assumption)
    | ((with_reducible apply Moves.fst); assumption) | split | dsimp only

theorem State.safetyCommit_moves (s : State) :
    Moves [.regs, .live, .weft, .selv, .sense] s (State.safetyCommit s) := by
  unfold State.safetyCommit
  repeat' first
    | with_reducible apply Moves.refl | ((with_reducible apply Within.of); exact rfl) | intro _
    | with_reducible apply Moves.step (State.setSelv_moves ..) | with_reducible apply Moves.step (State.commit_moves ..)
    | with_reducible apply Moves.step (State.refreshOuts_moves ..) | with_reducible apply Moves.ite
    | with_reducible apply Moves.foldl | with_reducible apply Moves.foldl_snd | with_reducible apply Moves.foldl_fst
    | ((with_reducible apply Moves.snd); assumption) | ((with_reducible apply Moves.fst); assumption) | split | dsimp only

theorem State.refuseWord_moves (s : State) :
    Moves [.regs, .ladder] s (State.refuseWord s) := by
  unfold State.refuseWord
  repeat' first
    | with_reducible apply Moves.refl | ((with_reducible apply Within.of); exact rfl) | intro _
    | with_reducible apply Moves.step (State.note_moves ..) | with_reducible apply Moves.step (State.bump_moves ..)
    | with_reducible apply Moves.ite | with_reducible apply Moves.foldl | with_reducible apply Moves.foldl_snd
    | with_reducible apply Moves.foldl_fst | ((with_reducible apply Moves.snd); assumption)
    | ((with_reducible apply Moves.fst); assumption) | split | dsimp only

theorem State.safetySend_moves (s : State) (k : Nat) (w : Word) :
    Moves [.regs, .ladder, .selv] s (State.safetySend s k w).2 := by
  unfold State.safetySend
  repeat' first
    | with_reducible apply Moves.refl | ((with_reducible apply Within.of); exact rfl) | intro _
    | with_reducible apply Moves.step (State.refuseWord_moves ..)
    | with_reducible apply Moves.step (State.setSelv_moves ..) | with_reducible apply Moves.ite
    | with_reducible apply Moves.foldl | with_reducible apply Moves.foldl_snd | with_reducible apply Moves.foldl_fst
    | ((with_reducible apply Moves.snd); assumption) | ((with_reducible apply Moves.fst); assumption) | split | dsimp only

theorem State.pairSend_moves (s : State) (w : Word) :
    Moves [.weft, .selv] s (State.pairSend s w).2 := by
  unfold State.pairSend
  repeat' first
    | with_reducible apply Moves.refl | ((with_reducible apply Within.of); exact rfl) | intro _
    | with_reducible apply Moves.step (State.setSelv_moves ..) | with_reducible apply Moves.step (State.wake_moves ..)
    | with_reducible apply Moves.ite | with_reducible apply Moves.foldl | with_reducible apply Moves.foldl_snd
    | with_reducible apply Moves.foldl_fst | ((with_reducible apply Moves.snd); assumption)
    | ((with_reducible apply Moves.fst); assumption) | split | dsimp only

theorem State.safetyRecv_moves (s : State) (k : Nat) :
    Moves [.regs, .ladder, .selv] s (State.safetyRecv s k).2 := by
  unfold State.safetyRecv
  repeat' first
    | with_reducible apply Moves.refl | ((with_reducible apply Within.of); exact rfl) | intro _
    | with_reducible apply Moves.step (State.setSelv_moves ..)
    | with_reducible apply Moves.step (State.refuseWord_moves ..) | with_reducible apply Moves.ite
    | with_reducible apply Moves.foldl | with_reducible apply Moves.foldl_snd | with_reducible apply Moves.foldl_fst
    | ((with_reducible apply Moves.snd); assumption) | ((with_reducible apply Moves.fst); assumption) | split | dsimp only

theorem State.handleWord_moves (s : State) (p : Word → Bool) (f : Word → State → State) {fs : List Part} (hf : ∀ (x0 : Word) (t : State), Moves fs t (f x0 t)) :
    Moves ([.regs, .ladder, .selv] ++ fs) s (State.handleWord s p f) := by
  unfold State.handleWord
  repeat' first
    | with_reducible apply Moves.refl | ((with_reducible apply Within.of); exact rfl) | intro _
    | with_reducible apply Within.right | with_reducible apply Within.append
    | with_reducible apply Moves.step (hf ..) (Within.right _ _)
    | with_reducible apply Moves.step (State.setSelv_moves ..)
    | with_reducible apply Moves.step (State.refuseWord_moves ..) | with_reducible apply Moves.ite
    | with_reducible apply Moves.foldl | with_reducible apply Moves.foldl_snd | with_reducible apply Moves.foldl_fst
    | ((with_reducible apply Moves.snd); assumption) | ((with_reducible apply Moves.fst); assumption) | split | dsimp only

theorem State.pairStep_moves (s : State) (n : Nat) (f : State → State) {fs : List Part} (hf : ∀ (t : State), Moves fs t (f t)) :
    Moves ([.regs, .ladder, .weft, .selv] ++ fs) s (State.pairStep s n f) := by
  unfold State.pairStep
  repeat' first
    | with_reducible apply Moves.refl | ((with_reducible apply Within.of); exact rfl) | intro _
    | with_reducible apply Within.right | with_reducible apply Within.append
    | with_reducible apply Moves.step (hf ..) (Within.right _ _)
    | with_reducible apply Moves.step (State.setSafePair_moves ..) | with_reducible apply Moves.step (State.line_moves ..)
    | with_reducible apply Moves.step (State.note_moves ..) | with_reducible apply Moves.step (State.setSelv_moves ..)
    | with_reducible apply Moves.step (State.setFlag_moves ..) | with_reducible apply Moves.ite
    | with_reducible apply Moves.foldl | with_reducible apply Moves.foldl_snd | with_reducible apply Moves.foldl_fst
    | ((with_reducible apply Moves.snd); assumption) | ((with_reducible apply Moves.fst); assumption) | split | dsimp only

theorem State.acknowledge_moves (s : State) (outs pairs off : Nat) :
    Moves [.regs, .ladder, .weft, .selv, .sense] s (State.acknowledge s outs pairs off) := by
  unfold State.acknowledge
  repeat' first
    | with_reducible apply Moves.refl | ((with_reducible apply Within.of); exact rfl) | intro _
    | with_reducible apply Moves.step (State.pairStep_moves (fs := [.regs, .ladder, .weft, .selv, .sense]) (hf := ?_) ..)
    | with_reducible apply Moves.step (State.setSafePair_moves ..)
    | with_reducible apply Moves.step (State.setBit_moves ..)
    | with_reducible apply Moves.step (State.refreshOuts_moves ..) | with_reducible apply Moves.step (State.line_moves ..)
    | with_reducible apply Moves.step (State.setFld_moves ..) | with_reducible apply Moves.ite
    | with_reducible apply Moves.foldl | with_reducible apply Moves.foldl_snd | with_reducible apply Moves.foldl_fst
    | ((with_reducible apply Moves.snd); assumption) | ((with_reducible apply Moves.fst); assumption) | split | dsimp only

theorem State.readbackFault_moves (s : State) (m : Nat) :
    Moves [.regs, .ladder, .weft, .selv, .sense] s (State.readbackFault s m) := by
  unfold State.readbackFault
  repeat' first
    | with_reducible apply Moves.refl | ((with_reducible apply Within.of); exact rfl) | intro _
    | with_reducible apply Moves.step (State.line_moves ..) | with_reducible apply Moves.step (State.note_moves ..)
    | with_reducible apply Moves.step (State.outOff_moves ..) | with_reducible apply Moves.step (State.setBit_moves ..)
    | with_reducible apply Moves.ite | with_reducible apply Moves.foldl | with_reducible apply Moves.foldl_snd
    | with_reducible apply Moves.foldl_fst | ((with_reducible apply Moves.snd); assumption)
    | ((with_reducible apply Moves.fst); assumption) | split | dsimp only

theorem State.confTimeout_moves (s : State) :
    Moves [.regs, .weft, .selv] s (State.confTimeout s) := by
  unfold State.confTimeout
  repeat' first
    | with_reducible apply Moves.refl | ((with_reducible apply Within.of); exact rfl) | intro _
    | with_reducible apply Moves.step (State.setSelv_moves ..) | with_reducible apply Moves.step (State.line_moves ..)
    | with_reducible apply Moves.step (State.setFld_moves ..) | with_reducible apply Moves.ite
    | with_reducible apply Moves.foldl | with_reducible apply Moves.foldl_snd | with_reducible apply Moves.foldl_fst
    | ((with_reducible apply Moves.snd); assumption) | ((with_reducible apply Moves.fst); assumption) | split | dsimp only

theorem State.resetButton_moves (s : State) (n : Nat) (held : Option Nat) (off : BitVec 10) :
    Moves [.regs, .ladder, .weft, .selv, .sense] s (State.resetButton s n held off) := by
  unfold State.resetButton
  repeat' first
    | with_reducible apply Moves.refl | ((with_reducible apply Within.of); exact rfl) | intro _
    | with_reducible apply Moves.step (State.acknowledge_moves ..) | with_reducible apply Moves.ite
    | with_reducible apply Moves.foldl | with_reducible apply Moves.foldl_snd | with_reducible apply Moves.foldl_fst
    | ((with_reducible apply Moves.snd); assumption) | ((with_reducible apply Moves.fst); assumption) | split | dsimp only

end Sys2Proof.Machine
end

