-- ==== Sys2Proof/Laws/MovesSalternOps.lean ====
section
/-!
SUPPORT. Laws/MovesSalternOps.lean: which parts of the state each operation of Machine/SalternOps.lean moves.
-/
set_option Elab.async false
namespace Sys2Proof.Machine
set_option linter.all false

theorem State.salPut_moves (s : State) (a : Nat) (v : Word) :
    Moves [.regs, .sal] s (State.salPut s a v) := by
  unfold State.salPut
  repeat' first
    | with_reducible apply Moves.refl | ((with_reducible apply Within.of); exact rfl) | intro _
    | with_reducible apply Moves.step (State.wr_moves ..) | with_reducible apply Moves.step (State.setSal_moves ..)
    | with_reducible apply Moves.ite | with_reducible apply Moves.foldl | with_reducible apply Moves.foldl_snd
    | with_reducible apply Moves.foldl_fst | ((with_reducible apply Moves.snd); assumption)
    | ((with_reducible apply Moves.fst); assumption) | split | dsimp only

theorem State.showPans_moves (s : State) :
    Moves [.regs] s (State.showPans s) := by
  unfold State.showPans
  repeat' first
    | with_reducible apply Moves.refl | ((with_reducible apply Within.of); exact rfl) | intro _
    | with_reducible apply Moves.step (State.setFld_moves ..) | with_reducible apply Moves.step (State.setFlag_moves ..)
    | with_reducible apply Moves.ite | with_reducible apply Moves.foldl | with_reducible apply Moves.foldl_snd
    | with_reducible apply Moves.foldl_fst | ((with_reducible apply Moves.snd); assumption)
    | ((with_reducible apply Moves.fst); assumption) | split | dsimp only

theorem State.showCfgCrc_moves (s : State) :
    Moves [.regs] s (State.showCfgCrc s) := by
  unfold State.showCfgCrc
  repeat' first
    | with_reducible apply Moves.refl | ((with_reducible apply Within.of); exact rfl) | intro _
    | with_reducible apply Moves.step (State.onBlk_moves (fs := [.regs]) (hf := ?_) ..)
    | with_reducible apply Moves.step (State.wr_moves ..) | with_reducible apply Moves.ite
    | with_reducible apply Moves.foldl | with_reducible apply Moves.foldl_snd | with_reducible apply Moves.foldl_fst
    | ((with_reducible apply Moves.snd); assumption) | ((with_reducible apply Moves.fst); assumption) | split | dsimp only

theorem State.salCommit_moves (s : State) (cut : Nat) (solves : Bool) :
    Moves [.regs, .live, .ladder, .weft, .sal] s (State.salCommit s cut solves) := by
  unfold State.salCommit
  repeat' first
    | with_reducible apply Moves.refl | ((with_reducible apply Within.of); exact rfl) | intro _
    | with_reducible apply Moves.step (State.wrLive_moves ..) | with_reducible apply Moves.step (State.setFlag_moves ..)
    | with_reducible apply Moves.step (State.setSal_moves ..)
    | with_reducible apply Moves.step (State.showCfgCrc_moves ..)
    | with_reducible apply Moves.step (State.showPans_moves ..) | with_reducible apply Moves.step (State.line_moves ..)
    | with_reducible apply Moves.step (State.note_moves ..) | with_reducible apply Moves.ite
    | with_reducible apply Moves.foldl | with_reducible apply Moves.foldl_snd | with_reducible apply Moves.foldl_fst
    | ((with_reducible apply Moves.snd); assumption) | ((with_reducible apply Moves.fst); assumption) | split | dsimp only

theorem State.salRaise_moves (s : State) (e : Nat) :
    Moves [.regs, .weft, .sal] s (State.salRaise s e) := by
  unfold State.salRaise
  repeat' first
    | with_reducible apply Moves.refl | ((with_reducible apply Within.of); exact rfl) | intro _
    | with_reducible apply Moves.step (State.setSal_moves ..) | with_reducible apply Moves.step (State.setFld_moves ..)
    | with_reducible apply Moves.step (State.line_moves ..) | with_reducible apply Moves.step (State.setFlag_moves ..)
    | with_reducible apply Moves.ite | with_reducible apply Moves.foldl | with_reducible apply Moves.foldl_snd
    | with_reducible apply Moves.foldl_fst | ((with_reducible apply Moves.snd); assumption)
    | ((with_reducible apply Moves.fst); assumption) | split | dsimp only

theorem State.salEmergency_moves (s : State) (cut : Nat) :
    Moves [.regs, .weft, .sal] s (State.salEmergency s cut).1 := by
  unfold State.salEmergency
  repeat' first
    | with_reducible apply Moves.refl | ((with_reducible apply Within.of); exact rfl) | intro _
    | with_reducible apply Moves.step (State.setSal_moves ..) | with_reducible apply Moves.step (State.setFlag_moves ..)
    | with_reducible apply Moves.step (State.line_moves ..) | with_reducible apply Moves.step (State.setFld_moves ..)
    | with_reducible apply Moves.step (State.wr_moves ..) | with_reducible apply Moves.ite
    | with_reducible apply Moves.foldl | with_reducible apply Moves.foldl_snd | with_reducible apply Moves.foldl_fst
    | ((with_reducible apply Moves.snd); assumption) | ((with_reducible apply Moves.fst); assumption) | split | dsimp only

theorem State.salDemWrite_moves (s : State) (i data : Nat) :
    Moves [.regs, .sal] s (State.salDemWrite s i data) := by
  unfold State.salDemWrite
  repeat' first
    | with_reducible apply Moves.refl | ((with_reducible apply Within.of); exact rfl) | intro _
    | with_reducible apply Moves.step (State.salPut_moves ..) | with_reducible apply Moves.step (State.setSal_moves ..)
    | with_reducible apply Moves.ite | with_reducible apply Moves.foldl | with_reducible apply Moves.foldl_snd
    | with_reducible apply Moves.foldl_fst | ((with_reducible apply Moves.snd); assumption)
    | ((with_reducible apply Moves.fst); assumption) | split | dsimp only

theorem State.salFreshness_moves (s : State) (cut : Nat) :
    Moves [.sal] s (State.salFreshness s cut) := by
  unfold State.salFreshness
  repeat' first
    | with_reducible apply Moves.refl | ((with_reducible apply Within.of); exact rfl) | intro _
    | with_reducible apply Moves.step (State.setSal_moves ..) | with_reducible apply Moves.ite
    | with_reducible apply Moves.foldl | with_reducible apply Moves.foldl_snd | with_reducible apply Moves.foldl_fst
    | ((with_reducible apply Moves.snd); assumption) | ((with_reducible apply Moves.fst); assumption) | split | dsimp only

theorem State.salResults_moves (s : State) (v : Solve) (r : SolveOut) :
    Moves [.regs] s (State.salResults s v r) := by
  unfold State.salResults
  repeat' first
    | with_reducible apply Moves.refl | ((with_reducible apply Within.of); exact rfl) | intro _
    | with_reducible apply Moves.step (State.wrNat_moves ..) | with_reducible apply Moves.step (State.setFld_moves ..)
    | with_reducible apply Moves.ite | with_reducible apply Moves.foldl | with_reducible apply Moves.foldl_snd
    | with_reducible apply Moves.foldl_fst | ((with_reducible apply Moves.snd); assumption)
    | ((with_reducible apply Moves.fst); assumption) | split | dsimp only

theorem State.salAbort_moves (s : State) :
    Moves [.regs, .weft, .sal] s (State.salAbort s) := by
  unfold State.salAbort
  repeat' first
    | with_reducible apply Moves.refl | ((with_reducible apply Within.of); exact rfl) | intro _
    | with_reducible apply Moves.step (State.line_moves ..) | with_reducible apply Moves.step (State.setFlag_moves ..)
    | with_reducible apply Moves.step (State.setSal_moves ..) | with_reducible apply Moves.ite
    | with_reducible apply Moves.foldl | with_reducible apply Moves.foldl_snd | with_reducible apply Moves.foldl_fst
    | ((with_reducible apply Moves.snd); assumption) | ((with_reducible apply Moves.fst); assumption) | split | dsimp only

theorem State.salGo_moves (s : State) :
    Moves [.regs, .sal] s (State.salGo s) := by
  unfold State.salGo
  repeat' first
    | with_reducible apply Moves.refl | ((with_reducible apply Within.of); exact rfl) | intro _
    | with_reducible apply Moves.step (State.setFlag_moves ..) | with_reducible apply Moves.step (State.setSal_moves ..)
    | with_reducible apply Moves.ite | with_reducible apply Moves.foldl | with_reducible apply Moves.foldl_snd
    | with_reducible apply Moves.foldl_fst | ((with_reducible apply Moves.snd); assumption)
    | ((with_reducible apply Moves.fst); assumption) | split | dsimp only

theorem State.salClear_moves (s : State) :
    Moves [.regs, .sal] s (State.salClear s) := by
  unfold State.salClear
  repeat' first
    | with_reducible apply Moves.refl | ((with_reducible apply Within.of); exact rfl) | intro _
    | with_reducible apply Moves.step (State.setFlag_moves ..) | with_reducible apply Moves.step (State.setSal_moves ..)
    | with_reducible apply Moves.ite | with_reducible apply Moves.foldl | with_reducible apply Moves.foldl_snd
    | with_reducible apply Moves.foldl_fst | ((with_reducible apply Moves.snd); assumption)
    | ((with_reducible apply Moves.fst); assumption) | split | dsimp only

theorem State.salStateWrite_moves (s : State) (a : Nat) (data : Word) :
    Moves [.regs, .sal] s (State.salStateWrite s a data) := by
  unfold State.salStateWrite
  repeat' first
    | with_reducible apply Moves.refl | ((with_reducible apply Within.of); exact rfl) | intro _
    | with_reducible apply Moves.step (State.setFlag_moves ..) | with_reducible apply Moves.step (State.wr_moves ..)
    | with_reducible apply Moves.step (State.setSal_moves ..) | with_reducible apply Moves.ite
    | with_reducible apply Moves.foldl | with_reducible apply Moves.foldl_snd | with_reducible apply Moves.foldl_fst
    | ((with_reducible apply Moves.snd); assumption) | ((with_reducible apply Moves.fst); assumption) | split | dsimp only

theorem State.setSets_moves (s : State) (l : List GrantSet) :
    Moves [.regs, .sal] s (State.setSets s l) := by
  unfold State.setSets
  repeat' first
    | with_reducible apply Moves.refl | ((with_reducible apply Within.of); exact rfl) | intro _
    | with_reducible apply Moves.step (State.setFld_moves ..) | with_reducible apply Moves.step (State.setSal_moves ..)
    | with_reducible apply Moves.ite | with_reducible apply Moves.foldl | with_reducible apply Moves.foldl_snd
    | with_reducible apply Moves.foldl_fst | ((with_reducible apply Moves.snd); assumption)
    | ((with_reducible apply Moves.fst); assumption) | split | dsimp only

theorem State.applySet_moves (s : State) (x : GrantSet) :
    Moves [.regs, .weft, .sal] s (State.applySet s x) := by
  unfold State.applySet
  repeat' first
    | with_reducible apply Moves.refl | ((with_reducible apply Within.of); exact rfl) | intro _
    | with_reducible apply Moves.step (State.wrNat_moves ..) | with_reducible apply Moves.step (State.line_moves ..)
    | with_reducible apply Moves.step (State.setSal_moves ..) | with_reducible apply Moves.ite
    | with_reducible apply Moves.foldl | with_reducible apply Moves.foldl_snd | with_reducible apply Moves.foldl_fst
    | ((with_reducible apply Moves.snd); assumption) | ((with_reducible apply Moves.fst); assumption) | split | dsimp only

theorem State.takeSet_moves (s : State) (x : GrantSet) :
    Moves [.regs, .ladder, .weft, .sal] s (State.takeSet s x) := by
  unfold State.takeSet
  repeat' first
    | with_reducible apply Moves.refl | ((with_reducible apply Within.of); exact rfl) | intro _
    | with_reducible apply Moves.step (State.applySet_moves ..) | with_reducible apply Moves.step (State.note_moves ..)
    | with_reducible apply Moves.step (State.bump_moves ..) | with_reducible apply Moves.step (State.setFlag_moves ..)
    | with_reducible apply Moves.step (State.setSets_moves ..) | with_reducible apply Moves.ite
    | with_reducible apply Moves.foldl | with_reducible apply Moves.foldl_snd | with_reducible apply Moves.foldl_fst
    | ((with_reducible apply Moves.snd); assumption) | ((with_reducible apply Moves.fst); assumption) | split | dsimp only

end Sys2Proof.Machine
end

