-- ==== Sys2Proof/Laws/MovesZwidyOps.lean ====
section
/-!
SUPPORT. Laws/MovesZwidyOps.lean: which parts of the state each operation of Machine/ZwidyOps.lean moves.
-/
set_option Elab.async false
namespace Sys2Proof.Machine
set_option linter.all false

theorem State.zwFlag_moves (s : State) (f : Fld) :
    Moves [.regs] s (State.zwFlag s f) := by
  unfold State.zwFlag
  repeat' first
    | with_reducible apply Moves.refl | ((with_reducible apply Within.of); exact rfl) | intro _
    | with_reducible apply Moves.step (State.setFlag_moves ..) | with_reducible apply Moves.ite
    | with_reducible apply Moves.foldl | with_reducible apply Moves.foldl_snd | with_reducible apply Moves.foldl_fst
    | ((with_reducible apply Moves.snd); assumption) | ((with_reducible apply Moves.fst); assumption) | split | dsimp only

theorem State.setRole_moves (s : State) (r : Nat) :
    Moves [.regs, .weft] s (State.setRole s r) := by
  unfold State.setRole
  repeat' first
    | with_reducible apply Moves.refl | ((with_reducible apply Within.of); exact rfl) | intro _
    | with_reducible apply Moves.step (State.salMode_moves ..) | with_reducible apply Moves.step (State.setFld_moves ..)
    | with_reducible apply Moves.step (State.line_moves ..) | with_reducible apply Moves.ite
    | with_reducible apply Moves.foldl | with_reducible apply Moves.foldl_snd | with_reducible apply Moves.foldl_fst
    | ((with_reducible apply Moves.snd); assumption) | ((with_reducible apply Moves.fst); assumption) | split | dsimp only

theorem State.endSwap_moves (s : State) :
    Moves [.regs, .zw] s (State.endSwap s) := by
  unfold State.endSwap
  repeat' first
    | with_reducible apply Moves.refl | ((with_reducible apply Within.of); exact rfl) | intro _
    | with_reducible apply Moves.step (State.setFlag_moves ..) | with_reducible apply Moves.step (State.setZw_moves ..)
    | with_reducible apply Moves.ite | with_reducible apply Moves.foldl | with_reducible apply Moves.foldl_snd
    | with_reducible apply Moves.foldl_fst | ((with_reducible apply Moves.snd); assumption)
    | ((with_reducible apply Moves.fst); assumption) | split | dsimp only

theorem State.enterListen_moves (s : State) :
    Moves [.regs, .weft, .zw] s (State.enterListen s) := by
  unfold State.enterListen
  repeat' first
    | with_reducible apply Moves.refl | ((with_reducible apply Within.of); exact rfl) | intro _
    | with_reducible apply Moves.step (State.setZw_moves ..) | with_reducible apply Moves.step (State.setRole_moves ..)
    | with_reducible apply Moves.step (State.endSwap_moves ..) | with_reducible apply Moves.ite
    | with_reducible apply Moves.foldl | with_reducible apply Moves.foldl_snd | with_reducible apply Moves.foldl_fst
    | ((with_reducible apply Moves.snd); assumption) | ((with_reducible apply Moves.fst); assumption) | split | dsimp only

theorem State.enterOff_moves (s : State) :
    Moves [.regs, .weft, .zw] s (State.enterOff s) := by
  unfold State.enterOff
  repeat' first
    | with_reducible apply Moves.refl | ((with_reducible apply Within.of); exact rfl) | intro _
    | with_reducible apply Moves.step (State.setZw_moves ..) | with_reducible apply Moves.step (State.setRole_moves ..)
    | with_reducible apply Moves.step (State.setFlag_moves ..) | with_reducible apply Moves.step (State.endSwap_moves ..)
    | with_reducible apply Moves.ite | with_reducible apply Moves.foldl | with_reducible apply Moves.foldl_snd
    | with_reducible apply Moves.foldl_fst | ((with_reducible apply Moves.snd); assumption)
    | ((with_reducible apply Moves.fst); assumption) | split | dsimp only

theorem State.followAs_moves (s : State) (r : Nat) :
    Moves [.regs, .weft, .zw] s (State.followAs s r) := by
  unfold State.followAs
  repeat' first
    | with_reducible apply Moves.refl | ((with_reducible apply Within.of); exact rfl) | intro _
    | with_reducible apply Moves.step (State.setZw_moves ..) | with_reducible apply Moves.step (State.setRole_moves ..)
    | with_reducible apply Moves.ite | with_reducible apply Moves.foldl | with_reducible apply Moves.foldl_snd
    | with_reducible apply Moves.foldl_fst | ((with_reducible apply Moves.snd); assumption)
    | ((with_reducible apply Moves.fst); assumption) | split | dsimp only

theorem State.nextEpoch_moves (s : State) :
    Moves [.regs] s (State.nextEpoch s) := by
  unfold State.nextEpoch
  repeat' first
    | with_reducible apply Moves.refl | ((with_reducible apply Within.of); exact rfl) | intro _
    | with_reducible apply Moves.step (State.wrNat_moves ..) | with_reducible apply Moves.ite
    | with_reducible apply Moves.foldl | with_reducible apply Moves.foldl_snd | with_reducible apply Moves.foldl_fst
    | ((with_reducible apply Moves.snd); assumption) | ((with_reducible apply Moves.fst); assumption) | split | dsimp only

theorem State.claimNext_moves (s : State) :
    Moves [.regs, .zw] s (State.claimNext s) := by
  unfold State.claimNext
  repeat' first
    | with_reducible apply Moves.refl | ((with_reducible apply Within.of); exact rfl) | intro _
    | with_reducible apply Moves.step (State.salMode_moves ..) | with_reducible apply Moves.step (State.setZw_moves ..)
    | with_reducible apply Moves.step (State.nextEpoch_moves ..) | with_reducible apply Moves.ite
    | with_reducible apply Moves.foldl | with_reducible apply Moves.foldl_snd | with_reducible apply Moves.foldl_fst
    | ((with_reducible apply Moves.snd); assumption) | ((with_reducible apply Moves.fst); assumption) | split | dsimp only

theorem State.becomeLeader_moves (s : State) :
    Moves [.regs, .weft, .zw] s (State.becomeLeader s) := by
  unfold State.becomeLeader
  repeat' first
    | with_reducible apply Moves.refl | ((with_reducible apply Within.of); exact rfl) | intro _
    | with_reducible apply Moves.step (State.setZw_moves ..) | with_reducible apply Moves.step (State.setFlag_moves ..)
    | with_reducible apply Moves.step (State.setFld_moves ..) | with_reducible apply Moves.step (State.setRole_moves ..)
    | with_reducible apply Moves.ite | with_reducible apply Moves.foldl | with_reducible apply Moves.foldl_snd
    | with_reducible apply Moves.foldl_fst | ((with_reducible apply Moves.snd); assumption)
    | ((with_reducible apply Moves.fst); assumption) | split | dsimp only

theorem State.zwTakeTimer_moves (s : State) :
    Moves [.weft, .zw] s (State.zwTakeTimer s) := by
  unfold State.zwTakeTimer
  repeat' first
    | with_reducible apply Moves.refl | ((with_reducible apply Within.of); exact rfl) | intro _
    | with_reducible apply Moves.step (State.line_moves ..) | with_reducible apply Moves.step (State.setZw_moves ..)
    | with_reducible apply Moves.ite | with_reducible apply Moves.foldl | with_reducible apply Moves.foldl_snd
    | with_reducible apply Moves.foldl_fst | ((with_reducible apply Moves.snd); assumption)
    | ((with_reducible apply Moves.fst); assumption) | split | dsimp only

theorem State.zwSend_moves (s : State) (grant : Bool) (p : List Byte) :
    Moves [.out] s (State.zwSend s grant p) := by
  unfold State.zwSend
  repeat' first
    | with_reducible apply Moves.refl | ((with_reducible apply Within.of); exact rfl) | intro _
    | with_reducible apply Moves.step (State.emit_moves ..) | with_reducible apply Moves.ite
    | with_reducible apply Moves.foldl | with_reducible apply Moves.foldl_snd | with_reducible apply Moves.foldl_fst
    | ((with_reducible apply Moves.snd); assumption) | ((with_reducible apply Moves.fst); assumption) | split | dsimp only

theorem State.zwForward_moves (s : State) (port etype : Nat) (grant : Bool) (p : List Byte) :
    Moves [.out] s (State.zwForward s port etype grant p) := by
  unfold State.zwForward
  repeat' first
    | with_reducible apply Moves.refl | ((with_reducible apply Within.of); exact rfl) | intro _
    | with_reducible apply Moves.step (State.emit_moves ..) | with_reducible apply Moves.ite
    | with_reducible apply Moves.foldl | with_reducible apply Moves.foldl_snd | with_reducible apply Moves.foldl_fst
    | ((with_reducible apply Moves.snd); assumption) | ((with_reducible apply Moves.fst); assumption) | split | dsimp only

theorem State.zwDiscard_moves (s : State) (cell : Nat) :
    Moves [.regs, .ladder] s (State.zwDiscard s cell) := by
  unfold State.zwDiscard
  repeat' first
    | with_reducible apply Moves.refl | ((with_reducible apply Within.of); exact rfl) | intro _
    | with_reducible apply Moves.step (State.note_moves ..) | with_reducible apply Moves.step (State.zwFlag_moves ..)
    | with_reducible apply Moves.step (State.bump_moves ..) | with_reducible apply Moves.ite
    | with_reducible apply Moves.foldl | with_reducible apply Moves.foldl_snd | with_reducible apply Moves.foldl_fst
    | ((with_reducible apply Moves.snd); assumption) | ((with_reducible apply Moves.fst); assumption) | split | dsimp only

theorem State.zwPassed_moves (s : State) :
    Moves [.regs, .ladder, .zw] s (State.zwPassed s) := by
  unfold State.zwPassed
  repeat' first
    | with_reducible apply Moves.refl | ((with_reducible apply Within.of); exact rfl) | intro _
    | with_reducible apply Moves.step (State.recovers_moves ..) | with_reducible apply Moves.step (State.setZw_moves ..)
    | with_reducible apply Moves.ite | with_reducible apply Moves.foldl | with_reducible apply Moves.foldl_snd
    | with_reducible apply Moves.foldl_fst | ((with_reducible apply Moves.snd); assumption)
    | ((with_reducible apply Moves.fst); assumption) | split | dsimp only

theorem State.sawEpoch_moves (s : State) (e : Nat) :
    Moves [.regs] s (State.sawEpoch s e) := by
  unfold State.sawEpoch
  repeat' first
    | with_reducible apply Moves.refl | ((with_reducible apply Within.of); exact rfl) | intro _
    | with_reducible apply Moves.step (State.wrNat_moves ..) | with_reducible apply Moves.ite
    | with_reducible apply Moves.foldl | with_reducible apply Moves.foldl_snd | with_reducible apply Moves.foldl_fst
    | ((with_reducible apply Moves.snd); assumption) | ((with_reducible apply Moves.fst); assumption) | split | dsimp only

theorem State.zwDemWrite_moves (s : State) (o : Nat) (v : Word) :
    Moves [.regs, .zw] s (State.zwDemWrite s o v) := by
  unfold State.zwDemWrite
  repeat' first
    | with_reducible apply Moves.refl | ((with_reducible apply Within.of); exact rfl) | intro _
    | with_reducible apply Moves.step (State.wr_moves ..) | with_reducible apply Moves.step (State.setZw_moves ..)
    | with_reducible apply Moves.ite | with_reducible apply Moves.foldl | with_reducible apply Moves.foldl_snd
    | with_reducible apply Moves.foldl_fst | ((with_reducible apply Moves.snd); assumption)
    | ((with_reducible apply Moves.fst); assumption) | split | dsimp only

theorem State.zwDemands_moves (s : State) (c target : Nat) (dem : List Nat) :
    Moves [.regs, .ladder, .sal] s (State.zwDemands s c target dem) := by
  unfold State.zwDemands
  repeat' first
    | with_reducible apply Moves.refl | ((with_reducible apply Within.of); exact rfl) | intro _
    | with_reducible apply Moves.step (State.onBlk_moves (fs := [.regs, .ladder, .sal]) (hf := ?_) ..)
    | with_reducible apply Moves.step (State.salDemWrite_moves ..) | with_reducible apply Moves.step (State.note_moves ..)
    | with_reducible apply Moves.step (State.zwFlag_moves ..) | with_reducible apply Moves.step (State.bump_moves ..)
    | with_reducible apply Moves.ite | with_reducible apply Moves.foldl | with_reducible apply Moves.foldl_snd
    | with_reducible apply Moves.foldl_fst | ((with_reducible apply Moves.snd); assumption)
    | ((with_reducible apply Moves.fst); assumption) | split | dsimp only

theorem State.zwPublish_moves (s : State) (b apply_ : Nat) :
    Moves [.regs, .zw, .out] s (State.zwPublish s b apply_) := by
  unfold State.zwPublish
  repeat' first
    | with_reducible apply Moves.refl | ((with_reducible apply Within.of); exact rfl) | intro _
    | with_reducible apply Moves.step (State.onBlk_moves (fs := [.regs, .zw, .out]) (hf := ?_) ..)
    | with_reducible apply Moves.step (State.setFld_moves ..) | with_reducible apply Moves.step (State.zwSend_moves ..)
    | with_reducible apply Moves.step (State.salMode_moves ..) | with_reducible apply Moves.step (State.setZw_moves ..)
    | with_reducible apply Moves.ite | with_reducible apply Moves.foldl | with_reducible apply Moves.foldl_snd
    | with_reducible apply Moves.foldl_fst | ((with_reducible apply Moves.snd); assumption)
    | ((with_reducible apply Moves.fst); assumption) | split | dsimp only

theorem State.zwSave_moves (s : State) (p : List Byte) :
    Moves [.regs, .sal] s (State.zwSave s p) := by
  unfold State.zwSave
  repeat' first
    | with_reducible apply Moves.refl | ((with_reducible apply Within.of); exact rfl) | intro _
    | with_reducible apply Moves.step (State.onBlk_moves (fs := [.regs, .sal]) (hf := ?_) ..)
    | with_reducible apply Moves.step (State.salStateWrite_moves ..) | with_reducible apply Moves.ite
    | with_reducible apply Moves.foldl | with_reducible apply Moves.foldl_snd | with_reducible apply Moves.foldl_fst
    | ((with_reducible apply Moves.snd); assumption) | ((with_reducible apply Moves.fst); assumption) | split | dsimp only

theorem State.zwTakeSet_moves (s : State) (c e lastB : Nat) (x : GrantSet) :
    Moves [.regs, .ladder, .weft, .sal, .zw, .free] s (State.zwTakeSet s c e lastB x) := by
  unfold State.zwTakeSet
  repeat' first
    | with_reducible apply Moves.refl | ((with_reducible apply Within.of); exact rfl) | intro _
    | with_reducible apply Moves.step (State.setZw_moves ..) | with_reducible apply Moves.step (State.took_moves ..)
    | with_reducible apply Moves.step (State.setSets_moves ..) | with_reducible apply Moves.step (State.line_moves ..)
    | with_reducible apply Moves.step (State.note_moves ..) | with_reducible apply Moves.step (State.zwFlag_moves ..)
    | with_reducible apply Moves.ite | with_reducible apply Moves.foldl | with_reducible apply Moves.foldl_snd
    | with_reducible apply Moves.foldl_fst | ((with_reducible apply Moves.snd); assumption)
    | ((with_reducible apply Moves.fst); assumption) | split | dsimp only

theorem State.ownership_moves (s : State) (was : Bool) :
    Moves [.regs, .ladder, .weft, .selv, .sense, .hs, .zw] s (State.ownership s was) := by
  unfold State.ownership
  repeat' first
    | with_reducible apply Moves.refl | ((with_reducible apply Within.of); exact rfl) | intro _
    | with_reducible apply Moves.step (State.setZw_moves ..) | with_reducible apply Moves.step (State.note_moves ..)
    | with_reducible apply Moves.step (State.setFlag_moves ..)
    | with_reducible apply Moves.step (State.ownedMoved_moves ..) | with_reducible apply Moves.step (State.line_moves ..)
    | with_reducible apply Moves.step (State.enterListen_moves ..)
    | with_reducible apply Moves.step (State.enterOff_moves ..) | with_reducible apply Moves.ite
    | with_reducible apply Moves.foldl | with_reducible apply Moves.foldl_snd | with_reducible apply Moves.foldl_fst
    | ((with_reducible apply Moves.snd); assumption) | ((with_reducible apply Moves.fst); assumption) | split | dsimp only

theorem State.zwCtrlWrite_moves (s : State) (data : Word) :
    Moves [.regs, .ladder, .weft, .selv, .sense, .hs, .zw] s (State.zwCtrlWrite s data) := by
  unfold State.zwCtrlWrite
  repeat' first
    | with_reducible apply Moves.refl | ((with_reducible apply Within.of); exact rfl) | intro _
    | with_reducible apply Moves.step (State.ownership_moves ..) | with_reducible apply Moves.step (State.wr_moves ..)
    | with_reducible apply Moves.step (State.setZw_moves ..)
    | with_reducible apply Moves.step (State.enterListen_moves ..)
    | with_reducible apply Moves.step (State.enterOff_moves ..) | with_reducible apply Moves.ite
    | with_reducible apply Moves.foldl | with_reducible apply Moves.foldl_snd | with_reducible apply Moves.foldl_fst
    | ((with_reducible apply Moves.snd); assumption) | ((with_reducible apply Moves.fst); assumption) | split | dsimp only

theorem State.zwTimeBack_moves (s : State) :
    Moves [.regs] s (State.zwTimeBack s) := by
  unfold State.zwTimeBack
  repeat' first
    | with_reducible apply Moves.refl | ((with_reducible apply Within.of); exact rfl) | intro _
    | with_reducible apply Moves.step (State.zwFlag_moves ..) | with_reducible apply Moves.ite
    | with_reducible apply Moves.foldl | with_reducible apply Moves.foldl_snd | with_reducible apply Moves.foldl_fst
    | ((with_reducible apply Moves.snd); assumption) | ((with_reducible apply Moves.fst); assumption) | split | dsimp only

theorem State.dropDecay_moves (s : State) :
    Moves [.regs, .sal] s (State.dropDecay s) := by
  unfold State.dropDecay
  repeat' first
    | with_reducible apply Moves.refl | ((with_reducible apply Within.of); exact rfl) | intro _
    | with_reducible apply Moves.step (State.setSal_moves ..) | with_reducible apply Moves.step (State.setSets_moves ..)
    | with_reducible apply Moves.ite | with_reducible apply Moves.foldl | with_reducible apply Moves.foldl_snd
    | with_reducible apply Moves.foldl_fst | ((with_reducible apply Moves.snd); assumption)
    | ((with_reducible apply Moves.fst); assumption) | split | dsimp only

end Sys2Proof.Machine
end

