-- ==== Sys2Proof/Laws/MovesTimeOps.lean ====
section
/-!
SUPPORT. Laws/MovesTimeOps.lean: which parts of the state each operation of Machine/TimeOps.lean moves.
-/
set_option Elab.async false
namespace Sys2Proof.Machine
set_option linter.all false

theorem State.setTout_moves (s : State) (k : Nat) (x : Tout) :
    Moves [.time] s (State.setTout s k x) := by
  unfold State.setTout
  repeat' first
    | with_reducible apply Moves.refl | ((with_reducible apply Within.of); exact rfl) | intro _
    | with_reducible apply Moves.step (State.setTime_moves ..) | with_reducible apply Moves.ite
    | with_reducible apply Moves.foldl | with_reducible apply Moves.foldl_snd | with_reducible apply Moves.foldl_fst
    | ((with_reducible apply Moves.snd); assumption) | ((with_reducible apply Moves.fst); assumption) | split | dsimp only

theorem State.setTcap_moves (s : State) (k : Nat) (x : Tcap) :
    Moves [.time] s (State.setTcap s k x) := by
  unfold State.setTcap
  repeat' first
    | with_reducible apply Moves.refl | ((with_reducible apply Within.of); exact rfl) | intro _
    | with_reducible apply Moves.step (State.setTime_moves ..) | with_reducible apply Moves.ite
    | with_reducible apply Moves.foldl | with_reducible apply Moves.foldl_snd | with_reducible apply Moves.foldl_fst
    | ((with_reducible apply Moves.snd); assumption) | ((with_reducible apply Moves.fst); assumption) | split | dsimp only

theorem State.setTbState_moves (s : State) (n st : Nat) :
    Moves [.regs, .weft] s (State.setTbState s n st) := by
  unfold State.setTbState
  repeat' first
    | with_reducible apply Moves.refl | ((with_reducible apply Within.of); exact rfl) | intro _
    | with_reducible apply Moves.step (State.line_moves ..) | with_reducible apply Moves.step (State.setFld_moves ..)
    | with_reducible apply Moves.ite | with_reducible apply Moves.foldl | with_reducible apply Moves.foldl_snd
    | with_reducible apply Moves.foldl_fst | ((with_reducible apply Moves.snd); assumption)
    | ((with_reducible apply Moves.fst); assumption) | split | dsimp only

theorem State.tbRun_moves (s : State) (n : Nat) (r : Int) :
    Moves [.power, .time] s (State.tbRun s n r) := by
  unfold State.tbRun
  repeat' first
    | with_reducible apply Moves.refl | ((with_reducible apply Within.of); exact rfl) | intro _
    | with_reducible apply Moves.step (State.setBase_moves ..) | with_reducible apply Moves.ite
    | with_reducible apply Moves.foldl | with_reducible apply Moves.foldl_snd | with_reducible apply Moves.foldl_fst
    | ((with_reducible apply Moves.snd); assumption) | ((with_reducible apply Moves.fst); assumption) | split | dsimp only

theorem State.tbRateWrite_moves (s : State) (n : Nat) (v : Word) :
    Moves [.regs, .power, .time] s (State.tbRateWrite s n v) := by
  unfold State.tbRateWrite
  repeat' first
    | with_reducible apply Moves.refl | ((with_reducible apply Within.of); exact rfl) | intro _
    | with_reducible apply Moves.step (State.wr_moves ..) | with_reducible apply Moves.step (State.setFlag_moves ..)
    | with_reducible apply Moves.step (State.tbRun_moves ..) | with_reducible apply Moves.ite
    | with_reducible apply Moves.foldl | with_reducible apply Moves.foldl_snd | with_reducible apply Moves.foldl_fst
    | ((with_reducible apply Moves.snd); assumption) | ((with_reducible apply Moves.fst); assumption) | split | dsimp only

theorem State.tbServoRate_moves (s : State) (n : Nat) (r : Int) :
    Moves [.regs, .power, .time] s (State.tbServoRate s n r) := by
  unfold State.tbServoRate
  repeat' first
    | with_reducible apply Moves.refl | ((with_reducible apply Within.of); exact rfl) | intro _
    | with_reducible apply Moves.step (State.tbRateWrite_moves ..) | with_reducible apply Moves.ite
    | with_reducible apply Moves.foldl | with_reducible apply Moves.foldl_snd | with_reducible apply Moves.foldl_fst
    | ((with_reducible apply Moves.snd); assumption) | ((with_reducible apply Moves.fst); assumption) | split | dsimp only

theorem State.tbFollow_moves (s : State) (n : Nat) :
    Moves [.regs, .power, .time] s (State.tbFollow s n) := by
  unfold State.tbFollow
  repeat' first
    | with_reducible apply Moves.refl | ((with_reducible apply Within.of); exact rfl) | intro _
    | with_reducible apply Moves.step (State.setFlag_moves ..) | with_reducible apply Moves.step (State.setTb_moves ..)
    | with_reducible apply Moves.step (State.setBase_moves ..) | with_reducible apply Moves.ite
    | with_reducible apply Moves.foldl | with_reducible apply Moves.foldl_snd | with_reducible apply Moves.foldl_fst
    | ((with_reducible apply Moves.snd); assumption) | ((with_reducible apply Moves.fst); assumption) | split | dsimp only

theorem State.tbFollowers_moves (s : State) :
    Moves [.regs, .power, .time] s (State.tbFollowers s) := by
  unfold State.tbFollowers
  repeat' first
    | with_reducible apply Moves.refl | ((with_reducible apply Within.of); exact rfl) | intro _
    | with_reducible apply Moves.step (State.tbFollow_moves ..) | with_reducible apply Moves.ite
    | with_reducible apply Moves.foldl | with_reducible apply Moves.foldl_snd | with_reducible apply Moves.foldl_fst
    | ((with_reducible apply Moves.snd); assumption) | ((with_reducible apply Moves.fst); assumption) | split | dsimp only

theorem State.tbCfgWrite_moves (s : State) (n : Nat) (v : Word) :
    Moves [.regs, .weft, .power, .time] s (State.tbCfgWrite s n v) := by
  unfold State.tbCfgWrite
  repeat' first
    | with_reducible apply Moves.refl | ((with_reducible apply Within.of); exact rfl) | intro _
    | with_reducible apply Moves.step (State.wr_moves ..) | with_reducible apply Moves.step (State.setFlag_moves ..)
    | with_reducible apply Moves.step (State.setTb_moves ..)
    | with_reducible apply Moves.step (State.tbFollowers_moves ..)
    | with_reducible apply Moves.step (State.setTbState_moves ..) | with_reducible apply Moves.ite
    | with_reducible apply Moves.foldl | with_reducible apply Moves.foldl_snd | with_reducible apply Moves.foldl_fst
    | ((with_reducible apply Moves.snd); assumption) | ((with_reducible apply Moves.fst); assumption) | split | dsimp only

theorem State.toutRise_moves (s : State) (k at_ : Nat) :
    Moves [.weft, .time] s (State.toutRise s k at_) := by
  unfold State.toutRise
  repeat' first
    | with_reducible apply Moves.refl | ((with_reducible apply Within.of); exact rfl) | intro _
    | with_reducible apply Moves.step (State.line_moves ..) | with_reducible apply Moves.step (State.setTout_moves ..)
    | with_reducible apply Moves.ite | with_reducible apply Moves.foldl | with_reducible apply Moves.foldl_snd
    | with_reducible apply Moves.foldl_fst | ((with_reducible apply Moves.snd); assumption)
    | ((with_reducible apply Moves.fst); assumption) | split | dsimp only

theorem State.toutPlan_moves (s : State) (k : Nat) :
    Moves [.regs, .weft, .time] s (State.toutPlan s k) := by
  unfold State.toutPlan
  repeat' first
    | with_reducible apply Moves.refl | ((with_reducible apply Within.of); exact rfl) | intro _
    | with_reducible apply Moves.step (State.bump_moves ..) | with_reducible apply Moves.step (State.setTout_moves ..)
    | with_reducible apply Moves.step (State.toutRise_moves ..) | with_reducible apply Moves.step (State.setFlag_moves ..)
    | with_reducible apply Moves.ite | with_reducible apply Moves.foldl | with_reducible apply Moves.foldl_snd
    | with_reducible apply Moves.foldl_fst | ((with_reducible apply Moves.snd); assumption)
    | ((with_reducible apply Moves.fst); assumption) | split | dsimp only

theorem State.toutArm_moves (s : State) (k : Nat) :
    Moves [.regs, .weft, .time, .free] s (State.toutArm s k) := by
  unfold State.toutArm
  repeat' first
    | with_reducible apply Moves.refl | ((with_reducible apply Within.of); exact rfl) | intro _
    | with_reducible apply Moves.step (State.took_moves ..) | with_reducible apply Moves.step (State.setFlag_moves ..)
    | with_reducible apply Moves.step (State.toutPlan_moves ..) | with_reducible apply Moves.step (State.setTout_moves ..)
    | with_reducible apply Moves.ite | with_reducible apply Moves.foldl | with_reducible apply Moves.foldl_snd
    | with_reducible apply Moves.foldl_fst | ((with_reducible apply Moves.snd); assumption)
    | ((with_reducible apply Moves.fst); assumption) | split | dsimp only

theorem State.toutStop_moves (s : State) (k : Nat) :
    Moves [.time] s (State.toutStop s k) := by
  unfold State.toutStop
  repeat' first
    | with_reducible apply Moves.refl | ((with_reducible apply Within.of); exact rfl) | intro _
    | with_reducible apply Moves.step (State.setTout_moves ..) | with_reducible apply Moves.ite
    | with_reducible apply Moves.foldl | with_reducible apply Moves.foldl_snd | with_reducible apply Moves.foldl_fst
    | ((with_reducible apply Moves.snd); assumption) | ((with_reducible apply Moves.fst); assumption) | split | dsimp only

theorem State.toutCfgWrite_moves (s : State) (k : Nat) (v : Word) :
    Moves [.regs, .weft, .time, .free] s (State.toutCfgWrite s k v) := by
  unfold State.toutCfgWrite
  repeat' first
    | with_reducible apply Moves.refl | ((with_reducible apply Within.of); exact rfl) | intro _
    | with_reducible apply Moves.step (State.wr_moves ..) | with_reducible apply Moves.step (State.toutArm_moves ..)
    | with_reducible apply Moves.step (State.toutStop_moves ..) | with_reducible apply Moves.ite
    | with_reducible apply Moves.foldl | with_reducible apply Moves.foldl_snd | with_reducible apply Moves.foldl_fst
    | ((with_reducible apply Moves.snd); assumption) | ((with_reducible apply Moves.fst); assumption) | split | dsimp only

theorem State.boundariesAgain_moves (s : State) :
    Moves [.sal, .zw, .grid] s (State.boundariesAgain s) := by
  unfold State.boundariesAgain
  repeat' first
    | with_reducible apply Moves.refl | ((with_reducible apply Within.of); exact rfl) | intro _
    | with_reducible apply Moves.step (State.setGrid_moves ..) | with_reducible apply Moves.step (State.setZw_moves ..)
    | with_reducible apply Moves.step (State.setSal_moves ..) | with_reducible apply Moves.ite
    | with_reducible apply Moves.foldl | with_reducible apply Moves.foldl_snd | with_reducible apply Moves.foldl_fst
    | ((with_reducible apply Moves.snd); assumption) | ((with_reducible apply Moves.fst); assumption) | split | dsimp only

theorem State.tbMove_moves (s : State) (n by_ : Nat) :
    Moves [.regs, .weft, .power, .time, .sal, .zw, .grid] s (State.tbMove s n by_) := by
  unfold State.tbMove
  repeat' first
    | with_reducible apply Moves.refl | ((with_reducible apply Within.of); exact rfl) | intro _
    | with_reducible apply Moves.step (State.setBase_moves ..) | with_reducible apply Moves.step (State.toutPlan_moves ..)
    | with_reducible apply Moves.step (State.setTcap_moves ..)
    | with_reducible apply Moves.step (State.boundariesAgain_moves ..)
    | with_reducible apply Moves.step (State.zwTimeBack_moves ..) | with_reducible apply Moves.ite
    | with_reducible apply Moves.foldl | with_reducible apply Moves.foldl_snd | with_reducible apply Moves.foldl_fst
    | ((with_reducible apply Moves.snd); assumption) | ((with_reducible apply Moves.fst); assumption) | split | dsimp only

theorem State.tbJump_moves (s : State) (n v : Nat) :
    Moves [.regs, .weft, .power, .time, .sal, .zw, .grid] s (State.tbJump s n v) := by
  unfold State.tbJump
  repeat' first
    | with_reducible apply Moves.refl | ((with_reducible apply Within.of); exact rfl) | intro _
    | with_reducible apply Moves.step (State.tbMove_moves ..) | with_reducible apply Moves.step (State.setTb_moves ..)
    | with_reducible apply Moves.step (State.line_moves ..) | with_reducible apply Moves.step (State.setFlag_moves ..)
    | with_reducible apply Moves.ite | with_reducible apply Moves.foldl | with_reducible apply Moves.foldl_snd
    | with_reducible apply Moves.foldl_fst | ((with_reducible apply Moves.snd); assumption)
    | ((with_reducible apply Moves.fst); assumption) | split | dsimp only

theorem State.tbApply_moves (s : State) (n : Nat) :
    Moves [.regs, .weft, .power, .time, .sal, .zw, .grid] s (State.tbApply s n) := by
  unfold State.tbApply
  repeat' first
    | with_reducible apply Moves.refl | ((with_reducible apply Within.of); exact rfl) | intro _
    | with_reducible apply Moves.step (State.tbJump_moves ..) | with_reducible apply Moves.ite
    | with_reducible apply Moves.foldl | with_reducible apply Moves.foldl_snd | with_reducible apply Moves.foldl_fst
    | ((with_reducible apply Moves.snd); assumption) | ((with_reducible apply Moves.fst); assumption) | split | dsimp only

theorem State.tbGo_moves (s : State) (n : Nat) (abs : Bool) :
    Moves [.regs, .ladder, .time] s (State.tbGo s n abs) := by
  unfold State.tbGo
  repeat' first
    | with_reducible apply Moves.refl | ((with_reducible apply Within.of); exact rfl) | intro _
    | with_reducible apply Moves.step (State.setFlag_moves ..)
    | with_reducible apply Moves.step (State.recoversCell_moves ..)
    | with_reducible apply Moves.step (State.setTb_moves ..) | with_reducible apply Moves.ite
    | with_reducible apply Moves.foldl | with_reducible apply Moves.foldl_snd | with_reducible apply Moves.foldl_fst
    | ((with_reducible apply Moves.snd); assumption) | ((with_reducible apply Moves.fst); assumption) | split | dsimp only

theorem State.tbMay_moves (s : State) (n slot : Nat) (f : State → State) {fs : List Part} (hf : ∀ (t : State), Moves fs t (f t)) :
    Moves ([.regs] ++ fs) s (State.tbMay s n slot f) := by
  unfold State.tbMay
  repeat' first
    | with_reducible apply Moves.refl | ((with_reducible apply Within.of); exact rfl) | intro _
    | with_reducible apply Within.right | with_reducible apply Within.append
    | with_reducible apply Moves.step (hf ..) (Within.right _ _)
    | with_reducible apply Moves.step (State.setFlag_moves ..) | with_reducible apply Moves.ite
    | with_reducible apply Moves.foldl | with_reducible apply Moves.foldl_snd | with_reducible apply Moves.foldl_fst
    | ((with_reducible apply Moves.snd); assumption) | ((with_reducible apply Moves.fst); assumption) | split | dsimp only

end Sys2Proof.Machine
end

