-- ==== Sys2Proof/Laws/MovesCanOps.lean ====
section
/-!
SUPPORT. Laws/MovesCanOps.lean: which parts of the state each operation of Machine/CanOps.lean moves.
-/
set_option Elab.async false
namespace Sys2Proof.Machine
set_option linter.all false

theorem State.setCanCtl_moves (s : State) (n : Nat) (x : CanCtl) :
    Moves [.can] s (State.setCanCtl s n x) := by
  unfold State.setCanCtl
  repeat' first
    | with_reducible apply Moves.refl | ((with_reducible apply Within.of); exact rfl) | intro _
    | with_reducible apply Moves.step (State.setCan_moves ..) | with_reducible apply Moves.ite
    | with_reducible apply Moves.foldl | with_reducible apply Moves.foldl_snd | with_reducible apply Moves.foldl_fst
    | ((with_reducible apply Moves.snd); assumption) | ((with_reducible apply Moves.fst); assumption) | split | dsimp only

theorem State.setCanPend_moves (s : State) (n m : Nat) :
    Moves [.regs] s (State.setCanPend s n m) := by
  unfold State.setCanPend
  repeat' first
    | with_reducible apply Moves.refl | ((with_reducible apply Within.of); exact rfl) | intro _
    | with_reducible apply Moves.step (State.setFld_moves ..) | with_reducible apply Moves.ite
    | with_reducible apply Moves.foldl | with_reducible apply Moves.foldl_snd | with_reducible apply Moves.foldl_fst
    | ((with_reducible apply Moves.snd); assumption) | ((with_reducible apply Moves.fst); assumption) | split | dsimp only

theorem State.canAct_moves (s : State) (n : Nat) :
    Moves [.regs] s (State.canAct s n) := by
  unfold State.canAct
  repeat' first
    | with_reducible apply Moves.refl | ((with_reducible apply Within.of); exact rfl) | intro _
    | with_reducible apply Moves.step (State.setFld_moves ..) | with_reducible apply Moves.ite
    | with_reducible apply Moves.foldl | with_reducible apply Moves.foldl_snd | with_reducible apply Moves.foldl_fst
    | ((with_reducible apply Moves.snd); assumption) | ((with_reducible apply Moves.fst); assumption) | split | dsimp only

theorem State.canDrop_moves (s : State) (n : Nat) :
    Moves [.can] s (State.canDrop s n) := by
  unfold State.canDrop
  repeat' first
    | with_reducible apply Moves.refl | ((with_reducible apply Within.of); exact rfl) | intro _
    | with_reducible apply Moves.step (State.setCanCtl_moves ..) | with_reducible apply Moves.ite
    | with_reducible apply Moves.foldl | with_reducible apply Moves.foldl_snd | with_reducible apply Moves.foldl_fst
    | ((with_reducible apply Moves.snd); assumption) | ((with_reducible apply Moves.fst); assumption) | split | dsimp only

theorem State.canErrSync_moves (s : State) (n : Nat) :
    Moves [.regs, .ladder, .weft] s (State.canErrSync s n) := by
  unfold State.canErrSync
  repeat' first
    | with_reducible apply Moves.refl | ((with_reducible apply Within.of); exact rfl) | intro _
    | with_reducible apply Moves.step (State.setFlag_moves ..) | with_reducible apply Moves.step (State.setFld_moves ..)
    | with_reducible apply Moves.step (State.note_moves ..) | with_reducible apply Moves.step (State.line_moves ..)
    | with_reducible apply Moves.ite | with_reducible apply Moves.foldl | with_reducible apply Moves.foldl_snd
    | with_reducible apply Moves.foldl_fst | ((with_reducible apply Moves.snd); assumption)
    | ((with_reducible apply Moves.fst); assumption) | split | dsimp only

theorem State.canBusOff_moves (s : State) (n : Nat) :
    Moves [.regs, .ladder, .weft, .can] s (State.canBusOff s n) := by
  unfold State.canBusOff
  repeat' first
    | with_reducible apply Moves.refl | ((with_reducible apply Within.of); exact rfl) | intro _
    | with_reducible apply Moves.step (State.canDrop_moves ..)
    | with_reducible apply Moves.step (State.setCanCtl_moves ..) | with_reducible apply Moves.step (State.canAct_moves ..)
    | with_reducible apply Moves.step (State.line_moves ..) | with_reducible apply Moves.step (State.note_moves ..)
    | with_reducible apply Moves.step (State.setFlag_moves ..) | with_reducible apply Moves.ite
    | with_reducible apply Moves.foldl | with_reducible apply Moves.foldl_snd | with_reducible apply Moves.foldl_fst
    | ((with_reducible apply Moves.snd); assumption) | ((with_reducible apply Moves.fst); assumption) | split | dsimp only

theorem State.canRamError_moves (s : State) (n : Nat) :
    Moves [.regs, .ladder, .can] s (State.canRamError s n) := by
  unfold State.canRamError
  repeat' first
    | with_reducible apply Moves.refl | ((with_reducible apply Within.of); exact rfl) | intro _
    | with_reducible apply Moves.step (State.canDrop_moves ..) | with_reducible apply Moves.step (State.contain_moves ..)
    | with_reducible apply Moves.step (State.canAct_moves ..) | with_reducible apply Moves.step (State.setCanCtl_moves ..)
    | with_reducible apply Moves.ite | with_reducible apply Moves.foldl | with_reducible apply Moves.foldl_snd
    | with_reducible apply Moves.foldl_fst | ((with_reducible apply Moves.snd); assumption)
    | ((with_reducible apply Moves.fst); assumption) | split | dsimp only

theorem State.canPassed_moves (s : State) (n : Nat) :
    Moves [.regs, .ladder, .can] s (State.canPassed s n) := by
  unfold State.canPassed
  repeat' first
    | with_reducible apply Moves.refl | ((with_reducible apply Within.of); exact rfl) | intro _
    | with_reducible apply Moves.step (State.recoversCell_moves ..)
    | with_reducible apply Moves.step (State.setCanCtl_moves ..) | with_reducible apply Moves.ite
    | with_reducible apply Moves.foldl | with_reducible apply Moves.foldl_snd | with_reducible apply Moves.foldl_fst
    | ((with_reducible apply Moves.snd); assumption) | ((with_reducible apply Moves.fst); assumption) | split | dsimp only

theorem State.canOffer_moves (s : State) (n : Nat) :
    Moves [.regs, .mem, .ecc, .ladder, .fabric, .weft, .power, .selv, .sense, .hs, .can, .free] s (State.canOffer s n) := by
  unfold State.canOffer
  repeat' first
    | with_reducible apply Moves.refl | ((with_reducible apply Within.of); exact rfl) | intro _
    | with_reducible apply Moves.step (State.canAct_moves ..) | with_reducible apply Moves.step (State.setCanCtl_moves ..)
    | with_reducible apply Moves.step (State.readBlock_moves ..)
    | with_reducible apply Moves.step (State.canRamError_moves ..) | with_reducible apply Moves.ite
    | with_reducible apply Moves.foldl | with_reducible apply Moves.foldl_snd | with_reducible apply Moves.foldl_fst
    | ((with_reducible apply Moves.snd); assumption) | ((with_reducible apply Moves.fst); assumption) | split | dsimp only

theorem State.canEnded_moves (s : State) (n b : Nat) (done : Bool) :
    Moves [.regs, .weft] s (State.canEnded s n b done) := by
  unfold State.canEnded
  repeat' first
    | with_reducible apply Moves.refl | ((with_reducible apply Within.of); exact rfl) | intro _
    | with_reducible apply Moves.step (State.setCanPend_moves ..) | with_reducible apply Moves.step (State.line_moves ..)
    | with_reducible apply Moves.step (State.setBit_moves ..) | with_reducible apply Moves.ite
    | with_reducible apply Moves.foldl | with_reducible apply Moves.foldl_snd | with_reducible apply Moves.foldl_fst
    | ((with_reducible apply Moves.snd); assumption) | ((with_reducible apply Moves.fst); assumption) | split | dsimp only

theorem State.canStore_moves (s : State) (n f low ns : Nat) (x : CanFrame) :
    Moves [.regs, .mem, .ecc, .ladder, .weft, .can, .free] s (State.canStore s n f low ns x) := by
  unfold State.canStore
  repeat' first
    | with_reducible apply Moves.refl | ((with_reducible apply Within.of); exact rfl) | intro _
    | with_reducible apply Moves.step (State.note_moves ..) | with_reducible apply Moves.step (State.bump_moves ..)
    | with_reducible apply Moves.step (State.writeBlock_moves ..)
    | with_reducible apply Moves.step (State.setFld_moves ..) | with_reducible apply Moves.step (State.line_moves ..)
    | with_reducible apply Moves.step (State.canRamError_moves ..)
    | with_reducible apply Moves.step (State.dmaRefused_moves ..) | with_reducible apply Moves.ite
    | with_reducible apply Moves.foldl | with_reducible apply Moves.foldl_snd | with_reducible apply Moves.foldl_fst
    | ((with_reducible apply Moves.snd); assumption) | ((with_reducible apply Moves.fst); assumption) | split | dsimp only

theorem State.refAccept_moves (s : State) (n ns : Nat) (f : CanFrame) :
    Moves [.regs, .weft, .time, .can] s (State.refAccept s n ns f) := by
  unfold State.refAccept
  repeat' first
    | with_reducible apply Moves.refl | ((with_reducible apply Within.of); exact rfl) | intro _
    | with_reducible apply Moves.step (State.setTb_moves ..) | with_reducible apply Moves.step (State.bump_moves ..)
    | with_reducible apply Moves.step (State.setCanCtl_moves ..) | with_reducible apply Moves.step (State.line_moves ..)
    | with_reducible apply Moves.step (State.setFld_moves ..) | with_reducible apply Moves.ite
    | with_reducible apply Moves.foldl | with_reducible apply Moves.foldl_snd | with_reducible apply Moves.foldl_fst
    | ((with_reducible apply Moves.snd); assumption) | ((with_reducible apply Moves.fst); assumption) | split | dsimp only

theorem State.canReceive_moves (s : State) (n ns : Nat) (f : CanFrame) :
    Moves [.regs, .mem, .ecc, .ladder, .weft, .time, .can, .free] s (State.canReceive s n ns f) := by
  unfold State.canReceive
  repeat' first
    | with_reducible apply Moves.refl | ((with_reducible apply Within.of); exact rfl) | intro _
    | with_reducible apply Moves.step (State.canPassed_moves ..)
    | with_reducible apply Moves.step (State.refAccept_moves ..)
    | with_reducible apply Moves.step (State.canStore_moves ..) | with_reducible apply Moves.ite
    | with_reducible apply Moves.foldl | with_reducible apply Moves.foldl_snd | with_reducible apply Moves.foldl_fst
    | ((with_reducible apply Moves.snd); assumption) | ((with_reducible apply Moves.fst); assumption) | split | dsimp only

theorem State.canCtrlWrite_moves (s : State) (n : Nat) (v : Word) :
    Moves [.regs, .mem, .ecc, .ladder, .fabric, .weft, .power, .selv, .sense, .hs, .can, .free] s (State.canCtrlWrite s n v) := by
  unfold State.canCtrlWrite
  repeat' first
    | with_reducible apply Moves.refl | ((with_reducible apply Within.of); exact rfl) | intro _
    | with_reducible apply Moves.step (State.wr_moves ..) | with_reducible apply Moves.step (State.canDrop_moves ..)
    | with_reducible apply Moves.step (State.canAct_moves ..) | with_reducible apply Moves.step (State.setCanCtl_moves ..)
    | with_reducible apply Moves.step (State.canErrSync_moves ..)
    | with_reducible apply Moves.step (State.setFlag_moves ..) | with_reducible apply Moves.step (State.canOffer_moves ..)
    | with_reducible apply Moves.ite | with_reducible apply Moves.foldl | with_reducible apply Moves.foldl_snd
    | with_reducible apply Moves.foldl_fst | ((with_reducible apply Moves.snd); assumption)
    | ((with_reducible apply Moves.fst); assumption) | split | dsimp only

end Sys2Proof.Machine
end

