-- ==== Sys2Proof/Laws/MovesCanCommands.lean ====
section
/-!
SUPPORT. Laws/MovesCanCommands.lean: which parts of the state each operation of Machine/CanCommands.lean moves.
-/
set_option Elab.async false
namespace Sys2Proof.Machine
set_option linter.all false

theorem execCanEnable_moves (n : Fin 4) (data : Word) (s : State) :
    Goes [.regs, .mem, .ecc, .ladder, .fabric, .weft, .power, .selv, .sense, .hs, .can, .free] s (execCanEnable n data s) := by
  unfold execCanEnable
  repeat' first
    | with_reducible apply Moves.refl | ((with_reducible apply Within.of); exact rfl) | intro _
    | with_reducible apply Goes.next | with_reducible apply Goes.fault | with_reducible apply Goes.ite
    | with_reducible apply Moves.step (State.onBlk_moves (fs := [.regs, .mem, .ecc, .ladder, .fabric, .weft, .power, .selv, .sense, .hs, .can, .free]) (hf := ?_) ..)
    | with_reducible apply Moves.step (State.canCtrlWrite_moves ..) | with_reducible apply Moves.ite
    | with_reducible apply Moves.foldl | with_reducible apply Moves.foldl_snd | with_reducible apply Moves.foldl_fst
    | ((with_reducible apply Moves.snd); assumption) | ((with_reducible apply Moves.fst); assumption) | split | dsimp only

theorem execCanBusJoin_moves (n : Fin 4) (s : State) :
    Goes [.regs, .mem, .ecc, .ladder, .fabric, .weft, .power, .selv, .sense, .hs, .can, .free] s (execCanBusJoin n s) := by
  unfold execCanBusJoin
  repeat' first
    | with_reducible apply Moves.refl | ((with_reducible apply Within.of); exact rfl) | intro _
    | with_reducible apply Goes.next | with_reducible apply Goes.fault | with_reducible apply Goes.ite
    | with_reducible apply Moves.step (State.onBlk_moves (fs := [.regs, .mem, .ecc, .ladder, .fabric, .weft, .power, .selv, .sense, .hs, .can, .free]) (hf := ?_) ..)
    | with_reducible apply Moves.step (State.canOffer_moves ..) | with_reducible apply Moves.step (State.canAct_moves ..)
    | with_reducible apply Moves.step (State.setCanCtl_moves ..) | with_reducible apply Moves.ite
    | with_reducible apply Moves.foldl | with_reducible apply Moves.foldl_snd | with_reducible apply Moves.foldl_fst
    | ((with_reducible apply Moves.snd); assumption) | ((with_reducible apply Moves.fst); assumption) | split | dsimp only

theorem execCanFrameRx_moves (n : Fin 4) (f : CanFrame) (ago : BitVec 32) (s : State) :
    Goes [.regs, .mem, .ecc, .ladder, .weft, .time, .can, .free] s (execCanFrameRx n f ago s) := by
  unfold execCanFrameRx
  repeat' first
    | with_reducible apply Moves.refl | ((with_reducible apply Within.of); exact rfl) | intro _
    | with_reducible apply Goes.next | with_reducible apply Goes.fault | with_reducible apply Goes.ite
    | with_reducible apply Moves.step (State.onBlk_moves (fs := [.regs, .mem, .ecc, .ladder, .weft, .time, .can, .free]) (hf := ?_) ..)
    | with_reducible apply Moves.step (State.canErrSync_moves ..) | with_reducible apply Moves.step (State.took_moves ..)
    | with_reducible apply Moves.step (State.setCanCtl_moves ..)
    | with_reducible apply Moves.step (State.canReceive_moves ..) | with_reducible apply Moves.ite
    | with_reducible apply Moves.foldl | with_reducible apply Moves.foldl_snd | with_reducible apply Moves.foldl_fst
    | ((with_reducible apply Moves.snd); assumption) | ((with_reducible apply Moves.fst); assumption) | split | dsimp only

theorem State.canRelease_moves (s : State) (n f get : Nat) :
    Moves [.regs] s (State.canRelease s n f get) := by
  unfold State.canRelease
  repeat' first
    | with_reducible apply Moves.refl | ((with_reducible apply Within.of); exact rfl) | intro _
    | with_reducible apply Moves.step (State.setFld_moves ..) | with_reducible apply Moves.ite
    | with_reducible apply Moves.foldl | with_reducible apply Moves.foldl_snd | with_reducible apply Moves.foldl_fst
    | ((with_reducible apply Moves.snd); assumption) | ((with_reducible apply Moves.fst); assumption) | split | dsimp only

theorem execCanFifoRelease_moves (n : Fin 4) (f : Fin 2) (get : BitVec 4) (s : State) :
    Goes [.regs] s (execCanFifoRelease n f get s) := by
  unfold execCanFifoRelease
  repeat' first
    | with_reducible apply Moves.refl | ((with_reducible apply Within.of); exact rfl) | intro _
    | with_reducible apply Goes.next | with_reducible apply Goes.fault | with_reducible apply Goes.ite
    | with_reducible apply Moves.step (State.onBlk_moves (fs := [.regs]) (hf := ?_) ..)
    | with_reducible apply Moves.step (State.canRelease_moves ..) | with_reducible apply Moves.ite
    | with_reducible apply Moves.foldl | with_reducible apply Moves.foldl_snd | with_reducible apply Moves.foldl_fst
    | ((with_reducible apply Moves.snd); assumption) | ((with_reducible apply Moves.fst); assumption) | split | dsimp only

theorem State.canRequest_moves (s : State) (n : Nat) (req : BitVec 3) :
    Moves [.regs, .mem, .ecc, .ladder, .fabric, .weft, .power, .selv, .sense, .hs, .can, .free] s (State.canRequest s n req) := by
  unfold State.canRequest
  repeat' first
    | with_reducible apply Moves.refl | ((with_reducible apply Within.of); exact rfl) | intro _
    | with_reducible apply Moves.step (State.setCanCtl_moves ..)
    | with_reducible apply Moves.step (State.canOffer_moves ..)
    | with_reducible apply Moves.step (State.setCanPend_moves ..) | with_reducible apply Moves.ite
    | with_reducible apply Moves.foldl | with_reducible apply Moves.foldl_snd | with_reducible apply Moves.foldl_fst
    | ((with_reducible apply Moves.snd); assumption) | ((with_reducible apply Moves.fst); assumption) | split | dsimp only

theorem execCanTxreq_moves (n : Fin 4) (req : BitVec 3) (s : State) :
    Goes [.regs, .mem, .ecc, .ladder, .fabric, .weft, .power, .selv, .sense, .hs, .can, .free] s (execCanTxreq n req s) := by
  unfold execCanTxreq
  repeat' first
    | with_reducible apply Moves.refl | ((with_reducible apply Within.of); exact rfl) | intro _
    | with_reducible apply Goes.next | with_reducible apply Goes.fault | with_reducible apply Goes.ite
    | with_reducible apply Moves.step (State.onBlk_moves (fs := [.regs, .mem, .ecc, .ladder, .fabric, .weft, .power, .selv, .sense, .hs, .can, .free]) (hf := ?_) ..)
    | with_reducible apply Moves.step (State.canRequest_moves ..) | with_reducible apply Moves.ite
    | with_reducible apply Moves.foldl | with_reducible apply Moves.foldl_snd | with_reducible apply Moves.foldl_fst
    | ((with_reducible apply Moves.snd); assumption) | ((with_reducible apply Moves.fst); assumption) | split | dsimp only

theorem State.canCancel_moves (s : State) (n : Nat) (can : BitVec 3) :
    Moves [.regs, .mem, .ecc, .ladder, .fabric, .weft, .power, .selv, .sense, .hs, .can, .free] s (State.canCancel s n can) := by
  unfold State.canCancel
  repeat' first
    | with_reducible apply Moves.refl | ((with_reducible apply Within.of); exact rfl) | intro _
    | with_reducible apply Moves.step (State.setCanCtl_moves ..)
    | with_reducible apply Moves.step (State.canOffer_moves ..) | with_reducible apply Moves.step (State.canAct_moves ..)
    | with_reducible apply Moves.step (State.canDrop_moves ..)
    | with_reducible apply Moves.step (State.setCanPend_moves ..)
    | with_reducible apply Moves.step (State.canEnded_moves ..) | with_reducible apply Moves.ite
    | with_reducible apply Moves.foldl | with_reducible apply Moves.foldl_snd | with_reducible apply Moves.foldl_fst
    | ((with_reducible apply Moves.snd); assumption) | ((with_reducible apply Moves.fst); assumption) | split | dsimp only

theorem execCanTxcan_moves (n : Fin 4) (can : BitVec 3) (s : State) :
    Goes [.regs, .mem, .ecc, .ladder, .fabric, .weft, .power, .selv, .sense, .hs, .can, .free] s (execCanTxcan n can s) := by
  unfold execCanTxcan
  repeat' first
    | with_reducible apply Moves.refl | ((with_reducible apply Within.of); exact rfl) | intro _
    | with_reducible apply Goes.next | with_reducible apply Goes.fault | with_reducible apply Goes.ite
    | with_reducible apply Moves.step (State.onBlk_moves (fs := [.regs, .mem, .ecc, .ladder, .fabric, .weft, .power, .selv, .sense, .hs, .can, .free]) (hf := ?_) ..)
    | with_reducible apply Moves.step (State.canCancel_moves ..) | with_reducible apply Moves.ite
    | with_reducible apply Moves.foldl | with_reducible apply Moves.foldl_snd | with_reducible apply Moves.foldl_fst
    | ((with_reducible apply Moves.snd); assumption) | ((with_reducible apply Moves.fst); assumption) | split | dsimp only

theorem State.canSent_moves (s : State) (n ago : Nat) (x : CanSend) :
    Moves [.regs, .mem, .ecc, .ladder, .weft, .time, .can, .out, .free] s (State.canSent s n ago x) := by
  unfold State.canSent
  repeat' first
    | with_reducible apply Moves.refl | ((with_reducible apply Within.of); exact rfl) | intro _
    | with_reducible apply Moves.step (State.setCanCtl_moves ..)
    | with_reducible apply Moves.step (State.canPassed_moves ..)
    | with_reducible apply Moves.step (State.canErrSync_moves ..) | with_reducible apply Moves.step (State.emit_moves ..)
    | with_reducible apply Moves.step (State.line_moves ..) | with_reducible apply Moves.step (State.setFld_moves ..)
    | with_reducible apply Moves.step (State.canEnded_moves ..)
    | with_reducible apply Moves.step (State.writeBlock_moves ..)
    | with_reducible apply Moves.step (State.canRamError_moves ..)
    | with_reducible apply Moves.step (State.dmaRefused_moves ..)
    | with_reducible apply Moves.step (State.canReceive_moves ..) | with_reducible apply Moves.ite
    | with_reducible apply Moves.foldl | with_reducible apply Moves.foldl_snd | with_reducible apply Moves.foldl_fst
    | ((with_reducible apply Moves.snd); assumption) | ((with_reducible apply Moves.fst); assumption) | split | dsimp only

theorem execCanTxComplete_moves (n : Fin 4) (ok : Bool) (ago : BitVec 32) (s : State) :
    Goes [.regs, .mem, .ecc, .ladder, .fabric, .weft, .power, .time, .selv, .sense, .hs, .can, .out, .free] s (execCanTxComplete n ok ago s) := by
  unfold execCanTxComplete
  repeat' first
    | with_reducible apply Moves.refl | ((with_reducible apply Within.of); exact rfl) | intro _
    | with_reducible apply Goes.next | with_reducible apply Goes.fault | with_reducible apply Goes.ite
    | with_reducible apply Moves.step (State.onBlk_moves (fs := [.regs, .mem, .ecc, .ladder, .fabric, .weft, .power, .time, .selv, .sense, .hs, .can, .out, .free]) (hf := ?_) ..)
    | with_reducible apply Moves.step (State.canSent_moves ..)
    | with_reducible apply Moves.step (State.setCanCtl_moves ..)
    | with_reducible apply Moves.step (State.canEnded_moves ..) | with_reducible apply Moves.step (State.canDrop_moves ..)
    | with_reducible apply Moves.step (State.canOffer_moves ..) | with_reducible apply Moves.step (State.canAct_moves ..)
    | with_reducible apply Moves.ite | with_reducible apply Moves.foldl | with_reducible apply Moves.foldl_snd
    | with_reducible apply Moves.foldl_fst | ((with_reducible apply Moves.snd); assumption)
    | ((with_reducible apply Moves.fst); assumption) | split | dsimp only

theorem execCanBusOff_moves (n : Fin 4) (s : State) :
    Goes [.regs, .ladder, .weft, .can] s (execCanBusOff n s) := by
  unfold execCanBusOff
  repeat' first
    | with_reducible apply Moves.refl | ((with_reducible apply Within.of); exact rfl) | intro _
    | with_reducible apply Goes.next | with_reducible apply Goes.fault | with_reducible apply Goes.ite
    | with_reducible apply Moves.step (State.onBlk_moves (fs := [.regs, .ladder, .weft, .can]) (hf := ?_) ..)
    | with_reducible apply Moves.step (State.canBusOff_moves ..) | with_reducible apply Moves.ite
    | with_reducible apply Moves.foldl | with_reducible apply Moves.foldl_snd | with_reducible apply Moves.foldl_fst
    | ((with_reducible apply Moves.snd); assumption) | ((with_reducible apply Moves.fst); assumption) | split | dsimp only

theorem execCanBusOffRecovery_moves (n : Fin 4) (s : State) :
    Goes [.regs, .mem, .ecc, .ladder, .fabric, .weft, .power, .selv, .sense, .hs, .can, .free] s (execCanBusOffRecovery n s) := by
  unfold execCanBusOffRecovery
  repeat' first
    | with_reducible apply Moves.refl | ((with_reducible apply Within.of); exact rfl) | intro _
    | with_reducible apply Goes.next | with_reducible apply Goes.fault | with_reducible apply Goes.ite
    | with_reducible apply Moves.step (State.onBlk_moves (fs := [.regs, .mem, .ecc, .ladder, .fabric, .weft, .power, .selv, .sense, .hs, .can, .free]) (hf := ?_) ..)
    | with_reducible apply Moves.step (State.setCanCtl_moves ..)
    | with_reducible apply Moves.step (State.canErrSync_moves ..) | with_reducible apply Moves.step (State.line_moves ..)
    | with_reducible apply Moves.step (State.setFlag_moves ..) | with_reducible apply Moves.step (State.canOffer_moves ..)
    | with_reducible apply Moves.step (State.canAct_moves ..) | with_reducible apply Moves.ite
    | with_reducible apply Moves.foldl | with_reducible apply Moves.foldl_snd | with_reducible apply Moves.foldl_fst
    | ((with_reducible apply Moves.snd); assumption) | ((with_reducible apply Moves.fst); assumption) | split | dsimp only

theorem execCanRxStuck_moves (n : Fin 4) (edges : Bool) (count : Nat) (s : State) :
    Goes [.regs, .ladder, .can] s (execCanRxStuck n edges count s) := by
  unfold execCanRxStuck
  repeat' first
    | with_reducible apply Moves.refl | ((with_reducible apply Within.of); exact rfl) | intro _
    | with_reducible apply Goes.next | with_reducible apply Goes.fault | with_reducible apply Goes.ite
    | with_reducible apply Moves.step (State.onBlk_moves (fs := [.regs, .ladder, .can]) (hf := ?_) ..)
    | with_reducible apply Moves.step (State.canDrop_moves ..) | with_reducible apply Moves.step (State.canAct_moves ..)
    | with_reducible apply Moves.step (State.note_moves ..) | with_reducible apply Moves.step (State.setFlag_moves ..)
    | with_reducible apply Moves.ite | with_reducible apply Moves.foldl | with_reducible apply Moves.foldl_snd
    | with_reducible apply Moves.foldl_fst | ((with_reducible apply Moves.snd); assumption)
    | ((with_reducible apply Moves.fst); assumption) | split | dsimp only

theorem State.canUnstick_moves (s : State) (n : Nat) (holds : Bool) :
    Moves [.regs, .mem, .ecc, .ladder, .fabric, .weft, .power, .selv, .sense, .hs, .can, .free] s (State.canUnstick s n holds) := by
  unfold State.canUnstick
  repeat' first
    | with_reducible apply Moves.refl | ((with_reducible apply Within.of); exact rfl) | intro _
    | with_reducible apply Moves.step (State.canOffer_moves ..) | with_reducible apply Moves.step (State.setFlag_moves ..)
    | with_reducible apply Moves.ite | with_reducible apply Moves.foldl | with_reducible apply Moves.foldl_snd
    | with_reducible apply Moves.foldl_fst | ((with_reducible apply Moves.snd); assumption)
    | ((with_reducible apply Moves.fst); assumption) | split | dsimp only

theorem execCanStuckClear_moves (n : Fin 4) (holds : Bool) (s : State) :
    Goes [.regs, .mem, .ecc, .ladder, .fabric, .weft, .power, .selv, .sense, .hs, .can, .free] s (execCanStuckClear n holds s) := by
  unfold execCanStuckClear
  repeat' first
    | with_reducible apply Moves.refl | ((with_reducible apply Within.of); exact rfl) | intro _
    | with_reducible apply Goes.next | with_reducible apply Goes.fault | with_reducible apply Goes.ite
    | with_reducible apply Moves.step (State.onBlk_moves (fs := [.regs, .mem, .ecc, .ladder, .fabric, .weft, .power, .selv, .sense, .hs, .can, .free]) (hf := ?_) ..)
    | with_reducible apply Moves.step (State.canUnstick_moves ..) | with_reducible apply Moves.ite
    | with_reducible apply Moves.foldl | with_reducible apply Moves.foldl_snd | with_reducible apply Moves.foldl_fst
    | ((with_reducible apply Moves.snd); assumption) | ((with_reducible apply Moves.fst); assumption) | split | dsimp only

theorem execCanRefInstant_moves (n : Fin 4) (s : State) :
    Goes [.regs, .mem, .ecc, .ladder, .fabric, .weft, .power, .selv, .sense, .hs, .can, .free] s (execCanRefInstant n s) := by
  unfold execCanRefInstant
  repeat' first
    | with_reducible apply Moves.refl | ((with_reducible apply Within.of); exact rfl) | intro _
    | with_reducible apply Goes.next | with_reducible apply Goes.fault | with_reducible apply Goes.ite
    | with_reducible apply Moves.step (State.onBlk_moves (fs := [.regs, .mem, .ecc, .ladder, .fabric, .weft, .power, .selv, .sense, .hs, .can, .free]) (hf := ?_) ..)
    | with_reducible apply Moves.step (State.canOffer_moves ..)
    | with_reducible apply Moves.step (State.setCanCtl_moves ..) | with_reducible apply Moves.ite
    | with_reducible apply Moves.foldl | with_reducible apply Moves.foldl_snd | with_reducible apply Moves.foldl_fst
    | ((with_reducible apply Moves.snd); assumption) | ((with_reducible apply Moves.fst); assumption) | split | dsimp only

theorem execCanBusError_moves (n : Fin 4) (lec : BitVec 3) (err : CanErr) (s : State) :
    Goes [.regs, .ladder, .weft, .can] s (execCanBusError n lec err s) := by
  unfold execCanBusError
  repeat' first
    | with_reducible apply Moves.refl | ((with_reducible apply Within.of); exact rfl) | intro _
    | with_reducible apply Goes.next | with_reducible apply Goes.fault | with_reducible apply Goes.ite
    | with_reducible apply Moves.step (State.onBlk_moves (fs := [.regs, .ladder, .weft, .can]) (hf := ?_) ..)
    | with_reducible apply Moves.step (State.setFld_moves ..)
    | with_reducible apply Moves.step (State.canErrSync_moves ..)
    | with_reducible apply Moves.step (State.setCanCtl_moves ..)
    | with_reducible apply Moves.step (State.canBusOff_moves ..) | with_reducible apply Moves.ite
    | with_reducible apply Moves.foldl | with_reducible apply Moves.foldl_snd | with_reducible apply Moves.foldl_fst
    | ((with_reducible apply Moves.snd); assumption) | ((with_reducible apply Moves.fst); assumption) | split | dsimp only

end Sys2Proof.Machine
end

