-- ==== Sys2Proof/Laws/MovesGridOps.lean ====
section
/-!
SUPPORT. Laws/MovesGridOps.lean: which parts of the state each operation of Machine/GridOps.lean moves.
-/
set_option Elab.async false
namespace Sys2Proof.Machine
set_option linter.all false

theorem State.gridDegraded_moves (s : State) :
    Moves [.regs] s (State.gridDegraded s) := by
  unfold State.gridDegraded
  repeat' first
    | with_reducible apply Moves.refl | ((with_reducible apply Within.of); exact rfl) | intro _
    | with_reducible apply Moves.step (State.setFlag_moves ..) | with_reducible apply Moves.ite
    | with_reducible apply Moves.foldl | with_reducible apply Moves.foldl_snd | with_reducible apply Moves.foldl_fst
    | ((with_reducible apply Moves.snd); assumption) | ((with_reducible apply Moves.fst); assumption) | split | dsimp only

theorem State.setRec_moves (s : State) (x : Nat) :
    Moves [.regs] s (State.setRec s x) := by
  unfold State.setRec
  repeat' first
    | with_reducible apply Moves.refl | ((with_reducible apply Within.of); exact rfl) | intro _
    | with_reducible apply Moves.step (State.setFld_moves ..) | with_reducible apply Moves.ite
    | with_reducible apply Moves.foldl | with_reducible apply Moves.foldl_snd | with_reducible apply Moves.foldl_fst
    | ((with_reducible apply Moves.snd); assumption) | ((with_reducible apply Moves.fst); assumption) | split | dsimp only

theorem State.gridBusError_moves (s : State) (cell : Nat) :
    Moves [.regs, .ladder, .grid] s (State.gridBusError s cell) := by
  unfold State.gridBusError
  repeat' first
    | with_reducible apply Moves.refl | ((with_reducible apply Within.of); exact rfl) | intro _
    | with_reducible apply Moves.step (State.contain_moves ..) | with_reducible apply Moves.step (State.setRec_moves ..)
    | with_reducible apply Moves.step (State.setGrid_moves ..) | with_reducible apply Moves.ite
    | with_reducible apply Moves.foldl | with_reducible apply Moves.foldl_snd | with_reducible apply Moves.foldl_fst
    | ((with_reducible apply Moves.snd); assumption) | ((with_reducible apply Moves.fst); assumption) | split | dsimp only

theorem State.recArm_moves (s : State) :
    Moves [.regs, .grid] s (State.recArm s) := by
  unfold State.recArm
  repeat' first
    | with_reducible apply Moves.refl | ((with_reducible apply Within.of); exact rfl) | intro _
    | with_reducible apply Moves.step (State.setGrid_moves ..) | with_reducible apply Moves.step (State.setRec_moves ..)
    | with_reducible apply Moves.ite | with_reducible apply Moves.foldl | with_reducible apply Moves.foldl_snd
    | with_reducible apply Moves.foldl_fst | ((with_reducible apply Moves.snd); assumption)
    | ((with_reducible apply Moves.fst); assumption) | split | dsimp only

theorem State.recSample_moves (s : State) :
    Moves [.regs, .mem, .ecc, .ladder, .fabric, .weft, .power, .selv, .sense, .hs, .grid, .free] s (State.recSample s) := by
  unfold State.recSample
  repeat' first
    | with_reducible apply Moves.refl | ((with_reducible apply Within.of); exact rfl) | intro _
    | with_reducible apply Moves.step (State.writeRange_moves ..)
    | with_reducible apply Moves.step (State.setGrid_moves ..)
    | with_reducible apply Moves.step (State.gridBusError_moves ..) | with_reducible apply Moves.ite
    | with_reducible apply Moves.foldl | with_reducible apply Moves.foldl_snd | with_reducible apply Moves.foldl_fst
    | ((with_reducible apply Moves.snd); assumption) | ((with_reducible apply Moves.fst); assumption) | split | dsimp only

theorem State.gridSamples_moves (s : State) :
    Moves [.regs, .mem, .ecc, .ladder, .fabric, .weft, .power, .selv, .sense, .hs, .grid, .free] s (State.gridSamples s) := by
  unfold State.gridSamples
  repeat' first
    | with_reducible apply Moves.refl | ((with_reducible apply Within.of); exact rfl) | intro _
    | with_reducible apply Moves.step (State.recSample_moves ..) | with_reducible apply Moves.step (State.drew_moves ..)
    | with_reducible apply Moves.step (State.setGrid_moves ..) | with_reducible apply Moves.ite
    | with_reducible apply Moves.foldl | with_reducible apply Moves.foldl_snd | with_reducible apply Moves.foldl_fst
    | ((with_reducible apply Moves.snd); assumption) | ((with_reducible apply Moves.fst); assumption) | split | dsimp only

theorem State.recTrigger_moves (s : State) (src c : Nat) :
    Moves [.regs, .ladder, .weft, .grid] s (State.recTrigger s src c) := by
  unfold State.recTrigger
  repeat' first
    | with_reducible apply Moves.refl | ((with_reducible apply Within.of); exact rfl) | intro _
    | with_reducible apply Moves.step (State.wrNat_moves ..) | with_reducible apply Moves.step (State.line_moves ..)
    | with_reducible apply Moves.step (State.setGrid_moves ..) | with_reducible apply Moves.step (State.setRec_moves ..)
    | with_reducible apply Moves.step (State.bump_moves ..) | with_reducible apply Moves.step (State.note_moves ..)
    | with_reducible apply Moves.ite | with_reducible apply Moves.foldl | with_reducible apply Moves.foldl_snd
    | with_reducible apply Moves.foldl_fst | ((with_reducible apply Moves.snd); assumption)
    | ((with_reducible apply Moves.fst); assumption) | split | dsimp only

theorem State.gridLineSync_moves (s : State) :
    Moves [.regs, .ladder, .weft, .sal, .grid] s (State.gridLineSync s) := by
  unfold State.gridLineSync
  repeat' first
    | with_reducible apply Moves.refl | ((with_reducible apply Within.of); exact rfl) | intro _
    | with_reducible apply Moves.step (State.setSal_moves ..) | with_reducible apply Moves.step (State.setFlag_moves ..)
    | with_reducible apply Moves.step (State.recTrigger_moves ..) | with_reducible apply Moves.step (State.line_moves ..)
    | with_reducible apply Moves.step (State.setGrid_moves ..) | with_reducible apply Moves.ite
    | with_reducible apply Moves.foldl | with_reducible apply Moves.foldl_snd | with_reducible apply Moves.foldl_fst
    | ((with_reducible apply Moves.snd); assumption) | ((with_reducible apply Moves.fst); assumption) | split | dsimp only

theorem State.condUpdate_moves (s : State) (k : Nat) (met rel : Bool) :
    Moves [.regs, .grid] s (State.condUpdate s k met rel) := by
  unfold State.condUpdate
  repeat' first
    | with_reducible apply Moves.refl | ((with_reducible apply Within.of); exact rfl) | intro _
    | with_reducible apply Moves.step (State.setGrid_moves ..) | with_reducible apply Moves.step (State.setBit_moves ..)
    | with_reducible apply Moves.ite | with_reducible apply Moves.foldl | with_reducible apply Moves.foldl_snd
    | with_reducible apply Moves.foldl_fst | ((with_reducible apply Moves.snd); assumption)
    | ((with_reducible apply Moves.fst); assumption) | split | dsimp only

theorem State.grdCtrlWrite_moves (s : State) (data : Word) :
    Moves [.regs, .ladder, .weft, .sal, .grid] s (State.grdCtrlWrite s data) := by
  unfold State.grdCtrlWrite
  repeat' first
    | with_reducible apply Moves.refl | ((with_reducible apply Within.of); exact rfl) | intro _
    | with_reducible apply Moves.step (State.wr_moves ..) | with_reducible apply Moves.step (State.setGrid_moves ..)
    | with_reducible apply Moves.step (State.gridLineSync_moves ..) | with_reducible apply Moves.ite
    | with_reducible apply Moves.foldl | with_reducible apply Moves.foldl_snd | with_reducible apply Moves.foldl_fst
    | ((with_reducible apply Moves.snd); assumption) | ((with_reducible apply Moves.fst); assumption) | split | dsimp only

end Sys2Proof.Machine
end

