-- ==== Sys2Proof/Laws/MovesGridCommands.lean ====
section
/-!
SUPPORT. Laws/MovesGridCommands.lean: which parts of the state each operation of Machine/GridCommands.lean moves.
-/
set_option Elab.async false
namespace Sys2Proof.Machine
set_option linter.all false

theorem execGridChannelLost_moves (n : Fin 8) (s : State) :
    Goes [.regs, .ladder, .weft, .grid] s (execGridChannelLost n s) := by
  unfold execGridChannelLost
  repeat' first
    | with_reducible apply Moves.refl | ((with_reducible apply Within.of); exact rfl) | intro _
    | with_reducible apply Goes.next | with_reducible apply Goes.fault | with_reducible apply Goes.ite
    | with_reducible apply Moves.step (State.onBlk_moves (fs := [.regs, .ladder, .weft, .grid]) (hf := ?_) ..)
    | with_reducible apply Moves.step (State.setGrid_moves ..) | with_reducible apply Moves.step (State.line_moves ..)
    | with_reducible apply Moves.step (State.contain_moves ..)
    | with_reducible apply Moves.step (State.gridDegraded_moves ..)
    | with_reducible apply Moves.step (State.setBit_moves ..) | with_reducible apply Moves.ite
    | with_reducible apply Moves.foldl | with_reducible apply Moves.foldl_snd | with_reducible apply Moves.foldl_fst
    | ((with_reducible apply Moves.snd); assumption) | ((with_reducible apply Moves.fst); assumption) | split | dsimp only

theorem execPmuFrameWrite_moves (sec : Word) (k : BitVec 7) (phasors : List (BitVec 64)) (freq : Word) (dfreq : Word) (s : State) :
    Goes [.regs, .mem, .ecc, .ladder, .fabric, .weft, .power, .selv, .sense, .hs, .grid, .free] s (execPmuFrameWrite sec k phasors freq dfreq s) := by
  unfold execPmuFrameWrite
  repeat' first
    | with_reducible apply Moves.refl | ((with_reducible apply Within.of); exact rfl) | intro _
    | with_reducible apply Goes.next | with_reducible apply Goes.fault | with_reducible apply Goes.ite
    | with_reducible apply Moves.step (State.onBlk_moves (fs := [.regs, .mem, .ecc, .ladder, .fabric, .weft, .power, .selv, .sense, .hs, .grid, .free]) (hf := ?_) ..)
    | with_reducible apply Moves.step (State.setFlag_moves ..) | with_reducible apply Moves.step (State.took_moves ..)
    | with_reducible apply Moves.step (State.writeRange_moves ..)
    | with_reducible apply Moves.step (State.setGrid_moves ..) | with_reducible apply Moves.step (State.setFld_moves ..)
    | with_reducible apply Moves.step (State.note_moves ..) | with_reducible apply Moves.step (State.recovers_moves ..)
    | with_reducible apply Moves.step (State.line_moves ..)
    | with_reducible apply Moves.step (State.gridBusError_moves ..) | with_reducible apply Moves.ite
    | with_reducible apply Moves.foldl | with_reducible apply Moves.foldl_snd | with_reducible apply Moves.foldl_fst
    | ((with_reducible apply Moves.snd); assumption) | ((with_reducible apply Moves.fst); assumption) | split | dsimp only

theorem execGridResponseUpdate_moves (freq : BitVec 20) (each : BitVec 160) (volt : Word) (valid : BitVec 8) (rms : BitVec 128) (s : State) :
    Goes [.regs, .ladder, .weft, .sal, .grid, .free] s (execGridResponseUpdate freq each volt valid rms s) := by
  unfold execGridResponseUpdate
  repeat' first
    | with_reducible apply Moves.refl | ((with_reducible apply Within.of); exact rfl) | intro _
    | with_reducible apply Goes.next | with_reducible apply Goes.fault | with_reducible apply Goes.ite
    | with_reducible apply Moves.step (State.onBlk_moves (fs := [.regs, .ladder, .weft, .sal, .grid, .free]) (hf := ?_) ..)
    | with_reducible apply Moves.step (State.setGrid_moves ..) | with_reducible apply Moves.step (State.setBit_moves ..)
    | with_reducible apply Moves.step (State.recoversCell_moves ..)
    | with_reducible apply Moves.step (State.took_moves ..) | with_reducible apply Moves.step (State.wr_moves ..)
    | with_reducible apply Moves.step (State.wrNat_moves ..)
    | with_reducible apply Moves.step (State.gridDegraded_moves ..)
    | with_reducible apply Moves.step (State.condUpdate_moves ..)
    | with_reducible apply Moves.step (State.gridLineSync_moves ..)
    | with_reducible apply Moves.step (State.recTrigger_moves ..) | with_reducible apply Moves.ite
    | with_reducible apply Moves.foldl | with_reducible apply Moves.foldl_snd | with_reducible apply Moves.foldl_fst
    | ((with_reducible apply Moves.snd); assumption) | ((with_reducible apply Moves.fst); assumption) | split | dsimp only

theorem execGridRecArm_moves (s : State) :
    Goes [.regs, .grid] s (execGridRecArm s) := by
  unfold execGridRecArm
  repeat' first
    | with_reducible apply Moves.refl | ((with_reducible apply Within.of); exact rfl) | intro _
    | with_reducible apply Goes.next | with_reducible apply Goes.fault | with_reducible apply Goes.ite
    | with_reducible apply Moves.step (State.onBlk_moves (fs := [.regs, .grid]) (hf := ?_) ..)
    | with_reducible apply Moves.step (State.recArm_moves ..) | with_reducible apply Moves.ite
    | with_reducible apply Moves.foldl | with_reducible apply Moves.foldl_snd | with_reducible apply Moves.foldl_fst
    | ((with_reducible apply Moves.snd); assumption) | ((with_reducible apply Moves.fst); assumption) | split | dsimp only

theorem execGridRecTrig_moves (s : State) :
    Goes [.regs, .ladder, .weft, .grid] s (execGridRecTrig s) := by
  unfold execGridRecTrig
  repeat' first
    | with_reducible apply Moves.refl | ((with_reducible apply Within.of); exact rfl) | intro _
    | with_reducible apply Goes.next | with_reducible apply Goes.fault | with_reducible apply Goes.ite
    | with_reducible apply Moves.step (State.onBlk_moves (fs := [.regs, .ladder, .weft, .grid]) (hf := ?_) ..)
    | with_reducible apply Moves.step (State.recTrigger_moves ..) | with_reducible apply Moves.ite
    | with_reducible apply Moves.foldl | with_reducible apply Moves.foldl_snd | with_reducible apply Moves.foldl_fst
    | ((with_reducible apply Moves.snd); assumption) | ((with_reducible apply Moves.fst); assumption) | split | dsimp only

theorem execGridRecComplete_moves (s : State) :
    Goes [.regs, .weft, .grid] s (execGridRecComplete s) := by
  unfold execGridRecComplete
  repeat' first
    | with_reducible apply Moves.refl | ((with_reducible apply Within.of); exact rfl) | intro _
    | with_reducible apply Goes.next | with_reducible apply Goes.fault | with_reducible apply Goes.ite
    | with_reducible apply Moves.step (State.onBlk_moves (fs := [.regs, .weft, .grid]) (hf := ?_) ..)
    | with_reducible apply Moves.step (State.line_moves ..) | with_reducible apply Moves.step (State.setGrid_moves ..)
    | with_reducible apply Moves.step (State.setRec_moves ..) | with_reducible apply Moves.ite
    | with_reducible apply Moves.foldl | with_reducible apply Moves.foldl_snd | with_reducible apply Moves.foldl_fst
    | ((with_reducible apply Moves.snd); assumption) | ((with_reducible apply Moves.fst); assumption) | split | dsimp only

end Sys2Proof.Machine
end

