-- ==== Sys2Proof/Laws/MovesSessionOps.lean ====
section
/-!
SUPPORT. Laws/MovesSessionOps.lean: which parts of the state each operation of Machine/SessionOps.lean moves.
-/
set_option Elab.async false
namespace Sys2Proof.Machine
set_option linter.all false

theorem State.sesBusError_moves (s : State) (c : Nat) (tls : Bool) :
    Moves [.regs, .ladder] s (State.sesBusError s c tls) := by
  unfold State.sesBusError
  repeat' first
    | with_reducible apply Moves.refl | ((with_reducible apply Within.of); exact rfl) | intro _
    | with_reducible apply Moves.step (State.contain_moves ..) | with_reducible apply Moves.step (State.setFlag_moves ..)
    | with_reducible apply Moves.ite | with_reducible apply Moves.foldl | with_reducible apply Moves.foldl_snd
    | with_reducible apply Moves.foldl_fst | ((with_reducible apply Moves.snd); assumption)
    | ((with_reducible apply Moves.fst); assumption) | split | dsimp only

theorem State.jobDone_moves (s : State) (c k : Nat) (r : JobOut) :
    Moves [.regs, .mem, .ecc, .ladder, .fabric, .weft, .power, .selv, .sense, .hs, .ses, .free] s (State.jobDone s c k r) := by
  unfold State.jobDone
  repeat' first
    | with_reducible apply Moves.refl | ((with_reducible apply Within.of); exact rfl) | intro _
    | with_reducible apply Moves.step (State.writeRanges_moves ..)
    | with_reducible apply Moves.step (State.setSes_moves ..) | with_reducible apply Moves.step (State.line_moves ..)
    | with_reducible apply Moves.step (State.setFld_moves ..) | with_reducible apply Moves.step (State.recovers_moves ..)
    | with_reducible apply Moves.step (State.sesBusError_moves ..) | with_reducible apply Moves.ite
    | with_reducible apply Moves.foldl | with_reducible apply Moves.foldl_snd | with_reducible apply Moves.foldl_fst
    | ((with_reducible apply Moves.snd); assumption) | ((with_reducible apply Moves.fst); assumption) | split | dsimp only

theorem State.tlsEnd_moves (s : State) (c : Nat) :
    Moves [.regs] s (State.tlsEnd s c) := by
  unfold State.tlsEnd
  repeat' first
    | with_reducible apply Moves.refl | ((with_reducible apply Within.of); exact rfl) | intro _
    | with_reducible apply Moves.step (State.setFld_moves ..) | with_reducible apply Moves.step (State.setFlag_moves ..)
    | with_reducible apply Moves.ite | with_reducible apply Moves.foldl | with_reducible apply Moves.foldl_snd
    | with_reducible apply Moves.foldl_fst | ((with_reducible apply Moves.snd); assumption)
    | ((with_reducible apply Moves.fst); assumption) | split | dsimp only

theorem State.runJob_moves (s : State) (op : Nat) (f : Nat → Nat → State → State) {fs : List Part} (hf : ∀ (x0 : Nat) (x1 : Nat) (t : State), Moves fs t (f x0 x1 t)) :
    Moves ([.regs, .mem, .ecc, .ladder, .fabric, .weft, .power, .selv, .sense, .hs, .ses, .free] ++ fs) s (State.runJob s op f) := by
  unfold State.runJob
  repeat' first
    | with_reducible apply Moves.refl | ((with_reducible apply Within.of); exact rfl) | intro _
    | with_reducible apply Within.right | with_reducible apply Within.append
    | with_reducible apply Moves.step (hf ..) (Within.right _ _)
    | with_reducible apply Moves.step (State.onBlk_moves (fs := ([.regs, .mem, .ecc, .ladder, .fabric, .weft, .power, .selv, .sense, .hs, .ses, .free] ++ fs)) (hf := ?_) ..)
    | with_reducible apply Moves.step (State.readBlock_moves ..)
    | with_reducible apply Moves.step (State.sesBusError_moves ..)
    | with_reducible apply Moves.step (State.setSes_moves ..) | with_reducible apply Moves.step (State.readRange_moves ..)
    | with_reducible apply Moves.step (State.dmaRefused_moves ..)
    | with_reducible apply Moves.step (State.jobDone_moves ..) | with_reducible apply Moves.ite
    | with_reducible apply Moves.foldl | with_reducible apply Moves.foldl_snd | with_reducible apply Moves.foldl_fst
    | ((with_reducible apply Moves.snd); assumption) | ((with_reducible apply Moves.fst); assumption) | split | dsimp only

theorem State.tlsFail_moves (s : State) (c k : Nat) (why : Nat × Nat) (r : TlsOut) :
    Moves [.regs, .mem, .ecc, .ladder, .fabric, .weft, .power, .selv, .sense, .hs, .ses, .free] s (State.tlsFail s c k why r) := by
  unfold State.tlsFail
  repeat' first
    | with_reducible apply Moves.refl | ((with_reducible apply Within.of); exact rfl) | intro _
    | with_reducible apply Moves.step (State.tlsEnd_moves ..) | with_reducible apply Moves.step (State.jobDone_moves ..)
    | with_reducible apply Moves.step (State.drew_moves ..) | with_reducible apply Moves.step (State.line_moves ..)
    | with_reducible apply Moves.ite | with_reducible apply Moves.foldl | with_reducible apply Moves.foldl_snd
    | with_reducible apply Moves.foldl_fst | ((with_reducible apply Moves.snd); assumption)
    | ((with_reducible apply Moves.fst); assumption) | split | dsimp only

theorem State.tlsJob_moves (s : State) (op : Nat) (r : TlsOut) :
    Moves [.regs, .mem, .ecc, .ladder, .fabric, .weft, .power, .selv, .sense, .hs, .ses, .free] s (State.tlsJob s op r) := by
  unfold State.tlsJob
  repeat' first
    | with_reducible apply Moves.refl | ((with_reducible apply Within.of); exact rfl) | intro _
    | with_reducible apply Moves.step (State.runJob_moves (fs := [.regs, .mem, .ecc, .ladder, .fabric, .weft, .power, .selv, .sense, .hs, .ses, .free]) (hf := ?_) ..)
    | with_reducible apply Moves.step (State.jobDone_moves ..)
    | with_reducible apply Moves.step (State.readRange_moves ..)
    | with_reducible apply Moves.step (State.sesBusError_moves ..)
    | with_reducible apply Moves.step (State.dmaRefused_moves ..)
    | with_reducible apply Moves.step (State.tlsFail_moves ..) | with_reducible apply Moves.step (State.setFld_moves ..)
    | with_reducible apply Moves.step (State.setFlag_moves ..) | with_reducible apply Moves.step (State.tlsEnd_moves ..)
    | with_reducible apply Moves.step (State.line_moves ..) | with_reducible apply Moves.ite
    | with_reducible apply Moves.foldl | with_reducible apply Moves.foldl_snd | with_reducible apply Moves.foldl_fst
    | ((with_reducible apply Moves.snd); assumption) | ((with_reducible apply Moves.fst); assumption) | split | dsimp only

theorem State.setThr_moves (s : State) (c da : Nat) :
    Moves [.regs, .weft] s (State.setThr s c da) := by
  unfold State.setThr
  repeat' first
    | with_reducible apply Moves.refl | ((with_reducible apply Within.of); exact rfl) | intro _
    | with_reducible apply Moves.step (State.onBlk_moves (fs := [.regs, .weft]) (hf := ?_) ..)
    | with_reducible apply Moves.step (State.line_moves ..) | with_reducible apply Moves.step (State.setFlag_moves ..)
    | with_reducible apply Moves.step (State.setFld_moves ..) | with_reducible apply Moves.ite
    | with_reducible apply Moves.foldl | with_reducible apply Moves.foldl_snd | with_reducible apply Moves.foldl_fst
    | ((with_reducible apply Moves.snd); assumption) | ((with_reducible apply Moves.fst); assumption) | split | dsimp only

theorem State.sesCtrlWrite_moves (s : State) (c : Nat) (data : Word) :
    Moves [.regs, .ses] s (State.sesCtrlWrite s c data) := by
  unfold State.sesCtrlWrite
  repeat' first
    | with_reducible apply Moves.refl | ((with_reducible apply Within.of); exact rfl) | intro _
    | with_reducible apply Moves.step (State.wr_moves ..) | with_reducible apply Moves.step (State.setSes_moves ..)
    | with_reducible apply Moves.step (State.setFlag_moves ..) | with_reducible apply Moves.step (State.tlsEnd_moves ..)
    | with_reducible apply Moves.ite | with_reducible apply Moves.foldl | with_reducible apply Moves.foldl_snd
    | with_reducible apply Moves.foldl_fst | ((with_reducible apply Moves.snd); assumption)
    | ((with_reducible apply Moves.fst); assumption) | split | dsimp only

theorem State.jobCfgWrite_moves (s : State) (c : Nat) (data : Word) :
    Moves [.regs, .ses] s (State.jobCfgWrite s c data) := by
  unfold State.jobCfgWrite
  repeat' first
    | with_reducible apply Moves.refl | ((with_reducible apply Within.of); exact rfl) | intro _
    | with_reducible apply Moves.step (State.wrAccess_moves ..) | with_reducible apply Moves.step (State.setSes_moves ..)
    | with_reducible apply Moves.step (State.setFld_moves ..) | with_reducible apply Moves.ite
    | with_reducible apply Moves.foldl | with_reducible apply Moves.foldl_snd | with_reducible apply Moves.foldl_fst
    | ((with_reducible apply Moves.snd); assumption) | ((with_reducible apply Moves.fst); assumption) | split | dsimp only

end Sys2Proof.Machine
end

