-- ==== Sys2Proof/Laws/MovesKeyOps.lean ====
section
/-!
SUPPORT. Laws/MovesKeyOps.lean: which parts of the state each operation of Machine/KeyOps.lean moves.
-/
set_option Elab.async false
namespace Sys2Proof.Machine
set_option linter.all false

theorem State.scReturn_moves (s : State) (k status : Nat) :
    Moves [.regs, .ladder, .fabric, .weft, .power, .selv, .sense, .hs, .ks] s (State.scReturn s k status) := by
  unfold State.scReturn
  repeat' first
    | with_reducible apply Moves.refl | ((with_reducible apply Within.of); exact rfl) | intro _
    | with_reducible apply Moves.step (State.setKs_moves ..) | with_reducible apply Moves.step (State.haltIfDone_moves ..)
    | with_reducible apply Moves.step (State.boundary_moves ..) | with_reducible apply Moves.step (State.setCtx_moves ..)
    | with_reducible apply Moves.ite | with_reducible apply Moves.foldl | with_reducible apply Moves.foldl_snd
    | with_reducible apply Moves.foldl_fst | ((with_reducible apply Moves.snd); assumption)
    | ((with_reducible apply Moves.fst); assumption) | split | dsimp only

theorem State.scWrite_moves (s : State) (r : KeyReq) (a : KsAnswer) :
    Moves [.regs, .mem, .ecc, .ladder, .fabric, .weft, .power, .selv, .sense, .hs, .free] s (State.scWrite s r a).2 := by
  unfold State.scWrite
  repeat' first
    | with_reducible apply Moves.refl | ((with_reducible apply Within.of); exact rfl) | intro _
    | with_reducible apply Moves.step (State.writeRange_moves ..)
    | with_reducible apply Moves.step (State.writeBlock_moves ..) | with_reducible apply Moves.ite
    | with_reducible apply Moves.foldl | with_reducible apply Moves.foldl_snd | with_reducible apply Moves.foldl_fst
    | ((with_reducible apply Moves.snd); assumption) | ((with_reducible apply Moves.fst); assumption) | split | dsimp only

theorem State.scFinish_moves (r : KeyReq) (a : KsAnswer) :
    Moves [.regs, .mem, .ecc, .ladder, .fabric, .weft, .power, .selv, .sense, .hs, .ks, .free] a.s (State.scFinish r a) := by
  unfold State.scFinish
  repeat' first
    | with_reducible apply Moves.refl | ((with_reducible apply Within.of); exact rfl) | intro _
    | with_reducible apply Moves.step (State.scWrite_moves ..) | with_reducible apply Moves.step (State.note_moves ..)
    | with_reducible apply Moves.step (State.scReturn_moves ..) | with_reducible apply Moves.ite
    | with_reducible apply Moves.foldl | with_reducible apply Moves.foldl_snd | with_reducible apply Moves.foldl_fst
    | ((with_reducible apply Moves.snd); assumption) | ((with_reducible apply Moves.fst); assumption) | split | dsimp only

theorem State.serve_moves (s : State) (f : Nat) (c : CtxId) (body : State → KeyReq → KsAnswer) {fs : List Part} (hbody : ∀ (t : State) (x1 : KeyReq), Moves fs t (body t x1).s) :
    Moves ([.regs, .mem, .ecc, .ladder, .fabric, .weft, .power, .selv, .sense, .hs, .ks, .free] ++ fs) s (State.serve s f c body) := by
  unfold State.serve
  repeat' first
    | with_reducible apply Moves.refl | ((with_reducible apply Within.of); exact rfl) | intro _
    | with_reducible apply Within.right | with_reducible apply Within.append
    | with_reducible apply Moves.step (hbody ..) (Within.right _ _)
    | with_reducible apply Moves.step (State.scFinish_moves ..) | with_reducible apply Moves.ite
    | with_reducible apply Moves.foldl | with_reducible apply Moves.foldl_snd | with_reducible apply Moves.foldl_fst
    | ((with_reducible apply Moves.snd); assumption) | ((with_reducible apply Moves.fst); assumption) | split | dsimp only

theorem State.scFits_moves (s : State) (r : KeyReq) (n : Nat) (f : State → KsAnswer) {fs : List Part} (hf : ∀ (t : State), Moves fs t (f t).s) :
    Moves ([] ++ fs) s (State.scFits s r n f).s := by
  unfold State.scFits
  repeat' first
    | with_reducible apply Moves.refl | ((with_reducible apply Within.of); exact rfl) | intro _
    | with_reducible apply Within.right | with_reducible apply Within.append
    | with_reducible apply Moves.step (hf ..) (Within.right _ _) | with_reducible apply Moves.ite
    | with_reducible apply Moves.foldl | with_reducible apply Moves.foldl_snd | with_reducible apply Moves.foldl_fst
    | ((with_reducible apply Moves.snd); assumption) | ((with_reducible apply Moves.fst); assumption) | split | dsimp only

theorem State.scReads_moves (s : State) (r : KeyReq) (aux : Nat) (f : State → KsAnswer) {fs : List Part} (hf : ∀ (t : State), Moves fs t (f t).s) :
    Moves ([.regs, .mem, .ecc, .ladder, .fabric, .weft, .power, .selv, .sense, .hs, .free] ++ fs) s (State.scReads s r aux f).s := by
  unfold State.scReads
  repeat' first
    | with_reducible apply Moves.refl | ((with_reducible apply Within.of); exact rfl) | intro _
    | with_reducible apply Within.right | with_reducible apply Within.append
    | with_reducible apply Moves.step (hf ..) (Within.right _ _)
    | with_reducible apply Moves.step (State.readBlock_moves ..) | with_reducible apply Moves.ite
    | with_reducible apply Moves.foldl | with_reducible apply Moves.foldl_snd | with_reducible apply Moves.foldl_fst
    | ((with_reducible apply Moves.snd); assumption) | ((with_reducible apply Moves.fst); assumption) | split | dsimp only

theorem State.scAdmin_moves (s : State) (r : KeyReq) (f : State → KsAnswer) {fs : List Part} (hf : ∀ (t : State), Moves fs t (f t).s) :
    Moves ([] ++ fs) s (State.scAdmin s r f).s := by
  unfold State.scAdmin
  repeat' first
    | with_reducible apply Moves.refl | ((with_reducible apply Within.of); exact rfl) | intro _
    | with_reducible apply Within.right | with_reducible apply Within.append
    | with_reducible apply Moves.step (hf ..) (Within.right _ _) | with_reducible apply Moves.ite
    | with_reducible apply Moves.foldl | with_reducible apply Moves.foldl_snd | with_reducible apply Moves.foldl_fst
    | ((with_reducible apply Moves.snd); assumption) | ((with_reducible apply Moves.fst); assumption) | split | dsimp only

theorem State.scNotRoot_moves (s : State) (n : Nat) (f : State → KsAnswer) {fs : List Part} (hf : ∀ (t : State), Moves fs t (f t).s) :
    Moves ([] ++ fs) s (State.scNotRoot s n f).s := by
  unfold State.scNotRoot
  repeat' first
    | with_reducible apply Moves.refl | ((with_reducible apply Within.of); exact rfl) | intro _
    | with_reducible apply Within.right | with_reducible apply Within.append
    | with_reducible apply Moves.step (hf ..) (Within.right _ _) | with_reducible apply Moves.ite
    | with_reducible apply Moves.foldl | with_reducible apply Moves.foldl_snd | with_reducible apply Moves.foldl_fst
    | ((with_reducible apply Moves.snd); assumption) | ((with_reducible apply Moves.fst); assumption) | split | dsimp only

theorem State.scKey_moves (s : State) (r : KeyReq) (n use : Nat) (ok : Nat → Bool) (f : State → KeyRec → KsAnswer) {fs : List Part} (hf : ∀ (t : State) (x1 : KeyRec), Moves fs t (f t x1).s) :
    Moves ([] ++ fs) s (State.scKey s r n use ok f).s := by
  unfold State.scKey
  repeat' first
    | with_reducible apply Moves.refl | ((with_reducible apply Within.of); exact rfl) | intro _
    | with_reducible apply Within.right | with_reducible apply Within.append
    | with_reducible apply Moves.step (hf ..) (Within.right _ _) | with_reducible apply Moves.ite
    | with_reducible apply Moves.foldl | with_reducible apply Moves.foldl_snd | with_reducible apply Moves.foldl_fst
    | ((with_reducible apply Moves.snd); assumption) | ((with_reducible apply Moves.fst); assumption) | split | dsimp only

theorem State.scRandom_moves (s : State) (f : State → KsAnswer) {fs : List Part} (hf : ∀ (t : State), Moves fs t (f t).s) :
    Moves ([] ++ fs) s (State.scRandom s f).s := by
  unfold State.scRandom
  repeat' first
    | with_reducible apply Moves.refl | ((with_reducible apply Within.of); exact rfl) | intro _
    | with_reducible apply Within.right | with_reducible apply Within.append
    | with_reducible apply Moves.step (hf ..) (Within.right _ _) | with_reducible apply Moves.ite
    | with_reducible apply Moves.foldl | with_reducible apply Moves.foldl_snd | with_reducible apply Moves.foldl_fst
    | ((with_reducible apply Moves.snd); assumption) | ((with_reducible apply Moves.fst); assumption) | split | dsimp only

theorem State.scRoot_moves (s : State) (f : State → KeyRec → KsAnswer) {fs : List Part} (hf : ∀ (t : State) (x1 : KeyRec), Moves fs t (f t x1).s) :
    Moves ([] ++ fs) s (State.scRoot s f).s := by
  unfold State.scRoot
  repeat' first
    | with_reducible apply Moves.refl | ((with_reducible apply Within.of); exact rfl) | intro _
    | with_reducible apply Within.right | with_reducible apply Within.append
    | with_reducible apply Moves.step (hf ..) (Within.right _ _) | with_reducible apply Moves.ite
    | with_reducible apply Moves.foldl | with_reducible apply Moves.foldl_snd | with_reducible apply Moves.foldl_fst
    | ((with_reducible apply Moves.snd); assumption) | ((with_reducible apply Moves.fst); assumption) | split | dsimp only

theorem State.stage_moves (s : State) (n alg use users : Nat) (key : List Byte) :
    Moves [.regs, .ks, .free] s (State.stage s n alg use users key) := by
  unfold State.stage
  repeat' first
    | with_reducible apply Moves.refl | ((with_reducible apply Within.of); exact rfl) | intro _
    | with_reducible apply Moves.step (State.drew_moves ..) | with_reducible apply Moves.step (State.setTwin_moves ..)
    | with_reducible apply Moves.ite | with_reducible apply Moves.foldl | with_reducible apply Moves.foldl_snd
    | with_reducible apply Moves.foldl_fst | ((with_reducible apply Moves.snd); assumption)
    | ((with_reducible apply Moves.fst); assumption) | split | dsimp only

theorem State.newKey_moves (s : State) (n alg use users : Nat) (key : List Byte) (root : KeyRec) (tail : List Byte) :
    Moves [.regs, .ks, .free] s (State.newKey s n alg use users key root tail).s := by
  unfold State.newKey
  repeat' first
    | with_reducible apply Moves.refl | ((with_reducible apply Within.of); exact rfl) | intro _
    | with_reducible apply Moves.step (State.stage_moves ..) | with_reducible apply Moves.step (State.drew_moves ..)
    | with_reducible apply Moves.ite | with_reducible apply Moves.foldl | with_reducible apply Moves.foldl_snd
    | with_reducible apply Moves.foldl_fst | ((with_reducible apply Moves.snd); assumption)
    | ((with_reducible apply Moves.fst); assumption) | split | dsimp only

theorem State.zeroise_moves (s : State) (c : Nat) :
    Moves [.regs, .ladder, .fabric, .weft, .power, .selv, .sense, .hs, .ks] s (State.zeroise s c) := by
  unfold State.zeroise
  repeat' first
    | with_reducible apply Moves.refl | ((with_reducible apply Within.of); exact rfl) | intro _
    | with_reducible apply Moves.step (State.scReturn_moves ..) | with_reducible apply Moves.step (State.setKs_moves ..)
    | with_reducible apply Moves.step (State.showSlot_moves ..) | with_reducible apply Moves.step (State.tlsEnd_moves ..)
    | with_reducible apply Moves.step (State.setFlag_moves ..) | with_reducible apply Moves.step (State.bump_moves ..)
    | with_reducible apply Moves.step (State.setFld_moves ..) | with_reducible apply Moves.step (State.wrNat_moves ..)
    | with_reducible apply Moves.step (State.line_moves ..) | with_reducible apply Moves.step (State.note_moves ..)
    | with_reducible apply Moves.ite | with_reducible apply Moves.foldl | with_reducible apply Moves.foldl_snd
    | with_reducible apply Moves.foldl_fst | ((with_reducible apply Moves.snd); assumption)
    | ((with_reducible apply Moves.fst); assumption) | split | dsimp only

end Sys2Proof.Machine
end

