-- ==== Sys2Proof/Laws/MovesKeyCommands.lean ====
section
/-!
SUPPORT. Laws/MovesKeyCommands.lean: which parts of the state each operation of Machine/KeyCommands.lean moves.
-/
set_option Elab.async false
namespace Sys2Proof.Machine
set_option linter.all false

theorem execPubkey_moves (c : CtxId) (s : State) :
    Goes [.regs, .mem, .ecc, .ladder, .fabric, .weft, .power, .selv, .sense, .hs, .ks, .free] s (execPubkey c s) := by
  unfold execPubkey
  repeat' first
    | with_reducible apply Moves.refl | ((with_reducible apply Within.of); exact rfl) | intro _
    | with_reducible apply Goes.next | with_reducible apply Goes.fault | with_reducible apply Goes.ite
    | with_reducible apply Moves.step (State.serve_moves (fs := [.regs, .mem, .ecc, .ladder, .fabric, .weft, .power, .selv, .sense, .hs, .ks, .free]) (hbody := ?_) ..)
    | with_reducible apply Moves.step (State.scFits_moves (fs := [.regs, .mem, .ecc, .ladder, .fabric, .weft, .power, .selv, .sense, .hs, .ks, .free]) (hf := ?_) ..)
    | with_reducible apply Moves.ite | with_reducible apply Moves.foldl | with_reducible apply Moves.foldl_snd
    | with_reducible apply Moves.foldl_fst | ((with_reducible apply Moves.snd); assumption)
    | ((with_reducible apply Moves.fst); assumption) | split | dsimp only

theorem execSign_moves (c : CtxId) (s : State) :
    Goes [.regs, .mem, .ecc, .ladder, .fabric, .weft, .power, .selv, .sense, .hs, .ks, .free] s (execSign c s) := by
  unfold execSign
  repeat' first
    | with_reducible apply Moves.refl | ((with_reducible apply Within.of); exact rfl) | intro _
    | with_reducible apply Goes.next | with_reducible apply Goes.fault | with_reducible apply Goes.ite
    | with_reducible apply Moves.step (State.serve_moves (fs := [.regs, .mem, .ecc, .ladder, .fabric, .weft, .power, .selv, .sense, .hs, .ks, .free]) (hbody := ?_) ..)
    | with_reducible apply Moves.step (State.scKey_moves (fs := [.regs, .mem, .ecc, .ladder, .fabric, .weft, .power, .selv, .sense, .hs, .ks, .free]) (hf := ?_) ..)
    | with_reducible apply Moves.step (State.scReads_moves (fs := [.regs, .mem, .ecc, .ladder, .fabric, .weft, .power, .selv, .sense, .hs, .ks, .free]) (hf := ?_) ..)
    | with_reducible apply Moves.step (State.scRandom_moves (fs := [.regs, .mem, .ecc, .ladder, .fabric, .weft, .power, .selv, .sense, .hs, .ks, .free]) (hf := ?_) ..)
    | with_reducible apply Moves.step (State.scFits_moves (fs := [.regs, .mem, .ecc, .ladder, .fabric, .weft, .power, .selv, .sense, .hs, .ks, .free]) (hf := ?_) ..)
    | with_reducible apply Moves.step (State.took_moves ..) | with_reducible apply Moves.ite
    | with_reducible apply Moves.foldl | with_reducible apply Moves.foldl_snd | with_reducible apply Moves.foldl_fst
    | ((with_reducible apply Moves.snd); assumption) | ((with_reducible apply Moves.fst); assumption) | split | dsimp only

theorem execVerify_moves (c : CtxId) (s : State) :
    Goes [.regs, .mem, .ecc, .ladder, .fabric, .weft, .power, .selv, .sense, .hs, .ks, .free] s (execVerify c s) := by
  unfold execVerify
  repeat' first
    | with_reducible apply Moves.refl | ((with_reducible apply Within.of); exact rfl) | intro _
    | with_reducible apply Goes.next | with_reducible apply Goes.fault | with_reducible apply Goes.ite
    | with_reducible apply Moves.step (State.serve_moves (fs := [.regs, .mem, .ecc, .ladder, .fabric, .weft, .power, .selv, .sense, .hs, .ks, .free]) (hbody := ?_) ..)
    | with_reducible apply Moves.step (State.scKey_moves (fs := [.regs, .mem, .ecc, .ladder, .fabric, .weft, .power, .selv, .sense, .hs, .ks, .free]) (hf := ?_) ..)
    | with_reducible apply Moves.step (State.scReads_moves (fs := [.regs, .mem, .ecc, .ladder, .fabric, .weft, .power, .selv, .sense, .hs, .ks, .free]) (hf := ?_) ..)
    | with_reducible apply Moves.ite | with_reducible apply Moves.foldl | with_reducible apply Moves.foldl_snd
    | with_reducible apply Moves.foldl_fst | ((with_reducible apply Moves.snd); assumption)
    | ((with_reducible apply Moves.fst); assumption) | split | dsimp only

theorem execEcdhDerive_moves (c : CtxId) (s : State) :
    Goes [.regs, .mem, .ecc, .ladder, .fabric, .weft, .power, .selv, .sense, .hs, .ks, .free] s (execEcdhDerive c s) := by
  unfold execEcdhDerive
  repeat' first
    | with_reducible apply Moves.refl | ((with_reducible apply Within.of); exact rfl) | intro _
    | with_reducible apply Goes.next | with_reducible apply Goes.fault | with_reducible apply Goes.ite
    | with_reducible apply Moves.step (State.serve_moves (fs := [.regs, .mem, .ecc, .ladder, .fabric, .weft, .power, .selv, .sense, .hs, .ks, .free]) (hbody := ?_) ..)
    | with_reducible apply Moves.step (State.scAdmin_moves (fs := [.regs, .mem, .ecc, .ladder, .fabric, .weft, .power, .selv, .sense, .hs, .ks, .free]) (hf := ?_) ..)
    | with_reducible apply Moves.step (State.scNotRoot_moves (fs := [.regs, .mem, .ecc, .ladder, .fabric, .weft, .power, .selv, .sense, .hs, .ks, .free]) (hf := ?_) ..)
    | with_reducible apply Moves.step (State.scKey_moves (fs := [.regs, .mem, .ecc, .ladder, .fabric, .weft, .power, .selv, .sense, .hs, .ks, .free]) (hf := ?_) ..)
    | with_reducible apply Moves.step (State.scReads_moves (fs := [.regs, .mem, .ecc, .ladder, .fabric, .weft, .power, .selv, .sense, .hs, .ks, .free]) (hf := ?_) ..)
    | with_reducible apply Moves.step (State.scRoot_moves (fs := [.regs, .mem, .ecc, .ladder, .fabric, .weft, .power, .selv, .sense, .hs, .ks, .free]) (hf := ?_) ..)
    | with_reducible apply Moves.step (State.scRandom_moves (fs := [.regs, .mem, .ecc, .ladder, .fabric, .weft, .power, .selv, .sense, .hs, .ks, .free]) (hf := ?_) ..)
    | with_reducible apply Moves.step (State.scFits_moves (fs := [.regs, .mem, .ecc, .ladder, .fabric, .weft, .power, .selv, .sense, .hs, .ks, .free]) (hf := ?_) ..)
    | with_reducible apply Moves.step (State.newKey_moves ..) | with_reducible apply Moves.ite
    | with_reducible apply Moves.foldl | with_reducible apply Moves.foldl_snd | with_reducible apply Moves.foldl_fst
    | ((with_reducible apply Moves.snd); assumption) | ((with_reducible apply Moves.fst); assumption) | split | dsimp only

theorem execGcmEnc_moves (c : CtxId) (s : State) :
    Goes [.regs, .mem, .ecc, .ladder, .fabric, .weft, .power, .selv, .sense, .hs, .ks, .free] s (execGcmEnc c s) := by
  unfold execGcmEnc
  repeat' first
    | with_reducible apply Moves.refl | ((with_reducible apply Within.of); exact rfl) | intro _
    | with_reducible apply Goes.next | with_reducible apply Goes.fault | with_reducible apply Goes.ite
    | with_reducible apply Moves.step (State.serve_moves (fs := [.regs, .mem, .ecc, .ladder, .fabric, .weft, .power, .selv, .sense, .hs, .ks, .free]) (hbody := ?_) ..)
    | with_reducible apply Moves.step (State.scKey_moves (fs := [.regs, .mem, .ecc, .ladder, .fabric, .weft, .power, .selv, .sense, .hs, .ks, .free]) (hf := ?_) ..)
    | with_reducible apply Moves.step (State.scReads_moves (fs := [.regs, .mem, .ecc, .ladder, .fabric, .weft, .power, .selv, .sense, .hs, .ks, .free]) (hf := ?_) ..)
    | with_reducible apply Moves.step (State.scFits_moves (fs := [.regs, .mem, .ecc, .ladder, .fabric, .weft, .power, .selv, .sense, .hs, .ks, .free]) (hf := ?_) ..)
    | with_reducible apply Moves.ite | with_reducible apply Moves.foldl | with_reducible apply Moves.foldl_snd
    | with_reducible apply Moves.foldl_fst | ((with_reducible apply Moves.snd); assumption)
    | ((with_reducible apply Moves.fst); assumption) | split | dsimp only

theorem execGcmDec_moves (c : CtxId) (s : State) :
    Goes [.regs, .mem, .ecc, .ladder, .fabric, .weft, .power, .selv, .sense, .hs, .ks, .free] s (execGcmDec c s) := by
  unfold execGcmDec
  repeat' first
    | with_reducible apply Moves.refl | ((with_reducible apply Within.of); exact rfl) | intro _
    | with_reducible apply Goes.next | with_reducible apply Goes.fault | with_reducible apply Goes.ite
    | with_reducible apply Moves.step (State.serve_moves (fs := [.regs, .mem, .ecc, .ladder, .fabric, .weft, .power, .selv, .sense, .hs, .ks, .free]) (hbody := ?_) ..)
    | with_reducible apply Moves.step (State.scKey_moves (fs := [.regs, .mem, .ecc, .ladder, .fabric, .weft, .power, .selv, .sense, .hs, .ks, .free]) (hf := ?_) ..)
    | with_reducible apply Moves.step (State.scReads_moves (fs := [.regs, .mem, .ecc, .ladder, .fabric, .weft, .power, .selv, .sense, .hs, .ks, .free]) (hf := ?_) ..)
    | with_reducible apply Moves.step (State.scFits_moves (fs := [.regs, .mem, .ecc, .ladder, .fabric, .weft, .power, .selv, .sense, .hs, .ks, .free]) (hf := ?_) ..)
    | with_reducible apply Moves.step (State.writeBlock_moves ..) | with_reducible apply Moves.ite
    | with_reducible apply Moves.foldl | with_reducible apply Moves.foldl_snd | with_reducible apply Moves.foldl_fst
    | ((with_reducible apply Moves.snd); assumption) | ((with_reducible apply Moves.fst); assumption) | split | dsimp only

theorem execCtr_moves (c : CtxId) (s : State) :
    Goes [.regs, .mem, .ecc, .ladder, .fabric, .weft, .power, .selv, .sense, .hs, .ks, .free] s (execCtr c s) := by
  unfold execCtr
  repeat' first
    | with_reducible apply Moves.refl | ((with_reducible apply Within.of); exact rfl) | intro _
    | with_reducible apply Goes.next | with_reducible apply Goes.fault | with_reducible apply Goes.ite
    | with_reducible apply Moves.step (State.serve_moves (fs := [.regs, .mem, .ecc, .ladder, .fabric, .weft, .power, .selv, .sense, .hs, .ks, .free]) (hbody := ?_) ..)
    | with_reducible apply Moves.step (State.scKey_moves (fs := [.regs, .mem, .ecc, .ladder, .fabric, .weft, .power, .selv, .sense, .hs, .ks, .free]) (hf := ?_) ..)
    | with_reducible apply Moves.step (State.scReads_moves (fs := [.regs, .mem, .ecc, .ladder, .fabric, .weft, .power, .selv, .sense, .hs, .ks, .free]) (hf := ?_) ..)
    | with_reducible apply Moves.step (State.scFits_moves (fs := [.regs, .mem, .ecc, .ladder, .fabric, .weft, .power, .selv, .sense, .hs, .ks, .free]) (hf := ?_) ..)
    | with_reducible apply Moves.ite | with_reducible apply Moves.foldl | with_reducible apply Moves.foldl_snd
    | with_reducible apply Moves.foldl_fst | ((with_reducible apply Moves.snd); assumption)
    | ((with_reducible apply Moves.fst); assumption) | split | dsimp only

theorem execHash_moves (c : CtxId) (s : State) :
    Goes [.regs, .mem, .ecc, .ladder, .fabric, .weft, .power, .selv, .sense, .hs, .ks, .free] s (execHash c s) := by
  unfold execHash
  repeat' first
    | with_reducible apply Moves.refl | ((with_reducible apply Within.of); exact rfl) | intro _
    | with_reducible apply Goes.next | with_reducible apply Goes.fault | with_reducible apply Goes.ite
    | with_reducible apply Moves.step (State.serve_moves (fs := [.regs, .mem, .ecc, .ladder, .fabric, .weft, .power, .selv, .sense, .hs, .ks, .free]) (hbody := ?_) ..)
    | with_reducible apply Moves.step (State.scReads_moves (fs := [.regs, .mem, .ecc, .ladder, .fabric, .weft, .power, .selv, .sense, .hs, .ks, .free]) (hf := ?_) ..)
    | with_reducible apply Moves.step (State.scFits_moves (fs := [.regs, .mem, .ecc, .ladder, .fabric, .weft, .power, .selv, .sense, .hs, .ks, .free]) (hf := ?_) ..)
    | with_reducible apply Moves.ite | with_reducible apply Moves.foldl | with_reducible apply Moves.foldl_snd
    | with_reducible apply Moves.foldl_fst | ((with_reducible apply Moves.snd); assumption)
    | ((with_reducible apply Moves.fst); assumption) | split | dsimp only

theorem execRandom_moves (c : CtxId) (s : State) :
    Goes [.regs, .mem, .ecc, .ladder, .fabric, .weft, .power, .selv, .sense, .hs, .ks, .free] s (execRandom c s) := by
  unfold execRandom
  repeat' first
    | with_reducible apply Moves.refl | ((with_reducible apply Within.of); exact rfl) | intro _
    | with_reducible apply Goes.next | with_reducible apply Goes.fault | with_reducible apply Goes.ite
    | with_reducible apply Moves.step (State.serve_moves (fs := [.regs, .mem, .ecc, .ladder, .fabric, .weft, .power, .selv, .sense, .hs, .ks, .free]) (hbody := ?_) ..)
    | with_reducible apply Moves.step (State.scRandom_moves (fs := [.regs, .mem, .ecc, .ladder, .fabric, .weft, .power, .selv, .sense, .hs, .ks, .free]) (hf := ?_) ..)
    | with_reducible apply Moves.step (State.drew_moves ..) | with_reducible apply Moves.ite
    | with_reducible apply Moves.foldl | with_reducible apply Moves.foldl_snd | with_reducible apply Moves.foldl_fst
    | ((with_reducible apply Moves.snd); assumption) | ((with_reducible apply Moves.fst); assumption) | split | dsimp only

theorem execGenerate_moves (c : CtxId) (s : State) :
    Goes [.regs, .mem, .ecc, .ladder, .fabric, .weft, .power, .selv, .sense, .hs, .ks, .free] s (execGenerate c s) := by
  unfold execGenerate
  repeat' first
    | with_reducible apply Moves.refl | ((with_reducible apply Within.of); exact rfl) | intro _
    | with_reducible apply Goes.next | with_reducible apply Goes.fault | with_reducible apply Goes.ite
    | with_reducible apply Moves.step (State.serve_moves (fs := [.regs, .mem, .ecc, .ladder, .fabric, .weft, .power, .selv, .sense, .hs, .ks, .free]) (hbody := ?_) ..)
    | with_reducible apply Moves.step (State.scAdmin_moves (fs := [.regs, .mem, .ecc, .ladder, .fabric, .weft, .power, .selv, .sense, .hs, .ks, .free]) (hf := ?_) ..)
    | with_reducible apply Moves.step (State.scNotRoot_moves (fs := [.regs, .mem, .ecc, .ladder, .fabric, .weft, .power, .selv, .sense, .hs, .ks, .free]) (hf := ?_) ..)
    | with_reducible apply Moves.step (State.scRoot_moves (fs := [.regs, .mem, .ecc, .ladder, .fabric, .weft, .power, .selv, .sense, .hs, .ks, .free]) (hf := ?_) ..)
    | with_reducible apply Moves.step (State.scRandom_moves (fs := [.regs, .mem, .ecc, .ladder, .fabric, .weft, .power, .selv, .sense, .hs, .ks, .free]) (hf := ?_) ..)
    | with_reducible apply Moves.step (State.scFits_moves (fs := [.regs, .mem, .ecc, .ladder, .fabric, .weft, .power, .selv, .sense, .hs, .ks, .free]) (hf := ?_) ..)
    | with_reducible apply Moves.step (State.newKey_moves ..) | with_reducible apply Moves.step (State.drew_moves ..)
    | with_reducible apply Moves.ite | with_reducible apply Moves.foldl | with_reducible apply Moves.foldl_snd
    | with_reducible apply Moves.foldl_fst | ((with_reducible apply Moves.snd); assumption)
    | ((with_reducible apply Moves.fst); assumption) | split | dsimp only

theorem execLoadBlob_moves (c : CtxId) (s : State) :
    Goes [.regs, .mem, .ecc, .ladder, .fabric, .weft, .power, .selv, .sense, .hs, .ks, .free] s (execLoadBlob c s) := by
  unfold execLoadBlob
  repeat' first
    | with_reducible apply Moves.refl | ((with_reducible apply Within.of); exact rfl) | intro _
    | with_reducible apply Goes.next | with_reducible apply Goes.fault | with_reducible apply Goes.ite
    | with_reducible apply Moves.step (State.serve_moves (fs := [.regs, .mem, .ecc, .ladder, .fabric, .weft, .power, .selv, .sense, .hs, .ks, .free]) (hbody := ?_) ..)
    | with_reducible apply Moves.step (State.scAdmin_moves (fs := [.regs, .mem, .ecc, .ladder, .fabric, .weft, .power, .selv, .sense, .hs, .ks, .free]) (hf := ?_) ..)
    | with_reducible apply Moves.step (State.scNotRoot_moves (fs := [.regs, .mem, .ecc, .ladder, .fabric, .weft, .power, .selv, .sense, .hs, .ks, .free]) (hf := ?_) ..)
    | with_reducible apply Moves.step (State.scReads_moves (fs := [.regs, .mem, .ecc, .ladder, .fabric, .weft, .power, .selv, .sense, .hs, .ks, .free]) (hf := ?_) ..)
    | with_reducible apply Moves.step (State.drew_moves ..) | with_reducible apply Moves.step (State.loadSlot_moves ..)
    | with_reducible apply Moves.step (State.setTwin_moves ..)
    | with_reducible apply Moves.step (State.scKey_moves (fs := [.regs, .mem, .ecc, .ladder, .fabric, .weft, .power, .selv, .sense, .hs, .ks, .free]) (hf := ?_) ..)
    | with_reducible apply Moves.step (State.scRoot_moves (fs := [.regs, .mem, .ecc, .ladder, .fabric, .weft, .power, .selv, .sense, .hs, .ks, .free]) (hf := ?_) ..)
    | with_reducible apply Moves.ite | with_reducible apply Moves.foldl | with_reducible apply Moves.foldl_snd
    | with_reducible apply Moves.foldl_fst | ((with_reducible apply Moves.snd); assumption)
    | ((with_reducible apply Moves.fst); assumption) | split | dsimp only

theorem execLoadPub_moves (c : CtxId) (s : State) :
    Goes [.regs, .mem, .ecc, .ladder, .fabric, .weft, .power, .selv, .sense, .hs, .ks, .free] s (execLoadPub c s) := by
  unfold execLoadPub
  repeat' first
    | with_reducible apply Moves.refl | ((with_reducible apply Within.of); exact rfl) | intro _
    | with_reducible apply Goes.next | with_reducible apply Goes.fault | with_reducible apply Goes.ite
    | with_reducible apply Moves.step (State.serve_moves (fs := [.regs, .mem, .ecc, .ladder, .fabric, .weft, .power, .selv, .sense, .hs, .ks, .free]) (hbody := ?_) ..)
    | with_reducible apply Moves.step (State.scAdmin_moves (fs := [.regs, .mem, .ecc, .ladder, .fabric, .weft, .power, .selv, .sense, .hs, .ks, .free]) (hf := ?_) ..)
    | with_reducible apply Moves.step (State.scNotRoot_moves (fs := [.regs, .mem, .ecc, .ladder, .fabric, .weft, .power, .selv, .sense, .hs, .ks, .free]) (hf := ?_) ..)
    | with_reducible apply Moves.step (State.scReads_moves (fs := [.regs, .mem, .ecc, .ladder, .fabric, .weft, .power, .selv, .sense, .hs, .ks, .free]) (hf := ?_) ..)
    | with_reducible apply Moves.step (State.stage_moves ..) | with_reducible apply Moves.ite
    | with_reducible apply Moves.foldl | with_reducible apply Moves.foldl_snd | with_reducible apply Moves.foldl_fst
    | ((with_reducible apply Moves.snd); assumption) | ((with_reducible apply Moves.fst); assumption) | split | dsimp only

theorem execCheck_moves (c : CtxId) (s : State) :
    Goes [.regs, .mem, .ecc, .ladder, .fabric, .weft, .power, .selv, .sense, .hs, .ks, .free] s (execCheck c s) := by
  unfold execCheck
  repeat' first
    | with_reducible apply Moves.refl | ((with_reducible apply Within.of); exact rfl) | intro _
    | with_reducible apply Goes.next | with_reducible apply Goes.fault | with_reducible apply Goes.ite
    | with_reducible apply Moves.step (State.serve_moves (fs := [.regs, .mem, .ecc, .ladder, .fabric, .weft, .power, .selv, .sense, .hs, .ks, .free]) (hbody := ?_) ..)
    | with_reducible apply Moves.step (State.scAdmin_moves (fs := [.regs, .mem, .ecc, .ladder, .fabric, .weft, .power, .selv, .sense, .hs, .ks, .free]) (hf := ?_) ..)
    | with_reducible apply Moves.step (State.setTwin_moves ..)
    | with_reducible apply Moves.step (State.scRandom_moves (fs := [.regs, .mem, .ecc, .ladder, .fabric, .weft, .power, .selv, .sense, .hs, .ks, .free]) (hf := ?_) ..)
    | with_reducible apply Moves.step (State.drew_moves ..) | with_reducible apply Moves.ite
    | with_reducible apply Moves.foldl | with_reducible apply Moves.foldl_snd | with_reducible apply Moves.foldl_fst
    | ((with_reducible apply Moves.snd); assumption) | ((with_reducible apply Moves.fst); assumption) | split | dsimp only

theorem execCommit_moves (c : CtxId) (s : State) :
    Goes [.regs, .mem, .ecc, .ladder, .fabric, .weft, .power, .selv, .sense, .hs, .ks, .free] s (execCommit c s) := by
  unfold execCommit
  repeat' first
    | with_reducible apply Moves.refl | ((with_reducible apply Within.of); exact rfl) | intro _
    | with_reducible apply Goes.next | with_reducible apply Goes.fault | with_reducible apply Goes.ite
    | with_reducible apply Moves.step (State.serve_moves (fs := [.regs, .mem, .ecc, .ladder, .fabric, .weft, .power, .selv, .sense, .hs, .ks, .free]) (hbody := ?_) ..)
    | with_reducible apply Moves.step (State.scAdmin_moves (fs := [.regs, .mem, .ecc, .ladder, .fabric, .weft, .power, .selv, .sense, .hs, .ks, .free]) (hf := ?_) ..)
    | with_reducible apply Moves.step (State.scNotRoot_moves (fs := [.regs, .mem, .ecc, .ladder, .fabric, .weft, .power, .selv, .sense, .hs, .ks, .free]) (hf := ?_) ..)
    | with_reducible apply Moves.step (State.commitTwin_moves ..)
    | with_reducible apply Moves.step (State.readBlock_moves ..)
    | with_reducible apply Moves.step (State.setTimed_moves ..) | with_reducible apply Moves.ite
    | with_reducible apply Moves.foldl | with_reducible apply Moves.foldl_snd | with_reducible apply Moves.foldl_fst
    | ((with_reducible apply Moves.snd); assumption) | ((with_reducible apply Moves.fst); assumption) | split | dsimp only

theorem execKsTimedCommit_moves (n : Fin 32) (s : State) :
    Goes [.regs, .weft, .ks] s (execKsTimedCommit n s) := by
  unfold execKsTimedCommit
  repeat' first
    | with_reducible apply Moves.refl | ((with_reducible apply Within.of); exact rfl) | intro _
    | with_reducible apply Goes.next | with_reducible apply Goes.fault | with_reducible apply Goes.ite
    | with_reducible apply Moves.step (State.onBlk_moves (fs := [.regs, .weft, .ks]) (hf := ?_) ..)
    | with_reducible apply Moves.step (State.commitTwin_moves ..) | with_reducible apply Moves.ite
    | with_reducible apply Moves.foldl | with_reducible apply Moves.foldl_snd | with_reducible apply Moves.foldl_fst
    | ((with_reducible apply Moves.snd); assumption) | ((with_reducible apply Moves.fst); assumption) | split | dsimp only

theorem execDiscard_moves (c : CtxId) (s : State) :
    Goes [.regs, .mem, .ecc, .ladder, .fabric, .weft, .power, .selv, .sense, .hs, .ks, .free] s (execDiscard c s) := by
  unfold execDiscard
  repeat' first
    | with_reducible apply Moves.refl | ((with_reducible apply Within.of); exact rfl) | intro _
    | with_reducible apply Goes.next | with_reducible apply Goes.fault | with_reducible apply Goes.ite
    | with_reducible apply Moves.step (State.serve_moves (fs := [.regs, .mem, .ecc, .ladder, .fabric, .weft, .power, .selv, .sense, .hs, .ks, .free]) (hbody := ?_) ..)
    | with_reducible apply Moves.step (State.scAdmin_moves (fs := [.regs, .mem, .ecc, .ladder, .fabric, .weft, .power, .selv, .sense, .hs, .ks, .free]) (hf := ?_) ..)
    | with_reducible apply Moves.step (State.setTwin_moves ..) | with_reducible apply Moves.ite
    | with_reducible apply Moves.foldl | with_reducible apply Moves.foldl_snd | with_reducible apply Moves.foldl_fst
    | ((with_reducible apply Moves.snd); assumption) | ((with_reducible apply Moves.fst); assumption) | split | dsimp only

theorem execErase_moves (c : CtxId) (s : State) :
    Goes [.regs, .mem, .ecc, .ladder, .fabric, .weft, .power, .selv, .sense, .hs, .ks, .free] s (execErase c s) := by
  unfold execErase
  repeat' first
    | with_reducible apply Moves.refl | ((with_reducible apply Within.of); exact rfl) | intro _
    | with_reducible apply Goes.next | with_reducible apply Goes.fault | with_reducible apply Goes.ite
    | with_reducible apply Moves.step (State.serve_moves (fs := [.regs, .mem, .ecc, .ladder, .fabric, .weft, .power, .selv, .sense, .hs, .ks, .free]) (hbody := ?_) ..)
    | with_reducible apply Moves.step (State.scAdmin_moves (fs := [.regs, .mem, .ecc, .ladder, .fabric, .weft, .power, .selv, .sense, .hs, .ks, .free]) (hf := ?_) ..)
    | with_reducible apply Moves.step (State.scNotRoot_moves (fs := [.regs, .mem, .ecc, .ladder, .fabric, .weft, .power, .selv, .sense, .hs, .ks, .free]) (hf := ?_) ..)
    | with_reducible apply Moves.step (State.setTimed_moves ..) | with_reducible apply Moves.step (State.setSlot_moves ..)
    | with_reducible apply Moves.ite | with_reducible apply Moves.foldl | with_reducible apply Moves.foldl_snd
    | with_reducible apply Moves.foldl_fst | ((with_reducible apply Moves.snd); assumption)
    | ((with_reducible apply Moves.fst); assumption) | split | dsimp only

theorem execKeyOut_moves (c : CtxId) (s : State) :
    Goes [.regs, .mem, .ecc, .ladder, .fabric, .weft, .power, .selv, .sense, .hs, .ks, .free] s (execKeyOut c s) := by
  unfold execKeyOut
  repeat' first
    | with_reducible apply Moves.refl | ((with_reducible apply Within.of); exact rfl) | intro _
    | with_reducible apply Goes.next | with_reducible apply Goes.fault | with_reducible apply Goes.ite
    | with_reducible apply Moves.step (State.serve_moves (fs := [.regs, .mem, .ecc, .ladder, .fabric, .weft, .power, .selv, .sense, .hs, .ks, .free]) (hbody := ?_) ..)
    | with_reducible apply Moves.step (State.scKey_moves (fs := [.regs, .mem, .ecc, .ladder, .fabric, .weft, .power, .selv, .sense, .hs, .ks, .free]) (hf := ?_) ..)
    | with_reducible apply Moves.step (State.scFits_moves (fs := [.regs, .mem, .ecc, .ladder, .fabric, .weft, .power, .selv, .sense, .hs, .ks, .free]) (hf := ?_) ..)
    | with_reducible apply Moves.ite | with_reducible apply Moves.foldl | with_reducible apply Moves.foldl_snd
    | with_reducible apply Moves.foldl_fst | ((with_reducible apply Moves.snd); assumption)
    | ((with_reducible apply Moves.fst); assumption) | split | dsimp only

theorem execRootGen_moves (c : CtxId) (s : State) :
    Goes [.regs, .mem, .ecc, .ladder, .fabric, .weft, .power, .selv, .sense, .hs, .ks, .free] s (execRootGen c s) := by
  unfold execRootGen
  repeat' first
    | with_reducible apply Moves.refl | ((with_reducible apply Within.of); exact rfl) | intro _
    | with_reducible apply Goes.next | with_reducible apply Goes.fault | with_reducible apply Goes.ite
    | with_reducible apply Moves.step (State.serve_moves (fs := [.regs, .mem, .ecc, .ladder, .fabric, .weft, .power, .selv, .sense, .hs, .ks, .free]) (hbody := ?_) ..)
    | with_reducible apply Moves.step (State.scAdmin_moves (fs := [.regs, .mem, .ecc, .ladder, .fabric, .weft, .power, .selv, .sense, .hs, .ks, .free]) (hf := ?_) ..)
    | with_reducible apply Moves.step (State.scRandom_moves (fs := [.regs, .mem, .ecc, .ladder, .fabric, .weft, .power, .selv, .sense, .hs, .ks, .free]) (hf := ?_) ..)
    | with_reducible apply Moves.step (State.drew_moves ..) | with_reducible apply Moves.step (State.setFlag_moves ..)
    | with_reducible apply Moves.step (State.setKs_moves ..) | with_reducible apply Moves.ite
    | with_reducible apply Moves.foldl | with_reducible apply Moves.foldl_snd | with_reducible apply Moves.foldl_fst
    | ((with_reducible apply Moves.snd); assumption) | ((with_reducible apply Moves.fst); assumption) | split | dsimp only

theorem execZeroise_moves (c : CtxId) (s : State) :
    Goes [.regs, .mem, .ecc, .ladder, .fabric, .weft, .power, .selv, .sense, .hs, .ks, .free] s (execZeroise c s) := by
  unfold execZeroise
  repeat' first
    | with_reducible apply Moves.refl | ((with_reducible apply Within.of); exact rfl) | intro _
    | with_reducible apply Goes.next | with_reducible apply Goes.fault | with_reducible apply Goes.ite
    | with_reducible apply Moves.step (State.serve_moves (fs := [.regs, .mem, .ecc, .ladder, .fabric, .weft, .power, .selv, .sense, .hs, .ks, .free]) (hbody := ?_) ..)
    | with_reducible apply Moves.step (State.scAdmin_moves (fs := [.regs, .mem, .ecc, .ladder, .fabric, .weft, .power, .selv, .sense, .hs, .ks, .free]) (hf := ?_) ..)
    | with_reducible apply Moves.step (State.zeroise_moves ..) | with_reducible apply Moves.ite
    | with_reducible apply Moves.foldl | with_reducible apply Moves.foldl_snd | with_reducible apply Moves.foldl_fst
    | ((with_reducible apply Moves.snd); assumption) | ((with_reducible apply Moves.fst); assumption) | split | dsimp only

theorem execTamperEvent_moves (src : Fin 5) (s : State) :
    Goes [.regs, .ladder, .fabric, .weft, .power, .selv, .sense, .hs, .ks] s (execTamperEvent src s) := by
  unfold execTamperEvent
  repeat' first
    | with_reducible apply Moves.refl | ((with_reducible apply Within.of); exact rfl) | intro _
    | with_reducible apply Goes.next | with_reducible apply Goes.fault | with_reducible apply Goes.ite
    | with_reducible apply Moves.step (State.zeroise_moves ..) | with_reducible apply Moves.ite
    | with_reducible apply Moves.foldl | with_reducible apply Moves.foldl_snd | with_reducible apply Moves.foldl_fst
    | ((with_reducible apply Moves.snd); assumption) | ((with_reducible apply Moves.fst); assumption) | split | dsimp only

theorem execKsRemask_moves (s : State) :
    Goes [.ks, .free] s (execKsRemask s) := by
  unfold execKsRemask
  repeat' first
    | with_reducible apply Moves.refl | ((with_reducible apply Within.of); exact rfl) | intro _
    | with_reducible apply Goes.next | with_reducible apply Goes.fault | with_reducible apply Goes.ite
    | with_reducible apply Moves.step (State.onBlk_moves (fs := [.ks, .free]) (hf := ?_) ..)
    | with_reducible apply Moves.step (State.drew_moves ..) | with_reducible apply Moves.step (State.setKs_moves ..)
    | with_reducible apply Moves.ite | with_reducible apply Moves.foldl | with_reducible apply Moves.foldl_snd
    | with_reducible apply Moves.foldl_fst | ((with_reducible apply Moves.snd); assumption)
    | ((with_reducible apply Moves.fst); assumption) | split | dsimp only

theorem execKsEntropyFail_moves (s : State) :
    Goes [.regs, .ladder, .weft, .ks] s (execKsEntropyFail s) := by
  unfold execKsEntropyFail
  repeat' first
    | with_reducible apply Moves.refl | ((with_reducible apply Within.of); exact rfl) | intro _
    | with_reducible apply Goes.next | with_reducible apply Goes.fault | with_reducible apply Goes.ite
    | with_reducible apply Moves.step (State.onBlk_moves (fs := [.regs, .ladder, .weft, .ks]) (hf := ?_) ..)
    | with_reducible apply Moves.step (State.setFlag_moves ..) | with_reducible apply Moves.step (State.setKs_moves ..)
    | with_reducible apply Moves.step (State.line_moves ..) | with_reducible apply Moves.step (State.contain_moves ..)
    | with_reducible apply Moves.ite | with_reducible apply Moves.foldl | with_reducible apply Moves.foldl_snd
    | with_reducible apply Moves.foldl_fst | ((with_reducible apply Moves.snd); assumption)
    | ((with_reducible apply Moves.fst); assumption) | split | dsimp only

theorem execKsReseed_moves (pass : Bool) (s : State) :
    Goes [.regs, .ladder, .weft, .ks] s (execKsReseed pass s) := by
  unfold execKsReseed
  repeat' first
    | with_reducible apply Moves.refl | ((with_reducible apply Within.of); exact rfl) | intro _
    | with_reducible apply Goes.next | with_reducible apply Goes.fault | with_reducible apply Goes.ite
    | with_reducible apply Moves.step (State.onBlk_moves (fs := [.regs, .ladder, .weft, .ks]) (hf := ?_) ..)
    | with_reducible apply Moves.step (State.setKs_moves ..) | with_reducible apply Moves.step (State.recovers_moves ..)
    | with_reducible apply Moves.step (State.line_moves ..) | with_reducible apply Moves.step (State.setFlag_moves ..)
    | with_reducible apply Moves.ite | with_reducible apply Moves.foldl | with_reducible apply Moves.foldl_snd
    | with_reducible apply Moves.foldl_fst | ((with_reducible apply Moves.snd); assumption)
    | ((with_reducible apply Moves.fst); assumption) | split | dsimp only

theorem State.ksAdminWrite_moves (s : State) (data : Word) :
    Moves [.regs] s (State.ksAdminWrite s data) := by
  unfold State.ksAdminWrite
  repeat' first
    | with_reducible apply Moves.refl | ((with_reducible apply Within.of); exact rfl) | intro _
    | with_reducible apply Moves.step (State.setFld_moves ..) | with_reducible apply Moves.step (State.setFlag_moves ..)
    | with_reducible apply Moves.ite | with_reducible apply Moves.foldl | with_reducible apply Moves.foldl_snd
    | with_reducible apply Moves.foldl_fst | ((with_reducible apply Moves.snd); assumption)
    | ((with_reducible apply Moves.fst); assumption) | split | dsimp only

theorem execKsAdminLock_moves (data : Word) (s : State) :
    Goes [.regs] s (execKsAdminLock data s) := by
  unfold execKsAdminLock
  repeat' first
    | with_reducible apply Moves.refl | ((with_reducible apply Within.of); exact rfl) | intro _
    | with_reducible apply Goes.next | with_reducible apply Goes.fault | with_reducible apply Goes.ite
    | with_reducible apply Moves.step (State.onBlk_moves (fs := [.regs]) (hf := ?_) ..)
    | with_reducible apply Moves.step (State.ksAdminWrite_moves ..) | with_reducible apply Moves.ite
    | with_reducible apply Moves.foldl | with_reducible apply Moves.foldl_snd | with_reducible apply Moves.foldl_fst
    | ((with_reducible apply Moves.snd); assumption) | ((with_reducible apply Moves.fst); assumption) | split | dsimp only

theorem State.ksCtrlWrite_moves (s : State) (data : Word) :
    Moves [.regs] s (State.ksCtrlWrite s data) := by
  unfold State.ksCtrlWrite
  repeat' first
    | with_reducible apply Moves.refl | ((with_reducible apply Within.of); exact rfl) | intro _
    | with_reducible apply Moves.step (State.setFld_moves ..) | with_reducible apply Moves.step (State.setFlag_moves ..)
    | with_reducible apply Moves.ite | with_reducible apply Moves.foldl | with_reducible apply Moves.foldl_snd
    | with_reducible apply Moves.foldl_fst | ((with_reducible apply Moves.snd); assumption)
    | ((with_reducible apply Moves.fst); assumption) | split | dsimp only

theorem execKsCtrlLock_moves (data : Word) (s : State) :
    Goes [.regs] s (execKsCtrlLock data s) := by
  unfold execKsCtrlLock
  repeat' first
    | with_reducible apply Moves.refl | ((with_reducible apply Within.of); exact rfl) | intro _
    | with_reducible apply Goes.next | with_reducible apply Goes.fault | with_reducible apply Goes.ite
    | with_reducible apply Moves.step (State.onBlk_moves (fs := [.regs]) (hf := ?_) ..)
    | with_reducible apply Moves.step (State.ksCtrlWrite_moves ..) | with_reducible apply Moves.ite
    | with_reducible apply Moves.foldl | with_reducible apply Moves.foldl_snd | with_reducible apply Moves.foldl_fst
    | ((with_reducible apply Moves.snd); assumption) | ((with_reducible apply Moves.fst); assumption) | split | dsimp only

end Sys2Proof.Machine
end

