-- ==== Sys2Proof/Laws/MovesLoomOps.lean ====
section
/-!
SUPPORT. Laws/MovesLoomOps.lean: which parts of the state each operation of Machine/LoomOps.lean moves.
-/
set_option Elab.async false
namespace Sys2Proof.Machine
set_option linter.all false

theorem State.chStart_moves (s : State) (n t0 : Nat) :
    Moves [.regs, .weft, .loom] s (State.chStart s n t0) := by
  unfold State.chStart
  repeat' first
    | with_reducible apply Moves.refl | ((with_reducible apply Within.of); exact rfl) | intro _
    | with_reducible apply Moves.step (State.setCh_moves ..) | with_reducible apply Moves.step (State.setChFlag_moves ..)
    | with_reducible apply Moves.step (State.tripsOf_moves ..) | with_reducible apply Moves.step (State.resume_moves ..)
    | with_reducible apply Moves.ite | with_reducible apply Moves.foldl | with_reducible apply Moves.foldl_snd
    | with_reducible apply Moves.foldl_fst | ((with_reducible apply Moves.snd); assumption)
    | ((with_reducible apply Moves.fst); assumption) | split | dsimp only

theorem State.syncErrs_moves (s : State) :
    Moves [.regs] s (State.syncErrs s) := by
  unfold State.syncErrs
  repeat' first
    | with_reducible apply Moves.refl | ((with_reducible apply Within.of); exact rfl) | intro _
    | with_reducible apply Moves.step (State.eachCh_moves (fs := [.regs]) (hf := ?_) ..)
    | with_reducible apply Moves.step (State.setChFlag_moves ..) | with_reducible apply Moves.ite
    | with_reducible apply Moves.foldl | with_reducible apply Moves.foldl_snd | with_reducible apply Moves.foldl_fst
    | ((with_reducible apply Moves.snd); assumption) | ((with_reducible apply Moves.fst); assumption) | split | dsimp only

theorem State.startFollowers_moves (s : State) (m t0 : Nat) :
    Moves [.regs, .weft, .loom] s (State.startFollowers s m t0) := by
  unfold State.startFollowers
  repeat' first
    | with_reducible apply Moves.refl | ((with_reducible apply Within.of); exact rfl) | intro _
    | with_reducible apply Moves.step (State.eachCh_moves (fs := [.regs, .weft, .loom]) (hf := ?_) ..)
    | with_reducible apply Moves.step (State.chStart_moves ..) | with_reducible apply Moves.ite
    | with_reducible apply Moves.foldl | with_reducible apply Moves.foldl_snd | with_reducible apply Moves.foldl_fst
    | ((with_reducible apply Moves.snd); assumption) | ((with_reducible apply Moves.fst); assumption) | split | dsimp only

theorem State.chLaunch_moves (s : State) (n : Nat) :
    Moves [.regs, .weft, .loom] s (State.chLaunch s n) := by
  unfold State.chLaunch
  repeat' first
    | with_reducible apply Moves.refl | ((with_reducible apply Within.of); exact rfl) | intro _
    | with_reducible apply Moves.step (State.chStart_moves ..)
    | with_reducible apply Moves.step (State.setChFlag_moves ..) | with_reducible apply Moves.ite
    | with_reducible apply Moves.foldl | with_reducible apply Moves.foldl_snd | with_reducible apply Moves.foldl_fst
    | ((with_reducible apply Moves.snd); assumption) | ((with_reducible apply Moves.fst); assumption) | split | dsimp only

theorem State.loomRunWrite_moves (s : State) (data : Nat) :
    Moves [.regs, .weft, .loom] s (State.loomRunWrite s data) := by
  unfold State.loomRunWrite
  repeat' first
    | with_reducible apply Moves.refl | ((with_reducible apply Within.of); exact rfl) | intro _
    | with_reducible apply Moves.step (State.setFld_moves ..)
    | with_reducible apply Moves.step (State.eachCh_moves (fs := [.regs, .weft, .loom]) (hf := ?_) ..)
    | with_reducible apply Moves.step (State.chStopAll_moves ..)
    | with_reducible apply Moves.step (State.chLaunch_moves ..)
    | with_reducible apply Moves.step (State.startFollowers_moves ..) | with_reducible apply Moves.ite
    | with_reducible apply Moves.foldl | with_reducible apply Moves.foldl_snd | with_reducible apply Moves.foldl_fst
    | ((with_reducible apply Moves.snd); assumption) | ((with_reducible apply Moves.fst); assumption) | split | dsimp only

theorem State.chBoundary_moves (s : State) (n t : Nat) :
    Moves [.regs, .live, .ladder, .weft, .loom] s (State.chBoundary s n t) := by
  unfold State.chBoundary
  repeat' first
    | with_reducible apply Moves.refl | ((with_reducible apply Within.of); exact rfl) | intro _
    | with_reducible apply Moves.step (State.setCh_moves ..) | with_reducible apply Moves.step (State.chCommit_moves ..)
    | with_reducible apply Moves.step (State.phaseTo_moves ..)
    | with_reducible apply Moves.step (State.setChFlag_moves ..) | with_reducible apply Moves.step (State.resume_moves ..)
    | with_reducible apply Moves.step (State.refSync_moves ..)
    | with_reducible apply Moves.step (State.recoversCell_moves ..) | with_reducible apply Moves.ite
    | with_reducible apply Moves.foldl | with_reducible apply Moves.foldl_snd | with_reducible apply Moves.foldl_fst
    | ((with_reducible apply Moves.snd); assumption) | ((with_reducible apply Moves.fst); assumption) | split | dsimp only

theorem State.loomBoundary_moves (s : State) (n t : Nat) :
    Moves [.regs, .live, .ladder, .weft, .loom] s (State.loomBoundary s n t) := by
  unfold State.loomBoundary
  repeat' first
    | with_reducible apply Moves.refl | ((with_reducible apply Within.of); exact rfl) | intro _
    | with_reducible apply Moves.step (State.chBoundary_moves ..)
    | with_reducible apply Moves.step (State.eachCh_moves (fs := [.regs, .live, .ladder, .weft, .loom]) (hf := ?_) ..)
    | with_reducible apply Moves.step (State.startFollowers_moves ..) | with_reducible apply Moves.ite
    | with_reducible apply Moves.foldl | with_reducible apply Moves.foldl_snd | with_reducible apply Moves.foldl_fst
    | ((with_reducible apply Moves.snd); assumption) | ((with_reducible apply Moves.fst); assumption) | split | dsimp only

theorem State.chMidpoint_moves (s : State) (n t : Nat) :
    Moves [.regs, .live, .weft, .loom] s (State.chMidpoint s n t) := by
  unfold State.chMidpoint
  repeat' first
    | with_reducible apply Moves.refl | ((with_reducible apply Within.of); exact rfl) | intro _
    | with_reducible apply Moves.step (State.refSync_moves ..) | with_reducible apply Moves.step (State.chCommit_moves ..)
    | with_reducible apply Moves.ite | with_reducible apply Moves.foldl | with_reducible apply Moves.foldl_snd
    | with_reducible apply Moves.foldl_fst | ((with_reducible apply Moves.snd); assumption)
    | ((with_reducible apply Moves.fst); assumption) | split | dsimp only

theorem State.dropPulse_moves (s : State) (n : Nat) (high : Bool) :
    Moves [.regs, .weft] s (State.dropPulse s n high) := by
  unfold State.dropPulse
  repeat' first
    | with_reducible apply Moves.refl | ((with_reducible apply Within.of); exact rfl) | intro _
    | with_reducible apply Moves.step (State.line_moves ..) | with_reducible apply Moves.step (State.bump_moves ..)
    | with_reducible apply Moves.ite | with_reducible apply Moves.foldl | with_reducible apply Moves.foldl_snd
    | with_reducible apply Moves.foldl_fst | ((with_reducible apply Moves.snd); assumption)
    | ((with_reducible apply Moves.fst); assumption) | split | dsimp only

theorem State.clrTrip_moves (s : State) (n : Nat) :
    Moves [.regs, .loom] s (State.clrTrip s n) := by
  unfold State.clrTrip
  repeat' first
    | with_reducible apply Moves.refl | ((with_reducible apply Within.of); exact rfl) | intro _
    | with_reducible apply Moves.step (State.setChFlag_moves ..) | with_reducible apply Moves.step (State.setFld_moves ..)
    | with_reducible apply Moves.step (State.setCh_moves ..) | with_reducible apply Moves.ite
    | with_reducible apply Moves.foldl | with_reducible apply Moves.foldl_snd | with_reducible apply Moves.foldl_fst
    | ((with_reducible apply Moves.snd); assumption) | ((with_reducible apply Moves.fst); assumption) | split | dsimp only

theorem State.gupdArm_moves (s : State) (mask : Nat) :
    Moves [.regs, .loom] s (State.gupdArm s mask) := by
  unfold State.gupdArm
  repeat' first
    | with_reducible apply Moves.refl | ((with_reducible apply Within.of); exact rfl) | intro _
    | with_reducible apply Moves.step (State.eachCh_moves (fs := [.regs, .loom]) (hf := ?_) ..)
    | with_reducible apply Moves.step (State.setCh_moves ..) | with_reducible apply Moves.step (State.setBit_moves ..)
    | with_reducible apply Moves.ite | with_reducible apply Moves.foldl | with_reducible apply Moves.foldl_snd
    | with_reducible apply Moves.foldl_fst | ((with_reducible apply Moves.snd); assumption)
    | ((with_reducible apply Moves.fst); assumption) | split | dsimp only

theorem State.stuckClear_moves (s : State) (k : Nat) :
    Moves [.regs] s (State.stuckClear s k) := by
  unfold State.stuckClear
  repeat' first
    | with_reducible apply Moves.refl | ((with_reducible apply Within.of); exact rfl) | intro _
    | with_reducible apply Moves.step (State.setFlag_moves ..) | with_reducible apply Moves.ite
    | with_reducible apply Moves.foldl | with_reducible apply Moves.foldl_snd | with_reducible apply Moves.foldl_fst
    | ((with_reducible apply Moves.snd); assumption) | ((with_reducible apply Moves.fst); assumption) | split | dsimp only

theorem State.chWritten_moves (s : State) (n a : Nat) :
    Moves [.regs, .ladder, .loom] s (State.chWritten s n a) := by
  unfold State.chWritten
  repeat' first
    | with_reducible apply Moves.refl | ((with_reducible apply Within.of); exact rfl) | intro _
    | with_reducible apply Moves.step (State.setCh_moves ..)
    | with_reducible apply Moves.step (State.recoversCell_moves ..) | with_reducible apply Moves.ite
    | with_reducible apply Moves.foldl | with_reducible apply Moves.foldl_snd | with_reducible apply Moves.foldl_fst
    | ((with_reducible apply Moves.snd); assumption) | ((with_reducible apply Moves.fst); assumption) | split | dsimp only

end Sys2Proof.Machine
end

