-- ==== Sys2Proof/Laws/MovesTariffOps.lean ====
section
/-!
SUPPORT. Laws/MovesTariffOps.lean: which parts of the state each operation of Machine/TariffOps.lean moves.
-/
set_option Elab.async false
namespace Sys2Proof.Machine
set_option linter.all false

theorem State.tariffRecord_moves (s : State) (l : List Byte) :
    Moves [.regs, .mem, .ladder, .ledger] s (State.tariffRecord s l) := by
  unfold State.tariffRecord
  repeat' first
    | with_reducible apply Moves.refl | ((with_reducible apply Within.of); exact rfl) | intro _
    | with_reducible apply Moves.step (State.setTar_moves ..) | with_reducible apply Moves.step (State.mramPut_moves ..)
    | with_reducible apply Moves.ite | with_reducible apply Moves.foldl | with_reducible apply Moves.foldl_snd
    | with_reducible apply Moves.foldl_fst | ((with_reducible apply Moves.snd); assumption)
    | ((with_reducible apply Moves.fst); assumption) | split | dsimp only

theorem State.billingRecord_moves (s : State) (ch flags b : Nat) :
    Moves [.regs, .mem, .ladder, .ledger, .free] s (State.billingRecord s ch flags b) := by
  unfold State.billingRecord
  repeat' first
    | with_reducible apply Moves.refl | ((with_reducible apply Within.of); exact rfl) | intro _
    | with_reducible apply Moves.step (State.afterSign_moves ..)
    | with_reducible apply Moves.step (State.tariffRecord_moves ..) | with_reducible apply Moves.ite
    | with_reducible apply Moves.foldl | with_reducible apply Moves.foldl_snd | with_reducible apply Moves.foldl_fst
    | ((with_reducible apply Moves.snd); assumption) | ((with_reducible apply Moves.fst); assumption) | split | dsimp only

theorem State.accountRecord_moves (s : State) (kind a txid op amt : Nat) :
    Moves [.regs, .mem, .ladder, .ledger] s (State.accountRecord s kind a txid op amt) := by
  unfold State.accountRecord
  repeat' first
    | with_reducible apply Moves.refl | ((with_reducible apply Within.of); exact rfl) | intro _
    | with_reducible apply Moves.step (State.tariffRecord_moves ..) | with_reducible apply Moves.ite
    | with_reducible apply Moves.foldl | with_reducible apply Moves.foldl_snd | with_reducible apply Moves.foldl_fst
    | ((with_reducible apply Moves.snd); assumption) | ((with_reducible apply Moves.fst); assumption) | split | dsimp only

theorem State.setAccount_moves (s : State) (a : Nat) (x : Account) :
    Moves [.ledger] s (State.setAccount s a x) := by
  unfold State.setAccount
  repeat' first
    | with_reducible apply Moves.refl | ((with_reducible apply Within.of); exact rfl) | intro _
    | with_reducible apply Moves.step (State.setTar_moves ..) | with_reducible apply Moves.ite
    | with_reducible apply Moves.foldl | with_reducible apply Moves.foldl_snd | with_reducible apply Moves.foldl_fst
    | ((with_reducible apply Moves.snd); assumption) | ((with_reducible apply Moves.fst); assumption) | split | dsimp only

theorem State.accountSync_moves (s : State) (a : Nat) :
    Moves [.regs, .mem, .ladder, .weft, .ledger] s (State.accountSync s a) := by
  unfold State.accountSync
  repeat' first
    | with_reducible apply Moves.refl | ((with_reducible apply Within.of); exact rfl) | intro _
    | with_reducible apply Moves.step (State.setAccount_moves ..) | with_reducible apply Moves.step (State.line_moves ..)
    | with_reducible apply Moves.step (State.accountRecord_moves ..)
    | with_reducible apply Moves.step (State.note_moves ..) | with_reducible apply Moves.ite
    | with_reducible apply Moves.foldl | with_reducible apply Moves.foldl_snd | with_reducible apply Moves.foldl_fst
    | ((with_reducible apply Moves.snd); assumption) | ((with_reducible apply Moves.fst); assumption) | split | dsimp only

theorem State.accountsSync_moves (s : State) :
    Moves [.regs, .mem, .ladder, .weft, .ledger] s (State.accountsSync s) := by
  unfold State.accountsSync
  repeat' first
    | with_reducible apply Moves.refl | ((with_reducible apply Within.of); exact rfl) | intro _
    | with_reducible apply Moves.step (State.accountSync_moves ..) | with_reducible apply Moves.ite
    | with_reducible apply Moves.foldl | with_reducible apply Moves.foldl_snd | with_reducible apply Moves.foldl_fst
    | ((with_reducible apply Moves.snd); assumption) | ((with_reducible apply Moves.fst); assumption) | split | dsimp only

theorem State.debitBlock_moves (s : State) (o delta : Nat) :
    Moves [.regs, .mem, .ladder, .weft, .ledger] s (State.debitBlock s o delta) := by
  unfold State.debitBlock
  repeat' first
    | with_reducible apply Moves.refl | ((with_reducible apply Within.of); exact rfl) | intro _
    | with_reducible apply Moves.step (State.setAccount_moves ..)
    | with_reducible apply Moves.step (State.accountSync_moves ..) | with_reducible apply Moves.ite
    | with_reducible apply Moves.foldl | with_reducible apply Moves.foldl_snd | with_reducible apply Moves.foldl_fst
    | ((with_reducible apply Moves.snd); assumption) | ((with_reducible apply Moves.fst); assumption) | split | dsimp only

theorem State.bindBlock_moves (s : State) (o : Nat) :
    Moves [.ledger] s (State.bindBlock s o) := by
  unfold State.bindBlock
  repeat' first
    | with_reducible apply Moves.refl | ((with_reducible apply Within.of); exact rfl) | intro _
    | with_reducible apply Moves.step (State.setTar_moves ..) | with_reducible apply Moves.ite
    | with_reducible apply Moves.foldl | with_reducible apply Moves.foldl_snd | with_reducible apply Moves.foldl_fst
    | ((with_reducible apply Moves.snd); assumption) | ((with_reducible apply Moves.fst); assumption) | split | dsimp only

theorem State.tariffBlock_moves (s : State) (o di de : Nat) :
    Moves [.regs, .mem, .ladder, .weft, .ledger] s (State.tariffBlock s o di de) := by
  unfold State.tariffBlock
  repeat' first
    | with_reducible apply Moves.refl | ((with_reducible apply Within.of); exact rfl) | intro _
    | with_reducible apply Moves.step (State.setTar_moves ..) | with_reducible apply Moves.step (State.bindBlock_moves ..)
    | with_reducible apply Moves.step (State.debitBlock_moves ..) | with_reducible apply Moves.ite
    | with_reducible apply Moves.foldl | with_reducible apply Moves.foldl_snd | with_reducible apply Moves.foldl_fst
    | ((with_reducible apply Moves.snd); assumption) | ((with_reducible apply Moves.fst); assumption) | split | dsimp only

theorem State.closeInterval_moves (s : State) (short adj : Bool) :
    Moves [.regs, .mem, .ladder, .weft, .ledger, .free] s (State.closeInterval s short adj) := by
  unfold State.closeInterval
  repeat' first
    | with_reducible apply Moves.refl | ((with_reducible apply Within.of); exact rfl) | intro _
    | with_reducible apply Moves.step (State.mramPut_moves ..) | with_reducible apply Moves.step (State.line_moves ..)
    | with_reducible apply Moves.step (State.drew_moves ..) | with_reducible apply Moves.step (State.setTar_moves ..)
    | with_reducible apply Moves.ite | with_reducible apply Moves.foldl | with_reducible apply Moves.foldl_snd
    | with_reducible apply Moves.foldl_fst | ((with_reducible apply Moves.snd); assumption)
    | ((with_reducible apply Moves.fst); assumption) | split | dsimp only

theorem State.openInterval_moves (s : State) (adj : Bool) :
    Moves [.ledger] s (State.openInterval s adj) := by
  unfold State.openInterval
  repeat' first
    | with_reducible apply Moves.refl | ((with_reducible apply Within.of); exact rfl) | intro _
    | with_reducible apply Moves.step (State.setTar_moves ..) | with_reducible apply Moves.ite
    | with_reducible apply Moves.foldl | with_reducible apply Moves.foldl_snd | with_reducible apply Moves.foldl_fst
    | ((with_reducible apply Moves.snd); assumption) | ((with_reducible apply Moves.fst); assumption) | split | dsimp only

theorem State.demandBoundary_moves (s : State) :
    Moves [.regs, .mem, .ladder, .weft, .ledger, .free] s (State.demandBoundary s) := by
  unfold State.demandBoundary
  repeat' first
    | with_reducible apply Moves.refl | ((with_reducible apply Within.of); exact rfl) | intro _
    | with_reducible apply Moves.step (State.closeInterval_moves ..)
    | with_reducible apply Moves.step (State.openInterval_moves ..)
    | with_reducible apply Moves.step (State.setTar_moves ..) | with_reducible apply Moves.ite
    | with_reducible apply Moves.foldl | with_reducible apply Moves.foldl_snd | with_reducible apply Moves.foldl_fst
    | ((with_reducible apply Moves.snd); assumption) | ((with_reducible apply Moves.fst); assumption) | split | dsimp only

theorem State.consumeBoundary_moves (s : State) (b flags : Nat) :
    Moves [.regs, .mem, .ladder, .weft, .ledger, .free] s (State.consumeBoundary s b flags) := by
  unfold State.consumeBoundary
  repeat' first
    | with_reducible apply Moves.refl | ((with_reducible apply Within.of); exact rfl) | intro _
    | with_reducible apply Moves.step (State.setTar_moves ..)
    | with_reducible apply Moves.step (State.billingRecord_moves ..)
    | with_reducible apply Moves.step (State.logEntry_moves ..) | with_reducible apply Moves.step (State.line_moves ..)
    | with_reducible apply Moves.ite | with_reducible apply Moves.foldl | with_reducible apply Moves.foldl_snd
    | with_reducible apply Moves.foldl_fst | ((with_reducible apply Moves.snd); assumption)
    | ((with_reducible apply Moves.fst); assumption) | split | dsimp only

theorem State.billAll_moves (s : State) (flags : Nat) :
    Moves [.regs, .mem, .ladder, .weft, .ledger, .free] s (State.billAll s flags) := by
  unfold State.billAll
  repeat' first
    | with_reducible apply Moves.refl | ((with_reducible apply Within.of); exact rfl) | intro _
    | with_reducible apply Moves.step (State.consumeBoundary_moves ..) | with_reducible apply Moves.ite
    | with_reducible apply Moves.foldl | with_reducible apply Moves.foldl_snd | with_reducible apply Moves.foldl_fst
    | ((with_reducible apply Moves.snd); assumption) | ((with_reducible apply Moves.fst); assumption) | split | dsimp only

theorem State.billSample_moves (s : State) :
    Moves [.regs, .mem, .ladder, .weft, .ledger, .free] s (State.billSample s) := by
  unfold State.billSample
  repeat' first
    | with_reducible apply Moves.refl | ((with_reducible apply Within.of); exact rfl) | intro _
    | with_reducible apply Moves.step (State.billAll_moves ..)
    | with_reducible apply Moves.step (State.consumeBoundary_moves ..)
    | with_reducible apply Moves.step (State.setTar_moves ..) | with_reducible apply Moves.ite
    | with_reducible apply Moves.foldl | with_reducible apply Moves.foldl_snd | with_reducible apply Moves.foldl_fst
    | ((with_reducible apply Moves.snd); assumption) | ((with_reducible apply Moves.fst); assumption) | split | dsimp only

theorem State.storeCal_moves (s : State) (passive : Nat) (c : List Byte) :
    Moves [.regs, .mem, .ladder, .ledger] s (State.storeCal s passive c) := by
  unfold State.storeCal
  repeat' first
    | with_reducible apply Moves.refl | ((with_reducible apply Within.of); exact rfl) | intro _
    | with_reducible apply Moves.step (State.mramPut_moves ..) | with_reducible apply Moves.ite
    | with_reducible apply Moves.foldl | with_reducible apply Moves.foldl_snd | with_reducible apply Moves.foldl_fst
    | ((with_reducible apply Moves.snd); assumption) | ((with_reducible apply Moves.fst); assumption) | split | dsimp only

theorem State.activate_moves (s : State) :
    Moves [.regs, .mem, .ladder, .weft, .ledger, .free] s (State.activate s) := by
  unfold State.activate
  repeat' first
    | with_reducible apply Moves.refl | ((with_reducible apply Within.of); exact rfl) | intro _
    | with_reducible apply Moves.step (State.closeInterval_moves ..)
    | with_reducible apply Moves.step (State.storeCal_moves ..) | with_reducible apply Moves.step (State.setTar_moves ..)
    | with_reducible apply Moves.step (State.logEntry_moves ..) | with_reducible apply Moves.step (State.line_moves ..)
    | with_reducible apply Moves.step (State.openInterval_moves ..)
    | with_reducible apply Moves.step (State.consumeBoundary_moves ..) | with_reducible apply Moves.ite
    | with_reducible apply Moves.foldl | with_reducible apply Moves.foldl_snd | with_reducible apply Moves.foldl_fst
    | ((with_reducible apply Moves.snd); assumption) | ((with_reducible apply Moves.fst); assumption) | split | dsimp only

theorem State.rateSync_moves (s : State) :
    Moves [.regs, .mem, .ladder, .weft, .ledger] s (State.rateSync s) := by
  unfold State.rateSync
  repeat' first
    | with_reducible apply Moves.refl | ((with_reducible apply Within.of); exact rfl) | intro _
    | with_reducible apply Moves.step (State.line_moves ..) | with_reducible apply Moves.step (State.setTar_moves ..)
    | with_reducible apply Moves.step (State.accountsSync_moves ..) | with_reducible apply Moves.ite
    | with_reducible apply Moves.foldl | with_reducible apply Moves.foldl_snd | with_reducible apply Moves.foldl_fst
    | ((with_reducible apply Moves.snd); assumption) | ((with_reducible apply Moves.fst); assumption) | split | dsimp only

theorem State.tarInstants_moves (s : State) :
    Moves [.regs, .mem, .ladder, .weft, .ledger, .free] s (State.tarInstants s) := by
  unfold State.tarInstants
  repeat' first
    | with_reducible apply Moves.refl | ((with_reducible apply Within.of); exact rfl) | intro _
    | with_reducible apply Moves.step (State.rateSync_moves ..)
    | with_reducible apply Moves.step (State.demandBoundary_moves ..)
    | with_reducible apply Moves.step (State.billSample_moves ..)
    | with_reducible apply Moves.step (State.activate_moves ..) | with_reducible apply Moves.ite
    | with_reducible apply Moves.foldl | with_reducible apply Moves.foldl_snd | with_reducible apply Moves.foldl_fst
    | ((with_reducible apply Moves.snd); assumption) | ((with_reducible apply Moves.fst); assumption) | split | dsimp only

theorem State.tarCtrlWrite_moves (s : State) (v : Word) :
    Moves [.regs, .ledger] s (State.tarCtrlWrite s v) := by
  unfold State.tarCtrlWrite
  repeat' first
    | with_reducible apply Moves.refl | ((with_reducible apply Within.of); exact rfl) | intro _
    | with_reducible apply Moves.step (State.wr_moves ..) | with_reducible apply Moves.step (State.setTar_moves ..)
    | with_reducible apply Moves.step (State.openInterval_moves ..) | with_reducible apply Moves.ite
    | with_reducible apply Moves.foldl | with_reducible apply Moves.foldl_snd | with_reducible apply Moves.foldl_fst
    | ((with_reducible apply Moves.snd); assumption) | ((with_reducible apply Moves.fst); assumption) | split | dsimp only

theorem State.adjResult_moves (s : State) (r : Nat) :
    Moves [.regs] s (State.adjResult s r) := by
  unfold State.adjResult
  repeat' first
    | with_reducible apply Moves.refl | ((with_reducible apply Within.of); exact rfl) | intro _
    | with_reducible apply Moves.step (State.setFld_moves ..) | with_reducible apply Moves.ite
    | with_reducible apply Moves.foldl | with_reducible apply Moves.foldl_snd | with_reducible apply Moves.foldl_fst
    | ((with_reducible apply Moves.snd); assumption) | ((with_reducible apply Moves.fst); assumption) | split | dsimp only

theorem State.adjSilent_moves (s : State) (v m : Nat) :
    Moves [.regs, .weft, .power, .time, .sal, .zw, .grid, .ledger] s (State.adjSilent s v m) := by
  unfold State.adjSilent
  repeat' first
    | with_reducible apply Moves.refl | ((with_reducible apply Within.of); exact rfl) | intro _
    | with_reducible apply Moves.step (State.line_moves ..) | with_reducible apply Moves.step (State.adjResult_moves ..)
    | with_reducible apply Moves.step (State.tbJump_moves ..) | with_reducible apply Moves.step (State.setTar_moves ..)
    | with_reducible apply Moves.ite | with_reducible apply Moves.foldl | with_reducible apply Moves.foldl_snd
    | with_reducible apply Moves.foldl_fst | ((with_reducible apply Moves.snd); assumption)
    | ((with_reducible apply Moves.fst); assumption) | split | dsimp only

theorem State.adjLogged_moves (s : State) (v : Nat) :
    Moves [.regs, .mem, .ladder, .weft, .power, .time, .sal, .zw, .grid, .ledger, .free] s (State.adjLogged s v) := by
  unfold State.adjLogged
  repeat' first
    | with_reducible apply Moves.refl | ((with_reducible apply Within.of); exact rfl) | intro _
    | with_reducible apply Moves.step (State.closeInterval_moves ..)
    | with_reducible apply Moves.step (State.tbJump_moves ..) | with_reducible apply Moves.step (State.setLedger_moves ..)
    | with_reducible apply Moves.step (State.logEntry_moves ..)
    | with_reducible apply Moves.step (State.openInterval_moves ..)
    | with_reducible apply Moves.step (State.billAll_moves ..) | with_reducible apply Moves.step (State.line_moves ..)
    | with_reducible apply Moves.step (State.adjResult_moves ..) | with_reducible apply Moves.ite
    | with_reducible apply Moves.foldl | with_reducible apply Moves.foldl_snd | with_reducible apply Moves.foldl_fst
    | ((with_reducible apply Moves.snd); assumption) | ((with_reducible apply Moves.fst); assumption) | split | dsimp only

theorem State.adjust_moves (s : State) (abs : Bool) (v : Nat) (m : Nat) :
    Moves [.regs, .mem, .ladder, .weft, .power, .time, .sal, .zw, .grid, .ledger, .free] s (State.adjust s abs v m) := by
  unfold State.adjust
  repeat' first
    | with_reducible apply Moves.refl | ((with_reducible apply Within.of); exact rfl) | intro _
    | with_reducible apply Moves.step (State.adjSilent_moves ..)
    | with_reducible apply Moves.step (State.adjLogged_moves ..) | with_reducible apply Moves.step (State.note_moves ..)
    | with_reducible apply Moves.step (State.adjResult_moves ..) | with_reducible apply Moves.ite
    | with_reducible apply Moves.foldl | with_reducible apply Moves.foldl_snd | with_reducible apply Moves.foldl_fst
    | ((with_reducible apply Moves.snd); assumption) | ((with_reducible apply Moves.fst); assumption) | split | dsimp only

end Sys2Proof.Machine
end

