-- ==== Sys2Proof/Laws/MovesMeterOps.lean ====
section
/-!
SUPPORT. Laws/MovesMeterOps.lean: which parts of the state each operation of Machine/MeterOps.lean moves.
-/
set_option Elab.async false
namespace Sys2Proof.Machine
set_option linter.all false

theorem State.owePulses_moves (s : State) (o delta : Nat) :
    Moves [.regs, .ladder, .ledger] s (State.owePulses s o delta) := by
  unfold State.owePulses
  repeat' first
    | with_reducible apply Moves.refl | ((with_reducible apply Within.of); exact rfl) | intro _
    | with_reducible apply Moves.step (State.setMeter_moves ..) | with_reducible apply Moves.step (State.note_moves ..)
    | with_reducible apply Moves.ite | with_reducible apply Moves.foldl | with_reducible apply Moves.foldl_snd
    | with_reducible apply Moves.foldl_fst | ((with_reducible apply Moves.snd); assumption)
    | ((with_reducible apply Moves.fst); assumption) | split | dsimp only

theorem State.checkRange_moves (s : State) (o : Nat) (l : List (List (BitVec 24))) :
    Moves [.regs, .ladder] s (State.checkRange s o l) := by
  unfold State.checkRange
  repeat' first
    | with_reducible apply Moves.refl | ((with_reducible apply Within.of); exact rfl) | intro _
    | with_reducible apply Moves.step (State.note_moves ..) | with_reducible apply Moves.step (State.setFlag_moves ..)
    | with_reducible apply Moves.ite | with_reducible apply Moves.foldl | with_reducible apply Moves.foldl_snd
    | with_reducible apply Moves.foldl_fst | ((with_reducible apply Moves.snd); assumption)
    | ((with_reducible apply Moves.fst); assumption) | split | dsimp only

theorem State.blockOutlet_moves (s : State) (o : Nat) (l : List (List (BitVec 24))) :
    Moves [.regs, .mem, .ladder, .weft, .ledger, .free] s (State.blockOutlet s o l) := by
  unfold State.blockOutlet
  repeat' first
    | with_reducible apply Moves.refl | ((with_reducible apply Within.of); exact rfl) | intro _
    | with_reducible apply Moves.step (State.bindBlock_moves ..)
    | with_reducible apply Moves.step (State.checkRange_moves ..)
    | with_reducible apply Moves.step (State.setMeter_moves ..) | with_reducible apply Moves.step (State.setFlag_moves ..)
    | with_reducible apply Moves.step (State.wrNat_moves ..) | with_reducible apply Moves.step (State.drew_moves ..)
    | with_reducible apply Moves.step (State.owePulses_moves ..) | with_reducible apply Moves.step (State.line_moves ..)
    | with_reducible apply Moves.step (State.tariffBlock_moves ..) | with_reducible apply Moves.ite
    | with_reducible apply Moves.foldl | with_reducible apply Moves.foldl_snd | with_reducible apply Moves.foldl_fst
    | ((with_reducible apply Moves.snd); assumption) | ((with_reducible apply Moves.fst); assumption) | split | dsimp only

theorem State.metInvalid_moves (s : State) (k : Nat) :
    Moves [.regs, .mem, .ladder, .weft, .ledger] s (State.metInvalid s k) := by
  unfold State.metInvalid
  repeat' first
    | with_reducible apply Moves.refl | ((with_reducible apply Within.of); exact rfl) | intro _
    | with_reducible apply Moves.step (State.setMeter_moves ..) | with_reducible apply Moves.step (State.setFlag_moves ..)
    | with_reducible apply Moves.step (State.line_moves ..) | with_reducible apply Moves.step (State.contain_moves ..)
    | with_reducible apply Moves.step (State.logEntry_moves ..) | with_reducible apply Moves.ite
    | with_reducible apply Moves.foldl | with_reducible apply Moves.foldl_snd | with_reducible apply Moves.foldl_fst
    | ((with_reducible apply Moves.snd); assumption) | ((with_reducible apply Moves.fst); assumption) | split | dsimp only

theorem State.metRevalid_moves (s : State) (o : Nat) :
    Moves [.regs, .mem, .ladder, .weft, .ledger] s (State.metRevalid s o) := by
  unfold State.metRevalid
  repeat' first
    | with_reducible apply Moves.refl | ((with_reducible apply Within.of); exact rfl) | intro _
    | with_reducible apply Moves.step (State.setFlag_moves ..) | with_reducible apply Moves.step (State.setMeter_moves ..)
    | with_reducible apply Moves.step (State.line_moves ..) | with_reducible apply Moves.step (State.logEntry_moves ..)
    | with_reducible apply Moves.step (State.recoversCell_moves ..) | with_reducible apply Moves.ite
    | with_reducible apply Moves.foldl | with_reducible apply Moves.foldl_snd | with_reducible apply Moves.foldl_fst
    | ((with_reducible apply Moves.snd); assumption) | ((with_reducible apply Moves.fst); assumption) | split | dsimp only

theorem State.parApply_moves (s : State) (l : List Byte) :
    Moves [.regs, .mem, .ladder, .weft, .ledger] s (State.parApply s l) := by
  unfold State.parApply
  repeat' first
    | with_reducible apply Moves.refl | ((with_reducible apply Within.of); exact rfl) | intro _
    | with_reducible apply Moves.step (State.wrNat_moves ..) | with_reducible apply Moves.step (State.setLedger_moves ..)
    | with_reducible apply Moves.step (State.setFlag_moves ..)
    | with_reducible apply Moves.step (State.metInvalid_moves ..) | with_reducible apply Moves.ite
    | with_reducible apply Moves.foldl | with_reducible apply Moves.foldl_snd | with_reducible apply Moves.foldl_fst
    | ((with_reducible apply Moves.snd); assumption) | ((with_reducible apply Moves.fst); assumption) | split | dsimp only

theorem State.saveCopy_moves (s : State) :
    Moves [.ledger] s (State.saveCopy s) := by
  unfold State.saveCopy
  repeat' first
    | with_reducible apply Moves.refl | ((with_reducible apply Within.of); exact rfl) | intro _
    | with_reducible apply Moves.step (State.setLedger_moves ..) | with_reducible apply Moves.ite
    | with_reducible apply Moves.foldl | with_reducible apply Moves.foldl_snd | with_reducible apply Moves.foldl_fst
    | ((with_reducible apply Moves.snd); assumption) | ((with_reducible apply Moves.fst); assumption) | split | dsimp only

theorem State.readSnap_moves (s : State) (r : Reading) (lost : Bool) :
    Moves [.regs, .ledger] s (State.readSnap s r lost) := by
  unfold State.readSnap
  repeat' first
    | with_reducible apply Moves.refl | ((with_reducible apply Within.of); exact rfl) | intro _
    | with_reducible apply Moves.step (State.setLedger_moves ..)
    | with_reducible apply Moves.step (State.setFlag_moves ..) | with_reducible apply Moves.step (State.setMeter_moves ..)
    | with_reducible apply Moves.ite | with_reducible apply Moves.foldl | with_reducible apply Moves.foldl_snd
    | with_reducible apply Moves.foldl_fst | ((with_reducible apply Moves.snd); assumption)
    | ((with_reducible apply Moves.fst); assumption) | split | dsimp only

theorem State.readInstant_moves (s : State) (cut : Bool) :
    Moves [.regs, .ledger] s (State.readInstant s cut) := by
  unfold State.readInstant
  repeat' first
    | with_reducible apply Moves.refl | ((with_reducible apply Within.of); exact rfl) | intro _
    | with_reducible apply Moves.step (State.readSnap_moves ..) | with_reducible apply Moves.ite
    | with_reducible apply Moves.foldl | with_reducible apply Moves.foldl_snd | with_reducible apply Moves.foldl_fst
    | ((with_reducible apply Moves.snd); assumption) | ((with_reducible apply Moves.fst); assumption) | split | dsimp only

theorem State.readEnd_moves (s : State) (result : Nat) :
    Moves [.regs, .ledger] s (State.readEnd s result) := by
  unfold State.readEnd
  repeat' first
    | with_reducible apply Moves.refl | ((with_reducible apply Within.of); exact rfl) | intro _
    | with_reducible apply Moves.step (State.setFld_moves ..) | with_reducible apply Moves.step (State.setFlag_moves ..)
    | with_reducible apply Moves.step (State.setLedger_moves ..) | with_reducible apply Moves.ite
    | with_reducible apply Moves.foldl | with_reducible apply Moves.foldl_snd | with_reducible apply Moves.foldl_fst
    | ((with_reducible apply Moves.snd); assumption) | ((with_reducible apply Moves.fst); assumption) | split | dsimp only

theorem State.blockEnd_moves (s : State) (l : List (List (BitVec 24))) (cut : Bool) :
    Moves [.regs, .mem, .ladder, .weft, .ledger, .free] s (State.blockEnd s l cut) := by
  unfold State.blockEnd
  repeat' first
    | with_reducible apply Moves.refl | ((with_reducible apply Within.of); exact rfl) | intro _
    | with_reducible apply Moves.step (State.blockOutlet_moves ..)
    | with_reducible apply Moves.step (State.metRevalid_moves ..)
    | with_reducible apply Moves.step (State.readInstant_moves ..)
    | with_reducible apply Moves.step (State.parApply_moves ..) | with_reducible apply Moves.ite
    | with_reducible apply Moves.foldl | with_reducible apply Moves.foldl_snd | with_reducible apply Moves.foldl_fst
    | ((with_reducible apply Moves.snd); assumption) | ((with_reducible apply Moves.fst); assumption) | split | dsimp only

theorem State.metStart_moves (s : State) :
    Moves [.regs, .mem, .ladder, .weft, .ledger, .out] s (State.metStart s) := by
  unfold State.metStart
  repeat' first
    | with_reducible apply Moves.refl | ((with_reducible apply Within.of); exact rfl) | intro _
    | with_reducible apply Moves.step (State.setLedger_moves ..)
    | with_reducible apply Moves.step (State.setFlag_moves ..) | with_reducible apply Moves.step (State.logEntry_moves ..)
    | with_reducible apply Moves.step (State.emit_moves ..) | with_reducible apply Moves.ite
    | with_reducible apply Moves.foldl | with_reducible apply Moves.foldl_snd | with_reducible apply Moves.foldl_fst
    | ((with_reducible apply Moves.snd); assumption) | ((with_reducible apply Moves.fst); assumption) | split | dsimp only

theorem State.metStop_moves (s : State) (code : Nat) :
    Moves [.regs, .mem, .ladder, .weft, .ledger, .out] s (State.metStop s code) := by
  unfold State.metStop
  repeat' first
    | with_reducible apply Moves.refl | ((with_reducible apply Within.of); exact rfl) | intro _
    | with_reducible apply Moves.step (State.setFlag_moves ..)
    | with_reducible apply Moves.step (State.setLedger_moves ..)
    | with_reducible apply Moves.step (State.readEnd_moves ..) | with_reducible apply Moves.step (State.line_moves ..)
    | with_reducible apply Moves.step (State.emit_moves ..) | with_reducible apply Moves.step (State.logEntry_moves ..)
    | with_reducible apply Moves.step (State.contain_moves ..) | with_reducible apply Moves.ite
    | with_reducible apply Moves.foldl | with_reducible apply Moves.foldl_snd | with_reducible apply Moves.foldl_fst
    | ((with_reducible apply Moves.snd); assumption) | ((with_reducible apply Moves.fst); assumption) | split | dsimp only

theorem State.ledgerCut_moves (s : State) (l : List (List (BitVec 24))) :
    Moves [.regs, .mem, .ladder, .weft, .ledger, .free] s (State.ledgerCut s l) := by
  unfold State.ledgerCut
  repeat' first
    | with_reducible apply Moves.refl | ((with_reducible apply Within.of); exact rfl) | intro _
    | with_reducible apply Moves.step (State.blockEnd_moves ..)
    | with_reducible apply Moves.step (State.readInstant_moves ..)
    | with_reducible apply Moves.step (State.tarInstants_moves ..)
    | with_reducible apply Moves.step (State.saveCopy_moves ..)
    | with_reducible apply Moves.step (State.logEntry_moves ..)
    | with_reducible apply Moves.step (State.setLedger_moves ..) | with_reducible apply Moves.ite
    | with_reducible apply Moves.foldl | with_reducible apply Moves.foldl_snd | with_reducible apply Moves.foldl_fst
    | ((with_reducible apply Moves.snd); assumption) | ((with_reducible apply Moves.fst); assumption) | split | dsimp only

theorem State.tariffRestore_moves (s : State) :
    Moves [.regs, .mem, .ladder, .weft, .ledger, .free] s (State.tariffRestore s) := by
  unfold State.tariffRestore
  repeat' first
    | with_reducible apply Moves.refl | ((with_reducible apply Within.of); exact rfl) | intro _
    | with_reducible apply Moves.step (State.rateSync_moves ..)
    | with_reducible apply Moves.step (State.closeInterval_moves ..)
    | with_reducible apply Moves.step (State.setTar_moves ..)
    | with_reducible apply Moves.step (State.demandBoundary_moves ..)
    | with_reducible apply Moves.step (State.billAll_moves ..) | with_reducible apply Moves.ite
    | with_reducible apply Moves.foldl | with_reducible apply Moves.foldl_snd | with_reducible apply Moves.foldl_fst
    | ((with_reducible apply Moves.snd); assumption) | ((with_reducible apply Moves.fst); assumption) | split | dsimp only

theorem State.tcwRestore_moves (s : State) :
    Moves [.regs, .mem, .ladder, .weft, .ledger] s (State.tcwRestore s) := by
  unfold State.tcwRestore
  repeat' first
    | with_reducible apply Moves.refl | ((with_reducible apply Within.of); exact rfl) | intro _
    | with_reducible apply Moves.step (State.logEntry_moves ..) | with_reducible apply Moves.step (State.setFlag_moves ..)
    | with_reducible apply Moves.step (State.note_moves ..) | with_reducible apply Moves.step (State.setLedger_moves ..)
    | with_reducible apply Moves.ite | with_reducible apply Moves.foldl | with_reducible apply Moves.foldl_snd
    | with_reducible apply Moves.foldl_fst | ((with_reducible apply Moves.snd); assumption)
    | ((with_reducible apply Moves.fst); assumption) | split | dsimp only

theorem State.ledgerShow_moves (s : State) :
    Moves [.regs] s (State.ledgerShow s) := by
  unfold State.ledgerShow
  repeat' first
    | with_reducible apply Moves.refl | ((with_reducible apply Within.of); exact rfl) | intro _
    | with_reducible apply Moves.step (State.setFlag_moves ..) | with_reducible apply Moves.ite
    | with_reducible apply Moves.foldl | with_reducible apply Moves.foldl_snd | with_reducible apply Moves.foldl_fst
    | ((with_reducible apply Moves.snd); assumption) | ((with_reducible apply Moves.fst); assumption) | split | dsimp only

theorem State.ledgerRestore_moves (s : State) (badA badB : Bool) :
    Moves [.regs, .mem, .ladder, .weft, .ledger, .out, .free] s (State.ledgerRestore s badA badB) := by
  unfold State.ledgerRestore
  repeat' first
    | with_reducible apply Moves.refl | ((with_reducible apply Within.of); exact rfl) | intro _
    | with_reducible apply Moves.step (State.took_moves ..) | with_reducible apply Moves.step (State.setLedger_moves ..)
    | with_reducible apply Moves.step (State.setMeter_moves ..)
    | with_reducible apply Moves.step (State.ledgerShow_moves ..)
    | with_reducible apply Moves.step (State.parApply_moves ..)
    | with_reducible apply Moves.step (State.logEntry_moves ..) | with_reducible apply Moves.step (State.setFlag_moves ..)
    | with_reducible apply Moves.step (State.tcwRestore_moves ..)
    | with_reducible apply Moves.step (State.tariffRestore_moves ..)
    | with_reducible apply Moves.step (State.metStop_moves ..) | with_reducible apply Moves.ite
    | with_reducible apply Moves.foldl | with_reducible apply Moves.foldl_snd | with_reducible apply Moves.foldl_fst
    | ((with_reducible apply Moves.snd); assumption) | ((with_reducible apply Moves.fst); assumption) | split | dsimp only

theorem State.ledgerUp_moves (s : State) :
    Moves [.regs, .mem, .ladder, .weft, .ledger] s (State.ledgerUp s) := by
  unfold State.ledgerUp
  repeat' first
    | with_reducible apply Moves.refl | ((with_reducible apply Within.of); exact rfl) | intro _
    | with_reducible apply Moves.step (State.setLedger_moves ..)
    | with_reducible apply Moves.step (State.logEntry_moves ..) | with_reducible apply Moves.ite
    | with_reducible apply Moves.foldl | with_reducible apply Moves.foldl_snd | with_reducible apply Moves.foldl_fst
    | ((with_reducible apply Moves.snd); assumption) | ((with_reducible apply Moves.fst); assumption) | split | dsimp only

end Sys2Proof.Machine
end

