-- ==== Sys2Proof/Laws/MovesWeftMem.lean ====
section
/-!
SUPPORT. Laws/MovesWeftMem.lean: which parts of the state each operation of Machine/WeftMem.lean moves.
-/
set_option Elab.async false
namespace Sys2Proof.Machine
set_option linter.all false

theorem load_moves (c : CtxId) (size : Nat) (sx : Bool) (d a : Fin 32) (imm : BitVec 16) (s : State) :
    Moves [.regs, .mem, .ecc, .ladder, .fabric, .weft, .power, .selv, .sense, .hs, .free] s (load c size sx d a imm s) := by
  unfold load
  repeat' first
    | with_reducible apply Moves.refl | ((with_reducible apply Within.of); exact rfl) | intro _
    | with_reducible apply Moves.step (weft_moves (fs := [.regs, .mem, .ecc, .ladder, .fabric, .weft, .power, .selv, .sense, .hs, .free]) (hf := ?_) ..)
    | with_reducible apply Moves.step (State.setCtx_moves ..) | with_reducible apply Moves.step (State.checkRead_moves ..)
    | with_reducible apply Moves.step (State.eccTrap_moves ..) | with_reducible apply Moves.step (State.trapHere_moves ..)
    | with_reducible apply Moves.step (State.access_moves ..) | with_reducible apply Moves.ite
    | with_reducible apply Moves.foldl | with_reducible apply Moves.foldl_snd | with_reducible apply Moves.foldl_fst
    | ((with_reducible apply Moves.snd); assumption) | ((with_reducible apply Moves.fst); assumption) | split | dsimp only

theorem State.pairWrite_moves (s : State) (r : Nat) (v : Word) :
    Moves [.regs, .live, .weft, .selv, .sense] s (State.pairWrite s r v) := by
  unfold State.pairWrite
  repeat' first
    | with_reducible apply Moves.refl | ((with_reducible apply Within.of); exact rfl) | intro _
    | with_reducible apply Moves.step (State.safetyEnWrite_moves ..)
    | with_reducible apply Moves.step (State.safetyCommit_moves ..) | with_reducible apply Moves.ite
    | with_reducible apply Moves.foldl | with_reducible apply Moves.foldl_snd | with_reducible apply Moves.foldl_fst
    | ((with_reducible apply Moves.snd); assumption) | ((with_reducible apply Moves.fst); assumption) | split | dsimp only

theorem store_moves (c : CtxId) (size : Nat) (d a : Fin 32) (imm : BitVec 16) (s : State) :
    Moves [.regs, .live, .mem, .ecc, .ladder, .fabric, .weft, .power, .selv, .sense, .hs, .free] s (store c size d a imm s) := by
  unfold store
  repeat' first
    | with_reducible apply Moves.refl | ((with_reducible apply Within.of); exact rfl) | intro _
    | with_reducible apply Moves.step (weft_moves (fs := [.regs, .live, .mem, .ecc, .ladder, .fabric, .weft, .power, .selv, .sense, .hs, .free]) (hf := ?_) ..)
    | with_reducible apply Moves.step (State.trapHere_moves ..)
    | with_reducible apply Moves.step (State.checkWrite_moves ..)
    | with_reducible apply Moves.step (State.setCtx_moves ..) | with_reducible apply Moves.step (State.takeTrap_moves ..)
    | with_reducible apply Moves.step (State.captureBusError_moves ..)
    | with_reducible apply Moves.step (State.access_moves ..) | with_reducible apply Moves.step (State.pairWrite_moves ..)
    | with_reducible apply Moves.ite | with_reducible apply Moves.foldl | with_reducible apply Moves.foldl_snd
    | with_reducible apply Moves.foldl_fst | ((with_reducible apply Moves.snd); assumption)
    | ((with_reducible apply Moves.fst); assumption) | split | dsimp only

theorem atomic_moves (c : CtxId) (op : Nat) (d a b : Fin 32) (kind : Context → XKind) (s : State) :
    Moves [.regs, .mem, .ecc, .ladder, .fabric, .weft, .power, .selv, .sense, .hs, .free] s (atomic c op d a b kind s) := by
  unfold atomic
  repeat' first
    | with_reducible apply Moves.refl | ((with_reducible apply Within.of); exact rfl) | intro _
    | with_reducible apply Moves.step (weft_moves (fs := [.regs, .mem, .ecc, .ladder, .fabric, .weft, .power, .selv, .sense, .hs, .free]) (hf := ?_) ..)
    | with_reducible apply Moves.step (State.trapHere_moves ..) | with_reducible apply Moves.step (State.access_moves ..)
    | with_reducible apply Moves.ite | with_reducible apply Moves.foldl | with_reducible apply Moves.foldl_snd
    | with_reducible apply Moves.foldl_fst | ((with_reducible apply Moves.snd); assumption)
    | ((with_reducible apply Moves.fst); assumption) | split | dsimp only

theorem execLw_moves (c : CtxId) (d a : Fin 32) (imm : BitVec 16) (s : State) :
    Goes [.regs, .mem, .ecc, .ladder, .fabric, .weft, .power, .selv, .sense, .hs, .free] s (execLw c d a imm s) := by
  unfold execLw
  repeat' first
    | with_reducible apply Moves.refl | ((with_reducible apply Within.of); exact rfl) | intro _
    | with_reducible apply Goes.next | with_reducible apply Goes.fault | with_reducible apply Goes.ite
    | with_reducible apply Moves.step (load_moves ..) | with_reducible apply Moves.ite | with_reducible apply Moves.foldl
    | with_reducible apply Moves.foldl_snd | with_reducible apply Moves.foldl_fst
    | ((with_reducible apply Moves.snd); assumption) | ((with_reducible apply Moves.fst); assumption) | split | dsimp only

theorem execLh_moves (c : CtxId) (d a : Fin 32) (imm : BitVec 16) (s : State) :
    Goes [.regs, .mem, .ecc, .ladder, .fabric, .weft, .power, .selv, .sense, .hs, .free] s (execLh c d a imm s) := by
  unfold execLh
  repeat' first
    | with_reducible apply Moves.refl | ((with_reducible apply Within.of); exact rfl) | intro _
    | with_reducible apply Goes.next | with_reducible apply Goes.fault | with_reducible apply Goes.ite
    | with_reducible apply Moves.step (load_moves ..) | with_reducible apply Moves.ite | with_reducible apply Moves.foldl
    | with_reducible apply Moves.foldl_snd | with_reducible apply Moves.foldl_fst
    | ((with_reducible apply Moves.snd); assumption) | ((with_reducible apply Moves.fst); assumption) | split | dsimp only

theorem execLhu_moves (c : CtxId) (d a : Fin 32) (imm : BitVec 16) (s : State) :
    Goes [.regs, .mem, .ecc, .ladder, .fabric, .weft, .power, .selv, .sense, .hs, .free] s (execLhu c d a imm s) := by
  unfold execLhu
  repeat' first
    | with_reducible apply Moves.refl | ((with_reducible apply Within.of); exact rfl) | intro _
    | with_reducible apply Goes.next | with_reducible apply Goes.fault | with_reducible apply Goes.ite
    | with_reducible apply Moves.step (load_moves ..) | with_reducible apply Moves.ite | with_reducible apply Moves.foldl
    | with_reducible apply Moves.foldl_snd | with_reducible apply Moves.foldl_fst
    | ((with_reducible apply Moves.snd); assumption) | ((with_reducible apply Moves.fst); assumption) | split | dsimp only

theorem execLb_moves (c : CtxId) (d a : Fin 32) (imm : BitVec 16) (s : State) :
    Goes [.regs, .mem, .ecc, .ladder, .fabric, .weft, .power, .selv, .sense, .hs, .free] s (execLb c d a imm s) := by
  unfold execLb
  repeat' first
    | with_reducible apply Moves.refl | ((with_reducible apply Within.of); exact rfl) | intro _
    | with_reducible apply Goes.next | with_reducible apply Goes.fault | with_reducible apply Goes.ite
    | with_reducible apply Moves.step (load_moves ..) | with_reducible apply Moves.ite | with_reducible apply Moves.foldl
    | with_reducible apply Moves.foldl_snd | with_reducible apply Moves.foldl_fst
    | ((with_reducible apply Moves.snd); assumption) | ((with_reducible apply Moves.fst); assumption) | split | dsimp only

theorem execLbu_moves (c : CtxId) (d a : Fin 32) (imm : BitVec 16) (s : State) :
    Goes [.regs, .mem, .ecc, .ladder, .fabric, .weft, .power, .selv, .sense, .hs, .free] s (execLbu c d a imm s) := by
  unfold execLbu
  repeat' first
    | with_reducible apply Moves.refl | ((with_reducible apply Within.of); exact rfl) | intro _
    | with_reducible apply Goes.next | with_reducible apply Goes.fault | with_reducible apply Goes.ite
    | with_reducible apply Moves.step (load_moves ..) | with_reducible apply Moves.ite | with_reducible apply Moves.foldl
    | with_reducible apply Moves.foldl_snd | with_reducible apply Moves.foldl_fst
    | ((with_reducible apply Moves.snd); assumption) | ((with_reducible apply Moves.fst); assumption) | split | dsimp only

theorem execSw_moves (c : CtxId) (d a : Fin 32) (imm : BitVec 16) (s : State) :
    Goes [.regs, .live, .mem, .ecc, .ladder, .fabric, .weft, .power, .selv, .sense, .hs, .free] s (execSw c d a imm s) := by
  unfold execSw
  repeat' first
    | with_reducible apply Moves.refl | ((with_reducible apply Within.of); exact rfl) | intro _
    | with_reducible apply Goes.next | with_reducible apply Goes.fault | with_reducible apply Goes.ite
    | with_reducible apply Moves.step (store_moves ..) | with_reducible apply Moves.ite | with_reducible apply Moves.foldl
    | with_reducible apply Moves.foldl_snd | with_reducible apply Moves.foldl_fst
    | ((with_reducible apply Moves.snd); assumption) | ((with_reducible apply Moves.fst); assumption) | split | dsimp only

theorem execSh_moves (c : CtxId) (d a : Fin 32) (imm : BitVec 16) (s : State) :
    Goes [.regs, .live, .mem, .ecc, .ladder, .fabric, .weft, .power, .selv, .sense, .hs, .free] s (execSh c d a imm s) := by
  unfold execSh
  repeat' first
    | with_reducible apply Moves.refl | ((with_reducible apply Within.of); exact rfl) | intro _
    | with_reducible apply Goes.next | with_reducible apply Goes.fault | with_reducible apply Goes.ite
    | with_reducible apply Moves.step (store_moves ..) | with_reducible apply Moves.ite | with_reducible apply Moves.foldl
    | with_reducible apply Moves.foldl_snd | with_reducible apply Moves.foldl_fst
    | ((with_reducible apply Moves.snd); assumption) | ((with_reducible apply Moves.fst); assumption) | split | dsimp only

theorem execSb_moves (c : CtxId) (d a : Fin 32) (imm : BitVec 16) (s : State) :
    Goes [.regs, .live, .mem, .ecc, .ladder, .fabric, .weft, .power, .selv, .sense, .hs, .free] s (execSb c d a imm s) := by
  unfold execSb
  repeat' first
    | with_reducible apply Moves.refl | ((with_reducible apply Within.of); exact rfl) | intro _
    | with_reducible apply Goes.next | with_reducible apply Goes.fault | with_reducible apply Goes.ite
    | with_reducible apply Moves.step (store_moves ..) | with_reducible apply Moves.ite | with_reducible apply Moves.foldl
    | with_reducible apply Moves.foldl_snd | with_reducible apply Moves.foldl_fst
    | ((with_reducible apply Moves.snd); assumption) | ((with_reducible apply Moves.fst); assumption) | split | dsimp only

theorem execAadd_moves (c : CtxId) (d a b : Fin 32) (s : State) :
    Goes [.regs, .mem, .ecc, .ladder, .fabric, .weft, .power, .selv, .sense, .hs, .free] s (execAadd c d a b s) := by
  unfold execAadd
  repeat' first
    | with_reducible apply Moves.refl | ((with_reducible apply Within.of); exact rfl) | intro _
    | with_reducible apply Goes.next | with_reducible apply Goes.fault | with_reducible apply Goes.ite
    | with_reducible apply Moves.step (atomic_moves ..) | with_reducible apply Moves.ite
    | with_reducible apply Moves.foldl | with_reducible apply Moves.foldl_snd | with_reducible apply Moves.foldl_fst
    | ((with_reducible apply Moves.snd); assumption) | ((with_reducible apply Moves.fst); assumption) | split | dsimp only

theorem execAcas_moves (c : CtxId) (d a b : Fin 32) (s : State) :
    Goes [.regs, .mem, .ecc, .ladder, .fabric, .weft, .power, .selv, .sense, .hs, .free] s (execAcas c d a b s) := by
  unfold execAcas
  repeat' first
    | with_reducible apply Moves.refl | ((with_reducible apply Within.of); exact rfl) | intro _
    | with_reducible apply Goes.next | with_reducible apply Goes.fault | with_reducible apply Goes.ite
    | with_reducible apply Moves.step (atomic_moves ..) | with_reducible apply Moves.ite
    | with_reducible apply Moves.foldl | with_reducible apply Moves.foldl_snd | with_reducible apply Moves.foldl_fst
    | ((with_reducible apply Moves.snd); assumption) | ((with_reducible apply Moves.fst); assumption) | split | dsimp only

end Sys2Proof.Machine
end

