-- ==== Sys2Proof/Laws/MovesWeftSys.lean ====
section
/-!
SUPPORT. Laws/MovesWeftSys.lean: which parts of the state each operation of Machine/WeftSys.lean moves.
-/
set_option Elab.async false
namespace Sys2Proof.Machine
set_option linter.all false

theorem State.illegal_moves (s : State) (k : Nat) (w : Word) :
    Moves [.regs, .ladder, .fabric, .weft, .power, .selv, .sense, .hs] s (State.illegal s k w) := by
  unfold State.illegal
  repeat' first
    | with_reducible apply Moves.refl | ((with_reducible apply Within.of); exact rfl) | intro _
    | with_reducible apply Moves.step (State.trapHere_moves ..) | with_reducible apply Moves.ite
    | with_reducible apply Moves.foldl | with_reducible apply Moves.foldl_snd | with_reducible apply Moves.foldl_fst
    | ((with_reducible apply Moves.snd); assumption) | ((with_reducible apply Moves.fst); assumption) | split | dsimp only

theorem State.goOn_moves (s : State) (k : Nat) (x : Context) :
    Moves [.regs, .ladder, .fabric, .weft, .power, .selv, .sense, .hs] s (State.goOn s k x) := by
  unfold State.goOn
  repeat' first
    | with_reducible apply Moves.refl | ((with_reducible apply Within.of); exact rfl) | intro _
    | with_reducible apply Moves.step (State.haltIfDone_moves ..)
    | with_reducible apply Moves.step (State.boundary_moves ..) | with_reducible apply Moves.step (State.setCtx_moves ..)
    | with_reducible apply Moves.ite | with_reducible apply Moves.foldl | with_reducible apply Moves.foldl_snd
    | with_reducible apply Moves.foldl_fst | ((with_reducible apply Moves.snd); assumption)
    | ((with_reducible apply Moves.fst); assumption) | split | dsimp only

theorem State.latchTime_moves (s : State) (k tb : Nat) :
    Moves [.weft] s (State.latchTime s k tb) := by
  unfold State.latchTime
  repeat' first
    | with_reducible apply Moves.refl | ((with_reducible apply Within.of); exact rfl) | intro _
    | with_reducible apply Moves.step (State.setCtx_moves ..) | with_reducible apply Moves.ite
    | with_reducible apply Moves.foldl | with_reducible apply Moves.foldl_snd | with_reducible apply Moves.foldl_fst
    | ((with_reducible apply Moves.snd); assumption) | ((with_reducible apply Moves.fst); assumption) | split | dsimp only

theorem State.mboxRefuse_moves (s : State) (k : Nat) :
    Moves [.regs, .ladder] s (State.mboxRefuse s k) := by
  unfold State.mboxRefuse
  repeat' first
    | with_reducible apply Moves.refl | ((with_reducible apply Within.of); exact rfl) | intro _
    | with_reducible apply Moves.step (State.note_moves ..) | with_reducible apply Moves.ite
    | with_reducible apply Moves.foldl | with_reducible apply Moves.foldl_snd | with_reducible apply Moves.foldl_fst
    | ((with_reducible apply Moves.snd); assumption) | ((with_reducible apply Moves.fst); assumption) | split | dsimp only

theorem State.mboxSend_moves (s : State) (k m d : Nat) (w : Word) :
    Moves [.regs, .ladder, .weft] s (State.mboxSend s k m d w).2 := by
  unfold State.mboxSend
  repeat' first
    | with_reducible apply Moves.refl | ((with_reducible apply Within.of); exact rfl) | intro _
    | with_reducible apply Moves.step (State.mboxRefuse_moves ..)
    | with_reducible apply Moves.step (State.setFlag_moves ..) | with_reducible apply Moves.step (State.setCtx_moves ..)
    | with_reducible apply Moves.step (State.setWeft_moves ..) | with_reducible apply Moves.ite
    | with_reducible apply Moves.foldl | with_reducible apply Moves.foldl_snd | with_reducible apply Moves.foldl_fst
    | ((with_reducible apply Moves.snd); assumption) | ((with_reducible apply Moves.fst); assumption) | split | dsimp only

theorem State.mboxRecv_moves (s : State) (k m : Nat) :
    Moves [.regs, .ladder, .weft] s (State.mboxRecv s k m).2 := by
  unfold State.mboxRecv
  repeat' first
    | with_reducible apply Moves.refl | ((with_reducible apply Within.of); exact rfl) | intro _
    | with_reducible apply Moves.step (State.mboxRefuse_moves ..)
    | with_reducible apply Moves.step (State.setMbox_moves ..) | with_reducible apply Moves.ite
    | with_reducible apply Moves.foldl | with_reducible apply Moves.foldl_snd | with_reducible apply Moves.foldl_fst
    | ((with_reducible apply Moves.snd); assumption) | ((with_reducible apply Moves.fst); assumption) | split | dsimp only

theorem State.send_moves (s : State) (k mb d : Nat) (w : Word) :
    Moves [.regs, .ladder, .weft, .selv] s (State.send s k mb d w).2 := by
  unfold State.send
  repeat' first
    | with_reducible apply Moves.refl | ((with_reducible apply Within.of); exact rfl) | intro _
    | with_reducible apply Moves.step (State.mboxSend_moves ..)
    | with_reducible apply Moves.step (State.pairSend_moves ..)
    | with_reducible apply Moves.step (State.safetySend_moves ..) | with_reducible apply Moves.ite
    | with_reducible apply Moves.foldl | with_reducible apply Moves.foldl_snd | with_reducible apply Moves.foldl_fst
    | ((with_reducible apply Moves.snd); assumption) | ((with_reducible apply Moves.fst); assumption) | split | dsimp only

theorem State.receive_moves (s : State) (k mb : Nat) :
    Moves [.regs, .ladder, .weft, .selv] s (State.receive s k mb).2 := by
  unfold State.receive
  repeat' first
    | with_reducible apply Moves.refl | ((with_reducible apply Within.of); exact rfl) | intro _
    | with_reducible apply Moves.step (State.mboxRecv_moves ..)
    | with_reducible apply Moves.step (State.safetyRecv_moves ..) | with_reducible apply Moves.ite
    | with_reducible apply Moves.foldl | with_reducible apply Moves.foldl_snd | with_reducible apply Moves.foldl_fst
    | ((with_reducible apply Moves.snd); assumption) | ((with_reducible apply Moves.fst); assumption) | split | dsimp only

theorem State.mboxWrite_moves (s : State) (m : Nat) (data : Word) :
    Moves [.regs, .weft] s (State.mboxWrite s m data) := by
  unfold State.mboxWrite
  repeat' first
    | with_reducible apply Moves.refl | ((with_reducible apply Within.of); exact rfl) | intro _
    | with_reducible apply Moves.step (State.wrAccess_moves ..) | with_reducible apply Moves.step (State.setMbox_moves ..)
    | with_reducible apply Moves.step (State.setWeft_moves ..) | with_reducible apply Moves.ite
    | with_reducible apply Moves.foldl | with_reducible apply Moves.foldl_snd | with_reducible apply Moves.foldl_fst
    | ((with_reducible apply Moves.snd); assumption) | ((with_reducible apply Moves.fst); assumption) | split | dsimp only

theorem State.wdtWrite_moves (s : State) (k : Nat) (v : Word) :
    Moves [.weft] s (State.wdtWrite s k v) := by
  unfold State.wdtWrite
  repeat' first
    | with_reducible apply Moves.refl | ((with_reducible apply Within.of); exact rfl) | intro _
    | with_reducible apply Moves.step (State.setCtx_moves ..) | with_reducible apply Moves.step (State.wdtKick_moves ..)
    | with_reducible apply Moves.ite | with_reducible apply Moves.foldl | with_reducible apply Moves.foldl_snd
    | with_reducible apply Moves.foldl_fst | ((with_reducible apply Moves.snd); assumption)
    | ((with_reducible apply Moves.fst); assumption) | split | dsimp only

theorem State.evtSelWrite_moves (s : State) (k n : Nat) (v : Word) :
    Moves [.regs, .ladder, .weft] s (State.evtSelWrite s k n v) := by
  unfold State.evtSelWrite
  repeat' first
    | with_reducible apply Moves.refl | ((with_reducible apply Within.of); exact rfl) | intro _
    | with_reducible apply Moves.step (State.setCtx_moves ..) | with_reducible apply Moves.step (State.note_moves ..)
    | with_reducible apply Moves.ite | with_reducible apply Moves.foldl | with_reducible apply Moves.foldl_snd
    | with_reducible apply Moves.foldl_fst | ((with_reducible apply Moves.snd); assumption)
    | ((with_reducible apply Moves.fst); assumption) | split | dsimp only

theorem State.csrPut_moves (s : State) (k c : Nat) (v : Word) :
    Moves [.regs, .ladder, .weft] s (State.csrPut s k c v) := by
  unfold State.csrPut
  repeat' first
    | with_reducible apply Moves.refl | ((with_reducible apply Within.of); exact rfl) | intro _
    | with_reducible apply Moves.step (State.setCtx_moves ..) | with_reducible apply Moves.step (State.occurs_moves ..)
    | with_reducible apply Moves.step (State.wdtWrite_moves ..) | with_reducible apply Moves.step (State.wdtKick_moves ..)
    | with_reducible apply Moves.step (State.evtSelWrite_moves ..) | with_reducible apply Moves.ite
    | with_reducible apply Moves.foldl | with_reducible apply Moves.foldl_snd | with_reducible apply Moves.foldl_fst
    | ((with_reducible apply Moves.snd); assumption) | ((with_reducible apply Moves.fst); assumption) | split | dsimp only

theorem csrOp_moves (c : CtxId) (mode : Nat) (d a : Fin 32) (n : BitVec 12) (f : Word → Word → Word) (s : State) :
    Moves [.regs, .mem, .ecc, .ladder, .fabric, .weft, .power, .selv, .sense, .hs, .free] s (csrOp c mode d a n f s) := by
  unfold csrOp
  repeat' first
    | with_reducible apply Moves.refl | ((with_reducible apply Within.of); exact rfl) | intro _
    | with_reducible apply Moves.step (weft_moves (fs := [.regs, .mem, .ecc, .ladder, .fabric, .weft, .power, .selv, .sense, .hs, .free]) (hf := ?_) ..)
    | with_reducible apply Moves.step (State.illegal_moves ..) | with_reducible apply Moves.step (State.csrPut_moves ..)
    | with_reducible apply Moves.step (State.goOn_moves ..) | with_reducible apply Moves.ite
    | with_reducible apply Moves.foldl | with_reducible apply Moves.foldl_snd | with_reducible apply Moves.foldl_fst
    | ((with_reducible apply Moves.snd); assumption) | ((with_reducible apply Moves.fst); assumption) | split | dsimp only

theorem State.restart_moves (s : State) (k : Nat) :
    Moves [.regs, .ladder, .weft, .ks] s (State.restart s k) := by
  unfold State.restart
  repeat' first
    | with_reducible apply Moves.refl | ((with_reducible apply Within.of); exact rfl) | intro _
    | with_reducible apply Moves.step (State.setCtx_moves ..)
    | with_reducible apply Moves.step (State.haltIfDone_moves ..)
    | with_reducible apply Moves.step (State.restartCtx_moves ..) | with_reducible apply Moves.step (State.setKs_moves ..)
    | with_reducible apply Moves.ite | with_reducible apply Moves.foldl | with_reducible apply Moves.foldl_snd
    | with_reducible apply Moves.foldl_fst | ((with_reducible apply Moves.snd); assumption)
    | ((with_reducible apply Moves.fst); assumption) | split | dsimp only

theorem State.unhalt_moves (s : State) (k : Nat) :
    Moves [.regs, .ladder, .fabric, .weft, .power, .selv, .sense, .hs] s (State.unhalt s k) := by
  unfold State.unhalt
  repeat' first
    | with_reducible apply Moves.refl | ((with_reducible apply Within.of); exact rfl) | intro _
    | with_reducible apply Moves.step (State.boundary_moves ..) | with_reducible apply Moves.step (State.wake_moves ..)
    | with_reducible apply Moves.step (State.setCtx_moves ..) | with_reducible apply Moves.ite
    | with_reducible apply Moves.foldl | with_reducible apply Moves.foldl_snd | with_reducible apply Moves.foldl_fst
    | ((with_reducible apply Moves.snd); assumption) | ((with_reducible apply Moves.fst); assumption) | split | dsimp only

theorem State.setHalt_moves (s : State) (k : Nat) (b : Bool) :
    Moves [.regs] s (State.setHalt s k b) := by
  unfold State.setHalt
  repeat' first
    | with_reducible apply Moves.refl | ((with_reducible apply Within.of); exact rfl) | intro _
    | with_reducible apply Moves.step (State.setBit_moves ..) | with_reducible apply Moves.ite
    | with_reducible apply Moves.foldl | with_reducible apply Moves.foldl_snd | with_reducible apply Moves.foldl_fst
    | ((with_reducible apply Moves.snd); assumption) | ((with_reducible apply Moves.fst); assumption) | split | dsimp only

theorem State.haltsSync_moves (s : State) (n : Nat) :
    Moves [.regs, .ladder, .fabric, .weft, .power, .selv, .sense, .hs] s (State.haltsSync s n) := by
  unfold State.haltsSync
  repeat' first
    | with_reducible apply Moves.refl | ((with_reducible apply Within.of); exact rfl) | intro _
    | with_reducible apply Moves.step (State.haltIfDone_moves ..)
    | with_reducible apply Moves.step (State.unhalt_moves ..) | with_reducible apply Moves.ite
    | with_reducible apply Moves.foldl | with_reducible apply Moves.foldl_snd | with_reducible apply Moves.foldl_fst
    | ((with_reducible apply Moves.snd); assumption) | ((with_reducible apply Moves.fst); assumption) | split | dsimp only

end Sys2Proof.Machine
end

