-- ==== Sys2Proof/Laws/MovesPowerOps.lean ====
section
/-!
SUPPORT. Laws/MovesPowerOps.lean: which parts of the state each operation of Machine/PowerOps.lean moves.
-/
set_option Elab.async false
namespace Sys2Proof.Machine
set_option linter.all false

theorem State.setDom_moves (s : State) (d : Nat) (b : Bool) :
    Moves [.regs] s (State.setDom s d b) := by
  unfold State.setDom
  repeat' first
    | with_reducible apply Moves.refl | ((with_reducible apply Within.of); exact rfl) | intro _
    | with_reducible apply Moves.step (State.setBit_moves ..) | with_reducible apply Moves.ite
    | with_reducible apply Moves.foldl | with_reducible apply Moves.foldl_snd | with_reducible apply Moves.foldl_fst
    | ((with_reducible apply Moves.snd); assumption) | ((with_reducible apply Moves.fst); assumption) | split | dsimp only

theorem State.aonSync_moves (s : State) :
    Moves [.power] s (State.aonSync s) := by
  unfold State.aonSync
  repeat' first
    | with_reducible apply Moves.refl | ((with_reducible apply Within.of); exact rfl) | intro _
    | with_reducible apply Moves.step (State.setPower_moves ..) | with_reducible apply Moves.ite
    | with_reducible apply Moves.foldl | with_reducible apply Moves.foldl_snd | with_reducible apply Moves.foldl_fst
    | ((with_reducible apply Moves.snd); assumption) | ((with_reducible apply Moves.fst); assumption) | split | dsimp only

theorem State.basesAt_moves (s : State) (aon : Nat) (powered : Bool) :
    Moves [.time] s (State.basesAt s aon powered) := by
  unfold State.basesAt
  repeat' first
    | with_reducible apply Moves.refl | ((with_reducible apply Within.of); exact rfl) | intro _
    | with_reducible apply Moves.step (State.setTb_moves ..) | with_reducible apply Moves.ite
    | with_reducible apply Moves.foldl | with_reducible apply Moves.foldl_snd | with_reducible apply Moves.foldl_fst
    | ((with_reducible apply Moves.snd); assumption) | ((with_reducible apply Moves.fst); assumption) | split | dsimp only

theorem State.dropContexts_moves (s : State) (lo hi : Nat) :
    Moves [.weft] s (State.dropContexts s lo hi) := by
  unfold State.dropContexts
  repeat' first
    | with_reducible apply Moves.refl | ((with_reducible apply Within.of); exact rfl) | intro _
    | with_reducible apply Moves.step (State.setWeft_moves ..) | with_reducible apply Moves.ite
    | with_reducible apply Moves.foldl | with_reducible apply Moves.foldl_snd | with_reducible apply Moves.foldl_fst
    | ((with_reducible apply Moves.snd); assumption) | ((with_reducible apply Moves.fst); assumption) | split | dsimp only

theorem State.wipe_moves (s : State) (lo hi : Nat) :
    Moves [.mem, .ecc] s (State.wipe s lo hi) := by
  unfold State.wipe
  repeat' first
    | with_reducible apply Moves.refl | ((with_reducible apply Within.of); exact rfl) | intro _
    | with_reducible apply Moves.step (State.setEcc_moves ..)
    | with_reducible apply Moves.step (State.setMem_moves (h := Tab.wf_clear) ..) | with_reducible apply Moves.ite
    | with_reducible apply Moves.foldl | with_reducible apply Moves.foldl_snd | with_reducible apply Moves.foldl_fst
    | ((with_reducible apply Moves.snd); assumption) | ((with_reducible apply Moves.fst); assumption) | split | dsimp only

theorem State.linksLose_moves (s : State) (plc : Bool) :
    Moves [.links] s (State.linksLose s plc) := by
  unfold State.linksLose
  repeat' first
    | with_reducible apply Moves.refl | ((with_reducible apply Within.of); exact rfl) | intro _
    | with_reducible apply Moves.step (State.setLinks_moves ..) | with_reducible apply Moves.ite
    | with_reducible apply Moves.foldl | with_reducible apply Moves.foldl_snd | with_reducible apply Moves.foldl_fst
    | ((with_reducible apply Moves.snd); assumption) | ((with_reducible apply Moves.fst); assumption) | split | dsimp only

theorem State.domReset_moves (s : State) (d : Nat) :
    Moves [.regs, .live, .mem, .ecc, .ladder, .fabric, .weft, .startup, .time, .selv, .loom, .twill, .sense, .hs, .sal, .zw, .grid, .ks, .links, .ses, .thermal, .ledger, .brine, .can] s (State.domReset s d) := by
  unfold State.domReset
  repeat' first
    | with_reducible apply Moves.refl | ((with_reducible apply Within.of); exact rfl) | intro _
    | with_reducible apply Moves.step (State.dropContexts_moves ..)
    | with_reducible apply Moves.step (State.resetRegs_moves ..) | with_reducible apply Moves.step (State.wipe_moves ..)
    | with_reducible apply Moves.step (State.setSelv_moves ..) | with_reducible apply Moves.step (State.wr_moves ..)
    | with_reducible apply Moves.step (resetHubBlocks_moves ..) | with_reducible apply Moves.step (State.setFld_moves ..)
    | with_reducible apply Moves.step (State.setKs_moves ..) | with_reducible apply Moves.step (State.setFlag_moves ..)
    | with_reducible apply Moves.step (State.orphan_moves ..) | with_reducible apply Moves.step (State.setLedger_moves ..)
    | with_reducible apply Moves.step (State.setBrine_moves ..) | with_reducible apply Moves.step (State.setHs_moves ..)
    | with_reducible apply Moves.step (State.setThermal_moves ..)
    | with_reducible apply Moves.step (State.setGrid_moves ..) | with_reducible apply Moves.step (State.setSense_moves ..)
    | with_reducible apply Moves.step (State.showCmps_moves ..) | with_reducible apply Moves.step (State.zwReset_moves ..)
    | with_reducible apply Moves.step (State.linksLose_moves ..) | with_reducible apply Moves.step (State.setCan_moves ..)
    | with_reducible apply Moves.step (State.setSes_moves ..) | with_reducible apply Moves.step (State.setTime_moves ..)
    | with_reducible apply Moves.step (State.basesAt_moves ..) | with_reducible apply Moves.step (State.setSal_moves ..)
    | with_reducible apply Moves.step (State.setTwill_moves ..) | with_reducible apply Moves.step (State.setLoom_moves ..)
    | with_reducible apply Moves.ite | with_reducible apply Moves.foldl | with_reducible apply Moves.foldl_snd
    | with_reducible apply Moves.foldl_fst | ((with_reducible apply Moves.snd); assumption)
    | ((with_reducible apply Moves.fst); assumption) | split | dsimp only

theorem State.pinsMove_moves (s : State) :
    Moves [.regs, .weft, .selv, .sense, .hs] s (State.pinsMove s) := by
  unfold State.pinsMove
  repeat' first
    | with_reducible apply Moves.refl | ((with_reducible apply Within.of); exact rfl) | intro _
    | with_reducible apply Moves.step (State.ownedMoved_moves ..)
    | with_reducible apply Moves.step (State.resetsMoved_moves ..) | with_reducible apply Moves.ite
    | with_reducible apply Moves.foldl | with_reducible apply Moves.foldl_snd | with_reducible apply Moves.foldl_fst
    | ((with_reducible apply Moves.snd); assumption) | ((with_reducible apply Moves.fst); assumption) | split | dsimp only

theorem State.powerOff_moves (s : State) (d : Nat) :
    Moves [.regs, .live, .mem, .ecc, .ladder, .fabric, .weft, .power, .startup, .time, .selv, .loom, .twill, .sense, .hs, .sal, .zw, .grid, .ks, .links, .ses, .thermal, .ledger, .brine, .can] s (State.powerOff s d) := by
  unfold State.powerOff
  repeat' first
    | with_reducible apply Moves.refl | ((with_reducible apply Within.of); exact rfl) | intro _
    | with_reducible apply Moves.step (State.aonSync_moves ..) | with_reducible apply Moves.step (State.line_moves ..)
    | with_reducible apply Moves.step (State.pinsMove_moves ..) | with_reducible apply Moves.step (State.setDom_moves ..)
    | with_reducible apply Moves.step (State.domReset_moves ..) | with_reducible apply Moves.ite
    | with_reducible apply Moves.foldl | with_reducible apply Moves.foldl_snd | with_reducible apply Moves.foldl_fst
    | ((with_reducible apply Moves.snd); assumption) | ((with_reducible apply Moves.fst); assumption) | split | dsimp only

theorem State.powerOn_moves (s : State) (d : Nat) :
    Moves [.regs, .live, .mem, .ecc, .ladder, .fabric, .weft, .power, .startup, .time, .selv, .loom, .twill, .sense, .hs, .sal, .zw, .grid, .ks, .links, .ses, .thermal, .ledger, .brine, .can] s (State.powerOn s d) := by
  unfold State.powerOn
  repeat' first
    | with_reducible apply Moves.refl | ((with_reducible apply Within.of); exact rfl) | intro _
    | with_reducible apply Moves.step (State.setDom_moves ..) | with_reducible apply Moves.step (State.domReset_moves ..)
    | with_reducible apply Moves.step (State.basesAt_moves ..) | with_reducible apply Moves.step (State.setPower_moves ..)
    | with_reducible apply Moves.step (State.loomReleased_moves ..)
    | with_reducible apply Moves.step (State.modeFollows_moves ..) | with_reducible apply Moves.step (State.line_moves ..)
    | with_reducible apply Moves.step (State.pinsMove_moves ..) | with_reducible apply Moves.ite
    | with_reducible apply Moves.foldl | with_reducible apply Moves.foldl_snd | with_reducible apply Moves.foldl_fst
    | ((with_reducible apply Moves.snd); assumption) | ((with_reducible apply Moves.fst); assumption) | split | dsimp only

theorem State.domWrite_moves (s : State) (i : Nat) (b : Bool) :
    Moves [.regs, .live, .mem, .ecc, .ladder, .fabric, .weft, .power, .startup, .time, .selv, .loom, .twill, .sense, .hs, .sal, .zw, .grid, .ks, .links, .ses, .thermal, .ledger, .brine, .can] s (State.domWrite s i b) := by
  unfold State.domWrite
  repeat' first
    | with_reducible apply Moves.refl | ((with_reducible apply Within.of); exact rfl) | intro _
    | with_reducible apply Moves.step (State.setBit_moves ..) | with_reducible apply Moves.step (State.powerOn_moves ..)
    | with_reducible apply Moves.step (State.setFlag_moves ..) | with_reducible apply Moves.step (State.powerOff_moves ..)
    | with_reducible apply Moves.ite | with_reducible apply Moves.foldl | with_reducible apply Moves.foldl_snd
    | with_reducible apply Moves.foldl_fst | ((with_reducible apply Moves.snd); assumption)
    | ((with_reducible apply Moves.fst); assumption) | split | dsimp only

theorem State.sourceAsserts_moves (s : State) (b : Nat) :
    Moves [.regs, .power] s (State.sourceAsserts s b) := by
  unfold State.sourceAsserts
  repeat' first
    | with_reducible apply Moves.refl | ((with_reducible apply Within.of); exact rfl) | intro _
    | with_reducible apply Moves.step (State.setPower_moves ..) | with_reducible apply Moves.step (State.setBit_moves ..)
    | with_reducible apply Moves.ite | with_reducible apply Moves.foldl | with_reducible apply Moves.foldl_snd
    | with_reducible apply Moves.foldl_fst | ((with_reducible apply Moves.snd); assumption)
    | ((with_reducible apply Moves.fst); assumption) | split | dsimp only

theorem State.recordReset_moves (s : State) (fresh : Bool) :
    Moves [.regs] s (State.recordReset s fresh) := by
  unfold State.recordReset
  repeat' first
    | with_reducible apply Moves.refl | ((with_reducible apply Within.of); exact rfl) | intro _
    | with_reducible apply Moves.step (State.setFld_moves ..) | with_reducible apply Moves.step (State.wrNat_moves ..)
    | with_reducible apply Moves.ite | with_reducible apply Moves.foldl | with_reducible apply Moves.foldl_snd
    | with_reducible apply Moves.foldl_fst | ((with_reducible apply Moves.snd); assumption)
    | ((with_reducible apply Moves.fst); assumption) | split | dsimp only

theorem State.assertHub_moves (s : State) (b : Nat) :
    Moves [.regs, .live, .ladder, .fabric, .weft, .power, .startup, .time, .selv, .loom, .twill, .sense, .hs, .sal, .zw, .grid, .ks, .links, .ses, .thermal, .can] s (State.assertHub s b) := by
  unfold State.assertHub
  repeat' first
    | with_reducible apply Moves.refl | ((with_reducible apply Within.of); exact rfl) | intro _
    | with_reducible apply Moves.step (State.sourceAsserts_moves ..)
    | with_reducible apply Moves.step (State.recordReset_moves ..)
    | with_reducible apply Moves.step (resetGuardRegion_moves ..)
    | with_reducible apply Moves.step (resetLinkRegion_moves ..)
    | with_reducible apply Moves.step (resetPowerRegion_moves ..)
    | with_reducible apply Moves.step (resetHubBlocks_moves ..)
    | with_reducible apply Moves.step (State.pinsMove_moves ..)
    | with_reducible apply Moves.step (State.setPower_moves ..) | with_reducible apply Moves.ite
    | with_reducible apply Moves.foldl | with_reducible apply Moves.foldl_snd | with_reducible apply Moves.foldl_fst
    | ((with_reducible apply Moves.snd); assumption) | ((with_reducible apply Moves.fst); assumption) | split | dsimp only

theorem State.startUp_moves (s : State) :
    Moves [.regs, .weft, .startup, .selv, .sense, .hs] s (State.startUp s) := by
  unfold State.startUp
  repeat' first
    | with_reducible apply Moves.refl | ((with_reducible apply Within.of); exact rfl) | intro _
    | with_reducible apply Moves.step (State.setStartup_moves ..)
    | with_reducible apply Moves.step (State.setFld_moves ..) | with_reducible apply Moves.step (State.pinsMove_moves ..)
    | with_reducible apply Moves.ite | with_reducible apply Moves.foldl | with_reducible apply Moves.foldl_snd
    | with_reducible apply Moves.foldl_fst | ((with_reducible apply Moves.snd); assumption)
    | ((with_reducible apply Moves.fst); assumption) | split | dsimp only

theorem State.portsIdle_moves (s : State) (r : Nat) :
    Moves [.regs, .ladder, .fabric] s (State.portsIdle s r) := by
  unfold State.portsIdle
  repeat' first
    | with_reducible apply Moves.refl | ((with_reducible apply Within.of); exact rfl) | intro _
    | with_reducible apply Moves.step (State.setFabric_moves ..)
    | with_reducible apply Moves.step (State.recoversCell_moves ..) | with_reducible apply Moves.ite
    | with_reducible apply Moves.foldl | with_reducible apply Moves.foldl_snd | with_reducible apply Moves.foldl_fst
    | ((with_reducible apply Moves.snd); assumption) | ((with_reducible apply Moves.fst); assumption) | split | dsimp only

theorem State.regionReleased_moves (s : State) (r : Nat) :
    Moves [.regs, .ladder, .fabric, .weft, .selv, .loom, .twill, .sense, .hs] s (State.regionReleased s r) := by
  unfold State.regionReleased
  repeat' first
    | with_reducible apply Moves.refl | ((with_reducible apply Within.of); exact rfl) | intro _
    | with_reducible apply Moves.step (State.modeFollows_moves ..)
    | with_reducible apply Moves.step (State.loomReleased_moves ..)
    | with_reducible apply Moves.step (State.thermalRestore_moves ..)
    | with_reducible apply Moves.step (State.pinsMove_moves ..)
    | with_reducible apply Moves.step (State.portsIdle_moves ..) | with_reducible apply Moves.ite
    | with_reducible apply Moves.foldl | with_reducible apply Moves.foldl_snd | with_reducible apply Moves.foldl_fst
    | ((with_reducible apply Moves.snd); assumption) | ((with_reducible apply Moves.fst); assumption) | split | dsimp only

theorem State.regionIsUp_moves (s : State) (r : Nat) :
    Moves [.regs, .mem, .ladder, .weft, .thermal, .ledger] s (State.regionIsUp s r) := by
  unfold State.regionIsUp
  repeat' first
    | with_reducible apply Moves.refl | ((with_reducible apply Within.of); exact rfl) | intro _
    | with_reducible apply Moves.step (State.ledgerUp_moves ..) | with_reducible apply Moves.step (State.fansUp_moves ..)
    | with_reducible apply Moves.ite | with_reducible apply Moves.foldl | with_reducible apply Moves.foldl_snd
    | with_reducible apply Moves.foldl_fst | ((with_reducible apply Moves.snd); assumption)
    | ((with_reducible apply Moves.fst); assumption) | split | dsimp only

theorem State.releaseHub_moves (s : State) :
    Moves [.regs, .live, .mem, .ecc, .ladder, .fabric, .weft, .power, .startup, .time, .selv, .loom, .twill, .sense, .hs, .sal, .zw, .grid, .ks, .links, .ses, .thermal, .ledger, .brine, .can] s (State.releaseHub s) := by
  unfold State.releaseHub
  repeat' first
    | with_reducible apply Moves.refl | ((with_reducible apply Within.of); exact rfl) | intro _
    | with_reducible apply Moves.step (State.setLadder_moves ..)
    | with_reducible apply Moves.step (State.setPower_moves ..) | with_reducible apply Moves.step (State.powerOn_moves ..)
    | with_reducible apply Moves.step (State.regionReleased_moves ..)
    | with_reducible apply Moves.step (State.startUp_moves ..)
    | with_reducible apply Moves.step (State.regionIsUp_moves ..) | with_reducible apply Moves.ite
    | with_reducible apply Moves.foldl | with_reducible apply Moves.foldl_snd | with_reducible apply Moves.foldl_fst
    | ((with_reducible apply Moves.snd); assumption) | ((with_reducible apply Moves.fst); assumption) | split | dsimp only

theorem State.hubResetBy_moves (s : State) (b : Nat) :
    Moves [.regs, .live, .mem, .ecc, .ladder, .fabric, .weft, .power, .startup, .time, .selv, .loom, .twill, .sense, .hs, .sal, .zw, .grid, .ks, .links, .ses, .thermal, .ledger, .brine, .can] s (State.hubResetBy s b) := by
  unfold State.hubResetBy
  repeat' first
    | with_reducible apply Moves.refl | ((with_reducible apply Within.of); exact rfl) | intro _
    | with_reducible apply Moves.step (State.releaseHub_moves ..)
    | with_reducible apply Moves.step (State.assertHub_moves ..) | with_reducible apply Moves.ite
    | with_reducible apply Moves.foldl | with_reducible apply Moves.foldl_snd | with_reducible apply Moves.foldl_fst
    | ((with_reducible apply Moves.snd); assumption) | ((with_reducible apply Moves.fst); assumption) | split | dsimp only

theorem State.powerOnAll_moves (s : State) (b : Nat) :
    Moves [.regs, .live, .mem, .ecc, .ladder, .fabric, .weft, .power, .startup, .time, .selv, .loom, .twill, .sense, .hs, .sal, .zw, .grid, .ks, .links, .ses, .thermal, .ledger, .brine, .can] s (State.powerOnAll s b) := by
  unfold State.powerOnAll
  repeat' first
    | with_reducible apply Moves.refl | ((with_reducible apply Within.of); exact rfl) | intro _
    | with_reducible apply Moves.step (State.sourceAsserts_moves ..)
    | with_reducible apply Moves.step (State.recordReset_moves ..)
    | with_reducible apply Moves.step (State.setPower_moves ..) | with_reducible apply Moves.step (State.aonSync_moves ..)
    | with_reducible apply Moves.step (State.powerOn_moves ..) | with_reducible apply Moves.ite
    | with_reducible apply Moves.foldl | with_reducible apply Moves.foldl_snd | with_reducible apply Moves.foldl_fst
    | ((with_reducible apply Moves.snd); assumption) | ((with_reducible apply Moves.fst); assumption) | split | dsimp only

theorem State.aonReset_moves (s : State) :
    Moves [.regs, .power, .ks, .ledger] s (State.aonReset s) := by
  unfold State.aonReset
  repeat' first
    | with_reducible apply Moves.refl | ((with_reducible apply Within.of); exact rfl) | intro _
    | with_reducible apply Moves.step (State.setKs_moves ..)
    | with_reducible apply Moves.step (State.setRegs_moves (h := Tab.wf_clear) ..)
    | with_reducible apply Moves.step (State.setPower_moves ..)
    | with_reducible apply Moves.step (State.setLedger_moves ..) | with_reducible apply Moves.ite
    | with_reducible apply Moves.foldl | with_reducible apply Moves.foldl_snd | with_reducible apply Moves.foldl_fst
    | ((with_reducible apply Moves.snd); assumption) | ((with_reducible apply Moves.fst); assumption) | split | dsimp only

end Sys2Proof.Machine
end

