-- ==== Sys2Proof/Laws/MovesLadderCommands.lean ====
section
/-!
SUPPORT. Laws/MovesLadderCommands.lean: which parts of the state each operation of Machine/LadderCommands.lean moves.
-/
set_option Elab.async false
namespace Sys2Proof.Machine
set_option linter.all false

theorem State.onLadder_moves (s : State) (f : State → State) {fs : List Part} (hf : ∀ (t : State), Moves fs t (f t)) :
    Moves ([] ++ fs) s (State.onLadder s f) := by
  unfold State.onLadder
  repeat' first
    | with_reducible apply Moves.refl | ((with_reducible apply Within.of); exact rfl) | intro _
    | with_reducible apply Within.right | with_reducible apply Within.append
    | with_reducible apply Moves.step (hf ..) (Within.right _ _)
    | with_reducible apply Moves.step (State.onBlk_moves (fs := ([] ++ fs)) (hf := ?_) ..)
    | with_reducible apply Moves.ite | with_reducible apply Moves.foldl | with_reducible apply Moves.foldl_snd
    | with_reducible apply Moves.foldl_fst | ((with_reducible apply Moves.snd); assumption)
    | ((with_reducible apply Moves.fst); assumption) | split | dsimp only

theorem execNoteLimitExceeded_moves (blk : BlockId) (s : State) :
    Goes [.regs, .ladder] s (execNoteLimitExceeded blk s) := by
  unfold execNoteLimitExceeded
  repeat' first
    | with_reducible apply Moves.refl | ((with_reducible apply Within.of); exact rfl) | intro _
    | with_reducible apply Goes.next | with_reducible apply Goes.fault | with_reducible apply Goes.ite
    | with_reducible apply Moves.step (State.onLadder_moves (fs := [.regs, .ladder]) (hf := ?_) ..)
    | with_reducible apply Moves.step (State.setBlkRec_moves ..)
    | with_reducible apply Moves.step (State.contain_moves ..) | with_reducible apply Moves.ite
    | with_reducible apply Moves.foldl | with_reducible apply Moves.foldl_snd | with_reducible apply Moves.foldl_fst
    | ((with_reducible apply Moves.snd); assumption) | ((with_reducible apply Moves.fst); assumption) | split | dsimp only

theorem execNoteWindowRecovered_moves (blk : BlockId) (s : State) :
    Goes [.regs, .ladder] s (execNoteWindowRecovered blk s) := by
  unfold execNoteWindowRecovered
  repeat' first
    | with_reducible apply Moves.refl | ((with_reducible apply Within.of); exact rfl) | intro _
    | with_reducible apply Goes.next | with_reducible apply Goes.fault | with_reducible apply Goes.ite
    | with_reducible apply Moves.step (State.onLadder_moves (fs := [.regs, .ladder]) (hf := ?_) ..)
    | with_reducible apply Moves.step (State.recovers_moves ..)
    | with_reducible apply Moves.step (State.setBlkRec_moves ..) | with_reducible apply Moves.ite
    | with_reducible apply Moves.foldl | with_reducible apply Moves.foldl_snd | with_reducible apply Moves.foldl_fst
    | ((with_reducible apply Moves.snd); assumption) | ((with_reducible apply Moves.fst); assumption) | split | dsimp only

theorem execBlockTimerExpiry_moves (blk : BlockId) (s : State) :
    Goes [.regs, .live, .ladder, .fabric, .weft, .power, .time, .selv, .loom, .twill, .sense, .hs, .sal, .zw, .grid, .links, .ses, .thermal, .ledger, .can] s (execBlockTimerExpiry blk s) := by
  unfold execBlockTimerExpiry
  repeat' first
    | with_reducible apply Moves.refl | ((with_reducible apply Within.of); exact rfl) | intro _
    | with_reducible apply Goes.next | with_reducible apply Goes.fault | with_reducible apply Goes.ite
    | with_reducible apply Moves.step (State.onLadder_moves (fs := [.regs, .live, .ladder, .fabric, .weft, .power, .time, .selv, .loom, .twill, .sense, .hs, .sal, .zw, .grid, .links, .ses, .thermal, .ledger, .can]) (hf := ?_) ..)
    | with_reducible apply Moves.step (State.setBlkRec_moves ..)
    | with_reducible apply Moves.step (State.regionFault_moves ..)
    | with_reducible apply Moves.step (State.chipFault_moves ..) | with_reducible apply Moves.ite
    | with_reducible apply Moves.foldl | with_reducible apply Moves.foldl_snd | with_reducible apply Moves.foldl_fst
    | ((with_reducible apply Moves.snd); assumption) | ((with_reducible apply Moves.fst); assumption) | split | dsimp only

theorem execRegionResetComplete_moves (r : Fin 4) (s : State) :
    Goes [.regs, .mem, .ladder, .fabric, .weft, .selv, .loom, .twill, .sense, .hs, .thermal, .ledger] s (execRegionResetComplete r s) := by
  unfold execRegionResetComplete
  repeat' first
    | with_reducible apply Moves.refl | ((with_reducible apply Within.of); exact rfl) | intro _
    | with_reducible apply Goes.next | with_reducible apply Goes.fault | with_reducible apply Goes.ite
    | with_reducible apply Moves.step (State.onLadder_moves (fs := [.regs, .mem, .ladder, .fabric, .weft, .selv, .loom, .twill, .sense, .hs, .thermal, .ledger]) (hf := ?_) ..)
    | with_reducible apply Moves.step (State.regionReleased_moves ..)
    | with_reducible apply Moves.step (State.setRegRec_moves ..)
    | with_reducible apply Moves.step (State.regionIsUp_moves ..) | with_reducible apply Moves.ite
    | with_reducible apply Moves.foldl | with_reducible apply Moves.foldl_snd | with_reducible apply Moves.foldl_fst
    | ((with_reducible apply Moves.snd); assumption) | ((with_reducible apply Moves.fst); assumption) | split | dsimp only

theorem execRegionTimerExpiry_moves (r : Fin 4) (s : State) :
    Goes [.regs, .ladder, .fabric, .weft, .power, .selv, .sense, .hs] s (execRegionTimerExpiry r s) := by
  unfold execRegionTimerExpiry
  repeat' first
    | with_reducible apply Moves.refl | ((with_reducible apply Within.of); exact rfl) | intro _
    | with_reducible apply Goes.next | with_reducible apply Goes.fault | with_reducible apply Goes.ite
    | with_reducible apply Moves.step (State.onLadder_moves (fs := [.regs, .ladder, .fabric, .weft, .power, .selv, .sense, .hs]) (hf := ?_) ..)
    | with_reducible apply Moves.step (State.setRegRec_moves ..)
    | with_reducible apply Moves.step (State.chipFault_moves ..) | with_reducible apply Moves.ite
    | with_reducible apply Moves.foldl | with_reducible apply Moves.foldl_snd | with_reducible apply Moves.foldl_fst
    | ((with_reducible apply Moves.snd); assumption) | ((with_reducible apply Moves.fst); assumption) | split | dsimp only

theorem execChipTimerExpiry_moves (s : State) :
    Goes [.regs, .live, .mem, .ecc, .ladder, .fabric, .weft, .power, .startup, .time, .selv, .loom, .twill, .sense, .hs, .sal, .zw, .grid, .ks, .links, .ses, .thermal, .ledger, .brine, .can] s (execChipTimerExpiry s) := by
  unfold execChipTimerExpiry
  repeat' first
    | with_reducible apply Moves.refl | ((with_reducible apply Within.of); exact rfl) | intro _
    | with_reducible apply Goes.next | with_reducible apply Goes.fault | with_reducible apply Goes.ite
    | with_reducible apply Moves.step (State.setLadder_moves ..)
    | with_reducible apply Moves.step (State.setFlag_moves ..)
    | with_reducible apply Moves.step (State.setFabric_moves ..)
    | with_reducible apply Moves.step (State.setPower_moves ..)
    | with_reducible apply Moves.step (State.hubResetBy_moves ..) | with_reducible apply Moves.ite
    | with_reducible apply Moves.foldl | with_reducible apply Moves.foldl_snd | with_reducible apply Moves.foldl_fst
    | ((with_reducible apply Moves.snd); assumption) | ((with_reducible apply Moves.fst); assumption) | split | dsimp only

theorem execBridgeHandshakeStall_moves (r : Fin 4) (s : State) :
    Goes [.regs, .live, .ladder, .fabric, .weft, .power, .time, .selv, .loom, .twill, .sense, .hs, .sal, .zw, .grid, .links, .ses, .thermal, .ledger, .can] s (execBridgeHandshakeStall r s) := by
  unfold execBridgeHandshakeStall
  repeat' first
    | with_reducible apply Moves.refl | ((with_reducible apply Within.of); exact rfl) | intro _
    | with_reducible apply Goes.next | with_reducible apply Goes.fault | with_reducible apply Goes.ite
    | with_reducible apply Moves.step (State.onLadder_moves (fs := [.regs, .live, .ladder, .fabric, .weft, .power, .time, .selv, .loom, .twill, .sense, .hs, .sal, .zw, .grid, .links, .ses, .thermal, .ledger, .can]) (hf := ?_) ..)
    | with_reducible apply Moves.step (State.region_moves ..) | with_reducible apply Moves.ite
    | with_reducible apply Moves.foldl | with_reducible apply Moves.foldl_snd | with_reducible apply Moves.foldl_fst
    | ((with_reducible apply Moves.snd); assumption) | ((with_reducible apply Moves.fst); assumption) | split | dsimp only

theorem execLadderCopyFault_moves (bridge : Bool) (n : Fin 4) (s : State) :
    Goes [.regs, .ladder, .fabric, .weft, .power, .selv, .sense, .hs] s (execLadderCopyFault bridge n s) := by
  unfold execLadderCopyFault
  repeat' first
    | with_reducible apply Moves.refl | ((with_reducible apply Within.of); exact rfl) | intro _
    | with_reducible apply Goes.next | with_reducible apply Goes.fault | with_reducible apply Goes.ite
    | with_reducible apply Moves.step (State.onLadder_moves (fs := [.regs, .ladder, .fabric, .weft, .power, .selv, .sense, .hs]) (hf := ?_) ..)
    | with_reducible apply Moves.step (State.chip_moves ..) | with_reducible apply Moves.ite
    | with_reducible apply Moves.foldl | with_reducible apply Moves.foldl_snd | with_reducible apply Moves.foldl_fst
    | ((with_reducible apply Moves.snd); assumption) | ((with_reducible apply Moves.fst); assumption) | split | dsimp only

theorem State.errAck_moves (s : State) (b : Nat) :
    Moves [.regs, .ladder] s (State.errAck s b) := by
  unfold State.errAck
  repeat' first
    | with_reducible apply Moves.refl | ((with_reducible apply Within.of); exact rfl) | intro _
    | with_reducible apply Moves.step (State.setFlag_moves ..) | with_reducible apply Moves.step (State.closeBlk_moves ..)
    | with_reducible apply Moves.ite | with_reducible apply Moves.foldl | with_reducible apply Moves.foldl_snd
    | with_reducible apply Moves.foldl_fst | ((with_reducible apply Moves.snd); assumption)
    | ((with_reducible apply Moves.fst); assumption) | split | dsimp only

theorem execErrAck_moves (blk : BlockId) (s : State) :
    Goes [.regs, .ladder] s (execErrAck blk s) := by
  unfold execErrAck
  repeat' first
    | with_reducible apply Moves.refl | ((with_reducible apply Within.of); exact rfl) | intro _
    | with_reducible apply Goes.next | with_reducible apply Goes.fault | with_reducible apply Goes.ite
    | with_reducible apply Moves.step (State.onLadder_moves (fs := [.regs, .ladder]) (hf := ?_) ..)
    | with_reducible apply Moves.step (State.errAck_moves ..) | with_reducible apply Moves.ite
    | with_reducible apply Moves.foldl | with_reducible apply Moves.foldl_snd | with_reducible apply Moves.foldl_fst
    | ((with_reducible apply Moves.snd); assumption) | ((with_reducible apply Moves.fst); assumption) | split | dsimp only

theorem State.regionUp_moves (s : State) (r : Nat) :
    Moves [.regs, .mem, .ladder, .weft, .thermal, .ledger] s (State.regionUp s r) := by
  unfold State.regionUp
  repeat' first
    | with_reducible apply Moves.refl | ((with_reducible apply Within.of); exact rfl) | intro _
    | with_reducible apply Moves.step (State.setFlag_moves ..)
    | with_reducible apply Moves.step (State.setRegRec_moves ..)
    | with_reducible apply Moves.step (State.regionIsUp_moves ..) | with_reducible apply Moves.ite
    | with_reducible apply Moves.foldl | with_reducible apply Moves.foldl_snd | with_reducible apply Moves.foldl_fst
    | ((with_reducible apply Moves.snd); assumption) | ((with_reducible apply Moves.fst); assumption) | split | dsimp only

theorem execRegionUp_moves (r : Fin 4) (s : State) :
    Goes [.regs, .mem, .ladder, .weft, .thermal, .ledger] s (execRegionUp r s) := by
  unfold execRegionUp
  repeat' first
    | with_reducible apply Moves.refl | ((with_reducible apply Within.of); exact rfl) | intro _
    | with_reducible apply Goes.next | with_reducible apply Goes.fault | with_reducible apply Goes.ite
    | with_reducible apply Moves.step (State.onLadder_moves (fs := [.regs, .mem, .ladder, .weft, .thermal, .ledger]) (hf := ?_) ..)
    | with_reducible apply Moves.step (State.regionUp_moves ..) | with_reducible apply Moves.ite
    | with_reducible apply Moves.foldl | with_reducible apply Moves.foldl_snd | with_reducible apply Moves.foldl_fst
    | ((with_reducible apply Moves.snd); assumption) | ((with_reducible apply Moves.fst); assumption) | split | dsimp only

theorem State.clearRecord_moves (s : State) (base : Nat) (cells : Bool) :
    Moves [.regs] s (State.clearRecord s base cells) := by
  unfold State.clearRecord
  repeat' first
    | with_reducible apply Moves.refl | ((with_reducible apply Within.of); exact rfl) | intro _
    | with_reducible apply Moves.step (State.setFld_moves ..) | with_reducible apply Moves.step (State.wr_moves ..)
    | with_reducible apply Moves.ite | with_reducible apply Moves.foldl | with_reducible apply Moves.foldl_snd
    | with_reducible apply Moves.foldl_fst | ((with_reducible apply Moves.snd); assumption)
    | ((with_reducible apply Moves.fst); assumption) | split | dsimp only

theorem State.clearRegRec_moves (s : State) (r : Nat) :
    Moves [.regs, .ladder] s (State.clearRegRec s r) := by
  unfold State.clearRegRec
  repeat' first
    | with_reducible apply Moves.refl | ((with_reducible apply Within.of); exact rfl) | intro _
    | with_reducible apply Moves.step (State.clearRecord_moves ..)
    | with_reducible apply Moves.step (State.setRegRec_moves ..) | with_reducible apply Moves.ite
    | with_reducible apply Moves.foldl | with_reducible apply Moves.foldl_snd | with_reducible apply Moves.foldl_fst
    | ((with_reducible apply Moves.snd); assumption) | ((with_reducible apply Moves.fst); assumption) | split | dsimp only

theorem State.clearBlkRec_moves (s : State) (b : Nat) :
    Moves [.regs, .ladder] s (State.clearBlkRec s b) := by
  unfold State.clearBlkRec
  repeat' first
    | with_reducible apply Moves.refl | ((with_reducible apply Within.of); exact rfl) | intro _
    | with_reducible apply Moves.step (State.clearRecord_moves ..)
    | with_reducible apply Moves.step (State.setBlkRec_moves ..) | with_reducible apply Moves.ite
    | with_reducible apply Moves.foldl | with_reducible apply Moves.foldl_snd | with_reducible apply Moves.foldl_fst
    | ((with_reducible apply Moves.snd); assumption) | ((with_reducible apply Moves.fst); assumption) | split | dsimp only

theorem State.clearChipRec_moves (s : State) :
    Moves [.regs, .ladder] s (State.clearChipRec s) := by
  unfold State.clearChipRec
  repeat' first
    | with_reducible apply Moves.refl | ((with_reducible apply Within.of); exact rfl) | intro _
    | with_reducible apply Moves.step (State.clearRecord_moves ..)
    | with_reducible apply Moves.step (State.setLadder_moves ..) | with_reducible apply Moves.ite
    | with_reducible apply Moves.foldl | with_reducible apply Moves.foldl_snd | with_reducible apply Moves.foldl_fst
    | ((with_reducible apply Moves.snd); assumption) | ((with_reducible apply Moves.fst); assumption) | split | dsimp only

theorem State.blkCfgWrite_moves (s : State) (b : Nat) (v : Word) :
    Moves [.regs, .ladder] s (State.blkCfgWrite s b v) := by
  unfold State.blkCfgWrite
  repeat' first
    | with_reducible apply Moves.refl | ((with_reducible apply Within.of); exact rfl) | intro _
    | with_reducible apply Moves.step (State.wrAccess_moves ..) | with_reducible apply Moves.step (State.setFlag_moves ..)
    | with_reducible apply Moves.step (State.closeBlk_moves ..) | with_reducible apply Moves.ite
    | with_reducible apply Moves.foldl | with_reducible apply Moves.foldl_snd | with_reducible apply Moves.foldl_fst
    | ((with_reducible apply Moves.snd); assumption) | ((with_reducible apply Moves.fst); assumption) | split | dsimp only

theorem execErrRecordClear_moves (rec : RecordId) (s : State) :
    Goes [.regs, .ladder] s (execErrRecordClear rec s) := by
  unfold execErrRecordClear
  repeat' first
    | with_reducible apply Moves.refl | ((with_reducible apply Within.of); exact rfl) | intro _
    | with_reducible apply Goes.next | with_reducible apply Goes.fault | with_reducible apply Goes.ite
    | with_reducible apply Moves.step (State.onLadder_moves (fs := [.regs, .ladder]) (hf := ?_) ..)
    | with_reducible apply Moves.step (State.clearChipRec_moves ..)
    | with_reducible apply Moves.step (State.clearRegRec_moves ..)
    | with_reducible apply Moves.step (State.clearBlkRec_moves ..) | with_reducible apply Moves.ite
    | with_reducible apply Moves.foldl | with_reducible apply Moves.foldl_snd | with_reducible apply Moves.foldl_fst
    | ((with_reducible apply Moves.snd); assumption) | ((with_reducible apply Moves.fst); assumption) | split | dsimp only

theorem execErrLock_moves (s : State) :
    Goes [.regs] s (execErrLock s) := by
  unfold execErrLock
  repeat' first
    | with_reducible apply Moves.refl | ((with_reducible apply Within.of); exact rfl) | intro _
    | with_reducible apply Goes.next | with_reducible apply Goes.fault | with_reducible apply Goes.ite
    | with_reducible apply Moves.step (State.onLadder_moves (fs := [.regs]) (hf := ?_) ..)
    | with_reducible apply Moves.step (State.setFlag_moves ..) | with_reducible apply Moves.ite
    | with_reducible apply Moves.foldl | with_reducible apply Moves.foldl_snd | with_reducible apply Moves.foldl_fst
    | ((with_reducible apply Moves.snd); assumption) | ((with_reducible apply Moves.fst); assumption) | split | dsimp only

end Sys2Proof.Machine
end

