-- ==== Sys2Proof/Laws/MovesLedgerCommands.lean ====
section
/-!
SUPPORT. Laws/MovesLedgerCommands.lean: which parts of the state each operation of Machine/LedgerCommands.lean moves.
-/
set_option Elab.async false
namespace Sys2Proof.Machine
set_option linter.all false

theorem State.onLedger_moves (s : State) (f : State → State) {fs : List Part} (hf : ∀ (t : State), Moves fs t (f t)) :
    Moves ([] ++ fs) s (State.onLedger s f) := by
  unfold State.onLedger
  repeat' first
    | with_reducible apply Moves.refl | ((with_reducible apply Within.of); exact rfl) | intro _
    | with_reducible apply Within.right | with_reducible apply Within.append
    | with_reducible apply Moves.step (hf ..) (Within.right _ _) | with_reducible apply Moves.ite
    | with_reducible apply Moves.foldl | with_reducible apply Moves.foldl_snd | with_reducible apply Moves.foldl_fst
    | ((with_reducible apply Moves.snd); assumption) | ((with_reducible apply Moves.fst); assumption) | split | dsimp only

theorem execMeterBlockEnd_moves (samples : List (List (BitVec 24))) (s : State) :
    Goes [.regs, .mem, .ladder, .weft, .ledger, .free] s (execMeterBlockEnd samples s) := by
  unfold execMeterBlockEnd
  repeat' first
    | with_reducible apply Moves.refl | ((with_reducible apply Within.of); exact rfl) | intro _
    | with_reducible apply Goes.next | with_reducible apply Goes.fault | with_reducible apply Goes.ite
    | with_reducible apply Moves.step (State.onLedger_moves (fs := [.regs, .mem, .ladder, .weft, .ledger, .free]) (hf := ?_) ..)
    | with_reducible apply Moves.step (State.saveCopy_moves ..)
    | with_reducible apply Moves.step (State.blockEnd_moves ..) | with_reducible apply Moves.ite
    | with_reducible apply Moves.foldl | with_reducible apply Moves.foldl_snd | with_reducible apply Moves.foldl_fst
    | ((with_reducible apply Moves.snd); assumption) | ((with_reducible apply Moves.fst); assumption) | split | dsimp only

theorem execMeterChannelInvalid_moves (k : Fin 16) (toggling : Bool) (s : State) :
    Goes [.regs, .mem, .ladder, .weft, .ledger] s (execMeterChannelInvalid k toggling s) := by
  unfold execMeterChannelInvalid
  repeat' first
    | with_reducible apply Moves.refl | ((with_reducible apply Within.of); exact rfl) | intro _
    | with_reducible apply Goes.next | with_reducible apply Goes.fault | with_reducible apply Goes.ite
    | with_reducible apply Moves.step (State.onLedger_moves (fs := [.regs, .mem, .ladder, .weft, .ledger]) (hf := ?_) ..)
    | with_reducible apply Moves.step (State.setMeter_moves ..)
    | with_reducible apply Moves.step (State.metInvalid_moves ..) | with_reducible apply Moves.ite
    | with_reducible apply Moves.foldl | with_reducible apply Moves.foldl_snd | with_reducible apply Moves.foldl_fst
    | ((with_reducible apply Moves.snd); assumption) | ((with_reducible apply Moves.fst); assumption) | split | dsimp only

theorem execLegalUpdChange_moves (high : Bool) (s : State) :
    Goes [.regs, .mem, .ladder, .weft, .ledger] s (execLegalUpdChange high s) := by
  unfold execLegalUpdChange
  repeat' first
    | with_reducible apply Moves.refl | ((with_reducible apply Within.of); exact rfl) | intro _
    | with_reducible apply Goes.next | with_reducible apply Goes.fault | with_reducible apply Goes.ite
    | with_reducible apply Moves.step (State.onLedger_moves (fs := [.regs, .mem, .ladder, .weft, .ledger]) (hf := ?_) ..)
    | with_reducible apply Moves.step (State.logEntry_moves ..) | with_reducible apply Moves.step (State.setFlag_moves ..)
    | with_reducible apply Moves.ite | with_reducible apply Moves.foldl | with_reducible apply Moves.foldl_snd
    | with_reducible apply Moves.foldl_fst | ((with_reducible apply Moves.snd); assumption)
    | ((with_reducible apply Moves.fst); assumption) | split | dsimp only

theorem execLegalTxCheck_moves (s : State) :
    Goes [.ledger, .out] s (execLegalTxCheck s) := by
  unfold execLegalTxCheck
  repeat' first
    | with_reducible apply Moves.refl | ((with_reducible apply Within.of); exact rfl) | intro _
    | with_reducible apply Goes.next | with_reducible apply Goes.fault | with_reducible apply Goes.ite
    | with_reducible apply Moves.step (State.onLedger_moves (fs := [.ledger, .out]) (hf := ?_) ..)
    | with_reducible apply Moves.step (State.emit_moves ..) | with_reducible apply Moves.step (State.setLedger_moves ..)
    | with_reducible apply Moves.ite | with_reducible apply Moves.foldl | with_reducible apply Moves.foldl_snd
    | with_reducible apply Moves.foldl_fst | ((with_reducible apply Moves.snd); assumption)
    | ((with_reducible apply Moves.fst); assumption) | split | dsimp only

theorem execLegalTxEnergy_moves (s : State) :
    Goes [.ledger, .out] s (execLegalTxEnergy s) := by
  unfold execLegalTxEnergy
  repeat' first
    | with_reducible apply Moves.refl | ((with_reducible apply Within.of); exact rfl) | intro _
    | with_reducible apply Goes.next | with_reducible apply Goes.fault | with_reducible apply Goes.ite
    | with_reducible apply Moves.step (State.onLedger_moves (fs := [.ledger, .out]) (hf := ?_) ..)
    | with_reducible apply Moves.step (State.emit_moves ..) | with_reducible apply Moves.step (State.setLedger_moves ..)
    | with_reducible apply Moves.ite | with_reducible apply Moves.foldl | with_reducible apply Moves.foldl_snd
    | with_reducible apply Moves.foldl_fst | ((with_reducible apply Moves.snd); assumption)
    | ((with_reducible apply Moves.fst); assumption) | split | dsimp only

theorem execMpulsePulse_moves (o : Fin 8) (s : State) :
    Goes [.ledger] s (execMpulsePulse o s) := by
  unfold execMpulsePulse
  repeat' first
    | with_reducible apply Moves.refl | ((with_reducible apply Within.of); exact rfl) | intro _
    | with_reducible apply Goes.next | with_reducible apply Goes.fault | with_reducible apply Goes.ite
    | with_reducible apply Moves.step (State.onLedger_moves (fs := [.ledger]) (hf := ?_) ..)
    | with_reducible apply Moves.step (State.setMeter_moves ..) | with_reducible apply Moves.ite
    | with_reducible apply Moves.foldl | with_reducible apply Moves.foldl_snd | with_reducible apply Moves.foldl_fst
    | ((with_reducible apply Moves.snd); assumption) | ((with_reducible apply Moves.fst); assumption) | split | dsimp only

theorem execMeterImageRecheck_moves (s : State) :
    Goes [.regs, .mem, .ladder, .weft, .ledger, .out] s (execMeterImageRecheck s) := by
  unfold execMeterImageRecheck
  repeat' first
    | with_reducible apply Moves.refl | ((with_reducible apply Within.of); exact rfl) | intro _
    | with_reducible apply Goes.next | with_reducible apply Goes.fault | with_reducible apply Goes.ite
    | with_reducible apply Moves.step (State.onLedger_moves (fs := [.regs, .mem, .ladder, .weft, .ledger, .out]) (hf := ?_) ..)
    | with_reducible apply Moves.step (State.setLedger_moves ..)
    | with_reducible apply Moves.step (State.metStop_moves ..) | with_reducible apply Moves.ite
    | with_reducible apply Moves.foldl | with_reducible apply Moves.foldl_snd | with_reducible apply Moves.foldl_fst
    | ((with_reducible apply Moves.snd); assumption) | ((with_reducible apply Moves.fst); assumption) | split | dsimp only

theorem State.onStore_moves (s : State) (f : State → State) {fs : List Part} (hf : ∀ (t : State), Moves fs t (f t)) :
    Moves ([] ++ fs) s (State.onStore s f) := by
  unfold State.onStore
  repeat' first
    | with_reducible apply Moves.refl | ((with_reducible apply Within.of); exact rfl) | intro _
    | with_reducible apply Within.right | with_reducible apply Within.append
    | with_reducible apply Moves.step (hf ..) (Within.right _ _)
    | with_reducible apply Moves.step (State.onLedger_moves (fs := ([] ++ fs)) (hf := ?_) ..)
    | with_reducible apply Moves.step (State.onBlk_moves (fs := ([] ++ fs)) (hf := ?_) ..)
    | with_reducible apply Moves.ite | with_reducible apply Moves.foldl | with_reducible apply Moves.foldl_snd
    | with_reducible apply Moves.foldl_fst | ((with_reducible apply Moves.snd); assumption)
    | ((with_reducible apply Moves.fst); assumption) | split | dsimp only

theorem State.evsResult_moves (s : State) (r : Nat) :
    Moves [.regs] s (State.evsResult s r) := by
  unfold State.evsResult
  repeat' first
    | with_reducible apply Moves.refl | ((with_reducible apply Within.of); exact rfl) | intro _
    | with_reducible apply Moves.step (State.setFld_moves ..) | with_reducible apply Moves.ite
    | with_reducible apply Moves.foldl | with_reducible apply Moves.foldl_snd | with_reducible apply Moves.foldl_fst
    | ((with_reducible apply Moves.snd); assumption) | ((with_reducible apply Moves.fst); assumption) | split | dsimp only

theorem State.parLoad_moves (s : State) :
    Moves [.regs, .mem, .ecc, .ladder, .fabric, .weft, .power, .selv, .sense, .hs, .ledger, .out, .free] s (State.parLoad s) := by
  unfold State.parLoad
  repeat' first
    | with_reducible apply Moves.refl | ((with_reducible apply Within.of); exact rfl) | intro _
    | with_reducible apply Moves.step (State.evsResult_moves ..)
    | with_reducible apply Moves.step (State.readBlock_moves ..)
    | with_reducible apply Moves.step (State.mramPut_moves ..) | with_reducible apply Moves.step (State.logEntry_moves ..)
    | with_reducible apply Moves.step (State.line_moves ..) | with_reducible apply Moves.step (State.setLedger_moves ..)
    | with_reducible apply Moves.step (State.metStart_moves ..)
    | with_reducible apply Moves.step (State.parApply_moves ..) | with_reducible apply Moves.ite
    | with_reducible apply Moves.foldl | with_reducible apply Moves.foldl_snd | with_reducible apply Moves.foldl_fst
    | ((with_reducible apply Moves.snd); assumption) | ((with_reducible apply Moves.fst); assumption) | split | dsimp only

theorem execParameterLoad_moves (s : State) :
    Goes [.regs, .mem, .ecc, .ladder, .fabric, .weft, .power, .selv, .sense, .hs, .ledger, .out, .free] s (execParameterLoad s) := by
  unfold execParameterLoad
  repeat' first
    | with_reducible apply Moves.refl | ((with_reducible apply Within.of); exact rfl) | intro _
    | with_reducible apply Goes.next | with_reducible apply Goes.fault | with_reducible apply Goes.ite
    | with_reducible apply Moves.step (State.onStore_moves (fs := [.regs, .mem, .ecc, .ladder, .fabric, .weft, .power, .selv, .sense, .hs, .ledger, .out, .free]) (hf := ?_) ..)
    | with_reducible apply Moves.step (State.parLoad_moves ..) | with_reducible apply Moves.ite
    | with_reducible apply Moves.foldl | with_reducible apply Moves.foldl_snd | with_reducible apply Moves.foldl_fst
    | ((with_reducible apply Moves.snd); assumption) | ((with_reducible apply Moves.fst); assumption) | split | dsimp only

theorem State.requestReading_moves (s : State) (kind o : Nat) :
    Moves [.regs, .ledger] s (State.requestReading s kind o) := by
  unfold State.requestReading
  repeat' first
    | with_reducible apply Moves.refl | ((with_reducible apply Within.of); exact rfl) | intro _
    | with_reducible apply Moves.step (State.onStore_moves (fs := [.regs, .ledger]) (hf := ?_) ..)
    | with_reducible apply Moves.step (State.evsResult_moves ..)
    | with_reducible apply Moves.step (State.setFlag_moves ..)
    | with_reducible apply Moves.step (State.setLedger_moves ..) | with_reducible apply Moves.ite
    | with_reducible apply Moves.foldl | with_reducible apply Moves.foldl_snd | with_reducible apply Moves.foldl_fst
    | ((with_reducible apply Moves.snd); assumption) | ((with_reducible apply Moves.fst); assumption) | split | dsimp only

theorem execReadingStart_moves (o : Fin 8) (s : State) :
    Goes [.regs, .ledger] s (execReadingStart o s) := by
  unfold execReadingStart
  repeat' first
    | with_reducible apply Moves.refl | ((with_reducible apply Within.of); exact rfl) | intro _
    | with_reducible apply Goes.next | with_reducible apply Goes.fault | with_reducible apply Goes.ite
    | with_reducible apply Moves.step (State.requestReading_moves ..) | with_reducible apply Moves.ite
    | with_reducible apply Moves.foldl | with_reducible apply Moves.foldl_snd | with_reducible apply Moves.foldl_fst
    | ((with_reducible apply Moves.snd); assumption) | ((with_reducible apply Moves.fst); assumption) | split | dsimp only

theorem execReadingStop_moves (o : Fin 8) (s : State) :
    Goes [.regs, .ledger] s (execReadingStop o s) := by
  unfold execReadingStop
  repeat' first
    | with_reducible apply Moves.refl | ((with_reducible apply Within.of); exact rfl) | intro _
    | with_reducible apply Goes.next | with_reducible apply Goes.fault | with_reducible apply Goes.ite
    | with_reducible apply Moves.step (State.requestReading_moves ..) | with_reducible apply Moves.ite
    | with_reducible apply Moves.foldl | with_reducible apply Moves.foldl_snd | with_reducible apply Moves.foldl_fst
    | ((with_reducible apply Moves.snd); assumption) | ((with_reducible apply Moves.fst); assumption) | split | dsimp only

theorem execReadingOnRequest_moves (o : Fin 8) (s : State) :
    Goes [.regs, .ledger] s (execReadingOnRequest o s) := by
  unfold execReadingOnRequest
  repeat' first
    | with_reducible apply Moves.refl | ((with_reducible apply Within.of); exact rfl) | intro _
    | with_reducible apply Goes.next | with_reducible apply Goes.fault | with_reducible apply Goes.ite
    | with_reducible apply Moves.step (State.requestReading_moves ..) | with_reducible apply Moves.ite
    | with_reducible apply Moves.foldl | with_reducible apply Moves.foldl_snd | with_reducible apply Moves.foldl_fst
    | ((with_reducible apply Moves.snd); assumption) | ((with_reducible apply Moves.fst); assumption) | split | dsimp only

theorem execReadingRecordComplete_moves (s : State) :
    Goes [.regs, .mem, .ladder, .weft, .ledger, .free] s (execReadingRecordComplete s) := by
  unfold execReadingRecordComplete
  repeat' first
    | with_reducible apply Moves.refl | ((with_reducible apply Within.of); exact rfl) | intro _
    | with_reducible apply Goes.next | with_reducible apply Goes.fault | with_reducible apply Goes.ite
    | with_reducible apply Moves.step (State.onStore_moves (fs := [.regs, .mem, .ladder, .weft, .ledger, .free]) (hf := ?_) ..)
    | with_reducible apply Moves.step (State.afterSign_moves ..)
    | with_reducible apply Moves.step (State.mramPut_moves ..)
    | with_reducible apply Moves.step (State.setLedger_moves ..) | with_reducible apply Moves.step (State.line_moves ..)
    | with_reducible apply Moves.step (State.wrNat_moves ..) | with_reducible apply Moves.step (State.readEnd_moves ..)
    | with_reducible apply Moves.ite | with_reducible apply Moves.foldl | with_reducible apply Moves.foldl_snd
    | with_reducible apply Moves.foldl_fst | ((with_reducible apply Moves.snd); assumption)
    | ((with_reducible apply Moves.fst); assumption) | split | dsimp only

theorem execLedgerRestore_moves (badA badB : Bool) (s : State) :
    Goes [.regs, .mem, .ladder, .weft, .ledger, .out, .free] s (execLedgerRestore badA badB s) := by
  unfold execLedgerRestore
  repeat' first
    | with_reducible apply Moves.refl | ((with_reducible apply Within.of); exact rfl) | intro _
    | with_reducible apply Goes.next | with_reducible apply Goes.fault | with_reducible apply Goes.ite
    | with_reducible apply Moves.step (State.ledgerRestore_moves ..) | with_reducible apply Moves.ite
    | with_reducible apply Moves.foldl | with_reducible apply Moves.foldl_snd | with_reducible apply Moves.foldl_fst
    | ((with_reducible apply Moves.snd); assumption) | ((with_reducible apply Moves.fst); assumption) | split | dsimp only

theorem execTcwSample_moves (o : Fin 8) (uv : BitVec 24) (s : State) :
    Goes [.ledger] s (execTcwSample o uv s) := by
  unfold execTcwSample
  repeat' first
    | with_reducible apply Moves.refl | ((with_reducible apply Within.of); exact rfl) | intro _
    | with_reducible apply Goes.next | with_reducible apply Goes.fault | with_reducible apply Goes.ite
    | with_reducible apply Moves.step (State.setLedger_moves ..) | with_reducible apply Moves.ite
    | with_reducible apply Moves.foldl | with_reducible apply Moves.foldl_snd | with_reducible apply Moves.foldl_fst
    | ((with_reducible apply Moves.snd); assumption) | ((with_reducible apply Moves.fst); assumption) | split | dsimp only

theorem execEvsMramEcc_moves (addr : BitVec 22) (double : Bool) (s : State) :
    Goes [.regs, .ladder, .ledger] s (execEvsMramEcc addr double s) := by
  unfold execEvsMramEcc
  repeat' first
    | with_reducible apply Moves.refl | ((with_reducible apply Within.of); exact rfl) | intro _
    | with_reducible apply Goes.next | with_reducible apply Goes.fault | with_reducible apply Goes.ite
    | with_reducible apply Moves.step (State.onStore_moves (fs := [.regs, .ladder, .ledger]) (hf := ?_) ..)
    | with_reducible apply Moves.step (State.contain_moves ..)
    | with_reducible apply Moves.step (State.setLedger_moves ..) | with_reducible apply Moves.step (State.note_moves ..)
    | with_reducible apply Moves.ite | with_reducible apply Moves.foldl | with_reducible apply Moves.foldl_snd
    | with_reducible apply Moves.foldl_fst | ((with_reducible apply Moves.snd); assumption)
    | ((with_reducible apply Moves.fst); assumption) | split | dsimp only

theorem execThermalRecord_moves (s : State) :
    Goes [.regs, .mem, .ladder, .thermal, .ledger] s (execThermalRecord s) := by
  unfold execThermalRecord
  repeat' first
    | with_reducible apply Moves.refl | ((with_reducible apply Within.of); exact rfl) | intro _
    | with_reducible apply Goes.next | with_reducible apply Goes.fault | with_reducible apply Goes.ite
    | with_reducible apply Moves.step (State.onStore_moves (fs := [.regs, .mem, .ladder, .thermal, .ledger]) (hf := ?_) ..)
    | with_reducible apply Moves.step (State.mramPut_moves ..)
    | with_reducible apply Moves.step (State.setLedger_moves ..) | with_reducible apply Moves.step (State.setFld_moves ..)
    | with_reducible apply Moves.step (State.setThermal_moves ..) | with_reducible apply Moves.ite
    | with_reducible apply Moves.foldl | with_reducible apply Moves.foldl_snd | with_reducible apply Moves.foldl_fst
    | ((with_reducible apply Moves.snd); assumption) | ((with_reducible apply Moves.fst); assumption) | split | dsimp only

end Sys2Proof.Machine
end

