-- ==== Sys2Proof/Laws/MovesLinkCommands.lean ====
section
/-!
SUPPORT. Laws/MovesLinkCommands.lean: which parts of the state each operation of Machine/LinkCommands.lean moves.
-/
set_option Elab.async false
namespace Sys2Proof.Machine
set_option linter.all false

theorem State.diodeCheck_moves (s : State) (o need : Nat) (lowMv : Int) :
    Moves [.regs, .ladder, .weft, .links] s (State.diodeCheck s o need lowMv) := by
  unfold State.diodeCheck
  repeat' first
    | with_reducible apply Moves.refl | ((with_reducible apply Within.of); exact rfl) | intro _
    | with_reducible apply Moves.step (State.setPilot_moves ..) | with_reducible apply Moves.step (State.line_moves ..)
    | with_reducible apply Moves.step (State.note_moves ..) | with_reducible apply Moves.step (State.setFlag_moves ..)
    | with_reducible apply Moves.ite | with_reducible apply Moves.foldl | with_reducible apply Moves.foldl_snd
    | with_reducible apply Moves.foldl_fst | ((with_reducible apply Moves.snd); assumption)
    | ((with_reducible apply Moves.fst); assumption) | split | dsimp only

theorem execPilotMeasurement_moves (o : Fin 8) (hi : BitVec 96) (lo : BitVec 96) (id : BitVec 96) (s : State) :
    Goes [.regs, .ladder, .weft, .links] s (execPilotMeasurement o hi lo id s) := by
  unfold execPilotMeasurement
  repeat' first
    | with_reducible apply Moves.refl | ((with_reducible apply Within.of); exact rfl) | intro _
    | with_reducible apply Goes.next | with_reducible apply Goes.fault | with_reducible apply Goes.ite
    | with_reducible apply Moves.step (State.onBlk_moves (fs := [.regs, .ladder, .weft, .links]) (hf := ?_) ..)
    | with_reducible apply Moves.step (State.setFld_moves ..) | with_reducible apply Moves.step (State.setPilot_moves ..)
    | with_reducible apply Moves.step (State.line_moves ..) | with_reducible apply Moves.step (State.note_moves ..)
    | with_reducible apply Moves.step (State.setFlag_moves ..)
    | with_reducible apply Moves.step (State.showPilot_moves ..)
    | with_reducible apply Moves.step (State.diodeCheck_moves ..) | with_reducible apply Moves.ite
    | with_reducible apply Moves.foldl | with_reducible apply Moves.foldl_snd | with_reducible apply Moves.foldl_fst
    | ((with_reducible apply Moves.snd); assumption) | ((with_reducible apply Moves.fst); assumption) | split | dsimp only

theorem State.pilotDrive_moves (s : State) (o : Nat) (data : Word) :
    Moves [.regs] s (State.pilotDrive s o data) := by
  unfold State.pilotDrive
  repeat' first
    | with_reducible apply Moves.refl | ((with_reducible apply Within.of); exact rfl) | intro _
    | with_reducible apply Moves.step (State.setFlag_moves ..) | with_reducible apply Moves.step (State.wr_moves ..)
    | with_reducible apply Moves.ite | with_reducible apply Moves.foldl | with_reducible apply Moves.foldl_snd
    | with_reducible apply Moves.foldl_fst | ((with_reducible apply Moves.snd); assumption)
    | ((with_reducible apply Moves.fst); assumption) | split | dsimp only

theorem execPilotDriveWrite_moves (o : Fin 8) (data : Word) (s : State) :
    Goes [.regs] s (execPilotDriveWrite o data s) := by
  unfold execPilotDriveWrite
  repeat' first
    | with_reducible apply Moves.refl | ((with_reducible apply Within.of); exact rfl) | intro _
    | with_reducible apply Goes.next | with_reducible apply Goes.fault | with_reducible apply Goes.ite
    | with_reducible apply Moves.step (State.onBlk_moves (fs := [.regs]) (hf := ?_) ..)
    | with_reducible apply Moves.step (State.pilotDrive_moves ..) | with_reducible apply Moves.ite
    | with_reducible apply Moves.foldl | with_reducible apply Moves.foldl_snd | with_reducible apply Moves.foldl_fst
    | ((with_reducible apply Moves.snd); assumption) | ((with_reducible apply Moves.fst); assumption) | split | dsimp only

theorem State.pilotStable_moves (s : State) (o : Nat) :
    Moves [.regs, .weft] s (State.pilotStable s o) := by
  unfold State.pilotStable
  repeat' first
    | with_reducible apply Moves.refl | ((with_reducible apply Within.of); exact rfl) | intro _
    | with_reducible apply Moves.step (State.showPilot_moves ..)
    | with_reducible apply Moves.step (State.setFlag_moves ..) | with_reducible apply Moves.ite
    | with_reducible apply Moves.foldl | with_reducible apply Moves.foldl_snd | with_reducible apply Moves.foldl_fst
    | ((with_reducible apply Moves.snd); assumption) | ((with_reducible apply Moves.fst); assumption) | split | dsimp only

theorem execPilotUnstableClear_moves (o : Fin 8) (s : State) :
    Goes [.regs, .weft] s (execPilotUnstableClear o s) := by
  unfold execPilotUnstableClear
  repeat' first
    | with_reducible apply Moves.refl | ((with_reducible apply Within.of); exact rfl) | intro _
    | with_reducible apply Goes.next | with_reducible apply Goes.fault | with_reducible apply Goes.ite
    | with_reducible apply Moves.step (State.onBlk_moves (fs := [.regs, .weft]) (hf := ?_) ..)
    | with_reducible apply Moves.step (State.pilotStable_moves ..) | with_reducible apply Moves.ite
    | with_reducible apply Moves.foldl | with_reducible apply Moves.foldl_snd | with_reducible apply Moves.foldl_fst
    | ((with_reducible apply Moves.snd); assumption) | ((with_reducible apply Moves.fst); assumption) | split | dsimp only

theorem execSenseReferenceCheck_moves (o : Fin 8) (code : BitVec 12) (s : State) :
    Goes [.regs, .ladder, .weft, .links] s (execSenseReferenceCheck o code s) := by
  unfold execSenseReferenceCheck
  repeat' first
    | with_reducible apply Moves.refl | ((with_reducible apply Within.of); exact rfl) | intro _
    | with_reducible apply Goes.next | with_reducible apply Goes.fault | with_reducible apply Goes.ite
    | with_reducible apply Moves.step (State.onBlk_moves (fs := [.regs, .ladder, .weft, .links]) (hf := ?_) ..)
    | with_reducible apply Moves.step (State.setPilot_moves ..)
    | with_reducible apply Moves.step (State.recoversCell_moves ..)
    | with_reducible apply Moves.step (State.showPilot_moves ..)
    | with_reducible apply Moves.step (State.setFlag_moves ..) | with_reducible apply Moves.step (State.contain_moves ..)
    | with_reducible apply Moves.ite | with_reducible apply Moves.foldl | with_reducible apply Moves.foldl_snd
    | with_reducible apply Moves.foldl_fst | ((with_reducible apply Moves.snd); assumption)
    | ((with_reducible apply Moves.fst); assumption) | split | dsimp only

theorem State.plcReceive_moves (s : State) (l : Nat) (frame : List Byte) (info : RxInfo) :
    Moves [.regs, .mem, .ecc, .ladder, .fabric, .weft, .power, .selv, .sense, .hs, .links, .out, .free] s (State.plcReceive s l frame info) := by
  unfold State.plcReceive
  repeat' first
    | with_reducible apply Moves.refl | ((with_reducible apply Within.of); exact rfl) | intro _
    | with_reducible apply Moves.step (State.nbrFrame_moves ..)
    | with_reducible apply Moves.step (State.takeSound_moves ..) | with_reducible apply Moves.step (State.emit_moves ..)
    | with_reducible apply Moves.step (State.ringReceive_moves ..) | with_reducible apply Moves.ite
    | with_reducible apply Moves.foldl | with_reducible apply Moves.foldl_snd | with_reducible apply Moves.foldl_fst
    | ((with_reducible apply Moves.snd); assumption) | ((with_reducible apply Moves.fst); assumption) | split | dsimp only

theorem State.t1sReceive_moves (s : State) (l : Nat) (frame : List Byte) (info : RxInfo) :
    Moves [.regs, .mem, .ecc, .ladder, .fabric, .weft, .power, .selv, .sense, .hs, .links, .free] s (State.t1sReceive s l frame info) := by
  unfold State.t1sReceive
  repeat' first
    | with_reducible apply Moves.refl | ((with_reducible apply Within.of); exact rfl) | intro _
    | with_reducible apply Moves.step (State.bump_moves ..) | with_reducible apply Moves.step (State.ringReceive_moves ..)
    | with_reducible apply Moves.ite | with_reducible apply Moves.foldl | with_reducible apply Moves.foldl_snd
    | with_reducible apply Moves.foldl_fst | ((with_reducible apply Moves.snd); assumption)
    | ((with_reducible apply Moves.fst); assumption) | split | dsimp only

theorem execLinkFrameRx_moves (l : Fin 17) (frame : List Byte) (info : RxInfo) (s : State) :
    Goes [.regs, .mem, .ecc, .ladder, .fabric, .weft, .power, .selv, .sense, .hs, .links, .out, .free] s (execLinkFrameRx l frame info s) := by
  unfold execLinkFrameRx
  repeat' first
    | with_reducible apply Moves.refl | ((with_reducible apply Within.of); exact rfl) | intro _
    | with_reducible apply Goes.next | with_reducible apply Goes.fault | with_reducible apply Goes.ite
    | with_reducible apply Moves.step (State.t1sReceive_moves ..)
    | with_reducible apply Moves.step (State.plcReceive_moves ..) | with_reducible apply Moves.ite
    | with_reducible apply Moves.foldl | with_reducible apply Moves.foldl_snd | with_reducible apply Moves.foldl_fst
    | ((with_reducible apply Moves.snd); assumption) | ((with_reducible apply Moves.fst); assumption) | split | dsimp only

theorem execRingTxHeadWrite_moves (l : Fin 17) (head : Byte) (s : State) :
    Goes [.regs] s (execRingTxHeadWrite l head s) := by
  unfold execRingTxHeadWrite
  repeat' first
    | with_reducible apply Moves.refl | ((with_reducible apply Within.of); exact rfl) | intro _
    | with_reducible apply Goes.next | with_reducible apply Goes.fault | with_reducible apply Goes.ite
    | with_reducible apply Moves.step (State.setFld_moves ..) | with_reducible apply Moves.ite
    | with_reducible apply Moves.foldl | with_reducible apply Moves.foldl_snd | with_reducible apply Moves.foldl_fst
    | ((with_reducible apply Moves.snd); assumption) | ((with_reducible apply Moves.fst); assumption) | split | dsimp only

theorem State.linkSend_moves (s : State) (l : Nat) (f key : List Byte) (info : TxInfo) (sent : Bool) :
    Moves [.regs, .ladder, .out] s (State.linkSend s l f key info sent) := by
  unfold State.linkSend
  repeat' first
    | with_reducible apply Moves.refl | ((with_reducible apply Within.of); exact rfl) | intro _
    | with_reducible apply Moves.step (State.emit_moves ..) | with_reducible apply Moves.step (State.setFlag_moves ..)
    | with_reducible apply Moves.step (State.bump_moves ..) | with_reducible apply Moves.step (State.plcSend_moves ..)
    | with_reducible apply Moves.step (State.note_moves ..) | with_reducible apply Moves.ite
    | with_reducible apply Moves.foldl | with_reducible apply Moves.foldl_snd | with_reducible apply Moves.foldl_fst
    | ((with_reducible apply Moves.snd); assumption) | ((with_reducible apply Moves.fst); assumption) | split | dsimp only

theorem execLinkFrameTxDone_moves (l : Fin 17) (info : TxInfo) (s : State) :
    Goes [.regs, .mem, .ecc, .ladder, .fabric, .weft, .power, .selv, .sense, .hs, .links, .out, .free] s (execLinkFrameTxDone l info s) := by
  unfold execLinkFrameTxDone
  repeat' first
    | with_reducible apply Moves.refl | ((with_reducible apply Within.of); exact rfl) | intro _
    | with_reducible apply Goes.next | with_reducible apply Goes.fault | with_reducible apply Goes.ite
    | with_reducible apply Moves.step (State.readBlock_moves ..)
    | with_reducible apply Moves.step (State.readRange_moves ..)
    | with_reducible apply Moves.step (State.writeRanges_moves ..)
    | with_reducible apply Moves.step (State.linkSend_moves ..) | with_reducible apply Moves.step (State.setFld_moves ..)
    | with_reducible apply Moves.step (State.line_moves ..) | with_reducible apply Moves.step (State.ringPassed_moves ..)
    | with_reducible apply Moves.step (State.ringError_moves ..) | with_reducible apply Moves.ite
    | with_reducible apply Moves.foldl | with_reducible apply Moves.foldl_snd | with_reducible apply Moves.foldl_fst
    | ((with_reducible apply Moves.snd); assumption) | ((with_reducible apply Moves.fst); assumption) | split | dsimp only

theorem execRingEnable_moves (l : Fin 17) (tx : Bool) (en : Bool) (s : State) :
    Goes [.regs, .links] s (execRingEnable l tx en s) := by
  unfold execRingEnable
  repeat' first
    | with_reducible apply Moves.refl | ((with_reducible apply Within.of); exact rfl) | intro _
    | with_reducible apply Goes.next | with_reducible apply Goes.fault | with_reducible apply Goes.ite
    | with_reducible apply Moves.step (State.ringEnable_moves ..) | with_reducible apply Moves.ite
    | with_reducible apply Moves.foldl | with_reducible apply Moves.foldl_snd | with_reducible apply Moves.foldl_fst
    | ((with_reducible apply Moves.snd); assumption) | ((with_reducible apply Moves.fst); assumption) | split | dsimp only

theorem State.attStart_moves (s : State) (n : Nat) (data : Word) :
    Moves [.regs, .links] s (State.attStart s n data) := by
  unfold State.attStart
  repeat' first
    | with_reducible apply Moves.refl | ((with_reducible apply Within.of); exact rfl) | intro _
    | with_reducible apply Moves.step (State.wr_moves ..) | with_reducible apply Moves.step (State.setSlac_moves ..)
    | with_reducible apply Moves.ite | with_reducible apply Moves.foldl | with_reducible apply Moves.foldl_snd
    | with_reducible apply Moves.foldl_fst | ((with_reducible apply Moves.snd); assumption)
    | ((with_reducible apply Moves.fst); assumption) | split | dsimp only

theorem execAttStart_moves (n : Fin 8) (data : Word) (s : State) :
    Goes [.regs, .links] s (execAttStart n data s) := by
  unfold execAttStart
  repeat' first
    | with_reducible apply Moves.refl | ((with_reducible apply Within.of); exact rfl) | intro _
    | with_reducible apply Goes.next | with_reducible apply Goes.fault | with_reducible apply Goes.ite
    | with_reducible apply Moves.step (State.onBlk_moves (fs := [.regs, .links]) (hf := ?_) ..)
    | with_reducible apply Moves.step (State.attStart_moves ..) | with_reducible apply Moves.ite
    | with_reducible apply Moves.foldl | with_reducible apply Moves.foldl_snd | with_reducible apply Moves.foldl_fst
    | ((with_reducible apply Moves.snd); assumption) | ((with_reducible apply Moves.fst); assumption) | split | dsimp only

theorem execAttDone_moves (n : Fin 8) (s : State) :
    Goes [.regs, .weft, .links, .free] s (execAttDone n s) := by
  unfold execAttDone
  repeat' first
    | with_reducible apply Moves.refl | ((with_reducible apply Within.of); exact rfl) | intro _
    | with_reducible apply Goes.next | with_reducible apply Goes.fault | with_reducible apply Goes.ite
    | with_reducible apply Moves.step (State.onBlk_moves (fs := [.regs, .weft, .links, .free]) (hf := ?_) ..)
    | with_reducible apply Moves.step (State.wrNat_moves ..) | with_reducible apply Moves.step (State.drew_moves ..)
    | with_reducible apply Moves.step (State.line_moves ..) | with_reducible apply Moves.step (State.setFlag_moves ..)
    | with_reducible apply Moves.step (State.setSlac_moves ..) | with_reducible apply Moves.ite
    | with_reducible apply Moves.foldl | with_reducible apply Moves.foldl_snd | with_reducible apply Moves.foldl_fst
    | ((with_reducible apply Moves.snd); assumption) | ((with_reducible apply Moves.fst); assumption) | split | dsimp only

theorem execToneMapRefresh_moves (k : Fin 32) (s : State) :
    Goes [.regs, .ladder, .weft, .links] s (execToneMapRefresh k s) := by
  unfold execToneMapRefresh
  repeat' first
    | with_reducible apply Moves.refl | ((with_reducible apply Within.of); exact rfl) | intro _
    | with_reducible apply Goes.next | with_reducible apply Goes.fault | with_reducible apply Goes.ite
    | with_reducible apply Moves.step (State.onBlk_moves (fs := [.regs, .ladder, .weft, .links]) (hf := ?_) ..)
    | with_reducible apply Moves.step (State.setFld_moves ..) | with_reducible apply Moves.step (State.setNbr_moves ..)
    | with_reducible apply Moves.step (State.line_moves ..) | with_reducible apply Moves.step (State.note_moves ..)
    | with_reducible apply Moves.step (State.bump_moves ..) | with_reducible apply Moves.step (State.estimate_moves ..)
    | with_reducible apply Moves.step (State.remap_moves ..) | with_reducible apply Moves.ite
    | with_reducible apply Moves.foldl | with_reducible apply Moves.foldl_snd | with_reducible apply Moves.foldl_fst
    | ((with_reducible apply Moves.snd); assumption) | ((with_reducible apply Moves.fst); assumption) | split | dsimp only

theorem execRenegComplete_moves (k : Fin 32) (s : State) :
    Goes [.regs, .links] s (execRenegComplete k s) := by
  unfold execRenegComplete
  repeat' first
    | with_reducible apply Moves.refl | ((with_reducible apply Within.of); exact rfl) | intro _
    | with_reducible apply Goes.next | with_reducible apply Goes.fault | with_reducible apply Goes.ite
    | with_reducible apply Moves.step (State.onBlk_moves (fs := [.regs, .links]) (hf := ?_) ..)
    | with_reducible apply Moves.step (State.setFld_moves ..) | with_reducible apply Moves.step (State.remap_moves ..)
    | with_reducible apply Moves.ite | with_reducible apply Moves.foldl | with_reducible apply Moves.foldl_snd
    | with_reducible apply Moves.foldl_fst | ((with_reducible apply Moves.snd); assumption)
    | ((with_reducible apply Moves.fst); assumption) | split | dsimp only

theorem execBbPhWrite_moves (ph : BitVec 3) (s : State) :
    Goes [.regs, .links] s (execBbPhWrite ph s) := by
  unfold execBbPhWrite
  repeat' first
    | with_reducible apply Moves.refl | ((with_reducible apply Within.of); exact rfl) | intro _
    | with_reducible apply Goes.next | with_reducible apply Goes.fault | with_reducible apply Goes.ite
    | with_reducible apply Moves.step (State.onBlk_moves (fs := [.regs, .links]) (hf := ?_) ..)
    | with_reducible apply Moves.step (State.bbPhase_moves ..) | with_reducible apply Moves.ite
    | with_reducible apply Moves.foldl | with_reducible apply Moves.foldl_snd | with_reducible apply Moves.foldl_fst
    | ((with_reducible apply Moves.snd); assumption) | ((with_reducible apply Moves.fst); assumption) | split | dsimp only

theorem execT1sPhySelfcheckFail_moves (n : Fin 8) (s : State) :
    Goes [.regs, .ladder, .links] s (execT1sPhySelfcheckFail n s) := by
  unfold execT1sPhySelfcheckFail
  repeat' first
    | with_reducible apply Moves.refl | ((with_reducible apply Within.of); exact rfl) | intro _
    | with_reducible apply Goes.next | with_reducible apply Goes.fault | with_reducible apply Goes.ite
    | with_reducible apply Moves.step (State.onBlk_moves (fs := [.regs, .ladder, .links]) (hf := ?_) ..)
    | with_reducible apply Moves.step (State.t1sFails_moves ..) | with_reducible apply Moves.ite
    | with_reducible apply Moves.foldl | with_reducible apply Moves.foldl_snd | with_reducible apply Moves.foldl_fst
    | ((with_reducible apply Moves.snd); assumption) | ((with_reducible apply Moves.fst); assumption) | split | dsimp only

theorem execPlcaBeaconRx_moves (n : Fin 8) (seen : Bool) (alien : Bool) (s : State) :
    Goes [.regs, .ladder, .weft] s (execPlcaBeaconRx n seen alien s) := by
  unfold execPlcaBeaconRx
  repeat' first
    | with_reducible apply Moves.refl | ((with_reducible apply Within.of); exact rfl) | intro _
    | with_reducible apply Goes.next | with_reducible apply Goes.fault | with_reducible apply Goes.ite
    | with_reducible apply Moves.step (State.onBlk_moves (fs := [.regs, .ladder, .weft]) (hf := ?_) ..)
    | with_reducible apply Moves.step (State.setFlag_moves ..) | with_reducible apply Moves.step (State.line_moves ..)
    | with_reducible apply Moves.step (State.note_moves ..) | with_reducible apply Moves.ite
    | with_reducible apply Moves.foldl | with_reducible apply Moves.foldl_snd | with_reducible apply Moves.foldl_fst
    | ((with_reducible apply Moves.snd); assumption) | ((with_reducible apply Moves.fst); assumption) | split | dsimp only

end Sys2Proof.Machine
end

