-- ==== Sys2Proof/Laws/MovesLoomCommands.lean ====
section
/-!
SUPPORT. Laws/MovesLoomCommands.lean: which parts of the state each operation of Machine/LoomCommands.lean moves.
-/
set_option Elab.async false
namespace Sys2Proof.Machine
set_option linter.all false

theorem execLoomRun_moves (data : BitVec 24) (s : State) :
    Goes [.regs, .weft, .loom] s (execLoomRun data s) := by
  unfold execLoomRun
  repeat' first
    | with_reducible apply Moves.refl | ((with_reducible apply Within.of); exact rfl) | intro _
    | with_reducible apply Goes.next | with_reducible apply Goes.fault | with_reducible apply Goes.ite
    | with_reducible apply Moves.step (State.onBlk_moves (fs := [.regs, .weft, .loom]) (hf := ?_) ..)
    | with_reducible apply Moves.step (State.loomRunWrite_moves ..) | with_reducible apply Moves.ite
    | with_reducible apply Moves.foldl | with_reducible apply Moves.foldl_snd | with_reducible apply Moves.foldl_fst
    | ((with_reducible apply Moves.snd); assumption) | ((with_reducible apply Moves.fst); assumption) | split | dsimp only

theorem execLoomBoundary_moves (n : Fin 24) (s : State) :
    Goes [.regs, .live, .ladder, .weft, .loom] s (execLoomBoundary n s) := by
  unfold execLoomBoundary
  repeat' first
    | with_reducible apply Moves.refl | ((with_reducible apply Within.of); exact rfl) | intro _
    | with_reducible apply Goes.next | with_reducible apply Goes.fault | with_reducible apply Goes.ite
    | with_reducible apply Moves.step (State.onBlk_moves (fs := [.regs, .live, .ladder, .weft, .loom]) (hf := ?_) ..)
    | with_reducible apply Moves.step (State.loomBoundary_moves ..) | with_reducible apply Moves.ite
    | with_reducible apply Moves.foldl | with_reducible apply Moves.foldl_snd | with_reducible apply Moves.foldl_fst
    | ((with_reducible apply Moves.snd); assumption) | ((with_reducible apply Moves.fst); assumption) | split | dsimp only

theorem execLoomMidpoint_moves (n : Fin 24) (s : State) :
    Goes [.regs, .live, .weft, .loom] s (execLoomMidpoint n s) := by
  unfold execLoomMidpoint
  repeat' first
    | with_reducible apply Moves.refl | ((with_reducible apply Within.of); exact rfl) | intro _
    | with_reducible apply Goes.next | with_reducible apply Goes.fault | with_reducible apply Goes.ite
    | with_reducible apply Moves.step (State.onBlk_moves (fs := [.regs, .live, .weft, .loom]) (hf := ?_) ..)
    | with_reducible apply Moves.step (State.chMidpoint_moves ..) | with_reducible apply Moves.step (State.setCh_moves ..)
    | with_reducible apply Moves.step (State.eachCh_moves (fs := [.regs, .live, .weft, .loom]) (hf := ?_) ..)
    | with_reducible apply Moves.ite | with_reducible apply Moves.foldl | with_reducible apply Moves.foldl_snd
    | with_reducible apply Moves.foldl_fst | ((with_reducible apply Moves.snd); assumption)
    | ((with_reducible apply Moves.fst); assumption) | split | dsimp only

theorem execLoomRefEdge_moves (n : Fin 24) (s : State) :
    Goes [.loom] s (execLoomRefEdge n s) := by
  unfold execLoomRefEdge
  repeat' first
    | with_reducible apply Moves.refl | ((with_reducible apply Within.of); exact rfl) | intro _
    | with_reducible apply Goes.next | with_reducible apply Goes.fault | with_reducible apply Goes.ite
    | with_reducible apply Moves.step (State.onBlk_moves (fs := [.loom]) (hf := ?_) ..)
    | with_reducible apply Moves.step (State.refSync_moves ..) | with_reducible apply Moves.ite
    | with_reducible apply Moves.foldl | with_reducible apply Moves.foldl_snd | with_reducible apply Moves.foldl_fst
    | ((with_reducible apply Moves.snd); assumption) | ((with_reducible apply Moves.fst); assumption) | split | dsimp only

theorem execLoomDeadTimeEnd_moves (n : Fin 24) (s : State) :
    Goes [.regs, .weft, .loom] s (execLoomDeadTimeEnd n s) := by
  unfold execLoomDeadTimeEnd
  repeat' first
    | with_reducible apply Moves.refl | ((with_reducible apply Within.of); exact rfl) | intro _
    | with_reducible apply Goes.next | with_reducible apply Goes.fault | with_reducible apply Goes.ite
    | with_reducible apply Moves.step (State.onBlk_moves (fs := [.regs, .weft, .loom]) (hf := ?_) ..)
    | with_reducible apply Moves.step (State.setCh_moves ..) | with_reducible apply Moves.step (State.dropPulse_moves ..)
    | with_reducible apply Moves.ite | with_reducible apply Moves.foldl | with_reducible apply Moves.foldl_snd
    | with_reducible apply Moves.foldl_fst | ((with_reducible apply Moves.snd); assumption)
    | ((with_reducible apply Moves.fst); assumption) | split | dsimp only

theorem execLoomTripSource_moves (k : Fin 64) (level : Bool) (s : State) :
    Goes [.regs, .weft, .loom] s (execLoomTripSource k level s) := by
  unfold execLoomTripSource
  repeat' first
    | with_reducible apply Moves.refl | ((with_reducible apply Within.of); exact rfl) | intro _
    | with_reducible apply Goes.next | with_reducible apply Goes.fault | with_reducible apply Goes.ite
    | with_reducible apply Moves.step (State.setLoom_moves ..)
    | with_reducible apply Moves.step (State.onBlk_moves (fs := [.regs, .weft, .loom]) (hf := ?_) ..)
    | with_reducible apply Moves.step (State.srcMoved_moves ..)
    | with_reducible apply Moves.step (State.showPins_moves ..) | with_reducible apply Moves.ite
    | with_reducible apply Moves.foldl | with_reducible apply Moves.foldl_snd | with_reducible apply Moves.foldl_fst
    | ((with_reducible apply Moves.snd); assumption) | ((with_reducible apply Moves.fst); assumption) | split | dsimp only

theorem execLoomBlankEnd_moves (n : Fin 24) (s : State) :
    Goes [.regs, .weft, .loom] s (execLoomBlankEnd n s) := by
  unfold execLoomBlankEnd
  repeat' first
    | with_reducible apply Moves.refl | ((with_reducible apply Within.of); exact rfl) | intro _
    | with_reducible apply Goes.next | with_reducible apply Goes.fault | with_reducible apply Goes.ite
    | with_reducible apply Moves.step (State.onBlk_moves (fs := [.regs, .weft, .loom]) (hf := ?_) ..)
    | with_reducible apply Moves.step (State.tripsOf_moves ..) | with_reducible apply Moves.step (State.setCh_moves ..)
    | with_reducible apply Moves.ite | with_reducible apply Moves.foldl | with_reducible apply Moves.foldl_snd
    | with_reducible apply Moves.foldl_fst | ((with_reducible apply Moves.snd); assumption)
    | ((with_reducible apply Moves.fst); assumption) | split | dsimp only

theorem execLoomClrTrip_moves (n : Fin 24) (s : State) :
    Goes [.regs, .loom] s (execLoomClrTrip n s) := by
  unfold execLoomClrTrip
  repeat' first
    | with_reducible apply Moves.refl | ((with_reducible apply Within.of); exact rfl) | intro _
    | with_reducible apply Goes.next | with_reducible apply Goes.fault | with_reducible apply Goes.ite
    | with_reducible apply Moves.step (State.onBlk_moves (fs := [.regs, .loom]) (hf := ?_) ..)
    | with_reducible apply Moves.step (State.clrTrip_moves ..) | with_reducible apply Moves.ite
    | with_reducible apply Moves.foldl | with_reducible apply Moves.foldl_snd | with_reducible apply Moves.foldl_fst
    | ((with_reducible apply Moves.snd); assumption) | ((with_reducible apply Moves.fst); assumption) | split | dsimp only

theorem execLoomClrDrop_moves (n : Fin 24) (s : State) :
    Goes [.regs] s (execLoomClrDrop n s) := by
  unfold execLoomClrDrop
  repeat' first
    | with_reducible apply Moves.refl | ((with_reducible apply Within.of); exact rfl) | intro _
    | with_reducible apply Goes.next | with_reducible apply Goes.fault | with_reducible apply Goes.ite
    | with_reducible apply Moves.step (State.onBlk_moves (fs := [.regs]) (hf := ?_) ..)
    | with_reducible apply Moves.step (State.wr_moves ..) | with_reducible apply Moves.ite
    | with_reducible apply Moves.foldl | with_reducible apply Moves.foldl_snd | with_reducible apply Moves.foldl_fst
    | ((with_reducible apply Moves.snd); assumption) | ((with_reducible apply Moves.fst); assumption) | split | dsimp only

theorem execLoomSourceStuck_moves (k : Fin 64) (s : State) :
    Goes [.regs, .weft, .loom] s (execLoomSourceStuck k s) := by
  unfold execLoomSourceStuck
  repeat' first
    | with_reducible apply Moves.refl | ((with_reducible apply Within.of); exact rfl) | intro _
    | with_reducible apply Goes.next | with_reducible apply Goes.fault | with_reducible apply Goes.ite
    | with_reducible apply Moves.step (State.onBlk_moves (fs := [.regs, .weft, .loom]) (hf := ?_) ..)
    | with_reducible apply Moves.step (State.tripAll_moves ..) | with_reducible apply Moves.step (State.setFlag_moves ..)
    | with_reducible apply Moves.ite | with_reducible apply Moves.foldl | with_reducible apply Moves.foldl_snd
    | with_reducible apply Moves.foldl_fst | ((with_reducible apply Moves.snd); assumption)
    | ((with_reducible apply Moves.fst); assumption) | split | dsimp only

theorem execLoomStuckClear_moves (k : Fin 64) (s : State) :
    Goes [.regs] s (execLoomStuckClear k s) := by
  unfold execLoomStuckClear
  repeat' first
    | with_reducible apply Moves.refl | ((with_reducible apply Within.of); exact rfl) | intro _
    | with_reducible apply Goes.next | with_reducible apply Goes.fault | with_reducible apply Goes.ite
    | with_reducible apply Moves.step (State.onBlk_moves (fs := [.regs]) (hf := ?_) ..)
    | with_reducible apply Moves.step (State.stuckClear_moves ..) | with_reducible apply Moves.ite
    | with_reducible apply Moves.foldl | with_reducible apply Moves.foldl_snd | with_reducible apply Moves.foldl_fst
    | ((with_reducible apply Moves.snd); assumption) | ((with_reducible apply Moves.fst); assumption) | split | dsimp only

theorem execLoomStaleTrip_moves (n : Fin 24) (s : State) :
    Goes [.regs, .weft, .loom] s (execLoomStaleTrip n s) := by
  unfold execLoomStaleTrip
  repeat' first
    | with_reducible apply Moves.refl | ((with_reducible apply Within.of); exact rfl) | intro _
    | with_reducible apply Goes.next | with_reducible apply Goes.fault | with_reducible apply Goes.ite
    | with_reducible apply Moves.step (State.onBlk_moves (fs := [.regs, .weft, .loom]) (hf := ?_) ..)
    | with_reducible apply Moves.step (State.trip_moves ..) | with_reducible apply Moves.step (State.setCh_moves ..)
    | with_reducible apply Moves.ite | with_reducible apply Moves.foldl | with_reducible apply Moves.foldl_snd
    | with_reducible apply Moves.foldl_fst | ((with_reducible apply Moves.snd); assumption)
    | ((with_reducible apply Moves.fst); assumption) | split | dsimp only

theorem execLoomGupdArm_moves (mask : BitVec 24) (s : State) :
    Goes [.regs, .loom] s (execLoomGupdArm mask s) := by
  unfold execLoomGupdArm
  repeat' first
    | with_reducible apply Moves.refl | ((with_reducible apply Within.of); exact rfl) | intro _
    | with_reducible apply Goes.next | with_reducible apply Goes.fault | with_reducible apply Goes.ite
    | with_reducible apply Moves.step (State.onBlk_moves (fs := [.regs, .loom]) (hf := ?_) ..)
    | with_reducible apply Moves.step (State.gupdArm_moves ..) | with_reducible apply Moves.ite
    | with_reducible apply Moves.foldl | with_reducible apply Moves.foldl_snd | with_reducible apply Moves.foldl_fst
    | ((with_reducible apply Moves.snd); assumption) | ((with_reducible apply Moves.fst); assumption) | split | dsimp only

theorem execLoomLock_moves (s : State) :
    Goes [.regs] s (execLoomLock s) := by
  unfold execLoomLock
  repeat' first
    | with_reducible apply Moves.refl | ((with_reducible apply Within.of); exact rfl) | intro _
    | with_reducible apply Goes.next | with_reducible apply Goes.fault | with_reducible apply Goes.ite
    | with_reducible apply Moves.step (State.onBlk_moves (fs := [.regs]) (hf := ?_) ..)
    | with_reducible apply Moves.step (State.setFlag_moves ..) | with_reducible apply Moves.ite
    | with_reducible apply Moves.foldl | with_reducible apply Moves.foldl_snd | with_reducible apply Moves.foldl_fst
    | ((with_reducible apply Moves.snd); assumption) | ((with_reducible apply Moves.fst); assumption) | split | dsimp only

theorem execLoomClockLoss_moves (s : State) :
    Goes [.regs, .live, .ladder, .fabric, .weft, .power, .time, .selv, .loom, .twill, .sense, .hs, .sal, .zw, .grid, .links, .ses, .thermal, .ledger, .can] s (execLoomClockLoss s) := by
  unfold execLoomClockLoss
  repeat' first
    | with_reducible apply Moves.refl | ((with_reducible apply Within.of); exact rfl) | intro _
    | with_reducible apply Goes.next | with_reducible apply Goes.fault | with_reducible apply Goes.ite
    | with_reducible apply Moves.step (State.onBlk_moves (fs := [.regs, .live, .ladder, .fabric, .weft, .power, .time, .selv, .loom, .twill, .sense, .hs, .sal, .zw, .grid, .links, .ses, .thermal, .ledger, .can]) (hf := ?_) ..)
    | with_reducible apply Moves.step (State.region_moves ..)
    | with_reducible apply Moves.step (State.eachCh_moves (fs := [.regs, .live, .ladder, .fabric, .weft, .power, .time, .selv, .loom, .twill, .sense, .hs, .sal, .zw, .grid, .links, .ses, .thermal, .ledger, .can]) (hf := ?_) ..)
    | with_reducible apply Moves.step (State.chFault_moves ..) | with_reducible apply Moves.ite
    | with_reducible apply Moves.foldl | with_reducible apply Moves.foldl_snd | with_reducible apply Moves.foldl_fst
    | ((with_reducible apply Moves.snd); assumption) | ((with_reducible apply Moves.fst); assumption) | split | dsimp only

theorem execLoomReadbackFault_moves (n : Fin 24) (s : State) :
    Goes [.regs, .ladder, .loom] s (execLoomReadbackFault n s) := by
  unfold execLoomReadbackFault
  repeat' first
    | with_reducible apply Moves.refl | ((with_reducible apply Within.of); exact rfl) | intro _
    | with_reducible apply Goes.next | with_reducible apply Goes.fault | with_reducible apply Goes.ite
    | with_reducible apply Moves.step (State.onBlk_moves (fs := [.regs, .ladder, .loom]) (hf := ?_) ..)
    | with_reducible apply Moves.step (State.contain_moves ..) | with_reducible apply Moves.step (State.chFault_moves ..)
    | with_reducible apply Moves.ite | with_reducible apply Moves.foldl | with_reducible apply Moves.foldl_snd
    | with_reducible apply Moves.foldl_fst | ((with_reducible apply Moves.snd); assumption)
    | ((with_reducible apply Moves.fst); assumption) | split | dsimp only

theorem execLoomConfigEcc_moves (n : Fin 24) (double : Bool) (s : State) :
    Goes [.regs, .ladder, .loom] s (execLoomConfigEcc n double s) := by
  unfold execLoomConfigEcc
  repeat' first
    | with_reducible apply Moves.refl | ((with_reducible apply Within.of); exact rfl) | intro _
    | with_reducible apply Goes.next | with_reducible apply Goes.fault | with_reducible apply Goes.ite
    | with_reducible apply Moves.step (State.onBlk_moves (fs := [.regs, .ladder, .loom]) (hf := ?_) ..)
    | with_reducible apply Moves.step (State.chFault_moves ..) | with_reducible apply Moves.step (State.contain_moves ..)
    | with_reducible apply Moves.step (State.setCh_moves ..) | with_reducible apply Moves.step (State.note_moves ..)
    | with_reducible apply Moves.ite | with_reducible apply Moves.foldl | with_reducible apply Moves.foldl_snd
    | with_reducible apply Moves.foldl_fst | ((with_reducible apply Moves.snd); assumption)
    | ((with_reducible apply Moves.fst); assumption) | split | dsimp only

theorem execLoomRecalibrate_moves (s : State) :
    Goes [.regs, .ladder] s (execLoomRecalibrate s) := by
  unfold execLoomRecalibrate
  repeat' first
    | with_reducible apply Moves.refl | ((with_reducible apply Within.of); exact rfl) | intro _
    | with_reducible apply Goes.next | with_reducible apply Goes.fault | with_reducible apply Goes.ite
    | with_reducible apply Moves.step (State.onBlk_moves (fs := [.regs, .ladder]) (hf := ?_) ..)
    | with_reducible apply Moves.step (State.note_moves ..) | with_reducible apply Moves.ite
    | with_reducible apply Moves.foldl | with_reducible apply Moves.foldl_snd | with_reducible apply Moves.foldl_fst
    | ((with_reducible apply Moves.snd); assumption) | ((with_reducible apply Moves.fst); assumption) | split | dsimp only

end Sys2Proof.Machine
end

