-- ==== Sys2Proof/Laws/MovesPowerCommands.lean ====
section
/-!
SUPPORT. Laws/MovesPowerCommands.lean: which parts of the state each operation of Machine/PowerCommands.lean moves.
-/
set_option Elab.async false
namespace Sys2Proof.Machine
set_option linter.all false

theorem execVinPowerFail_moves (samples : List (List (BitVec 24))) (s : State) :
    Goes [.regs, .live, .mem, .ladder, .fabric, .weft, .power, .startup, .time, .selv, .loom, .twill, .sense, .hs, .sal, .zw, .grid, .ks, .links, .ses, .thermal, .ledger, .can, .free] s (execVinPowerFail samples s) := by
  unfold execVinPowerFail
  repeat' first
    | with_reducible apply Moves.refl | ((with_reducible apply Within.of); exact rfl) | intro _
    | with_reducible apply Goes.next | with_reducible apply Goes.fault | with_reducible apply Goes.ite
    | with_reducible apply Moves.step (State.ledgerCut_moves ..)
    | with_reducible apply Moves.step (State.setPower_moves ..)
    | with_reducible apply Moves.step (State.assertHub_moves ..) | with_reducible apply Moves.ite
    | with_reducible apply Moves.foldl | with_reducible apply Moves.foldl_snd | with_reducible apply Moves.foldl_fst
    | ((with_reducible apply Moves.snd); assumption) | ((with_reducible apply Moves.fst); assumption) | split | dsimp only

theorem execVinStop_moves (s : State) :
    Goes [.regs, .live, .mem, .ecc, .ladder, .fabric, .weft, .power, .startup, .time, .selv, .loom, .twill, .sense, .hs, .sal, .zw, .grid, .ks, .links, .ses, .thermal, .ledger, .brine, .can] s (execVinStop s) := by
  unfold execVinStop
  repeat' first
    | with_reducible apply Moves.refl | ((with_reducible apply Within.of); exact rfl) | intro _
    | with_reducible apply Goes.next | with_reducible apply Goes.fault | with_reducible apply Goes.ite
    | with_reducible apply Moves.step (State.setFlag_moves ..) | with_reducible apply Moves.step (State.setPower_moves ..)
    | with_reducible apply Moves.step (State.powerOff_moves ..) | with_reducible apply Moves.step (State.aonSync_moves ..)
    | with_reducible apply Moves.ite | with_reducible apply Moves.foldl | with_reducible apply Moves.foldl_snd
    | with_reducible apply Moves.foldl_fst | ((with_reducible apply Moves.snd); assumption)
    | ((with_reducible apply Moves.fst); assumption) | split | dsimp only

theorem execVinOn_moves (s : State) :
    Goes [.regs, .live, .mem, .ecc, .ladder, .fabric, .weft, .power, .startup, .time, .selv, .loom, .twill, .sense, .hs, .sal, .zw, .grid, .ks, .links, .ses, .thermal, .ledger, .brine, .can] s (execVinOn s) := by
  unfold execVinOn
  repeat' first
    | with_reducible apply Moves.refl | ((with_reducible apply Within.of); exact rfl) | intro _
    | with_reducible apply Goes.next | with_reducible apply Goes.fault | with_reducible apply Goes.ite
    | with_reducible apply Moves.step (State.setPower_moves ..)
    | with_reducible apply Moves.step (State.powerOnAll_moves ..) | with_reducible apply Moves.ite
    | with_reducible apply Moves.foldl | with_reducible apply Moves.foldl_snd | with_reducible apply Moves.foldl_fst
    | ((with_reducible apply Moves.snd); assumption) | ((with_reducible apply Moves.fst); assumption) | split | dsimp only

theorem execVinValid_moves (s : State) :
    Goes [.regs, .live, .mem, .ecc, .ladder, .fabric, .weft, .power, .startup, .time, .selv, .loom, .twill, .sense, .hs, .sal, .zw, .grid, .ks, .links, .ses, .thermal, .ledger, .brine, .can] s (execVinValid s) := by
  unfold execVinValid
  repeat' first
    | with_reducible apply Moves.refl | ((with_reducible apply Within.of); exact rfl) | intro _
    | with_reducible apply Goes.next | with_reducible apply Goes.fault | with_reducible apply Goes.ite
    | with_reducible apply Moves.step (State.setPower_moves ..)
    | with_reducible apply Moves.step (State.releaseHub_moves ..)
    | with_reducible apply Moves.step (State.startUp_moves ..) | with_reducible apply Moves.ite
    | with_reducible apply Moves.foldl | with_reducible apply Moves.foldl_snd | with_reducible apply Moves.foldl_fst
    | ((with_reducible apply Moves.snd); assumption) | ((with_reducible apply Moves.fst); assumption) | split | dsimp only

theorem execPorAon_moves (s : State) :
    Goes [.regs, .live, .mem, .ecc, .ladder, .fabric, .weft, .power, .startup, .time, .selv, .loom, .twill, .sense, .hs, .sal, .zw, .grid, .ks, .links, .ses, .thermal, .ledger, .brine, .can] s (execPorAon s) := by
  unfold execPorAon
  repeat' first
    | with_reducible apply Moves.refl | ((with_reducible apply Within.of); exact rfl) | intro _
    | with_reducible apply Goes.next | with_reducible apply Goes.fault | with_reducible apply Goes.ite
    | with_reducible apply Moves.step (State.powerOnAll_moves ..)
    | with_reducible apply Moves.step (State.aonReset_moves ..) | with_reducible apply Moves.ite
    | with_reducible apply Moves.foldl | with_reducible apply Moves.foldl_snd | with_reducible apply Moves.foldl_fst
    | ((with_reducible apply Moves.snd); assumption) | ((with_reducible apply Moves.fst); assumption) | split | dsimp only

theorem State.pwrCtrlWrite_moves (s : State) (data : Word) :
    Moves [.regs, .live, .mem, .ecc, .ladder, .fabric, .weft, .power, .startup, .time, .selv, .loom, .twill, .sense, .hs, .sal, .zw, .grid, .ks, .links, .ses, .thermal, .ledger, .brine, .can] s (State.pwrCtrlWrite s data) := by
  unfold State.pwrCtrlWrite
  repeat' first
    | with_reducible apply Moves.refl | ((with_reducible apply Within.of); exact rfl) | intro _
    | with_reducible apply Moves.step (State.setFlag_moves ..) | with_reducible apply Moves.step (State.domWrite_moves ..)
    | with_reducible apply Moves.ite | with_reducible apply Moves.foldl | with_reducible apply Moves.foldl_snd
    | with_reducible apply Moves.foldl_fst | ((with_reducible apply Moves.snd); assumption)
    | ((with_reducible apply Moves.fst); assumption) | split | dsimp only

theorem execPwrCtrlWrite_moves (data : Word) (s : State) :
    Goes [.regs, .live, .mem, .ecc, .ladder, .fabric, .weft, .power, .startup, .time, .selv, .loom, .twill, .sense, .hs, .sal, .zw, .grid, .ks, .links, .ses, .thermal, .ledger, .brine, .can] s (execPwrCtrlWrite data s) := by
  unfold execPwrCtrlWrite
  repeat' first
    | with_reducible apply Moves.refl | ((with_reducible apply Within.of); exact rfl) | intro _
    | with_reducible apply Goes.next | with_reducible apply Goes.fault | with_reducible apply Goes.ite
    | with_reducible apply Moves.step (State.onBlk_moves (fs := [.regs, .live, .mem, .ecc, .ladder, .fabric, .weft, .power, .startup, .time, .selv, .loom, .twill, .sense, .hs, .sal, .zw, .grid, .ks, .links, .ses, .thermal, .ledger, .brine, .can]) (hf := ?_) ..)
    | with_reducible apply Moves.step (State.pwrCtrlWrite_moves ..) | with_reducible apply Moves.ite
    | with_reducible apply Moves.foldl | with_reducible apply Moves.foldl_snd | with_reducible apply Moves.foldl_fst
    | ((with_reducible apply Moves.snd); assumption) | ((with_reducible apply Moves.fst); assumption) | split | dsimp only

theorem execDomainSupplyFault_moves (dom : Fin 11) (s : State) :
    Goes [.regs, .live, .ladder, .fabric, .weft, .power, .time, .selv, .loom, .twill, .sense, .hs, .sal, .zw, .grid, .ks, .links, .ses, .thermal, .ledger, .can] s (execDomainSupplyFault dom s) := by
  unfold execDomainSupplyFault
  repeat' first
    | with_reducible apply Moves.refl | ((with_reducible apply Within.of); exact rfl) | intro _
    | with_reducible apply Goes.next | with_reducible apply Goes.fault | with_reducible apply Goes.ite
    | with_reducible apply Moves.step (State.onBlk_moves (fs := [.regs, .live, .ladder, .fabric, .weft, .power, .time, .selv, .loom, .twill, .sense, .hs, .sal, .zw, .grid, .ks, .links, .ses, .thermal, .ledger, .can]) (hf := ?_) ..)
    | with_reducible apply Moves.step (State.pairFault_moves ..)
    | with_reducible apply Moves.step (State.zeroise_moves ..) | with_reducible apply Moves.step (State.chip_moves ..)
    | with_reducible apply Moves.step (State.region_moves ..) | with_reducible apply Moves.ite
    | with_reducible apply Moves.foldl | with_reducible apply Moves.foldl_snd | with_reducible apply Moves.foldl_fst
    | ((with_reducible apply Moves.snd); assumption) | ((with_reducible apply Moves.fst); assumption) | split | dsimp only

theorem State.rtcChecked_moves (s : State) (missing : Bool) :
    Moves [.regs, .ladder, .power] s (State.rtcChecked s missing) := by
  unfold State.rtcChecked
  repeat' first
    | with_reducible apply Moves.refl | ((with_reducible apply Within.of); exact rfl) | intro _
    | with_reducible apply Moves.step (State.note_moves ..) | with_reducible apply Moves.step (State.setFlag_moves ..)
    | with_reducible apply Moves.step (State.aonSync_moves ..) | with_reducible apply Moves.step (State.setPower_moves ..)
    | with_reducible apply Moves.ite | with_reducible apply Moves.foldl | with_reducible apply Moves.foldl_snd
    | with_reducible apply Moves.foldl_fst | ((with_reducible apply Moves.snd); assumption)
    | ((with_reducible apply Moves.fst); assumption) | split | dsimp only

theorem State.clockFlag_moves (s : State) (c : Nat) :
    Moves [.regs] s (State.clockFlag s c) := by
  unfold State.clockFlag
  repeat' first
    | with_reducible apply Moves.refl | ((with_reducible apply Within.of); exact rfl) | intro _
    | with_reducible apply Moves.step (State.onBlk_moves (fs := [.regs]) (hf := ?_) ..)
    | with_reducible apply Moves.step (State.setBit_moves ..) | with_reducible apply Moves.ite
    | with_reducible apply Moves.foldl | with_reducible apply Moves.foldl_snd | with_reducible apply Moves.foldl_fst
    | ((with_reducible apply Moves.snd); assumption) | ((with_reducible apply Moves.fst); assumption) | split | dsimp only

theorem execClockFault_moves (row : Fin 12) (s : State) :
    Goes [.regs, .live, .ladder, .fabric, .weft, .power, .time, .selv, .loom, .twill, .sense, .hs, .sal, .zw, .grid, .ks, .links, .ses, .thermal, .ledger, .can] s (execClockFault row s) := by
  unfold execClockFault
  repeat' first
    | with_reducible apply Moves.refl | ((with_reducible apply Within.of); exact rfl) | intro _
    | with_reducible apply Goes.next | with_reducible apply Goes.fault | with_reducible apply Goes.ite
    | with_reducible apply Moves.step (State.onBlk_moves (fs := [.regs, .live, .ladder, .fabric, .weft, .power, .time, .selv, .loom, .twill, .sense, .hs, .sal, .zw, .grid, .ks, .links, .ses, .thermal, .ledger, .can]) (hf := ?_) ..)
    | with_reducible apply Moves.step (State.clockFlag_moves ..)
    | with_reducible apply Moves.step (State.pairFault_moves ..)
    | with_reducible apply Moves.step (State.zeroise_moves ..)
    | with_reducible apply Moves.step (State.rtcChecked_moves ..)
    | with_reducible apply Moves.step (State.setBit_moves ..) | with_reducible apply Moves.step (State.line_moves ..)
    | with_reducible apply Moves.step (State.chip_moves ..)
    | with_reducible apply Moves.step (State.eachCh_moves (fs := [.regs, .live, .ladder, .fabric, .weft, .power, .time, .selv, .loom, .twill, .sense, .hs, .sal, .zw, .grid, .ks, .links, .ses, .thermal, .ledger, .can]) (hf := ?_) ..)
    | with_reducible apply Moves.step (State.chFault_moves ..) | with_reducible apply Moves.step (State.region_moves ..)
    | with_reducible apply Moves.ite | with_reducible apply Moves.foldl | with_reducible apply Moves.foldl_snd
    | with_reducible apply Moves.foldl_fst | ((with_reducible apply Moves.snd); assumption)
    | ((with_reducible apply Moves.fst); assumption) | split | dsimp only

theorem execRefclkLost_moves (s : State) :
    Goes [.regs, .ladder, .weft, .power, .time] s (execRefclkLost s) := by
  unfold execRefclkLost
  repeat' first
    | with_reducible apply Moves.refl | ((with_reducible apply Within.of); exact rfl) | intro _
    | with_reducible apply Goes.next | with_reducible apply Goes.fault | with_reducible apply Goes.ite
    | with_reducible apply Moves.step (State.setPower_moves ..)
    | with_reducible apply Moves.step (State.tbToHoldover_moves ..)
    | with_reducible apply Moves.step (State.onBlk_moves (fs := [.regs, .ladder, .weft, .power, .time]) (hf := ?_) ..)
    | with_reducible apply Moves.step (State.contain_moves ..) | with_reducible apply Moves.step (State.setFlag_moves ..)
    | with_reducible apply Moves.ite | with_reducible apply Moves.foldl | with_reducible apply Moves.foldl_snd
    | with_reducible apply Moves.foldl_fst | ((with_reducible apply Moves.snd); assumption)
    | ((with_reducible apply Moves.fst); assumption) | split | dsimp only

theorem execRefclkReturn_moves (s : State) :
    Goes [.regs, .ladder, .weft, .power] s (execRefclkReturn s) := by
  unfold execRefclkReturn
  repeat' first
    | with_reducible apply Moves.refl | ((with_reducible apply Within.of); exact rfl) | intro _
    | with_reducible apply Goes.next | with_reducible apply Goes.fault | with_reducible apply Goes.ite
    | with_reducible apply Moves.step (State.setPower_moves ..) | with_reducible apply Moves.step (State.setFlag_moves ..)
    | with_reducible apply Moves.step (State.onBlk_moves (fs := [.regs, .ladder, .weft, .power]) (hf := ?_) ..)
    | with_reducible apply Moves.step (State.line_moves ..) | with_reducible apply Moves.step (State.recovers_moves ..)
    | with_reducible apply Moves.ite | with_reducible apply Moves.foldl | with_reducible apply Moves.foldl_snd
    | with_reducible apply Moves.foldl_fst | ((with_reducible apply Moves.snd); assumption)
    | ((with_reducible apply Moves.fst); assumption) | split | dsimp only

theorem execRtcCheck_moves (missing : Bool) (s : State) :
    Goes [.regs, .ladder, .power] s (execRtcCheck missing s) := by
  unfold execRtcCheck
  repeat' first
    | with_reducible apply Moves.refl | ((with_reducible apply Within.of); exact rfl) | intro _
    | with_reducible apply Goes.next | with_reducible apply Goes.fault | with_reducible apply Goes.ite
    | with_reducible apply Moves.step (State.onBlk_moves (fs := [.regs, .ladder, .power]) (hf := ?_) ..)
    | with_reducible apply Moves.step (State.setBit_moves ..)
    | with_reducible apply Moves.step (State.rtcChecked_moves ..) | with_reducible apply Moves.ite
    | with_reducible apply Moves.foldl | with_reducible apply Moves.foldl_snd | with_reducible apply Moves.foldl_fst
    | ((with_reducible apply Moves.snd); assumption) | ((with_reducible apply Moves.fst); assumption) | split | dsimp only

theorem execResetPin_moves (s : State) :
    Goes [.regs, .live, .ladder, .fabric, .weft, .power, .startup, .time, .selv, .loom, .twill, .sense, .hs, .sal, .zw, .grid, .ks, .links, .ses, .thermal, .can] s (execResetPin s) := by
  unfold execResetPin
  repeat' first
    | with_reducible apply Moves.refl | ((with_reducible apply Within.of); exact rfl) | intro _
    | with_reducible apply Goes.next | with_reducible apply Goes.fault | with_reducible apply Goes.ite
    | with_reducible apply Moves.step (State.setPower_moves ..)
    | with_reducible apply Moves.step (State.assertHub_moves ..) | with_reducible apply Moves.ite
    | with_reducible apply Moves.foldl | with_reducible apply Moves.foldl_snd | with_reducible apply Moves.foldl_fst
    | ((with_reducible apply Moves.snd); assumption) | ((with_reducible apply Moves.fst); assumption) | split | dsimp only

theorem execResetPinRelease_moves (s : State) :
    Goes [.regs, .live, .mem, .ecc, .ladder, .fabric, .weft, .power, .startup, .time, .selv, .loom, .twill, .sense, .hs, .sal, .zw, .grid, .ks, .links, .ses, .thermal, .ledger, .brine, .can] s (execResetPinRelease s) := by
  unfold execResetPinRelease
  repeat' first
    | with_reducible apply Moves.refl | ((with_reducible apply Within.of); exact rfl) | intro _
    | with_reducible apply Goes.next | with_reducible apply Goes.fault | with_reducible apply Goes.ite
    | with_reducible apply Moves.step (State.releaseHub_moves ..)
    | with_reducible apply Moves.step (State.setPower_moves ..) | with_reducible apply Moves.ite
    | with_reducible apply Moves.foldl | with_reducible apply Moves.foldl_snd | with_reducible apply Moves.foldl_fst
    | ((with_reducible apply Moves.snd); assumption) | ((with_reducible apply Moves.fst); assumption) | split | dsimp only

theorem execRstCmdHub_moves (key : BitVec 16) (s : State) :
    Goes [.regs, .live, .mem, .ecc, .ladder, .fabric, .weft, .power, .startup, .time, .selv, .loom, .twill, .sense, .hs, .sal, .zw, .grid, .ks, .links, .ses, .thermal, .ledger, .brine, .can] s (execRstCmdHub key s) := by
  unfold execRstCmdHub
  repeat' first
    | with_reducible apply Moves.refl | ((with_reducible apply Within.of); exact rfl) | intro _
    | with_reducible apply Goes.next | with_reducible apply Goes.fault | with_reducible apply Goes.ite
    | with_reducible apply Moves.step (State.onBlk_moves (fs := [.regs, .live, .mem, .ecc, .ladder, .fabric, .weft, .power, .startup, .time, .selv, .loom, .twill, .sense, .hs, .sal, .zw, .grid, .ks, .links, .ses, .thermal, .ledger, .brine, .can]) (hf := ?_) ..)
    | with_reducible apply Moves.step (State.hubResetBy_moves ..) | with_reducible apply Moves.ite
    | with_reducible apply Moves.foldl | with_reducible apply Moves.foldl_snd | with_reducible apply Moves.foldl_fst
    | ((with_reducible apply Moves.snd); assumption) | ((with_reducible apply Moves.fst); assumption) | split | dsimp only

theorem State.resetRegions_moves (s : State) (regs : Nat) :
    Moves [.regs, .live, .ladder, .fabric, .weft, .time, .selv, .loom, .twill, .sense, .hs, .sal, .zw, .grid, .links, .ses, .thermal, .ledger, .can] s (State.resetRegions s regs) := by
  unfold State.resetRegions
  repeat' first
    | with_reducible apply Moves.refl | ((with_reducible apply Within.of); exact rfl) | intro _
    | with_reducible apply Moves.step (orderRegionReset_moves ..) | with_reducible apply Moves.ite
    | with_reducible apply Moves.foldl | with_reducible apply Moves.foldl_snd | with_reducible apply Moves.foldl_fst
    | ((with_reducible apply Moves.snd); assumption) | ((with_reducible apply Moves.fst); assumption) | split | dsimp only

theorem execRstCmdRegion_moves (key : BitVec 16) (regs : BitVec 4) (s : State) :
    Goes [.regs, .live, .ladder, .fabric, .weft, .time, .selv, .loom, .twill, .sense, .hs, .sal, .zw, .grid, .links, .ses, .thermal, .ledger, .can] s (execRstCmdRegion key regs s) := by
  unfold execRstCmdRegion
  repeat' first
    | with_reducible apply Moves.refl | ((with_reducible apply Within.of); exact rfl) | intro _
    | with_reducible apply Goes.next | with_reducible apply Goes.fault | with_reducible apply Goes.ite
    | with_reducible apply Moves.step (State.onBlk_moves (fs := [.regs, .live, .ladder, .fabric, .weft, .time, .selv, .loom, .twill, .sense, .hs, .sal, .zw, .grid, .links, .ses, .thermal, .ledger, .can]) (hf := ?_) ..)
    | with_reducible apply Moves.step (State.resetRegions_moves ..) | with_reducible apply Moves.ite
    | with_reducible apply Moves.foldl | with_reducible apply Moves.foldl_snd | with_reducible apply Moves.foldl_fst
    | ((with_reducible apply Moves.snd); assumption) | ((with_reducible apply Moves.fst); assumption) | split | dsimp only

theorem execDebugReset_moves (s : State) :
    Goes [.regs, .live, .mem, .ecc, .ladder, .fabric, .weft, .power, .startup, .time, .selv, .loom, .twill, .sense, .hs, .sal, .zw, .grid, .ks, .links, .ses, .thermal, .ledger, .brine, .can] s (execDebugReset s) := by
  unfold execDebugReset
  repeat' first
    | with_reducible apply Moves.refl | ((with_reducible apply Within.of); exact rfl) | intro _
    | with_reducible apply Goes.next | with_reducible apply Goes.fault | with_reducible apply Goes.ite
    | with_reducible apply Moves.step (State.onBlk_moves (fs := [.regs, .live, .mem, .ecc, .ladder, .fabric, .weft, .power, .startup, .time, .selv, .loom, .twill, .sense, .hs, .sal, .zw, .grid, .ks, .links, .ses, .thermal, .ledger, .brine, .can]) (hf := ?_) ..)
    | with_reducible apply Moves.step (State.hubResetBy_moves ..) | with_reducible apply Moves.ite
    | with_reducible apply Moves.foldl | with_reducible apply Moves.foldl_snd | with_reducible apply Moves.foldl_fst
    | ((with_reducible apply Moves.snd); assumption) | ((with_reducible apply Moves.fst); assumption) | split | dsimp only

theorem execVbatLow_moves (mv : BitVec 12) (s : State) :
    Goes [.regs, .ladder, .weft] s (execVbatLow mv s) := by
  unfold execVbatLow
  repeat' first
    | with_reducible apply Moves.refl | ((with_reducible apply Within.of); exact rfl) | intro _
    | with_reducible apply Goes.next | with_reducible apply Goes.fault | with_reducible apply Goes.ite
    | with_reducible apply Moves.step (State.onBlk_moves (fs := [.regs, .ladder, .weft]) (hf := ?_) ..)
    | with_reducible apply Moves.step (State.setFld_moves ..) | with_reducible apply Moves.step (State.line_moves ..)
    | with_reducible apply Moves.step (State.note_moves ..) | with_reducible apply Moves.step (State.setFlag_moves ..)
    | with_reducible apply Moves.ite | with_reducible apply Moves.foldl | with_reducible apply Moves.foldl_snd
    | with_reducible apply Moves.foldl_fst | ((with_reducible apply Moves.snd); assumption)
    | ((with_reducible apply Moves.fst); assumption) | split | dsimp only

theorem execVbatLowClear_moves (mv : BitVec 12) (ms : Nat) (s : State) :
    Goes [.regs] s (execVbatLowClear mv ms s) := by
  unfold execVbatLowClear
  repeat' first
    | with_reducible apply Moves.refl | ((with_reducible apply Within.of); exact rfl) | intro _
    | with_reducible apply Goes.next | with_reducible apply Goes.fault | with_reducible apply Goes.ite
    | with_reducible apply Moves.step (State.onBlk_moves (fs := [.regs]) (hf := ?_) ..)
    | with_reducible apply Moves.step (State.setFlag_moves ..) | with_reducible apply Moves.step (State.setFld_moves ..)
    | with_reducible apply Moves.ite | with_reducible apply Moves.foldl | with_reducible apply Moves.foldl_snd
    | with_reducible apply Moves.foldl_fst | ((with_reducible apply Moves.snd); assumption)
    | ((with_reducible apply Moves.fst); assumption) | split | dsimp only

end Sys2Proof.Machine
end

