-- ==== Sys2Proof/Laws/MovesPtpCommands.lean ====
section
/-!
SUPPORT. Laws/MovesPtpCommands.lean: which parts of the state each operation of Machine/PtpCommands.lean moves.
-/
set_option Elab.async false
namespace Sys2Proof.Machine
set_option linter.all false

theorem State.setPtpPort_moves (s : State) (p : Nat) (x : PtpPort) :
    Moves [.time] s (State.setPtpPort s p x) := by
  unfold State.setPtpPort
  repeat' first
    | with_reducible apply Moves.refl | ((with_reducible apply Within.of); exact rfl) | intro _
    | with_reducible apply Moves.step (State.setTime_moves ..) | with_reducible apply Moves.ite
    | with_reducible apply Moves.foldl | with_reducible apply Moves.foldl_snd | with_reducible apply Moves.foldl_fst
    | ((with_reducible apply Moves.snd); assumption) | ((with_reducible apply Moves.fst); assumption) | split | dsimp only

theorem State.showTxts_moves (s : State) (p : Nat) :
    Moves [.regs] s (State.showTxts s p) := by
  unfold State.showTxts
  repeat' first
    | with_reducible apply Moves.refl | ((with_reducible apply Within.of); exact rfl) | intro _
    | with_reducible apply Moves.step (State.wrNat_moves ..) | with_reducible apply Moves.step (State.wr_moves ..)
    | with_reducible apply Moves.ite | with_reducible apply Moves.foldl | with_reducible apply Moves.foldl_snd
    | with_reducible apply Moves.foldl_fst | ((with_reducible apply Moves.snd); assumption)
    | ((with_reducible apply Moves.fst); assumption) | split | dsimp only

theorem State.txStamp_moves (s : State) (p kind seq at_ : Nat) :
    Moves [.regs, .ladder, .time] s (State.txStamp s p kind seq at_) := by
  unfold State.txStamp
  repeat' first
    | with_reducible apply Moves.refl | ((with_reducible apply Within.of); exact rfl) | intro _
    | with_reducible apply Moves.step (State.note_moves ..) | with_reducible apply Moves.step (State.showTxts_moves ..)
    | with_reducible apply Moves.step (State.setPtpPort_moves ..) | with_reducible apply Moves.ite
    | with_reducible apply Moves.foldl | with_reducible apply Moves.foldl_snd | with_reducible apply Moves.foldl_fst
    | ((with_reducible apply Moves.snd); assumption) | ((with_reducible apply Moves.fst); assumption) | split | dsimp only

theorem State.ptpOffset_moves (s : State) (θ : Int) :
    Moves [.time] s (State.ptpOffset s θ) := by
  unfold State.ptpOffset
  repeat' first
    | with_reducible apply Moves.refl | ((with_reducible apply Within.of); exact rfl) | intro _
    | with_reducible apply Moves.step (State.setTb_moves ..) | with_reducible apply Moves.ite
    | with_reducible apply Moves.foldl | with_reducible apply Moves.foldl_snd | with_reducible apply Moves.foldl_fst
    | ((with_reducible apply Moves.snd); assumption) | ((with_reducible apply Moves.fst); assumption) | split | dsimp only

theorem State.syncOffset_moves (s : State) (p : Nat) (stamp origin corr : Int) :
    Moves [.time] s (State.syncOffset s p stamp origin corr) := by
  unfold State.syncOffset
  repeat' first
    | with_reducible apply Moves.refl | ((with_reducible apply Within.of); exact rfl) | intro _
    | with_reducible apply Moves.step (State.ptpOffset_moves ..)
    | with_reducible apply Moves.step (State.setPtpPort_moves ..) | with_reducible apply Moves.ite
    | with_reducible apply Moves.foldl | with_reducible apply Moves.foldl_snd | with_reducible apply Moves.foldl_fst
    | ((with_reducible apply Moves.snd); assumption) | ((with_reducible apply Moves.fst); assumption) | split | dsimp only

theorem State.tcSync_moves (s : State) (p : Nat) (m : PtpMsg) :
    Moves [.time, .out, .free] s (State.tcSync s p m) := by
  unfold State.tcSync
  repeat' first
    | with_reducible apply Moves.refl | ((with_reducible apply Within.of); exact rfl) | intro _
    | with_reducible apply Moves.step (State.took_moves ..) | with_reducible apply Moves.step (State.emit_moves ..)
    | with_reducible apply Moves.step (State.setTime_moves ..) | with_reducible apply Moves.ite
    | with_reducible apply Moves.foldl | with_reducible apply Moves.foldl_snd | with_reducible apply Moves.foldl_fst
    | ((with_reducible apply Moves.snd); assumption) | ((with_reducible apply Moves.fst); assumption) | split | dsimp only

theorem State.tcForward_moves (s : State) (p : Nat) (m : PtpMsg) :
    Moves [.out, .free] s (State.tcForward s p m) := by
  unfold State.tcForward
  repeat' first
    | with_reducible apply Moves.refl | ((with_reducible apply Within.of); exact rfl) | intro _
    | with_reducible apply Moves.step (State.emit_moves ..) | with_reducible apply Moves.step (State.took_moves ..)
    | with_reducible apply Moves.ite | with_reducible apply Moves.foldl | with_reducible apply Moves.foldl_snd
    | with_reducible apply Moves.foldl_fst | ((with_reducible apply Moves.snd); assumption)
    | ((with_reducible apply Moves.fst); assumption) | split | dsimp only

theorem State.pdelayAnswer_moves (s : State) (p : Nat) (m : PtpMsg) (t2 : Int) :
    Moves [.regs, .ladder, .time, .out, .free] s (State.pdelayAnswer s p m t2) := by
  unfold State.pdelayAnswer
  repeat' first
    | with_reducible apply Moves.refl | ((with_reducible apply Within.of); exact rfl) | intro _
    | with_reducible apply Moves.step (State.took_moves ..) | with_reducible apply Moves.step (State.emit_moves ..)
    | with_reducible apply Moves.step (State.txStamp_moves ..) | with_reducible apply Moves.ite
    | with_reducible apply Moves.foldl | with_reducible apply Moves.foldl_snd | with_reducible apply Moves.foldl_fst
    | ((with_reducible apply Moves.snd); assumption) | ((with_reducible apply Moves.fst); assumption) | split | dsimp only

theorem State.delayAnswer_moves (s : State) (p : Nat) (m : PtpMsg) :
    Moves [.out] s (State.delayAnswer s p m) := by
  unfold State.delayAnswer
  repeat' first
    | with_reducible apply Moves.refl | ((with_reducible apply Within.of); exact rfl) | intro _
    | with_reducible apply Moves.step (State.emit_moves ..) | with_reducible apply Moves.ite
    | with_reducible apply Moves.foldl | with_reducible apply Moves.foldl_snd | with_reducible apply Moves.foldl_fst
    | ((with_reducible apply Moves.snd); assumption) | ((with_reducible apply Moves.fst); assumption) | split | dsimp only

theorem State.setPdelay_moves (s : State) (p : Nat) (d : Int) :
    Moves [.regs] s (State.setPdelay s p d) := by
  unfold State.setPdelay
  repeat' first
    | with_reducible apply Moves.refl | ((with_reducible apply Within.of); exact rfl) | intro _
    | with_reducible apply Moves.step (State.wr_moves ..) | with_reducible apply Moves.ite
    | with_reducible apply Moves.foldl | with_reducible apply Moves.foldl_snd | with_reducible apply Moves.foldl_fst
    | ((with_reducible apply Moves.snd); assumption) | ((with_reducible apply Moves.fst); assumption) | split | dsimp only

theorem State.pdelayResp_moves (s : State) (p : Nat) (m : PtpMsg) (t4 : Int) :
    Moves [.regs, .time] s (State.pdelayResp s p m t4) := by
  unfold State.pdelayResp
  repeat' first
    | with_reducible apply Moves.refl | ((with_reducible apply Within.of); exact rfl) | intro _
    | with_reducible apply Moves.step (State.setPtpPort_moves ..)
    | with_reducible apply Moves.step (State.setPdelay_moves ..) | with_reducible apply Moves.ite
    | with_reducible apply Moves.foldl | with_reducible apply Moves.foldl_snd | with_reducible apply Moves.foldl_fst
    | ((with_reducible apply Moves.snd); assumption) | ((with_reducible apply Moves.fst); assumption) | split | dsimp only

theorem State.delayResp_moves (s : State) (p : Nat) (m : PtpMsg) :
    Moves [.regs, .time] s (State.delayResp s p m) := by
  unfold State.delayResp
  repeat' first
    | with_reducible apply Moves.refl | ((with_reducible apply Within.of); exact rfl) | intro _
    | with_reducible apply Moves.step (State.setPdelay_moves ..)
    | with_reducible apply Moves.step (State.setPtpPort_moves ..) | with_reducible apply Moves.ite
    | with_reducible apply Moves.foldl | with_reducible apply Moves.foldl_snd | with_reducible apply Moves.foldl_fst
    | ((with_reducible apply Moves.snd); assumption) | ((with_reducible apply Moves.fst); assumption) | split | dsimp only

theorem execPtpEventRx_moves (p : Fin 2) (m : PtpMsg) (s : State) :
    Goes [.regs, .ladder, .time, .out, .free] s (execPtpEventRx p m s) := by
  unfold execPtpEventRx
  repeat' first
    | with_reducible apply Moves.refl | ((with_reducible apply Within.of); exact rfl) | intro _
    | with_reducible apply Goes.next | with_reducible apply Goes.fault | with_reducible apply Goes.ite
    | with_reducible apply Moves.step (State.onBlk_moves (fs := [.regs, .ladder, .time, .out, .free]) (hf := ?_) ..)
    | with_reducible apply Moves.step (State.tcSync_moves ..)
    | with_reducible apply Moves.step (State.setPtpPort_moves ..)
    | with_reducible apply Moves.step (State.syncOffset_moves ..)
    | with_reducible apply Moves.step (State.tcForward_moves ..)
    | with_reducible apply Moves.step (State.delayAnswer_moves ..)
    | with_reducible apply Moves.step (State.pdelayAnswer_moves ..)
    | with_reducible apply Moves.step (State.pdelayResp_moves ..) | with_reducible apply Moves.ite
    | with_reducible apply Moves.foldl | with_reducible apply Moves.foldl_snd | with_reducible apply Moves.foldl_fst
    | ((with_reducible apply Moves.snd); assumption) | ((with_reducible apply Moves.fst); assumption) | split | dsimp only

theorem execPtpSyncSend_moves (p : Fin 2) (s : State) :
    Goes [.regs, .ladder, .time, .out] s (execPtpSyncSend p s) := by
  unfold execPtpSyncSend
  repeat' first
    | with_reducible apply Moves.refl | ((with_reducible apply Within.of); exact rfl) | intro _
    | with_reducible apply Goes.next | with_reducible apply Goes.fault | with_reducible apply Goes.ite
    | with_reducible apply Moves.step (State.onBlk_moves (fs := [.regs, .ladder, .time, .out]) (hf := ?_) ..)
    | with_reducible apply Moves.step (State.setPtpPort_moves ..)
    | with_reducible apply Moves.step (State.txStamp_moves ..) | with_reducible apply Moves.step (State.emit_moves ..)
    | with_reducible apply Moves.ite | with_reducible apply Moves.foldl | with_reducible apply Moves.foldl_snd
    | with_reducible apply Moves.foldl_fst | ((with_reducible apply Moves.snd); assumption)
    | ((with_reducible apply Moves.fst); assumption) | split | dsimp only

theorem execTcFollowupTimeout_moves (s : State) :
    Goes [.regs, .time] s (execTcFollowupTimeout s) := by
  unfold execTcFollowupTimeout
  repeat' first
    | with_reducible apply Moves.refl | ((with_reducible apply Within.of); exact rfl) | intro _
    | with_reducible apply Goes.next | with_reducible apply Goes.fault | with_reducible apply Goes.ite
    | with_reducible apply Moves.step (State.onBlk_moves (fs := [.regs, .time]) (hf := ?_) ..)
    | with_reducible apply Moves.step (State.setTime_moves ..) | with_reducible apply Moves.step (State.bump_moves ..)
    | with_reducible apply Moves.ite | with_reducible apply Moves.foldl | with_reducible apply Moves.foldl_snd
    | with_reducible apply Moves.foldl_fst | ((with_reducible apply Moves.snd); assumption)
    | ((with_reducible apply Moves.fst); assumption) | split | dsimp only

theorem State.txtsTake_moves (s : State) (p : Nat) :
    Moves [.regs, .time] s (State.txtsTake s p) := by
  unfold State.txtsTake
  repeat' first
    | with_reducible apply Moves.refl | ((with_reducible apply Within.of); exact rfl) | intro _
    | with_reducible apply Moves.step (State.wrNat_moves ..) | with_reducible apply Moves.step (State.showTxts_moves ..)
    | with_reducible apply Moves.step (State.setPtpPort_moves ..) | with_reducible apply Moves.ite
    | with_reducible apply Moves.foldl | with_reducible apply Moves.foldl_snd | with_reducible apply Moves.foldl_fst
    | ((with_reducible apply Moves.snd); assumption) | ((with_reducible apply Moves.fst); assumption) | split | dsimp only

theorem execPtpTxtsRead_moves (p : Fin 2) (s : State) :
    Goes [.regs, .time] s (execPtpTxtsRead p s) := by
  unfold execPtpTxtsRead
  repeat' first
    | with_reducible apply Moves.refl | ((with_reducible apply Within.of); exact rfl) | intro _
    | with_reducible apply Goes.next | with_reducible apply Goes.fault | with_reducible apply Goes.ite
    | with_reducible apply Moves.step (State.onBlk_moves (fs := [.regs, .time]) (hf := ?_) ..)
    | with_reducible apply Moves.step (State.txtsTake_moves ..) | with_reducible apply Moves.ite
    | with_reducible apply Moves.foldl | with_reducible apply Moves.foldl_snd | with_reducible apply Moves.foldl_fst
    | ((with_reducible apply Moves.snd); assumption) | ((with_reducible apply Moves.fst); assumption) | split | dsimp only

theorem State.ptpPortWrite_moves (s : State) (p st : Nat) :
    Moves [.regs, .ladder, .time] s (State.ptpPortWrite s p st) := by
  unfold State.ptpPortWrite
  repeat' first
    | with_reducible apply Moves.refl | ((with_reducible apply Within.of); exact rfl) | intro _
    | with_reducible apply Moves.step (State.setFld_moves ..)
    | with_reducible apply Moves.step (State.recoversCell_moves ..)
    | with_reducible apply Moves.step (State.setPtpPort_moves ..) | with_reducible apply Moves.ite
    | with_reducible apply Moves.foldl | with_reducible apply Moves.foldl_snd | with_reducible apply Moves.foldl_fst
    | ((with_reducible apply Moves.snd); assumption) | ((with_reducible apply Moves.fst); assumption) | split | dsimp only

theorem execPtpPortState_moves (p : Fin 2) (st : BitVec 2) (s : State) :
    Goes [.regs, .ladder, .time] s (execPtpPortState p st s) := by
  unfold execPtpPortState
  repeat' first
    | with_reducible apply Moves.refl | ((with_reducible apply Within.of); exact rfl) | intro _
    | with_reducible apply Goes.next | with_reducible apply Goes.fault | with_reducible apply Goes.ite
    | with_reducible apply Moves.step (State.onBlk_moves (fs := [.regs, .ladder, .time]) (hf := ?_) ..)
    | with_reducible apply Moves.step (State.ptpPortWrite_moves ..) | with_reducible apply Moves.ite
    | with_reducible apply Moves.foldl | with_reducible apply Moves.foldl_snd | with_reducible apply Moves.foldl_fst
    | ((with_reducible apply Moves.snd); assumption) | ((with_reducible apply Moves.fst); assumption) | split | dsimp only

theorem execPtpSelfcheckFail_moves (p : Fin 2) (s : State) :
    Goes [.regs, .ladder, .time] s (execPtpSelfcheckFail p s) := by
  unfold execPtpSelfcheckFail
  repeat' first
    | with_reducible apply Moves.refl | ((with_reducible apply Within.of); exact rfl) | intro _
    | with_reducible apply Goes.next | with_reducible apply Goes.fault | with_reducible apply Goes.ite
    | with_reducible apply Moves.step (State.onBlk_moves (fs := [.regs, .ladder, .time]) (hf := ?_) ..)
    | with_reducible apply Moves.step (State.contain_moves ..)
    | with_reducible apply Moves.step (State.setPtpPort_moves ..) | with_reducible apply Moves.ite
    | with_reducible apply Moves.foldl | with_reducible apply Moves.foldl_snd | with_reducible apply Moves.foldl_fst
    | ((with_reducible apply Moves.snd); assumption) | ((with_reducible apply Moves.fst); assumption) | split | dsimp only

theorem execPtpPdelayReqSend_moves (p : Fin 2) (s : State) :
    Goes [.regs, .ladder, .time, .out] s (execPtpPdelayReqSend p s) := by
  unfold execPtpPdelayReqSend
  repeat' first
    | with_reducible apply Moves.refl | ((with_reducible apply Within.of); exact rfl) | intro _
    | with_reducible apply Goes.next | with_reducible apply Goes.fault | with_reducible apply Goes.ite
    | with_reducible apply Moves.step (State.onBlk_moves (fs := [.regs, .ladder, .time, .out]) (hf := ?_) ..)
    | with_reducible apply Moves.step (State.setPtpPort_moves ..)
    | with_reducible apply Moves.step (State.txStamp_moves ..) | with_reducible apply Moves.step (State.emit_moves ..)
    | with_reducible apply Moves.ite | with_reducible apply Moves.foldl | with_reducible apply Moves.foldl_snd
    | with_reducible apply Moves.foldl_fst | ((with_reducible apply Moves.snd); assumption)
    | ((with_reducible apply Moves.fst); assumption) | split | dsimp only

theorem State.tcFollow_moves (s : State) (p : Nat) (m : PtpMsg) :
    Moves [.regs, .time, .out] s (State.tcFollow s p m) := by
  unfold State.tcFollow
  repeat' first
    | with_reducible apply Moves.refl | ((with_reducible apply Within.of); exact rfl) | intro _
    | with_reducible apply Moves.step (State.setTime_moves ..) | with_reducible apply Moves.step (State.emit_moves ..)
    | with_reducible apply Moves.step (State.bump_moves ..) | with_reducible apply Moves.ite
    | with_reducible apply Moves.foldl | with_reducible apply Moves.foldl_snd | with_reducible apply Moves.foldl_fst
    | ((with_reducible apply Moves.snd); assumption) | ((with_reducible apply Moves.fst); assumption) | split | dsimp only

theorem execPtpFollowUpRx_moves (p : Fin 2) (m : PtpMsg) (s : State) :
    Goes [.regs, .time, .out] s (execPtpFollowUpRx p m s) := by
  unfold execPtpFollowUpRx
  repeat' first
    | with_reducible apply Moves.refl | ((with_reducible apply Within.of); exact rfl) | intro _
    | with_reducible apply Goes.next | with_reducible apply Goes.fault | with_reducible apply Goes.ite
    | with_reducible apply Moves.step (State.onBlk_moves (fs := [.regs, .time, .out]) (hf := ?_) ..)
    | with_reducible apply Moves.step (State.tcFollow_moves ..)
    | with_reducible apply Moves.step (State.syncOffset_moves ..)
    | with_reducible apply Moves.step (State.setPtpPort_moves ..)
    | with_reducible apply Moves.step (State.setPdelay_moves ..)
    | with_reducible apply Moves.step (State.delayResp_moves ..) | with_reducible apply Moves.ite
    | with_reducible apply Moves.foldl | with_reducible apply Moves.foldl_snd | with_reducible apply Moves.foldl_fst
    | ((with_reducible apply Moves.snd); assumption) | ((with_reducible apply Moves.fst); assumption) | split | dsimp only

end Sys2Proof.Machine
end

