-- ==== Sys2Proof/Laws/MovesSalternCommands.lean ====
section
/-!
SUPPORT. Laws/MovesSalternCommands.lean: which parts of the state each operation of Machine/SalternCommands.lean moves.
-/
set_option Elab.async false
namespace Sys2Proof.Machine
set_option linter.all false

theorem execSalModeWrite_moves (data : BitVec 2) (s : State) :
    Goes [.regs] s (execSalModeWrite data s) := by
  unfold execSalModeWrite
  repeat' first
    | with_reducible apply Moves.refl | ((with_reducible apply Within.of); exact rfl) | intro _
    | with_reducible apply Goes.next | with_reducible apply Goes.fault | with_reducible apply Goes.ite
    | with_reducible apply Moves.step (State.salMode_moves ..) | with_reducible apply Moves.ite
    | with_reducible apply Moves.foldl | with_reducible apply Moves.foldl_snd | with_reducible apply Moves.foldl_fst
    | ((with_reducible apply Moves.snd); assumption) | ((with_reducible apply Moves.fst); assumption) | split | dsimp only

theorem State.solveStart_moves (s : State) (b : Nat) :
    Moves [.regs, .live, .ladder, .weft, .sal] s (State.solveStart s b) := by
  unfold State.solveStart
  repeat' first
    | with_reducible apply Moves.refl | ((with_reducible apply Within.of); exact rfl) | intro _
    | with_reducible apply Moves.step (State.salCommit_moves ..)
    | with_reducible apply Moves.step (State.salEmergency_moves ..)
    | with_reducible apply Moves.step (State.salFreshness_moves ..)
    | with_reducible apply Moves.step (State.setFlag_moves ..) | with_reducible apply Moves.step (State.setSal_moves ..)
    | with_reducible apply Moves.ite | with_reducible apply Moves.foldl | with_reducible apply Moves.foldl_snd
    | with_reducible apply Moves.foldl_fst | ((with_reducible apply Moves.snd); assumption)
    | ((with_reducible apply Moves.fst); assumption) | split | dsimp only

theorem execSalternBoundary_moves (s : State) :
    Goes [.regs, .live, .ladder, .weft, .sal] s (execSalternBoundary s) := by
  unfold execSalternBoundary
  repeat' first
    | with_reducible apply Moves.refl | ((with_reducible apply Within.of); exact rfl) | intro _
    | with_reducible apply Goes.next | with_reducible apply Goes.fault | with_reducible apply Goes.ite
    | with_reducible apply Moves.step (State.onBlk_moves (fs := [.regs, .live, .ladder, .weft, .sal]) (hf := ?_) ..)
    | with_reducible apply Moves.step (State.setSal_moves ..) | with_reducible apply Moves.step (State.contain_moves ..)
    | with_reducible apply Moves.step (State.salAbort_moves ..) | with_reducible apply Moves.step (State.setSets_moves ..)
    | with_reducible apply Moves.step (State.solveStart_moves ..)
    | with_reducible apply Moves.step (State.salCommit_moves ..) | with_reducible apply Moves.ite
    | with_reducible apply Moves.foldl | with_reducible apply Moves.foldl_snd | with_reducible apply Moves.foldl_fst
    | ((with_reducible apply Moves.snd); assumption) | ((with_reducible apply Moves.fst); assumption) | split | dsimp only

theorem execSolveComplete_moves (s : State) :
    Goes [.regs, .ladder, .weft, .sal, .zw, .out] s (execSolveComplete s) := by
  unfold execSolveComplete
  repeat' first
    | with_reducible apply Moves.refl | ((with_reducible apply Within.of); exact rfl) | intro _
    | with_reducible apply Goes.next | with_reducible apply Goes.fault | with_reducible apply Goes.ite
    | with_reducible apply Moves.step (State.onBlk_moves (fs := [.regs, .ladder, .weft, .sal, .zw, .out]) (hf := ?_) ..)
    | with_reducible apply Moves.step (State.contain_moves ..) | with_reducible apply Moves.step (State.salAbort_moves ..)
    | with_reducible apply Moves.step (State.salResults_moves ..)
    | with_reducible apply Moves.step (State.setFld_moves ..) | with_reducible apply Moves.step (State.setFlag_moves ..)
    | with_reducible apply Moves.step (State.setSal_moves ..) | with_reducible apply Moves.step (State.recovers_moves ..)
    | with_reducible apply Moves.step (State.line_moves ..) | with_reducible apply Moves.step (State.zwPublish_moves ..)
    | with_reducible apply Moves.ite | with_reducible apply Moves.foldl | with_reducible apply Moves.foldl_snd
    | with_reducible apply Moves.foldl_fst | ((with_reducible apply Moves.snd); assumption)
    | ((with_reducible apply Moves.fst); assumption) | split | dsimp only

theorem execSalternTableEcc_moves (off : BitVec 12) (double : Bool) (s : State) :
    Goes [.regs, .ladder, .weft, .sal] s (execSalternTableEcc off double s) := by
  unfold execSalternTableEcc
  repeat' first
    | with_reducible apply Moves.refl | ((with_reducible apply Within.of); exact rfl) | intro _
    | with_reducible apply Goes.next | with_reducible apply Goes.fault | with_reducible apply Goes.ite
    | with_reducible apply Moves.step (State.onBlk_moves (fs := [.regs, .ladder, .weft, .sal]) (hf := ?_) ..)
    | with_reducible apply Moves.step (State.contain_moves ..) | with_reducible apply Moves.step (State.salAbort_moves ..)
    | with_reducible apply Moves.step (State.setSal_moves ..) | with_reducible apply Moves.step (State.note_moves ..)
    | with_reducible apply Moves.ite | with_reducible apply Moves.foldl | with_reducible apply Moves.foldl_snd
    | with_reducible apply Moves.foldl_fst | ((with_reducible apply Moves.snd); assumption)
    | ((with_reducible apply Moves.fst); assumption) | split | dsimp only

theorem execSalDemWrite_moves (i : Fin 128) (data : Word) (s : State) :
    Goes [.regs, .sal] s (execSalDemWrite i data s) := by
  unfold execSalDemWrite
  repeat' first
    | with_reducible apply Moves.refl | ((with_reducible apply Within.of); exact rfl) | intro _
    | with_reducible apply Goes.next | with_reducible apply Goes.fault | with_reducible apply Goes.ite
    | with_reducible apply Moves.step (State.onBlk_moves (fs := [.regs, .sal]) (hf := ?_) ..)
    | with_reducible apply Moves.step (State.salDemWrite_moves ..) | with_reducible apply Moves.ite
    | with_reducible apply Moves.foldl | with_reducible apply Moves.foldl_snd | with_reducible apply Moves.foldl_fst
    | ((with_reducible apply Moves.snd); assumption) | ((with_reducible apply Moves.fst); assumption) | split | dsimp only

theorem execDemandStale_moves (i : Fin 128) (s : State) :
    Goes [.regs, .ladder] s (execDemandStale i s) := by
  unfold execDemandStale
  repeat' first
    | with_reducible apply Moves.refl | ((with_reducible apply Within.of); exact rfl) | intro _
    | with_reducible apply Goes.next | with_reducible apply Goes.fault | with_reducible apply Goes.ite
    | with_reducible apply Moves.step (State.onBlk_moves (fs := [.regs, .ladder]) (hf := ?_) ..)
    | with_reducible apply Moves.step (State.note_moves ..) | with_reducible apply Moves.step (State.setFlag_moves ..)
    | with_reducible apply Moves.ite | with_reducible apply Moves.foldl | with_reducible apply Moves.foldl_snd
    | with_reducible apply Moves.foldl_fst | ((with_reducible apply Moves.snd); assumption)
    | ((with_reducible apply Moves.fst); assumption) | split | dsimp only

theorem execSalCommitGo_moves (s : State) :
    Goes [.regs, .sal] s (execSalCommitGo s) := by
  unfold execSalCommitGo
  repeat' first
    | with_reducible apply Moves.refl | ((with_reducible apply Within.of); exact rfl) | intro _
    | with_reducible apply Goes.next | with_reducible apply Goes.fault | with_reducible apply Goes.ite
    | with_reducible apply Moves.step (State.onBlk_moves (fs := [.regs, .sal]) (hf := ?_) ..)
    | with_reducible apply Moves.step (State.salGo_moves ..) | with_reducible apply Moves.ite
    | with_reducible apply Moves.foldl | with_reducible apply Moves.foldl_snd | with_reducible apply Moves.foldl_fst
    | ((with_reducible apply Moves.snd); assumption) | ((with_reducible apply Moves.fst); assumption) | split | dsimp only

theorem execEmrgLineRaise_moves (s : State) :
    Goes [.regs, .weft, .sal] s (execEmrgLineRaise s) := by
  unfold execEmrgLineRaise
  repeat' first
    | with_reducible apply Moves.refl | ((with_reducible apply Within.of); exact rfl) | intro _
    | with_reducible apply Goes.next | with_reducible apply Goes.fault | with_reducible apply Goes.ite
    | with_reducible apply Moves.step (State.onBlk_moves (fs := [.regs, .weft, .sal]) (hf := ?_) ..)
    | with_reducible apply Moves.step (State.setSal_moves ..) | with_reducible apply Moves.step (State.wrNat_moves ..)
    | with_reducible apply Moves.step (State.salRaise_moves ..) | with_reducible apply Moves.ite
    | with_reducible apply Moves.foldl | with_reducible apply Moves.foldl_snd | with_reducible apply Moves.foldl_fst
    | ((with_reducible apply Moves.snd); assumption) | ((with_reducible apply Moves.fst); assumption) | split | dsimp only

theorem execEmrgReq_moves (s : State) :
    Goes [.regs, .weft, .sal] s (execEmrgReq s) := by
  unfold execEmrgReq
  repeat' first
    | with_reducible apply Moves.refl | ((with_reducible apply Within.of); exact rfl) | intro _
    | with_reducible apply Goes.next | with_reducible apply Goes.fault | with_reducible apply Goes.ite
    | with_reducible apply Moves.step (State.onBlk_moves (fs := [.regs, .weft, .sal]) (hf := ?_) ..)
    | with_reducible apply Moves.step (State.salRaise_moves ..) | with_reducible apply Moves.ite
    | with_reducible apply Moves.foldl | with_reducible apply Moves.foldl_snd | with_reducible apply Moves.foldl_fst
    | ((with_reducible apply Moves.snd); assumption) | ((with_reducible apply Moves.fst); assumption) | split | dsimp only

theorem execEmrgClr_moves (s : State) :
    Goes [.regs, .sal] s (execEmrgClr s) := by
  unfold execEmrgClr
  repeat' first
    | with_reducible apply Moves.refl | ((with_reducible apply Within.of); exact rfl) | intro _
    | with_reducible apply Goes.next | with_reducible apply Goes.fault | with_reducible apply Goes.ite
    | with_reducible apply Moves.step (State.onBlk_moves (fs := [.regs, .sal]) (hf := ?_) ..)
    | with_reducible apply Moves.step (State.salClear_moves ..) | with_reducible apply Moves.ite
    | with_reducible apply Moves.foldl | with_reducible apply Moves.foldl_snd | with_reducible apply Moves.foldl_fst
    | ((with_reducible apply Moves.snd); assumption) | ((with_reducible apply Moves.fst); assumption) | split | dsimp only

theorem execSalStateWrite_moves (off : BitVec 12) (data : Word) (s : State) :
    Goes [.regs, .sal] s (execSalStateWrite off data s) := by
  unfold execSalStateWrite
  repeat' first
    | with_reducible apply Moves.refl | ((with_reducible apply Within.of); exact rfl) | intro _
    | with_reducible apply Goes.next | with_reducible apply Goes.fault | with_reducible apply Goes.ite
    | with_reducible apply Moves.step (State.onBlk_moves (fs := [.regs, .sal]) (hf := ?_) ..)
    | with_reducible apply Moves.step (State.salStateWrite_moves ..) | with_reducible apply Moves.ite
    | with_reducible apply Moves.foldl | with_reducible apply Moves.foldl_snd | with_reducible apply Moves.foldl_fst
    | ((with_reducible apply Moves.snd); assumption) | ((with_reducible apply Moves.fst); assumption) | split | dsimp only

theorem execGrantSetHandover_moves (s : State) :
    Goes [.regs, .ladder, .weft, .sal, .zw] s (execGrantSetHandover s) := by
  unfold execGrantSetHandover
  repeat' first
    | with_reducible apply Moves.refl | ((with_reducible apply Within.of); exact rfl) | intro _
    | with_reducible apply Goes.next | with_reducible apply Goes.fault | with_reducible apply Goes.ite
    | with_reducible apply Moves.step (State.onBlk_moves (fs := [.regs, .ladder, .weft, .sal, .zw]) (hf := ?_) ..)
    | with_reducible apply Moves.step (State.takeSet_moves ..) | with_reducible apply Moves.step (State.setSal_moves ..)
    | with_reducible apply Moves.step (State.setZw_moves ..) | with_reducible apply Moves.ite
    | with_reducible apply Moves.foldl | with_reducible apply Moves.foldl_snd | with_reducible apply Moves.foldl_fst
    | ((with_reducible apply Moves.snd); assumption) | ((with_reducible apply Moves.fst); assumption) | split | dsimp only

theorem execGrantApply_moves (s : State) :
    Goes [.regs, .weft, .sal] s (execGrantApply s) := by
  unfold execGrantApply
  repeat' first
    | with_reducible apply Moves.refl | ((with_reducible apply Within.of); exact rfl) | intro _
    | with_reducible apply Goes.next | with_reducible apply Goes.fault | with_reducible apply Goes.ite
    | with_reducible apply Moves.step (State.onBlk_moves (fs := [.regs, .weft, .sal]) (hf := ?_) ..)
    | with_reducible apply Moves.step (State.applySet_moves ..) | with_reducible apply Moves.step (State.setSets_moves ..)
    | with_reducible apply Moves.ite | with_reducible apply Moves.foldl | with_reducible apply Moves.foldl_snd
    | with_reducible apply Moves.foldl_fst | ((with_reducible apply Moves.snd); assumption)
    | ((with_reducible apply Moves.fst); assumption) | split | dsimp only

end Sys2Proof.Machine
end

