-- ==== Sys2Proof/Laws/MovesSenseOps.lean ====
section
/-!
SUPPORT. Laws/MovesSenseOps.lean: which parts of the state each operation of Machine/SenseOps.lean moves.
-/
set_option Elab.async false
namespace Sys2Proof.Machine
set_option linter.all false

theorem State.groupDone_moves (s : State) (r : Sample) :
    Moves [.weft, .sense] s (State.groupDone s r) := by
  unfold State.groupDone
  repeat' first
    | with_reducible apply Moves.refl | ((with_reducible apply Within.of); exact rfl) | intro _
    | with_reducible apply Moves.step (State.setSense_moves ..) | with_reducible apply Moves.step (State.line_moves ..)
    | with_reducible apply Moves.ite | with_reducible apply Moves.foldl | with_reducible apply Moves.foldl_snd
    | with_reducible apply Moves.foldl_fst | ((with_reducible apply Moves.snd); assumption)
    | ((with_reducible apply Moves.fst); assumption) | split | dsimp only

theorem State.sampleNow_moves (s : State) (a : Nat) (r : Sample) :
    Moves [.sense] s (State.sampleNow s a r) := by
  unfold State.sampleNow
  repeat' first
    | with_reducible apply Moves.refl | ((with_reducible apply Within.of); exact rfl) | intro _
    | with_reducible apply Moves.step (State.setAdc_moves ..) | with_reducible apply Moves.ite
    | with_reducible apply Moves.foldl | with_reducible apply Moves.foldl_snd | with_reducible apply Moves.foldl_fst
    | ((with_reducible apply Moves.snd); assumption) | ((with_reducible apply Moves.fst); assumption) | split | dsimp only

theorem State.adcDrop_moves (s : State) (a : Nat) (r : Sample) :
    Moves [.regs, .ladder, .weft, .sense] s (State.adcDrop s a r) := by
  unfold State.adcDrop
  repeat' first
    | with_reducible apply Moves.refl | ((with_reducible apply Within.of); exact rfl) | intro _
    | with_reducible apply Moves.step (State.groupDone_moves ..) | with_reducible apply Moves.step (State.note_moves ..)
    | with_reducible apply Moves.step (State.line_moves ..) | with_reducible apply Moves.step (State.bump_moves ..)
    | with_reducible apply Moves.ite | with_reducible apply Moves.foldl | with_reducible apply Moves.foldl_snd
    | with_reducible apply Moves.foldl_fst | ((with_reducible apply Moves.snd); assumption)
    | ((with_reducible apply Moves.fst); assumption) | split | dsimp only

theorem State.adcWaits_moves (s : State) (a : Nat) (r : Sample) :
    Moves [.regs, .ladder, .weft, .sense] s (State.adcWaits s a r) := by
  unfold State.adcWaits
  repeat' first
    | with_reducible apply Moves.refl | ((with_reducible apply Within.of); exact rfl) | intro _
    | with_reducible apply Moves.step (State.setAdc_moves ..) | with_reducible apply Moves.step (State.bump_moves ..)
    | with_reducible apply Moves.step (State.adcDrop_moves ..) | with_reducible apply Moves.ite
    | with_reducible apply Moves.foldl | with_reducible apply Moves.foldl_snd | with_reducible apply Moves.foldl_fst
    | ((with_reducible apply Moves.snd); assumption) | ((with_reducible apply Moves.fst); assumption) | split | dsimp only

theorem State.adcRequest_moves (s : State) (a : Nat) (r : Sample) :
    Moves [.regs, .ladder, .weft, .sense] s (State.adcRequest s a r) := by
  unfold State.adcRequest
  repeat' first
    | with_reducible apply Moves.refl | ((with_reducible apply Within.of); exact rfl) | intro _
    | with_reducible apply Moves.step (State.adcWaits_moves ..) | with_reducible apply Moves.step (State.setAdc_moves ..)
    | with_reducible apply Moves.step (State.sampleNow_moves ..) | with_reducible apply Moves.ite
    | with_reducible apply Moves.foldl | with_reducible apply Moves.foldl_snd | with_reducible apply Moves.foldl_fst
    | ((with_reducible apply Moves.snd); assumption) | ((with_reducible apply Moves.fst); assumption) | split | dsimp only

theorem State.groupFire_moves (s : State) (g : Nat) :
    Moves [.regs, .ladder, .weft, .sense] s (State.groupFire s g) := by
  unfold State.groupFire
  repeat' first
    | with_reducible apply Moves.refl | ((with_reducible apply Within.of); exact rfl) | intro _
    | with_reducible apply Moves.step (State.setSense_moves ..)
    | with_reducible apply Moves.step (State.adcRequest_moves ..) | with_reducible apply Moves.ite
    | with_reducible apply Moves.foldl | with_reducible apply Moves.foldl_snd | with_reducible apply Moves.foldl_fst
    | ((with_reducible apply Moves.snd); assumption) | ((with_reducible apply Moves.fst); assumption) | split | dsimp only

theorem State.groupTriggers_moves (s : State) (t : Nat) :
    Moves [.regs, .ladder, .weft, .sense] s (State.groupTriggers s t) := by
  unfold State.groupTriggers
  repeat' first
    | with_reducible apply Moves.refl | ((with_reducible apply Within.of); exact rfl) | intro _
    | with_reducible apply Moves.step (State.groupFire_moves ..) | with_reducible apply Moves.ite
    | with_reducible apply Moves.foldl | with_reducible apply Moves.foldl_snd | with_reducible apply Moves.foldl_fst
    | ((with_reducible apply Moves.snd); assumption) | ((with_reducible apply Moves.fst); assumption) | split | dsimp only

theorem State.preSync_moves (s : State) :
    Moves [.regs, .weft] s (State.preSync s) := by
  unfold State.preSync
  repeat' first
    | with_reducible apply Moves.refl | ((with_reducible apply Within.of); exact rfl) | intro _
    | with_reducible apply Moves.step (State.setFlag_moves ..) | with_reducible apply Moves.step (State.line_moves ..)
    | with_reducible apply Moves.ite | with_reducible apply Moves.foldl | with_reducible apply Moves.foldl_snd
    | with_reducible apply Moves.foldl_fst | ((with_reducible apply Moves.snd); assumption)
    | ((with_reducible apply Moves.fst); assumption) | split | dsimp only

theorem State.weldTrack_moves (s : State) (n : Option Nat) :
    Moves [.sense] s (State.weldTrack s n) := by
  unfold State.weldTrack
  repeat' first
    | with_reducible apply Moves.refl | ((with_reducible apply Within.of); exact rfl) | intro _
    | with_reducible apply Moves.step (State.setSense_moves ..) | with_reducible apply Moves.ite
    | with_reducible apply Moves.foldl | with_reducible apply Moves.foldl_snd | with_reducible apply Moves.foldl_fst
    | ((with_reducible apply Moves.snd); assumption) | ((with_reducible apply Moves.fst); assumption) | split | dsimp only

theorem State.ainWrite_moves (s : State) (n : Nat) (r : Sample) (code : Nat) :
    Moves [.regs, .weft, .twill, .sense] s (State.ainWrite s n r code) := by
  unfold State.ainWrite
  repeat' first
    | with_reducible apply Moves.refl | ((with_reducible apply Within.of); exact rfl) | intro _
    | with_reducible apply Moves.step (State.wrNat_moves ..) | with_reducible apply Moves.step (State.wr_moves ..)
    | with_reducible apply Moves.step (State.setAin_moves ..) | with_reducible apply Moves.step (State.weldTrack_moves ..)
    | with_reducible apply Moves.step (State.preSync_moves ..)
    | with_reducible apply Moves.step (State.ainReadable_moves ..) | with_reducible apply Moves.ite
    | with_reducible apply Moves.foldl | with_reducible apply Moves.foldl_snd | with_reducible apply Moves.foldl_fst
    | ((with_reducible apply Moves.snd); assumption) | ((with_reducible apply Moves.fst); assumption) | split | dsimp only

theorem State.cmpSet_moves (s : State) (k : Nat) (b : Bool) :
    Moves [.regs, .weft, .loom] s (State.cmpSet s k b) := by
  unfold State.cmpSet
  repeat' first
    | with_reducible apply Moves.refl | ((with_reducible apply Within.of); exact rfl) | intro _
    | with_reducible apply Moves.step (State.setFlag_moves ..) | with_reducible apply Moves.step (State.setBit_moves ..)
    | with_reducible apply Moves.step (State.srcMoved_moves ..) | with_reducible apply Moves.ite
    | with_reducible apply Moves.foldl | with_reducible apply Moves.foldl_snd | with_reducible apply Moves.foldl_fst
    | ((with_reducible apply Moves.snd); assumption) | ((with_reducible apply Moves.fst); assumption) | split | dsimp only

theorem State.cmpJudge_moves (s : State) (k : Nat) :
    Moves [.regs, .weft, .loom] s (State.cmpJudge s k) := by
  unfold State.cmpJudge
  repeat' first
    | with_reducible apply Moves.refl | ((with_reducible apply Within.of); exact rfl) | intro _
    | with_reducible apply Moves.step (State.line_moves ..) | with_reducible apply Moves.step (State.cmpSet_moves ..)
    | with_reducible apply Moves.ite | with_reducible apply Moves.foldl | with_reducible apply Moves.foldl_snd
    | with_reducible apply Moves.foldl_fst | ((with_reducible apply Moves.snd); assumption)
    | ((with_reducible apply Moves.fst); assumption) | split | dsimp only

theorem State.cmpSees_moves (s : State) (k uv : Nat) :
    Moves [.regs, .weft, .loom, .sense] s (State.cmpSees s k uv) := by
  unfold State.cmpSees
  repeat' first
    | with_reducible apply Moves.refl | ((with_reducible apply Within.of); exact rfl) | intro _
    | with_reducible apply Moves.step (State.onBlk_moves (fs := [.regs, .weft, .loom, .sense]) (hf := ?_) ..)
    | with_reducible apply Moves.step (State.setSense_moves ..)
    | with_reducible apply Moves.step (State.cmpJudge_moves ..) | with_reducible apply Moves.ite
    | with_reducible apply Moves.foldl | with_reducible apply Moves.foldl_snd | with_reducible apply Moves.foldl_fst
    | ((with_reducible apply Moves.snd); assumption) | ((with_reducible apply Moves.fst); assumption) | split | dsimp only

theorem State.adcEnWrite_moves (s : State) (data : Nat) :
    Moves [.regs, .weft, .sense] s (State.adcEnWrite s data) := by
  unfold State.adcEnWrite
  repeat' first
    | with_reducible apply Moves.refl | ((with_reducible apply Within.of); exact rfl) | intro _
    | with_reducible apply Moves.step (State.setAdc_moves ..) | with_reducible apply Moves.step (State.groupDone_moves ..)
    | with_reducible apply Moves.step (State.setBit_moves ..) | with_reducible apply Moves.ite
    | with_reducible apply Moves.foldl | with_reducible apply Moves.foldl_snd | with_reducible apply Moves.foldl_fst
    | ((with_reducible apply Moves.snd); assumption) | ((with_reducible apply Moves.fst); assumption) | split | dsimp only

theorem State.adcClear_moves (s : State) :
    Moves [.regs] s (State.adcClear s) := by
  unfold State.adcClear
  repeat' first
    | with_reducible apply Moves.refl | ((with_reducible apply Within.of); exact rfl) | intro _
    | with_reducible apply Moves.step (State.wr_moves ..) | with_reducible apply Moves.ite
    | with_reducible apply Moves.foldl | with_reducible apply Moves.foldl_snd | with_reducible apply Moves.foldl_fst
    | ((with_reducible apply Moves.snd); assumption) | ((with_reducible apply Moves.fst); assumption) | split | dsimp only

theorem State.cmpThreshold_moves (s : State) (k : Nat) (v : Word) (ok : Bool) :
    Moves [.regs, .ladder, .weft, .loom] s (State.cmpThreshold s k v ok) := by
  unfold State.cmpThreshold
  repeat' first
    | with_reducible apply Moves.refl | ((with_reducible apply Within.of); exact rfl) | intro _
    | with_reducible apply Moves.step (State.wr_moves ..) | with_reducible apply Moves.step (State.recoversCell_moves ..)
    | with_reducible apply Moves.step (State.setFlag_moves ..) | with_reducible apply Moves.step (State.cmpJudge_moves ..)
    | with_reducible apply Moves.ite | with_reducible apply Moves.foldl | with_reducible apply Moves.foldl_snd
    | with_reducible apply Moves.foldl_fst | ((with_reducible apply Moves.snd); assumption)
    | ((with_reducible apply Moves.fst); assumption) | split | dsimp only

theorem State.thresholdWrite_moves (s : State) (k : Nat) (v : Word) :
    Moves [.regs, .ladder, .weft, .loom, .free] s (State.thresholdWrite s k v) := by
  unfold State.thresholdWrite
  repeat' first
    | with_reducible apply Moves.refl | ((with_reducible apply Within.of); exact rfl) | intro _
    | with_reducible apply Moves.step (State.cmpThreshold_moves ..)
    | with_reducible apply Moves.step (State.took_moves ..) | with_reducible apply Moves.ite
    | with_reducible apply Moves.foldl | with_reducible apply Moves.foldl_snd | with_reducible apply Moves.foldl_fst
    | ((with_reducible apply Moves.snd); assumption) | ((with_reducible apply Moves.fst); assumption) | split | dsimp only

theorem State.weldStart_moves (s : State) (outlet : Bool) (tgt win : Nat) :
    Moves [.regs, .weft, .sense] s (State.weldStart s outlet tgt win) := by
  unfold State.weldStart
  repeat' first
    | with_reducible apply Moves.refl | ((with_reducible apply Within.of); exact rfl) | intro _
    | with_reducible apply Moves.step (State.setFld_moves ..) | with_reducible apply Moves.step (State.setFlag_moves ..)
    | with_reducible apply Moves.step (State.line_moves ..) | with_reducible apply Moves.step (State.weldTrack_moves ..)
    | with_reducible apply Moves.step (State.setSense_moves ..) | with_reducible apply Moves.ite
    | with_reducible apply Moves.foldl | with_reducible apply Moves.foldl_snd | with_reducible apply Moves.foldl_fst
    | ((with_reducible apply Moves.snd); assumption) | ((with_reducible apply Moves.fst); assumption) | split | dsimp only

end Sys2Proof.Machine
end

