-- ==== Sys2Proof/Laws/MovesSenseCommands.lean ====
section
/-!
SUPPORT. Laws/MovesSenseCommands.lean: which parts of the state each operation of Machine/SenseCommands.lean moves.
-/
set_option Elab.async false
namespace Sys2Proof.Machine
set_option linter.all false

theorem execLoomTrigger_moves (n : Fin 24) (k : Fin 4) (s : State) :
    Goes [.regs, .ladder, .weft, .loom, .twill, .sense] s (execLoomTrigger n k s) := by
  unfold execLoomTrigger
  repeat' first
    | with_reducible apply Moves.refl | ((with_reducible apply Within.of); exact rfl) | intro _
    | with_reducible apply Goes.next | with_reducible apply Goes.fault | with_reducible apply Goes.ite
    | with_reducible apply Moves.step (State.onBlk_moves (fs := [.regs, .ladder, .weft, .loom, .twill, .sense]) (hf := ?_) ..)
    | with_reducible apply Moves.step (State.setCh_moves ..)
    | with_reducible apply Moves.step (State.groupTriggers_moves ..)
    | with_reducible apply Moves.step (State.slotTriggers_moves ..)
    | with_reducible apply Moves.step (State.line_moves ..) | with_reducible apply Moves.ite
    | with_reducible apply Moves.foldl | with_reducible apply Moves.foldl_snd | with_reducible apply Moves.foldl_fst
    | ((with_reducible apply Moves.snd); assumption) | ((with_reducible apply Moves.fst); assumption) | split | dsimp only

theorem execAdcDeferredSample_moves (a : Fin 8) (s : State) :
    Goes [.sense] s (execAdcDeferredSample a s) := by
  unfold execAdcDeferredSample
  repeat' first
    | with_reducible apply Moves.refl | ((with_reducible apply Within.of); exact rfl) | intro _
    | with_reducible apply Goes.next | with_reducible apply Goes.fault | with_reducible apply Goes.ite
    | with_reducible apply Moves.step (State.onBlk_moves (fs := [.sense]) (hf := ?_) ..)
    | with_reducible apply Moves.step (State.sampleNow_moves ..) | with_reducible apply Moves.step (State.setAdc_moves ..)
    | with_reducible apply Moves.ite | with_reducible apply Moves.foldl | with_reducible apply Moves.foldl_snd
    | with_reducible apply Moves.foldl_fst | ((with_reducible apply Moves.snd); assumption)
    | ((with_reducible apply Moves.fst); assumption) | split | dsimp only

theorem execAdcConversionComplete_moves (a : Fin 8) (code : BitVec 14) (s : State) :
    Goes [.regs, .ladder, .weft, .twill, .sense] s (execAdcConversionComplete a code s) := by
  unfold execAdcConversionComplete
  repeat' first
    | with_reducible apply Moves.refl | ((with_reducible apply Within.of); exact rfl) | intro _
    | with_reducible apply Goes.next | with_reducible apply Goes.fault | with_reducible apply Goes.ite
    | with_reducible apply Moves.step (State.onBlk_moves (fs := [.regs, .ladder, .weft, .twill, .sense]) (hf := ?_) ..)
    | with_reducible apply Moves.step (State.setAdc_moves ..)
    | with_reducible apply Moves.step (State.recoversCell_moves ..)
    | with_reducible apply Moves.step (State.groupDone_moves ..)
    | with_reducible apply Moves.step (State.contain_moves ..) | with_reducible apply Moves.step (State.ainWrite_moves ..)
    | with_reducible apply Moves.ite | with_reducible apply Moves.foldl | with_reducible apply Moves.foldl_snd
    | with_reducible apply Moves.foldl_fst | ((with_reducible apply Moves.snd); assumption)
    | ((with_reducible apply Moves.fst); assumption) | split | dsimp only

theorem execAdcEnable_moves (data : BitVec 8) (s : State) :
    Goes [.regs, .weft, .sense] s (execAdcEnable data s) := by
  unfold execAdcEnable
  repeat' first
    | with_reducible apply Moves.refl | ((with_reducible apply Within.of); exact rfl) | intro _
    | with_reducible apply Goes.next | with_reducible apply Goes.fault | with_reducible apply Goes.ite
    | with_reducible apply Moves.step (State.onBlk_moves (fs := [.regs, .weft, .sense]) (hf := ?_) ..)
    | with_reducible apply Moves.step (State.adcEnWrite_moves ..) | with_reducible apply Moves.ite
    | with_reducible apply Moves.foldl | with_reducible apply Moves.foldl_snd | with_reducible apply Moves.foldl_fst
    | ((with_reducible apply Moves.snd); assumption) | ((with_reducible apply Moves.fst); assumption) | split | dsimp only

theorem execAdcClearCounts_moves (s : State) :
    Goes [.regs] s (execAdcClearCounts s) := by
  unfold execAdcClearCounts
  repeat' first
    | with_reducible apply Moves.refl | ((with_reducible apply Within.of); exact rfl) | intro _
    | with_reducible apply Goes.next | with_reducible apply Goes.fault | with_reducible apply Goes.ite
    | with_reducible apply Moves.step (State.onBlk_moves (fs := [.regs]) (hf := ?_) ..)
    | with_reducible apply Moves.step (State.adcClear_moves ..) | with_reducible apply Moves.ite
    | with_reducible apply Moves.foldl | with_reducible apply Moves.foldl_snd | with_reducible apply Moves.foldl_fst
    | ((with_reducible apply Moves.snd); assumption) | ((with_reducible apply Moves.fst); assumption) | split | dsimp only

theorem execComparatorActive_moves (k : Fin 48) (uv : BitVec 22) (s : State) :
    Goes [.regs, .weft, .loom, .sense] s (execComparatorActive k uv s) := by
  unfold execComparatorActive
  repeat' first
    | with_reducible apply Moves.refl | ((with_reducible apply Within.of); exact rfl) | intro _
    | with_reducible apply Goes.next | with_reducible apply Goes.fault | with_reducible apply Goes.ite
    | with_reducible apply Moves.step (State.cmpSees_moves ..) | with_reducible apply Moves.ite
    | with_reducible apply Moves.foldl | with_reducible apply Moves.foldl_snd | with_reducible apply Moves.foldl_fst
    | ((with_reducible apply Moves.snd); assumption) | ((with_reducible apply Moves.fst); assumption) | split | dsimp only

theorem execComparatorInactive_moves (k : Fin 48) (uv : BitVec 22) (s : State) :
    Goes [.regs, .weft, .loom, .sense] s (execComparatorInactive k uv s) := by
  unfold execComparatorInactive
  repeat' first
    | with_reducible apply Moves.refl | ((with_reducible apply Within.of); exact rfl) | intro _
    | with_reducible apply Goes.next | with_reducible apply Goes.fault | with_reducible apply Goes.ite
    | with_reducible apply Moves.step (State.cmpSees_moves ..) | with_reducible apply Moves.ite
    | with_reducible apply Moves.foldl | with_reducible apply Moves.foldl_snd | with_reducible apply Moves.foldl_fst
    | ((with_reducible apply Moves.snd); assumption) | ((with_reducible apply Moves.fst); assumption) | split | dsimp only

theorem execCmpThresholdWrite_moves (k : Fin 48) (data : Word) (ok : Bool) (s : State) :
    Goes [.regs, .ladder, .weft, .loom] s (execCmpThresholdWrite k data ok s) := by
  unfold execCmpThresholdWrite
  repeat' first
    | with_reducible apply Moves.refl | ((with_reducible apply Within.of); exact rfl) | intro _
    | with_reducible apply Goes.next | with_reducible apply Goes.fault | with_reducible apply Goes.ite
    | with_reducible apply Moves.step (State.onBlk_moves (fs := [.regs, .ladder, .weft, .loom]) (hf := ?_) ..)
    | with_reducible apply Moves.step (State.cmpThreshold_moves ..) | with_reducible apply Moves.ite
    | with_reducible apply Moves.foldl | with_reducible apply Moves.foldl_snd | with_reducible apply Moves.foldl_fst
    | ((with_reducible apply Moves.snd); assumption) | ((with_reducible apply Moves.fst); assumption) | split | dsimp only

theorem execCmpDacMismatch_moves (k : Fin 48) (s : State) :
    Goes [.regs, .ladder, .weft, .loom] s (execCmpDacMismatch k s) := by
  unfold execCmpDacMismatch
  repeat' first
    | with_reducible apply Moves.refl | ((with_reducible apply Within.of); exact rfl) | intro _
    | with_reducible apply Goes.next | with_reducible apply Goes.fault | with_reducible apply Goes.ite
    | with_reducible apply Moves.step (State.onBlk_moves (fs := [.regs, .ladder, .weft, .loom]) (hf := ?_) ..)
    | with_reducible apply Moves.step (State.cmpJudge_moves ..) | with_reducible apply Moves.step (State.setFlag_moves ..)
    | with_reducible apply Moves.step (State.contain_moves ..) | with_reducible apply Moves.ite
    | with_reducible apply Moves.foldl | with_reducible apply Moves.foldl_snd | with_reducible apply Moves.foldl_fst
    | ((with_reducible apply Moves.snd); assumption) | ((with_reducible apply Moves.fst); assumption) | split | dsimp only

theorem execAinStale_moves (n : Fin 48) (s : State) :
    Goes [.regs, .weft, .sense] s (execAinStale n s) := by
  unfold execAinStale
  repeat' first
    | with_reducible apply Moves.refl | ((with_reducible apply Within.of); exact rfl) | intro _
    | with_reducible apply Goes.next | with_reducible apply Goes.fault | with_reducible apply Goes.ite
    | with_reducible apply Moves.step (State.onBlk_moves (fs := [.regs, .weft, .sense]) (hf := ?_) ..)
    | with_reducible apply Moves.step (State.weldTrack_moves ..)
    | with_reducible apply Moves.step (State.preSync_moves ..) | with_reducible apply Moves.ite
    | with_reducible apply Moves.foldl | with_reducible apply Moves.foldl_snd | with_reducible apply Moves.foldl_fst
    | ((with_reducible apply Moves.snd); assumption) | ((with_reducible apply Moves.fst); assumption) | split | dsimp only

theorem execXpChangeAllowed_moves (x : Fin 16) (s : State) :
    Goes [.regs, .sense, .hs] s (execXpChangeAllowed x s) := by
  unfold execXpChangeAllowed
  repeat' first
    | with_reducible apply Moves.refl | ((with_reducible apply Within.of); exact rfl) | intro _
    | with_reducible apply Goes.next | with_reducible apply Goes.fault | with_reducible apply Goes.ite
    | with_reducible apply Moves.step (State.onBlk_moves (fs := [.regs, .sense, .hs]) (hf := ?_) ..)
    | with_reducible apply Moves.step (State.hsRefresh_moves ..) | with_reducible apply Moves.step (State.xpSet_moves ..)
    | with_reducible apply Moves.ite | with_reducible apply Moves.foldl | with_reducible apply Moves.foldl_snd
    | with_reducible apply Moves.foldl_fst | ((with_reducible apply Moves.snd); assumption)
    | ((with_reducible apply Moves.fst); assumption) | split | dsimp only

theorem execXpHoldExpiry_moves (x : Fin 16) (s : State) :
    Goes [.regs, .ladder, .weft, .sense] s (execXpHoldExpiry x s) := by
  unfold execXpHoldExpiry
  repeat' first
    | with_reducible apply Moves.refl | ((with_reducible apply Within.of); exact rfl) | intro _
    | with_reducible apply Goes.next | with_reducible apply Goes.fault | with_reducible apply Goes.ite
    | with_reducible apply Moves.step (State.onBlk_moves (fs := [.regs, .ladder, .weft, .sense]) (hf := ?_) ..)
    | with_reducible apply Moves.step (State.note_moves ..) | with_reducible apply Moves.step (State.line_moves ..)
    | with_reducible apply Moves.step (State.setFlag_moves ..)
    | with_reducible apply Moves.step (State.setHeldCoil_moves ..) | with_reducible apply Moves.ite
    | with_reducible apply Moves.foldl | with_reducible apply Moves.foldl_snd | with_reducible apply Moves.foldl_fst
    | ((with_reducible apply Moves.snd); assumption) | ((with_reducible apply Moves.fst); assumption) | split | dsimp only

theorem execIsumCheck_moves (o : Fin 8) (s : State) :
    Goes [.regs, .ladder, .weft, .sense] s (execIsumCheck o s) := by
  unfold execIsumCheck
  repeat' first
    | with_reducible apply Moves.refl | ((with_reducible apply Within.of); exact rfl) | intro _
    | with_reducible apply Goes.next | with_reducible apply Goes.fault | with_reducible apply Goes.ite
    | with_reducible apply Moves.step (State.onBlk_moves (fs := [.regs, .ladder, .weft, .sense]) (hf := ?_) ..)
    | with_reducible apply Moves.step (State.setSumCheck_moves ..)
    | with_reducible apply Moves.step (State.setFlag_moves ..) | with_reducible apply Moves.step (State.line_moves ..)
    | with_reducible apply Moves.step (State.note_moves ..) | with_reducible apply Moves.ite
    | with_reducible apply Moves.foldl | with_reducible apply Moves.foldl_snd | with_reducible apply Moves.foldl_fst
    | ((with_reducible apply Moves.snd); assumption) | ((with_reducible apply Moves.fst); assumption) | split | dsimp only

theorem execIsumHoldEnd_moves (o : Fin 8) (s : State) :
    Goes [.sense] s (execIsumHoldEnd o s) := by
  unfold execIsumHoldEnd
  repeat' first
    | with_reducible apply Moves.refl | ((with_reducible apply Within.of); exact rfl) | intro _
    | with_reducible apply Goes.next | with_reducible apply Goes.fault | with_reducible apply Goes.ite
    | with_reducible apply Moves.step (State.onBlk_moves (fs := [.sense]) (hf := ?_) ..)
    | with_reducible apply Moves.step (State.setSumCheck_moves ..) | with_reducible apply Moves.ite
    | with_reducible apply Moves.foldl | with_reducible apply Moves.foldl_snd | with_reducible apply Moves.foldl_fst
    | ((with_reducible apply Moves.snd); assumption) | ((with_reducible apply Moves.fst); assumption) | split | dsimp only

theorem execWeldCheckStart_moves (outlet : Bool) (tgt : Fin 16) (win : BitVec 8) (s : State) :
    Goes [.regs, .weft, .sense] s (execWeldCheckStart outlet tgt win s) := by
  unfold execWeldCheckStart
  repeat' first
    | with_reducible apply Moves.refl | ((with_reducible apply Within.of); exact rfl) | intro _
    | with_reducible apply Goes.next | with_reducible apply Goes.fault | with_reducible apply Goes.ite
    | with_reducible apply Moves.step (State.onBlk_moves (fs := [.regs, .weft, .sense]) (hf := ?_) ..)
    | with_reducible apply Moves.step (State.weldStart_moves ..) | with_reducible apply Moves.ite
    | with_reducible apply Moves.foldl | with_reducible apply Moves.foldl_snd | with_reducible apply Moves.foldl_fst
    | ((with_reducible apply Moves.snd); assumption) | ((with_reducible apply Moves.fst); assumption) | split | dsimp only

theorem execWeldCheckEnd_moves (s : State) :
    Goes [.regs, .ladder, .weft, .sense] s (execWeldCheckEnd s) := by
  unfold execWeldCheckEnd
  repeat' first
    | with_reducible apply Moves.refl | ((with_reducible apply Within.of); exact rfl) | intro _
    | with_reducible apply Goes.next | with_reducible apply Goes.fault | with_reducible apply Goes.ite
    | with_reducible apply Moves.step (State.onBlk_moves (fs := [.regs, .ladder, .weft, .sense]) (hf := ?_) ..)
    | with_reducible apply Moves.step (State.weldTrack_moves ..) | with_reducible apply Moves.step (State.line_moves ..)
    | with_reducible apply Moves.step (State.setFld_moves ..) | with_reducible apply Moves.step (State.setSense_moves ..)
    | with_reducible apply Moves.step (State.note_moves ..) | with_reducible apply Moves.ite
    | with_reducible apply Moves.foldl | with_reducible apply Moves.foldl_snd | with_reducible apply Moves.foldl_fst
    | ((with_reducible apply Moves.snd); assumption) | ((with_reducible apply Moves.fst); assumption) | split | dsimp only

end Sys2Proof.Machine
end

