-- ==== Sys2Proof/Laws/MovesStartOps.lean ====
section
/-!
SUPPORT. Laws/MovesStartOps.lean: which parts of the state each operation of Machine/StartOps.lean moves.
-/
set_option Elab.async false
namespace Sys2Proof.Machine
set_option linter.all false

theorem State.setPhase_moves (s : State) (p : Nat) :
    Moves [.regs] s (State.setPhase s p) := by
  unfold State.setPhase
  repeat' first
    | with_reducible apply Moves.refl | ((with_reducible apply Within.of); exact rfl) | intro _
    | with_reducible apply Moves.step (State.setFld_moves ..) | with_reducible apply Moves.ite
    | with_reducible apply Moves.foldl | with_reducible apply Moves.foldl_snd | with_reducible apply Moves.foldl_fst
    | ((with_reducible apply Moves.snd); assumption) | ((with_reducible apply Moves.fst); assumption) | split | dsimp only

theorem State.enterSts_moves (s : State) (cause : Nat) :
    Moves [.regs] s (State.enterSts s cause) := by
  unfold State.enterSts
  repeat' first
    | with_reducible apply Moves.refl | ((with_reducible apply Within.of); exact rfl) | intro _
    | with_reducible apply Moves.step (State.setPhase_moves ..) | with_reducible apply Moves.step (State.setFld_moves ..)
    | with_reducible apply Moves.ite | with_reducible apply Moves.foldl | with_reducible apply Moves.foldl_snd
    | with_reducible apply Moves.foldl_fst | ((with_reducible apply Moves.snd); assumption)
    | ((with_reducible apply Moves.fst); assumption) | split | dsimp only

theorem State.startImage_moves (s : State) (first a : Nat) :
    Moves [.weft] s (State.startImage s first a) := by
  unfold State.startImage
  repeat' first
    | with_reducible apply Moves.refl | ((with_reducible apply Within.of); exact rfl) | intro _
    | with_reducible apply Moves.step (State.startCtx_moves ..) | with_reducible apply Moves.step (State.setWeft_moves ..)
    | with_reducible apply Moves.ite | with_reducible apply Moves.foldl | with_reducible apply Moves.foldl_snd
    | with_reducible apply Moves.foldl_fst | ((with_reducible apply Moves.snd); assumption)
    | ((with_reducible apply Moves.fst); assumption) | split | dsimp only

theorem State.loadPair_moves (s : State) (a : Nat) :
    Moves [.regs, .mem, .ecc, .ladder, .weft, .selv, .free] s (State.loadPair s a) := by
  unfold State.loadPair
  repeat' first
    | with_reducible apply Moves.refl | ((with_reducible apply Within.of); exact rfl) | intro _
    | with_reducible apply Moves.step (State.writeBlock_moves ..)
    | with_reducible apply Moves.step (State.startImage_moves ..)
    | with_reducible apply Moves.step (State.safetyLoaded_moves ..) | with_reducible apply Moves.ite
    | with_reducible apply Moves.foldl | with_reducible apply Moves.foldl_snd | with_reducible apply Moves.foldl_fst
    | ((with_reducible apply Moves.snd); assumption) | ((with_reducible apply Moves.fst); assumption) | split | dsimp only

theorem State.loadMetro_moves (s : State) (a : Nat) :
    Moves [.regs, .mem, .ecc, .ladder, .weft, .ledger, .free] s (State.loadMetro s a) := by
  unfold State.loadMetro
  repeat' first
    | with_reducible apply Moves.refl | ((with_reducible apply Within.of); exact rfl) | intro _
    | with_reducible apply Moves.step (State.writeBlock_moves ..) | with_reducible apply Moves.step (State.wrNat_moves ..)
    | with_reducible apply Moves.step (State.setLedger_moves ..)
    | with_reducible apply Moves.step (State.logEntry_moves ..)
    | with_reducible apply Moves.step (State.startImage_moves ..) | with_reducible apply Moves.ite
    | with_reducible apply Moves.foldl | with_reducible apply Moves.foldl_snd | with_reducible apply Moves.foldl_fst
    | ((with_reducible apply Moves.snd); assumption) | ((with_reducible apply Moves.fst); assumption) | split | dsimp only

theorem State.loadEngine_moves (s : State) (a e : Nat) :
    Moves [.regs, .live] s (State.loadEngine s a e) := by
  unfold State.loadEngine
  repeat' first
    | with_reducible apply Moves.refl | ((with_reducible apply Within.of); exact rfl) | intro _
    | with_reducible apply Moves.step (State.wrNat_moves ..) | with_reducible apply Moves.step (State.commit_moves ..)
    | with_reducible apply Moves.ite | with_reducible apply Moves.foldl | with_reducible apply Moves.foldl_snd
    | with_reducible apply Moves.foldl_fst | ((with_reducible apply Moves.snd); assumption)
    | ((with_reducible apply Moves.fst); assumption) | split | dsimp only

theorem State.loadTwill_moves (s : State) (a : Nat) :
    Moves [.regs, .live] s (State.loadTwill s a) := by
  unfold State.loadTwill
  repeat' first
    | with_reducible apply Moves.refl | ((with_reducible apply Within.of); exact rfl) | intro _
    | with_reducible apply Moves.step (State.loadEngine_moves ..) | with_reducible apply Moves.ite
    | with_reducible apply Moves.foldl | with_reducible apply Moves.foldl_snd | with_reducible apply Moves.foldl_fst
    | ((with_reducible apply Moves.snd); assumption) | ((with_reducible apply Moves.fst); assumption) | split | dsimp only

theorem State.loadSeq_moves (s : State) (a n : Nat) :
    Moves [.regs, .mem, .ecc, .ladder, .startup, .free] s (State.loadSeq s a n) := by
  unfold State.loadSeq
  repeat' first
    | with_reducible apply Moves.refl | ((with_reducible apply Within.of); exact rfl) | intro _
    | with_reducible apply Moves.step (State.writeBlock_moves ..)
    | with_reducible apply Moves.step (State.setStartup_moves ..) | with_reducible apply Moves.step (State.wrNat_moves ..)
    | with_reducible apply Moves.ite | with_reducible apply Moves.foldl | with_reducible apply Moves.foldl_snd
    | with_reducible apply Moves.foldl_fst | ((with_reducible apply Moves.snd); assumption)
    | ((with_reducible apply Moves.fst); assumption) | split | dsimp only

theorem State.loadWs_moves (s : State) (a : Nat) :
    Moves [.regs, .mem, .ecc, .ladder, .startup, .free] s (State.loadWs s a) := by
  unfold State.loadWs
  repeat' first
    | with_reducible apply Moves.refl | ((with_reducible apply Within.of); exact rfl) | intro _
    | with_reducible apply Moves.step (State.loadSeq_moves ..) | with_reducible apply Moves.ite
    | with_reducible apply Moves.foldl | with_reducible apply Moves.foldl_snd | with_reducible apply Moves.foldl_fst
    | ((with_reducible apply Moves.snd); assumption) | ((with_reducible apply Moves.fst); assumption) | split | dsimp only

theorem State.loadBank_moves (s : State) (b : Nat) :
    Moves [.regs, .live, .mem, .ecc, .ladder, .weft, .startup, .selv, .ledger, .free] s (State.loadBank s b) := by
  unfold State.loadBank
  repeat' first
    | with_reducible apply Moves.refl | ((with_reducible apply Within.of); exact rfl) | intro _
    | with_reducible apply Moves.step (State.loadPair_moves ..)
    | with_reducible apply Moves.step (State.loadMetro_moves ..)
    | with_reducible apply Moves.step (State.loadTwill_moves ..) | with_reducible apply Moves.step (State.loadWs_moves ..)
    | with_reducible apply Moves.step (State.setStartup_moves ..)
    | with_reducible apply Moves.step (State.setFlag_moves ..) | with_reducible apply Moves.ite
    | with_reducible apply Moves.foldl | with_reducible apply Moves.foldl_snd | with_reducible apply Moves.foldl_fst
    | ((with_reducible apply Moves.snd); assumption) | ((with_reducible apply Moves.fst); assumption) | split | dsimp only

theorem State.tryBank_moves (s : State) (b : Nat) :
    Moves [.regs, .live, .mem, .ecc, .ladder, .weft, .startup, .selv, .ledger, .free] s (State.tryBank s b) := by
  unfold State.tryBank
  repeat' first
    | with_reducible apply Moves.refl | ((with_reducible apply Within.of); exact rfl) | intro _
    | with_reducible apply Moves.step (State.setStartup_moves ..)
    | with_reducible apply Moves.step (State.setFld_moves ..) | with_reducible apply Moves.step (State.loadBank_moves ..)
    | with_reducible apply Moves.step (State.note_moves ..) | with_reducible apply Moves.step (State.enterSts_moves ..)
    | with_reducible apply Moves.ite | with_reducible apply Moves.foldl | with_reducible apply Moves.foldl_snd
    | with_reducible apply Moves.foldl_fst | ((with_reducible apply Moves.snd); assumption)
    | ((with_reducible apply Moves.fst); assumption) | split | dsimp only

theorem State.testContain_moves (s : State) (blk cell : Nat) :
    Moves [.regs, .ladder, .free] s (State.testContain s blk cell) := by
  unfold State.testContain
  repeat' first
    | with_reducible apply Moves.refl | ((with_reducible apply Within.of); exact rfl) | intro _
    | with_reducible apply Moves.step (State.contain_moves ..) | with_reducible apply Moves.step (State.took_moves ..)
    | with_reducible apply Moves.ite | with_reducible apply Moves.foldl | with_reducible apply Moves.foldl_snd
    | with_reducible apply Moves.foldl_fst | ((with_reducible apply Moves.snd); assumption)
    | ((with_reducible apply Moves.fst); assumption) | split | dsimp only

theorem State.testCells_moves (s : State) (link guard : Bool) (c : TestCells) :
    Moves [.regs, .ladder, .weft, .twill, .links, .thermal, .free] s (State.testCells s link guard c) := by
  unfold State.testCells
  repeat' first
    | with_reducible apply Moves.refl | ((with_reducible apply Within.of); exact rfl) | intro _
    | with_reducible apply Moves.step (State.testContain_moves ..)
    | with_reducible apply Moves.step (State.t1sFails_moves ..)
    | with_reducible apply Moves.step (State.hsMismatched_moves ..)
    | with_reducible apply Moves.step (State.refFails_moves ..) | with_reducible apply Moves.ite
    | with_reducible apply Moves.foldl | with_reducible apply Moves.foldl_snd | with_reducible apply Moves.foldl_fst
    | ((with_reducible apply Moves.snd); assumption) | ((with_reducible apply Moves.fst); assumption) | split | dsimp only

theorem State.loadRoots_moves (s : State) :
    Moves [.regs, .ks, .free] s (State.loadRoots s) := by
  unfold State.loadRoots
  repeat' first
    | with_reducible apply Moves.refl | ((with_reducible apply Within.of); exact rfl) | intro _
    | with_reducible apply Moves.step (State.setSlot_moves ..) | with_reducible apply Moves.step (State.drew_moves ..)
    | with_reducible apply Moves.ite | with_reducible apply Moves.foldl | with_reducible apply Moves.foldl_snd
    | with_reducible apply Moves.foldl_fst | ((with_reducible apply Moves.snd); assumption)
    | ((with_reducible apply Moves.fst); assumption) | split | dsimp only

theorem State.reply_moves (s : State) (cmd seq status : Nat) (payload : List Byte) :
    Moves [.out] s (State.reply s cmd seq status payload) := by
  unfold State.reply
  repeat' first
    | with_reducible apply Moves.refl | ((with_reducible apply Within.of); exact rfl) | intro _
    | with_reducible apply Moves.step (State.emit_moves ..) | with_reducible apply Moves.ite
    | with_reducible apply Moves.foldl | with_reducible apply Moves.foldl_snd | with_reducible apply Moves.foldl_fst
    | ((with_reducible apply Moves.snd); assumption) | ((with_reducible apply Moves.fst); assumption) | split | dsimp only

theorem State.onMgmt_moves (s : State) (f : State → State) {fs : List Part} (hf : ∀ (t : State), Moves fs t (f t)) :
    Moves ([] ++ fs) s (State.onMgmt s f) := by
  unfold State.onMgmt
  repeat' first
    | with_reducible apply Moves.refl | ((with_reducible apply Within.of); exact rfl) | intro _
    | with_reducible apply Within.right | with_reducible apply Within.append
    | with_reducible apply Moves.step (hf ..) (Within.right _ _) | with_reducible apply Moves.ite
    | with_reducible apply Moves.foldl | with_reducible apply Moves.foldl_snd | with_reducible apply Moves.foldl_fst
    | ((with_reducible apply Moves.snd); assumption) | ((with_reducible apply Moves.fst); assumption) | split | dsimp only

theorem State.grantWrite_moves (s : State) :
    Moves [.regs, .startup] s (State.grantWrite s) := by
  unfold State.grantWrite
  repeat' first
    | with_reducible apply Moves.refl | ((with_reducible apply Within.of); exact rfl) | intro _
    | with_reducible apply Moves.step (State.setStartup_moves ..)
    | with_reducible apply Moves.step (State.setFlag_moves ..) | with_reducible apply Moves.ite
    | with_reducible apply Moves.foldl | with_reducible apply Moves.foldl_snd | with_reducible apply Moves.foldl_fst
    | ((with_reducible apply Moves.snd); assumption) | ((with_reducible apply Moves.fst); assumption) | split | dsimp only

theorem State.authorised_moves (s : State) (cmd seq : Nat) (f : State → State) {fs : List Part} (hf : ∀ (t : State), Moves fs t (f t)) :
    Moves ([.regs, .startup, .out] ++ fs) s (State.authorised s cmd seq f) := by
  unfold State.authorised
  repeat' first
    | with_reducible apply Moves.refl | ((with_reducible apply Within.of); exact rfl) | intro _
    | with_reducible apply Within.right | with_reducible apply Within.append
    | with_reducible apply Moves.step (hf ..) (Within.right _ _)
    | with_reducible apply Moves.step (State.onMgmt_moves (fs := ([.regs, .startup, .out] ++ fs)) (hf := ?_) ..)
    | with_reducible apply Moves.step (State.grantWrite_moves ..) | with_reducible apply Moves.step (State.reply_moves ..)
    | with_reducible apply Moves.ite | with_reducible apply Moves.foldl | with_reducible apply Moves.foldl_snd
    | with_reducible apply Moves.foldl_fst | ((with_reducible apply Moves.snd); assumption)
    | ((with_reducible apply Moves.fst); assumption) | split | dsimp only

end Sys2Proof.Machine
end

