-- ==== Sys2Proof/Laws/MovesStartCommands.lean ====
section
/-!
SUPPORT. Laws/MovesStartCommands.lean: which parts of the state each operation of Machine/StartCommands.lean moves.
-/
set_option Elab.async false
namespace Sys2Proof.Machine
set_option linter.all false

theorem execSelfTestComplete_moves (fail : BitVec 12) (cells : TestCells) (s : State) :
    Goes [.regs, .mem, .ecc, .ladder, .fabric, .weft, .power, .selv, .twill, .sense, .hs, .ks, .links, .thermal, .ledger, .out, .free] s (execSelfTestComplete fail cells s) := by
  unfold execSelfTestComplete
  repeat' first
    | with_reducible apply Moves.refl | ((with_reducible apply Within.of); exact rfl) | intro _
    | with_reducible apply Goes.next | with_reducible apply Goes.fault | with_reducible apply Goes.ite
    | with_reducible apply Moves.step (State.onBlk_moves (fs := [.regs, .mem, .ecc, .ladder, .fabric, .weft, .power, .selv, .twill, .sense, .hs, .ks, .links, .thermal, .ledger, .out, .free]) (hf := ?_) ..)
    | with_reducible apply Moves.step (State.wipe_moves ..) | with_reducible apply Moves.step (State.setEcc_moves ..)
    | with_reducible apply Moves.step (State.setFld_moves ..) | with_reducible apply Moves.step (State.note_moves ..)
    | with_reducible apply Moves.step (State.line_moves ..) | with_reducible apply Moves.step (State.setFlag_moves ..)
    | with_reducible apply Moves.step (State.loadRoots_moves ..) | with_reducible apply Moves.step (State.wrNat_moves ..)
    | with_reducible apply Moves.step (State.metStop_moves ..)
    | with_reducible apply Moves.step (State.testCells_moves ..)
    | with_reducible apply Moves.step (State.enterSts_moves ..)
    | with_reducible apply Moves.step (State.setPhase_moves ..)
    | with_reducible apply Moves.step (State.pairFault_moves ..) | with_reducible apply Moves.ite
    | with_reducible apply Moves.foldl | with_reducible apply Moves.foldl_snd | with_reducible apply Moves.foldl_fst
    | ((with_reducible apply Moves.snd); assumption) | ((with_reducible apply Moves.fst); assumption) | split | dsimp only

theorem execBankLoad_moves (second : Bool) (s : State) :
    Goes [.regs, .live, .mem, .ecc, .ladder, .weft, .startup, .selv, .ledger, .free] s (execBankLoad second s) := by
  unfold execBankLoad
  repeat' first
    | with_reducible apply Moves.refl | ((with_reducible apply Within.of); exact rfl) | intro _
    | with_reducible apply Goes.next | with_reducible apply Goes.fault | with_reducible apply Goes.ite
    | with_reducible apply Moves.step (State.onBlk_moves (fs := [.regs, .live, .mem, .ecc, .ladder, .weft, .startup, .selv, .ledger, .free]) (hf := ?_) ..)
    | with_reducible apply Moves.step (State.setFlag_moves ..) | with_reducible apply Moves.step (State.tryBank_moves ..)
    | with_reducible apply Moves.step (State.enterSts_moves ..) | with_reducible apply Moves.ite
    | with_reducible apply Moves.foldl | with_reducible apply Moves.foldl_snd | with_reducible apply Moves.foldl_fst
    | ((with_reducible apply Moves.snd); assumption) | ((with_reducible apply Moves.fst); assumption) | split | dsimp only

theorem execApplicationStart_moves (s : State) :
    Goes [.regs, .mem, .ladder, .weft, .startup, .selv, .sense, .hs, .ledger, .out] s (execApplicationStart s) := by
  unfold execApplicationStart
  repeat' first
    | with_reducible apply Moves.refl | ((with_reducible apply Within.of); exact rfl) | intro _
    | with_reducible apply Goes.next | with_reducible apply Goes.fault | with_reducible apply Goes.ite
    | with_reducible apply Moves.step (State.onBlk_moves (fs := [.regs, .mem, .ladder, .weft, .startup, .selv, .sense, .hs, .ledger, .out]) (hf := ?_) ..)
    | with_reducible apply Moves.step (State.setFld_moves ..) | with_reducible apply Moves.step (State.setPhase_moves ..)
    | with_reducible apply Moves.step (State.setStartup_moves ..)
    | with_reducible apply Moves.step (State.startCtx_moves ..)
    | with_reducible apply Moves.step (State.metStart_moves ..)
    | with_reducible apply Moves.step (State.pinsMove_moves ..) | with_reducible apply Moves.ite
    | with_reducible apply Moves.foldl | with_reducible apply Moves.foldl_snd | with_reducible apply Moves.foldl_fst
    | ((with_reducible apply Moves.snd); assumption) | ((with_reducible apply Moves.fst); assumption) | split | dsimp only

theorem State.rollbackRaise_moves (s : State) :
    Moves [.regs] s (State.rollbackRaise s) := by
  unfold State.rollbackRaise
  repeat' first
    | with_reducible apply Moves.refl | ((with_reducible apply Within.of); exact rfl) | intro _
    | with_reducible apply Moves.step (State.setFld_moves ..) | with_reducible apply Moves.ite
    | with_reducible apply Moves.foldl | with_reducible apply Moves.foldl_snd | with_reducible apply Moves.foldl_fst
    | ((with_reducible apply Moves.snd); assumption) | ((with_reducible apply Moves.fst); assumption) | split | dsimp only

theorem execStRbRaise_moves (s : State) :
    Goes [.regs] s (execStRbRaise s) := by
  unfold execStRbRaise
  repeat' first
    | with_reducible apply Moves.refl | ((with_reducible apply Within.of); exact rfl) | intro _
    | with_reducible apply Goes.next | with_reducible apply Goes.fault | with_reducible apply Goes.ite
    | with_reducible apply Moves.step (State.onBlk_moves (fs := [.regs]) (hf := ?_) ..)
    | with_reducible apply Moves.step (State.rollbackRaise_moves ..) | with_reducible apply Moves.ite
    | with_reducible apply Moves.foldl | with_reducible apply Moves.foldl_snd | with_reducible apply Moves.foldl_fst
    | ((with_reducible apply Moves.snd); assumption) | ((with_reducible apply Moves.fst); assumption) | split | dsimp only

theorem execMgmtStatus_moves (seq : Byte) (s : State) :
    Goes [.startup, .out, .free] s (execMgmtStatus seq s) := by
  unfold execMgmtStatus
  repeat' first
    | with_reducible apply Moves.refl | ((with_reducible apply Within.of); exact rfl) | intro _
    | with_reducible apply Goes.next | with_reducible apply Goes.fault | with_reducible apply Goes.ite
    | with_reducible apply Moves.step (State.onMgmt_moves (fs := [.startup, .out, .free]) (hf := ?_) ..)
    | with_reducible apply Moves.step (State.setStartup_moves ..) | with_reducible apply Moves.step (State.drew_moves ..)
    | with_reducible apply Moves.step (State.reply_moves ..) | with_reducible apply Moves.ite
    | with_reducible apply Moves.foldl | with_reducible apply Moves.foldl_snd | with_reducible apply Moves.foldl_fst
    | ((with_reducible apply Moves.snd); assumption) | ((with_reducible apply Moves.fst); assumption) | split | dsimp only

theorem execMgmtReadLog_moves (seq area : Byte) (idx : BitVec 16) (s : State) :
    Goes [.out] s (execMgmtReadLog seq area idx s) := by
  unfold execMgmtReadLog
  repeat' first
    | with_reducible apply Moves.refl | ((with_reducible apply Within.of); exact rfl) | intro _
    | with_reducible apply Goes.next | with_reducible apply Goes.fault | with_reducible apply Goes.ite
    | with_reducible apply Moves.step (State.onMgmt_moves (fs := [.out]) (hf := ?_) ..)
    | with_reducible apply Moves.step (State.reply_moves ..) | with_reducible apply Moves.ite
    | with_reducible apply Moves.foldl | with_reducible apply Moves.foldl_snd | with_reducible apply Moves.foldl_fst
    | ((with_reducible apply Moves.snd); assumption) | ((with_reducible apply Moves.fst); assumption) | split | dsimp only

theorem execMgmtAuth_moves (seq slot : Byte) (sig : List Byte) (s : State) :
    Goes [.regs, .ladder, .startup, .out] s (execMgmtAuth seq slot sig s) := by
  unfold execMgmtAuth
  repeat' first
    | with_reducible apply Moves.refl | ((with_reducible apply Within.of); exact rfl) | intro _
    | with_reducible apply Goes.next | with_reducible apply Goes.fault | with_reducible apply Goes.ite
    | with_reducible apply Moves.step (State.onMgmt_moves (fs := [.regs, .ladder, .startup, .out]) (hf := ?_) ..)
    | with_reducible apply Moves.step (State.reply_moves ..) | with_reducible apply Moves.step (State.grantWrite_moves ..)
    | with_reducible apply Moves.step (State.setStartup_moves ..) | with_reducible apply Moves.step (State.note_moves ..)
    | with_reducible apply Moves.step (State.bump_moves ..) | with_reducible apply Moves.ite
    | with_reducible apply Moves.foldl | with_reducible apply Moves.foldl_snd | with_reducible apply Moves.foldl_fst
    | ((with_reducible apply Moves.snd); assumption) | ((with_reducible apply Moves.fst); assumption) | split | dsimp only

theorem execMgmtAuthExpiry_moves (s : State) :
    Goes [.regs, .startup] s (execMgmtAuthExpiry s) := by
  unfold execMgmtAuthExpiry
  repeat' first
    | with_reducible apply Moves.refl | ((with_reducible apply Within.of); exact rfl) | intro _
    | with_reducible apply Goes.next | with_reducible apply Goes.fault | with_reducible apply Goes.ite
    | with_reducible apply Moves.step (State.setStartup_moves ..)
    | with_reducible apply Moves.step (State.setFlag_moves ..) | with_reducible apply Moves.ite
    | with_reducible apply Moves.foldl | with_reducible apply Moves.foldl_snd | with_reducible apply Moves.foldl_fst
    | ((with_reducible apply Moves.snd); assumption) | ((with_reducible apply Moves.fst); assumption) | split | dsimp only

theorem execMgmtErase_moves (seq bank : Byte) (s : State) :
    Goes [.regs, .mem, .ecc, .startup, .out] s (execMgmtErase seq bank s) := by
  unfold execMgmtErase
  repeat' first
    | with_reducible apply Moves.refl | ((with_reducible apply Within.of); exact rfl) | intro _
    | with_reducible apply Goes.next | with_reducible apply Goes.fault | with_reducible apply Goes.ite
    | with_reducible apply Moves.step (State.authorised_moves (fs := [.regs, .mem, .ecc, .startup, .out]) (hf := ?_) ..)
    | with_reducible apply Moves.step (State.reply_moves ..) | with_reducible apply Moves.step (State.wipe_moves ..)
    | with_reducible apply Moves.ite | with_reducible apply Moves.foldl | with_reducible apply Moves.foldl_snd
    | with_reducible apply Moves.foldl_fst | ((with_reducible apply Moves.snd); assumption)
    | ((with_reducible apply Moves.fst); assumption) | split | dsimp only

theorem execMgmtProgram_moves (seq bank : Byte) (off : Word) (bytes : List Byte) (s : State) :
    Goes [.regs, .mem, .startup, .out] s (execMgmtProgram seq bank off bytes s) := by
  unfold execMgmtProgram
  repeat' first
    | with_reducible apply Moves.refl | ((with_reducible apply Within.of); exact rfl) | intro _
    | with_reducible apply Goes.next | with_reducible apply Goes.fault | with_reducible apply Goes.ite
    | with_reducible apply Moves.step (State.authorised_moves (fs := [.regs, .mem, .startup, .out]) (hf := ?_) ..)
    | with_reducible apply Moves.step (State.reply_moves ..) | with_reducible apply Moves.step (State.putBytes_moves ..)
    | with_reducible apply Moves.ite | with_reducible apply Moves.foldl | with_reducible apply Moves.foldl_snd
    | with_reducible apply Moves.foldl_fst | ((with_reducible apply Moves.snd); assumption)
    | ((with_reducible apply Moves.fst); assumption) | split | dsimp only

theorem execMgmtRestart_moves (seq : Byte) (s : State) :
    Goes [.regs, .live, .mem, .ecc, .ladder, .fabric, .weft, .power, .startup, .time, .selv, .loom, .twill, .sense, .hs, .sal, .zw, .grid, .ks, .links, .ses, .thermal, .ledger, .brine, .can, .out] s (execMgmtRestart seq s) := by
  unfold execMgmtRestart
  repeat' first
    | with_reducible apply Moves.refl | ((with_reducible apply Within.of); exact rfl) | intro _
    | with_reducible apply Goes.next | with_reducible apply Goes.fault | with_reducible apply Goes.ite
    | with_reducible apply Moves.step (State.authorised_moves (fs := [.regs, .live, .mem, .ecc, .ladder, .fabric, .weft, .power, .startup, .time, .selv, .loom, .twill, .sense, .hs, .sal, .zw, .grid, .ks, .links, .ses, .thermal, .ledger, .brine, .can, .out]) (hf := ?_) ..)
    | with_reducible apply Moves.step (State.hubResetBy_moves ..) | with_reducible apply Moves.step (State.reply_moves ..)
    | with_reducible apply Moves.ite | with_reducible apply Moves.foldl | with_reducible apply Moves.foldl_snd
    | with_reducible apply Moves.foldl_fst | ((with_reducible apply Moves.snd); assumption)
    | ((with_reducible apply Moves.fst); assumption) | split | dsimp only

end Sys2Proof.Machine
end

