-- ==== Sys2Proof/Laws/MovesTariffCommands.lean ====
section
/-!
SUPPORT. Laws/MovesTariffCommands.lean: which parts of the state each operation of Machine/TariffCommands.lean moves.
-/
set_option Elab.async false
namespace Sys2Proof.Machine
set_option linter.all false

theorem State.onTariff_moves (s : State) (f : State → State) {fs : List Part} (hf : ∀ (t : State), Moves fs t (f t)) :
    Moves ([] ++ fs) s (State.onTariff s f) := by
  unfold State.onTariff
  repeat' first
    | with_reducible apply Moves.refl | ((with_reducible apply Within.of); exact rfl) | intro _
    | with_reducible apply Within.right | with_reducible apply Within.append
    | with_reducible apply Moves.step (hf ..) (Within.right _ _)
    | with_reducible apply Moves.step (State.onLedger_moves (fs := ([] ++ fs)) (hf := ?_) ..)
    | with_reducible apply Moves.step (State.onBlk_moves (fs := ([] ++ fs)) (hf := ?_) ..)
    | with_reducible apply Moves.ite | with_reducible apply Moves.foldl | with_reducible apply Moves.foldl_snd
    | with_reducible apply Moves.foldl_fst | ((with_reducible apply Moves.snd); assumption)
    | ((with_reducible apply Moves.fst); assumption) | split | dsimp only

theorem execTariffInstant_moves (samples : List (List (BitVec 24))) (s : State) :
    Goes [.regs, .mem, .ladder, .weft, .ledger, .free] s (execTariffInstant samples s) := by
  unfold execTariffInstant
  repeat' first
    | with_reducible apply Moves.refl | ((with_reducible apply Within.of); exact rfl) | intro _
    | with_reducible apply Goes.next | with_reducible apply Goes.fault | with_reducible apply Goes.ite
    | with_reducible apply Moves.step (State.onTariff_moves (fs := [.regs, .mem, .ladder, .weft, .ledger, .free]) (hf := ?_) ..)
    | with_reducible apply Moves.step (State.blockEnd_moves ..)
    | with_reducible apply Moves.step (State.saveCopy_moves ..)
    | with_reducible apply Moves.step (State.tarInstants_moves ..)
    | with_reducible apply Moves.step (State.rateSync_moves ..) | with_reducible apply Moves.ite
    | with_reducible apply Moves.foldl | with_reducible apply Moves.foldl_snd | with_reducible apply Moves.foldl_fst
    | ((with_reducible apply Moves.snd); assumption) | ((with_reducible apply Moves.fst); assumption) | split | dsimp only

theorem State.calLoad_moves (s : State) :
    Moves [.regs, .mem, .ecc, .ladder, .fabric, .weft, .power, .selv, .sense, .hs, .ledger, .free] s (State.calLoad s) := by
  unfold State.calLoad
  repeat' first
    | with_reducible apply Moves.refl | ((with_reducible apply Within.of); exact rfl) | intro _
    | with_reducible apply Moves.step (State.readBlock_moves ..) | with_reducible apply Moves.step (State.setFld_moves ..)
    | with_reducible apply Moves.step (State.setTar_moves ..) | with_reducible apply Moves.step (State.storeCal_moves ..)
    | with_reducible apply Moves.ite | with_reducible apply Moves.foldl | with_reducible apply Moves.foldl_snd
    | with_reducible apply Moves.foldl_fst | ((with_reducible apply Moves.snd); assumption)
    | ((with_reducible apply Moves.fst); assumption) | split | dsimp only

theorem execCalendarLoad_moves (s : State) :
    Goes [.regs, .mem, .ecc, .ladder, .fabric, .weft, .power, .selv, .sense, .hs, .ledger, .free] s (execCalendarLoad s) := by
  unfold execCalendarLoad
  repeat' first
    | with_reducible apply Moves.refl | ((with_reducible apply Within.of); exact rfl) | intro _
    | with_reducible apply Goes.next | with_reducible apply Goes.fault | with_reducible apply Goes.ite
    | with_reducible apply Moves.step (State.onTariff_moves (fs := [.regs, .mem, .ecc, .ladder, .fabric, .weft, .power, .selv, .sense, .hs, .ledger, .free]) (hf := ?_) ..)
    | with_reducible apply Moves.step (State.calLoad_moves ..) | with_reducible apply Moves.ite
    | with_reducible apply Moves.foldl | with_reducible apply Moves.foldl_snd | with_reducible apply Moves.foldl_fst
    | ((with_reducible apply Moves.snd); assumption) | ((with_reducible apply Moves.fst); assumption) | split | dsimp only

theorem State.billClose_moves (s : State) :
    Moves [.ledger] s (State.billClose s) := by
  unfold State.billClose
  repeat' first
    | with_reducible apply Moves.refl | ((with_reducible apply Within.of); exact rfl) | intro _
    | with_reducible apply Moves.step (State.setTar_moves ..) | with_reducible apply Moves.ite
    | with_reducible apply Moves.foldl | with_reducible apply Moves.foldl_snd | with_reducible apply Moves.foldl_fst
    | ((with_reducible apply Moves.snd); assumption) | ((with_reducible apply Moves.fst); assumption) | split | dsimp only

theorem execBillingClose_moves (s : State) :
    Goes [.ledger] s (execBillingClose s) := by
  unfold execBillingClose
  repeat' first
    | with_reducible apply Moves.refl | ((with_reducible apply Within.of); exact rfl) | intro _
    | with_reducible apply Goes.next | with_reducible apply Goes.fault | with_reducible apply Goes.ite
    | with_reducible apply Moves.step (State.onTariff_moves (fs := [.ledger]) (hf := ?_) ..)
    | with_reducible apply Moves.step (State.billClose_moves ..) | with_reducible apply Moves.ite
    | with_reducible apply Moves.foldl | with_reducible apply Moves.foldl_snd | with_reducible apply Moves.foldl_fst
    | ((with_reducible apply Moves.snd); assumption) | ((with_reducible apply Moves.fst); assumption) | split | dsimp only

theorem State.clockAdjust_moves (s : State) (abs : Bool) :
    Moves [.regs, .mem, .ladder, .weft, .power, .time, .sal, .zw, .grid, .ledger, .free] s (State.clockAdjust s abs) := by
  unfold State.clockAdjust
  repeat' first
    | with_reducible apply Moves.refl | ((with_reducible apply Within.of); exact rfl) | intro _
    | with_reducible apply Moves.step (State.setFlag_moves ..)
    | with_reducible apply Moves.step (State.adjResult_moves ..) | with_reducible apply Moves.step (State.adjust_moves ..)
    | with_reducible apply Moves.ite | with_reducible apply Moves.foldl | with_reducible apply Moves.foldl_snd
    | with_reducible apply Moves.foldl_fst | ((with_reducible apply Moves.snd); assumption)
    | ((with_reducible apply Moves.fst); assumption) | split | dsimp only

theorem execLegalClockAdjust_moves (abs : Bool) (s : State) :
    Goes [.regs, .mem, .ladder, .weft, .power, .time, .sal, .zw, .grid, .ledger, .free] s (execLegalClockAdjust abs s) := by
  unfold execLegalClockAdjust
  repeat' first
    | with_reducible apply Moves.refl | ((with_reducible apply Within.of); exact rfl) | intro _
    | with_reducible apply Goes.next | with_reducible apply Goes.fault | with_reducible apply Goes.ite
    | with_reducible apply Moves.step (State.onTariff_moves (fs := [.regs, .mem, .ladder, .weft, .power, .time, .sal, .zw, .grid, .ledger, .free]) (hf := ?_) ..)
    | with_reducible apply Moves.step (State.clockAdjust_moves ..) | with_reducible apply Moves.ite
    | with_reducible apply Moves.foldl | with_reducible apply Moves.foldl_snd | with_reducible apply Moves.foldl_fst
    | ((with_reducible apply Moves.snd); assumption) | ((with_reducible apply Moves.fst); assumption) | split | dsimp only

theorem execAutoSync_moves (s : State) :
    Goes [.regs, .ladder, .weft, .power, .time, .sal, .zw, .grid, .ledger] s (execAutoSync s) := by
  unfold execAutoSync
  repeat' first
    | with_reducible apply Moves.refl | ((with_reducible apply Within.of); exact rfl) | intro _
    | with_reducible apply Goes.next | with_reducible apply Goes.fault | with_reducible apply Goes.ite
    | with_reducible apply Moves.step (State.onTariff_moves (fs := [.regs, .ladder, .weft, .power, .time, .sal, .zw, .grid, .ledger]) (hf := ?_) ..)
    | with_reducible apply Moves.step (State.setTar_moves ..) | with_reducible apply Moves.step (State.adjSilent_moves ..)
    | with_reducible apply Moves.step (State.note_moves ..) | with_reducible apply Moves.step (State.setFlag_moves ..)
    | with_reducible apply Moves.ite | with_reducible apply Moves.foldl | with_reducible apply Moves.foldl_snd
    | with_reducible apply Moves.foldl_fst | ((with_reducible apply Moves.snd); assumption)
    | ((with_reducible apply Moves.fst); assumption) | split | dsimp only

theorem State.accResult_moves (s : State) (r : Nat) :
    Moves [.regs, .weft] s (State.accResult s r) := by
  unfold State.accResult
  repeat' first
    | with_reducible apply Moves.refl | ((with_reducible apply Within.of); exact rfl) | intro _
    | with_reducible apply Moves.step (State.line_moves ..) | with_reducible apply Moves.step (State.setFld_moves ..)
    | with_reducible apply Moves.ite | with_reducible apply Moves.foldl | with_reducible apply Moves.foldl_snd
    | with_reducible apply Moves.foldl_fst | ((with_reducible apply Moves.snd); assumption)
    | ((with_reducible apply Moves.fst); assumption) | split | dsimp only

theorem State.accFields_moves (s : State) (op acc : Nat) :
    Moves [.regs] s (State.accFields s op acc) := by
  unfold State.accFields
  repeat' first
    | with_reducible apply Moves.refl | ((with_reducible apply Within.of); exact rfl) | intro _
    | with_reducible apply Moves.step (State.setFld_moves ..) | with_reducible apply Moves.ite
    | with_reducible apply Moves.foldl | with_reducible apply Moves.foldl_snd | with_reducible apply Moves.foldl_fst
    | ((with_reducible apply Moves.snd); assumption) | ((with_reducible apply Moves.fst); assumption) | split | dsimp only

theorem State.moveBalance_moves (s : State) (op a : Nat) (sign : Int) :
    Moves [.regs, .mem, .ladder, .weft, .ledger] s (State.moveBalance s op a sign) := by
  unfold State.moveBalance
  repeat' first
    | with_reducible apply Moves.refl | ((with_reducible apply Within.of); exact rfl) | intro _
    | with_reducible apply Moves.step (State.accFields_moves ..)
    | with_reducible apply Moves.step (State.accResult_moves ..)
    | with_reducible apply Moves.step (State.setAccount_moves ..)
    | with_reducible apply Moves.step (State.accountSync_moves ..)
    | with_reducible apply Moves.step (State.accountRecord_moves ..) | with_reducible apply Moves.ite
    | with_reducible apply Moves.foldl | with_reducible apply Moves.foldl_snd | with_reducible apply Moves.foldl_fst
    | ((with_reducible apply Moves.snd); assumption) | ((with_reducible apply Moves.fst); assumption) | split | dsimp only

theorem execTopup_moves (acc : Byte) (s : State) :
    Goes [.regs, .mem, .ladder, .weft, .ledger] s (execTopup acc s) := by
  unfold execTopup
  repeat' first
    | with_reducible apply Moves.refl | ((with_reducible apply Within.of); exact rfl) | intro _
    | with_reducible apply Goes.next | with_reducible apply Goes.fault | with_reducible apply Goes.ite
    | with_reducible apply Moves.step (State.onTariff_moves (fs := [.regs, .mem, .ladder, .weft, .ledger]) (hf := ?_) ..)
    | with_reducible apply Moves.step (State.moveBalance_moves ..) | with_reducible apply Moves.ite
    | with_reducible apply Moves.foldl | with_reducible apply Moves.foldl_snd | with_reducible apply Moves.foldl_fst
    | ((with_reducible apply Moves.snd); assumption) | ((with_reducible apply Moves.fst); assumption) | split | dsimp only

theorem execDebit_moves (acc : Byte) (s : State) :
    Goes [.regs, .mem, .ladder, .weft, .ledger] s (execDebit acc s) := by
  unfold execDebit
  repeat' first
    | with_reducible apply Moves.refl | ((with_reducible apply Within.of); exact rfl) | intro _
    | with_reducible apply Goes.next | with_reducible apply Goes.fault | with_reducible apply Goes.ite
    | with_reducible apply Moves.step (State.onTariff_moves (fs := [.regs, .mem, .ladder, .weft, .ledger]) (hf := ?_) ..)
    | with_reducible apply Moves.step (State.moveBalance_moves ..) | with_reducible apply Moves.ite
    | with_reducible apply Moves.foldl | with_reducible apply Moves.foldl_snd | with_reducible apply Moves.foldl_fst
    | ((with_reducible apply Moves.snd); assumption) | ((with_reducible apply Moves.fst); assumption) | split | dsimp only

theorem State.accConfig_moves (s : State) (a : Nat) (ecEn : Bool) :
    Moves [.regs, .weft, .ledger] s (State.accConfig s a ecEn) := by
  unfold State.accConfig
  repeat' first
    | with_reducible apply Moves.refl | ((with_reducible apply Within.of); exact rfl) | intro _
    | with_reducible apply Moves.step (State.setFlag_moves ..)
    | with_reducible apply Moves.step (State.accFields_moves ..)
    | with_reducible apply Moves.step (State.setAccount_moves ..)
    | with_reducible apply Moves.step (State.accResult_moves ..) | with_reducible apply Moves.ite
    | with_reducible apply Moves.foldl | with_reducible apply Moves.foldl_snd | with_reducible apply Moves.foldl_fst
    | ((with_reducible apply Moves.snd); assumption) | ((with_reducible apply Moves.fst); assumption) | split | dsimp only

theorem execConfig_moves (acc : Byte) (ecEn : Bool) (s : State) :
    Goes [.regs, .weft, .ledger] s (execConfig acc ecEn s) := by
  unfold execConfig
  repeat' first
    | with_reducible apply Moves.refl | ((with_reducible apply Within.of); exact rfl) | intro _
    | with_reducible apply Goes.next | with_reducible apply Goes.fault | with_reducible apply Goes.ite
    | with_reducible apply Moves.step (State.onTariff_moves (fs := [.regs, .weft, .ledger]) (hf := ?_) ..)
    | with_reducible apply Moves.step (State.accConfig_moves ..) | with_reducible apply Moves.ite
    | with_reducible apply Moves.foldl | with_reducible apply Moves.foldl_snd | with_reducible apply Moves.foldl_fst
    | ((with_reducible apply Moves.snd); assumption) | ((with_reducible apply Moves.fst); assumption) | split | dsimp only

theorem execTarMemoryEcc_moves (cell : Fin 3) (double : Bool) (s : State) :
    Goes [.regs, .ladder] s (execTarMemoryEcc cell double s) := by
  unfold execTarMemoryEcc
  repeat' first
    | with_reducible apply Moves.refl | ((with_reducible apply Within.of); exact rfl) | intro _
    | with_reducible apply Goes.next | with_reducible apply Goes.fault | with_reducible apply Goes.ite
    | with_reducible apply Moves.step (State.onTariff_moves (fs := [.regs, .ladder]) (hf := ?_) ..)
    | with_reducible apply Moves.step (State.contain_moves ..) | with_reducible apply Moves.step (State.note_moves ..)
    | with_reducible apply Moves.ite | with_reducible apply Moves.foldl | with_reducible apply Moves.foldl_snd
    | with_reducible apply Moves.foldl_fst | ((with_reducible apply Moves.snd); assumption)
    | ((with_reducible apply Moves.fst); assumption) | split | dsimp only

end Sys2Proof.Machine
end

