-- ==== Sys2Proof/Laws/MovesThermalCommands.lean ====
section
/-!
SUPPORT. Laws/MovesThermalCommands.lean: which parts of the state each operation of Machine/ThermalCommands.lean moves.
-/
set_option Elab.async false
namespace Sys2Proof.Machine
set_option linter.all false

theorem State.thUnit_moves (s : State) (f : State → State) {fs : List Part} (hf : ∀ (t : State), Moves fs t (f t)) :
    Moves ([] ++ fs) s (State.thUnit s f) := by
  unfold State.thUnit
  repeat' first
    | with_reducible apply Moves.refl | ((with_reducible apply Within.of); exact rfl) | intro _
    | with_reducible apply Within.right | with_reducible apply Within.append
    | with_reducible apply Moves.step (hf ..) (Within.right _ _)
    | with_reducible apply Moves.step (State.onBlk_moves (fs := ([] ++ fs)) (hf := ?_) ..)
    | with_reducible apply Moves.ite | with_reducible apply Moves.foldl | with_reducible apply Moves.foldl_snd
    | with_reducible apply Moves.foldl_fst | ((with_reducible apply Moves.snd); assumption)
    | ((with_reducible apply Moves.fst); assumption) | split | dsimp only

theorem State.sensorConv_moves (s : State) (n r : Nat) :
    Moves [.regs, .ladder, .weft, .thermal] s (State.sensorConv s n r) := by
  unfold State.sensorConv
  repeat' first
    | with_reducible apply Moves.refl | ((with_reducible apply Within.of); exact rfl) | intro _
    | with_reducible apply Moves.step (State.setSensor_moves ..) | with_reducible apply Moves.step (State.line_moves ..)
    | with_reducible apply Moves.step (State.note_moves ..) | with_reducible apply Moves.step (State.setFlag_moves ..)
    | with_reducible apply Moves.ite | with_reducible apply Moves.foldl | with_reducible apply Moves.foldl_snd
    | with_reducible apply Moves.foldl_fst | ((with_reducible apply Moves.snd); assumption)
    | ((with_reducible apply Moves.fst); assumption) | split | dsimp only

theorem State.crossCheck_moves (s : State) (n : Nat) (med : Int) :
    Moves [.regs, .ladder, .weft, .thermal] s (State.crossCheck s n med) := by
  unfold State.crossCheck
  repeat' first
    | with_reducible apply Moves.refl | ((with_reducible apply Within.of); exact rfl) | intro _
    | with_reducible apply Moves.step (State.setSensor_moves ..) | with_reducible apply Moves.step (State.line_moves ..)
    | with_reducible apply Moves.step (State.note_moves ..) | with_reducible apply Moves.step (State.setFlag_moves ..)
    | with_reducible apply Moves.ite | with_reducible apply Moves.foldl | with_reducible apply Moves.foldl_snd
    | with_reducible apply Moves.foldl_fst | ((with_reducible apply Moves.snd); assumption)
    | ((with_reducible apply Moves.fst); assumption) | split | dsimp only

theorem execTsConversion_moves (n : Fin 64) (r : BitVec 20) (s : State) :
    Goes [.regs, .ladder, .weft, .twill, .thermal] s (execTsConversion n r s) := by
  unfold execTsConversion
  repeat' first
    | with_reducible apply Moves.refl | ((with_reducible apply Within.of); exact rfl) | intro _
    | with_reducible apply Goes.next | with_reducible apply Goes.fault | with_reducible apply Goes.ite
    | with_reducible apply Moves.step (State.thUnit_moves (fs := [.regs, .ladder, .weft, .twill, .thermal]) (hf := ?_) ..)
    | with_reducible apply Moves.step (State.sensorConv_moves ..) | with_reducible apply Moves.step (State.line_moves ..)
    | with_reducible apply Moves.step (State.setFlag_moves ..)
    | with_reducible apply Moves.step (State.crossCheck_moves ..)
    | with_reducible apply Moves.step (State.holdSyncAll_moves ..)
    | with_reducible apply Moves.step (State.shutdown_moves ..) | with_reducible apply Moves.step (State.setFld_moves ..)
    | with_reducible apply Moves.step (State.fanSyncAll_moves ..)
    | with_reducible apply Moves.step (State.bandSync_moves ..) | with_reducible apply Moves.ite
    | with_reducible apply Moves.foldl | with_reducible apply Moves.foldl_snd | with_reducible apply Moves.foldl_fst
    | ((with_reducible apply Moves.snd); assumption) | ((with_reducible apply Moves.fst); assumption) | split | dsimp only

theorem execCableModelUpdate_moves (o : Fin 8) (s : State) :
    Goes [.regs, .ladder, .weft, .twill, .thermal, .free] s (execCableModelUpdate o s) := by
  unfold execCableModelUpdate
  repeat' first
    | with_reducible apply Moves.refl | ((with_reducible apply Within.of); exact rfl) | intro _
    | with_reducible apply Goes.next | with_reducible apply Goes.fault | with_reducible apply Goes.ite
    | with_reducible apply Moves.step (State.thUnit_moves (fs := [.regs, .ladder, .weft, .twill, .thermal, .free]) (hf := ?_) ..)
    | with_reducible apply Moves.step (State.setCable_moves ..)
    | with_reducible apply Moves.step (State.holdSync_moves ..)
    | with_reducible apply Moves.step (State.shutdown_moves ..) | with_reducible apply Moves.step (State.took_moves ..)
    | with_reducible apply Moves.step (State.setFld_moves ..) | with_reducible apply Moves.step (State.setFlag_moves ..)
    | with_reducible apply Moves.step (State.line_moves ..) | with_reducible apply Moves.ite
    | with_reducible apply Moves.foldl | with_reducible apply Moves.foldl_snd | with_reducible apply Moves.foldl_fst
    | ((with_reducible apply Moves.snd); assumption) | ((with_reducible apply Moves.fst); assumption) | split | dsimp only

theorem execDaRecompute_moves (o : Fin 8) (s : State) :
    Goes [.regs, .weft, .twill, .thermal, .free] s (execDaRecompute o s) := by
  unfold execDaRecompute
  repeat' first
    | with_reducible apply Moves.refl | ((with_reducible apply Within.of); exact rfl) | intro _
    | with_reducible apply Goes.next | with_reducible apply Goes.fault | with_reducible apply Goes.ite
    | with_reducible apply Moves.step (State.thUnit_moves (fs := [.regs, .weft, .twill, .thermal, .free]) (hf := ?_) ..)
    | with_reducible apply Moves.step (State.setDa_moves ..) | with_reducible apply Moves.step (State.took_moves ..)
    | with_reducible apply Moves.step (State.setFlag_moves ..) | with_reducible apply Moves.step (State.setFld_moves ..)
    | with_reducible apply Moves.step (State.fanSyncAll_moves ..) | with_reducible apply Moves.ite
    | with_reducible apply Moves.foldl | with_reducible apply Moves.foldl_snd | with_reducible apply Moves.foldl_fst
    | ((with_reducible apply Moves.snd); assumption) | ((with_reducible apply Moves.fst); assumption) | split | dsimp only

theorem execEnfUpdate_moves (o : Fin 8) (s : State) :
    Goes [.regs, .twill] s (execEnfUpdate o s) := by
  unfold execEnfUpdate
  repeat' first
    | with_reducible apply Moves.refl | ((with_reducible apply Within.of); exact rfl) | intro _
    | with_reducible apply Goes.next | with_reducible apply Goes.fault | with_reducible apply Goes.ite
    | with_reducible apply Moves.step (State.thUnit_moves (fs := [.regs, .twill]) (hf := ?_) ..)
    | with_reducible apply Moves.step (State.setEnf_moves ..) | with_reducible apply Moves.ite
    | with_reducible apply Moves.foldl | with_reducible apply Moves.foldl_snd | with_reducible apply Moves.foldl_fst
    | ((with_reducible apply Moves.snd); assumption) | ((with_reducible apply Moves.fst); assumption) | split | dsimp only

theorem execShutdownHoldComplete_moves (o : Fin 8) (s : State) :
    Goes [.regs, .weft] s (execShutdownHoldComplete o s) := by
  unfold execShutdownHoldComplete
  repeat' first
    | with_reducible apply Moves.refl | ((with_reducible apply Within.of); exact rfl) | intro _
    | with_reducible apply Goes.next | with_reducible apply Goes.fault | with_reducible apply Goes.ite
    | with_reducible apply Moves.step (State.thUnit_moves (fs := [.regs, .weft]) (hf := ?_) ..)
    | with_reducible apply Moves.step (State.line_moves ..) | with_reducible apply Moves.step (State.setFlag_moves ..)
    | with_reducible apply Moves.ite | with_reducible apply Moves.foldl | with_reducible apply Moves.foldl_snd
    | with_reducible apply Moves.foldl_fst | ((with_reducible apply Moves.snd); assumption)
    | ((with_reducible apply Moves.fst); assumption) | split | dsimp only

theorem State.cblAck_moves (s : State) (o : Nat) :
    Moves [.regs, .ladder, .thermal] s (State.cblAck s o) := by
  unfold State.cblAck
  repeat' first
    | with_reducible apply Moves.refl | ((with_reducible apply Within.of); exact rfl) | intro _
    | with_reducible apply Moves.step (State.setFlag_moves ..)
    | with_reducible apply Moves.step (State.queueRecord_moves ..)
    | with_reducible apply Moves.step (State.setCable_moves ..) | with_reducible apply Moves.ite
    | with_reducible apply Moves.foldl | with_reducible apply Moves.foldl_snd | with_reducible apply Moves.foldl_fst
    | ((with_reducible apply Moves.snd); assumption) | ((with_reducible apply Moves.fst); assumption) | split | dsimp only

theorem execCblAck_moves (o : Fin 8) (s : State) :
    Goes [.regs, .ladder, .thermal] s (execCblAck o s) := by
  unfold execCblAck
  repeat' first
    | with_reducible apply Moves.refl | ((with_reducible apply Within.of); exact rfl) | intro _
    | with_reducible apply Goes.next | with_reducible apply Goes.fault | with_reducible apply Goes.ite
    | with_reducible apply Moves.step (State.onBlk_moves (fs := [.regs, .ladder, .thermal]) (hf := ?_) ..)
    | with_reducible apply Moves.step (State.cblAck_moves ..) | with_reducible apply Moves.ite
    | with_reducible apply Moves.foldl | with_reducible apply Moves.foldl_snd | with_reducible apply Moves.foldl_fst
    | ((with_reducible apply Moves.snd); assumption) | ((with_reducible apply Moves.fst); assumption) | split | dsimp only

theorem execCblEnable_moves (o : Fin 8) (data : Word) (s : State) :
    Goes [.regs, .weft, .twill, .thermal] s (execCblEnable o data s) := by
  unfold execCblEnable
  repeat' first
    | with_reducible apply Moves.refl | ((with_reducible apply Within.of); exact rfl) | intro _
    | with_reducible apply Goes.next | with_reducible apply Goes.fault | with_reducible apply Goes.ite
    | with_reducible apply Moves.step (State.onBlk_moves (fs := [.regs, .weft, .twill, .thermal]) (hf := ?_) ..)
    | with_reducible apply Moves.step (State.cblCfgWrite_moves ..) | with_reducible apply Moves.ite
    | with_reducible apply Moves.foldl | with_reducible apply Moves.foldl_snd | with_reducible apply Moves.foldl_fst
    | ((with_reducible apply Moves.snd); assumption) | ((with_reducible apply Moves.fst); assumption) | split | dsimp only

theorem execTachEdge_moves (k : Fin 4) (s : State) :
    Goes [.regs, .ladder, .thermal] s (execTachEdge k s) := by
  unfold execTachEdge
  repeat' first
    | with_reducible apply Moves.refl | ((with_reducible apply Within.of); exact rfl) | intro _
    | with_reducible apply Goes.next | with_reducible apply Goes.fault | with_reducible apply Goes.ite
    | with_reducible apply Moves.step (State.onBlk_moves (fs := [.regs, .ladder, .thermal]) (hf := ?_) ..)
    | with_reducible apply Moves.step (State.setFan_moves ..) | with_reducible apply Moves.step (State.note_moves ..)
    | with_reducible apply Moves.step (State.setFlag_moves ..) | with_reducible apply Moves.step (State.fanSync_moves ..)
    | with_reducible apply Moves.step (State.setFld_moves ..) | with_reducible apply Moves.ite
    | with_reducible apply Moves.foldl | with_reducible apply Moves.foldl_snd | with_reducible apply Moves.foldl_fst
    | ((with_reducible apply Moves.snd); assumption) | ((with_reducible apply Moves.fst); assumption) | split | dsimp only

theorem execTachTimeout_moves (k : Fin 4) (s : State) :
    Goes [.regs, .thermal] s (execTachTimeout k s) := by
  unfold execTachTimeout
  repeat' first
    | with_reducible apply Moves.refl | ((with_reducible apply Within.of); exact rfl) | intro _
    | with_reducible apply Goes.next | with_reducible apply Goes.fault | with_reducible apply Goes.ite
    | with_reducible apply Moves.step (State.onBlk_moves (fs := [.regs, .thermal]) (hf := ?_) ..)
    | with_reducible apply Moves.step (State.fanSync_moves ..) | with_reducible apply Moves.step (State.setFld_moves ..)
    | with_reducible apply Moves.step (State.setFan_moves ..) | with_reducible apply Moves.ite
    | with_reducible apply Moves.foldl | with_reducible apply Moves.foldl_snd | with_reducible apply Moves.foldl_fst
    | ((with_reducible apply Moves.snd); assumption) | ((with_reducible apply Moves.fst); assumption) | split | dsimp only

theorem execFanStall_moves (k : Fin 4) (s : State) :
    Goes [.regs, .ladder, .weft, .thermal] s (execFanStall k s) := by
  unfold execFanStall
  repeat' first
    | with_reducible apply Moves.refl | ((with_reducible apply Within.of); exact rfl) | intro _
    | with_reducible apply Goes.next | with_reducible apply Goes.fault | with_reducible apply Goes.ite
    | with_reducible apply Moves.step (State.onBlk_moves (fs := [.regs, .ladder, .weft, .thermal]) (hf := ?_) ..)
    | with_reducible apply Moves.step (State.fanSync_moves ..) | with_reducible apply Moves.step (State.line_moves ..)
    | with_reducible apply Moves.step (State.note_moves ..) | with_reducible apply Moves.step (State.setFlag_moves ..)
    | with_reducible apply Moves.ite | with_reducible apply Moves.foldl | with_reducible apply Moves.foldl_snd
    | with_reducible apply Moves.foldl_fst | ((with_reducible apply Moves.snd); assumption)
    | ((with_reducible apply Moves.fst); assumption) | split | dsimp only

theorem execTjConversion_moves (j : Fin 8) (t : BitVec 16) (s : State) :
    Goes [.regs, .ladder, .weft, .thermal] s (execTjConversion j t s) := by
  unfold execTjConversion
  repeat' first
    | with_reducible apply Moves.refl | ((with_reducible apply Within.of); exact rfl) | intro _
    | with_reducible apply Goes.next | with_reducible apply Goes.fault | with_reducible apply Goes.ite
    | with_reducible apply Moves.step (State.thUnit_moves (fs := [.regs, .ladder, .weft, .thermal]) (hf := ?_) ..)
    | with_reducible apply Moves.step (State.wrNat_moves ..) | with_reducible apply Moves.step (State.line_moves ..)
    | with_reducible apply Moves.step (State.note_moves ..) | with_reducible apply Moves.step (State.contain_moves ..)
    | with_reducible apply Moves.step (State.setThermal_moves ..)
    | with_reducible apply Moves.step (State.recovers_moves ..) | with_reducible apply Moves.ite
    | with_reducible apply Moves.foldl | with_reducible apply Moves.foldl_snd | with_reducible apply Moves.foldl_fst
    | ((with_reducible apply Moves.snd); assumption) | ((with_reducible apply Moves.fst); assumption) | split | dsimp only

theorem execThermalReferenceCheck_moves (ratio : BitVec 20) (s : State) :
    Goes [.regs, .ladder, .weft, .twill, .thermal] s (execThermalReferenceCheck ratio s) := by
  unfold execThermalReferenceCheck
  repeat' first
    | with_reducible apply Moves.refl | ((with_reducible apply Within.of); exact rfl) | intro _
    | with_reducible apply Goes.next | with_reducible apply Goes.fault | with_reducible apply Goes.ite
    | with_reducible apply Moves.step (State.thUnit_moves (fs := [.regs, .ladder, .weft, .twill, .thermal]) (hf := ?_) ..)
    | with_reducible apply Moves.step (State.setFlag_moves ..)
    | with_reducible apply Moves.step (State.setThermal_moves ..)
    | with_reducible apply Moves.step (State.fanSyncAll_moves ..)
    | with_reducible apply Moves.step (State.holdSyncAll_moves ..)
    | with_reducible apply Moves.step (State.recovers_moves ..)
    | with_reducible apply Moves.step (State.refFails_moves ..) | with_reducible apply Moves.ite
    | with_reducible apply Moves.foldl | with_reducible apply Moves.foldl_snd | with_reducible apply Moves.foldl_fst
    | ((with_reducible apply Moves.snd); assumption) | ((with_reducible apply Moves.fst); assumption) | split | dsimp only

end Sys2Proof.Machine
end

