-- ==== Sys2Proof/Laws/MovesTimeCommands.lean ====
section
/-!
SUPPORT. Laws/MovesTimeCommands.lean: which parts of the state each operation of Machine/TimeCommands.lean moves.
-/
set_option Elab.async false
namespace Sys2Proof.Machine
set_option linter.all false

theorem execTbStepGo_moves (n : Fin 4) (slot : Fin 19) (abs : Bool) (s : State) :
    Goes [.regs, .ladder, .time] s (execTbStepGo n slot abs s) := by
  unfold execTbStepGo
  repeat' first
    | with_reducible apply Moves.refl | ((with_reducible apply Within.of); exact rfl) | intro _
    | with_reducible apply Goes.next | with_reducible apply Goes.fault | with_reducible apply Goes.ite
    | with_reducible apply Moves.step (State.onBlk_moves (fs := [.regs, .ladder, .time]) (hf := ?_) ..)
    | with_reducible apply Moves.step (State.tbMay_moves (fs := [.regs, .ladder, .time]) (hf := ?_) ..)
    | with_reducible apply Moves.step (State.tbGo_moves ..) | with_reducible apply Moves.step (State.setFlag_moves ..)
    | with_reducible apply Moves.ite | with_reducible apply Moves.foldl | with_reducible apply Moves.foldl_snd
    | with_reducible apply Moves.foldl_fst | ((with_reducible apply Moves.snd); assumption)
    | ((with_reducible apply Moves.fst); assumption) | split | dsimp only

theorem execTbStepApply_moves (n : Fin 4) (s : State) :
    Goes [.regs, .weft, .power, .time, .sal, .zw, .grid] s (execTbStepApply n s) := by
  unfold execTbStepApply
  repeat' first
    | with_reducible apply Moves.refl | ((with_reducible apply Within.of); exact rfl) | intro _
    | with_reducible apply Goes.next | with_reducible apply Goes.fault | with_reducible apply Goes.ite
    | with_reducible apply Moves.step (State.onBlk_moves (fs := [.regs, .weft, .power, .time, .sal, .zw, .grid]) (hf := ?_) ..)
    | with_reducible apply Moves.step (State.tbApply_moves ..) | with_reducible apply Moves.ite
    | with_reducible apply Moves.foldl | with_reducible apply Moves.foldl_snd | with_reducible apply Moves.foldl_fst
    | ((with_reducible apply Moves.snd); assumption) | ((with_reducible apply Moves.fst); assumption) | split | dsimp only

theorem execTbRateWrite_moves (n : Fin 4) (slot : Fin 19) (data : Word) (s : State) :
    Goes [.regs, .power, .time] s (execTbRateWrite n slot data s) := by
  unfold execTbRateWrite
  repeat' first
    | with_reducible apply Moves.refl | ((with_reducible apply Within.of); exact rfl) | intro _
    | with_reducible apply Goes.next | with_reducible apply Goes.fault | with_reducible apply Goes.ite
    | with_reducible apply Moves.step (State.onBlk_moves (fs := [.regs, .power, .time]) (hf := ?_) ..)
    | with_reducible apply Moves.step (State.tbMay_moves (fs := [.regs, .power, .time]) (hf := ?_) ..)
    | with_reducible apply Moves.step (State.tbRateWrite_moves ..) | with_reducible apply Moves.ite
    | with_reducible apply Moves.foldl | with_reducible apply Moves.foldl_snd | with_reducible apply Moves.foldl_fst
    | ((with_reducible apply Moves.snd); assumption) | ((with_reducible apply Moves.fst); assumption) | split | dsimp only

theorem execTbSrcWrite_moves (n : Fin 4) (slot : Fin 19) (data : Word) (s : State) :
    Goes [.regs, .weft, .power, .time] s (execTbSrcWrite n slot data s) := by
  unfold execTbSrcWrite
  repeat' first
    | with_reducible apply Moves.refl | ((with_reducible apply Within.of); exact rfl) | intro _
    | with_reducible apply Goes.next | with_reducible apply Goes.fault | with_reducible apply Goes.ite
    | with_reducible apply Moves.step (State.onBlk_moves (fs := [.regs, .weft, .power, .time]) (hf := ?_) ..)
    | with_reducible apply Moves.step (State.tbMay_moves (fs := [.regs, .weft, .power, .time]) (hf := ?_) ..)
    | with_reducible apply Moves.step (State.tbCfgWrite_moves ..) | with_reducible apply Moves.ite
    | with_reducible apply Moves.foldl | with_reducible apply Moves.foldl_snd | with_reducible apply Moves.foldl_fst
    | ((with_reducible apply Moves.snd); assumption) | ((with_reducible apply Moves.fst); assumption) | split | dsimp only

theorem State.tbFollow236_moves (s : State) (n m : Nat) :
    Moves [.regs, .weft, .time] s (State.tbFollow236 s n m) := by
  unfold State.tbFollow236
  repeat' first
    | with_reducible apply Moves.refl | ((with_reducible apply Within.of); exact rfl) | intro _
    | with_reducible apply Moves.step (State.setTb_moves ..) | with_reducible apply Moves.step (State.setTbState_moves ..)
    | with_reducible apply Moves.ite | with_reducible apply Moves.foldl | with_reducible apply Moves.foldl_snd
    | with_reducible apply Moves.foldl_fst | ((with_reducible apply Moves.snd); assumption)
    | ((with_reducible apply Moves.fst); assumption) | split | dsimp only

theorem State.tbServo_moves (s : State) (n : Nat) (θ : Int) :
    Moves [.regs, .power, .time] s (State.tbServo s n θ) := by
  unfold State.tbServo
  repeat' first
    | with_reducible apply Moves.refl | ((with_reducible apply Within.of); exact rfl) | intro _
    | with_reducible apply Moves.step (State.setTb_moves ..)
    | with_reducible apply Moves.step (State.tbServoRate_moves ..) | with_reducible apply Moves.ite
    | with_reducible apply Moves.foldl | with_reducible apply Moves.foldl_snd | with_reducible apply Moves.foldl_fst
    | ((with_reducible apply Moves.snd); assumption) | ((with_reducible apply Moves.fst); assumption) | split | dsimp only

theorem execTbOffset_moves (n : Fin 4) (s : State) :
    Goes [.regs, .weft, .power, .time] s (execTbOffset n s) := by
  unfold execTbOffset
  repeat' first
    | with_reducible apply Moves.refl | ((with_reducible apply Within.of); exact rfl) | intro _
    | with_reducible apply Goes.next | with_reducible apply Goes.fault | with_reducible apply Goes.ite
    | with_reducible apply Moves.step (State.onBlk_moves (fs := [.regs, .weft, .power, .time]) (hf := ?_) ..)
    | with_reducible apply Moves.step (State.setTb_moves ..) | with_reducible apply Moves.step (State.wr_moves ..)
    | with_reducible apply Moves.step (State.tbFollow236_moves ..)
    | with_reducible apply Moves.step (State.tbServo_moves ..) | with_reducible apply Moves.ite
    | with_reducible apply Moves.foldl | with_reducible apply Moves.foldl_snd | with_reducible apply Moves.foldl_fst
    | ((with_reducible apply Moves.snd); assumption) | ((with_reducible apply Moves.fst); assumption) | split | dsimp only

theorem execTbHoldover_moves (n : Fin 4) (s : State) :
    Goes [.regs, .weft, .power, .time] s (execTbHoldover n s) := by
  unfold execTbHoldover
  repeat' first
    | with_reducible apply Moves.refl | ((with_reducible apply Within.of); exact rfl) | intro _
    | with_reducible apply Goes.next | with_reducible apply Goes.fault | with_reducible apply Goes.ite
    | with_reducible apply Moves.step (State.onBlk_moves (fs := [.regs, .weft, .power, .time]) (hf := ?_) ..)
    | with_reducible apply Moves.step (State.setTb_moves ..)
    | with_reducible apply Moves.step (State.tbServoRate_moves ..)
    | with_reducible apply Moves.step (State.setTbState_moves ..) | with_reducible apply Moves.ite
    | with_reducible apply Moves.foldl | with_reducible apply Moves.foldl_snd | with_reducible apply Moves.foldl_fst
    | ((with_reducible apply Moves.snd); assumption) | ((with_reducible apply Moves.fst); assumption) | split | dsimp only

theorem execTbHoldExpired_moves (n : Fin 4) (s : State) :
    Goes [.regs, .ladder, .weft] s (execTbHoldExpired n s) := by
  unfold execTbHoldExpired
  repeat' first
    | with_reducible apply Moves.refl | ((with_reducible apply Within.of); exact rfl) | intro _
    | with_reducible apply Goes.next | with_reducible apply Goes.fault | with_reducible apply Goes.ite
    | with_reducible apply Moves.step (State.onBlk_moves (fs := [.regs, .ladder, .weft]) (hf := ?_) ..)
    | with_reducible apply Moves.step (State.note_moves ..) | with_reducible apply Moves.step (State.setTbState_moves ..)
    | with_reducible apply Moves.ite | with_reducible apply Moves.foldl | with_reducible apply Moves.foldl_snd
    | with_reducible apply Moves.foldl_fst | ((with_reducible apply Moves.snd); assumption)
    | ((with_reducible apply Moves.fst); assumption) | split | dsimp only

theorem State.tbTake_moves (s : State) (n : Nat) :
    Moves [.regs] s (State.tbTake s n) := by
  unfold State.tbTake
  repeat' first
    | with_reducible apply Moves.refl | ((with_reducible apply Within.of); exact rfl) | intro _
    | with_reducible apply Moves.step (State.wrNat_moves ..) | with_reducible apply Moves.ite
    | with_reducible apply Moves.foldl | with_reducible apply Moves.foldl_snd | with_reducible apply Moves.foldl_fst
    | ((with_reducible apply Moves.snd); assumption) | ((with_reducible apply Moves.fst); assumption) | split | dsimp only

theorem execTbTimeRead_moves (n : Fin 4) (s : State) :
    Goes [.regs] s (execTbTimeRead n s) := by
  unfold execTbTimeRead
  repeat' first
    | with_reducible apply Moves.refl | ((with_reducible apply Within.of); exact rfl) | intro _
    | with_reducible apply Goes.next | with_reducible apply Goes.fault | with_reducible apply Goes.ite
    | with_reducible apply Moves.step (State.onBlk_moves (fs := [.regs]) (hf := ?_) ..)
    | with_reducible apply Moves.step (State.tbTake_moves ..) | with_reducible apply Moves.ite
    | with_reducible apply Moves.foldl | with_reducible apply Moves.foldl_snd | with_reducible apply Moves.foldl_fst
    | ((with_reducible apply Moves.snd); assumption) | ((with_reducible apply Moves.fst); assumption) | split | dsimp only

theorem execToutArm_moves (k : Fin 8) (data : Word) (s : State) :
    Goes [.regs, .weft, .time, .free] s (execToutArm k data s) := by
  unfold execToutArm
  repeat' first
    | with_reducible apply Moves.refl | ((with_reducible apply Within.of); exact rfl) | intro _
    | with_reducible apply Goes.next | with_reducible apply Goes.fault | with_reducible apply Goes.ite
    | with_reducible apply Moves.step (State.onBlk_moves (fs := [.regs, .weft, .time, .free]) (hf := ?_) ..)
    | with_reducible apply Moves.step (State.toutCfgWrite_moves ..) | with_reducible apply Moves.ite
    | with_reducible apply Moves.foldl | with_reducible apply Moves.foldl_snd | with_reducible apply Moves.foldl_fst
    | ((with_reducible apply Moves.snd); assumption) | ((with_reducible apply Moves.fst); assumption) | split | dsimp only

theorem execToutDisarm_moves (k : Fin 8) (data : Word) (s : State) :
    Goes [.regs, .weft, .time, .free] s (execToutDisarm k data s) := by
  unfold execToutDisarm
  repeat' first
    | with_reducible apply Moves.refl | ((with_reducible apply Within.of); exact rfl) | intro _
    | with_reducible apply Goes.next | with_reducible apply Goes.fault | with_reducible apply Goes.ite
    | with_reducible apply Moves.step (State.onBlk_moves (fs := [.regs, .weft, .time, .free]) (hf := ?_) ..)
    | with_reducible apply Moves.step (State.toutCfgWrite_moves ..) | with_reducible apply Moves.ite
    | with_reducible apply Moves.foldl | with_reducible apply Moves.foldl_snd | with_reducible apply Moves.foldl_fst
    | ((with_reducible apply Moves.snd); assumption) | ((with_reducible apply Moves.fst); assumption) | split | dsimp only

theorem execToutActive_moves (k : Fin 8) (s : State) :
    Goes [.weft, .time] s (execToutActive k s) := by
  unfold execToutActive
  repeat' first
    | with_reducible apply Moves.refl | ((with_reducible apply Within.of); exact rfl) | intro _
    | with_reducible apply Goes.next | with_reducible apply Goes.fault | with_reducible apply Goes.ite
    | with_reducible apply Moves.step (State.onBlk_moves (fs := [.weft, .time]) (hf := ?_) ..)
    | with_reducible apply Moves.step (State.toutRise_moves ..) | with_reducible apply Moves.ite
    | with_reducible apply Moves.foldl | with_reducible apply Moves.foldl_snd | with_reducible apply Moves.foldl_fst
    | ((with_reducible apply Moves.snd); assumption) | ((with_reducible apply Moves.fst); assumption) | split | dsimp only

theorem execToutInactive_moves (k : Fin 8) (s : State) :
    Goes [.time] s (execToutInactive k s) := by
  unfold execToutInactive
  repeat' first
    | with_reducible apply Moves.refl | ((with_reducible apply Within.of); exact rfl) | intro _
    | with_reducible apply Goes.next | with_reducible apply Goes.fault | with_reducible apply Goes.ite
    | with_reducible apply Moves.step (State.onBlk_moves (fs := [.time]) (hf := ?_) ..)
    | with_reducible apply Moves.step (State.setTout_moves ..) | with_reducible apply Moves.ite
    | with_reducible apply Moves.foldl | with_reducible apply Moves.foldl_snd | with_reducible apply Moves.foldl_fst
    | ((with_reducible apply Moves.snd); assumption) | ((with_reducible apply Moves.fst); assumption) | split | dsimp only

theorem execTcapEdge_moves (k : Fin 8) (rising : Bool) (s : State) :
    Goes [.time] s (execTcapEdge k rising s) := by
  unfold execTcapEdge
  repeat' first
    | with_reducible apply Moves.refl | ((with_reducible apply Within.of); exact rfl) | intro _
    | with_reducible apply Goes.next | with_reducible apply Goes.fault | with_reducible apply Goes.ite
    | with_reducible apply Moves.step (State.onBlk_moves (fs := [.time]) (hf := ?_) ..)
    | with_reducible apply Moves.step (State.setTcap_moves ..) | with_reducible apply Moves.ite
    | with_reducible apply Moves.foldl | with_reducible apply Moves.foldl_snd | with_reducible apply Moves.foldl_fst
    | ((with_reducible apply Moves.snd); assumption) | ((with_reducible apply Moves.fst); assumption) | split | dsimp only

theorem State.tcapPush_moves (s : State) (k : Nat) (t : Stamp) :
    Moves [.regs, .ladder, .weft, .time] s (State.tcapPush s k t) := by
  unfold State.tcapPush
  repeat' first
    | with_reducible apply Moves.refl | ((with_reducible apply Within.of); exact rfl) | intro _
    | with_reducible apply Moves.step (State.note_moves ..) | with_reducible apply Moves.step (State.setFlag_moves ..)
    | with_reducible apply Moves.step (State.setTcap_moves ..) | with_reducible apply Moves.step (State.line_moves ..)
    | with_reducible apply Moves.step (State.setFld_moves ..) | with_reducible apply Moves.ite
    | with_reducible apply Moves.foldl | with_reducible apply Moves.foldl_snd | with_reducible apply Moves.foldl_fst
    | ((with_reducible apply Moves.snd); assumption) | ((with_reducible apply Moves.fst); assumption) | split | dsimp only

theorem execTcapStamp_moves (k : Fin 8) (s : State) :
    Goes [.regs, .ladder, .weft, .time] s (execTcapStamp k s) := by
  unfold execTcapStamp
  repeat' first
    | with_reducible apply Moves.refl | ((with_reducible apply Within.of); exact rfl) | intro _
    | with_reducible apply Goes.next | with_reducible apply Goes.fault | with_reducible apply Goes.ite
    | with_reducible apply Moves.step (State.onBlk_moves (fs := [.regs, .ladder, .weft, .time]) (hf := ?_) ..)
    | with_reducible apply Moves.step (State.setTcap_moves ..) | with_reducible apply Moves.step (State.tcapPush_moves ..)
    | with_reducible apply Moves.step (State.note_moves ..) | with_reducible apply Moves.step (State.setFlag_moves ..)
    | with_reducible apply Moves.ite | with_reducible apply Moves.foldl | with_reducible apply Moves.foldl_snd
    | with_reducible apply Moves.foldl_fst | ((with_reducible apply Moves.snd); assumption)
    | ((with_reducible apply Moves.fst); assumption) | split | dsimp only

theorem State.tcapTake_moves (s : State) (k : Nat) :
    Moves [.regs, .time] s (State.tcapTake s k) := by
  unfold State.tcapTake
  repeat' first
    | with_reducible apply Moves.refl | ((with_reducible apply Within.of); exact rfl) | intro _
    | with_reducible apply Moves.step (State.setFld_moves ..) | with_reducible apply Moves.step (State.setTcap_moves ..)
    | with_reducible apply Moves.step (State.wrNat_moves ..) | with_reducible apply Moves.ite
    | with_reducible apply Moves.foldl | with_reducible apply Moves.foldl_snd | with_reducible apply Moves.foldl_fst
    | ((with_reducible apply Moves.snd); assumption) | ((with_reducible apply Moves.fst); assumption) | split | dsimp only

theorem execTcapRead_moves (k : Fin 8) (s : State) :
    Goes [.regs, .time] s (execTcapRead k s) := by
  unfold execTcapRead
  repeat' first
    | with_reducible apply Moves.refl | ((with_reducible apply Within.of); exact rfl) | intro _
    | with_reducible apply Goes.next | with_reducible apply Goes.fault | with_reducible apply Goes.ite
    | with_reducible apply Moves.step (State.onBlk_moves (fs := [.regs, .time]) (hf := ?_) ..)
    | with_reducible apply Moves.step (State.tcapTake_moves ..) | with_reducible apply Moves.ite
    | with_reducible apply Moves.foldl | with_reducible apply Moves.foldl_snd | with_reducible apply Moves.foldl_fst
    | ((with_reducible apply Moves.snd); assumption) | ((with_reducible apply Moves.fst); assumption) | split | dsimp only

end Sys2Proof.Machine
end

