-- ==== Sys2Proof/Laws/MovesTwillCommands.lean ====
section
/-!
SUPPORT. Laws/MovesTwillCommands.lean: which parts of the state each operation of Machine/TwillCommands.lean moves.
-/
set_option Elab.async false
namespace Sys2Proof.Machine
set_option linter.all false

theorem execTwOverrunLimit_moves (e : Fin 4) (sl : Fin 8) (s : State) :
    Goes [.regs, .ladder, .twill] s (execTwOverrunLimit e sl s) := by
  unfold execTwOverrunLimit
  repeat' first
    | with_reducible apply Moves.refl | ((with_reducible apply Within.of); exact rfl) | intro _
    | with_reducible apply Goes.next | with_reducible apply Goes.fault | with_reducible apply Goes.ite
    | with_reducible apply Moves.step (State.onBlk_moves (fs := [.regs, .ladder, .twill]) (hf := ?_) ..)
    | with_reducible apply Moves.step (State.contain_moves ..) | with_reducible apply Moves.step (State.setFlag_moves ..)
    | with_reducible apply Moves.step (State.setTe_moves ..) | with_reducible apply Moves.ite
    | with_reducible apply Moves.foldl | with_reducible apply Moves.foldl_snd | with_reducible apply Moves.foldl_fst
    | ((with_reducible apply Moves.snd); assumption) | ((with_reducible apply Moves.fst); assumption) | split | dsimp only

theorem execTwSlotStart_moves (e : Fin 4) (s : State) :
    Goes [.regs, .live, .twill] s (execTwSlotStart e s) := by
  unfold execTwSlotStart
  repeat' first
    | with_reducible apply Moves.refl | ((with_reducible apply Within.of); exact rfl) | intro _
    | with_reducible apply Goes.next | with_reducible apply Goes.fault | with_reducible apply Goes.ite
    | with_reducible apply Moves.step (State.onBlk_moves (fs := [.regs, .live, .twill]) (hf := ?_) ..)
    | with_reducible apply Moves.step (State.setFlag_moves ..) | with_reducible apply Moves.step (State.wrLive_moves ..)
    | with_reducible apply Moves.step (State.commit_moves ..) | with_reducible apply Moves.step (State.setFld_moves ..)
    | with_reducible apply Moves.step (State.setTe_moves ..) | with_reducible apply Moves.step (State.setBit_moves ..)
    | with_reducible apply Moves.ite | with_reducible apply Moves.foldl | with_reducible apply Moves.foldl_snd
    | with_reducible apply Moves.foldl_fst | ((with_reducible apply Moves.snd); assumption)
    | ((with_reducible apply Moves.fst); assumption) | split | dsimp only

theorem execTwNop_moves (e : Fin 4) (w : BitVec 64) (s : State) :
    Goes [.regs, .ladder, .weft, .twill] s (execTwNop e w s) := by
  unfold execTwNop
  repeat' first
    | exact Moves.refl _ | with_reducible apply Moves.refl | ((with_reducible apply Within.of); exact rfl) | intro _
    | with_reducible apply Goes.next | with_reducible apply Goes.fault | with_reducible apply Goes.ite
    | with_reducible apply Moves.step (twill_moves (fs := [.regs, .ladder, .weft, .twill]) (hf := ?_) ..)
    | with_reducible apply Moves.ite | with_reducible apply Moves.foldl | with_reducible apply Moves.foldl_snd
    | with_reducible apply Moves.foldl_fst | ((with_reducible apply Moves.snd); assumption)
    | ((with_reducible apply Moves.fst); assumption) | split | dsimp only

theorem execTwEnd_moves (e : Fin 4) (s : State) :
    Goes [.regs, .ladder, .weft, .twill] s (execTwEnd e s) := by
  unfold execTwEnd
  repeat' first
    | with_reducible apply Moves.refl | ((with_reducible apply Within.of); exact rfl) | intro _
    | with_reducible apply Goes.next | with_reducible apply Goes.fault | with_reducible apply Goes.ite
    | with_reducible apply Moves.step (twill_moves (fs := [.regs, .ladder, .weft, .twill]) (hf := ?_) ..)
    | with_reducible apply Moves.step (State.setTe_moves ..) | with_reducible apply Moves.step (State.line_moves ..)
    | with_reducible apply Moves.step (State.twEnds_moves ..) | with_reducible apply Moves.step (State.runLength_moves ..)
    | with_reducible apply Moves.step (State.recoversCell_moves ..) | with_reducible apply Moves.ite
    | with_reducible apply Moves.foldl | with_reducible apply Moves.foldl_snd | with_reducible apply Moves.foldl_fst
    | ((with_reducible apply Moves.snd); assumption) | ((with_reducible apply Moves.fst); assumption) | split | dsimp only

theorem execLda_moves (e : Fin 4) (d : Fin 16) (x : BitVec 12) (s : State) :
    Goes [.regs, .ladder, .weft, .twill] s (execLda e d x s) := by
  unfold execLda
  repeat' first
    | with_reducible apply Moves.refl | ((with_reducible apply Within.of); exact rfl) | intro _
    | with_reducible apply Goes.next | with_reducible apply Goes.fault | with_reducible apply Goes.ite
    | with_reducible apply Moves.step (twAcc_moves ..) | with_reducible apply Moves.ite | with_reducible apply Moves.foldl
    | with_reducible apply Moves.foldl_snd | with_reducible apply Moves.foldl_fst
    | ((with_reducible apply Moves.snd); assumption) | ((with_reducible apply Moves.fst); assumption) | split | dsimp only

theorem execSta_moves (e : Fin 4) (x : BitVec 12) (sa : Fin 16) (s : State) :
    Goes [.regs, .ladder, .weft, .twill] s (execSta e x sa s) := by
  unfold execSta
  repeat' first
    | with_reducible apply Moves.refl | ((with_reducible apply Within.of); exact rfl) | intro _
    | with_reducible apply Goes.next | with_reducible apply Goes.fault | with_reducible apply Goes.ite
    | with_reducible apply Moves.step (twill_moves (fs := [.regs, .ladder, .weft, .twill]) (hf := ?_) ..)
    | with_reducible apply Moves.step (State.setTe_moves ..) | with_reducible apply Moves.step (State.twSat_moves ..)
    | with_reducible apply Moves.step (State.wr_moves ..) | with_reducible apply Moves.ite
    | with_reducible apply Moves.foldl | with_reducible apply Moves.foldl_snd | with_reducible apply Moves.foldl_fst
    | ((with_reducible apply Moves.snd); assumption) | ((with_reducible apply Moves.fst); assumption) | split | dsimp only

theorem execMulc_moves (e : Fin 4) (d : Fin 16) (x : BitVec 12) (k : BitVec 8) (s : State) :
    Goes [.regs, .ladder, .weft, .twill] s (execMulc e d x k s) := by
  unfold execMulc
  repeat' first
    | with_reducible apply Moves.refl | ((with_reducible apply Within.of); exact rfl) | intro _
    | with_reducible apply Goes.next | with_reducible apply Goes.fault | with_reducible apply Goes.ite
    | with_reducible apply Moves.step (twAcc_moves ..) | with_reducible apply Moves.ite | with_reducible apply Moves.foldl
    | with_reducible apply Moves.foldl_snd | with_reducible apply Moves.foldl_fst
    | ((with_reducible apply Moves.snd); assumption) | ((with_reducible apply Moves.fst); assumption) | split | dsimp only

theorem execMacc_moves (e : Fin 4) (d : Fin 16) (x : BitVec 12) (k : BitVec 8) (s : State) :
    Goes [.regs, .ladder, .weft, .twill] s (execMacc e d x k s) := by
  unfold execMacc
  repeat' first
    | with_reducible apply Moves.refl | ((with_reducible apply Within.of); exact rfl) | intro _
    | with_reducible apply Goes.next | with_reducible apply Goes.fault | with_reducible apply Goes.ite
    | with_reducible apply Moves.step (twAcc_moves ..) | with_reducible apply Moves.ite | with_reducible apply Moves.foldl
    | with_reducible apply Moves.foldl_snd | with_reducible apply Moves.foldl_fst
    | ((with_reducible apply Moves.snd); assumption) | ((with_reducible apply Moves.fst); assumption) | split | dsimp only

theorem execMsuc_moves (e : Fin 4) (d : Fin 16) (x : BitVec 12) (k : BitVec 8) (s : State) :
    Goes [.regs, .ladder, .weft, .twill] s (execMsuc e d x k s) := by
  unfold execMsuc
  repeat' first
    | with_reducible apply Moves.refl | ((with_reducible apply Within.of); exact rfl) | intro _
    | with_reducible apply Goes.next | with_reducible apply Goes.fault | with_reducible apply Goes.ite
    | with_reducible apply Moves.step (twAcc_moves ..) | with_reducible apply Moves.ite | with_reducible apply Moves.foldl
    | with_reducible apply Moves.foldl_snd | with_reducible apply Moves.foldl_fst
    | ((with_reducible apply Moves.snd); assumption) | ((with_reducible apply Moves.fst); assumption) | split | dsimp only

theorem twAccProd_moves (e : Fin 4) (d sa : Fin 16) (k : BitVec 8) (s : State) (f : Int → Int → Int) :
    Moves [.regs, .ladder, .weft, .twill] s (twAccProd e d sa k s f) := by
  unfold twAccProd
  repeat' first
    | with_reducible apply Moves.refl | ((with_reducible apply Within.of); exact rfl) | intro _
    | with_reducible apply Moves.step (twill_moves (fs := [.regs, .ladder, .weft, .twill]) (hf := ?_) ..)
    | with_reducible apply Moves.step (State.twPut_moves ..) | with_reducible apply Moves.step (State.twSat_moves ..)
    | with_reducible apply Moves.ite | with_reducible apply Moves.foldl | with_reducible apply Moves.foldl_snd
    | with_reducible apply Moves.foldl_fst | ((with_reducible apply Moves.snd); assumption)
    | ((with_reducible apply Moves.fst); assumption) | split | dsimp only

theorem execMula_moves (e : Fin 4) (d sa : Fin 16) (k : BitVec 8) (s : State) :
    Goes [.regs, .ladder, .weft, .twill] s (execMula e d sa k s) := by
  unfold execMula
  repeat' first
    | with_reducible apply Moves.refl | ((with_reducible apply Within.of); exact rfl) | intro _
    | with_reducible apply Goes.next | with_reducible apply Goes.fault | with_reducible apply Goes.ite
    | with_reducible apply Moves.step (twAccProd_moves ..) | with_reducible apply Moves.ite
    | with_reducible apply Moves.foldl | with_reducible apply Moves.foldl_snd | with_reducible apply Moves.foldl_fst
    | ((with_reducible apply Moves.snd); assumption) | ((with_reducible apply Moves.fst); assumption) | split | dsimp only

theorem execMaca_moves (e : Fin 4) (d sa : Fin 16) (k : BitVec 8) (s : State) :
    Goes [.regs, .ladder, .weft, .twill] s (execMaca e d sa k s) := by
  unfold execMaca
  repeat' first
    | with_reducible apply Moves.refl | ((with_reducible apply Within.of); exact rfl) | intro _
    | with_reducible apply Goes.next | with_reducible apply Goes.fault | with_reducible apply Goes.ite
    | with_reducible apply Moves.step (twAccProd_moves ..) | with_reducible apply Moves.ite
    | with_reducible apply Moves.foldl | with_reducible apply Moves.foldl_snd | with_reducible apply Moves.foldl_fst
    | ((with_reducible apply Moves.snd); assumption) | ((with_reducible apply Moves.fst); assumption) | split | dsimp only

theorem execMsua_moves (e : Fin 4) (d sa : Fin 16) (k : BitVec 8) (s : State) :
    Goes [.regs, .ladder, .weft, .twill] s (execMsua e d sa k s) := by
  unfold execMsua
  repeat' first
    | with_reducible apply Moves.refl | ((with_reducible apply Within.of); exact rfl) | intro _
    | with_reducible apply Goes.next | with_reducible apply Goes.fault | with_reducible apply Goes.ite
    | with_reducible apply Moves.step (twAccProd_moves ..) | with_reducible apply Moves.ite
    | with_reducible apply Moves.foldl | with_reducible apply Moves.foldl_snd | with_reducible apply Moves.foldl_fst
    | ((with_reducible apply Moves.snd); assumption) | ((with_reducible apply Moves.fst); assumption) | split | dsimp only

theorem execAdda_moves (e : Fin 4) (d sa ta : Fin 16) (s : State) :
    Goes [.regs, .ladder, .weft, .twill] s (execAdda e d sa ta s) := by
  unfold execAdda
  repeat' first
    | with_reducible apply Moves.refl | ((with_reducible apply Within.of); exact rfl) | intro _
    | with_reducible apply Goes.next | with_reducible apply Goes.fault | with_reducible apply Goes.ite
    | with_reducible apply Moves.step (twAcc_moves ..) | with_reducible apply Moves.ite | with_reducible apply Moves.foldl
    | with_reducible apply Moves.foldl_snd | with_reducible apply Moves.foldl_fst
    | ((with_reducible apply Moves.snd); assumption) | ((with_reducible apply Moves.fst); assumption) | split | dsimp only

theorem execSuba_moves (e : Fin 4) (d sa ta : Fin 16) (s : State) :
    Goes [.regs, .ladder, .weft, .twill] s (execSuba e d sa ta s) := by
  unfold execSuba
  repeat' first
    | with_reducible apply Moves.refl | ((with_reducible apply Within.of); exact rfl) | intro _
    | with_reducible apply Goes.next | with_reducible apply Goes.fault | with_reducible apply Goes.ite
    | with_reducible apply Moves.step (twAcc_moves ..) | with_reducible apply Moves.ite | with_reducible apply Moves.foldl
    | with_reducible apply Moves.foldl_snd | with_reducible apply Moves.foldl_fst
    | ((with_reducible apply Moves.snd); assumption) | ((with_reducible apply Moves.fst); assumption) | split | dsimp only

theorem execMova_moves (e : Fin 4) (d sa : Fin 16) (s : State) :
    Goes [.regs, .ladder, .weft, .twill] s (execMova e d sa s) := by
  unfold execMova
  repeat' first
    | with_reducible apply Moves.refl | ((with_reducible apply Within.of); exact rfl) | intro _
    | with_reducible apply Goes.next | with_reducible apply Goes.fault | with_reducible apply Goes.ite
    | with_reducible apply Moves.step (twAcc_moves ..) | with_reducible apply Moves.ite | with_reducible apply Moves.foldl
    | with_reducible apply Moves.foldl_snd | with_reducible apply Moves.foldl_fst
    | ((with_reducible apply Moves.snd); assumption) | ((with_reducible apply Moves.fst); assumption) | split | dsimp only

theorem execNega_moves (e : Fin 4) (d sa : Fin 16) (s : State) :
    Goes [.regs, .ladder, .weft, .twill] s (execNega e d sa s) := by
  unfold execNega
  repeat' first
    | with_reducible apply Moves.refl | ((with_reducible apply Within.of); exact rfl) | intro _
    | with_reducible apply Goes.next | with_reducible apply Goes.fault | with_reducible apply Goes.ite
    | with_reducible apply Moves.step (twAcc_moves ..) | with_reducible apply Moves.ite | with_reducible apply Moves.foldl
    | with_reducible apply Moves.foldl_snd | with_reducible apply Moves.foldl_fst
    | ((with_reducible apply Moves.snd); assumption) | ((with_reducible apply Moves.fst); assumption) | split | dsimp only

theorem execAbsa_moves (e : Fin 4) (d sa : Fin 16) (s : State) :
    Goes [.regs, .ladder, .weft, .twill] s (execAbsa e d sa s) := by
  unfold execAbsa
  repeat' first
    | with_reducible apply Moves.refl | ((with_reducible apply Within.of); exact rfl) | intro _
    | with_reducible apply Goes.next | with_reducible apply Goes.fault | with_reducible apply Goes.ite
    | with_reducible apply Moves.step (twAcc_moves ..) | with_reducible apply Moves.ite | with_reducible apply Moves.foldl
    | with_reducible apply Moves.foldl_snd | with_reducible apply Moves.foldl_fst
    | ((with_reducible apply Moves.snd); assumption) | ((with_reducible apply Moves.fst); assumption) | split | dsimp only

theorem execMina_moves (e : Fin 4) (d sa ta : Fin 16) (s : State) :
    Goes [.regs, .ladder, .weft, .twill] s (execMina e d sa ta s) := by
  unfold execMina
  repeat' first
    | with_reducible apply Moves.refl | ((with_reducible apply Within.of); exact rfl) | intro _
    | with_reducible apply Goes.next | with_reducible apply Goes.fault | with_reducible apply Goes.ite
    | with_reducible apply Moves.step (twAcc_moves ..) | with_reducible apply Moves.ite | with_reducible apply Moves.foldl
    | with_reducible apply Moves.foldl_snd | with_reducible apply Moves.foldl_fst
    | ((with_reducible apply Moves.snd); assumption) | ((with_reducible apply Moves.fst); assumption) | split | dsimp only

theorem execMaxa_moves (e : Fin 4) (d sa ta : Fin 16) (s : State) :
    Goes [.regs, .ladder, .weft, .twill] s (execMaxa e d sa ta s) := by
  unfold execMaxa
  repeat' first
    | with_reducible apply Moves.refl | ((with_reducible apply Within.of); exact rfl) | intro _
    | with_reducible apply Goes.next | with_reducible apply Goes.fault | with_reducible apply Goes.ite
    | with_reducible apply Moves.step (twAcc_moves ..) | with_reducible apply Moves.ite | with_reducible apply Moves.foldl
    | with_reducible apply Moves.foldl_snd | with_reducible apply Moves.foldl_fst
    | ((with_reducible apply Moves.snd); assumption) | ((with_reducible apply Moves.fst); assumption) | split | dsimp only

theorem execClmp_moves (e : Fin 4) (d sa ta : Fin 16) (s : State) :
    Goes [.regs, .ladder, .weft, .twill] s (execClmp e d sa ta s) := by
  unfold execClmp
  repeat' first
    | with_reducible apply Moves.refl | ((with_reducible apply Within.of); exact rfl) | intro _
    | with_reducible apply Goes.next | with_reducible apply Goes.fault | with_reducible apply Goes.ite
    | with_reducible apply Moves.step (twAcc_moves ..) | with_reducible apply Moves.ite | with_reducible apply Moves.foldl
    | with_reducible apply Moves.foldl_snd | with_reducible apply Moves.foldl_fst
    | ((with_reducible apply Moves.snd); assumption) | ((with_reducible apply Moves.fst); assumption) | split | dsimp only

theorem execSha_moves (e : Fin 4) (d sa : Fin 16) (k : BitVec 8) (s : State) :
    Goes [.regs, .ladder, .weft, .twill] s (execSha e d sa k s) := by
  unfold execSha
  repeat' first
    | with_reducible apply Moves.refl | ((with_reducible apply Within.of); exact rfl) | intro _
    | with_reducible apply Goes.next | with_reducible apply Goes.fault | with_reducible apply Goes.ite
    | with_reducible apply Moves.step (twAcc_moves ..) | with_reducible apply Moves.ite | with_reducible apply Moves.foldl
    | with_reducible apply Moves.foldl_snd | with_reducible apply Moves.foldl_fst
    | ((with_reducible apply Moves.snd); assumption) | ((with_reducible apply Moves.fst); assumption) | split | dsimp only

theorem execDiva_moves (e : Fin 4) (d sa : Fin 16) (x : BitVec 12) (s : State) :
    Goes [.regs, .ladder, .weft, .twill] s (execDiva e d sa x s) := by
  unfold execDiva
  repeat' first
    | with_reducible apply Moves.refl | ((with_reducible apply Within.of); exact rfl) | intro _
    | with_reducible apply Goes.next | with_reducible apply Goes.fault | with_reducible apply Goes.ite
    | with_reducible apply Moves.step (twill_moves (fs := [.regs, .ladder, .weft, .twill]) (hf := ?_) ..)
    | with_reducible apply Moves.step (State.twFlag_moves ..) | with_reducible apply Moves.step (State.setTe_moves ..)
    | with_reducible apply Moves.step (State.twPut_moves ..) | with_reducible apply Moves.ite
    | with_reducible apply Moves.foldl | with_reducible apply Moves.foldl_snd | with_reducible apply Moves.foldl_fst
    | ((with_reducible apply Moves.snd); assumption) | ((with_reducible apply Moves.fst); assumption) | split | dsimp only

theorem execMinsel_moves (e : Fin 4) (d b : Fin 16) (n : Fin 8) (tm : BitVec 6) (x : BitVec 12) (k : BitVec 8) (s : State) :
    Goes [.regs, .ladder, .weft, .twill] s (execMinsel e d b n tm x k s) := by
  unfold execMinsel
  repeat' first
    | with_reducible apply Moves.refl | ((with_reducible apply Within.of); exact rfl) | intro _
    | with_reducible apply Goes.next | with_reducible apply Goes.fault | with_reducible apply Goes.ite
    | with_reducible apply Moves.step (twill_moves (fs := [.regs, .ladder, .weft, .twill]) (hf := ?_) ..)
    | with_reducible apply Moves.step (State.twSat_moves ..) | with_reducible apply Moves.step (State.wr_moves ..)
    | with_reducible apply Moves.step (State.setTe_moves ..) | with_reducible apply Moves.ite
    | with_reducible apply Moves.foldl | with_reducible apply Moves.foldl_snd | with_reducible apply Moves.foldl_fst
    | ((with_reducible apply Moves.snd); assumption) | ((with_reducible apply Moves.fst); assumption) | split | dsimp only

theorem execFfl_moves (e : Fin 4) (d : Fin 16) (x : BitVec 12) (k : BitVec 8) (s : State) :
    Goes [.regs, .ladder, .weft, .twill] s (execFfl e d x k s) := by
  unfold execFfl
  repeat' first
    | with_reducible apply Moves.refl | ((with_reducible apply Within.of); exact rfl) | intro _
    | with_reducible apply Goes.next | with_reducible apply Goes.fault | with_reducible apply Goes.ite
    | with_reducible apply Moves.step (twAcc_moves ..) | with_reducible apply Moves.ite | with_reducible apply Moves.foldl
    | with_reducible apply Moves.foldl_snd | with_reducible apply Moves.foldl_fst
    | ((with_reducible apply Moves.snd); assumption) | ((with_reducible apply Moves.fst); assumption) | split | dsimp only

theorem execFfa_moves (e : Fin 4) (d : Fin 16) (x : BitVec 12) (k : BitVec 8) (s : State) :
    Goes [.regs, .ladder, .weft, .twill] s (execFfa e d x k s) := by
  unfold execFfa
  repeat' first
    | with_reducible apply Moves.refl | ((with_reducible apply Within.of); exact rfl) | intro _
    | with_reducible apply Goes.next | with_reducible apply Goes.fault | with_reducible apply Goes.ite
    | with_reducible apply Moves.step (twAcc_moves ..) | with_reducible apply Moves.ite | with_reducible apply Moves.foldl
    | with_reducible apply Moves.foldl_snd | with_reducible apply Moves.foldl_fst
    | ((with_reducible apply Moves.snd); assumption) | ((with_reducible apply Moves.fst); assumption) | split | dsimp only

theorem execRamp_moves (e : Fin 4) (d : Fin 16) (k : BitVec 8) (s : State) :
    Goes [.regs, .ladder, .weft, .twill] s (execRamp e d k s) := by
  unfold execRamp
  repeat' first
    | with_reducible apply Moves.refl | ((with_reducible apply Within.of); exact rfl) | intro _
    | with_reducible apply Goes.next | with_reducible apply Goes.fault | with_reducible apply Goes.ite
    | with_reducible apply Moves.step (twill_moves (fs := [.regs, .ladder, .weft, .twill]) (hf := ?_) ..)
    | with_reducible apply Moves.step (State.setTe_moves ..) | with_reducible apply Moves.step (State.twPut_moves ..)
    | with_reducible apply Moves.ite | with_reducible apply Moves.foldl | with_reducible apply Moves.foldl_snd
    | with_reducible apply Moves.foldl_fst | ((with_reducible apply Moves.snd); assumption)
    | ((with_reducible apply Moves.fst); assumption) | split | dsimp only

theorem execTwOut_moves (e : Fin 4) (sa : Fin 16) (ch : Fin 32) (sel : Fin 4) (s : State) :
    Goes [.regs, .ladder, .weft, .loom, .twill] s (execTwOut e sa ch sel s) := by
  unfold execTwOut
  repeat' first
    | with_reducible apply Moves.refl | ((with_reducible apply Within.of); exact rfl) | intro _
    | with_reducible apply Goes.next | with_reducible apply Goes.fault | with_reducible apply Goes.ite
    | with_reducible apply Moves.step (twill_moves (fs := [.regs, .ladder, .weft, .loom, .twill]) (hf := ?_) ..)
    | with_reducible apply Moves.step (State.twFlag_moves ..) | with_reducible apply Moves.step (State.chWritten_moves ..)
    | with_reducible apply Moves.step (State.shadowWrite_moves ..) | with_reducible apply Moves.ite
    | with_reducible apply Moves.foldl | with_reducible apply Moves.foldl_snd | with_reducible apply Moves.foldl_fst
    | ((with_reducible apply Moves.snd); assumption) | ((with_reducible apply Moves.fst); assumption) | split | dsimp only

theorem execTwArm_moves (e : Fin 4) (mask : BitVec 24) (s : State) :
    Goes [.regs, .ladder, .weft, .loom, .twill] s (execTwArm e mask s) := by
  unfold execTwArm
  repeat' first
    | with_reducible apply Moves.refl | ((with_reducible apply Within.of); exact rfl) | intro _
    | with_reducible apply Goes.next | with_reducible apply Goes.fault | with_reducible apply Goes.ite
    | with_reducible apply Moves.step (twill_moves (fs := [.regs, .ladder, .weft, .loom, .twill]) (hf := ?_) ..)
    | with_reducible apply Moves.step (State.gupdArm_moves ..) | with_reducible apply Moves.step (State.twFlag_moves ..)
    | with_reducible apply Moves.ite | with_reducible apply Moves.foldl | with_reducible apply Moves.foldl_snd
    | with_reducible apply Moves.foldl_fst | ((with_reducible apply Moves.snd); assumption)
    | ((with_reducible apply Moves.fst); assumption) | split | dsimp only

theorem execEvt_moves (e : Fin 4) (mask : BitVec 24) (s : State) :
    Goes [.regs, .ladder, .weft, .twill] s (execEvt e mask s) := by
  unfold execEvt
  repeat' first
    | with_reducible apply Moves.refl | ((with_reducible apply Within.of); exact rfl) | intro _
    | with_reducible apply Goes.next | with_reducible apply Goes.fault | with_reducible apply Goes.ite
    | with_reducible apply Moves.step (twill_moves (fs := [.regs, .ladder, .weft, .twill]) (hf := ?_) ..)
    | with_reducible apply Moves.step (State.line_moves ..) | with_reducible apply Moves.ite
    | with_reducible apply Moves.foldl | with_reducible apply Moves.foldl_snd | with_reducible apply Moves.foldl_fst
    | ((with_reducible apply Moves.snd); assumption) | ((with_reducible apply Moves.fst); assumption) | split | dsimp only

theorem execBr_moves (e : Fin 4) (cond : Fin 8) (sa ta : Fin 16) (tgt : Fin 512) (s : State) :
    Goes [.regs, .ladder, .weft, .twill] s (execBr e cond sa ta tgt s) := by
  unfold execBr
  repeat' first
    | with_reducible apply Moves.refl | ((with_reducible apply Within.of); exact rfl) | intro _
    | with_reducible apply Goes.next | with_reducible apply Goes.fault | with_reducible apply Goes.ite
    | with_reducible apply Moves.step (twill_moves (fs := [.regs, .ladder, .weft, .twill]) (hf := ?_) ..)
    | with_reducible apply Moves.step (State.setTe_moves ..) | with_reducible apply Moves.ite
    | with_reducible apply Moves.foldl | with_reducible apply Moves.foldl_snd | with_reducible apply Moves.foldl_fst
    | ((with_reducible apply Moves.snd); assumption) | ((with_reducible apply Moves.fst); assumption) | split | dsimp only

theorem execWaitin_moves (e : Fin 4) (x : BitVec 12) (s : State) :
    Goes [.regs, .ladder, .weft, .twill] s (execWaitin e x s) := by
  unfold execWaitin
  repeat' first
    | with_reducible apply Moves.refl | ((with_reducible apply Within.of); exact rfl) | intro _
    | with_reducible apply Goes.next | with_reducible apply Goes.fault | with_reducible apply Goes.ite
    | with_reducible apply Moves.step (twill_moves (fs := [.regs, .ladder, .weft, .twill]) (hf := ?_) ..)
    | with_reducible apply Moves.step (State.setTe_moves ..) | with_reducible apply Moves.ite
    | with_reducible apply Moves.foldl | with_reducible apply Moves.foldl_snd | with_reducible apply Moves.foldl_fst
    | ((with_reducible apply Moves.snd); assumption) | ((with_reducible apply Moves.fst); assumption) | split | dsimp only

theorem execTwBudgetExpiry_moves (e : Fin 4) (s : State) :
    Goes [.regs, .ladder, .twill] s (execTwBudgetExpiry e s) := by
  unfold execTwBudgetExpiry
  repeat' first
    | with_reducible apply Moves.refl | ((with_reducible apply Within.of); exact rfl) | intro _
    | with_reducible apply Goes.next | with_reducible apply Goes.fault | with_reducible apply Goes.ite
    | with_reducible apply Moves.step (State.onBlk_moves (fs := [.regs, .ladder, .twill]) (hf := ?_) ..)
    | with_reducible apply Moves.step (State.setTe_moves ..) | with_reducible apply Moves.step (State.twFlag_moves ..)
    | with_reducible apply Moves.step (State.twEnds_moves ..) | with_reducible apply Moves.step (State.runLength_moves ..)
    | with_reducible apply Moves.step (State.contain_moves ..) | with_reducible apply Moves.ite
    | with_reducible apply Moves.foldl | with_reducible apply Moves.foldl_snd | with_reducible apply Moves.foldl_fst
    | ((with_reducible apply Moves.snd); assumption) | ((with_reducible apply Moves.fst); assumption) | split | dsimp only

theorem execTwRun_moves (e : Fin 4) (run : Bool) (s : State) :
    Goes [.regs, .ladder, .twill] s (execTwRun e run s) := by
  unfold execTwRun
  repeat' first
    | with_reducible apply Moves.refl | ((with_reducible apply Within.of); exact rfl) | intro _
    | with_reducible apply Goes.next | with_reducible apply Goes.fault | with_reducible apply Goes.ite
    | with_reducible apply Moves.step (State.onBlk_moves (fs := [.regs, .ladder, .twill]) (hf := ?_) ..)
    | with_reducible apply Moves.step (State.twRunWrite_moves ..) | with_reducible apply Moves.ite
    | with_reducible apply Moves.foldl | with_reducible apply Moves.foldl_snd | with_reducible apply Moves.foldl_fst
    | ((with_reducible apply Moves.snd); assumption) | ((with_reducible apply Moves.fst); assumption) | split | dsimp only

theorem execTwCoefCommit_moves (e : Fin 4) (s : State) :
    Goes [.regs, .twill] s (execTwCoefCommit e s) := by
  unfold execTwCoefCommit
  repeat' first
    | with_reducible apply Moves.refl | ((with_reducible apply Within.of); exact rfl) | intro _
    | with_reducible apply Goes.next | with_reducible apply Goes.fault | with_reducible apply Goes.ite
    | with_reducible apply Moves.step (State.onBlk_moves (fs := [.regs, .twill]) (hf := ?_) ..)
    | with_reducible apply Moves.step (State.coefCommit_moves ..) | with_reducible apply Moves.ite
    | with_reducible apply Moves.foldl | with_reducible apply Moves.foldl_snd | with_reducible apply Moves.foldl_fst
    | ((with_reducible apply Moves.snd); assumption) | ((with_reducible apply Moves.fst); assumption) | split | dsimp only

theorem State.presetWrite_moves (s : State) (e r : Nat) (v : Word) :
    Moves [.twill] s (State.presetWrite s e r v) := by
  unfold State.presetWrite
  repeat' first
    | with_reducible apply Moves.refl | ((with_reducible apply Within.of); exact rfl) | intro _
    | with_reducible apply Moves.step (State.setTe_moves ..) | with_reducible apply Moves.ite
    | with_reducible apply Moves.foldl | with_reducible apply Moves.foldl_snd | with_reducible apply Moves.foldl_fst
    | ((with_reducible apply Moves.snd); assumption) | ((with_reducible apply Moves.fst); assumption) | split | dsimp only

theorem execTwRampPreset_moves (e : Fin 4) (r : Fin 8) (value : Word) (s : State) :
    Goes [.twill] s (execTwRampPreset e r value s) := by
  unfold execTwRampPreset
  repeat' first
    | with_reducible apply Moves.refl | ((with_reducible apply Within.of); exact rfl) | intro _
    | with_reducible apply Goes.next | with_reducible apply Goes.fault | with_reducible apply Goes.ite
    | with_reducible apply Moves.step (State.onBlk_moves (fs := [.twill]) (hf := ?_) ..)
    | with_reducible apply Moves.step (State.presetWrite_moves ..) | with_reducible apply Moves.ite
    | with_reducible apply Moves.foldl | with_reducible apply Moves.foldl_snd | with_reducible apply Moves.foldl_fst
    | ((with_reducible apply Moves.snd); assumption) | ((with_reducible apply Moves.fst); assumption) | split | dsimp only

theorem execTwOwnWrite_moves (e : Fin 4) (data : BitVec 24) (s : State) :
    Goes [.regs] s (execTwOwnWrite e data s) := by
  unfold execTwOwnWrite
  repeat' first
    | with_reducible apply Moves.refl | ((with_reducible apply Within.of); exact rfl) | intro _
    | with_reducible apply Goes.next | with_reducible apply Goes.fault | with_reducible apply Goes.ite
    | with_reducible apply Moves.step (State.onBlk_moves (fs := [.regs]) (hf := ?_) ..)
    | with_reducible apply Moves.step (State.ownWrite_moves ..) | with_reducible apply Moves.ite
    | with_reducible apply Moves.foldl | with_reducible apply Moves.foldl_snd | with_reducible apply Moves.foldl_fst
    | ((with_reducible apply Moves.snd); assumption) | ((with_reducible apply Moves.fst); assumption) | split | dsimp only

theorem execTwSlotClear_moves (e : Fin 4) (sl : Fin 8) (s : State) :
    Goes [.regs] s (execTwSlotClear e sl s) := by
  unfold execTwSlotClear
  repeat' first
    | with_reducible apply Moves.refl | ((with_reducible apply Within.of); exact rfl) | intro _
    | with_reducible apply Goes.next | with_reducible apply Goes.fault | with_reducible apply Goes.ite
    | with_reducible apply Moves.step (State.onBlk_moves (fs := [.regs]) (hf := ?_) ..)
    | with_reducible apply Moves.step (State.slotClear_moves ..) | with_reducible apply Moves.ite
    | with_reducible apply Moves.foldl | with_reducible apply Moves.foldl_snd | with_reducible apply Moves.foldl_fst
    | ((with_reducible apply Moves.snd); assumption) | ((with_reducible apply Moves.fst); assumption) | split | dsimp only

theorem execTwMemoryEcc_moves (e : Fin 4) (addr : Word) (double : Bool) (s : State) :
    Goes [.regs, .ladder, .weft, .twill] s (execTwMemoryEcc e addr double s) := by
  unfold execTwMemoryEcc
  repeat' first
    | with_reducible apply Moves.refl | ((with_reducible apply Within.of); exact rfl) | intro _
    | with_reducible apply Goes.next | with_reducible apply Goes.fault | with_reducible apply Goes.ite
    | with_reducible apply Moves.step (State.onBlk_moves (fs := [.regs, .ladder, .weft, .twill]) (hf := ?_) ..)
    | with_reducible apply Moves.step (State.twStop_moves ..) | with_reducible apply Moves.step (State.setTe_moves ..)
    | with_reducible apply Moves.step (State.line_moves ..) | with_reducible apply Moves.step (State.contain_moves ..)
    | with_reducible apply Moves.step (State.note_moves ..) | with_reducible apply Moves.ite
    | with_reducible apply Moves.foldl | with_reducible apply Moves.foldl_snd | with_reducible apply Moves.foldl_fst
    | ((with_reducible apply Moves.snd); assumption) | ((with_reducible apply Moves.fst); assumption) | split | dsimp only

theorem execAinSpSample_moves (j : Fin 4) (code : BitVec 12) (s : State) :
    Goes [.regs, .ladder, .twill] s (execAinSpSample j code s) := by
  unfold execAinSpSample
  repeat' first
    | with_reducible apply Moves.refl | ((with_reducible apply Within.of); exact rfl) | intro _
    | with_reducible apply Goes.next | with_reducible apply Goes.fault | with_reducible apply Goes.ite
    | with_reducible apply Moves.step (State.onBlk_moves (fs := [.regs, .ladder, .twill]) (hf := ?_) ..)
    | with_reducible apply Moves.step (State.note_moves ..) | with_reducible apply Moves.step (State.setBit_moves ..)
    | with_reducible apply Moves.step (State.setTwill_moves ..) | with_reducible apply Moves.ite
    | with_reducible apply Moves.foldl | with_reducible apply Moves.foldl_snd | with_reducible apply Moves.foldl_fst
    | ((with_reducible apply Moves.snd); assumption) | ((with_reducible apply Moves.fst); assumption) | split | dsimp only

theorem execPinSpEdge_moves (j : Fin 4) (s : State) :
    Goes [.regs, .ladder, .twill] s (execPinSpEdge j s) := by
  unfold execPinSpEdge
  repeat' first
    | with_reducible apply Moves.refl | ((with_reducible apply Within.of); exact rfl) | intro _
    | with_reducible apply Goes.next | with_reducible apply Goes.fault | with_reducible apply Goes.ite
    | with_reducible apply Moves.step (State.onBlk_moves (fs := [.regs, .ladder, .twill]) (hf := ?_) ..)
    | with_reducible apply Moves.step (State.setBit_moves ..) | with_reducible apply Moves.step (State.setPulse_moves ..)
    | with_reducible apply Moves.step (State.note_moves ..) | with_reducible apply Moves.ite
    | with_reducible apply Moves.foldl | with_reducible apply Moves.foldl_snd | with_reducible apply Moves.foldl_fst
    | ((with_reducible apply Moves.snd); assumption) | ((with_reducible apply Moves.fst); assumption) | split | dsimp only

theorem execPinSpTimeout_moves (j : Fin 4) (s : State) :
    Goes [.regs, .twill] s (execPinSpTimeout j s) := by
  unfold execPinSpTimeout
  repeat' first
    | with_reducible apply Moves.refl | ((with_reducible apply Within.of); exact rfl) | intro _
    | with_reducible apply Goes.next | with_reducible apply Goes.fault | with_reducible apply Goes.ite
    | with_reducible apply Moves.step (State.onBlk_moves (fs := [.regs, .twill]) (hf := ?_) ..)
    | with_reducible apply Moves.step (State.setBit_moves ..) | with_reducible apply Moves.step (State.setPulse_moves ..)
    | with_reducible apply Moves.ite | with_reducible apply Moves.foldl | with_reducible apply Moves.foldl_snd
    | with_reducible apply Moves.foldl_fst | ((with_reducible apply Moves.snd); assumption)
    | ((with_reducible apply Moves.fst); assumption) | split | dsimp only

end Sys2Proof.Machine
end

