-- ==== Sys2Proof/Laws/MovesWriteGuard.lean ====
section
/-!
SUPPORT. Laws/MovesWriteGuard.lean: which parts of the state each operation of Machine/WriteGuard.lean moves.
-/
set_option Elab.async false
namespace Sys2Proof.Machine
set_option linter.all false

theorem State.thermalWrite_moves (s : State) (a : Nat) (v : Word) :
    Moves [.regs, .ladder, .weft, .twill, .thermal] s (State.thermalWrite s a v) := by
  unfold State.thermalWrite
  repeat' first
    | with_reducible apply Moves.refl | ((with_reducible apply Within.of); exact rfl) | intro _
    | with_reducible apply Moves.step (State.tsCfgWrite_moves ..)
    | with_reducible apply Moves.step (State.fanSyncAll_moves ..)
    | with_reducible apply Moves.step (State.wrAccess_moves ..)
    | with_reducible apply Moves.step (State.cblCfgWrite_moves ..)
    | with_reducible apply Moves.step (State.cblAck_moves ..) | with_reducible apply Moves.step (State.fanSync_moves ..)
    | with_reducible apply Moves.ite | with_reducible apply Moves.foldl | with_reducible apply Moves.foldl_snd
    | with_reducible apply Moves.foldl_fst | ((with_reducible apply Moves.snd); assumption)
    | ((with_reducible apply Moves.fst); assumption) | split | dsimp only

theorem State.hsCtrlWrite_moves (s : State) (v : Word) :
    Moves [.regs] s (State.hsCtrlWrite s v) := by
  unfold State.hsCtrlWrite
  repeat' first
    | with_reducible apply Moves.refl | ((with_reducible apply Within.of); exact rfl) | intro _
    | with_reducible apply Moves.step (State.wrAccess_moves ..) | with_reducible apply Moves.ite
    | with_reducible apply Moves.foldl | with_reducible apply Moves.foldl_snd | with_reducible apply Moves.foldl_fst
    | ((with_reducible apply Moves.snd); assumption) | ((with_reducible apply Moves.fst); assumption) | split | dsimp only

theorem State.hsCfgWrite_moves (s : State) (n : Nat) (v : Word) :
    Moves [.regs, .sense, .hs] s (State.hsCfgWrite s n v) := by
  unfold State.hsCfgWrite
  repeat' first
    | with_reducible apply Moves.refl | ((with_reducible apply Within.of); exact rfl) | intro _
    | with_reducible apply Moves.step (State.wrAccess_moves ..) | with_reducible apply Moves.step (State.current_moves ..)
    | with_reducible apply Moves.step (State.setFlag_moves ..)
    | with_reducible apply Moves.step (State.pinsMoved_moves ..) | with_reducible apply Moves.ite
    | with_reducible apply Moves.foldl | with_reducible apply Moves.foldl_snd | with_reducible apply Moves.foldl_fst
    | ((with_reducible apply Moves.snd); assumption) | ((with_reducible apply Moves.fst); assumption) | split | dsimp only

theorem State.switchWrite_moves (s : State) (a : Nat) (v : Word) :
    Moves [.regs, .sense, .hs] s (State.switchWrite s a v) := by
  unfold State.switchWrite
  repeat' first
    | with_reducible apply Moves.refl | ((with_reducible apply Within.of); exact rfl) | intro _
    | with_reducible apply Moves.step (State.hsCtrlWrite_moves ..)
    | with_reducible apply Moves.step (State.onWrites_moves ..)
    | with_reducible apply Moves.step (State.hsCfgWrite_moves ..)
    | with_reducible apply Moves.step (State.wrAccess_moves ..) | with_reducible apply Moves.ite
    | with_reducible apply Moves.foldl | with_reducible apply Moves.foldl_snd | with_reducible apply Moves.foldl_fst
    | ((with_reducible apply Moves.snd); assumption) | ((with_reducible apply Moves.fst); assumption) | split | dsimp only

theorem State.brineWrite_moves (s : State) (a : Nat) (v : Word) :
    Moves [.regs, .weft, .brine] s (State.brineWrite s a v) := by
  unfold State.brineWrite
  repeat' first
    | with_reducible apply Moves.refl | ((with_reducible apply Within.of); exact rfl) | intro _
    | with_reducible apply Moves.step (State.brCtrlWrite_moves ..)
    | with_reducible apply Moves.step (State.brCfgCheck_moves ..)
    | with_reducible apply Moves.step (State.wrAccess_moves ..) | with_reducible apply Moves.ite
    | with_reducible apply Moves.foldl | with_reducible apply Moves.foldl_snd | with_reducible apply Moves.foldl_fst
    | ((with_reducible apply Moves.snd); assumption) | ((with_reducible apply Moves.fst); assumption) | split | dsimp only

theorem State.guardWrite_moves (s : State) (a : Nat) (v : Word) :
    Moves [.regs, .ladder, .weft, .twill, .sense, .hs, .thermal, .brine] s (State.guardWrite s a v) := by
  unfold State.guardWrite
  repeat' first
    | with_reducible apply Moves.refl | ((with_reducible apply Within.of); exact rfl) | intro _
    | with_reducible apply Moves.step (State.thermalWrite_moves ..)
    | with_reducible apply Moves.step (State.switchWrite_moves ..)
    | with_reducible apply Moves.step (State.brineWrite_moves ..) | with_reducible apply Moves.ite
    | with_reducible apply Moves.foldl | with_reducible apply Moves.foldl_snd | with_reducible apply Moves.foldl_fst
    | ((with_reducible apply Moves.snd); assumption) | ((with_reducible apply Moves.fst); assumption) | split | dsimp only

end Sys2Proof.Machine
end

