-- ==== Sys2Proof/Laws/MovesWriteHub.lean ====
section
/-!
SUPPORT. Laws/MovesWriteHub.lean: which parts of the state each operation of Machine/WriteHub.lean moves.
-/
set_option Elab.async false
namespace Sys2Proof.Machine
set_option linter.all false

theorem State.powerWrite_moves (s : State) (a : Nat) (v : Word) :
    Moves [.regs, .live, .mem, .ecc, .ladder, .fabric, .weft, .power, .startup, .time, .selv, .loom, .twill, .sense, .hs, .sal, .zw, .grid, .ks, .links, .ses, .thermal, .ledger, .brine, .can] s (State.powerWrite s a v) := by
  unfold State.powerWrite
  repeat' first
    | with_reducible apply Moves.refl | ((with_reducible apply Within.of); exact rfl) | intro _
    | with_reducible apply Moves.step (State.pwrCtrlWrite_moves ..)
    | with_reducible apply Moves.step (State.resetRegions_moves ..)
    | with_reducible apply Moves.step (State.hubResetBy_moves ..)
    | with_reducible apply Moves.step (State.wrAccess_moves ..) | with_reducible apply Moves.ite
    | with_reducible apply Moves.foldl | with_reducible apply Moves.foldl_snd | with_reducible apply Moves.foldl_fst
    | ((with_reducible apply Moves.snd); assumption) | ((with_reducible apply Moves.fst); assumption) | split | dsimp only

theorem State.startWrite_moves (s : State) (a : Nat) (v : Word) :
    Moves [.regs] s (State.startWrite s a v) := by
  unfold State.startWrite
  repeat' first
    | with_reducible apply Moves.refl | ((with_reducible apply Within.of); exact rfl) | intro _
    | with_reducible apply Moves.step (State.rollbackRaise_moves ..)
    | with_reducible apply Moves.step (State.wrAccess_moves ..) | with_reducible apply Moves.ite
    | with_reducible apply Moves.foldl | with_reducible apply Moves.foldl_snd | with_reducible apply Moves.foldl_fst
    | ((with_reducible apply Moves.snd); assumption) | ((with_reducible apply Moves.fst); assumption) | split | dsimp only

theorem State.ladderWrite_moves (s : State) (a : Nat) (v : Word) :
    Moves [.regs, .mem, .ladder, .weft, .thermal, .ledger] s (State.ladderWrite s a v) := by
  unfold State.ladderWrite
  repeat' first
    | with_reducible apply Moves.refl | ((with_reducible apply Within.of); exact rfl) | intro _
    | with_reducible apply Moves.step (State.blkCfgWrite_moves ..)
    | with_reducible apply Moves.step (State.wrAccess_moves ..)
    | with_reducible apply Moves.step (State.clearChipRec_moves ..)
    | with_reducible apply Moves.step (State.clearRegRec_moves ..)
    | with_reducible apply Moves.step (State.regionUp_moves ..)
    | with_reducible apply Moves.step (State.clearBlkRec_moves ..)
    | with_reducible apply Moves.step (State.errAck_moves ..) | with_reducible apply Moves.ite
    | with_reducible apply Moves.foldl | with_reducible apply Moves.foldl_snd | with_reducible apply Moves.foldl_fst
    | ((with_reducible apply Moves.snd); assumption) | ((with_reducible apply Moves.fst); assumption) | split | dsimp only

theorem State.ctxCtrlWrite_moves (s : State) (n : Nat) (v : Word) :
    Moves [.regs, .ladder, .fabric, .weft, .power, .selv, .sense, .hs, .ks] s (State.ctxCtrlWrite s n v) := by
  unfold State.ctxCtrlWrite
  repeat' first
    | with_reducible apply Moves.refl | ((with_reducible apply Within.of); exact rfl) | intro _
    | with_reducible apply Moves.step (State.haltIfDone_moves ..)
    | with_reducible apply Moves.step (State.setHalt_moves ..) | with_reducible apply Moves.step (State.unhalt_moves ..)
    | with_reducible apply Moves.step (State.startCtx_moves ..) | with_reducible apply Moves.step (State.restart_moves ..)
    | with_reducible apply Moves.ite | with_reducible apply Moves.foldl | with_reducible apply Moves.foldl_snd
    | with_reducible apply Moves.foldl_fst | ((with_reducible apply Moves.snd); assumption)
    | ((with_reducible apply Moves.fst); assumption) | split | dsimp only

theorem State.hubWrite_moves (s : State) (a : Nat) (v : Word) :
    Moves [.regs, .live, .mem, .ecc, .ladder, .fabric, .weft, .power, .startup, .time, .selv, .loom, .twill, .sense, .hs, .sal, .zw, .grid, .ks, .links, .ses, .thermal, .ledger, .brine, .can] s (State.hubWrite s a v) := by
  unfold State.hubWrite
  repeat' first
    | with_reducible apply Moves.refl | ((with_reducible apply Within.of); exact rfl) | intro _
    | with_reducible apply Moves.step (State.powerWrite_moves ..)
    | with_reducible apply Moves.step (State.startWrite_moves ..)
    | with_reducible apply Moves.step (State.ladderWrite_moves ..)
    | with_reducible apply Moves.step (State.mboxWrite_moves ..)
    | with_reducible apply Moves.step (State.ctxCtrlWrite_moves ..)
    | with_reducible apply Moves.step (State.wrAccess_moves ..) | with_reducible apply Moves.ite
    | with_reducible apply Moves.foldl | with_reducible apply Moves.foldl_snd | with_reducible apply Moves.foldl_fst
    | ((with_reducible apply Moves.snd); assumption) | ((with_reducible apply Moves.fst); assumption) | split | dsimp only

end Sys2Proof.Machine
end

