-- ==== Sys2Proof/Laws/MovesWriteLedger.lean ====
section
/-!
SUPPORT. Laws/MovesWriteLedger.lean: which parts of the state each operation of Machine/WriteLedger.lean moves.
-/
set_option Elab.async false
namespace Sys2Proof.Machine
set_option linter.all false

theorem State.evsReqWrite_moves (s : State) (v : Word) :
    Moves [.regs, .mem, .ecc, .ladder, .fabric, .weft, .power, .selv, .sense, .hs, .ledger, .out, .free] s (State.evsReqWrite s v) := by
  unfold State.evsReqWrite
  repeat' first
    | with_reducible apply Moves.refl | ((with_reducible apply Within.of); exact rfl) | intro _
    | with_reducible apply Moves.step (State.onStore_moves (fs := [.regs, .mem, .ecc, .ladder, .fabric, .weft, .power, .selv, .sense, .hs, .ledger, .out, .free]) (hf := ?_) ..)
    | with_reducible apply Moves.step (State.parLoad_moves ..)
    | with_reducible apply Moves.step (State.requestReading_moves ..) | with_reducible apply Moves.ite
    | with_reducible apply Moves.foldl | with_reducible apply Moves.foldl_snd | with_reducible apply Moves.foldl_fst
    | ((with_reducible apply Moves.snd); assumption) | ((with_reducible apply Moves.fst); assumption) | split | dsimp only

theorem State.tarCmdWrite_moves (s : State) (v : Word) :
    Moves [.regs, .mem, .ecc, .ladder, .fabric, .weft, .power, .selv, .sense, .hs, .ledger, .free] s (State.tarCmdWrite s v) := by
  unfold State.tarCmdWrite
  repeat' first
    | with_reducible apply Moves.refl | ((with_reducible apply Within.of); exact rfl) | intro _
    | with_reducible apply Moves.step (State.calLoad_moves ..)
    | with_reducible apply Moves.step (State.billClose_moves ..) | with_reducible apply Moves.ite
    | with_reducible apply Moves.foldl | with_reducible apply Moves.foldl_snd | with_reducible apply Moves.foldl_fst
    | ((with_reducible apply Moves.snd); assumption) | ((with_reducible apply Moves.fst); assumption) | split | dsimp only

theorem State.tarAdjWrite_moves (s : State) (v : Word) :
    Moves [.regs, .mem, .ladder, .weft, .power, .time, .sal, .zw, .grid, .ledger, .free] s (State.tarAdjWrite s v) := by
  unfold State.tarAdjWrite
  repeat' first
    | with_reducible apply Moves.refl | ((with_reducible apply Within.of); exact rfl) | intro _
    | with_reducible apply Moves.step (State.clockAdjust_moves ..)
    | with_reducible apply Moves.step (State.wrAccess_moves ..) | with_reducible apply Moves.ite
    | with_reducible apply Moves.foldl | with_reducible apply Moves.foldl_snd | with_reducible apply Moves.foldl_fst
    | ((with_reducible apply Moves.snd); assumption) | ((with_reducible apply Moves.fst); assumption) | split | dsimp only

theorem State.accCmdWrite_moves (s : State) (v : Word) :
    Moves [.regs, .mem, .ladder, .weft, .ledger] s (State.accCmdWrite s v) := by
  unfold State.accCmdWrite
  repeat' first
    | with_reducible apply Moves.refl | ((with_reducible apply Within.of); exact rfl) | intro _
    | with_reducible apply Moves.step (State.wrAccess_moves ..)
    | with_reducible apply Moves.step (State.moveBalance_moves ..)
    | with_reducible apply Moves.step (State.accConfig_moves ..)
    | with_reducible apply Moves.step (State.accResult_moves ..) | with_reducible apply Moves.ite
    | with_reducible apply Moves.foldl | with_reducible apply Moves.foldl_snd | with_reducible apply Moves.foldl_fst
    | ((with_reducible apply Moves.snd); assumption) | ((with_reducible apply Moves.fst); assumption) | split | dsimp only

theorem State.ledgerWrite_moves (s : State) (a : Nat) (v : Word) :
    Moves [.regs, .mem, .ecc, .ladder, .fabric, .weft, .power, .time, .selv, .sense, .hs, .sal, .zw, .grid, .ledger, .out, .free] s (State.ledgerWrite s a v) := by
  unfold State.ledgerWrite
  repeat' first
    | with_reducible apply Moves.refl | ((with_reducible apply Within.of); exact rfl) | intro _
    | with_reducible apply Moves.step (State.evsReqWrite_moves ..)
    | with_reducible apply Moves.step (State.onTariff_moves (fs := [.regs, .mem, .ecc, .ladder, .fabric, .weft, .power, .time, .selv, .sense, .hs, .sal, .zw, .grid, .ledger, .out, .free]) (hf := ?_) ..)
    | with_reducible apply Moves.step (State.tarCtrlWrite_moves ..)
    | with_reducible apply Moves.step (State.tarCmdWrite_moves ..)
    | with_reducible apply Moves.step (State.tarAdjWrite_moves ..)
    | with_reducible apply Moves.step (State.accCmdWrite_moves ..)
    | with_reducible apply Moves.step (State.ksCtrlWrite_moves ..)
    | with_reducible apply Moves.step (State.ksAdminWrite_moves ..)
    | with_reducible apply Moves.step (State.wrAccess_moves ..) | with_reducible apply Moves.ite
    | with_reducible apply Moves.foldl | with_reducible apply Moves.foldl_snd | with_reducible apply Moves.foldl_fst
    | ((with_reducible apply Moves.snd); assumption) | ((with_reducible apply Moves.fst); assumption) | split | dsimp only

end Sys2Proof.Machine
end

