-- ==== Sys2Proof/Laws/MovesZwidyCommands.lean ====
section
/-!
SUPPORT. Laws/MovesZwidyCommands.lean: which parts of the state each operation of Machine/ZwidyCommands.lean moves.
-/
set_option Elab.async false
namespace Sys2Proof.Machine
set_option linter.all false

theorem State.zwReceive_moves (s : State) (fwd f : State → State) {fs : List Part} (hfwd : ∀ (t : State), Moves fs t (fwd t)) (hf : ∀ (t : State), Moves fs t (f t)) :
    Moves ([] ++ fs) s (State.zwReceive s fwd f) := by
  unfold State.zwReceive
  repeat' first
    | with_reducible apply Moves.refl | ((with_reducible apply Within.of); exact rfl) | intro _
    | with_reducible apply Within.right | with_reducible apply Within.append
    | with_reducible apply Moves.step (hfwd ..) (Within.right _ _)
    | with_reducible apply Moves.step (hf ..) (Within.right _ _)
    | with_reducible apply Moves.step (State.onBlk_moves (fs := ([] ++ fs)) (hf := ?_) ..)
    | with_reducible apply Moves.ite | with_reducible apply Moves.foldl | with_reducible apply Moves.foldl_snd
    | with_reducible apply Moves.foldl_fst | ((with_reducible apply Moves.snd); assumption)
    | ((with_reducible apply Moves.fst); assumption) | split | dsimp only

theorem State.zwActive_moves (s : State) (f : State → State) {fs : List Part} (hf : ∀ (t : State), Moves fs t (f t)) :
    Moves ([] ++ fs) s (State.zwActive s f) := by
  unfold State.zwActive
  repeat' first
    | with_reducible apply Moves.refl | ((with_reducible apply Within.of); exact rfl) | intro _
    | with_reducible apply Within.right | with_reducible apply Within.append
    | with_reducible apply Moves.step (hf ..) (Within.right _ _)
    | with_reducible apply Moves.step (State.onBlk_moves (fs := ([] ++ fs)) (hf := ?_) ..)
    | with_reducible apply Moves.ite | with_reducible apply Moves.foldl | with_reducible apply Moves.foldl_snd
    | with_reducible apply Moves.foldl_fst | ((with_reducible apply Moves.snd); assumption)
    | ((with_reducible apply Moves.fst); assumption) | split | dsimp only

theorem execDemandSample_moves (s : State) :
    Goes [.regs, .ladder, .weft, .sal, .zw, .out] s (execDemandSample s) := by
  unfold execDemandSample
  repeat' first
    | with_reducible apply Moves.refl | ((with_reducible apply Within.of); exact rfl) | intro _
    | with_reducible apply Goes.next | with_reducible apply Goes.fault | with_reducible apply Goes.ite
    | with_reducible apply Moves.step (State.zwActive_moves (fs := [.regs, .ladder, .weft, .sal, .zw, .out]) (hf := ?_) ..)
    | with_reducible apply Moves.step (State.setZw_moves ..) | with_reducible apply Moves.step (State.setFlag_moves ..)
    | with_reducible apply Moves.step (State.zwSend_moves ..) | with_reducible apply Moves.step (State.line_moves ..)
    | with_reducible apply Moves.step (State.zwDemands_moves ..) | with_reducible apply Moves.ite
    | with_reducible apply Moves.foldl | with_reducible apply Moves.foldl_snd | with_reducible apply Moves.foldl_fst
    | ((with_reducible apply Moves.snd); assumption) | ((with_reducible apply Moves.fst); assumption) | split | dsimp only

theorem execDemandFrame_moves (port : Fin 2) (etype : BitVec 16) (payload : List Byte) (s : State) :
    Goes [.regs, .ladder, .weft, .sal, .zw, .out] s (execDemandFrame port etype payload s) := by
  unfold execDemandFrame
  repeat' first
    | with_reducible apply Moves.refl | ((with_reducible apply Within.of); exact rfl) | intro _
    | with_reducible apply Goes.next | with_reducible apply Goes.fault | with_reducible apply Goes.ite
    | with_reducible apply Moves.step (State.zwReceive_moves (fs := [.regs, .ladder, .weft, .sal, .zw, .out]) (hfwd := ?_) (hf := ?_) ..)
    | with_reducible apply Moves.step (State.zwForward_moves ..)
    | with_reducible apply Moves.step (State.zwPassed_moves ..)
    | with_reducible apply Moves.step (State.sawEpoch_moves ..) | with_reducible apply Moves.step (State.setZw_moves ..)
    | with_reducible apply Moves.step (State.zwTakeTimer_moves ..)
    | with_reducible apply Moves.step (State.wrNat_moves ..) | with_reducible apply Moves.step (State.zwDemands_moves ..)
    | with_reducible apply Moves.step (State.zwDiscard_moves ..) | with_reducible apply Moves.ite
    | with_reducible apply Moves.foldl | with_reducible apply Moves.foldl_snd | with_reducible apply Moves.foldl_fst
    | ((with_reducible apply Moves.snd); assumption) | ((with_reducible apply Moves.fst); assumption) | split | dsimp only

theorem State.grantRole_moves (s : State) (c e stby : Nat) (higher : Bool) :
    Moves [.regs, .weft, .zw] s (State.grantRole s c e stby higher) := by
  unfold State.grantRole
  repeat' first
    | with_reducible apply Moves.refl | ((with_reducible apply Within.of); exact rfl) | intro _
    | with_reducible apply Moves.step (State.followAs_moves ..) | with_reducible apply Moves.step (State.line_moves ..)
    | with_reducible apply Moves.step (State.zwFlag_moves ..) | with_reducible apply Moves.step (State.endSwap_moves ..)
    | with_reducible apply Moves.ite | with_reducible apply Moves.foldl | with_reducible apply Moves.foldl_snd
    | with_reducible apply Moves.foldl_fst | ((with_reducible apply Moves.snd); assumption)
    | ((with_reducible apply Moves.fst); assumption) | split | dsimp only

theorem execGrantFrame_moves (port : Fin 2) (etype : BitVec 16) (payload : List Byte) (s : State) :
    Goes [.regs, .ladder, .weft, .sal, .zw, .out, .free] s (execGrantFrame port etype payload s) := by
  unfold execGrantFrame
  repeat' first
    | with_reducible apply Moves.refl | ((with_reducible apply Within.of); exact rfl) | intro _
    | with_reducible apply Goes.next | with_reducible apply Goes.fault | with_reducible apply Goes.ite
    | with_reducible apply Moves.step (State.zwReceive_moves (fs := [.regs, .ladder, .weft, .sal, .zw, .out, .free]) (hfwd := ?_) (hf := ?_) ..)
    | with_reducible apply Moves.step (State.zwForward_moves ..) | with_reducible apply Moves.step (State.line_moves ..)
    | with_reducible apply Moves.step (State.zwPassed_moves ..)
    | with_reducible apply Moves.step (State.sawEpoch_moves ..) | with_reducible apply Moves.step (State.setZw_moves ..)
    | with_reducible apply Moves.step (State.zwFlag_moves ..) | with_reducible apply Moves.step (State.grantRole_moves ..)
    | with_reducible apply Moves.step (State.setFld_moves ..) | with_reducible apply Moves.step (State.setFlag_moves ..)
    | with_reducible apply Moves.step (State.zwTakeSet_moves ..)
    | with_reducible apply Moves.step (State.dropDecay_moves ..) | with_reducible apply Moves.step (State.zwSave_moves ..)
    | with_reducible apply Moves.step (State.claimNext_moves ..)
    | with_reducible apply Moves.step (State.zwDiscard_moves ..) | with_reducible apply Moves.ite
    | with_reducible apply Moves.foldl | with_reducible apply Moves.foldl_snd | with_reducible apply Moves.foldl_fst
    | ((with_reducible apply Moves.snd); assumption) | ((with_reducible apply Moves.fst); assumption) | split | dsimp only

theorem execZwEnable_moves (data : Word) (s : State) :
    Goes [.regs, .ladder, .weft, .selv, .sense, .hs, .zw] s (execZwEnable data s) := by
  unfold execZwEnable
  repeat' first
    | with_reducible apply Moves.refl | ((with_reducible apply Within.of); exact rfl) | intro _
    | with_reducible apply Goes.next | with_reducible apply Goes.fault | with_reducible apply Goes.ite
    | with_reducible apply Moves.step (State.onBlk_moves (fs := [.regs, .ladder, .weft, .selv, .sense, .hs, .zw]) (hf := ?_) ..)
    | with_reducible apply Moves.step (State.zwCtrlWrite_moves ..) | with_reducible apply Moves.ite
    | with_reducible apply Moves.foldl | with_reducible apply Moves.foldl_snd | with_reducible apply Moves.foldl_fst
    | ((with_reducible apply Moves.snd); assumption) | ((with_reducible apply Moves.fst); assumption) | split | dsimp only

theorem execListenTimeout_moves (s : State) :
    Goes [.zw] s (execListenTimeout s) := by
  unfold execListenTimeout
  repeat' first
    | with_reducible apply Moves.refl | ((with_reducible apply Within.of); exact rfl) | intro _
    | with_reducible apply Goes.next | with_reducible apply Goes.fault | with_reducible apply Goes.ite
    | with_reducible apply Moves.step (State.zwActive_moves (fs := [.zw]) (hf := ?_) ..)
    | with_reducible apply Moves.step (State.setZw_moves ..) | with_reducible apply Moves.ite
    | with_reducible apply Moves.foldl | with_reducible apply Moves.foldl_snd | with_reducible apply Moves.foldl_fst
    | ((with_reducible apply Moves.snd); assumption) | ((with_reducible apply Moves.fst); assumption) | split | dsimp only

theorem execClaimWaitExpiry_moves (s : State) :
    Goes [.regs, .zw] s (execClaimWaitExpiry s) := by
  unfold execClaimWaitExpiry
  repeat' first
    | with_reducible apply Moves.refl | ((with_reducible apply Within.of); exact rfl) | intro _
    | with_reducible apply Goes.next | with_reducible apply Goes.fault | with_reducible apply Goes.ite
    | with_reducible apply Moves.step (State.zwActive_moves (fs := [.regs, .zw]) (hf := ?_) ..)
    | with_reducible apply Moves.step (State.claimNext_moves ..) | with_reducible apply Moves.step (State.setZw_moves ..)
    | with_reducible apply Moves.ite | with_reducible apply Moves.foldl | with_reducible apply Moves.foldl_snd
    | with_reducible apply Moves.foldl_fst | ((with_reducible apply Moves.snd); assumption)
    | ((with_reducible apply Moves.fst); assumption) | split | dsimp only

theorem execFollowerTimeout_moves (s : State) :
    Goes [.regs, .weft, .zw] s (execFollowerTimeout s) := by
  unfold execFollowerTimeout
  repeat' first
    | with_reducible apply Moves.refl | ((with_reducible apply Within.of); exact rfl) | intro _
    | with_reducible apply Goes.next | with_reducible apply Goes.fault | with_reducible apply Goes.ite
    | with_reducible apply Moves.step (State.zwActive_moves (fs := [.regs, .weft, .zw]) (hf := ?_) ..)
    | with_reducible apply Moves.step (State.enterListen_moves ..) | with_reducible apply Moves.ite
    | with_reducible apply Moves.foldl | with_reducible apply Moves.foldl_snd | with_reducible apply Moves.foldl_fst
    | ((with_reducible apply Moves.snd); assumption) | ((with_reducible apply Moves.fst); assumption) | split | dsimp only

theorem State.swapBoundary_moves (s : State) (b : Nat) :
    Moves [.regs, .ladder, .weft, .zw] s (State.swapBoundary s b) := by
  unfold State.swapBoundary
  repeat' first
    | with_reducible apply Moves.refl | ((with_reducible apply Within.of); exact rfl) | intro _
    | with_reducible apply Moves.step (State.setBit_moves ..) | with_reducible apply Moves.step (State.zwFlag_moves ..)
    | with_reducible apply Moves.step (State.endSwap_moves ..)
    | with_reducible apply Moves.step (State.claimNext_moves ..) | with_reducible apply Moves.step (State.line_moves ..)
    | with_reducible apply Moves.step (State.note_moves ..) | with_reducible apply Moves.step (State.setRole_moves ..)
    | with_reducible apply Moves.ite | with_reducible apply Moves.foldl | with_reducible apply Moves.foldl_snd
    | with_reducible apply Moves.foldl_fst | ((with_reducible apply Moves.snd); assumption)
    | ((with_reducible apply Moves.fst); assumption) | split | dsimp only

theorem State.decayBoundary_moves (s : State) (b : Nat) :
    Moves [.sal, .zw, .free] s (State.decayBoundary s b) := by
  unfold State.decayBoundary
  repeat' first
    | with_reducible apply Moves.refl | ((with_reducible apply Within.of); exact rfl) | intro _
    | with_reducible apply Moves.step (State.took_moves ..) | with_reducible apply Moves.step (State.setZw_moves ..)
    | with_reducible apply Moves.step (State.setSal_moves ..) | with_reducible apply Moves.ite
    | with_reducible apply Moves.foldl | with_reducible apply Moves.foldl_snd | with_reducible apply Moves.foldl_fst
    | ((with_reducible apply Moves.snd); assumption) | ((with_reducible apply Moves.fst); assumption) | split | dsimp only

theorem execZwBoundary_moves (s : State) :
    Goes [.regs, .ladder, .weft, .sal, .zw, .free] s (execZwBoundary s) := by
  unfold execZwBoundary
  repeat' first
    | with_reducible apply Moves.refl | ((with_reducible apply Within.of); exact rfl) | intro _
    | with_reducible apply Goes.next | with_reducible apply Goes.fault | with_reducible apply Goes.ite
    | with_reducible apply Moves.step (State.zwActive_moves (fs := [.regs, .ladder, .weft, .sal, .zw, .free]) (hf := ?_) ..)
    | with_reducible apply Moves.step (State.setZw_moves ..) | with_reducible apply Moves.step (State.bump_moves ..)
    | with_reducible apply Moves.step (State.zwTakeTimer_moves ..)
    | with_reducible apply Moves.step (State.setFlag_moves ..)
    | with_reducible apply Moves.step (State.becomeLeader_moves ..)
    | with_reducible apply Moves.step (State.decayBoundary_moves ..)
    | with_reducible apply Moves.step (State.swapBoundary_moves ..) | with_reducible apply Moves.ite
    | with_reducible apply Moves.foldl | with_reducible apply Moves.foldl_snd | with_reducible apply Moves.foldl_fst
    | ((with_reducible apply Moves.snd); assumption) | ((with_reducible apply Moves.fst); assumption) | split | dsimp only

theorem execTakeover_moves (s : State) :
    Goes [.regs, .ladder, .weft, .zw] s (execTakeover s) := by
  unfold execTakeover
  repeat' first
    | with_reducible apply Moves.refl | ((with_reducible apply Within.of); exact rfl) | intro _
    | with_reducible apply Goes.next | with_reducible apply Goes.fault | with_reducible apply Goes.ite
    | with_reducible apply Moves.step (State.zwActive_moves (fs := [.regs, .ladder, .weft, .zw]) (hf := ?_) ..)
    | with_reducible apply Moves.step (State.setZw_moves ..) | with_reducible apply Moves.step (State.note_moves ..)
    | with_reducible apply Moves.step (State.zwFlag_moves ..)
    | with_reducible apply Moves.step (State.becomeLeader_moves ..)
    | with_reducible apply Moves.step (State.nextEpoch_moves ..) | with_reducible apply Moves.ite
    | with_reducible apply Moves.foldl | with_reducible apply Moves.foldl_snd | with_reducible apply Moves.foldl_fst
    | ((with_reducible apply Moves.snd); assumption) | ((with_reducible apply Moves.fst); assumption) | split | dsimp only

theorem execStepDown_moves (s : State) :
    Goes [.regs, .ladder, .weft, .zw] s (execStepDown s) := by
  unfold execStepDown
  repeat' first
    | with_reducible apply Moves.refl | ((with_reducible apply Within.of); exact rfl) | intro _
    | with_reducible apply Goes.next | with_reducible apply Goes.fault | with_reducible apply Goes.ite
    | with_reducible apply Moves.step (State.zwActive_moves (fs := [.regs, .ladder, .weft, .zw]) (hf := ?_) ..)
    | with_reducible apply Moves.step (State.note_moves ..) | with_reducible apply Moves.step (State.zwFlag_moves ..)
    | with_reducible apply Moves.step (State.enterListen_moves ..) | with_reducible apply Moves.ite
    | with_reducible apply Moves.foldl | with_reducible apply Moves.foldl_snd | with_reducible apply Moves.foldl_fst
    | ((with_reducible apply Moves.snd); assumption) | ((with_reducible apply Moves.fst); assumption) | split | dsimp only

theorem execHoldExpiry_moves (s : State) :
    Goes [.regs, .ladder, .weft, .zw] s (execHoldExpiry s) := by
  unfold execHoldExpiry
  repeat' first
    | with_reducible apply Moves.refl | ((with_reducible apply Within.of); exact rfl) | intro _
    | with_reducible apply Goes.next | with_reducible apply Goes.fault | with_reducible apply Goes.ite
    | with_reducible apply Moves.step (State.zwActive_moves (fs := [.regs, .ladder, .weft, .zw]) (hf := ?_) ..)
    | with_reducible apply Moves.step (State.setZw_moves ..) | with_reducible apply Moves.step (State.setFlag_moves ..)
    | with_reducible apply Moves.step (State.line_moves ..) | with_reducible apply Moves.step (State.note_moves ..)
    | with_reducible apply Moves.ite | with_reducible apply Moves.foldl | with_reducible apply Moves.foldl_snd
    | with_reducible apply Moves.foldl_fst | ((with_reducible apply Moves.snd); assumption)
    | ((with_reducible apply Moves.fst); assumption) | split | dsimp only

theorem State.zwSwapGo_moves (s : State) (data : Word) :
    Moves [.regs, .zw] s (State.zwSwapGo s data) := by
  unfold State.zwSwapGo
  repeat' first
    | with_reducible apply Moves.refl | ((with_reducible apply Within.of); exact rfl) | intro _
    | with_reducible apply Moves.step (State.setFld_moves ..) | with_reducible apply Moves.step (State.setFlag_moves ..)
    | with_reducible apply Moves.step (State.setZw_moves ..) | with_reducible apply Moves.ite
    | with_reducible apply Moves.foldl | with_reducible apply Moves.foldl_snd | with_reducible apply Moves.foldl_fst
    | ((with_reducible apply Moves.snd); assumption) | ((with_reducible apply Moves.fst); assumption) | split | dsimp only

theorem execZwSwapGo_moves (data : Word) (s : State) :
    Goes [.regs, .zw] s (execZwSwapGo data s) := by
  unfold execZwSwapGo
  repeat' first
    | with_reducible apply Moves.refl | ((with_reducible apply Within.of); exact rfl) | intro _
    | with_reducible apply Goes.next | with_reducible apply Goes.fault | with_reducible apply Goes.ite
    | with_reducible apply Moves.step (State.onBlk_moves (fs := [.regs, .zw]) (hf := ?_) ..)
    | with_reducible apply Moves.step (State.zwSwapGo_moves ..) | with_reducible apply Moves.ite
    | with_reducible apply Moves.foldl | with_reducible apply Moves.foldl_snd | with_reducible apply Moves.foldl_fst
    | ((with_reducible apply Moves.snd); assumption) | ((with_reducible apply Moves.fst); assumption) | split | dsimp only

theorem execZwClrExcl_moves (s : State) :
    Goes [.regs] s (execZwClrExcl s) := by
  unfold execZwClrExcl
  repeat' first
    | with_reducible apply Moves.refl | ((with_reducible apply Within.of); exact rfl) | intro _
    | with_reducible apply Goes.next | with_reducible apply Goes.fault | with_reducible apply Goes.ite
    | with_reducible apply Moves.step (State.onBlk_moves (fs := [.regs]) (hf := ?_) ..)
    | with_reducible apply Moves.step (State.setFld_moves ..) | with_reducible apply Moves.ite
    | with_reducible apply Moves.foldl | with_reducible apply Moves.foldl_snd | with_reducible apply Moves.foldl_fst
    | ((with_reducible apply Moves.snd); assumption) | ((with_reducible apply Moves.fst); assumption) | split | dsimp only

theorem State.zwClaim_moves (s : State) (b : Bool) :
    Moves [.regs, .ladder, .weft, .selv, .sense, .hs, .zw] s (State.zwClaim s b) := by
  unfold State.zwClaim
  repeat' first
    | with_reducible apply Moves.refl | ((with_reducible apply Within.of); exact rfl) | intro _
    | with_reducible apply Moves.step (State.ownership_moves ..)
    | with_reducible apply Moves.step (State.setFlag_moves ..) | with_reducible apply Moves.ite
    | with_reducible apply Moves.foldl | with_reducible apply Moves.foldl_snd | with_reducible apply Moves.foldl_fst
    | ((with_reducible apply Moves.snd); assumption) | ((with_reducible apply Moves.fst); assumption) | split | dsimp only

theorem execZwClaim_moves (b : Bool) (s : State) :
    Goes [.regs, .ladder, .weft, .selv, .sense, .hs, .zw] s (execZwClaim b s) := by
  unfold execZwClaim
  repeat' first
    | with_reducible apply Moves.refl | ((with_reducible apply Within.of); exact rfl) | intro _
    | with_reducible apply Goes.next | with_reducible apply Goes.fault | with_reducible apply Goes.ite
    | with_reducible apply Moves.step (State.onBlk_moves (fs := [.regs, .ladder, .weft, .selv, .sense, .hs, .zw]) (hf := ?_) ..)
    | with_reducible apply Moves.step (State.zwClaim_moves ..) | with_reducible apply Moves.ite
    | with_reducible apply Moves.foldl | with_reducible apply Moves.foldl_snd | with_reducible apply Moves.foldl_fst
    | ((with_reducible apply Moves.snd); assumption) | ((with_reducible apply Moves.fst); assumption) | split | dsimp only

theorem execPartnerLineQualified_moves (high : Bool) (us : Nat) (s : State) :
    Goes [.regs, .ladder, .weft, .selv, .sense, .hs, .zw] s (execPartnerLineQualified high us s) := by
  unfold execPartnerLineQualified
  repeat' first
    | with_reducible apply Moves.refl | ((with_reducible apply Within.of); exact rfl) | intro _
    | with_reducible apply Goes.next | with_reducible apply Goes.fault | with_reducible apply Goes.ite
    | with_reducible apply Moves.step (State.onBlk_moves (fs := [.regs, .ladder, .weft, .selv, .sense, .hs, .zw]) (hf := ?_) ..)
    | with_reducible apply Moves.step (State.setZw_moves ..) | with_reducible apply Moves.step (State.ownership_moves ..)
    | with_reducible apply Moves.step (State.setFlag_moves ..) | with_reducible apply Moves.ite
    | with_reducible apply Moves.foldl | with_reducible apply Moves.foldl_snd | with_reducible apply Moves.foldl_fst
    | ((with_reducible apply Moves.snd); assumption) | ((with_reducible apply Moves.fst); assumption) | split | dsimp only

theorem execPartnerLineStuck_moves (edges : Nat) (s : State) :
    Goes [.regs, .ladder, .weft, .selv, .sense, .hs, .zw] s (execPartnerLineStuck edges s) := by
  unfold execPartnerLineStuck
  repeat' first
    | with_reducible apply Moves.refl | ((with_reducible apply Within.of); exact rfl) | intro _
    | with_reducible apply Goes.next | with_reducible apply Goes.fault | with_reducible apply Goes.ite
    | with_reducible apply Moves.step (State.onBlk_moves (fs := [.regs, .ladder, .weft, .selv, .sense, .hs, .zw]) (hf := ?_) ..)
    | with_reducible apply Moves.step (State.setZw_moves ..) | with_reducible apply Moves.step (State.setFlag_moves ..)
    | with_reducible apply Moves.step (State.ownership_moves ..) | with_reducible apply Moves.step (State.note_moves ..)
    | with_reducible apply Moves.ite | with_reducible apply Moves.foldl | with_reducible apply Moves.foldl_snd
    | with_reducible apply Moves.foldl_fst | ((with_reducible apply Moves.snd); assumption)
    | ((with_reducible apply Moves.fst); assumption) | split | dsimp only

theorem State.zwUnstick_moves (s : State) :
    Moves [.regs, .ladder, .weft, .selv, .sense, .hs, .zw] s (State.zwUnstick s) := by
  unfold State.zwUnstick
  repeat' first
    | with_reducible apply Moves.refl | ((with_reducible apply Within.of); exact rfl) | intro _
    | with_reducible apply Moves.step (State.setFlag_moves ..)
    | with_reducible apply Moves.step (State.ownership_moves ..) | with_reducible apply Moves.ite
    | with_reducible apply Moves.foldl | with_reducible apply Moves.foldl_snd | with_reducible apply Moves.foldl_fst
    | ((with_reducible apply Moves.snd); assumption) | ((with_reducible apply Moves.fst); assumption) | split | dsimp only

theorem execZwPairStuckClear_moves (s : State) :
    Goes [.regs, .ladder, .weft, .selv, .sense, .hs, .zw] s (execZwPairStuckClear s) := by
  unfold execZwPairStuckClear
  repeat' first
    | with_reducible apply Moves.refl | ((with_reducible apply Within.of); exact rfl) | intro _
    | with_reducible apply Goes.next | with_reducible apply Goes.fault | with_reducible apply Goes.ite
    | with_reducible apply Moves.step (State.onBlk_moves (fs := [.regs, .ladder, .weft, .selv, .sense, .hs, .zw]) (hf := ?_) ..)
    | with_reducible apply Moves.step (State.zwUnstick_moves ..) | with_reducible apply Moves.ite
    | with_reducible apply Moves.foldl | with_reducible apply Moves.foldl_snd | with_reducible apply Moves.foldl_fst
    | ((with_reducible apply Moves.snd); assumption) | ((with_reducible apply Moves.fst); assumption) | split | dsimp only

theorem execZwBufferEcc_moves (grant : Bool) (double : Bool) (s : State) :
    Goes [.regs, .ladder, .zw] s (execZwBufferEcc grant double s) := by
  unfold execZwBufferEcc
  repeat' first
    | with_reducible apply Moves.refl | ((with_reducible apply Within.of); exact rfl) | intro _
    | with_reducible apply Goes.next | with_reducible apply Goes.fault | with_reducible apply Goes.ite
    | with_reducible apply Moves.step (State.onBlk_moves (fs := [.regs, .ladder, .zw]) (hf := ?_) ..)
    | with_reducible apply Moves.step (State.contain_moves ..) | with_reducible apply Moves.step (State.setZw_moves ..)
    | with_reducible apply Moves.step (State.note_moves ..) | with_reducible apply Moves.ite
    | with_reducible apply Moves.foldl | with_reducible apply Moves.foldl_snd | with_reducible apply Moves.foldl_fst
    | ((with_reducible apply Moves.snd); assumption) | ((with_reducible apply Moves.fst); assumption) | split | dsimp only

end Sys2Proof.Machine
end

