-- ==== Sys2Proof/Laws/MovesWriteLink.lean ====
section
/-!
SUPPORT. Laws/MovesWriteLink.lean: which parts of the state each operation of Machine/WriteLink.lean moves.
-/
set_option Elab.async false
namespace Sys2Proof.Machine
set_option linter.all false

theorem State.tbWrite_moves (s : State) (n o slot a : Nat) (v : Word) :
    Moves [.regs, .ladder, .weft, .power, .time] s (State.tbWrite s n o slot a v) := by
  unfold State.tbWrite
  repeat' first
    | with_reducible apply Moves.refl | ((with_reducible apply Within.of); exact rfl) | intro _
    | with_reducible apply Moves.step (State.tbMay_moves (fs := [.regs, .ladder, .weft, .power, .time]) (hf := ?_) ..)
    | with_reducible apply Moves.step (State.tbCfgWrite_moves ..)
    | with_reducible apply Moves.step (State.tbRateWrite_moves ..)
    | with_reducible apply Moves.step (State.wrAccess_moves ..) | with_reducible apply Moves.step (State.tbGo_moves ..)
    | with_reducible apply Moves.ite | with_reducible apply Moves.foldl | with_reducible apply Moves.foldl_snd
    | with_reducible apply Moves.foldl_fst | ((with_reducible apply Moves.snd); assumption)
    | ((with_reducible apply Moves.fst); assumption) | split | dsimp only

theorem State.toutWrite_moves (s : State) (k o a : Nat) (v : Word) :
    Moves [.regs, .weft, .time, .free] s (State.toutWrite s k o a v) := by
  unfold State.toutWrite
  repeat' first
    | with_reducible apply Moves.refl | ((with_reducible apply Within.of); exact rfl) | intro _
    | with_reducible apply Moves.step (State.toutCfgWrite_moves ..)
    | with_reducible apply Moves.step (State.setFlag_moves ..) | with_reducible apply Moves.step (State.wrAccess_moves ..)
    | with_reducible apply Moves.ite | with_reducible apply Moves.foldl | with_reducible apply Moves.foldl_snd
    | with_reducible apply Moves.foldl_fst | ((with_reducible apply Moves.snd); assumption)
    | ((with_reducible apply Moves.fst); assumption) | split | dsimp only

theorem State.timeWrite_moves (s : State) (slot a : Nat) (v : Word) :
    Moves [.regs, .ladder, .weft, .power, .time, .free] s (State.timeWrite s slot a v) := by
  unfold State.timeWrite
  repeat' first
    | with_reducible apply Moves.refl | ((with_reducible apply Within.of); exact rfl) | intro _
    | with_reducible apply Moves.step (State.tbWrite_moves ..)
    | with_reducible apply Moves.step (State.toutWrite_moves ..)
    | with_reducible apply Moves.step (State.wrAccess_moves ..) | with_reducible apply Moves.ite
    | with_reducible apply Moves.foldl | with_reducible apply Moves.foldl_snd | with_reducible apply Moves.foldl_fst
    | ((with_reducible apply Moves.snd); assumption) | ((with_reducible apply Moves.fst); assumption) | split | dsimp only

theorem State.ethWrite_moves (s : State) (a : Nat) (v : Word) :
    Moves [.regs, .ladder, .time] s (State.ethWrite s a v) := by
  unfold State.ethWrite
  repeat' first
    | with_reducible apply Moves.refl | ((with_reducible apply Within.of); exact rfl) | intro _
    | with_reducible apply Moves.step (State.ptpPortWrite_moves ..)
    | with_reducible apply Moves.step (State.wrAccess_moves ..) | with_reducible apply Moves.ite
    | with_reducible apply Moves.foldl | with_reducible apply Moves.foldl_snd | with_reducible apply Moves.foldl_fst
    | ((with_reducible apply Moves.snd); assumption) | ((with_reducible apply Moves.fst); assumption) | split | dsimp only

theorem State.ringCfgWrite_moves (s : State) (l : Nat) (tx : Bool) (v : Word) :
    Moves [.regs, .links] s (State.ringCfgWrite s l tx v) := by
  unfold State.ringCfgWrite
  repeat' first
    | with_reducible apply Moves.refl | ((with_reducible apply Within.of); exact rfl) | intro _
    | with_reducible apply Moves.step (State.wrAccess_moves ..)
    | with_reducible apply Moves.step (State.ringEnable_moves ..) | with_reducible apply Moves.ite
    | with_reducible apply Moves.foldl | with_reducible apply Moves.foldl_snd | with_reducible apply Moves.foldl_fst
    | ((with_reducible apply Moves.snd); assumption) | ((with_reducible apply Moves.fst); assumption) | split | dsimp only

theorem State.linkRegWrite_moves (s : State) (l o a : Nat) (v : Word) :
    Moves [.regs, .links] s (State.linkRegWrite s l o a v) := by
  unfold State.linkRegWrite
  repeat' first
    | with_reducible apply Moves.refl | ((with_reducible apply Within.of); exact rfl) | intro _
    | with_reducible apply Moves.step (State.ringCfgWrite_moves ..)
    | with_reducible apply Moves.step (State.wrAccess_moves ..) | with_reducible apply Moves.ite
    | with_reducible apply Moves.foldl | with_reducible apply Moves.foldl_snd | with_reducible apply Moves.foldl_fst
    | ((with_reducible apply Moves.snd); assumption) | ((with_reducible apply Moves.fst); assumption) | split | dsimp only

theorem State.t1sWrite_moves (s : State) (a : Nat) (v : Word) :
    Moves [.regs, .ladder, .links] s (State.t1sWrite s a v) := by
  unfold State.t1sWrite
  repeat' first
    | with_reducible apply Moves.refl | ((with_reducible apply Within.of); exact rfl) | intro _
    | with_reducible apply Moves.step (State.t1sCtrlWrite_moves ..)
    | with_reducible apply Moves.step (State.linkRegWrite_moves ..) | with_reducible apply Moves.ite
    | with_reducible apply Moves.foldl | with_reducible apply Moves.foldl_snd | with_reducible apply Moves.foldl_fst
    | ((with_reducible apply Moves.snd); assumption) | ((with_reducible apply Moves.fst); assumption) | split | dsimp only

theorem State.olkStatWrite_moves (s : State) (o : Nat) (v : Word) :
    Moves [.regs, .weft] s (State.olkStatWrite s o v) := by
  unfold State.olkStatWrite
  repeat' first
    | with_reducible apply Moves.refl | ((with_reducible apply Within.of); exact rfl) | intro _
    | with_reducible apply Moves.step (State.wrAccess_moves ..)
    | with_reducible apply Moves.step (State.pilotStable_moves ..) | with_reducible apply Moves.ite
    | with_reducible apply Moves.foldl | with_reducible apply Moves.foldl_snd | with_reducible apply Moves.foldl_fst
    | ((with_reducible apply Moves.snd); assumption) | ((with_reducible apply Moves.fst); assumption) | split | dsimp only

theorem State.pilotWrite_moves (s : State) (a : Nat) (v : Word) :
    Moves [.regs, .weft] s (State.pilotWrite s a v) := by
  unfold State.pilotWrite
  repeat' first
    | with_reducible apply Moves.refl | ((with_reducible apply Within.of); exact rfl) | intro _
    | with_reducible apply Moves.step (State.pilotDrive_moves ..)
    | with_reducible apply Moves.step (State.olkStatWrite_moves ..)
    | with_reducible apply Moves.step (State.wrAccess_moves ..) | with_reducible apply Moves.ite
    | with_reducible apply Moves.foldl | with_reducible apply Moves.foldl_snd | with_reducible apply Moves.foldl_fst
    | ((with_reducible apply Moves.snd); assumption) | ((with_reducible apply Moves.fst); assumption) | split | dsimp only

theorem State.gpWrite_moves (s : State) (a : Nat) (v : Word) :
    Moves [.regs, .links] s (State.gpWrite s a v) := by
  unfold State.gpWrite
  repeat' first
    | with_reducible apply Moves.refl | ((with_reducible apply Within.of); exact rfl) | intro _
    | with_reducible apply Moves.step (State.attStart_moves ..)
    | with_reducible apply Moves.step (State.wrAccess_moves ..)
    | with_reducible apply Moves.step (State.linkRegWrite_moves ..) | with_reducible apply Moves.ite
    | with_reducible apply Moves.foldl | with_reducible apply Moves.foldl_snd | with_reducible apply Moves.foldl_fst
    | ((with_reducible apply Moves.snd); assumption) | ((with_reducible apply Moves.fst); assumption) | split | dsimp only

theorem State.bbWrite_moves (s : State) (a : Nat) (v : Word) :
    Moves [.regs, .links] s (State.bbWrite s a v) := by
  unfold State.bbWrite
  repeat' first
    | with_reducible apply Moves.refl | ((with_reducible apply Within.of); exact rfl) | intro _
    | with_reducible apply Moves.step (State.bbPhase_moves ..) | with_reducible apply Moves.step (State.wrAccess_moves ..)
    | with_reducible apply Moves.step (State.linkRegWrite_moves ..) | with_reducible apply Moves.ite
    | with_reducible apply Moves.foldl | with_reducible apply Moves.foldl_snd | with_reducible apply Moves.foldl_fst
    | ((with_reducible apply Moves.snd); assumption) | ((with_reducible apply Moves.fst); assumption) | split | dsimp only

theorem State.plcWrite_moves (s : State) (a : Nat) (v : Word) :
    Moves [.regs, .weft, .links] s (State.plcWrite s a v) := by
  unfold State.plcWrite
  repeat' first
    | with_reducible apply Moves.refl | ((with_reducible apply Within.of); exact rfl) | intro _
    | with_reducible apply Moves.step (State.pilotWrite_moves ..)
    | with_reducible apply Moves.step (State.wrAccess_moves ..) | with_reducible apply Moves.step (State.gpWrite_moves ..)
    | with_reducible apply Moves.step (State.bbWrite_moves ..) | with_reducible apply Moves.ite
    | with_reducible apply Moves.foldl | with_reducible apply Moves.foldl_snd | with_reducible apply Moves.foldl_fst
    | ((with_reducible apply Moves.snd); assumption) | ((with_reducible apply Moves.fst); assumption) | split | dsimp only

theorem State.canRegWrite_moves (s : State) (n o a : Nat) (v : Word) :
    Moves [.regs, .mem, .ecc, .ladder, .fabric, .weft, .power, .selv, .sense, .hs, .can, .free] s (State.canRegWrite s n o a v) := by
  unfold State.canRegWrite
  repeat' first
    | with_reducible apply Moves.refl | ((with_reducible apply Within.of); exact rfl) | intro _
    | with_reducible apply Moves.step (State.canCtrlWrite_moves ..)
    | with_reducible apply Moves.step (State.setFlag_moves ..) | with_reducible apply Moves.step (State.wrAccess_moves ..)
    | with_reducible apply Moves.step (State.canUnstick_moves ..)
    | with_reducible apply Moves.step (State.canRequest_moves ..)
    | with_reducible apply Moves.step (State.canCancel_moves ..)
    | with_reducible apply Moves.step (State.canRelease_moves ..) | with_reducible apply Moves.ite
    | with_reducible apply Moves.foldl | with_reducible apply Moves.foldl_snd | with_reducible apply Moves.foldl_fst
    | ((with_reducible apply Moves.snd); assumption) | ((with_reducible apply Moves.fst); assumption) | split | dsimp only

theorem State.canWrite_moves (s : State) (a : Nat) (v : Word) :
    Moves [.regs, .mem, .ecc, .ladder, .fabric, .weft, .power, .selv, .sense, .hs, .can, .free] s (State.canWrite s a v) := by
  unfold State.canWrite
  repeat' first
    | with_reducible apply Moves.refl | ((with_reducible apply Within.of); exact rfl) | intro _
    | with_reducible apply Moves.step (State.canRegWrite_moves ..)
    | with_reducible apply Moves.step (State.wrAccess_moves ..) | with_reducible apply Moves.ite
    | with_reducible apply Moves.foldl | with_reducible apply Moves.foldl_snd | with_reducible apply Moves.foldl_fst
    | ((with_reducible apply Moves.snd); assumption) | ((with_reducible apply Moves.fst); assumption) | split | dsimp only

theorem State.sessionWrite_moves (s : State) (a : Nat) (v : Word) :
    Moves [.regs, .ses] s (State.sessionWrite s a v) := by
  unfold State.sessionWrite
  repeat' first
    | with_reducible apply Moves.refl | ((with_reducible apply Within.of); exact rfl) | intro _
    | with_reducible apply Moves.step (State.wrAccess_moves ..)
    | with_reducible apply Moves.step (State.sesCtrlWrite_moves ..)
    | with_reducible apply Moves.step (State.jobCfgWrite_moves ..)
    | with_reducible apply Moves.step (State.sesTimer_moves ..) | with_reducible apply Moves.ite
    | with_reducible apply Moves.foldl | with_reducible apply Moves.foldl_snd | with_reducible apply Moves.foldl_fst
    | ((with_reducible apply Moves.snd); assumption) | ((with_reducible apply Moves.fst); assumption) | split | dsimp only

theorem State.zwSwapWrite_moves (s : State) (v : Word) :
    Moves [.regs, .zw] s (State.zwSwapWrite s v) := by
  unfold State.zwSwapWrite
  repeat' first
    | with_reducible apply Moves.refl | ((with_reducible apply Within.of); exact rfl) | intro _
    | with_reducible apply Moves.step (State.setFld_moves ..) | with_reducible apply Moves.step (State.zwSwapGo_moves ..)
    | with_reducible apply Moves.ite | with_reducible apply Moves.foldl | with_reducible apply Moves.foldl_snd
    | with_reducible apply Moves.foldl_fst | ((with_reducible apply Moves.snd); assumption)
    | ((with_reducible apply Moves.fst); assumption) | split | dsimp only

theorem State.zwPairWrite_moves (s : State) (v : Word) :
    Moves [.regs, .ladder, .weft, .selv, .sense, .hs, .zw] s (State.zwPairWrite s v) := by
  unfold State.zwPairWrite
  repeat' first
    | with_reducible apply Moves.refl | ((with_reducible apply Within.of); exact rfl) | intro _
    | with_reducible apply Moves.step (State.wrAccess_moves ..)
    | with_reducible apply Moves.step (State.zwUnstick_moves ..)
    | with_reducible apply Moves.step (State.zwClaim_moves ..) | with_reducible apply Moves.ite
    | with_reducible apply Moves.foldl | with_reducible apply Moves.foldl_snd | with_reducible apply Moves.foldl_fst
    | ((with_reducible apply Moves.snd); assumption) | ((with_reducible apply Moves.fst); assumption) | split | dsimp only

theorem State.zwidyWrite_moves (s : State) (a : Nat) (v : Word) :
    Moves [.regs, .ladder, .weft, .selv, .sense, .hs, .zw] s (State.zwidyWrite s a v) := by
  unfold State.zwidyWrite
  repeat' first
    | with_reducible apply Moves.refl | ((with_reducible apply Within.of); exact rfl) | intro _
    | with_reducible apply Moves.step (State.zwCtrlWrite_moves ..)
    | with_reducible apply Moves.step (State.zwSwapWrite_moves ..)
    | with_reducible apply Moves.step (State.zwPairWrite_moves ..)
    | with_reducible apply Moves.step (State.zwDemWrite_moves ..)
    | with_reducible apply Moves.step (State.wrAccess_moves ..) | with_reducible apply Moves.ite
    | with_reducible apply Moves.foldl | with_reducible apply Moves.foldl_snd | with_reducible apply Moves.foldl_fst
    | ((with_reducible apply Moves.snd); assumption) | ((with_reducible apply Moves.fst); assumption) | split | dsimp only

theorem State.linkWrite_moves (s : State) (slot a : Nat) (v : Word) :
    Moves [.regs, .mem, .ecc, .ladder, .fabric, .weft, .power, .time, .selv, .sense, .hs, .zw, .links, .ses, .can, .free] s (State.linkWrite s slot a v) := by
  unfold State.linkWrite
  repeat' first
    | with_reducible apply Moves.refl | ((with_reducible apply Within.of); exact rfl) | intro _
    | with_reducible apply Moves.step (State.ethWrite_moves ..)
    | with_reducible apply Moves.step (State.timeWrite_moves ..)
    | with_reducible apply Moves.step (State.t1sWrite_moves ..)
    | with_reducible apply Moves.step (State.plcWrite_moves ..)
    | with_reducible apply Moves.step (State.canWrite_moves ..)
    | with_reducible apply Moves.step (State.sessionWrite_moves ..)
    | with_reducible apply Moves.step (State.zwidyWrite_moves ..) | with_reducible apply Moves.ite
    | with_reducible apply Moves.foldl | with_reducible apply Moves.foldl_snd | with_reducible apply Moves.foldl_fst
    | ((with_reducible apply Moves.snd); assumption) | ((with_reducible apply Moves.fst); assumption) | split | dsimp only

end Sys2Proof.Machine
end

