-- ==== Sys2Proof/Laws/MovesWriteLoom.lean ====
section
/-!
SUPPORT. Laws/MovesWriteLoom.lean: which parts of the state each operation of Machine/WriteLoom.lean moves.
-/
set_option Elab.async false
namespace Sys2Proof.Machine
set_option linter.all false

theorem State.chCtrlWrite_moves (s : State) (n : Nat) (v : Word) :
    Moves [.regs, .ladder, .loom] s (State.chCtrlWrite s n v) := by
  unfold State.chCtrlWrite
  repeat' first
    | with_reducible apply Moves.refl | ((with_reducible apply Within.of); exact rfl) | intro _
    | with_reducible apply Moves.step (State.setChFlag_moves ..)
    | with_reducible apply Moves.step (State.chWritten_moves ..)
    | with_reducible apply Moves.step (State.syncErrs_moves ..)
    | with_reducible apply Moves.step (State.wrAccess_moves ..) | with_reducible apply Moves.ite
    | with_reducible apply Moves.foldl | with_reducible apply Moves.foldl_snd | with_reducible apply Moves.foldl_fst
    | ((with_reducible apply Moves.snd); assumption) | ((with_reducible apply Moves.fst); assumption) | split | dsimp only

theorem State.chShadowWrite_moves (s : State) (n a : Nat) (v : Word) :
    Moves [.regs, .ladder, .loom] s (State.chShadowWrite s n a v) := by
  unfold State.chShadowWrite
  repeat' first
    | with_reducible apply Moves.refl | ((with_reducible apply Within.of); exact rfl) | intro _
    | with_reducible apply Moves.step (State.chWritten_moves ..)
    | with_reducible apply Moves.step (State.shadowWrite_moves ..) | with_reducible apply Moves.ite
    | with_reducible apply Moves.foldl | with_reducible apply Moves.foldl_snd | with_reducible apply Moves.foldl_fst
    | ((with_reducible apply Moves.snd); assumption) | ((with_reducible apply Moves.fst); assumption) | split | dsimp only

theorem State.loomChWrite_moves (s : State) (n a : Nat) (v : Word) :
    Moves [.regs, .ladder, .weft, .loom] s (State.loomChWrite s n a v) := by
  unfold State.loomChWrite
  repeat' first
    | with_reducible apply Moves.refl | ((with_reducible apply Within.of); exact rfl) | intro _
    | with_reducible apply Moves.step (State.chCtrlWrite_moves ..)
    | with_reducible apply Moves.step (State.chShadowWrite_moves ..) | with_reducible apply Moves.step (State.wr_moves ..)
    | with_reducible apply Moves.step (State.clrTrip_moves ..) | with_reducible apply Moves.step (State.wrAccess_moves ..)
    | with_reducible apply Moves.step (State.chWritten_moves ..)
    | with_reducible apply Moves.step (State.tripsOf_moves ..) | with_reducible apply Moves.ite
    | with_reducible apply Moves.foldl | with_reducible apply Moves.foldl_snd | with_reducible apply Moves.foldl_fst
    | ((with_reducible apply Moves.snd); assumption) | ((with_reducible apply Moves.fst); assumption) | split | dsimp only

theorem State.tsrcWrite_moves (s : State) (k : Nat) (v : Word) :
    Moves [.regs, .weft, .loom] s (State.tsrcWrite s k v) := by
  unfold State.tsrcWrite
  repeat' first
    | with_reducible apply Moves.refl | ((with_reducible apply Within.of); exact rfl) | intro _
    | with_reducible apply Moves.step (State.setFlag_moves ..)
    | with_reducible apply Moves.step (State.stuckClear_moves ..)
    | with_reducible apply Moves.step (State.srcMoved_moves ..)
    | with_reducible apply Moves.step (State.showPins_moves ..)
    | with_reducible apply Moves.step (State.wrAccess_moves ..) | with_reducible apply Moves.ite
    | with_reducible apply Moves.foldl | with_reducible apply Moves.foldl_snd | with_reducible apply Moves.foldl_fst
    | ((with_reducible apply Moves.snd); assumption) | ((with_reducible apply Moves.fst); assumption) | split | dsimp only

theorem State.loomWrite_moves (s : State) (a : Nat) (v : Word) :
    Moves [.regs, .ladder, .weft, .loom] s (State.loomWrite s a v) := by
  unfold State.loomWrite
  repeat' first
    | with_reducible apply Moves.refl | ((with_reducible apply Within.of); exact rfl) | intro _
    | with_reducible apply Moves.step (State.loomChWrite_moves ..)
    | with_reducible apply Moves.step (State.loomRunWrite_moves ..)
    | with_reducible apply Moves.step (State.gupdArm_moves ..)
    | with_reducible apply Moves.step (State.tsrcWrite_moves ..)
    | with_reducible apply Moves.step (State.wrAccess_moves ..) | with_reducible apply Moves.ite
    | with_reducible apply Moves.foldl | with_reducible apply Moves.foldl_snd | with_reducible apply Moves.foldl_fst
    | ((with_reducible apply Moves.snd); assumption) | ((with_reducible apply Moves.fst); assumption) | split | dsimp only

theorem State.twCtrlWrite_moves (s : State) (e : Nat) (v : Word) :
    Moves [.regs, .ladder, .twill] s (State.twCtrlWrite s e v) := by
  unfold State.twCtrlWrite
  repeat' first
    | with_reducible apply Moves.refl | ((with_reducible apply Within.of); exact rfl) | intro _
    | with_reducible apply Moves.step (State.twRunWrite_moves ..)
    | with_reducible apply Moves.step (State.setFld_moves ..) | with_reducible apply Moves.ite
    | with_reducible apply Moves.foldl | with_reducible apply Moves.foldl_snd | with_reducible apply Moves.foldl_fst
    | ((with_reducible apply Moves.snd); assumption) | ((with_reducible apply Moves.fst); assumption) | split | dsimp only

theorem State.slotCfgWrite_moves (s : State) (e sl : Nat) (v : Word) :
    Moves [.regs, .ladder] s (State.slotCfgWrite s e sl v) := by
  unfold State.slotCfgWrite
  repeat' first
    | with_reducible apply Moves.refl | ((with_reducible apply Within.of); exact rfl) | intro _
    | with_reducible apply Moves.step (State.wrAccess_moves ..)
    | with_reducible apply Moves.step (State.slotClear_moves ..)
    | with_reducible apply Moves.step (State.recoversCell_moves ..) | with_reducible apply Moves.ite
    | with_reducible apply Moves.foldl | with_reducible apply Moves.foldl_snd | with_reducible apply Moves.foldl_fst
    | ((with_reducible apply Moves.snd); assumption) | ((with_reducible apply Moves.fst); assumption) | split | dsimp only

theorem State.pinspWrite_moves (s : State) (j : Nat) (v : Word) :
    Moves [.regs, .twill] s (State.pinspWrite s j v) := by
  unfold State.pinspWrite
  repeat' first
    | with_reducible apply Moves.refl | ((with_reducible apply Within.of); exact rfl) | intro _
    | with_reducible apply Moves.step (State.wrAccess_moves ..)
    | with_reducible apply Moves.step (State.setPulse_moves ..) | with_reducible apply Moves.ite
    | with_reducible apply Moves.foldl | with_reducible apply Moves.foldl_snd | with_reducible apply Moves.foldl_fst
    | ((with_reducible apply Moves.snd); assumption) | ((with_reducible apply Moves.fst); assumption) | split | dsimp only

theorem State.engineWrite_moves (s : State) (e o a : Nat) (v : Word) :
    Moves [.regs, .ladder, .twill] s (State.engineWrite s e o a v) := by
  unfold State.engineWrite
  repeat' first
    | with_reducible apply Moves.refl | ((with_reducible apply Within.of); exact rfl) | intro _
    | with_reducible apply Moves.step (State.twCtrlWrite_moves ..)
    | with_reducible apply Moves.step (State.ownWrite_moves ..)
    | with_reducible apply Moves.step (State.coefCommit_moves ..)
    | with_reducible apply Moves.step (State.slotCfgWrite_moves ..)
    | with_reducible apply Moves.step (State.presetWrite_moves ..)
    | with_reducible apply Moves.step (State.coefWrite_moves ..)
    | with_reducible apply Moves.step (State.twRewritten_moves ..)
    | with_reducible apply Moves.step (State.wrAccess_moves ..) | with_reducible apply Moves.ite
    | with_reducible apply Moves.foldl | with_reducible apply Moves.foldl_snd | with_reducible apply Moves.foldl_fst
    | ((with_reducible apply Moves.snd); assumption) | ((with_reducible apply Moves.fst); assumption) | split | dsimp only

theorem State.twillWrite_moves (s : State) (a : Nat) (v : Word) :
    Moves [.regs, .ladder, .twill] s (State.twillWrite s a v) := by
  unfold State.twillWrite
  repeat' first
    | with_reducible apply Moves.refl | ((with_reducible apply Within.of); exact rfl) | intro _
    | with_reducible apply Moves.step (State.engineWrite_moves ..)
    | with_reducible apply Moves.step (State.pinspWrite_moves ..)
    | with_reducible apply Moves.step (State.wrAccess_moves ..) | with_reducible apply Moves.ite
    | with_reducible apply Moves.foldl | with_reducible apply Moves.foldl_snd | with_reducible apply Moves.foldl_fst
    | ((with_reducible apply Moves.snd); assumption) | ((with_reducible apply Moves.fst); assumption) | split | dsimp only

end Sys2Proof.Machine
end

