-- ==== Sys2Proof/Laws/MovesWriteSense.lean ====
section
/-!
SUPPORT. Laws/MovesWriteSense.lean: which parts of the state each operation of Machine/WriteSense.lean moves.
-/
set_option Elab.async false
namespace Sys2Proof.Machine
set_option linter.all false

theorem State.noteInvalid_moves (s : State) (bad : Bool) :
    Moves [.regs, .ladder] s (State.noteInvalid s bad) := by
  unfold State.noteInvalid
  repeat' first
    | with_reducible apply Moves.refl | ((with_reducible apply Within.of); exact rfl) | intro _
    | with_reducible apply Moves.step (State.note_moves ..) | with_reducible apply Moves.ite
    | with_reducible apply Moves.foldl | with_reducible apply Moves.foldl_snd | with_reducible apply Moves.foldl_fst
    | ((with_reducible apply Moves.snd); assumption) | ((with_reducible apply Moves.fst); assumption) | split | dsimp only

theorem State.xpWrite_moves (s : State) (x : Nat) (v : Word) :
    Moves [.regs, .ladder, .sense, .hs] s (State.xpWrite s x v) := by
  unfold State.xpWrite
  repeat' first
    | with_reducible apply Moves.refl | ((with_reducible apply Within.of); exact rfl) | intro _
    | with_reducible apply Moves.step (State.wrAccess_moves ..)
    | with_reducible apply Moves.step (State.holdCheck_moves ..) | with_reducible apply Moves.step (State.xpSet_moves ..)
    | with_reducible apply Moves.step (State.hsRefreshAll_moves ..)
    | with_reducible apply Moves.step (State.noteInvalid_moves ..) | with_reducible apply Moves.ite
    | with_reducible apply Moves.foldl | with_reducible apply Moves.foldl_snd | with_reducible apply Moves.foldl_fst
    | ((with_reducible apply Moves.snd); assumption) | ((with_reducible apply Moves.fst); assumption) | split | dsimp only

theorem State.cmpCfgWrite_moves (s : State) (k : Nat) (v : Word) :
    Moves [.regs, .weft, .loom] s (State.cmpCfgWrite s k v) := by
  unfold State.cmpCfgWrite
  repeat' first
    | with_reducible apply Moves.refl | ((with_reducible apply Within.of); exact rfl) | intro _
    | with_reducible apply Moves.step (State.cmpJudge_moves ..)
    | with_reducible apply Moves.step (State.wrAccess_moves ..) | with_reducible apply Moves.ite
    | with_reducible apply Moves.foldl | with_reducible apply Moves.foldl_snd | with_reducible apply Moves.foldl_fst
    | ((with_reducible apply Moves.snd); assumption) | ((with_reducible apply Moves.fst); assumption) | split | dsimp only

theorem State.snsCtrlWrite_moves (s : State) (v : Word) :
    Moves [.regs, .weft, .sense] s (State.snsCtrlWrite s v) := by
  unfold State.snsCtrlWrite
  repeat' first
    | with_reducible apply Moves.refl | ((with_reducible apply Within.of); exact rfl) | intro _
    | with_reducible apply Moves.step (State.setFld_moves ..)
    | with_reducible apply Moves.step (State.adcEnWrite_moves ..)
    | with_reducible apply Moves.step (State.adcClear_moves ..) | with_reducible apply Moves.ite
    | with_reducible apply Moves.foldl | with_reducible apply Moves.foldl_snd | with_reducible apply Moves.foldl_fst
    | ((with_reducible apply Moves.snd); assumption) | ((with_reducible apply Moves.fst); assumption) | split | dsimp only

theorem State.wchkWrite_moves (s : State) (v : Word) :
    Moves [.regs, .weft, .sense] s (State.wchkWrite s v) := by
  unfold State.wchkWrite
  repeat' first
    | with_reducible apply Moves.refl | ((with_reducible apply Within.of); exact rfl) | intro _
    | with_reducible apply Moves.step (State.wrAccess_moves ..)
    | with_reducible apply Moves.step (State.weldStart_moves ..) | with_reducible apply Moves.ite
    | with_reducible apply Moves.foldl | with_reducible apply Moves.foldl_snd | with_reducible apply Moves.foldl_fst
    | ((with_reducible apply Moves.snd); assumption) | ((with_reducible apply Moves.fst); assumption) | split | dsimp only

theorem State.dclWrite_moves (s : State) (v : Word) :
    Moves [.regs, .ladder, .weft] s (State.dclWrite s v) := by
  unfold State.dclWrite
  repeat' first
    | with_reducible apply Moves.refl | ((with_reducible apply Within.of); exact rfl) | intro _
    | with_reducible apply Moves.step (State.wrAccess_moves ..) | with_reducible apply Moves.step (State.preSync_moves ..)
    | with_reducible apply Moves.step (State.noteInvalid_moves ..) | with_reducible apply Moves.ite
    | with_reducible apply Moves.foldl | with_reducible apply Moves.foldl_snd | with_reducible apply Moves.foldl_fst
    | ((with_reducible apply Moves.snd); assumption) | ((with_reducible apply Moves.fst); assumption) | split | dsimp only

theorem State.senseWrite_moves (s : State) (a : Nat) (v : Word) :
    Moves [.regs, .ladder, .weft, .loom, .sense, .hs, .free] s (State.senseWrite s a v) := by
  unfold State.senseWrite
  repeat' first
    | with_reducible apply Moves.refl | ((with_reducible apply Within.of); exact rfl) | intro _
    | with_reducible apply Moves.step (State.snsCtrlWrite_moves ..)
    | with_reducible apply Moves.step (State.wchkWrite_moves ..)
    | with_reducible apply Moves.step (State.dclWrite_moves ..)
    | with_reducible apply Moves.step (State.wrAccess_moves ..)
    | with_reducible apply Moves.step (State.noteInvalid_moves ..)
    | with_reducible apply Moves.step (State.thresholdWrite_moves ..)
    | with_reducible apply Moves.step (State.cmpCfgWrite_moves ..)
    | with_reducible apply Moves.step (State.xpWrite_moves ..) | with_reducible apply Moves.ite
    | with_reducible apply Moves.foldl | with_reducible apply Moves.foldl_snd | with_reducible apply Moves.foldl_fst
    | ((with_reducible apply Moves.snd); assumption) | ((with_reducible apply Moves.fst); assumption) | split | dsimp only

end Sys2Proof.Machine
end

