-- ==== Sys2Proof/Laws/MovesWriteSite.lean ====
section
/-!
SUPPORT. Laws/MovesWriteSite.lean: which parts of the state each operation of Machine/WriteSite.lean moves.
-/
set_option Elab.async false
namespace Sys2Proof.Machine
set_option linter.all false

theorem State.salternWrite_moves (s : State) (a : Nat) (v : Word) :
    Moves [.regs, .weft, .sal] s (State.salternWrite s a v) := by
  unfold State.salternWrite
  repeat' first
    | with_reducible apply Moves.refl | ((with_reducible apply Within.of); exact rfl) | intro _
    | with_reducible apply Moves.step (State.salDemWrite_moves ..)
    | with_reducible apply Moves.step (State.salGo_moves ..) | with_reducible apply Moves.step (State.salRaise_moves ..)
    | with_reducible apply Moves.step (State.salClear_moves ..)
    | with_reducible apply Moves.step (State.salStateWrite_moves ..)
    | with_reducible apply Moves.step (State.salPut_moves ..) | with_reducible apply Moves.step (State.wrAccess_moves ..)
    | with_reducible apply Moves.ite | with_reducible apply Moves.foldl | with_reducible apply Moves.foldl_snd
    | with_reducible apply Moves.foldl_fst | ((with_reducible apply Moves.snd); assumption)
    | ((with_reducible apply Moves.fst); assumption) | split | dsimp only

theorem State.recCtrlWrite_moves (s : State) (v : Word) :
    Moves [.regs, .ladder, .weft, .grid] s (State.recCtrlWrite s v) := by
  unfold State.recCtrlWrite
  repeat' first
    | with_reducible apply Moves.refl | ((with_reducible apply Within.of); exact rfl) | intro _
    | with_reducible apply Moves.step (State.wrAccess_moves ..) | with_reducible apply Moves.step (State.recArm_moves ..)
    | with_reducible apply Moves.step (State.recTrigger_moves ..) | with_reducible apply Moves.ite
    | with_reducible apply Moves.foldl | with_reducible apply Moves.foldl_snd | with_reducible apply Moves.foldl_fst
    | ((with_reducible apply Moves.snd); assumption) | ((with_reducible apply Moves.fst); assumption) | split | dsimp only

theorem State.gridWrite_moves (s : State) (a : Nat) (v : Word) :
    Moves [.regs, .ladder, .weft, .sal, .grid] s (State.gridWrite s a v) := by
  unfold State.gridWrite
  repeat' first
    | with_reducible apply Moves.refl | ((with_reducible apply Within.of); exact rfl) | intro _
    | with_reducible apply Moves.step (State.gridDegraded_moves ..)
    | with_reducible apply Moves.step (State.grdCtrlWrite_moves ..)
    | with_reducible apply Moves.step (State.setFlag_moves ..)
    | with_reducible apply Moves.step (State.recCtrlWrite_moves ..)
    | with_reducible apply Moves.step (State.wrAccess_moves ..)
    | with_reducible apply Moves.step (State.gridLineSync_moves ..) | with_reducible apply Moves.ite
    | with_reducible apply Moves.foldl | with_reducible apply Moves.foldl_snd | with_reducible apply Moves.foldl_fst
    | ((with_reducible apply Moves.snd); assumption) | ((with_reducible apply Moves.fst); assumption) | split | dsimp only

end Sys2Proof.Machine
end

