-- ==== Sys2Proof/Laws/MovesReadOps.lean ====
section
/-!
SUPPORT. Laws/MovesReadOps.lean: which parts of the state each operation of Machine/ReadOps.lean moves.
-/
set_option Elab.async false
namespace Sys2Proof.Machine
set_option linter.all false

theorem State.latchHigh_moves (s : State) (a x : Nat) :
    Moves [.regs] s (State.latchHigh s a x) := by
  unfold State.latchHigh
  repeat' first
    | with_reducible apply Moves.refl | ((with_reducible apply Within.of); exact rfl) | intro _
    | with_reducible apply Moves.step (State.wrNat_moves ..) | with_reducible apply Moves.ite
    | with_reducible apply Moves.foldl | with_reducible apply Moves.foldl_snd | with_reducible apply Moves.foldl_fst
    | ((with_reducible apply Moves.snd); assumption) | ((with_reducible apply Moves.fst); assumption) | split | dsimp only

theorem State.latchLedger_moves (s : State) (a : Nat) :
    Moves [.regs] s (State.latchLedger s a) := by
  unfold State.latchLedger
  repeat' first
    | with_reducible apply Moves.refl | ((with_reducible apply Within.of); exact rfl) | intro _
    | with_reducible apply Moves.step (State.latchHigh_moves ..) | with_reducible apply Moves.ite
    | with_reducible apply Moves.foldl | with_reducible apply Moves.foldl_snd | with_reducible apply Moves.foldl_fst
    | ((with_reducible apply Moves.snd); assumption) | ((with_reducible apply Moves.fst); assumption) | split | dsimp only

theorem State.regRead_moves (s : State) (a : Nat) :
    Moves [.regs, .time, .free] s (State.regRead s a).2 := by
  unfold State.regRead
  repeat' first
    | with_reducible apply Moves.refl | ((with_reducible apply Within.of); exact rfl) | intro _
    | with_reducible apply Moves.step (State.latchLedger_moves ..) | with_reducible apply Moves.step (State.took_moves ..)
    | with_reducible apply Moves.step (State.txtsTake_moves ..) | with_reducible apply Moves.step (State.tbTake_moves ..)
    | with_reducible apply Moves.step (State.tcapTake_moves ..) | with_reducible apply Moves.ite
    | with_reducible apply Moves.foldl | with_reducible apply Moves.foldl_snd | with_reducible apply Moves.foldl_fst
    | ((with_reducible apply Moves.snd); assumption) | ((with_reducible apply Moves.fst); assumption) | split | dsimp only

end Sys2Proof.Machine
end

