-- ==== Sys2Proof/Laws/MovesFabricOps.lean ====
section
/-!
SUPPORT. Laws/MovesFabricOps.lean: which parts of the state each operation of Machine/FabricOps.lean moves.
-/
set_option Elab.async false
namespace Sys2Proof.Machine
set_option linter.all false

theorem State.busError_moves (s : State) (slot a : Nat) (write : Bool) :
    Moves [.regs] s (State.busError s slot a write) := by
  unfold State.busError
  repeat' first
    | with_reducible apply Moves.refl | ((with_reducible apply Within.of); exact rfl) | intro _
    | with_reducible apply Moves.step (State.captureBusError_moves ..) | with_reducible apply Moves.ite
    | with_reducible apply Moves.foldl | with_reducible apply Moves.foldl_snd | with_reducible apply Moves.foldl_fst
    | ((with_reducible apply Moves.snd); assumption) | ((with_reducible apply Moves.fst); assumption) | split | dsimp only

theorem State.ownerWrite_moves (s : State) (slot a : Nat) (v : Word) :
    Moves [.regs, .live, .mem, .ecc, .ladder, .fabric, .weft, .power, .startup, .time, .selv, .loom, .twill, .sense, .hs, .sal, .zw, .grid, .ks, .links, .ses, .thermal, .ledger, .brine, .can, .out, .free] s (State.ownerWrite s slot a v) := by
  unfold State.ownerWrite
  repeat' first
    | with_reducible apply Moves.refl | ((with_reducible apply Within.of); exact rfl) | intro _
    | with_reducible apply Moves.step (State.loomWrite_moves ..)
    | with_reducible apply Moves.step (State.twillWrite_moves ..)
    | with_reducible apply Moves.step (State.senseWrite_moves ..)
    | with_reducible apply Moves.step (State.salternWrite_moves ..)
    | with_reducible apply Moves.step (State.gridWrite_moves ..)
    | with_reducible apply Moves.step (State.linkWrite_moves ..)
    | with_reducible apply Moves.step (State.ledgerWrite_moves ..)
    | with_reducible apply Moves.step (State.guardWrite_moves ..)
    | with_reducible apply Moves.step (State.hubWrite_moves ..) | with_reducible apply Moves.ite
    | with_reducible apply Moves.foldl | with_reducible apply Moves.foldl_snd | with_reducible apply Moves.foldl_fst
    | ((with_reducible apply Moves.snd); assumption) | ((with_reducible apply Moves.fst); assumption) | split | dsimp only

theorem State.regWrite_moves (s : State) (slot a : Nat) (r : RegRow) (v : Word) :
    Moves [.regs, .live, .mem, .ecc, .ladder, .fabric, .weft, .power, .startup, .time, .selv, .loom, .twill, .sense, .hs, .sal, .zw, .grid, .ks, .links, .ses, .thermal, .ledger, .brine, .can, .out, .free] s (State.regWrite s slot a r v).2 := by
  unfold State.regWrite
  repeat' first
    | with_reducible apply Moves.refl | ((with_reducible apply Within.of); exact rfl) | intro _
    | with_reducible apply Moves.step (State.refuseAccess_moves ..)
    | with_reducible apply Moves.step (State.busError_moves ..)
    | with_reducible apply Moves.step (State.ownerWrite_moves ..) | with_reducible apply Moves.ite
    | with_reducible apply Moves.foldl | with_reducible apply Moves.foldl_snd | with_reducible apply Moves.foldl_fst
    | ((with_reducible apply Moves.snd); assumption) | ((with_reducible apply Moves.fst); assumption) | split | dsimp only

theorem State.tcmWrite_moves (s : State) (slot a size : Nat) (v : Nat) :
    Moves [.regs, .mem, .ecc, .ladder, .fabric, .weft, .power, .selv, .sense, .hs, .free] s (State.tcmWrite s slot a size v).2 := by
  unfold State.tcmWrite
  repeat' first
    | with_reducible apply Moves.refl | ((with_reducible apply Within.of); exact rfl) | intro _
    | with_reducible apply Moves.step (State.busError_moves ..)
    | with_reducible apply Moves.step (State.checkWrite_moves ..) | with_reducible apply Moves.ite
    | with_reducible apply Moves.foldl | with_reducible apply Moves.foldl_snd | with_reducible apply Moves.foldl_fst
    | ((with_reducible apply Moves.snd); assumption) | ((with_reducible apply Moves.fst); assumption) | split | dsimp only

theorem State.fabWrite_moves (s : State) (slot a size : Nat) (v : Word) :
    Moves [.regs, .live, .mem, .ecc, .ladder, .fabric, .weft, .power, .startup, .time, .selv, .loom, .twill, .sense, .hs, .sal, .zw, .grid, .ks, .links, .ses, .thermal, .ledger, .brine, .can, .out, .free] s (State.fabWrite s slot a size v).2 := by
  unfold State.fabWrite
  dsimp only
  have hc := State.checkWrite_moves s a size (v.toNat % 2 ^ (8 * size))
  have hr := fun r => State.regWrite_moves s slot a r v
  generalize regRow a = q
  generalize s.checkWrite a size (v.toNat % 2 ^ (8 * size)) = c at *
  split
  · exact (State.refuseAccess_moves ..).mono (.of rfl)
  split
  · split
    · exact hc.mono (.of rfl)
    · exact (hc.mono (.of rfl)).trans ((State.busError_moves ..).mono (.of rfl))
  split
  · exact (State.tcmWrite_moves ..).mono (.of rfl)
  · cases q with
    | some r => exact (hr r).mono (.of rfl)
    | none => exact (State.busError_moves ..).mono (.of rfl)

theorem State.fabRead_moves (s : State) (slot a size : Nat) :
    Moves [.regs, .mem, .ecc, .ladder, .fabric, .weft, .power, .time, .selv, .sense, .hs, .free] s (State.fabRead s slot a size).2 := by
  unfold State.fabRead
  repeat' first
    | with_reducible apply Moves.refl | ((with_reducible apply Within.of); exact rfl) | intro _
    | with_reducible apply Moves.step (State.refuseAccess_moves ..)
    | with_reducible apply Moves.step (State.checkRead_moves ..)
    | with_reducible apply Moves.step (State.busError_moves ..) | with_reducible apply Moves.step (State.regRead_moves ..)
    | with_reducible apply Moves.ite | with_reducible apply Moves.foldl | with_reducible apply Moves.foldl_snd
    | with_reducible apply Moves.foldl_fst | ((with_reducible apply Moves.snd); assumption)
    | ((with_reducible apply Moves.fst); assumption) | split | dsimp only

theorem State.fabAtomic_moves (s : State) (slot a : Nat) (f : Word → Word) :
    Moves [.regs, .live, .mem, .ecc, .ladder, .fabric, .weft, .power, .startup, .time, .selv, .loom, .twill, .sense, .hs, .sal, .zw, .grid, .ks, .links, .ses, .thermal, .ledger, .brine, .can, .out, .free] s (State.fabAtomic s slot a f).2 := by
  unfold State.fabAtomic
  repeat' first
    | with_reducible apply Moves.refl | ((with_reducible apply Within.of); exact rfl) | intro _
    | with_reducible apply Moves.step (State.fabRead_moves ..) | with_reducible apply Moves.step (State.fabWrite_moves ..)
    | with_reducible apply Moves.ite | with_reducible apply Moves.foldl | with_reducible apply Moves.foldl_snd
    | with_reducible apply Moves.foldl_fst | ((with_reducible apply Moves.snd); assumption)
    | ((with_reducible apply Moves.fst); assumption) | split | dsimp only

theorem State.barDone_moves (s : State) (k : Nat) :
    Moves [.regs, .ladder, .fabric, .weft, .power, .selv, .sense, .hs] s (State.barDone s k) := by
  unfold State.barDone
  repeat' first
    | with_reducible apply Moves.refl | ((with_reducible apply Within.of); exact rfl) | intro _
    | with_reducible apply Moves.step (State.boundary_moves ..) | with_reducible apply Moves.step (State.goOn_moves ..)
    | with_reducible apply Moves.ite | with_reducible apply Moves.foldl | with_reducible apply Moves.foldl_snd
    | with_reducible apply Moves.foldl_fst | ((with_reducible apply Moves.snd); assumption)
    | ((with_reducible apply Moves.fst); assumption) | split | dsimp only

theorem State.settle_moves (s : State) (k : Nat) :
    Moves [.regs, .ladder, .fabric, .weft, .power, .selv, .sense, .hs] s (State.settle s k) := by
  unfold State.settle
  repeat' first
    | with_reducible apply Moves.refl | ((with_reducible apply Within.of); exact rfl) | intro _
    | with_reducible apply Moves.step (State.grants_moves ..)
    | with_reducible apply Moves.step (State.haltIfDone_moves ..)
    | with_reducible apply Moves.step (State.barDone_moves ..) | with_reducible apply Moves.ite
    | with_reducible apply Moves.foldl | with_reducible apply Moves.foldl_snd | with_reducible apply Moves.foldl_fst
    | ((with_reducible apply Moves.snd); assumption) | ((with_reducible apply Moves.fst); assumption) | split | dsimp only

theorem State.loaded_moves (s : State) (k d : Nat) (v : Word) :
    Moves [.regs, .ladder, .fabric, .weft, .power, .selv, .sense, .hs] s (State.loaded s k d v) := by
  unfold State.loaded
  repeat' first
    | with_reducible apply Moves.refl | ((with_reducible apply Within.of); exact rfl) | intro _
    | with_reducible apply Moves.step (State.accessDone_moves ..) | with_reducible apply Moves.ite
    | with_reducible apply Moves.foldl | with_reducible apply Moves.foldl_snd | with_reducible apply Moves.foldl_fst
    | ((with_reducible apply Moves.snd); assumption) | ((with_reducible apply Moves.fst); assumption) | split | dsimp only

theorem State.loadFailed_moves (s : State) (k : Nat) (addr : Word) :
    Moves [.regs, .ladder, .fabric, .weft, .power, .selv, .sense, .hs] s (State.loadFailed s k addr) := by
  unfold State.loadFailed
  repeat' first
    | with_reducible apply Moves.refl | ((with_reducible apply Within.of); exact rfl) | intro _
    | with_reducible apply Moves.step (State.accessDone_moves ..)
    | with_reducible apply Moves.step (State.haltIfDone_moves ..)
    | with_reducible apply Moves.step (State.trapHere_moves ..) | with_reducible apply Moves.step (State.setCtx_moves ..)
    | with_reducible apply Moves.ite | with_reducible apply Moves.foldl | with_reducible apply Moves.foldl_snd
    | with_reducible apply Moves.foldl_fst | ((with_reducible apply Moves.snd); assumption)
    | ((with_reducible apply Moves.fst); assumption) | split | dsimp only

theorem State.storeFailed_moves (s : State) (k : Nat) (addr : Word) :
    Moves [.regs, .ladder, .fabric, .weft, .power, .selv, .sense, .hs] s (State.storeFailed s k addr) := by
  unfold State.storeFailed
  repeat' first
    | with_reducible apply Moves.refl | ((with_reducible apply Within.of); exact rfl) | intro _
    | with_reducible apply Moves.step (State.setCtx_moves ..) | with_reducible apply Moves.step (State.boundary_moves ..)
    | with_reducible apply Moves.ite | with_reducible apply Moves.foldl | with_reducible apply Moves.foldl_snd
    | with_reducible apply Moves.foldl_fst | ((with_reducible apply Moves.snd); assumption)
    | ((with_reducible apply Moves.fst); assumption) | split | dsimp only

theorem State.failed_moves (s : State) (x : Xact) :
    Moves [.regs, .ladder, .fabric, .weft, .power, .selv, .sense, .hs] s (State.failed s x) := by
  unfold State.failed
  repeat' first
    | with_reducible apply Moves.refl | ((with_reducible apply Within.of); exact rfl) | intro _
    | with_reducible apply Moves.step (State.storeFailed_moves ..)
    | with_reducible apply Moves.step (State.loadFailed_moves ..) | with_reducible apply Moves.ite
    | with_reducible apply Moves.foldl | with_reducible apply Moves.foldl_snd | with_reducible apply Moves.foldl_fst
    | ((with_reducible apply Moves.snd); assumption) | ((with_reducible apply Moves.fst); assumption) | split | dsimp only

theorem State.dropOut_moves (s : State) (k : Nat) :
    Moves [.fabric] s (State.dropOut s k) := by
  unfold State.dropOut
  repeat' first
    | with_reducible apply Moves.refl | ((with_reducible apply Within.of); exact rfl) | intro _
    | with_reducible apply Moves.step (State.setFabric_moves ..) | with_reducible apply Moves.ite
    | with_reducible apply Moves.foldl | with_reducible apply Moves.foldl_snd | with_reducible apply Moves.foldl_fst
    | ((with_reducible apply Moves.snd); assumption) | ((with_reducible apply Moves.fst); assumption) | split | dsimp only

theorem State.served_moves (s : State) (x : Xact) :
    Moves [.fabric] s (State.served s x) := by
  unfold State.served
  repeat' first
    | with_reducible apply Moves.refl | ((with_reducible apply Within.of); exact rfl) | intro _
    | with_reducible apply Moves.step (State.setFabric_moves ..) | with_reducible apply Moves.ite
    | with_reducible apply Moves.foldl | with_reducible apply Moves.foldl_snd | with_reducible apply Moves.foldl_fst
    | ((with_reducible apply Moves.snd); assumption) | ((with_reducible apply Moves.fst); assumption) | split | dsimp only

theorem State.readBack_moves (x : Xact) (d : Nat) (f : Nat → Word) (r : Option Nat × State) :
    Moves [.regs, .ladder, .fabric, .weft, .power, .selv, .sense, .hs] r.2 (State.readBack x d f r) := by
  unfold State.readBack
  repeat' first
    | with_reducible apply Moves.refl | ((with_reducible apply Within.of); exact rfl) | intro _
    | with_reducible apply Moves.step (State.loaded_moves ..)
    | with_reducible apply Moves.step (State.loadFailed_moves ..) | with_reducible apply Moves.ite
    | with_reducible apply Moves.foldl | with_reducible apply Moves.foldl_snd | with_reducible apply Moves.foldl_fst
    | ((with_reducible apply Moves.snd); assumption) | ((with_reducible apply Moves.fst); assumption) | split | dsimp only

theorem State.complete_moves (s : State) (k : Nat) (x : Xact) :
    Moves [.regs, .live, .mem, .ecc, .ladder, .fabric, .weft, .power, .startup, .time, .selv, .loom, .twill, .sense, .hs, .sal, .zw, .grid, .ks, .links, .ses, .thermal, .ledger, .brine, .can, .out, .free] s (State.complete s k x) := by
  unfold State.complete
  repeat' first
    | with_reducible apply Moves.refl | ((with_reducible apply Within.of); exact rfl) | intro _
    | with_reducible apply Moves.step (State.fabWrite_moves ..) | with_reducible apply Moves.step (State.settle_moves ..)
    | with_reducible apply Moves.step (State.served_moves ..) | with_reducible apply Moves.step (State.dropOut_moves ..)
    | with_reducible apply Moves.step (State.setFabric_moves ..)
    | with_reducible apply Moves.step (State.readBack_moves ..) | with_reducible apply Moves.step (State.fabRead_moves ..)
    | with_reducible apply Moves.step (State.fabAtomic_moves ..) | with_reducible apply Moves.ite
    | with_reducible apply Moves.foldl | with_reducible apply Moves.foldl_snd | with_reducible apply Moves.foldl_fst
    | ((with_reducible apply Moves.snd); assumption) | ((with_reducible apply Moves.fst); assumption) | split | dsimp only

theorem State.discard_moves (s : State) (k : Nat) (x : Xact) :
    Moves [.regs, .ladder, .fabric] s (State.discard s k x) := by
  unfold State.discard
  repeat' first
    | with_reducible apply Moves.refl | ((with_reducible apply Within.of); exact rfl) | intro _
    | with_reducible apply Moves.step (State.setFabric_moves ..)
    | with_reducible apply Moves.step (State.recoversCell_moves ..) | with_reducible apply Moves.ite
    | with_reducible apply Moves.foldl | with_reducible apply Moves.foldl_snd | with_reducible apply Moves.foldl_fst
    | ((with_reducible apply Moves.snd); assumption) | ((with_reducible apply Moves.fst); assumption) | split | dsimp only

theorem State.hang_moves (s : State) (slot : Nat) (addr data : Word) (size : Nat) :
    Moves [.fabric] s (State.hang s slot addr data size) := by
  unfold State.hang
  repeat' first
    | with_reducible apply Moves.refl | ((with_reducible apply Within.of); exact rfl) | intro _
    | with_reducible apply Moves.step (State.setFabric_moves ..) | with_reducible apply Moves.ite
    | with_reducible apply Moves.foldl | with_reducible apply Moves.foldl_snd | with_reducible apply Moves.foldl_fst
    | ((with_reducible apply Moves.snd); assumption) | ((with_reducible apply Moves.fst); assumption) | split | dsimp only

end Sys2Proof.Machine
end

