-- ==== Sys2Proof/Laws/MovesFabricCommands.lean ====
section
/-!
SUPPORT. Laws/MovesFabricCommands.lean: which parts of the state each operation of Machine/FabricCommands.lean moves.
-/
set_option Elab.async false
namespace Sys2Proof.Machine
set_option linter.all false

theorem State.onFabric_moves (s : State) (f : State → State) {fs : List Part} (hf : ∀ (t : State), Moves fs t (f t)) :
    Moves ([] ++ fs) s (State.onFabric s f) := by
  unfold State.onFabric
  repeat' first
    | with_reducible apply Moves.refl | ((with_reducible apply Within.of); exact rfl) | intro _
    | with_reducible apply Within.right | with_reducible apply Within.append
    | with_reducible apply Moves.step (hf ..) (Within.right _ _)
    | with_reducible apply Moves.step (State.onBlk_moves (fs := ([] ++ fs)) (hf := ?_) ..)
    | with_reducible apply Moves.ite | with_reducible apply Moves.foldl | with_reducible apply Moves.foldl_snd
    | with_reducible apply Moves.foldl_fst | ((with_reducible apply Moves.snd); assumption)
    | ((with_reducible apply Moves.fst); assumption) | split | dsimp only

theorem State.outsideWrite_moves (s : State) (slot : Nat) (addr data : Word) (size : Nat) :
    Moves [.regs, .live, .mem, .ecc, .ladder, .fabric, .weft, .power, .startup, .time, .selv, .loom, .twill, .sense, .hs, .sal, .zw, .grid, .ks, .links, .ses, .thermal, .ledger, .brine, .can, .out, .free] s (State.outsideWrite s slot addr data size) := by
  unfold State.outsideWrite
  repeat' first
    | with_reducible apply Moves.refl | ((with_reducible apply Within.of); exact rfl) | intro _
    | with_reducible apply Moves.step (State.fabWrite_moves ..) | with_reducible apply Moves.step (State.hang_moves ..)
    | with_reducible apply Moves.ite | with_reducible apply Moves.foldl | with_reducible apply Moves.foldl_snd
    | with_reducible apply Moves.foldl_fst | ((with_reducible apply Moves.snd); assumption)
    | ((with_reducible apply Moves.fst); assumption) | split | dsimp only

theorem execRegisterWrite_moves (slot : Fin 19) (addr data : Word) (size : Fin 3) (s : State) :
    Goes [.regs, .live, .mem, .ecc, .ladder, .fabric, .weft, .power, .startup, .time, .selv, .loom, .twill, .sense, .hs, .sal, .zw, .grid, .ks, .links, .ses, .thermal, .ledger, .brine, .can, .out, .free] s (execRegisterWrite slot addr data size s) := by
  unfold execRegisterWrite
  repeat' first
    | with_reducible apply Moves.refl | ((with_reducible apply Within.of); exact rfl) | intro _
    | with_reducible apply Goes.next | with_reducible apply Goes.fault | with_reducible apply Goes.ite
    | with_reducible apply Moves.step (State.onFabric_moves (fs := [.regs, .live, .mem, .ecc, .ladder, .fabric, .weft, .power, .startup, .time, .selv, .loom, .twill, .sense, .hs, .sal, .zw, .grid, .ks, .links, .ses, .thermal, .ledger, .brine, .can, .out, .free]) (hf := ?_) ..)
    | with_reducible apply Moves.step (State.outsideWrite_moves ..) | with_reducible apply Moves.ite
    | with_reducible apply Moves.foldl | with_reducible apply Moves.foldl_snd | with_reducible apply Moves.foldl_fst
    | ((with_reducible apply Moves.snd); assumption) | ((with_reducible apply Moves.fst); assumption) | split | dsimp only

theorem execTcmWindowAccess_moves (slot : Fin 19) (addr data : Word) (write : Bool) (size : Fin 3) (s : State) :
    Goes [.regs, .live, .mem, .ecc, .ladder, .fabric, .weft, .power, .startup, .time, .selv, .loom, .twill, .sense, .hs, .sal, .zw, .grid, .ks, .links, .ses, .thermal, .ledger, .brine, .can, .out, .free] s (execTcmWindowAccess slot addr data write size s) := by
  unfold execTcmWindowAccess
  repeat' first
    | with_reducible apply Moves.refl | ((with_reducible apply Within.of); exact rfl) | intro _
    | with_reducible apply Goes.next | with_reducible apply Goes.fault | with_reducible apply Goes.ite
    | with_reducible apply Moves.step (State.onFabric_moves (fs := [.regs, .live, .mem, .ecc, .ladder, .fabric, .weft, .power, .startup, .time, .selv, .loom, .twill, .sense, .hs, .sal, .zw, .grid, .ks, .links, .ses, .thermal, .ledger, .brine, .can, .out, .free]) (hf := ?_) ..)
    | with_reducible apply Moves.step (State.outsideWrite_moves ..)
    | with_reducible apply Moves.step (State.fabRead_moves ..) | with_reducible apply Moves.ite
    | with_reducible apply Moves.foldl | with_reducible apply Moves.foldl_snd | with_reducible apply Moves.foldl_fst
    | ((with_reducible apply Moves.snd); assumption) | ((with_reducible apply Moves.fst); assumption) | split | dsimp only

theorem execFabricResponse_moves (k : Fin 128) (s : State) :
    Goes [.regs, .live, .mem, .ecc, .ladder, .fabric, .weft, .power, .startup, .time, .selv, .loom, .twill, .sense, .hs, .sal, .zw, .grid, .ks, .links, .ses, .thermal, .ledger, .brine, .can, .out, .free] s (execFabricResponse k s) := by
  unfold execFabricResponse
  repeat' first
    | with_reducible apply Moves.refl | ((with_reducible apply Within.of); exact rfl) | intro _
    | with_reducible apply Goes.next | with_reducible apply Goes.fault | with_reducible apply Goes.ite
    | with_reducible apply Moves.step (State.onFabric_moves (fs := [.regs, .live, .mem, .ecc, .ladder, .fabric, .weft, .power, .startup, .time, .selv, .loom, .twill, .sense, .hs, .sal, .zw, .grid, .ks, .links, .ses, .thermal, .ledger, .brine, .can, .out, .free]) (hf := ?_) ..)
    | with_reducible apply Moves.step (State.complete_moves ..) | with_reducible apply Moves.step (State.discard_moves ..)
    | with_reducible apply Moves.ite | with_reducible apply Moves.foldl | with_reducible apply Moves.foldl_snd
    | with_reducible apply Moves.foldl_fst | ((with_reducible apply Moves.snd); assumption)
    | ((with_reducible apply Moves.fst); assumption) | split | dsimp only

theorem execBusStoreError_moves (k : Fin 128) (s : State) :
    Goes [.regs, .ladder, .fabric, .weft, .power, .selv, .sense, .hs] s (execBusStoreError k s) := by
  unfold execBusStoreError
  repeat' first
    | with_reducible apply Moves.refl | ((with_reducible apply Within.of); exact rfl) | intro _
    | with_reducible apply Goes.next | with_reducible apply Goes.fault | with_reducible apply Goes.ite
    | with_reducible apply Moves.step (State.onFabric_moves (fs := [.regs, .ladder, .fabric, .weft, .power, .selv, .sense, .hs]) (hf := ?_) ..)
    | with_reducible apply Moves.step (State.settle_moves ..) | with_reducible apply Moves.step (State.failed_moves ..)
    | with_reducible apply Moves.step (State.dropOut_moves ..) | with_reducible apply Moves.ite
    | with_reducible apply Moves.foldl | with_reducible apply Moves.foldl_snd | with_reducible apply Moves.foldl_fst
    | ((with_reducible apply Moves.snd); assumption) | ((with_reducible apply Moves.fst); assumption) | split | dsimp only

theorem execTransactionTimeout_moves (k : Fin 128) (s : State) :
    Goes [.regs, .ladder, .fabric, .weft, .power, .selv, .sense, .hs] s (execTransactionTimeout k s) := by
  unfold execTransactionTimeout
  repeat' first
    | with_reducible apply Moves.refl | ((with_reducible apply Within.of); exact rfl) | intro _
    | with_reducible apply Goes.next | with_reducible apply Goes.fault | with_reducible apply Goes.ite
    | with_reducible apply Moves.step (State.onFabric_moves (fs := [.regs, .ladder, .fabric, .weft, .power, .selv, .sense, .hs]) (hf := ?_) ..)
    | with_reducible apply Moves.step (State.captureBusError_moves ..)
    | with_reducible apply Moves.step (State.served_moves ..) | with_reducible apply Moves.step (State.dropOut_moves ..)
    | with_reducible apply Moves.step (State.setFabric_moves ..) | with_reducible apply Moves.step (State.settle_moves ..)
    | with_reducible apply Moves.step (State.failed_moves ..) | with_reducible apply Moves.step (State.contain_moves ..)
    | with_reducible apply Moves.ite | with_reducible apply Moves.foldl | with_reducible apply Moves.foldl_snd
    | with_reducible apply Moves.foldl_fst | ((with_reducible apply Moves.snd); assumption)
    | ((with_reducible apply Moves.fst); assumption) | split | dsimp only

theorem execArbitrationPromotion_moves (k : Nat) (s : State) :
    Goes [.fabric] s (execArbitrationPromotion k s) := by
  unfold execArbitrationPromotion
  repeat' first
    | with_reducible apply Moves.refl | ((with_reducible apply Within.of); exact rfl) | intro _
    | with_reducible apply Goes.next | with_reducible apply Goes.fault | with_reducible apply Goes.ite
    | with_reducible apply Moves.step (State.onFabric_moves (fs := [.fabric]) (hf := ?_) ..)
    | with_reducible apply Moves.step (State.setFabric_moves ..) | with_reducible apply Moves.ite
    | with_reducible apply Moves.foldl | with_reducible apply Moves.foldl_snd | with_reducible apply Moves.foldl_fst
    | ((with_reducible apply Moves.snd); assumption) | ((with_reducible apply Moves.fst); assumption) | split | dsimp only

end Sys2Proof.Machine
end

