-- ==== Sys2Proof/Laws/MovesSelvedge.lean ====
section
/-!
SUPPORT. Laws/MovesSelvedge.lean: which parts of the state each operation of Machine/Selvedge.lean moves.
-/
set_option Elab.async false
namespace Sys2Proof.Machine
set_option linter.all false

theorem execSafetyCycleStart_moves (s : State) :
    Goes [.regs, .ladder, .fabric, .weft, .power, .selv, .sense, .hs] s (execSafetyCycleStart s) := by
  unfold execSafetyCycleStart
  repeat' first
    | with_reducible apply Moves.refl | ((with_reducible apply Within.of); exact rfl) | intro _
    | with_reducible apply Goes.next | with_reducible apply Goes.fault | with_reducible apply Goes.ite
    | with_reducible apply Moves.step (State.onBlk_moves (fs := [.regs, .ladder, .fabric, .weft, .power, .selv, .sense, .hs]) (hf := ?_) ..)
    | with_reducible apply Moves.step (State.pairFault_moves ..) | with_reducible apply Moves.step (State.setFld_moves ..)
    | with_reducible apply Moves.step (State.wr_moves ..) | with_reducible apply Moves.step (State.setSelv_moves ..)
    | with_reducible apply Moves.step (State.refreshOuts_moves ..) | with_reducible apply Moves.step (State.line_moves ..)
    | with_reducible apply Moves.ite | with_reducible apply Moves.foldl | with_reducible apply Moves.foldl_snd
    | with_reducible apply Moves.foldl_fst | ((with_reducible apply Moves.snd); assumption)
    | ((with_reducible apply Moves.fst); assumption) | split | dsimp only

theorem execSafetyCommit_moves (s : State) :
    Goes [.regs, .live, .weft, .selv, .sense] s (execSafetyCommit s) := by
  unfold execSafetyCommit
  repeat' first
    | with_reducible apply Moves.refl | ((with_reducible apply Within.of); exact rfl) | intro _
    | with_reducible apply Goes.next | with_reducible apply Goes.fault | with_reducible apply Goes.ite
    | with_reducible apply Moves.step (State.onBlk_moves (fs := [.regs, .live, .weft, .selv, .sense]) (hf := ?_) ..)
    | with_reducible apply Moves.step (State.safetyCommit_moves ..) | with_reducible apply Moves.ite
    | with_reducible apply Moves.foldl | with_reducible apply Moves.foldl_snd | with_reducible apply Moves.foldl_fst
    | ((with_reducible apply Moves.snd); assumption) | ((with_reducible apply Moves.fst); assumption) | split | dsimp only

theorem execLockstepMismatch_moves (s : State) :
    Goes [.regs, .ladder, .fabric, .weft, .power, .selv, .sense, .hs] s (execLockstepMismatch s) := by
  unfold execLockstepMismatch
  repeat' first
    | with_reducible apply Moves.refl | ((with_reducible apply Within.of); exact rfl) | intro _
    | with_reducible apply Goes.next | with_reducible apply Goes.fault | with_reducible apply Goes.ite
    | with_reducible apply Moves.step (State.onBlk_moves (fs := [.regs, .ladder, .fabric, .weft, .power, .selv, .sense, .hs]) (hf := ?_) ..)
    | with_reducible apply Moves.step (State.pairFault_moves ..) | with_reducible apply Moves.ite
    | with_reducible apply Moves.foldl | with_reducible apply Moves.foldl_snd | with_reducible apply Moves.foldl_fst
    | ((with_reducible apply Moves.snd); assumption) | ((with_reducible apply Moves.fst); assumption) | split | dsimp only

theorem execSafeClockCheck_moves (count gap supply : Nat) (s : State) :
    Goes [.regs, .ladder, .fabric, .weft, .power, .selv, .sense, .hs] s (execSafeClockCheck count gap supply s) := by
  unfold execSafeClockCheck
  repeat' first
    | with_reducible apply Moves.refl | ((with_reducible apply Within.of); exact rfl) | intro _
    | with_reducible apply Goes.next | with_reducible apply Goes.fault | with_reducible apply Goes.ite
    | with_reducible apply Moves.step (State.onBlk_moves (fs := [.regs, .ladder, .fabric, .weft, .power, .selv, .sense, .hs]) (hf := ?_) ..)
    | with_reducible apply Moves.step (State.pairFault_moves ..)
    | with_reducible apply Moves.step (State.setSelv_moves ..) | with_reducible apply Moves.ite
    | with_reducible apply Moves.foldl | with_reducible apply Moves.foldl_snd | with_reducible apply Moves.foldl_fst
    | ((with_reducible apply Moves.snd); assumption) | ((with_reducible apply Moves.fst); assumption) | split | dsimp only

theorem execSafetyConfigRecheck_moves (s : State) :
    Goes [.regs, .ladder, .fabric, .weft, .power, .selv, .sense, .hs] s (execSafetyConfigRecheck s) := by
  unfold execSafetyConfigRecheck
  repeat' first
    | with_reducible apply Moves.refl | ((with_reducible apply Within.of); exact rfl) | intro _
    | with_reducible apply Goes.next | with_reducible apply Goes.fault | with_reducible apply Goes.ite
    | with_reducible apply Moves.step (State.onBlk_moves (fs := [.regs, .ladder, .fabric, .weft, .power, .selv, .sense, .hs]) (hf := ?_) ..)
    | with_reducible apply Moves.step (State.pairFault_moves ..)
    | with_reducible apply Moves.step (State.setSelv_moves ..) | with_reducible apply Moves.ite
    | with_reducible apply Moves.foldl | with_reducible apply Moves.foldl_snd | with_reducible apply Moves.foldl_fst
    | ((with_reducible apply Moves.snd); assumption) | ((with_reducible apply Moves.fst); assumption) | split | dsimp only

theorem execSafeInputAccept_moves (n : Fin 16) (chB level : Bool) (us : Nat) (off : BitVec 10) (s : State) :
    Goes [.regs, .ladder, .weft, .selv, .sense] s (execSafeInputAccept n chB level us off s) := by
  unfold execSafeInputAccept
  repeat' first
    | with_reducible apply Moves.refl | ((with_reducible apply Within.of); exact rfl) | intro _
    | with_reducible apply Goes.next | with_reducible apply Goes.fault | with_reducible apply Goes.ite
    | with_reducible apply Moves.step (State.onBlk_moves (fs := [.regs, .ladder, .weft, .selv, .sense]) (hf := ?_) ..)
    | with_reducible apply Moves.step (State.resetButton_moves ..)
    | with_reducible apply Moves.step (State.pairStep_moves (fs := [.regs, .ladder, .weft, .selv, .sense]) (hf := ?_) ..)
    | with_reducible apply Moves.step (State.setBit_moves ..)
    | with_reducible apply Moves.step (State.setSafePair_moves ..) | with_reducible apply Moves.ite
    | with_reducible apply Moves.foldl | with_reducible apply Moves.foldl_snd | with_reducible apply Moves.foldl_fst
    | ((with_reducible apply Moves.snd); assumption) | ((with_reducible apply Moves.fst); assumption) | split | dsimp only

theorem execSafeInputDiscrepancy_moves (n : Fin 16) (s : State) :
    Goes [.regs, .ladder, .weft, .selv] s (execSafeInputDiscrepancy n s) := by
  unfold execSafeInputDiscrepancy
  repeat' first
    | with_reducible apply Moves.refl | ((with_reducible apply Within.of); exact rfl) | intro _
    | with_reducible apply Goes.next | with_reducible apply Goes.fault | with_reducible apply Goes.ite
    | with_reducible apply Moves.step (State.onBlk_moves (fs := [.regs, .ladder, .weft, .selv]) (hf := ?_) ..)
    | with_reducible apply Moves.step (State.line_moves ..) | with_reducible apply Moves.step (State.note_moves ..)
    | with_reducible apply Moves.step (State.pairStep_moves (fs := [.regs, .ladder, .weft, .selv]) (hf := ?_) ..)
    | with_reducible apply Moves.step (State.setSafePair_moves ..) | with_reducible apply Moves.ite
    | with_reducible apply Moves.foldl | with_reducible apply Moves.foldl_snd | with_reducible apply Moves.foldl_fst
    | ((with_reducible apply Moves.snd); assumption) | ((with_reducible apply Moves.fst); assumption) | split | dsimp only

theorem execSafeInputStuck_moves (n : Fin 16) (changes : Nat) (off : BitVec 10) (s : State) :
    Goes [.regs, .ladder, .weft, .selv, .sense] s (execSafeInputStuck n changes off s) := by
  unfold execSafeInputStuck
  repeat' first
    | with_reducible apply Moves.refl | ((with_reducible apply Within.of); exact rfl) | intro _
    | with_reducible apply Goes.next | with_reducible apply Goes.fault | with_reducible apply Goes.ite
    | with_reducible apply Moves.step (State.onBlk_moves (fs := [.regs, .ladder, .weft, .selv, .sense]) (hf := ?_) ..)
    | with_reducible apply Moves.step (State.resetButton_moves ..) | with_reducible apply Moves.step (State.line_moves ..)
    | with_reducible apply Moves.step (State.note_moves ..)
    | with_reducible apply Moves.step (State.pairStep_moves (fs := [.regs, .ladder, .weft, .selv, .sense]) (hf := ?_) ..)
    | with_reducible apply Moves.step (State.setSafePair_moves ..) | with_reducible apply Moves.ite
    | with_reducible apply Moves.foldl | with_reducible apply Moves.foldl_snd | with_reducible apply Moves.foldl_fst
    | ((with_reducible apply Moves.snd); assumption) | ((with_reducible apply Moves.fst); assumption) | split | dsimp only

theorem execPermit_moves (s : State) :
    Goes [.regs, .ladder, .weft, .selv, .sense] s (execPermit s) := by
  unfold execPermit
  repeat' first
    | with_reducible apply Moves.refl | ((with_reducible apply Within.of); exact rfl) | intro _
    | with_reducible apply Goes.next | with_reducible apply Goes.fault | with_reducible apply Goes.ite
    | with_reducible apply Moves.step (State.onBlk_moves (fs := [.regs, .ladder, .weft, .selv, .sense]) (hf := ?_) ..)
    | with_reducible apply Moves.step (State.handleWord_moves (fs := [.regs, .ladder, .weft, .selv, .sense]) (hf := ?_) ..)
    | with_reducible apply Moves.step (State.setFld_moves ..)
    | with_reducible apply Moves.step (State.refreshOuts_moves ..)
    | with_reducible apply Moves.step (State.setSelv_moves ..) | with_reducible apply Moves.step (State.note_moves ..)
    | with_reducible apply Moves.step (State.bump_moves ..) | with_reducible apply Moves.ite
    | with_reducible apply Moves.foldl | with_reducible apply Moves.foldl_snd | with_reducible apply Moves.foldl_fst
    | ((with_reducible apply Moves.snd); assumption) | ((with_reducible apply Moves.fst); assumption) | split | dsimp only

theorem execPermitLapse_moves (s : State) :
    Goes [.regs, .weft, .selv, .sense] s (execPermitLapse s) := by
  unfold execPermitLapse
  repeat' first
    | with_reducible apply Moves.refl | ((with_reducible apply Within.of); exact rfl) | intro _
    | with_reducible apply Goes.next | with_reducible apply Goes.fault | with_reducible apply Goes.ite
    | with_reducible apply Moves.step (State.onBlk_moves (fs := [.regs, .weft, .selv, .sense]) (hf := ?_) ..)
    | with_reducible apply Moves.step (State.setSelv_moves ..) | with_reducible apply Moves.step (State.setFld_moves ..)
    | with_reducible apply Moves.step (State.refreshOuts_moves ..) | with_reducible apply Moves.step (State.line_moves ..)
    | with_reducible apply Moves.step (State.bump_moves ..) | with_reducible apply Moves.ite
    | with_reducible apply Moves.foldl | with_reducible apply Moves.foldl_snd | with_reducible apply Moves.foldl_fst
    | ((with_reducible apply Moves.snd); assumption) | ((with_reducible apply Moves.fst); assumption) | split | dsimp only

theorem execAck_moves (off : BitVec 10) (s : State) :
    Goes [.regs, .ladder, .weft, .selv, .sense] s (execAck off s) := by
  unfold execAck
  repeat' first
    | with_reducible apply Moves.refl | ((with_reducible apply Within.of); exact rfl) | intro _
    | with_reducible apply Goes.next | with_reducible apply Goes.fault | with_reducible apply Goes.ite
    | with_reducible apply Moves.step (State.onBlk_moves (fs := [.regs, .ladder, .weft, .selv, .sense]) (hf := ?_) ..)
    | with_reducible apply Moves.step (State.handleWord_moves (fs := [.regs, .ladder, .weft, .selv, .sense]) (hf := ?_) ..)
    | with_reducible apply Moves.step (State.acknowledge_moves ..) | with_reducible apply Moves.ite
    | with_reducible apply Moves.foldl | with_reducible apply Moves.foldl_snd | with_reducible apply Moves.foldl_fst
    | ((with_reducible apply Moves.snd); assumption) | ((with_reducible apply Moves.fst); assumption) | split | dsimp only

theorem execBrakeTest_moves (s : State) :
    Goes [.regs, .ladder, .selv] s (execBrakeTest s) := by
  unfold execBrakeTest
  repeat' first
    | with_reducible apply Moves.refl | ((with_reducible apply Within.of); exact rfl) | intro _
    | with_reducible apply Goes.next | with_reducible apply Goes.fault | with_reducible apply Goes.ite
    | with_reducible apply Moves.step (State.onBlk_moves (fs := [.regs, .ladder, .selv]) (hf := ?_) ..)
    | with_reducible apply Moves.step (State.handleWord_moves (fs := [.regs, .ladder, .selv]) (hf := ?_) ..)
    | with_reducible apply Moves.step (State.refuseWord_moves ..)
    | with_reducible apply Moves.step (State.setSelv_moves ..) | with_reducible apply Moves.step (State.setFlag_moves ..)
    | with_reducible apply Moves.step (State.note_moves ..) | with_reducible apply Moves.ite
    | with_reducible apply Moves.foldl | with_reducible apply Moves.foldl_snd | with_reducible apply Moves.foldl_fst
    | ((with_reducible apply Moves.snd); assumption) | ((with_reducible apply Moves.fst); assumption) | split | dsimp only

theorem execBrakeTestEnd_moves (s : State) :
    Goes [.regs, .weft, .selv, .sense] s (execBrakeTestEnd s) := by
  unfold execBrakeTestEnd
  repeat' first
    | with_reducible apply Moves.refl | ((with_reducible apply Within.of); exact rfl) | intro _
    | with_reducible apply Goes.next | with_reducible apply Goes.fault | with_reducible apply Goes.ite
    | with_reducible apply Moves.step (State.onBlk_moves (fs := [.regs, .weft, .selv, .sense]) (hf := ?_) ..)
    | with_reducible apply Moves.step (State.setSelv_moves ..) | with_reducible apply Moves.step (State.setFlag_moves ..)
    | with_reducible apply Moves.step (State.refreshOuts_moves ..) | with_reducible apply Moves.step (State.line_moves ..)
    | with_reducible apply Moves.ite | with_reducible apply Moves.foldl | with_reducible apply Moves.foldl_snd
    | with_reducible apply Moves.foldl_fst | ((with_reducible apply Moves.snd); assumption)
    | ((with_reducible apply Moves.fst); assumption) | split | dsimp only

theorem execBrakeTestDue_moves (s : State) :
    Goes [.regs] s (execBrakeTestDue s) := by
  unfold execBrakeTestDue
  repeat' first
    | with_reducible apply Moves.refl | ((with_reducible apply Within.of); exact rfl) | intro _
    | with_reducible apply Goes.next | with_reducible apply Goes.fault | with_reducible apply Goes.ite
    | with_reducible apply Moves.step (State.onBlk_moves (fs := [.regs]) (hf := ?_) ..)
    | with_reducible apply Moves.step (State.setFlag_moves ..) | with_reducible apply Moves.ite
    | with_reducible apply Moves.foldl | with_reducible apply Moves.foldl_snd | with_reducible apply Moves.foldl_fst
    | ((with_reducible apply Moves.snd); assumption) | ((with_reducible apply Moves.fst); assumption) | split | dsimp only

theorem execConfirm_moves (s : State) :
    Goes [.regs, .ladder, .weft, .selv] s (execConfirm s) := by
  unfold execConfirm
  repeat' first
    | with_reducible apply Moves.refl | ((with_reducible apply Within.of); exact rfl) | intro _
    | with_reducible apply Goes.next | with_reducible apply Goes.fault | with_reducible apply Goes.ite
    | with_reducible apply Moves.step (State.onBlk_moves (fs := [.regs, .ladder, .weft, .selv]) (hf := ?_) ..)
    | with_reducible apply Moves.step (State.confTimeout_moves ..)
    | with_reducible apply Moves.step (State.handleWord_moves (fs := [.regs, .ladder, .weft, .selv]) (hf := ?_) ..)
    | with_reducible apply Moves.step (State.setSelv_moves ..) | with_reducible apply Moves.step (State.wr_moves ..)
    | with_reducible apply Moves.step (State.line_moves ..) | with_reducible apply Moves.step (State.setFld_moves ..)
    | with_reducible apply Moves.ite | with_reducible apply Moves.foldl | with_reducible apply Moves.foldl_snd
    | with_reducible apply Moves.foldl_fst | ((with_reducible apply Moves.snd); assumption)
    | ((with_reducible apply Moves.fst); assumption) | split | dsimp only

theorem execConfirmTimeout_moves (s : State) :
    Goes [.regs, .weft, .selv] s (execConfirmTimeout s) := by
  unfold execConfirmTimeout
  repeat' first
    | with_reducible apply Moves.refl | ((with_reducible apply Within.of); exact rfl) | intro _
    | with_reducible apply Goes.next | with_reducible apply Goes.fault | with_reducible apply Goes.ite
    | with_reducible apply Moves.step (State.onBlk_moves (fs := [.regs, .weft, .selv]) (hf := ?_) ..)
    | with_reducible apply Moves.step (State.confTimeout_moves ..) | with_reducible apply Moves.ite
    | with_reducible apply Moves.foldl | with_reducible apply Moves.foldl_snd | with_reducible apply Moves.foldl_fst
    | ((with_reducible apply Moves.snd); assumption) | ((with_reducible apply Moves.fst); assumption) | split | dsimp only

theorem execUser_moves (s : State) :
    Goes [.regs, .ladder, .weft, .selv] s (execUser s) := by
  unfold execUser
  repeat' first
    | with_reducible apply Moves.refl | ((with_reducible apply Within.of); exact rfl) | intro _
    | with_reducible apply Goes.next | with_reducible apply Goes.fault | with_reducible apply Goes.ite
    | with_reducible apply Moves.step (State.onBlk_moves (fs := [.regs, .ladder, .weft, .selv]) (hf := ?_) ..)
    | with_reducible apply Moves.step (State.handleWord_moves (fs := [.regs, .ladder, .weft, .selv]) (hf := ?_) ..)
    | with_reducible apply Moves.step (State.setSelv_moves ..) | with_reducible apply Moves.step (State.wake_moves ..)
    | with_reducible apply Moves.ite | with_reducible apply Moves.foldl | with_reducible apply Moves.foldl_snd
    | with_reducible apply Moves.foldl_fst | ((with_reducible apply Moves.snd); assumption)
    | ((with_reducible apply Moves.fst); assumption) | split | dsimp only

theorem execSafeCurrentCode_moves (o : Fin 8) (code : BitVec 24) (s : State) :
    Goes [.regs, .weft, .selv, .sense] s (execSafeCurrentCode o code s) := by
  unfold execSafeCurrentCode
  repeat' first
    | with_reducible apply Moves.refl | ((with_reducible apply Within.of); exact rfl) | intro _
    | with_reducible apply Goes.next | with_reducible apply Goes.fault | with_reducible apply Goes.ite
    | with_reducible apply Moves.step (State.onBlk_moves (fs := [.regs, .weft, .selv, .sense]) (hf := ?_) ..)
    | with_reducible apply Moves.step (State.refreshOuts_moves ..)
    | with_reducible apply Moves.step (State.setRawCurrent_moves ..) | with_reducible apply Moves.ite
    | with_reducible apply Moves.foldl | with_reducible apply Moves.foldl_snd | with_reducible apply Moves.foldl_fst
    | ((with_reducible apply Moves.snd); assumption) | ((with_reducible apply Moves.fst); assumption) | split | dsimp only

theorem execSafeCurrentGap_moves (o : Fin 8) (s : State) :
    Goes [.selv] s (execSafeCurrentGap o s) := by
  unfold execSafeCurrentGap
  repeat' first
    | with_reducible apply Moves.refl | ((with_reducible apply Within.of); exact rfl) | intro _
    | with_reducible apply Goes.next | with_reducible apply Goes.fault | with_reducible apply Goes.ite
    | with_reducible apply Moves.step (State.onBlk_moves (fs := [.selv]) (hf := ?_) ..)
    | with_reducible apply Moves.step (State.setRawCurrent_moves ..) | with_reducible apply Moves.ite
    | with_reducible apply Moves.foldl | with_reducible apply Moves.foldl_snd | with_reducible apply Moves.foldl_fst
    | ((with_reducible apply Moves.snd); assumption) | ((with_reducible apply Moves.fst); assumption) | split | dsimp only

theorem execSoftOpenTimeout_moves (m : Fin 10) (s : State) :
    Goes [.regs, .weft, .selv, .sense] s (execSoftOpenTimeout m s) := by
  unfold execSoftOpenTimeout
  repeat' first
    | with_reducible apply Moves.refl | ((with_reducible apply Within.of); exact rfl) | intro _
    | with_reducible apply Goes.next | with_reducible apply Goes.fault | with_reducible apply Goes.ite
    | with_reducible apply Moves.step (State.onBlk_moves (fs := [.regs, .weft, .selv, .sense]) (hf := ?_) ..)
    | with_reducible apply Moves.step (State.refreshOut_moves ..)
    | with_reducible apply Moves.step (State.outOff_moves ..) | with_reducible apply Moves.ite
    | with_reducible apply Moves.foldl | with_reducible apply Moves.foldl_snd | with_reducible apply Moves.foldl_fst
    | ((with_reducible apply Moves.snd); assumption) | ((with_reducible apply Moves.fst); assumption) | split | dsimp only

theorem execOffPulseStart_moves (m : Fin 10) (chB : Bool) (s : State) :
    Goes [.selv] s (execOffPulseStart m chB s) := by
  unfold execOffPulseStart
  repeat' first
    | with_reducible apply Moves.refl | ((with_reducible apply Within.of); exact rfl) | intro _
    | with_reducible apply Goes.next | with_reducible apply Goes.fault | with_reducible apply Goes.ite
    | with_reducible apply Moves.step (State.onBlk_moves (fs := [.selv]) (hf := ?_) ..)
    | with_reducible apply Moves.step (State.setSafeOut_moves ..) | with_reducible apply Moves.ite
    | with_reducible apply Moves.foldl | with_reducible apply Moves.foldl_snd | with_reducible apply Moves.foldl_fst
    | ((with_reducible apply Moves.snd); assumption) | ((with_reducible apply Moves.fst); assumption) | split | dsimp only

theorem execOffPulseEnd_moves (m : Fin 10) (readsOn : Bool) (s : State) :
    Goes [.regs, .ladder, .weft, .selv, .sense] s (execOffPulseEnd m readsOn s) := by
  unfold execOffPulseEnd
  repeat' first
    | with_reducible apply Moves.refl | ((with_reducible apply Within.of); exact rfl) | intro _
    | with_reducible apply Goes.next | with_reducible apply Goes.fault | with_reducible apply Goes.ite
    | with_reducible apply Moves.step (State.onBlk_moves (fs := [.regs, .ladder, .weft, .selv, .sense]) (hf := ?_) ..)
    | with_reducible apply Moves.step (State.readbackFault_moves ..)
    | with_reducible apply Moves.step (State.setSafeOut_moves ..) | with_reducible apply Moves.ite
    | with_reducible apply Moves.foldl | with_reducible apply Moves.foldl_snd | with_reducible apply Moves.foldl_fst
    | ((with_reducible apply Moves.snd); assumption) | ((with_reducible apply Moves.fst); assumption) | split | dsimp only

theorem execSoutReadbackFault_moves (m : Fin 10) (readsOn : Bool) (us : Nat) (s : State) :
    Goes [.regs, .ladder, .weft, .selv, .sense] s (execSoutReadbackFault m readsOn us s) := by
  unfold execSoutReadbackFault
  repeat' first
    | with_reducible apply Moves.refl | ((with_reducible apply Within.of); exact rfl) | intro _
    | with_reducible apply Goes.next | with_reducible apply Goes.fault | with_reducible apply Goes.ite
    | with_reducible apply Moves.step (State.onBlk_moves (fs := [.regs, .ladder, .weft, .selv, .sense]) (hf := ?_) ..)
    | with_reducible apply Moves.step (State.readbackFault_moves ..) | with_reducible apply Moves.ite
    | with_reducible apply Moves.foldl | with_reducible apply Moves.foldl_snd | with_reducible apply Moves.foldl_fst
    | ((with_reducible apply Moves.snd); assumption) | ((with_reducible apply Moves.fst); assumption) | split | dsimp only

end Sys2Proof.Machine
end

