-- ==== Sys2Proof/Laws/MovesTickOps.lean ====
section
/-!
SUPPORT. Laws/MovesTickOps.lean: which parts of the state each operation of Machine/TickOps.lean moves.
-/
set_option Elab.async false
namespace Sys2Proof.Machine
set_option linter.all false

theorem State.tick_moves (s : State) :
    Moves [.now, .regs, .mem, .ecc, .ladder, .fabric, .weft, .power, .selv, .sense, .hs, .grid, .thermal, .free] s (State.tick s) := by
  unfold State.tick
  repeat' first
    | with_reducible apply Moves.refl | ((with_reducible apply Within.of); exact rfl) | intro _
    | with_reducible apply Moves.step (State.setNow_moves ..)
    | with_reducible apply Moves.step (State.gridSamples_moves ..)
    | with_reducible apply Moves.step (State.cableSamples_moves ..) | with_reducible apply Moves.ite
    | with_reducible apply Moves.foldl | with_reducible apply Moves.foldl_snd | with_reducible apply Moves.foldl_fst
    | ((with_reducible apply Moves.snd); assumption) | ((with_reducible apply Moves.fst); assumption) | split | dsimp only

end Sys2Proof.Machine
end

