-- ==== Sys2Proof/Laws/Ops.lean ====
section
/-!
SUPPORT. Laws/Ops.lean: what reading a register, a field or a part of the state gives after each shared operation.
-/
set_option Elab.async false
namespace Sys2Proof.Machine
set_option linter.all false

/-! Registers -/

@[simp] theorem State.rd_wr_same (s : State) (a : Nat) (v : Word) : (s.wr a v).rd a = v := Tab.get_set_same _ _ _

theorem State.rd_wr_ne (s : State) {a b : Nat} (v : Word) (h : b ≠ a) : (s.wr a v).rd b = s.rd b := Tab.get_set_ne _ _ h

theorem State.rd_wr (s : State) (a b : Nat) (v : Word) : (s.wr a v).rd b = if b = a then v else s.rd b :=
  Tab.get_set _ _ _ _

@[simp] theorem State.lv_wrLive_same (s : State) (a : Nat) (v : Word) : (s.wrLive a v).lv a = v := Tab.get_set_same _ _ _

theorem State.lv_wrLive_ne (s : State) {a b : Nat} (v : Word) (h : b ≠ a) : (s.wrLive a v).lv b = s.lv b :=
  Tab.get_set_ne _ _ h

theorem State.fld_wr_ne (s : State) {a b : Nat} (v : Word) (f : Fld) (h : b ≠ a) : (s.wr a v).fld b f = s.fld b f := by
  rw [State.fld, State.rd_wr_ne s v h]; rfl

theorem State.rd_setFld_ne (s : State) {a b : Nat} (f : Fld) (x : Nat) (h : b ≠ a) : (s.setFld a f x).rd b = s.rd b :=
  State.rd_wr_ne s _ h

theorem State.fld_setFld_same (s : State) (a : Nat) (f : Fld) (x : Nat) (h : f.lo ≤ f.hi) (h32 : f.hi < 32) :
    (s.setFld a f x).fld a f = x % 2 ^ (f.hi + 1 - f.lo) := by
  rw [State.fld, State.setFld, State.rd_wr_same, Fld.get_put f _ x h h32]

theorem State.fld_setFld_ne (s : State) {a b : Nat} (f g : Fld) (x : Nat) (h : b ≠ a) :
    (s.setFld a f x).fld b g = s.fld b g := State.fld_wr_ne s _ g h

/-- Another field of the same register. -/
theorem State.fld_setFld_off (s : State) (a : Nat) (f g : Fld) (x : Nat) (h : f.lo ≤ f.hi) (h32 : f.hi < 32)
    (hd : g.hi < f.lo ∨ f.hi < g.lo) : (s.setFld a f x).fld a g = s.fld a g := by
  rw [State.fld, State.setFld, State.rd_wr_same, Fld.get_put_off f g _ x h h32 hd]; rfl

theorem State.flag_setFlag_same (s : State) (a : Nat) (f : Fld) (b : Bool) (h : f.lo ≤ f.hi) (h32 : f.hi < 32) :
    (s.setFlag a f b).flag a f = b := by
  have h1 : 2 ≤ 2 ^ (f.hi + 1 - f.lo) := by
    have := Nat.pow_le_pow_right (n := 2) (by decide) (show 1 ≤ f.hi + 1 - f.lo by omega)
    simpa using this
  rw [State.flag, State.setFlag, State.fld_setFld_same s a f _ h h32]
  cases b
  · simp [bit01]
  · have : 1 % 2 ^ (f.hi + 1 - f.lo) = 1 := Nat.mod_eq_of_lt (by omega)
    simp [bit01, this]

theorem State.flag_setFlag_ne (s : State) {a b : Nat} (f g : Fld) (x : Bool) (h : b ≠ a) :
    (s.setFlag a f x).flag b g = s.flag b g := by
  rw [State.flag, State.setFlag, State.fld_setFld_ne s f g _ h]; rfl

theorem State.flag_setFld_ne (s : State) {a b : Nat} (f g : Fld) (x : Nat) (h : b ≠ a) :
    (s.setFld a f x).flag b g = s.flag b g := by
  rw [State.flag, State.fld_setFld_ne s f g _ h]; rfl

theorem State.flag_setFld_off (s : State) (a : Nat) (f g : Fld) (x : Nat) (h : f.lo ≤ f.hi) (h32 : f.hi < 32)
    (hd : g.hi < f.lo ∨ f.hi < g.lo) : (s.setFld a f x).flag a g = s.flag a g := by
  rw [State.flag, State.fld_setFld_off s a f g x h h32 hd]; rfl

theorem State.flag_setFlag_off (s : State) (a : Nat) (f g : Fld) (x : Bool) (h : f.lo ≤ f.hi) (h32 : f.hi < 32)
    (hd : g.hi < f.lo ∨ f.hi < g.lo) : (s.setFlag a f x).flag a g = s.flag a g :=
  State.flag_setFld_off s a f g _ h h32 hd

/-! What does not touch the registers leaves them, and what touches them leaves the rest -/

@[simp] theorem State.setNow_rd (s : State) (v) (a : Nat) : (s.setNow v).rd a = s.rd a := rfl
@[simp] theorem State.setNow_fld (s : State) (v) (a : Nat) (g : Fld) : (s.setNow v).fld a g = s.fld a g := rfl
@[simp] theorem State.setNow_flag (s : State) (v) (a : Nat) (g : Fld) : (s.setNow v).flag a g = s.flag a g := rfl
@[simp] theorem State.wr_now (s : State) (a : Nat) (v : Word) : (s.wr a v).now = s.now := rfl
@[simp] theorem State.setFld_now (s : State) (a : Nat) (g : Fld) (v : Nat) : (s.setFld a g v).now = s.now := rfl
@[simp] theorem State.setFlag_now (s : State) (a : Nat) (g : Fld) (v : Bool) : (s.setFlag a g v).now = s.now := rfl
@[simp] theorem State.setBit_now (s : State) (a : Nat) (g : Fld) (v : Nat) (b : Bool) : (s.setBit a g v b).now = s.now := rfl
@[simp] theorem State.bump_now (s : State) (a : Nat) (g : Fld) (v : Nat) : (s.bump a g v).now = s.now := rfl
@[simp] theorem State.wrNat_now (s : State) (a v : Nat) : (s.wrNat a v).now = s.now := rfl
@[simp] theorem State.setNow_lv (s : State) (v) (a : Nat) : (s.setNow v).lv a = s.lv a := rfl
@[simp] theorem State.setNow_lfld (s : State) (v) (a : Nat) (g : Fld) : (s.setNow v).lfld a g = s.lfld a g := rfl
@[simp] theorem State.wrLive_now (s : State) (a : Nat) (v : Word) : (s.wrLive a v).now = s.now := rfl
@[simp] theorem State.line_now (s : State) (b l : Nat) : (s.line b l).now = s.now := rfl
@[simp] theorem State.setCtx_now (s : State) (k : Nat) (x) : (s.setCtx k x).now = s.now := rfl
@[simp] theorem State.note_now (s : State) (b c k : Nat) : (s.note b c k).now = s.now := (State.note_moves ..).rest .now rfl
@[simp] theorem State.contain_now (s : State) (b c k : Nat) (d) : (s.contain b c k d).now = s.now := (State.contain_moves ..).rest .now rfl
@[simp] theorem State.emit_now (s : State) (m) : (s.emit m).now = s.now := rfl
@[simp] theorem State.took_now (s : State) : s.took.now = s.now := rfl
@[simp] theorem State.putBytes_now (s : State) (a : Nat) (l) : (s.putBytes a l).now = s.now := rfl
@[simp] theorem State.setPending_rd (s : State) (v) (a : Nat) : (s.setPending v).rd a = s.rd a := rfl
@[simp] theorem State.setPending_fld (s : State) (v) (a : Nat) (g : Fld) : (s.setPending v).fld a g = s.fld a g := rfl
@[simp] theorem State.setPending_flag (s : State) (v) (a : Nat) (g : Fld) : (s.setPending v).flag a g = s.flag a g := rfl
@[simp] theorem State.wr_pending (s : State) (a : Nat) (v : Word) : (s.wr a v).pending = s.pending := rfl
@[simp] theorem State.setFld_pending (s : State) (a : Nat) (g : Fld) (v : Nat) : (s.setFld a g v).pending = s.pending := rfl
@[simp] theorem State.setFlag_pending (s : State) (a : Nat) (g : Fld) (v : Bool) : (s.setFlag a g v).pending = s.pending := rfl
@[simp] theorem State.setBit_pending (s : State) (a : Nat) (g : Fld) (v : Nat) (b : Bool) : (s.setBit a g v b).pending = s.pending := rfl
@[simp] theorem State.bump_pending (s : State) (a : Nat) (g : Fld) (v : Nat) : (s.bump a g v).pending = s.pending := rfl
@[simp] theorem State.wrNat_pending (s : State) (a v : Nat) : (s.wrNat a v).pending = s.pending := rfl
@[simp] theorem State.setPending_lv (s : State) (v) (a : Nat) : (s.setPending v).lv a = s.lv a := rfl
@[simp] theorem State.setPending_lfld (s : State) (v) (a : Nat) (g : Fld) : (s.setPending v).lfld a g = s.lfld a g := rfl
@[simp] theorem State.wrLive_pending (s : State) (a : Nat) (v : Word) : (s.wrLive a v).pending = s.pending := rfl
@[simp] theorem State.line_pending (s : State) (b l : Nat) : (s.line b l).pending = s.pending := rfl
@[simp] theorem State.setCtx_pending (s : State) (k : Nat) (x) : (s.setCtx k x).pending = s.pending := rfl
@[simp] theorem State.note_pending (s : State) (b c k : Nat) : (s.note b c k).pending = s.pending := (State.note_moves ..).rest .pending rfl
@[simp] theorem State.contain_pending (s : State) (b c k : Nat) (d) : (s.contain b c k d).pending = s.pending := (State.contain_moves ..).rest .pending rfl
@[simp] theorem State.emit_pending (s : State) (m) : (s.emit m).pending = s.pending := rfl
@[simp] theorem State.took_pending (s : State) : s.took.pending = s.pending := rfl
@[simp] theorem State.putBytes_pending (s : State) (a : Nat) (l) : (s.putBytes a l).pending = s.pending := rfl
@[simp] theorem State.setRegs_lv (s : State) (v) (a : Nat) : (s.setRegs v).lv a = s.lv a := rfl
@[simp] theorem State.setRegs_lfld (s : State) (v) (a : Nat) (g : Fld) : (s.setRegs v).lfld a g = s.lfld a g := rfl
@[simp] theorem State.wrLive_regs (s : State) (a : Nat) (v : Word) : (s.wrLive a v).regs = s.regs := rfl
@[simp] theorem State.line_regs (s : State) (b l : Nat) : (s.line b l).regs = s.regs := rfl
@[simp] theorem State.setCtx_regs (s : State) (k : Nat) (x) : (s.setCtx k x).regs = s.regs := rfl
@[simp] theorem State.emit_regs (s : State) (m) : (s.emit m).regs = s.regs := rfl
@[simp] theorem State.took_regs (s : State) : s.took.regs = s.regs := rfl
@[simp] theorem State.putBytes_regs (s : State) (a : Nat) (l) : (s.putBytes a l).regs = s.regs := rfl
@[simp] theorem State.setLive_rd (s : State) (v) (a : Nat) : (s.setLive v).rd a = s.rd a := rfl
@[simp] theorem State.setLive_fld (s : State) (v) (a : Nat) (g : Fld) : (s.setLive v).fld a g = s.fld a g := rfl
@[simp] theorem State.setLive_flag (s : State) (v) (a : Nat) (g : Fld) : (s.setLive v).flag a g = s.flag a g := rfl
@[simp] theorem State.wr_live (s : State) (a : Nat) (v : Word) : (s.wr a v).live = s.live := rfl
@[simp] theorem State.setFld_live (s : State) (a : Nat) (g : Fld) (v : Nat) : (s.setFld a g v).live = s.live := rfl
@[simp] theorem State.setFlag_live (s : State) (a : Nat) (g : Fld) (v : Bool) : (s.setFlag a g v).live = s.live := rfl
@[simp] theorem State.setBit_live (s : State) (a : Nat) (g : Fld) (v : Nat) (b : Bool) : (s.setBit a g v b).live = s.live := rfl
@[simp] theorem State.bump_live (s : State) (a : Nat) (g : Fld) (v : Nat) : (s.bump a g v).live = s.live := rfl
@[simp] theorem State.wrNat_live (s : State) (a v : Nat) : (s.wrNat a v).live = s.live := rfl
@[simp] theorem State.line_live (s : State) (b l : Nat) : (s.line b l).live = s.live := rfl
@[simp] theorem State.setCtx_live (s : State) (k : Nat) (x) : (s.setCtx k x).live = s.live := rfl
@[simp] theorem State.note_live (s : State) (b c k : Nat) : (s.note b c k).live = s.live := (State.note_moves ..).rest .live rfl
@[simp] theorem State.contain_live (s : State) (b c k : Nat) (d) : (s.contain b c k d).live = s.live := (State.contain_moves ..).rest .live rfl
@[simp] theorem State.emit_live (s : State) (m) : (s.emit m).live = s.live := rfl
@[simp] theorem State.took_live (s : State) : s.took.live = s.live := rfl
@[simp] theorem State.putBytes_live (s : State) (a : Nat) (l) : (s.putBytes a l).live = s.live := rfl
@[simp] theorem State.setMem_rd (s : State) (v) (a : Nat) : (s.setMem v).rd a = s.rd a := rfl
@[simp] theorem State.setMem_fld (s : State) (v) (a : Nat) (g : Fld) : (s.setMem v).fld a g = s.fld a g := rfl
@[simp] theorem State.setMem_flag (s : State) (v) (a : Nat) (g : Fld) : (s.setMem v).flag a g = s.flag a g := rfl
@[simp] theorem State.wr_mem (s : State) (a : Nat) (v : Word) : (s.wr a v).mem = s.mem := rfl
@[simp] theorem State.setFld_mem (s : State) (a : Nat) (g : Fld) (v : Nat) : (s.setFld a g v).mem = s.mem := rfl
@[simp] theorem State.setFlag_mem (s : State) (a : Nat) (g : Fld) (v : Bool) : (s.setFlag a g v).mem = s.mem := rfl
@[simp] theorem State.setBit_mem (s : State) (a : Nat) (g : Fld) (v : Nat) (b : Bool) : (s.setBit a g v b).mem = s.mem := rfl
@[simp] theorem State.bump_mem (s : State) (a : Nat) (g : Fld) (v : Nat) : (s.bump a g v).mem = s.mem := rfl
@[simp] theorem State.wrNat_mem (s : State) (a v : Nat) : (s.wrNat a v).mem = s.mem := rfl
@[simp] theorem State.setMem_lv (s : State) (v) (a : Nat) : (s.setMem v).lv a = s.lv a := rfl
@[simp] theorem State.setMem_lfld (s : State) (v) (a : Nat) (g : Fld) : (s.setMem v).lfld a g = s.lfld a g := rfl
@[simp] theorem State.wrLive_mem (s : State) (a : Nat) (v : Word) : (s.wrLive a v).mem = s.mem := rfl
@[simp] theorem State.line_mem (s : State) (b l : Nat) : (s.line b l).mem = s.mem := rfl
@[simp] theorem State.setCtx_mem (s : State) (k : Nat) (x) : (s.setCtx k x).mem = s.mem := rfl
@[simp] theorem State.note_mem (s : State) (b c k : Nat) : (s.note b c k).mem = s.mem := (State.note_moves ..).rest .mem rfl
@[simp] theorem State.contain_mem (s : State) (b c k : Nat) (d) : (s.contain b c k d).mem = s.mem := (State.contain_moves ..).rest .mem rfl
@[simp] theorem State.emit_mem (s : State) (m) : (s.emit m).mem = s.mem := rfl
@[simp] theorem State.took_mem (s : State) : s.took.mem = s.mem := rfl
@[simp] theorem State.setEcc_rd (s : State) (v) (a : Nat) : (s.setEcc v).rd a = s.rd a := rfl
@[simp] theorem State.setEcc_fld (s : State) (v) (a : Nat) (g : Fld) : (s.setEcc v).fld a g = s.fld a g := rfl
@[simp] theorem State.setEcc_flag (s : State) (v) (a : Nat) (g : Fld) : (s.setEcc v).flag a g = s.flag a g := rfl
@[simp] theorem State.wr_ecc (s : State) (a : Nat) (v : Word) : (s.wr a v).ecc = s.ecc := rfl
@[simp] theorem State.setFld_ecc (s : State) (a : Nat) (g : Fld) (v : Nat) : (s.setFld a g v).ecc = s.ecc := rfl
@[simp] theorem State.setFlag_ecc (s : State) (a : Nat) (g : Fld) (v : Bool) : (s.setFlag a g v).ecc = s.ecc := rfl
@[simp] theorem State.setBit_ecc (s : State) (a : Nat) (g : Fld) (v : Nat) (b : Bool) : (s.setBit a g v b).ecc = s.ecc := rfl
@[simp] theorem State.bump_ecc (s : State) (a : Nat) (g : Fld) (v : Nat) : (s.bump a g v).ecc = s.ecc := rfl
@[simp] theorem State.wrNat_ecc (s : State) (a v : Nat) : (s.wrNat a v).ecc = s.ecc := rfl
@[simp] theorem State.setEcc_lv (s : State) (v) (a : Nat) : (s.setEcc v).lv a = s.lv a := rfl
@[simp] theorem State.setEcc_lfld (s : State) (v) (a : Nat) (g : Fld) : (s.setEcc v).lfld a g = s.lfld a g := rfl
@[simp] theorem State.wrLive_ecc (s : State) (a : Nat) (v : Word) : (s.wrLive a v).ecc = s.ecc := rfl
@[simp] theorem State.line_ecc (s : State) (b l : Nat) : (s.line b l).ecc = s.ecc := rfl
@[simp] theorem State.setCtx_ecc (s : State) (k : Nat) (x) : (s.setCtx k x).ecc = s.ecc := rfl
@[simp] theorem State.note_ecc (s : State) (b c k : Nat) : (s.note b c k).ecc = s.ecc := (State.note_moves ..).rest .ecc rfl
@[simp] theorem State.contain_ecc (s : State) (b c k : Nat) (d) : (s.contain b c k d).ecc = s.ecc := (State.contain_moves ..).rest .ecc rfl
@[simp] theorem State.emit_ecc (s : State) (m) : (s.emit m).ecc = s.ecc := rfl
@[simp] theorem State.took_ecc (s : State) : s.took.ecc = s.ecc := rfl
@[simp] theorem State.putBytes_ecc (s : State) (a : Nat) (l) : (s.putBytes a l).ecc = s.ecc := rfl
@[simp] theorem State.setLadder_rd (s : State) (v) (a : Nat) : (s.setLadder v).rd a = s.rd a := rfl
@[simp] theorem State.setLadder_fld (s : State) (v) (a : Nat) (g : Fld) : (s.setLadder v).fld a g = s.fld a g := rfl
@[simp] theorem State.setLadder_flag (s : State) (v) (a : Nat) (g : Fld) : (s.setLadder v).flag a g = s.flag a g := rfl
@[simp] theorem State.wr_ladder (s : State) (a : Nat) (v : Word) : (s.wr a v).ladder = s.ladder := rfl
@[simp] theorem State.setFld_ladder (s : State) (a : Nat) (g : Fld) (v : Nat) : (s.setFld a g v).ladder = s.ladder := rfl
@[simp] theorem State.setFlag_ladder (s : State) (a : Nat) (g : Fld) (v : Bool) : (s.setFlag a g v).ladder = s.ladder := rfl
@[simp] theorem State.setBit_ladder (s : State) (a : Nat) (g : Fld) (v : Nat) (b : Bool) : (s.setBit a g v b).ladder = s.ladder := rfl
@[simp] theorem State.bump_ladder (s : State) (a : Nat) (g : Fld) (v : Nat) : (s.bump a g v).ladder = s.ladder := rfl
@[simp] theorem State.wrNat_ladder (s : State) (a v : Nat) : (s.wrNat a v).ladder = s.ladder := rfl
@[simp] theorem State.setLadder_lv (s : State) (v) (a : Nat) : (s.setLadder v).lv a = s.lv a := rfl
@[simp] theorem State.setLadder_lfld (s : State) (v) (a : Nat) (g : Fld) : (s.setLadder v).lfld a g = s.lfld a g := rfl
@[simp] theorem State.wrLive_ladder (s : State) (a : Nat) (v : Word) : (s.wrLive a v).ladder = s.ladder := rfl
@[simp] theorem State.line_ladder (s : State) (b l : Nat) : (s.line b l).ladder = s.ladder := rfl
@[simp] theorem State.setCtx_ladder (s : State) (k : Nat) (x) : (s.setCtx k x).ladder = s.ladder := rfl
@[simp] theorem State.emit_ladder (s : State) (m) : (s.emit m).ladder = s.ladder := rfl
@[simp] theorem State.took_ladder (s : State) : s.took.ladder = s.ladder := rfl
@[simp] theorem State.putBytes_ladder (s : State) (a : Nat) (l) : (s.putBytes a l).ladder = s.ladder := rfl
@[simp] theorem State.setFabric_rd (s : State) (v) (a : Nat) : (s.setFabric v).rd a = s.rd a := rfl
@[simp] theorem State.setFabric_fld (s : State) (v) (a : Nat) (g : Fld) : (s.setFabric v).fld a g = s.fld a g := rfl
@[simp] theorem State.setFabric_flag (s : State) (v) (a : Nat) (g : Fld) : (s.setFabric v).flag a g = s.flag a g := rfl
@[simp] theorem State.wr_fabric (s : State) (a : Nat) (v : Word) : (s.wr a v).fabric = s.fabric := rfl
@[simp] theorem State.setFld_fabric (s : State) (a : Nat) (g : Fld) (v : Nat) : (s.setFld a g v).fabric = s.fabric := rfl
@[simp] theorem State.setFlag_fabric (s : State) (a : Nat) (g : Fld) (v : Bool) : (s.setFlag a g v).fabric = s.fabric := rfl
@[simp] theorem State.setBit_fabric (s : State) (a : Nat) (g : Fld) (v : Nat) (b : Bool) : (s.setBit a g v b).fabric = s.fabric := rfl
@[simp] theorem State.bump_fabric (s : State) (a : Nat) (g : Fld) (v : Nat) : (s.bump a g v).fabric = s.fabric := rfl
@[simp] theorem State.wrNat_fabric (s : State) (a v : Nat) : (s.wrNat a v).fabric = s.fabric := rfl
@[simp] theorem State.setFabric_lv (s : State) (v) (a : Nat) : (s.setFabric v).lv a = s.lv a := rfl
@[simp] theorem State.setFabric_lfld (s : State) (v) (a : Nat) (g : Fld) : (s.setFabric v).lfld a g = s.lfld a g := rfl
@[simp] theorem State.wrLive_fabric (s : State) (a : Nat) (v : Word) : (s.wrLive a v).fabric = s.fabric := rfl
@[simp] theorem State.line_fabric (s : State) (b l : Nat) : (s.line b l).fabric = s.fabric := rfl
@[simp] theorem State.setCtx_fabric (s : State) (k : Nat) (x) : (s.setCtx k x).fabric = s.fabric := rfl
@[simp] theorem State.note_fabric (s : State) (b c k : Nat) : (s.note b c k).fabric = s.fabric := (State.note_moves ..).rest .fabric rfl
@[simp] theorem State.contain_fabric (s : State) (b c k : Nat) (d) : (s.contain b c k d).fabric = s.fabric := (State.contain_moves ..).rest .fabric rfl
@[simp] theorem State.emit_fabric (s : State) (m) : (s.emit m).fabric = s.fabric := rfl
@[simp] theorem State.took_fabric (s : State) : s.took.fabric = s.fabric := rfl
@[simp] theorem State.putBytes_fabric (s : State) (a : Nat) (l) : (s.putBytes a l).fabric = s.fabric := rfl
@[simp] theorem State.setWeft_rd (s : State) (v) (a : Nat) : (s.setWeft v).rd a = s.rd a := rfl
@[simp] theorem State.setWeft_fld (s : State) (v) (a : Nat) (g : Fld) : (s.setWeft v).fld a g = s.fld a g := rfl
@[simp] theorem State.setWeft_flag (s : State) (v) (a : Nat) (g : Fld) : (s.setWeft v).flag a g = s.flag a g := rfl
@[simp] theorem State.wr_weft (s : State) (a : Nat) (v : Word) : (s.wr a v).weft = s.weft := rfl
@[simp] theorem State.setFld_weft (s : State) (a : Nat) (g : Fld) (v : Nat) : (s.setFld a g v).weft = s.weft := rfl
@[simp] theorem State.setFlag_weft (s : State) (a : Nat) (g : Fld) (v : Bool) : (s.setFlag a g v).weft = s.weft := rfl
@[simp] theorem State.setBit_weft (s : State) (a : Nat) (g : Fld) (v : Nat) (b : Bool) : (s.setBit a g v b).weft = s.weft := rfl
@[simp] theorem State.bump_weft (s : State) (a : Nat) (g : Fld) (v : Nat) : (s.bump a g v).weft = s.weft := rfl
@[simp] theorem State.wrNat_weft (s : State) (a v : Nat) : (s.wrNat a v).weft = s.weft := rfl
@[simp] theorem State.setWeft_lv (s : State) (v) (a : Nat) : (s.setWeft v).lv a = s.lv a := rfl
@[simp] theorem State.setWeft_lfld (s : State) (v) (a : Nat) (g : Fld) : (s.setWeft v).lfld a g = s.lfld a g := rfl
@[simp] theorem State.wrLive_weft (s : State) (a : Nat) (v : Word) : (s.wrLive a v).weft = s.weft := rfl
@[simp] theorem State.note_weft (s : State) (b c k : Nat) : (s.note b c k).weft = s.weft := (State.note_moves ..).rest .weft rfl
@[simp] theorem State.contain_weft (s : State) (b c k : Nat) (d) : (s.contain b c k d).weft = s.weft := (State.contain_moves ..).rest .weft rfl
@[simp] theorem State.emit_weft (s : State) (m) : (s.emit m).weft = s.weft := rfl
@[simp] theorem State.took_weft (s : State) : s.took.weft = s.weft := rfl
@[simp] theorem State.putBytes_weft (s : State) (a : Nat) (l) : (s.putBytes a l).weft = s.weft := rfl
@[simp] theorem State.setPower_rd (s : State) (v) (a : Nat) : (s.setPower v).rd a = s.rd a := rfl
@[simp] theorem State.setPower_fld (s : State) (v) (a : Nat) (g : Fld) : (s.setPower v).fld a g = s.fld a g := rfl
@[simp] theorem State.setPower_flag (s : State) (v) (a : Nat) (g : Fld) : (s.setPower v).flag a g = s.flag a g := rfl
@[simp] theorem State.wr_power (s : State) (a : Nat) (v : Word) : (s.wr a v).power = s.power := rfl
@[simp] theorem State.setFld_power (s : State) (a : Nat) (g : Fld) (v : Nat) : (s.setFld a g v).power = s.power := rfl
@[simp] theorem State.setFlag_power (s : State) (a : Nat) (g : Fld) (v : Bool) : (s.setFlag a g v).power = s.power := rfl
@[simp] theorem State.setBit_power (s : State) (a : Nat) (g : Fld) (v : Nat) (b : Bool) : (s.setBit a g v b).power = s.power := rfl
@[simp] theorem State.bump_power (s : State) (a : Nat) (g : Fld) (v : Nat) : (s.bump a g v).power = s.power := rfl
@[simp] theorem State.wrNat_power (s : State) (a v : Nat) : (s.wrNat a v).power = s.power := rfl
@[simp] theorem State.setPower_lv (s : State) (v) (a : Nat) : (s.setPower v).lv a = s.lv a := rfl
@[simp] theorem State.setPower_lfld (s : State) (v) (a : Nat) (g : Fld) : (s.setPower v).lfld a g = s.lfld a g := rfl
@[simp] theorem State.wrLive_power (s : State) (a : Nat) (v : Word) : (s.wrLive a v).power = s.power := rfl
@[simp] theorem State.line_power (s : State) (b l : Nat) : (s.line b l).power = s.power := rfl
@[simp] theorem State.setCtx_power (s : State) (k : Nat) (x) : (s.setCtx k x).power = s.power := rfl
@[simp] theorem State.note_power (s : State) (b c k : Nat) : (s.note b c k).power = s.power := (State.note_moves ..).rest .power rfl
@[simp] theorem State.contain_power (s : State) (b c k : Nat) (d) : (s.contain b c k d).power = s.power := (State.contain_moves ..).rest .power rfl
@[simp] theorem State.emit_power (s : State) (m) : (s.emit m).power = s.power := rfl
@[simp] theorem State.took_power (s : State) : s.took.power = s.power := rfl
@[simp] theorem State.putBytes_power (s : State) (a : Nat) (l) : (s.putBytes a l).power = s.power := rfl
@[simp] theorem State.setStartup_rd (s : State) (v) (a : Nat) : (s.setStartup v).rd a = s.rd a := rfl
@[simp] theorem State.setStartup_fld (s : State) (v) (a : Nat) (g : Fld) : (s.setStartup v).fld a g = s.fld a g := rfl
@[simp] theorem State.setStartup_flag (s : State) (v) (a : Nat) (g : Fld) : (s.setStartup v).flag a g = s.flag a g := rfl
@[simp] theorem State.wr_startup (s : State) (a : Nat) (v : Word) : (s.wr a v).startup = s.startup := rfl
@[simp] theorem State.setFld_startup (s : State) (a : Nat) (g : Fld) (v : Nat) : (s.setFld a g v).startup = s.startup := rfl
@[simp] theorem State.setFlag_startup (s : State) (a : Nat) (g : Fld) (v : Bool) : (s.setFlag a g v).startup = s.startup := rfl
@[simp] theorem State.setBit_startup (s : State) (a : Nat) (g : Fld) (v : Nat) (b : Bool) : (s.setBit a g v b).startup = s.startup := rfl
@[simp] theorem State.bump_startup (s : State) (a : Nat) (g : Fld) (v : Nat) : (s.bump a g v).startup = s.startup := rfl
@[simp] theorem State.wrNat_startup (s : State) (a v : Nat) : (s.wrNat a v).startup = s.startup := rfl
@[simp] theorem State.setStartup_lv (s : State) (v) (a : Nat) : (s.setStartup v).lv a = s.lv a := rfl
@[simp] theorem State.setStartup_lfld (s : State) (v) (a : Nat) (g : Fld) : (s.setStartup v).lfld a g = s.lfld a g := rfl
@[simp] theorem State.wrLive_startup (s : State) (a : Nat) (v : Word) : (s.wrLive a v).startup = s.startup := rfl
@[simp] theorem State.line_startup (s : State) (b l : Nat) : (s.line b l).startup = s.startup := rfl
@[simp] theorem State.setCtx_startup (s : State) (k : Nat) (x) : (s.setCtx k x).startup = s.startup := rfl
@[simp] theorem State.note_startup (s : State) (b c k : Nat) : (s.note b c k).startup = s.startup := (State.note_moves ..).rest .startup rfl
@[simp] theorem State.contain_startup (s : State) (b c k : Nat) (d) : (s.contain b c k d).startup = s.startup := (State.contain_moves ..).rest .startup rfl
@[simp] theorem State.emit_startup (s : State) (m) : (s.emit m).startup = s.startup := rfl
@[simp] theorem State.took_startup (s : State) : s.took.startup = s.startup := rfl
@[simp] theorem State.putBytes_startup (s : State) (a : Nat) (l) : (s.putBytes a l).startup = s.startup := rfl
@[simp] theorem State.setTime_rd (s : State) (v) (a : Nat) : (s.setTime v).rd a = s.rd a := rfl
@[simp] theorem State.setTime_fld (s : State) (v) (a : Nat) (g : Fld) : (s.setTime v).fld a g = s.fld a g := rfl
@[simp] theorem State.setTime_flag (s : State) (v) (a : Nat) (g : Fld) : (s.setTime v).flag a g = s.flag a g := rfl
@[simp] theorem State.wr_time (s : State) (a : Nat) (v : Word) : (s.wr a v).time = s.time := rfl
@[simp] theorem State.setFld_time (s : State) (a : Nat) (g : Fld) (v : Nat) : (s.setFld a g v).time = s.time := rfl
@[simp] theorem State.setFlag_time (s : State) (a : Nat) (g : Fld) (v : Bool) : (s.setFlag a g v).time = s.time := rfl
@[simp] theorem State.setBit_time (s : State) (a : Nat) (g : Fld) (v : Nat) (b : Bool) : (s.setBit a g v b).time = s.time := rfl
@[simp] theorem State.bump_time (s : State) (a : Nat) (g : Fld) (v : Nat) : (s.bump a g v).time = s.time := rfl
@[simp] theorem State.wrNat_time (s : State) (a v : Nat) : (s.wrNat a v).time = s.time := rfl
@[simp] theorem State.setTime_lv (s : State) (v) (a : Nat) : (s.setTime v).lv a = s.lv a := rfl
@[simp] theorem State.setTime_lfld (s : State) (v) (a : Nat) (g : Fld) : (s.setTime v).lfld a g = s.lfld a g := rfl
@[simp] theorem State.wrLive_time (s : State) (a : Nat) (v : Word) : (s.wrLive a v).time = s.time := rfl
@[simp] theorem State.line_time (s : State) (b l : Nat) : (s.line b l).time = s.time := rfl
@[simp] theorem State.setCtx_time (s : State) (k : Nat) (x) : (s.setCtx k x).time = s.time := rfl
@[simp] theorem State.note_time (s : State) (b c k : Nat) : (s.note b c k).time = s.time := (State.note_moves ..).rest .time rfl
@[simp] theorem State.contain_time (s : State) (b c k : Nat) (d) : (s.contain b c k d).time = s.time := (State.contain_moves ..).rest .time rfl
@[simp] theorem State.emit_time (s : State) (m) : (s.emit m).time = s.time := rfl
@[simp] theorem State.took_time (s : State) : s.took.time = s.time := rfl
@[simp] theorem State.putBytes_time (s : State) (a : Nat) (l) : (s.putBytes a l).time = s.time := rfl
@[simp] theorem State.setSelv_rd (s : State) (v) (a : Nat) : (s.setSelv v).rd a = s.rd a := rfl
@[simp] theorem State.setSelv_fld (s : State) (v) (a : Nat) (g : Fld) : (s.setSelv v).fld a g = s.fld a g := rfl
@[simp] theorem State.setSelv_flag (s : State) (v) (a : Nat) (g : Fld) : (s.setSelv v).flag a g = s.flag a g := rfl
@[simp] theorem State.wr_selv (s : State) (a : Nat) (v : Word) : (s.wr a v).selv = s.selv := rfl
@[simp] theorem State.setFld_selv (s : State) (a : Nat) (g : Fld) (v : Nat) : (s.setFld a g v).selv = s.selv := rfl
@[simp] theorem State.setFlag_selv (s : State) (a : Nat) (g : Fld) (v : Bool) : (s.setFlag a g v).selv = s.selv := rfl
@[simp] theorem State.setBit_selv (s : State) (a : Nat) (g : Fld) (v : Nat) (b : Bool) : (s.setBit a g v b).selv = s.selv := rfl
@[simp] theorem State.bump_selv (s : State) (a : Nat) (g : Fld) (v : Nat) : (s.bump a g v).selv = s.selv := rfl
@[simp] theorem State.wrNat_selv (s : State) (a v : Nat) : (s.wrNat a v).selv = s.selv := rfl
@[simp] theorem State.setSelv_lv (s : State) (v) (a : Nat) : (s.setSelv v).lv a = s.lv a := rfl
@[simp] theorem State.setSelv_lfld (s : State) (v) (a : Nat) (g : Fld) : (s.setSelv v).lfld a g = s.lfld a g := rfl
@[simp] theorem State.wrLive_selv (s : State) (a : Nat) (v : Word) : (s.wrLive a v).selv = s.selv := rfl
@[simp] theorem State.line_selv (s : State) (b l : Nat) : (s.line b l).selv = s.selv := rfl
@[simp] theorem State.setCtx_selv (s : State) (k : Nat) (x) : (s.setCtx k x).selv = s.selv := rfl
@[simp] theorem State.note_selv (s : State) (b c k : Nat) : (s.note b c k).selv = s.selv := (State.note_moves ..).rest .selv rfl
@[simp] theorem State.contain_selv (s : State) (b c k : Nat) (d) : (s.contain b c k d).selv = s.selv := (State.contain_moves ..).rest .selv rfl
@[simp] theorem State.emit_selv (s : State) (m) : (s.emit m).selv = s.selv := rfl
@[simp] theorem State.took_selv (s : State) : s.took.selv = s.selv := rfl
@[simp] theorem State.putBytes_selv (s : State) (a : Nat) (l) : (s.putBytes a l).selv = s.selv := rfl
@[simp] theorem State.setLoom_rd (s : State) (v) (a : Nat) : (s.setLoom v).rd a = s.rd a := rfl
@[simp] theorem State.setLoom_fld (s : State) (v) (a : Nat) (g : Fld) : (s.setLoom v).fld a g = s.fld a g := rfl
@[simp] theorem State.setLoom_flag (s : State) (v) (a : Nat) (g : Fld) : (s.setLoom v).flag a g = s.flag a g := rfl
@[simp] theorem State.wr_loom (s : State) (a : Nat) (v : Word) : (s.wr a v).loom = s.loom := rfl
@[simp] theorem State.setFld_loom (s : State) (a : Nat) (g : Fld) (v : Nat) : (s.setFld a g v).loom = s.loom := rfl
@[simp] theorem State.setFlag_loom (s : State) (a : Nat) (g : Fld) (v : Bool) : (s.setFlag a g v).loom = s.loom := rfl
@[simp] theorem State.setBit_loom (s : State) (a : Nat) (g : Fld) (v : Nat) (b : Bool) : (s.setBit a g v b).loom = s.loom := rfl
@[simp] theorem State.bump_loom (s : State) (a : Nat) (g : Fld) (v : Nat) : (s.bump a g v).loom = s.loom := rfl
@[simp] theorem State.wrNat_loom (s : State) (a v : Nat) : (s.wrNat a v).loom = s.loom := rfl
@[simp] theorem State.setLoom_lv (s : State) (v) (a : Nat) : (s.setLoom v).lv a = s.lv a := rfl
@[simp] theorem State.setLoom_lfld (s : State) (v) (a : Nat) (g : Fld) : (s.setLoom v).lfld a g = s.lfld a g := rfl
@[simp] theorem State.wrLive_loom (s : State) (a : Nat) (v : Word) : (s.wrLive a v).loom = s.loom := rfl
@[simp] theorem State.line_loom (s : State) (b l : Nat) : (s.line b l).loom = s.loom := rfl
@[simp] theorem State.setCtx_loom (s : State) (k : Nat) (x) : (s.setCtx k x).loom = s.loom := rfl
@[simp] theorem State.note_loom (s : State) (b c k : Nat) : (s.note b c k).loom = s.loom := (State.note_moves ..).rest .loom rfl
@[simp] theorem State.contain_loom (s : State) (b c k : Nat) (d) : (s.contain b c k d).loom = s.loom := (State.contain_moves ..).rest .loom rfl
@[simp] theorem State.emit_loom (s : State) (m) : (s.emit m).loom = s.loom := rfl
@[simp] theorem State.took_loom (s : State) : s.took.loom = s.loom := rfl
@[simp] theorem State.putBytes_loom (s : State) (a : Nat) (l) : (s.putBytes a l).loom = s.loom := rfl
@[simp] theorem State.setTwill_rd (s : State) (v) (a : Nat) : (s.setTwill v).rd a = s.rd a := rfl
@[simp] theorem State.setTwill_fld (s : State) (v) (a : Nat) (g : Fld) : (s.setTwill v).fld a g = s.fld a g := rfl
@[simp] theorem State.setTwill_flag (s : State) (v) (a : Nat) (g : Fld) : (s.setTwill v).flag a g = s.flag a g := rfl
@[simp] theorem State.wr_twill (s : State) (a : Nat) (v : Word) : (s.wr a v).twill = s.twill := rfl
@[simp] theorem State.setFld_twill (s : State) (a : Nat) (g : Fld) (v : Nat) : (s.setFld a g v).twill = s.twill := rfl
@[simp] theorem State.setFlag_twill (s : State) (a : Nat) (g : Fld) (v : Bool) : (s.setFlag a g v).twill = s.twill := rfl
@[simp] theorem State.setBit_twill (s : State) (a : Nat) (g : Fld) (v : Nat) (b : Bool) : (s.setBit a g v b).twill = s.twill := rfl
@[simp] theorem State.bump_twill (s : State) (a : Nat) (g : Fld) (v : Nat) : (s.bump a g v).twill = s.twill := rfl
@[simp] theorem State.wrNat_twill (s : State) (a v : Nat) : (s.wrNat a v).twill = s.twill := rfl
@[simp] theorem State.setTwill_lv (s : State) (v) (a : Nat) : (s.setTwill v).lv a = s.lv a := rfl
@[simp] theorem State.setTwill_lfld (s : State) (v) (a : Nat) (g : Fld) : (s.setTwill v).lfld a g = s.lfld a g := rfl
@[simp] theorem State.wrLive_twill (s : State) (a : Nat) (v : Word) : (s.wrLive a v).twill = s.twill := rfl
@[simp] theorem State.line_twill (s : State) (b l : Nat) : (s.line b l).twill = s.twill := rfl
@[simp] theorem State.setCtx_twill (s : State) (k : Nat) (x) : (s.setCtx k x).twill = s.twill := rfl
@[simp] theorem State.note_twill (s : State) (b c k : Nat) : (s.note b c k).twill = s.twill := (State.note_moves ..).rest .twill rfl
@[simp] theorem State.contain_twill (s : State) (b c k : Nat) (d) : (s.contain b c k d).twill = s.twill := (State.contain_moves ..).rest .twill rfl
@[simp] theorem State.emit_twill (s : State) (m) : (s.emit m).twill = s.twill := rfl
@[simp] theorem State.took_twill (s : State) : s.took.twill = s.twill := rfl
@[simp] theorem State.putBytes_twill (s : State) (a : Nat) (l) : (s.putBytes a l).twill = s.twill := rfl
@[simp] theorem State.setSense_rd (s : State) (v) (a : Nat) : (s.setSense v).rd a = s.rd a := rfl
@[simp] theorem State.setSense_fld (s : State) (v) (a : Nat) (g : Fld) : (s.setSense v).fld a g = s.fld a g := rfl
@[simp] theorem State.setSense_flag (s : State) (v) (a : Nat) (g : Fld) : (s.setSense v).flag a g = s.flag a g := rfl
@[simp] theorem State.wr_sense (s : State) (a : Nat) (v : Word) : (s.wr a v).sense = s.sense := rfl
@[simp] theorem State.setFld_sense (s : State) (a : Nat) (g : Fld) (v : Nat) : (s.setFld a g v).sense = s.sense := rfl
@[simp] theorem State.setFlag_sense (s : State) (a : Nat) (g : Fld) (v : Bool) : (s.setFlag a g v).sense = s.sense := rfl
@[simp] theorem State.setBit_sense (s : State) (a : Nat) (g : Fld) (v : Nat) (b : Bool) : (s.setBit a g v b).sense = s.sense := rfl
@[simp] theorem State.bump_sense (s : State) (a : Nat) (g : Fld) (v : Nat) : (s.bump a g v).sense = s.sense := rfl
@[simp] theorem State.wrNat_sense (s : State) (a v : Nat) : (s.wrNat a v).sense = s.sense := rfl
@[simp] theorem State.setSense_lv (s : State) (v) (a : Nat) : (s.setSense v).lv a = s.lv a := rfl
@[simp] theorem State.setSense_lfld (s : State) (v) (a : Nat) (g : Fld) : (s.setSense v).lfld a g = s.lfld a g := rfl
@[simp] theorem State.wrLive_sense (s : State) (a : Nat) (v : Word) : (s.wrLive a v).sense = s.sense := rfl
@[simp] theorem State.line_sense (s : State) (b l : Nat) : (s.line b l).sense = s.sense := rfl
@[simp] theorem State.setCtx_sense (s : State) (k : Nat) (x) : (s.setCtx k x).sense = s.sense := rfl
@[simp] theorem State.note_sense (s : State) (b c k : Nat) : (s.note b c k).sense = s.sense := (State.note_moves ..).rest .sense rfl
@[simp] theorem State.contain_sense (s : State) (b c k : Nat) (d) : (s.contain b c k d).sense = s.sense := (State.contain_moves ..).rest .sense rfl
@[simp] theorem State.emit_sense (s : State) (m) : (s.emit m).sense = s.sense := rfl
@[simp] theorem State.took_sense (s : State) : s.took.sense = s.sense := rfl
@[simp] theorem State.putBytes_sense (s : State) (a : Nat) (l) : (s.putBytes a l).sense = s.sense := rfl
@[simp] theorem State.setHs_rd (s : State) (v) (a : Nat) : (s.setHs v).rd a = s.rd a := rfl
@[simp] theorem State.setHs_fld (s : State) (v) (a : Nat) (g : Fld) : (s.setHs v).fld a g = s.fld a g := rfl
@[simp] theorem State.setHs_flag (s : State) (v) (a : Nat) (g : Fld) : (s.setHs v).flag a g = s.flag a g := rfl
@[simp] theorem State.wr_hs (s : State) (a : Nat) (v : Word) : (s.wr a v).hs = s.hs := rfl
@[simp] theorem State.setFld_hs (s : State) (a : Nat) (g : Fld) (v : Nat) : (s.setFld a g v).hs = s.hs := rfl
@[simp] theorem State.setFlag_hs (s : State) (a : Nat) (g : Fld) (v : Bool) : (s.setFlag a g v).hs = s.hs := rfl
@[simp] theorem State.setBit_hs (s : State) (a : Nat) (g : Fld) (v : Nat) (b : Bool) : (s.setBit a g v b).hs = s.hs := rfl
@[simp] theorem State.bump_hs (s : State) (a : Nat) (g : Fld) (v : Nat) : (s.bump a g v).hs = s.hs := rfl
@[simp] theorem State.wrNat_hs (s : State) (a v : Nat) : (s.wrNat a v).hs = s.hs := rfl
@[simp] theorem State.setHs_lv (s : State) (v) (a : Nat) : (s.setHs v).lv a = s.lv a := rfl
@[simp] theorem State.setHs_lfld (s : State) (v) (a : Nat) (g : Fld) : (s.setHs v).lfld a g = s.lfld a g := rfl
@[simp] theorem State.wrLive_hs (s : State) (a : Nat) (v : Word) : (s.wrLive a v).hs = s.hs := rfl
@[simp] theorem State.line_hs (s : State) (b l : Nat) : (s.line b l).hs = s.hs := rfl
@[simp] theorem State.setCtx_hs (s : State) (k : Nat) (x) : (s.setCtx k x).hs = s.hs := rfl
@[simp] theorem State.note_hs (s : State) (b c k : Nat) : (s.note b c k).hs = s.hs := (State.note_moves ..).rest .hs rfl
@[simp] theorem State.contain_hs (s : State) (b c k : Nat) (d) : (s.contain b c k d).hs = s.hs := (State.contain_moves ..).rest .hs rfl
@[simp] theorem State.emit_hs (s : State) (m) : (s.emit m).hs = s.hs := rfl
@[simp] theorem State.took_hs (s : State) : s.took.hs = s.hs := rfl
@[simp] theorem State.putBytes_hs (s : State) (a : Nat) (l) : (s.putBytes a l).hs = s.hs := rfl
@[simp] theorem State.setSal_rd (s : State) (v) (a : Nat) : (s.setSal v).rd a = s.rd a := rfl
@[simp] theorem State.setSal_fld (s : State) (v) (a : Nat) (g : Fld) : (s.setSal v).fld a g = s.fld a g := rfl
@[simp] theorem State.setSal_flag (s : State) (v) (a : Nat) (g : Fld) : (s.setSal v).flag a g = s.flag a g := rfl
@[simp] theorem State.wr_sal (s : State) (a : Nat) (v : Word) : (s.wr a v).sal = s.sal := rfl
@[simp] theorem State.setFld_sal (s : State) (a : Nat) (g : Fld) (v : Nat) : (s.setFld a g v).sal = s.sal := rfl
@[simp] theorem State.setFlag_sal (s : State) (a : Nat) (g : Fld) (v : Bool) : (s.setFlag a g v).sal = s.sal := rfl
@[simp] theorem State.setBit_sal (s : State) (a : Nat) (g : Fld) (v : Nat) (b : Bool) : (s.setBit a g v b).sal = s.sal := rfl
@[simp] theorem State.bump_sal (s : State) (a : Nat) (g : Fld) (v : Nat) : (s.bump a g v).sal = s.sal := rfl
@[simp] theorem State.wrNat_sal (s : State) (a v : Nat) : (s.wrNat a v).sal = s.sal := rfl
@[simp] theorem State.setSal_lv (s : State) (v) (a : Nat) : (s.setSal v).lv a = s.lv a := rfl
@[simp] theorem State.setSal_lfld (s : State) (v) (a : Nat) (g : Fld) : (s.setSal v).lfld a g = s.lfld a g := rfl
@[simp] theorem State.wrLive_sal (s : State) (a : Nat) (v : Word) : (s.wrLive a v).sal = s.sal := rfl
@[simp] theorem State.line_sal (s : State) (b l : Nat) : (s.line b l).sal = s.sal := rfl
@[simp] theorem State.setCtx_sal (s : State) (k : Nat) (x) : (s.setCtx k x).sal = s.sal := rfl
@[simp] theorem State.note_sal (s : State) (b c k : Nat) : (s.note b c k).sal = s.sal := (State.note_moves ..).rest .sal rfl
@[simp] theorem State.contain_sal (s : State) (b c k : Nat) (d) : (s.contain b c k d).sal = s.sal := (State.contain_moves ..).rest .sal rfl
@[simp] theorem State.emit_sal (s : State) (m) : (s.emit m).sal = s.sal := rfl
@[simp] theorem State.took_sal (s : State) : s.took.sal = s.sal := rfl
@[simp] theorem State.putBytes_sal (s : State) (a : Nat) (l) : (s.putBytes a l).sal = s.sal := rfl
@[simp] theorem State.setZw_rd (s : State) (v) (a : Nat) : (s.setZw v).rd a = s.rd a := rfl
@[simp] theorem State.setZw_fld (s : State) (v) (a : Nat) (g : Fld) : (s.setZw v).fld a g = s.fld a g := rfl
@[simp] theorem State.setZw_flag (s : State) (v) (a : Nat) (g : Fld) : (s.setZw v).flag a g = s.flag a g := rfl
@[simp] theorem State.wr_zw (s : State) (a : Nat) (v : Word) : (s.wr a v).zw = s.zw := rfl
@[simp] theorem State.setFld_zw (s : State) (a : Nat) (g : Fld) (v : Nat) : (s.setFld a g v).zw = s.zw := rfl
@[simp] theorem State.setFlag_zw (s : State) (a : Nat) (g : Fld) (v : Bool) : (s.setFlag a g v).zw = s.zw := rfl
@[simp] theorem State.setBit_zw (s : State) (a : Nat) (g : Fld) (v : Nat) (b : Bool) : (s.setBit a g v b).zw = s.zw := rfl
@[simp] theorem State.bump_zw (s : State) (a : Nat) (g : Fld) (v : Nat) : (s.bump a g v).zw = s.zw := rfl
@[simp] theorem State.wrNat_zw (s : State) (a v : Nat) : (s.wrNat a v).zw = s.zw := rfl
@[simp] theorem State.setZw_lv (s : State) (v) (a : Nat) : (s.setZw v).lv a = s.lv a := rfl
@[simp] theorem State.setZw_lfld (s : State) (v) (a : Nat) (g : Fld) : (s.setZw v).lfld a g = s.lfld a g := rfl
@[simp] theorem State.wrLive_zw (s : State) (a : Nat) (v : Word) : (s.wrLive a v).zw = s.zw := rfl
@[simp] theorem State.line_zw (s : State) (b l : Nat) : (s.line b l).zw = s.zw := rfl
@[simp] theorem State.setCtx_zw (s : State) (k : Nat) (x) : (s.setCtx k x).zw = s.zw := rfl
@[simp] theorem State.note_zw (s : State) (b c k : Nat) : (s.note b c k).zw = s.zw := (State.note_moves ..).rest .zw rfl
@[simp] theorem State.contain_zw (s : State) (b c k : Nat) (d) : (s.contain b c k d).zw = s.zw := (State.contain_moves ..).rest .zw rfl
@[simp] theorem State.emit_zw (s : State) (m) : (s.emit m).zw = s.zw := rfl
@[simp] theorem State.took_zw (s : State) : s.took.zw = s.zw := rfl
@[simp] theorem State.putBytes_zw (s : State) (a : Nat) (l) : (s.putBytes a l).zw = s.zw := rfl
@[simp] theorem State.setGrid_rd (s : State) (v) (a : Nat) : (s.setGrid v).rd a = s.rd a := rfl
@[simp] theorem State.setGrid_fld (s : State) (v) (a : Nat) (g : Fld) : (s.setGrid v).fld a g = s.fld a g := rfl
@[simp] theorem State.setGrid_flag (s : State) (v) (a : Nat) (g : Fld) : (s.setGrid v).flag a g = s.flag a g := rfl
@[simp] theorem State.wr_grid (s : State) (a : Nat) (v : Word) : (s.wr a v).grid = s.grid := rfl
@[simp] theorem State.setFld_grid (s : State) (a : Nat) (g : Fld) (v : Nat) : (s.setFld a g v).grid = s.grid := rfl
@[simp] theorem State.setFlag_grid (s : State) (a : Nat) (g : Fld) (v : Bool) : (s.setFlag a g v).grid = s.grid := rfl
@[simp] theorem State.setBit_grid (s : State) (a : Nat) (g : Fld) (v : Nat) (b : Bool) : (s.setBit a g v b).grid = s.grid := rfl
@[simp] theorem State.bump_grid (s : State) (a : Nat) (g : Fld) (v : Nat) : (s.bump a g v).grid = s.grid := rfl
@[simp] theorem State.wrNat_grid (s : State) (a v : Nat) : (s.wrNat a v).grid = s.grid := rfl
@[simp] theorem State.setGrid_lv (s : State) (v) (a : Nat) : (s.setGrid v).lv a = s.lv a := rfl
@[simp] theorem State.setGrid_lfld (s : State) (v) (a : Nat) (g : Fld) : (s.setGrid v).lfld a g = s.lfld a g := rfl
@[simp] theorem State.wrLive_grid (s : State) (a : Nat) (v : Word) : (s.wrLive a v).grid = s.grid := rfl
@[simp] theorem State.line_grid (s : State) (b l : Nat) : (s.line b l).grid = s.grid := rfl
@[simp] theorem State.setCtx_grid (s : State) (k : Nat) (x) : (s.setCtx k x).grid = s.grid := rfl
@[simp] theorem State.note_grid (s : State) (b c k : Nat) : (s.note b c k).grid = s.grid := (State.note_moves ..).rest .grid rfl
@[simp] theorem State.contain_grid (s : State) (b c k : Nat) (d) : (s.contain b c k d).grid = s.grid := (State.contain_moves ..).rest .grid rfl
@[simp] theorem State.emit_grid (s : State) (m) : (s.emit m).grid = s.grid := rfl
@[simp] theorem State.took_grid (s : State) : s.took.grid = s.grid := rfl
@[simp] theorem State.putBytes_grid (s : State) (a : Nat) (l) : (s.putBytes a l).grid = s.grid := rfl
@[simp] theorem State.setKs_rd (s : State) (v) (a : Nat) : (s.setKs v).rd a = s.rd a := rfl
@[simp] theorem State.setKs_fld (s : State) (v) (a : Nat) (g : Fld) : (s.setKs v).fld a g = s.fld a g := rfl
@[simp] theorem State.setKs_flag (s : State) (v) (a : Nat) (g : Fld) : (s.setKs v).flag a g = s.flag a g := rfl
@[simp] theorem State.wr_ks (s : State) (a : Nat) (v : Word) : (s.wr a v).ks = s.ks := rfl
@[simp] theorem State.setFld_ks (s : State) (a : Nat) (g : Fld) (v : Nat) : (s.setFld a g v).ks = s.ks := rfl
@[simp] theorem State.setFlag_ks (s : State) (a : Nat) (g : Fld) (v : Bool) : (s.setFlag a g v).ks = s.ks := rfl
@[simp] theorem State.setBit_ks (s : State) (a : Nat) (g : Fld) (v : Nat) (b : Bool) : (s.setBit a g v b).ks = s.ks := rfl
@[simp] theorem State.bump_ks (s : State) (a : Nat) (g : Fld) (v : Nat) : (s.bump a g v).ks = s.ks := rfl
@[simp] theorem State.wrNat_ks (s : State) (a v : Nat) : (s.wrNat a v).ks = s.ks := rfl
@[simp] theorem State.setKs_lv (s : State) (v) (a : Nat) : (s.setKs v).lv a = s.lv a := rfl
@[simp] theorem State.setKs_lfld (s : State) (v) (a : Nat) (g : Fld) : (s.setKs v).lfld a g = s.lfld a g := rfl
@[simp] theorem State.wrLive_ks (s : State) (a : Nat) (v : Word) : (s.wrLive a v).ks = s.ks := rfl
@[simp] theorem State.line_ks (s : State) (b l : Nat) : (s.line b l).ks = s.ks := rfl
@[simp] theorem State.setCtx_ks (s : State) (k : Nat) (x) : (s.setCtx k x).ks = s.ks := rfl
@[simp] theorem State.note_ks (s : State) (b c k : Nat) : (s.note b c k).ks = s.ks := (State.note_moves ..).rest .ks rfl
@[simp] theorem State.contain_ks (s : State) (b c k : Nat) (d) : (s.contain b c k d).ks = s.ks := (State.contain_moves ..).rest .ks rfl
@[simp] theorem State.emit_ks (s : State) (m) : (s.emit m).ks = s.ks := rfl
@[simp] theorem State.took_ks (s : State) : s.took.ks = s.ks := rfl
@[simp] theorem State.putBytes_ks (s : State) (a : Nat) (l) : (s.putBytes a l).ks = s.ks := rfl
@[simp] theorem State.setLinks_rd (s : State) (v) (a : Nat) : (s.setLinks v).rd a = s.rd a := rfl
@[simp] theorem State.setLinks_fld (s : State) (v) (a : Nat) (g : Fld) : (s.setLinks v).fld a g = s.fld a g := rfl
@[simp] theorem State.setLinks_flag (s : State) (v) (a : Nat) (g : Fld) : (s.setLinks v).flag a g = s.flag a g := rfl
@[simp] theorem State.wr_links (s : State) (a : Nat) (v : Word) : (s.wr a v).links = s.links := rfl
@[simp] theorem State.setFld_links (s : State) (a : Nat) (g : Fld) (v : Nat) : (s.setFld a g v).links = s.links := rfl
@[simp] theorem State.setFlag_links (s : State) (a : Nat) (g : Fld) (v : Bool) : (s.setFlag a g v).links = s.links := rfl
@[simp] theorem State.setBit_links (s : State) (a : Nat) (g : Fld) (v : Nat) (b : Bool) : (s.setBit a g v b).links = s.links := rfl
@[simp] theorem State.bump_links (s : State) (a : Nat) (g : Fld) (v : Nat) : (s.bump a g v).links = s.links := rfl
@[simp] theorem State.wrNat_links (s : State) (a v : Nat) : (s.wrNat a v).links = s.links := rfl
@[simp] theorem State.setLinks_lv (s : State) (v) (a : Nat) : (s.setLinks v).lv a = s.lv a := rfl
@[simp] theorem State.setLinks_lfld (s : State) (v) (a : Nat) (g : Fld) : (s.setLinks v).lfld a g = s.lfld a g := rfl
@[simp] theorem State.wrLive_links (s : State) (a : Nat) (v : Word) : (s.wrLive a v).links = s.links := rfl
@[simp] theorem State.line_links (s : State) (b l : Nat) : (s.line b l).links = s.links := rfl
@[simp] theorem State.setCtx_links (s : State) (k : Nat) (x) : (s.setCtx k x).links = s.links := rfl
@[simp] theorem State.note_links (s : State) (b c k : Nat) : (s.note b c k).links = s.links := (State.note_moves ..).rest .links rfl
@[simp] theorem State.contain_links (s : State) (b c k : Nat) (d) : (s.contain b c k d).links = s.links := (State.contain_moves ..).rest .links rfl
@[simp] theorem State.emit_links (s : State) (m) : (s.emit m).links = s.links := rfl
@[simp] theorem State.took_links (s : State) : s.took.links = s.links := rfl
@[simp] theorem State.putBytes_links (s : State) (a : Nat) (l) : (s.putBytes a l).links = s.links := rfl
@[simp] theorem State.setSes_rd (s : State) (v) (a : Nat) : (s.setSes v).rd a = s.rd a := rfl
@[simp] theorem State.setSes_fld (s : State) (v) (a : Nat) (g : Fld) : (s.setSes v).fld a g = s.fld a g := rfl
@[simp] theorem State.setSes_flag (s : State) (v) (a : Nat) (g : Fld) : (s.setSes v).flag a g = s.flag a g := rfl
@[simp] theorem State.wr_ses (s : State) (a : Nat) (v : Word) : (s.wr a v).ses = s.ses := rfl
@[simp] theorem State.setFld_ses (s : State) (a : Nat) (g : Fld) (v : Nat) : (s.setFld a g v).ses = s.ses := rfl
@[simp] theorem State.setFlag_ses (s : State) (a : Nat) (g : Fld) (v : Bool) : (s.setFlag a g v).ses = s.ses := rfl
@[simp] theorem State.setBit_ses (s : State) (a : Nat) (g : Fld) (v : Nat) (b : Bool) : (s.setBit a g v b).ses = s.ses := rfl
@[simp] theorem State.bump_ses (s : State) (a : Nat) (g : Fld) (v : Nat) : (s.bump a g v).ses = s.ses := rfl
@[simp] theorem State.wrNat_ses (s : State) (a v : Nat) : (s.wrNat a v).ses = s.ses := rfl
@[simp] theorem State.setSes_lv (s : State) (v) (a : Nat) : (s.setSes v).lv a = s.lv a := rfl
@[simp] theorem State.setSes_lfld (s : State) (v) (a : Nat) (g : Fld) : (s.setSes v).lfld a g = s.lfld a g := rfl
@[simp] theorem State.wrLive_ses (s : State) (a : Nat) (v : Word) : (s.wrLive a v).ses = s.ses := rfl
@[simp] theorem State.line_ses (s : State) (b l : Nat) : (s.line b l).ses = s.ses := rfl
@[simp] theorem State.setCtx_ses (s : State) (k : Nat) (x) : (s.setCtx k x).ses = s.ses := rfl
@[simp] theorem State.note_ses (s : State) (b c k : Nat) : (s.note b c k).ses = s.ses := (State.note_moves ..).rest .ses rfl
@[simp] theorem State.contain_ses (s : State) (b c k : Nat) (d) : (s.contain b c k d).ses = s.ses := (State.contain_moves ..).rest .ses rfl
@[simp] theorem State.emit_ses (s : State) (m) : (s.emit m).ses = s.ses := rfl
@[simp] theorem State.took_ses (s : State) : s.took.ses = s.ses := rfl
@[simp] theorem State.putBytes_ses (s : State) (a : Nat) (l) : (s.putBytes a l).ses = s.ses := rfl
@[simp] theorem State.setThermal_rd (s : State) (v) (a : Nat) : (s.setThermal v).rd a = s.rd a := rfl
@[simp] theorem State.setThermal_fld (s : State) (v) (a : Nat) (g : Fld) : (s.setThermal v).fld a g = s.fld a g := rfl
@[simp] theorem State.setThermal_flag (s : State) (v) (a : Nat) (g : Fld) : (s.setThermal v).flag a g = s.flag a g := rfl
@[simp] theorem State.wr_thermal (s : State) (a : Nat) (v : Word) : (s.wr a v).thermal = s.thermal := rfl
@[simp] theorem State.setFld_thermal (s : State) (a : Nat) (g : Fld) (v : Nat) : (s.setFld a g v).thermal = s.thermal := rfl
@[simp] theorem State.setFlag_thermal (s : State) (a : Nat) (g : Fld) (v : Bool) : (s.setFlag a g v).thermal = s.thermal := rfl
@[simp] theorem State.setBit_thermal (s : State) (a : Nat) (g : Fld) (v : Nat) (b : Bool) : (s.setBit a g v b).thermal = s.thermal := rfl
@[simp] theorem State.bump_thermal (s : State) (a : Nat) (g : Fld) (v : Nat) : (s.bump a g v).thermal = s.thermal := rfl
@[simp] theorem State.wrNat_thermal (s : State) (a v : Nat) : (s.wrNat a v).thermal = s.thermal := rfl
@[simp] theorem State.setThermal_lv (s : State) (v) (a : Nat) : (s.setThermal v).lv a = s.lv a := rfl
@[simp] theorem State.setThermal_lfld (s : State) (v) (a : Nat) (g : Fld) : (s.setThermal v).lfld a g = s.lfld a g := rfl
@[simp] theorem State.wrLive_thermal (s : State) (a : Nat) (v : Word) : (s.wrLive a v).thermal = s.thermal := rfl
@[simp] theorem State.line_thermal (s : State) (b l : Nat) : (s.line b l).thermal = s.thermal := rfl
@[simp] theorem State.setCtx_thermal (s : State) (k : Nat) (x) : (s.setCtx k x).thermal = s.thermal := rfl
@[simp] theorem State.note_thermal (s : State) (b c k : Nat) : (s.note b c k).thermal = s.thermal := (State.note_moves ..).rest .thermal rfl
@[simp] theorem State.contain_thermal (s : State) (b c k : Nat) (d) : (s.contain b c k d).thermal = s.thermal := (State.contain_moves ..).rest .thermal rfl
@[simp] theorem State.emit_thermal (s : State) (m) : (s.emit m).thermal = s.thermal := rfl
@[simp] theorem State.took_thermal (s : State) : s.took.thermal = s.thermal := rfl
@[simp] theorem State.putBytes_thermal (s : State) (a : Nat) (l) : (s.putBytes a l).thermal = s.thermal := rfl
@[simp] theorem State.setLedger_rd (s : State) (v) (a : Nat) : (s.setLedger v).rd a = s.rd a := rfl
@[simp] theorem State.setLedger_fld (s : State) (v) (a : Nat) (g : Fld) : (s.setLedger v).fld a g = s.fld a g := rfl
@[simp] theorem State.setLedger_flag (s : State) (v) (a : Nat) (g : Fld) : (s.setLedger v).flag a g = s.flag a g := rfl
@[simp] theorem State.wr_ledger (s : State) (a : Nat) (v : Word) : (s.wr a v).ledger = s.ledger := rfl
@[simp] theorem State.setFld_ledger (s : State) (a : Nat) (g : Fld) (v : Nat) : (s.setFld a g v).ledger = s.ledger := rfl
@[simp] theorem State.setFlag_ledger (s : State) (a : Nat) (g : Fld) (v : Bool) : (s.setFlag a g v).ledger = s.ledger := rfl
@[simp] theorem State.setBit_ledger (s : State) (a : Nat) (g : Fld) (v : Nat) (b : Bool) : (s.setBit a g v b).ledger = s.ledger := rfl
@[simp] theorem State.bump_ledger (s : State) (a : Nat) (g : Fld) (v : Nat) : (s.bump a g v).ledger = s.ledger := rfl
@[simp] theorem State.wrNat_ledger (s : State) (a v : Nat) : (s.wrNat a v).ledger = s.ledger := rfl
@[simp] theorem State.setLedger_lv (s : State) (v) (a : Nat) : (s.setLedger v).lv a = s.lv a := rfl
@[simp] theorem State.setLedger_lfld (s : State) (v) (a : Nat) (g : Fld) : (s.setLedger v).lfld a g = s.lfld a g := rfl
@[simp] theorem State.wrLive_ledger (s : State) (a : Nat) (v : Word) : (s.wrLive a v).ledger = s.ledger := rfl
@[simp] theorem State.line_ledger (s : State) (b l : Nat) : (s.line b l).ledger = s.ledger := rfl
@[simp] theorem State.setCtx_ledger (s : State) (k : Nat) (x) : (s.setCtx k x).ledger = s.ledger := rfl
@[simp] theorem State.note_ledger (s : State) (b c k : Nat) : (s.note b c k).ledger = s.ledger := (State.note_moves ..).rest .ledger rfl
@[simp] theorem State.contain_ledger (s : State) (b c k : Nat) (d) : (s.contain b c k d).ledger = s.ledger := (State.contain_moves ..).rest .ledger rfl
@[simp] theorem State.emit_ledger (s : State) (m) : (s.emit m).ledger = s.ledger := rfl
@[simp] theorem State.took_ledger (s : State) : s.took.ledger = s.ledger := rfl
@[simp] theorem State.putBytes_ledger (s : State) (a : Nat) (l) : (s.putBytes a l).ledger = s.ledger := rfl
@[simp] theorem State.setBrine_rd (s : State) (v) (a : Nat) : (s.setBrine v).rd a = s.rd a := rfl
@[simp] theorem State.setBrine_fld (s : State) (v) (a : Nat) (g : Fld) : (s.setBrine v).fld a g = s.fld a g := rfl
@[simp] theorem State.setBrine_flag (s : State) (v) (a : Nat) (g : Fld) : (s.setBrine v).flag a g = s.flag a g := rfl
@[simp] theorem State.wr_brine (s : State) (a : Nat) (v : Word) : (s.wr a v).brine = s.brine := rfl
@[simp] theorem State.setFld_brine (s : State) (a : Nat) (g : Fld) (v : Nat) : (s.setFld a g v).brine = s.brine := rfl
@[simp] theorem State.setFlag_brine (s : State) (a : Nat) (g : Fld) (v : Bool) : (s.setFlag a g v).brine = s.brine := rfl
@[simp] theorem State.setBit_brine (s : State) (a : Nat) (g : Fld) (v : Nat) (b : Bool) : (s.setBit a g v b).brine = s.brine := rfl
@[simp] theorem State.bump_brine (s : State) (a : Nat) (g : Fld) (v : Nat) : (s.bump a g v).brine = s.brine := rfl
@[simp] theorem State.wrNat_brine (s : State) (a v : Nat) : (s.wrNat a v).brine = s.brine := rfl
@[simp] theorem State.setBrine_lv (s : State) (v) (a : Nat) : (s.setBrine v).lv a = s.lv a := rfl
@[simp] theorem State.setBrine_lfld (s : State) (v) (a : Nat) (g : Fld) : (s.setBrine v).lfld a g = s.lfld a g := rfl
@[simp] theorem State.wrLive_brine (s : State) (a : Nat) (v : Word) : (s.wrLive a v).brine = s.brine := rfl
@[simp] theorem State.line_brine (s : State) (b l : Nat) : (s.line b l).brine = s.brine := rfl
@[simp] theorem State.setCtx_brine (s : State) (k : Nat) (x) : (s.setCtx k x).brine = s.brine := rfl
@[simp] theorem State.note_brine (s : State) (b c k : Nat) : (s.note b c k).brine = s.brine := (State.note_moves ..).rest .brine rfl
@[simp] theorem State.contain_brine (s : State) (b c k : Nat) (d) : (s.contain b c k d).brine = s.brine := (State.contain_moves ..).rest .brine rfl
@[simp] theorem State.emit_brine (s : State) (m) : (s.emit m).brine = s.brine := rfl
@[simp] theorem State.took_brine (s : State) : s.took.brine = s.brine := rfl
@[simp] theorem State.putBytes_brine (s : State) (a : Nat) (l) : (s.putBytes a l).brine = s.brine := rfl
@[simp] theorem State.setCan_rd (s : State) (v) (a : Nat) : (s.setCan v).rd a = s.rd a := rfl
@[simp] theorem State.setCan_fld (s : State) (v) (a : Nat) (g : Fld) : (s.setCan v).fld a g = s.fld a g := rfl
@[simp] theorem State.setCan_flag (s : State) (v) (a : Nat) (g : Fld) : (s.setCan v).flag a g = s.flag a g := rfl
@[simp] theorem State.wr_can (s : State) (a : Nat) (v : Word) : (s.wr a v).can = s.can := rfl
@[simp] theorem State.setFld_can (s : State) (a : Nat) (g : Fld) (v : Nat) : (s.setFld a g v).can = s.can := rfl
@[simp] theorem State.setFlag_can (s : State) (a : Nat) (g : Fld) (v : Bool) : (s.setFlag a g v).can = s.can := rfl
@[simp] theorem State.setBit_can (s : State) (a : Nat) (g : Fld) (v : Nat) (b : Bool) : (s.setBit a g v b).can = s.can := rfl
@[simp] theorem State.bump_can (s : State) (a : Nat) (g : Fld) (v : Nat) : (s.bump a g v).can = s.can := rfl
@[simp] theorem State.wrNat_can (s : State) (a v : Nat) : (s.wrNat a v).can = s.can := rfl
@[simp] theorem State.setCan_lv (s : State) (v) (a : Nat) : (s.setCan v).lv a = s.lv a := rfl
@[simp] theorem State.setCan_lfld (s : State) (v) (a : Nat) (g : Fld) : (s.setCan v).lfld a g = s.lfld a g := rfl
@[simp] theorem State.wrLive_can (s : State) (a : Nat) (v : Word) : (s.wrLive a v).can = s.can := rfl
@[simp] theorem State.line_can (s : State) (b l : Nat) : (s.line b l).can = s.can := rfl
@[simp] theorem State.setCtx_can (s : State) (k : Nat) (x) : (s.setCtx k x).can = s.can := rfl
@[simp] theorem State.note_can (s : State) (b c k : Nat) : (s.note b c k).can = s.can := (State.note_moves ..).rest .can rfl
@[simp] theorem State.contain_can (s : State) (b c k : Nat) (d) : (s.contain b c k d).can = s.can := (State.contain_moves ..).rest .can rfl
@[simp] theorem State.emit_can (s : State) (m) : (s.emit m).can = s.can := rfl
@[simp] theorem State.took_can (s : State) : s.took.can = s.can := rfl
@[simp] theorem State.putBytes_can (s : State) (a : Nat) (l) : (s.putBytes a l).can = s.can := rfl
@[simp] theorem State.setOut_rd (s : State) (v) (a : Nat) : (s.setOut v).rd a = s.rd a := rfl
@[simp] theorem State.setOut_fld (s : State) (v) (a : Nat) (g : Fld) : (s.setOut v).fld a g = s.fld a g := rfl
@[simp] theorem State.setOut_flag (s : State) (v) (a : Nat) (g : Fld) : (s.setOut v).flag a g = s.flag a g := rfl
@[simp] theorem State.wr_out (s : State) (a : Nat) (v : Word) : (s.wr a v).out = s.out := rfl
@[simp] theorem State.setFld_out (s : State) (a : Nat) (g : Fld) (v : Nat) : (s.setFld a g v).out = s.out := rfl
@[simp] theorem State.setFlag_out (s : State) (a : Nat) (g : Fld) (v : Bool) : (s.setFlag a g v).out = s.out := rfl
@[simp] theorem State.setBit_out (s : State) (a : Nat) (g : Fld) (v : Nat) (b : Bool) : (s.setBit a g v b).out = s.out := rfl
@[simp] theorem State.bump_out (s : State) (a : Nat) (g : Fld) (v : Nat) : (s.bump a g v).out = s.out := rfl
@[simp] theorem State.wrNat_out (s : State) (a v : Nat) : (s.wrNat a v).out = s.out := rfl
@[simp] theorem State.setOut_lv (s : State) (v) (a : Nat) : (s.setOut v).lv a = s.lv a := rfl
@[simp] theorem State.setOut_lfld (s : State) (v) (a : Nat) (g : Fld) : (s.setOut v).lfld a g = s.lfld a g := rfl
@[simp] theorem State.wrLive_out (s : State) (a : Nat) (v : Word) : (s.wrLive a v).out = s.out := rfl
@[simp] theorem State.line_out (s : State) (b l : Nat) : (s.line b l).out = s.out := rfl
@[simp] theorem State.setCtx_out (s : State) (k : Nat) (x) : (s.setCtx k x).out = s.out := rfl
@[simp] theorem State.note_out (s : State) (b c k : Nat) : (s.note b c k).out = s.out := (State.note_moves ..).rest .out rfl
@[simp] theorem State.contain_out (s : State) (b c k : Nat) (d) : (s.contain b c k d).out = s.out := (State.contain_moves ..).rest .out rfl
@[simp] theorem State.took_out (s : State) : s.took.out = s.out := rfl
@[simp] theorem State.putBytes_out (s : State) (a : Nat) (l) : (s.putBytes a l).out = s.out := rfl
@[simp] theorem State.setFree_rd (s : State) (v) (a : Nat) : (s.setFree v).rd a = s.rd a := rfl
@[simp] theorem State.setFree_fld (s : State) (v) (a : Nat) (g : Fld) : (s.setFree v).fld a g = s.fld a g := rfl
@[simp] theorem State.setFree_flag (s : State) (v) (a : Nat) (g : Fld) : (s.setFree v).flag a g = s.flag a g := rfl
@[simp] theorem State.wr_free (s : State) (a : Nat) (v : Word) : (s.wr a v).free = s.free := rfl
@[simp] theorem State.setFld_free (s : State) (a : Nat) (g : Fld) (v : Nat) : (s.setFld a g v).free = s.free := rfl
@[simp] theorem State.setFlag_free (s : State) (a : Nat) (g : Fld) (v : Bool) : (s.setFlag a g v).free = s.free := rfl
@[simp] theorem State.setBit_free (s : State) (a : Nat) (g : Fld) (v : Nat) (b : Bool) : (s.setBit a g v b).free = s.free := rfl
@[simp] theorem State.bump_free (s : State) (a : Nat) (g : Fld) (v : Nat) : (s.bump a g v).free = s.free := rfl
@[simp] theorem State.wrNat_free (s : State) (a v : Nat) : (s.wrNat a v).free = s.free := rfl
@[simp] theorem State.setFree_lv (s : State) (v) (a : Nat) : (s.setFree v).lv a = s.lv a := rfl
@[simp] theorem State.setFree_lfld (s : State) (v) (a : Nat) (g : Fld) : (s.setFree v).lfld a g = s.lfld a g := rfl
@[simp] theorem State.wrLive_free (s : State) (a : Nat) (v : Word) : (s.wrLive a v).free = s.free := rfl
@[simp] theorem State.line_free (s : State) (b l : Nat) : (s.line b l).free = s.free := rfl
@[simp] theorem State.setCtx_free (s : State) (k : Nat) (x) : (s.setCtx k x).free = s.free := rfl
@[simp] theorem State.note_free (s : State) (b c k : Nat) : (s.note b c k).free = s.free := (State.note_moves ..).rest .free rfl
@[simp] theorem State.contain_free (s : State) (b c k : Nat) (d) : (s.contain b c k d).free = s.free := (State.contain_moves ..).rest .free rfl
@[simp] theorem State.emit_free (s : State) (m) : (s.emit m).free = s.free := rfl
@[simp] theorem State.putBytes_free (s : State) (a : Nat) (l) : (s.putBytes a l).free = s.free := rfl

/-! Contexts, records and blocks -/

@[simp] theorem State.ctx_setCtx_same (s : State) (k : Nat) (x : Context) : (s.setCtx k x).ctx k = x := Tab.get_set_same _ _ _

theorem State.ctx_setCtx_ne (s : State) {k j : Nat} (x : Context) (h : j ≠ k) : (s.setCtx k x).ctx j = s.ctx j :=
  Tab.get_set_ne _ _ h

@[simp] theorem State.blkRec_setBlkRec_same (s : State) (b : Nat) (v : BlkRec) : (s.setBlkRec b v).blkRec b = v :=
  Tab.get_set_same _ _ _

@[simp] theorem State.regRec_setRegRec_same (s : State) (r : Nat) (v : RegRec) : (s.setRegRec r v).regRec r = v :=
  Tab.get_set_same _ _ _

/-- A block that is up acts. -/
theorem State.onBlk_up {s : State} {b : BlockId} {f : State → State} (h : s.up (blkNum b) = true) : s.onBlk b f = f s := by
  simp [State.onBlk, h]

end Sys2Proof.Machine
end

