-- ==== Sys2Proof/Laws/State.lean ====
section
/-!
SUPPORT. Laws/State.lean: each field of a state after the update of each field, once and for all.
-/
set_option Elab.async false
namespace Sys2Proof.Machine

@[simp] theorem State.setNow_now (s : State) (v) : (s.setNow v).now = v := rfl
@[simp] theorem State.setNow_pending (s : State) (v) : (s.setNow v).pending = s.pending := rfl
@[simp] theorem State.setNow_regs (s : State) (v) : (s.setNow v).regs = s.regs := rfl
@[simp] theorem State.setNow_live (s : State) (v) : (s.setNow v).live = s.live := rfl
@[simp] theorem State.setNow_mem (s : State) (v) : (s.setNow v).mem = s.mem := rfl
@[simp] theorem State.setNow_ecc (s : State) (v) : (s.setNow v).ecc = s.ecc := rfl
@[simp] theorem State.setNow_ladder (s : State) (v) : (s.setNow v).ladder = s.ladder := rfl
@[simp] theorem State.setNow_fabric (s : State) (v) : (s.setNow v).fabric = s.fabric := rfl
@[simp] theorem State.setNow_weft (s : State) (v) : (s.setNow v).weft = s.weft := rfl
@[simp] theorem State.setNow_power (s : State) (v) : (s.setNow v).power = s.power := rfl
@[simp] theorem State.setNow_startup (s : State) (v) : (s.setNow v).startup = s.startup := rfl
@[simp] theorem State.setNow_time (s : State) (v) : (s.setNow v).time = s.time := rfl
@[simp] theorem State.setNow_selv (s : State) (v) : (s.setNow v).selv = s.selv := rfl
@[simp] theorem State.setNow_loom (s : State) (v) : (s.setNow v).loom = s.loom := rfl
@[simp] theorem State.setNow_twill (s : State) (v) : (s.setNow v).twill = s.twill := rfl
@[simp] theorem State.setNow_sense (s : State) (v) : (s.setNow v).sense = s.sense := rfl
@[simp] theorem State.setNow_hs (s : State) (v) : (s.setNow v).hs = s.hs := rfl
@[simp] theorem State.setNow_sal (s : State) (v) : (s.setNow v).sal = s.sal := rfl
@[simp] theorem State.setNow_zw (s : State) (v) : (s.setNow v).zw = s.zw := rfl
@[simp] theorem State.setNow_grid (s : State) (v) : (s.setNow v).grid = s.grid := rfl
@[simp] theorem State.setNow_ks (s : State) (v) : (s.setNow v).ks = s.ks := rfl
@[simp] theorem State.setNow_links (s : State) (v) : (s.setNow v).links = s.links := rfl
@[simp] theorem State.setNow_ses (s : State) (v) : (s.setNow v).ses = s.ses := rfl
@[simp] theorem State.setNow_thermal (s : State) (v) : (s.setNow v).thermal = s.thermal := rfl
@[simp] theorem State.setNow_ledger (s : State) (v) : (s.setNow v).ledger = s.ledger := rfl
@[simp] theorem State.setNow_brine (s : State) (v) : (s.setNow v).brine = s.brine := rfl
@[simp] theorem State.setNow_can (s : State) (v) : (s.setNow v).can = s.can := rfl
@[simp] theorem State.setNow_out (s : State) (v) : (s.setNow v).out = s.out := rfl
@[simp] theorem State.setNow_free (s : State) (v) : (s.setNow v).free = s.free := rfl
@[simp] theorem State.setPending_now (s : State) (v) : (s.setPending v).now = s.now := rfl
@[simp] theorem State.setPending_pending (s : State) (v) : (s.setPending v).pending = v := rfl
@[simp] theorem State.setPending_regs (s : State) (v) : (s.setPending v).regs = s.regs := rfl
@[simp] theorem State.setPending_live (s : State) (v) : (s.setPending v).live = s.live := rfl
@[simp] theorem State.setPending_mem (s : State) (v) : (s.setPending v).mem = s.mem := rfl
@[simp] theorem State.setPending_ecc (s : State) (v) : (s.setPending v).ecc = s.ecc := rfl
@[simp] theorem State.setPending_ladder (s : State) (v) : (s.setPending v).ladder = s.ladder := rfl
@[simp] theorem State.setPending_fabric (s : State) (v) : (s.setPending v).fabric = s.fabric := rfl
@[simp] theorem State.setPending_weft (s : State) (v) : (s.setPending v).weft = s.weft := rfl
@[simp] theorem State.setPending_power (s : State) (v) : (s.setPending v).power = s.power := rfl
@[simp] theorem State.setPending_startup (s : State) (v) : (s.setPending v).startup = s.startup := rfl
@[simp] theorem State.setPending_time (s : State) (v) : (s.setPending v).time = s.time := rfl
@[simp] theorem State.setPending_selv (s : State) (v) : (s.setPending v).selv = s.selv := rfl
@[simp] theorem State.setPending_loom (s : State) (v) : (s.setPending v).loom = s.loom := rfl
@[simp] theorem State.setPending_twill (s : State) (v) : (s.setPending v).twill = s.twill := rfl
@[simp] theorem State.setPending_sense (s : State) (v) : (s.setPending v).sense = s.sense := rfl
@[simp] theorem State.setPending_hs (s : State) (v) : (s.setPending v).hs = s.hs := rfl
@[simp] theorem State.setPending_sal (s : State) (v) : (s.setPending v).sal = s.sal := rfl
@[simp] theorem State.setPending_zw (s : State) (v) : (s.setPending v).zw = s.zw := rfl
@[simp] theorem State.setPending_grid (s : State) (v) : (s.setPending v).grid = s.grid := rfl
@[simp] theorem State.setPending_ks (s : State) (v) : (s.setPending v).ks = s.ks := rfl
@[simp] theorem State.setPending_links (s : State) (v) : (s.setPending v).links = s.links := rfl
@[simp] theorem State.setPending_ses (s : State) (v) : (s.setPending v).ses = s.ses := rfl
@[simp] theorem State.setPending_thermal (s : State) (v) : (s.setPending v).thermal = s.thermal := rfl
@[simp] theorem State.setPending_ledger (s : State) (v) : (s.setPending v).ledger = s.ledger := rfl
@[simp] theorem State.setPending_brine (s : State) (v) : (s.setPending v).brine = s.brine := rfl
@[simp] theorem State.setPending_can (s : State) (v) : (s.setPending v).can = s.can := rfl
@[simp] theorem State.setPending_out (s : State) (v) : (s.setPending v).out = s.out := rfl
@[simp] theorem State.setPending_free (s : State) (v) : (s.setPending v).free = s.free := rfl
@[simp] theorem State.setRegs_now (s : State) (v) : (s.setRegs v).now = s.now := rfl
@[simp] theorem State.setRegs_pending (s : State) (v) : (s.setRegs v).pending = s.pending := rfl
@[simp] theorem State.setRegs_regs (s : State) (v) : (s.setRegs v).regs = v := rfl
@[simp] theorem State.setRegs_live (s : State) (v) : (s.setRegs v).live = s.live := rfl
@[simp] theorem State.setRegs_mem (s : State) (v) : (s.setRegs v).mem = s.mem := rfl
@[simp] theorem State.setRegs_ecc (s : State) (v) : (s.setRegs v).ecc = s.ecc := rfl
@[simp] theorem State.setRegs_ladder (s : State) (v) : (s.setRegs v).ladder = s.ladder := rfl
@[simp] theorem State.setRegs_fabric (s : State) (v) : (s.setRegs v).fabric = s.fabric := rfl
@[simp] theorem State.setRegs_weft (s : State) (v) : (s.setRegs v).weft = s.weft := rfl
@[simp] theorem State.setRegs_power (s : State) (v) : (s.setRegs v).power = s.power := rfl
@[simp] theorem State.setRegs_startup (s : State) (v) : (s.setRegs v).startup = s.startup := rfl
@[simp] theorem State.setRegs_time (s : State) (v) : (s.setRegs v).time = s.time := rfl
@[simp] theorem State.setRegs_selv (s : State) (v) : (s.setRegs v).selv = s.selv := rfl
@[simp] theorem State.setRegs_loom (s : State) (v) : (s.setRegs v).loom = s.loom := rfl
@[simp] theorem State.setRegs_twill (s : State) (v) : (s.setRegs v).twill = s.twill := rfl
@[simp] theorem State.setRegs_sense (s : State) (v) : (s.setRegs v).sense = s.sense := rfl
@[simp] theorem State.setRegs_hs (s : State) (v) : (s.setRegs v).hs = s.hs := rfl
@[simp] theorem State.setRegs_sal (s : State) (v) : (s.setRegs v).sal = s.sal := rfl
@[simp] theorem State.setRegs_zw (s : State) (v) : (s.setRegs v).zw = s.zw := rfl
@[simp] theorem State.setRegs_grid (s : State) (v) : (s.setRegs v).grid = s.grid := rfl
@[simp] theorem State.setRegs_ks (s : State) (v) : (s.setRegs v).ks = s.ks := rfl
@[simp] theorem State.setRegs_links (s : State) (v) : (s.setRegs v).links = s.links := rfl
@[simp] theorem State.setRegs_ses (s : State) (v) : (s.setRegs v).ses = s.ses := rfl
@[simp] theorem State.setRegs_thermal (s : State) (v) : (s.setRegs v).thermal = s.thermal := rfl
@[simp] theorem State.setRegs_ledger (s : State) (v) : (s.setRegs v).ledger = s.ledger := rfl
@[simp] theorem State.setRegs_brine (s : State) (v) : (s.setRegs v).brine = s.brine := rfl
@[simp] theorem State.setRegs_can (s : State) (v) : (s.setRegs v).can = s.can := rfl
@[simp] theorem State.setRegs_out (s : State) (v) : (s.setRegs v).out = s.out := rfl
@[simp] theorem State.setRegs_free (s : State) (v) : (s.setRegs v).free = s.free := rfl
@[simp] theorem State.setLive_now (s : State) (v) : (s.setLive v).now = s.now := rfl
@[simp] theorem State.setLive_pending (s : State) (v) : (s.setLive v).pending = s.pending := rfl
@[simp] theorem State.setLive_regs (s : State) (v) : (s.setLive v).regs = s.regs := rfl
@[simp] theorem State.setLive_live (s : State) (v) : (s.setLive v).live = v := rfl
@[simp] theorem State.setLive_mem (s : State) (v) : (s.setLive v).mem = s.mem := rfl
@[simp] theorem State.setLive_ecc (s : State) (v) : (s.setLive v).ecc = s.ecc := rfl
@[simp] theorem State.setLive_ladder (s : State) (v) : (s.setLive v).ladder = s.ladder := rfl
@[simp] theorem State.setLive_fabric (s : State) (v) : (s.setLive v).fabric = s.fabric := rfl
@[simp] theorem State.setLive_weft (s : State) (v) : (s.setLive v).weft = s.weft := rfl
@[simp] theorem State.setLive_power (s : State) (v) : (s.setLive v).power = s.power := rfl
@[simp] theorem State.setLive_startup (s : State) (v) : (s.setLive v).startup = s.startup := rfl
@[simp] theorem State.setLive_time (s : State) (v) : (s.setLive v).time = s.time := rfl
@[simp] theorem State.setLive_selv (s : State) (v) : (s.setLive v).selv = s.selv := rfl
@[simp] theorem State.setLive_loom (s : State) (v) : (s.setLive v).loom = s.loom := rfl
@[simp] theorem State.setLive_twill (s : State) (v) : (s.setLive v).twill = s.twill := rfl
@[simp] theorem State.setLive_sense (s : State) (v) : (s.setLive v).sense = s.sense := rfl
@[simp] theorem State.setLive_hs (s : State) (v) : (s.setLive v).hs = s.hs := rfl
@[simp] theorem State.setLive_sal (s : State) (v) : (s.setLive v).sal = s.sal := rfl
@[simp] theorem State.setLive_zw (s : State) (v) : (s.setLive v).zw = s.zw := rfl
@[simp] theorem State.setLive_grid (s : State) (v) : (s.setLive v).grid = s.grid := rfl
@[simp] theorem State.setLive_ks (s : State) (v) : (s.setLive v).ks = s.ks := rfl
@[simp] theorem State.setLive_links (s : State) (v) : (s.setLive v).links = s.links := rfl
@[simp] theorem State.setLive_ses (s : State) (v) : (s.setLive v).ses = s.ses := rfl
@[simp] theorem State.setLive_thermal (s : State) (v) : (s.setLive v).thermal = s.thermal := rfl
@[simp] theorem State.setLive_ledger (s : State) (v) : (s.setLive v).ledger = s.ledger := rfl
@[simp] theorem State.setLive_brine (s : State) (v) : (s.setLive v).brine = s.brine := rfl
@[simp] theorem State.setLive_can (s : State) (v) : (s.setLive v).can = s.can := rfl
@[simp] theorem State.setLive_out (s : State) (v) : (s.setLive v).out = s.out := rfl
@[simp] theorem State.setLive_free (s : State) (v) : (s.setLive v).free = s.free := rfl
@[simp] theorem State.setMem_now (s : State) (v) : (s.setMem v).now = s.now := rfl
@[simp] theorem State.setMem_pending (s : State) (v) : (s.setMem v).pending = s.pending := rfl
@[simp] theorem State.setMem_regs (s : State) (v) : (s.setMem v).regs = s.regs := rfl
@[simp] theorem State.setMem_live (s : State) (v) : (s.setMem v).live = s.live := rfl
@[simp] theorem State.setMem_mem (s : State) (v) : (s.setMem v).mem = v := rfl
@[simp] theorem State.setMem_ecc (s : State) (v) : (s.setMem v).ecc = s.ecc := rfl
@[simp] theorem State.setMem_ladder (s : State) (v) : (s.setMem v).ladder = s.ladder := rfl
@[simp] theorem State.setMem_fabric (s : State) (v) : (s.setMem v).fabric = s.fabric := rfl
@[simp] theorem State.setMem_weft (s : State) (v) : (s.setMem v).weft = s.weft := rfl
@[simp] theorem State.setMem_power (s : State) (v) : (s.setMem v).power = s.power := rfl
@[simp] theorem State.setMem_startup (s : State) (v) : (s.setMem v).startup = s.startup := rfl
@[simp] theorem State.setMem_time (s : State) (v) : (s.setMem v).time = s.time := rfl
@[simp] theorem State.setMem_selv (s : State) (v) : (s.setMem v).selv = s.selv := rfl
@[simp] theorem State.setMem_loom (s : State) (v) : (s.setMem v).loom = s.loom := rfl
@[simp] theorem State.setMem_twill (s : State) (v) : (s.setMem v).twill = s.twill := rfl
@[simp] theorem State.setMem_sense (s : State) (v) : (s.setMem v).sense = s.sense := rfl
@[simp] theorem State.setMem_hs (s : State) (v) : (s.setMem v).hs = s.hs := rfl
@[simp] theorem State.setMem_sal (s : State) (v) : (s.setMem v).sal = s.sal := rfl
@[simp] theorem State.setMem_zw (s : State) (v) : (s.setMem v).zw = s.zw := rfl
@[simp] theorem State.setMem_grid (s : State) (v) : (s.setMem v).grid = s.grid := rfl
@[simp] theorem State.setMem_ks (s : State) (v) : (s.setMem v).ks = s.ks := rfl
@[simp] theorem State.setMem_links (s : State) (v) : (s.setMem v).links = s.links := rfl
@[simp] theorem State.setMem_ses (s : State) (v) : (s.setMem v).ses = s.ses := rfl
@[simp] theorem State.setMem_thermal (s : State) (v) : (s.setMem v).thermal = s.thermal := rfl
@[simp] theorem State.setMem_ledger (s : State) (v) : (s.setMem v).ledger = s.ledger := rfl
@[simp] theorem State.setMem_brine (s : State) (v) : (s.setMem v).brine = s.brine := rfl
@[simp] theorem State.setMem_can (s : State) (v) : (s.setMem v).can = s.can := rfl
@[simp] theorem State.setMem_out (s : State) (v) : (s.setMem v).out = s.out := rfl
@[simp] theorem State.setMem_free (s : State) (v) : (s.setMem v).free = s.free := rfl
@[simp] theorem State.setEcc_now (s : State) (v) : (s.setEcc v).now = s.now := rfl
@[simp] theorem State.setEcc_pending (s : State) (v) : (s.setEcc v).pending = s.pending := rfl
@[simp] theorem State.setEcc_regs (s : State) (v) : (s.setEcc v).regs = s.regs := rfl
@[simp] theorem State.setEcc_live (s : State) (v) : (s.setEcc v).live = s.live := rfl
@[simp] theorem State.setEcc_mem (s : State) (v) : (s.setEcc v).mem = s.mem := rfl
@[simp] theorem State.setEcc_ecc (s : State) (v) : (s.setEcc v).ecc = v := rfl
@[simp] theorem State.setEcc_ladder (s : State) (v) : (s.setEcc v).ladder = s.ladder := rfl
@[simp] theorem State.setEcc_fabric (s : State) (v) : (s.setEcc v).fabric = s.fabric := rfl
@[simp] theorem State.setEcc_weft (s : State) (v) : (s.setEcc v).weft = s.weft := rfl
@[simp] theorem State.setEcc_power (s : State) (v) : (s.setEcc v).power = s.power := rfl
@[simp] theorem State.setEcc_startup (s : State) (v) : (s.setEcc v).startup = s.startup := rfl
@[simp] theorem State.setEcc_time (s : State) (v) : (s.setEcc v).time = s.time := rfl
@[simp] theorem State.setEcc_selv (s : State) (v) : (s.setEcc v).selv = s.selv := rfl
@[simp] theorem State.setEcc_loom (s : State) (v) : (s.setEcc v).loom = s.loom := rfl
@[simp] theorem State.setEcc_twill (s : State) (v) : (s.setEcc v).twill = s.twill := rfl
@[simp] theorem State.setEcc_sense (s : State) (v) : (s.setEcc v).sense = s.sense := rfl
@[simp] theorem State.setEcc_hs (s : State) (v) : (s.setEcc v).hs = s.hs := rfl
@[simp] theorem State.setEcc_sal (s : State) (v) : (s.setEcc v).sal = s.sal := rfl
@[simp] theorem State.setEcc_zw (s : State) (v) : (s.setEcc v).zw = s.zw := rfl
@[simp] theorem State.setEcc_grid (s : State) (v) : (s.setEcc v).grid = s.grid := rfl
@[simp] theorem State.setEcc_ks (s : State) (v) : (s.setEcc v).ks = s.ks := rfl
@[simp] theorem State.setEcc_links (s : State) (v) : (s.setEcc v).links = s.links := rfl
@[simp] theorem State.setEcc_ses (s : State) (v) : (s.setEcc v).ses = s.ses := rfl
@[simp] theorem State.setEcc_thermal (s : State) (v) : (s.setEcc v).thermal = s.thermal := rfl
@[simp] theorem State.setEcc_ledger (s : State) (v) : (s.setEcc v).ledger = s.ledger := rfl
@[simp] theorem State.setEcc_brine (s : State) (v) : (s.setEcc v).brine = s.brine := rfl
@[simp] theorem State.setEcc_can (s : State) (v) : (s.setEcc v).can = s.can := rfl
@[simp] theorem State.setEcc_out (s : State) (v) : (s.setEcc v).out = s.out := rfl
@[simp] theorem State.setEcc_free (s : State) (v) : (s.setEcc v).free = s.free := rfl
@[simp] theorem State.setLadder_now (s : State) (v) : (s.setLadder v).now = s.now := rfl
@[simp] theorem State.setLadder_pending (s : State) (v) : (s.setLadder v).pending = s.pending := rfl
@[simp] theorem State.setLadder_regs (s : State) (v) : (s.setLadder v).regs = s.regs := rfl
@[simp] theorem State.setLadder_live (s : State) (v) : (s.setLadder v).live = s.live := rfl
@[simp] theorem State.setLadder_mem (s : State) (v) : (s.setLadder v).mem = s.mem := rfl
@[simp] theorem State.setLadder_ecc (s : State) (v) : (s.setLadder v).ecc = s.ecc := rfl
@[simp] theorem State.setLadder_ladder (s : State) (v) : (s.setLadder v).ladder = v := rfl
@[simp] theorem State.setLadder_fabric (s : State) (v) : (s.setLadder v).fabric = s.fabric := rfl
@[simp] theorem State.setLadder_weft (s : State) (v) : (s.setLadder v).weft = s.weft := rfl
@[simp] theorem State.setLadder_power (s : State) (v) : (s.setLadder v).power = s.power := rfl
@[simp] theorem State.setLadder_startup (s : State) (v) : (s.setLadder v).startup = s.startup := rfl
@[simp] theorem State.setLadder_time (s : State) (v) : (s.setLadder v).time = s.time := rfl
@[simp] theorem State.setLadder_selv (s : State) (v) : (s.setLadder v).selv = s.selv := rfl
@[simp] theorem State.setLadder_loom (s : State) (v) : (s.setLadder v).loom = s.loom := rfl
@[simp] theorem State.setLadder_twill (s : State) (v) : (s.setLadder v).twill = s.twill := rfl
@[simp] theorem State.setLadder_sense (s : State) (v) : (s.setLadder v).sense = s.sense := rfl
@[simp] theorem State.setLadder_hs (s : State) (v) : (s.setLadder v).hs = s.hs := rfl
@[simp] theorem State.setLadder_sal (s : State) (v) : (s.setLadder v).sal = s.sal := rfl
@[simp] theorem State.setLadder_zw (s : State) (v) : (s.setLadder v).zw = s.zw := rfl
@[simp] theorem State.setLadder_grid (s : State) (v) : (s.setLadder v).grid = s.grid := rfl
@[simp] theorem State.setLadder_ks (s : State) (v) : (s.setLadder v).ks = s.ks := rfl
@[simp] theorem State.setLadder_links (s : State) (v) : (s.setLadder v).links = s.links := rfl
@[simp] theorem State.setLadder_ses (s : State) (v) : (s.setLadder v).ses = s.ses := rfl
@[simp] theorem State.setLadder_thermal (s : State) (v) : (s.setLadder v).thermal = s.thermal := rfl
@[simp] theorem State.setLadder_ledger (s : State) (v) : (s.setLadder v).ledger = s.ledger := rfl
@[simp] theorem State.setLadder_brine (s : State) (v) : (s.setLadder v).brine = s.brine := rfl
@[simp] theorem State.setLadder_can (s : State) (v) : (s.setLadder v).can = s.can := rfl
@[simp] theorem State.setLadder_out (s : State) (v) : (s.setLadder v).out = s.out := rfl
@[simp] theorem State.setLadder_free (s : State) (v) : (s.setLadder v).free = s.free := rfl
@[simp] theorem State.setFabric_now (s : State) (v) : (s.setFabric v).now = s.now := rfl
@[simp] theorem State.setFabric_pending (s : State) (v) : (s.setFabric v).pending = s.pending := rfl
@[simp] theorem State.setFabric_regs (s : State) (v) : (s.setFabric v).regs = s.regs := rfl
@[simp] theorem State.setFabric_live (s : State) (v) : (s.setFabric v).live = s.live := rfl
@[simp] theorem State.setFabric_mem (s : State) (v) : (s.setFabric v).mem = s.mem := rfl
@[simp] theorem State.setFabric_ecc (s : State) (v) : (s.setFabric v).ecc = s.ecc := rfl
@[simp] theorem State.setFabric_ladder (s : State) (v) : (s.setFabric v).ladder = s.ladder := rfl
@[simp] theorem State.setFabric_fabric (s : State) (v) : (s.setFabric v).fabric = v := rfl
@[simp] theorem State.setFabric_weft (s : State) (v) : (s.setFabric v).weft = s.weft := rfl
@[simp] theorem State.setFabric_power (s : State) (v) : (s.setFabric v).power = s.power := rfl
@[simp] theorem State.setFabric_startup (s : State) (v) : (s.setFabric v).startup = s.startup := rfl
@[simp] theorem State.setFabric_time (s : State) (v) : (s.setFabric v).time = s.time := rfl
@[simp] theorem State.setFabric_selv (s : State) (v) : (s.setFabric v).selv = s.selv := rfl
@[simp] theorem State.setFabric_loom (s : State) (v) : (s.setFabric v).loom = s.loom := rfl
@[simp] theorem State.setFabric_twill (s : State) (v) : (s.setFabric v).twill = s.twill := rfl
@[simp] theorem State.setFabric_sense (s : State) (v) : (s.setFabric v).sense = s.sense := rfl
@[simp] theorem State.setFabric_hs (s : State) (v) : (s.setFabric v).hs = s.hs := rfl
@[simp] theorem State.setFabric_sal (s : State) (v) : (s.setFabric v).sal = s.sal := rfl
@[simp] theorem State.setFabric_zw (s : State) (v) : (s.setFabric v).zw = s.zw := rfl
@[simp] theorem State.setFabric_grid (s : State) (v) : (s.setFabric v).grid = s.grid := rfl
@[simp] theorem State.setFabric_ks (s : State) (v) : (s.setFabric v).ks = s.ks := rfl
@[simp] theorem State.setFabric_links (s : State) (v) : (s.setFabric v).links = s.links := rfl
@[simp] theorem State.setFabric_ses (s : State) (v) : (s.setFabric v).ses = s.ses := rfl
@[simp] theorem State.setFabric_thermal (s : State) (v) : (s.setFabric v).thermal = s.thermal := rfl
@[simp] theorem State.setFabric_ledger (s : State) (v) : (s.setFabric v).ledger = s.ledger := rfl
@[simp] theorem State.setFabric_brine (s : State) (v) : (s.setFabric v).brine = s.brine := rfl
@[simp] theorem State.setFabric_can (s : State) (v) : (s.setFabric v).can = s.can := rfl
@[simp] theorem State.setFabric_out (s : State) (v) : (s.setFabric v).out = s.out := rfl
@[simp] theorem State.setFabric_free (s : State) (v) : (s.setFabric v).free = s.free := rfl
@[simp] theorem State.setWeft_now (s : State) (v) : (s.setWeft v).now = s.now := rfl
@[simp] theorem State.setWeft_pending (s : State) (v) : (s.setWeft v).pending = s.pending := rfl
@[simp] theorem State.setWeft_regs (s : State) (v) : (s.setWeft v).regs = s.regs := rfl
@[simp] theorem State.setWeft_live (s : State) (v) : (s.setWeft v).live = s.live := rfl
@[simp] theorem State.setWeft_mem (s : State) (v) : (s.setWeft v).mem = s.mem := rfl
@[simp] theorem State.setWeft_ecc (s : State) (v) : (s.setWeft v).ecc = s.ecc := rfl
@[simp] theorem State.setWeft_ladder (s : State) (v) : (s.setWeft v).ladder = s.ladder := rfl
@[simp] theorem State.setWeft_fabric (s : State) (v) : (s.setWeft v).fabric = s.fabric := rfl
@[simp] theorem State.setWeft_weft (s : State) (v) : (s.setWeft v).weft = v := rfl
@[simp] theorem State.setWeft_power (s : State) (v) : (s.setWeft v).power = s.power := rfl
@[simp] theorem State.setWeft_startup (s : State) (v) : (s.setWeft v).startup = s.startup := rfl
@[simp] theorem State.setWeft_time (s : State) (v) : (s.setWeft v).time = s.time := rfl
@[simp] theorem State.setWeft_selv (s : State) (v) : (s.setWeft v).selv = s.selv := rfl
@[simp] theorem State.setWeft_loom (s : State) (v) : (s.setWeft v).loom = s.loom := rfl
@[simp] theorem State.setWeft_twill (s : State) (v) : (s.setWeft v).twill = s.twill := rfl
@[simp] theorem State.setWeft_sense (s : State) (v) : (s.setWeft v).sense = s.sense := rfl
@[simp] theorem State.setWeft_hs (s : State) (v) : (s.setWeft v).hs = s.hs := rfl
@[simp] theorem State.setWeft_sal (s : State) (v) : (s.setWeft v).sal = s.sal := rfl
@[simp] theorem State.setWeft_zw (s : State) (v) : (s.setWeft v).zw = s.zw := rfl
@[simp] theorem State.setWeft_grid (s : State) (v) : (s.setWeft v).grid = s.grid := rfl
@[simp] theorem State.setWeft_ks (s : State) (v) : (s.setWeft v).ks = s.ks := rfl
@[simp] theorem State.setWeft_links (s : State) (v) : (s.setWeft v).links = s.links := rfl
@[simp] theorem State.setWeft_ses (s : State) (v) : (s.setWeft v).ses = s.ses := rfl
@[simp] theorem State.setWeft_thermal (s : State) (v) : (s.setWeft v).thermal = s.thermal := rfl
@[simp] theorem State.setWeft_ledger (s : State) (v) : (s.setWeft v).ledger = s.ledger := rfl
@[simp] theorem State.setWeft_brine (s : State) (v) : (s.setWeft v).brine = s.brine := rfl
@[simp] theorem State.setWeft_can (s : State) (v) : (s.setWeft v).can = s.can := rfl
@[simp] theorem State.setWeft_out (s : State) (v) : (s.setWeft v).out = s.out := rfl
@[simp] theorem State.setWeft_free (s : State) (v) : (s.setWeft v).free = s.free := rfl
@[simp] theorem State.setPower_now (s : State) (v) : (s.setPower v).now = s.now := rfl
@[simp] theorem State.setPower_pending (s : State) (v) : (s.setPower v).pending = s.pending := rfl
@[simp] theorem State.setPower_regs (s : State) (v) : (s.setPower v).regs = s.regs := rfl
@[simp] theorem State.setPower_live (s : State) (v) : (s.setPower v).live = s.live := rfl
@[simp] theorem State.setPower_mem (s : State) (v) : (s.setPower v).mem = s.mem := rfl
@[simp] theorem State.setPower_ecc (s : State) (v) : (s.setPower v).ecc = s.ecc := rfl
@[simp] theorem State.setPower_ladder (s : State) (v) : (s.setPower v).ladder = s.ladder := rfl
@[simp] theorem State.setPower_fabric (s : State) (v) : (s.setPower v).fabric = s.fabric := rfl
@[simp] theorem State.setPower_weft (s : State) (v) : (s.setPower v).weft = s.weft := rfl
@[simp] theorem State.setPower_power (s : State) (v) : (s.setPower v).power = v := rfl
@[simp] theorem State.setPower_startup (s : State) (v) : (s.setPower v).startup = s.startup := rfl
@[simp] theorem State.setPower_time (s : State) (v) : (s.setPower v).time = s.time := rfl
@[simp] theorem State.setPower_selv (s : State) (v) : (s.setPower v).selv = s.selv := rfl
@[simp] theorem State.setPower_loom (s : State) (v) : (s.setPower v).loom = s.loom := rfl
@[simp] theorem State.setPower_twill (s : State) (v) : (s.setPower v).twill = s.twill := rfl
@[simp] theorem State.setPower_sense (s : State) (v) : (s.setPower v).sense = s.sense := rfl
@[simp] theorem State.setPower_hs (s : State) (v) : (s.setPower v).hs = s.hs := rfl
@[simp] theorem State.setPower_sal (s : State) (v) : (s.setPower v).sal = s.sal := rfl
@[simp] theorem State.setPower_zw (s : State) (v) : (s.setPower v).zw = s.zw := rfl
@[simp] theorem State.setPower_grid (s : State) (v) : (s.setPower v).grid = s.grid := rfl
@[simp] theorem State.setPower_ks (s : State) (v) : (s.setPower v).ks = s.ks := rfl
@[simp] theorem State.setPower_links (s : State) (v) : (s.setPower v).links = s.links := rfl
@[simp] theorem State.setPower_ses (s : State) (v) : (s.setPower v).ses = s.ses := rfl
@[simp] theorem State.setPower_thermal (s : State) (v) : (s.setPower v).thermal = s.thermal := rfl
@[simp] theorem State.setPower_ledger (s : State) (v) : (s.setPower v).ledger = s.ledger := rfl
@[simp] theorem State.setPower_brine (s : State) (v) : (s.setPower v).brine = s.brine := rfl
@[simp] theorem State.setPower_can (s : State) (v) : (s.setPower v).can = s.can := rfl
@[simp] theorem State.setPower_out (s : State) (v) : (s.setPower v).out = s.out := rfl
@[simp] theorem State.setPower_free (s : State) (v) : (s.setPower v).free = s.free := rfl
@[simp] theorem State.setStartup_now (s : State) (v) : (s.setStartup v).now = s.now := rfl
@[simp] theorem State.setStartup_pending (s : State) (v) : (s.setStartup v).pending = s.pending := rfl
@[simp] theorem State.setStartup_regs (s : State) (v) : (s.setStartup v).regs = s.regs := rfl
@[simp] theorem State.setStartup_live (s : State) (v) : (s.setStartup v).live = s.live := rfl
@[simp] theorem State.setStartup_mem (s : State) (v) : (s.setStartup v).mem = s.mem := rfl
@[simp] theorem State.setStartup_ecc (s : State) (v) : (s.setStartup v).ecc = s.ecc := rfl
@[simp] theorem State.setStartup_ladder (s : State) (v) : (s.setStartup v).ladder = s.ladder := rfl
@[simp] theorem State.setStartup_fabric (s : State) (v) : (s.setStartup v).fabric = s.fabric := rfl
@[simp] theorem State.setStartup_weft (s : State) (v) : (s.setStartup v).weft = s.weft := rfl
@[simp] theorem State.setStartup_power (s : State) (v) : (s.setStartup v).power = s.power := rfl
@[simp] theorem State.setStartup_startup (s : State) (v) : (s.setStartup v).startup = v := rfl
@[simp] theorem State.setStartup_time (s : State) (v) : (s.setStartup v).time = s.time := rfl
@[simp] theorem State.setStartup_selv (s : State) (v) : (s.setStartup v).selv = s.selv := rfl
@[simp] theorem State.setStartup_loom (s : State) (v) : (s.setStartup v).loom = s.loom := rfl
@[simp] theorem State.setStartup_twill (s : State) (v) : (s.setStartup v).twill = s.twill := rfl
@[simp] theorem State.setStartup_sense (s : State) (v) : (s.setStartup v).sense = s.sense := rfl
@[simp] theorem State.setStartup_hs (s : State) (v) : (s.setStartup v).hs = s.hs := rfl
@[simp] theorem State.setStartup_sal (s : State) (v) : (s.setStartup v).sal = s.sal := rfl
@[simp] theorem State.setStartup_zw (s : State) (v) : (s.setStartup v).zw = s.zw := rfl
@[simp] theorem State.setStartup_grid (s : State) (v) : (s.setStartup v).grid = s.grid := rfl
@[simp] theorem State.setStartup_ks (s : State) (v) : (s.setStartup v).ks = s.ks := rfl
@[simp] theorem State.setStartup_links (s : State) (v) : (s.setStartup v).links = s.links := rfl
@[simp] theorem State.setStartup_ses (s : State) (v) : (s.setStartup v).ses = s.ses := rfl
@[simp] theorem State.setStartup_thermal (s : State) (v) : (s.setStartup v).thermal = s.thermal := rfl
@[simp] theorem State.setStartup_ledger (s : State) (v) : (s.setStartup v).ledger = s.ledger := rfl
@[simp] theorem State.setStartup_brine (s : State) (v) : (s.setStartup v).brine = s.brine := rfl
@[simp] theorem State.setStartup_can (s : State) (v) : (s.setStartup v).can = s.can := rfl
@[simp] theorem State.setStartup_out (s : State) (v) : (s.setStartup v).out = s.out := rfl
@[simp] theorem State.setStartup_free (s : State) (v) : (s.setStartup v).free = s.free := rfl
@[simp] theorem State.setTime_now (s : State) (v) : (s.setTime v).now = s.now := rfl
@[simp] theorem State.setTime_pending (s : State) (v) : (s.setTime v).pending = s.pending := rfl
@[simp] theorem State.setTime_regs (s : State) (v) : (s.setTime v).regs = s.regs := rfl
@[simp] theorem State.setTime_live (s : State) (v) : (s.setTime v).live = s.live := rfl
@[simp] theorem State.setTime_mem (s : State) (v) : (s.setTime v).mem = s.mem := rfl
@[simp] theorem State.setTime_ecc (s : State) (v) : (s.setTime v).ecc = s.ecc := rfl
@[simp] theorem State.setTime_ladder (s : State) (v) : (s.setTime v).ladder = s.ladder := rfl
@[simp] theorem State.setTime_fabric (s : State) (v) : (s.setTime v).fabric = s.fabric := rfl
@[simp] theorem State.setTime_weft (s : State) (v) : (s.setTime v).weft = s.weft := rfl
@[simp] theorem State.setTime_power (s : State) (v) : (s.setTime v).power = s.power := rfl
@[simp] theorem State.setTime_startup (s : State) (v) : (s.setTime v).startup = s.startup := rfl
@[simp] theorem State.setTime_time (s : State) (v) : (s.setTime v).time = v := rfl
@[simp] theorem State.setTime_selv (s : State) (v) : (s.setTime v).selv = s.selv := rfl
@[simp] theorem State.setTime_loom (s : State) (v) : (s.setTime v).loom = s.loom := rfl
@[simp] theorem State.setTime_twill (s : State) (v) : (s.setTime v).twill = s.twill := rfl
@[simp] theorem State.setTime_sense (s : State) (v) : (s.setTime v).sense = s.sense := rfl
@[simp] theorem State.setTime_hs (s : State) (v) : (s.setTime v).hs = s.hs := rfl
@[simp] theorem State.setTime_sal (s : State) (v) : (s.setTime v).sal = s.sal := rfl
@[simp] theorem State.setTime_zw (s : State) (v) : (s.setTime v).zw = s.zw := rfl
@[simp] theorem State.setTime_grid (s : State) (v) : (s.setTime v).grid = s.grid := rfl
@[simp] theorem State.setTime_ks (s : State) (v) : (s.setTime v).ks = s.ks := rfl
@[simp] theorem State.setTime_links (s : State) (v) : (s.setTime v).links = s.links := rfl
@[simp] theorem State.setTime_ses (s : State) (v) : (s.setTime v).ses = s.ses := rfl
@[simp] theorem State.setTime_thermal (s : State) (v) : (s.setTime v).thermal = s.thermal := rfl
@[simp] theorem State.setTime_ledger (s : State) (v) : (s.setTime v).ledger = s.ledger := rfl
@[simp] theorem State.setTime_brine (s : State) (v) : (s.setTime v).brine = s.brine := rfl
@[simp] theorem State.setTime_can (s : State) (v) : (s.setTime v).can = s.can := rfl
@[simp] theorem State.setTime_out (s : State) (v) : (s.setTime v).out = s.out := rfl
@[simp] theorem State.setTime_free (s : State) (v) : (s.setTime v).free = s.free := rfl
@[simp] theorem State.setSelv_now (s : State) (v) : (s.setSelv v).now = s.now := rfl
@[simp] theorem State.setSelv_pending (s : State) (v) : (s.setSelv v).pending = s.pending := rfl
@[simp] theorem State.setSelv_regs (s : State) (v) : (s.setSelv v).regs = s.regs := rfl
@[simp] theorem State.setSelv_live (s : State) (v) : (s.setSelv v).live = s.live := rfl
@[simp] theorem State.setSelv_mem (s : State) (v) : (s.setSelv v).mem = s.mem := rfl
@[simp] theorem State.setSelv_ecc (s : State) (v) : (s.setSelv v).ecc = s.ecc := rfl
@[simp] theorem State.setSelv_ladder (s : State) (v) : (s.setSelv v).ladder = s.ladder := rfl
@[simp] theorem State.setSelv_fabric (s : State) (v) : (s.setSelv v).fabric = s.fabric := rfl
@[simp] theorem State.setSelv_weft (s : State) (v) : (s.setSelv v).weft = s.weft := rfl
@[simp] theorem State.setSelv_power (s : State) (v) : (s.setSelv v).power = s.power := rfl
@[simp] theorem State.setSelv_startup (s : State) (v) : (s.setSelv v).startup = s.startup := rfl
@[simp] theorem State.setSelv_time (s : State) (v) : (s.setSelv v).time = s.time := rfl
@[simp] theorem State.setSelv_selv (s : State) (v) : (s.setSelv v).selv = v := rfl
@[simp] theorem State.setSelv_loom (s : State) (v) : (s.setSelv v).loom = s.loom := rfl
@[simp] theorem State.setSelv_twill (s : State) (v) : (s.setSelv v).twill = s.twill := rfl
@[simp] theorem State.setSelv_sense (s : State) (v) : (s.setSelv v).sense = s.sense := rfl
@[simp] theorem State.setSelv_hs (s : State) (v) : (s.setSelv v).hs = s.hs := rfl
@[simp] theorem State.setSelv_sal (s : State) (v) : (s.setSelv v).sal = s.sal := rfl
@[simp] theorem State.setSelv_zw (s : State) (v) : (s.setSelv v).zw = s.zw := rfl
@[simp] theorem State.setSelv_grid (s : State) (v) : (s.setSelv v).grid = s.grid := rfl
@[simp] theorem State.setSelv_ks (s : State) (v) : (s.setSelv v).ks = s.ks := rfl
@[simp] theorem State.setSelv_links (s : State) (v) : (s.setSelv v).links = s.links := rfl
@[simp] theorem State.setSelv_ses (s : State) (v) : (s.setSelv v).ses = s.ses := rfl
@[simp] theorem State.setSelv_thermal (s : State) (v) : (s.setSelv v).thermal = s.thermal := rfl
@[simp] theorem State.setSelv_ledger (s : State) (v) : (s.setSelv v).ledger = s.ledger := rfl
@[simp] theorem State.setSelv_brine (s : State) (v) : (s.setSelv v).brine = s.brine := rfl
@[simp] theorem State.setSelv_can (s : State) (v) : (s.setSelv v).can = s.can := rfl
@[simp] theorem State.setSelv_out (s : State) (v) : (s.setSelv v).out = s.out := rfl
@[simp] theorem State.setSelv_free (s : State) (v) : (s.setSelv v).free = s.free := rfl
@[simp] theorem State.setLoom_now (s : State) (v) : (s.setLoom v).now = s.now := rfl
@[simp] theorem State.setLoom_pending (s : State) (v) : (s.setLoom v).pending = s.pending := rfl
@[simp] theorem State.setLoom_regs (s : State) (v) : (s.setLoom v).regs = s.regs := rfl
@[simp] theorem State.setLoom_live (s : State) (v) : (s.setLoom v).live = s.live := rfl
@[simp] theorem State.setLoom_mem (s : State) (v) : (s.setLoom v).mem = s.mem := rfl
@[simp] theorem State.setLoom_ecc (s : State) (v) : (s.setLoom v).ecc = s.ecc := rfl
@[simp] theorem State.setLoom_ladder (s : State) (v) : (s.setLoom v).ladder = s.ladder := rfl
@[simp] theorem State.setLoom_fabric (s : State) (v) : (s.setLoom v).fabric = s.fabric := rfl
@[simp] theorem State.setLoom_weft (s : State) (v) : (s.setLoom v).weft = s.weft := rfl
@[simp] theorem State.setLoom_power (s : State) (v) : (s.setLoom v).power = s.power := rfl
@[simp] theorem State.setLoom_startup (s : State) (v) : (s.setLoom v).startup = s.startup := rfl
@[simp] theorem State.setLoom_time (s : State) (v) : (s.setLoom v).time = s.time := rfl
@[simp] theorem State.setLoom_selv (s : State) (v) : (s.setLoom v).selv = s.selv := rfl
@[simp] theorem State.setLoom_loom (s : State) (v) : (s.setLoom v).loom = v := rfl
@[simp] theorem State.setLoom_twill (s : State) (v) : (s.setLoom v).twill = s.twill := rfl
@[simp] theorem State.setLoom_sense (s : State) (v) : (s.setLoom v).sense = s.sense := rfl
@[simp] theorem State.setLoom_hs (s : State) (v) : (s.setLoom v).hs = s.hs := rfl
@[simp] theorem State.setLoom_sal (s : State) (v) : (s.setLoom v).sal = s.sal := rfl
@[simp] theorem State.setLoom_zw (s : State) (v) : (s.setLoom v).zw = s.zw := rfl
@[simp] theorem State.setLoom_grid (s : State) (v) : (s.setLoom v).grid = s.grid := rfl
@[simp] theorem State.setLoom_ks (s : State) (v) : (s.setLoom v).ks = s.ks := rfl
@[simp] theorem State.setLoom_links (s : State) (v) : (s.setLoom v).links = s.links := rfl
@[simp] theorem State.setLoom_ses (s : State) (v) : (s.setLoom v).ses = s.ses := rfl
@[simp] theorem State.setLoom_thermal (s : State) (v) : (s.setLoom v).thermal = s.thermal := rfl
@[simp] theorem State.setLoom_ledger (s : State) (v) : (s.setLoom v).ledger = s.ledger := rfl
@[simp] theorem State.setLoom_brine (s : State) (v) : (s.setLoom v).brine = s.brine := rfl
@[simp] theorem State.setLoom_can (s : State) (v) : (s.setLoom v).can = s.can := rfl
@[simp] theorem State.setLoom_out (s : State) (v) : (s.setLoom v).out = s.out := rfl
@[simp] theorem State.setLoom_free (s : State) (v) : (s.setLoom v).free = s.free := rfl
@[simp] theorem State.setTwill_now (s : State) (v) : (s.setTwill v).now = s.now := rfl
@[simp] theorem State.setTwill_pending (s : State) (v) : (s.setTwill v).pending = s.pending := rfl
@[simp] theorem State.setTwill_regs (s : State) (v) : (s.setTwill v).regs = s.regs := rfl
@[simp] theorem State.setTwill_live (s : State) (v) : (s.setTwill v).live = s.live := rfl
@[simp] theorem State.setTwill_mem (s : State) (v) : (s.setTwill v).mem = s.mem := rfl
@[simp] theorem State.setTwill_ecc (s : State) (v) : (s.setTwill v).ecc = s.ecc := rfl
@[simp] theorem State.setTwill_ladder (s : State) (v) : (s.setTwill v).ladder = s.ladder := rfl
@[simp] theorem State.setTwill_fabric (s : State) (v) : (s.setTwill v).fabric = s.fabric := rfl
@[simp] theorem State.setTwill_weft (s : State) (v) : (s.setTwill v).weft = s.weft := rfl
@[simp] theorem State.setTwill_power (s : State) (v) : (s.setTwill v).power = s.power := rfl
@[simp] theorem State.setTwill_startup (s : State) (v) : (s.setTwill v).startup = s.startup := rfl
@[simp] theorem State.setTwill_time (s : State) (v) : (s.setTwill v).time = s.time := rfl
@[simp] theorem State.setTwill_selv (s : State) (v) : (s.setTwill v).selv = s.selv := rfl
@[simp] theorem State.setTwill_loom (s : State) (v) : (s.setTwill v).loom = s.loom := rfl
@[simp] theorem State.setTwill_twill (s : State) (v) : (s.setTwill v).twill = v := rfl
@[simp] theorem State.setTwill_sense (s : State) (v) : (s.setTwill v).sense = s.sense := rfl
@[simp] theorem State.setTwill_hs (s : State) (v) : (s.setTwill v).hs = s.hs := rfl
@[simp] theorem State.setTwill_sal (s : State) (v) : (s.setTwill v).sal = s.sal := rfl
@[simp] theorem State.setTwill_zw (s : State) (v) : (s.setTwill v).zw = s.zw := rfl
@[simp] theorem State.setTwill_grid (s : State) (v) : (s.setTwill v).grid = s.grid := rfl
@[simp] theorem State.setTwill_ks (s : State) (v) : (s.setTwill v).ks = s.ks := rfl
@[simp] theorem State.setTwill_links (s : State) (v) : (s.setTwill v).links = s.links := rfl
@[simp] theorem State.setTwill_ses (s : State) (v) : (s.setTwill v).ses = s.ses := rfl
@[simp] theorem State.setTwill_thermal (s : State) (v) : (s.setTwill v).thermal = s.thermal := rfl
@[simp] theorem State.setTwill_ledger (s : State) (v) : (s.setTwill v).ledger = s.ledger := rfl
@[simp] theorem State.setTwill_brine (s : State) (v) : (s.setTwill v).brine = s.brine := rfl
@[simp] theorem State.setTwill_can (s : State) (v) : (s.setTwill v).can = s.can := rfl
@[simp] theorem State.setTwill_out (s : State) (v) : (s.setTwill v).out = s.out := rfl
@[simp] theorem State.setTwill_free (s : State) (v) : (s.setTwill v).free = s.free := rfl
@[simp] theorem State.setSense_now (s : State) (v) : (s.setSense v).now = s.now := rfl
@[simp] theorem State.setSense_pending (s : State) (v) : (s.setSense v).pending = s.pending := rfl
@[simp] theorem State.setSense_regs (s : State) (v) : (s.setSense v).regs = s.regs := rfl
@[simp] theorem State.setSense_live (s : State) (v) : (s.setSense v).live = s.live := rfl
@[simp] theorem State.setSense_mem (s : State) (v) : (s.setSense v).mem = s.mem := rfl
@[simp] theorem State.setSense_ecc (s : State) (v) : (s.setSense v).ecc = s.ecc := rfl
@[simp] theorem State.setSense_ladder (s : State) (v) : (s.setSense v).ladder = s.ladder := rfl
@[simp] theorem State.setSense_fabric (s : State) (v) : (s.setSense v).fabric = s.fabric := rfl
@[simp] theorem State.setSense_weft (s : State) (v) : (s.setSense v).weft = s.weft := rfl
@[simp] theorem State.setSense_power (s : State) (v) : (s.setSense v).power = s.power := rfl
@[simp] theorem State.setSense_startup (s : State) (v) : (s.setSense v).startup = s.startup := rfl
@[simp] theorem State.setSense_time (s : State) (v) : (s.setSense v).time = s.time := rfl
@[simp] theorem State.setSense_selv (s : State) (v) : (s.setSense v).selv = s.selv := rfl
@[simp] theorem State.setSense_loom (s : State) (v) : (s.setSense v).loom = s.loom := rfl
@[simp] theorem State.setSense_twill (s : State) (v) : (s.setSense v).twill = s.twill := rfl
@[simp] theorem State.setSense_sense (s : State) (v) : (s.setSense v).sense = v := rfl
@[simp] theorem State.setSense_hs (s : State) (v) : (s.setSense v).hs = s.hs := rfl
@[simp] theorem State.setSense_sal (s : State) (v) : (s.setSense v).sal = s.sal := rfl
@[simp] theorem State.setSense_zw (s : State) (v) : (s.setSense v).zw = s.zw := rfl
@[simp] theorem State.setSense_grid (s : State) (v) : (s.setSense v).grid = s.grid := rfl
@[simp] theorem State.setSense_ks (s : State) (v) : (s.setSense v).ks = s.ks := rfl
@[simp] theorem State.setSense_links (s : State) (v) : (s.setSense v).links = s.links := rfl
@[simp] theorem State.setSense_ses (s : State) (v) : (s.setSense v).ses = s.ses := rfl
@[simp] theorem State.setSense_thermal (s : State) (v) : (s.setSense v).thermal = s.thermal := rfl
@[simp] theorem State.setSense_ledger (s : State) (v) : (s.setSense v).ledger = s.ledger := rfl
@[simp] theorem State.setSense_brine (s : State) (v) : (s.setSense v).brine = s.brine := rfl
@[simp] theorem State.setSense_can (s : State) (v) : (s.setSense v).can = s.can := rfl
@[simp] theorem State.setSense_out (s : State) (v) : (s.setSense v).out = s.out := rfl
@[simp] theorem State.setSense_free (s : State) (v) : (s.setSense v).free = s.free := rfl
@[simp] theorem State.setHs_now (s : State) (v) : (s.setHs v).now = s.now := rfl
@[simp] theorem State.setHs_pending (s : State) (v) : (s.setHs v).pending = s.pending := rfl
@[simp] theorem State.setHs_regs (s : State) (v) : (s.setHs v).regs = s.regs := rfl
@[simp] theorem State.setHs_live (s : State) (v) : (s.setHs v).live = s.live := rfl
@[simp] theorem State.setHs_mem (s : State) (v) : (s.setHs v).mem = s.mem := rfl
@[simp] theorem State.setHs_ecc (s : State) (v) : (s.setHs v).ecc = s.ecc := rfl
@[simp] theorem State.setHs_ladder (s : State) (v) : (s.setHs v).ladder = s.ladder := rfl
@[simp] theorem State.setHs_fabric (s : State) (v) : (s.setHs v).fabric = s.fabric := rfl
@[simp] theorem State.setHs_weft (s : State) (v) : (s.setHs v).weft = s.weft := rfl
@[simp] theorem State.setHs_power (s : State) (v) : (s.setHs v).power = s.power := rfl
@[simp] theorem State.setHs_startup (s : State) (v) : (s.setHs v).startup = s.startup := rfl
@[simp] theorem State.setHs_time (s : State) (v) : (s.setHs v).time = s.time := rfl
@[simp] theorem State.setHs_selv (s : State) (v) : (s.setHs v).selv = s.selv := rfl
@[simp] theorem State.setHs_loom (s : State) (v) : (s.setHs v).loom = s.loom := rfl
@[simp] theorem State.setHs_twill (s : State) (v) : (s.setHs v).twill = s.twill := rfl
@[simp] theorem State.setHs_sense (s : State) (v) : (s.setHs v).sense = s.sense := rfl
@[simp] theorem State.setHs_hs (s : State) (v) : (s.setHs v).hs = v := rfl
@[simp] theorem State.setHs_sal (s : State) (v) : (s.setHs v).sal = s.sal := rfl
@[simp] theorem State.setHs_zw (s : State) (v) : (s.setHs v).zw = s.zw := rfl
@[simp] theorem State.setHs_grid (s : State) (v) : (s.setHs v).grid = s.grid := rfl
@[simp] theorem State.setHs_ks (s : State) (v) : (s.setHs v).ks = s.ks := rfl
@[simp] theorem State.setHs_links (s : State) (v) : (s.setHs v).links = s.links := rfl
@[simp] theorem State.setHs_ses (s : State) (v) : (s.setHs v).ses = s.ses := rfl
@[simp] theorem State.setHs_thermal (s : State) (v) : (s.setHs v).thermal = s.thermal := rfl
@[simp] theorem State.setHs_ledger (s : State) (v) : (s.setHs v).ledger = s.ledger := rfl
@[simp] theorem State.setHs_brine (s : State) (v) : (s.setHs v).brine = s.brine := rfl
@[simp] theorem State.setHs_can (s : State) (v) : (s.setHs v).can = s.can := rfl
@[simp] theorem State.setHs_out (s : State) (v) : (s.setHs v).out = s.out := rfl
@[simp] theorem State.setHs_free (s : State) (v) : (s.setHs v).free = s.free := rfl
@[simp] theorem State.setSal_now (s : State) (v) : (s.setSal v).now = s.now := rfl
@[simp] theorem State.setSal_pending (s : State) (v) : (s.setSal v).pending = s.pending := rfl
@[simp] theorem State.setSal_regs (s : State) (v) : (s.setSal v).regs = s.regs := rfl
@[simp] theorem State.setSal_live (s : State) (v) : (s.setSal v).live = s.live := rfl
@[simp] theorem State.setSal_mem (s : State) (v) : (s.setSal v).mem = s.mem := rfl
@[simp] theorem State.setSal_ecc (s : State) (v) : (s.setSal v).ecc = s.ecc := rfl
@[simp] theorem State.setSal_ladder (s : State) (v) : (s.setSal v).ladder = s.ladder := rfl
@[simp] theorem State.setSal_fabric (s : State) (v) : (s.setSal v).fabric = s.fabric := rfl
@[simp] theorem State.setSal_weft (s : State) (v) : (s.setSal v).weft = s.weft := rfl
@[simp] theorem State.setSal_power (s : State) (v) : (s.setSal v).power = s.power := rfl
@[simp] theorem State.setSal_startup (s : State) (v) : (s.setSal v).startup = s.startup := rfl
@[simp] theorem State.setSal_time (s : State) (v) : (s.setSal v).time = s.time := rfl
@[simp] theorem State.setSal_selv (s : State) (v) : (s.setSal v).selv = s.selv := rfl
@[simp] theorem State.setSal_loom (s : State) (v) : (s.setSal v).loom = s.loom := rfl
@[simp] theorem State.setSal_twill (s : State) (v) : (s.setSal v).twill = s.twill := rfl
@[simp] theorem State.setSal_sense (s : State) (v) : (s.setSal v).sense = s.sense := rfl
@[simp] theorem State.setSal_hs (s : State) (v) : (s.setSal v).hs = s.hs := rfl
@[simp] theorem State.setSal_sal (s : State) (v) : (s.setSal v).sal = v := rfl
@[simp] theorem State.setSal_zw (s : State) (v) : (s.setSal v).zw = s.zw := rfl
@[simp] theorem State.setSal_grid (s : State) (v) : (s.setSal v).grid = s.grid := rfl
@[simp] theorem State.setSal_ks (s : State) (v) : (s.setSal v).ks = s.ks := rfl
@[simp] theorem State.setSal_links (s : State) (v) : (s.setSal v).links = s.links := rfl
@[simp] theorem State.setSal_ses (s : State) (v) : (s.setSal v).ses = s.ses := rfl
@[simp] theorem State.setSal_thermal (s : State) (v) : (s.setSal v).thermal = s.thermal := rfl
@[simp] theorem State.setSal_ledger (s : State) (v) : (s.setSal v).ledger = s.ledger := rfl
@[simp] theorem State.setSal_brine (s : State) (v) : (s.setSal v).brine = s.brine := rfl
@[simp] theorem State.setSal_can (s : State) (v) : (s.setSal v).can = s.can := rfl
@[simp] theorem State.setSal_out (s : State) (v) : (s.setSal v).out = s.out := rfl
@[simp] theorem State.setSal_free (s : State) (v) : (s.setSal v).free = s.free := rfl
@[simp] theorem State.setZw_now (s : State) (v) : (s.setZw v).now = s.now := rfl
@[simp] theorem State.setZw_pending (s : State) (v) : (s.setZw v).pending = s.pending := rfl
@[simp] theorem State.setZw_regs (s : State) (v) : (s.setZw v).regs = s.regs := rfl
@[simp] theorem State.setZw_live (s : State) (v) : (s.setZw v).live = s.live := rfl
@[simp] theorem State.setZw_mem (s : State) (v) : (s.setZw v).mem = s.mem := rfl
@[simp] theorem State.setZw_ecc (s : State) (v) : (s.setZw v).ecc = s.ecc := rfl
@[simp] theorem State.setZw_ladder (s : State) (v) : (s.setZw v).ladder = s.ladder := rfl
@[simp] theorem State.setZw_fabric (s : State) (v) : (s.setZw v).fabric = s.fabric := rfl
@[simp] theorem State.setZw_weft (s : State) (v) : (s.setZw v).weft = s.weft := rfl
@[simp] theorem State.setZw_power (s : State) (v) : (s.setZw v).power = s.power := rfl
@[simp] theorem State.setZw_startup (s : State) (v) : (s.setZw v).startup = s.startup := rfl
@[simp] theorem State.setZw_time (s : State) (v) : (s.setZw v).time = s.time := rfl
@[simp] theorem State.setZw_selv (s : State) (v) : (s.setZw v).selv = s.selv := rfl
@[simp] theorem State.setZw_loom (s : State) (v) : (s.setZw v).loom = s.loom := rfl
@[simp] theorem State.setZw_twill (s : State) (v) : (s.setZw v).twill = s.twill := rfl
@[simp] theorem State.setZw_sense (s : State) (v) : (s.setZw v).sense = s.sense := rfl
@[simp] theorem State.setZw_hs (s : State) (v) : (s.setZw v).hs = s.hs := rfl
@[simp] theorem State.setZw_sal (s : State) (v) : (s.setZw v).sal = s.sal := rfl
@[simp] theorem State.setZw_zw (s : State) (v) : (s.setZw v).zw = v := rfl
@[simp] theorem State.setZw_grid (s : State) (v) : (s.setZw v).grid = s.grid := rfl
@[simp] theorem State.setZw_ks (s : State) (v) : (s.setZw v).ks = s.ks := rfl
@[simp] theorem State.setZw_links (s : State) (v) : (s.setZw v).links = s.links := rfl
@[simp] theorem State.setZw_ses (s : State) (v) : (s.setZw v).ses = s.ses := rfl
@[simp] theorem State.setZw_thermal (s : State) (v) : (s.setZw v).thermal = s.thermal := rfl
@[simp] theorem State.setZw_ledger (s : State) (v) : (s.setZw v).ledger = s.ledger := rfl
@[simp] theorem State.setZw_brine (s : State) (v) : (s.setZw v).brine = s.brine := rfl
@[simp] theorem State.setZw_can (s : State) (v) : (s.setZw v).can = s.can := rfl
@[simp] theorem State.setZw_out (s : State) (v) : (s.setZw v).out = s.out := rfl
@[simp] theorem State.setZw_free (s : State) (v) : (s.setZw v).free = s.free := rfl
@[simp] theorem State.setGrid_now (s : State) (v) : (s.setGrid v).now = s.now := rfl
@[simp] theorem State.setGrid_pending (s : State) (v) : (s.setGrid v).pending = s.pending := rfl
@[simp] theorem State.setGrid_regs (s : State) (v) : (s.setGrid v).regs = s.regs := rfl
@[simp] theorem State.setGrid_live (s : State) (v) : (s.setGrid v).live = s.live := rfl
@[simp] theorem State.setGrid_mem (s : State) (v) : (s.setGrid v).mem = s.mem := rfl
@[simp] theorem State.setGrid_ecc (s : State) (v) : (s.setGrid v).ecc = s.ecc := rfl
@[simp] theorem State.setGrid_ladder (s : State) (v) : (s.setGrid v).ladder = s.ladder := rfl
@[simp] theorem State.setGrid_fabric (s : State) (v) : (s.setGrid v).fabric = s.fabric := rfl
@[simp] theorem State.setGrid_weft (s : State) (v) : (s.setGrid v).weft = s.weft := rfl
@[simp] theorem State.setGrid_power (s : State) (v) : (s.setGrid v).power = s.power := rfl
@[simp] theorem State.setGrid_startup (s : State) (v) : (s.setGrid v).startup = s.startup := rfl
@[simp] theorem State.setGrid_time (s : State) (v) : (s.setGrid v).time = s.time := rfl
@[simp] theorem State.setGrid_selv (s : State) (v) : (s.setGrid v).selv = s.selv := rfl
@[simp] theorem State.setGrid_loom (s : State) (v) : (s.setGrid v).loom = s.loom := rfl
@[simp] theorem State.setGrid_twill (s : State) (v) : (s.setGrid v).twill = s.twill := rfl
@[simp] theorem State.setGrid_sense (s : State) (v) : (s.setGrid v).sense = s.sense := rfl
@[simp] theorem State.setGrid_hs (s : State) (v) : (s.setGrid v).hs = s.hs := rfl
@[simp] theorem State.setGrid_sal (s : State) (v) : (s.setGrid v).sal = s.sal := rfl
@[simp] theorem State.setGrid_zw (s : State) (v) : (s.setGrid v).zw = s.zw := rfl
@[simp] theorem State.setGrid_grid (s : State) (v) : (s.setGrid v).grid = v := rfl
@[simp] theorem State.setGrid_ks (s : State) (v) : (s.setGrid v).ks = s.ks := rfl
@[simp] theorem State.setGrid_links (s : State) (v) : (s.setGrid v).links = s.links := rfl
@[simp] theorem State.setGrid_ses (s : State) (v) : (s.setGrid v).ses = s.ses := rfl
@[simp] theorem State.setGrid_thermal (s : State) (v) : (s.setGrid v).thermal = s.thermal := rfl
@[simp] theorem State.setGrid_ledger (s : State) (v) : (s.setGrid v).ledger = s.ledger := rfl
@[simp] theorem State.setGrid_brine (s : State) (v) : (s.setGrid v).brine = s.brine := rfl
@[simp] theorem State.setGrid_can (s : State) (v) : (s.setGrid v).can = s.can := rfl
@[simp] theorem State.setGrid_out (s : State) (v) : (s.setGrid v).out = s.out := rfl
@[simp] theorem State.setGrid_free (s : State) (v) : (s.setGrid v).free = s.free := rfl
@[simp] theorem State.setKs_now (s : State) (v) : (s.setKs v).now = s.now := rfl
@[simp] theorem State.setKs_pending (s : State) (v) : (s.setKs v).pending = s.pending := rfl
@[simp] theorem State.setKs_regs (s : State) (v) : (s.setKs v).regs = s.regs := rfl
@[simp] theorem State.setKs_live (s : State) (v) : (s.setKs v).live = s.live := rfl
@[simp] theorem State.setKs_mem (s : State) (v) : (s.setKs v).mem = s.mem := rfl
@[simp] theorem State.setKs_ecc (s : State) (v) : (s.setKs v).ecc = s.ecc := rfl
@[simp] theorem State.setKs_ladder (s : State) (v) : (s.setKs v).ladder = s.ladder := rfl
@[simp] theorem State.setKs_fabric (s : State) (v) : (s.setKs v).fabric = s.fabric := rfl
@[simp] theorem State.setKs_weft (s : State) (v) : (s.setKs v).weft = s.weft := rfl
@[simp] theorem State.setKs_power (s : State) (v) : (s.setKs v).power = s.power := rfl
@[simp] theorem State.setKs_startup (s : State) (v) : (s.setKs v).startup = s.startup := rfl
@[simp] theorem State.setKs_time (s : State) (v) : (s.setKs v).time = s.time := rfl
@[simp] theorem State.setKs_selv (s : State) (v) : (s.setKs v).selv = s.selv := rfl
@[simp] theorem State.setKs_loom (s : State) (v) : (s.setKs v).loom = s.loom := rfl
@[simp] theorem State.setKs_twill (s : State) (v) : (s.setKs v).twill = s.twill := rfl
@[simp] theorem State.setKs_sense (s : State) (v) : (s.setKs v).sense = s.sense := rfl
@[simp] theorem State.setKs_hs (s : State) (v) : (s.setKs v).hs = s.hs := rfl
@[simp] theorem State.setKs_sal (s : State) (v) : (s.setKs v).sal = s.sal := rfl
@[simp] theorem State.setKs_zw (s : State) (v) : (s.setKs v).zw = s.zw := rfl
@[simp] theorem State.setKs_grid (s : State) (v) : (s.setKs v).grid = s.grid := rfl
@[simp] theorem State.setKs_ks (s : State) (v) : (s.setKs v).ks = v := rfl
@[simp] theorem State.setKs_links (s : State) (v) : (s.setKs v).links = s.links := rfl
@[simp] theorem State.setKs_ses (s : State) (v) : (s.setKs v).ses = s.ses := rfl
@[simp] theorem State.setKs_thermal (s : State) (v) : (s.setKs v).thermal = s.thermal := rfl
@[simp] theorem State.setKs_ledger (s : State) (v) : (s.setKs v).ledger = s.ledger := rfl
@[simp] theorem State.setKs_brine (s : State) (v) : (s.setKs v).brine = s.brine := rfl
@[simp] theorem State.setKs_can (s : State) (v) : (s.setKs v).can = s.can := rfl
@[simp] theorem State.setKs_out (s : State) (v) : (s.setKs v).out = s.out := rfl
@[simp] theorem State.setKs_free (s : State) (v) : (s.setKs v).free = s.free := rfl
@[simp] theorem State.setLinks_now (s : State) (v) : (s.setLinks v).now = s.now := rfl
@[simp] theorem State.setLinks_pending (s : State) (v) : (s.setLinks v).pending = s.pending := rfl
@[simp] theorem State.setLinks_regs (s : State) (v) : (s.setLinks v).regs = s.regs := rfl
@[simp] theorem State.setLinks_live (s : State) (v) : (s.setLinks v).live = s.live := rfl
@[simp] theorem State.setLinks_mem (s : State) (v) : (s.setLinks v).mem = s.mem := rfl
@[simp] theorem State.setLinks_ecc (s : State) (v) : (s.setLinks v).ecc = s.ecc := rfl
@[simp] theorem State.setLinks_ladder (s : State) (v) : (s.setLinks v).ladder = s.ladder := rfl
@[simp] theorem State.setLinks_fabric (s : State) (v) : (s.setLinks v).fabric = s.fabric := rfl
@[simp] theorem State.setLinks_weft (s : State) (v) : (s.setLinks v).weft = s.weft := rfl
@[simp] theorem State.setLinks_power (s : State) (v) : (s.setLinks v).power = s.power := rfl
@[simp] theorem State.setLinks_startup (s : State) (v) : (s.setLinks v).startup = s.startup := rfl
@[simp] theorem State.setLinks_time (s : State) (v) : (s.setLinks v).time = s.time := rfl
@[simp] theorem State.setLinks_selv (s : State) (v) : (s.setLinks v).selv = s.selv := rfl
@[simp] theorem State.setLinks_loom (s : State) (v) : (s.setLinks v).loom = s.loom := rfl
@[simp] theorem State.setLinks_twill (s : State) (v) : (s.setLinks v).twill = s.twill := rfl
@[simp] theorem State.setLinks_sense (s : State) (v) : (s.setLinks v).sense = s.sense := rfl
@[simp] theorem State.setLinks_hs (s : State) (v) : (s.setLinks v).hs = s.hs := rfl
@[simp] theorem State.setLinks_sal (s : State) (v) : (s.setLinks v).sal = s.sal := rfl
@[simp] theorem State.setLinks_zw (s : State) (v) : (s.setLinks v).zw = s.zw := rfl
@[simp] theorem State.setLinks_grid (s : State) (v) : (s.setLinks v).grid = s.grid := rfl
@[simp] theorem State.setLinks_ks (s : State) (v) : (s.setLinks v).ks = s.ks := rfl
@[simp] theorem State.setLinks_links (s : State) (v) : (s.setLinks v).links = v := rfl
@[simp] theorem State.setLinks_ses (s : State) (v) : (s.setLinks v).ses = s.ses := rfl
@[simp] theorem State.setLinks_thermal (s : State) (v) : (s.setLinks v).thermal = s.thermal := rfl
@[simp] theorem State.setLinks_ledger (s : State) (v) : (s.setLinks v).ledger = s.ledger := rfl
@[simp] theorem State.setLinks_brine (s : State) (v) : (s.setLinks v).brine = s.brine := rfl
@[simp] theorem State.setLinks_can (s : State) (v) : (s.setLinks v).can = s.can := rfl
@[simp] theorem State.setLinks_out (s : State) (v) : (s.setLinks v).out = s.out := rfl
@[simp] theorem State.setLinks_free (s : State) (v) : (s.setLinks v).free = s.free := rfl
@[simp] theorem State.setSes_now (s : State) (v) : (s.setSes v).now = s.now := rfl
@[simp] theorem State.setSes_pending (s : State) (v) : (s.setSes v).pending = s.pending := rfl
@[simp] theorem State.setSes_regs (s : State) (v) : (s.setSes v).regs = s.regs := rfl
@[simp] theorem State.setSes_live (s : State) (v) : (s.setSes v).live = s.live := rfl
@[simp] theorem State.setSes_mem (s : State) (v) : (s.setSes v).mem = s.mem := rfl
@[simp] theorem State.setSes_ecc (s : State) (v) : (s.setSes v).ecc = s.ecc := rfl
@[simp] theorem State.setSes_ladder (s : State) (v) : (s.setSes v).ladder = s.ladder := rfl
@[simp] theorem State.setSes_fabric (s : State) (v) : (s.setSes v).fabric = s.fabric := rfl
@[simp] theorem State.setSes_weft (s : State) (v) : (s.setSes v).weft = s.weft := rfl
@[simp] theorem State.setSes_power (s : State) (v) : (s.setSes v).power = s.power := rfl
@[simp] theorem State.setSes_startup (s : State) (v) : (s.setSes v).startup = s.startup := rfl
@[simp] theorem State.setSes_time (s : State) (v) : (s.setSes v).time = s.time := rfl
@[simp] theorem State.setSes_selv (s : State) (v) : (s.setSes v).selv = s.selv := rfl
@[simp] theorem State.setSes_loom (s : State) (v) : (s.setSes v).loom = s.loom := rfl
@[simp] theorem State.setSes_twill (s : State) (v) : (s.setSes v).twill = s.twill := rfl
@[simp] theorem State.setSes_sense (s : State) (v) : (s.setSes v).sense = s.sense := rfl
@[simp] theorem State.setSes_hs (s : State) (v) : (s.setSes v).hs = s.hs := rfl
@[simp] theorem State.setSes_sal (s : State) (v) : (s.setSes v).sal = s.sal := rfl
@[simp] theorem State.setSes_zw (s : State) (v) : (s.setSes v).zw = s.zw := rfl
@[simp] theorem State.setSes_grid (s : State) (v) : (s.setSes v).grid = s.grid := rfl
@[simp] theorem State.setSes_ks (s : State) (v) : (s.setSes v).ks = s.ks := rfl
@[simp] theorem State.setSes_links (s : State) (v) : (s.setSes v).links = s.links := rfl
@[simp] theorem State.setSes_ses (s : State) (v) : (s.setSes v).ses = v := rfl
@[simp] theorem State.setSes_thermal (s : State) (v) : (s.setSes v).thermal = s.thermal := rfl
@[simp] theorem State.setSes_ledger (s : State) (v) : (s.setSes v).ledger = s.ledger := rfl
@[simp] theorem State.setSes_brine (s : State) (v) : (s.setSes v).brine = s.brine := rfl
@[simp] theorem State.setSes_can (s : State) (v) : (s.setSes v).can = s.can := rfl
@[simp] theorem State.setSes_out (s : State) (v) : (s.setSes v).out = s.out := rfl
@[simp] theorem State.setSes_free (s : State) (v) : (s.setSes v).free = s.free := rfl
@[simp] theorem State.setThermal_now (s : State) (v) : (s.setThermal v).now = s.now := rfl
@[simp] theorem State.setThermal_pending (s : State) (v) : (s.setThermal v).pending = s.pending := rfl
@[simp] theorem State.setThermal_regs (s : State) (v) : (s.setThermal v).regs = s.regs := rfl
@[simp] theorem State.setThermal_live (s : State) (v) : (s.setThermal v).live = s.live := rfl
@[simp] theorem State.setThermal_mem (s : State) (v) : (s.setThermal v).mem = s.mem := rfl
@[simp] theorem State.setThermal_ecc (s : State) (v) : (s.setThermal v).ecc = s.ecc := rfl
@[simp] theorem State.setThermal_ladder (s : State) (v) : (s.setThermal v).ladder = s.ladder := rfl
@[simp] theorem State.setThermal_fabric (s : State) (v) : (s.setThermal v).fabric = s.fabric := rfl
@[simp] theorem State.setThermal_weft (s : State) (v) : (s.setThermal v).weft = s.weft := rfl
@[simp] theorem State.setThermal_power (s : State) (v) : (s.setThermal v).power = s.power := rfl
@[simp] theorem State.setThermal_startup (s : State) (v) : (s.setThermal v).startup = s.startup := rfl
@[simp] theorem State.setThermal_time (s : State) (v) : (s.setThermal v).time = s.time := rfl
@[simp] theorem State.setThermal_selv (s : State) (v) : (s.setThermal v).selv = s.selv := rfl
@[simp] theorem State.setThermal_loom (s : State) (v) : (s.setThermal v).loom = s.loom := rfl
@[simp] theorem State.setThermal_twill (s : State) (v) : (s.setThermal v).twill = s.twill := rfl
@[simp] theorem State.setThermal_sense (s : State) (v) : (s.setThermal v).sense = s.sense := rfl
@[simp] theorem State.setThermal_hs (s : State) (v) : (s.setThermal v).hs = s.hs := rfl
@[simp] theorem State.setThermal_sal (s : State) (v) : (s.setThermal v).sal = s.sal := rfl
@[simp] theorem State.setThermal_zw (s : State) (v) : (s.setThermal v).zw = s.zw := rfl
@[simp] theorem State.setThermal_grid (s : State) (v) : (s.setThermal v).grid = s.grid := rfl
@[simp] theorem State.setThermal_ks (s : State) (v) : (s.setThermal v).ks = s.ks := rfl
@[simp] theorem State.setThermal_links (s : State) (v) : (s.setThermal v).links = s.links := rfl
@[simp] theorem State.setThermal_ses (s : State) (v) : (s.setThermal v).ses = s.ses := rfl
@[simp] theorem State.setThermal_thermal (s : State) (v) : (s.setThermal v).thermal = v := rfl
@[simp] theorem State.setThermal_ledger (s : State) (v) : (s.setThermal v).ledger = s.ledger := rfl
@[simp] theorem State.setThermal_brine (s : State) (v) : (s.setThermal v).brine = s.brine := rfl
@[simp] theorem State.setThermal_can (s : State) (v) : (s.setThermal v).can = s.can := rfl
@[simp] theorem State.setThermal_out (s : State) (v) : (s.setThermal v).out = s.out := rfl
@[simp] theorem State.setThermal_free (s : State) (v) : (s.setThermal v).free = s.free := rfl
@[simp] theorem State.setLedger_now (s : State) (v) : (s.setLedger v).now = s.now := rfl
@[simp] theorem State.setLedger_pending (s : State) (v) : (s.setLedger v).pending = s.pending := rfl
@[simp] theorem State.setLedger_regs (s : State) (v) : (s.setLedger v).regs = s.regs := rfl
@[simp] theorem State.setLedger_live (s : State) (v) : (s.setLedger v).live = s.live := rfl
@[simp] theorem State.setLedger_mem (s : State) (v) : (s.setLedger v).mem = s.mem := rfl
@[simp] theorem State.setLedger_ecc (s : State) (v) : (s.setLedger v).ecc = s.ecc := rfl
@[simp] theorem State.setLedger_ladder (s : State) (v) : (s.setLedger v).ladder = s.ladder := rfl
@[simp] theorem State.setLedger_fabric (s : State) (v) : (s.setLedger v).fabric = s.fabric := rfl
@[simp] theorem State.setLedger_weft (s : State) (v) : (s.setLedger v).weft = s.weft := rfl
@[simp] theorem State.setLedger_power (s : State) (v) : (s.setLedger v).power = s.power := rfl
@[simp] theorem State.setLedger_startup (s : State) (v) : (s.setLedger v).startup = s.startup := rfl
@[simp] theorem State.setLedger_time (s : State) (v) : (s.setLedger v).time = s.time := rfl
@[simp] theorem State.setLedger_selv (s : State) (v) : (s.setLedger v).selv = s.selv := rfl
@[simp] theorem State.setLedger_loom (s : State) (v) : (s.setLedger v).loom = s.loom := rfl
@[simp] theorem State.setLedger_twill (s : State) (v) : (s.setLedger v).twill = s.twill := rfl
@[simp] theorem State.setLedger_sense (s : State) (v) : (s.setLedger v).sense = s.sense := rfl
@[simp] theorem State.setLedger_hs (s : State) (v) : (s.setLedger v).hs = s.hs := rfl
@[simp] theorem State.setLedger_sal (s : State) (v) : (s.setLedger v).sal = s.sal := rfl
@[simp] theorem State.setLedger_zw (s : State) (v) : (s.setLedger v).zw = s.zw := rfl
@[simp] theorem State.setLedger_grid (s : State) (v) : (s.setLedger v).grid = s.grid := rfl
@[simp] theorem State.setLedger_ks (s : State) (v) : (s.setLedger v).ks = s.ks := rfl
@[simp] theorem State.setLedger_links (s : State) (v) : (s.setLedger v).links = s.links := rfl
@[simp] theorem State.setLedger_ses (s : State) (v) : (s.setLedger v).ses = s.ses := rfl
@[simp] theorem State.setLedger_thermal (s : State) (v) : (s.setLedger v).thermal = s.thermal := rfl
@[simp] theorem State.setLedger_ledger (s : State) (v) : (s.setLedger v).ledger = v := rfl
@[simp] theorem State.setLedger_brine (s : State) (v) : (s.setLedger v).brine = s.brine := rfl
@[simp] theorem State.setLedger_can (s : State) (v) : (s.setLedger v).can = s.can := rfl
@[simp] theorem State.setLedger_out (s : State) (v) : (s.setLedger v).out = s.out := rfl
@[simp] theorem State.setLedger_free (s : State) (v) : (s.setLedger v).free = s.free := rfl
@[simp] theorem State.setBrine_now (s : State) (v) : (s.setBrine v).now = s.now := rfl
@[simp] theorem State.setBrine_pending (s : State) (v) : (s.setBrine v).pending = s.pending := rfl
@[simp] theorem State.setBrine_regs (s : State) (v) : (s.setBrine v).regs = s.regs := rfl
@[simp] theorem State.setBrine_live (s : State) (v) : (s.setBrine v).live = s.live := rfl
@[simp] theorem State.setBrine_mem (s : State) (v) : (s.setBrine v).mem = s.mem := rfl
@[simp] theorem State.setBrine_ecc (s : State) (v) : (s.setBrine v).ecc = s.ecc := rfl
@[simp] theorem State.setBrine_ladder (s : State) (v) : (s.setBrine v).ladder = s.ladder := rfl
@[simp] theorem State.setBrine_fabric (s : State) (v) : (s.setBrine v).fabric = s.fabric := rfl
@[simp] theorem State.setBrine_weft (s : State) (v) : (s.setBrine v).weft = s.weft := rfl
@[simp] theorem State.setBrine_power (s : State) (v) : (s.setBrine v).power = s.power := rfl
@[simp] theorem State.setBrine_startup (s : State) (v) : (s.setBrine v).startup = s.startup := rfl
@[simp] theorem State.setBrine_time (s : State) (v) : (s.setBrine v).time = s.time := rfl
@[simp] theorem State.setBrine_selv (s : State) (v) : (s.setBrine v).selv = s.selv := rfl
@[simp] theorem State.setBrine_loom (s : State) (v) : (s.setBrine v).loom = s.loom := rfl
@[simp] theorem State.setBrine_twill (s : State) (v) : (s.setBrine v).twill = s.twill := rfl
@[simp] theorem State.setBrine_sense (s : State) (v) : (s.setBrine v).sense = s.sense := rfl
@[simp] theorem State.setBrine_hs (s : State) (v) : (s.setBrine v).hs = s.hs := rfl
@[simp] theorem State.setBrine_sal (s : State) (v) : (s.setBrine v).sal = s.sal := rfl
@[simp] theorem State.setBrine_zw (s : State) (v) : (s.setBrine v).zw = s.zw := rfl
@[simp] theorem State.setBrine_grid (s : State) (v) : (s.setBrine v).grid = s.grid := rfl
@[simp] theorem State.setBrine_ks (s : State) (v) : (s.setBrine v).ks = s.ks := rfl
@[simp] theorem State.setBrine_links (s : State) (v) : (s.setBrine v).links = s.links := rfl
@[simp] theorem State.setBrine_ses (s : State) (v) : (s.setBrine v).ses = s.ses := rfl
@[simp] theorem State.setBrine_thermal (s : State) (v) : (s.setBrine v).thermal = s.thermal := rfl
@[simp] theorem State.setBrine_ledger (s : State) (v) : (s.setBrine v).ledger = s.ledger := rfl
@[simp] theorem State.setBrine_brine (s : State) (v) : (s.setBrine v).brine = v := rfl
@[simp] theorem State.setBrine_can (s : State) (v) : (s.setBrine v).can = s.can := rfl
@[simp] theorem State.setBrine_out (s : State) (v) : (s.setBrine v).out = s.out := rfl
@[simp] theorem State.setBrine_free (s : State) (v) : (s.setBrine v).free = s.free := rfl
@[simp] theorem State.setCan_now (s : State) (v) : (s.setCan v).now = s.now := rfl
@[simp] theorem State.setCan_pending (s : State) (v) : (s.setCan v).pending = s.pending := rfl
@[simp] theorem State.setCan_regs (s : State) (v) : (s.setCan v).regs = s.regs := rfl
@[simp] theorem State.setCan_live (s : State) (v) : (s.setCan v).live = s.live := rfl
@[simp] theorem State.setCan_mem (s : State) (v) : (s.setCan v).mem = s.mem := rfl
@[simp] theorem State.setCan_ecc (s : State) (v) : (s.setCan v).ecc = s.ecc := rfl
@[simp] theorem State.setCan_ladder (s : State) (v) : (s.setCan v).ladder = s.ladder := rfl
@[simp] theorem State.setCan_fabric (s : State) (v) : (s.setCan v).fabric = s.fabric := rfl
@[simp] theorem State.setCan_weft (s : State) (v) : (s.setCan v).weft = s.weft := rfl
@[simp] theorem State.setCan_power (s : State) (v) : (s.setCan v).power = s.power := rfl
@[simp] theorem State.setCan_startup (s : State) (v) : (s.setCan v).startup = s.startup := rfl
@[simp] theorem State.setCan_time (s : State) (v) : (s.setCan v).time = s.time := rfl
@[simp] theorem State.setCan_selv (s : State) (v) : (s.setCan v).selv = s.selv := rfl
@[simp] theorem State.setCan_loom (s : State) (v) : (s.setCan v).loom = s.loom := rfl
@[simp] theorem State.setCan_twill (s : State) (v) : (s.setCan v).twill = s.twill := rfl
@[simp] theorem State.setCan_sense (s : State) (v) : (s.setCan v).sense = s.sense := rfl
@[simp] theorem State.setCan_hs (s : State) (v) : (s.setCan v).hs = s.hs := rfl
@[simp] theorem State.setCan_sal (s : State) (v) : (s.setCan v).sal = s.sal := rfl
@[simp] theorem State.setCan_zw (s : State) (v) : (s.setCan v).zw = s.zw := rfl
@[simp] theorem State.setCan_grid (s : State) (v) : (s.setCan v).grid = s.grid := rfl
@[simp] theorem State.setCan_ks (s : State) (v) : (s.setCan v).ks = s.ks := rfl
@[simp] theorem State.setCan_links (s : State) (v) : (s.setCan v).links = s.links := rfl
@[simp] theorem State.setCan_ses (s : State) (v) : (s.setCan v).ses = s.ses := rfl
@[simp] theorem State.setCan_thermal (s : State) (v) : (s.setCan v).thermal = s.thermal := rfl
@[simp] theorem State.setCan_ledger (s : State) (v) : (s.setCan v).ledger = s.ledger := rfl
@[simp] theorem State.setCan_brine (s : State) (v) : (s.setCan v).brine = s.brine := rfl
@[simp] theorem State.setCan_can (s : State) (v) : (s.setCan v).can = v := rfl
@[simp] theorem State.setCan_out (s : State) (v) : (s.setCan v).out = s.out := rfl
@[simp] theorem State.setCan_free (s : State) (v) : (s.setCan v).free = s.free := rfl
@[simp] theorem State.setOut_now (s : State) (v) : (s.setOut v).now = s.now := rfl
@[simp] theorem State.setOut_pending (s : State) (v) : (s.setOut v).pending = s.pending := rfl
@[simp] theorem State.setOut_regs (s : State) (v) : (s.setOut v).regs = s.regs := rfl
@[simp] theorem State.setOut_live (s : State) (v) : (s.setOut v).live = s.live := rfl
@[simp] theorem State.setOut_mem (s : State) (v) : (s.setOut v).mem = s.mem := rfl
@[simp] theorem State.setOut_ecc (s : State) (v) : (s.setOut v).ecc = s.ecc := rfl
@[simp] theorem State.setOut_ladder (s : State) (v) : (s.setOut v).ladder = s.ladder := rfl
@[simp] theorem State.setOut_fabric (s : State) (v) : (s.setOut v).fabric = s.fabric := rfl
@[simp] theorem State.setOut_weft (s : State) (v) : (s.setOut v).weft = s.weft := rfl
@[simp] theorem State.setOut_power (s : State) (v) : (s.setOut v).power = s.power := rfl
@[simp] theorem State.setOut_startup (s : State) (v) : (s.setOut v).startup = s.startup := rfl
@[simp] theorem State.setOut_time (s : State) (v) : (s.setOut v).time = s.time := rfl
@[simp] theorem State.setOut_selv (s : State) (v) : (s.setOut v).selv = s.selv := rfl
@[simp] theorem State.setOut_loom (s : State) (v) : (s.setOut v).loom = s.loom := rfl
@[simp] theorem State.setOut_twill (s : State) (v) : (s.setOut v).twill = s.twill := rfl
@[simp] theorem State.setOut_sense (s : State) (v) : (s.setOut v).sense = s.sense := rfl
@[simp] theorem State.setOut_hs (s : State) (v) : (s.setOut v).hs = s.hs := rfl
@[simp] theorem State.setOut_sal (s : State) (v) : (s.setOut v).sal = s.sal := rfl
@[simp] theorem State.setOut_zw (s : State) (v) : (s.setOut v).zw = s.zw := rfl
@[simp] theorem State.setOut_grid (s : State) (v) : (s.setOut v).grid = s.grid := rfl
@[simp] theorem State.setOut_ks (s : State) (v) : (s.setOut v).ks = s.ks := rfl
@[simp] theorem State.setOut_links (s : State) (v) : (s.setOut v).links = s.links := rfl
@[simp] theorem State.setOut_ses (s : State) (v) : (s.setOut v).ses = s.ses := rfl
@[simp] theorem State.setOut_thermal (s : State) (v) : (s.setOut v).thermal = s.thermal := rfl
@[simp] theorem State.setOut_ledger (s : State) (v) : (s.setOut v).ledger = s.ledger := rfl
@[simp] theorem State.setOut_brine (s : State) (v) : (s.setOut v).brine = s.brine := rfl
@[simp] theorem State.setOut_can (s : State) (v) : (s.setOut v).can = s.can := rfl
@[simp] theorem State.setOut_out (s : State) (v) : (s.setOut v).out = v := rfl
@[simp] theorem State.setOut_free (s : State) (v) : (s.setOut v).free = s.free := rfl
@[simp] theorem State.setFree_now (s : State) (v) : (s.setFree v).now = s.now := rfl
@[simp] theorem State.setFree_pending (s : State) (v) : (s.setFree v).pending = s.pending := rfl
@[simp] theorem State.setFree_regs (s : State) (v) : (s.setFree v).regs = s.regs := rfl
@[simp] theorem State.setFree_live (s : State) (v) : (s.setFree v).live = s.live := rfl
@[simp] theorem State.setFree_mem (s : State) (v) : (s.setFree v).mem = s.mem := rfl
@[simp] theorem State.setFree_ecc (s : State) (v) : (s.setFree v).ecc = s.ecc := rfl
@[simp] theorem State.setFree_ladder (s : State) (v) : (s.setFree v).ladder = s.ladder := rfl
@[simp] theorem State.setFree_fabric (s : State) (v) : (s.setFree v).fabric = s.fabric := rfl
@[simp] theorem State.setFree_weft (s : State) (v) : (s.setFree v).weft = s.weft := rfl
@[simp] theorem State.setFree_power (s : State) (v) : (s.setFree v).power = s.power := rfl
@[simp] theorem State.setFree_startup (s : State) (v) : (s.setFree v).startup = s.startup := rfl
@[simp] theorem State.setFree_time (s : State) (v) : (s.setFree v).time = s.time := rfl
@[simp] theorem State.setFree_selv (s : State) (v) : (s.setFree v).selv = s.selv := rfl
@[simp] theorem State.setFree_loom (s : State) (v) : (s.setFree v).loom = s.loom := rfl
@[simp] theorem State.setFree_twill (s : State) (v) : (s.setFree v).twill = s.twill := rfl
@[simp] theorem State.setFree_sense (s : State) (v) : (s.setFree v).sense = s.sense := rfl
@[simp] theorem State.setFree_hs (s : State) (v) : (s.setFree v).hs = s.hs := rfl
@[simp] theorem State.setFree_sal (s : State) (v) : (s.setFree v).sal = s.sal := rfl
@[simp] theorem State.setFree_zw (s : State) (v) : (s.setFree v).zw = s.zw := rfl
@[simp] theorem State.setFree_grid (s : State) (v) : (s.setFree v).grid = s.grid := rfl
@[simp] theorem State.setFree_ks (s : State) (v) : (s.setFree v).ks = s.ks := rfl
@[simp] theorem State.setFree_links (s : State) (v) : (s.setFree v).links = s.links := rfl
@[simp] theorem State.setFree_ses (s : State) (v) : (s.setFree v).ses = s.ses := rfl
@[simp] theorem State.setFree_thermal (s : State) (v) : (s.setFree v).thermal = s.thermal := rfl
@[simp] theorem State.setFree_ledger (s : State) (v) : (s.setFree v).ledger = s.ledger := rfl
@[simp] theorem State.setFree_brine (s : State) (v) : (s.setFree v).brine = s.brine := rfl
@[simp] theorem State.setFree_can (s : State) (v) : (s.setFree v).can = s.can := rfl
@[simp] theorem State.setFree_out (s : State) (v) : (s.setFree v).out = s.out := rfl
@[simp] theorem State.setFree_free (s : State) (v) : (s.setFree v).free = v := rfl

end Sys2Proof.Machine
end

