-- ==== Sys2Proof/Laws/Weft.lean ====
section
/-!
SUPPORT. Laws/Weft.lean: what an instruction of a context that issues does to the contexts.
-/
set_option Elab.async false
namespace Sys2Proof.Machine
set_option linter.all false

theorem engOf_ctxKey (c : CtxId) : engOf (ctxKey c) = c.eng.val := by
  have := c.ctx.isLt
  simp only [engOf, ctxKey, CtxKey]
  omega

theorem ctxKey_mod (c : CtxId) : ctxKey c % 4 = c.ctx.val := by
  have := c.ctx.isLt
  simp only [ctxKey, CtxKey]
  omega

/-- A word that passes its check is read; what its read-back recovers touches no context. -/
theorem State.checkRead_good {s : State} {a : Nat} (h : s.damage a = .none) (u : s.unknown a = false) :
    s.checkRead a = (true, s.eccReadBack a) := by
  simp [State.checkRead, State.settleWord, h, u]

/-- An instruction that a context issues has its effect on a state with the same contexts. -/
theorem weft_of_runs {s : State} {c : CtxId} (h : Runs s c) (f : Nat → State → State) :
    ∃ s', weft c s f = f (ctxKey c) s' ∧ Moves [.ecc, .ladder, .regs] s s' := by
  obtain ⟨hi, ha, hm, hd, hu⟩ := h
  refine ⟨s.eccReadBack (itcmKey c.eng.val + ((s.ctx (ctxKey c)).pc.toNat - 0x60000000)), ?_, (s.eccReadBack_moves _).mono (.of rfl)⟩
  have hf : s.fetches (ctxKey c) =
      (true, s.eccReadBack (itcmKey c.eng.val + ((s.ctx (ctxKey c)).pc.toNat - 0x60000000))) := by
    simp only [State.fetches, engOf_ctxKey]
    rw [if_neg (by simp [ha, hm]), State.checkRead_good hd hu]
    rfl
  simp only [weft, hi, if_true, hf]

theorem ctx_of_weft {s t : State} (h : t.weft = s.weft) (k : Nat) : t.ctx k = s.ctx k := by
  simp [State.ctx, h]

/-- An instruction that acts on its own context only. -/
theorem turns_of_setCtx {s : State} {c : CtxId} {i : Instr} {f : Nat → State → State} {P : Context → Context → Prop}
    (h : Runs s c) (he : exec i s = .next (weft c s f))
    (g : ∀ s' : State, s'.weft = s.weft → ∃ y, f (ctxKey c) s' = s'.setCtx (ctxKey c) y ∧ P (s.ctx (ctxKey c)) y) :
    Turns i s c P := by
  obtain ⟨s', hw, hm⟩ := weft_of_runs h f
  have hw' : s'.weft = s.weft := hm.rest .weft rfl
  obtain ⟨y, hy, hp⟩ := g s' hw'
  refine ⟨_, he.trans (by rw [hw, hy]), ?_, ?_, ?_⟩
  · simpa using hp
  · intro k hk
    rw [State.ctx_setCtx_ne _ _ hk]
    exact ctx_of_weft hw' k
  · exact (hm.mono (.of rfl)).trans ((State.setCtx_moves ..).mono (.of rfl))

/-- w[d] takes the value, but for w0. -/
theorem Context.reg_put (x : Context) (d : Nat) (v : Word) (i : Nat) :
    (x.put d v).reg i = if i = d ∧ d ≠ 0 then v else x.reg i := by
  by_cases hd : d = 0
  · simp [Context.put, hd]
  · by_cases hi : i = 0
    · have : ¬ (i = d) := fun h => hd (h ▸ hi)
      simp [Context.put, Context.reg, hd, hi, Ne.symm hd]
    · simp only [Context.put, Context.reg, if_neg hd, if_neg hi, Tab.get_set]
      simp [hd]

/-- A write of one register and the step to the next instruction. -/
theorem puts_advance (x : Context) (d : Nat) (v : Word) : Puts x (x.put d v).advance d v := by
  refine ⟨fun i => ?_, ?_⟩
  · have h : ∀ y : Context, y.advance.reg i = y.reg i := fun y => rfl
    rw [h, Context.reg_put]
  · by_cases hd : d = 0 <;> simp [Context.put, Context.advance, hd]

theorem turns_weftCtx {s : State} {c : CtxId} {i : Instr} {f : Context → Context} {P : Context → Context → Prop}
    (h : Runs s c) (he : exec i s = .next (weftCtx c s f)) (hp : P (s.ctx (ctxKey c)) (f (s.ctx (ctxKey c))).advance) :
    Turns i s c P :=
  turns_of_setCtx h he (fun s' hw => ⟨_, rfl, by rw [ctx_of_weft hw]; exact hp⟩)

/-- An instruction that writes one register. -/
theorem turns_puts {s : State} {c : CtxId} {i : Instr} {d : Nat} {f : Context → Word} {v : Word} (h : Runs s c)
    (he : exec i s = .next (weftCtx c s (fun x => x.put d (f x)))) (hv : f (s.ctx (ctxKey c)) = v) :
    Turns i s c (fun x y => Puts x y d v) :=
  turns_weftCtx h he (by subst hv; exact puts_advance ..)

end Sys2Proof.Machine
end

