-- ==== Sys2Proof/Tests/Slice0.lean ====
section
/-!
SUPPORT. Tests/Slice0.lean: the commands that WellFormed refuses, single steps with the numbers of the spec's examples, and
for each statement states and operands that meet its hypotheses, clause by clause.
-/
set_option Elab.async false
open Sys2Proof Sys2Proof.Machine
set_option linter.unusedVariables false
set_option synthInstance.maxSize 4000
set_option synthInstance.maxHeartbeats 400000

/-- The bytes `l` from address `a` on, in an empty memory. -/
def Sys2Proof.Tests.wCells (a : Nat) (l : List Byte) : Tab Byte :=
  (l.zipIdx.filter (fun e => e.1 ≠ 0)).map (fun e => (a + e.2, e.1))
def Sys2Proof.Machine.State.wPut (s : State) (a : Nat) (l : List Byte) : State := s.setMem (Sys2Proof.Tests.wCells a l)

namespace Sys2Proof.Tests

/-- Context 0 of WS[0] runs and issues. -/
def wRun : State := State.reset.setCtx 0 { Context.reset with run := .running, pc := 0x60000000 }
/-- The same with `f` applied to the context. -/
def wCtx (f : Context → Context) : State := wRun.setCtx 0 (f (wRun.ctx 0))
/-- w[i] := v in the context. -/
def wReg (l : List (Nat × Word)) : State := wCtx (fun x => l.foldl (fun x e => x.put e.1 e.2) x)
/-- A transaction. -/
def wX (ctx : Nat) (addr : Word) (kind : XKind) : Xact :=
  { slot := 0, ctx := ctx, addr := addr, kind := kind, since := 0, promoted := false, failed := false }
def wOut (l : List Xact) (s : State) : State := s.setFabric { s.fabric with out := l }
def wNow (t : Nat) (s : State) : State := s.setNow t
/-- Engine 0 of Twill is in a run of slot 2. -/
def wTw : State :=
  (State.reset.setFlag (Reg.TW_CTRL 0) F.TW_CTRL_RUN true).setTe 0 { Engine.reset with run := some ⟨2, 0, 1, none⟩ }
def wTe (f : Engine → Engine) : State := wTw.setTe 0 (f (wTw.te 0))
def wAcc (l : List (Nat × Int)) : State := wTe (fun x => l.foldl (fun x e => x.setA e.1 (BitVec.ofInt 64 e.2)) x)
/-- Channel 0 of Loom runs with a period of 1600 ticks. -/
def wCh (f : Channel → Channel) : State := State.reset.setCh 0 (f { Channel.reset with run := true })
/-- Outlet 0 is enabled with inputs 0, 1, 2, which are fresh; module 0 with inputs 3, 4, and crosspoint 0 joins them. -/
def wMx : State :=
  let s := (((State.reset.setFlag (Reg.OUTL_CFG 0) F.OUTL_CFG_EN true).setFld (Reg.OUTL_CFG 0) F.OUTL_CFG_VV_AIN 0).setFld
    (Reg.OUTL_CFG 0) F.OUTL_CFG_VB_AIN 1).setFld (Reg.OUTL_CFG 0) F.OUTL_CFG_I_AIN 2
  let s := ((s.setFlag (Reg.MOD_CFG 0) F.MOD_CFG_EN true).setFld (Reg.MOD_SNS 0) F.MOD_SNS_I_AIN 3).setFld (Reg.MOD_SNS 0)
    F.MOD_SNS_V_AIN 4
  let s := [0, 1, 2, 3, 4].foldl (fun s n => s.setAin n ⟨some 0, 0⟩) s
  s.setFlag (Reg.XP 0) F.XP_EN true
/-- The Ledger has its supply and its state. -/
def wLed (f : Ledger → Ledger) : State := State.reset.setLedger (f { Ledger.reset with down := false })
/-- A parameter block: outlet 3 of R350's example is metered. -/
def wParHead : List Byte :=
  [1, 0, 0, 0, 8, 4, 10, 0] ++ (List.range 8).flatMap (fun _ => leBytes 2 10) ++ List.replicate 8 0 ++
  (List.range 8).flatMap (fun o => leBytes 1 (if o = 3 then 1 else 0) ++ leBytes 1 0 ++ leBytes 2 5 ++ leBytes 4 30000 ++
    leBytes 4 15000 ++ leBytes 4 40000 ++ List.replicate 16 0)
def wParBlk : List Byte := wParHead ++ leBytes 4 (crc32 wParHead).toNat
/-- The Ledger runs on those parameters. -/
def wMet (f : Ledger → Ledger) : State :=
  (wLed (fun g => f { g with par := wParBlk, running := true, image := true, imageAt := 0 })).setFlag (Reg.MET_O_FLAGS 3) F.MET_O_FLAGS_EN true
/-- Samples with the codes v and c on the channels of outlet 3. -/
def wSamples (n : Nat) (v c : BitVec 24) : List (List (BitVec 24)) :=
  List.replicate n [0, 0, 0, 0, 0, 0, v, c, 0, 0, 0, 0, 0, 0, 0, 0]
def wReq (snap : Option ReadSnap) (cyc : Nat) : Reading := ⟨2, 3, List.replicate 16 9, cyc, snap⟩
def wSaved (seq imp rseq : Nat) : Saved :=
  ⟨seq, [(3, { Meter.reset with imp := imp })], rseq, none, Tariff.reset⟩
/-- Parameter blocks at an address of shared SRAM. -/
def wAt (l : List Byte) (s : State) : State := (s.wPut 0x01000100 l).wr Reg.EVS_ADDR 0x01000100
/-- A calendar with DI_LEN 15 and BILL_DAY 1; its one profile has no switch point, so the rate is DEF_RATE. -/
def wCalHead (act flags rate : Nat) : List Byte :=
  leBytes 4 1 ++ leBytes 8 act ++ leBytes 4 3600 ++ [15, 1, 0, 0] ++ leBytes 1 flags ++ leBytes 1 rate ++ leBytes 2 978 ++
  [1, 1, 0, 1] ++ List.replicate 12 0 ++ List.replicate 64 0 ++ List.replicate 384 0 ++ List.replicate 256 0 ++
  List.replicate 256 0 ++ (List.range 8).flatMap (fun r => leBytes 4 (100000 * (r + 1))) ++ [0, 0, 0, 0]
def wCal (act flags rate : Nat) : List Byte := wCalHead act flags rate ++ leBytes 4 (crc32 (wCalHead act flags rate)).toNat
/-- The tariff unit is enabled on that calendar; TB[3] reads `sec`. -/
def wTar (sec : Nat) (f : Tariff → Tariff) : State :=
  let s := (wMet (fun g => { g with tariff := f { Tariff.reset with act := some (wCal 0 0 2), used := true, rate := 2 } })).setFlag
    Reg.TAR_CTRL F.TAR_CTRL_EN true
  s.setTb 3 ((s.tb 3).rebase 0 (sec * tbSecond) 0)
/-- Context 0 waits in SCALL f with the argument block at 0x0100_0000; slot 5 holds a key. -/
def wKey (alg n : Nat) : KeyRec := ⟨alg, 0x1FF, 0x1FFF, List.replicate n 0x5A, List.replicate n 0xA5⟩
def wKs (f : Nat) (args : List Nat) (alg : Nat) (k : KeyStore → KeyStore) : State :=
  let s := wCtx (fun x => { x with stall := .scall 3 })
  let s := s.setKs (k { KeyStore.reset with reqs := [⟨0, f, 0x01000000, 0⟩], slot := [(5, some (wKey alg (algLen alg)))] })
  (s.putBytes 0x01000000 (args.flatMap (leBytes 4))).setFlag Reg.KS_STATUS F.KS_STATUS_DRBG_OK true
/-- A safety configuration: pairs 0 to 2 in mode 1, SOUT[3] on the current of outlet 3, SOUT[9] with a brake test. -/
def wCfgHead : List Byte :=
  [1, 0, 0, 0, 4, 10, 0, 0] ++ leBytes 2 1000 ++ leBytes 2 300 ++ [0, 1, 2, 1] ++
  (List.range 16).flatMap (fun n => if n < 3 then [1, 8] ++ leBytes 2 10 ++ leBytes 2 5 ++ [3, 0] else List.replicate 8 0) ++
  (List.range 10).flatMap (fun m =>
    if m = 3 then [1, 3, 0, 0] ++ leBytes 4 0 ++ leBytes 4 41943 ++ leBytes 4 0
    else if m = 9 then [1, 0xFF, 0, 0] ++ leBytes 4 0 ++ leBytes 4 1 ++ leBytes 4 0 else List.replicate 16 0) ++
  leBytes 4 100 ++ leBytes 2 100 ++ List.replicate 198 0
def wCfg : List Byte := wCfgHead ++ leBytes 4 (crc32 wCfgHead).toNat
/-- Selvedge is in RUN on that configuration, SAFE_EN[3] and SAFE_EN[9] are committed. -/
def wSel (f : Selvedge → Selvedge) : State :=
  let s := (State.reset.wPut pairDtcm wCfg).setFld Reg.SFS_STATUS F.SFS_STATUS_STATE 1
  let s := (s.wr Reg.SFS_OUT_EN 0x208).wrLive Reg.SFS_OUT_EN 0x208
  let s := s.setFlag Reg.SFS_STATUS F.SFS_STATUS_RST_NOTE false
  s.setSelv (f s.selv)
/-- The levels of the three pairs are high. -/
def wHigh (s : State) : State := s.wr Reg.SFS_RAW 0x00070007

/-! One step, with the numbers of the spec's examples -/

/-- The state that a command leaves. -/
def after (i : Instr) (s : State) : State :=
  match exec i s with
  | .next t => t
  | _ => s

/-- Every command but three is well formed; these operands are refused (R25, R41, R117). -/
theorem test_wf_nop_with_a_legal_word : (Instr.twNop 0 0x9400000000000000).wellFormed = false := by decide
theorem test_wf_nop_of_zeros : (Instr.twNop 0 0).wellFormed = true := by decide
theorem test_wf_illegal_with_a_legal_word : (Instr.illegalInstruction ⟨0, 0⟩ 0x55804140).wellFormed = false := by decide
theorem test_wf_illegal : (Instr.illegalInstruction ⟨0, 0⟩ 0xFFFFFFFF).wellFormed = true := by decide
theorem test_wf_third_copy_of_two : (Instr.ladderCopyFault false 2).wellFormed = false := by decide
theorem test_ill_formed_stops : exec (.ladderCopyFault false 2) State.reset = .fault .illFormed := by rfl

theorem test_no_word_spells_a_command : decodeTableWord 32 0x55804140 = none := by decide
theorem test_step_takes_the_front : step (State.reset.setPending [.hsLock, .debugReset]) =
    exec .hsLock (State.reset.setPending [.debugReset]) := by rfl
theorem test_idle_step : step State.reset = .next (State.reset.setNow 1) := by rfl

/-! Premises of the statements that have no clauses -/

theorem test_meets_Runs : Runs wRun ⟨0, 0⟩ := by decide +kernel
theorem test_meets_canonical : State.reset.canonical := by
  refine ⟨?_, ?_, ?_⟩ <;> decide
theorem test_meets_step : ∃ t, step State.reset = .next t := ⟨_, rfl⟩
theorem test_meets_exec : ∃ t, exec .hsLock State.reset = .next t := ⟨_, rfl⟩
theorem test_meets_late_errAck :
    let s := ((State.reset.setFlag (Reg.ERR_BLK_STATUS 0) F.ERR_BLK_STATUS_OPEN true).setFlag (Reg.ERR_BLK_CTRL 0)
      F.ERR_BLK_CTRL_RECOVERED true).setBlkRec 0 { BlkRec.reset with timer := some 0 }
    (s.setNow 16000000).acts .ladder ∧ (s.setNow 16000000).reached (s.blkDue 0) = true ∧
      (s.setNow 15999999).reached (s.blkDue 0) = false := by decide +kernel
theorem test_meets_late_regionUp :
    let s := (State.reset.setFlag (Reg.ERR_REG_STATUS 1) F.ERR_REG_STATUS_OPEN true).setRegRec 1
      { RegRec.reset with timer := some 0 }
    (s.setNow 800000000).reached (s.regDue 1) = true ∧ (s.regRec 1).inReset = false := by decide +kernel

/-! Weft: the three-tap sum of its chapter -/

theorem test_macz : ((after (.macz ⟨0, 0⟩ 1 4 1 false) (wReg [(1, 0x40000000), (4, 0x70000000)])).ctx 0).acc =
    0x0E00000000000000 := by decide +kernel
theorem test_mac : ((after (.mac ⟨0, 0⟩ 2 5 1 false) (wCtx (fun x => { (x.put 2 0x60000000).put 5 0x70000000 with
    acc := 0x0E00000000000000 }))).ctx 0).acc = 0x2300000000000000 := by decide +kernel
theorem test_add_wraps : ((after (.add ⟨0, 0⟩ 3 1 2) (wReg [(1, 0xFFFFFFFF), (2, 2)])).ctx 0).reg 3 = 1 := by decide +kernel
theorem test_w0_stays : ((after (.add ⟨0, 0⟩ 0 1 1) (wReg [(1, 5)])).ctx 0).reg 0 = 0 := by decide +kernel
theorem test_adds_clamps : let x := (after (.adds ⟨0, 0⟩ 3 1 2) (wReg [(1, 0x7FFFFFFF), (2, 1)])).ctx 0
    x.reg 3 = 0x7FFFFFFF ∧ x.status = 1 := by decide +kernel
theorem test_clz_of_zero : ((after (.clz ⟨0, 0⟩ 3 1) (wReg [])).ctx 0).reg 3 = 32 := by decide +kernel
theorem test_clz : ((after (.clz ⟨0, 0⟩ 3 1) (wReg [(1, 0x00010000)])).ctx 0).reg 3 = 15 := by decide +kernel
theorem test_blt_is_signed : ((after (.blt ⟨0, 0⟩ 1 2 (-3)) (wReg [(1, 0x80000000)])).ctx 0).pc = 0x5FFFFFF4 := by
  decide +kernel
theorem test_trap : let x := (after (.trap ⟨0, 0⟩ 7) (wReg [])).ctx 0
    x.pc = 0x60000000 ∧ x.epc = 0x60000004 := by decide +kernel

/-! Twill: steps 11, 12 and 14 of its worked example -/

theorem test_maca : ((after (.maca 0 8 7 5) (((wAcc [(8, 0x45B00000), (7, 0x02800000)]).wrLive (Reg.TW_COEF_VAL 0 5)
    0x40000000).wrLive (Reg.TW_COEF_SHIFT 0 5) 30)).te 0).a 8 = 0x46000000 := by decide +kernel
theorem test_mula : ((after (.mula 0 4 7 4) (((wAcc [(7, 0x02800000)]).wrLive (Reg.TW_COEF_VAL 0 4)
    0x40000000).wrLive (Reg.TW_COEF_SHIFT 0 4) 4)).te 0).a 4 = 0x14000000 := by decide +kernel
theorem test_adda : ((after (.adda 0 4 4 8) (wAcc [(4, 0x14000000), (8, 0x46000000)])).te 0).a 4 = 0x5A000000 := by
  decide +kernel

/-! Words of the spec's encodings -/

theorem test_decode_weft : decodeWeft ⟨0, 0⟩ 0x10000000 = .add ⟨0, 0⟩ 0 0 0 ∧ decodeWeft ⟨0, 0⟩ 0x55804140 = .lhi ⟨0, 0⟩ 10 0x6010 ∧
    decodeWeft ⟨0, 0⟩ 0x6000206A = .lw ⟨0, 0⟩ 3 10 8 ∧ decodeWeft ⟨0, 0⟩ 0x18609402 = .mac ⟨0, 0⟩ 2 5 1 false ∧
    decodeWeft ⟨0, 0⟩ 0x740060EA = .sw ⟨0, 0⟩ 7 10 24 ∧ decodeWeft ⟨0, 0⟩ 0 = .illegalInstruction ⟨0, 0⟩ 0 := by
  decide +kernel
theorem test_decode_twill : decodeTwill 1 0x11808E0080000000 = .mulc 1 6 0x238 2 ∧
    decodeTwill 1 0x624A080201000000 = .minsel 1 9 2 4 4 0x10 8 ∧ decodeTwill 1 0x9038480000000000 = .twOut 1 14 2 1 := by
  decide +kernel

/-! The power stage -/

theorem test_adc_scaling : (after (.adcConversionComplete 2 10240) ((State.reset.setAdc 2 { Adc.reset with
    busy := [⟨3, 0, 7, 7, 7⟩] }).setFld (Reg.AIN_CAL_GAIN 2) F.AIN_CAL_GAIN_GAIN 0x140000)).rd (Reg.AIN_RES 2) = 0x64000000 := by
  decide +kernel
theorem test_loom_run : (after (.loomRun 0xF) State.reset).fld Reg.LOOM_RUN F.LOOM_RUN_VAL = 0xF := by decide +kernel

/-! Metering, cables and rails -/

theorem test_energy_of_a_block : 1694351200000000 / residueUnit = 58831 ∧ 1694351200000000 % residueUnit = 18400000000 := by
  decide
theorem test_model_candidate : (((((((State.reset.setFld (Reg.CBL_CFG 3) F.CBL_CFG_COOL_TS 40).setFld (Reg.TS_VAL 40)
    F.TS_VAL_T 450).setFld (Reg.CBL_RATED 3) F.CBL_RATED_RATED 30000).wr (Reg.CBL_R20 3) 100000).wr (Reg.CBL_RTH 3) 30000).wr
    (Reg.CBL_CTH 3) 0x04B00F5A).wr (Reg.CBL_MLIM 3) 0x032002BC).modelCand 3 0 = 26390 := by decide +kernel
theorem test_tlim : tlimOf 26300 = 0x52300000 := by decide
theorem test_tlim_of_no_limit : tlimOf 0xFFFF = 0x7FFFFFFF := by decide
theorem test_brine_ramp : ((after (.brinePeriod 12000 0 0 []) (((State.reset.setFlag Reg.BR_CTRL F.BR_CTRL_EN true).wr Reg.BR_VSET
    0x2EE03A98).setBrine { Brine.reset with rref := 12000000000000 })).brine).rref = 12030000000000 := by decide +kernel
theorem test_trip_counts : (after (.hsOvercurrentTrip 4 6) (((State.reset.setHs { Switches.reset with
    behave := false }).setBit Reg.HS_ON F.HS_ON_VAL 4 true).setFld (Reg.HS_STAT 4) F.HS_STAT_STATE 1)).fld (Reg.HS_STAT 4)
    F.HS_STAT_RCNT = 1 := by decide +kernel

/-! The CAN offset of +130 ns, and the order of arbitration -/

theorem test_can_offset : let s := (((((State.reset.setFlag (Reg.CAN_CTRL 1) F.CAN_CTRL_EN true).setFlag (Reg.CAN_CTRL 1)
      F.CAN_CTRL_FD_EN true).setFld (Reg.CAN_REF_CFG 1) F.CAN_REF_CFG_ROLE 2).setFld (Reg.CAN_REF_TIME 1)
      F.CAN_REF_TIME_DELAY_NS 200).setFld Reg.CAN_GLB F.CAN_GLB_TSYNC_CH 1).setTb 2 { State.reset.tb 2 with src := .can }
    ((after (.canFrameRx 1 ⟨0, false, false, true, false, false, 9, [42, 1] ++ leBytes 6 1000 ++ leBytes 4 250000100⟩ 0)
      (s.setCanCtl 1 { CanCtl.reset with joined := true, refGot := some (41, 1000250000430) })).tb 2).theta = [130] := by
  decide +kernel
theorem test_arbitration : arbKey ⟨0x1FFC0000, false, false, true, false, false, 8, []⟩ <
    arbKey ⟨0x1FFC0001, true, false, true, false, false, 8, []⟩ := by decide

/-! Session, keys and safety -/

theorem test_clamp : clampItem 24000 (3000, 0) = (24000, -1) := by decide +kernel
theorem test_crc32 : crc32 [0x31, 0x32, 0x33, 0x34, 0x35, 0x36, 0x37, 0x38, 0x39] = 0xCBF43926 := by decide +kernel

/-! Resets and start-up -/

theorem test_reset_source_order : lastSource [9, 2, 4] = 4 ∧ lastSource [3, 2] = 2 ∧ lastSource [4, 0] = 0 := by decide
theorem test_wrong_key : after (.rstCmdHub 0xA55B) State.reset = State.reset := by decide +kernel
theorem test_pin_reset : let t := after .resetPin State.reset
    t.power.hubReset = true ∧ t.fld Reg.RST_LAST F.RST_LAST_CODE = 3 := by decide +kernel
theorem test_no_bank_talks : (after (.bankLoad false) (State.reset.setFld Reg.ST_STATUS F.ST_STATUS_PHASE 2)).fld Reg.ST_STATUS
    F.ST_STATUS_STS_CAUSE = 3 := by decide +kernel

/-! Each statement has states and operands that meet the hypotheses of each of its clauses -/

/-- The hypotheses of FabricWritesTakeEffect, clause by clause. -/
def hypFabricWritesTakeEffect (s : State) (slot : Fin 19) (addr : Word) (data : Word) (size : Fin 3) (clause : Nat) : Bool :=
  let a := addr.toNat
  let n := sizeOf3 size
  match clause with
  | 1 => decide ((s.acts .fabric) ∧ (s.fabric.closed = false ∧ s.goesAtOnce slot.val (BitVec.ofNat 32 Reg.ERR_CHIP_TMO) 4 = true ∧ s.flag Reg.ERR_LOCK F.ERR_LOCK_LOCK = false))
  | 2 => decide ((s.acts .fabric) ∧ (s.fabric.closed = false ∧ s.goesAtOnce slot.val (BitVec.ofNat 32 Reg.ERR_CHIP_TMO) 4 = true ∧ s.flag Reg.ERR_LOCK F.ERR_LOCK_LOCK = true))
  | 3 => decide ((s.acts .fabric) ∧ (s.fabric.closed = false ∧ s.goesAtOnce slot.val addr n = true ∧ inSram a = true ∧ a % n = 0 ∧ s.damage a = .none ∧ s.ecc.lost = [] ∧ (n < 4 → s.unknown a = false)))
  | 4 => decide ((s.acts .fabric) ∧ (s.fabric.closed = false ∧ s.refused a n = true))
  | 5 => decide ((s.acts .fabric) ∧ (s.fabric.closed = false ∧ tcmWindow 0 ≤ a ∧ a < tcmWindow 8 ∧ inTcm a = true ∧ tcmIsInstr a = false ∧ a % n = 0 ∧ s.damage a = .none ∧ s.ecc.lost = [] ∧ (n < 4 → s.unknown a = false) ∧ s.goesAtOnce slot.val addr n = true))
  | 6 => decide ((s.acts .fabric) ∧ (s.fabric.closed = false ∧ tcmWindow 0 ≤ a ∧ a < tcmWindow 8 ∧ inTcm a = true ∧ tcmIsInstr a = true ∧ a % n = 0 ∧ s.goesAtOnce slot.val addr n = true ∧ (∃ j : Fin 4, (s.ctx (CtxKey (tcmOwner a) j.val)).run ≠ .stopped)))
  | 7 => decide ((s.acts .fabric) ∧ (s.unknown a = false))
  | 8 => decide ((s.acts .fabric) ∧ (s.fabric.closed = false ∧ s.goesAtOnce slot.val addr n = false ∧ s.canIssue (outsideXact s.now slot.val addr data n) = true))
  | 9 => decide ((s.acts .fabric) ∧ (s.fabric.closed = false ∧ s.goesAtOnce slot.val addr n = false ∧ s.canIssue (outsideXact s.now slot.val addr data n) = false))
  | _ => decide ((s.acts .fabric) ∧ (s.fabric.closed = true))
theorem test_meets_FabricWritesTakeEffect :
    hypFabricWritesTakeEffect State.reset 0 0 400 0 1 = true ∧
    hypFabricWritesTakeEffect (State.reset.setFlag Reg.ERR_LOCK F.ERR_LOCK_LOCK true) 0 0 400 0 2 = true ∧
    hypFabricWritesTakeEffect State.reset 0 (BitVec.ofNat 32 (sramBase + 6)) 0x12345678 1 3 = true ∧
    hypFabricWritesTakeEffect State.reset 0 (BitVec.ofNat 32 (sramBase + 6)) 0 2 4 = true ∧
    hypFabricWritesTakeEffect State.reset 0 (BitVec.ofNat 32 Reg.FAB_TMO) 0 0 4 = true ∧
    hypFabricWritesTakeEffect State.reset 7 0xF0000000 0 2 4 = true ∧
    hypFabricWritesTakeEffect State.reset 0 (BitVec.ofNat 32 (tcmWindow 3 + 0x10000)) 0xCAFE 2 5 = true ∧
    hypFabricWritesTakeEffect wRun 0 (BitVec.ofNat 32 (tcmWindow 0)) 5 2 6 = true ∧
    hypFabricWritesTakeEffect State.reset 0 0 0 0 7 = true ∧
    hypFabricWritesTakeEffect (wOut [wX 0 0x01000000 (.store 4 77)] wRun) 0 0x01000000 0 2 8 = true ∧
    hypFabricWritesTakeEffect (wOut (List.replicate 128 (wX 0 0x01000000 (.store 4 77))) wRun) 0 0x01000000 0 2 9 = true ∧
    hypFabricWritesTakeEffect (State.reset.setFabric { Fabric.reset with closed := true }) 0 0 0 0 10 = true := by
  and_intros <;> decide +kernel

/-- The hypotheses of FabricTransactionsEnd, clause by clause. -/
def hypFabricTransactionsEnd (s : State) (k : Fin 128) (x : Xact) (v : Word) (d : Nat) (size : Nat) (j : Nat) (sx : Bool) (clause : Nat) : Bool :=
  let a := x.addr.toNat
  let g := s.fabric.out[k.val]? = some x
  match clause with
  | 1 => decide ((s.acts .fabric) ∧ (g ∧ x.kind = .store 4 v ∧ x.failed = false ∧ s.granted k.val x = true ∧ inSram a = true ∧ a % 4 = 0 ∧ s.acts .sram))
  | 2 => decide ((s.acts .fabric) ∧ (g ∧ x.kind = .load d size sx ∧ x.failed = false ∧ s.granted k.val x = true ∧ s.unknown a = false ∧ inSram a = true ∧ (size = 1 ∨ size = 2 ∨ size = 4) ∧ a % size = 0 ∧ s.acts .sram ∧ x.ctx < 40 ∧ s.damage a = .none ∧ (s.ctx x.ctx).restarting = false ∧ (s.ctx x.ctx).busPend = false ∧ s.fabric.waiting = []))
  | 3 => decide ((s.acts .fabric) ∧ (g ∧ (s.oldest k.val x = false ∨ s.granted k.val x = false)))
  | 4 => decide ((s.acts .fabric) ∧ (s.fabric.out.length ≤ k.val ∧ s.fabric.owed[k.val - s.fabric.out.length]? = some x ∧ s.up (blockAt a) = true))
  | 5 => decide ((s.acts .fabric) ∧ (g ∧ x.failed = true ∧ x.kind = .store size v ∧ x.ctx < 40 ∧ (s.ctx x.ctx).busPend = false ∧ (s.ctx x.ctx).inTrap = true ∧ s.fabric.waiting = []))
  | 6 => decide ((s.acts .fabric) ∧ (g ∧ x.failed = false ∧ s.xactDue x ≤ s.now ∧ 40 ≤ x.ctx ∧ x.slot < 19 ∧ s.fabric.waiting = []))
  | 7 => decide ((s.acts .fabric) ∧ (g ∧ x.failed = false ∧ s.xactDue x ≤ s.now))
  | 8 => decide ((s.acts .fabric) ∧ (g ∧ s.now < s.xactDue x))
  | 9 => decide ((s.acts .fabric) ∧ (s.fabric.waiting[j]? = some x ∧ x.since + 1024 * ticksSys ≤ s.now))
  | 10 => decide ((s.acts .fabric) ∧ (s.fabric.waiting.length ≤ j ∧ s.fabric.out[j - s.fabric.waiting.length]? = some x ∧ x.since + 1024 * ticksSys ≤ s.now))
  | _ => decide ((s.acts .fabric) ∧ (s.fabric.waiting[j]? = some x ∧ s.now < x.since + 1024 * ticksSys))
theorem test_meets_FabricTransactionsEnd :
    hypFabricTransactionsEnd (wOut [wX 0 0x01000000 (.store 4 77)] wRun) 0 (wX 0 0x01000000 (.store 4 77)) 77 0 0 0 false 1 = true ∧
    hypFabricTransactionsEnd ((wOut [wX 0 0x01000004 (.load 5 2 true)] (wCtx (fun x => { x with stall := .fabric }))).putNum 0x01000004 2 0x8001) 0 (wX 0 0x01000004 (.load 5 2 true)) 0 5 2 0 true 2 = true ∧
    hypFabricTransactionsEnd (wOut [wX 0 0x01000000 (.store 4 77), wX 1 0x01000000 (.store 4 78)] wRun) 1 (wX 1 0x01000000 (.store 4 78)) 0 0 0 0 false 3 = true ∧
    hypFabricTransactionsEnd (State.reset.setFabric { Fabric.reset with owed := [wX 0 0x01000000 (.store 4 77)] }) 0 (wX 0 0x01000000 (.store 4 77)) 0 0 0 0 false 4 = true ∧
    hypFabricTransactionsEnd (wOut [{ wX 0 0xF0000000 (.store 4 77) with failed := true }] (wCtx (fun x => { x with status := 0x100 }))) 0 ({ wX 0 0xF0000000 (.store 4 77) with failed := true }) 77 0 4 0 false 5 = true ∧
    hypFabricTransactionsEnd (wNow 200000 (wOut [{ wX 70 0x10000000 (.store 4 77) with slot := 6 }] wRun)) 0 ({ wX 70 0x10000000 (.store 4 77) with slot := 6 }) 0 0 0 0 false 6 = true ∧
    hypFabricTransactionsEnd (wNow 200000 (wOut [wX 0 0x10000000 (.load 3 4 false)] (wCtx (fun x => { x with stall := .fabric })))) 0 (wX 0 0x10000000 (.load 3 4 false)) 0 0 0 0 false 7 = true ∧
    hypFabricTransactionsEnd (wNow 20000 (wOut [wX 0 0x10000000 (.load 3 4 false)] wRun)) 0 (wX 0 0x10000000 (.load 3 4 false)) 0 0 0 0 false 8 = true ∧
    hypFabricTransactionsEnd (wNow 20480 (State.reset.setFabric { Fabric.reset with waiting := [wX 0 0x10000000 (.load 3 4 false)] })) 0 (wX 0 0x10000000 (.load 3 4 false)) 0 0 0 0 false 9 = true ∧
    hypFabricTransactionsEnd (wNow 20480 (wOut [wX 0 0x01000000 (.store 4 77)] wRun)) 0 (wX 0 0x01000000 (.store 4 77)) 0 0 0 0 false 10 = true ∧
    hypFabricTransactionsEnd (State.reset.setFabric { Fabric.reset with waiting := [wX 0 0x10000000 (.load 3 4 false)] }) 0 (wX 0 0x10000000 (.load 3 4 false)) 0 0 0 0 false 11 = true := by
  and_intros <;> decide +kernel

/-- The hypotheses of FaultsEscalateThroughTheLadder, clause by clause. -/
def hypFaultsEscalateThroughTheLadder (s : State) (b : BlockId) (r : Fin 4) (n : Fin 4) (bridge : Bool) (clause : Nat) : Bool :=
  let k := blkNum b
  match clause with
  | 1 => decide ((s.acts .ladder) ∧ (s.noteLimit k ≠ 0 ∧ s.noteLimit k < (s.recentNotes k).length ∧ (s.blkRec k).noteOver = false))
  | 2 => decide ((s.acts .ladder) ∧ (s.reached (s.blkDue k) = true ∧ regionOf k = some r.val ∧ s.power.chipSafe = false ∧ s.inWindow r.val = false ∧ s.flag (Reg.ERR_REG_STATUS r.val) F.ERR_REG_STATUS_OPEN = false))
  | 3 => decide ((s.acts .ladder) ∧ (s.reached (s.blkDue k) = true ∧ regionOf k = none ∧ s.power.chipSafe = false))
  | 4 => decide ((s.acts .ladder) ∧ (s.reached (s.blkDue k) = true))
  | 5 => decide ((s.acts .ladder) ∧ (s.reached (s.regDue r.val) = true))
  | 6 => decide ((s.acts .ladder) ∧ (s.reached (s.regDue r.val) = true ∧ s.power.chipSafe = false))
  | 7 => decide ((s.acts .ladder) ∧ (s.power.chipSafe = true ∧ s.reached s.chipDue = true ∧ s.power.supplyReset = false ∧ s.power.pinLow = false))
  | 8 => decide ((s.acts .ladder) ∧ (s.power.chipSafe = false ∧ s.inWindow r.val = false ∧ s.flag (Reg.ERR_REG_STATUS r.val) F.ERR_REG_STATUS_OPEN = false))
  | 9 => decide ((s.acts .ladder) ∧ (s.power.chipSafe = false ∧ s.inWindow r.val = true))
  | _ => decide ((s.acts .ladder) ∧ (s.power.chipSafe = false ∧ (bridge = true ∨ n.val < 2)))
theorem test_meets_FaultsEscalateThroughTheLadder :
    hypFaultsEscalateThroughTheLadder (State.reset.setBlkRec 0 { BlkRec.reset with notes := List.replicate 17 0 }) .loom 0 0 false 1 = true ∧
    hypFaultsEscalateThroughTheLadder (wNow 16000000 (State.reset.setBlkRec 0 { BlkRec.reset with timer := some 0 })) .loom 0 0 false 2 = true ∧
    hypFaultsEscalateThroughTheLadder (wNow 16000000 (State.reset.setBlkRec 0x20 { BlkRec.reset with timer := some 0 })) .weft 0 0 false 3 = true ∧
    hypFaultsEscalateThroughTheLadder (wNow 16000000 (State.reset.setBlkRec 0 { BlkRec.reset with timer := some 0 })) .loom 0 0 false 4 = true ∧
    hypFaultsEscalateThroughTheLadder (wNow 900000000 (State.reset.setRegRec 0 { RegRec.reset with timer := some 0 })) .loom 0 0 false 5 = true ∧
    hypFaultsEscalateThroughTheLadder (wNow 900000000 (State.reset.setRegRec 0 { RegRec.reset with timer := some 0 })) .loom 0 0 false 6 = true ∧
    hypFaultsEscalateThroughTheLadder (let s := wNow 1600000000 State.reset; (s.setPower { s.power with chipSafe := true }).setLadder { s.ladder with chipTimer := some 0 }) .loom 0 0 false 7 = true ∧
    hypFaultsEscalateThroughTheLadder State.reset .loom 2 0 false 8 = true ∧
    hypFaultsEscalateThroughTheLadder (State.reset.setRegRec 0 { RegRec.reset with ordered := some 0 }) .loom 0 0 false 9 = true ∧
    hypFaultsEscalateThroughTheLadder State.reset .loom 0 3 true 10 = true := by
  and_intros <;> decide +kernel

/-- The hypotheses of LadderRecordsAreCleared, clause by clause. -/
def hypLadderRecordsAreCleared (s : State) (b : BlockId) (r : Fin 4) (clause : Nat) : Bool :=
  let k := blkNum b
  let st := Reg.ERR_BLK_STATUS k
  match clause with
  | 1 => decide ((s.acts .ladder) ∧ (s.flag st F.ERR_BLK_STATUS_OPEN = true ∧ s.flag (Reg.ERR_BLK_CTRL k) F.ERR_BLK_CTRL_RECOVERED = true ∧ s.lateFor (s.blkDue k) (s.blkRec k).spent = false))
  | 2 => decide ((s.acts .ladder) ∧ (s.flag st F.ERR_BLK_STATUS_OPEN = false ∨ s.flag (Reg.ERR_BLK_CTRL k) F.ERR_BLK_CTRL_RECOVERED = false))
  | 3 => decide ((s.acts .ladder) ∧ ((s.regRec r.val).inReset = true))
  | 4 => decide ((s.acts .ladder) ∧ (s.flag (Reg.ERR_REG_STATUS r.val) F.ERR_REG_STATUS_OPEN = true ∧ (s.regRec r.val).inReset = false ∧ s.lateFor (s.regDue r.val) (s.regRec r.val).spent = false))
  | 5 => decide ((s.acts .ladder) ∧ (s.flag (Reg.ERR_REG_STATUS r.val) F.ERR_REG_STATUS_OPEN = false ∨ (s.regRec r.val).inReset = true))
  | 6 => decide ((s.acts .ladder) ∧ (s.flag st F.ERR_BLK_STATUS_OPEN = false))
  | 7 => decide ((s.acts .ladder) ∧ (s.flag (Reg.ERR_REG_STATUS r.val) F.ERR_REG_STATUS_OPEN = false))
  | 8 => decide ((s.acts .ladder) ∧ (s.flag Reg.ERR_CHIP_STATUS F.ERR_CHIP_STATUS_OPEN = true))
  | 9 => decide ((s.acts .ladder) ∧ ((s.blkRec k).noteOver = true ∧ (s.noteLimit k = 0 ∨ (s.recentNotes k).length ≤ s.noteLimit k)))
  | _ => decide ((s.acts .ladder))
theorem test_meets_LadderRecordsAreCleared :
    hypLadderRecordsAreCleared ((State.reset.setFlag (Reg.ERR_BLK_STATUS 0) F.ERR_BLK_STATUS_OPEN true).setFlag (Reg.ERR_BLK_CTRL 0) F.ERR_BLK_CTRL_RECOVERED true) .loom 0 1 = true ∧
    hypLadderRecordsAreCleared State.reset .loom 0 2 = true ∧
    hypLadderRecordsAreCleared (State.reset.setRegRec 1 { RegRec.reset with inReset := true }) .loom 1 3 = true ∧
    hypLadderRecordsAreCleared (State.reset.setFlag (Reg.ERR_REG_STATUS 3) F.ERR_REG_STATUS_OPEN true) .loom 3 4 = true ∧
    hypLadderRecordsAreCleared State.reset .loom 0 5 = true ∧
    hypLadderRecordsAreCleared (State.reset.note 0 1 2) .loom 0 6 = true ∧
    hypLadderRecordsAreCleared State.reset .loom 0 7 = true ∧
    hypLadderRecordsAreCleared (State.reset.setFlag Reg.ERR_CHIP_STATUS F.ERR_CHIP_STATUS_OPEN true) .loom 0 8 = true ∧
    hypLadderRecordsAreCleared (State.reset.setBlkRec 0 { BlkRec.reset with noteOver := true }) .loom 0 9 = true ∧
    hypLadderRecordsAreCleared State.reset .loom 0 10 = true := by
  and_intros <;> decide +kernel

/-- The hypotheses of WeftLoadsAndStoresItsOwnMemory, clause by clause. -/
def hypWeftLoadsAndStoresItsOwnMemory (s : State) (c : CtxId) (a : Fin 32) (imm : BitVec 16) (clause : Nat) : Bool :=
  let k := ctxKey c
  let x := s.ctx k
  let ea := x.reg a.val + imm.signExtend 32
  let off := ea.toNat - 0x60100000
  let key := dtcmKey c.eng.val + off
  let sees := inDtcm c.eng.val ea.toNat
  match clause with
  | 1 => decide ((Runs s c) ∧ (sees = true ∧ ea.toNat % 4 = 0 ∧ s.damage key = .none ∧ s.unknown key = false))
  | 2 => decide ((Runs s c) ∧ (sees = true ∧ ea.toNat % 2 = 0 ∧ s.damage key = .none ∧ s.unknown key = false))
  | 3 => decide ((Runs s c) ∧ (sees = true ∧ ea.toNat % 2 = 0 ∧ s.damage key = .none ∧ s.unknown key = false))
  | 4 => decide ((Runs s c) ∧ (sees = true ∧ ea.toNat % 1 = 0 ∧ s.damage key = .none ∧ s.unknown key = false))
  | 5 => decide ((Runs s c) ∧ (sees = true ∧ ea.toNat % 1 = 0 ∧ s.damage key = .none ∧ s.unknown key = false))
  | 6 => decide ((Runs s c) ∧ (sees = true ∧ ea.toNat % 4 = 0 ∧ s.damage key = .none ∧ s.ecc.lost = [] ∧ (c.eng.val = 9 → 0x200 ≤ off)))
  | 7 => decide ((Runs s c) ∧ (sees = true ∧ ea.toNat % 2 = 0 ∧ s.damage key = .none ∧ s.unknown key = false ∧ s.ecc.lost = [] ∧ (c.eng.val = 9 → 0x200 ≤ off)))
  | 8 => decide ((Runs s c) ∧ (sees = true ∧ ea.toNat % 1 = 0 ∧ s.damage key = .none ∧ s.unknown key = false ∧ s.ecc.lost = [] ∧ (c.eng.val = 9 → 0x200 ≤ off)))
  | 9 => decide ((Runs s c) ∧ (ea.toNat % 4 ≠ 0 ∧ x.inTrap = false ∧ inItcm c.eng.val x.tvec.toNat = true))
  | 10 => decide ((Runs s c) ∧ (ea.toNat % 2 ≠ 0 ∧ x.inTrap = false ∧ inItcm c.eng.val x.tvec.toNat = true))
  | _ => decide ((Runs s c) ∧ (ea.toNat % 4 = 0 ∧ inItcm c.eng.val ea.toNat = true ∧ x.inTrap = false ∧ inItcm c.eng.val x.tvec.toNat = true))
theorem test_meets_WeftLoadsAndStoresItsOwnMemory :
    hypWeftLoadsAndStoresItsOwnMemory ((wReg [(2, 0x60100008)]).putNum 0x51010008 4 0x8765F3A1) ⟨0, 0⟩ 2 0 1 = true ∧
    hypWeftLoadsAndStoresItsOwnMemory ((wReg [(2, 0x60100008)]).putNum 0x51010008 4 0x8765F3A1) ⟨0, 0⟩ 2 0 2 = true ∧
    hypWeftLoadsAndStoresItsOwnMemory ((wReg [(2, 0x60100008)]).putNum 0x51010008 4 0x8765F3A1) ⟨0, 0⟩ 2 0 3 = true ∧
    hypWeftLoadsAndStoresItsOwnMemory ((wReg [(2, 0x60100008)]).putNum 0x51010008 4 0x8765F3A1) ⟨0, 0⟩ 2 0 4 = true ∧
    hypWeftLoadsAndStoresItsOwnMemory ((wReg [(2, 0x60100008)]).putNum 0x51010008 4 0x8765F3A1) ⟨0, 0⟩ 2 0 5 = true ∧
    hypWeftLoadsAndStoresItsOwnMemory (wReg [(2, 0x60100008), (3, 0x12345678)]) ⟨0, 0⟩ 2 0 6 = true ∧
    hypWeftLoadsAndStoresItsOwnMemory (wReg [(2, 0x60100008), (3, 0x12345678)]) ⟨0, 0⟩ 2 0 7 = true ∧
    hypWeftLoadsAndStoresItsOwnMemory (wReg [(2, 0x60100008), (3, 0x12345678)]) ⟨0, 0⟩ 2 0 8 = true ∧
    hypWeftLoadsAndStoresItsOwnMemory ((wReg [(2, 0x60100008)]).putNum 0x51010008 4 0x8765F3A1) ⟨0, 0⟩ 2 2 9 = true ∧
    hypWeftLoadsAndStoresItsOwnMemory ((wReg [(2, 0x60100008)]).putNum 0x51010008 4 0x8765F3A1) ⟨0, 0⟩ 2 1 10 = true ∧
    hypWeftLoadsAndStoresItsOwnMemory (wReg [(2, 0x60000008)]) ⟨0, 0⟩ 2 0 11 = true := by
  and_intros <;> decide +kernel

/-- The hypotheses of WeftAccessesTheFabric, clause by clause. -/
def hypWeftAccessesTheFabric (s : State) (c : CtxId) (d : Fin 32) (a : Fin 32) (b : Fin 32) (imm : BitVec 16) (clause : Nat) : Bool :=
  let k := ctxKey c
  let x := s.ctx k
  let ea := x.reg a.val + imm.signExtend 32
  let far := placeOf c.eng.val ea.toNat = .fabric
  let req := fun (a : Word) (q : XKind) => ({ slot := c.eng.val, ctx := k, addr := a, kind := q, since := s.now, promoted := false, failed := false } : Xact)
  match clause with
  | 1 => decide ((Runs s c) ∧ (far ∧ ea.toNat % 4 = 0 ∧ s.canIssue (req ea (.load d.val 4 false)) = true))
  | 2 => decide ((Runs s c) ∧ (far ∧ ea.toNat % 2 = 0 ∧ s.canIssue (req ea (.load d.val 2 true)) = true))
  | 3 => decide ((Runs s c) ∧ (far ∧ ea.toNat % 2 = 0 ∧ s.canIssue (req ea (.load d.val 2 false)) = true))
  | 4 => decide ((Runs s c) ∧ (far ∧ ea.toNat % 1 = 0 ∧ s.canIssue (req ea (.load d.val 1 true)) = true))
  | 5 => decide ((Runs s c) ∧ (far ∧ ea.toNat % 1 = 0 ∧ s.canIssue (req ea (.load d.val 1 false)) = true))
  | 6 => decide ((Runs s c) ∧ (far ∧ ea.toNat % 4 = 0 ∧ s.canIssue (req ea (.store 4 (x.reg d.val))) = true ∧ x.restarting = false ∧ x.busPend = false))
  | 7 => decide ((Runs s c) ∧ (far ∧ ea.toNat % 2 = 0 ∧ s.canIssue (req ea (.store 2 (x.reg d.val))) = true ∧ x.restarting = false ∧ x.busPend = false))
  | 8 => decide ((Runs s c) ∧ (far ∧ ea.toNat % 1 = 0 ∧ s.canIssue (req ea (.store 1 (x.reg d.val))) = true ∧ x.restarting = false ∧ x.busPend = false))
  | 9 => decide ((Runs s c) ∧ (c.eng.val ≠ 9 ∧ (x.reg a.val).toNat % 4 = 0 ∧ inSram (x.reg a.val).toNat = true ∧ s.canIssue (req (x.reg a.val) (.aadd d.val (x.reg b.val))) = true))
  | 10 => decide ((Runs s c) ∧ (c.eng.val ≠ 9 ∧ (x.reg a.val).toNat % 4 = 0 ∧ inSram (x.reg a.val).toNat = true ∧ s.canIssue (req (x.reg a.val) (.acas d.val (x.reg d.val) (x.reg b.val))) = true))
  | 11 => decide ((Runs s c) ∧ (far ∧ ea.toNat % 4 = 0 ∧ s.canIssue (req ea (.store 4 (x.reg d.val))) = false))
  | 12 => decide ((Runs s c) ∧ (c.eng.val ≠ 9 ∧ (x.reg a.val).toNat % 4 ≠ 0 ∧ x.inTrap = false ∧ inItcm c.eng.val x.tvec.toNat = true))
  | 13 => decide ((Runs s c) ∧ (c.eng.val ≠ 9 ∧ (x.reg a.val).toNat % 4 = 0 ∧ inSram (x.reg a.val).toNat = false ∧ x.inTrap = false ∧ inItcm c.eng.val x.tvec.toNat = true))
  | _ => decide ((Runs s c) ∧ (c.eng.val = 9 ∧ x.inTrap = false ∧ inItcm c.eng.val x.tvec.toNat = true))
theorem test_meets_WeftAccessesTheFabric :
    hypWeftAccessesTheFabric (wReg [(2, 0x01000010), (3, 77)]) ⟨0, 0⟩ 3 2 3 0 1 = true ∧
    hypWeftAccessesTheFabric (wReg [(2, 0x01000010), (3, 77)]) ⟨0, 0⟩ 3 2 3 0 2 = true ∧
    hypWeftAccessesTheFabric (wReg [(2, 0x01000010), (3, 77)]) ⟨0, 0⟩ 3 2 3 0 3 = true ∧
    hypWeftAccessesTheFabric (wReg [(2, 0x01000010), (3, 77)]) ⟨0, 0⟩ 3 2 3 0 4 = true ∧
    hypWeftAccessesTheFabric (wReg [(2, 0x01000010), (3, 77)]) ⟨0, 0⟩ 3 2 3 0 5 = true ∧
    hypWeftAccessesTheFabric (wReg [(2, 0x01000010), (3, 77)]) ⟨0, 0⟩ 3 2 3 0 6 = true ∧
    hypWeftAccessesTheFabric (wReg [(2, 0x01000010), (3, 77)]) ⟨0, 0⟩ 3 2 3 0 7 = true ∧
    hypWeftAccessesTheFabric (wReg [(2, 0x01000010), (3, 77)]) ⟨0, 0⟩ 3 2 3 0 8 = true ∧
    hypWeftAccessesTheFabric (wReg [(2, 0x01000010), (3, 77)]) ⟨0, 0⟩ 3 2 3 0 9 = true ∧
    hypWeftAccessesTheFabric (wReg [(2, 0x01000010), (3, 77)]) ⟨0, 0⟩ 3 2 3 0 10 = true ∧
    hypWeftAccessesTheFabric ((wReg [(2, 0x01000010), (3, 77)]).setFabric { Fabric.reset with closed := true }) ⟨0, 0⟩ 3 2 3 0 11 = true ∧
    hypWeftAccessesTheFabric (wReg [(2, 0x01000011)]) ⟨0, 0⟩ 3 2 3 0 12 = true ∧
    hypWeftAccessesTheFabric (wReg [(2, 0x60100000)]) ⟨0, 0⟩ 3 2 3 0 13 = true ∧
    hypWeftAccessesTheFabric (State.reset.setCtx 36 { Context.reset with run := .running, pc := 0x60000000 }) ⟨9, 0⟩ 0 0 0 0 14 = true := by
  and_intros <;> decide +kernel

/-- The hypotheses of WeftWaitsForEventsAndTime, clause by clause. -/
def hypWeftWaitsForEventsAndTime (s : State) (c : CtxId) (a : Fin 32) (n : Fin 32) (tb : Fin 8) (part : Fin 4) (ws : WaitState) (again : Bool) (clause : Nat) : Bool :=
  let k := ctxKey c
  let x := s.ctx k
  match clause with
  | 1 => decide ((RunsPlain s c ∧ lowestIn (s.evtPending k) (x.reg a.val).toNat = some n.val ∧ (∀ e ∈ x.evtMeet, e.2.1 ≠ s.cycles c.eng.val)))
  | 2 => decide ((RunsPlain s c ∧ lowestIn (s.evtPending k) (x.reg a.val).toNat = some n.val ∧ x.evtMeet.find? (fun e => decide (e.1 = n.val) && decide (e.2.1 = s.cycles c.eng.val)) = some (n.val, s.cycles c.eng.val, again)))
  | 3 => decide ((RunsPlain s c ∧ lowestIn (s.evtPending k) (x.reg a.val).toNat = none))
  | 4 => decide ((x.wait = some ws ∧ x.run = .running ∧ s.limitOver c.eng.val ws.due = true ∧ s.up (engBlock c.eng.val) = true ∧ lowestIn (s.evtPending k) ws.mask.toNat = none ∧ x.busPend = false))
  | 5 => decide ((RunsPlain s c ∧ tb.val = 4))
  | 6 => decide ((RunsPlain s c ∧ tb.val < 4 ∧ c.eng.val ≠ 9))
  | 7 => decide ((RunsPlain s c))
  | 8 => decide ((x.cmp.isSome = true ∧ (∀ q, x.cmp = some q → q.at_ ≤ s.cmpNow c.eng.val q.tb) ∧ s.up (engBlock c.eng.val) = true ∧ x.wait = none))
  | 9 => decide ((RunsPlain s c ∧ (tb.val = 4 ∨ tb.val < 4 ∧ c.eng.val ≠ 9)))
  | 10 => decide ((RunsPlain s c ∧ part.val ≠ 0 ∧ (tb.val = 4 ∨ tb.val < 4 ∧ c.eng.val ≠ 9)))
  | _ => decide ((s.weft.flying.contains (k, n.val) = true ∧ s.up (engBlock c.eng.val) = true ∧ x.wait = none))
theorem test_meets_WeftWaitsForEventsAndTime :
    hypWeftWaitsForEventsAndTime (wCtx (fun x => { (x.put 2 0xA0).put 3 9 with evtPend := 0xF0 })) ⟨0, 0⟩ 2 5 0 0 ⟨0, 0, none⟩ false 1 = true ∧
    hypWeftWaitsForEventsAndTime (wCtx (fun x => { (x.put 2 0xA0).put 3 9 with evtPend := 0xF0, evtOvf := 0x20, evtMeet := [(5, 0, false)] })) ⟨0, 0⟩ 2 5 0 0 ⟨0, 0, none⟩ false 2 = true ∧
    hypWeftWaitsForEventsAndTime (wReg [(2, 0xA0), (3, 9)]) ⟨0, 0⟩ 2 0 0 0 ⟨0, 0, none⟩ false 3 = true ∧
    hypWeftWaitsForEventsAndTime (wNow 100 (wCtx (fun x => { x with wait := some ⟨1, 7, some 40⟩ }))) ⟨0, 0⟩ 0 0 0 0 ⟨1, 7, some 40⟩ false 4 = true ∧
    hypWeftWaitsForEventsAndTime (wReg [(2, 0xA0), (3, 9)]) ⟨0, 0⟩ 2 0 4 0 ⟨0, 0, none⟩ false 5 = true ∧
    hypWeftWaitsForEventsAndTime (wReg [(2, 0xA0), (3, 9)]) ⟨0, 0⟩ 2 0 0 0 ⟨0, 0, none⟩ false 6 = true ∧
    hypWeftWaitsForEventsAndTime (wReg [(2, 0xA0), (3, 9)]) ⟨0, 0⟩ 2 0 0 0 ⟨0, 0, none⟩ false 7 = true ∧
    hypWeftWaitsForEventsAndTime (wNow 100 (wCtx (fun x => { x with cmp := some ⟨4, 3⟩ }))) ⟨0, 0⟩ 0 0 0 0 ⟨0, 0, none⟩ false 8 = true ∧
    hypWeftWaitsForEventsAndTime (wNow 100 (wCtx (fun x => { x with cmp := some ⟨4, 3⟩, evtPend := 1 }))) ⟨0, 0⟩ 0 0 0 0 ⟨0, 0, none⟩ false 8 = true ∧
    hypWeftWaitsForEventsAndTime (wNow 16000000123 wRun) ⟨0, 0⟩ 2 0 0 0 ⟨0, 0, none⟩ false 9 = true ∧
    hypWeftWaitsForEventsAndTime (wCtx (fun x => { x with latch := [(2, 9)] })) ⟨0, 0⟩ 2 0 0 2 ⟨0, 0, none⟩ false 10 = true ∧
    hypWeftWaitsForEventsAndTime (wRun.setWeft { wRun.weft with flying := [(0, 6)] }) ⟨0, 0⟩ 0 6 0 0 ⟨0, 0, none⟩ false 11 = true := by
  and_intros <;> decide +kernel

/-- The hypotheses of WeftMailboxesHoldWordsInOrder, clause by clause. -/
def hypWeftMailboxesHoldWordsInOrder (s : State) (c : CtxId) (d : Fin 32) (e : Fin 32) (mb : Fin 256) (m : Fin 64) (data : Word) (w : Word) (rest : List Word) (q : Sent) (clause : Nat) : Bool :=
  let k := ctxKey c
  match clause with
  | 1 => decide ((RunsPlain s c ∧ c.eng.val < 8 ∧ mb.val < 64 ∧ s.flag (Reg.MBX_CFG mb.val) F.MBX_CFG_EN = true ∧ s.mboxCount mb.val < 8))
  | 2 => decide ((RunsPlain s c ∧ c.eng.val < 8 ∧ mb.val < 64 ∧ s.flag (Reg.MBX_CFG mb.val) F.MBX_CFG_EN = true ∧ 8 ≤ s.mboxCount mb.val ∧ s.displaced k mb.val = none))
  | 3 => decide ((RunsPlain s c ∧ c.eng.val < 8 ∧ mb.val < 64 ∧ s.flag (Reg.MBX_CFG mb.val) F.MBX_CFG_EN = true ∧ 8 ≤ s.mboxCount mb.val ∧ s.displaced k mb.val = some q ∧ q.sender ≠ k))
  | 4 => decide ((RunsPlain s c ∧ c.eng.val < 8 ∧ mb.val < 64 ∧ s.mboxOwner mb.val = k ∧ s.mbox mb.val = w :: rest ∧ d ≠ e))
  | 5 => decide ((RunsPlain s c ∧ c.eng.val < 8 ∧ mb.val < 64 ∧ s.mboxOwner mb.val = k ∧ s.mbox mb.val = []))
  | 6 => decide ((s.weft.mbxFly.find? (fun e => decide (e.mbx = m.val)) = some q))
  | _ => decide ((s.acts .weft ∧ data.getLsbD 31 = true))
theorem test_meets_WeftMailboxesHoldWordsInOrder :
    hypWeftMailboxesHoldWordsInOrder ((wReg [(2, 55)]).setFlag (Reg.MBX_CFG 9) F.MBX_CFG_EN true) ⟨0, 0⟩ 3 0 9 0 0 0 [] ⟨0, 0, 0, 0, 0⟩ 1 = true ∧
    hypWeftMailboxesHoldWordsInOrder (let s := (wReg [(2, 55)]).setFlag (Reg.MBX_CFG 9) F.MBX_CFG_EN true; s.setWeft { s.weft with mbxFly := List.replicate 8 ⟨9, 1, 0, 0, 0⟩ }) ⟨0, 0⟩ 3 0 9 0 0 0 [] ⟨0, 0, 0, 0, 0⟩ 2 = true ∧
    hypWeftMailboxesHoldWordsInOrder (let s := (wReg [(2, 55)]).setFlag (Reg.MBX_CFG 9) F.MBX_CFG_EN true; s.setWeft { s.weft with mbxFly := List.replicate 8 ⟨9, 1, 12, 3, 0⟩ }) ⟨0, 0⟩ 3 0 9 0 0 0 [] ⟨9, 1, 12, 3, 0⟩ 3 = true ∧
    hypWeftMailboxesHoldWordsInOrder (wRun.setMbox 9 [11, 12]) ⟨0, 0⟩ 3 4 9 0 0 11 [12] ⟨0, 0, 0, 0, 0⟩ 4 = true ∧
    hypWeftMailboxesHoldWordsInOrder wRun ⟨0, 0⟩ 3 4 9 0 0 0 [] ⟨0, 0, 0, 0, 0⟩ 5 = true ∧
    hypWeftMailboxesHoldWordsInOrder (wRun.setWeft { wRun.weft with mbxFly := [⟨8, 3, 0, 0, 0⟩, ⟨9, 5, 0, 0, 0⟩, ⟨9, 6, 0, 0, 0⟩] }) ⟨0, 0⟩ 0 0 0 9 0 0 [] ⟨9, 5, 0, 0, 0⟩ 6 = true ∧
    hypWeftMailboxesHoldWordsInOrder (wRun.setMbox 9 [11, 12]) ⟨0, 0⟩ 0 0 0 9 0x80000000 0 [] ⟨0, 0, 0, 0, 0⟩ 7 = true := by
  and_intros <;> decide +kernel

/-- The hypotheses of WeftControlAndTraps, clause by clause. -/
def hypWeftControlAndTraps (s : State) (c : CtxId) (a : Fin 32) (n : BitVec 12) (w : Word) (v : Word) (f : BitVec 12) (clause : Nat) : Bool :=
  let k := ctxKey c
  let x := s.ctx k
  match clause with
  | 1 => decide ((RunsPlain s c) ∧ (s.csr k n.toNat = some v ∧ x.busPend = false))
  | 2 => decide ((RunsPlain s c) ∧ (x.busPend = false))
  | 3 => decide ((RunsPlain s c) ∧ (s.csr k n.toNat = none ∧ x.inTrap = false ∧ inItcm c.eng.val x.tvec.toNat = true))
  | 4 => decide ((RunsPlain s c) ∧ ((n = 0x006 ∨ n = 0x100) ∧ x.inTrap = false ∧ inItcm c.eng.val x.tvec.toNat = true))
  | 5 => decide ((RunsPlain s c) ∧ (s.hasAccess k = false ∧ x.busPend = false))
  | 6 => decide ((RunsPlain s c) ∧ (s.hasAccess k = true))
  | 7 => decide ((RunsPlain s c) ∧ (x.inTrap = false ∧ inItcm c.eng.val x.tvec.toNat = true))
  | 8 => decide ((RunsPlain s c) ∧ (x.inTrap = true ∧ c.eng.val < 8))
  | 9 => decide ((RunsPlain s c) ∧ (c.eng.val ≠ 9 ∧ (c.eng.val < 8 → Tab.get (fun _ => false) s.weft.claim c.eng.val = false) ∧ x.inTrap = false ∧ inItcm c.eng.val x.tvec.toNat = true))
  | 10 => decide ((RunsPlain s c) ∧ (c.eng.val < 8 ∧ Tab.get (fun _ => false) s.weft.claim c.eng.val = true ∧ x.busPend = false ∧ s.hasAccess k = false))
  | 11 => decide ((RunsPlain s c) ∧ (x.busPend = false))
  | 12 => decide ((RunsPlain s c) ∧ (legalWord c.eng.val w = false ∧ x.inTrap = false ∧ inItcm c.eng.val x.tvec.toNat = true))
  | 13 => decide ((RunsPlain s c) ∧ (c.eng.val ≠ 9 ∧ (x.reg a.val).toNat % 4 ≠ 0 ∧ x.inTrap = false ∧ inItcm c.eng.val x.tvec.toNat = true))
  | 14 => decide ((RunsPlain s c) ∧ (c.eng.val ≠ 9 ∧ (x.reg a.val).toNat % 4 = 0 ∧ inSram (x.reg a.val).toNat = false ∧ x.inTrap = false ∧ inItcm c.eng.val x.tvec.toNat = true))
  | 15 => decide ((RunsPlain s c) ∧ (c.eng.val ≠ 9 ∧ (x.reg a.val).toNat % 4 = 0 ∧ sramRange (x.reg a.val).toNat 40 = true ∧ s.sramSound ∧ (ksEngine f.toNat).isSome = true))
  | _ => decide ((RunsPlain s c) ∧ (c.eng.val ≠ 9 ∧ (x.reg a.val).toNat % 4 = 0 ∧ sramRange (x.reg a.val).toNat 40 = true ∧ s.sramSound ∧ ksEngine f.toNat = none ∧ x.busPend = false))
theorem test_meets_WeftControlAndTraps :
    hypWeftControlAndTraps wRun ⟨0, 0⟩ 0 1 0 0x60000000 0 1 = true ∧
    hypWeftControlAndTraps (wCtx (fun x => { x.put 2 6 with tscratch := 3 })) ⟨0, 0⟩ 2 0 0 0 0 2 = true ∧
    hypWeftControlAndTraps wRun ⟨0, 0⟩ 0 7 0 0 0 3 = true ∧
    hypWeftControlAndTraps wRun ⟨0, 0⟩ 0 6 0 0 0 4 = true ∧
    hypWeftControlAndTraps wRun ⟨0, 0⟩ 0 0 0 0 0 5 = true ∧
    hypWeftControlAndTraps (wOut [wX 0 0x01000000 (.store 4 77)] wRun) ⟨0, 0⟩ 0 0 0 0 0 6 = true ∧
    hypWeftControlAndTraps wRun ⟨0, 0⟩ 0 0 0 0 0 7 = true ∧
    hypWeftControlAndTraps (wCtx (fun x => { x with status := 0x100 })) ⟨0, 0⟩ 0 0 0 0 0 8 = true ∧
    hypWeftControlAndTraps wRun ⟨0, 0⟩ 0 0 0 0 0 9 = true ∧
    hypWeftControlAndTraps (wRun.setWeft { wRun.weft with claim := [(0, true)] }) ⟨0, 0⟩ 0 0 0 0 0 10 = true ∧
    hypWeftControlAndTraps (wCtx (fun x => { x with status := 0x101, epc := 0x60000040 })) ⟨0, 0⟩ 0 0 0 0 0 11 = true ∧
    hypWeftControlAndTraps wRun ⟨0, 0⟩ 0 0 0xFFFFFFFF 0 0 12 = true ∧
    hypWeftControlAndTraps (wReg [(2, 3)]) ⟨0, 0⟩ 2 0 0 0 0 13 = true ∧
    hypWeftControlAndTraps (wReg [(2, 4)]) ⟨0, 0⟩ 2 0 0 0 0 14 = true ∧
    hypWeftControlAndTraps (wReg [(2, 0x01000020)]) ⟨0, 0⟩ 2 0 0 0 0x20 15 = true ∧
    hypWeftControlAndTraps (wReg [(2, 0x01000020)]) ⟨0, 0⟩ 2 0 0 0 0xFFF 16 = true := by
  and_intros <;> decide +kernel

/-- The hypotheses of ContextsStartRestartAndHalt, clause by clause. -/
def hypContextsStartRestartAndHalt (s : State) (ws : Fin 8) (j : Fin 4) (c : CtxId) (addr : Word) (clause : Nat) : Bool :=
  let k := CtxKey ws.val j.val
  let x := s.ctx k
  match clause with
  | 1 => decide ((s.acts .weft ∧ x.run = .stopped ∧ s.haltAsked k = false))
  | 2 => decide ((s.acts .weft ∧ x.stall ≠ .fabric ∧ s.haltAsked k = false))
  | 3 => decide ((c.eng.val < 8 ∧ s.acts .weft ∧ s.reached (s.ctx (ctxKey c)).wdtDue = true ∧ (s.ctx (ctxKey c)).stall ≠ .fabric))
  | 4 => decide ((s.acts .weft ∧ Tab.get (fun _ => false) s.weft.claim ws.val = true ∧ x.run = .running ∧ x.stall = .none ∧ s.hasAccess k = false))
  | 5 => decide ((s.acts .weft ∧ x.run = .halted ∧ x.dead = false ∧ x.wait = none ∧ x.busPend = false))
  | 6 => decide ((s.acts .debug))
  | 7 => decide ((s.acts .debug ∧ x.run = .halted ∧ x.dead = false ∧ x.wait = none ∧ x.busPend = false))
  | _ => decide ((s.ecc.back.contains (wordOf addr.toNat) = true))
theorem test_meets_ContextsStartRestartAndHalt :
    hypContextsStartRestartAndHalt (State.reset.wr (Reg.WSC_ENTRY 2 1) 0x60000100) 2 1 ⟨0, 0⟩ 0 1 = true ∧
    hypContextsStartRestartAndHalt (wReg [(3, 4)]) 0 0 ⟨0, 0⟩ 0 2 = true ∧
    hypContextsStartRestartAndHalt (wNow 50 (wCtx (fun x => { x.put 3 4 with wdtDue := some 20 }))) 0 0 ⟨0, 0⟩ 0 3 = true ∧
    hypContextsStartRestartAndHalt (wRun.setWeft { wRun.weft with claim := [(0, true)] }) 0 0 ⟨0, 0⟩ 0 4 = true ∧
    hypContextsStartRestartAndHalt (wCtx (fun x => { x with run := .halted })) 0 0 ⟨0, 0⟩ 0 5 = true ∧
    hypContextsStartRestartAndHalt State.reset 3 0 ⟨0, 0⟩ 0 6 = true ∧
    hypContextsStartRestartAndHalt ((wCtx (fun x => { x with run := .halted })).setWeft { (wCtx (fun x => { x with run := .halted })).weft with claim := [(0, true)] }) 0 0 ⟨0, 0⟩ 0 7 = true ∧
    hypContextsStartRestartAndHalt (State.reset.setEcc { Ecc.reset with damage := [(0x01000000, .single)], back := [0x01000000] }) 0 0 ⟨0, 0⟩ 0x01000002 8 = true := by
  and_intros <;> decide +kernel

/-- The hypotheses of LoomChannelsRunAndCommit, clause by clause. -/
def hypLoomChannelsRunAndCommit (s : State) (n : Fin 24) (data : BitVec 24) (k : Fin 4) (high : Bool) (u : Nat) (w : Nat) (clause : Nat) : Bool :=
  let x := s.ch n.val
  match clause with
  | 1 => decide ((s.acts .loom) ∧ (data.getLsbD n.val = true ∧ s.chSync n.val = none ∧ x.run = false))
  | 2 => decide ((s.acts .loom) ∧ (data.getLsbD n.val = false ∧ s.runBit n.val = true ∧ s.chSync n.val = none))
  | 3 => decide ((s.acts .loom) ∧ (x.run = true ∧ s.chSync n.val = none ∧ x.t0 + s.chPer n.val ≤ s.now))
  | 4 => decide ((s.acts .loom) ∧ (x.run = true ∧ s.chSync n.val = none ∧ x.t0 + s.chPer n.val ≤ s.now ∧ x.recent = [] ∧ s.commits n.val (x.t0 + s.chPer n.val) 0 = true))
  | 5 => decide ((s.acts .loom) ∧ (x.run = true ∧ s.now < x.t0 + s.chPer n.val))
  | 6 => decide ((s.acts .loom) ∧ (x.run = true ∧ s.chSync n.val = none ∧ x.mid = false ∧ x.t0 + s.chPer n.val / 2 ≤ s.now ∧ x.recent = [] ∧ s.commits n.val (x.t0 + s.chPer n.val / 2) 1 = true))
  | 7 => decide ((s.acts .loom) ∧ (x.run = true ∧ s.tripped n.val = false ∧ s.refNow n.val ≠ x.ref))
  | 8 => decide ((s.acts .loom) ∧ (x.dead = some (u, high) ∧ u ≤ s.now ∧ x.run = true ∧ s.tripped n.val = false ∧ s.nextEdge n.val = some w ∧ w ≠ 0 ∧ F.LOOM_CH_MINPW_MIN_PULSE.get (s.lv (Reg.LOOM_CH_MINPW n.val)) ≤ w ∧ s.refNow n.val = high))
  | 9 => decide ((s.acts .loom) ∧ (x.dead = some (u, true) ∧ u ≤ s.now ∧ x.run = true ∧ s.tripped n.val = false ∧ s.nextEdge n.val = some w ∧ w < F.LOOM_CH_MINPW_MIN_PULSE.get (s.lv (Reg.LOOM_CH_MINPW n.val))))
  | 10 => decide ((s.acts .loom) ∧ (s.trigFires n.val k.val = true))
  | _ => decide ((s.acts .loom))
theorem test_meets_LoomChannelsRunAndCommit :
    hypLoomChannelsRunAndCommit State.reset 2 0xC 0 false 0 0 1 = true ∧
    hypLoomChannelsRunAndCommit ((wCh (fun x => { x with outH := true })).setFld Reg.LOOM_RUN F.LOOM_RUN_VAL 1) 0 4 0 false 0 0 2 = true ∧
    hypLoomChannelsRunAndCommit (wNow 1600 (wCh id)) 0 0 0 false 0 0 3 = true ∧
    hypLoomChannelsRunAndCommit (((wNow 1600 (wCh id)).wr (Reg.LOOM_CH_DUTY 0) 700).setFld (Reg.LOOM_CH_CTRL 0) F.LOOM_CH_CTRL_UPD_MODE 1) 0 0 0 false 0 0 4 = true ∧
    hypLoomChannelsRunAndCommit (wNow 1599 (wCh id)) 0 0 0 false 0 0 5 = true ∧
    hypLoomChannelsRunAndCommit (((wNow 800 (wCh id)).wr (Reg.LOOM_CH_DUTY 0) 700).setFld (Reg.LOOM_CH_CTRL 0) F.LOOM_CH_CTRL_UPD_MODE 2) 0 0 0 false 0 0 6 = true ∧
    hypLoomChannelsRunAndCommit (((wNow 100 (wCh (fun x => { x with outL := true }))).wrLive (Reg.LOOM_CH_DUTY 0) 700).wrLive (Reg.LOOM_CH_DEAD 0) 0x00300040) 0 0 0 false 0 0 7 = true ∧
    hypLoomChannelsRunAndCommit (((wNow 100 (wCh (fun x => { x with dead := some (90, true) }))).wrLive (Reg.LOOM_CH_DUTY 0) 700)) 0 0 0 true 90 600 8 = true ∧
    hypLoomChannelsRunAndCommit (((wNow 100 (wCh (fun x => { x with dead := some (90, true) }))).wrLive (Reg.LOOM_CH_DUTY 0) 110).wrLive (Reg.LOOM_CH_MINPW 0) 50) 0 0 0 false 90 10 9 = true ∧
    hypLoomChannelsRunAndCommit ((wNow 100 (wCh id)).wrLive (Reg.LOOM_CH_TRIG 0 2) 0x80000060) 0 0 2 false 0 0 10 = true ∧
    hypLoomChannelsRunAndCommit (wNow 7 (State.reset.setFld Reg.LOOM_GUPD F.LOOM_GUPD_ARM 6)) 0 0 0 false 0 0 11 = true := by
  and_intros <;> decide +kernel

/-- The hypotheses of LoomTripsHoldTheirChannels, clause by clause. -/
def hypLoomTripsHoldTheirChannels (s : State) (n : Fin 24) (k : Fin 64) (level : Bool) (u : Nat) (clause : Nat) : Bool :=
  let x := s.ch n.val
  let st := Reg.LOOM_CH_STATUS n.val
  match clause with
  | 1 => decide ((s.acts .loom) ∧ (k.val < 16 ∧ s.flag (Reg.LOOM_TSRC k.val) F.LOOM_TSRC_EN = true ∧ level = s.flag (Reg.LOOM_TSRC k.val) F.LOOM_TSRC_POL ∧ s.masks n.val k.val = true ∧ x.run = true ∧ s.tripBit k.val = F.LOOM_CH_STATUS_LATCH_TRIP))
  | 2 => decide ((s.acts .loom) ∧ (s.reached x.blank = true ∧ s.srcActive k.val = true ∧ (∀ q : Fin 64, q.val < k.val → s.masks n.val q.val = false) ∧ s.masks n.val k.val = true ∧ x.run = true ∧ s.tripBit k.val = F.LOOM_CH_STATUS_LATCH_TRIP))
  | 3 => decide ((s.acts .loom) ∧ (x.run = true ∧ s.fld (Reg.LOOM_CH_CTRL n.val) F.LOOM_CH_CTRL_STALE_LIM ≠ 0 ∧ s.fld (Reg.LOOM_CH_CTRL n.val) F.LOOM_CH_CTRL_STALE_LIM ≤ x.stale ∧ x.staleDone = false ∧ s.fld st F.LOOM_CH_STATUS_FIRST_SRC = 0xFF))
  | 4 => decide ((s.acts .loom) ∧ (s.fld (Reg.LOOM_TSRC k.val) F.LOOM_TSRC_STUCK_T ≠ 0 ∧ (s.src k.val).since = some u ∧ u + s.fld (Reg.LOOM_TSRC k.val) F.LOOM_TSRC_STUCK_T * 160000 < s.now))
  | 5 => decide ((s.acts .loom) ∧ ((∃ q : Fin 64, s.masks n.val q.val = true ∧ (s.srcActive q.val = true ∨ s.flag (Reg.LOOM_TSRC q.val) F.LOOM_TSRC_STUCK = true))))
  | 6 => decide ((s.acts .loom) ∧ ((∀ q : Fin 64, s.masks n.val q.val = true → s.srcActive q.val = false ∧ s.flag (Reg.LOOM_TSRC q.val) F.LOOM_TSRC_STUCK = false)))
  | 7 => decide ((s.acts .loom))
  | 8 => decide ((s.acts .loom))
  | 9 => decide ((s.acts .loom))
  | 10 => decide ((s.acts .loom) ∧ (s.power.chipSafe = false ∧ s.inWindow 0 = false ∧ s.flag (Reg.ERR_REG_STATUS 0) F.ERR_REG_STATUS_OPEN = false))
  | 11 => decide ((s.acts .loom))
  | 12 => decide ((s.acts .loom))
  | _ => decide ((s.acts .loom))
theorem test_meets_LoomTripsHoldTheirChannels :
    hypLoomTripsHoldTheirChannels ((((wCh (fun x => { x with outH := true })).setFlag (Reg.LOOM_TSRC 3) F.LOOM_TSRC_EN true).setFld (Reg.LOOM_TSRC 3) F.LOOM_TSRC_CLASS 1).setFld (Reg.LOOM_CH_TRIP_PIN 0) F.LOOM_CH_TRIP_PIN_PIN_MASK 8) 0 3 false 0 1 = true ∧
    hypLoomTripsHoldTheirChannels (((((wNow 50 (wCh (fun x => { x with outH := true, blank := some 40 }))).setFlag (Reg.LOOM_TSRC 20) F.LOOM_TSRC_EN true).setFld (Reg.LOOM_TSRC 20) F.LOOM_TSRC_CLASS 1).setFlag (Reg.CMP_CFG 4) F.CMP_CFG_ACT true).setFld (Reg.LOOM_CH_TRIP_CMP_LO 0) F.LOOM_CH_TRIP_CMP_LO_CMP_MASK_LO 16) 0 20 false 0 2 = true ∧
    hypLoomTripsHoldTheirChannels ((wCh (fun x => { x with stale := 3 })).setFld (Reg.LOOM_CH_CTRL 0) F.LOOM_CH_CTRL_STALE_LIM 3) 0 0 false 0 3 = true ∧
    hypLoomTripsHoldTheirChannels ((wNow 400000 (State.reset.setSrc 2 ⟨some 1, []⟩)).setFld (Reg.LOOM_TSRC 2) F.LOOM_TSRC_STUCK_T 2) 0 2 false 1 4 = true ∧
    hypLoomTripsHoldTheirChannels (((wCh id).setFlag (Reg.LOOM_TSRC 3) F.LOOM_TSRC_STUCK true).setFld (Reg.LOOM_CH_TRIP_PIN 0) F.LOOM_CH_TRIP_PIN_PIN_MASK 8) 0 0 false 0 5 = true ∧
    hypLoomTripsHoldTheirChannels ((wCh id).setChFlag 0 F.LOOM_CH_STATUS_LATCH_TRIP true) 0 0 false 0 6 = true ∧
    hypLoomTripsHoldTheirChannels (State.reset.setFlag (Reg.LOOM_TSRC 5) F.LOOM_TSRC_STUCK true) 0 5 false 0 7 = true ∧
    hypLoomTripsHoldTheirChannels State.reset 0 0 false 0 8 = true ∧
    hypLoomTripsHoldTheirChannels (wCh id) 0 0 false 0 9 = true ∧
    hypLoomTripsHoldTheirChannels (wCh id) 0 0 false 0 10 = true ∧
    hypLoomTripsHoldTheirChannels (wCh (fun x => { x with outH := true })) 0 0 false 0 11 = true ∧
    hypLoomTripsHoldTheirChannels State.reset 4 0 false 0 12 = true ∧
    hypLoomTripsHoldTheirChannels State.reset 0 0 false 0 13 = true := by
  and_intros <;> decide +kernel

/-- The hypotheses of TwillArithmeticFillsAccumulators, clause by clause. -/
def hypTwillArithmeticFillsAccumulators (s : State) (e : Fin 4) (x : BitVec 12) (k : BitVec 8) (clause : Nat) : Bool :=
  let dx := s.data e.val x.toNat
  let ok := inDataSpace x.toNat = true
  match clause with
  | 1 => decide ((Issues s e.val) ∧ (ok))
  | 2 => decide ((Issues s e.val) ∧ (ok))
  | 3 => decide ((Issues s e.val) ∧ (ok))
  | 4 => decide ((Issues s e.val) ∧ (ok))
  | 5 => decide ((Issues s e.val))
  | 6 => decide ((Issues s e.val))
  | 7 => decide ((Issues s e.val))
  | 8 => decide ((Issues s e.val))
  | 9 => decide ((Issues s e.val))
  | 10 => decide ((Issues s e.val))
  | 11 => decide ((Issues s e.val))
  | 12 => decide ((Issues s e.val))
  | 13 => decide ((Issues s e.val))
  | 14 => decide ((Issues s e.val))
  | 15 => decide ((Issues s e.val))
  | 16 => decide ((Issues s e.val) ∧ (0 ≤ k.toInt ∧ k.toInt ≤ 31))
  | 17 => decide ((Issues s e.val) ∧ (-32 ≤ k.toInt ∧ k.toInt < 0))
  | 18 => decide ((Issues s e.val) ∧ (ok ∧ dx ≠ 0))
  | 19 => decide ((Issues s e.val) ∧ (ok ∧ dx = 0))
  | 20 => decide ((Issues s e.val) ∧ (ok ∧ k.toNat < 4))
  | 21 => decide ((Issues s e.val) ∧ (ok ∧ k.toNat < 4))
  | 22 => decide ((Issues s e.val))
  | _ => decide ((Issues s e.val) ∧ (x.toNat < 0x200))
theorem test_meets_TwillArithmeticFillsAccumulators :
    hypTwillArithmeticFillsAccumulators (((wAcc [(1, -0x3000000000), (2, 0x500), (3, 0x7FFFFFFFFFFFFFFF)]).wr (Reg.TW_M 0 0x10) 0xFFFFF000).wrLive (Reg.TW_COEF_VAL 0 7) 0x40000000) 0 0x10 7 1 = true ∧
    hypTwillArithmeticFillsAccumulators (((wAcc [(1, -0x3000000000), (2, 0x500), (3, 0x7FFFFFFFFFFFFFFF)]).wr (Reg.TW_M 0 0x10) 0xFFFFF000).wrLive (Reg.TW_COEF_VAL 0 7) 0x40000000) 0 0x10 7 2 = true ∧
    hypTwillArithmeticFillsAccumulators (((wAcc [(1, -0x3000000000), (2, 0x500), (3, 0x7FFFFFFFFFFFFFFF)]).wr (Reg.TW_M 0 0x10) 0xFFFFF000).wrLive (Reg.TW_COEF_VAL 0 7) 0x40000000) 0 0x10 7 3 = true ∧
    hypTwillArithmeticFillsAccumulators (((wAcc [(1, -0x3000000000), (2, 0x500), (3, 0x7FFFFFFFFFFFFFFF)]).wr (Reg.TW_M 0 0x10) 0xFFFFF000).wrLive (Reg.TW_COEF_VAL 0 7) 0x40000000) 0 0x10 7 4 = true ∧
    hypTwillArithmeticFillsAccumulators (((wAcc [(1, -0x3000000000), (2, 0x500), (3, 0x7FFFFFFFFFFFFFFF)]).wr (Reg.TW_M 0 0x10) 0xFFFFF000).wrLive (Reg.TW_COEF_VAL 0 7) 0x40000000) 0 0x10 7 5 = true ∧
    hypTwillArithmeticFillsAccumulators (((wAcc [(1, -0x3000000000), (2, 0x500), (3, 0x7FFFFFFFFFFFFFFF)]).wr (Reg.TW_M 0 0x10) 0xFFFFF000).wrLive (Reg.TW_COEF_VAL 0 7) 0x40000000) 0 0x10 7 6 = true ∧
    hypTwillArithmeticFillsAccumulators (((wAcc [(1, -0x3000000000), (2, 0x500), (3, 0x7FFFFFFFFFFFFFFF)]).wr (Reg.TW_M 0 0x10) 0xFFFFF000).wrLive (Reg.TW_COEF_VAL 0 7) 0x40000000) 0 0x10 7 7 = true ∧
    hypTwillArithmeticFillsAccumulators (((wAcc [(1, -0x3000000000), (2, 0x500), (3, 0x7FFFFFFFFFFFFFFF)]).wr (Reg.TW_M 0 0x10) 0xFFFFF000).wrLive (Reg.TW_COEF_VAL 0 7) 0x40000000) 0 0x10 7 8 = true ∧
    hypTwillArithmeticFillsAccumulators (((wAcc [(1, -0x3000000000), (2, 0x500), (3, 0x7FFFFFFFFFFFFFFF)]).wr (Reg.TW_M 0 0x10) 0xFFFFF000).wrLive (Reg.TW_COEF_VAL 0 7) 0x40000000) 0 0x10 7 9 = true ∧
    hypTwillArithmeticFillsAccumulators (((wAcc [(1, -0x3000000000), (2, 0x500), (3, 0x7FFFFFFFFFFFFFFF)]).wr (Reg.TW_M 0 0x10) 0xFFFFF000).wrLive (Reg.TW_COEF_VAL 0 7) 0x40000000) 0 0x10 7 10 = true ∧
    hypTwillArithmeticFillsAccumulators (((wAcc [(1, -0x3000000000), (2, 0x500), (3, 0x7FFFFFFFFFFFFFFF)]).wr (Reg.TW_M 0 0x10) 0xFFFFF000).wrLive (Reg.TW_COEF_VAL 0 7) 0x40000000) 0 0x10 7 11 = true ∧
    hypTwillArithmeticFillsAccumulators (((wAcc [(1, -0x3000000000), (2, 0x500), (3, 0x7FFFFFFFFFFFFFFF)]).wr (Reg.TW_M 0 0x10) 0xFFFFF000).wrLive (Reg.TW_COEF_VAL 0 7) 0x40000000) 0 0x10 7 12 = true ∧
    hypTwillArithmeticFillsAccumulators (((wAcc [(1, -0x3000000000), (2, 0x500), (3, 0x7FFFFFFFFFFFFFFF)]).wr (Reg.TW_M 0 0x10) 0xFFFFF000).wrLive (Reg.TW_COEF_VAL 0 7) 0x40000000) 0 0x10 7 13 = true ∧
    hypTwillArithmeticFillsAccumulators (((wAcc [(1, -0x3000000000), (2, 0x500), (3, 0x7FFFFFFFFFFFFFFF)]).wr (Reg.TW_M 0 0x10) 0xFFFFF000).wrLive (Reg.TW_COEF_VAL 0 7) 0x40000000) 0 0x10 7 14 = true ∧
    hypTwillArithmeticFillsAccumulators (((wAcc [(1, -0x3000000000), (2, 0x500), (3, 0x7FFFFFFFFFFFFFFF)]).wr (Reg.TW_M 0 0x10) 0xFFFFF000).wrLive (Reg.TW_COEF_VAL 0 7) 0x40000000) 0 0x10 7 15 = true ∧
    hypTwillArithmeticFillsAccumulators (((wAcc [(1, -0x3000000000), (2, 0x500), (3, 0x7FFFFFFFFFFFFFFF)]).wr (Reg.TW_M 0 0x10) 0xFFFFF000).wrLive (Reg.TW_COEF_VAL 0 7) 0x40000000) 0 0x10 7 16 = true ∧
    hypTwillArithmeticFillsAccumulators (((wAcc [(1, -0x3000000000), (2, 0x500), (3, 0x7FFFFFFFFFFFFFFF)]).wr (Reg.TW_M 0 0x10) 0xFFFFF000).wrLive (Reg.TW_COEF_VAL 0 7) 0x40000000) 0 0x10 0xF0 17 = true ∧
    hypTwillArithmeticFillsAccumulators (((wAcc [(1, -0x3000000000), (2, 0x500), (3, 0x7FFFFFFFFFFFFFFF)]).wr (Reg.TW_M 0 0x10) 0xFFFFF000).wrLive (Reg.TW_COEF_VAL 0 7) 0x40000000) 0 0x10 7 18 = true ∧
    hypTwillArithmeticFillsAccumulators (((wAcc [(1, -0x3000000000), (2, 0x500), (3, 0x7FFFFFFFFFFFFFFF)]).wr (Reg.TW_M 0 0x10) 0xFFFFF000).wrLive (Reg.TW_COEF_VAL 0 7) 0x40000000) 0 0x11 7 19 = true ∧
    hypTwillArithmeticFillsAccumulators (((wAcc [(1, -0x3000000000), (2, 0x500), (3, 0x7FFFFFFFFFFFFFFF)]).wr (Reg.TW_M 0 0x10) 0xFFFFF000).wrLive (Reg.TW_COEF_VAL 0 7) 0x40000000) 0 0x10 1 20 = true ∧
    hypTwillArithmeticFillsAccumulators (((wAcc [(1, -0x3000000000), (2, 0x500), (3, 0x7FFFFFFFFFFFFFFF)]).wr (Reg.TW_M 0 0x10) 0xFFFFF000).wrLive (Reg.TW_COEF_VAL 0 7) 0x40000000) 0 0x10 1 21 = true ∧
    hypTwillArithmeticFillsAccumulators (((wAcc [(1, -0x3000000000), (2, 0x500), (3, 0x7FFFFFFFFFFFFFFF)]).wr (Reg.TW_M 0 0x10) 0xFFFFF000).wrLive (Reg.TW_COEF_VAL 0 7) 0x40000000) 0 0x10 7 22 = true ∧
    hypTwillArithmeticFillsAccumulators (((wAcc [(1, -0x3000000000), (2, 0x500), (3, 0x7FFFFFFFFFFFFFFF)]).wr (Reg.TW_M 0 0x10) 0xFFFFF000).wrLive (Reg.TW_COEF_VAL 0 7) 0x40000000) 0 0x10 7 23 = true := by
  and_intros <;> decide +kernel

/-- The hypotheses of TwillControlAndSlots, clause by clause. -/
def hypTwillControlAndSlots (s : State) (e : Fin 4) (b : Fin 16) (sa : Fin 16) (ta : Fin 16) (n : Fin 8) (tm : BitVec 6) (x : BitVec 12) (k : BitVec 8) (ch : Fin 32) (mask : BitVec 24) (cond : Fin 8) (sl : Fin 8) (r : SlotRun) (w : BitVec 64) (clause : Nat) : Bool :=
  let y := s.te e.val
  let st := Reg.TW_STATUS e.val
  match clause with
  | 1 => decide ((Issues s e.val ∧ minselLegal b.val n.val tm.toNat x.toNat k.toNat = true))
  | 2 => decide ((Issues s e.val ∧ k.toNat < 8 ∧ s.fld (Reg.TW_RMP_CFG e.val k.toNat) F.TW_RMP_CFG_SRC = 0 ∧ s.flag (Reg.TW_RMP_CFG e.val k.toNat) F.TW_RMP_CFG_EN = true))
  | 3 => decide ((Issues s e.val ∧ k.toNat < 8 ∧ s.flag (Reg.TW_RMP_CFG e.val k.toNat) F.TW_RMP_CFG_EN = false))
  | 4 => decide ((Issues s e.val ∧ ch.val < 24 ∧ s.owns e.val ch.val = true ∧ s.acts .loom))
  | 5 => decide ((Issues s e.val ∧ ch.val < 24 ∧ s.owns e.val ch.val = true ∧ s.acts .loom))
  | 6 => decide ((Issues s e.val ∧ ch.val < 24 ∧ s.owns e.val ch.val = false))
  | 7 => decide ((Issues s e.val ∧ s.acts .loom))
  | 8 => decide ((Issues s e.val ∧ mask.toNat < 8))
  | 9 => decide ((Issues s e.val ∧ brLegal cond.val sa.val ta.val = true))
  | 10 => decide ((Issues s e.val ∧ 0x200 ≤ x.toNat ∧ x.toNat < 0x230 ∧ y.run = some r))
  | 11 => decide ((Issues s e.val ∧ y.run = some r ∧ r.slot < 8))
  | 12 => decide ((Issues s e.val ∧ w ≠ 0 ∧ twLegal w = false))
  | 13 => decide ((s.acts .twill ∧ s.twRuns e.val = true ∧ y.run = none ∧ bitOf (s.fld st F.TW_STATUS_PEND) sl.val = true ∧ (∀ j : Fin 8, j < sl → bitOf (s.fld st F.TW_STATUS_PEND) j.val = false)))
  | _ => decide ((s.acts .twill ∧ y.run = some r ∧ s.budget e.val r.slot ≤ r.cyc + (match r.wait with | some (_, w0) => (s.now - w0) / 16 | none => 0)))
theorem test_meets_TwillControlAndSlots :
    hypTwillControlAndSlots (wAcc [(4, 90), (5, -7), (6, -7)]) 0 4 0 0 3 5 0x20 0 0 0 0 0 ⟨0, 0, 0, none⟩ 0 1 = true ∧
    hypTwillControlAndSlots (((wTe (fun x => { x with port := [(0x251, 500)] })).setFlag (Reg.TW_RMP_CFG 0 2) F.TW_RMP_CFG_EN true).setFld (Reg.TW_RMP_CFG 0 2) F.TW_RMP_CFG_IDX 1) 0 0 0 0 0 0 0 2 0 0 0 0 ⟨0, 0, 0, none⟩ 0 2 = true ∧
    hypTwillControlAndSlots (wTe (fun x => x.setRamp 2 77)) 0 0 0 0 0 0 0 2 0 0 0 0 ⟨0, 0, 0, none⟩ 0 3 = true ∧
    hypTwillControlAndSlots ((wAcc [(4, 900 * 0x80000000)]).setFld (Reg.TW_OWN 0) F.TW_OWN_CH 32) 0 0 4 0 0 0 0 0 5 0 0 0 ⟨0, 0, 0, none⟩ 0 4 = true ∧
    hypTwillControlAndSlots ((wAcc [(4, 900 * 0x80000000)]).setFld (Reg.TW_OWN 0) F.TW_OWN_CH 32) 0 0 4 0 0 0 0 0 5 0 0 0 ⟨0, 0, 0, none⟩ 0 5 = true ∧
    hypTwillControlAndSlots wTw 0 0 0 0 0 0 0 0 5 0 0 0 ⟨0, 0, 0, none⟩ 0 6 = true ∧
    hypTwillControlAndSlots (wTw.setFld (Reg.TW_OWN 0) F.TW_OWN_CH 33) 0 0 0 0 0 0 0 0 0 3 0 0 ⟨0, 0, 0, none⟩ 0 7 = true ∧
    hypTwillControlAndSlots wTw 0 0 0 0 0 0 0 0 0 5 0 0 ⟨0, 0, 0, none⟩ 0 8 = true ∧
    hypTwillControlAndSlots (wAcc [(1, -5), (2, 4)]) 0 0 1 2 0 0 0 0 0 0 3 0 ⟨0, 0, 0, none⟩ 0 9 = true ∧
    hypTwillControlAndSlots (wAcc [(1, -5)]) 0 0 1 0 0 0 0 0 0 0 6 0 ⟨0, 0, 0, none⟩ 0 9 = true ∧
    hypTwillControlAndSlots (((wTw.setFlag (Reg.SG_CFG 0) F.SG_CFG_EN true).setFld (Reg.SG_CFG 0) F.SG_CFG_TRIG 0).setAin 3 ⟨some 0, 0⟩) 0 0 0 0 0 0 0x203 0 0 0 0 0 ⟨2, 0, 1, none⟩ 0 10 = true ∧
    hypTwillControlAndSlots wTw 0 0 0 0 0 0 0x203 0 0 0 0 0 ⟨2, 0, 1, none⟩ 0 10 = true ∧
    hypTwillControlAndSlots wTw 0 0 0 0 0 0 0 0 0 0 0 0 ⟨2, 0, 1, none⟩ 0 11 = true ∧
    hypTwillControlAndSlots wTw 0 0 0 0 0 0 0 0 0 0 0 0 ⟨0, 0, 0, none⟩ 0xFFFFFFFFFFFFFFFF 12 = true ∧
    hypTwillControlAndSlots (((wTe (fun x => { x with run := none })).setFld (Reg.TW_STATUS 0) F.TW_STATUS_PEND 0x28).setFld (Reg.TW_SLOT_CFG 0 3) F.TW_SLOT_CFG_ENTRY 64) 0 0 0 0 0 0 0 0 0 0 0 3 ⟨0, 0, 0, none⟩ 0 13 = true ∧
    hypTwillControlAndSlots (wTe (fun x => { x with run := some ⟨2, 0, 70000, none⟩ })) 0 0 0 0 0 0 0 0 0 0 0 0 ⟨2, 0, 70000, none⟩ 0 14 = true := by
  and_intros <;> decide +kernel

/-- The hypotheses of TwillRegistersAndSetPoints, clause by clause. -/
def hypTwillRegistersAndSetPoints (s : State) (e : Fin 4) (j : Fin 4) (sl : Fin 8) (code : BitVec 12) (u : Nat) (clause : Nat) : Bool :=
  let y := s.te e.val
  let cfg := Reg.PINSP_CFG j.val
  let q := s.pulse j.val
  let held := Tab.get (fun _ => 0) s.twill.ain j.val
  let fmax := max 1 (min 10000 (s.fld cfg F.PINSP_CFG_FMAX)) * 100
  let ns := fun (u : Nat) => (s.now - u) / 16
  let short := fun (u : Nat) => s.now < u + s.fld cfg F.PINSP_CFG_FILT * 160
  match clause with
  | 1 => decide ((s.acts .twill) ∧ (s.twRuns e.val = false))
  | 2 => decide ((s.acts .twill))
  | 3 => decide ((s.acts .twill))
  | 4 => decide ((s.acts .twill))
  | 5 => decide ((s.acts .twill))
  | 6 => decide ((s.acts .twill))
  | 7 => decide ((s.acts .twill) ∧ (s.fld (Reg.TW_CTRL e.val) F.TW_CTRL_OVR_LIM ≠ 0 ∧ s.fld (Reg.TW_CTRL e.val) F.TW_CTRL_OVR_LIM ≤ Tab.get (fun _ => 0) y.ovr sl.val))
  | 8 => decide ((s.acts .twill))
  | 9 => decide ((s.acts .twill) ∧ (s.flag (Reg.AINSP_CFG j.val) F.AINSP_CFG_EN = true ∧ s.fld (Reg.AINSP_CFG j.val) F.AINSP_CFG_TAU = 0 ∧ s.fld (Reg.AINSP_CFG j.val) F.AINSP_CFG_LO ≤ code.toNat ∧ code.toNat ≤ s.fld (Reg.AINSP_CFG j.val) F.AINSP_CFG_HI))
  | 10 => decide ((s.acts .twill) ∧ (s.flag (Reg.AINSP_CFG j.val) F.AINSP_CFG_EN = true ∧ s.fld (Reg.AINSP_CFG j.val) F.AINSP_CFG_TAU ≠ 0 ∧ s.fld (Reg.AINSP_CFG j.val) F.AINSP_CFG_LO ≤ code.toNat ∧ code.toNat ≤ s.fld (Reg.AINSP_CFG j.val) F.AINSP_CFG_HI ∧ held ≤ code.toNat * 2 ^ 19))
  | 11 => decide ((s.acts .twill) ∧ (s.flag (Reg.AINSP_CFG j.val) F.AINSP_CFG_EN = true ∧ (code.toNat < s.fld (Reg.AINSP_CFG j.val) F.AINSP_CFG_LO ∨ s.fld (Reg.AINSP_CFG j.val) F.AINSP_CFG_HI < code.toNat)))
  | 12 => decide ((s.acts .twill) ∧ (s.flag cfg F.PINSP_CFG_EN = true ∧ q.last = none))
  | 13 => decide ((s.acts .twill) ∧ (s.flag cfg F.PINSP_CFG_EN = true ∧ q.last = some u ∧ ¬ short u ∧ 1000000000 ≤ ns u * fmax))
  | 14 => decide ((s.acts .twill) ∧ (s.flag cfg F.PINSP_CFG_EN = true ∧ q.last = some u ∧ short u))
  | 15 => decide ((s.acts .twill) ∧ (s.flag cfg F.PINSP_CFG_EN = true ∧ q.last = some u ∧ ¬ short u ∧ ns u * fmax < 1000000000))
  | _ => decide ((s.acts .twill) ∧ (s.flag cfg F.PINSP_CFG_EN = true ∧ s.fld (Reg.PINSP_TMO j.val) F.PINSP_TMO_TMO ≠ 0 ∧ (s.pulse j.val).since + s.fld (Reg.PINSP_TMO j.val) F.PINSP_TMO_TMO * 16000 ≤ s.now))
theorem test_meets_TwillRegistersAndSetPoints :
    hypTwillRegistersAndSetPoints State.reset 0 0 0 0 0 1 = true ∧
    hypTwillRegistersAndSetPoints (wTw.setFld (Reg.TW_STATUS 0) F.TW_STATUS_PEND 4) 0 0 0 0 0 2 = true ∧
    hypTwillRegistersAndSetPoints ((wTe (fun x => { x with coefNew := [Reg.TW_COEF_VAL 0 3], coefSet := [(Reg.TW_COEF_VAL 0 3, 1)] })).wr (Reg.TW_COEF_VAL 0 3) 9) 0 0 0 0 0 3 = true ∧
    hypTwillRegistersAndSetPoints State.reset 0 0 0 0 0 4 = true ∧
    hypTwillRegistersAndSetPoints (wTw.setFld (Reg.TW_OWN 2) F.TW_OWN_CH 6) 0 0 0 0 0 5 = true ∧
    hypTwillRegistersAndSetPoints (wTw.setFld (Reg.TW_SLOT_CFG 0 0) F.TW_SLOT_CFG_OVR_CNT 9) 0 0 0 0 0 6 = true ∧
    hypTwillRegistersAndSetPoints (((wTe (fun x => { x with ovr := [(3, 4)] })).setFld (Reg.TW_CTRL 0) F.TW_CTRL_OVR_LIM 4).setFlag (Reg.TW_SLOT_CFG 0 3) F.TW_SLOT_CFG_EN true) 0 0 3 0 0 7 = true ∧
    hypTwillRegistersAndSetPoints State.reset 0 0 0 0 0 8 = true ∧
    hypTwillRegistersAndSetPoints ((((State.reset.setFlag (Reg.AINSP_CFG 1) F.AINSP_CFG_EN true).setFld (Reg.AINSP_CFG 1) F.AINSP_CFG_HI 4000).setFld (Reg.AINSP_CFG 1) F.AINSP_CFG_TAU 0)) 0 1 0 900 0 9 = true ∧
    hypTwillRegistersAndSetPoints ((((State.reset.setFlag (Reg.AINSP_CFG 1) F.AINSP_CFG_EN true).setFld (Reg.AINSP_CFG 1) F.AINSP_CFG_HI 4000).setFld (Reg.AINSP_CFG 1) F.AINSP_CFG_TAU 3)) 0 1 0 900 0 10 = true ∧
    hypTwillRegistersAndSetPoints ((State.reset.setFlag (Reg.AINSP_CFG 1) F.AINSP_CFG_EN true).setFld (Reg.AINSP_CFG 1) F.AINSP_CFG_LO 10) 0 1 0 9 0 11 = true ∧
    hypTwillRegistersAndSetPoints ((State.reset.setFlag (Reg.PINSP_CFG 2) F.PINSP_CFG_EN true).setFlag (Reg.PINSP_CFG 2) F.PINSP_CFG_MODE true) 0 2 0 0 0 12 = true ∧
    hypTwillRegistersAndSetPoints (wNow 16000000000 (((State.reset.setFlag (Reg.PINSP_CFG 2) F.PINSP_CFG_EN true).setFld (Reg.PINSP_CFG 2) F.PINSP_CFG_FMAX 5).setPulse 2 ⟨some 0, 0, 5, 6⟩)) 0 2 0 0 0 13 = true ∧
    hypTwillRegistersAndSetPoints ((((State.reset.setFlag (Reg.PINSP_CFG 2) F.PINSP_CFG_EN true).setFld (Reg.PINSP_CFG 2) F.PINSP_CFG_FILT 5).setPulse 2 ⟨some 0, 0, 5, 6⟩)) 0 2 0 0 0 14 = true ∧
    hypTwillRegistersAndSetPoints ((State.reset.setFlag (Reg.PINSP_CFG 2) F.PINSP_CFG_EN true).setPulse 2 ⟨some 0, 0, 5, 6⟩) 0 2 0 0 0 15 = true ∧
    hypTwillRegistersAndSetPoints ((((wNow 32000 State.reset).setFlag (Reg.PINSP_CFG 2) F.PINSP_CFG_EN true).setFld (Reg.PINSP_TMO 2) F.PINSP_TMO_TMO 2).setPulse 2 ⟨some 0, 0, 5, 6⟩) 0 2 0 0 0 16 = true := by
  and_intros <;> decide +kernel

/-- The hypotheses of ConvertersSampleAndCompare, clause by clause. -/
def hypConvertersSampleAndCompare (s : State) (a : Fin 8) (code : BitVec 14) (k : Fin 48) (n : Fin 48) (uv : BitVec 22) (r : Sample) (rest : List Sample) (clause : Nat) : Bool :=
  let q := s.adc a.val
  let cfg := Reg.CMP_CFG k.val
  let act := s.flag cfg F.CMP_CFG_ACT
  let forced := s.flag cfg F.CMP_CFG_DACERR
  let hyst := (fun (h : Nat) => if h = 0 then 0 else if h = 1 then 5000 else if h = 2 then 10000 else 20000) (s.fld cfg F.CMP_CFG_HYST)
  let out := fun (h : Nat) => bitOf (s.fld cfg F.CMP_CFG_MODE) 0 = true ∧ s.fld (Reg.CMP_THR k.val) F.CMP_THR_HI * 2500000 < (uv.toNat + h) * 1024 ∨ bitOf (s.fld cfg F.CMP_CFG_MODE) 1 = true ∧ uv.toNat * 1024 < s.fld (Reg.CMP_THR k.val) F.CMP_THR_LO * 2500000 + h * 1024
  match clause with
  | 1 => decide ((s.acts .sensing) ∧ (q.waiting = some r ∧ s.adcFree a.val = true))
  | 2 => decide ((s.acts .sensing) ∧ (s.adcFree a.val = false))
  | 3 => decide ((s.acts .sensing) ∧ (q.busy = r :: rest ∧ r.pos ≤ 5 ∧ q.stopped = false))
  | 4 => decide ((s.acts .sensing) ∧ (q.busy = r :: rest ∧ r.pos = 6 ∧ q.stopped = false ∧ (code.toNat < 8144 ∨ 8240 < code.toNat)))
  | 5 => decide ((s.acts .sensing) ∧ (q.busy = r :: rest ∧ r.pos = 6 ∧ q.stopped = false ∧ 8144 ≤ code.toNat ∧ code.toNat ≤ 8240))
  | 6 => decide ((s.acts .sensing))
  | 7 => decide ((s.acts .sensing))
  | 8 => decide ((s.acts .sensing) ∧ (forced = false ∧ act = false ∧ out 0))
  | 9 => decide ((s.acts .sensing) ∧ (forced = false ∧ act = false ∧ ¬ out 0))
  | 10 => decide ((s.acts .sensing) ∧ (forced = false ∧ act = true ∧ ¬ out hyst))
  | 11 => decide ((s.acts .sensing) ∧ (act = true ∧ (forced = true ∨ out hyst)))
  | 12 => decide ((s.acts .sensing))
  | 13 => decide ((s.acts .sensing) ∧ (s.flag (Reg.CMP_CFG k.val) F.CMP_CFG_DACERR = true))
  | 14 => decide ((s.acts .sensing))
  | _ => decide ((s.acts .sensing) ∧ (s.stale n.val = true ∧ s.fld Reg.SNS_DCL F.SNS_DCL_SRC_AIN = n.val))
theorem test_meets_ConvertersSampleAndCompare :
    hypConvertersSampleAndCompare (State.reset.setAdc 2 { Adc.reset with waiting := some ⟨3, 1, 0, 0, 0⟩ }) 2 0 0 0 0 ⟨3, 1, 0, 0, 0⟩ [] 1 = true ∧
    hypConvertersSampleAndCompare ((wNow 1600 State.reset).setAdc 2 { Adc.reset with waiting := some ⟨3, 1, 0, 0, 0⟩, last := some 1 }) 2 0 0 0 0 ⟨0, 0, 0, 0, 0⟩ [] 2 = true ∧
    hypConvertersSampleAndCompare ((State.reset.setAdc 2 { Adc.reset with busy := [⟨3, 1, 7, 0, 0⟩] }).setFld (Reg.AIN_CAL_OFS 10) F.AIN_CAL_OFS_OFS 0xFFF0) 2 1000 0 0 0 ⟨3, 1, 7, 0, 0⟩ [] 3 = true ∧
    hypConvertersSampleAndCompare (State.reset.setAdc 2 { Adc.reset with busy := [⟨3, 6, 7, 0, 0⟩] }) 2 8143 0 0 0 ⟨3, 6, 7, 0, 0⟩ [] 4 = true ∧
    hypConvertersSampleAndCompare (State.reset.setAdc 2 { Adc.reset with busy := [⟨3, 6, 7, 0, 0⟩] }) 2 8241 0 0 0 ⟨3, 6, 7, 0, 0⟩ [] 4 = true ∧
    hypConvertersSampleAndCompare (State.reset.setAdc 2 { Adc.reset with busy := [⟨3, 6, 7, 0, 0⟩] }) 2 8240 0 0 0 ⟨3, 6, 7, 0, 0⟩ [] 5 = true ∧
    hypConvertersSampleAndCompare (let s := State.reset.setAdc 2 { Adc.reset with busy := [⟨3, 6, 7, 0, 0⟩], recover := true }; s.setSense { s.sense with left := [(0, 1)] }) 2 8144 0 0 0 ⟨3, 6, 7, 0, 0⟩ [] 5 = true ∧
    hypConvertersSampleAndCompare (State.reset.setAdc 2 { Adc.reset with stopped := true }) 2 0 0 0 0 ⟨0, 0, 0, 0, 0⟩ [] 6 = true ∧
    hypConvertersSampleAndCompare State.reset 0 0 0 0 0 ⟨0, 0, 0, 0, 0⟩ [] 7 = true ∧
    hypConvertersSampleAndCompare ((State.reset.setFld (Reg.CMP_CFG 7) F.CMP_CFG_MODE 1).setFld (Reg.CMP_THR 7) F.CMP_THR_HI 512) 0 0 7 0 1250001 ⟨0, 0, 0, 0, 0⟩ [] 8 = true ∧
    hypConvertersSampleAndCompare ((State.reset.setFld (Reg.CMP_CFG 7) F.CMP_CFG_MODE 2).setFld (Reg.CMP_THR 7) F.CMP_THR_LO 512) 0 0 7 0 1249999 ⟨0, 0, 0, 0, 0⟩ [] 8 = true ∧
    hypConvertersSampleAndCompare ((State.reset.setFld (Reg.CMP_CFG 7) F.CMP_CFG_MODE 3).setFld (Reg.CMP_THR 7) F.CMP_THR_HI 512) 0 0 7 0 1250000 ⟨0, 0, 0, 0, 0⟩ [] 9 = true ∧
    hypConvertersSampleAndCompare ((((State.reset.setFlag (Reg.CMP_CFG 7) F.CMP_CFG_ACT true).setFld (Reg.CMP_CFG 7) F.CMP_CFG_MODE 1).setFld (Reg.CMP_CFG 7) F.CMP_CFG_HYST 1).setFld (Reg.CMP_THR 7) F.CMP_THR_HI 512) 0 0 7 0 1245000 ⟨0, 0, 0, 0, 0⟩ [] 10 = true ∧
    hypConvertersSampleAndCompare ((((State.reset.setFlag (Reg.CMP_CFG 7) F.CMP_CFG_ACT true).setFld (Reg.CMP_CFG 7) F.CMP_CFG_MODE 1).setFld (Reg.CMP_CFG 7) F.CMP_CFG_HYST 1).setFld (Reg.CMP_THR 7) F.CMP_THR_HI 512) 0 0 7 0 1245001 ⟨0, 0, 0, 0, 0⟩ [] 11 = true ∧
    hypConvertersSampleAndCompare ((State.reset.setFlag (Reg.CMP_CFG 7) F.CMP_CFG_ACT true).setFlag (Reg.CMP_CFG 7) F.CMP_CFG_DACERR true) 0 0 7 0 0 ⟨0, 0, 0, 0, 0⟩ [] 11 = true ∧
    hypConvertersSampleAndCompare State.reset 0 0 0 0 0 ⟨0, 0, 0, 0, 0⟩ [] 12 = true ∧
    hypConvertersSampleAndCompare (State.reset.setFlag (Reg.CMP_CFG 7) F.CMP_CFG_DACERR true) 0 0 7 0 0 ⟨0, 0, 0, 0, 0⟩ [] 13 = true ∧
    hypConvertersSampleAndCompare State.reset 0 0 47 0 0 ⟨0, 0, 0, 0, 0⟩ [] 14 = true ∧
    hypConvertersSampleAndCompare (((wNow 1600000 State.reset).setFlag Reg.SNS_DCL F.SNS_DCL_PRE_OK true).setAin 0 ⟨some 0, 0⟩) 0 0 0 0 0 ⟨0, 0, 0, 0, 0⟩ [] 15 = true := by
  and_intros <;> decide +kernel

/-- The hypotheses of MatrixAndChecksAct, clause by clause. -/
def hypMatrixAndChecksAct (s : State) (x : Fin 16) (o : Fin 8) (outlet : Bool) (tgt : Fin 16) (hc : HeldCoil) (w : WeldCheck) (l : Nat) (clause : Nat) : Bool :=
  let c := s.sumCheck o.val
  let gap := (((s.closedModules o.val).foldl (fun z m => z + s.ainRes (s.inIM m)) 0) - s.ainRes (s.inIO o.val)).natAbs
  let rested := match c.last with | some u => decide (u + 160000 ≤ s.now) | none => true
  let runs := s.flag Reg.SNS_CTRL F.SNS_CTRL_CHK_EN = true ∧ s.outlOn o.val = true ∧ s.energ o.val = true ∧ c.hold = none ∧ rested = true ∧ s.stale (s.inIO o.val) = false ∧ (∀ m ∈ s.closedModules o.val, s.stale (s.inIM m) = false)
  let tol := s.fld (Reg.OUTL_CHK o.val) F.OUTL_CHK_ISUM_TOL * 65536
  let dv := s.fld Reg.SNS_MXV F.SNS_MXV_WELD_DV * 65536
  let ends := fun (w : WeldCheck) => s.sense.weld = some w ∧ w.due ≤ s.now ∧ w.err = false ∧ s.weldClosed w.outlet w.tgt = false ∧ (∃ g : Fin 48, ∃ h : Fin 48, s.weldInputs w.outlet w.tgt = some (g.val, h.val) ∧ s.stale g.val = false ∧ s.stale h.val = false)
  match clause with
  | 1 => decide ((s.acts .sensing) ∧ (s.heldCoil x.val = some hc ∧ s.xpPasses x.val = true ∧ s.hs.behave = false ∧ s.owned = true ∧ (s.sw (s.xpHs x.val)).hold = none ∧ (s.sw (s.xpHs x.val)).barred = false))
  | 2 => decide ((s.acts .sensing) ∧ (s.heldCoil x.val = some hc ∧ s.xpPasses x.val = false ∧ hc.due ≤ s.now))
  | 3 => decide ((s.acts .sensing) ∧ (runs ∧ tol ≤ gap ∧ 2 ≤ c.bad ∧ c.noted = false))
  | 4 => decide ((s.acts .sensing) ∧ (runs ∧ tol ≤ gap ∧ c.bad < 2))
  | 5 => decide ((s.acts .sensing) ∧ (s.flag Reg.SNS_CTRL F.SNS_CTRL_CHK_EN = true ∧ s.outlOn o.val = true ∧ s.energ o.val = true ∧ c.hold = none ∧ rested = true ∧ s.stale (s.inIO o.val) = true))
  | 6 => decide ((s.acts .sensing) ∧ (c.hold ≠ none ∨ rested = false))
  | 7 => decide ((s.acts .sensing) ∧ (runs ∧ gap < tol))
  | 8 => decide ((s.acts .sensing) ∧ (s.reached c.hold = true))
  | 9 => decide ((s.acts .sensing) ∧ (s.sense.weld = none ∧ s.weldInputs outlet tgt.val = none))
  | 10 => decide ((s.acts .sensing) ∧ (s.sense.weld = none ∧ (s.weldInputs outlet tgt.val).isSome = true))
  | 11 => decide ((s.acts .sensing) ∧ (ends w ∧ w.lo = some l ∧ dv ≤ l))
  | 12 => decide ((s.acts .sensing) ∧ (ends w ∧ w.lo = some l ∧ l < dv ∧ w.hi < dv))
  | 13 => decide ((s.acts .sensing) ∧ (ends w ∧ w.lo = some l ∧ l < dv ∧ dv ≤ w.hi))
  | 14 => decide ((s.acts .sensing) ∧ (s.sense.weld = some w ∧ w.due ≤ s.now ∧ (w.err = true ∨ s.weldInputs w.outlet w.tgt = none ∨ s.weldClosed w.outlet w.tgt = true)))
  | _ => decide ((s.acts .sensing) ∧ (ends w ∧ w.lo = none))
theorem test_meets_MatrixAndChecksAct :
    hypMatrixAndChecksAct (((wMx.setFld Reg.SNS_MX F.SNS_MX_I_ZERO 5).setFld Reg.SNS_MXV F.SNS_MXV_MATCH_DV 5).setHeldCoil 0 (some ⟨true, 99⟩) |> fun s => (s.setHs { s.hs with behave := false }).setFlag Reg.ZW_CTRL F.ZW_CTRL_EN false) 0 0 false 0 ⟨true, 99⟩ ⟨false, 0, 0, none, 0, false⟩ 0 1 = true ∧
    hypMatrixAndChecksAct ((wNow 9 State.reset).setHeldCoil 3 (some ⟨true, 9⟩)) 3 0 false 0 ⟨true, 9⟩ ⟨false, 0, 0, none, 0, false⟩ 0 2 = true ∧
    hypMatrixAndChecksAct ((((wMx.setFlag Reg.SNS_CTRL F.SNS_CTRL_CHK_EN true).setBit Reg.SFS_OUT F.SFS_OUT_ENERG 0 true).setSumCheck 0 { SumCheck.reset with bad := 2 }).setFld (Reg.OUTL_CHK 0) F.OUTL_CHK_ISUM_TOL 0) 0 0 false 0 ⟨false, 0⟩ ⟨false, 0, 0, none, 0, false⟩ 0 3 = true ∧
    hypMatrixAndChecksAct (((wMx.setFlag Reg.SNS_CTRL F.SNS_CTRL_CHK_EN true).setBit Reg.SFS_OUT F.SFS_OUT_ENERG 0 true).setFld (Reg.OUTL_CHK 0) F.OUTL_CHK_ISUM_TOL 0) 0 0 false 0 ⟨false, 0⟩ ⟨false, 0, 0, none, 0, false⟩ 0 4 = true ∧
    hypMatrixAndChecksAct (((wMx.setFlag Reg.SNS_CTRL F.SNS_CTRL_CHK_EN true).setBit Reg.SFS_OUT F.SFS_OUT_ENERG 0 true).setAin 2 ⟨none, 0⟩) 0 0 false 0 ⟨false, 0⟩ ⟨false, 0, 0, none, 0, false⟩ 0 5 = true ∧
    hypMatrixAndChecksAct (((wMx.setFlag Reg.SNS_CTRL F.SNS_CTRL_CHK_EN true).setBit Reg.SFS_OUT F.SFS_OUT_ENERG 0 true).setSumCheck 0 { SumCheck.reset with last := some 0 }) 0 0 false 0 ⟨false, 0⟩ ⟨false, 0, 0, none, 0, false⟩ 0 6 = true ∧
    hypMatrixAndChecksAct (((wMx.setFlag Reg.SNS_CTRL F.SNS_CTRL_CHK_EN true).setBit Reg.SFS_OUT F.SFS_OUT_ENERG 0 true).setFld (Reg.OUTL_CHK 0) F.OUTL_CHK_ISUM_TOL 3) 0 0 false 0 ⟨false, 0⟩ ⟨false, 0, 0, none, 0, false⟩ 0 7 = true ∧
    hypMatrixAndChecksAct (wMx.setSumCheck 0 { SumCheck.reset with hold := some 0 }) 0 0 false 0 ⟨false, 0⟩ ⟨false, 0, 0, none, 0, false⟩ 0 8 = true ∧
    hypMatrixAndChecksAct State.reset 0 0 true 9 ⟨false, 0⟩ ⟨false, 0, 0, none, 0, false⟩ 0 9 = true ∧
    hypMatrixAndChecksAct wMx 0 0 true 0 ⟨false, 0⟩ ⟨false, 0, 0, none, 0, false⟩ 0 10 = true ∧
    hypMatrixAndChecksAct (wMx.setSense { wMx.sense with weld := some ⟨true, 0, 0, some 0x10000000, 0x10000000, false⟩ }) 0 0 false 0 ⟨false, 0⟩ ⟨true, 0, 0, some 0x10000000, 0x10000000, false⟩ 0x10000000 11 = true ∧
    hypMatrixAndChecksAct ((wMx.setSense { wMx.sense with weld := some ⟨true, 0, 0, some 1, 2, false⟩ }).setFld Reg.SNS_MXV F.SNS_MXV_WELD_DV 4) 0 0 false 0 ⟨false, 0⟩ ⟨true, 0, 0, some 1, 2, false⟩ 1 12 = true ∧
    hypMatrixAndChecksAct ((wMx.setSense { wMx.sense with weld := some ⟨true, 0, 0, some 1, 0x10000000, false⟩ }).setFld Reg.SNS_MXV F.SNS_MXV_WELD_DV 4) 0 0 false 0 ⟨false, 0⟩ ⟨true, 0, 0, some 1, 0x10000000, false⟩ 1 13 = true ∧
    hypMatrixAndChecksAct (wMx.setSense { wMx.sense with weld := some ⟨true, 0, 0, some 5, 9, true⟩ }) 0 0 false 0 ⟨false, 0⟩ ⟨true, 0, 0, some 5, 9, true⟩ 0 14 = true ∧
    hypMatrixAndChecksAct (wMx.setSense { wMx.sense with weld := some ⟨true, 0, 0, none, 0, false⟩ }) 0 0 false 0 ⟨false, 0⟩ ⟨true, 0, 0, none, 0, false⟩ 0 15 = true := by
  and_intros <;> decide +kernel

/-- The hypotheses of SalternTakesWritesAndRaises, clause by clause. -/
def hypSalternTakesWritesAndRaises (s : State) (v : Word) (i : Fin 128) (off : BitVec 12) (double : Bool) (clause : Nat) : Bool :=
  let stat := Reg.SAL_EMRG_STAT
  let m := stateMask (Reg.SAL_CTRL + off.toNat)
  let leads := s.role = roleOff ∨ s.role = roleLeader
  let pend := s.flag stat F.SAL_EMRG_STAT_PEND
  let k := Reg.SAL_CTRL + off.toNat
  let table := off.toNat % 4 = 0 ∧ (0x100 ≤ off.toNat ∧ off.toNat < 0x200 ∨ 0x400 ≤ off.toNat)
  match clause with
  | 1 => decide ((s.acts .saltern))
  | 2 => decide ((s.acts .saltern))
  | 3 => decide ((s.acts .saltern) ∧ (s.demandOld i.val = true ∧ s.demandFresh i.val = false ∧ s.flag (Reg.SAL_DEM i.val) F.SAL_DEM_STALE = false))
  | 4 => decide ((s.acts .saltern))
  | 5 => decide ((s.acts .saltern) ∧ (s.gridLine = true ∧ s.sal.line = false ∧ s.flag Reg.SAL_EMRG_CTRL F.SAL_EMRG_CTRL_LINE_EN = true ∧ leads))
  | 6 => decide ((s.acts .saltern) ∧ (s.gridLine = true ∧ s.sal.line = false ∧ (s.flag Reg.SAL_EMRG_CTRL F.SAL_EMRG_CTRL_LINE_EN = false ∨ ¬ leads)))
  | 7 => decide ((s.acts .saltern))
  | 8 => decide ((s.acts .saltern) ∧ (s.gridLine = true ∧ s.flag Reg.SAL_EMRG_CTRL F.SAL_EMRG_CTRL_LINE_EN = true ∨ pend = true))
  | 9 => decide ((s.acts .saltern) ∧ ((s.gridLine = false ∨ s.flag Reg.SAL_EMRG_CTRL F.SAL_EMRG_CTRL_LINE_EN = false) ∧ pend = false))
  | 10 => decide ((s.acts .saltern) ∧ (m ≠ 0 ∧ s.sal.mode = 2 ∧ k ≠ stat))
  | 11 => decide ((s.acts .saltern) ∧ (m ≠ 0 ∧ s.sal.mode ≠ 2 ∧ k ≠ stat ∧ k ≠ Reg.SAL_EMRG_REL))
  | 12 => decide ((s.acts .saltern) ∧ (s.sal.mode ≠ 2 ∧ k = stat ∧ v.getLsbD 31 = true))
  | 13 => decide ((s.acts .saltern) ∧ (table ∧ double = false))
  | _ => decide ((s.acts .saltern) ∧ (table ∧ double = true))
theorem test_meets_SalternTakesWritesAndRaises :
    hypSalternTakesWritesAndRaises State.reset 0 0 0 false 1 = true ∧
    hypSalternTakesWritesAndRaises (State.reset.setFlag (Reg.SAL_DEM 9) F.SAL_DEM_STALE true) 0xFF012345 9 0 false 2 = true ∧
    hypSalternTakesWritesAndRaises (((State.reset.setFld Reg.SAL_CTRL F.SAL_CTRL_DEM_TMO 2).wrLive (Reg.SAL_OUT_CFG 9) 0x80000000).setSal { Saltern.reset with idle := [(9, 2)] }) 0 9 0 false 3 = true ∧
    hypSalternTakesWritesAndRaises (wNow 7 State.reset) 0 0 0 false 4 = true ∧
    hypSalternTakesWritesAndRaises ((((State.reset.setFlag Reg.GRD_STATUS F.GRD_STATUS_LINE true).setFlag Reg.SAL_EMRG_CTRL F.SAL_EMRG_CTRL_LINE_EN true).wrNat Reg.SAL_TOTAL 240000).wrLive (Reg.SAL_PAN 0) 0x8003A980 |>.setFld Reg.SAL_EMRG_CTRL F.SAL_EMRG_CTRL_KEEP 768) 0 0 0 false 5 = true ∧
    hypSalternTakesWritesAndRaises (State.reset.setFlag Reg.GRD_STATUS F.GRD_STATUS_LINE true) 0 0 0 false 6 = true ∧
    hypSalternTakesWritesAndRaises ((State.reset.wrNat Reg.SAL_EMRG_DEM 700).wrNat Reg.SAL_EMRG_STAT 0x80000010) 0 0 0 false 7 = true ∧
    hypSalternTakesWritesAndRaises ((State.reset.setFlag Reg.GRD_STATUS F.GRD_STATUS_LINE true).setFlag Reg.SAL_EMRG_CTRL F.SAL_EMRG_CTRL_LINE_EN true) 0 0 0 false 8 = true ∧
    hypSalternTakesWritesAndRaises (State.reset.wrNat Reg.SAL_EMRG_STAT 0x40000010) 0 0 0 false 8 = true ∧
    hypSalternTakesWritesAndRaises (State.reset.wrNat Reg.SAL_EMRG_STAT 0x80000010) 0 0 0 false 9 = true ∧
    hypSalternTakesWritesAndRaises ((State.reset).setSal { Saltern.reset with mode := 2 }) 5 0 0x1C false 10 = true ∧
    hypSalternTakesWritesAndRaises State.reset 0xFFFFFFFF 0 0x1C false 11 = true ∧
    hypSalternTakesWritesAndRaises State.reset 0xFFFFFFFF 0 0xFFC false 11 = true ∧
    hypSalternTakesWritesAndRaises State.reset 0xC0000007 0 0x2C false 12 = true ∧
    hypSalternTakesWritesAndRaises State.reset 0 0 0xE00 false 13 = true ∧
    hypSalternTakesWritesAndRaises ((State.reset).setSal { Saltern.reset with solve := some ⟨1000000, 0, false, 0, []⟩ }) 0 0 0x100 true 14 = true := by
  and_intros <;> decide +kernel

/-- The hypotheses of SalternSolvesAndApplies, clause by clause. -/
def hypSalternSolvesAndApplies (s : State) (b : Nat) (v : Solve) (x : GrantSet) (rest : List GrantSet) (a : Nat) (more : List Nat) (clause : Nat) : Bool :=
  let stat := Reg.SAL_EMRG_STAT
  let cut := s.now - 16 * (s.tbNs 0 - b)
  let meets := s.boundaryNow = some b ∧ s.sal.bound ≠ some b
  let starts := meets ∧ s.sal.solve = none ∧ s.fld Reg.SAL_CTRL F.SAL_CTRL_MODE = 2 ∧ s.zw.leadFrom ≤ b ∧ s.lastSolved b < b ∧ s.sal.raises = []
  let act := s.flag stat F.SAL_EMRG_STAT_ACT
  let pend := s.flag stat F.SAL_EMRG_STAT_PEND
  let due := fun (u : GrantSet) => decide (u.apply_ ≤ s.tbNs 0)
  let same := ∀ a ∈ salRws, s.salAt cut a = s.rd a
  match clause with
  | 1 => decide ((s.acts .saltern) ∧ (starts ∧ s.fld Reg.SAL_CTRL F.SAL_CTRL_CMT_MODE = 0 ∧ same ∧ salCfgOk s.rd = false))
  | 2 => decide ((s.acts .saltern) ∧ (starts))
  | 3 => decide ((s.acts .saltern) ∧ (starts ∧ pend = true))
  | 4 => decide ((s.acts .saltern) ∧ (starts ∧ pend = false ∧ act = true ∧ s.sal.clrs.any (fun u => decide (u + 1600 ≤ cut)) = true))
  | 5 => decide ((s.acts .saltern) ∧ (starts ∧ pend = false ∧ act = true ∧ s.sal.clrs = [] ∧ s.gridLine = true))
  | 6 => decide ((s.acts .saltern) ∧ (meets ∧ s.sal.solve = some v ∧ s.lastSolved b < b ∧ v.bound < b))
  | 7 => decide ((s.acts .saltern) ∧ (meets ∧ s.sal.solve = some v ∧ s.fld Reg.SAL_CTRL F.SAL_CTRL_MODE = 2 ∧ s.zw.leadFrom ≤ b ∧ (b ≤ s.lastSolved b ∨ b ≤ v.bound)))
  | 8 => decide ((s.acts .saltern) ∧ (meets ∧ s.sal.solve = none ∧ s.fld Reg.SAL_CTRL F.SAL_CTRL_MODE = 2 ∧ b < s.zw.leadFrom))
  | 9 => decide ((s.acts .saltern) ∧ (meets ∧ s.sal.solve = none ∧ s.fld Reg.SAL_CTRL F.SAL_CTRL_MODE ≠ 2))
  | 10 => decide ((s.acts .saltern) ∧ (meets ∧ s.fld Reg.SAL_CTRL F.SAL_CTRL_MODE ≠ 2 ∧ s.fld Reg.SAL_CTRL F.SAL_CTRL_CMT_MODE = 0 ∧ same ∧ salCfgOk s.rd = true))
  | 11 => decide ((s.acts .saltern) ∧ (meets ∧ s.fld Reg.SAL_CTRL F.SAL_CTRL_MODE ≠ 2 ∧ s.fld Reg.SAL_CTRL F.SAL_CTRL_CMT_MODE = 0 ∧ same ∧ salCfgOk s.rd = false ∧ a ∈ salRws ∧ s.rd a ≠ s.lv a))
  | 12 => decide ((s.acts .saltern) ∧ (s.sal.solve = some v ∧ s.sal.bad = []))
  | 13 => decide ((s.acts .saltern) ∧ (s.sal.solve = some v ∧ s.sal.bad = a :: more))
  | 14 => decide ((s.acts .saltern) ∧ (s.sal.hand = x :: rest ∧ s.sal.mode ≠ 0 ∧ s.tbNs 0 ≤ x.apply_ ∧ s.sal.sets.length < 4))
  | 15 => decide ((s.acts .saltern) ∧ (s.sal.hand = x :: rest ∧ s.sal.mode ≠ 0 ∧ s.tbNs 0 ≤ x.apply_ ∧ 4 ≤ s.sal.sets.length))
  | 16 => decide ((s.acts .saltern) ∧ (s.sal.hand = x :: rest ∧ s.sal.mode ≠ 0 ∧ x.apply_ < s.tbNs 0))
  | 17 => decide ((s.acts .saltern) ∧ (s.sal.hand = [] ∧ s.zw.wait.find? (fun g => decide (g.apply_ ≤ s.tbNs 0 + 5000)) = some x ∧ s.sal.mode ≠ 0 ∧ s.tbNs 0 ≤ x.apply_ ∧ s.sal.sets.length < 4))
  | 18 => decide ((s.acts .saltern) ∧ (s.sal.mode ≠ 0 ∧ s.sal.sets.find? due = some x))
  | _ => decide ((s.acts .saltern) ∧ (s.sal.sets.find? due = none))
theorem test_meets_SalternSolvesAndApplies :
    hypSalternSolvesAndApplies ((wNow 16000000 State.reset).setFld Reg.SAL_CTRL F.SAL_CTRL_MODE 2) 1000000 ⟨1000000, 0, false, 0, []⟩ ⟨1, 5, [7], false⟩ [] 0 [] 1 = true ∧
    hypSalternSolvesAndApplies ((wNow 16000000 State.reset).setFld Reg.SAL_CTRL F.SAL_CTRL_MODE 2) 1000000 ⟨1000000, 0, false, 0, []⟩ ⟨1, 5, [7], false⟩ [] 0 [] 2 = true ∧
    hypSalternSolvesAndApplies (((wNow 16000000 State.reset).setFld Reg.SAL_CTRL F.SAL_CTRL_MODE 2).wrNat Reg.SAL_EMRG_STAT 0x40000010) 1000000 ⟨1000000, 0, false, 0, []⟩ ⟨1, 5, [7], false⟩ [] 0 [] 3 = true ∧
    hypSalternSolvesAndApplies ((((wNow 16000000 State.reset).setFld Reg.SAL_CTRL F.SAL_CTRL_MODE 2).wrNat Reg.SAL_EMRG_STAT 0x80000010).setSal { Saltern.reset with clrs := [5, 15999000] }) 1000000 ⟨1000000, 0, false, 0, []⟩ ⟨1, 5, [7], false⟩ [] 0 [] 4 = true ∧
    hypSalternSolvesAndApplies ((((wNow 16000000 State.reset).setFld Reg.SAL_CTRL F.SAL_CTRL_MODE 2).wrNat Reg.SAL_EMRG_STAT 0x80000010).wrNat Reg.SAL_EMRG_REL 5 |>.setFlag Reg.GRD_STATUS F.GRD_STATUS_LINE true) 1000000 ⟨1000000, 0, false, 0, []⟩ ⟨1, 5, [7], false⟩ [] 0 [] 5 = true ∧
    hypSalternSolvesAndApplies (((wNow 16000000 State.reset).setFld Reg.SAL_CTRL F.SAL_CTRL_MODE 2).setSal { Saltern.reset with solve := some ⟨900000, 0, false, 0, []⟩ }) 1000000 ⟨900000, 0, false, 0, []⟩ ⟨1, 5, [7], false⟩ [] 0 [] 6 = true ∧
    hypSalternSolvesAndApplies (((wNow 16000000 State.reset).setFld Reg.SAL_CTRL F.SAL_CTRL_MODE 2).setSal { Saltern.reset with solve := some ⟨1000000, 0, false, 0, []⟩ }) 1000000 ⟨1000000, 0, false, 0, []⟩ ⟨1, 5, [7], false⟩ [] 0 [] 7 = true ∧
    hypSalternSolvesAndApplies (let s := (wNow 16000000 State.reset).setFld Reg.SAL_CTRL F.SAL_CTRL_MODE 2; s.setZw { s.zw with leadFrom := 2000000 }) 1000000 ⟨1000000, 0, false, 0, []⟩ ⟨1, 5, [7], false⟩ [] 0 [] 8 = true ∧
    hypSalternSolvesAndApplies (wNow 16000000 State.reset) 1000000 ⟨1000000, 0, false, 0, []⟩ ⟨1, 5, [7], false⟩ [] 0 [] 9 = true ∧
    hypSalternSolvesAndApplies ((wNow 16000000 State.reset).setFld Reg.SAL_CTRL F.SAL_CTRL_MODE 3) 1000000 ⟨1000000, 0, false, 0, []⟩ ⟨1, 5, [7], false⟩ [] 0 [] 9 = true ∧
    hypSalternSolvesAndApplies ((wNow 16000000 State.reset).wrNat (Reg.SAL_PAN 0) 0x8003A980) 1000000 ⟨1000000, 0, false, 0, []⟩ ⟨1, 5, [7], false⟩ [] 0 [] 10 = true ∧
    hypSalternSolvesAndApplies ((wNow 16000000 State.reset).wrNat (Reg.SAL_OUT_CFG 3) 0x80050000) 1000000 ⟨1000000, 0, false, 0, []⟩ ⟨1, 5, [7], false⟩ [] (Reg.SAL_OUT_CFG 3) [] 11 = true ∧
    hypSalternSolvesAndApplies (((wNow 16000000 State.reset).setFld Reg.SAL_CTRL F.SAL_CTRL_MODE 2).setSal { Saltern.reset with solve := some ⟨1000000, 0, false, 0, []⟩ }) 0 ⟨1000000, 0, false, 0, []⟩ ⟨1, 5, [7], false⟩ [] 0 [] 12 = true ∧
    hypSalternSolvesAndApplies (((wNow 16000000 State.reset).setFld Reg.SAL_CTRL F.SAL_CTRL_MODE 2).setSal { Saltern.reset with bad := [Reg.SAL_PAN 1], solve := some ⟨1000000, 0, false, 0, []⟩ }) 0 ⟨1000000, 0, false, 0, []⟩ ⟨1, 5, [7], false⟩ [] (Reg.SAL_PAN 1) [] 13 = true ∧
    hypSalternSolvesAndApplies ((State.reset).setSal { Saltern.reset with mode := 1, hand := [⟨1, 5, [7], false⟩] }) 0 ⟨1000000, 0, false, 0, []⟩ ⟨1, 5, [7], false⟩ [] 0 [] 14 = true ∧
    hypSalternSolvesAndApplies ((State.reset).setSal { Saltern.reset with mode := 1, hand := [⟨1, 5, [7], false⟩], sets := [⟨1, 5, [7], false⟩, ⟨1, 5, [7], false⟩, ⟨1, 5, [7], false⟩, ⟨1, 5, [7], false⟩] }) 0 ⟨1000000, 0, false, 0, []⟩ ⟨1, 5, [7], false⟩ [] 0 [] 15 = true ∧
    hypSalternSolvesAndApplies (((wNow 16000000 State.reset).setFld Reg.SAL_CTRL F.SAL_CTRL_MODE 2).setSal { Saltern.reset with mode := 1, hand := [⟨1, 5, [7], false⟩] }) 0 ⟨1000000, 0, false, 0, []⟩ ⟨1, 5, [7], false⟩ [] 0 [] 16 = true ∧
    hypSalternSolvesAndApplies (let s := (State.reset).setSal { Saltern.reset with mode := 1 }; s.setZw { s.zw with wait := [⟨1, 5, [7], false⟩] }) 0 ⟨1000000, 0, false, 0, []⟩ ⟨1, 5, [7], false⟩ [] 0 [] 17 = true ∧
    hypSalternSolvesAndApplies (((wNow 16000000 State.reset).setFld Reg.SAL_CTRL F.SAL_CTRL_MODE 2).setSal { Saltern.reset with mode := 1, sets := [⟨1, 5, [7], false⟩] }) 0 ⟨1000000, 0, false, 0, []⟩ ⟨1, 5, [7], false⟩ [] 0 [] 18 = true ∧
    hypSalternSolvesAndApplies ((State.reset).setSal { Saltern.reset with mode := 1, sets := [⟨1, 5, [7], false⟩] }) 0 ⟨1000000, 0, false, 0, []⟩ ⟨1, 5, [7], false⟩ [] 0 [] 19 = true := by
  and_intros <;> decide +kernel

/-- The hypotheses of SolveKeepsEveryLimit, clause by clause. -/
def hypSolveKeepsEveryLimit (s : State) (v : Solve) (clause : Nat) : Bool :=
  match clause with
  | _ => decide ((s.acts .saltern ∧ s.sal.solve = some v ∧ s.sal.bad = [] ∧ (∀ i : Fin 128, s.outletOn i.val = true → (depthOf s.lv (s.lfld (Reg.SAL_OUT_CFG i.val) F.SAL_OUT_CFG_PAN)).isSome = true)))
theorem test_meets_SolveKeepsEveryLimit :
    hypSolveKeepsEveryLimit ((((((wNow 16000000 State.reset).setFld Reg.SAL_CTRL F.SAL_CTRL_MODE 2).setSal { Saltern.reset with solve := some ⟨1000000, 0, false, 0, []⟩ }).wrLive (Reg.SAL_PAN 0) 0x80000005).wrLive (Reg.SAL_OUT_CFG 3) 0xC0000000).wrLive (Reg.SAL_DEM 3) 9) ⟨1000000, 0, false, 0, []⟩ 1 = true := by
  decide +kernel

/-- The hypotheses of ZwidyFramesAreSentAndTaken, clause by clause. -/
def hypZwidyFramesAreSentAndTaken (s : State) (etype : BitVec 16) (p : List Byte) (sw : SwapOut) (clause : Nat) : Bool :=
  let c := fieldOf p 1 1
  let b := (s.tbNs 0 / s.salPeriod + 1) * s.salPeriod
  let samples := b ≤ s.tbNs 0 + s.fld Reg.ZW_TIME F.ZW_TIME_DEM_LEAD_US * 1000 ∧ s.zw.sampled ≠ some b
  let instant := s.frameNs (fieldOf p 0x0C 4) (fieldOf p 0x10 4)
  let e := fieldOf p 4 4
  let demCopy := (Tab.get (fun _ => []) s.zw.targets c).contains instant = true
  let demForm := s.frameOk etype.toNat 1 0x3C p = true ∧ demandReserved p = true
  let demGood := demForm ∧ s.epoch ≤ e
  let was := Tab.get (fun _ => none) s.zw.apply_ c
  let later := match was with | some a => decide (a < instant) | none => true
  let barred := match s.zw.only with | some w => decide (w.1 ≠ c) && decide (e ≤ w.2) | none => false
  let grForm := s.frameOk etype.toNat 2 0x22C p = true ∧ grantReserved p = true
  let grGood := grForm ∧ s.epoch ≤ e ∧ later = true ∧ barred = false
  let stby := fieldOf p 2 1
  match clause with
  | 1 => decide ((s.acts .zwidy ∧ s.role ≠ 0) ∧ (samples ∧ s.zwCtrl F.ZW_CTRL_PORTS ≠ 0 ∧ s.zwAuth = false))
  | 2 => decide ((s.acts .zwidy ∧ s.role ≠ 0) ∧ (c = s.cab ∧ demForm))
  | 3 => decide ((s.acts .zwidy ∧ s.role ≠ 0) ∧ (c = s.cab ∧ grForm))
  | 4 => decide ((s.acts .zwidy ∧ s.role ≠ 0) ∧ (c ≠ s.cab ∧ s.zwCtrl F.ZW_CTRL_PORTS ≠ 3 ∧ demForm ∧ demCopy))
  | 5 => decide ((s.acts .zwidy ∧ s.role ≠ 0) ∧ (c ≠ s.cab ∧ s.zwCtrl F.ZW_CTRL_PORTS = 3))
  | 6 => decide ((s.acts .zwidy ∧ s.role ≠ 0) ∧ (c ≠ s.cab ∧ ¬demCopy ∧ demGood))
  | 7 => decide ((s.acts .zwidy ∧ s.role ≠ 0) ∧ (c ≠ s.cab ∧ ¬demCopy ∧ demGood ∧ s.role = 4 ∧ s.acts .saltern))
  | 8 => decide ((s.acts .zwidy ∧ s.role ≠ 0) ∧ (¬demForm ∨ c ≠ s.cab ∧ ¬demCopy ∧ e < s.epoch))
  | 9 => decide ((s.acts .zwidy ∧ s.role ≠ 0) ∧ (c ≠ s.cab ∧ was ≠ some instant ∧ grGood ∧ s.role = 2 ∧ s.zw.swap = none ∧ s.zw.claim = false ∧ s.zw.last = none))
  | 10 => decide ((s.acts .zwidy ∧ s.role ≠ 0) ∧ (c ≠ s.cab ∧ was ≠ some instant ∧ grGood ∧ s.role = 2 ∧ s.zw.swap = none ∧ s.zw.claim = false ∧ s.zw.last = none ∧ stby = s.cab ∧ s.acts .saltern ∧ s.sal.mode ≠ 2))
  | 11 => decide ((s.acts .zwidy ∧ s.role ≠ 0) ∧ (c ≠ s.cab ∧ was ≠ some instant ∧ grGood ∧ s.role = 4 ∧ s.zw.swap = none ∧ s.epoch < e))
  | 12 => decide ((s.acts .zwidy ∧ s.role ≠ 0) ∧ (c ≠ s.cab ∧ was ≠ some instant ∧ grGood ∧ s.zw.swap = some sw ∧ sw.bh.isSome = true ∧ sw.epoch < e))
  | 13 => decide ((s.acts .zwidy ∧ s.role ≠ 0) ∧ (¬grForm ∨ c ≠ s.cab ∧ (s.epoch > e ∨ later = false ∨ barred = true)))
  | _ => decide ((s.acts .zwidy ∧ s.role ≠ 0))
theorem test_meets_ZwidyFramesAreSentAndTaken :
    hypZwidyFramesAreSentAndTaken (((((State.reset.setFld Reg.ZW_ROLE F.ZW_ROLE_ROLE 2)).setFld Reg.ZW_CTRL F.ZW_CTRL_PORTS 1).setFld Reg.ZW_TIME F.ZW_TIME_DEM_LEAD_US 900).wr (Reg.ZW_DEM 3) 0x80000123 |>.setNow 12000000) 0 [] ⟨0, none, 0, 0⟩ 1 = true ∧
    hypZwidyFramesAreSentAndTaken ((State.reset.setFld Reg.ZW_ROLE F.ZW_ROLE_ROLE 2).setFld Reg.SAL_CTRL F.SAL_CTRL_CAB 2) (BitVec.ofNat 16 (State.reset.fld Reg.ZW_NET F.ZW_NET_ETYPE)) (((State.reset.setFld Reg.SAL_CTRL F.SAL_CTRL_CAB 2).demandPayload 5000000 [0x80000007, 9, 0, 0, 0, 0, 0, 0])) ⟨0, none, 0, 0⟩ 2 = true ∧
    hypZwidyFramesAreSentAndTaken ((State.reset.setFld Reg.ZW_ROLE F.ZW_ROLE_ROLE 2).setFld Reg.SAL_CTRL F.SAL_CTRL_CAB 2) (BitVec.ofNat 16 (State.reset.fld Reg.ZW_NET F.ZW_NET_ETYPE)) ((((State.reset.setFld Reg.SAL_CTRL F.SAL_CTRL_CAB 2).wrNat Reg.ZW_EPOCH 4).grantPayload 9 0 5000000)) ⟨0, none, 0, 0⟩ 3 = true ∧
    hypZwidyFramesAreSentAndTaken ((State.reset.setFld Reg.ZW_ROLE F.ZW_ROLE_ROLE 2).setZw { Zwidy.reset with targets := [(2, [6000000, 5000000])] }) (BitVec.ofNat 16 (State.reset.fld Reg.ZW_NET F.ZW_NET_ETYPE)) (((State.reset.setFld Reg.SAL_CTRL F.SAL_CTRL_CAB 2).demandPayload 5000000 [0x80000007, 9, 0, 0, 0, 0, 0, 0])) ⟨0, none, 0, 0⟩ 4 = true ∧
    hypZwidyFramesAreSentAndTaken ((State.reset.setFld Reg.ZW_ROLE F.ZW_ROLE_ROLE 2).setFld Reg.ZW_CTRL F.ZW_CTRL_PORTS 3) (BitVec.ofNat 16 (State.reset.fld Reg.ZW_NET F.ZW_NET_ETYPE)) (((State.reset.setFld Reg.SAL_CTRL F.SAL_CTRL_CAB 2).demandPayload 5000000 [0x80000007, 9, 0, 0, 0, 0, 0, 0])) ⟨0, none, 0, 0⟩ 5 = true ∧
    hypZwidyFramesAreSentAndTaken (State.reset.setFld Reg.ZW_ROLE F.ZW_ROLE_ROLE 2) (BitVec.ofNat 16 (State.reset.fld Reg.ZW_NET F.ZW_NET_ETYPE)) (((State.reset.setFld Reg.SAL_CTRL F.SAL_CTRL_CAB 2).demandPayload 5000000 [0x80000007, 9, 0, 0, 0, 0, 0, 0])) ⟨0, none, 0, 0⟩ 6 = true ∧
    hypZwidyFramesAreSentAndTaken (State.reset.setFld Reg.ZW_ROLE F.ZW_ROLE_ROLE 4) (BitVec.ofNat 16 (State.reset.fld Reg.ZW_NET F.ZW_NET_ETYPE)) (((State.reset.setFld Reg.SAL_CTRL F.SAL_CTRL_CAB 2).demandPayload 5000000 [0x80000007, 9, 0, 0, 0, 0, 0, 0])) ⟨0, none, 0, 0⟩ 7 = true ∧
    hypZwidyFramesAreSentAndTaken (State.reset.setFld Reg.ZW_ROLE F.ZW_ROLE_ROLE 2) (BitVec.ofNat 16 (State.reset.fld Reg.ZW_NET F.ZW_NET_ETYPE)) (((State.reset.setFld Reg.SAL_CTRL F.SAL_CTRL_CAB 2).demandPayload 5000000 [0x80000007, 9, 0, 0, 0, 0, 0, 0]) ++ [0]) ⟨0, none, 0, 0⟩ 8 = true ∧
    hypZwidyFramesAreSentAndTaken ((State.reset.setFld Reg.ZW_ROLE F.ZW_ROLE_ROLE 2).wr Reg.ZW_EPOCH 5) (BitVec.ofNat 16 (State.reset.fld Reg.ZW_NET F.ZW_NET_ETYPE)) (((State.reset.setFld Reg.SAL_CTRL F.SAL_CTRL_CAB 2).demandPayload 5000000 [0x80000007, 9, 0, 0, 0, 0, 0, 0])) ⟨0, none, 0, 0⟩ 8 = true ∧
    hypZwidyFramesAreSentAndTaken (State.reset.setFld Reg.ZW_ROLE F.ZW_ROLE_ROLE 2) (BitVec.ofNat 16 (State.reset.fld Reg.ZW_NET F.ZW_NET_ETYPE)) ((((State.reset.setFld Reg.SAL_CTRL F.SAL_CTRL_CAB 2).wrNat Reg.ZW_EPOCH 4).grantPayload 0 0 5000000)) ⟨0, none, 0, 0⟩ 9 = true ∧
    hypZwidyFramesAreSentAndTaken (State.reset.setFld Reg.ZW_ROLE F.ZW_ROLE_ROLE 2) (BitVec.ofNat 16 (State.reset.fld Reg.ZW_NET F.ZW_NET_ETYPE)) ((((State.reset.setFld Reg.SAL_CTRL F.SAL_CTRL_CAB 2).wrNat Reg.ZW_EPOCH 4).grantPayload 9 0 5000000)) ⟨0, none, 0, 0⟩ 9 = true ∧
    hypZwidyFramesAreSentAndTaken (State.reset.setFld Reg.ZW_ROLE F.ZW_ROLE_ROLE 2) (BitVec.ofNat 16 (State.reset.fld Reg.ZW_NET F.ZW_NET_ETYPE)) (((State.reset.setFld Reg.SAL_CTRL F.SAL_CTRL_CAB 2).wrNat (Reg.SAL_GRANT 7) 0x03000042).grantPayload 0 0 5000000) ⟨0, none, 0, 0⟩ 10 = true ∧
    hypZwidyFramesAreSentAndTaken (State.reset.setFld Reg.ZW_ROLE F.ZW_ROLE_ROLE 4) (BitVec.ofNat 16 (State.reset.fld Reg.ZW_NET F.ZW_NET_ETYPE)) ((((State.reset.setFld Reg.SAL_CTRL F.SAL_CTRL_CAB 2).wrNat Reg.ZW_EPOCH 4).grantPayload 9 0 5000000)) ⟨0, none, 0, 0⟩ 11 = true ∧
    hypZwidyFramesAreSentAndTaken (((State.reset.setFld Reg.ZW_ROLE F.ZW_ROLE_ROLE 2)).setZw { Zwidy.reset with swap := some ⟨0, some 5000000, 2, 3⟩ }) (BitVec.ofNat 16 (State.reset.fld Reg.ZW_NET F.ZW_NET_ETYPE)) ((((State.reset.setFld Reg.SAL_CTRL F.SAL_CTRL_CAB 2).wrNat Reg.ZW_EPOCH 4).grantPayload 9 0 5000000)) ⟨0, some 5000000, 2, 3⟩ 12 = true ∧
    hypZwidyFramesAreSentAndTaken ((State.reset.setFld Reg.ZW_ROLE F.ZW_ROLE_ROLE 2).setZw { Zwidy.reset with apply_ := [(2, some 6000000)] }) (BitVec.ofNat 16 (State.reset.fld Reg.ZW_NET F.ZW_NET_ETYPE)) ((((State.reset.setFld Reg.SAL_CTRL F.SAL_CTRL_CAB 2).wrNat Reg.ZW_EPOCH 4).grantPayload 9 0 5000000)) ⟨0, none, 0, 0⟩ 13 = true ∧
    hypZwidyFramesAreSentAndTaken (State.reset.setFld Reg.ZW_ROLE F.ZW_ROLE_ROLE 2) 0 [] ⟨0, none, 0, 0⟩ 14 = true := by
  and_intros <;> decide +kernel

/-- The hypotheses of ZwidyRolesAndOwnershipMove, clause by clause. -/
def hypZwidyRolesAndOwnershipMove (s : State) (data : Word) (b : Nat) (u : Nat) (sw : SwapOut) (p : List Byte) (clause : Nat) : Bool :=
  let leads := s.role = 4
  let cap := s.flag Reg.ZW_CTRL F.ZW_CTRL_LEAD_CAP
  let en := F.ZW_CTRL_EN.get data
  let pairEn := F.ZW_CTRL_PAIR_EN.get data
  let fresh := s.boundaryNow = some b ∧ s.zw.bound ≠ some b
  let pair := Reg.ZW_PAIR
  let quiet := s.zw.wait = [] ∧ s.sal.sets = [] ∧ s.sal.hand = [] ∧ s.flag Reg.ZW_ROLE F.ZW_ROLE_DECAY = false
  match clause with
  | 1 => decide ((s.acts .zwidy) ∧ (s.flag Reg.ZW_CTRL F.ZW_CTRL_EN = false ∧ en = 1 ∧ pairEn = 0))
  | 2 => decide ((s.acts .zwidy) ∧ (s.flag Reg.ZW_CTRL F.ZW_CTRL_EN = true ∧ en = 0))
  | 3 => decide ((s.acts .zwidy) ∧ (s.role = 1 ∧ s.zw.listenAt = some u ∧ u + s.listenMs ≤ s.now ∧ cap = true ∧ s.quorum = true))
  | 4 => decide ((s.acts .zwidy) ∧ (s.role = 1 ∧ s.zw.listenAt = some u ∧ u + s.listenMs ≤ s.now ∧ (cap = false ∨ s.quorum = false)))
  | 5 => decide ((s.acts .zwidy) ∧ (s.role = 1 ∧ s.reached s.zw.claimAt = true ∧ s.quorum = true))
  | 6 => decide ((s.acts .zwidy) ∧ (s.role = 1 ∧ s.reached s.zw.claimAt = true ∧ s.quorum = false))
  | 7 => decide ((s.acts .zwidy) ∧ (s.role = 2 ∧ s.zw.grantAt = some u ∧ u + s.listenMs ≤ s.now ∧ s.zw.swap = none))
  | 8 => decide ((s.acts .zwidy) ∧ (fresh ∧ s.role ≠ 0 ∧ s.zw.claim = true ∧ s.zw.leadFrom ≤ b ∧ s.zw.swap = none))
  | 9 => decide ((s.acts .zwidy) ∧ (fresh ∧ s.role = 3 ∧ s.zw.got = false ∧ s.missLim ≤ s.zw.miss + 1 ∧ s.quorum = true ∧ s.zw.takeAt = none ∧ s.zw.claim = false ∧ s.zw.swap = none))
  | 10 => decide ((s.acts .zwidy) ∧ (fresh ∧ s.role = 3 ∧ s.quorum = false ∧ s.zw.claim = false ∧ s.zw.swap = none))
  | 11 => decide ((s.acts .zwidy) ∧ (fresh ∧ s.role ≠ 0 ∧ s.zw.claim = false ∧ s.zw.swap = some sw ∧ sw.bh = some u ∧ u + s.salPeriod ≤ b ∧ sw.cab < 16))
  | 12 => decide ((s.acts .zwidy) ∧ (fresh ∧ s.role ≠ 0 ∧ s.zw.claim = false ∧ s.zw.swap = some sw ∧ sw.bh = some u ∧ u ≤ b ∧ b < u + s.salPeriod))
  | 13 => decide ((s.acts .zwidy) ∧ (fresh ∧ s.role = 2 ∧ s.zw.claim = false ∧ s.zw.swap = none ∧ s.flag Reg.ZW_ROLE F.ZW_ROLE_DECAY = true))
  | 14 => decide ((s.acts .zwidy) ∧ (s.role = 3 ∧ s.zw.takeAt = some u ∧ u / ticksNet < s.now / ticksNet ∧ s.quorum = true))
  | 15 => decide ((s.acts .zwidy) ∧ (s.role = 3 ∧ s.zw.takeAt = some u ∧ u / ticksNet < s.now / ticksNet ∧ s.quorum = false))
  | 16 => decide ((s.acts .zwidy) ∧ (leads ∧ s.quorum = false ∧ s.quorumEnd + s.missTicks + s.takeMs ≤ s.now))
  | 17 => decide ((s.acts .zwidy) ∧ (s.role ≠ 0 ∧ s.role ≠ 4 ∧ quiet ∧ s.sal.appliedAt = some u ∧ u + s.fld Reg.ZW_HOLD F.ZW_HOLD_HOLD_MS * ticksPerMs ≤ s.now))
  | 18 => decide ((s.acts .zwidy) ∧ (leads ∧ s.fld Reg.ZW_ROLE F.ZW_ROLE_STBY_CAB ≠ 0xFF ∧ s.zw.swap = none))
  | 19 => decide ((s.acts .zwidy) ∧ (s.fld Reg.ZW_ROLE F.ZW_ROLE_STBY_CAB = 0xFF ∨ ¬ leads))
  | 20 => decide ((s.acts .zwidy))
  | 21 => decide ((s.acts .zwidy) ∧ (s.flag Reg.ZW_CTRL F.ZW_CTRL_PAIR_EN = true ∧ s.owned = true))
  | 22 => decide ((s.acts .zwidy) ∧ (s.flag Reg.ZW_CTRL F.ZW_CTRL_PAIR_EN = true ∧ s.flag pair F.ZW_PAIR_CLAIM = false ∧ s.flag pair F.ZW_PAIR_PARTNER = false ∧ s.flag Reg.ZW_CTRL F.ZW_CTRL_EN = true))
  | 23 => decide ((s.acts .zwidy) ∧ (s.flag Reg.ZW_CTRL F.ZW_CTRL_PAIR_EN = true ∧ s.flag pair F.ZW_PAIR_PARTNER = true ∧ s.zw.both = false))
  | 24 => decide ((s.acts .zwidy) ∧ ((if s.fld pair F.ZW_PAIR_FILT_US = 0 then 1 else s.fld pair F.ZW_PAIR_FILT_US) ≤ u))
  | 25 => decide ((s.acts .zwidy) ∧ (u < s.fld pair F.ZW_PAIR_FILT_US))
  | 26 => decide ((s.acts .zwidy) ∧ (s.fld pair F.ZW_PAIR_RATE_LIM = 0 ∨ u ≤ s.fld pair F.ZW_PAIR_RATE_LIM))
  | 27 => decide ((s.acts .zwidy) ∧ (s.fld pair F.ZW_PAIR_RATE_LIM ≠ 0 ∧ s.fld pair F.ZW_PAIR_RATE_LIM < u))
  | 28 => decide ((s.acts .zwidy))
  | _ => decide ((s.acts .zwidy) ∧ (s.role = 0 ∧ fieldOf p 1 1 ≠ s.cab ∧ s.zwCtrl F.ZW_CTRL_PORTS = 3))
theorem test_meets_ZwidyRolesAndOwnershipMove :
    hypZwidyRolesAndOwnershipMove State.reset (0xFFFFFFFF &&& ~~~(F.ZW_CTRL_PAIR_EN.put 0 1)) 0 0 ⟨0, none, 0, 0⟩ [] 1 = true ∧
    hypZwidyRolesAndOwnershipMove ((State.reset.setFld Reg.ZW_ROLE F.ZW_ROLE_ROLE 4).setFlag Reg.ZW_CTRL F.ZW_CTRL_EN true) 0 0 0 ⟨0, none, 0, 0⟩ [] 2 = true ∧
    hypZwidyRolesAndOwnershipMove (((((State.reset.setFld Reg.ZW_ROLE F.ZW_ROLE_ROLE 1).setZw { Zwidy.reset with listenAt := some 0 }).setFlag Reg.ZW_CTRL F.ZW_CTRL_LEAD_CAP true).setFld Reg.ZW_CTRL F.ZW_CTRL_SITE_NM1 0).setNow 16000000000) 0 0 0 ⟨0, none, 0, 0⟩ [] 3 = true ∧
    hypZwidyRolesAndOwnershipMove (((State.reset.setFld Reg.ZW_ROLE F.ZW_ROLE_ROLE 1).setZw { Zwidy.reset with listenAt := some 0 }).setNow 16000000000) 0 0 0 ⟨0, none, 0, 0⟩ [] 4 = true ∧
    hypZwidyRolesAndOwnershipMove (((State.reset.setFld Reg.ZW_ROLE F.ZW_ROLE_ROLE 1).setZw { Zwidy.reset with claimAt := some 0 }).setFld Reg.ZW_CTRL F.ZW_CTRL_SITE_NM1 0) 0 0 0 ⟨0, none, 0, 0⟩ [] 5 = true ∧
    hypZwidyRolesAndOwnershipMove (((State.reset.setFld Reg.ZW_ROLE F.ZW_ROLE_ROLE 1).setZw { Zwidy.reset with claimAt := some 0 }).setFld Reg.ZW_CTRL F.ZW_CTRL_SITE_NM1 2) 0 0 0 ⟨0, none, 0, 0⟩ [] 6 = true ∧
    hypZwidyRolesAndOwnershipMove (((State.reset.setFld Reg.ZW_ROLE F.ZW_ROLE_ROLE 2).setZw { Zwidy.reset with grantAt := some 0 }).setNow 16000000000) 0 0 0 ⟨0, none, 0, 0⟩ [] 7 = true ∧
    hypZwidyRolesAndOwnershipMove (((State.reset.setFld Reg.ZW_ROLE F.ZW_ROLE_ROLE 1).setZw { Zwidy.reset with claim := true }).setNow 16000000) 0 1000000 0 ⟨0, none, 0, 0⟩ [] 8 = true ∧
    hypZwidyRolesAndOwnershipMove ((((State.reset.setFld Reg.ZW_ROLE F.ZW_ROLE_ROLE 3).setZw { Zwidy.reset with miss := 9 }).setNow 16000000).setFld Reg.ZW_CTRL F.ZW_CTRL_SITE_NM1 0) 0 1000000 0 ⟨0, none, 0, 0⟩ [] 9 = true ∧
    hypZwidyRolesAndOwnershipMove ((((State.reset.setFld Reg.ZW_ROLE F.ZW_ROLE_ROLE 3).setZw { Zwidy.reset with takeAt := some 9 }).setNow 16000000).setFld Reg.ZW_CTRL F.ZW_CTRL_SITE_NM1 4) 0 1000000 0 ⟨0, none, 0, 0⟩ [] 10 = true ∧
    hypZwidyRolesAndOwnershipMove (((State.reset.setFld Reg.ZW_ROLE F.ZW_ROLE_ROLE 2).setZw { Zwidy.reset with swap := some ⟨0, some 0, 3, 3⟩ }).setNow 16000000) 0 1000000 0 ⟨0, some 0, 3, 3⟩ [] 11 = true ∧
    hypZwidyRolesAndOwnershipMove (((State.reset.setFld Reg.ZW_ROLE F.ZW_ROLE_ROLE 4).setZw { Zwidy.reset with swap := some ⟨0, some 1000000, 3, 3⟩ }).setNow 16000000) 0 1000000 1000000 ⟨0, some 1000000, 3, 3⟩ [] 12 = true ∧
    hypZwidyRolesAndOwnershipMove (((((State.reset.setFld Reg.ZW_ROLE F.ZW_ROLE_ROLE 2).setZw { Zwidy.reset with decay := [9, 0, 900, 0, 0, 0, 0, 0] }).setNow 16000000).setFlag Reg.ZW_ROLE F.ZW_ROLE_DECAY true).setFld Reg.ZW_DSTEP F.ZW_DSTEP_DSTEP 10) 0 1000000 0 ⟨0, none, 0, 0⟩ [] 13 = true ∧
    hypZwidyRolesAndOwnershipMove ((((State.reset.setFld Reg.ZW_ROLE F.ZW_ROLE_ROLE 3).setZw { Zwidy.reset with takeAt := some 0 }).setFld Reg.ZW_CTRL F.ZW_CTRL_SITE_NM1 0).setNow 16000000) 0 0 0 ⟨0, none, 0, 0⟩ [] 14 = true ∧
    hypZwidyRolesAndOwnershipMove ((((State.reset.setFld Reg.ZW_ROLE F.ZW_ROLE_ROLE 3).setZw { Zwidy.reset with takeAt := some 0 }).setFld Reg.ZW_CTRL F.ZW_CTRL_SITE_NM1 2).setNow 16000000) 0 0 0 ⟨0, none, 0, 0⟩ [] 15 = true ∧
    hypZwidyRolesAndOwnershipMove ((((State.reset.setFld Reg.ZW_ROLE F.ZW_ROLE_ROLE 4).setZw { Zwidy.reset with noQuorum := some 0 }).setNow 16000000000).setFld Reg.ZW_CTRL F.ZW_CTRL_SITE_NM1 4) 0 0 0 ⟨0, none, 0, 0⟩ [] 16 = true ∧
    hypZwidyRolesAndOwnershipMove ((((State.reset.setFld Reg.ZW_ROLE F.ZW_ROLE_ROLE 2)).setSal { Saltern.reset with appliedAt := some 0 }).setNow 16000000000) 0 0 0 ⟨0, none, 0, 0⟩ [] 17 = true ∧
    hypZwidyRolesAndOwnershipMove ((State.reset.setFld Reg.ZW_ROLE F.ZW_ROLE_ROLE 4).setFld Reg.ZW_ROLE F.ZW_ROLE_STBY_CAB 3) 5 0 0 ⟨0, none, 0, 0⟩ [] 18 = true ∧
    hypZwidyRolesAndOwnershipMove ((State.reset.setFld Reg.ZW_ROLE F.ZW_ROLE_ROLE 4).setFld Reg.ZW_ROLE F.ZW_ROLE_STBY_CAB 0xFF) 5 0 0 ⟨0, none, 0, 0⟩ [] 19 = true ∧
    hypZwidyRolesAndOwnershipMove (State.reset.setFld Reg.ZW_SWAP F.ZW_SWAP_EXCL 5) 0 0 0 ⟨0, none, 0, 0⟩ [] 20 = true ∧
    hypZwidyRolesAndOwnershipMove ((((State.reset.setFld Reg.ZW_ROLE F.ZW_ROLE_ROLE 4)).setFlag Reg.ZW_CTRL F.ZW_CTRL_PAIR_EN true).setFlag Reg.ZW_PAIR F.ZW_PAIR_CLAIM true |>.setFlag Reg.ZW_PAIR F.ZW_PAIR_PARTNER false) 0 0 0 ⟨0, none, 0, 0⟩ [] 21 = true ∧
    hypZwidyRolesAndOwnershipMove ((((State.reset.setFld Reg.ZW_ROLE F.ZW_ROLE_ROLE 0)).setFlag Reg.ZW_CTRL F.ZW_CTRL_PAIR_EN true).setFlag Reg.ZW_CTRL F.ZW_CTRL_EN true |>.setFlag Reg.ZW_PAIR F.ZW_PAIR_PARTNER false) 0 0 0 ⟨0, none, 0, 0⟩ [] 22 = true ∧
    hypZwidyRolesAndOwnershipMove ((((State.reset.setFld Reg.ZW_ROLE F.ZW_ROLE_ROLE 0)).setFlag Reg.ZW_CTRL F.ZW_CTRL_PAIR_EN true).setFlag Reg.ZW_PAIR F.ZW_PAIR_PARTNER true) 0 0 0 ⟨0, none, 0, 0⟩ [] 23 = true ∧
    hypZwidyRolesAndOwnershipMove State.reset 0 0 500 ⟨0, none, 0, 0⟩ [] 24 = true ∧
    hypZwidyRolesAndOwnershipMove (State.reset.setFlag Reg.ZW_PAIR F.ZW_PAIR_STUCK true) 0 0 500 ⟨0, none, 0, 0⟩ [] 24 = true ∧
    hypZwidyRolesAndOwnershipMove (State.reset.setFld Reg.ZW_PAIR F.ZW_PAIR_FILT_US 5) 0 0 4 ⟨0, none, 0, 0⟩ [] 25 = true ∧
    hypZwidyRolesAndOwnershipMove (State.reset.setFld Reg.ZW_PAIR F.ZW_PAIR_RATE_LIM 5) 0 0 5 ⟨0, none, 0, 0⟩ [] 26 = true ∧
    hypZwidyRolesAndOwnershipMove (State.reset.setFld Reg.ZW_PAIR F.ZW_PAIR_RATE_LIM 5) 0 0 6 ⟨0, none, 0, 0⟩ [] 27 = true ∧
    hypZwidyRolesAndOwnershipMove (State.reset.setFlag Reg.ZW_PAIR F.ZW_PAIR_STUCK true) 0 0 0 ⟨0, none, 0, 0⟩ [] 28 = true ∧
    hypZwidyRolesAndOwnershipMove ((State.reset.setFld Reg.ZW_ROLE F.ZW_ROLE_ROLE 0).setFld Reg.ZW_CTRL F.ZW_CTRL_PORTS 3) 0 0 0 ⟨0, none, 0, 0⟩ (((State.reset.setFld Reg.SAL_CTRL F.SAL_CTRL_CAB 2).demandPayload 5000000 [0x80000007, 9, 0, 0, 0, 0, 0, 0])) 29 = true := by
  and_intros <;> decide +kernel

/-- The hypotheses of LegalClockTakesWritesOfSlotEightOnly, clause by clause. -/
def hypLegalClockTakesWritesOfSlotEightOnly (s : State) (slot : Fin 19) (clause : Nat) : Bool :=
  let served := fun (k : Nat) => ∀ r ∈ [Reg.TB_CFG 3, Reg.TB_RATE 3, Reg.TB_STEP_S 3, Reg.TB_STEP_NS 3, Reg.TB_STEP_SH 3, Reg.TB_STEP_CMD 3], s.goesAtOnce k (BitVec.ofNat 32 r) 4 = true
  match clause with
  | 1 => decide ((s.acts .time ∧ s.acts .fabric ∧ s.fabric.closed = false) ∧ (slot.val ≠ 8))
  | 2 => decide ((s.acts .time ∧ s.acts .fabric ∧ s.fabric.closed = false) ∧ (slot.val ≠ 8 ∧ served slot.val))
  | 3 => decide ((s.acts .time ∧ s.acts .fabric ∧ s.fabric.closed = false))
  | _ => decide ((s.acts .time ∧ s.acts .fabric ∧ s.fabric.closed = false) ∧ (served 8))
theorem test_meets_LegalClockTakesWritesOfSlotEightOnly :
    hypLegalClockTakesWritesOfSlotEightOnly State.reset 6 1 = true ∧
    hypLegalClockTakesWritesOfSlotEightOnly State.reset 6 2 = true ∧
    hypLegalClockTakesWritesOfSlotEightOnly State.reset 0 3 = true ∧
    hypLegalClockTakesWritesOfSlotEightOnly State.reset 0 4 = true := by
  and_intros <;> decide +kernel

/-- The hypotheses of TimeBasesFollowTheirSources, clause by clause. -/
def hypTimeBasesFollowTheirSources (s : State) (n : Fin 4) (slot : Fin 19) (v : Word) (p : TbStep) (q : Int) (rest : List Int) (u : Nat) (clause : Nat) : Bool :=
  let b := s.tb n.val
  let may := n.val ≠ 3 ∨ slot.val = 8
  let st := s.tbState n.val
  let own := b.src = .soft ∨ b.src = .ptp ∨ b.src = .can
  let fed := b.src = .ptp ∨ b.src = .can
  let ns := s.fld (Reg.TB_STEP_NS n.val) F.TB_STEP_NS_VAL
  let src := F.TB_CFG_SRC.get v
  let f := F.TB_CFG_FOLLOW.get v
  let lim := s.fld (Reg.TB_LOCK n.val) F.TB_LOCK_LOCK_NS
  let cnt := s.fld (Reg.TB_LOCK n.val) F.TB_LOCK_LOCK_N
  let us := s.fld (Reg.TB_CFG n.val) F.TB_CFG_STEP_US
  let servo := s.flag (Reg.TB_CFG n.val) F.TB_CFG_SERVO_EN
  let tus := s.tbInterval n.val / ticksPerUs
  let taken := (s.tb 0).src = .ptp ∧ n.val ≠ 0 ∨ (s.tb 1).src = .ptp ∧ n.val ≠ 1 ∨ (s.tb 2).src = .ptp ∧ n.val ≠ 2 ∨ (s.tb 3).src = .ptp ∧ n.val ≠ 3
  match clause with
  | 1 => decide ((s.acts .time) ∧ (may ∧ own))
  | 2 => decide ((s.acts .time) ∧ (may ∧ ns < 1000000000))
  | 3 => decide ((s.acts .time) ∧ (may ∧ 1000000000 ≤ ns))
  | 4 => decide ((s.acts .time) ∧ (b.step = some p))
  | 5 => decide ((s.acts .time) ∧ (may ∧ src = 0))
  | 6 => decide ((s.acts .time) ∧ (may ∧ src = 1 ∧ ¬taken))
  | 7 => decide ((s.acts .time) ∧ (may ∧ src = 1 ∧ taken))
  | 8 => decide ((s.acts .time) ∧ (may ∧ src = 2 ∧ f ≠ n.val ∧ s.fld (Reg.TB_CFG f) F.TB_CFG_SRC ≠ 2 ∧ b.src ≠ .follow f))
  | 9 => decide ((s.acts .time) ∧ (may ∧ src = 2 ∧ (f = n.val ∨ s.fld (Reg.TB_CFG f) F.TB_CFG_SRC = 2)))
  | 10 => decide ((s.acts .time) ∧ (may ∧ src = 3))
  | 11 => decide ((s.acts .time) ∧ (may ∧ 3 < src))
  | 12 => decide ((s.acts .time) ∧ (may ∧ src ≠ s.fld (Reg.TB_CFG n.val) F.TB_CFG_SRC))
  | 13 => decide ((s.acts .time) ∧ (b.theta = q :: rest ∧ fed))
  | 14 => decide ((s.acts .time) ∧ (b.theta = q :: rest ∧ fed ∧ (st = 0 ∨ st = 3 ∨ st = 4) ∧ 2 ≤ cnt))
  | 15 => decide ((s.acts .time) ∧ (b.theta = q :: rest ∧ fed ∧ st = 2 ∧ lim ≤ q.natAbs ∧ 1 ≤ cnt))
  | 16 => decide ((s.acts .time) ∧ (b.theta = q :: rest ∧ fed ∧ st = 1 ∧ q.natAbs < lim ∧ cnt ≤ b.lockCnt + 1))
  | 17 => decide ((s.acts .time) ∧ (b.theta = q :: rest ∧ fed ∧ servo = true ∧ us ≠ 0 ∧ us * 1000 ≤ q.natAbs))
  | 18 => decide ((s.acts .time) ∧ (b.theta = q :: rest ∧ fed ∧ servo = true ∧ q.natAbs < us * 1000 ∧ tus ≠ 0 ∧ st ≠ 0 ∧ -1000000000 ≤ b.rate0 - 100000000 ∧ b.rate0 + 100000000 ≤ 1000000000))
  | 19 => decide ((s.acts .time) ∧ (b.theta = q :: rest ∧ fed ∧ servo = false))
  | 20 => decide ((s.acts .time) ∧ (fed ∧ (st = 1 ∨ st = 2) ∧ b.lastOff + (if s.fld (Reg.TB_CFG n.val) F.TB_CFG_HOLD_TMO = 0 then 1 else s.fld (Reg.TB_CFG n.val) F.TB_CFG_HOLD_TMO) * s.tbInterval n.val ≤ s.now))
  | 21 => decide ((s.acts .time) ∧ (st = 3 ∧ b.holdAt = some u ∧ s.fld (Reg.TB_HOLD n.val) F.TB_HOLD_HOLD_S ≠ 0 ∧ u + s.fld (Reg.TB_HOLD n.val) F.TB_HOLD_HOLD_S * ticksPerS ≤ s.now))
  | _ => decide ((s.acts .time))
theorem test_meets_TimeBasesFollowTheirSources :
    hypTimeBasesFollowTheirSources State.reset 0 0 0xFFFFFFFF ⟨false, 0, 0⟩ 0 [] 0 1 = true ∧
    hypTimeBasesFollowTheirSources (wNow 12345 State.reset) 0 0 1000000001 ⟨false, 0, 0⟩ 0 [] 0 1 = true ∧
    hypTimeBasesFollowTheirSources (State.reset.wr (Reg.TB_STEP_S 2) 0xFFFFFFFF) 2 0 0 ⟨false, 0, 0⟩ 0 [] 0 2 = true ∧
    hypTimeBasesFollowTheirSources (State.reset.wr (Reg.TB_STEP_NS 2) 1000000000) 2 0 0 ⟨false, 0, 0⟩ 0 [] 0 3 = true ∧
    hypTimeBasesFollowTheirSources ((State.reset.setTb 0 { TimeBase.initial 0 with step := some ⟨false, -5, 0⟩ }).setNow 16000) 0 0 0 ⟨false, -5, 0⟩ 0 [] 0 4 = true ∧
    hypTimeBasesFollowTheirSources ((State.reset.setTb 0 { TimeBase.initial 0 with step := some ⟨true, 5000000000, 0⟩ }).setNow 16000) 0 0 0 ⟨true, 5000000000, 0⟩ 0 [] 0 4 = true ∧
    hypTimeBasesFollowTheirSources State.reset 0 0 0xFFFFFFF8 ⟨false, 0, 0⟩ 0 [] 0 5 = true ∧
    hypTimeBasesFollowTheirSources State.reset 0 0 1 ⟨false, 0, 0⟩ 0 [] 0 6 = true ∧
    hypTimeBasesFollowTheirSources State.reset 2 0 1 ⟨false, 0, 0⟩ 0 [] 0 7 = true ∧
    hypTimeBasesFollowTheirSources State.reset 2 0 2 ⟨false, 0, 0⟩ 0 [] 0 8 = true ∧
    hypTimeBasesFollowTheirSources State.reset 2 0 0x12 ⟨false, 0, 0⟩ 0 [] 0 9 = true ∧
    hypTimeBasesFollowTheirSources State.reset 2 0 0x22 ⟨false, 0, 0⟩ 0 [] 0 9 = true ∧
    hypTimeBasesFollowTheirSources State.reset 2 0 3 ⟨false, 0, 0⟩ 0 [] 0 10 = true ∧
    hypTimeBasesFollowTheirSources State.reset 2 0 4 ⟨false, 0, 0⟩ 0 [] 0 11 = true ∧
    hypTimeBasesFollowTheirSources (State.reset.setFld (Reg.TB_STATE 2) F.TB_STATE_ST 2) 2 0 3 ⟨false, 0, 0⟩ 0 [] 0 12 = true ∧
    hypTimeBasesFollowTheirSources (State.reset.setTb 0 { TimeBase.initial 0 with theta := [-7, 3] }) 0 0 0 ⟨false, 0, 0⟩ (-7) [3] 0 13 = true ∧
    hypTimeBasesFollowTheirSources (State.reset.setTb 0 { TimeBase.initial 0 with theta := [-7, 3] }) 0 0 0 ⟨false, 0, 0⟩ (-7) [3] 0 14 = true ∧
    hypTimeBasesFollowTheirSources ((State.reset.setTb 0 { TimeBase.initial 0 with theta := [100] }).setFld (Reg.TB_STATE 0) F.TB_STATE_ST 2) 0 0 0 ⟨false, 0, 0⟩ 100 [] 0 15 = true ∧
    hypTimeBasesFollowTheirSources ((State.reset.setTb 0 { TimeBase.initial 0 with theta := [-99], lockCnt := 7 }).setFld (Reg.TB_STATE 0) F.TB_STATE_ST 1) 0 0 0 ⟨false, 0, 0⟩ (-99) [] 0 16 = true ∧
    hypTimeBasesFollowTheirSources (State.reset.setTb 0 { TimeBase.initial 0 with theta := [-1000] }) 0 0 0 ⟨false, 0, 0⟩ (-1000) [] 0 17 = true ∧
    hypTimeBasesFollowTheirSources ((State.reset.setTb 0 { TimeBase.initial 0 with theta := [-999], integ := 5 }).setFld (Reg.TB_STATE 0) F.TB_STATE_ST 1) 0 0 0 ⟨false, 0, 0⟩ (-999) [] 0 18 = true ∧
    hypTimeBasesFollowTheirSources ((State.reset.setTb 0 { TimeBase.initial 0 with theta := [-999], integ := 5 }).setFlag (Reg.TB_CFG 0) F.TB_CFG_SERVO_EN false) 0 0 0 ⟨false, 0, 0⟩ (-999) [] 0 19 = true ∧
    hypTimeBasesFollowTheirSources (((State.reset).setFld (Reg.TB_STATE 0) F.TB_STATE_ST 2).setNow 48000000000) 0 0 0 ⟨false, 0, 0⟩ 0 [] 0 20 = true ∧
    hypTimeBasesFollowTheirSources (((State.reset.setTb 0 { TimeBase.initial 0 with holdAt := some 0 }).setFld (Reg.TB_STATE 0) F.TB_STATE_ST 3).setNow 320000000000) 0 0 0 ⟨false, 0, 0⟩ 0 [] 0 21 = true ∧
    hypTimeBasesFollowTheirSources (wNow 32000000123 State.reset) 0 0 0 ⟨false, 0, 0⟩ 0 [] 0 22 = true := by
  and_intros <;> decide +kernel

/-- The hypotheses of TimedOutputsAndCapturesAct, clause by clause. -/
def hypTimedOutputsAndCapturesAct (s : State) (k : Fin 8) (data : Word) (rising : Bool) (e : EdgeWait) (z : Stamp) (rest : List Stamp) (u : Nat) (clause : Nat) : Bool :=
  let x := s.tout k.val
  let y := s.tcap k.val
  let tbn := F.TOUT_CFG_TB.get data
  let now := s.tbNs tbn
  let sec := s.tbSec tbn / 2 ^ 32 * 2 ^ 32 + (s.rd (Reg.TOUT_START_S k.val)).toNat
  let start := sec * 1000000000 + (s.rd (Reg.TOUT_START_NS k.val)).toNat
  let per := (s.rd (Reg.TOUT_PERIOD k.val)).toNat
  let on := s.flag (Reg.TCAP_CFG k.val) F.TCAP_CFG_EN = true ∧ s.flag (Reg.TCAP_STAT k.val) F.TCAP_STAT_STUCK = false
  let filt := if s.fld (Reg.TCAP_CFG k.val) F.TCAP_CFG_FILT = 0 then 1 else s.fld (Reg.TCAP_CFG k.val) F.TCAP_CFG_FILT
  let due := on ∧ y.edge = some e ∧ e.since + filt * 128 ≤ s.now
  let lim := s.fld (Reg.TCAP_CFG k.val) F.TCAP_CFG_RATE_LIM
  let many := (y.edges.filter (fun u => s.now < u + ticksPerMs)).length
  let sel := bitOf (s.fld (Reg.TCAP_CFG k.val) F.TCAP_CFG_EDGE) (if e.rising then 0 else 1)
  match clause with
  | 1 => decide ((s.acts .time) ∧ (F.TOUT_CFG_PER.get data = 0 ∧ now ≤ start))
  | 2 => decide ((s.acts .time) ∧ (F.TOUT_CFG_PER.get data = 0 ∧ start < now))
  | 3 => decide ((s.acts .time) ∧ (F.TOUT_CFG_PER.get data = 1 ∧ 100 ≤ per ∧ start < now))
  | 4 => decide ((s.acts .time) ∧ (F.TOUT_CFG_PER.get data = 1 ∧ 100 ≤ per ∧ now ≤ start))
  | 5 => decide ((s.acts .time))
  | 6 => decide ((s.acts .time) ∧ (s.toutArmed k.val = true ∧ x.next = some u ∧ u ≤ s.tbNs (s.toutTb k.val)))
  | 7 => decide ((s.acts .time) ∧ (x.next = some u ∧ s.tbNs (s.toutTb k.val) < u))
  | 8 => decide ((s.acts .time) ∧ (x.off = some u ∧ u ≤ s.tbNs (s.toutTb k.val)))
  | 9 => decide ((s.acts .time) ∧ (x.off = some u ∧ s.tbNs (s.toutTb k.val) < u))
  | 10 => decide ((s.acts .time) ∧ (on ∧ rising ≠ y.level))
  | 11 => decide ((s.acts .time) ∧ (on ∧ rising = y.level))
  | 12 => decide ((s.acts .time) ∧ (¬on))
  | 13 => decide ((s.acts .time) ∧ (¬on ∧ y.edge = some e))
  | 14 => decide ((s.acts .time) ∧ (due ∧ sel = true ∧ y.fifo.length < 4 ∧ (lim = 0 ∨ many < lim)))
  | 15 => decide ((s.acts .time) ∧ (due ∧ sel = true ∧ 4 ≤ y.fifo.length ∧ (lim = 0 ∨ many < lim)))
  | 16 => decide ((s.acts .time) ∧ (due ∧ sel = false ∧ lim ≠ 0 ∧ lim ≤ many))
  | 17 => decide ((s.acts .time) ∧ (on ∧ y.edge = some e ∧ s.now < e.since + filt * 128))
  | _ => decide ((s.acts .time) ∧ (y.fifo = z :: rest))
theorem test_meets_TimedOutputsAndCapturesAct :
    hypTimedOutputsAndCapturesAct (State.reset.wr (Reg.TOUT_START_NS 3) 500) 3 0 false ⟨false, 0, false⟩ ⟨0, false, false, 0⟩ [] 0 1 = true ∧
    hypTimedOutputsAndCapturesAct ((State.reset.wr (Reg.TOUT_START_NS 3) 500).setNow 16000) 3 0 false ⟨false, 0, false⟩ ⟨0, false, false, 0⟩ [] 0 2 = true ∧
    hypTimedOutputsAndCapturesAct ((((State.reset).wr (Reg.TOUT_PERIOD 3) 300).wr (Reg.TOUT_WIDTH 3) 300).setNow 16000) 3 0x40000000 false ⟨false, 0, false⟩ ⟨0, false, false, 0⟩ [] 0 3 = true ∧
    hypTimedOutputsAndCapturesAct ((State.reset.wr (Reg.TOUT_PERIOD 3) 100).setNow 16000) 3 0x40000000 false ⟨false, 0, false⟩ ⟨0, false, false, 0⟩ [] 0 3 = true ∧
    hypTimedOutputsAndCapturesAct (State.reset.wr (Reg.TOUT_PERIOD 3) 100) 3 0x40000000 false ⟨false, 0, false⟩ ⟨0, false, false, 0⟩ [] 0 4 = true ∧
    hypTimedOutputsAndCapturesAct (State.reset.setTout 3 { Tout.reset with active := true }) 3 0xFFFFFFFF false ⟨false, 0, false⟩ ⟨0, false, false, 0⟩ [] 0 5 = true ∧
    hypTimedOutputsAndCapturesAct ((State.reset.setTout 3 { Tout.reset with next := some 0, width := 9 }).setFlag (Reg.TOUT_CFG 3) F.TOUT_CFG_EN true) 3 0 false ⟨false, 0, false⟩ ⟨0, false, false, 0⟩ [] 0 6 = true ∧
    hypTimedOutputsAndCapturesAct (State.reset.setTout 3 { Tout.reset with next := some 1 }) 3 0 false ⟨false, 0, false⟩ ⟨0, false, false, 0⟩ [] 1 7 = true ∧
    hypTimedOutputsAndCapturesAct (State.reset.setTout 3 { Tout.reset with off := some 0, active := true }) 3 0 false ⟨false, 0, false⟩ ⟨0, false, false, 0⟩ [] 0 8 = true ∧
    hypTimedOutputsAndCapturesAct (State.reset.setTout 3 { Tout.reset with off := some 1, active := true }) 3 0 false ⟨false, 0, false⟩ ⟨0, false, false, 0⟩ [] 1 9 = true ∧
    hypTimedOutputsAndCapturesAct (State.reset.setFlag (Reg.TCAP_CFG 3) F.TCAP_CFG_EN true) 3 0 true ⟨false, 0, false⟩ ⟨0, false, false, 0⟩ [] 0 10 = true ∧
    hypTimedOutputsAndCapturesAct ((State.reset.setTcap 3 { Tcap.reset with edge := some ⟨true, 0, false⟩ }).setFlag (Reg.TCAP_CFG 3) F.TCAP_CFG_EN true) 3 0 false ⟨false, 0, false⟩ ⟨0, false, false, 0⟩ [] 0 11 = true ∧
    hypTimedOutputsAndCapturesAct (State.reset.setTcap 3 { Tcap.reset with edge := some ⟨true, 0, false⟩ }) 3 0 true ⟨false, 0, false⟩ ⟨0, false, false, 0⟩ [] 0 12 = true ∧
    hypTimedOutputsAndCapturesAct (State.reset.setTcap 3 { Tcap.reset with edge := some ⟨true, 0, false⟩ }) 3 0 false ⟨true, 0, false⟩ ⟨0, false, false, 0⟩ [] 0 13 = true ∧
    hypTimedOutputsAndCapturesAct ((wNow 16000 (State.reset.setTcap 3 { Tcap.reset with edge := some ⟨true, 0, false⟩ })).setFlag (Reg.TCAP_CFG 3) F.TCAP_CFG_EN true) 3 0 false ⟨true, 0, false⟩ ⟨0, false, false, 0⟩ [] 0 14 = true ∧
    hypTimedOutputsAndCapturesAct ((wNow 16000 (State.reset.setTcap 3 { Tcap.reset with edge := some ⟨true, 0, false⟩, fifo := List.replicate 4 ⟨0, true, false, 0⟩ })).setFlag (Reg.TCAP_CFG 3) F.TCAP_CFG_EN true) 3 0 false ⟨true, 0, false⟩ ⟨0, false, false, 0⟩ [] 0 15 = true ∧
    hypTimedOutputsAndCapturesAct (((wNow 16000 (State.reset.setTcap 3 { Tcap.reset with edge := some ⟨false, 0, false⟩, edges := [5, 4] })).setFld (Reg.TCAP_CFG 3) F.TCAP_CFG_RATE_LIM 2).setFlag (Reg.TCAP_CFG 3) F.TCAP_CFG_EN true) 3 0 false ⟨false, 0, false⟩ ⟨0, false, false, 0⟩ [] 0 16 = true ∧
    hypTimedOutputsAndCapturesAct ((State.reset.setTcap 3 { Tcap.reset with edge := some ⟨false, 0, false⟩ }).setFlag (Reg.TCAP_CFG 3) F.TCAP_CFG_EN true) 3 0 false ⟨false, 0, false⟩ ⟨0, false, false, 0⟩ [] 0 17 = true ∧
    hypTimedOutputsAndCapturesAct (State.reset.setTcap 3 { Tcap.reset with fifo := [⟨7 * tbSecond + 524297, true, true, 0⟩] }) 3 0 false ⟨false, 0, false⟩ ⟨7 * tbSecond + 524297, true, true, 0⟩ [] 0 18 = true := by
  and_intros <;> decide +kernel

/-- The hypotheses of PtpPortsMeasureAndCorrect, clause by clause. -/
def hypPtpPortsMeasureAndCorrect (s : State) (p : Fin 2) (msg : PtpMsg) (y : PtpSeen) (z : TxStamp) (rest : List TxStamp) (e : TcSync) (n : Fin 4) (d : Int) (clause : Nat) : Bool :=
  let x := s.ptpPort p.val
  let port := s.portState p.val
  let one := s.oneStep
  let mine := s.ptpMine msg = true
  let tc := s.flag Reg.PTP_CTRL F.PTP_CTRL_TC_EN
  let old := fun (e : TcSync) => decide (e.at_ + 100 * ticksPerMs < s.now)
  match clause with
  | 1 => decide ((s.acts .ethernet) ∧ (msg.kind = 0 ∧ mine ∧ port = 2 ∧ msg.twoStep = false ∧ tc = false ∧ (s.tb n.val).src = .ptp))
  | 2 => decide ((s.acts .ethernet) ∧ (msg.kind = 0 ∧ mine ∧ port = 2 ∧ msg.twoStep = true ∧ tc = false))
  | 3 => decide ((s.acts .ethernet) ∧ (msg.kind = 8 ∧ mine ∧ port = 2 ∧ x.sync = some y ∧ y.seq = msg.seq.toNat ∧ tc = false ∧ (s.tb n.val).src = .ptp))
  | 4 => decide ((s.acts .ethernet) ∧ (msg.kind = 2 ∧ mine ∧ port ≠ 0 ∧ x.failed = false))
  | 5 => decide ((s.acts .ethernet) ∧ (msg.kind = 3 ∧ mine ∧ port ≠ 0 ∧ x.req = some y ∧ y.seq = msg.seq.toNat ∧ msg.twoStep = false))
  | 6 => decide ((s.acts .ethernet) ∧ (msg.kind = 10 ∧ mine ∧ port ≠ 0 ∧ x.resp = some y ∧ y.seq = msg.seq.toNat))
  | 7 => decide ((s.acts .ethernet) ∧ (port = 3 ∧ x.failed = false ∧ x.syncAt = none ∧ one = true))
  | 8 => decide ((s.acts .ethernet) ∧ (port = 3 ∧ x.failed = false ∧ x.syncAt = none ∧ one = false ∧ x.fifo.length < 16))
  | 9 => decide ((s.acts .ethernet) ∧ (port = 3 ∧ x.failed = false ∧ x.syncAt = none ∧ one = false ∧ 16 ≤ x.fifo.length))
  | 10 => decide ((s.acts .ethernet) ∧ (port ≠ 3 ∨ x.failed = true))
  | 11 => decide ((s.acts .ethernet) ∧ (port ≠ 0 ∧ x.failed = false ∧ x.pdAt = none ∧ s.e2e = false ∧ one = true))
  | 12 => decide ((s.acts .ethernet) ∧ (port = 2 ∧ x.failed = false ∧ x.pdAt = none ∧ s.e2e = true ∧ one = true))
  | 13 => decide ((s.acts .ethernet) ∧ (msg.kind = 1 ∧ mine ∧ s.e2e = true ∧ port = 3 ∧ x.failed = false))
  | 14 => decide ((s.acts .ethernet) ∧ (msg.kind = 9 ∧ mine ∧ s.e2e = true ∧ port = 2 ∧ x.req = some y ∧ y.seq = msg.seq.toNat ∧ x.path = some d))
  | 15 => decide ((s.acts .ethernet) ∧ (msg.kind = 1 ∧ tc = true ∧ (s.ptpPort (1 - p.val)).failed = false))
  | 16 => decide ((s.acts .ethernet) ∧ (msg.kind = 0 ∧ tc = true ∧ (s.ptpPort (1 - p.val)).failed = false ∧ ¬mine ∧ one = false))
  | 17 => decide ((s.acts .ethernet) ∧ (msg.kind = 8 ∧ tc = true ∧ ¬mine ∧ s.time.tc = [e] ∧ e.port = p.val ∧ e.seq = msg.seq.toNat ∧ old e = false))
  | 18 => decide ((s.acts .ethernet) ∧ (msg.kind = 8 ∧ tc = true ∧ ¬mine ∧ s.time.tc = [e] ∧ e.port = p.val ∧ e.seq = msg.seq.toNat ∧ old e = true))
  | 19 => decide ((s.acts .ethernet))
  | 20 => decide ((s.acts .ethernet) ∧ (x.fifo = z :: rest))
  | 21 => decide ((s.acts .ethernet))
  | _ => decide ((s.acts .ethernet))
theorem test_meets_PtpPortsMeasureAndCorrect :
    hypPtpPortsMeasureAndCorrect ((((State.reset).setFld (Reg.PTP_PORT 0) F.PTP_PORT_STATE 2).wr (Reg.PTP_PDELAY 0) 65536).setNow 160000) 0 ⟨0, 0, 7, false, 65536, 0, 1000⟩ ⟨0, 0, 0⟩ ⟨0, 0, 0, 0, 0⟩ [] ⟨0, 0, 0, 0⟩ 0 0 1 = true ∧
    hypPtpPortsMeasureAndCorrect ((State.reset).setFld (Reg.PTP_PORT 0) F.PTP_PORT_STATE 2) 0 ⟨0, 0, 7, true, 65536, 0, 1000⟩ ⟨0, 0, 0⟩ ⟨0, 0, 0, 0, 0⟩ [] ⟨0, 0, 0, 0⟩ 0 0 2 = true ∧
    hypPtpPortsMeasureAndCorrect ((State.reset.setPtpPort 0 { PtpPort.reset with sync := some ⟨7, 999, 5⟩ }).setFld (Reg.PTP_PORT 0) F.PTP_PORT_STATE 2) 0 ⟨8, 0, 7, false, 0, 0, 1000⟩ ⟨7, 999, 5⟩ ⟨0, 0, 0, 0, 0⟩ [] ⟨0, 0, 0, 0⟩ 0 0 3 = true ∧
    hypPtpPortsMeasureAndCorrect (((State.reset).setFld (Reg.PTP_PORT 0) F.PTP_PORT_STATE 1).setFlag Reg.PTP_CTRL F.PTP_CTRL_ONE_STEP true) 0 ⟨2, 0, 7, false, 0, 0, 1000⟩ ⟨0, 0, 0⟩ ⟨0, 0, 0, 0, 0⟩ [] ⟨0, 0, 0, 0⟩ 0 0 4 = true ∧
    hypPtpPortsMeasureAndCorrect (((State.reset).setFld (Reg.PTP_PORT 0) F.PTP_PORT_STATE 1).setNow 16000) 0 ⟨2, 0, 7, false, 0, 0, 1000⟩ ⟨0, 0, 0⟩ ⟨0, 0, 0, 0, 0⟩ [] ⟨0, 0, 0, 0⟩ 0 0 4 = true ∧
    hypPtpPortsMeasureAndCorrect (((State.reset.setPtpPort 0 { PtpPort.reset with req := some ⟨7, 0, 0⟩ }).setFld (Reg.PTP_PORT 0) F.PTP_PORT_STATE 1).setNow 16000) 0 ⟨3, 0, 7, false, 0, 0, 0⟩ ⟨7, 0, 0⟩ ⟨0, 0, 0, 0, 0⟩ [] ⟨0, 0, 0, 0⟩ 0 0 5 = true ∧
    hypPtpPortsMeasureAndCorrect (((State.reset.setPtpPort 0 { PtpPort.reset with resp := some ⟨7, 65536000, 0⟩ }).setFld (Reg.PTP_PORT 0) F.PTP_PORT_STATE 1).setNow 16000) 0 ⟨10, 0, 7, false, 0, 0, 500⟩ ⟨7, 65536000, 0⟩ ⟨0, 0, 0, 0, 0⟩ [] ⟨0, 0, 0, 0⟩ 0 0 6 = true ∧
    hypPtpPortsMeasureAndCorrect ((((State.reset).setFld (Reg.PTP_PORT 0) F.PTP_PORT_STATE 3).setFlag Reg.PTP_CTRL F.PTP_CTRL_ONE_STEP true).setNow 16000) 0 ⟨0, 0, 0, false, 0, 0, 0⟩ ⟨0, 0, 0⟩ ⟨0, 0, 0, 0, 0⟩ [] ⟨0, 0, 0, 0⟩ 0 0 7 = true ∧
    hypPtpPortsMeasureAndCorrect (((State.reset).setFld (Reg.PTP_PORT 0) F.PTP_PORT_STATE 3).setNow 16000) 0 ⟨0, 0, 0, false, 0, 0, 0⟩ ⟨0, 0, 0⟩ ⟨0, 0, 0, 0, 0⟩ [] ⟨0, 0, 0, 0⟩ 0 0 8 = true ∧
    hypPtpPortsMeasureAndCorrect ((State.reset.setPtpPort 0 { PtpPort.reset with fifo := List.replicate 16 ⟨0, 0, 0, 0, 0⟩ }).setFld (Reg.PTP_PORT 0) F.PTP_PORT_STATE 3) 0 ⟨0, 0, 0, false, 0, 0, 0⟩ ⟨0, 0, 0⟩ ⟨0, 0, 0, 0, 0⟩ [] ⟨0, 0, 0, 0⟩ 0 0 9 = true ∧
    hypPtpPortsMeasureAndCorrect ((State.reset.setPtpPort 0 { PtpPort.reset with failed := true }).setFld (Reg.PTP_PORT 0) F.PTP_PORT_STATE 3) 0 ⟨0, 0, 0, false, 0, 0, 0⟩ ⟨0, 0, 0⟩ ⟨0, 0, 0, 0, 0⟩ [] ⟨0, 0, 0, 0⟩ 0 0 10 = true ∧
    hypPtpPortsMeasureAndCorrect State.reset 0 ⟨0, 0, 0, false, 0, 0, 0⟩ ⟨0, 0, 0⟩ ⟨0, 0, 0, 0, 0⟩ [] ⟨0, 0, 0, 0⟩ 0 0 10 = true ∧
    hypPtpPortsMeasureAndCorrect ((((State.reset).setFld (Reg.PTP_PORT 0) F.PTP_PORT_STATE 1).setFlag Reg.PTP_CTRL F.PTP_CTRL_ONE_STEP true).setNow 16000) 0 ⟨0, 0, 0, false, 0, 0, 0⟩ ⟨0, 0, 0⟩ ⟨0, 0, 0, 0, 0⟩ [] ⟨0, 0, 0, 0⟩ 0 0 11 = true ∧
    hypPtpPortsMeasureAndCorrect (((((State.reset).setFld (Reg.PTP_PORT 0) F.PTP_PORT_STATE 2).setFlag Reg.PTP_CTRL F.PTP_CTRL_ONE_STEP true).setFlag Reg.PTP_CTRL F.PTP_CTRL_E2E true).setNow 16000) 0 ⟨0, 0, 0, false, 0, 0, 0⟩ ⟨0, 0, 0⟩ ⟨0, 0, 0, 0, 0⟩ [] ⟨0, 0, 0, 0⟩ 0 0 12 = true ∧
    hypPtpPortsMeasureAndCorrect ((((State.reset).setFld (Reg.PTP_PORT 0) F.PTP_PORT_STATE 3).setFlag Reg.PTP_CTRL F.PTP_CTRL_E2E true).setNow 16000) 0 ⟨1, 0, 7, false, 5, 0, 0⟩ ⟨0, 0, 0⟩ ⟨0, 0, 0, 0, 0⟩ [] ⟨0, 0, 0, 0⟩ 0 0 13 = true ∧
    hypPtpPortsMeasureAndCorrect (((State.reset.setPtpPort 0 { PtpPort.reset with req := some ⟨7, 900, 0⟩, path := some 77 }).setFld (Reg.PTP_PORT 0) F.PTP_PORT_STATE 2).setFlag Reg.PTP_CTRL F.PTP_CTRL_E2E true) 0 ⟨9, 0, 7, false, 5, 0, 1000⟩ ⟨7, 900, 0⟩ ⟨0, 0, 0, 0, 0⟩ [] ⟨0, 0, 0, 0⟩ 0 77 14 = true ∧
    hypPtpPortsMeasureAndCorrect ((State.reset).setFlag Reg.PTP_CTRL F.PTP_CTRL_TC_EN true) 0 ⟨1, 5, 7, true, 0, 0, 0⟩ ⟨0, 0, 0⟩ ⟨0, 0, 0, 0, 0⟩ [] ⟨0, 0, 0, 0⟩ 0 0 15 = true ∧
    hypPtpPortsMeasureAndCorrect ((State.reset).setFlag Reg.PTP_CTRL F.PTP_CTRL_TC_EN true) 0 ⟨0, 5, 7, true, 0, 0, 0⟩ ⟨0, 0, 0⟩ ⟨0, 0, 0, 0, 0⟩ [] ⟨0, 0, 0, 0⟩ 0 0 16 = true ∧
    hypPtpPortsMeasureAndCorrect (((State.reset).setFlag Reg.PTP_CTRL F.PTP_CTRL_TC_EN true).setTime { Time.reset with tc := [⟨0, 7, 55, 0⟩] }) 0 ⟨8, 5, 7, true, 0, 0, 0⟩ ⟨0, 0, 0⟩ ⟨0, 0, 0, 0, 0⟩ [] ⟨0, 7, 55, 0⟩ 0 0 17 = true ∧
    hypPtpPortsMeasureAndCorrect ((((State.reset).setFlag Reg.PTP_CTRL F.PTP_CTRL_TC_EN true).setTime { Time.reset with tc := [⟨0, 7, 55, 0⟩] }).setNow 1600000001) 0 ⟨8, 5, 7, true, 0, 0, 0⟩ ⟨0, 0, 0⟩ ⟨0, 0, 0, 0, 0⟩ [] ⟨0, 7, 55, 0⟩ 0 0 18 = true ∧
    hypPtpPortsMeasureAndCorrect (((State.reset).setTime { Time.reset with tc := [⟨0, 7, 55, 0⟩, ⟨0, 7, 55, 9⟩] }).setNow 1600000001) 0 ⟨0, 0, 0, false, 0, 0, 0⟩ ⟨0, 0, 0⟩ ⟨0, 0, 0, 0, 0⟩ [] ⟨0, 0, 0, 0⟩ 0 0 19 = true ∧
    hypPtpPortsMeasureAndCorrect (State.reset.setPtpPort 0 { PtpPort.reset with fifo := [⟨1, 2, 3, 4, 5⟩] }) 0 ⟨0, 0, 0, false, 0, 0, 0⟩ ⟨0, 0, 0⟩ ⟨1, 2, 3, 4, 5⟩ [] ⟨0, 0, 0, 0⟩ 0 0 20 = true ∧
    hypPtpPortsMeasureAndCorrect (State.reset.setPtpPort 0 { PtpPort.reset with failed := true }) 0 ⟨0, 0, 0, false, 0, 0, 0⟩ ⟨0, 0, 0⟩ ⟨0, 0, 0, 0, 0⟩ [] ⟨0, 0, 0, 0⟩ 0 0 21 = true ∧
    hypPtpPortsMeasureAndCorrect State.reset 1 ⟨0, 0, 0, false, 0, 0, 0⟩ ⟨0, 0, 0⟩ ⟨0, 0, 0, 0, 0⟩ [] ⟨0, 0, 0, 0⟩ 0 0 22 = true := by
  and_intros <;> decide +kernel

/-- The hypotheses of GridMeasuresRespondsAndRecords, clause by clause. -/
def hypGridMeasuresRespondsAndRecords (s : State) (n : Fin 8) (sec : Word) (k : BitVec 7) (f20 : BitVec 20) (valid : BitVec 8) (each : BitVec 160) (clause : Nat) : Bool :=
  let on := s.grdOn = true
  let fs := s.fld Reg.GRD_CTRL F.GRD_CTRL_RATE
  let wr := s.fld Reg.GRD_RING F.GRD_RING_WR
  let rd := s.fld Reg.GRD_RING F.GRD_RING_RD
  let len := if s.fld Reg.GRD_RING F.GRD_RING_LEN = 0 then 1 else s.fld Reg.GRD_RING F.GRD_RING_LEN
  let a := (s.rd Reg.GRD_RING_BASE).toNat / 128 * 128 + 128 * wr
  let next := (wr + 1) % len
  let tagged := k.toNat < fs ∧ s.tagOk256 sec.toNat k.toNat fs = true
  let writes := on ∧ s.grid.stopped = false ∧ s.dmaRoom 16 = true ∧ s.rateOk = true ∧ tagged ∧ sramRange a 108 = true ∧ s.sramSound
  let upd := on ∧ s.grid.ms ≠ some (s.tbNs 0 / 1000000) ∧ valid = 0xFF ∧ s.fld Reg.GRD_STATUS F.GRD_STATUS_INV = 0 ∧ s.grid.validAt = []
  let volt1 := fun (m : Nat) => s.chUsed m && decide (s.chKind m = 1)
  let anyV := ∃ m : Fin 8, volt1 m.val = true
  let all3 := volt1 0 && volt1 1 && volt1 2
  let fq := if all3 then f20.toNat else match (List.range 8).find? volt1 with | some m => each.toNat / 2 ^ (20 * m) % 2 ^ 20 | none => s.freeNat % 2 ^ 20
  let uf := s.fld Reg.GRD_UF F.GRD_UF_UF_MHZ
  let hyst := s.fld Reg.GRD_UF F.GRD_UF_UF_HYST
  let c := Tab.get (fun _ => GridCond.reset) s.grid.cond 0
  let cond := fun (t : State) => bitOf (t.fld Reg.GRD_STATUS F.GRD_STATUS_COND) 0
  let up := if s.fld Reg.GRD_QUAL F.GRD_QUAL_QUAL_MS = 0 then 1 else s.fld Reg.GRD_QUAL F.GRD_QUAL_QUAL_MS
  let down := if s.fld Reg.GRD_QUAL F.GRD_QUAL_REL_MS = 0 then 1 else s.fld Reg.GRD_QUAL F.GRD_QUAL_REL_MS
  let base := (s.rd Reg.GRD_REC_BASE).toNat
  let at_ := base + 32 * s.grid.recPos
  let src := bitOf (s.fld Reg.GRD_REC_CTRL F.GRD_REC_CTRL_SRC) 2 = true
  let q := s.recState
  match clause with
  | 1 => decide ((s.acts .grid) ∧ (on ∧ s.chValid n.val = true))
  | 2 => decide ((s.acts .grid) ∧ (s.chValid n.val = false))
  | 3 => decide ((s.acts .grid) ∧ (writes ∧ next ≠ rd))
  | 4 => decide ((s.acts .grid) ∧ (writes ∧ next = rd))
  | 5 => decide ((s.acts .grid) ∧ (on ∧ s.grid.stopped = false ∧ s.dmaRoom 16 = true ∧ s.rateOk = false))
  | 6 => decide ((s.acts .grid) ∧ (on ∧ s.rateOk = true ∧ ¬tagged))
  | 7 => decide ((s.acts .grid) ∧ (upd))
  | 8 => decide ((s.acts .grid) ∧ (upd ∧ anyV ∧ fq < uf ∧ cond s = false ∧ up ≤ c.met + 1))
  | 9 => decide ((s.acts .grid) ∧ (upd ∧ anyV ∧ fq < uf ∧ cond s = false ∧ c.met + 1 < up))
  | 10 => decide ((s.acts .grid) ∧ (upd ∧ anyV ∧ uf ≤ fq ∧ cond s = false))
  | 11 => decide ((s.acts .grid) ∧ (upd ∧ anyV ∧ uf ≤ fq ∧ uf + hyst ≤ fq ∧ cond s = true ∧ down ≤ c.rel + 1))
  | 12 => decide ((s.acts .grid) ∧ (s.grid.stopped = false))
  | 13 => decide ((s.acts .grid) ∧ (s.grid.stopped = true))
  | 14 => decide ((s.acts .grid) ∧ (q = 1 ∧ sramRange at_ 32 = true ∧ s.sramSound))
  | 15 => decide ((s.acts .grid) ∧ (bitOf (s.fld Reg.GRD_STATUS F.GRD_STATUS_INV) n.val = true))
  | 16 => decide ((s.acts .grid) ∧ (q = 1 ∧ inSram at_ = false))
  | 17 => decide ((s.acts .grid) ∧ (src ∧ q = 1))
  | 18 => decide ((s.acts .grid) ∧ (src ∧ q = 2))
  | 19 => decide ((s.acts .grid) ∧ (src ∧ q = 3))
  | 20 => decide ((s.acts .grid) ∧ (¬src))
  | 21 => decide ((s.acts .grid) ∧ (q = 2 ∧ s.reached s.grid.heldAt = true))
  | _ => decide ((s.acts .grid) ∧ (q = 2 ∧ s.reached s.grid.heldAt = false))
theorem test_meets_GridMeasuresRespondsAndRecords :
    hypGridMeasuresRespondsAndRecords ((((State.reset).setFlag Reg.GRD_CTRL F.GRD_CTRL_EN true).setFld Reg.GRD_CTRL F.GRD_CTRL_CH_EN 1).setFld (Reg.GCH_CFG 0) F.GCH_CFG_KIND 1) 0 0 0 0 0 0 1 = true ∧
    hypGridMeasuresRespondsAndRecords ((((State.reset).setFlag Reg.GRD_CTRL F.GRD_CTRL_EN true).setFld Reg.GRD_CTRL F.GRD_CTRL_CH_EN 1).setFld (Reg.GCH_CFG 0) F.GCH_CFG_KIND 1) 3 0 0 0 0 0 2 = true ∧
    hypGridMeasuresRespondsAndRecords ((((((((State.reset).setFlag Reg.GRD_CTRL F.GRD_CTRL_EN true).setFld Reg.GRD_CTRL F.GRD_CTRL_CH_EN 1).setFld (Reg.GCH_CFG 0) F.GCH_CFG_KIND 1).wr Reg.GRD_RING_BASE 0x01000080).setFld Reg.GRD_RING F.GRD_RING_LEN 3).setNow 2880016000).setFld Reg.GRD_CTRL F.GRD_CTRL_RATE 50) 0 0 9 0 0 0 3 = true ∧
    hypGridMeasuresRespondsAndRecords (((((((State.reset).setFlag Reg.GRD_CTRL F.GRD_CTRL_EN true).setFld Reg.GRD_CTRL F.GRD_CTRL_CH_EN 1).setFld (Reg.GCH_CFG 0) F.GCH_CFG_KIND 1).wr Reg.GRD_RING_BASE 0x01000080).setFld Reg.GRD_RING F.GRD_RING_LEN 3).setFld Reg.GRD_RING F.GRD_RING_RD 1) 0 0 0 0 0 0 4 = true ∧
    hypGridMeasuresRespondsAndRecords (((((State.reset).setFlag Reg.GRD_CTRL F.GRD_CTRL_EN true).setFld Reg.GRD_CTRL F.GRD_CTRL_CH_EN 1).setFld (Reg.GCH_CFG 0) F.GCH_CFG_KIND 1).setFld Reg.GRD_CTRL F.GRD_CTRL_RATE 12) 0 0 0 0 0 0 5 = true ∧
    hypGridMeasuresRespondsAndRecords (((((State.reset).setFlag Reg.GRD_CTRL F.GRD_CTRL_EN true).setFld Reg.GRD_CTRL F.GRD_CTRL_CH_EN 1).setFld (Reg.GCH_CFG 0) F.GCH_CFG_KIND 1).setFld Reg.GRD_CTRL F.GRD_CTRL_RATE 50) 0 0 50 0 0 0 6 = true ∧
    hypGridMeasuresRespondsAndRecords (((((State.reset).setFlag Reg.GRD_CTRL F.GRD_CTRL_EN true).setFld Reg.GRD_CTRL F.GRD_CTRL_CH_EN 1).setFld (Reg.GCH_CFG 0) F.GCH_CFG_KIND 1).setGrid { Grid.reset with tag := some 0 }) 0 0 0 0 0 0 6 = true ∧
    hypGridMeasuresRespondsAndRecords ((((State.reset).setFlag Reg.GRD_CTRL F.GRD_CTRL_EN true).setFld Reg.GRD_CTRL F.GRD_CTRL_CH_EN 1).setFld (Reg.GCH_CFG 0) F.GCH_CFG_KIND 1) 0 1 0 0 0 0 6 = true ∧
    hypGridMeasuresRespondsAndRecords (((((((State.reset).setFlag Reg.GRD_CTRL F.GRD_CTRL_EN true).setFld Reg.GRD_CTRL F.GRD_CTRL_CH_EN 1).setFld (Reg.GCH_CFG 0) F.GCH_CFG_KIND 1).setFld Reg.GRD_CTRL F.GRD_CTRL_CH_EN 7).setFld (Reg.GCH_CFG 1) F.GCH_CFG_KIND 1).setFld (Reg.GCH_CFG 2) F.GCH_CFG_KIND 1) 0 0 0 49700 0xFF 50001 7 = true ∧
    hypGridMeasuresRespondsAndRecords ((((State.reset).setFlag Reg.GRD_CTRL F.GRD_CTRL_EN true).setFld Reg.GRD_CTRL F.GRD_CTRL_CH_EN 1).setFld (Reg.GCH_CFG 0) F.GCH_CFG_KIND 1) 0 0 0 49700 0xFF 50001 7 = true ∧
    hypGridMeasuresRespondsAndRecords ((State.reset).setFlag Reg.GRD_CTRL F.GRD_CTRL_EN true) 0 0 0 49700 0xFF 0 7 = true ∧
    hypGridMeasuresRespondsAndRecords ((((((((State.reset).setFlag Reg.GRD_CTRL F.GRD_CTRL_EN true).setFld Reg.GRD_CTRL F.GRD_CTRL_CH_EN 1).setFld (Reg.GCH_CFG 0) F.GCH_CFG_KIND 1).setFld Reg.GRD_UF F.GRD_UF_UF_MHZ 49800).setFlag Reg.GRD_UF F.GRD_UF_EN true).setFld Reg.GRD_QUAL F.GRD_QUAL_QUAL_MS 3).setGrid { Grid.reset with cond := [(0, ⟨2, 0⟩)] }) 0 0 0 0 0xFF 49799 8 = true ∧
    hypGridMeasuresRespondsAndRecords (((((((State.reset).setFlag Reg.GRD_CTRL F.GRD_CTRL_EN true).setFld Reg.GRD_CTRL F.GRD_CTRL_CH_EN 1).setFld (Reg.GCH_CFG 0) F.GCH_CFG_KIND 1).setFld Reg.GRD_UF F.GRD_UF_UF_MHZ 49800).setFld Reg.GRD_QUAL F.GRD_QUAL_QUAL_MS 3).setGrid { Grid.reset with cond := [(0, ⟨1, 0⟩)] }) 0 0 0 0 0xFF 49799 9 = true ∧
    hypGridMeasuresRespondsAndRecords ((((((State.reset).setFlag Reg.GRD_CTRL F.GRD_CTRL_EN true).setFld Reg.GRD_CTRL F.GRD_CTRL_CH_EN 1).setFld (Reg.GCH_CFG 0) F.GCH_CFG_KIND 1).setFld Reg.GRD_UF F.GRD_UF_UF_MHZ 49800).setGrid { Grid.reset with cond := [(0, ⟨1, 0⟩)] }) 0 0 0 0 0xFF 49800 10 = true ∧
    hypGridMeasuresRespondsAndRecords ((((((((State.reset).setFlag Reg.GRD_CTRL F.GRD_CTRL_EN true).setFld Reg.GRD_CTRL F.GRD_CTRL_CH_EN 1).setFld (Reg.GCH_CFG 0) F.GCH_CFG_KIND 1).setFld Reg.GRD_UF F.GRD_UF_UF_MHZ 49800).setFld Reg.GRD_STATUS F.GRD_STATUS_COND 1).setFld Reg.GRD_QUAL F.GRD_QUAL_REL_MS 5).setGrid { Grid.reset with cond := [(0, ⟨0, 4⟩)] }) 0 0 0 0 0xFF 50000 11 = true ∧
    hypGridMeasuresRespondsAndRecords (State.reset.setGrid { Grid.reset with preN := 5, recPos := 5 }) 0 0 0 0 0 0 12 = true ∧
    hypGridMeasuresRespondsAndRecords (State.reset.setGrid { Grid.reset with stopped := true }) 0 0 0 0 0 0 13 = true ∧
    hypGridMeasuresRespondsAndRecords (((((((State.reset).setFlag Reg.GRD_CTRL F.GRD_CTRL_EN true).setFld Reg.GRD_CTRL F.GRD_CTRL_CH_EN 1).setFld (Reg.GCH_CFG 0) F.GCH_CFG_KIND 1).wr Reg.GRD_REC_BASE 0x01000000).setFld Reg.GRD_REC_CTRL F.GRD_REC_CTRL_STATE 1).setGrid { Grid.reset with preN := 32000, recPos := 31999 }) 3 0 0 0 0 0 14 = true ∧
    hypGridMeasuresRespondsAndRecords (State.reset.setFld Reg.GRD_STATUS F.GRD_STATUS_INV 4) 2 0 0 0 0 0 15 = true ∧
    hypGridMeasuresRespondsAndRecords (((((State.reset).setFlag Reg.GRD_CTRL F.GRD_CTRL_EN true).setFld Reg.GRD_CTRL F.GRD_CTRL_CH_EN 1).setFld (Reg.GCH_CFG 0) F.GCH_CFG_KIND 1).setFld Reg.GRD_REC_CTRL F.GRD_REC_CTRL_STATE 1) 0 0 0 0 0 0 16 = true ∧
    hypGridMeasuresRespondsAndRecords ((((State.reset).setFld Reg.GRD_REC_CTRL F.GRD_REC_CTRL_SRC 4).setFld Reg.GRD_REC_CTRL F.GRD_REC_CTRL_STATE 1).setNow 17000000000) 0 0 0 0 0 0 17 = true ∧
    hypGridMeasuresRespondsAndRecords (((State.reset).setFld Reg.GRD_REC_CTRL F.GRD_REC_CTRL_SRC 4).setFld Reg.GRD_REC_CTRL F.GRD_REC_CTRL_STATE 2) 0 0 0 0 0 0 18 = true ∧
    hypGridMeasuresRespondsAndRecords (((State.reset).setFld Reg.GRD_REC_CTRL F.GRD_REC_CTRL_SRC 4).setFld Reg.GRD_REC_CTRL F.GRD_REC_CTRL_STATE 3) 0 0 0 0 0 0 19 = true ∧
    hypGridMeasuresRespondsAndRecords (((State.reset).setFld Reg.GRD_REC_CTRL F.GRD_REC_CTRL_STATE 1).setFld Reg.GRD_REC_CTRL F.GRD_REC_CTRL_SRC 3) 0 0 0 0 0 0 20 = true ∧
    hypGridMeasuresRespondsAndRecords (((State.reset).setFld Reg.GRD_REC_CTRL F.GRD_REC_CTRL_STATE 2).setGrid { Grid.reset with heldAt := some 0 }) 0 0 0 0 0 0 21 = true ∧
    hypGridMeasuresRespondsAndRecords (((State.reset).setFld Reg.GRD_REC_CTRL F.GRD_REC_CTRL_STATE 2).setGrid { Grid.reset with heldAt := some 1 }) 0 0 0 0 0 0 22 = true := by
  and_intros <;> decide +kernel

/-- The hypotheses of PilotLevelsQualifyAndDrive, clause by clause. -/
def hypPilotLevelsQualifyAndDrive (s : State) (o : Fin 8) (hi : BitVec 96) (lo : BitVec 96) (data : Word) (code : BitVec 12) (u : Nat) (clause : Nat) : Bool :=
  let p := s.pilot o.val
  let r := Reg.OLK_STAT o.val
  let need := if s.fld (Reg.OLK_CFG o.val) F.OLK_CFG_QUAL = 0 then 1 else s.fld (Reg.OLK_CFG o.val) F.OLK_CFG_QUAL
  let high := s.highLevel o.val hi
  let was := signed 16 (s.fld (Reg.OLK_LVL o.val) F.OLK_LVL_HI_MV)
  let hv := match high with | some y => signed 16 (unsigned 16 y) | none => was
  let low := if p.mode = 1 then s.meanMv o.val lo else s.meanMv o.val hi
  let cp := p.cp.next (stateOf (fun i => s.rd (Reg.CPW i)) hv) need
  let kind := s.olkKind o.val
  let bad := s.flag r F.OLK_STAT_UNSTABLE = true ∨ s.flag r F.OLK_STAT_CONV_ERR = true
  let quiet := s.fld (Reg.OLK_CFG o.val) F.OLK_CFG_CHG_LIM = 0
  let mode := s.fld (Reg.OLK_DRV o.val) F.OLK_DRV_MODE
  let duty := min 1000 (s.fld (Reg.OLK_DRV o.val) F.OLK_DRV_DUTY)
  let good := 2008 ≤ code.toNat ∧ code.toNat ≤ 2088
  match clause with
  | 1 => decide ((s.acts .plc) ∧ (kind = 1 ∧ quiet ∧ p.cp.rep ≤ 15))
  | 2 => decide ((s.acts .plc) ∧ (kind = 2 ∧ quiet ∧ p.cp.rep ≤ 15 ∧ ¬bad))
  | 3 => decide ((s.acts .plc) ∧ (high = none))
  | 4 => decide ((s.acts .plc) ∧ (s.tooMany o.val = true ∧ s.flag r F.OLK_STAT_UNSTABLE = false ∧ p.mode ≠ 1))
  | 5 => decide ((s.acts .plc) ∧ (kind = 1 ∧ quiet ∧ p.mode = 1 ∧ p.hold = 0 ∧ 1 ≤ cp.rep ∧ cp.rep ≤ 3 ∧ inWin (s.rd (Reg.CPW 5)) low = false ∧ need ≤ p.diode + 1 ∧ s.flag r F.OLK_STAT_DIODE_ERR = false))
  | 6 => decide ((s.acts .plc) ∧ (mode ≠ p.mode ∨ duty ≠ p.duty))
  | 7 => decide ((s.acts .plc) ∧ (kind = 2 ∧ F.OLK_DRV_MODE.get data = 1))
  | 8 => decide ((s.acts .plc) ∧ (kind ≠ 2 ∨ F.OLK_DRV_MODE.get data ≠ 1))
  | 9 => decide ((s.acts .plc) ∧ (s.tooMany o.val = true))
  | 10 => decide ((s.acts .plc) ∧ (s.tooMany o.val = false))
  | 11 => decide ((s.acts .plc) ∧ (¬good))
  | 12 => decide ((s.acts .plc) ∧ (good ∧ s.flag r F.OLK_STAT_CONV_ERR = false))
  | 13 => decide ((s.acts .plc) ∧ (good ∧ s.flag r F.OLK_STAT_CONV_ERR = true ∧ p.passAt = some u ∧ u + 16000000000 ≤ s.now))
  | _ => decide ((s.acts .plc) ∧ (good ∧ s.flag r F.OLK_STAT_CONV_ERR = true ∧ p.passAt = none))
theorem test_meets_PilotLevelsQualifyAndDrive :
    hypPilotLevelsQualifyAndDrive ((((State.reset.setPilot 3 { Pilot.reset with cp := ⟨15, 0, 9⟩ }).setFld (Reg.OLK_CFG 3) F.OLK_CFG_KIND 1).setFld (Reg.OLK_CFG 3) F.OLK_CFG_QUAL 3).setFld (Reg.OLK_CFG 3) F.OLK_CFG_CHG_LIM 0) 3 ((BitVec.ofNat 96 (3686 * (1 + 2^12 + 2^24 + 2^36 + 2^48 + 2^60 + 2^72 + 2^84)))) 0 0 0 0 1 = true ∧
    hypPilotLevelsQualifyAndDrive ((((State.reset.setPilot 3 { Pilot.reset with cp := ⟨15, 0, 9⟩, mode := 1, duty := 1 }).setFld (Reg.OLK_CFG 3) F.OLK_CFG_KIND 1).setFlag (Reg.OLK_STAT 3) F.OLK_STAT_UNSTABLE true).setFld (Reg.OLK_CFG 3) F.OLK_CFG_CHG_LIM 0) 3 ((BitVec.ofNat 96 (3686 * (1 + 2^12 + 2^24 + 2^36 + 2^48 + 2^60 + 2^72 + 2^84)))) ((BitVec.ofNat 96 (300 * (1 + 2^12 + 2^24 + 2^36 + 2^48 + 2^60 + 2^72 + 2^84)))) 0 0 0 1 = true ∧
    hypPilotLevelsQualifyAndDrive (((State.reset.setPilot 3 { Pilot.reset with mode := 0 }).setFld (Reg.OLK_CFG 3) F.OLK_CFG_KIND 2).setFld (Reg.OLK_CFG 3) F.OLK_CFG_CHG_LIM 0) 3 ((BitVec.ofNat 96 (3686 * (1 + 2^12 + 2^24 + 2^36 + 2^48 + 2^60 + 2^72 + 2^84)))) 0 0 0 0 2 = true ∧
    hypPilotLevelsQualifyAndDrive (((State.reset.setPilot 3 { Pilot.reset with mode := 1, duty := 1 }).setFld (Reg.OLK_CFG 3) F.OLK_CFG_KIND 1).setFld (Reg.OLK_LVL 3) F.OLK_LVL_HI_MV 77) 3 ((BitVec.ofNat 96 (3686 * (1 + 2^12 + 2^24 + 2^36 + 2^48 + 2^60 + 2^72 + 2^84)))) 0 0 0 0 3 = true ∧
    hypPilotLevelsQualifyAndDrive (((State.reset.setPilot 3 { Pilot.reset with changes := [0, 0, 0] }).setFld (Reg.OLK_CFG 3) F.OLK_CFG_KIND 1).setFld (Reg.OLK_CFG 3) F.OLK_CFG_CHG_LIM 2) 3 0 0 0 0 0 4 = true ∧
    hypPilotLevelsQualifyAndDrive (((State.reset.setPilot 3 { Pilot.reset with cp := ⟨1, 1, 9⟩, mode := 1, duty := 1, diode := 8 }).setFld (Reg.OLK_CFG 3) F.OLK_CFG_KIND 1).setFld (Reg.OLK_CFG 3) F.OLK_CFG_CHG_LIM 0) 3 0 ((BitVec.ofNat 96 (2048 * (1 + 2^12 + 2^24 + 2^36 + 2^48 + 2^60 + 2^72 + 2^84)))) 0 0 0 5 = true ∧
    hypPilotLevelsQualifyAndDrive ((State.reset).wr (Reg.OLK_DRV 3) 0x03FF0001) 3 0 0 0 0 0 6 = true ∧
    hypPilotLevelsQualifyAndDrive ((State.reset).setFld (Reg.OLK_CFG 3) F.OLK_CFG_KIND 2) 3 0 0 1 0 0 7 = true ∧
    hypPilotLevelsQualifyAndDrive ((State.reset).setFld (Reg.OLK_CFG 3) F.OLK_CFG_KIND 1) 3 0 0 0xFFFFFFFD 0 0 8 = true ∧
    hypPilotLevelsQualifyAndDrive ((State.reset).setFld (Reg.OLK_CFG 3) F.OLK_CFG_KIND 2) 3 0 0 2 0 0 8 = true ∧
    hypPilotLevelsQualifyAndDrive ((((State.reset.setPilot 3 { Pilot.reset with changes := [0, 0, 0] }).setFld (Reg.OLK_CFG 3) F.OLK_CFG_KIND 1).setFld (Reg.OLK_CFG 3) F.OLK_CFG_CHG_LIM 2).setFlag (Reg.OLK_STAT 3) F.OLK_STAT_UNSTABLE true) 3 0 0 0 0 0 9 = true ∧
    hypPilotLevelsQualifyAndDrive (((State.reset.setPilot 3 { Pilot.reset with cp := ⟨1, 1, 9⟩ }).setFld (Reg.OLK_CFG 3) F.OLK_CFG_KIND 1).setFlag (Reg.OLK_STAT 3) F.OLK_STAT_UNSTABLE true) 3 0 0 0 0 0 10 = true ∧
    hypPilotLevelsQualifyAndDrive State.reset 3 0 0 0 2089 0 11 = true ∧
    hypPilotLevelsQualifyAndDrive (State.reset.setPilot 3 { Pilot.reset with cp := ⟨1, 1, 9⟩ }) 3 0 0 0 2007 0 11 = true ∧
    hypPilotLevelsQualifyAndDrive State.reset 3 0 0 0 2008 0 12 = true ∧
    hypPilotLevelsQualifyAndDrive State.reset 3 0 0 0 2088 0 12 = true ∧
    hypPilotLevelsQualifyAndDrive (((State.reset.setPilot 3 { Pilot.reset with passAt := some 0, cp := ⟨1, 1, 9⟩ }).setFlag (Reg.OLK_STAT 3) F.OLK_STAT_CONV_ERR true).setNow 16000000000) 3 0 0 0 2048 0 13 = true ∧
    hypPilotLevelsQualifyAndDrive (((State.reset.setPilot 3 { Pilot.reset with passAt := none }).setFlag (Reg.OLK_STAT 3) F.OLK_STAT_CONV_ERR true).setNow 16000000000) 3 0 0 0 2048 0 14 = true := by
  and_intros <;> decide +kernel

/-- The hypotheses of LinksMoveFramesAndKeepToneMaps, clause by clause. -/
def hypLinksMoveFramesAndKeepToneMaps (s : State) (l : Fin 17) (frame : List Byte) (info : RxInfo) (xi : TxInfo) (n : Fin 8) (k : Fin 32) (ph : BitVec 3) (z : Sound) (y : Slac) (clause : Nat) : Bool :=
  let rc := s.rd (rxCfg l.val)
  let tc := s.rd (txCfg l.val)
  let room1 := s.dmaRoom (linkSlot l.val) = true
  let on := s.linkOn l.val = true ∧ room1 ∧ s.sramSound
  let allPass := info.pbs.all id = true
  let opens := info.sealed = true → (s.nmk l.val useDec).isSome = true
  let plain := allPass ∧ opens ∧ ringEn rc = false
  let mac := (frame.drop 6).take 6
  let kept := info.symbols.filter (fun y => !s.blankedAt y.peak)
  let run := (s.rd (Reg.GP_ATT_RUNID_LO n.val)).toNat + (s.rd (Reg.GP_ATT_RUNID_HI n.val)).toNat * 2 ^ 32
  let next := (ringHead rc + 1) % ringLen rc
  let d := (s.rd (rxBase l.val)).toNat + 16 * ringHead rc
  let buf := s.num d 4
  let flen := frame.length
  let takes := on ∧ (l.val < 8 → info.fcsOk = true ∧ flen ≤ 1518 ∧ s.t1sTakes l.val frame = true) ∧ (8 ≤ l.val → info.sound = none ∧ allPass ∧ opens) ∧ l.val ≠ 16 ∧ ringEn rc = true
  let room := next ≠ ringTail rc
  let fits := sramRange d 16 = true ∧ sramRange buf 1536 = true ∧ buf % 4 = 0 ∧ flen ≤ 1536 ∧ (buf + flen ≤ d ∨ d + 16 ≤ buf)
  let td := (s.rd (txBase l.val)).toNat + 16 * ringTail tc
  let tbuf := s.num td 4
  let tlen := s.num (td + 4) 2
  let how := s.plcTx l.val (s.bytes tbuf tlen)
  let key := s.nmk l.val useEnc
  let apart := tbuf + tlen ≤ td ∨ td + 16 ≤ tbuf
  let sends := on ∧ ringEn tc = true ∧ ringHead tc ≠ ringTail tc ∧ s.links.phyFail.contains l.val = false ∧ sramRange td 16 = true ∧ tbuf % 4 = 0 ∧ (tlen = 0 ∨ sramRange tbuf tlen = true)
  let m := s.slac n.val
  let cnt := s.fld (Reg.GP_ATT_STAT n.val) F.GP_ATT_STAT_CNT
  let b := s.nbr k.val
  let every := max 5 (s.fld Reg.BB_TM F.BB_TM_REFRESH_S) * 16000000000
  let due := s.nbrOn k.val = true ∧ b.est = false ∧ b.refreshAt + every ≤ s.now
  let pber := if b.pbs = 0 then 0 else b.failed * 1000 / b.pbs
  let thr := s.fld Reg.BB_TM F.BB_TM_PBER_THR
  let hc := s.fld (Reg.BB_NBR_PBER k.val) F.BB_NBR_PBER_HIGH_CNT
  let plca := s.flag (Reg.T1S_CTRL n.val) F.T1S_CTRL_EN = true ∧ s.flag (Reg.T1S_CTRL n.val) F.T1S_CTRL_PLCA_EN = true
  match clause with
  | 1 => decide ((takes ∧ room ∧ fits))
  | 2 => decide ((takes ∧ ¬room))
  | 3 => decide ((takes ∧ room ∧ sramRange d 16 = false))
  | 4 => decide ((on ∧ l.val < 8 ∧ (info.fcsOk = false ∨ 1518 < flen)))
  | 5 => decide ((on ∧ 8 ≤ l.val ∧ l.val < 16 ∧ info.sound = none ∧ ¬allPass))
  | 6 => decide ((on ∧ 8 ≤ l.val ∧ l.val < 16 ∧ info.sound = none ∧ allPass ∧ ¬opens))
  | 7 => decide ((on ∧ l.val = 16 ∧ plain ∧ (List.range 32).find? (s.nbrIs mac) = some k.val))
  | 8 => decide ((on ∧ l.val = 16 ∧ plain ∧ (List.range 32).find? (s.nbrIs mac) = none ∧ (List.range 32).find? (fun k => !s.nbrOn k) = some k.val ∧ kept = info.symbols ∧ frame.length = 12))
  | 9 => decide ((on ∧ l.val = 16 ∧ plain ∧ (List.range 32).find? (s.nbrIs mac) = none ∧ (∀ j : Fin 32, s.nbrOn j.val = true)))
  | 10 => decide ((sends ∧ l.val < 8 ∧ xi.sent = true))
  | 11 => decide ((sends ∧ l.val < 8 ∧ xi.sent = false))
  | 12 => decide ((sends ∧ 8 ≤ l.val ∧ apart ∧ (how.sealed = true → key.isSome = true)))
  | 13 => decide ((sends ∧ 8 ≤ l.val ∧ how.sealed = true ∧ key = none))
  | 14 => decide ((s.acts (if l.val < 8 then .t1s else .plc)))
  | 15 => decide ((s.acts .plc ∧ s.linkRuns (8 + n.val) = true))
  | 16 => decide ((s.acts .plc ∧ s.linkRuns (8 + n.val) = false))
  | 17 => decide ((s.linkRuns (8 + n.val) = true ∧ s.dmaRoom 13 = true ∧ info.sound = some z ∧ allPass ∧ info.sealed = false ∧ ((s.ringStop (8 + n.val)).stopped = true ∨ ringEn (s.rd (rxCfg (8 + n.val))) = false) ∧ m = some y ∧ (z.run.toNat ≠ run ∨ s.attNum n.val ≤ cnt ∨ y.due ≤ s.now)))
  | 18 => decide ((s.linkRuns (8 + n.val) = true ∧ s.dmaRoom 13 = true ∧ info.sound = some z ∧ allPass ∧ info.sealed = false ∧ ((s.ringStop (8 + n.val)).stopped = true ∨ ringEn (s.rd (rxCfg (8 + n.val))) = false) ∧ m = some y ∧ z.run.toNat = run ∧ cnt < s.attNum n.val ∧ s.now < y.due))
  | 19 => decide ((s.acts .plc ∧ s.linkRuns (8 + n.val) = true ∧ m = some y ∧ (s.attNum n.val ≤ cnt ∨ y.due ≤ s.now)))
  | 20 => decide ((s.acts .plc ∧ due ∧ (pber ≤ thr ∨ hc < 2)))
  | 21 => decide ((s.acts .plc ∧ due ∧ thr < pber ∧ 2 ≤ hc))
  | 22 => decide ((s.acts .plc ∧ s.nbrOn k.val = true ∧ b.est = true))
  | 23 => decide ((s.acts .plc ∧ s.fld Reg.BB_CTRL F.BB_CTRL_PH ≠ ph.toNat))
  | 24 => decide ((s.acts .t1s))
  | _ => decide ((s.acts .t1s ∧ plca))
theorem test_meets_LinksMoveFramesAndKeepToneMaps :
    hypLinksMoveFramesAndKeepToneMaps (((((((State.reset).wr (linkBase 2) 0xC0000000).setFlag (Reg.T1S_CTRL 2) F.T1S_CTRL_PROMISC true).wr (rxBase 2) 0x01000100).setFld (rxCfg 2) F.T1S_RX_CFG_LEN 4).setFlag (rxCfg 2) F.T1S_RX_CFG_EN true).putNum 0x01000100 4 0x01001000) 2 [1, 2, 3] ⟨true, false, false, [], [], 0, none⟩ ⟨true, 0, false, []⟩ 0 0 0 ⟨0, 0, 0⟩ ⟨0, []⟩ 1 = true ∧
    hypLinksMoveFramesAndKeepToneMaps ((((((((State.reset).wr (linkBase 2) 0xC0000000).setFlag (Reg.T1S_CTRL 2) F.T1S_CTRL_PROMISC true).wr (rxBase 2) 0x01000100).setFld (rxCfg 2) F.T1S_RX_CFG_LEN 4).setFlag (rxCfg 2) F.T1S_RX_CFG_EN true).putNum 0x01000100 4 0x01001000).setFld (rxCfg 2) F.T1S_RX_CFG_TAIL 1) 2 [1, 2, 3] ⟨true, false, false, [], [], 0, none⟩ ⟨true, 0, false, []⟩ 0 0 0 ⟨0, 0, 0⟩ ⟨0, []⟩ 2 = true ∧
    hypLinksMoveFramesAndKeepToneMaps ((((((((State.reset).wr (linkBase 2) 0xC0000000).setFlag (Reg.T1S_CTRL 2) F.T1S_CTRL_PROMISC true).wr (rxBase 2) 0x01000100).setFld (rxCfg 2) F.T1S_RX_CFG_LEN 4).setFlag (rxCfg 2) F.T1S_RX_CFG_EN true).putNum 0x01000100 4 0x01001000).wr (rxBase 2) 0x10) 2 [1, 2, 3] ⟨true, false, false, [], [], 0, none⟩ ⟨true, 0, false, []⟩ 0 0 0 ⟨0, 0, 0⟩ ⟨0, []⟩ 3 = true ∧
    hypLinksMoveFramesAndKeepToneMaps (((((((State.reset).wr (linkBase 2) 0xC0000000).setFlag (Reg.T1S_CTRL 2) F.T1S_CTRL_PROMISC true).wr (rxBase 2) 0x01000100).setFld (rxCfg 2) F.T1S_RX_CFG_LEN 4).setFlag (rxCfg 2) F.T1S_RX_CFG_EN true).putNum 0x01000100 4 0x01001000) 2 (List.replicate 1519 0) ⟨true, false, false, [], [], 0, none⟩ ⟨true, 0, false, []⟩ 0 0 0 ⟨0, 0, 0⟩ ⟨0, []⟩ 4 = true ∧
    hypLinksMoveFramesAndKeepToneMaps (((((((State.reset).wr (linkBase 2) 0xC0000000).setFlag (Reg.T1S_CTRL 2) F.T1S_CTRL_PROMISC true).wr (rxBase 2) 0x01000100).setFld (rxCfg 2) F.T1S_RX_CFG_LEN 4).setFlag (rxCfg 2) F.T1S_RX_CFG_EN true).putNum 0x01000100 4 0x01001000) 2 [] ⟨false, false, false, [], [], 0, none⟩ ⟨true, 0, false, []⟩ 0 0 0 ⟨0, 0, 0⟩ ⟨0, []⟩ 4 = true ∧
    hypLinksMoveFramesAndKeepToneMaps (((State.reset).wr (linkBase 10) 0x80000000).setFld (Reg.OLK_CFG 2) F.OLK_CFG_KIND 1) 10 [] ⟨true, false, false, [], [true, false], 0, none⟩ ⟨true, 0, false, []⟩ 0 0 0 ⟨0, 0, 0⟩ ⟨0, []⟩ 5 = true ∧
    hypLinksMoveFramesAndKeepToneMaps (((State.reset).wr (linkBase 10) 0x80000000).setFld (Reg.OLK_CFG 2) F.OLK_CFG_KIND 1) 10 [] ⟨true, false, true, [], [true], 0, none⟩ ⟨true, 0, false, []⟩ 0 0 0 ⟨0, 0, 0⟩ ⟨0, []⟩ 6 = true ∧
    hypLinksMoveFramesAndKeepToneMaps (((((State.reset).wr (linkBase 16) 0x80000000).setFld Reg.BB_IMP F.BB_IMP_IMP_THR 20).setFlag (Reg.BB_NBR_ID 5) F.BB_NBR_ID_VALID true).wr (Reg.BB_NBR_MAC_LO 5) 7) 16 [1, 2, 3, 4, 5, 6, 7, 0, 0, 0, 0, 0] ⟨true, false, false, [⟨21, 9⟩, ⟨20, 8⟩], [true], 0, none⟩ ⟨true, 0, false, []⟩ 0 5 0 ⟨0, 0, 0⟩ ⟨0, []⟩ 7 = true ∧
    hypLinksMoveFramesAndKeepToneMaps ((State.reset).wr (linkBase 16) 0x80000000) 16 [1, 2, 3, 4, 5, 6, 7, 8, 9, 10, 11, 12] ⟨true, false, false, [], [true], 3, none⟩ ⟨true, 0, false, []⟩ 0 0 0 ⟨0, 0, 0⟩ ⟨0, []⟩ 8 = true ∧
    hypLinksMoveFramesAndKeepToneMaps ((List.range 32).foldl (fun s k => (s.setFlag (Reg.BB_NBR_ID k) F.BB_NBR_ID_VALID true).wr (Reg.BB_NBR_MAC_LO k) 1) ((State.reset).wr (linkBase 16) 0x80000000)) 16 [] ⟨true, false, false, [], [], 0, none⟩ ⟨true, 0, false, []⟩ 0 0 0 ⟨0, 0, 0⟩ ⟨0, []⟩ 9 = true ∧
    hypLinksMoveFramesAndKeepToneMaps (((((((((State.reset).wr (linkBase 2) 0x80000000).wr (txBase 2) 0x01000100).setFld (txCfg 2) F.T1S_TX_CFG_LEN 4).setFlag (txCfg 2) F.T1S_TX_CFG_EN true).setFld (txCfg 2) F.T1S_TX_CFG_HEAD 1).putNum 0x01000100 4 0x01001000).putNum 0x01000104 4 3).putNum 0x01001000 4 0x332211) 2 [] ⟨true, false, false, [], [], 0, none⟩ ⟨true, 9, true, []⟩ 0 0 0 ⟨0, 0, 0⟩ ⟨0, []⟩ 10 = true ∧
    hypLinksMoveFramesAndKeepToneMaps (((((((((State.reset).wr (linkBase 2) 0x80000000).wr (txBase 2) 0x01000100).setFld (txCfg 2) F.T1S_TX_CFG_LEN 4).setFlag (txCfg 2) F.T1S_TX_CFG_EN true).setFld (txCfg 2) F.T1S_TX_CFG_HEAD 1).putNum 0x01000100 4 0x01001000).putNum 0x01000104 4 3).putNum 0x01001000 4 0x332211) 2 [] ⟨true, false, false, [], [], 0, none⟩ ⟨false, 15, false, []⟩ 0 0 0 ⟨0, 0, 0⟩ ⟨0, []⟩ 11 = true ∧
    hypLinksMoveFramesAndKeepToneMaps ((((((((((State.reset).wr (linkBase 10) 0x80000000).setFld (Reg.OLK_CFG 2) F.OLK_CFG_KIND 1).wr (txBase 10) 0x01000100).setFld (txCfg 10) F.T1S_TX_CFG_LEN 4).setFlag (txCfg 10) F.T1S_TX_CFG_EN true).setFld (txCfg 10) F.T1S_TX_CFG_HEAD 1).putNum 0x01000100 4 0x01001000).putNum 0x01000104 4 14).putNum 0x0100100C 2 0xE188) 10 [] ⟨true, false, false, [], [], 0, none⟩ ⟨false, 0, false, [0, 9]⟩ 0 0 0 ⟨0, 0, 0⟩ ⟨0, []⟩ 12 = true ∧
    hypLinksMoveFramesAndKeepToneMaps ((((((((((State.reset).wr (linkBase 10) 0x80000000).setFld (Reg.OLK_CFG 2) F.OLK_CFG_KIND 1).wr (txBase 10) 0x01000100).setFld (txCfg 10) F.T1S_TX_CFG_LEN 4).setFlag (txCfg 10) F.T1S_TX_CFG_EN true).setFld (txCfg 10) F.T1S_TX_CFG_HEAD 1).putNum 0x01000100 4 0x01001000).putNum 0x01000104 4 14).putNum 0x0100100C 2 0xE188) 10 [] ⟨true, false, false, [], [], 0, none⟩ ⟨true, 0, false, []⟩ 0 0 0 ⟨0, 0, 0⟩ ⟨0, []⟩ 12 = true ∧
    hypLinksMoveFramesAndKeepToneMaps ((((((((((State.reset).wr (linkBase 10) 0x80000000).setFld (Reg.OLK_CFG 2) F.OLK_CFG_KIND 1).wr (txBase 10) 0x01000100).setFld (txCfg 10) F.T1S_TX_CFG_LEN 4).setFlag (txCfg 10) F.T1S_TX_CFG_EN true).setFld (txCfg 10) F.T1S_TX_CFG_HEAD 1).putNum 0x01000100 4 0x01001000).putNum 0x01000104 4 14).putNum 0x0100100C 2 0x0008) 10 [] ⟨true, false, false, [], [], 0, none⟩ ⟨true, 0, false, []⟩ 0 0 0 ⟨0, 0, 0⟩ ⟨0, []⟩ 13 = true ∧
    hypLinksMoveFramesAndKeepToneMaps ((((((((((State.reset).wr (linkBase 2) 0x80000000).wr (txBase 2) 0x01000100).setFld (txCfg 2) F.T1S_TX_CFG_LEN 4).setFlag (txCfg 2) F.T1S_TX_CFG_EN true).setFld (txCfg 2) F.T1S_TX_CFG_HEAD 1).putNum 0x01000100 4 0x01001000).putNum 0x01000104 4 3).putNum 0x01001000 4 0x332211).setFld (txCfg 2) F.T1S_TX_CFG_TAIL 7) 2 [] ⟨true, false, false, [], [], 0, none⟩ ⟨true, 0, false, []⟩ 0 0 0 ⟨0, 0, 0⟩ ⟨0, []⟩ 14 = true ∧
    hypLinksMoveFramesAndKeepToneMaps State.reset 16 [] ⟨true, false, false, [], [], 0, none⟩ ⟨true, 0, false, []⟩ 0 0 0 ⟨0, 0, 0⟩ ⟨0, []⟩ 14 = true ∧
    hypLinksMoveFramesAndKeepToneMaps (((State.reset.wr (Reg.GP_ATT 2 5) 7).wr (linkBase 10) 0x80000000).setFld (Reg.OLK_CFG 2) F.OLK_CFG_KIND 1) 0 [] ⟨true, false, false, [], [], 0, none⟩ ⟨true, 0, false, []⟩ 2 0 0 ⟨0, 0, 0⟩ ⟨0, []⟩ 15 = true ∧
    hypLinksMoveFramesAndKeepToneMaps (State.reset.setSlac 2 (some ⟨0, []⟩)) 0 [] ⟨true, false, false, [], [], 0, none⟩ ⟨true, 0, false, []⟩ 2 0 0 ⟨0, 0, 0⟩ ⟨0, []⟩ 16 = true ∧
    hypLinksMoveFramesAndKeepToneMaps ((((State.reset).wr (linkBase 10) 0x80000000).setFld (Reg.OLK_CFG 2) F.OLK_CFG_KIND 1).setSlac 2 (some ⟨0, List.replicate 58 0⟩)) 0 [] ⟨false, false, false, [], [], 0, some ⟨0, 0, 9⟩⟩ ⟨true, 0, false, []⟩ 2 0 0 ⟨0, 0, 9⟩ ⟨0, List.replicate 58 0⟩ 17 = true ∧
    hypLinksMoveFramesAndKeepToneMaps ((((State.reset).wr (linkBase 10) 0x80000000).setFld (Reg.OLK_CFG 2) F.OLK_CFG_KIND 1).setSlac 2 (some ⟨9, List.replicate 58 0⟩)) 0 [] ⟨false, false, false, [], [], 0, some ⟨0, 0, 9⟩⟩ ⟨true, 0, false, []⟩ 2 0 0 ⟨0, 0, 9⟩ ⟨9, List.replicate 58 0⟩ 18 = true ∧
    hypLinksMoveFramesAndKeepToneMaps ((((State.reset).wr (linkBase 10) 0x80000000).setFld (Reg.OLK_CFG 2) F.OLK_CFG_KIND 1).setSlac 2 (some ⟨9, List.replicate 58 0⟩)) 0 [] ⟨false, false, false, [], [], 0, some ⟨0, 255, 9⟩⟩ ⟨true, 0, false, []⟩ 2 0 0 ⟨0, 255, 9⟩ ⟨9, List.replicate 58 0⟩ 18 = true ∧
    hypLinksMoveFramesAndKeepToneMaps (((((State.reset).wr (linkBase 10) 0x80000000).setFld (Reg.OLK_CFG 2) F.OLK_CFG_KIND 1).setSlac 2 (some ⟨0, List.replicate 58 11⟩)).wr (Reg.GP_ATT_STAT 2) 3) 0 [] ⟨true, false, false, [], [], 0, none⟩ ⟨true, 0, false, []⟩ 2 0 0 ⟨0, 0, 0⟩ ⟨0, List.replicate 58 11⟩ 19 = true ∧
    hypLinksMoveFramesAndKeepToneMaps (((((State.reset.setNbr 5 { Nbr.reset with pbs := 100, failed := 5 }).setFlag (Reg.BB_NBR_ID 5) F.BB_NBR_ID_VALID true).setFld Reg.BB_TM F.BB_TM_PBER_THR 50).setNow 800000000000).setFld (Reg.BB_NBR_PBER 5) F.BB_NBR_PBER_HIGH_CNT 2) 0 [] ⟨true, false, false, [], [], 0, none⟩ ⟨true, 0, false, []⟩ 0 5 0 ⟨0, 0, 0⟩ ⟨0, []⟩ 20 = true ∧
    hypLinksMoveFramesAndKeepToneMaps ((((State.reset.setNbr 5 { Nbr.reset with pbs := 100, failed := 8 }).setFlag (Reg.BB_NBR_ID 5) F.BB_NBR_ID_VALID true).setFld Reg.BB_TM F.BB_TM_PBER_THR 50).setNow 800000000000) 0 [] ⟨true, false, false, [], [], 0, none⟩ ⟨true, 0, false, []⟩ 0 5 0 ⟨0, 0, 0⟩ ⟨0, []⟩ 20 = true ∧
    hypLinksMoveFramesAndKeepToneMaps (((((State.reset.setNbr 5 { Nbr.reset with pbs := 100, failed := 8 }).setFlag (Reg.BB_NBR_ID 5) F.BB_NBR_ID_VALID true).setFld Reg.BB_TM F.BB_TM_PBER_THR 50).setNow 800000000000).setFld (Reg.BB_NBR_PBER 5) F.BB_NBR_PBER_HIGH_CNT 2) 0 [] ⟨true, false, false, [], [], 0, none⟩ ⟨true, 0, false, []⟩ 0 5 0 ⟨0, 0, 0⟩ ⟨0, []⟩ 21 = true ∧
    hypLinksMoveFramesAndKeepToneMaps ((((State.reset.setNbr 5 { Nbr.reset with est := true }).setFlag (Reg.BB_NBR_ID 5) F.BB_NBR_ID_VALID true).setFld Reg.BB_TM F.BB_TM_PBER_THR 50).setNow 800000000000) 0 [] ⟨true, false, false, [], [], 0, none⟩ ⟨true, 0, false, []⟩ 0 5 0 ⟨0, 0, 0⟩ ⟨0, []⟩ 22 = true ∧
    hypLinksMoveFramesAndKeepToneMaps ((((State.reset.setNbr 5 { Nbr.reset with pbs := 4 }).setFlag (Reg.BB_NBR_ID 5) F.BB_NBR_ID_VALID true).setFld Reg.BB_TM F.BB_TM_PBER_THR 50).setNow 800000000000) 0 [] ⟨true, false, false, [], [], 0, none⟩ ⟨true, 0, false, []⟩ 0 5 6 ⟨0, 0, 0⟩ ⟨0, []⟩ 23 = true ∧
    hypLinksMoveFramesAndKeepToneMaps State.reset 0 [] ⟨true, false, false, [], [], 0, none⟩ ⟨true, 0, false, []⟩ 7 0 0 ⟨0, 0, 0⟩ ⟨0, []⟩ 24 = true ∧
    hypLinksMoveFramesAndKeepToneMaps (((State.reset.wr (Reg.T1S_PLCA 2) 0).setFlag (Reg.T1S_CTRL 2) F.T1S_CTRL_EN true).setFlag (Reg.T1S_CTRL 2) F.T1S_CTRL_PLCA_EN true) 0 [] ⟨true, false, false, [], [], 0, none⟩ ⟨true, 0, false, []⟩ 2 0 0 ⟨0, 0, 0⟩ ⟨0, []⟩ 25 = true := by
  and_intros <;> decide +kernel

/-- The hypotheses of SessionJobsRunAndCompleteInOrder, clause by clause. -/
def hypSessionJobsRunAndCompleteInOrder (s : State) (c : Fin 8) (k : Nat) (res : TlsOut) (why : Nat × Nat) (o : TlsOffer) (clause : Nat) : Bool :=
  let a := s.jobAddr c.val k
  let inA := s.jobWord c.val k 1
  let inN := s.jobWord c.val k 2 % 2 ^ 16
  let outA := s.jobWord c.val k 3
  let cap := s.jobWord c.val k 4 % 2 ^ 16
  let txA := s.jobWord c.val k 5
  let txN := s.jobWord c.val k 6 % 2 ^ 16
  let ready := fun (op : Nat) => s.nextJob (tlsOp op) = some (c.val, k) ∧ s.dmaRoom 11 = true ∧ s.sramSound ∧ sramRange a 32 = true ∧ s.jobOp c.val k = op ∧ bufOk inA inN = true ∧ bufOk outA cap = true ∧ bufOk txA txN = true
  let apart := outA + cap ≤ a ∨ a + 32 ≤ outA
  let inp := s.bytes inA inN
  let opened := s.tlsOpen c.val
  let goes := s.tlsRefusal c.val res = none
  let fits := res.out.length ≤ cap ∧ res.tx.length ≤ txN
  let cert := (s.rd (Reg.SES_CERT_BASE c.val)).toNat % 4 = 0 ∧ s.fld (Reg.SES_CERT_LEN c.val) F.SES_CERT_LEN_VAL = 0
  match clause with
  | 1 => decide ((s.acts .session) ∧ (ready 1 ∧ apart))
  | 2 => decide ((s.acts .session) ∧ (ready 1 ∧ schemaOk (s.proto c.val) (s.jobSchema c.val k) = false))
  | 3 => decide ((s.acts .session) ∧ (ready 1 ∧ schemaOk (s.proto c.val) (s.jobSchema c.val k) = true ∧ s.jobBit c.val k 12 = true ∧ inN ≤ 8192 ∧ inp.take 2 ≠ [0x01, 0xFE]))
  | 4 => decide ((s.acts .session) ∧ (ready 2 ∧ apart))
  | 5 => decide ((s.acts .session))
  | 6 => decide ((s.acts .session) ∧ (ready 3 ∧ apart))
  | 7 => decide ((s.acts .session) ∧ (ready 0x10 ∧ cert ∧ goes ∧ fits ∧ res.stays = true))
  | 8 => decide ((s.acts .session) ∧ (ready 0x11 ∧ opened = true ∧ goes ∧ fits))
  | 9 => decide ((s.acts .session) ∧ (ready 0x11 ∧ opened = true ∧ goes ∧ ¬fits))
  | 10 => decide ((s.acts .session) ∧ (ready 0x12 ∧ opened = true ∧ goes ∧ fits ∧ apart))
  | 11 => decide ((s.acts .session) ∧ (ready 0x13 ∧ opened = true ∧ goes ∧ fits))
  | 12 => decide ((s.acts .session) ∧ (ready 0x10 ∧ cert ∧ s.tlsRefusal c.val res = some why))
  | 13 => decide ((s.acts .session) ∧ (ready 0x11 ∧ opened = true ∧ s.tlsRefusal c.val res = some why))
  | 14 => decide ((s.acts .session) ∧ (res.offer = some o ∧ (s.tlsKey c.val).map (fun y => tlsPick y.alg o) = some 0))
  | 15 => decide ((s.acts .session) ∧ (ready 0x11 ∧ opened = false))
  | 16 => decide ((s.acts .session) ∧ (ready 0x12 ∧ opened = false))
  | 17 => decide ((s.acts .session) ∧ (ready 0x13 ∧ opened = false))
  | 18 => decide ((s.acts .session) ∧ (s.nextJob false = none))
  | 19 => decide ((s.acts .session) ∧ (s.nextJob true = none))
  | 20 => decide ((s.acts .session))
  | 21 => decide ((s.acts .session))
  | 22 => decide ((s.acts .session) ∧ (s.reached (Tab.get (fun _ => none) s.ses.due c.val) = true))
  | 23 => decide ((s.acts .session) ∧ (s.reached (Tab.get (fun _ => none) s.ses.due c.val) = false))
  | _ => decide ((s.acts .session))
theorem test_meets_SessionJobsRunAndCompleteInOrder :
    hypSessionJobsRunAndCompleteInOrder (((((((((((((((State.reset).setFlag Reg.SES_CTRL F.SES_CTRL_RUN true).setFlag (Reg.SES_CH_CTRL 2) F.SES_CH_CTRL_EN true).setFld (Reg.SES_CH_CTRL 2) F.SES_CH_CTRL_PROTO 1).wr (Reg.SES_JOB_BASE 2) 0x01000100).setFld (Reg.SES_JOB_CFG 2) F.SES_JOB_CFG_LEN 4).setFlag (Reg.SES_JOB_CFG 2) F.SES_JOB_CFG_EN true).setFld (Reg.SES_JOB_CFG 2) F.SES_JOB_CFG_HEAD 1).putNum 0x01000100 4 0x201).putNum 0x01000104 4 0x01001000).putNum 0x01000108 4 4).putNum 0x0100010C 4 0x01002000).putNum 0x01000110 4 200).putNum 0x01000114 4 0x01003000).putNum 0x01000118 4 100) 2 0 ⟨0, 0, [], [], 0, false, false, none, []⟩ (0, 0) ⟨false, false, [], [], []⟩ 1 = true ∧
    hypSessionJobsRunAndCompleteInOrder (((((((((((((((State.reset).setFlag Reg.SES_CTRL F.SES_CTRL_RUN true).setFlag (Reg.SES_CH_CTRL 2) F.SES_CH_CTRL_EN true).setFld (Reg.SES_CH_CTRL 2) F.SES_CH_CTRL_PROTO 1).wr (Reg.SES_JOB_BASE 2) 0x01000100).setFld (Reg.SES_JOB_CFG 2) F.SES_JOB_CFG_LEN 4).setFlag (Reg.SES_JOB_CFG 2) F.SES_JOB_CFG_EN true).setFld (Reg.SES_JOB_CFG 2) F.SES_JOB_CFG_HEAD 1).putNum 0x01000100 4 0x301).putNum 0x01000104 4 0x01001000).putNum 0x01000108 4 4).putNum 0x0100010C 4 0x01002000).putNum 0x01000110 4 200).putNum 0x01000114 4 0x01003000).putNum 0x01000118 4 100) 2 0 ⟨0, 0, [], [], 0, false, false, none, []⟩ (0, 0) ⟨false, false, [], [], []⟩ 2 = true ∧
    hypSessionJobsRunAndCompleteInOrder (((((((((((((((State.reset).setFlag Reg.SES_CTRL F.SES_CTRL_RUN true).setFlag (Reg.SES_CH_CTRL 2) F.SES_CH_CTRL_EN true).setFld (Reg.SES_CH_CTRL 2) F.SES_CH_CTRL_PROTO 1).wr (Reg.SES_JOB_BASE 2) 0x01000100).setFld (Reg.SES_JOB_CFG 2) F.SES_JOB_CFG_LEN 4).setFlag (Reg.SES_JOB_CFG 2) F.SES_JOB_CFG_EN true).setFld (Reg.SES_JOB_CFG 2) F.SES_JOB_CFG_HEAD 1).putNum 0x01000100 4 0x1201).putNum 0x01000104 4 0x01001000).putNum 0x01000108 4 4).putNum 0x0100010C 4 0x01002000).putNum 0x01000110 4 200).putNum 0x01000114 4 0x01003000).putNum 0x01000118 4 100) 2 0 ⟨0, 0, [], [], 0, false, false, none, []⟩ (0, 0) ⟨false, false, [], [], []⟩ 3 = true ∧
    hypSessionJobsRunAndCompleteInOrder (((((((((((((((State.reset).setFlag Reg.SES_CTRL F.SES_CTRL_RUN true).setFlag (Reg.SES_CH_CTRL 2) F.SES_CH_CTRL_EN true).setFld (Reg.SES_CH_CTRL 2) F.SES_CH_CTRL_PROTO 1).wr (Reg.SES_JOB_BASE 2) 0x01000100).setFld (Reg.SES_JOB_CFG 2) F.SES_JOB_CFG_LEN 4).setFlag (Reg.SES_JOB_CFG 2) F.SES_JOB_CFG_EN true).setFld (Reg.SES_JOB_CFG 2) F.SES_JOB_CFG_HEAD 1).putNum 0x01000100 4 0x2202).putNum 0x01000104 4 0x01001000).putNum 0x01000108 4 4).putNum 0x0100010C 4 0x01002000).putNum 0x01000110 4 200).putNum 0x01000114 4 0x01003000).putNum 0x01000118 4 100) 2 0 ⟨0, 0, [], [], 0, false, false, none, []⟩ (0, 0) ⟨false, false, [], [], []⟩ 4 = true ∧
    hypSessionJobsRunAndCompleteInOrder State.reset 0 0 ⟨0, 0, [], [], 0, false, false, none, []⟩ (0, 0) ⟨false, false, [], [], []⟩ 5 = true ∧
    hypSessionJobsRunAndCompleteInOrder (((((((((((((((State.reset).setFlag Reg.SES_CTRL F.SES_CTRL_RUN true).setFlag (Reg.SES_CH_CTRL 2) F.SES_CH_CTRL_EN true).setFld (Reg.SES_CH_CTRL 2) F.SES_CH_CTRL_PROTO 1).wr (Reg.SES_JOB_BASE 2) 0x01000100).setFld (Reg.SES_JOB_CFG 2) F.SES_JOB_CFG_LEN 4).setFlag (Reg.SES_JOB_CFG 2) F.SES_JOB_CFG_EN true).setFld (Reg.SES_JOB_CFG 2) F.SES_JOB_CFG_HEAD 1).putNum 0x01000100 4 0x303).putNum 0x01000104 4 0x01001000).putNum 0x01000108 4 4).putNum 0x0100010C 4 0x01002000).putNum 0x01000110 4 200).putNum 0x01000114 4 0x01003000).putNum 0x01000118 4 100) 2 0 ⟨0, 0, [], [], 0, false, false, none, []⟩ (0, 0) ⟨false, false, [], [], []⟩ 6 = true ∧
    hypSessionJobsRunAndCompleteInOrder (((((((((((((((State.reset).setFlag Reg.SES_CTRL F.SES_CTRL_RUN true).setFlag (Reg.SES_CH_CTRL 2) F.SES_CH_CTRL_EN true).setFld (Reg.SES_CH_CTRL 2) F.SES_CH_CTRL_PROTO 1).wr (Reg.SES_JOB_BASE 2) 0x01000100).setFld (Reg.SES_JOB_CFG 2) F.SES_JOB_CFG_LEN 4).setFlag (Reg.SES_JOB_CFG 2) F.SES_JOB_CFG_EN true).setFld (Reg.SES_JOB_CFG 2) F.SES_JOB_CFG_HEAD 1).putNum 0x01000100 4 0x10).putNum 0x01000104 4 0x01001000).putNum 0x01000108 4 4).putNum 0x0100010C 4 0x01002000).putNum 0x01000110 4 200).putNum 0x01000114 4 0x01003000).putNum 0x01000118 4 100) 2 0 ⟨0, 0, [1, 2], [3], 9, true, true, none, []⟩ (0, 0) ⟨false, false, [], [], []⟩ 7 = true ∧
    hypSessionJobsRunAndCompleteInOrder ((((((((((((((((State.reset).setFlag Reg.SES_CTRL F.SES_CTRL_RUN true).setFlag (Reg.SES_CH_CTRL 2) F.SES_CH_CTRL_EN true).setFld (Reg.SES_CH_CTRL 2) F.SES_CH_CTRL_PROTO 1).wr (Reg.SES_JOB_BASE 2) 0x01000100).setFld (Reg.SES_JOB_CFG 2) F.SES_JOB_CFG_LEN 4).setFlag (Reg.SES_JOB_CFG 2) F.SES_JOB_CFG_EN true).setFld (Reg.SES_JOB_CFG 2) F.SES_JOB_CFG_HEAD 1).putNum 0x01000100 4 0x11).putNum 0x01000104 4 0x01001000).putNum 0x01000108 4 4).putNum 0x0100010C 4 0x01002000).putNum 0x01000110 4 200).putNum 0x01000114 4 0x01003000).putNum 0x01000118 4 100).setFlag (Reg.SES_STAT 2) F.SES_STAT_TLS_OPEN true) 2 0 ⟨0, 0, [1, 2], [3], 9, true, true, none, []⟩ (0, 0) ⟨false, false, [], [], []⟩ 8 = true ∧
    hypSessionJobsRunAndCompleteInOrder ((((((((((((((((State.reset).setFlag Reg.SES_CTRL F.SES_CTRL_RUN true).setFlag (Reg.SES_CH_CTRL 2) F.SES_CH_CTRL_EN true).setFld (Reg.SES_CH_CTRL 2) F.SES_CH_CTRL_PROTO 1).wr (Reg.SES_JOB_BASE 2) 0x01000100).setFld (Reg.SES_JOB_CFG 2) F.SES_JOB_CFG_LEN 4).setFlag (Reg.SES_JOB_CFG 2) F.SES_JOB_CFG_EN true).setFld (Reg.SES_JOB_CFG 2) F.SES_JOB_CFG_HEAD 1).putNum 0x01000100 4 0x11).putNum 0x01000104 4 0x01001000).putNum 0x01000108 4 4).putNum 0x0100010C 4 0x01002000).putNum 0x01000110 4 200).putNum 0x01000114 4 0x01003000).putNum 0x01000118 4 100).setFlag (Reg.SES_STAT 2) F.SES_STAT_TLS_OPEN true) 2 0 ⟨0, 0, List.replicate 201 0, [3], 9, true, true, none, []⟩ (0, 0) ⟨false, false, [], [], []⟩ 9 = true ∧
    hypSessionJobsRunAndCompleteInOrder ((((((((((((((((State.reset).setFlag Reg.SES_CTRL F.SES_CTRL_RUN true).setFlag (Reg.SES_CH_CTRL 2) F.SES_CH_CTRL_EN true).setFld (Reg.SES_CH_CTRL 2) F.SES_CH_CTRL_PROTO 1).wr (Reg.SES_JOB_BASE 2) 0x01000100).setFld (Reg.SES_JOB_CFG 2) F.SES_JOB_CFG_LEN 4).setFlag (Reg.SES_JOB_CFG 2) F.SES_JOB_CFG_EN true).setFld (Reg.SES_JOB_CFG 2) F.SES_JOB_CFG_HEAD 1).putNum 0x01000100 4 0x12).putNum 0x01000104 4 0x01001000).putNum 0x01000108 4 4).putNum 0x0100010C 4 0x01002000).putNum 0x01000110 4 200).putNum 0x01000114 4 0x01003000).putNum 0x01000118 4 100).setFlag (Reg.SES_STAT 2) F.SES_STAT_TLS_OPEN true) 2 0 ⟨0, 0, [1, 2], [3], 9, true, true, none, []⟩ (0, 0) ⟨false, false, [], [], []⟩ 10 = true ∧
    hypSessionJobsRunAndCompleteInOrder ((((((((((((((((State.reset).setFlag Reg.SES_CTRL F.SES_CTRL_RUN true).setFlag (Reg.SES_CH_CTRL 2) F.SES_CH_CTRL_EN true).setFld (Reg.SES_CH_CTRL 2) F.SES_CH_CTRL_PROTO 1).wr (Reg.SES_JOB_BASE 2) 0x01000100).setFld (Reg.SES_JOB_CFG 2) F.SES_JOB_CFG_LEN 4).setFlag (Reg.SES_JOB_CFG 2) F.SES_JOB_CFG_EN true).setFld (Reg.SES_JOB_CFG 2) F.SES_JOB_CFG_HEAD 1).putNum 0x01000100 4 0x13).putNum 0x01000104 4 0x01001000).putNum 0x01000108 4 4).putNum 0x0100010C 4 0x01002000).putNum 0x01000110 4 200).putNum 0x01000114 4 0x01003000).putNum 0x01000118 4 100).setFlag (Reg.SES_STAT 2) F.SES_STAT_TLS_OPEN true) 2 0 ⟨0, 0, [1, 2], [3], 9, true, true, none, []⟩ (0, 0) ⟨false, false, [], [], []⟩ 11 = true ∧
    hypSessionJobsRunAndCompleteInOrder ((((((((((((((((State.reset).setFlag Reg.SES_CTRL F.SES_CTRL_RUN true).setFlag (Reg.SES_CH_CTRL 2) F.SES_CH_CTRL_EN true).setFld (Reg.SES_CH_CTRL 2) F.SES_CH_CTRL_PROTO 1).wr (Reg.SES_JOB_BASE 2) 0x01000100).setFld (Reg.SES_JOB_CFG 2) F.SES_JOB_CFG_LEN 4).setFlag (Reg.SES_JOB_CFG 2) F.SES_JOB_CFG_EN true).setFld (Reg.SES_JOB_CFG 2) F.SES_JOB_CFG_HEAD 1).putNum 0x01000100 4 0x10).putNum 0x01000104 4 0x01001000).putNum 0x01000108 4 4).putNum 0x0100010C 4 0x01002000).putNum 0x01000110 4 200).putNum 0x01000114 4 0x01003000).putNum 0x01000118 4 100).setKs { KeyStore.reset with slot := [(0, some (wKey 0x11 32))] }) 2 0 ⟨0, 0, [1, 2], [3], 9, true, true, some ⟨true, false, [0x1303], [0x18], [0x0403]⟩, []⟩ (0x21, 40) ⟨false, false, [], [], []⟩ 12 = true ∧
    hypSessionJobsRunAndCompleteInOrder ((((((((((((((((((State.reset).setFlag Reg.SES_CTRL F.SES_CTRL_RUN true).setFlag (Reg.SES_CH_CTRL 2) F.SES_CH_CTRL_EN true).setFld (Reg.SES_CH_CTRL 2) F.SES_CH_CTRL_PROTO 1).wr (Reg.SES_JOB_BASE 2) 0x01000100).setFld (Reg.SES_JOB_CFG 2) F.SES_JOB_CFG_LEN 4).setFlag (Reg.SES_JOB_CFG 2) F.SES_JOB_CFG_EN true).setFld (Reg.SES_JOB_CFG 2) F.SES_JOB_CFG_HEAD 1).putNum 0x01000100 4 0x11).putNum 0x01000104 4 0x01001000).putNum 0x01000108 4 4).putNum 0x0100010C 4 0x01002000).putNum 0x01000110 4 200).putNum 0x01000114 4 0x01003000).putNum 0x01000118 4 100).setFlag (Reg.SES_STAT 2) F.SES_STAT_TLS_OPEN true).setFld (Reg.SES_STAT 2) F.SES_STAT_TLS_VER 2).setFlag (Reg.SES_TLS 2) F.SES_TLS_CLIENT_AUTH true) 2 0 ⟨0, 0, [1, 2], [3], 9, true, true, none, [⟨[1], [2], false, [], [], 0, 0⟩]⟩ (0x22, 1) ⟨false, false, [], [], []⟩ 13 = true ∧
    hypSessionJobsRunAndCompleteInOrder ((((((((((((((((State.reset).setFlag Reg.SES_CTRL F.SES_CTRL_RUN true).setFlag (Reg.SES_CH_CTRL 2) F.SES_CH_CTRL_EN true).setFld (Reg.SES_CH_CTRL 2) F.SES_CH_CTRL_PROTO 1).wr (Reg.SES_JOB_BASE 2) 0x01000100).setFld (Reg.SES_JOB_CFG 2) F.SES_JOB_CFG_LEN 4).setFlag (Reg.SES_JOB_CFG 2) F.SES_JOB_CFG_EN true).setFld (Reg.SES_JOB_CFG 2) F.SES_JOB_CFG_HEAD 1).putNum 0x01000100 4 0x10).putNum 0x01000104 4 0x01001000).putNum 0x01000108 4 4).putNum 0x0100010C 4 0x01002000).putNum 0x01000110 4 200).putNum 0x01000114 4 0x01003000).putNum 0x01000118 4 100).setKs { KeyStore.reset with slot := [(0, some (wKey 0x11 32))] }) 2 0 ⟨0, 0, [1, 2], [3], 9, true, true, some ⟨true, false, [0x1303], [0x18], [0x0403]⟩, []⟩ (0, 0) ⟨true, false, [0x1303], [0x18], [0x0403]⟩ 14 = true ∧
    hypSessionJobsRunAndCompleteInOrder (((((((((((((((State.reset).setFlag Reg.SES_CTRL F.SES_CTRL_RUN true).setFlag (Reg.SES_CH_CTRL 2) F.SES_CH_CTRL_EN true).setFld (Reg.SES_CH_CTRL 2) F.SES_CH_CTRL_PROTO 1).wr (Reg.SES_JOB_BASE 2) 0x01000100).setFld (Reg.SES_JOB_CFG 2) F.SES_JOB_CFG_LEN 4).setFlag (Reg.SES_JOB_CFG 2) F.SES_JOB_CFG_EN true).setFld (Reg.SES_JOB_CFG 2) F.SES_JOB_CFG_HEAD 1).putNum 0x01000100 4 0x11).putNum 0x01000104 4 0x01001000).putNum 0x01000108 4 4).putNum 0x0100010C 4 0x01002000).putNum 0x01000110 4 200).putNum 0x01000114 4 0x01003000).putNum 0x01000118 4 100) 2 0 ⟨0, 0, [1, 2], [3], 9, true, true, none, []⟩ (0, 0) ⟨false, false, [], [], []⟩ 15 = true ∧
    hypSessionJobsRunAndCompleteInOrder (((((((((((((((State.reset).setFlag Reg.SES_CTRL F.SES_CTRL_RUN true).setFlag (Reg.SES_CH_CTRL 2) F.SES_CH_CTRL_EN true).setFld (Reg.SES_CH_CTRL 2) F.SES_CH_CTRL_PROTO 1).wr (Reg.SES_JOB_BASE 2) 0x01000100).setFld (Reg.SES_JOB_CFG 2) F.SES_JOB_CFG_LEN 4).setFlag (Reg.SES_JOB_CFG 2) F.SES_JOB_CFG_EN true).setFld (Reg.SES_JOB_CFG 2) F.SES_JOB_CFG_HEAD 1).putNum 0x01000100 4 0x12).putNum 0x01000104 4 0x01001000).putNum 0x01000108 4 4).putNum 0x0100010C 4 0x01002000).putNum 0x01000110 4 200).putNum 0x01000114 4 0x01003000).putNum 0x01000118 4 100) 2 0 ⟨0, 0, [1, 2], [3], 9, true, true, none, []⟩ (0, 0) ⟨false, false, [], [], []⟩ 16 = true ∧
    hypSessionJobsRunAndCompleteInOrder (((((((((((((((State.reset).setFlag Reg.SES_CTRL F.SES_CTRL_RUN true).setFlag (Reg.SES_CH_CTRL 2) F.SES_CH_CTRL_EN true).setFld (Reg.SES_CH_CTRL 2) F.SES_CH_CTRL_PROTO 1).wr (Reg.SES_JOB_BASE 2) 0x01000100).setFld (Reg.SES_JOB_CFG 2) F.SES_JOB_CFG_LEN 4).setFlag (Reg.SES_JOB_CFG 2) F.SES_JOB_CFG_EN true).setFld (Reg.SES_JOB_CFG 2) F.SES_JOB_CFG_HEAD 1).putNum 0x01000100 4 0x13).putNum 0x01000104 4 0x01001000).putNum 0x01000108 4 4).putNum 0x0100010C 4 0x01002000).putNum 0x01000110 4 200).putNum 0x01000114 4 0x01003000).putNum 0x01000118 4 100) 2 0 ⟨0, 0, [1, 2], [3], 9, true, true, none, []⟩ (0, 0) ⟨false, false, [], [], []⟩ 17 = true ∧
    hypSessionJobsRunAndCompleteInOrder State.reset 0 0 ⟨0, 0, [], [], 0, false, false, none, []⟩ (0, 0) ⟨false, false, [], [], []⟩ 18 = true ∧
    hypSessionJobsRunAndCompleteInOrder State.reset 0 0 ⟨0, 0, [1, 2], [3], 9, true, true, none, []⟩ (0, 0) ⟨false, false, [], [], []⟩ 19 = true ∧
    hypSessionJobsRunAndCompleteInOrder ((((((((((((((((State.reset).setFlag Reg.SES_CTRL F.SES_CTRL_RUN true).setFlag (Reg.SES_CH_CTRL 2) F.SES_CH_CTRL_EN true).setFld (Reg.SES_CH_CTRL 2) F.SES_CH_CTRL_PROTO 1).wr (Reg.SES_JOB_BASE 2) 0x01000100).setFld (Reg.SES_JOB_CFG 2) F.SES_JOB_CFG_LEN 4).setFlag (Reg.SES_JOB_CFG 2) F.SES_JOB_CFG_EN true).setFld (Reg.SES_JOB_CFG 2) F.SES_JOB_CFG_HEAD 1).putNum 0x01000100 4 0x13).putNum 0x01000104 4 0x01001000).putNum 0x01000108 4 4).putNum 0x0100010C 4 0x01002000).putNum 0x01000110 4 200).putNum 0x01000114 4 0x01003000).putNum 0x01000118 4 100).setFlag (Reg.SES_STAT 2) F.SES_STAT_TLS_OPEN true) 2 0 ⟨0, 0, [], [], 0, false, false, none, []⟩ (0, 0) ⟨false, false, [], [], []⟩ 20 = true ∧
    hypSessionJobsRunAndCompleteInOrder State.reset 2 0 ⟨0, 0, [], [], 0, false, false, none, []⟩ (0, 0) ⟨false, false, [], [], []⟩ 21 = true ∧
    hypSessionJobsRunAndCompleteInOrder (wNow 3 State.reset) 2 0 ⟨0, 0, [], [], 0, false, false, none, []⟩ (0, 0) ⟨false, false, [], [], []⟩ 21 = true ∧
    hypSessionJobsRunAndCompleteInOrder (State.reset.setSes { Session.reset with due := [(2, some 0)] }) 2 0 ⟨0, 0, [], [], 0, false, false, none, []⟩ (0, 0) ⟨false, false, [], [], []⟩ 22 = true ∧
    hypSessionJobsRunAndCompleteInOrder State.reset 2 0 ⟨0, 0, [], [], 0, false, false, none, []⟩ (0, 0) ⟨false, false, [], [], []⟩ 23 = true ∧
    hypSessionJobsRunAndCompleteInOrder ((State.reset).setFlag (Reg.SES_STAT 2) F.SES_STAT_TLS_OPEN true) 0 0 ⟨0, 0, [], [], 0, false, false, none, []⟩ (0, 0) ⟨false, false, [], [], []⟩ 24 = true := by
  and_intros <;> decide +kernel

/-- The hypotheses of TemperaturesShutOutletsDown, clause by clause. -/
def hypTemperaturesShutOutletsDown (s : State) (n : Fin 64) (o : Fin 8) (r : BitVec 20) (data : Word) (v : BitVec 16) (u : Nat) (clause : Nat) : Bool :=
  let x := s.sensor n.val
  let on := s.tsOn n.val = true
  let brk := s.tsFlag n.val F.TS_VAL_BROKEN
  let low := r.toNat * 50 < 2 ^ 20 ∨ 49 * 2 ^ 20 < r.toNat * 50
  let loop := s.tsLoop n.val
  let nb := s.neighbours n.val
  let cares := s.concerns n.val o.val = true ∧ s.cblOn o.val = true
  let shut := fun (t : State) => t.cblFlag o.val F.CBL_STATE_SHUT = true
  let cool := s.coolTs o.val
  let full := s.cblOn o.val = true ∧ 1000 ≤ (s.cable o.val).seen
  let ain := s.fld (Reg.OUTL_CFG o.val) F.OUTL_CFG_I_AIN
  let rth := s.fld (Reg.CBL_RTH o.val) F.CBL_RTH_RTH
  let cth := s.fld (Reg.CBL_CTH o.val) F.CBL_CTH_CTH
  let hold := (if s.fld Reg.TH_CTRL F.TH_CTRL_HOLD_S = 0 then 1 else s.fld Reg.TH_CTRL F.TH_CTRL_HOLD_S) * ticksPerS
  let ready := s.cblFlag o.val F.CBL_STATE_READY
  let warn := signed 16 (s.rd Reg.TH_TJ).toNat
  let tj := signed 16 v.toNat
  let pass := 495 * 2 ^ 20 ≤ r.toNat * 1000 ∧ r.toNat * 1000 ≤ 505 * 2 ^ 20
  match clause with
  | 1 => decide ((s.acts .thermal ∧ s.thOn = true) ∧ (on ∧ low ∧ 1 ≤ x.bad))
  | 2 => decide ((s.acts .thermal ∧ s.thOn = true) ∧ (on ∧ low ∧ x.bad = 0 ∧ brk = false))
  | 3 => decide ((s.acts .thermal ∧ s.thOn = true) ∧ (on ∧ low ∧ 1 ≤ x.bad ∧ loop = false ∧ cares ∧ ¬shut s))
  | 4 => decide ((s.acts .thermal ∧ s.thOn = true) ∧ (on ∧ low ∧ 1 ≤ x.bad ∧ loop = true ∧ 2 ≤ nb.length ∧ within (s.tsTol n.val) nb = true ∧ -32768 ≤ median nb ∧ median nb < s.tsShut n.val))
  | 5 => decide ((s.acts .thermal ∧ s.thOn = true) ∧ (on ∧ brk = false ∧ loop = false))
  | 6 => decide ((s.acts .thermal ∧ s.thOn = true) ∧ (s.cblOn o.val = true ∧ (s.cable o.val).seen < 1000))
  | 7 => decide ((s.acts .thermal ∧ s.thOn = true) ∧ (s.stale ain = true))
  | 8 => decide ((s.acts .thermal ∧ s.thOn = true) ∧ (s.stale ain = false))
  | 9 => decide ((s.acts .thermal ∧ s.thOn = true) ∧ (full ∧ s.tsUsable cool = true ∧ rth ≠ 0 ∧ cth ≠ 0))
  | 10 => decide ((s.acts .thermal ∧ s.thOn = true) ∧ (full ∧ s.tsOn cool = true ∧ s.tsFlag cool F.TS_VAL_BROKEN = true ∧ s.tsFlag cool F.TS_VAL_SUBST = false ∧ ¬shut s))
  | 11 => decide ((s.acts .thermal ∧ s.thOn = true) ∧ (shut s ∧ ready = false ∧ (s.cable o.val).holdAt = some u ∧ u + hold ≤ s.now))
  | 12 => decide ((s.acts .thermal ∧ s.thOn = true) ∧ ((s.cable o.val).holdAt = none))
  | 13 => decide ((s.acts .thermal ∧ s.thOn = true) ∧ (ready = true))
  | 14 => decide ((s.acts .thermal ∧ s.thOn = true) ∧ (ready = false))
  | 15 => decide ((s.acts .thermal ∧ s.thOn = true) ∧ (s.cblOn o.val = false ∧ F.CBL_CFG_EN.get data = 1 ∧ (s.cable o.val).kept = false))
  | 16 => decide ((s.acts .thermal ∧ s.thOn = true) ∧ (s.cblOn o.val = true ∧ F.CBL_CFG_EN.get data = 0))
  | 17 => decide ((s.acts .thermal ∧ s.thOn = true) ∧ (warn ≤ tj ∧ tj < 1300))
  | 18 => decide ((s.acts .thermal ∧ s.thOn = true) ∧ (1300 ≤ tj ∧ tj < warn ∧ s.thermal.coolAt = none))
  | 19 => decide ((s.acts .thermal ∧ s.thOn = true) ∧ (1300 ≤ tj ∧ warn ≤ tj))
  | 20 => decide ((s.acts .thermal ∧ s.thOn = true) ∧ (¬pass))
  | _ => decide ((s.acts .thermal ∧ s.thOn = true) ∧ (pass ∧ s.thermal.passAt = none))
theorem test_meets_TemperaturesShutOutletsDown :
    hypTemperaturesShutOutletsDown (((((((((State.reset).setFlag Reg.TH_CTRL F.TH_CTRL_EN true).setFlag (Reg.TS_CFG 5) F.TS_CFG_EN true).setFld (Reg.TS_CFG 5) F.TS_CFG_OUTM 4).setFlag (Reg.CBL_CFG 2) F.CBL_CFG_EN true).setFld (Reg.CBL_LIMIT 2) F.CBL_LIMIT_ENF 700).setFld (Reg.CBL_LIMIT 2) F.CBL_LIMIT_DA 700).setFld (Reg.TS_LIM 5) F.TS_LIM_SHUT 900).setSensor 5 { Sensor.reset with bad := 1 }) 5 0 20971 0 0 0 1 = true ∧
    hypTemperaturesShutOutletsDown (((((((((State.reset).setFlag Reg.TH_CTRL F.TH_CTRL_EN true).setFlag (Reg.TS_CFG 5) F.TS_CFG_EN true).setFld (Reg.TS_CFG 5) F.TS_CFG_OUTM 4).setFlag (Reg.CBL_CFG 2) F.CBL_CFG_EN true).setFld (Reg.CBL_LIMIT 2) F.CBL_LIMIT_ENF 700).setFld (Reg.CBL_LIMIT 2) F.CBL_LIMIT_DA 700).setFld (Reg.TS_LIM 5) F.TS_LIM_SHUT 900).setSensor 5 { Sensor.reset with good := 1 }) 5 0 1027605 0 0 0 2 = true ∧
    hypTemperaturesShutOutletsDown (((((((((State.reset).setFlag Reg.TH_CTRL F.TH_CTRL_EN true).setFlag (Reg.TS_CFG 5) F.TS_CFG_EN true).setFld (Reg.TS_CFG 5) F.TS_CFG_OUTM 4).setFlag (Reg.CBL_CFG 2) F.CBL_CFG_EN true).setFld (Reg.CBL_LIMIT 2) F.CBL_LIMIT_ENF 700).setFld (Reg.CBL_LIMIT 2) F.CBL_LIMIT_DA 700).setFld (Reg.TS_LIM 5) F.TS_LIM_SHUT 900).setSensor 5 { Sensor.reset with bad := 1 }) 5 2 0 0 0 0 3 = true ∧
    hypTemperaturesShutOutletsDown (((((((((((((((((State.reset).setFlag Reg.TH_CTRL F.TH_CTRL_EN true).setFlag (Reg.TS_CFG 5) F.TS_CFG_EN true).setFld (Reg.TS_CFG 5) F.TS_CFG_OUTM 4).setFlag (Reg.CBL_CFG 2) F.CBL_CFG_EN true).setFld (Reg.CBL_LIMIT 2) F.CBL_LIMIT_ENF 700).setFld (Reg.CBL_LIMIT 2) F.CBL_LIMIT_DA 700).setFld (Reg.TS_LIM 5) F.TS_LIM_SHUT 900).setSensor 5 { Sensor.reset with bad := 1 }).setFlag (Reg.TS_CFG 6) F.TS_CFG_EN true).setFlag (Reg.TS_CFG 7) F.TS_CFG_EN true).setSensor 6 { Sensor.reset with reading := some 400 }).setSensor 7 { Sensor.reset with reading := some 410 }).setFld (Reg.TS_NBR 5) F.TS_NBR_NCNT 2).setFld (Reg.TS_NBR 5) F.TS_NBR_NBR (6 + 7 * 64)).setFld (Reg.TS_LIM2 5) F.TS_LIM2_TOL 20).setFlag (Reg.TS_CFG 5) F.TS_CFG_CLASS true) 5 2 0 0 0 0 4 = true ∧
    hypTemperaturesShutOutletsDown ((((((((State.reset).setFlag Reg.TH_CTRL F.TH_CTRL_EN true).setFlag (Reg.TS_CFG 5) F.TS_CFG_EN true).setFld (Reg.TS_CFG 5) F.TS_CFG_OUTM 4).setFlag (Reg.CBL_CFG 2) F.CBL_CFG_EN true).setFld (Reg.CBL_LIMIT 2) F.CBL_LIMIT_ENF 700).setFld (Reg.CBL_LIMIT 2) F.CBL_LIMIT_DA 700).setFld (Reg.TS_LIM 5) F.TS_LIM_SHUT 900) 5 2 500000 0 0 0 5 = true ∧
    hypTemperaturesShutOutletsDown (((((((((((((((State.reset).setFlag Reg.TH_CTRL F.TH_CTRL_EN true).setFlag (Reg.TS_CFG 5) F.TS_CFG_EN true).setFld (Reg.TS_CFG 5) F.TS_CFG_OUTM 4).setFlag (Reg.CBL_CFG 2) F.CBL_CFG_EN true).setFld (Reg.CBL_LIMIT 2) F.CBL_LIMIT_ENF 700).setFld (Reg.CBL_LIMIT 2) F.CBL_LIMIT_DA 700).setFld (Reg.TS_LIM 5) F.TS_LIM_SHUT 900).setSensor 5 { Sensor.reset with reading := some 300 }).setFld (Reg.TS_VAL 5) F.TS_VAL_T 300).setFld (Reg.CBL_CFG 2) F.CBL_CFG_COOL_TS 5).wr (Reg.CBL_RTH 2) 100000).setFld (Reg.CBL_CTH 2) F.CBL_CTH_CTH 900).wr (Reg.CBL_R20 2) 40000).setFld (Reg.CBL_CFG 2) F.CBL_CFG_ISCALE 3000) 0 2 0 0 0 0 6 = true ∧
    hypTemperaturesShutOutletsDown ((((((((State.reset).setFlag Reg.TH_CTRL F.TH_CTRL_EN true).setFlag (Reg.TS_CFG 5) F.TS_CFG_EN true).setFld (Reg.TS_CFG 5) F.TS_CFG_OUTM 4).setFlag (Reg.CBL_CFG 2) F.CBL_CFG_EN true).setFld (Reg.CBL_LIMIT 2) F.CBL_LIMIT_ENF 700).setFld (Reg.CBL_LIMIT 2) F.CBL_LIMIT_DA 700).setFld (Reg.TS_LIM 5) F.TS_LIM_SHUT 900) 0 2 0 0 0 0 7 = true ∧
    hypTemperaturesShutOutletsDown ((((((((((((State.reset).setFlag Reg.TH_CTRL F.TH_CTRL_EN true).setFlag (Reg.TS_CFG 5) F.TS_CFG_EN true).setFld (Reg.TS_CFG 5) F.TS_CFG_OUTM 4).setFlag (Reg.CBL_CFG 2) F.CBL_CFG_EN true).setFld (Reg.CBL_LIMIT 2) F.CBL_LIMIT_ENF 700).setFld (Reg.CBL_LIMIT 2) F.CBL_LIMIT_DA 700).setFld (Reg.TS_LIM 5) F.TS_LIM_SHUT 900).setFld (Reg.OUTL_CFG 2) F.OUTL_CFG_I_AIN 0).setFld (Reg.CBL_CFG 2) F.CBL_CFG_ISCALE 3000).wr (Reg.AIN_RES 0) 0xFFFF0000).setAin 0 ⟨some 0, 0⟩) 0 2 0 0 0 0 8 = true ∧
    hypTemperaturesShutOutletsDown (((((((((((((((((State.reset).setFlag Reg.TH_CTRL F.TH_CTRL_EN true).setFlag (Reg.TS_CFG 5) F.TS_CFG_EN true).setFld (Reg.TS_CFG 5) F.TS_CFG_OUTM 4).setFlag (Reg.CBL_CFG 2) F.CBL_CFG_EN true).setFld (Reg.CBL_LIMIT 2) F.CBL_LIMIT_ENF 700).setFld (Reg.CBL_LIMIT 2) F.CBL_LIMIT_DA 700).setFld (Reg.TS_LIM 5) F.TS_LIM_SHUT 900).setCable 2 { Cable.reset with mt := 50000000000, seen := 1000 }).setFld (Reg.CBL_MLIM 2) F.CBL_MLIM_MSHUT 400).setSensor 5 { Sensor.reset with reading := some 300 }).setFld (Reg.TS_VAL 5) F.TS_VAL_T 300).setFld (Reg.CBL_CFG 2) F.CBL_CFG_COOL_TS 5).wr (Reg.CBL_RTH 2) 100000).setFld (Reg.CBL_CTH 2) F.CBL_CTH_CTH 900).wr (Reg.CBL_R20 2) 40000).setFld (Reg.CBL_CFG 2) F.CBL_CFG_ISCALE 3000) 0 2 0 0 0 0 9 = true ∧
    hypTemperaturesShutOutletsDown ((((((((((((((((State.reset).setFlag Reg.TH_CTRL F.TH_CTRL_EN true).setFlag (Reg.TS_CFG 5) F.TS_CFG_EN true).setFld (Reg.TS_CFG 5) F.TS_CFG_OUTM 4).setFlag (Reg.CBL_CFG 2) F.CBL_CFG_EN true).setFld (Reg.CBL_LIMIT 2) F.CBL_LIMIT_ENF 700).setFld (Reg.CBL_LIMIT 2) F.CBL_LIMIT_DA 700).setFld (Reg.TS_LIM 5) F.TS_LIM_SHUT 900).setCable 2 { Cable.reset with seen := 1000, sum := 1000000 * 2 ^ 62 }).setSensor 5 { Sensor.reset with reading := some 300 }).setFld (Reg.TS_VAL 5) F.TS_VAL_T 300).setFld (Reg.CBL_CFG 2) F.CBL_CFG_COOL_TS 5).wr (Reg.CBL_RTH 2) 100000).setFld (Reg.CBL_CTH 2) F.CBL_CTH_CTH 900).wr (Reg.CBL_R20 2) 40000).setFld (Reg.CBL_CFG 2) F.CBL_CFG_ISCALE 3000) 0 2 0 0 0 0 9 = true ∧
    hypTemperaturesShutOutletsDown (((((((((((((((((State.reset).setFlag Reg.TH_CTRL F.TH_CTRL_EN true).setFlag (Reg.TS_CFG 5) F.TS_CFG_EN true).setFld (Reg.TS_CFG 5) F.TS_CFG_OUTM 4).setFlag (Reg.CBL_CFG 2) F.CBL_CFG_EN true).setFld (Reg.CBL_LIMIT 2) F.CBL_LIMIT_ENF 700).setFld (Reg.CBL_LIMIT 2) F.CBL_LIMIT_DA 700).setFld (Reg.TS_LIM 5) F.TS_LIM_SHUT 900).setCable 2 { Cable.reset with seen := 1000 }).setFlag (Reg.TS_VAL 5) F.TS_VAL_BROKEN true).setSensor 5 { Sensor.reset with reading := some 300 }).setFld (Reg.TS_VAL 5) F.TS_VAL_T 300).setFld (Reg.CBL_CFG 2) F.CBL_CFG_COOL_TS 5).wr (Reg.CBL_RTH 2) 100000).setFld (Reg.CBL_CTH 2) F.CBL_CTH_CTH 900).wr (Reg.CBL_R20 2) 40000).setFld (Reg.CBL_CFG 2) F.CBL_CFG_ISCALE 3000) 0 2 0 0 0 0 10 = true ∧
    hypTemperaturesShutOutletsDown (((((((((((State.reset).setFlag Reg.TH_CTRL F.TH_CTRL_EN true).setFlag (Reg.TS_CFG 5) F.TS_CFG_EN true).setFld (Reg.TS_CFG 5) F.TS_CFG_OUTM 4).setFlag (Reg.CBL_CFG 2) F.CBL_CFG_EN true).setFld (Reg.CBL_LIMIT 2) F.CBL_LIMIT_ENF 700).setFld (Reg.CBL_LIMIT 2) F.CBL_LIMIT_DA 700).setFld (Reg.TS_LIM 5) F.TS_LIM_SHUT 900).setFlag (Reg.CBL_STATE 2) F.CBL_STATE_SHUT true).setCable 2 { Cable.reset with holdAt := some 0 }).setNow 16000000000000) 0 2 0 0 0 0 11 = true ∧
    hypTemperaturesShutOutletsDown ((((((((State.reset).setFlag Reg.TH_CTRL F.TH_CTRL_EN true).setFlag (Reg.TS_CFG 5) F.TS_CFG_EN true).setFld (Reg.TS_CFG 5) F.TS_CFG_OUTM 4).setFlag (Reg.CBL_CFG 2) F.CBL_CFG_EN true).setFld (Reg.CBL_LIMIT 2) F.CBL_LIMIT_ENF 700).setFld (Reg.CBL_LIMIT 2) F.CBL_LIMIT_DA 700).setFld (Reg.TS_LIM 5) F.TS_LIM_SHUT 900) 0 0 0 0 0 0 12 = true ∧
    hypTemperaturesShutOutletsDown (((((((((State.reset).setFlag Reg.TH_CTRL F.TH_CTRL_EN true).setFlag (Reg.TS_CFG 5) F.TS_CFG_EN true).setFld (Reg.TS_CFG 5) F.TS_CFG_OUTM 4).setFlag (Reg.CBL_CFG 2) F.CBL_CFG_EN true).setFld (Reg.CBL_LIMIT 2) F.CBL_LIMIT_ENF 700).setFld (Reg.CBL_LIMIT 2) F.CBL_LIMIT_DA 700).setFld (Reg.TS_LIM 5) F.TS_LIM_SHUT 900).setFld (Reg.CBL_STATE 2) ⟨31, 30⟩ 3) 0 2 0 0 0 0 13 = true ∧
    hypTemperaturesShutOutletsDown (((((((((State.reset).setFlag Reg.TH_CTRL F.TH_CTRL_EN true).setFlag (Reg.TS_CFG 5) F.TS_CFG_EN true).setFld (Reg.TS_CFG 5) F.TS_CFG_OUTM 4).setFlag (Reg.CBL_CFG 2) F.CBL_CFG_EN true).setFld (Reg.CBL_LIMIT 2) F.CBL_LIMIT_ENF 700).setFld (Reg.CBL_LIMIT 2) F.CBL_LIMIT_DA 700).setFld (Reg.TS_LIM 5) F.TS_LIM_SHUT 900).setFlag (Reg.CBL_STATE 2) F.CBL_STATE_SHUT true) 0 2 0 0 0 0 14 = true ∧
    hypTemperaturesShutOutletsDown ((State.reset).setFlag Reg.TH_CTRL F.TH_CTRL_EN true) 0 0 0 0xFFFFFFFF 0 0 15 = true ∧
    hypTemperaturesShutOutletsDown ((((((((State.reset).setFlag Reg.TH_CTRL F.TH_CTRL_EN true).setFlag (Reg.TS_CFG 5) F.TS_CFG_EN true).setFld (Reg.TS_CFG 5) F.TS_CFG_OUTM 4).setFlag (Reg.CBL_CFG 2) F.CBL_CFG_EN true).setFld (Reg.CBL_LIMIT 2) F.CBL_LIMIT_ENF 700).setFld (Reg.CBL_LIMIT 2) F.CBL_LIMIT_DA 700).setFld (Reg.TS_LIM 5) F.TS_LIM_SHUT 900) 0 2 0 0 0 0 16 = true ∧
    hypTemperaturesShutOutletsDown (((((((((State.reset).setFlag Reg.TH_CTRL F.TH_CTRL_EN true).setFlag (Reg.TS_CFG 5) F.TS_CFG_EN true).setFld (Reg.TS_CFG 5) F.TS_CFG_OUTM 4).setFlag (Reg.CBL_CFG 2) F.CBL_CFG_EN true).setFld (Reg.CBL_LIMIT 2) F.CBL_LIMIT_ENF 700).setFld (Reg.CBL_LIMIT 2) F.CBL_LIMIT_DA 700).setFld (Reg.TS_LIM 5) F.TS_LIM_SHUT 900).wr Reg.TH_TJ 1100) 0 0 0 0 1100 0 17 = true ∧
    hypTemperaturesShutOutletsDown (((((((((State.reset).setFlag Reg.TH_CTRL F.TH_CTRL_EN true).setFlag (Reg.TS_CFG 5) F.TS_CFG_EN true).setFld (Reg.TS_CFG 5) F.TS_CFG_OUTM 4).setFlag (Reg.CBL_CFG 2) F.CBL_CFG_EN true).setFld (Reg.CBL_LIMIT 2) F.CBL_LIMIT_ENF 700).setFld (Reg.CBL_LIMIT 2) F.CBL_LIMIT_DA 700).setFld (Reg.TS_LIM 5) F.TS_LIM_SHUT 900).wr Reg.TH_TJ 1500) 0 0 0 0 1300 0 18 = true ∧
    hypTemperaturesShutOutletsDown (((((((((State.reset).setFlag Reg.TH_CTRL F.TH_CTRL_EN true).setFlag (Reg.TS_CFG 5) F.TS_CFG_EN true).setFld (Reg.TS_CFG 5) F.TS_CFG_OUTM 4).setFlag (Reg.CBL_CFG 2) F.CBL_CFG_EN true).setFld (Reg.CBL_LIMIT 2) F.CBL_LIMIT_ENF 700).setFld (Reg.CBL_LIMIT 2) F.CBL_LIMIT_DA 700).setFld (Reg.TS_LIM 5) F.TS_LIM_SHUT 900).wr Reg.TH_TJ 1100) 0 0 0 0 1300 0 19 = true ∧
    hypTemperaturesShutOutletsDown ((((((((State.reset).setFlag Reg.TH_CTRL F.TH_CTRL_EN true).setFlag (Reg.TS_CFG 5) F.TS_CFG_EN true).setFld (Reg.TS_CFG 5) F.TS_CFG_OUTM 4).setFlag (Reg.CBL_CFG 2) F.CBL_CFG_EN true).setFld (Reg.CBL_LIMIT 2) F.CBL_LIMIT_ENF 700).setFld (Reg.CBL_LIMIT 2) F.CBL_LIMIT_DA 700).setFld (Reg.TS_LIM 5) F.TS_LIM_SHUT 900) 0 2 519044 0 0 0 20 = true ∧
    hypTemperaturesShutOutletsDown ((((((((State.reset).setFlag Reg.TH_CTRL F.TH_CTRL_EN true).setFlag (Reg.TS_CFG 5) F.TS_CFG_EN true).setFld (Reg.TS_CFG 5) F.TS_CFG_OUTM 4).setFlag (Reg.CBL_CFG 2) F.CBL_CFG_EN true).setFld (Reg.CBL_LIMIT 2) F.CBL_LIMIT_ENF 700).setFld (Reg.CBL_LIMIT 2) F.CBL_LIMIT_DA 700).setFld (Reg.TS_LIM 5) F.TS_LIM_SHUT 900) 0 2 529531 0 0 0 20 = true ∧
    hypTemperaturesShutOutletsDown ((((((((State.reset).setFlag Reg.TH_CTRL F.TH_CTRL_EN true).setFlag (Reg.TS_CFG 5) F.TS_CFG_EN true).setFld (Reg.TS_CFG 5) F.TS_CFG_OUTM 4).setFlag (Reg.CBL_CFG 2) F.CBL_CFG_EN true).setFld (Reg.CBL_LIMIT 2) F.CBL_LIMIT_ENF 700).setFld (Reg.CBL_LIMIT 2) F.CBL_LIMIT_DA 700).setFld (Reg.TS_LIM 5) F.TS_LIM_SHUT 900) 0 0 519046 0 0 0 21 = true ∧
    hypTemperaturesShutOutletsDown ((((((((State.reset).setFlag Reg.TH_CTRL F.TH_CTRL_EN true).setFlag (Reg.TS_CFG 5) F.TS_CFG_EN true).setFld (Reg.TS_CFG 5) F.TS_CFG_OUTM 4).setFlag (Reg.CBL_CFG 2) F.CBL_CFG_EN true).setFld (Reg.CBL_LIMIT 2) F.CBL_LIMIT_ENF 700).setFld (Reg.CBL_LIMIT 2) F.CBL_LIMIT_DA 700).setFld (Reg.TS_LIM 5) F.TS_LIM_SHUT 900) 0 0 529530 0 0 0 21 = true := by
  and_intros <;> decide +kernel

/-- The hypotheses of ThermalLimitsThrottleAndFansAreWatched, clause by clause. -/
def hypThermalLimitsThrottleAndFansAreWatched (s : State) (o : Fin 8) (k : Fin 4) (u : Nat) (z : List Byte) (rest : List (List Byte)) (clause : Nat) : Bool :=
  let on := s.cblOn o.val = true
  let shut := s.cblFlag o.val F.CBL_STATE_SHUT
  let grace := max 500 (min 10000 (s.fld Reg.TH_CTRL F.TH_CTRL_GRACE)) * 16000000
  let held : List Nat := ((s.cable o.val).hist.filter (fun y => s.now < y.1 + grace)).map (fun y => y.2)
  let f := s.fan k.val
  let stat := Reg.FAN_STAT k.val
  let fmax := s.fld (Reg.FAN_TACH2 k.val) F.FAN_TACH2_FMAX
  let filt := s.fld (Reg.FAN_TACH k.val) F.FAN_TACH_FILT * 16000
  let ms := s.fld (Reg.FAN_TACH k.val) F.FAN_TACH_STALL_MS
  match clause with
  | 1 => decide ((s.acts .thermal) ∧ (s.thOn = true ∧ on ∧ shut = false))
  | 2 => decide ((s.acts .thermal) ∧ (s.thOn = true ∧ on ∧ shut = true))
  | 3 => decide ((s.acts .thermal) ∧ (s.thOn = true ∧ ¬on))
  | 4 => decide ((s.acts .thermal) ∧ (s.thOn = true ∧ s.acts .session))
  | 5 => decide ((s.acts .thermal) ∧ (s.thOn = true ∧ s.acts .twill ∧ (∀ y ∈ held, y ≤ 0xFFFF)))
  | 6 => decide ((s.acts .thermal) ∧ (f.edge = some u ∧ filt ≤ s.now - u ∧ fmax * (s.now - u) < ticksPerS ∧ s.flag stat F.FAN_STAT_STUCK = false))
  | 7 => decide ((s.acts .thermal) ∧ (f.edge = some u ∧ s.now - u < filt))
  | 8 => decide ((s.acts .thermal) ∧ (f.edge = some u ∧ filt ≤ s.now - u ∧ ticksPerS ≤ fmax * (s.now - u)))
  | 9 => decide ((s.acts .thermal) ∧ (f.edge = none))
  | 10 => decide ((s.acts .thermal) ∧ (f.edge = some u ∧ u + ticksPerS ≤ s.now))
  | 11 => decide ((s.acts .thermal) ∧ ((f.lowAt = some u) ∧ s.fld stat F.FAN_STAT_RPM < s.fld (Reg.FAN_TACH2 k.val) F.FAN_TACH2_SPD_MIN ∧ s.flag (Reg.FAN_CFG k.val) F.FAN_CFG_EN = true ∧ s.fld (Reg.FAN_DLIM k.val) F.FAN_DLIM_DMIN ≤ s.fanDuty k.val ∧ ms ≠ 0 ∧ u + ms * 16000000 ≤ s.now ∧ s.flag stat F.FAN_STAT_STALL = false))
  | 12 => decide ((s.acts .thermal) ∧ (ms = 0))
  | _ => decide ((s.acts .thermal) ∧ (s.domUp 4 = true ∧ s.ledger.down = false ∧ s.acts .eventStore ∧ z.length = 32 ∧ s.thermal.queue = z :: rest))
theorem test_meets_ThermalLimitsThrottleAndFansAreWatched :
    hypThermalLimitsThrottleAndFansAreWatched (((((((((((((((State.reset).setFlag Reg.TH_CTRL F.TH_CTRL_EN true).setFlag (Reg.TS_CFG 5) F.TS_CFG_EN true).setFld (Reg.TS_CFG 5) F.TS_CFG_OUTM 4).setFlag (Reg.CBL_CFG 2) F.CBL_CFG_EN true).wr (Reg.CBL_RATED 2) 0).setFld (Reg.CBL_RATED 2) F.CBL_RATED_RATED 5000).setFld (Reg.CBL_LIMIT 2) F.CBL_LIMIT_DA 1000).setFld Reg.TH_STEP F.TH_STEP_RISE 50).setFld Reg.TH_STEP F.TH_STEP_QSTEP 100).setFld (Reg.TS_VAL 5) F.TS_VAL_T 850).setFlag (Reg.TS_VAL 5) F.TS_VAL_THROT true).setSensor 5 { Sensor.reset with reading := some 850 }).setFld (Reg.TS_LIM 5) F.TS_LIM_SHUT 900).setFld (Reg.TS_LIM 5) F.TS_LIM_THR 800) 2 0 0 [] [] 1 = true ∧
    hypThermalLimitsThrottleAndFansAreWatched (((((((((((State.reset).setFlag Reg.TH_CTRL F.TH_CTRL_EN true).setFlag (Reg.TS_CFG 5) F.TS_CFG_EN true).setFld (Reg.TS_CFG 5) F.TS_CFG_OUTM 4).setFlag (Reg.CBL_CFG 2) F.CBL_CFG_EN true).wr (Reg.CBL_RATED 2) 0).setFld (Reg.CBL_RATED 2) F.CBL_RATED_RATED 5000).setFld (Reg.CBL_LIMIT 2) F.CBL_LIMIT_DA 1000).setFld Reg.TH_STEP F.TH_STEP_RISE 50).setFld Reg.TH_STEP F.TH_STEP_QSTEP 100).setFld (Reg.CBL_LIMIT 2) F.CBL_LIMIT_DA 4980) 2 0 0 [] [] 1 = true ∧
    hypThermalLimitsThrottleAndFansAreWatched ((((((((((State.reset).setFlag Reg.TH_CTRL F.TH_CTRL_EN true).setFlag (Reg.TS_CFG 5) F.TS_CFG_EN true).setFld (Reg.TS_CFG 5) F.TS_CFG_OUTM 4).setFlag (Reg.CBL_CFG 2) F.CBL_CFG_EN true).wr (Reg.CBL_RATED 2) 0).setFld (Reg.CBL_RATED 2) F.CBL_RATED_RATED 5000).setFld (Reg.CBL_LIMIT 2) F.CBL_LIMIT_DA 1000).setFld Reg.TH_STEP F.TH_STEP_RISE 50).setFld Reg.TH_STEP F.TH_STEP_QSTEP 100) 2 0 0 [] [] 1 = true ∧
    hypThermalLimitsThrottleAndFansAreWatched ((((((((((((((((State.reset).setFlag Reg.TH_CTRL F.TH_CTRL_EN true).setFlag (Reg.TS_CFG 5) F.TS_CFG_EN true).setFld (Reg.TS_CFG 5) F.TS_CFG_OUTM 4).setFlag (Reg.CBL_CFG 2) F.CBL_CFG_EN true).wr (Reg.CBL_RATED 2) 0).setFld (Reg.CBL_RATED 2) F.CBL_RATED_RATED 5000).setFld (Reg.CBL_LIMIT 2) F.CBL_LIMIT_DA 1000).setFld Reg.TH_STEP F.TH_STEP_RISE 50).setFld Reg.TH_STEP F.TH_STEP_QSTEP 100).setFlag (Reg.CBL_STATE 2) F.CBL_STATE_SHUT true).setFld (Reg.TS_VAL 5) F.TS_VAL_T 850).setFlag (Reg.TS_VAL 5) F.TS_VAL_THROT true).setSensor 5 { Sensor.reset with reading := some 850 }).setFld (Reg.TS_LIM 5) F.TS_LIM_SHUT 900).setFld (Reg.TS_LIM 5) F.TS_LIM_THR 800) 2 0 0 [] [] 2 = true ∧
    hypThermalLimitsThrottleAndFansAreWatched (((((((((((State.reset).setFlag Reg.TH_CTRL F.TH_CTRL_EN true).setFlag (Reg.TS_CFG 5) F.TS_CFG_EN true).setFld (Reg.TS_CFG 5) F.TS_CFG_OUTM 4).setFlag (Reg.CBL_CFG 2) F.CBL_CFG_EN true).wr (Reg.CBL_RATED 2) 0).setFld (Reg.CBL_RATED 2) F.CBL_RATED_RATED 5000).setFld (Reg.CBL_LIMIT 2) F.CBL_LIMIT_DA 1000).setFld Reg.TH_STEP F.TH_STEP_RISE 50).setFld Reg.TH_STEP F.TH_STEP_QSTEP 100).setFld (Reg.CBL_LIMIT 3) F.CBL_LIMIT_DA 1000) 3 0 0 [] [] 3 = true ∧
    hypThermalLimitsThrottleAndFansAreWatched ((((((((((State.reset).setFlag Reg.TH_CTRL F.TH_CTRL_EN true).setFlag (Reg.TS_CFG 5) F.TS_CFG_EN true).setFld (Reg.TS_CFG 5) F.TS_CFG_OUTM 4).setFlag (Reg.CBL_CFG 2) F.CBL_CFG_EN true).wr (Reg.CBL_RATED 2) 0).setFld (Reg.CBL_RATED 2) F.CBL_RATED_RATED 5000).setFld (Reg.CBL_LIMIT 2) F.CBL_LIMIT_DA 1000).setFld Reg.TH_STEP F.TH_STEP_RISE 50).setFld Reg.TH_STEP F.TH_STEP_QSTEP 100) 3 0 0 [] [] 3 = true ∧
    hypThermalLimitsThrottleAndFansAreWatched ((((((((((State.reset).setFlag Reg.TH_CTRL F.TH_CTRL_EN true).setFlag (Reg.TS_CFG 5) F.TS_CFG_EN true).setFld (Reg.TS_CFG 5) F.TS_CFG_OUTM 4).setFlag (Reg.CBL_CFG 2) F.CBL_CFG_EN true).wr (Reg.CBL_RATED 2) 0).setFld (Reg.CBL_RATED 2) F.CBL_RATED_RATED 5000).setFld (Reg.CBL_LIMIT 2) F.CBL_LIMIT_DA 1000).setFld Reg.TH_STEP F.TH_STEP_RISE 50).setFld Reg.TH_STEP F.TH_STEP_QSTEP 100) 2 0 0 [] [] 4 = true ∧
    hypThermalLimitsThrottleAndFansAreWatched (((((((((((State.reset).setFlag Reg.TH_CTRL F.TH_CTRL_EN true).setFlag (Reg.TS_CFG 5) F.TS_CFG_EN true).setFld (Reg.TS_CFG 5) F.TS_CFG_OUTM 4).setFlag (Reg.CBL_CFG 2) F.CBL_CFG_EN true).wr (Reg.CBL_RATED 2) 0).setFld (Reg.CBL_RATED 2) F.CBL_RATED_RATED 5000).setFld (Reg.CBL_LIMIT 2) F.CBL_LIMIT_DA 1000).setFld Reg.TH_STEP F.TH_STEP_RISE 50).setFld Reg.TH_STEP F.TH_STEP_QSTEP 100).setCable 2 { Cable.reset with hist := [(5, 4000), (3, 4500)] }) 2 0 0 [] [] 5 = true ∧
    hypThermalLimitsThrottleAndFansAreWatched ((((State.reset.setFan 1 { Fan.reset with edge := some 5 }).setFld (Reg.FAN_TACH2 1) F.FAN_TACH2_FMAX 100).setFld (Reg.FAN_TACH 1) F.FAN_TACH_FILT 0).setNow 16000) 0 1 5 [] [] 6 = true ∧
    hypThermalLimitsThrottleAndFansAreWatched (((State.reset.setFan 1 { Fan.reset with edge := some 5 }).setFld (Reg.FAN_TACH 1) F.FAN_TACH_FILT 2).setNow 32004) 0 1 5 [] [] 7 = true ∧
    hypThermalLimitsThrottleAndFansAreWatched (((State.reset.setFan 1 { Fan.reset with edge := some 0 }).setFld (Reg.FAN_TACH2 1) F.FAN_TACH2_FMAX 1000).setNow 320000000) 0 1 0 [] [] 8 = true ∧
    hypThermalLimitsThrottleAndFansAreWatched ((State.reset.setFan 1 { Fan.reset with edge := none }).setNow 320000000) 0 1 0 [] [] 9 = true ∧
    hypThermalLimitsThrottleAndFansAreWatched (((State.reset.setFan 1 { Fan.reset with edge := some 0 }).setFld (Reg.FAN_STAT 1) F.FAN_STAT_RPM 900).setNow 16000000000) 0 1 0 [] [] 10 = true ∧
    hypThermalLimitsThrottleAndFansAreWatched ((((((State.reset.setFan 1 { Fan.reset with lowAt := some 0 }).setFlag (Reg.FAN_CFG 1) F.FAN_CFG_EN true).setFld (Reg.FAN_TACH2 1) F.FAN_TACH2_SPD_MIN 500).setFld (Reg.FAN_TACH 1) F.FAN_TACH_STALL_MS 3).setFld (Reg.FAN_DUTY 1) F.FAN_DUTY_DUTY 900).setNow 48000000) 0 1 0 [] [] 11 = true ∧
    hypThermalLimitsThrottleAndFansAreWatched (((((State.reset.setFan 1 { Fan.reset with lowAt := some 0 }).setFlag (Reg.FAN_CFG 1) F.FAN_CFG_EN true).setFld (Reg.FAN_TACH2 1) F.FAN_TACH2_SPD_MIN 500).setFld (Reg.FAN_TACH 1) F.FAN_TACH_STALL_MS 0).setNow 48000000) 0 1 0 [] [] 12 = true ∧
    hypThermalLimitsThrottleAndFansAreWatched ((wLed id).setThermal { Thermal.reset with queue := [List.replicate 32 7] }) 0 0 0 (List.replicate 32 7) [] 13 = true := by
  and_intros <;> decide +kernel

/-- The hypotheses of MeteringAccumulatesEnergyAndPulses, clause by clause. -/
def hypMeteringAccumulatesEnergyAndPulses (s : State) (o : Fin 8) (k : Fin 16) (samples : List (List (BitVec 24))) (high : Bool) (v : Nat) (clause : Nat) : Bool :=
  let g := s.ledger
  let m := o.val
  let x := s.meter m
  let code := fun (y : List (BitVec 24)) (j : Nat) => y.getD (2 * m + j) 0
  let blk := g.running = true ∧ samples.length = 800
  let fl := Reg.MET_O_FLAGS m
  let n := g.entries
  let room := n + 1 ≤ 8192
  let c := k.val
  let mk := c / 2
  let y := s.meter mk
  let bad := bitOf y.bad (c % 2)
  let upd := s.flag Reg.MET_STATUS F.MET_STATUS_UPD
  let pw := s.par 6 1
  let sec := 16000000000
  match clause with
  | 1 => decide ((s.domUp 4 = true ∧ s.ledger.down = false) ∧ (blk ∧ s.metOn m = true))
  | 2 => decide ((s.domUp 4 = true ∧ s.ledger.down = false) ∧ (blk ∧ s.metOn m = false))
  | 3 => decide ((s.domUp 4 = true ∧ s.ledger.down = false) ∧ (blk))
  | 4 => decide ((s.domUp 4 = true ∧ s.ledger.down = false) ∧ (blk ∧ s.metOn m = true ∧ g.req = none ∧ samples.any (fun z => decide (code z 0 = 0x7FFFFF)) = true))
  | 5 => decide ((s.domUp 4 = true ∧ s.ledger.down = false) ∧ (blk ∧ g.next = none ∧ s.flag fl F.MET_O_FLAGS_INVALID = true ∧ x.validAt = some v))
  | 6 => decide ((s.domUp 4 = true ∧ s.ledger.down = false) ∧ (¬blk))
  | 7 => decide ((s.domUp 4 = true ∧ s.ledger.down = false) ∧ (bad = false ∧ s.metOn mk = true))
  | 8 => decide ((s.domUp 4 = true ∧ s.ledger.down = false) ∧ (y.bad = 2 ^ (c % 2)))
  | 9 => decide ((s.domUp 4 = true ∧ s.ledger.down = false) ∧ (g.running = true ∧ s.regionHeld 2 = false ∧ 0 < x.owed ∧ x.pulseAt.all (fun z => decide (z + 2 * pw * 16000000 ≤ s.now)) = true))
  | 10 => decide ((s.domUp 4 = true ∧ s.ledger.down = false) ∧ (x.pulseAt = some v ∧ s.now < v + 2 * pw * 16000000))
  | 11 => decide ((s.domUp 4 = true ∧ s.ledger.down = false) ∧ (upd = !high ∧ room))
  | 12 => decide ((s.domUp 4 = true ∧ s.ledger.down = false) ∧ (upd = !high ∧ ¬room))
  | 13 => decide ((s.domUp 4 = true ∧ s.ledger.down = false) ∧ (upd = high))
  | 14 => decide ((s.domUp 4 = true ∧ s.ledger.down = false) ∧ (g.running = true ∧ g.chkAt + 10 * sec ≤ s.now))
  | 15 => decide ((s.domUp 4 = true ∧ s.ledger.down = false) ∧ (s.now < g.chkAt + 10 * sec))
  | 16 => decide ((s.domUp 4 = true ∧ s.ledger.down = false) ∧ (g.running = true ∧ g.txAt + sec ≤ s.now))
  | 17 => decide ((s.domUp 4 = true ∧ s.ledger.down = false) ∧ (g.image = true ∧ g.running = true ∧ g.imageAt + 86400 * sec ≤ s.now))
  | _ => decide ((s.domUp 4 = true ∧ s.ledger.down = false) ∧ (s.now < g.imageAt + 86400 * sec))
theorem test_meets_MeteringAccumulatesEnergyAndPulses :
    hypMeteringAccumulatesEnergyAndPulses ((wMet id).setMeter 3 { Meter.reset with exp := 7 }) 3 0 (wSamples 800 (-4503534) 5515510) false 0 1 = true ∧
    hypMeteringAccumulatesEnergyAndPulses ((wMet id).setMeter 3 { Meter.reset with resImp := 28799999999, resExp := 5, tainted := true }) 3 0 (wSamples 800 1 1) false 0 1 = true ∧
    hypMeteringAccumulatesEnergyAndPulses (wMet id) 3 0 (wSamples 800 4503534 2515) false 0 1 = true ∧
    hypMeteringAccumulatesEnergyAndPulses (wMet id) 3 0 (wSamples 800 4503534 5515510) false 0 1 = true ∧
    hypMeteringAccumulatesEnergyAndPulses (wMet id) 2 0 (wSamples 800 5 6) false 0 2 = true ∧
    hypMeteringAccumulatesEnergyAndPulses (wMet (fun g => { g with seq := 5 })) 0 0 (wSamples 800 5 6) false 0 3 = true ∧
    hypMeteringAccumulatesEnergyAndPulses (wMet id) 0 0 (wSamples 800 5 6) false 0 3 = true ∧
    hypMeteringAccumulatesEnergyAndPulses (wMet id) 3 0 (wSamples 800 0x7FFFFF 6) false 0 4 = true ∧
    hypMeteringAccumulatesEnergyAndPulses ((((wMet id).setNow 16000000006).setMeter 3 { Meter.reset with validAt := some 7 }).setFlag (Reg.MET_O_FLAGS 3) F.MET_O_FLAGS_INVALID true) 3 0 (wSamples 800 5 6) false 7 5 = true ∧
    hypMeteringAccumulatesEnergyAndPulses ((((wMet id).setNow 16000000007).setMeter 3 { Meter.reset with validAt := some 7 }).setFlag (Reg.MET_O_FLAGS 3) F.MET_O_FLAGS_INVALID true) 3 0 (wSamples 800 5 6) false 7 5 = true ∧
    hypMeteringAccumulatesEnergyAndPulses (wLed id) 0 0 (wSamples 800 5 6) false 0 6 = true ∧
    hypMeteringAccumulatesEnergyAndPulses (wMet id) 0 0 [] false 0 6 = true ∧
    hypMeteringAccumulatesEnergyAndPulses (wMet id) 0 0 (wSamples 799 5 6) false 0 6 = true ∧
    hypMeteringAccumulatesEnergyAndPulses (wMet id) 0 7 [] false 0 7 = true ∧
    hypMeteringAccumulatesEnergyAndPulses ((wMet id).setMeter 3 { Meter.reset with bad := 2 }) 0 7 [] false 0 8 = true ∧
    hypMeteringAccumulatesEnergyAndPulses (((wMet id).setNow 320000009).setMeter 3 { Meter.reset with owed := 2, pulseAt := some 9 }) 3 0 [] false 0 9 = true ∧
    hypMeteringAccumulatesEnergyAndPulses ((wMet id).setMeter 3 { Meter.reset with owed := 1 }) 3 0 [] false 0 9 = true ∧
    hypMeteringAccumulatesEnergyAndPulses (((wMet id).setNow 320000008).setMeter 3 { Meter.reset with owed := 2, pulseAt := some 9 }) 3 0 [] false 9 10 = true ∧
    hypMeteringAccumulatesEnergyAndPulses ((wMet (fun g => { g with entries := 7781 })).setFlag Reg.MET_STATUS F.MET_STATUS_UPD true) 0 0 [] false 0 11 = true ∧
    hypMeteringAccumulatesEnergyAndPulses (wMet id) 0 0 [] true 0 11 = true ∧
    hypMeteringAccumulatesEnergyAndPulses (wMet (fun g => { g with entries := 8192 })) 0 0 [] true 0 12 = true ∧
    hypMeteringAccumulatesEnergyAndPulses (wMet id) 0 0 [] false 0 13 = true ∧
    hypMeteringAccumulatesEnergyAndPulses (((wMet id).setNow 160000000000).wr Reg.MET_CHECK 0x0123ABCD) 0 0 [] false 0 14 = true ∧
    hypMeteringAccumulatesEnergyAndPulses (wMet id) 0 0 [] false 0 15 = true ∧
    hypMeteringAccumulatesEnergyAndPulses (((wMet id).setNow 16000000000).setMeter 3 { Meter.reset with imp := 1234567890 }) 0 0 [] false 0 16 = true ∧
    hypMeteringAccumulatesEnergyAndPulses ((wMet (fun g => { g with digest := sha256 [], codeLen := 0 })).setNow 1382400000000000) 0 0 [] false 0 17 = true ∧
    hypMeteringAccumulatesEnergyAndPulses ((wMet id).setNow 1382400000000000) 0 0 [] false 0 17 = true ∧
    hypMeteringAccumulatesEnergyAndPulses (wMet id) 0 0 [] false 0 18 = true := by
  and_intros <;> decide +kernel

/-- The hypotheses of ReadingsParametersAndTheRestore, clause by clause. -/
def hypReadingsParametersAndTheRestore (s : State) (o : Fin 8) (samples : List (List (BitVec 24))) (r : Reading) (y : ReadSnap) (p : List Byte) (c : Saved) (d : Saved) (uv : BitVec 24) (clause : Nat) : Bool :=
  let g := s.ledger
  let on := s.domUp 4 = true ∧ g.down = false
  let st := on ∧ s.acts .eventStore
  let busy := s.flag Reg.EVS_REQ_STAT F.EVS_REQ_STAT_BUSY
  let upd := s.flag Reg.MET_STATUS F.MET_STATUS_UPD
  let a := (s.rd Reg.EVS_ADDR).toNat
  let l := s.bytes a 0x124
  let crc := leNat (l.drop 0x120)
  let good := a % 4 = 0 ∧ sramRange a 0x124 = true ∧ s.sramSound
  let formed := leNat (l.take 4) = 1 ∧ crc32 (l.take 0x120) = BitVec.ofNat 32 crc
  let n := g.entries
  let room := n + 1 ≤ 8192
  let takes := busy = false ∧ upd = true ∧ good ∧ formed ∧ room
  let blk := g.running = true ∧ samples.length = 800
  let q := r.outlet
  let dead := s.domUp 4 = true ∧ g.down = true
  let watch := bitOf (s.par 4 1) o.val = true ∧ s.par 5 1 * 500 < uv.toInt.natAbs
  match clause with
  | 1 => decide ((st ∧ busy = true))
  | 2 => decide ((st ∧ busy = false ∧ upd = false))
  | 3 => decide ((st ∧ busy = false ∧ upd = true ∧ s.sramSound ∧ sramRange a 0x124 = true ∧ (¬good ∨ ¬formed)))
  | 4 => decide ((st ∧ busy = false ∧ upd = true ∧ sramRange a 0x124 = false))
  | 5 => decide ((st ∧ busy = false ∧ upd = true ∧ good ∧ formed ∧ ¬room))
  | 6 => decide ((st ∧ takes ∧ g.running = true))
  | 7 => decide ((st ∧ takes ∧ g.running = false ∧ g.image = true))
  | 8 => decide ((on ∧ blk ∧ g.next = some p))
  | 9 => decide ((st ∧ busy = false ∧ g.running = true))
  | 10 => decide ((st ∧ busy = false ∧ g.running = true))
  | 11 => decide ((st ∧ busy = false ∧ g.running = true))
  | 12 => decide ((st ∧ busy = true))
  | 13 => decide ((st ∧ busy = false ∧ g.running = false))
  | 14 => decide ((on ∧ blk ∧ q < 8 ∧ g.req = some r ∧ r.snap = none ∧ r.cyc < s.now / 320))
  | 15 => decide ((on ∧ blk ∧ g.req = some r ∧ r.snap = none ∧ r.cyc = s.now / 320))
  | 16 => decide ((st ∧ g.req = some r ∧ r.snap = some y ∧ r.session.length = 16))
  | 17 => decide ((st ∧ g.req = none))
  | 18 => decide ((dead ∧ g.copyA = some c ∧ g.copyB = some d ∧ d.seq < c.seq))
  | 19 => decide ((dead ∧ g.copyA = some c ∧ g.copyB = some d ∧ d.seq < c.seq))
  | 20 => decide ((dead))
  | 21 => decide ((g.down = false))
  | 22 => decide ((s.domUp 4 = false ∧ watch))
  | 23 => decide ((s.domUp 4 = true ∨ ¬watch))
  | 24 => decide ((st))
  | _ => decide ((st))
theorem test_meets_ReadingsParametersAndTheRestore :
    hypReadingsParametersAndTheRestore (((wMet id).setFlag Reg.MET_STATUS F.MET_STATUS_UPD true).setFlag Reg.EVS_REQ_STAT F.EVS_REQ_STAT_BUSY true) 0 [] (wReq none 0) ⟨0,0,0,0,0,0,0⟩ [] (wSaved 0 0 0) (wSaved 0 0 0) 0 1 = true ∧
    hypReadingsParametersAndTheRestore (wAt wParBlk (wMet id)) 0 [] (wReq none 0) ⟨0,0,0,0,0,0,0⟩ [] (wSaved 0 0 0) (wSaved 0 0 0) 0 2 = true ∧
    hypReadingsParametersAndTheRestore (wAt (wParBlk.set 9 7) ((wMet id).setFlag Reg.MET_STATUS F.MET_STATUS_UPD true)) 0 [] (wReq none 0) ⟨0,0,0,0,0,0,0⟩ [] (wSaved 0 0 0) (wSaved 0 0 0) 0 3 = true ∧
    hypReadingsParametersAndTheRestore ((wMet id).setFlag Reg.MET_STATUS F.MET_STATUS_UPD true) 0 [] (wReq none 0) ⟨0,0,0,0,0,0,0⟩ [] (wSaved 0 0 0) (wSaved 0 0 0) 0 4 = true ∧
    hypReadingsParametersAndTheRestore (wAt wParBlk ((wMet (fun g => { g with entries := 8192 })).setFlag Reg.MET_STATUS F.MET_STATUS_UPD true)) 0 [] (wReq none 0) ⟨0,0,0,0,0,0,0⟩ [] (wSaved 0 0 0) (wSaved 0 0 0) 0 5 = true ∧
    hypReadingsParametersAndTheRestore (wAt wParBlk ((wMet id).setFlag Reg.MET_STATUS F.MET_STATUS_UPD true)) 0 [] (wReq none 0) ⟨0,0,0,0,0,0,0⟩ [] (wSaved 0 0 0) (wSaved 0 0 0) 0 6 = true ∧
    hypReadingsParametersAndTheRestore (wAt wParBlk ((wLed (fun g => { g with image := true })).setFlag Reg.MET_STATUS F.MET_STATUS_UPD true)) 0 [] (wReq none 0) ⟨0,0,0,0,0,0,0⟩ [] (wSaved 0 0 0) (wSaved 0 0 0) 0 7 = true ∧
    hypReadingsParametersAndTheRestore (wMet (fun g => { g with next := some wParBlk })) 0 (wSamples 800 4 4) (wReq none 0) ⟨0,0,0,0,0,0,0⟩ wParBlk (wSaved 0 0 0) (wSaved 0 0 0) 0 8 = true ∧
    hypReadingsParametersAndTheRestore ((wMet id).wr (Reg.EVS_SESS 2) 0x12345678) 3 [] (wReq none 0) ⟨0,0,0,0,0,0,0⟩ [] (wSaved 0 0 0) (wSaved 0 0 0) 0 9 = true ∧
    hypReadingsParametersAndTheRestore ((wMet id).setNow 320) 3 [] (wReq none 0) ⟨0,0,0,0,0,0,0⟩ [] (wSaved 0 0 0) (wSaved 0 0 0) 0 10 = true ∧
    hypReadingsParametersAndTheRestore ((wMet id).setNow 319) 3 [] (wReq none 0) ⟨0,0,0,0,0,0,0⟩ [] (wSaved 0 0 0) (wSaved 0 0 0) 0 11 = true ∧
    hypReadingsParametersAndTheRestore (((wMet id).setFlag Reg.MET_STATUS F.MET_STATUS_UPD true).setFlag Reg.EVS_REQ_STAT F.EVS_REQ_STAT_BUSY true) 0 [] (wReq none 0) ⟨0,0,0,0,0,0,0⟩ [] (wSaved 0 0 0) (wSaved 0 0 0) 0 12 = true ∧
    hypReadingsParametersAndTheRestore (wLed id) 0 [] (wReq none 0) ⟨0,0,0,0,0,0,0⟩ [] (wSaved 0 0 0) (wSaved 0 0 0) 0 13 = true ∧
    hypReadingsParametersAndTheRestore ((wMet (fun g => { g with req := some (wReq none 0) })).setNow 320) 0 (wSamples 800 4503534 5515510) (wReq none 0) ⟨0,0,0,0,0,0,0⟩ [] (wSaved 0 0 0) (wSaved 0 0 0) 0 14 = true ∧
    hypReadingsParametersAndTheRestore (wMet (fun g => { g with req := some (wReq none 0) })) 0 (wSamples 800 4503534 5515510) (wReq none 0) ⟨0,0,0,0,0,0,0⟩ [] (wSaved 0 0 0) (wSaved 0 0 0) 0 15 = true ∧
    hypReadingsParametersAndTheRestore (wMet (fun g => { g with req := some (wReq (some ⟨1, 5, 6, 7, 8, 9, 2⟩) 0), rseq := 4097 })) 0 [] (wReq (some ⟨1, 5, 6, 7, 8, 9, 2⟩) 0) ⟨1, 5, 6, 7, 8, 9, 2⟩ [] (wSaved 0 0 0) (wSaved 0 0 0) 0 16 = true ∧
    hypReadingsParametersAndTheRestore (wMet id) 0 [] (wReq none 0) ⟨0,0,0,0,0,0,0⟩ [] (wSaved 0 0 0) (wSaved 0 0 0) 0 17 = true ∧
    hypReadingsParametersAndTheRestore (wMet (fun g => { g with down := true, cutS := some 0, copyA := some (wSaved 8 70 3), copyB := some (wSaved 7 60 3) })) 3 [] (wReq none 0) ⟨0,0,0,0,0,0,0⟩ [] (wSaved 8 70 3) (wSaved 7 60 3) 0 18 = true ∧
    hypReadingsParametersAndTheRestore (wMet (fun g => { g with down := true, cutS := some 0, copyA := some (wSaved 8 70 3), copyB := some (wSaved 7 60 2) })) 3 [] (wReq none 0) ⟨0,0,0,0,0,0,0⟩ [] (wSaved 8 70 3) (wSaved 7 60 2) 0 19 = true ∧
    hypReadingsParametersAndTheRestore (wMet (fun g => { g with down := true, cutS := some 0, copyA := some (wSaved 8 70 3) })) 0 [] (wReq none 0) ⟨0,0,0,0,0,0,0⟩ [] (wSaved 0 0 0) (wSaved 0 0 0) 0 20 = true ∧
    hypReadingsParametersAndTheRestore (wMet id) 0 [] (wReq none 0) ⟨0,0,0,0,0,0,0⟩ [] (wSaved 0 0 0) (wSaved 0 0 0) 0 21 = true ∧
    hypReadingsParametersAndTheRestore ((wMet (fun g => { g with par := wParBlk.set 5 4 |>.set 4 8 })).setFld Reg.PWR_STATUS F.PWR_STATUS_UP 0) 3 [] (wReq none 0) ⟨0,0,0,0,0,0,0⟩ [] (wSaved 0 0 0) (wSaved 0 0 0) 2001 22 = true ∧
    hypReadingsParametersAndTheRestore (wMet id) 3 [] (wReq none 0) ⟨0,0,0,0,0,0,0⟩ [] (wSaved 0 0 0) (wSaved 0 0 0) 2001 23 = true ∧
    hypReadingsParametersAndTheRestore (wMet id) 0 [] (wReq none 0) ⟨0,0,0,0,0,0,0⟩ [] (wSaved 0 0 0) (wSaved 0 0 0) 0 24 = true ∧
    hypReadingsParametersAndTheRestore (wMet id) 0 [] (wReq none 0) ⟨0,0,0,0,0,0,0⟩ [] (wSaved 0 0 0) (wSaved 0 0 0) 0 25 = true := by
  and_intros <;> decide +kernel

/-- The hypotheses of TariffsDivideEnergyAndInstantsAreConsumedOnce, clause by clause. -/
def hypTariffsDivideEnergyAndInstantsAreConsumedOnce (s : State) (o : Fin 8) (samples : List (List (BitVec 24))) (c : List Byte) (p : List Byte) (v : Interval) (b : Nat) (clause : Nat) : Bool :=
  let g := s.ledger
  let q := g.tariff
  let m := o.val
  let x := s.meter m
  let blk := g.running = true ∧ samples.length = 800
  let idle := g.running = false ∨ samples = []
  let run := s.tarOn = true
  let unit := 28800000000
  let nl := x.tainted || s.noLoad m samples.length (s.sumI m samples)
  let e := if nl = true then 0 else s.sumP m samples
  let di := (x.resImp + e.toNat) / unit
  let w := Tab.get (fun _ => (0 : Word)) q.bind m
  let acc0 := F.TAR_BIND_ACC.get w
  let price := numAt c (0x3E8 + 4 * q.rate) 4
  let z := s.account acc0
  let debt := (z.res + di * price) / 1000000
  let f := s.inForce
  let calm := f.friendly = q.friendly
  let now := s.tbSec 3
  let due := s.demandDue
  let plain := s.billDue = [] ∧ q.close = false ∧ s.activationDue = false
  let dur := s.monoMs - v.openMs
  let len := calDi c * 60
  let n := g.entries
  let room := n + 1 ≤ 8192
  let a := (s.rd Reg.TAR_CAL_ADDR).toNat
  let l := s.bytes a 1040
  let good := a % 4 = 0 ∧ sramRange a 1040 = true ∧ s.sramSound
  let formed := leNat (l.take 4) = 1 ∧ crc32 (l.take 0x40C) = BitVec.ofNat 32 (leNat (l.drop 0x40C))
  match clause with
  | 1 => decide ((s.domUp 4 = true ∧ s.ledger.down = false ∧ s.acts .tariff) ∧ (blk ∧ s.metOn m = true ∧ q.used = true))
  | 2 => decide ((s.domUp 4 = true ∧ s.ledger.down = false ∧ s.acts .tariff) ∧ (blk ∧ s.metOn m = true ∧ q.used = true ∧ q.open_ = some v))
  | 3 => decide ((s.domUp 4 = true ∧ s.ledger.down = false ∧ s.acts .tariff) ∧ (blk ∧ s.metOn m = true ∧ (∀ j : Fin 8, j.val ≠ m → s.metOn j.val = false) ∧ q.used = true ∧ q.act = some c ∧ F.TAR_BIND_VALID.get w = 1 ∧ -2 ^ 63 ≤ z.bal - debt ∧ z.bal < 2 ^ 63 ∧ 0 < debt))
  | 4 => decide ((s.domUp 4 = true ∧ s.ledger.down = false ∧ s.acts .tariff) ∧ (run ∧ due = false ∧ plain ∧ q.act = some c ∧ g.unset = false ∧ calm))
  | 5 => decide ((s.domUp 4 = true ∧ s.ledger.down = false ∧ s.acts .tariff) ∧ (s.tarOn = false))
  | 6 => decide ((s.domUp 4 = true ∧ s.ledger.down = false ∧ s.acts .tariff) ∧ (run ∧ idle ∧ g.unset = false ∧ q.act = some c ∧ due = true ∧ plain ∧ q.open_ = some v ∧ dur ≠ 0))
  | 7 => decide ((s.domUp 4 = true ∧ s.ledger.down = false ∧ s.acts .tariff) ∧ (run ∧ idle ∧ g.unset = false ∧ q.act = some c ∧ due = true ∧ plain ∧ q.open_ = some v ∧ 0 < len ∧ 0 ≤ now + calStd c))
  | 8 => decide ((s.domUp 4 = true ∧ s.ledger.down = false ∧ s.acts .tariff) ∧ (run ∧ idle ∧ g.unset = false ∧ due = false ∧ s.billDue = [] ∧ q.close = true ∧ s.activationDue = false ∧ q.lastB < s.tbNs 3 ∧ calm))
  | 9 => decide ((s.domUp 4 = true ∧ s.ledger.down = false ∧ s.acts .tariff) ∧ (run ∧ idle ∧ g.unset = false ∧ due = false ∧ q.close = true ∧ s.billDue = [] ∧ s.activationDue = false ∧ s.tbNs 3 ≤ q.lastB ∧ calm))
  | 10 => decide ((s.domUp 4 = true ∧ s.ledger.down = false ∧ s.acts .tariff) ∧ (run ∧ idle ∧ g.unset = false ∧ due = false ∧ s.billDue = [b] ∧ q.close = false ∧ s.activationDue = false ∧ calm))
  | 11 => decide ((s.domUp 4 = true ∧ s.ledger.down = false ∧ s.acts .tariff) ∧ (run ∧ idle ∧ g.unset = false ∧ due = false ∧ s.billDue = [] ∧ q.close = false ∧ s.activationDue = true ∧ q.pas = some p ∧ room))
  | 12 => decide ((s.domUp 4 = true ∧ s.ledger.down = false ∧ s.acts .tariff) ∧ (good ∧ formed ∧ calValid l = true))
  | 13 => decide ((s.domUp 4 = true ∧ s.ledger.down = false ∧ s.acts .tariff) ∧ (good ∧ formed ∧ calValid l = false))
  | 14 => decide ((s.domUp 4 = true ∧ s.ledger.down = false ∧ s.acts .tariff) ∧ (good ∧ ¬formed))
  | 15 => decide ((s.domUp 4 = true ∧ s.ledger.down = false ∧ s.acts .tariff) ∧ (sramRange a 1040 = false))
  | 16 => decide ((s.domUp 4 = true ∧ s.ledger.down = false ∧ s.acts .tariff) ∧ (s.sramSound ∧ sramRange a 1040 = true ∧ ¬good))
  | 17 => decide ((s.domUp 4 = true ∧ s.ledger.down = false ∧ s.acts .tariff))
  | 18 => decide ((s.domUp 4 = true ∧ s.ledger.down = false ∧ s.acts .tariff))
  | _ => decide ((s.domUp 4 = true ∧ s.ledger.down = false ∧ s.acts .tariff) ∧ (s.flag (Reg.ERR_BLK_STATUS 0x11) F.ERR_BLK_STATUS_OPEN = false ∧ s.flag (Reg.ERR_BLK_CFG 0x11) F.ERR_BLK_CFG_AUTO_CLR = false))
theorem test_meets_TariffsDivideEnergyAndInstantsAreConsumedOnce :
    hypTariffsDivideEnergyAndInstantsAreConsumedOnce (wTar 1000 (id)) 3 (wSamples 800 4503534 5515510) (wCal 0 0 2) (wCal 0 0 2) ⟨100, 0, 900, false, false, [(3, 1600000), (8, 1600000)]⟩ 0 1 = true ∧
    hypTariffsDivideEnergyAndInstantsAreConsumedOnce (wTar 1000 (fun q => { q with open_ := some ⟨100, 0, 900, false, false, [(3, 1600000), (8, 1600000)]⟩ })) 3 (wSamples 800 4503534 5515510) (wCal 0 0 2) (wCal 0 0 2) ⟨100, 0, 900, false, false, [(3, 1600000), (8, 1600000)]⟩ 0 2 = true ∧
    hypTariffsDivideEnergyAndInstantsAreConsumedOnce (wTar 1000 (fun q => { q with bind := [(3, 0x80000007)], acc := [(7, { Account.reset with bal := 5, state := 0, ecEn := true, ecLim := 1 })] })) 3 (wSamples 800 4503534 5515510) (wCal 0 0 2) (wCal 0 0 2) ⟨100, 0, 900, false, false, [(3, 1600000), (8, 1600000)]⟩ 0 3 = true ∧
    hypTariffsDivideEnergyAndInstantsAreConsumedOnce (wTar 1000 (fun q => { q with rate := 5 })) 3 (wSamples 8 4503534 5515510) (wCal 0 0 2) (wCal 0 0 2) ⟨100, 0, 900, false, false, [(3, 1600000), (8, 1600000)]⟩ 0 4 = true ∧
    hypTariffsDivideEnergyAndInstantsAreConsumedOnce (wMet id) 0 [] (wCal 0 0 2) (wCal 0 0 2) ⟨100, 0, 900, false, false, [(3, 1600000), (8, 1600000)]⟩ 0 5 = true ∧
    hypTariffsDivideEnergyAndInstantsAreConsumedOnce ((wTar 1000 (fun q => { q with open_ := some ⟨100, 0, 900, false, false, [(3, 1600000), (8, 1600000)]⟩, dseq := 7170, lastD := 0 })).setNow 640000000000) 0 [] (wCal 0 0 2) (wCal 0 0 2) ⟨100, 0, 900, false, false, [(3, 1600000), (8, 1600000)]⟩ 0 6 = true ∧
    hypTariffsDivideEnergyAndInstantsAreConsumedOnce ((wTar 9000 (fun q => { q with open_ := some ⟨100, 0, 900, false, false, [(3, 1600000), (8, 1600000)]⟩, dseq := 7 })).setNow 14400000000000) 0 [] (wCal 0 0 2) (wCal 0 0 2) ⟨100, 0, 900, false, false, [(3, 1600000), (8, 1600000)]⟩ 0 7 = true ∧
    hypTariffsDivideEnergyAndInstantsAreConsumedOnce (wTar 1000 (fun q => { q with close := true, lastB := 5, bseq := 6, tseq := 2040, act := none, rate := 0 })) 0 [] (wCal 0 0 2) (wCal 0 0 2) ⟨100, 0, 900, false, false, [(3, 1600000), (8, 1600000)]⟩ 0 8 = true ∧
    hypTariffsDivideEnergyAndInstantsAreConsumedOnce (wTar 1000 (fun q => { q with close := true, lastB := 1000000000000 })) 0 [] (wCal 0 0 2) (wCal 0 0 2) ⟨100, 0, 900, false, false, [(3, 1600000), (8, 1600000)]⟩ 0 9 = true ∧
    hypTariffsDivideEnergyAndInstantsAreConsumedOnce (wTar 2674801 (fun q => { q with lastB := 5000000000 })) 0 [] (wCal 0 0 2) (wCal 0 0 2) ⟨100, 0, 900, false, false, [(3, 1600000), (8, 1600000)]⟩ 2674800000000000 10 = true ∧
    hypTariffsDivideEnergyAndInstantsAreConsumedOnce (wTar 1000 (fun q => { q with lastB := 5, pas := some (wCal 7 0 1), pasAt := 7000000000 })) 0 [] (wCal 0 0 2) (wCal 7 0 1) ⟨100, 0, 900, false, false, [(3, 1600000), (8, 1600000)]⟩ 0 11 = true ∧
    hypTariffsDivideEnergyAndInstantsAreConsumedOnce (((wTar 1000 (id)).wPut 0x01000100 (wCal 7 0 1)).wr Reg.TAR_CAL_ADDR 0x01000100) 0 [] (wCal 0 0 2) (wCal 0 0 2) ⟨100, 0, 900, false, false, [(3, 1600000), (8, 1600000)]⟩ 0 12 = true ∧
    hypTariffsDivideEnergyAndInstantsAreConsumedOnce (((wTar 1000 (id)).wPut 0x01000100 ([1] ++ List.replicate 1035 0 ++ leBytes 4 0x74CC47C0)).wr Reg.TAR_CAL_ADDR 0x01000100) 0 [] (wCal 0 0 2) (wCal 0 0 2) ⟨100, 0, 900, false, false, [(3, 1600000), (8, 1600000)]⟩ 0 13 = true ∧
    hypTariffsDivideEnergyAndInstantsAreConsumedOnce ((wTar 1000 (id)).wr Reg.TAR_CAL_ADDR 0x01000100) 0 [] (wCal 0 0 2) (wCal 0 0 2) ⟨100, 0, 900, false, false, [(3, 1600000), (8, 1600000)]⟩ 0 14 = true ∧
    hypTariffsDivideEnergyAndInstantsAreConsumedOnce ((wTar 1000 (id)).wr Reg.TAR_CAL_ADDR 0x017FFC00) 0 [] (wCal 0 0 2) (wCal 0 0 2) ⟨100, 0, 900, false, false, [(3, 1600000), (8, 1600000)]⟩ 0 15 = true ∧
    hypTariffsDivideEnergyAndInstantsAreConsumedOnce ((wTar 1000 (id)).wr Reg.TAR_CAL_ADDR 0x01000102) 0 [] (wCal 0 0 2) (wCal 0 0 2) ⟨100, 0, 900, false, false, [(3, 1600000), (8, 1600000)]⟩ 0 16 = true ∧
    hypTariffsDivideEnergyAndInstantsAreConsumedOnce (wTar 1000 (id)) 0 [] (wCal 0 0 2) (wCal 0 0 2) ⟨100, 0, 900, false, false, [(3, 1600000), (8, 1600000)]⟩ 0 17 = true ∧
    hypTariffsDivideEnergyAndInstantsAreConsumedOnce (wTar 1000 (id)) 0 [] (wCal 0 0 2) (wCal 0 0 2) ⟨100, 0, 900, false, false, [(3, 1600000), (8, 1600000)]⟩ 0 18 = true ∧
    hypTariffsDivideEnergyAndInstantsAreConsumedOnce (wTar 1000 (id)) 0 [] (wCal 0 0 2) (wCal 0 0 2) ⟨100, 0, 900, false, false, [(3, 1600000), (8, 1600000)]⟩ 0 19 = true := by
  and_intros <;> decide +kernel

/-- The hypotheses of TheLegalClockAndAccountsMoveByRule, clause by clause. -/
def hypTheLegalClockAndAccountsMoveByRule (s : State) (acc : Byte) (c : List Byte) (b : Nat) (clause : Nat) : Bool :=
  let g := s.ledger
  let q := g.tariff
  let now := s.tbNs 3
  let ns := (s.rd Reg.TAR_ADJ_NS).toNat
  let sec := s.rd Reg.TAR_ADJ_S
  let hi := s.fld Reg.TAR_ADJ_SH F.TAR_ADJ_SH_VAL
  let wrap : Nat := 2 ^ 48 * tbSecond
  let rel : Int := sec.toInt * 1000000000 + ns
  let abs_ : Nat := (hi * 2 ^ 32 + sec.toNat) * 1000000000 + ns
  let vRel := (((s.tbVal 3 : Int) + rel * 65536) % (wrap : Int)).toNat
  let vAbs := abs_ * 65536 % wrap
  let mRel := rel.natAbs
  let mAbs := ((abs_ : Int) - now).natAbs
  let n := g.entries
  let room := n + 2 ≤ 8192
  let ok := ns < 1000000000
  let silent := fun (m : Nat) => s.silentNs + m ≤ 9000000000
  let jumped := billBoundaries c (q.lastB / 1000000000) (vAbs / tbSecond)
  let hour := s.monoMs / 3600000
  let diff : Int := (s.tbNs 0 : Int) - s.fld Reg.TAR_UTC F.TAR_UTC_VAL * 1000000000 - now
  let auto := q.hour < hour ∧ s.flag Reg.TAR_CTRL F.TAR_CTRL_AUTO_SYNC = true ∧ s.tbState 0 = 2
  let k := acc.toNat
  let z := s.account k
  let amt : Nat := (s.rd Reg.TAR_ACC_AMT_HI).toNat * 2 ^ 32 + (s.rd Reg.TAR_ACC_AMT_LO).toNat
  let tx := (s.rd Reg.TAR_ACC_TXID).toNat
  let fresh := z.txids.contains tx = false ∧ 0 < amt ∧ amt ≤ 2 ^ 48
  let up : Int := z.bal + amt
  let down : Int := z.bal - amt
  let fits := fun (b : Int) => -2 ^ 63 ≤ b ∧ b < 2 ^ 63
  match clause with
  | 1 => decide ((s.domUp 4 = true ∧ s.ledger.down = false ∧ s.acts .tariff) ∧ (¬ok))
  | 2 => decide ((s.domUp 4 = true ∧ s.ledger.down = false ∧ s.acts .tariff) ∧ (ok ∧ silent mRel))
  | 3 => decide ((s.domUp 4 = true ∧ s.ledger.down = false ∧ s.acts .tariff) ∧ (ok ∧ g.unset = false ∧ silent mAbs))
  | 4 => decide ((s.domUp 4 = true ∧ s.ledger.down = false ∧ s.acts .tariff) ∧ (ok ∧ ¬silent mRel ∧ room ∧ vRel / 65536 < now ∧ g.unset = false))
  | 5 => decide ((s.domUp 4 = true ∧ s.ledger.down = false ∧ s.acts .tariff) ∧ (ok ∧ ¬silent mRel ∧ room ∧ q.open_ ≠ none ∧ q.act ≠ none ∧ s.tarOn = true ∧ g.unset = false))
  | 6 => decide ((s.domUp 4 = true ∧ s.ledger.down = false ∧ s.acts .tariff) ∧ (ok ∧ ¬silent mAbs ∧ room ∧ now < vAbs / 65536 ∧ s.tarOn = true ∧ q.act = some c ∧ g.unset = false ∧ jumped = [b]))
  | 7 => decide ((s.domUp 4 = true ∧ s.ledger.down = false ∧ s.acts .tariff) ∧ (ok ∧ g.unset = true ∧ room))
  | 8 => decide ((s.domUp 4 = true ∧ s.ledger.down = false ∧ s.acts .tariff) ∧ (ok ∧ ¬silent mRel ∧ ¬room))
  | 9 => decide ((s.domUp 4 = true ∧ s.ledger.down = false ∧ s.acts .tariff) ∧ (auto ∧ silent diff.natAbs))
  | 10 => decide ((s.domUp 4 = true ∧ s.ledger.down = false ∧ s.acts .tariff) ∧ (auto ∧ ¬silent diff.natAbs))
  | 11 => decide ((s.domUp 4 = true ∧ s.ledger.down = false ∧ s.acts .tariff) ∧ (hour ≤ q.hour))
  | 12 => decide ((s.domUp 4 = true ∧ s.ledger.down = false ∧ s.acts .tariff) ∧ (q.hour < hour ∧ (s.flag Reg.TAR_CTRL F.TAR_CTRL_AUTO_SYNC = false ∨ s.tbState 0 ≠ 2)))
  | 13 => decide ((s.domUp 4 = true ∧ s.ledger.down = false ∧ s.acts .tariff) ∧ (fresh ∧ fits up))
  | 14 => decide ((s.domUp 4 = true ∧ s.ledger.down = false ∧ s.acts .tariff) ∧ (fresh ∧ fits down))
  | 15 => decide ((s.domUp 4 = true ∧ s.ledger.down = false ∧ s.acts .tariff) ∧ (z.txids.contains tx = true))
  | 16 => decide ((s.domUp 4 = true ∧ s.ledger.down = false ∧ s.acts .tariff) ∧ (z.txids.contains tx = false ∧ (amt = 0 ∨ 2 ^ 48 < amt)))
  | _ => decide ((s.domUp 4 = true ∧ s.ledger.down = false ∧ s.acts .tariff))
theorem test_meets_TheLegalClockAndAccountsMoveByRule :
    hypTheLegalClockAndAccountsMoveByRule (((wTar 1000 (id)).wr Reg.TAR_ADJ_S 5).wr Reg.TAR_ADJ_NS 1000000000) 0 [] 0 1 = true ∧
    hypTheLegalClockAndAccountsMoveByRule (((wTar 1000 (fun q => { q with silent := [(0, 500000000)] })).wr Reg.TAR_ADJ_S 8).wr Reg.TAR_ADJ_NS 500000000) 0 [] 0 2 = true ∧
    hypTheLegalClockAndAccountsMoveByRule (((wTar 1000 (id)).wr Reg.TAR_ADJ_S (-9)).wr Reg.TAR_ADJ_NS 0) 0 [] 0 2 = true ∧
    hypTheLegalClockAndAccountsMoveByRule (((wTar 1000 (id)).wr Reg.TAR_ADJ_S 995).wr Reg.TAR_ADJ_NS 5) 0 [] 0 3 = true ∧
    hypTheLegalClockAndAccountsMoveByRule (((wTar 5000 (fun q => { q with lastB := 5 })).wr Reg.TAR_ADJ_S (-60)).wr Reg.TAR_ADJ_NS 0) 0 [] 0 4 = true ∧
    hypTheLegalClockAndAccountsMoveByRule (((wTar 5000 (fun q => { q with lastB := 5, open_ := some ⟨100, 0, 900, false, false, [(3, 1600000), (8, 1600000)]⟩ })).wr Reg.TAR_ADJ_S (-60)).wr Reg.TAR_ADJ_NS 0) 0 [] 0 5 = true ∧
    hypTheLegalClockAndAccountsMoveByRule (((wTar 2674000 (fun q => { q with lastB := 5000000000 })).wr Reg.TAR_ADJ_S 2675000).wr Reg.TAR_ADJ_NS 0) 0 (wCal 0 0 2) 2674800 6 = true ∧
    hypTheLegalClockAndAccountsMoveByRule ((((wTar 1000 (id)).wr Reg.TAR_ADJ_S 1001).wr Reg.TAR_ADJ_NS 0).setLedger { (wTar 1000 (id)).ledger with unset := true }) 0 [] 0 7 = true ∧
    hypTheLegalClockAndAccountsMoveByRule ((let s := ((wTar 1000 (id)).wr Reg.TAR_ADJ_S 60).wr Reg.TAR_ADJ_NS 0; s.setLedger { s.ledger with entries := 8191 })) 0 [] 0 8 = true ∧
    hypTheLegalClockAndAccountsMoveByRule ((let s := (wTar 1000 (id)).setNow 57600000000000; ((s.setTb 0 ((s.tb 0).rebase s.now (4641 * tbSecond) 0)).setFld (Reg.TB_STATE 0) F.TB_STATE_ST 2).wr Reg.TAR_CTRL 0xC0000000)) 0 [] 0 9 = true ∧
    hypTheLegalClockAndAccountsMoveByRule ((let s := (wTar 1000 (id)).setNow 57600000000000; ((s.setTb 0 ((s.tb 0).rebase s.now (4700 * tbSecond) 0)).setFld (Reg.TB_STATE 0) F.TB_STATE_ST 2).wr Reg.TAR_CTRL 0xC0000000)) 0 [] 0 10 = true ∧
    hypTheLegalClockAndAccountsMoveByRule ((let s := (wTar 1000 (fun q => { q with hour := 1 })).setNow 57600000000000; ((s.setTb 0 ((s.tb 0).rebase s.now (4641 * tbSecond) 0)).setFld (Reg.TB_STATE 0) F.TB_STATE_ST 2).wr Reg.TAR_CTRL 0xC0000000)) 0 [] 0 11 = true ∧
    hypTheLegalClockAndAccountsMoveByRule ((let s := (wTar 1000 (id)).setNow 57600000000000; ((s.setTb 0 ((s.tb 0).rebase s.now (4641 * tbSecond) 0)).setFld (Reg.TB_STATE 0) F.TB_STATE_ST 2).wr Reg.TAR_CTRL 0x80000000)) 0 [] 0 12 = true ∧
    hypTheLegalClockAndAccountsMoveByRule ((((wTar 1000 (fun q => { q with acc := [(7, { Account.reset with bal := 50, state := 0, txids := [1, 2, 3] })] })).wr Reg.TAR_ACC_AMT_LO 1000).wr Reg.TAR_ACC_AMT_HI 0).wr Reg.TAR_ACC_TXID 9) 7 [] 0 13 = true ∧
    hypTheLegalClockAndAccountsMoveByRule ((((wTar 1000 (fun q => { q with acc := [(7, { Account.reset with bal := 50, state := 0, txids := [1, 2, 3] })] })).wr Reg.TAR_ACC_AMT_LO 5).wr Reg.TAR_ACC_AMT_HI 1).wr Reg.TAR_ACC_TXID 9) 8 [] 0 13 = true ∧
    hypTheLegalClockAndAccountsMoveByRule ((((wTar 1000 (fun q => { q with acc := [(7, { Account.reset with bal := 50, state := 0, txids := [1, 2, 3] })] })).wr Reg.TAR_ACC_AMT_LO 1000).wr Reg.TAR_ACC_AMT_HI 0).wr Reg.TAR_ACC_TXID 9) 7 [] 0 14 = true ∧
    hypTheLegalClockAndAccountsMoveByRule ((((wTar 1000 (fun q => { q with acc := [(7, { Account.reset with bal := 50, state := 0, txids := [1, 2, 3] })] })).wr Reg.TAR_ACC_AMT_LO 1000).wr Reg.TAR_ACC_AMT_HI 0).wr Reg.TAR_ACC_TXID 3) 7 [] 0 15 = true ∧
    hypTheLegalClockAndAccountsMoveByRule ((((wTar 1000 (fun q => { q with acc := [(7, { Account.reset with bal := 50, state := 0, txids := [1, 2, 3] })] })).wr Reg.TAR_ACC_AMT_LO 0).wr Reg.TAR_ACC_AMT_HI 0).wr Reg.TAR_ACC_TXID 9) 7 [] 0 16 = true ∧
    hypTheLegalClockAndAccountsMoveByRule ((((wTar 1000 (fun q => { q with acc := [(7, { Account.reset with bal := 50, state := 0, txids := [1, 2, 3] })] })).wr Reg.TAR_ACC_AMT_LO 1).wr Reg.TAR_ACC_AMT_HI 65536).wr Reg.TAR_ACC_TXID 9) 7 [] 0 16 = true ∧
    hypTheLegalClockAndAccountsMoveByRule ((((wTar 1000 (fun q => { q with acc := [(7, { Account.reset with bal := 50, state := 0, txids := [1, 2, 3] })] })).wr Reg.TAR_ACC_AMT_LO 11).wr Reg.TAR_ACC_AMT_HI 12).wr Reg.TAR_ACC_TXID 9) 7 [] 0 17 = true := by
  and_intros <;> decide +kernel

/-- The hypotheses of SecureCallsServeKeysByTheirPolicy, clause by clause. -/
def hypSecureCallsServeKeysByTheirPolicy (s : State) (c : CtxId) (r : KeyReq) (d : Nat) (key : KeyRec) (clause : Nat) : Bool :=
  let k := ctxKey c
  let call := fun (f : Nat) => s.ksNext k f = some r
  let arg := fun (w : Nat) => s.num (r.block.toNat + 4 * w) 4
  let slot := arg 0 % 32
  let opt := arg 0 / 65536
  let out := arg 3
  let cap := arg 4
  let inOk := arg 2 = 0 ∨ (arg 1 % 4 = 0 ∧ sramRange (arg 1) (arg 2) = true)
  let auxOk := fun (n : Nat) => n = 0 ∨ (arg 5 % 4 = 0 ∧ sramRange (arg 5) n = true)
  let outOk := cap = 0 ∨ (out % 4 = 0 ∧ sramRange out cap = true)
  let fits := fun (n : Nat) => outOk ∧ n ≤ cap ∧ (r.block.toNat + 32 ≤ out ∨ out + n ≤ r.block.toNat + 28)
  let random := s.flag Reg.KS_STATUS F.KS_STATUS_DRBG_OK = true
  let may := fun (u : Nat) => s.slot slot = some key ∧ bitOf key.use u = true ∧ bitOf key.users (userOf k) = true
  let aes_ := key.alg = 0x01 ∨ key.alg = 0x02
  let priv := key.alg = 0x11 ∨ key.alg = 0x12
  let pubk := key.alg = 0x21 ∨ key.alg = 0x22
  let p384 : Bool := key.alg % 16 = 2
  let ec := if p384 = true then 96 else 64
  let digest := arg 2 = 32 ∨ arg 2 = 48
  let secret := key.key
  match clause with
  | 1 => decide ((s.domUp 3 = true ∧ s.sramSound ∧ (let w := s.num r.block.toNat 4; w / 32 % 8 = 0 ∧ w / 8192 % 8 = 0 ∧ w < 2 ^ 24) ∧ (s.ctx (ctxKey c)).stall = .scall d ∧ d ≠ 0) ∧ (call 0x02 ∧ s.slot slot = some key ∧ (priv ∨ pubk) ∧ fits key.pub.length))
  | 2 => decide ((s.domUp 3 = true ∧ s.sramSound ∧ (let w := s.num r.block.toNat 4; w / 32 % 8 = 0 ∧ w / 8192 % 8 = 0 ∧ w < 2 ^ 24) ∧ (s.ctx (ctxKey c)).stall = .scall d ∧ d ≠ 0) ∧ (call 0x02 ∧ (s.slot slot = none ∨ (s.slot slot = some key ∧ ¬(priv ∨ pubk)))))
  | 3 => decide ((s.domUp 3 = true ∧ s.sramSound ∧ (let w := s.num r.block.toNat 4; w / 32 % 8 = 0 ∧ w / 8192 % 8 = 0 ∧ w < 2 ^ 24) ∧ (s.ctx (ctxKey c)).stall = .scall d ∧ d ≠ 0) ∧ (call 0x10 ∧ may 2 ∧ priv ∧ digest ∧ inOk ∧ random ∧ fits ec))
  | 4 => decide ((s.domUp 3 = true ∧ s.sramSound ∧ (let w := s.num r.block.toNat 4; w / 32 % 8 = 0 ∧ w / 8192 % 8 = 0 ∧ w < 2 ^ 24) ∧ (s.ctx (ctxKey c)).stall = .scall d ∧ d ≠ 0) ∧ (call 0x10 ∧ ¬(∃ z ∈ s.slot slot, (z.alg = 0x11 ∨ z.alg = 0x12) ∧ bitOf z.use 2 = true ∧ bitOf z.users (userOf k) = true)))
  | 5 => decide ((s.domUp 3 = true ∧ s.sramSound ∧ (let w := s.num r.block.toNat 4; w / 32 % 8 = 0 ∧ w / 8192 % 8 = 0 ∧ w < 2 ^ 24) ∧ (s.ctx (ctxKey c)).stall = .scall d ∧ d ≠ 0) ∧ (call 0x10 ∧ may 2 ∧ priv ∧ ¬digest))
  | 6 => decide ((s.domUp 3 = true ∧ s.sramSound ∧ (let w := s.num r.block.toNat 4; w / 32 % 8 = 0 ∧ w / 8192 % 8 = 0 ∧ w < 2 ^ 24) ∧ (s.ctx (ctxKey c)).stall = .scall d ∧ d ≠ 0) ∧ (call 0x10 ∧ may 2 ∧ priv ∧ digest ∧ inOk ∧ ¬random))
  | 7 => decide ((s.domUp 3 = true ∧ s.sramSound ∧ (let w := s.num r.block.toNat 4; w / 32 % 8 = 0 ∧ w / 8192 % 8 = 0 ∧ w < 2 ^ 24) ∧ (s.ctx (ctxKey c)).stall = .scall d ∧ d ≠ 0) ∧ (call 0x10 ∧ may 2 ∧ priv ∧ digest ∧ inOk ∧ random ∧ outOk ∧ cap < ec))
  | 8 => decide ((s.domUp 3 = true ∧ s.sramSound ∧ (let w := s.num r.block.toNat 4; w / 32 % 8 = 0 ∧ w / 8192 % 8 = 0 ∧ w < 2 ^ 24) ∧ (s.ctx (ctxKey c)).stall = .scall d ∧ d ≠ 0) ∧ (call 0x11 ∧ may 3 ∧ (priv ∨ pubk) ∧ digest ∧ inOk ∧ auxOk ec))
  | 9 => decide ((s.domUp 3 = true ∧ s.sramSound ∧ (let w := s.num r.block.toNat 4; w / 32 % 8 = 0 ∧ w / 8192 % 8 = 0 ∧ w < 2 ^ 24) ∧ (s.ctx (ctxKey c)).stall = .scall d ∧ d ≠ 0) ∧ (call 0x20 ∧ may 0 ∧ aes_ ∧ inOk ∧ auxOk (12 + arg 6) ∧ fits (arg 2 + 16)))
  | 10 => decide ((s.domUp 3 = true ∧ s.sramSound ∧ (let w := s.num r.block.toNat 4; w / 32 % 8 = 0 ∧ w / 8192 % 8 = 0 ∧ w < 2 ^ 24) ∧ (s.ctx (ctxKey c)).stall = .scall d ∧ d ≠ 0) ∧ (call 0x21 ∧ may 1 ∧ aes_ ∧ 16 ≤ arg 2 ∧ inOk ∧ auxOk (12 + arg 6) ∧ fits (arg 2 - 16)))
  | 11 => decide ((s.domUp 3 = true ∧ s.sramSound ∧ (let w := s.num r.block.toNat 4; w / 32 % 8 = 0 ∧ w / 8192 % 8 = 0 ∧ w < 2 ^ 24) ∧ (s.ctx (ctxKey c)).stall = .scall d ∧ d ≠ 0) ∧ (call 0x21 ∧ may 1 ∧ aes_ ∧ arg 2 < 16))
  | 12 => decide ((s.domUp 3 = true ∧ s.sramSound ∧ (let w := s.num r.block.toNat 4; w / 32 % 8 = 0 ∧ w / 8192 % 8 = 0 ∧ w < 2 ^ 24) ∧ (s.ctx (ctxKey c)).stall = .scall d ∧ d ≠ 0) ∧ (call 0x22 ∧ may 0 ∧ aes_ ∧ inOk ∧ auxOk 16 ∧ fits (arg 2)))
  | 13 => decide ((s.domUp 3 = true ∧ s.sramSound ∧ (let w := s.num r.block.toNat 4; w / 32 % 8 = 0 ∧ w / 8192 % 8 = 0 ∧ w < 2 ^ 24) ∧ (s.ctx (ctxKey c)).stall = .scall d ∧ d ≠ 0) ∧ (call 0x30 ∧ opt ≤ 1 ∧ inOk ∧ fits (if opt = 0 then 32 else 48)))
  | 14 => decide ((s.domUp 3 = true ∧ s.sramSound ∧ (let w := s.num r.block.toNat 4; w / 32 % 8 = 0 ∧ w / 8192 % 8 = 0 ∧ w < 2 ^ 24) ∧ (s.ctx (ctxKey c)).stall = .scall d ∧ d ≠ 0) ∧ (call 0x30 ∧ 1 < opt))
  | 15 => decide ((s.domUp 3 = true ∧ s.sramSound ∧ (let w := s.num r.block.toNat 4; w / 32 % 8 = 0 ∧ w / 8192 % 8 = 0 ∧ w < 2 ^ 24) ∧ (s.ctx (ctxKey c)).stall = .scall d ∧ d ≠ 0) ∧ (call 0x31 ∧ cap ≤ 4096 ∧ random ∧ fits cap))
  | 16 => decide ((s.domUp 3 = true ∧ s.sramSound ∧ (let w := s.num r.block.toNat 4; w / 32 % 8 = 0 ∧ w / 8192 % 8 = 0 ∧ w < 2 ^ 24) ∧ (s.ctx (ctxKey c)).stall = .scall d ∧ d ≠ 0) ∧ (call 0x31 ∧ 4096 < cap))
  | 17 => decide ((s.domUp 3 = true ∧ s.sramSound ∧ (let w := s.num r.block.toNat 4; w / 32 % 8 = 0 ∧ w / 8192 % 8 = 0 ∧ w < 2 ^ 24) ∧ (s.ctx (ctxKey c)).stall = .scall d ∧ d ≠ 0) ∧ (call 0x31 ∧ cap ≤ 4096 ∧ outOk ∧ ¬random))
  | 18 => decide ((s.domUp 3 = true ∧ s.sramSound ∧ (let w := s.num r.block.toNat 4; w / 32 % 8 = 0 ∧ w / 8192 % 8 = 0 ∧ w < 2 ^ 24) ∧ (s.ctx (ctxKey c)).stall = .scall d ∧ d ≠ 0) ∧ (call 0x50 ∧ may 8 ∧ key.alg = 1 ∧ fits 16 ∧ secret.length = 16))
  | _ => decide ((s.domUp 3 = true ∧ s.sramSound ∧ (let w := s.num r.block.toNat 4; w / 32 % 8 = 0 ∧ w / 8192 % 8 = 0 ∧ w < 2 ^ 24) ∧ (s.ctx (ctxKey c)).stall = .scall d ∧ d ≠ 0) ∧ (call 0x50 ∧ may 8 ∧ key.alg ≠ 1))
theorem test_meets_SecureCallsServeKeysByTheirPolicy :
    hypSecureCallsServeKeysByTheirPolicy (wKs 0x02 [5, 16777472, 0, 16777728, 80, 16777984, 0, 0, 0, 0] 17 (id)) ⟨0, 0⟩ ⟨0, 0x02, 0x01000000, 0⟩ 3 (wKey 17 (algLen 17)) 1 = true ∧
    hypSecureCallsServeKeysByTheirPolicy (wKs 0x02 [5, 16777472, 0, 16777728, 80, 16777984, 0, 0, 0, 0] 1 (id)) ⟨0, 0⟩ ⟨0, 0x02, 0x01000000, 0⟩ 3 (wKey 1 (algLen 1)) 2 = true ∧
    hypSecureCallsServeKeysByTheirPolicy (wKs 0x02 [6, 16777472, 0, 16777728, 80, 16777984, 0, 0, 0, 0] 17 (id)) ⟨0, 0⟩ ⟨0, 0x02, 0x01000000, 0⟩ 3 (wKey 17 (algLen 17)) 2 = true ∧
    hypSecureCallsServeKeysByTheirPolicy (wKs 0x10 [5, 16777472, 32, 16777728, 64, 16777984, 0, 0, 0, 0] 17 (id)) ⟨0, 0⟩ ⟨0, 0x10, 0x01000000, 0⟩ 3 (wKey 17 (algLen 17)) 3 = true ∧
    hypSecureCallsServeKeysByTheirPolicy (wKs 0x10 [5, 16777472, 48, 16777728, 96, 16777984, 0, 0, 0, 0] 18 (id)) ⟨0, 0⟩ ⟨0, 0x10, 0x01000000, 0⟩ 3 (wKey 18 (algLen 18)) 3 = true ∧
    hypSecureCallsServeKeysByTheirPolicy (wKs 0x10 [5, 16777472, 32, 16777728, 64, 16777984, 0, 0, 0, 0] 17 (fun x => { x with slot := [(5, some ⟨0x11, 0x1FB, 0x1FFF, [], []⟩)] })) ⟨0, 0⟩ ⟨0, 0x10, 0x01000000, 0⟩ 3 (wKey 17 (algLen 17)) 4 = true ∧
    hypSecureCallsServeKeysByTheirPolicy (wKs 0x10 [5, 16777472, 32, 16777728, 64, 16777984, 0, 0, 0, 0] 33 (id)) ⟨0, 0⟩ ⟨0, 0x10, 0x01000000, 0⟩ 3 (wKey 33 (algLen 33)) 4 = true ∧
    hypSecureCallsServeKeysByTheirPolicy (wKs 0x10 [9, 16777472, 32, 16777728, 64, 16777984, 0, 0, 0, 0] 17 (id)) ⟨0, 0⟩ ⟨0, 0x10, 0x01000000, 0⟩ 3 (wKey 17 (algLen 17)) 4 = true ∧
    hypSecureCallsServeKeysByTheirPolicy (wKs 0x10 [5, 16777472, 33, 16777728, 64, 16777984, 0, 0, 0, 0] 17 (id)) ⟨0, 0⟩ ⟨0, 0x10, 0x01000000, 0⟩ 3 (wKey 17 (algLen 17)) 5 = true ∧
    hypSecureCallsServeKeysByTheirPolicy ((wKs 0x10 [5, 16777472, 32, 16777728, 64, 16777984, 0, 0, 0, 0] 17 (id)).setFlag Reg.KS_STATUS F.KS_STATUS_DRBG_OK false) ⟨0, 0⟩ ⟨0, 0x10, 0x01000000, 0⟩ 3 (wKey 17 (algLen 17)) 6 = true ∧
    hypSecureCallsServeKeysByTheirPolicy (wKs 0x10 [5, 16777472, 32, 16777728, 63, 16777984, 0, 0, 0, 0] 17 (id)) ⟨0, 0⟩ ⟨0, 0x10, 0x01000000, 0⟩ 3 (wKey 17 (algLen 17)) 7 = true ∧
    hypSecureCallsServeKeysByTheirPolicy (wKs 0x11 [5, 16777472, 32, 16777728, 0, 16777984, 0, 0, 0, 0] 17 (id)) ⟨0, 0⟩ ⟨0, 0x11, 0x01000000, 0⟩ 3 (wKey 17 (algLen 17)) 8 = true ∧
    hypSecureCallsServeKeysByTheirPolicy (wKs 0x20 [5, 16777472, 20, 16777728, 36, 16777984, 8, 0, 0, 0] 1 (id)) ⟨0, 0⟩ ⟨0, 0x20, 0x01000000, 0⟩ 3 (wKey 1 (algLen 1)) 9 = true ∧
    hypSecureCallsServeKeysByTheirPolicy (wKs 0x21 [5, 16777472, 36, 16777728, 20, 16777984, 8, 0, 0, 0] 2 (id)) ⟨0, 0⟩ ⟨0, 0x21, 0x01000000, 0⟩ 3 (wKey 2 (algLen 2)) 10 = true ∧
    hypSecureCallsServeKeysByTheirPolicy (wKs 0x21 [5, 16777472, 15, 16777728, 20, 16777984, 0, 0, 0, 0] 2 (id)) ⟨0, 0⟩ ⟨0, 0x21, 0x01000000, 0⟩ 3 (wKey 2 (algLen 2)) 11 = true ∧
    hypSecureCallsServeKeysByTheirPolicy (wKs 0x22 [5, 16777472, 20, 16777728, 20, 16777984, 0, 0, 0, 0] 2 (id)) ⟨0, 0⟩ ⟨0, 0x22, 0x01000000, 0⟩ 3 (wKey 2 (algLen 2)) 12 = true ∧
    hypSecureCallsServeKeysByTheirPolicy (wKs 0x30 [5, 16777472, 20, 16777728, 48, 16777984, 0, 0, 0, 0] 17 (id)) ⟨0, 0⟩ ⟨0, 0x30, 0x01000000, 0⟩ 3 (wKey 17 (algLen 17)) 13 = true ∧
    hypSecureCallsServeKeysByTheirPolicy (wKs 0x30 [65541, 16777472, 20, 16777728, 48, 16777984, 0, 0, 0, 0] 17 (id)) ⟨0, 0⟩ ⟨0, 0x30, 0x01000000, 0⟩ 3 (wKey 17 (algLen 17)) 13 = true ∧
    hypSecureCallsServeKeysByTheirPolicy (wKs 0x30 [131077, 16777472, 20, 16777728, 48, 16777984, 0, 0, 0, 0] 17 (id)) ⟨0, 0⟩ ⟨0, 0x30, 0x01000000, 0⟩ 3 (wKey 17 (algLen 17)) 14 = true ∧
    hypSecureCallsServeKeysByTheirPolicy (wKs 0x31 [5, 16777472, 0, 16777728, 40, 16777984, 0, 0, 0, 0] 17 (id)) ⟨0, 0⟩ ⟨0, 0x31, 0x01000000, 0⟩ 3 (wKey 17 (algLen 17)) 15 = true ∧
    hypSecureCallsServeKeysByTheirPolicy (wKs 0x31 [5, 16777472, 0, 16777728, 4097, 16777984, 0, 0, 0, 0] 17 (id)) ⟨0, 0⟩ ⟨0, 0x31, 0x01000000, 0⟩ 3 (wKey 17 (algLen 17)) 16 = true ∧
    hypSecureCallsServeKeysByTheirPolicy ((wKs 0x31 [5, 16777472, 0, 16777728, 40, 16777984, 0, 0, 0, 0] 17 (id)).setFlag Reg.KS_STATUS F.KS_STATUS_DRBG_OK false) ⟨0, 0⟩ ⟨0, 0x31, 0x01000000, 0⟩ 3 (wKey 17 (algLen 17)) 17 = true ∧
    hypSecureCallsServeKeysByTheirPolicy (wKs 0x50 [5, 16777472, 0, 16777728, 16, 16777984, 0, 0, 0, 0] 1 (id)) ⟨0, 0⟩ ⟨0, 0x50, 0x01000000, 0⟩ 3 (wKey 1 (algLen 1)) 18 = true ∧
    hypSecureCallsServeKeysByTheirPolicy (wKs 0x50 [5, 16777472, 0, 16777728, 32, 16777984, 0, 0, 0, 0] 2 (id)) ⟨0, 0⟩ ⟨0, 0x50, 0x01000000, 0⟩ 3 (wKey 2 (algLen 2)) 19 = true := by
  and_intros <;> decide +kernel

/-- The hypotheses of KeysAreStagedCheckedAndCommitted, clause by clause. -/
def hypKeysAreStagedCheckedAndCommitted (s : State) (c : CtxId) (r : KeyReq) (d : Nat) (key : KeyRec) (root : KeyRec) (y : Twin) (clause : Nat) : Bool :=
  let k := ctxKey c
  let call := fun (f : Nat) => s.ksNext k f = some r
  let arg := fun (w : Nat) => s.num (r.block.toNat + 4 * w) 4
  let slot := arg 0 % 32
  let slot2 := arg 0 / 256 % 32
  let opt := arg 0 / 65536
  let inp := s.bytes (arg 1) (arg 2)
  let out := arg 3
  let cap := arg 4
  let inOk := arg 2 = 0 ∨ (arg 1 % 4 = 0 ∧ sramRange (arg 1) (arg 2) = true)
  let auxOk := fun (n : Nat) => n = 0 ∨ (arg 5 % 4 = 0 ∧ sramRange (arg 5) n = true)
  let outOk := cap = 0 ∨ (out % 4 = 0 ∧ sramRange out cap = true)
  let fits := fun (n : Nat) => outOk ∧ n ≤ cap ∧ (r.block.toNat + 32 ≤ out ∨ out + n ≤ r.block.toNat + 28)
  let random := s.flag Reg.KS_STATUS F.KS_STATUS_DRBG_OK = true
  let may := fun (u : Nat) => s.slot slot = some key ∧ bitOf key.use u = true ∧ bitOf key.users (userOf k) = true
  let priv := key.alg = 0x11 ∨ key.alg = 0x12
  let p384 : Bool := key.alg % 16 = 2
  let ec := if p384 = true then 96 else 64
  let adm := engOf k < 8 ∧ bitOf (s.fld Reg.KS_ADMIN F.KS_ADMIN_MASK) (engOf k) = true
  let use := arg 8
  let users := arg 9
  let polOk := fun (alg : Nat) => use < 512 ∧ users < 8192 ∧ (bitOf use 8 = false ∨ alg = 1)
  let len := fun (alg : Nat) => if alg = 0x01 then 16 else if alg = 0x12 then 48 else 32
  let pubLen := fun (alg : Nat) => if alg = 0x11 then 65 else if alg = 0x12 then 97 else 0
  let free_ := fun (n : Nat) => 4 ≤ n ∧ s.timedAt n = none
  let bAlg := numAt inp 4 1
  let bLen := numAt inp 6 2
  let bOk := numAt inp 0 4 = 0x31425A4B ∧ (bAlg = 1 ∨ bAlg = 2 ∨ bAlg = 0x11 ∨ bAlg = 0x12) ∧ numAt inp 5 1 = 1 ∧ bLen = len bAlg ∧ numAt inp 0x24 12 = 0 ∧ arg 2 = 0x30 + bLen + 16 ∧ numAt inp 8 4 < 512 ∧ numAt inp 12 4 < 8192 ∧ (bitOf (numAt inp 8 4) 8 = false ∨ bAlg = 1)
  let tw := s.twin slot
  let ready := tw = some y ∧ y.checked = true ∧ s.timedAt slot = none
  match clause with
  | 1 => decide ((s.domUp 3 = true ∧ s.sramSound ∧ (let w := s.num r.block.toNat 4; w / 32 % 8 = 0 ∧ w / 8192 % 8 = 0 ∧ w < 2 ^ 24) ∧ (s.ctx (ctxKey c)).stall = .scall d ∧ d ≠ 0) ∧ (call 0x46 ∧ ¬adm))
  | 2 => decide ((s.domUp 3 = true ∧ s.sramSound ∧ (let w := s.num r.block.toNat 4; w / 32 % 8 = 0 ∧ w / 8192 % 8 = 0 ∧ w < 2 ^ 24) ∧ (s.ctx (ctxKey c)).stall = .scall d ∧ d ≠ 0) ∧ (call 0x40 ∧ ¬adm))
  | 3 => decide ((s.domUp 3 = true ∧ s.sramSound ∧ (let w := s.num r.block.toNat 4; w / 32 % 8 = 0 ∧ w / 8192 % 8 = 0 ∧ w < 2 ^ 24) ∧ (s.ctx (ctxKey c)).stall = .scall d ∧ d ≠ 0) ∧ (call 0x46 ∧ adm ∧ slot < 4))
  | 4 => decide ((s.domUp 3 = true ∧ s.sramSound ∧ (let w := s.num r.block.toNat 4; w / 32 % 8 = 0 ∧ w / 8192 % 8 = 0 ∧ w < 2 ^ 24) ∧ (s.ctx (ctxKey c)).stall = .scall d ∧ d ≠ 0) ∧ (call 0x41 ∧ adm ∧ slot < 4))
  | 5 => decide ((s.domUp 3 = true ∧ s.sramSound ∧ (let w := s.num r.block.toNat 4; w / 32 % 8 = 0 ∧ w / 8192 % 8 = 0 ∧ w < 2 ^ 24) ∧ (s.ctx (ctxKey c)).stall = .scall d ∧ d ≠ 0) ∧ (call 0x44 ∧ adm ∧ slot < 4))
  | 6 => decide ((s.domUp 3 = true ∧ s.sramSound ∧ (let w := s.num r.block.toNat 4; w / 32 % 8 = 0 ∧ w / 8192 % 8 = 0 ∧ w < 2 ^ 24) ∧ (s.ctx (ctxKey c)).stall = .scall d ∧ d ≠ 0) ∧ (call 0x40 ∧ adm ∧ free_ slot ∧ (opt = 1 ∨ opt = 2 ∨ opt = 0x11 ∨ opt = 0x12) ∧ polOk opt ∧ s.ks.root = some root ∧ random ∧ fits (64 + len opt + pubLen opt)))
  | 7 => decide ((s.domUp 3 = true ∧ s.sramSound ∧ (let w := s.num r.block.toNat 4; w / 32 % 8 = 0 ∧ w / 8192 % 8 = 0 ∧ w < 2 ^ 24) ∧ (s.ctx (ctxKey c)).stall = .scall d ∧ d ≠ 0) ∧ (call 0x40 ∧ adm ∧ 4 ≤ slot ∧ (opt = 1 ∨ opt = 2 ∨ opt = 0x11 ∨ opt = 0x12) ∧ polOk opt ∧ s.ks.root = none))
  | 8 => decide ((s.domUp 3 = true ∧ s.sramSound ∧ (let w := s.num r.block.toNat 4; w / 32 % 8 = 0 ∧ w / 8192 % 8 = 0 ∧ w < 2 ^ 24) ∧ (s.ctx (ctxKey c)).stall = .scall d ∧ d ≠ 0) ∧ (call 0x12 ∧ adm ∧ free_ slot2 ∧ may 4 ∧ priv ∧ (opt = 1 ∨ opt = 2) ∧ arg 2 = 1 + ec ∧ arg 6 ≤ 64 ∧ polOk opt ∧ inOk ∧ auxOk (arg 6) ∧ s.ks.root = some root ∧ random ∧ fits (64 + len opt)))
  | 9 => decide ((s.domUp 3 = true ∧ s.sramSound ∧ (let w := s.num r.block.toNat 4; w / 32 % 8 = 0 ∧ w / 8192 % 8 = 0 ∧ w < 2 ^ 24) ∧ (s.ctx (ctxKey c)).stall = .scall d ∧ d ≠ 0) ∧ (call 0x42 ∧ adm ∧ free_ slot ∧ ((opt = 0x21 ∧ arg 2 = 65) ∨ (opt = 0x22 ∧ arg 2 = 97)) ∧ polOk opt ∧ inOk ∧ inp.head? = some 4))
  | 10 => decide ((s.domUp 3 = true ∧ s.sramSound ∧ (let w := s.num r.block.toNat 4; w / 32 % 8 = 0 ∧ w / 8192 % 8 = 0 ∧ w < 2 ^ 24) ∧ (s.ctx (ctxKey c)).stall = .scall d ∧ d ≠ 0) ∧ (call 0x41 ∧ adm ∧ free_ slot ∧ opt = 0 ∧ s.ks.root = some root ∧ inOk ∧ bOk))
  | 11 => decide ((s.domUp 3 = true ∧ s.sramSound ∧ (let w := s.num r.block.toNat 4; w / 32 % 8 = 0 ∧ w / 8192 % 8 = 0 ∧ w < 2 ^ 24) ∧ (s.ctx (ctxKey c)).stall = .scall d ∧ d ≠ 0) ∧ (call 0x41 ∧ adm ∧ free_ slot ∧ opt = 2 ∧ s.slot slot = none ∧ s.ks.root = some root ∧ inOk ∧ bOk))
  | 12 => decide ((s.domUp 3 = true ∧ s.sramSound ∧ (let w := s.num r.block.toNat 4; w / 32 % 8 = 0 ∧ w / 8192 % 8 = 0 ∧ w < 2 ^ 24) ∧ (s.ctx (ctxKey c)).stall = .scall d ∧ d ≠ 0) ∧ (call 0x41 ∧ adm ∧ 4 ≤ slot ∧ opt = 2 ∧ s.slot slot ≠ none ∧ s.ks.root = some root ∧ inOk))
  | 13 => decide ((s.domUp 3 = true ∧ s.sramSound ∧ (let w := s.num r.block.toNat 4; w / 32 % 8 = 0 ∧ w / 8192 % 8 = 0 ∧ w < 2 ^ 24) ∧ (s.ctx (ctxKey c)).stall = .scall d ∧ d ≠ 0) ∧ (call 0x41 ∧ adm ∧ free_ slot ∧ opt = 0 ∧ s.ks.root = some root ∧ inOk ∧ ¬bOk))
  | 14 => decide ((s.domUp 3 = true ∧ s.sramSound ∧ (let w := s.num r.block.toNat 4; w / 32 % 8 = 0 ∧ w / 8192 % 8 = 0 ∧ w < 2 ^ 24) ∧ (s.ctx (ctxKey c)).stall = .scall d ∧ d ≠ 0) ∧ (call 0x43 ∧ adm ∧ tw = some y ∧ random))
  | 15 => decide ((s.domUp 3 = true ∧ s.sramSound ∧ (let w := s.num r.block.toNat 4; w / 32 % 8 = 0 ∧ w / 8192 % 8 = 0 ∧ w < 2 ^ 24) ∧ (s.ctx (ctxKey c)).stall = .scall d ∧ d ≠ 0) ∧ (call 0x43 ∧ adm ∧ tw = none))
  | 16 => decide ((s.domUp 3 = true ∧ s.sramSound ∧ (let w := s.num r.block.toNat 4; w / 32 % 8 = 0 ∧ w / 8192 % 8 = 0 ∧ w < 2 ^ 24) ∧ (s.ctx (ctxKey c)).stall = .scall d ∧ d ≠ 0) ∧ (call 0x44 ∧ adm ∧ 4 ≤ slot ∧ ready ∧ arg 5 = 0))
  | 17 => decide ((s.domUp 3 = true ∧ s.sramSound ∧ (let w := s.num r.block.toNat 4; w / 32 % 8 = 0 ∧ w / 8192 % 8 = 0 ∧ w < 2 ^ 24) ∧ (s.ctx (ctxKey c)).stall = .scall d ∧ d ≠ 0) ∧ (call 0x44 ∧ adm ∧ 4 ≤ slot ∧ ready ∧ arg 5 ≠ 0 ∧ auxOk 12))
  | 18 => decide ((s.domUp 3 = true ∧ s.sramSound ∧ (let w := s.num r.block.toNat 4; w / 32 % 8 = 0 ∧ w / 8192 % 8 = 0 ∧ w < 2 ^ 24) ∧ (s.ctx (ctxKey c)).stall = .scall d ∧ d ≠ 0) ∧ (call 0x44 ∧ adm ∧ 4 ≤ slot ∧ (tw = none ∨ (tw = some y ∧ y.checked = false) ∨ s.timedAt slot ≠ none)))
  | 19 => decide ((s.domUp 3 = true ∧ s.sramSound ∧ (let w := s.num r.block.toNat 4; w / 32 % 8 = 0 ∧ w / 8192 % 8 = 0 ∧ w < 2 ^ 24) ∧ (s.ctx (ctxKey c)).stall = .scall d ∧ d ≠ 0) ∧ (call 0x45 ∧ adm ∧ s.timedAt slot = none))
  | 20 => decide ((s.domUp 3 = true ∧ s.sramSound ∧ (let w := s.num r.block.toNat 4; w / 32 % 8 = 0 ∧ w / 8192 % 8 = 0 ∧ w < 2 ^ 24) ∧ (s.ctx (ctxKey c)).stall = .scall d ∧ d ≠ 0) ∧ (call 0x45 ∧ adm ∧ s.timedAt slot ≠ none))
  | 21 => decide ((s.domUp 3 = true ∧ s.sramSound ∧ (let w := s.num r.block.toNat 4; w / 32 % 8 = 0 ∧ w / 8192 % 8 = 0 ∧ w < 2 ^ 24) ∧ (s.ctx (ctxKey c)).stall = .scall d ∧ d ≠ 0) ∧ (call 0x46 ∧ adm ∧ 4 ≤ slot))
  | 22 => decide ((s.domUp 3 = true ∧ s.sramSound ∧ (let w := s.num r.block.toNat 4; w / 32 % 8 = 0 ∧ w / 8192 % 8 = 0 ∧ w < 2 ^ 24) ∧ (s.ctx (ctxKey c)).stall = .scall d ∧ d ≠ 0) ∧ (call 0x60 ∧ adm ∧ s.ks.root = none ∧ random))
  | 23 => decide ((s.domUp 3 = true ∧ s.sramSound ∧ (let w := s.num r.block.toNat 4; w / 32 % 8 = 0 ∧ w / 8192 % 8 = 0 ∧ w < 2 ^ 24) ∧ (s.ctx (ctxKey c)).stall = .scall d ∧ d ≠ 0) ∧ (call 0x60 ∧ adm ∧ s.ks.root ≠ none))
  | 24 => decide ((s.domUp 3 = true ∧ s.sramSound ∧ (let w := s.num r.block.toNat 4; w / 32 % 8 = 0 ∧ w / 8192 % 8 = 0 ∧ w < 2 ^ 24) ∧ (s.ctx (ctxKey c)).stall = .scall d ∧ d ≠ 0) ∧ (call 0xFF ∧ adm ∧ bitOf (s.fld Reg.KS_CTRL F.KS_CTRL_TSRC_EN) 4 = true))
  | _ => decide ((s.domUp 3 = true ∧ s.sramSound ∧ (let w := s.num r.block.toNat 4; w / 32 % 8 = 0 ∧ w / 8192 % 8 = 0 ∧ w < 2 ^ 24) ∧ (s.ctx (ctxKey c)).stall = .scall d ∧ d ≠ 0) ∧ (call 0xFF ∧ adm ∧ bitOf (s.fld Reg.KS_CTRL F.KS_CTRL_TSRC_EN) 4 = false))
theorem test_meets_KeysAreStagedCheckedAndCommitted :
    hypKeysAreStagedCheckedAndCommitted ((wKs 0x46 [6, 16777472, 0, 16777728, 0, 16777984, 0, 0, 0, 0] 17 (id)).setFld Reg.KS_ADMIN F.KS_ADMIN_MASK 0xFE) ⟨0, 0⟩ ⟨0, 0x46, 0x01000000, 0⟩ 3 (wKey 17 (algLen 17)) (wKey 2 32) ⟨wKey 2 32, true⟩ 1 = true ∧
    hypKeysAreStagedCheckedAndCommitted ((wKs 0x40 [6, 16777472, 0, 16777728, 0, 16777984, 0, 0, 0, 0] 17 (id)).setFld Reg.KS_ADMIN F.KS_ADMIN_MASK 0xFE) ⟨0, 0⟩ ⟨0, 0x40, 0x01000000, 0⟩ 3 (wKey 17 (algLen 17)) (wKey 2 32) ⟨wKey 2 32, true⟩ 2 = true ∧
    hypKeysAreStagedCheckedAndCommitted (wKs 0x46 [3, 16777472, 0, 16777728, 0, 16777984, 0, 0, 0, 0] 17 (id)) ⟨0, 0⟩ ⟨0, 0x46, 0x01000000, 0⟩ 3 (wKey 17 (algLen 17)) (wKey 2 32) ⟨wKey 2 32, true⟩ 3 = true ∧
    hypKeysAreStagedCheckedAndCommitted (wKs 0x41 [3, 16777472, 0, 16777728, 0, 16777984, 0, 0, 0, 0] 17 (id)) ⟨0, 0⟩ ⟨0, 0x41, 0x01000000, 0⟩ 3 (wKey 17 (algLen 17)) (wKey 2 32) ⟨wKey 2 32, true⟩ 4 = true ∧
    hypKeysAreStagedCheckedAndCommitted (wKs 0x44 [3, 16777472, 0, 16777728, 0, 16777984, 0, 0, 0, 0] 17 (id)) ⟨0, 0⟩ ⟨0, 0x44, 0x01000000, 0⟩ 3 (wKey 17 (algLen 17)) (wKey 2 32) ⟨wKey 2 32, true⟩ 5 = true ∧
    hypKeysAreStagedCheckedAndCommitted (wKs 0x40 [1179654, 16777472, 0, 16777728, 209, 16777984, 0, 0, 4, 1] 17 (fun x => { x with root := some (wKey 2 32) })) ⟨0, 0⟩ ⟨0, 0x40, 0x01000000, 0⟩ 3 (wKey 17 (algLen 17)) (wKey 2 32) ⟨wKey 2 32, true⟩ 6 = true ∧
    hypKeysAreStagedCheckedAndCommitted (wKs 0x40 [131078, 16777472, 0, 16777728, 96, 16777984, 0, 0, 3, 1] 17 (fun x => { x with root := some (wKey 2 32) })) ⟨0, 0⟩ ⟨0, 0x40, 0x01000000, 0⟩ 3 (wKey 17 (algLen 17)) (wKey 2 32) ⟨wKey 2 32, true⟩ 6 = true ∧
    hypKeysAreStagedCheckedAndCommitted (wKs 0x40 [65542, 16777472, 0, 16777728, 96, 16777984, 0, 0, 256, 1] 17 (id)) ⟨0, 0⟩ ⟨0, 0x40, 0x01000000, 0⟩ 3 (wKey 17 (algLen 17)) (wKey 2 32) ⟨wKey 2 32, true⟩ 7 = true ∧
    hypKeysAreStagedCheckedAndCommitted (wKs 0x12 [132613, 16777472, 65, 16777728, 96, 16777984, 8, 0, 3, 1] 17 (fun x => { x with root := some (wKey 2 32) })) ⟨0, 0⟩ ⟨0, 0x12, 0x01000000, 0⟩ 3 (wKey 17 (algLen 17)) (wKey 2 32) ⟨wKey 2 32, true⟩ 8 = true ∧
    hypKeysAreStagedCheckedAndCommitted ((wKs 0x42 [2162694, 16777472, 65, 16777728, 0, 16777984, 0, 0, 8, 1] 17 (id)).putBytes 0x01000100 [4, 1, 2]) ⟨0, 0⟩ ⟨0, 0x42, 0x01000000, 0⟩ 3 (wKey 17 (algLen 17)) (wKey 2 32) ⟨wKey 2 32, true⟩ 9 = true ∧
    hypKeysAreStagedCheckedAndCommitted ((wKs 0x41 [6, 16777472, 96, 16777728, 0, 16777984, 0, 0, 0, 0] 17 (fun x => { x with root := some (wKey 2 32) })).putBytes 0x01000100 (leBytes 4 0x31425A4B ++ [2, 1] ++ leBytes 2 32 ++ leBytes 4 3 ++ leBytes 4 1 ++ List.replicate 32 0 ++ List.replicate 48 7)) ⟨0, 0⟩ ⟨0, 0x41, 0x01000000, 0⟩ 3 (wKey 17 (algLen 17)) (wKey 2 32) ⟨wKey 2 32, true⟩ 10 = true ∧
    hypKeysAreStagedCheckedAndCommitted ((wKs 0x41 [131078, 16777472, 96, 16777728, 0, 16777984, 0, 0, 0, 0] 17 (fun x => { x with root := some (wKey 2 32) })).putBytes 0x01000100 (leBytes 4 0x31425A4B ++ [2, 1] ++ leBytes 2 32 ++ leBytes 4 3 ++ leBytes 4 1 ++ List.replicate 32 0 ++ List.replicate 48 7)) ⟨0, 0⟩ ⟨0, 0x41, 0x01000000, 0⟩ 3 (wKey 17 (algLen 17)) (wKey 2 32) ⟨wKey 2 32, true⟩ 11 = true ∧
    hypKeysAreStagedCheckedAndCommitted ((wKs 0x41 [131077, 16777472, 96, 16777728, 0, 16777984, 0, 0, 0, 0] 17 (fun x => { x with root := some (wKey 2 32) })).putBytes 0x01000100 (leBytes 4 0x31425A4B ++ [2, 1] ++ leBytes 2 32 ++ leBytes 4 3 ++ leBytes 4 1 ++ List.replicate 32 0 ++ List.replicate 48 7)) ⟨0, 0⟩ ⟨0, 0x41, 0x01000000, 0⟩ 3 (wKey 17 (algLen 17)) (wKey 2 32) ⟨wKey 2 32, true⟩ 12 = true ∧
    hypKeysAreStagedCheckedAndCommitted ((wKs 0x41 [6, 16777472, 96, 16777728, 0, 16777984, 0, 0, 0, 0] 17 (fun x => { x with root := some (wKey 2 32) })).putBytes 0x01000100 (leBytes 4 0x31425A4B ++ [2, 2] ++ leBytes 2 32 ++ leBytes 4 3 ++ leBytes 4 1 ++ List.replicate 32 0 ++ List.replicate 48 7)) ⟨0, 0⟩ ⟨0, 0x41, 0x01000000, 0⟩ 3 (wKey 17 (algLen 17)) (wKey 2 32) ⟨wKey 2 32, true⟩ 13 = true ∧
    hypKeysAreStagedCheckedAndCommitted (wKs 0x43 [6, 16777472, 0, 16777728, 0, 16777984, 0, 0, 0, 0] 17 (fun x => { x with twin := [(6, some ⟨wKey 0x11 32, true⟩)] })) ⟨0, 0⟩ ⟨0, 0x43, 0x01000000, 0⟩ 3 (wKey 17 (algLen 17)) (wKey 2 32) ⟨wKey 0x11 32, true⟩ 14 = true ∧
    hypKeysAreStagedCheckedAndCommitted (wKs 0x43 [6, 16777472, 0, 16777728, 0, 16777984, 0, 0, 0, 0] 17 (fun x => { x with twin := [(6, some ⟨wKey 2 32, true⟩)] })) ⟨0, 0⟩ ⟨0, 0x43, 0x01000000, 0⟩ 3 (wKey 17 (algLen 17)) (wKey 2 32) ⟨wKey 2 32, true⟩ 14 = true ∧
    hypKeysAreStagedCheckedAndCommitted (wKs 0x43 [6, 16777472, 0, 16777728, 0, 16777984, 0, 0, 0, 0] 17 (id)) ⟨0, 0⟩ ⟨0, 0x43, 0x01000000, 0⟩ 3 (wKey 17 (algLen 17)) (wKey 2 32) ⟨wKey 2 32, true⟩ 15 = true ∧
    hypKeysAreStagedCheckedAndCommitted (wKs 0x44 [6, 16777472, 0, 16777728, 0, 0, 0, 0, 0, 0] 17 (fun x => { x with twin := [(6, some ⟨wKey 2 32, true⟩)] })) ⟨0, 0⟩ ⟨0, 0x44, 0x01000000, 0⟩ 3 (wKey 17 (algLen 17)) (wKey 2 32) ⟨wKey 2 32, true⟩ 16 = true ∧
    hypKeysAreStagedCheckedAndCommitted (wKs 0x44 [6, 16777472, 0, 16777728, 0, 16777984, 0, 0, 0, 0] 17 (fun x => { x with twin := [(6, some ⟨wKey 2 32, true⟩)] })) ⟨0, 0⟩ ⟨0, 0x44, 0x01000000, 0⟩ 3 (wKey 17 (algLen 17)) (wKey 2 32) ⟨wKey 2 32, true⟩ 17 = true ∧
    hypKeysAreStagedCheckedAndCommitted (wKs 0x44 [6, 16777472, 0, 16777728, 0, 0, 0, 0, 0, 0] 17 (fun x => { x with twin := [(6, some ⟨wKey 2 32, true⟩)], timed := [(6, some 9)] })) ⟨0, 0⟩ ⟨0, 0x44, 0x01000000, 0⟩ 3 (wKey 17 (algLen 17)) (wKey 2 32) ⟨wKey 2 32, true⟩ 18 = true ∧
    hypKeysAreStagedCheckedAndCommitted (wKs 0x44 [6, 16777472, 0, 16777728, 0, 16777984, 0, 0, 0, 0] 17 (id)) ⟨0, 0⟩ ⟨0, 0x44, 0x01000000, 0⟩ 3 (wKey 17 (algLen 17)) (wKey 2 32) ⟨wKey 2 32, true⟩ 18 = true ∧
    hypKeysAreStagedCheckedAndCommitted (wKs 0x45 [6, 16777472, 0, 16777728, 0, 16777984, 0, 0, 0, 0] 17 (fun x => { x with twin := [(6, some ⟨wKey 2 32, true⟩)] })) ⟨0, 0⟩ ⟨0, 0x45, 0x01000000, 0⟩ 3 (wKey 17 (algLen 17)) (wKey 2 32) ⟨wKey 2 32, true⟩ 19 = true ∧
    hypKeysAreStagedCheckedAndCommitted (wKs 0x45 [6, 16777472, 0, 16777728, 0, 16777984, 0, 0, 0, 0] 17 (fun x => { x with twin := [(6, some ⟨wKey 2 32, true⟩)], timed := [(6, some 9)] })) ⟨0, 0⟩ ⟨0, 0x45, 0x01000000, 0⟩ 3 (wKey 17 (algLen 17)) (wKey 2 32) ⟨wKey 2 32, true⟩ 20 = true ∧
    hypKeysAreStagedCheckedAndCommitted (wKs 0x46 [5, 16777472, 0, 16777728, 0, 16777984, 0, 0, 0, 0] 17 (fun x => { x with timed := [(5, some 9)] })) ⟨0, 0⟩ ⟨0, 0x46, 0x01000000, 0⟩ 3 (wKey 17 (algLen 17)) (wKey 2 32) ⟨wKey 2 32, true⟩ 21 = true ∧
    hypKeysAreStagedCheckedAndCommitted (wKs 0x60 [5, 16777472, 0, 16777728, 0, 16777984, 0, 0, 0, 0] 17 (id)) ⟨0, 0⟩ ⟨0, 0x60, 0x01000000, 0⟩ 3 (wKey 17 (algLen 17)) (wKey 2 32) ⟨wKey 2 32, true⟩ 22 = true ∧
    hypKeysAreStagedCheckedAndCommitted (wKs 0x60 [5, 16777472, 0, 16777728, 0, 16777984, 0, 0, 0, 0] 17 (fun x => { x with root := some (wKey 2 32) })) ⟨0, 0⟩ ⟨0, 0x60, 0x01000000, 0⟩ 3 (wKey 17 (algLen 17)) (wKey 2 32) ⟨wKey 2 32, true⟩ 23 = true ∧
    hypKeysAreStagedCheckedAndCommitted (wKs 0xFF [5, 16777472, 0, 16777728, 0, 16777984, 0, 0, 0, 0] 17 (fun x => { x with root := some (wKey 2 32) })) ⟨0, 0⟩ ⟨0, 0xFF, 0x01000000, 0⟩ 3 (wKey 17 (algLen 17)) (wKey 2 32) ⟨wKey 2 32, true⟩ 24 = true ∧
    hypKeysAreStagedCheckedAndCommitted ((wKs 0xFF [5, 16777472, 0, 16777728, 0, 16777984, 0, 0, 0, 0] 17 (fun x => { x with root := some (wKey 2 32) })).setFld Reg.KS_CTRL F.KS_CTRL_TSRC_EN 0x0F) ⟨0, 0⟩ ⟨0, 0xFF, 0x01000000, 0⟩ 3 (wKey 17 (algLen 17)) (wKey 2 32) ⟨wKey 2 32, true⟩ 25 = true := by
  and_intros <;> decide +kernel

/-- The hypotheses of ZeroisationAndKeyStoreHousekeeping, clause by clause. -/
def hypZeroisationAndKeyStoreHousekeeping (s : State) (src : Fin 5) (n : Fin 32) (x : CtxId) (d : Nat) (y : Twin) (u : Nat) (clause : Nat) : Bool :=
  let z := src.val + 1
  let on := s.acts .keyStore
  let src_ := z = 1 ∨ (s.domUp 3 = true ∧ bitOf (s.fld Reg.KS_CTRL F.KS_CTRL_TSRC_EN) (z - 2) = true)
  let drbg := s.flag Reg.KS_STATUS F.KS_STATUS_DRBG_OK
  let period := min 100 (if s.fld Reg.KS_CTRL F.KS_CTRL_REMASK = 0 then 1 else s.fld Reg.KS_CTRL F.KS_CTRL_REMASK) * 1600000000
  match clause with
  | 1 => decide ((src_))
  | 2 => decide ((src_ ∧ s.domUp 3 = true ∧ (s.ctx (ctxKey x)).stall = .scall d ∧ d ≠ 0 ∧ s.ks.reqs.any (fun w => decide (w.ctx = ctxKey x)) = true))
  | 3 => decide ((¬src_))
  | 4 => decide ((on ∧ s.timedAt n.val = some u ∧ u ≤ s.tbNs 0 ∧ s.twin n.val = some y))
  | 5 => decide ((on ∧ s.timedAt n.val = some u ∧ s.tbNs 0 < u))
  | 6 => decide ((on ∧ s.ks.maskAt + period ≤ s.now ∧ (s.slot n.val).all (fun w => decide (w.shareA.length = w.shareB.length ∧ w.shareA.length ≤ 97)) = true))
  | 7 => decide ((on ∧ s.now < s.ks.maskAt + period))
  | 8 => decide ((on))
  | 9 => decide ((on ∧ drbg = false ∧ s.ks.seedAt + 1600000000 ≤ s.now))
  | 10 => decide ((on ∧ (drbg = true ∨ s.now < s.ks.seedAt + 1600000000)))
  | 11 => decide ((on))
  | _ => decide ((on))
theorem test_meets_ZeroisationAndKeyStoreHousekeeping :
    hypZeroisationAndKeyStoreHousekeeping ((wKs 0x10 [5, 16777472, 0, 16777728, 0, 16777984, 0, 0, 0, 0] 17 (fun x => { x with root := some (wKey 2 32) })).setFld Reg.PWR_STATUS F.PWR_STATUS_UP 0) 0 0 ⟨0, 0⟩ 0 ⟨wKey 2 32, true⟩ 0 1 = true ∧
    hypZeroisationAndKeyStoreHousekeeping (wKs 0x10 [5, 16777472, 0, 16777728, 0, 16777984, 0, 0, 0, 0] 17 (fun x => { x with root := some (wKey 2 32) })) 0 0 ⟨0, 0⟩ 0 ⟨wKey 2 32, true⟩ 0 1 = true ∧
    hypZeroisationAndKeyStoreHousekeeping (wKs 0x10 [5, 16777472, 0, 16777728, 0, 16777984, 0, 0, 0, 0] 17 (fun x => { x with root := some (wKey 2 32) })) 4 0 ⟨0, 0⟩ 0 ⟨wKey 2 32, true⟩ 0 1 = true ∧
    hypZeroisationAndKeyStoreHousekeeping (wKs 0x10 [5, 16777472, 0, 16777728, 0, 16777984, 0, 0, 0, 0] 17 (fun x => { x with root := some (wKey 2 32) })) 1 0 ⟨0, 0⟩ 3 ⟨wKey 2 32, true⟩ 0 2 = true ∧
    hypZeroisationAndKeyStoreHousekeeping ((wKs 0x10 [5, 16777472, 0, 16777728, 0, 16777984, 0, 0, 0, 0] 17 (fun x => { x with root := some (wKey 2 32) })).setFld Reg.KS_CTRL F.KS_CTRL_TSRC_EN 0x1E) 1 0 ⟨0, 0⟩ 0 ⟨wKey 2 32, true⟩ 0 3 = true ∧
    hypZeroisationAndKeyStoreHousekeeping (wKs 0x10 [5, 16777472, 0, 16777728, 0, 16777984, 0, 0, 0, 0] 17 (fun x => { x with twin := [(6, some ⟨wKey 2 32, true⟩)], timed := [(6, some 0)] })) 0 6 ⟨0, 0⟩ 0 ⟨wKey 2 32, true⟩ 0 4 = true ∧
    hypZeroisationAndKeyStoreHousekeeping (wKs 0x10 [5, 16777472, 0, 16777728, 0, 16777984, 0, 0, 0, 0] 17 (fun x => { x with twin := [(6, some ⟨wKey 2 32, true⟩)], timed := [(6, some 5)] })) 0 6 ⟨0, 0⟩ 0 ⟨wKey 2 32, true⟩ 5 5 = true ∧
    hypZeroisationAndKeyStoreHousekeeping ((wKs 0x10 [5, 16777472, 0, 16777728, 0, 16777984, 0, 0, 0, 0] 17 (id)).setNow 16000000000) 0 5 ⟨0, 0⟩ 0 ⟨wKey 2 32, true⟩ 0 6 = true ∧
    hypZeroisationAndKeyStoreHousekeeping ((wKs 0x10 [5, 16777472, 0, 16777728, 0, 16777984, 0, 0, 0, 0] 17 (id)).setNow 15999999999) 0 0 ⟨0, 0⟩ 0 ⟨wKey 2 32, true⟩ 0 7 = true ∧
    hypZeroisationAndKeyStoreHousekeeping (wKs 0x10 [5, 16777472, 0, 16777728, 0, 16777984, 0, 0, 0, 0] 17 (id)) 0 0 ⟨0, 0⟩ 0 ⟨wKey 2 32, true⟩ 0 8 = true ∧
    hypZeroisationAndKeyStoreHousekeeping (((fun a b c d => (wKs a b c d).setFlag Reg.KS_STATUS F.KS_STATUS_DRBG_OK false) 0x10 [5, 16777472, 0, 16777728, 0, 16777984, 0, 0, 0, 0] 17 (id)).setNow 1600000000) 0 0 ⟨0, 0⟩ 0 ⟨wKey 2 32, true⟩ 0 9 = true ∧
    hypZeroisationAndKeyStoreHousekeeping (wKs 0x10 [5, 16777472, 0, 16777728, 0, 16777984, 0, 0, 0, 0] 17 (id)) 0 0 ⟨0, 0⟩ 0 ⟨wKey 2 32, true⟩ 0 10 = true ∧
    hypZeroisationAndKeyStoreHousekeeping ((wKs 0x10 [5, 16777472, 0, 16777728, 0, 16777984, 0, 0, 0, 0] 17 (id)).setFlag Reg.KS_ADMIN F.KS_ADMIN_LOCK true) 0 0 ⟨0, 0⟩ 0 ⟨wKey 2 32, true⟩ 0 11 = true ∧
    hypZeroisationAndKeyStoreHousekeeping (wKs 0x10 [5, 16777472, 0, 16777728, 0, 16777984, 0, 0, 0, 0] 17 (id)) 0 0 ⟨0, 0⟩ 0 ⟨wKey 2 32, true⟩ 0 11 = true ∧
    hypZeroisationAndKeyStoreHousekeeping ((wKs 0x10 [5, 16777472, 0, 16777728, 0, 16777984, 0, 0, 0, 0] 17 (id)).setFlag Reg.KS_CTRL F.KS_CTRL_LOCK true) 0 0 ⟨0, 0⟩ 0 ⟨wKey 2 32, true⟩ 0 12 = true ∧
    hypZeroisationAndKeyStoreHousekeeping (wKs 0x10 [5, 16777472, 0, 16777728, 0, 16777984, 0, 0, 0, 0] 17 (id)) 0 0 ⟨0, 0⟩ 0 ⟨wKey 2 32, true⟩ 0 12 = true := by
  and_intros <;> decide +kernel

/-- The hypotheses of SafeInputsAndOutputsActByRule, clause by clause. -/
def hypSafeInputsAndOutputsActByRule (s : State) (m : Fin 10) (n : Fin 16) (o : Fin 8) (w : Word) (rest : List Word) (chB : Bool) (level : Bool) (readsOn : Bool) (changes : Nat) (us : Nat) (u : Nat) (clause : Nat) : Bool :=
  let x := s.selv
  let j := m.val
  let k := n.val
  let head := x.inbox = w :: rest ∧ x.confSeen = 0
  let type := w.toNat / 2 ^ 28
  let seq := w.toNat % 64
  let req := bitOf (w.toNat / 2 ^ 16 % 1024) j
  let valid := head ∧ type = 1 ∧ (x.permitDue = none ∨ seq = (s.fld Reg.SFS_PERMIT F.SFS_PERMIT_SEQ + 1) % 64)
  let bt := fun (f : Fld) => s.flag Reg.SFS_BRAKE f
  let brake := bt F.SFS_BRAKE_BT_FAIL = false ∧ bt F.SFS_BRAKE_BT_RUN = false ∧ (bt F.SFS_BRAKE_BT_DUE = true → s.scfg 0x130 4 ≠ 0 → s.energ 9 = true)
  let firm := s.sfsState = 1 ∧ s.scfg (0x90 + 16 * j) 1 = 1 ∧ bitOf (s.lfld Reg.SFS_OUT_EN F.SFS_OUT_EN_SAFE_EN) j = true ∧ s.outFault j = false ∧ (j = 9 → brake)
  let around := s.owned = true ∧ s.flag Reg.SFS_STATUS F.SFS_STATUS_RST_NOTE = false
  let low := s.currentLow j = true
  let on := fun (t : State) => t.energ j = true
  let soft := fun (t : State) => t.outSoft j = true
  let ms := 16000000
  let ch := s.rawCurrent o.val
  let so := s.safeOut j
  let mode := s.scfg (0x10 + 8 * k) 1
  let p := s.safePair k
  let filt := s.scfg (0x11 + 8 * k) 1 * 500
  let okLevel := fun (b : Bool) => if b = true then decide (mode = 1) else true
  let calm := bt F.SFS_BRAKE_BT_RUN = false
  match clause with
  | 1 => decide ((s.acts .selvedge) ∧ (valid))
  | 2 => decide ((s.acts .selvedge) ∧ (valid ∧ req = true ∧ firm ∧ around ∧ s.energ j = false))
  | 3 => decide ((s.acts .selvedge) ∧ (valid ∧ s.energ j = false ∧ ¬(req = true ∧ firm ∧ around)))
  | 4 => decide ((s.acts .selvedge) ∧ (valid ∧ req = false ∧ firm ∧ j ≠ 9 ∧ on s ∧ ¬soft s ∧ ¬low))
  | 5 => decide ((s.acts .selvedge) ∧ (valid ∧ req = false ∧ firm ∧ on s ∧ (j = 9 ∨ low)))
  | 6 => decide ((s.acts .selvedge) ∧ (head ∧ type = 1 ∧ ¬valid))
  | 7 => decide ((s.acts .selvedge) ∧ (x.permitDue = some u ∧ u / 160 < s.now / 160))
  | 8 => decide ((s.acts .selvedge) ∧ (x.permitDue = some u ∧ s.now / 160 ≤ u / 160))
  | 9 => decide ((s.acts .selvedge))
  | 10 => decide ((s.acts .selvedge) ∧ (ch.last = some u ∧ u + ms ≤ s.now))
  | 11 => decide ((s.acts .selvedge) ∧ (on s ∧ soft s ∧ so.softAt = some u ∧ u + 20 * ms ≤ s.now ∧ s.permits j = false))
  | 12 => decide ((s.acts .selvedge) ∧ (so.softAt = some u ∧ s.now < u + 20 * ms))
  | 13 => decide ((s.acts .selvedge) ∧ (on s ∧ ¬soft s ∧ so.pulse = none ∧ (if chB = true then so.nextB else so.nextA) = some u ∧ u ≤ s.now))
  | 14 => decide ((s.acts .selvedge) ∧ (¬on s ∨ soft s ∨ so.pulse ≠ none))
  | 15 => decide ((s.acts .selvedge) ∧ (so.pulse = some (chB, u) ∧ u + s.scfg 0xA 2 * 16000 ≤ s.now))
  | 16 => decide ((s.acts .selvedge) ∧ (so.pulse = some (chB, u) ∧ u + s.scfg 0xA 2 * 16000 ≤ s.now))
  | 17 => decide ((s.acts .selvedge) ∧ (100 < us ∧ s.outFault j = false ∧ (if readsOn = true then s.energ j = false else s.energ j = true ∧ so.pulse = none)))
  | 18 => decide ((s.acts .selvedge) ∧ (us ≤ 100))
  | 19 => decide ((s.acts .selvedge) ∧ (us < filt))
  | 20 => decide ((s.acts .selvedge) ∧ (level ≠ okLevel chB ∧ filt ≤ us ∧ (mode = 1 ∨ mode = 2)))
  | 21 => decide ((s.acts .selvedge) ∧ (level = okLevel chB ∧ filt ≤ us ∧ (mode = 1 ∨ mode = 2) ∧ s.chanOk k (!chB) = true ∧ p.disc = false ∧ p.stuck = false))
  | 22 => decide ((s.acts .selvedge) ∧ (level ≠ okLevel chB ∧ filt ≤ us ∧ (mode = 1 ∨ mode = 2) ∧ s.chanOk k (!chB) = false))
  | 23 => decide ((s.acts .selvedge) ∧ (mode ≠ 0 ∧ calm ∧ p.disc = false ∧ p.disSince = some u ∧ u + s.scfg (0x12 + 8 * k) 2 * ms ≤ s.now))
  | 24 => decide ((s.acts .selvedge) ∧ (mode ≠ 0 ∧ calm ∧ p.stuck = false ∧ (p.okSince ≠ none → s.pairOk k = true) ∧ ((s.scfg (0x16 + 8 * k) 1 ≠ 0 ∧ s.scfg (0x16 + 8 * k) 1 < changes) ∨ (s.scfg (0x14 + 8 * k) 2 ≠ 0 ∧ p.okSince = some u ∧ u + s.scfg (0x14 + 8 * k) 2 * 1000 * ms ≤ s.now))))
  | 25 => decide ((s.acts .selvedge) ∧ (head ∧ type = 2 ∧ s.scfg 0xF 1 = 1 ∧ bitOf (w.toNat % 65536) k = true ∧ p.stuck = true))
  | _ => decide ((s.acts .selvedge) ∧ (head ∧ type = 2 ∧ s.scfg 0xF 1 = 1 ∧ w.toNat % 65536 = 0 ∧ w.toNat / 2 ^ 16 % 1024 = 2 ^ j ∧ s.outFault j = true))
theorem test_meets_SafeInputsAndOutputsActByRule :
    hypSafeInputsAndOutputsActByRule (wSel (fun x => { x with inbox := [0x10080005, 5] })) 3 0 0 0x10080005 [5] false false false 0 0 0 1 = true ∧
    hypSafeInputsAndOutputsActByRule ((wSel (fun x => { x with inbox := [0x10080005, 5] })).setFld Reg.SFS_OUT_FLT F.SFS_OUT_FLT_SOFT 0) 3 0 0 0x10080005 [5] false false false 0 0 0 2 = true ∧
    hypSafeInputsAndOutputsActByRule ((wSel (fun x => { x with inbox := [0x12000001, 5], permitDue := some 160000000 })).setFlag Reg.SFS_BRAKE F.SFS_BRAKE_BT_DUE false) 9 0 0 0x12000001 [5] false false false 0 0 0 2 = true ∧
    hypSafeInputsAndOutputsActByRule ((wSel (fun x => { x with inbox := [0x10080005, 5] })).setBit Reg.SFS_OUT_FLT F.SFS_OUT_FLT_FAULT 3 true) 3 0 0 0x10080005 [5] false false false 0 0 0 3 = true ∧
    hypSafeInputsAndOutputsActByRule (wSel (fun x => { x with inbox := [0x12000001, 5], permitDue := some 160000000 })) 9 0 0 0x12000001 [5] false false false 0 0 0 3 = true ∧
    hypSafeInputsAndOutputsActByRule (((wSel (fun x => { x with inbox := [0x10000001, 5], permitDue := some 1, current := [(3, ⟨[99999, 0, 0, 0], some 0, false⟩)] })).setFld Reg.SFS_OUT F.SFS_OUT_ENERG 0x8).setFld Reg.SFS_OUT F.SFS_OUT_PERMIT 0x208) 3 0 0 0x10000001 [5] false false false 0 0 0 4 = true ∧
    hypSafeInputsAndOutputsActByRule (((wSel (fun x => { x with inbox := [0x10000001, 5], permitDue := some 1, current := [(3, ⟨[1, 2, 3, 4], some 0, false⟩)] })).setFld Reg.SFS_OUT F.SFS_OUT_ENERG 0x8).setFld Reg.SFS_OUT F.SFS_OUT_PERMIT 0x208) 3 0 0 0x10000001 [5] false false false 0 0 0 5 = true ∧
    hypSafeInputsAndOutputsActByRule (((wSel (fun x => { x with inbox := [0x10000001, 5], permitDue := some 160000000 })).setFld Reg.SFS_OUT F.SFS_OUT_ENERG 0x200).setFld Reg.SFS_OUT F.SFS_OUT_PERMIT 0x208) 9 0 0 0x10000001 [5] false false false 0 0 0 5 = true ∧
    hypSafeInputsAndOutputsActByRule (wSel (fun x => { x with inbox := [0x10000002, 5], permitDue := some 160000000 })) 3 0 0 0x10000002 [5] false false false 0 0 0 6 = true ∧
    hypSafeInputsAndOutputsActByRule ((((wSel (fun x => { x with permitDue := some 0 })).setFld Reg.SFS_OUT F.SFS_OUT_ENERG 0x200).setFld Reg.SFS_OUT F.SFS_OUT_PERMIT 0x208).setNow 160) 9 0 0 0 [5] false false false 0 0 0 7 = true ∧
    hypSafeInputsAndOutputsActByRule ((((wSel (fun x => { x with permitDue := some 0, current := [(3, ⟨[99999, 0, 0, 0], some 0, false⟩)] })).setFld Reg.SFS_OUT F.SFS_OUT_ENERG 0x8).setFld Reg.SFS_OUT F.SFS_OUT_PERMIT 0x208).setNow 160) 3 0 0 0 [5] false false false 0 0 0 7 = true ∧
    hypSafeInputsAndOutputsActByRule ((wSel (fun x => { x with permitDue := some 1 })).setNow 159) 3 0 0 0 [5] false false false 0 0 1 8 = true ∧
    hypSafeInputsAndOutputsActByRule (((wSel (fun x => { x with current := [(3, ⟨[1, 2, 3], none, true⟩)] })).setFld Reg.SFS_OUT F.SFS_OUT_ENERG 0x8).setFld Reg.SFS_OUT_FLT F.SFS_OUT_FLT_SOFT 8) 3 0 3 0 [5] false false false 0 0 0 9 = true ∧
    hypSafeInputsAndOutputsActByRule ((wSel (fun x => { x with current := [(3, ⟨[99999, 0, 0, 0], some 0, false⟩)] })).setNow 16000000) 0 0 3 0 [] false false false 0 0 0 10 = true ∧
    hypSafeInputsAndOutputsActByRule ((((wSel (fun x => { x with outs := [(3, ⟨some 0, none, none, none⟩)] })).setFld Reg.SFS_OUT F.SFS_OUT_ENERG 0x8).setFld Reg.SFS_OUT_FLT F.SFS_OUT_FLT_SOFT 8).setNow 320000000) 3 0 0 0 [] false false false 0 0 0 11 = true ∧
    hypSafeInputsAndOutputsActByRule ((((wSel (fun x => { x with outs := [(3, ⟨some 0, none, none, none⟩)] })).setFld Reg.SFS_OUT F.SFS_OUT_ENERG 0x8).setFld Reg.SFS_OUT_FLT F.SFS_OUT_FLT_SOFT 8).setNow 319999999) 3 0 0 0 [] false false false 0 0 0 12 = true ∧
    hypSafeInputsAndOutputsActByRule ((wSel (fun x => { x with outs := [(3, ⟨none, some 9, some 0, none⟩)] })).setFld Reg.SFS_OUT F.SFS_OUT_ENERG 0x8) 3 0 0 0 [] true false false 0 0 0 13 = true ∧
    hypSafeInputsAndOutputsActByRule ((wSel (fun x => { x with outs := [(3, ⟨none, some 0, none, some (true, 0)⟩)] })).setFld Reg.SFS_OUT F.SFS_OUT_ENERG 0x8) 3 0 0 0 [] false false false 0 0 0 14 = true ∧
    hypSafeInputsAndOutputsActByRule (((wSel (fun x => { x with outs := [(3, ⟨none, some 0, none, some (false, 0)⟩)] })).setFld Reg.SFS_OUT F.SFS_OUT_ENERG 0x8).setNow 4800000) 3 0 0 0 [] false false false 0 0 0 15 = true ∧
    hypSafeInputsAndOutputsActByRule (((wSel (fun x => { x with outs := [(3, ⟨none, some 0, none, some (false, 0)⟩)] })).setFld Reg.SFS_OUT F.SFS_OUT_ENERG 0x8).setNow 4800000) 3 0 0 0 [] false false false 0 0 0 16 = true ∧
    hypSafeInputsAndOutputsActByRule ((wSel (id)).setFld Reg.SFS_OUT F.SFS_OUT_ENERG 0x8) 3 0 0 0 [] false false false 0 101 0 17 = true ∧
    hypSafeInputsAndOutputsActByRule (wSel (id)) 3 0 0 0 [] false false true 0 101 0 17 = true ∧
    hypSafeInputsAndOutputsActByRule (wSel (id)) 3 0 0 0 [] false false true 0 100 0 18 = true ∧
    hypSafeInputsAndOutputsActByRule (wHigh (wSel id)) 0 2 0 0 [] false false false 0 3999 0 19 = true ∧
    hypSafeInputsAndOutputsActByRule (wHigh (wSel id)) 0 2 0 0 [] false false false 0 4000 0 20 = true ∧
    hypSafeInputsAndOutputsActByRule (wHigh (wSel id)) 0 2 0 0 [] true false false 0 4000 0 20 = true ∧
    hypSafeInputsAndOutputsActByRule ((wHigh (wSel id)).setBit Reg.SFS_RAW F.SFS_RAW_LVL_A 2 false) 0 2 0 0 [] false true false 0 4000 0 21 = true ∧
    hypSafeInputsAndOutputsActByRule ((wHigh (wSel (fun x => { x with pairs := [(2, { SafePair.reset with disc := true })] }))).setBit Reg.SFS_RAW F.SFS_RAW_LVL_A 2 false) 0 2 0 0 [] true false false 0 4000 0 22 = true ∧
    hypSafeInputsAndOutputsActByRule ((wSel (fun x => { x with pairs := [(2, { SafePair.reset with disSince := some 0 })] })).setNow 160000000) 0 2 0 0 [] false false false 0 0 0 23 = true ∧
    hypSafeInputsAndOutputsActByRule (wHigh ((wSel (fun x => { x with pairs := [(2, { SafePair.reset with okSince := some 0 })] })).setNow 80000000000)) 0 2 0 0 [] false false false 0 0 0 24 = true ∧
    hypSafeInputsAndOutputsActByRule (wSel id) 0 2 0 0 [] false false false 4 0 0 24 = true ∧
    hypSafeInputsAndOutputsActByRule (wHigh (wSel (fun x => { x with inbox := [0x20000004, 5], pairs := [(2, { SafePair.reset with stuck := true })] }))) 3 2 0 0x20000004 [5] false false false 0 0 0 25 = true ∧
    hypSafeInputsAndOutputsActByRule (wSel (fun x => { x with inbox := [0x20000004, 5], pairs := [(2, { SafePair.reset with stuck := true })] })) 3 2 0 0x20000004 [5] false false false 0 0 0 25 = true ∧
    hypSafeInputsAndOutputsActByRule ((wSel (fun x => { x with inbox := [0x20080000, 5] })).setBit Reg.SFS_OUT_FLT F.SFS_OUT_FLT_FAULT 3 true) 3 0 0 0x20080000 [5] false false false 0 0 0 26 = true := by
  and_intros <;> decide +kernel

/-- The hypotheses of SelvedgeCyclesConfirmsAndStopsOnPairFaults, clause by clause. -/
def hypSelvedgeCyclesConfirmsAndStopsOnPairFaults (s : State) (w : Word) (rest : List Word) (count : Nat) (gap : Nat) (supply : Nat) (u : Nat) (clause : Nat) : Bool :=
  let x := s.selv
  let head := x.inbox = w :: rest
  let type := w.toNat / 2 ^ 28
  let bare := w.toNat % 2 ^ 28 = 0
  let state := fun (t : State) => t.fld Reg.SFS_STATUS F.SFS_STATUS_STATE
  let cyc := x.cycleAt = some u ∧ u ≤ s.now
  let done := x.cycleOpen = false ∨ x.committed = true
  let low := count < 98000 ∨ 102000 < count
  let sum := crc32 (s.bytes pairDtcm 0x1FC) = s.rd Reg.SFS_CHK
  let crc := x.crcAt = some u ∧ u ≤ s.now
  let bt := fun (t : State) (f : Fld) => t.flag Reg.SFS_BRAKE f
  let motion := s.scfg 0xE 1
  let test := head ∧ x.confSeen = 0 ∧ type = 3
  let may := s.energ 9 = false ∧ motion ≠ 0xFF ∧ bt s F.SFS_BRAKE_BT_RUN = false
  let braked := x.brakeEnd = some u ∧ u ≤ s.now
  let key := s.pairOk (s.scfg 0xD 1) = true
  let idle := s.fld Reg.SFS_OUT F.SFS_OUT_ENERG = 0
  let same := x.confWord = s.rd Reg.SFS_CHK ∧ w = s.rd Reg.SFS_PROG
  let late := s.confLate
  let third := late = false ∧ head ∧ x.confSeen = 2
  match clause with
  | 1 => decide ((s.acts .selvedge) ∧ (cyc ∧ ¬done))
  | 2 => decide ((s.acts .selvedge) ∧ (cyc ∧ done))
  | 3 => decide ((s.acts .selvedge) ∧ (x.cycleAt = some u ∧ s.now < u))
  | 4 => decide ((s.acts .selvedge))
  | 5 => decide ((s.acts .selvedge))
  | 6 => decide ((s.acts .selvedge) ∧ (10 < supply))
  | 7 => decide ((s.acts .selvedge) ∧ (supply ≤ 10 ∧ (100000 ≤ gap ∨ (low ∧ x.badCount = true))))
  | 8 => decide ((s.acts .selvedge) ∧ (supply ≤ 10 ∧ gap < 100000 ∧ (¬low ∨ x.badCount = false)))
  | 9 => decide ((s.acts .selvedge) ∧ (crc ∧ ¬sum))
  | 10 => decide ((s.acts .selvedge) ∧ (crc ∧ sum))
  | 11 => decide ((s.acts .selvedge) ∧ (test ∧ may))
  | 12 => decide ((s.acts .selvedge) ∧ (test ∧ bare ∧ ¬may))
  | 13 => decide ((s.acts .selvedge) ∧ (braked ∧ x.brakeFailed = false))
  | 14 => decide ((s.acts .selvedge) ∧ (braked ∧ x.brakeFailed = true))
  | 15 => decide ((s.acts .selvedge) ∧ (state s ≠ 0 ∧ state s ≠ 3 ∧ s.scfg 0x130 4 ≠ 0 ∧ s.scfg 0x130 4 ≤ min 0xFFFFFF ((s.now - x.ageAt) / 16000000000)))
  | 16 => decide ((s.acts .selvedge) ∧ (late = false ∧ head ∧ x.confSeen = 0 ∧ type = 4))
  | 17 => decide ((s.acts .selvedge) ∧ (late = false ∧ head ∧ x.confSeen = 1))
  | 18 => decide ((s.acts .selvedge) ∧ (third ∧ key ∧ idle ∧ same))
  | 19 => decide ((s.acts .selvedge) ∧ (third ∧ ¬(key ∧ idle ∧ same)))
  | 20 => decide ((s.acts .selvedge) ∧ (x.confDue = some u ∧ u < s.now))
  | 21 => decide ((s.acts .selvedge) ∧ (x.confDue = some u ∧ u ≤ s.now))
  | 22 => decide ((s.acts .selvedge) ∧ (x.confDue = some u ∧ s.now < u))
  | 23 => decide ((s.acts .selvedge) ∧ (head ∧ x.confSeen = 0 ∧ type = 8))
  | _ => decide ((s.acts .selvedge) ∧ (x.inbox = []))
theorem test_meets_SelvedgeCyclesConfirmsAndStopsOnPairFaults :
    hypSelvedgeCyclesConfirmsAndStopsOnPairFaults ((wSel (fun x => { x with cycleAt := some 0, cycleOpen := true })).setFld Reg.SFS_OUT F.SFS_OUT_ENERG 0x8) 0 [] 0 0 0 0 1 = true ∧
    hypSelvedgeCyclesConfirmsAndStopsOnPairFaults (wHigh ((wSel (fun x => { x with cycleAt := some 0, toRun := true })).setFld Reg.SFS_STATUS F.SFS_STATUS_STATE 2)) 0 [] 0 0 0 0 2 = true ∧
    hypSelvedgeCyclesConfirmsAndStopsOnPairFaults (wHigh (wSel (fun x => { x with cycleAt := some 0, cycleOpen := true, committed := true }))) 0 [] 0 0 0 0 2 = true ∧
    hypSelvedgeCyclesConfirmsAndStopsOnPairFaults (wSel (fun x => { x with cycleAt := some 1 })) 0 [] 0 0 0 1 3 = true ∧
    hypSelvedgeCyclesConfirmsAndStopsOnPairFaults (((wSel (fun x => { x with enSeen := true })).wr Reg.SFS_OUT_EN 0x200).setFld Reg.SFS_OUT F.SFS_OUT_ENERG 0x8) 0 [] 0 0 0 0 4 = true ∧
    hypSelvedgeCyclesConfirmsAndStopsOnPairFaults ((wSel (id)).setFld Reg.SFS_OUT F.SFS_OUT_ENERG 0x8) 0 [] 0 0 0 0 5 = true ∧
    hypSelvedgeCyclesConfirmsAndStopsOnPairFaults (wSel id) 0 [] 0 0 11 0 6 = true ∧
    hypSelvedgeCyclesConfirmsAndStopsOnPairFaults (wSel (fun x => { x with badCount := true })) 0 [] 97999 0 0 0 7 = true ∧
    hypSelvedgeCyclesConfirmsAndStopsOnPairFaults (wSel id) 0 [] 100000 100000 0 0 7 = true ∧
    hypSelvedgeCyclesConfirmsAndStopsOnPairFaults (wSel (fun x => { x with badCount := true })) 0 [] 98000 0 0 0 8 = true ∧
    hypSelvedgeCyclesConfirmsAndStopsOnPairFaults (wSel id) 0 [] 102001 0 0 0 8 = true ∧
    hypSelvedgeCyclesConfirmsAndStopsOnPairFaults (wSel (fun x => { x with crcAt := some 0 })) 0 [] 0 0 0 0 9 = true ∧
    hypSelvedgeCyclesConfirmsAndStopsOnPairFaults ((wSel (fun x => { x with crcAt := some 0 })).wr Reg.SFS_CHK (crc32 wCfgHead)) 0 [] 0 0 0 0 10 = true ∧
    hypSelvedgeCyclesConfirmsAndStopsOnPairFaults (wHigh (wSel (fun x => { x with inbox := [0x30000000, 5] }))) 0x30000000 [5] 0 0 0 0 11 = true ∧
    hypSelvedgeCyclesConfirmsAndStopsOnPairFaults (wSel (fun x => { x with inbox := [0x30000000, 5] })) 0x30000000 [5] 0 0 0 0 11 = true ∧
    hypSelvedgeCyclesConfirmsAndStopsOnPairFaults ((wSel (fun x => { x with inbox := [0x30000000, 5] })).setFld Reg.SFS_OUT F.SFS_OUT_ENERG 0x200) 0x30000000 [5] 0 0 0 0 12 = true ∧
    hypSelvedgeCyclesConfirmsAndStopsOnPairFaults ((wSel (fun x => { x with brakeEnd := some 0 })).setFlag Reg.SFS_BRAKE F.SFS_BRAKE_BT_RUN true) 0 [] 0 0 0 0 13 = true ∧
    hypSelvedgeCyclesConfirmsAndStopsOnPairFaults ((wSel (fun x => { x with brakeEnd := some 0, brakeFailed := true })).setFlag Reg.SFS_BRAKE F.SFS_BRAKE_BT_RUN true) 0 [] 0 0 0 0 14 = true ∧
    hypSelvedgeCyclesConfirmsAndStopsOnPairFaults ((((wSel (id)).setFld Reg.SFS_OUT F.SFS_OUT_ENERG 0x200).setFlag Reg.SFS_BRAKE F.SFS_BRAKE_BT_DUE false).setNow 1600000000000) 0 [] 0 0 0 0 15 = true ∧
    hypSelvedgeCyclesConfirmsAndStopsOnPairFaults (wSel (fun x => { x with inbox := [0x40000000, 5] })) 0x40000000 [5] 0 0 0 0 16 = true ∧
    hypSelvedgeCyclesConfirmsAndStopsOnPairFaults (wSel (fun x => { x with inbox := [0xAB, 5], confSeen := 1 })) 0xAB [5] 0 0 0 0 17 = true ∧
    hypSelvedgeCyclesConfirmsAndStopsOnPairFaults (wHigh ((((wSel (fun x => { x with inbox := [0xCD, 5], confSeen := 2, confWord := 0xAB })).wr Reg.SFS_CHK 0xAB).wr Reg.SFS_PROG 0xCD).setFld Reg.SFS_STATUS F.SFS_STATUS_STATE 2)) 0xCD [5] 0 0 0 0 18 = true ∧
    hypSelvedgeCyclesConfirmsAndStopsOnPairFaults (((wSel (fun x => { x with inbox := [0xCD, 5], confSeen := 2, confWord := 0xAB })).wr Reg.SFS_CHK 0xAB).wr Reg.SFS_PROG 0xCD) 0xCD [5] 0 0 0 0 19 = true ∧
    hypSelvedgeCyclesConfirmsAndStopsOnPairFaults (wHigh ((((wSel (fun x => { x with inbox := [0xCD, 5], confSeen := 2, confWord := 0xAB })).wr Reg.SFS_CHK 0xAB).wr Reg.SFS_PROG 0xCD).setFld Reg.SFS_OUT F.SFS_OUT_ENERG 0x8)) 0xCD [5] 0 0 0 0 19 = true ∧
    hypSelvedgeCyclesConfirmsAndStopsOnPairFaults (wHigh (((wSel (fun x => { x with inbox := [0xCE, 5], confSeen := 2, confWord := 0xAB })).wr Reg.SFS_CHK 0xAB).wr Reg.SFS_PROG 0xCD)) 0xCE [5] 0 0 0 0 19 = true ∧
    hypSelvedgeCyclesConfirmsAndStopsOnPairFaults ((wSel (fun x => { x with confSeen := 1, confDue := some 0 })).setNow 1) 0 [] 0 0 0 0 20 = true ∧
    hypSelvedgeCyclesConfirmsAndStopsOnPairFaults (wSel (fun x => { x with confSeen := 1, confDue := some 0 })) 0 [] 0 0 0 0 21 = true ∧
    hypSelvedgeCyclesConfirmsAndStopsOnPairFaults (wSel (fun x => { x with confSeen := 1, confDue := some 1 })) 0 [] 0 0 0 1 22 = true ∧
    hypSelvedgeCyclesConfirmsAndStopsOnPairFaults (wSel (fun x => { x with inbox := [0x80000123, 5] })) 0x80000123 [5] 0 0 0 0 23 = true ∧
    hypSelvedgeCyclesConfirmsAndStopsOnPairFaults (wSel id) 0 [] 0 0 0 0 24 = true := by
  and_intros <;> decide +kernel

/-- The hypotheses of LoadSwitchesProtectRetryAndFollowTheirDrive, clause by clause. -/
def hypLoadSwitchesProtectRetryAndFollowTheirDrive (s : State) (n : Fin 16) (p : Fin 6) (data : BitVec 16) (ma : BitVec 16) (temp : BitVec 16) (high : Bool) (u : Nat) (us : Nat) (clause : Nat) : Bool :=
  let j := n.val
  let x := s.sw j
  let st := Reg.HS_STAT j
  let cfg := fun (f : Fld) => s.fld (Reg.HS_CFG j) f
  let state := fun (t : State) => t.fld st F.HS_STAT_STATE
  let rcnt := fun (t : State) => t.fld st F.HS_STAT_RCNT
  let act := s.acts .loadSwitch
  let quiet := s.hs.behave = false ∧ (∀ i : Fin 16, s.coilOf i.val = none)
  let pin := cfg F.HS_CFG_SRC = 0 ∨ s.lhIn (cfg F.HS_CFG_PIN) = true
  let mayOn := s.coilHeldOff j = false ∧ pin ∧ state s = 0 ∧ x.drive = false ∧ s.hs.overV = false
  let bit := bitOf data.toNat j
  let isOn := fun (t : State) => bitOf (t.fld Reg.HS_ON F.HS_ON_VAL) j
  let live := state s = 1 ∧ s.flag st F.HS_STAT_THERM = false ∧ s.hs.overV = false
  let sec := 16000000000
  let trips := x.inrushEnd ≤ s.now ∧ (50 ≤ us ∨ s.now < x.inrushEnd + us * 16000)
  let here := s.thisCycle x.tripAt
  let lf := if s.fld Reg.LH_CFG F.LH_CFG_FILT = 0 then 1 else s.fld Reg.LH_CFG F.LH_CFG_FILT
  let k := (s.now - x.fuseAt) / 1600000
  let inom := (fuseCurve (cfg F.HS_CFG_FUSE)).1
  let limit := (fuseCurve (cfg F.HS_CFG_FUSE)).2 * 10000000000
  let level := ((x.fuse : Int) + k * ((ma.toNat * ma.toNat : Nat) - (inom * inom : Nat) : Int)).toNat
  let therm := fun (t : State) => t.flag st F.HS_STAT_THERM
  let mis := fun (t : State) => t.flag st F.HS_STAT_MISMATCH
  let i := p.val
  let edges := (Tab.get (fun _ => []) s.hs.edges i).filter (fun y => decide (s.now < y + sec))
  let rate := s.fld Reg.LH_CFG F.LH_CFG_RATE_LIM
  let many := rate ≠ 0 ∧ rate * 16 < edges.length + 1
  let stuck := fun (t : State) => Tab.get (fun _ => none) t.hs.stuckAt i
  let moved := bitOf s.hs.level i ≠ high
  match clause with
  | 1 => decide ((s.domUp 5 = true) ∧ (act ∧ quiet ∧ mayOn ∧ bit = true))
  | 2 => decide ((s.domUp 5 = true) ∧ (act ∧ quiet ∧ mayOn ∧ bit = true))
  | 3 => decide ((s.domUp 5 = true) ∧ (act ∧ quiet ∧ bit = false))
  | 4 => decide ((s.domUp 5 = true) ∧ (act ∧ quiet ∧ bit = true ∧ (state s = 1 ∨ state s = 2 ∨ state s = 3 ∨ (state s = 4 ∧ s.fuseLevel j ≤ 20))))
  | 5 => decide ((s.domUp 5 = true) ∧ (act ∧ quiet ∧ bit = false ∧ (state s = 1 ∨ state s = 2 ∨ state s = 3)))
  | 6 => decide ((s.domUp 5 = true) ∧ (act ∧ quiet ∧ bit = true ∧ state s = 4 ∧ 20 < s.fuseLevel j))
  | 7 => decide ((s.domUp 5 = true) ∧ (live ∧ trips ∧ rcnt s < cfg F.HS_CFG_RETRY_N ∧ s.driveOf j = true ∧ s.coilOf j = none))
  | 8 => decide ((s.domUp 5 = true) ∧ (live ∧ trips ∧ cfg F.HS_CFG_RETRY_N ≤ rcnt s))
  | 9 => decide ((s.domUp 5 = true) ∧ (¬live ∨ s.now < x.inrushEnd ∨ (us < 50 ∧ x.inrushEnd + us * 16000 ≤ s.now)))
  | 10 => decide ((s.domUp 5 = true) ∧ (state s = 2 ∧ x.retryAt = some u ∧ u ≤ s.now ∧ s.hs.overV = false ∧ x.drive = true))
  | 11 => decide ((s.domUp 5 = true) ∧ (state s ≠ 2 ∨ (x.retryAt = some u ∧ s.now < u)))
  | 12 => decide ((s.domUp 5 = true) ∧ (level < limit))
  | 13 => decide ((s.domUp 5 = true) ∧ (limit ≤ level ∧ state s ≠ 4))
  | 14 => decide ((s.domUp 5 = true))
  | 15 => decide ((s.domUp 5 = true) ∧ (therm s = true ∨ temp.toInt < tLatch j))
  | 16 => decide ((s.domUp 5 = true) ∧ (therm s = false ∧ tLatch j ≤ temp.toInt ∧ here = true ∧ (state s = 2 ∨ state s = 3) ∧ s.hs.overV = false))
  | 17 => decide ((s.domUp 5 = true) ∧ (therm s = false ∧ tLatch j ≤ temp.toInt ∧ here = false))
  | 18 => decide ((s.domUp 5 = true) ∧ (therm s = false ∨ tLatch j - 250 < temp.toInt))
  | 19 => decide ((s.domUp 5 = true) ∧ (therm s = true ∧ temp.toInt ≤ tLatch j - 250 ∧ state s = 1 ∧ x.thermTrip = false))
  | 20 => decide ((s.domUp 5 = true) ∧ (therm s = true ∧ temp.toInt ≤ tLatch j - 250 ∧ state s = 1 ∧ x.thermTrip = true ∧ rcnt s < cfg F.HS_CFG_RETRY_N ∧ s.driveOf j = true))
  | 21 => decide ((s.domUp 5 = true) ∧ (therm s = true ∧ temp.toInt ≤ tLatch j - 250 ∧ state s = 2 ∧ x.retryLeft = some u))
  | 22 => decide ((s.domUp 5 = true) ∧ (live ∧ x.onAt = some u ∧ u + sec ≤ s.now))
  | 23 => decide ((s.domUp 5 = true) ∧ (live ∧ ma.toNat < 20 ∧ 10000 ≤ us ∧ x.onAt = some u ∧ u + 160000000 ≤ s.now))
  | 24 => decide ((s.domUp 5 = true) ∧ (x.drive = false ∧ x.driveAt + 16000000 ≤ s.now ∧ mis s = false))
  | 25 => decide ((s.domUp 5 = true) ∧ (x.drive = true ∨ s.now < x.driveAt + 16000000))
  | 26 => decide ((s.domUp 5 = true) ∧ (x.drive = false ∧ x.driveAt + sec ≤ s.now ∧ mis s = true))
  | 27 => decide ((s.domUp 5 = true) ∧ (quiet ∧ moved ∧ lf ≤ us ∧ high = true ∧ ¬many ∧ stuck s = none ∧ cfg F.HS_CFG_SRC = 1 ∧ cfg F.HS_CFG_PIN = i ∧ isOn s = true ∧ x.hold = none ∧ s.coilHeldOff j = false ∧ state s = 0 ∧ x.drive = false ∧ s.hs.overV = false))
  | 28 => decide ((s.domUp 5 = true) ∧ (quiet ∧ moved ∧ lf ≤ us ∧ high = false ∧ cfg F.HS_CFG_SRC = 1 ∧ cfg F.HS_CFG_PIN = i ∧ x.hold = none ∧ state s = 1))
  | 29 => decide ((s.domUp 5 = true) ∧ (quiet ∧ moved ∧ lf ≤ us ∧ many ∧ stuck s = none))
  | 30 => decide ((s.domUp 5 = true) ∧ (stuck s = some u ∧ u + sec < s.now ∧ (rate = 0 ∨ edges.length ≤ rate * 16)))
  | 31 => decide ((s.domUp 5 = true) ∧ (stuck s = some u ∧ s.now ≤ u + sec))
  | 32 => decide ((s.domUp 5 = true) ∧ (1000 ≤ us ∧ s.hs.behave = true ∧ cfg F.HS_CFG_LH_MAP = 6 ∧ state s = 0 ∧ x.drive = false ∧ s.hs.overV = false))
  | 33 => decide ((s.domUp 5 = true) ∧ (1000 ≤ us ∧ s.hs.behave = true ∧ s.flag Reg.HS_CTRL F.HS_CTRL_KLS_EN = false ∧ state s = 1))
  | 34 => decide ((s.domUp 5 = true) ∧ (us < lf))
  | 35 => decide ((s.domUp 5 = true) ∧ (us < 1000))
  | 36 => decide ((s.domUp 5 = true) ∧ (act))
  | 37 => decide ((s.domUp 5 = true) ∧ (1000 ≤ us))
  | 38 => decide ((s.domUp 5 = true) ∧ (s.hs.overV = false))
  | _ => decide ((s.domUp 5 = true) ∧ (s.hs.overV = true))
theorem test_meets_LoadSwitchesProtectRetryAndFollowTheirDrive_at_latch_1 :
    hypLoadSwitchesProtectRetryAndFollowTheirDrive ((((State.reset).setHs { Switches.reset with behave := false }).setBit Reg.HS_ON F.HS_ON_VAL 4 true).setFld (Reg.HS_STAT 4) F.HS_STAT_STATE 1) 4 0 0 0 1599 false 0 0 15 = true := by
  have h : 1600 ≤ tLatch 4 ∧ tLatch 4 ≤ 1900 := by unfold tLatch; omega
  refine decide_eq_true ?_
  and_intros <;> first
    | decide +kernel
    | exact Int.le_trans h.2 (by decide)
    | exact .inr (Int.lt_of_lt_of_le (by decide) h.1)
    | exact .inr (Int.lt_of_le_of_lt (Int.sub_le_sub_right h.2 250) (by decide))
    | exact Int.le_trans (by decide) (Int.sub_le_sub_right h.1 250)
theorem test_meets_LoadSwitchesProtectRetryAndFollowTheirDrive_at_latch_2 :
    hypLoadSwitchesProtectRetryAndFollowTheirDrive ((((((State.reset).setHs { Switches.reset with behave := false }).setBit Reg.HS_ON F.HS_ON_VAL 4 true).setFld (Reg.HS_STAT 4) F.HS_STAT_STATE 2).setFld (Reg.HS_STAT 4) F.HS_STAT_RCNT 2).setSw 4 { LoadSwitch.reset with tripAt := some 0, retryAt := some 9 }) 4 0 0 0 1900 false 0 0 16 = true := by
  have h : 1600 ≤ tLatch 4 ∧ tLatch 4 ≤ 1900 := by unfold tLatch; omega
  refine decide_eq_true ?_
  and_intros <;> first
    | decide +kernel
    | exact Int.le_trans h.2 (by decide)
    | exact .inr (Int.lt_of_lt_of_le (by decide) h.1)
    | exact .inr (Int.lt_of_le_of_lt (Int.sub_le_sub_right h.2 250) (by decide))
    | exact Int.le_trans (by decide) (Int.sub_le_sub_right h.1 250)
theorem test_meets_LoadSwitchesProtectRetryAndFollowTheirDrive_at_latch_3 :
    hypLoadSwitchesProtectRetryAndFollowTheirDrive (((((State.reset).setHs { Switches.reset with behave := false }).setBit Reg.HS_ON F.HS_ON_VAL 4 true).setFld (Reg.HS_STAT 4) F.HS_STAT_STATE 2).setSw 4 { LoadSwitch.reset with retryAt := some 77 }) 4 0 0 0 1900 false 0 0 17 = true := by
  have h : 1600 ≤ tLatch 4 ∧ tLatch 4 ≤ 1900 := by unfold tLatch; omega
  refine decide_eq_true ?_
  and_intros <;> first
    | decide +kernel
    | exact Int.le_trans h.2 (by decide)
    | exact .inr (Int.lt_of_lt_of_le (by decide) h.1)
    | exact .inr (Int.lt_of_le_of_lt (Int.sub_le_sub_right h.2 250) (by decide))
    | exact Int.le_trans (by decide) (Int.sub_le_sub_right h.1 250)
theorem test_meets_LoadSwitchesProtectRetryAndFollowTheirDrive_at_latch_4 :
    hypLoadSwitchesProtectRetryAndFollowTheirDrive ((((State.reset).setHs { Switches.reset with behave := false }).setBit Reg.HS_ON F.HS_ON_VAL 4 true).setFld (Reg.HS_STAT 4) F.HS_STAT_STATE 1) 4 0 0 0 1900 false 0 0 17 = true := by
  have h : 1600 ≤ tLatch 4 ∧ tLatch 4 ≤ 1900 := by unfold tLatch; omega
  refine decide_eq_true ?_
  and_intros <;> first
    | decide +kernel
    | exact Int.le_trans h.2 (by decide)
    | exact .inr (Int.lt_of_lt_of_le (by decide) h.1)
    | exact .inr (Int.lt_of_le_of_lt (Int.sub_le_sub_right h.2 250) (by decide))
    | exact Int.le_trans (by decide) (Int.sub_le_sub_right h.1 250)
theorem test_meets_LoadSwitchesProtectRetryAndFollowTheirDrive_at_latch_5 :
    hypLoadSwitchesProtectRetryAndFollowTheirDrive (((((State.reset).setHs { Switches.reset with behave := false }).setBit Reg.HS_ON F.HS_ON_VAL 4 true).setFld (Reg.HS_STAT 4) F.HS_STAT_STATE 1).setFlag (Reg.HS_STAT 4) F.HS_STAT_THERM true) 4 0 0 0 1651 false 0 0 18 = true := by
  have h : 1600 ≤ tLatch 4 ∧ tLatch 4 ≤ 1900 := by unfold tLatch; omega
  refine decide_eq_true ?_
  and_intros <;> first
    | decide +kernel
    | exact Int.le_trans h.2 (by decide)
    | exact .inr (Int.lt_of_lt_of_le (by decide) h.1)
    | exact .inr (Int.lt_of_le_of_lt (Int.sub_le_sub_right h.2 250) (by decide))
    | exact Int.le_trans (by decide) (Int.sub_le_sub_right h.1 250)
theorem test_meets_LoadSwitchesProtectRetryAndFollowTheirDrive_at_latch_6 :
    hypLoadSwitchesProtectRetryAndFollowTheirDrive (((((State.reset).setHs { Switches.reset with behave := false }).setBit Reg.HS_ON F.HS_ON_VAL 4 true).setFld (Reg.HS_STAT 4) F.HS_STAT_STATE 1).setFlag (Reg.HS_STAT 4) F.HS_STAT_THERM true) 4 0 0 0 0 false 0 0 19 = true := by
  have h : 1600 ≤ tLatch 4 ∧ tLatch 4 ≤ 1900 := by unfold tLatch; omega
  refine decide_eq_true ?_
  and_intros <;> first
    | decide +kernel
    | exact Int.le_trans h.2 (by decide)
    | exact .inr (Int.lt_of_lt_of_le (by decide) h.1)
    | exact .inr (Int.lt_of_le_of_lt (Int.sub_le_sub_right h.2 250) (by decide))
    | exact Int.le_trans (by decide) (Int.sub_le_sub_right h.1 250)
theorem test_meets_LoadSwitchesProtectRetryAndFollowTheirDrive_at_latch_7 :
    hypLoadSwitchesProtectRetryAndFollowTheirDrive ((((((State.reset).setHs { Switches.reset with behave := false }).setBit Reg.HS_ON F.HS_ON_VAL 4 true).setFld (Reg.HS_STAT 4) F.HS_STAT_STATE 1).setSw 4 { LoadSwitch.reset with thermTrip := true }).setFlag (Reg.HS_STAT 4) F.HS_STAT_THERM true) 4 0 0 0 0 false 0 0 20 = true := by
  have h : 1600 ≤ tLatch 4 ∧ tLatch 4 ≤ 1900 := by unfold tLatch; omega
  refine decide_eq_true ?_
  and_intros <;> first
    | decide +kernel
    | exact Int.le_trans h.2 (by decide)
    | exact .inr (Int.lt_of_lt_of_le (by decide) h.1)
    | exact .inr (Int.lt_of_le_of_lt (Int.sub_le_sub_right h.2 250) (by decide))
    | exact Int.le_trans (by decide) (Int.sub_le_sub_right h.1 250)
theorem test_meets_LoadSwitchesProtectRetryAndFollowTheirDrive_at_latch_8 :
    hypLoadSwitchesProtectRetryAndFollowTheirDrive ((((((State.reset).setHs { Switches.reset with behave := false }).setBit Reg.HS_ON F.HS_ON_VAL 4 true).setFld (Reg.HS_STAT 4) F.HS_STAT_STATE 2).setSw 4 { LoadSwitch.reset with retryLeft := some 9 }).setFlag (Reg.HS_STAT 4) F.HS_STAT_THERM true) 4 0 0 0 0 false 9 0 21 = true := by
  have h : 1600 ≤ tLatch 4 ∧ tLatch 4 ≤ 1900 := by unfold tLatch; omega
  refine decide_eq_true ?_
  and_intros <;> first
    | decide +kernel
    | exact Int.le_trans h.2 (by decide)
    | exact .inr (Int.lt_of_lt_of_le (by decide) h.1)
    | exact .inr (Int.lt_of_le_of_lt (Int.sub_le_sub_right h.2 250) (by decide))
    | exact Int.le_trans (by decide) (Int.sub_le_sub_right h.1 250)
theorem test_meets_LoadSwitchesProtectRetryAndFollowTheirDrive :
    hypLoadSwitchesProtectRetryAndFollowTheirDrive (((((State.reset).setHs { Switches.reset with behave := false }).setFlag (Reg.HS_CFG 4) F.HS_CFG_SRC true).setFld (Reg.HS_CFG 4) F.HS_CFG_PIN 2).setHs { Switches.reset with behave := false, level := 4 }) 4 0 0x10 0 0 false 0 0 1 = true ∧
    hypLoadSwitchesProtectRetryAndFollowTheirDrive ((State.reset).setHs { Switches.reset with behave := false }) 4 0 0x10 0 0 false 0 0 1 = true ∧
    hypLoadSwitchesProtectRetryAndFollowTheirDrive ((State.reset).setHs { Switches.reset with behave := false }) 4 0 0x10 0 0 false 0 0 2 = true ∧
    hypLoadSwitchesProtectRetryAndFollowTheirDrive ((((State.reset).setHs { Switches.reset with behave := false }).setBit Reg.HS_ON F.HS_ON_VAL 4 true).setFld (Reg.HS_STAT 4) F.HS_STAT_STATE 1) 4 0 0x8 0 0 false 0 0 3 = true ∧
    hypLoadSwitchesProtectRetryAndFollowTheirDrive (((((State.reset).setHs { Switches.reset with behave := false }).setBit Reg.HS_ON F.HS_ON_VAL 4 true).setFld (Reg.HS_STAT 4) F.HS_STAT_STATE 1).setFld (Reg.HS_STAT 4) F.HS_STAT_RCNT 2) 4 0 0x10 0 0 false 0 0 4 = true ∧
    hypLoadSwitchesProtectRetryAndFollowTheirDrive (((((State.reset).setHs { Switches.reset with behave := false }).setBit Reg.HS_ON F.HS_ON_VAL 4 true).setFld (Reg.HS_STAT 4) F.HS_STAT_STATE 2).setFld (Reg.HS_STAT 4) F.HS_STAT_RCNT 2) 4 0 0x10 0 0 false 0 0 4 = true ∧
    hypLoadSwitchesProtectRetryAndFollowTheirDrive (((((State.reset).setHs { Switches.reset with behave := false }).setBit Reg.HS_ON F.HS_ON_VAL 4 true).setFld (Reg.HS_STAT 4) F.HS_STAT_STATE 3).setFld (Reg.HS_STAT 4) F.HS_STAT_RCNT 2) 4 0 0x10 0 0 false 0 0 4 = true ∧
    hypLoadSwitchesProtectRetryAndFollowTheirDrive (((((State.reset).setHs { Switches.reset with behave := false }).setBit Reg.HS_ON F.HS_ON_VAL 4 true).setFld (Reg.HS_STAT 4) F.HS_STAT_STATE 4).setFld (Reg.HS_STAT 4) F.HS_STAT_RCNT 2) 4 0 0x10 0 0 false 0 0 4 = true ∧
    hypLoadSwitchesProtectRetryAndFollowTheirDrive (((((State.reset).setHs { Switches.reset with behave := false }).setBit Reg.HS_ON F.HS_ON_VAL 4 true).setFld (Reg.HS_STAT 4) F.HS_STAT_STATE 3).setFld (Reg.HS_STAT 4) F.HS_STAT_RCNT 2) 4 0 0 0 0 false 0 0 5 = true ∧
    hypLoadSwitchesProtectRetryAndFollowTheirDrive (((((State.reset).setHs { Switches.reset with behave := false }).setBit Reg.HS_ON F.HS_ON_VAL 4 true).setFld (Reg.HS_STAT 4) F.HS_STAT_STATE 4).setSw 4 { LoadSwitch.reset with fuse := 42000000000 }) 4 0 0x10 0 0 false 0 0 6 = true ∧
    hypLoadSwitchesProtectRetryAndFollowTheirDrive (((((State.reset).setHs { Switches.reset with behave := false }).setBit Reg.HS_ON F.HS_ON_VAL 4 true).setFld (Reg.HS_STAT 4) F.HS_STAT_STATE 1).setFld (Reg.HS_STAT 4) F.HS_STAT_RCNT 2) 4 0 0 0 0 false 0 1 7 = true ∧
    hypLoadSwitchesProtectRetryAndFollowTheirDrive (((((State.reset).setHs { Switches.reset with behave := false }).setBit Reg.HS_ON F.HS_ON_VAL 4 true).setFld (Reg.HS_STAT 4) F.HS_STAT_STATE 1).setFld (Reg.HS_STAT 4) F.HS_STAT_RCNT 2) 4 0 0 0 0 false 0 50 7 = true ∧
    hypLoadSwitchesProtectRetryAndFollowTheirDrive (((((State.reset).setHs { Switches.reset with behave := false }).setBit Reg.HS_ON F.HS_ON_VAL 4 true).setFld (Reg.HS_STAT 4) F.HS_STAT_STATE 1).setFld (Reg.HS_STAT 4) F.HS_STAT_RCNT 3) 4 0 0 0 0 false 0 50 8 = true ∧
    hypLoadSwitchesProtectRetryAndFollowTheirDrive (((((State.reset).setHs { Switches.reset with behave := false }).setBit Reg.HS_ON F.HS_ON_VAL 4 true).setFld (Reg.HS_STAT 4) F.HS_STAT_STATE 1).setFlag (Reg.HS_STAT 4) F.HS_STAT_THERM true) 4 0 0 0 0 false 0 0 9 = true ∧
    hypLoadSwitchesProtectRetryAndFollowTheirDrive (((((State.reset).setHs { Switches.reset with behave := false }).setBit Reg.HS_ON F.HS_ON_VAL 4 true).setFld (Reg.HS_STAT 4) F.HS_STAT_STATE 1).setNow 784000) 4 0 0 0 0 false 0 49 9 = true ∧
    hypLoadSwitchesProtectRetryAndFollowTheirDrive (((((State.reset).setHs { Switches.reset with behave := false }).setBit Reg.HS_ON F.HS_ON_VAL 4 true).setFld (Reg.HS_STAT 4) F.HS_STAT_STATE 1).setSw 4 { LoadSwitch.reset with inrushEnd := 1 }) 4 0 0 0 0 false 0 60 9 = true ∧
    hypLoadSwitchesProtectRetryAndFollowTheirDrive (((((State.reset).setHs { Switches.reset with behave := false }).setBit Reg.HS_ON F.HS_ON_VAL 4 true).setFld (Reg.HS_STAT 4) F.HS_STAT_STATE 2).setSw 4 { LoadSwitch.reset with retryAt := some 0, drive := true }) 4 0 0 0 0 false 0 0 10 = true ∧
    hypLoadSwitchesProtectRetryAndFollowTheirDrive (((((State.reset).setHs { Switches.reset with behave := false }).setBit Reg.HS_ON F.HS_ON_VAL 4 true).setFld (Reg.HS_STAT 4) F.HS_STAT_STATE 2).setSw 4 { LoadSwitch.reset with retryAt := some 1, drive := true }) 4 0 0 0 0 false 1 0 11 = true ∧
    hypLoadSwitchesProtectRetryAndFollowTheirDrive (((((State.reset).setHs { Switches.reset with behave := false }).setBit Reg.HS_ON F.HS_ON_VAL 4 true).setFld (Reg.HS_STAT 4) F.HS_STAT_STATE 1).setNow 16000000) 4 0 0 5000 0 false 0 0 12 = true ∧
    hypLoadSwitchesProtectRetryAndFollowTheirDrive ((((State.reset).setHs { Switches.reset with behave := false }).setSw 4 { LoadSwitch.reset with fuse := 100000000 }).setNow 16000000) 4 0 0 0 0 false 0 0 12 = true ∧
    hypLoadSwitchesProtectRetryAndFollowTheirDrive ((((((State.reset).setHs { Switches.reset with behave := false }).setBit Reg.HS_ON F.HS_ON_VAL 4 true).setFld (Reg.HS_STAT 4) F.HS_STAT_STATE 1).setFlag (Reg.HS_STAT 4) F.HS_STAT_THERM true).setNow 16000000000) 4 0 0 5000 0 false 0 0 13 = true ∧
    hypLoadSwitchesProtectRetryAndFollowTheirDrive ((((((State.reset).setHs { Switches.reset with behave := false }).setBit Reg.HS_ON F.HS_ON_VAL 4 true).setFld (Reg.HS_STAT 4) F.HS_STAT_STATE 1).setFld (Reg.HS_STAT 4) F.HS_STAT_RCNT 2).setNow 16000000000) 4 0 0 5000 0 false 0 0 13 = true ∧
    hypLoadSwitchesProtectRetryAndFollowTheirDrive State.reset 0 0 0 0 0 false 0 0 14 = true ∧
    hypLoadSwitchesProtectRetryAndFollowTheirDrive (((((((State.reset).setHs { Switches.reset with behave := false }).setBit Reg.HS_ON F.HS_ON_VAL 4 true).setFld (Reg.HS_STAT 4) F.HS_STAT_STATE 1).setFld (Reg.HS_STAT 4) F.HS_STAT_RCNT 2).setSw 4 { LoadSwitch.reset with onAt := some 0 }).setNow 16000000000) 4 0 0 0 0 false 0 0 22 = true ∧
    hypLoadSwitchesProtectRetryAndFollowTheirDrive ((((((State.reset).setHs { Switches.reset with behave := false }).setBit Reg.HS_ON F.HS_ON_VAL 4 true).setFld (Reg.HS_STAT 4) F.HS_STAT_STATE 1).setSw 4 { LoadSwitch.reset with onAt := some 0 }).setNow 160000000) 4 0 0 19 0 false 0 10000 23 = true ∧
    hypLoadSwitchesProtectRetryAndFollowTheirDrive (((State.reset).setHs { Switches.reset with behave := false }).setNow 16000000) 4 0 0 0 0 false 0 0 24 = true ∧
    hypLoadSwitchesProtectRetryAndFollowTheirDrive ((State.reset).setHs { Switches.reset with behave := false }) 4 0 0 0 0 false 0 0 25 = true ∧
    hypLoadSwitchesProtectRetryAndFollowTheirDrive ((((State.reset).setHs { Switches.reset with behave := false }).setFlag (Reg.HS_STAT 4) F.HS_STAT_MISMATCH true).setNow 16000000000) 4 0 0 0 0 false 0 0 26 = true ∧
    hypLoadSwitchesProtectRetryAndFollowTheirDrive (((((State.reset).setHs { Switches.reset with behave := false }).setBit Reg.HS_ON F.HS_ON_VAL 4 true).setFlag (Reg.HS_CFG 4) F.HS_CFG_SRC true).setFld (Reg.HS_CFG 4) F.HS_CFG_PIN 2) 4 2 0 0 0 true 0 1023 27 = true ∧
    hypLoadSwitchesProtectRetryAndFollowTheirDrive (((((((State.reset).setHs { Switches.reset with behave := false }).setBit Reg.HS_ON F.HS_ON_VAL 4 true).setFlag (Reg.HS_CFG 4) F.HS_CFG_SRC true).setFld (Reg.HS_CFG 4) F.HS_CFG_PIN 2).setFld (Reg.HS_STAT 4) F.HS_STAT_STATE 1).setHs { Switches.reset with behave := false, level := 4 }) 4 2 0 0 0 false 0 1023 28 = true ∧
    hypLoadSwitchesProtectRetryAndFollowTheirDrive ((((State.reset).setHs { Switches.reset with behave := false }).setFld Reg.LH_CFG F.LH_CFG_RATE_LIM 1).setHs { Switches.reset with behave := false, edges := [(2, List.replicate 16 0)] }) 4 2 0 0 0 true 0 1023 29 = true ∧
    hypLoadSwitchesProtectRetryAndFollowTheirDrive ((((State.reset).setHs { Switches.reset with behave := false }).setHs { Switches.reset with behave := false, stuckAt := [(2, some 0)], level := 4 }).setNow 16000000001) 4 2 0 0 0 false 0 0 30 = true ∧
    hypLoadSwitchesProtectRetryAndFollowTheirDrive ((((State.reset).setHs { Switches.reset with behave := false }).setHs { Switches.reset with behave := false, stuckAt := [(2, some 0)], level := 4 }).setNow 16000000000) 4 2 0 0 0 false 0 0 31 = true ∧
    hypLoadSwitchesProtectRetryAndFollowTheirDrive ((State.reset).setFld (Reg.HS_CFG 4) F.HS_CFG_LH_MAP 6) 4 0 0 0 0 false 0 1000 32 = true ∧
    hypLoadSwitchesProtectRetryAndFollowTheirDrive ((State.reset).setFld (Reg.HS_STAT 4) F.HS_STAT_STATE 1) 4 0 0 0 0 false 0 1000 33 = true ∧
    hypLoadSwitchesProtectRetryAndFollowTheirDrive ((State.reset).setHs { Switches.reset with behave := false }) 4 2 0 0 0 true 0 0 34 = true ∧
    hypLoadSwitchesProtectRetryAndFollowTheirDrive ((State.reset).setHs { Switches.reset with behave := false }) 4 0 0 0 0 true 0 999 35 = true ∧
    hypLoadSwitchesProtectRetryAndFollowTheirDrive ((State.reset).setHs { Switches.reset with behave := false }) 4 0 0 0 0 false 0 0 36 = true ∧
    hypLoadSwitchesProtectRetryAndFollowTheirDrive ((((State.reset).setHs { Switches.reset with behave := false }).setFlag Reg.HS_CTRL F.HS_CTRL_ISEL_SRC true).setFld Reg.HS_CTRL F.HS_CTRL_ISEL_CH 3) 4 0 0 0 0 false 0 1000 37 = true ∧
    hypLoadSwitchesProtectRetryAndFollowTheirDrive ((State.reset).setHs { Switches.reset with behave := false }) 4 0 0 0 0 false 0 1000 37 = true ∧
    hypLoadSwitchesProtectRetryAndFollowTheirDrive (((((State.reset).setHs { Switches.reset with behave := false }).setBit Reg.HS_ON F.HS_ON_VAL 4 true).setFld (Reg.HS_STAT 4) F.HS_STAT_STATE 1).setFld (Reg.HS_STAT 4) F.HS_STAT_RCNT 2) 4 0 0 0 0 false 0 0 38 = true ∧
    hypLoadSwitchesProtectRetryAndFollowTheirDrive (((((State.reset).setHs { Switches.reset with behave := false }).setBit Reg.HS_ON F.HS_ON_VAL 4 true).setHs { Switches.reset with behave := false, overV := true }).setSw 4 { LoadSwitch.reset with drive := true }) 4 0 0 0 0 false 0 0 39 = true := by
  and_intros <;> decide +kernel

/-- The hypotheses of BrineRegulatesShedsAndLatchesByItsRules, clause by clause. -/
def hypBrineRegulatesShedsAndLatchesByItsRules (s : State) (data : Word) (vout : BitVec 16) (trk : BitVec 12) (i : BitVec 64) (p : Fin 4) (u : Nat) (q : Nat) (x : BrSense) (clause : Nat) : Bool :=
  let b := s.brine
  let k := p.val
  let on := s.brOn = true
  let good := s.brLatched = false
  let cf := fun (r : Nat) (f : Fld) => s.fld r f
  let atLeast1 := fun (x : Nat) => if x = 0 then 1 else x
  let mode := cf Reg.BR_CTRL F.BR_CTRL_TRK_MODE
  let phEn := cf Reg.BR_CTRL F.BR_CTRL_PH_EN
  let up := data.getLsbD 31 = true
  let want := F.BR_CTRL_PH_EN.get data
  let vset : Nat := clampNat 5000 28000 (cf Reg.BR_VSET F.BR_VSET_VSET_MV)
  let fsw := clampNat 100 600 (cf Reg.BR_FSW F.BR_FSW_FSW_KHZ)
  let goal := vset * 1000000000
  let slew := atLeast1 (cf Reg.BR_VSET F.BR_VSET_SLEW) * 1000000000 / fsw
  let rref := if b.rref < goal then min goal (b.rref + slew) else max goal (b.rref - slew)
  let mv := rref / 1000000000
  let ref : Nat := if mode = 1 then min mv (16 * trk.toNat) else if mode = 2 then min mv (vset * trk.toNat / atLeast1 (cf Reg.BR_TRK F.BR_TRK_TRK_FS)) else mv
  let v : Nat := vout.toNat
  let prot := fun (f : Fld) => cf Reg.BR_PROT f
  let brk : Nat := prot F.BR_PROT_BRK_MV * 10
  let brakes := if s.brFlag F.BR_STATUS_BRAKING = true then ref * 2 + brk ≤ v * 2 else (s.flag Reg.BR_CTRL F.BR_CTRL_BRK_EN = true ∧ ref + brk < v)
  let stepped := v + prot F.BR_PROT_STEP_MV * 10 < ref
  let active := s.brActive
  let list := (List.range 4).filter (fun q => bitOf active q)
  let n : Nat := list.length
  let lane := fun (q : Nat) => signed 16 (i.toNat / 2 ^ (16 * q))
  let total : Int := (list.map lane).foldl (fun a c => a + c) (0 : Int)
  let shed := fun (f : Fld) => cf Reg.BR_SHED f
  let still := b.fade = none ∧ b.grow = none
  let shedMs := atLeast1 (shed F.BR_SHED_SHED_MS) * 16000000
  let uv := prot F.BR_PROT_UV_MS
  let g := s.brGate k
  let a := signed 16 x.i.toNat
  let runs := s.brSwitches k = true ∧ x.p = p ∧ x.t ≠ 0 ∧ g.seen ≤ x.t.toNat ∧ (a.natAbs : Nat) * atLeast1 (cf Reg.BR_TRK F.BR_TRK_RS) ≤ 1000000
  let sheds := s.flag Reg.BR_CTRL F.BR_CTRL_SHED_EN = true ∧ b.lowAt = some u ∧ u + shedMs ≤ s.now ∧ b.holdTo ≤ s.now ∧ still ∧ list.getLast? = some k
  match clause with
  | 1 => decide ((s.acts .brine) ∧ (¬on ∧ up ∧ b.stopped = 0))
  | 2 => decide ((s.acts .brine) ∧ (on ∧ ¬up))
  | 3 => decide ((s.acts .brine) ∧ (on ∧ up ∧ good ∧ b.stopped = 0))
  | 4 => decide ((s.acts .brine) ∧ (F.BR_CTRL_TRK_MODE.get data = 3))
  | 5 => decide ((s.acts .brine))
  | 6 => decide ((s.acts .brine) ∧ (¬on))
  | 7 => decide ((s.acts .brine) ∧ (on ∧ ref < 65536))
  | 8 => decide ((s.acts .brine) ∧ (on ∧ good))
  | 9 => decide ((s.acts .brine) ∧ (on ∧ good ∧ stepped ∧ b.stopped = 0))
  | 10 => decide ((s.acts .brine) ∧ (on ∧ good ∧ ¬stepped ∧ b.fade = some (k, u) ∧ i = 0))
  | 11 => decide ((s.acts .brine) ∧ (on ∧ good ∧ ¬stepped ∧ still ∧ ¬brakes ∧ b.stopped = 0 ∧ (shed F.BR_SHED_SHED_HI * 25 * n : Nat) < total ∧ (List.range 4).find? (fun y => bitOf phEn y && !bitOf active y) = some q))
  | 12 => decide ((s.acts .brine) ∧ (on ∧ 32 ≤ b.periods ∧ bitOf active k = true))
  | 13 => decide ((s.acts .brine) ∧ (¬on ∨ b.periods < 32))
  | 14 => decide ((s.acts .brine) ∧ (on ∧ good ∧ b.uvAt = some u ∧ u + atLeast1 uv * 16000000 ≤ s.now))
  | 15 => decide ((s.acts .brine) ∧ (b.uvAt = none ∨ (b.uvAt = some u ∧ s.now < u + atLeast1 uv * 16000000)))
  | 16 => decide ((s.acts .brine) ∧ (on ∧ good ∧ b.ovAt = some u ∧ u + 320000 ≤ s.now))
  | 17 => decide ((s.acts .brine) ∧ (b.ovAt = none ∨ (b.ovAt = some u ∧ s.now < u + 320000)))
  | 18 => decide ((s.acts .brine) ∧ (on ∧ sheds ∧ shed F.BR_SHED_MIN_PH + 1 < n))
  | 19 => decide ((s.acts .brine) ∧ (¬on ∨ n ≤ shed F.BR_SHED_MIN_PH + 1 ∨ (b.lowAt = some u ∧ s.now < u + shedMs)))
  | 20 => decide ((s.acts .brine) ∧ (bitOf active k = true))
  | 21 => decide ((s.acts .brine) ∧ (bitOf active k = false))
  | 22 => decide ((s.acts .brine) ∧ (on ∧ up ∧ good ∧ bitOf b.stopped k = true ∧ bitOf phEn k = false ∧ bitOf want k = true))
  | 23 => decide ((s.acts .brine) ∧ (runs ∧ g.high = false ∧ g.due = false ∧ g.done = false ∧ g.low = true))
  | _ => decide ((s.acts .brine) ∧ (s.brSwitches k = false))
theorem test_meets_BrineRegulatesShedsAndLatchesByItsRules :
    hypBrineRegulatesShedsAndLatchesByItsRules (((State.reset).setFlag Reg.BR_STATUS F.BR_STATUS_UV_LATCH true).setFld Reg.BR_VOUT F.BR_VOUT_VOUT 5000) 0x80070000 0 0 0 0 0 0 ⟨0, 0, 0, false⟩ 1 = true ∧
    hypBrineRegulatesShedsAndLatchesByItsRules (((State.reset).setFlag Reg.BR_CTRL F.BR_CTRL_EN true).setFld Reg.BR_STATUS F.BR_STATUS_ACTIVE 15) 0xF0000 0 0 0 0 0 0 ⟨0, 0, 0, false⟩ 2 = true ∧
    hypBrineRegulatesShedsAndLatchesByItsRules ((((State.reset).setFlag Reg.BR_CTRL F.BR_CTRL_EN true).setFld Reg.BR_STATUS F.BR_STATUS_ACTIVE 7).setFld Reg.BR_CTRL F.BR_CTRL_PH_EN 7) 0x800F0000 0 0 0 3 0 0 ⟨0, 0, 0, false⟩ 3 = true ∧
    hypBrineRegulatesShedsAndLatchesByItsRules (((State.reset).setFlag Reg.BR_CTRL F.BR_CTRL_EN true).setFld Reg.BR_STATUS F.BR_STATUS_ACTIVE 15) 0x80070000 0 0 0 3 0 0 ⟨0, 0, 0, false⟩ 3 = true ∧
    hypBrineRegulatesShedsAndLatchesByItsRules State.reset 0x3000 0 0 0 0 0 0 ⟨0, 0, 0, false⟩ 4 = true ∧
    hypBrineRegulatesShedsAndLatchesByItsRules (((State.reset).setFlag Reg.BR_CTRL F.BR_CTRL_EN true).setFld Reg.BR_STATUS F.BR_STATUS_ACTIVE 15) 0x0BB85DC0 0 0 0 0 0 0 ⟨0, 0, 0, false⟩ 5 = true ∧
    hypBrineRegulatesShedsAndLatchesByItsRules State.reset 0 77 0 0 0 0 0 ⟨0, 0, 0, false⟩ 6 = true ∧
    hypBrineRegulatesShedsAndLatchesByItsRules (((((State.reset).setFlag Reg.BR_CTRL F.BR_CTRL_EN true).setFld Reg.BR_STATUS F.BR_STATUS_ACTIVE 15).setFld Reg.BR_CTRL F.BR_CTRL_TRK_MODE 1).setBrine { Brine.reset with rref := 12000000000000 }) 0 0 100 0 0 0 0 ⟨0, 0, 0, false⟩ 7 = true ∧
    hypBrineRegulatesShedsAndLatchesByItsRules ((((State.reset).setFlag Reg.BR_CTRL F.BR_CTRL_EN true).setFld Reg.BR_STATUS F.BR_STATUS_ACTIVE 15).setBrine { Brine.reset with rref := 12000000000000 }) 0 11900 0 0x0002FFFF00030004 2 0 0 ⟨0, 0, 0, false⟩ 7 = true ∧
    hypBrineRegulatesShedsAndLatchesByItsRules (((((State.reset).setFlag Reg.BR_CTRL F.BR_CTRL_EN true).setFld Reg.BR_STATUS F.BR_STATUS_ACTIVE 15).setFlag Reg.BR_CTRL F.BR_CTRL_BRK_EN true).setBrine { Brine.reset with rref := 12000000000000 }) 0 13000 0 0 0 0 0 ⟨0, 0, 0, false⟩ 8 = true ∧
    hypBrineRegulatesShedsAndLatchesByItsRules ((((State.reset).setFlag Reg.BR_CTRL F.BR_CTRL_EN true).setFld Reg.BR_STATUS F.BR_STATUS_ACTIVE 15).setBrine { Brine.reset with rref := 12000000000000 }) 0 11900 0 0 0 0 0 ⟨0, 0, 0, false⟩ 8 = true ∧
    hypBrineRegulatesShedsAndLatchesByItsRules ((((State.reset).setFlag Reg.BR_CTRL F.BR_CTRL_EN true).setFld Reg.BR_STATUS F.BR_STATUS_ACTIVE 15).setBrine { Brine.reset with rref := 24000000000000 }) 0 1000 0 0 0 0 0 ⟨0, 0, 0, false⟩ 8 = true ∧
    hypBrineRegulatesShedsAndLatchesByItsRules ((((State.reset).setFlag Reg.BR_CTRL F.BR_CTRL_EN true).setFld Reg.BR_STATUS F.BR_STATUS_ACTIVE 7).setBrine { Brine.reset with rref := 12000000000000, fade := some (2, 5) }) 0 11000 0 0 0 0 0 ⟨0, 0, 0, false⟩ 9 = true ∧
    hypBrineRegulatesShedsAndLatchesByItsRules ((((State.reset).setFlag Reg.BR_CTRL F.BR_CTRL_EN true).setFld Reg.BR_STATUS F.BR_STATUS_ACTIVE 15).setBrine { Brine.reset with rref := 12000000000000, fade := some (3, 1) }) 0 12000 0 0 3 1 0 ⟨0, 0, 0, false⟩ 10 = true ∧
    hypBrineRegulatesShedsAndLatchesByItsRules ((((State.reset).setFlag Reg.BR_CTRL F.BR_CTRL_EN true).setFld Reg.BR_STATUS F.BR_STATUS_ACTIVE 15).setBrine { Brine.reset with rref := 12000000000000, fade := some (3, 2) }) 0 12000 0 0 3 2 0 ⟨0, 0, 0, false⟩ 10 = true ∧
    hypBrineRegulatesShedsAndLatchesByItsRules ((((State.reset).setFlag Reg.BR_CTRL F.BR_CTRL_EN true).setFld Reg.BR_STATUS F.BR_STATUS_ACTIVE 7).setBrine { Brine.reset with rref := 12000000000000 }) 0 12000 0 0x000005DC05DC05DC 0 0 3 ⟨0, 0, 0, false⟩ 11 = true ∧
    hypBrineRegulatesShedsAndLatchesByItsRules ((((((State.reset).setFlag Reg.BR_CTRL F.BR_CTRL_EN true).setFld Reg.BR_STATUS F.BR_STATUS_ACTIVE 15).setBrine { Brine.reset with periods := 32, atLim := [(1, 1023)] }).setFld (Reg.BR_PH 1) F.BR_PH_I_MA 10).setFld (Reg.BR_PH 1) F.BR_PH_TRIM 156) 0 0 0 0 1 0 0 ⟨0, 0, 0, false⟩ 12 = true ∧
    hypBrineRegulatesShedsAndLatchesByItsRules (((((State.reset).setFlag Reg.BR_CTRL F.BR_CTRL_EN true).setFld Reg.BR_STATUS F.BR_STATUS_ACTIVE 15).setBrine { Brine.reset with periods := 32 }).setFld (Reg.BR_PH 1) F.BR_PH_I_MA 10) 0 0 0 0 1 0 0 ⟨0, 0, 0, false⟩ 12 = true ∧
    hypBrineRegulatesShedsAndLatchesByItsRules (((State.reset).setFlag Reg.BR_CTRL F.BR_CTRL_EN true).setFld Reg.BR_STATUS F.BR_STATUS_ACTIVE 15) 0 0 0 0 0 0 0 ⟨0, 0, 0, false⟩ 13 = true ∧
    hypBrineRegulatesShedsAndLatchesByItsRules (((((State.reset).setFlag Reg.BR_CTRL F.BR_CTRL_EN true).setFld Reg.BR_STATUS F.BR_STATUS_ACTIVE 15).setBrine { Brine.reset with uvAt := some 0 }).setNow 80000000) 0 0 0 0 0 0 0 ⟨0, 0, 0, false⟩ 14 = true ∧
    hypBrineRegulatesShedsAndLatchesByItsRules ((((State.reset).setFlag Reg.BR_CTRL F.BR_CTRL_EN true).setFld Reg.BR_STATUS F.BR_STATUS_ACTIVE 15).setBrine { Brine.reset with uvAt := some 0 }) 0 0 0 0 0 0 0 ⟨0, 0, 0, false⟩ 15 = true ∧
    hypBrineRegulatesShedsAndLatchesByItsRules (((((State.reset).setFlag Reg.BR_CTRL F.BR_CTRL_EN true).setFld Reg.BR_STATUS F.BR_STATUS_ACTIVE 15).setBrine { Brine.reset with ovAt := some 0 }).setNow 320000) 0 0 0 0 0 0 0 ⟨0, 0, 0, false⟩ 16 = true ∧
    hypBrineRegulatesShedsAndLatchesByItsRules (((State.reset).setFlag Reg.BR_CTRL F.BR_CTRL_EN true).setFld Reg.BR_STATUS F.BR_STATUS_ACTIVE 15) 0 0 0 0 0 0 0 ⟨0, 0, 0, false⟩ 17 = true ∧
    hypBrineRegulatesShedsAndLatchesByItsRules ((((((State.reset).setFlag Reg.BR_CTRL F.BR_CTRL_EN true).setFld Reg.BR_STATUS F.BR_STATUS_ACTIVE 15).setFlag Reg.BR_CTRL F.BR_CTRL_SHED_EN true).setBrine { Brine.reset with lowAt := some 0 }).setNow 160000000) 0 0 0 0 3 0 0 ⟨0, 0, 0, false⟩ 18 = true ∧
    hypBrineRegulatesShedsAndLatchesByItsRules ((((((State.reset).setFlag Reg.BR_CTRL F.BR_CTRL_EN true).setFld Reg.BR_STATUS F.BR_STATUS_ACTIVE 1).setFlag Reg.BR_CTRL F.BR_CTRL_SHED_EN true).setBrine { Brine.reset with lowAt := some 0 }).setNow 160000000) 0 0 0 0 0 0 0 ⟨0, 0, 0, false⟩ 19 = true ∧
    hypBrineRegulatesShedsAndLatchesByItsRules (((((State.reset).setFlag Reg.BR_CTRL F.BR_CTRL_EN true).setFld Reg.BR_STATUS F.BR_STATUS_ACTIVE 15).setFlag Reg.BR_CTRL F.BR_CTRL_SHED_EN true).setBrine { Brine.reset with lowAt := some 0 }) 0 0 0 0 0 0 0 ⟨0, 0, 0, false⟩ 19 = true ∧
    hypBrineRegulatesShedsAndLatchesByItsRules (((State.reset).setFlag Reg.BR_CTRL F.BR_CTRL_EN true).setFld Reg.BR_STATUS F.BR_STATUS_ACTIVE 15) 0 0 0 0 2 0 0 ⟨0, 0, 0, false⟩ 20 = true ∧
    hypBrineRegulatesShedsAndLatchesByItsRules ((State.reset).setFlag Reg.BR_CTRL F.BR_CTRL_EN true) 0 0 0 0 2 0 0 ⟨0, 0, 0, false⟩ 21 = true ∧
    hypBrineRegulatesShedsAndLatchesByItsRules (((((State.reset).setFlag Reg.BR_CTRL F.BR_CTRL_EN true).setFld Reg.BR_STATUS F.BR_STATUS_ACTIVE 11).setFld Reg.BR_CTRL F.BR_CTRL_PH_EN 11).setBrine { Brine.reset with stopped := 4 }) 0x800F0000 0 0 0 2 0 0 ⟨0, 0, 0, false⟩ 22 = true ∧
    hypBrineRegulatesShedsAndLatchesByItsRules ((((((State.reset).setFlag Reg.BR_CTRL F.BR_CTRL_EN true).setFld Reg.BR_STATUS F.BR_STATUS_ACTIVE 15).setBrine { Brine.reset with gate := [(2, ⟨false, true, false, false, 0, 0⟩)], ref := 2000, diode := false }).setFlag Reg.BR_CTRL F.BR_CTRL_SINK false).setFld Reg.BR_CUR F.BR_CUR_ILIM 100) 0 0 0 0 2 0 0 ⟨2, 400, 0, false⟩ 23 = true ∧
    hypBrineRegulatesShedsAndLatchesByItsRules ((((((State.reset).setFlag Reg.BR_CTRL F.BR_CTRL_EN true).setFld Reg.BR_STATUS F.BR_STATUS_ACTIVE 15).setBrine { Brine.reset with gate := [(2, ⟨false, true, false, false, 0, 0⟩)], ref := 2000, diode := false }).setFlag Reg.BR_CTRL F.BR_CTRL_SINK false).setFld Reg.BR_CUR F.BR_CUR_ILIM 100) 0 0 0 0 2 0 0 ⟨2, 400, 1, false⟩ 23 = true ∧
    hypBrineRegulatesShedsAndLatchesByItsRules ((((((State.reset).setFlag Reg.BR_CTRL F.BR_CTRL_EN true).setFld Reg.BR_STATUS F.BR_STATUS_ACTIVE 15).setBrine { Brine.reset with gate := [(2, ⟨false, true, false, false, 0, 0⟩)], ref := 2000, diode := false }).setFlag Reg.BR_CTRL F.BR_CTRL_SINK true).setFld Reg.BR_CUR F.BR_CUR_ILIM 100) 0 0 0 0 2 0 0 ⟨2, 400, 65000, false⟩ 23 = true ∧
    hypBrineRegulatesShedsAndLatchesByItsRules ((((((State.reset).setFlag Reg.BR_CTRL F.BR_CTRL_EN true).setFld Reg.BR_STATUS F.BR_STATUS_ACTIVE 15).setBrine { Brine.reset with gate := [(2, ⟨false, true, false, false, 0, 0⟩)], ref := 2000, diode := false }).setFlag Reg.BR_CTRL F.BR_CTRL_SINK true).setFld Reg.BR_CUR F.BR_CUR_ILIM 100) 0 0 0 0 2 0 0 ⟨2, 400, 65400, false⟩ 23 = true ∧
    hypBrineRegulatesShedsAndLatchesByItsRules ((((((State.reset).setFlag Reg.BR_CTRL F.BR_CTRL_EN true).setFld Reg.BR_STATUS F.BR_STATUS_ACTIVE 15).setBrine { Brine.reset with gate := [(2, ⟨false, true, false, false, 0, 0⟩)], ref := 2000, diode := true }).setFlag Reg.BR_CTRL F.BR_CTRL_SINK true).setFld Reg.BR_CUR F.BR_CUR_ILIM 100) 0 0 0 0 2 0 0 ⟨2, 400, 65000, false⟩ 23 = true ∧
    hypBrineRegulatesShedsAndLatchesByItsRules State.reset 0 0 0 0 0 0 0 ⟨0, 0, 0, false⟩ 24 = true := by
  and_intros <;> decide +kernel

/-- The hypotheses of CanControllersSendReceiveAndConfineErrors, clause by clause. -/
def hypCanControllersSendReceiveAndConfineErrors (s : State) (n : Fin 4) (data : Word) (f : CanFrame) (c : Fin 32) (d : Fin 2) (low : Nat) (q0 : Nat) (loc : Int) (req : BitVec 3) (can : BitVec 3) (b : Fin 3) (edges : Bool) (m : Nat) (err : CanErr) (clause : Nat) : Bool :=
  let k := n.val
  let x := s.canCtl k
  let ctl := fun (f : Fld) => s.flag (Reg.CAN_CTRL k) f
  let on := s.canOn k = true
  let st := Reg.CAN_STAT k
  let has := fun (t : State) (f : Fld) => t.flag st f
  let off := has s F.CAN_STAT_BUS_OFF = true
  let up := data.getLsbD 31 = true
  let mode := s.fld (Reg.CAN_CTRL k) F.CAN_CTRL_MODE
  let normal := mode = 0
  let listens := mode = 1 ∨ mode = 3
  let pend := fun (t : State) => t.fld (Reg.CAN_TXSTAT k) F.CAN_TXSTAT_PEND
  let now := pend s
  let dma := s.dmaRoom 15 = true
  let bits := (s.fld (Reg.CAN_NBT k) F.CAN_NBT_NBRP + 1) * (3 + s.fld (Reg.CAN_NBT k) F.CAN_NBT_NTSEG1 + s.fld (Reg.CAN_NBT k) F.CAN_NBT_NTSEG2)
  let passed := fun (m : Nat) => x.since + m * bits * 200 ≤ s.now
  let may := on ∧ dma ∧ x.joined = true ∧ x.sending = none ∧ ¬listens ∧ has s F.CAN_STAT_STUCK = false ∧ ¬off
  let takes := on ∧ dma ∧ x.joined = true ∧ mode ≠ 2 ∧ ¬off ∧ (f.fdf = true → ctl F.CAN_CTRL_FD_EN = true)
  let role := s.fld (Reg.CAN_REF_CFG k) F.CAN_REF_CFG_ROLE
  let flt := fun (q : Nat) (g : Fld) => s.fld (Reg.CAN_FLT_ID k q) g
  let hit := fun (q : Nat) => s.flag (Reg.CAN_FLT_ID k q) F.CAN_FLT_ID_EN = true ∧ s.flag (Reg.CAN_FLT_ID k q) F.CAN_FLT_ID_XTD = f.xtd ∧ ((f.id ^^^ BitVec.ofNat 29 (flt q F.CAN_FLT_ID_ID)) &&& BitVec.ofNat 29 (s.fld (Reg.CAN_FLT_MASK k q) F.CAN_FLT_MASK_MASK)).toNat / (if f.xtd = true then 1 else 2 ^ 18) = 0
  let first := hit c.val ∧ (∀ y : Fin 32, y.val < c.val → ¬hit y.val)
  let none_ := ∀ y : Fin 32, ¬hit y.val
  let acc := s.fld (Reg.CAN_FLT_CFG k) F.CAN_FLT_CFG_ACC_NM
  let goes := takes ∧ role ≠ 2 ∧ ((first ∧ d.val = flt c.val F.CAN_FLT_ID_FIFO ∧ low = c.val * 2 ^ 8) ∨ (none_ ∧ acc = d.val + 1 ∧ low = 2 ^ 13))
  let rx := Reg.CAN_RXF k d.val
  let at_ := s.canBase k + 0x500 * d.val + 80 * s.fld rx F.CAN_RXF_PUT
  let fill := s.fld rx F.CAN_RXF_FILL
  let room := fill < 16 ∧ sramRange at_ 80 = true
  let ref := takes ∧ role = 2 ∧ f.fdf = true ∧ f.dlc = 9 ∧ f.xtd = s.flag (Reg.CAN_REF_CFG k) F.CAN_REF_CFG_XTD ∧ f.xtd = true ∧ f.id.toNat = s.fld (Reg.CAN_REF_CFG k) F.CAN_REF_CFG_REF_ID ∧ x.refGot = some (q0, loc)
  let seq := leNat (f.data.take 1)
  let want := (BitVec.ofNat 3 now ||| req).toNat
  let tx := fun (y : Nat) => s.canBase k + 0xA00 + 80 * y
  let key := fun (y : Nat) => arbKey (elemFrame (s.bytes (tx y) 80))
  let before := fun (y z : Nat) => if ctl F.CAN_CTRL_TX_ORD = true then y ≤ z else (key y < key z ∨ (key y = key z ∧ y ≤ z))
  let el := fun (y : Nat) => elemFrame (s.bytes (tx y) 80)
  let can1 := fun (z : Nat) => bitOf want z = true ∧ (ctl F.CAN_CTRL_FD_EN = true ∨ (el z).fdf = false)
  let chosen := can1 b.val ∧ (∀ z : Fin 3, can1 z.val → before b.val z.val)
  let alone := s.thisCycle x.canAt = false ∧ s.thisCycle x.reqAt = false
  let open_ := s.sramSound ∧ sramRange (tx b.val) 80 = true
  let ends := x.sending = some ⟨b.val, f⟩
  let pass := fun (t : State) => has t F.CAN_STAT_ERR_PASS
  let lim := s.fld (Reg.CAN_ROBUST k) (if edges = true then F.CAN_ROBUST_RATE_LIM else F.CAN_ROBUST_DOM_LIM)
  let per := clampNat 1 10000 (s.fld (Reg.CAN_REF_TIME k) F.CAN_REF_TIME_PERIOD_MS) * 1000000
  let tns := s.tbNs 2
  let inst := (tns / per, (s.tb 2).steps)
  let due := role = 1 ∧ on ∧ tns % per ≤ 20 ∧ x.refAt ≠ some inst
  let tec := match err with | .tx => x.tec + 8 | _ => x.tec
  match clause with
  | 1 => decide ((s.acts .can) ∧ (ctl F.CAN_CTRL_EN = false ∧ up))
  | 2 => decide ((s.acts .can) ∧ (ctl F.CAN_CTRL_EN = true ∧ ¬up))
  | 3 => decide ((s.acts .can) ∧ (on ∧ x.joined = false ∧ ¬off ∧ passed 11 ∧ now = 0 ∧ x.refPend = false ∧ x.sending = none))
  | 4 => decide ((s.acts .can) ∧ (¬on ∨ off ∨ ¬passed 11))
  | 5 => decide ((s.acts .can) ∧ (goes ∧ x.rearmed = false ∧ room))
  | 6 => decide ((s.acts .can) ∧ (goes ∧ x.rearmed = false ∧ 16 ≤ fill ∧ (pass s = true ∨ (x.tec < 128 ∧ x.recCnt < 128))))
  | 7 => decide ((s.acts .can) ∧ (takes ∧ role ≠ 2 ∧ none_ ∧ (acc = 0 ∨ acc = 3)))
  | 8 => decide ((s.acts .can) ∧ (ref ∧ x.rearmed = false ∧ seq = (q0 + 1) % 256))
  | 9 => decide ((s.acts .can) ∧ (ref ∧ x.rearmed = false ∧ seq < 256 ∧ seq ≠ (q0 + 1) % 256))
  | 10 => decide ((s.acts .can) ∧ (¬takes))
  | 11 => decide ((s.acts .can))
  | 12 => decide ((s.acts .can) ∧ (alone))
  | 13 => decide ((s.acts .can) ∧ (s.thisCycle x.canAt = true))
  | 14 => decide ((s.acts .can) ∧ (alone ∧ may ∧ x.refPend = false ∧ chosen ∧ open_))
  | 15 => decide ((s.acts .can) ∧ (s.thisCycle x.reqAt = true ∧ x.reqBits.getLsbD b.val = true ∧ bitOf can.toNat b.val = true))
  | 16 => decide ((s.acts .can) ∧ (alone))
  | 17 => decide ((s.acts .can) ∧ (ends ∧ dma ∧ normal ∧ sramRange (tx b.val) 80 = true))
  | 18 => decide ((s.acts .can) ∧ (ends ∧ dma ∧ ctl F.CAN_CTRL_DAR = true))
  | 19 => decide ((s.acts .can) ∧ (ends ∧ ctl F.CAN_CTRL_DAR = false))
  | 20 => decide ((s.acts .can) ∧ (x.sending = some ⟨3, f⟩ ∧ dma ∧ normal ∧ ¬(ctl F.CAN_CTRL_FD_EN = true ∧ x.refPend = true)))
  | 21 => decide ((s.acts .can) ∧ (x.sending = none))
  | 22 => decide ((s.acts .can) ∧ (on ∧ ¬off))
  | 23 => decide ((s.acts .can) ∧ (off))
  | 24 => decide ((s.acts .can) ∧ (on ∧ off ∧ passed 1408 ∧ ctl F.CAN_CTRL_AUTO_REC = true))
  | 25 => decide ((s.acts .can) ∧ (ctl F.CAN_CTRL_AUTO_REC = false ∨ ¬passed 1408))
  | 26 => decide ((s.acts .can) ∧ (on ∧ lim ≠ 0 ∧ (if edges = true then lim < m else lim * 16 * bits < m) ∧ has s F.CAN_STAT_STUCK = false))
  | 27 => decide ((s.acts .can) ∧ (lim = 0 ∨ m ≤ lim))
  | 28 => decide ((s.acts .can))
  | 29 => decide ((s.acts .can) ∧ (due ∧ ¬(may ∧ ctl F.CAN_CTRL_FD_EN = true)))
  | 30 => decide ((s.acts .can) ∧ (due ∧ may ∧ ctl F.CAN_CTRL_FD_EN = true))
  | 31 => decide ((s.acts .can) ∧ (role ≠ 1 ∨ x.refAt = some inst))
  | 32 => decide ((s.acts .can) ∧ (on ∧ ¬off ∧ ¬listens ∧ tec < 256))
  | 33 => decide ((s.acts .can) ∧ (on ∧ ¬off ∧ ¬listens ∧ 256 ≤ tec))
  | _ => decide ((s.acts .can) ∧ (on ∧ ¬off ∧ listens))
theorem test_meets_CanControllersSendReceiveAndConfineErrors :
    hypCanControllersSendReceiveAndConfineErrors (((State.reset).setFlag (Reg.CAN_STAT 1) F.CAN_STAT_BUS_OFF true).setCanCtl 1 { CanCtl.reset with joined := true, tec := 300 }) 1 0x80000000 ⟨0x04840000, false, false, true, true, false, 9, [1, 2, 3, 4, 5, 6, 7, 8, 9, 10, 11, 12]⟩ 0 0 0 0 0 0 0 0 false 0 .rx 1 = true ∧
    hypCanControllersSendReceiveAndConfineErrors ((((((State.reset).setFlag (Reg.CAN_CTRL 1) F.CAN_CTRL_EN true).setFlag (Reg.CAN_CTRL 1) F.CAN_CTRL_FD_EN true).wr (Reg.CAN_RAM_BASE 1) 0x01000000).setCanCtl 1 { CanCtl.reset with joined := true, sending := some ⟨2, ⟨0x04840000, false, false, true, true, false, 9, [1, 2, 3, 4, 5, 6, 7, 8, 9, 10, 11, 12]⟩⟩ }).setCanPend 1 4) 1 0 ⟨0x04840000, false, false, true, true, false, 9, [1, 2, 3, 4, 5, 6, 7, 8, 9, 10, 11, 12]⟩ 0 0 0 0 0 0 0 0 false 0 .rx 2 = true ∧
    hypCanControllersSendReceiveAndConfineErrors (((((State.reset).setFlag (Reg.CAN_CTRL 1) F.CAN_CTRL_EN true).setFlag (Reg.CAN_CTRL 1) F.CAN_CTRL_FD_EN true).wr (Reg.CAN_RAM_BASE 1) 0x01000000).setNow 1000000000) 1 0 ⟨0x04840000, false, false, true, true, false, 9, [1, 2, 3, 4, 5, 6, 7, 8, 9, 10, 11, 12]⟩ 0 0 0 0 0 0 0 0 false 0 .rx 3 = true ∧
    hypCanControllersSendReceiveAndConfineErrors (((((State.reset).setFlag (Reg.CAN_CTRL 1) F.CAN_CTRL_EN true).setFlag (Reg.CAN_CTRL 1) F.CAN_CTRL_FD_EN true).wr (Reg.CAN_RAM_BASE 1) 0x01000000).setFlag (Reg.CAN_STAT 1) F.CAN_STAT_BUS_OFF true) 1 0 ⟨0x04840000, false, false, true, true, false, 9, [1, 2, 3, 4, 5, 6, 7, 8, 9, 10, 11, 12]⟩ 0 0 0 0 0 0 0 0 false 0 .rx 4 = true ∧
    hypCanControllersSendReceiveAndConfineErrors ((((State.reset).setFlag (Reg.CAN_CTRL 1) F.CAN_CTRL_EN true).setFlag (Reg.CAN_CTRL 1) F.CAN_CTRL_FD_EN true).wr (Reg.CAN_RAM_BASE 1) 0x01000000) 1 0 ⟨0x04840000, false, false, true, true, false, 9, [1, 2, 3, 4, 5, 6, 7, 8, 9, 10, 11, 12]⟩ 0 0 0 0 0 0 0 0 false 0 .rx 4 = true ∧
    hypCanControllersSendReceiveAndConfineErrors ((((((((State.reset).setFlag (Reg.CAN_CTRL 1) F.CAN_CTRL_EN true).setFlag (Reg.CAN_CTRL 1) F.CAN_CTRL_FD_EN true).wr (Reg.CAN_RAM_BASE 1) 0x01000000).setCanCtl 1 { CanCtl.reset with joined := true, tec := 9 }).setFlag (Reg.CAN_FLT_ID 1 3) F.CAN_FLT_ID_EN true).setFlag (Reg.CAN_FLT_ID 1 3) F.CAN_FLT_ID_FIFO true).setFld (Reg.CAN_FLT_ID 1 3) F.CAN_FLT_ID_ID 0x0484FFFF) 1 0 ⟨0x04840000, false, false, true, true, false, 9, [1, 2, 3, 4, 5, 6, 7, 8, 9, 10, 11, 12]⟩ 3 1 768 0 0 0 0 0 false 0 .rx 5 = true ∧
    hypCanControllersSendReceiveAndConfineErrors (((((((State.reset).setFlag (Reg.CAN_CTRL 1) F.CAN_CTRL_EN true).setFlag (Reg.CAN_CTRL 1) F.CAN_CTRL_FD_EN true).wr (Reg.CAN_RAM_BASE 1) 0x01000000).setCanCtl 1 { CanCtl.reset with joined := true, tec := 9 }).setFld (Reg.CAN_FLT_CFG 1) F.CAN_FLT_CFG_ACC_NM 1).setFld (Reg.CAN_RXF 1 0) F.CAN_RXF_PUT 15) 1 0 ⟨0x04840000, false, false, true, true, false, 9, [1, 2, 3, 4, 5, 6, 7, 8, 9, 10, 11, 12]⟩ 0 0 8192 0 0 0 0 0 false 0 .rx 5 = true ∧
    hypCanControllersSendReceiveAndConfineErrors (((((((((State.reset).setFlag (Reg.CAN_CTRL 1) F.CAN_CTRL_EN true).setFlag (Reg.CAN_CTRL 1) F.CAN_CTRL_FD_EN true).wr (Reg.CAN_RAM_BASE 1) 0x01000000).setCanCtl 1 { CanCtl.reset with joined := true, tec := 9 }).setFlag (Reg.CAN_FLT_ID 1 3) F.CAN_FLT_ID_EN true).setFlag (Reg.CAN_FLT_ID 1 3) F.CAN_FLT_ID_FIFO true).setFld (Reg.CAN_FLT_ID 1 3) F.CAN_FLT_ID_ID 0x0484FFFF).setFld (Reg.CAN_RXF 1 1) F.CAN_RXF_FILL 16) 1 0 ⟨0x04840000, false, false, true, true, false, 9, [1, 2, 3, 4, 5, 6, 7, 8, 9, 10, 11, 12]⟩ 3 1 768 0 0 0 0 0 false 0 .rx 6 = true ∧
    hypCanControllersSendReceiveAndConfineErrors (((((State.reset).setFlag (Reg.CAN_CTRL 1) F.CAN_CTRL_EN true).setFlag (Reg.CAN_CTRL 1) F.CAN_CTRL_FD_EN true).wr (Reg.CAN_RAM_BASE 1) 0x01000000).setCanCtl 1 { CanCtl.reset with joined := true, recCnt := 5 }) 1 0 ⟨0x04840000, false, false, true, true, false, 9, [1, 2, 3, 4, 5, 6, 7, 8, 9, 10, 11, 12]⟩ 0 0 0 0 0 0 0 0 false 0 .rx 7 = true ∧
    hypCanControllersSendReceiveAndConfineErrors ((((((((((State.reset).setFlag (Reg.CAN_CTRL 1) F.CAN_CTRL_EN true).setFlag (Reg.CAN_CTRL 1) F.CAN_CTRL_FD_EN true).wr (Reg.CAN_RAM_BASE 1) 0x01000000).setCanCtl 1 { CanCtl.reset with joined := true, refGot := some (7, 7000000430) }).setFld (Reg.CAN_REF_CFG 1) F.CAN_REF_CFG_ROLE 2).setFlag (Reg.CAN_REF_CFG 1) F.CAN_REF_CFG_XTD true).setFld (Reg.CAN_REF_CFG 1) F.CAN_REF_CFG_REF_ID 0x123).setFld Reg.CAN_GLB F.CAN_GLB_TSYNC_CH 1).setTb 2 { State.reset.tb 2 with src := .can }) 1 0 ⟨0x123, true, false, true, false, false, 9, [8, 1, 7, 0, 0, 0, 0, 0, 100, 0, 0, 0]⟩ 0 0 0 7 7000000430 0 0 0 false 0 .rx 8 = true ∧
    hypCanControllersSendReceiveAndConfineErrors ((((((((State.reset).setFlag (Reg.CAN_CTRL 1) F.CAN_CTRL_EN true).setFlag (Reg.CAN_CTRL 1) F.CAN_CTRL_FD_EN true).wr (Reg.CAN_RAM_BASE 1) 0x01000000).setCanCtl 1 { CanCtl.reset with joined := true, refGot := some (6, 9) }).setFld (Reg.CAN_REF_CFG 1) F.CAN_REF_CFG_ROLE 2).setFlag (Reg.CAN_REF_CFG 1) F.CAN_REF_CFG_XTD true).setFld (Reg.CAN_REF_CFG 1) F.CAN_REF_CFG_REF_ID 0x123) 1 0 ⟨0x123, true, false, true, false, false, 9, [8, 1, 7, 0, 0, 0, 0, 0, 100, 0, 0, 0]⟩ 0 0 0 6 9 0 0 0 false 0 .rx 9 = true ∧
    hypCanControllersSendReceiveAndConfineErrors ((((State.reset).setFlag (Reg.CAN_CTRL 1) F.CAN_CTRL_EN true).setFlag (Reg.CAN_CTRL 1) F.CAN_CTRL_FD_EN true).wr (Reg.CAN_RAM_BASE 1) 0x01000000) 1 0 ⟨0x04840000, false, false, true, true, false, 9, [1, 2, 3, 4, 5, 6, 7, 8, 9, 10, 11, 12]⟩ 0 0 0 0 0 0 0 0 false 0 .rx 10 = true ∧
    hypCanControllersSendReceiveAndConfineErrors ((((((State.reset).setFlag (Reg.CAN_CTRL 1) F.CAN_CTRL_EN true).setFlag (Reg.CAN_CTRL 1) F.CAN_CTRL_FD_EN true).wr (Reg.CAN_RAM_BASE 1) 0x01000000).setFld (Reg.CAN_RXF 1 1) F.CAN_RXF_FILL 9).setFld (Reg.CAN_RXF 1 1) F.CAN_RXF_GET 15) 1 0 ⟨0x04840000, false, false, true, true, false, 9, [1, 2, 3, 4, 5, 6, 7, 8, 9, 10, 11, 12]⟩ 0 1 0 0 0 0 0 0 false 0 .rx 11 = true ∧
    hypCanControllersSendReceiveAndConfineErrors ((((State.reset).setFlag (Reg.CAN_CTRL 1) F.CAN_CTRL_EN true).setFlag (Reg.CAN_CTRL 1) F.CAN_CTRL_FD_EN true).wr (Reg.CAN_RAM_BASE 1) 0x01000000) 1 0 ⟨0x04840000, false, false, true, true, false, 9, [1, 2, 3, 4, 5, 6, 7, 8, 9, 10, 11, 12]⟩ 0 0 0 0 0 5 0 0 false 0 .rx 12 = true ∧
    hypCanControllersSendReceiveAndConfineErrors ((((((State.reset).setFlag (Reg.CAN_CTRL 1) F.CAN_CTRL_EN true).setFlag (Reg.CAN_CTRL 1) F.CAN_CTRL_FD_EN true).wr (Reg.CAN_RAM_BASE 1) 0x01000000).setCanCtl 1 { CanCtl.reset with joined := true, canAt := some 0, canBits := 5 }).setCanPend 1 2) 1 0 ⟨0x04840000, false, false, true, true, false, 9, [1, 2, 3, 4, 5, 6, 7, 8, 9, 10, 11, 12]⟩ 0 0 0 0 0 7 0 0 false 0 .rx 13 = true ∧
    hypCanControllersSendReceiveAndConfineErrors ((((((((State.reset).setFlag (Reg.CAN_CTRL 1) F.CAN_CTRL_EN true).setFlag (Reg.CAN_CTRL 1) F.CAN_CTRL_FD_EN true).wr (Reg.CAN_RAM_BASE 1) 0x01000000).setCanCtl 1 { CanCtl.reset with joined := true, tec := 9 }).setFlag (Reg.CAN_CTRL 1) F.CAN_CTRL_TX_ORD true).putBytes 0x01000A00 [0, 0, 12]).putBytes 0x01000A50 [0, 0, 8]) 1 0 ⟨0x04840000, false, false, true, true, false, 9, [1, 2, 3, 4, 5, 6, 7, 8, 9, 10, 11, 12]⟩ 0 0 0 0 0 3 0 0 false 0 .rx 14 = true ∧
    hypCanControllersSendReceiveAndConfineErrors (((((((State.reset).setFlag (Reg.CAN_CTRL 1) F.CAN_CTRL_EN true).setFlag (Reg.CAN_CTRL 1) F.CAN_CTRL_FD_EN true).wr (Reg.CAN_RAM_BASE 1) 0x01000000).setCanCtl 1 { CanCtl.reset with joined := true, tec := 9 }).putBytes 0x01000A00 [0, 0, 12]).putBytes 0x01000A50 [0, 0, 8]) 1 0 ⟨0x04840000, false, false, true, true, false, 9, [1, 2, 3, 4, 5, 6, 7, 8, 9, 10, 11, 12]⟩ 0 0 0 0 0 3 0 1 false 0 .rx 14 = true ∧
    hypCanControllersSendReceiveAndConfineErrors ((((((State.reset).setFlag (Reg.CAN_CTRL 1) F.CAN_CTRL_EN true).setFlag (Reg.CAN_CTRL 1) F.CAN_CTRL_FD_EN true).wr (Reg.CAN_RAM_BASE 1) 0x01000000).setCanCtl 1 { CanCtl.reset with joined := true, reqAt := some 0, reqBits := 4 }).setCanPend 1 4) 1 0 ⟨0x04840000, false, false, true, true, false, 9, [1, 2, 3, 4, 5, 6, 7, 8, 9, 10, 11, 12]⟩ 0 0 0 0 0 0 4 2 false 0 .rx 15 = true ∧
    hypCanControllersSendReceiveAndConfineErrors ((((((State.reset).setFlag (Reg.CAN_CTRL 1) F.CAN_CTRL_EN true).setFlag (Reg.CAN_CTRL 1) F.CAN_CTRL_FD_EN true).wr (Reg.CAN_RAM_BASE 1) 0x01000000).setCanCtl 1 { CanCtl.reset with joined := true, sending := some ⟨2, ⟨0x04840000, false, false, true, true, false, 9, [1, 2, 3, 4, 5, 6, 7, 8, 9, 10, 11, 12]⟩⟩ }).setCanPend 1 6) 1 0 ⟨0x04840000, false, false, true, true, false, 9, [1, 2, 3, 4, 5, 6, 7, 8, 9, 10, 11, 12]⟩ 0 0 0 0 0 0 4 2 false 0 .rx 16 = true ∧
    hypCanControllersSendReceiveAndConfineErrors (((((State.reset).setFlag (Reg.CAN_CTRL 1) F.CAN_CTRL_EN true).setFlag (Reg.CAN_CTRL 1) F.CAN_CTRL_FD_EN true).wr (Reg.CAN_RAM_BASE 1) 0x01000000).setCanPend 1 6) 1 0 ⟨0x04840000, false, false, true, true, false, 9, [1, 2, 3, 4, 5, 6, 7, 8, 9, 10, 11, 12]⟩ 0 0 0 0 0 0 4 2 false 0 .rx 16 = true ∧
    hypCanControllersSendReceiveAndConfineErrors ((((((State.reset).setFlag (Reg.CAN_CTRL 1) F.CAN_CTRL_EN true).setFlag (Reg.CAN_CTRL 1) F.CAN_CTRL_FD_EN true).wr (Reg.CAN_RAM_BASE 1) 0x01000000).setCanCtl 1 { CanCtl.reset with joined := true, tec := 9, sending := some ⟨2, ⟨0x04840000, false, false, true, true, false, 9, [1, 2, 3, 4, 5, 6, 7, 8, 9, 10, 11, 12]⟩⟩ }).setCanPend 1 4) 1 0 ⟨0x04840000, false, false, true, true, false, 9, [1, 2, 3, 4, 5, 6, 7, 8, 9, 10, 11, 12]⟩ 0 0 0 0 0 0 0 2 false 0 .rx 17 = true ∧
    hypCanControllersSendReceiveAndConfineErrors (((((((State.reset).setFlag (Reg.CAN_CTRL 1) F.CAN_CTRL_EN true).setFlag (Reg.CAN_CTRL 1) F.CAN_CTRL_FD_EN true).wr (Reg.CAN_RAM_BASE 1) 0x01000000).setFlag (Reg.CAN_CTRL 1) F.CAN_CTRL_DAR true).setCanCtl 1 { CanCtl.reset with joined := true, sending := some ⟨2, ⟨0x04840000, false, false, true, true, false, 9, [1, 2, 3, 4, 5, 6, 7, 8, 9, 10, 11, 12]⟩⟩ }).setCanPend 1 4) 1 0 ⟨0x04840000, false, false, true, true, false, 9, [1, 2, 3, 4, 5, 6, 7, 8, 9, 10, 11, 12]⟩ 0 0 0 0 0 0 0 2 false 0 .rx 18 = true ∧
    hypCanControllersSendReceiveAndConfineErrors ((((((State.reset).setFlag (Reg.CAN_CTRL 1) F.CAN_CTRL_EN true).setFlag (Reg.CAN_CTRL 1) F.CAN_CTRL_FD_EN true).wr (Reg.CAN_RAM_BASE 1) 0x01000000).setCanCtl 1 { CanCtl.reset with joined := true, sending := some ⟨2, ⟨0x04840000, false, false, true, true, false, 9, [1, 2, 3, 4, 5, 6, 7, 8, 9, 10, 11, 12]⟩⟩ }).setCanPend 1 4) 1 0 ⟨0x04840000, false, false, true, true, false, 9, [1, 2, 3, 4, 5, 6, 7, 8, 9, 10, 11, 12]⟩ 0 0 0 0 0 0 0 2 false 0 .rx 19 = true ∧
    hypCanControllersSendReceiveAndConfineErrors (((((State.reset).setFlag (Reg.CAN_CTRL 1) F.CAN_CTRL_EN true).setFlag (Reg.CAN_CTRL 1) F.CAN_CTRL_FD_EN true).wr (Reg.CAN_RAM_BASE 1) 0x01000000).setCanCtl 1 { CanCtl.reset with joined := true, sending := some ⟨3, ⟨0x123, true, false, true, false, false, 9, [8, 1, 7, 0, 0, 0, 0, 0, 100, 0, 0, 0]⟩⟩ }) 1 0 ⟨0x123, true, false, true, false, false, 9, [8, 1, 7, 0, 0, 0, 0, 0, 100, 0, 0, 0]⟩ 0 0 0 0 0 0 0 0 false 0 .rx 20 = true ∧
    hypCanControllersSendReceiveAndConfineErrors (((((State.reset).setFlag (Reg.CAN_CTRL 1) F.CAN_CTRL_EN true).setFlag (Reg.CAN_CTRL 1) F.CAN_CTRL_FD_EN true).wr (Reg.CAN_RAM_BASE 1) 0x01000000).setCanCtl 1 { CanCtl.reset with joined := true, tec := 9 }) 1 0 ⟨0x04840000, false, false, true, true, false, 9, [1, 2, 3, 4, 5, 6, 7, 8, 9, 10, 11, 12]⟩ 0 0 0 0 0 0 0 0 false 0 .rx 21 = true ∧
    hypCanControllersSendReceiveAndConfineErrors ((((((State.reset).setFlag (Reg.CAN_CTRL 1) F.CAN_CTRL_EN true).setFlag (Reg.CAN_CTRL 1) F.CAN_CTRL_FD_EN true).wr (Reg.CAN_RAM_BASE 1) 0x01000000).setCanCtl 1 { CanCtl.reset with joined := true, sending := some ⟨2, ⟨0x04840000, false, false, true, true, false, 9, [1, 2, 3, 4, 5, 6, 7, 8, 9, 10, 11, 12]⟩⟩ }).setCanPend 1 4) 1 0 ⟨0x04840000, false, false, true, true, false, 9, [1, 2, 3, 4, 5, 6, 7, 8, 9, 10, 11, 12]⟩ 0 0 0 0 0 0 0 0 false 0 .rx 22 = true ∧
    hypCanControllersSendReceiveAndConfineErrors (((((State.reset).setFlag (Reg.CAN_CTRL 1) F.CAN_CTRL_EN true).setFlag (Reg.CAN_CTRL 1) F.CAN_CTRL_FD_EN true).wr (Reg.CAN_RAM_BASE 1) 0x01000000).setFlag (Reg.CAN_STAT 1) F.CAN_STAT_BUS_OFF true) 1 0 ⟨0x04840000, false, false, true, true, false, 9, [1, 2, 3, 4, 5, 6, 7, 8, 9, 10, 11, 12]⟩ 0 0 0 0 0 0 0 0 false 0 .rx 23 = true ∧
    hypCanControllersSendReceiveAndConfineErrors ((((((((State.reset).setFlag (Reg.CAN_CTRL 1) F.CAN_CTRL_EN true).setFlag (Reg.CAN_CTRL 1) F.CAN_CTRL_FD_EN true).wr (Reg.CAN_RAM_BASE 1) 0x01000000).setFlag (Reg.CAN_CTRL 1) F.CAN_CTRL_AUTO_REC true).setFlag (Reg.CAN_STAT 1) F.CAN_STAT_BUS_OFF true).setCanCtl 1 { CanCtl.reset with joined := true, tec := 256 }).setNow 1000000000) 1 0 ⟨0x04840000, false, false, true, true, false, 9, [1, 2, 3, 4, 5, 6, 7, 8, 9, 10, 11, 12]⟩ 0 0 0 0 0 0 0 0 false 0 .rx 24 = true ∧
    hypCanControllersSendReceiveAndConfineErrors ((((((State.reset).setFlag (Reg.CAN_CTRL 1) F.CAN_CTRL_EN true).setFlag (Reg.CAN_CTRL 1) F.CAN_CTRL_FD_EN true).wr (Reg.CAN_RAM_BASE 1) 0x01000000).setFlag (Reg.CAN_STAT 1) F.CAN_STAT_BUS_OFF true).setFlag (Reg.CAN_CTRL 1) F.CAN_CTRL_AUTO_REC false) 1 0 ⟨0x04840000, false, false, true, true, false, 9, [1, 2, 3, 4, 5, 6, 7, 8, 9, 10, 11, 12]⟩ 0 0 0 0 0 0 0 0 false 0 .rx 25 = true ∧
    hypCanControllersSendReceiveAndConfineErrors (((((((State.reset).setFlag (Reg.CAN_CTRL 1) F.CAN_CTRL_EN true).setFlag (Reg.CAN_CTRL 1) F.CAN_CTRL_FD_EN true).wr (Reg.CAN_RAM_BASE 1) 0x01000000).setCanCtl 1 { CanCtl.reset with joined := true, sending := some ⟨2, ⟨0x04840000, false, false, true, true, false, 9, [1, 2, 3, 4, 5, 6, 7, 8, 9, 10, 11, 12]⟩⟩ }).setCanPend 1 4).setFld (Reg.CAN_ROBUST 1) F.CAN_ROBUST_DOM_LIM 4) 1 0 ⟨0x04840000, false, false, true, true, false, 9, [1, 2, 3, 4, 5, 6, 7, 8, 9, 10, 11, 12]⟩ 0 0 0 0 0 0 0 0 false 100000000 .rx 26 = true ∧
    hypCanControllersSendReceiveAndConfineErrors (((((((State.reset).setFlag (Reg.CAN_CTRL 1) F.CAN_CTRL_EN true).setFlag (Reg.CAN_CTRL 1) F.CAN_CTRL_FD_EN true).wr (Reg.CAN_RAM_BASE 1) 0x01000000).setCanCtl 1 { CanCtl.reset with joined := true, sending := some ⟨2, ⟨0x04840000, false, false, true, true, false, 9, [1, 2, 3, 4, 5, 6, 7, 8, 9, 10, 11, 12]⟩⟩ }).setCanPend 1 4).setFld (Reg.CAN_ROBUST 1) F.CAN_ROBUST_RATE_LIM 4) 1 0 ⟨0x04840000, false, false, true, true, false, 9, [1, 2, 3, 4, 5, 6, 7, 8, 9, 10, 11, 12]⟩ 0 0 0 0 0 0 0 0 true 1000 .rx 26 = true ∧
    hypCanControllersSendReceiveAndConfineErrors (((((State.reset).setFlag (Reg.CAN_CTRL 1) F.CAN_CTRL_EN true).setFlag (Reg.CAN_CTRL 1) F.CAN_CTRL_FD_EN true).wr (Reg.CAN_RAM_BASE 1) 0x01000000).setFld (Reg.CAN_ROBUST 1) F.CAN_ROBUST_RATE_LIM 0) 1 0 ⟨0x04840000, false, false, true, true, false, 9, [1, 2, 3, 4, 5, 6, 7, 8, 9, 10, 11, 12]⟩ 0 0 0 0 0 0 0 0 true 0 .rx 27 = true ∧
    hypCanControllersSendReceiveAndConfineErrors ((((((State.reset).setFlag (Reg.CAN_CTRL 1) F.CAN_CTRL_EN true).setFlag (Reg.CAN_CTRL 1) F.CAN_CTRL_FD_EN true).wr (Reg.CAN_RAM_BASE 1) 0x01000000).setFlag (Reg.CAN_STAT 1) F.CAN_STAT_STUCK true).setCanPend 1 2) 1 0 ⟨0x04840000, false, false, true, true, false, 9, [1, 2, 3, 4, 5, 6, 7, 8, 9, 10, 11, 12]⟩ 0 0 0 0 0 0 0 0 false 0 .rx 28 = true ∧
    hypCanControllersSendReceiveAndConfineErrors (((((State.reset).setFlag (Reg.CAN_CTRL 1) F.CAN_CTRL_EN true).setFlag (Reg.CAN_CTRL 1) F.CAN_CTRL_FD_EN true).wr (Reg.CAN_RAM_BASE 1) 0x01000000).setFld (Reg.CAN_REF_CFG 1) F.CAN_REF_CFG_ROLE 1) 1 0 ⟨0x04840000, false, false, true, true, false, 9, [1, 2, 3, 4, 5, 6, 7, 8, 9, 10, 11, 12]⟩ 0 0 0 0 0 0 0 0 false 0 .rx 29 = true ∧
    hypCanControllersSendReceiveAndConfineErrors (((((((State.reset).setFlag (Reg.CAN_CTRL 1) F.CAN_CTRL_EN true).setFlag (Reg.CAN_CTRL 1) F.CAN_CTRL_FD_EN true).wr (Reg.CAN_RAM_BASE 1) 0x01000000).setCanCtl 1 { CanCtl.reset with joined := true, refSent := some (5000000007, 0) }).setFld (Reg.CAN_REF_CFG 1) F.CAN_REF_CFG_ROLE 1).setFld (Reg.CAN_REF_CFG 1) F.CAN_REF_CFG_REF_ID 0x123) 1 0 ⟨0x04840000, false, false, true, true, false, 9, [1, 2, 3, 4, 5, 6, 7, 8, 9, 10, 11, 12]⟩ 0 0 0 0 0 0 0 0 false 0 .rx 30 = true ∧
    hypCanControllersSendReceiveAndConfineErrors (((((((State.reset).setFlag (Reg.CAN_CTRL 1) F.CAN_CTRL_EN true).setFlag (Reg.CAN_CTRL 1) F.CAN_CTRL_FD_EN true).wr (Reg.CAN_RAM_BASE 1) 0x01000000).setCanCtl 1 { CanCtl.reset with joined := true, tec := 9 }).setFld (Reg.CAN_REF_CFG 1) F.CAN_REF_CFG_ROLE 1).setCanPend 1 1) 1 0 ⟨0x04840000, false, false, true, true, false, 9, [1, 2, 3, 4, 5, 6, 7, 8, 9, 10, 11, 12]⟩ 0 0 0 0 0 0 0 0 false 0 .rx 30 = true ∧
    hypCanControllersSendReceiveAndConfineErrors ((((((State.reset).setFlag (Reg.CAN_CTRL 1) F.CAN_CTRL_EN true).setFlag (Reg.CAN_CTRL 1) F.CAN_CTRL_FD_EN true).wr (Reg.CAN_RAM_BASE 1) 0x01000000).setCanCtl 1 { CanCtl.reset with joined := true, refAt := some (0, 0) }).setFld (Reg.CAN_REF_CFG 1) F.CAN_REF_CFG_ROLE 1) 1 0 ⟨0x04840000, false, false, true, true, false, 9, [1, 2, 3, 4, 5, 6, 7, 8, 9, 10, 11, 12]⟩ 0 0 0 0 0 0 0 0 false 0 .rx 31 = true ∧
    hypCanControllersSendReceiveAndConfineErrors ((((State.reset).setFlag (Reg.CAN_CTRL 1) F.CAN_CTRL_EN true).setFlag (Reg.CAN_CTRL 1) F.CAN_CTRL_FD_EN true).wr (Reg.CAN_RAM_BASE 1) 0x01000000) 1 0 ⟨0x04840000, false, false, true, true, false, 9, [1, 2, 3, 4, 5, 6, 7, 8, 9, 10, 11, 12]⟩ 0 0 0 0 0 0 0 0 false 0 .rx 31 = true ∧
    hypCanControllersSendReceiveAndConfineErrors (((((State.reset).setFlag (Reg.CAN_CTRL 1) F.CAN_CTRL_EN true).setFlag (Reg.CAN_CTRL 1) F.CAN_CTRL_FD_EN true).wr (Reg.CAN_RAM_BASE 1) 0x01000000).setCanCtl 1 { CanCtl.reset with joined := true, recCnt := 125 }) 1 0 ⟨0x04840000, false, false, true, true, false, 9, [1, 2, 3, 4, 5, 6, 7, 8, 9, 10, 11, 12]⟩ 0 0 0 0 0 0 0 0 false 0 .rxDominant 32 = true ∧
    hypCanControllersSendReceiveAndConfineErrors (((((State.reset).setFlag (Reg.CAN_CTRL 1) F.CAN_CTRL_EN true).setFlag (Reg.CAN_CTRL 1) F.CAN_CTRL_FD_EN true).wr (Reg.CAN_RAM_BASE 1) 0x01000000).setCanCtl 1 { CanCtl.reset with joined := true, recCnt := 255 }) 1 0 ⟨0x04840000, false, false, true, true, false, 9, [1, 2, 3, 4, 5, 6, 7, 8, 9, 10, 11, 12]⟩ 0 0 0 0 0 0 0 0 false 0 .exempt 32 = true ∧
    hypCanControllersSendReceiveAndConfineErrors (((((State.reset).setFlag (Reg.CAN_CTRL 1) F.CAN_CTRL_EN true).setFlag (Reg.CAN_CTRL 1) F.CAN_CTRL_FD_EN true).wr (Reg.CAN_RAM_BASE 1) 0x01000000).setCanCtl 1 { CanCtl.reset with joined := true, recCnt := 255 }) 1 0 ⟨0x04840000, false, false, true, true, false, 9, [1, 2, 3, 4, 5, 6, 7, 8, 9, 10, 11, 12]⟩ 0 0 0 0 0 0 0 0 false 0 .rx 32 = true ∧
    hypCanControllersSendReceiveAndConfineErrors (((((State.reset).setFlag (Reg.CAN_CTRL 1) F.CAN_CTRL_EN true).setFlag (Reg.CAN_CTRL 1) F.CAN_CTRL_FD_EN true).wr (Reg.CAN_RAM_BASE 1) 0x01000000).setCanCtl 1 { CanCtl.reset with joined := true, tec := 120 }) 1 0 ⟨0x04840000, false, false, true, true, false, 9, [1, 2, 3, 4, 5, 6, 7, 8, 9, 10, 11, 12]⟩ 0 0 0 0 0 0 0 0 false 0 .tx 32 = true ∧
    hypCanControllersSendReceiveAndConfineErrors (((((State.reset).setFlag (Reg.CAN_CTRL 1) F.CAN_CTRL_EN true).setFlag (Reg.CAN_CTRL 1) F.CAN_CTRL_FD_EN true).wr (Reg.CAN_RAM_BASE 1) 0x01000000).setCanCtl 1 { CanCtl.reset with joined := true, tec := 248 }) 1 0 ⟨0x04840000, false, false, true, true, false, 9, [1, 2, 3, 4, 5, 6, 7, 8, 9, 10, 11, 12]⟩ 0 0 0 0 0 0 0 0 false 0 .tx 33 = true ∧
    hypCanControllersSendReceiveAndConfineErrors ((((((State.reset).setFlag (Reg.CAN_CTRL 1) F.CAN_CTRL_EN true).setFlag (Reg.CAN_CTRL 1) F.CAN_CTRL_FD_EN true).wr (Reg.CAN_RAM_BASE 1) 0x01000000).setCanCtl 1 { CanCtl.reset with joined := true, tec := 9 }).setFld (Reg.CAN_CTRL 1) F.CAN_CTRL_MODE 3) 1 0 ⟨0x04840000, false, false, true, true, false, 9, [1, 2, 3, 4, 5, 6, 7, 8, 9, 10, 11, 12]⟩ 0 0 0 0 0 0 0 0 false 0 .tx 34 = true := by
  and_intros <;> decide +kernel

/-- The hypotheses of SuppliesClocksAndResetsActByTheirSources, clause by clause. -/
def hypSuppliesClocksAndResetsActByTheirSources (s : State) (data : Word) (i : Fin 4) (r : Fin 4) (d : Fin 11) (c : Fin 12) (key : BitVec 16) (regs : BitVec 4) (mv : BitVec 12) (u : Nat) (m : Nat) (q : Fin 4) (clause : Nat) : Bool :=
  let pw := s.power
  let k := r.val
  let free := pw.supplyReset = false ∧ pw.pinLow = false ∧ pw.chipSafe = false
  let dom := 7 + i.val
  let bit := data.getLsbD i.val
  let others := ∀ y : Fin 4, y ≠ i → data.getLsbD y.val = s.domUp (7 + y.val)
  let busy := if i.val = 0 then s.flag Reg.ZW_CTRL F.ZW_CTRL_EN = true else if i.val = 1 then ((∃ e : Fin 4, s.flag (Reg.TW_CTRL e.val) F.TW_CTRL_RUN = true) ∨ s.fld Reg.SAL_CTRL F.SAL_CTRL_MODE ≠ 0) else if i.val = 2 then s.fld Reg.LOOM_RUN F.LOOM_RUN_VAL ≠ 0 else ((∃ e : Fin 8, s.flag (Reg.GP_CTRL e.val) F.GP_CTRL_EN = true) ∨ s.flag Reg.BB_CTRL F.BB_CTRL_EN = true)
  let held := s.regionHeld (if i.val = 0 ∨ i.val = 3 then 1 else 0) = true
  let acts := s.acts .power
  let fresh := fun (q : Nat) => s.inWindow q = false ∧ s.flag (Reg.ERR_REG_STATUS q) F.ERR_REG_STATUS_OPEN = false
  let calm := pw.chipSafe = false ∧ (∀ q : Fin 4, fresh q.val)
  let domRegs := fun (d : Nat) => if d = 0 ∨ d = 4 then [2] else if d = 5 then [3] else if d = 6 then [0, 3] else if d = 7 ∨ d = 10 then [1] else [0]
  let rowRegs := fun (c : Nat) => if c = 1 then [1, 3] else if c = 2 then [2] else if c = 4 ∨ c = 5 then [1] else [0]
  let rowDom := fun (c : Nat) => if c = 2 then 4 else if c = 3 then 8 else if c = 4 then 7 else if c = 5 then 10 else if c = 6 ∨ c = 7 then 6 else if c = 8 then 9 else 2
  let pll := c.val < 9 ∧ s.domUp (rowDom c.val) = true
  let src := fun (f : Nat) => bitOf (s.fld Reg.KS_CTRL F.KS_CTRL_TSRC_EN) (f - 2) = true ∧ s.domUp 3 = true
  let valid := pw.vin = true ∧ pw.vinOnAt = some u ∧ u + 160000000 ≤ s.now
  match clause with
  | 1 => decide ((pw.vin = true ∧ pw.hubReset = false))
  | 2 => decide ((pw.vin = false))
  | 3 => decide ((pw.vin = true))
  | 4 => decide ((pw.vin = false))
  | 5 => decide ((pw.vin = true))
  | 6 => decide ((valid ∧ pw.hubReset = true ∧ pw.pinLow = false ∧ pw.chipSafe = false))
  | 7 => decide ((valid ∧ pw.hubReset = true ∧ (pw.pinLow = true ∨ pw.chipSafe = true)))
  | 8 => decide ((pw.vinOnAt = none ∨ (pw.vinOnAt = some u ∧ s.now < u + 160000000)))
  | 9 => decide ((acts ∧ others ∧ bit = false ∧ s.domUp dom = true ∧ ¬busy ∧ ¬held))
  | 10 => decide ((acts ∧ others ∧ bit = false ∧ s.domUp dom = true ∧ (busy ∨ held)))
  | 11 => decide ((acts ∧ others ∧ bit = true ∧ s.domUp dom = false))
  | 12 => decide ((s.domUp d.val = false))
  | 13 => decide ((acts ∧ s.domUp d.val = true ∧ d.val ≠ 1 ∧ d.val ≠ 2 ∧ d.val ≠ 3 ∧ calm ∧ k ∈ domRegs d.val))
  | 14 => decide ((acts ∧ pw.chipSafe = false ∧ s.domUp 2 = true))
  | 15 => decide ((s.acts .selvedge))
  | 16 => decide ((src 2))
  | 17 => decide ((src 3))
  | 18 => decide ((acts ∧ pll ∧ c.val ≠ 0 ∧ calm ∧ k ∈ rowRegs c.val))
  | 19 => decide ((acts ∧ pw.chipSafe = false))
  | 20 => decide ((acts ∧ c.val < 9 ∧ s.domUp (rowDom c.val) = false))
  | 21 => decide ((acts))
  | 22 => decide ((pw.refclk = true ∧ pw.vin = true))
  | 23 => decide ((pw.refclk = false))
  | 24 => decide ((pw.refclk = true))
  | 25 => decide ((acts ∧ pw.rtcMissing = false))
  | 26 => decide ((pw.pinLow = false ∧ pw.hubReset = false ∧ s.domUp 2 = true))
  | 27 => decide ((pw.pinLow = true))
  | 28 => decide ((pw.pinLow = true ∧ pw.hubReset = true ∧ pw.supplyReset = false ∧ pw.chipSafe = false))
  | 29 => decide ((pw.pinLow = true ∧ pw.hubReset = true ∧ (pw.supplyReset = true ∨ pw.chipSafe = true)))
  | 30 => decide ((acts ∧ key = 0xA55A ∧ free))
  | 31 => decide ((s.acts .debug ∧ free ∧ pw.hubReset = false))
  | 32 => decide ((key ≠ 0xA55A))
  | 33 => decide ((acts ∧ key = 0xA55A ∧ bitOf regs.toNat k = true ∧ (s.regRec k).inReset = false))
  | 34 => decide ((acts ∧ pw.vin = true ∧ mv.toNat < 2500))
  | 35 => decide ((acts ∧ pw.vin = true ∧ 2500 ≤ mv.toNat))
  | 36 => decide ((acts ∧ pw.vin = true ∧ 2550 ≤ mv.toNat ∧ 1000 ≤ m))
  | _ => decide ((mv.toNat < 2550 ∨ m < 1000))
theorem test_meets_SuppliesClocksAndResetsActByTheirSources :
    hypSuppliesClocksAndResetsActByTheirSources ((State.reset).setPower { Power.reset with coincide := [4], chipSafe := true }) 0 0 0 0 0 0 0 0 0 0 0 1 = true ∧
    hypSuppliesClocksAndResetsActByTheirSources State.reset 0 0 0 0 0 0 0 0 0 0 0 1 = true ∧
    hypSuppliesClocksAndResetsActByTheirSources ((State.reset).setPower { Power.reset with vin := false }) 0 0 0 0 0 0 0 0 0 0 0 2 = true ∧
    hypSuppliesClocksAndResetsActByTheirSources (((State.reset).setFld Reg.PWR_STATUS F.PWR_STATUS_UP 0x7FF).setPower { Power.reset with rtcMissing := true }) 0 0 0 0 0 0 0 0 0 0 0 3 = true ∧
    hypSuppliesClocksAndResetsActByTheirSources (((State.reset).setFld Reg.PWR_STATUS F.PWR_STATUS_UP 1).setPower { Power.reset with vin := false }) 0 0 0 0 0 0 0 0 0 0 0 4 = true ∧
    hypSuppliesClocksAndResetsActByTheirSources ((State.reset).setPower { Power.reset with hubReset := true, supplyReset := true, vinOnAt := some 0, coincide := [2] }) 0 0 0 0 0 0 0 0 0 0 0 5 = true ∧
    hypSuppliesClocksAndResetsActByTheirSources (((State.reset).setPower { Power.reset with hubReset := true, supplyReset := true, vinOnAt := some 0, coincide := [2] }).setNow 160000000) 0 0 0 0 0 0 0 0 0 0 0 6 = true ∧
    hypSuppliesClocksAndResetsActByTheirSources (((State.reset).setPower { Power.reset with hubReset := true, supplyReset := true, pinLow := true, vinOnAt := some 0 }).setNow 160000000) 0 0 0 0 0 0 0 0 0 0 0 7 = true ∧
    hypSuppliesClocksAndResetsActByTheirSources ((State.reset).setPower { Power.reset with hubReset := true, supplyReset := true, vinOnAt := some 0, coincide := [2] }) 0 0 0 0 0 0 0 0 0 0 0 8 = true ∧
    hypSuppliesClocksAndResetsActByTheirSources State.reset 11 2 0 0 0 0 0 0 0 0 0 9 = true ∧
    hypSuppliesClocksAndResetsActByTheirSources State.reset 13 1 0 0 0 0 0 0 0 0 0 9 = true ∧
    hypSuppliesClocksAndResetsActByTheirSources State.reset 14 0 0 0 0 0 0 0 0 0 0 9 = true ∧
    hypSuppliesClocksAndResetsActByTheirSources State.reset 7 3 0 0 0 0 0 0 0 0 0 9 = true ∧
    hypSuppliesClocksAndResetsActByTheirSources ((State.reset).setFlag (Reg.TW_CTRL 3) F.TW_CTRL_RUN true) 13 1 0 0 0 0 0 0 0 0 0 10 = true ∧
    hypSuppliesClocksAndResetsActByTheirSources ((State.reset).setFlag Reg.BB_CTRL F.BB_CTRL_EN true) 7 3 0 0 0 0 0 0 0 0 0 10 = true ∧
    hypSuppliesClocksAndResetsActByTheirSources ((State.reset).setFlag Reg.ZW_CTRL F.ZW_CTRL_EN true) 14 0 0 0 0 0 0 0 0 0 0 10 = true ∧
    hypSuppliesClocksAndResetsActByTheirSources ((State.reset).setRegRec 0 { RegRec.reset with inReset := true }) 11 2 0 0 0 0 0 0 0 0 0 10 = true ∧
    hypSuppliesClocksAndResetsActByTheirSources ((State.reset).setDom 8 false) 15 1 0 0 0 0 0 0 0 0 0 11 = true ∧
    hypSuppliesClocksAndResetsActByTheirSources ((State.reset).setFld Reg.PWR_STATUS F.PWR_STATUS_UP 1) 0 0 0 4 0 0 0 0 0 0 0 12 = true ∧
    hypSuppliesClocksAndResetsActByTheirSources State.reset 0 0 0 9 0 0 0 0 0 0 0 13 = true ∧
    hypSuppliesClocksAndResetsActByTheirSources State.reset 0 0 2 4 0 0 0 0 0 0 0 13 = true ∧
    hypSuppliesClocksAndResetsActByTheirSources State.reset 0 0 3 6 0 0 0 0 0 0 0 13 = true ∧
    hypSuppliesClocksAndResetsActByTheirSources State.reset 0 0 0 0 0 0 0 0 0 0 0 14 = true ∧
    hypSuppliesClocksAndResetsActByTheirSources State.reset 0 0 0 0 0 0 0 0 0 0 0 15 = true ∧
    hypSuppliesClocksAndResetsActByTheirSources (((State.reset).setFld Reg.KS_CTRL F.KS_CTRL_TSRC_EN 3).setKs { KeyStore.reset with root := some ⟨0, 0, 0, [], []⟩ }) 0 0 0 0 0 0 0 0 0 0 0 16 = true ∧
    hypSuppliesClocksAndResetsActByTheirSources (((State.reset).setFld Reg.KS_CTRL F.KS_CTRL_TSRC_EN 3).setKs { KeyStore.reset with root := some ⟨0, 0, 0, [], []⟩ }) 0 0 0 0 0 0 0 0 0 0 0 17 = true ∧
    hypSuppliesClocksAndResetsActByTheirSources State.reset 0 0 0 0 8 0 0 0 0 0 0 18 = true ∧
    hypSuppliesClocksAndResetsActByTheirSources State.reset 0 0 1 0 5 0 0 0 0 0 0 18 = true ∧
    hypSuppliesClocksAndResetsActByTheirSources State.reset 0 0 3 0 1 0 0 0 0 0 0 18 = true ∧
    hypSuppliesClocksAndResetsActByTheirSources State.reset 0 0 0 0 0 0 0 0 0 0 0 19 = true ∧
    hypSuppliesClocksAndResetsActByTheirSources ((State.reset).setDom 8 false) 0 0 0 0 3 0 0 0 0 0 0 20 = true ∧
    hypSuppliesClocksAndResetsActByTheirSources State.reset 0 0 0 0 0 0 0 0 0 0 0 21 = true ∧
    hypSuppliesClocksAndResetsActByTheirSources ((State.reset).setFld (Reg.TB_STATE 2) F.TB_STATE_ST 2) 0 0 0 0 0 0 0 0 0 0 2 22 = true ∧
    hypSuppliesClocksAndResetsActByTheirSources (((State.reset).setPower { Power.reset with refclk := false }).setFlag Reg.CLK_STATUS F.CLK_STATUS_BKOSC true) 0 0 0 0 0 0 0 0 0 0 0 23 = true ∧
    hypSuppliesClocksAndResetsActByTheirSources State.reset 0 0 0 0 0 0 0 0 0 0 0 24 = true ∧
    hypSuppliesClocksAndResetsActByTheirSources State.reset 0 0 0 0 0 0 0 0 0 0 0 25 = true ∧
    hypSuppliesClocksAndResetsActByTheirSources ((State.reset).setPower { Power.reset with coincide := [4], chipSafe := true }) 0 0 0 0 0 0 0 0 0 0 0 26 = true ∧
    hypSuppliesClocksAndResetsActByTheirSources State.reset 0 0 0 0 0 0 0 0 0 0 0 26 = true ∧
    hypSuppliesClocksAndResetsActByTheirSources ((State.reset).setPower { Power.reset with pinLow := true }) 0 0 0 0 0 0 0 0 0 0 0 27 = true ∧
    hypSuppliesClocksAndResetsActByTheirSources ((State.reset).setPower { Power.reset with pinLow := true, hubReset := true, coincide := [3] }) 0 0 0 0 0 0 0 0 0 0 0 28 = true ∧
    hypSuppliesClocksAndResetsActByTheirSources ((State.reset).setPower { Power.reset with pinLow := true, hubReset := true, supplyReset := true }) 0 0 0 0 0 0 0 0 0 0 0 29 = true ∧
    hypSuppliesClocksAndResetsActByTheirSources State.reset 0 0 0 0 0 0xA55A 0 0 0 0 0 30 = true ∧
    hypSuppliesClocksAndResetsActByTheirSources State.reset 0 0 0 0 0 0 0 0 0 0 0 31 = true ∧
    hypSuppliesClocksAndResetsActByTheirSources State.reset 0 0 0 0 0 0xA55B 0 0 0 0 0 32 = true ∧
    hypSuppliesClocksAndResetsActByTheirSources State.reset 0 0 0 0 0 0xA55A 15 0 0 0 0 33 = true ∧
    hypSuppliesClocksAndResetsActByTheirSources State.reset 0 0 1 0 0 0xA55A 15 0 0 0 0 33 = true ∧
    hypSuppliesClocksAndResetsActByTheirSources State.reset 0 0 2 0 0 0xA55A 15 0 0 0 0 33 = true ∧
    hypSuppliesClocksAndResetsActByTheirSources State.reset 0 0 3 0 0 0xA55A 15 0 0 0 0 33 = true ∧
    hypSuppliesClocksAndResetsActByTheirSources State.reset 0 0 0 0 0 0 0 2499 0 0 0 34 = true ∧
    hypSuppliesClocksAndResetsActByTheirSources State.reset 0 0 0 0 0 0 0 2500 0 0 0 35 = true ∧
    hypSuppliesClocksAndResetsActByTheirSources ((State.reset).setFlag Reg.SUP_VBAT F.SUP_VBAT_VBAT_LOW true) 0 0 0 0 0 0 0 2550 0 1000 0 36 = true ∧
    hypSuppliesClocksAndResetsActByTheirSources State.reset 0 0 0 0 0 0 0 2549 0 1000 0 37 = true ∧
    hypSuppliesClocksAndResetsActByTheirSources State.reset 0 0 0 0 0 0 0 2600 0 999 0 37 = true := by
  and_intros <;> decide +kernel

/-- The hypotheses of StartUpLoadsABankOrTalksOnThePort, clause by clause. -/
def hypStartUpLoadsABankOrTalksOnThePort (s : State) (fail : BitVec 12) (b : Fin 2) (a : Nat) (slot : Byte) (bank : Byte) (bytes : List Byte) (off : Word) (clause : Nat) : Bool :=
  let acts := s.acts .selfTest
  let st := fun (t : State) (f : Fld) => t.fld Reg.ST_STATUS f
  let phase := fun (t : State) => st t F.ST_STATUS_PHASE
  let cand := fun (y : Nat) => s.num (flashBase y) 4 = 0x315A4C4B ∧ s.num (flashBase y + 4) 2 = 1
  let seqOf := fun (y : Nat) => if cand y then s.num (flashBase y + 0x24) 4 else 0
  let k := b.val
  let o := 1 - k
  let first := cand k ∧ (if s.flag Reg.ST_TRY F.ST_TRY_EN = true then (s.fld Reg.ST_TRY F.ST_TRY_BANK = k ∨ ¬cand o) else (¬cand o ∨ seqOf o < seqOf k ∨ (seqOf o = seqOf k ∧ k = 0)))
  let boot := s.startup
  let inStart := acts ∧ (phase s = 2 ∨ phase s = 4) ∧ boot.bank = none
  let result := fun (t : State) (y : Nat) => st t (if y = 0 then F.ST_STATUS_BANK_A else F.ST_STATUS_BANK_B)
  let port := s.up 0x25 = true ∧ s.up 0x08 = true ∧ phase s = 4
  let auth := port ∧ s.flag Reg.ST_MGMT F.ST_MGMT_AUTH = true ∧ s.reached boot.authUntil = false
  let locked := port ∧ s.flag Reg.ST_MGMT F.ST_MGMT_AUTH = false
  let free := bank.toNat < 2 ∧ boot.bank ≠ some bank.toNat
  let fits := off.toNat % 4 = 0 ∧ bytes.length ≤ 1024 ∧ off.toNat + bytes.length ≤ flashSize
  let goes := s.power.hubReset = false ∧ s.power.supplyReset = false ∧ s.power.pinLow = false ∧ s.power.chipSafe = false
  match clause with
  | 1 => decide ((acts ∧ phase s = 1))
  | 2 => decide ((acts ∧ phase s = 1 ∧ ((fail.getLsbD 1 = false ∧ sramBase ≤ a ∧ a < sramBase + sramSize) ∨ (fail.getLsbD 2 = false ∧ tcmWindow 0 ≤ a ∧ a < tcmWindow 8))))
  | 3 => decide ((acts ∧ phase s = 1 ∧ fail.getLsbD 8 = true ∧ s.domUp 1 = true))
  | 4 => decide ((acts ∧ phase s ≠ 1))
  | 5 => decide ((inStart ∧ boot.tried = [] ∧ first))
  | 6 => decide ((inStart ∧ phase s = 2 ∧ boot.tried = [] ∧ ¬cand 0 ∧ ¬cand 1))
  | 7 => decide ((inStart ∧ boot.tried = [o] ∧ result s o = 2 ∧ cand k))
  | 8 => decide (((phase s ≠ 2 ∧ phase s ≠ 4) ∨ boot.bank ≠ none))
  | 9 => decide ((acts ∧ phase s = 2 ∧ boot.bank ≠ none))
  | 10 => decide ((phase s ≠ 2 ∨ boot.bank = none))
  | 11 => decide ((acts ∧ boot.bank ≠ none))
  | 12 => decide ((port))
  | 13 => decide ((¬port))
  | 14 => decide ((port ∧ s.up 0x12 = true))
  | 15 => decide ((port))
  | 16 => decide ((port ∧ (boot.nonce = none ∨ 4 ≤ slot.toNat)))
  | 17 => decide ((s.reached boot.authUntil = true))
  | 18 => decide ((s.reached boot.authUntil = false))
  | 19 => decide ((auth ∧ free))
  | 20 => decide ((auth ∧ ¬free))
  | 21 => decide ((auth ∧ free ∧ fits))
  | 22 => decide ((auth ∧ ¬(free ∧ fits)))
  | 23 => decide ((locked))
  | _ => decide ((auth ∧ goes))
theorem test_meets_StartUpLoadsABankOrTalksOnThePort :
    hypStartUpLoadsABankOrTalksOnThePort (((State.reset).setFld Reg.ST_STATUS F.ST_STATUS_PHASE 1).putBytes (flashBase 0) ([0x4B, 0x4C, 0x5A, 0x31, 1, 0, 4, 1] ++ List.replicate 28 0 ++ leBytes 4 7)) 0 0 0 0 0 [] 0 1 = true ∧
    hypStartUpLoadsABankOrTalksOnThePort (((State.reset).setFld Reg.ST_STATUS F.ST_STATUS_PHASE 1).setFld Reg.RST_LAST F.RST_LAST_CODE 4) 0x400 0 0 0 0 [] 0 1 = true ∧
    hypStartUpLoadsABankOrTalksOnThePort ((State.reset).setFld Reg.ST_STATUS F.ST_STATUS_PHASE 1) 0x204 0 0 0 0 [] 0 1 = true ∧
    hypStartUpLoadsABankOrTalksOnThePort (((State.reset).setFld Reg.ST_STATUS F.ST_STATUS_PHASE 1).putBytes 0x01000007 [9]) 0 0 0x01000007 0 0 [] 0 2 = true ∧
    hypStartUpLoadsABankOrTalksOnThePort (((State.reset).setFld Reg.ST_STATUS F.ST_STATUS_PHASE 1).putBytes 0x51000007 [9]) 2 0 0x51000007 0 0 [] 0 2 = true ∧
    hypStartUpLoadsABankOrTalksOnThePort ((State.reset).setFld Reg.ST_STATUS F.ST_STATUS_PHASE 1) 0x100 0 0 0 0 [] 0 3 = true ∧
    hypStartUpLoadsABankOrTalksOnThePort ((State.reset).setFld Reg.ST_STATUS F.ST_STATUS_PHASE 3) 1 0 0 0 0 [] 0 4 = true ∧
    hypStartUpLoadsABankOrTalksOnThePort (((((State.reset).setFld Reg.ST_STATUS F.ST_STATUS_PHASE 2).putBytes (flashBase 0) ([0x4B, 0x4C, 0x5A, 0x31, 1, 0, 4, 1] ++ List.replicate 28 0 ++ leBytes 4 7)).putBytes (flashBase 1) ([0x4B, 0x4C, 0x5A, 0x31, 1, 0, 4, 1] ++ List.replicate 28 0 ++ leBytes 4 8)).setFlag Reg.ST_TRY F.ST_TRY_EN true) 0 0 0 0 0 [] 0 5 = true ∧
    hypStartUpLoadsABankOrTalksOnThePort ((((State.reset).setFld Reg.ST_STATUS F.ST_STATUS_PHASE 2).putBytes (flashBase 0) ([0x4B, 0x4C, 0x5A, 0x31, 1, 0, 4, 1] ++ List.replicate 28 0 ++ leBytes 4 7)).putBytes (flashBase 1) ([0x4B, 0x4C, 0x5A, 0x31, 1, 0, 4, 1] ++ List.replicate 28 0 ++ leBytes 4 8)) 0 1 0 0 0 [] 0 5 = true ∧
    hypStartUpLoadsABankOrTalksOnThePort (((State.reset).setFld Reg.ST_STATUS F.ST_STATUS_PHASE 2).putBytes (flashBase 0) ([0x4B, 0x4C, 0x5A, 0x31, 1, 0, 4, 1] ++ List.replicate 28 0 ++ leBytes 4 7)) 0 0 0 0 0 [] 0 5 = true ∧
    hypStartUpLoadsABankOrTalksOnThePort (((State.reset).setFld Reg.ST_STATUS F.ST_STATUS_PHASE 4).putBytes (flashBase 1) ([0x4B, 0x4C, 0x5A, 0x31, 1, 0, 4, 1] ++ List.replicate 28 0 ++ leBytes 4 7)) 0 1 0 0 0 [] 0 5 = true ∧
    hypStartUpLoadsABankOrTalksOnThePort ((State.reset).setFld Reg.ST_STATUS F.ST_STATUS_PHASE 2) 0 0 0 0 0 [] 0 6 = true ∧
    hypStartUpLoadsABankOrTalksOnThePort ((((((State.reset).setFld Reg.ST_STATUS F.ST_STATUS_PHASE 2).putBytes (flashBase 0) ([0x4B, 0x4C, 0x5A, 0x31, 1, 0, 4, 1] ++ List.replicate 28 0 ++ leBytes 4 7)).putBytes (flashBase 1) ([0x4B, 0x4C, 0x5A, 0x31, 1, 0, 4, 1] ++ List.replicate 28 0 ++ leBytes 4 8)).setFld Reg.ST_STATUS F.ST_STATUS_BANK_B 2).setStartup { Startup.reset with tried := [1] }) 0 0 0 0 0 [] 0 7 = true ∧
    hypStartUpLoadsABankOrTalksOnThePort ((State.reset).setFld Reg.ST_STATUS F.ST_STATUS_PHASE 3) 0 0 0 0 0 [] 0 8 = true ∧
    hypStartUpLoadsABankOrTalksOnThePort ((((State.reset).setFld Reg.ST_STATUS F.ST_STATUS_PHASE 2).setStartup { Startup.reset with bank := some 0, toStart := [5], validAt := some 0 }).setNow 6400000001) 0 0 0 0 0 [] 0 9 = true ∧
    hypStartUpLoadsABankOrTalksOnThePort (((State.reset).setFld Reg.ST_STATUS F.ST_STATUS_PHASE 2).setStartup { Startup.reset with bank := some 0, toStart := [5], validAt := some 0 }) 0 0 0 0 0 [] 0 9 = true ∧
    hypStartUpLoadsABankOrTalksOnThePort ((State.reset).setFld Reg.ST_STATUS F.ST_STATUS_PHASE 2) 0 0 0 0 0 [] 0 10 = true ∧
    hypStartUpLoadsABankOrTalksOnThePort (((State.reset).setFld Reg.ST_RB F.ST_RB_COUNT 9).setStartup { Startup.reset with bank := some 0, lowRollback := 4 }) 0 0 0 0 0 [] 0 11 = true ∧
    hypStartUpLoadsABankOrTalksOnThePort ((State.reset).setStartup { Startup.reset with bank := some 0, lowRollback := 200 }) 0 0 0 0 0 [] 0 11 = true ∧
    hypStartUpLoadsABankOrTalksOnThePort ((State.reset).setFld Reg.ST_STATUS F.ST_STATUS_PHASE 4) 0 0 0 0 0 [] 0 12 = true ∧
    hypStartUpLoadsABankOrTalksOnThePort ((State.reset).setFld Reg.ST_STATUS F.ST_STATUS_PHASE 3) 0 0 0 0 0 [] 0 13 = true ∧
    hypStartUpLoadsABankOrTalksOnThePort (((State.reset).setFld Reg.ST_STATUS F.ST_STATUS_PHASE 4).putBytes (mramBase + 0x300020) [1, 2, 3]) 0 0 0 0 0 [] 0 14 = true ∧
    hypStartUpLoadsABankOrTalksOnThePort ((State.reset).setFld Reg.ST_STATUS F.ST_STATUS_PHASE 4) 0 0 0 0 0 [] 0 14 = true ∧
    hypStartUpLoadsABankOrTalksOnThePort ((((State.reset).setFld Reg.ST_STATUS F.ST_STATUS_PHASE 4).setStartup { Startup.reset with nonce := some [1, 2] }).setKs { KeyStore.reset with slot := [(2, some (⟨0x22, 0xFF, 0, [], []⟩))] }) 0 0 0 2 0 [] 0 15 = true ∧
    hypStartUpLoadsABankOrTalksOnThePort ((State.reset).setFld Reg.ST_STATUS F.ST_STATUS_PHASE 4) 0 0 0 2 0 [] 0 15 = true ∧
    hypStartUpLoadsABankOrTalksOnThePort ((State.reset).setFld Reg.ST_STATUS F.ST_STATUS_PHASE 4) 0 0 0 0 0 [] 0 16 = true ∧
    hypStartUpLoadsABankOrTalksOnThePort ((((State.reset).setFlag Reg.ST_MGMT F.ST_MGMT_AUTH true).setStartup { Startup.reset with authUntil := some 5 }).setNow 5) 0 0 0 0 0 [] 0 17 = true ∧
    hypStartUpLoadsABankOrTalksOnThePort (((State.reset).setFlag Reg.ST_MGMT F.ST_MGMT_AUTH true).setStartup { Startup.reset with authUntil := some 5 }) 0 0 0 0 0 [] 0 18 = true ∧
    hypStartUpLoadsABankOrTalksOnThePort (((((State.reset).setFld Reg.ST_STATUS F.ST_STATUS_PHASE 4).setFlag Reg.ST_MGMT F.ST_MGMT_AUTH true).setStartup { Startup.reset with authUntil := some 5 }).putBytes (flashBase 1) ([0x4B, 0x4C, 0x5A, 0x31, 1, 0, 4, 1] ++ List.replicate 28 0 ++ leBytes 4 7)) 0 0 0x0A000000 0 1 [] 0 19 = true ∧
    hypStartUpLoadsABankOrTalksOnThePort ((((State.reset).setFld Reg.ST_STATUS F.ST_STATUS_PHASE 4).setFlag Reg.ST_MGMT F.ST_MGMT_AUTH true).setStartup { Startup.reset with authUntil := some 5 }) 0 0 0 0 2 [] 0 20 = true ∧
    hypStartUpLoadsABankOrTalksOnThePort ((((State.reset).setFld Reg.ST_STATUS F.ST_STATUS_PHASE 4).setFlag Reg.ST_MGMT F.ST_MGMT_AUTH true).setStartup { Startup.reset with authUntil := some 5, bank := some 0 }) 0 0 0 0 0 [] 0 20 = true ∧
    hypStartUpLoadsABankOrTalksOnThePort ((((State.reset).setFld Reg.ST_STATUS F.ST_STATUS_PHASE 4).setFlag Reg.ST_MGMT F.ST_MGMT_AUTH true).setStartup { Startup.reset with authUntil := some 5 }) 0 0 0 0 1 [1, 2, 3, 4] 0x1FFFFFC 21 = true ∧
    hypStartUpLoadsABankOrTalksOnThePort ((((State.reset).setFld Reg.ST_STATUS F.ST_STATUS_PHASE 4).setFlag Reg.ST_MGMT F.ST_MGMT_AUTH true).setStartup { Startup.reset with authUntil := some 5 }) 0 0 0 0 1 [1, 2, 3, 4, 5] 0x1FFFFFC 22 = true ∧
    hypStartUpLoadsABankOrTalksOnThePort ((((State.reset).setFld Reg.ST_STATUS F.ST_STATUS_PHASE 4).setFlag Reg.ST_MGMT F.ST_MGMT_AUTH true).setStartup { Startup.reset with authUntil := some 5 }) 0 0 0 0 1 [1] 2 22 = true ∧
    hypStartUpLoadsABankOrTalksOnThePort ((State.reset).setFld Reg.ST_STATUS F.ST_STATUS_PHASE 4) 0 0 0 0 0 [1] 0 23 = true ∧
    hypStartUpLoadsABankOrTalksOnThePort ((((State.reset).setFld Reg.ST_STATUS F.ST_STATUS_PHASE 4).setFlag Reg.ST_MGMT F.ST_MGMT_AUTH true).setStartup { Startup.reset with authUntil := some 5 }) 0 0 0 0 0 [] 0 24 = true := by
  and_intros <;> decide +kernel

end Sys2Proof.Tests
end

section
/-!
PROOFS. The canonical form: it holds at reset, and every step keeps it.
-/
set_option Elab.async false
namespace Sys2Proof.Machine

/-- Each command moves no part of the state but those of `partsOf`; with this come the messages, the free values and the
canonical form, as `Moves` says of them. -/
theorem exec_moves (i : Instr) (s : State) : Goes (partsOf i) s (exec i s) :=
  match i with
  | .registerWrite slot addr data size => execRegisterWrite_moves slot addr data size s
  | .transactionTimeout k => execTransactionTimeout_moves k s
  | .arbitrationPromotion k => execArbitrationPromotion_moves k s
  | .noteLimitExceeded blk => execNoteLimitExceeded_moves blk s
  | .blockTimerExpiry blk => execBlockTimerExpiry_moves blk s
  | .regionResetComplete r => execRegionResetComplete_moves r s
  | .regionTimerExpiry r => execRegionTimerExpiry_moves r s
  | .chipTimerExpiry => execChipTimerExpiry_moves s
  | .bridgeHandshakeStall r => execBridgeHandshakeStall_moves r s
  | .ladderCopyFault bridge n => execLadderCopyFault_moves bridge n s
  | .errAck blk => execErrAck_moves blk s
  | .regionUp r => execRegionUp_moves r s
  | .errRecordClear rec => execErrRecordClear_moves rec s
  | .errLock => execErrLock_moves s
  | .add c d a b => execAdd_moves c d a b s
  | .sub c d a b => execSub_moves c d a b s
  | .and c d a b => execAnd_moves c d a b s
  | .or c d a b => execOr_moves c d a b s
  | .xor c d a b => execXor_moves c d a b s
  | .sll c d a b => execSll_moves c d a b s
  | .srl c d a b => execSrl_moves c d a b s
  | .sra c d a b => execSra_moves c d a b s
  | .slli c d a k => execSlli_moves c d a k s
  | .srli c d a k => execSrli_moves c d a k s
  | .srai c d a k => execSrai_moves c d a k s
  | .slt c d a b => execSlt_moves c d a b s
  | .sltu c d a b => execSltu_moves c d a b s
  | .min c d a b => execMin_moves c d a b s
  | .max c d a b => execMax_moves c d a b s
  | .div c d a b => execDiv_moves c d a b s
  | .divu c d a b => execDivu_moves c d a b s
  | .addi c d a imm => execAddi_moves c d a imm s
  | .andi c d a imm => execAndi_moves c d a imm s
  | .ori c d a imm => execOri_moves c d a imm s
  | .xori c d a imm => execXori_moves c d a imm s
  | .slti c d a imm => execSlti_moves c d a imm s
  | .lhi c d imm => execLhi_moves c d imm s
  | .lw c d a imm => execLw_moves c d a imm s
  | .lh c d a imm => execLh_moves c d a imm s
  | .lhu c d a imm => execLhu_moves c d a imm s
  | .lb c d a imm => execLb_moves c d a imm s
  | .lbu c d a imm => execLbu_moves c d a imm s
  | .sw c d a imm => execSw_moves c d a imm s
  | .sh c d a imm => execSh_moves c d a imm s
  | .sb c d a imm => execSb_moves c d a imm s
  | .beq c a b off => execBeq_moves c a b off s
  | .bne c a b off => execBne_moves c a b off s
  | .blt c a b off => execBlt_moves c a b off s
  | .bge c a b off => execBge_moves c a b off s
  | .bltu c a b off => execBltu_moves c a b off s
  | .bgeu c a b off => execBgeu_moves c a b off s
  | .j c off => execJ_moves c off s
  | .jal c d off => execJal_moves c d off s
  | .jalr c d a imm => execJalr_moves c d a imm s
  | .bfx c d a p n => execBfx_moves c d a p n s
  | .bfxu c d a p n => execBfxu_moves c d a p n s
  | .bfi c d a p n => execBfi_moves c d a p n s
  | .bfc c d a p n => execBfc_moves c d a p n s
  | .clz c d a => execClz_moves c d a s
  | .ctz c d a => execCtz_moves c d a s
  | .popc c d a => execPopc_moves c d a s
  | .rev c d a => execRev_moves c d a s
  | .adds c d a b => execAdds_moves c d a b s
  | .subs c d a b => execSubs_moves c d a b s
  | .addus c d a b => execAddus_moves c d a b s
  | .negs c d a => execNegs_moves c d a s
  | .abss c d a => execAbss_moves c d a s
  | .sats c d a k => execSats_moves c d a k s
  | .satu c d a k => execSatu_moves c d a k s
  | .shls c d a b => execShls_moves c d a b s
  | .mul c d a b => execMul_moves c d a b s
  | .mulh c d a b => execMulh_moves c d a b s
  | .fmul c d a b sh rn => execFmul_moves c d a b sh rn s
  | .mac c a b sh rn => execMac_moves c a b sh rn s
  | .msu c a b sh rn => execMsu_moves c a b sh rn s
  | .macz c a b sh rn => execMacz_moves c a b sh rn s
  | .rdacc c d sh rn => execRdacc_moves c d sh rn s
  | .mtacc c a b => execMtacc_moves c a b s
  | .mfacch c d => execMfacch_moves c d s
  | .mfaccl c d => execMfaccl_moves c d s
  | .wait c d a b => execWait_moves c d a b s
  | .waitTimeout c => execWaitTimeout_moves c s
  | .tcmp c dis tb a b => execTcmp_moves c dis tb a b s
  | .timerCompareMatch c => execTimerCompareMatch_moves c s
  | .trd c d tb part => execTrd_moves c d tb part s
  | .msend c d a mb => execMsend_moves c d a mb s
  | .mrecv c d e mb => execMrecv_moves c d e mb s
  | .aadd c d a b => execAadd_moves c d a b s
  | .acas c d a b => execAcas_moves c d a b s
  | .csrr c d n => execCsrr_moves c d n s
  | .csrw c d a n => execCsrw_moves c d a n s
  | .csrs c d a n => execCsrs_moves c d a n s
  | .csrc c d a n => execCsrc_moves c d a n s
  | .scall c d a f => execScall_moves c d a f s
  | .illegalInstruction c w => execIllegalInstruction_moves c w s
  | .bar c => execBar_moves c s
  | .trap c imm => execTrap_moves c imm s
  | .brk c => execBrk_moves c s
  | .eret c => execEret_moves c s
  | .fabricResponse k => execFabricResponse_moves k s
  | .busStoreError k => execBusStoreError_moves k s
  | .ctxStart ws k => execCtxStart_moves ws k s
  | .ctxRestart ws k => execCtxRestart_moves ws k s
  | .ctxWatchdogExpiry c => execCtxWatchdogExpiry_moves c s
  | .ctxHalt ws k => execCtxHalt_moves ws k s
  | .ctxResume ws k => execCtxResume_moves ws k s
  | .debugClaim ws => execDebugClaim_moves ws s
  | .debugRelease ws => execDebugRelease_moves ws s
  | .eventPending c n => execEventPending_moves c n s
  | .mailboxDelivery m => execMailboxDelivery_moves m s
  | .mailboxConfig m data => execMailboxConfig_moves m data s
  | .eccWriteback addr => execEccWriteback_moves addr s
  | .tcmWindowAccess slot addr data write size => execTcmWindowAccess_moves slot addr data write size s
  | .loomRun data => execLoomRun_moves data s
  | .loomBoundary n => execLoomBoundary_moves n s
  | .loomMidpoint n => execLoomMidpoint_moves n s
  | .loomRefEdge n => execLoomRefEdge_moves n s
  | .loomDeadTimeEnd n => execLoomDeadTimeEnd_moves n s
  | .loomTrigger n k => execLoomTrigger_moves n k s
  | .loomTripSource k level => execLoomTripSource_moves k level s
  | .loomBlankEnd n => execLoomBlankEnd_moves n s
  | .loomClrTrip n => execLoomClrTrip_moves n s
  | .loomClrDrop n => execLoomClrDrop_moves n s
  | .loomSourceStuck k => execLoomSourceStuck_moves k s
  | .loomStuckClear k => execLoomStuckClear_moves k s
  | .loomStaleTrip n => execLoomStaleTrip_moves n s
  | .loomGupdArm mask => execLoomGupdArm_moves mask s
  | .loomLock => execLoomLock_moves s
  | .loomClockLoss => execLoomClockLoss_moves s
  | .loomReadbackFault n => execLoomReadbackFault_moves n s
  | .loomConfigEcc n double => execLoomConfigEcc_moves n double s
  | .loomRecalibrate => execLoomRecalibrate_moves s
  | .twOverrunLimit e sl => execTwOverrunLimit_moves e sl s
  | .twSlotStart e => execTwSlotStart_moves e s
  | .twNop e w => execTwNop_moves e w s
  | .twEnd e => execTwEnd_moves e s
  | .lda e d x => execLda_moves e d x s
  | .sta e x sa => execSta_moves e x sa s
  | .mulc e d x k => execMulc_moves e d x k s
  | .macc e d x k => execMacc_moves e d x k s
  | .msuc e d x k => execMsuc_moves e d x k s
  | .mula e d sa k => execMula_moves e d sa k s
  | .maca e d sa k => execMaca_moves e d sa k s
  | .msua e d sa k => execMsua_moves e d sa k s
  | .adda e d sa ta => execAdda_moves e d sa ta s
  | .suba e d sa ta => execSuba_moves e d sa ta s
  | .mova e d sa => execMova_moves e d sa s
  | .nega e d sa => execNega_moves e d sa s
  | .absa e d sa => execAbsa_moves e d sa s
  | .mina e d sa ta => execMina_moves e d sa ta s
  | .maxa e d sa ta => execMaxa_moves e d sa ta s
  | .clmp e d sa ta => execClmp_moves e d sa ta s
  | .sha e d sa k => execSha_moves e d sa k s
  | .diva e d sa x => execDiva_moves e d sa x s
  | .minsel e d b n tm x k => execMinsel_moves e d b n tm x k s
  | .ffl e d x k => execFfl_moves e d x k s
  | .ffa e d x k => execFfa_moves e d x k s
  | .ramp e d k => execRamp_moves e d k s
  | .twOut e sa ch sel => execTwOut_moves e sa ch sel s
  | .twArm e mask => execTwArm_moves e mask s
  | .evt e mask => execEvt_moves e mask s
  | .br e cond sa ta tgt => execBr_moves e cond sa ta tgt s
  | .waitin e x => execWaitin_moves e x s
  | .twBudgetExpiry e => execTwBudgetExpiry_moves e s
  | .twRun e run => execTwRun_moves e run s
  | .twCoefCommit e => execTwCoefCommit_moves e s
  | .twRampPreset e r value => execTwRampPreset_moves e r value s
  | .twOwnWrite e data => execTwOwnWrite_moves e data s
  | .twSlotClear e sl => execTwSlotClear_moves e sl s
  | .twMemoryEcc e addr double => execTwMemoryEcc_moves e addr double s
  | .ainSpSample j code => execAinSpSample_moves j code s
  | .pinSpEdge j => execPinSpEdge_moves j s
  | .pinSpTimeout j => execPinSpTimeout_moves j s
  | .adcDeferredSample a => execAdcDeferredSample_moves a s
  | .adcConversionComplete a code => execAdcConversionComplete_moves a code s
  | .adcEnable data => execAdcEnable_moves data s
  | .adcClearCounts => execAdcClearCounts_moves s
  | .comparatorActive k uv => execComparatorActive_moves k uv s
  | .comparatorInactive k uv => execComparatorInactive_moves k uv s
  | .cmpThresholdWrite k data ok => execCmpThresholdWrite_moves k data ok s
  | .cmpDacMismatch k => execCmpDacMismatch_moves k s
  | .ainStale n => execAinStale_moves n s
  | .xpChangeAllowed x => execXpChangeAllowed_moves x s
  | .xpHoldExpiry x => execXpHoldExpiry_moves x s
  | .isumCheck o => execIsumCheck_moves o s
  | .isumHoldEnd o => execIsumHoldEnd_moves o s
  | .weldCheckStart outlet tgt win => execWeldCheckStart_moves outlet tgt win s
  | .weldCheckEnd => execWeldCheckEnd_moves s
  | .salModeWrite data => execSalModeWrite_moves data s
  | .salternBoundary => execSalternBoundary_moves s
  | .solveComplete => execSolveComplete_moves s
  | .salternTableEcc off double => execSalternTableEcc_moves off double s
  | .salDemWrite j data => execSalDemWrite_moves j data s
  | .demandStale j => execDemandStale_moves j s
  | .salCommitGo => execSalCommitGo_moves s
  | .emrgLineRaise => execEmrgLineRaise_moves s
  | .emrgReq => execEmrgReq_moves s
  | .emrgClr => execEmrgClr_moves s
  | .salStateWrite off data => execSalStateWrite_moves off data s
  | .grantSetHandover => execGrantSetHandover_moves s
  | .grantApply => execGrantApply_moves s
  | .demandSample => execDemandSample_moves s
  | .demandFrame port etype payload => execDemandFrame_moves port etype payload s
  | .grantFrame port etype payload => execGrantFrame_moves port etype payload s
  | .zwEnable data => execZwEnable_moves data s
  | .listenTimeout => execListenTimeout_moves s
  | .claimWaitExpiry => execClaimWaitExpiry_moves s
  | .followerTimeout => execFollowerTimeout_moves s
  | .zwBoundary => execZwBoundary_moves s
  | .takeover => execTakeover_moves s
  | .stepDown => execStepDown_moves s
  | .holdExpiry => execHoldExpiry_moves s
  | .zwSwapGo data => execZwSwapGo_moves data s
  | .zwClrExcl => execZwClrExcl_moves s
  | .zwClaim b => execZwClaim_moves b s
  | .partnerLineQualified high us => execPartnerLineQualified_moves high us s
  | .partnerLineStuck edges => execPartnerLineStuck_moves edges s
  | .zwPairStuckClear => execZwPairStuckClear_moves s
  | .zwBufferEcc grant double => execZwBufferEcc_moves grant double s
  | .tbStepGo n slot abs => execTbStepGo_moves n slot abs s
  | .tbStepApply n => execTbStepApply_moves n s
  | .tbRateWrite n slot data => execTbRateWrite_moves n slot data s
  | .tbSrcWrite n slot data => execTbSrcWrite_moves n slot data s
  | .tbOffset n => execTbOffset_moves n s
  | .tbHoldover n => execTbHoldover_moves n s
  | .tbHoldExpired n => execTbHoldExpired_moves n s
  | .tbTimeRead n => execTbTimeRead_moves n s
  | .toutArm k data => execToutArm_moves k data s
  | .toutDisarm k data => execToutDisarm_moves k data s
  | .toutActive k => execToutActive_moves k s
  | .toutInactive k => execToutInactive_moves k s
  | .tcapEdge k rising => execTcapEdge_moves k rising s
  | .tcapStamp k => execTcapStamp_moves k s
  | .tcapRead k => execTcapRead_moves k s
  | .ptpEventRx p m => execPtpEventRx_moves p m s
  | .ptpSyncSend p => execPtpSyncSend_moves p s
  | .tcFollowupTimeout => execTcFollowupTimeout_moves s
  | .ptpTxtsRead p => execPtpTxtsRead_moves p s
  | .ptpPortState p st => execPtpPortState_moves p st s
  | .ptpSelfcheckFail p => execPtpSelfcheckFail_moves p s
  | .gridChannelLost n => execGridChannelLost_moves n s
  | .pmuFrameWrite sec k phasors freq dfreq => execPmuFrameWrite_moves sec k phasors freq dfreq s
  | .gridResponseUpdate freq each volt valid rms => execGridResponseUpdate_moves freq each volt valid rms s
  | .gridRecArm => execGridRecArm_moves s
  | .gridRecTrig => execGridRecTrig_moves s
  | .gridRecComplete => execGridRecComplete_moves s
  | .pilotMeasurement o hi lo id => execPilotMeasurement_moves o hi lo id s
  | .pilotDriveWrite o data => execPilotDriveWrite_moves o data s
  | .pilotUnstableClear o => execPilotUnstableClear_moves o s
  | .senseReferenceCheck o code => execSenseReferenceCheck_moves o code s
  | .linkFrameRx l frame info => execLinkFrameRx_moves l frame info s
  | .ringTxHeadWrite l head => execRingTxHeadWrite_moves l head s
  | .linkFrameTxDone l info => execLinkFrameTxDone_moves l info s
  | .ringEnable l tx en => execRingEnable_moves l tx en s
  | .attStart n data => execAttStart_moves n data s
  | .attDone n => execAttDone_moves n s
  | .toneMapRefresh k => execToneMapRefresh_moves k s
  | .renegComplete k => execRenegComplete_moves k s
  | .bbPhWrite ph => execBbPhWrite_moves ph s
  | .t1sPhySelfcheckFail n => execT1sPhySelfcheckFail_moves n s
  | .decode => execDecode_moves s
  | .encode => execEncode_moves s
  | .digest => execDigest_moves s
  | .tlsAccept res => execTlsAccept_moves res s
  | .tlsIn res => execTlsIn_moves res s
  | .tlsOut res => execTlsOut_moves res s
  | .tlsClose res => execTlsClose_moves res s
  | .sesChannelDisable c => execSesChannelDisable_moves c s
  | .sesTimerArm c ms => execSesTimerArm_moves c ms s
  | .sesTimerExpiry c => execSesTimerExpiry_moves c s
  | .sesEngineFault tls double => execSesEngineFault_moves tls double s
  | .tsConversion n r => execTsConversion_moves n r s
  | .cableModelUpdate o => execCableModelUpdate_moves o s
  | .daRecompute o => execDaRecompute_moves o s
  | .enfUpdate o => execEnfUpdate_moves o s
  | .thermalRecord => execThermalRecord_moves s
  | .shutdownHoldComplete o => execShutdownHoldComplete_moves o s
  | .cblAck o => execCblAck_moves o s
  | .cblEnable o data => execCblEnable_moves o data s
  | .tachEdge k => execTachEdge_moves k s
  | .tachTimeout k => execTachTimeout_moves k s
  | .fanStall k => execFanStall_moves k s
  | .tjConversion j t => execTjConversion_moves j t s
  | .thermalReferenceCheck ratio => execThermalReferenceCheck_moves ratio s
  | .meterBlockEnd samples => execMeterBlockEnd_moves samples s
  | .meterChannelInvalid k toggling => execMeterChannelInvalid_moves k toggling s
  | .legalUpdChange high => execLegalUpdChange_moves high s
  | .legalTxCheck => execLegalTxCheck_moves s
  | .legalTxEnergy => execLegalTxEnergy_moves s
  | .mpulsePulse o => execMpulsePulse_moves o s
  | .meterImageRecheck => execMeterImageRecheck_moves s
  | .parameterLoad => execParameterLoad_moves s
  | .readingStart o => execReadingStart_moves o s
  | .readingStop o => execReadingStop_moves o s
  | .readingOnRequest o => execReadingOnRequest_moves o s
  | .readingRecordComplete => execReadingRecordComplete_moves s
  | .ledgerRestore badA badB => execLedgerRestore_moves badA badB s
  | .tcwSample o uv => execTcwSample_moves o uv s
  | .evsMramEcc addr double => execEvsMramEcc_moves addr double s
  | .tariffInstant samples => execTariffInstant_moves samples s
  | .calendarLoad => execCalendarLoad_moves s
  | .billingClose => execBillingClose_moves s
  | .legalClockAdjust abs => execLegalClockAdjust_moves abs s
  | .autoSync => execAutoSync_moves s
  | .topup acc => execTopup_moves acc s
  | .debit acc => execDebit_moves acc s
  | .config acc ecEn => execConfig_moves acc ecEn s
  | .tarMemoryEcc cell double => execTarMemoryEcc_moves cell double s
  | .pubkey c => execPubkey_moves c s
  | .sign c => execSign_moves c s
  | .verify c => execVerify_moves c s
  | .ecdhDerive c => execEcdhDerive_moves c s
  | .gcmEnc c => execGcmEnc_moves c s
  | .gcmDec c => execGcmDec_moves c s
  | .ctr c => execCtr_moves c s
  | .hash c => execHash_moves c s
  | .random c => execRandom_moves c s
  | .generate c => execGenerate_moves c s
  | .loadBlob c => execLoadBlob_moves c s
  | .loadPub c => execLoadPub_moves c s
  | .check c => execCheck_moves c s
  | .commit c => execCommit_moves c s
  | .ksTimedCommit n => execKsTimedCommit_moves n s
  | .discard c => execDiscard_moves c s
  | .erase c => execErase_moves c s
  | .keyOut c => execKeyOut_moves c s
  | .rootGen c => execRootGen_moves c s
  | .zeroise c => execZeroise_moves c s
  | .tamperEvent src => execTamperEvent_moves src s
  | .ksRemask => execKsRemask_moves s
  | .ksEntropyFail => execKsEntropyFail_moves s
  | .ksReseed pass => execKsReseed_moves pass s
  | .ksAdminLock data => execKsAdminLock_moves data s
  | .ksCtrlLock data => execKsCtrlLock_moves data s
  | .safetyCycleStart => execSafetyCycleStart_moves s
  | .safetyCommit => execSafetyCommit_moves s
  | .lockstepMismatch => execLockstepMismatch_moves s
  | .safeClockCheck count gap supply => execSafeClockCheck_moves count gap supply s
  | .safetyConfigRecheck => execSafetyConfigRecheck_moves s
  | .safeInputAccept n chB level us off => execSafeInputAccept_moves n chB level us off s
  | .safeInputDiscrepancy n => execSafeInputDiscrepancy_moves n s
  | .safeInputStuck n changes off => execSafeInputStuck_moves n changes off s
  | .permit => execPermit_moves s
  | .permitLapse => execPermitLapse_moves s
  | .ack off => execAck_moves off s
  | .brakeTest => execBrakeTest_moves s
  | .brakeTestEnd => execBrakeTestEnd_moves s
  | .brakeTestDue => execBrakeTestDue_moves s
  | .confirm => execConfirm_moves s
  | .confirmTimeout => execConfirmTimeout_moves s
  | .user => execUser_moves s
  | .safeCurrentCode o code => execSafeCurrentCode_moves o code s
  | .safeCurrentGap o => execSafeCurrentGap_moves o s
  | .softOpenTimeout m => execSoftOpenTimeout_moves m s
  | .offPulseStart m chB => execOffPulseStart_moves m chB s
  | .offPulseEnd m readsOn => execOffPulseEnd_moves m readsOn s
  | .soutReadbackFault m readsOn us => execSoutReadbackFault_moves m readsOn us s
  | .hsOnWrite data => execHsOnWrite_moves data s
  | .hsOnSet mask => execHsOnSet_moves mask s
  | .hsOnClr mask => execHsOnClr_moves mask s
  | .hsOvercurrentTrip n us => execHsOvercurrentTrip_moves n us s
  | .hsRetry n => execHsRetry_moves n s
  | .hsFuseTrip n ma temp => execHsFuseTrip_moves n ma temp s
  | .hsThermalLatch n temp limit => execHsThermalLatch_moves n temp limit s
  | .hsThermalRelease n temp => execHsThermalRelease_moves n temp s
  | .hsRcntReset n => execHsRcntReset_moves n s
  | .hsOpenLoad n ma us => execHsOpenLoad_moves n ma us s
  | .hsMismatch n => execHsMismatch_moves n s
  | .hsMismatchClear n => execHsMismatchClear_moves n s
  | .lhInEdge k level us => execLhInEdge_moves k level us s
  | .lhEnChange level us => execLhEnChange_moves level us s
  | .hsLock => execHsLock_moves s
  | .isSelChange sel ns => execIsSelChange_moves sel ns s
  | .vinOvervoltage => execVinOvervoltage_moves s
  | .vinOvervoltageEnd => execVinOvervoltageEnd_moves s
  | .brineEnable data => execBrineEnable_moves data s
  | .brinePeriod vout trk j sense => execBrinePeriod_moves vout trk j sense s
  | .brineVsetWrite data => execBrineVsetWrite_moves data s
  | .brineTrimUpdate => execBrineTrimUpdate_moves s
  | .brineUvLatch => execBrineUvLatch_moves s
  | .brineOvLatch => execBrineOvLatch_moves s
  | .brinePhaseShed => execBrinePhaseShed_moves s
  | .brineSwFault p => execBrineSwFault_moves p s
  | .canEnable n data => execCanEnable_moves n data s
  | .canBusJoin n => execCanBusJoin_moves n s
  | .canFrameRx n f ago => execCanFrameRx_moves n f ago s
  | .canFifoRelease n f get => execCanFifoRelease_moves n f get s
  | .canTxreq n req => execCanTxreq_moves n req s
  | .canTxcan n can => execCanTxcan_moves n can s
  | .canTxComplete n ok ago => execCanTxComplete_moves n ok ago s
  | .canBusOff n => execCanBusOff_moves n s
  | .canBusOffRecovery n => execCanBusOffRecovery_moves n s
  | .canRxStuck n edges count => execCanRxStuck_moves n edges count s
  | .canStuckClear n holds => execCanStuckClear_moves n holds s
  | .canRefInstant n => execCanRefInstant_moves n s
  | .vinPowerFail samples => execVinPowerFail_moves samples s
  | .vinStop => execVinStop_moves s
  | .vinOn => execVinOn_moves s
  | .vinValid => execVinValid_moves s
  | .porAon => execPorAon_moves s
  | .pwrCtrlWrite data => execPwrCtrlWrite_moves data s
  | .domainSupplyFault dom => execDomainSupplyFault_moves dom s
  | .clockFault row => execClockFault_moves row s
  | .refclkLost => execRefclkLost_moves s
  | .refclkReturn => execRefclkReturn_moves s
  | .rtcCheck missing => execRtcCheck_moves missing s
  | .resetPin => execResetPin_moves s
  | .resetPinRelease => execResetPinRelease_moves s
  | .rstCmdHub key => execRstCmdHub_moves key s
  | .rstCmdRegion key regs => execRstCmdRegion_moves key regs s
  | .debugReset => execDebugReset_moves s
  | .vbatLow mv => execVbatLow_moves mv s
  | .selfTestComplete fail cells => execSelfTestComplete_moves fail cells s
  | .bankLoad second => execBankLoad_moves second s
  | .applicationStart => execApplicationStart_moves s
  | .stRbRaise => execStRbRaise_moves s
  | .mgmtStatus seq => execMgmtStatus_moves seq s
  | .mgmtReadLog seq area idx => execMgmtReadLog_moves seq area idx s
  | .mgmtAuth seq slot sig => execMgmtAuth_moves seq slot sig s
  | .mgmtAuthExpiry => execMgmtAuthExpiry_moves s
  | .mgmtErase seq bank => execMgmtErase_moves seq bank s
  | .mgmtProgram seq bank off bytes => execMgmtProgram_moves seq bank off bytes s
  | .mgmtRestart seq => execMgmtRestart_moves seq s
  | .noteWindowRecovered blk => execNoteWindowRecovered_moves blk s
  | .ptpPdelayReqSend p => execPtpPdelayReqSend_moves p s
  | .ptpFollowUpRx p m => execPtpFollowUpRx_moves p m s
  | .canBusError n lec err => execCanBusError_moves n lec err s
  | .plcaBeaconRx n seen alien => execPlcaBeaconRx_moves n seen alien s
  | .vbatLowClear mv ms => execVbatLowClear_moves mv ms s
  | .lhInUnstuck k => execLhInUnstuck_moves k s

/-- What a step can do: the front command takes effect on the state with the rest of the queue, or time passes. -/
theorem step_cases {s t : State} (h : step s = .next t) :
    (∃ c rest, s.pending = c :: rest ∧ exec c (s.setPending rest) = .next t) ∨ (s.pending = [] ∧ t = s.tick) := by
  unfold step at h
  split at h
  next c rest hq => exact .inl ⟨c, rest, hq, h⟩
  next hq =>
    cases h
    exact .inr ⟨hq, rfl⟩

theorem exec_keeps_canonical {i : Instr} {s t : State} (h : exec i s = .next t) (hs : s.canonical) : t.canonical :=
  ((exec_moves i s).moves t h).canonical hs

theorem step_keeps_canonical {s t : State} (h : step s = .next t) (hs : s.canonical) : t.canonical := by
  obtain ⟨c, rest, -, hc⟩ | ⟨-, rfl⟩ := step_cases h
  · exact exec_keeps_canonical hc ((s.setPending_moves rest).canonical hs)
  · exact s.tick_moves.canonical hs

/-- Settles O4: the three tables of the reset state list nothing. -/
theorem resetIsCanonical : Obligations.ResetIsCanonical := ⟨Tab.wf_nil, Tab.wf_nil, Tab.wf_nil⟩

/-- Settles O5, by what a step can do: every command, and the tick, moves the tables by operations that keep the form. -/
theorem stepKeepsCanonicalForm : Obligations.StepKeepsCanonicalForm := fun _ _ hs h => step_keeps_canonical h hs

end Sys2Proof.Machine
end

section
/-!
PROOFS. Fabric writes: what a fault's record leaves of the other registers, what a word that passes its check does with a
write, and where a write of an initiator ends.
-/
set_option Elab.async false
namespace Sys2Proof.Machine

/-! What leaves registers, bytes and contexts as they are -/

theorem RegsOnly.refl (l : List Nat) (s : State) : RegsOnly l s s := fun _ _ => ⟨rfl, rfl⟩

theorem RegsOnly.trans {l : List Nat} {s t u : State} (h : RegsOnly l s t) (k : RegsOnly l t u) : RegsOnly l s u :=
  fun a ha => ⟨(k a ha).1.trans (h a ha).1, (k a ha).2.trans (h a ha).2⟩

theorem RegsOnly.mono {l m : List Nat} {s t : State} (hs : l ⊆ m) (h : RegsOnly l s t) : RegsOnly m s t :=
  fun a ha => h a (fun hl => ha (hs hl))

/-- The same registers and committed values. -/
theorem RegsOnly.of_same {l : List Nat} {s t : State} (hr : t.regs = s.regs) (hl : t.live = s.live) : RegsOnly l s t :=
  fun a _ => ⟨by rw [State.rd, hr]; rfl, by rw [State.lv, hl]; rfl⟩

theorem State.wr_regsOnly {l : List Nat} (s : State) {a : Nat} (v : Word) (h : a ∈ l) : RegsOnly l s (s.wr a v) :=
  fun _ hb => ⟨s.rd_wr_ne v (fun e => hb (e ▸ h)), rfl⟩

theorem CtxsOnly.of_same {l : List Nat} {s t : State} (h : t.weft = s.weft) : CtxsOnly l s t :=
  fun k _ => by rw [State.ctx, h]; rfl

theorem State.setFld_regsOnly {l : List Nat} (s : State) {a : Nat} (f : Fld) (x : Nat) (h : a ∈ l) :
    RegsOnly l s (s.setFld a f x) := s.wr_regsOnly _ h

/-! The record of a fault (R26, R34) -/

theorem State.recordFault_regsOnly (s : State) (base blk cell code grade : Nat) (first : Bool) :
    RegsOnly [base, base + 4, base + 8, base + 12] s (s.recordFault base blk cell code grade first) := by
  have hcount : RegsOnly [base, base + 4, base + 8, base + 12] s (s.bump base F.ERR_CHIP_STATUS_COUNT) :=
    s.setFld_regsOnly _ _ (by simp)
  have hgrade := hcount.trans (State.setFld_regsOnly _ F.ERR_CHIP_STATUS_GRADE
    (max ((s.bump base F.ERR_CHIP_STATUS_COUNT).fld base F.ERR_CHIP_STATUS_GRADE) grade) (a := base) (by simp))
  unfold State.recordFault
  dsimp only
  split
  · exact ((hgrade.trans (State.wr_regsOnly _ _ (by simp))).trans (State.wr_regsOnly _ _ (by simp))).trans
      (State.wr_regsOnly _ _ (by simp))
  · exact hgrade

theorem State.recordBlk_regsOnly (s : State) (blk cell code grade : Nat) :
    RegsOnly (recordRegs blk) s (s.recordBlk blk cell code grade) := by
  unfold State.recordBlk
  dsimp only
  split
  · exact (s.recordFault_regsOnly _ _ _ _ _ _).trans (RegsOnly.of_same rfl rfl)
  · exact s.recordFault_regsOnly _ _ _ _ _ _

/-- A NOTE writes the registers of its block's record and no other. -/
theorem State.note_regsOnly (s : State) (blk cell code : Nat) : RegsOnly (recordRegs blk) s (s.note blk cell code) :=
  (s.recordBlk_regsOnly blk cell code gradeNote).trans (RegsOnly.of_same rfl rfl)

theorem State.note_noteCell (s : State) (blk cell code : Nat) : ((s.note blk cell code).blkRec blk).noteCell = cell := by
  simp [State.note]

/-! The capture of a bus error (R21) -/

theorem State.captureBusError_regsOnly (s : State) (slot a kind : Nat) (write : Bool) :
    RegsOnly [Reg.FAB_ERR_ADDR, Reg.FAB_ERR_INFO] s (s.captureBusError slot a kind write) :=
  (State.wr_regsOnly _ _ (by simp)).trans (State.wr_regsOnly _ _ (by simp))

theorem State.captureBusError_addr (s : State) (slot : Nat) (addr : Word) (kind : Nat) (write : Bool) :
    (s.captureBusError slot addr.toNat kind write).rd Reg.FAB_ERR_ADDR = addr := by
  rw [State.captureBusError, State.wrNat, State.rd_wr_ne _ _ (by decide), State.wrNat, State.rd_wr_same]
  simp

theorem State.captureBusError_info (s : State) (slot a kind : Nat) (write : Bool) :
    (s.captureBusError slot a kind write).rd Reg.FAB_ERR_INFO =
      BitVec.ofNat 32 (slot + kind * 256 + bit01 write * 1024) := State.rd_wr_same ..

/-- A refused write is captured, and noted with its slot in the record of the fabric root, which is block 0x23. -/
theorem State.refuseAccess_write (s : State) (slot : Fin 19) (addr : Word) :
    let t := s.refuseAccess slot.val addr.toNat true
    (t.rd Reg.FAB_ERR_ADDR = addr ∧ (t.rd Reg.FAB_ERR_INFO).toNat = slot.val + 256 + 1024 ∧ t.mem = s.mem ∧
      (t.blkRec 0x23).noteCell = slot.val) ∧
    RegsOnly ([Reg.FAB_ERR_ADDR, Reg.FAB_ERR_INFO] ++ recordRegs 0x23) s t := by
  have hnote := (s.captureBusError slot.val addr.toNat 1 true).note_regsOnly 0x23 slot.val 0xF1
  refine ⟨⟨?_, ?_, (s.refuseAccess_moves ..).rest .mem rfl, State.note_noteCell ..⟩, ?_⟩
  · rw [State.refuseAccess, (hnote Reg.FAB_ERR_ADDR (by decide)).1, State.captureBusError_addr]
  · rw [State.refuseAccess, (hnote Reg.FAB_ERR_INFO (by decide)).1, State.captureBusError_info, BitVec.toNat_ofNat]
    have hslot := slot.isLt
    have hbit : bit01 true = 1 := rfl
    omega
  · exact ((s.captureBusError_regsOnly _ _ _ _).mono (List.subset_append_left _ _)).trans
      (hnote.mono (List.subset_append_right _ _))

/-! A write of a memory with check bits (R551) -/

theorem State.settleWord_known {s : State} {a : Nat} (h : s.unknown a = false) : s.settleWord a = s := by
  simp [State.settleWord, h]

/-- Where no uncorrectable error is open, rewriting a word touches nothing but the check bits' own state. -/
theorem State.rewriteWord_of_lost_nil {s : State} (a : Nat) (h : s.ecc.lost = []) : ∃ e, s.rewriteWord a = s.setEcc e := by
  have hknown : ∃ e, (s.mendWord a).nowKnown a = s.setEcc e ∧ e.lost = [] := by
    unfold State.nowKnown
    split
    · exact ⟨_, rfl, h⟩
    · exact ⟨_, rfl, h⟩
  obtain ⟨e, he, hl⟩ := hknown
  refine ⟨e, ?_⟩
  simp [State.rewriteWord, he, State.setEcc, hl]

/-- A write of a word that passes its check is made, and leaves all but its bytes and the check bits' own state. -/
theorem State.checkWrite_sound {s : State} {a n : Nat} (v : Nat) (hd : s.damage a = .none) (hl : s.ecc.lost = [])
    (hu : n ≠ 4 → s.unknown a = false) : ∃ e, s.checkWrite a n v = (true, (s.setEcc e).putNum a n v) := by
  unfold State.checkWrite
  split
  next h4 =>
    obtain ⟨e, he⟩ := State.rewriteWord_of_lost_nil a hl
    exact ⟨e, by rw [he, h4]⟩
  next h4 => exact ⟨s.ecc, by rw [State.settleWord_known (hu h4)]; simp only [hd]; rfl⟩

theorem State.num_putNum (s : State) (a n v : Nat) : (s.putNum a n v).num a n = v % 2 ^ (8 * n) := by
  have hb : (s.putNum a n v).bytes a n = leBytes n v := by
    have := memBytes_put_same s.mem a (leBytes n v)
    rwa [leBytes_length] at this
  rw [State.num, hb, leNat_leBytes, Nat.pow_mul]

theorem State.putNum_bytesOnly (s : State) (a n v : Nat) :
    BytesOnly (fun x => decide (a ≤ x ∧ x < a + n)) s (s.putNum a n v) := by
  intro x hx
  refine memBytes_put_off _ _ _ _ _ ?_
  rw [leBytes_length]
  simp only [decide_eq_false_iff_not] at hx
  omega

/-! The targets of an access (R77, R78) -/

theorem State.refused_of_inSram {s : State} {a n : Nat} (h : inSram a = true) (ha : a % n = 0) : s.refused a n = false := by
  simp [State.refused, h, ha]

theorem State.refused_of_inTcm {s : State} {a n : Nat} (h : inTcm a = true) (ha : a % n = 0) : s.refused a n = false := by
  simp [State.refused, h, ha]

theorem not_inSram_of_window {a : Nat} (h : tcmWindow 0 ≤ a) : inSram a = false := by
  have habove : ¬ a < sramBase + sramSize := by
    simp only [tcmWindow, sramBase, sramSize] at *
    omega
  simp [inSram, habove]

theorem sizeOf3_cases (size : Fin 3) : sizeOf3 size < 4 ∨ sizeOf3 size = 4 := by revert size; decide

/-- What a write of `n` bytes in shared SRAM or a TCM does, of which the words pass their check. -/
theorem State.putNum_writes (s : State) (e : Ecc) (a n x : Nat) :
    let t := (s.setEcc e).putNum a n (x % 2 ^ (8 * n))
    (t.num a n = x % 2 ^ (8 * n) ∧ BytesOnly (fun x => decide (a ≤ x ∧ x < a + n)) s t) ∧ RegsOnly [] s t :=
  ⟨⟨by rw [State.num_putNum, Nat.mod_mod], (s.setEcc e).putNum_bytesOnly a n _⟩, RegsOnly.of_same rfl rfl⟩

/-! ERR_CHIP_TMO (R34) -/

/-- The row of ERR_CHIP_TMO in the register map. -/
def chipTmoRow : RegRow := ⟨0x50200010, 1, 0x4, 1, 0x4, 0x26, .errLock, 0x00000064, [⟨9, 0, .rw⟩]⟩

theorem regRow_chipTmo : regRow Reg.ERR_CHIP_TMO = some chipTmoRow := by decide

/-- The ladder shares the fabric's power domain, so its registers are there while the fabric acts. -/
theorem State.refused_chipTmo {s : State} (h : s.acts .fabric) : s.refused Reg.ERR_CHIP_TMO 4 = false := by
  have hdom : s.domUp 2 = true := by
    have hup : s.domUp (domainOf (blkNum .fabric)) = true := by
      unfold State.acts State.up at h
      exact (Bool.and_eq_true_iff.1 h).1
    exact hup
  have hrow : s.domUp (domainOf chipTmoRow.block) = true := hdom
  have halign : Reg.ERR_CHIP_TMO % 4 = 0 := by decide
  simp [State.refused, halign, regRow_chipTmo, hrow]

/-- The write of ERR_CHIP_TMO goes to its owner unless ERR_LOCK closes it. -/
theorem State.fabWrite_chipTmo {s : State} (slot : Nat) (v : Word) (h : s.acts .fabric) :
    (s.fabWrite slot Reg.ERR_CHIP_TMO 4 v).2 =
      if s.flag Reg.ERR_LOCK F.ERR_LOCK_LOCK then s else s.wrAccess Reg.ERR_CHIP_TMO v := by
  have hsram : inSram Reg.ERR_CHIP_TMO = false := by decide
  have htcm : inTcm Reg.ERR_CHIP_TMO = false := by decide
  have hopen : writeRefused chipTmoRow slot = false := by simp [writeRefused, chipTmoRow]
  have hlock : s.writeIgnored chipTmoRow = s.flag Reg.ERR_LOCK F.ERR_LOCK_LOCK := rfl
  have howner : s.ownerWrite slot Reg.ERR_CHIP_TMO v = s.wrAccess Reg.ERR_CHIP_TMO v := rfl
  simp only [State.fabWrite, State.refused_chipTmo h, hsram, htcm, regRow_chipTmo, State.regWrite, hopen, hlock, howner]
  cases s.flag Reg.ERR_LOCK F.ERR_LOCK_LOCK <;> rfl

theorem State.fld_wrAccess_chipTmo (s : State) (v : Word) :
    (s.wrAccess Reg.ERR_CHIP_TMO v).fld Reg.ERR_CHIP_TMO F.ERR_CHIP_TMO_LIMIT = F.ERR_CHIP_TMO_LIMIT.get v := by
  have hput : s.wrAccess Reg.ERR_CHIP_TMO v =
      s.setFld Reg.ERR_CHIP_TMO F.ERR_CHIP_TMO_LIMIT (F.ERR_CHIP_TMO_LIMIT.get v) := by
    rw [State.wrAccess, regRow_chipTmo]
    rfl
  rw [hput, State.fld_setFld_same _ _ _ _ (by decide) (by decide)]
  exact Nat.mod_eq_of_lt (Fld.get_lt _ v)

theorem State.wrAccess_regsOnly (s : State) (a : Nat) (v : Word) : RegsOnly [a] s (s.wrAccess a v) := by
  unfold State.wrAccess
  split
  · exact s.wr_regsOnly _ (by simp)
  · exact RegsOnly.refl _ _

/-! What a fabric read changes -/

/-- The word whose check fails lies in no memory of the Selvedge pair: the fault stays in the ladder. -/
theorem State.eccLost_moves_of_not_pair (s : State) {a : Nat} (h : bankOf a ≠ .pair) :
    Moves [.regs, .ecc, .ladder] s (s.eccLost a) := by
  have hlost (e : Ecc) : Moves [.regs, .ecc, .ladder] s (s.setEcc e) := (s.setEcc_moves e).mono ⟨rfl⟩
  unfold State.eccLost
  dsimp only
  split
  next => exact Moves.step (State.contain_moves ..) ⟨rfl⟩ (hlost _)
  next =>
    refine Moves.step (State.contain_moves ..) ⟨rfl⟩ ?_
    split
    · exact hlost _
    · exact Moves.step (State.setEcc_moves ..) ⟨rfl⟩ (hlost _)
  next hp => exact absurd hp h
  next => exact hlost _

theorem State.checkRead_moves_of_known {s : State} {a : Nat} (hu : s.unknown a = false) (hb : bankOf a ≠ .pair) :
    Moves [.regs, .ecc, .ladder] s (s.checkRead a).2 := by
  unfold State.checkRead
  rw [State.settleWord_known hu]
  dsimp only
  split
  next => exact (State.eccReadBack_moves ..).mono ⟨rfl⟩
  next =>
    split
    · exact Moves.refl _
    · exact Moves.step (State.eccNote_moves ..) ⟨rfl⟩ ((s.setEcc_moves _).mono ⟨rfl⟩)
  next => exact s.eccLost_moves_of_not_pair hb

theorem bankOf_ne_pair {a : Nat} (h : (inSram a || inTcm a) = true) : bankOf a ≠ .pair := by
  unfold bankOf
  by_cases hs : inSram a
  · simp [hs]
  · simp_all

/-- A read over the fabric of a word that is not undefined changes no memory and no context. -/
theorem State.fabRead_moves_of_known {s : State} (slot : Nat) {a : Nat} (n : Nat) (hu : s.unknown a = false) :
    Moves [.regs, .ecc, .ladder, .time, .free] s (s.fabRead slot a n).2 := by
  unfold State.fabRead
  dsimp only
  split
  next => exact (State.refuseAccess_moves ..).mono ⟨rfl⟩
  next =>
    split
    next hm =>
      have hread := (State.checkRead_moves_of_known hu (bankOf_ne_pair hm)).mono
        (gs := [.regs, .ecc, .ladder, .time, .free]) ⟨rfl⟩
      split
      · exact hread
      · exact Moves.step (State.busError_moves ..) ⟨rfl⟩ hread
    next =>
      split
      · exact Moves.refl _
      · split
        · exact Moves.refl _
        · exact (State.regRead_moves ..).mono ⟨rfl⟩

/-! A write by an initiator outside Weft (R4, R13, R15, R19, R33) -/

theorem State.outsideWrite_closed {s : State} (slot : Nat) (addr data : Word) (n : Nat) (h : s.fabric.closed = true) :
    s.outsideWrite slot addr data n = s := by simp [State.outsideWrite, h]

theorem State.outsideWrite_atOnce {s : State} {slot : Nat} {addr : Word} (data : Word) {n : Nat}
    (h : s.fabric.closed = false) (hg : s.goesAtOnce slot addr n = true) :
    s.outsideWrite slot addr data n = (s.fabWrite slot addr.toNat n data).2 := by simp [State.outsideWrite, h, hg]

theorem State.outsideWrite_hang {s : State} {slot : Nat} {addr : Word} (data : Word) {n : Nat}
    (h : s.fabric.closed = false) (hg : s.goesAtOnce slot addr n = false) :
    s.outsideWrite slot addr data n = s.hang slot addr data n := by simp [State.outsideWrite, h, hg]

theorem State.hang_room {s : State} {slot : Nat} {addr data : Word} {n : Nat}
    (h : s.canIssue (outsideXact s.now slot addr data n) = true) : s.hang slot addr data n =
      s.setFabric { s.fabric with out := s.fabric.out ++ [outsideXact s.now slot addr data n] } := by simp [State.hang, h]

theorem State.hang_noRoom {s : State} {slot : Nat} {addr data : Word} {n : Nat}
    (h : s.canIssue (outsideXact s.now slot addr data n) = false) : s.hang slot addr data n =
      s.setFabric { s.fabric with waiting := s.fabric.waiting ++ [outsideXact s.now slot addr data n] } := by
  simp [State.hang, h]

theorem State.goesAtOnce_of_refused {s : State} {slot : Nat} {addr : Word} {n : Nat} (h : s.refused addr.toNat n = true) :
    s.goesAtOnce slot addr n = true := by simp [State.goesAtOnce, h]

theorem State.fabWrite_refused {s : State} (slot : Nat) {a n : Nat} (v : Word) (h : s.refused a n = true) :
    (s.fabWrite slot a n v).2 = s.refuseAccess slot a true := by simp [State.fabWrite, h]

theorem State.fabWrite_sram {s : State} (slot : Nat) {a n : Nat} (v : Word) (hs : inSram a = true) (ha : a % n = 0)
    (hd : s.damage a = .none) (hl : s.ecc.lost = []) (hu : n ≠ 4 → s.unknown a = false) :
    ∃ e, (s.fabWrite slot a n v).2 = (s.setEcc e).putNum a n (v.toNat % 2 ^ (8 * n)) := by
  obtain ⟨e, he⟩ := State.checkWrite_sound (v.toNat % 2 ^ (8 * n)) hd hl hu
  exact ⟨e, by simp [State.fabWrite, State.refused_of_inSram hs ha, hs, he]⟩

/-- The write of a TCM word by its window, which no part of shared SRAM overlaps. -/
theorem State.fabWrite_tcm {s : State} (slot : Nat) {a n : Nat} (v : Word) (hw : tcmWindow 0 ≤ a) (ht : inTcm a = true)
    (ha : a % n = 0) : s.fabWrite slot a n v = s.tcmWrite slot a n (v.toNat % 2 ^ (8 * n)) := by
  simp [State.fabWrite, State.refused_of_inTcm ht ha, not_inSram_of_window hw, ht]

theorem State.tcmWrite_data {s : State} (slot : Nat) {a n : Nat} (v : Nat) (hi : tcmIsInstr a = false)
    (hd : s.damage a = .none) (hl : s.ecc.lost = []) (hu : n ≠ 4 → s.unknown a = false) :
    ∃ e, (s.tcmWrite slot a n v).2 = (s.setEcc e).putNum a n v := by
  obtain ⟨e, he⟩ := State.checkWrite_sound v hd hl hu
  exact ⟨e, by simp [State.tcmWrite, hi, he]⟩

theorem State.tcmWrite_busy {s : State} (slot : Nat) {a : Nat} (n v : Nat) (hi : tcmIsInstr a = true)
    (hr : ∃ j : Fin 4, (s.ctx (CtxKey (tcmOwner a) j.val)).run ≠ .stopped) :
    (s.tcmWrite slot a n v).2 = s.busError slot a true := by
  obtain ⟨j, hj⟩ := hr
  have hany : (List.range 4).any (fun j => (s.ctx (CtxKey (tcmOwner a) j)).run ≠ .stopped) = true :=
    List.any_eq_true.2 ⟨j.val, List.mem_range.2 j.isLt, by simpa using hj⟩
  simp only [State.tcmWrite, hi, hany]
  rfl

/-! The two commands -/

theorem exec_registerWrite {s : State} (slot : Fin 19) (addr data : Word) (size : Fin 3) (h : s.acts .fabric) :
    exec (.registerWrite slot addr data size) s = .next (s.outsideWrite slot.val addr data (sizeOf3 size)) :=
  congrArg Host.Outcome.next (State.onBlk_up h)

theorem exec_registerWrite_closed {s : State} (slot : Fin 19) (addr data : Word) (size : Fin 3) (h : s.acts .fabric)
    (hc : s.fabric.closed = true) : exec (.registerWrite slot addr data size) s = .next s := by
  rw [exec_registerWrite slot addr data size h, State.outsideWrite_closed _ _ _ _ hc]

theorem exec_registerWrite_atOnce {s t : State} {slot : Fin 19} {addr data : Word} {size : Fin 3} (h : s.acts .fabric)
    (hc : s.fabric.closed = false) (hg : s.goesAtOnce slot.val addr (sizeOf3 size) = true)
    (ht : (s.fabWrite slot.val addr.toNat (sizeOf3 size) data).2 = t) :
    exec (.registerWrite slot addr data size) s = .next t := by
  rw [exec_registerWrite slot addr data size h, State.outsideWrite_atOnce data hc hg, ht]

theorem exec_registerWrite_hang {s : State} {slot : Fin 19} {addr : Word} (data : Word) {size : Fin 3} (h : s.acts .fabric)
    (hc : s.fabric.closed = false) (hg : s.goesAtOnce slot.val addr (sizeOf3 size) = false) :
    exec (.registerWrite slot addr data size) s = .next (s.hang slot.val addr data (sizeOf3 size)) := by
  rw [exec_registerWrite slot addr data size h, State.outsideWrite_hang data hc hg]

theorem exec_tcmWindow_closed {s : State} (slot : Fin 19) (addr data : Word) (write : Bool) (size : Fin 3)
    (h : s.acts .fabric) (hc : s.fabric.closed = true) : exec (.tcmWindowAccess slot addr data write size) s = .next s :=
  congrArg Host.Outcome.next ((State.onBlk_up h).trans (by simp [hc]))

theorem exec_tcmWindowWrite_atOnce {s t : State} {slot : Fin 19} {addr data : Word} {size : Fin 3} (h : s.acts .fabric)
    (hc : s.fabric.closed = false) (hlo : tcmWindow 0 ≤ addr.toNat) (hhi : addr.toNat < tcmWindow 8)
    (hm : inTcm addr.toNat = true) (ha : addr.toNat % sizeOf3 size = 0)
    (hg : s.goesAtOnce slot.val addr (sizeOf3 size) = true)
    (ht : (s.tcmWrite slot.val addr.toNat (sizeOf3 size) (data.toNat % 2 ^ (8 * sizeOf3 size))).2 = t) :
    exec (.tcmWindowAccess slot addr data true size) s = .next t := by
  have hwrite : s.outsideWrite slot.val addr data (sizeOf3 size) = t := by
    rw [State.outsideWrite_atOnce data hc hg, State.fabWrite_tcm slot.val data hlo hm ha, ht]
  refine congrArg Host.Outcome.next ((State.onBlk_up h).trans ?_)
  simpa [hc, Nat.not_lt.2 hlo, Nat.not_le.2 hhi] using hwrite

/-- A read through a window changes what a fabric read changes, or nothing. -/
theorem exec_tcmWindowRead {s : State} (slot : Fin 19) {addr : Word} (data : Word) (size : Fin 3) (h : s.acts .fabric)
    (hu : s.unknown addr.toNat = false) :
    Answers (.tcmWindowAccess slot addr data false size) s (Moves [.regs, .ecc, .ladder, .time, .free] s) := by
  refine ⟨_, congrArg Host.Outcome.next (State.onBlk_up h), ?_⟩
  split
  · exact Moves.refl _
  · exact State.fabRead_moves_of_known slot.val _ hu

theorem Answers.mono {i : Instr} {s : State} {P Q : State → Prop} (h : Answers i s P) (k : ∀ t, P t → Q t) :
    Answers i s Q := by
  obtain ⟨t, ht, hp⟩ := h
  exact ⟨t, ht, k t hp⟩

/-- A write of ERR_CHIP_TMO that no lock closes. -/
theorem registerWrite_chipTmo_open {s : State} {slot : Fin 19} {data : Word} (hf : s.acts .fabric)
    (hc : s.fabric.closed = false) (hg : s.goesAtOnce slot.val (BitVec.ofNat 32 Reg.ERR_CHIP_TMO) 4 = true)
    (hlock : s.flag Reg.ERR_LOCK F.ERR_LOCK_LOCK = false) :
    Writes (.registerWrite slot (BitVec.ofNat 32 Reg.ERR_CHIP_TMO) data 2) s [Reg.ERR_CHIP_TMO]
      (fun t => t.fld Reg.ERR_CHIP_TMO F.ERR_CHIP_TMO_LIMIT = F.ERR_CHIP_TMO_LIMIT.get data) := by
  have hwrite := State.fabWrite_chipTmo slot.val data hf
  simp only [hlock] at hwrite
  exact ⟨_, exec_registerWrite_atOnce hf hc hg hwrite, s.fld_wrAccess_chipTmo data, s.wrAccess_regsOnly _ data⟩

/-- One that ERR_LOCK makes read-only. -/
theorem registerWrite_chipTmo_locked {s : State} {slot : Fin 19} {data : Word} (hf : s.acts .fabric)
    (hc : s.fabric.closed = false) (hg : s.goesAtOnce slot.val (BitVec.ofNat 32 Reg.ERR_CHIP_TMO) 4 = true)
    (hlock : s.flag Reg.ERR_LOCK F.ERR_LOCK_LOCK = true) :
    Writes (.registerWrite slot (BitVec.ofNat 32 Reg.ERR_CHIP_TMO) data 2) s [] (fun t => t = s) := by
  have hwrite := State.fabWrite_chipTmo slot.val data hf
  simp only [hlock] at hwrite
  exact ⟨_, exec_registerWrite_atOnce hf hc hg hwrite, rfl, RegsOnly.refl _ _⟩

/-- Settles O9, clause by clause: where the write goes decides its effect. -/
theorem fabricWritesTakeEffect : Obligations.FabricWritesTakeEffect := by
  intro s slot addr data size hf a n
  have hknown : n ≠ 4 → (n < 4 → s.unknown a = false) → s.unknown a = false :=
    fun h4 hu => hu ((sizeOf3_cases size).resolve_right h4)
  refine ⟨?_, ?_, ?_, ?_, ?_, ?_, ?_, ?_, ?_, ?_⟩
  · rintro ⟨hc, hg, hlock⟩
    exact registerWrite_chipTmo_open hf hc hg hlock
  · rintro ⟨hc, hg, hlock⟩
    exact registerWrite_chipTmo_locked hf hc hg hlock
  · rintro ⟨hc, hg, hs, ha, hd, hl, hu⟩
    obtain ⟨e, he⟩ := State.fabWrite_sram slot.val data hs ha hd hl (fun h4 => hknown h4 hu)
    exact ⟨_, exec_registerWrite_atOnce hf hc hg he, s.putNum_writes e a n data.toNat⟩
  · rintro ⟨hc, hr⟩
    exact ⟨_, exec_registerWrite_atOnce hf hc (State.goesAtOnce_of_refused hr) (State.fabWrite_refused _ _ hr),
      s.refuseAccess_write slot addr⟩
  · rintro ⟨hc, hlo, hhi, ht, hi, ha, hd, hl, hu, hg⟩
    obtain ⟨e, he⟩ := State.tcmWrite_data slot.val (data.toNat % 2 ^ (8 * n)) hi hd hl (fun h4 => hknown h4 hu)
    exact ⟨_, exec_tcmWindowWrite_atOnce hf hc hlo hhi ht ha hg he, s.putNum_writes e a n data.toNat⟩
  · rintro ⟨hc, hlo, hhi, ht, hi, ha, hg, hr⟩
    exact ⟨_, exec_tcmWindowWrite_atOnce hf hc hlo hhi ht ha hg (State.tcmWrite_busy _ _ _ hi hr),
      ⟨s.captureBusError_addr .., (s.busError_moves ..).rest .mem rfl⟩, s.captureBusError_regsOnly _ _ _ _⟩
  · intro hu
    exact (exec_tcmWindowRead slot data size hf hu).mono
      (fun t ht => ⟨ht.rest .mem rfl, CtxsOnly.of_same (ht.rest .weft rfl)⟩)
  · rintro ⟨hc, hg, hi⟩
    exact ⟨_, (exec_registerWrite_hang data hf hc hg).trans (congrArg _ (State.hang_room hi)), rfl,
      RegsOnly.of_same rfl rfl⟩
  · rintro ⟨hc, hg, hi⟩
    exact ⟨_, (exec_registerWrite_hang data hf hc hg).trans (congrArg _ (State.hang_noRoom hi)), rfl,
      RegsOnly.of_same rfl rfl⟩
  · intro hc
    exact ⟨⟨_, exec_registerWrite_closed slot addr data size hf hc, rfl, RegsOnly.refl _ _⟩,
      ⟨_, exec_tcmWindow_closed slot addr data true size hf hc, rfl, RegsOnly.refl _ _⟩⟩

end Sys2Proof.Machine
end

section
/-!
PROOFS. Commands: which of them answer, what each leaves as it is, and the registers before the first of them.
-/
set_option Elab.async false
namespace Sys2Proof.Machine

/-- A meaning that stops where `bad` holds of its command answers exactly the commands that are well formed. -/
theorem answers_or_stops {bad ok : Bool} {t : State} {o : Host.Outcome State Fault Refusal} (hok : ok = !bad)
    (ho : o = if bad then .fault .illFormed else .next t) :
    (ok = true → ∃ t, o = .next t) ∧ (ok = false → o = .fault .illFormed) := by
  subst hok ho
  cases bad
  · exact ⟨fun _ => ⟨t, rfl⟩, nofun⟩
  · exact ⟨nofun, fun _ => rfl⟩

/-- A copy of the ladder exists unless its number is 2 or more. -/
theorem wellFormed_ladderCopyFault (bridge : Bool) (n : Fin 4) :
    (Instr.ladderCopyFault bridge n).wellFormed = !(!bridge && decide (2 ≤ n.val)) := by
  revert bridge n
  decide

/-- Settles O6: of all commands only three have a meaning that can stop, and they stop where they are ill formed. -/
theorem wellFormedCommandsAnswer : Obligations.WellFormedCommandsAnswer := by
  intro i s
  cases i with
  | twNop e w => exact answers_or_stops rfl rfl
  | illegalInstruction c w => exact answers_or_stops rfl rfl
  | ladderCopyFault bridge n => exact answers_or_stops (wellFormed_ladderCopyFault bridge n) rfl
  | _ => exact ⟨fun _ => ⟨_, rfl⟩, nofun⟩

/-- Settles O8: a part that `partsOf` does not name is one that the command does not move. -/
theorem commandsKeepToTheirParts : Obligations.CommandsKeepToTheirParts := by
  intro i s t h p hp
  exact ((exec_moves i s).moves t h).rest p (by simpa using hp)

/-- A register that no table lists reads as its row's Reset value, and so does its committed value. -/
theorem State.reset_reads (a : Nat) : State.reset.rd a = regReset a ∧ State.reset.lv a = regReset a := ⟨rfl, rfl⟩

/-- A context that no table lists is STOPPED, with TVEC at the start of the instruction memory. -/
theorem State.reset_ctx (k : Nat) : State.reset.ctx k = Context.reset := rfl

/-- Settles O3: the reset state lists nothing, so every read falls to the reset value; the five numbers are read off
the rows. -/
theorem resetHoldsTheResetValues : Obligations.ResetHoldsTheResetValues := by
  refine ⟨rfl, rfl, rfl, fun k => ?_, State.reset_reads, ?_, ?_, ?_, ?_, ?_⟩
  · rw [State.reset_ctx]
    exact ⟨rfl, rfl⟩
  all_goals decide

end Sys2Proof.Machine
end

section
/-!
PROOFS. The error ladder: what an expiry sets in motion, the clear that comes too late for it, and the UP that is logged.
-/
set_option Elab.async false
namespace Sys2Proof.Machine

/-! What the ladder's predicates read -/

theorem State.up_congr {s t : State} (b : Nat) (hp : t.power = s.power) (hl : t.ladder = s.ladder)
    (hr : t.rd Reg.PWR_STATUS = s.rd Reg.PWR_STATUS) : t.up b = s.up b := by
  simp only [State.up, State.domUp, State.fld, State.regionHeld, State.regRec, hp, hl, hr]

theorem State.blkDue_congr {s t : State} {b : Nat} (hl : t.ladder = s.ladder)
    (hr : t.rd (Reg.ERR_BLK_CFG b) = s.rd (Reg.ERR_BLK_CFG b)) : t.blkDue b = s.blkDue b := by
  simp only [State.blkDue, State.blkRec, State.fld, hl, hr]

theorem State.regDue_congr {s t : State} {r : Nat} (hl : t.ladder = s.ladder)
    (hr : t.rd (Reg.ERR_REG_CFG r) = s.rd (Reg.ERR_REG_CFG r)) : t.regDue r = s.regDue r := by
  simp only [State.regDue, State.regRec, State.fld, hl, hr]

theorem State.inWindow_congr {s t : State} {r : Nat} (hn : t.now = s.now) (ho : (t.regRec r).ordered = (s.regRec r).ordered)
    (hr : t.rd (Reg.ERR_REG_CFG r) = s.rd (Reg.ERR_REG_CFG r)) : t.inWindow r = s.inWindow r := by
  unfold State.inWindow State.fld
  rw [hn, ho, hr]

theorem State.setFlag_regsOnly {l : List Nat} (s : State) {a : Nat} (f : Fld) (b : Bool) (h : a ∈ l) :
    RegsOnly l s (s.setFlag a f b) := s.setFld_regsOnly f _ h

/-- A timer that has expired by now, or expired in this CK_SYS cycle, makes the write that would stop it late (R28). -/
theorem State.lateFor_of_expired {s : State} {due spent : Option Nat}
    (h : s.reached due = true ∨ spent = some (s.now / ticksSys)) : s.lateFor due spent = true := by
  obtain hd | hs := h
  · cases due with
    | none => exact absurd hd nofun
    | some d =>
      have hle : d ≤ s.now := of_decide_eq_true hd
      simp [State.lateFor, Nat.div_le_div_right hle]
  · simp [State.lateFor, hs]

/-! A record takes a fault (R26, R34) -/

/-- A fault is counted and graded in STATUS, and leaves OPEN as it is. -/
theorem State.recordFault_open (s : State) (base blk cell code grade : Nat) (first : Bool) :
    (s.recordFault base blk cell code grade first).flag base F.ERR_REG_STATUS_OPEN =
      s.flag base F.ERR_REG_STATUS_OPEN := by
  have hwr (u : State) {a : Nat} (v : Nat) (ha : base ≠ a) :
      (u.wrNat a v).flag base F.ERR_REG_STATUS_OPEN = u.flag base F.ERR_REG_STATUS_OPEN := by
    rw [State.flag, State.wrNat, State.fld_wr_ne _ _ _ ha]
    rfl
  have hstatus (x : Nat) : ((s.bump base F.ERR_CHIP_STATUS_COUNT).setFld base F.ERR_CHIP_STATUS_GRADE x).flag base
      F.ERR_REG_STATUS_OPEN = s.flag base F.ERR_REG_STATUS_OPEN := by
    rw [State.flag_setFld_off _ _ _ _ _ (by decide) (by decide) (by decide), State.bump,
      State.flag_setFld_off _ _ _ _ _ (by decide) (by decide) (by decide)]
  unfold State.recordFault
  dsimp only
  split
  · rw [hwr _ _ (by omega), hwr _ _ (by omega), hwr _ _ (by omega), hstatus]
  · exact hstatus _

/-! The next grade takes effect (R23, R31, R33) -/

/-- Of the ladder a region reset changes the record of its region alone. -/
theorem orderRegionReset_ladder (r : Nat) (commanded : Bool) (s : State) : (orderRegionReset r commanded s).ladder =
    (s.setRegRec r { s.regRec r with inReset := true, commanded := commanded }).ladder := by
  unfold orderRegionReset
  dsimp only
  rw [(State.resetsMoved_moves _).rest .ladder rfl]
  split
  · exact (resetPowerRegion_moves _).rest .ladder rfl
  · split
    · exact (resetLinkRegion_moves _).rest .ladder rfl
    · split
      · exact (resetLedgerRegion_moves _).rest .ladder rfl
      · exact (resetGuardRegion_moves _).rest .ladder rfl

/-- The state in which ERR_REG[r] has recorded a fault of grade REGION, before the fault takes effect (R26). -/
def State.regionRecorded (s : State) (r blk cell code : Nat) : State :=
  let base := Reg.ERR_REG_STATUS r
  let first := s.becomesFirst base blk cell gradeRegion (s.regRec r).firstCyc
  let u := s.recordFault base blk cell code gradeRegion first
  if first then u.setRegRec r { u.regRec r with firstCyc := some (u.now / ticksSys) } else u

/-- What decides the effect of a REGION, and the effect. -/
theorem State.regionFault_eq (s : State) (r blk cell code : Nat) :
    let base := Reg.ERR_REG_STATUS r
    let u := s.regionRecorded r blk cell code
    let v := u.setFlag base F.ERR_REG_STATUS_OPEN true
    s.regionFault r blk cell code =
      if u.power.chipSafe then u
      else if u.inWindow r then u.chipFault blk cell code
      else if u.flag base F.ERR_REG_STATUS_OPEN then u
      else orderRegionReset r false
        (v.setRegRec r { v.regRec r with timer := some v.now, ordered := some v.now }) := rfl

/-- The recording decides nothing: what the effect depends on is as before, and the records of the blocks are. -/
theorem State.regionRecorded_keeps (s : State) (r blk cell code : Nat) :
    let u := s.regionRecorded r blk cell code
    u.power = s.power ∧ u.inWindow r = s.inWindow r ∧ u.flag (Reg.ERR_REG_STATUS r) F.ERR_REG_STATUS_OPEN =
      s.flag (Reg.ERR_REG_STATUS r) F.ERR_REG_STATUS_OPEN ∧ ∀ b, u.blkRec b = s.blkRec b := by
  unfold State.regionRecorded
  dsimp only
  generalize s.becomesFirst (Reg.ERR_REG_STATUS r) blk cell gradeRegion (s.regRec r).firstCyc = first
  have hmoves := s.recordFault_moves (Reg.ERR_REG_STATUS r) blk cell code gradeRegion first
  have hcfg := (s.recordFault_regsOnly (Reg.ERR_REG_STATUS r) blk cell code gradeRegion first (Reg.ERR_REG_CFG r)
    (by simp [Reg.ERR_REG_CFG, Reg.ERR_REG_STATUS]; omega)).1
  have hopen := s.recordFault_open (Reg.ERR_REG_STATUS r) blk cell code gradeRegion first
  generalize s.recordFault (Reg.ERR_REG_STATUS r) blk cell code gradeRegion first = u at *
  have hladder : u.ladder = s.ladder := hmoves.rest .ladder rfl
  have hnow : u.now = s.now := hmoves.rest .now rfl
  have hreg : u.regRec r = s.regRec r := by simp only [State.regRec, hladder]
  have hblk (b : Nat) : u.blkRec b = s.blkRec b := by simp only [State.blkRec, hladder]
  have hpower : u.power = s.power := hmoves.rest .power rfl
  split
  · exact ⟨hpower, State.inWindow_congr hnow (by simp [hreg]) hcfg, hopen, hblk⟩
  · exact ⟨hpower, State.inWindow_congr hnow (by rw [hreg]) hcfg, hopen, hblk⟩

/-- A REGION resets its region, unless the chip safe state, the repeat window or an open record stands against it. -/
theorem State.regionFault_resets {s : State} {r : Nat} (blk cell code : Nat) (hc : s.power.chipSafe = false)
    (hw : s.inWindow r = false) (ho : s.flag (Reg.ERR_REG_STATUS r) F.ERR_REG_STATUS_OPEN = false) :
    ((s.regionFault r blk cell code).regRec r).inReset = true ∧
      ∀ b, (s.regionFault r blk cell code).blkRec b = s.blkRec b := by
  obtain ⟨hpower, hwindow, hopen, hblk⟩ := s.regionRecorded_keeps r blk cell code
  rw [State.regionFault_eq]
  simp only [hpower, hwindow, hopen, hc, hw, ho, Bool.false_eq_true, if_false]
  constructor
  · rw [State.regRec, orderRegionReset_ladder]
    exact congrArg RegRec.inReset (State.regRec_setRegRec_same ..)
  · intro b
    rw [State.blkRec, orderRegionReset_ladder]
    exact hblk b

theorem chipSafeState_chipSafe (s : State) : (chipSafeState s).power.chipSafe = true := by
  unfold chipSafeState
  dsimp only
  rw [(State.resetsMoved_moves _).rest .power rfl]
  rfl

theorem State.ite_chipSafe (s t : State) : (if s.power.chipSafe then s else chipSafeState t).power.chipSafe = true := by
  split
  next h => exact h
  next => exact chipSafeState_chipSafe t

/-- After a CHIP the chip safe state is in force. -/
theorem State.chipFault_chipSafe (s : State) (blk cell code : Nat) : (s.chipFault blk cell code).power.chipSafe = true :=
  State.ite_chipSafe _ _

/-! The commands -/

theorem exec_errAck {s : State} (b : BlockId) (h : s.acts .ladder) : exec (.errAck b) s = .next (s.errAck (blkNum b)) :=
  congrArg Host.Outcome.next (State.onBlk_up h)

theorem exec_regionUp {s : State} (r : Fin 4) (h : s.acts .ladder) : exec (.regionUp r) s = .next (s.regionUp r.val) :=
  congrArg Host.Outcome.next (State.onBlk_up h)

/-- A clear that comes too late sets LATE and does no more (R28). -/
theorem State.errAck_late {s : State} {b : Nat} (ho : s.flag (Reg.ERR_BLK_STATUS b) F.ERR_BLK_STATUS_OPEN = true)
    (hr : s.flag (Reg.ERR_BLK_CTRL b) F.ERR_BLK_CTRL_RECOVERED = true)
    (hl : s.lateFor (s.blkDue b) (s.blkRec b).spent = true) :
    s.errAck b = s.setFlag (Reg.ERR_BLK_STATUS b) F.ERR_BLK_STATUS_LATE true := by
  simp [State.errAck, ho, hr, hl]

theorem State.regionUp_late {s : State} {r : Nat} (ho : s.flag (Reg.ERR_REG_STATUS r) F.ERR_REG_STATUS_OPEN = true)
    (hr : (s.regRec r).inReset = false) (hl : s.lateFor (s.regDue r) (s.regRec r).spent = true) :
    s.regionUp r = s.setFlag (Reg.ERR_REG_STATUS r) F.ERR_REG_STATUS_LATE true := by
  simp [State.regionUp, ho, hr, hl]

/-- LATE and OPEN of a record after LATE is set: the places of the two are those of every record (R34). -/
theorem State.setLate_flags {s : State} {a : Nat} (ho : s.flag a F.ERR_BLK_STATUS_OPEN = true) :
    (s.setFlag a F.ERR_BLK_STATUS_LATE true).flag a F.ERR_BLK_STATUS_LATE = true ∧
      (s.setFlag a F.ERR_BLK_STATUS_LATE true).flag a F.ERR_BLK_STATUS_OPEN = true :=
  ⟨State.flag_setFlag_same _ _ _ _ (by decide) (by decide),
    (State.flag_setFlag_off _ _ _ _ _ (by decide) (by decide) (by decide)).trans ho⟩

/-- An expired block timer resets the region of its block. -/
theorem blockTimerExpiry_resets {s : State} {b : BlockId} {q : Nat} (h : s.acts .ladder)
    (hd : s.reached (s.blkDue (blkNum b)) = true) (hq : regionOf (blkNum b) = some q) (hc : s.power.chipSafe = false)
    (hw : s.inWindow q = false) (ho : s.flag (Reg.ERR_REG_STATUS q) F.ERR_REG_STATUS_OPEN = false) :
    Answers (.blockTimerExpiry b) s (fun u => (u.regRec q).inReset = true ∧ (u.blkRec (blkNum b)).timer = none) := by
  refine ⟨_, congrArg Host.Outcome.next (State.onBlk_up h), ?_⟩
  simp only [hd, hq, if_true]
  obtain ⟨hreset, hblk⟩ := State.regionFault_resets (r := q) (blkNum b)
    (State.firstCell _ (Reg.ERR_BLK_STATUS (blkNum b))) (State.firstCode _ (Reg.ERR_BLK_STATUS (blkNum b)))
    (s := s.setBlkRec (blkNum b) { s.blkRec (blkNum b) with timer := none, spent := some (s.now / ticksSys) }) hc
    ((State.inWindow_congr rfl rfl rfl).trans hw) ho
  refine ⟨hreset, ?_⟩
  rw [hblk, State.blkRec_setBlkRec_same]

/-- An expired timer of a hub block begins the chip safe state. -/
theorem blockTimerExpiry_chipSafe {s : State} {b : BlockId} (h : s.acts .ladder)
    (hd : s.reached (s.blkDue (blkNum b)) = true) (hq : regionOf (blkNum b) = none) :
    Answers (.blockTimerExpiry b) s (fun u => u.power.chipSafe = true) := by
  refine ⟨_, congrArg Host.Outcome.next (State.onBlk_up h), ?_⟩
  simp only [hd, hq, if_true]
  exact State.chipFault_chipSafe ..

/-- An expired region timer begins the chip safe state. -/
theorem regionTimerExpiry_chipSafe {s : State} {r : Fin 4} (h : s.acts .ladder)
    (hd : s.reached (s.regDue r.val) = true) :
    Answers (.regionTimerExpiry r) s (fun u => u.power.chipSafe = true) := by
  refine ⟨_, congrArg Host.Outcome.next (State.onBlk_up h), ?_⟩
  simp only [hd, if_true]
  exact State.chipFault_chipSafe ..

/-- A write of STATUS of a block's record leaves what the expiry of its timer depends on. -/
theorem State.setFlag_blkStatus_keeps (s : State) (k : Nat) (f : Fld) (v : Bool) :
    let t := s.setFlag (Reg.ERR_BLK_STATUS k) f v
    (∀ b, t.up b = s.up b) ∧ t.blkDue k = s.blkDue k ∧ ∀ q, q < 4 → t.inWindow q = s.inWindow q ∧
      t.flag (Reg.ERR_REG_STATUS q) F.ERR_REG_STATUS_OPEN = s.flag (Reg.ERR_REG_STATUS q) F.ERR_REG_STATUS_OPEN := by
  refine ⟨fun b => State.up_congr b rfl rfl (s.rd_setFld_ne f _ ?_), State.blkDue_congr rfl (s.rd_setFld_ne f _ ?_),
    fun q hq => ⟨State.inWindow_congr rfl rfl (s.rd_setFld_ne f _ ?_), s.flag_setFlag_ne f _ v ?_⟩⟩
  all_goals
    simp only [Reg.PWR_STATUS, Reg.ERR_BLK_CFG, Reg.ERR_BLK_STATUS, Reg.ERR_REG_CFG, Reg.ERR_REG_STATUS]
    omega

/-- A write of STATUS of a region's record leaves what the expiry of its timer depends on. -/
theorem State.setFlag_regStatus_keeps (s : State) (r : Nat) (f : Fld) (v : Bool) :
    let t := s.setFlag (Reg.ERR_REG_STATUS r) f v
    (∀ b, t.up b = s.up b) ∧ t.regDue r = s.regDue r := by
  refine ⟨fun b => State.up_congr b rfl rfl (s.rd_setFld_ne f _ ?_), State.regDue_congr rfl (s.rd_setFld_ne f _ ?_)⟩
  all_goals
    simp only [Reg.PWR_STATUS, Reg.ERR_REG_CFG, Reg.ERR_REG_STATUS]
    omega

theorem regionOf_lt {b q : Nat} (h : regionOf b = some q) : q < 4 := by
  unfold regionOf at h
  split at h
  · cases h
    omega
  · exact absurd h nofun

/-- Settles O13: the late write sets LATE alone, so that the expiry after it finds its timer and what it asks as before. -/
theorem lateClearIsDiscarded : Obligations.LateClearIsDiscarded := by
  intro s b r h k st rt
  constructor
  · intro ho hr he
    obtain ⟨hlate, hopen⟩ := State.setLate_flags ho
    obtain ⟨hup, hdue, hreg⟩ := s.setFlag_blkStatus_keeps k F.ERR_BLK_STATUS_LATE true
    have hacts := (hup _).trans h
    refine ⟨_, (exec_errAck b h).trans (congrArg _ (State.errAck_late ho hr (State.lateFor_of_expired he))),
      ⟨rfl, hlate, hopen, fun hd hc => ⟨fun q hq hw hq' => ?_, fun hq => ?_⟩⟩,
      s.setFlag_regsOnly _ _ (List.mem_singleton_self _)⟩
    · obtain ⟨hwin, hst⟩ := hreg q (regionOf_lt hq)
      exact blockTimerExpiry_resets hacts ((congrArg s.reached hdue).trans hd) hq hc (hwin.trans hw) (hst.trans hq')
    · exact blockTimerExpiry_chipSafe hacts ((congrArg s.reached hdue).trans hd) hq
  · intro ho hr he
    obtain ⟨hlate, hopen⟩ := State.setLate_flags ho
    obtain ⟨hup, hdue⟩ := s.setFlag_regStatus_keeps r.val F.ERR_REG_STATUS_LATE true
    refine ⟨_, (exec_regionUp r h).trans (congrArg _ (State.regionUp_late ho hr (State.lateFor_of_expired he))),
      ⟨rfl, hlate, hopen, fun hd _ => ?_⟩, s.setFlag_regsOnly _ _ (List.mem_singleton_self _)⟩
    exact regionTimerExpiry_chipSafe ((hup _).trans h) ((congrArg s.reached hdue).trans hd)

/-! The region whose UP is logged -/

/-- The reset of the Ledger region has completed and awaits its UP; the logbook is full. -/
def fullLogAwaitsUp : State :=
  (State.reset.setFlag (Reg.ERR_REG_STATUS 2) F.ERR_REG_STATUS_OPEN true).setLedger
    { Ledger.reset with down := false, entries := logFull, resetAt := some 0 }

/-- The UP of the Ledger region counts entry 0x06 of R361, for which there is no room, in MET_LOG.MISSED. -/
theorem regionUp_counts_missed :
    (fullLogAwaitsUp.regionUp 2).fld Reg.MET_LOG F.MET_LOG_MISSED = 1 ∧
      fullLogAwaitsUp.fld Reg.MET_LOG F.MET_LOG_MISSED = 0 := by decide +kernel

theorem fullLogAwaitsUp_meets : fullLogAwaitsUp.acts .ladder ∧
    fullLogAwaitsUp.flag (Reg.ERR_REG_STATUS 2) F.ERR_REG_STATUS_OPEN = true ∧ (fullLogAwaitsUp.regRec 2).inReset = false ∧
      fullLogAwaitsUp.lateFor (fullLogAwaitsUp.regDue 2) (fullLogAwaitsUp.regRec 2).spent = false := by decide +kernel

/-- Refutes O12: REGION_UP of the Ledger region writes a register beside ERR_REG[2].STATUS, as R361 logs the reset. -/
theorem not_ladderRecordsAreCleared : ¬ Obligations.LadderRecordsAreCleared := by
  intro h
  obtain ⟨hacts, hopen, hout, hlate⟩ := fullLogAwaitsUp_meets
  obtain ⟨-, -, -, hup, -⟩ := h fullLogAwaitsUp .loom 2 hacts
  obtain ⟨t, ht, -, hregs⟩ := hup ⟨hopen, hout, hlate⟩
  have ht' : fullLogAwaitsUp.regionUp 2 = t := Host.Outcome.next.inj ((exec_regionUp 2 hacts).symm.trans ht)
  obtain ⟨hcounted, hbefore⟩ := regionUp_counts_missed
  have hsame := (hregs Reg.MET_LOG (by decide)).1
  rw [ht', State.fld, hsame] at hcounted
  exact absurd (hbefore.symm.trans hcounted) (by decide)

end Sys2Proof.Machine
end

section
/-!
PROOFS. Fabric transactions: what faults and grants leave of those that are over, the context whose access ends, the bank of
shared SRAM that serves one, and the commands that end it.
-/
set_option Elab.async false
namespace Sys2Proof.Machine

/-! The terminated transactions whose response is owed: faults, traps and grants leave them as they are -/

theorem Moves.owed {fs : List Part} {s t : State} (h : Moves fs s t) (hf : fs.contains .fabric = false) :
    t.fabric.owed = s.fabric.owed := congrArg Fabric.owed (h.rest .fabric hf)

@[simp] theorem State.captureBusError_owed (s : State) (slot a kind : Nat) (write : Bool) :
    (s.captureBusError slot a kind write).fabric.owed = s.fabric.owed := (s.captureBusError_moves ..).owed rfl

@[simp] theorem State.recordFault_owed (s : State) (base blk cell code grade : Nat) (first : Bool) :
    (s.recordFault base blk cell code grade first).fabric.owed = s.fabric.owed := (s.recordFault_moves ..).owed rfl

@[simp] theorem State.recordBlk_owed (s : State) (blk cell code grade : Nat) :
    (s.recordBlk blk cell code grade).fabric.owed = s.fabric.owed := (s.recordBlk_moves ..).owed rfl

@[simp] theorem State.markCell_owed (s : State) (blk cell : Nat) : (s.markCell blk cell).fabric.owed = s.fabric.owed :=
  (s.markCell_moves ..).owed rfl

@[simp] theorem State.refreshOuts_owed (s : State) : s.refreshOuts.fabric.owed = s.fabric.owed :=
  s.refreshOuts_moves.owed rfl

@[simp] theorem State.resetsMoved_owed (s : State) : s.resetsMoved.fabric.owed = s.fabric.owed :=
  s.resetsMoved_moves.owed rfl

@[simp] theorem State.haltIfDone_owed (s : State) (k : Nat) : (s.haltIfDone k).fabric.owed = s.fabric.owed :=
  (s.haltIfDone_moves k).owed rfl

@[simp] theorem State.restartCtx_owed (s : State) (k : Nat) : (s.restartCtx k).fabric.owed = s.fabric.owed :=
  (s.restartCtx_moves k).owed rfl

/-- The chip safe state closes the fabric and forgets nothing that it owes. -/
@[simp] theorem chipSafeState_owed (s : State) : (chipSafeState s).fabric.owed = s.fabric.owed := by
  unfold chipSafeState
  rw [State.resetsMoved_owed]
  rfl

@[simp] theorem State.chipFault_owed (s : State) (blk cell code : Nat) :
    (s.chipFault blk cell code).fabric.owed = s.fabric.owed := by
  unfold State.chipFault
  dsimp only
  split <;> split <;> simp

@[simp] theorem State.chip_owed (s : State) (blk cell code : Nat) : (s.chip blk cell code).fabric.owed = s.fabric.owed := by
  simp [State.chip]

/-- A pair fault stops the pair's contexts and outputs; what reaches the fabric is its CHIP. -/
@[simp] theorem State.pairFault_owed (s : State) (code : Nat) : (s.pairFault code).fabric.owed = s.fabric.owed := by
  unfold State.pairFault
  rw [State.chip_owed]
  refine Moves.owed (fs := [.regs, .weft, .selv, .sense])
    (Moves.foldl (fun t k => (t.setCtx_moves k _).mono ⟨rfl⟩) (Moves.step (State.refreshOuts_moves _) ⟨rfl⟩
      (Moves.step (State.setSelv_moves _ _) ⟨rfl⟩ (Moves.ite (Moves.refl s)
        (Moves.step (State.setFld_moves ..) ⟨rfl⟩ ((s.setFld_moves ..).mono ⟨rfl⟩)))))) rfl

@[simp] theorem State.doubleTrap_owed (s : State) (k code : Nat) : (s.doubleTrap k code).fabric.owed = s.fabric.owed := by
  unfold State.doubleTrap
  dsimp only
  split <;> simp

@[simp] theorem State.takeTrap_owed (s : State) (k code : Nat) (value resume : Word) (imprecise : Bool) :
    (s.takeTrap k code value resume imprecise).fabric.owed = s.fabric.owed := by
  unfold State.takeTrap
  dsimp only
  split
  · split <;> simp
  · split <;> simp

@[simp] theorem State.boundary_owed (s : State) (k : Nat) : (s.boundary k).fabric.owed = s.fabric.owed := by
  unfold State.boundary
  dsimp only
  split <;> simp

@[simp] theorem State.accessDone_owed (s : State) (k : Nat) (x : Context) :
    (s.accessDone k x).fabric.owed = s.fabric.owed := by
  unfold State.accessDone
  dsimp only
  split <;> simp

@[simp] theorem State.posted_owed (s : State) (x : Xact) : (s.posted x).fabric.owed = s.fabric.owed := by
  unfold State.posted
  split
  · split <;> simp
  · rfl

@[simp] theorem State.grantOne_owed (s : State) : s.grantOne.fabric.owed = s.fabric.owed := by
  unfold State.grantOne
  split
  · simp
  · rfl

@[simp] theorem State.grants_owed (s : State) : s.grants.fabric.owed = s.fabric.owed := by
  unfold State.grants
  generalize List.range s.fabric.waiting.length = l
  induction l generalizing s with
  | nil => rfl
  | cons _ l ih => exact (ih _).trans s.grantOne_owed

@[simp] theorem State.goOn_owed (s : State) (k : Nat) (x : Context) : (s.goOn k x).fabric.owed = s.fabric.owed := by
  simp [State.goOn]

@[simp] theorem State.barDone_owed (s : State) (k : Nat) : (s.barDone k).fabric.owed = s.fabric.owed := by
  unfold State.barDone
  dsimp only
  split
  · split <;> simp
  · rfl

@[simp] theorem State.settle_owed (s : State) (k : Nat) : (s.settle k).fabric.owed = s.fabric.owed := by
  unfold State.settle
  dsimp only
  split <;> simp

@[simp] theorem State.loadFailed_owed (s : State) (k : Nat) (addr : Word) :
    (s.loadFailed k addr).fabric.owed = s.fabric.owed := by
  unfold State.loadFailed
  dsimp only
  split <;> simp [State.trapHere]

@[simp] theorem State.storeFailed_owed (s : State) (k : Nat) (addr : Word) :
    (s.storeFailed k addr).fabric.owed = s.fabric.owed := by
  unfold State.storeFailed
  dsimp only
  split <;> simp

@[simp] theorem State.failed_owed (s : State) (x : Xact) : (s.failed x).fabric.owed = s.fabric.owed := by
  unfold State.failed
  split
  · split <;> simp
  · rfl

/-! A context whose access is over (R44, R46, R58, R81) -/

/-- From `x` to `y` a context keeps what a halt leaves: its registers, its PC, STATUS and the address of a failed store. -/
structure Context.Keeps (x y : Context) : Prop where
  w : y.w = x.w
  pc : y.pc = x.pc
  status : y.status = x.status
  busAddr : y.busAddr = x.busAddr
  stall : y.stall = x.stall

theorem Context.Keeps.refl (x : Context) : x.Keeps x := ⟨rfl, rfl, rfl, rfl, rfl⟩

theorem Context.Keeps.trans {x y z : Context} (h : x.Keeps y) (k : y.Keeps z) : x.Keeps z :=
  ⟨k.w.trans h.w, k.pc.trans h.pc, k.status.trans h.status, k.busAddr.trans h.busAddr, k.stall.trans h.stall⟩

theorem State.haltIfDone_keeps (s : State) (k : Nat) : (s.ctx k).Keeps ((s.haltIfDone k).ctx k) := by
  unfold State.haltIfDone
  dsimp only
  split
  · rw [State.ctx_setCtx_same]
    exact ⟨rfl, rfl, rfl, rfl, rfl⟩
  · exact Context.Keeps.refl _

/-- No imprecise bus error is taken where none waits, or in a trap. -/
theorem State.boundary_quiet {s : State} {k : Nat} (h : (s.ctx k).busPend = false ∨ (s.ctx k).inTrap = true) :
    s.boundary k = s := by
  obtain h | h := h <;> simp [State.boundary, h]

/-- A context that waits in no BAR does not go on by itself. -/
theorem State.barDone_of_stall {s : State} {k : Nat} (h : (s.ctx k).stall = .none) : s.barDone k = s := by
  simp [State.barDone, h]

theorem State.grants_idle {s : State} (h : s.fabric.waiting = []) : s.grants = s := by simp [State.grants, h]

theorem State.settle_idle {s : State} {k : Nat} (h : s.fabric.waiting = []) (hk : k < 40) :
    s.settle k = (s.barDone k).haltIfDone k := by simp [State.settle, State.grants_idle h, hk]

theorem State.settle_outside {s : State} {k : Nat} (h : s.fabric.waiting = []) (hk : 40 ≤ k) : s.settle k = s := by
  simp [State.settle, State.grants_idle h, Nat.not_lt.2 hk]

/-- A context that no bus error waits for goes on as `x`, no longer stalled. -/
theorem State.accessDone_keeps {s : State} {k : Nat} {x : Context} (hr : x.restarting = false) (hb : x.busPend = false) :
    ({ x with stall := .none } : Context).Keeps ((s.accessDone k x).ctx k) ∧
      Moves [.weft] s (s.accessDone k x) := by
  have hquiet : (s.setCtx k { x with stall := .none }).boundary k = s.setCtx k { x with stall := .none } :=
    State.boundary_quiet (.inl (by rw [State.ctx_setCtx_same]; exact hb))
  have hdone : s.accessDone k x = (s.setCtx k { x with stall := .none }).haltIfDone k := by
    unfold State.accessDone
    dsimp only
    rw [if_neg (by simp [hr]), hquiet]
  rw [hdone]
  constructor
  · simpa using (s.setCtx k { x with stall := .none }).haltIfDone_keeps k
  · exact (s.setCtx_moves k _).trans (State.haltIfDone_moves ..)

/-- The response of a load gives its word to the context, which goes on. -/
theorem State.loaded_settles {s : State} {k : Nat} (d : Nat) (v : Word) (hk : k < 40) (hr : (s.ctx k).restarting = false)
    (hb : (s.ctx k).busPend = false) (hw : s.fabric.waiting = []) :
    let t := (s.loaded k d v).settle k
    (∀ i, (t.ctx k).reg i = if i = d ∧ d ≠ 0 then v else (s.ctx k).reg i) ∧ (t.ctx k).pc = (s.ctx k).pc + 4 ∧
      t.mem = s.mem := by
  obtain ⟨hputs, hrest⟩ := puts_advance (s.ctx k) d v
  generalize hy : ((s.ctx k).put d v).advance = y at hputs hrest
  have hload : s.loaded k d v = s.accessDone k y := by rw [State.loaded, hy]
  obtain ⟨hkeeps, hmoves⟩ := State.accessDone_keeps (s := s) (k := k) (x := y) (by rw [hrest]; exact hr)
    (by rw [hrest]; exact hb)
  have hwait : (s.accessDone k y).fabric.waiting = [] := (congrArg Fabric.waiting (hmoves.rest .fabric rfl)).trans hw
  have hsettle : (s.loaded k d v).settle k = (s.accessDone k y).haltIfDone k := by
    rw [hload, State.settle_idle hwait hk, State.barDone_of_stall hkeeps.stall]
  have hall := hkeeps.trans ((s.accessDone k y).haltIfDone_keeps k)
  rw [hsettle]
  refine ⟨fun i => ?_, ?_, ?_⟩
  · rw [← hputs i, Context.reg, hall.w]
    rfl
  · rw [hall.pc, hrest]
  · exact (hmoves.trans (State.haltIfDone_moves ..)).rest .mem rfl

/-- In a trap no bus error stands in the way of going on. -/
theorem State.goOn_inTrap (s : State) (k : Nat) {x : Context} (h : x.inTrap = true) :
    ((s.goOn k x).ctx k).status = x.status ∧ ((s.goOn k x).ctx k).busAddr = x.busAddr ∧ Moves [.weft] s (s.goOn k x) := by
  have hkeeps := (s.setCtx k x.advance).haltIfDone_keeps k
  rw [State.ctx_setCtx_same] at hkeeps
  rw [State.goOn, State.boundary_quiet (.inr (by rw [State.ctx_setCtx_same]; exact h))]
  exact ⟨hkeeps.status, hkeeps.busAddr, (s.setCtx_moves k _).trans (State.haltIfDone_moves ..)⟩

/-- A BAR that has waited for the last access of a context in a trap leaves its STATUS and the address of a failed store. -/
theorem State.barDone_inTrap {s : State} {k : Nat} (h : (s.ctx k).inTrap = true) :
    ((s.barDone k).ctx k).status = (s.ctx k).status ∧ ((s.barDone k).ctx k).busAddr = (s.ctx k).busAddr ∧
      Moves [.weft] s (s.barDone k) := by
  unfold State.barDone
  simp only [State.boundary_quiet (.inr h)]
  split
  · split
    · exact s.goOn_inTrap k (x := { s.ctx k with stall := .none }) h
    · exact ⟨rfl, rfl, Moves.refl s⟩
  · exact ⟨rfl, rfl, Moves.refl s⟩

/-- BUSPEND is set, and no other bit that a trap looks at. -/
theorem busPend_set (v : Word) : (v ||| 0x4000).getLsbD 14 = true ∧ (v ||| 0x4000).getLsbD 8 = v.getLsbD 8 := by
  constructor <;> simp

/-- The error response of a store that meets a context in a trap waits there in BUSPEND, with its address. -/
theorem State.storeFailed_settles {s : State} {k : Nat} (addr : Word) (hk : k < 40) (hb : (s.ctx k).busPend = false)
    (ht : (s.ctx k).inTrap = true) (hw : s.fabric.waiting = []) :
    let t := (s.storeFailed k addr).settle k
    (t.ctx k).busPend = true ∧ (t.ctx k).busAddr = addr ∧ t.fabric = s.fabric := by
  have hset := busPend_set (s.ctx k).status
  generalize hx : ({ s.ctx k with status := (s.ctx k).status ||| 0x4000, busAddr := addr } : Context) = x
  have hpend : x.busPend = true := by rw [← hx]; exact hset.1
  have htrap : x.inTrap = true := by rw [← hx]; exact hset.2.trans ht
  have haddr : x.busAddr = addr := by rw [← hx]
  have hstore : s.storeFailed k addr = s.setCtx k x := by
    simp only [State.storeFailed, hb, Bool.false_eq_true, if_false, hx]
    exact State.boundary_quiet (.inr (by rw [State.ctx_setCtx_same]; exact htrap))
  obtain ⟨hstatus, hbus, hmoves⟩ := State.barDone_inTrap (s := s.setCtx k x) (k := k)
    (by rw [State.ctx_setCtx_same]; exact htrap)
  rw [State.ctx_setCtx_same] at hstatus hbus
  have hkeeps := ((s.setCtx k x).barDone k).haltIfDone_keeps k
  rw [hstore, State.settle_idle (s := s.setCtx k x) hw hk]
  refine ⟨?_, ?_, ?_⟩
  · rw [Context.busPend, hkeeps.status, hstatus]
    exact hpend
  · rw [hkeeps.busAddr, hbus, haddr]
  · exact (((s.setCtx_moves k x).trans hmoves).trans (State.haltIfDone_moves ..)).rest .fabric rfl

/-! Shared SRAM at its port (R14, R46, R551) -/

theorem State.num_congr {s t : State} (h : t.mem = s.mem) (a n : Nat) : t.num a n = s.num a n := by
  simp only [State.num, State.bytes, h]

theorem BytesOnly.congr {f : Nat → Bool} {s t s' t' : State} (h : BytesOnly f s t) (hs : s.mem = s'.mem)
    (ht : t.mem = t'.mem) : BytesOnly f s' t' := by
  intro b hb
  have hbytes := h b hb
  simp only [State.bytes, hs, ht] at hbytes
  simpa only [State.bytes] using hbytes

theorem State.answers_of_sram {s : State} {a : Nat} (n : Nat) (ha : inSram a = true) (hu : s.acts .sram) :
    s.answers a n = true := by
  have hblock : blockAt a = blkNum .sram := by simp [blockAt, ha, blkNum]
  simp [State.answers, hblock, hu]

/-- A posted store of a word that meets shared SRAM writes it there. -/
theorem State.complete_store_sram {s : State} (k : Nat) {x : Xact} {v : Word} (hk : x.kind = .store 4 v)
    (hs : inSram x.addr.toNat = true) (ha : x.addr.toNat % 4 = 0) :
    (s.complete k x).mem = (s.putNum x.addr.toNat 4 v.toNat).mem := by
  have hlow : v.toNat % 2 ^ (8 * 4) = v.toNat := Nat.mod_eq_of_lt v.isLt
  have hwrite : s.fabWrite x.slot x.addr.toNat 4 v =
      (true, (s.rewriteWord x.addr.toNat).putNum x.addr.toNat 4 v.toNat) := by
    simp only [State.fabWrite, State.refused_of_inSram hs ha, hs, State.checkWrite, hlow, Bool.false_eq_true, if_false,
      if_true]
  have hmem : (s.rewriteWord x.addr.toNat).mem = s.mem := (s.rewriteWord_moves _).rest .mem rfl
  have hcomplete : s.complete k x = ((((s.rewriteWord x.addr.toNat).putNum x.addr.toNat 4 v.toNat).dropOut k).served
      x).settle x.ctx := by
    unfold State.complete
    simp only [hk, hwrite, Bool.true_or, if_true]
  rw [hcomplete, (State.settle_moves ..).rest .mem rfl]
  exact congrArg (fun m => memPut m _ _) hmem

/-- A load that meets shared SRAM reads the word there, which passes its check, and changes no more than its check bits. -/
theorem State.fabRead_sram {s : State} (slot : Nat) {a n : Nat} (hs : inSram a = true) (ha : a % n = 0)
    (hd : s.damage a = .none) (hu : s.unknown a = false) :
    ∃ u, s.fabRead slot a n = (some (s.num a n), u) ∧ Moves [.ecc] s u := by
  have hread : ∃ u, s.eccReadBack a = u ∧ Moves [.ecc] s u := by
    have hb : bankOf a = .sram (sramBank a) := by simp [bankOf, hs]
    refine ⟨_, rfl, ?_⟩
    unfold State.eccReadBack
    split
    · simp only [hb]
      exact s.setEcc_moves _
    · exact Moves.refl s
  obtain ⟨u, hu', hmoves⟩ := hread
  refine ⟨u, ?_, hmoves⟩
  simp [State.fabRead, State.refused_of_inSram hs ha, hs, State.checkRead_good hd hu, hu',
    State.num_congr (hmoves.rest .mem rfl)]

/-- A load of a word of shared SRAM that passes its check ends with the word in w[d]. -/
theorem State.complete_load_sram {s : State} (k : Nat) {x : Xact} {d n : Nat} {sx : Bool} (hk : x.kind = .load d n sx)
    (hs : inSram x.addr.toNat = true) (ha : x.addr.toNat % n = 0) (hd : s.damage x.addr.toNat = .none)
    (hu : s.unknown x.addr.toNat = false) (hx : x.ctx < 40) (hr : (s.ctx x.ctx).restarting = false)
    (hb : (s.ctx x.ctx).busPend = false) (hw : s.fabric.waiting = []) :
    let t := s.complete k x
    (∀ i, (t.ctx x.ctx).reg i =
      if i = d ∧ d ≠ 0 then extend n sx (s.num x.addr.toNat n) else (s.ctx x.ctx).reg i) ∧
      (t.ctx x.ctx).pc = (s.ctx x.ctx).pc + 4 ∧ t.mem = s.mem := by
  obtain ⟨u, hread, hmoves⟩ := State.fabRead_sram (s := (s.dropOut k).served x) x.slot hs ha hd hu
  have hmem : u.mem = s.mem := hmoves.rest .mem rfl
  have hctx : u.ctx x.ctx = s.ctx x.ctx := ctx_of_weft (hmoves.rest .weft rfl) x.ctx
  have hwait : u.fabric.waiting = [] := (congrArg Fabric.waiting (hmoves.rest .fabric rfl)).trans hw
  have hcomplete : s.complete k x = (u.loaded x.ctx d (extend n sx (s.num x.addr.toNat n))).settle x.ctx := by
    unfold State.complete
    simp only [hk, hread, State.readBack, Nat.not_le.2 hx, if_false]
    rfl
  rw [hcomplete, ← hctx, ← hmem]
  exact State.loaded_settles d _ hx (hctx ▸ hr) (hctx ▸ hb) hwait

/-! What a fault writes of the registers (R26, R34) -/

theorem State.markCell_regsOnly (s : State) (b cell : Nat) :
    RegsOnly [Reg.ERR_BLK_CELLS_LO b, Reg.ERR_BLK_CELLS_HI b] s (s.markCell b cell) := by
  unfold State.markCell
  split
  · exact s.setFld_regsOnly _ _ (by simp)
  · split
    · exact s.setFld_regsOnly _ _ (by simp)
    · exact RegsOnly.refl _ _

theorem State.rd_setFlag_ne (s : State) {a b : Nat} (f : Fld) (v : Bool) (h : b ≠ a) : (s.setFlag a f v).rd b = s.rd b :=
  s.rd_setFld_ne f _ h

theorem State.rd_setBlkRec (s : State) (b : Nat) (v : BlkRec) (a : Nat) : (s.setBlkRec b v).rd a = s.rd a := rfl

theorem State.flag_setBlkRec (s : State) (b : Nat) (v : BlkRec) (a : Nat) (f : Fld) :
    (s.setBlkRec b v).flag a f = s.flag a f := rfl

/-- A CONTAIN writes the record of its block, which lies above every register of the fabric root. -/
theorem State.contain_rd (s : State) (b cell code : Nat) {a : Nat} (ha : a < Reg.ERR_BLK_STATUS 0) :
    (s.contain b cell code).rd a = s.rd a := by
  have hlo : a ∉ recordRegs b ∧ a ∉ [Reg.ERR_BLK_CELLS_LO b, Reg.ERR_BLK_CELLS_HI b] ∧ a ≠ Reg.ERR_BLK_STATUS b ∧
      a ≠ Reg.ERR_BLK_CTRL b := by
    simp only [recordRegs, Reg.ERR_BLK_STATUS, Reg.ERR_BLK_CELLS_LO, Reg.ERR_BLK_CELLS_HI, Reg.ERR_BLK_CTRL,
      List.mem_cons, List.not_mem_nil, or_false] at ha ⊢
    omega
  obtain ⟨hrecord, hcells, hstatus, hctrl⟩ := hlo
  have hnoted : ((s.recordBlk b cell code gradeContain).markCell b cell).rd a = s.rd a :=
    ((State.markCell_regsOnly _ b cell a hcells).1).trans (s.recordBlk_regsOnly b cell code gradeContain a hrecord).1
  unfold State.contain
  simp only [Bool.false_eq_true, if_false]
  split
  · exact hnoted
  · rw [State.rd_setBlkRec, State.rd_setFlag_ne _ _ _ hctrl, State.rd_setFlag_ne _ _ _ hstatus, hnoted]

/-- After a CONTAIN the record of its block is open. -/
theorem State.contain_open (s : State) (b cell code : Nat) :
    (s.contain b cell code).flag (Reg.ERR_BLK_STATUS b) F.ERR_BLK_STATUS_OPEN = true := by
  have hne : Reg.ERR_BLK_STATUS b ≠ Reg.ERR_BLK_CTRL b := by simp [Reg.ERR_BLK_STATUS, Reg.ERR_BLK_CTRL]
  unfold State.contain
  simp only [Bool.false_eq_true, if_false]
  split
  next h => exact h
  next =>
    rw [State.flag_setBlkRec, State.flag_setFlag_ne _ _ _ _ hne]
    exact State.flag_setFlag_same _ _ _ _ (by decide) (by decide)

/-- KIND of the capture of a transaction that timed out: its slot lies below the field. -/
theorem timeout_kind {slot : Nat} (h : slot < 19) (write : Bool) :
    F.FAB_ERR_INFO_KIND.get (BitVec.ofNat 32 (slot + 2 * 256 + bit01 write * 1024)) = 2 := by
  have hbit : bit01 write ≤ 1 := by cases write <;> decide
  simp only [Fld.get, F.FAB_ERR_INFO_KIND, BitVec.toNat_ofNat]
  omega

/-! The commands -/

theorem exec_fabricResponse {s : State} {k : Fin 128} {x : Xact} (h : s.acts .fabric)
    (hg : s.fabric.out[k.val]? = some x) : exec (.fabricResponse k) s =
      .next (if !x.failed && s.granted k.val x && s.answers x.addr.toNat x.bytes then s.complete k.val x else s) :=
  congrArg Host.Outcome.next ((State.onBlk_up h).trans (by simp only [hg]))

/-- The response of a transaction that holds the grant of a bank of shared SRAM is its completion. -/
theorem exec_fabricResponse_sram {s : State} {k : Fin 128} {x : Xact} (h : s.acts .fabric)
    (hg : s.fabric.out[k.val]? = some x) (hf : x.failed = false) (hgrant : s.granted k.val x = true)
    (hs : inSram x.addr.toNat = true) (hu : s.acts .sram) :
    exec (.fabricResponse k) s = .next (s.complete k.val x) := by
  rw [exec_fabricResponse h hg]
  simp [hf, hgrant, State.answers_of_sram x.bytes hs hu]

theorem State.granted_oldest {s : State} {k : Nat} {x : Xact} (h : s.granted k x = true) : s.oldest k x = true := by
  simp only [State.granted, Bool.and_eq_true] at h
  exact h.1.1

/-- The response of a transaction that does not hold its grant is not yet there. -/
theorem exec_fabricResponse_early {s : State} {k : Fin 128} {x : Xact} (h : s.acts .fabric)
    (hg : s.fabric.out[k.val]? = some x) (hn : s.granted k.val x = false) : exec (.fabricResponse k) s = .next s := by
  rw [exec_fabricResponse h hg]
  simp [hn]

theorem exec_fabricResponse_owed {s : State} {k : Fin 128} {x : Xact} (h : s.acts .fabric)
    (hk : s.fabric.out.length ≤ k.val) (ho : s.fabric.owed[k.val - s.fabric.out.length]? = some x) :
    exec (.fabricResponse k) s = .next (s.discard (k.val - s.fabric.out.length) x) :=
  congrArg Host.Outcome.next ((State.onBlk_up h).trans (by simp only [List.getElem?_eq_none hk, ho]))

/-- The late response of a terminated transaction is taken off those owed and has no effect on memory. -/
theorem State.discard_owed {s : State} {k : Nat} {x : Xact} (hu : s.up (blockAt x.addr.toNat) = true) :
    let t := s.discard k x
    t.fabric.owed = s.fabric.owed.eraseIdx k ∧ t.fabric.out = s.fabric.out ∧ t.mem = s.mem := by
  have hmoves (u : State) (c : Nat) := u.recoversCell_moves (blockAt x.addr.toNat) c 0xFF
  unfold State.discard
  simp only [hu, if_true]
  split
  · have hfabric := (hmoves (s.setFabric { s.fabric with owed := s.fabric.owed.eraseIdx k }) 0xF2).rest .fabric rfl
    exact ⟨(congrArg Fabric.owed hfabric :), (congrArg Fabric.out hfabric :), (hmoves _ _).rest .mem rfl⟩
  · exact ⟨rfl, rfl, rfl⟩

theorem exec_busStoreError {s : State} {k : Fin 128} {x : Xact} (h : s.acts .fabric)
    (hg : s.fabric.out[k.val]? = some x) (hf : x.failed = true) :
    exec (.busStoreError k) s = .next (((s.dropOut k.val).failed x).settle x.ctx) :=
  congrArg Host.Outcome.next ((State.onBlk_up h).trans (by simp only [hg, hf, if_true]))

/-- The state in which transaction `x`, at place `k`, has been terminated and captured, and its response is owed (R21). -/
def State.terminated (s : State) (k : Nat) (x : Xact) (write : Bool) : State :=
  let u := ((s.dropOut k).served x).captureBusError x.slot x.addr.toNat 2 write
  u.setFabric { u.fabric with owed := u.fabric.owed ++ [x] }

theorem exec_transactionTimeout_due {s : State} {k : Fin 128} {x : Xact} (h : s.acts .fabric)
    (hg : s.fabric.out[k.val]? = some x) (hf : x.failed = false) (hd : s.xactDue x ≤ s.now) :
    ∃ write, exec (.transactionTimeout k) s =
      .next ((((s.terminated k.val x write).contain (blockAt x.addr.toNat) 0xFF 0xF2).failed x).settle x.ctx) :=
  ⟨_, congrArg Host.Outcome.next ((State.onBlk_up h).trans (by
    simp only [hg, hf, hd, decide_true, Bool.not_false, Bool.and_self, if_true]
    rfl))⟩

theorem exec_transactionTimeout_early {s : State} {k : Fin 128} {x : Xact} (h : s.acts .fabric)
    (hg : s.fabric.out[k.val]? = some x) (hd : s.now < s.xactDue x) : exec (.transactionTimeout k) s = .next s :=
  congrArg Host.Outcome.next ((State.onBlk_up h).trans (by simp [hg, Nat.not_le.2 hd]))

theorem State.terminated_owed (s : State) (k : Nat) (x : Xact) (write : Bool) :
    (s.terminated k x write).fabric.owed = s.fabric.owed ++ [x] :=
  congrArg (· ++ [x]) (State.captureBusError_owed ..)

theorem exec_arbitrationPromotion_waiting {s : State} {j : Nat} {x : Xact} (h : s.acts .fabric)
    (hg : s.fabric.waiting[j]? = some x) : exec (.arbitrationPromotion j) s =
      .next (if x.since + 1024 * ticksSys ≤ s.now then
        s.setFabric { s.fabric with waiting := s.fabric.waiting.set j { x with promoted := true } } else s) :=
  congrArg Host.Outcome.next ((State.onBlk_up h).trans (by simp only [hg, decide_eq_true_eq]))

theorem exec_arbitrationPromotion_out {s : State} {j : Nat} {x : Xact} (h : s.acts .fabric)
    (hj : s.fabric.waiting.length ≤ j) (hg : s.fabric.out[j - s.fabric.waiting.length]? = some x)
    (hd : x.since + 1024 * ticksSys ≤ s.now) : exec (.arbitrationPromotion j) s =
      .next (s.setFabric { s.fabric with
        out := s.fabric.out.set (j - s.fabric.waiting.length) { x with promoted := true } }) :=
  congrArg Host.Outcome.next ((State.onBlk_up h).trans (by
    simp only [List.getElem?_eq_none hj, hg, hd, decide_true, if_true]))

/-- Of a transaction that no context issued, a timeout leaves the capture, the open record and the response owed. -/
theorem transactionTimeout_outside {s : State} {k : Fin 128} {x : Xact} (h : s.acts .fabric)
    (hg : s.fabric.out[k.val]? = some x) (hf : x.failed = false) (hd : s.xactDue x ≤ s.now) (hx : 40 ≤ x.ctx)
    (hslot : x.slot < 19) (hw : s.fabric.waiting = []) :
    Answers (.transactionTimeout k) s (fun t => t.fabric.owed = s.fabric.owed ++ [x] ∧ t.rd Reg.FAB_ERR_ADDR = x.addr ∧
      F.FAB_ERR_INFO_KIND.get (t.rd Reg.FAB_ERR_INFO) = 2 ∧
      t.flag (Reg.ERR_BLK_STATUS (blockAt x.addr.toNat)) F.ERR_BLK_STATUS_OPEN = true) := by
  obtain ⟨write, hexec⟩ := exec_transactionTimeout_due h hg hf hd
  have hfabric : ((s.terminated k.val x write).contain (blockAt x.addr.toNat) 0xFF 0xF2).fabric =
      (s.terminated k.val x write).fabric := State.contain_fabric ..
  have hwait : (s.terminated k.val x write).fabric.waiting = [] :=
    (congrArg Fabric.waiting ((State.captureBusError_moves ..).rest .fabric rfl)).trans hw
  have hfailed (u : State) : u.failed x = u := by simp [State.failed, Nat.not_lt.2 hx]
  rw [hfailed, State.settle_outside ((congrArg Fabric.waiting hfabric).trans hwait) hx] at hexec
  refine ⟨_, hexec, ?_, ?_, ?_, State.contain_open ..⟩
  · rw [hfabric, State.terminated_owed]
  · rw [State.contain_rd _ _ _ _ (by decide)]
    exact State.captureBusError_addr ..
  · rw [State.contain_rd _ _ _ _ (by decide)]
    exact (congrArg _ (State.captureBusError_info ..)).trans (timeout_kind hslot write)

/-- Settles O10, clause by clause: where the transaction stands decides what its response or its timeout does. -/
theorem fabricTransactionsEnd : Obligations.FabricTransactionsEnd := by
  intro s k x v d size j sx h a g
  refine ⟨?_, ?_, ?_, ?_, ?_, ?_, ?_, ?_, ?_, ?_, ?_⟩
  · rintro ⟨hg, hk, hf, hgrant, hs, ha, hu⟩
    have hmem := State.complete_store_sram (s := s) k.val hk hs ha
    refine ⟨_, exec_fabricResponse_sram h hg hf hgrant hs hu, ?_, ?_⟩
    · rw [State.num_congr hmem, State.num_putNum]
      exact Nat.mod_eq_of_lt v.isLt
    · exact (s.putNum_bytesOnly a 4 v.toNat).congr rfl hmem.symm
  · rintro ⟨hg, hk, hf, hgrant, hu, hs, -, ha, hup, hx, hd, hr, hb, hw⟩
    exact ⟨_, exec_fabricResponse_sram h hg hf hgrant hs hup, State.complete_load_sram k.val hk hs ha hd hu hx hr hb hw⟩
  · rintro ⟨hg, hn⟩
    have hungranted : s.granted k.val x = false :=
      hn.elim (fun ho => Bool.eq_false_iff.2 (fun hgr => by simp [State.granted_oldest hgr] at ho)) id
    exact ⟨s, exec_fabricResponse_early h hg hungranted, rfl⟩
  · rintro ⟨hk, ho, hu⟩
    exact ⟨_, exec_fabricResponse_owed h hk ho, State.discard_owed hu⟩
  · rintro ⟨hg, hf, hk, hx, hb, ht, hw⟩
    obtain ⟨hpend, haddr, hfab⟩ := State.storeFailed_settles (s := s.dropOut k.val) x.addr hx hb ht hw
    have hfailed : (s.dropOut k.val).failed x = (s.dropOut k.val).storeFailed x.ctx x.addr := by
      simp only [State.failed, hx, if_true, hk]
    refine ⟨_, exec_busStoreError h hg hf, ?_⟩
    rw [hfailed]
    exact ⟨hpend, haddr, congrArg Fabric.out hfab⟩
  · rintro ⟨hg, hf, hd, hx, hslot, hw⟩
    exact transactionTimeout_outside h hg hf hd hx hslot hw
  · rintro ⟨hg, hf, hd⟩
    obtain ⟨write, hexec⟩ := exec_transactionTimeout_due h hg hf hd
    refine ⟨_, hexec, (State.settle_owed ..).trans ((State.failed_owed ..).trans ?_)⟩
    rw [State.contain_fabric, State.terminated_owed]
  · rintro ⟨hg, hd⟩
    exact ⟨s, exec_transactionTimeout_early h hg hd, rfl⟩
  · rintro ⟨hg, hd⟩
    exact ⟨_, (exec_arbitrationPromotion_waiting h hg).trans (congrArg _ (if_pos hd)), rfl, rfl⟩
  · rintro ⟨hj, hg, hd⟩
    exact ⟨_, exec_arbitrationPromotion_out h hj hg hd, rfl⟩
  · rintro ⟨hg, hd⟩
    exact ⟨s, (exec_arbitrationPromotion_waiting h hg).trans (congrArg _ (if_neg (Nat.not_le.2 hd))), rfl⟩

end Sys2Proof.Machine
end

section
/-!
PROOFS. The run state of the Weft contexts: the bit of a register that is set, what a start, a restart, a halt and a resume do
to their context and leave of the others, and the commands that order them.
-/
set_option Elab.async false
namespace Sys2Proof.Machine

/-! A bit of a field -/

theorem bitOf_eq_testBit (n i : Nat) : bitOf n i = n.testBit i := Nat.testBit_eq_decide_div_mod_eq.symm

theorem bitOf_withBit_same (n i : Nat) (b : Bool) : bitOf (withBit n i b) i = b := by
  have hadd (m : Nat) : (m + 2 ^ i).testBit i = !m.testBit i := by rw [Nat.add_comm, Nat.testBit_two_pow_add_eq]
  unfold withBit
  simp only [bitOf_eq_testBit]
  cases hbit : n.testBit i
  · cases b
    · simpa using hbit
    · simp [hadd, hbit]
  · cases b
    · have hsub := hadd (n - 2 ^ i)
      rw [Nat.sub_add_cancel (Nat.ge_two_pow_of_testBit hbit), hbit] at hsub
      simpa using hsub
    · simpa using hbit

/-- The bit of a field reads as set. -/
theorem State.bitOf_setBit_same (s : State) (a : Nat) {f : Fld} {i : Nat} (b : Bool) (h : f.lo ≤ f.hi) (h32 : f.hi < 32)
    (hi : i < f.hi + 1 - f.lo) : bitOf ((s.setBit a f i b).fld a f) i = b := by
  rw [State.setBit, State.fld_setFld_same s a f _ h h32, bitOf_eq_testBit, Nat.testBit_mod_two_pow, decide_eq_true hi,
    Bool.true_and, ← bitOf_eq_testBit, bitOf_withBit_same]

/-! The keys of the contexts of WS[n] -/

theorem engOf_CtxKey (n : Nat) (j : Fin 4) : engOf (CtxKey n j.val) = n := by
  have hj := j.isLt
  simp only [engOf, CtxKey]
  omega

theorem CtxKey_mod (n : Nat) (j : Fin 4) : CtxKey n j.val % 4 = j.val := by
  have hj := j.isLt
  simp only [CtxKey]
  omega

theorem CtxKey_lt {n : Nat} (hn : n < 8) (j : Fin 4) : CtxKey n j.val < 32 := by
  have hj := j.isLt
  simp only [CtxKey]
  omega

/-- A context of WS[n] starts at WSC[n].ENTRY (R67, R79). -/
theorem State.entryOf_CtxKey (s : State) {n : Nat} (hn : n < 8) (j : Fin 4) :
    s.entryOf (CtxKey n j.val) = s.rd (Reg.WSC_ENTRY n j.val) := by
  have heng : CtxKey n j.val / 4 = n := engOf_CtxKey n j
  rw [State.entryOf, if_pos (CtxKey_lt hn j), heng, CtxKey_mod]

/-! What leaves contexts and claims as they are -/

theorem CtxsOnly.trans {l : List Nat} {s t u : State} (h : CtxsOnly l s t) (k : CtxsOnly l t u) : CtxsOnly l s u :=
  fun i hi => (k i hi).trans (h i hi)

/-- From `s` to `t` only the contexts of `l` can have changed, and no claim of the debugger. -/
structure TouchesCtxs (l : List Nat) (s t : State) : Prop where
  claim : t.weft.claim = s.weft.claim
  ctxs : CtxsOnly l s t

theorem TouchesCtxs.of_same {l : List Nat} {s t : State} (h : t.weft = s.weft) : TouchesCtxs l s t :=
  ⟨congrArg Weft.claim h, CtxsOnly.of_same h⟩

theorem TouchesCtxs.refl (l : List Nat) (s : State) : TouchesCtxs l s s := .of_same rfl

theorem TouchesCtxs.trans {l : List Nat} {s t u : State} (h : TouchesCtxs l s t) (k : TouchesCtxs l t u) :
    TouchesCtxs l s u := ⟨k.claim.trans h.claim, h.ctxs.trans k.ctxs⟩

theorem TouchesCtxs.mono {l m : List Nat} {s t : State} (hs : l ⊆ m) (h : TouchesCtxs l s t) : TouchesCtxs m s t :=
  ⟨h.claim, fun k hk => h.ctxs k (fun hl => hk (hs hl))⟩

theorem State.setCtx_touches (s : State) (k : Nat) (x : Context) : TouchesCtxs [k] s (s.setCtx k x) :=
  ⟨rfl, fun _ hj => s.ctx_setCtx_ne x (fun e => hj (e ▸ List.mem_singleton_self _))⟩

theorem State.startCtx_touches (s : State) (k : Nat) : TouchesCtxs [k] s (s.startCtx k) := s.setCtx_touches k _

theorem State.wdtKick_touches (s : State) (k : Nat) : TouchesCtxs [k] s (s.wdtKick k) := by
  unfold State.wdtKick
  dsimp only
  split <;> exact s.setCtx_touches k _

theorem State.restartCtx_touches (s : State) (k : Nat) : TouchesCtxs [k] s (s.restartCtx k) :=
  (((s.setCtx_touches k _).trans (State.startCtx_touches ..)).trans (State.wdtKick_touches ..)).trans
    (.of_same ((State.recoversCell_moves ..).rest .weft rfl))

theorem State.haltIfDone_touches (s : State) (k : Nat) : TouchesCtxs [k] s (s.haltIfDone k) := by
  unfold State.haltIfDone
  dsimp only
  split
  · exact s.setCtx_touches k _
  · exact .refl _ s

theorem State.restart_touches (s : State) (k : Nat) : TouchesCtxs [k] s (s.restart k) := by
  have h (calls : KeyStore) : TouchesCtxs [k] s (((s.setKs calls).restartCtx k).haltIfDone k) :=
    ((TouchesCtxs.of_same (s := s) (t := s.setKs calls) rfl).trans (State.restartCtx_touches ..)).trans
      (State.haltIfDone_touches ..)
  unfold State.restart
  split
  · exact s.setCtx_touches k _
  · exact h _

theorem State.wake_touches (s : State) (k : Nat) : TouchesCtxs [k] s (s.wake k) := by
  unfold State.wake
  dsimp only
  split
  · split
    · split
      · exact s.setCtx_touches k _
      · exact .refl _ s
    · exact .refl _ s
  · exact .refl _ s

/-- Outside the pair a double trap halts its own context alone. -/
theorem State.doubleTrap_touches (s : State) {k : Nat} (code : Nat) (hk : engOf k ≠ 9) :
    TouchesCtxs [k] s (s.doubleTrap k code) := by
  unfold State.doubleTrap
  dsimp only
  rw [if_neg hk]
  exact (s.setCtx_touches k _).trans (.of_same (State.contain_weft ..))

theorem State.boundary_touches (s : State) {k : Nat} (hk : engOf k ≠ 9) : TouchesCtxs [k] s (s.boundary k) := by
  unfold State.boundary State.takeTrap
  dsimp only
  split
  · split
    · split <;> exact s.setCtx_touches k _
    · split
      · exact s.doubleTrap_touches _ hk
      · exact s.setCtx_touches k _
  · exact .refl _ s

theorem State.unhalt_touches (s : State) {k : Nat} (hk : engOf k ≠ 9) : TouchesCtxs [k] s (s.unhalt k) := by
  unfold State.unhalt
  dsimp only
  split
  · exact ((s.setCtx_touches k _).trans (State.wake_touches ..)).trans (State.boundary_touches _ hk)
  · exact .refl _ s

/-! A halt that is asked (R81, R82) -/

theorem State.haltAsked_congr {s t : State} {k : Nat} (hc : t.weft.claim = s.weft.claim)
    (hr : t.rd (Reg.WSC_CTX_CTRL (engOf k)) = s.rd (Reg.WSC_CTX_CTRL (engOf k))) : t.haltAsked k = s.haltAsked k := by
  simp only [State.haltAsked, State.fld, hc, hr]

/-- No halt is asked of a sequencer that is not claimed. -/
theorem State.haltAsked_unclaimed {s : State} {k : Nat} (h : Tab.get (fun _ => false) s.weft.claim (engOf k) = false) :
    s.haltAsked k = false := by simp [State.haltAsked, h]

theorem State.haltIfDone_unasked {s : State} {k : Nat} (h : s.haltAsked k = false) : s.haltIfDone k = s := by
  simp [State.haltIfDone, h]

theorem State.haltIfDone_asked {s : State} {k : Nat} (h : s.haltAsked k = true) (hr : (s.ctx k).run = .running)
    (ha : s.hasAccess k = false) (hs : (s.ctx k).stall = .none) :
    s.haltIfDone k = s.setCtx k (({ s.ctx k with run := .halted } : Context).freeze s.now) := by
  simp [State.haltIfDone, h, hr, ha, hs]

/-- HALT of a context of a claimed sequencer asks it to halt. -/
theorem State.haltAsked_setHalt {s : State} {n : Nat} (hn : n < 8) (j : Fin 4)
    (hc : Tab.get (fun _ => false) s.weft.claim n = true) :
    (s.setHalt (CtxKey n j.val) true).haltAsked (CtxKey n j.val) = true := by
  have hbit : bitOf ((s.setHalt (CtxKey n j.val) true).fld (Reg.WSC_CTX_CTRL n) F.WSC_CTX_CTRL_HALT) j.val = true := by
    rw [State.setHalt, engOf_CtxKey, CtxKey_mod]
    exact s.bitOf_setBit_same _ true (by decide) (by decide) j.isLt
  have hclaim : Tab.get (fun _ => false) (s.setHalt (CtxKey n j.val) true).weft.claim n = true := hc
  simp only [State.haltAsked, engOf_CtxKey, CtxKey_mod, CtxKey_lt hn j, hclaim, hbit, decide_true, Bool.and_self]

theorem State.setHalt_regsOnly (s : State) (n : Nat) (j : Fin 4) (b : Bool) :
    RegsOnly [Reg.WSC_CTX_CTRL n] s (s.setHalt (CtxKey n j.val) b) := by
  rw [State.setHalt, engOf_CtxKey]
  exact s.setFld_regsOnly _ _ (List.mem_singleton_self _)

/-- A context in debug halt that neither waits nor has a bus error pending runs on where it stopped. -/
theorem State.unhalt_quiet {s : State} {k : Nat} (hr : (s.ctx k).run = .halted) (hd : (s.ctx k).dead = false)
    (hw : (s.ctx k).wait = none) (hb : (s.ctx k).busPend = false) :
    s.unhalt k = s.setCtx k (({ s.ctx k with run := .running } : Context).thaw s.now) := by
  have hruns : s.unhalt k = ((s.setCtx k (({ s.ctx k with run := .running } : Context).thaw s.now)).wake k).boundary k :=
    if_pos (by simp [hr, hd])
  generalize hy : ({ s.ctx k with run := .running } : Context).thaw s.now = y at hruns ⊢
  have hwait : y.wait = none := by rw [← hy]; exact hw
  have hpend : y.busPend = false := by rw [← hy]; exact hb
  have hwake : (s.setCtx k y).wake k = s.setCtx k y := by simp [State.wake, hwait]
  have hquiet : (s.setCtx k y).boundary k = s.setCtx k y := State.boundary_quiet (.inl (by simpa using hpend))
  rw [hruns, hwake, hquiet]

/-! Start and restart (R67) -/

/-- A started context runs from its ENTRY, and keeps the rest but for its watchdog. -/
theorem State.startCtx_ctx (s : State) (k : Nat) : ∃ due left, (s.startCtx k).ctx k =
    { s.ctx k with pc := s.entryOf k, run := .running, dead := false, wait := none, stall := .none, wdtDue := due,
                   wdtLeft := left } :=
  ⟨_, _, s.ctx_setCtx_same k _⟩

theorem State.wdtKick_ctx (s : State) (k : Nat) : ∃ due left, (s.wdtKick k).ctx k =
    { s.ctx k with wdtDue := due, wdtLeft := left } := by
  unfold State.wdtKick
  dsimp only
  split <;> exact ⟨_, _, s.ctx_setCtx_same k _⟩

/-- What a restart clears of a context. -/
def Context.cleared (x : Context) : Context :=
  { x with w := [], acc := 0, status := 0, evtPend := 0, evtMeet := [], cmp := none, latch := [], restarting := false }

/-- The context that a restart leaves: cleared, running at the address `entry`, with its watchdog set anew. -/
def Context.restarted (x : Context) (entry : Word) (due left : Option Nat) : Context :=
  { x.cleared with pc := entry, run := .running, dead := false, wait := none, stall := .none, wdtDue := due,
                   wdtLeft := left }

theorem State.restartCtx_eq (s : State) (k : Nat) : s.restartCtx k =
    (((s.setCtx k (s.ctx k).cleared).startCtx k).wdtKick k).recoversCell 0x20 0x01 (engOf k) := rfl

theorem State.restartCtx_ctx (s : State) (k : Nat) :
    ∃ due left, (s.restartCtx k).ctx k = (s.ctx k).restarted (s.entryOf k) due left := by
  obtain ⟨_, _, hstart⟩ := (s.setCtx k (s.ctx k).cleared).startCtx_ctx k
  obtain ⟨due, left, hkick⟩ := ((s.setCtx k (s.ctx k).cleared).startCtx k).wdtKick_ctx k
  refine ⟨due, left, ?_⟩
  rw [State.restartCtx_eq, ctx_of_weft ((State.recoversCell_moves ..).rest .weft rfl), hkick, hstart,
    State.ctx_setCtx_same]
  rfl

theorem State.closeBlk_regsOnly (s : State) (b : Nat) :
    RegsOnly [Reg.ERR_BLK_STATUS b, Reg.ERR_BLK_CTRL b] s (s.closeBlk b) := by
  have hopen := s.setFlag_regsOnly (l := [Reg.ERR_BLK_STATUS b, Reg.ERR_BLK_CTRL b]) (a := Reg.ERR_BLK_STATUS b)
    F.ERR_BLK_STATUS_OPEN false (by simp)
  have hboth := hopen.trans (State.setFlag_regsOnly _ (a := Reg.ERR_BLK_CTRL b) F.ERR_BLK_CTRL_RECOVERED false (by simp))
  unfold State.closeBlk
  exact hboth.trans (RegsOnly.of_same rfl rfl)

/-- A recovery writes STATUS and CTRL of the record of its block and no other register. -/
theorem State.recoversCell_regsOnly (s : State) (b code cell : Nat) :
    RegsOnly [Reg.ERR_BLK_STATUS b, Reg.ERR_BLK_CTRL b] s (s.recoversCell b code cell) := by
  have hflag := s.setFlag_regsOnly (l := [Reg.ERR_BLK_STATUS b, Reg.ERR_BLK_CTRL b]) (a := Reg.ERR_BLK_CTRL b)
    F.ERR_BLK_CTRL_RECOVERED true (by simp)
  have hrecovered : RegsOnly [Reg.ERR_BLK_STATUS b, Reg.ERR_BLK_CTRL b] s (s.recoveredBlk b) := by
    unfold State.recoveredBlk
    dsimp only
    split
    · split
      · exact hflag.trans (State.closeBlk_regsOnly _ b)
      · exact hflag
    · exact RegsOnly.refl _ s
  unfold State.recoversCell State.recovers
  split
  · split
    · exact hrecovered
    · exact RegsOnly.refl _ s
  · exact RegsOnly.refl _ s

theorem State.restartCtx_regsOnly (s : State) (k : Nat) :
    RegsOnly [Reg.ERR_BLK_STATUS 0x20, Reg.ERR_BLK_CTRL 0x20] s (s.restartCtx k) := by
  have hweft := ((s.setCtx_moves k (s.ctx k).cleared).trans (State.startCtx_moves _ k)).trans (State.wdtKick_moves _ k)
  exact (RegsOnly.of_same (hweft.rest .regs rfl) (hweft.rest .live rfl)).trans (State.recoversCell_regsOnly _ 0x20 _ _)

/-- A restart leaves what is asked of its context. -/
theorem State.restartCtx_haltAsked (s : State) {k : Nat} : (s.restartCtx k).haltAsked k = s.haltAsked k := by
  refine State.haltAsked_congr (s.restartCtx_touches k).claim (s.restartCtx_regsOnly k _ ?_).1
  simp only [Reg.WSC_CTX_CTRL, Reg.ERR_BLK_STATUS, Reg.ERR_BLK_CTRL, List.mem_cons, List.not_mem_nil, or_false]
  omega

/-- A context that no access stalls restarts at once, and its secure calls are forgotten. -/
theorem State.restart_atOnce {s : State} {k : Nat} (h : (s.ctx k).stall ≠ .fabric) :
    ∃ calls, s.restart k = ((s.setKs calls).restartCtx k).haltIfDone k :=
  ⟨_, if_neg (by simp [h])⟩

theorem State.restart_ctx {s : State} {k : Nat} (h : (s.ctx k).stall ≠ .fabric) (ha : s.haltAsked k = false) :
    ∃ due left, (s.restart k).ctx k = (s.ctx k).restarted (s.entryOf k) due left := by
  obtain ⟨calls, hrestart⟩ := State.restart_atOnce h
  have hasked : ((s.setKs calls).restartCtx k).haltAsked k = false := (State.restartCtx_haltAsked _).trans ha
  rw [hrestart, State.haltIfDone_unasked hasked]
  exact (s.setKs calls).restartCtx_ctx k

/-- Whether or not a halt is asked, the restarted context stands at its ENTRY with its registers cleared. -/
theorem State.restart_clears {s : State} {k : Nat} (h : (s.ctx k).stall ≠ .fabric) :
    ((s.restart k).ctx k).pc = s.entryOf k ∧ ((s.restart k).ctx k).w = [] := by
  obtain ⟨calls, hrestart⟩ := State.restart_atOnce h
  obtain ⟨due, left, hctx⟩ := (s.setKs calls).restartCtx_ctx k
  have hkeeps := ((s.setKs calls).restartCtx k).haltIfDone_keeps k
  rw [hrestart, hkeeps.pc, hkeeps.w, hctx]
  exact ⟨rfl, rfl⟩

theorem Context.reg_of_w_nil {x : Context} (h : x.w = []) (i : Nat) : x.reg i = 0 := by simp [Context.reg, h]

/-! A claim reaches the four contexts of its sequencer (R81) -/

/-- What CTX_CTRL or a claim asks of the context of key `k` takes effect. -/
def State.sync (s : State) (k : Nat) : State := if s.haltAsked k then s.haltIfDone k else s.unhalt k

/-- That of the contexts `l` of WS[n], one after the other. -/
def State.syncs (s : State) (n : Nat) (l : List Nat) : State := l.foldl (fun s j => s.sync (CtxKey n j)) s

theorem State.haltsSync_eq (s : State) (n : Nat) : s.haltsSync n = s.syncs n [0, 1, 2, 3] := rfl

theorem State.syncs_append_cons (s : State) (n : Nat) (l m : List Nat) (j : Nat) :
    s.syncs n (l ++ j :: m) = ((s.syncs n l).sync (CtxKey n j)).syncs n m := by
  simp only [State.syncs, List.foldl_append, List.foldl_cons]

theorem State.sync_touches (s : State) {k : Nat} (hk : engOf k ≠ 9) : TouchesCtxs [k] s (s.sync k) := by
  unfold State.sync
  split
  · exact s.haltIfDone_touches k
  · exact s.unhalt_touches hk

theorem State.syncs_touches (s : State) {n : Nat} (hn : n < 8) {l : List Nat} (hl : ∀ j ∈ l, j < 4) :
    TouchesCtxs (l.map (CtxKey n)) s (s.syncs n l) := by
  refine List.foldlRecOn (motive := TouchesCtxs (l.map (CtxKey n)) s) l _ (.refl _ s) (fun t ht j hj => ht.trans ?_)
  have heng : engOf (CtxKey n j) ≠ 9 := by
    have hkey : engOf (CtxKey n j) = n := engOf_CtxKey n ⟨j, hl j hj⟩
    omega
  exact (t.sync_touches heng).mono (by simpa using ⟨j, hj, rfl⟩)

theorem State.haltsSync_claim (s : State) {n : Nat} (hn : n < 8) : (s.haltsSync n).weft.claim = s.weft.claim :=
  (s.syncs_touches hn (by decide)).claim

/-- A context that is not of `l` is not reached. -/
theorem State.syncs_ctx (s : State) {n j : Nat} (hn : n < 8) {l : List Nat} (hl : ∀ i ∈ l, i < 4 ∧ i ≠ j) :
    (s.syncs n l).ctx (CtxKey n j) = s.ctx (CtxKey n j) :=
  (s.syncs_touches hn (fun i hi => (hl i hi).1)).ctxs _ (by simpa [CtxKey] using fun hj => (hl j hj).2 rfl)

/-- Each of the four contexts is reached once: some before it, some after it. -/
theorem contexts_split (j : Fin 4) : ∃ before after, [0, 1, 2, 3] = before ++ j.val :: after ∧
    (∀ i ∈ before, i < 4 ∧ i ≠ j.val) ∧ (∀ i ∈ after, i < 4 ∧ i ≠ j.val) := by
  obtain ⟨before, after, hsplit⟩ := List.append_of_mem (a := j.val) (l := [0, 1, 2, 3]) (List.mem_range.2 j.isLt)
  have hlt : ∀ i ∈ before ++ j.val :: after, i < 4 := by rw [← hsplit]; decide
  have hnodup : (before ++ j.val :: after).Nodup := by rw [← hsplit]; decide
  have hnew : j.val ∉ before ++ after := (List.nodup_cons.1 (List.perm_middle.nodup hnodup)).1
  exact ⟨before, after, hsplit,
    fun i hi => ⟨hlt i (List.mem_append_left _ hi), fun e => hnew (List.mem_append_left _ (e ▸ hi))⟩,
    fun i hi => ⟨hlt i (List.mem_append_right _ (.tail _ hi)), fun e => hnew (List.mem_append_right _ (e ▸ hi))⟩⟩

/-- Once its sequencer is released, a context in debug halt that neither waits nor has a bus error pending runs on where it
stopped. -/
theorem State.haltsSync_runs {s : State} {n : Nat} (hn : n < 8) (j : Fin 4)
    (hc : Tab.get (fun _ => false) s.weft.claim n = false) (hr : (s.ctx (CtxKey n j.val)).run = .halted)
    (hd : (s.ctx (CtxKey n j.val)).dead = false) (hw : (s.ctx (CtxKey n j.val)).wait = none)
    (hb : (s.ctx (CtxKey n j.val)).busPend = false) :
    ∃ now, (s.haltsSync n).ctx (CtxKey n j.val) = ({ s.ctx (CtxKey n j.val) with run := .running } : Context).thaw now := by
  obtain ⟨before, after, hsplit, hbefore, hafter⟩ := contexts_split j
  have hctx := s.syncs_ctx hn hbefore
  have hclaim := (s.syncs_touches hn (fun i hi => (hbefore i hi).1)).claim
  have hunasked : (s.syncs n before).haltAsked (CtxKey n j.val) = false :=
    State.haltAsked_unclaimed (by rw [hclaim, engOf_CtxKey, hc])
  have hsync : (s.syncs n before).sync (CtxKey n j.val) = (s.syncs n before).unhalt (CtxKey n j.val) :=
    if_neg (by simp [hunasked])
  rw [← hctx] at hr hd hw hb
  refine ⟨(s.syncs n before).now, ?_⟩
  rw [State.haltsSync_eq, hsplit, State.syncs_append_cons, State.syncs_ctx _ hn hafter, hsync,
    State.unhalt_quiet hr hd hw hb, State.ctx_setCtx_same, hctx]

/-! The commands -/

theorem exec_ctxStart {s : State} {ws : Fin 8} {j : Fin 4} (h : s.acts .weft)
    (hr : (s.ctx (CtxKey ws.val j.val)).run = .stopped) :
    exec (.ctxStart ws j) s = .next ((s.startCtx (CtxKey ws.val j.val)).haltIfDone (CtxKey ws.val j.val)) := by
  have hup : s.up 0x20 = true := h
  exact congrArg Host.Outcome.next (if_pos (by simp [hup, hr]))

theorem exec_ctxRestart {s : State} (ws : Fin 8) (j : Fin 4) (h : s.acts .weft) :
    exec (.ctxRestart ws j) s = .next (s.restart (CtxKey ws.val j.val)) := congrArg Host.Outcome.next (if_pos h)

theorem exec_ctxWatchdogExpiry {s : State} {c : CtxId} (hc : c.eng.val < 8) (h : s.acts .weft)
    (hd : s.reached (s.ctx (ctxKey c)).wdtDue = true) :
    exec (.ctxWatchdogExpiry c) s =
      .next ((((s.setCtx (ctxKey c) { s.ctx (ctxKey c) with wdtDue := none }).restart (ctxKey c)).setBit
        (Reg.WSC_CTX_STATE c.eng.val) F.WSC_CTX_STATE_WDOG c.ctx.val true).note 0x20 c.eng.val 0x04) := by
  have hup : s.up (engBlock (engOf (ctxKey c))) = true := by rw [engOf_ctxKey, engBlock, if_pos hc]; exact h
  have hlt : ctxKey c < 32 := CtxKey_lt hc c.ctx
  refine congrArg Host.Outcome.next ((if_pos (by rw [hup, hd]; rfl)).trans ?_)
  dsimp only
  rw [if_pos hlt, engOf_ctxKey, ctxKey_mod]

theorem exec_ctxHalt {s : State} (ws : Fin 8) (j : Fin 4) (h : s.acts .weft) :
    exec (.ctxHalt ws j) s =
      .next ((s.setHalt (CtxKey ws.val j.val) true).haltIfDone (CtxKey ws.val j.val)) :=
  congrArg Host.Outcome.next (if_pos h)

theorem exec_ctxResume {s : State} (ws : Fin 8) (j : Fin 4) (h : s.acts .weft) :
    exec (.ctxResume ws j) s =
      .next ((s.setHalt (CtxKey ws.val j.val) false).unhalt (CtxKey ws.val j.val)) :=
  congrArg Host.Outcome.next (if_pos h)

/-- The debugger claims sequencer `n`, or releases it. -/
def State.setClaim (s : State) (n : Nat) (b : Bool) : State :=
  s.setWeft { s.weft with claim := Tab.set (fun _ => false) s.weft.claim n b }

theorem State.setClaim_claim (s : State) (n : Nat) (b : Bool) :
    Tab.get (fun _ => false) (s.setClaim n b).weft.claim n = b := Tab.get_set_same ..

theorem exec_debugClaim {s : State} (ws : Fin 8) (h : s.acts .debug) :
    exec (.debugClaim ws) s = .next ((s.setClaim ws.val true).haltsSync ws.val) := congrArg Host.Outcome.next (if_pos h)

theorem exec_debugRelease {s : State} (ws : Fin 8) (h : s.acts .debug) :
    exec (.debugRelease ws) s = .next ((s.setClaim ws.val false).haltsSync ws.val) :=
  congrArg Host.Outcome.next (if_pos h)

theorem exec_eccWriteback {s : State} {addr : Word} (h : s.ecc.back.contains (wordOf addr.toNat) = true) :
    exec (.eccWriteback addr) s = .next (s.mendWord addr.toNat) := congrArg Host.Outcome.next (if_pos h)

/-- The check bits of a mended word are valid, and it waits for no write-back. -/
theorem State.mendWord_mends (s : State) (a : Nat) :
    (s.mendWord a).damage a = .none ∧ (s.mendWord a).ecc.back.contains (wordOf a) = false :=
  ⟨by simp [State.damage, State.mendWord], by simp [State.mendWord]⟩

/-! What the commands do to their context -/

theorem ctxStart_runs {s : State} {ws : Fin 8} {j : Fin 4} (h : s.acts .weft)
    (hr : (s.ctx (CtxKey ws.val j.val)).run = .stopped) (ha : s.haltAsked (CtxKey ws.val j.val) = false) :
    Answers (.ctxStart ws j) s (fun t => (t.ctx (CtxKey ws.val j.val)).run = .running ∧
      (t.ctx (CtxKey ws.val j.val)).pc = s.rd (Reg.WSC_ENTRY ws.val j.val) ∧
      (t.ctx (CtxKey ws.val j.val)).w = (s.ctx (CtxKey ws.val j.val)).w ∧ CtxsOnly [CtxKey ws.val j.val] s t ∧
      t.regs = s.regs) := by
  have hasked : (s.startCtx (CtxKey ws.val j.val)).haltAsked (CtxKey ws.val j.val) = false := ha
  obtain ⟨due, left, hctx⟩ := s.startCtx_ctx (CtxKey ws.val j.val)
  refine ⟨_, (exec_ctxStart h hr).trans (congrArg _ (State.haltIfDone_unasked hasked)), ?_⟩
  dsimp only
  rw [hctx, ← s.entryOf_CtxKey ws.isLt]
  exact ⟨rfl, rfl, rfl, (s.startCtx_touches _).ctxs, rfl⟩

theorem ctxRestart_clears {s : State} {ws : Fin 8} {j : Fin 4} (h : s.acts .weft)
    (hs : (s.ctx (CtxKey ws.val j.val)).stall ≠ .fabric) (ha : s.haltAsked (CtxKey ws.val j.val) = false) :
    Answers (.ctxRestart ws j) s (fun t =>
      (∃ due left, t.ctx (CtxKey ws.val j.val) =
        (s.ctx (CtxKey ws.val j.val)).restarted (s.rd (Reg.WSC_ENTRY ws.val j.val)) due left) ∧
      CtxsOnly [CtxKey ws.val j.val] s t) :=
  ⟨_, exec_ctxRestart ws j h, s.entryOf_CtxKey ws.isLt j ▸ State.restart_ctx hs ha, (s.restart_touches _).ctxs⟩

/-- A watchdog that expires restarts its context and sets its WDOG. -/
theorem ctxWatchdogExpiry_restarts {s : State} {c : CtxId} (hc : c.eng.val < 8) (h : s.acts .weft)
    (hd : s.reached (s.ctx (ctxKey c)).wdtDue = true) (hs : (s.ctx (ctxKey c)).stall ≠ .fabric) :
    Answers (.ctxWatchdogExpiry c) s (fun t => (t.ctx (ctxKey c)).pc = s.rd (Reg.WSC_ENTRY c.eng.val c.ctx.val) ∧
      (∀ i : Fin 32, (t.ctx (ctxKey c)).reg i.val = 0) ∧
      bitOf (t.fld (Reg.WSC_CTX_STATE c.eng.val) F.WSC_CTX_STATE_WDOG) c.ctx.val = true ∧ CtxsOnly [ctxKey c] s t) := by
  have hexec := exec_ctxWatchdogExpiry hc h hd
  generalize hx : ({ s.ctx (ctxKey c) with wdtDue := none } : Context) = x at hexec
  have hstall : ((s.setCtx (ctxKey c) x).ctx (ctxKey c)).stall ≠ .fabric := by
    rw [State.ctx_setCtx_same, ← hx]
    exact hs
  obtain ⟨hpc, hw⟩ := State.restart_clears hstall
  have htouch := (s.setCtx_touches (ctxKey c) x).trans (State.restart_touches _ (ctxKey c))
  generalize (s.setCtx (ctxKey c) x).restart (ctxKey c) = u at hexec hpc hw htouch
  generalize hv : u.setBit (Reg.WSC_CTX_STATE c.eng.val) F.WSC_CTX_STATE_WDOG c.ctx.val true = v at hexec
  have hweft : (v.note 0x20 c.eng.val 0x04).weft = u.weft := by rw [State.note_weft, ← hv, State.setBit_weft]
  have hstate : Reg.WSC_CTX_STATE c.eng.val ∉ recordRegs 0x20 := by
    simp only [recordRegs, Reg.WSC_CTX_STATE, Reg.ERR_BLK_STATUS, List.mem_cons, List.not_mem_nil, or_false]
    omega
  refine ⟨_, hexec, ?_⟩
  dsimp only
  rw [ctx_of_weft hweft, State.fld, (v.note_regsOnly 0x20 _ _ _ hstate).1, ← hv, hpc]
  exact ⟨s.entryOf_CtxKey hc c.ctx, fun i => Context.reg_of_w_nil hw _,
    u.bitOf_setBit_same _ true (by decide) (by decide) c.ctx.isLt, hv ▸ (htouch.trans (.of_same hweft)).ctxs⟩

theorem ctxHalt_halts {s : State} {ws : Fin 8} {j : Fin 4} (h : s.acts .weft)
    (hc : Tab.get (fun _ => false) s.weft.claim ws.val = true) (hr : (s.ctx (CtxKey ws.val j.val)).run = .running)
    (hs : (s.ctx (CtxKey ws.val j.val)).stall = .none) (ha : s.hasAccess (CtxKey ws.val j.val) = false) :
    Writes (.ctxHalt ws j) s [Reg.WSC_CTX_CTRL ws.val] (fun t => (t.ctx (CtxKey ws.val j.val)).run = .halted ∧
      (t.ctx (CtxKey ws.val j.val)).pc = (s.ctx (CtxKey ws.val j.val)).pc ∧
      (t.ctx (CtxKey ws.val j.val)).w = (s.ctx (CtxKey ws.val j.val)).w ∧ CtxsOnly [CtxKey ws.val j.val] s t) := by
  have hhalt := State.haltIfDone_asked (State.haltAsked_setHalt ws.isLt j hc) hr ha hs
  refine ⟨_, (exec_ctxHalt ws j h).trans (congrArg _ hhalt), ?_, (s.setHalt_regsOnly ws.val j true).trans (.of_same rfl rfl)⟩
  dsimp only
  rw [State.ctx_setCtx_same]
  exact ⟨rfl, rfl, rfl, (TouchesCtxs.trans (.of_same rfl) (State.setCtx_touches ..)).ctxs⟩

theorem ctxResume_runs {s : State} {ws : Fin 8} {j : Fin 4} (h : s.acts .weft)
    (hr : (s.ctx (CtxKey ws.val j.val)).run = .halted) (hd : (s.ctx (CtxKey ws.val j.val)).dead = false)
    (hw : (s.ctx (CtxKey ws.val j.val)).wait = none) (hb : (s.ctx (CtxKey ws.val j.val)).busPend = false) :
    Writes (.ctxResume ws j) s [Reg.WSC_CTX_CTRL ws.val] (fun t => (t.ctx (CtxKey ws.val j.val)).run = .running ∧
      (t.ctx (CtxKey ws.val j.val)).pc = (s.ctx (CtxKey ws.val j.val)).pc ∧
      (t.ctx (CtxKey ws.val j.val)).w = (s.ctx (CtxKey ws.val j.val)).w ∧ CtxsOnly [CtxKey ws.val j.val] s t) := by
  have hrun := State.unhalt_quiet (s := s.setHalt (CtxKey ws.val j.val) false) hr hd hw hb
  refine ⟨_, (exec_ctxResume ws j h).trans (congrArg _ hrun), ?_,
    (s.setHalt_regsOnly ws.val j false).trans (.of_same rfl rfl)⟩
  dsimp only
  rw [State.ctx_setCtx_same]
  exact ⟨rfl, rfl, rfl, (TouchesCtxs.trans (.of_same rfl) (State.setCtx_touches ..)).ctxs⟩

theorem debugClaim_claims {s : State} (ws : Fin 8) (h : s.acts .debug) :
    Answers (.debugClaim ws) s (fun t => Tab.get (fun _ => false) t.weft.claim ws.val = true ∧ t.mem = s.mem) := by
  refine ⟨_, exec_debugClaim ws h, ?_, (State.haltsSync_moves ..).rest .mem rfl⟩
  rw [State.haltsSync_claim _ ws.isLt, State.setClaim_claim]

theorem debugRelease_runs {s : State} {ws : Fin 8} {j : Fin 4} (h : s.acts .debug)
    (hr : (s.ctx (CtxKey ws.val j.val)).run = .halted) (hd : (s.ctx (CtxKey ws.val j.val)).dead = false)
    (hw : (s.ctx (CtxKey ws.val j.val)).wait = none) (hb : (s.ctx (CtxKey ws.val j.val)).busPend = false) :
    Answers (.debugRelease ws) s (fun t => Tab.get (fun _ => false) t.weft.claim ws.val = false ∧
      (t.ctx (CtxKey ws.val j.val)).run = .running ∧
      (t.ctx (CtxKey ws.val j.val)).pc = (s.ctx (CtxKey ws.val j.val)).pc ∧
      (t.ctx (CtxKey ws.val j.val)).w = (s.ctx (CtxKey ws.val j.val)).w) := by
  obtain ⟨now, hctx⟩ := State.haltsSync_runs ws.isLt j (s.setClaim_claim ws.val false) hr hd hw hb
  refine ⟨_, exec_debugRelease ws h, ?_⟩
  dsimp only
  rw [State.haltsSync_claim _ ws.isLt, State.setClaim_claim, hctx]
  exact ⟨rfl, rfl, rfl, rfl⟩

/-- Settles O24, clause by clause: what each command does to its context, and what it leaves of the others. -/
theorem contextsStartRestartAndHalt : Obligations.ContextsStartRestartAndHalt := by
  intro s ws j c addr k x
  refine ⟨?_, ?_, ?_, ?_, ?_, ?_, ?_, ?_⟩
  · rintro ⟨h, hr, ha⟩
    exact ctxStart_runs h hr ha
  · rintro ⟨h, hs, ha⟩
    refine (ctxRestart_clears h hs ha).mono ?_
    rintro t ⟨⟨due, left, hctx⟩, honly⟩
    rw [hctx]
    exact ⟨rfl, rfl, fun i => Context.reg_of_w_nil rfl _, rfl, rfl, rfl, rfl, rfl, honly⟩
  · rintro ⟨hc, h, hd, hs⟩
    exact ctxWatchdogExpiry_restarts hc h hd hs
  · rintro ⟨h, hc, hr, hs, ha⟩
    exact ctxHalt_halts h hc hr hs ha
  · rintro ⟨h, hr, hd, hw, hb⟩
    exact ctxResume_runs h hr hd hw hb
  · exact debugClaim_claims ws
  · rintro ⟨h, hr, hd, hw, hb⟩
    exact debugRelease_runs h hr hd hw hb
  · intro h
    obtain ⟨hnone, hback⟩ := s.mendWord_mends addr.toNat
    exact ⟨_, exec_eccWriteback h, hnone, hback, rfl, rfl⟩

end Sys2Proof.Machine
end

section
/-!
PROOFS. Twill arithmetic: what an engine reads after it has gone on, the limits of sat64 and sat32, and the commands that
fill an accumulator.
-/
set_option Elab.async false
namespace Sys2Proof.Machine

/-! The field that an instruction flags -/

/-- A field put twice holds the later value. -/
theorem Fld.put_put (f : Fld) (v : Word) (x y : Nat) (h : f.lo ≤ f.hi) (h32 : f.hi < 32) :
    f.put (f.put v x) y = f.put v y := by
  refine BitVec.eq_of_toNat_eq (Nat.eq_of_testBit_eq fun i => ?_)
  rw [Fld.put_testBit _ _ _ _ h h32, Fld.put_testBit _ _ _ _ h h32, Fld.put_testBit _ _ _ _ h h32]
  split <;> rfl

theorem State.rd_twFlag (s : State) (e : Nat) (f : Fld) :
    (s.twFlag e f).rd (Reg.TW_STATUS e) = f.put (s.rd (Reg.TW_STATUS e)) 1 := State.rd_wr_same ..

theorem State.twFlag_regsOnly (s : State) (e : Nat) (f : Fld) : RegsOnly [Reg.TW_STATUS e] s (s.twFlag e f) :=
  s.setFlag_regsOnly f true (List.mem_singleton_self _)

/-! Engines -/

@[simp] theorem State.te_setTe_same (s : State) (e : Nat) (x : Engine) : (s.setTe e x).te e = x := Tab.get_set_same ..

theorem State.te_setTe_ne (s : State) {e g : Nat} (x : Engine) (h : g ≠ e) : (s.setTe e x).te g = s.te g :=
  Tab.get_set_ne _ _ h

theorem State.rd_setTe (s : State) (e : Nat) (x : Engine) (a : Nat) : (s.setTe e x).rd a = s.rd a := rfl

theorem State.te_congr {s t : State} (h : t.twill = s.twill) (e : Nat) : t.te e = s.te e := by rw [State.te, h]; rfl

theorem GoesOn.setTe {s t : State} {e cyc : Nat} {f g : Engine → Engine} (h : GoesOn s t e cyc f) :
    GoesOn s (t.setTe e (g (t.te e))) e cyc (g ∘ f) :=
  ⟨by rw [State.te_setTe_same, h.1]; rfl, fun k hk => (t.te_setTe_ne _ hk).trans (h.2 k hk)⟩

theorem GoesOn.congr {s t u : State} {e cyc : Nat} {f : Engine → Engine} (h : GoesOn s t e cyc f)
    (ht : u.twill = t.twill) : GoesOn s u e cyc f :=
  ⟨(State.te_congr ht e).trans h.1, fun k hk => (State.te_congr ht k).trans (h.2 k hk)⟩

/-- The state from which an instruction of engine `e` acts: the engine has gone on by `cyc` cycles (R118). -/
def State.wentOn (s : State) (e cyc : Nat) : State := s.setTe e ((s.te e).next cyc)

theorem State.wentOn_regsOnly (s : State) (e cyc : Nat) (l : List Nat) : RegsOnly l s (s.wentOn e cyc) := .of_same rfl rfl

theorem State.goesOn_wentOn (s : State) (e cyc : Nat) : GoesOn s (s.wentOn e cyc) e cyc id :=
  ⟨s.te_setTe_same .., fun _ hg => s.te_setTe_ne _ hg⟩

/-- A legal instruction that issues acts on the engine that has gone on. -/
theorem twill_issues {s : State} {e : Fin 4} {ok : Bool} (cyc : Nat) (f : State → State) (h : Issues s e.val)
    (hok : ok = true) : twill e ok cyc s f = f (s.wentOn e.val cyc) := by
  obtain ⟨hi, hpc⟩ := h
  simp only [twill, hi, hok, hpc, if_true, decide_true, Bool.and_self]
  rfl

/-! What an engine that has gone on reads: its accumulators, the data space, the coefficients and the tables -/

@[simp] theorem State.wentOn_a (s : State) (e cyc i : Nat) : ((s.wentOn e cyc).te e).a i = (s.te e).a i := by
  rw [State.wentOn, State.te_setTe_same]
  rfl

@[simp] theorem State.wentOn_data (s : State) (e cyc x : Nat) : (s.wentOn e cyc).data e x = s.data e x := by
  have hport : ((s.wentOn e cyc).te e).port = (s.te e).port := by
    rw [State.wentOn, State.te_setTe_same]
    rfl
  simp only [State.data, hport]
  rfl

@[simp] theorem State.wentOn_prod (s : State) (e cyc k : Nat) (v : Int) : (s.wentOn e cyc).prod e v k = s.prod e v k := rfl

@[simp] theorem State.wentOn_ff (s : State) (e cyc t : Nat) (v : Word) : (s.wentOn e cyc).ff e t v = s.ff e t v := rfl

/-- Bits 4:0 of a word, as two's complement. -/
theorem signed_low_five_bits (w : Word) : signed 5 (w.toNat % 32) = (w.extractLsb' 0 5).toInt := by
  simp only [signed, BitVec.toInt, BitVec.extractLsb'_toNat, Nat.shiftRight_zero]
  split <;> split <;> omega

theorem natCast_two_pow (n : Nat) : ((2 ^ n : Nat) : Int) = 2 ^ n := Int.natCast_pow 2 n

/-- p(v, k) as R114 writes it. -/
theorem State.prod_eq (s : State) (e k : Nat) (v : Int) : s.prod e v k =
    Int.tdiv (v * (s.lv (Reg.TW_COEF_VAL e k)).toInt *
      2 ^ (((s.lv (Reg.TW_COEF_SHIFT e k)).extractLsb' 0 5).toInt + 16).toNat) (2 ^ 47) := by
  simp only [State.prod, signed_low_five_bits, divZero, natCast_two_pow]

/-! The limits of sat64 and sat32 (R115) -/

theorem clampInt_eq {lo hi : Int} (h : lo ≤ hi) (v : Int) : clampInt lo hi v = max lo (min hi v) := by
  unfold clampInt
  split
  · omega
  · split <;> omega

theorem clampInt_eq_self {lo hi : Int} (h : lo ≤ hi) (v : Int) : clampInt lo hi v = v ↔ ¬ (v < lo ∨ hi < v) := by
  rw [clampInt_eq h]
  omega

theorem sat32_eq (v : Int) : sat32 v = max (-2 ^ 31) (min (2 ^ 31 - 1) v) := clampInt_eq (by decide) v

@[simp] theorem State.twSat_twill (s : State) (e : Nat) (v : Int) : (s.twSat e v).twill = s.twill :=
  (s.twSat_moves e v).rest .twill rfl

/-- Q is set where the value lies beyond 32 bits. -/
theorem State.rd_twSat (s : State) (e : Nat) (v : Int) : (s.twSat e v).rd (Reg.TW_STATUS e) =
    if decide (v < -2 ^ 31 ∨ 2 ^ 31 - 1 < v) = true then F.TW_STATUS_Q.put (s.rd (Reg.TW_STATUS e)) 1
    else s.rd (Reg.TW_STATUS e) := by
  have hfits : sat32 v = v ↔ ¬ (v < -2 ^ 31 ∨ 2 ^ 31 - 1 < v) := clampInt_eq_self (by decide) v
  by_cases hout : v < -2 ^ 31 ∨ 2 ^ 31 - 1 < v
  · rw [State.twSat, if_neg (fun h => hfits.1 h hout), State.rd_twFlag, if_pos (decide_eq_true hout)]
  · rw [State.twSat, if_pos (hfits.2 hout), if_neg (by simpa using hout)]

theorem State.twSat_regsOnly (s : State) (e : Nat) (v : Int) : RegsOnly [Reg.TW_STATUS e] s (s.twSat e v) := by
  unfold State.twSat
  split
  · exact RegsOnly.refl _ s
  · exact s.twFlag_regsOnly e _

theorem State.twPut_regsOnly (s : State) (e d : Nat) (v : Int) : RegsOnly [Reg.TW_STATUS e] s (s.twPut e d v) := by
  have hset (x : Engine) : RegsOnly [Reg.TW_STATUS e] s (s.setTe e x) := .of_same rfl rfl
  unfold State.twPut
  dsimp only
  split
  · exact hset _
  · exact (hset _).trans (State.twFlag_regsOnly _ e _)

/-- a[d] takes sat64(v) in a state where Q is set already if `q`. -/
theorem State.twPut_accum {s t : State} {e cyc : Nat} {q : Bool} (d : Nat) (v : Int) (h : GoesOn s t e cyc id)
    (hq : t.rd (Reg.TW_STATUS e) =
      if q = true then F.TW_STATUS_Q.put (s.rd (Reg.TW_STATUS e)) 1 else s.rd (Reg.TW_STATUS e)) :
    Accum s (t.twPut e d v) e d cyc v q := by
  have hclamp := clampInt_eq (lo := -9223372036854775808) (hi := 9223372036854775807) (by decide) v
  have hfits := clampInt_eq_self (lo := -9223372036854775808) (hi := 9223372036854775807) (by decide) v
  have hset := h.setTe (g := fun x => x.setA d (BitVec.ofInt 64 (max (-2 ^ 63) (min (2 ^ 63 - 1) v))))
  unfold State.twPut
  rw [hclamp] at hfits ⊢
  dsimp only
  by_cases hout : v < -2 ^ 63 ∨ 2 ^ 63 - 1 < v
  · rw [if_neg (fun h => hfits.1 h hout)]
    refine ⟨hset.congr ((State.twFlag_moves ..).rest .twill rfl), ?_⟩
    rw [State.rd_twFlag, State.rd_setTe, hq, if_pos (Or.inr hout)]
    split
    · exact Fld.put_put _ _ _ _ (by decide) (by decide)
    · rfl
  · rw [if_pos (hfits.2 hout)]
    refine ⟨hset, ?_⟩
    rw [State.rd_setTe, hq]
    simp only [or_iff_left hout]

/-! Instructions that fill an accumulator -/

/-- One that writes a value of the state. -/
theorem writes_of_twAcc {i : Instr} {s : State} {e : Fin 4} {d : Fin 16} {ok : Bool} {cyc : Nat} {f : State → Int} {v : Int}
    (h : Issues s e.val) (hok : ok = true) (he : exec i s = .next (twAcc e d ok cyc s f)) (hv : f (s.wentOn e.val cyc) = v) :
    Writes i s [Reg.TW_STATUS e.val] (fun t => Accum s t e.val d.val cyc v false) := by
  subst hv
  refine ⟨_, he.trans (congrArg _ (twill_issues cyc _ h hok)), ?_, ?_⟩
  · exact State.twPut_accum d.val _ (s.goesOn_wentOn e.val cyc) rfl
  · exact (s.wentOn_regsOnly e.val cyc _).trans (State.twPut_regsOnly _ _ _ _)

/-- One that writes what `f` makes of a[d] and the product with sat32(a[s]). -/
theorem writes_of_twAccProd {i : Instr} {s : State} {e : Fin 4} {d sa : Fin 16} {k : BitVec 8} {f : Int → Int → Int}
    {v : Int} (h : Issues s e.val) (he : exec i s = .next (twAccProd e d sa k s f))
    (hv : f ((s.te e.val).a d.val)
      (s.prod e.val (max (-2 ^ 31) (min (2 ^ 31 - 1) ((s.te e.val).a sa.val))) k.toNat) = v) :
    Writes i s [Reg.TW_STATUS e.val] (fun t => Accum s t e.val d.val 1 v
      (decide ((s.te e.val).a sa.val < -2 ^ 31 ∨ 2 ^ 31 - 1 < (s.te e.val).a sa.val))) := by
  subst hv
  refine ⟨_, he.trans (congrArg _ (twill_issues 1 _ h rfl)), ?_, ?_⟩
  · simp only [State.wentOn_a, State.wentOn_prod, sat32_eq]
    exact State.twPut_accum d.val _ ((s.goesOn_wentOn e.val 1).congr (State.twSat_twill ..)) (State.rd_twSat ..)
  · exact ((s.wentOn_regsOnly e.val 1 _).trans (State.twSat_regsOnly _ _ _)).trans (State.twPut_regsOnly _ _ _ _)

/-- SHA to the left, or to the right toward zero (R118). -/
theorem shift_of_nonneg {k : Int} (v : Int) (h : 0 ≤ k) :
    (if 0 ≤ k then v * (2 ^ k.toNat : Nat) else divZero v (2 ^ (-k).toNat : Nat)) = v * 2 ^ k.toNat := by
  rw [if_pos h, natCast_two_pow]

theorem shift_of_neg {k : Int} (v : Int) (h : k < 0) :
    (if 0 ≤ k then v * (2 ^ k.toNat : Nat) else divZero v (2 ^ (-k).toNat : Nat)) = Int.tdiv v (2 ^ (-k).toNat) := by
  rw [if_neg (by omega), divZero, natCast_two_pow]

/-- DIVA by a number that is not 0 (R118). -/
theorem writes_diva {s : State} {e : Fin 4} (d sa : Fin 16) {x : BitVec 12} (h : Issues s e.val)
    (hx : inDataSpace x.toNat = true) (hy : s.data e.val x.toNat ≠ 0) :
    Writes (.diva e d sa x) s [Reg.TW_STATUS e.val] (fun t => Accum s t e.val d.val 24
      (Int.tdiv ((s.te e.val).a sa.val * 2 ^ 31) (s.data e.val x.toNat)) false) := by
  refine ⟨_, congrArg Host.Outcome.next (twill_issues 24 _ h hx), ?_⟩
  simp only [State.wentOn_data, State.wentOn_a, if_neg hy]
  exact ⟨State.twPut_accum d.val _ (s.goesOn_wentOn e.val 24) rfl,
    (s.wentOn_regsOnly e.val 24 _).trans (State.twPut_regsOnly _ _ _ _)⟩

/-- DIVA by 0 gives the limit on the side of a[s], and sets DZ (R118). -/
theorem writes_diva_zero {s : State} {e : Fin 4} (d sa : Fin 16) {x : BitVec 12} (h : Issues s e.val)
    (hx : inDataSpace x.toNat = true) (hy : s.data e.val x.toNat = 0) :
    Writes (.diva e d sa x) s [Reg.TW_STATUS e.val] (fun t => GoesOn s t e.val 24 (fun z => z.setA d.val
      (if (s.te e.val).a sa.val < 0 then 0x8000000000000000 else 0x7FFFFFFFFFFFFFFF)) ∧
        t.rd (Reg.TW_STATUS e.val) = F.TW_STATUS_DZ.put (s.rd (Reg.TW_STATUS e.val)) 1) := by
  refine ⟨_, congrArg Host.Outcome.next (twill_issues 24 _ h hx), ?_⟩
  simp only [State.wentOn_data, State.wentOn_a, if_pos hy]
  have hset := (s.goesOn_wentOn e.val 24).setTe (g := fun z => z.setA d.val
    (if (s.te e.val).a sa.val < 0 then 0x8000000000000000 else 0x7FFFFFFFFFFFFFFF))
  exact ⟨⟨hset.congr ((State.twFlag_moves ..).rest .twill rfl), State.rd_twFlag ..⟩,
    RegsOnly.trans (.of_same rfl rfl) (State.twFlag_regsOnly _ _ _)⟩

/-- STA writes sat32(a[s]) to a word of M (R115, R118). -/
theorem writes_sta {s : State} {e : Fin 4} (sa : Fin 16) {x : BitVec 12} (h : Issues s e.val) (hx : x.toNat < 0x200) :
    Writes (.sta e x sa) s [Reg.TW_M e.val x.toNat, Reg.TW_STATUS e.val] (fun t =>
      GoesOn s t e.val 1 (fun z => { z with sta := some (Reg.TW_M e.val x.toNat, s.now) }) ∧
        t.rd (Reg.TW_M e.val x.toNat) = BitVec.ofInt 32 (max (-2 ^ 31) (min (2 ^ 31 - 1) ((s.te e.val).a sa.val))) ∧
        t.rd (Reg.TW_STATUS e.val) =
          if decide ((s.te e.val).a sa.val < -2 ^ 31 ∨ 2 ^ 31 - 1 < (s.te e.val).a sa.val) = true then
            F.TW_STATUS_Q.put (s.rd (Reg.TW_STATUS e.val)) 1
          else s.rd (Reg.TW_STATUS e.val)) := by
  have hne : Reg.TW_STATUS e.val ≠ Reg.TW_M e.val x.toNat := by
    simp only [Reg.TW_STATUS, Reg.TW_M]
    omega
  refine ⟨_, congrArg Host.Outcome.next (twill_issues 1 _ h (decide_eq_true hx)), ?_⟩
  simp only [State.wentOn_a]
  generalize (s.te e.val).a sa.val = v
  have hset := (s.goesOn_wentOn e.val 1).setTe (g := fun z => { z with sta := some (Reg.TW_M e.val x.toNat, s.now) })
  refine ⟨⟨hset.congr (State.twSat_twill ..), ?_, ?_⟩, ?_⟩
  · rw [(State.twSat_regsOnly _ _ _ _ (by simpa using hne.symm)).1, State.rd_wr_same, sat32_eq]
  · rw [State.rd_twSat, State.rd_wr_ne _ _ hne]
    rfl
  · have hm : RegsOnly [Reg.TW_M e.val x.toNat, Reg.TW_STATUS e.val] s
        (((s.wentOn e.val 1).setTe e.val { (s.wentOn e.val 1).te e.val with
          sta := some (Reg.TW_M e.val x.toNat, s.now) }).wr (Reg.TW_M e.val x.toNat) (BitVec.ofInt 32 (sat32 v))) :=
      RegsOnly.trans (.of_same rfl rfl) (State.wr_regsOnly _ _ (by simp))
    exact hm.trans ((State.twSat_regsOnly _ _ _).mono (by simp))

/-- Settles O27, clause by clause: an instruction that fills an accumulator does so by `twAcc` or `twAccProd`. -/
theorem twillArithmeticFillsAccumulators : Obligations.TwillArithmeticFillsAccumulators := by
  intro s e d sa ta x k h
  simp only [← State.prod_eq]
  refine ⟨?_, ?_, ?_, ?_, ?_, ?_, ?_, ?_, ?_, ?_, ?_, ?_, ?_, ?_, ?_, ?_, ?_, ?_, ?_, ?_, ?_, ?_, ?_⟩
  · exact fun hx => writes_of_twAcc h hx rfl (by simp)
  · exact fun hx => writes_of_twAcc h hx rfl (by simp)
  · exact fun hx => writes_of_twAcc h hx rfl (by simp)
  · exact fun hx => writes_of_twAcc h hx rfl (by simp)
  · exact writes_of_twAccProd h rfl rfl
  · exact writes_of_twAccProd h rfl rfl
  · exact writes_of_twAccProd h rfl rfl
  · exact writes_of_twAcc h rfl rfl (by simp)
  · exact writes_of_twAcc h rfl rfl (by simp)
  · exact writes_of_twAcc h rfl rfl (by simp)
  · exact writes_of_twAcc h rfl rfl (by simp)
  · exact writes_of_twAcc h rfl rfl (by rw [State.wentOn_a]; split <;> omega)
  · exact writes_of_twAcc h rfl rfl (by simp)
  · exact writes_of_twAcc h rfl rfl (by simp)
  · exact writes_of_twAcc h rfl rfl (by simp)
  · rintro ⟨hlo, hhi⟩
    exact writes_of_twAcc h (decide_eq_true ⟨by omega, hhi⟩) rfl (by rw [State.wentOn_a, shift_of_nonneg _ hlo])
  · rintro ⟨hlo, hhi⟩
    exact writes_of_twAcc h (decide_eq_true ⟨hlo, by omega⟩) rfl (by rw [State.wentOn_a, shift_of_neg _ hhi])
  · rintro ⟨hx, hy⟩
    exact writes_diva d sa h hx hy
  · rintro ⟨hx, hy⟩
    exact writes_diva_zero d sa h hx hy
  · rintro ⟨hx, hk⟩
    exact writes_of_twAcc h (by simp [hx, hk]) rfl (by simp)
  · rintro ⟨hx, hk⟩
    exact writes_of_twAcc h (by simp [hx, hk]) rfl (by simp)
  · exact ⟨_, congrArg Host.Outcome.next (twill_issues 1 id h rfl), s.goesOn_wentOn e.val 1, s.wentOn_regsOnly e.val 1 _⟩
  · exact writes_sta sa h

end Sys2Proof.Machine
end

section
/-!
PROOFS. Twill runs of a slot that does not exist: the length of such a run is written past the slots, into the record of
Twill itself.
-/
set_option Elab.async false
namespace Sys2Proof.Machine

/-- A run of engine 0 that has taken its 8 cycles. Its slot is none of the eight (R120): the place of its TW_SLOT_STAT is
that of ERR_BLK[1].STATUS, where the length 8 sets OPEN. -/
def strayRun : SlotRun := ⟨0x100403B8, 0, 8, none⟩

/-- Engine 0 is in that run, which has a budget of 8 cycles, and the record of Twill is closed. -/
def straysIntoRecord : State :=
  (State.reset.setTe 0 { Engine.reset with run := some strayRun }).setFld (Reg.TW_SLOT_BUDGET 0 strayRun.slot)
    F.TW_SLOT_BUDGET_CYC 8

theorem straysIntoRecord_meets : straysIntoRecord.acts .twill ∧ (straysIntoRecord.te 0).run = some strayRun ∧
    straysIntoRecord.budget 0 strayRun.slot ≤ 8 ∧
    straysIntoRecord.flag (Reg.ERR_BLK_STATUS 1) F.ERR_BLK_STATUS_OPEN = false := by decide +kernel

theorem Answers.and {i : Instr} {s : State} {P Q : State → Prop} (h : Answers i s P) (k : Answers i s Q) :
    Answers i s (fun t => P t ∧ Q t) := by
  obtain ⟨t, ht, hp⟩ := h
  obtain ⟨u, hu, hq⟩ := k
  exact ⟨t, ht, hp, Host.Outcome.next.inj (hu.symm.trans ht) ▸ hq⟩

/-- The CONTAIN of a budget that is spent meets a record that the end of the run has opened, and leaves its code. -/
theorem budgetExpiry_keeps_code : Answers (.twBudgetExpiry 0) straysIntoRecord (fun t => (t.blkRec 1).code = 0) :=
  ⟨_, congrArg Host.Outcome.next (State.onBlk_up straysIntoRecord_meets.1), by decide +kernel⟩

/-- So does the CONTAIN of an uncorrectable memory error, which stops the engine first. -/
theorem memoryEcc_keeps_code : Answers (.twMemoryEcc 0 0 true) straysIntoRecord (fun t => (t.blkRec 1).code = 0) :=
  ⟨_, congrArg Host.Outcome.next (State.onBlk_up straysIntoRecord_meets.1), by decide +kernel⟩

/-- Refutes O28: a run whose slot is none of the eight ends at its budget, and code 0x03 is not the code of the record. -/
theorem not_twillControlAndSlots : ¬ Obligations.TwillControlAndSlots := by
  intro h
  obtain ⟨hacts, hrun, hbudget, hclosed⟩ := straysIntoRecord_meets
  obtain ⟨-, -, -, -, -, -, -, -, -, -, -, -, -, hexpiry⟩ := h straysIntoRecord 0 0 0 0 0 0 0 0 0 0 0 0 0 0 strayRun 0
  obtain ⟨t, -, ⟨-, -, -, -, -, hopens⟩, hcode⟩ := (hexpiry ⟨hacts, hrun, hbudget⟩).and budgetExpiry_keeps_code
  obtain ⟨hthree, -⟩ := hopens hclosed
  exact absurd (hthree.symm.trans hcode) (by decide)

/-- Refutes O29: an engine in such a run stops at an uncorrectable error, and code 0x06 is not the code of the record. -/
theorem not_twillRegistersAndSetPoints : ¬ Obligations.TwillRegistersAndSetPoints := by
  intro h
  obtain ⟨hacts, -, -, hclosed⟩ := straysIntoRecord_meets
  obtain ⟨-, -, -, -, -, -, -, ⟨-, hecc⟩, -⟩ := h straysIntoRecord 0 0 0 0 0 0 0 0 0 hacts
  obtain ⟨t, -, ⟨-, -, -, -, hopens⟩, hcode⟩ := hecc.and memoryEcc_keeps_code
  obtain ⟨hsix, -⟩ := hopens hclosed
  exact absurd (hsix.symm.trans hcode) (by decide)

end Sys2Proof.Machine
end
